-- ==== Sys2Proof/Word.lean ====
section
/-!
DEFINITION. The word types of the lane: 32-bit register and memory words, bytes, 20-bit engine words, 48-bit
accumulators (R16, R21).
-/
namespace Sys2Proof

/-- A register or memory word (R21: every register is 32 bits wide). -/
abbrev Word := BitVec 32

/-- One byte of memory. -/
abbrev Byte := BitVec 8

/-- A 20-bit engine word: Q1.19 or Q3.17, or an angle in counts (R16, R18). -/
abbrev Q20 := BitVec 20

/-- A 48-bit accumulator, Q12.36 (R16). -/
abbrev Acc48 := BitVec 48

end Sys2Proof
end

