-- ==== Sys2Proof/Syntax.lean ====
section
/-!
DEFINITION. The commands of the lane: one constructor of `Instr` for each row of the opcode table, with the operands the
row's rule speaks of. A command is a request of an engine, a host or a tool, a frame or transaction that arrives, an edge
or finding on a pin, or a moment that the lane's own clocks reach.
-/
namespace Sys2Proof

/-- Bridge A is 0, bridge B is 1 (R6). -/
abbrev Bridge := Fin 2
/-- Lane A is 0, B is 1, C is 2 (R5). -/
abbrev Lane := Fin 3
/-- Ebpen port E0 or E1. -/
abbrev Port := Fin 2
/-- A principal core with its double (R87). -/
abbrev Pair := Fin 4
/-- A logical Heldiog engine (R205). -/
abbrev Eng := Fin 7
/-- A cue of a cue sheet (R121). -/
abbrev Cue := Fin 64
/-- A switch of a bridge, numbered as in R326. -/
abbrev Switch := Fin 6
/-- POS0 or POS1. -/
abbrev PosBlk := Fin 2
/-- A SENT receiver. -/
abbrev SentCh := Fin 4
/-- A current-sensing channel (R180). -/
abbrev IsnsCh := Fin 4
/-- A CAN controller. -/
abbrev CanCtl := Fin 4
/-- An entry of the Usile poll sheet. -/
abbrev UslEnt := Fin 128
/-- A twin pair (R442). -/
abbrev TwinPair := Fin 16
/-- A data register of a Heldiog engine (R210). -/
abbrev XReg := Fin 16

/-- Who makes an access, in the numbering of SYS_BUSERR.REQ (R76), with the scrubber of R72. -/
inductive Requester where
  | p (i : Fin 4) | h (i : Fin 8) | s | v | g | k | dbg | scrubber
  deriving DecidableEq, Repr

/-- The atomic operations of the A extension (R82). -/
inductive AmoOp where
  | swap | add | xor | and | or | min | max | minu | maxu
  deriving DecidableEq, Repr

/-- What a memory access does (R69, R74, R82). -/
inductive AccessKind where
  | read | write | fetch | lr | sc | amo (op : AmoOp)
  deriving DecidableEq, Repr

/-- The width of an access (R653). -/
inductive Width where
  | byte | half | word
  deriving DecidableEq, Repr

/-- What the error-correcting code of a memory found at a read (R68, R69): a physical finding. -/
inductive EccFinding where
  | clean | single | uncorrectable
  deriving DecidableEq, Repr

/-- A register of a principal core (R87, R108). -/
inductive CoreReg where
  | x (i : Fin 32) | f (i : Fin 32) | fcsr | pc | csr (n : BitVec 12)
  deriving DecidableEq, Repr

/-- What a principal core's program has come to since the pair's last command: the registers it has written, in order, what a physical
disturbance has changed in the double's copy of them alone, and the mode it runs in. -/
structure Progress where
  writes : List (CoreReg × Word)
  strays : List (CoreReg × Word)
  machineMode : Bool
  deriving DecidableEq, Repr

/-- A memory access: what, where, how wide, the data of a write, what a principal core's program has come to, and what
the error-correcting codes of the memory and of the cache found. -/
structure MemAccess where
  kind : AccessKind
  addr : Word
  width : Width
  data : Word
  prog : Progress
  found : EccFinding
  cacheFound : EccFinding
  deriving DecidableEq, Repr

/-- A request that stands at the interconnect in the same cycle as another (R72): who makes it, the access, and the interconnect
cycles for which it has waited. -/
structure Request where
  r : Requester
  m : MemAccess
  waited : Nat
  deriving DecidableEq, Repr

/-- An access with the other requests that stand in its interconnect cycle (R72), and the cycles for which it has waited. -/
structure CycleAccess where
  own : MemAccess
  waited : Nat
  rivals : List Request
  deriving DecidableEq, Repr

/-- A principal core that the debugger halts, and what its program has come to (R108). -/
structure HaltedPair where
  pair : Pair
  prog : Progress
  deriving DecidableEq, Repr

/-- The compared output bits of one copy of a core in one core cycle, 403 in all (R91). -/
structure CoreOutputs where
  fetchAddr : Word
  fetchCtl : BitVec 8
  dataAddr : Word
  dataCtl : BitVec 12
  dataOut : Word
  dataBe : BitVec 4
  tcmAddr : BitVec 15
  tcmCtl : BitVec 6
  tcmOut : Word
  tcmBe : BitVec 4
  cacheWrite : BitVec 82
  claim : BitVec 24
  debug : BitVec 40
  trace : BitVec 48
  rails : Word
  deriving DecidableEq, Repr

/-- The qualifiers of R91: which of the outputs are valid in the cycle. -/
structure Qualifiers where
  fetch : Bool
  data : Bool
  tcm : Bool
  cacheWrite : Bool
  debug : Bool
  trace : Bool
  deriving DecidableEq, Repr

/-- One core cycle at the comparator of a pair (R91 to R94, R99): the outputs of the main core, delayed, and of the double, the
qualifiers, whether the cycle is odd, the value that a fault inside the tree puts on the final output pair, and the parity groups
of the delay registers that report an error. -/
structure LockstepFinding where
  main : CoreOutputs
  double : CoreOutputs
  valid : Qualifiers
  odd : Bool
  tree : Option (BitVec 2)
  parity : BitVec 52
  deriving DecidableEq, Repr

/-- What the injection sequencer met at one pair (R104): the injections, by group, bit and the main core's bit, that gave no violation
or not the flag of their group; whether the output alternated; and the parity groups whose flip was not reported. -/
structure PairTest where
  missed : List (Fin 18 × Fin 64 × Bool)
  alternates : Bool
  unreported : List (Fin 52)
  deriving DecidableEq, Repr

/-- A defect that the memory BIST finds, or a row marked in service (R66, R608, R620): a row or a column of an SRAM macro, or a row of a
TCM or a cache. -/
inductive Defect where
  | row (macro_ : Fin 48) (index : Nat) | col (macro_ : Fin 48) (index : Nat) | local_ (index : Nat)
  deriving DecidableEq, Repr

/-- The levels of the edge inputs of a POS block. -/
structure EdgeLines where
  a : Bool
  b : Bool
  hall : BitVec 3
  deriving DecidableEq, Repr

/-- The edge interfaces of a POS block (R138). -/
inductive EdgeIface where
  | abz | hall
  deriving DecidableEq, Repr

/-- A SENT frame as the receiver timed it (R158, R159): the measured tick and the calibration pulse in nanoseconds, the
nibble pulses in measured ticks (status, data, CRC), whether a pause pulse came, and the lane-timer tick of the calibration
pulse's falling edge. -/
structure SentFrame where
  calNs : Nat
  pulses : List Nat
  pause : Bool
  start : Nat
  deriving DecidableEq, Repr

/-- What a calibration of one channel measured (R201): the filter outputs of its windows with the zero-input switch closed, and that of
the half-scale reference, in 2^-21 of full scale, which is what a window at OSR 128 resolves. -/
structure TrimReading where
  zeros : List Int
  ref : Int
  deriving DecidableEq, Repr

/-- The causes of an engine fault (R235). -/
inductive EngineCause where
  | watchdog | illegal | entry | port | memory | parity
  deriving DecidableEq, Repr

/-- An engine fault as it is found: its cause, and for an uncorrectable word the address (R209, R235). -/
structure EngineError where
  cause : EngineCause
  addr : Word
  deriving DecidableEq, Repr

/-- A port that IN reads, and what the error-correcting code finds in the word (R209, R216). -/
structure PortRead where
  port : Fin 64
  found : EccFinding
  deriving DecidableEq, Repr

/-- A memory operand of a Heldiog instruction: a word named directly, or through an index register with an optional
post-increment (R210). -/
inductive MemOperand where
  | direct (w : BitVec 11)
  | indexed (ix : Fin 8)
  | postInc (ix : Fin 8)
  deriving DecidableEq, Repr

/-- The operands of a multiply (R211): register and coefficient word, or two registers. -/
inductive MulOperand where
  | coef (a : XReg) (c : MemOperand)
  | regs (a b : XReg)
  deriving DecidableEq, Repr

/-- The flags BRC tests (R215). -/
inductive BranchFlag where
  | z | n | s
  deriving DecidableEq, Repr

/-- An Ebpen frame as a port received it (R375): the header fields beside TYPE, the payload bytes, and the CRC it carried. -/
structure EbpFrame where
  src : BitVec 2
  seq : Byte
  setId : BitVec 3
  len : Byte
  payload : List Byte
  crc : Word
  deriving DecidableEq, Repr

/-- A CAN frame (R457): identifier, extended or not, FD format, bit-rate switch, error-state indicator and data. -/
structure CanFrame where
  id : BitVec 29
  ext : Bool
  fd : Bool
  brs : Bool
  esi : Bool
  rtr : Bool
  dlc : BitVec 4
  data : List Byte
  deriving DecidableEq, Repr

/-- How a transmission failed (R469): an acknowledge error with or without a dominant bit seen during the error flag, a stuff error within
the arbitration field whose recessive stuff bit was read dominant, a bit error in its error or overload flag, 8 dominant bits after it, as ISO
11898-1 tells them apart. -/
inductive TxErrorKind where
  | bitInFlag | dominantAfterFlag | lostArbitration | bit | stuff | stuffArbitration | form | ack | ackDominant | overload
  deriving DecidableEq, Repr

/-- How a reception failed (R455): a bit error of the flag itself among them, as ISO 11898-1 tells them apart; an overload condition is no
error. -/
inductive RxErrorKind where
  | stuff | form | crc | bit | bitInFlag | dominantAfterFlag | protocolException | overload
  deriving DecidableEq, Repr

/-- A stretch of a line at one level, and its length: 5 ns ticks on a Usile channel, ns at WAKE. -/
structure LineLevel where
  high : Bool
  length : Nat
  deriving DecidableEq, Repr

/-- A reply frame as the line of a Usile channel carried it (R485, R486, R491): its levels in turn from the end of the poll on. -/
structure UslReply where
  line : List LineLevel
  deriving DecidableEq, Repr

/-- A sync frame of network time (R513): SEQ, PVALID and the time of the frame before. -/
structure SyncFrame where
  seq : Byte
  pvalid : Bool
  sec : Word
  ns : Word
  deriving DecidableEq, Repr

/-- The transport a command packet came over (R520, R538). -/
inductive Transport where
  | spi | c0 | c1
  deriving DecidableEq, Repr

/-- What became of a packet's execution in the service firmware (R543): done, done but for an NVM write that failed, or stopped by a fault of
the firmware before anything was executed. -/
inductive ServiceEnd where
  | done | nvmFault | internal
  deriving DecidableEq, Repr

/-- The execution of a packet: its transport, and what became of it. -/
structure Call where
  via : Transport
  ended : ServiceEnd
  deriving DecidableEq, Repr

/-- An execution that runs to its end. -/
def Call.ok (t : Transport) : Call := ⟨t, .done⟩

/-- A sample of a strap (R631): the level with the internal pulls off, and with the resistor to the rail opposite that reading. -/
structure StrapSample where
  off : Bool
  opposed : Bool
  deriving DecidableEq, Repr

/-- The two challenges of R579. -/
inductive ChallengeKind where
  | release | debug
  deriving DecidableEq, Repr

/-- What the steps of a start find (R549, R555): the eight samples of each of the eight straps (step 3),
the ROM and key-store checks (step 2), PLL lock (step 4), the injection test (step 5), whether every memory defect fits the
spares, the repairs made as ledger kind and location, and the physical engines that pass (step 6), the failing segments of the
twelve gate outputs and the twelve sense-cell trims needed (step 8), the readings of the four current channels (step 9),
whether the retained block verifies under its HMAC (R553), and the time the start took in 10 µs. -/
structure StartInputs where
  straps : Vector (Vector StrapSample 8) 8
  romOk : Bool
  storeOk : Bool
  pllOk : Bool
  injection : List PairTest
  memOk : Bool
  repairs : List Defect
  enginesOk : BitVec 8
  segments : List (BitVec 16)
  snsTrims : List Int
  isns : List TrimReading
  retainedOk : Bool
  took : Nat
  deriving DecidableEq, Repr

/-- The commands, one constructor for each row of the opcode table, in the table's order. -/
inductive Instr where
  /-- REGISTER_WRITE (R23): A write to a register that has no step of its own stores each field as its access code
  gives, discarding RWO, RWS or out-of-range values and setting the owning block's access-error flag. -/
  | registerWrite (r : Requester) (addr val : Word)
  /-- READ_CLEAR (R26): A read of a register with RC fields returns their values and clears them, debug-port reads
  included. -/
  | readClear (r : Requester) (addr : Word)
  /-- MEMORY_ACCESS (R69): A memory read or write by a requester is arbitrated and performed; single-bit errors are
  corrected and written back, uncorrectable errors return a bus error and are recorded in BKG. -/
  | memoryAccess (r : Requester) (m : CycleAccess)
  /-- SERVICE_RESTART (R426): After an uncorrectable error at S, K restarts S from its verified image within 1 ms.
  -/
  | serviceRestart
  /-- GAFFER_RESTART (R426): After an uncorrectable error at G, K restarts G within 1 ms and keeps its power votes.
  -/
  | gafferRestart
  /-- BUSERR_VALID_CLEAR (R76): Writing 1 to SYS_BUSERR.VALID clears the capture together with COUNT and OVF. -/
  | buserrValidClear
  /-- CONFIG_LINK_FRAME (R351): The logic die sends a configuration-link frame at least every 1 µs, carrying
  register writes, AS flags and ASEL to the driver die. -/
  | configLinkFrame
  /-- CONFIG_LINK_LOSS (R63): When the driver die receives no valid configuration-link frame for 2 µs it drives
  every leg to LLSTATE, clears LEGEN and sets LLOSS. -/
  | configLinkLoss
  /-- LOGIC_LINK_LOSS (R661): When the logic die receives no valid frame from the driver die for 2 µs it counts the
  link as lost and refuses GDA, GDB and VBUS accesses with bus errors. -/
  | logicLinkLoss
  /-- CLOCK_MONITOR_WINDOW (R80): At the end of each 10 µs monitor window the deviation is evaluated, and two
  consecutive out-of-band windows set the cut latch with cause CLK. A window of the VRC-side monitor measures no AORC. -/
  | clockMonitorWindow (vrcDev : Int) (aorcDev : Option Int)
  /-- PLL_LOSS_OF_LOCK (R80): A PLL loss of lock sets the cut latch with cause CLK by hardware. -/
  | pllLossOfLock
  /-- DCACHE_INVALIDATE (R85): A write to CSR mdcinv invalidates the D-cache line holding the address, or the whole
  D-cache for 0xFFFF_FFFF. -/
  | dcacheInvalidate (p : Pair) (addr : Word)
  /-- FENCE_I (R85): FENCE.I invalidates the I-cache of the core. -/
  | fenceI (p : Pair)
  /-- CHECKPOINT_SIGNATURE (R93): A machine-mode write to mdblchk folds the register files into a 24-bit signature
  driven onto compare group 12 for one cycle. -/
  | checkpointSignature (p : Pair) (prog : Progress)
  /-- CHECKED_EGRESS_WRITE (R95): A core write to a power-stage or continuity block is held three core cycles and
  leaves only after its comparison agrees, else it is discarded. -/
  | checkedEgressWrite (p : Pair) (addr val : Word) (agreed : Bool)
  /-- LOCKSTEP_FAULT (R97): A comparator code violation or delay-register parity error captures DBL_FAULTn, stops
  the pair and raises a pending non-maskable interrupt to V. -/
  | lockstepFault (p : Pair) (f : LockstepFinding)
  /-- V_LOCKSTEP_REACTION (R663): V takes the pending lockstep-fault interrupt and sets the cut latch with cause
  LOCKSTEP. -/
  | vLockstepReaction
  /-- DBL_FAULT_CLEAR (R99): Writing 1 to DBL_FAULTn.VALID clears every field of the capture. -/
  | dblFaultClear (p : Pair)
  /-- ASYNC_INPUT_CHANGE (R101): A change on an asynchronous input is sampled by both synchronisers of the agreement
  unit and delivered to both copies once the samples agree. -/
  | asyncInputChange (p : Pair) (input : Fin 32) (mainSample doubleSample : Bool)
  /-- PAIR_RELEASE (R90): Clearing DBL_CTRL.HOLD for a pair starts its main core and, two core cycles later, its
  double. -/
  | pairRelease (p : Pair)
  /-- INJECTION_TEST_START (R105): Writing DBL_INJ.START runs the injection sequencer on the selected pairs, or sets
  REFUSED when the PLL is unlocked or a pair is not held. -/
  | injectionTestStart (pairs : BitVec 4)
  /-- INJECTION_TEST_DONE (R104): The injection sequencer ends, sets DONE and records the result and first failure
  in DBL_INJRES. -/
  | injectionTestDone (res : List PairTest)
  /-- DEBUG_HALT (R110): A debug halt request halts both copies of a pair at the same instruction and sets DBGHALT,
  so CONT treats the lane as withdrawn. -/
  | debugHalt (p : HaltedPair)
  /-- DEBUG_RESUME (R108): A debug resume request resumes both copies of a halted pair at the same instruction. -/
  | debugResume (p : Pair)
  /-- DEBUG_SINGLE_STEP (R108): A debug single-step request steps both copies of a pair by one instruction. -/
  | debugSingleStep (p : Pair)
  /-- DEBUG_REGISTER_ACCESS (R109): An abstract register access returns the main core's value while the double's
  response is compared in groups 13 and 14. -/
  | debugRegisterAccess (p : Pair) (reg : CoreReg) (write : Option Word)
  /-- DEBUG_PROGRAM_BUFFER (R108): Program-buffer execution enters the pair as an input and runs in both copies. -/
  | debugProgramBuffer (p : Pair) (program : List Word)
  /-- DEBUG_TRIGGER_WRITE (R108): A debug trigger write enters the pair as an input and reaches the double two
  cycles later. -/
  | debugTriggerWrite (p : Pair) (index : Nat) (val : Word)
  /-- ANGLE_CLOCK_TICK (R111): On every 5 ns tick each angle clock adds RATE, evaluates STILL and cue crossings, and
  processes carrier events in the order of R136. -/
  | angleClockTick
  /-- ANGLE_RELOAD (R112): A sample delivered by the selected source reloads the angle clock with extrapolated angle
  and new RATE, flagging a step over STEPLIM. -/
  | angleReload (b : Bridge)
  /-- STILL_TIMEOUT (R117): When |RATE| has stayed below STILL_SPD for STILL_TIME, or the source reports zero speed,
  ANG sets STILL. -/
  | stillTimeout (b : Bridge)
  /-- ANG_SRC_WRITE (R115): A write of ANGx_CTRL.SRC selects a new sample source, extrapolating until its first
  sample, which reloads as a step. -/
  | angSrcWrite (b : Bridge) (src : BitVec 4)
  /-- ANG_ENABLE (R128): Writing ANGx_CTRL.EN to 1 starts the angle clock, reference carrier and cues with a valley
  at step 0 in the next tick. -/
  | angEnable (b : Bridge)
  /-- CUE_FALLBACK_FIRE (R124): While STILL is 1 an angle cue with a fall-back setting fires FB_OFS ticks after each
  inner or outer tick. -/
  | cueFallbackFire (b : Bridge) (n : Cue)
  /-- CUE_DISPATCH (R136): ANG dispatches one queued cue per tick and issues its action to its target. -/
  | cueDispatch (b : Bridge)
  /-- CUE_LINE_PULSE_END (R126): 50 ns after a pulse began, the cue event line is restored to its previous level. -/
  | cueLinePulseEnd (b : Bridge) (line : Fin 4)
  /-- CUE_POS_WRITE (R127): A write of CUEnPOS is held until the next write of CUEnCFG. -/
  | cuePosWrite (b : Bridge) (n : Cue) (val : Word)
  /-- CUE_CFG_WRITE (R127): A write of CUEnCFG puts the held position and the new configuration in force from the
  next tick and re-arms the cue. -/
  | cueCfgWrite (b : Bridge) (n : Cue) (val : Word)
  /-- CARRIER_VALLEY (R130): At a carrier valley ANG sets the next period, changes carrier mode under R131 and R133,
  loads the duty shadow and issues the inner and outer ticks. -/
  | carrierValley (b : Bridge) (ref : Bool)
  /-- CARRIER_PEAK (R134): At a carrier peak an inner tick occurs when INNER_X is 1. -/
  | carrierPeak (b : Bridge) (ref : Bool)
  /-- SINCOS_SAMPLE (R144): Every 100 ticks the sine/cosine interface samples, corrects, checks amplitude and
  period, updates PIDX and MECH and delivers every (DELIV+1)-th valid sample. -/
  | sincosSample (k : PosBlk) (sRaw cRaw : BitVec 16)
  /-- ABZ_EDGE (R150): An A or B edge is filtered, counted in quadrature, checked for state faults and delivers a
  sample and speed. -/
  | abzEdge (k : PosBlk) (a b : Bool)
  /-- EDGE_RESAMPLE (R150): tEDGE_MIN after a rejected edge the interface samples again, counting one step or
  declaring a state fault. -/
  | edgeResample (k : PosBlk) (lines : EdgeLines)
  /-- INDEX_EDGE (R154): A Z edge that forms an index event compares the count with IDX_EXP and homes, corrects or
  reports as the index policy gives. -/
  | indexEdge (k : PosBlk) (rising : Bool)
  /-- HALL_EDGE (R157): An accepted Hall edge moves the sector, delivers the boundary angle B_k or declares a state
  fault on an invalid or skipping code. -/
  | hallEdge (k : PosBlk) (code : BitVec 3)
  /-- SENT_FRAME (R160): A received SENT frame is checked for validity and, when valid, yields MECH_k and a
  delivered angle and speed. -/
  | sentFrame (ch : SentCh) (fr : SentFrame)
  /-- SENT_TIMEOUT (R167): A SENT channel with no valid frame for TMO × 100 µs becomes invalid. -/
  | sentTimeout (ch : SentCh)
  /-- EDGE_STANDSTILL (R162): When no edge has been accepted for SPD_TMO × 100 µs an edge source reports speed zero
  and enters standstill. -/
  | edgeStandstill (k : PosBlk) (i : EdgeIface)
  /-- CREEP_SAMPLE (R163): Every 1 µs after the last measured interval has passed, an edge source delivers the last
  edge angle with speed of one count over elapsed ticks. -/
  | creepSample (k : PosBlk) (i : EdgeIface)
  /-- MT_SET (R141): A write of POSx_MTSET sets TURNS from bits [31:16] and clears UNCERT. -/
  | mtSet (k : PosBlk) (val : Word)
  /-- POS_REVAL (R168): A write of POSx_REVAL lets the named interfaces become valid again at their next sample or
  edge that passes every check. -/
  | posReval (k : PosBlk) (mask : BitVec 3)
  /-- SENT_REVAL (R168): A write of SENT_kSTAT.REVAL lets the channel become valid again at its next valid frame. -/
  | sentReval (ch : SentCh)
  /-- BORROW_TIMEOUT (R172): The borrowed source becomes invalid after two inner periods without a frame carrying
  VALID. -/
  | borrowTimeout
  /-- COMPARE_VAL_WRITE (R175): A write of CMPjVAL takes effect from the next MT update after the write. -/
  | compareValWrite (unit : Fin 4) (val : Word)
  /-- EMU_STEP (R176): Encoder emulation moves its output count one quadrature step toward the target, no faster
  than TMIN, and sets LAG beyond 4 counts. -/
  | emuStep
  /-- WINDOW_OPEN (R184): A window action opens a sample window on both channels of the bridge at the next modulator
  clock edge. -/
  | windowOpen (b : Bridge) (profile : Fin 4)
  /-- WINDOW_END (R187): At the window's end ISNS decimates, corrects, checks and writes both results, phase 3 and
  SEQ, triggers an engine and opens any queued window. -/
  | windowEnd (b : Bridge) (bits1 bits2 : List Bool)
  /-- BITSTREAM_SATURATION (R190): A run of 32 equal bits in a channel bitstream sets SAT and counts once. -/
  | bitstreamSaturation (ch : IsnsCh)
  /-- BITSTREAM_STUCK (R192): 64 modulator clocks without a transition set STUCK and make the channel invalid. -/
  | bitstreamStuck (ch : IsnsCh)
  /-- SAMPLE_TIMEOUT (R193): SMPTMO consecutive inner ticks without a completed window set TMO and make both
  channels of the bridge invalid. -/
  | sampleTimeout (b : Bridge)
  /-- ISNS_REVAL (R194): A write of ISNS_REVAL lets the named channels become valid from the next window that passes
  R192 and R193. -/
  | isnsReval (mask : BitVec 4)
  /-- MEAN_WINDOW_END (R197): A 100 µs mean window of the lane timer ends. -/
  | meanWindowEnd
  /-- MEAN_PUBLISH (R197): Once every result of the window is written, ISNS stores MEANn, updates EMPTY, increments
  MSEQ and raises an event to V. -/
  | meanPublish
  /-- V_CURRENT_COMPARE (R197): V compares each compared channel's mean with its own conversions and sets the cut
  latch with cause IMIS after VCMP_N failing windows. -/
  | vCurrentCompare (mean0 mean1 mean2 mean3 : Int)
  /-- V_VMOT_COMPARE (R361): At each mean window V compares its VMOT mean with the VBUS mean and sets the cut latch
  after two windows over VTOL. -/
  | vVmotCompare (vMean : Nat)
  /-- V_RAIL_CHECK (R637): V checks VIO, VANA and the references each window and sets the cut latch with cause VSW
  after two out-of-range windows. -/
  | vRailCheck (vio vana vrefsc vrefv : Nat)
  /-- CALIBRATION_REQUEST (R202): Setting ISNS_CAL.CALREQ starts recalibration of the bridge's internal channels
  when the legs rest, else sets CALABT. -/
  | calibrationRequest (b : Bridge)
  /-- CALIBRATION_DONE (R201): Recalibration completes and sets new OFS and GAIN, or keeps the old trims and sets
  CALFLT when out of limit. -/
  | calibrationDone (b : Bridge) (m1 m2 : TrimReading)
  /-- CALIBRATION_ABORT (R203): A leg leaving high impedance or a window action during calibration aborts it,
  restores the input and sets CALABT. -/
  | calibrationAbort (b : Bridge) (byWindow : Option (Fin 4))
  /-- ACTIVATION_DISPATCH (R223): An idle engine dispatches its highest-ranked pending trigger, takes OPEN and BANK
  into force and reads its entry, taking an entry fault on a bad entry. -/
  | activationDispatch (e : Eng)
  /-- SOFTWARE_TRIGGER (R220): A write of HLE_SWTRIG issues a software trigger to a logical engine at an entry
  point. -/
  | softwareTrigger (e : Eng) (ep : Byte)
  /-- ENGINE_ENABLE (R222): A write of HLE_CTRL.EN enables an engine, or disables it and discards its pending
  triggers. -/
  | engineEnable (mask : BitVec 7)
  /-- LOOP_OPEN_REQUEST (R228): A write of HLE_ENGnCTRL.OPEN requests the loop state that takes effect at the next
  dispatch. -/
  | loopOpenRequest (e : Eng) (openLoop : Bool)
  /-- BANK_SWITCH_REQUEST (R228): A write of HLE_ENGnCTRL.BANK requests the coefficient bank in force from the next
  dispatch and sets SWPEND. -/
  | bankSwitchRequest (e : Eng) (bank : Bool)
  /-- BIND_WRITE (R230): A write of BIND ties an engine to a bridge's owning loop, or is discarded when another
  engine names that bridge. -/
  | bindWrite (e : Eng) (bind : BitVec 2)
  /-- COEFFICIENT_WRITE (R231): A bus write to a coefficient bank is performed atomically, or refused with ACCERR
  for the bank in force while the loop is closed without LIVEWR. -/
  | coefficientWrite (r : Requester) (e : Eng) (bank : Bool) (word : Fin 512) (val : Word)
  /-- ENGINE_RESTART (R236): A write of RESTART after a program-class fault lets the engine accept triggers again,
  or is discarded while FAULT is set. -/
  | engineRestart (e : Eng)
  /-- ENGINE_FAULT (R235): An engine fault stops the activation, records FAULT, CAUSE and FPC, discards triggers,
  interrupts P0–P3 and V and signals the bound MC block. -/
  | engineFault (e : Eng) (cause : EngineError)
  /-- ENGINE_WATCHDOG (R226): An activation that runs LIMIT cycles without END takes a watchdog fault. -/
  | engineWatchdog (e : Eng)
  /-- ENGINE_PARITY_ERROR (R209): A parity error in an engine's internal state causes an immediate hardware-class
  fault and marks the engine failed. -/
  | engineParityError (e : Eng)
  /-- MOV (R215): Heldiog MOV copies a register in one cycle. -/
  | mov (e : Eng) (d a : XReg)
  /-- LDI (R215): Heldiog LDI loads a 20-bit immediate. -/
  | ldi (e : Eng) (d : XReg) (imm : Q20)
  /-- ADD (R214): Heldiog ADD adds modulo 2^20. -/
  | add (e : Eng) (d a b : XReg)
  /-- ADDS (R214): Heldiog ADDS adds with saturation to Q1.19 and sets S. -/
  | adds (e : Eng) (d a b : XReg)
  /-- SUB (R214): Heldiog SUB subtracts modulo 2^20. -/
  | sub (e : Eng) (d a b : XReg)
  /-- SUBS (R214): Heldiog SUBS subtracts with saturation to Q1.19 and sets S. -/
  | subs (e : Eng) (d a b : XReg)
  /-- NEG (R214): Heldiog NEG negates modulo 2^20. -/
  | neg (e : Eng) (d a : XReg)
  /-- NEGS (R214): Heldiog NEGS negates with saturation and sets S. -/
  | negs (e : Eng) (d a : XReg)
  /-- ABS (R215): Heldiog ABS takes the absolute value. -/
  | abs (e : Eng) (d a : XReg)
  /-- MIN (R215): Heldiog MIN takes the smaller of two registers. -/
  | min (e : Eng) (d a b : XReg)
  /-- MAX (R215): Heldiog MAX takes the larger of two registers. -/
  | max (e : Eng) (d a b : XReg)
  /-- SHL (R215): Heldiog SHL shifts left. -/
  | shl (e : Eng) (d a : XReg) (n : Fin 20)
  /-- SHR (R215): Heldiog SHR shifts right. -/
  | shr (e : Eng) (d a : XReg) (n : Fin 20)
  /-- AND (R215): Heldiog AND takes the bitwise and. -/
  | andOp (e : Eng) (d a b : XReg)
  /-- OR (R215): Heldiog OR takes the bitwise or. -/
  | orOp (e : Eng) (d a b : XReg)
  /-- XOR (R215): Heldiog XOR takes the bitwise exclusive or. -/
  | xorOp (e : Eng) (d a b : XReg)
  /-- CMP (R215): Heldiog CMP compares and sets the flags. -/
  | cmp (e : Eng) (a b : XReg)
  /-- LD (R215): Heldiog LD loads a data-RAM word. -/
  | ld (e : Eng) (d : XReg) (m : MemOperand)
  /-- ST (R215): Heldiog ST stores a data-RAM word, also while the loop is open. -/
  | st (e : Eng) (m : MemOperand) (a : XReg)
  /-- LDC (R231): Heldiog LDC loads a coefficient from the bank in force. -/
  | ldc (e : Eng) (d : XReg) (m : MemOperand)
  /-- STC (R234): Heldiog STC writes one word of the bank in force atomically whatever OPENACT and LIVEWR hold. -/
  | stc (e : Eng) (m : MemOperand) (a : XReg)
  /-- MPY (R211): Heldiog MPY forms a Q4.36 product in one accumulator. -/
  | mpy (e : Eng) (acc : Fin 2) (o : MulOperand)
  /-- MAC (R212): Heldiog MAC multiplies and accumulates with saturation at the Q12.36 limits. -/
  | mac (e : Eng) (acc : Fin 2) (o : MulOperand)
  /-- MSU (R212): Heldiog MSU multiplies and subtracts with saturation. -/
  | msu (e : Eng) (acc : Fin 2) (o : MulOperand)
  /-- DMAC (R215): Heldiog DMAC multiplies and accumulates into ACC0 and ACC1 in one cycle. -/
  | dmac (e : Eng) (o0 o1 : MulOperand)
  /-- DMSU (R215): Heldiog DMSU multiplies and subtracts into both accumulators. -/
  | dmsu (e : Eng) (o0 o1 : MulOperand)
  /-- DMPY (R215): Heldiog DMPY forms two products in both accumulators. -/
  | dmpy (e : Eng) (o0 o1 : MulOperand)
  /-- CLR (R215): Heldiog CLR clears an accumulator. -/
  | clr (e : Eng) (acc : Fin 2)
  /-- ASH (R215): Heldiog ASH shifts an accumulator by −8 to +8, saturating on left shifts. -/
  | ash (e : Eng) (acc : Fin 2) (n : Int)
  /-- RND (R213): Heldiog RND converts an accumulator to Q1.19 with rounding and saturation. -/
  | rnd (e : Eng) (d : XReg) (acc : Fin 2)
  /-- RNDC (R213): Heldiog RNDC converts an accumulator to Q3.17 with rounding and saturation. -/
  | rndc (e : Eng) (d : XReg) (acc : Fin 2)
  /-- INTG (R233): Heldiog INTG updates an integrator state clamped to its limits, unless the loop is open. -/
  | intg (e : Eng) (d : XReg) (state : Fin 2048) (err : XReg) (gain : MemOperand)
  /-- BIQ (R256): Heldiog BIQ runs one transposed direct-form II biquad step. -/
  | biq (e : Eng) (d x : XReg) (coef : Fin 512) (state : Fin 2048)
  /-- SINCOS (R215): Heldiog SINCOS computes sine and cosine of an angle in counts. -/
  | sincos (e : Eng) (ds dc a : XReg)
  /-- ATAN2 (R215): Heldiog ATAN2 computes an angle in counts. -/
  | atan2 (e : Eng) (d y x : XReg)
  /-- SQRT (R215): Heldiog SQRT computes a square root, giving 0 and S for a negative operand. -/
  | sqrt (e : Eng) (d a : XReg)
  /-- DIV (R215): Heldiog DIV divides with saturation, giving the limit and S for a zero divisor. -/
  | div (e : Eng) (d a b : XReg)
  /-- BR (R215): Heldiog BR branches unconditionally. -/
  | br (e : Eng) (target : BitVec 12)
  /-- BRC (R215): Heldiog BRC branches on Z, N or S. -/
  | brc (e : Eng) (flag : BranchFlag) (target : BitVec 12)
  /-- LOOP (R215): Heldiog LOOP repeats a body 1 to 4096 times, nested up to two levels. -/
  | loopOp (e : Eng) (count : Nat) (last : BitVec 12)
  /-- SETC (R210): Heldiog SETC gives an index register a circular length of 2 to 256 words. -/
  | setc (e : Eng) (ix : Fin 8) (len : Nat)
  /-- IN (R216): Heldiog IN reads the word named by a port-table entry and stalls until the data arrives, faulting
  on an invalid entry or refusal. -/
  | inPort (e : Eng) (d : XReg) (port : PortRead)
  /-- OUT (R216): Heldiog OUT posts a write through a port-table entry, also while the loop is open. -/
  | outPort (e : Eng) (port : Fin 64) (a : XReg)
  /-- OUTL (R229): Heldiog OUTL posts a loop-output write, suppressed while the loop is open. -/
  | outPortL (e : Eng) (port : Fin 64) (a : XReg)
  /-- POSTED_WRITE_COMPLETE (R217): A posted OUT or OUTL write completes at its target, or its refusal returns and
  causes a port fault. The operand names the engines whose oldest write completes in this cycle. -/
  | postedWriteComplete (e : List Eng)
  /-- TRIG (R215): Heldiog TRIG triggers a logical engine at an entry point. -/
  | trig (e : Eng) (target : Eng) (ep : Byte)
  /-- END (R219): Heldiog END ends the activation without waiting for posted writes. -/
  | endAct (e : Eng)
  /-- ILLEGAL_INSTRUCTION (R225): An undecodable instruction word causes an illegal-instruction program fault. -/
  | illegalInstruction (e : Eng)
  /-- D_CAPTURE (R372): CONT captures the outer engine's write of D to the word named by CONT_DADDR and forms the
  lane demand from it. -/
  | dCapture (val : Q20)
  /-- DUTY_COMMIT (R282): A write of MCx_DUTY3 commits DUTY1 to DUTY3 as one set for loading at the next inner tick.
  -/
  | dutyCommit (b : Bridge) (val : Word)
  /-- CLAMP_END (R285): After CLPER inner ticks without a further excess the current clamp ends. -/
  | clampEnd (b : Bridge)
  /-- COMPARATOR_REPORT (R300): The driver die reports the phase and line comparators at least every 400 ns, feeding
  zero-crossing detection and the line estimator. -/
  | comparatorReport (b : Bridge) (pcomp lcode : BitVec 3)
  /-- ZC_WINDOW_MISS (R303): No crossing accepted by WINHI/128 × Texp counts a sector miss and increments ZCMCNT. -/
  | zcWindowMiss (b : Bridge)
  /-- START_DECISION (R313): A write of START in OFF or OUT runs the start decision into FOC, CATCH, SIXSTEP or
  BRAKE0, or refuses with a REFCODE. -/
  | startDecision (b : Bridge) (val : Word)
  /-- LISTEN_TIMEOUT (R313): When LISTEN × 100 µs pass without two line-code changes, the start is refused with
  NOSPEED. -/
  | listenTimeout (b : Bridge)
  /-- MODE_REQ_OFF (R667): A write of MCx_CTRL with MODE_REQ 0b00 forces OFF from the running modes and releases a
  COAST active short. -/
  | modeReqOff (b : Bridge) (val : Word)
  /-- MODE_REQ_RETURN (R304): A write with MODE_REQ 0b01 in SIXSTEP with a valid non-sensorless SRC returns to FOC
  at the next sector cue. -/
  | modeReqReturn (b : Bridge) (val : Word)
  /-- MC_ENABLE_WRITE (R667): A write of MCx_CTRL.EN = 0 forces OFF from every mode except OUT while a cause of R666
  persists. -/
  | mcEnableWrite (b : Bridge) (val : Word)
  /-- GATE_COMMAND_EDGE (R327): A gate command edge begins a turn-on or turn-off transition, reversing any running
  one, and checks both-on. -/
  | gateCommandEdge (b : Bridge) (j : Switch) (on : Bool)
  /-- GATE_WATCH_ADMIT (R334): In native mode a turn-on begins 40 to 55 ns after the opposite VGS has fallen below
  VGS_OFF. -/
  | gateWatchAdmit (b : Bridge) (j : Switch)
  /-- GATE_WATCH_TIMEOUT (R335): When the opposite VGS does not fall below VGS_OFF within GWTMO the leg goes to high
  impedance with a gate fault. -/
  | gateWatchTimeout (b : Bridge) (j : Switch)
  /-- GATE_PHASE_END (R330): VGS crossing a phase end level ends the phase within 5 ns and begins the next. -/
  | gatePhaseEnd (b : Bridge) (j : Switch)
  /-- SLOPE_TIMEOUT (R331): A slope phase lasting SLTMO × 100 ns enters the hold phase and sets SLOPETO. -/
  | slopeTimeout (b : Bridge) (j : Switch)
  /-- GATE_SAG_FAULT (R341): VGS below VSAG for 200 ns in the hold phase sends the leg to high impedance and latches
  a bootstrap or gate fault. -/
  | gateSagFault (b : Bridge) (j : Switch)
  /-- BLANKING_END (R345): At the end of tBLANK the normal short threshold begins to be evaluated for the switch. -/
  | blankingEnd (b : Bridge) (j : Switch)
  /-- HARD_SHORT_TRIP (R344): A sense current over 2 × INTH for 80 ns turns the leg off, latches a hard-short fault
  and asserts the fault line. -/
  | hardShortTrip (b : Bridge) (j : Switch)
  /-- NORMAL_SHORT_TRIP (R346): A sense current over INTH after blanking for 100 ns turns the leg off and latches a
  normal-short fault. -/
  | normalShortTrip (b : Bridge) (j : Switch)
  /-- LEG_ENABLE (R349): A write of LEGEN = 1 releases a leg whose cause bits are all cleared, or is discarded with
  ACCERR. -/
  | legEnable (b : Bridge) (legs : BitVec 3)
  /-- VMOT_MEASURE (R355): VBUS measures VMOT every 1 µs and presents the value to both MC blocks. -/
  | vmotMeasure (v : BitVec 16)
  /-- OV1_REACHED (R356): VMOT reaching the OV1 level puts OV1 in force and drives CHOP on. -/
  | ov1Reached
  /-- OV1_ENDED (R355): VMOT falling below OV1 by the hysteresis ends OV1. -/
  | ov1Ended
  /-- OV2_REACHED (R356): VMOT reaching OV2 takes the legs to row 6 of R353 and sends both MC blocks to OUT. -/
  | ov2Reached
  /-- OV2_ENDED (R355): VMOT falling below OV2 by the hysteresis ends OV2. -/
  | ov2Ended
  /-- UNDERVOLTAGE_BEGIN (R357): VMOT below 5.5 V or VDRV below 75 % for 1 µs sets VMUV or DRVUV, takes all legs to
  high impedance and sends the MC blocks to OUT. -/
  | undervoltageBegin (vmot vdrv : Bool)
  /-- UNDERVOLTAGE_END (R357): VMOT and VDRV at or above their release levels for 10 µs end the undervoltage
  condition. -/
  | undervoltageEnd
  /-- DRIVER_POWER_UP (R630): At the driver die's power-up every leg is at high impedance and the kept fields take
  their reset values. -/
  | driverPowerUp
  /-- LINK_TRAINING_DONE (R373): An Ebpen port completes training and sets EBPn_DELAY, or reports absent or lost
  after 2 ms. -/
  | linkTrainingDone (e : Port) (trained : Bool) (rtt turnaround : Nat) (peer : Lane)
  /-- LINK_LOST (R374): Four code violations within 64 symbols or LOSTMO inner periods without a valid frame make
  the port declare its link lost. -/
  | linkLost (e : Port)
  /-- LINK_RETRAIN (R374): A lost port retrains every 1 ms. -/
  | linkRetrain (e : Port)
  /-- RETRAIN_REQUEST (R374): A write of EBPn_CTRL.RETRAIN retrains the port now. -/
  | retrainRequest (e : Port)
  /-- NOTICE_RECEIVED (R393): A valid NOTICE fixes the transfer tick, is forwarded where needed and its share triple
  is checked. -/
  | noticeReceived (e : Port) (f : EbpFrame)
  /-- CLAIM_RECEIVED (R401): A CLAIM from a lower lane ID makes a lead withdraw with TWOLEAD, and any CLAIM blocks
  claims for 2 To. -/
  | claimReceived (e : Port) (f : EbpFrame)
  /-- XCUR_RECEIVED (R379): A received XCUR is written to the enabled engine's data RAM and triggers it, or sets
  XDROP. -/
  | xcurReceived (e : Port) (f : EbpFrame)
  /-- XREF_RECEIVED (R379): A received XREF is written after the XCUR words and triggers the enabled engine, or sets
  XDROP. -/
  | xrefReceived (e : Port) (f : EbpFrame)
  /-- SETOP_RECEIVED (R418): A received SETOP is scheduled for ts + 8.0 µs and forwarded once to a peer without a
  link to its originator. -/
  | setopReceived (e : Port) (f : EbpFrame)
  /-- SETOP_APPLY (R418): At ts + 8.0 µs a set-wide operation takes effect in the lane. -/
  | setopApply
  /-- BEAT_RECEIVED (R378): A received BEAT updates the peer's role, link and beat status, borrowed position and
  DOWN for the vote. -/
  | beatReceived (e : Port) (f : EbpFrame)
  /-- BEAT_SEND (R377): 200 ns after each reference inner tick every lane sends a BEAT frame. -/
  | beatSend
  /-- CONT_FRAME_RECEIVED (R391): A stand-in stores a valid CONT frame and compares D and SPSEQ, setting MISCMP
  after CMPN miscompares. -/
  | contFrameReceived (e : Port) (f : EbpFrame)
  /-- CONTINUITY_SLOT (R388): CFDLY after its outer tick the lead assembles and sends the CONT frame, marking it
  LATE when the outer activation has not ended. -/
  | continuitySlot
  /-- SHARE_RECEIVED (R397): A SHARE proposal is answered with accept or refuse, and acceptances let the lead carry
  the commit. -/
  | shareReceived (e : Port) (f : EbpFrame)
  /-- FORM_RECEIVED (R41): A FORM frame's strap word and timing values are checked, and a mismatch raises a set-
  membership fault. -/
  | formReceived (e : Port) (f : EbpFrame)
  /-- TRAIN_RECEIVED (R373): A TRAIN frame is exchanged to measure the round-trip time during training. -/
  | trainReceived (e : Port) (f : EbpFrame)
  /-- FORMATION_WINDOW_END (R46): At the end of the formation window the lane claims lead only when the claim
  conditions hold. -/
  | formationWindowEnd
  /-- SLATE_RECEIVED (R382): A received K28.1 slate gives the leader's valley time and the follower's error, and
  marks outer ticks. -/
  | slateReceived (e : Port) (ticks : Fin 4) (outer : Bool)
  /-- LEADIN_EDGE (R386): An edge on a LEADIN input counts toward a seen beat when its spacing is within 1.5 Ti. -/
  | leadinEdge (i : Fin 2) (level : Bool)
  /-- BEAT_STOP_TIMEOUT (R386): No LEADIN edge for 3 Ti means the beat has stopped. -/
  | beatStopTimeout (i : Fin 2)
  /-- CONTINUITY_CHECK (R402): At slot + 2 µs + frame length a missing CONT frame counts, and two misses with a
  stopped beat declare the lead lost. -/
  | continuityCheck
  /-- TRANSFER_TICK (R395): At the transfer tick the lanes put in force the NOTICE's shares and lead, force an outer
  tick and restart the outer count. -/
  | transferTick
  /-- CLAIM_WAIT_TIMEOUT (R399): 3 Ti after the transfer tick a non-claimant qualified stand-in claims when no lower
  claimant is seen. -/
  | claimWaitTimeout
  /-- WITHDRAW_REQUEST (R369): A write of CONT_CTRL.WDREQ withdraws the lane with notice from the transfer tick. -/
  | withdrawRequest
  /-- SWAP_REQUEST (R398): A write of CONT_SWAP.REQ in the lead schedules a set-wide bank swap at SWAPCYC and
  SWAPCYC + 1. -/
  | swapRequest (bank : Bool)
  /-- SWITCHBACK_GO (R416): A write of CONT_SB.GO moves shares toward rest by SBSTEP per planned transfer, or is
  refused. -/
  | switchbackGo
  /-- PLANNED_HANDOVER (R416): A write of CONT_SB.HAND hands lead to LANE by plan, or is refused. -/
  | plannedHandover
  /-- LANE_STATUS_SEND (R405): Every LSPER the service engine sends the lane status on C0 and C1. -/
  | laneStatusSend
  /-- LANE_STATUS_RECEIVED (R479): A received lane status updates the peer record and feeds the two-lead check,
  unless its CRC fails. -/
  | laneStatusReceived (net : Fin 2) (peer : Lane) (data : List Byte)
  /-- LANE_STATUS_TIMEOUT (R404): A peer's lane status absent on both networks for CANTMO declares it lost by the
  CAN path. -/
  | laneStatusTimeout (peer : Lane)
  /-- XREF_DEADLINE (R411): At XDL after the valley a missing partner XREF counts a miss, and two misses write JMODE
  and clear JOINED. -/
  | xrefDeadline
  /-- CHASSIS_BROADCAST_RECEIVED (R419): A chassis-wide broadcast is confirmed within 20 µs by the lead's service
  engine and issued in its set. -/
  | chassisBroadcastReceived (net : Fin 2) (data : List Byte)
  /-- SUPERVISOR_KICK (R425): A write of SAFE_CUT.KICK restarts the supervisor watchdog. -/
  | supervisorKick
  /-- SUPERVISOR_WATCHDOG_EXPIRY (R425): 1.1 ms of AORC without a kick sets the cut latch with cause VWDG and any
  pending lockstep or stop cause. -/
  | supervisorWatchdogExpiry
  /-- CUT_SET_COMMAND (R427): A write of SAFE_CUT.SET by V sets the cut latch with the cause in VCAUSE. -/
  | cutSetCommand (cause : BitVec 4)
  /-- COMMAND_CLEAR (R435): A write of SAFE_CUT.CMDCLR is a clearing edge that clears the latch when every cause bit
  is 0. -/
  | commandClear
  /-- CAUSE_CLEAR (R427): Writing 1 to a SAFE_CAUSE bit clears it, except CLK and STOPN while their condition
  persists. -/
  | causeClear (mask : BitVec 10)
  /-- STOP_N_LOW_QUALIFIED (R430): STOP_N low for 10 µs of AORC takes effect and sets the cut latch with cause
  STOPN. -/
  | stopNLowQualified
  /-- STOP_N_HIGH_QUALIFIED (R430): STOP_N high for 10 µs of AORC counts as high again. -/
  | stopNHighQualified
  /-- RESUME_PULSE (R433): The rising edge of a RESUME_N low pulse of 20 to 500 ms is a clearing edge, else the
  pulse is consumed and RESREF set. -/
  | resumePulse (rising : Bool) (lowMs : Nat)
  /-- RESUME_JAM (R434): RESUME_N low for more than 500 ms sets RJAM and counts a resume jam. -/
  | resumeJam
  /-- RESUME_JAM_CLEAR (R434): RESUME_N high for 10 ms clears RJAM. -/
  | resumeJamClear
  /-- ARM_WINDOW_EXPIRY (R435): 1 s after an accepted ARM without a valid CONFIRM the ARM lapses. -/
  | armWindowExpiry
  /-- SUPERVISOR_REPLY_TIMEOUT (R435): When V does not answer a resume command within 500 µs, S replies TIMEOUT and
  executes nothing. -/
  | supervisorReplyTimeout (tr : Transport)
  /-- ISOLATION_CLOSE (R439): A write of CLOSEA or CLOSEB = 1 commands both switches of the bridge closed when every
  condition holds, else sets CLOSEREF. -/
  | isolationClose (b : Bridge)
  /-- ISOLATION_OPEN (R439): A write of CLOSEA or CLOSEB = 0 commands both switches of the bridge open without
  setting the cut latch. -/
  | isolationOpen (b : Bridge)
  /-- ISO_FEEDBACK_CHANGE (R438): A feedback level stable for 50 µs becomes valid, and an open reading while
  commanded closed is a fault with cause ISO. -/
  | isoFeedbackChange (i : Fin 4) (isOpen : Bool)
  /-- ISO_FEEDBACK_TIMEOUT (R440): A feedback input not in the commanded state within ISOFBT sets FLTCLS or FLTOPN
  and the cut latch with cause ISO. -/
  | isoFeedbackTimeout (i : Fin 4)
  /-- TWIN_VERDICT (R443): Agreement or window close gives a verdict that writes the payload to BUF, updates SEQ,
  raises an event to S and, for a stop, an interrupt to V. -/
  | twinVerdict (k : TwinPair)
  /-- V_NETSTOP_REACTION (R444): V takes the network-stop interrupt and sets the cut latch with cause NETSTOP within
  18 µs. -/
  | vNetstopReaction
  /-- CAN_FRAME_RECEIVED (R460): A frame valid at the sixth EOF bit is stored in the lowest matching receive object,
  setting NEWDAT or LOST. -/
  | canFrameReceived (n : CanCtl) (f : CanFrame)
  /-- CAN_WINDOW_WRITE (R464): A write through the object window updates the selected object, discarded for receive
  DATA and CTL or pending transmit objects. -/
  | canWindowWrite (n : CanCtl) (off : BitVec 12) (val : Word)
  /-- TRANSMIT_REQUEST (R465): Setting a transmit object's TXREQ makes it take part in the next arbitration. -/
  | transmitRequest (n : CanCtl) (obj : Fin 32)
  /-- ARBITRATION (R465): Before every arbitration the controller chooses the winning pending transmit object and
  sends its frame. -/
  | arbitration (n : CanCtl) (win : Bool) (delay : Nat)
  /-- TRANSMIT_COMPLETE (R467): A frame completing its EOF without error sets SENT and clears TXREQ. -/
  | transmitComplete (n : CanCtl)
  /-- TRANSMIT_ERROR (R469): A frame that loses arbitration or suffers an error is retried, counting acknowledge
  errors toward NACKLIM. -/
  | transmitError (n : CanCtl) (k : TxErrorKind)
  /-- TRANSMIT_CANCEL (R468): A write of CANCEL cancels a transmit request according to its arbitration state. -/
  | transmitCancel (n : CanCtl) (obj : Fin 32)
  /-- BUS_OFF_RECOVER (R471): A write of RECOVER in bus-off starts counting 128 occurrences of 11 recessive bits. -/
  | busOffRecover (n : CanCtl)
  /-- RECOVERY_DONE (R471): After 128 idle sequences the controller becomes error-active with zero counters and
  raises RECDONE. -/
  | recoveryDone (n : CanCtl)
  /-- BUS_OFF_RECOVER_TIMER (R472): 100 ms after each bus-off entry the service firmware writes RECOVER. -/
  | busOffRecoverTimer (n : CanCtl)
  /-- OPMODE_WRITE (R473): A write of OPMODE selects the controller mode to take effect at the next bus idle. -/
  | opmodeWrite (n : CanCtl) (mode : BitVec 2)
  /-- BUS_IDLE (R473): At bus idle the pending mode and any LEADONLY role change take effect. -/
  | busIdle (n : CanCtl)
  /-- CAN_ENABLE_WRITE (R455): A write of CANn_CTRL.EN puts the controller on the bus, or with 0 holds CTXn
  recessive and cancels every request. -/
  | canEnableWrite (n : CanCtl) (en : Bool)
  /-- BITRATE_DETECT_START (R476): A write of ABD in listen-only starts automatic bit-rate detection over the valid
  candidates. -/
  | bitrateDetectStart (n : CanCtl)
  /-- ABD_CANDIDATE_TIMEOUT (R476): ABDTMO without confirmation moves detection to the next candidate, and after
  ABDRND rounds sets ABDFAIL. -/
  | abdCandidateTimeout (n : CanCtl)
  /-- USILE_ENABLE (R499): A write of USL_CTRL.EN starts listening for one cycle, or stops USL and clears DUPSTOP.
  -/
  | usileEnable (en mon : Bool)
  /-- USILE_CYCLE_START (R487): At each cycle start USL reads TXSEL, begins the run and TIME latches the cycle time.
  -/
  | usileCycleStart
  /-- POLL_START (R489): When an enabled entry's START is reached USL polls its slave if the channel is idle, else
  records a skip. -/
  | pollStart (k : UslEnt) (lineIdle : Bool)
  /-- POLL_END (R491): The end of a poll opens the entry's reply window. -/
  | pollEnd (k : UslEnt)
  /-- REPLY_RECEIVED (R491): A reply is accepted into the filling bank or discarded with one counter incremented. -/
  | replyReceived (k : UslEnt) (rep : UslReply)
  /-- REPLY_WINDOW_TIMEOUT (R492): No start bit by WHI increments TMOCNT. -/
  | replyWindowTimeout (k : UslEnt)
  /-- USILE_CYCLE_END (R496): At each cycle end USL ages unfilled records, writes PUB and CYCSEQ. -/
  | usileCycleEnd
  /-- SECOND_MASTER_DETECTED (R500): A foreign poll or readback mismatch stops transmission, sets DUPM and defers,
  or after three detections stops with DUPSTOP. -/
  | secondMasterDetected (c : Fin 2) (readback : Bool)
  /-- DEFER_END (R500): After deferring (1 + 2 × LANE_ID) cycles USL listens again. -/
  | deferEnd
  /-- POLL_OBSERVED (R503): In monitor mode an observed poll matching an entry opens a reply window for recording.
  -/
  | pollObserved (c : Fin 2) (adr : BitVec 7) (cmd : BitVec 4)
  /-- TIME_NS_READ (R507): A read of TIME_NS latches SEC for the requester. -/
  | timeNsRead (r : Requester)
  /-- TIME_RATE_WRITE (R508): A write of TIME_RATE sets the rate correction from the next tick. -/
  | timeRateWrite (val : Word)
  /-- TIME_STEP (R509): A write of TIME_STEPNS with GO sets the time once and sets STEPPED, or is discarded when
  already stepped. -/
  | timeStep (val : Word)
  /-- UCYC_NS_READ (R518): A read of TIME_UCYCNS latches UCYCSEC and UCYCSEQ for the requester. -/
  | ucycNsRead (r : Requester)
  /-- UPTIME_READ (R614): A read of BKG_UPTIMEL latches the upper uptime bits for the requester. -/
  | uptimeRead (r : Requester)
  /-- SYNC_SEND (R513): Every SYNCPER the time master sends a sync frame carrying the time of the previous frame. -/
  | syncSend (net : Fin 2) (prevSec prevNs : Word)
  /-- SYNC_SAMPLE (R515): A usable sync frame forms an offset sample that steps or rate-corrects the clock and
  updates LOCKED. -/
  | syncSample (net : Fin 2) (f : SyncFrame) (stampSec stampNs : Word) (rateEst : Int)
  /-- SYNC_TIMEOUT (R515): No usable sync frame for 4 × SYNCPER clears LOCKED, and two missing intervals switch
  networks. -/
  | syncTimeout
  /-- SPI_WRITE_TRANSACTION (R522): A host SPI write transaction delivers one packet at HCS_N rising, accepted,
  retried, faulted or discarded on overflow. -/
  | spiWriteTransaction (bytes : List Byte)
  /-- SPI_READ_TRANSACTION (R523): A host SPI read returns the oldest queued reply, consumed only when clocked in
  full. -/
  | spiReadTransaction (clocked : Nat)
  /-- CAN_COMMAND_FRAME (R539): A request frame in object 83 is taken as a command packet when CAN_CMD is 1. -/
  | canCommandFrame (net : Fin 2) (bytes : List Byte)
  /-- MAILBOX_ACK (R540): The application's write of ACKSEQ equal to REQSEQ lets S form the reply. -/
  | mailboxAck
  /-- MAILBOX_TIMEOUT (R541): When ACKSEQ does not reach REQSEQ within APPTMO, S replies TIMEOUT. -/
  | mailboxTimeout
  /-- SESSION_TIMEOUT (R534): No packet accepted on SPI for SESSTMO ends the session. -/
  | sessionTimeout
  /-- HOST_DISABLE (R532): A write of HOST_CTRL.EN = 0 empties every pool and discards every queued reply. -/
  | hostDisable
  /-- NOP (R542): Command NOP replies OK. -/
  | nop (tr : Call)
  /-- OPEN (R534): Command OPEN takes the session for the SPI transport. -/
  | openSession (tr : Call)
  /-- CLOSE (R534): Command CLOSE ends the session. -/
  | closeSession (tr : Call)
  /-- INFO (R542): Command INFO returns device, stepping, firmware, strap and boot information. -/
  | info (tr : Call)
  /-- ECHO (R542): Command ECHO returns its payload. -/
  | echo (tr : Call)
  /-- LANESTAT (R542): Command LANESTAT returns the lane status, MC modes and SAFE_CAUSE. -/
  | lanestat (tr : Call)
  /-- READREG (R542): Command READREG returns n register words readable by S. -/
  | readreg (tr : Call)
  /-- FAULTS (R542): Command FAULTS returns the fault registers. -/
  | faults (tr : Call)
  /-- POSITION (R542): Command POSITION returns MT, MECH, SPEED and status of a POS block. -/
  | position (tr : Call)
  /-- WRITEREG (R542): Command WRITEREG performs a masked write by S and returns the value read back. -/
  | writereg (tr : Call)
  /-- APPCMD (R540): Command APPCMD passes an application command through the mailbox. -/
  | appcmd (tr : Call)
  /-- CFGLOAD (R574): Command CFGLOAD writes configuration-block bytes into the copy not in force. -/
  | cfgload (tr : Call)
  /-- CFGCOMMIT (R574): Command CFGCOMMIT verifies the seal over the staged block and puts it in force for the next
  start by one journal page write. -/
  | cfgcommit (tr : Call)
  /-- IMGLOAD (R568): Command IMGLOAD writes image bytes into the bank not booted. -/
  | imgload (tr : Call)
  /-- IMGCOMMIT (R568): Command IMGCOMMIT verifies the bank and sets it preferred on trial. -/
  | imgcommit (tr : Call)
  /-- SETPOINT (R542): Command SETPOINT passes a set-point and SPSEQ to the application. -/
  | setpoint (tr : Call)
  /-- DRIVE (R542): Command DRIVE asks the application to start drive on the bridges named. -/
  | drive (tr : Call)
  /-- HALT (R542): Command HALT asks the application to stop drive on the bridges named. -/
  | haltMotion (tr : Call)
  /-- WITHDRAW (R542): Command WITHDRAW asks the application to withdraw the lane. -/
  | withdraw (tr : Call)
  /-- HANDOVER (R542): Command HANDOVER asks the lead to hand lead to a lane. -/
  | handover (tr : Call)
  /-- RESARM (R435): Command RESARM arms the command path to clear the cut latch and returns a fresh token. -/
  | resarm (tr : Call)
  /-- RESCONFIRM (R435): Command RESCONFIRM with the right token in the window makes V issue the clearing edge. -/
  | resconfirm (tr : Call)
  /-- SWITCHBACK (R542): Command SWITCHBACK asks the lead to move shares to rest with an SBSTEP. -/
  | switchback (tr : Call)
  /-- SAFESTAT (R542): Command SAFESTAT returns SAFE_STAT, SAFE_CAUSE and SAFE_ISOFB. -/
  | safestat (tr : Call)
  /-- TIMEGET (R542): Command TIMEGET returns the network time, rate and status. -/
  | timeget (tr : Call)
  /-- TIMESET (R542): Command TIMESET steps the clock of a time master not yet stepped. -/
  | timeset (tr : Call)
  /-- REELREAD (R616): Command REELREAD returns reel records and the newest record number. -/
  | reelread (tr : Call)
  /-- LOGREAD (R542): Command LOGREAD returns bytes of the telemetry ring. -/
  | logread (tr : Call)
  /-- LEDGER (R542): Command LEDGER returns a repair-ledger entry. -/
  | ledger (tr : Call)
  /-- ATTEST (R578): Command ATTEST returns the composite digest over the nonce and measurements with its signature.
  -/
  | attest (tr : Call)
  /-- MEASURE (R577): Command MEASURE returns one measurement. -/
  | measure (tr : Call)
  /-- RELCHAL (R579): Command RELCHAL draws a release challenge for a stood-down lane. -/
  | relchal (tr : Call)
  /-- RELEASE (R561): Command RELEASE with a valid signature clears the stand-down and schedules a cold start. -/
  | releaseStandDown (tr : Call)
  /-- DBGCHAL (R579): Command DBGCHAL draws a debug challenge. -/
  | dbgchal (tr : Call)
  /-- DBGOPEN (R582): Command DBGOPEN with a valid signature opens debug. -/
  | dbgopen (tr : Call)
  /-- PWRGET (R542): Command PWRGET returns the power state and vote register. -/
  | pwrget (tr : Call)
  /-- PWRVOTE (R589): Command PWRVOTE makes S write the HOST vote for the deepest permitted state. -/
  | pwrvote (tr : Call)
  /-- WAKEREC (R606): Command WAKEREC returns the wake source and wake time. -/
  | wakerec (tr : Call)
  /-- VENDOR_SERVICE (R542): Vendor service opcodes 0xF0 to 0xFF act for Lysonlar only, else are refused with AUTH.
  -/
  | vendorService (tr : Call)
  /-- CHALLENGE_LAPSE (R579): An outstanding challenge lapses after 60 s. -/
  | challengeLapse (k : ChallengeKind)
  /-- POWER_ON_RESET (R545): Power-on of the always-on domain begins a cold start and clears the cut latch. -/
  | powerOnReset (resumeLow : Bool)
  /-- RESET_RELEASE (R545): RESET_N rising after at least 1 µs low begins a cold start. -/
  | resetRelease
  /-- WARM_RESET_CSR (R547): A machine-mode write of mrstreq requests a warm start after the lane withdraws with
  notice. -/
  | warmResetCsr (p : Pair) (machineMode : Bool)
  /-- WARM_RESET_REQUEST (R546): A write of SYS_RSTREQ.WARM requests a warm start, ignored during a start. -/
  | warmResetRequest (r : Requester)
  /-- COLD_RESET_REQUEST (R546): A write of SYS_RSTREQ.COLD begins a cold start, abandoning any start in progress.
  -/
  | coldResetRequest (r : Requester)
  /-- COLD_START (R549): A cold start runs the steps of R549 from reset release to release and READY. -/
  | coldStart (inp : StartInputs)
  /-- WARM_START (R555): A warm start checks retention and runs the short steps, or converts to cold. -/
  | warmStart (inp : StartInputs)
  /-- STARTUP_DONE (R552): A machine-mode write of mstartdone from P0 within 1 ms of the pair release marks the
  start-up writes complete. -/
  | startupDone (p : Pair) (machineMode : Bool)
  /-- STARTUP_WRITE_TIMEOUT (R552): 1 ms after the pair release without all start-up writes, the start fails with
  code 0x0C. -/
  | startupWriteTimeout
  /-- DRIVE_READY (R551): K sets READY at the end of a sealed start, raises security counters and the formation
  window begins. -/
  | driveReady
  /-- START_FAILURE (R557): A failed start records its code and step, holds the engines and waits, or stands the
  lane down. -/
  | startFailure (code step : Byte)
  /-- FAILED_START_WAIT_END (R558): 100 ms of AORC after a failed start K begins a cold start. -/
  | failedStartWaitEnd
  /-- RELEASE_RESTART (R561): Once the RELEASE reply is consumed or 100 ms have passed, K begins a cold start. -/
  | releaseRestart
  /-- STAND_DOWN_CLEAR (R560): VMOT below the hold level for more than 1 s clears the stand-down flag and the
  failed-start times. -/
  | standDownClear
  /-- EXTEST (R581): JTAG EXTEST is available only with debug open and the cut latch set. -/
  | extest (pins : BitVec 168)
  /-- IDCODE (R581): JTAG IDCODE returns 0x2362_0A4B. -/
  | idcode
  /-- SAMPLE_PRELOAD (R581): JTAG SAMPLE/PRELOAD samples the boundary scan. -/
  | samplePreload (preload : BitVec 168)
  /-- CLAMP (R581): JTAG CLAMP is available only with debug open and the cut latch set. -/
  | clampPins
  /-- HIGHZ (R581): JTAG HIGHZ is available only with debug open and the cut latch set. -/
  | highz
  /-- DTMCS (R581): JTAG DTMCS accesses the debug transport while debug is open. -/
  | dtmcs (val : Word)
  /-- DMI (R581): JTAG DMI accesses the debug module of P0–P3 while debug is open. -/
  | dmi (val : BitVec 41)
  /-- PROVISION (R571): JTAG PROVISION in DELIVERED writes slot 1 when the key's digest matches. -/
  | provision (key : BitVec 512) (digest : BitVec 256)
  /-- BYPASS (R581): JTAG BYPASS, and any unavailable instruction, selects the bypass register. -/
  | bypass
  /-- TRACE_SELECT_WRITE (R582): A write of DBG_TRACE.SRC routes core trace to the trace port, discarded while debug
  is closed. -/
  | traceSelectWrite (mask : BitVec 4)
  /-- VOTE_WRITE (R586): A write of PWR_MYVOTE stores the requester's nibble closed downward and the union fixes the
  state in force. -/
  | voteWrite (r : Requester) (nibble : BitVec 4)
  /-- HOST_VOTE_WRITE (R587): A write of PWR_HOSTVOTE by S stores the HOST nibble. -/
  | hostVoteWrite (r : Requester) (nibble : BitVec 4)
  /-- POWER_ENTRY_DONE (R593): An entry completes, and any wake or vote that arrived during it begins the exit at
  once. -/
  | powerEntryDone
  /-- PAIR_GATE (R590): A pair waiting in WFI with no CORE vote has its clock gated. -/
  | pairGate (p : Pair)
  /-- WAKE_ACCEPTED (R595): The WAKE detector accepts an activity phase or wake-up pattern and wakes the lane. -/
  | wakeAccepted (phases : List LineLevel)
  /-- MPORT_ADDRESS_MATCH (R597): An M-port address match in SLEEP or DEEP stretches SCL and wakes the lane. -/
  | mportAddressMatch (adr : BitVec 7) (read : Bool)
  /-- MPORT_CLOCK_RELEASE (R597): Once AORC is back at 50 MHz the M-port acknowledges and releases SCL. -/
  | mportClockRelease
  /-- TIMER_WAKE (R594): The always-on timer reaching DEEPTMR wakes the lane from SLEEP or DEEP. -/
  | timerWake
  /-- SLEEP_EXIT (R596): A wake event in SLEEP relocks the PLL, clocks the engines and resumes monitors and
  watchdog. -/
  | sleepExit (src : BitVec 3)
  /-- DEEP_EXIT (R596): A wake event in DEEP raises CORE_EN and begins a warm start once VCORE is in range. -/
  | deepExit (src : BitVec 3)
  /-- OFF_EXIT (R583): An accepted WAKE or VMOT rising from below the hold level releases PWREN and begins a cold
  start. -/
  | offExit (src : BitVec 3)
  /-- MPORT_WRITE (R599): An I²C write sets the pointer, stores inbox bytes, refuses outbox bytes and at STOP sets
  WREV. -/
  | mportWrite (bytes : List Byte)
  /-- MPORT_READ (R599): An I²C read returns buffer bytes from the pointer onward. -/
  | mportRead (n : Nat)
  /-- SENTINEL_TRIP (R604): A margin-sentinel trip sets the cut latch with cause SENTINEL and holds every engine
  outside the always-on domain in reset. -/
  | sentinelTrip (mask : BitVec 12)
  /-- SENTINEL_RECOVERY (R604): When all twelve sentinels pass for 1 ms during the hold, a warm start begins with
  SRC 0x2 or 0x3. -/
  | sentinelRecovery (collapsed : Bool)
  /-- VMOT_HOLD_FALL (R636): VMOT falling below the wake keeper's falling level begins timing its absence. -/
  | vmotHoldFall
  /-- VMOT_HOLD_RISE (R636): VMOT rising above the rising level exits OFF or, after a cleared stand-down, begins a
  cold start with SRC 0xB. -/
  | vmotHoldRise
  /-- SCRUB_READ (R607): Every 16 µs the scrubber reads a word per SRAM bank and of retention RAM, correcting or
  recording errors. -/
  | scrubRead (word : Word) (found : EccFinding)
  /-- DATA_NVM_MARGIN_PASS (R609): Every 1 h G margin-reads data NVM and rewrites weak pages. -/
  | dataNvmMarginPass (weakPages : List (Fin 2048))
  /-- CODE_NVM_MARGIN_PASS (R609): Every 24 h G margin-reads code NVM and records weak sectors in BKG_WEAK. -/
  | codeNvmMarginPass (weakSectors : List (Fin 1536))
  /-- CALIBRATION_PERIOD (R610): Every CALPER seconds G requests calibration of each bridge in use and trims the
  gate-watch comparators. -/
  | calibrationPeriod
  /-- CALIBRATION_RETRY (R610): A calibration that ended with CALABT is requested again every 100 ms. -/
  | calibrationRetry (b : Bridge)
  /-- SENSE_TRIM_UPDATE (R611): Each second G moves SNSTRIM by one unit for switches whose mean ratio error exceeds
  1/256. -/
  | senseTrimUpdate (b : Bridge) (j : Switch) (centres : List Nat) (sensed : List Int)
  /-- COUNTER_MIRROR (R613): At least every 1 s G writes the wear counters to the mirror and journals changes into
  the reel. -/
  | counterMirror
  /-- COUNTER_SNAPSHOT (R613): Every 1 h, and before erasing a sector with newer journal records, G writes a counter
  snapshot to data NVM. -/
  | counterSnapshot
  /-- REEL_SUBMIT (R615): A producer writes a record into its queue slot and advances HEAD, or increments DROP when
  full. -/
  | reelSubmit (q : Fin 6) (rec : List Byte)
  /-- REEL_MOVE (R616): Every 100 µs G moves submitted records into the reel, numbering them and advancing TAIL. -/
  | reelMove
  /-- REEL_COMMIT (R619): G commits 16 waiting records, or pads and commits within 1.0 s, to the ring in data NVM.
  -/
  | reelCommit
  /-- RESET_ASSERTED (R546): RESET_N going low holds every engine in reset until its rising edge. -/
  | resetAsserted
  /-- ALWAYS_ON_POWER_LOSS (R601): Loss of power in the always-on domain removes the lane's state and re-arms the
  power-on release circuit. -/
  | alwaysOnPowerLoss
  /-- CONFIG_LINK_RESUME (R661): The first valid frame from the driver die after a link loss ends the logic die's
  lost state, so GDA, GDB and VBUS accesses are served again. -/
  | configLinkResume
  /-- CAN_RECEIVE_ERROR (R455): A bus error detected while receiving updates the error counters, LEC and error
  state, and during bit-rate detection moves on to the next candidate. -/
  | canReceiveError (n : CanCtl) (k : RxErrorKind)
  /-- CODE_VIOLATION (R374): An invalid 8b/10b symbol received on an Ebpen port increments CODEERR and counts toward
  declaring the link lost. -/
  | codeViolation (e : Port)
  deriving DecidableEq, Repr

end Sys2Proof
end

