-- ==== Sys2Proof/Config.lean ====
section
/-!
DEFINITION. What the spec leaves open or leaves to another document, as constants with no body: nothing in Lean can
evaluate them, so a statement that holds, holds for every value of them. Each has an entry in the assumption log.
-/
namespace Sys2Proof.Config

/-- The stream of free values: the value the spec leaves open at the n-th such place of a run (log entry 1). -/
opaque freeBits : Nat → BitVec 64

/-- The class of a Heldiog result, for the one question R210 leaves open: which results the flags Z, N, S follow. -/
inductive FlagClass where
  | move | load | accumulator | port
  deriving DecidableEq, Repr

/-- Whether results of a class update Z, N and S (R210 says "last result" and does not list the classes; log entry 2). -/
opaque setsFlags : FlagClass → Bool

/-- Whether SHR shifts in copies of the sign bit (R215 names SHR only; log entry 3). -/
opaque shrArithmetic : Bool

/-- Which compare group of its row of R91 a compared bit, numbered through the table, belongs to (log entry 95). -/
opaque compareGroup : Nat → Nat

/-- The row of an SRAM macro that holds a word of it (R66 gives the macros rows, not their length; log entry 96). -/
opaque macroRow : Nat → Nat

/-- Whether the lane's winding is shifted by 30°, as FORM tells it (R31, R378): no register holds it (log entry 17). -/
opaque windingShift : Bool

/-- The set-wide operation, code and operands, that a chassis-wide broadcast asks for (R419 does not lay the broadcast out; log entry 29). -/
opaque chassisOperation : List Byte → BitVec 112

/-- Bytes 20 to 31 of a record of G's own, from its TYPE and the values R617 names for it (no place is given; log entry 29). -/
opaque recordData : Nat → List Nat → BitVec 96

/-- Bytes 10 to 31 of the telemetry record by which the service firmware reports a bus-off of a controller (R472 gives no layout; log entry 29). -/
opaque busOffRecord : Nat → BitVec 176

/-- The location of a ledger entry of a KIND, from the macro, engine or switch and the row, column or segment (R620; log entry 29). -/
opaque ledgerLocation : Nat → List Nat → BitVec 32

/-- The USED mask and the Settings section that the body of a Heldiog image holds (R240 gives the sections, not their layout; log entry
30). -/
opaque heldiogUsed : List Byte → BitVec 7
opaque heldiogSettings : List Byte → List Byte

/-- The 512-byte page of the calibration area of data NVM at which the Settings section stands (R240, R651; log entry 30). -/
opaque settingsPage : BitVec 5

/-- K's private attestation key (R578; log entry 4). -/
opaque attestKey : BitVec 256

/-- The random number of the n-th free place, from K's entropy source (R578; log entry 4). -/
opaque entropy : Nat → BitVec 256

/-- The device identifier (R570: each part has its own; log entry 5). -/
opaque uid : BitVec 128

/-- Measurement 0, SM3 of the keeper ROM (R577; log entry 5). -/
opaque romDigest : BitVec 256

/-- The service firmware version INFO returns (R542 gives the place, not the value; log entry 5). -/
opaque serviceVersion : BitVec 32

/-- Lysonlar's public key in slot 0, written at manufacture (R570; log entry 5). -/
opaque lysonlarKey : BitVec 512

end Sys2Proof.Config
end

