-- ==== Sys2Proof/Machine/RegTable.lean ====
section
/-!
DEFINITION. The register map of the lane as data: one row per field of every field table (R657), with its offset in the
block, the length and stride of its register array, its bits, its access code (R22), its reset value (R25), the range
of values a write may carry (R659) and whether a read returns sign copies (R17).
-/
namespace Sys2Proof.Machine

/-- The access codes of R22. -/
inductive Access where
  | rw | ro | wo | w1c | w1s | rc | rwo | rws
  deriving DecidableEq, Repr

/-- One row of a field table: `off` offset in the block, `n` elements `stride` bytes apart, bits `[lo + w - 1 : lo]`,
access code, reset value, least and greatest legal value, sign copies on a read. -/
structure Row where
  off : Nat
  n : Nat
  stride : Nat
  lo : Nat
  w : Nat
  acc : Access
  reset : Nat
  vmin : Nat
  vmax : Nat
  sx : Bool
  deriving DecidableEq, Repr

/-- The field rows of block SYS (chapters 02, 17, 21). -/
def rowsSYS : List Row :=
  [ ⟨0x000, 1, 0, 0, 16, .ro, 0x3620, 0, 0xffff, false⟩,
    ⟨0x000, 1, 0, 16, 8, .ro, 0x43, 0, 0xff, false⟩,
    ⟨0x010, 1, 0, 0, 1, .wo, 0, 0, 1, false⟩,
    ⟨0x010, 1, 0, 1, 1, .wo, 0, 0, 1, false⟩,
    ⟨0x020, 1, 0, 0, 8, .ro, 0, 0, 0xff, false⟩,
    ⟨0x020, 1, 0, 8, 8, .ro, 0, 0, 0xff, false⟩,
    ⟨0x020, 1, 0, 16, 1, .ro, 0, 0, 1, false⟩,
    ⟨0x020, 1, 0, 17, 1, .w1c, 0, 0, 1, false⟩,
    ⟨0x020, 1, 0, 18, 1, .w1c, 0, 0, 1, false⟩,
    ⟨0x040, 1, 0, 0, 5, .ro, 0, 0, 0x1f, false⟩,
    ⟨0x040, 1, 0, 5, 1, .ro, 0, 0, 1, false⟩,
    ⟨0x040, 1, 0, 6, 1, .w1c, 0, 0, 1, false⟩,
    ⟨0x040, 1, 0, 7, 1, .ro, 0, 0, 1, false⟩,
    ⟨0x040, 1, 0, 8, 16, .ro, 0, 0, 0xffff, false⟩,
    ⟨0x044, 1, 0, 0, 32, .ro, 0, 0, 0xffffffff, false⟩ ]

/-- The field rows of block PWR (chapter 18). -/
def rowsPWR : List Row :=
  [ ⟨0x000, 1, 0, 0, 3, .ro, 0, 0, 7, false⟩,
    ⟨0x000, 1, 0, 3, 4, .ro, 0, 0, 0xf, false⟩,
    ⟨0x000, 1, 0, 7, 1, .ro, 0, 0, 1, false⟩,
    ⟨0x000, 1, 0, 8, 1, .w1c, 0, 0, 1, false⟩,
    ⟨0x004, 1, 0, 0, 24, .ro, 0xffffff, 0, 0xffffff, false⟩,
    ⟨0x008, 1, 0, 0, 4, .rw, 0xf, 0, 0xf, false⟩,
    ⟨0x00C, 1, 0, 0, 4, .rw, 0xf, 0, 0xf, false⟩,
    ⟨0x010, 1, 0, 0, 1, .rw, 1, 0, 1, false⟩,
    ⟨0x010, 1, 0, 1, 1, .rw, 0, 0, 1, false⟩,
    ⟨0x010, 1, 0, 2, 1, .rw, 0, 0, 1, false⟩,
    ⟨0x010, 1, 0, 3, 1, .rw, 0, 0, 1, false⟩,
    ⟨0x010, 1, 0, 4, 1, .rw, 1, 0, 1, false⟩,
    ⟨0x010, 1, 0, 5, 1, .rw, 0, 0, 1, false⟩,
    ⟨0x014, 1, 0, 0, 24, .rw, 0, 1, 0xffffff, false⟩,
    ⟨0x018, 1, 0, 0, 3, .ro, 0, 0, 7, false⟩,
    ⟨0x018, 1, 0, 3, 3, .ro, 0, 0, 7, false⟩,
    ⟨0x018, 1, 0, 6, 1, .ro, 0, 0, 1, false⟩,
    ⟨0x01C, 1, 0, 0, 32, .ro, 0, 0, 0xffffffff, false⟩,
    ⟨0x020, 1, 0, 0, 30, .ro, 0, 0, 0x3fffffff, false⟩,
    ⟨0x024, 1, 0, 0, 32, .ro, 0, 0, 0xffffffff, false⟩,
    ⟨0x028, 1, 0, 0, 12, .ro, 0, 0, 0xfff, false⟩,
    ⟨0x028, 1, 0, 12, 1, .ro, 0, 0, 1, false⟩,
    ⟨0x02C, 1, 0, 0, 8, .rc, 0, 0, 0xff, false⟩,
    ⟨0x02C, 1, 0, 8, 8, .rc, 0, 0, 0xff, false⟩ ] ++
  [ ⟨0x02C, 1, 0, 16, 2, .rc, 0, 0, 3, false⟩ ]

/-- The field rows of block SEAL (chapter 17). -/
def rowsSEAL : List Row :=
  [ ⟨0x000, 1, 0, 0, 16, .ro, 0, 0, 0xffff, false⟩,
    ⟨0x000, 1, 0, 16, 1, .ro, 0, 0, 1, false⟩,
    ⟨0x000, 1, 0, 17, 6, .ro, 0, 0, 0x3f, false⟩,
    ⟨0x004, 1, 0, 0, 8, .ro, 0, 0, 0xff, false⟩,
    ⟨0x008, 1, 0, 0, 1, .ro, 0, 0, 1, false⟩,
    ⟨0x008, 1, 0, 1, 1, .ro, 0, 0, 1, false⟩,
    ⟨0x008, 1, 0, 2, 1, .ro, 0, 0, 1, false⟩,
    ⟨0x008, 1, 0, 3, 1, .ro, 0, 0, 1, false⟩,
    ⟨0x008, 1, 0, 4, 1, .ro, 0, 0, 1, false⟩,
    ⟨0x008, 1, 0, 5, 1, .ro, 0, 0, 1, false⟩,
    ⟨0x008, 1, 0, 6, 3, .ro, 0, 0, 7, false⟩,
    ⟨0x008, 1, 0, 9, 10, .ro, 0, 0, 0x3ff, false⟩,
    ⟨0x00C, 1, 0, 0, 32, .ro, 0, 0, 0xffffffff, false⟩,
    ⟨0x010, 1, 0, 0, 32, .ro, 0, 0, 0xffffffff, false⟩,
    ⟨0x014, 1, 0, 0, 32, .ro, 0, 0, 0xffffffff, false⟩,
    ⟨0x020, 8, 4, 0, 32, .ro, 0, 0, 0xffffffff, false⟩ ]

/-- The field rows of block DBL (chapter 03). -/
def rowsDBL : List Row :=
  [ ⟨0x000, 1, 0, 0, 4, .rw, 0xf, 0, 0xf, false⟩,
    ⟨0x004, 1, 0, 0, 4, .ro, 0, 0, 0xf, false⟩,
    ⟨0x004, 1, 0, 4, 4, .ro, 0, 0, 0xf, false⟩,
    ⟨0x004, 1, 0, 8, 4, .ro, 0, 0, 0xf, false⟩,
    ⟨0x004, 1, 0, 12, 1, .ro, 0, 0, 1, false⟩,
    ⟨0x010, 4, 4, 0, 1, .w1c, 0, 0, 1, false⟩,
    ⟨0x010, 4, 4, 1, 3, .ro, 0, 0, 7, false⟩,
    ⟨0x010, 4, 4, 4, 5, .ro, 0, 0, 0x1f, false⟩,
    ⟨0x010, 4, 4, 9, 1, .ro, 0, 0, 1, false⟩,
    ⟨0x020, 1, 0, 0, 4, .rw, 0, 0, 0xf, false⟩,
    ⟨0x020, 1, 0, 4, 1, .w1s, 0, 0, 1, false⟩,
    ⟨0x020, 1, 0, 5, 1, .ro, 0, 0, 1, false⟩,
    ⟨0x020, 1, 0, 6, 1, .w1c, 0, 0, 1, false⟩,
    ⟨0x020, 1, 0, 7, 1, .w1c, 0, 0, 1, false⟩,
    ⟨0x024, 1, 0, 0, 4, .ro, 0, 0, 0xf, false⟩,
    ⟨0x024, 1, 0, 8, 5, .ro, 0, 0, 0x1f, false⟩,
    ⟨0x024, 1, 0, 13, 6, .ro, 0, 0, 0x3f, false⟩,
    ⟨0x024, 1, 0, 19, 2, .ro, 0, 0, 3, false⟩,
    ⟨0x024, 1, 0, 21, 1, .ro, 0, 0, 1, false⟩,
    ⟨0x024, 1, 0, 22, 2, .ro, 0, 0, 3, false⟩,
    ⟨0x028, 1, 0, 0, 7, .rc, 0, 0, 0x7f, false⟩,
    ⟨0x028, 1, 0, 7, 1, .rc, 0, 0, 1, false⟩,
    ⟨0x028, 1, 0, 8, 7, .rc, 0, 0, 0x7f, false⟩,
    ⟨0x028, 1, 0, 15, 1, .rc, 0, 0, 1, false⟩ ] ++
  [ ⟨0x028, 1, 0, 16, 7, .rc, 0, 0, 0x7f, false⟩,
    ⟨0x028, 1, 0, 23, 1, .rc, 0, 0, 1, false⟩,
    ⟨0x028, 1, 0, 24, 7, .rc, 0, 0, 0x7f, false⟩,
    ⟨0x028, 1, 0, 31, 1, .rc, 0, 0, 1, false⟩ ]

/-- The field rows of block ANG (chapter 04). -/
def rowsANG : List Row :=
  [ ⟨0x000, 1, 0, 0, 1, .rw, 0, 0, 1, false⟩,
    ⟨0x000, 1, 0, 1, 4, .rw, 0, 0, 0xc, false⟩,
    ⟨0x000, 1, 0, 5, 1, .rw, 0, 0, 1, false⟩,
    ⟨0x000, 1, 0, 6, 2, .rw, 0, 0, 1, false⟩,
    ⟨0x000, 1, 0, 8, 1, .rwo, 0, 0, 1, false⟩,
    ⟨0x000, 1, 0, 9, 3, .rwo, 2, 0, 4, false⟩,
    ⟨0x000, 1, 0, 12, 4, .rwo, 0, 0, 0xe, false⟩,
    ⟨0x004, 1, 0, 0, 1, .ro, 1, 0, 1, false⟩,
    ⟨0x004, 1, 0, 1, 1, .ro, 0, 0, 1, false⟩,
    ⟨0x004, 1, 0, 2, 1, .w1c, 0, 0, 1, false⟩,
    ⟨0x004, 1, 0, 3, 1, .w1c, 0, 0, 1, false⟩,
    ⟨0x004, 1, 0, 4, 1, .w1c, 0, 0, 1, false⟩,
    ⟨0x004, 1, 0, 5, 1, .w1c, 0, 0, 1, false⟩,
    ⟨0x008, 1, 0, 0, 20, .ro, 0, 0, 0xfffff, false⟩,
    ⟨0x00C, 1, 0, 0, 32, .ro, 0, 0, 0xffffffff, false⟩,
    ⟨0x02C, 1, 0, 0, 20, .ro, 0, 0, 0xfffff, true⟩,
    ⟨0x040, 1, 0, 0, 20, .ro, 0, 0, 0xfffff, true⟩,
    ⟨0x010, 1, 0, 0, 16, .rwo, 0x1388, 3125, 0x61a8, false⟩,
    ⟨0x014, 1, 0, 0, 24, .rw, 0xffffff, 0, 0xffffff, false⟩,
    ⟨0x018, 1, 0, 0, 24, .rw, 0xffffff, 0, 0xffffff, false⟩,
    ⟨0x01C, 1, 0, 0, 20, .rwo, 0, 0, 0xfffff, false⟩,
    ⟨0x020, 1, 0, 0, 20, .rw, 0, 0, 0xfffff, false⟩,
    ⟨0x028, 1, 0, 0, 20, .rw, 0x10000, 0, 0xfffff, false⟩,
    ⟨0x024, 1, 0, 0, 16, .rw, 0x100, 0, 0xffff, false⟩ ] ++
  [ ⟨0x024, 1, 0, 16, 8, .rw, 0xa, 1, 0xff, false⟩,
    ⟨0x030, 1, 0, 0, 16, .ro, 0, 0, 0xffff, false⟩,
    ⟨0x030, 1, 0, 16, 16, .ro, 0, 0, 0xffff, false⟩,
    ⟨0x034, 1, 0, 0, 15, .rc, 0, 0, 0x7fff, false⟩,
    ⟨0x034, 1, 0, 15, 1, .rc, 0, 0, 1, false⟩,
    ⟨0x034, 1, 0, 16, 15, .rc, 0, 0, 0x7fff, false⟩,
    ⟨0x034, 1, 0, 31, 1, .rc, 0, 0, 1, false⟩,
    ⟨0x038, 2, 4, 0, 32, .w1c, 0, 0, 0xffffffff, false⟩,
    ⟨0x100, 64, 8, 0, 20, .rw, 0, 0, 0xfffff, false⟩,
    ⟨0x100, 64, 8, 20, 12, .rw, 0, 0, 0xfff, false⟩,
    ⟨0x104, 64, 8, 0, 1, .rw, 0, 0, 1, false⟩,
    ⟨0x104, 64, 8, 1, 1, .rw, 0, 0, 1, false⟩,
    ⟨0x104, 64, 8, 2, 2, .rw, 1, 0, 3, false⟩,
    ⟨0x104, 64, 8, 4, 2, .rw, 0, 0, 2, false⟩,
    ⟨0x104, 64, 8, 6, 3, .rw, 0, 0, 4, false⟩,
    ⟨0x104, 64, 8, 9, 2, .rw, 0, 0, 3, false⟩,
    ⟨0x104, 64, 8, 11, 2, .rw, 0, 0, 3, false⟩,
    ⟨0x104, 64, 8, 13, 3, .rw, 0, 0, 6, false⟩,
    ⟨0x104, 64, 8, 16, 8, .rw, 0, 0, 0xff, false⟩,
    ⟨0x400, 256, 4, 0, 20, .rw, 0, 0, 0xfffff, true⟩ ]

/-- The field rows of block POS (chapter 05). -/
def rowsPOS : List Row :=
  [ ⟨0x000, 1, 0, 0, 1, .rw, 0, 0, 1, false⟩,
    ⟨0x000, 1, 0, 1, 1, .rw, 0, 0, 1, false⟩,
    ⟨0x000, 1, 0, 2, 1, .rw, 0, 0, 1, false⟩,
    ⟨0x000, 1, 0, 3, 2, .rw, 0, 0, 2, false⟩,
    ⟨0x000, 1, 0, 5, 1, .rw, 0, 0, 1, false⟩,
    ⟨0x000, 1, 0, 6, 2, .rw, 0, 0, 2, false⟩,
    ⟨0x000, 1, 0, 8, 1, .rw, 0, 0, 1, false⟩,
    ⟨0x000, 1, 0, 9, 5, .rw, 0, 0, 0x1f, false⟩,
    ⟨0x004, 1, 0, 0, 1, .ro, 0, 0, 1, false⟩,
    ⟨0x004, 1, 0, 1, 1, .ro, 0, 0, 1, false⟩,
    ⟨0x004, 1, 0, 2, 1, .ro, 0, 0, 1, false⟩,
    ⟨0x004, 1, 0, 3, 1, .ro, 0, 0, 1, false⟩,
    ⟨0x004, 1, 0, 4, 1, .ro, 0, 0, 1, false⟩,
    ⟨0x004, 1, 0, 5, 1, .ro, 0, 0, 1, false⟩,
    ⟨0x004, 1, 0, 6, 1, .ro, 0, 0, 1, false⟩,
    ⟨0x004, 1, 0, 7, 1, .ro, 0, 0, 1, false⟩,
    ⟨0x004, 1, 0, 8, 1, .w1c, 0, 0, 1, false⟩,
    ⟨0x004, 1, 0, 9, 1, .w1c, 0, 0, 1, false⟩,
    ⟨0x004, 1, 0, 10, 1, .w1c, 0, 0, 1, false⟩,
    ⟨0x008, 1, 0, 0, 24, .ro, 0, 0, 0xffffff, false⟩,
    ⟨0x00C, 1, 0, 0, 32, .ro, 0, 0, 0xffffffff, false⟩,
    ⟨0x010, 1, 0, 0, 32, .ro, 0, 0, 0xffffffff, false⟩,
    ⟨0x014, 1, 0, 0, 18, .ro, 0, 0, 0x3ffff, false⟩,
    ⟨0x014, 1, 0, 24, 3, .ro, 0, 0, 7, false⟩ ] ++
  [ ⟨0x018, 1, 0, 0, 20, .ro, 0, 0, 0xfffff, false⟩,
    ⟨0x018, 1, 0, 20, 12, .ro, 0, 0, 0xfff, false⟩,
    ⟨0x020, 1, 0, 0, 12, .rw, 0, 0, 0xfff, false⟩,
    ⟨0x020, 1, 0, 12, 3, .rw, 2, 0, 6, false⟩,
    ⟨0x020, 1, 0, 15, 4, .rw, 0, 0, 0xf, false⟩,
    ⟨0x020, 1, 0, 19, 5, .rw, 4, 1, 0x1f, false⟩,
    ⟨0x024, 1, 0, 0, 16, .rw, 0, 0, 0xffff, false⟩,
    ⟨0x024, 1, 0, 16, 16, .rw, 0, 0, 0xffff, false⟩,
    ⟨0x028, 1, 0, 0, 16, .rw, 0x8000, 0, 0xffff, false⟩,
    ⟨0x028, 1, 0, 16, 16, .rw, 0x8000, 0, 0xffff, false⟩,
    ⟨0x02C, 1, 0, 0, 16, .rw, 0, 0, 0xffff, false⟩,
    ⟨0x030, 1, 0, 0, 16, .rw, 0x2000, 0, 0xffff, false⟩,
    ⟨0x030, 1, 0, 16, 16, .rw, 0x7c00, 0, 0xffff, false⟩,
    ⟨0x034, 1, 0, 0, 16, .rw, 0x3ff, 0, 0xffff, false⟩,
    ⟨0x034, 1, 0, 16, 8, .rw, 0xa, 1, 0xfa, false⟩,
    ⟨0x034, 1, 0, 24, 2, .rw, 0, 0, 3, false⟩,
    ⟨0x038, 1, 0, 0, 18, .rw, 0, 0, 0x3ffff, false⟩,
    ⟨0x03C, 1, 0, 0, 20, .rw, 0, 0, 0xfffff, false⟩,
    ⟨0x03C, 1, 0, 20, 3, .rw, 0, 0, 7, false⟩,
    ⟨0x040, 1, 0, 0, 8, .rw, 0x32, 1, 0xff, false⟩,
    ⟨0x040, 1, 0, 8, 20, .rw, 0x100, 0, 0xfffff, false⟩,
    ⟨0x044, 1, 0, 0, 20, .rw, 0, 0, 0xfffff, false⟩,
    ⟨0x048, 1, 0, 0, 20, .rw, 0, 0, 0xfffff, false⟩,
    ⟨0x04C, 1, 0, 0, 16, .rc, 0, 0, 0xffff, false⟩ ] ++
  [ ⟨0x04C, 1, 0, 16, 16, .rc, 0, 0, 0xffff, false⟩,
    ⟨0x050, 1, 0, 0, 16, .rc, 0, 0, 0xffff, false⟩,
    ⟨0x050, 1, 0, 16, 16, .rc, 0, 0, 0xffff, false⟩,
    ⟨0x054, 1, 0, 0, 16, .rc, 0, 0, 0xffff, false⟩,
    ⟨0x054, 1, 0, 16, 16, .rc, 0, 0, 0xffff, false⟩,
    ⟨0x058, 1, 0, 0, 6, .w1c, 0, 0, 0x3f, false⟩,
    ⟨0x05C, 1, 0, 0, 32, .wo, 0, 0, 0xffffffff, false⟩,
    ⟨0x060, 1, 0, 0, 3, .wo, 0, 0, 7, false⟩,
    ⟨0x070, 2, 16, 0, 1, .rw, 0, 0, 1, false⟩,
    ⟨0x070, 2, 16, 1, 2, .rw, 1, 0, 3, false⟩,
    ⟨0x070, 2, 16, 3, 2, .rw, 3, 0, 3, false⟩,
    ⟨0x070, 2, 16, 5, 1, .rw, 0, 0, 1, false⟩,
    ⟨0x074, 2, 16, 0, 32, .rw, 0, 0, 0xffffffff, false⟩,
    ⟨0x078, 2, 16, 0, 24, .rw, 0x10000, 1, 0xffffff, false⟩,
    ⟨0x07C, 2, 16, 0, 1, .w1c, 0, 0, 1, false⟩,
    ⟨0x07C, 2, 16, 1, 1, .ro, 0, 0, 1, false⟩,
    ⟨0x07C, 2, 16, 8, 8, .rc, 0, 0, 0xff, false⟩,
    ⟨0x07C, 2, 16, 16, 1, .rc, 0, 0, 1, false⟩,
    ⟨0x090, 1, 0, 0, 4, .rw, 0, 0, 0xb, false⟩,
    ⟨0x090, 1, 0, 4, 4, .rw, 0, 0, 0xb, false⟩,
    ⟨0x090, 1, 0, 8, 4, .rw, 0, 0, 0xb, false⟩,
    ⟨0x090, 1, 0, 12, 4, .rw, 0, 0, 0xb, false⟩,
    ⟨0x090, 1, 0, 16, 1, .rw, 0, 0, 1, false⟩,
    ⟨0x090, 1, 0, 17, 1, .w1c, 0, 0, 1, false⟩ ] ++
  [ ⟨0x090, 1, 0, 18, 1, .w1c, 0, 0, 1, false⟩,
    ⟨0x094, 1, 0, 0, 20, .rw, 0, 0, 0xfffff, false⟩,
    ⟨0x094, 1, 0, 20, 2, .ro, 0, 0, 3, false⟩,
    ⟨0x094, 1, 0, 22, 1, .ro, 0, 0, 1, false⟩ ]

/-- The field rows of block SENT (chapter 05). -/
def rowsSENT : List Row :=
  [ ⟨0x000, 4, 32, 0, 1, .rw, 0, 0, 1, false⟩,
    ⟨0x000, 4, 32, 1, 10, .rw, 0x1e, 30, 0x384, false⟩,
    ⟨0x000, 4, 32, 11, 3, .rw, 6, 1, 6, false⟩,
    ⟨0x000, 4, 32, 14, 1, .rw, 0, 0, 1, false⟩,
    ⟨0x000, 4, 32, 15, 1, .rw, 0, 0, 1, false⟩,
    ⟨0x000, 4, 32, 16, 4, .rw, 3, 1, 0xf, false⟩,
    ⟨0x000, 4, 32, 20, 8, .rw, 0xa, 1, 0xff, false⟩,
    ⟨0x004, 4, 32, 0, 5, .rw, 0xc, 8, 0x18, false⟩,
    ⟨0x004, 4, 32, 5, 5, .rw, 0, 0, 0x1f, false⟩,
    ⟨0x004, 4, 32, 10, 5, .rw, 0, 0, 0x1f, false⟩,
    ⟨0x004, 4, 32, 15, 1, .rw, 0, 0, 1, false⟩,
    ⟨0x008, 4, 32, 0, 20, .rw, 0, 0, 0xfffff, false⟩,
    ⟨0x008, 4, 32, 20, 12, .rw, 0, 0, 0xfff, false⟩,
    ⟨0x00C, 4, 32, 0, 24, .ro, 0, 0, 0xffffff, false⟩,
    ⟨0x00C, 4, 32, 24, 4, .ro, 0, 0, 0xf, false⟩,
    ⟨0x010, 4, 32, 0, 24, .ro, 0, 0, 0xffffff, false⟩,
    ⟨0x014, 4, 32, 0, 16, .ro, 0, 0, 0xffff, false⟩,
    ⟨0x014, 4, 32, 16, 8, .ro, 0, 0, 0xff, false⟩,
    ⟨0x014, 4, 32, 31, 1, .rc, 0, 0, 1, false⟩,
    ⟨0x018, 4, 32, 0, 1, .ro, 0, 0, 1, false⟩,
    ⟨0x018, 4, 32, 1, 1, .ro, 0, 0, 1, false⟩,
    ⟨0x018, 4, 32, 2, 1, .ro, 0, 0, 1, false⟩,
    ⟨0x018, 4, 32, 3, 1, .w1c, 0, 0, 1, false⟩,
    ⟨0x018, 4, 32, 8, 8, .rc, 0, 0, 0xff, false⟩ ] ++
  [ ⟨0x018, 4, 32, 16, 8, .rc, 0, 0, 0xff, false⟩,
    ⟨0x018, 4, 32, 24, 1, .rc, 0, 0, 1, false⟩,
    ⟨0x018, 4, 32, 25, 1, .rc, 0, 0, 1, false⟩,
    ⟨0x018, 4, 32, 31, 1, .wo, 0, 0, 1, false⟩,
    ⟨0x01C, 4, 32, 0, 32, .ro, 0, 0, 0xffffffff, false⟩ ]

/-- The field rows of block EMU (chapter 05). -/
def rowsEMU : List Row :=
  [ ⟨0x000, 1, 0, 0, 1, .rw, 0, 0, 1, false⟩,
    ⟨0x000, 1, 0, 1, 3, .rw, 0, 0, 6, false⟩,
    ⟨0x000, 1, 0, 4, 1, .rw, 0, 0, 1, false⟩,
    ⟨0x004, 1, 0, 0, 16, .rw, 0x3ff, 15, 0xffff, false⟩,
    ⟨0x004, 1, 0, 16, 8, .rw, 2, 1, 0xff, false⟩,
    ⟨0x008, 1, 0, 0, 18, .rw, 0, 0, 0x3ffff, false⟩,
    ⟨0x00C, 1, 0, 0, 1, .ro, 0, 0, 1, false⟩,
    ⟨0x00C, 1, 0, 1, 1, .ro, 0, 0, 1, false⟩,
    ⟨0x00C, 1, 0, 2, 1, .w1c, 0, 0, 1, false⟩,
    ⟨0x00C, 1, 0, 3, 1, .w1c, 0, 0, 1, false⟩,
    ⟨0x00C, 1, 0, 4, 18, .ro, 0, 0, 0x3ffff, false⟩ ]

/-- The field rows of block ISNS (chapter 06). -/
def rowsISNS : List Row :=
  [ ⟨0x000, 1, 0, 0, 1, .rw, 0, 0, 1, false⟩,
    ⟨0x000, 1, 0, 1, 1, .rw, 0, 0, 1, false⟩,
    ⟨0x000, 1, 0, 2, 1, .rwo, 0, 0, 1, false⟩,
    ⟨0x000, 1, 0, 3, 1, .rwo, 0, 0, 1, false⟩,
    ⟨0x000, 1, 0, 4, 1, .rwo, 0, 0, 1, false⟩,
    ⟨0x004, 1, 0, 0, 4, .ro, 0, 0, 0xf, false⟩,
    ⟨0x004, 1, 0, 4, 4, .w1c, 0, 0, 0xf, false⟩,
    ⟨0x004, 1, 0, 8, 4, .w1c, 0, 0, 0xf, false⟩,
    ⟨0x004, 1, 0, 12, 4, .w1c, 0, 0, 0xf, false⟩,
    ⟨0x004, 1, 0, 16, 2, .w1c, 0, 0, 3, false⟩,
    ⟨0x004, 1, 0, 18, 2, .w1c, 0, 0, 3, false⟩,
    ⟨0x004, 1, 0, 20, 1, .w1c, 0, 0, 1, false⟩,
    ⟨0x004, 1, 0, 21, 1, .w1c, 0, 0, 1, false⟩,
    ⟨0x004, 1, 0, 22, 2, .ro, 0, 0, 3, false⟩,
    ⟨0x004, 1, 0, 24, 2, .w1c, 0, 0, 3, false⟩,
    ⟨0x004, 1, 0, 26, 4, .w1c, 0, 0, 0xf, false⟩,
    ⟨0x004, 1, 0, 30, 1, .w1c, 0, 0, 1, false⟩,
    ⟨0x008, 1, 0, 0, 16, .ro, 0, 0, 0xffff, false⟩,
    ⟨0x008, 1, 0, 16, 16, .ro, 0, 0, 0xffff, false⟩,
    ⟨0x00C, 1, 0, 0, 4, .wo, 0, 0, 0xf, false⟩,
    ⟨0x010, 4, 4, 0, 2, .rwo, 1, 0, 3, false⟩,
    ⟨0x010, 4, 4, 2, 1, .rwo, 0, 0, 1, false⟩,
    ⟨0x010, 4, 4, 3, 8, .rw, 0xf0, 1, 0xff, false⟩,
    ⟨0x020, 4, 4, 0, 20, .ro, 0, 0, 0xfffff, true⟩ ] ++
  [ ⟨0x030, 4, 4, 0, 16, .rwo, 0, 0, 0xffff, false⟩,
    ⟨0x030, 4, 4, 16, 12, .rwo, 0, 0, 0xfff, false⟩,
    ⟨0x040, 8, 4, 0, 3, .rw, 2, 0, 4, false⟩,
    ⟨0x040, 8, 4, 3, 1, .rw, 0, 0, 1, false⟩,
    ⟨0x040, 8, 4, 4, 3, .rw, 0, 0, 6, false⟩,
    ⟨0x040, 8, 4, 7, 8, .rw, 0, 0, 0xff, false⟩,
    ⟨0x060, 2, 4, 0, 20, .ro, 0, 0, 0xfffff, true⟩,
    ⟨0x068, 1, 0, 0, 4, .rw, 2, 0, 0xf, false⟩,
    ⟨0x068, 1, 0, 4, 4, .rw, 2, 0, 0xf, false⟩,
    ⟨0x06C, 1, 0, 0, 2, .w1s, 0, 0, 3, false⟩,
    ⟨0x070, 4, 4, 0, 8, .rc, 0, 0, 0xff, false⟩,
    ⟨0x070, 4, 4, 8, 8, .rc, 0, 0, 0xff, false⟩,
    ⟨0x070, 4, 4, 16, 1, .rc, 0, 0, 1, false⟩,
    ⟨0x070, 4, 4, 17, 1, .rc, 0, 0, 1, false⟩,
    ⟨0x080, 1, 0, 0, 8, .rc, 0, 0, 0xff, false⟩,
    ⟨0x080, 1, 0, 8, 8, .rc, 0, 0, 0xff, false⟩,
    ⟨0x080, 1, 0, 16, 8, .rc, 0, 0, 0xff, false⟩,
    ⟨0x080, 1, 0, 24, 3, .rc, 0, 0, 7, false⟩,
    ⟨0x090, 4, 4, 0, 20, .ro, 0, 0, 0xfffff, true⟩,
    ⟨0x0A0, 1, 0, 0, 16, .ro, 0, 0, 0xffff, false⟩,
    ⟨0x0A0, 1, 0, 16, 4, .ro, 0, 0, 0xf, false⟩ ]

/-- The field rows of block HLE (chapter 07). -/
def rowsHLE : List Row :=
  [ ⟨0x000, 1, 0, 0, 7, .rw, 0, 0, 0x7f, false⟩,
    ⟨0x004, 1, 0, 0, 7, .ro, 0, 0, 0x7f, false⟩,
    ⟨0x004, 1, 0, 8, 7, .ro, 0, 0, 0x7f, false⟩,
    ⟨0x004, 1, 0, 16, 7, .ro, 0, 0, 0x7f, false⟩,
    ⟨0x004, 1, 0, 23, 1, .w1c, 0, 0, 1, false⟩,
    ⟨0x008, 1, 0, 0, 3, .ro, 7, 0, 7, false⟩,
    ⟨0x008, 1, 0, 8, 8, .ro, 0, 0, 0xff, false⟩,
    ⟨0x00C, 1, 0, 0, 3, .wo, 0, 0, 6, false⟩,
    ⟨0x00C, 1, 0, 8, 8, .wo, 0, 0, 0xff, false⟩,
    ⟨0x100, 7, 64, 0, 1, .rw, 1, 0, 1, false⟩,
    ⟨0x100, 7, 64, 1, 1, .rw, 0, 0, 1, false⟩,
    ⟨0x100, 7, 64, 2, 1, .rw, 0, 0, 1, false⟩,
    ⟨0x100, 7, 64, 3, 2, .rwo, 0, 0, 2, false⟩,
    ⟨0x100, 7, 64, 5, 1, .wo, 0, 0, 1, false⟩,
    ⟨0x104, 7, 64, 0, 1, .ro, 1, 0, 1, false⟩,
    ⟨0x104, 7, 64, 1, 1, .ro, 0, 0, 1, false⟩,
    ⟨0x104, 7, 64, 2, 1, .ro, 0, 0, 1, false⟩,
    ⟨0x104, 7, 64, 3, 1, .ro, 0, 0, 1, false⟩,
    ⟨0x104, 7, 64, 4, 1, .w1c, 0, 0, 1, false⟩,
    ⟨0x104, 7, 64, 5, 3, .ro, 0, 0, 7, false⟩,
    ⟨0x104, 7, 64, 8, 1, .ro, 0, 0, 1, false⟩,
    ⟨0x104, 7, 64, 9, 1, .w1c, 0, 0, 1, false⟩,
    ⟨0x104, 7, 64, 10, 1, .w1c, 0, 0, 1, false⟩,
    ⟨0x104, 7, 64, 11, 1, .w1c, 0, 0, 1, false⟩ ] ++
  [ ⟨0x104, 7, 64, 12, 1, .w1c, 0, 0, 1, false⟩,
    ⟨0x108, 7, 64, 0, 1, .rwo, 0, 0, 1, false⟩,
    ⟨0x108, 7, 64, 1, 8, .rwo, 0, 0, 0xff, false⟩,
    ⟨0x108, 7, 64, 16, 1, .rwo, 0, 0, 1, false⟩,
    ⟨0x108, 7, 64, 17, 8, .rwo, 0, 0, 0xff, false⟩,
    ⟨0x10C, 7, 64, 0, 1, .rwo, 0, 0, 1, false⟩,
    ⟨0x10C, 7, 64, 1, 8, .rwo, 0, 0, 0xff, false⟩,
    ⟨0x10C, 7, 64, 16, 1, .rwo, 0, 0, 1, false⟩,
    ⟨0x10C, 7, 64, 17, 8, .rwo, 0, 0, 0xff, false⟩,
    ⟨0x110, 7, 64, 0, 1, .rwo, 0, 0, 1, false⟩,
    ⟨0x110, 7, 64, 1, 8, .rwo, 0, 0, 0xff, false⟩,
    ⟨0x110, 7, 64, 16, 1, .rwo, 0, 0, 1, false⟩,
    ⟨0x110, 7, 64, 17, 8, .rwo, 0, 0, 0xff, false⟩,
    ⟨0x114, 7, 64, 0, 16, .rw, 0x2000, 1, 0xffff, false⟩,
    ⟨0x118, 7, 64, 0, 12, .ro, 0, 0, 0xfff, false⟩,
    ⟨0x11C, 7, 64, 0, 16, .ro, 0, 0, 0xffff, false⟩,
    ⟨0x11C, 7, 64, 16, 16, .rc, 0, 0, 0xffff, false⟩,
    ⟨0x120, 7, 64, 0, 15, .rc, 0, 0, 0x7fff, false⟩,
    ⟨0x120, 7, 64, 15, 1, .rc, 0, 0, 1, false⟩,
    ⟨0x120, 7, 64, 16, 15, .rc, 0, 0, 0x7fff, false⟩,
    ⟨0x120, 7, 64, 31, 1, .rc, 0, 0, 1, false⟩ ]

/-- The field rows of block MC (chapter 09). -/
def rowsMC : List Row :=
  [ ⟨0x000, 1, 0, 0, 1, .rw, 0, 0, 1, false⟩,
    ⟨0x000, 1, 0, 1, 2, .rw, 0, 0, 1, false⟩,
    ⟨0x000, 1, 0, 3, 1, .w1s, 0, 0, 1, false⟩,
    ⟨0x000, 1, 0, 4, 2, .rw, 3, 1, 3, false⟩,
    ⟨0x000, 1, 0, 6, 1, .rws, 0, 0, 1, false⟩,
    ⟨0x000, 1, 0, 7, 1, .rws, 0, 0, 1, false⟩,
    ⟨0x004, 1, 0, 0, 3, .ro, 0, 0, 7, false⟩,
    ⟨0x004, 1, 0, 3, 3, .ro, 0, 0, 7, false⟩,
    ⟨0x004, 1, 0, 6, 1, .w1c, 0, 0, 1, false⟩,
    ⟨0x004, 1, 0, 7, 1, .w1c, 0, 0, 1, false⟩,
    ⟨0x004, 1, 0, 8, 1, .w1c, 0, 0, 1, false⟩,
    ⟨0x004, 1, 0, 9, 1, .w1c, 0, 0, 1, false⟩,
    ⟨0x004, 1, 0, 10, 2, .ro, 0, 0, 3, false⟩,
    ⟨0x004, 1, 0, 12, 1, .ro, 0, 0, 1, false⟩,
    ⟨0x004, 1, 0, 13, 3, .ro, 0, 0, 7, false⟩,
    ⟨0x004, 1, 0, 16, 1, .ro, 0, 0, 1, false⟩,
    ⟨0x004, 1, 0, 17, 1, .w1c, 0, 0, 1, false⟩,
    ⟨0x008, 3, 4, 0, 20, .rw, 0, 0, 0xfffff, true⟩,
    ⟨0x014, 1, 0, 0, 20, .rw, 0, 0, 0xfffff, true⟩,
    ⟨0x018, 1, 0, 0, 20, .rws, 0x7ffff, 0, 0x7ffff, true⟩,
    ⟨0x01C, 1, 0, 0, 8, .rws, 0xf0, 1, 0xff, false⟩,
    ⟨0x01C, 1, 0, 8, 8, .rws, 4, 1, 0xff, false⟩,
    ⟨0x020, 1, 0, 0, 24, .rws, 0xffffff, 0, 0xffffff, false⟩,
    ⟨0x024, 1, 0, 0, 8, .rwo, 0x14, 1, 0xff, false⟩ ] ++
  [ ⟨0x024, 1, 0, 8, 8, .rwo, 5, 1, 0xff, false⟩,
    ⟨0x024, 1, 0, 16, 3, .rwo, 6, 1, 6, false⟩,
    ⟨0x024, 1, 0, 20, 4, .rwo, 2, 1, 0xf, false⟩,
    ⟨0x028, 1, 0, 0, 20, .rwo, 0, 0, 0xfffff, true⟩,
    ⟨0x02C, 1, 0, 0, 8, .rwo, 0x80, 0, 0xff, false⟩,
    ⟨0x02C, 1, 0, 8, 8, .rwo, 0xc0, 0, 0xff, false⟩,
    ⟨0x02C, 1, 0, 16, 4, .rwo, 3, 1, 0xf, false⟩,
    ⟨0x02C, 1, 0, 20, 8, .rwo, 5, 1, 0xff, false⟩,
    ⟨0x030, 1, 0, 0, 8, .rw, 0x32, 1, 0xff, false⟩,
    ⟨0x034, 1, 0, 0, 24, .rw, 0, 0, 0xffffff, false⟩,
    ⟨0x038, 1, 0, 0, 24, .rw, 0, 0, 0xffffff, false⟩,
    ⟨0x03C, 1, 0, 0, 24, .rw, 0, 0, 0xffffff, false⟩,
    ⟨0x040, 1, 0, 0, 20, .rw, 0, 0, 0xfffff, true⟩,
    ⟨0x044, 1, 0, 0, 16, .rw, 0xfffe, 0, 0xffff, false⟩,
    ⟨0x044, 1, 0, 16, 16, .rw, 0xffff, 0, 0xffff, false⟩,
    ⟨0x048, 1, 0, 0, 16, .rw, 0xffff, 0, 0xffff, false⟩,
    ⟨0x04C, 1, 0, 0, 20, .rw, 0, 0, 0xfffff, true⟩,
    ⟨0x050, 1, 0, 0, 20, .rw, 0x20000, 0, 0x7ffff, true⟩,
    ⟨0x054, 1, 0, 0, 20, .ro, 0x7ffff, 0, 0xfffff, true⟩,
    ⟨0x058, 1, 0, 0, 20, .ro, 0, 0, 0xfffff, true⟩,
    ⟨0x05C, 1, 0, 0, 16, .ro, 0, 0, 0xffff, false⟩,
    ⟨0x060, 1, 0, 0, 3, .ro, 0, 0, 7, false⟩,
    ⟨0x060, 1, 0, 3, 3, .ro, 0, 0, 7, false⟩,
    ⟨0x064, 1, 0, 0, 32, .ro, 0, 0, 0xffffffff, false⟩ ] ++
  [ ⟨0x068, 1, 0, 0, 24, .ro, 0, 0, 0xffffff, false⟩,
    ⟨0x06C, 1, 0, 0, 10, .rws, 0, 0, 0x3e8, false⟩,
    ⟨0x070, 1, 0, 0, 8, .rc, 0, 0, 0xff, false⟩,
    ⟨0x070, 1, 0, 8, 8, .rc, 0, 0, 0xff, false⟩,
    ⟨0x070, 1, 0, 16, 8, .rc, 0, 0, 0xff, false⟩,
    ⟨0x070, 1, 0, 24, 3, .rc, 0, 0, 7, false⟩ ]

/-- The field rows of block GD (chapter 10). -/
def rowsGD : List Row :=
  [ ⟨0x000, 1, 0, 0, 1, .rw, 0, 0, 1, false⟩,
    ⟨0x000, 1, 0, 1, 1, .rws, 0, 0, 1, false⟩,
    ⟨0x000, 1, 0, 2, 1, .rws, 0, 0, 1, false⟩,
    ⟨0x000, 1, 0, 3, 1, .rws, 0, 0, 1, false⟩,
    ⟨0x000, 1, 0, 4, 3, .rw, 0, 0, 7, false⟩,
    ⟨0x004, 1, 0, 0, 3, .ro, 0, 0, 7, false⟩,
    ⟨0x004, 1, 0, 3, 1, .ro, 0, 0, 1, false⟩,
    ⟨0x004, 1, 0, 4, 1, .ro, 0, 0, 1, false⟩,
    ⟨0x004, 1, 0, 5, 1, .ro, 0, 0, 1, false⟩,
    ⟨0x004, 1, 0, 6, 1, .w1c, 0, 0, 1, false⟩,
    ⟨0x004, 1, 0, 7, 1, .w1c, 0, 0, 1, false⟩,
    ⟨0x004, 1, 0, 8, 1, .w1c, 0, 0, 1, false⟩,
    ⟨0x004, 1, 0, 9, 1, .ro, 0, 0, 1, false⟩,
    ⟨0x004, 1, 0, 10, 1, .w1c, 0, 0, 1, false⟩,
    ⟨0x008, 3, 4, 0, 1, .w1c, 0, 0, 1, false⟩,
    ⟨0x008, 3, 4, 1, 1, .w1c, 0, 0, 1, false⟩,
    ⟨0x008, 3, 4, 2, 1, .w1c, 0, 0, 1, false⟩,
    ⟨0x008, 3, 4, 3, 1, .w1c, 0, 0, 1, false⟩,
    ⟨0x008, 3, 4, 4, 1, .w1c, 0, 0, 1, false⟩,
    ⟨0x008, 3, 4, 5, 1, .w1c, 0, 0, 1, false⟩,
    ⟨0x008, 3, 4, 6, 1, .w1c, 0, 0, 1, false⟩,
    ⟨0x008, 3, 4, 7, 1, .ro, 0, 0, 1, false⟩,
    ⟨0x020, 1, 0, 0, 4, .rwo, 7, 0, 0xf, false⟩,
    ⟨0x020, 1, 0, 4, 6, .rwo, 0xa, 1, 0x3f, false⟩ ] ++
  [ ⟨0x020, 1, 0, 10, 6, .rwo, 0x19, 0, 0x3f, false⟩,
    ⟨0x020, 1, 0, 16, 6, .rwo, 0x19, 1, 0x3e, false⟩,
    ⟨0x024, 1, 0, 0, 4, .rwo, 7, 0, 0xf, false⟩,
    ⟨0x024, 1, 0, 4, 6, .rwo, 0x1e, 1, 0x3f, false⟩,
    ⟨0x024, 1, 0, 10, 6, .rwo, 0xa, 0, 0x3f, false⟩,
    ⟨0x024, 1, 0, 16, 6, .rwo, 0x19, 1, 0x3e, false⟩,
    ⟨0x028, 1, 0, 0, 4, .rws, 7, 0, 0xf, false⟩,
    ⟨0x028, 1, 0, 4, 7, .rwo, 0x14, 1, 0x50, false⟩,
    ⟨0x028, 1, 0, 11, 6, .rwo, 0x14, 1, 0x3f, false⟩,
    ⟨0x028, 1, 0, 17, 6, .rwo, 0x28, 20, 0x3f, false⟩,
    ⟨0x02C, 1, 0, 0, 9, .rws, 0x32, 8, 0x1ff, false⟩,
    ⟨0x030, 1, 0, 0, 8, .rws, 0x5a, 0, 0xf0, false⟩,
    ⟨0x030, 1, 0, 8, 6, .rws, 9, 0, 0x3f, false⟩,
    ⟨0x030, 1, 0, 14, 4, .rws, 3, 0, 0xf, false⟩,
    ⟨0x034, 1, 0, 0, 24, .rw, 0xffffff, 0, 0xffffff, false⟩,
    ⟨0x040, 6, 4, 0, 8, .rw, 0, 0, 0xff, false⟩,
    ⟨0x060, 6, 4, 0, 16, .ro, 0, 0, 0xffff, false⟩,
    ⟨0x060, 6, 4, 16, 5, .ro, 0, 0, 0x1f, false⟩,
    ⟨0x060, 6, 4, 21, 1, .ro, 0, 0, 1, false⟩,
    ⟨0x080, 1, 0, 0, 6, .ro, 0, 0, 0x3f, false⟩,
    ⟨0x080, 1, 0, 6, 6, .ro, 0, 0, 0x3f, false⟩,
    ⟨0x084, 1, 0, 0, 8, .rc, 0, 0, 0xff, false⟩,
    ⟨0x084, 1, 0, 8, 8, .rc, 0, 0, 0xff, false⟩,
    ⟨0x084, 1, 0, 16, 8, .rc, 0, 0, 0xff, false⟩ ] ++
  [ ⟨0x084, 1, 0, 24, 3, .rc, 0, 0, 7, false⟩,
    ⟨0x088, 1, 0, 0, 8, .rc, 0, 0, 0xff, false⟩,
    ⟨0x088, 1, 0, 8, 8, .rc, 0, 0, 0xff, false⟩,
    ⟨0x088, 1, 0, 16, 2, .rc, 0, 0, 3, false⟩ ]

/-- The field rows of block VBUS (chapter 10). -/
def rowsVBUS : List Row :=
  [ ⟨0x000, 1, 0, 0, 1, .rws, 0, 0, 1, false⟩,
    ⟨0x000, 1, 0, 1, 2, .rws, 1, 0, 2, false⟩,
    ⟨0x004, 1, 0, 0, 1, .ro, 0, 0, 1, false⟩,
    ⟨0x004, 1, 0, 1, 1, .ro, 0, 0, 1, false⟩,
    ⟨0x004, 1, 0, 2, 1, .w1c, 0, 0, 1, false⟩,
    ⟨0x004, 1, 0, 3, 1, .w1c, 0, 0, 1, false⟩,
    ⟨0x004, 1, 0, 4, 1, .w1c, 0, 0, 1, false⟩,
    ⟨0x004, 1, 0, 5, 1, .w1c, 0, 0, 1, false⟩,
    ⟨0x004, 1, 0, 6, 1, .ro, 0, 0, 1, false⟩,
    ⟨0x004, 1, 0, 7, 1, .w1c, 0, 0, 1, false⟩,
    ⟨0x004, 1, 0, 8, 1, .w1c, 0, 0, 1, false⟩,
    ⟨0x008, 1, 0, 0, 8, .rws, 0xb0, 0, 0xd0, false⟩,
    ⟨0x008, 1, 0, 8, 8, .rws, 0xc0, 0, 0xd0, false⟩,
    ⟨0x008, 1, 0, 16, 4, .rws, 3, 0, 0xf, false⟩,
    ⟨0x00C, 1, 0, 0, 16, .ro, 0, 0, 0xffff, false⟩,
    ⟨0x010, 1, 0, 0, 8, .rws, 0xa, 1, 0xff, false⟩,
    ⟨0x014, 1, 0, 0, 16, .ro, 0, 0, 0xffff, false⟩,
    ⟨0x018, 1, 0, 0, 8, .rc, 0, 0, 0xff, false⟩,
    ⟨0x018, 1, 0, 8, 8, .rc, 0, 0, 0xff, false⟩,
    ⟨0x018, 1, 0, 16, 8, .rc, 0, 0, 0xff, false⟩,
    ⟨0x018, 1, 0, 24, 3, .rc, 0, 0, 7, false⟩ ]

/-- The field rows of block EBP (chapter 11). -/
def rowsEBP : List Row :=
  [ ⟨0x000, 1, 0, 0, 1, .rw, 0, 0, 1, false⟩,
    ⟨0x000, 1, 0, 1, 4, .rw, 2, 1, 0xf, false⟩,
    ⟨0x000, 1, 0, 5, 1, .w1s, 0, 0, 1, false⟩,
    ⟨0x004, 1, 0, 0, 1, .ro, 0, 0, 1, false⟩,
    ⟨0x004, 1, 0, 1, 1, .ro, 0, 0, 1, false⟩,
    ⟨0x004, 1, 0, 2, 1, .ro, 0, 0, 1, false⟩,
    ⟨0x004, 1, 0, 3, 1, .ro, 0, 0, 1, false⟩,
    ⟨0x004, 1, 0, 4, 2, .ro, 0, 0, 3, false⟩,
    ⟨0x004, 1, 0, 6, 1, .ro, 0, 0, 1, false⟩,
    ⟨0x004, 1, 0, 7, 1, .w1c, 0, 0, 1, false⟩,
    ⟨0x004, 1, 0, 8, 1, .w1c, 0, 0, 1, false⟩,
    ⟨0x004, 1, 0, 9, 1, .w1c, 0, 0, 1, false⟩,
    ⟨0x004, 1, 0, 10, 1, .w1c, 0, 0, 1, false⟩,
    ⟨0x008, 1, 0, 0, 12, .ro, 0, 0, 0xfff, false⟩,
    ⟨0x00C, 1, 0, 0, 8, .ro, 0, 0, 0xff, false⟩,
    ⟨0x00C, 1, 0, 8, 16, .ro, 0, 0, 0xffff, false⟩,
    ⟨0x010, 1, 0, 0, 22, .rw, 0, 0, 0x3fffff, false⟩,
    ⟨0x014, 1, 0, 0, 11, .rw, 0, 0, 0x7ff, false⟩,
    ⟨0x018, 1, 0, 0, 8, .rc, 0, 0, 0xff, false⟩,
    ⟨0x018, 1, 0, 8, 8, .rc, 0, 0, 0xff, false⟩,
    ⟨0x018, 1, 0, 16, 8, .rc, 0, 0, 0xff, false⟩,
    ⟨0x018, 1, 0, 24, 3, .rc, 0, 0, 7, false⟩,
    ⟨0x01C, 1, 0, 0, 16, .ro, 0, 0, 0xffff, false⟩,
    ⟨0x01C, 1, 0, 16, 16, .ro, 0, 0, 0xffff, false⟩ ]

/-- The field rows of block CONT (chapter 11). -/
def rowsCONT : List Row :=
  [ ⟨0x000, 1, 0, 0, 1, .rw, 0, 0, 1, false⟩,
    ⟨0x000, 1, 0, 1, 1, .w1s, 0, 0, 1, false⟩,
    ⟨0x004, 1, 0, 0, 2, .ro, 0, 0, 3, false⟩,
    ⟨0x004, 1, 0, 2, 1, .ro, 0, 0, 1, false⟩,
    ⟨0x004, 1, 0, 3, 1, .ro, 0, 0, 1, false⟩,
    ⟨0x004, 1, 0, 4, 2, .ro, 3, 0, 3, false⟩,
    ⟨0x004, 1, 0, 6, 1, .ro, 0, 0, 1, false⟩,
    ⟨0x004, 1, 0, 7, 1, .ro, 0, 0, 1, false⟩,
    ⟨0x004, 1, 0, 8, 1, .w1c, 0, 0, 1, false⟩,
    ⟨0x004, 1, 0, 9, 1, .w1c, 0, 0, 1, false⟩,
    ⟨0x004, 1, 0, 10, 1, .w1c, 0, 0, 1, false⟩,
    ⟨0x004, 1, 0, 11, 1, .w1c, 0, 0, 1, false⟩,
    ⟨0x004, 1, 0, 12, 1, .w1c, 0, 0, 1, false⟩,
    ⟨0x004, 1, 0, 13, 1, .w1c, 0, 0, 1, false⟩,
    ⟨0x004, 1, 0, 14, 1, .w1c, 0, 0, 1, false⟩,
    ⟨0x008, 1, 0, 0, 10, .ro, 0, 0, 0x3ff, false⟩,
    ⟨0x008, 1, 0, 10, 10, .ro, 0, 0, 0x3ff, false⟩,
    ⟨0x008, 1, 0, 20, 10, .ro, 0, 0, 0x3ff, false⟩,
    ⟨0x00C, 1, 0, 0, 10, .rws, 0, 0, 0x3e8, false⟩,
    ⟨0x010, 1, 0, 0, 20, .ro, 0, 0, 0xfffff, true⟩,
    ⟨0x014, 1, 0, 0, 20, .ro, 0, 0, 0xfffff, true⟩,
    ⟨0x018, 1, 0, 0, 22, .rw, 0, 0, 0x3fffff, false⟩,
    ⟨0x01C, 1, 0, 0, 8, .rw, 0x64, 1, 0xfa, false⟩,
    ⟨0x01C, 1, 0, 8, 6, .rw, 0, 0, 0x30, false⟩ ] ++
  [ ⟨0x01C, 1, 0, 14, 11, .rw, 0, 0, 0x7ff, false⟩,
    ⟨0x01C, 1, 0, 25, 3, .rw, 0, 0, 6, false⟩,
    ⟨0x020, 1, 0, 0, 3, .rws, 5, 1, 5, false⟩,
    ⟨0x020, 1, 0, 3, 4, .rw, 3, 1, 0xf, false⟩,
    ⟨0x020, 1, 0, 7, 5, .rw, 8, 1, 0x1f, false⟩,
    ⟨0x024, 1, 0, 0, 4, .rw, 1, 1, 0xa, false⟩,
    ⟨0x024, 1, 0, 4, 4, .rw, 3, 2, 0xf, false⟩,
    ⟨0x024, 1, 0, 8, 11, .rws, 0x10, 0, 0x7ff, false⟩,
    ⟨0x028, 1, 0, 0, 11, .rw, 0, 0, 0x7ff, false⟩,
    ⟨0x028, 1, 0, 11, 15, .rw, 0x1130, 0, 0x7fff, false⟩,
    ⟨0x02C, 1, 0, 0, 1, .w1s, 0, 0, 1, false⟩,
    ⟨0x02C, 1, 0, 1, 1, .rw, 0, 0, 1, false⟩,
    ⟨0x02C, 1, 0, 2, 1, .ro, 0, 0, 1, false⟩,
    ⟨0x02C, 1, 0, 3, 1, .w1c, 0, 0, 1, false⟩,
    ⟨0x02C, 1, 0, 4, 16, .ro, 0, 0, 0xffff, false⟩,
    ⟨0x030, 1, 0, 0, 2, .rw, 0, 0, 3, false⟩,
    ⟨0x030, 1, 0, 2, 10, .rw, 0xa, 1, 0x3e8, false⟩,
    ⟨0x030, 1, 0, 12, 1, .w1s, 0, 0, 1, false⟩,
    ⟨0x030, 1, 0, 13, 1, .w1s, 0, 0, 1, false⟩,
    ⟨0x030, 1, 0, 14, 1, .ro, 0, 0, 1, false⟩,
    ⟨0x030, 1, 0, 15, 1, .w1c, 0, 0, 1, false⟩,
    ⟨0x030, 1, 0, 16, 1, .w1c, 0, 0, 1, false⟩,
    ⟨0x034, 2, 4, 0, 32, .rw, 0, 0, 0xffffffff, false⟩,
    ⟨0x03C, 1, 0, 0, 32, .rw, 0, 0, 0xffffffff, false⟩ ] ++
  [ ⟨0x040, 1, 0, 0, 16, .ro, 0, 0, 0xffff, false⟩,
    ⟨0x044, 1, 0, 0, 2, .ro, 0, 0, 3, false⟩,
    ⟨0x044, 1, 0, 8, 2, .ro, 0, 0, 3, false⟩,
    ⟨0x044, 1, 0, 16, 2, .ro, 0, 0, 3, false⟩,
    ⟨0x044, 1, 0, 2, 1, .ro, 0, 0, 1, false⟩,
    ⟨0x044, 1, 0, 10, 1, .ro, 0, 0, 1, false⟩,
    ⟨0x044, 1, 0, 18, 1, .ro, 0, 0, 1, false⟩,
    ⟨0x044, 1, 0, 3, 1, .ro, 0, 0, 1, false⟩,
    ⟨0x044, 1, 0, 11, 1, .ro, 0, 0, 1, false⟩,
    ⟨0x044, 1, 0, 19, 1, .ro, 0, 0, 1, false⟩,
    ⟨0x044, 1, 0, 4, 1, .ro, 0, 0, 1, false⟩,
    ⟨0x044, 1, 0, 12, 1, .ro, 0, 0, 1, false⟩,
    ⟨0x044, 1, 0, 20, 1, .ro, 0, 0, 1, false⟩,
    ⟨0x044, 1, 0, 5, 1, .ro, 0, 0, 1, false⟩,
    ⟨0x044, 1, 0, 13, 1, .ro, 0, 0, 1, false⟩,
    ⟨0x044, 1, 0, 21, 1, .ro, 0, 0, 1, false⟩,
    ⟨0x044, 1, 0, 6, 1, .ro, 0, 0, 1, false⟩,
    ⟨0x044, 1, 0, 14, 1, .ro, 0, 0, 1, false⟩,
    ⟨0x044, 1, 0, 22, 1, .ro, 0, 0, 1, false⟩,
    ⟨0x048, 1, 0, 0, 3, .ro, 0, 0, 7, false⟩,
    ⟨0x048, 1, 0, 3, 2, .ro, 0, 0, 3, false⟩,
    ⟨0x048, 1, 0, 5, 2, .ro, 0, 0, 3, false⟩,
    ⟨0x048, 1, 0, 7, 16, .ro, 0, 0, 0xffff, false⟩,
    ⟨0x04C, 1, 0, 0, 8, .rc, 0, 0, 0xff, false⟩ ] ++
  [ ⟨0x04C, 1, 0, 8, 8, .rc, 0, 0, 0xff, false⟩,
    ⟨0x04C, 1, 0, 16, 8, .rc, 0, 0, 0xff, false⟩,
    ⟨0x04C, 1, 0, 24, 3, .rc, 0, 0, 7, false⟩,
    ⟨0x100, 56, 4, 0, 32, .ro, 0, 0, 0xffffffff, false⟩ ]

/-- The field rows of block SAFE (chapter 12). -/
def rowsSAFE : List Row :=
  [ ⟨0x000, 1, 0, 0, 1, .ro, 0, 0, 1, false⟩,
    ⟨0x000, 1, 0, 1, 1, .ro, 0, 0, 1, false⟩,
    ⟨0x000, 1, 0, 2, 1, .ro, 1, 0, 1, false⟩,
    ⟨0x000, 1, 0, 3, 1, .ro, 0, 0, 1, false⟩,
    ⟨0x000, 1, 0, 4, 1, .ro, 0, 0, 1, false⟩,
    ⟨0x000, 1, 0, 5, 1, .w1c, 0, 0, 1, false⟩,
    ⟨0x000, 1, 0, 6, 1, .w1c, 0, 0, 1, false⟩,
    ⟨0x000, 1, 0, 7, 1, .w1c, 0, 0, 1, false⟩,
    ⟨0x000, 1, 0, 8, 1, .ro, 0, 0, 1, false⟩,
    ⟨0x000, 1, 0, 9, 1, .ro, 0, 0, 1, false⟩,
    ⟨0x004, 1, 0, 0, 10, .w1c, 0, 0, 0x3ff, false⟩,
    ⟨0x008, 1, 0, 0, 1, .wo, 0, 0, 1, false⟩,
    ⟨0x008, 1, 0, 1, 4, .wo, 0, 0, 0xf, false⟩,
    ⟨0x008, 1, 0, 8, 1, .wo, 0, 0, 1, false⟩,
    ⟨0x008, 1, 0, 12, 1, .wo, 0, 0, 1, false⟩,
    ⟨0x00C, 1, 0, 0, 1, .rw, 0, 0, 1, false⟩,
    ⟨0x00C, 1, 0, 1, 1, .rw, 0, 0, 1, false⟩,
    ⟨0x010, 1, 0, 0, 4, .ro, 0xf, 0, 0xf, false⟩,
    ⟨0x010, 1, 0, 4, 2, .ro, 0, 0, 3, false⟩,
    ⟨0x010, 1, 0, 8, 4, .ro, 0, 0, 0xf, false⟩,
    ⟨0x010, 1, 0, 12, 4, .w1c, 0, 0, 0xf, false⟩,
    ⟨0x014, 1, 0, 0, 8, .rws, 0x14, 1, 0xff, false⟩,
    ⟨0x018, 1, 0, 0, 12, .rws, 0xa4, 1, 0xfff, false⟩,
    ⟨0x018, 1, 0, 12, 1, .rws, 1, 0, 1, false⟩ ] ++
  [ ⟨0x01C, 1, 0, 0, 16, .ro, 0, 0, 0xffff, false⟩,
    ⟨0x020, 1, 0, 0, 8, .rc, 0, 0, 0xff, false⟩,
    ⟨0x020, 1, 0, 8, 8, .rc, 0, 0, 0xff, false⟩,
    ⟨0x020, 1, 0, 16, 8, .rc, 0, 0, 0xff, false⟩,
    ⟨0x020, 1, 0, 24, 3, .rc, 0, 0, 7, false⟩ ]

/-- The field rows of block CAN (chapter 13). -/
def rowsCAN : List Row :=
  [ ⟨0x000, 1, 0, 0, 1, .rw, 0, 0, 1, false⟩,
    ⟨0x000, 1, 0, 1, 2, .rw, 0, 0, 3, false⟩,
    ⟨0x000, 1, 0, 3, 1, .w1s, 0, 0, 1, false⟩,
    ⟨0x000, 1, 0, 4, 1, .w1s, 0, 0, 1, false⟩,
    ⟨0x000, 1, 0, 5, 1, .rw, 0, 0, 1, false⟩,
    ⟨0x000, 1, 0, 6, 1, .rw, 0, 0, 1, false⟩,
    ⟨0x000, 1, 0, 7, 1, .rw, 0, 0, 1, false⟩,
    ⟨0x000, 1, 0, 8, 8, .rw, 0x10, 1, 0xff, false⟩,
    ⟨0x000, 1, 0, 16, 8, .rw, 0x32, 1, 0xff, false⟩,
    ⟨0x000, 1, 0, 24, 4, .rw, 3, 1, 0xf, false⟩,
    ⟨0x004, 1, 0, 0, 5, .rw, 4, 0, 0x1f, false⟩,
    ⟨0x004, 1, 0, 5, 8, .rw, 0x3e, 1, 0xff, false⟩,
    ⟨0x004, 1, 0, 13, 7, .rw, 0xf, 0, 0x7f, false⟩,
    ⟨0x004, 1, 0, 20, 7, .rw, 0xf, 0, 0x7f, false⟩,
    ⟨0x008, 1, 0, 0, 5, .rw, 3, 0, 0x1f, false⟩,
    ⟨0x008, 1, 0, 5, 5, .rw, 0x12, 0, 0x1f, false⟩,
    ⟨0x008, 1, 0, 10, 4, .rw, 4, 0, 0xf, false⟩,
    ⟨0x008, 1, 0, 14, 4, .rw, 4, 0, 0xf, false⟩,
    ⟨0x008, 1, 0, 18, 7, .rw, 0xa, 0, 0x7f, false⟩,
    ⟨0x00C, 1, 0, 0, 2, .ro, 0, 0, 3, false⟩,
    ⟨0x00C, 1, 0, 2, 1, .ro, 0, 0, 1, false⟩,
    ⟨0x00C, 1, 0, 3, 1, .ro, 0, 0, 1, false⟩,
    ⟨0x00C, 1, 0, 4, 1, .w1c, 0, 0, 1, false⟩,
    ⟨0x00C, 1, 0, 5, 1, .w1c, 0, 0, 1, false⟩ ] ++
  [ ⟨0x00C, 1, 0, 6, 3, .ro, 0, 0, 7, false⟩,
    ⟨0x00C, 1, 0, 9, 1, .w1c, 0, 0, 1, false⟩,
    ⟨0x00C, 1, 0, 10, 1, .w1c, 0, 0, 1, false⟩,
    ⟨0x00C, 1, 0, 11, 3, .ro, 0, 0, 7, false⟩,
    ⟨0x00C, 1, 0, 14, 1, .w1c, 0, 0, 1, false⟩,
    ⟨0x010, 1, 0, 0, 8, .ro, 0, 0, 0xff, false⟩,
    ⟨0x010, 1, 0, 8, 8, .ro, 0, 0, 0xff, false⟩,
    ⟨0x010, 1, 0, 16, 8, .rc, 0, 0, 0xff, false⟩,
    ⟨0x010, 1, 0, 24, 1, .rc, 0, 0, 1, false⟩,
    ⟨0x014, 1, 0, 0, 6, .rw, 0, 0, 0x3f, false⟩,
    ⟨0x018, 1, 0, 0, 1, .w1c, 0, 0, 1, false⟩,
    ⟨0x018, 1, 0, 1, 1, .w1c, 0, 0, 1, false⟩,
    ⟨0x018, 1, 0, 2, 1, .w1c, 0, 0, 1, false⟩,
    ⟨0x018, 1, 0, 3, 1, .w1c, 0, 0, 1, false⟩,
    ⟨0x018, 1, 0, 4, 1, .w1c, 0, 0, 1, false⟩,
    ⟨0x018, 1, 0, 5, 1, .w1c, 0, 0, 1, false⟩,
    ⟨0x01C, 1, 0, 0, 7, .ro, 0, 0, 0x7f, false⟩,
    ⟨0x020, 1, 0, 0, 11, .rw, 0, 0, 0x7ff, false⟩,
    ⟨0x040, 8, 8, 0, 27, .rw, 0, 0, 0x7ffffff, false⟩,
    ⟨0x040, 8, 8, 31, 1, .rw, 0, 0, 1, false⟩,
    ⟨0x044, 8, 8, 0, 25, .rw, 0, 0, 0x1ffffff, false⟩,
    ⟨0x080, 1, 0, 0, 7, .rw, 0, 0, 0x7f, false⟩,
    ⟨0x084, 3, 4, 0, 32, .ro, 0, 0, 0xffffffff, false⟩,
    ⟨0x090, 1, 0, 0, 32, .ro, 0, 0, 0xffffffff, false⟩ ] ++
  [ ⟨0x400, 96, 4, 0, 1, .w1c, 0, 0, 1, false⟩,
    ⟨0x400, 96, 4, 1, 1, .w1c, 0, 0, 1, false⟩,
    ⟨0x400, 96, 4, 8, 8, .rc, 0, 0, 0xff, false⟩,
    ⟨0x400, 96, 4, 16, 1, .rc, 0, 0, 1, false⟩,
    ⟨0x580, 32, 4, 0, 1, .w1s, 0, 0, 1, false⟩,
    ⟨0x580, 32, 4, 1, 1, .w1s, 0, 0, 1, false⟩,
    ⟨0x580, 32, 4, 2, 1, .w1c, 0, 0, 1, false⟩,
    ⟨0x580, 32, 4, 3, 1, .w1c, 0, 0, 1, false⟩,
    ⟨0x580, 32, 4, 4, 1, .ro, 0, 0, 1, false⟩,
    ⟨0x580, 32, 4, 5, 1, .ro, 0, 0, 1, false⟩,
    ⟨0x800, 1, 0, 0, 29, .rw, 0, 0, 0x1fffffff, false⟩,
    ⟨0x800, 1, 0, 29, 1, .rw, 0, 0, 1, false⟩,
    ⟨0x800, 1, 0, 31, 1, .rw, 0, 0, 1, false⟩,
    ⟨0x804, 1, 0, 0, 4, .rw, 0, 0, 0xf, false⟩,
    ⟨0x804, 1, 0, 4, 1, .rw, 0, 0, 1, false⟩,
    ⟨0x804, 1, 0, 5, 1, .rw, 0, 0, 1, false⟩,
    ⟨0x804, 1, 0, 6, 1, .ro, 0, 0, 1, false⟩,
    ⟨0x810, 16, 4, 0, 32, .rw, 0, 0, 0xffffffff, false⟩ ]

/-- The field rows of block TWIN (chapter 12). -/
def rowsTWIN : List Row :=
  [ ⟨0x000, 1, 0, 0, 1, .rw, 0, 0, 1, false⟩,
    ⟨0x000, 1, 0, 1, 6, .rws, 0xa, 1, 0x32, false⟩,
    ⟨0x000, 1, 0, 7, 1, .rw, 0, 0, 1, false⟩,
    ⟨0x000, 1, 0, 8, 1, .rw, 0, 0, 1, false⟩,
    ⟨0x004, 1, 0, 0, 16, .w1c, 0, 0, 0xffff, false⟩,
    ⟨0x004, 1, 0, 16, 1, .w1c, 0, 0, 1, false⟩,
    ⟨0x004, 1, 0, 17, 1, .w1c, 0, 0, 1, false⟩,
    ⟨0x010, 16, 16, 0, 1, .rws, 0, 0, 1, false⟩,
    ⟨0x010, 16, 16, 1, 7, .rws, 0, 0, 0x5f, false⟩,
    ⟨0x010, 16, 16, 8, 7, .rws, 0, 0, 0x5f, false⟩,
    ⟨0x010, 16, 16, 15, 2, .rws, 0, 0, 2, false⟩,
    ⟨0x010, 16, 16, 17, 1, .rws, 0, 0, 1, false⟩,
    ⟨0x010, 16, 16, 18, 8, .rws, 0, 0, 0xff, false⟩,
    ⟨0x014, 16, 16, 0, 16, .ro, 0, 0, 0xffff, false⟩,
    ⟨0x014, 16, 16, 16, 1, .ro, 0, 0, 1, false⟩,
    ⟨0x014, 16, 16, 17, 1, .ro, 0, 0, 1, false⟩,
    ⟨0x014, 16, 16, 18, 7, .ro, 0, 0, 0x7f, false⟩,
    ⟨0x018, 16, 16, 0, 22, .rw, 0, 0, 0x3fffff, false⟩,
    ⟨0x01C, 16, 16, 0, 8, .rc, 0, 0, 0xff, false⟩,
    ⟨0x01C, 16, 16, 8, 8, .rc, 0, 0, 0xff, false⟩,
    ⟨0x01C, 16, 16, 16, 8, .rc, 0, 0, 0xff, false⟩,
    ⟨0x01C, 16, 16, 24, 3, .rc, 0, 0, 7, false⟩ ]

/-- The field rows of block USL (chapter 14). -/
def rowsUSL : List Row :=
  [ ⟨0x000, 1, 0, 0, 1, .rw, 0, 0, 1, false⟩,
    ⟨0x000, 1, 0, 1, 1, .rw, 0, 0, 1, false⟩,
    ⟨0x000, 1, 0, 2, 7, .rw, 0x14, 10, 0x64, false⟩,
    ⟨0x000, 1, 0, 9, 7, .rw, 0x14, 10, 0x64, false⟩,
    ⟨0x000, 1, 0, 16, 2, .rw, 0, 0, 3, false⟩,
    ⟨0x004, 1, 0, 0, 17, .rw, 0x2710, 1000, 0x186a0, false⟩,
    ⟨0x008, 1, 0, 0, 2, .ro, 0, 0, 3, false⟩,
    ⟨0x008, 1, 0, 2, 1, .ro, 0, 0, 1, false⟩,
    ⟨0x008, 1, 0, 3, 1, .w1c, 0, 0, 1, false⟩,
    ⟨0x008, 1, 0, 4, 1, .ro, 0, 0, 1, false⟩,
    ⟨0x008, 1, 0, 5, 1, .w1c, 0, 0, 1, false⟩,
    ⟨0x008, 1, 0, 6, 2, .w1c, 0, 0, 3, false⟩,
    ⟨0x00C, 1, 0, 0, 32, .ro, 0, 0, 0xffffffff, false⟩,
    ⟨0x010, 1, 0, 0, 8, .ro, 0, 0, 0xff, false⟩,
    ⟨0x010, 1, 0, 8, 8, .ro, 0, 0, 0xff, false⟩,
    ⟨0x010, 1, 0, 16, 8, .ro, 0, 0, 0xff, false⟩,
    ⟨0x014, 1, 0, 0, 22, .rw, 0, 0, 0x3fffff, false⟩,
    ⟨0x018, 1, 0, 0, 22, .rw, 0, 0, 0x3fffff, false⟩,
    ⟨0x020, 2, 4, 0, 8, .rc, 0, 0, 0xff, false⟩,
    ⟨0x020, 2, 4, 8, 8, .rc, 0, 0, 0xff, false⟩,
    ⟨0x020, 2, 4, 16, 8, .rc, 0, 0, 0xff, false⟩,
    ⟨0x020, 2, 4, 24, 8, .rc, 0, 0, 0xff, false⟩,
    ⟨0x028, 1, 0, 0, 8, .rc, 0, 0, 0xff, false⟩,
    ⟨0x028, 1, 0, 8, 8, .rc, 0, 0, 0xff, false⟩ ] ++
  [ ⟨0x02C, 1, 0, 0, 10, .rc, 0, 0, 0x3ff, false⟩,
    ⟨0x800, 128, 16, 0, 1, .rw, 0, 0, 1, false⟩,
    ⟨0x800, 128, 16, 1, 1, .rw, 0, 0, 1, false⟩,
    ⟨0x800, 128, 16, 2, 7, .rw, 0, 0, 0x7f, false⟩,
    ⟨0x800, 128, 16, 9, 4, .rw, 0, 0, 0xf, false⟩,
    ⟨0x800, 128, 16, 13, 5, .rw, 0, 0, 0x10, false⟩,
    ⟨0x800, 128, 16, 18, 6, .rw, 0, 0, 0x20, false⟩,
    ⟨0x804, 128, 16, 0, 17, .rw, 0, 0, 0x1ffff, false⟩,
    ⟨0x808, 128, 16, 0, 8, .rw, 0x10, 0, 0xff, false⟩,
    ⟨0x808, 128, 16, 8, 8, .rw, 0x20, 0, 0xff, false⟩,
    ⟨0x80C, 128, 16, 0, 8, .ro, 0xff, 0, 0xff, false⟩,
    ⟨0x80C, 128, 16, 8, 3, .ro, 0, 0, 7, false⟩ ]

/-- The field rows of block TIME (chapter 15). -/
def rowsTIME : List Row :=
  [ ⟨0x000, 1, 0, 0, 1, .rw, 0, 0, 1, false⟩,
    ⟨0x000, 1, 0, 1, 1, .rw, 0, 0, 1, false⟩,
    ⟨0x000, 1, 0, 2, 1, .rw, 0, 0, 1, false⟩,
    ⟨0x000, 1, 0, 3, 1, .rw, 0, 0, 1, false⟩,
    ⟨0x004, 1, 0, 0, 1, .ro, 0, 0, 1, false⟩,
    ⟨0x004, 1, 0, 1, 1, .w1c, 0, 0, 1, false⟩,
    ⟨0x008, 1, 0, 0, 30, .ro, 0, 0, 0x3fffffff, false⟩,
    ⟨0x00C, 1, 0, 0, 32, .ro, 0, 0, 0xffffffff, false⟩,
    ⟨0x010, 1, 0, 0, 32, .rw, 0, 0, 0xffffffff, false⟩,
    ⟨0x014, 1, 0, 0, 30, .rw, 0, 0, 0x3b9ac9ff, false⟩,
    ⟨0x014, 1, 0, 31, 1, .wo, 0, 0, 1, false⟩,
    ⟨0x018, 1, 0, 0, 32, .rw, 0, 0, 0xffffffff, false⟩,
    ⟨0x01C, 1, 0, 0, 30, .ro, 0, 0, 0x3fffffff, false⟩,
    ⟨0x020, 1, 0, 0, 32, .ro, 0, 0, 0xffffffff, false⟩,
    ⟨0x024, 1, 0, 0, 32, .ro, 0, 0, 0xffffffff, false⟩,
    ⟨0x028, 1, 0, 0, 11, .rw, 0, 0, 0x7ff, false⟩,
    ⟨0x028, 1, 0, 11, 7, .rw, 0, 0, 0x52, false⟩,
    ⟨0x028, 1, 0, 18, 5, .rw, 0, 0, 0x1b, false⟩,
    ⟨0x028, 1, 0, 23, 4, .rw, 9, 0, 9, false⟩,
    ⟨0x02C, 1, 0, 0, 16, .ro, 0, 0, 0xffff, false⟩,
    ⟨0x02C, 1, 0, 16, 8, .rc, 0, 0, 0xff, false⟩,
    ⟨0x02C, 1, 0, 24, 1, .rc, 0, 0, 1, false⟩ ]

/-- The field rows of block HOST (chapter 16). -/
def rowsHOST : List Row :=
  [ ⟨0x000, 1, 0, 0, 1, .rw, 0, 0, 1, false⟩,
    ⟨0x000, 1, 0, 8, 8, .rw, 0x32, 1, 0xff, false⟩,
    ⟨0x000, 1, 0, 16, 8, .rw, 0x32, 1, 0xff, false⟩,
    ⟨0x004, 1, 0, 0, 4, .ro, 0, 0, 0xf, false⟩,
    ⟨0x004, 1, 0, 4, 1, .ro, 0, 0, 1, false⟩,
    ⟨0x004, 1, 0, 5, 1, .ro, 0, 0, 1, false⟩,
    ⟨0x004, 1, 0, 6, 1, .ro, 0, 0, 1, false⟩,
    ⟨0x004, 1, 0, 8, 1, .w1c, 0, 0, 1, false⟩,
    ⟨0x004, 1, 0, 9, 1, .w1c, 0, 0, 1, false⟩,
    ⟨0x004, 1, 0, 10, 1, .w1c, 0, 0, 1, false⟩,
    ⟨0x004, 1, 0, 11, 1, .w1c, 0, 0, 1, false⟩,
    ⟨0x004, 1, 0, 12, 1, .w1c, 0, 0, 1, false⟩,
    ⟨0x004, 1, 0, 13, 1, .w1c, 0, 0, 1, false⟩,
    ⟨0x008, 1, 0, 0, 11, .rw, 0, 0, 0x7ff, false⟩,
    ⟨0x00C, 1, 0, 0, 22, .rw, 0, 0, 0x3fffff, false⟩,
    ⟨0x010, 1, 0, 0, 8, .rc, 0, 0, 0xff, false⟩,
    ⟨0x010, 1, 0, 8, 8, .rc, 0, 0, 0xff, false⟩,
    ⟨0x010, 1, 0, 16, 8, .rc, 0, 0, 0xff, false⟩,
    ⟨0x010, 1, 0, 24, 3, .rc, 0, 0, 7, false⟩,
    ⟨0x014, 1, 0, 0, 8, .ro, 0, 0, 0xff, false⟩,
    ⟨0x014, 1, 0, 8, 8, .ro, 0, 0, 0xff, false⟩,
    ⟨0x014, 1, 0, 16, 8, .ro, 0, 0, 0xff, false⟩ ]

/-- The field rows of block MPORT (chapter 18). -/
def rowsMPORT : List Row :=
  [ ⟨0x000, 1, 0, 0, 1, .rw, 1, 0, 1, false⟩,
    ⟨0x000, 1, 0, 1, 7, .rw, 0x50, 0, 0x7f, false⟩,
    ⟨0x004, 1, 0, 0, 1, .ro, 0, 0, 1, false⟩,
    ⟨0x004, 1, 0, 1, 1, .w1c, 0, 0, 1, false⟩,
    ⟨0x004, 1, 0, 2, 1, .w1c, 0, 0, 1, false⟩,
    ⟨0x004, 1, 0, 3, 1, .w1c, 0, 0, 1, false⟩,
    ⟨0x004, 1, 0, 4, 1, .w1c, 0, 0, 1, false⟩,
    ⟨0x004, 1, 0, 5, 1, .w1c, 0, 0, 1, false⟩,
    ⟨0x008, 1, 0, 0, 8, .ro, 0, 0, 0xff, false⟩,
    ⟨0x008, 1, 0, 8, 8, .ro, 0, 0, 0xff, false⟩,
    ⟨0x100, 32, 4, 0, 32, .ro, 0, 0, 0xffffffff, false⟩,
    ⟨0x180, 32, 4, 0, 32, .rw, 0, 0, 0xffffffff, false⟩ ]

/-- The field rows of block BKG (chapter 19). -/
def rowsBKG : List Row :=
  [ ⟨0x000, 1, 0, 0, 1, .ro, 0, 0, 1, false⟩,
    ⟨0x000, 1, 0, 1, 1, .ro, 0, 0, 1, false⟩,
    ⟨0x000, 1, 0, 2, 1, .w1c, 0, 0, 1, false⟩,
    ⟨0x000, 1, 0, 3, 1, .w1c, 0, 0, 1, false⟩,
    ⟨0x004, 1, 0, 0, 16, .rc, 0, 0, 0xffff, false⟩,
    ⟨0x004, 1, 0, 16, 1, .rc, 0, 0, 1, false⟩,
    ⟨0x008, 1, 0, 0, 32, .ro, 0, 0, 0xffffffff, false⟩,
    ⟨0x00C, 1, 0, 0, 8, .rc, 0, 0, 0xff, false⟩,
    ⟨0x00C, 1, 0, 8, 5, .ro, 0, 0, 0x1f, false⟩,
    ⟨0x010, 1, 0, 0, 16, .ro, 0, 0, 0xffff, false⟩,
    ⟨0x010, 1, 0, 16, 16, .ro, 0, 0, 0xffff, false⟩,
    ⟨0x014, 1, 0, 0, 11, .ro, 0, 0, 0x7ff, false⟩,
    ⟨0x018, 1, 0, 0, 22, .rw, 0, 0, 0x3fffff, false⟩,
    ⟨0x01C, 1, 0, 0, 22, .rw, 0, 0, 0x3fffff, false⟩,
    ⟨0x020, 1, 0, 0, 22, .rw, 0, 0, 0x3fffff, false⟩,
    ⟨0x024, 1, 0, 0, 32, .ro, 0, 0, 0xffffffff, false⟩,
    ⟨0x028, 1, 0, 0, 32, .ro, 0, 0, 0xffffffff, false⟩,
    ⟨0x02C, 1, 0, 0, 20, .ro, 0x10000, 0, 0xfffff, false⟩,
    ⟨0x030, 1, 0, 0, 16, .rc, 0, 0, 0xffff, false⟩,
    ⟨0x030, 1, 0, 16, 1, .rc, 0, 0, 1, false⟩,
    ⟨0x034, 1, 0, 0, 32, .ro, 0, 0, 0xffffffff, false⟩,
    ⟨0x038, 1, 0, 0, 8, .ro, 0, 0, 0xff, false⟩,
    ⟨0x03C, 1, 0, 0, 8, .rw, 0xa, 1, 0xff, false⟩,
    ⟨0x03C, 1, 0, 8, 8, .ro, 0, 0, 0xff, false⟩ ] ++
  [ ⟨0x03C, 1, 0, 16, 8, .rc, 0, 0, 0xff, false⟩,
    ⟨0x040, 1, 0, 0, 10, .ro, 0, 0, 0x3ff, false⟩ ]

/-- The field rows of block KEEP (chapter 17). -/
def rowsKEEP : List Row :=
  [ ⟨0x000, 1, 0, 0, 1, .ro, 0, 0, 1, false⟩,
    ⟨0x000, 1, 0, 1, 1, .ro, 0, 0, 1, false⟩,
    ⟨0x000, 1, 0, 2, 1, .ro, 0, 0, 1, false⟩,
    ⟨0x000, 1, 0, 3, 1, .ro, 0, 0, 1, false⟩,
    ⟨0x000, 1, 0, 4, 1, .ro, 0, 0, 1, false⟩,
    ⟨0x000, 1, 0, 5, 1, .ro, 0, 0, 1, false⟩,
    ⟨0x000, 1, 0, 6, 1, .ro, 0, 0, 1, false⟩,
    ⟨0x000, 1, 0, 7, 1, .ro, 0, 0, 1, false⟩,
    ⟨0x000, 1, 0, 8, 5, .ro, 0, 0, 0x1f, false⟩,
    ⟨0x004, 1, 0, 0, 4, .ro, 0, 0, 0xf, false⟩,
    ⟨0x004, 1, 0, 4, 1, .ro, 0, 0, 1, false⟩,
    ⟨0x004, 1, 0, 5, 1, .ro, 0, 0, 1, false⟩,
    ⟨0x008, 1, 0, 0, 2, .ro, 0, 0, 3, false⟩,
    ⟨0x008, 1, 0, 4, 4, .ro, 0, 0, 0xf, false⟩,
    ⟨0x008, 1, 0, 8, 8, .ro, 0, 0, 0xff, false⟩,
    ⟨0x008, 1, 0, 16, 1, .ro, 0, 0, 1, false⟩,
    ⟨0x00C, 1, 0, 0, 24, .ro, 0, 0, 0xffffff, false⟩,
    ⟨0x010, 1, 0, 0, 1, .ro, 0, 0, 1, false⟩,
    ⟨0x010, 1, 0, 1, 1, .ro, 0, 0, 1, false⟩,
    ⟨0x010, 1, 0, 2, 1, .ro, 0, 0, 1, false⟩,
    ⟨0x010, 1, 0, 3, 1, .ro, 0, 0, 1, false⟩,
    ⟨0x010, 1, 0, 4, 1, .ro, 0, 0, 1, false⟩,
    ⟨0x010, 1, 0, 5, 3, .ro, 0, 0, 7, false⟩,
    ⟨0x014, 1, 0, 0, 10, .ro, 0, 0, 0x3ff, false⟩ ] ++
  [ ⟨0x018, 1, 0, 0, 6, .ro, 0, 0, 0x3f, false⟩,
    ⟨0x018, 1, 0, 8, 6, .ro, 0, 0, 0x3f, false⟩,
    ⟨0x018, 1, 0, 16, 6, .ro, 0, 0, 0x3f, false⟩,
    ⟨0x018, 1, 0, 24, 6, .ro, 0, 0, 0x3f, false⟩,
    ⟨0x01C, 1, 0, 0, 6, .ro, 0, 0, 0x3f, false⟩,
    ⟨0x01C, 1, 0, 8, 6, .ro, 0, 0, 0x3f, false⟩,
    ⟨0x01C, 1, 0, 16, 6, .ro, 0, 0, 0x3f, false⟩,
    ⟨0x020, 1, 0, 0, 32, .ro, 0, 0, 0xffffffff, false⟩,
    ⟨0x024, 1, 0, 0, 32, .ro, 0, 0, 0xffffffff, false⟩,
    ⟨0x028, 1, 0, 0, 32, .ro, 0, 0, 0xffffffff, false⟩,
    ⟨0x02C, 1, 0, 0, 8, .ro, 0, 0, 0xff, false⟩,
    ⟨0x02C, 1, 0, 8, 8, .ro, 0, 0, 0xff, false⟩,
    ⟨0x02C, 1, 0, 16, 1, .ro, 0, 0, 1, false⟩,
    ⟨0x02C, 1, 0, 17, 1, .ro, 0, 0, 1, false⟩,
    ⟨0x030, 4, 4, 0, 32, .ro, 0, 0, 0xffffffff, false⟩,
    ⟨0x100, 96, 4, 0, 32, .ro, 0, 0, 0xffffffff, false⟩ ]

/-- The field rows of block DBG (chapter 21). -/
def rowsDBG : List Row :=
  [ ⟨0x000, 1, 0, 0, 1, .ro, 0, 0, 1, false⟩,
    ⟨0x000, 1, 0, 1, 4, .ro, 0, 0, 0xf, false⟩,
    ⟨0x000, 1, 0, 5, 1, .ro, 0, 0, 1, false⟩,
    ⟨0x004, 1, 0, 0, 4, .rw, 0, 0, 0xf, false⟩ ]

/-- The field rows of ANGA: FOLLOW and SHIFT are reserved there (R116), so they read 0 and a write stores nothing in them (R24). -/
def rowsANGA : List Row :=
  rowsANG.map (fun r => if (r.off == 0 && r.lo == 5) || r.off == 0x020 then { r with acc := .ro } else r)

/-- The rows of peripheral block number `k`, which lies at 0x4000_0000 + 0x1000 * k (R657). POS1 has no FO and no
BORROW register, and CAN2 and CAN3 have no SVC register. -/
def blockRows (k : Nat) : List Row :=
  match k with
  | 0 => rowsSYS
  | 1 => rowsPWR
  | 2 => rowsSEAL
  | 3 => rowsDBL
  | 4 => rowsANGA
  | 5 => rowsANG
  | 6 => rowsPOS
  | 7 => rowsPOS.filter (fun r => r.off != 0x090 && r.off != 0x094)
  | 8 => rowsSENT
  | 9 => rowsEMU
  | 10 => rowsISNS
  | 11 => rowsHLE
  | 12 => rowsMC
  | 13 => rowsMC
  | 14 => rowsGD
  | 15 => rowsGD
  | 16 => rowsVBUS
  | 17 => rowsEBP
  | 18 => rowsEBP
  | 19 => rowsCONT
  | 20 => rowsSAFE
  | 21 => rowsCAN
  | 22 => rowsCAN
  | 23 => rowsCAN.filter (fun r => r.off != 0x020)
  | 24 => rowsCAN.filter (fun r => r.off != 0x020)
  | 25 => rowsTWIN
  | 26 => rowsUSL
  | 27 => rowsTIME
  | 28 => rowsHOST
  | 29 => rowsMPORT
  | 30 => rowsBKG
  | 31 => rowsKEEP
  | 32 => rowsDBG
  | _ => []

end Sys2Proof.Machine
end

