-- ==== Sys2Proof/Machine/State.lean ====
section
/-!
DEFINITION. The state of one lane: every register of the register map, every memory, and the state inside the blocks that
the spec gives them beside their registers, with the queue of waiting commands; and the state right after reset.
-/
namespace Sys2Proof.Machine

/-- The lane has no fault of its own: what the spec calls a fault is an effect on the state (an error flag, an interrupt, a
refused access), so no meaning raises one. Safe: no run ends in a fault. -/
inductive Fault where
  deriving DecidableEq, Repr

/-- The one refusal. `notModelled` is answered only by an arm of `exec` whose command has no meaning yet; safe, since the run
stops there. No meaning answers it. -/
inductive Refusal where
  | notModelled (mnemonic : String)
  deriving DecidableEq, Repr

/-! ## Places of register fields -/

/-- A register field: the register's address, the lowest bit, the width. -/
structure Fld where
  addr : Nat
  lo : Nat
  w : Nat
  deriving DecidableEq, Repr

/-- Whether row `r` of a block's field table covers offset `off`. -/
def Row.hits (r : Row) (off : Nat) : Bool :=
  if r.n = 1 then off == r.off
  else decide (r.off ≤ off) && (off - r.off) % r.stride == 0 && decide ((off - r.off) / r.stride < r.n)

/-- The field rows of the register at an address; none where no register lies there (R654, R657). -/
def rowsAt (addr : Nat) : List Row :=
  if addr / 0x40000000 = 1 then (blockRows (addr / 0x1000 % 0x40000)).filter (fun r => r.hits (addr % 0x1000))
  else []

/-- The value a register holds after a cold start (R25). -/
def resetWord (addr : Nat) : Word :=
  BitVec.ofNat 32 ((rowsAt addr).foldl (fun acc r => acc + r.reset * 2 ^ r.lo) 0)

/-! ## The interconnect and the clocks (chapter 02) -/

/-- What the interconnect returned to the last access: read data and the bus error (R75). -/
structure BusReply where
  data : Word
  err : Bool
  deriving DecidableEq, Repr

/-- Chapter 02 beside its registers: the logic die's view of the configuration link (R661), what the last clock-monitor
window of each monitor found (R80), how many windows of each in a row were in band (R427), whether the monitors are suspended and whether the
supervisor watchdog is (R592), whether the service engine and the gaffer wait for their restart (R426), whether the supervisor has been released and runs, the tick at which the
lane timer was last 0 (R662), and what the interconnect answered the other requests of the last cycle in which several stood (R72). -/
structure Sys where
  linkLost : Bool
  vrcOut : Bool
  aorcOut : Bool
  okWindows : Nat
  vsideOut : Bool
  vsideOk : Nat
  suspended : Bool
  dogHeld : Bool
  sDown : Bool
  gDown : Bool
  vRuns : Bool
  timer0 : Nat
  replies : List (Requester × BusReply)
  deriving DecidableEq, Repr

/-! ## The principal cores (chapter 03) -/

/-- One copy of a principal core's logic (R87): its registers, its debug triggers and program buffer (R108), and the reservation of
LR/SC (R82). -/
structure Copy where
  x : Vector Word 32
  f : Vector Word 32
  fcsr : Word
  pc : Word
  machineMode : Bool
  csr : Tab Word
  triggers : Tab Word
  progBuf : List Word
  reservation : Option Nat
  deriving DecidableEq, Repr

/-- A cache line: the number of its 32-byte line in the address space, and its bytes (R84). -/
structure CacheLine where
  line : Nat
  data : List Byte
  deriving DecidableEq, Repr

/-- A pair: the main core, its double, the shared caches by slot (set * 4 + way), the agreed values of the 32 asynchronous
inputs (R101), the signature last driven by the checkpoint CSR (R93), and whether the pair's clock is gated in WFI (R590). -/
structure Core where
  main : Copy
  double : Copy
  icache : Tab (Option CacheLine)
  dcache : Tab (Option CacheLine)
  agreed : BitVec 32
  signature : BitVec 24
  gated : Bool
  deriving DecidableEq, Repr

/-! ## The angle timeline (chapter 04) -/

/-- A position sample on its way to the angle clock (R112): angle, sample tick, speed in RATE units, and the marks of
R117 and R118 (speed reads zero, speed valid, LOWCONF). -/
structure Sample where
  src : Nat
  theta : Nat
  ts : Nat
  rate : Int
  zero : Bool
  lowConf : Bool
  deriving DecidableEq, Repr

/-- A cue that has fired and waits for dispatch (R126, R136): its number, the angle after the tick in which it fired, the
direction of its sector action (0 for a fall-back or carrier cue that fires while RATE is 0), and the CUEnCFG word it fired under (R127). -/
structure CueHit where
  cue : Cue
  angle : Nat
  dir : Int
  cfg : Word
  deriving DecidableEq, Repr

/-- A PWM carrier: the present step, the length of the period (R664), and how many steps the slate still removes (positive)
or repeats (negative) in this period (R382), and whether the present step is the second tick of a repeated one. -/
structure Carrier where
  step : Nat
  per : Nat
  adjust : Int
  held : Bool
  deriving DecidableEq, Repr

/-- The definition that a cue had before the write of its CFG register in a tick, and whether it was armed under it (R127). -/
structure CuePrior where
  at_ : Nat
  pos : Word
  cfg : Word
  armed : Bool
  deriving DecidableEq, Repr

/-- One ANG block beside its registers. -/
structure Ang where
  angle : Nat            -- 20 integer and 16 fraction bits (R111)
  slow : Nat             -- ticks for which |RATE| has stayed below STILL_SPD (R117)
  deliv : Option Sample  -- the sample delivered and not yet taken (R112)
  armed : BitVec 64      -- armed cues (R123)
  queue : List CueHit    -- fired cues waiting for dispatch (R136)
  pos : Tab Word         -- CUEnPOS words in force (R127)
  prior : Tab (Option CuePrior)  -- cues redefined, with what stood before (R127)
  ref : Carrier          -- reference carrier (R128)
  pwm : Carrier          -- PWM carrier while it is not the reference carrier (R130, R133)
  own : Bool             -- the PWM carrier is not the reference carrier
  due : Bool             -- angle-synchronous mode begins at the end of this period (R131)
  anchor : Nat           -- index k of the present anchor (R130)
  trimRem : Int          -- what the rate trim has not yet removed or repeated, in 10^-8 steps (R382)
  refCount : Nat         -- reference inner ticks since the last outer tick (R135)
  refTick : Nat          -- lane-timer tick of the last reference inner tick
  valleyTick : Nat       -- lane-timer tick of the last reference valley
  inners : List Nat      -- ticks of the last four inner ticks, latest first (R124)
  outers : List Nat      -- ticks of the last four outer ticks, latest first (R124)
  lines : BitVec 4       -- cue event lines (R126)
  pulse : BitVec 4       -- lines on which a 50 ns pulse runs
  restore : BitVec 4     -- levels those pulses restore
  deriving DecidableEq, Repr

/-! ## Position feedback (chapter 05) -/

/-- An edge interface (ABZ or Hall) beside its registers: the internal count Ci (R149), the lines last accepted, the
direction of the last accepted edge (R152) and whether it counts for the index (R153), the ticks of the edges accepted since standstill or reversal, latest first, the
tick of the last accepted edge and of the last index edge, the span and count of the last speed (R163), the speed and its
marks, the ticks at which resamples are due (R150), and whether the interface waits for its first good sample (R168). -/
structure EdgeState where
  ci : Int
  code : BitVec 3
  dir : Option Bool
  known : Bool
  ticks : List Nat
  last : Option Nat
  lastZ : Option Nat
  interval : Option (Nat × Nat)
  speed : Int
  lowConf : Bool
  reversed : Bool
  resample : List Nat
  awaiting : Bool
  theta : Nat
  deriving DecidableEq, Repr

/-- The sine/cosine interface beside its registers: consecutive invalid samples, samples since the last delivery, the last
W + 1 positions with their ticks for the speed (R165), the speed, the sign of the last non-zero speed, marks. -/
structure ScState where
  primed : Bool
  bad : Nat
  skipped : Nat
  hist : List (Nat × Nat)
  speed : Int
  lastSign : Int
  lowConf : Bool
  awaiting : Bool
  deriving DecidableEq, Repr

/-- One POS block. `turns` is TURNS of R139; `pulse` holds the tick at which a compare output's pulse ends, `restore` the level it
then takes; `ts` is the tick of the sample MECH stands for and `from_` the interface it came from (R170). -/
structure Pos where
  turns : Nat
  abz : EdgeState
  hall : EdgeState
  sc : ScState
  pulse : Vector (Option Nat) 2
  restore : BitVec 2
  cmpOld : Vector (Option (Nat × Nat)) 2
  ts : Nat
  from_ : Nat
  deriving DecidableEq, Repr

/-- One SENT receiver: consecutive invalid frames, the tick length of the last valid frame in nanoseconds, the last two
positions with their ticks, the sign of the last non-zero speed, whether it waits for its first good frame, and bits 3 and 2 of the
last 18 status nibbles, latest first (R158). -/
structure Sent where
  bad : Nat
  tickNs : Option Nat
  last : Option (Nat × Nat)
  lastSign : Int
  awaiting : Bool
  serial : List (BitVec 2)
  deriving DecidableEq, Repr

/-- The encoder emulation's output lines (R177) and the tick of the last output edge, none before the first (R176). -/
structure Emu where
  a : Bool
  b : Bool
  z : Bool
  edge : Option Nat
  deriving DecidableEq, Repr

/-- The borrowed source (R171, R172): the last borrowed mechanical angle, inner periods without a valid frame, and
the tick of each lane's last frame with VALID. -/
structure Borrow where
  mech : Nat
  misses : Nat
  last : Vector (Option Nat) 3
  deriving DecidableEq, Repr

/-! ## Current sensing (chapter 06) -/

/-- One bridge of ISNS: the profile of the open window with the tick of its opening, the queued request, inner ticks without a
completed window (R193). -/
structure IsnsBridge where
  win : Option (Fin 4 × Nat)
  queued : Option (Fin 4)
  idle : Nat
  deriving DecidableEq, Repr

/-- One channel of ISNS: the sum and number of the results in the mean window now running and in the one that has ended and
is not published yet (R197); the same of V's own decimator, in 2^-21, and for the window last published (R200); whether the channel
waits for its first good window (R194); whether its bitstream is stuck and whether it was found so in the open window (R192); whether
a run of 32 equal bits has been counted and no clipped result with it yet (R190); and the supervisor's count of failed comparisons. -/
structure IsnsChan where
  sum : Int
  num : Nat
  oldSum : Int
  oldNum : Nat
  vSum : Int
  vNum : Nat
  vOldSum : Int
  vOldNum : Nat
  vPubSum : Int
  vPubNum : Nat
  awaiting : Bool
  stuck : Bool
  stuckNow : Bool
  runCounted : Bool
  vfails : Nat
  deriving DecidableEq, Repr

/-! ## Heldiog engines (chapter 07) -/

/-- Who sent a trigger (R220). -/
inductive Originator where
  | window (b : Bridge) (p : Fin 4)
  | inner (b : Bridge)
  | exchange (e : Port)
  | cue (b : Bridge) (n : Cue)
  | engine (e : Eng)
  | outer (b : Bridge)
  | software
  deriving DecidableEq, Repr

/-- A pending trigger: originator, entry point, and the tick of its arrival (R221, R223). -/
structure Trigger where
  orig : Originator
  ep : Byte
  at_ : Nat
  deriving DecidableEq, Repr

/-- A level of the loop stack: first and last word of the body and the iterations left (R215). -/
structure LoopLevel where
  first : BitVec 12
  last : BitVec 12
  left : Nat
  deriving DecidableEq, Repr

/-- A posted port write on its way (R216): the address, the value, and the program word that issued it. -/
structure PostedWrite where
  addr : Nat
  val : Word
  pc : BitVec 12
  deriving DecidableEq, Repr

/-- One logical Heldiog engine beside its registers and memories (R210): its programming model, the address of the next and
of the last instruction, whether a fault holds it until RESTART (R236), its cycles, triggers and posted writes. -/
structure Engine where
  x : Vector Q20 16
  ix : Vector (BitVec 12) 8
  circ : Vector Nat 4
  acc : Vector Acc48 2
  z : Bool
  n : Bool
  s : Bool
  loops : List LoopLevel
  pc : BitVec 12
  lastPc : BitVec 12
  halted : Bool
  cycles : Nat
  pending : List Trigger
  act : Option Originator      -- originator of the activation under way (R388)
  writes : List PostedWrite
  deriving DecidableEq, Repr

/-! ## Motor control (chapter 09) -/

/-- Three duty words. -/
structure Duties where
  d1 : Q20
  d2 : Q20
  d3 : Q20
  deriving DecidableEq, Repr

/-- One MC block beside its registers: the committed and the loaded duty sets, with the set and the six-step word that stood
before one written in the cycle given (R282, R283), the six-step word loaded, the inner ticks of the current clamp still to
come and whether a clamped tick was the last (R285), the ticks of the last turn-on command of a high side and of the last edge of a gate
command (R300), the active-short request (R306, R322, R429), the return asked by
MODE_REQ 0b01 (R304), the zero-crossing detector (R300 to R303), the estimators of COAST and LISTEN (R308, R309, R311), and
the ticks of the last losses of synchronism (R312). -/
structure Mc where
  committed : Duties
  loaded : Duties
  prior : Duties
  commitTick : Option Nat
  ssLoaded : Q20
  ssPrior : Q20
  ssTick : Option Nat
  clampLeft : Nat
  clamping : Bool
  highTick : Nat
  edgeTick : Nat
  asReq : Bool
  returnReq : Bool
  zcAccepted : Option (Bool × Nat)
  zcLast : Option Nat
  zcIntervals : List Nat
  zcMisses : Nat
  slowSector : Bool
  commutTick : Nat
  lastCode : Option Nat
  codeTick : Nat
  codeChanges : Nat
  codeDir : Int
  coastTick : Nat
  estDir : Int
  estAgree : Nat
  estTheta : Nat
  currentHist : List (Nat × Nat)
  losTicks : List Nat
  deriving DecidableEq, Repr

/-! ## Gate drive and supply (chapter 10) -/

/-- The phase of a switch's gate (R328, R329). -/
inductive GatePhase where
  | offHold | preCharge | slopeOn | onHold | preDischarge | slopeOff
  deriving DecidableEq, Repr

/-- A switch on the driver die: its phase, whether gate watch holds a turn-on back (R334), whether the blanking interval runs
(R345), whether a short's reduced sink current turns it off (R346), the tick of its last turn-off command, none before the first
(R337), the tick at which its VGS last fell below VGS_OFF, none before the first (R334), and whether a disturbance holds its command
line on (R338). -/
structure Gate where
  phase : GatePhase
  held : Bool
  blanking : Bool
  shortOff : Bool
  offTick : Option Nat
  belowTick : Option Nat
  stray : Bool
  deriving DecidableEq, Repr

/-- One bridge on the driver die: its switches, the AS flag received (R351), and row 4 of R353. -/
structure GateBridge where
  sw : Vector Gate 6
  asFlag : Bool
  linkHold : Bool
  deriving DecidableEq, Repr

/-- The driver die beside its registers: its own link watch (R63), the supply undervoltage of R357 or R668 in force, the MC
blocks' chopper requests as the direct line carries them (R358), the sum and number of VMOT values in the mean window now running and in the
last, and the supervisor's failed comparisons (R361). -/
structure Driver where
  linkLost : Bool
  underVolt : Bool
  vmotSum : Nat
  vmotNum : Nat
  vmotOldSum : Nat
  vmotOldNum : Nat
  vmotFails : Nat
  chop : Bool
  deriving DecidableEq, Repr

/-! ## Continuity (chapter 11) -/

/-- Shares in per-mille of lanes A, B, C (R20). -/
structure Shares where
  a : Nat
  b : Nat
  c : Nat
  deriving DecidableEq, Repr

/-- A transfer that a NOTICE has defined and that waits for its transfer tick (R393, R395): `left` counts the reference inner
ticks still to come, the transfer tick among them. -/
structure Transfer where
  subj : Nat
  kind : Nat
  shares : Shares
  newLead : Nat
  left : Nat
  deriving DecidableEq, Repr

/-- What CONT knows of a peer beside CONT_PEER: ticks of its last two beat edges and of the last valid frame and when LEADIN
went low, its drive-ready and qualified flags, its last DOWN with the cycle, ticks of the last lane status on C0 and on C1, whether it asked
or answered in the share proposal under way, and its strap word as FORM gave it. -/
structure Peer where
  edge : Option Nat
  lastEdge : Option Nat
  frame : Option Nat
  lowSince : Option Nat
  ready : Bool
  qual : Bool
  late : Bool
  linkUp : BitVec 3
  cyc : Nat
  down : Q20
  downCyc : Option Nat
  ls0 : Option Nat
  ls1 : Option Nat
  accepted : Bool
  strap : Option (BitVec 16)
  deriving DecidableEq, Repr

/-- A planned share transfer of R397: the triple, the cycle of the proposal, and the cycle at which it applies once accepted. -/
structure Commit where
  shares : Shares
  cyc : Nat
  deriving DecidableEq, Repr

/-- A swap request of R398. -/
structure SwapReq where
  bank : Bool
  cyc : Nat
  deriving DecidableEq, Repr

/-- A set-wide operation waiting for ts + 8.0 µs (R418). -/
structure SetOp where
  code : Nat
  operands : List Byte
  due : Nat                    -- tick of ts + 8.0 µs
  deriving DecidableEq, Repr

/-- A CONT frame as received (R388). -/
structure ContFrame where
  payload : List Byte
  deriving DecidableEq, Repr

/-- CONT beside its registers. -/
structure Cont where
  ready : Bool                 -- this lane is drive-ready (R569)
  withdrawing : Bool           -- a withdrawal of this lane is under way (R369)
  cutSignal : Bool             -- the cut latch has signalled CONT (R428)
  debugHalt : Bool             -- a core is halted in debug (R110)
  transfers : List Transfer    -- transfers waiting for their tick, oldest first (R395)
  claimWait : Bool             -- the wait of R399 for a stand-in that is not the claimant
  claimed : Option Nat         -- tick of the last CLAIM received (R400)
  announced : BitVec 3         -- lanes that announced drive-ready in the formation window (R369)
  out : BitVec 3               -- lanes that have withdrawn or were lost since they were last not drive-ready (R46)
  beatMoved : Bool             -- a LEADIN input moved in the formation window (R46)
  leadSeen : Bool              -- a lead announcement arrived (R46)
  membership : BitVec 3        -- peers with a set-membership fault (R42)
  frame : Option ContFrame     -- CONT frame stored and not yet copied (R390)
  cycTaken : Bool              -- an unqualified stand-in has taken the set's cycle number (R390)
  frameCyc : Bool              -- a CONT frame of the present cycle has arrived (R402)
  misses : Nat                 -- consecutive missing CONT frames (R402)
  qualRun : Nat                -- consecutive frames applied without mismatch (R369)
  misRun : Nat                 -- consecutive miscompares (R391)
  voteRun : Nat                -- consecutive cycles in which this lane was the odd one (R414)
  voteDue : Bool               -- this lane held a role of a triplex set as the present outer cycle began, so that it votes (R414)
  voted : Bool                 -- the vote of the present outer cycle has been taken (R414)
  edeg : BitVec 3              -- peers that the CAN path alone may declare lost (R404)
  landed : Bool                -- D has landed in the present outer cycle (R247)
  lateDue : Bool               -- the outer tick triggered an engine, and no inner tick has followed yet (R247)
  dPrior : Q20                 -- D before the landings of the cycle dTick (R246)
  dTick : Option Nat           -- tick of the last landing of D (R246)
  ownD : Q20                   -- own D of the last completed outer cycle (R378)
  ownSpseq : Word              -- own SPSEQ of the last completed outer cycle (R391)
  proposal : Option Commit     -- planned share transfer proposed (R397)
  accepted : Option Commit     -- planned share transfer accepted here and not yet confirmed (R397)
  acceptedAt : Nat             -- CYC at the latest acceptance of it known here (R397)
  commit : Option Commit       -- planned share transfer carried in the CONT frames (R397)
  swap : Option SwapReq        -- swap under way (R398)
  lastSwap : Option SwapReq    -- swap last applied (R398)
  setOps : List SetOp          -- set-wide operations waiting, in the order of their instants (R418)
  lastSetOp : Option SetOp     -- set-wide operation last put in force
  leadOut : Bool               -- level of LEADOUT (R385)
  leadZ : Bool                 -- LEADOUT at high impedance: the lane is unpowered (R385)
  levels : BitVec 2            -- levels of LEADIN0 and LEADIN1
  xrefHere : Bool              -- the partner's XREF of this carrier period has arrived (R411)
  xrefMiss : Nat               -- consecutive missing XREF (R411)
  presented : Vector Int 2     -- lane demand presented to each bridge at its last inner tick (R246, R371)
  lsCount : Nat                -- lane statuses sent (R479)
  lsOut : List Byte            -- last lane status built (R479)
  confirms : Nat               -- confirmations of chassis-wide operations queued (R419)
  confirmed : BitVec 8         -- sets whose confirmation of a chassis-wide operation has come (R419)
  broadcast : Option (Fin 2 × List Byte)  -- the network and the bytes of a broadcast whose other copy has not come (R419)
  heldPos : Word               -- last position held, reported in hold (R55)
  lastWords : List Byte        -- state words of the last CONT frame assembled (R388)
  lastCommit : Option Commit   -- planned share transfer last applied as lead (R397)
  deriving DecidableEq, Repr

/-- A frame under way on a port's line (R377): its priority class and the tick at which its end symbol ends. -/
structure LineFrame where
  cls : Nat
  ends : Nat
  deriving DecidableEq, Repr

/-- One Ebpen port beside its registers: the last frame sent of each TYPE, the next SEQ of each TYPE is the lane's and stands in
`Lines`; consecutive valid BEAT frames since training (R374), ticks of the last code violations, consecutive slates
within 25 ns and over 100 ns (R383), the slate error waiting to be acted on (R382), the frames on the line (R377), whether the
port trains, and whether it has trained since the last cold start (R36). -/
structure Ebp where
  sent : Tab (Option EbpFrame)
  line : List LineFrame
  training : Bool
  everTrained : Bool
  beats : Nat
  violations : List Nat
  good : Nat
  bad : Nat
  err : Option Int
  slateOut : Option (Nat × Bool)
  deriving DecidableEq, Repr

/-- What the two ports share: the SEQ counters by TYPE and the frames accepted lately by lane and TYPE (R375, R376). -/
structure Lines where
  seq : Tab Nat
  seen : Tab (List Nat)
  deriving DecidableEq, Repr

/-! ## Safety (chapter 12) -/

/-- An outstanding ARM (R435): the token drawn, the transport (0 SPI, 1 C0, 2 C1), and whether its window has ended. -/
structure ArmToken where
  token : BitVec 16
  via : Fin 3
  late : Bool
  deriving DecidableEq, Repr

/-- SAFE beside its registers: the resume filter (R433, R434), the armed token of R435, the levels commanded on the isolation
lines, the checks running (R440), failed rail checks in a row (R637), and the tick of the last kick (R425). -/
structure Safe where
  resumeLow : Bool
  armed : Option ArmToken
  isoH : BitVec 2
  isoL : BitVec 2
  checking : BitVec 4
  railFails : Nat
  kickTick : Nat
  deriving DecidableEq, Repr

/-- A copy pending in a twin pair (R442): length and data bytes. -/
structure TwinCopy where
  len : Nat
  data : List Byte
  deriving DecidableEq, Repr

/-- A twin pair's pending copies. -/
structure Twin where
  c0 : Option TwinCopy
  c1 : Option TwinCopy
  deriving DecidableEq, Repr

/-! ## CAN (chapter 13) -/

/-- A message object of a CAN controller (R460, R461): the words of its window. -/
structure CanObj where
  id : Word
  ctl : Word
  data : Vector Word 16
  deriving DecidableEq, Repr

/-- A CAN controller beside its registers: its objects, the transmit object in arbitration or transmission and whether it has
won, consecutive acknowledge errors by object (R469), the OPMODE and LEADONLY state waiting for and in force since the last bus idle (R473,
R474), CTXn held recessive, whether it acknowledged the last frame it heard and answered its last detected error with an error frame (R473) and its last
overload condition with an overload frame, whether the flag under way is a transmitter's (R455), whether it waits for 11 recessive bits in restricted operation, the last frame it sent (R466), and automatic bit-rate detection (R476). -/
structure Can where
  objs : Tab CanObj
  active : Option (Fin 32 × Bool)
  nacks : Tab Nat
  mode : BitVec 2
  leadHold : Bool
  recessive : Bool
  acked : Bool
  flagged : Bool
  overload : Bool
  txFlag : Bool
  waits : Bool
  sent : Option CanFrame
  abdCand : Option Nat
  abdRound : Nat
  abdGood : Nat
  deriving DecidableEq, Repr
/-! ## Usile (chapter 14) -/

/-- What has become of an entry's slot token in the present cycle (R490): not reached, polled and sending since a tick, waiting for its
reply since the end of the poll, answered and, in a monitor, waiting for the reply to a further poll of it, answered, or ended with the ERR of
R494. -/
inductive UslSlot where
  | none
  | polling (since : Nat)
  | waiting (since : Nat)
  | again (since : Nat)
  | fresh
  | failed (err : Nat)
  deriving DecidableEq, Repr

/-- USL beside its registers: the entries' tokens, the polls and reply windows of an earlier cycle that are open still, or whose reply may yet
come (R489, R492), the transmit bank taken at the start of the cycle (R497), the tick from which the cycles count and that at which the present one began, none between
its end and the next start (R487), whether the present cycle began in the run state, the detections
without a complete run cycle between (R501), the tick at which listening or deferring began, and the last poll frame sent on each channel. -/
structure Usl where
  slots : Tab UslSlot
  ended : Tab UslSlot
  txBank : Bool
  origin : Nat
  cycleAt : Option Nat
  runCycle : Bool
  dups : Nat
  listenSince : Nat
  polls : Tab (List Byte)
  deriving DecidableEq, Repr

/-! ## Network time (chapter 15) -/

/-- A sync frame received before: its SEQ and the slave's own stamp of it (R514). -/
structure SyncMark where
  seq : Byte
  sec : Word
  ns : Word
  deriving DecidableEq, Repr

/-- TIME beside its registers: SEC and the fraction of NS (R505), the latches by requester number (R507, R518, R614), the last
sync frame on each network, usable C0 frames in a row, intervals without a usable frame, samples in a row within 2 µs
(R514, R515), the last sample and the rate errors of the last 8 intervals, latest first (R515), the SEQ of the last sync frame sent on each network and the time of its reference instant (R512, R513), and 5 ns ticks since the
last whole microsecond of UPTIME. -/
structure NetTime where
  sec : Word
  frac : Word
  secL : Tab Word
  ucycSecL : Tab Word
  ucycSeqL : Tab Word
  upL : Tab Word
  mark0 : Option SyncMark
  mark1 : Option SyncMark
  good0 : Nat
  missed : Nat
  inBand : Nat
  lastE : Option Int
  rates : List Int
  txSeq0 : Option Byte
  txSeq1 : Option Byte
  txAt0 : Option (Word × Word)
  txAt1 : Option (Word × Word)
  upTicks : Nat
  uptime : Nat
  deriving DecidableEq, Repr

/-! ## Command packets (chapter 16) -/

/-- A packet held and not yet answered (R529): OPCODE, SEQ, payload; what acceptance already decided, if anything (a fault of R528, DUPSEQ,
SEQMIS or a copied reply); whether it stands among the requests to the application; and its number in order of acceptance (R540). -/
structure Packet where
  op : Byte
  seq : Byte
  payload : List Byte
  decided : Option (Byte × List Byte)
  posted : Bool
  order : Nat
  deriving DecidableEq, Repr

/-- A reply (R527): the echo of OPCODE and SEQ, STATUS, and the payload after it. -/
structure Reply where
  op : Byte
  seq : Byte
  status : Byte
  payload : List Byte
  deriving DecidableEq, Repr

/-- One transport: packets waiting for their reply, replies queued, and the last replies consumed or sent, latest first (R536). -/
structure Channel where
  waiting : List Packet
  replies : List Reply
  past : List Reply
  deriving DecidableEq, Repr

/-- HOST beside its registers: the three transports (SPI, C0, C1), the transports whose requests wait for the mailbox, the one in the
mailbox first (R540), the packets accepted, the REQSEQ of requests that timed out and whose answers have not come (R541), the networks whose
object 28 still holds a reply that has been discarded (R532), RST of HSTAT (R521), and the bytes the lane sent in the last SPI transaction. -/
structure HostIf where
  chan : Vector Channel 3
  mbox : List (Fin 3)
  accepted : Nat
  late : List Word
  stale : BitVec 2
  rst : Bool
  sentBytes : List Byte
  deriving DecidableEq, Repr

/-! ## Starting and trust (chapter 17) -/

/-- The key store (R569, R570): the public keys of slots 0 to 4, the counters of types 1 to 7, and the lifecycle, with a
customer key written by PROVISION waiting for the next cold start (R571). The slot states stand in two bits each. -/
structure KeyStore where
  keys : Vector (BitVec 512) 5
  slots : BitVec 10
  vers : Vector Nat 7
  provisioned : Bool
  coldCount : Nat
  warmCount : Nat
  wrgen : Nat
  deriving DecidableEq, Repr

/-- What the retained block holds beside the registers kept through a warm start (R554): bank booted, seal slot, strap word,
WRGEN, lifecycle, the digest of every copied section, the SRAM repair map (R66), and the disabled gate segments and sense trims of the
twelve switches (R365, R366), which the driver die may lose meanwhile. -/
structure Retained where
  bank : Bool
  slot : Nat
  strap : BitVec 16
  wrgen : Nat
  provisioned : Bool
  digests : List (BitVec 256)
  spares : List Defect
  segs : List Word
  trims : List Word
  deriving DecidableEq, Repr

/-- A start in progress: its kind, whether the pairs have been released for the start-up writes (R451 step 2), whether P0 has
written mstartdone in time (R552), and the time it took. -/
structure StartRun where
  cold : Bool
  released : Bool
  startupDone : Bool
  took : Nat
  deriving DecidableEq, Repr

/-- The keeper beside its registers: the key store, the retained block, the start in progress, the wait of R558, the halt of
R562, whether the previous start reached DONE (R553), a warm request whose withdrawal is under way (R547), the wake keeper's stand-down
flag and failed-start times (R559), whether the flag cleared while the lane stayed powered (R560), VMOT below the hold level,
the outstanding challenges and the refusals after a failed signature (R579), an accepted release (R561), whether a configuration block is
staged (R574), what IMGLOAD has written since the last commit of its bank (R568), whether debug was opened since the start,
the sectors recorded for refresh (R609), the defects that spare rows and columns stand in for (R66), and the entry address of the principal
image booted (R564). -/
structure Keep where
  store : KeyStore
  retained : Option Retained
  start : Option StartRun
  failWait : Bool
  halted : Bool
  wasDone : Bool
  warmPending : Option Nat
  stood : Bool
  failTimes : List Nat
  clearedPowered : Bool
  vmotLow : Bool
  relChal : Option (BitVec 128)
  dbgChal : Option (BitVec 128)
  relBlock : Option Nat
  dbgBlock : Option Nat
  releasing : Bool
  staged : Bool
  imgWritten : List (Nat × Nat)
  dbgOpened : Bool
  weak : List (Fin 1536)
  spares : List Defect
  entry : Word
  deriving DecidableEq, Repr

/-- How JTAG drives the balls (R581). -/
inductive PinDrive where
  | normal
  | driven (pins : BitVec 168)
  | highZ
  deriving DecidableEq, Repr

/-- The JTAG port: the code of the instruction in force, the value its data register returned, the boundary-scan cells
preloaded, how the balls are driven, and the last DTMCS and DMI values shifted in. -/
structure Jtag where
  instr : BitVec 5
  out : BitVec 168
  cells : BitVec 168
  drive : PinDrive
  dtmcs : Word
  dmi : BitVec 41
  deriving DecidableEq, Repr

/-! ## Power states and the M-port (chapter 18) -/

/-- PWR beside its registers: a wake event that waits, by its source code (R593), and the tick of its arrival (R606), every engine outside the always-on domain held by a sentinel
trip (R604), RESET_N low, CORE_EN and PWREN, the always-on domain powered, the wake configuration copied into the wake keeper
(R591), the state that the entry under way leads to, the tick at which the elapsed counter began (R606), and whether the power-on release
circuit is armed (R601). -/
structure Pwr where
  wake : Option Nat
  wakeTick : Nat
  held : Bool
  resetLow : Bool
  coreEn : Bool
  pwren : Bool
  aoPowered : Bool
  keeperCfg : Word
  entryTo : Option Nat
  entryTick : Nat
  armed : Bool
  deriving DecidableEq, Repr

/-- The M-port beside its registers: the pointer (R599), whether it holds SCL low (R597), and the bytes last returned. -/
structure Mport where
  ptr : Byte
  stretch : Bool
  sentBytes : List Byte
  deriving DecidableEq, Repr

/-! ## Background services (chapter 19) -/

/-- A full snapshot of the wear counters (R613). -/
structure Snapshot where
  seq : Nat
  wear : Tab Nat
  deriving DecidableEq, Repr

/-- The in-line currents of a bridge's three phases at the centre of a window, and its tick (R185, R611). -/
structure PhaseSet where
  at_ : Nat
  i1 : Int
  i2 : Int
  i3 : Int
  deriving DecidableEq, Repr

/-- A record of G's own that waits to be moved (R617): its TYPE, the values its data carries, and for a counter journal the counters it
carries. -/
structure OwnRec where
  type : Nat
  content : List Nat
  wear : Option (Tab Nat)
  deriving DecidableEq, Repr

/-- The gaffer beside its registers: corrections of each SRAM word in the pass under way and the rows marked (R608), the wear
counters with their overflow marks and whether any changed since the last journal record (R612, R613), the mirror, the two
snapshot copies, what a cold start rebuilds the counters from, the journal records in the reel by RSEQ and the ring offsets of
those newer than the last snapshot, the RSEQ of every record moved and not yet committed, G's own records that wait to be moved (R617), records lost since the last record of
type 7 (R618), the RSEQ of the newest record in the ring and the offset after its page (R619), the bridges whose calibration is to be
repeated and the tick of the last trim of each bridge's gate-watch comparators (R610), the result sets
of each bridge in the last second (R611), the scrubber's next word of each SRAM bank and of
retention RAM (R607), and the ticks within the millisecond of the time counters (R612): chopper, active short of each bridge, energised
time of each bridge. -/
structure Bkg where
  corrected : Tab Nat
  rows : List Nat
  wear : Tab Nat
  wearOvf : List Nat
  changed : Bool
  mirror : Option (Tab Nat)
  mirrorOvf : List Nat
  snap0 : Option Snapshot
  snap1 : Option Snapshot
  durable : Tab Nat
  inReel : List (Nat × Tab Nat)
  journals : List Nat
  waiting : List Nat
  own : List OwnRec
  lost : Nat
  ring : Option (Nat × Nat)
  retry : BitVec 2
  watchTrim : Vector (Option Nat) 2
  inline : Vector (List PhaseSet) 2
  scrub : Vector Nat 8
  scrubRet : Nat
  stress : Vector Nat 5
  deriving DecidableEq, Repr

/-- An interrupt or event that a block has raised to an engine: a fault of a Heldiog engine (to P0 to P3 and V, R235), the
cut latch (to V, R428), a lockstep fault or a network stop (to V, R97, R444), a compare unit (to P0 to P3, R173), the mean
window (to V, R197), a verdict of a twin pair (to S, R444), an event of a CAN controller (to S), a write
ended on the M-port (to S and G, R599), a request in the mailbox (to P0 to P3, R540). -/
inductive Irq where
  | engineFault (e : Eng)
  | cutLatch
  | lockstep (p : Pair)
  | netStop
  | compareHit (n : Fin 4)
  | meanWindow
  | twinVerdict (k : TwinPair)
  | can (n : CanCtl)
  | mport
  | mailbox
  deriving DecidableEq, Repr

/-- The state of one lane. `pending` is the queue of waiting commands, first in, first out. `fresh` is the model's own: it
counts the free values drawn (log entry 1). `irqs` lists the interrupts and events raised since the last start. -/
structure State where
  regs : Tab Word
  mem : List Host.Cell
  pending : List Instr
  fresh : Nat
  tick : Nat
  bus : BusReply
  irqs : List Irq
  sealApplied : Bool
  sys : Sys
  cores : Vector Core 4
  ang : Vector Ang 2
  pos : Vector Pos 2
  sent : Vector Sent 4
  emu : Emu
  borrow : Borrow
  isnsB : Vector IsnsBridge 2
  isnsC : Vector IsnsChan 4
  eng : Vector Engine 7
  mc : Vector Mc 2
  gate : Vector GateBridge 2
  driver : Driver
  cont : Cont
  peers : Vector Peer 3
  ebp : Vector Ebp 2
  lines : Lines
  safe : Safe
  twin : Vector Twin 16
  can : Vector Can 4
  usl : Usl
  time : NetTime
  host : HostIf
  keep : Keep
  jtag : Jtag
  pwr : Pwr
  mport : Mport
  bkg : Bkg
  deriving DecidableEq, Repr

/-! ## Right after reset -/

def Sys.reset : Sys :=
  { linkLost := false, vrcOut := false, aorcOut := false, okWindows := 0, vsideOut := false, vsideOk := 0, suspended := true,
    dogHeld := true, sDown := false, gDown := false, vRuns := false, timer0 := 0, replies := [] }

def Copy.reset : Copy :=
  { x := Vector.replicate 32 0, f := Vector.replicate 32 0, fcsr := 0, pc := 0, machineMode := true, csr := [],
    triggers := [], progBuf := [], reservation := none }

def Core.reset : Core :=
  { main := .reset, double := .reset, icache := [], dcache := [], agreed := 0, signature := 0, gated := false }

def Ang.reset : Ang :=
  { angle := 0, slow := 0, deliv := none, armed := 0, queue := [], pos := [], prior := [], ref := ⟨0, 5000, 0, false⟩, pwm := ⟨0, 5000, 0, false⟩,
    own := false, due := false, anchor := 0, trimRem := 0, refCount := 0, refTick := 0, valleyTick := 0, inners := [], outers := [], lines := 0, pulse := 0,
    restore := 0 }

def EdgeState.reset : EdgeState :=
  { ci := 0, code := 0, dir := none, known := false, ticks := [], last := none, lastZ := none, interval := none,
    speed := 0, lowConf := false, reversed := false, resample := [], awaiting := true, theta := 0 }

def ScState.reset : ScState :=
  { primed := false, bad := 0, skipped := 0, hist := [], speed := 0, lastSign := 0, lowConf := false, awaiting := true }

def Pos.reset : Pos :=
  { turns := 0, abz := .reset, hall := .reset, sc := .reset, pulse := Vector.replicate 2 none, restore := 0,
    cmpOld := Vector.replicate 2 none, ts := 0, from_ := 0 }

def Sent.reset : Sent := { bad := 0, tickNs := none, last := none, lastSign := 0, awaiting := true, serial := [] }

def IsnsBridge.reset : IsnsBridge := { win := none, queued := none, idle := 0 }

def IsnsChan.reset : IsnsChan := 
  { sum := 0, num := 0, oldSum := 0, oldNum := 0, vSum := 0, vNum := 0, vOldSum := 0, vOldNum := 0, vPubSum := 0, vPubNum := 0, awaiting := true, stuck := false,
    stuckNow := false, runCounted := false, vfails := 0 }

def Engine.reset : Engine :=
  { x := Vector.replicate 16 0, ix := Vector.replicate 8 0, circ := Vector.replicate 4 0, acc := Vector.replicate 2 0,
    z := false, n := false, s := false, loops := [], pc := 0, lastPc := 0, halted := false, cycles := 0, pending := [], act := none, writes := [] }

def Mc.reset : Mc :=
  { committed := ⟨0, 0, 0⟩, loaded := ⟨0, 0, 0⟩, prior := ⟨0, 0, 0⟩, commitTick := none, ssLoaded := 0,
    ssPrior := 0, ssTick := none, clampLeft := 0, clamping := false, highTick := 0, edgeTick := 0, asReq := false, returnReq := false,
    zcAccepted := none, zcLast := none, zcIntervals := [], zcMisses := 0, slowSector := false, commutTick := 0,
    lastCode := none, codeTick := 0, codeChanges := 0, codeDir := 0, coastTick := 0, estDir := 0, estAgree := 0, estTheta := 0,
    currentHist := [], losTicks := [] }

def Gate.reset : Gate := { phase := .offHold, held := false, blanking := false, shortOff := false, offTick := none, belowTick := none, stray := false }

def GateBridge.reset : GateBridge := { sw := Vector.replicate 6 .reset, asFlag := false, linkHold := false }

def Driver.reset : Driver :=
  { linkLost := false, underVolt := true, vmotSum := 0, vmotNum := 0, vmotOldSum := 0, vmotOldNum := 0, vmotFails := 0, chop := false }

def Peer.reset : Peer :=
  { edge := none, lastEdge := none, frame := none, lowSince := none, ready := false, qual := false, late := false,
    linkUp := 0, cyc := 0, down := 0, downCyc := none, ls0 := none, ls1 := none, accepted := false, strap := none }

def Cont.reset : Cont :=
  { ready := false, withdrawing := false, cutSignal := false, debugHalt := false, transfers := [], claimWait := false,
    claimed := none, announced := 0, out := 0, beatMoved := false, leadSeen := false, membership := 0, frame := none,
    cycTaken := false, frameCyc := false, misses := 0, qualRun := 0, misRun := 0, voteRun := 0, voteDue := false, voted := false, edeg := 0, landed := false, lateDue := false, dPrior := 0, dTick := none, ownD := 0, ownSpseq := 0,
    proposal := none, accepted := none, acceptedAt := 0, commit := none, swap := none, lastSwap := none, setOps := [], lastSetOp := none,
    leadOut := false, leadZ := false, levels := 0, xrefHere := false, xrefMiss := 0, presented := Vector.replicate 2 0, lsCount := 0, lsOut := [],
    confirms := 0, confirmed := 0, broadcast := none, heldPos := 0, lastWords := [], lastCommit := none }

def Ebp.reset : Ebp :=
  { sent := [], line := [], training := false, everTrained := false, beats := 0, violations := [], good := 0, bad := 0, err := none, slateOut := none }

def Safe.reset : Safe :=
  { resumeLow := false, armed := none, isoH := 0, isoL := 0, checking := 0, railFails := 0, kickTick := 0 }

def CanObj.reset : CanObj := { id := 0, ctl := 0, data := Vector.replicate 16 0 }

def Can.reset : Can :=
  { objs := [], active := none, nacks := [], mode := 0, leadHold := false, recessive := true, acked := false, flagged := false, overload := false, txFlag := false, waits := false,
    sent := none, abdCand := none, abdRound := 0, abdGood := 0 }

def Usl.reset : Usl := { slots := [], ended := [], txBank := false, origin := 0, cycleAt := none, runCycle := false, dups := 0, listenSince := 0, polls := [] }

def NetTime.reset : NetTime :=
  { sec := 0, frac := 0, secL := [], ucycSecL := [], ucycSeqL := [], upL := [], mark0 := none, mark1 := none,
    good0 := 0, missed := 0, inBand := 0, lastE := none, rates := [], txSeq0 := none, txSeq1 := none, txAt0 := none, txAt1 := none, upTicks := 0, uptime := 0 }

def HostIf.reset : HostIf :=
  { chan := Vector.replicate 3 ⟨[], [], []⟩, mbox := [], accepted := 0, late := [], stale := 0, rst := true, sentBytes := [] }

/-- The key store as shipped (R570, R571): slot 0 active with Lysonlar's key, the others empty, DELIVERED. -/
def KeyStore.reset : KeyStore :=
  { keys := (Vector.replicate 5 0).set 0 Config.lysonlarKey, slots := 1, vers := Vector.replicate 7 0, provisioned := false,
    coldCount := 0, warmCount := 0, wrgen := 0 }

def Keep.reset : Keep :=
  { store := .reset, retained := none, start := none, failWait := false, halted := false, wasDone := false,
    warmPending := none, stood := false, failTimes := [], clearedPowered := false, vmotLow := false, relChal := none,
    dbgChal := none, relBlock := none, dbgBlock := none, releasing := false, staged := false, imgWritten := [],
    dbgOpened := false, weak := [], spares := [], entry := 0 }

def Jtag.reset : Jtag := { instr := 31, out := 0, cells := 0, drive := .normal, dtmcs := 0, dmi := 0 }

def Pwr.reset : Pwr :=
  { wake := none, wakeTick := 0, held := false, resetLow := false, coreEn := true, pwren := true, aoPowered := true, keeperCfg := 0x11,
    entryTo := none, entryTick := 0, armed := true }

def Mport.reset : Mport := { ptr := 0, stretch := false, sentBytes := [] }

def Bkg.reset : Bkg :=
  { corrected := [], rows := [], wear := [], wearOvf := [], changed := false, mirror := none, mirrorOvf := [], snap0 := none,
    snap1 := none, durable := [], inReel := [], journals := [], waiting := [], own := [], lost := 0, ring := none,
    retry := 0, watchTrim := Vector.replicate 2 none, inline := Vector.replicate 2 [], scrub := Vector.replicate 8 0, scrubRet := 0,
    stress := Vector.replicate 5 0 }

/-- The lane right after reset: every register at its reset value (R25), every memory as unlisted bytes read, nothing
started. The values the spec does not state are those log entry 6 names. -/
def State.reset : State :=
  { regs := [], mem := [], pending := [], fresh := 0, tick := 0, bus := ⟨0, false⟩, irqs := [], sealApplied := false,
    sys := .reset, cores := Vector.replicate 4 .reset, ang := Vector.replicate 2 .reset, pos := Vector.replicate 2 .reset,
    sent := Vector.replicate 4 .reset, emu := ⟨false, false, false, none⟩, borrow := ⟨0, 2, Vector.replicate 3 none⟩,
    isnsB := Vector.replicate 2 .reset, isnsC := Vector.replicate 4 .reset, eng := Vector.replicate 7 .reset,
    mc := Vector.replicate 2 .reset, gate := Vector.replicate 2 .reset, driver := .reset, cont := .reset,
    peers := Vector.replicate 3 .reset, ebp := Vector.replicate 2 .reset, lines := ⟨[], []⟩, safe := .reset,
    twin := Vector.replicate 16 ⟨none, none⟩, can := Vector.replicate 4 .reset,
    usl := .reset, time := .reset, host := .reset, keep := .reset, jtag := .reset, pwr := .reset, mport := .reset, bkg := .reset }

end Sys2Proof.Machine
end

