-- ==== Sys2Proof/Machine/Fields.lean ====
section
/-!
DEFINITION. One name for every register field the spec's field tables give (R657 and the owning chapters), as the
place of the field in the register space. A field of a block that exists more than once (ANG, POS, MC, GD, EBP, CAN)
takes the block's number first; a field of a register array takes the element's number last.
-/
namespace Sys2Proof.Machine.F

/-! Fields of SYS (chapters 02, 17, 21). -/

def SYS_ID_DEVICE : Fld := ⟨0x40000000, 0, 16⟩
def SYS_ID_STEP : Fld := ⟨0x40000000, 16, 8⟩
def SYS_RSTREQ_WARM : Fld := ⟨0x40000010, 0, 1⟩
def SYS_RSTREQ_COLD : Fld := ⟨0x40000010, 1, 1⟩
def SYS_CLKMON_VRCDEV : Fld := ⟨0x40000020, 0, 8⟩
def SYS_CLKMON_AORCDEV : Fld := ⟨0x40000020, 8, 8⟩
def SYS_CLKMON_LOCK : Fld := ⟨0x40000020, 16, 1⟩
def SYS_CLKMON_VRCOUT : Fld := ⟨0x40000020, 17, 1⟩
def SYS_CLKMON_AORCOUT : Fld := ⟨0x40000020, 18, 1⟩
def SYS_BUSERR_REQ : Fld := ⟨0x40000040, 0, 5⟩
def SYS_BUSERR_WR : Fld := ⟨0x40000040, 5, 1⟩
def SYS_BUSERR_VALID : Fld := ⟨0x40000040, 6, 1⟩
def SYS_BUSERR_OVF : Fld := ⟨0x40000040, 7, 1⟩
def SYS_BUSERR_COUNT : Fld := ⟨0x40000040, 8, 16⟩
def SYS_BUSADDR_ADDR : Fld := ⟨0x40000044, 0, 32⟩
/-! Fields of DBL (chapter 03). -/

def DBL_CTRL_HOLD : Fld := ⟨0x40003000, 0, 4⟩
def DBL_STAT_RUN : Fld := ⟨0x40003004, 0, 4⟩
def DBL_STAT_FAULT : Fld := ⟨0x40003004, 4, 4⟩
def DBL_STAT_DBGHALT : Fld := ⟨0x40003004, 8, 4⟩
def DBL_STAT_INJ_PASS : Fld := ⟨0x40003004, 12, 1⟩
def DBL_FAULT_VALID (i : Nat) : Fld := ⟨0x40003010 + 4 * i, 0, 1⟩
def DBL_FAULT_CAUSE (i : Nat) : Fld := ⟨0x40003010 + 4 * i, 1, 3⟩
def DBL_FAULT_GROUP (i : Nat) : Fld := ⟨0x40003010 + 4 * i, 4, 5⟩
def DBL_FAULT_MULTI (i : Nat) : Fld := ⟨0x40003010 + 4 * i, 9, 1⟩
def DBL_INJ_PAIRS : Fld := ⟨0x40003020, 0, 4⟩
def DBL_INJ_START : Fld := ⟨0x40003020, 4, 1⟩
def DBL_INJ_BUSY : Fld := ⟨0x40003020, 5, 1⟩
def DBL_INJ_DONE : Fld := ⟨0x40003020, 6, 1⟩
def DBL_INJ_REFUSED : Fld := ⟨0x40003020, 7, 1⟩
def DBL_INJRES_PASS : Fld := ⟨0x40003024, 0, 4⟩
def DBL_INJRES_FAIL_GROUP : Fld := ⟨0x40003024, 8, 5⟩
def DBL_INJRES_FAIL_BIT : Fld := ⟨0x40003024, 13, 6⟩
def DBL_INJRES_FAIL_PAIR : Fld := ⟨0x40003024, 19, 2⟩
def DBL_INJRES_FAIL_POL : Fld := ⟨0x40003024, 21, 1⟩
def DBL_INJRES_FAIL_KIND : Fld := ⟨0x40003024, 22, 2⟩
def DBL_AGREE_COUNT0 : Fld := ⟨0x40003028, 0, 7⟩
def DBL_AGREE_OVF0 : Fld := ⟨0x40003028, 7, 1⟩
def DBL_AGREE_COUNT1 : Fld := ⟨0x40003028, 8, 7⟩
def DBL_AGREE_OVF1 : Fld := ⟨0x40003028, 15, 1⟩
def DBL_AGREE_COUNT2 : Fld := ⟨0x40003028, 16, 7⟩
def DBL_AGREE_OVF2 : Fld := ⟨0x40003028, 23, 1⟩
def DBL_AGREE_COUNT3 : Fld := ⟨0x40003028, 24, 7⟩
def DBL_AGREE_OVF3 : Fld := ⟨0x40003028, 31, 1⟩
/-! Fields of ANG (chapter 04). -/

def ANG_CTRL_EN (b : Nat) : Fld := ⟨0x40004000 + 0x1000 * b, 0, 1⟩
def ANG_CTRL_SRC (b : Nat) : Fld := ⟨0x40004000 + 0x1000 * b, 1, 4⟩
def ANG_CTRL_FOLLOW (b : Nat) : Fld := ⟨0x40004000 + 0x1000 * b, 5, 1⟩
def ANG_CTRL_MODE_REQ (b : Nat) : Fld := ⟨0x40004000 + 0x1000 * b, 6, 2⟩
def ANG_CTRL_INNER_X (b : Nat) : Fld := ⟨0x40004000 + 0x1000 * b, 8, 1⟩
def ANG_CTRL_OUTER_M (b : Nat) : Fld := ⟨0x40004000 + 0x1000 * b, 9, 3⟩
def ANG_CTRL_NSYNC (b : Nat) : Fld := ⟨0x40004000 + 0x1000 * b, 12, 4⟩
def ANG_STAT_STILL (b : Nat) : Fld := ⟨0x40004004 + 0x1000 * b, 0, 1⟩
def ANG_STAT_SYNC (b : Nat) : Fld := ⟨0x40004004 + 0x1000 * b, 1, 1⟩
def ANG_STAT_SLIP (b : Nat) : Fld := ⟨0x40004004 + 0x1000 * b, 2, 1⟩
def ANG_STAT_STEP (b : Nat) : Fld := ⟨0x40004004 + 0x1000 * b, 3, 1⟩
def ANG_STAT_DROP (b : Nat) : Fld := ⟨0x40004004 + 0x1000 * b, 4, 1⟩
def ANG_STAT_ACCERR (b : Nat) : Fld := ⟨0x40004004 + 0x1000 * b, 5, 1⟩
def ANG_ANGLE_ANGLE (b : Nat) : Fld := ⟨0x40004008 + 0x1000 * b, 0, 20⟩
def ANG_RATE_RATE (b : Nat) : Fld := ⟨0x4000400C + 0x1000 * b, 0, 32⟩
def ANG_SYNCERR_SYNCERR (b : Nat) : Fld := ⟨0x4000402C + 0x1000 * b, 0, 20⟩
def ANG_TABOUT_TABOUT (b : Nat) : Fld := ⟨0x40004040 + 0x1000 * b, 0, 20⟩
def ANG_PER_ASYNC_PER (b : Nat) : Fld := ⟨0x40004010 + 0x1000 * b, 0, 16⟩
def ANG_SYNCON_SYNC_ON (b : Nat) : Fld := ⟨0x40004014 + 0x1000 * b, 0, 24⟩
def ANG_SYNCOFF_SYNC_OFF (b : Nat) : Fld := ⟨0x40004018 + 0x1000 * b, 0, 24⟩
def ANG_PHASE_SYNC_PHASE (b : Nat) : Fld := ⟨0x4000401C + 0x1000 * b, 0, 20⟩
def ANG_SHIFT_SHIFT (b : Nat) : Fld := ⟨0x40004020 + 0x1000 * b, 0, 20⟩
def ANG_STEPLIM_STEPLIM (b : Nat) : Fld := ⟨0x40004028 + 0x1000 * b, 0, 20⟩
def ANG_STILL_STILL_SPD (b : Nat) : Fld := ⟨0x40004024 + 0x1000 * b, 0, 16⟩
def ANG_STILL_STILL_TIME (b : Nat) : Fld := ⟨0x40004024 + 0x1000 * b, 16, 8⟩
def ANG_TICKS_INNER (b : Nat) : Fld := ⟨0x40004030 + 0x1000 * b, 0, 16⟩
def ANG_TICKS_OUTER (b : Nat) : Fld := ⟨0x40004030 + 0x1000 * b, 16, 16⟩
def ANG_COUNT_STEPCNT (b : Nat) : Fld := ⟨0x40004034 + 0x1000 * b, 0, 15⟩
def ANG_COUNT_STEPOVF (b : Nat) : Fld := ⟨0x40004034 + 0x1000 * b, 15, 1⟩
def ANG_COUNT_DROPCNT (b : Nat) : Fld := ⟨0x40004034 + 0x1000 * b, 16, 15⟩
def ANG_COUNT_DROPOVF (b : Nat) : Fld := ⟨0x40004034 + 0x1000 * b, 31, 1⟩
def ANG_FIRED_FIRED (b i : Nat) : Fld := ⟨0x40004038 + 0x1000 * b + 4 * i, 0, 32⟩
def ANG_CUEPOS_POS (b i : Nat) : Fld := ⟨0x40004100 + 0x1000 * b + 8 * i, 0, 20⟩
def ANG_CUEPOS_FB_OFS (b i : Nat) : Fld := ⟨0x40004100 + 0x1000 * b + 8 * i, 20, 12⟩
def ANG_CUECFG_EN (b i : Nat) : Fld := ⟨0x40004104 + 0x1000 * b + 8 * i, 0, 1⟩
def ANG_CUECFG_BASE (b i : Nat) : Fld := ⟨0x40004104 + 0x1000 * b + 8 * i, 1, 1⟩
def ANG_CUECFG_DIR (b i : Nat) : Fld := ⟨0x40004104 + 0x1000 * b + 8 * i, 2, 2⟩
def ANG_CUECFG_FB (b i : Nat) : Fld := ⟨0x40004104 + 0x1000 * b + 8 * i, 4, 2⟩
def ANG_CUECFG_ACT (b i : Nat) : Fld := ⟨0x40004104 + 0x1000 * b + 8 * i, 6, 3⟩
def ANG_CUECFG_LINE (b i : Nat) : Fld := ⟨0x40004104 + 0x1000 * b + 8 * i, 9, 2⟩
def ANG_CUECFG_CMPOP (b i : Nat) : Fld := ⟨0x40004104 + 0x1000 * b + 8 * i, 11, 2⟩
def ANG_CUECFG_ENG (b i : Nat) : Fld := ⟨0x40004104 + 0x1000 * b + 8 * i, 13, 3⟩
def ANG_CUECFG_ARG (b i : Nat) : Fld := ⟨0x40004104 + 0x1000 * b + 8 * i, 16, 8⟩
def ANG_TABLE_ENTRY (b i : Nat) : Fld := ⟨0x40004400 + 0x1000 * b + 4 * i, 0, 20⟩
/-! Fields of POS (chapter 05). -/

def POS_CTRL_SC_EN (b : Nat) : Fld := ⟨0x40006000 + 0x1000 * b, 0, 1⟩
def POS_CTRL_ABZ_EN (b : Nat) : Fld := ⟨0x40006000 + 0x1000 * b, 1, 1⟩
def POS_CTRL_HALL_EN (b : Nat) : Fld := ⟨0x40006000 + 0x1000 * b, 2, 1⟩
def POS_CTRL_MECHSRC (b : Nat) : Fld := ⟨0x40006000 + 0x1000 * b, 3, 2⟩
def POS_CTRL_DIRINV (b : Nat) : Fld := ⟨0x40006000 + 0x1000 * b, 5, 1⟩
def POS_CTRL_IDXPOL (b : Nat) : Fld := ⟨0x40006000 + 0x1000 * b, 6, 2⟩
def POS_CTRL_HOME_EN (b : Nat) : Fld := ⟨0x40006000 + 0x1000 * b, 8, 1⟩
def POS_CTRL_PP (b : Nat) : Fld := ⟨0x40006000 + 0x1000 * b, 9, 5⟩
def POS_STAT_SCVAL (b : Nat) : Fld := ⟨0x40006004 + 0x1000 * b, 0, 1⟩
def POS_STAT_ABZVAL (b : Nat) : Fld := ⟨0x40006004 + 0x1000 * b, 1, 1⟩
def POS_STAT_HALLVAL (b : Nat) : Fld := ⟨0x40006004 + 0x1000 * b, 2, 1⟩
def POS_STAT_MTVALID (b : Nat) : Fld := ⟨0x40006004 + 0x1000 * b, 3, 1⟩
def POS_STAT_SPDVALID (b : Nat) : Fld := ⟨0x40006004 + 0x1000 * b, 4, 1⟩
def POS_STAT_LOWCONF (b : Nat) : Fld := ⟨0x40006004 + 0x1000 * b, 5, 1⟩
def POS_STAT_UNCERT (b : Nat) : Fld := ⟨0x40006004 + 0x1000 * b, 6, 1⟩
def POS_STAT_HOMED (b : Nat) : Fld := ⟨0x40006004 + 0x1000 * b, 7, 1⟩
def POS_STAT_IDXMIS (b : Nat) : Fld := ⟨0x40006004 + 0x1000 * b, 8, 1⟩
def POS_STAT_WRAP (b : Nat) : Fld := ⟨0x40006004 + 0x1000 * b, 9, 1⟩
def POS_STAT_ACCERR (b : Nat) : Fld := ⟨0x40006004 + 0x1000 * b, 10, 1⟩
def POS_MECH_MECH (b : Nat) : Fld := ⟨0x40006008 + 0x1000 * b, 0, 24⟩
def POS_MT_MT (b : Nat) : Fld := ⟨0x4000600C + 0x1000 * b, 0, 32⟩
def POS_SPEED_SPEED (b : Nat) : Fld := ⟨0x40006010 + 0x1000 * b, 0, 32⟩
def POS_CNT_ABZCNT (b : Nat) : Fld := ⟨0x40006014 + 0x1000 * b, 0, 18⟩
def POS_CNT_HSECT (b : Nat) : Fld := ⟨0x40006014 + 0x1000 * b, 24, 3⟩
def POS_SC_FINE (b : Nat) : Fld := ⟨0x40006018 + 0x1000 * b, 0, 20⟩
def POS_SC_PIDX (b : Nat) : Fld := ⟨0x40006018 + 0x1000 * b, 20, 12⟩
def POS_SCCFG_NPER (b : Nat) : Fld := ⟨0x40006020 + 0x1000 * b, 0, 12⟩
def POS_SCCFG_SPDWIN (b : Nat) : Fld := ⟨0x40006020 + 0x1000 * b, 12, 3⟩
def POS_SCCFG_DELIV (b : Nat) : Fld := ⟨0x40006020 + 0x1000 * b, 15, 4⟩
def POS_SCCFG_AMP_N (b : Nat) : Fld := ⟨0x40006020 + 0x1000 * b, 19, 5⟩
def POS_SCOFS_OFS_SIN (b : Nat) : Fld := ⟨0x40006024 + 0x1000 * b, 0, 16⟩
def POS_SCOFS_OFS_COS (b : Nat) : Fld := ⟨0x40006024 + 0x1000 * b, 16, 16⟩
def POS_SCGAIN_GAIN_SIN (b : Nat) : Fld := ⟨0x40006028 + 0x1000 * b, 0, 16⟩
def POS_SCGAIN_GAIN_COS (b : Nat) : Fld := ⟨0x40006028 + 0x1000 * b, 16, 16⟩
def POS_SCPH_PHASE (b : Nat) : Fld := ⟨0x4000602C + 0x1000 * b, 0, 16⟩
def POS_SCAMP_AMP_LO (b : Nat) : Fld := ⟨0x40006030 + 0x1000 * b, 0, 16⟩
def POS_SCAMP_AMP_HI (b : Nat) : Fld := ⟨0x40006030 + 0x1000 * b, 16, 16⟩
def POS_ABZCFG_LINES (b : Nat) : Fld := ⟨0x40006034 + 0x1000 * b, 0, 16⟩
def POS_ABZCFG_TEDGE (b : Nat) : Fld := ⟨0x40006034 + 0x1000 * b, 16, 8⟩
def POS_ABZCFG_SPD_EDGES (b : Nat) : Fld := ⟨0x40006034 + 0x1000 * b, 24, 2⟩
def POS_IDX_IDX_EXP (b : Nat) : Fld := ⟨0x40006038 + 0x1000 * b, 0, 18⟩
def POS_HALL_HALL_OFS (b : Nat) : Fld := ⟨0x4000603C + 0x1000 * b, 0, 20⟩
def POS_HALL_HALL_INV (b : Nat) : Fld := ⟨0x4000603C + 0x1000 * b, 20, 3⟩
def POS_SPDCFG_SPD_TMO (b : Nat) : Fld := ⟨0x40006040 + 0x1000 * b, 0, 8⟩
def POS_SPDCFG_RESOLVE (b : Nat) : Fld := ⟨0x40006040 + 0x1000 * b, 8, 20⟩
def POS_EOFSSC_EOFS (b : Nat) : Fld := ⟨0x40006044 + 0x1000 * b, 0, 20⟩
def POS_EOFSABZ_EOFS (b : Nat) : Fld := ⟨0x40006048 + 0x1000 * b, 0, 20⟩
def POS_ERR0_EDGEFLT (b : Nat) : Fld := ⟨0x4000604C + 0x1000 * b, 0, 16⟩
def POS_ERR0_STATEFLT (b : Nat) : Fld := ⟨0x4000604C + 0x1000 * b, 16, 16⟩
def POS_ERR1_AMPFLT (b : Nat) : Fld := ⟨0x40006050 + 0x1000 * b, 0, 16⟩
def POS_ERR1_PERFLT (b : Nat) : Fld := ⟨0x40006050 + 0x1000 * b, 16, 16⟩
def POS_ERR2_HALLFLT (b : Nat) : Fld := ⟨0x40006054 + 0x1000 * b, 0, 16⟩
def POS_ERR2_IDXERR (b : Nat) : Fld := ⟨0x40006054 + 0x1000 * b, 16, 16⟩
def POS_ERROVF_OVF (b : Nat) : Fld := ⟨0x40006058 + 0x1000 * b, 0, 6⟩
def POS_MTSET_MTSET (b : Nat) : Fld := ⟨0x4000605C + 0x1000 * b, 0, 32⟩
def POS_REVAL_REVAL (b : Nat) : Fld := ⟨0x40006060 + 0x1000 * b, 0, 3⟩
def POS_CMPCTRL_EN (b i : Nat) : Fld := ⟨0x40006070 + 0x1000 * b + 16 * i, 0, 1⟩
def POS_CMPCTRL_DIR (b i : Nat) : Fld := ⟨0x40006070 + 0x1000 * b + 16 * i, 1, 2⟩
def POS_CMPCTRL_OP (b i : Nat) : Fld := ⟨0x40006070 + 0x1000 * b + 16 * i, 3, 2⟩
def POS_CMPCTRL_IRQ (b i : Nat) : Fld := ⟨0x40006070 + 0x1000 * b + 16 * i, 5, 1⟩
def POS_CMPVAL_VAL (b i : Nat) : Fld := ⟨0x40006074 + 0x1000 * b + 16 * i, 0, 32⟩
def POS_CMPSPC_SPC (b i : Nat) : Fld := ⟨0x40006078 + 0x1000 * b + 16 * i, 0, 24⟩
def POS_CMPSTAT_HIT (b i : Nat) : Fld := ⟨0x4000607C + 0x1000 * b + 16 * i, 0, 1⟩
def POS_CMPSTAT_LEVEL (b i : Nat) : Fld := ⟨0x4000607C + 0x1000 * b + 16 * i, 1, 1⟩
def POS_CMPSTAT_MISS (b i : Nat) : Fld := ⟨0x4000607C + 0x1000 * b + 16 * i, 8, 8⟩
def POS_CMPSTAT_MISSOVF (b i : Nat) : Fld := ⟨0x4000607C + 0x1000 * b + 16 * i, 16, 1⟩
def POS_FO_ENTRY0 (b : Nat) : Fld := ⟨0x40006090 + 0x1000 * b, 0, 4⟩
def POS_FO_ENTRY1 (b : Nat) : Fld := ⟨0x40006090 + 0x1000 * b, 4, 4⟩
def POS_FO_ENTRY2 (b : Nat) : Fld := ⟨0x40006090 + 0x1000 * b, 8, 4⟩
def POS_FO_ENTRY3 (b : Nat) : Fld := ⟨0x40006090 + 0x1000 * b, 12, 4⟩
def POS_FO_AUTO (b : Nat) : Fld := ⟨0x40006090 + 0x1000 * b, 16, 1⟩
def POS_FO_ALLLOST (b : Nat) : Fld := ⟨0x40006090 + 0x1000 * b, 17, 1⟩
def POS_FO_SWITCHED (b : Nat) : Fld := ⟨0x40006090 + 0x1000 * b, 18, 1⟩
def POS_BORROW_EOFSB (b : Nat) : Fld := ⟨0x40006094 + 0x1000 * b, 0, 20⟩
def POS_BORROW_LANE (b : Nat) : Fld := ⟨0x40006094 + 0x1000 * b, 20, 2⟩
def POS_BORROW_BVALID (b : Nat) : Fld := ⟨0x40006094 + 0x1000 * b, 22, 1⟩
/-! Fields of DBG (chapter 21). -/

def DBG_STAT_OPEN : Fld := ⟨0x40020000, 0, 1⟩
def DBG_STAT_HALT : Fld := ⟨0x40020000, 1, 4⟩
def DBG_STAT_TRACE : Fld := ⟨0x40020000, 5, 1⟩
def DBG_TRACE_SRC : Fld := ⟨0x40020004, 0, 4⟩
/-! Fields of SENT (chapter 05). -/

def SENT_CFG_EN (i : Nat) : Fld := ⟨0x40008000 + 32 * i, 0, 1⟩
def SENT_CFG_TICK (i : Nat) : Fld := ⟨0x40008000 + 32 * i, 1, 10⟩
def SENT_CFG_NIB (i : Nat) : Fld := ⟨0x40008000 + 32 * i, 11, 3⟩
def SENT_CFG_CRCMODE (i : Nat) : Fld := ⟨0x40008000 + 32 * i, 14, 1⟩
def SENT_CFG_PAUSE (i : Nat) : Fld := ⟨0x40008000 + 32 * i, 15, 1⟩
def SENT_CFG_ERRLIM (i : Nat) : Fld := ⟨0x40008000 + 32 * i, 16, 4⟩
def SENT_CFG_TMO (i : Nat) : Fld := ⟨0x40008000 + 32 * i, 20, 8⟩
def SENT_MAP_BITS (i : Nat) : Fld := ⟨0x40008004 + 32 * i, 0, 5⟩
def SENT_MAP_LSB (i : Nat) : Fld := ⟨0x40008004 + 32 * i, 5, 5⟩
def SENT_MAP_PP (i : Nat) : Fld := ⟨0x40008004 + 32 * i, 10, 5⟩
def SENT_MAP_DIRINV (i : Nat) : Fld := ⟨0x40008004 + 32 * i, 15, 1⟩
def SENT_OFS_EOFS (i : Nat) : Fld := ⟨0x40008008 + 32 * i, 0, 20⟩
def SENT_OFS_LAT (i : Nat) : Fld := ⟨0x40008008 + 32 * i, 20, 12⟩
def SENT_DATA_DATA (i : Nat) : Fld := ⟨0x4000800C + 32 * i, 0, 24⟩
def SENT_DATA_STATUS (i : Nat) : Fld := ⟨0x4000800C + 32 * i, 24, 4⟩
def SENT_MECH_MECH (i : Nat) : Fld := ⟨0x40008010 + 32 * i, 0, 24⟩
def SENT_SLOW_SDATA (i : Nat) : Fld := ⟨0x40008014 + 32 * i, 0, 16⟩
def SENT_SLOW_SID (i : Nat) : Fld := ⟨0x40008014 + 32 * i, 16, 8⟩
def SENT_SLOW_NEW (i : Nat) : Fld := ⟨0x40008014 + 32 * i, 31, 1⟩
def SENT_STAT_VALID (i : Nat) : Fld := ⟨0x40008018 + 32 * i, 0, 1⟩
def SENT_STAT_SPDVALID (i : Nat) : Fld := ⟨0x40008018 + 32 * i, 1, 1⟩
def SENT_STAT_LOWCONF (i : Nat) : Fld := ⟨0x40008018 + 32 * i, 2, 1⟩
def SENT_STAT_ACCERR (i : Nat) : Fld := ⟨0x40008018 + 32 * i, 3, 1⟩
def SENT_STAT_CRCERR (i : Nat) : Fld := ⟨0x40008018 + 32 * i, 8, 8⟩
def SENT_STAT_FRMERR (i : Nat) : Fld := ⟨0x40008018 + 32 * i, 16, 8⟩
def SENT_STAT_CRCOVF (i : Nat) : Fld := ⟨0x40008018 + 32 * i, 24, 1⟩
def SENT_STAT_FRMOVF (i : Nat) : Fld := ⟨0x40008018 + 32 * i, 25, 1⟩
def SENT_STAT_REVAL (i : Nat) : Fld := ⟨0x40008018 + 32 * i, 31, 1⟩
def SENT_SPEED_SPEED (i : Nat) : Fld := ⟨0x4000801C + 32 * i, 0, 32⟩
/-! Fields of EMU (chapter 05). -/

def EMU_CTRL_EN : Fld := ⟨0x40009000, 0, 1⟩
def EMU_CTRL_SRC : Fld := ⟨0x40009000, 1, 3⟩
def EMU_CTRL_DIRINV : Fld := ⟨0x40009000, 4, 1⟩
def EMU_CFG_LINES : Fld := ⟨0x40009004, 0, 16⟩
def EMU_CFG_TMIN : Fld := ⟨0x40009004, 16, 8⟩
def EMU_ZPOS_ZPOS : Fld := ⟨0x40009008, 0, 18⟩
def EMU_STAT_RUN : Fld := ⟨0x4000900C, 0, 1⟩
def EMU_STAT_FROZEN : Fld := ⟨0x4000900C, 1, 1⟩
def EMU_STAT_LAG : Fld := ⟨0x4000900C, 2, 1⟩
def EMU_STAT_ACCERR : Fld := ⟨0x4000900C, 3, 1⟩
def EMU_STAT_OUTCNT : Fld := ⟨0x4000900C, 4, 18⟩
/-! Fields of ISNS (chapter 06). -/

def ISNS_CTRL_ENA : Fld := ⟨0x4000A000, 0, 1⟩
def ISNS_CTRL_ENB : Fld := ⟨0x4000A000, 1, 1⟩
def ISNS_CTRL_EXTA : Fld := ⟨0x4000A000, 2, 1⟩
def ISNS_CTRL_EXTB : Fld := ⟨0x4000A000, 3, 1⟩
def ISNS_CTRL_MCLK10 : Fld := ⟨0x4000A000, 4, 1⟩
def ISNS_STAT_VALID : Fld := ⟨0x4000A004, 0, 4⟩
def ISNS_STAT_SAT : Fld := ⟨0x4000A004, 4, 4⟩
def ISNS_STAT_RANGE : Fld := ⟨0x4000A004, 8, 4⟩
def ISNS_STAT_STUCK : Fld := ⟨0x4000A004, 12, 4⟩
def ISNS_STAT_TMO : Fld := ⟨0x4000A004, 16, 2⟩
def ISNS_STAT_WDROP : Fld := ⟨0x4000A004, 18, 2⟩
def ISNS_STAT_TDROP : Fld := ⟨0x4000A004, 20, 1⟩
def ISNS_STAT_I3SAT : Fld := ⟨0x4000A004, 21, 1⟩
def ISNS_STAT_CALBUSY : Fld := ⟨0x4000A004, 22, 2⟩
def ISNS_STAT_CALABT : Fld := ⟨0x4000A004, 24, 2⟩
def ISNS_STAT_CALFLT : Fld := ⟨0x4000A004, 26, 4⟩
def ISNS_STAT_ACCERR : Fld := ⟨0x4000A004, 30, 1⟩
def ISNS_SEQ_SEQA : Fld := ⟨0x4000A008, 0, 16⟩
def ISNS_SEQ_SEQB : Fld := ⟨0x4000A008, 16, 16⟩
def ISNS_REVAL_REVAL : Fld := ⟨0x4000A00C, 0, 4⟩
def ISNS_CHCFG_FSR (i : Nat) : Fld := ⟨0x4000A010 + 4 * i, 0, 2⟩
def ISNS_CHCFG_INV (i : Nat) : Fld := ⟨0x4000A010 + 4 * i, 2, 1⟩
def ISNS_CHCFG_LIM (i : Nat) : Fld := ⟨0x4000A010 + 4 * i, 3, 8⟩
def ISNS_CHRES_RES (i : Nat) : Fld := ⟨0x4000A020 + 4 * i, 0, 20⟩
def ISNS_CHTRIM_OFS (i : Nat) : Fld := ⟨0x4000A030 + 4 * i, 0, 16⟩
def ISNS_CHTRIM_GAIN (i : Nat) : Fld := ⟨0x4000A030 + 4 * i, 16, 12⟩
def ISNS_WIN_OSRC (i : Nat) : Fld := ⟨0x4000A040 + 4 * i, 0, 3⟩
def ISNS_WIN_TEN (i : Nat) : Fld := ⟨0x4000A040 + 4 * i, 3, 1⟩
def ISNS_WIN_ENG (i : Nat) : Fld := ⟨0x4000A040 + 4 * i, 4, 3⟩
def ISNS_WIN_EP (i : Nat) : Fld := ⟨0x4000A040 + 4 * i, 7, 8⟩
def ISNS_I3_I3 (i : Nat) : Fld := ⟨0x4000A060 + 4 * i, 0, 20⟩
def ISNS_TMO_SMPTMO_A : Fld := ⟨0x4000A068, 0, 4⟩
def ISNS_TMO_SMPTMO_B : Fld := ⟨0x4000A068, 4, 4⟩
def ISNS_CAL_CALREQ : Fld := ⟨0x4000A06C, 0, 2⟩
def ISNS_CNT_SATCNT (i : Nat) : Fld := ⟨0x4000A070 + 4 * i, 0, 8⟩
def ISNS_CNT_RNGCNT (i : Nat) : Fld := ⟨0x4000A070 + 4 * i, 8, 8⟩
def ISNS_CNT_SATOVF (i : Nat) : Fld := ⟨0x4000A070 + 4 * i, 16, 1⟩
def ISNS_CNT_RNGOVF (i : Nat) : Fld := ⟨0x4000A070 + 4 * i, 17, 1⟩
def ISNS_DROPCNT_WDCNTA : Fld := ⟨0x4000A080, 0, 8⟩
def ISNS_DROPCNT_WDCNTB : Fld := ⟨0x4000A080, 8, 8⟩
def ISNS_DROPCNT_TDCNT : Fld := ⟨0x4000A080, 16, 8⟩
def ISNS_DROPCNT_OVF : Fld := ⟨0x4000A080, 24, 3⟩
def ISNS_MEAN_MEAN (i : Nat) : Fld := ⟨0x4000A090 + 4 * i, 0, 20⟩
def ISNS_MSEQ_MSEQ : Fld := ⟨0x4000A0A0, 0, 16⟩
def ISNS_MSEQ_EMPTY : Fld := ⟨0x4000A0A0, 16, 4⟩
/-! Fields of HLE (chapter 07). -/

def HLE_CTRL_EN : Fld := ⟨0x4000B000, 0, 7⟩
def HLE_STAT_BUSY : Fld := ⟨0x4000B004, 0, 7⟩
def HLE_STAT_FAULT : Fld := ⟨0x4000B004, 8, 7⟩
def HLE_STAT_PEND : Fld := ⟨0x4000B004, 16, 7⟩
def HLE_STAT_ACCERR : Fld := ⟨0x4000B004, 23, 1⟩
def HLE_MAP_SUBST : Fld := ⟨0x4000B008, 0, 3⟩
def HLE_MAP_FAILED : Fld := ⟨0x4000B008, 8, 8⟩
def HLE_SWTRIG_ENG : Fld := ⟨0x4000B00C, 0, 3⟩
def HLE_SWTRIG_EP : Fld := ⟨0x4000B00C, 8, 8⟩
def HLE_ENGCTRL_OPEN (i : Nat) : Fld := ⟨0x4000B100 + 64 * i, 0, 1⟩
def HLE_ENGCTRL_BANK (i : Nat) : Fld := ⟨0x4000B100 + 64 * i, 1, 1⟩
def HLE_ENGCTRL_LIVEWR (i : Nat) : Fld := ⟨0x4000B100 + 64 * i, 2, 1⟩
def HLE_ENGCTRL_BIND (i : Nat) : Fld := ⟨0x4000B100 + 64 * i, 3, 2⟩
def HLE_ENGCTRL_RESTART (i : Nat) : Fld := ⟨0x4000B100 + 64 * i, 5, 1⟩
def HLE_ENGSTAT_OPENACT (i : Nat) : Fld := ⟨0x4000B104 + 64 * i, 0, 1⟩
def HLE_ENGSTAT_BANKACT (i : Nat) : Fld := ⟨0x4000B104 + 64 * i, 1, 1⟩
def HLE_ENGSTAT_SWPEND (i : Nat) : Fld := ⟨0x4000B104 + 64 * i, 2, 1⟩
def HLE_ENGSTAT_BUSY (i : Nat) : Fld := ⟨0x4000B104 + 64 * i, 3, 1⟩
def HLE_ENGSTAT_FAULT (i : Nat) : Fld := ⟨0x4000B104 + 64 * i, 4, 1⟩
def HLE_ENGSTAT_CAUSE (i : Nat) : Fld := ⟨0x4000B104 + 64 * i, 5, 3⟩
def HLE_ENGSTAT_HWFAIL (i : Nat) : Fld := ⟨0x4000B104 + 64 * i, 8, 1⟩
def HLE_ENGSTAT_SAT (i : Nat) : Fld := ⟨0x4000B104 + 64 * i, 9, 1⟩
def HLE_ENGSTAT_AOVF (i : Nat) : Fld := ⟨0x4000B104 + 64 * i, 10, 1⟩
def HLE_ENGSTAT_DROP (i : Nat) : Fld := ⟨0x4000B104 + 64 * i, 11, 1⟩
def HLE_ENGSTAT_ACCERR (i : Nat) : Fld := ⟨0x4000B104 + 64 * i, 12, 1⟩
def HLE_ENGTRG0_INA_EN (i : Nat) : Fld := ⟨0x4000B108 + 64 * i, 0, 1⟩
def HLE_ENGTRG0_INA_EP (i : Nat) : Fld := ⟨0x4000B108 + 64 * i, 1, 8⟩
def HLE_ENGTRG0_INB_EN (i : Nat) : Fld := ⟨0x4000B108 + 64 * i, 16, 1⟩
def HLE_ENGTRG0_INB_EP (i : Nat) : Fld := ⟨0x4000B108 + 64 * i, 17, 8⟩
def HLE_ENGTRG1_OUTA_EN (i : Nat) : Fld := ⟨0x4000B10C + 64 * i, 0, 1⟩
def HLE_ENGTRG1_OUTA_EP (i : Nat) : Fld := ⟨0x4000B10C + 64 * i, 1, 8⟩
def HLE_ENGTRG1_OUTB_EN (i : Nat) : Fld := ⟨0x4000B10C + 64 * i, 16, 1⟩
def HLE_ENGTRG1_OUTB_EP (i : Nat) : Fld := ⟨0x4000B10C + 64 * i, 17, 8⟩
def HLE_ENGTRG2_E0_EN (i : Nat) : Fld := ⟨0x4000B110 + 64 * i, 0, 1⟩
def HLE_ENGTRG2_E0_EP (i : Nat) : Fld := ⟨0x4000B110 + 64 * i, 1, 8⟩
def HLE_ENGTRG2_E1_EN (i : Nat) : Fld := ⟨0x4000B110 + 64 * i, 16, 1⟩
def HLE_ENGTRG2_E1_EP (i : Nat) : Fld := ⟨0x4000B110 + 64 * i, 17, 8⟩
def HLE_ENGWDOG_LIMIT (i : Nat) : Fld := ⟨0x4000B114 + 64 * i, 0, 16⟩
def HLE_ENGFPC_PC (i : Nat) : Fld := ⟨0x4000B118 + 64 * i, 0, 12⟩
def HLE_ENGCYC_LAST (i : Nat) : Fld := ⟨0x4000B11C + 64 * i, 0, 16⟩
def HLE_ENGCYC_MAX (i : Nat) : Fld := ⟨0x4000B11C + 64 * i, 16, 16⟩
def HLE_ENGCNT_DROPCNT (i : Nat) : Fld := ⟨0x4000B120 + 64 * i, 0, 15⟩
def HLE_ENGCNT_DROPOVF (i : Nat) : Fld := ⟨0x4000B120 + 64 * i, 15, 1⟩
def HLE_ENGCNT_SATCNT (i : Nat) : Fld := ⟨0x4000B120 + 64 * i, 16, 15⟩
def HLE_ENGCNT_SATOVF (i : Nat) : Fld := ⟨0x4000B120 + 64 * i, 31, 1⟩
/-! Fields of MC (chapter 09). -/

def MC_CTRL_EN (b : Nat) : Fld := ⟨0x4000C000 + 0x1000 * b, 0, 1⟩
def MC_CTRL_MODE_REQ (b : Nat) : Fld := ⟨0x4000C000 + 0x1000 * b, 1, 2⟩
def MC_CTRL_START (b : Nat) : Fld := ⟨0x4000C000 + 0x1000 * b, 3, 1⟩
def MC_CTRL_DIRREQ (b : Nat) : Fld := ⟨0x4000C000 + 0x1000 * b, 4, 2⟩
def MC_CTRL_SSAUTO (b : Nat) : Fld := ⟨0x4000C000 + 0x1000 * b, 6, 1⟩
def MC_CTRL_TWOLEG (b : Nat) : Fld := ⟨0x4000C000 + 0x1000 * b, 7, 1⟩
def MC_STAT_MODE (b : Nat) : Fld := ⟨0x4000C004 + 0x1000 * b, 0, 3⟩
def MC_STAT_SECTOR (b : Nat) : Fld := ⟨0x4000C004 + 0x1000 * b, 3, 3⟩
def MC_STAT_LOS (b : Nat) : Fld := ⟨0x4000C004 + 0x1000 * b, 6, 1⟩
def MC_STAT_CLAMP (b : Nat) : Fld := ⟨0x4000C004 + 0x1000 * b, 7, 1⟩
def MC_STAT_RANGE (b : Nat) : Fld := ⟨0x4000C004 + 0x1000 * b, 8, 1⟩
def MC_STAT_REFUSED (b : Nat) : Fld := ⟨0x4000C004 + 0x1000 * b, 9, 1⟩
def MC_STAT_REFCODE (b : Nat) : Fld := ⟨0x4000C004 + 0x1000 * b, 10, 2⟩
def MC_STAT_DEGR (b : Nat) : Fld := ⟨0x4000C004 + 0x1000 * b, 12, 1⟩
def MC_STAT_LEGOUT (b : Nat) : Fld := ⟨0x4000C004 + 0x1000 * b, 13, 3⟩
def MC_STAT_CHREQ (b : Nat) : Fld := ⟨0x4000C004 + 0x1000 * b, 16, 1⟩
def MC_STAT_ACCERR (b : Nat) : Fld := ⟨0x4000C004 + 0x1000 * b, 17, 1⟩
def MC_DUTY_DUTY (b i : Nat) : Fld := ⟨0x4000C008 + 0x1000 * b + 4 * i, 0, 20⟩
def MC_SSDUTY_SSDUTY (b : Nat) : Fld := ⟨0x4000C014 + 0x1000 * b, 0, 20⟩
def MC_DCEIL_DMAX (b : Nat) : Fld := ⟨0x4000C018 + 0x1000 * b, 0, 20⟩
def MC_ICLAMP_ICLAMP (b : Nat) : Fld := ⟨0x4000C01C + 0x1000 * b, 0, 8⟩
def MC_ICLAMP_CLPER (b : Nat) : Fld := ⟨0x4000C01C + 0x1000 * b, 8, 8⟩
def MC_SSMIN_SSMIN (b : Nat) : Fld := ⟨0x4000C020 + 0x1000 * b, 0, 24⟩
def MC_ZC_ZCBLANK (b : Nat) : Fld := ⟨0x4000C024 + 0x1000 * b, 0, 8⟩
def MC_ZC_ZCSETTLE (b : Nat) : Fld := ⟨0x4000C024 + 0x1000 * b, 8, 8⟩
def MC_ZC_ZCAVG (b : Nat) : Fld := ⟨0x4000C024 + 0x1000 * b, 16, 3⟩
def MC_ZC_ZCMISS (b : Nat) : Fld := ⟨0x4000C024 + 0x1000 * b, 20, 4⟩
def MC_ZCOFS_ZCOFS (b : Nat) : Fld := ⟨0x4000C028 + 0x1000 * b, 0, 20⟩
def MC_WIN_WINLO (b : Nat) : Fld := ⟨0x4000C02C + 0x1000 * b, 0, 8⟩
def MC_WIN_WINHI (b : Nat) : Fld := ⟨0x4000C02C + 0x1000 * b, 8, 8⟩
def MC_WIN_LOSMAX (b : Nat) : Fld := ⟨0x4000C02C + 0x1000 * b, 16, 4⟩
def MC_WIN_COASTMIN (b : Nat) : Fld := ⟨0x4000C02C + 0x1000 * b, 20, 8⟩
def MC_LISTEN_LISTEN (b : Nat) : Fld := ⟨0x4000C030 + 0x1000 * b, 0, 8⟩
def MC_CATCHLO_SPEED (b : Nat) : Fld := ⟨0x4000C034 + 0x1000 * b, 0, 24⟩
def MC_CATCHHI_SPEED (b : Nat) : Fld := ⟨0x4000C038 + 0x1000 * b, 0, 24⟩
def MC_BRAKEMAX_SPEED (b : Nat) : Fld := ⟨0x4000C03C + 0x1000 * b, 0, 24⟩
def MC_IBRK_IBRK (b : Nat) : Fld := ⟨0x4000C040 + 0x1000 * b, 0, 20⟩
def MC_DEC0_VREG (b : Nat) : Fld := ⟨0x4000C044 + 0x1000 * b, 0, 16⟩
def MC_DEC0_VBURN (b : Nat) : Fld := ⟨0x4000C044 + 0x1000 * b, 16, 16⟩
def MC_DEC1_VCHREQ (b : Nat) : Fld := ⟨0x4000C048 + 0x1000 * b, 0, 16⟩
def MC_DEC2_IDBMAX (b : Nat) : Fld := ⟨0x4000C04C + 0x1000 * b, 0, 20⟩
def MC_DEC3_RGLMIN (b : Nat) : Fld := ⟨0x4000C050 + 0x1000 * b, 0, 20⟩
def MC_RGL_RGL (b : Nat) : Fld := ⟨0x4000C054 + 0x1000 * b, 0, 20⟩
def MC_IDBURN_IDBURN (b : Nat) : Fld := ⟨0x4000C058 + 0x1000 * b, 0, 20⟩
def MC_VMOT_VMOT (b : Nat) : Fld := ⟨0x4000C05C + 0x1000 * b, 0, 16⟩
def MC_COMP_LCODE (b : Nat) : Fld := ⟨0x4000C060 + 0x1000 * b, 0, 3⟩
def MC_COMP_PCOMP (b : Nat) : Fld := ⟨0x4000C060 + 0x1000 * b, 3, 3⟩
def MC_ESTSPD_ESTSPD (b : Nat) : Fld := ⟨0x4000C064 + 0x1000 * b, 0, 32⟩
def MC_ZCINT_ZCINT (b : Nat) : Fld := ⟨0x4000C068 + 0x1000 * b, 0, 24⟩
def MC_CAP2_CAP2 (b : Nat) : Fld := ⟨0x4000C06C + 0x1000 * b, 0, 10⟩
def MC_CNT_LOSCNT (b : Nat) : Fld := ⟨0x4000C070 + 0x1000 * b, 0, 8⟩
def MC_CNT_CLPCNT (b : Nat) : Fld := ⟨0x4000C070 + 0x1000 * b, 8, 8⟩
def MC_CNT_ZCMCNT (b : Nat) : Fld := ⟨0x4000C070 + 0x1000 * b, 16, 8⟩
def MC_CNT_OVF (b : Nat) : Fld := ⟨0x4000C070 + 0x1000 * b, 24, 3⟩
/-! Fields of GD (chapter 10). -/

def GD_CTRL_EN (b : Nat) : Fld := ⟨0x4000E000 + 0x1000 * b, 0, 1⟩
def GD_CTRL_ILMODE (b : Nat) : Fld := ⟨0x4000E000 + 0x1000 * b, 1, 1⟩
def GD_CTRL_LLSTATE (b : Nat) : Fld := ⟨0x4000E000 + 0x1000 * b, 2, 1⟩
def GD_CTRL_ASSIDE (b : Nat) : Fld := ⟨0x4000E000 + 0x1000 * b, 3, 1⟩
def GD_CTRL_LEGEN (b : Nat) : Fld := ⟨0x4000E000 + 0x1000 * b, 4, 3⟩
def GD_STAT_LEGOUT (b : Nat) : Fld := ⟨0x4000E004 + 0x1000 * b, 0, 3⟩
def GD_STAT_BOUT (b : Nat) : Fld := ⟨0x4000E004 + 0x1000 * b, 3, 1⟩
def GD_STAT_ASACT (b : Nat) : Fld := ⟨0x4000E004 + 0x1000 * b, 4, 1⟩
def GD_STAT_ASEL (b : Nat) : Fld := ⟨0x4000E004 + 0x1000 * b, 5, 1⟩
def GD_STAT_LLOSS (b : Nat) : Fld := ⟨0x4000E004 + 0x1000 * b, 6, 1⟩
def GD_STAT_XON (b : Nat) : Fld := ⟨0x4000E004 + 0x1000 * b, 7, 1⟩
def GD_STAT_SLOPETO (b : Nat) : Fld := ⟨0x4000E004 + 0x1000 * b, 8, 1⟩
def GD_STAT_SEGDEG (b : Nat) : Fld := ⟨0x4000E004 + 0x1000 * b, 9, 1⟩
def GD_STAT_ACCERR (b : Nat) : Fld := ⟨0x4000E004 + 0x1000 * b, 10, 1⟩
def GD_LEGFLT_HSCH (b i : Nat) : Fld := ⟨0x4000E008 + 0x1000 * b + 4 * i, 0, 1⟩
def GD_LEGFLT_HSCL (b i : Nat) : Fld := ⟨0x4000E008 + 0x1000 * b + 4 * i, 1, 1⟩
def GD_LEGFLT_NSCH (b i : Nat) : Fld := ⟨0x4000E008 + 0x1000 * b + 4 * i, 2, 1⟩
def GD_LEGFLT_NSCL (b i : Nat) : Fld := ⟨0x4000E008 + 0x1000 * b + 4 * i, 3, 1⟩
def GD_LEGFLT_BST (b i : Nat) : Fld := ⟨0x4000E008 + 0x1000 * b + 4 * i, 4, 1⟩
def GD_LEGFLT_GATEH (b i : Nat) : Fld := ⟨0x4000E008 + 0x1000 * b + 4 * i, 5, 1⟩
def GD_LEGFLT_GATEL (b i : Nat) : Fld := ⟨0x4000E008 + 0x1000 * b + 4 * i, 6, 1⟩
def GD_LEGFLT_SEG (b i : Nat) : Fld := ⟨0x4000E008 + 0x1000 * b + 4 * i, 7, 1⟩
def GD_PROFON_PRESRC (b : Nat) : Fld := ⟨0x4000E020 + 0x1000 * b, 0, 4⟩
def GD_PROFON_PREON (b : Nat) : Fld := ⟨0x4000E020 + 0x1000 * b, 4, 6⟩
def GD_PROFON_PLXON (b : Nat) : Fld := ⟨0x4000E020 + 0x1000 * b, 10, 6⟩
def GD_PROFON_SLOPE (b : Nat) : Fld := ⟨0x4000E020 + 0x1000 * b, 16, 6⟩
def GD_PROFOFF_PRESNK (b : Nat) : Fld := ⟨0x4000E024 + 0x1000 * b, 0, 4⟩
def GD_PROFOFF_PREOFF (b : Nat) : Fld := ⟨0x4000E024 + 0x1000 * b, 4, 6⟩
def GD_PROFOFF_PLXOFF (b : Nat) : Fld := ⟨0x4000E024 + 0x1000 * b, 10, 6⟩
def GD_PROFOFF_SLOPE (b : Nat) : Fld := ⟨0x4000E024 + 0x1000 * b, 16, 6⟩
def GD_WATCH_VGSOFF (b : Nat) : Fld := ⟨0x4000E028 + 0x1000 * b, 0, 4⟩
def GD_WATCH_GWTMO (b : Nat) : Fld := ⟨0x4000E028 + 0x1000 * b, 4, 7⟩
def GD_WATCH_SLTMO (b : Nat) : Fld := ⟨0x4000E028 + 0x1000 * b, 11, 6⟩
def GD_WATCH_VSAG (b : Nat) : Fld := ⟨0x4000E028 + 0x1000 * b, 17, 6⟩
def GD_DT_DT (b : Nat) : Fld := ⟨0x4000E02C + 0x1000 * b, 0, 9⟩
def GD_SC_NTH (b : Nat) : Fld := ⟨0x4000E030 + 0x1000 * b, 0, 8⟩
def GD_SC_BLANK (b : Nat) : Fld := ⟨0x4000E030 + 0x1000 * b, 8, 6⟩
def GD_SC_SCSINK (b : Nat) : Fld := ⟨0x4000E030 + 0x1000 * b, 14, 4⟩
def GD_ASTHR_ASTHR (b : Nat) : Fld := ⟨0x4000E034 + 0x1000 * b, 0, 24⟩
def GD_SNSTRIM_TRIM (b i : Nat) : Fld := ⟨0x4000E040 + 0x1000 * b + 4 * i, 0, 8⟩
def GD_SEG_DIS (b i : Nat) : Fld := ⟨0x4000E060 + 0x1000 * b + 4 * i, 0, 16⟩
def GD_SEG_NDIS (b i : Nat) : Fld := ⟨0x4000E060 + 0x1000 * b + 4 * i, 16, 5⟩
def GD_SEG_FAILED (b i : Nat) : Fld := ⟨0x4000E060 + 0x1000 * b + 4 * i, 21, 1⟩
def GD_GW_ON (b : Nat) : Fld := ⟨0x4000E080 + 0x1000 * b, 0, 6⟩
def GD_GW_CMD (b : Nat) : Fld := ⟨0x4000E080 + 0x1000 * b, 6, 6⟩
def GD_CNT0_HSCCNT (b : Nat) : Fld := ⟨0x4000E084 + 0x1000 * b, 0, 8⟩
def GD_CNT0_NSCCNT (b : Nat) : Fld := ⟨0x4000E084 + 0x1000 * b, 8, 8⟩
def GD_CNT0_XONCNT (b : Nat) : Fld := ⟨0x4000E084 + 0x1000 * b, 16, 8⟩
def GD_CNT0_OVF (b : Nat) : Fld := ⟨0x4000E084 + 0x1000 * b, 24, 3⟩
def GD_CNT1_SLTOCNT (b : Nat) : Fld := ⟨0x4000E088 + 0x1000 * b, 0, 8⟩
def GD_CNT1_SAGCNT (b : Nat) : Fld := ⟨0x4000E088 + 0x1000 * b, 8, 8⟩
def GD_CNT1_OVF (b : Nat) : Fld := ⟨0x4000E088 + 0x1000 * b, 16, 2⟩
/-! Fields of VBUS (chapter 10). -/

def VBUS_CTRL_DRVSRC : Fld := ⟨0x40010000, 0, 1⟩
def VBUS_CTRL_DRVLVL : Fld := ⟨0x40010000, 1, 2⟩
def VBUS_STAT_OV1 : Fld := ⟨0x40010004, 0, 1⟩
def VBUS_STAT_OV2 : Fld := ⟨0x40010004, 1, 1⟩
def VBUS_STAT_OV1EV : Fld := ⟨0x40010004, 2, 1⟩
def VBUS_STAT_OV2EV : Fld := ⟨0x40010004, 3, 1⟩
def VBUS_STAT_VMUV : Fld := ⟨0x40010004, 4, 1⟩
def VBUS_STAT_DRVUV : Fld := ⟨0x40010004, 5, 1⟩
def VBUS_STAT_CHOP : Fld := ⟨0x40010004, 6, 1⟩
def VBUS_STAT_VMIS : Fld := ⟨0x40010004, 7, 1⟩
def VBUS_STAT_ACCERR : Fld := ⟨0x40010004, 8, 1⟩
def VBUS_OVTH_OV1TH : Fld := ⟨0x40010008, 0, 8⟩
def VBUS_OVTH_OV2TH : Fld := ⟨0x40010008, 8, 8⟩
def VBUS_OVTH_OVHYS : Fld := ⟨0x40010008, 16, 4⟩
def VBUS_VMOT_VMOT : Fld := ⟨0x4001000C, 0, 16⟩
def VBUS_VCMP_VTOL : Fld := ⟨0x40010010, 0, 8⟩
def VBUS_VDRV_VDRV : Fld := ⟨0x40010014, 0, 16⟩
def VBUS_CNT_OV1CNT : Fld := ⟨0x40010018, 0, 8⟩
def VBUS_CNT_OV2CNT : Fld := ⟨0x40010018, 8, 8⟩
def VBUS_CNT_UVCNT : Fld := ⟨0x40010018, 16, 8⟩
def VBUS_CNT_OVF : Fld := ⟨0x40010018, 24, 3⟩
/-! Fields of CONT (chapter 11). -/

def CONT_CTRL_EN : Fld := ⟨0x40013000, 0, 1⟩
def CONT_CTRL_WDREQ : Fld := ⟨0x40013000, 1, 1⟩
def CONT_STAT_ROLE : Fld := ⟨0x40013004, 0, 2⟩
def CONT_STAT_QUAL : Fld := ⟨0x40013004, 2, 1⟩
def CONT_STAT_FORMING : Fld := ⟨0x40013004, 3, 1⟩
def CONT_STAT_SETSTATE : Fld := ⟨0x40013004, 4, 2⟩
def CONT_STAT_EDEG : Fld := ⟨0x40013004, 6, 1⟩
def CONT_STAT_JOINED : Fld := ⟨0x40013004, 7, 1⟩
def CONT_STAT_LATE : Fld := ⟨0x40013004, 8, 1⟩
def CONT_STAT_MISCMP : Fld := ⟨0x40013004, 9, 1⟩
def CONT_STAT_TWOLEAD : Fld := ⟨0x40013004, 10, 1⟩
def CONT_STAT_BEATFLT : Fld := ⟨0x40013004, 11, 1⟩
def CONT_STAT_SLATEFLT : Fld := ⟨0x40013004, 12, 1⟩
def CONT_STAT_SHAREFLT : Fld := ⟨0x40013004, 13, 1⟩
def CONT_STAT_ACCERR : Fld := ⟨0x40013004, 14, 1⟩
def CONT_SHARES_SHA : Fld := ⟨0x40013008, 0, 10⟩
def CONT_SHARES_SHB : Fld := ⟨0x40013008, 10, 10⟩
def CONT_SHARES_SHC : Fld := ⟨0x40013008, 20, 10⟩
def CONT_CAP_CAP : Fld := ⟨0x4001300C, 0, 10⟩
def CONT_D_D : Fld := ⟨0x40013010, 0, 20⟩
def CONT_LDEM_LDEM : Fld := ⟨0x40013014, 0, 20⟩
def CONT_DADDR_ADDR : Fld := ⟨0x40013018, 0, 22⟩
def CONT_CFCFG_CFDLY : Fld := ⟨0x4001301C, 0, 8⟩
def CONT_CFCFG_NST : Fld := ⟨0x4001301C, 8, 6⟩
def CONT_CFCFG_STBASE : Fld := ⟨0x4001301C, 14, 11⟩
def CONT_CFCFG_OENG : Fld := ⟨0x4001301C, 25, 3⟩
def CONT_CMP_CMPTOL : Fld := ⟨0x40013020, 0, 3⟩
def CONT_CMP_CMPN : Fld := ⟨0x40013020, 3, 4⟩
def CONT_CMP_QUALN : Fld := ⟨0x40013020, 7, 5⟩
def CONT_LS_LSPER : Fld := ⟨0x40013024, 0, 4⟩
def CONT_LS_LSMISS : Fld := ⟨0x40013024, 4, 4⟩
def CONT_LS_LSID : Fld := ⟨0x40013024, 8, 11⟩
def CONT_JOIN_JMODE : Fld := ⟨0x40013028, 0, 11⟩
def CONT_JOIN_XDL : Fld := ⟨0x40013028, 11, 15⟩
def CONT_SWAP_REQ : Fld := ⟨0x4001302C, 0, 1⟩
def CONT_SWAP_BANK : Fld := ⟨0x4001302C, 1, 1⟩
def CONT_SWAP_PEND : Fld := ⟨0x4001302C, 2, 1⟩
def CONT_SWAP_DONE : Fld := ⟨0x4001302C, 3, 1⟩
def CONT_SWAP_CYC : Fld := ⟨0x4001302C, 4, 16⟩
def CONT_SB_LANE : Fld := ⟨0x40013030, 0, 2⟩
def CONT_SB_SBSTEP : Fld := ⟨0x40013030, 2, 10⟩
def CONT_SB_GO : Fld := ⟨0x40013030, 12, 1⟩
def CONT_SB_HAND : Fld := ⟨0x40013030, 13, 1⟩
def CONT_SB_BUSY : Fld := ⟨0x40013030, 14, 1⟩
def CONT_SB_DONE : Fld := ⟨0x40013030, 15, 1⟩
def CONT_SB_REFUSED : Fld := ⟨0x40013030, 16, 1⟩
def CONT_APP_APP (i : Nat) : Fld := ⟨0x40013034 + 4 * i, 0, 32⟩
def CONT_SPSEQ_SPSEQ : Fld := ⟨0x4001303C, 0, 32⟩
def CONT_CYC_CYC : Fld := ⟨0x40013040, 0, 16⟩
def CONT_PEER_ROLE (j : Nat) : Fld := ⟨0x40013044, 8 * j, 2⟩
def CONT_PEER_LINK (j : Nat) : Fld := ⟨0x40013044, 8 * j + 2, 1⟩
def CONT_PEER_BEAT (j : Nat) : Fld := ⟨0x40013044, 8 * j + 3, 1⟩
def CONT_PEER_LEVEL (j : Nat) : Fld := ⟨0x40013044, 8 * j + 4, 1⟩
def CONT_PEER_HEARD (j : Nat) : Fld := ⟨0x40013044, 8 * j + 5, 1⟩
def CONT_PEER_LOST (j : Nat) : Fld := ⟨0x40013044, 8 * j + 6, 1⟩
def CONT_LAST_KIND : Fld := ⟨0x40013048, 0, 3⟩
def CONT_LAST_FROM : Fld := ⟨0x40013048, 3, 2⟩
def CONT_LAST_TO : Fld := ⟨0x40013048, 5, 2⟩
def CONT_LAST_CYC : Fld := ⟨0x40013048, 7, 16⟩
def CONT_CNT_MISCNT : Fld := ⟨0x4001304C, 0, 8⟩
def CONT_CNT_CFMISS : Fld := ⟨0x4001304C, 8, 8⟩
def CONT_CNT_LATECNT : Fld := ⟨0x4001304C, 16, 8⟩
def CONT_CNT_OVF : Fld := ⟨0x4001304C, 24, 3⟩
def CONT_CFRX_WORD (i : Nat) : Fld := ⟨0x40013100 + 4 * i, 0, 32⟩
/-! Fields of EBP (chapter 11). -/

def EBP_CTRL_EN (b : Nat) : Fld := ⟨0x40011000 + 0x1000 * b, 0, 1⟩
def EBP_CTRL_LOSTMO (b : Nat) : Fld := ⟨0x40011000 + 0x1000 * b, 1, 4⟩
def EBP_CTRL_RETRAIN (b : Nat) : Fld := ⟨0x40011000 + 0x1000 * b, 5, 1⟩
def EBP_STAT_LOCK (b : Nat) : Fld := ⟨0x40011004 + 0x1000 * b, 0, 1⟩
def EBP_STAT_TRAINED (b : Nat) : Fld := ⟨0x40011004 + 0x1000 * b, 1, 1⟩
def EBP_STAT_LOST (b : Nat) : Fld := ⟨0x40011004 + 0x1000 * b, 2, 1⟩
def EBP_STAT_ABSENT (b : Nat) : Fld := ⟨0x40011004 + 0x1000 * b, 3, 1⟩
def EBP_STAT_PEER (b : Nat) : Fld := ⟨0x40011004 + 0x1000 * b, 4, 2⟩
def EBP_STAT_SLATELOCK (b : Nat) : Fld := ⟨0x40011004 + 0x1000 * b, 6, 1⟩
def EBP_STAT_LOSTEV (b : Nat) : Fld := ⟨0x40011004 + 0x1000 * b, 7, 1⟩
def EBP_STAT_SLATEFLT (b : Nat) : Fld := ⟨0x40011004 + 0x1000 * b, 8, 1⟩
def EBP_STAT_ACCERR (b : Nat) : Fld := ⟨0x40011004 + 0x1000 * b, 9, 1⟩
def EBP_STAT_XDROP (b : Nat) : Fld := ⟨0x40011004 + 0x1000 * b, 10, 1⟩
def EBP_DELAY_DELAY (b : Nat) : Fld := ⟨0x40011008 + 0x1000 * b, 0, 12⟩
def EBP_SLATE_ERR (b : Nat) : Fld := ⟨0x4001100C + 0x1000 * b, 0, 8⟩
def EBP_SLATE_TRIM (b : Nat) : Fld := ⟨0x4001100C + 0x1000 * b, 8, 16⟩
def EBP_XTX_ADDR (b : Nat) : Fld := ⟨0x40011010 + 0x1000 * b, 0, 22⟩
def EBP_XRX_ADDR (b : Nat) : Fld := ⟨0x40011014 + 0x1000 * b, 0, 11⟩
def EBP_CNT_CRCERR (b : Nat) : Fld := ⟨0x40011018 + 0x1000 * b, 0, 8⟩
def EBP_CNT_CODEERR (b : Nat) : Fld := ⟨0x40011018 + 0x1000 * b, 8, 8⟩
def EBP_CNT_LOSTCNT (b : Nat) : Fld := ⟨0x40011018 + 0x1000 * b, 16, 8⟩
def EBP_CNT_OVF (b : Nat) : Fld := ⟨0x40011018 + 0x1000 * b, 24, 3⟩
def EBP_FRAMES_RXOK (b : Nat) : Fld := ⟨0x4001101C + 0x1000 * b, 0, 16⟩
def EBP_FRAMES_TXOK (b : Nat) : Fld := ⟨0x4001101C + 0x1000 * b, 16, 16⟩
/-! Fields of SAFE (chapter 12). -/

def SAFE_STAT_CUT : Fld := ⟨0x40014000, 0, 1⟩
def SAFE_STAT_SEALED : Fld := ⟨0x40014000, 1, 1⟩
def SAFE_STAT_STOPN : Fld := ⟨0x40014000, 2, 1⟩
def SAFE_STAT_ARMED : Fld := ⟨0x40014000, 3, 1⟩
def SAFE_STAT_RJAM : Fld := ⟨0x40014000, 4, 1⟩
def SAFE_STAT_RESREF : Fld := ⟨0x40014000, 5, 1⟩
def SAFE_STAT_CLOSEREF : Fld := ⟨0x40014000, 6, 1⟩
def SAFE_STAT_ACCERR : Fld := ⟨0x40014000, 7, 1⟩
def SAFE_STAT_NMILS : Fld := ⟨0x40014000, 8, 1⟩
def SAFE_STAT_NMINS : Fld := ⟨0x40014000, 9, 1⟩
def SAFE_CAUSE_CAUSE : Fld := ⟨0x40014004, 0, 10⟩
def SAFE_CUT_SET : Fld := ⟨0x40014008, 0, 1⟩
def SAFE_CUT_VCAUSE : Fld := ⟨0x40014008, 1, 4⟩
def SAFE_CUT_CMDCLR : Fld := ⟨0x40014008, 8, 1⟩
def SAFE_CUT_KICK : Fld := ⟨0x40014008, 12, 1⟩
def SAFE_CLOSE_CLOSEA : Fld := ⟨0x4001400C, 0, 1⟩
def SAFE_CLOSE_CLOSEB : Fld := ⟨0x4001400C, 1, 1⟩
def SAFE_ISOFB_FB : Fld := ⟨0x40014010, 0, 4⟩
def SAFE_ISOFB_CONF : Fld := ⟨0x40014010, 4, 2⟩
def SAFE_ISOFB_FLTOPN : Fld := ⟨0x40014010, 8, 4⟩
def SAFE_ISOFB_FLTCLS : Fld := ⟨0x40014010, 12, 4⟩
def SAFE_ISOCFG_ISOFBT : Fld := ⟨0x40014014, 0, 8⟩
def SAFE_ICMP_TOL : Fld := ⟨0x40014018, 0, 12⟩
def SAFE_ICMP_VCMP_N : Fld := ⟨0x40014018, 12, 1⟩
def SAFE_RESUME_LAST : Fld := ⟨0x4001401C, 0, 16⟩
def SAFE_CNT_CUTCNT : Fld := ⟨0x40014020, 0, 8⟩
def SAFE_CNT_CLRCNT : Fld := ⟨0x40014020, 8, 8⟩
def SAFE_CNT_JAMCNT : Fld := ⟨0x40014020, 16, 8⟩
def SAFE_CNT_OVF : Fld := ⟨0x40014020, 24, 3⟩
/-! Fields of TWIN (chapter 12). -/

def TWIN_CTRL_EN : Fld := ⟨0x40019000, 0, 1⟩
def TWIN_CTRL_W : Fld := ⟨0x40019000, 1, 6⟩
def TWIN_CTRL_LOST0 : Fld := ⟨0x40019000, 7, 1⟩
def TWIN_CTRL_LOST1 : Fld := ⟨0x40019000, 8, 1⟩
def TWIN_STAT_EV : Fld := ⟨0x40019004, 0, 16⟩
def TWIN_STAT_STOPEV : Fld := ⟨0x40019004, 16, 1⟩
def TWIN_STAT_ACCERR : Fld := ⟨0x40019004, 17, 1⟩
def TWIN_PCFG_EN (i : Nat) : Fld := ⟨0x40019010 + 16 * i, 0, 1⟩
def TWIN_PCFG_OBJ0 (i : Nat) : Fld := ⟨0x40019010 + 16 * i, 1, 7⟩
def TWIN_PCFG_OBJ1 (i : Nat) : Fld := ⟨0x40019010 + 16 * i, 8, 7⟩
def TWIN_PCFG_POL (i : Nat) : Fld := ⟨0x40019010 + 16 * i, 15, 2⟩
def TWIN_PCFG_STOP (i : Nat) : Fld := ⟨0x40019010 + 16 * i, 17, 1⟩
def TWIN_PCFG_STOPVAL (i : Nat) : Fld := ⟨0x40019010 + 16 * i, 18, 8⟩
def TWIN_PSEQ_SEQ (i : Nat) : Fld := ⟨0x40019014 + 16 * i, 0, 16⟩
def TWIN_PSEQ_SINGLE (i : Nat) : Fld := ⟨0x40019014 + 16 * i, 16, 1⟩
def TWIN_PSEQ_NET (i : Nat) : Fld := ⟨0x40019014 + 16 * i, 17, 1⟩
def TWIN_PSEQ_LEN (i : Nat) : Fld := ⟨0x40019014 + 16 * i, 18, 7⟩
def TWIN_PBUF_ADDR (i : Nat) : Fld := ⟨0x40019018 + 16 * i, 0, 22⟩
def TWIN_PCNT_MISCNT (i : Nat) : Fld := ⟨0x4001901C + 16 * i, 0, 8⟩
def TWIN_PCNT_SGLREJ (i : Nat) : Fld := ⟨0x4001901C + 16 * i, 8, 8⟩
def TWIN_PCNT_SGLACC (i : Nat) : Fld := ⟨0x4001901C + 16 * i, 16, 8⟩
def TWIN_PCNT_OVF (i : Nat) : Fld := ⟨0x4001901C + 16 * i, 24, 3⟩
/-! Fields of CAN (chapter 13). -/

def CAN_CTRL_EN (b : Nat) : Fld := ⟨0x40015000 + 0x1000 * b, 0, 1⟩
def CAN_CTRL_OPMODE (b : Nat) : Fld := ⟨0x40015000 + 0x1000 * b, 1, 2⟩
def CAN_CTRL_ABD (b : Nat) : Fld := ⟨0x40015000 + 0x1000 * b, 3, 1⟩
def CAN_CTRL_RECOVER (b : Nat) : Fld := ⟨0x40015000 + 0x1000 * b, 4, 1⟩
def CAN_CTRL_TDCEN (b : Nat) : Fld := ⟨0x40015000 + 0x1000 * b, 5, 1⟩
def CAN_CTRL_PXHD (b : Nat) : Fld := ⟨0x40015000 + 0x1000 * b, 6, 1⟩
def CAN_CTRL_LEADONLY (b : Nat) : Fld := ⟨0x40015000 + 0x1000 * b, 7, 1⟩
def CAN_CTRL_NACKLIM (b : Nat) : Fld := ⟨0x40015000 + 0x1000 * b, 8, 8⟩
def CAN_CTRL_ABDTMO (b : Nat) : Fld := ⟨0x40015000 + 0x1000 * b, 16, 8⟩
def CAN_CTRL_ABDRND (b : Nat) : Fld := ⟨0x40015000 + 0x1000 * b, 24, 4⟩
def CAN_NBT_NBRP (b : Nat) : Fld := ⟨0x40015004 + 0x1000 * b, 0, 5⟩
def CAN_NBT_NTSEG1 (b : Nat) : Fld := ⟨0x40015004 + 0x1000 * b, 5, 8⟩
def CAN_NBT_NTSEG2 (b : Nat) : Fld := ⟨0x40015004 + 0x1000 * b, 13, 7⟩
def CAN_NBT_NSJW (b : Nat) : Fld := ⟨0x40015004 + 0x1000 * b, 20, 7⟩
def CAN_DBT_DBRP (b : Nat) : Fld := ⟨0x40015008 + 0x1000 * b, 0, 5⟩
def CAN_DBT_DTSEG1 (b : Nat) : Fld := ⟨0x40015008 + 0x1000 * b, 5, 5⟩
def CAN_DBT_DTSEG2 (b : Nat) : Fld := ⟨0x40015008 + 0x1000 * b, 10, 4⟩
def CAN_DBT_DSJW (b : Nat) : Fld := ⟨0x40015008 + 0x1000 * b, 14, 4⟩
def CAN_DBT_TDCO (b : Nat) : Fld := ⟨0x40015008 + 0x1000 * b, 18, 7⟩
def CAN_STAT_EST (b : Nat) : Fld := ⟨0x4001500C + 0x1000 * b, 0, 2⟩
def CAN_STAT_RECBUSY (b : Nat) : Fld := ⟨0x4001500C + 0x1000 * b, 2, 1⟩
def CAN_STAT_NOACK (b : Nat) : Fld := ⟨0x4001500C + 0x1000 * b, 3, 1⟩
def CAN_STAT_ABDDONE (b : Nat) : Fld := ⟨0x4001500C + 0x1000 * b, 4, 1⟩
def CAN_STAT_ABDFAIL (b : Nat) : Fld := ⟨0x4001500C + 0x1000 * b, 5, 1⟩
def CAN_STAT_ABDSEL (b : Nat) : Fld := ⟨0x4001500C + 0x1000 * b, 6, 3⟩
def CAN_STAT_TDCFLT (b : Nat) : Fld := ⟨0x4001500C + 0x1000 * b, 9, 1⟩
def CAN_STAT_PXEV (b : Nat) : Fld := ⟨0x4001500C + 0x1000 * b, 10, 1⟩
def CAN_STAT_LEC (b : Nat) : Fld := ⟨0x4001500C + 0x1000 * b, 11, 3⟩
def CAN_STAT_ACCERR (b : Nat) : Fld := ⟨0x4001500C + 0x1000 * b, 14, 1⟩
def CAN_ERRC_TEC (b : Nat) : Fld := ⟨0x40015010 + 0x1000 * b, 0, 8⟩
def CAN_ERRC_REC (b : Nat) : Fld := ⟨0x40015010 + 0x1000 * b, 8, 8⟩
def CAN_ERRC_BOCNT (b : Nat) : Fld := ⟨0x40015010 + 0x1000 * b, 16, 8⟩
def CAN_ERRC_BOOVF (b : Nat) : Fld := ⟨0x40015010 + 0x1000 * b, 24, 1⟩
def CAN_IE_IE (b : Nat) : Fld := ⟨0x40015014 + 0x1000 * b, 0, 6⟩
def CAN_IRQ_RXEV (b : Nat) : Fld := ⟨0x40015018 + 0x1000 * b, 0, 1⟩
def CAN_IRQ_TXEV (b : Nat) : Fld := ⟨0x40015018 + 0x1000 * b, 1, 1⟩
def CAN_IRQ_ESTEV (b : Nat) : Fld := ⟨0x40015018 + 0x1000 * b, 2, 1⟩
def CAN_IRQ_NOACKEV (b : Nat) : Fld := ⟨0x40015018 + 0x1000 * b, 3, 1⟩
def CAN_IRQ_ABDEV (b : Nat) : Fld := ⟨0x40015018 + 0x1000 * b, 4, 1⟩
def CAN_IRQ_RECDONE (b : Nat) : Fld := ⟨0x40015018 + 0x1000 * b, 5, 1⟩
def CAN_TDC_MEAS (b : Nat) : Fld := ⟨0x4001501C + 0x1000 * b, 0, 7⟩
def CAN_SVC_CWID (b : Nat) : Fld := ⟨0x40015020 + 0x1000 * b, 0, 11⟩
def CAN_ABDN_NT (b i : Nat) : Fld := ⟨0x40015040 + 0x1000 * b + 8 * i, 0, 27⟩
def CAN_ABDN_CVALID (b i : Nat) : Fld := ⟨0x40015040 + 0x1000 * b + 8 * i, 31, 1⟩
def CAN_ABDD_DT (b i : Nat) : Fld := ⟨0x40015044 + 0x1000 * b + 8 * i, 0, 25⟩
def CAN_WSEL_OBJ (b : Nat) : Fld := ⟨0x40015080 + 0x1000 * b, 0, 7⟩
def CAN_RXPEND_NEWDAT (b i : Nat) : Fld := ⟨0x40015084 + 0x1000 * b + 4 * i, 0, 32⟩
def CAN_TXPEND_TXREQ (b : Nat) : Fld := ⟨0x40015090 + 0x1000 * b, 0, 32⟩
def CAN_RSTAT_NEWDAT (b i : Nat) : Fld := ⟨0x40015400 + 0x1000 * b + 4 * i, 0, 1⟩
def CAN_RSTAT_LOST (b i : Nat) : Fld := ⟨0x40015400 + 0x1000 * b + 4 * i, 1, 1⟩
def CAN_RSTAT_LOSTCNT (b i : Nat) : Fld := ⟨0x40015400 + 0x1000 * b + 4 * i, 8, 8⟩
def CAN_RSTAT_LOSTOVF (b i : Nat) : Fld := ⟨0x40015400 + 0x1000 * b + 4 * i, 16, 1⟩
def CAN_TSTAT_TXREQ (b i : Nat) : Fld := ⟨0x40015580 + 0x1000 * b + 4 * i, 0, 1⟩
def CAN_TSTAT_CANCEL (b i : Nat) : Fld := ⟨0x40015580 + 0x1000 * b + 4 * i, 1, 1⟩
def CAN_TSTAT_SENT (b i : Nat) : Fld := ⟨0x40015580 + 0x1000 * b + 4 * i, 2, 1⟩
def CAN_TSTAT_CANCELLED (b i : Nat) : Fld := ⟨0x40015580 + 0x1000 * b + 4 * i, 3, 1⟩
def CAN_TSTAT_ACTIVE (b i : Nat) : Fld := ⟨0x40015580 + 0x1000 * b + 4 * i, 4, 1⟩
def CAN_TSTAT_NACK (b i : Nat) : Fld := ⟨0x40015580 + 0x1000 * b + 4 * i, 5, 1⟩
def CAN_WID_ID (b : Nat) : Fld := ⟨0x40015800 + 0x1000 * b, 0, 29⟩
def CAN_WID_IDE (b : Nat) : Fld := ⟨0x40015800 + 0x1000 * b, 29, 1⟩
def CAN_WID_EN (b : Nat) : Fld := ⟨0x40015800 + 0x1000 * b, 31, 1⟩
def CAN_WCTL_DLC (b : Nat) : Fld := ⟨0x40015804 + 0x1000 * b, 0, 4⟩
def CAN_WCTL_FDF (b : Nat) : Fld := ⟨0x40015804 + 0x1000 * b, 4, 1⟩
def CAN_WCTL_BRS (b : Nat) : Fld := ⟨0x40015804 + 0x1000 * b, 5, 1⟩
def CAN_WCTL_ESI (b : Nat) : Fld := ⟨0x40015804 + 0x1000 * b, 6, 1⟩
def CAN_WDATA_DATA (b i : Nat) : Fld := ⟨0x40015810 + 0x1000 * b + 4 * i, 0, 32⟩
/-! Fields of USL (chapter 14). -/

def USL_CTRL_EN : Fld := ⟨0x4001A000, 0, 1⟩
def USL_CTRL_MON : Fld := ⟨0x4001A000, 1, 1⟩
def USL_CTRL_BRDIV0 : Fld := ⟨0x4001A000, 2, 7⟩
def USL_CTRL_BRDIV1 : Fld := ⟨0x4001A000, 9, 7⟩
def USL_CTRL_CHEN : Fld := ⟨0x4001A000, 16, 2⟩
def USL_CYC_CYCT : Fld := ⟨0x4001A004, 0, 17⟩
def USL_STAT_STATE : Fld := ⟨0x4001A008, 0, 2⟩
def USL_STAT_MASTER : Fld := ⟨0x4001A008, 2, 1⟩
def USL_STAT_DUPM : Fld := ⟨0x4001A008, 3, 1⟩
def USL_STAT_DUPSTOP : Fld := ⟨0x4001A008, 4, 1⟩
def USL_STAT_ACCERR : Fld := ⟨0x4001A008, 5, 1⟩
def USL_STAT_COLL : Fld := ⟨0x4001A008, 6, 2⟩
def USL_CYCSEQ_CYCSEQ : Fld := ⟨0x4001A00C, 0, 32⟩
def USL_SHEET_NENT : Fld := ⟨0x4001A010, 0, 8⟩
def USL_SHEET_POLLS : Fld := ⟨0x4001A010, 8, 8⟩
def USL_SHEET_SKIPS : Fld := ⟨0x4001A010, 16, 8⟩
def USL_RXBASE_ADDR : Fld := ⟨0x4001A014, 0, 22⟩
def USL_TXBASE_ADDR : Fld := ⟨0x4001A018, 0, 22⟩
def USL_CNT_TMOCNT (i : Nat) : Fld := ⟨0x4001A020 + 4 * i, 0, 8⟩
def USL_CNT_WINCNT (i : Nat) : Fld := ⟨0x4001A020 + 4 * i, 8, 8⟩
def USL_CNT_CRCCNT (i : Nat) : Fld := ⟨0x4001A020 + 4 * i, 16, 8⟩
def USL_CNT_FRMCNT (i : Nat) : Fld := ⟨0x4001A020 + 4 * i, 24, 8⟩
def USL_CNT2_SKIPCNT : Fld := ⟨0x4001A028, 0, 8⟩
def USL_CNT2_DUPCNT : Fld := ⟨0x4001A028, 8, 8⟩
def USL_CNTOVF_OVF : Fld := ⟨0x4001A02C, 0, 10⟩
def USL_ENTA_EN (i : Nat) : Fld := ⟨0x4001A800 + 16 * i, 0, 1⟩
def USL_ENTA_CH (i : Nat) : Fld := ⟨0x4001A800 + 16 * i, 1, 1⟩
def USL_ENTA_ADDR (i : Nat) : Fld := ⟨0x4001A800 + 16 * i, 2, 7⟩
def USL_ENTA_CMD (i : Nat) : Fld := ⟨0x4001A800 + 16 * i, 9, 4⟩
def USL_ENTA_TLEN (i : Nat) : Fld := ⟨0x4001A800 + 16 * i, 13, 5⟩
def USL_ENTA_RLEN (i : Nat) : Fld := ⟨0x4001A800 + 16 * i, 18, 6⟩
def USL_ENTB_START (i : Nat) : Fld := ⟨0x4001A804 + 16 * i, 0, 17⟩
def USL_ENTW_WLO (i : Nat) : Fld := ⟨0x4001A808 + 16 * i, 0, 8⟩
def USL_ENTW_WHI (i : Nat) : Fld := ⟨0x4001A808 + 16 * i, 8, 8⟩
def USL_ENTS_AGE (i : Nat) : Fld := ⟨0x4001A80C + 16 * i, 0, 8⟩
def USL_ENTS_ERR (i : Nat) : Fld := ⟨0x4001A80C + 16 * i, 8, 3⟩
/-! Fields of TIME (chapter 15). -/

def TIME_CTRL_EN : Fld := ⟨0x4001B000, 0, 1⟩
def TIME_CTRL_MASTER : Fld := ⟨0x4001B000, 1, 1⟩
def TIME_CTRL_LOCKED : Fld := ⟨0x4001B000, 2, 1⟩
def TIME_CTRL_NET : Fld := ⟨0x4001B000, 3, 1⟩
def TIME_STAT_STEPPED : Fld := ⟨0x4001B004, 0, 1⟩
def TIME_STAT_ACCERR : Fld := ⟨0x4001B004, 1, 1⟩
def TIME_NS_NS : Fld := ⟨0x4001B008, 0, 30⟩
def TIME_SEC_SEC : Fld := ⟨0x4001B00C, 0, 32⟩
def TIME_STEPSEC_SEC : Fld := ⟨0x4001B010, 0, 32⟩
def TIME_STEPNS_NS : Fld := ⟨0x4001B014, 0, 30⟩
def TIME_STEPNS_GO : Fld := ⟨0x4001B014, 31, 1⟩
def TIME_RATE_RATE : Fld := ⟨0x4001B018, 0, 32⟩
def TIME_UCYCNS_NS : Fld := ⟨0x4001B01C, 0, 30⟩
def TIME_UCYCSEC_SEC : Fld := ⟨0x4001B020, 0, 32⟩
def TIME_UCYCSEQ_CYCSEQ : Fld := ⟨0x4001B024, 0, 32⟩
def TIME_SYNC_SYNCID : Fld := ⟨0x4001B028, 0, 11⟩
def TIME_SYNC_SOBJ : Fld := ⟨0x4001B028, 11, 7⟩
def TIME_SYNC_TOBJ : Fld := ⟨0x4001B028, 18, 5⟩
def TIME_SYNC_SYNCPER : Fld := ⟨0x4001B028, 23, 4⟩
def TIME_CNT_SYNCCNT : Fld := ⟨0x4001B02C, 0, 16⟩
def TIME_CNT_MISSCNT : Fld := ⟨0x4001B02C, 16, 8⟩
def TIME_CNT_MISSOVF : Fld := ⟨0x4001B02C, 24, 1⟩
/-! Fields of HOST (chapter 16). -/

def HOST_CTRL_EN : Fld := ⟨0x4001C000, 0, 1⟩
def HOST_CTRL_APPTMO : Fld := ⟨0x4001C000, 8, 8⟩
def HOST_CTRL_SESSTMO : Fld := ⟨0x4001C000, 16, 8⟩
def HOST_STAT_HELDS : Fld := ⟨0x4001C004, 0, 4⟩
def HOST_STAT_HELDC0 : Fld := ⟨0x4001C004, 4, 1⟩
def HOST_STAT_HELDC1 : Fld := ⟨0x4001C004, 5, 1⟩
def HOST_STAT_SESSION : Fld := ⟨0x4001C004, 6, 1⟩
def HOST_STAT_OVR : Fld := ⟨0x4001C004, 8, 1⟩
def HOST_STAT_SHORT : Fld := ⟨0x4001C004, 9, 1⟩
def HOST_STAT_BADTYPE : Fld := ⟨0x4001C004, 10, 1⟩
def HOST_STAT_CRCERR : Fld := ⟨0x4001C004, 11, 1⟩
def HOST_STAT_APPLATE : Fld := ⟨0x4001C004, 12, 1⟩
def HOST_STAT_ACCERR : Fld := ⟨0x4001C004, 13, 1⟩
def HOST_CAN_CMDID : Fld := ⟨0x4001C008, 0, 11⟩
def HOST_MBOX_ADDR : Fld := ⟨0x4001C00C, 0, 22⟩
def HOST_CNT_CRCCNT : Fld := ⟨0x4001C010, 0, 8⟩
def HOST_CNT_OVRCNT : Fld := ⟨0x4001C010, 8, 8⟩
def HOST_CNT_TRUNCCNT : Fld := ⟨0x4001C010, 16, 8⟩
def HOST_CNT_OVF : Fld := ⟨0x4001C010, 24, 3⟩
def HOST_SEQ_SEQS : Fld := ⟨0x4001C014, 0, 8⟩
def HOST_SEQ_SEQC0 : Fld := ⟨0x4001C014, 8, 8⟩
def HOST_SEQ_SEQC1 : Fld := ⟨0x4001C014, 16, 8⟩
/-! Fields of SEAL (chapter 17). -/

def SEAL_STRAP_WORD : Fld := ⟨0x40002000, 0, 16⟩
def SEAL_STRAP_VALID : Fld := ⟨0x40002000, 16, 1⟩
def SEAL_STRAP_INVAL : Fld := ⟨0x40002000, 17, 6⟩
def SEAL_MARGIN_MARG : Fld := ⟨0x40002004, 0, 8⟩
def SEAL_RESULT_SEALED : Fld := ⟨0x40002008, 0, 1⟩
def SEAL_RESULT_SIGOK : Fld := ⟨0x40002008, 1, 1⟩
def SEAL_RESULT_IDOK : Fld := ⟨0x40002008, 2, 1⟩
def SEAL_RESULT_CMPOK : Fld := ⟨0x40002008, 3, 1⟩
def SEAL_RESULT_NOBLOCK : Fld := ⟨0x40002008, 4, 1⟩
def SEAL_RESULT_TMO : Fld := ⟨0x40002008, 5, 1⟩
def SEAL_RESULT_SLOT : Fld := ⟨0x40002008, 6, 3⟩
def SEAL_RESULT_NENT : Fld := ⟨0x40002008, 9, 10⟩
def SEAL_FAILADDR_ADDR : Fld := ⟨0x4000200C, 0, 32⟩
def SEAL_FAILVAL_VAL : Fld := ⟨0x40002010, 0, 32⟩
def SEAL_EXPVAL_EXP : Fld := ⟨0x40002014, 0, 32⟩
def SEAL_DIGEST_DIG (i : Nat) : Fld := ⟨0x40002020 + 4 * i, 0, 32⟩
/-! Fields of KEEP (chapter 17). -/

def KEEP_STAT_READY : Fld := ⟨0x4001F000, 0, 1⟩
def KEEP_STAT_DONE : Fld := ⟨0x4001F000, 1, 1⟩
def KEEP_STAT_WARM : Fld := ⟨0x4001F000, 2, 1⟩
def KEEP_STAT_STOOD : Fld := ⟨0x4001F000, 3, 1⟩
def KEEP_STAT_DBGOPEN : Fld := ⟨0x4001F000, 4, 1⟩
def KEEP_STAT_BANK : Fld := ⟨0x4001F000, 5, 1⟩
def KEEP_STAT_FALLBACK : Fld := ⟨0x4001F000, 6, 1⟩
def KEEP_STAT_LIFE : Fld := ⟨0x4001F000, 7, 1⟩
def KEEP_STAT_STEP : Fld := ⟨0x4001F000, 8, 5⟩
def KEEP_RSTCAUSE_SRC : Fld := ⟨0x4001F004, 0, 4⟩
def KEEP_RSTCAUSE_CONV : Fld := ⟨0x4001F004, 4, 1⟩
def KEEP_RSTCAUSE_IGN : Fld := ⟨0x4001F004, 5, 1⟩
def KEEP_FAIL_NFAIL : Fld := ⟨0x4001F008, 0, 2⟩
def KEEP_FAIL_STEP : Fld := ⟨0x4001F008, 4, 4⟩
def KEEP_FAIL_CODE : Fld := ⟨0x4001F008, 8, 8⟩
def KEEP_FAIL_TRIALFAIL : Fld := ⟨0x4001F008, 16, 1⟩
def KEEP_TIME_LAST : Fld := ⟨0x4001F00C, 0, 24⟩
def KEEP_BOOT_PREF : Fld := ⟨0x4001F010, 0, 1⟩
def KEEP_BOOT_TRIAL : Fld := ⟨0x4001F010, 1, 1⟩
def KEEP_BOOT_VALA : Fld := ⟨0x4001F010, 2, 1⟩
def KEEP_BOOT_VALB : Fld := ⟨0x4001F010, 3, 1⟩
def KEEP_BOOT_CFGSEL : Fld := ⟨0x4001F010, 4, 1⟩
def KEEP_BOOT_SEALSLOT : Fld := ⟨0x4001F010, 5, 3⟩
def KEEP_SLOT_STATE : Fld := ⟨0x4001F014, 0, 10⟩
def KEEP_VER0_VER1 : Fld := ⟨0x4001F018, 0, 6⟩
def KEEP_VER0_VER2 : Fld := ⟨0x4001F018, 8, 6⟩
def KEEP_VER0_VER3 : Fld := ⟨0x4001F018, 16, 6⟩
def KEEP_VER0_VER4 : Fld := ⟨0x4001F018, 24, 6⟩
def KEEP_VER1_VER5 : Fld := ⟨0x4001F01C, 0, 6⟩
def KEEP_VER1_VER6 : Fld := ⟨0x4001F01C, 8, 6⟩
def KEEP_VER1_VER7 : Fld := ⟨0x4001F01C, 16, 6⟩
def KEEP_WRGEN_WRGEN : Fld := ⟨0x4001F020, 0, 32⟩
def KEEP_COLDCNT_COLD : Fld := ⟨0x4001F024, 0, 32⟩
def KEEP_WARMCNT_WARM : Fld := ⟨0x4001F028, 0, 32⟩
def KEEP_AUTH_RELFAIL : Fld := ⟨0x4001F02C, 0, 8⟩
def KEEP_AUTH_DBGFAIL : Fld := ⟨0x4001F02C, 8, 8⟩
def KEEP_AUTH_CHALREL : Fld := ⟨0x4001F02C, 16, 1⟩
def KEEP_AUTH_CHALDBG : Fld := ⟨0x4001F02C, 17, 1⟩
def KEEP_UID_UID (i : Nat) : Fld := ⟨0x4001F030 + 4 * i, 0, 32⟩
def KEEP_MEAS_MEAS (i : Nat) : Fld := ⟨0x4001F100 + 4 * i, 0, 32⟩
/-! Fields of PWR (chapter 18). -/

def PWR_STAT_STATE : Fld := ⟨0x40001000, 0, 3⟩
def PWR_STAT_PGATE : Fld := ⟨0x40001000, 3, 4⟩
def PWR_STAT_ENTERING : Fld := ⟨0x40001000, 7, 1⟩
def PWR_STAT_ACCERR : Fld := ⟨0x40001000, 8, 1⟩
def PWR_VOTE_VOTE : Fld := ⟨0x40001004, 0, 24⟩
def PWR_MYVOTE_HOLD : Fld := ⟨0x40001008, 0, 4⟩
def PWR_HOSTVOTE_HOLD : Fld := ⟨0x4000100C, 0, 4⟩
def PWR_WAKECFG_WKEN : Fld := ⟨0x40001010, 0, 1⟩
def PWR_WAKECFG_WKMODE : Fld := ⟨0x40001010, 1, 1⟩
def PWR_WAKECFG_WKPOL : Fld := ⟨0x40001010, 2, 1⟩
def PWR_WAKECFG_WUPTMO : Fld := ⟨0x40001010, 3, 1⟩
def PWR_WAKECFG_MPEN : Fld := ⟨0x40001010, 4, 1⟩
def PWR_WAKECFG_TMREN : Fld := ⟨0x40001010, 5, 1⟩
def PWR_TMR_DEEPTMR : Fld := ⟨0x40001014, 0, 24⟩
def PWR_WREC_SRC : Fld := ⟨0x40001018, 0, 3⟩
def PWR_WREC_FROM : Fld := ⟨0x40001018, 3, 3⟩
def PWR_WREC_TVALID : Fld := ⟨0x40001018, 6, 1⟩
def PWR_ESEC_SEC : Fld := ⟨0x4000101C, 0, 32⟩
def PWR_ENS_NS : Fld := ⟨0x40001020, 0, 30⟩
def PWR_ELAPSED_ELAPSED : Fld := ⟨0x40001024, 0, 32⟩
def PWR_SENT_TRIP : Fld := ⟨0x40001028, 0, 12⟩
def PWR_SENT_COLLAPSE : Fld := ⟨0x40001028, 12, 1⟩
def PWR_CNT_SENTCNT : Fld := ⟨0x4000102C, 0, 8⟩
def PWR_CNT_WAKECNT : Fld := ⟨0x4000102C, 8, 8⟩
def PWR_CNT_OVF : Fld := ⟨0x4000102C, 16, 2⟩
/-! Fields of MPORT (chapter 18). -/

def MPORT_CTRL_EN : Fld := ⟨0x4001D000, 0, 1⟩
def MPORT_CTRL_ADDR : Fld := ⟨0x4001D000, 1, 7⟩
def MPORT_STAT_BUSY : Fld := ⟨0x4001D004, 0, 1⟩
def MPORT_STAT_WREV : Fld := ⟨0x4001D004, 1, 1⟩
def MPORT_STAT_RDEV : Fld := ⟨0x4001D004, 2, 1⟩
def MPORT_STAT_MATCHWK : Fld := ⟨0x4001D004, 3, 1⟩
def MPORT_STAT_NAKEV : Fld := ⟨0x4001D004, 4, 1⟩
def MPORT_STAT_ACCERR : Fld := ⟨0x4001D004, 5, 1⟩
def MPORT_PTR_PTR : Fld := ⟨0x4001D008, 0, 8⟩
def MPORT_PTR_LEN : Fld := ⟨0x4001D008, 8, 8⟩
def MPORT_INBOX_IN (i : Nat) : Fld := ⟨0x4001D100 + 4 * i, 0, 32⟩
def MPORT_OUTBOX_OUT (i : Nat) : Fld := ⟨0x4001D180 + 4 * i, 0, 32⟩
/-! Fields of BKG (chapter 19). -/

def BKG_STAT_REELBUSY : Fld := ⟨0x4001E000, 0, 1⟩
def BKG_STAT_FULL : Fld := ⟨0x4001E000, 1, 1⟩
def BKG_STAT_UEVALID : Fld := ⟨0x4001E000, 2, 1⟩
def BKG_STAT_ACCERR : Fld := ⟨0x4001E000, 3, 1⟩
def BKG_CECNT_CECNT : Fld := ⟨0x4001E004, 0, 16⟩
def BKG_CECNT_CEOVF : Fld := ⟨0x4001E004, 16, 1⟩
def BKG_UEADDR_ADDR : Fld := ⟨0x4001E008, 0, 32⟩
def BKG_UECNT_UECNT : Fld := ⟨0x4001E00C, 0, 8⟩
def BKG_UECNT_REQ : Fld := ⟨0x4001E00C, 8, 5⟩
def BKG_SCRUB_PASSES : Fld := ⟨0x4001E010, 0, 16⟩
def BKG_SCRUB_LASTMS : Fld := ⟨0x4001E010, 16, 16⟩
def BKG_WEAK_NWEAK : Fld := ⟨0x4001E014, 0, 11⟩
def BKG_QBASE_ADDR : Fld := ⟨0x4001E018, 0, 22⟩
def BKG_REELBASE_ADDR : Fld := ⟨0x4001E01C, 0, 22⟩
def BKG_CNTBASE_ADDR : Fld := ⟨0x4001E020, 0, 22⟩
def BKG_RSEQ_RSEQ : Fld := ⟨0x4001E024, 0, 32⟩
def BKG_COMMIT_RSEQ : Fld := ⟨0x4001E028, 0, 32⟩
def BKG_RING_WPTR : Fld := ⟨0x4001E02C, 0, 20⟩
def BKG_LOST_LOSTREC : Fld := ⟨0x4001E030, 0, 16⟩
def BKG_LOST_LOSTOVF : Fld := ⟨0x4001E030, 16, 1⟩
def BKG_UPTIMEL_LO : Fld := ⟨0x4001E034, 0, 32⟩
def BKG_UPTIMEH_HI : Fld := ⟨0x4001E038, 0, 8⟩
def BKG_CAL_CALPER : Fld := ⟨0x4001E03C, 0, 8⟩
def BKG_CAL_CALDONE : Fld := ⟨0x4001E03C, 8, 8⟩
def BKG_CAL_CALABTN : Fld := ⟨0x4001E03C, 16, 8⟩
def BKG_LEDGER_NENT : Fld := ⟨0x4001E040, 0, 10⟩

end Sys2Proof.Machine.F
end

