-- ==== Sys2Proof/Machine/Ops.lean ====
section
/-!
DEFINITION. The operations every block's rules are written with: reading and writing a register field, saturating counters,
bytes and words of memory, free values, interrupts, and updating one block's inner state.
-/
namespace Sys2Proof.Machine

/-- What a meaning answers. -/
abbrev Out := Host.Outcome State Fault Refusal

/-! ## Numbers -/

/-- The signed value of the low `w` bits of `n` (two's complement, R16). -/
def toSigned (w n : Nat) : Int :=
  let m := n % 2 ^ w
  if m < 2 ^ (w - 1) then (m : Int) else (m : Int) - (2 ^ w : Nat)

/-- The low `w` bits of an integer. -/
def ofSigned (w : Nat) (i : Int) : Nat := (i % (2 ^ w : Nat)).toNat

/-- An integer limited to `w`-bit two's complement. -/
def clipSigned (w : Nat) (i : Int) : Int :=
  max (-(2 ^ (w - 1) : Nat)) (min ((2 ^ (w - 1) : Nat) - 1) i)

/-- The signed difference of R19, for a circle of `2^w` counts. -/
def circDiff (w : Nat) (a b : Nat) : Int := toSigned w (ofSigned w ((a : Int) - (b : Int)))

/-- `a / b` rounded to the nearest integer, halves away from zero; 0 for a zero divisor. -/
def roundDiv (a b : Int) : Int :=
  if b = 0 then 0
  else
    let q := (2 * a.natAbs + b.natAbs) / (2 * b.natAbs)
    if (a < 0) ≠ (b < 0) then -(q : Int) else (q : Int)

/-- The whole part of the square root, by `k` steps of Newton's method from above. -/
def isqrtSteps (n : Nat) : Nat → Nat → Nat
  | 0, x => x
  | k + 1, x => let y := (x + n / x) / 2; if y < x then isqrtSteps n k y else x

/-- The whole part of the square root. -/
def isqrt (n : Nat) : Nat := if n = 0 then 0 else isqrtSteps n (n.log2 + 2) (2 ^ (n.log2 / 2 + 1))

/-- Bit `i` of a number. -/
def bitAt (n i : Nat) : Bool := n / 2 ^ i % 2 == 1

/-- A number with bit `i` set or cleared. -/
def withBit (n i : Nat) (b : Bool) : Nat :=
  if bitAt n i == b then n else if b then n + 2 ^ i else n - 2 ^ i

/-- The little-endian value of bytes. -/
def leValue : List Byte → Nat
  | [] => 0
  | b :: t => b.toNat + 256 * leValue t

/-- The `k` little-endian bytes of a value. -/
def leBytes : Nat → Nat → List Byte
  | 0, _ => []
  | k + 1, v => BitVec.ofNat 8 v :: leBytes k (v / 256)

/-- Bytes `off` to `off + n - 1` of a payload as a little-endian value; absent bytes read 0. -/
def bytesAt (l : List Byte) (off n : Nat) : Nat := leValue ((l.drop off).take n)

/-- One bit step of a reflected 32-bit CRC whose polynomial, bits reversed, is `poly`. -/
def crcStep (poly c : Nat) : Nat := if c % 2 = 1 then (c / 2) ^^^ poly else c / 2

/-- A reflected 32-bit CRC with initial value and final XOR of 0xFFFF_FFFF. -/
def crcReflected (poly : Nat) (l : List Byte) : Nat :=
  (l.foldl (fun c b => (List.range 8).foldl (fun c _ => crcStep poly c) (c ^^^ b.toNat)) 0xFFFFFFFF) ^^^ 0xFFFFFFFF

/-- CRC-32 of R526. -/
def crc32 (l : List Byte) : Nat := crcReflected 0xEDB88320 l

/-- The CRC of an Ebpen frame (R375): polynomial 0x1EDC_6F41. -/
def crc32c (l : List Byte) : Nat := crcReflected 0x82F63B78 l

/-- CRC-16 of R486: polynomial 0x1021, initial value 0xFFFF, no reflection. -/
def crc16 (l : List Byte) : Nat :=
  l.foldl (fun c b => (List.range 8).foldl
    (fun c _ => if 0x8000 ≤ c then ((c * 2) ^^^ 0x1021) % 65536 else c * 2) (c ^^^ (b.toNat * 256))) 0xFFFF

/-! ## Registers -/

/-- The bits of a field in a register word. -/
def Fld.read (f : Fld) (w : Word) : Nat := (w.extractLsb' f.lo f.w).toNat

/-- The register word with a field replaced. -/
def Fld.write (f : Fld) (w : Word) (v : Nat) : Word :=
  let mask : Word := (BitVec.allOnes f.w).setWidth 32 <<< f.lo
  (w &&& ~~~mask) ||| ((BitVec.ofNat 32 v <<< f.lo) &&& mask)

/-- The stored word of the register at an address. -/
def State.rd (s : State) (addr : Nat) : Word := Tab.get resetWord s.regs addr

/-- The register at an address set to a word. -/
def State.wr (s : State) (addr : Nat) (v : Word) : State := { s with regs := Tab.put resetWord s.regs addr v }

/-- The value of a register field. -/
def State.get (s : State) (f : Fld) : Nat := f.read (s.rd f.addr)

/-- A register field set by hardware. -/
def State.put (s : State) (f : Fld) (v : Nat) : State := s.wr f.addr (f.write (s.rd f.addr) v)

/-- Whether a one-bit field is 1. -/
def State.on (s : State) (f : Fld) : Bool := s.get f == 1

/-- The signed value of a field. -/
def State.getS (s : State) (f : Fld) : Int := toSigned f.w (s.get f)

/-- A field set to a signed value. -/
def State.putS (s : State) (f : Fld) (v : Int) : State := s.put f (ofSigned f.w v)

/-- A one-bit field set to a truth value. -/
def State.putB (s : State) (f : Fld) (b : Bool) : State := s.put f b.toNat

/-- Bit `i` of a field. -/
def State.bit (s : State) (f : Fld) (i : Nat) : Bool := bitAt (s.get f) i

/-- A field with bit `i` set or cleared. -/
def State.putBit (s : State) (f : Fld) (i : Nat) (b : Bool) : State := s.put f (withBit (s.get f) i b)

/-- `f` applied when a condition holds. -/
def State.when (s : State) (c : Bool) (f : State → State) : State := if c then f s else s

/-- A saturating counter that counts one event, with the flag that marks a lost count (R658). -/
def State.count (s : State) (cnt ovf : Fld) : State :=
  if s.get cnt = 2 ^ cnt.w - 1 then s.put ovf 1 else s.put cnt (s.get cnt + 1)

/-- A saturating counter whose overflow mark is bit `i` of a field. -/
def State.countBit (s : State) (cnt ovf : Fld) (i : Nat) : State :=
  if s.get cnt = 2 ^ cnt.w - 1 then s.putBit ovf i true else s.put cnt (s.get cnt + 1)

/-- A saturating counter that adds `n` events. -/
def State.countN (s : State) (cnt ovf : Fld) (n : Nat) : State :=
  if s.get cnt + n ≤ 2 ^ cnt.w - 1 then s.put cnt (s.get cnt + n)
  else (s.put cnt (2 ^ cnt.w - 1)).put ovf 1

/-- A saturating counter whose table gives it no overflow mark. -/
def State.sat (s : State) (cnt : Fld) : State := if s.get cnt = 2 ^ cnt.w - 1 then s else s.put cnt (s.get cnt + 1)

/-- A counter that wraps. -/
def State.inc (s : State) (cnt : Fld) : State := s.put cnt (s.get cnt + 1)

/-! ## Memory -/

/-- The boot-record page a part leaves manufacture with, at data NVM offset 0x1200 (R575): generation 0, copy 0, no slot,
bank A, not on trial, and its CRC-32 (log entry 7). -/
def madePage : List Byte := [0, 0, 0, 0, 0, 0, 0, 0, 0x69, 0xDF, 0x22, 0x65]

/-- What a byte of memory that nothing has written reads as: erased NVM reads ones (R614), but for the boot-record page written
at manufacture (R575); RAM reads 0 (log entry 7). -/
def blankByte (a : Nat) : Byte :=
  if 0x11001200 ≤ a ∧ a < 0x1100120C then madePage.getD (a % 0x100) 0
  else if (0x10000000 ≤ a ∧ a < 0x10C00000) ∨ (0x11000000 ≤ a ∧ a < 0x11100000) then 0xFF
  else 0

/-- The byte at an address. -/
def State.byte (s : State) (a : Nat) : Byte := Tab.get blankByte s.mem a

/-- Whether an address lies in a memory region of R651. -/
def isMemory (a : Nat) : Bool :=
  decide (a < 0x10000) || decide (0x08000000 ≤ a ∧ a < 0x08080000) || decide (0x09000000 ≤ a ∧ a < 0x09008000)
    || decide (0x09010000 ≤ a ∧ a < 0x09018000) || decide (0x09020000 ≤ a ∧ a < 0x09024000)
    || decide (0x09030000 ≤ a ∧ a < 0x09034000) || decide (0x10000000 ≤ a ∧ a < 0x10C00000)
    || decide (0x11000000 ≤ a ∧ a < 0x11100000) || decide (0x20000000 ≤ a ∧ a < 0x20300000)
    || decide (0x21000000 ≤ a ∧ a < 0x21010000) || decide (0x30000000 ≤ a ∧ a < 0x30040000)

/-- A byte written. Where no memory lies nothing is stored (R652). -/
def State.setByte (s : State) (a : Nat) (v : Byte) : State :=
  { s with mem := if isMemory a then Tab.put blankByte s.mem a v else s.mem }

/-- `n` bytes from an address on, lowest address first. -/
def State.bytes (s : State) (a : Nat) : Nat → List Byte
  | 0 => []
  | n + 1 => s.byte a :: s.bytes (a + 1) n

/-- Bytes written from an address on. -/
def State.setBytes (s : State) : Nat → List Byte → State
  | _, [] => s
  | a, b :: t => (s.setByte a b).setBytes (a + 1) t

/-- The little-endian word at an address (R21). -/
def State.memWord (s : State) (a : Nat) : Word := BitVec.ofNat 32 (leValue (s.bytes a 4))

/-- A word written little-endian. -/
def State.setMemWord (s : State) (a : Nat) (v : Word) : State := s.setBytes a (leBytes 4 v.toNat)

/-- The 20-bit value of a memory word (R17). -/
def State.mem20 (s : State) (a : Nat) : Q20 := (s.memWord a).setWidth 20

/-- A 20-bit value stored in a memory word: bits [31:20] carry copies of bit 19 (R17). -/
def State.setMem20 (s : State) (a : Nat) (v : Q20) : State := s.setMemWord a (v.signExtend 32)

/-- Canonical form of the memory (R651's byte-addressed regions). -/
def Memory.wf (m : List Host.Cell) : Bool := Tab.wf blankByte m

/-- Canonical form of the registers. -/
def Registers.wf (r : Tab Word) : Bool := Tab.wf resetWord r

/-! ## Free values and interrupts -/

/-- The next free value (log entry 1). -/
def State.free (s : State) : BitVec 64 := Config.freeBits s.fresh

/-- The free value counter advanced. -/
def State.drew (s : State) : State := { s with fresh := s.fresh + 1 }

/-- An interrupt or event raised. -/
def State.raise (s : State) (i : Irq) : State := if i ∈ s.irqs then s else { s with irqs := i :: s.irqs }

/-! ## One block's inner state -/

def State.modSys (s : State) (f : Sys → Sys) : State := { s with sys := f s.sys }
def State.modCore (s : State) (p : Pair) (f : Core → Core) : State := { s with cores := upd s.cores p f }
def State.modAng (s : State) (b : Bridge) (f : Ang → Ang) : State := { s with ang := upd s.ang b f }
def State.modPos (s : State) (k : PosBlk) (f : Pos → Pos) : State := { s with pos := upd s.pos k f }
def State.modSent (s : State) (c : SentCh) (f : Sent → Sent) : State := { s with sent := upd s.sent c f }
def State.modBridge (s : State) (b : Bridge) (f : IsnsBridge → IsnsBridge) : State := { s with isnsB := upd s.isnsB b f }
def State.modChan (s : State) (c : IsnsCh) (f : IsnsChan → IsnsChan) : State := { s with isnsC := upd s.isnsC c f }
def State.modEng (s : State) (e : Eng) (f : Engine → Engine) : State := { s with eng := upd s.eng e f }
def State.modMc (s : State) (b : Bridge) (f : Mc → Mc) : State := { s with mc := upd s.mc b f }
def State.modGate (s : State) (b : Bridge) (f : GateBridge → GateBridge) : State := { s with gate := upd s.gate b f }
def State.modDriver (s : State) (f : Driver → Driver) : State := { s with driver := f s.driver }
def State.modCont (s : State) (f : Cont → Cont) : State := { s with cont := f s.cont }
def State.modPeer (s : State) (l : Lane) (f : Peer → Peer) : State := { s with peers := upd s.peers l f }
def State.modEbp (s : State) (e : Port) (f : Ebp → Ebp) : State := { s with ebp := upd s.ebp e f }
def State.modLines (s : State) (f : Lines → Lines) : State := { s with lines := f s.lines }
def State.modSafe (s : State) (f : Safe → Safe) : State := { s with safe := f s.safe }
def State.modTwin (s : State) (k : TwinPair) (f : Twin → Twin) : State := { s with twin := upd s.twin k f }
def State.modCan (s : State) (n : CanCtl) (f : Can → Can) : State := { s with can := upd s.can n f }

def State.modUsl (s : State) (f : Usl → Usl) : State := { s with usl := f s.usl }
def State.modTime (s : State) (f : NetTime → NetTime) : State := { s with time := f s.time }
def State.modHost (s : State) (f : HostIf → HostIf) : State := { s with host := f s.host }
def State.modKeep (s : State) (f : Keep → Keep) : State := { s with keep := f s.keep }
def State.modStore (s : State) (f : KeyStore → KeyStore) : State := s.modKeep (fun k => { k with store := f k.store })
def State.modJtag (s : State) (f : Jtag → Jtag) : State := { s with jtag := f s.jtag }
def State.modPwr (s : State) (f : Pwr → Pwr) : State := { s with pwr := f s.pwr }
def State.modMport (s : State) (f : Mport → Mport) : State := { s with mport := f s.mport }
def State.modBkg (s : State) (f : Bkg → Bkg) : State := { s with bkg := f s.bkg }

end Sys2Proof.Machine
end

