-- ==== Sys2Proof/Machine/Wear.lean ====
section
/-!
DEFINITION. The wear and stress counters of R612, the power state that follows the votes (R585 to R588, R593), and G's own reel
records (R617): what events of other blocks do to PWR and BKG.
-/
namespace Sys2Proof.Machine

/-! ## Counters (R612)

Counters 0 to 1535 are the erases of code NVM sectors, 1536 to 1663 those of data NVM sectors; then hard shorts and normal
shorts of the twelve switches, chopper on-time, active-short time and energised time of each bridge, OV1, OV2 and
undervoltage events, cut-latch settings and sentinel trips. -/

def wearHard (b : Bridge) (j : Switch) : Nat := 1664 + 6 * b.val + j.val
def wearNormal (b : Bridge) (j : Switch) : Nat := 1676 + 6 * b.val + j.val
def wearChop : Nat := 1688
def wearShort (b : Bridge) : Nat := 1689 + b.val
def wearOn (b : Bridge) : Nat := 1691 + b.val
def wearOv1 : Nat := 1693
def wearOv2 : Nat := 1694
def wearUv : Nat := 1695
def wearCut : Nat := 1696
def wearSentinel : Nat := 1697

/-- The greatest value of a counter. -/
def wearMax (k : Nat) : Nat := if k < 1664 then 65535 else 4294967295

/-- A record of G's own with the values that R617 names for its TYPE, put behind those that wait. -/
def ownRecord (type : Nat) (content : List Nat) (wear : Option (Tab Nat)) (s : State) : State :=
  s.modBkg (fun b => { b with own := b.own ++ [⟨type, content, wear⟩] })

/-- `n` events counted: a counter stays at its maximum, and an event it can no longer count marks it (R612). A counter that
reaches its maximum is recorded in the reel. -/
def wearAdd (k n : Nat) (s : State) : State :=
  if n = 0 then s
  else
    let old := Tab.get (fun _ => 0) s.bkg.wear k
    let new := min (wearMax k) (old + n)
    let s := s.modBkg (fun b => { b with
      wear := Tab.put (fun _ => 0) b.wear k new, changed := b.changed || new != old,
      wearOvf := if wearMax k < old + n ∧ k ∉ b.wearOvf then k :: b.wearOvf else b.wearOvf })
    if old < wearMax k ∧ new = wearMax k then ownRecord 6 [k] none s else s

/-- One event counted. -/
def wearOne (k : Nat) (s : State) : State := wearAdd k 1 s

/-- A slot's queue in shared SRAM (R615). -/
def queueBase (s : State) (q : Nat) : Nat := 0x20000000 + s.get F.BKG_QBASE_ADDR + 0x240 * q

/-- A producer's submission (R615). -/
def reelSubmit (q : Nat) (rec : List Byte) (s : State) : State :=
  let base := queueBase s q
  let head := (s.memWord base).toNat
  let tail := (s.memWord (base + 4)).toNat
  if (head + 2 ^ 32 - tail) % 2 ^ 32 = 16 then
    s.setMemWord (base + 8) (BitVec.ofNat 32 (min 0xFFFFFFFF ((s.memWord (base + 8)).toNat + 1)))
  else (s.setBytes (base + 0x40 + 32 * (head % 16) + 10) (rec.take 22)).setMemWord base (BitVec.ofNat 32 (head + 1))

/-! ## Engines that stand -/

/-- Whether the engines clocked from the PLL stand: RESET_N low, no always-on domain, SLEEP or deeper, or held by a sentinel trip (R546,
R583, R604). -/
def coreStopped (s : State) : Bool :=
  s.pwr.held || s.pwr.resetLow || !s.pwr.aoPowered || decide (2 ≤ s.get F.PWR_STAT_STATE)

/-- What a command does to a block that the PLL clocks: nothing while the PLL's blocks stand (R546, R583, R604). -/
def clockedOut (s : State) (o : Out) : Out := if coreStopped s then .next s else o

/-- Whether the Heldiog engines, V and the pairs are held: those, the wait after a failed start, a lane stood down (R558, R559). -/
def enginesHeld (s : State) : Bool := coreStopped s || s.keep.failWait || s.on F.KEEP_STAT_STOOD

/-! ## Votes (R585 to R588) -/

/-- A nibble closed downward (R585). -/
def closeDown (n : Nat) : Nat :=
  if 8 ≤ n % 16 then 15 else if 4 ≤ n % 16 then 7 else if 2 ≤ n % 16 then 3 else n % 2

/-- The HW nibble (R588): CORE while a start is in progress or debug is open, PLL while the lane holds a role, can drive or has
a network controller running. -/
def hwNibble (s : State) : Nat :=
  let can (n : Nat) : Bool := s.on (F.CAN_CTRL_EN n)
  if !s.on F.KEEP_STAT_DONE || s.on F.KEEP_STAT_DBGOPEN then 15
  else if s.get F.CONT_STAT_ROLE != 0 || s.get (F.MC_STAT_MODE 0) != 0 || s.get (F.MC_STAT_MODE 1) != 0
      || s.on F.SAFE_CLOSE_CLOSEA || s.on F.SAFE_CLOSE_CLOSEB || s.get F.HLE_CTRL_EN != 0
      || can 0 || can 1 || can 2 || can 3 || s.on F.USL_CTRL_EN then 7
  else 0

/-- PWR_VOTE: the five nibbles of the clients and the HW nibble. -/
def voteWord (s : State) : Nat := s.get F.PWR_VOTE_VOTE % 2 ^ 20 + hwNibble s * 2 ^ 20

/-- The union of all nibbles. -/
def voteUnion (s : State) : Nat :=
  let v := voteWord s
  (List.range 6).foldl (fun acc k => acc ||| (v / 16 ^ k % 16)) 0

/-- The state that a union of votes fixes (R586). -/
def stateOfVotes (u : Nat) : Nat :=
  if bitAt u 3 then 0 else if bitAt u 2 then 1 else if bitAt u 1 then 2 else if bitAt u 0 then 3 else 4

/-- An entry to SLEEP, DEEP or OFF begins (R591, R592, R606): the supervisor watchdog and the clock monitors are suspended, and
for SLEEP and DEEP the network time is latched when it has been stepped, and the elapsed counter starts. -/
def entryBegin (dest : Nat) (s : State) : State :=
  let s := (s.put F.PWR_STAT_ENTERING 1).modPwr (fun p => { p with entryTo := some dest, entryTick := s.tick })
  let s := s.modSys (fun y => { y with suspended := true, dogHeld := true })
  if dest = 4 then s
  else
  let s := s.put F.PWR_ELAPSED_ELAPSED 0
  if s.on F.TIME_STAT_STEPPED then
    ((s.put F.PWR_ESEC_SEC s.time.sec.toNat).put F.PWR_ENS_NS (s.get F.TIME_NS_NS)).put F.PWR_WREC_TVALID 1
  else s.put F.PWR_WREC_TVALID 0

/-- A gated pair's clock runs again (R590): IDLE, shown while all four pairs are gated, ends. -/
def ungate (p : Pair) (s : State) : State :=
  let s := (s.modCore p (fun c => { c with gated := false })).putBit F.PWR_STAT_PGATE p false
  if s.get F.PWR_STAT_STATE = 1 then s.put F.PWR_STAT_STATE 0 else s

/-- No pair stays gated while a CORE bit is held (R586, R590). -/
def ungateVoted (s : State) : State :=
  if bitAt (voteUnion s) 3 then
    (List.finRange 4).foldl (fun s (p : Pair) => if s.bit F.PWR_STAT_PGATE p then ungate p s else s) s
  else s

/-- The power state follows the votes (R586, R590, R593): a deeper state than the one in force begins its entry; a vote for a domain
that SLEEP has stopped is a wake event. A vote that arrives during an entry for a domain that the entry stops is one too, and acts
once the entry has completed; votes withdrawn during an entry lead it on to the deeper state. -/
def followVotes (s : State) : State :=
  let s := ungateVoted s
  let dest := stateOfVotes (voteUnion s)
  let now := s.get F.PWR_STAT_STATE
  if s.pwr.wake.isSome || !s.pwr.aoPowered then s
  else
    match s.pwr.entryTo with
    | some d =>
      if dest < d then s.modPwr (fun p => { p with wake := some 5, wakeTick := s.tick })
      else s.modPwr (fun p => { p with entryTo := some dest })
    | none =>
      if 2 ≤ dest ∧ now < dest then entryBegin dest s
      else if now = 2 ∧ dest < 2 then s.modPwr (fun p => { p with wake := some 5, wakeTick := s.tick })
      else s

end Sys2Proof.Machine
end

