-- ==== Sys2Proof/Machine/Authority.lean ====
section
/-!
DEFINITION. Who the lane is (strap word, R38), shares and roles (R44 to R50), sending an Ebpen frame (R375), withdrawing
(R369) and dropping the six-phase law (R411): what other blocks ask of CONT.
-/
namespace Sys2Proof.Machine

/-! ## The strap word (R38) -/

def laneId (s : State) : Nat := s.get F.SEAL_STRAP_WORD % 4
def topology (s : State) : Nat := s.get F.SEAL_STRAP_WORD / 4 % 4
def setId (s : State) : Nat := s.get F.SEAL_STRAP_WORD / 256 % 8

/-- Whether a strap word passes R39. -/
def strapOk (w : Nat) : Bool :=
  let x := (w % 16) ^^^ (w / 16 % 16) ^^^ (w / 256 % 16)
  let lane := w % 4
  let topo := w / 4 % 4
  let bridge := w / 16 % 4
  w / 4096 % 16 == 15 - x && lane != 3 && w / 2048 % 2 == 0 && bridge != 3
    && (match topo with | 0 => lane == 0 | 1 => decide (lane < 2) | 2 => decide (lane < 2) | _ => true)
    && (bridge != 2 || topo == 0)

/-- Whether the strap word's BRIDGE field puts a bridge in use. -/
def bridgeUsed (s : State) (b : Bridge) : Bool :=
  let f := s.get F.SEAL_STRAP_WORD / 16 % 4
  f == 2 || f == b.val

/-- How many bridges are in use. -/
def bridgesUsed (s : State) : Nat := (bridgeUsed s 0).toNat + (bridgeUsed s 1).toNat

/-- The bridge whose reference carrier times the outer loop: bridge A where it is in use (R244). -/
def mainBridge (s : State) : Bridge := if bridgeUsed s 0 then 0 else 1

/-- How many lanes the topology has (R30). -/
def laneCount (s : State) : Nat := match topology s with | 0 => 1 | 1 => 2 | 2 => 2 | _ => 3

/-- Sealed as R40 and R453 ask: an unsealed lane or one with a set-membership fault (R42) takes no part. -/
def mayTakePart (s : State) : Bool := s.on F.SAFE_STAT_SEALED && s.cont.membership == 0

/-! ## Shares and roles -/

/-- The share triple in force (CONT_SHARES). -/
def sharesOf (s : State) : Shares := ⟨s.get F.CONT_SHARES_SHA, s.get F.CONT_SHARES_SHB, s.get F.CONT_SHARES_SHC⟩

def Shares.of (t : Shares) (l : Nat) : Nat := match l with | 0 => t.a | 1 => t.b | 2 => t.c | _ => 0

def Shares.sum (t : Shares) : Nat := t.a + t.b + t.c

/-- Shares packed as R378 packs them. -/
def Shares.pack (t : Shares) : Nat := t.a % 1024 + t.b % 1024 * 1024 + t.c % 1024 * 1048576

/-- A packed triple read back. -/
def Shares.unpack (n : Nat) : Shares := ⟨n % 1024, n / 1024 % 1024, n / 1048576 % 1024⟩

/-- CONT_SHARES set. -/
def setShares (t : Shares) (s : State) : State :=
  ((s.put F.CONT_SHARES_SHA t.a).put F.CONT_SHARES_SHB t.b).put F.CONT_SHARES_SHC t.c

/-- A triple put in force. CONT refuses a triple whose sum is not 1000 (R49). -/
def putShares (t : Shares) (s : State) : State := if t.sum = 1000 then setShares t s else s

/-- The shares at rest of a topology (R30). -/
def sharesAtRest (s : State) : Shares :=
  match topology s with
  | 0 => ⟨1000, 0, 0⟩
  | 1 => ⟨500, 500, 0⟩
  | 2 => ⟨500, 500, 0⟩
  | _ => ⟨333, 333, 334⟩

/-- The role of a lane as this lane sees it: its own role, or CONT_PEER's for a peer not declared lost. -/
def roleSeen (s : State) (l : Nat) : Nat :=
  if l = laneId s then s.get F.CONT_STAT_ROLE
  else if s.on (F.CONT_PEER_LOST l) then 0 else s.get (F.CONT_PEER_ROLE l)

/-- Whether a lane is a qualified stand-in as this lane sees it. -/
def qualSeen (s : State) (l : Nat) : Bool :=
  roleSeen s l == 1 &&
    (if l = laneId s then s.on F.CONT_STAT_QUAL
     else match l with | 0 => s.peers[0].qual | 1 => s.peers[1].qual | _ => s.peers[2].qual)

/-- Whether a transfer that waits for its tick takes a lane out of authority (R393). -/
def leaving (s : State) (l : Nat) : Bool := s.cont.transfers.any (fun t => t.subj == l && t.kind != 2)

/-- Whether a peer's frames say that it is drive-ready. -/
def readySeen (s : State) (l : Nat) : Bool :=
  match l with | 0 => s.peers[0].ready | 1 => s.peers[1].ready | _ => s.peers[2].ready

/-- The lanes of the topology other than `subj` that hold a role and that no transfer under way takes out. -/
def lanesLeft (s : State) (subj : Nat) : List Nat :=
  (List.range (laneCount s)).filter (fun l => l != subj && decide (1 ≤ roleSeen s l) && !leaving s l)

/-- A triple that gives `v` to each lane of a list. -/
def sharesTo (ls : List Nat) (v : Nat) : Shares :=
  ⟨if 0 ∈ ls then v else 0, if 1 ∈ ls then v else 0, if 2 ∈ ls then v else 0⟩

/-- The triple after a lane leaves authority (R50). -/
def sharesAfter (s : State) (subj : Nat) : Shares :=
  match lanesLeft s subj with
  | [] => ⟨0, 0, 0⟩
  | [l] => sharesTo [l] 1000
  | ls => sharesTo (ls.take 2) 500

/-- The lane that leads after `subj` has left: the present lead where that is another lane, else the remaining qualified
stand-in with the lowest lane ID (R399); 3 where there is none. -/
def leadAfter (s : State) (subj : Nat) : Nat :=
  match (lanesLeft s subj).find? (fun l => roleSeen s l == 2) with
  | some l => l
  | none => ((lanesLeft s subj).find? (fun l => qualSeen s l)).getD 3

/-- The set's state, normal or worse, shown degraded (R370). -/
def degrade (s : State) : State := if s.get F.CONT_STAT_SETSTATE = 0 then s.put F.CONT_STAT_SETSTATE 1 else s

/-- Whether a lane has lost C0 or C1 (R53, R443): bus-off, or no acknowledge. -/
def netLost (s : State) (n : Nat) : Bool := s.get (F.CAN_STAT_EST n) == 2 || s.on (F.CAN_STAT_NOACK n)

/-- Whether a position interface of the lane is valid. -/
def ownPosition (s : State) : Bool :=
  (List.range 2).any (fun n => s.on (F.POS_STAT_SCVAL n) || s.on (F.POS_STAT_ABZVAL n) || s.on (F.POS_STAT_HALLVAL n))

/-- Whether all own position sources are lost (R53): position borrowed, no failover entry left, or the sensorless estimator in use while
no position interface is valid. -/
def positionDegraded (s : State) : Bool :=
  let src := s.get (F.ANG_CTRL_SRC (mainBridge s))
  src == 0xB || s.on (F.POS_FO_ALLLOST 0) || (src == 0xC && !ownPosition s)

/-- Whether a fault is flagged that leaves the set degraded (R53, R370): a flag of CONT_STAT, two-leg operation, a solo lane's bridge
in OUT, a lost network, own position lost, or a joined set out of its six-phase law. -/
def degraded (s : State) : Bool :=
  s.get ⟨F.CONT_STAT_ROLE.addr, 9, 5⟩ != 0 || s.on F.CONT_STAT_EDEG
    || s.on (F.MC_STAT_DEGR 0) || s.on (F.MC_STAT_DEGR 1)
    || (topology s == 0 && ((bridgeUsed s 0 && s.get (F.MC_STAT_MODE 0) == 6) || (bridgeUsed s 1 && s.get (F.MC_STAT_MODE 1) == 6)))
    || netLost s 0 || netLost s 1 || positionDegraded s || (topology s == 2 && !s.on F.CONT_STAT_JOINED)

/-- The state of a set that is formed and not in hold (R370): normal while every lane of the topology holds a role and nothing is
flagged, else degraded. -/
def judgeSet (s : State) : State :=
  if s.get F.CONT_STAT_SETSTATE ≤ 1 then
    s.putB F.CONT_STAT_SETSTATE (degraded s || (lanesLeft s 3).length != laneCount s)
  else s

/-! ## Periods -/

/-- The inner period Ti of the bridge that times the outer loop, in ticks. -/
def innerPeriod (s : State) : Nat :=
  let b := mainBridge s
  if s.on (F.ANG_CTRL_INNER_X b) then s.get (F.ANG_PER_ASYNC_PER b) / 2 else s.get (F.ANG_PER_ASYNC_PER b)

/-- The outer period To in ticks. -/
def outerPeriod (s : State) : Nat := innerPeriod s * 2 ^ s.get (F.ANG_CTRL_OUTER_M (mainBridge s))

/-! ## The bytes and symbols of a frame (R375), and the line (R377) -/

/-- The header of a frame of a TYPE. -/
def frameHeader (ty : Nat) (f : EbpFrame) : List Byte :=
  [BitVec.ofNat 8 (ty % 16 + 16 * f.src.toNat), f.seq, f.len, f.setId.setWidth 8]

/-- The CRC a frame of a TYPE must carry. -/
def frameCrc (ty : Nat) (f : EbpFrame) : Word := BitVec.ofNat 32 (crc32c (frameHeader ty f ++ f.payload))

/-- The symbols of a frame, each marked as a control symbol (K27.7 and K29.7) or a data symbol. -/
def frameSymbols (ty : Nat) (f : EbpFrame) : List (Bool × Byte) :=
  (true, 0xFB) :: (frameHeader ty f ++ f.payload ++ leBytes 4 f.crc.toNat).map (fun b => (false, b)) ++ [(true, 0xFD)]

/-- How long a frame lasts: 20 ns, four ticks, a symbol. -/
def frameTicks (ty : Nat) (f : EbpFrame) : Nat := 4 * (frameSymbols ty f).length

/-- The priority class of a TYPE (R377). -/
def frameClass (ty : Nat) : Nat := match ty with | 1 => 0 | 2 => 0 | 3 => 1 | 4 => 1 | 5 => 1 | 6 => 2 | _ => 3

/-- When a frame of a class can begin: after the frames of its own and higher classes, and inside a frame of a lower class but
where three are nested already. -/
def lineStart (cls now : Nat) (l : List LineFrame) : Nat :=
  let run := l.filter (fun f => decide (now < f.ends))
  let t := (run.filter (fun f => decide (f.cls ≤ cls))).foldl (fun t f => max t f.ends) now
  if [1, 2, 3].all (fun c => decide (cls < c) && run.any (fun f => f.cls == c)) then
    max t ((((run.filter (fun f => f.cls == 1)).map (fun f => f.ends)).min?).getD t)
  else t

/-- A frame of a class and length put on the line: a frame of a lower class resumes after it. -/
def linePut (cls len now : Nat) (l : List LineFrame) : List LineFrame :=
  (l.filter (fun f => decide (now < f.ends))).map (fun f => if cls < f.cls then { f with ends := f.ends + len } else f)
    ++ [⟨cls, lineStart cls now l + len⟩]

/-! ## Sending a frame -/

/-- Whether a port carries frames: enabled, trained and not absent (R35, R36). -/
def portUp (s : State) (e : Port) : Bool :=
  s.on (F.EBP_CTRL_EN e) && s.on (F.EBP_STAT_TRAINED e) && !s.on (F.EBP_STAT_ABSENT e)

/-- One frame handed to one port. -/
def sendOn (ty : Nat) (f : EbpFrame) (e : Port) (s : State) : State :=
  if portUp s e && !coreStopped s then
    (s.modEbp e (fun x => { x with
      sent := Tab.put (fun _ => none) x.sent ty (some f)
      line := linePut (frameClass ty) (frameTicks ty f) s.tick x.line })).inc (F.EBP_FRAMES_TXOK e)
  else s

/-- The frame this lane originates with a TYPE and a payload (R375). -/
def frameOf (s : State) (ty : Nat) (payload : List Byte) : EbpFrame :=
  let f : EbpFrame :=
    { src := BitVec.ofNat 2 (laneId s), seq := BitVec.ofNat 8 (Tab.get (fun _ => 0) s.lines.seq ty),
      setId := BitVec.ofNat 3 (setId s), len := BitVec.ofNat 8 (payload.length / 4), payload := payload, crc := 0 }
  { f with crc := frameCrc ty f }

/-- The SEQ of a TYPE counted on (R375). -/
def countSeq (ty : Nat) (s : State) : State :=
  s.modLines (fun l => { l with seq := Tab.put (fun _ => 0) l.seq ty ((Tab.get (fun _ => 0) l.seq ty + 1) % 256) })

/-- A frame sent on every port, with the SEQ of its TYPE counted on (R375). -/
def sendFrame (ty : Nat) (payload : List Byte) (s : State) : State :=
  let f := frameOf s ty payload
  sendOn ty f 1 (sendOn ty f 0 (countSeq ty s))

/-- The tick at which a frame of a TYPE handed to the ports now begins: the later of the two where both carry it. -/
def frameStart (s : State) (ty : Nat) : Nat :=
  let on (e : Port) : Nat := if portUp s e then lineStart (frameClass ty) s.tick s.ebp[e.val].line else s.tick
  max (on 0) (on 1)

/-- OFS of R378: ticks from the last reference inner tick to the start of the frame. -/
def frameOfs (s : State) (ty : Nat) : Nat := min (frameStart s ty - s.ang[(mainBridge s).val].refTick) 0xffff

/-- Which reference inner tick after the one that precedes a NOTICE its transfer tick is (R393): the first where OFS and 1.0 µs
fit into Ti, else the second. -/
def transferAfter (s : State) (ofs : Nat) : Nat := if ofs + 200 ≤ innerPeriod s then 1 else 2

/-- The payload of a NOTICE (R378). -/
def noticePayload (s : State) (t : Transfer) : List Byte :=
  [BitVec.ofNat 8 t.subj, BitVec.ofNat 8 t.kind] ++ leBytes 2 (frameOfs s 1) ++ leBytes 4 t.shares.pack
    ++ [BitVec.ofNat 8 t.newLead, 0, 0, 0]

/-- A lane noted as withdrawn or lost until it is drive-ready anew (R46). -/
def noteOut (l : Nat) (c : Cont) : Cont :=
  { c with out := BitVec.ofNat 3 (withBit c.out.toNat l true), announced := BitVec.ofNat 3 (withBit c.announced.toNat l false) }

/-- A transfer held for its tick beside those that wait already (R393, R395). -/
def holdTransfer (t : Transfer) (s : State) : State :=
  s.modCont (fun c =>
    let c := { c with transfers := c.transfers ++ [t] }
    if t.kind = 2 then c else noteOut t.subj c)

/-- A NOTICE sent with its transfer, which is held for the transfer tick in this lane too (R393, R395). -/
def sendTransfer (t : Transfer) (s : State) : State :=
  holdTransfer { t with left := transferAfter s (frameOfs s 1) } (sendFrame 1 (noticePayload s t) s)

/-- A NOTICE that a lane leaves authority, with the triple and the lead of R50 and R399. -/
def sendNotice (subj kind : Nat) (s : State) : State :=
  sendTransfer { subj := subj, kind := kind, shares := sharesAfter s subj, newLead := leadAfter s subj, left := 0 } s

/-- The lane withdraws with a NOTICE naming itself (R369): LEADOUT is held low and the share is given up at the transfer
tick. A lane that holds no role, or already withdraws, is left as it is. -/
def withdraw (kind : Nat) (s : State) : State :=
  if s.get F.CONT_STAT_ROLE = 0 ∨ s.cont.withdrawing = true then s
  else (sendNotice (laneId s) kind s).modCont (fun c => { c with withdrawing := true, leadOut := false })

/-! ## The inner engine and the joined law -/

/-- The logical engine whose BIND field names a bridge (R230). -/
def boundEngine (s : State) (b : Bridge) : Option Eng :=
  (List.finRange 7).find? (fun e => s.get (F.HLE_ENGCTRL_BIND e) == b.val + 1)

/-- The address of a data-RAM word of an engine's window (R206). -/
def dataAddr (e : Nat) (w : Nat) : Nat := 0x30000000 + 0x8000 * e + 0x4000 + 4 * w

/-- A detection of R411: CONT writes 1 to the inner engine's word JMODE and clears JOINED. -/
def joinedDrop (s : State) : State :=
  if s.on F.CONT_STAT_JOINED then
    let s := match boundEngine s (mainBridge s) with
      | some e => s.setMemWord (dataAddr e (s.get F.CONT_JOIN_JMODE)) 1
      | none => s
    degrade ((s.put F.CONT_STAT_JOINED 0).modCont (fun c => { c with xrefMiss := 0 }))
  else s

end Sys2Proof.Machine
end

