-- ==== Sys2Proof/Machine/Switches.lean ====
section
/-!
DEFINITION. The gate-command lines as an MC block drives them by its mode (R279 to R285, R297, R298), and the driver die's switches
that follow them: turned on and off, gate watch, the state of a leg by the precedence of R353 (chapter 10).
-/
namespace Sys2Proof.Machine

/-! ## Modes (R279) -/

def modeOff : Nat := 0
def modeListen : Nat := 1
def modeFoc : Nat := 2
def modeSixstep : Nat := 3
def modeCoast : Nat := 4
def modeBrake0 : Nat := 5
def modeOut : Nat := 6

def mcMode (s : State) (b : Bridge) : Nat := s.get (F.MC_STAT_MODE b)

/-! ## Duty words, pattern and carrier -/

/-- A duty word clamped to 0 to DMAX (R284). -/
def clampDuty (s : State) (b : Bridge) (d : Q20) : Q20 :=
  BitVec.ofInt 20 (max 0 (min (toSigned 20 d.toNat) (s.getS (F.MC_DCEIL_DMAX b))))

/-- The duty words of MCx_DUTY1 to MCx_DUTY3. -/
def dutyRegs (s : State) (b : Bridge) : Duties :=
  ⟨BitVec.ofNat 20 (s.get (F.MC_DUTY_DUTY b 0)), BitVec.ofNat 20 (s.get (F.MC_DUTY_DUTY b 1)),
   BitVec.ofNat 20 (s.get (F.MC_DUTY_DUTY b 2))⟩

/-- The duty 0.5 in Q1.19. -/
def halfDuty : Q20 := 0x40000

/-- The sector of an angle (R297). -/
def sectorOf (theta : Nat) : Nat := (theta + 87381) % 2 ^ 20 * 6 / 2 ^ 20

/-- The pattern of a sector: high phase, low phase, floating phase (1 to 3), and whether the floating back-EMF rises (R297). -/
def sectorPattern (sec : Nat) : Nat × Nat × Nat × Bool :=
  match sec with
  | 0 => (2, 3, 1, false)
  | 1 => (2, 1, 3, true)
  | 2 => (3, 1, 2, false)
  | 3 => (3, 2, 1, true)
  | 4 => (1, 2, 3, false)
  | _ => (1, 3, 2, true)

/-- The compare level T of a duty word in a period of P steps (R281). -/
def compareLevel (P : Nat) (d : Q20) : Nat :=
  let H := P / 2
  H - (max 0 (toSigned 20 d.toNat) * H + 2 ^ 18).toNat / 2 ^ 19

/-- The carrier count at a step (R281). -/
def carrierCount (P step : Nat) : Nat := if step ≤ P / 2 then step else P - step

/-- Whether the high side of a duty word is commanded on at a step: T = 0 on for the whole period (R281). -/
def highOn (P step : Nat) (d : Q20) : Bool :=
  let T := compareLevel P d
  T == 0 || decide (T < carrierCount P step)

/-- The carrier that times a bridge's PWM (R129, R130). -/
def pwmCarrier (s : State) (b : Bridge) : Carrier :=
  let a := s.ang[b.val]
  if a.own then a.pwm else a.ref

/-- The pair (high, low) of a switch pattern, as a bit mask over R326's numbering. -/
def legBits (k : Nat) (hi lo : Bool) : Nat := hi.toNat * 2 ^ k + lo.toNat * 2 ^ (3 + k)

/-- Active short: the three switches of the side ASSIDE names (R350). -/
def shortBits (s : State) (b : Bridge) : Nat := if s.on (F.GD_CTRL_ASSIDE b) then 7 else 56

/-- Whether a bridge's carrier runs: from the first valley after EN is written to 1 (R281). -/
def carrierRuns (s : State) (b : Bridge) : Bool :=
  s.on (F.ANG_CTRL_EN b) && s.ang[b.val].refCount != 65535

/-- The high and the low phase of the six-step pattern in force: a negative word swaps them (R298). -/
def patternPhases (s : State) (b : Bridge) : Nat × Nat :=
  let p := sectorPattern (s.get (F.MC_STAT_SECTOR b))
  if toSigned 20 s.mc[b.val].ssLoaded.toNat < 0 then (p.2.1, p.1) else (p.1, p.2.1)

/-- Whether the pattern's PWM phase has its high side commanded on: not while the clamp is applied (R285, R298), nor while an active
short is still commanded (R311). -/
def patternOn (s : State) (b : Bridge) : Bool :=
  let m := s.mc[b.val]
  let c := pwmCarrier s b
  carrierRuns s b && !m.asReq && !m.clamping && highOn c.per c.step (BitVec.ofNat 20 (toSigned 20 m.ssLoaded.toNat).natAbs)

/-- The phase whose high side six-step has on. -/
def highPhase (s : State) (b : Bridge) : Option Nat :=
  if mcMode s b = modeSixstep ∧ patternOn s b = true then some (patternPhases s b).1 else none

/-- The six gate-command lines of a bridge as its MC block drives them (R279, R281, R285, R298, R323, R351): bit j for switch j.
While the carrier does not run every line is off, whatever the mode and the requests (R281). -/
def gateCommands (s : State) (b : Bridge) : Nat :=
  let m := s.mc[b.val]
  let c := pwmCarrier s b
  let mode := mcMode s b
  let leg (k : Nat) (hi lo : Bool) : Nat := if s.bit (F.MC_STAT_LEGOUT b) k then 0 else legBits k hi lo
  if !carrierRuns s b then 0
  else if m.asReq then shortBits s b
  else if mode = modeFoc ∨ mode = modeBrake0 then
    let pwm (k : Nat) (d : Q20) : Nat := leg k (highOn c.per c.step d) (!highOn c.per c.step d)
    pwm 0 m.loaded.d1 + pwm 1 m.loaded.d2 + pwm 2 m.loaded.d3
  else if mode = modeSixstep then
    let p := patternPhases s b
    leg (p.1 - 1) (patternOn s b) (!patternOn s b) + leg (p.2 - 1) false true
  else 0

/-! ## Switches -/

/-- A switch modified. -/
def modGateSw (b : Bridge) (j : Switch) (f : Gate → Gate) (s : State) : State :=
  s.modGate b (fun g => { g with sw := upd g.sw j f })

/-- Whether a phase belongs to a turn-on. -/
def GatePhase.isOn : GatePhase → Bool
  | .preCharge => true | .slopeOn => true | .onHold => true | _ => false

/-- A switch turned off from the state it is in (R329, R332); one that a short is already turning off goes on at the sink current
of R346. -/
def Gate.turnOff (tick : Nat) (short : Bool) (g : Gate) : Gate :=
  { g with
    phase := if g.phase.isOn then .preDischarge else g.phase
    held := false, blanking := false, shortOff := if g.phase.isOn then short else g.shortOff
    offTick := if g.phase.isOn then some tick else g.offTick }

/-- A switch turned on: pre-charge begins, and with it the blanking interval (R328, R345). -/
def Gate.turnOn (g : Gate) : Gate :=
  { g with phase := .preCharge, held := false, blanking := true, shortOff := false }

/-- The leg of a switch: 0 to 2 (R326). -/
def legOf (j : Switch) : Nat := j.val % 3

/-- The high and the low switch of a leg. -/
def highSw (k : Fin 3) : Switch := ⟨k.val, by omega⟩
def lowSw (k : Fin 3) : Switch := ⟨k.val + 3, by omega⟩

/-- The leg of a switch as a number below 3. -/
def legFin (j : Switch) : Fin 3 := ⟨j.val % 3, Nat.mod_lt _ (by decide)⟩

/-- The opposite switch of the leg. -/
def oppositeSw (j : Switch) : Switch := if h : j.val < 3 then ⟨j.val + 3, by omega⟩ else ⟨j.val - 3, by omega⟩

/-! ## The state of a leg -/

/-- What the precedence of R353 gives a leg. -/
inductive LegState where
  | highImpedance | activeShort | commands
  deriving DecidableEq, Repr

/-- The link-loss state the driver die holds (R63, R660). -/
def linkLossState (s : State) (b : Bridge) : LegState :=
  if s.on (F.GD_CTRL_LLSTATE b) then .activeShort else .highImpedance

/-- Whether the strap word, once read, names a bridge as unused: its gate outputs are held low (R38). -/
def heldLow (s : State) (b : Bridge) : Bool := strapOk (s.get F.SEAL_STRAP_WORD) && !bridgeUsed s b

/-- The state of leg `k` of bridge `b`: the first row of R353 that applies; an unused bridge has none (R38). -/
def legState (s : State) (b : Bridge) (k : Fin 3) : LegState :=
  if heldLow s b then .highImpedance
  else if s.driver.underVolt then .highImpedance
  else if s.on (F.GD_STAT_BOUT b) then .highImpedance
  else if s.bit (F.GD_STAT_LEGOUT b) k then .highImpedance
  else if s.driver.linkLost || s.gate[b.val].linkHold then linkLossState s b
  else if !s.on (F.GD_CTRL_EN b) || !s.bit (F.GD_CTRL_LEGEN b) k then .highImpedance
  else if s.on F.VBUS_STAT_OV2 then (if s.on (F.GD_STAT_ASEL b) then .activeShort else .highImpedance)
  else .commands

/-- Whether active short is in force on a bridge by the AS flag, row 4 or row 6 (GDx_STAT.ASACT). -/
def shortInForce (s : State) (b : Bridge) : Bool :=
  !heldLow s b && !s.driver.underVolt && !s.on (F.GD_STAT_BOUT b) &&
    (if s.driver.linkLost || s.gate[b.val].linkHold then s.on (F.GD_CTRL_LLSTATE b)
     else s.on (F.GD_CTRL_EN b) &&
      ((s.on F.VBUS_STAT_OV2 && s.on (F.GD_STAT_ASEL b)) || (!s.on F.VBUS_STAT_OV2 && s.gate[b.val].asFlag)))

/-- ASACT shows it. -/
def showShort (b : Bridge) (s : State) : State := s.putB (F.GD_STAT_ASACT b) (shortInForce s b)

/-- What a switch is asked to be: on or off, by its leg's state and its command line (R350, R353, R338: both lines of a leg on
command both off). -/
def wanted (s : State) (b : Bridge) (j : Switch) : Bool :=
  match legState s b (legFin j) with
  | .highImpedance => false
  | .activeShort => bitAt (shortBits s b) j
  | .commands => s.bit (F.GD_GW_CMD b) j && !s.bit (F.GD_GW_CMD b) (oppositeSw j)

/-- Whether gate watch admits a turn-on at once: the opposite switch commanded off, and its VGS below VGS_OFF for 40 ns in native mode
(R334), or DT ticks gone since its turn-off in interlock mode (R337). -/
def admits (s : State) (b : Bridge) (j : Switch) : Bool :=
  let o := s.gate[b.val].sw[(oppositeSw j).val]
  !o.phase.isOn &&
    (if s.on (F.GD_CTRL_ILMODE b) then o.offTick.all (fun t => decide (t + s.get (F.GD_DT_DT b) ≤ s.tick))
     else !s.bit (F.GD_GW_ON b) (oppositeSw j) && o.belowTick.all (fun t => decide (t + 8 ≤ s.tick)))

/-- Whether a gate level in 0.2 V codes lies above VGS_OFF (R334). -/
def aboveOff (s : State) (b : Bridge) (code : Nat) : Bool := decide (3 + s.get (F.GD_WATCH_VGSOFF b) < code)

/-- ON of GDx_GW shown for a switch; the tick at which its VGS falls below VGS_OFF is kept (R334). -/
def showOn (b : Bridge) (j : Switch) (on : Bool) (s : State) : State :=
  let s := s.when (!on && s.bit (F.GD_GW_ON b) j) (modGateSw b j (fun g => { g with belowTick := some s.tick }))
  s.putBit (F.GD_GW_ON b) j on

/-- Whether the level toward which the VGS of a switch that is being turned on now rises lies above VGS_OFF. -/
def risesAbove (s : State) (b : Bridge) (j : Switch) : Bool :=
  match s.gate[b.val].sw[j.val].phase with
  | .preCharge => aboveOff s b (s.get (F.GD_PROFON_PREON b))
  | .slopeOn => aboveOff s b (s.get (F.GD_PROFON_PLXON b))
  | _ => false

/-- A switch turned off. A turn-on reversed in a phase whose end lies above VGS_OFF counts as above it, so that gate watch waits for its
discharge (R334, log entry 103). -/
def turnOffSw (b : Bridge) (j : Switch) (short : Bool) (s : State) : State :=
  modGateSw b j (Gate.turnOff s.tick short) (s.when (risesAbove s b j) (showOn b j true))

/-- A switch asked to be off is turned off at once. -/
def restSwitch (b : Bridge) (j : Switch) (s : State) : State :=
  if wanted s b j then s else turnOffSw b j false s

/-- A switch asked to be on is turned on where gate watch admits it, else held back (R334, R337). -/
def startSwitch (b : Bridge) (j : Switch) (s : State) : State :=
  let g := s.gate[b.val].sw[j.val]
  if !wanted s b j || g.phase.isOn || g.held then s
  else if admits s b j then modGateSw b j Gate.turnOn s
  else modGateSw b j (fun g => { g with held := true }) s

/-- Every switch of a bridge brought to what R353 gives it. -/
def driveBridge (b : Bridge) (s : State) : State :=
  let s := (List.finRange 6).foldl (fun s j => restSwitch b j s) s
  showShort b ((List.finRange 6).foldl (fun s j => startSwitch b j s) s)

/-- In interlock mode a turn-on held back begins as soon as DT ticks have passed (R337). -/
def interlockTick (b : Bridge) (s : State) : State :=
  if s.on (F.GD_CTRL_ILMODE b) && (List.finRange 6).any (fun (j : Switch) => s.gate[b.val].sw[j.val].held && admits s b j) then
    showShort b ((List.finRange 6).foldl (fun s j =>
      if s.gate[b.val].sw[j.val].held && wanted s b j && admits s b j then modGateSw b j Gate.turnOn s else s) s)
  else s

/-- Both bridges. -/
def driveAll (s : State) : State := driveBridge 1 (driveBridge 0 s)

/-- The ticks of the edges from one set of command lines to another: a line that goes off, a high side that comes on, and any edge (R300,
R337). -/
def noteEdges (b : Bridge) (old cmd : Nat) (s : State) : State :=
  let s := (List.finRange 6).foldl (fun s (j : Switch) =>
    if bitAt old j && !bitAt cmd j then modGateSw b j (fun g => { g with offTick := some s.tick }) s else s) s
  let rise := (List.range 3).any (fun k => bitAt cmd k && !bitAt old k)
  s.modMc b (fun m => { m with
    highTick := if rise then s.tick else m.highTick, edgeTick := if cmd = old then m.edgeTick else s.tick })

/-- The command lines of a bridge taken from its MC block (R327, R338): a leg with both lines on is counted once when it comes
on. -/
def takeCommands (b : Bridge) (cmd : Nat) (s : State) : State :=
  let old := s.get (F.GD_GW_CMD b)
  let s := noteEdges b old cmd s
  let both (c k : Nat) : Bool := bitAt c k && bitAt c (k + 3)
  let hits := (List.range 3).filter (fun k => both cmd k && !both old k)
  let s := s.put (F.GD_GW_CMD b) cmd
  let s := hits.foldl (fun s _ => (s.put (F.GD_STAT_XON b) 1).countBit (F.GD_CNT0_XONCNT b) (F.GD_CNT0_OVF b) 2) s
  driveBridge b s

/-- Whether the MC block puts a turn-on command on its line now: in interlock mode DT ticks after the opposite switch's turn-off command
(R337). -/
def lineAdmits (s : State) (b : Bridge) (j : Switch) : Bool :=
  let o := oppositeSw j
  !s.on (F.GD_CTRL_ILMODE b) || s.bit (F.GD_GW_CMD b) j
    || (!s.bit (F.GD_GW_CMD b) o && s.gate[b.val].sw[o.val].offTick.all (fun t => decide (t + s.get (F.GD_DT_DT b) ≤ s.tick)))

/-- The levels of the six command lines: those the MC block drives, each turn-on delayed in interlock mode (R337), and the lines that a
disturbance holds on (R338). -/
def lineCommands (s : State) (b : Bridge) : Nat :=
  let cmd := gateCommands s b
  ((List.finRange 6).filter (fun (j : Switch) => s.gate[b.val].sw[j.val].stray || (bitAt cmd j && lineAdmits s b j))).foldl
    (fun a j => a + 2 ^ j.val) 0

/-- The command lines of a bridge as its MC block drives them now (R279, R281, R351). -/
def followGates (b : Bridge) (s : State) : State :=
  let cmd := lineCommands s b
  if cmd = s.get (F.GD_GW_CMD b) then s else takeCommands b cmd s

end Sys2Proof.Machine
end

