-- ==== Sys2Proof/Machine/Trig.lean ====
section
/-!
DEFINITION. Angles by integer arithmetic: the angle of a vector and the sine and cosine of an angle, by shift-and-add
rotations, to a small part of the last place the spec speaks of (R145, R215). What the spec leaves of the last places is a
free value within the stated error (log entry 8).
-/
namespace Sys2Proof.Machine

/-- The angles whose tangents are 1, 1/2, 1/4 and so on, with 2^40 per revolution. -/
def arcTable : List Nat :=
  [137438953472, 81134951838, 42869480287, 21761217566, 10922836750, 5466743129, 2734038620, 1367102738,
   683561799, 341782203, 170891265, 85445653, 42722829, 21361415, 10680707, 5340354,
   2670177, 1335088, 667544, 333772, 166886, 83443, 41722, 20861,
   10430, 5215, 2608, 1304, 652, 326, 163, 81,
   41, 20]

/-- The product of the cosines of those angles, times 2^40. -/
def rotationGain : Nat := 667681663043

/-- Vector rotation towards the positive x axis: the angle turned through, for a vector with `x` not negative. -/
def turnToAxis : Nat → List Nat → Int → Int → Int → Int
  | _, [], _, _, z => z
  | i, a :: t, x, y, z =>
    if 0 ≤ y then turnToAxis (i + 1) t (x + y / (2 ^ i : Nat)) (y - x / (2 ^ i : Nat)) (z + a)
    else turnToAxis (i + 1) t (x - y / (2 ^ i : Nat)) (y + x / (2 ^ i : Nat)) (z - a)

/-- The angle of the vector (x, y), with 2^28 per revolution; 0 for the zero vector. -/
def angle28 (y x : Int) : Nat :=
  let X := x * 2 ^ 44
  let Y := y * 2 ^ 44
  let z : Int :=
    if 0 ≤ x then turnToAxis 0 arcTable X Y 0
    else 2 ^ 39 + turnToAxis 0 arcTable (-X) (-Y) 0
  ((z + 2 ^ 11) / 2 ^ 12 % 2 ^ 28).toNat

/-- The angle of the vector (x, y) in counts, to the nearest count (R18). -/
def angleCounts (y x : Int) : Nat := (angle28 y x + 128) / 256 % 2 ^ 20

/-- Vector rotation by an angle of at most a quarter turn. -/
def turnBy : Nat → List Nat → Int → Int → Int → Int × Int
  | _, [], x, y, _ => (x, y)
  | i, a :: t, x, y, z =>
    if 0 ≤ z then turnBy (i + 1) t (x - y / (2 ^ i : Nat)) (y + x / (2 ^ i : Nat)) (z - a)
    else turnBy (i + 1) t (x + y / (2 ^ i : Nat)) (y - x / (2 ^ i : Nat)) (z + a)

/-- Cosine and sine of an angle in counts, times 2^27. -/
def cosSin27 (theta : Nat) : Int × Int :=
  let z : Int := toSigned 20 theta
  let q : Int := if 2 ^ 18 < z then z - 2 ^ 19 else if z < -(2 ^ 18) then z + 2 ^ 19 else z
  let flip : Int := if q = z then 1 else -1
  let (c, s) := turnBy 0 arcTable rotationGain 0 (q * 2 ^ 20)
  (flip * ((c + 2 ^ 12) / 2 ^ 13), flip * ((s + 2 ^ 12) / 2 ^ 13))

/-- An integer within `err` of the value `v256 / 256`, chosen by a free value. -/
def within (v256 : Int) (err : Nat) (free : BitVec 64) : Int :=
  let lo := -((err * 256 - v256) / 256)
  let hi := (v256 + err * 256) / 256
  lo + (free.toNat : Int) % (hi - lo + 1)

end Sys2Proof.Machine
end

