-- ==== Sys2Proof/Machine/MotorOps.lean ====
section
/-!
DEFINITION. What an MC block does by itself (chapter 09): its modes, the duty sets, six-step, the estimators, the start
decision, coasting and the reactions to other blocks, as operations that commands of several families share.
-/
namespace Sys2Proof.Machine

/-! ## Modes (R279) -/

/-- The speed of a bridge's angle clock in RATE units. -/
def rateOf (s : State) (b : Bridge) : Int := s.getS (F.ANG_RATE_RATE b)

/-- |RATE|. -/
def speedOf (s : State) (b : Bridge) : Nat := (rateOf s b).natAbs

/-- Whether the set is in hold (R370). -/
def inHold (s : State) : Bool := s.get F.CONT_STAT_SETSTATE == 2

/-- Whether R429 holds a bridge in active short: hold, a bridge in use, in OUT, and not out. -/
def holdShort (s : State) (b : Bridge) : Bool :=
  inHold s && bridgeUsed s b && mcMode s b == modeOut && !s.on (F.GD_STAT_BOUT b)

/-- MODE_REQ as R667 sets it when the block takes a mode: 0b00 in OFF and OUT, 0b01 otherwise. -/
def setMode (b : Bridge) (m : Nat) (s : State) : State :=
  (s.put (F.MC_STAT_MODE b) m).put (F.MC_CTRL_MODE_REQ b) (if m = modeOff ∨ m = modeOut then 0 else 1)

/-- The active-short request of an MC block put; its gate commands follow (R351). -/
def requestShort (b : Bridge) (on : Bool) (s : State) : State :=
  followGates b (s.modMc b (fun m => { m with asReq := on }))

/-- Everything the estimators and six-step keep, forgotten. -/
def clearEstimators (b : Bridge) (s : State) : State :=
  s.modMc b (fun m => { m with
    returnReq := false, zcAccepted := none, zcLast := none, zcIntervals := [], zcMisses := 0, slowSector := false,
    lastCode := none, codeChanges := 0, codeDir := 0, estDir := 0, estAgree := 0, currentHist := [] })

/-- A mode entered in which the legs are driven or watched, with the gate commands it gives (R279). -/
def enterMode (b : Bridge) (m : Nat) (s : State) : State := followGates b (setMode b m (clearEstimators b s))

/-- OFF: every leg at high impedance, and any active short that COAST requested released (R279, R667). -/
def mcOff (b : Bridge) (s : State) : State :=
  followVotes (followGates b ((setMode b modeOff (clearEstimators b s)).modMc b (fun m => { m with asReq := false })))

/-- OUT: legs commanded off, active short only as R429 gives; a joined set drops its six-phase law (R292). -/
def mcOut (b : Bridge) (s : State) : State :=
  let s := joinedDrop (setMode b modeOut (clearEstimators b s))
  requestShort b (holdShort s b) s

/-- A lane-level fault of a bridge reported to CONT (R53); a bridge not in use has none. -/
def reportLaneFault (b : Bridge) (s : State) : State := if bridgeUsed s b then withdraw 1 s else s

/-- A bridge out reported to CONT: a lane-level fault, but in a solo lane using both bridges whose other bridge goes on (R53). -/
def reportBridgeOut (b : Bridge) (s : State) : State :=
  let other : Bridge := if b = 0 then 1 else 0
  if topology s = 0 ∧ bridgesUsed s = 2 ∧ mcMode s other ≠ modeOut then degrade s else reportLaneFault b s

/-- OUT with loss of position reported to CONT (R295). -/
def positionLost (b : Bridge) (s : State) : State := reportLaneFault b (mcOut b s)

/-! ## Duty sets and six-step -/

/-- The magnitude of a six-step word clamped to DMAX, its sign kept (R284, R298). -/
def clampSixstep (s : State) (b : Bridge) (d : Q20) : Q20 :=
  let w := toSigned 20 d.toNat
  let m : Int := min (w.natAbs : Int) (s.getS (F.MC_DCEIL_DMAX b))
  BitVec.ofInt 20 (if w < 0 then -m else m)

/-- The committed set an inner tick loads: one committed in the tick's own cycle waits for the next (R282). -/
def dueSet (s : State) (b : Bridge) : Duties :=
  let m := s.mc[b.val]
  if m.commitTick = some s.tick then m.prior else m.committed

/-- The six-step word an inner tick loads, likewise (R298). -/
def dueSixstep (s : State) (b : Bridge) : Q20 :=
  let m := s.mc[b.val]
  if m.ssTick = some s.tick then m.ssPrior else BitVec.ofNat 20 (s.get (F.MC_SSDUTY_SSDUTY b))

/-- The load of the compare stage at an inner tick (R282 to R285, R298): three equal duties of 0.5 while the clamp runs, else
the last committed set and the six-step word, every duty clamped. Active short kept over a recapture is released here
(R311). -/
def dutyLoad (b : Bridge) (s : State) : State :=
  let t := s.modMc b (fun m =>
    if 0 < m.clampLeft then
      let h := clampDuty s b halfDuty
      { m with loaded := ⟨h, h, h⟩, clampLeft := m.clampLeft - 1, clamping := true }
    else
      let d := dueSet s b
      { m with
        loaded := ⟨clampDuty s b d.d1, clampDuty s b d.d2, clampDuty s b d.d3⟩,
        ssLoaded := clampSixstep s b (dueSixstep s b), clamping := false })
  followGates b (if mcMode t b = modeSixstep then t.modMc b (fun m => { m with asReq := false }) else t)

/-- A commutation: the sector moves by one, a direction of at least 0 forward (R126, R299). The accepted state stands: a change of it across the
blanking interval is a crossing (R301). -/
def advanceSector (b : Bridge) (dir : Int) (s : State) : State :=
  let sec := s.get (F.MC_STAT_SECTOR b)
  let sec' := if 0 ≤ dir then (sec + 1) % 6 else (sec + 5) % 6
  followGates b ((s.put (F.MC_STAT_SECTOR b) sec').modMc b (fun m => { m with commutTick := s.tick }))

/-- SIXSTEP with a sector (R294, R311, R314). -/
def enterSixstep (b : Bridge) (sec : Nat) (s : State) : State :=
  let t := joinedDrop (setMode b modeSixstep (clearEstimators b s))
  followGates b ((t.put (F.MC_STAT_SECTOR b) sec).modMc b (fun m => { m with commutTick := s.tick }))

/-- SRC taken to the estimator (R294, R314): the angle goes on from the old source's last sample (R115). -/
def sourceEstimator (b : Bridge) (s : State) : State :=
  (s.put (F.ANG_CTRL_SRC b) 0xC).modAng b (fun a => { a with deliv := none })

/-- The MC block's answer to ALLLOST (R294, R295). -/
def mcAllLost (b : Bridge) (s : State) : State :=
  if mcMode s b = modeFoc ∨ mcMode s b = modeBrake0 then
    if s.on (F.MC_CTRL_SSAUTO b) ∧ s.get (F.MC_SSMIN_SSMIN b) ≤ speedOf s b then
      enterSixstep b (sectorOf (s.ang[b.val].angle / 2 ^ 16)) (sourceEstimator b s)
    else positionLost b s
  else s

/-- A current over ICLAMP (R285): the clamp begins, or its count restarts. -/
def clampBegin (b : Bridge) (s : State) : State :=
  let n := s.get (F.MC_ICLAMP_CLPER b)
  let s := if 0 < s.mc[b.val].clampLeft ∨ s.mc[b.val].clamping = true then s
    else s.countBit (F.MC_CNT_CLPCNT b) (F.MC_CNT_OVF b) 1
  (s.put (F.MC_STAT_CLAMP b) 1).modMc b (fun m => { m with clampLeft := n })

/-! ## Estimators -/

/-- A sample delivered to a bridge's angle clock by its own source (R112): it waits for the reload. -/
def deliverTo (b : Bridge) (smp : Sample) (s : State) : State :=
  s.modAng b (fun a => { a with deliv := some smp })

/-- Whether an angle clock follows ANGA (R116). -/
def follows (s : State) (b : Bridge) : Bool := b == 1 && s.on (F.ANG_CTRL_FOLLOW 1)

/-- An estimator's sample (SRC 0xC), shown in ESTSPD, and taken by the angle clock when it has selected that source and does not
follow another (R116). -/
def estimatorSample (b : Bridge) (theta ts : Nat) (rate : Int) (s : State) : State :=
  let s := s.putS (F.MC_ESTSPD_ESTSPD b) rate
  if s.get (F.ANG_CTRL_SRC b) = 0xC ∧ follows s b = false then
    deliverTo b { src := 0xC, theta := theta % 2 ^ 20, ts := ts, rate := rate, zero := rate == 0, lowConf := false } s
  else s

/-- The angle of the boundary between sector `sec` and the next (R299). -/
def boundaryAngle (sec : Nat) : Nat := (87381 + sec * 174763) % 2 ^ 20

/-- The centre of a sector in counts, to the nearest count (R297). -/
def sectorCentre (sec : Nat) : Nat := (sec * 2 ^ 20 + 3) / 6

/-- The speed of one sector in `I` ticks, in RATE units (R302). -/
def sectorSpeed (I : Nat) : Nat := if I = 0 then 0 else (2 ^ 36 + 3 * I) / (6 * I)

/-- Loss of synchronism (R305, R306, R312): recorded, then COAST by speed, or OUT when it has come LOSMAX times within the last second. -/
def lossOfSync (b : Bridge) (s : State) : State :=
  let recent := s.mc[b.val].losTicks.filter (fun t => decide (s.tick < t + 200000000))
  let s := (s.put (F.MC_STAT_LOS b) 1).countBit (F.MC_CNT_LOSCNT b) (F.MC_CNT_OVF b) 0
  let s := s.modMc b (fun m => { m with losTicks := s.tick :: recent })
  if s.get (F.MC_WIN_LOSMAX b) ≤ recent.length then positionLost b s
  else
    let short := decide (s.get (F.GD_ASTHR_ASTHR b) ≤ speedOf s b)
    let s := joinedDrop (setMode b modeCoast (clearEstimators b s))
    requestShort b short (s.modMc b (fun m => { m with coastTick := s.tick }))

/-- Recapture from COAST (R311): after two samples that agree in direction and COASTMIN, judged by the angle clock's speed. -/
def recaptureDue (b : Bridge) (s : State) : State :=
  if mcMode s b = modeCoast ∧ 2 ≤ s.mc[b.val].estAgree
      ∧ s.get (F.MC_WIN_COASTMIN b) * 20000 ≤ s.tick - s.mc[b.val].coastTick then
    if s.get (F.MC_SSMIN_SSMIN b) ≤ speedOf s b then enterSixstep b (sectorOf s.mc[b.val].estTheta) s
    else positionLost b s
  else s

/-- A COAST estimator has delivered a sample (R311): whether it agrees in direction with the one before. -/
def recaptureCheck (b : Bridge) (theta : Nat) (rate : Int) (s : State) : State :=
  let dir : Int := rate.sign
  let agree := if s.mc[b.val].estDir = dir ∧ dir ≠ 0 then s.mc[b.val].estAgree + 1 else 1
  recaptureDue b (s.modMc b (fun m => { m with estDir := dir, estAgree := agree, estTheta := theta }))

/-- Whether the source a SRC code names is valid: a position source of R114 other than the estimator. -/
def sourceValid (s : State) (src : Nat) : Bool :=
  match src with
  | 1 => s.on (F.POS_STAT_SCVAL 0)
  | 2 => s.on (F.POS_STAT_ABZVAL 0)
  | 3 => s.on (F.POS_STAT_HALLVAL 0)
  | 4 => s.on (F.POS_STAT_SCVAL 1)
  | 5 => s.on (F.POS_STAT_ABZVAL 1)
  | 6 => s.on (F.POS_STAT_HALLVAL 1)
  | 7 => s.on (F.SENT_STAT_VALID 0)
  | 8 => s.on (F.SENT_STAT_VALID 1)
  | 9 => s.on (F.SENT_STAT_VALID 2)
  | 10 => s.on (F.SENT_STAT_VALID 3)
  | 11 => s.on (F.POS_BORROW_BVALID 0)
  | _ => false

/-- The source in force for a bridge's angle clock: ANGB takes ANGA's under FOLLOW (R116). -/
def sourceOf (s : State) (b : Bridge) : Nat :=
  if follows s b then s.get (F.ANG_CTRL_SRC 0) else s.get (F.ANG_CTRL_SRC b)

/-! ## Start decision (R313 to R316) -/

/-- A refusal of the decision: OFF, REFUSED and REFCODE (R316). -/
def startRefuse (b : Bridge) (code : Nat) (s : State) : State :=
  ((mcOff b s).put (F.MC_STAT_REFUSED b) 1).put (F.MC_STAT_REFCODE b) code

/-- The decision with the speed `w` known (R313, R314). -/
def startWith (b : Bridge) (w : Int) (valid : Bool) (sec : Nat) (s : State) : State :=
  let dirreq := s.get (F.MC_CTRL_DIRREQ b)
  let agrees := dirreq == 3 || (dirreq == 1 && decide (0 < w)) || (dirreq == 2 && decide (w < 0))
  if w.natAbs < s.get (F.MC_CATCHLO_SPEED b) then
    if valid then enterMode b modeFoc s else startRefuse b 1 s
  else if agrees then
    if w.natAbs ≤ s.get (F.MC_CATCHHI_SPEED b) then
      if valid then enterMode b modeFoc s
      else if s.get (F.MC_SSMIN_SSMIN b) ≤ w.natAbs then
        enterSixstep b sec (sourceEstimator b s)
      else startRefuse b 1 s
    else startRefuse b 2 s
  else if w.natAbs ≤ s.get (F.MC_BRAKEMAX_SPEED b) then enterMode b modeBrake0 s
  else startRefuse b 2 s

/-- Whether an ISNS channel of the bridge is invalid (R194). -/
def currentInvalid (s : State) (b : Bridge) : Bool :=
  !(s.bit F.ISNS_STAT_VALID (2 * b.val) && s.bit F.ISNS_STAT_VALID (2 * b.val + 1))

/-- Whether one leg out is carried as two-leg operation (R323): a solo lane with one bridge and TWOLEG. -/
def twoLeg (s : State) (b : Bridge) : Bool :=
  topology s == 0 && bridgesUsed s == 1 && s.on (F.MC_CTRL_TWOLEG b)
    && (s.get (F.GD_STAT_LEGOUT b) == 1 || s.get (F.GD_STAT_LEGOUT b) == 2 || s.get (F.GD_STAT_LEGOUT b) == 4)

/-- The causes that hold an MC block in OUT (R666). -/
def outCause (s : State) (b : Bridge) : Bool :=
  s.on F.SAFE_STAT_CUT || s.on (F.GD_STAT_BOUT b)
    || (s.get (F.GD_STAT_LEGOUT b) != 0 && !twoLeg s b)
    || s.on F.VBUS_STAT_OV2 || s.driver.underVolt
    || currentInvalid s b
    || (match boundEngine s b with | some e => s.on (F.HLE_ENGSTAT_FAULT e) | none => false)
    || holdShort s b

/-- The decision begins (R313): at once with a valid position source, else LISTEN. An active short held in OUT is released, and a
leg out from before is carried as two-leg operation where R323 gives it. -/
def startBegin (b : Bridge) (s : State) : State :=
  let s := s.modMc b (fun m => { m with asReq := false })
  let s := if twoLeg s b then degrade (s.put (F.MC_STAT_DEGR b) 1) else s
  let valid := sourceValid s (sourceOf s b)
  if valid then startWith b (rateOf s b) true (s.get (F.MC_STAT_SECTOR b)) s
  else enterMode b modeListen s

/-- START = 1 written (R313, R666): in OUT refused while a cause persists, whatever is written to EN; else taken in OFF and OUT by an
enabled block, and ignored in any other mode; the bit clears. -/
def startRequest (b : Bridge) (mode : Nat) (s : State) : State :=
  let s := s.put (F.MC_CTRL_START b) 0
  if mode = modeOut ∧ outCause s b = true then (s.put (F.MC_STAT_REFUSED b) 1).put (F.MC_STAT_REFCODE b) 3
  else if s.on (F.MC_CTRL_EN b) ∧ (mode = modeOff ∨ mode = modeOut) then startBegin b s
  else s

/-! ## Line codes (R307, R308) -/

/-- The sector of a line code; none for the invalid codes (R307). -/
def sectorOfCode (code : Nat) : Option Nat :=
  match code with
  | 2 => some 0 | 3 => some 1 | 1 => some 2 | 5 => some 3 | 4 => some 4 | 6 => some 5
  | _ => none

/-- The boundary that a change of line code from the code of sector `old` to that of `sec` marks (R308). The table of R307 gives the codes
of forward rotation; in reverse the back-EMF, and with it the code, is inverted (R280), which moves it by three sectors (log entry 9). -/
def codeBoundary (dir : Int) (old sec : Nat) : Nat :=
  boundaryAngle (if dir = 1 then old else (sec + 3) % 6)

/-- A line code reported while LISTEN or COAST watches it (R308). -/
def lineEstimate (b : Bridge) (code : Nat) (s : State) : State :=
  let m := s.mc[b.val]
  match sectorOfCode code with
  | none => s.modMc b (fun m => { m with lastCode := none, codeChanges := 0, codeDir := 0 })
  | some sec =>
    match m.lastCode with
    | none => s.modMc b (fun m => { m with lastCode := some sec, codeTick := s.tick, codeChanges := 0, codeDir := 0 })
    | some old =>
      if sec = old then s
      else
        let dir : Int := if sec = (old + 1) % 6 then 1 else if sec = (old + 5) % 6 then -1 else 0
        if dir = 0 then
          s.modMc b (fun m => { m with lastCode := some sec, codeTick := s.tick, codeChanges := 0, codeDir := 0 })
        else
          let changes := if m.codeDir = dir then m.codeChanges + 1 else 1
          let span := s.tick - m.codeTick
          let s := s.modMc b (fun m => { m with
            lastCode := some sec, codeTick := s.tick, codeChanges := changes, codeDir := dir })
          if changes < 2 then s
          else
            let theta := codeBoundary dir old sec
            let rate : Int := dir * sectorSpeed span
            if mcMode s b = modeListen then
              estimatorSample b theta s.tick rate (startWith b rate (sourceValid s (sourceOf s b)) (sectorOf theta) s)
            else if mcMode s b = modeCoast then recaptureCheck b theta rate (estimatorSample b theta s.tick rate s)
            else s

/-! ## Current estimator (R309) -/

/-- A result set of the bridge, sampled at the tick `inst` (R112, R185), while COAST holds active short. -/
def currentEstimate (b : Bridge) (inst : Nat) (i1 i2 : Int) (s : State) : State :=
  let m := s.mc[b.val]
  if mcMode s b ≠ modeCoast ∨ m.asReq = false then s
  else
    let y := i1 + 2 * i2
    if 3 * i1 * i1 + y * y ≤ 3 * 2 ^ 30 then s.modMc b (fun m => { m with currentHist := [] })
    else
      let theta := (angleCounts (y * 2 ^ 20) (i1 * isqrt (3 * 2 ^ 40)) + 2 ^ 19) % 2 ^ 20
      let hist := ((theta, inst) :: m.currentHist).take 5
      let s := s.modMc b (fun m => { m with currentHist := hist })
      match hist[4]? with
      | none => s
      | some old =>
        let rate := roundDiv (circDiff 20 theta old.1 * 2 ^ 16) ((inst - old.2 : Nat) : Int)
        recaptureCheck b theta rate (estimatorSample b theta inst rate s)

/-! ## Zero crossings (R300 to R303) -/

/-- Whether the report of a floating phase is accepted now (R300): the high side of the pattern commanded on for ZCSETTLE, no commutation
within ZCBLANK, no edge of a gate command within ZCSETTLE. -/
def zcAccepts (s : State) (b : Bridge) : Bool :=
  let m := s.mc[b.val]
  let settle := s.get (F.MC_ZC_ZCSETTLE b) * 20
  let commanded := (highPhase s b).any (fun k => s.bit (F.GD_GW_CMD b) (k - 1))
  commanded && decide (s.get (F.MC_ZC_ZCBLANK b) * 20 ≤ s.tick - m.commutTick) &&
    decide (settle ≤ s.tick - m.highTick) && decide (settle ≤ s.tick - m.edgeTick)

/-- Texp of R303; none while RATE is 0. -/
def zcExpected (s : State) (b : Bridge) : Option Nat :=
  if speedOf s b = 0 then none else some (2 ^ 36 / (6 * speedOf s b))

/-- Whether a crossing at a tick lies in the window of R303. -/
def zcInWindow (s : State) (b : Bridge) (t : Nat) : Bool :=
  match s.mc[b.val].zcLast, zcExpected s b with
  | some t0, some te =>
    decide (s.get (F.MC_WIN_WINLO b) * te ≤ (t - t0) * 256) && decide ((t - t0) * 128 ≤ s.get (F.MC_WIN_WINHI b) * te)
  | _, _ => true

/-- A crossing accepted (R302). -/
def zcTake (b : Bridge) (t : Nat) (s : State) : State :=
  let m := s.mc[b.val]
  let dir : Int := if rateOf s b < 0 then -1 else 1
  let avg := s.get (F.MC_ZC_ZCAVG b)
  let ints := match m.zcLast with
    | some t0 => ((t - t0) :: m.zcIntervals).take avg
    | none => []
  let rate : Int := if ints.isEmpty then rateOf s b else dir * sectorSpeed (ints.sum / ints.length)
  let s := match ints with
    | i :: _ => s.put (F.MC_ZCINT_ZCINT b) (min i 0xffffff)
    | [] => s
  let s := s.modMc b (fun m => { m with zcLast := some t, zcIntervals := ints, zcMisses := 0 })
  estimatorSample b (sectorCentre (s.get (F.MC_STAT_SECTOR b)) + s.get (F.MC_ZCOFS_ZCOFS b)) t rate s

/-- The floating phase's comparator reported in SIXSTEP (R300). The back-EMF of a sector changes in one sense for both
directions of rotation (log entry 9). -/
def zcReport (b : Bridge) (level : Bool) (s : State) : State :=
  if zcAccepts s b then
    let rising := (sectorPattern (s.get (F.MC_STAT_SECTOR b))).2.2.2
    let old := s.mc[b.val].zcAccepted
    let s' := s.modMc b (fun m => { m with zcAccepted := some (level, s.tick) })
    match old with
    | some (l0, t0) =>
      let t := (t0 + s.tick) / 2
      if l0 ≠ level ∧ level = rising ∧ zcInWindow s b t = true then zcTake b t s' else s'
    | none => s'
  else s

/-! ## VMOT (R318, R320) -/

/-- RGL in Q1.19 for a VMOT value. Between VREG and VBURN it falls linearly; 1.0 is shown as the greatest Q1.19 value. -/
def rglOf (vreg vburn vch rmin : Nat) (v : Nat) : Nat :=
  if v ≤ vreg then 0x7ffff
  else if v < vburn then 0x80000 - (0x80000 - rmin) * (v - vreg) / (vburn - vreg)
  else if v < vch then rmin
  else 0

/-- IDBURN in Q1.19 for a VMOT value, zero or negative. -/
def idburnOf (vburn vch idbmax : Nat) (v : Nat) : Int :=
  if v ≤ vburn then 0
  else if v < vch then -((idbmax * (v - vburn) / (vch - vburn) : Nat) : Int)
  else -(idbmax : Int)

/-- Each 1 µs VMOT value (R318): presented, RGL and IDBURN computed, the chopper request raised at VCHREQ and withdrawn
below VCHREQ − 0.50 V. -/
def vmotUpdate (b : Bridge) (v : Nat) (s : State) : State :=
  let vreg := s.get (F.MC_DEC0_VREG b)
  let vburn := s.get (F.MC_DEC0_VBURN b)
  let vch := s.get (F.MC_DEC1_VCHREQ b)
  let s := s.put (F.MC_VMOT_VMOT b) v
  let s := s.put (F.MC_RGL_RGL b) (min 0x7ffff (rglOf vreg vburn vch (s.get (F.MC_DEC3_RGLMIN b)) v))
  let s := s.putS (F.MC_IDBURN_IDBURN b) (idburnOf vburn vch (s.get (F.MC_DEC2_IDBMAX b)) v)
  if vch ≤ v then s.put (F.MC_STAT_CHREQ b) 1
  else if v + 50 < vch then s.put (F.MC_STAT_CHREQ b) 0
  else s

/-! ## Reactions to other blocks (R322) -/

/-- An ISNS channel of the bridge became invalid. -/
def mcCurrentInvalid (b : Bridge) (s : State) : State :=
  if mcMode s b = modeOff then s else reportBridgeOut b (mcOut b s)

/-- A fault of the engine bound to the bridge: active short above the threshold, else high impedance; OUT. -/
def mcEngineFault (b : Bridge) (s : State) : State :=
  if mcMode s b = modeOff then s
  else
    let short := decide (s.get (F.GD_ASTHR_ASTHR b) ≤ speedOf s b)
    let s := mcOut b s
    reportBridgeOut b (requestShort b (short || s.mc[b.val].asReq) s)

/-- A leg reported at high impedance by the gate driver (R322, R323). -/
def mcLegOut (b : Bridge) (s : State) : State :=
  if topology s ≠ 0 then reportLaneFault b (mcOut b s)
  else if twoLeg s b then followGates b (degrade (s.put (F.MC_STAT_DEGR b) 1))
  else reportBridgeOut b (mcOut b s)

/-- OV2 in force (R356): OUT and bridge out reported. -/
def mcOverVoltage (b : Bridge) (s : State) : State := reportBridgeOut b (mcOut b s)

/-- MODE_REQ acting as a write carries it (R667). -/
def modeReqOff (b : Bridge) (s : State) : State :=
  let m := mcMode s b
  if m = modeOff ∨ m = modeOut then s.put (F.MC_CTRL_MODE_REQ b) 0 else mcOff b s

/-- MODE_REQ 0b01 in SIXSTEP while ANGx_CTRL.SRC names a valid source other than 0xC: FOC at the next sector cue (R304). -/
def modeReqReturn (b : Bridge) (s : State) : State :=
  if mcMode s b = modeSixstep ∧ sourceValid s (s.get (F.ANG_CTRL_SRC b)) = true then
    s.modMc b (fun m => { m with returnReq := true })
  else s

/-- EN = 0: OFF from every mode but OUT with a persisting cause (R666, R667). -/
def mcDisable (b : Bridge) (s : State) : State :=
  if mcMode s b = modeOff ∨ (mcMode s b = modeOut ∧ outCause s b = true) then s else mcOff b s

end Sys2Proof.Machine
end

