-- ==== Sys2Proof/Machine/EngineOps.lean ====
section
/-!
DEFINITION. Triggers and faults of the Heldiog engines (R220 to R223, R228, R235): what other blocks ask of HLE.
-/
namespace Sys2Proof.Machine

/-- The dispatch rank of an originator (R220). -/
def Originator.rank : Originator → Nat
  | .window _ _ => 1 | .inner _ => 2 | .exchange _ => 3 | .cue _ _ => 4 | .engine _ => 5 | .outer _ => 6 | .software => 7

/-- The number of an originator within its rank (R223): bridge A and E0 before bridge B and E1. -/
def Originator.number : Originator → Nat
  | .window b p => 4 * b.val + p.val | .inner b => b.val | .exchange e => e.val | .cue b n => 64 * b.val + n.val
  | .engine e => e.val | .outer b => b.val | .software => 0

/-- Whether an engine takes triggers: not held, EN is 1, FAULT is 0 (R222), and no fault waits for RESTART (R236). -/
def engineTakes (s : State) (e : Eng) : Bool :=
  !enginesHeld s && s.bit F.HLE_CTRL_EN e && !s.on (F.HLE_ENGSTAT_FAULT e) && !s.eng[e.val].halted

/-- Whether an engine would drop a trigger from an originator: one from it is pending (R221). -/
def triggerDrops (s : State) (e : Eng) (o : Originator) : Bool :=
  engineTakes s e && s.eng[e.val].pending.any (fun t => t.orig == o)

/-- A trigger arrives at an engine: pending, dropped and counted, or discarded (R221, R222). -/
def triggerArrive (e : Eng) (o : Originator) (ep : Byte) (s : State) : State :=
  if !engineTakes s e then s
  else if triggerDrops s e o then
    (s.put (F.HLE_ENGSTAT_DROP e) 1).count (F.HLE_ENGCNT_DROPCNT e) (F.HLE_ENGCNT_DROPOVF e)
  else s.modEng e (fun x => { x with pending := x.pending ++ [{ orig := o, ep := ep, at_ := s.tick }] })

/-- A trigger to a logical engine named by a 3-bit field; 7 names none. -/
def triggerTo (eng : Nat) (o : Originator) (ep : Nat) (s : State) : State :=
  if h : eng < 7 then triggerArrive ⟨eng, h⟩ o (BitVec.ofNat 8 ep) s else s

/-- Whether a trigger to the engine a 3-bit field names would be dropped. -/
def triggerToDrops (s : State) (eng : Nat) (o : Originator) : Bool :=
  if h : eng < 7 then triggerDrops s ⟨eng, h⟩ o else false

/-- The same trigger request put to every engine whose enable field is 1. -/
def triggerAll (en ep : Nat → Fld) (o : Originator) (s : State) : State :=
  (List.finRange 7).foldl (fun s (e : Eng) =>
    if s.on (en e) then triggerArrive e o (BitVec.ofNat 8 (s.get (ep e))) s else s) s

/-- The order of dispatch (R223): rank, then arrival, then number. -/
def Trigger.before (a b : Trigger) : Bool :=
  decide (a.orig.rank < b.orig.rank) ||
    (a.orig.rank == b.orig.rank &&
      (decide (a.at_ < b.at_) || (a.at_ == b.at_ && decide (a.orig.number < b.orig.number))))

/-- The trigger that is dispatched next. -/
def nextTrigger : List Trigger → Option Trigger
  | [] => none
  | t :: ts =>
    match nextTrigger ts with
    | none => some t
    | some u => if u.before t then some u else some t

/-- The base of a logical engine's window (R206). -/
def engBase (e : Nat) : Nat := 0x30000000 + 0x8000 * e

/-- The physical engine that carries a logical engine (R205). -/
def physicalOf (s : State) (e : Eng) : Nat := if s.get F.HLE_MAP_SUBST = e.val then 7 else e.val

/-- CAUSE of R235. -/
def causeCode : EngineCause → Nat
  | .watchdog => 1 | .illegal => 2 | .entry => 3 | .port => 4 | .memory => 5 | .parity => 6

/-- Whether a cause is of the hardware class. -/
def causeHardware : EngineCause → Bool
  | .memory => true | .parity => true | _ => false

/-- An engine fault (R235, R237): the activation stops, FAULT, CAUSE and FPC are set, the pending triggers go, P0 to P3 and V
are interrupted, the bound bridge's MC block is signalled; a hardware-class fault also marks the physical engine. -/
def engineFault (e : Eng) (c : EngineCause) (fpc : Nat) (s : State) : State :=
  let s := ((s.put (F.HLE_ENGSTAT_FAULT e) 1).put (F.HLE_ENGSTAT_CAUSE e) (causeCode c)).put (F.HLE_ENGFPC_PC e) fpc
  let s := s.put (F.HLE_ENGSTAT_BUSY e) 0
  let s := s.modEng e (fun x => { x with pending := [], act := none, loops := [], halted := true })
  let s := s.raise (.engineFault e)
  let s := s.when (causeHardware c) (fun s =>
    (s.put (F.HLE_ENGSTAT_HWFAIL e) 1).putBit F.HLE_MAP_FAILED (physicalOf s e) true)
  match s.get (F.HLE_ENGCTRL_BIND e) with
  | 1 => mcEngineFault 0 s
  | 2 => mcEngineFault 1 s
  | _ => s

/-- OPENACT and BANKACT take OPEN and BANK (R228). -/
def takeSettings (e : Eng) (s : State) : State :=
  ((s.put (F.HLE_ENGSTAT_OPENACT e) (s.get (F.HLE_ENGCTRL_OPEN e))).put (F.HLE_ENGSTAT_BANKACT e)
    (s.get (F.HLE_ENGCTRL_BANK e))).put (F.HLE_ENGSTAT_SWPEND e) 0

/-- SWPEND is 1 from a write that makes BANK differ from BANKACT until the next dispatch, whatever is written to BANK in between (R228). -/
def markSwap (e : Eng) (s : State) : State :=
  if s.get (F.HLE_ENGCTRL_BANK e) = s.get (F.HLE_ENGSTAT_BANKACT e) then s else s.put (F.HLE_ENGSTAT_SWPEND e) 1

/-- The dispatch of an idle engine's next trigger (R223, R225, R228): settings taken, accumulators, flags and loop stack
cleared, the entry read; an entry outside 256 to 3071 is an entry fault. -/
def dispatch (e : Eng) (s : State) : State :=
  if s.on (F.HLE_ENGSTAT_BUSY e) || !engineTakes s e then s
  else
    match nextTrigger s.eng[e.val].pending with
    | none => s
    | some t =>
      let s := takeSettings e s
      let entry := (s.memWord (engBase e + 4 * t.ep.toNat)).toNat
      let s := s.modEng e (fun x => { x with
        pending := x.pending.erase t, act := some t.orig, acc := Vector.replicate 2 0, z := false, n := false, s := false, loops := [],
        pc := BitVec.ofNat 12 entry, cycles := 0 })
      if 256 ≤ entry ∧ entry ≤ 3071 then s.put (F.HLE_ENGSTAT_BUSY e) 1
      else engineFault e .entry s.eng[e.val].pc.toNat s

/-- Whether the loop that owns a bridge's RWO fields is open (R230): no engine bound, or that engine's OPENACT. -/
def bridgeLoopOpen (s : State) (b : Bridge) : Bool :=
  match boundEngine s b with
  | none => true
  | some e => s.on (F.HLE_ENGSTAT_OPENACT e)

end Sys2Proof.Machine
end

