-- ==== Sys2Proof/Machine/GateOps.lean ====
section
/-!
DEFINITION. The driver die's own reactions (chapter 10): leg faults and the bridge out.
-/
namespace Sys2Proof.Machine

/-- Both switches of a leg commanded off; a short's reduced sink current marks the switch that was on (R346). -/
def legOff (b : Bridge) (k : Fin 3) (short : Bool) (s : State) : State :=
  turnOffSw b (lowSw k) short (turnOffSw b (highSw k) short s)

/-- All six switches off. -/
def bridgeOff (b : Bridge) (s : State) : State := legOff b 2 false (legOff b 1 false (legOff b 0 false s))

/-- The bridge goes out (R348): all off, BOUT, two-leg operation ended, the MC block signalled (R322). -/
def bridgeOut (b : Bridge) (s : State) : State :=
  let s := ((bridgeOff b s).put (F.GD_STAT_BOUT b) 1).put (F.MC_STAT_DEGR b) 0
  reportBridgeOut b (mcOut b s)

/-- A leg fault latched with its cause field (R346, R348, R349): the leg off, the latch shown in LEGOUT, the fault line to
the MC block; a second faulted leg takes the bridge out. -/
def legFault (b : Bridge) (k : Fin 3) (cause : Fld) (short : Bool) (s : State) : State :=
  let others := withBit (s.get (F.GD_STAT_LEGOUT b)) k false
  let had := s.bit (F.GD_STAT_LEGOUT b) k
  let s := (legOff b k short s).put cause 1
  let s := (s.putBit (F.GD_STAT_LEGOUT b) k true).putBit (F.MC_STAT_LEGOUT b) k true
  if others ≠ 0 then (if s.on (F.GD_STAT_BOUT b) then s else bridgeOut b s)
  else if had then s
  else mcLegOut b s

end Sys2Proof.Machine
end

