-- ==== Sys2Proof/Machine/SafeOps.lean ====
section
/-!
DEFINITION. The cut latch and the isolation switches (chapter 12): setting the latch with everything R428 does, clearing it,
opening and closing the switches.
-/
namespace Sys2Proof.Machine

/-- The causes of the cut latch (R427). -/
def causeClk : Nat := 0
def causeSentinel : Nat := 1
def causeStopn : Nat := 2
def causeVwdg : Nat := 3
def causeLockstep : Nat := 4
def causeImis : Nat := 5
def causeVmis : Nat := 6
def causeNetstop : Nat := 7
def causeIso : Nat := 8
def causeVsw : Nat := 9

/-- CLOSEA or CLOSEB. -/
def closeFld (b : Bridge) : Fld := if b = 0 then F.SAFE_CLOSE_CLOSEA else F.SAFE_CLOSE_CLOSEB

/-- The feedback checks of a bridge begun for the two inputs that do not show the commanded state yet (R440). -/
def beginChecks (b : Bridge) (isOpen : Bool) (s : State) : State :=
  let wait (i : Nat) : Bool := s.bit F.SAFE_ISOFB_FB i != isOpen
  let marked (c : BitVec 4) : Nat := withBit (withBit c.toNat (2 * b.val) (wait (2 * b.val))) (2 * b.val + 1) (wait (2 * b.val + 1))
  s.modSafe (fun x => { x with checking := BitVec.ofNat 4 (marked x.checking) })

/-- CONF shown once both feedback inputs of a bridge commanded open read open (R440). -/
def confirmOpen (b : Bridge) (s : State) : State :=
  if s.bit F.SAFE_ISOFB_FB (2 * b.val) && s.bit F.SAFE_ISOFB_FB (2 * b.val + 1) then s.putBit F.SAFE_ISOFB_CONF b true else s

/-- Both switches of a bridge commanded open (R439): the close register reads 0, a running close check ends, and the checks after an
open command begin (R431, R440). -/
def isoOpen (b : Bridge) (s : State) : State :=
  followVotes (confirmOpen b (beginChecks b true ((s.put (closeFld b) 0).modSafe (fun x => { x with
    isoH := BitVec.ofNat 2 (withBit x.isoH.toNat b false), isoL := BitVec.ofNat 2 (withBit x.isoL.toNat b false) }))))

/-- Both switches of a bridge commanded closed (R439): CONF clears, and the close check begins. -/
def isoClose (b : Bridge) (s : State) : State :=
  let s := (s.put (closeFld b) 1).putBit F.SAFE_ISOFB_CONF b false
  beginChecks b false (s.modSafe (fun x => { x with
    isoH := BitVec.ofNat 2 (withBit x.isoH.toNat b true), isoL := BitVec.ofNat 2 (withBit x.isoL.toNat b true) }))

/-- Whether the switches of a bridge are commanded closed. -/
def isoClosed (s : State) (b : Bridge) : Bool := bitAt s.safe.isoH.toNat b

/-- The conditions of R439 for a close command; a lane with a set-membership fault behaves as one that is not sealed (R42). -/
def mayClose (s : State) (b : Bridge) : Bool :=
  mayTakePart s && !s.on F.SAFE_STAT_CUT && !s.on F.SAFE_STAT_STOPN && bridgeUsed s b
    && s.bit F.SAFE_ISOFB_FB (2 * b.val) && s.bit F.SAFE_ISOFB_FB (2 * b.val + 1)
    && !s.bit F.SAFE_ISOFB_FLTOPN (2 * b.val) && !s.bit F.SAFE_ISOFB_FLTOPN (2 * b.val + 1)

/-- A cause recorded (R427, R431). -/
def recordCause (c : Nat) (s : State) : State := s.putBit F.SAFE_CAUSE_CAUSE c true

/-- What R428 does when the latch sets. Cause SENTINEL sends no NOTICE: CONT is held in reset (R604). -/
def cutActions (notice : Bool) (s : State) : State :=
  let s := isoOpen 1 (isoOpen 0 s)
  let s := mcOut 1 (mcOut 0 s)
  let s := s.modCont (fun c => { c with cutSignal := true })
  let s := if notice then withdraw 1 s else s
  s.raise .cutLatch

/-- A cause sets the cut latch (R428, R431): the latch and its actions once, every cause recorded; a pending interrupt with the
matching cause is taken (R663). -/
def setCut (c : Nat) (s : State) : State :=
  let s := recordCause c s
  let s := s.when (c == causeLockstep) (fun s => s.put F.SAFE_STAT_NMILS 0)
  let s := s.when (c == causeNetstop) (fun s => s.put F.SAFE_STAT_NMINS 0)
  if s.on F.SAFE_STAT_CUT then s
  else
    let s := wearOne wearCut ((s.put F.SAFE_STAT_CUT 1).countBit F.SAFE_CNT_CUTCNT F.SAFE_CNT_OVF 0)
    cutActions (c != causeSentinel) (ownRecord 2 [s.get F.SAFE_CAUSE_CAUSE] none s)

/-! ## The role of a lane -/

/-- Whether the legs of a bridge leave it without its full torque (R53): out, or a leg faulted that R323 does not carry as two-leg operation. -/
def legsFaulted (s : State) (b : Bridge) : Bool := s.on (F.GD_STAT_BOUT b) || (s.get (F.GD_STAT_LEGOUT b) != 0 && !twoLeg s b)

/-- Whether a lane-level fault of R53 stands: the cut latch set, an undervoltage, a used bridge with faulted legs; in a solo lane, all of
them. -/
def laneFault (s : State) : Bool :=
  let used := (List.finRange 2).filter (fun b => bridgeUsed s b)
  s.cont.cutSignal || s.driver.underVolt
    || (if topology s = 0 then !used.isEmpty && used.all (fun b => legsFaulted s b) else used.any (fun b => legsFaulted s b))

/-- Whether the lane can hold a role: enabled, sealed and without a membership fault, not halted in debug (R40, R42, R110), and no lane-level
fault standing (R53). -/
def mayHoldRole (s : State) : Bool :=
  s.on F.CONT_CTRL_EN && mayTakePart s && !s.cont.debugHalt && !laneFault s

/-- A CLAIM (R378). -/
def sendClaim (s : State) : State :=
  sendFrame 2 ([BitVec.ofNat 8 (laneId s), 0] ++ leBytes 2 (s.get F.CONT_CYC_CYC) ++ leBytes 4 (sharesOf s).pack) s

/-- The lane becomes lead: shares in force, CLAIM sent (R369). -/
def becomeLead (t : Shares) (s : State) : State :=
  let s := putShares t ((s.put F.CONT_STAT_ROLE 2).put F.CONT_STAT_QUAL 0)
  sendClaim (s.modCont (fun c => { c with claimWait := false, frame := none, misses := 0 }))

/-- The set leaves hold (R56, R417): the active short that hold asked for is dropped (R429); one that an engine fault asked for
stays. -/
def holdEnd (s : State) : State :=
  let drop (s : State) (b : Bridge) : State :=
    let faulted := match boundEngine s b with | some e => s.on (F.HLE_ENGSTAT_FAULT e) | none => false
    if mcMode s b = modeOut ∧ faulted = false then requestShort b false s else s
  if inHold s then drop (drop (s.put F.CONT_STAT_SETSTATE 1) 0) 1 else s

/-- A solo lane that is drive-ready and holds no role leads, as soon as nothing keeps it from one (R44). -/
def soloLead (s : State) : State :=
  if topology s = 0 ∧ s.on F.KEEP_STAT_READY = true ∧ s.get F.CONT_STAT_ROLE = 0 ∧ mayHoldRole s = true then
    judgeSet ((becomeLead ⟨1000, 0, 0⟩ (holdEnd (s.modCont (fun c => { c with ready := true, withdrawing := false })))).put F.CONT_STAT_SETSTATE 0)
  else s

/-- The latch cleared at a clearing edge with no cause left (R432, R437): an outstanding ARM goes (R435); the isolation switches
stay open and the MC blocks in OUT. The lane is drive-ready anew: it enters its set as a stand-in, or leads a solo one (R44, R437). EXTEST, CLAMP and HIGHZ, available only while the latch is set, act as BYPASS from then on (R581). -/
def clearCut (s : State) : State :=
  if s.on F.SAFE_STAT_CUT then
    let s := (s.put F.SAFE_STAT_CUT 0).countBit F.SAFE_CNT_CLRCNT F.SAFE_CNT_OVF 1
    (s.put F.SAFE_STAT_ARMED 0).modSafe (fun x => { x with armed := none })
      |>.modCont (fun c => { c with cutSignal := false, ready := c.ready || s.on F.KEEP_STAT_READY })
      |>.modJtag (fun j => { j with drive := .normal }) |> soloLead
  else s

/-- A clearing edge (R432): the latch clears when every cause bit is 0; else the edge is refused, which RESREF shows. -/
def clearingEdge (s : State) : State := if s.get F.SAFE_CAUSE_CAUSE = 0 then clearCut s else s.put F.SAFE_STAT_RESREF 1

end Sys2Proof.Machine
end

