-- ==== Sys2Proof/Machine/ContOps.lean ====
section
/-!
DEFINITION. What CONT does at reference ticks (chapter 11): the lane demand, the beat, the state copy of a stand-in, planned
commits and swaps at an outer tick, and the slate.
-/
namespace Sys2Proof.Machine

/-- `num / den` where the spec gives a real formula and no rounding: the integer below or above, by a free value; exact where
the division is exact (log entry 10). -/
def State.roundFree (s : State) (num : Int) (den : Nat) : Int :=
  let q := num / (den : Int)
  if num % (den : Int) = 0 then q else q + (s.free.toNat % 2 : Nat)

/-- The limit CAP of a bridge: CAP2 in two-leg operation (R371). -/
def capOf (s : State) (b : Bridge) : Nat :=
  if s.on (F.MC_STAT_DEGR b) then s.get (F.MC_CAP2_CAP2 b) else s.get F.CONT_CAP_CAP

/-- The last D that landed before the present cycle (R246). -/
def demandD (s : State) : Int :=
  if s.cont.dTick = some s.tick then s.cont.dPrior.toInt else s.getS F.CONT_D_D

/-- The share this lane drives with: a withdrawn lane holds 0 ‰ (R44). -/
def shareInForce (s : State) : Nat := if s.get F.CONT_STAT_ROLE = 0 then 0 else (sharesOf s).of (laneId s)

/-- The lane demand of R371 for a bridge, in Q1.19: sign(D) × min(|D| × share / 1000, CAP / 1000) / n. -/
def laneDemand (s : State) (b : Bridge) : Int :=
  let d := demandD s
  let share := shareInForce s
  let n := max 1 (bridgesUsed s)
  let num := min (d.natAbs * share) (capOf s b * 2 ^ 19)
  let l := s.roundFree num (1000 * n)
  if d < 0 then -l else l

/-- The lane demand presented to a bridge's inner loop at its inner tick (R246, R371). CONT_LDEM shows the one presented last; the
bridge's own engine reads its bridge's. -/
def presentDemand (b : Bridge) (s : State) : State :=
  if bridgeUsed s b then
    let l := laneDemand s b
    ((s.putS F.CONT_LDEM_LDEM l).modCont (fun c => { c with presented := upd c.presented b (fun _ => l) })).drew
  else s

/-- The demand presented anew to the bridges whose inner tick this is, after a share has come into force in it: the new lane demand holds
from this tick (R246, R395). -/
def representDemand (before s : State) : State :=
  let one (b : Bridge) (s : State) : State := if s.ang[b.val].inners.head? = some s.tick then presentDemand b s else s
  if shareInForce before = shareInForce s then s else one 1 (one 0 s)

/-- CONT_LDEM as a requester reads it: a Heldiog engine bound to a bridge in use sees that bridge's demand (R246). -/
def ldemValue (s : State) (h : Option Nat) : Word :=
  let sees (b : Bridge) : Bool :=
    bridgeUsed s b && (match boundEngine s b, h with | some e, some i => physicalOf s e == i | _, _ => false)
  if sees 0 then BitVec.ofInt 32 s.cont.presented[0]
  else if sees 1 then BitVec.ofInt 32 s.cont.presented[1]
  else s.rd F.CONT_LDEM_LDEM.addr

/-- LEADOUT at a reference inner tick (R385): a lead toggles it, a stand-in holds it high, a withdrawn lane low. -/
def beat (s : State) : State :=
  let role := s.get F.CONT_STAT_ROLE
  s.modCont (fun c => { c with leadOut := !c.withdrawing && ((role == 2 && !c.leadOut) || role == 1) })

/-! ## The CONT frame (R388) -/

def ContFrame.cyc (f : ContFrame) : Nat := bytesAt f.payload 0 2
def ContFrame.flags (f : ContFrame) : Nat := bytesAt f.payload 2 2
def ContFrame.d (f : ContFrame) : Nat := bytesAt f.payload 4 4 % 2 ^ 20
def ContFrame.shares (f : ContFrame) : Shares := Shares.unpack (bytesAt f.payload 8 4)
def ContFrame.spseq (f : ContFrame) : Nat := bytesAt f.payload 12 4
def ContFrame.swapCyc (f : ContFrame) : Nat := bytesAt f.payload 16 2
def ContFrame.commitCyc (f : ContFrame) : Nat := bytesAt f.payload 18 2
def ContFrame.commit (f : ContFrame) : Shares := Shares.unpack (bytesAt f.payload 20 4)
def ContFrame.word (f : ContFrame) (i : Nat) : Nat := bytesAt f.payload (32 + 4 * i) 4

/-- The state words of a CONT frame copied into the lane's own outer engine (R390). -/
def copyState (f : ContFrame) (s : State) : State :=
  let e := s.get F.CONT_CFCFG_OENG
  let base := s.get F.CONT_CFCFG_STBASE
  (List.range (s.get F.CONT_CFCFG_NST)).foldl
    (fun s i => s.setMem20 (dataAddr e ((base + i) % 2048)) (BitVec.ofNat 20 (f.word i))) s

/-- The outer engine as a logical engine; none for a field value that names no engine. -/
def outerEngine (s : State) : Option Eng :=
  let e := s.get F.CONT_CFCFG_OENG
  if h : e < 7 then some ⟨e, h⟩ else none

/-- A swap applied at its cycles (R398): OPEN = 1 at SWAPCYC, then OPEN = 0 with the target BANK one cycle later. -/
def applySwap (s : State) : State :=
  match s.cont.swap, outerEngine s with
  | some w, some e =>
    let cyc := s.get F.CONT_CYC_CYC
    if cyc = w.cyc then s.put (F.HLE_ENGCTRL_OPEN e) 1
    else if cyc = (w.cyc + 1) % 65536 then
      let s := (s.put (F.HLE_ENGCTRL_OPEN e) 0).putB (F.HLE_ENGCTRL_BANK e) w.bank
      let s := markSwap e s
      let s := s.modCont (fun c => { c with swap := none, lastSwap := some w })
      if s.get F.CONT_STAT_ROLE = 2 then (s.put F.CONT_SWAP_PEND 0).put F.CONT_SWAP_DONE 1 else s
    else s
  | _, _ => s

/-! ## Planned share transfers (R397, R416) -/

/-- The shares a switch-back moves to: those at rest, or with a lane missing those of R50. -/
def sharesTarget (s : State) : Shares :=
  if (lanesLeft s 3).length = laneCount s then sharesAtRest s else sharesAfter s 3

/-- `total` split over limits whose sum is at least `total`; which split the spec leaves open where more than one fits. -/
def splitOver (free : Nat) : Nat → List Nat → List Nat
  | _, [] => []
  | total, l :: t =>
    let lo := total - t.sum
    let hi := min l total
    let x := lo + free % (hi - lo + 1)
    x :: splitOver free (total - x) t

/-- The next triple of a switch-back: each lane at most SBSTEP nearer to its target, the sum kept. -/
def nextShares (s : State) : Shares :=
  let step := s.get F.CONT_SB_SBSTEP
  let cur := sharesOf s
  let tgt := sharesTarget s
  let gives := [min step (cur.a - tgt.a), min step (cur.b - tgt.b), min step (cur.c - tgt.c)]
  let takes := [min step (tgt.a - cur.a), min step (tgt.b - cur.b), min step (tgt.c - cur.c)]
  let total := min gives.sum takes.sum
  let g := splitOver s.free.toNat total gives
  let r := splitOver s.free.toNat total takes
  ⟨cur.a - g.getD 0 0 + r.getD 0 0, cur.b - g.getD 1 0 + r.getD 1 0, cur.c - g.getD 2 0 + r.getD 2 0⟩

/-- The payload of a SHARE frame (R378). -/
def sharePayload (code : Nat) (t : Shares) (cyc : Nat) : List Byte :=
  [BitVec.ofNat 8 code, 0, 0, 0] ++ leBytes 4 t.pack ++ leBytes 2 cyc ++ [0, 0]

/-- The lead proposes a triple (R397). -/
def propose (t : Shares) (s : State) : State :=
  let cyc := s.get F.CONT_CYC_CYC
  let s := { s with peers := s.peers.map (fun p => { p with accepted := false }) }
  (sendFrame 8 (sharePayload 1 t cyc) s).modCont (fun c => { c with proposal := some ⟨t, cyc⟩ })

/-- The next step of a switch-back: a proposal, or its end at the target (R416). -/
def switchStep (s : State) : State :=
  if s.on F.CONT_SB_BUSY then
    if sharesOf s = sharesTarget s then ((s.put F.CONT_SB_BUSY 0).put F.CONT_SB_DONE 1).put F.CONT_SB_GO 0
    else (propose (nextShares s) s).drew
  else s

/-- Whether every lane that must answer a proposal has accepted it, as far as this lane has heard (R397). -/
def allAccepted (s : State) : Bool :=
  (lanesLeft s (laneId s)).all (fun l => roleSeen s l == 2 ||
    (match l with | 0 => s.peers[0].accepted | 1 => s.peers[1].accepted | _ => s.peers[2].accepted))

/-- Whether a lane may take a triple: one that R40 or R42 keeps out takes none that raises its own share. -/
def takesShare (s : State) (t : Shares) : Bool := mayTakePart s || decide (t.of (laneId s) ≤ (sharesOf s).of (laneId s))

/-- A commit applied at its cycle (R397). A lane that accepted a proposal and was never shown the commit withdraws at the outer tick
of COMMITCYC, two cycles after the last acceptance (log entry 102). The lead sends its next proposal at that outer tick at the
earliest. -/
def applyCommit (s : State) : State :=
  let cyc := s.get F.CONT_CYC_CYC
  match s.cont.commit with
  | some c =>
    if c.cyc = cyc then
      let old := sharesOf s
      let giver := if c.shares.a < old.a then 0 else if c.shares.b < old.b then 1 else 2
      let s := if takesShare s c.shares then putShares c.shares s else s
      let s := s.modCont (fun k => { k with commit := none, accepted := none, proposal := none })
      if s.get F.CONT_STAT_ROLE = 2 then
        let s := s.modCont (fun k => { k with lastCommit := some c })
        let s := ((s.put F.CONT_LAST_KIND 4).put F.CONT_LAST_TO (laneId s)).put F.CONT_LAST_CYC cyc
        switchStep (s.put F.CONT_LAST_FROM giver)
      else s
    else s
  | none =>
    match s.cont.accepted with
    | some _ =>
      if (s.cont.acceptedAt + 2) % 65536 = cyc ∧ allAccepted s = true then
        withdraw 1 (s.modCont (fun k => { k with accepted := none }))
      else s
    | none => s

/-- A frame copied without a mismatch counts toward QUALN; a stand-in that reaches it is qualified (R369). -/
def qualify (s : State) : State :=
  if s.cont.misRun = 0 then
    let s := s.modCont (fun c => { c with qualRun := c.qualRun + 1 })
    if s.get F.CONT_CMP_QUALN ≤ s.cont.qualRun then s.put F.CONT_STAT_QUAL 1 else s
  else s.modCont (fun c => { c with qualRun := 0 })

/-- The triple of a CONT frame taken by a stand-in that is not qualified, at its outer tick: how the other lanes stand. Its own
share is left to the transfers of R48 (log entry 38). -/
def learnShares (t : Shares) (s : State) : State :=
  if s.on F.CONT_STAT_QUAL = false ∧ t.of (laneId s) = (sharesOf s).of (laneId s) then putShares t s else s

/-- The state words of the outer engine's data RAM (R388). -/
def stateWords (s : State) : List Byte :=
  (List.range (s.get F.CONT_CFCFG_NST)).flatMap (fun i =>
    s.bytes (dataAddr (s.get F.CONT_CFCFG_OENG) ((s.get F.CONT_CFCFG_STBASE + i) % 2048)) 4)

/-- Whether this lane votes on a cycle (R414): in a triplex set, whatever the other lanes do. A lane without a role has no result of
the set to compare (log entry 102). -/
def voteHeld (s : State) : Bool := topology s == 3 && s.get F.CONT_STAT_ROLE != 0

/-- The end of an outer cycle without a vote (R414): the DOWN of both others has not come, so MISCMP is set and the run of odd
results ends. -/
def voteMissed (s : State) : State :=
  if s.cont.voteDue && !s.cont.voted && voteHeld s then
    degrade ((s.put F.CONT_STAT_MISCMP 1).modCont (fun c => { c with voteRun := 0 }))
  else s

/-- Whether an engine takes the outer tick of the main bridge as a trigger (R135). -/
def outerTriggers (s : State) : Bool :=
  (List.finRange 7).any (fun e =>
    engineTakes s e && s.on (if mainBridge s = 0 then F.HLE_ENGTRG1_OUTA_EN e else F.HLE_ENGTRG1_OUTB_EN e))

/-- Whether the outer activation waits or runs: the trigger that the outer tick raised in the outer engine (R388). -/
def outerRuns (s : State) : Bool :=
  match outerEngine s with
  | some e => s.eng[e.val].act == some (.outer (mainBridge s)) || s.eng[e.val].pending.any (fun t => t.orig == .outer (mainBridge s))
  | none => false

/-- CONT at an outer tick of the bridge that times the outer loop (R390, R397, R398): D of the cycle that ends is kept as
DOWN, the cycle number advances, a stand-in copies the stored frame's state words, and due commits and swaps apply. The state
words of a finished outer activation are kept for a frame with LATE (R388). -/
def contOuterTick (s : State) : State :=
  let s := voteMissed s
  let s := s.modCont (fun c => { c with
    ownD := BitVec.ofNat 20 (s.get F.CONT_D_D), ownSpseq := BitVec.ofNat 32 (s.get F.CONT_SPSEQ_SPSEQ), landed := false, lateDue := outerTriggers s, frameCyc := false, voted := false, voteDue := voteHeld s
    lastWords := if outerRuns s then c.lastWords else stateWords s })
  let s :=
    if s.get F.CONT_STAT_ROLE = 1 then
      match s.cont.frame with
      | some f => qualify ((learnShares f.shares (copyState f s)).modCont (fun c => { c with frame := none }))
      | none => s
    else s
  representDemand s (judgeSet (applySwap (applyCommit (s.inc F.CONT_CYC_CYC))))

/-- The first inner tick after an outer tick (R247): D not landed before its cycle makes the outer cycle late. -/
def lateCheck (s : State) : State :=
  if s.cont.lateDue then
    let s := s.modCont (fun c => { c with lateDue := false })
    if s.cont.landed = false ∨ s.cont.dTick = some s.tick then
      (s.put F.CONT_STAT_LATE 1).countBit F.CONT_CNT_LATECNT F.CONT_CNT_OVF 2
    else s
  else s

/-! ## The slate (R381 to R383) -/

/-- Whether this lane leads the slate: the lead, or before there is one the drive-ready lane with the lowest lane ID. -/
def slateLeader (s : State) : Bool :=
  s.get F.CONT_STAT_ROLE == 2 ||
    (s.cont.ready && (List.range 3).all (fun l => l == laneId s || roleSeen s l != 2)
      && (List.range (laneId s)).all (fun l => !readySeen s l))

/-- The slate pair inserted on every port at a reference valley: the ticks from the valley to K28.1 (0 to 3, not fixed by the spec) and
whether the valley is an outer tick. -/
def slateSend (outer : Bool) (s : State) : State :=
  if slateLeader s then
    let off := s.free.toNat % 4
    let put (e : Port) (s : State) : State :=
      if portUp s e then s.modEbp e (fun x => { x with slateOut := some (off, outer) }) else s
    (put 1 (put 0 s)).drew
  else s

/-- A slate error judged at a valley (R383): four valleys over 100 ns clear SLATELOCK and set SLATEFLT; a joined set drops its
six-phase law. -/
def slateJudge (e : Port) (err : Int) (s : State) : State :=
  if 20 < err.natAbs then
    let s := s.modEbp e (fun x => { x with bad := x.bad + 1 })
    if 4 ≤ s.ebp[e.val].bad then
      let s := (s.put (F.EBP_STAT_SLATELOCK e) 0).put (F.EBP_STAT_SLATEFLT e) 1
      joinedDrop (degrade (s.put F.CONT_STAT_SLATEFLT 1))
    else s
  else s.modEbp e (fun x => { x with bad := 0 })

/-- The error of a port's last slate taken by a follower: the rate trim moved by one sixteenth of it and limited to ±250 ppm,
and the error judged (R382, R383). -/
def slateTake (b : Bridge) (e : Port) (s : State) : State :=
  match s.ebp[e.val].err with
  | none => s
  | some err =>
    let per := s.get (F.ANG_PER_ASYNC_PER b)
    let trim := max (-25000) (min 25000 (s.getS (F.EBP_SLATE_TRIM e) + roundDiv (err * 100000000) (16 * per)))
    slateJudge e err ((s.putS (F.EBP_SLATE_TRIM e) trim).modEbp e (fun x => { x with err := none }))

/-- The port whose slates a follower acts on: E0 when both have an error, and between slates the one that holds a trim. -/
def slatePort (s : State) : Port :=
  if s.ebp[0].err.isSome then 0
  else if s.ebp[1].err.isSome then 1
  else if s.getS (F.EBP_SLATE_TRIM 0) ≠ 0 then 0 else 1

/-- The correction of a follower at its own reference valley (R382): phase steps limited to floor(ASYNC_PER / 64) and the steps
of the rate trim, both put into the period that begins. -/
def slateCorrect (b : Bridge) (s : State) : State :=
  let e := slatePort s
  let per := s.get (F.ANG_PER_ASYNC_PER b)
  let lim : Int := per / 64
  let phase := max (-lim) (min (s.ebp[e.val].err.getD 0) lim)
  let s' := slateTake b 1 (slateTake b 0 s)
  let trim := s'.getS (F.EBP_SLATE_TRIM e)
  if slateLeader s || (s.ebp[e.val].err.isNone && trim == 0) then s
  else
    let total := s'.ang[b.val].trimRem + trim * per
    let whole := total / 100000000
    s'.modAng b (fun a => { a with
      trimRem := total - whole * 100000000, ref := { a.ref with adjust := phase + whole } })

end Sys2Proof.Machine
end

