-- ==== Sys2Proof/Machine/AngleOps.lean ====
section
/-!
DEFINITION. The angle clock, the cue sheet and the carriers of an ANG block (chapter 04): reload, standstill, crossings, the
advance of a tick, inner and outer ticks.
-/
namespace Sys2Proof.Machine

/-- The angle in counts (the integer part). -/
def angleOf (s : State) (b : Bridge) : Nat := s.ang[b.val].angle / 2 ^ 16

/-- The angle set, with its register. -/
def setAngle (b : Bridge) (a36 : Nat) (s : State) : State :=
  (s.modAng b (fun a => { a with angle := a36 % 2 ^ 36 })).put (F.ANG_ANGLE_ANGLE b) (a36 / 2 ^ 16)

/-- The addresses of CUEnPOS and CUEnCFG. -/
def cuePosAddr (b : Bridge) (n : Cue) : Nat := 0x40004100 + 0x1000 * b.val + 8 * n.val
def cueCfgAddr (b : Bridge) (n : Cue) : Nat := 0x40004104 + 0x1000 * b.val + 8 * n.val

/-- The old definition of a cue, in the tick of the write that replaced it (R127). -/
def cuePrior (s : State) (b : Bridge) (n : Nat) : Option CuePrior :=
  (Tab.get (fun _ => none) s.ang[b.val].prior n).filter (fun p => p.at_ == s.tick)

/-- The CUEnPOS word in force (R127). -/
def cuePosWord (s : State) (b : Bridge) (n : Nat) : Word :=
  match cuePrior s b n with
  | some p => p.pos
  | none => Tab.get (fun _ => 0) s.ang[b.val].pos n

/-- The CUEnCFG word in force (R127). -/
def cueCfgWord (s : State) (b : Bridge) (n : Nat) : Word :=
  match cuePrior s b n with
  | some p => p.cfg
  | none => s.rd (0x40004104 + 0x1000 * b.val + 8 * n)

/-- Whether a cue is armed (R123). -/
def cueArmed (s : State) (b : Bridge) (n : Nat) : Bool :=
  match cuePrior s b n with
  | some p => p.armed
  | none => bitAt s.ang[b.val].armed.toNat n

/-- The position of an angle cue in counts. -/
def cuePos (s : State) (b : Bridge) (n : Nat) : Nat := (cuePosWord s b n).toNat % 2 ^ 20

/-! ## Crossings (R122, R123) -/

/-- Forward crossing of position `c` on a circle of `2^w` when moving by `d` from `a0`. -/
def crossesFwd (w a0 c : Nat) (d : Int) : Bool :=
  let g : Int := ofSigned w ((c : Int) - a0)
  decide (0 < d ∧ 0 < g ∧ g ≤ d)

/-- Reverse crossing. -/
def crossesRev (w a0 c : Nat) (d : Int) : Bool :=
  let g : Int := ofSigned w ((a0 : Int) - c)
  decide (d < 0 ∧ 0 < g ∧ g ≤ -d)

/-- Whether a cue is an enabled angle cue, and whether it is an enabled carrier cue (R121). -/
def isAngleCue (s : State) (b : Bridge) (n : Nat) : Bool := (cueCfgWord s b n).toNat % 4 == 1
def isCarrierCue (s : State) (b : Bridge) (n : Nat) : Bool := (cueCfgWord s b n).toNat % 4 == 3

/-- Whether an armed angle cue fires in a move by `d` from `a0` (R122). -/
def cueFires (s : State) (b : Bridge) (n : Nat) (a0 : Nat) (d : Int) : Bool :=
  isAngleCue s b n && cueArmed s b n &&
    ((crossesFwd 20 a0 (cuePos s b n) d && bitAt (cueCfgWord s b n).toNat 2) ||
     (crossesRev 20 a0 (cuePos s b n) d && bitAt (cueCfgWord s b n).toNat 3))

/-- The distance of a cue from `a0` in the direction of the move. -/
def cueDistance (s : State) (b : Bridge) (n : Nat) (a0 : Nat) (d : Int) : Nat :=
  if 0 < d then ofSigned 20 ((cuePos s b n : Int) - a0) else ofSigned 20 ((a0 : Int) - cuePos s b n)

/-- Insertion in the order of distance, lower index first at the same distance (R136). -/
def insertCue (dist : Cue → Nat) (c : Cue) : List Cue → List Cue
  | [] => [c]
  | x :: t => if dist c < dist x then c :: x :: t else x :: insertCue dist c t

/-- A cue fires (R122, R126): its FIRED bit is set and its action queued, with the direction of a sector action: the sign of RATE, or the direction in
which the angle crossed the cue while RATE is 0. -/
def fireCue (b : Bridge) (n : Cue) (dir : Int) (s : State) : State :=
  let s := s.putBit (F.ANG_FIRED_FIRED b (n.val / 32)) (n.val % 32) true
  let d := if rateOf s b = 0 then dir else (rateOf s b).sign
  s.modAng b (fun a => { a with queue := a.queue ++ [{ cue := n, angle := a.angle / 2 ^ 16, cfg := cueCfgWord s b n, dir := d }] })

/-- A cue disarmed; the definition that a write has replaced in this tick is disarmed alone (R123, R127, log entry 91). -/
def disarmCue (b : Bridge) (n : Cue) (s : State) : State :=
  s.modAng b (fun a => match cuePrior s b n with
    | some p => { a with prior := Tab.put (fun _ => none) a.prior n.val (some { p with armed := false }) }
    | none => { a with armed := BitVec.ofNat 64 (withBit a.armed.toNat n false) })

/-- An angle cue fires and is disarmed (R123). -/
def fireAngleCue (b : Bridge) (dir : Int) (s : State) (n : Cue) : State := disarmCue b n (fireCue b n dir s)

/-- A cue armed. -/
def armCue (b : Bridge) (n : Cue) (s : State) : State :=
  s.modAng b (fun a => { a with armed := BitVec.ofNat 64 (withBit a.armed.toNat n true) })

/-- Every enabled angle cue re-armed (R120). -/
def armAll (b : Bridge) (s : State) : State :=
  (List.finRange 64).foldl (fun s (n : Cue) => if isAngleCue s b n then armCue b n s else s) s

/-- The cues a move of the angle from `a0` by `d` fires and re-arms; the angle after the move is already in force. While
STILL is 1 no cue fires on angle (R119). -/
def moveCues (b : Bridge) (a0 : Nat) (d : Int) (s : State) : State :=
  let hits := if s.on (F.ANG_STAT_STILL b) then []
    else ((List.finRange 64).filter (fun (n : Cue) => cueFires s b n a0 d)).foldl
      (fun l (n : Cue) => insertCue (fun (m : Cue) => cueDistance s b m a0 d) n l) []
  let rearm := (List.finRange 64).filter (fun (n : Cue) =>
    let p := (cuePos s b n + 2 ^ 19) % 2 ^ 20
    isAngleCue s b n && !cueArmed s b n &&
      (crossesFwd 20 a0 p d || crossesRev 20 a0 p d || angleOf s b == p))
  let s := hits.foldl (fireAngleCue b d.sign) s
  rearm.foldl (fun s n => armCue b n s) s

/-- The step of a period at which a carrier cue fires (R125). -/
def carrierCueStep (s : State) (b : Bridge) (n : Nat) : Nat :=
  (pwmCarrier s b).per * ((cuePosWord s b n).toNat % 65536) / 65536

/-- The carrier cues reached when the PWM carrier moves from step `s0` (excluded) to `s1`, in the order of their steps (R125, R136). -/
def carrierCues (b : Bridge) (s0 : Int) (s1 : Nat) (s : State) : State :=
  let hits := (List.finRange 64).filter (fun (n : Cue) =>
    isCarrierCue s b n && decide (s0 < (carrierCueStep s b n : Int) ∧ carrierCueStep s b n ≤ s1))
  (hits.foldl (fun l (n : Cue) => insertCue (fun (m : Cue) => carrierCueStep s b m) n l) []).foldl (fun s n => fireCue b n 0 s) s

/-! ## Standstill and reload (R112, R113, R117, R118) -/

/-- BRAKE0 left for FOC once |RATE| is below CATCHLO (R315). -/
def brakeEnd (b : Bridge) (s : State) : State :=
  if mcMode s b = modeBrake0 ∧ speedOf s b < s.get (F.MC_CATCHLO_SPEED b) then followGates b (setMode b modeFoc s) else s

/-- STILL set: RATE reads 0 (R119). -/
def setStill (b : Bridge) (s : State) : State :=
  brakeEnd b (((s.put (F.ANG_STAT_STILL b) 1).put (F.ANG_RATE_RATE b) 0).modAng b (fun a => { a with slow := 0 }))

/-- A speed of at least SSMIN within a sector: the sector is not one below it (R305). -/
def sectorFast (b : Bridge) (s : State) : State :=
  s.when (decide (s.get (F.MC_SSMIN_SSMIN b) ≤ speedOf s b)) (fun s => s.modMc b (fun m => { m with slowSector := false }))

/-- A reload that ends with speed `rate` in force, zero at standstill. -/
def reloadTo (b : Bridge) (theta : Nat) (rate : Int) (age : Nat) (s : State) : State :=
  let a0 := angleOf s b
  let s := s.putS (F.ANG_RATE_RATE b) rate
  let s := setAngle b (ofSigned 36 ((theta : Int) * 2 ^ 16 + rate * age)) s
  let step := circDiff 20 (angleOf s b) a0
  let big := decide (s.get (F.ANG_STEPLIM_STEPLIM b) < step.natAbs)
  let s := s.when big (fun s =>
    (s.put (F.ANG_STAT_STEP b) 1).count (F.ANG_COUNT_STEPCNT b) (F.ANG_COUNT_STEPOVF b))
  let s := moveCues b a0 step s
  if big ∧ s.get (F.ANG_CTRL_SRC b) = 0xC ∧ mcMode s b = modeSixstep then lossOfSync b s else s

/-- The reload with a delivered sample (R112): standstill is entered on a speed of zero, left on a valid confident speed of at least
STILL_SPD; MC leaves BRAKE0 below CATCHLO (R315). -/
def reload (b : Bridge) (smp : Sample) (s : State) : State :=
  let age := s.tick - smp.ts
  let fast := decide (s.get (F.ANG_STILL_STILL_SPD b) ≤ smp.rate.natAbs)
  let s :=
    if smp.zero then reloadTo b smp.theta 0 0 (setStill b s)
    else if s.on (F.ANG_STAT_STILL b) then
      if fast && !smp.lowConf then
        reloadTo b smp.theta smp.rate age (armAll b ((s.put (F.ANG_STAT_STILL b) 0).modAng b (fun a => { a with slow := 0 })))
      else reloadTo b smp.theta 0 0 s
    else reloadTo b smp.theta smp.rate age s
  brakeEnd b (sectorFast b s)

/-- A sample offered to both angle clocks by the source with SRC code `src`: each that has selected the source takes it. -/
def deliver (smp : Sample) (s : State) : State :=
  let put (b : Bridge) (s : State) : State :=
    if s.get (F.ANG_CTRL_SRC b) = smp.src ∧ follows s b = false then deliverTo b smp s else s
  put 1 (put 0 s)

/-- SRC written (R114, R115): 0x0 holds the angle at standstill; any other code goes on from the last sample. ANGB under FOLLOW
ignores its SRC (R116). A sample of the old source that was delivered and is not yet reloaded is dropped, which the spec does not say (DESIGN
CHOICE, log entry 91). -/
def setSource (b : Bridge) (src : Nat) (s : State) : State :=
  let s := (s.put (F.ANG_CTRL_SRC b) src).modAng b (fun a => { a with deliv := none })
  if src = 0 ∧ follows s b = false then setStill b s else s

/-! ## The advance of a tick (R111, R116, R117) -/

/-- The ticks in a row with |RATE| below STILL_SPD (R117). -/
def slowTicks (b : Bridge) (s : State) : Nat := if speedOf s b < s.get (F.ANG_STILL_STILL_SPD b) then s.ang[b.val].slow + 1 else 0

/-- STILL evaluated (R117): |RATE| below STILL_SPD for STILL_TIME. -/
def stillTick (b : Bridge) (s : State) : State :=
  if s.on (F.ANG_STAT_STILL b) then s
  else
    let n := slowTicks b s
    if n ≠ 0 ∧ s.get (F.ANG_STILL_STILL_TIME b) * 20000 ≤ n then setStill b s
    else s.modAng b (fun a => { a with slow := n })

/-- The angle advanced by one tick with the cues it crosses. -/
def angleTick (b : Bridge) (s : State) : State :=
  let a0 := angleOf s b
  let s :=
    if follows s b then
      let s := setAngle 1 (s.ang[0].angle + s.get (F.ANG_SHIFT_SHIFT 1) * 2 ^ 16) s
      let was := s.on (F.ANG_STAT_STILL 1)
      let s := brakeEnd 1 <| sectorFast 1
        ((s.put (F.ANG_RATE_RATE 1) (s.get (F.ANG_RATE_RATE 0))).put (F.ANG_STAT_STILL 1) (s.get (F.ANG_STAT_STILL 0)))
      let s := s.modAng 1 (fun a => { a with slow := if s.on (F.ANG_STAT_STILL 1) then 0 else slowTicks 1 s })
      if was && !s.on (F.ANG_STAT_STILL 1) then armAll 1 s else s
    else
      let s := stillTick b s
      if s.on (F.ANG_STAT_STILL b) then s
      else setAngle b (ofSigned 36 ((s.ang[b.val].angle : Int) + rateOf s b)) s
  moveCues b a0 (circDiff 20 (angleOf s b) a0) s

/-- Whether a step is one of the `n` steps the slate removes or repeats, spread evenly over the period (R382, R664). -/
def adjusted (P n step : Nat) : Bool :=
  n != 0 && P != 0 && step != 0 && step * (n + 1) / P != (step - 1) * (n + 1) / P
    && decide (1 ≤ step * (n + 1) / P ∧ step * (n + 1) / P ≤ n)

/-- A carrier advanced by one tick; at the last step it waits for its valley. -/
def Carrier.advance (c : Carrier) : Carrier :=
  let n := c.adjust.natAbs
  if adjusted c.per n (c.step + 1) && decide (0 < c.adjust) then { c with step := min (c.step + 2) c.per, held := false }
  else if adjusted c.per n c.step && decide (c.adjust < 0) && !c.held then { c with held := true }
  else { c with step := min (c.step + 1) c.per, held := false }

/-- The carriers of a bridge advanced by one tick, with the carrier cues reached. -/
def carrierTick (b : Bridge) (s : State) : State :=
  let s0 := (pwmCarrier s b).step
  let s := s.modAng b (fun a => { a with
    ref := a.ref.advance, pwm := if a.own then a.pwm.advance else a.pwm })
  carrierCues b s0 (pwmCarrier s b).step s

/-- One ANG block on a 5 ns tick, in the order of R136, with the edges of the gate commands that the carrier gives (R281). -/
def angTick (b : Bridge) (s : State) : State :=
  if s.on (F.ANG_CTRL_EN b) then followGates b (carrierTick b (angleTick b s)) else s

/-! ## Carrier periods (R130, R131, R133) -/

/-- The number of synchronous periods per revolution. -/
def syncN (s : State) (b : Bridge) : Nat := 6 + 3 * s.get (F.ANG_CTRL_NSYNC b)

/-- Anchor `k` (R130). -/
def anchorAt (s : State) (b : Bridge) (k : Nat) : Nat :=
  (s.get (F.ANG_PHASE_SYNC_PHASE b) + k * 2 ^ 20 / syncN s b) % 2 ^ 20

/-- The next anchor in the direction of rotation: its index and its distance in counts, at least 1. R131 does not say which anchor is next
when the angle lies exactly on one: the model counts that anchor a full revolution away and takes the one after it (DESIGN CHOICE, log
entry 100). -/
def nextAnchor (s : State) (b : Bridge) : Nat × Nat :=
  let a := angleOf s b
  let fwd := decide (0 ≤ rateOf s b)
  let dist (k : Nat) : Nat :=
    let g := if fwd then ofSigned 20 ((anchorAt s b k : Int) - a) else ofSigned 20 ((a : Int) - anchorAt s b k)
    if g = 0 then 2 ^ 20 else g
  (List.range (syncN s b)).foldl (fun best k => if dist k < best.2 then (k, dist k) else best) (0, dist 0)

/-- Ticks for a distance in counts at the present speed. R131 gives no rounding of it: the model takes the nearest tick, and the whole counts of the
angle without its fraction bits (DESIGN CHOICE, log entry 106). -/
def ticksFor (s : State) (b : Bridge) (counts : Nat) : Nat :=
  if speedOf s b = 0 then 0 else (2 * counts * 2 ^ 16 + speedOf s b) / (2 * speedOf s b)

/-- The test of R131 at a reference valley. -/
def syncTest (b : Bridge) (s : State) : State :=
  let per := s.get (F.ANG_PER_ASYNC_PER b)
  if s.get (F.ANG_CTRL_MODE_REQ b) = 1 ∧ s.on (F.ANG_STAT_STILL b) = false ∧ s.get (F.ANG_SYNCON_SYNC_ON b) ≤ speedOf s b then
    let (k, d) := nextAnchor s b
    let ta := ticksFor s b d
    if per ≤ 2 * ta ∧ 2 * ta ≤ 3 * per then
      s.modAng b (fun a => { a with own := true, due := true, anchor := k, pwm := ⟨0, ta, 0, false⟩ })
    else s
  else s

/-- A valley in angle-synchronous mode (R130, R133): the error recorded, the next period set, or the return to asynchronous
mode. -/
def syncValley (b : Bridge) (s : State) : State :=
  let k := s.ang[b.val].anchor
  let n := syncN s b
  let s := s.putS (F.ANG_SYNCERR_SYNCERR b) (circDiff 20 (angleOf s b) (anchorAt s b k))
  let k' := if 0 ≤ rateOf s b then (k + 1) % n else (k + n - 1) % n
  let d := if 0 ≤ rateOf s b then ofSigned 20 ((anchorAt s b k' : Int) - anchorAt s b k)
    else ofSigned 20 ((anchorAt s b k : Int) - anchorAt s b k')
  let p := ticksFor s b d
  let bad := decide (p < 3125 ∨ 25000 < p)
  let leave := decide (speedOf s b < s.get (F.ANG_SYNCOFF_SYNC_OFF b)) || s.on (F.ANG_STAT_STILL b)
    || s.get (F.ANG_CTRL_MODE_REQ b) == 0
  if leave || bad then
    let s := s.when bad (fun s => s.put (F.ANG_STAT_SLIP b) 1)
    (s.put (F.ANG_STAT_SYNC b) 0).modAng b (fun a => { a with pwm := ⟨0, s.get (F.ANG_PER_ASYNC_PER b), 0, false⟩ })
  else s.modAng b (fun a => { a with anchor := k', pwm := ⟨0, p, 0, false⟩ })

/-! ## Inner and outer ticks (R134, R135) -/

/-- ISNS counts inner ticks without a completed window while the bridge's channels are enabled (R193). -/
def isnsEnabled (s : State) (b : Bridge) : Bool := s.on (if b = 0 then F.ISNS_CTRL_ENA else F.ISNS_CTRL_ENB)

/-- R429 while the set is in hold. -/
def holdCheck (b : Bridge) (s : State) : State :=
  if inHold s ∧ mcMode s b = modeOut then requestShort b (holdShort s b) s else s

/-- The inner tick of a bridge: the duty set loaded, the outer cycle judged late (R247), the lane demand presented, the inner-tick
originators triggered. -/
def innerTick (b : Bridge) (s : State) : State :=
  let s := followGates b (holdCheck b (dutyLoad b s))
  let s := (s.inc (F.ANG_TICKS_INNER b)).modAng b (fun a => { a with inners := (s.tick :: a.inners).take 4 })
  let s := s.when (isnsEnabled s b) (fun s => s.modBridge b (fun x => { x with idle := x.idle + 1 }))
  let s := presentDemand b (if b = mainBridge s then lateCheck s else s)
  if b = 0 then triggerAll F.HLE_ENGTRG0_INA_EN F.HLE_ENGTRG0_INA_EP (.inner b) s
  else triggerAll F.HLE_ENGTRG0_INB_EN F.HLE_ENGTRG0_INB_EP (.inner b) s

/-- The outer tick of a bridge (R135); on the bridge that times the outer loop, CONT's part before the outer engine's trigger
(R390). -/
def outerTick (b : Bridge) (s : State) : State :=
  let s := (s.inc (F.ANG_TICKS_OUTER b)).modAng b (fun a => { a with refCount := 0, outers := (s.tick :: a.outers).take 4 })
  let s := if b = mainBridge s then contOuterTick s else s
  if b = 0 then triggerAll F.HLE_ENGTRG1_OUTA_EN F.HLE_ENGTRG1_OUTA_EP (.outer b) s
  else triggerAll F.HLE_ENGTRG1_OUTB_EN F.HLE_ENGTRG1_OUTB_EP (.outer b) s

/-- Whether the next reference inner tick of a bridge is an outer tick (R135). An OUTER_M rewritten while EN is 1 counts from the last outer tick,
which the spec leaves open (DESIGN CHOICE, log entry 106). -/
def outerDue (s : State) (b : Bridge) : Bool :=
  decide (2 ^ s.get (F.ANG_CTRL_OUTER_M b) ≤ s.ang[b.val].refCount + 1)

/-- A reference inner tick of the bridge that times the outer loop: the transfers held come nearer (R393), and the beat (R385). -/
def contRefTick (s : State) : State :=
  beat (s.modCont (fun c => { c with transfers := c.transfers.map (fun t => { t with left := t.left - 1 }) }))

/-- A reference inner tick: the outer count and CONT's part (R135, R385). -/
def refInnerTick (b : Bridge) (valley : Bool) (s : State) : State :=
  let main := decide (b = mainBridge s)
  let outer := outerDue s b
  let n := s.ang[b.val].refCount + 1
  let s := s.modAng b (fun a => { a with refTick := s.tick, refCount := n })
  let s := if main then contRefTick s else s
  let s := if main && valley then slateSend outer s else s
  if outer then outerTick b s else s

/-- A valley of the reference carrier (R128, R129, R382); it is the start of a PWM period while that carrier is the PWM carrier
(R125, R134). -/
def refValley (b : Bridge) (s : State) : State :=
  let apart := s.ang[b.val].own
  let s := s.modAng b (fun a => { a with
    ref := ⟨0, s.get (F.ANG_PER_ASYNC_PER b), 0, false⟩, valleyTick := s.tick })
  let s := if b = mainBridge s then (slateCorrect b s).modCont (fun c => { c with xrefHere := false }) else s
  let s :=
    if s.ang[b.val].own then s
    else innerTick b (syncTest b s)
  let s := refInnerTick b true s
  if apart then s else carrierCues b (-1) 0 s

/-- A valley of a PWM carrier that is not the reference carrier (R130, R131, R133). After a return to asynchronous mode its inner ticks keep their phase
as R133 says, so the last sentence on outer ticks in R135 does not hold of it (DEDUCED, log entry 82). -/
def ownValley (b : Bridge) (s : State) : State :=
  if s.ang[b.val].own then
    let s :=
      if s.ang[b.val].due then
        syncValley b ((s.put (F.ANG_STAT_SYNC b) 1).modAng b (fun a => { a with due := false }))
      else if s.on (F.ANG_STAT_SYNC b) then syncValley b s
      else syncTest b (s.modAng b (fun a => { a with pwm := ⟨0, s.get (F.ANG_PER_ASYNC_PER b), 0, false⟩ }))
    carrierCues b (-1) 0 (innerTick b s)
  else s

/-- A peak (R134, R135): an inner tick of the bridge and a reference inner tick when INNER_X is 1. -/
def carrierPeak (b : Bridge) (ref : Bool) (s : State) : State :=
  if s.on (F.ANG_CTRL_INNER_X b) then
    if ref then refInnerTick b false (if s.ang[b.val].own then s else innerTick b s)
    else if s.ang[b.val].own then innerTick b s
    else s
  else s

/-- EN written 1 (R128, R135): the first valley, an outer tick, falls in the first tick after. -/
def angEnable (b : Bridge) (s : State) : State :=
  let per := s.get (F.ANG_PER_ASYNC_PER b)
  let s := (((s.put (F.ANG_CTRL_EN b) 1).put (F.ANG_STAT_SYNC b) 0).put (F.ANG_TICKS_INNER b) 0).put (F.ANG_TICKS_OUTER b) 0
  followGates b <| s.modAng b (fun a => { a with
    ref := ⟨per, per, 0, false⟩, own := false, due := false, refCount := 65535, trimRem := 0, inners := [], outers := [] })

/-! ## Cue event lines (R126) -/

/-- A set, clear, toggle (CMPOP 0, 1, 2) or pulse (3) of a line. -/
def lineAct (b : Bridge) (line op : Nat) (s : State) : State :=
  let a := s.ang[b.val]
  let pulsing := bitAt a.pulse.toNat line
  let level := if pulsing then bitAt a.restore.toNat line else bitAt a.lines.toNat line
  let set (lv pl rs : Bool) : State :=
    s.modAng b (fun a => { a with
      lines := BitVec.ofNat 4 (withBit a.lines.toNat line lv), pulse := BitVec.ofNat 4 (withBit a.pulse.toNat line pl),
      restore := BitVec.ofNat 4 (withBit a.restore.toNat line rs) })
  match op with
  | 0 => set true false false
  | 1 => set false false false
  | 2 => set (!level) false false
  | _ => set (!level) true level

/-- The end of a 50 ns pulse: the line's level restored. -/
def linePulseEnd (b : Bridge) (line : Nat) (s : State) : State :=
  let a := s.ang[b.val]
  if bitAt a.pulse.toNat line then
    let level := bitAt a.restore.toNat line
    s.modAng b (fun a => { a with
      lines := BitVec.ofNat 4 (withBit a.lines.toNat line level), pulse := BitVec.ofNat 4 (withBit a.pulse.toNat line false),
      restore := BitVec.ofNat 4 (withBit a.restore.toNat line false) })
  else s

end Sys2Proof.Machine
end

