-- ==== Sys2Proof/Machine/Access.lean ====
section
/-!
DEFINITION. Who may access what (R74, R582, R615, R651 to R656) and what a refused access does (R75, R76).
-/
namespace Sys2Proof.Machine

/-- The number of a requester in SYS_BUSERR.REQ (R76), with 18 for the scrubber (BKG_UECNT). -/
def reqCode : Requester → Nat
  | .p i => i.val | .h i => 4 + i.val | .s => 12 | .v => 13 | .g => 14 | .k => 15 | .dbg => 16 | .scrubber => 18

/-- A row of R74: what P0 to P3, H0 to H7, S, V, G and K may do. -/
structure Rights where
  p : Nat
  h : Nat
  s : Nat
  v : Nat
  g : Nat
  k : Nat
  deriving DecidableEq, Repr

/-- No access, read only, read and write, in a row of `Rights`. -/
def rNone : Nat := 0
def rRead : Nat := 1
def rBoth : Nat := 2

/-- The rights of a requester in a row; the debug port has those of P0 to P3 (R656), but for DBG. -/
def Rights.of (t : Rights) : Requester → Nat
  | .p _ => t.p | .h _ => t.h | .s => t.s | .v => t.v | .g => t.g | .k => t.k | .dbg => t.p | .scrubber => rNone

/-- The row of R74 for the k-th peripheral block of R657. A Heldiog engine reaches blocks through its port table only. -/
def blockRights (k : Nat) : Rights :=
  match k with
  | 0 => ⟨rRead, rNone, rBoth, rBoth, rBoth, rBoth⟩
  | 1 => ⟨rRead, rNone, rBoth, rBoth, rBoth, rBoth⟩
  | 2 => ⟨rRead, rNone, rRead, rRead, rRead, rBoth⟩
  | 3 => ⟨rRead, rNone, rRead, rRead, rRead, rBoth⟩
  | 14 => ⟨rBoth, rRead, rRead, rRead, rBoth, rRead⟩
  | 15 => ⟨rBoth, rRead, rRead, rRead, rBoth, rRead⟩
  | 16 => ⟨rBoth, rRead, rRead, rRead, rBoth, rRead⟩
  | 17 => ⟨rBoth, rRead, rRead, rRead, rNone, rRead⟩
  | 18 => ⟨rBoth, rRead, rRead, rRead, rNone, rRead⟩
  | 19 => ⟨rBoth, rRead, rRead, rRead, rNone, rRead⟩
  | 20 => ⟨rRead, rNone, rRead, rBoth, rRead, rRead⟩
  | 25 => ⟨rRead, rNone, rBoth, rRead, rNone, rRead⟩
  | 29 => ⟨rRead, rNone, rBoth, rRead, rBoth, rRead⟩
  | 30 => ⟨rRead, rNone, rRead, rRead, rBoth, rBoth⟩
  | 31 => ⟨rRead, rNone, rRead, rRead, rRead, rBoth⟩
  | 32 => ⟨rNone, rNone, rNone, rNone, rNone, rBoth⟩
  | k =>
    if 4 ≤ k ∧ k ≤ 13 then ⟨rBoth, rBoth, rRead, rRead, rBoth, rRead⟩
    else if (21 ≤ k ∧ k ≤ 24) ∨ (26 ≤ k ∧ k ≤ 28) then ⟨rRead, rNone, rBoth, rRead, rNone, rRead⟩
    else ⟨rNone, rNone, rNone, rNone, rNone, rNone⟩

/-- The block of an address (none outside the peripheral space), and its base. -/
def blockOf (addr : Nat) : Nat := if addr / 0x40000000 = 1 then addr / 0x1000 % 0x40000 else 0x40000
def blockBase (addr : Nat) : Nat := addr / 0x1000 * 0x1000

/-- Whether an address lies in the peripheral blocks. -/
def isPeripheral (addr : Nat) : Bool := decide (0x40000000 ≤ addr ∧ addr ≤ 0x40020FFF)

/-- Whether R74 permits an access to a peripheral register. The two vote registers are open to P0 to P3 and the debug port (R74, R587). -/
def regPermitted (r : Requester) (addr : Nat) (write : Bool) : Bool :=
  isPeripheral addr && (addr % 4 == 0) &&
    (decide ((if write then 2 else 1) ≤ (blockRights (blockOf addr)).of r) ||
      ((addr == 0x40001008 || addr == 0x4000100C) && (match r with | .p _ => true | .dbg => true | _ => false)))

/-- The registers mirrored on the driver die (R61). -/
def onDriverDie (addr : Nat) : Bool := decide (0x4000E000 ≤ addr ∧ addr ≤ 0x40010FFF)

/-- Whether a requester makes requests: none that is held, stopped or waits for its restart (R426, R546, R558, R559, R583, R604), and
no pair that is not released and clocked (R97, R590). G and the scrubber run on in SLEEP. -/
def issues (s : State) : Requester → Bool
  | .p p => !enginesHeld s && s.bit F.DBL_STAT_RUN p && !s.cores[p.val].gated
  | .h _ => !enginesHeld s
  | .v => !enginesHeld s && s.sys.vRuns
  | .s => !coreStopped s && !s.sys.sDown
  | .k => !coreStopped s && !s.keep.halted
  | .dbg => !coreStopped s
  | .g => s.pwr.aoPowered && !s.pwr.resetLow && !s.sys.gDown && decide (s.get F.PWR_STAT_STATE < 3)
  | .scrubber => s.pwr.aoPowered && !s.pwr.resetLow && !s.sys.gDown && decide (s.get F.PWR_STAT_STATE < 3)

/-- What V does and what K does: nothing while it is held or stopped (R583, R591, R604). -/
def byV (s : State) (o : Out) : Out := if issues s .v then o else .next s
def byK (s : State) (o : Out) : Out := if issues s .k then o else .next s

/-- Whether a requester is a principal core. -/
def isCore : Requester → Bool
  | .p _ => true | _ => false

/-- Whether a requester's accesses reach the interconnect: the debug port's do while debug is open (R581, R582). -/
def reaches (r : Requester) (s : State) : Bool := r != .dbg || s.on F.KEEP_STAT_DBGOPEN

/-- What a requester does: fetch, read or write. -/
inductive Use where
  | fetch | read | write
  deriving DecidableEq, Repr

/-! ## Replies of the interconnect -/

/-- An access answered with data. -/
def busData (v : Word) (s : State) : State := { s with bus := ⟨v, false⟩ }

/-- An access answered with a bus error and zero data. -/
def busError (s : State) : State := { s with bus := ⟨0, true⟩ }

/-- A refused access (R75, R76): a bus error, and the first one captured. -/
def refuse (r : Requester) (addr : Nat) (write : Bool) (s : State) : State :=
  let s := busError s
  if s.on F.SYS_BUSERR_VALID then
    if s.get F.SYS_BUSERR_COUNT = 65535 then s.put F.SYS_BUSERR_OVF 1 else s.inc F.SYS_BUSERR_COUNT
  else
    let s := (s.put F.SYS_BUSERR_REQ (reqCode r)).putB F.SYS_BUSERR_WR write
    ((s.put F.SYS_BUSERR_VALID 1).put F.SYS_BUSERR_COUNT 1).put F.SYS_BUSADDR_ADDR addr

/-- An uncorrectable error recorded (R69): the first address stands until UEVALID is cleared. -/
def errorRecorded (r : Requester) (a : Nat) (s : State) : State :=
  let s := s.sat F.BKG_UECNT_UECNT
  if s.on F.BKG_STAT_UEVALID then s
  else ((s.put F.BKG_STAT_UEVALID 1).put F.BKG_UEADDR_ADDR a).put F.BKG_UECNT_REQ (reqCode r)

/-- An access to a register of the driver die (R661): a bus error while the logic die counts the link as lost; a write that
the driver die does not receive is lost. -/
def driverAccess (write : Bool) (act : State → State) (s : State) : State :=
  if s.sys.linkLost then busError s
  else if write && s.driver.linkLost then busData 0 s
  else act s

/-- An access to a register, made if R74 permits it and, for the driver die's mirrors, the link is up (R661), which is no matter at a reserved offset (R654). -/
def regAccess (r : Requester) (addr : Nat) (write : Bool) (act : State → State) (s : State) : State :=
  if !regPermitted r addr write then refuse r addr write s
  else if onDriverDie addr && !(rowsAt addr).isEmpty then driverAccess write act s
  else act s

/-! ## Memory regions (R651) and their rights (R74) -/

/-- The memory regions. -/
inductive Region where
  | bootRom | tcmP (n : Fin 4) | tcmS | tcmV | tcmG | tcmK | codeNvm | dataNvm | sram | retention
  | window (n : Fin 7) | spare
  deriving DecidableEq, Repr

/-- The memory region of an address; none where the map of R651 has no memory. -/
def regionOf (a : Nat) : Option Region :=
  if a < 0x10000 then some .bootRom
  else if 0x08000000 ≤ a ∧ a < 0x08080000 then some (.tcmP ⟨a / 0x20000 % 4, Nat.mod_lt _ (by decide)⟩)
  else if 0x09000000 ≤ a ∧ a < 0x09008000 then some .tcmS
  else if 0x09010000 ≤ a ∧ a < 0x09018000 then some .tcmV
  else if 0x09020000 ≤ a ∧ a < 0x09024000 then some .tcmG
  else if 0x09030000 ≤ a ∧ a < 0x09034000 then some .tcmK
  else if 0x10000000 ≤ a ∧ a < 0x10C00000 then some .codeNvm
  else if 0x11000000 ≤ a ∧ a < 0x11100000 then some .dataNvm
  else if 0x20000000 ≤ a ∧ a < 0x20300000 then some .sram
  else if 0x21000000 ≤ a ∧ a < 0x21010000 then some .retention
  else if 0x30000000 ≤ a ∧ a < 0x30038000 then some (.window ⟨a / 0x8000 % 0x2000 % 7, Nat.mod_lt _ (by decide)⟩)
  else if 0x30038000 ≤ a ∧ a < 0x30040000 then some .spare
  else none

/-- The bank, the macro and the word within the macro of a shared-SRAM address (R67): bank A[7:5], macro 8 × A[21:19] + A[7:5], word
A[18:8] × 8 + A[4:2]. -/
def sramBank (a : Nat) : Nat := a / 32 % 8
def sramMacro (a : Nat) : Nat := a / 0x80000 % 8 * 8 + sramBank a
def sramWord (a : Nat) : Nat := a / 256 % 0x800 * 8 + a / 4 % 8

/-- Whether an address lies in the supervisor's own reel queue (R615). -/
def inVQueue (s : State) (a : Nat) : Bool :=
  let q := 0x20000000 + s.get F.BKG_QBASE_ADDR + 0xB40
  decide (q ≤ a ∧ a < q + 0x240)

/-- Whether an address is a reserved word of an engine window (R206). -/
def windowReserved (a : Nat) : Bool := decide (0x30000000 ≤ a ∧ a < 0x30040000) && decide (0x6100 ≤ a % 0x8000)

/-- Whether R74 permits a use of a memory region, with the restrictions of R207, R554, R573, R582 and R615. The scrubber reads; its rewrite of a word, which is
atomic with the read and never older than a requester's write (R71), changes no value. An engine fetches from its
own program RAM (R206). -/
def memPermitted (s : State) (r : Requester) (reg : Region) (a : Nat) (u : Use) : Bool :=
  match r with
  | .scrubber => decide (u = .read) && (reg == .sram || reg == .retention)
  | .k =>
    match reg with
    | .bootRom => decide (u ≠ .write)
    | .tcmK => true
    | _ => decide (u ≠ .fetch) && !windowReserved a
  | _ =>
    if u = .write ∧ ((0x2100E000 ≤ a ∧ a < 0x21010000) ∨ (0x11000000 ≤ a ∧ a < 0x11004000)) then false
    else
      let core := match r with | .p _ => true | .dbg => true | _ => false
      match reg with
      | .bootRom => false
      | .tcmP n => (match r with | .p i => i == n | .dbg => true | _ => false)
      | .tcmS => r == .s
      | .tcmV => r == .v
      | .tcmG => r == .g
      | .tcmK => false
      | .codeNvm =>
        (match u with
         | .write => false
         | .fetch => core || r == .s
         | .read => core || r == .s || r == .v || r == .g)
      | .dataNvm => (match r with
          | .h _ => false | .v => decide (u = .read) | _ => decide (u ≠ .fetch))
      | .sram => decide (u ≠ .fetch) && (r != .v || decide (u = .read) || inVQueue s a)
      | .retention => (match r with
          | .h _ => false | .v => decide (u = .read) | _ => decide (u ≠ .fetch))
      | .window n =>
        (match u with
         | .fetch => decide (a % 0x8000 < 0x3000) && (match r with | .h i => i.val == physicalOf s n | _ => false)
         | .read => !windowReserved a && (match r with | .h i => i.val == physicalOf s n | _ => true)
         | .write =>
            decide (0x3000 ≤ a % 0x8000 ∧ a % 0x8000 < 0x6000) &&
              (core || (match r with | .h i => i.val == physicalOf s n | _ => false)))
      | .spare => false

end Sys2Proof.Machine
end

