-- ==== Sys2Proof/Machine/Time.lean ====
section
/-!
DEFINITION. Network time (chapter 15) and the uptime latch of BKG (R614).
-/
namespace Sys2Proof.Machine

/-! ## The clock -/

/-- One tick of the clock (R505, R506): 5 × (1 + RATE × 2^−32) ns added. -/
def timeTick (s : State) : State :=
  if s.on F.TIME_CTRL_EN then
    let total : Int := (s.get F.TIME_NS_NS : Int) * 2 ^ 32 + s.time.frac.toNat + 5 * 2 ^ 32 + 5 * s.getS F.TIME_RATE_RATE
    let sec : Int := 1000000000 * 2 ^ 32
    let carry := decide (sec ≤ total)
    let left := (if carry then total - sec else total).toNat
    (s.put F.TIME_NS_NS (left / 2 ^ 32)).modTime (fun t => { t with
      frac := BitVec.ofNat 32 left, sec := if carry then t.sec + 1 else t.sec })
  else s

/-- One tick of UPTIME: a microsecond passes every 200 ticks (R614). -/
def uptimeTick (s : State) : State :=
  let n := s.time.upTicks + 1
  if n < 200 then s.modTime (fun t => { t with upTicks := n })
  else
    let u := (s.time.uptime + 1) % 2 ^ 40
    ((s.modTime (fun t => { t with upTicks := 0, uptime := u })).put F.BKG_UPTIMEL_LO u).put F.BKG_UPTIMEH_HI (u / 2 ^ 32)

/-- The elapsed count (R606): 10 µs units since the entry on AORC, which R77 holds within 3 % of the lane timer, saturating. -/
def elapsedCount (s : State) : Nat :=
  let ticks := s.tick - s.pwr.entryTick
  let low := ticks * 97 / 200000
  min (2 ^ 32 - 1) (low + s.free.toNat % (ticks * 103 / 200000 - low + 1))

/-- The elapsed counter runs from the entry to SLEEP or DEEP until the exit (R606). -/
def elapsedTick (s : State) : State :=
  (s.put F.PWR_ELAPSED_ELAPSED (max (s.get F.PWR_ELAPSED_ELAPSED) (elapsedCount s))).drew

/-- The addresses with latches by requester. -/
def addrTimeNs : Nat := 0x4001B008
def addrTimeRate : Nat := 0x4001B018
def addrTimeStep : Nat := 0x4001B014
def addrUcycNs : Nat := 0x4001B01C
def addrUptime : Nat := 0x4001E034

/-- TIME_NS read (R507). -/
def readTimeNs (r : Requester) (s : State) : State :=
  busData (s.rd addrTimeNs) (s.modTime (fun t => { t with secL := Tab.put (fun _ => 0) t.secL (reqCode r) t.sec }))

/-- TIME_UCYCNS read (R518). -/
def readUcycNs (r : Requester) (s : State) : State :=
  let sec : Word := BitVec.ofNat 32 (s.get F.TIME_UCYCSEC_SEC)
  let seq : Word := BitVec.ofNat 32 (s.get F.TIME_UCYCSEQ_CYCSEQ)
  busData (s.rd addrUcycNs) (s.modTime (fun t => { t with
    ucycSecL := Tab.put (fun _ => 0) t.ucycSecL (reqCode r) sec, ucycSeqL := Tab.put (fun _ => 0) t.ucycSeqL (reqCode r) seq }))

/-- BKG_UPTIMEL read (R614). -/
def readUptime (r : Requester) (s : State) : State :=
  let hi : Word := BitVec.ofNat 32 (s.time.uptime / 2 ^ 32)
  busData (s.rd addrUptime) (s.modTime (fun t => { t with upL := Tab.put (fun _ => 0) t.upL (reqCode r) hi }))

/-- A rate in units of 2^−32 within ±858 993 (R508). -/
def rateLegal (v : Word) : Bool := decide ((v.toInt).natAbs ≤ 858993)

/-- TIME_RATE written (R508). -/
def setRate (v : Word) (s : State) : State :=
  if rateLegal v then s.put F.TIME_RATE_RATE v.toNat else s.put F.TIME_STAT_ACCERR 1

/-- TIME_STEPNS written (R509). -/
def stepNs (v : Word) (s : State) : State :=
  let ns := v.toNat % 2 ^ 30
  if 999999999 < ns then s.put F.TIME_STAT_ACCERR 1
  else if bitAt v.toNat 31 then
    if s.on F.TIME_STAT_STEPPED then s.put F.TIME_STAT_ACCERR 1
    else
      let sec : Word := BitVec.ofNat 32 (s.get F.TIME_STEPSEC_SEC)
      let s := (s.put F.TIME_STEPNS_NS ns).put F.TIME_NS_NS ns
      (s.put F.TIME_STAT_STEPPED 1).modTime (fun t => { t with sec := sec, frac := 0 })
  else s.put F.TIME_STEPNS_NS ns

/-! ## Synchronisation (R513 to R515) -/

/-- SYNCPER in nanoseconds. -/
def syncPeriodNs (s : State) : Nat := 10000000 * (s.get F.TIME_SYNC_SYNCPER + 1)

/-- The difference of two times in nanoseconds (R510). -/
def timeDiff (s1 n1 s0 n0 : Word) : Int := (s1 - s0).toInt * 1000000000 + ((n1.toNat : Int) - n0.toNat)

/-- The clock stepped by an offset (R509, R515): the present time plus the offset, through TIME_STEPSEC and TIME_STEPNS. -/
def stepBy (e : Int) (s : State) : State :=
  let now : Int := (s.time.sec.toNat : Int) * 1000000000 + s.get F.TIME_NS_NS + e
  let sec := ofSigned 32 (now / 1000000000)
  stepNs (BitVec.ofNat 32 (2 ^ 31 + (now % 1000000000).toNat)) (s.put F.TIME_STEPSEC_SEC sec)

/-- S's stamp of an event at the instant given (R511): one within 0.6 µs of it stands, and else the instant itself is taken. -/
def stampNear (at_ : Word × Word) (sec ns : Word) : Word × Word :=
  if (timeDiff sec ns at_.1 at_.2).natAbs ≤ 600 then (sec, ns) else at_

/-- A time some nanoseconds before another (R505). -/
def timeBefore (t : Word × Word) (ns : Nat) : Word × Word :=
  let x : Int := (t.1.toNat : Int) * 1000000000 + t.2.toNat - ns
  (ofSigned 32 (x / 1000000000), ofSigned 32 (x % 1000000000))

/-- The present time. -/
def timeNow (s : State) : Word × Word := (s.time.sec, BitVec.ofNat 32 (s.get F.TIME_NS_NS))

/-- S reads TIME_NS and TIME_SEC (R507, R511). -/
def stampTaken (s : State) : State :=
  s.modTime (fun t => { t with secL := Tab.put (fun _ => 0) t.secL (reqCode .s) t.sec })

/-- The rate errors of the last 8 sync intervals once a sample `e` has come (R515): over an interval the master gained on this clock what the sample
has grown by, and this clock ran at RATE. -/
def intervalRates (e : Int) (s : State) : List Int :=
  match s.time.lastE with
  | none => s.time.rates
  | some e0 => ((s.getS F.TIME_RATE_RATE + s.roundFree ((e - e0) * 2 ^ 32) (syncPeriodNs s)) :: s.time.rates).take 8

/-- RATEEST (R515), in units of 2^−32: S's estimate from the rate errors of the last 8 intervals. How it is formed from them is not stated: any value
from the least to the greatest of them may come, and any at all before the first interval (log entry 105). -/
def rateEstimate (rates : List Int) (est : Int) : Int :=
  match rates with
  | [] => est
  | r :: rest => max (rest.foldl min r) (min (rest.foldl max r) est)

/-- What the service firmware does with a sample (R515). -/
def syncAct (e est : Int) (s : State) : State :=
  let s := (s.inc F.TIME_CNT_SYNCCNT).modTime (fun t => { t with missed := 0 })
  if !s.on F.TIME_STAT_STEPPED then stepBy e (s.modTime (fun t => { t with lastE := some 0, rates := [] }))
  else
    let rates := intervalRates e s
    let s := s.drew.modTime (fun t => { t with lastE := some e, rates := rates })
    let r := rateEstimate rates est + s.roundFree (e * 2 ^ 32) (syncPeriodNs s)
    let s := (s.putS F.TIME_RATE_RATE (max (-858993) (min 858993 r))).drew
    if e.natAbs ≤ 2000 then
      let n := s.time.inBand + 1
      let s := s.modTime (fun t => { t with inBand := n })
      if 4 ≤ n then s.put F.TIME_CTRL_LOCKED 1 else s
    else (s.put F.TIME_CTRL_LOCKED 0).modTime (fun t => { t with inBand := 0 })

/-- A sync frame received by a slave on a network with the slave's stamp of it (R511, R514): usable when PVALID is 1 and SEQ follows
the frame before on that network; used when it came on the network in use. -/
def syncReceived (net : Fin 2) (f : SyncFrame) (sec ns : Word) (est : Int) (s : State) : State :=
  let old := if net = 0 then s.time.mark0 else s.time.mark1
  let stamp := stampNear (timeNow s) sec ns
  let mark : SyncMark := ⟨f.seq, stamp.1, stamp.2⟩
  let s := (stampTaken s).modTime (fun t => if net = 0 then { t with mark0 := some mark } else { t with mark1 := some mark })
  if s.on F.TIME_CTRL_MASTER then s
  else
    match old with
    | some m =>
      if f.pvalid ∧ f.seq = m.seq + 1 then
        let s :=
          if net = 0 then
            let n := s.time.good0 + 1
            let s := s.modTime (fun t => { t with good0 := n })
            if s.on F.TIME_CTRL_NET ∧ 2 ≤ n then s.put F.TIME_CTRL_NET 0 else s
          else s
        if s.get F.TIME_CTRL_NET = net.val then syncAct (timeDiff f.sec f.ns m.sec m.ns) est s else s
      else if net = 0 then s.modTime (fun t => { t with good0 := 0 }) else s
    | none => if net = 0 then s.modTime (fun t => { t with good0 := 0 }) else s

/-- A SYNCPER interval without a usable frame on the network in use (R514, R515): two switch from C0 to C1, four end the lock. -/
def syncMissed (s : State) : State :=
  if s.on F.TIME_CTRL_MASTER then s
  else
  let n := s.time.missed + 1
  let s := (s.modTime (fun t => { t with missed := n })).count F.TIME_CNT_MISSCNT F.TIME_CNT_MISSOVF
  let s := s.when (n == 2 && !s.on F.TIME_CTRL_NET)
    (fun s => (s.put F.TIME_CTRL_NET 1).modTime (fun t => { t with good0 := 0 }))
  s.when (decide (4 ≤ n)) (fun s => (s.put F.TIME_CTRL_LOCKED 0).modTime (fun t => { t with inBand := 0 }))

/-- The sync frame that 12 bytes carry (R513). -/
def syncFrameOf (l : List Byte) : SyncFrame :=
  ⟨l.getD 0 0, bitAt (bytesAt l 1 1) 0, BitVec.ofNat 32 (bytesAt l 4 4), BitVec.ofNat 32 (bytesAt l 8 4)⟩

/-- A sync frame as S finds it in its object (R512, R513): of 12 bytes, stamped within 0.6 µs of its reference instant. -/
def syncFrameIn (net : Fin 2) (l : List Byte) (s : State) : State :=
  if l.length ≠ 12 then s
  else
    let t : Int := (s.time.sec.toNat : Int) * 1000000000 + s.get F.TIME_NS_NS + ((s.free.toNat % 1201 : Nat) : Int) - 600
    let s := s.drew
    syncReceived net (syncFrameOf l) (ofSigned 32 (t / 1000000000)) (ofSigned 32 (t % 1000000000)) s.free.toInt s.drew

/-- The bytes of a sync frame (R513). -/
def syncBytes (seq : Byte) (valid : Bool) (sec ns : Word) : List Byte :=
  [seq, if valid then 1 else 0, 0, 0] ++ leBytes 4 sec.toNat ++ leBytes 4 ns.toNat

end Sys2Proof.Machine
end

