-- ==== Sys2Proof/Machine/Can.lean ====
section
/-!
DEFINITION. The CAN FD controllers (chapter 13) and the twin comparator fed from their receive objects (R442 to R444). Error
counters follow ISO 11898-1:2015, which R455 names (log entry 12).
-/
namespace Sys2Proof.Machine

/-! ## Twin pairs (R442 to R444) -/

/-- A payload delivered (R444): written to the pair's buffer, SEQ, SINGLE, NET and LEN updated, S told, and a stop raised to V. -/
def twinDeliver (k : TwinPair) (c : TwinCopy) (single : Option (Fin 2)) (s : State) : State :=
  let s := s.setBytes (0x20000000 + s.get (F.TWIN_PBUF_ADDR k)) (c.data.take c.len)
  let s := (s.inc (F.TWIN_PSEQ_SEQ k)).putB (F.TWIN_PSEQ_SINGLE k) single.isSome
  let s := (s.put (F.TWIN_PSEQ_NET k) (match single with | some n => n.val | none => 0)).put (F.TWIN_PSEQ_LEN k) c.len
  let s := s.raise (.twinVerdict k)
  if s.on (F.TWIN_PCFG_STOP k) then
    if (c.data.getD 0 0).toNat = s.get (F.TWIN_PCFG_STOPVAL k) ∧ 0 < c.len then
      ((s.put F.TWIN_STAT_STOPEV 1).put F.SAFE_STAT_NMINS 1).raise .netStop
    else s
  else s

/-- The verdict of a pair (R443): it ends the window. -/
def twinDecide (k : TwinPair) (s : State) : State :=
  let t := s.twin[k.val]
  let pol := s.get (F.TWIN_PCFG_POL k)
  let done (s : State) : State := (s.modTwin k (fun _ => ⟨none, none⟩)).putBit F.TWIN_STAT_EV k true
  let one (c : TwinCopy) (net : Fin 2) : State :=
    let otherLost := if net = 0 then s.on F.TWIN_CTRL_LOST1 else s.on F.TWIN_CTRL_LOST0
    if pol = 1 ∨ (pol = 2 ∧ otherLost) then
      twinDeliver k c (some net) ((done s).countBit (F.TWIN_PCNT_SGLACC k) (F.TWIN_PCNT_OVF k) 2)
    else (done s).countBit (F.TWIN_PCNT_SGLREJ k) (F.TWIN_PCNT_OVF k) 1
  match t.c0, t.c1 with
  | some a, some b =>
    if a = b then twinDeliver k a none (done s)
    else (done s).countBit (F.TWIN_PCNT_MISCNT k) (F.TWIN_PCNT_OVF k) 0
  | some a, none => one a 0
  | none, some b => one b 1
  | none, none => s

/-- A copy arrives in a pair's object (R442); with both copies there the verdict is reached. -/
def twinArrive (k : TwinPair) (net : Fin 2) (c : TwinCopy) (s : State) : State :=
  let s := s.modTwin k (fun t => if net = 0 then { t with c0 := some c } else { t with c1 := some c })
  let t := s.twin[k.val]
  if t.c0.isSome && t.c1.isSome then twinDecide k s else s

/-- A new-data bit set in object `obj` of CAN0 or CAN1, offered to every pair that names it. -/
def twinNotice (n : CanCtl) (obj : Nat) (c : TwinCopy) (s : State) : State :=
  if s.on F.TWIN_CTRL_EN then
    (List.finRange 16).foldl (fun s (k : TwinPair) =>
      if !s.on (F.TWIN_PCFG_EN k) then s
      else if n = 0 ∧ s.get (F.TWIN_PCFG_OBJ0 k) = obj then twinArrive k 0 c s
      else if n = 1 ∧ s.get (F.TWIN_PCFG_OBJ1 k) = obj then twinArrive k 1 c s
      else s) s
  else s

/-! ## Objects and modes -/

def canObj (s : State) (n : CanCtl) (k : Nat) : CanObj := Tab.get (fun _ => CanObj.reset) s.can[n.val].objs k

def setCanObj (n : CanCtl) (k : Nat) (o : CanObj) (s : State) : State :=
  s.modCan n (fun c => { c with objs := Tab.put (fun _ => CanObj.reset) c.objs k o })

/-- The mode in force (R473, R474): LEADONLY restricts a lane that does not lead. -/
def canMode (s : State) (n : CanCtl) : Nat := if s.can[n.val].leadHold then 1 else s.can[n.val].mode.toNat

/-- Whether the error counters count in the mode in force. -/
def canCounts (s : State) (n : CanCtl) : Bool := canMode s n == 0 || canMode s n == 3

/-- The bytes of a data length code (R455). -/
def dlcBytes (fd : Bool) (dlc : Nat) : Nat :=
  if dlc ≤ 8 then dlc
  else if !fd then 8
  else match dlc with | 9 => 12 | 10 => 16 | 11 => 20 | 12 => 24 | 13 => 32 | 14 => 48 | _ => 64

/-- The smallest data length code that carries a number of bytes in an FD frame. -/
def dlcFor (len : Nat) : Nat := ((List.range 16).find? (fun d => decide (len ≤ dlcBytes true d))).getD 15

/-- A word of the data bytes of an object. -/
def dataWords (l : List Byte) : Vector Word 16 := Vector.ofFn (fun i => BitVec.ofNat 32 (bytesAt l (4 * i.val) 4))

/-- The data bytes of an object. -/
def CanObj.bytes (o : CanObj) : List Byte := o.data.toList.flatMap (fun w => leBytes 4 w.toNat)

/-- The length of an object's frame in bytes. -/
def CanObj.len (o : CanObj) : Nat := dlcBytes (bitAt o.ctl.toNat 4) (o.ctl.toNat % 16)

/-- The control word of a frame: DLC, FDF, BRS, ESI. -/
def ctlOf (dlc : Nat) (fd brs esi : Bool) : Word :=
  BitVec.ofNat 32 (dlc % 16 + 16 * fd.toNat + 32 * brs.toNat + 64 * esi.toNat)

/-- An event of a controller: its bit in CANn_IRQ, and the interrupt when enabled. -/
def canEvent (n : CanCtl) (j : Nat) (s : State) : State :=
  let s := s.put ⟨0x40015018 + 0x1000 * n.val, j, 1⟩ 1
  if s.bit (F.CAN_IE_IE n) j then s.raise (.can n) else s

/-- What S tells TWIN of a controller of C0 or C1 (R443, R472); the set's state follows (R53). -/
def canTellTwin (n : CanCtl) (s : State) : State :=
  let lost := s.get (F.CAN_STAT_EST n) == 2 || s.on (F.CAN_STAT_NOACK n)
  if n = 0 then judgeSet (s.putB F.TWIN_CTRL_LOST0 lost)
  else if n = 1 then judgeSet (s.putB F.TWIN_CTRL_LOST1 lost)
  else s

/-! ## Error counters (R455, R470) -/

/-- The error state set, with its event when it changes: ESTEV, which the entry into bus-off raises too (R470 names it BOFFEV, a flag that no
register has; DEDUCED, log entry 12). -/
def canState (n : CanCtl) (est : Nat) (s : State) : State :=
  if s.get (F.CAN_STAT_EST n) = est then s else canEvent n 2 (s.put (F.CAN_STAT_EST n) est)

/-- A frame given up while CANCEL is written, or by EN = 0: TXREQ cleared, CANCELLED set (R468). With object 28 a discarded reply is gone
(R532). -/
def canCancelled (n : CanCtl) (k : Fin 32) (s : State) : State :=
  let s := (s.put (F.CAN_TSTAT_TXREQ n k) 0).put (F.CAN_TSTAT_CANCEL n k) 0
  let s := s.when (k == 28 && decide (n.val < 2)) (·.modHost (fun h => { h with stale := BitVec.ofNat 2 (withBit h.stale.toNat n false) }))
  canEvent n 1 (s.put (F.CAN_TSTAT_CANCELLED n k) 1)

/-- No object in arbitration or transmission. -/
def canRelease (n : CanCtl) (s : State) : State :=
  match s.can[n.val].active with
  | some (k, _) => (s.put (F.CAN_TSTAT_ACTIVE n k) 0).modCan n (fun c => { c with active := none })
  | none => s

/-- Error-active or error-passive by the counters. -/
def canJudge (n : CanCtl) (s : State) : State :=
  if s.get (F.CAN_STAT_EST n) = 2 then s
  else canState n (if 127 < s.get (F.CAN_ERRC_TEC n) ∨ 127 < s.get (F.CAN_ERRC_REC n) then 1 else 0) s

/-- Bus-off (R470): CTXn recessive, BOCNT counted, requests stay pending. S reports it in telemetry (R472). -/
def canBusOff (n : CanCtl) (s : State) : State :=
  let s := (s.put (F.CAN_ERRC_TEC n) 255).count (F.CAN_ERRC_BOCNT n) (F.CAN_ERRC_BOOVF n)
  let s := canState n 2 s
  let s := canTellTwin n ((canRelease n s).modCan n (fun c => { c with recessive := true }))
  s.when (issues s .s) (reelSubmit 4 (leBytes 22 (Config.busOffRecord n.val).toNat))

/-- The transmit error counter raised by 8. -/
def canTecUp (n : CanCtl) (s : State) : State :=
  let t := s.get (F.CAN_ERRC_TEC n) + 8
  if 255 < t then canBusOff n s else canJudge n (s.put (F.CAN_ERRC_TEC n) t)

/-- The receive error counter raised. -/
def canRecUp (n : CanCtl) (d : Nat) (s : State) : State :=
  canJudge n (s.put (F.CAN_ERRC_REC n) (min 255 (s.get (F.CAN_ERRC_REC n) + d)))

/-- A frame received without error: the receive counter falls by one, or from above 127 to 119 to 127. -/
def canRecDown (n : CanCtl) (s : State) : State :=
  let r := s.get (F.CAN_ERRC_REC n)
  if r = 0 then s
  else if r ≤ 127 then canJudge n (s.put (F.CAN_ERRC_REC n) (r - 1))
  else (canJudge n (s.put (F.CAN_ERRC_REC n) (119 + s.free.toNat % 9))).drew

/-! ## Automatic bit-rate detection (R476, R477) -/

/-- The next valid candidate from `k` on. -/
def abdFrom (s : State) (n : CanCtl) (k : Nat) : Option Nat :=
  (List.range 8).find? (fun j => decide (k ≤ j) && s.on (F.CAN_ABDN_CVALID n j))

/-- Detection ends, with or without confirmation. -/
def abdEnd (n : CanCtl) (found : Option Nat) (s : State) : State :=
  let s := (s.put (F.CAN_CTRL_ABD n) 0).modCan n (fun c => { c with abdCand := none, abdGood := 0, abdRound := 0 })
  let s := match found with
    | some k =>
      let s := s.wr (0x40015004 + 0x1000 * n.val) (BitVec.ofNat 32 (s.get (F.CAN_ABDN_NT n k)))
      let s := s.wr (0x40015008 + 0x1000 * n.val) (BitVec.ofNat 32 (s.get (F.CAN_ABDD_DT n k)))
      (s.put (F.CAN_STAT_ABDSEL n) k).put (F.CAN_STAT_ABDDONE n) 1
    | none => s.put (F.CAN_STAT_ABDFAIL n) 1
  canEvent n 4 s

/-- The next candidate, or the next round, or the end. -/
def abdNext (n : CanCtl) (s : State) : State :=
  match s.can[n.val].abdCand with
  | none => s
  | some k =>
    match abdFrom s n (k + 1) with
    | some j => s.modCan n (fun c => { c with abdCand := some j, abdGood := 0 })
    | none =>
      let r := s.can[n.val].abdRound + 1
      if s.get (F.CAN_CTRL_ABDRND n) ≤ r then abdEnd n none s
      else
        match abdFrom s n 0 with
        | some j => s.modCan n (fun c => { c with abdCand := some j, abdGood := 0, abdRound := r })
        | none => abdEnd n none s

/-- ABD written 1 (R476). -/
def abdStart (n : CanCtl) (s : State) : State :=
  if s.on (F.CAN_CTRL_EN n) ∧ s.get (F.CAN_CTRL_OPMODE n) = 2 then
    let s := s.put (F.CAN_CTRL_ABD n) 1
    match abdFrom s n 0 with
    | some k => s.modCan n (fun c => { c with abdCand := some k, abdGood := 0, abdRound := 0 })
    | none => abdEnd n none s
  else s.put (F.CAN_STAT_ACCERR n) 1

/-- An error-free frame during detection: two in a row confirm. -/
def abdFrame (n : CanCtl) (brs : Bool) (s : State) : State :=
  match s.can[n.val].abdCand with
  | none => s
  | some k =>
    let alone := (List.range 8).all (fun j => j == k || !s.on (F.CAN_ABDN_CVALID n j)
      || s.get (F.CAN_ABDN_NT n j) != s.get (F.CAN_ABDN_NT n k))
    if brs || alone then
      let g := s.can[n.val].abdGood + 1
      if 2 ≤ g then abdEnd n (some k) s else s.modCan n (fun c => { c with abdGood := g })
    else s

/-! ## Reception (R460 to R462) -/

/-- An identifier as an object holds it: in base format it stands in bits [28:18]. -/
def idBits (ext : Bool) (id : Nat) : Nat := if ext then id % 2 ^ 29 else id % 2 ^ 11 * 2 ^ 18

/-- Whether receive object `k` matches a frame. -/
def canMatches (s : State) (n : CanCtl) (k : Nat) (f : CanFrame) : Bool :=
  let w := (canObj s n k).id.toNat
  bitAt w 31 && bitAt w 29 == f.ext &&
    (if f.ext then w % 2 ^ 29 == f.id.toNat else w / 2 ^ 18 % 2 ^ 11 == f.id.toNat)

/-- A frame stored in a receive object (R461, R462). -/
def canStore (n : CanCtl) (k : Nat) (f : CanFrame) (s : State) : State :=
  let fd := f.fd
  let len := dlcBytes fd f.dlc.toNat
  let data := f.data.take len
  let o : CanObj :=
    { id := BitVec.ofNat 32 (idBits f.ext f.id.toNat + 2 ^ 29 * f.ext.toNat + 2 ^ 31),
      ctl := ctlOf f.dlc.toNat fd (fd && f.brs) (fd && f.esi), data := dataWords data }
  let s := setCanObj n k o s
  let s := s.when (s.on (F.CAN_RSTAT_NEWDAT n k)) (fun s =>
    (s.put (F.CAN_RSTAT_LOST n k) 1).count (F.CAN_RSTAT_LOSTCNT n k) (F.CAN_RSTAT_LOSTOVF n k))
  let s := canEvent n 0 (s.put (F.CAN_RSTAT_NEWDAT n k) 1)
  twinNotice n k ⟨len, data ++ List.replicate (len - data.length) 0⟩ s

/-- Whether a controller takes frames: on the bus, not bus-off (R470), not waiting for 11 recessive bits (R473). -/
def canListens (s : State) (n : CanCtl) : Bool :=
  s.on (F.CAN_CTRL_EN n) && s.get (F.CAN_STAT_EST n) != 2 && !s.can[n.val].waits

/-- The lowest receive object that matches a frame heard (R460); none for a remote frame and during bit-rate detection (R455, R477). -/
def canTarget (s : State) (n : CanCtl) (f : CanFrame) : Option Nat :=
  if !canListens s n || s.can[n.val].abdCand.isSome || f.rtr then none else (List.range 96).find? (fun k => canMatches s n k f)

/-- A frame valid for the receiver (R460, R470, R477): acknowledged in the modes that acknowledge (R473), whether an object takes it or not. -/
def canTake (n : CanCtl) (f : CanFrame) (s : State) : State :=
  if !canListens s n then s
  else if s.can[n.val].abdCand.isSome then abdFrame n (f.fd && f.brs) s
  else
    let target := canTarget s n f
    let s := s.modCan n (fun c => { c with acked := canMode s n != 2 })
    let s := if canCounts s n then canRecDown n s else s
    match target with
    | some k => canStore n k f s
    | none => s

/-- A frame valid on the bus: in internal loopback the controller hears its own frames alone (R473, log entry 77). -/
def canReceive (n : CanCtl) (f : CanFrame) (s : State) : State := if canMode s n = 3 then s else canTake n f s

/-- The LEC code of a reception error; which of bit 1 and bit 0 a bit error was is a free value. -/
def rxLec (s : State) : RxErrorKind → Nat
  | .stuff => 1 | .form => 2 | .crc => 6 | .bit => 4 + s.free.toNat % 2 | .bitInFlag => 4 + s.free.toNat % 2 | .dominantAfterFlag => 5
  | .protocolException => 2 | .overload => 0

/-- A detected error answered as the mode in force does (R473): by an error frame where it sends them; in restricted operation by a wait for 11
recessive bits. `tx`: the frame was its own, and so the flag is a transmitter's. -/
def canSignals (n : CanCtl) (tx : Bool) (s : State) : State :=
  let m := canMode s n
  s.modCan n (fun c => { c with flagged := m == 0 || m == 3, txFlag := tx, waits := m == 1 })

/-- An overload condition (R455): answered by an overload frame in the modes that send them (R473); no counter moves. -/
def canOverload (n : CanCtl) (tx : Bool) (s : State) : State :=
  if !canListens s n then s
  else
    let m := canMode s n
    s.modCan n (fun c => { c with overload := m == 0 || m == 3, txFlag := tx })

/-- A bit error while the controller sends an error or overload flag, or 8 dominant bits after one: ISO 11898-1 raises the counter of the role in
which it sends the flag by 8 (R455). -/
def canFlagError (n : CanCtl) (lec : Nat) (s : State) : State :=
  if !canListens s n then s
  else
    let s := (s.put (F.CAN_STAT_LEC n) lec).drew
    if !canCounts s n then s
    else if s.can[n.val].txFlag then canTecUp n s
    else canRecUp n 8 s

/-- An error while receiving (R455, R473, R476). -/
def canRxError (n : CanCtl) (k : RxErrorKind) (s : State) : State :=
  if k = .overload then canOverload n false s
  else if k = .bitInFlag ∨ k = .dominantAfterFlag then canFlagError n (rxLec s k) s
  else if !canListens s n then s
  else if k = .protocolException ∧ s.on (F.CAN_CTRL_PXHD n) = false then s.put (F.CAN_STAT_PXEV n) 1
  else
    let s := canSignals n false (s.put (F.CAN_STAT_LEC n) (rxLec s k)).drew
    let s := if s.can[n.val].abdCand.isSome then abdNext n s else s
    if canCounts s n then canRecUp n 1 s else s

/-! ## Transmission (R465 to R469) -/

/-- The arbitration field of an object as a number: the lower wins. Base format with its recessive-free RTR and IDE ranks before
an extended frame of the same 11 bits. -/
def arbKey (o : CanObj) : Nat :=
  let w := o.id.toNat
  if bitAt w 29 then (w / 2 ^ 18 % 2 ^ 11) * 2 ^ 20 + 3 * 2 ^ 18 + w % 2 ^ 18
  else (w / 2 ^ 18 % 2 ^ 11) * 2 ^ 20

/-- The transmit object that would win on the bus (R465). -/
def canChoose (s : State) (n : CanCtl) : Option (Fin 32) :=
  (List.finRange 32).foldl (fun best (k : Fin 32) =>
    if s.on (F.CAN_TSTAT_TXREQ n k) then
      match best with
      | some j => if arbKey (canObj s n (96 + k.val)) < arbKey (canObj s n (96 + j.val)) then some k else best
      | none => some k
    else best) none

/-- Whether the controller may send in the mode in force; while S restarts, the lane sends no CAN frames (R426). -/
def canMaySend (s : State) (n : CanCtl) : Bool :=
  s.on (F.CAN_CTRL_EN n) && s.get (F.CAN_STAT_EST n) != 2 && canCounts s n && !s.sys.sDown

/-- The transmitter delay measured at an FDF bit (R459). -/
def canTdc (n : CanCtl) (delay : Nat) (s : State) : State :=
  if s.on (F.CAN_CTRL_TDCEN n) then
    let s := s.put (F.CAN_TDC_MEAS n) (min delay 127)
    if 127 < delay + s.get (F.CAN_DBT_TDCO n) then s.put (F.CAN_STAT_TDCFLT n) 1 else s
  else s

/-- An arbitration (R465): the object chosen enters it; `win` says that it is won. -/
def canArbitrate (n : CanCtl) (win : Bool) (delay : Nat) (s : State) : State :=
  if !canMaySend s n then s
  else
    let s := match s.can[n.val].active with
      | some _ => s
      | none =>
        match canChoose s n with
        | some k => (s.put (F.CAN_TSTAT_ACTIVE n k) 1).modCan n (fun c => { c with active := some (k, false) })
        | none => s
    match s.can[n.val].active with
    | some (k, false) =>
      if win then
        let s := s.modCan n (fun c => { c with active := some (k, true) })
        if bitAt (canObj s n (96 + k.val)).ctl.toNat 4 then canTdc n delay s else s
      else s
    | _ => s

/-- The frame a transmit object sends (R466). -/
def canTxFrame (s : State) (n : CanCtl) (k : Fin 32) : CanFrame :=
  let o := canObj s n (96 + k.val)
  let w := o.id.toNat
  let fd := bitAt o.ctl.toNat 4
  { id := BitVec.ofNat 29 (if bitAt w 29 then w else w / 2 ^ 18 % 2 ^ 11), ext := bitAt w 29, fd := fd, brs := fd && bitAt o.ctl.toNat 5,
    esi := s.get (F.CAN_STAT_EST n) == 1, rtr := false, dlc := BitVec.ofNat 4 o.ctl.toNat, data := o.bytes.take o.len }

/-- A frame completed without error (R466, R467, R469). In internal loopback it is received here (R473). -/
def canSent (n : CanCtl) (s : State) : State :=
  match s.can[n.val].active with
  | some (k, true) =>
    let f := canTxFrame s n k
    let s := (s.put (F.CAN_TSTAT_TXREQ n k) 0).put (F.CAN_TSTAT_CANCEL n k) 0
    let s := canEvent n 1 (s.put (F.CAN_TSTAT_SENT n k) 1)
    let s := (List.finRange 32).foldl (fun s (j : Fin 32) => s.put (F.CAN_TSTAT_NACK n j) 0) s
    let s := canTellTwin n ((s.put (F.CAN_STAT_NOACK n) 0).modCan n (fun c => { c with nacks := [] }))
    let s := canJudge n (s.put (F.CAN_ERRC_TEC n) (s.get (F.CAN_ERRC_TEC n) - 1))
    let s := (canRelease n s).modCan n (fun c => { c with sent := some f })
    if canMode s n = 3 then canTake n f s else s
  | _ => s

/-- An acknowledge error counted (R469): each object that reaches NACKLIM raises NOACKEV. -/
def canNack (n : CanCtl) (k : Fin 32) (s : State) : State :=
  let c := Tab.get (fun _ => 0) s.can[n.val].nacks k + 1
  let s := s.modCan n (fun x => { x with nacks := Tab.put (fun _ => 0) x.nacks k c })
  if s.get (F.CAN_CTRL_NACKLIM n) ≤ c then
    let first := !s.on (F.CAN_TSTAT_NACK n k)
    let s := (s.put (F.CAN_TSTAT_NACK n k) 1).put (F.CAN_STAT_NOACK n) 1
    canTellTwin n (s.when first (canEvent n 3))
  else s

/-- The LEC code of a transmission error; 7 where it is none. -/
def txLec (s : State) : TxErrorKind → Option Nat
  | .bitInFlag => some (4 + s.free.toNat % 2) | .dominantAfterFlag => some 5
  | .lostArbitration => none | .overload => none | .stuff => some 1 | .stuffArbitration => some 1 | .form => some 2 | .ack => some 3
  | .ackDominant => some 3 | .bit => some (4 + s.free.toNat % 2)

/-- A frame that loses arbitration or suffers an error (R467 to R470): it is sent again, unless CANCEL was written. The transmit error counter rises
by 8, but for ISO 11898-1's two exceptions: an acknowledge error of an error-passive transmitter that sees no dominant bit during its flag, and a
stuff error in the arbitration field whose recessive stuff bit was read dominant. The object is released at the error; what goes wrong with the
flag after it is counted by `canFlagError`. -/
def canTxError (n : CanCtl) (k : TxErrorKind) (s : State) : State :=
  if k = .overload then canOverload n true s
  else if k = .bitInFlag ∨ k = .dominantAfterFlag then canFlagError n ((txLec s k).getD 0) s
  else
    match s.can[n.val].active with
    | none => s
    | some (obj, _) =>
      let s := match txLec s k with
        | some l => (s.put (F.CAN_STAT_LEC n) l).drew
        | none => s
      let s := if s.on (F.CAN_TSTAT_CANCEL n obj) then canCancelled n obj s else s
      let s := canRelease n s
      if k = .lostArbitration then s
      else
        let passive := s.get (F.CAN_STAT_EST n) == 1
        let s := canSignals n true (if k = .ack ∨ k = .ackDominant then canNack n obj s else s)
        if (k = .ack ∧ passive = true) ∨ k = .stuffArbitration then s else canTecUp n s

/-- CANCEL written 1 (R468). -/
def canCancel (n : CanCtl) (k : Fin 32) (s : State) : State :=
  if !s.on (F.CAN_TSTAT_TXREQ n k) then s
  else if s.on (F.CAN_TSTAT_ACTIVE n k) then s.put (F.CAN_TSTAT_CANCEL n k) 1
  else canCancelled n k s

/-- TXREQ written 1. With object 30 of CAN0 or CAN1 a chassis-wide broadcast of this lane goes out, whose confirmations it then holds (R419,
R478). -/
def canRequest (n : CanCtl) (k : Fin 32) (s : State) : State :=
  (s.put (F.CAN_TSTAT_TXREQ n k) 1).when (k == 30 && decide (n.val < 2)) (·.modCont (fun c => { c with confirmed := 0 }))

/-- A transmit object loaded by the service firmware and requested, when it holds no pending request (R466). -/
def canSend (n : CanCtl) (k : Fin 32) (id : Nat) (brs : Bool) (data : List Byte) (s : State) : State :=
  if s.on (F.CAN_TSTAT_TXREQ n k) then s
  else
    let dlc := dlcFor data.length
    let o : CanObj := { id := BitVec.ofNat 32 (id % 2 ^ 11 * 2 ^ 18), ctl := ctlOf dlc true brs false, data := dataWords data }
    canRequest n k (setCanObj n (96 + k.val) o s)

/-! ## Bus-off recovery, modes, enabling (R471 to R474) -/

/-- CTXn held recessive: off the bus, bus-off, or in internal loopback (R470, R473). -/
def canQuiet (n : CanCtl) (s : State) : State :=
  s.modCan n (fun c => { c with
    recessive := !s.on (F.CAN_CTRL_EN n) || s.get (F.CAN_STAT_EST n) == 2 || canMode s n == 3 })

/-- RECOVER written 1. -/
def canRecover (n : CanCtl) (s : State) : State :=
  if s.get (F.CAN_STAT_EST n) = 2 then (s.put (F.CAN_CTRL_RECOVER n) 1).put (F.CAN_STAT_RECBUSY n) 1
  else s.put (F.CAN_STAT_ACCERR n) 1

/-- 128 occurrences of 11 recessive bits counted. -/
def canRecovered (n : CanCtl) (s : State) : State :=
  if s.on (F.CAN_STAT_RECBUSY n) then
    let s := ((s.put (F.CAN_ERRC_TEC n) 0).put (F.CAN_ERRC_REC n) 0).put (F.CAN_CTRL_RECOVER n) 0
    let s := canEvent n 5 (canState n 0 (s.put (F.CAN_STAT_RECBUSY n) 0))
    canTellTwin n (canQuiet n s)
  else s

/-- A bus idle: OPMODE and LEADONLY take effect, and a wait for 11 recessive bits ends. -/
def canIdle (n : CanCtl) (s : State) : State :=
  let lead := s.get F.CONT_STAT_ROLE == 2
  canQuiet n (s.modCan n (fun c => { c with
    mode := BitVec.ofNat 2 (s.get (F.CAN_CTRL_OPMODE n)), leadHold := s.on (F.CAN_CTRL_LEADONLY n) && !lead, waits := false, txFlag := false }))

/-- The identifier that the service firmware gives a receive object of CAN0 or CAN1 (R478, R513); none for one that it leaves disabled, as the
own lane's status and, with CAN_CMD = 0, the command packets (R539). -/
def reservedId (s : State) (n : CanCtl) (k : Nat) : Option Nat :=
  let cwid := s.get (F.CAN_SVC_CWID n)
  if k = 83 then
    if bitAt (s.get F.SEAL_STRAP_WORD) 7 then some (s.get F.HOST_CAN_CMDID + 2 * (3 * setId s + laneId s)) else none
  else if 84 ≤ k ∧ k ≤ 91 then some (cwid + 1 + (k - 84))
  else if k = 92 then some cwid
  else if 93 ≤ k ∧ k ≤ 95 then (if k - 93 = laneId s then none else some (s.get F.CONT_LS_LSID + 3 * setId s + (k - 93)))
  else if s.on F.TIME_CTRL_EN && k == s.get F.TIME_SYNC_SOBJ then some (s.get F.TIME_SYNC_SYNCID)
  else none

/-- A receive object set up for an identifier in base format, or disabled. -/
def reserveObj (n : CanCtl) (s : State) (k : Nat) : State :=
  setCanObj n k { canObj s n k with id := match reservedId s n k with
    | some i => BitVec.ofNat 32 (idBits false i + 2 ^ 31) | none => 0 } s

/-- Transmit object 30 of CAN0 or CAN1 set up for the chassis-wide broadcast (R478): identifier CWID in base format, an FD frame. What it carries S
writes through the window before its request, and the spec lays it out nowhere. -/
def broadcastObj (n : CanCtl) (s : State) : State :=
  setCanObj n 126 { canObj s n 126 with id := BitVec.ofNat 32 (idBits false (s.get (F.CAN_SVC_CWID n))), ctl := ctlOf 15 true true false } s

/-- The objects that the service firmware reserves set up as it puts CAN0 or CAN1 on the bus (R478; when it does so is the model's, log entry 12):
those of R478, the broadcast's among them, and that of the sync frames where network time runs. -/
def canReserve (n : CanCtl) (s : State) : State :=
  if 2 ≤ n.val || !issues s .s then s
  else
    let sync := if s.on F.TIME_CTRL_EN && decide (s.get F.TIME_SYNC_SOBJ < 83) then [s.get F.TIME_SYNC_SOBJ] else []
    (sync ++ (List.range 13).map (· + 83)).foldl (reserveObj n) (broadcastObj n s)

/-- EN written: 0 holds CTXn recessive, clears every TXREQ and sets CANCELLED for each. -/
def canEnable (n : CanCtl) (en : Bool) (s : State) : State :=
  if en then canReserve n (canQuiet n (s.put (F.CAN_CTRL_EN n) 1))
  else
    let s := canRelease n ((s.put (F.CAN_CTRL_EN n) 0).modCan n (fun c => { c with recessive := true }))
    followVotes ((List.finRange 32).foldl (fun s (k : Fin 32) => if s.on (F.CAN_TSTAT_TXREQ n k) then canCancelled n k s else s) s)

/-! ## The window (R463, R464, R466) -/

/-- A write through the window. -/
def canWindow (n : CanCtl) (off : Nat) (v : Word) (s : State) : State :=
  let k := s.get (F.CAN_WSEL_OBJ n)
  let o := canObj s n k
  let bad := s.put (F.CAN_STAT_ACCERR n) 1
  let idWord : Word := v &&& 0xBFFFFFFF
  if k < 96 then
    if off = 0x800 then setCanObj n k { o with id := idWord } s else bad
  else if s.on (F.CAN_TSTAT_TXREQ n (k - 96)) then bad
  else if off = 0x800 then setCanObj n k { o with id := idWord } s
  else if off = 0x804 then setCanObj n k { o with ctl := (o.ctl &&& 0x40) ||| (v &&& 0x3F) } s
  else if h : 0x810 ≤ off ∧ off < 0x850 ∧ off % 4 = 0 then
    setCanObj n k { o with data := o.data.set ((off - 0x810) / 4) v (by omega) } s
  else bad

/-- A read through the window. -/
def canWindowRead (s : State) (n : CanCtl) (off : Nat) : Word :=
  let o := canObj s n (s.get (F.CAN_WSEL_OBJ n))
  if off = 0x800 then o.id
  else if off = 0x804 then o.ctl
  else o.data.toList.getD ((off - 0x810) / 4) 0

/-! ## The commands -/

/-- TWIN_VERDICT (R443): the window of a pair closes. -/
def execTwinVerdict (k : TwinPair) (s : State) : Out := clockedOut s <| .next (twinDecide k s)
/-- CAN_WINDOW_WRITE (R464, R466). -/
def execCanWindowWrite (n : CanCtl) (off : BitVec 12) (v : Word) (s : State) : Out := clockedOut s <| .next (canWindow n off.toNat v s)
/-- TRANSMIT_REQUEST (R465). -/
def execTransmitRequest (n : CanCtl) (k : Fin 32) (s : State) : Out := clockedOut s <| .next (canRequest n k s)
/-- ARBITRATION (R465). -/
def execArbitration (n : CanCtl) (win : Bool) (delay : Nat) (s : State) : Out := clockedOut s <| .next (canArbitrate n win delay s)
/-- TRANSMIT_CANCEL (R468). -/
def execTransmitCancel (n : CanCtl) (k : Fin 32) (s : State) : Out := clockedOut s <| .next (canCancel n k s)
/-- BUS_OFF_RECOVER (R471). -/
def execBusOffRecover (n : CanCtl) (s : State) : Out := clockedOut s <| .next (canRecover n s)
/-- RECOVERY_DONE (R471). -/
def execRecoveryDone (n : CanCtl) (s : State) : Out := clockedOut s <| .next (canRecovered n s)
/-- BUS_OFF_RECOVER_TIMER (R472): the service firmware writes RECOVER 100 ms after an entry into bus-off. -/
def execBusOffRecoverTimer (n : CanCtl) (s : State) : Out :=
  clockedOut s <| .next (if s.get (F.CAN_STAT_EST n) = 2 then canRecover n s else s)
/-- OPMODE_WRITE (R473). -/
def execOpmodeWrite (n : CanCtl) (m : BitVec 2) (s : State) : Out := clockedOut s <| .next (s.put (F.CAN_CTRL_OPMODE n) m.toNat)
/-- BUS_IDLE (R473, R474). -/
def execBusIdle (n : CanCtl) (s : State) : Out := clockedOut s <| .next (canIdle n s)
/-- CAN_ENABLE_WRITE (CANn_CTRL.EN). -/
def execCanEnableWrite (n : CanCtl) (en : Bool) (s : State) : Out := clockedOut s <| .next (canEnable n en s)
/-- BITRATE_DETECT_START (R476). -/
def execBitrateDetectStart (n : CanCtl) (s : State) : Out := clockedOut s <| .next (abdStart n s)
/-- ABD_CANDIDATE_TIMEOUT (R476). -/
def execAbdCandidateTimeout (n : CanCtl) (s : State) : Out := clockedOut s <| .next (abdNext n s)
/-- CAN_RECEIVE_ERROR (R455). -/
def execCanReceiveError (n : CanCtl) (k : RxErrorKind) (s : State) : Out := clockedOut s <| .next (canRxError n k s)

end Sys2Proof.Machine
end

