-- ==== Sys2Proof/Machine/Isns.lean ====
section
/-!
DEFINITION. Current sensing (chapter 06), V's comparisons of currents, VMOT and rails (R197, R361, R637), and their commands.
-/
namespace Sys2Proof.Machine

/-- The lane timer (R662): ticks since the first PLL lock of the start. -/
def laneTimer (s : State) : Nat := s.tick - s.sys.timer0

/-- The bridge of a channel and its phase less 1 (R180). -/
def chanBridge (c : IsnsCh) : Bridge := ⟨c.val / 2, by omega⟩
def chanOf (b : Bridge) (ph : Fin 2) : IsnsCh := ⟨2 * b.val + ph.val, by omega⟩

/-- SEQ, the drop counter and SMPTMO of a bridge. -/
def seqFld (b : Bridge) : Fld := if b = 0 then F.ISNS_SEQ_SEQA else F.ISNS_SEQ_SEQB
def dropFld (b : Bridge) : Fld := if b = 0 then F.ISNS_DROPCNT_WDCNTA else F.ISNS_DROPCNT_WDCNTB
def smptmoFld (b : Bridge) : Fld := if b = 0 then F.ISNS_TMO_SMPTMO_A else F.ISNS_TMO_SMPTMO_B
def extFld (b : Bridge) : Fld := if b = 0 then F.ISNS_CTRL_EXTA else F.ISNS_CTRL_EXTB

/-- Ticks between the rising edges of a bridge's modulator clock (R183, R662). -/
def modClock (s : State) (b : Bridge) : Nat := if s.on (extFld b) && s.on F.ISNS_CTRL_MCLK10 then 20 else 10

/-- OSR of a profile (R184). -/
def osrOf (s : State) (b : Bridge) (p : Fin 4) : Nat := 2 ^ (3 + s.get (F.ISNS_WIN_OSRC (4 * b.val + p.val)))

/-! ## Windows (R184 to R189) -/

/-- A window opened: it begins at the first rising edge of the modulator clock at or after now, in lane-timer ticks. -/
def openNow (b : Bridge) (p : Fin 4) (s : State) : State :=
  let m := modClock s b
  let t := (laneTimer s + m - 1) / m * m
  let s := s.modChan (chanOf b 0) (fun k => { k with stuckNow := false })
  let s := s.modChan (chanOf b 1) (fun k => { k with stuckNow := false })
  s.modBridge b (fun x => { x with win := some (p, t) })

/-- CALABT (R202, R203): counted by G, which asks again (R610). -/
def calFailed (b : Bridge) (s : State) : State :=
  let s := (s.putBit F.ISNS_CAL_CALREQ b false).putBit F.ISNS_STAT_CALABT b true
  (s.sat F.BKG_CAL_CALABTN).modBkg (fun g => { g with retry := BitVec.ofNat 2 (withBit g.retry.toNat b true) })

/-- A calibration aborted (R203): the old trims stay. -/
def calAbort (b : Bridge) (s : State) : State :=
  if s.bit F.ISNS_STAT_CALBUSY b then calFailed b (s.putBit F.ISNS_STAT_CALBUSY b false) else s

/-- A window action (R184, R186, R203). -/
def windowAction (b : Bridge) (p : Fin 4) (s : State) : State :=
  let s := calAbort b s
  if !isnsEnabled s b then s
  else
    match s.isnsB[b.val].win, s.isnsB[b.val].queued with
    | none, _ => openNow b p s
    | some _, none => s.modBridge b (fun x => { x with queued := some p })
    | some _, some _ => (s.putBit F.ISNS_STAT_WDROP b true).countBit (dropFld b) F.ISNS_DROPCNT_OVF b

/-- The third sum of a bitstream, its bits counted as +1 and -1. -/
def thirdSum (l : List Bool) : Int :=
  (l.foldl (fun (a : Int × Int × Int) x =>
    let i := a.1 + (if x then 1 else -1)
    (i, a.2.1 + i, a.2.2 + a.2.1 + i)) (0, 0, 0)).2.2

/-- The output of a third-order sinc filter that decimates by `n` at the end of a window of `3 * n` bits, in parts of `n ^ 3` (R185):
the third difference of the third sums, placed so that the first and the last bit have no weight and the rest is weighted
symmetrically. -/
def sinc3 (n : Nat) (bits : List Bool) : Int :=
  thirdSum (bits.take (3 * n - 1)) - 3 * thirdSum (bits.take (2 * n - 1)) + 3 * thirdSum (bits.take (n - 1))

/-- Whether a bitstream shows a transition. -/
def hasEdge : List Bool → Bool
  | a :: b :: t => a != b || hasEdge (b :: t)
  | _ => false

/-- Whether a bitstream, after `n` bits equal to `v`, comes to hold 32 consecutive equal bits (R190). -/
def runOf32 (v : Bool) : Nat → List Bool → Bool
  | n, [] => decide (32 ≤ n)
  | n, b :: t => decide (32 ≤ n) || (if b == v then runOf32 v (n + 1) t else runOf32 b 1 t)

/-- A filter output `x` in parts of `den`, corrected and negated, before its clip, in 2^-19 (R189); the spec gives no rounding (log
entry 10). -/
def corrected (s : State) (c : IsnsCh) (x : Int) (den : Nat) : Int :=
  let v := s.roundFree ((x * 2 ^ 19 - s.getS (F.ISNS_CHTRIM_OFS c) * den) * (32768 + s.getS (F.ISNS_CHTRIM_GAIN c))) (den * 32768)
  if s.on (F.ISNS_CHCFG_INV c) then -v else v

/-- A channel saturates: SAT, and one event counted (R190). -/
def countSat (c : IsnsCh) (s : State) : State :=
  (s.putBit F.ISNS_STAT_SAT c true).count (F.ISNS_CNT_SATCNT c) (F.ISNS_CNT_SATOVF c)

/-- A result clipped (R190): it counts once, but together with a run of 32 equal bits that its window contains and that has been counted
alone so far. -/
def countClip (c : IsnsCh) (bits : List Bool) (s : State) : State :=
  if s.isnsC[c.val].runCounted && runOf32 true 0 bits then
    (s.putBit F.ISNS_STAT_SAT c true).modChan c (fun k => { k with runCounted := false })
  else countSat c s

/-- V's separate decimator of an external bitstream (R200), counted in its mean window, in 2^-21. -/
def vDecimate (c : IsnsCh) (x : Int) (den : Nat) (old : Bool) (s : State) : State :=
  let v := x * ((2 ^ 21 / den : Nat) : Int)
  if s.on (extFld (chanBridge c)) then
    s.modChan c (fun k =>
      if old then { k with vOldSum := k.vOldSum + v, vOldNum := k.vOldNum + 1 } else { k with vSum := k.vSum + v, vNum := k.vNum + 1 })
  else s

/-- Whether a window passes R192 for a channel: its bitstream was not found stuck in it, and one stuck before moves again. -/
def windowMoves (s : State) (c : IsnsCh) (bits : List Bool) : Bool :=
  !s.isnsC[c.val].stuckNow && (hasEdge bits || !s.isnsC[c.val].stuck)

/-- One channel's result written, counted in its mean window by its sampling instant `inst`, checked against LIM, and the
channel made valid if it waited for its first good window (R187, R189 to R191, R194, R197, R200). An instant on a window boundary of R662 counts in the
mean window that begins there (DESIGN CHOICE, log entry 106). -/
def channelResult (c : IsnsCh) (n : Nat) (bits : List Bool) (inst : Nat) (s : State) : State :=
  let b := chanBridge c
  let x := sinc3 n bits
  let v := corrected s c x (n ^ 3)
  let r := clipSigned 20 v
  let good := windowMoves s c bits
  let s := s.drew.putS (F.ISNS_CHRES_RES c) r
  let s := s.when (decide (r ≠ v)) (countClip c bits)
  let old := decide (inst / 20000 < laneTimer s / 20000)
  let s := s.modChan c (fun k =>
    if old then { k with oldSum := k.oldSum + r, oldNum := k.oldNum + 1 } else { k with sum := k.sum + r, num := k.num + 1 })
  let s := vDecimate c x (n ^ 3) old s
  let s := s.when (decide (s.get (F.ISNS_CHCFG_LIM c) * 2048 < r.natAbs)) (fun s =>
    ((s.putBit F.ISNS_STAT_RANGE c true).count (F.ISNS_CNT_RNGCNT c) (F.ISNS_CNT_RNGOVF c)).put (F.MC_STAT_RANGE b) 1)
  let s := if hasEdge bits then s.modChan c (fun k => { k with stuck := false }) else s
  if good && s.isnsC[c.val].awaiting then
    (s.putBit F.ISNS_STAT_VALID c true).modChan c (fun k => { k with awaiting := false })
  else s

/-- The phase-3 result (R181). -/
def phase3 (b : Bridge) (s : State) : State :=
  let v := -(s.getS (F.ISNS_CHRES_RES (2 * b.val)) + s.getS (F.ISNS_CHRES_RES (2 * b.val + 1)))
  let r := clipSigned 20 v
  (s.putS (F.ISNS_I3_I3 b) r).when (decide (r ≠ v)) (fun s => s.put F.ISNS_STAT_I3SAT 1)

/-- The trigger of a profile (R188). -/
def windowTrigger (b : Bridge) (p : Fin 4) (s : State) : State :=
  let k := 4 * b.val + p.val
  if s.on (F.ISNS_WIN_TEN k) then
    let e := s.get (F.ISNS_WIN_ENG k)
    let s := s.when (triggerToDrops s e (.window b p))
      (fun s => (s.put F.ISNS_STAT_TDROP 1).countBit F.ISNS_DROPCNT_TDCNT F.ISNS_DROPCNT_OVF 2)
    triggerTo e (.window b p) (s.get (F.ISNS_WIN_EP k)) s
  else s

/-- An invalid channel delivers its result with a signal to the MC block of its bridge (R194, R322). -/
def signalInvalid (b : Bridge) (s : State) : State :=
  if currentInvalid s b ∧ mcMode s b ≠ modeOut then mcCurrentInvalid b s else s

/-- The result set of a window kept with those of the last second (R611). -/
def phasesKept (b : Bridge) (p : PhaseSet) (s : State) : State :=
  s.modBkg (fun g => { g with
    inline := upd g.inline b (fun l => p :: l.filter (fun x => decide (p.at_ < x.at_ + 200000000))) })

/-- The end of a bridge's open window, with the bitstreams its two channels held in it. The OSR and the modulator clock are those the
registers give at the window's end (log entry 94). -/
def windowDone (b : Bridge) (bits1 bits2 : List Bool) (s : State) : State :=
  match s.isnsB[b.val].win with
  | none => s
  | some (p, t) =>
    let n := osrOf s b p
    let inst := t + 3 * n * modClock s b / 2
    let s := phase3 b (channelResult (chanOf b 1) n bits2 inst (channelResult (chanOf b 0) n bits1 inst s))
    let s := s.inc (seqFld b)
    let i1 := s.getS (F.ISNS_CHRES_RES (2 * b.val))
    let i2 := s.getS (F.ISNS_CHRES_RES (2 * b.val + 1))
    let i3 := s.getS (F.ISNS_I3_I3 b)
    let lim := s.get (F.MC_ICLAMP_ICLAMP b) * 2048
    let s := s.when (decide (lim < i1.natAbs ∨ lim < i2.natAbs ∨ lim < i3.natAbs)) (clampBegin b)
    let at_ := inst + s.sys.timer0
    let s := windowTrigger b p (currentEstimate b at_ i1 i2 (signalInvalid b (phasesKept b ⟨at_, i1, i2, i3⟩ s)))
    let q := s.isnsB[b.val].queued
    let s := s.modBridge b (fun x => { x with win := none, queued := none, idle := 0 })
    match q with
    | some p' => openNow b p' s
    | none => s

/-! ## Checks (R190 to R194) -/

/-- A channel's bitstream comes to hold 32 consecutive equal bits: a run counts once (R190). -/
def runSeen (c : IsnsCh) (s : State) : State := (countSat c s).modChan c (fun k => { k with runCounted := true })

/-- A channel becomes invalid, told to its MC block. A valid one stays so until REVAL; one that waits for its first good
window goes on waiting (R194, log entry 75). -/
def channelInvalid (c : IsnsCh) (s : State) : State :=
  mcCurrentInvalid (chanBridge c) (s.putBit F.ISNS_STAT_VALID c false)

/-- A bitstream stuck while its bridge is enabled: the window it falls in does not pass, nor one through which it stays stuck (R192). -/
def channelStuck (c : IsnsCh) (s : State) : State :=
  if isnsEnabled s (chanBridge c) then
    channelInvalid c ((s.putBit F.ISNS_STAT_STUCK c true).modChan c (fun k => { k with stuck := true, stuckNow := true }))
  else s

/-- SMPTMO inner ticks without a window (R193). The count begins again at 0, so TMO comes again after as many idle ticks more (DESIGN CHOICE, log entry
106). -/
def windowTimeout (b : Bridge) (s : State) : State :=
  let n := s.get (smptmoFld b)
  if isnsEnabled s b ∧ n ≠ 0 ∧ n ≤ s.isnsB[b.val].idle then
    channelInvalid (chanOf b 1) (channelInvalid (chanOf b 0)
      ((s.putBit F.ISNS_STAT_TMO b true).modBridge b (fun x => { x with idle := 0 })))
  else s

/-- REVAL written: each channel named waits for its first good window. -/
def revalChannels (mask : Nat) (s : State) : State :=
  (List.finRange 4).foldl (fun s (c : IsnsCh) =>
    if bitAt mask c && !s.bit F.ISNS_STAT_VALID c then s.modChan c (fun k => { k with awaiting := true }) else s) s

/-! ## Mean windows and V's comparisons (R197, R361, R637) -/

/-- A mean window ends: what it collected waits for its publication. -/
def meanEnd (s : State) : State :=
  let s := (List.finRange 4).foldl (fun s (c : IsnsCh) =>
    s.modChan c (fun k => { k with
      sum := 0, num := 0, oldSum := k.oldSum + k.sum, oldNum := k.oldNum + k.num, vSum := 0, vNum := 0,
      vOldSum := k.vOldSum + k.vSum, vOldNum := k.vOldNum + k.vNum })) s
  s.modDriver (fun d => { d with vmotSum := 0, vmotNum := 0, vmotOldSum := d.vmotSum, vmotOldNum := d.vmotNum })

/-- One channel's mean published, V's own mean of the same window with it (R200); the spec gives no rounding (log entry 10). -/
def publishChannel (s : State) (c : IsnsCh) : State :=
  let k := s.isnsC[c.val]
  let s :=
    if k.oldNum = 0 then s.putBit F.ISNS_MSEQ_EMPTY c true
    else ((s.putS (F.ISNS_MEAN_MEAN c) (s.roundFree k.oldSum k.oldNum)).drew).putBit F.ISNS_MSEQ_EMPTY c false
  s.modChan c (fun k => { k with
    oldSum := 0, oldNum := 0, vOldSum := 0, vOldNum := 0, vPubSum := k.vOldSum, vPubNum := k.vOldNum })

/-- MEANn, EMPTY and MSEQ, and the event to V. -/
def meanPublished (s : State) : State :=
  (((List.finRange 4).foldl publishChannel s).inc F.ISNS_MSEQ_MSEQ).raise .meanWindow

/-- Whether V compares a channel. -/
def compared (s : State) (c : IsnsCh) : Bool := bridgeUsed s (chanBridge c) && isnsEnabled s (chanBridge c)

/-- V's own mean of a channel as a sum in 2^-21 of full scale and the number it is divided by: with external conversion of its
decimator's results (R200), else of its ADC's conversions, whose mean is `m` in 2^-19 (R196). -/
def vMean (s : State) (c : IsnsCh) (m : Int) : Int × Nat :=
  if s.on (extFld (chanBridge c)) then (s.isnsC[c.val].vPubSum, s.isnsC[c.val].vPubNum) else (4 * m, 1)

/-- V's comparison of one channel with its own mean. TOL counts 2^-12 of full scale. -/
def compareChannel (s : State) (c : IsnsCh) (m : Int) : State :=
  if !compared s c || s.bit F.ISNS_MSEQ_EMPTY c then s
  else
    let (sum, n) := vMean s c m
    let own := if s.on (F.ISNS_CHCFG_INV c) then -sum else sum
    let off := (4 * n * s.getS (F.ISNS_MEAN_MEAN c) - own).natAbs
    if s.get F.SAFE_ICMP_TOL * 512 * n < off then
      let n := s.isnsC[c.val].vfails + 1
      let s := s.modChan c (fun k => { k with vfails := n })
      if s.get F.SAFE_ICMP_VCMP_N + 1 ≤ n then setCut causeImis s else s
    else s.modChan c (fun k => { k with vfails := 0 })

/-- V's comparison of the four channels. -/
def compareCurrents (m0 m1 m2 m3 : Int) (s : State) : State :=
  compareChannel (compareChannel (compareChannel (compareChannel s 0 m0) 1 m1) 2 m2) 3 m3

/-- V's comparison of VMOT, in 10 mV; VTOL counts 50 mV. -/
def compareVmot (vMean : Nat) (s : State) : State :=
  let d := s.driver
  let off := ((vMean * d.vmotOldNum : Nat) : Int) - (d.vmotOldSum : Nat)
  if d.vmotOldNum = 0 then s
  else if s.get F.VBUS_VCMP_VTOL * 5 * d.vmotOldNum < off.natAbs then
    let s := s.modDriver (fun d => { d with vmotFails := d.vmotFails + 1 })
    if 2 ≤ s.driver.vmotFails then setCut causeVmis (s.put F.VBUS_STAT_VMIS 1) else s
  else s.modDriver (fun d => { d with vmotFails := 0 })

/-- V's check of VIO, VANA, VREFSC and VREFV in millivolts. -/
def railCheck (vio vana vrefsc vrefv : Nat) (s : State) : State :=
  let ok := decide (3000 ≤ vio ∧ vio ≤ 3600) && decide (3000 ≤ vana ∧ vana ≤ 3600)
    && decide (2450 ≤ vrefsc ∧ vrefsc ≤ 2550) && decide (1176 ≤ vrefv ∧ vrefv ≤ 1224)
  if ok then s.modSafe (fun x => { x with railFails := 0 })
  else
    let s := s.modSafe (fun x => { x with railFails := x.railFails + 1 })
    if 2 ≤ s.safe.railFails then setCut causeVsw s else s

/-! ## Calibration (R201 to R204) -/

/-- Whether every switch of a bridge is off. R202's 'all six legs' are taken as the six switches of the bridge concerned, which has three
legs (DESIGN CHOICE, log entry 94). -/
def legsAtRest (s : State) (b : Bridge) : Bool :=
  (List.finRange 6).all (fun j => decide (s.gate[b.val].sw[j.val].phase = .offHold))

/-- Whether both isolation switches of a bridge read open. -/
def isoIsOpen (s : State) (b : Bridge) : Bool :=
  s.bit F.SAFE_ISOFB_FB (2 * b.val) && s.bit F.SAFE_ISOFB_FB (2 * b.val + 1)

/-- One channel's trims from what its calibration measured (R201): OFS the mean of the zero windows, GAIN the opposite of the error of
the half-scale reading, whose limit is the range of the field (log entry 14); a reading out of limit keeps the old trims and sets
CALFLT (R204). The spec gives no rounding (log entry 10). -/
def trimChannel (c : IsnsCh) (m : TrimReading) (s : State) : State :=
  let n := m.zeros.length
  let sum := m.zeros.sum
  let err := m.ref * n - sum - 2 ^ 20 * n
  if 2 ^ 15 * n < sum.natAbs ∨ 2 ^ 16 * n < err.natAbs then s.putBit F.ISNS_STAT_CALFLT c true
  else
    let s := (s.putS (F.ISNS_CHTRIM_OFS c) (s.roundFree sum (4 * n))).drew
    (s.putS (F.ISNS_CHTRIM_GAIN c) (clipSigned 12 (s.roundFree (-err) (32 * n)))).drew

/-- CALREQ set for a bridge (R202). -/
def calRequest (b : Bridge) (s : State) : State :=
  if legsAtRest s b || isoIsOpen s b then
    (s.putBit F.ISNS_CAL_CALREQ b true).putBit F.ISNS_STAT_CALBUSY b true
  else calFailed b s

/-- The gate-watch comparators of a bridge trimmed in the window of a calibration, while its isolation switches are confirmed open or its
legs are at high impedance, and while no gate of it is switching (R610, log entry 104). -/
def trimWatch (b : Bridge) (s : State) : State :=
  let still := (List.finRange 6).all (fun j => s.gate[b.val].sw[j.val].phase == .offHold || s.gate[b.val].sw[j.val].phase == .onHold)
  if (s.bit F.SAFE_ISOFB_CONF b && still) || legsAtRest s b then
    s.modBkg (fun g => { g with watchTrim := g.watchTrim.set b.val (some s.tick) b.isLt })
  else s

/-- A calibration completes: internal channels take their trims. -/
def calDone (b : Bridge) (m1 m2 : TrimReading) (s : State) : State :=
  if s.bit F.ISNS_STAT_CALBUSY b then
    let s := if s.on (extFld b) then s else trimChannel (chanOf b 1) m2 (trimChannel (chanOf b 0) m1 s)
    let s := (s.putBit F.ISNS_STAT_CALBUSY b false).putBit F.ISNS_CAL_CALREQ b false
    trimWatch b ((s.inc F.BKG_CAL_CALDONE).modBkg (fun g => { g with retry := BitVec.ofNat 2 (withBit g.retry.toNat b false) }))
  else s

/-! ## The commands -/

/-- WINDOW_OPEN (R184). -/
def execWindowOpen (b : Bridge) (p : Fin 4) (s : State) : Out := clockedOut s <| .next (windowAction b p s)
/-- WINDOW_END (R187). -/
def execWindowEnd (b : Bridge) (bits1 bits2 : List Bool) (s : State) : Out := clockedOut s <| .next (windowDone b bits1 bits2 s)
/-- BITSTREAM_SATURATION (R190). -/
def execBitstreamSaturation (c : IsnsCh) (s : State) : Out := clockedOut s <| .next (runSeen c s)
/-- BITSTREAM_STUCK (R192). -/
def execBitstreamStuck (c : IsnsCh) (s : State) : Out := clockedOut s <| .next (channelStuck c s)
/-- SAMPLE_TIMEOUT (R193). -/
def execSampleTimeout (b : Bridge) (s : State) : Out := clockedOut s <| .next (windowTimeout b s)
/-- ISNS_REVAL (R194). -/
def execIsnsReval (mask : BitVec 4) (s : State) : Out := clockedOut s <| .next (revalChannels mask.toNat s)
/-- MEAN_WINDOW_END (R197, R662): the windows end where the lane timer is a multiple of 20 000. -/
def execMeanWindowEnd (s : State) : Out := clockedOut s <| .next (if laneTimer s % 20000 = 0 then meanEnd s else s)
/-- MEAN_PUBLISH (R197). -/
def execMeanPublish (s : State) : Out := clockedOut s <| .next (meanPublished s)
/-- V_CURRENT_COMPARE (R197). -/
def execVCurrentCompare (m0 m1 m2 m3 : Int) (s : State) : Out := byV s <| .next (compareCurrents m0 m1 m2 m3 s)
/-- V_VMOT_COMPARE (R361). -/
def execVVmotCompare (vMean : Nat) (s : State) : Out := byV s <| .next (compareVmot vMean s)
/-- V_RAIL_CHECK (R637). -/
def execVRailCheck (vio vana vrefsc vrefv : Nat) (s : State) : Out := byV s <| .next (railCheck vio vana vrefsc vrefv s)
/-- CALIBRATION_REQUEST (R202). -/
def execCalibrationRequest (b : Bridge) (s : State) : Out := clockedOut s <| .next (calRequest b s)
/-- CALIBRATION_DONE (R201). -/
def execCalibrationDone (b : Bridge) (m1 m2 : TrimReading) (s : State) : Out := clockedOut s <| .next (calDone b m1 m2 s)
/-- CALIBRATION_ABORT (R203): a leg has left high impedance, or a window action has arrived. -/
def execCalibrationAbort (b : Bridge) (byWindow : Option (Fin 4)) (s : State) : Out :=
  clockedOut s <| .next (match byWindow with
    | some p => windowAction b p (calAbort b s)
    | none => calAbort b s)

end Sys2Proof.Machine
end

