-- ==== Sys2Proof/Machine/RegWrite.lean ====
section
/-!
DEFINITION. A write to a register by the access codes of its fields (R22, R23, R24, R654, R659): what each field keeps, what
discards the whole write, and which flag shows it. The actions that writes start are the owning blocks'.
-/
namespace Sys2Proof.Machine

/-- The block's access-error flag (R23, R654, R659): none for SYS, SEAL, DBL, KEEP and DBG, whose tables have none; of the engines in the registers of
each, and of HLE at a reserved offset; of the channels in SENT, of channel 0 beyond them (DESIGN CHOICE, log entry 79). -/
def accErrFld (addr : Nat) : Option Fld :=
  let off := addr % 0x1000
  match blockOf addr with
  | 1 => some F.PWR_STAT_ACCERR
  | 4 => some (F.ANG_STAT_ACCERR 0) | 5 => some (F.ANG_STAT_ACCERR 1)
  | 6 => some (F.POS_STAT_ACCERR 0) | 7 => some (F.POS_STAT_ACCERR 1)
  | 8 => some (F.SENT_STAT_ACCERR (if off < 0x80 then off / 0x20 else 0))
  | 9 => some F.EMU_STAT_ACCERR
  | 10 => some F.ISNS_STAT_ACCERR
  | 11 => if 0x100 ≤ off ∧ off < 0x2C0 ∧ (rowsAt addr).isEmpty = false then some (F.HLE_ENGSTAT_ACCERR ((off - 0x100) / 0x40)) else some F.HLE_STAT_ACCERR
  | 12 => some (F.MC_STAT_ACCERR 0) | 13 => some (F.MC_STAT_ACCERR 1)
  | 14 => some (F.GD_STAT_ACCERR 0) | 15 => some (F.GD_STAT_ACCERR 1)
  | 16 => some F.VBUS_STAT_ACCERR
  | 17 => some (F.EBP_STAT_ACCERR 0) | 18 => some (F.EBP_STAT_ACCERR 1)
  | 19 => some F.CONT_STAT_ACCERR
  | 20 => some F.SAFE_STAT_ACCERR
  | 21 => some (F.CAN_STAT_ACCERR 0) | 22 => some (F.CAN_STAT_ACCERR 1)
  | 23 => some (F.CAN_STAT_ACCERR 2) | 24 => some (F.CAN_STAT_ACCERR 3)
  | 25 => some F.TWIN_STAT_ACCERR
  | 26 => some F.USL_STAT_ACCERR
  | 27 => some F.TIME_STAT_ACCERR
  | 28 => some F.HOST_STAT_ACCERR
  | 29 => some F.MPORT_STAT_ACCERR
  | 30 => some F.BKG_STAT_ACCERR
  | _ => none

/-- The access-error flag set. -/
def accErr (addr : Nat) (s : State) : State :=
  match accErrFld addr with
  | some f => s.put f 1
  | none => s

/-- Whether the loop that owns an RWO field is open (R230; R228 for HLE_ENGn; chapter 06 for ISNS). -/
def ownerOpen (s : State) (addr lo : Nat) : Bool :=
  let off := addr % 0x1000
  let bridge (b : Bool) : Bool := if b then bridgeLoopOpen s 1 else bridgeLoopOpen s 0
  match blockOf addr with
  | 4 => bridge false | 5 => bridge true
  | 12 => bridge false | 13 => bridge true
  | 14 => bridge false | 15 => bridge true
  | 10 =>
    if off = 0 then
      (if lo = 2 then bridge false else if lo = 3 then bridge true else bridge false && bridge true)
    else if off < 0x40 then bridge (off % 0x10 / 8 == 1)
    else bridge (decide (0x50 ≤ off))
  | 11 => if 0x100 ≤ off ∧ off < 0x2C0 then s.on (F.HLE_ENGSTAT_OPENACT ((off - 0x100) / 0x40)) else true
  | _ => true

/-- What happens to the field of a row when its register is written. -/
inductive FieldFate where
  | keep (flag : Bool)
  | store
  | clearOnes
  | setOnes
  | act
  deriving DecidableEq, Repr

/-- A row's bits of a word. -/
def Row.of (r : Row) (w : Word) : Nat := (w.extractLsb' r.lo r.w).toNat

/-- The fate of a field (R22, R23). -/
def fieldFate (s : State) (addr : Nat) (old new : Word) (r : Row) : FieldFate :=
  match r.acc with
  | .rw => .store
  | .ro => .keep false
  | .rc => .keep false
  | .wo => .act
  | .w1c => .clearOnes
  | .w1s => .setOnes
  | .rwo => if ownerOpen s addr r.lo then .store else .keep (r.of old != r.of new)
  | .rws => if s.sealApplied then .keep (r.of old != r.of new) else .store

/-- The word with a row's bits replaced. -/
def Row.into (r : Row) (w : Word) (v : Nat) : Word := Fld.write ⟨0, r.lo, r.w⟩ w v

/-- One field of a write. -/
def writeField (s : State) (addr : Nat) (old new : Word) (acc : Word) (r : Row) : Word :=
  match fieldFate s addr old new r with
  | .store => r.into acc (r.of new)
  | .clearOnes => r.into acc (r.of old - (r.of old &&& r.of new))
  | .setOnes => r.into acc (r.of old ||| r.of new)
  | _ => acc

/-- The word a register holds after a write of `v`. -/
def merged (s : State) (addr : Nat) (v : Word) : Word :=
  (rowsAt addr).foldl (writeField s addr (s.rd addr) v) (s.rd addr)

/-- Whether R23 discards some field of the write. -/
def fieldDiscarded (s : State) (addr : Nat) (v : Word) : Bool :=
  (rowsAt addr).any (fun r => fieldFate s addr (s.rd addr) v r == .keep true)

/-- Whether a field that the write would store or act on is out of its range. A cause code of SAFE_CUT counts only with
SET = 1, whose action it belongs to. -/
def outOfRange (s : State) (addr : Nat) (v : Word) : Bool :=
  (rowsAt addr).any (fun r =>
    match fieldFate s addr (s.rd addr) v r with
    | .store => decide (r.of v < r.vmin ∨ r.vmax < r.of v)
    | .act => decide (r.of v < r.vmin ∨ r.vmax < r.of v)
    | _ => false)

/-- The quanta of a bit times its prescaler (R457). -/
def canBitTicks (brp t1 t2 : Nat) : Nat := (brp + 1) * (1 + (t1 + 1) + (t2 + 1))

/-- The combinations of values that rules of the owning chapters forbid (R659): `m` is the word the write would leave. -/
def forbidden (s : State) (addr : Nat) (v m : Word) : Bool :=
  let off := addr % 0x1000
  let fld (lo w : Nat) : Nat := (m.extractLsb' lo w).toNat
  match blockOf addr with
  | 6 => off == 0x38 && decide (4 * (s.get (F.POS_ABZCFG_LINES 0) + 1) ≤ fld 0 18)
  | 7 => off == 0x38 && decide (4 * (s.get (F.POS_ABZCFG_LINES 1) + 1) ≤ fld 0 18)
  | 11 =>
    if 0x100 ≤ off ∧ off < 0x2C0 then
      let e := (off - 0x100) / 0x40
      let reg := (off - 0x100) % 0x40
      let other (p : Nat → Bool) : Bool := (List.range 7).any (fun k => k != e && p k)
      if reg = 0 then (fld 3 2 != 0 && other (fun k => s.get (F.HLE_ENGCTRL_BIND k) == fld 3 2))
        || (bitAt v.toNat 5 && (s.on (F.HLE_ENGSTAT_FAULT e) || s.on (F.HLE_ENGSTAT_HWFAIL e)))
      else if reg = 0x10 then
        (fld 0 1 == 1 && other (fun k => s.on (F.HLE_ENGTRG2_E0_EN k)))
          || (fld 16 1 == 1 && other (fun k => s.on (F.HLE_ENGTRG2_E1_EN k)))
      else false
    else false
  | 12 => mcForbidden 0 off fld | 13 => mcForbidden 1 off fld
  | 14 => gateForbidden 0 off fld | 15 => gateForbidden 1 off fld
  | 16 => off == 8 && decide (fld 8 8 ≤ fld 0 8)
  | 20 => off == 8 && bitAt v.toNat 0 && decide ((v.extractLsb' 1 4).toNat < 4 ∨ 9 < (v.extractLsb' 1 4).toNat)
  | 21 => canForbidden 0 off fld | 22 => canForbidden 1 off fld | 23 => canForbidden 2 off fld | 24 => canForbidden 3 off fld
  | 26 => uslForbidden off v
  | 27 => (off == 0x18 && !rateLegal v) ||
      (off == 0x14 && (decide (999999999 < v.toNat % 2 ^ 30) || (bitAt v.toNat 31 && s.on F.TIME_STAT_STEPPED)))
  | _ => false
where
  mcForbidden (b : Bridge) (off : Nat) (fld : Nat → Nat → Nat) : Bool :=
    if off = 0x44 then decide (fld 16 16 ≤ fld 0 16)
    else if off = 0x48 then decide (fld 0 16 ≤ s.get (F.MC_DEC0_VBURN b))
    else if off = 0x2C then decide (2 * fld 8 8 ≤ fld 0 8)
    else false
  gateForbidden (b : Bridge) (off : Nat) (fld : Nat → Nat → Nat) : Bool :=
    let caused (k : Nat) : Bool := bitAt (fld 4 3) k && s.rd (F.GD_LEGFLT_HSCH b k).addr != 0
    if off = 0 then caused 0 || caused 1 || caused 2
    else if off = 0x20 then decide (fld 10 6 ≤ fld 4 6)
    else if off = 0x24 then decide (fld 4 6 ≤ fld 10 6)
    else false
  canForbidden (n : CanCtl) (off : Nat) (fld : Nat → Nat → Nat) : Bool :=
    let busy := s.on (F.CAN_CTRL_EN n) || s.can[n.val].abdCand.isSome
    if off = 0 then (bitAt v.toNat 3 && !(bitAt v.toNat 0 && fld 1 2 == 2)) || (bitAt v.toNat 4 && s.get (F.CAN_STAT_EST n) != 2)
    else if off = 4 then busy || decide (canBitTicks (fld 0 5) (fld 5 8) (fld 13 7) < 200) || decide (fld 13 7 < fld 20 7)
    else if off = 8 then busy || decide (canBitTicks (fld 0 5) (fld 5 5) (fld 10 4) < 25) || decide (fld 10 4 < fld 14 4)
    else false
  uslForbidden (off : Nat) (v : Word) : Bool :=
    (off == 0 && bitAt v.toNat 0 && !bitAt v.toNat 1 && !bitAt (s.get F.SEAL_STRAP_WORD) 6)
    || (decide (0x800 ≤ off) && off % 16 == 4 && decide (s.get F.USL_CYC_CYCT ≤ v.toNat % 2 ^ 17))
    || (decide (0x800 ≤ off) && off % 16 == 8 && decide (v.toNat / 256 % 256 ≤ v.toNat % 256))
    || s.on F.USL_CTRL_EN &&
      ((off == 0 && decide (v.toNat / 4 % 65536 ≠ (s.rd 0x4001A000).toNat / 4 % 65536))
        || (off == 4 && decide (v.toNat % 2 ^ 17 ≠ s.get F.USL_CYC_CYCT))
        || (decide (0x800 ≤ off) && decide (off % 16 ≠ 12)))

/-- A write to a register: its fields stored, or none where the whole write is discarded (R654, R659). -/
def regStore (addr : Nat) (v : Word) (s : State) : Option State :=
  if (rowsAt addr).isEmpty then none
  else
    let m := merged s addr v
    if outOfRange s addr v || forbidden s addr v m then none
    else
      let s' := s.wr addr m
      some (if fieldDiscarded s addr v then accErr addr s' else s')

/-- A write with the action that it starts; a discarded write only sets the access-error flag. -/
def regWriteWith (addr : Nat) (v : Word) (act : State → State) (s : State) : State :=
  match regStore addr v s with
  | some s' => act s'
  | none => accErr addr s

end Sys2Proof.Machine
end

