-- ==== Sys2Proof/Machine/Angle.lean ====
section
/-!
DEFINITION. The commands of the angle timeline (chapter 04) and of the MC blocks (chapter 09).
-/
namespace Sys2Proof.Machine

/-! ## Registers of ANG -/

def angCtrlAddr (b : Bridge) : Nat := 0x40004000 + 0x1000 * b.val

/-- A write of ANGx_CTRL: EN going to 1 starts the block (R128), a new SRC selects a source (R115), FOLLOW cleared puts ANGB's own
SRC in force (R114, R116). Whether the position is borrowed tells in the set's state (R53). -/
def angCtrlWrite (b : Bridge) (v : Word) (s : State) : State :=
  let en := s.on (F.ANG_CTRL_EN b)
  let src := s.get (F.ANG_CTRL_SRC b)
  regWriteWith (angCtrlAddr b) v (fun t =>
    let t := if t.get (F.ANG_CTRL_SRC b) = src then t else setSource b (t.get (F.ANG_CTRL_SRC b)) t
    let t := if follows s b && !follows t b && t.get (F.ANG_CTRL_SRC b) == 0 then setStill b t else t
    let t := if t.get (F.ANG_CTRL_SRC b) = src then t else judgeSet t
    if !en && t.on (F.ANG_CTRL_EN b) then angEnable b t else followGates b t) s

/-- A write of CUEnPOS is held (R127). -/
def cuePosWrite (b : Bridge) (n : Cue) (v : Word) (s : State) : State := regWriteWith (cuePosAddr b n) v id s

/-- A write of CUEnCFG puts both words in force from the next tick and re-arms the cue (R123, R127). -/
def cueCfgWrite (b : Bridge) (n : Cue) (v : Word) (s : State) : State :=
  let old : CuePrior := { at_ := s.tick, pos := cuePosWord s b n, cfg := cueCfgWord s b n, armed := cueArmed s b n }
  regWriteWith (cueCfgAddr b n) v (fun t =>
    armCue b n (t.modAng b (fun a => { a with
      pos := Tab.put (fun _ => 0) a.pos n.val (t.rd (cuePosAddr b n)), prior := Tab.put (fun _ => none) a.prior n.val (some old) }))) s

/-- A sample delivered is taken by the angle clock (R112), but for ANGB under FOLLOW (R116). -/
def takeSample (b : Bridge) (s : State) : State :=
  match s.ang[b.val].deliv with
  | none => s
  | some smp =>
    let s := s.modAng b (fun a => { a with deliv := none })
    if s.on (F.ANG_CTRL_EN b) && !follows s b then reload b smp s else s

/-- STILL set by its time, or by a source that reports zero (R117); ANGB under FOLLOW takes ANGA's (R116). -/
def stillTimeout (b : Bridge) (s : State) : State :=
  if follows s b then s else setStill b s

/-- Whether the fall-back setting of a cue fires it in this tick (R124): FB_OFS ticks after an inner or an outer tick. -/
def fallbackDue (s : State) (b : Bridge) (n : Cue) : Bool :=
  let ofs := (cuePosWord s b n).toNat / 2 ^ 20
  let after (l : List Nat) : Bool := l.any (fun t => t + ofs == s.tick)
  match (cueCfgWord s b n).toNat / 16 % 4 with
  | 1 => after s.ang[b.val].inners
  | 2 => after s.ang[b.val].outers
  | _ => false

/-- A cue fires by its fall-back setting (R124). -/
def cueFallback (b : Bridge) (n : Cue) (s : State) : State :=
  if s.on (F.ANG_CTRL_EN b) && s.on (F.ANG_STAT_STILL b) && isAngleCue s b n && fallbackDue s b n then fireCue b n 0 s else s

/-- The sector action of a cue (R126, R299, R304, R305): FOC where the return waits; else the sector moves, or synchronism is lost after a
whole sector below SSMIN. While RATE is 0 a fall-back cue moves no sector; a carrier cue, which crosses no angle, is taken the same way
(DESIGN CHOICE, log entry 91). -/
def sectorCue (b : Bridge) (dir : Int) (s : State) : State :=
  if mcMode s b ≠ modeSixstep then s
  else if s.mc[b.val].returnReq then enterMode b modeFoc s
  else
    if dir = 0 then s
    else if s.mc[b.val].slowSector then lossOfSync b s
    else
      let slow := decide (speedOf s b < s.get (F.MC_SSMIN_SSMIN b))
      (advanceSector b dir s).modMc b (fun m => { m with slowSector := slow })

/-- A trigger of a cue; a drop is also counted by ANG (R126). -/
def cueTrigger (b : Bridge) (h : CueHit) (s : State) : State :=
  let e := (F.ANG_CUECFG_ENG 0 0).read h.cfg
  let s := s.when (triggerToDrops s e (.cue b h.cue)) (fun s =>
    (s.put (F.ANG_STAT_DROP b) 1).count (F.ANG_COUNT_DROPCNT b) (F.ANG_COUNT_DROPOVF b))
  triggerTo e (.cue b h.cue) ((F.ANG_CUECFG_ARG 0 0).read h.cfg) s

/-- The action of a fired cue issued (R126). -/
def cueAction (b : Bridge) (h : CueHit) (s : State) : State :=
  let arg := (F.ANG_CUECFG_ARG 0 0).read h.cfg
  match (F.ANG_CUECFG_ACT 0 0).read h.cfg with
  | 0 => windowAction b ⟨arg % 4, Nat.mod_lt _ (by decide)⟩ s
  | 1 => sectorCue b h.dir s
  | 2 => lineAct b ((F.ANG_CUECFG_LINE 0 0).read h.cfg) ((F.ANG_CUECFG_CMPOP 0 0).read h.cfg) s
  | 3 => cueTrigger b h s
  | 4 => cueTrigger b h (s.put (F.ANG_TABOUT_TABOUT b) (s.get (F.ANG_TABLE_ENTRY b (h.angle / 4096))))
  | _ => s

/-- One queued cue dispatched (R136). A write of EN leaves the queue and the count towards STILL as they stand, which the spec leaves open (DESIGN CHOICE,
log entry 106). -/
def cueDispatch (b : Bridge) (s : State) : State :=
  match s.ang[b.val].queue with
  | [] => s
  | h :: t => cueAction b h (s.modAng b (fun a => { a with queue := t }))

/-! ## Registers of MC -/

def mcCtrlAddr (b : Bridge) : Nat := 0x4000C000 + 0x1000 * b.val

/-- A write of MCx_CTRL (R313, R666, R667): MODE_REQ acts with the value the write carries, EN = 0 forces OFF, START begins
the decision judged by the mode before the write. -/
def mcCtrlWrite (b : Bridge) (v : Word) (s : State) : State :=
  let mode := mcMode s b
  regWriteWith (mcCtrlAddr b) v (fun t =>
    let t := if (F.MC_CTRL_MODE_REQ b).read v = 0 then modeReqOff b t
      else if (F.MC_CTRL_MODE_REQ b).read v = 1 then modeReqReturn b t else t
    let t := if t.on (F.MC_CTRL_EN b) then t else mcDisable b t
    if t.on (F.MC_CTRL_START b) then startRequest b mode t else t) s

/-- A write of MCx_DUTY3 commits the three words as one set (R282), but while the clamp is applied (R285). The set before the
cycle's first commit stays for an inner tick of the same cycle. -/
def dutyWrite (b : Bridge) (v : Word) (s : State) : State :=
  regWriteWith (0x4000C010 + 0x1000 * b.val) v (fun t =>
    if t.mc[b.val].clamping then t
    else t.modMc b (fun m => { m with
      prior := if m.commitTick = some t.tick then m.prior else m.committed, commitTick := some t.tick,
      committed := dutyRegs t b })) s

/-- A write of MCx_SSDUTY (R298), ignored while the clamp is applied in SIXSTEP (R285). -/
def ssdutyWrite (b : Bridge) (v : Word) (s : State) : State :=
  if mcMode s b = modeSixstep ∧ s.mc[b.val].clamping = true then s
  else
    let old := BitVec.ofNat 20 (s.get (F.MC_SSDUTY_SSDUTY b))
    regWriteWith (0x4000C014 + 0x1000 * b.val) v (fun t =>
      t.modMc b (fun m => { m with
        ssPrior := if m.ssTick = some t.tick then m.ssPrior else old, ssTick := some t.tick })) s

/-- The comparators' report (R300, R308): shown, and used by the detector or the line estimator in force. -/
def comparatorReport (b : Bridge) (pcomp lcode : Nat) (s : State) : State :=
  let s := (s.put (F.MC_COMP_PCOMP b) pcomp).put (F.MC_COMP_LCODE b) lcode
  let mode := mcMode s b
  if mode = modeSixstep then
    let float := (sectorPattern (s.get (F.MC_STAT_SECTOR b))).2.2.1
    zcReport b (bitAt pcomp (float - 1)) s
  else if mode = modeListen ∨ (mode = modeCoast ∧ s.mc[b.val].asReq = false) then lineEstimate b lcode s
  else s

/-- A sector in which no crossing was accepted by the end of its window (R303, R305). -/
def sectorMiss (b : Bridge) (s : State) : State :=
  if mcMode s b = modeSixstep then
    let s := (s.countBit (F.MC_CNT_ZCMCNT b) (F.MC_CNT_OVF b) 2).modMc b (fun m => { m with zcMisses := m.zcMisses + 1 })
    if s.get (F.MC_ZC_ZCMISS b) ≤ s.mc[b.val].zcMisses then lossOfSync b s else s
  else s

/-- D lands at the word CONT_DADDR names (R246, R372): the value before the cycle's first landing stays for an inner tick of
the same cycle. -/
def dLanded (v : Q20) (s : State) : State :=
  let old := BitVec.ofNat 20 (s.get F.CONT_D_D)
  (s.put F.CONT_D_D v.toNat).modCont (fun c => { c with
    landed := true, dPrior := if c.dTick = some s.tick then c.dPrior else old, dTick := some s.tick })

/-- The address of that word. -/
def dAddr (s : State) : Nat := 0x20000000 + s.get F.CONT_DADDR_ADDR

/-! ## The commands -/

/-- ANGLE_RELOAD (R112). -/
def execAngleReload (b : Bridge) (s : State) : Out := clockedOut s <| .next (takeSample b s)
/-- STILL_TIMEOUT (R117). -/
def execStillTimeout (b : Bridge) (s : State) : Out := clockedOut s <| .next (stillTimeout b s)
/-- ANG_SRC_WRITE (R115): a write of ANGx_CTRL that changes SRC alone. -/
def execAngSrcWrite (b : Bridge) (src : BitVec 4) (s : State) : Out :=
  clockedOut s <| .next (angCtrlWrite b ((F.ANG_CTRL_SRC b).write (s.rd (angCtrlAddr b)) src.toNat) s)
/-- ANG_ENABLE (R128): a write of ANGx_CTRL that sets EN alone. -/
def execAngEnable (b : Bridge) (s : State) : Out :=
  clockedOut s <| .next (angCtrlWrite b ((F.ANG_CTRL_EN b).write (s.rd (angCtrlAddr b)) 1) s)
/-- CUE_FALLBACK_FIRE (R124). -/
def execCueFallbackFire (b : Bridge) (n : Cue) (s : State) : Out := clockedOut s <| .next (cueFallback b n s)
/-- CUE_DISPATCH (R126, R136). -/
def execCueDispatch (b : Bridge) (s : State) : Out := clockedOut s <| .next (cueDispatch b s)
/-- CUE_LINE_PULSE_END (R126). -/
def execCueLinePulseEnd (b : Bridge) (line : Fin 4) (s : State) : Out := clockedOut s <| .next (linePulseEnd b line s)
/-- CUE_POS_WRITE (R127). -/
def execCuePosWrite (b : Bridge) (n : Cue) (v : Word) (s : State) : Out := clockedOut s <| .next (cuePosWrite b n v s)
/-- CUE_CFG_WRITE (R127). -/
def execCueCfgWrite (b : Bridge) (n : Cue) (v : Word) (s : State) : Out := clockedOut s <| .next (cueCfgWrite b n v s)
/-- CARRIER_VALLEY (R130, R134): a valley of the reference carrier, or of the PWM carrier where that is another. -/
def execCarrierValley (b : Bridge) (ref : Bool) (s : State) : Out :=
  clockedOut s <| .next (if s.on (F.ANG_CTRL_EN b) then (if ref then refValley b s else ownValley b s) else s)
/-- CARRIER_PEAK (R134). -/
def execCarrierPeak (b : Bridge) (ref : Bool) (s : State) : Out :=
  clockedOut s <| .next (if s.on (F.ANG_CTRL_EN b) then carrierPeak b ref s else s)
/-- D_CAPTURE (R372): the outer engine's write of D reaches its word. -/
def execDCapture (v : Q20) (s : State) : Out := clockedOut s <| .next (dLanded v (s.setMem20 (dAddr s) v))
/-- DUTY_COMMIT (R282). -/
def execDutyCommit (b : Bridge) (v : Word) (s : State) : Out := clockedOut s <| .next (dutyWrite b v s)
/-- CLAMP_END (R285). -/
def execClampEnd (b : Bridge) (s : State) : Out :=
  clockedOut s <| .next (followGates b (s.modMc b (fun m => { m with clampLeft := 0, clamping := false })))
/-- COMPARATOR_REPORT (R300). -/
def execComparatorReport (b : Bridge) (pcomp lcode : BitVec 3) (s : State) : Out :=
  clockedOut s <| .next (comparatorReport b pcomp.toNat lcode.toNat s)
/-- ZC_WINDOW_MISS (R303). -/
def execZcWindowMiss (b : Bridge) (s : State) : Out := clockedOut s <| .next (sectorMiss b s)
/-- START_DECISION (R313): a write of MCx_CTRL with START = 1. -/
def execStartDecision (b : Bridge) (v : Word) (s : State) : Out := clockedOut s <| .next (mcCtrlWrite b ((F.MC_CTRL_START b).write v 1) s)
/-- LISTEN_TIMEOUT (R313). -/
def execListenTimeout (b : Bridge) (s : State) : Out :=
  clockedOut s <| .next (if mcMode s b = modeListen then startRefuse b 0 s else s)
/-- MODE_REQ_OFF (R667): a write of MCx_CTRL with MODE_REQ 0b00. -/
def execModeReqOff (b : Bridge) (v : Word) (s : State) : Out := clockedOut s <| .next (mcCtrlWrite b ((F.MC_CTRL_MODE_REQ b).write v 0) s)
/-- MODE_REQ_RETURN (R304, R667): a write of MCx_CTRL with MODE_REQ 0b01. -/
def execModeReqReturn (b : Bridge) (v : Word) (s : State) : Out :=
  clockedOut s <| .next (mcCtrlWrite b ((F.MC_CTRL_MODE_REQ b).write v 1) s)
/-- MC_ENABLE_WRITE (R667): a write of MCx_CTRL with EN = 0. -/
def execMcEnableWrite (b : Bridge) (v : Word) (s : State) : Out := clockedOut s <| .next (mcCtrlWrite b ((F.MC_CTRL_EN b).write v 0) s)

end Sys2Proof.Machine
end

