-- ==== Sys2Proof/Machine/Gate.lean ====
section
/-!
DEFINITION. The commands of the gate drive and the motor supply (chapter 10), and those of the configuration link (R61, R63, R351,
R661).
-/
namespace Sys2Proof.Machine

/-! ## Phases of a gate transition -/

/-- VGS crosses the end level of the running phase, and the next phase begins (R328 to R330). A turn-off at the sink current of a short
ends at VGS_OFF, and the hold phase follows (R346). -/
def phaseEnd (b : Bridge) (j : Switch) (s : State) : State :=
  let enter (p : GatePhase) (s : State) : State := modGateSw b j (fun g => { g with phase := p, shortOff := g.shortOff && p != .offHold }) s
  match s.gate[b.val].sw[j.val].phase with
  | .preCharge => enter .slopeOn (if aboveOff s b (s.get (F.GD_PROFON_PREON b)) then showOn b j true s else s)
  | .slopeOn => enter .onHold (if aboveOff s b (s.get (F.GD_PROFON_PLXON b)) then showOn b j true s else s)
  | .preDischarge =>
    if s.gate[b.val].sw[j.val].shortOff then enter .offHold (showOn b j false s)
    else enter .slopeOff (if aboveOff s b (s.get (F.GD_PROFOFF_PREOFF b)) then s else showOn b j false s)
  | .slopeOff => enter .offHold (if aboveOff s b (s.get (F.GD_PROFOFF_PLXOFF b)) then s else showOn b j false s)
  | _ => s

/-- A slope phase times out (R331): the hold phase begins; no leg fault. At the end of a turn-on VGS is held above VGS_OFF; at the end of a
turn-off it stays above until GATE_WATCH_ADMIT tells that it has fallen (R334). -/
def slopeOver (b : Bridge) (j : Switch) (s : State) : State :=
  let noted (p : GatePhase) (s : State) : State :=
    ((modGateSw b j (fun g => { g with phase := p }) s).put (F.GD_STAT_SLOPETO b) 1).countBit
      (F.GD_CNT1_SLTOCNT b) (F.GD_CNT1_OVF b) 0
  match s.gate[b.val].sw[j.val].phase with
  | .slopeOn => noted .onHold (showOn b j true s)
  | .slopeOff => noted .offHold s
  | _ => s

/-- A turn-on held back begins: the opposite VGS has stayed below VGS_OFF for 40 ns (R334), or the interlock time is over (R337). -/
def watchAdmit (b : Bridge) (j : Switch) (s : State) : State :=
  let native := !s.on (F.GD_CTRL_ILMODE b)
  let s := if native then showOn b (oppositeSw j) false s else s
  if s.gate[b.val].sw[j.val].held && wanted s b j && (native || admits s b j) then modGateSw b j Gate.turnOn s else s

/-! ## Leg faults -/

/-- The gate-fault cause of a switch. -/
def gateCause (b : Bridge) (j : Switch) : Fld :=
  if j.val < 3 then F.GD_LEGFLT_GATEH b (legOf j) else F.GD_LEGFLT_GATEL b (legOf j)

/-- GWTMO runs out while a turn-on waits in native mode (R335): a gate fault of the opposite switch. -/
def watchTimeout (b : Bridge) (j : Switch) (s : State) : State :=
  if s.gate[b.val].sw[j.val].held && !s.on (F.GD_CTRL_ILMODE b) then
    driveBridge b (legFault b (legFin j) (gateCause b (oppositeSw j)) false s)
  else s

/-- VGS below VSAG for 200 ns in the hold phase (R341); a VDRV undervoltage in force latches no leg fault. -/
def sagFault (b : Bridge) (j : Switch) (s : State) : State :=
  if s.gate[b.val].sw[j.val].phase = .onHold ∧ s.driver.underVolt = false then
    let s := s.countBit (F.GD_CNT1_SAGCNT b) (F.GD_CNT1_OVF b) 1
    driveBridge b (legFault b (legFin j) (if j.val < 3 then F.GD_LEGFLT_BST b (legOf j) else gateCause b j) false s)
  else s

/-- The hard threshold fires for a switch commanded on, from its pre-charge on (R344, R346). -/
def hardTrip (b : Bridge) (j : Switch) (s : State) : State :=
  if s.gate[b.val].sw[j.val].phase.isOn then
    let s := wearOne (wearHard b j) (s.countBit (F.GD_CNT0_HSCCNT b) (F.GD_CNT0_OVF b) 0)
    driveBridge b (legFault b (legFin j)
      (if j.val < 3 then F.GD_LEGFLT_HSCH b (legOf j) else F.GD_LEGFLT_HSCL b (legOf j)) true s)
  else s

/-- Whether active short suspends the normal threshold of a switch (R352). -/
def shortHolds (s : State) (b : Bridge) (j : Switch) : Bool :=
  (s.gate[b.val].asFlag || shortInForce s b) && bitAt (shortBits s b) j

/-- The normal threshold fires after blanking (R345, R346). -/
def normalTrip (b : Bridge) (j : Switch) (s : State) : State :=
  let g := s.gate[b.val].sw[j.val]
  if g.phase.isOn && !g.blanking && !shortHolds s b j then
    let s := wearOne (wearNormal b j) (s.countBit (F.GD_CNT0_NSCCNT b) (F.GD_CNT0_OVF b) 1)
    driveBridge b (legFault b (legFin j)
      (if j.val < 3 then F.GD_LEGFLT_NSCH b (legOf j) else F.GD_LEGFLT_NSCL b (legOf j)) true s)
  else s

/-- The latch of a leg cleared (R349): the leg no longer faulted, BOUT clear once no leg is latched, and two-leg operation of that
leg over. -/
def releaseLeg (b : Bridge) (s : State) (k : Fin 3) : State :=
  if s.bit (F.GD_STAT_LEGOUT b) k then
    let s := s.putBit (F.GD_STAT_LEGOUT b) k false
    let s := if s.get (F.GD_STAT_LEGOUT b) = 0 then s.put (F.GD_STAT_BOUT b) 0 else s
    if s.bit (F.MC_STAT_LEGOUT b) k then
      let s := s.putBit (F.MC_STAT_LEGOUT b) k false
      if s.get (F.MC_STAT_LEGOUT b) = 0 then s.put (F.MC_STAT_DEGR b) 0 else s
    else s
  else s

def gdCtrlAddr (b : Bridge) : Nat := 0x4000E000 + 0x1000 * b.val

/-- A write of GDx_CTRL (R63, R349, R353): the legs enabled are released, and row 4 ends once the link has resumed. -/
def gdCtrlWrite (b : Bridge) (v : Word) (s : State) : State :=
  regWriteWith (gdCtrlAddr b) v (fun s =>
    let s := (List.finRange 3).foldl (fun s k => if bitAt v.toNat (4 + k.val) then releaseLeg b s k else s) s
    soloLead (driveBridge b (s.modGate b (fun g => { g with linkHold := s.driver.linkLost })))) s

/-- A trim set, and held in the retained block from then on (R366, R554). -/
def setTrim (b : Bridge) (j : Switch) (t : Int) (s : State) : State :=
  let s := s.putS (F.GD_SNSTRIM_TRIM b j) (max (-32) (min 32 t))
  s.modKeep (fun k => { k with
    retained := k.retained.map (fun r => { r with trims := r.trims.set (6 * b.val + j.val) (s.rd (F.GD_SNSTRIM_TRIM b j).addr) }) })

/-- A write of GDx_SNSTRIMj: the trim is clamped to ±32 (R367). -/
def snsTrimWrite (b : Bridge) (j : Switch) (v : Word) (s : State) : State :=
  let t := toSigned 8 v.toNat
  regWriteWith (F.GD_SNSTRIM_TRIM b j).addr v (setTrim b j t) s

/-! ## Motor supply -/

/-- CHOP is on while OV1 is in force or either MC block requests it (R356, R358). -/
def showChop (s : State) : State :=
  let req := s.on (F.MC_STAT_CHREQ 0) || s.on (F.MC_STAT_CHREQ 1)
  (s.modDriver (fun d => { d with chop := req })).putB F.VBUS_STAT_CHOP (s.on F.VBUS_STAT_OV1 || req)

/-- A VMOT value of VBUS, presented to both MC blocks and added to the mean window (R318, R355, R361). -/
def vmotTaken (v : Nat) (s : State) : State :=
  if s.sys.linkLost || s.driver.linkLost then s
  else
    let s := (s.put F.VBUS_VMOT_VMOT v).modDriver (fun d => { d with vmotSum := d.vmotSum + v, vmotNum := d.vmotNum + 1 })
    showChop (vmotUpdate 1 v (vmotUpdate 0 v s))

/-- OV1 comes into force (R355, R356). -/
def ov1Begin (s : State) : State :=
  if s.on F.VBUS_STAT_OV1 then s
  else showChop (wearOne wearOv1 (((s.put F.VBUS_STAT_OV1 1).put F.VBUS_STAT_OV1EV 1).countBit F.VBUS_CNT_OV1CNT F.VBUS_CNT_OVF 0))

/-- OV2 comes into force: the legs take row 6, and both MC blocks enter OUT and report bridge out (R356). -/
def ov2Begin (s : State) : State :=
  if s.on F.VBUS_STAT_OV2 then s
  else
    let s := wearOne wearOv2 (((s.put F.VBUS_STAT_OV2 1).put F.VBUS_STAT_OV2EV 1).countBit F.VBUS_CNT_OV2CNT F.VBUS_CNT_OVF 1)
    driveAll (mcOverVoltage 1 (mcOverVoltage 0 s))

/-- An undervoltage of VMOT or VDRV begins (R357): row 1 of R353, both MC blocks in OUT; the loss is lane-level (R53). -/
def underBegin (vmot vdrv : Bool) (s : State) : State :=
  if vmot || vdrv then
    let s := (s.when vmot (·.put F.VBUS_STAT_VMUV 1)).when vdrv (·.put F.VBUS_STAT_DRVUV 1)
    if s.driver.underVolt then s
    else
      let s := wearOne wearUv ((s.modDriver (fun d => { d with underVolt := true })).countBit F.VBUS_CNT_UVCNT F.VBUS_CNT_OVF 2)
      withdraw 1 (driveAll (mcOut 1 (mcOut 0 s)))
  else s

/-- The undervoltage ends; a solo lane that is drive-ready leads again (R44). -/
def underEnd (s : State) : State := soloLead (driveAll (s.modDriver (fun d => { d with underVolt := false })))

/-! ## The configuration link and the driver die's power-up -/

/-- The AS flag and ASEL of a bridge as a configuration-link frame carries them (R351, R352). -/
def sendFlags (b : Bridge) (s : State) : State :=
  let short := s.mc[b.val].asReq
  let sel := decide (s.get (F.GD_ASTHR_ASTHR b) ≤ speedOf s b)
  (s.modGate b (fun g => { g with asFlag := short })).putB (F.GD_STAT_ASEL b) sel

/-- A configuration-link frame reaches the driver die (R63, R351). -/
def linkFrame (s : State) : State :=
  driveAll (sendFlags 1 (sendFlags 0 (s.modDriver (fun d => { d with linkLost := false }))))

/-- One bridge at a loss of the configuration link (R354). -/
def linkLostBridge (b : Bridge) (s : State) : State :=
  ((s.put (F.GD_CTRL_LEGEN b) 0).put (F.GD_STAT_LLOSS b) 1).modGate b (fun g => { g with linkHold := true })

/-- The driver die has received no valid frame for 2 µs (R63, R353, R354). -/
def linkLoss (s : State) : State :=
  driveAll (linkLostBridge 1 (linkLostBridge 0 (s.modDriver (fun d => { d with linkLost := true }))))

/-- One MC block at the driver die's power-up: no leg reported, and VMOT read as 0 (R668). -/
def mcDriverUp (b : Bridge) (s : State) : State :=
  (vmotUpdate b 0 ((s.put (F.MC_STAT_LEGOUT b) 0).put (F.MC_STAT_DEGR b) 0)).put (F.MC_STAT_CHREQ b) 0

/-- The driver die's power-up (R630, R660, R668): every register of GDA, GDB and VBUS at its reset value, every switch off, the
undervoltage of R668 in force, and no frame received yet. -/
def driverUp (s : State) : State :=
  let s := { s with
    regs := s.regs.filter (fun e => !onDriverDie e.1)
    gate := Vector.replicate 2 { GateBridge.reset with linkHold := true }
    driver := { Driver.reset with linkLost := true } }
  mcDriverUp 1 (mcDriverUp 0 s)

/-! ## Commands -/

/-- CONFIG_LINK_FRAME (R351). -/
def execConfigLinkFrame (s : State) : Out := .next (linkFrame s)
/-- CONFIG_LINK_LOSS (R63). -/
def execConfigLinkLoss (s : State) : Out := .next (linkLoss s)
/-- LOGIC_LINK_LOSS (R661). -/
def execLogicLinkLoss (s : State) : Out := .next (s.modSys (fun y => { y with linkLost := true }))
/-- CONFIG_LINK_RESUME (R661). -/
def execConfigLinkResume (s : State) : Out := .next (s.modSys (fun y => { y with linkLost := false }))
/-- An edge of a gate-command line (R327, R332, R338). The line goes to the level that the MC block commands in its mode (R279, R281); an
edge to the other level is none of the block's. A disturbed line that comes on beside the other of its leg is taken as R338 has it: both
switches off, and counted, until the edge that takes the line off again (log entry 98). -/
def commandEdge (b : Bridge) (j : Switch) (on : Bool) (s : State) : State :=
  let s := s.when (!on) (modGateSw b j (fun g => { g with stray := false }))
  let own := bitAt (lineCommands s b) j == on
  let disturbed := on && !own && s.bit (F.GD_GW_CMD b) (oppositeSw j)
  let s := s.when disturbed (modGateSw b j (fun g => { g with stray := true }))
  if own || disturbed then takeCommands b (withBit (s.get (F.GD_GW_CMD b)) j on) s else s

/-- GATE_COMMAND_EDGE (R327, R332, R338). -/
def execGateCommandEdge (b : Bridge) (j : Switch) (on : Bool) (s : State) : Out := .next (commandEdge b j on s)
/-- GATE_WATCH_ADMIT (R334, R337). -/
def execGateWatchAdmit (b : Bridge) (j : Switch) (s : State) : Out := .next (watchAdmit b j s)
/-- GATE_WATCH_TIMEOUT (R335). -/
def execGateWatchTimeout (b : Bridge) (j : Switch) (s : State) : Out := .next (watchTimeout b j s)
/-- GATE_PHASE_END (R330). -/
def execGatePhaseEnd (b : Bridge) (j : Switch) (s : State) : Out := .next (phaseEnd b j s)
/-- SLOPE_TIMEOUT (R331). -/
def execSlopeTimeout (b : Bridge) (j : Switch) (s : State) : Out := .next (slopeOver b j s)
/-- GATE_SAG_FAULT (R341). -/
def execGateSagFault (b : Bridge) (j : Switch) (s : State) : Out := .next (sagFault b j s)
/-- BLANKING_END (R345). -/
def execBlankingEnd (b : Bridge) (j : Switch) (s : State) : Out :=
  .next (modGateSw b j (fun g => { g with blanking := false }) s)
/-- HARD_SHORT_TRIP (R344). -/
def execHardShortTrip (b : Bridge) (j : Switch) (s : State) : Out := .next (hardTrip b j s)
/-- NORMAL_SHORT_TRIP (R346). -/
def execNormalShortTrip (b : Bridge) (j : Switch) (s : State) : Out := .next (normalTrip b j s)
/-- LEG_ENABLE (R349): a write of GDx_CTRL that sets LEGEN alone. -/
def execLegEnable (b : Bridge) (legs : BitVec 3) (s : State) : Out :=
  clockedOut s <| .next (driverAccess true (gdCtrlWrite b ((F.GD_CTRL_LEGEN b).write (s.rd (gdCtrlAddr b)) legs.toNat)) s)
/-- VMOT_MEASURE (R355). -/
def execVmotMeasure (v : BitVec 16) (s : State) : Out := .next (vmotTaken v.toNat s)
/-- OV1_REACHED (R356). -/
def execOv1Reached (s : State) : Out := .next (ov1Begin s)
/-- OV1_ENDED (R355). -/
def execOv1Ended (s : State) : Out := .next (showChop (s.put F.VBUS_STAT_OV1 0))
/-- OV2_REACHED (R356). -/
def execOv2Reached (s : State) : Out := .next (ov2Begin s)
/-- OV2_ENDED (R355). -/
def execOv2Ended (s : State) : Out := .next (driveAll (s.put F.VBUS_STAT_OV2 0))
/-- UNDERVOLTAGE_BEGIN (R357). -/
def execUndervoltageBegin (vmot vdrv : Bool) (s : State) : Out := .next (underBegin vmot vdrv s)
/-- UNDERVOLTAGE_END (R357). -/
def execUndervoltageEnd (s : State) : Out := .next (underEnd s)
/-- DRIVER_POWER_UP (R630). -/
def execDriverPowerUp (s : State) : Out := .next (driverUp s)

end Sys2Proof.Machine
end

