-- ==== Sys2Proof/Machine/Cores.lean ====
section
/-!
DEFINITION. The principal cores with their doubles (chapter 03): caches, the checkpoint signature, lockstep faults, the agreement
unit, release, the injection test and the debugger. What a core's program does is outside the model; its accesses come as commands.
-/
namespace Sys2Proof.Machine

/-! ## Both copies of a pair -/

/-- An input reaches both copies (R88). -/
def modCopies (p : Pair) (f : Copy → Copy) (s : State) : State :=
  s.modCore p (fun c => { c with main := f c.main, double := f c.double })

/-- The control and status registers that no write changes (R82). -/
def csrFixed (p : Pair) (n : Nat) : Option Word :=
  match n with
  | 0x301 => some 0x40101125
  | 0xF11 => some 0
  | 0xF12 => some 0
  | 0xF13 => some 0x00000C00
  | 0xF14 => some (BitVec.ofNat 32 p.val)
  | 0xF15 => some 0
  | _ => none

/-- The counters of R82: mcycle, minstret, mhpmcounter3 to mhpmcounter10, and their upper halves. -/
def csrCounter (n : Nat) : Bool :=
  let k := n % 0x80
  decide (n / 0x80 = 0x16 ∨ n / 0x80 = 0x17) && decide (k < 11) && k != 1

/-- The control and status registers of a core (R82, and for the machine-level ones the edition of R28; log entry 95): those of the
privileged architecture with user mode, F and 16 PMP regions, the counters with their selectors, the debug registers, and the custom ones of R84. -/
def csrExists (p : Pair) (n : Nat) : Bool :=
  (csrFixed p n).isSome || csrCounter n || [0x001, 0x002, 0x003, 0x300, 0x304, 0x305, 0x306, 0x30A, 0x310, 0x31A, 0x320, 0x340, 0x341, 0x342,
      0x343, 0x344, 0x7A0, 0x7A1, 0x7A2, 0x7A3, 0x7B0, 0x7B1, 0x7B2, 0x7B3, 0x7C2, 0x7C3].contains n
    || decide (0x323 ≤ n ∧ n ≤ 0x32A) || decide (0x3A0 ≤ n ∧ n ≤ 0x3A3) || decide (0x3B0 ≤ n ∧ n ≤ 0x3BF)

/-- What a copy holds of a control and status register. -/
def Copy.csrRaw (c : Copy) (n : Nat) : Word := Tab.get (fun _ => 0) c.csr n

/-- The configuration byte of a PMP region. -/
def Copy.pmpCfg (c : Copy) (i : Nat) : Nat := (c.csrRaw (0x3A0 + i / 4)).toNat / 256 ^ (i % 4) % 256

/-- A PMP address register as it reads with the granularity of 32 bytes (R82, R28's architecture): the bits below it ones in mode NAPOT, zeros in
the other modes. -/
def Copy.pmpRead (c : Copy) (i : Nat) : Word :=
  let v := c.csrRaw (0x3B0 + i)
  if 2 ≤ c.pmpCfg i / 8 % 4 then v ||| 3 else v &&& 0xFFFFFFF8

/-- A control and status register of a copy; one that is absent reads 0. -/
def Copy.csrGet (p : Pair) (c : Copy) (n : Nat) : Word :=
  match n with
  | 0x001 => c.fcsr &&& 0x1F
  | 0x002 => c.fcsr >>> 5 &&& 7
  | 0x003 => c.fcsr
  | n =>
    if 0x3B0 ≤ n ∧ n ≤ 0x3BF then c.pmpRead (n - 0x3B0)
    else (csrFixed p n).getD (if csrExists p n then c.csrRaw n else 0)

/-- Whether a counter counts what the model does not run, so that its value is free: mcycle, and one whose mhpmevent selects an event,
unless mcountinhibit stops it (R82; log entry 95). -/
def Copy.counterFree (c : Copy) (n : Nat) : Bool :=
  let k := n % 0x80
  csrCounter n && !bitAt (c.csrRaw 0x320).toNat k && (k == 0 || (decide (3 ≤ k) && c.csrRaw (0x320 + k) != 0))

/-- An instruction retired: minstret counts it, in 64 bits, unless mcountinhibit stops it (R82). -/
def Copy.retired (c : Copy) : Copy :=
  if bitAt (c.csrRaw 0x320).toNat 2 then c
  else
    let v := (c.csrRaw 0xB82).toNat * 2 ^ 32 + (c.csrRaw 0xB02).toNat + 1
    { c with csr := Tab.put (fun _ => 0) (Tab.put (fun _ => 0) c.csr 0xB02 (BitVec.ofNat 32 v)) 0xB82 (BitVec.ofNat 32 (v / 2 ^ 32)) }

/-! ### Physical memory protection (R82, R83) -/

/-- The address word of a PMP region. -/
def Copy.pmpAddr (p : Pair) (c : Copy) (i : Nat) : Nat := (c.csrGet p (0x3B0 + i)).toNat

/-- The ones at the bottom of a number, at most `n`. -/
def lowOnes : Nat → Nat → Nat
  | 0, _ => 0
  | n + 1, a => if a % 2 = 1 then 1 + lowOnes n (a / 2) else 0

/-- The bytes of a PMP region, from the first to the one after the last: OFF none, TOR from the region below, NAPOT a naturally aligned
power of two; all in steps of 32 bytes. -/
def Copy.pmpRange (p : Pair) (c : Copy) (i : Nat) : Nat × Nat :=
  match c.pmpCfg i / 8 % 4 with
  | 1 => (if i = 0 then 0 else c.pmpAddr p (i - 1) / 8 * 32, c.pmpAddr p i / 8 * 32)
  | 3 =>
    let size := 2 ^ (lowOnes 32 (c.pmpAddr p i ||| 3) + 3)
    (c.pmpAddr p i * 4 / size * size, c.pmpAddr p i * 4 / size * size + size)
  | _ => (0, 0)

/-- Whether a core's data accesses count as made in machine mode: its mode, or MPP of mstatus while MPRV is set. -/
def Copy.dataMode (p : Pair) (c : Copy) : Bool :=
  let mst := (c.csrGet p 0x300).toNat
  if c.machineMode && bitAt mst 17 then mst / 2048 % 4 == 3 else c.machineMode

/-- Whether the PMP permits an access of `w` bytes at `a`: the lowest region that holds a byte of it decides, and one that holds a part of
it refuses; with none, machine mode may and user mode may not. -/
def Copy.pmpAllows (p : Pair) (c : Copy) (u : Use) (a w : Nat) : Bool :=
  let mm := match u with | .fetch => c.machineMode | _ => c.dataMode p
  match (List.range 16).find? (fun i => decide ((c.pmpRange p i).1 < a + w ∧ a < (c.pmpRange p i).2)) with
  | none => mm
  | some i =>
    decide ((c.pmpRange p i).1 ≤ a ∧ a + w ≤ (c.pmpRange p i).2) &&
      (mm && !bitAt (c.pmpCfg i) 7 || bitAt (c.pmpCfg i) (match u with | .read => 0 | .write => 1 | .fetch => 2))

/-- A PMP configuration byte written over another: a locked one stays, and so does one met by NA4 or by writing without reading. -/
def pmpByte (old new : Nat) : Nat :=
  if bitAt old 7 || new / 8 % 4 == 2 || new % 4 == 2 then old else new % 32 + 128 * (new / 128 % 2)

/-- What a control and status register takes of a write (R82; log entry 95 for what the architecture of R28 gives). -/
def Copy.csrTakes (c : Copy) (n : Nat) (v : Word) : Word :=
  let old := (c.csrRaw n).toNat
  if 0x3A0 ≤ n ∧ n ≤ 0x3A3 then
    BitVec.ofNat 32 ((List.range 4).foldl (fun w i => w + pmpByte (old / 256 ^ i % 256) (v.toNat / 256 ^ i % 256) * 256 ^ i) 0)
  else if 0x3B0 ≤ n ∧ n ≤ 0x3BF then
    let i := n - 0x3B0
    if bitAt (c.pmpCfg i) 7 || (decide (i < 15) && bitAt (c.pmpCfg (i + 1)) 7 && c.pmpCfg (i + 1) / 8 % 4 == 1) then BitVec.ofNat 32 old
    else v
  else if n = 0x300 then
    let mpp := if v.toNat / 2048 % 4 = 0 then 0 else 0x1800
    (v &&& 0x00226088) ||| BitVec.ofNat 32 mpp ||| (if v.toNat / 0x2000 % 4 = 3 then 0x80000000 else 0)
  else if n = 0x341 ∨ n = 0x7B1 then v &&& 0xFFFFFFFE
  else if n = 0x305 then v &&& 0xFFFFFFFD
  else v

/-- A control and status register of a copy set; one that is fixed or absent is not. -/
def Copy.csrSet (p : Pair) (n : Nat) (v : Word) (c : Copy) : Copy :=
  match n with
  | 0x001 => { c with fcsr := (c.fcsr &&& 0xE0) ||| (v &&& 0x1F) }
  | 0x002 => { c with fcsr := (c.fcsr &&& 0x1F) ||| ((v &&& 7) <<< 5) }
  | 0x003 => { c with fcsr := v &&& 0xFF }
  | n =>
    if (csrFixed p n).isSome || !csrExists p n then c
    else { c with csr := Tab.put (fun _ => 0) c.csr n (c.csrTakes n v) }

/-- A register of a copy set; x0 stays 0. -/
def Copy.write (p : Pair) (r : CoreReg) (v : Word) (c : Copy) : Copy :=
  match r with
  | .x i => if i.val = 0 then c else { c with x := c.x.set i.val v i.isLt }
  | .f i => { c with f := c.f.set i.val v i.isLt }
  | .fcsr => { c with fcsr := v &&& 0xFF }
  | .pc => { c with pc := v &&& 0xFFFFFFFE }
  | .csr n => c.csrSet p n.toNat v

/-- What a core's program has come to: its writes in both copies, a disturbance in the double alone. -/
def progressed (p : Pair) (g : Progress) (s : State) : State :=
  let ran (l : List (CoreReg × Word)) (c : Copy) : Copy := l.foldl (fun c e => c.write p e.1 e.2) c
  s.modCore p (fun c => { c with
    main := { ran g.writes c.main with machineMode := g.machineMode }
    double := { ran g.strays (ran g.writes c.double) with machineMode := g.machineMode } })

/-- A machine trap (R28's architecture): mepc, mcause and mtval saved, mstatus stacked, the pc at mtvec's base. -/
def Copy.trap (p : Pair) (cause tval : Nat) (c : Copy) : Copy :=
  let mst := (c.csrGet p 0x300).toNat
  let mpp := if c.machineMode then 3 else 0
  let st := withBit (withBit mst 7 (bitAt mst 3)) 3 false
  let st := withBit (withBit st 11 (bitAt mpp 0)) 12 (bitAt mpp 1)
  let tvec := c.csrGet p 0x305
  let c := (((c.csrSet p 0x341 c.pc).csrSet p 0x342 (BitVec.ofNat 32 cause)).csrSet p 0x343 (BitVec.ofNat 32 tval)).csrSet p 0x300
    (BitVec.ofNat 32 st)
  { c with pc := tvec &&& 0xFFFFFFFC, machineMode := true }

/-- The trap taken by both copies. -/
def trapPair (p : Pair) (cause tval : Nat) (s : State) : State := modCopies p (Copy.trap p cause tval) s

/-! ## Bus accesses of a requester (R74, R75, R83, R97) -/

/-- The principal core that made an access takes an exception; another requester has the bus error alone. -/
def raiseTo (r : Requester) (cause addr : Nat) (s : State) : State :=
  match r with
  | .p p => trapPair p cause addr s
  | _ => s

/-- The logical engine that a physical engine carries (R205). -/
def carriedBy (s : State) (i : Fin 8) : Option Eng := (List.finRange 7).find? (fun e => physicalOf s e == i.val)

/-- A port-table entry: valid, write permitted, address (R206). -/
def portEntry (s : State) (e : Eng) (port : Fin 64) : Word := s.memWord (engBase e + 0x6000 + 4 * port.val)
def portAddr (w : Word) : Nat := (w &&& 0xFFFFFFFC).toNat

/-- Whether an entry of a Heldiog engine's port table, which K has accepted, opens a register to it (R217, R656). -/
def portOpens (s : State) (i : Fin 8) (write : Bool) (a : Nat) : Bool :=
  match carriedBy s i with
  | some e => (List.finRange 64).any (fun n =>
      let w := portEntry s e n
      bitAt w.toNat 0 && portAddr w == a && (!write || bitAt w.toNat 1))
  | none => false

/-- Whether what stands before a requester permits an access: the main core's PMP, and for a Heldiog engine at a peripheral block its port table (R656);
no other engine has either. -/
def pmpPermits (s : State) (r : Requester) (u : Use) (a w : Nat) : Bool :=
  match r with
  | .p p => (s.cores[p.val].main).pmpAllows p u a w
  | .h i => !isPeripheral a || portOpens s i (match u with | .write => true | _ => false) a
  | _ => true

/-- An access to a register by a requester: a stopped pair makes none (R97); what the core's PMP or R74 refuses is captured (R75, R76),
and a core that meets a bus error takes the load or store access-fault exception (R83). A core's misaligned access raises its exception before it
reaches the interconnect (R653). -/
def busAccess (r : Requester) (addr : Nat) (write : Bool) (act : State → State) (s : State) : State :=
  if !issues s r then s
  else if !reaches r s then busError s
  else if addr % 4 ≠ 0 ∧ isCore r = true then raiseTo r (if write then 6 else 4) addr s
  else
    let t := if pmpPermits s r (if write then .write else .read) addr 4 then regAccess r addr write act s else refuse r addr write s
    if t.bus.err then raiseTo r (if write then 7 else 5) addr t else t

/-! ## The comparator (R91 to R94) -/

/-- The bits that differ in a field of the outputs, numbered through the table of R91 from `at_` on. -/
def diffBits (at_ w : Nat) (a b : BitVec w) : List Nat := ((List.range w).filter (fun i => a.getLsbD i != b.getLsbD i)).map (at_ + ·)

/-- The write data of a request where its byte enables are on. -/
def enabledBytes (be : BitVec 4) (v : Word) : Word :=
  BitVec.ofNat 32 ((List.range 4).foldl (fun w i => if be.getLsbD i then w + v.toNat / 256 ^ i % 256 * 256 ^ i else w) 0)

/-- The compared bits that differ between the copies: each field while its qualifier is active, and control always. The byte enables, to which
R91 gives no qualifier, are compared while their request is valid, and the main core's enables choose the bytes of write data that are compared
(DESIGN CHOICE, log entry 95). -/
def differing (f : LockstepFinding) : List Nat :=
  let a := f.main
  let b := f.double
  let on (c : Bool) (l : List Nat) : List Nat := if c then l else []
  on f.valid.fetch (diffBits 0 32 a.fetchAddr b.fetchAddr) ++ diffBits 32 8 a.fetchCtl b.fetchCtl
  ++ on f.valid.data (diffBits 40 32 a.dataAddr b.dataAddr ++ diffBits 72 32 (enabledBytes a.dataBe a.dataOut) (enabledBytes a.dataBe b.dataOut)
    ++ diffBits 104 4 a.dataBe b.dataBe) ++ diffBits 108 12 a.dataCtl b.dataCtl
  ++ on f.valid.tcm (diffBits 120 15 a.tcmAddr b.tcmAddr ++ diffBits 135 32 (enabledBytes a.tcmBe a.tcmOut) (enabledBytes a.tcmBe b.tcmOut)
    ++ diffBits 167 4 a.tcmBe b.tcmBe) ++ diffBits 171 6 a.tcmCtl b.tcmCtl
  ++ on f.valid.cacheWrite (diffBits 177 82 a.cacheWrite b.cacheWrite)
  ++ diffBits 259 24 a.claim b.claim ++ on f.valid.debug (diffBits 283 40 a.debug b.debug)
  ++ on f.valid.trace (diffBits 323 48 a.trace b.trace) ++ diffBits 371 32 a.rails b.rails

/-- The compare group of a bit numbered through the table: which group of its row is not given (log entry 95). -/
def groupOfBit (k : Nat) : Nat :=
  let within (first n : Nat) : Nat := first + Config.compareGroup k % n
  if k < 40 then within 0 2 else if k < 120 then within 2 3 else if k < 177 then within 5 3 else if k < 259 then within 8 4
  else if k < 283 then 12 else if k < 323 then within 13 2 else if k < 371 then within 15 2 else 17

/-- The group flags of a cycle, lowest first. -/
def flaggedGroups (f : LockstepFinding) : List Nat :=
  (List.range 18).filter (fun g => (differing f).any (fun k => groupOfBit k == g))

/-- The final output pair while the copies agree (R94). -/
def agreePair (odd : Bool) : BitVec 2 := if odd then 2 else 1

/-- The final output pair: what a fault inside the tree puts there, or the alternation, which a difference breaks. -/
def finalPair (f : LockstepFinding) : BitVec 2 :=
  f.tree.getD (if (differing f).isEmpty then agreePair f.odd else 0)

/-- A code violation (R94): any other value than the agreeing one of the cycle. -/
def codeViolation (f : LockstepFinding) : Bool := finalPair f != agreePair f.odd

/-! ## Lockstep faults (R97 to R99) -/

/-- The number of bits set, and the lowest one. -/
def bitsSet (n w : Nat) : List Nat := (List.range w).filter (bitAt n)

/-- A capture of a pair (R97, R99): the first stands until VALID is cleared; the pair's clock stops; V's interrupt is held pending
(R663). A pair that is not clocked, or under the injection test (R105), captures nothing. Of several parity groups flagged in one cycle
GROUP shows the lowest, and MULTI counts them as it counts compare groups: the spec says it of compare groups (DESIGN CHOICE, log entry 95). A violation that no
group flag goes with leaves GROUP free. -/
def lockstepCapture (p : Pair) (violation : Bool) (groups parity : List Nat) (s : State) : State :=
  if (!violation && parity.isEmpty) || !s.bit F.DBL_STAT_RUN p || (s.on F.DBL_INJ_BUSY && s.bit F.DBL_INJ_PAIRS p) then s
  else
    let s := s.putBit F.DBL_STAT_RUN p false
    if s.on (F.DBL_FAULT_VALID p) then s
    else
      let par := !parity.isEmpty
      let group := if par then parity.headD 0 % 32 else groups.headD (s.free.toNat % 18)
      let many := decide (1 < groups.length + parity.length) || (par && violation)
      let s := s.drew
      let s := ((s.put (F.DBL_FAULT_VALID p) 1).put (F.DBL_FAULT_CAUSE p) (if par then 2 else 1)).put (F.DBL_FAULT_GROUP p) group
      let s := (s.putB (F.DBL_FAULT_MULTI p) many).putBit F.DBL_STAT_FAULT p true
      (s.put F.SAFE_STAT_NMILS 1).raise (.lockstep p)

/-- What the comparator and the delay registers of a pair find in a cycle. -/
def lockstepHit (p : Pair) (f : LockstepFinding) (s : State) : State :=
  lockstepCapture p (codeViolation f) (flaggedGroups f) (bitsSet f.parity.toNat 52) s

/-- A difference in one compare group. -/
def groupHit (p : Pair) (g : Nat) (s : State) : State := lockstepCapture p true [g] [] s

/-- VALID cleared clears the whole capture (R99). -/
def faultClear (p : Pair) (s : State) : State := (s.wr (F.DBL_FAULT_VALID p).addr 0).putBit F.DBL_STAT_FAULT p false

/-! ## The checkpoint signature (R93) -/

/-- The 24-bit signature of a copy: the XOR of x1 to x31, f0 to f31 and fcsr, its top byte folded into the lowest. -/
def Copy.signature (c : Copy) : BitVec 24 :=
  let w := (c.x.toList.drop 1).foldl (· ^^^ ·) (c.f.toList.foldl (· ^^^ ·) c.fcsr)
  w.setWidth 24 ^^^ (w >>> 24).setWidth 24

/-- The signature of each copy driven onto group 12. -/
def driveSignature (p : Pair) (s : State) : State :=
  let c := s.cores[p.val]
  let s := s.modCore p (fun x => { x with signature := c.main.signature })
  if c.main.signature = c.double.signature then s else groupHit p 12 s

/-- A write of mdblchk by the program; in user mode an illegal-instruction exception. The command does not bring the instruction's word, which mtval
takes where the write is stepped; here mtval is 0, as the architecture of R28 allows (DESIGN CHOICE, log entry 95). -/
def checkpoint (p : Pair) (g : Progress) (s : State) : State :=
  if !issues s (.p p) then s
  else
    let s := progressed p g s
    if g.machineMode then driveSignature p s else trapPair p 2 0 s

/-! ## Caches (R84, R85) -/

/-- The number of the 32-byte line of an address. -/
def lineOf (addr : Nat) : Nat := addr / 32

/-- A line dropped from a cache. -/
def dropLine (line : Nat) (c : Tab (Option CacheLine)) : Tab (Option CacheLine) :=
  c.filter (fun e => match e.2 with | some l => l.line != line | none => false)

/-- A write of mdcinv (R85). -/
def dcacheInvalidate (p : Pair) (addr : Word) (s : State) : State :=
  s.modCore p (fun c => { c with dcache := if addr = 0xFFFFFFFF then [] else dropLine (lineOf addr.toNat) c.dcache })

/-- FENCE.I (R85). -/
def icacheInvalidate (p : Pair) (s : State) : State := s.modCore p (fun c => { c with icache := [] })

/-! ## Release, agreement unit, injection test -/

/-- A pair held in reset (R90): both copies in their one reset state, no core of it halted any longer (R110). -/
def holdPair (p : Pair) (s : State) : State :=
  let s := (s.putBit F.DBL_STAT_RUN p false).putBit F.DBL_STAT_DBGHALT p false
  let s := s.modCont (fun c => { c with debugHalt := s.get F.DBL_STAT_DBGHALT != 0 })
  let s := if s.bit F.PWR_STAT_PGATE p then ungate p s else s
  s.modCore p (fun c => { c with main := .reset, double := .reset, icache := [], dcache := [], gated := false })

/-- HOLD cleared for a pair starts it (R90) at the entry address of the principal image booted (R564). -/
def releasePair (p : Pair) (s : State) : State :=
  if s.bit F.DBL_CTRL_HOLD p then
    modCopies p (fun c => { c with pc := s.keep.entry }) ((s.putBit F.DBL_CTRL_HOLD p false).putBit F.DBL_STAT_RUN p true)
  else s

/-- A write of DBL_CTRL.HOLD by K. -/
def holdWrite (mask : Nat) (s : State) : State :=
  (List.finRange 4).foldl (fun s (p : Pair) =>
    if bitAt mask p then (if s.bit F.DBL_CTRL_HOLD p then s else holdPair p (s.putBit F.DBL_CTRL_HOLD p true)) else releasePair p s) s

/-- The counter of synchroniser disagreements of a pair, and its overflow mark. -/
def agreeCnt : Pair → Fld × Fld
  | 0 => (F.DBL_AGREE_COUNT0, F.DBL_AGREE_OVF0) | 1 => (F.DBL_AGREE_COUNT1, F.DBL_AGREE_OVF1)
  | 2 => (F.DBL_AGREE_COUNT2, F.DBL_AGREE_OVF2) | 3 => (F.DBL_AGREE_COUNT3, F.DBL_AGREE_OVF3)

/-- An asynchronous input sampled on both sides (R101): agreed, or kept and counted. An input that comes on wakes a gated pair
(R590). While the PLL stands, nothing is sampled (R583). -/
def asyncInput (p : Pair) (input : Fin 32) (a b : Bool) (s : State) : State :=
  if coreStopped s then s
  else if a = b then
    let s := s.modCore p (fun c => { c with agreed := BitVec.ofNat 32 (withBit c.agreed.toNat input a) })
    if a then ungate p s else s
  else s.count (agreeCnt p).1 (agreeCnt p).2

/-- START of the injection sequencer (R105). -/
def injectionStart (pairs : Nat) (s : State) : State :=
  if s.on F.DBL_INJ_BUSY then s
  else
    let s := s.put F.DBL_INJ_PAIRS pairs
    let held := (s.get F.DBL_CTRL_HOLD &&& pairs) == pairs
    if s.on F.SYS_CLKMON_LOCK && held then (s.put F.DBL_INJ_START 1).put F.DBL_INJ_BUSY 1
    else (s.put F.DBL_INJ_START 0).put F.DBL_INJ_REFUSED 1

/-- The first of the injections missed, in the order in which the sequencer makes them: by group, bit and the main core's bit. -/
def firstMissed : List (Fin 18 × Fin 64 × Bool) → Option (Fin 18 × Fin 64 × Bool)
  | [] => none
  | a :: t =>
    let key (x : Fin 18 × Fin 64 × Bool) : Nat := 128 * x.1.val + 2 * x.2.1.val + x.2.2.toNat
    match firstMissed t with
    | none => some a
    | some b => some (if key b < key a then b else a)

/-- The first failure of a pair's test in the steps of R104, as the fields of DBL_INJRES give it: kind, group, bit, polarity. -/
def pairFailure (t : PairTest) : Option (Nat × Nat × Nat × Bool) :=
  match firstMissed t.missed with
  | some (g, b, pol) => some (1, g.val, b.val, pol)
  | none =>
    if !t.alternates then some (2, 0, 0, false)
    else
      match (List.finRange 52).find? (fun k => t.unreported.contains k) with
      | some k => some (3, k.val % 32, k.val, false)
      | none => none

/-- What the sequencer met at a pair. -/
def pairTest (l : List PairTest) (p : Pair) : PairTest := l.getD p.val ⟨[], true, []⟩

/-- The result of a run over the selected pairs shown (R104, R106). -/
def injectionResult (l : List PairTest) (s : State) : State :=
  let sel := (List.finRange 4).filter (fun (p : Pair) => s.bit F.DBL_INJ_PAIRS p)
  let pass := (sel.filter (fun p => (pairFailure (pairTest l p)).isNone)).foldl (fun n p => n + 2 ^ p.val) 0
  let first := sel.findSome? (fun p => (pairFailure (pairTest l p)).map (fun x => (p, x)))
  let show_ (p kind group bit : Nat) (pol : Bool) (s : State) : State :=
    let s := (s.put F.DBL_INJRES_FAIL_GROUP group).put F.DBL_INJRES_FAIL_BIT bit
    ((s.put F.DBL_INJRES_FAIL_PAIR p).putB F.DBL_INJRES_FAIL_POL pol).put F.DBL_INJRES_FAIL_KIND kind
  let s := s.put F.DBL_INJRES_PASS pass
  let s := match first with
    | some (p, kind, group, bit, pol) => show_ p.val kind group bit pol s
    | none => show_ 0 0 0 0 false s
  s.putB F.DBL_STAT_INJ_PASS (s.get F.DBL_INJRES_PASS == 15)

/-- The sequencer ends. -/
def injectionDone (r : List PairTest) (s : State) : State :=
  if s.on F.DBL_INJ_BUSY then
    ((injectionResult r s).put F.DBL_INJ_BUSY 0).put F.DBL_INJ_START 0 |>.put F.DBL_INJ_DONE 1
  else s

/-! ## The debugger (R107 to R110, R582) -/

/-- Whether a debug request reaches a pair: debug open, and the pair released and clocked. -/
def debugReaches (s : State) (p : Pair) : Bool := s.on F.KEEP_STAT_DBGOPEN && s.bit F.DBL_STAT_RUN p

/-- minstret of a pair as it halts: what its program has counted up to there is free, but where mcountinhibit has held it (R82). -/
def Copy.counted (v : BitVec 64) (c : Copy) : Copy :=
  if bitAt (c.csrRaw 0x320).toNat 2 then c
  else { c with csr := Tab.put (fun _ => 0) (Tab.put (fun _ => 0) c.csr 0xB02 (v.setWidth 32)) 0xB82 ((v >>> 32).setWidth 32) }

/-- A pair halted with what its program has come to. -/
def halted (p : Pair) (g : Progress) (s : State) : State :=
  ((modCopies p (Copy.counted s.free) (progressed p g s)).putBit F.DBL_STAT_DBGHALT p true).drew

/-- A halt (R110): both copies at one instruction, with what their program has come to there; CONT treats the lane as withdrawn. -/
def debugHalt (p : Pair) (g : Progress) (s : State) : State :=
  if debugReaches s p && !s.bit F.DBL_STAT_DBGHALT p then
    withdraw 1 ((halted p g s).modCont (fun c => { c with debugHalt := true }))
  else s

/-- A resume (R108). -/
def debugResume (p : Pair) (s : State) : State :=
  if debugReaches s p && s.bit F.DBL_STAT_DBGHALT p then
    let s := s.putBit F.DBL_STAT_DBGHALT p false
    soloLead (s.modCont (fun c => { c with debugHalt := s.get F.DBL_STAT_DBGHALT != 0 }))
  else s

/-- A trigger write (R108). -/
def debugTrigger (p : Pair) (index : Nat) (v : Word) (s : State) : State :=
  if debugReaches s p then modCopies p (fun c => { c with triggers := Tab.put (fun _ => 0) c.triggers index v }) s else s

/-! ## Commands -/

/-- GAFFER_RESTART (R426). -/
def execGafferRestart (s : State) : Out :=
  .next (if s.keep.start.isSome || enginesHeld s || !issues s .k then s else s.modSys (fun y => { y with gDown := false }))
/-- BUSERR_VALID_CLEAR (R76). -/
def execBuserrValidClear (s : State) : Out :=
  .next (((s.put F.SYS_BUSERR_VALID 0).put F.SYS_BUSERR_COUNT 0).put F.SYS_BUSERR_OVF 0)
/-- DCACHE_INVALIDATE (R85). -/
def execDcacheInvalidate (p : Pair) (addr : Word) (s : State) : Out :=
  .next (if issues s (.p p) then dcacheInvalidate p addr s else s)
/-- FENCE_I (R85). -/
def execFenceI (p : Pair) (s : State) : Out := .next (if issues s (.p p) then icacheInvalidate p s else s)
/-- CHECKPOINT_SIGNATURE (R93). -/
def execCheckpointSignature (p : Pair) (prog : Progress) (s : State) : Out := .next (checkpoint p prog s)
/-- LOCKSTEP_FAULT (R97). -/
def execLockstepFault (p : Pair) (f : LockstepFinding) (s : State) : Out := clockedOut s <| .next (lockstepHit p f s)
/-- DBL_FAULT_CLEAR (R99). -/
def execDblFaultClear (p : Pair) (s : State) : Out := clockedOut s <| .next (faultClear p s)
/-- ASYNC_INPUT_CHANGE (R101). -/
def execAsyncInputChange (p : Pair) (input : Fin 32) (mainSample doubleSample : Bool) (s : State) : Out :=
  clockedOut s <| .next (asyncInput p input mainSample doubleSample s)
/-- PAIR_RELEASE (R90). -/
def execPairRelease (p : Pair) (s : State) : Out := byK s <| .next (releasePair p s)
/-- INJECTION_TEST_START (R105). -/
def execInjectionTestStart (pairs : BitVec 4) (s : State) : Out := clockedOut s <| .next (injectionStart pairs.toNat s)
/-- INJECTION_TEST_DONE (R104). -/
def execInjectionTestDone (res : List PairTest) (s : State) : Out := clockedOut s <| .next (injectionDone res s)
/-- DEBUG_HALT (R110). -/
def execDebugHalt (p : HaltedPair) (s : State) : Out := clockedOut s <| .next (debugHalt p.pair p.prog s)
/-- DEBUG_RESUME (R108). -/
def execDebugResume (p : Pair) (s : State) : Out := clockedOut s <| .next (debugResume p s)
/-- DEBUG_TRIGGER_WRITE (R108). -/
def execDebugTriggerWrite (p : Pair) (index : Nat) (val : Word) (s : State) : Out := clockedOut s <| .next (debugTrigger p index val s)

end Sys2Proof.Machine
end

