-- ==== Sys2Proof/Machine/Cut.lean ====
section
/-!
DEFINITION. The commands of SAFE (chapter 12) and of the clock monitors (R80): the supervisor's kicks and reactions, the cut latch
set and cleared, STOP_N and RESUME_N, the isolation switches and their feedback.
-/
namespace Sys2Proof.Machine

/-! ## The clock monitors (R80, R427) -/

/-- A deviation in hundredths of a percent as SYS_CLKMON shows it, in tenths. -/
def shownDev (s : State) (d : Int) : Int := max (-127) (min 127 (s.roundFree d 10))

/-- The windows in a row that a monitor has found in band, at most the ten that R427 asks for. -/
def okNext (out : Bool) (n : Nat) : Nat := if out then 0 else min 10 (n + 1)

/-- A window of the PLL-side monitor ends: VRC and AORC against the PLL. -/
def pllWindow (vrcDev aorcDev : Int) (s : State) : State :=
  let s := ((s.putS F.SYS_CLKMON_VRCDEV (shownDev s vrcDev)).putS F.SYS_CLKMON_AORCDEV (shownDev s aorcDev)).drew
  let v := decide (400 < vrcDev.natAbs)
  let a := decide (600 < aorcDev.natAbs)
  let hit := v && s.sys.vrcOut || a && s.sys.aorcOut
  let s := (s.when v (·.put F.SYS_CLKMON_VRCOUT 1)).when a (·.put F.SYS_CLKMON_AORCOUT 1)
  let s := s.modSys (fun y => { y with vrcOut := v, aorcOut := a, okWindows := okNext (v || a) y.okWindows })
  if hit then setCut causeClk s else s

/-- A window of the VRC-side monitor ends: the PLL's 200 MHz counted against VRC, the deviation of VRC from the PLL that it gives. -/
def vrcWindow (vrcDev : Int) (s : State) : State :=
  let s := (s.putS F.SYS_CLKMON_VRCDEV (shownDev s vrcDev)).drew
  let v := decide (400 < vrcDev.natAbs)
  let hit := v && s.sys.vsideOut
  let s := (s.when v (·.put F.SYS_CLKMON_VRCOUT 1)).modSys (fun y => { y with vsideOut := v, vsideOk := okNext v y.vsideOk })
  if hit then setCut causeClk s else s

/-- A window of one of the two monitors ends (R79), the PLL-side one where the AORC is measured: one window out of its band sets the flag, and two in a row of one monitor set the
latch. Nothing happens while R592 suspends the monitors. -/
def monitorWindow (vrcDev : Int) (aorcDev : Option Int) (s : State) : State :=
  if s.sys.suspended then s
  else
    match aorcDev with
    | some a => pllWindow vrcDev a s
    | none => vrcWindow vrcDev s

/-- The PLL reports loss of lock. -/
def lockLost (s : State) : State :=
  if s.sys.suspended then s
  else setCut causeClk ((s.put F.SYS_CLKMON_LOCK 0).modSys (fun y => { y with okWindows := 0, vsideOk := 0 }))

/-- Whether cause CLK persists: PLL locked and all monitors in band for ten windows in a row end it (R427). -/
def clkPersists (s : State) : Bool := !s.on F.SYS_CLKMON_LOCK || decide (min s.sys.okWindows s.sys.vsideOk < 10)

/-! ## The supervisor -/

/-- A kick restarts the supervisor watchdog (R425). -/
def kick (s : State) : State := s.modSafe (fun x => { x with kickTick := s.tick })

/-- The watchdog, unless it is suspended or V is held (R592), runs out (R425, R663): VWDG, with the matching cause of every pending interrupt. -/
def watchdogOut (s : State) : State :=
  if s.sys.dogHeld then s
  else
    let ls := s.on F.SAFE_STAT_NMILS
    let ns := s.on F.SAFE_STAT_NMINS
    let s := setCut causeVwdg s
    let s := s.when ls (setCut causeLockstep)
    s.when ns (setCut causeNetstop)

/-- V takes a pending lockstep-fault interrupt (R98, R663). -/
def vLockstep (s : State) : State := if s.sys.vRuns && !coreStopped s && s.on F.SAFE_STAT_NMILS then setCut causeLockstep s else s

/-- V takes a pending network-stop interrupt (R444, R663). -/
def vNetstop (s : State) : State := if s.sys.vRuns && !coreStopped s && s.on F.SAFE_STAT_NMINS then setCut causeNetstop s else s

def safeCutAddr : Nat := 0x40014008

/-- A write of SAFE_CUT (R425, R427, R431, R435): a kick, a setting of the latch, a clearing edge of the command path; a cause set
with a clearing edge leaves the latch set. -/
def safeCutWrite (v : Word) (s : State) : State :=
  regWriteWith safeCutAddr v (fun s =>
    let s := s.when (v.toNat.testBit 12) kick
    let s := s.when (v.toNat.testBit 0) (setCut (v.extractLsb' 1 4).toNat)
    s.when (v.toNat.testBit 8) clearingEdge) s

/-- A write of SAFE_CAUSE (R427): ones clear, but CLK and STOPN stay while their condition persists. -/
def causeWrite (mask : Nat) (s : State) : State :=
  let mask := if clkPersists s then withBit mask causeClk false else mask
  let mask := if s.on F.SAFE_STAT_STOPN then withBit mask causeStopn false else mask
  let old := s.get F.SAFE_CAUSE_CAUSE
  s.put F.SAFE_CAUSE_CAUSE (old - (old &&& mask))

/-! ## STOP_N and RESUME_N -/

/-- An edge of RESUME_N (R433, R434). A falling edge while RJAM is 1 begins no resume pulse. SAFE_RESUME.LAST takes the length of
every low pulse, a jam's too. -/
def resumeEdge (rising : Bool) (lowMs : Nat) (s : State) : State :=
  if !rising then if s.on F.SAFE_STAT_RJAM then s else s.modSafe (fun x => { x with resumeLow := true })
  else
    let low := s.safe.resumeLow
    let s := (s.put F.SAFE_RESUME_LAST (min 65535 lowMs)).modSafe (fun x => { x with resumeLow := false })
    if !low then s
    else if lowMs < 20 then s.put F.SAFE_STAT_RESREF 1
    else if lowMs ≤ 500 then clearingEdge s
    else s

/-- RESUME_N low for more than 500 ms (R434). -/
def resumeJam (s : State) : State :=
  if s.on F.SAFE_STAT_RJAM then s
  else ((s.put F.SAFE_STAT_RJAM 1).countBit F.SAFE_CNT_JAMCNT F.SAFE_CNT_OVF 2).modSafe (fun x => { x with resumeLow := false })

/-- The window of an ARM ends (R435). -/
def armExpires (s : State) : State :=
  match s.safe.armed with
  | none => s
  | some t => (s.put F.SAFE_STAT_ARMED 0).modSafe (fun x => { x with armed := some { t with late := true } })

/-! ## Isolation switches (R439, R440) -/

/-- A close command, or its refusal. -/
def closeRequest (b : Bridge) (s : State) : State :=
  if mayClose s b then isoClose b s else s.put F.SAFE_STAT_CLOSEREF 1

/-- An open command. -/
def openRequest (b : Bridge) (s : State) : State := isoOpen b s

/-- A write of SAFE_CLOSE. -/
def closeWrite (v : Word) (s : State) : State :=
  let s := if v.toNat.testBit 0 then closeRequest 0 s else openRequest 0 s
  if v.toNat.testBit 1 then closeRequest 1 s else openRequest 1 s

/-- The bridge of a feedback input (R438). -/
def fbBridge (i : Fin 4) : Bridge := ⟨i.val / 2, by omega⟩

/-- The other feedback input of a bridge. -/
def fbOther (i : Fin 4) : Nat := if i.val % 2 = 0 then i.val + 1 else i.val - 1

/-- FLTCLS set for the other feedback input of the bridge where it is still open: the check of the same close command ends for both at once. -/
def otherLate (i : Fin 4) (s : State) : State :=
  if bitAt s.safe.checking.toNat (fbOther i) && s.bit F.SAFE_ISOFB_FB (fbOther i) then s.putBit F.SAFE_ISOFB_FLTCLS (fbOther i) true else s

/-- A switch found failed while its bridge is commanded closed (R440). -/
def failClosed (i : Fin 4) (s : State) : State :=
  setCut causeIso (isoOpen (fbBridge i) (s.putBit F.SAFE_ISOFB_FLTCLS i true))

/-- A feedback level valid after 50 µs (R438, R440). -/
def feedback (i : Fin 4) (isOpen : Bool) (s : State) : State :=
  let b := fbBridge i
  let s := s.putBit F.SAFE_ISOFB_FB i isOpen
  let waiting := bitAt s.safe.checking.toNat i
  let done (s : State) : State := s.modSafe (fun x => { x with checking := BitVec.ofNat 4 (withBit x.checking.toNat i false) })
  if isoClosed s b then
    if !isOpen then done s
    else if waiting then s
    else failClosed i s
  else if isOpen then confirmOpen b (done s)
  else s

/-- ISOFBT runs out for a feedback input (R440). -/
def feedbackLate (i : Fin 4) (s : State) : State :=
  let b := fbBridge i
  if bitAt s.safe.checking.toNat i then
    let s := s.modSafe (fun x => { x with checking := BitVec.ofNat 4 (withBit x.checking.toNat i false) })
    if isoClosed s b then failClosed i (otherLate i s)
    else setCut causeIso (s.putBit F.SAFE_ISOFB_FLTOPN i true)
  else s

/-! ## Commands -/

/-- CLOCK_MONITOR_WINDOW (R80). -/
def execClockMonitorWindow (vrcDev : Int) (aorcDev : Option Int) (s : State) : Out :=
  .next (monitorWindow vrcDev aorcDev s)
/-- PLL_LOSS_OF_LOCK (R80). -/
def execPllLossOfLock (s : State) : Out := .next (lockLost s)
/-- V_LOCKSTEP_REACTION (R663). -/
def execVLockstepReaction (s : State) : Out := .next (vLockstep s)
/-- V_NETSTOP_REACTION (R444). -/
def execVNetstopReaction (s : State) : Out := .next (vNetstop s)
/-- SUPERVISOR_KICK (R425): a write of SAFE_CUT with KICK = 1 alone. -/
def execSupervisorKick (s : State) : Out := byV s <| .next (safeCutWrite 0x1000 s)
/-- SUPERVISOR_WATCHDOG_EXPIRY (R425). -/
def execSupervisorWatchdogExpiry (s : State) : Out := .next (watchdogOut s)
/-- CUT_SET_COMMAND (R427): a write of SAFE_CUT with SET = 1 and a VCAUSE. -/
def execCutSetCommand (cause : BitVec 4) (s : State) : Out :=
  byV s <| .next (safeCutWrite (BitVec.ofNat 32 (1 + 2 * cause.toNat)) s)
/-- COMMAND_CLEAR (R435): a write of SAFE_CUT with CMDCLR = 1 alone. -/
def execCommandClear (s : State) : Out := byV s <| .next (safeCutWrite 0x100 s)
/-- CAUSE_CLEAR (R427). -/
def execCauseClear (mask : BitVec 10) (s : State) : Out := byV s <| .next (causeWrite mask.toNat s)
/-- STOP_N_LOW_QUALIFIED (R430). -/
def execStopNLowQualified (s : State) : Out := .next (setCut causeStopn (s.put F.SAFE_STAT_STOPN 1))
/-- STOP_N_HIGH_QUALIFIED (R430). -/
def execStopNHighQualified (s : State) : Out := .next (s.put F.SAFE_STAT_STOPN 0)
/-- RESUME_PULSE (R433). -/
def execResumePulse (rising : Bool) (lowMs : Nat) (s : State) : Out := .next (resumeEdge rising lowMs s)
/-- RESUME_JAM (R434). -/
def execResumeJam (s : State) : Out := .next (resumeJam s)
/-- RESUME_JAM_CLEAR (R434). -/
def execResumeJamClear (s : State) : Out := .next (s.put F.SAFE_STAT_RJAM 0)
/-- ARM_WINDOW_EXPIRY (R435). -/
def execArmWindowExpiry (s : State) : Out := .next (armExpires s)
/-- ISOLATION_CLOSE (R439). -/
def execIsolationClose (b : Bridge) (s : State) : Out := byV s <| .next (closeRequest b s)
/-- ISOLATION_OPEN (R439). -/
def execIsolationOpen (b : Bridge) (s : State) : Out := byV s <| .next (openRequest b s)
/-- ISO_FEEDBACK_CHANGE (R438). -/
def execIsoFeedbackChange (i : Fin 4) (isOpen : Bool) (s : State) : Out := .next (feedback i isOpen s)
/-- ISO_FEEDBACK_TIMEOUT (R440). -/
def execIsoFeedbackTimeout (i : Fin 4) (s : State) : Out := .next (feedbackLate i s)

end Sys2Proof.Machine
end

