-- ==== Sys2Proof/Machine/Sm.lean ====
section
/-!
DEFINITION. SM3 (GB/T 32905) and SM2 signatures (GB/T 32918), which R28 names: digests, verification, signing, and whether a public key is a
point of the curve (log entry 4).
-/
namespace Sys2Proof.Machine

/-! ## SM3 -/

/-- The eight chaining words. -/
structure Sm3State where
  a : BitVec 32
  b : BitVec 32
  c : BitVec 32
  d : BitVec 32
  e : BitVec 32
  f : BitVec 32
  g : BitVec 32
  h : BitVec 32
  deriving DecidableEq, Repr

def sm3Start : Sm3State :=
  ⟨0x7380166F, 0x4914B2B9, 0x172442D7, 0xDA8A0600, 0xA96F30BC, 0x163138AA, 0xE38DEE4D, 0xB0FB0E4E⟩

def sm3P0 (x : BitVec 32) : BitVec 32 := x ^^^ x.rotateLeft 9 ^^^ x.rotateLeft 17
def sm3P1 (x : BitVec 32) : BitVec 32 := x ^^^ x.rotateLeft 15 ^^^ x.rotateLeft 23

/-- The boolean functions of round `j`. -/
def sm3FF (j : Nat) (x y z : BitVec 32) : BitVec 32 :=
  if j < 16 then x ^^^ y ^^^ z else (x &&& y) ||| (x &&& z) ||| (y &&& z)
def sm3GG (j : Nat) (x y z : BitVec 32) : BitVec 32 :=
  if j < 16 then x ^^^ y ^^^ z else (x &&& y) ||| (~~~x &&& z)

/-- The constant of round `j`. -/
def sm3T (j : Nat) : BitVec 32 := (if j < 16 then 0x79CC4519#32 else 0x7A879D8A#32).rotateLeft (j % 32)

/-- The message words W of a block, the latest first, extended by `n` words. -/
def sm3Words : Nat → List (BitVec 32) → List (BitVec 32)
  | 0, l => l
  | n + 1, l =>
    let w (k : Nat) : BitVec 32 := l.getD (k - 1) 0
    sm3Words n ((sm3P1 (w 16 ^^^ w 9 ^^^ (w 3).rotateLeft 15) ^^^ (w 13).rotateLeft 7 ^^^ w 6) :: l)

/-- One round with its words W and W'. -/
def sm3Round (s : Sm3State) (x : Nat × BitVec 32 × BitVec 32) : Sm3State :=
  let ss1 := (s.a.rotateLeft 12 + s.e + sm3T x.1).rotateLeft 7
  let tt1 := sm3FF x.1 s.a s.b s.c + s.d + (ss1 ^^^ s.a.rotateLeft 12) + x.2.2
  let tt2 := sm3GG x.1 s.e s.f s.g + s.h + ss1 + x.2.1
  ⟨tt1, s.a, s.b.rotateLeft 9, s.c, sm3P0 tt2, s.e, s.f.rotateLeft 19, s.g⟩

/-- The compression of a block of sixteen words. -/
def sm3Compress (s : Sm3State) (block : List (BitVec 32)) : Sm3State :=
  let w := (sm3Words 52 block.reverse).reverse
  let rounds := (List.range 64).map (fun j => (j, w.getD j 0, w.getD j 0 ^^^ w.getD (j + 4) 0))
  let t := rounds.foldl sm3Round s
  ⟨t.a ^^^ s.a, t.b ^^^ s.b, t.c ^^^ s.c, t.d ^^^ s.d, t.e ^^^ s.e, t.f ^^^ s.f, t.g ^^^ s.g, t.h ^^^ s.h⟩

/-- A number in bytes, the most significant first. -/
def sm3Bytes (n v : Nat) : List Byte := (List.range n).map (fun i => BitVec.ofNat 8 (v / 256 ^ (n - 1 - i)))

/-- A message padded to whole blocks of 64 bytes: a 1 bit, zeros, its length in bits in 64. -/
def sm3Pad (m : List Byte) : List Byte :=
  m ++ 0x80 :: List.replicate ((119 - m.length % 64) % 64) 0 ++ sm3Bytes 8 (8 * m.length)

/-- The big-endian value of bytes. -/
def sm3Value (l : List Byte) : Nat := l.foldl (fun n b => 256 * n + b.toNat) 0

/-- Block `i` of a padded message. -/
def sm3Block (l : List Byte) (i : Nat) : List (BitVec 32) :=
  (List.range 16).map (fun j => BitVec.ofNat 32 (sm3Value ((l.drop (64 * i + 4 * j)).take 4)))

/-- SM3 of a message. -/
@[irreducible] def sm3 (m : List Byte) : BitVec 256 :=
  let l := sm3Pad m
  let t := (List.range (l.length / 64)).foldl (fun s i => sm3Compress s (sm3Block l i)) sm3Start
  t.a ++ t.b ++ t.c ++ t.d ++ t.e ++ t.f ++ t.g ++ t.h

/-! ## The curve of SM2 -/

def sm2P : Nat := 0xFFFFFFFEFFFFFFFFFFFFFFFFFFFFFFFFFFFFFFFF00000000FFFFFFFFFFFFFFFF
def sm2A : Nat := sm2P - 3
def sm2B : Nat := 0x28E9FA9E9D9F5E344D5A9E4BCF6509A7F39789F515AB8F92DDBCBD414D940E93
def sm2N : Nat := 0xFFFFFFFEFFFFFFFFFFFFFFFFFFFFFFFF7203DF6B21C6052B53BBF40939D54123
def sm2Gx : Nat := 0x32C4AE2C1F1981195F9904466A39C9948FE30BBFF2660BE1715A4589334C74C7
def sm2Gy : Nat := 0xBC3736A2F4F6779C59BDCEE36B692153D0A9877CC62A474002DF32E52139F0A0

/-- A power modulo `m`, the exponent's bits from the most significant. -/
def powMod (m b : Nat) (e : Nat) (bits : Nat) : Nat :=
  (List.range bits).foldl (fun r i => if e.testBit (bits - 1 - i) then r * r % m * b % m else r * r % m) 1

/-- The inverse modulo a prime of 256 bits. -/
def invMod (m x : Nat) : Nat := powMod m (x % m) (m - 2) 256

/-- A point of the curve: none is the point at infinity. -/
abbrev CurvePoint := Option (Nat × Nat)

/-- The sum of two points. -/
def sm2Add : CurvePoint → CurvePoint → CurvePoint
  | none, q => q
  | p, none => p
  | some (x1, y1), some (x2, y2) =>
    if x1 = x2 ∧ (y1 + y2) % sm2P = 0 then none
    else
      let slope := if x1 = x2 then (3 * x1 * x1 + sm2A) * invMod sm2P (2 * y1) % sm2P
        else (y2 + (sm2P - y1)) * invMod sm2P (x2 + (sm2P - x1)) % sm2P
      let x3 := (slope * slope + 2 * sm2P - x1 - x2) % sm2P
      some (x3, (slope * (x1 + sm2P - x3) + (sm2P - y1)) % sm2P)

/-- A multiple of a point. -/
def sm2Mul (k : Nat) (p : CurvePoint) : CurvePoint :=
  (List.range 256).foldl (fun r i => let d := sm2Add r r; if k.testBit (255 - i) then sm2Add d p else d) none

def sm2G : CurvePoint := some (sm2Gx, sm2Gy)

/-- A public key of 64 bytes, x then y, the most significant byte first. -/
def keyX (k : BitVec 512) : Nat := k.toNat / 2 ^ 256
def keyY (k : BitVec 512) : Nat := k.toNat % 2 ^ 256

/-- Whether a public key is a point of the curve (R571). -/
@[irreducible] def validPoint (k : BitVec 512) : Bool :=
  let x := keyX k
  let y := keyY k
  decide (x < sm2P) && decide (y < sm2P) && y * y % sm2P == (x * x % sm2P * x + sm2A * x + sm2B) % sm2P

/-! ## Signatures -/

/-- The default distinguishing identifier, "1234567812345678" (R565). -/
def sm2Id : List Byte := [0x31, 0x32, 0x33, 0x34, 0x35, 0x36, 0x37, 0x38, 0x31, 0x32, 0x33, 0x34, 0x35, 0x36, 0x37, 0x38]

/-- The digest that is signed: SM3 of the signer's digest, of its identifier, the curve and its key, and the message. -/
def sm2Digest (k : BitVec 512) (m : List Byte) : Nat :=
  let z := sm3 (sm3Bytes 2 128 ++ sm2Id ++ [sm2A, sm2B, sm2Gx, sm2Gy].flatMap (sm3Bytes 32) ++ sm3Bytes 64 k.toNat)
  (sm3 (sm3Bytes 32 z.toNat ++ m)).toNat

/-- SM2 verification under a public key of a message and a signature, r then s. -/
@[irreducible] def sm2Verify (k : BitVec 512) (m : List Byte) (sig : BitVec 512) : Bool :=
  let r := sig.toNat / 2 ^ 256
  let s := sig.toNat % 2 ^ 256
  let t := (r + s) % sm2N
  validPoint k && decide (1 ≤ r ∧ r < sm2N ∧ 1 ≤ s ∧ s < sm2N ∧ t ≠ 0) &&
    (match sm2Add (sm2Mul s sm2G) (sm2Mul t (some (keyX k, keyY k))) with
     | some (x, _) => (sm2Digest k m + x) % sm2N == r
     | none => false)

/-- The public key of a private one. -/
def sm2Public (d : Nat) : BitVec 512 :=
  match sm2Mul d sm2G with
  | some (x, y) => BitVec.ofNat 512 (x * 2 ^ 256 + y)
  | none => 0

/-- The SM2 signature of a message by a private key with a random number, r then s. -/
@[irreducible] def sm2Sign (d k : Nat) (m : List Byte) : BitVec 512 :=
  let x := match sm2Mul k sm2G with | some (x, _) => x | none => 0
  let r := (sm2Digest (sm2Public d) m + x) % sm2N
  let s := invMod sm2N (1 + d) * (k + sm2N * sm2N - r * d) % sm2N
  BitVec.ofNat 512 (r * 2 ^ 256 + s)

/-- K's signature over a digest (R578) with the random number that its entropy source gives at the n-th free place. -/
@[irreducible] def attestSign (n : Nat) (c : BitVec 256) : BitVec 512 :=
  sm2Sign Config.attestKey.toNat (Config.entropy n).toNat (sm3Bytes 32 c.toNat)

/-- Measurement 11: SM3 of the attestation public key (R577). -/
@[irreducible] def attestKeyDigest : BitVec 256 := sm3 (sm3Bytes 64 (sm2Public Config.attestKey.toNat).toNat)

end Sys2Proof.Machine
end

