-- ==== Sys2Proof/Machine/Nvm.lean ====
section
/-!
DEFINITION. What the keeper holds in non-volatile memory (chapters 17 and 19): the banks and their images, the key store, the
boot record and the configuration copies, the measurements, the repair ledger.
-/
namespace Sys2Proof.Machine

/-! ## Bytes, most significant first -/

/-- The `k` big-endian bytes of a value. -/
def beBytes : Nat → Nat → List Byte
  | 0, _ => []
  | k + 1, v => BitVec.ofNat 8 (v / 256 ^ k) :: beBytes k v

/-- The big-endian value of bytes. -/
def beValue (l : List Byte) : Nat := l.foldl (fun acc b => acc * 256 + b.toNat) 0

/-! ## Erasing and programming -/

/-- The erase counter of the 8 KiB sector an NVM address lies in (R612). -/
def sectorWear (a : Nat) : Nat := if a < 0x11000000 then a / 0x2000 % 0x800 else 1536 + a / 0x2000 % 0x800

/-- The 8 KiB sector of an address erased to ones. -/
def nvmErase (a : Nat) (s : State) : State :=
  let base := a / 0x2000 * 0x2000
  let s := { s with mem := s.mem.filter (fun c => !(decide (base ≤ c.1 ∧ c.1 < base + 0x2000))) }
  let s := if base = 0x11000000 then s.setBytes 0x11001200 (List.replicate 12 0xFF) else s
  wearOne (sectorWear base) s

/-- A program or erase of code NVM counted in WRGEN (R568). -/
def bumpWrgen (s : State) : State :=
  let n := (s.keep.store.wrgen + 1) % 2 ^ 32
  (s.modStore (fun k => { k with wrgen := n })).put F.KEEP_WRGEN_WRGEN n

/-! ## The key store (R569 to R572) -/

/-- The state of a slot: 0 empty, 1 active, 2 revoked. -/
def KeyStore.slot (k : KeyStore) (i : Nat) : Nat := k.slots.toNat / 4 ^ i % 4

/-- A slot's state set. -/
def KeyStore.setSlot (k : KeyStore) (i v : Nat) : KeyStore :=
  { k with slots := BitVec.ofNat 10 (k.slots.toNat - k.slot i * 4 ^ i + v * 4 ^ i) }

/-- A slot's key. -/
def KeyStore.key (k : KeyStore) (i : Nat) : BitVec 512 := if h : i < 5 then k.keys[i] else 0

/-- A slot's key set. -/
def KeyStore.setKey (k : KeyStore) (i : Nat) (v : BitVec 512) : KeyStore :=
  if h : i < 5 then { k with keys := k.keys.set i v h } else k

/-- The counter of a type. -/
def KeyStore.ver (k : KeyStore) (ty : Nat) : Nat := if h : ty - 1 < 7 then k.vers[ty - 1] else 0

/-- The active customer slots, in ascending order. -/
def KeyStore.customers (k : KeyStore) : List Nat := [1, 2, 3, 4].filter (fun i => k.slot i == 1)

/-- One operation of a key record (R572), signed under `signer`; none where it is refused. A slot moves only from empty to active
to revoked (R570), so a revoke leaves an empty slot empty (log entry 20). -/
def KeyStore.apply (signer : Nat) (op : List Byte) (k : KeyStore) : Option KeyStore :=
  let code := bytesAt op 0 1
  let tgt := bytesAt op 1 1
  let key : BitVec 512 := BitVec.ofNat 512 (beValue ((op.drop 4).take 64))
  if 5 ≤ tgt then none
  else if code = 1 then
    if tgt < 2 then none
    else if k.slot tgt ≠ 0 then (if k.key tgt = key then some k else none)
    else some ((k.setKey tgt key).setSlot tgt 1)
  else if code = 2 then
    if tgt = signer then none
    else if k.slot tgt = 0 then some k
    else
      let k' := k.setSlot tgt 2
      if k'.customers.isEmpty then none else some k'
  else none

/-- The operations of a key record's body, in order. -/
def KeyStore.applyAll (signer : Nat) (body : List Byte) (k : KeyStore) : Option KeyStore :=
  let n := bytesAt body 0 1
  if 1 ≤ n ∧ n ≤ 4 then
    (List.range n).foldl (fun acc i => acc.bind (KeyStore.apply signer ((body.drop (1 + 68 * i)).take 68))) (some k)
  else none

/-- The fields of KEEP that show the key store (R570). -/
def showStore (s : State) : State :=
  let k := s.keep.store
  let s := ((s.putB F.KEEP_STAT_LIFE k.provisioned).put F.KEEP_SLOT_STATE k.slots.toNat).put F.KEEP_WRGEN_WRGEN k.wrgen
  let s := (s.put F.KEEP_COLDCNT_COLD k.coldCount).put F.KEEP_WARMCNT_WARM k.warmCount
  let s := ((s.put F.KEEP_VER0_VER1 (k.ver 1)).put F.KEEP_VER0_VER2 (k.ver 2)).put F.KEEP_VER0_VER3 (k.ver 3)
  let s := ((s.put F.KEEP_VER0_VER4 (k.ver 4)).put F.KEEP_VER1_VER5 (k.ver 5)).put F.KEEP_VER1_VER6 (k.ver 6)
  (List.range 4).foldl (fun s w => s.put (F.KEEP_UID_UID w) (bytesAt (beBytes 16 Config.uid.toNat) (4 * w) 4))
    (s.put F.KEEP_VER1_VER7 (k.ver 7))

/-! ## Measurements (R577) -/

/-- A measurement's 32 bytes put into KEEP_MEAS. -/
def putMeasure (i : Nat) (l : List Byte) (s : State) : State :=
  (List.range 8).foldl (fun s w => s.put (F.KEEP_MEAS_MEAS (8 * i + w)) (bytesAt l (4 * w) 4)) s

/-- A measurement's 32 bytes. -/
def measureBytes (s : State) (i : Nat) : List Byte :=
  (List.range 8).flatMap (fun w => leBytes 4 (s.get (F.KEEP_MEAS_MEAS (8 * i + w))))

/-- The bytes of a digest. -/
def digestBytes (d : BitVec 256) : List Byte := beBytes 32 d.toNat

/-- The key store state that measurement 9 covers. -/
def storeBytes (k : KeyStore) : List Byte :=
  (List.range 5).flatMap (fun i => if k.slot i = 0 then List.replicate 64 0 else beBytes 64 (k.key i).toNat)
    ++ (List.range 5).map (fun i => BitVec.ofNat 8 (k.slot i))
    ++ (List.range 7).map (fun i => BitVec.ofNat 8 (k.ver (i + 1)))

/-- Measurements 9 and 10 brought up to date. -/
def showMeasures (s : State) : State :=
  let flag (f : Fld) : Byte := BitVec.ofNat 8 (s.get f)
  let plain : List Byte :=
    [flag F.KEEP_STAT_BANK, flag F.SAFE_STAT_SEALED, flag F.KEEP_STAT_LIFE, if s.keep.dbgOpened then 1 else 0,
      flag F.KEEP_STAT_WARM, 0, 0, 0] ++ leBytes 4 s.keep.store.coldCount ++ beBytes 16 Config.uid.toNat ++ [0, 0, 0, 0]
  putMeasure 10 plain (putMeasure 9 (digestBytes (sm3 (storeBytes s.keep.store))) s)

/-! ## Banks and images (R563 to R567) -/

def bankBase (b : Bool) : Nat := if b then 0x10600000 else 0x10000000
def bankSize : Nat := 0x600000

/-- The entries of a bank's directory, as TYPE and header address; none where the directory is not of R563's form. -/
def directory (s : State) (b : Bool) : Option (List (Nat × Nat)) :=
  let base := bankBase b
  let n := (s.byte (base + 4)).toNat
  if s.bytes base 4 = [0x53, 0x56, 0x42, 0x44] ∧ (n = 6 ∨ n = 7) then
    let l := (List.range n).map (fun i =>
      ((s.byte (base + 8 + 8 * i)).toNat, base + (s.memWord (base + 8 + 8 * i + 4)).toNat))
    if (l.map (·.1)).Nodup ∧ l.all (fun e => e.2 % 256 == 0) = true then some l else none
  else none

/-- The header of the image of a type in a bank. -/
def imageOf (s : State) (b : Bool) (ty : Nat) : Option Nat :=
  (directory s b).bind (fun l => (l.find? (fun e => e.1 == ty)).map (·.2))

def imageSlot (s : State) (h : Nat) : Nat := (s.byte (h + 5)).toNat
def imageVer (s : State) (h : Nat) : Nat := (s.byte (h + 6)).toNat
def imageRaise (s : State) (h : Nat) : Bool := bitAt (s.byte (h + 7)).toNat 0
def imageLen (s : State) (h : Nat) : Nat := (s.memWord (h + 8)).toNat
def imageBody (s : State) (h : Nat) : List Byte := s.bytes (h + 256) (imageLen s h)

/-- The message an image's signature covers. -/
def imageMessage (s : State) (h : Nat) : List Byte := s.bytes h 192 ++ imageBody s h

/-- The copied sections of an image: destination, offset in the body, length. -/
def imageSections (s : State) (h : Nat) : List (Nat × Nat × Nat) :=
  (List.range (s.byte (h + 16)).toNat).map (fun i =>
    let e := h + 24 + 12 * i
    ((s.memWord e).toNat, (s.memWord (e + 4)).toNat, (s.memWord (e + 8)).toNat))

/-- The memory R565 gives for a type's sections: first address and size; the Heldiog windows for type 6 (R240). -/
def typeMemory (ty : Nat) : Nat × Nat :=
  match ty with
  | 1 => (0x09030000, 0x4000) | 2 => (0x09000000, 0x8000) | 3 => (0x09010000, 0x8000) | 4 => (0x09020000, 0x4000)
  | 5 => (0x08000000, 0x80000) | 6 => (0x30000000, 0x38000) | _ => (0, 0)

/-- Whether a signer's slot is permitted for a type (R565). -/
def slotPermitted (ty slot : Nat) : Bool := if ty ≤ 4 then slot == 0 else decide (1 ≤ slot ∧ slot ≤ 4)

/-- Whether an image is valid (R566) under a key store. -/
def imageValid (s : State) (k : KeyStore) (b : Bool) (ty h : Nat) : Bool :=
  let (lo, size) := typeMemory ty
  decide (1 ≤ ty ∧ ty ≤ 7) && decide (h + 256 + imageLen s h ≤ bankBase b + bankSize)
    && s.bytes h 4 == [0x53, 0x56, 0x49, 0x4D] && (s.byte (h + 4)).toNat == ty
    && slotPermitted ty (imageSlot s h) && k.slot (imageSlot s h) == 1 && decide (k.ver ty ≤ imageVer s h)
    && decide ((s.byte (h + 16)).toNat ≤ 8)
    && (imageSections s h).all (fun x => decide (x.2.1 + x.2.2 ≤ imageLen s h) && decide (lo ≤ x.1 ∧ x.1 + x.2.2 ≤ lo + size))
    && sm2Verify (k.key (imageSlot s h)) (imageMessage s h) (BitVec.ofNat 512 (beValue (s.bytes (h + 192) 64)))

/-- The types that step 7 verifies: 1 to 4 in DELIVERED (R571), else every type; those among them a bank must hold (R563). -/
def verifiedTypes (k : KeyStore) : List Nat := if k.provisioned then [7, 1, 2, 3, 4, 5, 6] else [1, 2, 3, 4]

/-- A bank verified (R566): the key record first, then the others in ascending order; the key store that the key record leaves,
or none where the bank is invalid. -/
def verifyBank (s : State) (b : Bool) : Option KeyStore :=
  let l := (directory s b).getD []
  if (directory s b).isNone ∨ l.any (fun e => !decide (1 ≤ e.1 ∧ e.1 ≤ 7)) = true then none
  else
    (verifiedTypes s.keep.store).foldl (fun acc ty =>
      acc.bind (fun k =>
        match imageOf s b ty with
        | none => if ty = 7 then some k else none
        | some h =>
          if imageValid s k b ty h then
            if ty = 7 then k.applyAll (imageSlot s h) (imageBody s h) else some k
          else none)) (some s.keep.store)

/-- Whether a bank passes IMGCOMMIT's verification (R568): it holds every image the lifecycle requires, and every image in it is valid
(R566); no key record is applied. -/
def verifyCommit (s : State) (b : Bool) : Bool :=
  match directory s b with
  | none => false
  | some l =>
    ((verifiedTypes s.keep.store).filter (· != 7)).all (fun ty => l.any (fun e => e.1 == ty))
      && l.all (fun e => imageValid s s.keep.store b e.1 e.2)

/-- The copied sections of an image loaded. -/
def loadImage (h : Nat) (s : State) : State :=
  (imageSections s h).foldl (fun t x => t.setBytes x.1 (s.bytes (h + 256 + x.2.1) x.2.2)) s

/-- The types whose images a lane boots: those that step 7 verifies and the bank holds, but for the key record. -/
def bootedTypes (s : State) : List Nat := (verifiedTypes s.keep.store).filter (· != 7)

/-- Whether an address lies in the window of an engine that the USED mask names, outside its reserved words. -/
def inUsedWindow (used : BitVec 7) (a : Nat) : Bool :=
  decide (0x30000000 ≤ a ∧ a < 0x30038000) && decide (a % 0x8000 < 0x6100) && bitAt used.toNat ((a - 0x30000000) / 0x8000)

/-- The entry tables and programs of every engine cleared: K loads 0 into each of their words that the image does not load (R225). -/
def clearPrograms (s : State) : State :=
  { s with mem := s.mem.filter (fun c => !(decide (0x30000000 ≤ c.1 ∧ c.1 < 0x30038000) && decide (c.1 % 0x8000 < 0x3000))) }

/-- The words of the Heldiog image loaded into the windows of the engines in the USED mask (R240); coefficients and data keep copies of bit
19 above it (R17, R208). -/
def loadHeldiog (used : BitVec 7) (loads : List (Word × Word)) (s : State) : State :=
  loads.foldl (fun t w =>
    let a := w.1.toNat / 4 * 4
    if !inUsedWindow used a then t
    else if 0x3000 ≤ a % 0x8000 ∧ a % 0x8000 < 0x6000 then t.setMem20 a (w.2.setWidth 20)
    else t.setMemWord a w.2) (clearPrograms s)

/-- The words that the copied sections of a Heldiog image load (R564, R565). -/
def heldiogWords (s : State) (h : Nat) : List (Word × Word) :=
  (imageSections s h).flatMap (fun x => (List.range (x.2.2 / 4)).map (fun i =>
    (BitVec.ofNat 32 (x.1 + 4 * i), s.memWord (h + 256 + x.2.1 + 4 * i))))

/-- The logical engines that the Heldiog image of a bank uses (R240); none in DELIVERED, where it is not loaded (R571). -/
def usedEngines (s : State) (b : Bool) : BitVec 7 :=
  match (if s.keep.store.provisioned then imageOf s b 6 else none) with
  | some h => Config.heldiogUsed (imageBody s h)
  | none => 0

/-- Where K puts the Settings section: a page of the calibration area. -/
def settingsAddr : Nat := 0x1100C000 + 512 * (Config.settingsPage.toNat)

/-- An image of a type loaded as the bank of `s` holds it (R240, R564, R565): the sections copied, the entry address of the principal image
kept for the release of the pairs, the Settings section of the Heldiog image put into data NVM for the application. Of the areas of R651 that of
calibration alone may hold it; the page is open (log entry 30). -/
def loadType (s : State) (b : Bool) (t : State) (ty : Nat) : State :=
  match imageOf s b ty with
  | none => t
  | some h =>
    if ty = 6 then
      (loadHeldiog (usedEngines s b) (heldiogWords s h) t).setBytes settingsAddr
        ((Config.heldiogSettings (imageBody s h)).take (0x11010000 - settingsAddr))
    else if ty = 5 then (loadImage h t).modKeep (fun k => { k with entry := s.memWord (h + 12) })
    else loadImage h t

/-- Every image of a bank loaded. -/
def loadBank (b : Bool) (s : State) : State := (bootedTypes s).foldl (loadType s b) s

/-- Whether R241 refuses a port-table word: its write bit set, and its target neither shared SRAM nor a block that R74 opens to
H0 to H7 for writing. -/
def portRefused (w : Word × Word) : Bool :=
  let a := w.2.toNat / 4 * 4
  let inTable := decide (0x30000000 ≤ w.1.toNat ∧ w.1.toNat < 0x30038000 ∧ 0x6000 ≤ w.1.toNat % 0x8000 ∧ w.1.toNat % 0x8000 < 0x6100)
  let sram := decide (0x20000000 ≤ a ∧ a < 0x20300000)
  let block := isPeripheral a
  inTable && bitAt w.2.toNat 1 && !(sram || (block && (blockRights (blockOf a)).h == rBoth))

/-- Whether R241 refuses the Heldiog image of a bank. -/
def heldiogRefused (s : State) (b : Bool) : Bool :=
  s.keep.store.provisioned && (match imageOf s b 6 with | some h => (heldiogWords s h).any portRefused | none => false)

/-- The digests of every copied section of a bank (R554). -/
def sectionDigests (s : State) (b : Bool) : List (BitVec 256) :=
  (bootedTypes s).flatMap (fun ty =>
    match imageOf s b ty with
    | some h => (imageSections s h).map (fun x => sm3 (s.bytes (h + 256 + x.2.1) x.2.2))
    | none => [])

/-- Measurements 1 to 7 of the bank booted (R577). -/
def measureBank (b : Bool) (s : State) : State :=
  [1, 2, 3, 4, 5, 6, 7].foldl (fun t ty =>
    let img := if ty ∈ verifiedTypes s.keep.store then imageOf s b ty else none
    putMeasure ty (match img with
      | some h => digestBytes (sm3 (imageMessage s h))
      | none => List.replicate 32 0) t) s

/-! ## The boot record (R573, R575) -/

def copyBase (c : Bool) : Nat := if c then 0x11002000 else 0x11000000

/-- A boot-record page. -/
structure BootPage where
  gen : Nat
  cfgsel : Nat
  slot : Nat
  pref : Nat
  trial : Nat
  deriving DecidableEq, Repr

def pageAddr (c : Bool) (i : Nat) : Nat := copyBase c + 0x1200 + 512 * i

/-- The page at a place of a journal, where it is valid. -/
def readPage (s : State) (c : Bool) (i : Nat) : Option BootPage :=
  let l := s.bytes (pageAddr c i) 12
  if crc32 (l.take 8) = bytesAt l 8 4 then
    some ⟨bytesAt l 0 4, bytesAt l 4 1, bytesAt l 5 1, bytesAt l 6 1, bytesAt l 7 1⟩
  else none

/-- A page's bytes. -/
def BootPage.bytes (p : BootPage) : List Byte :=
  let l := leBytes 4 p.gen ++ [BitVec.ofNat 8 p.cfgsel, BitVec.ofNat 8 p.slot, BitVec.ofNat 8 p.pref, BitVec.ofNat 8 p.trial]
  l ++ leBytes 4 (crc32 l)

/-- The record in force: the valid page with the highest generation in either copy, with its copy and place. -/
def recordInForce (s : State) : Option (Bool × Nat × BootPage) :=
  ([false, true].flatMap (fun c => (List.range 7).map (fun i => (c, i)))).foldl (fun acc x =>
    match readPage s x.1 x.2, acc with
    | some p, some q => if q.2.2.gen < p.gen then some (x.1, x.2, p) else acc
    | some p, none => some (x.1, x.2, p)
    | none, _ => acc) none

/-- The record's fields; those of a part as made where no page is valid. -/
def bootRecord (s : State) : BootPage := ((recordInForce s).map (·.2.2)).getD ⟨0, 0, 0, 0, 0⟩

/-- KEEP_BOOT's fields from the record. -/
def showBoot (s : State) : State :=
  let p := bootRecord s
  ((s.put F.KEEP_BOOT_PREF p.pref).put F.KEEP_BOOT_TRIAL p.trial).put F.KEEP_BOOT_CFGSEL p.cfgsel
    |>.put F.KEEP_BOOT_SEALSLOT p.slot

/-- A page written, naming the copy that holds it. -/
def writePage (c : Bool) (i : Nat) (p : BootPage) (s : State) : State :=
  s.setBytes (pageAddr c i) { p with cfgsel := c.toNat }.bytes

/-- A change of the record by the next free page, or by a rollover into the other copy (R575). -/
def changeRecord (f : BootPage → BootPage) (s : State) : State :=
  match recordInForce s with
  | none => showBoot (writePage false 0 (f ⟨1, 0, 0, 0, 0⟩) s)
  | some (c, i, p) =>
    let q := { f p with gen := (p.gen + 1) % 2 ^ 32 }
    if i + 1 < 7 then showBoot (writePage c (i + 1) q s)
    else
      let held := s.bytes (copyBase c) 0x1140
      let s := (nvmErase (copyBase !c) s).setBytes (copyBase !c) held
      showBoot ((writePage (!c) 0 q s).modKeep (fun k => { k with staged := false }))

/-! ## The configuration block and its seal (R449, R450, R574) -/

/-- The number of entries that a copy's header gives. -/
def blockEntries (s : State) (c : Bool) : Nat := leValue (s.bytes (copyBase c + 2) 2)

/-- Whether a copy's header is valid under R449. -/
def blockHeaderOk (s : State) (c : Bool) : Bool :=
  leValue (s.bytes (copyBase c) 2) == 1 && decide (1 ≤ blockEntries s c ∧ blockEntries s c ≤ 512)

/-- The block of a copy. -/
def blockBytes (s : State) (c : Bool) : List Byte := s.bytes (copyBase c) (8 + 8 * blockEntries s c)

/-- The digest a seal covers (R450). -/
def sealDigest (s : State) (c : Bool) : BitVec 256 :=
  sm3 (leBytes 2 (s.get F.SEAL_STRAP_WORD) ++ blockBytes s c)

/-- The first of the slots under which a seal verifies over a copy's block. -/
def sealSlot (s : State) (c : Bool) (sig : List Byte) (slots : List Nat) : Option Nat :=
  slots.find? (fun k => s.keep.store.slot k == 1 &&
    sm2Verify (s.keep.store.key k) (digestBytes (sealDigest s c)) (BitVec.ofNat 512 (beValue sig)))

/-- The registers that hold an RWS field. -/
def rwsRegs : List Nat :=
  ((List.range 33).flatMap (fun k => ((blockRows k).filter (fun r => r.acc == .rws)).flatMap (fun r =>
    (List.range r.n).map (fun i => 0x40000000 + 0x1000 * k + r.off + r.stride * i)))).eraseDups

/-- The RWS bits of a register's word. -/
def rwsBits (addr : Nat) (v : Word) : Word :=
  ((rowsAt addr).filter (fun r => r.acc == .rws)).foldl (fun acc r => r.into acc (r.of v)) 0

/-- The value a block names for a register; the reset value where it names none. -/
def expectedWord (s : State) (c : Bool) (addr : Nat) : Word :=
  let l := (List.range (blockEntries s c)).filterMap (fun i =>
    let e := copyBase c + 8 + 8 * i
    if (s.memWord e).toNat = addr then some (s.memWord (e + 4)) else none)
  l.getLast?.getD (resetWord addr)

/-- The first register whose RWS bits disagree in the readback (R451). A driver-die register answers none while its link is lost. -/
def readbackFails (s : State) (c : Bool) : Option Nat :=
  rwsRegs.find? (fun a => (onDriverDie a && s.sys.linkLost) || rwsBits a (s.rd a) != rwsBits a (expectedWord s c a))

/-! ## The repair ledger (R620, R621) -/

def ledgerBase : Nat := 0x11008000

/-- The entries in the ledger: those before the first erased one. -/
def ledgerCount (s : State) : Nat :=
  ((List.range 512).takeWhile (fun i => s.bytes (ledgerBase + 32 * i) 4 != [0xFF, 0xFF, 0xFF, 0xFF])).length

/-- An entry added, the 512th making the ledger full (R621), its location from the numbers of what was repaired (R620); a full ledger takes none, and G's record of it carries 0xFFFF
for the index (R617, R621). -/
def ledgerAdd (kind origin : Nat) (place : List Nat) (s : State) : State :=
  let n := ledgerCount s
  if 512 ≤ n then ownRecord 4 [0xFFFF] none (s.put F.BKG_STAT_FULL 1)
  else
    let e := leBytes 2 n ++ [BitVec.ofNat 8 kind, BitVec.ofNat 8 origin] ++ leBytes 4 s.keep.store.coldCount
      ++ leBytes 4 (Config.ledgerLocation kind place).toNat ++ List.replicate 20 0
    ownRecord 4 [n] none (((s.setBytes (ledgerBase + 32 * n) e).put F.BKG_LEDGER_NENT (n + 1)).putB F.BKG_STAT_FULL (decide (512 ≤ n + 1)))

/-! ## The telemetry ring (R614, R619) -/

/-- The RSEQ that follows (R614). -/
def nextSeq (r : Nat) : Nat := if r = 0xFFFFFFFE then 0 else r + 1

/-- G goes on with the ring where it stands (R619): the next RSEQ after the newest record, the last one committed, the next page. -/
def restoreReel (s : State) : State :=
  match s.bkg.ring with
  | none => s.put F.BKG_RSEQ_RSEQ (match s.bkg.waiting.getLast? with | some q => nextSeq q | none => 0)
  | some (q, w) =>
    ((s.put F.BKG_RSEQ_RSEQ (nextSeq (s.bkg.waiting.getLast?.getD q))).put F.BKG_COMMIT_RSEQ q).put F.BKG_RING_WPTR w

end Sys2Proof.Machine
end

