-- ==== Sys2Proof/Machine/Bkg.lean ====
section
/-!
DEFINITION. Background services (chapter 19): scrubbing and the error record, margin reads, calibration in idle windows, the wear
counters' mirror, journal and snapshots, and the telemetry reel.
-/
namespace Sys2Proof.Machine

/-! ## Error records (R68, R69, R608) -/

def inSram (a : Nat) : Bool := decide (0x20000000 ≤ a ∧ a < 0x20300000)
def inRetention (a : Nat) : Bool := decide (0x21000000 ≤ a ∧ a < 0x21010000)

/-- A corrected error (R68): counted; a third correction of one SRAM word within a pass marks its row (R608). -/
def errorCorrected (a : Nat) (s : State) : State :=
  let s := s.count F.BKG_CECNT_CECNT F.BKG_CECNT_CEOVF
  if inSram a then
    let w := a / 4
    let n := Tab.get (fun _ => 0) s.bkg.corrected w + 1
    let s := s.modBkg (fun b => { b with corrected := Tab.put (fun _ => 0) b.corrected w n })
    if n = 3 then ledgerAdd 1 2 [sramMacro (4 * w), Config.macroRow (sramWord (4 * w))] (s.modBkg (fun b => { b with rows := w :: b.rows })) else s
  else s

/-- The bank of an SRAM address, A[7:5], and the number of its word within the bank. -/
def scrubBank (a : Nat) : Fin 8 := ⟨a / 32 % 8, Nat.mod_lt _ (by decide)⟩
def scrubIndex (a : Nat) : Nat := (a - 0x20000000) / 256 * 8 + a / 4 % 8

/-- Whether a word is the scrubber's next: of its SRAM bank, or of retention RAM (R607; in turn is taken as by ascending address, log entry
104). -/
def scrubTurn (s : State) (a : Nat) : Bool :=
  (inSram a && s.bkg.scrub[scrubBank a] == scrubIndex a) || (inRetention a && s.bkg.scrubRet == (a - 0x21000000) / 4)

/-- The scrubber goes on to the next word. With the last word of all eight banks a pass of shared SRAM ends, whose duration the model
leaves free within its bound. -/
def scrubNext (a : Nat) (s : State) : State :=
  if inRetention a then s.modBkg (fun b => { b with scrubRet := (b.scrubRet + 1) % 16384 })
  else
    let s := s.modBkg (fun b => { b with scrub := b.scrub.set (scrubBank a) (scrubIndex a + 1) })
    if s.bkg.scrub.toList.all (fun n => decide (98304 ≤ n)) then
      let s := (s.inc F.BKG_SCRUB_PASSES).put F.BKG_SCRUB_LASTMS (s.free.toNat % 2001)
      s.drew.modBkg (fun b => { b with corrected := [], scrub := Vector.replicate 8 0 })
    else s

/-- One scrubber read (R607) of the word whose turn it is. -/
def scrubbed (word : Nat) (found : EccFinding) (s : State) : State :=
  if scrubTurn s word && issues s .scrubber then
    scrubNext word (match found with
      | .clean => s
      | .single => errorCorrected word s
      | .uncorrectable => errorRecorded .scrubber word s)
  else s

/-- Weak code NVM sectors recorded for the next cold start (R609). -/
def sectorsWeak (l : List (Fin 1536)) (s : State) : State :=
  let s := s.modKeep (fun k => { k with weak := k.weak ++ (l.filter (fun x => !k.weak.elem x)).eraseDups })
  s.put F.BKG_WEAK_NWEAK s.keep.weak.length

/-! ## Calibration (R610, R611) -/

/-- Calibration requested of each bridge in use. -/
def calibrateAll (s : State) : State :=
  let s := if bridgeUsed s 0 then calRequest 0 s else s
  if bridgeUsed s 1 then calRequest 1 s else s

/-- The in-line current of a phase in a result set (R611): that of phase 3 is the I3 result. -/
def PhaseSet.current (p : PhaseSet) (leg : Nat) : Nat := (match leg with | 0 => p.i1 | 1 => p.i2 | _ => p.i3).natAbs

/-- The ratio errors of a switch in the last second (R611): its sense current as trimmed, in the units of the results, sampled at the centres of
sample windows, against the in-line current of its phase at the same tick, where that exceeds 1/8 of full scale. Both are taken as magnitudes
(DEDUCED, log entry 104). -/
def senseErrors (s : State) (b : Bridge) (j : Switch) (centres : List Nat) (sensed : List Int) : List Rat :=
  (centres.zip sensed).filterMap (fun x =>
    (s.bkg.inline[b.val].find? (fun p => p.at_ == x.1 && decide (s.tick < p.at_ + 200000000))).bind (fun p =>
      let i := p.current (legOf j)
      if 65536 < i then some (((x.2.natAbs : Int) - i : Rat) / i) else none))

/-- A sense-ratio trim (R611): with at least 1000 samples, a mean ratio error over 1/256 moves the trim by one unit against it. -/
def senseTrim (b : Bridge) (j : Switch) (centres : List Nat) (sensed : List Int) (s : State) : State :=
  let l := senseErrors s b j centres sensed
  let sum := l.sum
  if l.length < 1000 ∨ 256 * sum.abs ≤ l.length then s
  else
    let t := s.getS (F.GD_SNSTRIM_TRIM b j) - (if sum < 0 then -1 else 1)
    driverAccess true (setTrim b j t) s

/-! ## The wear counters (R612, R613) -/

/-- The running values mirrored; a change since the last journal record goes into the reel. -/
def counterMirror (s : State) : State :=
  let s := if s.bkg.changed then ownRecord 5 (s.bkg.wear.flatMap (fun e => [e.1, e.2])) (some s.bkg.wear) (s.modBkg (fun b => { b with changed := false })) else s
  s.modBkg (fun b => { b with mirror := some b.wear, mirrorOvf := b.wearOvf })

/-- A full snapshot, into the copy that is not in force. The journal records entered before it that still wait hold nothing that it
does not: they no longer count. -/
def counterSnapshot (s : State) : State :=
  let q0 := (s.bkg.snap0.map (·.seq)).getD 0
  let q1 := (s.bkg.snap1.map (·.seq)).getD 0
  let first := decide (q0 ≤ q1)
  let s := nvmErase (if first then 0x11004000 else 0x11006000) s
  let snap : Snapshot := ⟨max q0 q1 + 1, s.bkg.wear⟩
  s.modBkg (fun b => { b with
    snap0 := if first then some snap else b.snap0, snap1 := if first then b.snap1 else some snap
    durable := b.wear, journals := [], inReel := [], own := b.own.map (fun r => { r with wear := none }) })

/-! ## The reel (R614 to R619) -/

/-- A record's place in the reel. -/
def reelSlot (s : State) (seq : Nat) : Nat := 0x20000000 + s.get F.BKG_REELBASE_ADDR + 32 * (seq % 4096)

/-- Whether the next record's place holds no record that is not yet committed (R618). -/
def reelFree (s : State) : Bool := s.bkg.waiting.all (fun q => q % 4096 != s.get F.BKG_RSEQ_RSEQ % 4096)

/-- A record put into the reel with its RSEQ, UPTIME and SRC; one that would overwrite a record not yet committed is lost
(R618), and the changes of a counter journal lost so are to be entered again (R613, R622). -/
def reelPut (src : Nat) (rec : List Byte) (wear : Option (Tab Nat)) (s : State) : State :=
  if !reelFree s then
    (s.count F.BKG_LOST_LOSTREC F.BKG_LOST_LOSTOVF).modBkg (fun b => { b with lost := b.lost + 1, changed := b.changed || wear.isSome })
  else
    let seq := s.get F.BKG_RSEQ_RSEQ
    let s := s.setBytes (reelSlot s seq) (leBytes 4 seq ++ leBytes 5 s.time.uptime ++ [BitVec.ofNat 8 src] ++ rec)
    (s.put F.BKG_RSEQ_RSEQ (nextSeq seq)).modBkg (fun b => { b with
      waiting := b.waiting ++ [seq]
      inReel := match wear with | some w => b.inReel ++ [(seq, w)] | none => b.inReel })

/-- Every submitted slot of a queue moved. -/
def moveQueue (q : Nat) (s : State) : State :=
  let base := queueBase s q
  let tail := (s.memWord (base + 4)).toNat
  let n := min 16 (((s.memWord base).toNat + 2 ^ 32 - tail) % 2 ^ 32)
  (List.range n).foldl (fun s i =>
    let slot := base + 0x40 + 32 * ((tail + i) % 16)
    let s := reelPut (if q = 5 then 6 else q) (s.bytes (slot + 10) 22) none s
    s.setMemWord (base + 4) (BitVec.ofNat 32 (tail + i + 1))) s

/-- G's own record as the reel holds it: TYPE, network time where it has been stepped, its values in the data bytes (log entry 29). -/
def ownBytes (s : State) (r : OwnRec) : List Byte :=
  let time := if s.on F.TIME_STAT_STEPPED then leBytes 4 s.time.sec.toNat ++ leBytes 4 (s.get F.TIME_NS_NS)
    else List.replicate 8 0xFF
  leBytes 2 r.type ++ time ++ leBytes 12 (Config.recordData r.type r.content).toNat

/-- G's own records moved. -/
def moveOwn (s : State) : State :=
  let l := s.bkg.own
  l.foldl (fun s r => reelPut 5 (ownBytes s r) r.wear s) (s.modBkg (fun b => { b with own := [] }))

/-- Every 100 µs (R616): a record of losses once space is free (R618), the queues in order, then G's own records. -/
def reelMove (s : State) : State :=
  let s := if s.bkg.lost ≠ 0 ∧ reelFree s = true then
    reelPut 5 (ownBytes s ⟨7, [s.bkg.lost], none⟩) none (s.modBkg (fun b => { b with lost := 0 })) else s
  moveOwn ((List.range 6).foldl (fun s q => moveQueue q s) s)

/-- Bytes the spec leaves open: `n` of them from the free values. -/
def freeBytes : Nat → State → List Byte × State
  | 0, s => ([], s)
  | n + 1, s =>
    let (l, t) := freeBytes n s.drew
    (leBytes 8 s.free.toNat ++ l, t)

/-- A padding record: RSEQ 0xFFFF_FFFF and TYPE 0, the other bytes open (R614). -/
def padding (s : State) : List Byte × State :=
  let (l, t) := freeBytes 4 s
  ([0xFF, 0xFF, 0xFF, 0xFF] ++ l.take 6 ++ [0, 0] ++ (l.drop 6).take 20, t)

/-- Padding records appended until a page's 16 are there. -/
def padPage : Nat → List Byte × State → List Byte × State
  | 0, x => x
  | n + 1, (l, s) => let (p, t) := padding s; padPage n (l ++ p, t)

/-- The write pointer of the ring moved on past a page: before it enters a sector, that sector is erased, after a snapshot where it holds a
journal record newer than the last (R613, R619). -/
def ringAdvance (w : Nat) (s : State) : State :=
  let w' := if w + 512 = 0x100000 then 0x10000 else w + 512
  let s :=
    if w' % 0x2000 = 0 then
      nvmErase (0x11000000 + w') (if s.bkg.journals.any (fun o => o / 0x2000 == w' / 0x2000) then counterSnapshot s else s)
    else s
  s.put F.BKG_RING_WPTR w'

/-- The waiting records' oldest page committed (R619). -/
def reelCommit (s : State) : State :=
  let page := s.bkg.waiting.take 16
  match page.getLast? with
  | none => s
  | some last =>
    let w := s.get F.BKG_RING_WPTR
    let recs := page.flatMap (fun q => s.bytes (reelSlot s q) 32)
    let (l, s) := padPage (16 - page.length) (recs, s)
    let s := s.setBytes (0x11000000 + w) l
    let done := s.bkg.inReel.filter (fun x => page.elem x.1)
    let s := ringAdvance w ((s.put F.BKG_COMMIT_RSEQ last).modBkg (fun b => { b with
      waiting := b.waiting.drop 16, inReel := b.inReel.filter (fun x => !page.elem x.1)
      durable := match done.getLast? with | some x => x.2 | none => b.durable
      journals := if done.isEmpty then b.journals else w :: b.journals }))
    s.modBkg (fun b => { b with ring := some (last, s.get F.BKG_RING_WPTR) })

/-- Every waiting record committed, as before DEEP entry (R619). -/
def commitAll (s : State) : State := (List.range ((s.bkg.waiting.length + 15) / 16)).foldl (fun s _ => reelCommit s) s

/-! ## Commands -/

/-- SCRUB_READ (R607). -/
def execScrubRead (word : Word) (found : EccFinding) (s : State) : Out := .next (scrubbed word.toNat found s)
/-- DATA_NVM_MARGIN_PASS (R609): a weak page is rewritten with what it holds. -/
def execDataNvmMarginPass (weakPages : List (Fin 2048)) (s : State) : Out :=
  .next (s.when (issues s .g) (fun s =>
    weakPages.foldl (fun s p => s.setBytes (0x11000000 + 512 * p.val) (s.bytes (0x11000000 + 512 * p.val) 512)) s))
/-- CODE_NVM_MARGIN_PASS (R609). -/
def execCodeNvmMarginPass (weakSectors : List (Fin 1536)) (s : State) : Out :=
  .next (s.when (issues s .g) (sectorsWeak weakSectors))
/-- CALIBRATION_PERIOD (R610). -/
def execCalibrationPeriod (s : State) : Out := clockedOut s <| .next (calibrateAll s)
/-- CALIBRATION_RETRY (R610). -/
def execCalibrationRetry (b : Bridge) (s : State) : Out :=
  clockedOut s <| .next (if bitAt s.bkg.retry.toNat b then calRequest b s else s)
/-- SENSE_TRIM_UPDATE (R611). -/
def execSenseTrimUpdate (b : Bridge) (j : Switch) (centres : List Nat) (sensed : List Int) (s : State) : Out :=
  .next (s.when (issues s .g) (senseTrim b j centres sensed))
/-- COUNTER_MIRROR (R613). -/
def execCounterMirror (s : State) : Out := .next (s.when (issues s .g) counterMirror)
/-- COUNTER_SNAPSHOT (R613). -/
def execCounterSnapshot (s : State) : Out := .next (s.when (issues s .g) counterSnapshot)
/-- REEL_SUBMIT (R615). -/
def execReelSubmit (q : Fin 6) (rec : List Byte) (s : State) : Out := .next (reelSubmit q.val rec s)
/-- REEL_MOVE (R616). -/
def execReelMove (s : State) : Out := .next (s.when (issues s .g) reelMove)
/-- REEL_COMMIT (R619). -/
def execReelCommit (s : State) : Out := .next (s.when (issues s .g) reelCommit)

end Sys2Proof.Machine
end

