-- ==== Sys2Proof/Machine/Position.lean ====
section
/-!
DEFINITION. Position and speed feedback (chapter 05): the sine/cosine, ABZ and Hall interfaces, SENT, failover, the borrowed
source, compare units and encoder emulation, and their commands.
-/
namespace Sys2Proof.Machine

/-! ## Validity and failover (R167 to R169) -/

/-- The validity bit, the enable bit and the SRC code of an interface of a POS block (0 sine/cosine, 1 ABZ, 2 Hall). -/
def ifaceVal (k : PosBlk) (i : Fin 3) : Fld :=
  match i with | 0 => F.POS_STAT_SCVAL k | 1 => F.POS_STAT_ABZVAL k | 2 => F.POS_STAT_HALLVAL k
def ifaceEn (k : PosBlk) (i : Fin 3) : Fld :=
  match i with | 0 => F.POS_CTRL_SC_EN k | 1 => F.POS_CTRL_ABZ_EN k | 2 => F.POS_CTRL_HALL_EN k
def ifaceSrc (k : PosBlk) (i : Fin 3) : Nat := 1 + 3 * k.val + i.val

/-- The interface MECHSRC selects. -/
def mechSrc (s : State) (k : PosBlk) : Nat := s.get (F.POS_CTRL_MECHSRC k)

/-- The source of EMU: its mechanical angle, none where it is invalid. -/
def emuSource (s : State) : Option Nat :=
  match s.get F.EMU_CTRL_SRC with
  | 0 => if s.on (F.POS_STAT_MTVALID 0) then some (s.get (F.POS_MECH_MECH 0)) else none
  | 1 => if s.on (F.POS_STAT_MTVALID 1) then some (s.get (F.POS_MECH_MECH 1)) else none
  | 6 => if s.on (F.POS_BORROW_BVALID 0) then some s.borrow.mech else none
  | k => if 2 ≤ k ∧ k ≤ 5 ∧ s.on (F.SENT_STAT_VALID (k - 2)) = true then some (s.get (F.SENT_MECH_MECH (k - 2))) else none

/-- The lines for an output count after an edge in this tick; DIRINV reverses the direction. -/
def emuLines (s : State) (e : Nat) : Emu :=
  let q := e % 4
  let up := if s.on F.EMU_CTRL_DIRINV then (4 - q) % 4 else q
  { a := up == 1 || up == 2, b := up == 2 || up == 3, z := e == s.get F.EMU_ZPOS_ZPOS, edge := some s.tick }

/-- Whether EMU's source is valid. -/
def emuValid (s : State) : Bool := (emuSource s).isSome

/-- The three outputs low with EN = 0. E_o keeps its count, and after EN = 1 the lines stay low until the next step: the spec says neither
(DESIGN CHOICE, log entry 92). -/
def emuLow (s : State) : State := { s.put F.EMU_STAT_RUN 0 with emu := { s.emu with a := false, b := false, z := false } }

/-- EMU follows a change of its registers or of its source's validity, which was `was` before (R177, R178): with a source FROZEN
is clear, and EMUZ shows E_o at ZPOS while EN is 1; a source that becomes invalid, or EN = 1 without one, freezes the outputs with EMUZ
low. -/
def emuFollow (was : Bool) (s : State) : State :=
  let on := s.on F.EMU_CTRL_EN
  match emuSource s with
  | none => { (s.put F.EMU_STAT_RUN 0).when (was || on) (fun s => s.put F.EMU_STAT_FROZEN 1) with emu := { s.emu with z := false } }
  | some _ =>
    { (s.putB F.EMU_STAT_RUN on).put F.EMU_STAT_FROZEN 0 with
      emu := { s.emu with z := on && s.get F.EMU_STAT_OUTCNT == s.get F.EMU_ZPOS_ZPOS } }

/-- MTVALID shows the validity of the MECHSRC interface, and EMU follows it. -/
def showMtValid (k : PosBlk) (s : State) : State :=
  emuFollow (emuValid s) <| s.putB (F.POS_STAT_MTVALID k) (sourceValid s (1 + 3 * k.val + mechSrc s k))

/-- The entries of POS0_FO in order. -/
def foEntries (s : State) : List Nat :=
  [s.get (F.POS_FO_ENTRY0 0), s.get (F.POS_FO_ENTRY1 0), s.get (F.POS_FO_ENTRY2 0), s.get (F.POS_FO_ENTRY3 0)]

/-- The failover unit (R169) when the source with code `src` has become invalid; the set's state follows (R53). -/
def failover (src : Nat) (s : State) : State :=
  if s.on (F.POS_FO_AUTO 0) ∧ s.get (F.ANG_CTRL_SRC 0) = src then
    match (foEntries s).find? (fun e => e != 0 && sourceValid s e) with
    | some e =>
      let both := s.get (F.ANG_CTRL_SRC 1) == src && !s.on (F.ANG_CTRL_FOLLOW 1)
      let s := setSource 0 e s
      let s := if both then setSource 1 e s else s
      judgeSet (s.put (F.POS_FO_SWITCHED 0) 1)
    | none => mcAllLost 1 (mcAllLost 0 (judgeSet (s.put (F.POS_FO_ALLLOST 0) 1)))
  else s

/-! ## MECH, TURNS and MT (R139) -/

/-- An output line set, cleared, toggled or pulsed (R126, R173): the new level, and whether a pulse runs that restores the
other level. -/
def lineOp (op : Nat) (level : Bool) : Bool × Bool :=
  match op with | 0 => (true, false) | 1 => (false, false) | 2 => (!level, false) | _ => (!level, true)

/-- The output of compare unit `j` of a block acts. -/
def compareOut (k : PosBlk) (j : Fin 2) (s : State) : State :=
  let p := s.pos[k.val]
  let level := if p.pulse[j.val].isSome then bitAt p.restore.toNat j else s.on (F.POS_CMPSTAT_LEVEL k j)
  let (lv, pulse) := lineOp (s.get (F.POS_CMPCTRL_OP k j)) level
  (s.putB (F.POS_CMPSTAT_LEVEL k j) lv).modPos k (fun p => { p with
    pulse := p.pulse.set j.val (if pulse then some (s.tick + 10) else none) j.isLt
    restore := BitVec.ofNat 2 (withBit p.restore.toNat j level) })

/-- The value a compare unit judges by: in the cycle of a write of VAL still the old one (R175). -/
def compareVal (s : State) (k : PosBlk) (j : Fin 2) : Nat :=
  match s.pos[k.val].cmpOld[j.val] with
  | some (t, v) => if t = s.tick then v else s.get (F.POS_CMPVAL_VAL k j)
  | none => s.get (F.POS_CMPVAL_VAL k j)

/-- A write of CMPjVAL (R175): the value before the cycle's first write stays in use in this cycle. -/
def compareValWrite (k : PosBlk) (j : Fin 2) (v : Word) (s : State) : State :=
  let old := compareVal s k j
  regWriteWith (0x40006074 + 0x1000 * k.val + 0x10 * j.val) v (fun t =>
    t.modPos k (fun p => { p with cmpOld := p.cmpOld.set j.val (some (t.tick, old)) j.isLt })) s

/-- A compare unit judges a move of MT (R173, R174). -/
def compareMove (k : PosBlk) (m0 m1 : Nat) (s : State) (j : Fin 2) : State :=
  let d := circDiff 32 m1 m0
  let val := compareVal s k j
  let dir := s.get (F.POS_CMPCTRL_DIR k j)
  let fwd := crossesFwd 32 m0 val d && bitAt dir 0
  let rev := crossesRev 32 m0 val d && bitAt dir 1
  if s.on (F.POS_CMPCTRL_EN k j) && (fwd || rev) then
    let spc := max 1 (s.get (F.POS_CMPSPC_SPC k j))
    let gap := if fwd then ofSigned 32 ((val : Int) - m0) else ofSigned 32 ((m0 : Int) - val)
    let extra := (d.natAbs - gap) / spc
    let step : Int := ((extra + 1) * spc : Nat)
    let s := (compareOut k j s).put (F.POS_CMPSTAT_HIT k j) 1
    let s := s.when (s.on (F.POS_CMPCTRL_IRQ k j)) (fun s => s.raise (.compareHit ⟨2 * k.val + j.val, by omega⟩))
    let s := s.put (F.POS_CMPVAL_VAL k j) (ofSigned 32 ((val : Int) + (if fwd then step else -step)))
    let s := s.modPos k (fun p => { p with cmpOld := p.cmpOld.set j.val none j.isLt })
    s.countN (F.POS_CMPSTAT_MISS k j) (F.POS_CMPSTAT_MISSOVF k j) extra
  else s

/-- MT set from TURNS and MECH, and the compare units told (R139, R173). -/
def updateMt (k : PosBlk) (s : State) : State :=
  let m0 := s.get (F.POS_MT_MT k)
  let m1 := (s.pos[k.val].turns * 65536 + s.get (F.POS_MECH_MECH k) / 256) % 2 ^ 32
  if m0 = m1 then s else (List.finRange 2).foldl (compareMove k m0 m1) (s.put (F.POS_MT_MT k) m1)

/-- TURNS moved by a carry, with WRAP. -/
def carryTurns (k : PosBlk) (carry : Int) (s : State) : State :=
  let t := (s.pos[k.val].turns : Int) + carry
  let s := s.when (decide (t < 0 ∨ 65535 < t)) (fun s => s.put (F.POS_STAT_WRAP k) 1)
  s.modPos k (fun p => { p with turns := ofSigned 16 t })

/-- The carry of a move between two mechanical angles in a direction. -/
def turnCarry (old new : Nat) (dir : Int) : Int :=
  if 0 < dir ∧ new < old then 1 else if dir < 0 ∧ old < new then -1 else 0

/-- The MECHSRC interface reports: MECH, TURNS, MT, speed and its marks. Until it first does after MECHSRC is written, MECH, SPEED and
the marks stay those of the interface before, which the BEAT sends together (log entry 92). -/
def mechReport (k : PosBlk) (mech : Nat) (carry : Int) (rate : Int) (lowConf : Bool) (ts : Nat) (s : State) : State :=
  let s := (carryTurns k carry s).put (F.POS_MECH_MECH k) mech
  let s := (s.putS (F.POS_SPEED_SPEED k) rate).modPos k (fun p => { p with ts := ts, from_ := mechSrc s k })
  updateMt k ((s.putB (F.POS_STAT_SPDVALID k) (rate ≠ 0)).putB (F.POS_STAT_LOWCONF k) lowConf)

/-- The speed of the MECHSRC interface alone. -/
def speedReport (k : PosBlk) (rate : Int) (lowConf : Bool) (s : State) : State :=
  ((s.putS (F.POS_SPEED_SPEED k) rate).putB (F.POS_STAT_SPDVALID k) (rate ≠ 0)).putB (F.POS_STAT_LOWCONF k) lowConf

/-- The electrical angle of R140. -/
def elecAngle (mech pp eofs : Nat) : Nat := (mech * pp % 2 ^ 24 / 16 + eofs) % 2 ^ 20

/-- Pole pairs of a block. -/
def polePairs (s : State) (k : PosBlk) : Nat := s.get (F.POS_CTRL_PP k) + 1

/-- A saturating counter of the block with bit `j` of ERROVF. -/
def posCount (k : PosBlk) (f : Fld) (j : Nat) (s : State) : State := s.countBit f (F.POS_ERROVF_OVF k) j

/-- An interface becomes invalid: it delivers nothing until REVAL (R168), and the failover unit is told. One that waits for its
first good sample goes on waiting (log entry 15). -/
def ifaceInvalid (k : PosBlk) (i : Fin 3) (s : State) : State :=
  let was := s.on (ifaceVal k i)
  let s := showMtValid k (s.put (ifaceVal k i) 0)
  if was then failover (ifaceSrc k i) s else s

/-! ## Edge interfaces: ABZ and Hall -/

/-- The edge state of an interface, and the interface's index. -/
def edgeOf (s : State) (k : PosBlk) : EdgeIface → EdgeState
  | .abz => s.pos[k.val].abz
  | .hall => s.pos[k.val].hall
def edgeIdx : EdgeIface → Fin 3
  | .abz => 1 | .hall => 2

def modEdge (k : PosBlk) (i : EdgeIface) (f : EdgeState → EdgeState) (s : State) : State :=
  s.modPos k (fun p => match i with
    | .abz => { p with abz := f p.abz }
    | .hall => { p with hall := f p.hall })

/-- Counts per mechanical revolution (R138). -/
def cprOf (s : State) (k : PosBlk) : EdgeIface → Nat
  | .abz => 4 * (s.get (F.POS_ABZCFG_LINES k) + 1)
  | .hall => 6 * polePairs s k

/-- The reported count (R152) of a count and a direction. -/
def reported (cpr : Nat) (ci : Int) (dir : Option Bool) : Nat :=
  ((if dir = some false then ci + 1 else ci) % (cpr : Int)).toNat

/-- The mechanical angle of a reported count (R149). -/
def edgeMech (cpr cr : Nat) : Nat := if cpr = 0 then 0 else cr * 2 ^ 24 / cpr

/-- The speed of `n` counts in `span` ticks, to the nearest RATE unit (R161; the worked example rounds so). -/
def edgeSpeed (s : State) (k : PosBlk) (i : EdgeIface) (n span : Nat) : Int :=
  match i with
  | .abz => roundDiv (n * 2 ^ 36 * polePairs s k : Nat) (cprOf s k .abz * span : Nat)
  | .hall => roundDiv (n * 2 ^ 36 : Nat) (6 * span : Nat)

/-- tEDGE_MIN in ticks (R150). -/
def edgeMin (s : State) (k : PosBlk) : Nat := 2 * s.get (F.POS_ABZCFG_TEDGE k)

/-- The Hall sector of a line code (R155), negated under DIRINV (log entry 15). -/
def hallSector (s : State) (k : PosBlk) (lines : Nat) : Option Nat :=
  let code := lines ^^^ s.get (F.POS_HALL_HALL_INV k)
  let sec := match code with
    | 1 => some 0 | 3 => some 1 | 2 => some 2 | 6 => some 3 | 4 => some 4 | 5 => some 5 | _ => none
  if s.on (F.POS_CTRL_DIRINV k) then sec.map (fun x => 5 - x) else sec

/-- The boundary angle B_k (R157). -/
def hallBoundary (s : State) (k : PosBlk) (sec : Nat) : Nat :=
  let o := match sec with | 0 => 0 | 1 => 174763 | 2 => 349525 | 3 => 524288 | 4 => 699051 | _ => 873813
  (s.get (F.POS_HALL_HALL_OFS k) + o) % 2 ^ 20

/-- An edge interface delivers its angle with its speed (R140, R168): to the block where it is the MECHSRC, and to ANG. -/
def edgeDeliver (k : PosBlk) (i : EdgeIface) (ts : Nat) (s : State) : State :=
  let e := edgeOf s k i
  if s.on (ifaceVal k (edgeIdx i)) then
    deliver { src := ifaceSrc k (edgeIdx i), theta := e.theta, ts := ts, rate := e.speed, zero := e.speed == 0, lowConf := e.lowConf } s
  else s

/-- The counts, angle and MECH after the count of an interface has moved in direction `dir`, from an old reported count. -/
def edgeMoved (k : PosBlk) (i : EdgeIface) (old : Nat) (dir : Int) (theta : Option Nat) (ts : Nat) (s : State) : State :=
  let cpr := cprOf s k i
  let e := edgeOf s k i
  let cr := reported cpr e.ci e.dir
  let mech := edgeMech cpr cr
  let th := theta.getD (elecAngle mech (polePairs s k) (s.get (F.POS_EOFSABZ_EOFS k)))
  let s := modEdge k i (fun e => { e with theta := th }) s
  let s := match i with | .abz => s.put (F.POS_CNT_ABZCNT k) cr | .hall => s
  let s :=
    if mechSrc s k = (edgeIdx i).val ∧ s.on (ifaceVal k (edgeIdx i)) = true then
      mechReport k mech (turnCarry (edgeMech cpr old) mech dir) e.speed e.lowConf ts s
    else s
  edgeDeliver k i ts s

/-- The speed part of an accepted edge (R161 to R164). The largest k being 8, the ticks of nine edges since standstill or reversal
suffice whatever SPD_EDGES is written to. -/
def edgeTiming (s : State) (k : PosBlk) (i : EdgeIface) (fwd : Bool) (e : EdgeState) : EdgeState :=
  let t := s.tick
  if e.dir = some (!fwd) then
    { e with dir := some fwd, last := some t, ticks := [t], interval := none, speed := 0, lowConf := false, reversed := true }
  else
    let ticks := (t :: e.ticks).take 9
    let n := min (2 ^ s.get (F.POS_ABZCFG_SPD_EDGES k)) (ticks.length - 1)
    let span := t - (ticks.take (n + 1)).getLastD t
    if n = 0 then { e with dir := some fwd, last := some t, ticks := ticks, speed := 0, lowConf := false }
    else
      let v := edgeSpeed s k i n span
      { e with dir := some fwd, last := some t, ticks := ticks, interval := some (span, n),
               speed := if fwd then v else -v, lowConf := e.reversed, reversed := false }

/-- An accepted edge in a direction (R149, R152, R157, R168). Only edges change Ci: a write of DIRINV leaves it, FINE and PIDX as they are and reverses what
comes after, which R140 and R149 leave open between them (DESIGN CHOICE, log entry 106). -/
def edgeAccept (k : PosBlk) (i : EdgeIface) (fwd : Bool) (theta : Option Nat) (s : State) : State :=
  let cpr := cprOf s k i
  let e := edgeOf s k i
  let old := reported cpr e.ci e.dir
  let fwd := if i = .abz ∧ s.on (F.POS_CTRL_DIRINV k) = true then !fwd else fwd
  let dir : Int := if fwd then 1 else -1
  let s := modEdge k i (fun e => { edgeTiming s k i fwd e with ci := (e.ci + dir) % (cpr : Int), known := true }) s
  let s :=
    if e.awaiting then
      showMtValid k ((modEdge k i (fun e => { e with awaiting := false }) s).put (ifaceVal k (edgeIdx i)) 1)
    else s
  edgeMoved k i old dir theta s.tick s

/-- A state fault (R150, R156, R665). -/
def stateFault (k : PosBlk) (i : EdgeIface) (s : State) : State :=
  let s := match i with
    | .abz => posCount k (F.POS_ERR0_STATEFLT k) 1 s
    | .hall => posCount k (F.POS_ERR2_HALLFLT k) 4 s
  ifaceInvalid k (edgeIdx i) (s.put (F.POS_STAT_UNCERT k) 1)

/-- The place of the ABZ lines in forward order, A leading B (R149). -/
def abzIndex (code : Nat) : Nat := match code % 4 with | 0 => 0 | 1 => 1 | 3 => 2 | _ => 3

/-- The lines of an interface taken as the accepted state (R150, R155 to R157, R665). After a state fault the faulted lines are the
accepted state, an invalid Hall code among them, so that the next valid code is followed and is no accepted edge (log entry 92). -/
def edgeTake (k : PosBlk) (i : EdgeIface) (lines : BitVec 3) (s : State) : State :=
  let e := edgeOf s k i
  let s := modEdge k i (fun e => { e with code := lines }) s
  match i with
  | .abz =>
    match (abzIndex lines.toNat + 4 - abzIndex e.code.toNat) % 4 with
    | 0 => s
    | 1 => edgeAccept k .abz true none s
    | 3 => edgeAccept k .abz false none s
    | _ => stateFault k .abz s
  | .hall =>
    match hallSector s k lines.toNat, hallSector s k e.code.toNat with
    | none, _ => stateFault k .hall s
    | some new, none => s.put (F.POS_CNT_HSECT k) new
    | some new, some old =>
      let s := s.put (F.POS_CNT_HSECT k) new
      match (new + 6 - old) % 6 with
      | 0 => s
      | 1 => edgeAccept k .hall true (some (hallBoundary s k new)) s
      | 5 => edgeAccept k .hall false (some (hallBoundary s k old)) s
      | _ => stateFault k .hall s

/-- The lines of an interface have changed (R150, R156): the edge filter rejects an edge too soon after the last accepted
one. While the interface is disabled its lines are only followed. -/
def edgeChange (k : PosBlk) (i : EdgeIface) (lines : BitVec 3) (s : State) : State :=
  let e := edgeOf s k i
  if !s.on (ifaceEn k (edgeIdx i)) then modEdge k i (fun e => { e with code := lines }) s
  else if e.last.any (fun t => decide (s.tick < t + edgeMin s k)) then
    modEdge k i (fun e => { e with resample := e.resample ++ [s.tick + edgeMin s k] }) (posCount k (F.POS_ERR0_EDGEFLT k) 0 s)
  else edgeTake k i lines s

/-- The second sample of R150, for each interface whose time for it has come. -/
def edgeAgain (k : PosBlk) (l : EdgeLines) (s : State) : State :=
  let go (i : EdgeIface) (lines : BitVec 3) (s : State) : State :=
    if (edgeOf s k i).resample.any (fun t => decide (t ≤ s.tick)) then
      let s := modEdge k i (fun e => { e with resample := e.resample.filter (fun t => decide (s.tick < t)) }) s
      if s.on (ifaceEn k (edgeIdx i)) then edgeTake k i lines s else s
    else s
  go .hall l.hall (go .abz (BitVec.ofNat 3 (l.a.toNat + 2 * l.b.toNat)) s)

/-- A correction by `e` (R154). -/
def indexCorrect (k : PosBlk) (e : Int) (s : State) : State :=
  let cpr := cprOf s k .abz
  let a := edgeOf s k .abz
  let old := reported cpr a.ci a.dir
  edgeMoved k .abz old e none s.tick (modEdge k .abz (fun a => { a with ci := (a.ci + e) % (cpr : Int) }) s)

/-- An index event (R154). -/
def indexEvent (k : PosBlk) (s : State) : State :=
  let cpr := cprOf s k .abz
  let half : Int := (cpr / 2 : Nat)
  let e := ((s.get (F.POS_IDX_IDX_EXP k) : Int) - (edgeOf s k .abz).ci + half) % (cpr : Int) - half
  if s.on (F.POS_CTRL_HOME_EN k) && !s.on (F.POS_STAT_HOMED k) then
    ((indexCorrect k e s).put (F.POS_STAT_HOMED k) 1).put (F.POS_STAT_UNCERT k) 0
  else if e = 0 then s
  else
    let s := (posCount k (F.POS_ERR2_IDXERR k) 5 s).put (F.POS_STAT_IDXMIS k) 1
    match s.get (F.POS_CTRL_IDXPOL k) with
    | 1 => (indexCorrect k e s).put (F.POS_STAT_UNCERT k) 0
    | 2 => if e.natAbs ≤ 2 then indexCorrect k e s else s
    | _ => s

/-- A Z edge (R153). -/
def zEdge (k : PosBlk) (rising : Bool) (s : State) : State :=
  let a := edgeOf s k .abz
  if !s.on (F.POS_CTRL_ABZ_EN k) then s
  else if a.lastZ.any (fun t => decide (s.tick < t + edgeMin s k)) then posCount k (F.POS_ERR0_EDGEFLT k) 0 s
  else
    let s := modEdge k .abz (fun a => { a with lastZ := some s.tick }) s
    if a.known ∧ a.dir = some rising then indexEvent k s else s

/-- A speed of an edge interface without a new edge: its angle stands. -/
def edgeSpeedReport (k : PosBlk) (i : EdgeIface) (rate : Int) (s : State) : State :=
  let e := edgeOf s k i
  if mechSrc s k = (edgeIdx i).val ∧ s.on (ifaceVal k (edgeIdx i)) = true then
    if s.pos[k.val].from_ = mechSrc s k then speedReport k rate false s
    else mechReport k (edgeMech (cprOf s k i) (reported (cprOf s k i) e.ci e.dir)) 0 rate false (e.last.getD s.tick) s
  else s

/-- Standstill of an edge source (R162): speed zero, reported with the last edge. -/
def edgeStill (k : PosBlk) (i : EdgeIface) (s : State) : State :=
  let s := modEdge k i (fun e => { e with ticks := [], interval := none, speed := 0, lowConf := false }) s
  if !s.on (ifaceEn k (edgeIdx i)) then s else edgeDeliver k i ((edgeOf s k i).last.getD s.tick) (edgeSpeedReport k i 0 s)

/-- A sample of the creep after the last measured interval (R163). -/
def edgeCreep (k : PosBlk) (i : EdgeIface) (s : State) : State :=
  let e := edgeOf s k i
  match e.interval, e.last with
  | some (span, n), some t =>
    let T := s.tick - t
    if s.on (ifaceEn k (edgeIdx i)) ∧ span < T * n then
      let v := edgeSpeed s k i 1 T
      let v := if e.dir = some false then -v else v
      let s := modEdge k i (fun e => { e with speed := v, lowConf := false }) s
      edgeDeliver k i t (edgeSpeedReport k i v s)
    else s
  | _, _ => s

/-! ## The sine/cosine interface (R142 to R148, R165, R166) -/

/-- The pair corrected (R143), times 2^30. -/
def correctPair (s : State) (k : PosBlk) (sRaw cRaw : BitVec 16) : Int × Int :=
  let s' : Int := (sRaw.toInt - s.getS (F.POS_SCOFS_OFS_SIN k)) * s.get (F.POS_SCGAIN_GAIN_SIN k)
  let c' : Int := (cRaw.toInt - s.getS (F.POS_SCOFS_OFS_COS k)) * s.get (F.POS_SCGAIN_GAIN_COS k)
  (s' * 2 ^ 15, c' * 2 ^ 15 - s.getS (F.POS_SCPH_PHASE k) * s')

/-- Whether the amplitude lies within AMP_LO to AMP_HI (R144). -/
def ampOk (s : State) (k : PosBlk) (p : Int × Int) : Bool :=
  let r2 := p.1 * p.1 + p.2 * p.2
  let lo : Int := s.get (F.POS_SCAMP_AMP_LO k) * 2 ^ 30
  let hi : Int := s.get (F.POS_SCAMP_AMP_HI k) * 2 ^ 30
  decide (lo * lo ≤ r2 ∧ r2 ≤ hi * hi)

/-- Signal periods per revolution. -/
def periods (s : State) (k : PosBlk) : Nat := s.get (F.POS_SCCFG_NPER k) + 1

/-- A difference reduced to the middle of a circle of `m`. -/
def circMod (m : Nat) (d : Int) : Int := (d + (m / 2 : Nat)) % (m : Int) - (m / 2 : Nat)

/-- The interface's mechanical angle (R148). -/
def scMech (s : State) (k : PosBlk) (pos : Nat) : Nat := pos * 16 / periods s k % 2 ^ 24

/-- The speed over the last W valid samples (R165, R166): rate and whether it carries LOWCONF. Before W samples have
passed since the interface began, the speed reads zero. The spec gives no rounding (log entry 10). -/
def scSpeed (s : State) (k : PosBlk) (hist : List (Nat × Nat)) (lastSign : Int) : Int × Bool :=
  let w := 2 ^ s.get (F.POS_SCCFG_SPDWIN k)
  match hist.head?, hist[w]? with
  | some (p1, t1), some (p0, t0) =>
    let n := periods s k
    let d := circMod (n * 2 ^ 20) (Int.ofNat p1 - Int.ofNat p0)
    if d.natAbs < s.get (F.POS_SPDCFG_RESOLVE k) then (0, false)
    else
      let v := s.roundFree (d * polePairs s k * 2 ^ 16) (n * (t1 - t0))
      (v, v != 0 && lastSign != 0 && v.sign != lastSign)
  | _, _ => (0, false)

/-- A valid sample that passes every check: tracked, shown, and every (DELIV + 1)-th delivered. -/
def scGood (k : PosBlk) (pidx fine : Nat) (dir : Int) (s : State) : State :=
  let old := scMech s k (s.get (F.POS_SC_PIDX k) * 2 ^ 20 + s.get (F.POS_SC_FINE k))
  let pos := pidx * 2 ^ 20 + fine
  let sc := s.pos[k.val].sc
  let hist := ((pos, s.tick) :: sc.hist).take 65
  let (v, low) := scSpeed s k hist sc.lastSign
  let s := (s.drew.put (F.POS_SC_FINE k) fine).put (F.POS_SC_PIDX k) pidx
  let s := s.modPos k (fun p => { p with sc := { p.sc with
    primed := true, bad := 0, hist := hist, speed := v, lowConf := low, awaiting := false,
    lastSign := if v = 0 then p.sc.lastSign else v.sign } })
  let s := if sc.awaiting then showMtValid k (s.put (F.POS_STAT_SCVAL k) 1) else s
  let mech := scMech s k pos
  if s.on (F.POS_STAT_SCVAL k) then
    let s := if mechSrc s k = 0 then mechReport k mech (turnCarry old mech dir) v low s.tick s else s
    let n := sc.skipped + 1
    if s.get (F.POS_SCCFG_DELIV k) < n then
      deliver { src := ifaceSrc k 0, theta := elecAngle mech (polePairs s k) (s.get (F.POS_EOFSSC_EOFS k)), ts := s.tick,
                rate := v, zero := v == 0, lowConf := low }
        (s.modPos k (fun p => { p with sc := { p.sc with skipped := 0 } }))
    else s.modPos k (fun p => { p with sc := { p.sc with skipped := n } })
  else s

/-- A sample whose amplitude is in range (R146). At a period ambiguity the window of the speed is emptied, so that the speed reads
zero until W samples have passed again (log entry 92). -/
def scTrack (k : PosBlk) (fine : Nat) (s : State) : State :=
  let prev := s.get (F.POS_SC_FINE k)
  let pidx := s.get (F.POS_SC_PIDX k)
  let n := periods s k
  if s.pos[k.val].sc.primed then
    let d := circDiff 20 fine prev
    if d.natAbs < 2 ^ 18 then
      let pidx' := if 0 < d ∧ fine < prev then (pidx + 1) % n else if d < 0 ∧ prev < fine then (pidx + n - 1) % n else pidx
      scGood k pidx' fine d s
    else
      let s := (posCount k (F.POS_ERR1_PERFLT k) 3 s).put (F.POS_STAT_UNCERT k) 1
      let s := (s.put (F.POS_SC_FINE k) fine).modPos k (fun p => { p with sc := { p.sc with
        bad := 0, hist := [] } })
      ifaceInvalid k 0 s
  else scGood k pidx fine 0 s

/-- One sample of the sine/cosine interface. FINE is within 2 counts of the exact angle (R145, log entry 8). -/
def scSample (k : PosBlk) (sRaw cRaw : BitVec 16) (s : State) : State :=
  if !s.on (F.POS_CTRL_SC_EN k) then s
  else
    let p := correctPair s k sRaw cRaw
    if ampOk s k p then
      let f := within (angle28 p.1 p.2 : Nat) 2 s.free
      let f := if s.on (F.POS_CTRL_DIRINV k) then -f else f
      scTrack k (ofSigned 20 f) s.drew
    else
      let s := posCount k (F.POS_ERR1_AMPFLT k) 2 s
      let n := s.pos[k.val].sc.bad + 1
      let s := s.modPos k (fun p => { p with sc := { p.sc with bad := n } })
      if s.get (F.POS_SCCFG_AMP_N k) ≤ n then ifaceInvalid k 0 s else s

/-! ## SENT (R158 to R160, R165 to R167) -/

/-- A channel becomes invalid. One that waits for its first good frame goes on waiting (R168, log entry 15). -/
def sentInvalid (c : SentCh) (s : State) : State :=
  if s.on (F.SENT_STAT_VALID c) then failover (7 + c.val) (emuFollow (emuValid s) (s.put (F.SENT_STAT_VALID c) 0)) else s

/-- The checks of R159 other than the CRC. -/
def sentShapeOk (s : State) (c : SentCh) (f : SentFrame) : Bool :=
  let nom := 5600 * s.get (F.SENT_CFG_TICK c)
  let near (a b num den : Nat) : Bool := decide (((a : Int) - b).natAbs * den ≤ b * num)
  near f.calNs nom 1 4 && (match s.sent[c.val].tickNs with | some p => near f.calNs p 1 64 | none => true)
    && f.pulses.all (fun p => decide (12 ≤ p ∧ p ≤ 27)) && f.pulses.length == s.get (F.SENT_CFG_NIB c) + 2
    && f.pause == s.on (F.SENT_CFG_PAUSE c)

/-- The value of the nibble `i` of a frame, its pulse less 12 ticks: the status nibble, the data nibbles, the CRC (SAE J2716, log
entry 93). -/
def sentNibble (f : SentFrame) (i : Nat) : Nat := (f.pulses.getD i 12 - 12) % 16

/-- The status nibble, the data nibbles and the CRC nibble. -/
def sentStatus (f : SentFrame) : Nat := sentNibble f 0
def sentNibbles (f : SentFrame) : List Nat := (List.range (f.pulses.length - 2)).map (fun i => sentNibble f (i + 1))
def sentCrc (f : SentFrame) : Nat := sentNibble f (f.pulses.length - 1)

/-- The data nibbles as one number, the last received lowest (log entry 15). -/
def sentData (f : SentFrame) : Nat := (sentNibbles f).foldl (fun a n => a * 16 + n) 0

/-- A CRC register of `w` bits with polynomial `poly` moved by one bit: the top bit is divided out, the message bit comes in below. -/
def crcBit (w poly : Nat) (c : Nat) (b : Bool) : Nat :=
  let x := (c * 2 + b.toNat) % 2 ^ w
  if bitAt c (w - 1) then x ^^^ poly else x

/-- The bits of a number of `w` bits, highest first. -/
def bitsHigh (w n : Nat) : List Bool := (List.range w).map (fun i => bitAt n (w - 1 - i))

/-- The 4-bit CRC of nibbles (R158; SAE J2716, log entry 93): seed 5, polynomial 13; the recommended method ends with a nibble of
zeros. -/
def sentCrc4 (legacy : Bool) (l : List Nat) : Nat :=
  (l ++ (if legacy then [] else [0])).foldl (fun c n => (bitsHigh 4 n).foldl (crcBit 4 13) c) 5

/-- Whether the CRC of a frame matches under the method CRCMODE selects (R158). -/
def sentCrcOk (s : State) (c : SentCh) (f : SentFrame) : Bool :=
  sentCrc f == sentCrc4 (s.on (F.SENT_CFG_CRCMODE c)) (sentNibbles f)

/-- A list of bits as a number, the first highest. -/
def ofBits (l : List Bool) : Nat := l.foldl (fun a b => 2 * a + b.toNat) 0

/-- A serial message that ends with the last of the status bits given, oldest first: the short one in sixteen frames, or the enhanced
one in eighteen with 8-bit ID and 12 bits or 4-bit ID and 16 bits of data, its CRC right (R158; SAE J2716, log entry 93). -/
def sentMessage (legacy : Bool) (l : List (BitVec 2)) : Option (Nat × Nat) :=
  let hi (l : List (BitVec 2)) : List Bool := l.map (fun b => bitAt b.toNat 1)
  let lo (l : List (BitVec 2)) : List Bool := l.map (fun b => bitAt b.toNat 0)
  let short := l.drop (l.length - 16)
  let n := ofBits (lo short)
  let h := hi l
  let d := ofBits ((lo l).drop 6)
  let crc6 := ((l.drop 6).flatMap (fun b => [bitAt b.toNat 0, bitAt b.toNat 1]) ++ List.replicate 6 false).foldl (crcBit 6 0x19) 0x15
  if l.length = 18 ∧ h.take 7 = [true, true, true, true, true, true, false] ∧ h.getD 12 true = false ∧ h.getD 17 true = false then
    if ofBits ((lo l).take 6) ≠ crc6 then none
    else
      let a := ofBits ((h.drop 8).take 4)
      let b := ofBits ((h.drop 13).take 4)
      if h.getD 7 false then some (a, b * 4096 + d) else some (a * 16 + b, d)
  else if short.length = 16 ∧ hi short = true :: List.replicate 15 false then
    if n % 16 = sentCrc4 legacy [n / 4096, n / 256 % 16, n / 16 % 16] then some (n / 4096, n / 16 % 256) else none
  else none

/-- The status bits of a valid frame taken into the serial message (R158). -/
def sentSerial (c : SentCh) (f : SentFrame) (s : State) : State :=
  let l := (BitVec.ofNat 2 (sentStatus f / 4) :: s.sent[c.val].serial).take 18
  let s := s.modSent c (fun x => { x with serial := l })
  match sentMessage (s.on (F.SENT_CFG_CRCMODE c)) l.reverse with
  | some (id, d) => ((s.put (F.SENT_SLOW_SID c) id).put (F.SENT_SLOW_SDATA c) d).put (F.SENT_SLOW_NEW c) 1
  | none => s

/-- A valid frame (R160, R165, R166). RESOLVE is POS0's, the one the map gives (log entry 15); the spec gives no rounding of the speed
(log entry 10). -/
def sentGood (c : SentCh) (f : SentFrame) (s : State) : State :=
  let bits := s.get (F.SENT_MAP_BITS c)
  let v := sentData f / 2 ^ s.get (F.SENT_MAP_LSB c) % 2 ^ bits
  let m := v * 2 ^ (24 - bits)
  let mech := if s.on (F.SENT_MAP_DIRINV c) then (2 ^ 24 - m) % 2 ^ 24 else m % 2 ^ 24
  let pp := s.get (F.SENT_MAP_PP c) + 1
  let ts := f.start - 200 * s.get (F.SENT_OFS_LAT c)
  let x := s.sent[c.val]
  let v := match x.last with
    | some (m0, t0) =>
      let d := circDiff 24 mech m0
      if d.natAbs < s.get (F.POS_SPDCFG_RESOLVE 0) then 0 else s.roundFree (d * pp * 4096) (ts - t0)
    | none => 0
  let low := v != 0 && x.lastSign != 0 && v.sign != x.lastSign
  let s := ((s.drew.put (F.SENT_DATA_DATA c) (sentData f)).put (F.SENT_DATA_STATUS c) (sentStatus f)).put (F.SENT_MECH_MECH c) mech
  let s := ((s.putS (F.SENT_SPEED_SPEED c) v).putB (F.SENT_STAT_SPDVALID c) (v ≠ 0)).putB (F.SENT_STAT_LOWCONF c) low
  let s := s.modSent c (fun x => { x with
    bad := 0, tickNs := some f.calNs, last := some (mech, ts), awaiting := false,
    lastSign := if v = 0 then x.lastSign else v.sign })
  let s := sentSerial c f (if x.awaiting then emuFollow (emuValid s) (s.put (F.SENT_STAT_VALID c) 1) else s)
  if s.on (F.SENT_STAT_VALID c) then
    deliver { src := 7 + c.val, theta := elecAngle mech pp (s.get (F.SENT_OFS_EOFS c)), ts := ts, rate := v, zero := v == 0,
              lowConf := low } s
  else s

/-- A frame received; one that is not valid ends the serial message under way (R159, log entry 93). -/
def sentReceive (c : SentCh) (f : SentFrame) (s : State) : State :=
  if !s.on (F.SENT_CFG_EN c) then s
  else if sentShapeOk s c f && sentCrcOk s c f then sentGood c f s
  else
    let s := s.when (!sentShapeOk s c f) (fun s => s.count (F.SENT_STAT_FRMERR c) (F.SENT_STAT_FRMOVF c))
    let s := s.when (!sentCrcOk s c f) (fun s => s.count (F.SENT_STAT_CRCERR c) (F.SENT_STAT_CRCOVF c))
    let n := s.sent[c.val].bad + 1
    let s := s.modSent c (fun x => { x with bad := n, serial := [] })
    if s.get (F.SENT_CFG_ERRLIM c) ≤ n then sentInvalid c s else s

/-! ## REVAL, MTSET and CTRL -/

/-- An interface revalidated (R168): it waits for its next good sample or edge; the index waits for an edge (R153). A REVAL bit written
while the interface is valid does nothing, so the direction stays known; the spec does not say whether that counts as revalidated
(DESIGN CHOICE, log entry 92). -/
def revalIface (k : PosBlk) (i : Fin 3) (s : State) : State :=
  if s.on (ifaceVal k i) then s
  else match i with
    | 0 => s.modPos k (fun p => { p with sc := { p.sc with awaiting := true, bad := 0 } })
    | 1 => modEdge k .abz (fun e => { e with awaiting := true, known := false }) s
    | 2 => modEdge k .hall (fun e => { e with awaiting := true, known := false }) s

/-- POSx_REVAL written. -/
def revalMask (k : PosBlk) (mask : Nat) (s : State) : State :=
  (List.finRange 3).foldl (fun s (i : Fin 3) => if bitAt mask i then revalIface k i s else s) s

/-- SENT_kSTAT.REVAL written; no effect on a valid channel (DESIGN CHOICE, log entry 92). -/
def revalSent (c : SentCh) (s : State) : State :=
  if s.on (F.SENT_STAT_VALID c) then s else s.modSent c (fun x => { x with awaiting := true, bad := 0 })

/-- POSx_MTSET written (R141). -/
def setTurns (k : PosBlk) (v : Nat) (s : State) : State :=
  updateMt k ((s.modPos k (fun p => { p with turns := v / 65536 })).put (F.POS_STAT_UNCERT k) 0)

/-- An interface enabled or disabled by a write of POSx_CTRL: the index waits for an edge (R153), and one that was valid
waits for its first good sample (R168). Disabling the selected source is taken as no becoming invalid: no failover follows (log entry
92). A sine/cosine interface enabled again takes its first sample without the ambiguity check of R146 and restarts its speed window, which
the spec does not say (DESIGN CHOICE, log entry 92). -/
def ifaceSwitched (k : PosBlk) (was : BitVec 3) (s : State) (i : Fin 3) : State :=
  if bitAt was.toNat i == s.on (ifaceEn k i) then s
  else
    let s := match i with
      | 0 => s.modPos k (fun p => { p with sc := { p.sc with primed := false, bad := 0, skipped := 0, hist := [] } })
      | 1 => modEdge k .abz (fun e => { e with known := false, resample := [] }) s
      | 2 => modEdge k .hall (fun e => { e with known := false, resample := [] }) s
    if s.on (ifaceVal k i) then revalIface k i (s.put (ifaceVal k i) 0) else s

/-- A write of POSx_CTRL. -/
def posCtrlWrite (k : PosBlk) (v : Word) (s : State) : State :=
  let was : BitVec 3 := BitVec.ofNat 3 (s.rd (0x40006000 + 0x1000 * k.val)).toNat
  regWriteWith (0x40006000 + 0x1000 * k.val) v
    (fun t => showMtValid k ((List.finRange 3).foldl (ifaceSwitched k was) t)) s

/-- The pulses of compare outputs that end at this tick (R126, R173). -/
def comparePulses (s : State) : State :=
  let one (s : State) (u : PosBlk × Fin 2) : State :=
    let (k, j) := u
    if s.pos[k.val].pulse[j.val] = some s.tick then
      (s.putB (F.POS_CMPSTAT_LEVEL k j) (bitAt s.pos[k.val].restore.toNat j)).modPos k (fun p => { p with
        pulse := p.pulse.set j.val none j.isLt })
    else s
  [((0 : PosBlk), (0 : Fin 2)), (0, 1), (1, 0), (1, 1)].foldl one s

/-- One tick of a time counter (R359, R612): while its condition holds it gains a millisecond every 200 000 ticks. -/
def stressTick (i : Fin 5) (k : Nat) (holds : Bool) (s : State) : State :=
  if !holds then s
  else if s.bkg.stress[i] + 1 < 200000 then s.modBkg (fun b => { b with stress := b.stress.set i (b.stress[i] + 1) })
  else wearOne k (s.modBkg (fun b => { b with stress := b.stress.set i 0 }))

/-- Chopper on-time, and the active-short and the energised time of each bridge (R359, R612). -/
def stressTicks (s : State) : State :=
  let s := stressTick 0 wearChop (s.on F.VBUS_STAT_CHOP) s
  let s := stressTick 2 (wearShort 1) (s.on (F.GD_STAT_ASACT 1)) (stressTick 1 (wearShort 0) (s.on (F.GD_STAT_ASACT 0)) s)
  stressTick 4 (wearOn 1) (isoClosed s 1) (stressTick 3 (wearOn 0) (isoClosed s 0) s)

/-- One 5 ns tick: the lane timer, compare pulses (R173), both angle clocks with their carriers (R111, R136), network time
(R506), the end of COASTMIN (R311), the time counters (R612) and the uptime (R614). In SLEEP the PLL stands, and with it all but G's time
counters and the uptime; in DEEP the uptime alone goes on, with the elapsed counter of both (R606), and in OFF nothing does (R583). The lane timer holds its value (R662). -/
def timerTick (s : State) : State :=
  let s := { s with tick := s.tick + 1 }
  if !s.pwr.aoPowered then s.modSys (fun y => { y with timer0 := y.timer0 + 1 })
  else if 2 ≤ s.get F.PWR_STAT_STATE then
    let s := s.modSys (fun y => { y with timer0 := y.timer0 + 1 })
    uptimeTick (elapsedTick (if s.get F.PWR_STAT_STATE = 2 then stressTicks s else s))
  else uptimeTick (timeTick (stressTicks (interlockTick 1 <| interlockTick 0 <| recaptureDue 1 (recaptureDue 0 (angTick 1 (angTick 0 (comparePulses s)))))))

/-! ## The borrowed source (R171, R172) -/

/-- The position fields of a peer's frame: the lowest lane ID whose frames carry VALID is taken. With SPDVALID 0 the speed is
not delivered, whatever MSPEED is (log entry 92). A lane is one whose VALID is 1 for two inner periods after its frame (DESIGN CHOICE, log entry 106). -/
def borrowFrame (l : Lane) (valid spdValid lowConf : Bool) (mech : Nat) (mspeed : Int) (ts : Nat) (s : State) : State :=
  if !valid then { s with borrow := { s.borrow with last := s.borrow.last.set l.val none l.isLt } }
  else
    let s := { s with borrow := { s.borrow with last := s.borrow.last.set l.val (some s.tick) l.isLt } }
    let fresh (t : Option Nat) : Bool := t.any (fun t => decide (s.tick < t + 2 * innerPeriod s))
    if (List.finRange 3).any (fun j => decide (j.val < l.val) && fresh s.borrow.last[j.val]) then s
    else
      let s := { s with borrow := { s.borrow with mech := mech, misses := 0 } }
      let s := emuFollow (emuValid s) ((s.put (F.POS_BORROW_LANE 0) l.val).put (F.POS_BORROW_BVALID 0) 1)
      let pp := polePairs s 0
      let rate := if spdValid then mspeed * pp * 16 else 0
      deliver { src := 0xB, theta := elecAngle mech pp (s.get (F.POS_BORROW_EOFSB 0)), ts := ts, rate := rate,
                zero := rate == 0, lowConf := lowConf } s

/-- Two inner periods without such a frame from any lane. -/
def borrowLost (s : State) : State :=
  let was := s.on (F.POS_BORROW_BVALID 0)
  let s := emuFollow (emuValid s) { s.put (F.POS_BORROW_BVALID 0) 0 with borrow := { s.borrow with misses := 2, last := Vector.replicate 3 none } }
  if was then failover 0xB s else s

/-! ## Encoder emulation (R176 to R178) -/

/-- Whether TMIN has passed since the last output edge (R176). -/
def emuSpaced (s : State) : Bool := s.emu.edge.all (fun t => decide (t + 2 * s.get F.EMU_CFG_TMIN ≤ s.tick))

/-- One output step once TMIN has passed since the last edge, or the freeze. At exactly half of 4 * LINES away the step is in reverse (log
entry 92). -/
def emuStep (s : State) : State :=
  if !s.on F.EMU_CTRL_EN then emuLow s
  else
    match emuSource s with
    | none => emuFollow false s
    | some mech =>
      let L := 4 * (s.get F.EMU_CFG_LINES + 1)
      let o := s.get F.EMU_STAT_OUTCNT
      let d := circMod L (((mech * L / 2 ^ 24 : Nat) : Int) - o)
      let s := (s.put F.EMU_STAT_RUN 1).put F.EMU_STAT_FROZEN 0
      let s := s.when (decide (4 < d.natAbs)) (fun s => s.put F.EMU_STAT_LAG 1)
      if d = 0 || !emuSpaced s then s
      else
        let o' := (((o : Int) + d.sign) % (L : Int)).toNat
        let s := s.put F.EMU_STAT_OUTCNT o'
        { s with emu := emuLines s o' }

/-! ## The commands -/

/-- ANGLE_CLOCK_TICK (R111, R136). -/
def execAngleClockTick (s : State) : Out := .next (timerTick s)
/-- SINCOS_SAMPLE (R144). -/
def execSincosSample (k : PosBlk) (sRaw cRaw : BitVec 16) (s : State) : Out := clockedOut s <| .next (scSample k sRaw cRaw s)
/-- ABZ_EDGE (R150). -/
def execAbzEdge (k : PosBlk) (a b : Bool) (s : State) : Out :=
  clockedOut s <| .next (edgeChange k .abz (BitVec.ofNat 3 (a.toNat + 2 * b.toNat)) s)
/-- EDGE_RESAMPLE (R150). -/
def execEdgeResample (k : PosBlk) (l : EdgeLines) (s : State) : Out := clockedOut s <| .next (edgeAgain k l s)
/-- INDEX_EDGE (R153, R154). -/
def execIndexEdge (k : PosBlk) (rising : Bool) (s : State) : Out := clockedOut s <| .next (zEdge k rising s)
/-- HALL_EDGE (R157). -/
def execHallEdge (k : PosBlk) (code : BitVec 3) (s : State) : Out := clockedOut s <| .next (edgeChange k .hall code s)
/-- SENT_FRAME (R160). -/
def execSentFrame (c : SentCh) (f : SentFrame) (s : State) : Out := clockedOut s <| .next (sentReceive c f s)
/-- SENT_TIMEOUT (R167). -/
def execSentTimeout (c : SentCh) (s : State) : Out := clockedOut s <| .next (sentInvalid c s)
/-- EDGE_STANDSTILL (R162). -/
def execEdgeStandstill (k : PosBlk) (i : EdgeIface) (s : State) : Out := clockedOut s <| .next (edgeStill k i s)
/-- CREEP_SAMPLE (R163). -/
def execCreepSample (k : PosBlk) (i : EdgeIface) (s : State) : Out := clockedOut s <| .next (edgeCreep k i s)
/-- MT_SET (R141). -/
def execMtSet (k : PosBlk) (v : Word) (s : State) : Out := clockedOut s <| .next (setTurns k v.toNat s)
/-- POS_REVAL (R168). -/
def execPosReval (k : PosBlk) (mask : BitVec 3) (s : State) : Out := clockedOut s <| .next (revalMask k mask.toNat s)
/-- SENT_REVAL (R168). -/
def execSentReval (c : SentCh) (s : State) : Out := clockedOut s <| .next (revalSent c s)
/-- BORROW_TIMEOUT (R172). -/
def execBorrowTimeout (s : State) : Out := clockedOut s <| .next (borrowLost s)
/-- COMPARE_VAL_WRITE (R175). -/
def execCompareValWrite (u : Fin 4) (v : Word) (s : State) : Out :=
  clockedOut s <| .next (compareValWrite ⟨u.val / 2, by omega⟩ ⟨u.val % 2, by omega⟩ v s)
/-- EMU_STEP (R176). -/
def execEmuStep (s : State) : Out := clockedOut s <| .next (emuStep s)

end Sys2Proof.Machine
end

