-- ==== Sys2Proof/Machine/Ebpen.lean ====
section
/-!
DEFINITION. Roles and their changes (R369), and what the frames, beats and losses of peers do to them (chapter 11, R41 to R50).
-/
namespace Sys2Proof.Machine

/-! ## Peers -/

/-- A lane ID as a lane; none for 3. -/
def laneOf (n : Nat) : Option Lane := if h : n < 3 then some ⟨n, h⟩ else none

/-- The peers of this lane in its topology. -/
def peersOf (s : State) : List Lane := (List.finRange 3).filter (fun l => decide (l.val < laneCount s) && l.val != laneId s)

/-- The lane whose LEADOUT a LEADIN input reads (R34). -/
def leadinLane (s : State) (i : Fin 2) : Option Lane :=
  match topology s with
  | 0 => none
  | 3 => laneOf ((laneId s + 1 + i.val) % 3)
  | _ => if i = 0 then laneOf (1 - laneId s) else none

/-- Whether a port is one that counts: enabled and not absent (R36). -/
def portInUse (s : State) (e : Port) : Bool := s.on (F.EBP_CTRL_EN e) && !s.on (F.EBP_STAT_ABSENT e)

/-- Whether a port's link is up. -/
def linkUp (s : State) (e : Port) : Bool := portUp s e && !s.on (F.EBP_STAT_LOST e)

/-- Whether some link to a peer is up (R35). -/
def peerLinked (s : State) (l : Lane) : Bool :=
  (List.finRange 2).any (fun e => linkUp s e && s.get (F.EBP_STAT_PEER e) == l.val)

/-- Whether no valid frame has come from a peer for LOSTMO inner periods on any link in use to it (R403). -/
def framesGone (s : State) (l : Lane) : Bool :=
  (List.finRange 2).all (fun e => !(portInUse s e && s.get (F.EBP_STAT_PEER e) == l.val) ||
    decide (s.peers[l.val].frame.getD 0 + s.get (F.EBP_CTRL_LOSTMO e) * innerPeriod s ≤ s.tick))

/-- Whether two ticks lie within 2 Ti of each other. -/
def within2Ti (s : State) (a b : Option Nat) : Bool :=
  match a, b with
  | some x, some y => decide (x ≤ y + 2 * innerPeriod s) && decide (y ≤ x + 2 * innerPeriod s)
  | _, _ => false

/-- EDEG shows whether the CAN path is in force for some peer (R404). -/
def showEdeg (s : State) : State := s.putB F.CONT_STAT_EDEG (s.cont.edeg != 0)

/-- Whether what put the CAN path in force for a peer still holds (R402 to R404): no link to it, a lead's beat and frames gone, or a
stand-in's level and frames gone. -/
def edegHolds (s : State) (l : Lane) : Bool :=
  !peerLinked s l
    || (roleSeen s l.val == 2 && !s.on (F.CONT_PEER_BEAT l.val) && decide (2 ≤ s.cont.misses))
    || (roleSeen s l.val == 1 && framesGone s l && !s.on (F.CONT_PEER_LEVEL l.val))

/-- The CAN path ends for a peer for which nothing of that holds any more (log entry 40). -/
def edegCheck (s : State) : State :=
  let keep (l : Lane) : Bool := bitAt s.cont.edeg.toNat l && roleSeen s l.val != 0 && edegHolds s l
  let left := bitsOf3 (keep 0) (keep 1) (keep 2)
  if left = s.cont.edeg then s else judgeSet (showEdeg (s.modCont (fun c => { c with edeg := left })))
where
  bitsOf3 (a b c : Bool) : BitVec 3 := BitVec.ofNat 3 (a.toNat + 2 * b.toNat + 4 * c.toNat)

/-- The LINK bits of CONT_PEER follow the ports (R35). -/
def showLinks (s : State) : State :=
  (peersOf s).foldl (fun s l => s.putB (F.CONT_PEER_LINK l.val) (peerLinked s l)) s

/-! ## Claims and losses -/

/-- Whether a beat is seen from a lane other than `subj`. -/
def otherBeat (s : State) (subj : Nat) : Bool :=
  (peersOf s).any (fun l => l.val != subj && s.on (F.CONT_PEER_BEAT l.val))

/-- The checks of R400; the beat of the lane `subj`, which has announced its departure, does not count. -/
def mayClaim (s : State) (subj : Nat) : Bool :=
  mayHoldRole s && !otherBeat s subj
    && (match s.cont.claimed with | some t => decide (t + 2 * outerPeriod s < s.tick) | none => true)

/-- A joined set whose shares at rest are in force on both lanes runs the six-phase law. -/
def joinCheck (s : State) : State :=
  if topology s = 2 ∧ sharesOf s = sharesAtRest s then
    (s.put F.CONT_STAT_JOINED 1).modCont (fun c => { c with xrefMiss := 0 })
  else s

/-- Whether the lane would enter as a stand-in: drive-ready, without a role, and able to hold one. -/
def mayEnter (s : State) : Bool := s.get F.CONT_STAT_ROLE == 0 && s.cont.ready && mayHoldRole s

/-- The lane enters as a stand-in when it is drive-ready and the set has a lead (R47, R369); LEADOUT goes high (R385). -/
def enterStandIn (s : State) : State :=
  if mayEnter s = true ∧ (peersOf s).any (fun l => roleSeen s l.val == 2) = true then
    let s := (s.put F.CONT_STAT_ROLE 1).put F.CONT_STAT_QUAL 0
    let s := s.modCont (fun c => { c with
      withdrawing := false, qualRun := 0, misRun := 0, misses := 0, frame := none, cycTaken := false, leadOut := true })
    judgeSet (if s.get F.CONT_STAT_SETSTATE = 3 then s.put F.CONT_STAT_SETSTATE 1 else s)
  else s

/-- Whether the lane judges its peers: it holds a role, or it takes part in a formed set that is not in hold, so that a lane without a
share learns that the last one is lost (R54, R55). -/
def judgesPeers (s : State) : Bool :=
  s.get F.CONT_STAT_ROLE != 0 || (s.on F.CONT_CTRL_EN && mayTakePart s && decide (s.get F.CONT_STAT_SETSTATE ≤ 1))

/-- A peer declared lost by this lane (R406): LOST shown, a NOTICE with its KIND; nothing new for a transfer already held for it. -/
def declareLost (l : Lane) (kind : Nat) (s : State) : State :=
  if judgesPeers s = false ∨ roleSeen s l.val = 0 ∨ leaving s l.val = true then s
  else joinedDrop (sendNotice l.val kind s |>.put (F.CONT_PEER_LOST l.val) 1)

/-- CANTMO of R404 in ticks. -/
def cantmo (s : State) : Nat := s.get F.CONT_LS_LSMISS * s.get F.CONT_LS_LSPER * 200000

/-- EDEG set for a peer (R404): from now on the CAN path alone declares it lost, which it does at once where its lane status is absent
on both networks already. -/
def setEdeg (l : Lane) (s : State) : State :=
  let s := s.modCont (fun c => { c with edeg := BitVec.ofNat 3 (withBit c.edeg.toNat l.val true) })
  let s := degrade (showEdeg s)
  if s.on (F.CONT_PEER_HEARD l.val) = false ∧ cantmo s ≤ s.tick then declareLost l 4 s else s

/-- Whether the LEADIN from a peer has been low for 3 Ti (R403); one on which no edge has come is low since this lane's start, as its
pull-down has it (R385). -/
def lowLong (s : State) (l : Lane) : Bool :=
  !s.on (F.CONT_PEER_LEVEL l.val) && decide (s.peers[l.val].lowSince.getD 0 + 3 * innerPeriod s ≤ s.tick)

/-- A stand-in's loss by the fast path (R403), or EDEG when its conditions did not begin together (R404). -/
def standInCheck (l : Lane) (s : State) : State :=
  let p := s.peers[l.val]
  if roleSeen s l.val ≠ 1 then s
  else if framesGone s l && lowLong s l then
    if within2Ti s p.lowSince p.frame then declareLost l 3 s else setEdeg l s
  else s

/-- A link lost (R374, R404): shown once, and to be trained anew; where it was lost before, LOSTMO passed without a frame lets a stand-in's silence
be judged (R403). A peer without any link puts the CAN path in force while its beat or high level goes
on, and ends a six-phase law (R411). -/
def loseLink (e : Port) (s : State) : State :=
  if !portInUse s e then s
  else
    let known := s.on (F.EBP_STAT_LOST e)
    let s := if known then s else
      let s := ((s.put (F.EBP_STAT_LOST e) 1).put (F.EBP_STAT_LOSTEV e) 1).countBit (F.EBP_CNT_LOSTCNT e) (F.EBP_CNT_OVF e) 2
      showLinks ((s.put (F.EBP_STAT_TRAINED e) 0).modEbp e (fun x => { x with beats := 0, violations := [] }))
    match laneOf (s.get (F.EBP_STAT_PEER e)) with
    | none => s
    | some l =>
      if peerLinked s l || !decide (l ∈ peersOf s) then s
      else if known then standInCheck l s
      else
        let s := joinedDrop s
        let s := if roleSeen s l.val ≠ 0 ∧ (s.on (F.CONT_PEER_BEAT l.val) || s.on (F.CONT_PEER_LEVEL l.val)) = true
          then setEdeg l s else s
        standInCheck l s

/-- A lead that sees evidence of another lead (R401). -/
def twoLeads (other : Nat) (s : State) : State :=
  if s.get F.CONT_STAT_ROLE ≠ 2 then s
  else
    let s := s.put F.CONT_STAT_TWOLEAD 1
    if other < laneId s then
      let s := sendNotice (laneId s) 1 s
      let own : Fld := match laneId s with | 0 => F.CONT_SHARES_SHA | 1 => F.CONT_SHARES_SHB | _ => F.CONT_SHARES_SHC
      let s := ((s.put F.CONT_STAT_ROLE 0).put F.CONT_STAT_QUAL 0).put own 0
      let s := ((s.put F.CONT_LAST_KIND 6).put F.CONT_LAST_FROM (laneId s)).put F.CONT_LAST_TO other
      followVotes (degrade ((s.put F.CONT_LAST_CYC (s.get F.CONT_CYC_CYC)).modCont (fun c => { c with
        leadOut := false, ready := false })))
    else degrade s

/-- The lead's claim after the wait of R399 by a stand-in that is not the claimant. -/
def lateClaim (s : State) : State :=
  let lower := (peersOf s).filter (fun l => decide (l.val < laneId s))
  if s.cont.claimWait && s.on F.CONT_STAT_QUAL && s.get F.CONT_STAT_ROLE == 1 && mayClaim s 3
      && lower.all (fun l => !s.on (F.CONT_PEER_BEAT l.val) && roleSeen s l.val != 2 && !qualSeen s l.val) then
    becomeLead (sharesOf s) s
  else s.modCont (fun c => { c with claimWait := false })

/-- The end of the formation window (R46, R417). -/
def windowEnd (s : State) : State :=
  if !s.on F.CONT_STAT_FORMING then s
  else
    let s := s.put F.CONT_STAT_FORMING 0
    let lower := (List.range (laneId s)).any (fun l =>
      bitAt s.cont.announced.toNat l || (readySeen s l && !bitAt s.cont.out.toNat l))
    if s.get F.CONT_STAT_ROLE = 0 ∧ s.cont.ready = true ∧ s.cont.beatMoved = false ∧ s.cont.leadSeen = false
        ∧ lower = false ∧ mayClaim s 3 = true then
      let here := (List.range (laneCount s)).filter (fun l => l == laneId s || bitAt s.cont.announced.toNat l)
      let t := if inHold s then sharesTo [laneId s] 1000
        else if here.length = laneCount s then sharesAtRest s
        else match here with
          | [l] => sharesTo [l] 1000
          | ls => sharesTo (ls.take 2) 500
      let s := becomeLead t (s.modCont (fun c => { c with withdrawing := false }))
      judgeSet (joinCheck ((holdEnd s).put F.CONT_STAT_SETSTATE 1))
    else s

/-- Drive-ready (R44 to R47, R551): a solo lane leads; any other runs its formation window, or enters beside a lead. -/
def driveReadyCont (s : State) : State :=
  let s := s.modCont (fun c => { c with ready := true, announced := 0, beatMoved := false, leadSeen := false })
  if topology s = 0 then soloLead s
  else enterStandIn (s.put F.CONT_STAT_FORMING 1)

/-! ## The transfer tick (R395) -/

/-- Whether the lane a transfer names was lead, declared lost here or not. -/
def wasLead (s : State) (l : Nat) : Bool :=
  (if l = laneId s then s.get F.CONT_STAT_ROLE else s.get (F.CONT_PEER_ROLE l)) == 2

/-- CONT_LAST.KIND of a transfer. -/
def lastKind (s : State) (t : Transfer) : Nat :=
  match t.kind with
  | 1 => 1 | 2 => 4 | 3 => if wasLead s t.subj then 2 else 5 | 4 => 3 | _ => 7

/-- Hold begins when no lane holds a share (R55, R370): the last position is kept for the lane status. -/
def holdBegin (s : State) : State :=
  let s := s.put F.CONT_STAT_SETSTATE 2
  let s := s.modCont (fun c => { c with heldPos := s.rd (F.POS_MT_MT 0).addr })
  holdCheck 1 (holdCheck 0 s)

/-- The slate pair of the reference valley at which an outer tick is forced: the leader's says so (R381). -/
def slateAgain (s : State) : State :=
  let a := s.ang[(mainBridge s).val]
  if a.refTick = s.tick ∧ a.ref.step = 0 then
    slateSend true ((s.modEbp 0 (fun x => { x with slateOut := none })).modEbp 1 (fun x => { x with slateOut := none }))
  else s

/-- The outer tick that the transfer tick is in every lane (R395), from which the outer count restarts: forced where it is not one
already. -/
def restartOuter (s : State) : State :=
  let b := mainBridge s
  if s.ang[b.val].refCount = 0 ∧ s.ang[b.val].refTick = s.tick then s else slateAgain (outerTick b s)

/-- This lane's own part when the transfer names it: withdrawn until it is drive-ready anew, or a qualified stand-in after a planned
handover, whose LEADOUT is high (R385). -/
def leaveRole (t : Transfer) (s : State) : State :=
  let s := (s.put F.CONT_CTRL_WDREQ 0).modCont (fun c => { c with withdrawing := false })
  if t.kind = 2 then
    let s := ((s.put F.CONT_STAT_ROLE 1).put F.CONT_STAT_QUAL 1).put F.CONT_SB_HAND 0
    ((s.put F.CONT_SB_BUSY 0).put F.CONT_SB_DONE 1).modCont (fun c => { c with leadOut := true })
  else followVotes (((s.put F.CONT_STAT_ROLE 0).put F.CONT_STAT_QUAL 0).modCont (fun c => { c with leadOut := false, ready := false }))

/-- The lane whose beat does not count in the checks of R400: one that has announced its departure itself (log entry 37). -/
def departed (t : Transfer) : Nat := if t.kind = 1 ∨ t.kind = 5 then t.subj else 3

/-- A remaining lane's part (R395): the peer's role, and the lead named by the NOTICE put in force. By plan any stand-in takes the lead;
after a loss or a withdrawal only a qualified one (R369, R399). -/
def takeOver (t : Transfer) (s : State) : State :=
  let was := wasLead s t.subj
  let s := s.put (F.CONT_PEER_ROLE t.subj) (if t.kind = 2 then 1 else 0)
  let waits := was && t.kind != 2 && s.get F.CONT_STAT_ROLE == 1
  if t.newLead = laneId s then
    if s.get F.CONT_STAT_ROLE = 1 ∧ ((t.kind = 2 ∧ mayTakePart s = true) ∨ (t.kind ≠ 2 ∧ s.on F.CONT_STAT_QUAL = true ∧ mayClaim s (departed t) = true)) then
      beat (becomeLead t.shares s)
    else s
  else
    let s := s.modCont (fun c => { c with claimWait := waits })
    if t.newLead < 3 then s.put (F.CONT_PEER_ROLE t.newLead) 2 else s

/-- The transfers whose tick this is, as they come into force: one as its NOTICE says, several with the triple and the lead that R50
and R399 give once all their lanes have left (log entry 90). -/
def dueTransfers (s : State) : List Transfer :=
  match s.cont.transfers.filter (fun t => t.left == 0) with
  | [t] => [t]
  | l => l.map (fun t => if t.kind = 2 then t else { t with shares := sharesAfter s 3, newLead := leadAfter s 3 })

/-- One transfer put in force (R395). -/
def transferOne (s : State) (t : Transfer) : State :=
  let s := (s.put F.CONT_LAST_KIND (lastKind s t)).put F.CONT_LAST_FROM t.subj
  let s := (s.put F.CONT_LAST_TO t.newLead).put F.CONT_LAST_CYC (s.get F.CONT_CYC_CYC)
  let s := if t.kind = 2 then s else degrade (joinedDrop s)
  let s := if takesShare s t.shares then putShares t.shares s else s
  if t.subj = laneId s then leaveRole t s else takeOver t s

/-- The transfer tick (R395): the transfers that are due come into force at an outer tick; with no lane left the set is in hold, and
no lane holds a share (R50, R55). -/
def transferTick (s : State) : State :=
  match dueTransfers s with
  | [] => s
  | ts =>
    let before := s
    let s := s.modCont (fun c => { c with
      transfers := c.transfers.filter (fun t => t.left != 0), proposal := none, accepted := none, commit := none })
    let s := restartOuter (ts.foldl transferOne s)
    representDemand before (if lanesLeft s 3 = [] then holdBegin (setShares ⟨0, 0, 0⟩ s) else s)

end Sys2Proof.Machine
end

