-- ==== Sys2Proof/Machine/Cont.lean ====
section
/-!
DEFINITION. The commands of chapter 11: Ebpen frames received and sent, the link's training and losses, beats, and what CONT does on
them.
-/
namespace Sys2Proof.Machine

/-! ## A frame received (R376) -/

/-- Whether a frame carries the CRC of its TYPE, header and payload (R375). -/
def frameCrcOk (ty : Nat) (f : EbpFrame) : Bool := f.crc == frameCrc ty f

/-- Whether LEN and the payload have the length of the TYPE (R376, R377). -/
def frameLenOk (len : Nat) (f : EbpFrame) : Bool := f.payload.length == len && 4 * f.len.toNat == len

/-- A frame whose CRC, LEN, SET_ID and SRC are right is a valid frame of its originator; the first copy of it is used (R376). -/
def frameIn (e : Port) (ty : Nat) (len : Nat) (f : EbpFrame) (act : Lane → State → State) (s : State) : State :=
  if !portInUse s e then s
  else if !frameCrcOk ty f then s.countBit (F.EBP_CNT_CRCERR e) (F.EBP_CNT_OVF e) 0
  else if !frameLenOk len f || f.setId.toNat != setId s then s
  else
    match laneOf f.src.toNat with
    | none => s
    | some l =>
      if l.val == laneId s then s
      else
        let s := (s.inc (F.EBP_FRAMES_RXOK e)).modPeer l (fun p => { p with frame := some s.tick })
        let key := 4 * ty + l.val
        let seen := Tab.get (fun _ => []) s.lines.seen key
        let s := if ty = 6 then heardBeat e l s else s
        if f.seq.toNat ∈ seen then s
        else act l (s.modLines (fun x => { x with seen := Tab.put (fun _ => []) x.seen key ((f.seq.toNat :: seen).take 16) }))
where
  /-- Sixteen valid BEAT frames after training report a lost link up again (R374). -/
  heardBeat (e : Port) (l : Lane) (s : State) : State :=
    let s := s.modEbp e (fun x => { x with beats := x.beats + 1 })
    if s.on (F.EBP_STAT_LOST e) && s.on (F.EBP_STAT_TRAINED e) && decide (16 ≤ s.ebp[e.val].beats) then
      edegCheck (showLinks ((s.put (F.EBP_STAT_LOST e) 0).put (F.EBP_STAT_PEER e) l.val))
    else s

/-- A NOTICE or SETOP forwarded once to a peer whose BEAT shows no link to the originator (R418). -/
def forwardFrame (ty : Nat) (f : EbpFrame) (from_ : Port) (s : State) : State :=
  (List.finRange 2).foldl (fun s (e : Port) =>
    match laneOf (s.get (F.EBP_STAT_PEER e)) with
    | some l =>
      if e ≠ from_ ∧ l.val ≠ f.src.toNat ∧ bitAt s.peers[l.val].linkUp.toNat f.src.toNat = false then sendOn ty f e s else s
    | none => s) s

/-- Whether a reference inner tick has passed while a frame with OFS came: the originator's tick before the frame began is else this
lane's last one (R393). -/
def tickPassed (s : State) (ofs : Nat) : Bool :=
  decide (2 * (s.tick - s.ang[(mainBridge s).val].refTick) + innerPeriod s < 2 * ofs)

/-- How many of this lane's reference inner ticks lie before the transfer tick of a NOTICE (R393). -/
def transferLeft (s : State) (ofs : Nat) : Nat :=
  if transferAfter s ofs = 2 ∧ tickPassed s ofs = false then 2 else 1

/-- The instant ts of a frame with OFS, in this lane's ticks (R393, R418). -/
def originTick (s : State) (ofs : Nat) : Nat :=
  let ref := s.ang[(mainBridge s).val].refTick
  (if tickPassed s ofs then ref - innerPeriod s else ref) + ofs

/-- The triples a lane accepts in a NOTICE (R395, R396): for a planned handover the one in force; else the one R50 gives, with or
without the lanes that leave by a NOTICE of which the sender may not have known yet (log entry 90). -/
def tripleAgrees (s : State) (t : Transfer) : Bool :=
  if t.kind = 2 then t.shares == sharesOf s
  else t.shares == sharesAfter s t.subj || t.shares == sharesAfter (s.modCont (fun c => { c with transfers := [] })) t.subj

/-- A NOTICE (R393, R395, R396): its transfer is held for the transfer tick; a triple that differs from the lane's own sets SHAREFLT,
and the lane withdraws. A lane named as lost takes no part. -/
def noticeIn (e : Port) (f : EbpFrame) (s : State) : State :=
  frameIn e 1 12 f (fun _ s =>
    let s := forwardFrame 1 f e s
    let t : Transfer :=
      { subj := bytesAt f.payload 0 1, kind := bytesAt f.payload 1 1, shares := Shares.unpack (bytesAt f.payload 4 4),
        newLead := bytesAt f.payload 8 1, left := transferLeft s (bytesAt f.payload 2 2) }
    if t.subj = laneId s ∨ 3 ≤ t.subj then s
    else
      let agrees := tripleAgrees s t
      let known := s.cont.transfers.any (fun x => x.subj == t.subj && x.kind != 2)
      let s := joinedDrop (if known then s else holdTransfer t s)
      if s.get F.CONT_STAT_ROLE ≠ 0 ∧ agrees = false then withdraw 1 (degrade (s.put F.CONT_STAT_SHAREFLT 1))
      else s) s

/-- Whether a CLAIM's triple can be put in force here: it leaves this lane's share as it is, or the lane enters the set with it at
formation (R40, R42, R44, R48, R369). -/
def tripleTaken (s : State) (t : Shares) : Bool := t.of (laneId s) == shareInForce s || mayEnter s

/-- A CLAIM (R378, R401): a lead judges it by lane ID; any other lane takes the claimant as its lead with the triple named. -/
def claimIn (e : Port) (f : EbpFrame) (s : State) : State :=
  frameIn e 2 8 f (fun l s =>
    let s := s.modCont (fun c => { c with claimed := some s.tick, claimWait := false, leadSeen := true })
    if s.get F.CONT_STAT_ROLE = 2 then twoLeads l.val s
    else
      let s := (s.put (F.CONT_PEER_ROLE l.val) 2).put (F.CONT_PEER_LOST l.val) 0
      let t := Shares.unpack (bytesAt f.payload 4 4)
      let s := if tripleTaken s t then putShares t (holdEnd s) else holdEnd s
      judgeSet (joinCheck (enterStandIn s))) s

/-- The logical engine that enables the exchange-frame trigger of a port (R380). -/
def exchangeEngine (s : State) (e : Port) : Option Eng :=
  (List.finRange 7).find? (fun k => s.on (if e = 0 then F.HLE_ENGTRG2_E0_EN k else F.HLE_ENGTRG2_E1_EN k))

/-- The payload words of an exchange frame written from a data-RAM word on, then the trigger raised (R274, R379). -/
def exchangeIn (e : Port) (first words : Nat) (f : EbpFrame) (s : State) : State :=
  match exchangeEngine s e with
  | none => s.put (F.EBP_STAT_XDROP e) 1
  | some k =>
    let base := s.get (F.EBP_XRX_ADDR e) + first
    let s := (List.range words).foldl (fun s i =>
      s.setMem20 (dataAddr k ((base + i) % 2048)) (BitVec.ofNat 20 (bytesAt f.payload (4 * i) 4))) s
    triggerArrive k (.exchange e)
      (BitVec.ofNat 8 (s.get (if e = 0 then F.HLE_ENGTRG2_E0_EP k else F.HLE_ENGTRG2_E1_EP k))) s

/-- A set-wide operation put among those that wait, in the order of their instants. -/
def putOperation (o : SetOp) : List SetOp → List SetOp
  | [] => [o]
  | p :: t => if o.due < p.due then o :: p :: t else p :: putOperation o t

/-- A set-wide operation held for its instant (R418). -/
def holdOperation (o : SetOp) (s : State) : State := s.modCont (fun c => { c with setOps := putOperation o c.setOps })

/-- The waiting set-wide operation whose instant comes first takes effect (R418). -/
def applyOperation (s : State) : State :=
  match s.cont.setOps with
  | [] => s
  | o :: t => s.modCont (fun c => { c with lastSetOp := some o, setOps := t })

/-- A set-wide operation held for ts + 8.0 µs (R418). -/
def setOpIn (e : Port) (f : EbpFrame) (s : State) : State :=
  frameIn e 5 16 f (fun _ s =>
    holdOperation ⟨bytesAt f.payload 0 2, (f.payload.drop 4).take 12, originTick s (bytesAt f.payload 2 2) + 1600⟩ (forwardFrame 5 f e s)) s

/-! ## BEAT (R378, R414) -/

/-- Whether two outer results agree within CMPTOL. -/
def resultsNear (s : State) (x y : Q20) : Bool :=
  decide ((x.toInt - y.toInt).natAbs * 1000 ≤ s.get F.CONT_CMP_CMPTOL * 2 ^ 19)

/-- The outer-result vote of a triplex lane (R414), taken once for a cycle, when the second of the two peers' DOWN for it has come. -/
def vote (l : Lane) (s : State) : State :=
  match (peersOf s).find? (fun q => q ≠ l) with
  | none => s
  | some q =>
    let cyc := s.get F.CONT_CYC_CYC
    if !voteHeld s || s.cont.voted || s.peers[l.val].downCyc != some cyc || s.peers[q.val].downCyc != some cyc then s
    else
        let s := s.modCont (fun c => { c with voted := true })
        let own := s.cont.ownD
        let dl := s.peers[l.val].down
        let dq := s.peers[q.val].down
        let nl := resultsNear s own dl
        let nq := resultsNear s own dq
        let lq := resultsNear s dl dq
        if !nl && !nq && lq then
          let s := s.modCont (fun c => { c with voteRun := c.voteRun + 1 })
          if s.get F.CONT_CMP_CMPN ≤ s.cont.voteRun then withdraw 5 s else s
        else
          let s := s.modCont (fun c => { c with voteRun := 0 })
          if !nl && !nq && !lq then degrade (s.put F.CONT_STAT_MISCMP 1) else s

/-- What a peer's frame says of its being drive-ready (R46): a lane that has withdrawn or was lost counts again once it was not ready
or holds a role. -/
def announce (l : Nat) (ready holds : Bool) (s : State) : State :=
  s.modCont (fun c =>
    let out := bitAt c.out.toNat l && ready && !holds
    { c with out := BitVec.ofNat 3 (withBit c.out.toNat l out)
             announced := BitVec.ofNat 3 (withBit c.announced.toNat l (ready && !out)) })

/-- A BEAT (R378): the peer's role and flags, the borrowed position, DOWN for the vote. A lead's BEAT shows that the set has left hold;
a HOLD flag puts this lane in hold only while no lead is known, since a CLAIM alone ends it (R417). -/
def beatIn (e : Port) (f : EbpFrame) (s : State) : State :=
  frameIn e 6 20 f (fun l s =>
    let p := f.payload
    let flags := bytesAt p 10 1
    let cyc := bytesAt p 12 2
    let role := flags % 4
    let back := role ≠ 0 ∧ roleSeen s l.val = 0
    let s := s.modPeer l (fun x => { x with
      ready := bitAt flags 2, qual := bitAt flags 4, late := bitAt flags 5, linkUp := BitVec.ofNat 3 (bytesAt p 11 1), cyc := cyc,
      down := BitVec.ofNat 20 (bytesAt p 16 4), downCyc := some cyc })
    let s := s.put (F.CONT_PEER_ROLE l.val) role
    let s := s.when (role != 0) (·.put (F.CONT_PEER_LOST l.val) 0)
    let s := (announce l.val (bitAt flags 2) (role != 0 && !leaving s l.val) s).modCont (fun c => { c with
      leadSeen := c.leadSeen || role == 2 })
    let s := s.when (role == 2) holdEnd
    let s := s.when (s.get F.CONT_STAT_ROLE == 0 && bitAt flags 3 && !inHold s && (peersOf s).all (fun q => roleSeen s q.val != 2)) holdBegin
    let mspeed := toSigned 32 (bytesAt p 4 4)
    let age := bytesAt p 8 2 + s.get (F.EBP_DELAY_DELAY e)
    let s := borrowFrame l (bitAt (bytesAt p 3 1) 0) (bitAt (bytesAt p 3 1) 1) (bitAt (bytesAt p 3 1) 2) (bytesAt p 0 3) mspeed
      (s.tick - age) s
    let s := edegCheck (vote l s)
    enterStandIn (if back then judgeSet s else s)) s

/-- MSPEED of POS0: the speed of the interface that MECH came from, in 2^-8 MECH counts per tick (R170); the spec gives no
rounding (log entry 10). -/
def ownMspeed (s : State) : Int :=
  let v := match s.pos[0].from_ with
    | 0 => s.pos[0].sc.speed
    | 1 => s.pos[0].abz.speed
    | _ => s.pos[0].hall.speed
  s.roundFree v (polePairs s 0 * 16)

/-- Role and flags as BEAT byte 10 carries them. -/
def roleFlags (s : State) : Nat :=
  s.get F.CONT_STAT_ROLE + 4 * s.cont.ready.toNat + 8 * (inHold s).toNat + 16 * s.get F.CONT_STAT_QUAL + 32 * s.get F.CONT_STAT_LATE

/-- Links up and beats seen by lane ID, as BEAT byte 11 and lane-status byte 1 carry them. -/
def linkFlags (s : State) : Nat :=
  (peersOf s).foldl (fun a l => a + 2 ^ l.val * (s.get (F.CONT_PEER_LINK l.val) + 8 * s.get (F.CONT_PEER_BEAT l.val))) 0

/-- The BEAT payload (R170, R378), the age of the sample as at the start of the frame on the line. -/
def beatPayload (s : State) : List Byte :=
  leBytes 3 (s.get (F.POS_MECH_MECH 0))
    ++ [BitVec.ofNat 8 (s.get (F.POS_STAT_MTVALID 0) + 2 * s.get (F.POS_STAT_SPDVALID 0) + 4 * s.get (F.POS_STAT_LOWCONF 0))]
    ++ leBytes 4 (ofSigned 32 (ownMspeed s)) ++ leBytes 2 (min 65535 (frameStart s 6 - s.pos[0].ts))
    ++ [BitVec.ofNat 8 (roleFlags s), BitVec.ofNat 8 (linkFlags s)] ++ leBytes 2 (s.get F.CONT_CYC_CYC) ++ [0, 0]
    ++ leBytes 4 s.cont.ownD.toNat

/-- The FORM payload (R378). No register is named for the winding shift of R31: it stands in Config. -/
def formPayload (s : State) : List Byte :=
  let b := mainBridge s
  leBytes 2 (s.get F.SEAL_STRAP_WORD) ++ leBytes 2 (s.get (F.ANG_PER_ASYNC_PER b))
    ++ [BitVec.ofNat 8 (s.get (F.ANG_CTRL_INNER_X b) + 2 * s.get (F.ANG_CTRL_OUTER_M b)
        + 16 * Config.windingShift.toNat + 32 * s.cont.ready.toNat)]
    ++ List.replicate 7 0

/-- 200 ns after each reference inner tick (R377): BEAT, and FORM from drive-ready until the set is formed. -/
def beatOut (s : State) : State :=
  let s := sendFrame 6 (beatPayload s) s.drew
  if s.cont.ready && s.get F.CONT_STAT_SETSTATE == 3 then sendFrame 9 (formPayload s) s else s

/-- The strap word of a FORM frame against this lane's (R41). -/
def formMember (s : State) (p : List Byte) : Bool :=
  let w := bytesAt p 0 2
  w / 256 % 8 == setId s && w / 4 % 4 == topology s && w % 4 != laneId s

/-- The four values of R31 that a FORM frame carries against this lane's. -/
def formTiming (s : State) (p : List Byte) : Bool :=
  topology s != 2 || (bytesAt p 2 2 == bytesAt (formPayload s) 2 2 && bytesAt p 4 1 % 32 == bytesAt (formPayload s) 4 1 % 32)

/-- A set-membership fault that names a peer (R42). -/
def memberFault (l : Lane) (s : State) : State :=
  s.modCont (fun c => { c with membership := BitVec.ofNat 3 (withBit c.membership.toNat l true) })

/-- A FORM (R41, R42, R31, R32): the peer's strap word and timing values against the lane's own. One that R376 discards for its SET_ID
or its SRC does no more than fail the check of R41 (log entry 39). -/
def formIn (e : Port) (f : EbpFrame) (s : State) : State :=
  let foreign := f.setId.toNat != setId s || f.src.toNat == laneId s
  let s :=
    if portInUse s e && frameCrcOk 9 f && frameLenOk 12 f && foreign && !formMember s f.payload then
      match laneOf f.src.toNat with | some l => memberFault l s | none => s
    else s
  frameIn e 9 12 f (fun l s =>
    let flags := bytesAt f.payload 4 1
    let s := s.modPeer l (fun p => { p with strap := some (BitVec.ofNat 16 (bytesAt f.payload 0 2)), ready := bitAt flags 5 })
    let s := announce l.val (bitAt flags 5) false s
    if formMember s f.payload && formTiming s f.payload then s else memberFault l s) s

/-! ## CONT frames (R388 to R391) -/

/-- The words of a valid CONT payload shown in CONT_CFRX. -/
def showWords (p : List Byte) (s : State) : State :=
  (List.range (min 56 (p.length / 4))).foldl (fun s i => s.put (F.CONT_CFRX_WORD i) (bytesAt p (4 * i) 4)) s

/-- Swap and commit carried by the lead's frame; a swap first learnt at its own cycle or after it has been missed (R397, R398). -/
def carried (f : ContFrame) (s : State) : State :=
  let cyc := s.get F.CONT_CYC_CYC
  let s :=
    if bitAt f.flags 1 ∧ s.cont.swap = none ∧ s.cont.lastSwap.map (·.cyc) ≠ some f.swapCyc then
      if f.swapCyc = cyc ∨ (f.swapCyc + 1) % 65536 = cyc then withdraw 1 s
      else s.modCont (fun c => { c with swap := some ⟨bitAt f.flags 2, f.swapCyc⟩ })
    else s
  if bitAt f.flags 3 ∧ f.commitCyc ≠ cyc then
    s.modCont (fun c => { c with commit := some ⟨f.commit, f.commitCyc⟩, accepted := none })
  else s

/-- The comparison of a frame's D and SPSEQ with this lane's own of the same CYC (R391): those kept at the outer tick for a frame of the
cycle that it ended, else the present ones. A D that has not landed yet in the present cycle is compared as the register shows it
(log entry 102). -/
def compareFrame (f : ContFrame) (s : State) : State :=
  let present := decide (f.cyc = s.get F.CONT_CYC_CYC)
  let own := if present then BitVec.ofNat 20 (s.get F.CONT_D_D) else s.cont.ownD
  let same := resultsNear s (BitVec.ofNat 20 f.d) own
    && f.spseq == (if present then s.get F.CONT_SPSEQ_SPSEQ else s.cont.ownSpseq.toNat)
  if same then s.modCont (fun c => { c with misRun := 0 })
  else
    let s := (s.countBit F.CONT_CNT_MISCNT F.CONT_CNT_OVF 0).modCont (fun c => { c with misRun := c.misRun + 1, qualRun := 0 })
    if s.get F.CONT_CMP_CMPN ≤ s.cont.misRun then degrade (s.put F.CONT_STAT_MISCMP 1) else s

/-- A CONT frame at a lane (R390, R391). A stand-in that is not qualified takes the set's cycle number from its first frame, and from one
that is neither of its cycle nor of the one before (log entry 38); a frame of the cycle before is late: compared and not copied. A
lane without a role hears by a frame that the lead lives (R54). -/
def contIn (e : Port) (f : EbpFrame) (s : State) : State :=
  frameIn e 7 (32 + 4 * s.get F.CONT_CFCFG_NST) f (fun l s =>
    let c : ContFrame := { payload := f.payload }
    let s := showWords f.payload s
    if roleSeen s l.val ≠ 2 then s
    else if s.get F.CONT_STAT_ROLE = 0 then s.modCont (fun k => { k with frameCyc := true, misses := 0 })
    else if s.get F.CONT_STAT_ROLE ≠ 1 then s
    else
      let own := s.get F.CONT_CYC_CYC
      let fresh := s.on F.CONT_STAT_QUAL
      let late := decide ((c.cyc + 1) % 65536 = own) && (fresh || s.cont.cycTaken)
      let s := if !fresh && !late then (s.put F.CONT_CYC_CYC c.cyc).modCont (fun k => { k with cycTaken := true }) else s
      if late then compareFrame c (s.countBit F.CONT_CNT_CFMISS F.CONT_CNT_OVF 1)
      else if c.cyc ≠ s.get F.CONT_CYC_CYC then s.countBit F.CONT_CNT_CFMISS F.CONT_CNT_OVF 1
      else
        let s := edegCheck (s.modCont (fun k => { k with frame := some c, frameCyc := true, misses := 0 }))
        compareFrame c (carried c s)) s

/-- The swap that a frame of the present cycle carries: the one under way, or in the cycle after SWAPCYC the one just applied (R398). -/
def swapCarried (s : State) : Option SwapReq :=
  match s.cont.swap with
  | some w => some w
  | none => s.cont.lastSwap.filter (fun w => (w.cyc + 1) % 65536 == s.get F.CONT_CYC_CYC)

/-- The continuity slot of the lead (R388): the frame assembled and sent; LATE with the words of the previous cycle, kept at the outer
tick, when the outer activation of the cycle waits or runs. -/
def slot (s : State) : State :=
  if s.get F.CONT_STAT_ROLE ≠ 2 then s
  else
    let cyc := s.get F.CONT_CYC_CYC
    let late := outerRuns s
    let words := if late then s.cont.lastWords else stateWords s
    let swap := (swapCarried s).getD ⟨s.on F.CONT_SWAP_BANK, s.get F.CONT_SWAP_CYC⟩
    let commit := match s.cont.commit with
      | some c => some c
      | none => s.cont.lastCommit.filter (fun c => c.cyc == cyc)
    let flags := late.toNat + 2 * (swapCarried s).isSome.toNat + 4 * swap.bank.toNat + 8 * commit.isSome.toNat + 16 * (inHold s).toNat
    let c := commit.getD ⟨⟨0, 0, 0⟩, 0⟩
    let p := leBytes 2 cyc ++ leBytes 2 flags ++ leBytes 4 (s.get F.CONT_D_D) ++ leBytes 4 (sharesOf s).pack
      ++ leBytes 4 (s.get F.CONT_SPSEQ_SPSEQ) ++ leBytes 2 swap.cyc ++ leBytes 2 c.cyc ++ leBytes 4 c.shares.pack
      ++ leBytes 4 (s.get (F.CONT_APP_APP 0)) ++ leBytes 4 (s.get (F.CONT_APP_APP 1)) ++ words
    sendFrame 7 p s

/-- The lead judged by the fast path (R402): declared lost once its beat has stopped and two slots in a row have missed its
frame, or EDEG when those did not begin together (R404). -/
def leadCheck (s : State) : State :=
  match (peersOf s).find? (fun l => roleSeen s l.val == 2) with
  | none => s
  | some l =>
    if s.get F.CONT_STAT_ROLE ≠ 2 ∧ judgesPeers s = true ∧ 2 ≤ s.cont.misses ∧ s.on (F.CONT_PEER_BEAT l.val) = false then
      if within2Ti s s.peers[l.val].edge s.peers[l.val].frame then declareLost l 3 s else setEdeg l s
    else s

/-- The check of a continuity slot (R402). -/
def slotCheck (s : State) : State :=
  if s.get F.CONT_STAT_ROLE = 2 ∨ judgesPeers s = false then s
  else if s.cont.frameCyc then s.modCont (fun c => { c with misses := 0 })
  else
    leadCheck ((s.countBit F.CONT_CNT_CFMISS F.CONT_CNT_OVF 1).modCont (fun c => { c with misses := c.misses + 1, qualRun := 0 }))

/-! ## SHARE (R397) -/

/-- An acceptance counted (R397). -/
def noteAccepted (l : Lane) (s : State) : State :=
  (s.modPeer l (fun p => { p with accepted := true })).modCont (fun c => { c with acceptedAt := s.get F.CONT_CYC_CYC })

/-- A SHARE at a lane: a proposal answered, an answer counted, the commit carried once all have accepted. A stand-in hears the answers of
the others too: a refusal ends the proposal that it accepted. -/
def shareIn (e : Port) (f : EbpFrame) (s : State) : State :=
  frameIn e 8 12 f (fun l s =>
    let code := bytesAt f.payload 0 1
    let t := Shares.unpack (bytesAt f.payload 4 4)
    let cyc := bytesAt f.payload 8 2
    let role := s.get F.CONT_STAT_ROLE
    if code = 1 then
      if role ≠ 1 then s
      else
        let s := { s with peers := s.peers.map (fun p => { p with accepted := false }) }
        if t.sum = 1000 ∧ mayTakePart s = true ∧ s.cont.transfers = [] then
          (sendFrame 8 (sharePayload 2 t cyc) s).modCont (fun c => { c with accepted := some ⟨t, cyc⟩, acceptedAt := s.get F.CONT_CYC_CYC })
        else (sendFrame 8 (sharePayload 3 t cyc) s).modCont (fun c => { c with accepted := none })
    else if role = 1 ∧ s.cont.accepted = some ⟨t, cyc⟩ then
      if code = 2 then noteAccepted l s
      else if code = 3 then s.modCont (fun c => { c with accepted := none })
      else s
    else if role ≠ 2 ∨ s.cont.proposal ≠ some ⟨t, cyc⟩ then s
    else if code = 2 then
      let s := noteAccepted l s
      if (peersOf s).all (fun q => roleSeen s q.val == 0 || s.peers[q.val].accepted) && s.cont.commit.isNone then
        s.modCont (fun c => { c with commit := some ⟨t, (s.get F.CONT_CYC_CYC + 2) % 65536⟩ })
      else s
    else if code = 3 then
      let s := s.modCont (fun c => { c with proposal := none })
      ((s.put F.CONT_SB_BUSY 0).put F.CONT_SB_GO 0).put F.CONT_SB_REFUSED 1
    else s) s

/-! ## Training and losses -/

/-- A TRAIN frame sent on a port (R373); its payload is not laid out by the spec, so its bytes are free. -/
def sendTrain (e : Port) (s : State) : State :=
  if coreStopped s then s
  else
  let g := frameOf s 15 (leBytes 8 s.free.toNat)
  let s := (countSeq 15 s).modEbp e (fun x => { x with
    sent := Tab.put (fun _ => none) x.sent 15 (some g), line := linePut 3 (frameTicks 15 g) s.tick x.line })
  (s.inc (F.EBP_FRAMES_TXOK e)).drew

/-- TRAIN exchanged (R373): a port answers while it trains itself. -/
def trainIn (e : Port) (f : EbpFrame) (s : State) : State :=
  frameIn e 15 8 f (fun _ s =>
    let s := s.put (F.EBP_STAT_LOCK e) 1
    if s.on (F.EBP_STAT_TRAINED e) then s else sendTrain e s) s

/-- Training ends (R36, R373): DELAY within two ticks of half the round trip less the turnaround; or after 2 ms without it, E1 of a
duplex set that has not trained since its cold start absent, else the link lost. -/
def trainingEnds (e : Port) (trained : Bool) (rtt turnaround : Nat) (peer : Lane) (s : State) : State :=
  if !s.on (F.EBP_CTRL_EN e) then s
  else
    let s := (s.put (F.EBP_CTRL_RETRAIN e) 0).modEbp e (fun x => { x with training := false })
    if trained then
      let d := within (128 * ((rtt : Int) - turnaround)) 2 s.free
      let s := (s.put (F.EBP_DELAY_DELAY e) (max 0 d).toNat).drew
      let s := ((s.put (F.EBP_STAT_LOCK e) 1).put (F.EBP_STAT_TRAINED e) 1).put (F.EBP_STAT_PEER e) peer.val
      showLinks (s.modEbp e (fun x => { x with beats := 0, violations := [], everTrained := true }))
    else if e = 1 ∧ (topology s = 1 ∨ topology s = 2) ∧ s.on F.KEEP_STAT_WARM = false ∧ s.ebp[e.val].everTrained = false then
      s.put (F.EBP_STAT_ABSENT e) 1
    else loseLink e s

/-- A port trains, at its enabling and anew (R373, R374): an enabled one sends its TRAIN frame. -/
def retrain (e : Port) (s : State) : State :=
  let on := portInUse s e
  let s := ((s.put (F.EBP_STAT_LOCK e) 0).put (F.EBP_STAT_TRAINED e) 0).modEbp e (fun x => { x with
    beats := 0, violations := [], training := on })
  showLinks (if on then sendTrain e s else s)

/-- A code violation (R374): the fourth within 64 symbols, which last 256 ticks, loses the link. -/
def codeError (e : Port) (s : State) : State :=
  if !portInUse s e then s
  else
    let s := s.countBit (F.EBP_CNT_CODEERR e) (F.EBP_CNT_OVF e) 1
    let s := s.modEbp e (fun x => { x with violations := (s.tick :: x.violations.filter (fun t => decide (s.tick < t + 256))).take 4 })
    if 4 ≤ s.ebp[e.val].violations.length then loseLink e s else s

/-! ## The slate and the beat -/

/-- The error of a slate that arrives now (R382): this lane's valley time less the leader's, which is the arrival less DELAY less the
offset, in ticks; the valley taken is this lane's nearest one. The valley to come lies a period after the last, less the steps removed
from the period that runs (R664). -/
def slateError (e : Port) (ticks : Nat) (s : State) : Int :=
  let b := mainBridge s
  let per : Int := s.get (F.ANG_PER_ASYNC_PER b)
  let leader : Int := (s.tick : Int) - s.get (F.EBP_DELAY_DELAY e) - ticks
  let d : Int := s.ang[b.val].valleyTick - leader
  if 2 * d < -per then d + per - s.ang[b.val].ref.adjust else if per < 2 * d then d - per else d

/-- A slate (R382, R383): the error kept for the next valley, sixteen within 25 ns lock; a slate marked as an outer tick sets the
outer count. -/
def slateIn (e : Port) (ticks : Nat) (outer : Bool) (s : State) : State :=
  if !portUp s e || slateLeader s then s
  else
    let err := slateError e ticks s
    let s := (s.putS (F.EBP_SLATE_ERR e) (clipSigned 8 err)).modEbp e (fun x => { x with
      err := some err, good := if err.natAbs ≤ 5 then x.good + 1 else 0 })
    let s := if 16 ≤ s.ebp[e.val].good then s.put (F.EBP_STAT_SLATELOCK e) 1 else s
    if outer then
      let b := mainBridge s
      let recent := decide (2 * (s.tick - s.ang[b.val].refTick) < innerPeriod s)
      s.modAng b (fun a => { a with refCount := if recent then 0 else 2 ^ s.get (F.ANG_CTRL_OUTER_M b) - 1 })
    else s

/-- An edge on a LEADIN input (R386, R401); one that the topology does not use moves nothing (R34, R46). -/
def beatEdge (i : Fin 2) (level : Bool) (s : State) : State :=
  let used := (leadinLane s i).isSome
  let s := s.modCont (fun c => { c with
    levels := BitVec.ofNat 2 (withBit c.levels.toNat i level), beatMoved := c.beatMoved || (used && s.on F.CONT_STAT_FORMING) })
  match leadinLane s i with
  | none => s
  | some l =>
    let old := s.peers[l.val].edge
    let s := (s.putB (F.CONT_PEER_LEVEL l.val) level).modPeer l (fun p => { p with
      edge := some s.tick, lastEdge := old, lowSince := if level then none else some s.tick })
    let seen := match old with | some t => decide (2 * (s.tick - t) ≤ 3 * innerPeriod s) | none => false
    if seen then twoLeads l.val (s.put (F.CONT_PEER_BEAT l.val) 1) else s

/-- No edge for 3 Ti (R386): the beat has stopped; with frames still coming a lead's stopped beat, or a stand-in's line at low, is a beat
fault (R385, R415), and a stand-in's silence is judged (R403, R404). -/
def beatStopped (i : Fin 2) (s : State) : State :=
  match leadinLane s i with
  | none => s
  | some l =>
    let had := s.on (F.CONT_PEER_BEAT l.val)
    let s := s.put (F.CONT_PEER_BEAT l.val) 0
    let broken := (had && roleSeen s l.val == 2) || (roleSeen s l.val == 1 && lowLong s l && !leaving s l.val)
    let s := if broken && !framesGone s l then degrade (s.put F.CONT_STAT_BEATFLT 1) else s
    leadCheck (standInCheck l s)

/-! ## Requests -/

/-- WDREQ (R369). -/
def withdrawRequest (s : State) : State :=
  if s.get F.CONT_STAT_ROLE = 0 then s else withdraw 1 (s.put F.CONT_CTRL_WDREQ 1)

/-- A swap request in the lead (R398); in any other lane the bit clears and nothing follows. -/
def swapRequest (s : State) : State :=
  let s := s.put F.CONT_SWAP_REQ 0
  if s.get F.CONT_STAT_ROLE = 2 ∧ s.on F.CONT_SWAP_PEND = false then
    let cyc := (s.get F.CONT_CYC_CYC + 2) % 65536
    ((s.put F.CONT_SWAP_PEND 1).put F.CONT_SWAP_CYC cyc).modCont (fun c => { c with
      swap := some ⟨s.on F.CONT_SWAP_BANK, cyc⟩ })
  else s

/-- The grounds on which the lead refuses GO and HAND (R416); a lane that is not lead has no lead's request to grant. -/
def switchRefused (s : State) (concerned : List Nat) : Bool :=
  s.get F.CONT_STAT_ROLE != 2 || concerned.any (fun l => !qualSeen s l) || s.on F.CONT_STAT_EDEG || s.on F.CONT_STAT_MISCMP
    || s.on F.CONT_STAT_SHAREFLT || !s.cont.transfers.isEmpty || s.cont.proposal.isSome || s.cont.commit.isSome

/-- GO: shares toward their values at rest, which concerns every other lane of the topology (R416). -/
def switchGo (s : State) : State :=
  if switchRefused s ((peersOf s).map (·.val)) then (s.put F.CONT_SB_GO 0).put F.CONT_SB_REFUSED 1
  else switchStep ((s.put F.CONT_SB_GO 1).put F.CONT_SB_BUSY 1)

/-- HAND: lead to LANE by plan (R369, R416). -/
def handover (s : State) : State :=
  let lane := s.get F.CONT_SB_LANE
  if switchRefused s [lane] || lane == laneId s then (s.put F.CONT_SB_HAND 0).put F.CONT_SB_REFUSED 1
  else
    sendTransfer { subj := laneId s, kind := 2, shares := sharesOf s, newLead := lane, left := 0 }
      ((s.put F.CONT_SB_HAND 1).put F.CONT_SB_BUSY 1)

/-! ## Lane status (R404, R405, R479) -/

/-- Bytes 0 to 13 of the lane status. -/
def laneStatusBytes (s : State) : List Byte :=
  [BitVec.ofNat 8 (s.get F.CONT_STAT_ROLE + 4 * (inHold s).toNat + 8 * s.get F.CONT_STAT_QUAL + 16 * s.get F.CONT_STAT_SETSTATE
      + 64 * s.get (F.POS_STAT_MTVALID 0) + 128 * s.get (F.POS_STAT_UNCERT 0)),
   BitVec.ofNat 8 (linkFlags s + 64 * s.get F.CONT_STAT_EDEG)]
    ++ leBytes 2 ((sharesOf s).of (laneId s)) ++ leBytes 2 (s.get F.CONT_CYC_CYC) ++ leBytes 2 s.cont.lsCount
    ++ leBytes 4 (if inHold s then s.cont.heldPos else s.rd (F.POS_MT_MT 0).addr).toNat ++ [0, 0]

/-- The lane status sent on C0 and C1 (R405). -/
def laneStatusOut (s : State) : State :=
  let b := laneStatusBytes s
  let p := b ++ leBytes 2 (crc16 b)
  let id := s.get F.CONT_LS_LSID + 3 * setId s + laneId s
  canSend 1 31 id true p (canSend 0 31 id true p
    (s.modCont (fun c => { c with lsCount := (c.lsCount + 1) % 65536, lsOut := p })))

/-- A lane status received (R401, R404, R479). -/
def laneStatusIn (net : Fin 2) (l : Lane) (p : List Byte) (s : State) : State :=
  if p.length ≠ 16 ∨ bytesAt p 14 2 ≠ crc16 (p.take 14) ∨ l.val = laneId s then s
  else
    let role := bytesAt p 0 1 % 4
    let was := roleSeen s l.val
    let s := (s.put (F.CONT_PEER_HEARD l.val) 1).modPeer l (fun x =>
      if net = 0 then { x with ls0 := some s.tick } else { x with ls1 := some s.tick })
    let s := if role = 2 then twoLeads l.val s else s
    if role = 0 ∧ was ≠ 0 ∧ bitAt s.cont.edeg.toNat l = true then declareLost l 4 s
    else if peerLinked s l then s
    else s.put (F.CONT_PEER_ROLE l.val) role

/-- No lane status from a peer on either network for CANTMO (R404). -/
def laneStatusGone (l : Lane) (s : State) : State :=
  let s := (s.put (F.CONT_PEER_HEARD l.val) 0).modPeer l (fun p => { p with ls0 := none, ls1 := none })
  if bitAt s.cont.edeg.toNat l then declareLost l 4 s else s

/-- XDL after the valley (R411): the period's XREF has come since the valley, or a miss is counted; two in a row are a detection. -/
def xrefDeadline (s : State) : State :=
  if s.on F.CONT_STAT_JOINED then
    let n := if s.cont.xrefHere then 0 else s.cont.xrefMiss + 1
    let s := s.modCont (fun c => { c with xrefMiss := n })
    if 2 ≤ n then joinedDrop s else s
  else s

/-- Whether a broadcast is the second copy of one that came on the other network (R419). -/
def secondCopy (net : Fin 2) (data : List Byte) (s : State) : Bool := s.cont.broadcast == some (1 - net, data)

/-- A chassis-wide broadcast (R419), once for its two copies: the lead's service engine confirms it and issues the operation in its set.
What the confirmation carries the spec does not lay out: free values; nor how the operation follows from the broadcast: an open
function of its bytes (log entry 29). -/
def chassisIn (net : Fin 2) (data : List Byte) (s : State) : State :=
  let second := secondCopy net data s
  let s := s.modCont (fun c => { c with broadcast := if second then none else some (net, data) })
  if s.get F.CONT_STAT_ROLE ≠ 2 ∨ second = true then s
  else
    let n : CanCtl := if net = 0 then 0 else 1
    let id := s.get (F.CAN_SVC_CWID n) + 1 + setId s
    let s := canSend n 29 id true (leBytes 8 s.free.toNat) (s.modCont (fun c => { c with confirms := c.confirms + 1 }))
    let s := s.drew
    let op := Config.chassisOperation data
    let operands := leBytes 12 (op.toNat / 65536)
    holdOperation ⟨op.toNat % 65536, operands, frameStart s 5 + 1600⟩
      (sendFrame 5 (leBytes 2 op.toNat ++ leBytes 2 (frameOfs s 5) ++ operands) s)

/-- A confirmation of a chassis-wide operation from the set of an identifier (R419, R478), held by the originator. -/
def confirmationIn (set : Nat) (s : State) : State :=
  s.modCont (fun c => { c with confirmed := BitVec.ofNat 8 (withBit c.confirmed.toNat set true) })

/-! ## Commands -/

/-- LINK_TRAINING_DONE (R373). -/
def execLinkTrainingDone (e : Port) (trained : Bool) (rtt turnaround : Nat) (peer : Lane) (s : State) : Out :=
  clockedOut s <| .next (trainingEnds e trained rtt turnaround peer s)
/-- LINK_LOST (R374). -/
def execLinkLost (e : Port) (s : State) : Out := clockedOut s <| .next (loseLink e s)
/-- LINK_RETRAIN (R374). -/
def execLinkRetrain (e : Port) (s : State) : Out :=
  clockedOut s <| .next (if portInUse s e && s.on (F.EBP_STAT_LOST e) then retrain e s else s)
/-- RETRAIN_REQUEST (R374): a write of EBPn_CTRL with RETRAIN = 1. -/
def execRetrainRequest (e : Port) (s : State) : Out :=
  clockedOut s <| .next (if s.on (F.EBP_CTRL_EN e) then retrain e (s.put (F.EBP_CTRL_RETRAIN e) 1) else s)
/-- NOTICE_RECEIVED (R393). -/
def execNoticeReceived (e : Port) (f : EbpFrame) (s : State) : Out := clockedOut s <| .next (noticeIn e f s)
/-- CLAIM_RECEIVED (R401). -/
def execClaimReceived (e : Port) (f : EbpFrame) (s : State) : Out := clockedOut s <| .next (claimIn e f s)
/-- XCUR_RECEIVED (R379). -/
def execXcurReceived (e : Port) (f : EbpFrame) (s : State) : Out := clockedOut s <| .next (frameIn e 3 12 f (fun _ s => exchangeIn e 0 3 f s) s)
/-- XREF_RECEIVED (R379, R411). -/
def execXrefReceived (e : Port) (f : EbpFrame) (s : State) : Out :=
  clockedOut s <| .next (frameIn e 4 8 f (fun _ s => exchangeIn e 3 2 f (s.modCont (fun c => { c with xrefHere := true }))) s)
/-- SETOP_RECEIVED (R418). -/
def execSetopReceived (e : Port) (f : EbpFrame) (s : State) : Out := clockedOut s <| .next (setOpIn e f s)
/-- SETOP_APPLY (R418). -/
def execSetopApply (s : State) : Out := clockedOut s <| .next (applyOperation s)
/-- BEAT_RECEIVED (R378). -/
def execBeatReceived (e : Port) (f : EbpFrame) (s : State) : Out := clockedOut s <| .next (beatIn e f s)
/-- BEAT_SEND (R377). -/
def execBeatSend (s : State) : Out := clockedOut s <| .next (beatOut s)
/-- CONT_FRAME_RECEIVED (R391). -/
def execContFrameReceived (e : Port) (f : EbpFrame) (s : State) : Out := clockedOut s <| .next (contIn e f s)
/-- CONTINUITY_SLOT (R388). -/
def execContinuitySlot (s : State) : Out := clockedOut s <| .next (slot s)
/-- SHARE_RECEIVED (R397). -/
def execShareReceived (e : Port) (f : EbpFrame) (s : State) : Out := clockedOut s <| .next (shareIn e f s)
/-- FORM_RECEIVED (R41). -/
def execFormReceived (e : Port) (f : EbpFrame) (s : State) : Out := clockedOut s <| .next (formIn e f s)
/-- TRAIN_RECEIVED (R373). -/
def execTrainReceived (e : Port) (f : EbpFrame) (s : State) : Out := clockedOut s <| .next (trainIn e f s)
/-- FORMATION_WINDOW_END (R46). -/
def execFormationWindowEnd (s : State) : Out := clockedOut s <| .next (windowEnd s)
/-- SLATE_RECEIVED (R382). -/
def execSlateReceived (e : Port) (ticks : Fin 4) (outer : Bool) (s : State) : Out := clockedOut s <| .next (slateIn e ticks.val outer s)
/-- LEADIN_EDGE (R386). -/
def execLeadinEdge (i : Fin 2) (level : Bool) (s : State) : Out := clockedOut s <| .next (beatEdge i level s)
/-- BEAT_STOP_TIMEOUT (R386). -/
def execBeatStopTimeout (i : Fin 2) (s : State) : Out := clockedOut s <| .next (beatStopped i s)
/-- CONTINUITY_CHECK (R402). -/
def execContinuityCheck (s : State) : Out := clockedOut s <| .next (slotCheck s)
/-- CLAIM_WAIT_TIMEOUT (R399). -/
def execClaimWaitTimeout (s : State) : Out := clockedOut s <| .next (lateClaim s)
/-- WITHDRAW_REQUEST (R369): a write of CONT_CTRL with WDREQ = 1. -/
def execWithdrawRequest (s : State) : Out := clockedOut s <| .next (withdrawRequest s)
/-- SWAP_REQUEST (R398): a write of CONT_SWAP with REQ = 1 and a BANK. -/
def execSwapRequest (bank : Bool) (s : State) : Out := clockedOut s <| .next (swapRequest (s.putB F.CONT_SWAP_BANK bank))
/-- SWITCHBACK_GO (R416): a write of CONT_SB with GO = 1. -/
def execSwitchbackGo (s : State) : Out := clockedOut s <| .next (switchGo s)
/-- PLANNED_HANDOVER (R416): a write of CONT_SB with HAND = 1. -/
def execPlannedHandover (s : State) : Out := clockedOut s <| .next (handover s)
/-- LANE_STATUS_SEND (R405). -/
def execLaneStatusSend (s : State) : Out := clockedOut s <| .next (laneStatusOut s)
/-- LANE_STATUS_RECEIVED (R479). -/
def execLaneStatusReceived (net : Fin 2) (peer : Lane) (data : List Byte) (s : State) : Out := clockedOut s <| .next (laneStatusIn net peer data s)
/-- LANE_STATUS_TIMEOUT (R404). -/
def execLaneStatusTimeout (peer : Lane) (s : State) : Out := clockedOut s <| .next (laneStatusGone peer s)
/-- XREF_DEADLINE (R411). -/
def execXrefDeadline (s : State) : Out := clockedOut s <| .next (xrefDeadline s)
/-- CHASSIS_BROADCAST_RECEIVED (R419). -/
def execChassisBroadcastReceived (net : Fin 2) (data : List Byte) (s : State) : Out := clockedOut s <| .next (chassisIn net data s)
/-- CODE_VIOLATION (R374). -/
def execCodeViolation (e : Port) (s : State) : Out := clockedOut s <| .next (codeError e s)

end Sys2Proof.Machine
end

