-- ==== Sys2Proof/Machine/Heldiog.lean ====
section
/-!
DEFINITION. The Heldiog engines (chapter 07): dispatch, settings, faults and the instructions that act inside the engine.
Instruction words have no encoding in the spec (R215), so an instruction comes with its operands.
-/
namespace Sys2Proof.Machine

/-! ## The engine -/

/-- Whether an engine runs an activation. -/
def engBusy (s : State) (e : Eng) : Bool := s.on (F.HLE_ENGSTAT_BUSY e)

/-- A data register read, and written. -/
def xr (s : State) (e : Eng) (i : XReg) : Q20 := s.eng[e.val].x[i.val]
def setX (e : Eng) (i : XReg) (v : Q20) (s : State) : State := s.modEng e (fun g => { g with x := g.x.set i.val v i.isLt })

/-- The signed value of a data register. -/
def xi (s : State) (e : Eng) (i : XReg) : Int := (xr s e i).toInt

/-- An accumulator read, and written. -/
def accOf (s : State) (e : Eng) (a : Fin 2) : Int := (s.eng[e.val].acc[a.val]).toInt
def setAcc (e : Eng) (a : Fin 2) (v : Int) (s : State) : State :=
  s.modEng e (fun g => { g with acc := g.acc.set a.val (BitVec.ofInt 48 v) a.isLt })

/-- The flags set from a result. -/
def setFlags (e : Eng) (z n sat : Bool) (s : State) : State := s.modEng e (fun g => { g with z := z, n := n, s := sat })

/-- The flags of a 20-bit result. -/
def flags20 (e : Eng) (v : Q20) (sat : Bool) (s : State) : State := setFlags e (v == 0) v.msb sat s

/-- A result of a class whose part in the flags the spec leaves open (log entry 2). -/
def flagsOpen (e : Eng) (c : Config.FlagClass) (v : Q20) (s : State) : State :=
  if Config.setsFlags c then flags20 e v false s else s

/-- The sticky flag SAT. -/
def markSat (e : Eng) (sat : Bool) (s : State) : State := s.when sat (fun s => s.put (F.HLE_ENGSTAT_SAT e) 1)

/-- A register result with its flags (R214). -/
def result (e : Eng) (d : XReg) (v : Q20) (sat : Bool) (s : State) : State := markSat e sat (flags20 e v sat (setX e d v s))

/-- The place after an instruction at `pc` that does not branch: the loop that ends there goes round or is left (R215). -/
def loopNext (pc : BitVec 12) : List LoopLevel → BitVec 12 × List LoopLevel
  | [] => (pc + 1, [])
  | l :: t =>
    if pc = l.last then
      if 1 < l.left then (l.first, { l with left := l.left - 1 } :: t) else loopNext pc t
    else (pc + 1, l :: t)

/-- An instruction of `cycles` cycles done: the engine goes on to the next. -/
def advance (e : Eng) (cycles : Nat) (s : State) : State :=
  s.modEng e (fun g =>
    let (pc, loops) := loopNext g.pc g.loops
    { g with pc := pc, loops := loops, lastPc := g.pc, cycles := g.cycles + cycles })

/-- A branch taken: two cycles. It leaves the loop stack and its counts as they stand, from the last word of a LOOP body and out of it too (DESIGN CHOICE,
log entry 107). -/
def jump (e : Eng) (target : BitVec 12) (s : State) : State :=
  s.modEng e (fun g => { g with pc := target, lastPc := g.pc, cycles := g.cycles + 2 })

/-- Whether an instruction of `cycles` cycles ends within the LIMIT cycles that an activation has (R226). -/
def fitsLimit (s : State) (e : Eng) (cycles : Nat) : Bool :=
  decide (s.eng[e.val].cycles + cycles ≤ s.get (F.HLE_ENGWDOG_LIMIT e))

/-- The activation has executed LIMIT cycles: it stands in its instruction, which does not end, until the watchdog fault (R226). -/
def timeUp (e : Eng) (s : State) : State :=
  s.modEng e (fun g => { g with cycles := max g.cycles (s.get (F.HLE_ENGWDOG_LIMIT e)) })

/-- An instruction of `cycles` cycles, with what it does to the place where the engine stands: it executes only in a running activation
(R219) of an engine that is not held, within its cycle limit. -/
def running (e : Eng) (cycles : Nat) (act : State → State) (s : State) : State :=
  if engBusy s e && !enginesHeld s then (if fitsLimit s e cycles then act s else timeUp e s) else s

/-- An instruction that goes on to the next. -/
def instr (e : Eng) (cycles : Nat) (act : State → State) (s : State) : State :=
  running e cycles (fun s => advance e cycles (act s)) s

/-! ## Operands (R210, R211, R231) -/

/-- The word an operand names, before any post-increment. -/
def wordOf (s : State) (e : Eng) : MemOperand → Nat
  | .direct w => w.toNat
  | .indexed i => (s.eng[e.val].ix[i.val]).toNat
  | .postInc i => (s.eng[e.val].ix[i.val]).toNat

/-- An index register after its post-increment: IX0 to IX3 with a circular length wrap within an aligned block of it. -/
def nextIx (g : Engine) (i : Fin 8) : BitVec 12 :=
  let v := g.ix[i.val]
  if h : i.val < 4 then
    let len := g.circ[i.val]
    if len = 0 then v + 1 else BitVec.ofNat 12 (v.toNat / len * len + (v.toNat % len + 1) % len)
  else v + 1

/-- The post-increment of an operand. -/
def bumpIx (e : Eng) (m : MemOperand) (s : State) : State :=
  match m with
  | .postInc i => s.modEng e (fun g => { g with ix := g.ix.set i.val (nextIx g i) i.isLt })
  | _ => s

/-- The address of a coefficient word of a bank (R206). An index beyond the RAM wraps, here and at a data word (DESIGN CHOICE, log entry 107). -/
def coefAddr (e : Nat) (bank : Bool) (w : Nat) : Nat := engBase e + 0x3000 + 0x800 * bank.toNat + 4 * (w % 512)

/-- A data-RAM word and a coefficient of the bank in force. -/
def dataWord (s : State) (e : Eng) (w : Nat) : Q20 := s.mem20 (dataAddr e (w % 2048))
def coefWord (s : State) (e : Eng) (w : Nat) : Q20 := s.mem20 (coefAddr e (s.on (F.HLE_ENGSTAT_BANKACT e)) w)

/-- The product of a multiply in 2^-36 (R211). -/
def product (s : State) (e : Eng) : MulOperand → Int
  | .coef a c => xi s e a * (coefWord s e (wordOf s e c)).toInt
  | .regs a b => xi s e a * xi s e b / 4

/-- The post-increment of a multiply's operand. -/
def bumpMul (e : Eng) (o : MulOperand) (s : State) : State :=
  match o with | .coef _ c => bumpIx e c s | .regs _ _ => s

/-! ## Results -/

/-- A value limited to 20 bits, and whether it was (R213, R214). -/
def sat20 (v : Int) : Q20 × Bool := (BitVec.ofInt 20 (clipSigned 20 v), decide (clipSigned 20 v ≠ v))

/-- A saturating result. -/
def satResult (e : Eng) (d : XReg) (v : Int) (s : State) : State := result e d (sat20 v).1 (sat20 v).2 s

/-- A conversion of an accumulator (R213): rounding constant and shift; a saturation is counted. -/
def convert (e : Eng) (d : XReg) (a : Fin 2) (sh : Nat) (s : State) : State :=
  let v := (accOf s e a + (2 ^ (sh - 1) : Nat)) / (2 ^ sh : Nat)
  let s := s.when (sat20 v).2 (fun s => s.count (F.HLE_ENGCNT_SATCNT e) (F.HLE_ENGCNT_SATOVF e))
  satResult e d v s

/-- An accumulator result saturated at Q12.36 (R212): S and AOVF mark it; whether accumulator results set Z and N is open. -/
def accResult (e : Eng) (a : Fin 2) (v : Int) (s : State) : State :=
  let c := clipSigned 48 v
  let sat := decide (c ≠ v)
  let s := setAcc e a c s
  let s := if Config.setsFlags .accumulator then setFlags e (c == 0) (decide (c < 0)) sat s else s
  s.when sat (fun s => (s.put (F.HLE_ENGSTAT_AOVF e) 1).modEng e (fun g => { g with s := true }))

/-- The two accumulators of a dual multiply, with the flags of both: Z and N, where they are set at all, are those of ACC1
or of ACC0 by a free value. -/
def dualResult (e : Eng) (v0 v1 : Int) (s : State) : State :=
  let first := bitAt s.free.toNat 0
  let sat := decide (clipSigned 48 v0 ≠ v0) || decide (clipSigned 48 v1 ≠ v1)
  let s := if first then accResult e 1 v1 (accResult e 0 v0 s.drew) else accResult e 0 v0 (accResult e 1 v1 s.drew)
  s.when sat (fun s => s.modEng e (fun g => { g with s := true }))

/-- A result where the spec states no rounding: the integer below or above (log entry 10); where the sum falls outside
Q1.19, a free value (log entry 16). -/
def fit20 (s : State) (num : Int) (den : Nat) : Q20 :=
  let v := s.roundFree num den
  if clipSigned 20 v = v then BitVec.ofInt 20 v else BitVec.ofNat 20 (s.free.toNat / 2)

/-! ## Instructions -/

/-- A two-operand result modulo 2^20. -/
def alu (e : Eng) (d a b : XReg) (f : Q20 → Q20 → Q20) (s : State) : State :=
  instr e 1 (fun s => result e d (f (xr s e a) (xr s e b)) false s) s

/-- A two-operand saturating result. -/
def aluSat (e : Eng) (d a b : XReg) (f : Int → Int → Int) (s : State) : State :=
  instr e 1 (fun s => satResult e d (f (xi s e a) (xi s e b)) s) s

/-- ABS. The spec states no result for −1, which has no positive counterpart: a free value (log entry 16). -/
def absStep (e : Eng) (d a : XReg) (s : State) : State :=
  let v := xr s e a
  if v = 0x80000#20 then (result e d (BitVec.ofNat 20 s.free.toNat) (bitAt s.free.toNat 20) s).drew
  else result e d (if v.msb then -v else v) false s

/-- SHR by copies of the sign bit or by zeros (log entry 3). -/
def shrOp (v : Q20) (n : Nat) : Q20 := if Config.shrArithmetic then v.sshiftRight n else v >>> n

/-- CMP: the flags of the exact difference (log entry 2). -/
def cmpStep (e : Eng) (a b : XReg) (s : State) : State :=
  setFlags e (decide (xi s e a = xi s e b)) (decide (xi s e a < xi s e b)) false s

/-- LD and LDC. -/
def loadStep (e : Eng) (d : XReg) (m : MemOperand) (coef : Bool) (s : State) : State :=
  let w := wordOf s e m
  let v := if coef then coefWord s e w else dataWord s e w
  bumpIx e m (flagsOpen e .load v (setX e d v s))

/-- ST, executed whether the loop is open or closed (R229). -/
def storeStep (e : Eng) (m : MemOperand) (a : XReg) (s : State) : State :=
  bumpIx e m (s.setMem20 (dataAddr e (wordOf s e m % 2048)) (xr s e a))

/-- STC into the bank in force, whatever OPENACT and LIVEWR hold (R234). -/
def storeCoefStep (e : Eng) (m : MemOperand) (a : XReg) (s : State) : State :=
  bumpIx e m (s.setMem20 (coefAddr e (s.on (F.HLE_ENGSTAT_BANKACT e)) (wordOf s e m)) (xr s e a))

/-- A multiply into one accumulator: `f` of the old accumulator and the product. -/
def mulStep (e : Eng) (acc : Fin 2) (o : MulOperand) (f : Int → Int → Int) (s : State) : State :=
  bumpMul e o (accResult e acc (f (accOf s e acc) (product s e o)) s)

/-- A multiply into both accumulators. -/
def dualStep (e : Eng) (o0 o1 : MulOperand) (f : Int → Int → Int) (s : State) : State :=
  bumpMul e o1 (bumpMul e o0
    (dualResult e (f (accOf s e 0) (product s e o0)) (f (accOf s e 1) (product s e o1)) s))

/-- ASH: left shifts saturate, right shifts are arithmetic. -/
def ashStep (e : Eng) (acc : Fin 2) (n : Int) (s : State) : State :=
  let v := accOf s e acc
  accResult e acc (if 0 ≤ n then v * (2 ^ n.toNat : Nat) else v / (2 ^ (-n).toNat : Nat)) s

/-- INTG (R229, R233, R251): while the loop is open the state word stays; the destination takes s' in either case. -/
def intgStep (e : Eng) (d : XReg) (state : Nat) (err : XReg) (gain : MemOperand) (s : State) : State :=
  let st := (dataWord s e state).toInt
  let lo := (dataWord s e (state + 1)).toInt
  let hi := (dataWord s e (state + 2)).toInt
  let sum := st * 2 ^ 17 + (coefWord s e (wordOf s e gain)).toInt * xi s e err
  let v := min (max ((sum + 2 ^ 16) / 2 ^ 17) lo) hi
  let q : Q20 := BitVec.ofInt 20 v
  let s := if s.on (F.HLE_ENGSTAT_OPENACT e) then s else s.setMem20 (dataAddr e (state % 2048)) q
  bumpIx e gain (result e d q false s)

/-- BIQ (R256). -/
def biqStep (e : Eng) (d x : XReg) (coef state : Nat) (s : State) : State :=
  let c (i : Nat) : Int := (coefWord s e (coef + i)).toInt
  let xv := xi s e x
  let s1 := (dataWord s e state).toInt
  let s2 := (dataWord s e (state + 1)).toInt
  let y := fit20 s (c 0 * xv + s1 * 2 ^ 17) (2 ^ 17)
  let s := s.drew
  let n1 := fit20 s (c 1 * xv - c 3 * y.toInt + s2 * 2 ^ 17) (2 ^ 17)
  let s := s.drew
  let n2 := fit20 s (c 2 * xv - c 4 * y.toInt) (2 ^ 17)
  let s := (s.drew.setMem20 (dataAddr e (state % 2048)) n1).setMem20 (dataAddr e ((state + 1) % 2048)) n2
  result e d y false s

/-- SINCOS (R215): each value within 4 × 2^-19 of the exact one (log entry 8); which of the two results Z and N follow is
open, and they are free; where both go to one register, which of them it holds is free too (log entry 2). -/
def sincosStep (e : Eng) (ds dc a : XReg) (s : State) : State :=
  let p := cosSin27 (xr s e a).toNat
  let sn := clipSigned 20 (within p.2 4 s.free)
  let s := s.drew
  let cs := clipSigned 20 (within p.1 4 s.free)
  let s := s.drew
  let s := if ds = dc then setX e dc (BitVec.ofInt 20 (if bitAt s.free.toNat 2 then sn else cs)) s
    else setX e dc (BitVec.ofInt 20 cs) (setX e ds (BitVec.ofInt 20 sn) s)
  (setFlags e (bitAt s.free.toNat 0) (bitAt s.free.toNat 1) false s).drew

/-- ATAN2 (R215): within 2 counts (log entry 8); the angle of the zero vector is free (log entry 16). -/
def atan2Step (e : Eng) (d y x : XReg) (s : State) : State :=
  let yv := xi s e y
  let xv := xi s e x
  let v : Q20 := if yv = 0 ∧ xv = 0 then BitVec.ofNat 20 s.free.toNat
    else BitVec.ofInt 20 (within (angle28 yv xv : Nat) 2 s.free)
  (result e d v false s).drew

/-- SQRT (R215): a negative operand gives 0 and S. -/
def sqrtStep (e : Eng) (d a : XReg) (s : State) : State :=
  let v := xi s e a
  if v < 0 then result e d 0 true s
  else
    let n := v.toNat * 2 ^ 19
    let r := isqrt n
    let up := if r * r = n then 0 else s.free.toNat % 2
    (result e d (BitVec.ofInt 20 (clipSigned 20 ((r + up : Nat) : Int))) false s).drew

/-- DIV (R215): a zero divisor gives the limit of the dividend's sign and S; a zero dividend has no sign, and which limit
stands is free (log entry 16). A zero divisor sets the sticky SAT with S, as a limited result does (DEDUCED, log entry 107). -/
def divStep (e : Eng) (d a b : XReg) (s : State) : State :=
  let av := xi s e a
  let bv := xi s e b
  if bv = 0 then
    let neg := if av = 0 then bitAt s.free.toNat 0 else decide (av < 0)
    (result e d (if neg then 0x80000#20 else 0x7FFFF#20) true s).drew
  else
    let num := if bv < 0 then -av * 2 ^ 19 else av * 2 ^ 19
    (satResult e d (s.roundFree num bv.natAbs) s).drew

/-- The flag a BRC tests. -/
def branchFlag (g : Engine) : BranchFlag → Bool
  | .z => g.z | .n => g.n | .s => g.s

/-- LOOP: a body from the next instruction to `last`. A third level has no place on the stack; whether it then replaces the
inner level or is ignored is free (log entry 16). -/
def loopStep (e : Eng) (count : Nat) (last : BitVec 12) (s : State) : State :=
  let g := s.eng[e.val]
  let l : LoopLevel := { first := g.pc + 1, last := last, left := max 1 (min count 4096) }
  let keep := bitAt s.free.toNat 0
  let full := decide (2 ≤ g.loops.length)
  let s := s.modEng e (fun g => { g with
    pc := g.pc + 1, lastPc := g.pc, cycles := g.cycles + 1,
    loops := if full then (if keep then g.loops else l :: g.loops.drop 1) else l :: g.loops })
  if full then s.drew else s

/-- SETC on IX0 to IX3. -/
def setcStep (e : Eng) (ix : Fin 8) (len : Nat) (s : State) : State :=
  if h : ix.val < 4 then s.modEng e (fun g => { g with circ := g.circ.set ix.val (max 2 (min len 256)) h }) else s

/-- END (R219): the activation ends, LAST and MAX record its cycles; posted writes go on. -/
def endStep (e : Eng) (s : State) : State :=
  running e 1 (fun s =>
    let s := s.modEng e (fun g => { g with lastPc := g.pc, cycles := g.cycles + 1, loops := [], act := none })
    let n := min s.eng[e.val].cycles 0xFFFF
    let s := (s.put (F.HLE_ENGSTAT_BUSY e) 0).put (F.HLE_ENGCYC_LAST e) n
    s.put (F.HLE_ENGCYC_MAX e) (max n (s.get (F.HLE_ENGCYC_MAX e)))) s

/-! ## Settings -/

def engCtrlAddr (e : Eng) : Nat := 0x4000B100 + 0x40 * e.val

/-- Whether OPEN and BANK of an engine are the swap request's alone: the outer engine's, in a set of more than one lane (R270). -/
def swapOwned (s : State) (e : Eng) : Bool := topology s != 0 && s.get F.CONT_CFCFG_OENG == e.val

/-- A write of HLE_ENGnCTRL (R228, R230, R236): SWPEND follows BANK, and RESTART lets the engine accept triggers again. OPEN and BANK
of the outer engine keep their values where only the swap request changes them (R270); such a write raises no flag (log entry 99). -/
def engCtrlWrite (e : Eng) (v : Word) (s : State) : State :=
  regWriteWith (engCtrlAddr e) v (fun t =>
    let t := if swapOwned s e then
        (t.put (F.HLE_ENGCTRL_OPEN e) (s.get (F.HLE_ENGCTRL_OPEN e))).put (F.HLE_ENGCTRL_BANK e) (s.get (F.HLE_ENGCTRL_BANK e))
      else t
    let t := markSwap e t
    if bitAt v.toNat 5 then t.modEng e (fun g => { g with halted := false }) else t) s

/-- A write of HLE_CTRL (R222): an engine disabled loses its pending triggers. -/
def hleEnable (v : Word) (s : State) : State :=
  regWriteWith 0x4000B000 v (fun t =>
    followVotes ((List.finRange 7).foldl (fun t (e : Eng) =>
      if t.bit F.HLE_CTRL_EN e then t else t.modEng e (fun g => { g with pending := [] })) t)) s

/-- A write of HLE_SWTRIG (R220). -/
def softTrigger (v : Word) (s : State) : State :=
  regWriteWith 0x4000B00C v (fun t => triggerTo (v.toNat % 8) .software (v.toNat / 256 % 256) t) s

/-- A fault at the instruction the engine stands at. -/
def faultAt (e : Eng) (c : EngineCause) (s : State) : State := engineFault e c (s.eng[e.val].pc).toNat s

/-- A fault that the next instruction of a running activation takes: one that has executed LIMIT cycles has no next instruction (R226). -/
def faultHere (e : Eng) (c : EngineCause) (s : State) : State := running e 1 (faultAt e c) s

/-- A parity error, checked in every cycle: FPC takes the last instruction executed (R209). -/
def parityError (e : Eng) (s : State) : State :=
  if enginesHeld s then s else engineFault e .parity (s.eng[e.val].lastPc).toNat s

/-- An activation that has executed LIMIT cycles without END is stopped (R226). -/
def watchdogFault (e : Eng) (s : State) : State :=
  if engBusy s e && !enginesHeld s && decide (s.get (F.HLE_ENGWDOG_LIMIT e) ≤ s.eng[e.val].cycles) then faultAt e .watchdog s else s

/-- The physical engine that carries a logical engine, as a requester. -/
def engReq (s : State) (e : Eng) : Requester := .h ⟨physicalOf s e % 8, Nat.mod_lt _ (by decide)⟩

/-- An uncorrectable error that the engine finds as it reads a word of its activation, at a fetch or an operand (R209): recorded as R69 gives, and a
fault at once. -/
def memoryFault (e : Eng) (addr : Nat) (s : State) : State :=
  running e 1 (fun s => faultAt e .memory (errorRecorded (engReq s e) addr s)) s

/-! ## The commands -/

/-- ACTIVATION_DISPATCH (R223). -/
def execActivationDispatch (e : Eng) (s : State) : Out := .next (dispatch e s)
/-- SOFTWARE_TRIGGER (R220). -/
def execSoftwareTrigger (e : Eng) (ep : Byte) (s : State) : Out :=
  clockedOut s <| .next (softTrigger (BitVec.ofNat 32 (e.val + 256 * ep.toNat)) s)
/-- ENGINE_ENABLE (R222). -/
def execEngineEnable (mask : BitVec 7) (s : State) : Out := clockedOut s <| .next (hleEnable (mask.setWidth 32) s)
/-- LOOP_OPEN_REQUEST (R228). -/
def execLoopOpenRequest (e : Eng) (openLoop : Bool) (s : State) : Out :=
  clockedOut s <| .next (engCtrlWrite e ((F.HLE_ENGCTRL_OPEN e).write (s.rd (engCtrlAddr e)) openLoop.toNat) s)
/-- BANK_SWITCH_REQUEST (R228). -/
def execBankSwitchRequest (e : Eng) (bank : Bool) (s : State) : Out :=
  clockedOut s <| .next (engCtrlWrite e ((F.HLE_ENGCTRL_BANK e).write (s.rd (engCtrlAddr e)) bank.toNat) s)
/-- BIND_WRITE (R230). -/
def execBindWrite (e : Eng) (bind : BitVec 2) (s : State) : Out :=
  clockedOut s <| .next (engCtrlWrite e ((F.HLE_ENGCTRL_BIND e).write (s.rd (engCtrlAddr e)) bind.toNat) s)
/-- ENGINE_RESTART (R236). -/
def execEngineRestart (e : Eng) (s : State) : Out :=
  clockedOut s <| .next (engCtrlWrite e ((F.HLE_ENGCTRL_RESTART e).write (s.rd (engCtrlAddr e)) 1) s)
/-- ENGINE_FAULT (R235). -/
def execEngineFault (e : Eng) (cause : EngineError) (s : State) : Out :=
  .next (match cause.cause with
    | .parity => parityError e s
    | .memory => memoryFault e cause.addr.toNat s
    | .watchdog => watchdogFault e s
    | c => faultHere e c s)
/-- ENGINE_WATCHDOG (R226). -/
def execEngineWatchdog (e : Eng) (s : State) : Out := clockedOut s <| .next (watchdogFault e s)
/-- ENGINE_PARITY_ERROR (R209). -/
def execEngineParityError (e : Eng) (s : State) : Out := clockedOut s <| .next (parityError e s)
/-- MOV (R215). -/
def execMov (e : Eng) (d a : XReg) (s : State) : Out :=
  .next (instr e 1 (fun s => flagsOpen e .move (xr s e a) (setX e d (xr s e a) s)) s)
/-- LDI (R215). -/
def execLdi (e : Eng) (d : XReg) (imm : Q20) (s : State) : Out :=
  .next (instr e 1 (fun s => flagsOpen e .move imm (setX e d imm s)) s)
/-- ADD (R214). -/
def execAdd (e : Eng) (d a b : XReg) (s : State) : Out := .next (alu e d a b (fun x y => x + y) s)
/-- ADDS (R214). -/
def execAdds (e : Eng) (d a b : XReg) (s : State) : Out := .next (aluSat e d a b (fun x y => x + y) s)
/-- SUB (R214). -/
def execSub (e : Eng) (d a b : XReg) (s : State) : Out := .next (alu e d a b (fun x y => x - y) s)
/-- SUBS (R214). -/
def execSubs (e : Eng) (d a b : XReg) (s : State) : Out := .next (aluSat e d a b (fun x y => x - y) s)
/-- NEG (R214). -/
def execNeg (e : Eng) (d a : XReg) (s : State) : Out := .next (instr e 1 (fun s => result e d (-(xr s e a)) false s) s)
/-- NEGS (R214). -/
def execNegs (e : Eng) (d a : XReg) (s : State) : Out := .next (instr e 1 (fun s => satResult e d (-(xi s e a)) s) s)
/-- ABS (R215). -/
def execAbs (e : Eng) (d a : XReg) (s : State) : Out := .next (instr e 1 (absStep e d a) s)
/-- MIN (R215). -/
def execMin (e : Eng) (d a b : XReg) (s : State) : Out := .next (alu e d a b (fun x y => if x.sle y then x else y) s)
/-- MAX (R215). -/
def execMax (e : Eng) (d a b : XReg) (s : State) : Out := .next (alu e d a b (fun x y => if x.sle y then y else x) s)
/-- SHL (R215): bits shifted out at the top are lost (log entry 3). -/
def execShl (e : Eng) (d a : XReg) (n : Fin 20) (s : State) : Out :=
  .next (instr e 1 (fun s => result e d (xr s e a <<< n.val) false s) s)
/-- SHR (R215). -/
def execShr (e : Eng) (d a : XReg) (n : Fin 20) (s : State) : Out :=
  .next (instr e 1 (fun s => result e d (shrOp (xr s e a) n.val) false s) s)
/-- AND (R215). -/
def execAndOp (e : Eng) (d a b : XReg) (s : State) : Out := .next (alu e d a b (fun x y => x &&& y) s)
/-- OR (R215). -/
def execOrOp (e : Eng) (d a b : XReg) (s : State) : Out := .next (alu e d a b (fun x y => x ||| y) s)
/-- XOR (R215). -/
def execXorOp (e : Eng) (d a b : XReg) (s : State) : Out := .next (alu e d a b (fun x y => x ^^^ y) s)
/-- CMP (R215). -/
def execCmp (e : Eng) (a b : XReg) (s : State) : Out := .next (instr e 1 (cmpStep e a b) s)
/-- LD (R215). -/
def execLd (e : Eng) (d : XReg) (m : MemOperand) (s : State) : Out := .next (instr e 1 (loadStep e d m false) s)
/-- ST (R215, R229). -/
def execSt (e : Eng) (m : MemOperand) (a : XReg) (s : State) : Out := .next (instr e 1 (storeStep e m a) s)
/-- LDC (R231). -/
def execLdc (e : Eng) (d : XReg) (m : MemOperand) (s : State) : Out := .next (instr e 1 (loadStep e d m true) s)
/-- STC (R234). -/
def execStc (e : Eng) (m : MemOperand) (a : XReg) (s : State) : Out := .next (instr e 1 (storeCoefStep e m a) s)
/-- MPY (R211). -/
def execMpy (e : Eng) (acc : Fin 2) (o : MulOperand) (s : State) : Out :=
  .next (instr e 1 (mulStep e acc o (fun _ p => p)) s)
/-- MAC (R212). -/
def execMac (e : Eng) (acc : Fin 2) (o : MulOperand) (s : State) : Out :=
  .next (instr e 1 (mulStep e acc o (fun a p => a + p)) s)
/-- MSU (R212). -/
def execMsu (e : Eng) (acc : Fin 2) (o : MulOperand) (s : State) : Out :=
  .next (instr e 1 (mulStep e acc o (fun a p => a - p)) s)
/-- DMAC (R215). -/
def execDmac (e : Eng) (o0 o1 : MulOperand) (s : State) : Out := .next (instr e 1 (dualStep e o0 o1 (fun a p => a + p)) s)
/-- DMSU (R215). -/
def execDmsu (e : Eng) (o0 o1 : MulOperand) (s : State) : Out := .next (instr e 1 (dualStep e o0 o1 (fun a p => a - p)) s)
/-- DMPY (R215). -/
def execDmpy (e : Eng) (o0 o1 : MulOperand) (s : State) : Out := .next (instr e 1 (dualStep e o0 o1 (fun _ p => p)) s)
/-- CLR (R215). -/
def execClr (e : Eng) (acc : Fin 2) (s : State) : Out := .next (instr e 1 (accResult e acc 0) s)
/-- ASH (R215). -/
def execAsh (e : Eng) (acc : Fin 2) (n : Int) (s : State) : Out := .next (instr e 1 (ashStep e acc n) s)
/-- RND (R213). -/
def execRnd (e : Eng) (d : XReg) (acc : Fin 2) (s : State) : Out := .next (instr e 1 (convert e d acc 17) s)
/-- RNDC (R213). -/
def execRndc (e : Eng) (d : XReg) (acc : Fin 2) (s : State) : Out := .next (instr e 1 (convert e d acc 19) s)
/-- INTG (R233). -/
def execIntg (e : Eng) (d : XReg) (state : Fin 2048) (err : XReg) (gain : MemOperand) (s : State) : Out :=
  .next (instr e 2 (intgStep e d state err gain) s)
/-- BIQ (R256). -/
def execBiq (e : Eng) (d x : XReg) (coef : Fin 512) (state : Fin 2048) (s : State) : Out :=
  .next (instr e 4 (biqStep e d x coef state) s)
/-- SINCOS (R215). -/
def execSincos (e : Eng) (ds dc a : XReg) (s : State) : Out := .next (instr e 4 (sincosStep e ds dc a) s)
/-- ATAN2 (R215). -/
def execAtan2 (e : Eng) (d y x : XReg) (s : State) : Out := .next (instr e 14 (atan2Step e d y x) s)
/-- SQRT (R215). -/
def execSqrt (e : Eng) (d a : XReg) (s : State) : Out := .next (instr e 12 (sqrtStep e d a) s)
/-- DIV (R215). -/
def execDiv (e : Eng) (d a b : XReg) (s : State) : Out := .next (instr e 22 (divStep e d a b) s)
/-- BR (R215). -/
def execBr (e : Eng) (target : BitVec 12) (s : State) : Out := .next (running e 2 (jump e target) s)
/-- BRC (R215). -/
def execBrc (e : Eng) (flag : BranchFlag) (target : BitVec 12) (s : State) : Out :=
  .next (if branchFlag s.eng[e.val] flag then running e 2 (jump e target) s else running e 1 (advance e 1) s)
/-- LOOP (R215). -/
def execLoopOp (e : Eng) (count : Nat) (last : BitVec 12) (s : State) : Out :=
  .next (running e 1 (loopStep e count last) s)
/-- SETC (R210), of one cycle: the table of R215 does not list it (DESIGN CHOICE, log entry 107). -/
def execSetc (e : Eng) (ix : Fin 8) (len : Nat) (s : State) : Out := .next (instr e 1 (setcStep e ix len) s)
/-- TRIG (R215, R220). -/
def execTrig (e target : Eng) (ep : Byte) (s : State) : Out :=
  .next (instr e 1 (triggerArrive target (.engine e) ep) s)
/-- END (R219). -/
def execEndAct (e : Eng) (s : State) : Out := .next (endStep e s)
/-- ILLEGAL_INSTRUCTION (R225). -/
def execIllegalInstruction (e : Eng) (s : State) : Out := .next (faultHere e .illegal s)

end Sys2Proof.Machine
end

