-- ==== Sys2Proof/Machine/Start.lean ====
section
/-!
DEFINITION. Starting and restarting (chapter 17): requests, the beginning of a start, the cold and the warm steps, the seal check,
drive-ready, failed starts and standing down.
-/
namespace Sys2Proof.Machine

/-! ## What a start keeps (R548) -/

/-- A whole register as one field. -/
def wholeReg (a : Nat) : Fld := ⟨a, 0, 32⟩

/-- The fields every start keeps: the cut latch and its causes (R432), the states of STOP_N's and RESUME_N's filters and the levels
of the feedback inputs, what the driver die keeps (R660), and what its comparators show (R668). -/
def keptAlways : List Fld :=
  [F.SAFE_STAT_CUT, F.SAFE_STAT_STOPN, F.SAFE_STAT_RJAM, F.SAFE_CAUSE_CAUSE, F.SAFE_ISOFB_FB,
    F.GD_CTRL_LLSTATE 0, F.GD_CTRL_LLSTATE 1, F.GD_CTRL_ASSIDE 0, F.GD_CTRL_ASSIDE 1, F.GD_STAT_LEGOUT 0, F.GD_STAT_LEGOUT 1,
    F.VBUS_STAT_OV1, F.VBUS_STAT_OV2]
  ++ [0x4000E008, 0x4000E00C, 0x4000E010, 0x4000F008, 0x4000F00C, 0x4000F010].map wholeReg

/-- The fields stated as kept through a warm start; DBL_STAT.FAULT is a copy of the VALID bits kept, and STOPEV stays recorded beside them (R663). -/
def keptWarm : List Fld :=
  [F.DBL_FAULT_VALID 0, F.DBL_FAULT_VALID 1, F.DBL_FAULT_VALID 2, F.DBL_FAULT_VALID 3].map (fun f => wholeReg f.addr)
  ++ [F.DBL_STAT_FAULT, F.TWIN_STAT_STOPEV, F.HLE_MAP_SUBST, F.HLE_MAP_FAILED, F.GD_STAT_SEGDEG 0, F.GD_STAT_SEGDEG 1, F.EBP_STAT_ABSENT 0, F.EBP_STAT_ABSENT 1,
    F.SAFE_ISOFB_FLTOPN, F.BKG_WEAK_NWEAK, F.PWR_WREC_SRC, F.PWR_WREC_FROM, F.PWR_WREC_TVALID, F.PWR_ESEC_SEC, F.PWR_ENS_NS,
    F.PWR_ELAPSED_ELAPSED, F.PWR_SENT_TRIP, F.PWR_SENT_COLLAPSE, F.MPORT_CTRL_ADDR, F.BKG_UPTIMEL_LO, F.BKG_UPTIMEH_HI]
  ++ (List.range 4).map (fun c => wholeReg (F.ISNS_CHTRIM_OFS c).addr)
  ++ (List.range 7).map F.HLE_ENGSTAT_HWFAIL
  ++ (List.range 6).flatMap (fun j => [F.GD_SNSTRIM_TRIM 0 j, F.GD_SNSTRIM_TRIM 1 j])
  ++ (List.range 6).flatMap (fun j => [wholeReg (F.GD_SEG_DIS 0 j).addr, wholeReg (F.GD_SEG_DIS 1 j).addr])
  ++ (List.range 32).flatMap (fun i => [F.MPORT_INBOX_IN i, F.MPORT_OUTBOX_OUT i])
  ++ (List.range 56).map (fun i => F.KEEP_MEAS_MEAS (8 + i))

/-- Fields copied from an earlier state. -/
def keepFields (fs : List Fld) (old : State) (s : State) : State := fs.foldl (fun t f => t.put f (old.get f)) s

/-- Fields given their reset values. -/
def resetFields (fs : List Fld) (s : State) : State := fs.foldl (fun t f => t.put f (f.read (resetWord f.addr))) s

/-- Retention RAM cleared (R548). -/
def clearRetention (s : State) : State :=
  { s with mem := s.mem.filter (fun c => !(decide (0x21000000 ≤ c.1 ∧ c.1 < 0x21010000))) }

/-- Every engine held in reset (R546, R548): each register at its reset value but for the fields kept, the isolation switches
commanded open, the legs held by the driver die in the link-loss state, with the gates' VGS as it is (R334), the cut latch still signalled to CONT. The clock monitors of a running lane go on
(R80, R592). The key store, the wake keeper, JTAG, the memories and the refusals after a failed signature (R579) stand; a cold start clears retention RAM, loses the reel and rebuilds the wear counters
(R613); a warm start leaves the reel's waiting records to be committed (R618). -/
def heldInReset (cold : Bool) (s : State) : State :=
  let t : State := { State.reset with
    mem := s.mem, pending := s.pending, fresh := s.fresh, tick := s.tick, bus := s.bus
    sys := { State.reset.sys with linkLost := s.sys.linkLost, sDown := true, gDown := true, suspended := cold || s.sys.suspended }
    gate := s.gate.map (fun g => { g with asFlag := false, linkHold := true })
    ebp := if cold then State.reset.ebp else s.ebp.map (fun x => { Ebp.reset with everTrained := x.everTrained })
    driver := { Driver.reset with underVolt := s.driver.underVolt, linkLost := true }
    safe := { Safe.reset with resumeLow := s.safe.resumeLow, isoH := s.safe.isoH, isoL := s.safe.isoL, kickTick := s.tick }
    cont := { Cont.reset with cutSignal := s.on F.SAFE_STAT_CUT }
    keep := { s.keep with
      start := none, failWait := false, wasDone := s.on F.KEEP_STAT_DONE || (s.pwr.held && s.keep.wasDone), warmPending := none,
      relChal := none, dbgChal := none, releasing := false, dbgOpened := false, clearedPowered := false
      retained := if cold then none else s.keep.retained }
    jtag := { s.jtag with drive := .normal }
    pwr := { s.pwr with wake := none, held := false, coreEn := true, pwren := true, entryTo := none }
    mport := if cold then .reset else s.mport
    time := { NetTime.reset with uptime := if cold then 0 else s.time.uptime }
    bkg := { Bkg.reset with
      wear := if cold then s.bkg.durable else s.bkg.wear, wearOvf := if cold then [] else s.bkg.wearOvf
      changed := if cold then false else s.bkg.changed, durable := s.bkg.durable, mirror := if cold then none else s.bkg.mirror
      mirrorOvf := if cold then [] else s.bkg.mirrorOvf, snap0 := s.bkg.snap0, snap1 := s.bkg.snap1, journals := s.bkg.journals
      rows := s.bkg.rows, ring := s.bkg.ring, waiting := if cold then [] else s.bkg.waiting
      inReel := if cold then [] else s.bkg.inReel, own := if cold then [] else s.bkg.own, lost := if cold then 0 else s.bkg.lost } }
  let t := keepFields (if cold then keptAlways else keptAlways ++ keptWarm) s t
  let t := if cold then clearRetention t else ((t.put (F.POS_STAT_UNCERT 0) 1).put (F.POS_STAT_UNCERT 1) 1)
  let t := (t.put (F.MC_STAT_LEGOUT 0) (t.get (F.GD_STAT_LEGOUT 0))).put (F.MC_STAT_LEGOUT 1) (t.get (F.GD_STAT_LEGOUT 1))
  let t := (t.put (F.GD_GW_ON 0) (s.get (F.GD_GW_ON 0))).put (F.GD_GW_ON 1) (s.get (F.GD_GW_ON 1))
  driveAll (followGates 1 (followGates 0 (isoOpen 1 (isoOpen 0 (showChop t)))))

/-- The beginning of a start (R548): its cause and step shown. -/
def beginStart (src : Nat) (cold : Bool) (s : State) : State :=
  let s := (heldInReset cold s).modKeep (fun k => { k with
    start := some { cold := cold, released := false, startupDone := false, took := 0 } })
  (s.put F.KEEP_RSTCAUSE_SRC src).put F.KEEP_STAT_STEP 1

/-! ## Requests (R545 to R547) -/

/-- Whether the keeper can take a request: powered, RESET_N high, not halted by R562. -/
def keeperTakes (s : State) : Bool := s.pwr.aoPowered && !s.pwr.resetLow && !s.keep.halted

/-- A cold request (R546): it abandons a start in progress. -/
def coldRequest (src : Nat) (s : State) : State := if keeperTakes s then beginStart src true s else s

/-- A warm request of SRC 4 or 5 (R546, R547): ignored during a start; after a withdrawal with notice else. A lane that holds no
role starts at once. -/
def warmRequest (src : Nat) (s : State) : State :=
  if !keeperTakes s then s
  else if s.keep.start.isSome || s.keep.failWait then s.put F.KEEP_RSTCAUSE_IGN 1
  else if !s.on F.CONT_CTRL_EN || s.get F.CONT_STAT_ROLE == 0 then beginStart src false s
  else withdraw 1 (s.modKeep (fun k => { k with warmPending := some src }))

/-- The transfer tick, after which a warm request's start begins (R547). -/
def transferAndStart (s : State) : State :=
  let s := transferTick s
  match s.keep.warmPending with
  | some src => if s.cont.withdrawing then s else beginStart src false s
  | none => s

/-! ## Failed starts and standing down (R557 to R560) -/

/-- A Heldiog engine held in reset, its registers and settings standing (R558). -/
def holdEngine (e : Eng) (s : State) : State :=
  (s.put (F.HLE_ENGSTAT_BUSY e) 0).modEng e (fun g => { g with act := none, pending := [], loops := [], writes := [] })

/-- The outputs of R548 and R558: switches commanded open, MC blocks in OFF, LEADOUT low, the pairs held, the configuration link
stopped, every engine but K held. -/
def holdOutputs (s : State) : State :=
  let s := (List.finRange 7).foldl (fun s e => holdEngine e s) (mcOff 1 (mcOff 0 (isoOpen 1 (isoOpen 0 s))))
  let s := holdWrite 15 (s.modCont (fun c => { c with leadOut := false }))
  linkLoss (s.modSys (fun y => { y with vRuns := false, sDown := true, gDown := true, dogHeld := true }))

/-- A bank's service firmware alone verified (R559). -/
def serviceIn (s : State) (b : Bool) : Option Nat :=
  (imageOf s b 2).bind (fun h => if imageValid s s.keep.store b 2 h then some h else none)

/-- K restarts S from its verified image, that of the bank booted (R426). -/
def serviceRestart (s : State) : State :=
  let s := s.modSys (fun y => { y with sDown := false })
  match imageOf s (s.on F.KEEP_STAT_BANK) 2 with
  | some h => loadImage h s
  | none => s

/-- S loaded from the service image of a bank and running, measurement 2 that image's and measurement 10 with that bank (R577); silent where there
is none. -/
def serviceRuns (x : Option (Bool × Nat)) (s : State) : State :=
  match x with
  | some (b, h) => showMeasures <| (loadImage h <| (putMeasure 2 (digestBytes (sm3 (imageMessage s h))) s).putB F.KEEP_STAT_BANK b).modSys (fun y => { y with sDown := false })
  | none => s

/-- The lane stands down (R559): only S is loaded and runs; with no valid service firmware the lane stays silent. -/
def standDown (s : State) : State :=
  let s := (holdOutputs s).modKeep (fun k => { k with stood := true, start := none, failWait := false })
  let s := (s.put F.KEEP_STAT_STOOD 1).put F.KEEP_STAT_STEP 0x1F
  let pref := s.on F.KEEP_BOOT_PREF
  serviceRuns (((serviceIn s pref).map (pref, ·)).or ((serviceIn s !pref).map (!pref, ·))) s

/-- Ten seconds of the lane's 200 MHz timer. -/
def failWindow : Nat := 2000000000

/-- Whether the start under way boots the bank on trial (R567): the preferred one, which a warm start boots where it is the one retained. -/
def onTrial (s : State) : Bool :=
  s.on F.KEEP_BOOT_TRIAL && !s.on F.KEEP_STAT_FALLBACK &&
    (match s.keep.start, s.keep.retained with
     | some r, some k => r.cold || k.bank == s.on F.KEEP_BOOT_PREF
     | _, _ => true)

/-- A failed start (R557 to R559, R567). -/
def startFail (code step : Nat) (s : State) : State :=
  let trial := onTrial s
  let s := (holdOutputs s).modKeep (fun k => { k with
    start := none, failTimes := s.tick :: k.failTimes.filter (fun t => decide (s.tick ≤ t + failWindow)) })
  let s := ((s.put F.KEEP_FAIL_CODE code).put F.KEEP_FAIL_STEP step).put F.KEEP_STAT_STEP 0x1F
  let s := s.put F.KEEP_FAIL_NFAIL (min 3 s.keep.failTimes.length)
  let s := s.when trial (fun s => (changeRecord (fun p => { p with pref := 1 - p.pref, trial := 0 }) s).put F.KEEP_FAIL_TRIALFAIL 1)
  if 3 ≤ s.keep.failTimes.length then standDown s else s.modKeep (fun k => { k with failWait := true })

/-! ## Steps -/

/-- How a step ends: it passes, the start fails with a code, or nothing more follows (R562). -/
inductive StepEnd where
  | pass | fail (code : Nat) | stop
  deriving DecidableEq, Repr

/-- A step of a start. -/
abbrev StartStep := State → State × StepEnd

/-- Steps run in order, STEP shown. -/
def runSteps : List (Nat × StartStep) → State → State
  | [], s => s
  | (n, f) :: t, s =>
    match f (s.put F.KEEP_STAT_STEP n) with
    | (s, .pass) => runSteps t s
    | (s, .fail c) => startFail c n s
    | (s, .stop) => s

/-- Step 2 (R549, R555, R562, R571): the ROM, the key store, the lifecycle and the counters. -/
def keeperRom (count : Bool) (inp : StartInputs) : StartStep := fun s =>
  if !inp.romOk then (s.modKeep (fun k => { k with halted := true, start := none }), .stop)
  else if !inp.storeOk then (s, .fail 2)
  else
    let s := s.when count (·.modStore (fun k => { k with
      coldCount := min 4294967295 (k.coldCount + 1), provisioned := k.provisioned || k.slot 1 == 1 }))
    let s := showBoot (showStore s)
    let s := s.put F.KEEP_FAIL_NFAIL (min 3 (s.keep.failTimes.filter (fun t => decide (s.tick ≤ t + failWindow))).length)
    let s := putMeasure 11 (digestBytes attestKeyDigest) (putMeasure 0 (digestBytes Config.romDigest) s)
    let s := (s.put F.BKG_LEDGER_NENT (ledgerCount s)).putB F.BKG_STAT_FULL (decide (ledgerCount s = 512))
    (showMeasures s, .pass)

/-- INVAL of SEAL_STRAP: the causes of R39. -/
def strapFaults (w : Nat) : Nat :=
  let x := (w % 16) ^^^ (w / 16 % 16) ^^^ (w / 256 % 16)
  let lane := w % 4
  let topo := w / 4 % 4
  let bridge := w / 16 % 4
  let inTopo : Bool := match topo with | 0 => lane == 0 | 1 => decide (lane < 2) | 2 => decide (lane < 2) | _ => decide (lane < 3)
  (w / 4096 % 16 != 15 - x).toNat + 2 * (lane == 3).toNat + 4 * (w / 2048 % 2) + 8 * (bridge == 3).toNat
    + 16 * (!inTopo).toNat + 32 * (bridge == 2 && topo != 0).toNat

/-- The level of a strap sample (R631). -/
def strapLevel (x : StrapSample) : Nat := 2 * x.off.toNat + x.opposed.toNat

/-- The level that most of a strap's samples show (SEAL_MARGIN); of levels equally frequent the spec names none, so any of them may come. -/
def strapMajority (s : State) (l : List StrapSample) : Nat :=
  let count (k : Nat) : Nat := (l.filter (fun x => strapLevel x == k)).length
  let best := (List.range 4).filter (fun k => (List.range 4).all (fun j => decide (count j ≤ count k)))
  best.getD (s.free.toNat % best.length) 0

/-- The strap word (R38): strap k gives bits 2k + 1 and 2k. -/
def strapWord (s : State) (v : Vector (Vector StrapSample 8) 8) : Nat :=
  (v.toList.zipIdx.map (fun x => strapMajority s x.1.toList * 4 ^ x.2)).sum

/-- MARG of SEAL_MARGIN: the straps whose samples disagreed. -/
def strapMargin (v : Vector (Vector StrapSample 8) 8) : Nat :=
  (v.toList.zipIdx.map (fun x => (x.1.toList.any (fun y => strapLevel y != strapLevel x.1[0])).toNat * 2 ^ x.2)).sum

/-- Step 3: the strap word (R39, R631), and at a cold start the M-port's address (R600). -/
def strapStep (cold : Bool) (inp : StartInputs) : StartStep := fun s =>
  let w := strapWord s inp.straps
  let s := ((s.put F.SEAL_STRAP_WORD w).putB F.SEAL_STRAP_VALID (strapOk w)).put F.SEAL_STRAP_INVAL (strapFaults w)
  let s := (s.put F.SEAL_MARGIN_MARG (strapMargin inp.straps)).drew
  (s.when cold (fun s => s.put F.MPORT_CTRL_ADDR (0x50 + 3 * setId s + laneId s)), .pass)

/-- Step 4: the PLL. At a cold start the clock monitors act from its lock on; after DEEP they wait for V (R592, log entry 108). -/
def pllStep (inp : StartInputs) : StartStep := fun s =>
  if inp.pllOk then ((s.put F.SYS_CLKMON_LOCK 1).modSys (fun y => { y with timer0 := s.tick, okWindows := 0, vsideOk := 0, suspended := y.suspended && !s.keep.start.any (·.cold) }), .pass)
  else (s.put F.SYS_CLKMON_LOCK 0, .fail 3)

/-- The comparator injection (R104 to R106). -/
def injectionStep (inp : StartInputs) : StartStep := fun s =>
  let s := injectionResult inp.injection ((s.put F.DBL_INJ_PAIRS 15).put F.DBL_INJ_DONE 1)
  if s.on F.DBL_STAT_INJ_PASS then (s, .pass) else (s, .fail 4)

/-- The rows that G marked in service (R608). -/
def markedRows (s : State) : List Defect :=
  s.bkg.rows.map (fun w => .row ⟨sramMacro (4 * w) % 48, Nat.mod_lt _ (by decide)⟩ (Config.macroRow (sramWord (4 * w))))

/-- Whether the spares of every SRAM macro suffice: 4 rows and 2 columns each (R66). -/
def sparesEnough (l : List Defect) : Bool :=
  let d := l.eraseDups
  (List.finRange 48).all (fun (k : Fin 48) =>
    decide ((d.filter (fun x => match x with | .row m _ => m == k | _ => false)).length ≤ 4) &&
    decide ((d.filter (fun x => match x with | .col m _ => m == k | _ => false)).length ≤ 2))

/-- The KIND of a repair in the ledger (R620). -/
def defectKind : Defect → Nat
  | .row _ _ => 1 | .col _ _ => 2 | .local_ _ => 6

/-- What a defect's location in the ledger is made of: the macro and the row or column, or the row of a smaller memory (R620). -/
def defectPlace : Defect → List Nat
  | .row m i => [m, i] | .col m i => [m, i] | .local_ i => [i]

/-- Spares put in the place of what the BIST found and of the rows marked in service, whose ledger entries stand already (R608); each other repair is a ledger entry. -/
def repairAll (found : List Defect) (s : State) : State :=
  let marked := markedRows s
  let s := (found.filter (fun x => !marked.contains x)).foldl (fun s x => ledgerAdd (defectKind x) 1 (defectPlace x) s) s
  (s.modKeep (fun k => { k with spares := (marked ++ found).eraseDups })).modBkg (fun b => { b with rows := [] })

/-- The bank that step 7 will boot, the preferred one before the other (R567); none where neither is valid. -/
def bankToBoot (s : State) : Option Bool :=
  let pref := s.on F.KEEP_BOOT_PREF
  if (verifyBank s pref).isSome then some pref else if (verifyBank s !pref).isSome then some !pref else none

/-- Step 6 (R66, R238, R609): memory test and repair, the assignment of Heldiog engines under the USED mask of the bank to be booted, the
refresh of the weak sectors that margin reads found in service (R620: origin 2). -/
def memoryStep (inp : StartInputs) : StartStep := fun s =>
  if !inp.memOk || !sparesEnough (inp.repairs ++ markedRows s) then (s, .fail 5)
  else
    let s := (repairAll inp.repairs s)
    let s := s.keep.weak.foldl (fun s sec =>
      ledgerAdd 5 2 [sec.val] (bumpWrgen (wearOne sec.val s))) s
    let s := (s.modKeep (fun k => { k with weak := [] })).put F.BKG_WEAK_NWEAK 0
    let failed := 255 - inp.enginesOk.toNat
    let s := s.put F.HLE_MAP_FAILED failed
    let used := ((bankToBoot s).map (usedEngines s)).getD 0
    match (List.range 7).filter (fun e => bitAt used.toNat e && bitAt failed e) with
    | [] => (s.put F.HLE_MAP_SUBST 7, .pass)
    | [e] =>
      if bitAt failed 7 then (s, .fail 6)
      else (ledgerAdd 3 1 [e] (s.put F.HLE_MAP_SUBST e), .pass)
    | _ => (s, .fail 6)

/-- S, V and G released once their images are loaded; with V, the watchdog runs, and the clock monitors go on if an entry had suspended them
(R592), and G goes on with the telemetry ring (R619). -/
def releaseFirmware (s : State) : State :=
  restoreReel ((s.modSys (fun y => { y with sDown := false, gDown := false, vRuns := true, suspended := false, dogHeld := false })).modSafe
    (fun x => { x with kickTick := s.tick }))

/-- Step 7 (R566, R567, R241): the preferred bank, then the other. -/
def bankStep : StartStep := fun s =>
  let pref := s.on F.KEEP_BOOT_PREF
  let valid (b : Bool) (s : State) : State := s.putB (if b then F.KEEP_BOOT_VALB else F.KEEP_BOOT_VALA) (verifyBank s b).isSome
  let boot (b : Bool) (k : KeyStore) (s : State) : State × StepEnd :=
    if heldiogRefused s b then (s, .fail 0x0D)
    else
      let s := (measureBank b (s.putB F.KEEP_STAT_BANK b)).modStore (fun _ => k)
      let s := showMeasures (showStore (loadBank b s))
      (releaseFirmware s, .pass)
  match verifyBank s pref with
  | some k => boot pref k (valid pref s)
  | none =>
    let s := valid pref s
    match verifyBank s !pref with
    | some k => boot (!pref) k ((valid (!pref) s).put F.KEEP_STAT_FALLBACK 1)
    | none => (valid (!pref) s, .fail 7)

/-- The twelve gate outputs. -/
def outputs : List (Fin 2 × Fin 6) :=
  [(0, 0), (0, 1), (0, 2), (0, 3), (0, 4), (0, 5), (1, 0), (1, 1), (1, 2), (1, 3), (1, 4), (1, 5)]

/-- Step 8 (R363, R364, R366): gate segments and sense cells. -/
def gateStep (inp : StartInputs) : StartStep := fun s =>
  let outs := outputs
  let segs (o : Fin 2 × Fin 6) : Nat := (inp.segments.getD (6 * o.1.val + o.2.val) 0).toNat
  let count (o : Fin 2 × Fin 6) : Nat := (bitsSet (segs o) 16).length
  let trim (o : Fin 2 × Fin 6) : Int := inp.snsTrims.getD (6 * o.1.val + o.2.val) 0
  let s := outs.foldl (fun s o =>
    let s := ((s.put (F.GD_SEG_DIS o.1 o.2) (segs o)).put (F.GD_SEG_NDIS o.1 o.2) (count o)).putB (F.GD_SEG_FAILED o.1 o.2)
      (decide (4 ≤ count o))
    let s := s.when (decide (0 < count o)) (·.put (F.GD_STAT_SEGDEG o.1) 1)
    (bitsSet (segs o) 16).foldl (fun s seg => ledgerAdd 4 1 [o.1, o.2, seg] s) s) s
  let s := ([(0, 0), (0, 1), (0, 2), (1, 0), (1, 1), (1, 2)] : List (Fin 2 × Fin 6)).foldl (fun s o =>
    s.putB (F.GD_LEGFLT_SEG o.1 o.2) (decide (4 ≤ count o ∨ 4 ≤ count (o.1, o.2 + 3)))) s
  if outs.any (fun o => bridgeUsed s o.1 && decide (4 ≤ count o)) then (s, .fail 9)
  else if outs.any (fun o => decide (32 < (trim o).natAbs)) then (s, .fail 0x0A)
  else (outs.foldl (fun s o => s.putS (F.GD_SNSTRIM_TRIM o.1 o.2) (trim o)) s, .pass)

/-- Step 9 (R201, R204): the current channels. -/
def adcStep (inp : StartInputs) : StartStep := fun s =>
  let s := (List.finRange 4).foldl (fun s (c : IsnsCh) => trimChannel c (inp.isns.getD c.val ⟨[0], 2 ^ 20⟩) s) s
  if s.get F.ISNS_STAT_CALFLT = 0 then (s, .pass) else (s, .fail 0x0B)

/-- The first half of the seal check (R450, R451, R576): the digest, the signature, and the pairs released for the start-up writes. -/
def sealStep (first : Nat) (took : Nat) : StartStep := fun s =>
  let p := bootRecord s
  let c : Bool := p.cfgsel == 1
  let release (s : State) : State :=
    (holdWrite 0 s).modKeep (fun k => { k with
      start := k.start.map (fun r => { r with released := true, took := took }) })
  if p.slot = 0 then (release (putMeasure 8 (List.replicate 32 0) (s.put F.SEAL_RESULT_NOBLOCK 1)), .pass)
  else
    let d := digestBytes (sealDigest s c)
    let s := (List.range 8).foldl (fun s w => s.put (F.SEAL_DIGEST_DIG w) (bytesAt d (4 * w) 4)) (putMeasure 8 d s)
    let s := s.put F.SEAL_RESULT_NENT (blockEntries s c)
    let slots := (if first = 0 then [] else [first]) ++ [1, 2, 3, 4].filter (fun k => k != first)
    let found := sealSlot s c (s.bytes (copyBase c + 0x1100) 64) slots
    let s := (s.putB F.SEAL_RESULT_SIGOK found.isSome).put F.SEAL_RESULT_SLOT (found.getD 0)
    let idOk := leValue (s.bytes (copyBase c + 4) 1) == setId s && leValue (s.bytes (copyBase c + 5) 1) == laneId s
    (release (s.putB F.SEAL_RESULT_IDOK idOk), .pass)

/-- Cold steps 5 to 11 (R549), up to the start-up window. -/
def coldLater (inp : StartInputs) (s : State) : State :=
  runSteps [(5, injectionStep inp), (6, memoryStep inp), (7, bankStep), (8, gateStep inp), (9, adcStep inp),
    (10, sealStep (s.get F.KEEP_BOOT_SEALSLOT) inp.took)] s

/-- The steps of a cold start (R549); a lane that is stood down goes no further than its clock (R559). -/
def coldSteps (inp : StartInputs) (s : State) : State :=
  let s := runSteps [(1, fun s => (s, .pass)), (2, keeperRom true inp), (3, strapStep true inp), (4, pllStep inp)] s
  match s.keep.start with
  | some _ => if s.keep.stood then standDown s else coldLater inp s
  | none => s

/-- The check of R553. -/
def retentionOk (inp : StartInputs) (s : State) : Bool :=
  match s.keep.retained with
  | some r => s.keep.wasDone && inp.retainedOk && r.wrgen == s.keep.store.wrgen && r.provisioned == s.keep.store.provisioned
  | none => false

/-- The conversion of a warm start (R553). -/
def convertStart (inp : StartInputs) (s : State) : State :=
  let s := (s.put F.KEEP_RSTCAUSE_CONV 1).modStore (fun k => { k with
    coldCount := min 4294967295 (k.coldCount + 1), provisioned := k.provisioned || k.slot 1 == 1 })
  let s := clearRetention (resetFields (keptWarm ++ [F.POS_STAT_UNCERT 0, F.POS_STAT_UNCERT 1]) s)
  let s := s.modKeep (fun k => { k with retained := none, start := k.start.map (fun r => { r with cold := true }) })
  let trained (e : Port) (x : Ebp) : Ebp := { x with everTrained := s.on (F.EBP_STAT_TRAINED e) }
  let s := { s with mport := .reset, time := { s.time with uptime := 0, upTicks := 0 } }
  let s := (s.modEbp 0 (trained 0)).modEbp 1 (trained 1)
  let s := s.modBkg (fun b => { b with
    wear := b.durable, wearOvf := [], changed := false, mirror := none, mirrorOvf := [], waiting := [], inReel := [], own := [], lost := 0 })
  coldLater inp (showMeasures (showStore (s.put F.MPORT_CTRL_ADDR (0x50 + 3 * setId s + laneId s))))

/-- Warm step 7 (R237, R556): every copied section reloaded and compared with its retained digest. -/
def reloadStep (r : Retained) : StartStep := fun s =>
  let failed := s.get F.HLE_MAP_FAILED
  let used := usedEngines s r.bank
  let carriedBad (e : Nat) : Bool := bitAt used.toNat e && bitAt failed (if s.get F.HLE_MAP_SUBST = e then 7 else e)
  if (List.range 7).any carriedBad then (s, .fail 8)
  else if sectionDigests s r.bank ≠ r.digests then (s, .fail 0x0E)
  else (releaseFirmware (loadBank r.bank (s.putB F.KEEP_STAT_BANK r.bank)), .pass)

/-- What a warm start takes from the retained block in place of the memory test, the segment test and the calibration (R365, R366, R554). -/
def takeRetained (r : Retained) (s : State) : State :=
  let s := s.modKeep (fun k => { k with spares := r.spares })
  let s := (outputs.zip r.segs).foldl (fun s o => s.wr (F.GD_SEG_DIS o.1.1 o.1.2).addr o.2) s
  let s := (outputs.zip r.trims).foldl (fun s o => s.wr (F.GD_SNSTRIM_TRIM o.1.1 o.1.2).addr o.2) s
  outputs.foldl (fun s o => s.when (decide (s.get (F.GD_SEG_NDIS o.1 o.2) ≠ 0)) (·.put (F.GD_STAT_SEGDEG o.1) 1)) s

/-- The steps of a warm start (R555), or its conversion. -/
def warmSteps (inp : StartInputs) (s : State) : State :=
  let s := runSteps [(1, fun s => (s, .pass)), (2, keeperRom false inp), (3, strapStep false inp), (4, pllStep inp)] s
  match s.keep.start with
  | none => s
  | some _ =>
    if s.keep.stood then standDown s
    else
      let s := s.put F.KEEP_STAT_STEP 5
      match s.keep.retained with
      | none => convertStart inp s
      | some r =>
        if retentionOk inp s then
          let s := s.modStore (fun k => { k with warmCount := min 4294967295 (k.warmCount + 1) })
          let s := takeRetained r (showMeasures (showStore (s.put F.KEEP_STAT_WARM 1)))
          runSteps [(6, injectionStep inp), (7, reloadStep r), (8, sealStep r.slot inp.took)] s
        else convertStart inp s

/-! ## The end of a start -/

/-- The retained block written (R554); a warm start keeps the digests. -/
def writeRetained (s : State) : State :=
  let b := s.on F.KEEP_STAT_BANK
  let digests := match s.keep.retained with | some r => r.digests | none => sectionDigests s b
  s.modKeep (fun k => { k with
    retained := some {
      bank := b, slot := s.get F.SEAL_RESULT_SLOT, strap := BitVec.ofNat 16 (s.get F.SEAL_STRAP_WORD), wrgen := k.store.wrgen,
      provisioned := k.store.provisioned, digests := digests, spares := k.spares
      segs := outputs.map (fun o => s.rd (F.GD_SEG_DIS o.1 o.2).addr), trims := outputs.map (fun o => s.rd (F.GD_SNSTRIM_TRIM o.1 o.2).addr) } })

/-- The last step ends (R551): DONE, and READY with it in a sealed start; G records the start (R617). -/
def startEnds (ready : Bool) (s : State) : State :=
  let took := match s.keep.start with | some r => r.took | none => 0
  let s := ((s.put F.KEEP_STAT_DONE 1).putB F.KEEP_STAT_READY ready).put F.KEEP_STAT_STEP 0x1F
  let s := (s.put F.KEEP_TIME_LAST (min (2 ^ 24 - 1) took)).modKeep (fun k => { k with start := none })
  ownRecord 1 [s.get F.KEEP_RSTCAUSE_SRC, s.get F.KEEP_RSTCAUSE_CONV, s.get F.KEEP_FAIL_CODE] none (followVotes (showMeasures s))

/-- The second half of the seal check (R451, R452): readback, SEALED, the seal applied; in DELIVERED SEALED is 0 (R571). An
unsealed start is complete (R551). -/
def sealApply (s : State) : State :=
  let c : Bool := (bootRecord s).cfgsel == 1
  let block := !s.on F.SEAL_RESULT_NOBLOCK
  let fails := if block then readbackFails s c else rwsRegs.find? (fun a => rwsBits a (s.rd a) != rwsBits a (resetWord a))
  let s := s.putB F.SEAL_RESULT_CMPOK fails.isNone
  let s := match fails with
    | some a =>
      let want := if block then expectedWord s c a else resetWord a
      ((s.put F.SEAL_FAILADDR_ADDR a).put F.SEAL_FAILVAL_VAL (s.rd a).toNat).put F.SEAL_EXPVAL_EXP (rwsBits a want).toNat
    | none => s
  let good := s.keep.store.provisioned && block && s.on F.SEAL_RESULT_SIGOK && s.on F.SEAL_STRAP_VALID && s.on F.SEAL_RESULT_IDOK && fails.isNone
  let s := writeRetained ((s.putB F.SAFE_STAT_SEALED good).putB F.SEAL_RESULT_SEALED good)
  let s := { s with sealApplied := true }
  if good then showMeasures (s.put F.KEEP_STAT_STEP (if s.on F.KEEP_STAT_WARM then 9 else 11)) else startEnds false s

/-- K carried on from where a start of a kind stands: to the start-up window, or, once the start-up writes are complete, to the
seal. -/
def carryOn (cold : Bool) (steps : State → State) (s : State) : State :=
  match s.keep.start with
  | some r =>
    if r.released then (if r.startupDone && !s.sealApplied then sealApply s else s)
    else if r.cold = cold ∧ keeperTakes s = true then steps s
    else s
  | none => s

/-- Security counters raised at READY (R569). -/
def raiseCounters (s : State) : State :=
  let b := s.on F.KEEP_STAT_BANK
  let s := (verifiedTypes s.keep.store).foldl (fun s ty =>
    match imageOf s b ty with
    | some h =>
      if imageRaise s h = true ∧ s.keep.store.ver ty < imageVer s h then
        s.modStore (fun k => if h' : ty - 1 < 7 then { k with vers := k.vers.set (ty - 1) (imageVer s h) h' } else k)
      else s
    | none => s) s
  showMeasures (showStore s)

/-- Drive-ready (R551, R567, R569, R45). -/
def driveReady (s : State) : State :=
  match s.keep.start with
  | some r =>
    if r.released && s.sealApplied && s.on F.SAFE_STAT_SEALED then
      let trial := onTrial s
      let s := raiseCounters (startEnds true s)
      driveReadyCont (s.when trial (changeRecord (fun p => { p with trial := 0 })))
    else s
  | none => s

/-- A write of mstartdone (R552). -/
def startupWritten (p : Pair) (machineMode : Bool) (s : State) : State :=
  if !machineMode then trapPair p 2 0 (modCopies p (fun c => { c with machineMode := false }) s)
  else if p = 0 then
    s.modKeep (fun k => { k with start := k.start.map (fun r => if r.released then { r with startupDone := true } else r) })
  else s

/-- The start-up window ends without all start-up writes (R552). -/
def startupLate (s : State) : State :=
  match s.keep.start with
  | some r =>
    if r.released && !s.sealApplied then
      startFail 0x0C (if s.on F.KEEP_STAT_WARM then 8 else 10) (s.put F.SEAL_RESULT_TMO 1)
    else s
  | none => s

/-- A write of mrstreq (R545). -/
def resetCsr (p : Pair) (machineMode : Bool) (s : State) : State :=
  if machineMode then warmRequest 4 s else trapPair p 2 0 (modCopies p (fun c => { c with machineMode := false }) s)

/-! ## Power-on, RESET_N, power loss (R545, R430, R432, R434, R601) -/

/-- Power-on of the always-on domain: the latch and its causes are clear, STOP_N counts as low, a low RESUME_N as jammed. The release
circuit disarms, and until that domain has lost power it gives no second release (R601). -/
def powerOn (resumeLow : Bool) (s : State) : State :=
  if !s.pwr.armed then s
  else
    let s := s.modPwr (fun p => { p with aoPowered := true, armed := false })
    let s := s.modKeep (fun k => { k with halted := false, relBlock := none, dbgBlock := none })
    let s := beginStart 0 true ((s.put F.SAFE_STAT_CUT 0).put F.SAFE_CAUSE_CAUSE 0)
    ((s.put F.SAFE_STAT_STOPN 1).putB F.SAFE_STAT_RJAM resumeLow).modSafe (fun x => { x with resumeLow := false })

/-- RESET_N low (R546, R594): every engine held in reset; no effect in OFF. -/
def resetAsserted (s : State) : State :=
  if s.pwr.aoPowered then (heldInReset true s).modPwr (fun p => { p with resetLow := true }) else s.modPwr (fun p => { p with resetLow := true })

/-- RESET_N rises (R545). -/
def resetRelease (s : State) : State :=
  let low := s.pwr.resetLow
  let s := s.modPwr (fun p => { p with resetLow := false })
  if low && s.pwr.aoPowered then beginStart 1 true (s.modKeep (fun k => { k with halted := false })) else s

/-- Loss of power in the always-on domain (R601, R622): only NVM, the key store, the wake keeper and the driver die keep anything. -/
def powerLost (s : State) : State :=
  let t := heldInReset true { s with mem := s.mem.filter (fun c =>
    decide ((0x10000000 ≤ c.1 ∧ c.1 < 0x10C00000) ∨ (0x11000000 ≤ c.1 ∧ c.1 < 0x11100000))) }
  (t.modPwr (fun p => { p with aoPowered := false, coreEn := false, armed := true })).modCont (fun c => { c with leadZ := true })

/-- VMOT below the hold level for more than 1 s (R560). -/
def standDownClears (s : State) : State :=
  if s.keep.vmotLow then
    (s.put F.KEEP_FAIL_NFAIL 0).modKeep (fun k => { k with
      stood := false, failTimes := [], clearedPowered := s.pwr.aoPowered && s.on F.KEEP_STAT_STOOD })
  else s

/-! ## Commands -/

/-- TRANSFER_TICK (R395, R547). -/
def execTransferTick (s : State) : Out := clockedOut s <| .next (transferAndStart s)
/-- POWER_ON_RESET (R545). -/
def execPowerOnReset (resumeLow : Bool) (s : State) : Out := .next (powerOn resumeLow s)
/-- RESET_RELEASE (R545). -/
def execResetRelease (s : State) : Out := .next (resetRelease s)
/-- WARM_RESET_CSR (R547). -/
def execWarmResetCsr (p : Pair) (machineMode : Bool) (s : State) : Out := .next (resetCsr p machineMode s)
/-- WARM_RESET_REQUEST (R546): a write of SYS_RSTREQ.WARM. -/
def execWarmResetRequest (r : Requester) (s : State) : Out :=
  .next (busAccess r 0x40000010 true (fun s => warmRequest 5 (busData 0 s)) s)
/-- COLD_RESET_REQUEST (R546): a write of SYS_RSTREQ.COLD. -/
def execColdResetRequest (r : Requester) (s : State) : Out :=
  .next (busAccess r 0x40000010 true (fun s => coldRequest 6 (busData 0 s)) s)
/-- COLD_START (R549). -/
def execColdStart (inp : StartInputs) (s : State) : Out := .next (carryOn true (coldSteps inp) s)
/-- WARM_START (R555). -/
def execWarmStart (inp : StartInputs) (s : State) : Out := .next (carryOn false (warmSteps inp) s)
/-- STARTUP_DONE (R552). -/
def execStartupDone (p : Pair) (machineMode : Bool) (s : State) : Out := .next (startupWritten p machineMode s)
/-- STARTUP_WRITE_TIMEOUT (R552). -/
def execStartupWriteTimeout (s : State) : Out := .next (startupLate s)
/-- DRIVE_READY (R551). -/
def execDriveReady (s : State) : Out := .next (driveReady s)
/-- START_FAILURE (R557). -/
def execStartFailure (code step : Byte) (s : State) : Out :=
  .next (match s.keep.start with | some _ => startFail code.toNat step.toNat s | none => s)
/-- FAILED_START_WAIT_END (R558). -/
def execFailedStartWaitEnd (s : State) : Out :=
  .next (if s.keep.failWait && keeperTakes s then beginStart 9 true s else s)
/-- RELEASE_RESTART (R561). -/
def execReleaseRestart (s : State) : Out :=
  .next (if s.keep.releasing && keeperTakes s then beginStart 0xA true s else s)
/-- SERVICE_RESTART (R426). -/
def execServiceRestart (s : State) : Out :=
  .next (if s.keep.start.isSome || s.keep.failWait || !issues s .k || !s.sys.sDown then s else serviceRestart s)
/-- STAND_DOWN_CLEAR (R560). -/
def execStandDownClear (s : State) : Out := .next (standDownClears s)
/-- RESET_ASSERTED (R546). -/
def execResetAsserted (s : State) : Out := .next (resetAsserted s)
/-- ALWAYS_ON_POWER_LOSS (R601). -/
def execAlwaysOnPowerLoss (s : State) : Out := .next (powerLost s)

end Sys2Proof.Machine
end

