-- ==== Sys2Proof/Machine/Power.lean ====
section
/-!
DEFINITION. Power states, votes and wake events, the M-port and the margin sentinels (chapter 18), the JTAG port and the trace
selection (chapters 17 and 21).
-/
namespace Sys2Proof.Machine

/-! ## Votes (R585 to R587) -/

/-- The nibble that a requester's write of PWR_MYVOTE goes to (R587). -/
def voteNibble : Requester → Option Nat
  | .p _ => some 0 | .dbg => some 0 | .s => some 2 | .v => some 3 | .g => some 4 | _ => none

/-- A nibble of PWR_VOTE set, closed downward. -/
def setNibble (i n : Nat) (s : State) : State :=
  let v := s.get F.PWR_VOTE_VOTE
  s.put F.PWR_VOTE_VOTE (v - v / 16 ^ i % 16 * 16 ^ i + closeDown n * 16 ^ i)

/-- A write of PWR_MYVOTE: K has no nibble. -/
def myVote (r : Requester) (n : Nat) (s : State) : State :=
  match voteNibble r with
  | some i => followVotes (setNibble i n s)
  | none => s.put F.PWR_STAT_ACCERR 1

/-- A write of PWR_HOSTVOTE: S only. -/
def hostVote (r : Requester) (n : Nat) (s : State) : State :=
  if r = .s then followVotes ((setNibble 1 n s).put F.PWR_HOSTVOTE_HOLD (closeDown n)) else s.put F.PWR_STAT_ACCERR 1

def myVoteAddr : Nat := 0x40001008
def hostVoteAddr : Nat := 0x4000100C

/-! ## Entries and exits (R591 to R596, R606) -/

/-- Memory that keeps its contents without VCORE: NVM and retention RAM (R583). -/
def keepsInDeep (a : Nat) : Bool :=
  decide ((0x10000000 ≤ a ∧ a < 0x10C00000) ∨ (0x11000000 ≤ a ∧ a < 0x11100000) ∨ (0x21000000 ≤ a ∧ a < 0x21010000))

/-- DEEP in force: G's waiting records committed first, CORE_EN low, the PLL and the crystal stopped, LEADOUT unpowered (R385). A wake event that arrived
during the entry raises CORE_EN again at once (R593). -/
def deepEntry (s : State) : State :=
  let s := commitAll s
  let s := { s with mem := s.mem.filter (fun c => keepsInDeep c.1) }
  let s := s.modCont (fun c => { c with leadOut := false, leadZ := true })
  ((s.put F.SYS_CLKMON_LOCK 0).put F.PWR_STAT_STATE 3).modPwr (fun p => { p with coreEn := p.wake.isSome })

/-- OFF in force: the wake configuration copied into the wake keeper, PWREN low, every other supply gone. A wake event that arrived
during the entry releases PWREN again at once (R593). -/
def offEntry (s : State) : State :=
  let cfg := s.rd F.PWR_WAKECFG_WKEN.addr
  let wake := s.pwr.wake
  (powerLost (deepEntry s)).modPwr (fun p => { p with keeperCfg := cfg, pwren := wake.isSome, wake := wake })

/-- An entry completes (R593). From SLEEP the votes may lead on into a deeper state. -/
def entryDone (s : State) : State :=
  match s.pwr.entryTo with
  | none => s
  | some d =>
    let s := (s.put F.PWR_STAT_ENTERING 0).modPwr (fun p => { p with entryTo := none })
    if d = 2 then followVotes ((s.put F.SYS_CLKMON_LOCK 0).put F.PWR_STAT_STATE 2)
    else if d = 3 then deepEntry s
    else offEntry s

/-- Whether wake events act: SLEEP or DEEP in force, or an entry under way (R593, R594). -/
def asleep (s : State) : Bool := decide (2 ≤ s.get F.PWR_STAT_STATE) || s.pwr.entryTo.isSome

/-- A wake event: the record takes the first, or of those in one cycle the lowest (R593, R606); in DEEP it raises CORE_EN. -/
def wakeEvent (src : Nat) (s : State) : State :=
  s.modPwr (fun p => { p with
    wake := (match p.wake with | some w => some (if p.wakeTick = s.tick then min w src else w) | none => some src)
    wakeTick := if p.wake.isSome then p.wakeTick else s.tick
    coreEn := p.coreEn || s.get F.PWR_STAT_STATE == 3 })

/-- The fields of PWR_WAKECFG that the WAKE detector follows: the registers or, in OFF, the wake keeper's copy. -/
def wakeCfg (s : State) : Nat := (if s.pwr.aoPowered then s.rd F.PWR_WAKECFG_WKEN.addr else s.pwr.keeperCfg).toNat

/-- Whether the source of a code wakes the lane where it stands (R594): WAKE in the mode chosen under the registers or, in OFF, the wake
keeper's copy; the M-port and the timer where they are enabled; a vote or an interrupt to G in SLEEP. -/
def wakeActs (s : State) (src : Nat) : Bool :=
  let cfg := wakeCfg s
  match src with
  | 1 => bitAt cfg 0 && !bitAt cfg 1
  | 2 => bitAt cfg 0 && bitAt cfg 1
  | 3 => s.pwr.aoPowered && bitAt cfg 4
  | 4 => s.pwr.aoPowered && bitAt cfg 5
  | 5 => s.pwr.aoPowered && s.get F.PWR_STAT_STATE == 2
  | _ => false

/-- The source by which a state is left: the event recorded, or else one of a code that acts there (R594, R606). -/
def wakeSource (src : Nat) (s : State) : Option Nat := s.pwr.wake.or (if wakeActs s src then some src else none)

/-- Whether the detector's own RC takes a phase of a length in ns (R595): from 1.8 µs on, not below 0.5 µs; between the two it may. -/
def phaseTaken (s : State) (ns : Nat) : Bool := decide (1800 ≤ ns) || (decide (500 ≤ ns) && bitAt s.free.toNat 0)

/-- The phases on WAKE as the detector takes them, each with whether it is dominant under WKPOL: a phase it rejects is no phase, and those of one
kind on both sides of it are one (R595, log entry 109). -/
def wakePhases (s : State) (l : List LineLevel) : List (Bool × Nat) :=
  (l.filter (fun x => phaseTaken s x.length)).foldr (fun x acc =>
    let d := x.high == bitAt (wakeCfg s) 2
    match acc with
    | (e, n) :: rest => if d = e then (d, n + x.length) :: rest else (d, x.length) :: acc
    | [] => [(d, x.length)]) []

/-- Whether a pattern of a dominant, a recessive and a dominant phase that takes a time in ns completes within tWAKE (R595), which the part may
have 20 % longer or shorter. -/
def withinWake (s : State) (ns : Nat) : Bool :=
  let t := if bitAt (wakeCfg s) 3 then 5000000 else 1000000
  decide (ns * 5 ≤ t * 4) || (decide (ns * 5 ≤ t * 6) && bitAt s.free.toNat 1)

/-- Whether the phases hold the pattern. Its last phase has been accepted 1.8 µs after its beginning at the latest. -/
def wakePattern (s : State) : List (Bool × Nat) → Bool
  | (d, n) :: rest =>
    (match rest with
     | (_, r) :: (_, e) :: _ => d && withinWake s (n + r + min e 1800)
     | _ => false) || wakePattern s rest
  | [] => false

/-- Whether the detector accepts what WAKE showed, in the mode of WKMODE. -/
def wakeSeen (s : State) (l : List LineLevel) : Bool :=
  if bitAt (wakeCfg s) 1 then wakePattern s (wakePhases s l) else (wakePhases s l).any (·.1)

/-- The levels of WAKE judged by the WAKE detector (R595), which runs with the wake keeper while VMOT is above its hold level (R636). In OFF an
accepted one releases PWREN. -/
def wakeAccepted (phases : List LineLevel) (s : State) : State :=
  let src := if bitAt (wakeCfg s) 1 then 2 else 1
  if !bitAt (wakeCfg s) 0 || s.keep.vmotLow || !wakeSeen s phases then s
  else
    let s := s.drew
    if !s.pwr.aoPowered then
      if s.pwr.pwren && s.pwr.wake.isNone then s else (wakeEvent src s).modPwr (fun p => { p with pwren := true })
    else if asleep s then wakeEvent src s
    else s

/-- The wake record of an exit (R606). -/
def recordWake (src left : Nat) (s : State) : State :=
  let s := (s.put F.PWR_WREC_SRC src).put F.PWR_WREC_FROM left
  let s := if left = 4 then s else elapsedTick s
  s.countBit F.PWR_CNT_WAKECNT F.PWR_CNT_OVF 1

/-- SLEEP ends (R592, R596): the PLL relocks, the monitors and the watchdog resume afresh. -/
def sleepExit (src : Nat) (s : State) : State :=
  if s.get F.PWR_STAT_STATE = 2 ∧ s.pwr.entryTo = none then
    match wakeSource src s with
    | none => s
    | some src =>
      let s := recordWake src 2 s
      let s := (s.put F.SYS_CLKMON_LOCK 1).put F.PWR_STAT_STATE (if s.get F.PWR_STAT_PGATE = 15 then 1 else 0)
      let s := s.modSys (fun y => { y with suspended := false, dogHeld := false, okWindows := 0, vsideOk := 0, vrcOut := false, aorcOut := false, vsideOut := false })
      ungateVoted ((s.modPwr (fun p => { p with wake := none })).modSafe (fun x => { x with kickTick := s.tick }))
  else s

/-- DEEP ends (R583, R596): a warm start with SRC 7. -/
def deepExit (src : Nat) (s : State) : State :=
  if s.get F.PWR_STAT_STATE = 3 ∧ s.pwr.entryTo = none then
    match wakeSource src s with
    | none => s
    | some src => beginStart 7 false (recordWake src 3 s)
  else s

/-- OFF ends (R583, R595, R596) once a WAKE has been accepted or VMOT has returned: the supplies come back, and with them the power-on
state of the always-on domain; a cold start with SRC 8. -/
def offExit (src : Nat) (s : State) : State :=
  if !s.pwr.aoPowered && !s.keep.vmotLow && (!s.pwr.pwren || s.pwr.wake.isSome) then
    match wakeSource src s with
    | none => s
    | some src =>
      let jam := s.free.toNat % 2 == 1
      let s := powerOn jam s.drew
      (recordWake src 4 (s.put F.PWR_WREC_TVALID 0)).put F.KEEP_RSTCAUSE_SRC 8
  else s

/-- A pair that runs and waits in WFI is gated while no CORE bit is held (R590). -/
def pairGate (p : Pair) (s : State) : State :=
  if bitAt (voteUnion s) 3 || !issues s (.p p) then s
  else
    let s := (s.modCore p (fun c => { c with gated := true })).putBit F.PWR_STAT_PGATE p true
    if s.get F.PWR_STAT_PGATE = 15 ∧ s.get F.PWR_STAT_STATE = 0 then s.put F.PWR_STAT_STATE 1 else s

/-! ## The M-port (R597, R599) -/

/-- A byte of the M-port's buffer. -/
def mportWord (i : Nat) : Fld := if i < 128 then F.MPORT_INBOX_IN (i / 4) else F.MPORT_OUTBOX_OUT (i / 4 - 32)
def mportByte (s : State) (i : Nat) : Byte := BitVec.ofNat 8 (s.get (mportWord i) / 256 ^ (i % 4))

/-- An inbox byte stored. -/
def mportStore (i : Nat) (b : Byte) (s : State) : State :=
  let f := mportWord i
  let w := s.get f
  s.put f (w - w / 256 ^ (i % 4) % 256 * 256 ^ (i % 4) + b.toNat * 256 ^ (i % 4))

/-- The data bytes of a write from the pointer on: a byte at 0x80 or above is refused, and with it the rest of the write. -/
def mportTake : List Byte → State → State
  | [], s => s
  | b :: t, s =>
    if s.mport.ptr.toNat < 128 then
      mportTake t ((mportStore s.mport.ptr.toNat b s).modMport (fun m => { m with ptr := m.ptr + 1 }))
    else s.put F.MPORT_STAT_NAKEV 1

/-- A write that ends with its STOP, an event to S and G; in SLEEP the interrupt to G wakes the lane (R594). -/
def mportWrite (bytes : List Byte) (s : State) : State :=
  if s.pwr.aoPowered && s.on F.MPORT_CTRL_EN then
    let s := match bytes with
      | [] => s
      | p :: t => mportTake t (s.modMport (fun m => { m with ptr := p }))
    let s := (s.put F.MPORT_STAT_WREV 1).put F.MPORT_STAT_BUSY 0
    let s := ((s.put F.MPORT_PTR_PTR s.mport.ptr.toNat).put F.MPORT_PTR_LEN (min 255 bytes.length)).raise .mport
    s.when (wakeActs s 5) (wakeEvent 5)
  else s

/-- The bytes of a read. -/
def mportRead (n : Nat) (s : State) : State :=
  if s.pwr.aoPowered && s.on F.MPORT_CTRL_EN then
    let p := s.mport.ptr.toNat
    let l := (List.range n).map (fun i => mportByte s ((p + i) % 256))
    let s := (s.put F.MPORT_STAT_RDEV 1).put F.MPORT_STAT_BUSY 0
    (s.put F.MPORT_PTR_PTR ((p + n) % 256)).modMport (fun m => { m with ptr := m.ptr + BitVec.ofNat 8 n, sentBytes := l })
  else s

/-- An address match (R597): in SLEEP and DEEP, and during an entry to them (R593), it wakes the lane; in SLEEP and DEEP it holds SCL low
too. -/
def mportMatch (adr : BitVec 7) (s : State) : State :=
  if s.pwr.aoPowered && s.on F.MPORT_CTRL_EN && adr.toNat == s.get F.MPORT_CTRL_ADDR then
    let wakes := asleep s && wakeActs s 3
    let s := s.when wakes (fun s => wakeEvent 3 (s.put F.MPORT_STAT_MATCHWK 1))
    if s.get F.PWR_STAT_STATE < 2 then s.put F.MPORT_STAT_BUSY 1
    else s.when wakes (·.modMport (fun m => { m with stretch := true }))
  else s

/-- AORC is back at 50 MHz: the acknowledge, and SCL released. -/
def mportRelease (s : State) : State :=
  if s.mport.stretch then (s.put F.MPORT_STAT_BUSY 1).modMport (fun m => { m with stretch := false }) else s

/-! ## Margin sentinels (R602, R604, R605) -/

/-- The registers of the always-on domain beside SAFE (chapter 18's introduction): those of PWR but for its state, of MPORT and of BKG. -/
def alwaysOn : List Fld :=
  ((List.range 11).map (fun i => 0x40001004 + 4 * i) ++ (List.range 3).map (fun i => 0x4001D000 + 4 * i)
    ++ (List.range 17).map (fun i => 0x4001E000 + 4 * i)).map wholeReg

/-- A trip (R604): in DEEP the sentinels do not run, and a lane that is held stays so. The cut latch sets with cause SENTINEL, and every engine
outside the always-on domain is held in reset as at a start: LEADOUT low, no role, no NOTICE. G, with what it has recorded, runs on. -/
def sentinelTrip (mask : Nat) (s : State) : State :=
  if mask = 0 ∨ s.get F.PWR_STAT_STATE = 3 ∨ s.pwr.aoPowered = false ∨ s.pwr.held = true then s
  else
    let s := (s.put F.PWR_SENT_TRIP mask).countBit F.PWR_CNT_SENTCNT F.PWR_CNT_OVF 0
    let s := ownRecord 3 [(s.rd F.PWR_SENT_TRIP.addr).toNat] none (wearOne wearSentinel (setCut causeSentinel s))
    let t := (keepFields alwaysOn s (heldInReset false s)).modPwr (fun p => { p with held := true })
    { t with bkg := s.bkg, mport := s.mport, sys := { t.sys with gDown := s.sys.gDown } }

/-- All twelve sentinels have passed for 1 ms: a warm start with SRC 2 or 3. -/
def sentinelRecovery (collapsed : Bool) (s : State) : State :=
  if s.pwr.held && keeperTakes s then beginStart (if collapsed then 2 else 3) false (s.putB F.PWR_SENT_COLLAPSE collapsed) else s

/-! ## VMOT at the wake keeper (R560, R636) -/

/-- VMOT rises above the wake keeper's rising level: OFF ends, or a lane whose stand-down flag has cleared starts. -/
def vmotRise (s : State) : State :=
  let low := s.keep.vmotLow
  let s := s.modKeep (fun k => { k with vmotLow := false })
  if !low then s
  else if !s.pwr.aoPowered && (!s.pwr.pwren || s.pwr.wake.isSome) then (wakeEvent 0 s).modPwr (fun p => { p with pwren := true })
  else if s.keep.clearedPowered && keeperTakes s then beginStart 0xB true s
  else s

/-! ## JTAG (R571, R581) -/

/-- Whether EXTEST, CLAMP and HIGHZ are available. -/
def pinsOpen (s : State) : Bool := s.on F.KEEP_STAT_DBGOPEN && s.on F.SAFE_STAT_CUT

/-- An instruction in force with the value its data register returns and its drive of the balls. -/
def jtagTake (code : BitVec 5) (out : BitVec 168) (drive : PinDrive) (s : State) : State :=
  s.modJtag (fun j => { j with instr := code, out := out, drive := drive })

/-- BYPASS, which an instruction that is not available acts as. -/
def jtagBypass (s : State) : State := jtagTake 31 0 .normal s

/-- The levels of the balls as a boundary scan samples them: outside the model, free. -/
def sampledPins (s : State) : BitVec 168 × State :=
  let (l, s) := freeBytes 3 s
  (BitVec.ofNat 168 (leValue l), s)

/-- SAMPLE/PRELOAD. -/
def jtagSample (preload : BitVec 168) (s : State) : State :=
  let (pins, s) := sampledPins s
  (jtagTake 2 pins .normal s).modJtag (fun j => { j with cells := preload })

/-- EXTEST: the cells drive the balls, and the balls are sampled. -/
def jtagExtest (pins : BitVec 168) (s : State) : State :=
  if pinsOpen s then
    let (seen, s) := sampledPins s
    (jtagTake 0 seen (.driven pins) s).modJtag (fun j => { j with cells := pins })
  else jtagBypass s

/-- PROVISION (R571): K, where it runs, writes slot 1. -/
def provisionKey (key : BitVec 512) (digest : BitVec 256) (s : State) : State :=
  if s.keep.store.provisioned then jtagBypass s
  else
    let s := jtagTake 24 0 .normal s
    if issues s .k = true ∧ sm3 (beBytes 64 key.toNat) = digest ∧ validPoint key = true ∧ s.keep.store.slot 1 = 0 then
      showMeasures (showStore (s.modStore (fun k => (k.setKey 1 key).setSlot 1 1)))
    else s

/-! ## Commands -/

/-- VOTE_WRITE (R586). -/
def execVoteWrite (r : Requester) (nibble : BitVec 4) (s : State) : Out :=
  .next (busAccess r myVoteAddr true (fun s => myVote r nibble.toNat (busData 0 s)) s)
/-- HOST_VOTE_WRITE (R587). -/
def execHostVoteWrite (r : Requester) (nibble : BitVec 4) (s : State) : Out :=
  .next (busAccess r hostVoteAddr true (fun s => hostVote r nibble.toNat (busData 0 s)) s)
/-- POWER_ENTRY_DONE (R593). -/
def execPowerEntryDone (s : State) : Out := .next (entryDone s)
/-- PAIR_GATE (R590). -/
def execPairGate (p : Pair) (s : State) : Out := .next (pairGate p s)
/-- WAKE_ACCEPTED (R595). -/
def execWakeAccepted (phases : List LineLevel) (s : State) : Out := .next (wakeAccepted phases s)
/-- MPORT_ADDRESS_MATCH (R597): either value of the R/W bit. -/
def execMportAddressMatch (adr : BitVec 7) (_read : Bool) (s : State) : Out := .next (mportMatch adr s)
/-- MPORT_CLOCK_RELEASE (R597). -/
def execMportClockRelease (s : State) : Out := .next (mportRelease s)
/-- TIMER_WAKE (R594). -/
def execTimerWake (s : State) : Out := .next (if asleep s && wakeActs s 4 then wakeEvent 4 s else s)
/-- SLEEP_EXIT (R596). -/
def execSleepExit (src : BitVec 3) (s : State) : Out := .next (sleepExit src.toNat s)
/-- DEEP_EXIT (R596). -/
def execDeepExit (src : BitVec 3) (s : State) : Out := .next (deepExit src.toNat s)
/-- OFF_EXIT (R583). -/
def execOffExit (src : BitVec 3) (s : State) : Out := .next (offExit src.toNat s)
/-- MPORT_WRITE (R599). -/
def execMportWrite (bytes : List Byte) (s : State) : Out := .next (mportWrite bytes s)
/-- MPORT_READ (R599). -/
def execMportRead (n : Nat) (s : State) : Out := .next (mportRead n s)
/-- SENTINEL_TRIP (R604). -/
def execSentinelTrip (mask : BitVec 12) (s : State) : Out := .next (sentinelTrip mask.toNat s)
/-- SENTINEL_RECOVERY (R604). -/
def execSentinelRecovery (collapsed : Bool) (s : State) : Out := .next (sentinelRecovery collapsed s)
/-- VMOT_HOLD_FALL (R636); PWREN is released while VMOT is absent (`pwrenLevel`). -/
def execVmotHoldFall (s : State) : Out := .next (s.modKeep (fun k => { k with vmotLow := true }))
/-- VMOT_HOLD_RISE (R636). -/
def execVmotHoldRise (s : State) : Out := .next (vmotRise s)
/-- EXTEST (R581). -/
def execExtest (pins : BitVec 168) (s : State) : Out := .next (jtagExtest pins s)
/-- IDCODE (R581). -/
def execIdcode (s : State) : Out := .next (jtagTake 1 0x23620A4B .normal s)
/-- SAMPLE_PRELOAD (R581). -/
def execSamplePreload (preload : BitVec 168) (s : State) : Out := .next (jtagSample preload s)
/-- CLAMP (R581). -/
def execClampPins (s : State) : Out := .next (if pinsOpen s then jtagTake 4 0 (.driven s.jtag.cells) s else jtagBypass s)
/-- HIGHZ (R581). -/
def execHighz (s : State) : Out := .next (if pinsOpen s then jtagTake 5 0 .highZ s else jtagBypass s)
/-- DTMCS (R107, R581): what the debug transport answers is the debugger's standard's, and free. -/
def execDtmcs (val : Word) (s : State) : Out :=
  .next (if s.on F.KEEP_STAT_DBGOPEN then
    (jtagTake 16 (s.free.setWidth 32 |>.setWidth 168) .normal s.drew).modJtag (fun j => { j with dtmcs := val })
  else jtagBypass s)
/-- DMI (R107, R581). -/
def execDmi (val : BitVec 41) (s : State) : Out :=
  .next (if s.on F.KEEP_STAT_DBGOPEN then
    (jtagTake 17 (s.free.setWidth 41 |>.setWidth 168) .normal s.drew).modJtag (fun j => { j with dmi := val })
  else jtagBypass s)
/-- PROVISION (R571). -/
def execProvision (key : BitVec 512) (digest : BitVec 256) (s : State) : Out := .next (provisionKey key digest s)
/-- BYPASS (R581). -/
def execBypass (s : State) : Out := .next (jtagBypass s)
/-- TRACE_SELECT_WRITE (R582): a write by K, discarded while debug is closed. -/
def execTraceSelectWrite (mask : BitVec 4) (s : State) : Out :=
  .next (if s.on F.KEEP_STAT_DBGOPEN then s.put F.DBG_TRACE_SRC mask.toNat else s)

end Sys2Proof.Machine
end

