-- ==== Sys2Proof/Machine/Usile.lean ====
section
/-!
DEFINITION. The Usile sensor bus (chapter 14): the cycle, polls and replies, records in the two banks, and a second master.
-/
namespace Sys2Proof.Machine

/-! ## The port of S (R498)

USL's accesses to shared SRAM are S's at the interconnect: one of them in a cycle with others is S's request there, at the rank of S (R72), and one
beyond the SRAM is refused and captured as S's (R75, R76, R651). -/

/-- The words of a stretch of memory that lie beyond shared SRAM. -/
def beyondSram (a n : Nat) : List Nat :=
  ((List.range ((n + 3) / 4)).map (fun i => a / 4 * 4 + 4 * i)).filter (fun x => decide (x < 0x20000000 ∨ 0x20300000 ≤ x))

/-- Accesses of USL refused. -/
def uslRefused (write : Bool) (a n : Nat) (s : State) : State :=
  let bus := s.bus
  { (beyondSram a n).foldl (fun s x => refuse .s x write s) s with bus := bus }

/-- Bytes that USL reads: a refused word gives zeros. -/
def uslBytes (s : State) (a n : Nat) : List Byte :=
  (List.range n).map (fun i => if 0x20000000 ≤ a + i ∧ a + i < 0x20300000 then s.byte (a + i) else 0)

/-- Bytes that USL writes: a refused word is not written. -/
def uslStore (a : Nat) (l : List Byte) (s : State) : State :=
  uslRefused true a l.length (s.setBytes a (l.take (0x20300000 - a)))

/-! ## Frames and records -/

/-- USILE_MASTER of the strap word (R38). -/
def usileMaster (s : State) : Bool := bitAt (s.get F.SEAL_STRAP_WORD) 6

/-- BRDIV of a channel: the bit time in ticks (R484). -/
def bitTicks (s : State) (c : Nat) : Nat := if c = 0 then s.get F.USL_CTRL_BRDIV0 else s.get F.USL_CTRL_BRDIV1

/-- The address of the record of an entry in a bank (R494). -/
def recordAddr (s : State) (b : Nat) (e : UslEnt) : Nat :=
  0x20000000 + s.get F.USL_RXBASE_ADDR + 8 + 5120 * b + 40 * e.val

/-- The publication word PUB at RXBASE (R494), the bank being filled and the published bank (R495, R496). -/
def pubWord (s : State) : Nat := bytesAt (uslBytes s (0x20000000 + s.get F.USL_RXBASE_ADDR) 4) 0 4
def fillBank (s : State) : Nat := (pubWord s + 1) % 2
def publishedBank (s : State) : Nat := pubWord s % 2

/-- The levels of a byte on the line, one for each bit time (R484): a low start bit, the data bits from the least significant, a high stop
bit. -/
def uslByteBits (b : Byte) : List Bool := false :: (List.range 8).map (bitAt b.toNat) ++ [true]

/-- The levels of a frame, its bytes without gaps. -/
def uslFrameBits (l : List Byte) : List Bool := l.flatMap uslByteBits

/-- A word in two bytes, most significant byte first. -/
def beBytes2 (n : Nat) : List Byte := [BitVec.ofNat 8 (n / 256), BitVec.ofNat 8 n]

/-- The address of the poll payload of an entry in the transmit bank of the cycle (R497). -/
def payloadAddr (s : State) (k : UslEnt) : Nat :=
  0x20000000 + s.get F.USL_TXBASE_ADDR + 8 + (if s.usl.txBank then 2048 else 0) + 16 * k.val

/-- The poll frame of an entry (R486). -/
def pollFrame (s : State) (k : UslEnt) : List Byte :=
  let tlen := s.get (F.USL_ENTA_TLEN k)
  let head : List Byte :=
    [BitVec.ofNat 8 (s.get (F.USL_ENTA_ADDR k)), BitVec.ofNat 8 (s.get (F.USL_ENTA_CMD k) + 16 * laneId s),
     BitVec.ofNat 8 tlen, BitVec.ofNat 8 (s.get (F.USL_ENTA_RLEN k))]
  let body := head ++ uslBytes s (payloadAddr s k) tlen
  body ++ beBytes2 (crc16 body)

/-- The record of an accepted reply (R494). -/
def replyRecord (s : State) (k : UslEnt) (bytes : List Byte) : List Byte :=
  let rlen := s.get (F.USL_ENTA_RLEN k)
  let payload := (bytes.drop 2).take rlen
  [0, bytes.getD 1 0, BitVec.ofNat 8 rlen, 0] ++ leBytes 4 (s.get F.USL_CYCSEQ_CYCSEQ) ++ payload
    ++ List.replicate (32 - payload.length) 0

/-- A record with its age one higher and the ERR of this cycle (R495). -/
def agedRecord (rec : List Byte) (err : Nat) : List Byte :=
  match rec with
  | age :: st :: len :: _ :: t => (if age = 255 then 255 else age + 1) :: st :: len :: BitVec.ofNat 8 err :: t
  | l => l

/-- An entry never answered: AGE 255, NEVER 1, LEN 0 (R495). -/
def neverRecord : List Byte := [255, 0, 0x40, 0] ++ List.replicate 36 0

def slotOf (s : State) (k : UslEnt) : UslSlot := Tab.get (fun _ => .none) s.usl.slots k

/-- What stands open of an entry from an earlier cycle. -/
def overOf (s : State) (k : UslEnt) : UslSlot := Tab.get (fun _ => .none) s.usl.ended k

def setOver (k : UslEnt) (v : UslSlot) (s : State) : State :=
  s.modUsl (fun u => { u with ended := Tab.put (fun _ => .none) u.ended k v })

def setSlot (k : UslEnt) (v : UslSlot) (s : State) : State :=
  s.modUsl (fun u => { u with slots := Tab.put (fun _ => .none) u.slots k v })

def uslEnabled (s : State) (k : UslEnt) : Bool := s.on (F.USL_ENTA_EN k)

/-- The enabled entries. -/
def uslEntries (s : State) : List UslEnt := (List.finRange 128).filter (fun (k : UslEnt) => uslEnabled s k)

/-- Whether a token has been consumed by a poll. -/
def UslSlot.polled : UslSlot → Bool
  | .none => false | .failed e => e != 5 | _ => true

/-- ERR of an entry without an accepted reply at the cycle end: not reached is skipped, a poll without a reply is no reply. -/
def UslSlot.err : UslSlot → Nat
  | .none => 5 | .polling _ => 1 | .waiting _ => 1 | .again _ => 0 | .fresh => 0 | .failed e => e

/-- Whether a poll is being sent, and whether a reply window is open. -/
def UslSlot.sending : UslSlot → Bool
  | .polling _ => true | _ => false
def UslSlot.window : UslSlot → Bool
  | .waiting _ => true | .again _ => true | _ => false

/-- Whether a poll is being sent or a reply window is open on a channel, of this cycle or an earlier one (R489). -/
def channelBusy (s : State) (c : Nat) : Bool :=
  (List.finRange 128).any (fun (k : UslEnt) => s.get (F.USL_ENTA_CH k) == c &&
    ((slotOf s k).sending || (slotOf s k).window || (overOf s k).sending || (overOf s k).window))

/-- Whether USL transmits on a channel, and so drives its UDE high (R483). -/
def uslTransmits (s : State) (c : Nat) : Bool :=
  (List.finRange 128).any (fun (k : UslEnt) => s.get (F.USL_ENTA_CH k) == c && ((slotOf s k).sending || (overOf s k).sending))

/-- The tick at which the poll that is being sent on a channel began. -/
def pollSince (s : State) (c : Nat) : Option Nat :=
  (List.finRange 128).findSome? (fun (k : UslEnt) =>
    if s.get (F.USL_ENTA_CH k) = c then
      match slotOf s k, overOf s k with
      | .polling t, _ => some t
      | _, .polling t => some t
      | _, _ => none
    else none)

/-- The level of UTX of a channel (R483, R484): that of the bit being sent, high at rest. -/
def uslLevel (s : State) (c : Nat) : Bool :=
  match pollSince s c with
  | some t => (uslFrameBits (Tab.get (fun _ => []) s.usl.polls c)).getD ((s.tick - t) / bitTicks s c) true
  | none => true

/-- The polls and windows open beyond the cycle, with those whose reply may yet come after WHI (R489, R492). -/
def uslCarried (s : State) : Tab UslSlot :=
  (List.finRange 128).foldl (fun o (k : UslEnt) =>
    let v := slotOf s k
    if v.sending || v.window || v == .failed 1 then Tab.put (fun _ => .none) o k v else o) s.usl.ended

/-! ## Enabling, and the states (R499 to R502) -/

/-- Listening begins. -/
def uslListen (s : State) : State := (s.put F.USL_STAT_STATE 1).modUsl (fun u => { u with listenSince := s.tick })

/-- The length of a cycle in ticks (R487). -/
def cycleTicks (s : State) : Nat := s.get F.USL_CYC_CYCT * 20

/-- Whether a cycle begins, or ends, at the present tick (R487): a whole number of cycle lengths after the tick at which USL entered the run state
or, before that, at which it was enabled (log entry 11). -/
def onCycle (s : State) : Bool := decide (s.usl.origin ≤ s.tick) && (s.tick - s.usl.origin) % cycleTicks s == 0

/-- EN and MON written (R499): a master that is no master in the strap word is refused; EN 0 stops and clears DUPSTOP. With EN 1 before, a change
of MON listens again, the same values written again change nothing, and a stop of R501 stands (DESIGN CHOICE, log entry 11). -/
def uslEnable (en mon : Bool) (s : State) : State :=
  if en && !mon && !usileMaster s then s.put F.USL_STAT_ACCERR 1
  else
    let was := s.on F.USL_CTRL_EN
    let same := s.on F.USL_CTRL_MON == mon || s.on F.USL_STAT_DUPSTOP
    let s := (s.putB F.USL_CTRL_EN en).putB F.USL_CTRL_MON mon
    if en then
      if was then (if same then s else uslListen (s.modUsl (fun u => { u with runCycle := false })))
      else uslListen ((s.put F.USL_CYCSEQ_CYCSEQ 0).modUsl (fun u => { u with
        slots := [], ended := [], dups := 0, runCycle := false, origin := s.tick, cycleAt := some s.tick }))
    else followVotes (((s.put F.USL_STAT_STATE 0).put F.USL_STAT_DUPSTOP 0).modUsl (fun u => { u with
      slots := [], ended := [], dups := 0, runCycle := false, cycleAt := none }))

/-- Every record of both banks set as entering the run state sets them (R495). -/
def clearRecords (s : State) : State :=
  (List.finRange 128).foldl (fun s (k : UslEnt) =>
    uslStore (recordAddr s 1 k) neverRecord (uslStore (recordAddr s 0 k) neverRecord s)) s

/-- TIME latches the start of a cycle (R518). -/
def latchCycle (s : State) : State :=
  ((s.put F.TIME_UCYCSEC_SEC s.time.sec.toNat).put F.TIME_UCYCNS_NS (s.get F.TIME_NS_NS)).put F.TIME_UCYCSEQ_CYCSEQ
    (s.get F.USL_CYCSEQ_CYCSEQ)

/-- A cycle start (R487, R497, R499, R518): a lane that has listened for one cycle length enters the run state, from which the cycles count anew. At
any other tick that is none of R487's nothing begins. -/
def uslCycleStart (s : State) : State :=
  let enters := decide (s.get F.USL_STAT_STATE = 1 ∧ s.usl.listenSince + cycleTicks s ≤ s.tick)
  if s.on F.USL_CTRL_EN && (enters || onCycle s) then
    let s := if enters then clearRecords ((s.put F.USL_STAT_STATE 2).modUsl (fun u => { u with origin := s.tick })) else s
    let sel := uslBytes s (0x20000000 + s.get F.USL_TXBASE_ADDR) 1
    let s := uslRefused false (0x20000000 + s.get F.USL_TXBASE_ADDR) 1 s
    let run := decide (s.get F.USL_STAT_STATE = 2)
    let s := s.modUsl (fun u => { u with
      slots := [], ended := uslCarried s, txBank := bitAt (sel.getD 0 0).toNat 0, runCycle := run, cycleAt := some s.tick })
    latchCycle (s.put F.USL_SHEET_NENT (uslEntries s).length)
  else s

/-! ## Polls and replies (R489 to R492) -/

/-- The counter of a channel: 0 no reply, 1 outside the window, 2 CRC, 3 framing or length. -/
def uslCount (c j : Nat) (s : State) : State :=
  let f := match j with
    | 0 => F.USL_CNT_TMOCNT c | 1 => F.USL_CNT_WINCNT c | 2 => F.USL_CNT_CRCCNT c | _ => F.USL_CNT_FRMCNT c
  s.countBit f F.USL_CNTOVF_OVF (4 * c + j)

/-- Whether a lower-numbered enabled entry of the same channel has the same START, and so is the one polled (R489). -/
def startTaken (s : State) (k : UslEnt) : Bool :=
  (uslEntries s).any (fun (j : UslEnt) => decide (j.val < k.val) && s.get (F.USL_ENTA_CH j) == s.get (F.USL_ENTA_CH k)
    && s.get (F.USL_ENTB_START j) == s.get (F.USL_ENTB_START k))

/-- START of an entry reached (R489, R490, R502). `lineIdle`: no frame is in progress on the channel and its line has been
high for 2 bit times. -/
def uslPollStart (k : UslEnt) (lineIdle : Bool) (s : State) : State :=
  let c := s.get (F.USL_ENTA_CH k)
  if !s.on F.USL_CTRL_EN || s.on F.USL_CTRL_MON || !uslEnabled s k || slotOf s k != .none then s
  else if s.get F.USL_STAT_STATE ≠ 2 then setSlot k (.failed 5) s
  else if lineIdle && s.bit F.USL_CTRL_CHEN c && !channelBusy s c && !startTaken s k then
    let f := pollFrame s k
    let s := uslRefused false (payloadAddr s k) (s.get (F.USL_ENTA_TLEN k)) s
    (setSlot k (.polling s.tick) s).modUsl (fun u => { u with
      polls := Tab.put (fun _ => []) u.polls c f, ended := u.ended.filter (fun e => s.get (F.USL_ENTA_CH e.1) != c) })
  else (setSlot k (.failed 5) s).countBit F.USL_CNT2_SKIPCNT F.USL_CNTOVF_OVF 8

/-- The ticks that the poll of an entry takes (R484): a bit time for each of its levels. -/
def pollTicks (s : State) (k : UslEnt) : Nat :=
  let c := s.get (F.USL_ENTA_CH k)
  (uslFrameBits (Tab.get (fun _ => []) s.usl.polls c)).length * bitTicks s c

/-- The end of a poll, the bit times of its frame after its start, opens the reply window. -/
def uslPollEnd (k : UslEnt) (s : State) : State :=
  match slotOf s k, overOf s k with
  | .polling t, _ => if t + pollTicks s k ≤ s.tick then setSlot k (.waiting s.tick) s else s
  | _, .polling t => if t + pollTicks s k ≤ s.tick then setOver k (.waiting s.tick) s else s
  | _, _ => s

/-- A reply discarded with its counter and ERR (R492); one accepted in the same cycle stands. -/
def uslDiscard (k : UslEnt) (j err : Nat) (s : State) : State :=
  let v : UslSlot := match slotOf s k with | .again _ => .fresh | _ => .failed err
  uslCount (s.get (F.USL_ENTA_CH k)) j (setSlot k v s)

/-- The level of a line at a tick of the stretches given; it is high after them. -/
def lineAt : List LineLevel → Nat → Bool
  | [], _ => true
  | x :: rest, t => if t < x.length then x.high else lineAt rest (t - x.length)

/-- The ticks of the falling edges of a line that was high before. -/
def fallsFrom : Bool → Nat → List LineLevel → List Nat
  | _, _, [] => []
  | was, t, x :: rest =>
    let later := fallsFrom x.high (t + x.length) rest
    if x.length = 0 then fallsFrom was t rest else if was && !x.high then t :: later else later

/-- What the receiver has made of a line: the tick of the first start bit, the bytes, whether their framing is right, and the tick at which the last
stop bit ends. -/
structure UslHeard where
  start : Option Nat
  bytes : List Byte
  ok : Bool
  ends : Nat
  deriving DecidableEq, Repr

/-- The tick nearest the middle of a bit that begins some bit times after a start bit's edge (R485); of two equally near either (`late`). -/
def bitMiddle (brd : Nat) (late : Bool) (i : Nat) : Nat := ((2 * i + 1) * brd + late.toNat) / 2

/-- The byte of a start bit at a tick: each data bit sampled at the tick nearest its middle (R484, R485). -/
def byteFrom (line : List LineLevel) (brd : Nat) (late : Bool) (t : Nat) : Byte :=
  BitVec.ofNat 8 ((List.range 8).map (fun i => (lineAt line (t + bitMiddle brd late (i + 1))).toNat * 2 ^ i)).sum

/-- A falling edge met (R485): within a byte it is data; after the middle of its stop bit it begins the next byte, which resynchronises the receiver.
A stop bit sampled low, or a start bit more than 2 bit times after the end of the stop bit before it, is a framing error. -/
def edgeHeard (line : List LineLevel) (brd : Nat) (late : Bool) (h : UslHeard) (t : Nat) : UslHeard :=
  if h.start.isSome && decide (t + 10 * brd ≤ h.ends + bitMiddle brd late 9) then h
  else
    let near := h.start.isNone || decide (t ≤ h.ends + 2 * brd)
    { start := h.start.or (some t), bytes := h.bytes ++ [byteFrom line brd late t]
      ok := h.ok && near && lineAt line (t + bitMiddle brd late 9), ends := t + 10 * brd }

/-- What the receiver of a channel makes of a line with its bit time. -/
def uslHeard (line : List LineLevel) (brd : Nat) (late : Bool) : UslHeard :=
  (fallsFrom true 0 line).foldl (edgeHeard line brd late) ⟨none, [], true, 0⟩

/-- Whether a frame that ends some ticks after the poll's end ends before the end of the cycle of the poll (R491). -/
def endsInCycle (s : State) (k : UslEnt) (ticks : Nat) : Bool :=
  match s.usl.cycleAt, slotOf s k with
  | some c, .waiting t => decide (t + ticks ≤ c + cycleTicks s)
  | some c, .again t => decide (t + ticks ≤ c + cycleTicks s)
  | _, _ => false

/-- A reply of the present cycle judged (R491, R492). A reply with the wrong address byte is discarded with one
counter; which one, the spec does not say (log entry 11). -/
def uslJudge (k : UslEnt) (rep : UslReply) (s : State) : State :=
  let brd := bitTicks s (s.get (F.USL_ENTA_CH k))
  let rlen := s.get (F.USL_ENTA_RLEN k)
  let rep := uslHeard rep.line brd (bitAt s.free.toNat 0)
  match rep.start with
  | none => s
  | some t =>
  let s := s.drew
  let inWindow := decide (s.get (F.USL_ENTW_WLO k) * brd ≤ t ∧ t ≤ s.get (F.USL_ENTW_WHI k) * brd)
  if !inWindow || !endsInCycle s k rep.ends then uslDiscard k 1 2 s
  else if !rep.ok || rep.bytes.length != 4 + rlen then uslDiscard k 3 4 s
  else if beBytes2 (crc16 (rep.bytes.take (2 + rlen))) ≠ rep.bytes.drop (2 + rlen) then uslDiscard k 2 3 s
  else if (rep.bytes.getD 0 0).toNat ≠ 128 + s.get (F.USL_ENTA_ADDR k) then
    (match s.free.toNat % 3 with
     | 0 => uslDiscard k 1 2 s | 1 => uslDiscard k 3 4 s | _ => uslDiscard k 2 3 s).drew
  else setSlot k .fresh (uslStore (recordAddr s (fillBank s) k) (replyRecord s k rep.bytes) s)

/-- A reply (R491, R492): one that starts after WHI, or that ends after the cycle of its poll, is discarded as outside its window. A line without a
start bit is none. -/
def uslReply (k : UslEnt) (rep : UslReply) (s : State) : State :=
  if (fallsFrom true 0 rep.line).isEmpty then s
  else match slotOf s k with
  | .waiting _ => uslJudge k rep s
  | .again _ => uslJudge k rep s
  | .failed 1 => uslDiscard k 1 2 s
  | _ => if (overOf s k).window || overOf s k == .failed 1 then uslCount (s.get (F.USL_ENTA_CH k)) 1 (setOver k .none s) else s

/-- No start bit by WHI (R492). -/
def uslTimeout (k : UslEnt) (s : State) : State :=
  if (slotOf s k).window then uslDiscard k 0 1 s
  else if (overOf s k).window then uslCount (s.get (F.USL_ENTA_CH k)) 0 (setOver k (.failed 1) s)
  else s

/-- An entry's record at the cycle end (R495): a fresh one stands; any other is copied and aged. -/
def uslPublishEntry (s : State) (k : UslEnt) : State :=
  let slot := slotOf s k
  let fill := recordAddr s (fillBank s) k
  let old := recordAddr s (publishedBank s) k
  let s := if slot.err = 0 then s
    else uslStore fill (agedRecord (uslBytes s old 40) slot.err) (uslRefused false old 40 s)
  let shown := uslBytes s fill 4
  (s.put (F.USL_ENTS_AGE k) (shown.getD 0 0).toNat).put (F.USL_ENTS_ERR k) (shown.getD 3 0).toNat

/-- The cycle end (R490, R495, R496, R502): at the tick at which the next begins (R487). -/
def uslCycleEnd (s : State) : State :=
  if s.on F.USL_CTRL_EN && onCycle s && s.usl.cycleAt.any (fun c => decide (c < s.tick)) then
    let es := uslEntries s
    let polls := (es.filter (fun (k : UslEnt) => (slotOf s k).polled)).length
    let s := es.foldl uslPublishEntry s
    let s := ((s.put F.USL_SHEET_NENT es.length).put F.USL_SHEET_POLLS polls).put F.USL_SHEET_SKIPS (es.length - polls)
    let next := (s.get F.USL_CYCSEQ_CYCSEQ + 1) % 2 ^ 32
    let s := uslStore (0x20000000 + s.get F.USL_RXBASE_ADDR) (leBytes 4 next) s
    let s := s.put F.USL_CYCSEQ_CYCSEQ next
    let whole := s.usl.runCycle && s.get F.USL_STAT_STATE == 2
    s.modUsl (fun u => { u with slots := [], ended := uslCarried s, cycleAt := none, runCycle := false, dups := if whole then 0 else u.dups })
  else s

/-- A second master detected in the listen or run state (R500, R501). -/
def uslSecondMaster (c : Fin 2) (readback : Bool) (s : State) : State :=
  let st := s.get F.USL_STAT_STATE
  if (st = 1 ∨ st = 2) ∧ s.on F.USL_CTRL_MON = false then
    let s := s.when readback (fun s => s.putBit F.USL_STAT_COLL c true)
    let s := (s.put F.USL_STAT_DUPM 1).countBit F.USL_CNT2_DUPCNT F.USL_CNTOVF_OVF 9
    let s := (List.finRange 128).foldl (fun s (k : UslEnt) =>
      let s := if (slotOf s k).sending then setSlot k (.failed 1) s else s
      if (overOf s k).sending then setOver k (.failed 1) s else s) s
    let n := s.usl.dups + 1
    let s := s.modUsl (fun u => { u with dups := n, listenSince := s.tick })
    if 3 ≤ n then (s.put F.USL_STAT_STATE 0).put F.USL_STAT_DUPSTOP 1 else s.put F.USL_STAT_STATE 3
  else s

/-- The end of deferring, (1 + 2 × LANE_ID) cycle lengths after the detection (R500). -/
def uslDeferEnd (s : State) : State :=
  if s.get F.USL_STAT_STATE = 3 ∧ s.usl.listenSince + (1 + 2 * laneId s) * (s.get F.USL_CYC_CYCT * 20) ≤ s.tick then uslListen s else s

/-- A poll observed by a monitor on an enabled channel (R503): the lowest enabled entry of its channel, address and command waits for the reply, and
keeps one it has accepted in this cycle. -/
def uslObserved (c : Fin 2) (adr : BitVec 7) (cmd : BitVec 4) (s : State) : State :=
  if s.on F.USL_CTRL_EN ∧ s.on F.USL_CTRL_MON ∧ s.get F.USL_STAT_STATE = 2 ∧ s.bit F.USL_CTRL_CHEN c = true then
    match (uslEntries s).find? (fun (k : UslEnt) => s.get (F.USL_ENTA_CH k) == c.val && s.get (F.USL_ENTA_ADDR k) == adr.toNat
        && s.get (F.USL_ENTA_CMD k) == cmd.toNat) with
    | some k => setSlot k (if (slotOf s k).err = 0 then .again s.tick else .waiting s.tick) s
    | none => s
  else s

/-! ## The commands -/

/-- USILE_ENABLE (R499). -/
def execUsileEnable (en mon : Bool) (s : State) : Out := clockedOut s <| .next (uslEnable en mon s)
/-- USILE_CYCLE_START (R487). -/
def execUsileCycleStart (s : State) : Out := clockedOut s <| .next (uslCycleStart s)
/-- POLL_START (R489). -/
def execPollStart (k : UslEnt) (lineIdle : Bool) (s : State) : Out := clockedOut s <| .next (uslPollStart k lineIdle s)
/-- POLL_END (R491). -/
def execPollEnd (k : UslEnt) (s : State) : Out := clockedOut s <| .next (uslPollEnd k s)
/-- REPLY_RECEIVED (R491, R492). -/
def execReplyReceived (k : UslEnt) (rep : UslReply) (s : State) : Out := clockedOut s <| .next (uslReply k rep s)
/-- REPLY_WINDOW_TIMEOUT (R492). -/
def execReplyWindowTimeout (k : UslEnt) (s : State) : Out := clockedOut s <| .next (uslTimeout k s)
/-- USILE_CYCLE_END (R496). -/
def execUsileCycleEnd (s : State) : Out := clockedOut s <| .next (uslCycleEnd s)
/-- SECOND_MASTER_DETECTED (R500). -/
def execSecondMasterDetected (c : Fin 2) (readback : Bool) (s : State) : Out := clockedOut s <| .next (uslSecondMaster c readback s)
/-- DEFER_END (R500). -/
def execDeferEnd (s : State) : Out := clockedOut s <| .next (uslDeferEnd s)
/-- POLL_OBSERVED (R503). -/
def execPollObserved (c : Fin 2) (adr : BitVec 7) (cmd : BitVec 4) (s : State) : Out := clockedOut s <| .next (uslObserved c adr cmd s)

end Sys2Proof.Machine
end

