-- ==== Sys2Proof/Machine/Bus.lean ====
section
/-!
DEFINITION. Accesses to registers: the value a read returns with what it latches and clears (R17, R26, R507, R518, R614, R654),
and what a write of each register starts beside storing its fields.
-/
namespace Sys2Proof.Machine

/-! ## Reads -/

/-- A vector of one-bit fields as a number. -/
def bitsOf (n : Nat) (f : Nat → Bool) : Nat := ((List.range n).filter f).foldl (fun a i => a + 2 ^ i) 0

/-- HLE_STAT: BUSY, FAULT and PEND of each engine as its own state gives them. -/
def hleStat (s : State) : Word :=
  let pend (e : Nat) : Bool := match s.eng.toList[e]? with | some x => !x.pending.isEmpty | none => false
  let w := s.rd F.HLE_STAT_ACCERR.addr
  let w := F.HLE_STAT_BUSY.write w (bitsOf 7 (fun e => s.on (F.HLE_ENGSTAT_BUSY e)))
  let w := F.HLE_STAT_FAULT.write w (bitsOf 7 (fun e => s.on (F.HLE_ENGSTAT_FAULT e)))
  F.HLE_STAT_PEND.write w (bitsOf 7 pend)

/-- A register of a CAN controller as a read sees it: the pending words stand for the objects' own bits, the window for the
object selected. -/
def canValue (s : State) (n : CanCtl) (off addr : Nat) : Word :=
  if 0x84 ≤ off ∧ off < 0x90 then
    BitVec.ofNat 32 (bitsOf 32 (fun i => s.on (F.CAN_RSTAT_NEWDAT n (32 * ((off - 0x84) / 4) + i))))
  else if off = 0x90 then BitVec.ofNat 32 (bitsOf 32 (fun i => s.on (F.CAN_TSTAT_TXREQ n i)))
  else if 0x800 ≤ off then canWindowRead s n off
  else s.rd addr

/-- DBG_STAT: debug open, the pairs halted, the trace port enabled while debug is open (R582). -/
def dbgStat (s : State) : Word :=
  let w := F.DBG_STAT_OPEN.write 0 (s.get F.KEEP_STAT_DBGOPEN)
  let w := F.DBG_STAT_HALT.write w (s.get F.DBL_STAT_DBGHALT)
  F.DBG_STAT_TRACE.write w (s.get F.KEEP_STAT_DBGOPEN)

/-- The stored value of a register as a requester sees it. A requester that has no vote reads PWR_MYVOTE as 0. -/
def regValue (r : Requester) (addr : Nat) (s : State) : Word :=
  let latch (t : Tab Word) : Word := Tab.get (fun _ => 0) t (reqCode r)
  match addr with
  | 0x40001004 => BitVec.ofNat 32 (voteWord s)
  | 0x40001008 => (match voteNibble r with
      | some i => BitVec.ofNat 32 (s.get F.PWR_VOTE_VOTE / 16 ^ i % 16) | none => 0)
  | 0x4000B004 => hleStat s
  | 0x40013014 => ldemValue s (match r with | .h i => some i.val | _ => none)
  | 0x4001A008 => F.USL_STAT_MASTER.write (s.rd 0x4001A008) (usileMaster s).toNat
  | 0x4001A010 => F.USL_SHEET_NENT.write (s.rd 0x4001A010) (uslEntries s).length
  | 0x4001B00C => latch s.time.secL
  | 0x4001B020 => latch s.time.ucycSecL
  | 0x4001B024 => latch s.time.ucycSeqL
  | 0x4001E038 => latch s.time.upL
  | 0x40020000 => dbgStat s
  | _ =>
    match blockOf addr with
    | 21 => canValue s 0 (addr % 0x1000) addr
    | 22 => canValue s 1 (addr % 0x1000) addr
    | 23 => canValue s 2 (addr % 0x1000) addr
    | 24 => canValue s 3 (addr % 0x1000) addr
    | _ => s.rd addr

/-- A read returns copies of bit 19 above a 20-bit value (R17). -/
def signCopies (addr : Nat) (v : Word) : Word :=
  if (rowsAt addr).any (fun r => r.sx) then (v.setWidth 20).signExtend 32 else v

/-- The RC fields of a register cleared (R26). -/
def clearRead (addr : Nat) (s : State) : State :=
  let rc := (rowsAt addr).filter (fun r => r.acc == .rc)
  if rc.isEmpty then s else s.wr addr (rc.foldl (fun w r => r.into w 0) (s.rd addr))

/-- A permitted read: the value, what the read latches, and what it clears. A reserved offset reads 0 (R654);
VBUS_VDRV, a measurement no command brings, reads a free value. -/
def regRead (r : Requester) (addr : Nat) (s : State) : State :=
  if addr = addrTimeNs then readTimeNs r s
  else if addr = addrUcycNs then readUcycNs r s
  else if addr = addrUptime then readUptime r s
  else if (rowsAt addr).isEmpty then busData 0 s
  else if addr = F.VBUS_VDRV_VDRV.addr then busData ((s.free.setWidth 16).setWidth 32) s.drew
  else busData (signCopies addr (regValue r addr s)) (clearRead addr s)

/-- A read of a register. -/
def registerRead (r : Requester) (addr : Nat) (s : State) : State := busAccess r addr false (regRead r addr) s

/-! ## Writes -/

/-- The low bits of a register that every write leaves 0: pointers to aligned places. The field tables say these bits are 'written 0' and
R659 does not say what a write does that carries others: the model clears them and stores the rest (DESIGN CHOICE, log entry 99). -/
def lowZeros (addr : Nat) : Nat :=
  match addr with
  | 0x40013018 => 2
  | 0x40011010 => 2 | 0x40012010 => 2
  | 0x4001A014 => 3 | 0x4001A018 => 3
  | 0x4001C00C => 2
  | 0x4001E018 => 6 | 0x4001E01C => 5 | 0x4001E020 => 2
  | a => if 0x40019018 ≤ a ∧ a < 0x40019118 ∧ a % 16 = 8 then 2 else 0

/-- The word with its low bits cleared. -/
def clearLow (addr : Nat) (v : Word) : Word := v >>> lowZeros addr <<< lowZeros addr

/-- A field as it was before a write. -/
def State.keepOld (t old : State) (f : Fld) : State := t.put f (old.get f)

/-- SYS: restart requests (R546), and VALID of SYS_BUSERR with its count (R76). -/
def sysWrite (off addr : Nat) (v : Word) (s : State) : State :=
  regWriteWith addr v (fun t =>
    if off = 0x10 then
      if bitAt v.toNat 1 then coldRequest 6 t else if bitAt v.toNat 0 then warmRequest 5 t else t
    else if off = 0x40 then
      if bitAt v.toNat 6 then (t.put F.SYS_BUSERR_COUNT 0).put F.SYS_BUSERR_OVF 0 else t
    else t) s

/-- DBL: HOLD (R90), VALID of a capture (R99), START of the injection sequencer (R105). -/
def dblWrite (off addr : Nat) (v : Word) (s : State) : State :=
  if off = 0 then holdWrite (v.toNat % 16) s
  else regWriteWith addr v (fun t =>
    if h : 0x10 ≤ off ∧ off < 0x20 then
      if bitAt v.toNat 0 then faultClear ⟨(off - 0x10) / 4, by omega⟩ t else t
    else if off = 0x20 ∧ bitAt v.toNat 4 then injectionStart (v.toNat % 16) (t.keepOld s F.DBL_INJ_START)
    else t) s

/-- ANG: CTRL and the cue words (R123, R127). -/
def angWrite (b : Bridge) (off addr : Nat) (v : Word) (s : State) : State :=
  if off = 0 then angCtrlWrite b v s
  else if h : 0x100 ≤ off ∧ off < 0x300 then
    if off % 8 = 0 then cuePosWrite b ⟨(off - 0x100) / 8, by omega⟩ v s
    else if off % 8 = 4 then cueCfgWrite b ⟨(off - 0x100) / 8, by omega⟩ v s
    else accErr addr s
  else regWriteWith addr v id s

/-- POS: CTRL, MTSET (R141), REVAL (R168), CMPjVAL (R175), FO, whose ALLLOST the set's state follows (R53). -/
def posWrite (k : PosBlk) (off addr : Nat) (v : Word) (s : State) : State :=
  if off = 0 then posCtrlWrite k v s
  else if off = 0x74 then compareValWrite k 0 v s
  else if off = 0x84 then compareValWrite k 1 v s
  else regWriteWith addr v (fun t =>
    if off = 0x5C then setTurns k v.toNat t else if off = 0x60 then revalMask k (v.toNat % 8) t
    else if off = 0x90 then judgeSet t else t) s

/-- A SENT receiver enabled or disabled: a valid channel waits for its first good frame, one made invalid goes on waiting for its REVAL
(R168). The frame before is forgotten, so the next is not held to R159's 1/64, which the spec does not say (DESIGN CHOICE, log entry 92). -/
def sentSwitched (c : SentCh) (was : Bool) (t : State) : State :=
  if t.on (F.SENT_CFG_EN c) = was then t
  else
    let valid := t.on (F.SENT_STAT_VALID c)
    emuFollow (emuValid t) ((t.put (F.SENT_STAT_VALID c) 0).modSent c (fun x => { Sent.reset with awaiting := x.awaiting || valid }))

/-- SENT: CFG and REVAL. -/
def sentWrite (off addr : Nat) (v : Word) (s : State) : State :=
  regWriteWith addr v (fun t =>
    if h : off < 0x80 then
      let c : SentCh := ⟨off / 0x20, by omega⟩
      if off % 0x20 = 0 then sentSwitched c (s.on (F.SENT_CFG_EN c)) t
      else if off % 0x20 = 0x18 ∧ bitAt v.toNat 31 then revalSent c t
      else t
    else t) s

/-- EMU: with EN = 0 the three outputs are low; else EMUZ follows ZPOS and the source (R177, R178). -/
def emuWrite (off addr : Nat) (v : Word) (s : State) : State :=
  regWriteWith addr v (fun t =>
    let t := emuFollow (emuValid s) t
    if off = 0 ∧ t.on F.EMU_CTRL_EN = false then emuLow t else t) s

/-- ISNS: a window open or queued as its bridge is disabled is dropped without a result, which R184 does not say (DESIGN CHOICE, log entry 94);
REVAL (R194); CALREQ (R202). -/
def isnsWrite (off addr : Nat) (v : Word) (s : State) : State :=
  let closed (b : Bridge) (f : Fld) (t : State) : State :=
    if t.on f then t else t.modBridge b (fun x => { x with win := none, queued := none })
  let calibrate (b : Bridge) (t : State) : State :=
    if bitAt v.toNat b && !t.bit F.ISNS_STAT_CALBUSY b then calRequest b t else t
  regWriteWith addr v (fun t =>
    if off = 0 then closed 1 F.ISNS_CTRL_ENB (closed 0 F.ISNS_CTRL_ENA t)
    else if off = 0xC then revalChannels (v.toNat % 16) t
    else if off = 0x6C then calibrate 1 (calibrate 0 (t.keepOld s F.ISNS_CAL_CALREQ))
    else t) s

/-- HLE: CTRL (R222), SWTRIG (R220), ENGnCTRL (R228, R230, R236). -/
def hleWrite (off addr : Nat) (v : Word) (s : State) : State :=
  if off = 0 then hleEnable v s
  else if off = 0xC then softTrigger v s
  else if h : 0x100 ≤ off ∧ off < 0x2C0 then
    if off % 0x40 = 0 then engCtrlWrite ⟨(off - 0x100) / 0x40, by omega⟩ v s else regWriteWith addr v id s
  else regWriteWith addr v id s

/-- MC: CTRL (R313), the duty words (R282, R285). -/
def mcWrite (b : Bridge) (off addr : Nat) (v : Word) (s : State) : State :=
  if off = 0 then mcCtrlWrite b v s
  else if off = 0x10 then dutyWrite b v s
  else if off = 0x14 then ssdutyWrite b v s
  else regWriteWith addr v id s

/-- GD: CTRL (R349), the sense trims (R367). -/
def gdWrite (b : Bridge) (off addr : Nat) (v : Word) (s : State) : State :=
  if off = 0 then gdCtrlWrite b v s
  else if h : 0x40 ≤ off ∧ off < 0x58 ∧ off % 4 = 0 then snsTrimWrite b ⟨(off - 0x40) / 4, by omega⟩ v s
  else regWriteWith addr v id s

/-- EBP: a port enabled, disabled or retrained begins its training again (R374). -/
def ebpWrite (e : Port) (off addr : Nat) (v : Word) (s : State) : State :=
  regWriteWith addr v (fun t =>
    if off = 0 then
      let t := t.put (F.EBP_CTRL_RETRAIN e) 0
      if bitAt v.toNat 5 || t.on (F.EBP_CTRL_EN e) != s.on (F.EBP_CTRL_EN e) then retrain e t else t
    else t) s

/-- CONT_CTRL: WDREQ withdraws (R369); EN set in a drive-ready solo lane gives it lead (R44). Clearing EN is no event of R369: a role held
stays (log entry 43). -/
def contCtrlWrite (addr : Nat) (v : Word) (s : State) : State :=
  regWriteWith addr v (fun t =>
    let t := t.keepOld s F.CONT_CTRL_WDREQ
    let t := if bitAt v.toNat 1 then withdrawRequest t else t
    if t.on F.CONT_CTRL_EN && !s.on F.CONT_CTRL_EN then
      soloLead t
    else t) s

/-- CONT: CTRL, STAT, whose flags the set's state follows (R370), SWAP (R398), SB (R416). -/
def contWrite (off addr : Nat) (v : Word) (s : State) : State :=
  if off = 0 then contCtrlWrite addr v s
  else regWriteWith addr v (fun t =>
    if off = 0x2C then
      let t := t.keepOld s F.CONT_SWAP_REQ
      if bitAt v.toNat 0 then swapRequest t else t
    else if off = 0x30 then
      let t := (t.keepOld s F.CONT_SB_GO).keepOld s F.CONT_SB_HAND
      let t := if bitAt v.toNat 12 then switchGo t else t
      if bitAt v.toNat 13 then handover t else t
    else if off = 4 then judgeSet t
    else t) s

/-- SAFE: CAUSE (R427), CUT (R425), CLOSE (R439). -/
def safeWrite (off addr : Nat) (v : Word) (s : State) : State :=
  if off = 4 then causeWrite (v.toNat % 1024) s
  else if off = 8 then safeCutWrite v s
  else if off = 0xC then closeWrite v s
  else regWriteWith addr v id s

/-- CAN: CTRL (R471, R476), the transmit objects (R465, R468), the window (R464, R466). -/
def canWrite (n : CanCtl) (off addr : Nat) (v : Word) (s : State) : State :=
  if 0x800 ≤ off then canWindow n off v s
  else regWriteWith addr v (fun t =>
    if off = 0 then
      let t := ((t.keepOld s (F.CAN_CTRL_EN n)).keepOld s (F.CAN_CTRL_ABD n)).keepOld s (F.CAN_CTRL_RECOVER n)
      let t := if bitAt v.toNat 0 = s.on (F.CAN_CTRL_EN n) then t else canEnable n (bitAt v.toNat 0) t
      let t := if bitAt v.toNat 3 then abdStart n t else t
      if bitAt v.toNat 4 then canRecover n t else t
    else if h : 0x580 ≤ off ∧ off < 0x600 then
      let k : Fin 32 := ⟨(off - 0x580) / 4, by omega⟩
      let t := (t.keepOld s (F.CAN_TSTAT_TXREQ n k)).keepOld s (F.CAN_TSTAT_CANCEL n k)
      let t := if bitAt v.toNat 0 then canRequest n k t else t
      if bitAt v.toNat 1 then canCancel n k t else t
    else t) s

/-- USL: CTRL with EN and MON (R499). -/
def uslWrite (off addr : Nat) (v : Word) (s : State) : State :=
  regWriteWith addr v (fun t =>
    if off = 0 then
      uslEnable (bitAt v.toNat 0) (bitAt v.toNat 1) ((t.keepOld s F.USL_CTRL_EN).keepOld s F.USL_CTRL_MON)
    else t) s

/-- TIME: STEPNS (R509), RATE (R508). -/
def timeWrite (off addr : Nat) (v : Word) (s : State) : State :=
  if off = 0x14 then stepNs v s
  else if off = 0x18 then setRate v s
  else regWriteWith addr v id s

/-- Every pool emptied and every queued reply discarded (R532), over CAN by cancelling object 28, which holds its frame still where it has won its
arbitration. -/
def hostEmpty (s : State) : State :=
  let s := canCancel 1 28 (canCancel 0 28 s)
  let still (n : CanCtl) : Bool := s.on (F.CAN_TSTAT_TXREQ n 28)
  let s := s.modHost (fun h => { h with
    chan := Vector.replicate 3 ⟨[], [], []⟩, mbox := [], late := [], stale := BitVec.ofNat 2 ((still 0).toNat + 2 * (still 1).toNat) })
  ((s.put F.HOST_STAT_HELDS 0).put F.HOST_STAT_HELDC0 0).put F.HOST_STAT_HELDC1 0

/-- HOST: CTRL with EN = 0 (R532). -/
def hostWrite (off addr : Nat) (v : Word) (s : State) : State :=
  regWriteWith addr v (fun t => if off = 0 ∧ t.on F.HOST_CTRL_EN = false then hostEmpty t else t) s

/-- PWR: the two vote registers (R587). -/
def pwrWrite (r : Requester) (addr : Nat) (v : Word) (s : State) : State :=
  if addr = myVoteAddr then myVote r (v.toNat % 16) s
  else if addr = hostVoteAddr then hostVote r (v.toNat % 16) s
  else regWriteWith addr v id s

/-- DBG: the trace sources, writable while debug is open (R582). -/
def dbgWrite (addr : Nat) (v : Word) (s : State) : State :=
  if s.on F.KEEP_STAT_DBGOPEN then regWriteWith addr v id s else s

/-- What a permitted write does, by block. A write to a reserved offset is discarded (R654). -/
def regAct (r : Requester) (addr : Nat) (v : Word) (s : State) : State :=
  if (rowsAt addr).isEmpty then accErr addr s
  else
    let v := clearLow addr v
    let off := addr % 0x1000
    match blockOf addr with
    | 0 => sysWrite off addr v s
    | 1 => pwrWrite r addr v s
    | 3 => dblWrite off addr v s
    | 4 => angWrite 0 off addr v s | 5 => angWrite 1 off addr v s
    | 6 => posWrite 0 off addr v s | 7 => posWrite 1 off addr v s
    | 8 => sentWrite off addr v s
    | 9 => emuWrite off addr v s
    | 10 => isnsWrite off addr v s
    | 11 => hleWrite off addr v s
    | 12 => mcWrite 0 off addr v s | 13 => mcWrite 1 off addr v s
    | 14 => gdWrite 0 off addr v s | 15 => gdWrite 1 off addr v s
    | 17 => ebpWrite 0 off addr v s | 18 => ebpWrite 1 off addr v s
    | 19 => contWrite off addr v s
    | 20 => safeWrite off addr v s
    | 21 => canWrite 0 off addr v s | 22 => canWrite 1 off addr v s
    | 23 => canWrite 2 off addr v s | 24 => canWrite 3 off addr v s
    | 26 => uslWrite off addr v s
    | 27 => timeWrite off addr v s
    | 28 => hostWrite off addr v s
    | 32 => dbgWrite addr v s
    | _ => regWriteWith addr v id s

/-- A write of a register. -/
def registerWrite (r : Requester) (addr : Nat) (v : Word) (s : State) : State :=
  busAccess r addr true (fun s => regAct r addr v (busData 0 s)) s

/-- Whether a block's writes by a principal core wait for the comparison of R95. -/
def checkedBlock (k : Nat) : Bool := k == 4 || k == 5 || (12 ≤ k && k ≤ 19)

/-- A checked write (R95): one that the comparison refuses is discarded. -/
def checkedWrite (p : Pair) (addr : Nat) (v : Word) (agreed : Bool) (s : State) : State :=
  if checkedBlock (blockOf addr) && isPeripheral addr && !agreed then s else registerWrite (.p p) addr v s

/-! ## Commands -/

/-- REGISTER_WRITE (R23). -/
def execRegisterWrite (r : Requester) (addr val : Word) (s : State) : Out := .next (registerWrite r addr.toNat val s)
/-- READ_CLEAR (R26). -/
def execReadClear (r : Requester) (addr : Word) (s : State) : Out := .next (registerRead r addr.toNat s)
/-- CHECKED_EGRESS_WRITE (R95). -/
def execCheckedEgressWrite (p : Pair) (addr val : Word) (agreed : Bool) (s : State) : Out :=
  .next (checkedWrite p addr.toNat val agreed s)
/-- TIME_NS_READ (R507). -/
def execTimeNsRead (r : Requester) (s : State) : Out := .next (registerRead r addrTimeNs s)
/-- UCYC_NS_READ (R518). -/
def execUcycNsRead (r : Requester) (s : State) : Out := .next (registerRead r addrUcycNs s)
/-- UPTIME_READ (R614). -/
def execUptimeRead (r : Requester) (s : State) : Out := .next (registerRead r addrUptime s)
/-- TIME_RATE_WRITE (R508). -/
def execTimeRateWrite (val : Word) (s : State) : Out := .next (setRate val s)
/-- TIME_STEP (R509): a write of TIME_STEPNS. -/
def execTimeStep (val : Word) (s : State) : Out := .next (stepNs val s)
/-- HOST_DISABLE (R532): a write of HOST_CTRL with EN = 0. -/
def execHostDisable (s : State) : Out := .next (hostEmpty (s.put F.HOST_CTRL_EN 0))

end Sys2Proof.Machine
end

