-- ==== Sys2Proof/Machine/Memory.lean ====
section
/-!
DEFINITION. Accesses to memory (R67 to R69, R74, R82 to R86, R206, R207, R231, R426, R653): who may, what the error-correcting
codes find, what a landing write starts, the caches of the principal cores, and the port accesses of the Heldiog engines (R216, R217).
-/
namespace Sys2Proof.Machine

/-! ## Numbers of an access -/

/-- The bytes of a width. -/
def widthBytes : Width → Nat
  | .byte => 1 | .half => 2 | .word => 4

/-- Whether an access changes memory. -/
def isWrite : AccessKind → Bool
  | .write => true | .sc => true | .amo _ => true | _ => false

/-- The use that R74 judges. -/
def useOf : AccessKind → Use
  | .fetch => .fetch | .read => .read | .lr => .read | _ => .write

/-- Whether an access is one of LR, SC and the AMOs. -/
def isAtomic : AccessKind → Bool
  | .lr => true | .sc => true | .amo _ => true | _ => false

/-- The exception a principal core takes for a refused access (R83), and for a misaligned one (R82). -/
def faultCode : AccessKind → Nat
  | .fetch => 1 | .read => 5 | .lr => 5 | _ => 7
def misalignedCode : AccessKind → Nat
  | .fetch => 0 | .read => 4 | .lr => 4 | _ => 6

/-- A refused access (R75, R76, R83). -/
def refuseAccess (r : Requester) (k : AccessKind) (addr : Nat) (s : State) : State :=
  raiseTo r (faultCode k) addr (refuse r addr (isWrite k) s)

/-! ## Uncorrectable errors (R69, R426) -/

/-- The reaction of R426. -/
def errorReaction (r : Requester) (k : AccessKind) (addr : Nat) (s : State) : State :=
  match r with
  | .p p => trapPair p (faultCode k) addr s
  | .h i => (match carriedBy s i with
      | some e => engineFault e .memory (s.eng[e.val].pc).toNat s
      | none => s)
  | .s => s.modSys (fun y => { y with sDown := true })
  | .v => if s.sys.vRuns then setCut causeVsw s else s
  | .g => s.modSys (fun y => { y with gDown := true })
  | .k => if s.keep.start.isSome then startFail 0x0F (s.get F.KEEP_STAT_STEP) s else s
  | .dbg => s
  | .scrubber => s

/-- A read with what its error-correcting code found (R68, R69). -/
def eccRead (r : Requester) (k : AccessKind) (addr : Nat) (found : EccFinding) (act : State → State) (s : State) : State :=
  match found with
  | .clean => act s
  | .single => act (errorCorrected addr s)
  | .uncorrectable => errorReaction r k addr (busError (errorRecorded r addr s))

/-! ## Reads -/

/-- Memory whose layout the spec leaves open once the lane has written it: the retained block (R554), the snapshots and the
mirror of the wear counters (R613). -/
def openBytes (s : State) (a : Nat) : Bool :=
  let cnt := 0x20000000 + s.get F.BKG_CNTBASE_ADDR
  (s.keep.retained.isSome && decide (0x2100E000 ≤ a ∧ a < 0x21010000))
    || ((s.bkg.snap0.isSome || s.bkg.snap1.isSome) && decide (0x11004000 ≤ a ∧ a < 0x11008000))
    || (s.bkg.mirror.isSome && decide (cnt ≤ a ∧ a < cnt + 3680))

/-- `w` bytes from an address on as a word. -/
def memValue (s : State) (a w : Nat) : Word := BitVec.ofNat 32 (leValue (s.bytes a w))

/-- A word cut to a width. -/
def cutWord (w : Nat) (v : Word) : Word := BitVec.ofNat 32 (v.toNat % 256 ^ w)

/-- A plain read: the data returned. -/
def readPlain (a w : Nat) (s : State) : State :=
  if openBytes s a then busData (cutWord w (s.free.setWidth 32)) s.drew else busData (memValue s a w) s

/-! ## Writes -/

/-- A write breaks the reservations that other pairs hold on its granule of 32 bytes (R82). -/
def breakReservations (by_ : Option Pair) (a : Nat) (s : State) : State :=
  let broken (c : Copy) : Copy := if c.reservation = some (a / 32) then { c with reservation := none } else c
  (List.finRange 4).foldl (fun s (p : Pair) => if by_ = some p then s else modCopies p broken s) s

/-- Whether a write of `w` bytes at `a` touches the word at `b`. -/
def touches (a w b : Nat) : Bool := decide (a < b + 4 ∧ b < a + w)

/-- The words of an engine's coefficient banks and data RAM keep copies of bit 19 (R17, R208). -/
def windowCopies (a : Nat) (s : State) : State :=
  if 0x30000000 ≤ a ∧ a < 0x30040000 ∧ 0x3000 ≤ a % 0x8000 ∧ a % 0x8000 < 0x6000 then
    let b := a / 4 * 4
    s.setMem20 b (s.mem20 b)
  else s

/-- Whether a physical engine carries a logical engine bound to a bridge: an inner engine (R230). -/
def isInner (s : State) (i : Fin 8) : Bool :=
  match carriedBy s i with
  | some e => s.get (F.HLE_ENGCTRL_BIND e) == 1 || s.get (F.HLE_ENGCTRL_BIND e) == 2
  | none => false

/-- The base of a port's exchange transmit buffer (R379). -/
def xtxBase (s : State) (e : Port) : Nat := 0x20000000 + s.get (F.EBP_XTX_ADDR e)

/-- A frame handed to the ports named, with the SEQ of its TYPE counted on (R375). -/
def sendFrameOn (ports : List Port) (ty : Nat) (payload : List Byte) (s : State) : State :=
  if ports.isEmpty then s
  else
    let f := frameOf s ty payload
    let s := s.modLines (fun l => { l with seq := Tab.put (fun _ => 0) l.seq ty ((f.seq.toNat + 1) % 256) })
    ports.foldl (fun s e => sendOn ty f e s) s

/-- The exchange frames that a landing write of an inner engine starts: XCUR with the third word of the buffer, XREF with the
fifth (R379). -/
def exchangeCapture (r : Requester) (a w : Nat) (s : State) : State :=
  match r with
  | .h i =>
    if isInner s i then
      let hit (k : Nat) : List Port := [(0 : Port), 1].filter (fun e => touches a w (xtxBase s e + 4 * k))
      let base (l : List Port) : Nat := match l with | e :: _ => xtxBase s e | [] => 0
      let s := sendFrameOn (hit 2) 3 (s.bytes (base (hit 2)) 12) s
      sendFrameOn (hit 4) 4 (s.bytes (base (hit 4) + 12) 8) s
    else s
  | _ => s

/-- K's own write to code NVM counts in KEEP_WRGEN (R568). -/
def countsWrite (r : Requester) (a : Nat) (s : State) : State :=
  match r, regionOf a with | .k, some .codeNvm => bumpWrgen s | _, _ => s

/-- A write that lands: the bytes stored, the word CONT_DADDR names captured (R372), the exchange buffer captured, reservations
broken. -/
def writePlain (r : Requester) (a w : Nat) (v : Word) (s : State) : State :=
  let s := countsWrite r a s
  let s := windowCopies a (s.setBytes a (leBytes w v.toNat))
  let s := breakReservations (match r with | .p p => some p | _ => none) a s
  let s := if touches a w (dAddr s) then dLanded (s.mem20 (dAddr s)) s else s
  exchangeCapture r a w s

/-! ## The caches of a principal core (R84 to R86) -/

/-- The cache line that holds an address. -/
def findLine (c : Tab (Option CacheLine)) (line : Nat) : Option CacheLine :=
  c.findSome? (fun e => match e.2 with | some l => if l.line = line then some l else none | none => none)

/-- A line put into a way of its set. -/
def fillLine (way : Nat) (l : CacheLine) (c : Tab (Option CacheLine)) : Tab (Option CacheLine) :=
  Tab.put (fun _ => none) c (l.line % 128 * 4 + way % 4) (some l)

/-- Whether the cache control of a copy has its D-cache cache an address. -/
def Copy.caches (p : Pair) (c : Copy) (a : Nat) : Bool :=
  match regionOf a with
  | some .codeNvm => true
  | some .sram =>
    let k := sramMacro a
    if k < 32 then bitAt (c.csrGet p 0x7C2).toNat k else bitAt (c.csrGet p 0x7C3).toNat (k - 32)
  | _ => false

/-- Whether a pair's D-cache caches an address: as the main core has it. -/
def dCaches (s : State) (p : Pair) (a : Nat) : Bool := s.cores[p.val].main.caches p a

/-- A line fetched from memory into a cache: the way it takes is free. -/
def lineFetch (p : Pair) (icache : Bool) (k : AccessKind) (a w : Nat) (found : EccFinding) (s : State) : State :=
  eccRead (.p p) k a found (fun s =>
    if openBytes s a then readPlain a w s
    else
      let l : CacheLine := ⟨lineOf a, s.bytes (a / 32 * 32) 32⟩
      let way := s.free.toNat
      busData (memValue s a w) (s.drew.modCore p (fun c =>
        if icache then { c with icache := fillLine way l c.icache } else { c with dcache := fillLine way l c.dcache }))) s

/-- A cached read (R84, R86). -/
def cachedRead (p : Pair) (icache : Bool) (k : AccessKind) (a w : Nat) (found cacheFound : EccFinding) (s : State) : State :=
  let c := s.cores[p.val]
  match findLine (if icache then c.icache else c.dcache) (lineOf a) with
  | none => lineFetch p icache k a w found s
  | some l =>
    let hit (s : State) : State := busData (BitVec.ofNat 32 (bytesAt l.data (a % 32) w)) s
    match cacheFound with
    | .clean => hit s
    | .single => hit (s.count F.BKG_CECNT_CECNT F.BKG_CECNT_CEOVF)
    | .uncorrectable =>
      lineFetch p icache k a w found ((s.sat F.BKG_UECNT_UECNT).modCore p (fun c =>
        if icache then { c with icache := dropLine (lineOf a) c.icache } else { c with dcache := dropLine (lineOf a) c.dcache }))

/-- A write goes through to memory; a line that the D-cache holds takes it too (R85). -/
def writeThrough (p : Pair) (a w : Nat) (v : Word) (s : State) : State :=
  let new (l : CacheLine) : CacheLine :=
    { l with data := l.data.take (a % 32) ++ leBytes w v.toNat ++ l.data.drop (a % 32 + w) }
  writePlain (.p p) a w v (s.modCore p (fun c => { c with
    dcache := c.dcache.map (fun e => (e.1, e.2.map (fun l => if l.line = lineOf a then new l else l))) }))

/-! ## Atomic operations (R82) -/

/-- What an AMO stores. -/
def amoResult (op : AmoOp) (old v : Word) : Word :=
  match op with
  | .swap => v
  | .add => old + v
  | .xor => old ^^^ v
  | .and => old &&& v
  | .or => old ||| v
  | .min => if old.toInt < v.toInt then old else v
  | .max => if old.toInt < v.toInt then v else old
  | .minu => if old.toNat < v.toNat then old else v
  | .maxu => if old.toNat < v.toNat then v else old

/-- An atomic operation of a principal core on its own TCM or on shared SRAM. -/
def atomicAccess (p : Pair) (k : AccessKind) (a : Nat) (v : Word) (found : EccFinding) (s : State) : State :=
  match k with
  | .lr => eccRead (.p p) k a found (fun s =>
      readPlain a 4 (modCopies p (fun c => { c with reservation := some (a / 32) }) s)) s
  | .sc =>
    let held := s.cores[p.val].main.reservation == some (a / 32)
    let s := modCopies p (fun c => { c with reservation := none }) s
    if held then busData 0 (writeThrough p a 4 v s) else busData 1 s
  | .amo op => eccRead (.p p) k a found (fun s =>
      let s := readPlain a 4 s
      let old := s.bus.data
      busData old (writeThrough p a 4 (amoResult op old v) s)) s
  | _ => s

/-! ## An access to memory -/

/-- The coefficient bank an address lies in: the logical engine and the bank (R206). -/
def coefBank (a : Nat) : Option (Eng × Bool) :=
  if 0x30000000 ≤ a ∧ a < 0x30038000 ∧ 0x3000 ≤ a % 0x8000 ∧ a % 0x8000 < 0x4000 then
    some (⟨a / 0x8000 % 0x2000 % 7, Nat.mod_lt _ (by decide)⟩, decide (0x3800 ≤ a % 0x8000))
  else none

/-- Whether a write meets the bank in force of a closed loop without LIVEWR (R231). -/
def bankClosed (s : State) (a : Nat) : Bool :=
  match coefBank a with
  | some (e, bank) =>
    s.on (F.HLE_ENGSTAT_BANKACT e) == bank && !s.on (F.HLE_ENGSTAT_OPENACT e) && !s.on (F.HLE_ENGCTRL_LIVEWR e)
  | none => false

/-- Whether an address lies in the program RAM or the port table of an engine (R207). -/
def keeperOnly (a : Nat) : Bool :=
  decide (0x30000000 ≤ a ∧ a < 0x30040000) &&
    (decide (a % 0x8000 < 0x3000) || decide (0x6000 ≤ a % 0x8000 ∧ a % 0x8000 < 0x6100))

/-- A write turned away from an engine window sets HLE_STAT.ACCERR (R207, R231). -/
def windowRefused (s : State) (r : Requester) (k : AccessKind) (a : Nat) : Bool :=
  (isWrite k) && ((keeperOnly a && r != .k) || bankClosed s a)

/-- A permitted access to memory. -/
def memPerform (r : Requester) (m : MemAccess) (s : State) : State :=
  let a := m.addr.toNat
  let w := widthBytes m.width
  match r, m.kind with
  | .p p, .fetch =>
    if regionOf a = some .codeNvm then cachedRead p true .fetch a w m.found m.cacheFound s
    else eccRead r .fetch a m.found (readPlain a w) s
  | .p p, .read =>
    if dCaches s p a then cachedRead p false .read a w m.found m.cacheFound s
    else eccRead r .read a m.found (readPlain a w) s
  | .p p, .write => busData 0 (writeThrough p a w m.data s)
  | .p p, k => atomicAccess p k a m.data m.found s
  | _, .fetch => eccRead r .fetch a m.found (readPlain a w) s
  | _, .read => eccRead r .read a m.found (readPlain a w) s
  | _, .write => busData 0 (writePlain r a w m.data s)
  | _, k => refuseAccess r k a s

/-- An access in a memory region (R74, R82, R207, R231). -/
def memRegion (r : Requester) (reg : Region) (m : MemAccess) (s : State) : State :=
  let a := m.addr.toNat
  let place := match r, reg with
    | .p i, .tcmP n => i == n
    | .p _, .sram => true
    | _, _ => false
  let pmp := pmpPermits s r (useOf m.kind) a (widthBytes m.width)
  let refused := !memPermitted s r reg a (useOf m.kind) || !pmp || bankClosed s a && (isWrite m.kind)
  if (isAtomic m.kind) && isCore r && !place then
    raiseTo r 7 a (if refused then refuse r a (isWrite m.kind) s else busError s)
  else if refused then
    let s := refuseAccess r m.kind a s
    if pmp && windowRefused s r m.kind a then s.put F.HLE_STAT_ACCERR 1 else s
  else memPerform r m s

/-- A peripheral access made through the memory port of a requester (R653). -/
def memPeripheral (r : Requester) (m : MemAccess) (s : State) : State :=
  let a := m.addr.toNat
  let wrong := m.width != .word || !pmpPermits s r (useOf m.kind) a (widthBytes m.width)
  if (isAtomic m.kind) && isCore r then
    raiseTo r 7 a (if wrong || !regPermitted r a (isWrite m.kind) then refuse r a (isWrite m.kind) s else busError s)
  else if wrong then refuseAccess r m.kind a s
  else
    match m.kind with
    | .read => registerRead r a s
    | .write => registerWrite r a m.data s
    | k => refuseAccess r k a s

/-- An access to one place of the address map. -/
def placeAccess (r : Requester) (m : MemAccess) (s : State) : State :=
  let a := m.addr.toNat
  if isPeripheral a then memPeripheral r m s
  else
    match regionOf a with
    | none => refuseAccess r m.kind a s
    | some reg => memRegion r reg m s

/-- An instruction word fetched at an odd halfword comes as two halfwords (R82's extension C). -/
def splitFetch (r : Requester) (m : MemAccess) (s : State) : State :=
  let lo := placeAccess r { m with width := .half } s
  if lo.bus.err then lo
  else
    let hi := placeAccess r { m with width := .half, addr := m.addr + 2 } lo
    if hi.bus.err then hi else busData (lo.bus.data ||| hi.bus.data <<< 16) hi

/-- What the requesting core's program has come to. -/
def requesterRuns (r : Requester) (g : Progress) (s : State) : State :=
  match r with
  | .p p => progressed p g s
  | _ => s

/-- Whether the two copies of a pair come to different requests for one access (R87): their own PMP or cache control decides it differently. -/
def copiesPart (p : Pair) (m : MemAccess) (s : State) : Bool :=
  let c := s.cores[p.val]
  let a := m.addr.toNat
  let w := widthBytes m.width
  a % w == 0 && (c.main.pmpAllows p (useOf m.kind) a w != c.double.pmpAllows p (useOf m.kind) a w
    || (m.kind == .read && c.main.caches p a != c.double.caches p a))

/-- The double after an access that its copies part on: its own trap where its PMP denies what the main core's permits, untouched where the main core
alone traps. -/
def doubleParts (p : Pair) (m : MemAccess) (s t : State) : State :=
  let c := s.cores[p.val].double
  let allows := c.pmpAllows p (useOf m.kind) m.addr.toNat (widthBytes m.width)
  if allows == s.cores[p.val].main.pmpAllows p (useOf m.kind) m.addr.toNat (widthBytes m.width) then t
  else t.modCore p (fun k => { k with double := if allows then c else c.trap p (faultCode m.kind) m.addr.toNat })

/-- The difference of the copies' requests at the comparator: the control of the fetch, TCM or data request (R91, log entry 95). -/
def partGroups (p : Pair) (m : MemAccess) : List Nat :=
  [groupOfBit (if m.kind == .fetch then 32 else if regionOf m.addr.toNat == some (.tcmP p) then 171 else 108)]

/-- An access of a requester that makes requests (R69, R82, R652, R653). A principal core raises the exception for a misaligned one itself; its
instructions lie on halfwords. -/
def accessHere (r : Requester) (m : MemAccess) (s : State) : State :=
  let a := m.addr.toNat
  let core := isCore r
  if !reaches r s then busError s
  else if core && m.kind == .fetch && m.width == .word && a % 4 == 2 then splitFetch r m s
  else if a % widthBytes m.width ≠ 0 then
    (match r with
     | .p p => trapPair p (misalignedCode m.kind) a s
     | _ => refuse r a (isWrite m.kind) s)
  else placeAccess r m s

/-- An access with the comparison of R91 on what the copies of a pair ask for. -/
def comparedAccess (r : Requester) (m : MemAccess) (s : State) : State :=
  match r with
  | .p p =>
    if copiesPart p m s then lockstepCapture p true (partGroups p m) [] (doubleParts p m s (accessHere r m s)) else accessHere r m s
  | _ => accessHere r m s

/-- An access of a requester at this point of its program; one that makes no requests makes none. -/
def accessNow (r : Requester) (m : MemAccess) (s : State) : State := if issues s r then comparedAccess r m s else s

/-- A memory access by itself (R97): what the requester's program has come to first. -/
def memoryAccess (r : Requester) (m : MemAccess) (s : State) : State :=
  if issues s r then comparedAccess r m (requesterRuns r m.prog s) else s

/-- A word read or written with what the memory's error-correcting code found. -/
def wordAccess (k : AccessKind) (a : Nat) (v : Word) (found : EccFinding) : MemAccess :=
  { kind := k, addr := BitVec.ofNat 32 a, width := .word, data := v, prog := ⟨[], [], true⟩, found := found, cacheFound := .clean }

/-! ## Several requests in one cycle (R70, R72) -/

/-- The place of a requester in the fixed order K, V, H0 to H7, P0 to P3, S, G, debug port, scrubber. -/
def grantRank : Requester → Nat
  | .k => 0 | .v => 1 | .h i => 2 + i.val | .p i => 10 + i.val | .s => 14 | .g => 15 | .dbg => 16 | .scrubber => 17

/-- The arbiter that an access stands at: one for each bank of shared SRAM, one for the bridge of the peripheral blocks, and one for each
other memory. -/
def arbiterOf (a : Nat) : Nat :=
  if isPeripheral a then 8
  else
    match regionOf a with
    | some .sram => sramBank a
    | some .bootRom => 9 | some (.tcmP n) => 10 + n.val | some .tcmS => 14 | some .tcmV => 15 | some .tcmG => 16 | some .tcmK => 17
    | some .codeNvm => 18 | some .dataNvm => 19 | some .retention => 20 | some (.window n) => 21 + n.val | some .spare => 28
    | none => 29

/-- Whether a request is granted before another: one that has waited 16 cycles goes ahead of the fixed order. -/
def grantedBefore (a b : Request) : Bool :=
  let aged (q : Request) : Bool := decide (16 ≤ q.waited)
  if aged a == aged b then decide (grantRank a.r < grantRank b.r) else aged a

/-- The request that an arbiter grants next. -/
def nextGrant : List Request → Option Request
  | [] => none
  | q :: t =>
    match nextGrant t with
    | none => some q
    | some u => if grantedBefore u q then some u else some q

/-- The order in which an arbiter grants the requests that stand at it, those left waiting a cycle longer at each grant. -/
def grants : Nat → List Request → List Request
  | 0, _ => []
  | n + 1, l =>
    match nextGrant l with
    | none => []
    | some q => q :: grants n ((l.erase q).map (fun u => { u with waited := u.waited + 1 }))

/-- The word that a request names in shared SRAM. -/
def sramWordOf (q : Request) : Option Nat := if regionOf q.m.addr.toNat = some .sram then some (q.m.addr.toNat / 4) else none

/-- Whether a request reads a word of shared SRAM that another of the cycle writes: it returns the value before the write (R70). -/
def readsFirst (l : List Request) (q : Request) : Bool :=
  !isWrite q.m.kind && (sramWordOf q).isSome && l.any (fun u => isWrite u.m.kind && sramWordOf u == sramWordOf q)

/-- The order in which the requests of one cycle are performed: arbiter by arbiter, reads before a write of their word. Between two
arbiters the spec gives no order, and nothing but the captures of R69 and R76 shows one (log entry 96). -/
def cycleOrder (l : List Request) : List Request :=
  let ordered := (List.range 30).flatMap (fun k =>
    let here := l.filter (fun q => arbiterOf q.m.addr.toNat == k)
    grants here.length here)
  ordered.filter (readsFirst l) ++ ordered.filter (fun q => !readsFirst l q)

/-- Requests performed in order, with what each was answered. -/
def performAll : List Request → State → State × List (Requester × BusReply)
  | [], s => (s, [])
  | q :: t, s =>
    let s := memoryAccess q.r q.m s
    let r := performAll t s
    (r.1, (q.r, s.bus) :: r.2)

/-- The requests of one cycle arbitrated and performed (R69, R70, R72): `bus` holds the reply to the requester named first. -/
def cycleAccess (q : Request) (rivals : List Request) (s : State) : State :=
  if rivals.isEmpty then memoryAccess q.r q.m s
  else
    let t := performAll (cycleOrder (q :: rivals)) s
    let own := ((t.2.find? (fun e => e.1 == q.r)).map (·.2)).getD t.1.bus
    { t.1.modSys (fun y => { y with replies := t.2.filter (fun e => e.1 != q.r) }) with bus := own }

/-! ## Ports of the Heldiog engines (R216, R217) -/

/-- A port fault at the instruction of an engine. -/
def portFault (e : Eng) (pc : BitVec 12) (s : State) : State := engineFault e .port pc.toNat s

/-- IN: the word read into a data register after 1 to 32 or 1 to 52 cycles, or a port fault; an uncorrectable word is a memory
fault (R209). -/
def portIn (e : Eng) (d : XReg) (port : Fin 64) (found : EccFinding) (s : State) : State :=
  if !engBusy s e then s
  else
    let pc := s.eng[e.val].pc
    let w := portEntry s e port
    if !bitAt w.toNat 0 then running e 1 (portFault e pc) s
    else
      let bound := if isPeripheral (portAddr w) then 52 else 32
      let cycles := 1 + s.free.toNat % bound
      running e cycles (fun s =>
        let t := accessNow (engReq s e) (wordAccess .read (portAddr w) 0 found) s
        if found = .uncorrectable ∧ t.on (F.HLE_ENGSTAT_FAULT e) = true then t
        else if t.bus.err then portFault e pc t
        else
          let v : Q20 := t.bus.data.setWidth 20
          advance e cycles (flagsOpen e .port v (setX e d v t))) s.drew

/-- The oldest posted write of an engine completes, or its refusal stops the engine (R217). -/
def postedDone (e : Eng) (s : State) : State :=
  match s.eng[e.val].writes with
  | [] => s
  | w :: rest =>
    let s := s.modEng e (fun g => { g with writes := rest })
    let t := accessNow (engReq s e) (wordAccess .write w.addr w.val .clean) s
    if t.bus.err then portFault e w.pc t else t

/-- An engine put among others in the order of the physical engines that carry them. -/
def insertByPhysical (s : State) (e : Eng) : List Eng → List Eng
  | [] => [e]
  | f :: t => if physicalOf s f < physicalOf s e then f :: insertByPhysical s e t else e :: f :: t

/-- The oldest posted writes of several engines complete in one cycle, in the order of the physical engines (R218). -/
def postedAll (l : List Eng) (s : State) : State :=
  ((l.eraseDups).foldl (fun o e => insertByPhysical s e o) []).foldl (fun s e => postedDone e s) s

/-- OUT and OUTL: a write posted; with four outstanding the engine first waits for the oldest, for at most 50 cycles (R73). -/
def portOut (e : Eng) (port : Fin 64) (a : XReg) (suppressed : Bool) (s : State) : State :=
  if !engBusy s e then s
  else
    let pc := s.eng[e.val].pc
    let w := portEntry s e port
    if !bitAt w.toNat 0 || !bitAt w.toNat 1 then running e 1 (portFault e pc) s
    else if suppressed then running e 1 (advance e 1) s
    else
      let full := decide (4 ≤ s.eng[e.val].writes.length)
      let v : Word := (xr s e a).signExtend 32
      let stall := if full then s.free.toNat % 51 else 0
      running e (1 + stall) (fun s =>
        let t := if full then postedDone e s else s
        if !engBusy t e then t
        else advance e (1 + stall) (t.modEng e (fun g => { g with writes := g.writes ++ [⟨portAddr w, v, pc⟩] })))
        (if full then s.drew else s)

/-! ## Commands -/

/-- MEMORY_ACCESS (R69, R72). -/
def execMemoryAccess (r : Requester) (m : CycleAccess) (s : State) : Out :=
  .next (cycleAccess ⟨r, m.own, m.waited⟩ m.rivals s)
/-- COEFFICIENT_WRITE (R231). -/
def execCoefficientWrite (r : Requester) (e : Eng) (bank : Bool) (word : Fin 512) (val : Word) (s : State) : Out :=
  .next (accessNow r (wordAccess .write (coefAddr e bank word) val .clean) s)
/-- IN (R216). -/
def execInPort (e : Eng) (d : XReg) (port : PortRead) (s : State) : Out := .next (portIn e d port.port port.found s)
/-- OUT (R216). -/
def execOutPort (e : Eng) (port : Fin 64) (a : XReg) (s : State) : Out := .next (portOut e port a false s)
/-- OUTL (R229). -/
def execOutPortL (e : Eng) (port : Fin 64) (a : XReg) (s : State) : Out :=
  .next (portOut e port a (s.on (F.HLE_ENGSTAT_OPENACT e)) s)
/-- POSTED_WRITE_COMPLETE (R217, R218). -/
def execPostedWriteComplete (e : List Eng) (s : State) : Out := clockedOut s <| .next (postedAll e s)

end Sys2Proof.Machine
end

