-- ==== Sys2Proof/Machine/Float.lean ====
section
/-!
DEFINITION. Single-precision arithmetic of the F extension (R82: all five rounding modes, subnormal operands and results handled in
hardware), in the edition R28 names. A result comes with the five exception flags NV 16, DZ 8, OF 4, UF 2, NX 1.
-/
namespace Sys2Proof.Machine

/-- A result with its exception flags. -/
abbrev FOut := Word × Nat

/-- The canonical NaN. -/
def fNan : Word := 0x7FC00000

def fSign (w : Word) : Bool := w.msb
def fExp (w : Word) : Nat := w.toNat / 2 ^ 23 % 256
def fFrac (w : Word) : Nat := w.toNat % 2 ^ 23
def fIsNan (w : Word) : Bool := fExp w == 255 && fFrac w != 0
def fIsSnan (w : Word) : Bool := fIsNan w && !bitAt w.toNat 22
def fIsInf (w : Word) : Bool := fExp w == 255 && fFrac w == 0
def fIsZero (w : Word) : Bool := fExp w == 0 && fFrac w == 0

/-- An infinity and a zero of a sign. -/
def fInf (neg : Bool) : Word := if neg then 0xFF800000 else 0x7F800000
def fZero (neg : Bool) : Word := if neg then 0x80000000 else 0

/-- The significand and the exponent of a finite value: its magnitude is `m * 2 ^ e`. -/
def fMant (w : Word) : Nat := if fExp w = 0 then fFrac w else fFrac w + 2 ^ 23
def fPow (w : Word) : Int := if fExp w = 0 then -149 else (fExp w : Int) - 150

/-- Whether a magnitude cut to `q`, with `r` of `2 ^ sh` left and a sticky rest, is rounded away from zero. -/
def roundsUp (rm : Nat) (neg : Bool) (q r sh : Nat) (sticky : Bool) : Bool :=
  let inexact := decide (r ≠ 0) || sticky
  let above := decide (2 ^ sh < 2 * r) || (decide (2 * r = 2 ^ sh) && sticky)
  let half := decide (2 * r = 2 ^ sh) && !sticky
  match rm with
  | 0 => above || (half && q % 2 == 1)
  | 1 => false
  | 2 => neg && inexact
  | 3 => !neg && inexact
  | _ => above || half

/-- A magnitude `m * 2 ^ e`, with a sticky rest below it, cut at `2 ^ at_` and rounded. -/
def roundAt (rm : Nat) (neg : Bool) (m : Nat) (e at_ : Int) (sticky : Bool) : Nat × Bool :=
  if at_ ≤ e then (m * 2 ^ (e - at_).toNat, sticky)
  else
    let sh := (at_ - e).toNat
    let q := m / 2 ^ sh
    let r := m % 2 ^ sh
    (q + (roundsUp rm neg q r sh sticky).toNat, decide (r ≠ 0) || sticky)

/-- A magnitude `m * 2 ^ e`, with a sticky rest below it, as a single-precision value. Underflow is found after rounding. -/
def roundPack (rm : Nat) (neg : Bool) (m : Nat) (e : Int) (sticky : Bool) : FOut :=
  if m = 0 then (fZero neg, 0)
  else
    let top := e + (m.log2 : Int)
    let at_ := max (top - 23) (-149)
    let r := roundAt rm neg m e at_ sticky
    let wide := roundAt rm neg m e (top - 23) sticky
    let tiny := decide ((if wide.1 = 2 ^ 24 then top + 1 else top) < -126)
    let sign : Nat := neg.toNat * 2 ^ 31
    let q := if r.1 = 2 ^ 24 then 2 ^ 23 else r.1
    let p := if r.1 = 2 ^ 24 then at_ + 1 else at_
    if q < 2 ^ 23 then (BitVec.ofNat 32 (sign + q), if r.2 then 3 else 0)
    else if 255 ≤ p + 150 then
      let big := match rm with | 1 => false | 2 => neg | 3 => !neg | _ => true
      (if big then fInf neg else BitVec.ofNat 32 (sign + 0x7F7FFFFF), 5)
    else (BitVec.ofNat 32 (sign + (p + 150).toNat * 2 ^ 23 + (q - 2 ^ 23)), if r.2 then (if tiny then 3 else 1) else 0)

/-- The NaN that an operation answers, with NV for a signalling operand. -/
def fNanOf (l : List Word) : FOut := (fNan, if l.any fIsSnan then 16 else 0)

/-- The sum of two finite magnitudes with their signs. -/
def fSum (rm : Nat) (na : Bool) (ma : Nat) (ea : Int) (nb : Bool) (mb : Nat) (eb : Int) : FOut :=
  let e := min ea eb
  let val (neg : Bool) (m : Nat) (x : Int) : Int := (if neg then -1 else 1) * ((m * 2 ^ (x - e).toNat : Nat) : Int)
  let v := val na ma ea + val nb mb eb
  if v = 0 then (fZero (if na = nb then na else rm == 2), 0) else roundPack rm (decide (v < 0)) v.natAbs e false

/-- FADD.S, FSUB.S, FMUL.S, FDIV.S, FSQRT.S. -/
def fAdd (rm : Nat) (a b : Word) : FOut :=
  if fIsNan a || fIsNan b then fNanOf [a, b]
  else if fIsInf a then (if fIsInf b && fSign a != fSign b then (fNan, 16) else (a, 0))
  else if fIsInf b then (b, 0)
  else fSum rm (fSign a) (fMant a) (fPow a) (fSign b) (fMant b) (fPow b)
def fNeg (a : Word) : Word := a ^^^ 0x80000000
def fSub (rm : Nat) (a b : Word) : FOut := if fIsNan a || fIsNan b then fNanOf [a, b] else fAdd rm a (fNeg b)
def fMul (rm : Nat) (a b : Word) : FOut :=
  let neg := fSign a != fSign b
  if fIsNan a || fIsNan b then fNanOf [a, b]
  else if fIsInf a || fIsInf b then (if fIsZero a || fIsZero b then (fNan, 16) else (fInf neg, 0))
  else roundPack rm neg (fMant a * fMant b) (fPow a + fPow b) false
def fDiv (rm : Nat) (a b : Word) : FOut :=
  let neg := fSign a != fSign b
  if fIsNan a || fIsNan b then fNanOf [a, b]
  else if fIsInf a then (if fIsInf b then (fNan, 16) else (fInf neg, 0))
  else if fIsInf b then (fZero neg, 0)
  else if fIsZero b then (if fIsZero a then (fNan, 16) else (fInf neg, 8))
  else
    let n := fMant a * 2 ^ 60
    roundPack rm neg (n / fMant b) (fPow a - fPow b - 60) (decide (n % fMant b ≠ 0))
def fSqrt (rm : Nat) (a : Word) : FOut :=
  if fIsNan a then fNanOf [a]
  else if fIsZero a then (a, 0)
  else if fSign a then (fNan, 16)
  else if fIsInf a then (a, 0)
  else
    let k : Nat := if fPow a % 2 = 0 then 60 else 61
    let n := fMant a * 2 ^ k
    let r := isqrt n
    roundPack rm false r ((fPow a - k) / 2) (decide (r * r ≠ n))

/-- FMADD.S: `a * b + c` rounded once. -/
def fMadd (rm : Nat) (a b c : Word) : FOut :=
  let neg := fSign a != fSign b
  let bad := (fIsInf a && fIsZero b) || (fIsZero a && fIsInf b)
  if bad then (fNan, 16)
  else if fIsNan a || fIsNan b || fIsNan c then fNanOf [a, b, c]
  else if fIsInf a || fIsInf b then (if fIsInf c && fSign c != neg then (fNan, 16) else (fInf neg, 0))
  else if fIsInf c then (c, 0)
  else fSum rm neg (fMant a * fMant b) (fPow a + fPow b) (fSign c) (fMant c) (fPow c)

/-- Whether a value lies below another; the zeros are equal. -/
def fLess (a b : Word) : Bool :=
  if fIsZero a && fIsZero b then false
  else
    match fSign a, fSign b with
    | true, false => true
    | false, true => false
    | false, false => decide (a.toNat < b.toNat)
    | true, true => decide (b.toNat < a.toNat)
def fEqual (a b : Word) : Bool := (a == b) || (fIsZero a && fIsZero b)

/-- FLE.S, FLT.S, FEQ.S by funct3. -/
def fCompare (f3 : Nat) (a b : Word) : FOut :=
  let nan := fIsNan a || fIsNan b
  let nv := if f3 = 2 then fIsSnan a || fIsSnan b else nan
  let v := !nan && (match f3 with | 0 => fLess a b || fEqual a b | 1 => fLess a b | _ => fEqual a b)
  (if v then 1 else 0, if nv then 16 else 0)

/-- FMIN.S and FMAX.S: a lone NaN gives way to the other operand, and −0 lies below +0. -/
def fMinMax (max_ : Bool) (a b : Word) : FOut :=
  let nv := if fIsSnan a || fIsSnan b then 16 else 0
  let below := fLess a b || (fEqual a b && fSign a)
  if fIsNan a then (if fIsNan b then fNan else b, nv)
  else if fIsNan b then (a, nv)
  else (if below != max_ then a else b, nv)

/-- FCLASS.S. -/
def fClass (a : Word) : Word :=
  let n := fSign a
  let bit : Nat :=
    if fIsSnan a then 8 else if fIsNan a then 9
    else if fIsInf a then (if n then 0 else 7)
    else if fIsZero a then (if n then 3 else 4)
    else if fExp a = 0 then (if n then 2 else 5)
    else (if n then 1 else 6)
  BitVec.ofNat 32 (2 ^ bit)

/-- FCVT.W.S and FCVT.WU.S: out of range gives the nearer limit and NV, a NaN the upper one. -/
def fToInt (rm : Nat) (unsigned : Bool) (a : Word) : FOut :=
  let lo : Int := if unsigned then 0 else -(2 ^ 31)
  let hi : Int := if unsigned then 2 ^ 32 - 1 else 2 ^ 31 - 1
  if fIsNan a then (BitVec.ofInt 32 hi, 16)
  else if fIsInf a then (BitVec.ofInt 32 (if fSign a then lo else hi), 16)
  else
    let r := roundAt rm (fSign a) (fMant a) (fPow a) 0 false
    let v : Int := if fSign a then -(r.1 : Int) else r.1
    if v < lo then (BitVec.ofInt 32 lo, 16) else if hi < v then (BitVec.ofInt 32 hi, 16)
    else (BitVec.ofInt 32 v, if r.2 then 1 else 0)

/-- FCVT.S.W and FCVT.S.WU. -/
def fFromInt (rm : Nat) (unsigned : Bool) (a : Word) : FOut :=
  if !unsigned && a.msb then roundPack rm true (2 ^ 32 - a.toNat) 0 false else roundPack rm false a.toNat 0 false

/-- FSGNJ.S, FSGNJN.S, FSGNJX.S by funct3. -/
def fSignInject (f3 : Nat) (a b : Word) : Word :=
  let n := match f3 with | 0 => fSign b | 1 => !fSign b | _ => fSign a != fSign b
  (a &&& 0x7FFFFFFF) ||| (if n then 0x80000000 else 0)

end Sys2Proof.Machine
end

