-- ==== Sys2Proof/Machine/Rv.lean ====
section
/-!
DEFINITION. One instruction of a principal core (R82: RV32I, M, A, F, C, Zicsr, Zifencei in the editions of R28), as a copy of the core
performs it: what it does to the copy's registers, and the request it makes outside. The encodings and effects are those of that
architecture, which R28 names and the spec does not restate (log entry 97).
-/
namespace Sys2Proof.Machine

/-! ## Fields of an instruction word -/

/-- `n` bits of a word from bit `lo` on. -/
def bitsIn (w : Nat) (lo n : Nat) : Nat := w / 2 ^ lo % 2 ^ n

def immI (w : Nat) : Word := (BitVec.ofNat 12 (bitsIn w 20 12)).signExtend 32
def immS (w : Nat) : Word := (BitVec.ofNat 12 (bitsIn w 25 7 * 32 + bitsIn w 7 5)).signExtend 32
def immB (w : Nat) : Word :=
  (BitVec.ofNat 13 (bitsIn w 31 1 * 4096 + bitsIn w 7 1 * 2048 + bitsIn w 25 6 * 32 + bitsIn w 8 4 * 2)).signExtend 32
def immU (w : Nat) : Word := BitVec.ofNat 32 (bitsIn w 12 20 * 4096)
def immJ (w : Nat) : Word :=
  (BitVec.ofNat 21 (bitsIn w 31 1 * 2 ^ 20 + bitsIn w 12 8 * 4096 + bitsIn w 20 1 * 2048 + bitsIn w 21 10 * 2)).signExtend 32

/-! ## Compressed instructions -/

/-- Words of the formats I, S, R, B, J and U. -/
def encI (op f3 rd rs1 imm : Nat) : Nat := op + rd * 2 ^ 7 + f3 * 2 ^ 12 + rs1 * 2 ^ 15 + imm % 4096 * 2 ^ 20
def encS (op f3 rs1 rs2 imm : Nat) : Nat :=
  op + imm % 32 * 2 ^ 7 + f3 * 2 ^ 12 + rs1 * 2 ^ 15 + rs2 * 2 ^ 20 + imm / 32 % 128 * 2 ^ 25
def encR (f3 f7 rd rs1 rs2 : Nat) : Nat := 0x33 + rd * 2 ^ 7 + f3 * 2 ^ 12 + rs1 * 2 ^ 15 + rs2 * 2 ^ 20 + f7 * 2 ^ 25
def encB (f3 rs1 imm : Nat) : Nat :=
  0x63 + imm / 2048 % 2 * 2 ^ 7 + imm / 2 % 16 * 2 ^ 8 + f3 * 2 ^ 12 + rs1 * 2 ^ 15 + imm / 32 % 64 * 2 ^ 25 + imm / 4096 % 2 * 2 ^ 31
def encJ (rd imm : Nat) : Nat :=
  0x6F + rd * 2 ^ 7 + imm / 4096 % 256 * 2 ^ 12 + imm / 2048 % 2 * 2 ^ 20 + imm / 2 % 1024 * 2 ^ 21 + imm / 2 ^ 20 % 2 * 2 ^ 31

/-- A number of `k` bits extended by copies of its top bit to 21 bits. -/
def extend21 (k n : Nat) : Nat := if bitAt n (k - 1) then n + 2 ^ 21 - 2 ^ k else n

/-- The instruction word that a compressed one stands for (extension C with F); none where it is reserved or needs D. -/
def expand (h : Nat) : Option Nat :=
  let b (lo n : Nat) : Nat := bitsIn h lo n
  let rdS := 8 + b 2 3
  let rsS := 8 + b 7 3
  let rd := b 7 5
  let rs2 := b 2 5
  let imm6 := b 12 1 * 32 + b 2 5
  let jOfs := extend21 12 (b 12 1 * 2048 + b 11 1 * 16 + b 9 2 * 256 + b 8 1 * 1024 + b 7 1 * 64 + b 6 1 * 128 + b 3 3 * 2 + b 2 1 * 32)
  let bOfs := extend21 9 (b 12 1 * 256 + b 10 2 * 8 + b 5 2 * 64 + b 3 2 * 2 + b 2 1 * 32)
  let wOfs := b 10 3 * 8 + b 6 1 * 4 + b 5 1 * 64
  let lsp := b 12 1 * 32 + b 4 3 * 4 + b 2 2 * 64
  let ssp := b 9 4 * 4 + b 7 2 * 64
  match h % 4, b 13 3 with
  | 0, 0 =>
    let n := b 11 2 * 16 + b 7 4 * 64 + b 6 1 * 4 + b 5 1 * 8
    if n = 0 then none else some (encI 0x13 0 rdS 2 n)
  | 0, 2 => some (encI 0x03 2 rdS rsS wOfs)
  | 0, 3 => some (encI 0x07 2 rdS rsS wOfs)
  | 0, 6 => some (encS 0x23 2 rsS rdS wOfs)
  | 0, 7 => some (encS 0x27 2 rsS rdS wOfs)
  | 1, 0 => some (encI 0x13 0 rd rd (extend21 6 imm6))
  | 1, 1 => some (encJ 1 jOfs)
  | 1, 2 => some (encI 0x13 0 rd 0 (extend21 6 imm6))
  | 1, 3 =>
    if rd = 2 then
      let n := b 12 1 * 512 + b 6 1 * 16 + b 5 1 * 64 + b 3 2 * 128 + b 2 1 * 32
      if n = 0 then none else some (encI 0x13 0 2 2 (extend21 10 n))
    else if imm6 = 0 then none
    else some (0x37 + rd * 2 ^ 7 + extend21 6 imm6 % 2 ^ 20 * 2 ^ 12)
  | 1, 4 =>
    (match b 10 2 with
     | 0 => if b 12 1 = 1 then none else some (encI 0x13 5 rsS rsS (b 2 5))
     | 1 => if b 12 1 = 1 then none else some (encI 0x13 5 rsS rsS (0x400 + b 2 5))
     | 2 => some (encI 0x13 7 rsS rsS (extend21 6 imm6))
     | _ =>
       if b 12 1 = 1 then none
       else
         match b 5 2 with
         | 0 => some (encR 0 0x20 rsS rsS rdS)
         | 1 => some (encR 4 0 rsS rsS rdS)
         | 2 => some (encR 6 0 rsS rsS rdS)
         | _ => some (encR 7 0 rsS rsS rdS))
  | 1, 5 => some (encJ 0 jOfs)
  | 1, 6 => some (encB 0 rsS bOfs)
  | 1, 7 => some (encB 1 rsS bOfs)
  | 2, 0 => if b 12 1 = 1 then none else some (encI 0x13 1 rd rd (b 2 5))
  | 2, 2 => if rd = 0 then none else some (encI 0x03 2 rd 2 lsp)
  | 2, 3 => some (encI 0x07 2 rd 2 lsp)
  | 2, 4 =>
    if b 12 1 = 0 then
      if rs2 ≠ 0 then some (encR 0 0 rd 0 rs2) else if rd = 0 then none else some (encI 0x67 0 0 rd 0)
    else if rs2 ≠ 0 then some (encR 0 0 rd rd rs2)
    else if rd = 0 then some 0x00100073
    else some (encI 0x67 0 1 rd 0)
  | 2, 6 => some (encS 0x23 2 2 rs2 ssp)
  | 2, 7 => some (encS 0x27 2 2 rs2 ssp)
  | _, _ => none

/-! ## The plan of an instruction -/

/-- A request of an instruction outside the core. -/
structure Demand where
  kind : AccessKind
  addr : Word
  width : Width
  data : Word
  deriving DecidableEq, Repr

/-- What an instruction comes to in a copy of the core: registers of its own and the next pc alone, a request outside, an exception, FENCE.I, a write of a custom
CSR that acts (R85, R93, R545, R552), and EBREAK. -/
inductive Plan where
  | local_ (c : Copy)
  | access (d : Demand)
  | trap (cause : Nat) (tval : Word)
  | fenceI (c : Copy)
  | custom (csr : Nat) (v : Word) (c : Copy)
  | ebreak
  deriving DecidableEq, Repr

/-- A data register read, and written; x0 stays 0. -/
def Copy.reg (c : Copy) (i : Nat) : Word := c.x[i % 32]'(Nat.mod_lt _ (by decide))
def Copy.setReg (i : Nat) (v : Word) (c : Copy) : Copy :=
  if i % 32 = 0 then c else { c with x := c.x.set (i % 32) v (Nat.mod_lt _ (by decide)) }

/-- A floating-point register read; written, with the F unit's state marked dirty, and its exception flags gathered. -/
def Copy.freg (c : Copy) (i : Nat) : Word := c.f[i % 32]'(Nat.mod_lt _ (by decide))
def Copy.dirty (p : Pair) (c : Copy) : Copy := c.csrSet p 0x300 (c.csrGet p 0x300 ||| 0x6000)
def Copy.setFreg (p : Pair) (i : Nat) (v : Word) (c : Copy) : Copy :=
  ({ c with f := c.f.set (i % 32) v (Nat.mod_lt _ (by decide)) } : Copy).dirty p
def Copy.gather (p : Pair) (flags : Nat) (c : Copy) : Copy := ({ c with fcsr := c.fcsr ||| BitVec.ofNat 32 flags } : Copy).dirty p

/-- The pc after an instruction of `len` bytes. -/
def Copy.next (len : Nat) (c : Copy) : Copy := { c with pc := c.pc + BitVec.ofNat 32 len }

/-- The operations of the integer unit, by funct3 and the bit that tells SUB and SRA. -/
def aluOp (f3 : Nat) (alt : Bool) (a b : Word) : Word :=
  match f3 with
  | 0 => if alt then a - b else a + b
  | 1 => a <<< (b.toNat % 32)
  | 2 => if a.slt b then 1 else 0
  | 3 => if a.ult b then 1 else 0
  | 4 => a ^^^ b
  | 5 => if alt then a.sshiftRight (b.toNat % 32) else a >>> (b.toNat % 32)
  | 6 => a ||| b
  | _ => a &&& b

/-- The operations of extension M. -/
def mulOp (f3 : Nat) (a b : Word) : Word :=
  let high (v : Int) : Word := BitVec.ofInt 32 (v / 2 ^ 32)
  match f3 with
  | 0 => a * b
  | 1 => high (a.toInt * b.toInt)
  | 2 => high (a.toInt * (b.toNat : Int))
  | 3 => high ((a.toNat : Int) * (b.toNat : Int))
  | 4 => if b = 0 then 0xFFFFFFFF else BitVec.ofInt 32 (a.toInt.tdiv b.toInt)
  | 5 => if b = 0 then 0xFFFFFFFF else a / b
  | 6 => if b = 0 then a else BitVec.ofInt 32 (a.toInt.tmod b.toInt)
  | _ => if b = 0 then a else a % b

/-- Whether a branch is taken. -/
def branchTaken (f3 : Nat) (a b : Word) : Bool :=
  match f3 with
  | 0 => a == b | 1 => a != b | 4 => a.slt b | 5 => !a.slt b | 6 => a.ult b | _ => !a.ult b

/-- The AMO of a funct5. -/
def amoOf : Nat → Option AmoOp
  | 0x00 => some .add | 0x01 => some .swap | 0x04 => some .xor | 0x08 => some .or | 0x0C => some .and | 0x10 => some .min
  | 0x14 => some .max | 0x18 => some .minu | 0x1C => some .maxu | _ => none

/-- The custom CSRs whose write acts. -/
def customCsr (n : Nat) : Bool := n == 0x7C0 || n == 0x7C4 || n == 0x7C5 || n == 0x7C6

/-- A CSR instruction: the register written with the old value, the CSR with the new one. A debug register belongs to debug mode; a
CSR above the mode, a write of a read-only one and an absent one are illegal. -/
def csrPlan (p : Pair) (debug : Bool) (free : Word) (c : Copy) (w len : Nat) : Plan :=
  let n := bitsIn w 20 12
  let rs1 := bitsIn w 15 5
  let src : Word := if bitsIn w 14 1 = 1 then BitVec.ofNat 32 rs1 else c.reg rs1
  let writes := bitsIn w 12 2 == 1 || rs1 != 0
  let illegal := (decide (n / 256 % 4 ≠ 0) && !c.machineMode) || (decide (n / 1024 = 3) && writes)
    || (decide (n / 16 = 0x7B) && !debug) || !(csrExists p n || customCsr n)
    || (decide (n < 4) && c.csrGet p 0x300 &&& 0x6000 == 0)
  if illegal then .trap 2 (BitVec.ofNat 32 w)
  else
    let old := if c.counterFree n || customCsr n then free else c.csrGet p n
    let v := match bitsIn w 12 2 with | 1 => src | 2 => old ||| src | _ => old &&& ~~~src
    let c := (c.setReg (bitsIn w 7 5) old).next len
    if writes && customCsr n then .custom n v c
    else if writes then .local_ (let d := c.csrSet p n v; if n < 4 then d.dirty p else d)
    else .local_ c

/-- MRET: the mode and the interrupt enable stacked in mstatus return. -/
def mretTo (p : Pair) (c : Copy) : Copy :=
  let mst := (c.csrGet p 0x300).toNat
  let m := mst / 2048 % 4 == 3
  let st := withBit (withBit (mst - mst / 2048 % 4 * 2048) 3 (bitAt mst 7)) 7 true
  let st := if m then st else withBit st 17 false
  let d := c.csrSet p 0x300 (BitVec.ofNat 32 st)
  { d with pc := c.csrGet p 0x341, machineMode := m }

/-- A floating-point operation of opcode OP-FP, with its rounding mode: into a data register or a floating-point one. -/
def fpOp (p : Pair) (c : Copy) (w len rm : Nat) : Option Copy :=
  let rd := bitsIn w 7 5
  let f3 := bitsIn w 12 3
  let rs2 := bitsIn w 20 5
  let a := c.freg (bitsIn w 15 5)
  let b := c.freg rs2
  let toF (r : FOut) : Option Copy := some (((c.setFreg p rd r.1).gather p r.2).next len)
  let toX (r : FOut) : Option Copy := some (((c.setReg rd r.1).gather p r.2).next len)
  match bitsIn w 25 7 with
  | 0x00 => toF (fAdd rm a b)
  | 0x04 => toF (fSub rm a b)
  | 0x08 => toF (fMul rm a b)
  | 0x0C => toF (fDiv rm a b)
  | 0x2C => if rs2 = 0 then toF (fSqrt rm a) else none
  | 0x10 => if f3 ≤ 2 then some ((c.setFreg p rd (fSignInject f3 a b)).next len) else none
  | 0x14 => if f3 ≤ 1 then toF (fMinMax (f3 == 1) a b) else none
  | 0x50 => if f3 ≤ 2 then toX (fCompare f3 a b) else none
  | 0x60 => if rs2 ≤ 1 then toX (fToInt rm (rs2 == 1) a) else none
  | 0x68 => if rs2 ≤ 1 then toF (fFromInt rm (rs2 == 1) (c.reg (bitsIn w 15 5))) else none
  | 0x70 => if rs2 = 0 ∧ f3 = 0 then some ((c.setReg rd a).next len)
            else if rs2 = 0 ∧ f3 = 1 then some ((c.setReg rd (fClass a)).next len) else none
  | 0x78 => if rs2 = 0 ∧ f3 = 0 then some ((c.setFreg p rd (c.reg (bitsIn w 15 5))).next len) else none
  | _ => none

/-- Whether an operation of OP-FP takes its rounding mode from the word. -/
def fpRounds (f7 : Nat) : Bool := f7 == 0 || f7 == 4 || f7 == 8 || f7 == 0xC || f7 == 0x2C || f7 == 0x60 || f7 == 0x68

/-- An instruction of the opcodes of extension F. -/
def fpPlan (p : Pair) (c : Copy) (w len : Nat) : Plan :=
  let bad : Plan := .trap 2 (BitVec.ofNat 32 w)
  let f3 := bitsIn w 12 3
  let rm := if f3 = 7 then (c.csrGet p 2).toNat else f3
  if c.csrGet p 0x300 &&& 0x6000 == 0 then bad
  else
    let a := c.freg (bitsIn w 15 5)
    let b := c.freg (bitsIn w 20 5)
    let d := c.freg (bitsIn w 27 5)
    let fused (r : FOut) : Plan :=
      if bitsIn w 25 2 ≠ 0 ∨ 5 ≤ rm then bad else .local_ (((c.setFreg p (bitsIn w 7 5) r.1).gather p r.2).next len)
    match w % 128 with
    | 0x07 => if f3 = 2 then .access ⟨.read, c.reg (bitsIn w 15 5) + immI w, .word, 0⟩ else bad
    | 0x27 => if f3 = 2 then .access ⟨.write, c.reg (bitsIn w 15 5) + immS w, .word, c.freg (bitsIn w 20 5)⟩ else bad
    | 0x43 => fused (fMadd rm a b d)
    | 0x47 => fused (fMadd rm a b (fNeg d))
    | 0x4B => fused (fMadd rm (fNeg a) b d)
    | 0x4F => fused (fMadd rm (fNeg a) b (fNeg d))
    | _ =>
      if fpRounds (bitsIn w 25 7) && decide (5 ≤ rm) then bad
      else match fpOp p c w len rm with | some c => .local_ c | none => bad

/-- What the instruction word `w` of `len` bytes comes to in a copy; `free` is the value of a counter or a CSR that holds none. -/
def planOf (p : Pair) (debug : Bool) (free : Word) (c : Copy) (w len : Nat) : Plan :=
  let bad : Plan := .trap 2 (BitVec.ofNat 32 w)
  let rd := bitsIn w 7 5
  let f3 := bitsIn w 12 3
  let f7 := bitsIn w 25 7
  let a := c.reg (bitsIn w 15 5)
  let b := c.reg (bitsIn w 20 5)
  match w % 128 with
  | 0x37 => .local_ ((c.setReg rd (immU w)).next len)
  | 0x17 => .local_ ((c.setReg rd (c.pc + immU w)).next len)
  | 0x6F => .local_ { c.setReg rd (c.pc + BitVec.ofNat 32 len) with pc := c.pc + immJ w }
  | 0x67 => if f3 = 0 then .local_ { c.setReg rd (c.pc + BitVec.ofNat 32 len) with pc := (a + immI w) &&& 0xFFFFFFFE } else bad
  | 0x63 => if f3 = 2 ∨ f3 = 3 then bad else .local_ (if branchTaken f3 a b then { c with pc := c.pc + immB w } else c.next len)
  | 0x03 =>
    (match f3 with
     | 0 => .access ⟨.read, a + immI w, .byte, 0⟩
     | 1 => .access ⟨.read, a + immI w, .half, 0⟩
     | 2 => .access ⟨.read, a + immI w, .word, 0⟩
     | 4 => .access ⟨.read, a + immI w, .byte, 0⟩
     | 5 => .access ⟨.read, a + immI w, .half, 0⟩
     | _ => bad)
  | 0x23 =>
    (match f3 with
     | 0 => .access ⟨.write, a + immS w, .byte, b &&& 0xFF⟩
     | 1 => .access ⟨.write, a + immS w, .half, b &&& 0xFFFF⟩
     | 2 => .access ⟨.write, a + immS w, .word, b⟩
     | _ => bad)
  | 0x13 =>
    if f3 = 1 ∧ f7 ≠ 0 then bad
    else if f3 = 5 ∧ f7 ≠ 0 ∧ f7 ≠ 0x20 then bad
    else .local_ ((c.setReg rd (aluOp f3 (f3 == 5 && f7 == 0x20) a (immI w))).next len)
  | 0x33 =>
    if f7 = 1 then .local_ ((c.setReg rd (mulOp f3 a b)).next len)
    else if f7 = 0 ∨ (f7 = 0x20 ∧ (f3 = 0 ∨ f3 = 5)) then .local_ ((c.setReg rd (aluOp f3 (f7 == 0x20) a b)).next len)
    else bad
  | 0x0F => if f3 = 0 then .local_ (c.next len) else if f3 = 1 then .fenceI (c.next len) else bad
  | 0x2F =>
    if f3 ≠ 2 then bad
    else
      (match f7 / 4 with
       | 2 => if bitsIn w 20 5 = 0 then .access ⟨.lr, a, .word, 0⟩ else bad
       | 3 => .access ⟨.sc, a, .word, b⟩
       | k => match amoOf k with | some op => .access ⟨.amo op, a, .word, b⟩ | none => bad)
  | 0x73 =>
    if f3 = 0 then
      (match w with
       | 0x00000073 => .trap (if c.machineMode then 11 else 8) 0
       | 0x00100073 => .ebreak
       | 0x30200073 => if c.machineMode then .local_ (mretTo p c) else bad
       | 0x10500073 => if c.machineMode || !bitAt (c.csrGet p 0x300).toNat 21 then .local_ (c.next len) else bad
       | _ => bad)
    else if f3 = 4 then bad
    else csrPlan p debug free c w len
  | 0x07 => fpPlan p c w len
  | 0x27 => fpPlan p c w len
  | 0x43 => fpPlan p c w len
  | 0x47 => fpPlan p c w len
  | 0x4B => fpPlan p c w len
  | 0x4F => fpPlan p c w len
  | 0x53 => fpPlan p c w len
  | _ => bad

/-- A copy after its request was answered: the register loaded, the pc gone on. -/
def answeredCopy (p : Pair) (c : Copy) (w len : Nat) (data : Word) : Copy :=
  let rd := bitsIn w 7 5
  match w % 128 with
  | 0x03 =>
    let v := match bitsIn w 12 3 with
      | 0 => (data.setWidth 8).signExtend 32 | 1 => (data.setWidth 16).signExtend 32 | _ => data
    (c.setReg rd v).next len
  | 0x07 => (c.setFreg p rd data).next len
  | 0x2F => (c.setReg rd data).next len
  | _ => c.next len

end Sys2Proof.Machine
end

