-- ==== Sys2Proof/Machine/Debug.lean ====
section
/-!
DEFINITION. What the debugger makes a halted pair do (R107 to R109): a single step, a program in the program buffer, and a register access.
Both copies act alike; what they drive outside is compared (R91, R95).
-/
namespace Sys2Proof.Machine

/-! ## An instruction in both copies -/

/-- A copy of a pair after an instruction, once what it asked for outside is answered. -/
def resolve (p : Pair) (c : Copy) (plan : Plan) (w len : Nat) (data : Word) : Copy :=
  match plan with
  | .local_ d => d
  | .access _ => answeredCopy p c w len data
  | .trap cause tval => c.trap p cause tval.toNat
  | .fenceI d => d
  | .custom _ _ d => d
  | .ebreak => c.trap p 3 c.pc.toNat

/-- The compared bits of R91 in which two requests differ, through the TCM port or as data requests. Which bits of the control field a kind or a
width takes is not given: requests of different kind or width differ in its first (DESIGN CHOICE, log entry 95). -/
def demandBits (tcm : Bool) (a b : Demand) : List Nat :=
  let base := if tcm then 120 else 40
  let ctl := if a.kind = b.kind ∧ a.width = b.width then [] else [if tcm then 171 else 108]
  (if tcm then diffBits base 15 ((a.addr >>> 2).setWidth 15) ((b.addr >>> 2).setWidth 15) else diffBits base 32 a.addr b.addr)
    ++ (if isWrite a.kind then diffBits (if tcm then 135 else 72) 32 a.data b.data else []) ++ ctl

/-- The compared bits in which the two copies' instructions differ outside. -/
def planBits (p : Pair) (a b : Plan) : List Nat :=
  let tcm (d : Demand) : Bool := regionOf d.addr.toNat == some (.tcmP p)
  match a, b with
  | .access d, .access e => demandBits (tcm d) d e
  | .access d, _ => [if tcm d then 171 else 108]
  | _, .access e => [if tcm e then 171 else 108]
  | _, _ => []

/-- A difference that reaches the comparator: the groups of its bits. -/
def bitsHit (p : Pair) (bits : List Nat) (s : State) : State :=
  if bits.isEmpty then s
  else lockstepCapture p true ((List.range 18).filter (fun g => bits.any (fun k => groupOfBit k == g))) [] s

/-- Both copies set. -/
def setCopies (p : Pair) (a b : Copy) (s : State) : State := s.modCore p (fun c => { c with main := a, double := b })

/-- What a write of a custom CSR in machine mode acts (R85, R93, R545, R552). -/
def customWrite (p : Pair) (n : Nat) (v : Word) (s : State) : State :=
  match n with
  | 0x7C0 => driveSignature p s
  | 0x7C4 => dcacheInvalidate p v s
  | 0x7C5 => resetCsr p true s
  | _ => startupWritten p true s

/-- The request of an instruction made by the main core: discarded where the comparison of R95 finds a difference. -/
def demandAccess (p : Pair) (agreed : Bool) (d : Demand) (s : State) : State :=
  if !agreed && isWrite d.kind && checkedBlock (blockOf d.addr.toNat) then s
  else
    accessNow (.p p) { wordAccess d.kind d.addr.toNat d.data .clean with addr := d.addr, width := d.width } s

/-- What an instruction comes to in a copy: an illegal instruction saves its own bits `raw`, a compressed one's not the word it stands for; a
misaligned request is a trap of the copy (R82). -/
def planIn (p : Pair) (debug : Bool) (free : Word) (c : Copy) (w raw len : Nat) : Plan :=
  match planOf p debug free c w len with
  | .trap 2 _ => .trap 2 (BitVec.ofNat 32 raw)
  | .access d =>
    if d.addr.toNat % widthBytes d.width ≠ 0 then .trap (misalignedCode d.kind) d.addr else .access d
  | x => x

/-- The double's part in an access that the main core makes: its own PMP may deny it (R87). -/
def deniedPlan (p : Pair) (c : Copy) (x : Plan) : Plan :=
  match x with
  | .access d =>
    if c.pmpAllows p (useOf d.kind) d.addr.toNat (widthBytes d.width) then x else .trap (faultCode d.kind) d.addr
  | _ => x

/-- An instruction performed by both copies, with its own bits `raw`; the flag tells whether it was done without an exception. -/
def pairInstr (p : Pair) (debug : Bool) (w raw len : Nat) (s : State) : State × Bool :=
  let c := s.cores[p.val]
  let free : Word := s.free.setWidth 32
  let s := s.drew
  let a := planIn p debug free c.main w raw len
  let b := planIn p debug free c.double w raw len
  let bits := planBits p a b
  let both (s : State) : State := setCopies p (resolve p c.main a w len 0) (resolve p c.double b w len 0) s
  match a with
  | .access d =>
    let t := demandAccess p bits.isEmpty d { s with bus := ⟨0, false⟩ }
    if t.bus.err then (bitsHit p bits t, false)
    else
      let keep (x y : Copy) : Copy := { y with reservation := x.reservation }
      let u := setCopies p (resolve p c.main a w len t.bus.data) (resolve p c.double (deniedPlan p c.double b) w len t.bus.data) t
      let u := u.modCore p (fun k => { k with main := keep t.cores[p.val].main k.main, double := keep t.cores[p.val].double k.double })
      (bitsHit p bits u, true)
  | .trap _ _ => (bitsHit p bits (both s), false)
  | .ebreak => (bitsHit p bits (both s), false)
  | .fenceI _ => (bitsHit p bits (icacheInvalidate p (both s)), true)
  | .custom n v _ => (bitsHit p bits (customWrite p n v (both s)), true)
  | .local_ _ => (bitsHit p bits (both s), true)

/-- The instruction at the pc fetched: the first halfword, and the second where the first says so. -/
def fetchInstr (p : Pair) (s : State) : State × Option (Nat × Nat) :=
  let half (a : Word) (s : State) : State :=
    accessNow (.p p) { wordAccess .fetch a.toNat 0 .clean with width := .half } { s with bus := ⟨0, false⟩ }
  let pc := s.cores[p.val].main.pc
  let t := half pc s
  if t.bus.err then (t, none)
  else if t.bus.data.toNat % 4 ≠ 3 then (t, some (t.bus.data.toNat, 2))
  else
    let u := half (pc + 2) t
    if u.bus.err then (u, none) else (u, some (t.bus.data.toNat + u.bus.data.toNat * 65536, 4))

/-- Whether an instruction word writes minstret, which then takes the value written and counts nothing. -/
def setsInstret (w : Nat) : Bool := w % 128 == 0x73 && bitsIn w 12 3 != 0 && (bitsIn w 20 12 == 0xB02 || bitsIn w 20 12 == 0xB82)

/-- An instruction of the program performed by both copies, and counted where it retires (R82). -/
def programInstr (p : Pair) (w raw len : Nat) (s : State) : State :=
  match pairInstr p false w raw len s with
  | (t, true) => if setsInstret w then t else modCopies p Copy.retired t
  | (t, false) => t

/-- One instruction of the program a pair runs, at the same place in both copies (R108). -/
def stepPair (p : Pair) (s : State) : State :=
  let s := bitsHit p (diffBits 0 32 s.cores[p.val].main.pc s.cores[p.val].double.pc) s
  if !issues s (.p p) then s
  else
    match fetchInstr p s with
    | (t, none) => t
    | (t, some (w, len)) =>
      if len = 4 then programInstr p w w 4 t
      else
        match expand w with
        | some x => programInstr p x w 2 t
        | none => trapPair p 2 w t

/-! ## The debugger's requests -/

/-- Whether the debugger acts on a pair: it reaches it, and the pair is halted. -/
def debugActs (s : State) (p : Pair) : Bool := debugReaches s p && s.bit F.DBL_STAT_DBGHALT p

/-- A single step of a halted pair. -/
def debugStep (p : Pair) (s : State) : State := if debugActs s p then stepPair p s else s

/-- A register of a copy; a counter that counts what the model does not run is free. -/
def Copy.read (s : State) (p : Pair) (c : Copy) : CoreReg → Word
  | .x i => c.x[i.val]
  | .f i => c.f[i.val]
  | .fcsr => c.fcsr
  | .pc => c.pc
  | .csr n => if c.counterFree n.toNat || customCsr n.toNat then s.free.setWidth 32 else c.csrGet p n.toNat

/-- Whether a core has the register named. -/
def regExists (p : Pair) : CoreReg → Bool
  | .csr n => csrExists p n.toNat || customCsr n.toNat
  | _ => true

/-- An abstract register access of a halted pair (R109): the main core's value is returned; a double that differs is a lockstep
fault in one of groups 13 and 14. A write of a custom CSR acts as the program's own in machine mode does; a register the core has not
answers with an error. -/
def debugRegister (p : Pair) (r : CoreReg) (w : Option Word) (s : State) : State :=
  if debugActs s p && regExists p r then
    match w with
    | some v =>
      let act (s : State) : State := match r with
        | .csr n => if customCsr n.toNat then customWrite p n.toNat v s else modCopies p (Copy.write p r v) s
        | r => modCopies p (Copy.write p r v) s
      { act s with bus := ⟨0, false⟩ }
    | none =>
      let c := s.cores[p.val]
      let a := c.main.read s p r
      let b := c.double.read s p r
      let s := { s with bus := ⟨a, false⟩ }.drew
      bitsHit p (diffBits 283 32 a b) s
  else { s with bus := ⟨0, true⟩ }

/-- Whether an instruction of the program buffer ends the run: a jump, a branch or what else rests on the pc has no place there. -/
def endsBuffer (w : Nat) : Bool :=
  let op := w % 128
  op == 0x17 || op == 0x6F || op == 0x67 || op == 0x63 || (op == 0x73 && bitsIn w 12 3 == 0 && w != 0x10500073)

/-- The instruction at the front of a list of halfwords. -/
def bufferNext : List Nat → Option (Nat × Nat × List Nat)
  | [] => none
  | h :: t =>
    if h % 4 ≠ 3 then (expand h).map (fun x => (x, 2, t))
    else match t with | k :: u => some (h + 65536 * k, 4, u) | [] => none

/-- The program buffer run, an instruction at a time, to EBREAK, to its end, or to an exception, which answers with an error and leaves the
copies as they were before the instruction. -/
def runBuffer : Nat → Pair → List Nat → State → State
  | 0, _, _, s => s
  | n + 1, p, l, s =>
    match bufferNext l with
    | none => { s with bus := ⟨0, decide (l ≠ [])⟩ }
    | some (w, len, rest) =>
      if w = 0x00100073 then { s with bus := ⟨0, false⟩ }
      else if endsBuffer w then { s with bus := ⟨0, true⟩ }
      else
        let c := s.cores[p.val]
        match pairInstr p true w w len s with
        | (t, true) => if issues t (.p p) then runBuffer n p rest t else t
        | (t, false) => { setCopies p c.main c.double t with bus := ⟨0, true⟩ }

/-- The halfwords of a program. -/
def halfwords (l : List Word) : List Nat := l.flatMap (fun w => [w.toNat % 65536, w.toNat / 65536])

/-- Program-buffer execution in a halted pair (R108): in machine mode, the pc and the mode of the program kept. -/
def debugProgram (p : Pair) (program : List Word) (s : State) : State :=
  if debugActs s p then
    let c := s.cores[p.val]
    let s := modCopies p (fun k => { k with progBuf := program, machineMode := true }) s
    let t := runBuffer (2 * program.length) p (halfwords program) { s with bus := ⟨0, false⟩ }
    let back (old new : Copy) : Copy := { new with pc := old.pc, machineMode := old.machineMode }
    t.modCore p (fun k => { k with main := back c.main k.main, double := back c.double k.double })
  else s

/-! ## Commands -/

/-- DEBUG_SINGLE_STEP (R108). -/
def execDebugSingleStep (p : Pair) (s : State) : Out := clockedOut s <| .next (debugStep p s)
/-- DEBUG_REGISTER_ACCESS (R109). -/
def execDebugRegisterAccess (p : Pair) (reg : CoreReg) (write : Option Word) (s : State) : Out :=
  clockedOut s <| .next (debugRegister p reg write s)
/-- DEBUG_PROGRAM_BUFFER (R108). -/
def execDebugProgramBuffer (p : Pair) (program : List Word) (s : State) : Out := clockedOut s <| .next (debugProgram p program s)

end Sys2Proof.Machine
end

