-- ==== Sys2Proof/Machine/Host.lean ====
section
/-!
DEFINITION. Command packets (chapter 16) with the services of chapters 12, 17, 18 and 19 that they reach: transports, credits,
order and retries, the mailbox, and every opcode; and the sync frames of network time.
-/
namespace Sys2Proof.Machine

/-! ## Transports and pools (R529 to R533) -/

/-- The number of a transport. -/
def chanIx : Transport → Fin 3
  | .spi => 0 | .c0 => 1 | .c1 => 2

/-- The CAN controller of a transport. -/
def chanNet : Transport → Option CanCtl
  | .spi => none | .c0 => some 0 | .c1 => some 1

/-- A transport's channel, and a change of it. -/
def channel (s : State) (t : Transport) : Channel := s.host.chan[(chanIx t).val]
def modChannel (t : Transport) (f : Channel → Channel) (s : State) : State :=
  s.modHost (fun h => { h with chan := upd h.chan (chanIx t) f })

/-- The credits of a transport. -/
def poolSize (t : Transport) : Nat := match t with | .spi => 8 | _ => 1

/-- Packets held (R529). -/
def heldOn (s : State) (t : Transport) : Nat := (channel s t).waiting.length + (channel s t).replies.length

/-- HELD in HOST_STAT. -/
def showHeld (s : State) : State :=
  ((s.put F.HOST_STAT_HELDS (heldOn s .spi)).put F.HOST_STAT_HELDC0 (heldOn s .c0)).put F.HOST_STAT_HELDC1 (heldOn s .c1)

/-- Whether S takes packets at all: HOST enabled, S running, the lane out of SLEEP, DEEP and OFF (R426, R594). -/
def hostTakes (s : State) : Bool := s.on F.HOST_CTRL_EN && issues s .s

/-- Whether the strap word accepts command packets over CAN (R538). -/
def canCommands (s : State) : Bool := bitAt (s.get F.SEAL_STRAP_WORD) 7

/-- The bytes of a reply (R527). -/
def replyBytes (held : Nat) (r : Reply) : List Byte :=
  let l := [r.op, BitVec.ofNat 8 (r.payload.length + 1), r.seq, BitVec.ofNat 8 held, r.status] ++ r.payload
  l ++ leBytes 4 (crc32 l)

/-- The reply identifier of a lane (R538). -/
def replyId (s : State) : Nat := s.get F.HOST_CAN_CMDID + 2 * (3 * setId s + laneId s) + 1

/-- A reply queued: over CAN it goes into transmit object 28 at once (R538), with 0 held after it. -/
def queueReply (t : Transport) (r : Reply) (s : State) : State :=
  let s := showHeld (modChannel t (fun c => { c with replies := c.replies ++ [r] }) s)
  match chanNet t with
  | some n => canSend n 28 (replyId s) true (replyBytes 0 r) s
  | none => s

/-- The head of a channel answered. -/
def answerHead (t : Transport) (status : Nat) (payload : List Byte) (s : State) : State :=
  match (channel s t).waiting with
  | [] => s
  | p :: rest =>
    queueReply t ⟨p.op, p.seq, BitVec.ofNat 8 status, payload⟩ (modChannel t (fun c => { c with waiting := rest }) s)

/-- Packets at the head whose answer is decided already are answered, in order (R533). -/
def settleSteps (t : Transport) : Nat → State → State
  | 0, s => s
  | n + 1, s =>
    match (channel s t).waiting with
    | [] => s
    | p :: _ =>
      match p.decided with
      | some (st, l) => settleSteps t n (answerHead t st.toNat l s)
      | none => s

def settle (t : Transport) (s : State) : State := settleSteps t 8 s

/-- A reply that has been consumed or sent leaves its channel and is kept for retries (R529, R536). -/
def replyGone (t : Transport) (s : State) : State :=
  showHeld (modChannel t (fun c => match c.replies with
    | [] => c
    | r :: rest => { c with replies := rest, past := (r :: c.past).take (poolSize t) }) s)

/-! ## Acceptance (R528, R530, R535, R536, R542) -/

/-- The opcodes of R542 that have no step of their own are refused with BADOPC. -/
def knownOps : List Nat :=
  [0x00, 0x01, 0x02, 0x03, 0x04, 0x10, 0x11, 0x12, 0x13, 0x20, 0x21, 0x22, 0x23, 0x24, 0x25, 0x30, 0x31, 0x32, 0x33, 0x34,
   0x40, 0x41, 0x42, 0x43, 0x50, 0x51, 0x60, 0x61, 0x62, 0x70, 0x71, 0x72, 0x73, 0x74, 0x75, 0x80, 0x81, 0x82]
    ++ (List.range 16).map (fun i => 0xF0 + i)

/-- What a packet with a RETRY bit meets (R536): a copy of the latest matching reply, SEQMIS, or none. -/
def retryMatch (c : Channel) (op seq : Byte) : Option (Byte × List Byte) :=
  match c.past.find? (fun r => r.seq == seq && r.op == op) with
  | some r => some (r.status, r.payload)
  | none => if c.past.any (fun r => r.seq == seq) then some (0x83, []) else none

/-- What acceptance decides of a packet without a fault of R528. -/
def decideNew (s : State) (t : Transport) (op seq : Byte) (retry : Bool) : Option (Byte × List Byte) :=
  let c := channel s t
  if c.waiting.any (fun p => p.seq == seq) || c.replies.any (fun r => r.seq == seq) then some (0x50, [])
  else
    match (if retry then retryMatch c op seq else none) with
    | some d => some d
    | none => if knownOps.contains op.toNat then none else some (0x42, [])

/-- A packet put into the pool (R529), with its number in order of acceptance. -/
def hold (t : Transport) (p : Packet) (s : State) : State :=
  let p := { p with order := s.host.accepted }
  let s := s.modHost (fun h => { h with accepted := h.accepted + 1 })
  let s := showHeld (modChannel t (fun c => { c with waiting := c.waiting ++ [p] }) s)
  let s := s.put (match t with | .spi => F.HOST_SEQ_SEQS | .c0 => F.HOST_SEQ_SEQC0 | .c1 => F.HOST_SEQ_SEQC1) p.seq.toNat
  settle t s

/-- The bytes of a packet that has arrived (R525, R528, R530): `limit` is the greatest LEN of the transport. Absent header bytes
of a short CAN frame read 0. -/
def packetIn (t : Transport) (limit : Nat) (l : List Byte) (s : State) : State :=
  if poolSize t ≤ heldOn s t then (s.put F.HOST_STAT_OVR 1).countBit F.HOST_CNT_OVRCNT F.HOST_CNT_OVF 1
  else
    let op := l.getD 0 0
    let len := (l.getD 1 0).toNat
    let seq := l.getD 2 0
    let payload := (l.drop 4).take len
    let fault (code : Byte) (s : State) : State := hold t ⟨op, seq, [], some (code, []), false, 0⟩ s
    if limit < len then fault 0x81 s
    else if l.length < 8 + len then fault 0x82 (s.countBit F.HOST_CNT_TRUNCCNT F.HOST_CNT_OVF 2)
    else if crc32 (l.take (4 + len)) ≠ bytesAt l (4 + len) 4 then
      fault 0x80 ((s.put F.HOST_STAT_CRCERR 1).countBit F.HOST_CNT_CRCCNT F.HOST_CNT_OVF 0)
    else hold t ⟨op, seq, payload, decideNew s t op seq (bitAt (l.getD 3 0).toNat 0), false, 0⟩ s

/-! ## Host SPI (R520 to R523) -/

/-- HSTAT (R521). -/
def hstat (s : State) : Byte :=
  let alert := decide ((s.rd 0x4001C004).toNat / 256 % 64 ≠ 0)
  BitVec.ofNat 8 (heldOn s .spi + 16 * (!(channel s .spi).replies.isEmpty).toNat + 32 * s.get F.HOST_STAT_SESSION
    + 64 * alert.toNat + 128 * s.host.rst.toNat)

/-- The bytes the lane sent, and RST spent. -/
def spiSent (l : List Byte) (s : State) : State := s.modHost (fun h => { h with sentBytes := l, rst := false })

/-- A read of `clocked` bytes after byte 0 (R523). -/
def spiRead (clocked : Nat) (s : State) : State :=
  if !s.on F.HOST_CTRL_EN || decide (2 ≤ s.get F.PWR_STAT_STATE) then s.modHost (fun h => { h with sentBytes := [] })
  else
    let h := hstat s
    match (channel s .spi).replies with
    | [] => spiSent (h :: List.replicate clocked 0) s
    | r :: _ =>
      let l := replyBytes (heldOn s .spi - 1) r
      let s := spiSent (h :: (l ++ List.replicate (clocked - l.length) 0).take clocked) s
      if l.length ≤ clocked then replyGone .spi s else s

/-- A transaction in which the host sends bytes, byte 0 the type (R521, R522). -/
def spiWrite (bytes : List Byte) (s : State) : State :=
  if !s.on F.HOST_CTRL_EN || decide (2 ≤ s.get F.PWR_STAT_STATE) then s.modHost (fun h => { h with sentBytes := [] })
  else
    match bytes with
    | [] => s
    | ty :: l =>
      if ty = 0x5A then spiRead l.length s
      else
        let s := spiSent (hstat s :: List.replicate l.length 0) s
        if ty ≠ 0xA5 then s.put F.HOST_STAT_BADTYPE 1
        else if !issues s .s then s
        else if l.length < 4 then s.put F.HOST_STAT_SHORT 1
        else packetIn .spi 248 l s

/-- A request frame in object 83 (R539). -/
def canCommand (net : Fin 2) (bytes : List Byte) (s : State) : State :=
  if canCommands s && hostTakes s then packetIn (if net = 0 then .c0 else .c1) 56 bytes s else s

/-! ## Refusals that every opcode may meet (R534, R539, R543, R559) -/

/-- The opcodes marked C, and those marked S. -/
def opOnCan : List Nat := [0x00, 0x03, 0x04, 0x10, 0x11, 0x12, 0x13, 0x40, 0x41, 0x42, 0x43, 0x50, 0x60, 0x62, 0x80, 0x82]
def opSession (op : Nat) : Bool :=
  decide (0xF0 ≤ op) ||
    [0x02, 0x20, 0x21, 0x22, 0x23, 0x24, 0x25, 0x30, 0x31, 0x32, 0x33, 0x34, 0x51, 0x74, 0x75, 0x81].contains op

/-- The opcodes a stood-down lane answers. -/
def opStoodDown : List Nat := [0x00, 0x01, 0x02, 0x03, 0x04, 0x10, 0x12, 0x43, 0x61, 0x62, 0x71, 0x72, 0x73]

/-- The least and greatest LEN of an opcode. -/
def opLen (op : Nat) : Nat × Nat :=
  match op with
  | 0x04 => (0, 247) | 0x11 => (5, 5) | 0x13 => (1, 1) | 0x20 => (12, 12) | 0x21 => (1, 247) | 0x22 => (5, 244)
  | 0x23 => (64, 64) | 0x24 => (9, 248) | 0x25 => (1, 1) | 0x30 => (8, 8) | 0x31 => (2, 2) | 0x32 => (1, 1) | 0x34 => (1, 1)
  | 0x41 => (2, 2) | 0x42 => (2, 2) | 0x51 => (8, 8) | 0x60 => (3, 3) | 0x61 => (5, 5) | 0x62 => (2, 2) | 0x70 => (32, 32)
  | 0x71 => (1, 1) | 0x73 => (64, 64) | 0x75 => (64, 64) | 0x81 => (1, 1)
  | op => if 0xF0 ≤ op then (0, 248) else (0, 0)

/-- The general refusal of a packet: STATE in a stood-down lane, NOTCAN, NOSESSION, AUTH for the vendor service, BADPARAM for its
LEN. -/
def refusal (s : State) (t : Transport) (op len : Nat) : Option Nat :=
  if s.on F.KEEP_STAT_STOOD && !opStoodDown.contains op then some 0x4F
  else if t ≠ .spi ∧ ¬ opOnCan.contains op then some 0x44
  else if opSession op && !s.on F.HOST_STAT_SESSION then some 0x40
  else if 0xF0 ≤ op then some 0x51
  else if len < (opLen op).1 ∨ (opLen op).2 < len then some 0x43
  else none

/-- What an opcode answers: STATUS, the payload after it, and the state it leaves. -/
structure Answer where
  status : Nat
  payload : List Byte
  state : State

/-- A refusal, and an answer OK. -/
def no (code : Nat) (s : State) : Answer := ⟨code, [], s⟩
def ok (l : List Byte) (s : State) : Answer := ⟨0, l, s⟩

/-- The packet that S executes next on a transport, where it carries an opcode. -/
def nextPacket (s : State) (t : Transport) (op : Nat → Bool) : Option Packet :=
  match (channel s t).waiting with
  | [] => none
  | p :: _ => if hostTakes s && op p.op.toNat && p.decided.isNone && !p.posted then some p else none

/-- The opcodes whose execution writes NVM. -/
def writesNvm (op : Nat) : Bool := [0x22, 0x23, 0x24, 0x25].contains op

/-- What an execution answers as it has ended (R543): a failed NVM write leaves what stood, log entry 78, and after a fault of the service
firmware nothing is executed. -/
def endedAs (e : ServiceEnd) (op : Nat) (a : Answer) (s : State) : Answer :=
  match e with
  | .done => a
  | .nvmFault => if writesNvm op && a.status == 0 then no 0x85 s else a
  | .internal => no 0x86 s

/-- An opcode that S executes itself: nothing happens where the packet in turn is another one. -/
def serve (c : Call) (op : Nat → Bool) (act : List Byte → State → Answer) (s : State) : State :=
  match nextPacket s c.via op with
  | none => s
  | some p =>
    match refusal s c.via p.op.toNat p.payload.length with
    | some code => settle c.via (answerHead c.via code [] s)
    | none =>
      let a := endedAs c.ended p.op.toNat (act p.payload s) s
      settle c.via (answerHead c.via a.status a.payload a.state)

/-- One opcode. -/
def isOp (n : Nat) (op : Nat) : Bool := op == n

/-! ## The mailbox (R540, R541) -/

/-- The base of the mailbox. -/
def mboxBase (s : State) : Nat := 0x20000000 + s.get F.HOST_MBOX_ADDR

/-- The request of a transport's head written into the mailbox, then REQSEQ, its word there, incremented. -/
def mboxWrite (t : Transport) (s : State) : State :=
  match (channel s t).waiting with
  | [] => s
  | p :: _ =>
    let b := mboxBase s
    let seq := s.memWord b + 1
    let s := s.setBytes (b + 4) [p.op, BitVec.ofNat 8 p.payload.length, BitVec.ofNat 8 (chanIx t).val]
    ((s.setBytes (b + 8) p.payload).setMemWord b seq).raise .mailbox

/-- The transport of a number. -/
def chanOfIx : Fin 3 → Transport
  | 0 => .spi | 1 => .c0 | 2 => .c1

/-- The number in order of acceptance of a transport's head. -/
def headOrder (s : State) (i : Fin 3) : Nat := match (channel s (chanOfIx i)).waiting with | p :: _ => p.order | [] => 0

/-- A transport put among those whose requests wait, in order of acceptance. -/
def mboxInsert (s : State) (i : Fin 3) : List (Fin 3) → List (Fin 3)
  | [] => [i]
  | j :: rest => if headOrder s i < headOrder s j then i :: j :: rest else j :: mboxInsert s i rest

/-- The head of a transport put among the requests that wait for the mailbox; one in the mailbox stays first. -/
def post (busy : Bool) (t : Transport) (s : State) : State :=
  let s := modChannel t (fun c => match c.waiting with
    | [] => c
    | p :: rest => { c with waiting := { p with posted := true } :: rest }) s
  s.modHost (fun h => { h with mbox := match busy, h.mbox with
    | true, i :: rest => i :: mboxInsert s (chanIx t) rest
    | _, l => mboxInsert s (chanIx t) l })

/-- The opcodes passed to the application (R542). -/
def passedOps : List Nat := [0x21, 0x30, 0x31, 0x32, 0x33, 0x34, 0x42]

/-- Whether the head of a transport is a request that may be passed on and is not yet. -/
def mayPost (s : State) (t : Transport) : Bool :=
  match nextPacket s t passedOps.contains with
  | some p => (refusal s t p.op.toNat p.payload.length).isNone
  | none => false

/-- Every request at the head of its transport put among those that wait (R540): so they come to the mailbox in order of acceptance. `busy`: one
is in the mailbox. -/
def postHeads (busy : Bool) (s : State) : State :=
  (([.spi, .c0, .c1] : List Transport).filter (mayPost s)).foldl (fun s t => post busy t s) s

/-- The request first in turn written into the mailbox. -/
def mboxNext (s : State) : State := match s.host.mbox with | [] => s | i :: _ => mboxWrite (chanOfIx i) s

/-- An opcode passed to the application (R540). -/
def pass (c : Call) (op : Nat) (s : State) : State :=
  match nextPacket s c.via (isOp op) with
  | none => s
  | some p =>
    match refusal s c.via op p.payload.length with
    | some code => settle c.via (answerHead c.via code [] s)
    | none =>
      if c.ended = .internal then settle c.via (answerHead c.via 0x86 [] s)
      else let u := postHeads (!s.host.mbox.isEmpty) s; if s.host.mbox.isEmpty then mboxNext u else u

/-- The request in the mailbox answered; the next one takes its place. -/
def mboxAnswer (t : Transport) (status : Nat) (payload : List Byte) (s : State) : State :=
  let s := s.modHost (fun h => { h with mbox := h.mbox.drop 1 })
  mboxNext (postHeads false (settle t (answerHead t status payload s)))

/-- The greatest payload after STATUS on a transport. -/
def replyRoom (t : Transport) : Nat := match t with | .spi => 247 | _ => 55

/-- The codes of R543. -/
def statusCodes : List Nat := [0, 1, 2, 3] ++ (List.range 21).map (0x40 + ·) ++ (List.range 7).map (0x80 + ·)

/-- The STATUS of an application's answer: one that R543 does not list is not returned, and which of its codes is, the spec does not say. -/
def statusRelayed (s : State) (st : Nat) : Nat :=
  if statusCodes.contains st then st else statusCodes.getD (s.free.toNat % statusCodes.length) 0

/-- The application's answer (R540, R541). ACKSEQ at the number of a request that timed out is a late answer, discarded; else the application
writes ACKSEQ equal to REQSEQ, which answers the request in the mailbox, or where there is none is a late answer too. -/
def mboxAck (s : State) : State :=
  let b := mboxBase s
  let ack := s.memWord (b + 256)
  let late (s : State) : State := s.put F.HOST_STAT_APPLATE 1
  match s.host.mbox with
  | [] =>
    let s := s.setMemWord (b + 256) (s.memWord b)
    if s.host.late.isEmpty then s else late (s.modHost (fun h => { h with late := [] }))
  | i :: _ =>
    if s.host.late.contains ack && ack != s.memWord b then late (s.modHost (fun h => { h with late := h.late.filter (· != ack) }))
    else
      let s := s.setMemWord (b + 256) (s.memWord b)
      let t := chanOfIx i
      let n := min (replyRoom t) (s.byte (b + 261)).toNat
      let st := statusRelayed s (s.byte (b + 260)).toNat
      mboxAnswer t st (s.bytes (b + 264) n) s.drew

/-- APPTMO over (R541). -/
def mboxLate (s : State) : State :=
  match s.host.mbox with
  | [] => s
  | i :: _ => mboxAnswer (chanOfIx i) 0x84 [] (s.modHost (fun h => { h with late := s.memWord (mboxBase s) :: h.late }))

/-! ## Opcodes that read -/

/-- A register read by S, little-endian. -/
def readAsS (a : Nat) (s : State) : List Byte × State :=
  let t := registerRead .s a s
  (leBytes 4 t.bus.data.toNat, t)

/-- Registers read by S in order. -/
def readAll : List Nat → State → List Byte × State
  | [], s => ([], s)
  | a :: rest, s =>
    let x := readAsS a s
    let y := readAll rest x.2
    (x.1 ++ y.1, y.2)

/-- Registers returned. -/
def answerRegs (l : List Nat) (s : State) : Answer := let x := readAll l s; ok x.1 x.2

/-- INFO. -/
def opInfo (s : State) : Answer :=
  ok (leBytes 2 0x3620 ++ [0x43, 1] ++ leBytes 4 Config.serviceVersion.toNat ++ leBytes 2 (s.get F.SEAL_STRAP_WORD)
    ++ [BitVec.ofNat 8 (s.get F.SAFE_STAT_SEALED), BitVec.ofNat 8 (s.get F.KEEP_STAT_BANK)]) s

/-- ECHO; a reply that does not fit a CAN frame is refused. -/
def opEcho (t : Transport) (l : List Byte) (s : State) : Answer := if l.length ≤ replyRoom t then ok l s else no 0x43 s

/-- LANESTAT. -/
def opLanestat (s : State) : Answer :=
  ok (laneStatusBytes s ++ [BitVec.ofNat 8 (mcMode s 0), BitVec.ofNat 8 (mcMode s 1)] ++ leBytes 2 (s.get F.SAFE_CAUSE_CAUSE)) s

/-- READREG: every address is judged before any is read. -/
def opReadreg (t : Transport) (l : List Byte) (s : State) : Answer :=
  let a := bytesAt l 0 4
  let n := bytesAt l 4 1
  let addrs := (List.range n).map (fun i => a + 4 * i)
  if n = 0 ∨ (match t with | .spi => 61 | _ => 13) < n ∨ ¬ addrs.all (fun x => regPermitted .s x false) then no 0x43 s
  else answerRegs addrs s

/-- FAULTS. -/
def opFaults (s : State) : Answer :=
  answerRegs [0x40014004, 0x40014010, F.DBL_STAT_RUN.addr, 0x4000B004, 0x4000E004, 0x4000F004] s

/-- POSITION. -/
def opPosition (l : List Byte) (s : State) : Answer :=
  let k := bytesAt l 0 1
  if 1 < k then no 0x43 s
  else
    let x := readAll [(F.POS_MT_MT k).addr, (F.POS_MECH_MECH k).addr, (F.POS_SPEED_SPEED k).addr] s
    let bits := s.get (F.POS_STAT_MTVALID k) + 2 * s.get (F.POS_STAT_UNCERT k) + 4 * s.get (F.POS_STAT_HOMED k)
      + 8 * s.get (F.POS_STAT_LOWCONF k)
    ok (x.1 ++ [BitVec.ofNat 8 bits]) x.2

/-- SAFESTAT. -/
def opSafestat (s : State) : Answer := answerRegs [0x40014000, 0x40014004, 0x40014010] s

/-- TIMEGET: TIME_NS is read first, which latches SEC. -/
def opTimeget (s : State) : Answer :=
  let x := readAll [addrTimeNs, 0x4001B00C, addrTimeRate] s
  let bits := s.get F.TIME_CTRL_LOCKED + 2 * s.get F.TIME_STAT_STEPPED + 4 * s.get F.TIME_CTRL_MASTER
  ok ((x.1.drop 4).take 4 ++ x.1.take 4 ++ x.1.drop 8 ++ [BitVec.ofNat 8 bits]) x.2

/-- REELREAD (R616): the records at places `first` on of the reel, and the newest record's number. -/
def opReelread (t : Transport) (l : List Byte) (s : State) : Answer :=
  let first := bytesAt l 0 2
  let n := bytesAt l 2 1
  if 4095 < first ∨ n = 0 ∨ (match t with | .spi => 7 | _ => 1) < n then no 0x43 s
  else
    let rseq := s.get F.BKG_RSEQ_RSEQ
    let newest := if rseq = 0 then 0xFFFFFFFE else rseq - 1
    ok (leBytes 2 newest ++ (List.range n).flatMap (fun i => s.bytes (reelSlot s (first + i)) 32)) s

/-- LOGREAD (R619). -/
def opLogread (l : List Byte) (s : State) : Answer :=
  let off := bytesAt l 0 4
  let n := bytesAt l 4 1
  if n = 0 ∨ 240 < n ∨ 0xF0000 < off + n then no 0x43 s else ok (s.bytes (0x11010000 + off) n) s

/-- LEDGER (R620): an index past the last entry is out of range. -/
def opLedger (l : List Byte) (s : State) : Answer :=
  let i := bytesAt l 0 2
  if ledgerCount s ≤ i then no 0x43 s else ok (s.bytes (ledgerBase + 32 * i) 32) s

/-- ATTEST (R578). -/
def opAttest (l : List Byte) (s : State) : Answer :=
  let c := sm3 (l.take 32 ++ (List.range 12).flatMap (measureBytes s))
  ok (digestBytes c ++ beBytes 64 (attestSign s.fresh c).toNat) s.drew

/-- MEASURE (R577). -/
def opMeasure (l : List Byte) (s : State) : Answer :=
  let i := bytesAt l 0 1
  if 11 < i then no 0x43 s else ok (measureBytes s i) s

/-- PWRGET. -/
def opPwrget (s : State) : Answer := ok (BitVec.ofNat 8 (s.get F.PWR_STAT_STATE) :: leBytes 3 (voteWord s)) s

/-- WAKEREC (R606): the entry time plus the elapsed count of 10 µs, or ones where no entry time is valid. -/
def opWakerec (s : State) : Answer :=
  let valid := s.on F.PWR_WREC_TVALID && decide (s.get F.PWR_WREC_FROM ≠ 4)
  let ns := s.get F.PWR_ENS_NS + 10000 * s.get F.PWR_ELAPSED_ELAPSED
  let sec := s.get F.PWR_ESEC_SEC + ns / 1000000000
  ok ([BitVec.ofNat 8 (s.get F.PWR_WREC_SRC), 0, 0, 0]
    ++ (if valid then leBytes 4 sec ++ leBytes 4 (ns % 1000000000) else List.replicate 8 0xFF)) s

/-! ## Opcodes that act -/

/-- OPEN (R534). -/
def opOpen (s : State) : Answer := if s.on F.HOST_STAT_SESSION then no 0x03 s else ok [] (s.put F.HOST_STAT_SESSION 1)

/-- CLOSE. -/
def opClose (s : State) : Answer := ok [] (s.put F.HOST_STAT_SESSION 0)

/-- The word a masked write carries: in fields that keep what is written, the bits outside the mask are written back. -/
def maskedWord (addr : Nat) (old v mask : Word) : Word :=
  let keeps := (rowsAt addr).foldl (fun w r =>
    match r.acc with | .rw => r.into w (2 ^ r.w - 1) | .rwo => r.into w (2 ^ r.w - 1) | .rws => r.into w (2 ^ r.w - 1) | _ => w) 0
  (v &&& mask) ||| (old &&& ~~~mask &&& keeps)

/-- WRITEREG. -/
def opWritereg (l : List Byte) (s : State) : Answer :=
  let a := bytesAt l 0 4
  if !regPermitted .s a true || (rowsAt a).isEmpty then no 0x43 s
  else
    let old := regValue .s a s
    let w := maskedWord a old (BitVec.ofNat 32 (bytesAt l 4 4)) (BitVec.ofNat 32 (bytesAt l 8 4))
    if s.sealApplied && rwsBits a w != rwsBits a old then no 0x45 s
    else answerRegs [a] (registerWrite .s a w s)

/-- The copy of the configuration block in force. -/
def copyInForce (s : State) : Bool := (bootRecord s).cfgsel == 1

/-- CFGLOAD (R574). -/
def opCfgload (l : List Byte) (s : State) : Answer :=
  let off := bytesAt l 0 4
  let data := l.drop 4
  if 240 < data.length ∨ 4104 < off + data.length then no 0x43 s
  else
    let c := !copyInForce s
    let s := if s.keep.staged then s else nvmErase (copyBase c) s
    ok [] ((s.setBytes (copyBase c + off) data).modKeep (fun k => { k with staged := true }))

/-- CFGCOMMIT (R574). -/
def opCfgcommit (l : List Byte) (s : State) : Answer :=
  let c := !copyInForce s
  if !s.keep.staged then no 0x4F s
  else
    match (if blockHeaderOk s c then sealSlot s c l s.keep.store.customers else none) with
    | none => no 0x53 s
    | some slot =>
      let p := bootRecord s
      let s := s.setBytes (copyBase c + 0x1100) l
      let s := writePage c 0 { p with gen := (p.gen + 1) % 2 ^ 32, slot := slot } s
      ok [] (showBoot (s.modKeep (fun k => { k with staged := false })))

/-- Whether a range of code NVM meets one written since the commit. -/
def imgMeets (s : State) (a n : Nat) : Bool := s.keep.imgWritten.any (fun r => decide (r.1 < a + n ∧ a < r.1 + r.2))

/-- IMGLOAD (R568): sectors that no write has touched since the commit are erased first. -/
def opImgload (l : List Byte) (s : State) : Answer :=
  let bank := bytesAt l 0 1
  let off := bytesAt l 4 4
  let data := l.drop 8
  let a := bankBase (bank == 1) + off
  if 1 < bank then no 0x43 s
  else if bank = s.get F.KEEP_STAT_BANK then no 0x52 s
  else if bankSize < off + data.length ∨ 240 < data.length then no 0x43 s
  else if imgMeets s a data.length then no 0x43 s
  else
    let sectors := (List.range ((a + data.length - 1) / 0x2000 + 1 - a / 0x2000)).map (fun i => (a / 0x2000 + i) * 0x2000)
    let t := sectors.foldl (fun t x => if imgMeets s x 0x2000 then t else bumpWrgen (nvmErase x t)) s
    ok [] ((bumpWrgen (t.setBytes a data)).modKeep (fun k => { k with imgWritten := k.imgWritten ++ [(a, data.length)] }))

/-- The bytes that IMGLOAD has written in a bank, forgotten; those of the other bank are kept. -/
def imgForget (b : Bool) (s : State) : State :=
  s.modKeep (fun k => { k with imgWritten := k.imgWritten.filter (fun r => !decide (bankBase b ≤ r.1 ∧ r.1 < bankBase b + bankSize)) })

/-- IMGCOMMIT (R568): where a new run of writes to that bank begins whatever the answer; the bank that verifies reads valid. -/
def opImgcommit (l : List Byte) (s : State) : Answer :=
  let bank := bytesAt l 0 1
  if 1 < bank then no 0x43 s
  else if bank = s.get F.KEEP_STAT_BANK then no 0x52 s
  else
    let t := imgForget (bank == 1) s
    if verifyCommit s (bank == 1) then
      ok [] (changeRecord (fun p => { p with pref := bank, trial := 1 })
        (t.put (if bank = 1 then F.KEEP_BOOT_VALB else F.KEEP_BOOT_VALA) 1))
    else no 0x54 t

/-- TIMESET: the clock of a time master is stepped once. -/
def opTimeset (l : List Byte) (s : State) : Answer :=
  let ns := bytesAt l 4 4
  if s.on F.TIME_STAT_STEPPED || !s.on F.TIME_CTRL_MASTER then no 0x4F s
  else if 999999999 < ns then no 0x43 s
  else ok [] (stepNs (BitVec.ofNat 32 (2 ^ 31 + ns)) (s.put F.TIME_STEPSEC_SEC (bytesAt l 0 4)))

/-- PWRVOTE (R589): HOST holds every domain that the deepest permitted state needs. -/
def opPwrvote (l : List Byte) (s : State) : Answer :=
  let n := bytesAt l 0 1
  if 4 < n then no 0x43 s
  else if s.keep.start.isSome || s.keep.failWait then no 0x4F s
  else
    let t := hostVote .s (2 ^ (4 - n) - 1) s
    ok [BitVec.ofNat 8 (t.get F.PWR_STAT_STATE)] t

/-! ## The resume commands (R435) -/

/-- The number a transport has in an ARM. -/
def armCancelled (s : State) : State := (s.put F.SAFE_STAT_ARMED 0).modSafe (fun x => { x with armed := none })

/-- RESARM: a fresh token and its window. -/
def opResarm (t : Transport) (s : State) : Answer :=
  if !s.on F.SAFE_STAT_CUT then no 0x4F s
  else
    let token : BitVec 16 := s.free.setWidth 16
    ok (leBytes 2 token.toNat) ((s.drew.put F.SAFE_STAT_ARMED 1).modSafe (fun x => { x with armed := some ⟨token, chanIx t, false⟩ }))

/-- RESCONFIRM: V judges it and issues the clearing edge; a refused CONFIRM cancels the ARM. -/
def opResconfirm (t : Transport) (l : List Byte) (s : State) : Answer :=
  match s.safe.armed with
  | none => no 0x48 s
  | some a =>
    let s := armCancelled s
    if a.via ≠ chanIx t then no 0x48 s
    else if a.late then no 0x4A s
    else if a.token.toNat ≠ bytesAt l 0 2 then no 0x49 s
    else
      let clean := decide (s.get F.SAFE_CAUSE_CAUSE = 0)
      let s := safeCutWrite 0x100 s
      if clean then ok [] s else no 0x4B s

/-- S passes a resume command to V; with V not running nothing is answered before the time-out. -/
def toV (c : Call) (op : Nat) (act : List Byte → State → Answer) (s : State) : State :=
  match nextPacket s c.via (isOp op) with
  | none => s
  | some p =>
    if s.sys.vRuns || (refusal s c.via op p.payload.length).isSome then serve c (isOp op) act s else s

/-- V has not answered (R435). -/
def vSilent (t : Transport) (s : State) : State :=
  match nextPacket s t (fun op => op == 0x40 || op == 0x41) with
  | none => s
  | some p =>
    let s := if p.op = 0x41 then armCancelled s else s
    settle t (answerHead t 0x84 [] s)

/-! ## Challenges (R579, R580) -/

/-- 128 bits drawn. -/
def drawChallenge (s : State) : BitVec 128 × State :=
  let a := s.free
  let s := s.drew
  ((a.setWidth 128 <<< 64) ||| s.free.setWidth 128, s.drew)

/-- One second of the lane's timer. -/
def authWait : Nat := 200000000

/-- Whether a refusal after a failed signature still runs. -/
def blocked (s : State) (since : Option Nat) : Bool :=
  match since with | some t => decide (s.tick < t + authWait) | none => false

/-- RELCHAL. -/
def opRelchal (s : State) : Answer :=
  if !s.on F.KEEP_STAT_STOOD || blocked s s.keep.relBlock then no 0x4F s
  else
    let x := drawChallenge s
    ok (beBytes 16 x.1.toNat) ((x.2.put F.KEEP_AUTH_CHALREL 1).modKeep (fun k => { k with relChal := some x.1 }))

/-- DBGCHAL. -/
def opDbgchal (s : State) : Answer :=
  if blocked s s.keep.dbgBlock then no 0x4F s
  else
    let x := drawChallenge s
    ok (beBytes 16 x.1.toNat) ((x.2.put F.KEEP_AUTH_CHALDBG 1).modKeep (fun k => { k with dbgChal := some x.1 }))

/-- Whether a signature over a challenge verifies under slot 0 or any active customer slot. -/
def challengeOk (purpose : Byte) (c : BitVec 128) (l : List Byte) (s : State) : Bool :=
  let m := purpose :: (beBytes 16 c.toNat ++ beBytes 16 Config.uid.toNat ++ leBytes 2 (s.get F.SEAL_STRAP_WORD))
  (0 :: s.keep.store.customers).any (fun k =>
    s.keep.store.slot k == 1 && sm2Verify (s.keep.store.key k) m (BitVec.ofNat 512 (beValue l)))

/-- RELEASE (R561). -/
def opRelease (l : List Byte) (s : State) : Answer :=
  if !s.on F.KEEP_STAT_STOOD then no 0x4F s
  else
    match s.keep.relChal with
    | none => no 0x51 s
    | some c =>
      let s := (s.put F.KEEP_AUTH_CHALREL 0).modKeep (fun k => { k with relChal := none })
      if challengeOk 0x52 c l s then
        ok [] ((s.put F.KEEP_FAIL_NFAIL 0).modKeep (fun k => { k with stood := false, failTimes := [], releasing := true }))
      else no 0x51 ((s.sat F.KEEP_AUTH_RELFAIL).modKeep (fun k => { k with relBlock := some s.tick }))

/-- DBGOPEN (R582). -/
def opDbgopen (l : List Byte) (s : State) : Answer :=
  match s.keep.dbgChal with
  | none => no 0x51 s
  | some c =>
    let s := (s.put F.KEEP_AUTH_CHALDBG 0).modKeep (fun k => { k with dbgChal := none })
    if challengeOk 0x44 c l s then
      ok [] (followVotes (showMeasures ((s.put F.KEEP_STAT_DBGOPEN 1).modKeep (fun k => { k with dbgOpened := true }))))
    else no 0x51 ((s.sat F.KEEP_AUTH_DBGFAIL).modKeep (fun k => { k with dbgBlock := some s.tick }))

/-- A challenge lapses. -/
def lapse (k : ChallengeKind) (s : State) : State :=
  match k with
  | .release => (s.put F.KEEP_AUTH_CHALREL 0).modKeep (fun x => { x with relChal := none })
  | .debug => (s.put F.KEEP_AUTH_CHALDBG 0).modKeep (fun x => { x with dbgChal := none })

/-! ## Sent frames, and sync frames (R467, R513, R529) -/

/-- The transport of a controller. -/
def netTransport (n : CanCtl) : Option Transport := if n = 0 then some .c0 else if n = 1 then some .c1 else none

/-- Once object 28 no longer holds a reply that has been discarded, S loads the one queued since (R532). -/
def staleGone (n : CanCtl) (s : State) : State :=
  match netTransport n with
  | none => s
  | some t =>
    if s.on (F.CAN_TSTAT_TXREQ n 28) || !bitAt s.host.stale.toNat n then s
    else
      let s := s.modHost (fun h => { h with stale := BitVec.ofNat 2 (withBit h.stale.toNat n false) })
      match (channel s t).replies with
      | [] => s
      | r :: _ => canSend n 28 (replyId s) true (replyBytes 0 r) s

/-- The nominal bit time of a controller in nanoseconds (R457). -/
def canBitNs (s : State) (n : CanCtl) : Nat :=
  5 * (s.get (F.CAN_NBT_NBRP n) + 1) * (3 + s.get (F.CAN_NBT_NTSEG1 n) + s.get (F.CAN_NBT_NTSEG2 n))

/-- The completion of a sync frame, which S stamps and refers to the frame's reference instant, the sixth bit of its end of frame and so one nominal
bit before the completion (R467, R512). -/
def syncSent (n : CanCtl) (s : State) : State :=
  let s := stampTaken s
  let now := some (timeBefore (timeNow s) (canBitNs s n))
  if n = 0 then s.modTime (fun t => { t with txAt0 := now }) else if n = 1 then s.modTime (fun t => { t with txAt1 := now }) else s

/-- A frame sent: a reply in object 28 of CAN0 or CAN1 leaves its pool, a sync frame of the time master on one of them is stamped. -/
def frameSent (n : CanCtl) (s : State) : State :=
  let done (k : Fin 32) : Bool := s.can[n.val].active == some (k, true)
  let stale := bitAt s.host.stale.toNat n
  let k : Fin 32 := ⟨s.get F.TIME_SYNC_TOBJ % 32, Nat.mod_lt _ (by decide)⟩
  let u := canSent n s
  let u := u.when (decide (n.val < 2) && done k && s.on F.TIME_CTRL_EN && s.on F.TIME_CTRL_MASTER) (syncSent n)
  match netTransport n with
  | some t => staleGone n (if done 28 && !stale then replyGone t u else u)
  | none => u

/-- A transmission that failed; a reply discarded before may be gone with it. -/
def frameFailed (n : CanCtl) (k : TxErrorKind) (s : State) : State := staleGone n (canTxError n k s)

/-- A sync frame of the time master on a network: the time of the frame before as S has stamped it (R512), where one was sent. -/
def syncOut (net : Fin 2) (sec ns : Word) (s : State) : State :=
  if s.on F.TIME_CTRL_EN && s.on F.TIME_CTRL_MASTER then
    let n : CanCtl := if net = 0 then 0 else 1
    let k : Fin 32 := ⟨s.get F.TIME_SYNC_TOBJ % 32, Nat.mod_lt _ (by decide)⟩
    let old := if net = 0 then s.time.txSeq0 else s.time.txSeq1
    let at_ := if net = 0 then s.time.txAt0 else s.time.txAt1
    let seq : Byte := match old with | some q => q + 1 | none => 0
    if s.on (F.CAN_TSTAT_TXREQ n k) then s
    else
      let s := s.modTime (fun t =>
        if net = 0 then { t with txSeq0 := some seq, txAt0 := none } else { t with txSeq1 := some seq, txAt1 := none })
      let data := match at_ with
        | some x => syncBytes seq true (stampNear x sec ns).1 (stampNear x sec ns).2
        | none => syncBytes seq false 0 0
      canSend n k (s.get F.TIME_SYNC_SYNCID) true data s
  else s

/-! ## Frames in the objects that S reserves (R478, R512, R513, R538) -/

/-- Whether the frame stored in an object is a sync frame by its form (R513): SYNCID in base format, FD with BRS. -/
def syncForm (s : State) (o : CanObj) : Bool :=
  !bitAt o.id.toNat 29 && o.id.toNat / 2 ^ 18 % 2 ^ 11 == s.get F.TIME_SYNC_SYNCID && bitAt o.ctl.toNat 4 && bitAt o.ctl.toNat 5

/-- What S does with a frame stored in an object of CAN0 or CAN1, whose NEWDAT it clears: a command packet, a confirmation, a broadcast, a lane
status, a sync frame. The commands that name such a frame stand for S taking it. -/
def serviceTakes (n : CanCtl) (k : Nat) (s : State) : State :=
  if 2 ≤ n.val || !issues s .s then s
  else
    let net : Fin 2 := if n = 0 then 0 else 1
    let l := (canObj s n k).bytes.take (canObj s n k).len
    let read (s : State) : State := s.put (F.CAN_RSTAT_NEWDAT n k) 0
    if k = 83 then canCommand net l (read s)
    else if 84 ≤ k ∧ k ≤ 91 then confirmationIn (k - 84) (read s)
    else if k = 92 then chassisIn net l (read s)
    else if h : 93 ≤ k ∧ k ≤ 95 then laneStatusIn net ⟨k - 93, by omega⟩ l (read s)
    else if s.on F.TIME_CTRL_EN && k == s.get F.TIME_SYNC_SOBJ && syncForm s (canObj s n k) then syncFrameIn net l (read s)
    else s

/-- A frame received (R460): stored in its object, and taken by S where the object is one that S reserves. -/
def frameHeard (n : CanCtl) (f : CanFrame) (s : State) : State :=
  let target := if canMode s n = 3 then none else canTarget s n f
  let s := canReceive n f s
  match target with
  | some k => serviceTakes n k s
  | none => s

/-! ## Commands -/

/-- SPI_WRITE_TRANSACTION (R522). -/
def execSpiWriteTransaction (bytes : List Byte) (s : State) : Out := .next (spiWrite bytes s)
/-- SPI_READ_TRANSACTION (R523). -/
def execSpiReadTransaction (clocked : Nat) (s : State) : Out := .next (spiRead clocked s)
/-- CAN_COMMAND_FRAME (R539). -/
def execCanCommandFrame (net : Fin 2) (bytes : List Byte) (s : State) : Out := .next (canCommand net bytes s)
/-- MAILBOX_ACK (R540). -/
def execMailboxAck (s : State) : Out := clockedOut s <| .next (mboxAck s)
/-- MAILBOX_TIMEOUT (R541). -/
def execMailboxTimeout (s : State) : Out := clockedOut s <| .next (mboxLate s)
/-- SESSION_TIMEOUT (R534). -/
def execSessionTimeout (s : State) : Out := clockedOut s <| .next (s.put F.HOST_STAT_SESSION 0)
/-- NOP (R542). -/
def execNop (c : Call) (s : State) : Out := .next (serve c (isOp 0x00) (fun _ s => ok [] s) s)
/-- OPEN (R534). -/
def execOpenSession (c : Call) (s : State) : Out := .next (serve c (isOp 0x01) (fun _ s => opOpen s) s)
/-- CLOSE (R534). -/
def execCloseSession (c : Call) (s : State) : Out := .next (serve c (isOp 0x02) (fun _ s => opClose s) s)
/-- INFO (R542). -/
def execInfo (c : Call) (s : State) : Out := .next (serve c (isOp 0x03) (fun _ s => opInfo s) s)
/-- ECHO (R542). -/
def execEcho (c : Call) (s : State) : Out := .next (serve c (isOp 0x04) (opEcho c.via) s)
/-- LANESTAT (R542). -/
def execLanestat (c : Call) (s : State) : Out := .next (serve c (isOp 0x10) (fun _ s => opLanestat s) s)
/-- READREG (R542). -/
def execReadreg (c : Call) (s : State) : Out := .next (serve c (isOp 0x11) (opReadreg c.via) s)
/-- FAULTS (R542). -/
def execFaults (c : Call) (s : State) : Out := .next (serve c (isOp 0x12) (fun _ s => opFaults s) s)
/-- POSITION (R542). -/
def execPosition (c : Call) (s : State) : Out := .next (serve c (isOp 0x13) opPosition s)
/-- WRITEREG (R542). -/
def execWritereg (c : Call) (s : State) : Out := .next (serve c (isOp 0x20) opWritereg s)
/-- APPCMD (R540). -/
def execAppcmd (c : Call) (s : State) : Out := .next (pass c 0x21 s)
/-- CFGLOAD (R574). -/
def execCfgload (c : Call) (s : State) : Out := .next (serve c (isOp 0x22) opCfgload s)
/-- CFGCOMMIT (R574). -/
def execCfgcommit (c : Call) (s : State) : Out := .next (serve c (isOp 0x23) opCfgcommit s)
/-- IMGLOAD (R568). -/
def execImgload (c : Call) (s : State) : Out := .next (serve c (isOp 0x24) opImgload s)
/-- IMGCOMMIT (R568). -/
def execImgcommit (c : Call) (s : State) : Out := .next (serve c (isOp 0x25) opImgcommit s)
/-- SETPOINT (R542). -/
def execSetpoint (c : Call) (s : State) : Out := .next (pass c 0x30 s)
/-- DRIVE (R542). -/
def execDrive (c : Call) (s : State) : Out := .next (pass c 0x31 s)
/-- HALT (R542). -/
def execHaltMotion (c : Call) (s : State) : Out := .next (pass c 0x32 s)
/-- WITHDRAW (R542). -/
def execWithdraw (c : Call) (s : State) : Out := .next (pass c 0x33 s)
/-- HANDOVER (R542). -/
def execHandover (c : Call) (s : State) : Out := .next (pass c 0x34 s)
/-- RESARM (R435). -/
def execResarm (c : Call) (s : State) : Out := .next (toV c 0x40 (fun _ s => opResarm c.via s) s)
/-- RESCONFIRM (R435). -/
def execResconfirm (c : Call) (s : State) : Out := .next (toV c 0x41 (opResconfirm c.via) s)
/-- SWITCHBACK (R542). -/
def execSwitchback (c : Call) (s : State) : Out := .next (pass c 0x42 s)
/-- SAFESTAT (R542). -/
def execSafestat (c : Call) (s : State) : Out := .next (serve c (isOp 0x43) (fun _ s => opSafestat s) s)
/-- TIMEGET (R542). -/
def execTimeget (c : Call) (s : State) : Out := .next (serve c (isOp 0x50) (fun _ s => opTimeget s) s)
/-- TIMESET (R542). -/
def execTimeset (c : Call) (s : State) : Out := .next (serve c (isOp 0x51) opTimeset s)
/-- REELREAD (R616). -/
def execReelread (c : Call) (s : State) : Out := .next (serve c (isOp 0x60) (opReelread c.via) s)
/-- LOGREAD (R542). -/
def execLogread (c : Call) (s : State) : Out := .next (serve c (isOp 0x61) opLogread s)
/-- LEDGER (R542). -/
def execLedger (c : Call) (s : State) : Out := .next (serve c (isOp 0x62) opLedger s)
/-- ATTEST (R578). -/
def execAttest (c : Call) (s : State) : Out := .next (serve c (isOp 0x70) opAttest s)
/-- MEASURE (R577). -/
def execMeasure (c : Call) (s : State) : Out := .next (serve c (isOp 0x71) opMeasure s)
/-- RELCHAL (R579). -/
def execRelchal (c : Call) (s : State) : Out := .next (serve c (isOp 0x72) (fun _ s => opRelchal s) s)
/-- RELEASE (R561). -/
def execReleaseStandDown (c : Call) (s : State) : Out := .next (serve c (isOp 0x73) opRelease s)
/-- DBGCHAL (R579). -/
def execDbgchal (c : Call) (s : State) : Out := .next (serve c (isOp 0x74) (fun _ s => opDbgchal s) s)
/-- DBGOPEN (R582). -/
def execDbgopen (c : Call) (s : State) : Out := .next (serve c (isOp 0x75) opDbgopen s)
/-- PWRGET (R542). -/
def execPwrget (c : Call) (s : State) : Out := .next (serve c (isOp 0x80) (fun _ s => opPwrget s) s)
/-- PWRVOTE (R589). -/
def execPwrvote (c : Call) (s : State) : Out := .next (serve c (isOp 0x81) opPwrvote s)
/-- WAKEREC (R606). -/
def execWakerec (c : Call) (s : State) : Out := .next (serve c (isOp 0x82) (fun _ s => opWakerec s) s)
/-- VENDOR_SERVICE (R542): AUTH, since the spec gives no vendor authentication. -/
def execVendorService (c : Call) (s : State) : Out :=
  .next (serve c (fun op => decide (0xF0 ≤ op)) (fun _ s => no 0x51 s) s)
/-- SUPERVISOR_REPLY_TIMEOUT (R435). -/
def execSupervisorReplyTimeout (t : Transport) (s : State) : Out := .next (vSilent t s)
/-- CHALLENGE_LAPSE (R579). -/
def execChallengeLapse (k : ChallengeKind) (s : State) : Out := .next (lapse k s)
/-- TRANSMIT_COMPLETE (R467). -/
def execTransmitComplete (n : CanCtl) (s : State) : Out := clockedOut s <| .next (frameSent n s)
/-- CAN_FRAME_RECEIVED (R460). -/
def execCanFrameReceived (n : CanCtl) (f : CanFrame) (s : State) : Out := clockedOut s <| .next (frameHeard n f s)
/-- TRANSMIT_ERROR (R469). -/
def execTransmitError (n : CanCtl) (k : TxErrorKind) (s : State) : Out := clockedOut s <| .next (frameFailed n k s)
/-- SYNC_SEND (R513). -/
def execSyncSend (net : Fin 2) (prevSec prevNs : Word) (s : State) : Out := clockedOut s <| .next (syncOut net prevSec prevNs s)
/-- SYNC_SAMPLE (R515). -/
def execSyncSample (net : Fin 2) (f : SyncFrame) (stampSec stampNs : Word) (rateEst : Int) (s : State) : Out :=
  clockedOut s <| .next (syncReceived net f stampSec stampNs rateEst s)
/-- SYNC_TIMEOUT (R515). -/
def execSyncTimeout (s : State) : Out := clockedOut s <| .next (syncMissed s)

end Sys2Proof.Machine
end

