-- ==== Sys2Proof/Machine/Dispatch.lean ====
section
/-!
DEFINITION. The meaning of every command, one arm per constructor, in the opcode table's order.
-/
namespace Sys2Proof.Machine

def exec (i : Instr) (s : State) : Host.Outcome State Fault Refusal :=
  match i with
  | .registerWrite r addr val => Sys2Proof.Machine.execRegisterWrite r addr val s
  | .readClear r addr => Sys2Proof.Machine.execReadClear r addr s
  | .memoryAccess r m => Sys2Proof.Machine.execMemoryAccess r m s
  | .serviceRestart => Sys2Proof.Machine.execServiceRestart s
  | .gafferRestart => Sys2Proof.Machine.execGafferRestart s
  | .buserrValidClear => Sys2Proof.Machine.execBuserrValidClear s
  | .configLinkFrame => Sys2Proof.Machine.execConfigLinkFrame s
  | .configLinkLoss => Sys2Proof.Machine.execConfigLinkLoss s
  | .logicLinkLoss => Sys2Proof.Machine.execLogicLinkLoss s
  | .clockMonitorWindow vrcDev aorcDev => Sys2Proof.Machine.execClockMonitorWindow vrcDev aorcDev s
  | .pllLossOfLock => Sys2Proof.Machine.execPllLossOfLock s
  | .dcacheInvalidate p addr => Sys2Proof.Machine.execDcacheInvalidate p addr s
  | .fenceI p => Sys2Proof.Machine.execFenceI p s
  | .checkpointSignature p prog => Sys2Proof.Machine.execCheckpointSignature p prog s
  | .checkedEgressWrite p addr val agreed => Sys2Proof.Machine.execCheckedEgressWrite p addr val agreed s
  | .lockstepFault p f => Sys2Proof.Machine.execLockstepFault p f s
  | .vLockstepReaction => Sys2Proof.Machine.execVLockstepReaction s
  | .dblFaultClear p => Sys2Proof.Machine.execDblFaultClear p s
  | .asyncInputChange p input mainSample doubleSample => Sys2Proof.Machine.execAsyncInputChange p input mainSample doubleSample s
  | .pairRelease p => Sys2Proof.Machine.execPairRelease p s
  | .injectionTestStart pairs => Sys2Proof.Machine.execInjectionTestStart pairs s
  | .injectionTestDone res => Sys2Proof.Machine.execInjectionTestDone res s
  | .debugHalt p => Sys2Proof.Machine.execDebugHalt p s
  | .debugResume p => Sys2Proof.Machine.execDebugResume p s
  | .debugSingleStep p => Sys2Proof.Machine.execDebugSingleStep p s
  | .debugRegisterAccess p reg write => Sys2Proof.Machine.execDebugRegisterAccess p reg write s
  | .debugProgramBuffer p program => Sys2Proof.Machine.execDebugProgramBuffer p program s
  | .debugTriggerWrite p index val => Sys2Proof.Machine.execDebugTriggerWrite p index val s
  | .angleClockTick => Sys2Proof.Machine.execAngleClockTick s
  | .angleReload b => Sys2Proof.Machine.execAngleReload b s
  | .stillTimeout b => Sys2Proof.Machine.execStillTimeout b s
  | .angSrcWrite b src => Sys2Proof.Machine.execAngSrcWrite b src s
  | .angEnable b => Sys2Proof.Machine.execAngEnable b s
  | .cueFallbackFire b n => Sys2Proof.Machine.execCueFallbackFire b n s
  | .cueDispatch b => Sys2Proof.Machine.execCueDispatch b s
  | .cueLinePulseEnd b line => Sys2Proof.Machine.execCueLinePulseEnd b line s
  | .cuePosWrite b n val => Sys2Proof.Machine.execCuePosWrite b n val s
  | .cueCfgWrite b n val => Sys2Proof.Machine.execCueCfgWrite b n val s
  | .carrierValley b ref => Sys2Proof.Machine.execCarrierValley b ref s
  | .carrierPeak b ref => Sys2Proof.Machine.execCarrierPeak b ref s
  | .sincosSample k sRaw cRaw => Sys2Proof.Machine.execSincosSample k sRaw cRaw s
  | .abzEdge k a b => Sys2Proof.Machine.execAbzEdge k a b s
  | .edgeResample k lines => Sys2Proof.Machine.execEdgeResample k lines s
  | .indexEdge k rising => Sys2Proof.Machine.execIndexEdge k rising s
  | .hallEdge k code => Sys2Proof.Machine.execHallEdge k code s
  | .sentFrame ch fr => Sys2Proof.Machine.execSentFrame ch fr s
  | .sentTimeout ch => Sys2Proof.Machine.execSentTimeout ch s
  | .edgeStandstill k v_i => Sys2Proof.Machine.execEdgeStandstill k v_i s
  | .creepSample k v_i => Sys2Proof.Machine.execCreepSample k v_i s
  | .mtSet k val => Sys2Proof.Machine.execMtSet k val s
  | .posReval k mask => Sys2Proof.Machine.execPosReval k mask s
  | .sentReval ch => Sys2Proof.Machine.execSentReval ch s
  | .borrowTimeout => Sys2Proof.Machine.execBorrowTimeout s
  | .compareValWrite unit val => Sys2Proof.Machine.execCompareValWrite unit val s
  | .emuStep => Sys2Proof.Machine.execEmuStep s
  | .windowOpen b profile => Sys2Proof.Machine.execWindowOpen b profile s
  | .windowEnd b bits1 bits2 => Sys2Proof.Machine.execWindowEnd b bits1 bits2 s
  | .bitstreamSaturation ch => Sys2Proof.Machine.execBitstreamSaturation ch s
  | .bitstreamStuck ch => Sys2Proof.Machine.execBitstreamStuck ch s
  | .sampleTimeout b => Sys2Proof.Machine.execSampleTimeout b s
  | .isnsReval mask => Sys2Proof.Machine.execIsnsReval mask s
  | .meanWindowEnd => Sys2Proof.Machine.execMeanWindowEnd s
  | .meanPublish => Sys2Proof.Machine.execMeanPublish s
  | .vCurrentCompare mean0 mean1 mean2 mean3 => Sys2Proof.Machine.execVCurrentCompare mean0 mean1 mean2 mean3 s
  | .vVmotCompare vMean => Sys2Proof.Machine.execVVmotCompare vMean s
  | .vRailCheck vio vana vrefsc vrefv => Sys2Proof.Machine.execVRailCheck vio vana vrefsc vrefv s
  | .calibrationRequest b => Sys2Proof.Machine.execCalibrationRequest b s
  | .calibrationDone b m1 m2 => Sys2Proof.Machine.execCalibrationDone b m1 m2 s
  | .calibrationAbort b byWindow => Sys2Proof.Machine.execCalibrationAbort b byWindow s
  | .activationDispatch e => Sys2Proof.Machine.execActivationDispatch e s
  | .softwareTrigger e ep => Sys2Proof.Machine.execSoftwareTrigger e ep s
  | .engineEnable mask => Sys2Proof.Machine.execEngineEnable mask s
  | .loopOpenRequest e openLoop => Sys2Proof.Machine.execLoopOpenRequest e openLoop s
  | .bankSwitchRequest e bank => Sys2Proof.Machine.execBankSwitchRequest e bank s
  | .bindWrite e bind => Sys2Proof.Machine.execBindWrite e bind s
  | .coefficientWrite r e bank word val => Sys2Proof.Machine.execCoefficientWrite r e bank word val s
  | .engineRestart e => Sys2Proof.Machine.execEngineRestart e s
  | .engineFault e cause => Sys2Proof.Machine.execEngineFault e cause s
  | .engineWatchdog e => Sys2Proof.Machine.execEngineWatchdog e s
  | .engineParityError e => Sys2Proof.Machine.execEngineParityError e s
  | .mov e d a => Sys2Proof.Machine.execMov e d a s
  | .ldi e d imm => Sys2Proof.Machine.execLdi e d imm s
  | .add e d a b => Sys2Proof.Machine.execAdd e d a b s
  | .adds e d a b => Sys2Proof.Machine.execAdds e d a b s
  | .sub e d a b => Sys2Proof.Machine.execSub e d a b s
  | .subs e d a b => Sys2Proof.Machine.execSubs e d a b s
  | .neg e d a => Sys2Proof.Machine.execNeg e d a s
  | .negs e d a => Sys2Proof.Machine.execNegs e d a s
  | .abs e d a => Sys2Proof.Machine.execAbs e d a s
  | .min e d a b => Sys2Proof.Machine.execMin e d a b s
  | .max e d a b => Sys2Proof.Machine.execMax e d a b s
  | .shl e d a n => Sys2Proof.Machine.execShl e d a n s
  | .shr e d a n => Sys2Proof.Machine.execShr e d a n s
  | .andOp e d a b => Sys2Proof.Machine.execAndOp e d a b s
  | .orOp e d a b => Sys2Proof.Machine.execOrOp e d a b s
  | .xorOp e d a b => Sys2Proof.Machine.execXorOp e d a b s
  | .cmp e a b => Sys2Proof.Machine.execCmp e a b s
  | .ld e d m => Sys2Proof.Machine.execLd e d m s
  | .st e m a => Sys2Proof.Machine.execSt e m a s
  | .ldc e d m => Sys2Proof.Machine.execLdc e d m s
  | .stc e m a => Sys2Proof.Machine.execStc e m a s
  | .mpy e acc o => Sys2Proof.Machine.execMpy e acc o s
  | .mac e acc o => Sys2Proof.Machine.execMac e acc o s
  | .msu e acc o => Sys2Proof.Machine.execMsu e acc o s
  | .dmac e o0 o1 => Sys2Proof.Machine.execDmac e o0 o1 s
  | .dmsu e o0 o1 => Sys2Proof.Machine.execDmsu e o0 o1 s
  | .dmpy e o0 o1 => Sys2Proof.Machine.execDmpy e o0 o1 s
  | .clr e acc => Sys2Proof.Machine.execClr e acc s
  | .ash e acc n => Sys2Proof.Machine.execAsh e acc n s
  | .rnd e d acc => Sys2Proof.Machine.execRnd e d acc s
  | .rndc e d acc => Sys2Proof.Machine.execRndc e d acc s
  | .intg e d state err gain => Sys2Proof.Machine.execIntg e d state err gain s
  | .biq e d x coef state => Sys2Proof.Machine.execBiq e d x coef state s
  | .sincos e ds dc a => Sys2Proof.Machine.execSincos e ds dc a s
  | .atan2 e d y x => Sys2Proof.Machine.execAtan2 e d y x s
  | .sqrt e d a => Sys2Proof.Machine.execSqrt e d a s
  | .div e d a b => Sys2Proof.Machine.execDiv e d a b s
  | .br e target => Sys2Proof.Machine.execBr e target s
  | .brc e flag target => Sys2Proof.Machine.execBrc e flag target s
  | .loopOp e count last => Sys2Proof.Machine.execLoopOp e count last s
  | .setc e ix len => Sys2Proof.Machine.execSetc e ix len s
  | .inPort e d port => Sys2Proof.Machine.execInPort e d port s
  | .outPort e port a => Sys2Proof.Machine.execOutPort e port a s
  | .outPortL e port a => Sys2Proof.Machine.execOutPortL e port a s
  | .postedWriteComplete e => Sys2Proof.Machine.execPostedWriteComplete e s
  | .trig e target ep => Sys2Proof.Machine.execTrig e target ep s
  | .endAct e => Sys2Proof.Machine.execEndAct e s
  | .illegalInstruction e => Sys2Proof.Machine.execIllegalInstruction e s
  | .dCapture val => Sys2Proof.Machine.execDCapture val s
  | .dutyCommit b val => Sys2Proof.Machine.execDutyCommit b val s
  | .clampEnd b => Sys2Proof.Machine.execClampEnd b s
  | .comparatorReport b pcomp lcode => Sys2Proof.Machine.execComparatorReport b pcomp lcode s
  | .zcWindowMiss b => Sys2Proof.Machine.execZcWindowMiss b s
  | .startDecision b val => Sys2Proof.Machine.execStartDecision b val s
  | .listenTimeout b => Sys2Proof.Machine.execListenTimeout b s
  | .modeReqOff b val => Sys2Proof.Machine.execModeReqOff b val s
  | .modeReqReturn b val => Sys2Proof.Machine.execModeReqReturn b val s
  | .mcEnableWrite b val => Sys2Proof.Machine.execMcEnableWrite b val s
  | .gateCommandEdge b j on => Sys2Proof.Machine.execGateCommandEdge b j on s
  | .gateWatchAdmit b j => Sys2Proof.Machine.execGateWatchAdmit b j s
  | .gateWatchTimeout b j => Sys2Proof.Machine.execGateWatchTimeout b j s
  | .gatePhaseEnd b j => Sys2Proof.Machine.execGatePhaseEnd b j s
  | .slopeTimeout b j => Sys2Proof.Machine.execSlopeTimeout b j s
  | .gateSagFault b j => Sys2Proof.Machine.execGateSagFault b j s
  | .blankingEnd b j => Sys2Proof.Machine.execBlankingEnd b j s
  | .hardShortTrip b j => Sys2Proof.Machine.execHardShortTrip b j s
  | .normalShortTrip b j => Sys2Proof.Machine.execNormalShortTrip b j s
  | .legEnable b legs => Sys2Proof.Machine.execLegEnable b legs s
  | .vmotMeasure v => Sys2Proof.Machine.execVmotMeasure v s
  | .ov1Reached => Sys2Proof.Machine.execOv1Reached s
  | .ov1Ended => Sys2Proof.Machine.execOv1Ended s
  | .ov2Reached => Sys2Proof.Machine.execOv2Reached s
  | .ov2Ended => Sys2Proof.Machine.execOv2Ended s
  | .undervoltageBegin vmot vdrv => Sys2Proof.Machine.execUndervoltageBegin vmot vdrv s
  | .undervoltageEnd => Sys2Proof.Machine.execUndervoltageEnd s
  | .driverPowerUp => Sys2Proof.Machine.execDriverPowerUp s
  | .linkTrainingDone e trained rtt turnaround peer => Sys2Proof.Machine.execLinkTrainingDone e trained rtt turnaround peer s
  | .linkLost e => Sys2Proof.Machine.execLinkLost e s
  | .linkRetrain e => Sys2Proof.Machine.execLinkRetrain e s
  | .retrainRequest e => Sys2Proof.Machine.execRetrainRequest e s
  | .noticeReceived e f => Sys2Proof.Machine.execNoticeReceived e f s
  | .claimReceived e f => Sys2Proof.Machine.execClaimReceived e f s
  | .xcurReceived e f => Sys2Proof.Machine.execXcurReceived e f s
  | .xrefReceived e f => Sys2Proof.Machine.execXrefReceived e f s
  | .setopReceived e f => Sys2Proof.Machine.execSetopReceived e f s
  | .setopApply => Sys2Proof.Machine.execSetopApply s
  | .beatReceived e f => Sys2Proof.Machine.execBeatReceived e f s
  | .beatSend => Sys2Proof.Machine.execBeatSend s
  | .contFrameReceived e f => Sys2Proof.Machine.execContFrameReceived e f s
  | .continuitySlot => Sys2Proof.Machine.execContinuitySlot s
  | .shareReceived e f => Sys2Proof.Machine.execShareReceived e f s
  | .formReceived e f => Sys2Proof.Machine.execFormReceived e f s
  | .trainReceived e f => Sys2Proof.Machine.execTrainReceived e f s
  | .formationWindowEnd => Sys2Proof.Machine.execFormationWindowEnd s
  | .slateReceived e err outer => Sys2Proof.Machine.execSlateReceived e err outer s
  | .leadinEdge v_i level => Sys2Proof.Machine.execLeadinEdge v_i level s
  | .beatStopTimeout v_i => Sys2Proof.Machine.execBeatStopTimeout v_i s
  | .continuityCheck => Sys2Proof.Machine.execContinuityCheck s
  | .transferTick => Sys2Proof.Machine.execTransferTick s
  | .claimWaitTimeout => Sys2Proof.Machine.execClaimWaitTimeout s
  | .withdrawRequest => Sys2Proof.Machine.execWithdrawRequest s
  | .swapRequest bank => Sys2Proof.Machine.execSwapRequest bank s
  | .switchbackGo => Sys2Proof.Machine.execSwitchbackGo s
  | .plannedHandover => Sys2Proof.Machine.execPlannedHandover s
  | .laneStatusSend => Sys2Proof.Machine.execLaneStatusSend s
  | .laneStatusReceived net peer data => Sys2Proof.Machine.execLaneStatusReceived net peer data s
  | .laneStatusTimeout peer => Sys2Proof.Machine.execLaneStatusTimeout peer s
  | .xrefDeadline => Sys2Proof.Machine.execXrefDeadline s
  | .chassisBroadcastReceived net data => Sys2Proof.Machine.execChassisBroadcastReceived net data s
  | .supervisorKick => Sys2Proof.Machine.execSupervisorKick s
  | .supervisorWatchdogExpiry => Sys2Proof.Machine.execSupervisorWatchdogExpiry s
  | .cutSetCommand cause => Sys2Proof.Machine.execCutSetCommand cause s
  | .commandClear => Sys2Proof.Machine.execCommandClear s
  | .causeClear mask => Sys2Proof.Machine.execCauseClear mask s
  | .stopNLowQualified => Sys2Proof.Machine.execStopNLowQualified s
  | .stopNHighQualified => Sys2Proof.Machine.execStopNHighQualified s
  | .resumePulse rising lowMs => Sys2Proof.Machine.execResumePulse rising lowMs s
  | .resumeJam => Sys2Proof.Machine.execResumeJam s
  | .resumeJamClear => Sys2Proof.Machine.execResumeJamClear s
  | .armWindowExpiry => Sys2Proof.Machine.execArmWindowExpiry s
  | .supervisorReplyTimeout tr => Sys2Proof.Machine.execSupervisorReplyTimeout tr s
  | .isolationClose b => Sys2Proof.Machine.execIsolationClose b s
  | .isolationOpen b => Sys2Proof.Machine.execIsolationOpen b s
  | .isoFeedbackChange v_i isOpen => Sys2Proof.Machine.execIsoFeedbackChange v_i isOpen s
  | .isoFeedbackTimeout v_i => Sys2Proof.Machine.execIsoFeedbackTimeout v_i s
  | .twinVerdict k => Sys2Proof.Machine.execTwinVerdict k s
  | .vNetstopReaction => Sys2Proof.Machine.execVNetstopReaction s
  | .canFrameReceived n f => Sys2Proof.Machine.execCanFrameReceived n f s
  | .canWindowWrite n off val => Sys2Proof.Machine.execCanWindowWrite n off val s
  | .transmitRequest n obj => Sys2Proof.Machine.execTransmitRequest n obj s
  | .arbitration n win delay => Sys2Proof.Machine.execArbitration n win delay s
  | .transmitComplete n => Sys2Proof.Machine.execTransmitComplete n s
  | .transmitError n k => Sys2Proof.Machine.execTransmitError n k s
  | .transmitCancel n obj => Sys2Proof.Machine.execTransmitCancel n obj s
  | .busOffRecover n => Sys2Proof.Machine.execBusOffRecover n s
  | .recoveryDone n => Sys2Proof.Machine.execRecoveryDone n s
  | .busOffRecoverTimer n => Sys2Proof.Machine.execBusOffRecoverTimer n s
  | .opmodeWrite n mode => Sys2Proof.Machine.execOpmodeWrite n mode s
  | .busIdle n => Sys2Proof.Machine.execBusIdle n s
  | .canEnableWrite n en => Sys2Proof.Machine.execCanEnableWrite n en s
  | .bitrateDetectStart n => Sys2Proof.Machine.execBitrateDetectStart n s
  | .abdCandidateTimeout n => Sys2Proof.Machine.execAbdCandidateTimeout n s
  | .usileEnable en mon => Sys2Proof.Machine.execUsileEnable en mon s
  | .usileCycleStart => Sys2Proof.Machine.execUsileCycleStart s
  | .pollStart k lineIdle => Sys2Proof.Machine.execPollStart k lineIdle s
  | .pollEnd k => Sys2Proof.Machine.execPollEnd k s
  | .replyReceived k rep => Sys2Proof.Machine.execReplyReceived k rep s
  | .replyWindowTimeout k => Sys2Proof.Machine.execReplyWindowTimeout k s
  | .usileCycleEnd => Sys2Proof.Machine.execUsileCycleEnd s
  | .secondMasterDetected c readback => Sys2Proof.Machine.execSecondMasterDetected c readback s
  | .deferEnd => Sys2Proof.Machine.execDeferEnd s
  | .pollObserved c adr cmd => Sys2Proof.Machine.execPollObserved c adr cmd s
  | .timeNsRead r => Sys2Proof.Machine.execTimeNsRead r s
  | .timeRateWrite val => Sys2Proof.Machine.execTimeRateWrite val s
  | .timeStep val => Sys2Proof.Machine.execTimeStep val s
  | .ucycNsRead r => Sys2Proof.Machine.execUcycNsRead r s
  | .uptimeRead r => Sys2Proof.Machine.execUptimeRead r s
  | .syncSend net prevSec prevNs => Sys2Proof.Machine.execSyncSend net prevSec prevNs s
  | .syncSample net f stampSec stampNs rateEst => Sys2Proof.Machine.execSyncSample net f stampSec stampNs rateEst s
  | .syncTimeout => Sys2Proof.Machine.execSyncTimeout s
  | .spiWriteTransaction bytes => Sys2Proof.Machine.execSpiWriteTransaction bytes s
  | .spiReadTransaction clocked => Sys2Proof.Machine.execSpiReadTransaction clocked s
  | .canCommandFrame net bytes => Sys2Proof.Machine.execCanCommandFrame net bytes s
  | .mailboxAck => Sys2Proof.Machine.execMailboxAck s
  | .mailboxTimeout => Sys2Proof.Machine.execMailboxTimeout s
  | .sessionTimeout => Sys2Proof.Machine.execSessionTimeout s
  | .hostDisable => Sys2Proof.Machine.execHostDisable s
  | .nop tr => Sys2Proof.Machine.execNop tr s
  | .openSession tr => Sys2Proof.Machine.execOpenSession tr s
  | .closeSession tr => Sys2Proof.Machine.execCloseSession tr s
  | .info tr => Sys2Proof.Machine.execInfo tr s
  | .echo tr => Sys2Proof.Machine.execEcho tr s
  | .lanestat tr => Sys2Proof.Machine.execLanestat tr s
  | .readreg tr => Sys2Proof.Machine.execReadreg tr s
  | .faults tr => Sys2Proof.Machine.execFaults tr s
  | .position tr => Sys2Proof.Machine.execPosition tr s
  | .writereg tr => Sys2Proof.Machine.execWritereg tr s
  | .appcmd tr => Sys2Proof.Machine.execAppcmd tr s
  | .cfgload tr => Sys2Proof.Machine.execCfgload tr s
  | .cfgcommit tr => Sys2Proof.Machine.execCfgcommit tr s
  | .imgload tr => Sys2Proof.Machine.execImgload tr s
  | .imgcommit tr => Sys2Proof.Machine.execImgcommit tr s
  | .setpoint tr => Sys2Proof.Machine.execSetpoint tr s
  | .drive tr => Sys2Proof.Machine.execDrive tr s
  | .haltMotion tr => Sys2Proof.Machine.execHaltMotion tr s
  | .withdraw tr => Sys2Proof.Machine.execWithdraw tr s
  | .handover tr => Sys2Proof.Machine.execHandover tr s
  | .resarm tr => Sys2Proof.Machine.execResarm tr s
  | .resconfirm tr => Sys2Proof.Machine.execResconfirm tr s
  | .switchback tr => Sys2Proof.Machine.execSwitchback tr s
  | .safestat tr => Sys2Proof.Machine.execSafestat tr s
  | .timeget tr => Sys2Proof.Machine.execTimeget tr s
  | .timeset tr => Sys2Proof.Machine.execTimeset tr s
  | .reelread tr => Sys2Proof.Machine.execReelread tr s
  | .logread tr => Sys2Proof.Machine.execLogread tr s
  | .ledger tr => Sys2Proof.Machine.execLedger tr s
  | .attest tr => Sys2Proof.Machine.execAttest tr s
  | .measure tr => Sys2Proof.Machine.execMeasure tr s
  | .relchal tr => Sys2Proof.Machine.execRelchal tr s
  | .releaseStandDown tr => Sys2Proof.Machine.execReleaseStandDown tr s
  | .dbgchal tr => Sys2Proof.Machine.execDbgchal tr s
  | .dbgopen tr => Sys2Proof.Machine.execDbgopen tr s
  | .pwrget tr => Sys2Proof.Machine.execPwrget tr s
  | .pwrvote tr => Sys2Proof.Machine.execPwrvote tr s
  | .wakerec tr => Sys2Proof.Machine.execWakerec tr s
  | .vendorService tr => Sys2Proof.Machine.execVendorService tr s
  | .challengeLapse k => Sys2Proof.Machine.execChallengeLapse k s
  | .powerOnReset resumeLow => Sys2Proof.Machine.execPowerOnReset resumeLow s
  | .resetRelease => Sys2Proof.Machine.execResetRelease s
  | .warmResetCsr p machineMode => Sys2Proof.Machine.execWarmResetCsr p machineMode s
  | .warmResetRequest r => Sys2Proof.Machine.execWarmResetRequest r s
  | .coldResetRequest r => Sys2Proof.Machine.execColdResetRequest r s
  | .coldStart inp => Sys2Proof.Machine.execColdStart inp s
  | .warmStart inp => Sys2Proof.Machine.execWarmStart inp s
  | .startupDone p machineMode => Sys2Proof.Machine.execStartupDone p machineMode s
  | .startupWriteTimeout => Sys2Proof.Machine.execStartupWriteTimeout s
  | .driveReady => Sys2Proof.Machine.execDriveReady s
  | .startFailure code step => Sys2Proof.Machine.execStartFailure code step s
  | .failedStartWaitEnd => Sys2Proof.Machine.execFailedStartWaitEnd s
  | .releaseRestart => Sys2Proof.Machine.execReleaseRestart s
  | .standDownClear => Sys2Proof.Machine.execStandDownClear s
  | .extest pins => Sys2Proof.Machine.execExtest pins s
  | .idcode => Sys2Proof.Machine.execIdcode s
  | .samplePreload preload => Sys2Proof.Machine.execSamplePreload preload s
  | .clampPins => Sys2Proof.Machine.execClampPins s
  | .highz => Sys2Proof.Machine.execHighz s
  | .dtmcs val => Sys2Proof.Machine.execDtmcs val s
  | .dmi val => Sys2Proof.Machine.execDmi val s
  | .provision key digest => Sys2Proof.Machine.execProvision key digest s
  | .bypass => Sys2Proof.Machine.execBypass s
  | .traceSelectWrite mask => Sys2Proof.Machine.execTraceSelectWrite mask s
  | .voteWrite r nibble => Sys2Proof.Machine.execVoteWrite r nibble s
  | .hostVoteWrite r nibble => Sys2Proof.Machine.execHostVoteWrite r nibble s
  | .powerEntryDone => Sys2Proof.Machine.execPowerEntryDone s
  | .pairGate p => Sys2Proof.Machine.execPairGate p s
  | .wakeAccepted pattern => Sys2Proof.Machine.execWakeAccepted pattern s
  | .mportAddressMatch adr read => Sys2Proof.Machine.execMportAddressMatch adr read s
  | .mportClockRelease => Sys2Proof.Machine.execMportClockRelease s
  | .timerWake => Sys2Proof.Machine.execTimerWake s
  | .sleepExit src => Sys2Proof.Machine.execSleepExit src s
  | .deepExit src => Sys2Proof.Machine.execDeepExit src s
  | .offExit src => Sys2Proof.Machine.execOffExit src s
  | .mportWrite bytes => Sys2Proof.Machine.execMportWrite bytes s
  | .mportRead n => Sys2Proof.Machine.execMportRead n s
  | .sentinelTrip mask => Sys2Proof.Machine.execSentinelTrip mask s
  | .sentinelRecovery collapsed => Sys2Proof.Machine.execSentinelRecovery collapsed s
  | .vmotHoldFall => Sys2Proof.Machine.execVmotHoldFall s
  | .vmotHoldRise => Sys2Proof.Machine.execVmotHoldRise s
  | .scrubRead word found => Sys2Proof.Machine.execScrubRead word found s
  | .dataNvmMarginPass weakPages => Sys2Proof.Machine.execDataNvmMarginPass weakPages s
  | .codeNvmMarginPass weakSectors => Sys2Proof.Machine.execCodeNvmMarginPass weakSectors s
  | .calibrationPeriod => Sys2Proof.Machine.execCalibrationPeriod s
  | .calibrationRetry b => Sys2Proof.Machine.execCalibrationRetry b s
  | .senseTrimUpdate b j centres sensed => Sys2Proof.Machine.execSenseTrimUpdate b j centres sensed s
  | .counterMirror => Sys2Proof.Machine.execCounterMirror s
  | .counterSnapshot => Sys2Proof.Machine.execCounterSnapshot s
  | .reelSubmit q rec => Sys2Proof.Machine.execReelSubmit q rec s
  | .reelMove => Sys2Proof.Machine.execReelMove s
  | .reelCommit => Sys2Proof.Machine.execReelCommit s
  | .resetAsserted => Sys2Proof.Machine.execResetAsserted s
  | .alwaysOnPowerLoss => Sys2Proof.Machine.execAlwaysOnPowerLoss s
  | .configLinkResume => Sys2Proof.Machine.execConfigLinkResume s
  | .canReceiveError n k => Sys2Proof.Machine.execCanReceiveError n k s
  | .codeViolation e => Sys2Proof.Machine.execCodeViolation e s

end Sys2Proof.Machine
end

