-- ==== Sys2Proof/Machine/Step.lean ====
section
/-!
DEFINITION. One step of the lane: the command at the front of the queue takes its effect; with none waiting the lane idles (log entry
19).
-/
namespace Sys2Proof.Machine

/-- The front command is executed on the state with the queue's rest. -/
def step (s : State) : Host.Outcome State Fault Refusal :=
  match s.pending with
  | [] => .next s
  | c :: rest => exec c { s with pending := rest }

/-- The state with the command that a word spells at the front of its queue. -/
def State.withFetchWord (s : State) (nbits w : Nat) : State :=
  match decodeTableWord nbits w with
  | none => s
  | some c => { s with pending := c :: s.pending }

end Sys2Proof.Machine
end

