-- ==== Sys2Proof/Safety.lean ====
section
/-!
DEFINITION. What the lane must keep: the canonical forms of its memory and registers, and what the cut latch stands for (R421,
R432, R439), and what a command leaves alone, in the terms the statements use.
-/
namespace Sys2Proof.Machine

/-- The canonical forms: equal contents are equal data. -/
def State.wf (s : State) : Bool := Memory.wf s.mem && Registers.wf s.regs

/-- Whether the rules of register writes (R23, R654, R659) let a write of `v` to the register at `a` be stored. -/
def accepted (a : Nat) (v : Word) (s : State) : Bool := (regStore a v s).isSome

/-- The state after such a write has stored its fields, before any action of its own. -/
def written (a : Nat) (v : Word) (s : State) : State := (regStore a v s).getD s

/-- The registers of the logic die whose writes store fields and start no action of their own, by block and offset. -/
def plainRegister (a : Nat) : Bool :=
  let off := a % 0x1000
  match blockOf a with
  | 0 => off != 0x10 && off != 0x40
  | 1 => a != myVoteAddr && a != hostVoteAddr
  | 3 => decide (0x20 < off)
  | 4 => off != 0 && !decide (0x100 ≤ off ∧ off < 0x300)
  | 5 => off != 0 && !decide (0x100 ≤ off ∧ off < 0x300)
  | 6 => !([0, 0x5C, 0x60, 0x74, 0x84, 0x90].contains off)
  | 7 => !([0, 0x5C, 0x60, 0x74, 0x84, 0x90].contains off)
  | 10 => !([0, 0xC, 0x6C].contains off)
  | 11 => !([0, 0xC].contains off) && !(decide (0x100 ≤ off ∧ off < 0x2C0) && off % 0x40 == 0)
  | 12 => !([0, 0x10, 0x14].contains off)
  | 13 => !([0, 0x10, 0x14].contains off)
  | 17 => off != 0
  | 18 => off != 0
  | 19 => !([0, 4, 0x2C, 0x30].contains off)
  | 20 => !([4, 8, 0xC].contains off)
  | 21 => canPlain off | 22 => canPlain off | 23 => canPlain off | 24 => canPlain off
  | 26 => off != 0
  | 27 => !([0x14, 0x18].contains off)
  | 28 => off != 0
  | k => k == 2 || k == 25 || k == 29 || k == 30 || k == 31
where
  canPlain (off : Nat) : Bool := off != 0 && decide (off < 0x800) && !decide (0x580 ≤ off ∧ off < 0x600)

/-- A command that completes: exec answers a next state. -/
def completes (c : Instr) (s : State) : Prop := ∃ t, exec c s = .next t

/-- The bridges are energised only through closed isolation switches. -/
def energised (s : State) (b : Bridge) : Bool := isoClosed s b

/-! ## What an engine instruction leaves alone -/

/-- Engine `e` went on by one instruction of `n` cycles (R215): the place after it by the loop stack, the cycles counted, every
other engine and every register but the engine's STAT and CNT untouched. -/
def stepped (e : Eng) (n : Nat) (s t : State) : Prop :=
  (t.eng[e.val].pc, t.eng[e.val].loops) = loopNext s.eng[e.val].pc s.eng[e.val].loops ∧
    t.eng[e.val].cycles = s.eng[e.val].cycles + n ∧ (∀ f : Eng, f ≠ e → t.eng[f.val] = s.eng[f.val]) ∧
    ∀ a, a ≠ (F.HLE_ENGSTAT_SAT e).addr → a ≠ (F.HLE_ENGCNT_SATCNT e).addr → t.rd a = s.rd a

/-- The instruction wrote `v` to data register `d` and to no other data or index register, accumulator or byte of memory. -/
def wroteX (e : Eng) (d : XReg) (v : Q20) (s t : State) : Prop :=
  t.eng[e.val].x = s.eng[e.val].x.set d.val v d.isLt ∧ t.eng[e.val].ix = s.eng[e.val].ix ∧
    t.eng[e.val].acc = s.eng[e.val].acc ∧ t.mem = s.mem

/-- The flags of a register result (R210, R214), with the sticky SAT. -/
def flagged (e : Eng) (v : Q20) (sat : Bool) (s t : State) : Prop :=
  t.eng[e.val].z = (v == 0) ∧ t.eng[e.val].n = v.msb ∧ t.eng[e.val].s = sat ∧
    t.on (F.HLE_ENGSTAT_SAT e) = (s.on (F.HLE_ENGSTAT_SAT e) || sat)

/-- A one-cycle register instruction with its result and flags. -/
def aluDid (e : Eng) (d : XReg) (v : Q20) (sat : Bool) (s t : State) : Prop :=
  stepped e 1 s t ∧ wroteX e d v s t ∧ flagged e v sat s t

/-- A multiply or accumulator instruction: accumulator `acc` holds `v` limited to Q12.36, the other one, the data registers and
memory are untouched, and a limited result sets S and AOVF (R212). -/
def accDid (e : Eng) (acc : Fin 2) (v : Int) (s t : State) : Prop :=
  stepped e 1 s t ∧ accOf t e acc = clipSigned 48 v ∧ (∀ b : Fin 2, b ≠ acc → accOf t e b = accOf s e b) ∧
    t.eng[e.val].x = s.eng[e.val].x ∧ t.mem = s.mem ∧
    (clipSigned 48 v ≠ v → t.eng[e.val].s = true ∧ t.on (F.HLE_ENGSTAT_AOVF e) = true)

/-- What the receiver of an entry's channel makes of a reply's line, whichever of two equally near ticks it samples at (R485). -/
abbrev heardAs (s : State) (k : UslEnt) (rep : UslReply) (h : UslHeard) : Prop :=
  ∀ late, uslHeard rep.line (bitTicks s (s.get (F.USL_ENTA_CH k))) late = h

/-- Every byte outside the word at an address is unchanged. -/
def outsideWord (a : Nat) (s t : State) : Prop := ∀ k, k < a ∨ a + 4 ≤ k → t.byte k = s.byte k

/-! ## An access that no check refuses -/

/-- The requester makes the write, its rights and its PMP let it through, and the interconnect carries it (R74, R75, R82, R97, R582). -/
abbrev granted (r : Requester) (a : Nat) (s : State) : Prop :=
  issues s r = true ∧ reaches r s = true ∧ regPermitted r a true = true ∧ pmpPermits s r .write a 4 = true

/-! ## A frame that R376 lets in -/

/-- The frame is the first valid copy of a frame of lane `l` on a port in use (R376). -/
abbrev freshFrame (e : Port) (ty len : Nat) (f : EbpFrame) (l : Lane) (s : State) : Prop :=
  portInUse s e = true ∧ frameCrcOk ty f = true ∧ f.payload.length = len ∧ 4 * f.len.toNat = len ∧ f.setId.toNat = setId s ∧
    laneOf f.src.toNat = some l ∧ l.val ≠ laneId s ∧ f.seq.toNat ∉ Tab.get (fun _ => []) s.lines.seen (4 * ty + l.val)

/-- The frame of a TYPE last handed to a port. -/
def sentFrame (s : State) (e : Port) (ty : Nat) : Option EbpFrame := Tab.get (fun _ => none) s.ebp[e.val].sent ty

/-! ## Starts -/

/-- What the beginning of a start and RESET_N low leave (R90, R546, R548): the isolation switches commanded open, the MC blocks in
OFF, LEADOUT low, the pairs held, no role, the key store and the stand-down flag kept, retention RAM cleared by a cold start alone
and every other memory unchanged. -/
def heldAtStart (cold : Bool) (s t : State) : Prop :=
  (∀ b : Bridge, isoClosed t b = false ∧ mcMode t b = 0) ∧ t.cont.leadOut = false ∧ t.get F.DBL_CTRL_HOLD = 15 ∧
    t.get F.CONT_STAT_ROLE = 0 ∧ t.on F.KEEP_STAT_DONE = false ∧ t.sealApplied = false ∧ t.keep.store = s.keep.store ∧
    t.keep.stood = s.keep.stood ∧ (∀ a, a < 0x21000000 ∨ 0x21010000 ≤ a → t.byte a = s.byte a) ∧
    ∀ a, 0x21000000 ≤ a → a < 0x21010000 → t.byte a = if cold then 0 else s.byte a

/-- A start has begun with a SRC code (R545, R548). -/
def begun (src : Nat) (cold : Bool) (s t : State) : Prop :=
  heldAtStart cold s t ∧ t.get F.KEEP_RSTCAUSE_SRC = src ∧ t.get F.KEEP_STAT_STEP = 1 ∧
    t.keep.start = some { cold := cold, released := false, startupDone := false, took := 0 } ∧ t.keep.failWait = false

/-- The cut latch and its causes stand (R432). -/
def cutKept (s t : State) : Prop :=
  t.on F.SAFE_STAT_CUT = s.on F.SAFE_STAT_CUT ∧ t.get F.SAFE_CAUSE_CAUSE = s.get F.SAFE_CAUSE_CAUSE

/-! ## Command packets -/

/-- The wake source recorded once an event of source `n` comes (R606): the first one, or of those in one cycle the lowest. -/
def firstWake (s : State) (n : Nat) : Option Nat :=
  match s.pwr.wake with
  | some w => some (if s.pwr.wakeTick = s.tick then min w n else w)
  | none => some n

/-- Packet `p` is next on transport `c`, S serves packets, and no general refusal meets it (R533, R534, R539, R543). -/
abbrev inTurn (c : Transport) (p : Packet) (s : State) : Prop :=
  (channel s c).waiting.head? = some p ∧ hostTakes s = true ∧ p.decided = none ∧ p.posted = false ∧
    refusal s c p.op.toNat p.payload.length = none

/-- Packet `p` of transport `c` received its one reply, with a STATUS and a payload (R527, R531): it stands behind the replies
queued before it, as many packets are held as before (R529), and no other transport is touched. -/
def answered (c : Transport) (p : Packet) (status : Nat) (payload : List Byte) (s t : State) : Prop :=
  (∃ more, (channel t c).replies = (channel s c).replies ++ ⟨p.op, p.seq, BitVec.ofNat 8 status, payload⟩ :: more) ∧
    heldOn t c = heldOn s c ∧ ∀ d : Transport, d ≠ c → channel t d = channel s d

end Sys2Proof.Machine
end

