-- ==== Sys2Proof/Certificates/Slice0/Obligations.lean ====
section
/-!
DEFINITION. The statements for the provers. Each says its rules of the spec in the model's own terms; a clause that rests on a choice of
the model names the log entry.
-/
open Sys2Proof Sys2Proof.Machine

/-- A step takes the command at the front of the queue and answers what exec answers for it on the state with the queue's rest; on an empty queue the block idles (log entry 19, the model's choice). The commands named one by one here complete: exec answers a next state, with the queue as it was, from every state and with every operand, so that no step of theirs stops the block. The other commands say so in the statements of their own blocks, and CommandsLeaveTheQueue of all of them. -/
def Obligations.StepRunsCommand : Prop :=
  (∀ (s : State) (c : Instr),
    step { s with pending := c :: s.pending } = exec c s) ∧
  (∀ (s : State),
    s.pending = [] →
    step s = .next s) ∧
  ((∀ (s : State) (x0 : Requester) (x1 : Word) (x2 : Word), ∃ t, exec (.registerWrite x0 x1 x2) s = .next t ∧ t.pending = s.pending) ∧
      (∀ (s : State) (x0 : Pair) (x1 : Word) (x2 : Word) (x3 : Bool), ∃ t, exec (.checkedEgressWrite x0 x1 x2 x3) s = .next t ∧ t.pending = s.pending) ∧
      (∀ (s : State) (x0 : BitVec 4), ∃ t, exec (.injectionTestStart x0) s = .next t ∧ t.pending = s.pending) ∧
      (∀ (s : State) (x0 : List PairTest), ∃ t, exec (.injectionTestDone x0) s = .next t ∧ t.pending = s.pending) ∧
      (∀ (s : State) (x0 : HaltedPair), ∃ t, exec (.debugHalt x0) s = .next t ∧ t.pending = s.pending) ∧
      (∀ (s : State) (x0 : Pair), ∃ t, exec (.debugResume x0) s = .next t ∧ t.pending = s.pending) ∧
      (∀ (s : State) (x0 : Pair), ∃ t, exec (.debugSingleStep x0) s = .next t ∧ t.pending = s.pending) ∧
      (∀ (s : State) (x0 : Pair) (x1 : CoreReg) (x2 : Option Word), ∃ t, exec (.debugRegisterAccess x0 x1 x2) s = .next t ∧ t.pending = s.pending) ∧
      (∀ (s : State) (x0 : Pair) (x1 : List Word), ∃ t, exec (.debugProgramBuffer x0 x1) s = .next t ∧ t.pending = s.pending) ∧
      (∀ (s : State) (x0 : Pair) (x1 : Nat) (x2 : Word), ∃ t, exec (.debugTriggerWrite x0 x1 x2) s = .next t ∧ t.pending = s.pending) ∧
      (∀ (s : State), ∃ t, exec .angleClockTick s = .next t ∧ t.pending = s.pending) ∧
      (∀ (s : State) (x0 : Bridge), ∃ t, exec (.angleReload x0) s = .next t ∧ t.pending = s.pending) ∧
      (∀ (s : State) (x0 : Bridge), ∃ t, exec (.stillTimeout x0) s = .next t ∧ t.pending = s.pending) ∧
      (∀ (s : State) (x0 : Bridge) (x1 : Bool), ∃ t, exec (.carrierValley x0 x1) s = .next t ∧ t.pending = s.pending) ∧
      (∀ (s : State) (x0 : Bridge) (x1 : Bool), ∃ t, exec (.carrierPeak x0 x1) s = .next t ∧ t.pending = s.pending) ∧
      (∀ (s : State) (x0 : PosBlk) (x1 : Bool) (x2 : Bool), ∃ t, exec (.abzEdge x0 x1 x2) s = .next t ∧ t.pending = s.pending) ∧
      (∀ (s : State) (x0 : PosBlk) (x1 : EdgeLines), ∃ t, exec (.edgeResample x0 x1) s = .next t ∧ t.pending = s.pending) ∧
      (∀ (s : State) (x0 : PosBlk) (x1 : BitVec 3), ∃ t, exec (.hallEdge x0 x1) s = .next t ∧ t.pending = s.pending) ∧
      (∀ (s : State) (x0 : PosBlk) (x1 : EdgeIface), ∃ t, exec (.edgeStandstill x0 x1) s = .next t ∧ t.pending = s.pending) ∧
      (∀ (s : State) (x0 : PosBlk) (x1 : EdgeIface), ∃ t, exec (.creepSample x0 x1) s = .next t ∧ t.pending = s.pending) ∧
      (∀ (s : State) (x0 : Bridge) (x1 : Fin 4), ∃ t, exec (.windowOpen x0 x1) s = .next t ∧ t.pending = s.pending) ∧
      (∀ (s : State) (x0 : Bridge) (x1 : List Bool) (x2 : List Bool), ∃ t, exec (.windowEnd x0 x1 x2) s = .next t ∧ t.pending = s.pending) ∧
      (∀ (s : State) (x0 : IsnsCh), ∃ t, exec (.bitstreamSaturation x0) s = .next t ∧ t.pending = s.pending) ∧
      (∀ (s : State) (x0 : IsnsCh), ∃ t, exec (.bitstreamStuck x0) s = .next t ∧ t.pending = s.pending) ∧
      (∀ (s : State) (x0 : Bridge), ∃ t, exec (.sampleTimeout x0) s = .next t ∧ t.pending = s.pending) ∧
      (∀ (s : State) (x0 : BitVec 4), ∃ t, exec (.isnsReval x0) s = .next t ∧ t.pending = s.pending) ∧
      (∀ (s : State), ∃ t, exec .meanWindowEnd s = .next t ∧ t.pending = s.pending) ∧
      (∀ (s : State), ∃ t, exec .meanPublish s = .next t ∧ t.pending = s.pending) ∧
      (∀ (s : State) (x0 : Int) (x1 : Int) (x2 : Int) (x3 : Int), ∃ t, exec (.vCurrentCompare x0 x1 x2 x3) s = .next t ∧ t.pending = s.pending) ∧
      (∀ (s : State) (x0 : Nat), ∃ t, exec (.vVmotCompare x0) s = .next t ∧ t.pending = s.pending) ∧
      (∀ (s : State) (x0 : Nat) (x1 : Nat) (x2 : Nat) (x3 : Nat), ∃ t, exec (.vRailCheck x0 x1 x2 x3) s = .next t ∧ t.pending = s.pending) ∧
      (∀ (s : State) (x0 : Bridge), ∃ t, exec (.calibrationRequest x0) s = .next t ∧ t.pending = s.pending) ∧
      (∀ (s : State) (x0 : Bridge) (x1 : TrimReading) (x2 : TrimReading), ∃ t, exec (.calibrationDone x0 x1 x2) s = .next t ∧ t.pending = s.pending) ∧
      (∀ (s : State) (x0 : Bridge) (x1 : Option (Fin 4)), ∃ t, exec (.calibrationAbort x0 x1) s = .next t ∧ t.pending = s.pending) ∧
      (∀ (s : State) (x0 : Eng), ∃ t, exec (.activationDispatch x0) s = .next t ∧ t.pending = s.pending) ∧
      (∀ (s : State) (x0 : Eng) (x1 : Byte), ∃ t, exec (.softwareTrigger x0 x1) s = .next t ∧ t.pending = s.pending) ∧
      (∀ (s : State) (x0 : BitVec 7), ∃ t, exec (.engineEnable x0) s = .next t ∧ t.pending = s.pending) ∧
      (∀ (s : State) (x0 : Eng) (x1 : Fin 2) (x2 : MulOperand), ∃ t, exec (.mpy x0 x1 x2) s = .next t ∧ t.pending = s.pending) ∧
      (∀ (s : State) (x0 : Eng) (x1 : Fin 2) (x2 : MulOperand), ∃ t, exec (.mac x0 x1 x2) s = .next t ∧ t.pending = s.pending) ∧
      (∀ (s : State) (x0 : Eng) (x1 : Fin 2) (x2 : MulOperand), ∃ t, exec (.msu x0 x1 x2) s = .next t ∧ t.pending = s.pending) ∧
      (∀ (s : State) (x0 : Eng) (x1 : MulOperand) (x2 : MulOperand), ∃ t, exec (.dmac x0 x1 x2) s = .next t ∧ t.pending = s.pending) ∧
      (∀ (s : State) (x0 : Eng) (x1 : MulOperand) (x2 : MulOperand), ∃ t, exec (.dmsu x0 x1 x2) s = .next t ∧ t.pending = s.pending) ∧
      (∀ (s : State) (x0 : Eng) (x1 : MulOperand) (x2 : MulOperand), ∃ t, exec (.dmpy x0 x1 x2) s = .next t ∧ t.pending = s.pending) ∧
      (∀ (s : State) (x0 : Eng) (x1 : Fin 2), ∃ t, exec (.clr x0 x1) s = .next t ∧ t.pending = s.pending) ∧
      (∀ (s : State) (x0 : Eng) (x1 : Fin 2) (x2 : Int), ∃ t, exec (.ash x0 x1 x2) s = .next t ∧ t.pending = s.pending) ∧
      (∀ (s : State) (x0 : Eng) (x1 : XReg) (x2 : Fin 2), ∃ t, exec (.rnd x0 x1 x2) s = .next t ∧ t.pending = s.pending) ∧
      (∀ (s : State) (x0 : Eng) (x1 : XReg) (x2 : Fin 2), ∃ t, exec (.rndc x0 x1 x2) s = .next t ∧ t.pending = s.pending) ∧
      (∀ (s : State) (x0 : Eng) (x1 : BitVec 12), ∃ t, exec (.br x0 x1) s = .next t ∧ t.pending = s.pending) ∧
      (∀ (s : State) (x0 : Eng) (x1 : BranchFlag) (x2 : BitVec 12), ∃ t, exec (.brc x0 x1 x2) s = .next t ∧ t.pending = s.pending) ∧
      (∀ (s : State) (x0 : Eng) (x1 : Nat) (x2 : BitVec 12), ∃ t, exec (.loopOp x0 x1 x2) s = .next t ∧ t.pending = s.pending) ∧
      (∀ (s : State) (x0 : Eng) (x1 : Fin 8) (x2 : Nat), ∃ t, exec (.setc x0 x1 x2) s = .next t ∧ t.pending = s.pending) ∧
      (∀ (s : State) (x0 : Eng) (x1 : XReg) (x2 : PortRead), ∃ t, exec (.inPort x0 x1 x2) s = .next t ∧ t.pending = s.pending) ∧
      (∀ (s : State) (x0 : Eng) (x1 : Fin 64) (x2 : XReg), ∃ t, exec (.outPort x0 x1 x2) s = .next t ∧ t.pending = s.pending) ∧
      (∀ (s : State) (x0 : Eng) (x1 : Fin 64) (x2 : XReg), ∃ t, exec (.outPortL x0 x1 x2) s = .next t ∧ t.pending = s.pending) ∧
      (∀ (s : State) (x0 : List Eng), ∃ t, exec (.postedWriteComplete x0) s = .next t ∧ t.pending = s.pending) ∧
      (∀ (s : State) (x0 : Eng) (x1 : Eng) (x2 : Byte), ∃ t, exec (.trig x0 x1 x2) s = .next t ∧ t.pending = s.pending) ∧
      (∀ (s : State) (x0 : Eng), ∃ t, exec (.endAct x0) s = .next t ∧ t.pending = s.pending) ∧
      (∀ (s : State) (x0 : Bridge) (x1 : BitVec 3) (x2 : BitVec 3), ∃ t, exec (.comparatorReport x0 x1 x2) s = .next t ∧ t.pending = s.pending) ∧
      (∀ (s : State) (x0 : Bridge), ∃ t, exec (.zcWindowMiss x0) s = .next t ∧ t.pending = s.pending) ∧
      (∀ (s : State) (x0 : Bridge) (x1 : Word), ∃ t, exec (.startDecision x0 x1) s = .next t ∧ t.pending = s.pending) ∧
      (∀ (s : State) (x0 : Bridge), ∃ t, exec (.listenTimeout x0) s = .next t ∧ t.pending = s.pending) ∧
      (∀ (s : State) (x0 : Bridge) (x1 : Word), ∃ t, exec (.modeReqOff x0 x1) s = .next t ∧ t.pending = s.pending) ∧
      (∀ (s : State) (x0 : Bridge) (x1 : Word), ∃ t, exec (.modeReqReturn x0 x1) s = .next t ∧ t.pending = s.pending) ∧
      (∀ (s : State) (x0 : Bridge) (x1 : Word), ∃ t, exec (.mcEnableWrite x0 x1) s = .next t ∧ t.pending = s.pending) ∧
      (∀ (s : State) (x0 : Bridge) (x1 : Switch) (x2 : Bool), ∃ t, exec (.gateCommandEdge x0 x1 x2) s = .next t ∧ t.pending = s.pending) ∧
      (∀ (s : State) (x0 : Bridge) (x1 : Switch), ∃ t, exec (.gateWatchAdmit x0 x1) s = .next t ∧ t.pending = s.pending) ∧
      (∀ (s : State) (x0 : Bridge) (x1 : Switch), ∃ t, exec (.gateWatchTimeout x0 x1) s = .next t ∧ t.pending = s.pending) ∧
      (∀ (s : State) (x0 : Bridge) (x1 : Switch), ∃ t, exec (.gatePhaseEnd x0 x1) s = .next t ∧ t.pending = s.pending) ∧
      (∀ (s : State) (x0 : Bridge) (x1 : Switch), ∃ t, exec (.slopeTimeout x0 x1) s = .next t ∧ t.pending = s.pending) ∧
      (∀ (s : State) (x0 : Bridge) (x1 : Switch), ∃ t, exec (.gateSagFault x0 x1) s = .next t ∧ t.pending = s.pending) ∧
      (∀ (s : State) (x0 : Bridge) (x1 : Switch), ∃ t, exec (.blankingEnd x0 x1) s = .next t ∧ t.pending = s.pending) ∧
      (∀ (s : State) (x0 : Bridge) (x1 : Switch), ∃ t, exec (.hardShortTrip x0 x1) s = .next t ∧ t.pending = s.pending) ∧
      (∀ (s : State) (x0 : Bridge) (x1 : Switch), ∃ t, exec (.normalShortTrip x0 x1) s = .next t ∧ t.pending = s.pending) ∧
      (∀ (s : State) (x0 : Bridge) (x1 : BitVec 3), ∃ t, exec (.legEnable x0 x1) s = .next t ∧ t.pending = s.pending) ∧
      (∀ (s : State) (x0 : Port) (x1 : Bool) (x2 : Nat) (x3 : Nat) (x4 : Lane), ∃ t, exec (.linkTrainingDone x0 x1 x2 x3 x4) s = .next t ∧ t.pending = s.pending) ∧
      (∀ (s : State) (x0 : Port), ∃ t, exec (.linkLost x0) s = .next t ∧ t.pending = s.pending) ∧
      (∀ (s : State) (x0 : Port), ∃ t, exec (.linkRetrain x0) s = .next t ∧ t.pending = s.pending) ∧
      (∀ (s : State) (x0 : Port), ∃ t, exec (.retrainRequest x0) s = .next t ∧ t.pending = s.pending) ∧
      (∀ (s : State) (x0 : Port) (x1 : EbpFrame), ∃ t, exec (.noticeReceived x0 x1) s = .next t ∧ t.pending = s.pending) ∧
      (∀ (s : State) (x0 : Port) (x1 : EbpFrame), ∃ t, exec (.claimReceived x0 x1) s = .next t ∧ t.pending = s.pending) ∧
      (∀ (s : State) (x0 : Port) (x1 : EbpFrame), ∃ t, exec (.xcurReceived x0 x1) s = .next t ∧ t.pending = s.pending) ∧
      (∀ (s : State) (x0 : Port) (x1 : EbpFrame), ∃ t, exec (.xrefReceived x0 x1) s = .next t ∧ t.pending = s.pending) ∧
      (∀ (s : State) (x0 : Port) (x1 : EbpFrame), ∃ t, exec (.setopReceived x0 x1) s = .next t ∧ t.pending = s.pending) ∧
      (∀ (s : State), ∃ t, exec .setopApply s = .next t ∧ t.pending = s.pending) ∧
      (∀ (s : State) (x0 : Port) (x1 : EbpFrame), ∃ t, exec (.beatReceived x0 x1) s = .next t ∧ t.pending = s.pending) ∧
      (∀ (s : State) (x0 : Port) (x1 : EbpFrame), ∃ t, exec (.contFrameReceived x0 x1) s = .next t ∧ t.pending = s.pending) ∧
      (∀ (s : State) (x0 : Port) (x1 : EbpFrame), ∃ t, exec (.shareReceived x0 x1) s = .next t ∧ t.pending = s.pending) ∧
      (∀ (s : State) (x0 : Port) (x1 : EbpFrame), ∃ t, exec (.formReceived x0 x1) s = .next t ∧ t.pending = s.pending) ∧
      (∀ (s : State) (x0 : Port) (x1 : EbpFrame), ∃ t, exec (.trainReceived x0 x1) s = .next t ∧ t.pending = s.pending) ∧
      (∀ (s : State) (x0 : Port) (x1 : Fin 4) (x2 : Bool), ∃ t, exec (.slateReceived x0 x1 x2) s = .next t ∧ t.pending = s.pending) ∧
      (∀ (s : State), ∃ t, exec .transferTick s = .next t ∧ t.pending = s.pending) ∧
      (∀ (s : State) (x0 : Transport), ∃ t, exec (.supervisorReplyTimeout x0) s = .next t ∧ t.pending = s.pending) ∧
      (∀ (s : State) (x0 : CanCtl) (x1 : Fin 32), ∃ t, exec (.transmitRequest x0 x1) s = .next t ∧ t.pending = s.pending) ∧
      (∀ (s : State) (x0 : CanCtl) (x1 : Bool) (x2 : Nat), ∃ t, exec (.arbitration x0 x1 x2) s = .next t ∧ t.pending = s.pending) ∧
      (∀ (s : State) (x0 : CanCtl), ∃ t, exec (.transmitComplete x0) s = .next t ∧ t.pending = s.pending) ∧
      (∀ (s : State) (x0 : CanCtl) (x1 : TxErrorKind), ∃ t, exec (.transmitError x0 x1) s = .next t ∧ t.pending = s.pending) ∧
      (∀ (s : State) (x0 : CanCtl) (x1 : Fin 32), ∃ t, exec (.transmitCancel x0 x1) s = .next t ∧ t.pending = s.pending) ∧
      (∀ (s : State) (x0 : CanCtl), ∃ t, exec (.busOffRecover x0) s = .next t ∧ t.pending = s.pending) ∧
      (∀ (s : State) (x0 : CanCtl), ∃ t, exec (.recoveryDone x0) s = .next t ∧ t.pending = s.pending) ∧
      (∀ (s : State) (x0 : CanCtl), ∃ t, exec (.busOffRecoverTimer x0) s = .next t ∧ t.pending = s.pending) ∧
      (∀ (s : State) (x0 : CanCtl) (x1 : Bool), ∃ t, exec (.canEnableWrite x0 x1) s = .next t ∧ t.pending = s.pending) ∧
      (∀ (s : State) (x0 : Fin 2) (x1 : Word) (x2 : Word), ∃ t, exec (.syncSend x0 x1 x2) s = .next t ∧ t.pending = s.pending) ∧
      (∀ (s : State) (x0 : Fin 2) (x1 : SyncFrame) (x2 : Word) (x3 : Word) (x4 : Int), ∃ t, exec (.syncSample x0 x1 x2 x3 x4) s = .next t ∧ t.pending = s.pending) ∧
      (∀ (s : State), ∃ t, exec .syncTimeout s = .next t ∧ t.pending = s.pending) ∧
      (∀ (s : State) (x0 : List Byte), ∃ t, exec (.spiWriteTransaction x0) s = .next t ∧ t.pending = s.pending) ∧
      (∀ (s : State) (x0 : Nat), ∃ t, exec (.spiReadTransaction x0) s = .next t ∧ t.pending = s.pending) ∧
      (∀ (s : State) (x0 : Fin 2) (x1 : List Byte), ∃ t, exec (.canCommandFrame x0 x1) s = .next t ∧ t.pending = s.pending) ∧
      (∀ (s : State), ∃ t, exec .mailboxAck s = .next t ∧ t.pending = s.pending) ∧
      (∀ (s : State), ∃ t, exec .mailboxTimeout s = .next t ∧ t.pending = s.pending) ∧
      (∀ (s : State), ∃ t, exec .sessionTimeout s = .next t ∧ t.pending = s.pending) ∧
      (∀ (s : State) (x0 : Call), ∃ t, exec (.openSession x0) s = .next t ∧ t.pending = s.pending) ∧
      (∀ (s : State) (x0 : Call), ∃ t, exec (.closeSession x0) s = .next t ∧ t.pending = s.pending) ∧
      (∀ (s : State) (x0 : Call), ∃ t, exec (.writereg x0) s = .next t ∧ t.pending = s.pending) ∧
      (∀ (s : State) (x0 : Call), ∃ t, exec (.appcmd x0) s = .next t ∧ t.pending = s.pending) ∧
      (∀ (s : State) (x0 : Call), ∃ t, exec (.cfgload x0) s = .next t ∧ t.pending = s.pending) ∧
      (∀ (s : State) (x0 : Call), ∃ t, exec (.cfgcommit x0) s = .next t ∧ t.pending = s.pending) ∧
      (∀ (s : State) (x0 : Call), ∃ t, exec (.imgload x0) s = .next t ∧ t.pending = s.pending) ∧
      (∀ (s : State) (x0 : Call), ∃ t, exec (.imgcommit x0) s = .next t ∧ t.pending = s.pending) ∧
      (∀ (s : State) (x0 : Call), ∃ t, exec (.setpoint x0) s = .next t ∧ t.pending = s.pending) ∧
      (∀ (s : State) (x0 : Call), ∃ t, exec (.drive x0) s = .next t ∧ t.pending = s.pending) ∧
      (∀ (s : State) (x0 : Call), ∃ t, exec (.haltMotion x0) s = .next t ∧ t.pending = s.pending) ∧
      (∀ (s : State) (x0 : Call), ∃ t, exec (.withdraw x0) s = .next t ∧ t.pending = s.pending) ∧
      (∀ (s : State) (x0 : Call), ∃ t, exec (.handover x0) s = .next t ∧ t.pending = s.pending) ∧
      (∀ (s : State) (x0 : Call), ∃ t, exec (.resarm x0) s = .next t ∧ t.pending = s.pending) ∧
      (∀ (s : State) (x0 : Call), ∃ t, exec (.resconfirm x0) s = .next t ∧ t.pending = s.pending) ∧
      (∀ (s : State) (x0 : Call), ∃ t, exec (.switchback x0) s = .next t ∧ t.pending = s.pending) ∧
      (∀ (s : State) (x0 : Call), ∃ t, exec (.relchal x0) s = .next t ∧ t.pending = s.pending) ∧
      (∀ (s : State) (x0 : Call), ∃ t, exec (.releaseStandDown x0) s = .next t ∧ t.pending = s.pending) ∧
      (∀ (s : State) (x0 : Call), ∃ t, exec (.dbgchal x0) s = .next t ∧ t.pending = s.pending) ∧
      (∀ (s : State) (x0 : Call), ∃ t, exec (.dbgopen x0) s = .next t ∧ t.pending = s.pending) ∧
      (∀ (s : State) (x0 : Call), ∃ t, exec (.pwrvote x0) s = .next t ∧ t.pending = s.pending) ∧
      (∀ (s : State) (x0 : ChallengeKind), ∃ t, exec (.challengeLapse x0) s = .next t ∧ t.pending = s.pending) ∧
      (∀ (s : State) (x0 : Bool), ∃ t, exec (.powerOnReset x0) s = .next t ∧ t.pending = s.pending) ∧
      (∀ (s : State), ∃ t, exec .resetRelease s = .next t ∧ t.pending = s.pending) ∧
      (∀ (s : State) (x0 : Pair) (x1 : Bool), ∃ t, exec (.warmResetCsr x0 x1) s = .next t ∧ t.pending = s.pending) ∧
      (∀ (s : State) (x0 : Requester), ∃ t, exec (.warmResetRequest x0) s = .next t ∧ t.pending = s.pending) ∧
      (∀ (s : State) (x0 : Requester), ∃ t, exec (.coldResetRequest x0) s = .next t ∧ t.pending = s.pending) ∧
      (∀ (s : State) (x0 : StartInputs), ∃ t, exec (.coldStart x0) s = .next t ∧ t.pending = s.pending) ∧
      (∀ (s : State) (x0 : StartInputs), ∃ t, exec (.warmStart x0) s = .next t ∧ t.pending = s.pending) ∧
      (∀ (s : State) (x0 : Pair) (x1 : Bool), ∃ t, exec (.startupDone x0 x1) s = .next t ∧ t.pending = s.pending) ∧
      (∀ (s : State), ∃ t, exec .startupWriteTimeout s = .next t ∧ t.pending = s.pending) ∧
      (∀ (s : State), ∃ t, exec .driveReady s = .next t ∧ t.pending = s.pending) ∧
      (∀ (s : State) (x0 : Byte) (x1 : Byte), ∃ t, exec (.startFailure x0 x1) s = .next t ∧ t.pending = s.pending) ∧
      (∀ (s : State), ∃ t, exec .failedStartWaitEnd s = .next t ∧ t.pending = s.pending) ∧
      (∀ (s : State), ∃ t, exec .releaseRestart s = .next t ∧ t.pending = s.pending) ∧
      (∀ (s : State), ∃ t, exec .standDownClear s = .next t ∧ t.pending = s.pending) ∧
      (∀ (s : State) (x0 : BitVec 168), ∃ t, exec (.extest x0) s = .next t ∧ t.pending = s.pending) ∧
      (∀ (s : State), ∃ t, exec .idcode s = .next t ∧ t.pending = s.pending) ∧
      (∀ (s : State) (x0 : BitVec 168), ∃ t, exec (.samplePreload x0) s = .next t ∧ t.pending = s.pending) ∧
      (∀ (s : State), ∃ t, exec .clampPins s = .next t ∧ t.pending = s.pending) ∧
      (∀ (s : State), ∃ t, exec .highz s = .next t ∧ t.pending = s.pending) ∧
      (∀ (s : State) (x0 : Word), ∃ t, exec (.dtmcs x0) s = .next t ∧ t.pending = s.pending) ∧
      (∀ (s : State) (x0 : BitVec 41), ∃ t, exec (.dmi x0) s = .next t ∧ t.pending = s.pending) ∧
      (∀ (s : State) (x0 : BitVec 512) (x1 : BitVec 256), ∃ t, exec (.provision x0 x1) s = .next t ∧ t.pending = s.pending) ∧
      (∀ (s : State), ∃ t, exec .bypass s = .next t ∧ t.pending = s.pending) ∧
      (∀ (s : State) (x0 : BitVec 4), ∃ t, exec (.traceSelectWrite x0) s = .next t ∧ t.pending = s.pending) ∧
      (∀ (s : State) (x0 : BitVec 7) (x1 : Bool), ∃ t, exec (.mportAddressMatch x0 x1) s = .next t ∧ t.pending = s.pending) ∧
      (∀ (s : State), ∃ t, exec .mportClockRelease s = .next t ∧ t.pending = s.pending) ∧
      (∀ (s : State) (x0 : List Byte), ∃ t, exec (.mportWrite x0) s = .next t ∧ t.pending = s.pending) ∧
      (∀ (s : State) (x0 : Nat), ∃ t, exec (.mportRead x0) s = .next t ∧ t.pending = s.pending) ∧
      (∀ (s : State) (x0 : Word) (x1 : EccFinding), ∃ t, exec (.scrubRead x0 x1) s = .next t ∧ t.pending = s.pending) ∧
      (∀ (s : State) (x0 : List (Fin 2048)), ∃ t, exec (.dataNvmMarginPass x0) s = .next t ∧ t.pending = s.pending) ∧
      (∀ (s : State) (x0 : List (Fin 1536)), ∃ t, exec (.codeNvmMarginPass x0) s = .next t ∧ t.pending = s.pending) ∧
      (∀ (s : State), ∃ t, exec .calibrationPeriod s = .next t ∧ t.pending = s.pending) ∧
      (∀ (s : State) (x0 : Bridge), ∃ t, exec (.calibrationRetry x0) s = .next t ∧ t.pending = s.pending) ∧
      (∀ (s : State) (x0 : Bridge) (x1 : Switch) (x2 : List Nat) (x3 : List Int), ∃ t, exec (.senseTrimUpdate x0 x1 x2 x3) s = .next t ∧ t.pending = s.pending) ∧
      (∀ (s : State), ∃ t, exec .counterMirror s = .next t ∧ t.pending = s.pending) ∧
      (∀ (s : State), ∃ t, exec .counterSnapshot s = .next t ∧ t.pending = s.pending) ∧
      (∀ (s : State) (x0 : Fin 6) (x1 : List Byte), ∃ t, exec (.reelSubmit x0 x1) s = .next t ∧ t.pending = s.pending) ∧
      (∀ (s : State), ∃ t, exec .reelMove s = .next t ∧ t.pending = s.pending) ∧
      (∀ (s : State), ∃ t, exec .reelCommit s = .next t ∧ t.pending = s.pending) ∧
      (∀ (s : State), ∃ t, exec .resetAsserted s = .next t ∧ t.pending = s.pending) ∧
      (∀ (s : State), ∃ t, exec .alwaysOnPowerLoss s = .next t ∧ t.pending = s.pending) ∧
      (∀ (s : State) (x0 : Port), ∃ t, exec (.codeViolation x0) s = .next t ∧ t.pending = s.pending))

/-- Every register holds the value its Reset column gives, no command waits, no byte of memory has been written, the pairs are held, the MC blocks are OFF with their isolation switches open and no start or cut is in force; the canonical forms hold. What the Reset column does not give (memory never written, the blocks' inner state) is the model's choice of log entries 6 and 7. -/
def Obligations.ResetValues : Prop :=
  (∀ (a : Nat),
    State.reset.rd a = resetWord a) ∧
  (State.reset.pending = [] ∧ State.reset.mem = [] ∧ State.reset.wf = true) ∧
  (State.reset.get F.DBL_CTRL_HOLD = 15 ∧ State.reset.get F.SAFE_ICMP_TOL = 164 ∧ State.reset.on F.SAFE_STAT_STOPN = true ∧ State.reset.on F.SAFE_STAT_CUT = false ∧
      State.reset.get F.CONT_STAT_SETSTATE = 3 ∧ State.reset.get F.CONT_STAT_ROLE = 0 ∧ State.reset.get F.CONT_CFCFG_CFDLY = 100 ∧
      State.reset.on F.KEEP_STAT_DONE = false ∧ State.reset.keep.start = none) ∧
  (∀ (b : Bridge),
    isoClosed State.reset b = false ∧ mcMode State.reset b = 0 ∧ State.reset.get (F.MC_DCEIL_DMAX b) = 524287 ∧ State.reset.get (F.GD_DT_DT b) = 50 ∧
      State.reset.get (F.MC_ICLAMP_CLPER b) = 4)

/-- From every state whose memory and registers are in canonical form, whatever command is at the front of the queue, a step that answers a next state answers one in canonical form, and every command from such a state completes in one: equal contents stay equal data. The form is the model's own (log entry 7), over the memories and registers the spec lays out. -/
def Obligations.EveryStepKeepsForms : Prop :=
  (∀ (s t : State),
    s.wf = true →
    step s = .next t →
    t.wf = true) ∧
  (∀ (s : State) (c : Instr),
    s.wf = true →
    ∃ t, exec c s = .next t ∧ t.wf = true)

/-- Whatever the command, each of the 344 constructors of Instr with every operand, and whatever the state, exec answers a next state, and that state's queue of waiting commands is the one before: commands take effect first in, first out, one per step, and none stops the block, is lost, repeated or overtaken. -/
def Obligations.CommandsLeaveTheQueue : Prop :=
  ∀ (s : State) (c : Instr),
    ∃ t, exec c s = .next t ∧ t.pending = s.pending

/-- R76: with VALID clear, a refused access sets VALID, captures requester, direction and address and sets COUNT to 1; with VALID set, it only counts, saturating with OVF. Refused are a register access that R74 or the core's own protection does not permit and a memory access outside every region; both answer zero data with a bus error, their target is unchanged, and a principal core also takes the access-fault exception of its access. -/
def Obligations.RefusedAccesses : Prop :=
  (∀ (s : State) (r : Requester) (a : Nat) (w : Bool),
    a < 2 ^ 32 →
    s.on F.SYS_BUSERR_VALID = false →
    (refuse r a w s).on F.SYS_BUSERR_VALID = true ∧ (refuse r a w s).get F.SYS_BUSERR_COUNT = 1 ∧ (refuse r a w s).get F.SYS_BUSERR_REQ = reqCode r ∧
      (refuse r a w s).on F.SYS_BUSERR_WR = w ∧ (refuse r a w s).get F.SYS_BUSADDR_ADDR = a ∧ (refuse r a w s).bus = ⟨0, true⟩) ∧
  (∀ (s : State) (r : Requester) (a : Nat) (w : Bool),
    s.on F.SYS_BUSERR_VALID = true →
    (refuse r a w s).get F.SYS_BUSERR_COUNT = min 65535 (s.get F.SYS_BUSERR_COUNT + 1) ∧ (refuse r a w s).bus = ⟨0, true⟩ ∧
      (s.get F.SYS_BUSERR_COUNT = 65535 → (refuse r a w s).on F.SYS_BUSERR_OVF = true) ∧ (refuse r a w s).on F.SYS_BUSERR_VALID = true ∧
      (refuse r a w s).get F.SYS_BUSERR_REQ = s.get F.SYS_BUSERR_REQ ∧ (refuse r a w s).on F.SYS_BUSERR_WR = s.on F.SYS_BUSERR_WR ∧
      (refuse r a w s).get F.SYS_BUSADDR_ADDR = s.get F.SYS_BUSADDR_ADDR) ∧
  (∀ (s : State) (r : Requester) (a v : Word),
    (issues s r = true ∧ reaches r s = true) →
    (isCore r = false ∨ a.toNat % 4 = 0) →
    (regPermitted r a.toNat true = false ∨ pmpPermits s r .write a.toNat 4 = false) →
    exec (.registerWrite r a v) s = .next (raiseTo r 7 a.toNat (refuse r a.toNat true s))) ∧
  (∀ (s : State) (r : Requester) (a : Word),
    (issues s r = true ∧ reaches r s = true) →
    (isCore r = false ∨ a.toNat % 4 = 0) →
    (regPermitted r a.toNat false = false ∨ pmpPermits s r .read a.toNat 4 = false) →
    exec (.readClear r a) s = .next (raiseTo r 5 a.toNat (refuse r a.toNat false s))) ∧
  (∀ (s : State) (m : MemAccess),
    regionOf m.addr.toNat = none →
    isPeripheral m.addr.toNat = false →
    m.addr.toNat % widthBytes m.width = 0 →
    issues s .s = true →
    ∀ n, exec (.memoryAccess .s ⟨m, n, []⟩) s = .next (refuse .s m.addr.toNat (isWrite m.kind) s)) ∧
  (∀ (s : State) (r : Requester) (a : Nat) (w : Bool),
    (∀ b, b ≠ 0x40000040 → b ≠ 0x40000044 → (refuse r a w s).rd b = s.rd b) ∧ (refuse r a w s).mem = s.mem ∧ (refuse r a w s).irqs = s.irqs)

/-- R26: whatever requester reads a register that R74 lets it read, the debug port included, every RC field of the register is 0 afterwards, the value returned is the register's value before, and no field of another access code changes. -/
def Obligations.ReadClearFields : Prop :=
  (∀ (s : State) (r : Requester) (a : Word) (w : Row),
    (issues s r = true ∧ reaches r s = true) →
    (regPermitted r a.toNat false = true ∧ pmpPermits s r .read a.toNat 4 = true) →
    (onDriverDie a.toNat = false ∨ s.sys.linkLost = false) →
    (w ∈ rowsAt a.toNat ∧ w.acc = .rc) →
    ∃ t, exec (.readClear r a) s = .next t ∧ w.of (t.rd a.toNat) = 0 ∧ t.bus = ⟨signCopies a.toNat (regValue r a.toNat s), false⟩ ∧
      (∀ b, b ≠ a.toNat → t.rd b = s.rd b) ∧ t.mem = s.mem) ∧
  (∀ (s : State) (r : Requester) (a : Word) (q : Row),
    (issues s r = true ∧ reaches r s = true) →
    (regPermitted r a.toNat false = true ∧ pmpPermits s r .read a.toNat 4 = true) →
    (onDriverDie a.toNat = false ∨ s.sys.linkLost = false) →
    (q ∈ rowsAt a.toNat ∧ q.acc ≠ .rc) →
    (∀ w ∈ rowsAt a.toNat, w ≠ q → w.lo + w.w ≤ q.lo ∨ q.lo + q.w ≤ w.lo) →
    q.lo + q.w ≤ 32 →
    ∃ t, exec (.readClear r a) s = .next t ∧ q.of (t.rd a.toNat) = q.of (s.rd a.toNat))

/-- R654: an offset that names no register, or names one only for another block of the same layout, is reserved; a permitted read of it returns 0 and a permitted write is discarded, without a bus error; the write sets the block's access-error flag where the block has one and does nothing else. -/
def Obligations.ReservedOffsets : Prop :=
  (rowsAt 0x40007090 = [] ∧ rowsAt 0x40007094 = [] ∧ rowsAt 0x40017020 = [] ∧ rowsAt 0x40018020 = [] ∧ rowsAt 0x40006090 ≠ [] ∧ rowsAt 0x40015020 ≠ []) ∧
  (∀ (s : State) (r : Requester) (a : Word),
    (issues s r = true ∧ reaches r s = true) →
    (regPermitted r a.toNat false = true ∧ pmpPermits s r .read a.toNat 4 = true) →
    (isCore r = false ∨ a.toNat % 4 = 0) →
    rowsAt a.toNat = [] →
    exec (.readClear r a) s = .next { s with bus := ⟨0, false⟩ }) ∧
  (∀ (s : State) (r : Requester) (a v : Word),
    (issues s r = true ∧ reaches r s = true) →
    (regPermitted r a.toNat true = true ∧ pmpPermits s r .write a.toNat 4 = true) →
    (isCore r = false ∨ a.toNat % 4 = 0) →
    rowsAt a.toNat = [] →
    exec (.registerWrite r a v) s = .next (accErr a.toNat { s with bus := ⟨0, false⟩ })) ∧
  (∀ (s : State) (a : Nat) (f : Fld),
    accErrFld a = some f →
    (f.lo + f.w ≤ 32 ∧ f.w = 1) →
    (accErr a s).on f = true ∧ (∀ b, b ≠ f.addr → (accErr a s).rd b = s.rd b) ∧ { accErr a s with regs := s.regs } = s)

/-- A write that the rules accept gives each field what its access code says: RW the value written, RO, RC and WO the value held, W1C and W1S the bits cleared and set, RWO the value written only while its loop is open, RWS only before the seal. A write of a register that starts no action of its own (plainRegister: most registers of every block) is stored so, the fields discarded alone flagged; one that the rules do not accept changes no register but the access-error flag. A checked write whose comparison disagrees is discarded whole, a write to the driver die while the link is lost is answered with a bus error or lost, a misaligned access of a core raises its exception and never reaches the interconnect (R653), and a pair that is not released makes no access. -/
def Obligations.RegisterWriteRules : Prop :=
  (∀ (s : State) (a : Nat) (v : Word) (r : Row),
    accepted a v s = true →
    (r ∈ rowsAt a ∧ r.lo + r.w ≤ 32) →
    (∀ q ∈ rowsAt a, q ≠ r → q.lo + q.w ≤ r.lo ∨ r.lo + r.w ≤ q.lo) →
    (∀ f, accErrFld a = some f → f.addr ≠ a) →
    r.of ((written a v s).rd a) = match r.acc with
      | .rw => r.of v | .ro => r.of (s.rd a) | .rc => r.of (s.rd a) | .wo => r.of (s.rd a)
      | .w1c => r.of (s.rd a) - (r.of (s.rd a) &&& r.of v) | .w1s => r.of (s.rd a) ||| r.of v
      | .rwo => if ownerOpen s a r.lo then r.of v else r.of (s.rd a)
      | .rws => if s.sealApplied then r.of (s.rd a) else r.of v) ∧
  (∀ (s : State) (r : Requester) (a v : Word),
    (issues s r = true ∧ reaches r s = true) →
    (regPermitted r a.toNat true = true ∧ pmpPermits s r .write a.toNat 4 = true) →
    plainRegister a.toNat = true →
    accepted a.toNat (clearLow a.toNat v) (busData 0 s) = true →
    exec (.registerWrite r a v) s = .next (written a.toNat (clearLow a.toNat v) (busData 0 s))) ∧
  (∀ (s : State) (r : Requester) (a v : Word),
    (issues s r = true ∧ reaches r s = true) →
    (regPermitted r a.toNat true = true ∧ pmpPermits s r .write a.toNat 4 = true) →
    plainRegister a.toNat = true →
    accepted a.toNat (clearLow a.toNat v) (busData 0 s) = false →
    exec (.registerWrite r a v) s = .next (accErr a.toNat (busData 0 s))) ∧
  (∀ (s : State) (r : Requester) (a v : Word),
    (issues s r = true ∧ reaches r s = true) →
    (regPermitted r a.toNat true = true ∧ pmpPermits s r .write a.toNat 4 = true) →
    (onDriverDie a.toNat = true ∧ rowsAt a.toNat ≠ []) →
    (s.sys.linkLost = true → exec (.registerWrite r a v) s = .next (raiseTo r 7 a.toNat { s with bus := ⟨0, true⟩ })) ∧
      (s.sys.linkLost = false → s.driver.linkLost = true → exec (.registerWrite r a v) s = .next { s with bus := ⟨0, false⟩ })) ∧
  (∀ (s : State) (p : Pair) (a v : Word),
    issues s (.p p) = true →
    a.toNat % 4 ≠ 0 →
    exec (.registerWrite (.p p) a v) s = .next (trapPair p 6 a.toNat s) ∧ exec (.readClear (.p p) a) s = .next (trapPair p 4 a.toNat s)) ∧
  (∀ (s : State) (p : Pair) (a v : Word),
    s.bit F.DBL_STAT_RUN p = false →
    exec (.registerWrite (.p p) a v) s = .next s ∧ exec (.readClear (.p p) a) s = .next s ∧ exec (.checkedEgressWrite p a v true) s = .next s) ∧
  (∀ (s : State) (p : Pair) (a v : Word),
    exec (.checkedEgressWrite p a v true) s = exec (.registerWrite (.p p) a v) s ∧
      (isPeripheral a.toNat = true → checkedBlock (blockOf a.toNat) = true → exec (.checkedEgressWrite p a v false) s = .next s))

/-- R507: a read of TIME_NS by P0 to P3, S, V, K or the debug port returns NS and latches SEC of the same tick for that requester; whatever happens after, while its latch stands, that requester reads the latched value in TIME_SEC; the latches of the other requesters keep their values. -/
def Obligations.TimeLatches : Prop :=
  ∀ (s u v : State) (r : Requester),
    ((∃ p, r = .p p) ∨ r = .s ∨ r = .v ∨ r = .k ∨ r = .dbg) →
    (issues s r = true ∧ issues u r = true ∧ reaches r s = true ∧ reaches r u = true) →
    (pmpPermits s r .read addrTimeNs 4 = true ∧ pmpPermits u r .read 0x4001B00C 4 = true) →
    exec (.timeNsRead r) s = .next v →
    (Tab.get (fun _ => 0) u.time.secL (reqCode r) = Tab.get (fun _ => 0) v.time.secL (reqCode r)) →
    v.bus = ⟨s.rd addrTimeNs, false⟩ ∧ Tab.get (fun _ => 0) v.time.secL (reqCode r) = s.time.sec ∧
      (∀ q : Requester, q ≠ r → Tab.get (fun _ => 0) v.time.secL (reqCode q) = Tab.get (fun _ => 0) s.time.secL (reqCode q)) ∧
      (∃ w, exec (.readClear r 0x4001B00C) u = .next w ∧ w.bus = ⟨s.time.sec, false⟩)

/-- A read of TIME_UCYCNS latches the Usile cycle's second and number for its reader, and a read of UPTIMEL the upper word; RATE is stored within its range and discarded outside it; a step sets the clock when it has not been stepped since the start, and is discarded afterwards; HOST disabled empties its pools and replies. Complete, that is exec answers a next state, with the queue as it was, from every state and with every operand: READ_CLEAR, TIME_NS_READ, TIME_RATE_WRITE, TIME_STEP, UCYC_NS_READ, UPTIME_READ, HOST_DISABLE. -/
def Obligations.TimeAndUptimeCommands : Prop :=
  (∀ (s : State) (r : Requester),
    (((∃ p, r = .p p) ∧ issues s r = true ∧ pmpPermits s r .read addrTimeNs 4 = true ∧ pmpPermits s r .read addrUcycNs 4 = true ∧ pmpPermits s r .read addrUptime 4 = true) ∨
      ((r = .s ∨ r = .v ∨ r = .k) ∧ issues s r = true)) →
    (∃ t, exec (.timeNsRead r) s = .next t ∧ t.bus = ⟨s.rd addrTimeNs, false⟩ ∧ t.regs = s.regs ∧ t.mem = s.mem ∧
      Tab.get (fun _ => 0) t.time.secL (reqCode r) = s.time.sec) ∧
      (∃ t, exec (.ucycNsRead r) s = .next t ∧ t.bus = ⟨s.rd addrUcycNs, false⟩ ∧ t.regs = s.regs ∧ t.mem = s.mem ∧
      (Tab.get (fun _ => 0) t.time.ucycSecL (reqCode r)).toNat = s.get F.TIME_UCYCSEC_SEC ∧
      (Tab.get (fun _ => 0) t.time.ucycSeqL (reqCode r)).toNat = s.get F.TIME_UCYCSEQ_CYCSEQ) ∧
      (∃ t, exec (.uptimeRead r) s = .next t ∧ t.bus = ⟨s.rd addrUptime, false⟩ ∧ t.regs = s.regs ∧ t.mem = s.mem ∧
      Tab.get (fun _ => 0) t.time.upL (reqCode r) = BitVec.ofNat 32 (s.time.uptime / 2 ^ 32))) ∧
  (∀ (s : State) (v : Word),
    (-858993 ≤ v.toInt ∧ v.toInt ≤ 858993) →
    exec (.timeRateWrite v) s = .next (s.put F.TIME_RATE_RATE v.toNat) ∧ (s.put F.TIME_RATE_RATE v.toNat).getS F.TIME_RATE_RATE = v.toInt) ∧
  (∀ (s : State) (v : Word),
    (v.toInt < -858993 ∨ 858993 < v.toInt) →
    exec (.timeRateWrite v) s = .next (s.put F.TIME_STAT_ACCERR 1)) ∧
  (∀ (s : State) (v : Word),
    s.on F.TIME_STAT_STEPPED = false →
    bitAt v.toNat 31 = true →
    v.toNat % 2 ^ 30 ≤ 999999999 →
    ∃ t, exec (.timeStep v) s = .next t ∧ t.time = { s.time with sec := BitVec.ofNat 32 (s.get F.TIME_STEPSEC_SEC), frac := 0 } ∧
      t.get F.TIME_NS_NS = v.toNat % 2 ^ 30 ∧ t.on F.TIME_STAT_STEPPED = true ∧ t.mem = s.mem ∧ t.getS F.TIME_RATE_RATE = s.getS F.TIME_RATE_RATE) ∧
  (∀ (s : State) (v : Word),
    s.on F.TIME_STAT_STEPPED = true →
    bitAt v.toNat 31 = true →
    exec (.timeStep v) s = .next (s.put F.TIME_STAT_ACCERR 1)) ∧
  (∀ (s : State),
    ∃ t, exec .hostDisable s = .next t ∧ t.on F.HOST_CTRL_EN = false ∧ t.host.mbox = [] ∧ (∀ k : Fin 3, t.host.chan[k.val] = ⟨[], [], []⟩) ∧
      t.get F.HOST_STAT_HELDS = 0 ∧ t.get F.HOST_STAT_HELDC0 = 0 ∧ t.get F.HOST_STAT_HELDC1 = 0 ∧ t.mem = s.mem) ∧
  ((∀ (s : State) (x0 : Requester) (x1 : Word), ∃ t, exec (.readClear x0 x1) s = .next t ∧ t.pending = s.pending) ∧
      (∀ (s : State) (x0 : Requester), ∃ t, exec (.timeNsRead x0) s = .next t ∧ t.pending = s.pending) ∧
      (∀ (s : State) (x0 : Word), ∃ t, exec (.timeRateWrite x0) s = .next t ∧ t.pending = s.pending) ∧
      (∀ (s : State) (x0 : Word), ∃ t, exec (.timeStep x0) s = .next t ∧ t.pending = s.pending) ∧
      (∀ (s : State) (x0 : Requester), ∃ t, exec (.ucycNsRead x0) s = .next t ∧ t.pending = s.pending) ∧
      (∀ (s : State) (x0 : Requester), ∃ t, exec (.uptimeRead x0) s = .next t ∧ t.pending = s.pending) ∧
      (∀ (s : State), ∃ t, exec .hostDisable s = .next t ∧ t.pending = s.pending))

/-- A permitted read of a requester other than a principal core answers the bytes and changes nothing else; a permitted write stores exactly its bytes; a refused write changes no byte; a read that finds an uncorrectable error answers a bus error; a misaligned access of a principal core traps before it reaches the interconnect; a pair that is not clocked makes no access; SC stores only under a held reservation; a write of a principal core allocates no D-cache line, and its read of uncached memory answers the bytes; coefficient writes are judged against the bank in force; every landing write at the word CONT_DADDR names is captured as D; of two requests at one bank the earlier in R72's order is performed first, unless only the other has waited 16 cycles, and a read of a word of shared SRAM returns the value before a write of the same cycle. Complete, that is exec answers a next state, with the queue as it was, from every state and with every operand: MEMORY_ACCESS, COEFFICIENT_WRITE. -/
def Obligations.MemoryAccesses : Prop :=
  (∀ (s : State) (r : Requester) (m : MemAccess) (reg : Region) (n : Nat),
    ((∀ p, r ≠ .p p) ∧ issues s r = true ∧ reaches r s = true) →
    (m.kind = .read ∧ m.found = .clean) →
    (regionOf m.addr.toNat = some reg ∧ memPermitted s r reg m.addr.toNat .read = true) →
    isPeripheral m.addr.toNat = false →
    m.addr.toNat % widthBytes m.width = 0 →
    openBytes s m.addr.toNat = false →
    exec (.memoryAccess r ⟨m, n, []⟩) s = .next { s with bus := ⟨memValue s m.addr.toNat (widthBytes m.width), false⟩ }) ∧
  (∀ (s : State) (r : Requester) (m : MemAccess) (reg : Region) (n : Nat),
    ((∀ p, r ≠ .p p) ∧ issues s r = true ∧ reaches r s = true) →
    m.kind = .write →
    (regionOf m.addr.toNat = some reg ∧ memPermitted s r reg m.addr.toNat .write = true) →
    (isPeripheral m.addr.toNat = false ∧ m.addr.toNat < 0x30000000) →
    m.addr.toNat % widthBytes m.width = 0 →
    ∃ t, exec (.memoryAccess r ⟨m, n, []⟩) s = .next t ∧ t.bus = ⟨0, false⟩ ∧ t.bytes m.addr.toNat (widthBytes m.width) = leBytes (widthBytes m.width) m.data.toNat ∧
      (∀ k, k < m.addr.toNat ∨ m.addr.toNat + widthBytes m.width ≤ k → t.byte k = s.byte k) ∧
      (touches m.addr.toNat (widthBytes m.width) (dAddr s) = true → t.cont.landed = true)) ∧
  (∀ (s : State) (m : MemAccess) (reg : Region) (n : Nat),
    m.kind = .write →
    (regionOf m.addr.toNat = some reg ∧ memPermitted s .s reg m.addr.toNat .write = false) →
    issues s .s = true →
    m.addr.toNat % widthBytes m.width = 0 →
    ∃ t, exec (.memoryAccess .s ⟨m, n, []⟩) s = .next t ∧ t.mem = s.mem ∧ t.bus = ⟨0, true⟩ ∧ t.on F.SYS_BUSERR_VALID = true ∧
      (keeperOnly m.addr.toNat = true → t.on F.HLE_STAT_ACCERR = true)) ∧
  (∀ (s : State) (m : MemAccess) (reg : Region) (n : Nat),
    (m.kind = .read ∧ m.found = .uncorrectable) →
    (regionOf m.addr.toNat = some reg ∧ memPermitted s .s reg m.addr.toNat .read = true) →
    issues s .s = true →
    m.addr.toNat % widthBytes m.width = 0 →
    ∃ t, exec (.memoryAccess .s ⟨m, n, []⟩) s = .next t ∧ t.mem = s.mem ∧ t.bus = ⟨0, true⟩ ∧ t.sys.sDown = true ∧ t.on F.BKG_STAT_UEVALID = true ∧
      (s.on F.BKG_STAT_UEVALID = false → t.get F.BKG_UEADDR_ADDR = m.addr.toNat)) ∧
  (∀ (s : State) (p : Pair) (m : MemAccess) (n : Nat),
    issues s (.p p) = true →
    m.kind ≠ .fetch →
    m.addr.toNat % widthBytes m.width ≠ 0 →
    exec (.memoryAccess (.p p) ⟨m, n, []⟩) s = .next (trapPair p (misalignedCode m.kind) m.addr.toNat (progressed p m.prog s))) ∧
  (∀ (s : State) (p : Pair) (m : MemAccess) (n : Nat),
    issues s (.p p) = false →
    exec (.memoryAccess (.p p) ⟨m, n, []⟩) s = .next s) ∧
  (∀ (s : State) (p : Pair) (m : MemAccess) (n : Nat),
    issues s (.p p) = true →
    (m.kind = .read ∧ m.found = .clean ∧ m.addr.toNat % widthBytes m.width = 0) →
    copiesPart p m (progressed p m.prog s) = false →
    (regionOf m.addr.toNat = some (.tcmP p) ∧ pmpPermits (progressed p m.prog s) (.p p) .read m.addr.toNat (widthBytes m.width) = true) →
    openBytes s m.addr.toNat = false →
    exec (.memoryAccess (.p p) ⟨m, n, []⟩) s = .next { progressed p m.prog s with bus := ⟨memValue s m.addr.toNat (widthBytes m.width), false⟩ }) ∧
  (∀ (s : State) (p : Pair) (m : MemAccess) (n : Nat),
    issues s (.p p) = true →
    (m.kind = .sc ∧ m.addr.toNat % widthBytes m.width = 0) →
    copiesPart p m (progressed p m.prog s) = false →
    (regionOf m.addr.toNat = some .sram ∧ pmpPermits (progressed p m.prog s) (.p p) .write m.addr.toNat (widthBytes m.width) = true) →
    s.cores[p.val].main.reservation ≠ some (m.addr.toNat / 32) →
    ∃ t, exec (.memoryAccess (.p p) ⟨m, n, []⟩) s = .next t ∧ t.bus = ⟨1, false⟩ ∧ t.mem = s.mem ∧ t.cores[p.val].main.reservation = none ∧ t.regs = s.regs) ∧
  (∀ (s : State) (p : Pair) (m : MemAccess) (n : Nat),
    issues s (.p p) = true →
    (m.kind = .sc ∧ m.width = .word ∧ m.addr.toNat % 4 = 0) →
    copiesPart p m (progressed p m.prog s) = false →
    (regionOf m.addr.toNat = some .sram ∧ pmpPermits (progressed p m.prog s) (.p p) .write m.addr.toNat 4 = true) →
    s.cores[p.val].main.reservation = some (m.addr.toNat / 32) →
    ∃ t, exec (.memoryAccess (.p p) ⟨m, n, []⟩) s = .next t ∧ t.bus = ⟨0, false⟩ ∧ t.memWord m.addr.toNat = m.data ∧ outsideWord m.addr.toNat s t ∧
      t.cores[p.val].main.reservation = none) ∧
  (∀ (s : State) (p : Pair) (m : MemAccess) (n : Nat),
    issues s (.p p) = true →
    (m.kind = .write ∧ m.addr.toNat % widthBytes m.width = 0) →
    copiesPart p m (progressed p m.prog s) = false →
    (regionOf m.addr.toNat = some .sram ∧ pmpPermits (progressed p m.prog s) (.p p) .write m.addr.toNat (widthBytes m.width) = true) →
    findLine s.cores[p.val].dcache (lineOf m.addr.toNat) = none →
    ∃ t, exec (.memoryAccess (.p p) ⟨m, n, []⟩) s = .next t ∧ findLine t.cores[p.val].dcache (lineOf m.addr.toNat) = none ∧
      t.bytes m.addr.toNat (widthBytes m.width) = leBytes (widthBytes m.width) m.data.toNat) ∧
  (∀ (s : State) (p : Pair) (e : Eng) (k : Bool) (w : Fin 512) (v : Word),
    issues s (.p p) = true →
    pmpPermits s (.p p) .write (coefAddr e k w) 4 = true →
    bankClosed s (coefAddr e k w) = false →
    ∃ t, exec (.coefficientWrite (.p p) e k w v) s = .next t ∧ t.bus = ⟨0, false⟩ ∧ t.mem20 (coefAddr e k w) = v.setWidth 20 ∧
      outsideWord (coefAddr e k w) s t) ∧
  (∀ (s : State) (e : Eng) (k : Bool) (w : Fin 512) (v : Word) (p : Pair),
    issues s (.p p) = true →
    pmpPermits s (.p p) .write (coefAddr e k w) 4 = true →
    s.on (F.HLE_ENGSTAT_BANKACT e) = k →
    (s.on (F.HLE_ENGSTAT_OPENACT e) = false ∧ s.on (F.HLE_ENGCTRL_LIVEWR e) = false) →
    ∃ t, exec (.coefficientWrite (.p p) e k w v) s = .next t ∧ t.bus = ⟨0, true⟩ ∧ t.on F.HLE_STAT_ACCERR = true ∧ t.mem = s.mem) ∧
  (∀ (a b : Request),
    (16 ≤ a.waited ∧ b.waited < 16 → grantedBefore a b = true ∧ grantedBefore b a = false) ∧
      ((16 ≤ a.waited ↔ 16 ≤ b.waited) → grantedBefore a b = decide (grantRank a.r < grantRank b.r))) ∧
  (∀ (s : State) (r q : Requester) (m k : MemAccess) (n w : Nat),
    ((∀ p, r ≠ .p p) ∧ (∀ p, q ≠ .p p) ∧ r ≠ q ∧ issues s r = true ∧ issues s q = true ∧ reaches r s = true ∧ reaches q s = true) →
    (m.kind = .read ∧ m.found = .clean ∧ m.width = .word ∧ k.kind = .write ∧ k.width = .word ∧ k.addr = m.addr ∧ m.addr.toNat % 4 = 0) →
    (regionOf m.addr.toNat = some .sram ∧ memPermitted s r .sram m.addr.toNat .read = true ∧ memPermitted s q .sram m.addr.toNat .write = true) →
    openBytes s m.addr.toNat = false →
    ∃ t, exec (.memoryAccess r ⟨m, n, [⟨q, k, w⟩]⟩) s = .next t ∧ t.bus = ⟨s.memWord m.addr.toNat, false⟩ ∧ t.memWord m.addr.toNat = k.data) ∧
  ((∀ (s : State) (x0 : Requester) (x1 : CycleAccess), ∃ t, exec (.memoryAccess x0 x1) s = .next t ∧ t.pending = s.pending) ∧
      (∀ (s : State) (x0 : Requester) (x1 : Eng) (x2 : Bool) (x3 : Fin 512) (x4 : Word), ∃ t, exec (.coefficientWrite x0 x1 x2 x3 x4) s = .next t ∧ t.pending = s.pending))

/-- IN through a valid entry takes the word into its register; an invalid entry, or OUT or OUTL through an entry without write permission, is a port fault at that instruction; with four writes outstanding the engine first waits for the oldest, at most 50 cycles, the actual number a free value (log entry 31); OUT posts its write whether the loop is open or closed, OUTL only while it is closed; the oldest posted write then lands, and with none outstanding nothing happens; of two engines that store to one word in a cycle, the physical engine with the higher number stores last. IN of a word with an uncorrectable error is a memory fault. While the PLL-clocked blocks stand (RESET_N low, SLEEP or deeper, no always-on supply, held by a sentinel trip) the commands of those blocks change nothing (R546, R583, R604). -/
def Obligations.EnginePorts : Prop :=
  (∀ (s : State) (e : Eng) (d : XReg) (n : Fin 64),
    (engBusy s e = true ∧ enginesHeld s = false ∧ fitsLimit s e 33 = true) →
    bitAt (portEntry s e n).toNat 0 = true →
    (regionOf (portAddr (portEntry s e n)) = some .sram ∧ openBytes s (portAddr (portEntry s e n)) = false) →
    ∃ t, exec (.inPort e d ⟨n, .clean⟩) s = .next t ∧ xr t e d = s.mem20 (portAddr (portEntry s e n)) ∧ engBusy t e = true ∧
      (∀ i : XReg, i ≠ d → xr t e i = xr s e i) ∧ t.mem = s.mem ∧ t.regs = s.regs) ∧
  (∀ (s : State) (e : Eng) (d : XReg) (n : Fin 64),
    (engBusy s e = true ∧ enginesHeld s = false ∧ fitsLimit s e 33 = true) →
    bitAt (portEntry s e n).toNat 0 = true →
    regionOf (portAddr (portEntry s e n)) = some .sram →
    ∃ t, exec (.inPort e d ⟨n, .uncorrectable⟩) s = .next t ∧ t.get (F.HLE_ENGSTAT_CAUSE e) = 5 ∧ engBusy t e = false ∧ t.on F.BKG_STAT_UEVALID = true ∧
      t.on (F.HLE_ENGSTAT_HWFAIL e) = true) ∧
  (∀ (s : State) (e : Eng) (d a : XReg) (n : Fin 64),
    (engBusy s e = true ∧ enginesHeld s = false ∧ fitsLimit s e 1 = true) →
    bitAt (portEntry s e n).toNat 0 = false →
    (∃ t, exec (.inPort e d ⟨n, .clean⟩) s = .next t ∧ t.get (F.HLE_ENGSTAT_CAUSE e) = 4 ∧ t.get (F.HLE_ENGFPC_PC e) = s.eng[e.val].pc.toNat ∧ engBusy t e = false) ∧
      (∃ t, exec (.outPort e n a) s = .next t ∧ t.get (F.HLE_ENGSTAT_CAUSE e) = 4 ∧ t.get (F.HLE_ENGFPC_PC e) = s.eng[e.val].pc.toNat ∧ engBusy t e = false) ∧
      (∃ t, exec (.outPortL e n a) s = .next t ∧ t.get (F.HLE_ENGSTAT_CAUSE e) = 4 ∧ t.get (F.HLE_ENGFPC_PC e) = s.eng[e.val].pc.toNat ∧ engBusy t e = false)) ∧
  (∀ (s : State) (e : Eng) (a : XReg) (n : Fin 64),
    (engBusy s e = true ∧ enginesHeld s = false ∧ fitsLimit s e 1 = true) →
    (bitAt (portEntry s e n).toNat 0 = true ∧ bitAt (portEntry s e n).toNat 1 = true) →
    s.eng[e.val].writes.length < 4 →
    (∃ t, exec (.outPort e n a) s = .next t ∧ stepped e 1 s t ∧ t.mem = s.mem ∧
      t.eng[e.val].writes = s.eng[e.val].writes ++ [⟨portAddr (portEntry s e n), (xr s e a).signExtend 32, s.eng[e.val].pc⟩]) ∧
      (∃ t, exec (.outPortL e n a) s = .next t ∧ stepped e 1 s t ∧ t.mem = s.mem ∧ t.eng[e.val].writes =
      if s.on (F.HLE_ENGSTAT_OPENACT e) then s.eng[e.val].writes
      else s.eng[e.val].writes ++ [⟨portAddr (portEntry s e n), (xr s e a).signExtend 32, s.eng[e.val].pc⟩])) ∧
  (∀ (s : State) (e : Eng) (a : XReg) (n : Fin 64),
    (engBusy s e = true ∧ enginesHeld s = false ∧ fitsLimit s e 1 = true) →
    (bitAt (portEntry s e n).toNat 0 = true ∧ bitAt (portEntry s e n).toNat 1 = false) →
    (∃ t, exec (.outPort e n a) s = .next t ∧ t.on (F.HLE_ENGSTAT_FAULT e) = true ∧ t.get (F.HLE_ENGSTAT_CAUSE e) = 4 ∧
      t.get (F.HLE_ENGFPC_PC e) = s.eng[e.val].pc.toNat ∧ engBusy t e = false ∧ t.mem = s.mem) ∧
      (∃ t, exec (.outPortL e n a) s = .next t ∧ t.on (F.HLE_ENGSTAT_FAULT e) = true ∧ t.get (F.HLE_ENGSTAT_CAUSE e) = 4 ∧
      t.get (F.HLE_ENGFPC_PC e) = s.eng[e.val].pc.toNat ∧ engBusy t e = false ∧ t.mem = s.mem)) ∧
  (∀ (s : State) (e : Eng) (a : XReg) (n : Fin 64) (w : PostedWrite) (l : List PostedWrite),
    (engBusy s e = true ∧ enginesHeld s = false ∧ fitsLimit s e 51 = true) →
    (bitAt (portEntry s e n).toNat 0 = true ∧ bitAt (portEntry s e n).toNat 1 = true) →
    (s.eng[e.val].writes = w :: l ∧ 3 ≤ l.length) →
    (regionOf w.addr = some .sram ∧ w.addr % 4 = 0) →
    ∃ t, exec (.outPort e n a) s = .next t ∧ t.memWord w.addr = w.val ∧ outsideWord w.addr s t ∧ engBusy t e = true ∧
      t.eng[e.val].writes = l ++ [⟨portAddr (portEntry s e n), (xr s e a).signExtend 32, s.eng[e.val].pc⟩] ∧
      s.eng[e.val].cycles + 1 ≤ t.eng[e.val].cycles ∧ t.eng[e.val].cycles ≤ s.eng[e.val].cycles + 51) ∧
  (∀ (s : State) (e : Eng),
    coreStopped s = false →
    s.eng[e.val].writes = [] →
    exec (.postedWriteComplete [e]) s = .next s) ∧
  (∀ (s : State) (e : Eng) (w : PostedWrite) (l : List PostedWrite),
    coreStopped s = false →
    s.eng[e.val].writes = w :: l →
    enginesHeld s = false →
    (regionOf w.addr = some .sram ∧ w.addr % 4 = 0) →
    ∃ t, exec (.postedWriteComplete [e]) s = .next t ∧ t.eng[e.val].writes = l ∧ t.memWord w.addr = w.val ∧ outsideWord w.addr s t ∧ t.bus = ⟨0, false⟩) ∧
  (∀ (s : State) (e f : Eng) (w x : PostedWrite) (l m : List PostedWrite),
    coreStopped s = false →
    (e ≠ f ∧ physicalOf s e < physicalOf s f) →
    s.eng[e.val].writes = w :: l →
    enginesHeld s = false →
    s.eng[f.val].writes = x :: m →
    (regionOf w.addr = some .sram ∧ w.addr % 4 = 0 ∧ x.addr = w.addr) →
    ∃ t, exec (.postedWriteComplete [e, f]) s = .next t ∧ exec (.postedWriteComplete [f, e]) s = .next t ∧ t.memWord w.addr = x.val) ∧
  (∀ (s : State),
    coreStopped s = true →
    (∀ (x0 : List Eng), exec (.postedWriteComplete x0) s = .next s))

/-- DCACHE_INVALIDATE drops the line of the address, or every line for 0xFFFF_FFFF, and keeps the others; FENCE_I empties the I-cache; PAIR_RELEASE clears HOLD, shows RUN and puts both copies at the entry address of the image booted; ASYNC_INPUT_CHANGE takes an agreed value, or keeps it and counts. A pair that makes no accesses does neither of the first two, and no input is sampled while the PLL stands. Nothing else changes, but that an input that comes on runs a gated pair's clock again. While the PLL-clocked blocks stand (RESET_N low, SLEEP or deeper, no always-on supply, held by a sentinel trip) the commands of those blocks change nothing (R546, R583, R604). Complete, that is exec answers a next state, with the queue as it was, from every state and with every operand: DCACHE_INVALIDATE, FENCE_I, ASYNC_INPUT_CHANGE, PAIR_RELEASE. -/
def Obligations.CoreCachesAndInputs : Prop :=
  (∀ (s : State) (p : Pair) (addr : Word),
    s.bit F.DBL_STAT_RUN p = true →
    ∃ D, exec (.dcacheInvalidate p addr) s = .next (s.modCore p (fun c => { c with dcache := D })) ∧
      (addr = 0xFFFFFFFF → D = []) ∧
      (addr ≠ 0xFFFFFFFF → ∀ k (l : CacheLine), (k, some l) ∈ D ↔
      (k, some l) ∈ s.cores[p.val].dcache ∧ l.line ≠ addr.toNat / 32)) ∧
  (∀ (s : State) (p : Pair),
    issues s (.p p) = true →
    exec (.fenceI p) s = .next (s.modCore p (fun c => { c with icache := [] }))) ∧
  (∀ (s : State) (p : Pair) (addr : Word),
    issues s (.p p) = false →
    exec (.fenceI p) s = .next s ∧ exec (.dcacheInvalidate p addr) s = .next s) ∧
  (∀ (s : State) (p : Pair),
    issues s .k = true →
    s.bit F.DBL_CTRL_HOLD p = true →
    exec (.pairRelease p) s = .next (modCopies p (fun c => { c with pc := s.keep.entry }) ((s.putBit F.DBL_CTRL_HOLD p false).putBit F.DBL_STAT_RUN p true))) ∧
  (∀ (s : State) (p : Pair) (i : Fin 32),
    coreStopped s = false →
    exec (.asyncInputChange p i false false) s =
      .next (s.modCore p (fun c => { c with agreed := BitVec.ofNat 32 (withBit c.agreed.toNat i false) }))) ∧
  (∀ (s : State) (p : Pair) (i : Fin 32),
    coreStopped s = false →
    exec (.asyncInputChange p i true true) s =
      .next (ungate p (s.modCore p (fun c => { c with agreed := BitVec.ofNat 32 (withBit c.agreed.toNat i true) })))) ∧
  (∀ (s : State) (p : Pair) (i : Fin 32) (v : Bool),
    coreStopped s = false →
    exec (.asyncInputChange p i v (!v)) s = .next (s.count (agreeCnt p).1 (agreeCnt p).2)) ∧
  (∀ (s : State),
    coreStopped s = true →
    (∀ (x0 : Pair) (x1 : Fin 32) (x2 : Bool) (x3 : Bool), exec (.asyncInputChange x0 x1 x2 x3) s = .next s)) ∧
  ((∀ (s : State) (x0 : Pair) (x1 : Word), ∃ t, exec (.dcacheInvalidate x0 x1) s = .next t ∧ t.pending = s.pending) ∧
      (∀ (s : State) (x0 : Pair), ∃ t, exec (.fenceI x0) s = .next t ∧ t.pending = s.pending) ∧
      (∀ (s : State) (x0 : Pair) (x1 : Fin 32) (x2 : Bool) (x3 : Bool), ∃ t, exec (.asyncInputChange x0 x1 x2 x3) s = .next t ∧ t.pending = s.pending) ∧
      (∀ (s : State) (x0 : Pair), ∃ t, exec (.pairRelease x0) s = .next t ∧ t.pending = s.pending))

/-- LOCKSTEP_FAULT in a clocked pair outside the injection test stops its clock, captures the fault with the lowest group flagged, or the lowest parity group modulo 32 (log entry 95, the model's choice among several), holds V's interrupt pending, and changes no field of a capture that stands; a cycle in which the final output pair has its agreeing value and no parity group reports does nothing. Control bits are compared always, other fields while qualified. DBL_FAULT_CLEAR clears the whole capture; CHECKPOINT_SIGNATURE in machine mode drives the signature and, where the copies' signatures agree, does nothing else, where they differ flags group 12, and in user mode takes the illegal-instruction exception. While the PLL-clocked blocks stand (RESET_N low, SLEEP or deeper, no always-on supply, held by a sentinel trip) the commands of those blocks change nothing (R546, R583, R604). Complete, that is exec answers a next state, with the queue as it was, from every state and with every operand: CHECKPOINT_SIGNATURE, LOCKSTEP_FAULT, DBL_FAULT_CLEAR. -/
def Obligations.LockstepCapture : Prop :=
  (∀ (s : State) (p : Pair) (f : LockstepFinding) (g : Nat) (gs : List Nat),
    coreStopped s = false →
    s.bit F.DBL_STAT_RUN p = true →
    s.on F.DBL_INJ_BUSY = false →
    s.on (F.DBL_FAULT_VALID p) = false →
    f.parity = 0 →
    (codeViolation f = true ∧ flaggedGroups f = g :: gs) →
    ∃ t, exec (.lockstepFault p f) s = .next t ∧ t.bit F.DBL_STAT_RUN p = false ∧ t.on (F.DBL_FAULT_VALID p) = true ∧ t.get (F.DBL_FAULT_CAUSE p) = 1 ∧
      t.get (F.DBL_FAULT_GROUP p) = g ∧ t.on (F.DBL_FAULT_MULTI p) = !gs.isEmpty ∧ t.bit F.DBL_STAT_FAULT p = true ∧ t.on F.SAFE_STAT_NMILS = true ∧
      Irq.lockstep p ∈ t.irqs ∧ t.cores = s.cores ∧ t.mem = s.mem) ∧
  (∀ (s : State) (p : Pair) (f : LockstepFinding) (g : Nat) (gs : List Nat),
    coreStopped s = false →
    s.bit F.DBL_STAT_RUN p = true →
    s.on F.DBL_INJ_BUSY = false →
    s.on (F.DBL_FAULT_VALID p) = false →
    bitsSet f.parity.toNat 52 = g :: gs →
    ∃ t, exec (.lockstepFault p f) s = .next t ∧ t.bit F.DBL_STAT_RUN p = false ∧ t.on (F.DBL_FAULT_VALID p) = true ∧ t.get (F.DBL_FAULT_CAUSE p) = 2 ∧
      t.get (F.DBL_FAULT_GROUP p) = g % 32 ∧ (gs ≠ [] → t.on (F.DBL_FAULT_MULTI p) = true) ∧
      (gs = [] → codeViolation f = false → flaggedGroups f = [] → t.on (F.DBL_FAULT_MULTI p) = false) ∧ t.bit F.DBL_STAT_FAULT p = true ∧
      t.on F.SAFE_STAT_NMILS = true ∧ Irq.lockstep p ∈ t.irqs ∧ t.cores = s.cores ∧ t.mem = s.mem) ∧
  (∀ (s : State) (p : Pair) (f : LockstepFinding),
    coreStopped s = false →
    s.bit F.DBL_STAT_RUN p = true →
    s.on F.DBL_INJ_BUSY = false →
    s.on (F.DBL_FAULT_VALID p) = true →
    codeViolation f = true →
    exec (.lockstepFault p f) s = .next (s.putBit F.DBL_STAT_RUN p false)) ∧
  (∀ (s : State) (p : Pair) (f : LockstepFinding),
    coreStopped s = false →
    (codeViolation f = false ∧ f.parity = 0) →
    exec (.lockstepFault p f) s = .next s) ∧
  (∀ (f : LockstepFinding),
    f.tree = none →
    (f.main.rails ≠ f.double.rails ∨ f.main.claim ≠ f.double.claim → codeViolation f = true) ∧
      (f.main = f.double → codeViolation f = false) ∧
      (f.valid.trace = false → differing { f with double := { f.double with trace := f.main.trace } } = differing f)) ∧
  (∀ (s : State) (p : Pair),
    coreStopped s = false →
    exec (.dblFaultClear p) s = .next ((s.wr (0x40003010 + 4 * p.val) 0).putBit F.DBL_STAT_FAULT p false)) ∧
  (∀ (s : State) (p : Pair) (g : Progress),
    issues s (.p p) = true →
    g.machineMode = true →
    (progressed p g s).cores[p.val].main.signature = (progressed p g s).cores[p.val].double.signature →
    exec (.checkpointSignature p g) s =
      .next ((progressed p g s).modCore p (fun c => { c with signature := (progressed p g s).cores[p.val].main.signature }))) ∧
  (∀ (s : State) (p : Pair) (g : Progress),
    issues s (.p p) = true →
    (s.on F.DBL_INJ_BUSY = false ∧ s.on (F.DBL_FAULT_VALID p) = false) →
    g.machineMode = true →
    (progressed p g s).cores[p.val].main.signature ≠ (progressed p g s).cores[p.val].double.signature →
    ∃ t, exec (.checkpointSignature p g) s = .next t ∧ t.get (F.DBL_FAULT_GROUP p) = 12 ∧ t.get (F.DBL_FAULT_CAUSE p) = 1 ∧ t.bit F.DBL_STAT_RUN p = false ∧ t.mem = s.mem) ∧
  (∀ (s : State) (p : Pair) (g : Progress),
    issues s (.p p) = true →
    g.machineMode = false →
    exec (.checkpointSignature p g) s = .next (trapPair p 2 0 (progressed p g s))) ∧
  (∀ (s : State),
    coreStopped s = true →
    (∀ (x0 : Pair) (x1 : LockstepFinding), exec (.lockstepFault x0 x1) s = .next s) ∧
      (∀ (x0 : Pair), exec (.dblFaultClear x0) s = .next s)) ∧
  ((∀ (s : State) (x0 : Pair) (x1 : Progress), ∃ t, exec (.checkpointSignature x0 x1) s = .next t ∧ t.pending = s.pending) ∧
      (∀ (s : State) (x0 : Pair) (x1 : LockstepFinding), ∃ t, exec (.lockstepFault x0 x1) s = .next t ∧ t.pending = s.pending) ∧
      (∀ (s : State) (x0 : Pair), ∃ t, exec (.dblFaultClear x0) s = .next t ∧ t.pending = s.pending))

/-- INJECTION_TEST_START runs the sequencer with the PLL locked and every selected pair held, and is refused otherwise; INJECTION_TEST_DONE shows the result with DONE: the pairs that passed, and the first failure found. With debug open and the pair released: a halt shows DBGHALT and withdraws the lane; a resume shows the pair running again; a read returns the main core's value, and a write sets both copies; a trigger write stores the trigger in both copies. A single step performs the instruction at the pc in both copies, and the program buffer runs with the pc and the mode kept: both shown for ADDI (log entry 97: its encoding is the edition of R28's). While the PLL-clocked blocks stand (RESET_N low, SLEEP or deeper, no always-on supply, held by a sentinel trip) the commands of those blocks change nothing (R546, R583, R604). -/
def Obligations.InjectionTestAndDebug : Prop :=
  (∀ (s : State) (pairs : BitVec 4),
    coreStopped s = false →
    s.on F.DBL_INJ_BUSY = false →
    s.on F.SYS_CLKMON_LOCK = true →
    (s.get F.DBL_CTRL_HOLD &&& pairs.toNat) = pairs.toNat →
    ∃ t, exec (.injectionTestStart pairs) s = .next t ∧ t = ((s.put F.DBL_INJ_PAIRS pairs.toNat).put F.DBL_INJ_START 1).put F.DBL_INJ_BUSY 1) ∧
  (∀ (s : State) (pairs : BitVec 4),
    coreStopped s = false →
    s.on F.DBL_INJ_BUSY = false →
    (s.on F.SYS_CLKMON_LOCK = false ∨ (s.get F.DBL_CTRL_HOLD &&& pairs.toNat) ≠ pairs.toNat) →
    exec (.injectionTestStart pairs) s = .next (((s.put F.DBL_INJ_PAIRS pairs.toNat).put F.DBL_INJ_START 0).put F.DBL_INJ_REFUSED 1)) ∧
  (∀ (s : State) (r : List PairTest),
    coreStopped s = false →
    s.on F.DBL_INJ_BUSY = true →
    exec (.injectionTestDone r) s = .next ((((injectionResult r s).put F.DBL_INJ_BUSY 0).put F.DBL_INJ_START 0).put F.DBL_INJ_DONE 1)) ∧
  (∀ (s : State) (r : List PairTest),
    coreStopped s = false →
    s.on F.DBL_INJ_BUSY = true →
    s.get F.DBL_INJ_PAIRS = 15 →
    (∀ p : Pair, pairFailure (pairTest r p) = none) →
    ∃ t, exec (.injectionTestDone r) s = .next t ∧ t.get F.DBL_INJRES_PASS = 15 ∧ t.on F.DBL_STAT_INJ_PASS = true ∧ t.get F.DBL_INJRES_FAIL_KIND = 0 ∧ t.on F.DBL_INJ_DONE = true) ∧
  (∀ (s : State) (r : List PairTest) (g : Fin 18) (b : Fin 64) (pol : Bool),
    coreStopped s = false →
    s.on F.DBL_INJ_BUSY = true →
    s.get F.DBL_INJ_PAIRS = 15 →
    (pairTest r 0).missed = [(g, b, pol)] →
    ∃ t, exec (.injectionTestDone r) s = .next t ∧ t.bit F.DBL_INJRES_PASS 0 = false ∧ t.on F.DBL_STAT_INJ_PASS = false ∧ t.get F.DBL_INJRES_FAIL_KIND = 1 ∧
      t.get F.DBL_INJRES_FAIL_PAIR = 0 ∧ t.get F.DBL_INJRES_FAIL_GROUP = g.val ∧ t.get F.DBL_INJRES_FAIL_BIT = b.val ∧ t.on F.DBL_INJRES_FAIL_POL = pol) ∧
  (∀ (s : State) (p : Pair) (g : Progress),
    coreStopped s = false →
    s.on F.KEEP_STAT_DBGOPEN = true →
    s.bit F.DBL_STAT_RUN p = true →
    s.bit F.DBL_STAT_DBGHALT p = false →
    exec (.debugHalt ⟨p, g⟩) s = .next
      (withdraw 1 ((halted p g s).modCont (fun c => { c with debugHalt := true })))) ∧
  (∀ (s : State) (p : Pair),
    coreStopped s = false →
    s.on F.KEEP_STAT_DBGOPEN = true →
    s.bit F.DBL_STAT_RUN p = true →
    s.bit F.DBL_STAT_DBGHALT p = true →
    exec (.debugResume p) s = .next (soloLead ((s.putBit F.DBL_STAT_DBGHALT p false).modCont
      (fun c => { c with debugHalt := (s.putBit F.DBL_STAT_DBGHALT p false).get F.DBL_STAT_DBGHALT != 0 })))) ∧
  (∀ (s : State) (p : Pair) (rd : Fin 32) (imm : BitVec 12),
    coreStopped s = false →
    s.on F.KEEP_STAT_DBGOPEN = true →
    s.bit F.DBL_STAT_RUN p = true →
    s.bit F.DBL_STAT_DBGHALT p = true →
    s.cores[p.val].main = s.cores[p.val].double →
    s.cores[p.val].main.pc.toNat % 4 = 0 →
    regionOf s.cores[p.val].main.pc.toNat = some (.tcmP p) →
    (pmpPermits s (.p p) .fetch s.cores[p.val].main.pc.toNat 2 = true ∧ pmpPermits s (.p p) .fetch (s.cores[p.val].main.pc.toNat + 2) 2 = true) →
    (s.keep.retained = none ∧ s.bkg.snap0 = none ∧ s.bkg.snap1 = none ∧ s.bkg.mirror = none) →
    s.memWord s.cores[p.val].main.pc.toNat = BitVec.ofNat 32 (imm.toNat * 2 ^ 20 + rd.val * 128 + 0x13) →
    ∃ t, exec (.debugSingleStep p) s = .next t ∧ t.cores[p.val].main = t.cores[p.val].double ∧ t.cores[p.val].main.pc = s.cores[p.val].main.pc + 4 ∧
      (rd.val ≠ 0 → t.cores[p.val].main.x[rd.val] = s.cores[p.val].main.x[0] + imm.signExtend 32) ∧
      (∀ i : Fin 32, i.val ≠ rd.val → t.cores[p.val].main.x[i.val] = s.cores[p.val].main.x[i.val]) ∧
      (∀ q : Pair, q ≠ p → t.cores[q.val] = s.cores[q.val]) ∧ t.regs = s.regs ∧ t.mem = s.mem) ∧
  (∀ (s : State) (p : Pair) (i : Fin 32) (v : Word),
    coreStopped s = false →
    s.on F.KEEP_STAT_DBGOPEN = true →
    s.bit F.DBL_STAT_RUN p = true →
    s.bit F.DBL_STAT_DBGHALT p = true →
    (∃ t, exec (.debugRegisterAccess p (.x i) (some v)) s = .next t ∧ t.bus = ⟨0, false⟩ ∧ t.regs = s.regs ∧ t.mem = s.mem ∧
      t.cores[p.val].main.x[i.val] = (if i.val = 0 then s.cores[p.val].main.x[0] else v) ∧
      t.cores[p.val].double.x[i.val] = (if i.val = 0 then s.cores[p.val].double.x[0] else v)) ∧
      (∃ t, exec (.debugRegisterAccess p (.x i) none) s = .next t ∧ t.bus = ⟨s.cores[p.val].main.x[i.val], false⟩ ∧
      (s.cores[p.val].main.x[i.val] = s.cores[p.val].double.x[i.val] → t.regs = s.regs ∧ t.cores = s.cores))) ∧
  (∀ (s : State) (p : Pair) (rd : Fin 32) (imm : BitVec 12),
    coreStopped s = false →
    s.on F.KEEP_STAT_DBGOPEN = true →
    s.bit F.DBL_STAT_RUN p = true →
    s.bit F.DBL_STAT_DBGHALT p = true →
    ∃ t, exec (.debugProgramBuffer p [BitVec.ofNat 32 (imm.toNat * 2 ^ 20 + rd.val * 128 + 0x13), 0x00100073]) s = .next t ∧
      t.bus = ⟨0, false⟩ ∧ (rd.val ≠ 0 → t.cores[p.val].main.x[rd.val] = s.cores[p.val].main.x[0] + imm.signExtend 32 ∧
      t.cores[p.val].double.x[rd.val] = s.cores[p.val].double.x[0] + imm.signExtend 32) ∧
      t.cores[p.val].main.pc = s.cores[p.val].main.pc ∧ t.cores[p.val].main.machineMode = s.cores[p.val].main.machineMode ∧
      (∀ q : Pair, q ≠ p → t.cores[q.val] = s.cores[q.val]) ∧ t.regs = s.regs ∧ t.mem = s.mem) ∧
  (∀ (s : State) (p : Pair) (k : Nat) (v : Word),
    coreStopped s = false →
    s.on F.KEEP_STAT_DBGOPEN = true →
    s.bit F.DBL_STAT_RUN p = true →
    exec (.debugTriggerWrite p k v) s =
      .next (modCopies p (fun c => { c with triggers := Tab.put (fun _ => 0) c.triggers k v }) s)) ∧
  (∀ (s : State),
    coreStopped s = true →
    (∀ (x0 : BitVec 4), exec (.injectionTestStart x0) s = .next s) ∧
      (∀ (x0 : List PairTest), exec (.injectionTestDone x0) s = .next s) ∧
      (∀ (x0 : HaltedPair), exec (.debugHalt x0) s = .next s) ∧
      (∀ (x0 : Pair), exec (.debugResume x0) s = .next s) ∧
      (∀ (x0 : Pair), exec (.debugSingleStep x0) s = .next s) ∧
      (∀ (x0 : Pair) (x1 : CoreReg) (x2 : Option Word), exec (.debugRegisterAccess x0 x1 x2) s = .next s) ∧
      (∀ (x0 : Pair) (x1 : List Word), exec (.debugProgramBuffer x0 x1) s = .next s) ∧
      (∀ (x0 : Pair) (x1 : Nat) (x2 : Word), exec (.debugTriggerWrite x0 x1 x2) s = .next s))

/-- SERVICE_RESTART runs a stopped S again from its verified image, that of the bank booted, and GAFFER_RESTART runs G again, both done by K and not while a start holds the engine; BUSERR_VALID_CLEAR clears VALID, COUNT and OVF; a monitor window in its bands shows the deviations and sets nothing; a first window out of its band sets its flag alone; a second window of the same monitor out of band, and a loss of lock, set the cut latch with cause CLK; while the monitors are suspended nothing happens. Complete, that is exec answers a next state, with the queue as it was, from every state and with every operand: SERVICE_RESTART, GAFFER_RESTART, BUSERR_VALID_CLEAR, CLOCK_MONITOR_WINDOW, PLL_LOSS_OF_LOCK. -/
def Obligations.EngineRestartsAndMonitors : Prop :=
  (∀ (s : State),
    (s.keep.start = none → s.keep.failWait = false → issues s .k = true → s.sys.sDown = true → ∃ t, exec .serviceRestart s = .next t ∧
      t.sys = { s.sys with sDown := false } ∧ t.regs = s.regs ∧
      (imageOf s (s.on F.KEEP_STAT_BANK) 2 = none → t.mem = s.mem) ∧
      (∀ h, imageOf s (s.on F.KEEP_STAT_BANK) 2 = some h → t = loadImage h (s.modSys (fun y => { y with sDown := false })))) ∧
      (s.keep.start.isSome = true ∨ s.keep.failWait = true ∨ issues s .k = false ∨ s.sys.sDown = false → exec .serviceRestart s = .next s)) ∧
  (∀ (s : State),
    (s.keep.start = none → enginesHeld s = false → issues s .k = true → exec .gafferRestart s = .next (s.modSys (fun y => { y with gDown := false }))) ∧
      (s.keep.start.isSome = true ∨ enginesHeld s = true ∨ issues s .k = false → exec .gafferRestart s = .next s)) ∧
  (∀ (s : State),
    ∃ t, exec .buserrValidClear s = .next t ∧ t.get F.SYS_BUSERR_VALID = 0 ∧ t.get F.SYS_BUSERR_COUNT = 0 ∧
      t.get F.SYS_BUSERR_OVF = 0 ∧ t.get F.SYS_BUSERR_REQ = s.get F.SYS_BUSERR_REQ ∧ t.get F.SYS_BUSERR_WR = s.get F.SYS_BUSERR_WR ∧
      (∀ a, a ≠ 0x40000040 → t.rd a = s.rd a) ∧ t.mem = s.mem) ∧
  (∀ (s : State) (v a : Int),
    s.sys.suspended = false →
    (v.natAbs ≤ 400 ∧ a.natAbs ≤ 600) →
    exec (.clockMonitorWindow v (some a)) s = .next ((((s.putS F.SYS_CLKMON_VRCDEV (shownDev s v)).putS F.SYS_CLKMON_AORCDEV (shownDev s a)).drew).modSys
      (fun z => { z with vrcOut := false, aorcOut := false, okWindows := min 10 (z.okWindows + 1) }))) ∧
  (∀ (s : State) (v a : Int),
    s.sys.suspended = false →
    ((s.sys.vrcOut = true ∧ 400 < v.natAbs) ∨ (s.sys.aorcOut = true ∧ 600 < a.natAbs)) →
    ∃ t, exec (.clockMonitorWindow v (some a)) s = .next (setCut causeClk t) ∧ (400 < v.natAbs → t.get F.SYS_CLKMON_VRCOUT = 1) ∧
      (600 < a.natAbs → t.get F.SYS_CLKMON_AORCOUT = 1) ∧ t.sys.okWindows = 0 ∧ t.mem = s.mem) ∧
  (∀ (s : State) (v a : Int),
    s.sys.suspended = false →
    (s.sys.vrcOut = false ∧ 400 < v.natAbs) →
    a.natAbs ≤ 600 →
    ∃ t, exec (.clockMonitorWindow v (some a)) s = .next t ∧ t.get F.SYS_CLKMON_VRCOUT = 1 ∧ t.sys.vrcOut = true ∧ t.sys.okWindows = 0 ∧
      t.rd 0x40014000 = s.rd 0x40014000 ∧ t.rd 0x40014004 = s.rd 0x40014004 ∧ t.mem = s.mem) ∧
  (∀ (s : State) (v : Int),
    s.sys.suspended = false →
    v.natAbs ≤ 400 →
    exec (.clockMonitorWindow v none) s = .next (((s.putS F.SYS_CLKMON_VRCDEV (shownDev s v)).drew).modSys
      (fun z => { z with vsideOut := false, vsideOk := min 10 (z.vsideOk + 1) }))) ∧
  (∀ (s : State) (v : Int),
    s.sys.suspended = false →
    (s.sys.vsideOut = true ∧ 400 < v.natAbs) →
    ∃ t, exec (.clockMonitorWindow v none) s = .next (setCut causeClk t) ∧ t.get F.SYS_CLKMON_VRCOUT = 1 ∧ t.sys.vsideOk = 0 ∧ t.mem = s.mem) ∧
  (∀ (s : State),
    s.sys.suspended = false →
    exec .pllLossOfLock s = .next (setCut causeClk ((s.put F.SYS_CLKMON_LOCK 0).modSys (fun y => { y with okWindows := 0, vsideOk := 0 })))) ∧
  (∀ (s : State) (v : Int) (a : Option Int),
    s.sys.suspended = true →
    exec (.clockMonitorWindow v a) s = .next s ∧ exec .pllLossOfLock s = .next s) ∧
  ((∀ (s : State), ∃ t, exec .serviceRestart s = .next t ∧ t.pending = s.pending) ∧
      (∀ (s : State), ∃ t, exec .gafferRestart s = .next t ∧ t.pending = s.pending) ∧
      (∀ (s : State), ∃ t, exec .buserrValidClear s = .next t ∧ t.pending = s.pending) ∧
      (∀ (s : State) (x0 : Int) (x1 : Option Int), ∃ t, exec (.clockMonitorWindow x0 x1) s = .next t ∧ t.pending = s.pending) ∧
      (∀ (s : State), ∃ t, exec .pllLossOfLock s = .next t ∧ t.pending = s.pending))

/-- A reload at a moving shaft sets RATE to the estimate and the angle to the sample's angle extrapolated to the reload tick, and a step over STEPLIM is shown; a sample that reports zero speed, and STILL's time running out, set STILL with RATE 0; while STILL is 1 a sample that is slow or not confident sets the angle to its own, without extrapolation, and RATE stays 0, and a confident one at STILL_SPD or above clears STILL. While the PLL-clocked blocks stand (RESET_N low, SLEEP or deeper, no always-on supply, held by a sentinel trip) the commands of those blocks change nothing (R546, R583, R604). -/
def Obligations.AngleClockReload : Prop :=
  (∀ (s : State) (b : Bridge) (x : Sample),
    coreStopped s = false →
    (s.on (F.ANG_CTRL_EN b) = true ∧ follows s b = false) →
    s.ang[b.val].deliv = some x →
    exec (.angleReload b) s = .next (reload b x (s.modAng b (fun a => { a with deliv := none })))) ∧
  (∀ (s : State) (b : Bridge) (x : Sample),
    x.zero = false →
    s.on (F.ANG_STAT_STILL b) = false →
    (mcMode s b ≠ modeSixstep ∧ mcMode s b ≠ modeBrake0) →
    (reload b x s).ang[b.val].angle = ofSigned 36 ((x.theta : Int) * 2 ^ 16 + x.rate * ((s.tick - x.ts : Nat) : Int)) ∧
      (reload b x s).get (F.ANG_RATE_RATE b) = ofSigned 32 x.rate ∧
      (s.get (F.ANG_STEPLIM_STEPLIM b) < (circDiff 20 ((reload b x s).ang[b.val].angle / 2 ^ 16) (s.ang[b.val].angle / 2 ^ 16)).natAbs →
      (reload b x s).on (F.ANG_STAT_STEP b) = true)) ∧
  (∀ (s : State) (b : Bridge) (x : Sample),
    x.zero = true →
    (mcMode s b ≠ modeSixstep ∧ mcMode s b ≠ modeBrake0) →
    (reload b x s).on (F.ANG_STAT_STILL b) = true ∧ (reload b x s).get (F.ANG_RATE_RATE b) = 0 ∧
      (reload b x s).ang[b.val].angle = x.theta % 2 ^ 20 * 2 ^ 16) ∧
  (∀ (s : State) (b : Bridge) (x : Sample),
    x.zero = false →
    s.on (F.ANG_STAT_STILL b) = true →
    (mcMode s b ≠ modeSixstep ∧ mcMode s b ≠ modeBrake0) →
    (x.lowConf = true ∨ x.rate.natAbs < s.get (F.ANG_STILL_STILL_SPD b)) →
    (reload b x s).on (F.ANG_STAT_STILL b) = true ∧ (reload b x s).get (F.ANG_RATE_RATE b) = 0 ∧
      (reload b x s).ang[b.val].angle = x.theta % 2 ^ 20 * 2 ^ 16) ∧
  (∀ (s : State) (b : Bridge) (x : Sample),
    (x.zero = false ∧ x.lowConf = false) →
    s.on (F.ANG_STAT_STILL b) = true →
    (mcMode s b ≠ modeSixstep ∧ mcMode s b ≠ modeBrake0) →
    s.get (F.ANG_STILL_STILL_SPD b) ≤ x.rate.natAbs →
    (reload b x s).on (F.ANG_STAT_STILL b) = false ∧ (reload b x s).get (F.ANG_RATE_RATE b) = ofSigned 32 x.rate ∧
      (reload b x s).ang[b.val].angle = ofSigned 36 ((x.theta : Int) * 2 ^ 16 + x.rate * ((s.tick - x.ts : Nat) : Int))) ∧
  (∀ (s : State) (b : Bridge),
    coreStopped s = false →
    (¬(b = 1 ∧ s.on (F.ANG_CTRL_FOLLOW 1) = true)) →
    exec (.stillTimeout b) s = .next (((s.put (F.ANG_STAT_STILL b) 1).put (F.ANG_RATE_RATE b) 0).modAng b (fun a => { a with slow := 0 }))) ∧
  (∀ (s : State),
    coreStopped s = true →
    (∀ (x0 : Bridge), exec (.angleReload x0) s = .next s) ∧
      (∀ (x0 : Bridge), exec (.stillTimeout x0) s = .next s))

/-- A write of SRC drops the sample not yet taken and, for 0x0, sets standstill; EN written to 1 restarts the reference carrier, the tick counts and the outer count; CUEnPOS is held until CUEnCFG is written, which arms the cue and puts both words in force from the next tick (the definition before stays in force in this one); a pulse that ends restores its line; a fall-back cue at standstill fires FB_OFS ticks after an inner or outer tick, without a crossing. While the PLL-clocked blocks stand (RESET_N low, SLEEP or deeper, no always-on supply, held by a sentinel trip) the commands of those blocks change nothing (R546, R583, R604). Complete, that is exec answers a next state, with the queue as it was, from every state and with every operand: ANG_SRC_WRITE, ANG_ENABLE, CUE_FALLBACK_FIRE, CUE_LINE_PULSE_END, CUE_POS_WRITE, CUE_CFG_WRITE. -/
def Obligations.AngleBlockWrites : Prop :=
  (∀ (s : State) (b : Bridge) (src : BitVec 4),
    coreStopped s = false →
    accepted (0x40004000 + 0x1000 * b.val) ((F.ANG_CTRL_SRC b).write (s.rd (angCtrlAddr b)) src.toNat) s = true →
    (written (0x40004000 + 0x1000 * b.val) ((F.ANG_CTRL_SRC b).write (s.rd (angCtrlAddr b)) src.toNat) s).get (F.ANG_CTRL_SRC b) ≠ s.get (F.ANG_CTRL_SRC b) →
    (written (0x40004000 + 0x1000 * b.val) ((F.ANG_CTRL_SRC b).write (s.rd (angCtrlAddr b)) src.toNat) s).on (F.ANG_CTRL_EN b) = s.on (F.ANG_CTRL_EN b) →
    ∃ t, exec (.angSrcWrite b src) s = .next t ∧ t.get (F.ANG_CTRL_SRC b) = (written (0x40004000 + 0x1000 * b.val) ((F.ANG_CTRL_SRC b).write (s.rd (angCtrlAddr b)) src.toNat) s).get (F.ANG_CTRL_SRC b) ∧
      t.ang[b.val].deliv = none ∧ t.ang[b.val].angle = s.ang[b.val].angle ∧ t.mem = s.mem ∧
      ((written (0x40004000 + 0x1000 * b.val) ((F.ANG_CTRL_SRC b).write (s.rd (angCtrlAddr b)) src.toNat) s).get (F.ANG_CTRL_SRC b) = 0 → follows s b = false → t.on (F.ANG_STAT_STILL b) = true ∧ t.get (F.ANG_RATE_RATE b) = 0) ∧
      ((written (0x40004000 + 0x1000 * b.val) ((F.ANG_CTRL_SRC b).write (s.rd (angCtrlAddr b)) src.toNat) s).get (F.ANG_CTRL_SRC b) ≠ 0 → t.on (F.ANG_STAT_STILL b) = s.on (F.ANG_STAT_STILL b) ∧ t.get (F.ANG_RATE_RATE b) = s.get (F.ANG_RATE_RATE b))) ∧
  (∀ (s : State) (b : Bridge),
    coreStopped s = false →
    accepted (0x40004000 + 0x1000 * b.val) ((F.ANG_CTRL_EN b).write (s.rd (angCtrlAddr b)) 1) s = true →
    s.on (F.ANG_CTRL_EN b) = false →
    (written (0x40004000 + 0x1000 * b.val) ((F.ANG_CTRL_EN b).write (s.rd (angCtrlAddr b)) 1) s).on (F.ANG_CTRL_EN b) = true →
    (written (0x40004000 + 0x1000 * b.val) ((F.ANG_CTRL_EN b).write (s.rd (angCtrlAddr b)) 1) s).get (F.ANG_CTRL_SRC b) = s.get (F.ANG_CTRL_SRC b) →
    ∃ t, exec (.angEnable b) s = .next t ∧ t.on (F.ANG_CTRL_EN b) = true ∧ t.get (F.ANG_TICKS_INNER b) = 0 ∧
      t.get (F.ANG_TICKS_OUTER b) = 0 ∧ t.on (F.ANG_STAT_SYNC b) = false ∧ t.ang[b.val].own = false ∧ t.ang[b.val].refCount = 65535 ∧
      t.ang[b.val].ref.step = t.ang[b.val].ref.per ∧ t.ang[b.val].queue = s.ang[b.val].queue ∧ t.mem = s.mem) ∧
  (∀ (s : State) (b : Bridge) (n : Cue) (v : Word),
    coreStopped s = false →
    accepted (0x40004100 + 0x1000 * b.val + 8 * n.val) v s = true →
    exec (.cuePosWrite b n v) s = .next (written (0x40004100 + 0x1000 * b.val + 8 * n.val) v s) ∧
      (written (0x40004100 + 0x1000 * b.val + 8 * n.val) v s).ang = s.ang) ∧
  (∀ (s : State) (b : Bridge) (n : Cue) (v : Word),
    coreStopped s = false →
    accepted (0x40004104 + 0x1000 * b.val + 8 * n.val) v s = true →
    ∃ t, exec (.cueCfgWrite b n v) s = .next t ∧ t.regs = (written (0x40004104 + 0x1000 * b.val + 8 * n.val) v s).regs ∧
      bitAt t.ang[b.val].armed.toNat n.val = true ∧
      (∀ m : Cue, m ≠ n → bitAt t.ang[b.val].armed.toNat m.val = bitAt s.ang[b.val].armed.toNat m.val) ∧
      Tab.get (fun _ => 0) t.ang[b.val].pos n.val = t.rd (0x40004100 + 0x1000 * b.val + 8 * n.val) ∧
      cuePosWord t b n.val = cuePosWord s b n.val ∧ cueCfgWord t b n.val = cueCfgWord s b n.val ∧
      (∀ m, m ≠ n.val → Tab.get (fun _ => 0) t.ang[b.val].pos m = Tab.get (fun _ => 0) s.ang[b.val].pos m) ∧ t.mem = s.mem) ∧
  (∀ (s : State) (b : Bridge) (line : Fin 4),
    coreStopped s = false →
    bitAt s.ang[b.val].pulse.toNat line.val = true →
    ∃ t, exec (.cueLinePulseEnd b line) s = .next t ∧ t.regs = s.regs ∧ t.mem = s.mem ∧
      bitAt t.ang[b.val].lines.toNat line.val = bitAt s.ang[b.val].restore.toNat line.val ∧ bitAt t.ang[b.val].pulse.toNat line.val = false ∧
      (∀ k : Fin 4, k ≠ line → bitAt t.ang[b.val].lines.toNat k.val = bitAt s.ang[b.val].lines.toNat k.val)) ∧
  (∀ (s : State) (b : Bridge) (n : Cue),
    coreStopped s = false →
    (s.on (F.ANG_CTRL_EN b) = true ∧ s.on (F.ANG_STAT_STILL b) = true) →
    cuePrior s b n.val = none →
    (s.on (F.ANG_CUECFG_EN b n) = true ∧ s.on (F.ANG_CUECFG_BASE b n) = false) →
    ((s.get (F.ANG_CUECFG_FB b n) = 1 ∧ ∃ k ∈ s.ang[b.val].inners, k + (cuePosWord s b n.val).toNat / 2 ^ 20 = s.tick) ∨
      (s.get (F.ANG_CUECFG_FB b n) = 2 ∧ ∃ k ∈ s.ang[b.val].outers, k + (cuePosWord s b n.val).toNat / 2 ^ 20 = s.tick)) →
    ∃ t, exec (.cueFallbackFire b n) s = .next t ∧ t.bit (F.ANG_FIRED_FIRED b (n.val / 32)) (n.val % 32) = true ∧
      t.ang[b.val].queue = s.ang[b.val].queue ++ [⟨n, s.ang[b.val].angle / 2 ^ 16, (rateOf s b).sign, s.rd (0x40004104 + 0x1000 * b.val + 8 * n.val)⟩] ∧
      t.ang[b.val].armed = s.ang[b.val].armed ∧ t.mem = s.mem) ∧
  (∀ (s : State) (b : Bridge) (n : Cue),
    coreStopped s = false →
    cuePrior s b n.val = none →
    (s.on (F.ANG_CTRL_EN b) = false ∨ s.on (F.ANG_STAT_STILL b) = false ∨ s.on (F.ANG_CUECFG_EN b n) = false ∨ s.on (F.ANG_CUECFG_BASE b n) = true ∨
      s.get (F.ANG_CUECFG_FB b n) = 0 ∨ s.get (F.ANG_CUECFG_FB b n) = 3) →
    exec (.cueFallbackFire b n) s = .next s) ∧
  (∀ (s : State),
    coreStopped s = true →
    (∀ (x0 : Bridge) (x1 : BitVec 4), exec (.angSrcWrite x0 x1) s = .next s) ∧
      (∀ (x0 : Bridge), exec (.angEnable x0) s = .next s) ∧
      (∀ (x0 : Bridge) (x1 : Cue), exec (.cueFallbackFire x0 x1) s = .next s) ∧
      (∀ (x0 : Bridge) (x1 : Fin 4), exec (.cueLinePulseEnd x0 x1) s = .next s) ∧
      (∀ (x0 : Bridge) (x1 : Cue) (x2 : Word), exec (.cuePosWrite x0 x1 x2) s = .next s) ∧
      (∀ (x0 : Bridge) (x1 : Cue) (x2 : Word), exec (.cueCfgWrite x0 x1 x2) s = .next s)) ∧
  ((∀ (s : State) (x0 : Bridge) (x1 : BitVec 4), ∃ t, exec (.angSrcWrite x0 x1) s = .next t ∧ t.pending = s.pending) ∧
      (∀ (s : State) (x0 : Bridge), ∃ t, exec (.angEnable x0) s = .next t ∧ t.pending = s.pending) ∧
      (∀ (s : State) (x0 : Bridge) (x1 : Cue), ∃ t, exec (.cueFallbackFire x0 x1) s = .next t ∧ t.pending = s.pending) ∧
      (∀ (s : State) (x0 : Bridge) (x1 : Fin 4), ∃ t, exec (.cueLinePulseEnd x0 x1) s = .next t ∧ t.pending = s.pending) ∧
      (∀ (s : State) (x0 : Bridge) (x1 : Cue) (x2 : Word), ∃ t, exec (.cuePosWrite x0 x1 x2) s = .next t ∧ t.pending = s.pending) ∧
      (∀ (s : State) (x0 : Bridge) (x1 : Cue) (x2 : Word), ∃ t, exec (.cueCfgWrite x0 x1 x2) s = .next t ∧ t.pending = s.pending))

/-- CUE_DISPATCH takes the first queued cue and issues its action: 0b000 asks ISNS for a window, 0b001 moves the sector of a block in SIXSTEP by the sign RATE had as the cue fired, and moves none for a cue fired while RATE was 0, 0b010 acts on a line, 0b011 triggers an engine, 0b100 latches the table entry of the cue's angle and triggers. With nothing queued it does nothing. While the PLL-clocked blocks stand (RESET_N low, SLEEP or deeper, no always-on supply, held by a sentinel trip) the commands of those blocks change nothing (R546, R583, R604). Complete, that is exec answers a next state, with the queue as it was, from every state and with every operand: CUE_DISPATCH. -/
def Obligations.CueActions : Prop :=
  (∀ (s : State) (b : Bridge) (h : CueHit) (q : List CueHit),
    coreStopped s = false →
    s.ang[b.val].queue = h :: q →
    h.cfg.toNat / 64 % 8 = 0 →
    exec (.cueDispatch b) s = .next (windowAction b ⟨h.cfg.toNat / 65536 % 4, Nat.mod_lt _ (by decide)⟩ (s.modAng b (fun a => { a with queue := q })))) ∧
  (∀ (s : State) (b : Bridge) (h : CueHit) (q : List CueHit),
    coreStopped s = false →
    s.ang[b.val].queue = h :: q →
    h.cfg.toNat / 64 % 8 = 1 →
    mcMode s b = modeSixstep →
    (s.mc[b.val].returnReq = false ∧ s.mc[b.val].slowSector = false) →
    (h.dir = 1 ∨ h.dir = -1) →
    ∃ t, exec (.cueDispatch b) s = .next t ∧ (t.get (F.MC_STAT_SECTOR b) : Int) = (s.get (F.MC_STAT_SECTOR b) + h.dir) % 6 ∧
      t.mc[b.val].commutTick = s.tick ∧ t.ang[b.val].queue = q ∧ mcMode t b = modeSixstep ∧ t.mem = s.mem) ∧
  (∀ (s : State) (b : Bridge) (h : CueHit) (q : List CueHit),
    coreStopped s = false →
    s.ang[b.val].queue = h :: q →
    h.cfg.toNat / 64 % 8 = 1 →
    (mcMode s b ≠ modeSixstep ∨ (s.mc[b.val].returnReq = false ∧ h.dir = 0)) →
    exec (.cueDispatch b) s = .next (s.modAng b (fun a => { a with queue := q }))) ∧
  (∀ (s : State) (b : Bridge) (h : CueHit) (q : List CueHit),
    coreStopped s = false →
    s.ang[b.val].queue = h :: q →
    h.cfg.toNat / 64 % 8 = 2 →
    exec (.cueDispatch b) s =
      .next (lineAct b (h.cfg.toNat / 512 % 4) (h.cfg.toNat / 2048 % 4) (s.modAng b (fun a => { a with queue := q })))) ∧
  (∀ (s : State) (b : Bridge) (h : CueHit) (q : List CueHit) (e : Eng),
    coreStopped s = false →
    s.ang[b.val].queue = h :: q →
    (h.cfg.toNat / 64 % 8 = 3 ∨ h.cfg.toNat / 64 % 8 = 4) →
    h.cfg.toNat / 8192 % 8 = e.val →
    engineTakes s e = true →
    (s.eng[e.val].pending.any (fun t => t.orig == .cue b h.cue) = false) →
    ∃ t, exec (.cueDispatch b) s = .next t ∧ t.ang[b.val].queue = q ∧
      t.eng[e.val].pending = s.eng[e.val].pending ++ [⟨.cue b h.cue, BitVec.ofNat 8 (h.cfg.toNat / 65536), s.tick⟩] ∧
      (h.cfg.toNat / 64 % 8 = 3 → t.regs = s.regs) ∧
      (h.cfg.toNat / 64 % 8 = 4 → t.get (F.ANG_TABOUT_TABOUT b) = s.get (F.ANG_TABLE_ENTRY b (h.angle / 4096))) ∧ t.mem = s.mem) ∧
  (∀ (s : State) (b : Bridge),
    coreStopped s = false →
    s.ang[b.val].queue = [] →
    exec (.cueDispatch b) s = .next s) ∧
  (∀ (s : State),
    coreStopped s = true →
    (∀ (x0 : Bridge), exec (.cueDispatch x0) s = .next s)) ∧
  ((∀ (s : State) (x0 : Bridge), ∃ t, exec (.cueDispatch x0) s = .next t ∧ t.pending = s.pending))

/-- A valley of the reference carrier begins a period of ASYNC_PER steps and, in asynchronous mode, is an inner tick: the last committed duty set is loaded, clamped to 0 to DMAX, the inner tick is counted and the engines that ask for it are triggered. It is a reference inner tick too, and with INNER_X so is the peak; without INNER_X the peak does nothing. A carrier that is not enabled does nothing. While the PLL-clocked blocks stand (RESET_N low, SLEEP or deeper, no always-on supply, held by a sentinel trip) the commands of those blocks change nothing (R546, R583, R604). -/
def Obligations.CarrierValleysAndPeaks : Prop :=
  (∀ (s : State) (b : Bridge),
    coreStopped s = false →
    s.on (F.ANG_CTRL_EN b) = true →
    s.ang[b.val].own = false →
    b ≠ mainBridge s →
    s.get (F.ANG_CTRL_MODE_REQ b) ≠ 1 →
    exec (.carrierValley b true) s = .next (carrierCues b (-1) 0 (refInnerTick b true (innerTick b (s.modAng b (fun a => { a with
      ref := ⟨0, s.get (F.ANG_PER_ASYNC_PER b), 0, false⟩, valleyTick := s.tick })))))) ∧
  (∀ (s : State) (b : Bridge),
    coreStopped s = false →
    s.on (F.ANG_CTRL_EN b) = true →
    s.ang[b.val].own = false →
    b = mainBridge s →
    s.get (F.ANG_CTRL_MODE_REQ b) ≠ 1 →
    (∀ e : Port, s.ebp[e.val].err = none ∧ s.getS (F.EBP_SLATE_TRIM e) = 0) →
    exec (.carrierValley b true) s = .next (carrierCues b (-1) 0 (refInnerTick b true (innerTick b ((s.modAng b (fun a => { a with
      ref := ⟨0, s.get (F.ANG_PER_ASYNC_PER b), 0, false⟩, valleyTick := s.tick })).modCont (fun c => { c with xrefHere := false })))))) ∧
  (∀ (s : State) (b : Bridge),
    coreStopped s = false →
    s.on (F.ANG_CTRL_EN b) = true →
    s.ang[b.val].own = false →
    exec (.carrierPeak b true) s = .next (if s.on (F.ANG_CTRL_INNER_X b) then refInnerTick b false (innerTick b s) else s)) ∧
  (∀ (s : State) (b : Bridge),
    (s.mc[b.val].clampLeft = 0 ∧ s.mc[b.val].commitTick ≠ some s.tick) →
    (innerTick b s).get (F.ANG_TICKS_INNER b) = (s.get (F.ANG_TICKS_INNER b) + 1) % 65536 ∧
      (innerTick b s).mc[b.val].loaded = ⟨clampDuty s b s.mc[b.val].committed.d1, clampDuty s b s.mc[b.val].committed.d2,
      clampDuty s b s.mc[b.val].committed.d3⟩ ∧ (innerTick b s).mem = s.mem) ∧
  (∀ (s : State) (b : Bridge) (r : Bool),
    coreStopped s = false →
    s.on (F.ANG_CTRL_EN b) = false →
    exec (.carrierValley b r) s = .next s ∧ exec (.carrierPeak b r) s = .next s) ∧
  (∀ (s : State),
    coreStopped s = true →
    (∀ (x0 : Bridge) (x1 : Bool), exec (.carrierValley x0 x1) s = .next s) ∧
      (∀ (x0 : Bridge) (x1 : Bool), exec (.carrierPeak x0 x1) s = .next s))

/-- Every tick counts the model's time by one, and the lane timer with it while the PLL runs (state 0 or 1 with the always-on domain powered); elsewhere the lane timer stands. A running angle clock whose speed is at least STILL_SPD advances by RATE modulo 2^20 counts of 2^16 parts; one at standstill holds its angle; one that is not enabled holds it too, and so do both in SLEEP, DEEP and OFF; ANGB under FOLLOW takes ANGA's new angle plus SHIFT, and ANGA's RATE and STILL. -/
def Obligations.TimerTickAdvancesAngle : Prop :=
  (∀ (s : State) (b : Bridge),
    (s.pwr.aoPowered = true ∧ s.get F.PWR_STAT_STATE < 2) →
    s.on (F.ANG_CTRL_EN b) = true →
    s.on (F.ANG_STAT_STILL b) = false →
    s.get (F.ANG_STILL_STILL_SPD b) ≤ speedOf s b →
    (¬(b = 1 ∧ s.on (F.ANG_CTRL_FOLLOW 1) = true)) →
    ∃ t, exec .angleClockTick s = .next t ∧ t.tick = s.tick + 1 ∧ t.rd (0x4000400C + 0x1000 * b.val) = s.rd (0x4000400C + 0x1000 * b.val) ∧
      t.ang[b.val].angle = ofSigned 36 ((s.ang[b.val].angle : Int) + s.getS (F.ANG_RATE_RATE b)) ∧
      t.get (F.ANG_ANGLE_ANGLE b) = t.ang[b.val].angle / 2 ^ 16 ∧ (s.sys.timer0 ≤ s.tick → laneTimer t = laneTimer s + 1)) ∧
  (∀ (s : State) (b : Bridge),
    (s.pwr.aoPowered = false ∨ 2 ≤ s.get F.PWR_STAT_STATE ∨ s.on (F.ANG_CTRL_EN b) = false ∨ (s.on (F.ANG_STAT_STILL b) = true ∧ ¬(b = 1 ∧ s.on (F.ANG_CTRL_FOLLOW 1) = true))) →
    ∃ t, exec .angleClockTick s = .next t ∧ t.tick = s.tick + 1 ∧ t.ang[b.val].angle = s.ang[b.val].angle ∧ t.mem = s.mem) ∧
  (∀ (s : State),
    ∃ t, exec .angleClockTick s = .next t ∧ (s.pwr.aoPowered = true → s.get F.PWR_STAT_STATE < 2 → s.sys.timer0 ≤ s.tick → laneTimer t = laneTimer s + 1) ∧
      (s.pwr.aoPowered = false ∨ 2 ≤ s.get F.PWR_STAT_STATE → laneTimer t = laneTimer s)) ∧
  (∀ (s : State),
    (s.pwr.aoPowered = true ∧ s.get F.PWR_STAT_STATE < 2) →
    (s.on (F.ANG_CTRL_EN 1) = true ∧ s.on (F.ANG_CTRL_FOLLOW 1) = true) →
    ∃ t, exec .angleClockTick s = .next t ∧ t.ang[1].angle = (t.ang[0].angle + s.get (F.ANG_SHIFT_SHIFT 1) * 2 ^ 16) % 2 ^ 36 ∧
      t.get (F.ANG_ANGLE_ANGLE 1) = t.ang[1].angle / 2 ^ 16 ∧ t.get (F.ANG_RATE_RATE 1) = t.get (F.ANG_RATE_RATE 0) ∧
      t.on (F.ANG_STAT_STILL 1) = t.on (F.ANG_STAT_STILL 0))

/-- A first sample of good amplitude sets FINE, negated under DIRINV, within 2 counts of the corrected pair's angle, taken as the model's own integer CORDIC gives it (log entry 8, a modelling choice), and makes an interface that waits valid; one of bad amplitude below AMP_N in a row is counted and not used; an index event that homes sets the count to IDX_EXP, sets HOMED and clears UNCERT. While the PLL-clocked blocks stand (RESET_N low, SLEEP or deeper, no always-on supply, held by a sentinel trip) the commands of those blocks change nothing (R546, R583, R604). Complete, that is exec answers a next state, with the queue as it was, from every state and with every operand: SINCOS_SAMPLE, INDEX_EDGE. -/
def Obligations.SineCosineAndIndex : Prop :=
  (∀ (s : State) (k : PosBlk) (x y : BitVec 16),
    coreStopped s = false →
    s.on (F.POS_CTRL_SC_EN k) = true →
    ampOk s k (correctPair s k x y) = true →
    s.pos[k.val].sc.primed = false →
    s.pos[k.val].sc.awaiting = true →
    ∃ t f, exec (.sincosSample k x y) s = .next t ∧ t.get (F.POS_SC_FINE k) = ofSigned 20 (if s.on (F.POS_CTRL_DIRINV k) then -f else f) ∧
      (256 * f - (angle28 (correctPair s k x y).1 (correctPair s k x y).2 : Int)).natAbs ≤ 512 ∧
      t.on (F.POS_STAT_SCVAL k) = true ∧ t.pos[k.val].sc.bad = 0 ∧ t.pos[k.val].sc.primed = true ∧
      t.get (F.POS_SC_PIDX k) = s.get (F.POS_SC_PIDX k)) ∧
  (∀ (s : State) (k : PosBlk) (x y : BitVec 16),
    coreStopped s = false →
    s.on (F.POS_CTRL_SC_EN k) = true →
    ampOk s k (correctPair s k x y) = false →
    s.pos[k.val].sc.bad + 1 < s.get (F.POS_SCCFG_AMP_N k) →
    exec (.sincosSample k x y) s = .next ((s.countBit (F.POS_ERR1_AMPFLT k) (F.POS_ERROVF_OVF k) 2).modPos k
      (fun p => { p with sc := { p.sc with bad := s.pos[k.val].sc.bad + 1 } }))) ∧
  (∀ (s : State) (k : PosBlk) (r : Bool),
    coreStopped s = false →
    s.on (F.POS_CTRL_ABZ_EN k) = true →
    s.pos[k.val].abz.lastZ = none →
    (s.pos[k.val].abz.dir = some r ∧ s.pos[k.val].abz.known = true) →
    (s.on (F.POS_CTRL_HOME_EN k) = true ∧ s.on (F.POS_STAT_HOMED k) = false) →
    ∃ t, exec (.indexEdge k r) s = .next t ∧ t.on (F.POS_STAT_HOMED k) = true ∧ t.on (F.POS_STAT_UNCERT k) = false ∧
      t.pos[k.val].abz.ci = (s.get (F.POS_IDX_IDX_EXP k) : Int) % (4 * (s.get (F.POS_ABZCFG_LINES k) + 1) : Nat) ∧
      t.pos[k.val].abz.lastZ = some s.tick ∧ t.mem = s.mem) ∧
  (∀ (s : State) (k : PosBlk) (r : Bool),
    coreStopped s = false →
    s.on (F.POS_CTRL_ABZ_EN k) = true →
    s.pos[k.val].abz.lastZ = none →
    (s.pos[k.val].abz.dir ≠ some r ∨ s.pos[k.val].abz.known = false) →
    exec (.indexEdge k r) s = .next (s.modPos k (fun p => { p with abz := { p.abz with lastZ := some s.tick } }))) ∧
  (∀ (s : State),
    coreStopped s = true →
    (∀ (x0 : PosBlk) (x1 : BitVec 16) (x2 : BitVec 16), exec (.sincosSample x0 x1 x2) s = .next s) ∧
      (∀ (x0 : PosBlk) (x1 : Bool), exec (.indexEdge x0 x1) s = .next s)) ∧
  ((∀ (s : State) (x0 : PosBlk) (x1 : BitVec 16) (x2 : BitVec 16), ∃ t, exec (.sincosSample x0 x1 x2) s = .next t ∧ t.pending = s.pending) ∧
      (∀ (s : State) (x0 : PosBlk) (x1 : Bool), ∃ t, exec (.indexEdge x0 x1) s = .next t ∧ t.pending = s.pending))

/-- A change one step forward, no sooner than tEDGE_MIN, is an accepted edge: the count moves by one, and Hall delivers the boundary angle; a change too soon is counted and resampled; at the resampling an unchanged state does nothing; standstill reports speed zero; creep reports one count over the time since the last edge. A change of two steps at once is a state fault. While the PLL-clocked blocks stand (RESET_N low, SLEEP or deeper, no always-on supply, held by a sentinel trip) the commands of those blocks change nothing (R546, R583, R604). -/
def Obligations.EdgeInterfaces : Prop :=
  (∀ (s : State) (k : PosBlk) (x y : Bool),
    coreStopped s = false →
    (s.on (F.POS_CTRL_ABZ_EN k) = true ∧ s.on (F.POS_CTRL_DIRINV k) = false) →
    s.pos[k.val].abz.last = none →
    (abzIndex (x.toNat + 2 * y.toNat) + 4 - abzIndex s.pos[k.val].abz.code.toNat) % 4 = 1 →
    ∃ t, exec (.abzEdge k x y) s = .next t ∧
      t.pos[k.val].abz.ci = (s.pos[k.val].abz.ci + 1) % (4 * (s.get (F.POS_ABZCFG_LINES k) + 1) : Nat) ∧
      t.pos[k.val].abz.dir = some true ∧ t.pos[k.val].abz.last = some s.tick ∧ t.pos[k.val].abz.awaiting = false ∧ t.mem = s.mem) ∧
  (∀ (s : State) (k : PosBlk) (x y : Bool) (t0 : Nat),
    coreStopped s = false →
    s.on (F.POS_CTRL_ABZ_EN k) = true →
    s.pos[k.val].abz.last = some t0 →
    s.tick < t0 + 2 * s.get (F.POS_ABZCFG_TEDGE k) →
    exec (.abzEdge k x y) s = .next ((s.countBit (F.POS_ERR0_EDGEFLT k) (F.POS_ERROVF_OVF k) 0).modPos k
      (fun p => { p with abz := { p.abz with resample := p.abz.resample ++ [s.tick + 2 * s.get (F.POS_ABZCFG_TEDGE k)] } }))) ∧
  (∀ (s : State) (k : PosBlk) (x y : Bool),
    coreStopped s = false →
    s.on (F.POS_CTRL_ABZ_EN k) = true →
    s.pos[k.val].abz.last = none →
    (abzIndex (x.toNat + 2 * y.toNat) + 4 - abzIndex s.pos[k.val].abz.code.toNat) % 4 = 2 →
    ∃ t, exec (.abzEdge k x y) s = .next t ∧ t.pos[k.val].abz.ci = s.pos[k.val].abz.ci ∧ t.on (F.POS_STAT_ABZVAL k) = false ∧
      t.on (F.POS_STAT_UNCERT k) = true) ∧
  (∀ (s : State) (k : PosBlk) (l : EdgeLines),
    coreStopped s = false →
    s.on (F.POS_CTRL_ABZ_EN k) = true →
    s.pos[k.val].abz.resample = [s.tick] →
    (∀ u ∈ s.pos[k.val].hall.resample, s.tick < u) →
    s.pos[k.val].abz.code = BitVec.ofNat 3 (l.a.toNat + 2 * l.b.toNat) →
    ∃ t, exec (.edgeResample k l) s = .next t ∧ t.regs = s.regs ∧ t.pos[k.val].abz = { s.pos[k.val].abz with resample := [] } ∧
      t.pos[k.val].hall = s.pos[k.val].hall ∧ t.mem = s.mem) ∧
  (∀ (s : State) (k : PosBlk) (c : BitVec 3) (new old : Nat),
    coreStopped s = false →
    s.on (F.POS_CTRL_HALL_EN k) = true →
    s.pos[k.val].hall.last = none →
    (hallSector s k c.toNat = some new ∧ hallSector s k s.pos[k.val].hall.code.toNat = some old) →
    (new + 6 - old) % 6 = 1 →
    ∃ t, exec (.hallEdge k c) s = .next t ∧ t.get (F.POS_CNT_HSECT k) = new ∧ t.pos[k.val].hall.theta = hallBoundary s k new ∧
      t.pos[k.val].hall.ci = (s.pos[k.val].hall.ci + 1) % (6 * (s.get (F.POS_CTRL_PP k) + 1) : Nat) ∧ t.pos[k.val].hall.code = c ∧ t.mem = s.mem) ∧
  (∀ (s : State) (k : PosBlk) (i : EdgeIface),
    coreStopped s = false →
    s.on (ifaceEn k (edgeIdx i)) = true →
    ∃ t, exec (.edgeStandstill k i) s = .next t ∧ (edgeOf t k i).speed = 0 ∧ (edgeOf t k i).ticks = [] ∧ (edgeOf t k i).interval = none ∧
      (edgeOf t k i).ci = (edgeOf s k i).ci ∧ t.mem = s.mem) ∧
  (∀ (s : State) (k : PosBlk) (i : EdgeIface) (span n t0 : Nat),
    coreStopped s = false →
    s.on (ifaceEn k (edgeIdx i)) = true →
    ((edgeOf s k i).interval = some (span, n) ∧ (edgeOf s k i).last = some t0) →
    span < (s.tick - t0) * n →
    ∃ t, exec (.creepSample k i) s = .next t ∧ (edgeOf t k i).lowConf = false ∧ (edgeOf t k i).ci = (edgeOf s k i).ci ∧
      (edgeOf t k i).speed = (if (edgeOf s k i).dir = some false then -edgeSpeed s k i 1 (s.tick - t0) else edgeSpeed s k i 1 (s.tick - t0)) ∧
      t.mem = s.mem) ∧
  (∀ (s : State),
    coreStopped s = true →
    (∀ (x0 : PosBlk) (x1 : Bool) (x2 : Bool), exec (.abzEdge x0 x1 x2) s = .next s) ∧
      (∀ (x0 : PosBlk) (x1 : EdgeLines), exec (.edgeResample x0 x1) s = .next s) ∧
      (∀ (x0 : PosBlk) (x1 : BitVec 3), exec (.hallEdge x0 x1) s = .next s) ∧
      (∀ (x0 : PosBlk) (x1 : EdgeIface), exec (.edgeStandstill x0 x1) s = .next s) ∧
      (∀ (x0 : PosBlk) (x1 : EdgeIface), exec (.creepSample x0 x1) s = .next s))

/-- A valid SENT frame shows its data and position and makes a waiting channel valid; a bad CRC alone is counted; a time-out makes a valid channel invalid and tells the failover unit; REVAL lets an invalid source wait for its next good sample; MTSET sets TURNS and clears UNCERT and leaves MECH; without a borrowed frame for two periods BVALID clears; a compare value is stored and its unit goes on with the old one for the rest of the cycle; EMU moves one count towards its source once TMIN has passed since its last edge, stays before, and freezes without a source. While the PLL-clocked blocks stand (RESET_N low, SLEEP or deeper, no always-on supply, held by a sentinel trip) the commands of those blocks change nothing (R546, R583, R604). Complete, that is exec answers a next state, with the queue as it was, from every state and with every operand: SENT_FRAME, SENT_TIMEOUT, MT_SET, POS_REVAL, SENT_REVAL, BORROW_TIMEOUT, COMPARE_VAL_WRITE, EMU_STEP. -/
def Obligations.PositionSourcesAndOutputs : Prop :=
  (∀ (s : State) (c : SentCh) (f : SentFrame),
    coreStopped s = false →
    s.on (F.SENT_CFG_EN c) = true →
    (sentShapeOk s c f = true ∧ sentCrcOk s c f = true) →
    s.on (F.SENT_MAP_DIRINV c) = false →
    s.sent[c.val].awaiting = true →
    ∃ t, exec (.sentFrame c f) s = .next t ∧ t.on (F.SENT_STAT_VALID c) = true ∧
      t.get (F.SENT_MECH_MECH c) = sentData f / 2 ^ s.get (F.SENT_MAP_LSB c) % 2 ^ s.get (F.SENT_MAP_BITS c) * 2 ^ (24 - s.get (F.SENT_MAP_BITS c)) % 2 ^ 24 ∧
      t.get (F.SENT_DATA_STATUS c) = sentStatus f ∧ t.sent[c.val].bad = 0 ∧ t.sent[c.val].awaiting = false ∧ t.mem = s.mem) ∧
  (∀ (s : State) (c : SentCh) (f : SentFrame),
    coreStopped s = false →
    s.on (F.SENT_CFG_EN c) = true →
    (sentShapeOk s c f = true ∧ sentCrcOk s c f = false) →
    s.sent[c.val].bad + 1 < s.get (F.SENT_CFG_ERRLIM c) →
    exec (.sentFrame c f) s = .next ((s.count (F.SENT_STAT_CRCERR c) (F.SENT_STAT_CRCOVF c)).modSent c (fun x => { x with bad := x.bad + 1, serial := [] }))) ∧
  (∀ (s : State) (c : SentCh),
    coreStopped s = false →
    s.on (F.SENT_STAT_VALID c) = true →
    exec (.sentTimeout c) s = .next (failover (7 + c.val) (emuFollow (emuValid s) (s.put (F.SENT_STAT_VALID c) 0)))) ∧
  (∀ (s : State) (c : SentCh),
    coreStopped s = false →
    s.on (F.SENT_STAT_VALID c) = false →
    exec (.sentReval c) s = .next (s.modSent c (fun x => { x with awaiting := true, bad := 0 }))) ∧
  (∀ (s : State) (k : PosBlk) (m : BitVec 3),
    coreStopped s = false →
    ∃ t, exec (.posReval k m) s = .next t ∧ t.regs = s.regs ∧ t.mem = s.mem ∧
      (m.toNat.testBit 0 = true ∧ s.on (F.POS_STAT_SCVAL k) = false → t.pos[k.val].sc.awaiting = true) ∧
      (m.toNat.testBit 1 = true ∧ s.on (F.POS_STAT_ABZVAL k) = false → t.pos[k.val].abz.awaiting = true ∧ t.pos[k.val].abz.known = false) ∧
      (m.toNat.testBit 2 = true ∧ s.on (F.POS_STAT_HALLVAL k) = false → t.pos[k.val].hall.awaiting = true ∧ t.pos[k.val].hall.known = false) ∧
      (m = 0 → t = s)) ∧
  (∀ (s : State) (k : PosBlk) (v : Word),
    coreStopped s = false →
    ∃ t, exec (.mtSet k v) s = .next t ∧ t.pos[k.val].turns = v.toNat / 65536 ∧ t.on (F.POS_STAT_UNCERT k) = false ∧
      t.get (F.POS_MECH_MECH k) = s.get (F.POS_MECH_MECH k) ∧
      t.get (F.POS_MT_MT k) = (v.toNat / 65536 * 65536 + s.get (F.POS_MECH_MECH k) / 256) % 2 ^ 32 ∧ t.mem = s.mem) ∧
  (∀ (s : State),
    coreStopped s = false →
    ∃ t, exec .borrowTimeout s = .next (if s.on (F.POS_BORROW_BVALID 0) then failover 0xB t else t) ∧ t.on (F.POS_BORROW_BVALID 0) = false ∧
      t.borrow.mech = s.borrow.mech ∧ (∀ a, a ≠ (F.POS_BORROW_BVALID 0).addr → a ≠ F.EMU_STAT_RUN.addr → t.rd a = s.rd a) ∧ t.mem = s.mem) ∧
  (∀ (s : State) (k : PosBlk) (j : Fin 2) (u : Fin 4) (v : Word),
    coreStopped s = false →
    u.val = 2 * k.val + j.val →
    accepted (0x40006074 + 0x1000 * k.val + 0x10 * j.val) v s = true →
    ∃ t, exec (.compareValWrite u v) s = .next t ∧ t.regs = (written (0x40006074 + 0x1000 * k.val + 0x10 * j.val) v s).regs ∧
      compareVal t k j = compareVal s k j ∧ t.mem = s.mem ∧ ∀ q : PosBlk, q ≠ k → t.pos[q.val] = s.pos[q.val]) ∧
  (∀ (s : State) (m L : Nat),
    coreStopped s = false →
    s.on F.EMU_CTRL_EN = true →
    (emuSource s = some m ∧ emuSpaced s = true) →
    (L = 4 * (s.get F.EMU_CFG_LINES + 1) ∧ s.get F.EMU_STAT_OUTCNT < L) →
    (s.get F.EMU_STAT_OUTCNT + 1) % L = m * L / 2 ^ 24 →
    ∃ t, exec .emuStep s = .next t ∧ t.get F.EMU_STAT_OUTCNT = m * L / 2 ^ 24 ∧ t.on F.EMU_STAT_RUN = true ∧
      t.on F.EMU_STAT_FROZEN = false ∧ t.emu = emuLines s (m * L / 2 ^ 24) ∧ t.mem = s.mem) ∧
  (∀ (s : State) (m : Nat),
    coreStopped s = false →
    s.on F.EMU_CTRL_EN = true →
    (emuSource s = some m ∧ emuSpaced s = false) →
    ∃ t, exec .emuStep s = .next t ∧ t.emu = s.emu ∧ t.get F.EMU_STAT_OUTCNT = s.get F.EMU_STAT_OUTCNT ∧ t.on F.EMU_STAT_FROZEN = false ∧ t.mem = s.mem) ∧
  (∀ (s : State),
    coreStopped s = false →
    s.on F.EMU_CTRL_EN = true →
    emuSource s = none →
    exec .emuStep s = .next { (s.put F.EMU_STAT_RUN 0).put F.EMU_STAT_FROZEN 1 with emu := { s.emu with z := false } }) ∧
  (∀ (s : State),
    coreStopped s = true →
    (∀ (x0 : SentCh) (x1 : SentFrame), exec (.sentFrame x0 x1) s = .next s) ∧
      (∀ (x0 : SentCh), exec (.sentTimeout x0) s = .next s) ∧
      (∀ (x0 : PosBlk) (x1 : Word), exec (.mtSet x0 x1) s = .next s) ∧
      (∀ (x0 : PosBlk) (x1 : BitVec 3), exec (.posReval x0 x1) s = .next s) ∧
      (∀ (x0 : SentCh), exec (.sentReval x0) s = .next s) ∧
      exec .borrowTimeout s = .next s ∧
      (∀ (x0 : Fin 4) (x1 : Word), exec (.compareValWrite x0 x1) s = .next s) ∧
      exec .emuStep s = .next s) ∧
  ((∀ (s : State) (x0 : SentCh) (x1 : SentFrame), ∃ t, exec (.sentFrame x0 x1) s = .next t ∧ t.pending = s.pending) ∧
      (∀ (s : State) (x0 : SentCh), ∃ t, exec (.sentTimeout x0) s = .next t ∧ t.pending = s.pending) ∧
      (∀ (s : State) (x0 : PosBlk) (x1 : Word), ∃ t, exec (.mtSet x0 x1) s = .next t ∧ t.pending = s.pending) ∧
      (∀ (s : State) (x0 : PosBlk) (x1 : BitVec 3), ∃ t, exec (.posReval x0 x1) s = .next t ∧ t.pending = s.pending) ∧
      (∀ (s : State) (x0 : SentCh), ∃ t, exec (.sentReval x0) s = .next t ∧ t.pending = s.pending) ∧
      (∀ (s : State), ∃ t, exec .borrowTimeout s = .next t ∧ t.pending = s.pending) ∧
      (∀ (s : State) (x0 : Fin 4) (x1 : Word), ∃ t, exec (.compareValWrite x0 x1) s = .next t ∧ t.pending = s.pending) ∧
      (∀ (s : State), ∃ t, exec .emuStep s = .next t ∧ t.pending = s.pending))

/-- A window action on an enabled bridge opens a window at the next modulator clock edge, queues behind an open one, or is dropped and counted behind a queued one. The end of a window writes both results, phase 3 and SEQ, and opens the queued one. A result is the filtered bitstream less OFS, times 1 + GAIN, negated under INV and clipped; the spec gives its correction no rounding, and the result lies less than one unit from the exact value (log entry 10). While the PLL-clocked blocks stand (RESET_N low, SLEEP or deeper, no always-on supply, held by a sentinel trip) the commands of those blocks change nothing (R546, R583, R604). -/
def Obligations.SampleWindows : Prop :=
  (∀ (s : State) (b : Bridge) (p : Fin 4),
    coreStopped s = false →
    s.bit F.ISNS_STAT_CALBUSY b = false →
    isnsEnabled s b = true →
    s.isnsB[b.val].win = none →
    ∃ t, exec (.windowOpen b p) s = .next t ∧ t.regs = s.regs ∧ t.mem = s.mem ∧ t.isnsB[b.val] = { s.isnsB[b.val] with
      win := some (p, (s.tick - s.sys.timer0 + modClock s b - 1) / modClock s b * modClock s b) }) ∧
  (∀ (s : State) (b : Bridge) (p : Fin 4) (w : Fin 4 × Nat),
    coreStopped s = false →
    s.bit F.ISNS_STAT_CALBUSY b = false →
    isnsEnabled s b = true →
    s.isnsB[b.val].win = some w →
    s.isnsB[b.val].queued = none →
    exec (.windowOpen b p) s = .next (s.modBridge b (fun x => { x with queued := some p }))) ∧
  (∀ (s : State) (b : Bridge) (p q : Fin 4) (w : Fin 4 × Nat),
    coreStopped s = false →
    s.bit F.ISNS_STAT_CALBUSY b = false →
    isnsEnabled s b = true →
    s.isnsB[b.val].win = some w →
    s.isnsB[b.val].queued = some q →
    exec (.windowOpen b p) s = .next ((s.putBit F.ISNS_STAT_WDROP b true).countBit (dropFld b) F.ISNS_DROPCNT_OVF b)) ∧
  (∀ (s : State) (b : Bridge) (x1 x2 : List Bool) (p : Fin 4) (t0 : Nat),
    coreStopped s = false →
    s.isnsB[b.val].win = some (p, t0) →
    s.isnsB[b.val].queued = none →
    ∃ t, exec (.windowEnd b x1 x2) s = .next t ∧ t.isnsB[b.val].win = none ∧ t.isnsB[b.val].idle = 0 ∧
      t.getS (F.ISNS_I3_I3 b) = clipSigned 20 (-(t.getS (F.ISNS_CHRES_RES (2 * b.val)) + t.getS (F.ISNS_CHRES_RES (2 * b.val + 1)))) ∧
      t.get (seqFld b) = (s.get (seqFld b) + 1) % 65536) ∧
  (∀ (s : State) (b : Bridge) (x1 x2 : List Bool) (p q : Fin 4) (t0 : Nat),
    coreStopped s = false →
    s.isnsB[b.val].win = some (p, t0) →
    s.isnsB[b.val].queued = some q →
    ∃ t, exec (.windowEnd b x1 x2) s = .next t ∧ t.isnsB[b.val].queued = none ∧ t.isnsB[b.val].idle = 0 ∧
      t.isnsB[b.val].win = some (q, (laneTimer s + modClock s b - 1) / modClock s b * modClock s b) ∧
      t.getS (F.ISNS_I3_I3 b) = clipSigned 20 (-(t.getS (F.ISNS_CHRES_RES (2 * b.val)) + t.getS (F.ISNS_CHRES_RES (2 * b.val + 1)))) ∧
      t.get (seqFld b) = (s.get (seqFld b) + 1) % 65536) ∧
  (∀ (s : State) (b : Bridge) (x1 x2 : List Bool) (p : Fin 4) (t0 : Nat),
    coreStopped s = false →
    s.isnsB[b.val].win = some (p, t0) →
    ∃ t, exec (.windowEnd b x1 x2) s = .next t ∧
      (∃ v : Int, t.getS (F.ISNS_CHRES_RES (2 * b.val + 0)) = clipSigned 20 v ∧
      ((if s.on (F.ISNS_CHCFG_INV (2 * b.val + 0)) then -v else v) * (osrOf s b p ^ 3 * 32768 : Nat) -
      (sinc3 (osrOf s b p) x1 * 2 ^ 19 - s.getS (F.ISNS_CHTRIM_OFS (2 * b.val + 0)) * (osrOf s b p ^ 3 : Nat)) *
      (32768 + s.getS (F.ISNS_CHTRIM_GAIN (2 * b.val + 0)))).natAbs < osrOf s b p ^ 3 * 32768) ∧
      (∃ v : Int, t.getS (F.ISNS_CHRES_RES (2 * b.val + 1)) = clipSigned 20 v ∧
      ((if s.on (F.ISNS_CHCFG_INV (2 * b.val + 1)) then -v else v) * (osrOf s b p ^ 3 * 32768 : Nat) -
      (sinc3 (osrOf s b p) x2 * 2 ^ 19 - s.getS (F.ISNS_CHTRIM_OFS (2 * b.val + 1)) * (osrOf s b p ^ 3 : Nat)) *
      (32768 + s.getS (F.ISNS_CHTRIM_GAIN (2 * b.val + 1)))).natAbs < osrOf s b p ^ 3 * 32768)) ∧
  (∀ (s : State),
    coreStopped s = true →
    (∀ (x0 : Bridge) (x1 : Fin 4), exec (.windowOpen x0 x1) s = .next s) ∧
      (∀ (x0 : Bridge) (x1 : List Bool) (x2 : List Bool), exec (.windowEnd x0 x1 x2) s = .next s))

/-- A run of 32 equal bits sets SAT and is counted; a stuck bitstream of an enabled bridge sets STUCK and makes the channel invalid; a time-out without windows sets TMO and makes both channels invalid; REVAL lets an invalid channel wait for its next good window; a calibration runs with the legs at rest or the switches open and is refused otherwise, ends with CALREQ and CALBUSY clear and is counted, OFS within a quarter unit of the mean of the zero windows (log entry 14, the model's reading of R201), and is aborted by a leg that leaves high impedance or by a window, which then opens. While the PLL-clocked blocks stand (RESET_N low, SLEEP or deeper, no always-on supply, held by a sentinel trip) the commands of those blocks change nothing (R546, R583, R604). -/
def Obligations.CurrentChannels : Prop :=
  (∀ (s : State) (c : IsnsCh),
    coreStopped s = false →
    exec (.bitstreamSaturation c) s = .next (((s.putBit F.ISNS_STAT_SAT c true).count (F.ISNS_CNT_SATCNT c) (F.ISNS_CNT_SATOVF c)).modChan c (fun x => { x with runCounted := true }))) ∧
  (∀ (s : State) (c : IsnsCh),
    coreStopped s = false →
    isnsEnabled s (chanBridge c) = true →
    ∃ t, exec (.bitstreamStuck c) s = .next (mcCurrentInvalid (chanBridge c) t) ∧ t.bit F.ISNS_STAT_STUCK c = true ∧
      t.bit F.ISNS_STAT_VALID c = false ∧ t.isnsC[c.val].awaiting = s.isnsC[c.val].awaiting ∧ (∀ d : IsnsCh, d ≠ c → t.bit F.ISNS_STAT_VALID d = s.bit F.ISNS_STAT_VALID d)) ∧
  (∀ (s : State) (b : Bridge),
    coreStopped s = false →
    isnsEnabled s b = true →
    (s.get (smptmoFld b) ≠ 0 ∧ s.get (smptmoFld b) ≤ s.isnsB[b.val].idle) →
    ∃ t, exec (.sampleTimeout b) s = .next t ∧ t.bit F.ISNS_STAT_TMO b = true ∧ t.bit F.ISNS_STAT_VALID (2 * b.val) = false ∧
      t.bit F.ISNS_STAT_VALID (2 * b.val + 1) = false ∧ t.isnsB[b.val].idle = 0 ∧ (mcMode s b ≠ modeOff → mcMode t b = modeOut)) ∧
  (∀ (s : State) (m : BitVec 4),
    coreStopped s = false →
    ∃ t, exec (.isnsReval m) s = .next t ∧ t.regs = s.regs ∧ ∀ c : IsnsCh, t.isnsC[c.val] =
      if m.toNat.testBit c.val && !s.bit F.ISNS_STAT_VALID c then { s.isnsC[c.val] with awaiting := true } else s.isnsC[c.val]) ∧
  (∀ (s : State) (b : Bridge),
    coreStopped s = false →
    (legsAtRest s b = true ∨ isoIsOpen s b = true) →
    exec (.calibrationRequest b) s = .next ((s.putBit F.ISNS_CAL_CALREQ b true).putBit F.ISNS_STAT_CALBUSY b true)) ∧
  (∀ (s : State) (b : Bridge) (m1 m2 : TrimReading),
    coreStopped s = false →
    s.bit F.ISNS_STAT_CALBUSY b = true →
    ∃ t, exec (.calibrationDone b m1 m2) s = .next t ∧ t.bit F.ISNS_STAT_CALBUSY b = false ∧ t.bit F.ISNS_CAL_CALREQ b = false ∧
      t.get F.BKG_CAL_CALDONE = (s.get F.BKG_CAL_CALDONE + 1) % 256 ∧
      (s.on (extFld b) = false → 2 ^ 15 * m1.zeros.length < m1.zeros.sum.natAbs → t.bit F.ISNS_STAT_CALFLT (2 * b.val) = true) ∧
      (s.on (extFld b) = false → m1.zeros ≠ [] → m1.zeros.sum.natAbs ≤ 2 ^ 15 * m1.zeros.length →
      (m1.ref * m1.zeros.length - m1.zeros.sum - 2 ^ 20 * m1.zeros.length).natAbs ≤ 2 ^ 16 * m1.zeros.length →
      (4 * m1.zeros.length * t.getS (F.ISNS_CHTRIM_OFS (2 * b.val)) - m1.zeros.sum).natAbs < 4 * m1.zeros.length) ∧ t.mem = s.mem) ∧
  (∀ (s : State) (b : Bridge),
    coreStopped s = false →
    s.bit F.ISNS_STAT_CALBUSY b = true →
    ∃ t, exec (.calibrationAbort b none) s = .next t ∧ t.bit F.ISNS_STAT_CALBUSY b = false ∧ t.bit F.ISNS_STAT_CALABT b = true ∧
      t.bit F.ISNS_CAL_CALREQ b = false ∧ (∀ c : IsnsCh, t.rd (F.ISNS_CHTRIM_OFS c).addr = s.rd (F.ISNS_CHTRIM_OFS c).addr) ∧ t.mem = s.mem) ∧
  (∀ (s : State) (b : Bridge) (p : Fin 4),
    coreStopped s = false →
    s.bit F.ISNS_STAT_CALBUSY b = true →
    isnsEnabled s b = true →
    s.isnsB[b.val].win = none →
    ∃ t, exec (.calibrationAbort b (some p)) s = .next t ∧ t.bit F.ISNS_STAT_CALBUSY b = false ∧ t.bit F.ISNS_STAT_CALABT b = true ∧
      t.bit F.ISNS_CAL_CALREQ b = false ∧ (∀ c : IsnsCh, t.rd (F.ISNS_CHTRIM_OFS c).addr = s.rd (F.ISNS_CHTRIM_OFS c).addr) ∧ t.mem = s.mem ∧
      t.isnsB[b.val].win = some (p, (laneTimer s + modClock s b - 1) / modClock s b * modClock s b)) ∧
  (∀ (s : State) (b : Bridge),
    coreStopped s = false →
    (legsAtRest s b = false ∧ isoIsOpen s b = false) →
    ∃ t, exec (.calibrationRequest b) s = .next t ∧ t.bit F.ISNS_CAL_CALREQ b = false ∧ t.bit F.ISNS_STAT_CALABT b = true ∧
      t.bit F.ISNS_STAT_CALBUSY b = s.bit F.ISNS_STAT_CALBUSY b ∧ (∀ c : IsnsCh, t.rd (F.ISNS_CHTRIM_OFS c).addr = s.rd (F.ISNS_CHTRIM_OFS c).addr) ∧ t.mem = s.mem) ∧
  (∀ (s : State),
    coreStopped s = true →
    (∀ (x0 : IsnsCh), exec (.bitstreamSaturation x0) s = .next s) ∧
      (∀ (x0 : IsnsCh), exec (.bitstreamStuck x0) s = .next s) ∧
      (∀ (x0 : Bridge), exec (.sampleTimeout x0) s = .next s) ∧
      (∀ (x0 : BitVec 4), exec (.isnsReval x0) s = .next s) ∧
      (∀ (x0 : Bridge), exec (.calibrationRequest x0) s = .next s) ∧
      (∀ (x0 : Bridge) (x1 : TrimReading) (x2 : TrimReading), exec (.calibrationDone x0 x1 x2) s = .next s) ∧
      (∀ (x0 : Bridge) (x1 : Option (Fin 4)), exec (.calibrationAbort x0 x1) s = .next s))

/-- The end of a mean window, at a multiple of 20 000 of the lane timer, sets what it collected aside and starts the next; its publication counts MSEQ, marks an empty channel and interrupts V. V's comparisons that hold reset their count of failures; VMOT out of tolerance twice in a row sets VMIS and the cut latch with cause VMIS, a rail out of range twice in a row sets it with cause VSW. While the PLL-clocked blocks stand (RESET_N low, SLEEP or deeper, no always-on supply, held by a sentinel trip) the commands of those blocks change nothing (R546, R583, R604). -/
def Obligations.MeanWindowsAndComparisons : Prop :=
  (∀ (s : State),
    coreStopped s = false →
    laneTimer s % 20000 = 0 →
    ∃ t, exec .meanWindowEnd s = .next t ∧ t.regs = s.regs ∧ t.mem = s.mem ∧ (∀ c : IsnsCh, t.isnsC[c.val].sum = 0 ∧
      t.isnsC[c.val].num = 0 ∧ t.isnsC[c.val].oldSum = s.isnsC[c.val].oldSum + s.isnsC[c.val].sum ∧
      t.isnsC[c.val].oldNum = s.isnsC[c.val].oldNum + s.isnsC[c.val].num) ∧
      t.driver.vmotSum = 0 ∧ t.driver.vmotOldSum = s.driver.vmotSum ∧ t.driver.vmotOldNum = s.driver.vmotNum) ∧
  (∀ (s : State),
    coreStopped s = false →
    laneTimer s % 20000 ≠ 0 →
    exec .meanWindowEnd s = .next s) ∧
  (∀ (s : State),
    coreStopped s = false →
    ∃ t, exec .meanPublish s = .next t ∧ t.get F.ISNS_MSEQ_MSEQ = (s.get F.ISNS_MSEQ_MSEQ + 1) % 2 ^ F.ISNS_MSEQ_MSEQ.w ∧
      Irq.meanWindow ∈ t.irqs ∧ (∀ c : IsnsCh, t.bit F.ISNS_MSEQ_EMPTY c = decide (s.isnsC[c.val].oldNum = 0)) ∧ t.mem = s.mem) ∧
  (∀ (s : State) (a b c d : Int),
    issues s .v = true →
    (∀ k : IsnsCh, compared s k = false) →
    exec (.vCurrentCompare a b c d) s = .next s) ∧
  (∀ (s : State) (m : IsnsCh → Int),
    issues s .v = true →
    (∀ k : IsnsCh, compared s k = true ∧ s.bit F.ISNS_MSEQ_EMPTY k = false) →
    (∀ k : IsnsCh, (4 * (vMean s k (m k)).2 * s.getS (F.ISNS_MEAN_MEAN k) - (if s.on (F.ISNS_CHCFG_INV k) then -(vMean s k (m k)).1 else (vMean s k (m k)).1)).natAbs ≤
      s.get F.SAFE_ICMP_TOL * 512 * (vMean s k (m k)).2) →
    ∃ t, exec (.vCurrentCompare (m 0) (m 1) (m 2) (m 3)) s = .next t ∧ (∀ k : IsnsCh, t.isnsC[k.val] = { s.isnsC[k.val] with vfails := 0 }) ∧
      t.regs = s.regs ∧ t.mem = s.mem) ∧
  (∀ (s : State) (v : Nat),
    issues s .v = true →
    s.driver.vmotOldNum ≠ 0 →
    (((v * s.driver.vmotOldNum : Nat) : Int) - (s.driver.vmotOldSum : Nat)).natAbs ≤ s.get F.VBUS_VCMP_VTOL * 5 * s.driver.vmotOldNum →
    exec (.vVmotCompare v) s = .next (s.modDriver (fun d => { d with vmotFails := 0 }))) ∧
  (∀ (s : State) (v : Nat),
    issues s .v = true →
    s.driver.vmotOldNum ≠ 0 →
    s.get F.VBUS_VCMP_VTOL * 5 * s.driver.vmotOldNum < (((v * s.driver.vmotOldNum : Nat) : Int) - (s.driver.vmotOldSum : Nat)).natAbs →
    1 ≤ s.driver.vmotFails →
    exec (.vVmotCompare v) s = .next (setCut causeVmis ((s.modDriver (fun d => { d with vmotFails := d.vmotFails + 1 })).put F.VBUS_STAT_VMIS 1))) ∧
  (∀ (s : State) (a b c d : Nat),
    issues s .v = true →
    (3000 ≤ a ∧ a ≤ 3600) →
    (3000 ≤ b ∧ b ≤ 3600) →
    (2450 ≤ c ∧ c ≤ 2550) →
    (1176 ≤ d ∧ d ≤ 1224) →
    exec (.vRailCheck a b c d) s = .next (s.modSafe (fun x => { x with railFails := 0 }))) ∧
  (∀ (s : State) (a b c d : Nat),
    issues s .v = true →
    (a < 3000 ∨ 3600 < a ∨ b < 3000 ∨ 3600 < b ∨ c < 2450 ∨ 2550 < c ∨ d < 1176 ∨ 1224 < d) →
    s.safe.railFails = 1 →
    exec (.vRailCheck a b c d) s = .next (setCut causeVsw (s.modSafe (fun x => { x with railFails := x.railFails + 1 })))) ∧
  (∀ (s : State),
    coreStopped s = true →
    exec .meanWindowEnd s = .next s ∧
      exec .meanPublish s = .next s)

/-- The trigger dispatched is a pending one of the lowest rank; of equal rank, the earliest to arrive; of those, the one from the lowest-numbered originator. A dispatch takes OPEN and BANK into force, clears the accumulators, flags and loop stack, keeps the data and index registers and starts the activation at its entry; an entry outside 256 to 3071 is an entry fault; a busy engine dispatches nothing. A software trigger is pending, dropped and counted, or discarded; clearing an enable discards what is pending. While the PLL-clocked blocks stand (RESET_N low, SLEEP or deeper, no always-on supply, held by a sentinel trip) the commands of those blocks change nothing (R546, R583, R604). -/
def Obligations.ActivationsAndTriggers : Prop :=
  (∀ (l : List Trigger) (t : Trigger),
    nextTrigger l = some t →
    t ∈ l ∧ ∀ u ∈ l, t.orig.rank < u.orig.rank ∨ (t.orig.rank = u.orig.rank ∧
      (t.at_ < u.at_ ∨ (t.at_ = u.at_ ∧ t.orig.number ≤ u.orig.number)))) ∧
  (∀ (l : List Trigger),
    l ≠ [] →
    nextTrigger l ≠ none) ∧
  (∀ (s : State) (e : Eng) (r : Trigger),
    engBusy s e = false →
    engineTakes s e = true →
    nextTrigger s.eng[e.val].pending = some r →
    (256 ≤ (s.memWord (engBase e + 4 * r.ep.toNat)).toNat ∧ (s.memWord (engBase e + 4 * r.ep.toNat)).toNat ≤ 3071) →
    ∃ t, exec (.activationDispatch e) s = .next t ∧ engBusy t e = true ∧ t.eng[e.val].pc.toNat = (s.memWord (engBase e + 4 * r.ep.toNat)).toNat ∧
      t.eng[e.val].pending = s.eng[e.val].pending.erase r ∧ accOf t e 0 = 0 ∧ accOf t e 1 = 0 ∧ t.eng[e.val].loops = [] ∧
      t.eng[e.val].z = false ∧ t.eng[e.val].n = false ∧ t.eng[e.val].s = false ∧ t.eng[e.val].x = s.eng[e.val].x ∧ t.eng[e.val].ix = s.eng[e.val].ix ∧
      t.on (F.HLE_ENGSTAT_OPENACT e) = s.on (F.HLE_ENGCTRL_OPEN e) ∧ t.on (F.HLE_ENGSTAT_BANKACT e) = s.on (F.HLE_ENGCTRL_BANK e) ∧
      t.on (F.HLE_ENGSTAT_SWPEND e) = false ∧ t.mem = s.mem ∧ (∀ f : Eng, f ≠ e → t.eng[f.val] = s.eng[f.val])) ∧
  (∀ (s : State) (e : Eng) (r : Trigger),
    engBusy s e = false →
    engineTakes s e = true →
    nextTrigger s.eng[e.val].pending = some r →
    ((s.memWord (engBase e + 4 * r.ep.toNat)).toNat < 256 ∨ 3071 < (s.memWord (engBase e + 4 * r.ep.toNat)).toNat) →
    ∃ t, exec (.activationDispatch e) s = .next t ∧ engBusy t e = false ∧ t.on (F.HLE_ENGSTAT_FAULT e) = true ∧ t.get (F.HLE_ENGSTAT_CAUSE e) = 3 ∧
      t.eng[e.val].pending = [] ∧ Irq.engineFault e ∈ t.irqs) ∧
  (∀ (s : State) (e : Eng),
    (engBusy s e = true ∨ engineTakes s e = false) →
    exec (.activationDispatch e) s = .next s) ∧
  (∀ (s : State) (e : Eng) (ep : Byte),
    coreStopped s = false →
    engineTakes s e = true →
    (∀ r ∈ s.eng[e.val].pending, r.orig ≠ .software) →
    ∃ t, exec (.softwareTrigger e ep) s = .next t ∧ t.eng[e.val].pending = s.eng[e.val].pending ++ [⟨.software, ep, s.tick⟩] ∧
      (∀ f : Eng, f ≠ e → t.eng[f.val] = s.eng[f.val]) ∧ (∀ a, t.rd a = s.rd a) ∧ t.mem = s.mem) ∧
  (∀ (s : State) (e : Eng) (ep : Byte) (r : Trigger),
    coreStopped s = false →
    engineTakes s e = true →
    (r ∈ s.eng[e.val].pending ∧ r.orig = .software) →
    ∃ t, exec (.softwareTrigger e ep) s = .next t ∧ t.eng = s.eng ∧ t.on (F.HLE_ENGSTAT_DROP e) = true ∧
      (s.get (F.HLE_ENGCNT_DROPCNT e) < 32767 → t.get (F.HLE_ENGCNT_DROPCNT e) = s.get (F.HLE_ENGCNT_DROPCNT e) + 1)) ∧
  (∀ (s : State) (e : Eng) (ep : Byte),
    coreStopped s = false →
    engineTakes s e = false →
    ∃ t, exec (.softwareTrigger e ep) s = .next t ∧ t.eng = s.eng ∧ (∀ a, t.rd a = s.rd a) ∧ t.mem = s.mem) ∧
  (∀ (s : State) (m : BitVec 7),
    coreStopped s = false →
    ∃ t, exec (.engineEnable m) s = .next t ∧ t.get F.HLE_CTRL_EN = m.toNat ∧ t.mem = s.mem ∧
      ∀ e : Eng, t.eng[e.val] = if bitAt m.toNat e then s.eng[e.val] else { s.eng[e.val] with pending := [] }) ∧
  (∀ (s : State),
    coreStopped s = true →
    (∀ (x0 : Eng) (x1 : Byte), exec (.softwareTrigger x0 x1) s = .next s) ∧
      (∀ (x0 : BitVec 7), exec (.engineEnable x0) s = .next s))

/-- OPEN and BANK are stored and nothing is in force before the next dispatch: OPENACT and BANKACT stay, and SWPEND is set by a write that makes BANK differ from BANKACT and cleared by no write; the outer engine's OPEN and BANK in a set of more than one lane are left to the swap request. BIND is stored while the loop is open; a write naming a bridge that another engine names is discarded with ACCERR. RESTART lets an engine accept triggers again, and is discarded while FAULT is 1. While the PLL-clocked blocks stand (RESET_N low, SLEEP or deeper, no always-on supply, held by a sentinel trip) the commands of those blocks change nothing (R546, R583, R604). Complete, that is exec answers a next state, with the queue as it was, from every state and with every operand: LOOP_OPEN_REQUEST, BANK_SWITCH_REQUEST, BIND_WRITE, ENGINE_RESTART. -/
def Obligations.EngineSettings : Prop :=
  (∀ (s : State) (e : Eng) (o : Bool),
    coreStopped s = false →
    swapOwned s e = false →
    accepted (engCtrlAddr e) ((F.HLE_ENGCTRL_OPEN e).write (s.rd (engCtrlAddr e)) o.toNat) s = true →
    ∃ t, exec (.loopOpenRequest e o) s = .next t ∧ t.on (F.HLE_ENGCTRL_OPEN e) = o ∧ t.on (F.HLE_ENGCTRL_BANK e) = s.on (F.HLE_ENGCTRL_BANK e) ∧
      t.on (F.HLE_ENGSTAT_OPENACT e) = s.on (F.HLE_ENGSTAT_OPENACT e) ∧ t.on (F.HLE_ENGSTAT_BANKACT e) = s.on (F.HLE_ENGSTAT_BANKACT e) ∧ t.mem = s.mem) ∧
  (∀ (s : State) (e : Eng) (k : Bool),
    coreStopped s = false →
    swapOwned s e = false →
    accepted (engCtrlAddr e) ((F.HLE_ENGCTRL_BANK e).write (s.rd (engCtrlAddr e)) k.toNat) s = true →
    ∃ t, exec (.bankSwitchRequest e k) s = .next t ∧ t.on (F.HLE_ENGCTRL_BANK e) = k ∧ t.on (F.HLE_ENGCTRL_OPEN e) = s.on (F.HLE_ENGCTRL_OPEN e) ∧
      t.on (F.HLE_ENGSTAT_OPENACT e) = s.on (F.HLE_ENGSTAT_OPENACT e) ∧ t.on (F.HLE_ENGSTAT_BANKACT e) = s.on (F.HLE_ENGSTAT_BANKACT e) ∧
      t.on (F.HLE_ENGSTAT_SWPEND e) = (s.on (F.HLE_ENGSTAT_SWPEND e) || k != s.on (F.HLE_ENGSTAT_BANKACT e)) ∧ t.mem = s.mem) ∧
  (∀ (s : State) (e : Eng) (o k : Bool),
    coreStopped s = false →
    (topology s ≠ 0 ∧ s.get F.CONT_CFCFG_OENG = e.val) →
    (∃ t, exec (.loopOpenRequest e o) s = .next t ∧ t.on (F.HLE_ENGCTRL_OPEN e) = s.on (F.HLE_ENGCTRL_OPEN e) ∧ t.on (F.HLE_ENGCTRL_BANK e) = s.on (F.HLE_ENGCTRL_BANK e)) ∧
      (∃ t, exec (.bankSwitchRequest e k) s = .next t ∧ t.on (F.HLE_ENGCTRL_OPEN e) = s.on (F.HLE_ENGCTRL_OPEN e) ∧ t.on (F.HLE_ENGCTRL_BANK e) = s.on (F.HLE_ENGCTRL_BANK e))) ∧
  (∀ (s : State) (e : Eng) (v : BitVec 2),
    coreStopped s = false →
    s.on (F.HLE_ENGSTAT_OPENACT e) = true →
    accepted (engCtrlAddr e) ((F.HLE_ENGCTRL_BIND e).write (s.rd (engCtrlAddr e)) v.toNat) s = true →
    ∃ t, exec (.bindWrite e v) s = .next t ∧ t.get (F.HLE_ENGCTRL_BIND e) = v.toNat ∧ t.mem = s.mem ∧
      (∀ f : Eng, f ≠ e → t.get (F.HLE_ENGCTRL_BIND f) = s.get (F.HLE_ENGCTRL_BIND f))) ∧
  (∀ (s : State) (e f : Eng) (v : BitVec 2),
    coreStopped s = false →
    s.on (F.HLE_ENGSTAT_OPENACT e) = true →
    f ≠ e →
    (v ≠ 0 ∧ s.get (F.HLE_ENGCTRL_BIND f) = v.toNat) →
    exec (.bindWrite e v) s = .next (s.put (F.HLE_ENGSTAT_ACCERR e) 1)) ∧
  (∀ (s : State) (e : Eng),
    coreStopped s = false →
    s.on (F.HLE_ENGSTAT_FAULT e) = false →
    accepted (engCtrlAddr e) ((F.HLE_ENGCTRL_RESTART e).write (s.rd (engCtrlAddr e)) 1) s = true →
    ∃ t, exec (.engineRestart e) s = .next t ∧ t.eng[e.val] = { s.eng[e.val] with halted := false } ∧ t.mem = s.mem) ∧
  (∀ (s : State) (e : Eng),
    coreStopped s = false →
    s.on (F.HLE_ENGSTAT_FAULT e) = true →
    exec (.engineRestart e) s = .next (s.put (F.HLE_ENGSTAT_ACCERR e) 1)) ∧
  (∀ (s : State),
    coreStopped s = true →
    (∀ (x0 : Eng) (x1 : Bool), exec (.loopOpenRequest x0 x1) s = .next s) ∧
      (∀ (x0 : Eng) (x1 : Bool), exec (.bankSwitchRequest x0 x1) s = .next s) ∧
      (∀ (x0 : Eng) (x1 : BitVec 2), exec (.bindWrite x0 x1) s = .next s) ∧
      (∀ (x0 : Eng), exec (.engineRestart x0) s = .next s)) ∧
  ((∀ (s : State) (x0 : Eng) (x1 : Bool), ∃ t, exec (.loopOpenRequest x0 x1) s = .next t ∧ t.pending = s.pending) ∧
      (∀ (s : State) (x0 : Eng) (x1 : Bool), ∃ t, exec (.bankSwitchRequest x0 x1) s = .next t ∧ t.pending = s.pending) ∧
      (∀ (s : State) (x0 : Eng) (x1 : BitVec 2), ∃ t, exec (.bindWrite x0 x1) s = .next t ∧ t.pending = s.pending) ∧
      (∀ (s : State) (x0 : Eng), ∃ t, exec (.engineRestart x0) s = .next t ∧ t.pending = s.pending))

/-- A fault of a running activation stops it, sets FAULT and CAUSE, puts its place into FPC, discards the pending triggers and interrupts; the engine then takes no trigger. Memory and parity errors are of the hardware class: HWFAIL is set and the physical engine marked failed. A parity error is taken while the engine is idle too; the others are found only in an activation, a memory error, recorded by its address, as the engine reads the word, the watchdog's once its cycles have reached LIMIT. While the PLL-clocked blocks stand (RESET_N low, SLEEP or deeper, no always-on supply, held by a sentinel trip) the commands of those blocks change nothing (R546, R583, R604). Complete, that is exec answers a next state, with the queue as it was, from every state and with every operand: ENGINE_FAULT, ENGINE_WATCHDOG, ENGINE_PARITY_ERROR, ILLEGAL_INSTRUCTION. -/
def Obligations.EngineFaults : Prop :=
  (∀ (s : State) (e : Eng) (c : EngineCause) (a : Word),
    (engBusy s e = true ∧ enginesHeld s = false ∧ fitsLimit s e 1 = true) →
    (c ≠ .parity ∧ c ≠ .watchdog) →
    ∃ t, exec (.engineFault e ⟨c, a⟩) s = .next t ∧ t.get (F.HLE_ENGSTAT_CAUSE e) = causeCode c ∧ t.get (F.HLE_ENGFPC_PC e) = s.eng[e.val].pc.toNat ∧
      t.on (F.HLE_ENGSTAT_FAULT e) = true ∧ engBusy t e = false ∧
      t.eng[e.val].pending = [] ∧ engineTakes t e = false ∧ Irq.engineFault e ∈ t.irqs ∧
      (c = .memory → t.on F.BKG_STAT_UEVALID = true ∧ (s.on F.BKG_STAT_UEVALID = false → t.get F.BKG_UEADDR_ADDR = a.toNat) ∧ t.on (F.HLE_ENGSTAT_HWFAIL e) = true ∧ t.bit F.HLE_MAP_FAILED (physicalOf s e) = true) ∧
      (c ≠ .memory → t.on (F.HLE_ENGSTAT_HWFAIL e) = s.on (F.HLE_ENGSTAT_HWFAIL e))) ∧
  (∀ (s : State) (e : Eng) (a : Word),
    (engBusy s e = false ∧ enginesHeld s = false) →
    exec (.engineFault e ⟨.memory, a⟩) s = .next s) ∧
  (∀ (s : State) (e : Eng),
    coreStopped s = false →
    (engBusy s e = true ∧ enginesHeld s = false ∧ s.get (F.HLE_ENGWDOG_LIMIT e) ≤ s.eng[e.val].cycles) →
    ∃ t, exec (.engineWatchdog e) s = .next t ∧ t.get (F.HLE_ENGSTAT_CAUSE e) = 1 ∧ t.get (F.HLE_ENGFPC_PC e) = s.eng[e.val].pc.toNat ∧
      t.on (F.HLE_ENGSTAT_FAULT e) = true ∧ engBusy t e = false ∧
      t.eng[e.val].pending = [] ∧ engineTakes t e = false ∧ Irq.engineFault e ∈ t.irqs) ∧
  (∀ (s : State) (e : Eng),
    (engBusy s e = true ∧ enginesHeld s = false ∧ fitsLimit s e 1 = true) →
    ∃ t, exec (.illegalInstruction e) s = .next t ∧ t.get (F.HLE_ENGSTAT_CAUSE e) = 2 ∧ t.get (F.HLE_ENGFPC_PC e) = s.eng[e.val].pc.toNat ∧
      t.on (F.HLE_ENGSTAT_FAULT e) = true ∧ engBusy t e = false ∧
      t.eng[e.val].pending = [] ∧ engineTakes t e = false ∧ Irq.engineFault e ∈ t.irqs) ∧
  (∀ (s : State) (e : Eng),
    coreStopped s = false →
    enginesHeld s = false →
    ∃ t, exec (.engineParityError e) s = .next t ∧ t.get (F.HLE_ENGSTAT_CAUSE e) = 6 ∧ t.get (F.HLE_ENGFPC_PC e) = s.eng[e.val].lastPc.toNat ∧
      t.on (F.HLE_ENGSTAT_FAULT e) = true ∧ engBusy t e = false ∧
      t.eng[e.val].pending = [] ∧ engineTakes t e = false ∧ Irq.engineFault e ∈ t.irqs ∧
      t.on (F.HLE_ENGSTAT_HWFAIL e) = true ∧ t.bit F.HLE_MAP_FAILED (physicalOf s e) = true) ∧
  (∀ (s : State) (e : Eng),
    coreStopped s = false →
    (engBusy s e = false ∨ enginesHeld s = true) →
    exec (.engineWatchdog e) s = .next s ∧ exec (.illegalInstruction e) s = .next s ∧ exec (.engineFault e ⟨.port, 0⟩) s = .next s) ∧
  (∀ (s : State),
    coreStopped s = true →
    (∀ (x0 : Eng), exec (.engineWatchdog x0) s = .next s) ∧
      (∀ (x0 : Eng), exec (.engineParityError x0) s = .next s)) ∧
  ((∀ (s : State) (x0 : Eng) (x1 : EngineError), ∃ t, exec (.engineFault x0 x1) s = .next t ∧ t.pending = s.pending) ∧
      (∀ (s : State) (x0 : Eng), ∃ t, exec (.engineWatchdog x0) s = .next t ∧ t.pending = s.pending) ∧
      (∀ (s : State) (x0 : Eng), ∃ t, exec (.engineParityError x0) s = .next t ∧ t.pending = s.pending) ∧
      (∀ (s : State) (x0 : Eng), ∃ t, exec (.illegalInstruction x0) s = .next t ∧ t.pending = s.pending))

/-- Each register instruction of a running activation takes one cycle, writes its destination and nothing else, and sets the flags from its result; ADDS, SUBS and NEGS limit to Q1.19 and set S and the sticky SAT. The flags after MOV and LDI are open (log entry 2), ABS of -1 has no stated result (log entry 16), SHL drops the bits shifted out with S clear (log entry 3, the model's reading), and CMP changes the flags alone, by the exact difference of its operands (log entry 2, the model's reading). In an activation whose cycles have reached LIMIT no instruction completes. Complete, that is exec answers a next state, with the queue as it was, from every state and with every operand: MOV, LDI, ADD, ADDS, SUB, SUBS, NEG, NEGS, ABS, MIN, MAX, SHL, SHR, AND, OR, XOR, CMP. -/
def Obligations.RegisterInstructions : Prop :=
  (∀ (s : State) (e : Eng) (d a : XReg),
    (engBusy s e = true ∧ enginesHeld s = false ∧ fitsLimit s e 1 = true) →
    ∃ t, exec (.mov e d a) s = .next t ∧ stepped e 1 s t ∧ wroteX e d (xr s e a) s t) ∧
  (∀ (s : State) (e : Eng) (d : XReg) (v : Q20),
    (engBusy s e = true ∧ enginesHeld s = false ∧ fitsLimit s e 1 = true) →
    ∃ t, exec (.ldi e d v) s = .next t ∧ stepped e 1 s t ∧ wroteX e d v s t) ∧
  (∀ (s : State) (e : Eng) (d a b : XReg),
    (engBusy s e = true ∧ enginesHeld s = false ∧ fitsLimit s e 1 = true) →
    ∃ t, exec (.add e d a b) s = .next t ∧ aluDid e d (xr s e a + xr s e b) false s t) ∧
  (∀ (s : State) (e : Eng) (d a b : XReg),
    (engBusy s e = true ∧ enginesHeld s = false ∧ fitsLimit s e 1 = true) →
    ∃ t, exec (.sub e d a b) s = .next t ∧ aluDid e d (xr s e a - xr s e b) false s t) ∧
  (∀ (s : State) (e : Eng) (d a : XReg),
    (engBusy s e = true ∧ enginesHeld s = false ∧ fitsLimit s e 1 = true) →
    ∃ t, exec (.neg e d a) s = .next t ∧ aluDid e d (-(xr s e a)) false s t) ∧
  (∀ (s : State) (e : Eng) (d a b : XReg),
    (engBusy s e = true ∧ enginesHeld s = false ∧ fitsLimit s e 1 = true) →
    ∃ t, exec (.adds e d a b) s = .next t ∧ aluDid e d (BitVec.ofInt 20 (clipSigned 20 (xi s e a + xi s e b))) (decide (clipSigned 20 (xi s e a + xi s e b) ≠ xi s e a + xi s e b)) s t) ∧
  (∀ (s : State) (e : Eng) (d a b : XReg),
    (engBusy s e = true ∧ enginesHeld s = false ∧ fitsLimit s e 1 = true) →
    ∃ t, exec (.subs e d a b) s = .next t ∧ aluDid e d (BitVec.ofInt 20 (clipSigned 20 (xi s e a - xi s e b))) (decide (clipSigned 20 (xi s e a - xi s e b) ≠ xi s e a - xi s e b)) s t) ∧
  (∀ (s : State) (e : Eng) (d a : XReg),
    (engBusy s e = true ∧ enginesHeld s = false ∧ fitsLimit s e 1 = true) →
    ∃ t, exec (.negs e d a) s = .next t ∧ aluDid e d (BitVec.ofInt 20 (clipSigned 20 (-(xi s e a)))) (decide (clipSigned 20 (-(xi s e a)) ≠ -(xi s e a))) s t) ∧
  (∀ (s : State) (e : Eng) (d a : XReg),
    (engBusy s e = true ∧ enginesHeld s = false ∧ fitsLimit s e 1 = true) →
    xr s e a ≠ 0x80000#20 →
    ∃ t, exec (.abs e d a) s = .next t ∧ aluDid e d (BitVec.ofInt 20 (xi s e a).natAbs) false s t) ∧
  (∀ (s : State) (e : Eng) (d a : XReg),
    (engBusy s e = true ∧ enginesHeld s = false ∧ fitsLimit s e 1 = true) →
    xr s e a = 0x80000#20 →
    ∃ t v, exec (.abs e d a) s = .next t ∧ stepped e 1 s t ∧ wroteX e d v s t) ∧
  (∀ (s : State) (e : Eng) (d a b : XReg),
    (engBusy s e = true ∧ enginesHeld s = false ∧ fitsLimit s e 1 = true) →
    ∃ t, exec (.min e d a b) s = .next t ∧ aluDid e d (BitVec.ofInt 20 (min (xi s e a) (xi s e b))) false s t) ∧
  (∀ (s : State) (e : Eng) (d a b : XReg),
    (engBusy s e = true ∧ enginesHeld s = false ∧ fitsLimit s e 1 = true) →
    ∃ t, exec (.max e d a b) s = .next t ∧ aluDid e d (BitVec.ofInt 20 (max (xi s e a) (xi s e b))) false s t) ∧
  (∀ (s : State) (e : Eng) (d a : XReg) (n : Fin 20),
    (engBusy s e = true ∧ enginesHeld s = false ∧ fitsLimit s e 1 = true) →
    ∃ t, exec (.shl e d a n) s = .next t ∧ aluDid e d (xr s e a <<< n.val) false s t) ∧
  (∀ (s : State) (e : Eng) (d a : XReg) (n : Fin 20),
    (engBusy s e = true ∧ enginesHeld s = false ∧ fitsLimit s e 1 = true) →
    ∃ t, exec (.shr e d a n) s = .next t ∧ aluDid e d (shrOp (xr s e a) n.val) false s t) ∧
  (∀ (s : State) (e : Eng) (d a b : XReg),
    (engBusy s e = true ∧ enginesHeld s = false ∧ fitsLimit s e 1 = true) →
    ∃ t, exec (.andOp e d a b) s = .next t ∧ aluDid e d (xr s e a &&& xr s e b) false s t) ∧
  (∀ (s : State) (e : Eng) (d a b : XReg),
    (engBusy s e = true ∧ enginesHeld s = false ∧ fitsLimit s e 1 = true) →
    ∃ t, exec (.orOp e d a b) s = .next t ∧ aluDid e d (xr s e a ||| xr s e b) false s t) ∧
  (∀ (s : State) (e : Eng) (d a b : XReg),
    (engBusy s e = true ∧ enginesHeld s = false ∧ fitsLimit s e 1 = true) →
    ∃ t, exec (.xorOp e d a b) s = .next t ∧ aluDid e d (xr s e a ^^^ xr s e b) false s t) ∧
  (∀ (s : State) (e : Eng) (a b : XReg),
    (engBusy s e = true ∧ enginesHeld s = false ∧ fitsLimit s e 1 = true) →
    ∃ t, exec (.cmp e a b) s = .next t ∧ stepped e 1 s t ∧ t.eng[e.val].x = s.eng[e.val].x ∧ t.eng[e.val].acc = s.eng[e.val].acc ∧ t.mem = s.mem ∧
      t.eng[e.val].z = decide (xr s e a = xr s e b) ∧ t.eng[e.val].n = (xr s e a).slt (xr s e b)) ∧
  (∀ (s : State) (e : Eng) (d a b : XReg),
    (engBusy s e = true ∧ enginesHeld s = false ∧ fitsLimit s e 1 = false) →
    exec (.add e d a b) s = .next (timeUp e s) ∧ exec (.mov e d a) s = .next (timeUp e s)) ∧
  (∀ (s : State) (e : Eng) (d a b : XReg),
    engBusy s e = false →
    exec (.add e d a b) s = .next s ∧ exec (.mov e d a) s = .next s ∧ exec (.cmp e a b) s = .next s) ∧
  ((∀ (s : State) (x0 : Eng) (x1 : XReg) (x2 : XReg), ∃ t, exec (.mov x0 x1 x2) s = .next t ∧ t.pending = s.pending) ∧
      (∀ (s : State) (x0 : Eng) (x1 : XReg) (x2 : Q20), ∃ t, exec (.ldi x0 x1 x2) s = .next t ∧ t.pending = s.pending) ∧
      (∀ (s : State) (x0 : Eng) (x1 : XReg) (x2 : XReg) (x3 : XReg), ∃ t, exec (.add x0 x1 x2 x3) s = .next t ∧ t.pending = s.pending) ∧
      (∀ (s : State) (x0 : Eng) (x1 : XReg) (x2 : XReg) (x3 : XReg), ∃ t, exec (.adds x0 x1 x2 x3) s = .next t ∧ t.pending = s.pending) ∧
      (∀ (s : State) (x0 : Eng) (x1 : XReg) (x2 : XReg) (x3 : XReg), ∃ t, exec (.sub x0 x1 x2 x3) s = .next t ∧ t.pending = s.pending) ∧
      (∀ (s : State) (x0 : Eng) (x1 : XReg) (x2 : XReg) (x3 : XReg), ∃ t, exec (.subs x0 x1 x2 x3) s = .next t ∧ t.pending = s.pending) ∧
      (∀ (s : State) (x0 : Eng) (x1 : XReg) (x2 : XReg), ∃ t, exec (.neg x0 x1 x2) s = .next t ∧ t.pending = s.pending) ∧
      (∀ (s : State) (x0 : Eng) (x1 : XReg) (x2 : XReg), ∃ t, exec (.negs x0 x1 x2) s = .next t ∧ t.pending = s.pending) ∧
      (∀ (s : State) (x0 : Eng) (x1 : XReg) (x2 : XReg), ∃ t, exec (.abs x0 x1 x2) s = .next t ∧ t.pending = s.pending) ∧
      (∀ (s : State) (x0 : Eng) (x1 : XReg) (x2 : XReg) (x3 : XReg), ∃ t, exec (.min x0 x1 x2 x3) s = .next t ∧ t.pending = s.pending) ∧
      (∀ (s : State) (x0 : Eng) (x1 : XReg) (x2 : XReg) (x3 : XReg), ∃ t, exec (.max x0 x1 x2 x3) s = .next t ∧ t.pending = s.pending) ∧
      (∀ (s : State) (x0 : Eng) (x1 : XReg) (x2 : XReg) (x3 : Fin 20), ∃ t, exec (.shl x0 x1 x2 x3) s = .next t ∧ t.pending = s.pending) ∧
      (∀ (s : State) (x0 : Eng) (x1 : XReg) (x2 : XReg) (x3 : Fin 20), ∃ t, exec (.shr x0 x1 x2 x3) s = .next t ∧ t.pending = s.pending) ∧
      (∀ (s : State) (x0 : Eng) (x1 : XReg) (x2 : XReg) (x3 : XReg), ∃ t, exec (.andOp x0 x1 x2 x3) s = .next t ∧ t.pending = s.pending) ∧
      (∀ (s : State) (x0 : Eng) (x1 : XReg) (x2 : XReg) (x3 : XReg), ∃ t, exec (.orOp x0 x1 x2 x3) s = .next t ∧ t.pending = s.pending) ∧
      (∀ (s : State) (x0 : Eng) (x1 : XReg) (x2 : XReg) (x3 : XReg), ∃ t, exec (.xorOp x0 x1 x2 x3) s = .next t ∧ t.pending = s.pending) ∧
      (∀ (s : State) (x0 : Eng) (x1 : XReg) (x2 : XReg), ∃ t, exec (.cmp x0 x1 x2) s = .next t ∧ t.pending = s.pending))

/-- LD reads a data-RAM word and LDC a coefficient of the bank in force; ST writes the data-RAM word its operand names and STC the coefficient of the bank in force, whether the loop is open or closed, and every other byte of memory keeps its value. Complete, that is exec answers a next state, with the queue as it was, from every state and with every operand: LD, ST, LDC, STC. -/
def Obligations.LoadsAndStores : Prop :=
  (∀ (s : State) (e : Eng) (d : XReg) (m : MemOperand),
    (engBusy s e = true ∧ enginesHeld s = false ∧ fitsLimit s e 1 = true) →
    ∃ t, exec (.ld e d m) s = .next t ∧ stepped e 1 s t ∧ xr t e d = dataWord s e (wordOf s e m) ∧ (∀ i : XReg, i ≠ d → xr t e i = xr s e i) ∧
      t.eng[e.val].acc = s.eng[e.val].acc ∧ t.mem = s.mem ∧ (∀ i : Fin 8, m ≠ .postInc i → t.eng[e.val].ix[i.val] = s.eng[e.val].ix[i.val])) ∧
  (∀ (s : State) (e : Eng) (d : XReg) (m : MemOperand),
    (engBusy s e = true ∧ enginesHeld s = false ∧ fitsLimit s e 1 = true) →
    ∃ t, exec (.ldc e d m) s = .next t ∧ stepped e 1 s t ∧ xr t e d = coefWord s e (wordOf s e m) ∧ (∀ i : XReg, i ≠ d → xr t e i = xr s e i) ∧
      t.eng[e.val].acc = s.eng[e.val].acc ∧ t.mem = s.mem ∧ (∀ i : Fin 8, m ≠ .postInc i → t.eng[e.val].ix[i.val] = s.eng[e.val].ix[i.val])) ∧
  (∀ (s : State) (e : Eng) (m : MemOperand) (a : XReg),
    (engBusy s e = true ∧ enginesHeld s = false ∧ fitsLimit s e 1 = true) →
    ∃ t, exec (.st e m a) s = .next t ∧ stepped e 1 s t ∧ t.mem20 (dataAddr e (wordOf s e m % 2048)) = xr s e a ∧
      outsideWord (dataAddr e (wordOf s e m % 2048)) s t ∧ t.eng[e.val].x = s.eng[e.val].x ∧ t.eng[e.val].acc = s.eng[e.val].acc ∧
      (∀ i : Fin 8, m ≠ .postInc i → t.eng[e.val].ix[i.val] = s.eng[e.val].ix[i.val])) ∧
  (∀ (s : State) (e : Eng) (m : MemOperand) (a : XReg),
    (engBusy s e = true ∧ enginesHeld s = false ∧ fitsLimit s e 1 = true) →
    ∃ t, exec (.stc e m a) s = .next t ∧ stepped e 1 s t ∧ t.mem20 (coefAddr e (s.on (F.HLE_ENGSTAT_BANKACT e)) (wordOf s e m)) = xr s e a ∧
      outsideWord (coefAddr e (s.on (F.HLE_ENGSTAT_BANKACT e)) (wordOf s e m)) s t ∧ t.eng[e.val].x = s.eng[e.val].x ∧ t.eng[e.val].acc = s.eng[e.val].acc ∧
      (∀ i : Fin 8, m ≠ .postInc i → t.eng[e.val].ix[i.val] = s.eng[e.val].ix[i.val])) ∧
  ((∀ (s : State) (x0 : Eng) (x1 : XReg) (x2 : MemOperand), ∃ t, exec (.ld x0 x1 x2) s = .next t ∧ t.pending = s.pending) ∧
      (∀ (s : State) (x0 : Eng) (x1 : MemOperand) (x2 : XReg), ∃ t, exec (.st x0 x1 x2) s = .next t ∧ t.pending = s.pending) ∧
      (∀ (s : State) (x0 : Eng) (x1 : XReg) (x2 : MemOperand), ∃ t, exec (.ldc x0 x1 x2) s = .next t ∧ t.pending = s.pending) ∧
      (∀ (s : State) (x0 : Eng) (x1 : MemOperand) (x2 : XReg), ∃ t, exec (.stc x0 x1 x2) s = .next t ∧ t.pending = s.pending))

/-- MPY, MAC and MSU write one accumulator and the dual forms both, limited at Q12.36 with S and AOVF; CLR and ASH likewise; RND and RNDC round and limit an accumulator into a data register, and count a saturation. -/
def Obligations.MultipliesAndAccumulators : Prop :=
  (∀ (s : State) (e : Eng) (c : Fin 2) (o : MulOperand),
    (engBusy s e = true ∧ enginesHeld s = false ∧ fitsLimit s e 1 = true) →
    ∃ t, exec (.mpy e c o) s = .next t ∧ accDid e c (product s e o) s t) ∧
  (∀ (s : State) (e : Eng) (c : Fin 2) (o : MulOperand),
    (engBusy s e = true ∧ enginesHeld s = false ∧ fitsLimit s e 1 = true) →
    ∃ t, exec (.mac e c o) s = .next t ∧ accDid e c (accOf s e c + product s e o) s t) ∧
  (∀ (s : State) (e : Eng) (c : Fin 2) (o : MulOperand),
    (engBusy s e = true ∧ enginesHeld s = false ∧ fitsLimit s e 1 = true) →
    ∃ t, exec (.msu e c o) s = .next t ∧ accDid e c (accOf s e c - product s e o) s t) ∧
  (∀ (s : State) (e : Eng) (o0 o1 : MulOperand),
    (engBusy s e = true ∧ enginesHeld s = false ∧ fitsLimit s e 1 = true) →
    ∃ t, exec (.dmpy e o0 o1) s = .next t ∧ stepped e 1 s t ∧ accOf t e 0 = clipSigned 48 (product s e o0) ∧ accOf t e 1 = clipSigned 48 (product s e o1) ∧
      t.eng[e.val].x = s.eng[e.val].x ∧ t.mem = s.mem ∧
      (clipSigned 48 (product s e o0) ≠ product s e o0 ∨ clipSigned 48 (product s e o1) ≠ product s e o1 →
      t.eng[e.val].s = true ∧ t.on (F.HLE_ENGSTAT_AOVF e) = true)) ∧
  (∀ (s : State) (e : Eng) (o0 o1 : MulOperand),
    (engBusy s e = true ∧ enginesHeld s = false ∧ fitsLimit s e 1 = true) →
    ∃ t, exec (.dmac e o0 o1) s = .next t ∧ stepped e 1 s t ∧ accOf t e 0 = clipSigned 48 (accOf s e 0 + product s e o0) ∧ accOf t e 1 = clipSigned 48 (accOf s e 1 + product s e o1) ∧
      t.eng[e.val].x = s.eng[e.val].x ∧ t.mem = s.mem ∧
      (clipSigned 48 (accOf s e 0 + product s e o0) ≠ accOf s e 0 + product s e o0 ∨ clipSigned 48 (accOf s e 1 + product s e o1) ≠ accOf s e 1 + product s e o1 →
      t.eng[e.val].s = true ∧ t.on (F.HLE_ENGSTAT_AOVF e) = true)) ∧
  (∀ (s : State) (e : Eng) (o0 o1 : MulOperand),
    (engBusy s e = true ∧ enginesHeld s = false ∧ fitsLimit s e 1 = true) →
    ∃ t, exec (.dmsu e o0 o1) s = .next t ∧ stepped e 1 s t ∧ accOf t e 0 = clipSigned 48 (accOf s e 0 - product s e o0) ∧ accOf t e 1 = clipSigned 48 (accOf s e 1 - product s e o1) ∧
      t.eng[e.val].x = s.eng[e.val].x ∧ t.mem = s.mem ∧
      (clipSigned 48 (accOf s e 0 - product s e o0) ≠ accOf s e 0 - product s e o0 ∨ clipSigned 48 (accOf s e 1 - product s e o1) ≠ accOf s e 1 - product s e o1 →
      t.eng[e.val].s = true ∧ t.on (F.HLE_ENGSTAT_AOVF e) = true)) ∧
  (∀ (s : State) (e : Eng) (c : Fin 2),
    (engBusy s e = true ∧ enginesHeld s = false ∧ fitsLimit s e 1 = true) →
    ∃ t, exec (.clr e c) s = .next t ∧ accDid e c 0 s t) ∧
  (∀ (s : State) (e : Eng) (c : Fin 2) (n : Nat),
    (engBusy s e = true ∧ enginesHeld s = false ∧ fitsLimit s e 1 = true) →
    n ≤ 8 →
    (∃ t, exec (.ash e c n) s = .next t ∧ accDid e c (accOf s e c * 2 ^ n) s t) ∧
      (n ≠ 0 → ∃ t, exec (.ash e c (-n)) s = .next t ∧ accDid e c (accOf s e c / 2 ^ n) s t)) ∧
  (∀ (s : State) (e : Eng) (d : XReg) (c : Fin 2),
    (engBusy s e = true ∧ enginesHeld s = false ∧ fitsLimit s e 1 = true) →
    ∃ t, exec (.rnd e d c) s = .next t ∧ aluDid e d (BitVec.ofInt 20 (clipSigned 20 ((accOf s e c + 2 ^ 16) / 2 ^ 17)))
      (decide (clipSigned 20 ((accOf s e c + 2 ^ 16) / 2 ^ 17) ≠ (accOf s e c + 2 ^ 16) / 2 ^ 17)) s t ∧
      (clipSigned 20 ((accOf s e c + 2 ^ 16) / 2 ^ 17) ≠ (accOf s e c + 2 ^ 16) / 2 ^ 17 → s.get (F.HLE_ENGCNT_SATCNT e) < 32767 →
      t.get (F.HLE_ENGCNT_SATCNT e) = s.get (F.HLE_ENGCNT_SATCNT e) + 1)) ∧
  (∀ (s : State) (e : Eng) (d : XReg) (c : Fin 2),
    (engBusy s e = true ∧ enginesHeld s = false ∧ fitsLimit s e 1 = true) →
    ∃ t, exec (.rndc e d c) s = .next t ∧ aluDid e d (BitVec.ofInt 20 (clipSigned 20 ((accOf s e c + 2 ^ 18) / 2 ^ 19)))
      (decide (clipSigned 20 ((accOf s e c + 2 ^ 18) / 2 ^ 19) ≠ (accOf s e c + 2 ^ 18) / 2 ^ 19)) s t ∧
      (clipSigned 20 ((accOf s e c + 2 ^ 18) / 2 ^ 19) ≠ (accOf s e c + 2 ^ 18) / 2 ^ 19 → s.get (F.HLE_ENGCNT_SATCNT e) < 32767 →
      t.get (F.HLE_ENGCNT_SATCNT e) = s.get (F.HLE_ENGCNT_SATCNT e) + 1))

/-- INTG returns the integral clamped to its limits and writes it back only while the loop is closed; BIQ writes its two state words, each as its formula gives it where that is a number of the format, and no other; SINCOS and ATAN2 lie within the stated error of the model's own integer CORDIC (log entry 8, a modelling choice), the last places being free, and of a SINCOS into one register which result it holds is free (log entry 2); SQRT gives 0 and S for a negative operand and DIV the limit of the dividend's sign with S, and the sticky SAT (log entry 107, the model's choice), for a zero divisor; where the spec states no rounding the result is the integer below or above (log entry 10). Complete, that is exec answers a next state, with the queue as it was, from every state and with every operand: INTG, BIQ, SINCOS, ATAN2, SQRT, DIV. -/
def Obligations.FilterAndTrigonometry : Prop :=
  (∀ (s : State) (e : Eng) (d : XReg) (st : Fin 2048) (a : XReg) (g : MemOperand) (v : Int),
    (engBusy s e = true ∧ enginesHeld s = false ∧ fitsLimit s e 2 = true) →
    v = min (max (((dataWord s e st).toInt * 2 ^ 17 + (coefWord s e (wordOf s e g)).toInt * xi s e a + 2 ^ 16) / 2 ^ 17) (dataWord s e (st + 1)).toInt) (dataWord s e (st + 2)).toInt →
    ∃ t, exec (.intg e d st a g) s = .next t ∧ stepped e 2 s t ∧ xr t e d = BitVec.ofInt 20 v ∧ (∀ i : XReg, i ≠ d → xr t e i = xr s e i) ∧
      (s.on (F.HLE_ENGSTAT_OPENACT e) = true → t.mem = s.mem) ∧
      (s.on (F.HLE_ENGSTAT_OPENACT e) = false → dataWord t e st = BitVec.ofInt 20 v ∧ outsideWord (dataAddr e st) s t)) ∧
  (∀ (s : State) (e : Eng) (d x : XReg) (c : Fin 512) (st : Fin 2048),
    (engBusy s e = true ∧ enginesHeld s = false ∧ fitsLimit s e 4 = true) →
    ∃ t, exec (.biq e d x c st) s = .next t ∧ stepped e 4 s t ∧ (∀ i : XReg, i ≠ d → xr t e i = xr s e i) ∧ t.eng[e.val].acc = s.eng[e.val].acc ∧
      (∀ k, (k < dataAddr e st ∨ dataAddr e st + 4 ≤ k) → (k < dataAddr e ((st + 1) % 2048) ∨ dataAddr e ((st + 1) % 2048) + 4 ≤ k) → t.byte k = s.byte k)) ∧
  (∀ (s : State) (e : Eng) (d x : XReg) (c : Fin 512) (st : Fin 2048) (q : Int),
    (engBusy s e = true ∧ enginesHeld s = false ∧ fitsLimit s e 4 = true) →
    (coefWord s e c).toInt * xi s e x + (dataWord s e st).toInt * 2 ^ 17 = q * 2 ^ 17 →
    (-(2 ^ 19) ≤ q ∧ q < 2 ^ 19) →
    ∃ t, exec (.biq e d x c st) s = .next t ∧ xi t e d = q ∧
      (∀ q1 : Int, (coefWord s e (c + 1)).toInt * xi s e x - (coefWord s e (c + 3)).toInt * q + (dataWord s e (st + 1)).toInt * 2 ^ 17 = q1 * 2 ^ 17 →
      -(2 ^ 19) ≤ q1 → q1 < 2 ^ 19 → dataWord t e st = BitVec.ofInt 20 q1) ∧
      (∀ q2 : Int, (coefWord s e (c + 2)).toInt * xi s e x - (coefWord s e (c + 4)).toInt * q = q2 * 2 ^ 17 →
      -(2 ^ 19) ≤ q2 → q2 < 2 ^ 19 → dataWord t e (st + 1) = BitVec.ofInt 20 q2)) ∧
  (∀ (s : State) (e : Eng) (ds dc a : XReg),
    (engBusy s e = true ∧ enginesHeld s = false ∧ fitsLimit s e 4 = true) →
    ds ≠ dc →
    ∃ t, exec (.sincos e ds dc a) s = .next t ∧ stepped e 4 s t ∧ t.eng[e.val].acc = s.eng[e.val].acc ∧ t.mem = s.mem ∧
      xi t e ds = clipSigned 20 (within (cosSin27 (xr s e a).toNat).2 4 s.free) ∧ xi t e dc = clipSigned 20 (within (cosSin27 (xr s e a).toNat).1 4 s.drew.free) ∧
      (∀ i : XReg, i ≠ ds → i ≠ dc → xr t e i = xr s e i)) ∧
  (∀ (s : State) (e : Eng) (d a : XReg),
    (engBusy s e = true ∧ enginesHeld s = false ∧ fitsLimit s e 4 = true) →
    ∃ t, exec (.sincos e d d a) s = .next t ∧ stepped e 4 s t ∧ t.eng[e.val].acc = s.eng[e.val].acc ∧ t.mem = s.mem ∧
      (xi t e d = clipSigned 20 (within (cosSin27 (xr s e a).toNat).2 4 s.free) ∨ xi t e d = clipSigned 20 (within (cosSin27 (xr s e a).toNat).1 4 s.drew.free)) ∧
      (∀ i : XReg, i ≠ d → xr t e i = xr s e i)) ∧
  (∀ (s : State) (e : Eng) (d y x : XReg),
    (engBusy s e = true ∧ enginesHeld s = false ∧ fitsLimit s e 14 = true) →
    (xi s e y ≠ 0 ∨ xi s e x ≠ 0) →
    ∃ t, exec (.atan2 e d y x) s = .next t ∧ stepped e 14 s t ∧ wroteX e d (BitVec.ofInt 20 (within (angle28 (xi s e y) (xi s e x) : Nat) 2 s.free)) s t) ∧
  (∀ (s : State) (e : Eng) (d a : XReg),
    (engBusy s e = true ∧ enginesHeld s = false ∧ fitsLimit s e 12 = true) →
    xi s e a < 0 →
    ∃ t, exec (.sqrt e d a) s = .next t ∧ stepped e 12 s t ∧ wroteX e d 0 s t ∧ t.eng[e.val].s = true ∧ t.eng[e.val].z = true) ∧
  (∀ (s : State) (e : Eng) (d a : XReg),
    (engBusy s e = true ∧ enginesHeld s = false ∧ fitsLimit s e 12 = true) →
    0 ≤ xi s e a →
    ∃ t u, exec (.sqrt e d a) s = .next t ∧ stepped e 12 s t ∧ (u = 0 ∨ u = 1) ∧ t.eng[e.val].s = false ∧
      wroteX e d (BitVec.ofInt 20 (clipSigned 20 ((isqrt ((xi s e a).toNat * 2 ^ 19) + u : Nat) : Int))) s t) ∧
  (∀ (s : State) (e : Eng) (d a b : XReg),
    (engBusy s e = true ∧ enginesHeld s = false ∧ fitsLimit s e 22 = true) →
    xi s e b = 0 →
    xi s e a ≠ 0 →
    ∃ t, exec (.div e d a b) s = .next t ∧ stepped e 22 s t ∧ t.eng[e.val].s = true ∧ t.on (F.HLE_ENGSTAT_SAT e) = true ∧
      wroteX e d (if xi s e a < 0 then 0x80000#20 else 0x7FFFF#20) s t) ∧
  (∀ (s : State) (e : Eng) (d a b : XReg) (q : Int),
    (engBusy s e = true ∧ enginesHeld s = false ∧ fitsLimit s e 22 = true) →
    xi s e b ≠ 0 →
    xi s e a * 2 ^ 19 = q * xi s e b →
    ∃ t, exec (.div e d a b) s = .next t ∧ stepped e 22 s t ∧ xi t e d = clipSigned 20 q ∧ t.eng[e.val].s = decide (clipSigned 20 q ≠ q)) ∧
  ((∀ (s : State) (x0 : Eng) (x1 : XReg) (x2 : Fin 2048) (x3 : XReg) (x4 : MemOperand), ∃ t, exec (.intg x0 x1 x2 x3 x4) s = .next t ∧ t.pending = s.pending) ∧
      (∀ (s : State) (x0 : Eng) (x1 : XReg) (x2 : XReg) (x3 : Fin 512) (x4 : Fin 2048), ∃ t, exec (.biq x0 x1 x2 x3 x4) s = .next t ∧ t.pending = s.pending) ∧
      (∀ (s : State) (x0 : Eng) (x1 : XReg) (x2 : XReg) (x3 : XReg), ∃ t, exec (.sincos x0 x1 x2 x3) s = .next t ∧ t.pending = s.pending) ∧
      (∀ (s : State) (x0 : Eng) (x1 : XReg) (x2 : XReg) (x3 : XReg), ∃ t, exec (.atan2 x0 x1 x2 x3) s = .next t ∧ t.pending = s.pending) ∧
      (∀ (s : State) (x0 : Eng) (x1 : XReg) (x2 : XReg), ∃ t, exec (.sqrt x0 x1 x2) s = .next t ∧ t.pending = s.pending) ∧
      (∀ (s : State) (x0 : Eng) (x1 : XReg) (x2 : XReg) (x3 : XReg), ∃ t, exec (.div x0 x1 x2 x3) s = .next t ∧ t.pending = s.pending))

/-- BR and a taken BRC go to their target in two cycles, a BRC not taken goes on in one; LOOP begins a body of 1 to 4096 rounds; SETC gives a circular length; TRIG makes the target's trigger pending, or drops and counts it; END ends the activation and records its cycles in LAST and MAX. -/
def Obligations.EngineControl : Prop :=
  (∀ (s : State) (e : Eng) (p : BitVec 12),
    (engBusy s e = true ∧ enginesHeld s = false ∧ fitsLimit s e 2 = true) →
    exec (.br e p) s = .next (s.modEng e (fun g => { g with pc := p, lastPc := g.pc, cycles := g.cycles + 2 }))) ∧
  (∀ (s : State) (e : Eng) (f : BranchFlag) (p : BitVec 12),
    (engBusy s e = true ∧ enginesHeld s = false ∧ fitsLimit s e 2 = true) →
    branchFlag s.eng[e.val] f = true →
    exec (.brc e f p) s = .next (s.modEng e (fun g => { g with pc := p, lastPc := g.pc, cycles := g.cycles + 2 }))) ∧
  (∀ (s : State) (e : Eng) (f : BranchFlag) (p : BitVec 12),
    (engBusy s e = true ∧ enginesHeld s = false ∧ fitsLimit s e 1 = true) →
    branchFlag s.eng[e.val] f = false →
    ∃ t, exec (.brc e f p) s = .next t ∧ stepped e 1 s t ∧ t.eng[e.val].x = s.eng[e.val].x ∧ t.mem = s.mem) ∧
  (∀ (s : State) (e : Eng) (n : Nat) (l : BitVec 12),
    (engBusy s e = true ∧ enginesHeld s = false ∧ fitsLimit s e 1 = true) →
    (1 ≤ n ∧ n ≤ 4096) →
    s.eng[e.val].loops.length < 2 →
    exec (.loopOp e n l) s = .next (s.modEng e (fun g => { g with
      pc := g.pc + 1, lastPc := g.pc, cycles := g.cycles + 1, loops := ⟨g.pc + 1, l, n⟩ :: g.loops }))) ∧
  (∀ (s : State) (e : Eng) (i : Fin 4) (n : Nat),
    (engBusy s e = true ∧ enginesHeld s = false ∧ fitsLimit s e 1 = true) →
    (2 ≤ n ∧ n ≤ 256) →
    ∃ t, exec (.setc e ⟨i.val, by omega⟩ n) s = .next t ∧ stepped e 1 s t ∧ t.eng[e.val].circ = s.eng[e.val].circ.set i.val n ∧ t.eng[e.val].x = s.eng[e.val].x ∧ t.eng[e.val].ix = s.eng[e.val].ix ∧ t.mem = s.mem) ∧
  (∀ (s : State) (e f : Eng) (ep : Byte),
    (engBusy s e = true ∧ enginesHeld s = false ∧ fitsLimit s e 1 = true) →
    engineTakes s f = true →
    (∀ r ∈ s.eng[f.val].pending, r.orig ≠ .engine e) →
    ∃ t, exec (.trig e f ep) s = .next t ∧ t.eng[f.val].pending = s.eng[f.val].pending ++ [⟨.engine e, ep, s.tick⟩] ∧
      (∀ g : Eng, g ≠ f → t.eng[g.val].pending = s.eng[g.val].pending) ∧ t.regs = s.regs ∧ t.mem = s.mem) ∧
  (∀ (s : State) (e f : Eng) (ep : Byte),
    (engBusy s e = true ∧ enginesHeld s = false ∧ fitsLimit s e 1 = true) →
    engineTakes s f = true →
    (∃ r ∈ s.eng[f.val].pending, r.orig = .engine e) →
    ∃ t, exec (.trig e f ep) s = .next t ∧ t.eng[f.val].pending = s.eng[f.val].pending ∧ t.on (F.HLE_ENGSTAT_DROP f) = true ∧
      (s.get (F.HLE_ENGCNT_DROPCNT f) < 32767 → t.get (F.HLE_ENGCNT_DROPCNT f) = s.get (F.HLE_ENGCNT_DROPCNT f) + 1)) ∧
  (∀ (s : State) (e : Eng),
    (engBusy s e = true ∧ enginesHeld s = false ∧ fitsLimit s e 1 = true) →
    ∃ t, exec (.endAct e) s = .next t ∧ engBusy t e = false ∧ t.get (F.HLE_ENGCYC_LAST e) = s.eng[e.val].cycles + 1 ∧
      t.get (F.HLE_ENGCYC_MAX e) = max (s.eng[e.val].cycles + 1) (s.get (F.HLE_ENGCYC_MAX e)) ∧ t.eng[e.val].x = s.eng[e.val].x ∧
      t.eng[e.val].writes = s.eng[e.val].writes ∧ t.eng[e.val].pending = s.eng[e.val].pending ∧ t.mem = s.mem)

/-- D_CAPTURE stores the word at CONT_DADDR and shows it as D; DUTY_COMMIT commits the three duty registers as one set while no clamp is applied, and nothing while one is; CLAMP_END ends the clamp. Nothing else changes. While the PLL-clocked blocks stand (RESET_N low, SLEEP or deeper, no always-on supply, held by a sentinel trip) the commands of those blocks change nothing (R546, R583, R604). Complete, that is exec answers a next state, with the queue as it was, from every state and with every operand: D_CAPTURE, DUTY_COMMIT, CLAMP_END. -/
def Obligations.DutySetsAndClamp : Prop :=
  (∀ (s : State) (v : Q20),
    coreStopped s = false →
    exec (.dCapture v) s = .next (((s.setMem20 (0x20000000 + s.get F.CONT_DADDR_ADDR) v).put F.CONT_D_D v.toNat).modCont
      (fun c => { c with landed := true, dPrior := if c.dTick = some s.tick then c.dPrior else BitVec.ofNat 20 (s.get F.CONT_D_D), dTick := some s.tick }))) ∧
  (∀ (s : State) (b : Bridge) (v : Word),
    coreStopped s = false →
    accepted (0x4000C010 + 0x1000 * b.val) v s = true →
    s.mc[b.val].clamping = false →
    ∃ t, exec (.dutyCommit b v) s = .next t ∧ t.regs = (written (0x4000C010 + 0x1000 * b.val) v s).regs ∧
      t.mc[b.val].committed = ⟨BitVec.ofNat 20 (t.get (F.MC_DUTY_DUTY b 0)), BitVec.ofNat 20 (t.get (F.MC_DUTY_DUTY b 1)),
      BitVec.ofNat 20 (t.get (F.MC_DUTY_DUTY b 2))⟩ ∧ t.mc[b.val].loaded = s.mc[b.val].loaded ∧
      t.mc[b.val].commitTick = some s.tick ∧ (s.mc[b.val].commitTick ≠ some s.tick → t.mc[b.val].prior = s.mc[b.val].committed) ∧ t.mem = s.mem) ∧
  (∀ (s : State) (b : Bridge) (v : Word),
    coreStopped s = false →
    accepted (0x4000C010 + 0x1000 * b.val) v s = true →
    s.mc[b.val].clamping = true →
    exec (.dutyCommit b v) s = .next (written (0x4000C010 + 0x1000 * b.val) v s)) ∧
  (∀ (s : State) (b : Bridge),
    coreStopped s = false →
    exec (.clampEnd b) s = .next (followGates b (s.modMc b (fun m => { m with clampLeft := 0, clamping := false })))) ∧
  (∀ (s : State),
    coreStopped s = true →
    (∀ (x0 : Q20), exec (.dCapture x0) s = .next s) ∧
      (∀ (x0 : Bridge) (x1 : Word), exec (.dutyCommit x0 x1) s = .next s) ∧
      (∀ (x0 : Bridge), exec (.clampEnd x0) s = .next s)) ∧
  ((∀ (s : State) (x0 : Q20), ∃ t, exec (.dCapture x0) s = .next t ∧ t.pending = s.pending) ∧
      (∀ (s : State) (x0 : Bridge) (x1 : Word), ∃ t, exec (.dutyCommit x0 x1) s = .next t ∧ t.pending = s.pending) ∧
      (∀ (s : State) (x0 : Bridge), ∃ t, exec (.clampEnd x0) s = .next t ∧ t.pending = s.pending))

/-- In OFF with EN, START below CATCHLO with a valid source enters FOC, and without a valid source LISTEN; START in OUT with a cause that lasts is refused as STATE; MODE_REQ 0b00 takes a running block to OFF with its legs released; MODE_REQ 0b01 in SIXSTEP with a valid source arms the return; EN = 0 takes the block to OFF but from OUT with a cause that lasts; LISTEN that times out is refused. While the PLL-clocked blocks stand (RESET_N low, SLEEP or deeper, no always-on supply, held by a sentinel trip) the commands of those blocks change nothing (R546, R583, R604). -/
def Obligations.MotorModeRequests : Prop :=
  (∀ (s : State) (b : Bridge) (v : Word),
    coreStopped s = false →
    mcMode s b = modeOff →
    s.on (F.MC_CTRL_EN b) = true →
    (F.MC_CTRL_MODE_REQ b).read v = 1 →
    (written (0x4000C000 + 0x1000 * b.val) ((F.MC_CTRL_START b).write v 1) s).on (F.MC_CTRL_EN b) = true →
    (written (0x4000C000 + 0x1000 * b.val) ((F.MC_CTRL_START b).write v 1) s).on (F.MC_CTRL_START b) = true →
    accepted (0x4000C000 + 0x1000 * b.val) ((F.MC_CTRL_START b).write v 1) s = true →
    exec (.startDecision b v) s = .next (startBegin b ((written (0x4000C000 + 0x1000 * b.val) ((F.MC_CTRL_START b).write v 1) s).put
      (F.MC_CTRL_START b) 0))) ∧
  (∀ (s : State) (b : Bridge),
    sourceValid s (sourceOf s b) = true →
    speedOf s b < s.get (F.MC_CATCHLO_SPEED b) →
    mcMode (startBegin b s) b = modeFoc ∧ (startBegin b s).mem = s.mem) ∧
  (∀ (s : State) (b : Bridge),
    sourceValid s (sourceOf s b) = false →
    mcMode (startBegin b s) b = modeListen ∧ (startBegin b s).mem = s.mem) ∧
  (∀ (s : State) (b : Bridge),
    coreStopped s = false →
    mcMode s b = modeListen →
    ∃ t, exec (.listenTimeout b) s = .next t ∧ mcMode t b = modeOff ∧ t.on (F.MC_STAT_REFUSED b) = true ∧ t.get (F.MC_STAT_REFCODE b) = 0 ∧
      t.mc[b.val].asReq = false ∧ t.mem = s.mem) ∧
  (∀ (s : State) (b : Bridge) (v : Word),
    coreStopped s = false →
    accepted (0x4000C000 + 0x1000 * b.val) ((F.MC_CTRL_MODE_REQ b).write v 0) s = true →
    (mcMode s b ≠ modeOff ∧ mcMode s b ≠ modeOut) →
    (written (0x4000C000 + 0x1000 * b.val) ((F.MC_CTRL_MODE_REQ b).write v 0) s).on (F.MC_CTRL_EN b) = true →
    (written (0x4000C000 + 0x1000 * b.val) ((F.MC_CTRL_MODE_REQ b).write v 0) s).on (F.MC_CTRL_START b) = false →
    ∃ t, exec (.modeReqOff b v) s = .next t ∧ mcMode t b = modeOff ∧ t.mc[b.val].asReq = false ∧ t.get (F.MC_CTRL_MODE_REQ b) = 0 ∧
      t.mem = s.mem) ∧
  (∀ (s : State) (b : Bridge) (v : Word),
    coreStopped s = false →
    accepted (0x4000C000 + 0x1000 * b.val) ((F.MC_CTRL_MODE_REQ b).write v 1) s = true →
    mcMode s b = modeSixstep →
    sourceValid s (sourceOf s b) = true →
    (written (0x4000C000 + 0x1000 * b.val) ((F.MC_CTRL_MODE_REQ b).write v 1) s).on (F.MC_CTRL_EN b) = true →
    (written (0x4000C000 + 0x1000 * b.val) ((F.MC_CTRL_MODE_REQ b).write v 1) s).on (F.MC_CTRL_START b) = false →
    exec (.modeReqReturn b v) s = .next ((written (0x4000C000 + 0x1000 * b.val) ((F.MC_CTRL_MODE_REQ b).write v 1) s).modMc b
      (fun m => { m with returnReq := true }))) ∧
  (∀ (s : State) (b : Bridge) (v : Word),
    coreStopped s = false →
    accepted (0x4000C000 + 0x1000 * b.val) ((F.MC_CTRL_EN b).write v 0) s = true →
    mcMode s b ≠ modeOut →
    (F.MC_CTRL_MODE_REQ b).read v = 1 →
    (written (0x4000C000 + 0x1000 * b.val) ((F.MC_CTRL_EN b).write v 0) s).on (F.MC_CTRL_EN b) = false →
    (written (0x4000C000 + 0x1000 * b.val) ((F.MC_CTRL_EN b).write v 0) s).on (F.MC_CTRL_START b) = false →
    ∃ t, exec (.mcEnableWrite b v) s = .next t ∧ mcMode t b = modeOff ∧ t.on (F.MC_CTRL_EN b) = false ∧
      (mcMode s b ≠ modeOff → t.mc[b.val].asReq = false) ∧ t.mem = s.mem) ∧
  (∀ (s : State) (b : Bridge) (v : Word),
    coreStopped s = false →
    accepted (0x4000C000 + 0x1000 * b.val) ((F.MC_CTRL_START b).write v 1) s = true →
    (mcMode s b = modeOut ∧ outCause s b = true) →
    (written (0x4000C000 + 0x1000 * b.val) ((F.MC_CTRL_START b).write v 1) s).on (F.MC_CTRL_START b) = true →
    ∃ t, exec (.startDecision b v) s = .next t ∧ mcMode t b = modeOut ∧ t.on (F.MC_STAT_REFUSED b) = true ∧ t.get (F.MC_STAT_REFCODE b) = 3 ∧
      t.on (F.MC_CTRL_START b) = false ∧ t.mem = s.mem) ∧
  (∀ (s : State) (b : Bridge) (v : Word),
    coreStopped s = false →
    accepted (0x4000C000 + 0x1000 * b.val) ((F.MC_CTRL_EN b).write v 0) s = true →
    (mcMode s b = modeOut ∧ outCause s b = true) →
    (written (0x4000C000 + 0x1000 * b.val) ((F.MC_CTRL_EN b).write v 0) s).on (F.MC_CTRL_EN b) = false →
    (written (0x4000C000 + 0x1000 * b.val) ((F.MC_CTRL_EN b).write v 0) s).on (F.MC_CTRL_START b) = false →
    ∃ t, exec (.mcEnableWrite b v) s = .next t ∧ mcMode t b = modeOut ∧ t.on (F.MC_CTRL_EN b) = false ∧
      t.on (F.MC_STAT_REFUSED b) = s.on (F.MC_STAT_REFUSED b) ∧ t.mem = s.mem) ∧
  (∀ (s : State),
    coreStopped s = true →
    (∀ (x0 : Bridge) (x1 : Word), exec (.startDecision x0 x1) s = .next s) ∧
      (∀ (x0 : Bridge), exec (.listenTimeout x0) s = .next s) ∧
      (∀ (x0 : Bridge) (x1 : Word), exec (.modeReqOff x0 x1) s = .next s) ∧
      (∀ (x0 : Bridge) (x1 : Word), exec (.modeReqReturn x0 x1) s = .next s) ∧
      (∀ (x0 : Bridge) (x1 : Word), exec (.mcEnableWrite x0 x1) s = .next s))

/-- A report is shown, and outside SIXSTEP, LISTEN and COAST does nothing else; in LISTEN it feeds the line estimator; a sector without a crossing counts, and at ZCMISS misses in a row it is a loss of synchronism: COAST, with active short from ASTHR up, or OUT after LOSMAX losses within the last second. While the PLL-clocked blocks stand (RESET_N low, SLEEP or deeper, no always-on supply, held by a sentinel trip) the commands of those blocks change nothing (R546, R583, R604). -/
def Obligations.ComparatorsAndSynchronism : Prop :=
  (∀ (s : State) (b : Bridge) (p l : BitVec 3),
    coreStopped s = false →
    (mcMode s b ≠ modeSixstep ∧ mcMode s b ≠ modeListen ∧ mcMode s b ≠ modeCoast) →
    exec (.comparatorReport b p l) s = .next ((s.put (F.MC_COMP_PCOMP b) p.toNat).put (F.MC_COMP_LCODE b) l.toNat)) ∧
  (∀ (s : State) (b : Bridge) (p l : BitVec 3),
    coreStopped s = false →
    mcMode s b = modeListen →
    (l ≠ 0 ∧ l ≠ 7) →
    s.mc[b.val].lastCode = none →
    ∃ t, exec (.comparatorReport b p l) s = .next t ∧ t.mc[b.val].lastCode = sectorOfCode l.toNat ∧ t.mc[b.val].codeTick = s.tick ∧
      t.get (F.MC_COMP_PCOMP b) = p.toNat ∧ t.get (F.MC_COMP_LCODE b) = l.toNat ∧ mcMode t b = modeListen ∧ t.mem = s.mem) ∧
  (∀ (s : State) (b : Bridge),
    coreStopped s = false →
    mcMode s b = modeSixstep →
    s.mc[b.val].zcMisses + 1 < s.get (F.MC_ZC_ZCMISS b) →
    exec (.zcWindowMiss b) s = .next ((s.countBit (F.MC_CNT_ZCMCNT b) (F.MC_CNT_OVF b) 2).modMc b (fun m => { m with zcMisses := m.zcMisses + 1 }))) ∧
  (∀ (s : State) (b : Bridge),
    coreStopped s = false →
    mcMode s b = modeSixstep →
    s.get (F.MC_ZC_ZCMISS b) ≤ s.mc[b.val].zcMisses + 1 →
    s.mc[b.val].losTicks.length < s.get (F.MC_WIN_LOSMAX b) →
    ∃ t, exec (.zcWindowMiss b) s = .next t ∧ mcMode t b = modeCoast ∧ t.on (F.MC_STAT_LOS b) = true ∧ t.mc[b.val].coastTick = s.tick ∧
      t.mc[b.val].asReq = decide (s.get (F.GD_ASTHR_ASTHR b) ≤ speedOf s b)) ∧
  (∀ (s : State) (b : Bridge),
    coreStopped s = false →
    mcMode s b = modeSixstep →
    s.get (F.MC_ZC_ZCMISS b) ≤ s.mc[b.val].zcMisses + 1 →
    (s.get (F.MC_WIN_LOSMAX b) ≤ (s.mc[b.val].losTicks.filter (fun u => decide (s.tick < u + 200000000))).length) →
    ∃ t, exec (.zcWindowMiss b) s = .next t ∧ mcMode t b = modeOut ∧ t.on (F.MC_STAT_LOS b) = true ∧
      t.mc[b.val].losTicks = s.tick :: s.mc[b.val].losTicks.filter (fun u => decide (s.tick < u + 200000000))) ∧
  (∀ (s : State),
    coreStopped s = true →
    (∀ (x0 : Bridge) (x1 : BitVec 3) (x2 : BitVec 3), exec (.comparatorReport x0 x1 x2) s = .next s) ∧
      (∀ (x0 : Bridge), exec (.zcWindowMiss x0) s = .next s))

/-- A configuration-link frame ends the driver die's loss of the link and carries each bridge's AS flag and ASEL; a loss clears LEGEN of both bridges, sets LLOSS and puts every leg that no higher row of R353 holds into LLSTATE; the logic die's own count of the link decides its access replies only; the driver die's power-up leaves every register of GDA, GDB and VBUS at its reset value, every switch off and the undervoltage in force. Complete, that is exec answers a next state, with the queue as it was, from every state and with every operand: CONFIG_LINK_FRAME, CONFIG_LINK_LOSS, LOGIC_LINK_LOSS, DRIVER_POWER_UP, CONFIG_LINK_RESUME. -/
def Obligations.LinkFramesAndLosses : Prop :=
  (∀ (s : State),
    ∃ t, exec .configLinkFrame s = .next t ∧ t.driver.linkLost = false ∧ t.mem = s.mem ∧
      ∀ b : Bridge, t.gate[b.val].asFlag = s.mc[b.val].asReq ∧ t.gate[b.val].linkHold = s.gate[b.val].linkHold ∧
      t.on (F.GD_STAT_ASEL b) = decide (s.get (F.GD_ASTHR_ASTHR b) ≤ speedOf s b)) ∧
  (∀ (s : State),
    ∃ t, exec .configLinkLoss s = .next t ∧ t.driver.linkLost = true ∧ t.mem = s.mem ∧
      (∀ b : Bridge, t.get (F.GD_CTRL_LEGEN b) = 0 ∧ t.on (F.GD_STAT_LLOSS b) = true ∧ t.gate[b.val].linkHold = true) ∧
      ∀ (b : Bridge) (k : Fin 3), s.driver.underVolt = false → s.on (F.GD_STAT_BOUT b) = false → s.bit (F.GD_STAT_LEGOUT b) k = false →
      legState t b k = if s.on (F.GD_CTRL_LLSTATE b) then LegState.activeShort else LegState.highImpedance) ∧
  (∀ (s : State),
    ∃ t, exec .logicLinkLoss s = .next t ∧ t.sys = { s.sys with linkLost := true } ∧ { t with sys := s.sys } = s) ∧
  (∀ (s : State),
    ∃ t, exec .configLinkResume s = .next t ∧ t.sys = { s.sys with linkLost := false } ∧ { t with sys := s.sys } = s) ∧
  (∀ (s : State),
    ∃ t, exec .driverPowerUp s = .next t ∧ t.driver.underVolt = true ∧ t.driver.linkLost = true ∧ t.mem = s.mem ∧
      (∀ a, onDriverDie a = true → t.rd a = resetWord a) ∧
      (∀ a, onDriverDie a = false → (∀ b : Bridge, a ≠ (F.MC_VMOT_VMOT b).addr ∧ a ≠ (F.MC_STAT_MODE b).addr ∧ a ≠ (F.MC_RGL_RGL b).addr ∧
      a ≠ (F.MC_IDBURN_IDBURN b).addr) → t.rd a = s.rd a) ∧
      (∀ b : Bridge, t.get (F.MC_VMOT_VMOT b) = 0 ∧ t.get (F.MC_STAT_LEGOUT b) = 0 ∧ t.on (F.MC_STAT_DEGR b) = false ∧ t.on (F.MC_STAT_CHREQ b) = false ∧
      mcMode t b = mcMode s b) ∧
      ∀ (b : Bridge) (j : Switch), t.gate[b.val].sw[j.val].phase = .offHold ∧ wanted t b j = false) ∧
  ((∀ (s : State), ∃ t, exec .configLinkFrame s = .next t ∧ t.pending = s.pending) ∧
      (∀ (s : State), ∃ t, exec .configLinkLoss s = .next t ∧ t.pending = s.pending) ∧
      (∀ (s : State), ∃ t, exec .logicLinkLoss s = .next t ∧ t.pending = s.pending) ∧
      (∀ (s : State), ∃ t, exec .driverPowerUp s = .next t ∧ t.pending = s.pending) ∧
      (∀ (s : State), ∃ t, exec .configLinkResume s = .next t ∧ t.pending = s.pending))

/-- A gate command edge to the level that MC commands is shown in CMD and every switch of the bridge follows (another edge is none of MC's, log entry 98); a leg with both lines on sets XON, counts once and has both switches commanded off; a held turn-on that is admitted begins pre-charge and blanking; a phase's end begins the next phase and shows the gate's level; a slope time-out begins the hold phase, sets SLOPETO, counts and is no leg fault. -/
def Obligations.GateTransitions : Prop :=
  (∀ (s : State) (b : Bridge) (j : Switch) (on : Bool),
    (bitAt (lineCommands s b) j = on ∧ s.gate[b.val].sw[j.val].stray = false) →
    (∀ k < 3, (bitAt (withBit (s.get (F.GD_GW_CMD b)) j on) k && bitAt (withBit (s.get (F.GD_GW_CMD b)) j on) (k + 3)) = false) →
    exec (.gateCommandEdge b j on) s = .next (driveBridge b ((noteEdges b (s.get (F.GD_GW_CMD b)) (withBit (s.get (F.GD_GW_CMD b)) j on) s).put (F.GD_GW_CMD b)
      (withBit (s.get (F.GD_GW_CMD b)) j on)))) ∧
  (∀ (s : State) (b : Bridge) (j : Switch) (on : Bool),
    (bitAt (lineCommands s b) j ≠ on ∧ s.gate[b.val].sw[j.val].stray = false) →
    (on = false ∨ s.bit (F.GD_GW_CMD b) (oppositeSw j) = false) →
    exec (.gateCommandEdge b j on) s = .next s) ∧
  (∀ (s : State) (b : Bridge) (j : Switch),
    s.bit (F.GD_GW_CMD b) j = false →
    s.bit (F.GD_GW_CMD b) (oppositeSw j) = true →
    ∃ t, exec (.gateCommandEdge b j true) s = .next t ∧ t.get (F.GD_GW_CMD b) = s.get (F.GD_GW_CMD b) + 2 ^ j.val ∧ t.on (F.GD_STAT_XON b) = true ∧
      (s.get (F.GD_CNT0_XONCNT b) < 255 → t.get (F.GD_CNT0_XONCNT b) = s.get (F.GD_CNT0_XONCNT b) + 1) ∧
      (legState t b (legFin j) = .commands → wanted t b j = false ∧ wanted t b (oppositeSw j) = false) ∧
      (∀ k : Fin 3, t.bit (F.GD_STAT_LEGOUT b) k = s.bit (F.GD_STAT_LEGOUT b) k)) ∧
  (∀ (s : State) (b : Bridge) (j : Switch),
    s.gate[b.val].sw[j.val].held = true →
    wanted s b j = true →
    (s.on (F.GD_CTRL_ILMODE b) = false ∨ admits s b j = true) →
    ∃ t, exec (.gateWatchAdmit b j) s = .next t ∧ t.gate[b.val].sw[j.val].phase = .preCharge ∧ t.gate[b.val].sw[j.val].blanking = true ∧
      t.gate[b.val].sw[j.val].held = false ∧ (∀ i : Switch, i ≠ j → t.gate[b.val].sw[i.val] = { s.gate[b.val].sw[i.val] with belowTick := t.gate[b.val].sw[i.val].belowTick }) ∧
      (s.on (F.GD_CTRL_ILMODE b) = false → t.bit (F.GD_GW_ON b) (oppositeSw j) = false) ∧ (∀ a, a ≠ (F.GD_GW_ON b).addr → t.rd a = s.rd a)) ∧
  (∀ (s : State) (b : Bridge) (j : Switch),
    ∃ t, exec (.gatePhaseEnd b j) s = .next t ∧ t.gate[b.val].sw[j.val].phase = (match s.gate[b.val].sw[j.val].phase with
      | .preCharge => .slopeOn | .slopeOn => .onHold | .preDischarge => if s.gate[b.val].sw[j.val].shortOff then .offHold else .slopeOff | .slopeOff => .offHold | p => p) ∧
      (s.gate[b.val].sw[j.val].phase = .slopeOn → aboveOff s b (s.get (F.GD_PROFON_PLXON b)) = true → t.bit (F.GD_GW_ON b) j = true) ∧
      (s.gate[b.val].sw[j.val].phase = .slopeOff → aboveOff s b (s.get (F.GD_PROFOFF_PLXOFF b)) = false → t.bit (F.GD_GW_ON b) j = false) ∧
      (∀ i : Switch, i ≠ j → t.gate[b.val].sw[i.val] = s.gate[b.val].sw[i.val] ∧ t.bit (F.GD_GW_ON b) i = s.bit (F.GD_GW_ON b) i) ∧
      (∀ a, a ≠ (F.GD_GW_ON b).addr → t.rd a = s.rd a) ∧ t.mem = s.mem) ∧
  (∀ (s : State) (b : Bridge) (j : Switch),
    (s.gate[b.val].sw[j.val].phase = .slopeOn ∨ s.gate[b.val].sw[j.val].phase = .slopeOff) →
    ∃ t, exec (.slopeTimeout b j) s = .next t ∧ t.gate[b.val].sw[j.val].phase =
      (if s.gate[b.val].sw[j.val].phase = .slopeOn then .onHold else .offHold) ∧ t.on (F.GD_STAT_SLOPETO b) = true ∧
      (s.get (F.GD_CNT1_SLTOCNT b) < 255 → t.get (F.GD_CNT1_SLTOCNT b) = s.get (F.GD_CNT1_SLTOCNT b) + 1) ∧
      t.get (F.GD_STAT_LEGOUT b) = s.get (F.GD_STAT_LEGOUT b) ∧ (∀ k : Fin 3, t.rd (F.GD_LEGFLT_HSCH b k).addr = s.rd (F.GD_LEGFLT_HSCH b k).addr)) ∧
  (∀ (s : State) (b : Bridge) (j : Switch),
    ∃ t, exec (.blankingEnd b j) s = .next t ∧ t.gate[b.val].sw[j.val] = { s.gate[b.val].sw[j.val] with blanking := false } ∧
      (∀ i : Switch, i ≠ j → t.gate[b.val].sw[i.val] = s.gate[b.val].sw[i.val]) ∧ { t with gate := s.gate } = s)

/-- A gate-watch time-out, a sag in the hold phase, a hard short of a switch commanded on and a normal short after blanking latch their cause and their leg, which no command turns on again; other legs keep their latch. A trip of a switch that is off, and a normal trip that active short suspends, does nothing. A leg whose causes are clear is released by LEGEN; with a cause set on any of the legs it names the write is discarded whole (log entry 35, the model's reading). While the PLL-clocked blocks stand (RESET_N low, SLEEP or deeper, no always-on supply, held by a sentinel trip) the commands of those blocks change nothing (R546, R583, R604). -/
def Obligations.LegFaults : Prop :=
  (∀ (s : State) (b : Bridge) (j : Switch),
    s.gate[b.val].sw[j.val].held = true →
    s.on (F.GD_CTRL_ILMODE b) = false →
    ∃ t, exec (.gateWatchTimeout b j) s = .next t ∧ t.on (gateCause b (oppositeSw j)) = true ∧ t.bit (F.GD_STAT_LEGOUT b) (legFin j) = true ∧
      (∀ i : Switch, legFin i = legFin j → wanted t b i = false) ∧ (∀ k : Fin 3, k ≠ legFin j → t.bit (F.GD_STAT_LEGOUT b) k = s.bit (F.GD_STAT_LEGOUT b) k)) ∧
  (∀ (s : State) (b : Bridge) (j : Switch),
    s.gate[b.val].sw[j.val].phase = .onHold →
    s.driver.underVolt = false →
    ∃ t, exec (.gateSagFault b j) s = .next t ∧ (j.val < 3 → t.on (F.GD_LEGFLT_BST b (legOf j)) = true) ∧
      (3 ≤ j.val → t.on (F.GD_LEGFLT_GATEL b (legOf j)) = true) ∧ t.bit (F.GD_STAT_LEGOUT b) (legFin j) = true ∧
      (s.get (F.GD_CNT1_SAGCNT b) < 255 → t.get (F.GD_CNT1_SAGCNT b) = s.get (F.GD_CNT1_SAGCNT b) + 1) ∧
      (∀ i : Switch, legFin i = legFin j → wanted t b i = false) ∧ (∀ k : Fin 3, k ≠ legFin j → t.bit (F.GD_STAT_LEGOUT b) k = s.bit (F.GD_STAT_LEGOUT b) k)) ∧
  (∀ (s : State) (b : Bridge) (j : Switch),
    s.driver.underVolt = true →
    exec (.gateSagFault b j) s = .next s) ∧
  (∀ (s : State) (b : Bridge) (j : Switch),
    s.gate[b.val].sw[j.val].phase.isOn = true →
    ∃ t, exec (.hardShortTrip b j) s = .next t ∧ (j.val < 3 → t.on (F.GD_LEGFLT_HSCH b (legOf j)) = true) ∧
      (3 ≤ j.val → t.on (F.GD_LEGFLT_HSCL b (legOf j)) = true) ∧ t.bit (F.GD_STAT_LEGOUT b) (legFin j) = true ∧
      (s.get (F.GD_CNT0_HSCCNT b) < 255 → t.get (F.GD_CNT0_HSCCNT b) = s.get (F.GD_CNT0_HSCCNT b) + 1) ∧
      (∀ i : Switch, legFin i = legFin j → wanted t b i = false) ∧ (∀ k : Fin 3, k ≠ legFin j → t.bit (F.GD_STAT_LEGOUT b) k = s.bit (F.GD_STAT_LEGOUT b) k)) ∧
  (∀ (s : State) (b : Bridge) (j : Switch),
    s.gate[b.val].sw[j.val].phase.isOn = false →
    exec (.hardShortTrip b j) s = .next s ∧ exec (.normalShortTrip b j) s = .next s) ∧
  (∀ (s : State) (b : Bridge) (j : Switch),
    s.gate[b.val].sw[j.val].phase.isOn = true →
    s.gate[b.val].sw[j.val].blanking = false →
    shortHolds s b j = false →
    ∃ t, exec (.normalShortTrip b j) s = .next t ∧ (j.val < 3 → t.on (F.GD_LEGFLT_NSCH b (legOf j)) = true) ∧
      (3 ≤ j.val → t.on (F.GD_LEGFLT_NSCL b (legOf j)) = true) ∧ t.bit (F.GD_STAT_LEGOUT b) (legFin j) = true ∧
      (s.get (F.GD_CNT0_NSCCNT b) < 255 → t.get (F.GD_CNT0_NSCCNT b) = s.get (F.GD_CNT0_NSCCNT b) + 1) ∧
      (∀ i : Switch, legFin i = legFin j → wanted t b i = false) ∧ (∀ k : Fin 3, k ≠ legFin j → t.bit (F.GD_STAT_LEGOUT b) k = s.bit (F.GD_STAT_LEGOUT b) k)) ∧
  (∀ (s : State) (b : Bridge) (j : Switch),
    s.gate[b.val].asFlag = true →
    bitAt (shortBits s b) j = true →
    exec (.normalShortTrip b j) s = .next s) ∧
  (∀ (s : State) (b : Bridge) (legs : BitVec 3),
    coreStopped s = false →
    s.sys.linkLost = false →
    s.driver.linkLost = false →
    (∀ k : Fin 3, bitAt legs.toNat k = true → s.rd (F.GD_LEGFLT_HSCH b k).addr = 0) →
    ∃ t, exec (.legEnable b legs) s = .next t ∧ t.get (F.GD_CTRL_LEGEN b) = legs.toNat ∧ t.gate[b.val].linkHold = false ∧
      t.on (F.GD_CTRL_EN b) = s.on (F.GD_CTRL_EN b) ∧
      (∀ k : Fin 3, t.bit (F.GD_STAT_LEGOUT b) k = (s.bit (F.GD_STAT_LEGOUT b) k && !bitAt legs.toNat k)) ∧
      (t.get (F.GD_STAT_LEGOUT b) = 0 → s.get (F.GD_STAT_LEGOUT b) ≠ 0 → t.on (F.GD_STAT_BOUT b) = false) ∧ t.mem = s.mem) ∧
  (∀ (s : State) (b : Bridge) (legs : BitVec 3) (k : Fin 3),
    coreStopped s = false →
    s.sys.linkLost = false →
    s.driver.linkLost = false →
    (bitAt legs.toNat k = true ∧ s.rd (F.GD_LEGFLT_HSCH b k).addr ≠ 0) →
    exec (.legEnable b legs) s = .next (s.put (F.GD_STAT_ACCERR b) 1)) ∧
  (∀ (s : State),
    coreStopped s = true →
    (∀ (x0 : Bridge) (x1 : BitVec 3), exec (.legEnable x0 x1) s = .next s))

/-- A VMOT value is shown by VBUS, presented to both MC blocks and added to the mean window; OV1 drives CHOP, and its end leaves CHOP to the MC blocks' requests; OV2 takes every leg away from its commands and puts both MC blocks into OUT, which its end does not; an undervoltage is flagged, takes every leg to high impedance, puts both MC blocks into OUT, and ends by itself. Complete, that is exec answers a next state, with the queue as it was, from every state and with every operand: VMOT_MEASURE, OV1_REACHED, OV1_ENDED, OV2_REACHED, OV2_ENDED, UNDERVOLTAGE_BEGIN, UNDERVOLTAGE_END. -/
def Obligations.MotorSupply : Prop :=
  (∀ (s : State) (v : BitVec 16),
    s.sys.linkLost = false →
    s.driver.linkLost = false →
    ∃ t, exec (.vmotMeasure v) s = .next t ∧ t.get F.VBUS_VMOT_VMOT = v.toNat ∧ (∀ b : Bridge, t.get (F.MC_VMOT_VMOT b) = v.toNat) ∧
      t.driver.vmotSum = s.driver.vmotSum + v.toNat ∧ t.driver.vmotNum = s.driver.vmotNum + 1 ∧
      t.on F.VBUS_STAT_CHOP = (s.on F.VBUS_STAT_OV1 || t.on (F.MC_STAT_CHREQ 0) || t.on (F.MC_STAT_CHREQ 1)) ∧ t.mem = s.mem) ∧
  (∀ (s : State),
    s.on F.VBUS_STAT_OV1 = false →
    ∃ t, exec .ov1Reached s = .next t ∧ t.on F.VBUS_STAT_OV1 = true ∧ t.on F.VBUS_STAT_OV1EV = true ∧ t.on F.VBUS_STAT_CHOP = true ∧
      (s.get F.VBUS_CNT_OV1CNT < 255 → t.get F.VBUS_CNT_OV1CNT = s.get F.VBUS_CNT_OV1CNT + 1) ∧ t.on F.VBUS_STAT_OV2 = s.on F.VBUS_STAT_OV2) ∧
  (∀ (s : State),
    ∃ t, exec .ov1Ended s = .next t ∧ t.on F.VBUS_STAT_OV1 = false ∧ t.on F.VBUS_STAT_OV1EV = s.on F.VBUS_STAT_OV1EV ∧
      t.on F.VBUS_STAT_CHOP = (s.on (F.MC_STAT_CHREQ 0) || s.on (F.MC_STAT_CHREQ 1)) ∧ (∀ a, a ≠ 0x40010004 → t.rd a = s.rd a) ∧ t.mem = s.mem) ∧
  (∀ (s : State),
    s.on F.VBUS_STAT_OV2 = false →
    ∃ t, exec .ov2Reached s = .next t ∧ t.on F.VBUS_STAT_OV2 = true ∧ t.on F.VBUS_STAT_OV2EV = true ∧ (∀ b : Bridge, mcMode t b = modeOut) ∧
      (∀ (b : Bridge) (k : Fin 3), legState t b k ≠ .commands) ∧
      (s.get F.VBUS_CNT_OV2CNT < 255 → t.get F.VBUS_CNT_OV2CNT = s.get F.VBUS_CNT_OV2CNT + 1)) ∧
  (∀ (s : State),
    ∃ t, exec .ov2Ended s = .next t ∧ t.on F.VBUS_STAT_OV2 = false ∧ (∀ b : Bridge, mcMode t b = mcMode s b) ∧
      t.on F.VBUS_STAT_OV2EV = s.on F.VBUS_STAT_OV2EV ∧ t.mem = s.mem) ∧
  (∀ (s : State) (vmot vdrv : Bool),
    (vmot = true ∨ vdrv = true) →
    s.driver.underVolt = false →
    ∃ t, exec (.undervoltageBegin vmot vdrv) s = .next t ∧ t.driver.underVolt = true ∧ t.on F.VBUS_STAT_VMUV = (s.on F.VBUS_STAT_VMUV || vmot) ∧
      t.on F.VBUS_STAT_DRVUV = (s.on F.VBUS_STAT_DRVUV || vdrv) ∧ (∀ b : Bridge, mcMode t b = modeOut) ∧
      (∀ (b : Bridge) (j : Switch), wanted t b j = false) ∧
      (s.get F.VBUS_CNT_UVCNT < 255 → t.get F.VBUS_CNT_UVCNT = s.get F.VBUS_CNT_UVCNT + 1)) ∧
  (∀ (s : State),
    ∃ t, exec .undervoltageEnd s = .next t ∧ t.driver = { s.driver with underVolt := false } ∧ t.mem = s.mem ∧
      (∀ b : Bridge, mcMode t b = mcMode s b) ∧ t.on F.VBUS_STAT_VMUV = s.on F.VBUS_STAT_VMUV ∧ t.on F.VBUS_STAT_DRVUV = s.on F.VBUS_STAT_DRVUV) ∧
  ((∀ (s : State) (x0 : BitVec 16), ∃ t, exec (.vmotMeasure x0) s = .next t ∧ t.pending = s.pending) ∧
      (∀ (s : State), ∃ t, exec .ov1Reached s = .next t ∧ t.pending = s.pending) ∧
      (∀ (s : State), ∃ t, exec .ov1Ended s = .next t ∧ t.pending = s.pending) ∧
      (∀ (s : State), ∃ t, exec .ov2Reached s = .next t ∧ t.pending = s.pending) ∧
      (∀ (s : State), ∃ t, exec .ov2Ended s = .next t ∧ t.pending = s.pending) ∧
      (∀ (s : State) (x0 : Bool) (x1 : Bool), ∃ t, exec (.undervoltageBegin x0 x1) s = .next t ∧ t.pending = s.pending) ∧
      (∀ (s : State), ∃ t, exec .undervoltageEnd s = .next t ∧ t.pending = s.pending))

/-- Training that succeeds shows LOCK, TRAINED and PEER and sets DELAY to half the round trip less the turnaround within 10 ns; without it E1 of a duplex set that has not trained since its cold start is absent, and any other port lost. A loss is shown and counted once and takes TRAINED away; where the link was lost before, a stand-in silent on frames and line is then declared lost; a lost port, or one asked to, trains anew; the fourth code violation within 64 symbols loses the link. A slate's error, by this lane's valley nearest to the leader's, is kept for the next valley, and sixteen within 25 ns lock. While the PLL-clocked blocks stand (RESET_N low, SLEEP or deeper, no always-on supply, held by a sentinel trip) the commands of those blocks change nothing (R546, R583, R604). -/
def Obligations.EbpenLink : Prop :=
  (∀ (s : State) (e : Port) (rtt turn : Nat) (l : Lane),
    coreStopped s = false →
    s.on (F.EBP_CTRL_EN e) = true →
    (turn + 4 ≤ rtt ∧ rtt ≤ turn + 8000) →
    ∃ t, exec (.linkTrainingDone e true rtt turn l) s = .next t ∧ t.on (F.EBP_STAT_LOCK e) = true ∧ t.on (F.EBP_STAT_TRAINED e) = true ∧
      t.get (F.EBP_STAT_PEER e) = l.val ∧ t.on (F.EBP_CTRL_RETRAIN e) = false ∧ t.ebp[e.val].beats = 0 ∧
      rtt - turn ≤ 2 * t.get (F.EBP_DELAY_DELAY e) + 4 ∧ 2 * t.get (F.EBP_DELAY_DELAY e) ≤ rtt - turn + 4 ∧
      t.on (F.EBP_STAT_LOST e) = s.on (F.EBP_STAT_LOST e) ∧ t.mem = s.mem) ∧
  (∀ (s : State) (rtt turn : Nat) (l : Lane),
    coreStopped s = false →
    s.on (F.EBP_CTRL_EN 1) = true →
    (topology s = 1 ∨ topology s = 2) →
    (s.on F.KEEP_STAT_WARM = false ∧ s.ebp[1].everTrained = false) →
    ∃ t, exec (.linkTrainingDone 1 false rtt turn l) s = .next t ∧ t.on (F.EBP_STAT_ABSENT 1) = true ∧ t.on (F.EBP_STAT_LOST 1) = s.on (F.EBP_STAT_LOST 1) ∧ t.mem = s.mem) ∧
  (∀ (s : State) (e : Port) (rtt turn : Nat) (l : Lane),
    coreStopped s = false →
    portInUse s e = true →
    (e = 0 ∨ (topology s ≠ 1 ∧ topology s ≠ 2) ∨ s.on F.KEEP_STAT_WARM = true ∨ s.ebp[1].everTrained = true) →
    ∃ t, exec (.linkTrainingDone e false rtt turn l) s = .next t ∧ t.on (F.EBP_STAT_LOST e) = true ∧ t.on (F.EBP_STAT_ABSENT e) = false ∧
      t.on (F.EBP_CTRL_RETRAIN e) = false ∧ (s.on (F.EBP_STAT_LOST e) = false → t.on (F.EBP_STAT_TRAINED e) = false ∧ t.on (F.EBP_STAT_LOSTEV e) = true ∧
      (s.get (F.EBP_CNT_LOSTCNT e) < 255 → t.get (F.EBP_CNT_LOSTCNT e) = s.get (F.EBP_CNT_LOSTCNT e) + 1))) ∧
  (∀ (s : State) (e : Port),
    coreStopped s = false →
    portInUse s e = true →
    s.on (F.EBP_STAT_LOST e) = false →
    ∃ t, exec (.linkLost e) s = .next t ∧ t.on (F.EBP_STAT_LOST e) = true ∧ t.on (F.EBP_STAT_LOSTEV e) = true ∧
      (s.get (F.EBP_CNT_LOSTCNT e) < 255 → t.get (F.EBP_CNT_LOSTCNT e) = s.get (F.EBP_CNT_LOSTCNT e) + 1) ∧ t.on (F.EBP_STAT_TRAINED e) = false ∧ t.ebp[e.val].beats = 0) ∧
  (∀ (s : State) (e : Port),
    coreStopped s = false →
    (portInUse s e = false ∨ (s.on (F.EBP_STAT_LOST e) = true ∧ ∀ l, laneOf (s.get (F.EBP_STAT_PEER e)) = some l → roleSeen s l.val ≠ 1)) →
    exec (.linkLost e) s = .next s) ∧
  (∀ (s : State) (e : Port) (l : Lane),
    coreStopped s = false →
    (portInUse s e = true ∧ s.on (F.EBP_STAT_LOST e) = true) →
    (laneOf (s.get (F.EBP_STAT_PEER e)) = some l ∧ l ∈ peersOf s ∧ peerLinked s l = false ∧ roleSeen s l.val = 1) →
    (s.get F.CONT_STAT_ROLE ≠ 0 ∧ leaving s l.val = false) →
    (framesGone s l = true ∧ lowLong s l = true ∧ within2Ti s s.peers[l.val].lowSince s.peers[l.val].frame = true) →
    ∃ t, exec (.linkLost e) s = .next t ∧ t.on (F.CONT_PEER_LOST l.val) = true ∧ t.on (F.EBP_STAT_LOST e) = true ∧
      t.get (F.EBP_CNT_LOSTCNT e) = s.get (F.EBP_CNT_LOSTCNT e)) ∧
  (∀ (s : State) (e : Port),
    coreStopped s = false →
    portInUse s e = true →
    s.on (F.EBP_STAT_LOST e) = true →
    ∃ t, exec (.linkRetrain e) s = .next t ∧ t.on (F.EBP_STAT_TRAINED e) = false ∧ t.on (F.EBP_STAT_LOCK e) = false ∧ t.on (F.EBP_STAT_LOST e) = true ∧ t.ebp[e.val].beats = 0 ∧ t.mem = s.mem) ∧
  (∀ (s : State) (e : Port),
    coreStopped s = false →
    s.on (F.EBP_CTRL_EN e) = true →
    ∃ t, exec (.retrainRequest e) s = .next t ∧ t.on (F.EBP_CTRL_RETRAIN e) = true ∧ t.on (F.EBP_STAT_TRAINED e) = false ∧ t.on (F.EBP_STAT_LOCK e) = false ∧ t.mem = s.mem) ∧
  (∀ (s : State) (e : Port),
    coreStopped s = false →
    portInUse s e = true →
    ((s.ebp[e.val].violations.filter (fun t => decide (s.tick < t + 256))).length < 3) →
    ∃ t, exec (.codeViolation e) s = .next t ∧ t.on (F.EBP_STAT_LOST e) = s.on (F.EBP_STAT_LOST e) ∧
      (s.get (F.EBP_CNT_CODEERR e) < 255 → t.get (F.EBP_CNT_CODEERR e) = s.get (F.EBP_CNT_CODEERR e) + 1) ∧
      t.ebp[e.val].violations = s.tick :: s.ebp[e.val].violations.filter (fun t => decide (s.tick < t + 256)) ∧ t.mem = s.mem) ∧
  (∀ (s : State) (e : Port),
    coreStopped s = false →
    portInUse s e = true →
    (3 ≤ (s.ebp[e.val].violations.filter (fun t => decide (s.tick < t + 256))).length) →
    ∃ t, exec (.codeViolation e) s = .next t ∧ t.on (F.EBP_STAT_LOST e) = true) ∧
  (∀ (s : State) (e : Port) (f : EbpFrame) (l : Lane),
    coreStopped s = false →
    freshFrame e 15 8 f l s →
    ∃ t, exec (.trainReceived e f) s = .next t ∧ t.on (F.EBP_STAT_LOCK e) = true ∧ t.on (F.EBP_STAT_TRAINED e) = s.on (F.EBP_STAT_TRAINED e) ∧
      (s.on (F.EBP_STAT_TRAINED e) = false → ∃ g, sentFrame t e 15 = some g ∧ g.payload.length = 8 ∧ g.src.toNat = laneId s) ∧ t.mem = s.mem) ∧
  (∀ (s : State) (e : Port) (err : Int) (n : Fin 4) (o : Bool),
    coreStopped s = false →
    portUp s e = true →
    slateLeader s = false →
    err = slateError e n.val s →
    ∃ t, exec (.slateReceived e n o) s = .next t ∧ t.getS (F.EBP_SLATE_ERR e) = clipSigned 8 err ∧ t.ebp[e.val].err = some err ∧
      t.ebp[e.val].good = (if err.natAbs ≤ 5 then s.ebp[e.val].good + 1 else 0) ∧
      t.on (F.EBP_STAT_SLATELOCK e) = (s.on (F.EBP_STAT_SLATELOCK e) || decide (16 ≤ t.ebp[e.val].good)) ∧ t.mem = s.mem) ∧
  (∀ (s : State) (e : Port) (n : Fin 4) (o : Bool),
    coreStopped s = false →
    slateLeader s = true →
    exec (.slateReceived e n o) s = .next s) ∧
  (∀ (s : State),
    coreStopped s = true →
    (∀ (x0 : Port) (x1 : Bool) (x2 : Nat) (x3 : Nat) (x4 : Lane), exec (.linkTrainingDone x0 x1 x2 x3 x4) s = .next s) ∧
      (∀ (x0 : Port), exec (.linkLost x0) s = .next s) ∧
      (∀ (x0 : Port), exec (.linkRetrain x0) s = .next s) ∧
      (∀ (x0 : Port), exec (.retrainRequest x0) s = .next s) ∧
      (∀ (x0 : Port) (x1 : EbpFrame), exec (.trainReceived x0 x1) s = .next s) ∧
      (∀ (x0 : Port) (x1 : Fin 4) (x2 : Bool), exec (.slateReceived x0 x1 x2) s = .next s) ∧
      (∀ (x0 : Port), exec (.codeViolation x0) s = .next s))

/-- A frame with a wrong CRC is discarded and counted, one of another length, of no lane, of another set or of this lane itself does nothing, but that a FORM so discarded may show a set-membership fault (log entry 39). One whose sequence number was seen before counts as received from its lane and port and does nothing else. A NOTICE is held for the transfer tick, and a wrong triple makes the lane withdraw with SHAREFLT; a CLAIM makes its sender the lead and puts its triple in force where this lane's own share stays or it enters (log entry 38), or by lane ID ends this lane's lead; exchange frames reach the engine of the port; SETOPs wait in order and are then put in force; BEAT, CONT, SHARE and FORM do what their payloads say. While the PLL-clocked blocks stand (RESET_N low, SLEEP or deeper, no always-on supply, held by a sentinel trip) the commands of those blocks change nothing (R546, R583, R604). -/
def Obligations.FramesReceived : Prop :=
  (∀ (s : State) (e : Port) (f : EbpFrame) (c : Instr) (ty : Nat),
    ((c, ty) = (.noticeReceived e f, 1) ∨ (c, ty) = (.claimReceived e f, 2) ∨ (c, ty) = (.xcurReceived e f, 3) ∨ (c, ty) = (.xrefReceived e f, 4) ∨ (c, ty) = (.setopReceived e f, 5) ∨
      (c, ty) = (.beatReceived e f, 6) ∨ (c, ty) = (.contFrameReceived e f, 7) ∨ (c, ty) = (.shareReceived e f, 8) ∨ (c, ty) = (.formReceived e f, 9) ∨ (c, ty) = (.trainReceived e f, 15)) →
    (coreStopped s = false ∧ portInUse s e = true) →
    f.crc ≠ frameCrc ty f →
    exec c s = .next (s.countBit (F.EBP_CNT_CRCERR e) (F.EBP_CNT_OVF e) 0)) ∧
  (∀ (s : State) (e : Port) (f : EbpFrame) (c : Instr) (ty : Nat),
    ((c, ty) = (.noticeReceived e f, 1) ∨ (c, ty) = (.claimReceived e f, 2) ∨ (c, ty) = (.xcurReceived e f, 3) ∨ (c, ty) = (.xrefReceived e f, 4) ∨ (c, ty) = (.setopReceived e f, 5) ∨
      (c, ty) = (.beatReceived e f, 6) ∨ (c, ty) = (.contFrameReceived e f, 7) ∨ (c, ty) = (.shareReceived e f, 8) ∨ (c, ty) = (.trainReceived e f, 15)) →
    f.crc = frameCrc ty f →
    (f.src.toNat = 3 ∨ 4 * f.len.toNat ≠ f.payload.length ∨ f.setId.toNat ≠ setId s ∨ f.src.toNat = laneId s) →
    exec c s = .next s) ∧
  (∀ (s : State) (e : Port) (f : EbpFrame) (c : Instr) (ty len : Nat) (l : Lane),
    ((c, ty, len) = (.noticeReceived e f, 1, 12) ∨ (c, ty, len) = (.claimReceived e f, 2, 8) ∨ (c, ty, len) = (.xcurReceived e f, 3, 12) ∨ (c, ty, len) = (.xrefReceived e f, 4, 8) ∨
      (c, ty, len) = (.setopReceived e f, 5, 16) ∨ (c, ty, len) = (.contFrameReceived e f, 7, 32 + 4 * s.get F.CONT_CFCFG_NST) ∨ (c, ty, len) = (.shareReceived e f, 8, 12) ∨
      (c, ty, len) = (.formReceived e f, 9, 12) ∨ (c, ty, len) = (.trainReceived e f, 15, 8)) →
    (coreStopped s = false ∧ portInUse s e = true) →
    (f.crc = frameCrc ty f ∧ f.payload.length = len ∧ 4 * f.len.toNat = len ∧ f.setId.toNat = setId s) →
    (laneOf f.src.toNat = some l ∧ l.val ≠ laneId s) →
    (f.seq.toNat ∈ Tab.get (fun _ => []) s.lines.seen (4 * ty + l.val)) →
    exec c s = .next ((s.inc (F.EBP_FRAMES_RXOK e)).modPeer l (fun p => { p with frame := some s.tick }))) ∧
  (∀ (s : State) (e : Port) (f : EbpFrame) (l : Lane),
    coreStopped s = false →
    (portInUse s e = true ∧ s.on (F.EBP_STAT_LOST e) = false) →
    (f.crc = frameCrc 6 f ∧ f.payload.length = 20 ∧ f.len.toNat = 5 ∧ f.setId.toNat = setId s) →
    (laneOf f.src.toNat = some l ∧ l.val ≠ laneId s) →
    (f.seq.toNat ∈ Tab.get (fun _ => []) s.lines.seen (24 + l.val)) →
    exec (.beatReceived e f) s = .next (((s.inc (F.EBP_FRAMES_RXOK e)).modPeer l (fun p => { p with frame := some s.tick })).modEbp e
      (fun x => { x with beats := x.beats + 1 }))) ∧
  (∀ (s : State) (e : Port) (f : EbpFrame),
    coreStopped s = false →
    f.crc = frameCrc 9 f →
    (f.src.toNat = 3 ∨ 4 * f.len.toNat ≠ f.payload.length ∨ f.setId.toNat ≠ setId s ∨ f.src.toNat = laneId s) →
    ∃ t, exec (.formReceived e f) s = .next t ∧ t = { s with cont := { s.cont with membership := t.cont.membership } }) ∧
  (∀ (s : State) (e : Port) (f : EbpFrame) (l : Lane),
    coreStopped s = false →
    freshFrame e 1 12 f l s →
    (bytesAt f.payload 0 1 < 3 ∧ bytesAt f.payload 0 1 ≠ laneId s ∧ bytesAt f.payload 1 1 ≠ 2) →
    s.cont.transfers = [] →
    (s.get F.CONT_STAT_ROLE = 0 ∨ Shares.unpack (bytesAt f.payload 4 4) = sharesAfter s (bytesAt f.payload 0 1)) →
    ∃ t, exec (.noticeReceived e f) s = .next t ∧ t.get F.CONT_STAT_ROLE = s.get F.CONT_STAT_ROLE ∧ sharesOf t = sharesOf s ∧
      t.on F.CONT_STAT_SHAREFLT = s.on F.CONT_STAT_SHAREFLT ∧ t.cont.transfers =
      [⟨bytesAt f.payload 0 1, bytesAt f.payload 1 1, Shares.unpack (bytesAt f.payload 4 4), bytesAt f.payload 8 1, transferLeft s (bytesAt f.payload 2 2)⟩]) ∧
  (∀ (s : State) (e : Port) (f : EbpFrame) (l : Lane),
    coreStopped s = false →
    freshFrame e 1 12 f l s →
    (bytesAt f.payload 0 1 < 3 ∧ bytesAt f.payload 0 1 ≠ laneId s ∧ bytesAt f.payload 1 1 ≠ 2) →
    s.cont.transfers = [] →
    (s.get F.CONT_STAT_ROLE ≠ 0 ∧ s.cont.withdrawing = false) →
    Shares.unpack (bytesAt f.payload 4 4) ≠ sharesAfter s (bytesAt f.payload 0 1) →
    ∃ t, exec (.noticeReceived e f) s = .next t ∧ t.on F.CONT_STAT_SHAREFLT = true ∧ t.cont.withdrawing = true ∧ t.cont.leadOut = false) ∧
  (∀ (s : State) (e : Port) (f : EbpFrame) (l : Lane),
    coreStopped s = false →
    freshFrame e 2 8 f l s →
    s.get F.CONT_STAT_ROLE ≠ 2 →
    (Shares.unpack (bytesAt f.payload 4 4)).sum = 1000 →
    tripleTaken s (Shares.unpack (bytesAt f.payload 4 4)) = true →
    ∃ t, exec (.claimReceived e f) s = .next t ∧ t.get (F.CONT_PEER_ROLE l.val) = 2 ∧ t.on (F.CONT_PEER_LOST l.val) = false ∧
      sharesOf t = Shares.unpack (bytesAt f.payload 4 4) ∧ t.cont.claimed = some s.tick ∧ t.cont.claimWait = false ∧ t.get F.CONT_STAT_ROLE ≠ 2) ∧
  (∀ (s : State) (e : Port) (f : EbpFrame) (l : Lane),
    coreStopped s = false →
    freshFrame e 2 8 f l s →
    s.get F.CONT_STAT_ROLE = 2 →
    ∃ t, exec (.claimReceived e f) s = .next t ∧ t.on F.CONT_STAT_TWOLEAD = true ∧
      (l.val < laneId s → t.get F.CONT_STAT_ROLE = 0 ∧ (sharesOf t).of (laneId s) = 0 ∧ t.cont.leadOut = false) ∧
      (laneId s < l.val → t.get F.CONT_STAT_ROLE = 2 ∧ sharesOf t = sharesOf s)) ∧
  (∀ (s : State) (e : Port) (f : EbpFrame) (l : Lane) (k : Eng),
    coreStopped s = false →
    freshFrame e 3 12 f l s →
    exchangeEngine s e = some k →
    ∃ t, exec (.xcurReceived e f) s = .next t ∧ t.on (F.EBP_STAT_XDROP e) = s.on (F.EBP_STAT_XDROP e) ∧
      ∀ i < 3, dataWord t k (s.get (F.EBP_XRX_ADDR e) + i) = BitVec.ofNat 20 (bytesAt f.payload (4 * i) 4)) ∧
  (∀ (s : State) (e : Port) (f : EbpFrame) (l : Lane) (k : Eng),
    coreStopped s = false →
    freshFrame e 4 8 f l s →
    exchangeEngine s e = some k →
    ∃ t, exec (.xrefReceived e f) s = .next t ∧ t.cont.xrefHere = true ∧
      ∀ i < 2, dataWord t k (s.get (F.EBP_XRX_ADDR e) + 3 + i) = BitVec.ofNat 20 (bytesAt f.payload (4 * i) 4)) ∧
  (∀ (s : State) (e : Port) (f : EbpFrame) (l : Lane),
    coreStopped s = false →
    freshFrame e 3 12 f l s →
    exchangeEngine s e = none →
    ∃ t, exec (.xcurReceived e f) s = .next t ∧ t.on (F.EBP_STAT_XDROP e) = true ∧ t.mem = s.mem ∧ t.eng = s.eng) ∧
  (∀ (s : State) (e : Port) (f : EbpFrame) (l : Lane),
    coreStopped s = false →
    freshFrame e 5 16 f l s →
    ∃ t, exec (.setopReceived e f) s = .next t ∧ t.cont.setOps = putOperation ⟨bytesAt f.payload 0 2, (f.payload.drop 4).take 12, originTick s (bytesAt f.payload 2 2) + 1600⟩ s.cont.setOps ∧
      t.cont.lastSetOp = s.cont.lastSetOp ∧ t.mem = s.mem) ∧
  (∀ (s : State) (o : SetOp) (q : List SetOp),
    coreStopped s = false →
    s.cont.setOps = o :: q →
    ∃ t, exec .setopApply s = .next t ∧ t.cont = { s.cont with setOps := q, lastSetOp := some o } ∧ { t with cont := s.cont } = s) ∧
  (∀ (s : State) (e : Port) (f : EbpFrame) (l : Lane),
    coreStopped s = false →
    freshFrame e 6 20 f l s →
    ∃ t, exec (.beatReceived e f) s = .next t ∧ t.get (F.CONT_PEER_ROLE l.val) = bytesAt f.payload 10 1 % 4 ∧
      t.peers[l.val].ready = bitAt (bytesAt f.payload 10 1) 2 ∧ t.peers[l.val].qual = bitAt (bytesAt f.payload 10 1) 4 ∧
      t.peers[l.val].cyc = bytesAt f.payload 12 2 ∧ t.peers[l.val].down = BitVec.ofNat 20 (bytesAt f.payload 16 4) ∧
      t.peers[l.val].frame = some s.tick ∧ (bytesAt f.payload 10 1 % 4 ≠ 0 → t.on (F.CONT_PEER_LOST l.val) = false)) ∧
  (∀ (s : State) (e : Port) (f : EbpFrame) (l : Lane),
    coreStopped s = false →
    freshFrame e 7 (32 + 4 * s.get F.CONT_CFCFG_NST) f l s →
    (s.get F.CONT_STAT_ROLE = 1 ∧ s.on F.CONT_STAT_QUAL = true ∧ roleSeen s l.val = 2) →
    (bytesAt f.payload 0 2 = s.get F.CONT_CYC_CYC → ∃ t, exec (.contFrameReceived e f) s = .next t ∧ t.cont.frame = some { payload := f.payload } ∧
      t.cont.frameCyc = true ∧ t.cont.misses = 0 ∧ t.get (F.CONT_CFRX_WORD 0) = bytesAt f.payload 0 4) ∧
      (bytesAt f.payload 0 2 ≠ s.get F.CONT_CYC_CYC → ∃ t, exec (.contFrameReceived e f) s = .next t ∧ t.cont.frame = s.cont.frame ∧
      (s.get F.CONT_CNT_CFMISS < 255 → t.get F.CONT_CNT_CFMISS = s.get F.CONT_CNT_CFMISS + 1) ∧ t.cont.misRun = s.cont.misRun)) ∧
  (∀ (s : State) (e : Port) (f : EbpFrame) (l : Lane),
    coreStopped s = false →
    freshFrame e 8 12 f l s →
    (s.get F.CONT_STAT_ROLE = 1 ∧ bytesAt f.payload 0 1 = 1) →
    ∃ t, exec (.shareReceived e f) s = .next t ∧ sharesOf t = sharesOf s ∧ t.get F.CONT_STAT_ROLE = 1 ∧
      ((Shares.unpack (bytesAt f.payload 4 4)).sum = 1000 ∧ mayTakePart s = true ∧ s.cont.transfers = [] →
      t.cont.accepted = some ⟨Shares.unpack (bytesAt f.payload 4 4), bytesAt f.payload 8 2⟩) ∧
      ((Shares.unpack (bytesAt f.payload 4 4)).sum ≠ 1000 → t.cont.accepted = s.cont.accepted)) ∧
  (∀ (s : State) (e : Port) (f : EbpFrame) (l : Lane),
    coreStopped s = false →
    freshFrame e 8 12 f l s →
    (s.get F.CONT_STAT_ROLE = 2 ∧ bytesAt f.payload 0 1 = 3) →
    s.cont.proposal = some ⟨Shares.unpack (bytesAt f.payload 4 4), bytesAt f.payload 8 2⟩ →
    ∃ t, exec (.shareReceived e f) s = .next t ∧ sharesOf t = sharesOf s ∧ t.cont.proposal = none ∧ t.on F.CONT_SB_REFUSED = true ∧
      t.on F.CONT_SB_BUSY = false ∧ t.on F.CONT_SB_GO = false) ∧
  (∀ (s : State) (e : Port) (f : EbpFrame) (l : Lane),
    coreStopped s = false →
    freshFrame e 9 12 f l s →
    topology s ≠ 2 →
    ∃ t, exec (.formReceived e f) s = .next t ∧ t.peers[l.val].strap = some (BitVec.ofNat 16 (bytesAt f.payload 0 2)) ∧
      (bytesAt f.payload 0 2 / 256 % 8 = setId s ∧ bytesAt f.payload 0 2 / 4 % 4 = topology s ∧ bytesAt f.payload 0 2 % 4 ≠ laneId s →
      t.cont.membership = s.cont.membership) ∧
      (bytesAt f.payload 0 2 / 256 % 8 ≠ setId s ∨ bytesAt f.payload 0 2 / 4 % 4 ≠ topology s ∨ bytesAt f.payload 0 2 % 4 = laneId s → t.cont.membership.getLsbD l.val = true)) ∧
  (∀ (s : State),
    coreStopped s = true →
    (∀ (x0 : Port) (x1 : EbpFrame), exec (.noticeReceived x0 x1) s = .next s) ∧
      (∀ (x0 : Port) (x1 : EbpFrame), exec (.claimReceived x0 x1) s = .next s) ∧
      (∀ (x0 : Port) (x1 : EbpFrame), exec (.xcurReceived x0 x1) s = .next s) ∧
      (∀ (x0 : Port) (x1 : EbpFrame), exec (.xrefReceived x0 x1) s = .next s) ∧
      (∀ (x0 : Port) (x1 : EbpFrame), exec (.setopReceived x0 x1) s = .next s) ∧
      exec .setopApply s = .next s ∧
      (∀ (x0 : Port) (x1 : EbpFrame), exec (.beatReceived x0 x1) s = .next s) ∧
      (∀ (x0 : Port) (x1 : EbpFrame), exec (.contFrameReceived x0 x1) s = .next s) ∧
      (∀ (x0 : Port) (x1 : EbpFrame), exec (.shareReceived x0 x1) s = .next s) ∧
      (∀ (x0 : Port) (x1 : EbpFrame), exec (.formReceived x0 x1) s = .next s))

/-- BEAT goes out on every port that is up and changes nothing of the lane; the lead alone sends CONT in its slot, with CYC, D, the shares and SPSEQ. At the end of the formation window a drive-ready lane that saw no lead and no lower lane claims. An edge of LEADIN shows its level and, within 1.5 inner periods of the one before, a beat; a beat that stops is no longer shown and, of a lead whose frames go on, sets BEATFLT. The continuity check counts a cycle without a frame, and the second one of a lead that is silent on line and frames declares it lost by a NOTICE of kind 3; a qualified stand-in whose wait for a CLAIM ends claims. WDREQ withdraws by a NOTICE and keeps role and shares until its transfer; a swap is taken by the lead alone, for the second cycle from now; switch-back and handover are refused, done or begun, how a step is divided and when one is refused being log entry 42. The lane status carries its bytes with their CRC; a good one shows HEARD and, of a peer without a link, its role; a peer from which no status comes while EDEG holds (log entry 40) is declared lost by a NOTICE of kind 4. Two missed XREFs end a six-phase law. A chassis broadcast is taken once; the lead confirms it and holds its operation, an open function of its bytes (log entry 29). While the PLL-clocked blocks stand (RESET_N low, SLEEP or deeper, no always-on supply, held by a sentinel trip) the commands of those blocks change nothing (R546, R583, R604). Complete, that is exec answers a next state, with the queue as it was, from every state and with every operand: BEAT_SEND, CONTINUITY_SLOT, FORMATION_WINDOW_END, LEADIN_EDGE, BEAT_STOP_TIMEOUT, CONTINUITY_CHECK, CLAIM_WAIT_TIMEOUT, WITHDRAW_REQUEST, SWAP_REQUEST, SWITCHBACK_GO, PLANNED_HANDOVER, LANE_STATUS_SEND, LANE_STATUS_RECEIVED, LANE_STATUS_TIMEOUT, XREF_DEADLINE, CHASSIS_BROADCAST_RECEIVED. -/
def Obligations.BeatsSlotsAndRequests : Prop :=
  (∀ (s : State),
    coreStopped s = false →
    ∃ t, exec .beatSend s = .next t ∧ t.get F.CONT_STAT_ROLE = s.get F.CONT_STAT_ROLE ∧ t.cont = s.cont ∧ t.mem = s.mem ∧
      ∀ e : Port, portUp s e = true → ∃ f, sentFrame t e 6 = some f ∧ f.payload = beatPayload s ∧ f.payload.length = 20 ∧ f.src.toNat = laneId s) ∧
  (∀ (s : State),
    coreStopped s = false →
    s.get F.CONT_STAT_ROLE ≠ 2 →
    exec .continuitySlot s = .next s) ∧
  (∀ (s : State) (e : Port),
    coreStopped s = false →
    s.get F.CONT_STAT_ROLE = 2 →
    (portUp s e = true ∧ coreStopped s = false) →
    outerRuns s = false →
    ∃ t f, exec .continuitySlot s = .next t ∧ sentFrame t e 7 = some f ∧ f.payload.length = 32 + 4 * s.get F.CONT_CFCFG_NST ∧
      (⟨f.payload⟩ : ContFrame).cyc = s.get F.CONT_CYC_CYC ∧ (⟨f.payload⟩ : ContFrame).d = s.get F.CONT_D_D ∧
      (⟨f.payload⟩ : ContFrame).shares = sharesOf s ∧ (⟨f.payload⟩ : ContFrame).spseq = s.get F.CONT_SPSEQ_SPSEQ ∧ t.mem = s.mem) ∧
  (∀ (s : State),
    coreStopped s = false →
    s.on F.CONT_STAT_FORMING = true →
    ∃ t, exec .formationWindowEnd s = .next t ∧ t.on F.CONT_STAT_FORMING = false ∧
      (s.get F.CONT_STAT_ROLE = 0 → s.cont.ready = true → s.cont.beatMoved = false → s.cont.leadSeen = false → s.cont.announced = 0 →
      mayClaim s 3 = true → t.get F.CONT_STAT_ROLE = 2) ∧ (s.cont.leadSeen = true → t.get F.CONT_STAT_ROLE = s.get F.CONT_STAT_ROLE)) ∧
  (∀ (s : State) (i : Fin 2) (v : Bool) (l : Lane),
    coreStopped s = false →
    leadinLane s i = some l →
    ∃ t, exec (.leadinEdge i v) s = .next t ∧ t.on (F.CONT_PEER_LEVEL l.val) = v ∧ t.peers[l.val].edge = some s.tick ∧
      ((∃ k, s.peers[l.val].edge = some k ∧ 2 * (s.tick - k) ≤ 3 * innerPeriod s) → t.on (F.CONT_PEER_BEAT l.val) = true) ∧
      (s.peers[l.val].edge = none → t.on (F.CONT_PEER_BEAT l.val) = s.on (F.CONT_PEER_BEAT l.val) ∧ t.get F.CONT_STAT_ROLE = s.get F.CONT_STAT_ROLE)) ∧
  (∀ (s : State) (i : Fin 2) (l : Lane),
    coreStopped s = false →
    leadinLane s i = some l →
    ∃ t, exec (.beatStopTimeout i) s = .next t ∧ t.on (F.CONT_PEER_BEAT l.val) = false ∧
      (s.on (F.CONT_PEER_BEAT l.val) = true → roleSeen s l.val = 2 → framesGone s l = false → t.on F.CONT_STAT_BEATFLT = true)) ∧
  (∀ (s : State),
    coreStopped s = false →
    (s.get F.CONT_STAT_ROLE = 2 ∨ judgesPeers s = false) →
    exec .continuityCheck s = .next s) ∧
  (∀ (s : State),
    coreStopped s = false →
    s.get F.CONT_STAT_ROLE = 1 →
    (s.cont.frameCyc = true → ∃ t, exec .continuityCheck s = .next t ∧ t.cont = { s.cont with misses := 0 } ∧ t.regs = s.regs) ∧
      (s.cont.frameCyc = false → ∃ t, exec .continuityCheck s = .next t ∧ t.cont.misses = s.cont.misses + 1 ∧ t.cont.qualRun = 0 ∧
      (s.get F.CONT_CNT_CFMISS < 255 → t.get F.CONT_CNT_CFMISS = s.get F.CONT_CNT_CFMISS + 1))) ∧
  (∀ (s : State) (l : Lane),
    coreStopped s = false →
    (s.get F.CONT_STAT_ROLE = 1 ∧ s.cont.frameCyc = false ∧ 1 ≤ s.cont.misses ∧ s.cont.transfers = []) →
    ((peersOf s).find? (fun l => roleSeen s l.val == 2) = some l) →
    s.on (F.CONT_PEER_BEAT l.val) = false →
    within2Ti s s.peers[l.val].edge s.peers[l.val].frame = true →
    ∃ t r, exec .continuityCheck s = .next t ∧ t.on (F.CONT_PEER_LOST l.val) = true ∧ t.cont.transfers = [r] ∧ r.subj = l.val ∧ r.kind = 3 ∧
      r.shares = sharesAfter s l.val) ∧
  (∀ (s : State),
    coreStopped s = false →
    ∃ t, exec .claimWaitTimeout s = .next t ∧ t.cont.claimWait = false ∧ (s.cont.claimWait = false → t.regs = s.regs) ∧
      (s.cont.claimWait = true → s.on F.CONT_STAT_QUAL = true → s.get F.CONT_STAT_ROLE = 1 → mayClaim s 3 = true → laneId s = 0 →
      t.get F.CONT_STAT_ROLE = 2)) ∧
  (∀ (s : State),
    coreStopped s = false →
    (s.get F.CONT_STAT_ROLE ≠ 0 ∧ s.cont.withdrawing = false) →
    ∃ t r, exec .withdrawRequest s = .next t ∧ t.on F.CONT_CTRL_WDREQ = true ∧ t.cont.withdrawing = true ∧ t.cont.leadOut = false ∧
      t.cont.transfers = s.cont.transfers ++ [r] ∧ r.subj = laneId s ∧ r.kind = 1 ∧ t.get F.CONT_STAT_ROLE = s.get F.CONT_STAT_ROLE ∧ sharesOf t = sharesOf s) ∧
  (∀ (s : State) (k : Bool),
    coreStopped s = false →
    s.get F.CONT_STAT_ROLE = 2 →
    s.on F.CONT_SWAP_PEND = false →
    ∃ t, exec (.swapRequest k) s = .next t ∧ t.on F.CONT_SWAP_PEND = true ∧ t.on F.CONT_SWAP_REQ = false ∧
      t.get F.CONT_SWAP_CYC = (s.get F.CONT_CYC_CYC + 2) % 65536 ∧ t.cont.swap = some ⟨k, (s.get F.CONT_CYC_CYC + 2) % 65536⟩ ∧ t.mem = s.mem) ∧
  (∀ (s : State) (k : Bool),
    coreStopped s = false →
    s.get F.CONT_STAT_ROLE ≠ 2 →
    ∃ t, exec (.swapRequest k) s = .next t ∧ t.on F.CONT_SWAP_REQ = false ∧ t.on F.CONT_SWAP_PEND = s.on F.CONT_SWAP_PEND ∧ t.cont = s.cont) ∧
  (∀ (s : State),
    coreStopped s = false →
    (switchRefused s (lanesLeft s (laneId s)) = true → ∃ t, exec .switchbackGo s = .next t ∧ t.on F.CONT_SB_REFUSED = true ∧ t.on F.CONT_SB_GO = false ∧ t.cont = s.cont) ∧
      (switchRefused s (lanesLeft s (laneId s)) = false → sharesOf s = sharesTarget s → ∃ t, exec .switchbackGo s = .next t ∧
      t.on F.CONT_SB_DONE = true ∧ t.on F.CONT_SB_BUSY = false ∧ t.cont = s.cont) ∧
      (switchRefused s (lanesLeft s (laneId s)) = false → sharesOf s ≠ sharesTarget s → ∃ t c, exec .switchbackGo s = .next t ∧
      t.on F.CONT_SB_BUSY = true ∧ t.on F.CONT_SB_GO = true ∧ t.cont.proposal = some c ∧ c.cyc = s.get F.CONT_CYC_CYC ∧ sharesOf t = sharesOf s)) ∧
  (∀ (s : State),
    coreStopped s = false →
    (switchRefused s [s.get F.CONT_SB_LANE] = true → ∃ t, exec .plannedHandover s = .next t ∧ t.on F.CONT_SB_REFUSED = true ∧ t.on F.CONT_SB_HAND = false ∧ t.cont = s.cont) ∧
      (switchRefused s [s.get F.CONT_SB_LANE] = false → s.get F.CONT_SB_LANE ≠ laneId s → ∃ t, exec .plannedHandover s = .next t ∧
      t.on F.CONT_SB_HAND = true ∧ t.on F.CONT_SB_BUSY = true ∧ t.cont.transfers = s.cont.transfers ++ [⟨laneId s, 2, sharesOf s, s.get F.CONT_SB_LANE, transferAfter s (frameOfs s 1)⟩] ∧
      sharesOf t = sharesOf s)) ∧
  (∀ (s : State),
    coreStopped s = false →
    ∃ t, exec .laneStatusSend s = .next t ∧ t.cont.lsOut.length = 16 ∧ bytesAt t.cont.lsOut 14 2 = crc16 (t.cont.lsOut.take 14) ∧
      t.cont.lsCount = (s.cont.lsCount + 1) % 65536 ∧ t.cont.lsOut.take 14 = laneStatusBytes s) ∧
  (∀ (s : State) (n : Fin 2) (l : Lane) (p : List Byte),
    coreStopped s = false →
    (p.length = 16 ∧ bytesAt p 14 2 = crc16 (p.take 14) ∧ l.val ≠ laneId s) →
    bytesAt p 0 1 % 4 = 1 →
    ∃ t, exec (.laneStatusReceived n l p) s = .next t ∧ t.on (F.CONT_PEER_HEARD l.val) = true ∧
      (peerLinked s l = false → t.get (F.CONT_PEER_ROLE l.val) = 1) ∧
      (peerLinked s l = true → t.get (F.CONT_PEER_ROLE l.val) = s.get (F.CONT_PEER_ROLE l.val)) ∧
      (if n = 0 then t.peers[l.val].ls0 else t.peers[l.val].ls1) = some s.tick) ∧
  (∀ (s : State) (n : Fin 2) (l : Lane) (p : List Byte),
    coreStopped s = false →
    (p.length ≠ 16 ∨ bytesAt p 14 2 ≠ crc16 (p.take 14) ∨ l.val = laneId s) →
    exec (.laneStatusReceived n l p) s = .next s) ∧
  (∀ (s : State) (l : Lane),
    coreStopped s = false →
    ∃ t, exec (.laneStatusTimeout l) s = .next t ∧ t.on (F.CONT_PEER_HEARD l.val) = false ∧
      (s.cont.edeg.getLsbD l.val = true → s.get F.CONT_STAT_ROLE ≠ 0 → roleSeen s l.val ≠ 0 → s.cont.transfers = [] →
      t.on (F.CONT_PEER_LOST l.val) = true ∧ ∃ r, t.cont.transfers = [r] ∧ r.subj = l.val ∧ r.kind = 4)) ∧
  (∀ (s : State),
    coreStopped s = false →
    s.on F.CONT_STAT_JOINED = true →
    (s.cont.xrefHere = true → ∃ t, exec .xrefDeadline s = .next t ∧ t.on F.CONT_STAT_JOINED = true ∧ t.cont.xrefMiss = 0) ∧
      (s.cont.xrefHere = false → s.cont.xrefMiss = 0 → ∃ t, exec .xrefDeadline s = .next t ∧ t.on F.CONT_STAT_JOINED = true ∧ t.cont.xrefMiss = 1) ∧
      (s.cont.xrefHere = false → 1 ≤ s.cont.xrefMiss → ∃ t, exec .xrefDeadline s = .next t ∧ t.on F.CONT_STAT_JOINED = false ∧ t.cont.xrefMiss = 0 ∧
      ∀ e, boundEngine s (mainBridge s) = some e → t.memWord (dataAddr e (s.get F.CONT_JOIN_JMODE)) = 1)) ∧
  (∀ (s : State) (n : Fin 2) (d : List Byte),
    coreStopped s = false →
    (s.get F.CONT_STAT_ROLE ≠ 2 ∨ secondCopy n d s = true → exec (.chassisBroadcastReceived n d) s =
      .next (s.modCont (fun c => { c with broadcast := if secondCopy n d s then none else some (n, d) }))) ∧
      (s.get F.CONT_STAT_ROLE = 2 → secondCopy n d s = false → ∃ t o, exec (.chassisBroadcastReceived n d) s = .next t ∧
      t.cont.confirms = s.cont.confirms + 1 ∧ t.cont.broadcast = some (n, d) ∧ t.cont.setOps = putOperation o s.cont.setOps ∧
      o.code = (Config.chassisOperation d).toNat % 65536 ∧ o.operands = leBytes 12 ((Config.chassisOperation d).toNat / 65536))) ∧
  (∀ (s : State),
    coreStopped s = true →
    exec .beatSend s = .next s ∧
      exec .continuitySlot s = .next s ∧
      exec .formationWindowEnd s = .next s ∧
      (∀ (x0 : Fin 2) (x1 : Bool), exec (.leadinEdge x0 x1) s = .next s) ∧
      (∀ (x0 : Fin 2), exec (.beatStopTimeout x0) s = .next s) ∧
      exec .continuityCheck s = .next s ∧
      exec .claimWaitTimeout s = .next s ∧
      exec .withdrawRequest s = .next s ∧
      (∀ (x0 : Bool), exec (.swapRequest x0) s = .next s) ∧
      exec .switchbackGo s = .next s ∧
      exec .plannedHandover s = .next s ∧
      exec .laneStatusSend s = .next s ∧
      (∀ (x0 : Fin 2) (x1 : Lane) (x2 : List Byte), exec (.laneStatusReceived x0 x1 x2) s = .next s) ∧
      (∀ (x0 : Lane), exec (.laneStatusTimeout x0) s = .next s) ∧
      exec .xrefDeadline s = .next s ∧
      (∀ (x0 : Fin 2) (x1 : List Byte), exec (.chassisBroadcastReceived x0 x1) s = .next s)) ∧
  ((∀ (s : State), ∃ t, exec .beatSend s = .next t ∧ t.pending = s.pending) ∧
      (∀ (s : State), ∃ t, exec .continuitySlot s = .next t ∧ t.pending = s.pending) ∧
      (∀ (s : State), ∃ t, exec .formationWindowEnd s = .next t ∧ t.pending = s.pending) ∧
      (∀ (s : State) (x0 : Fin 2) (x1 : Bool), ∃ t, exec (.leadinEdge x0 x1) s = .next t ∧ t.pending = s.pending) ∧
      (∀ (s : State) (x0 : Fin 2), ∃ t, exec (.beatStopTimeout x0) s = .next t ∧ t.pending = s.pending) ∧
      (∀ (s : State), ∃ t, exec .continuityCheck s = .next t ∧ t.pending = s.pending) ∧
      (∀ (s : State), ∃ t, exec .claimWaitTimeout s = .next t ∧ t.pending = s.pending) ∧
      (∀ (s : State), ∃ t, exec .withdrawRequest s = .next t ∧ t.pending = s.pending) ∧
      (∀ (s : State) (x0 : Bool), ∃ t, exec (.swapRequest x0) s = .next t ∧ t.pending = s.pending) ∧
      (∀ (s : State), ∃ t, exec .switchbackGo s = .next t ∧ t.pending = s.pending) ∧
      (∀ (s : State), ∃ t, exec .plannedHandover s = .next t ∧ t.pending = s.pending) ∧
      (∀ (s : State), ∃ t, exec .laneStatusSend s = .next t ∧ t.pending = s.pending) ∧
      (∀ (s : State) (x0 : Fin 2) (x1 : Lane) (x2 : List Byte), ∃ t, exec (.laneStatusReceived x0 x1 x2) s = .next t ∧ t.pending = s.pending) ∧
      (∀ (s : State) (x0 : Lane), ∃ t, exec (.laneStatusTimeout x0) s = .next t ∧ t.pending = s.pending) ∧
      (∀ (s : State), ∃ t, exec .xrefDeadline s = .next t ∧ t.pending = s.pending) ∧
      (∀ (s : State) (x0 : Fin 2) (x1 : List Byte), ∃ t, exec (.chassisBroadcastReceived x0 x1) s = .next t ∧ t.pending = s.pending))

/-- A cause that sets a clear cut latch: CUT is 1 and the cause is recorded beside those recorded before, every isolation switch is commanded open, both MC blocks are in OUT, CONT is signalled and V is interrupted; a cause while the latch is set is only recorded. -/
def Obligations.CutLatchSet : Prop :=
  (∀ (s : State) (c : Nat),
    c < 10 →
    s.on F.SAFE_STAT_CUT = false →
    (setCut c s).on F.SAFE_STAT_CUT = true ∧ (setCut c s).bit F.SAFE_CAUSE_CAUSE c = true ∧
      (∀ j, j < 10 → j ≠ c → (setCut c s).bit F.SAFE_CAUSE_CAUSE j = s.bit F.SAFE_CAUSE_CAUSE j) ∧
      (∀ b : Bridge, isoClosed (setCut c s) b = false ∧ (setCut c s).get (closeFld b) = 0 ∧ mcMode (setCut c s) b = modeOut) ∧
      (setCut c s).cont.cutSignal = true ∧ Irq.cutLatch ∈ (setCut c s).irqs) ∧
  (∀ (s : State) (c : Nat),
    c < 10 →
    (c ≠ causeLockstep ∧ c ≠ causeNetstop) →
    s.on F.SAFE_STAT_CUT = true →
    setCut c s = s.putBit F.SAFE_CAUSE_CAUSE c true)

/-- A kick restarts the watchdog and does nothing else; SET with a legal VCAUSE, a qualified low STOP_N, a watchdog that runs out and a pending lockstep-fault or network-stop interrupt that V takes set the latch with their cause, the watchdog with the causes pending too; a high STOP_N ends the stop request; a cause bit clears when written 1 unless its condition persists. CutLatchSet says what setting does. Complete, that is exec answers a next state, with the queue as it was, from every state and with every operand: V_LOCKSTEP_REACTION, SUPERVISOR_KICK, SUPERVISOR_WATCHDOG_EXPIRY, CUT_SET_COMMAND, CAUSE_CLEAR, STOP_N_LOW_QUALIFIED, STOP_N_HIGH_QUALIFIED, V_NETSTOP_REACTION. -/
def Obligations.SupervisorAndCutCommands : Prop :=
  (∀ (s : State),
    issues s .v = true →
    ∃ t, exec .supervisorKick s = .next t ∧ t.safe = { s.safe with kickTick := s.tick } ∧ (∀ a, t.rd a = s.rd a) ∧
      { t with regs := s.regs, safe := s.safe } = s) ∧
  (∀ (s : State) (c : BitVec 4),
    issues s .v = true →
    (4 ≤ c.toNat ∧ c.toNat ≤ 9) →
    ∃ t, exec (.cutSetCommand c) s = .next (setCut c.toNat t) ∧ (∀ a, t.rd a = s.rd a) ∧ { t with regs := s.regs } = s) ∧
  (∀ (s : State),
    s.sys.dogHeld = false →
    s.on F.SAFE_STAT_NMILS = false →
    s.on F.SAFE_STAT_NMINS = false →
    exec .supervisorWatchdogExpiry s = .next (setCut causeVwdg s)) ∧
  (∀ (s : State),
    s.sys.dogHeld = false →
    s.on F.SAFE_STAT_NMILS = true →
    s.on F.SAFE_STAT_NMINS = true →
    exec .supervisorWatchdogExpiry s = .next (setCut causeNetstop (setCut causeLockstep (setCut causeVwdg s)))) ∧
  (∀ (s : State),
    (s.sys.vRuns = true ∧ coreStopped s = false) →
    s.on F.SAFE_STAT_NMILS = true →
    exec .vLockstepReaction s = .next (setCut causeLockstep s)) ∧
  (∀ (s : State),
    (s.sys.vRuns = true ∧ coreStopped s = false) →
    s.on F.SAFE_STAT_NMINS = true →
    exec .vNetstopReaction s = .next (setCut causeNetstop s)) ∧
  (∀ (s : State),
    exec .stopNLowQualified s = .next (setCut causeStopn (s.put F.SAFE_STAT_STOPN 1)) ∧
      exec .stopNHighQualified s = .next (s.put F.SAFE_STAT_STOPN 0)) ∧
  (∀ (s : State) (mask : BitVec 10),
    issues s .v = true →
    ∃ t, exec (.causeClear mask) s = .next t ∧ (∀ a, a ≠ 0x40014004 → t.rd a = s.rd a) ∧ { t with regs := s.regs } = s ∧
      ∀ j, j < 10 → t.bit F.SAFE_CAUSE_CAUSE j = (s.bit F.SAFE_CAUSE_CAUSE j && !(mask.toNat.testBit j &&
      !(j == causeClk && (!s.on F.SYS_CLKMON_LOCK || decide (min s.sys.okWindows s.sys.vsideOk < 10))) && !(j == causeStopn && s.on F.SAFE_STAT_STOPN)))) ∧
  ((∀ (s : State), ∃ t, exec .vLockstepReaction s = .next t ∧ t.pending = s.pending) ∧
      (∀ (s : State), ∃ t, exec .supervisorKick s = .next t ∧ t.pending = s.pending) ∧
      (∀ (s : State), ∃ t, exec .supervisorWatchdogExpiry s = .next t ∧ t.pending = s.pending) ∧
      (∀ (s : State) (x0 : BitVec 4), ∃ t, exec (.cutSetCommand x0) s = .next t ∧ t.pending = s.pending) ∧
      (∀ (s : State) (x0 : BitVec 10), ∃ t, exec (.causeClear x0) s = .next t ∧ t.pending = s.pending) ∧
      (∀ (s : State), ∃ t, exec .stopNLowQualified s = .next t ∧ t.pending = s.pending) ∧
      (∀ (s : State), ∃ t, exec .stopNHighQualified s = .next t ∧ t.pending = s.pending) ∧
      (∀ (s : State), ∃ t, exec .vNetstopReaction s = .next t ∧ t.pending = s.pending))

/-- With no cause left, the command path's CMDCLR and a resume pulse of 20 to 500 ms clear the latch and any outstanding ARM, and leave the isolation switches and the MC blocks as they are; a drive-ready solo lane then leads again (R44); with a cause left they set RESREF, as a pulse under 20 ms does. A resume jam sets RJAM, counts and ends the pulse; RJAM clears by its own command; an ARM whose window ends is no longer shown. Complete, that is exec answers a next state, with the queue as it was, from every state and with every operand: COMMAND_CLEAR, RESUME_PULSE, RESUME_JAM, RESUME_JAM_CLEAR, ARM_WINDOW_EXPIRY. -/
def Obligations.ClearingTheCutLatch : Prop :=
  (∀ (s : State),
    issues s .v = true →
    s.on F.SAFE_STAT_CUT = true →
    s.get F.SAFE_CAUSE_CAUSE = 0 →
    ∃ t, exec .commandClear s = .next t ∧ t.on F.SAFE_STAT_CUT = false ∧ t.on F.SAFE_STAT_ARMED = false ∧ t.safe.armed = none ∧
      (∀ b : Bridge, isoClosed t b = isoClosed s b ∧ mcMode t b = mcMode s b) ∧ t.mem = s.mem ∧
      (topology s ≠ 0 ∨ s.on F.KEEP_STAT_READY = false ∨ s.get F.CONT_STAT_ROLE ≠ 0 → ∀ a, a ≠ 0x40014000 → a ≠ 0x40014020 → t.rd a = s.rd a) ∧
      (topology s = 0 → s.on F.KEEP_STAT_READY = true → s.get F.CONT_STAT_ROLE = 0 → s.on F.CONT_CTRL_EN = true → mayTakePart s = true →
      s.cont.debugHalt = false → laneFault t = false → t.get F.CONT_STAT_ROLE = 2)) ∧
  (∀ (s : State),
    issues s .v = true →
    s.get F.SAFE_CAUSE_CAUSE ≠ 0 →
    ∃ t, exec .commandClear s = .next t ∧ t.on F.SAFE_STAT_RESREF = true ∧ t.on F.SAFE_STAT_CUT = s.on F.SAFE_STAT_CUT ∧
      (∀ a, a ≠ 0x40014000 → t.rd a = s.rd a) ∧ { t with regs := s.regs } = s) ∧
  (∀ (s : State) (ms : Nat),
    s.on F.SAFE_STAT_RJAM = false →
    exec (.resumePulse false ms) s = .next (s.modSafe (fun x => { x with resumeLow := true }))) ∧
  (∀ (s : State) (ms : Nat),
    s.safe.resumeLow = true →
    (20 ≤ ms ∧ ms ≤ 500) →
    s.on F.SAFE_STAT_CUT = true →
    s.get F.SAFE_CAUSE_CAUSE = 0 →
    ∃ t, exec (.resumePulse true ms) s = .next t ∧ t.on F.SAFE_STAT_CUT = false ∧ t.get F.SAFE_RESUME_LAST = ms ∧
      t.safe.resumeLow = false ∧ t.safe.armed = none ∧ (∀ b : Bridge, isoClosed t b = isoClosed s b ∧ mcMode t b = mcMode s b)) ∧
  (∀ (s : State) (ms : Nat),
    s.safe.resumeLow = true →
    (ms < 20 ∨ (ms ≤ 500 ∧ s.get F.SAFE_CAUSE_CAUSE ≠ 0)) →
    ∃ t, exec (.resumePulse true ms) s = .next t ∧ t.on F.SAFE_STAT_CUT = s.on F.SAFE_STAT_CUT ∧ t.on F.SAFE_STAT_RESREF = true ∧
      t.get F.SAFE_RESUME_LAST = ms ∧ t.safe = { s.safe with resumeLow := false }) ∧
  (∀ (s : State),
    s.on F.SAFE_STAT_RJAM = false →
    exec .resumeJam s = .next (((s.put F.SAFE_STAT_RJAM 1).countBit F.SAFE_CNT_JAMCNT F.SAFE_CNT_OVF 2).modSafe
      (fun x => { x with resumeLow := false }))) ∧
  (∀ (s : State),
    exec .resumeJamClear s = .next (s.put F.SAFE_STAT_RJAM 0)) ∧
  (∀ (s : State) (a : ArmToken),
    s.safe.armed = some a →
    exec .armWindowExpiry s = .next ((s.put F.SAFE_STAT_ARMED 0).modSafe (fun x => { x with armed := some { a with late := true } }))) ∧
  ((∀ (s : State), ∃ t, exec .commandClear s = .next t ∧ t.pending = s.pending) ∧
      (∀ (s : State) (x0 : Bool) (x1 : Nat), ∃ t, exec (.resumePulse x0 x1) s = .next t ∧ t.pending = s.pending) ∧
      (∀ (s : State), ∃ t, exec .resumeJam s = .next t ∧ t.pending = s.pending) ∧
      (∀ (s : State), ∃ t, exec .resumeJamClear s = .next t ∧ t.pending = s.pending) ∧
      (∀ (s : State), ∃ t, exec .armWindowExpiry s = .next t ∧ t.pending = s.pending))

/-- A close under every condition of R439 commands both switches closed, shows it and clears CONF; a close without one of them is refused; an open commands both open. A feedback input that shows the commanded state is shown and ends its check; one that opens against a closed command outside a check, and one still wrong when ISOFBT runs out, with the other input of its bridge where that too reads open, latch their failure and set the cut latch with cause ISO. Complete, that is exec answers a next state, with the queue as it was, from every state and with every operand: ISOLATION_CLOSE, ISOLATION_OPEN, ISO_FEEDBACK_CHANGE, ISO_FEEDBACK_TIMEOUT. -/
def Obligations.IsolationSwitches : Prop :=
  (∀ (s : State) (b : Bridge),
    issues s .v = true →
    isoClosed s b = false →
    (mayTakePart s = true ∧ s.on F.SAFE_STAT_CUT = false ∧ s.on F.SAFE_STAT_STOPN = false) →
    bridgeUsed s b = true →
    (s.bit F.SAFE_ISOFB_FB (2 * b.val) = true ∧ s.bit F.SAFE_ISOFB_FB (2 * b.val + 1) = true) →
    (s.bit F.SAFE_ISOFB_FLTOPN (2 * b.val) = false ∧ s.bit F.SAFE_ISOFB_FLTOPN (2 * b.val + 1) = false) →
    ∃ t, exec (.isolationClose b) s = .next t ∧ isoClosed t b = true ∧ t.get (closeFld b) = 1 ∧ t.bit F.SAFE_ISOFB_CONF b.val = false ∧
      (∀ b' : Bridge, b' ≠ b → isoClosed t b' = isoClosed s b') ∧ { t with regs := s.regs, safe := s.safe } = s) ∧
  (∀ (s : State) (b : Bridge),
    issues s .v = true →
    isoClosed s b = false →
    (mayTakePart s = false ∨ s.on F.SAFE_STAT_CUT = true ∨ s.on F.SAFE_STAT_STOPN = true ∨ bridgeUsed s b = false ∨
      s.bit F.SAFE_ISOFB_FB (2 * b.val) = false ∨ s.bit F.SAFE_ISOFB_FB (2 * b.val + 1) = false ∨
      s.bit F.SAFE_ISOFB_FLTOPN (2 * b.val) = true ∨ s.bit F.SAFE_ISOFB_FLTOPN (2 * b.val + 1) = true) →
    exec (.isolationClose b) s = .next (s.put F.SAFE_STAT_CLOSEREF 1)) ∧
  (∀ (s : State) (b : Bridge),
    issues s .v = true →
    isoClosed s b = true →
    ∃ t, exec (.isolationOpen b) s = .next t ∧ isoClosed t b = false ∧ t.get (closeFld b) = 0 ∧
      (∀ b' : Bridge, b' ≠ b → isoClosed t b' = isoClosed s b') ∧ t.mem = s.mem) ∧
  (∀ (s : State) (i : Fin 4),
    isoClosed s (fbBridge i) = true →
    exec (.isoFeedbackChange i false) s = .next ((s.putBit F.SAFE_ISOFB_FB i.val false).modSafe
      (fun x => { x with checking := BitVec.ofNat 4 (withBit x.checking.toNat i.val false) }))) ∧
  (∀ (s : State) (i : Fin 4),
    isoClosed s (fbBridge i) = true →
    bitAt s.safe.checking.toNat i.val = false →
    exec (.isoFeedbackChange i true) s = .next (setCut causeIso (isoOpen (fbBridge i)
      ((s.putBit F.SAFE_ISOFB_FB i.val true).putBit F.SAFE_ISOFB_FLTCLS i.val true)))) ∧
  (∀ (s : State) (i : Fin 4),
    bitAt s.safe.checking.toNat i.val = true →
    isoClosed s (fbBridge i) = false →
    ∃ t, exec (.isoFeedbackTimeout i) s = .next (setCut causeIso (t.putBit F.SAFE_ISOFB_FLTOPN i.val true)) ∧
      t = s.modSafe (fun x => { x with checking := BitVec.ofNat 4 (withBit x.checking.toNat i.val false) })) ∧
  (∀ (s : State) (i : Fin 4),
    bitAt s.safe.checking.toNat i.val = true →
    isoClosed s (fbBridge i) = true →
    ∃ t, exec (.isoFeedbackTimeout i) s = .next (setCut causeIso (isoOpen (fbBridge i) ((otherLate i t).putBit F.SAFE_ISOFB_FLTCLS i.val true))) ∧
      t = s.modSafe (fun x => { x with checking := BitVec.ofNat 4 (withBit x.checking.toNat i.val false) })) ∧
  ((∀ (s : State) (x0 : Bridge), ∃ t, exec (.isolationClose x0) s = .next t ∧ t.pending = s.pending) ∧
      (∀ (s : State) (x0 : Bridge), ∃ t, exec (.isolationOpen x0) s = .next t ∧ t.pending = s.pending) ∧
      (∀ (s : State) (x0 : Fin 4) (x1 : Bool), ∃ t, exec (.isoFeedbackChange x0 x1) s = .next t ∧ t.pending = s.pending) ∧
      (∀ (s : State) (x0 : Fin 4), ∃ t, exec (.isoFeedbackTimeout x0) s = .next t ∧ t.pending = s.pending))

/-- The lowest matching receive object takes a frame whole, data beyond its length reads 0, and a second frame over an unread one is counted as lost; the service firmware takes one in an object it reserves; a frame that matches none, a remote frame and a frame during detection are not stored, and a controller in internal loopback hears none. Receive errors count where the mode counts, by 1, and by 8 what goes wrong with a flag, in the counter of the role in which it was sent: these counts are those of ISO 11898-1 (log entry 12, PRESUMED). An overload condition is answered by an overload frame where the mode sends them. The window writes what R464 and R466 allow. Equal twin copies are delivered, unequal ones counted. While the PLL-clocked blocks stand (RESET_N low, SLEEP or deeper, no always-on supply, held by a sentinel trip) the commands of those blocks change nothing (R546, R583, R604). Complete, that is exec answers a next state, with the queue as it was, from every state and with every operand: TWIN_VERDICT, CAN_FRAME_RECEIVED, CAN_WINDOW_WRITE, OPMODE_WRITE, BUS_IDLE, BITRATE_DETECT_START, ABD_CANDIDATE_TIMEOUT, CAN_RECEIVE_ERROR. -/
def Obligations.CanReceptionAndTwins : Prop :=
  (∀ (s : State) (n : CanCtl) (f : CanFrame) (k : Nat),
    coreStopped s = false →
    (canListens s n = true ∧ s.can[n.val].abdCand = none ∧ f.rtr = false ∧ canMode s n ≠ 3) →
    ((List.range 96).find? (fun j => canMatches s n j f) = some k) →
    (2 ≤ n.val ∨ issues s .s = false ∨ (k < 83 ∧ (s.on F.TIME_CTRL_EN = false ∨ k ≠ s.get F.TIME_SYNC_SOBJ))) →
    ∃ t, exec (.canFrameReceived n f) s = .next t ∧ (canObj t n k).id.toNat = (if f.ext then f.id.toNat else f.id.toNat % 2 ^ 11 * 2 ^ 18) + 2 ^ 29 * f.ext.toNat + 2 ^ 31 ∧
      t.can[n.val].acked = decide (canMode s n ≠ 2) ∧
      (canObj t n k).ctl = ctlOf f.dlc.toNat f.fd (f.fd && f.brs) (f.fd && f.esi) ∧
      (∀ j, j < 64 → (canObj t n k).bytes.getD j 0 = if j < dlcBytes f.fd f.dlc.toNat then f.data.getD j 0 else 0) ∧
      (∀ j, j ≠ k → canObj t n j = canObj s n j) ∧ t.on (F.CAN_RSTAT_NEWDAT n k) = true ∧
      t.on (F.CAN_RSTAT_LOST n k) = (s.on (F.CAN_RSTAT_LOST n k) || s.on (F.CAN_RSTAT_NEWDAT n k)) ∧
      (s.on (F.CAN_RSTAT_NEWDAT n k) = true → s.get (F.CAN_RSTAT_LOSTCNT n k) < 255 →
      t.get (F.CAN_RSTAT_LOSTCNT n k) = s.get (F.CAN_RSTAT_LOSTCNT n k) + 1) ∧
      (s.on F.TWIN_CTRL_EN = false → t.mem = s.mem) ∧ ∀ m : CanCtl, m ≠ n → t.can[m.val] = s.can[m.val]) ∧
  (∀ (s : State) (n : CanCtl) (m : Fin 2) (f : CanFrame) (k : Nat),
    coreStopped s = false →
    (canListens s n = true ∧ s.can[n.val].abdCand = none ∧ f.rtr = false ∧ canMode s n ≠ 3 ∧ issues s .s = true ∧ n.val = m.val) →
    ((List.range 96).find? (fun j => canMatches s n j f) = some k) →
    (k = 83 → exec (.canFrameReceived n f) s = .next (canCommand m
      ((canObj (canReceive n f s) n 83).bytes.take (canObj (canReceive n f s) n 83).len) ((canReceive n f s).put (F.CAN_RSTAT_NEWDAT n 83) 0))) ∧
      (k = 92 → exec (.canFrameReceived n f) s = .next (chassisIn m
      ((canObj (canReceive n f s) n 92).bytes.take (canObj (canReceive n f s) n 92).len) ((canReceive n f s).put (F.CAN_RSTAT_NEWDAT n 92) 0))) ∧
      (∀ p : Lane, k = 93 + p.val → exec (.canFrameReceived n f) s = .next (laneStatusIn m p
      ((canObj (canReceive n f s) n k).bytes.take (canObj (canReceive n f s) n k).len) ((canReceive n f s).put (F.CAN_RSTAT_NEWDAT n k) 0)))) ∧
  (∀ (s : State) (n : CanCtl) (f : CanFrame),
    coreStopped s = false →
    (canListens s n = true ∧ s.can[n.val].abdCand = none ∧ canMode s n ≠ 3) →
    (f.rtr = true ∨ (List.range 96).find? (fun j => canMatches s n j f) = none) →
    ∃ t, exec (.canFrameReceived n f) s = .next t ∧ t.can = (s.modCan n (fun c => { c with acked := canMode s n != 2 })).can ∧ t.mem = s.mem ∧ t.twin = s.twin) ∧
  (∀ (s : State) (n : CanCtl) (f : CanFrame),
    coreStopped s = false →
    (canListens s n = false ∨ canMode s n = 3) →
    exec (.canFrameReceived n f) s = .next s) ∧
  (∀ (s : State) (n : CanCtl) (f : CanFrame) (k : Nat),
    coreStopped s = false →
    (canListens s n = true ∧ canMode s n ≠ 3 ∧ k < 8) →
    s.can[n.val].abdCand = some k →
    (f.fd && f.brs) = true →
    ∃ t, exec (.canFrameReceived n f) s = .next t ∧ t.can[n.val].objs = s.can[n.val].objs ∧
      (s.can[n.val].abdGood = 0 → t.can[n.val].abdGood = 1 ∧ t.regs = s.regs) ∧
      (1 ≤ s.can[n.val].abdGood → t.can[n.val].abdCand = none ∧ t.on (F.CAN_STAT_ABDDONE n) = true ∧ t.get (F.CAN_STAT_ABDSEL n) = k ∧
      t.on (F.CAN_CTRL_ABD n) = false ∧ t.rd (F.CAN_NBT_NBRP n).addr = BitVec.ofNat 32 (s.get (F.CAN_ABDN_NT n k)) ∧
      t.rd (F.CAN_DBT_DBRP n).addr = BitVec.ofNat 32 (s.get (F.CAN_ABDD_DT n k)))) ∧
  (∀ (s : State) (n : CanCtl) (k : RxErrorKind),
    coreStopped s = false →
    (canListens s n = true ∧ s.can[n.val].abdCand = none) →
    (k = .stuff ∨ k = .form ∨ k = .crc ∨ k = .bit ∨ (k = .protocolException ∧ s.on (F.CAN_CTRL_PXHD n) = true)) →
    ∃ t, exec (.canReceiveError n k) s = .next t ∧
      (canCounts s n = true → t.get (F.CAN_ERRC_REC n) = min 255 (s.get (F.CAN_ERRC_REC n) + 1)) ∧
      (canCounts s n = false → t.rd (F.CAN_ERRC_REC n).addr = s.rd (F.CAN_ERRC_REC n).addr) ∧
      (k = .stuff → t.get (F.CAN_STAT_LEC n) = 1) ∧ (k = .form ∨ k = .protocolException → t.get (F.CAN_STAT_LEC n) = 2) ∧
      (k = .crc → t.get (F.CAN_STAT_LEC n) = 6) ∧ (k = .bit → t.get (F.CAN_STAT_LEC n) = 4 ∨ t.get (F.CAN_STAT_LEC n) = 5) ∧
      t.get (F.CAN_ERRC_TEC n) = s.get (F.CAN_ERRC_TEC n) ∧ t.mem = s.mem ∧
      t.can = (s.modCan n (fun c => { c with flagged := canMode s n == 0 || canMode s n == 3, txFlag := false, waits := canMode s n == 1 })).can) ∧
  (∀ (s : State) (n : CanCtl) (k : RxErrorKind),
    coreStopped s = false →
    (canListens s n = true ∧ canCounts s n = true) →
    (k = .bitInFlag ∨ k = .dominantAfterFlag) →
    ∃ t, exec (.canReceiveError n k) s = .next t ∧ t.mem = s.mem ∧ (k = .bitInFlag → t.get (F.CAN_STAT_LEC n) = 4 ∨ t.get (F.CAN_STAT_LEC n) = 5) ∧
      (s.can[n.val].txFlag = false → t.get (F.CAN_ERRC_REC n) = min 255 (s.get (F.CAN_ERRC_REC n) + 8) ∧ t.get (F.CAN_ERRC_TEC n) = s.get (F.CAN_ERRC_TEC n)) ∧
      (s.can[n.val].txFlag = true → t.get (F.CAN_ERRC_REC n) = s.get (F.CAN_ERRC_REC n) ∧
      (s.get (F.CAN_ERRC_TEC n) + 8 ≤ 255 → t.get (F.CAN_ERRC_TEC n) = s.get (F.CAN_ERRC_TEC n) + 8))) ∧
  (∀ (s : State) (n : CanCtl),
    coreStopped s = false →
    canListens s n = true →
    exec (.canReceiveError n .overload) s = .next (s.modCan n (fun c => { c with overload := canMode s n == 0 || canMode s n == 3, txFlag := false }))) ∧
  (∀ (s : State) (n : CanCtl),
    coreStopped s = false →
    canListens s n = true →
    s.on (F.CAN_CTRL_PXHD n) = false →
    exec (.canReceiveError n .protocolException) s = .next (s.put (F.CAN_STAT_PXEV n) 1)) ∧
  (∀ (s : State) (k : TwinPair) (a : TwinCopy),
    coreStopped s = false →
    (s.twin[k.val] = ⟨some a, some a⟩ ∧ a.len ≤ 64) →
    ∃ t, exec (.twinVerdict k) s = .next t ∧ t.twin[k.val] = ⟨none, none⟩ ∧ t.bit F.TWIN_STAT_EV k = true ∧
      t.mem = (s.setBytes (0x20000000 + s.get (F.TWIN_PBUF_ADDR k)) (a.data.take a.len)).mem ∧
      t.get (F.TWIN_PSEQ_SEQ k) = (s.get (F.TWIN_PSEQ_SEQ k) + 1) % 65536 ∧ t.on (F.TWIN_PSEQ_SINGLE k) = false ∧
      t.get (F.TWIN_PSEQ_LEN k) = a.len ∧ t.rd (F.TWIN_PCNT_MISCNT k).addr = s.rd (F.TWIN_PCNT_MISCNT k).addr ∧
      (s.on (F.TWIN_PCFG_STOP k) = true → 0 < a.len → (a.data.getD 0 0).toNat = s.get (F.TWIN_PCFG_STOPVAL k) →
      t.on F.TWIN_STAT_STOPEV = true ∧ t.on F.SAFE_STAT_NMINS = true ∧ .netStop ∈ t.irqs) ∧
      (s.on (F.TWIN_PCFG_STOP k) = false → t.on F.TWIN_STAT_STOPEV = s.on F.TWIN_STAT_STOPEV ∧ t.on F.SAFE_STAT_NMINS = s.on F.SAFE_STAT_NMINS) ∧
      ∀ j : TwinPair, j ≠ k → t.twin[j.val] = s.twin[j.val]) ∧
  (∀ (s : State) (k : TwinPair) (a b : TwinCopy),
    coreStopped s = false →
    s.twin[k.val] = ⟨some a, some b⟩ →
    a ≠ b →
    ∃ t, exec (.twinVerdict k) s = .next t ∧ t.twin[k.val] = ⟨none, none⟩ ∧ t.bit F.TWIN_STAT_EV k = true ∧ t.mem = s.mem ∧
      t.rd (F.TWIN_PSEQ_SEQ k).addr = s.rd (F.TWIN_PSEQ_SEQ k).addr ∧
      (s.get (F.TWIN_PCNT_MISCNT k) < 255 → t.get (F.TWIN_PCNT_MISCNT k) = s.get (F.TWIN_PCNT_MISCNT k) + 1) ∧
      t.on F.SAFE_STAT_NMINS = s.on F.SAFE_STAT_NMINS) ∧
  (∀ (s : State) (k : TwinPair) (a : TwinCopy),
    coreStopped s = false →
    (s.twin[k.val] = ⟨some a, none⟩ ∧ a.len ≤ 64) →
    s.on (F.TWIN_PCFG_STOP k) = false →
    (s.get (F.TWIN_PCFG_POL k) = 0 ∨ (s.get (F.TWIN_PCFG_POL k) = 2 ∧ s.on F.TWIN_CTRL_LOST1 = false) →
      ∃ t, exec (.twinVerdict k) s = .next t ∧ t.mem = s.mem ∧ t.rd (F.TWIN_PSEQ_SEQ k).addr = s.rd (F.TWIN_PSEQ_SEQ k).addr ∧
      (s.get (F.TWIN_PCNT_SGLREJ k) < 255 → t.get (F.TWIN_PCNT_SGLREJ k) = s.get (F.TWIN_PCNT_SGLREJ k) + 1)) ∧
      (s.get (F.TWIN_PCFG_POL k) = 1 ∨ (s.get (F.TWIN_PCFG_POL k) = 2 ∧ s.on F.TWIN_CTRL_LOST1 = true) →
      ∃ t, exec (.twinVerdict k) s = .next t ∧ t.mem = (s.setBytes (0x20000000 + s.get (F.TWIN_PBUF_ADDR k)) (a.data.take a.len)).mem ∧
      t.on (F.TWIN_PSEQ_SINGLE k) = true ∧ t.get (F.TWIN_PSEQ_NET k) = 0 ∧ t.get (F.TWIN_PSEQ_LEN k) = a.len ∧
      (s.get (F.TWIN_PCNT_SGLACC k) < 255 → t.get (F.TWIN_PCNT_SGLACC k) = s.get (F.TWIN_PCNT_SGLACC k) + 1))) ∧
  (∀ (s : State) (n : CanCtl) (off : BitVec 12) (v : Word),
    coreStopped s = false →
    s.get (F.CAN_WSEL_OBJ n) < 96 →
    (off = 0x800 → exec (.canWindowWrite n off v) s = .next (setCanObj n (s.get (F.CAN_WSEL_OBJ n))
      { canObj s n (s.get (F.CAN_WSEL_OBJ n)) with id := v &&& 0xBFFFFFFF } s)) ∧
      (off ≠ 0x800 → exec (.canWindowWrite n off v) s = .next (s.put (F.CAN_STAT_ACCERR n) 1))) ∧
  (∀ (s : State) (n : CanCtl) (off : BitVec 12) (v : Word) (k : Nat),
    coreStopped s = false →
    s.get (F.CAN_WSEL_OBJ n) = 96 + k →
    (s.on (F.CAN_TSTAT_TXREQ n k) = true → exec (.canWindowWrite n off v) s = .next (s.put (F.CAN_STAT_ACCERR n) 1)) ∧
      (s.on (F.CAN_TSTAT_TXREQ n k) = false → off = 0x804 → exec (.canWindowWrite n off v) s = .next (setCanObj n (96 + k)
      { canObj s n (96 + k) with ctl := ((canObj s n (96 + k)).ctl &&& 0x40) ||| (v &&& 0x3F) } s)) ∧
      (s.on (F.CAN_TSTAT_TXREQ n k) = false → ∀ i : Fin 16, off.toNat = 0x810 + 4 * i.val → ∃ t, exec (.canWindowWrite n off v) s = .next t ∧
      (canObj t n (96 + k)).data[i.val] = v ∧ (∀ j : Fin 16, j ≠ i → (canObj t n (96 + k)).data[j.val] = (canObj s n (96 + k)).data[j.val]) ∧
      (canObj t n (96 + k)).id = (canObj s n (96 + k)).id ∧ t.regs = s.regs ∧ t.mem = s.mem)) ∧
  (∀ (s : State) (n : CanCtl),
    coreStopped s = false →
    (s.on (F.CAN_CTRL_EN n) = true ∧ s.get (F.CAN_CTRL_OPMODE n) = 2) →
    (∀ k, abdFrom s n 0 = some k → ∃ t, exec (.bitrateDetectStart n) s = .next t ∧ t.on (F.CAN_CTRL_ABD n) = true ∧
      t.can[n.val].abdCand = some k ∧ t.can[n.val].abdRound = 0 ∧ t.can[n.val].abdGood = 0) ∧
      (abdFrom s n 0 = none → ∃ t, exec (.bitrateDetectStart n) s = .next t ∧ t.on (F.CAN_STAT_ABDFAIL n) = true ∧ t.on (F.CAN_CTRL_ABD n) = false)) ∧
  (∀ (s : State) (n : CanCtl),
    coreStopped s = false →
    (s.on (F.CAN_CTRL_EN n) = false ∨ s.get (F.CAN_CTRL_OPMODE n) ≠ 2) →
    exec (.bitrateDetectStart n) s = .next (s.put (F.CAN_STAT_ACCERR n) 1)) ∧
  (∀ (s : State) (n : CanCtl) (k : Nat),
    coreStopped s = false →
    s.can[n.val].abdCand = some k →
    (∀ j, abdFrom s n (k + 1) = some j → ∃ t, exec (.abdCandidateTimeout n) s = .next t ∧ t.can[n.val].abdCand = some j ∧
      t.can[n.val].abdGood = 0 ∧ t.regs = s.regs) ∧
      (abdFrom s n (k + 1) = none → s.can[n.val].abdRound + 1 < s.get (F.CAN_CTRL_ABDRND n) →
      (∀ j, abdFrom s n 0 = some j → ∃ t, exec (.abdCandidateTimeout n) s = .next t ∧ t.can[n.val].abdCand = some j ∧ t.can[n.val].abdRound = s.can[n.val].abdRound + 1) ∧
      (abdFrom s n 0 = none → ∃ t, exec (.abdCandidateTimeout n) s = .next t ∧ t.can[n.val].abdCand = none ∧ t.on (F.CAN_STAT_ABDFAIL n) = true ∧ t.on (F.CAN_CTRL_ABD n) = false)) ∧
      (abdFrom s n (k + 1) = none → s.get (F.CAN_CTRL_ABDRND n) ≤ s.can[n.val].abdRound + 1 →
      ∃ t, exec (.abdCandidateTimeout n) s = .next t ∧ t.on (F.CAN_STAT_ABDFAIL n) = true ∧ t.on (F.CAN_CTRL_ABD n) = false ∧
      t.rd (F.CAN_NBT_NBRP n).addr = s.rd (F.CAN_NBT_NBRP n).addr ∧ t.rd (F.CAN_DBT_DBRP n).addr = s.rd (F.CAN_DBT_DBRP n).addr)) ∧
  (∀ (s : State) (n : CanCtl) (m : BitVec 2),
    coreStopped s = false →
    exec (.opmodeWrite n m) s = .next (s.put (F.CAN_CTRL_OPMODE n) m.toNat) ∧
      ∃ t, exec (.busIdle n) s = .next t ∧ t.can[n.val].mode.toNat = s.get (F.CAN_CTRL_OPMODE n) ∧
      t.can[n.val].leadHold = (s.on (F.CAN_CTRL_LEADONLY n) && s.get F.CONT_STAT_ROLE != 2) ∧ t.can[n.val].waits = false ∧
      t.can[n.val].recessive = (!s.on (F.CAN_CTRL_EN n) || s.get (F.CAN_STAT_EST n) == 2 || canMode t n == 3) ∧ t.regs = s.regs ∧ t.mem = s.mem ∧
      t.can[n.val].objs = s.can[n.val].objs ∧ ∀ j : CanCtl, j ≠ n → t.can[j.val] = s.can[j.val]) ∧
  (∀ (s : State),
    coreStopped s = true →
    (∀ (x0 : TwinPair), exec (.twinVerdict x0) s = .next s) ∧
      (∀ (x0 : CanCtl) (x1 : CanFrame), exec (.canFrameReceived x0 x1) s = .next s) ∧
      (∀ (x0 : CanCtl) (x1 : BitVec 12) (x2 : Word), exec (.canWindowWrite x0 x1 x2) s = .next s) ∧
      (∀ (x0 : CanCtl) (x1 : BitVec 2), exec (.opmodeWrite x0 x1) s = .next s) ∧
      (∀ (x0 : CanCtl), exec (.busIdle x0) s = .next s) ∧
      (∀ (x0 : CanCtl), exec (.bitrateDetectStart x0) s = .next s) ∧
      (∀ (x0 : CanCtl), exec (.abdCandidateTimeout x0) s = .next s) ∧
      (∀ (x0 : CanCtl) (x1 : RxErrorKind), exec (.canReceiveError x0 x1) s = .next s)) ∧
  ((∀ (s : State) (x0 : TwinPair), ∃ t, exec (.twinVerdict x0) s = .next t ∧ t.pending = s.pending) ∧
      (∀ (s : State) (x0 : CanCtl) (x1 : CanFrame), ∃ t, exec (.canFrameReceived x0 x1) s = .next t ∧ t.pending = s.pending) ∧
      (∀ (s : State) (x0 : CanCtl) (x1 : BitVec 12) (x2 : Word), ∃ t, exec (.canWindowWrite x0 x1 x2) s = .next t ∧ t.pending = s.pending) ∧
      (∀ (s : State) (x0 : CanCtl) (x1 : BitVec 2), ∃ t, exec (.opmodeWrite x0 x1) s = .next t ∧ t.pending = s.pending) ∧
      (∀ (s : State) (x0 : CanCtl), ∃ t, exec (.busIdle x0) s = .next t ∧ t.pending = s.pending) ∧
      (∀ (s : State) (x0 : CanCtl), ∃ t, exec (.bitrateDetectStart x0) s = .next t ∧ t.pending = s.pending) ∧
      (∀ (s : State) (x0 : CanCtl), ∃ t, exec (.abdCandidateTimeout x0) s = .next t ∧ t.pending = s.pending) ∧
      (∀ (s : State) (x0 : CanCtl) (x1 : RxErrorKind), ∃ t, exec (.canReceiveError x0 x1) s = .next t ∧ t.pending = s.pending))

/-- The request that would win on the bus, the lower object of equals, enters arbitration; a completed frame clears its request and every NACK; a lost or failed one is tried again unless CANCEL was written; NACKLIM acknowledge errors set NACK and NOACK; an error counts 8 in TEC with the exceptions of ISO 11898-1, as does what goes wrong with a transmitter's flag (log entry 12, PRESUMED); a request of object 30 on CAN0 or CAN1 begins a chassis broadcast; above 255 the controller is bus-off until RECOVER; EN 0 cancels every request, and EN 1 sets up the objects that the service firmware reserves on CAN0 and CAN1 (the model's moment, log entry 12). While the PLL-clocked blocks stand (RESET_N low, SLEEP or deeper, no always-on supply, held by a sentinel trip) the commands of those blocks change nothing (R546, R583, R604). -/
def Obligations.CanTransmission : Prop :=
  (∀ (s : State) (n : CanCtl) (k : Fin 32),
    coreStopped s = false →
    (k ≠ 30 ∨ 2 ≤ n.val → exec (.transmitRequest n k) s = .next (s.put (F.CAN_TSTAT_TXREQ n k) 1)) ∧
      (k = 30 → n.val < 2 → exec (.transmitRequest n k) s = .next ((s.put (F.CAN_TSTAT_TXREQ n k) 1).modCont (fun c => { c with confirmed := 0 })))) ∧
  (∀ (s : State) (n : CanCtl) (k : Fin 32) (win : Bool) (d : Nat),
    coreStopped s = false →
    (canMaySend s n = true ∧ s.can[n.val].active = none ∧ s.on (F.CAN_TSTAT_TXREQ n k) = true) →
    (∀ j : Fin 32, s.on (F.CAN_TSTAT_TXREQ n j) = true → arbKey (canObj s n (96 + k.val)) < arbKey (canObj s n (96 + j.val)) ∨
      (arbKey (canObj s n (96 + k.val)) = arbKey (canObj s n (96 + j.val)) ∧ k ≤ j)) →
    ∃ t, exec (.arbitration n win d) s = .next t ∧ t.can[n.val].active = some (k, win) ∧ t.on (F.CAN_TSTAT_ACTIVE n k) = true ∧
      (∀ j : Fin 32, t.on (F.CAN_TSTAT_TXREQ n j) = s.on (F.CAN_TSTAT_TXREQ n j)) ∧ t.can[n.val].objs = s.can[n.val].objs ∧ t.mem = s.mem ∧
      (win = true → bitAt (canObj s n (96 + k.val)).ctl.toNat 4 = true → s.on (F.CAN_CTRL_TDCEN n) = true →
      t.get (F.CAN_TDC_MEAS n) = min d 127 ∧ (127 < d + s.get (F.CAN_DBT_TDCO n) → t.on (F.CAN_STAT_TDCFLT n) = true))) ∧
  (∀ (s : State) (n : CanCtl) (win : Bool) (d : Nat),
    coreStopped s = false →
    (canMaySend s n = false ∨ (s.can[n.val].active = none ∧ ∀ j : Fin 32, s.on (F.CAN_TSTAT_TXREQ n j) = false)) →
    exec (.arbitration n win d) s = .next s) ∧
  (∀ (s : State) (n : CanCtl) (k : Fin 32),
    coreStopped s = false →
    (s.can[n.val].active = some (k, true) ∧ bitAt s.host.stale.toNat n.val = false) →
    ∃ t, exec (.transmitComplete n) s = .next t ∧ t.on (F.CAN_TSTAT_SENT n k) = true ∧ t.on (F.CAN_TSTAT_TXREQ n k) = false ∧
      t.on (F.CAN_TSTAT_CANCEL n k) = false ∧ t.on (F.CAN_TSTAT_CANCELLED n k) = s.on (F.CAN_TSTAT_CANCELLED n k) ∧
      t.on (F.CAN_TSTAT_ACTIVE n k) = false ∧ t.can[n.val].active = none ∧ t.can[n.val].sent = some (canTxFrame s n k) ∧ (∀ j : Fin 32, t.on (F.CAN_TSTAT_NACK n j) = false) ∧
      t.on (F.CAN_STAT_NOACK n) = false ∧ t.get (F.CAN_ERRC_TEC n) = s.get (F.CAN_ERRC_TEC n) - 1 ∧
      (∀ j : Fin 32, j ≠ k → t.on (F.CAN_TSTAT_TXREQ n j) = s.on (F.CAN_TSTAT_TXREQ n j)) ∧
      (k = 28 → n = 0 → t.get F.HOST_STAT_HELDC0 = heldOn t .c0 % 2)) ∧
  (∀ (s : State) (n : CanCtl),
    coreStopped s = false →
    ((∀ k, s.can[n.val].active ≠ some (k, true)) ∧ bitAt s.host.stale.toNat n.val = false) →
    exec (.transmitComplete n) s = .next s) ∧
  (∀ (s : State) (n : CanCtl) (k : Fin 32) (w : Bool),
    coreStopped s = false →
    (s.can[n.val].active = some (k, w) ∧ bitAt s.host.stale.toNat n.val = false) →
    (canListens s n = true → exec (.transmitError n .overload) s = .next (s.modCan n (fun c => { c with overload := canMode s n == 0 || canMode s n == 3, txFlag := true }))) ∧
      (s.on (F.CAN_TSTAT_CANCEL n k) = false → ∃ t, exec (.transmitError n .lostArbitration) s = .next t ∧ t.can[n.val].active = none ∧
      t.on (F.CAN_TSTAT_ACTIVE n k) = false ∧ (∀ j : Fin 32, t.on (F.CAN_TSTAT_TXREQ n j) = s.on (F.CAN_TSTAT_TXREQ n j)) ∧
      t.rd (F.CAN_ERRC_TEC n).addr = s.rd (F.CAN_ERRC_TEC n).addr ∧ t.mem = s.mem) ∧
      (s.on (F.CAN_TSTAT_CANCEL n k) = true → ∃ t, exec (.transmitError n .lostArbitration) s = .next t ∧ t.can[n.val].active = none ∧
      t.on (F.CAN_TSTAT_TXREQ n k) = false ∧ t.on (F.CAN_TSTAT_CANCELLED n k) = true ∧ t.on (F.CAN_TSTAT_CANCEL n k) = false ∧
      t.on (F.CAN_TSTAT_SENT n k) = s.on (F.CAN_TSTAT_SENT n k))) ∧
  (∀ (s : State) (n : CanCtl) (k : Fin 32) (w : Bool) (e : TxErrorKind),
    coreStopped s = false →
    (s.can[n.val].active = some (k, w) ∧ (e = .stuff ∨ e = .form ∨ e = .bit ∨ e = .ackDominant)) →
    (s.get (F.CAN_STAT_EST n) ≠ 2 ∧ bitAt s.host.stale.toNat n.val = false) →
    ∃ t, exec (.transmitError n e) s = .next t ∧ t.can[n.val].active = none ∧
      t.on (F.CAN_TSTAT_TXREQ n k) = (s.on (F.CAN_TSTAT_TXREQ n k) && !s.on (F.CAN_TSTAT_CANCEL n k)) ∧
      (∀ j : Fin 32, j ≠ k → t.on (F.CAN_TSTAT_TXREQ n j) = s.on (F.CAN_TSTAT_TXREQ n j)) ∧
      (s.get (F.CAN_ERRC_TEC n) + 8 ≤ 255 → t.get (F.CAN_ERRC_TEC n) = s.get (F.CAN_ERRC_TEC n) + 8 ∧ t.get (F.CAN_STAT_EST n) < 2) ∧
      (255 < s.get (F.CAN_ERRC_TEC n) + 8 → t.get (F.CAN_STAT_EST n) = 2 ∧ t.can[n.val].recessive = true ∧
      (s.get (F.CAN_ERRC_BOCNT n) < 255 → t.get (F.CAN_ERRC_BOCNT n) = s.get (F.CAN_ERRC_BOCNT n) + 1) ∧ t.on (F.CAN_IRQ_ESTEV n) = true)) ∧
  (∀ (s : State) (n : CanCtl) (k : Fin 32) (w : Bool),
    coreStopped s = false →
    (s.can[n.val].active = some (k, w) ∧ bitAt s.host.stale.toNat n.val = false) →
    (∃ t, exec (.transmitError n .stuffArbitration) s = .next t ∧ t.get (F.CAN_STAT_LEC n) = 1 ∧ t.get (F.CAN_ERRC_TEC n) = s.get (F.CAN_ERRC_TEC n) ∧
      t.get (F.CAN_STAT_EST n) = s.get (F.CAN_STAT_EST n)) ∧
      ∃ t, exec (.transmitError n .ack) s = .next t ∧ t.get (F.CAN_STAT_LEC n) = 3 ∧
      Tab.get (fun _ => 0) t.can[n.val].nacks k = Tab.get (fun _ => 0) s.can[n.val].nacks k + 1 ∧
      (s.get (F.CAN_CTRL_NACKLIM n) ≤ Tab.get (fun _ => 0) s.can[n.val].nacks k + 1 →
      t.on (F.CAN_TSTAT_NACK n k) = true ∧ t.on (F.CAN_STAT_NOACK n) = true) ∧
      (Tab.get (fun _ => 0) s.can[n.val].nacks k + 1 < s.get (F.CAN_CTRL_NACKLIM n) →
      t.on (F.CAN_TSTAT_NACK n k) = s.on (F.CAN_TSTAT_NACK n k) ∧ t.on (F.CAN_STAT_NOACK n) = s.on (F.CAN_STAT_NOACK n)) ∧
      (s.get (F.CAN_STAT_EST n) = 1 → t.get (F.CAN_ERRC_TEC n) = s.get (F.CAN_ERRC_TEC n))) ∧
  (∀ (s : State) (n : CanCtl) (e : TxErrorKind),
    coreStopped s = false →
    (s.can[n.val].active = none ∧ bitAt s.host.stale.toNat n.val = false) →
    (e ≠ .overload ∧ e ≠ .bitInFlag ∧ e ≠ .dominantAfterFlag) →
    exec (.transmitError n e) s = .next s) ∧
  (∀ (s : State) (n : CanCtl) (e : TxErrorKind),
    coreStopped s = false →
    (canListens s n = true ∧ canCounts s n = true ∧ s.can[n.val].txFlag = true ∧ bitAt s.host.stale.toNat n.val = false) →
    (e = .bitInFlag ∨ e = .dominantAfterFlag) →
    s.get (F.CAN_ERRC_TEC n) + 8 ≤ 255 →
    ∃ t, exec (.transmitError n e) s = .next t ∧ t.get (F.CAN_ERRC_TEC n) = s.get (F.CAN_ERRC_TEC n) + 8 ∧ t.get (F.CAN_ERRC_REC n) = s.get (F.CAN_ERRC_REC n) ∧
      t.mem = s.mem) ∧
  (∀ (s : State) (n : CanCtl) (k : Fin 32),
    coreStopped s = false →
    (s.on (F.CAN_TSTAT_TXREQ n k) = false → exec (.transmitCancel n k) s = .next s) ∧
      (s.on (F.CAN_TSTAT_TXREQ n k) = true → s.on (F.CAN_TSTAT_ACTIVE n k) = true →
      exec (.transmitCancel n k) s = .next (s.put (F.CAN_TSTAT_CANCEL n k) 1)) ∧
      (s.on (F.CAN_TSTAT_TXREQ n k) = true → s.on (F.CAN_TSTAT_ACTIVE n k) = false → ∃ t, exec (.transmitCancel n k) s = .next t ∧
      t.on (F.CAN_TSTAT_TXREQ n k) = false ∧ t.on (F.CAN_TSTAT_CANCELLED n k) = true ∧ t.on (F.CAN_IRQ_TXEV n) = true ∧ t.can = s.can ∧
      t.mem = s.mem)) ∧
  (∀ (s : State) (n : CanCtl),
    coreStopped s = false →
    (s.get (F.CAN_STAT_EST n) = 2 → ∃ t, exec (.busOffRecover n) s = .next t ∧ exec (.busOffRecoverTimer n) s = .next t ∧
      t.on (F.CAN_CTRL_RECOVER n) = true ∧ t.on (F.CAN_STAT_RECBUSY n) = true ∧ t.get (F.CAN_STAT_EST n) = 2 ∧ t.can = s.can) ∧
      (s.get (F.CAN_STAT_EST n) ≠ 2 → exec (.busOffRecover n) s = .next (s.put (F.CAN_STAT_ACCERR n) 1) ∧ exec (.busOffRecoverTimer n) s = .next s)) ∧
  (∀ (s : State) (n : CanCtl),
    coreStopped s = false →
    (s.on (F.CAN_STAT_RECBUSY n) = true → ∃ t, exec (.recoveryDone n) s = .next t ∧ t.get (F.CAN_STAT_EST n) = 0 ∧
      t.get (F.CAN_ERRC_TEC n) = 0 ∧ t.get (F.CAN_ERRC_REC n) = 0 ∧ t.on (F.CAN_STAT_RECBUSY n) = false ∧ t.on (F.CAN_CTRL_RECOVER n) = false ∧
      t.on (F.CAN_IRQ_RECDONE n) = true ∧ t.mem = s.mem) ∧
      (s.on (F.CAN_STAT_RECBUSY n) = false → exec (.recoveryDone n) s = .next s)) ∧
  (∀ (s : State) (n : CanCtl),
    coreStopped s = false →
    ∃ t, exec (.canEnableWrite n false) s = .next t ∧ t.on (F.CAN_CTRL_EN n) = false ∧ t.can[n.val].recessive = true ∧ t.can[n.val].active = none ∧
      (∀ k : Fin 32, t.on (F.CAN_TSTAT_TXREQ n k) = false ∧ (s.on (F.CAN_TSTAT_TXREQ n k) = true → t.on (F.CAN_TSTAT_CANCELLED n k) = true)) ∧
      t.can[n.val].objs = s.can[n.val].objs ∧ t.mem = s.mem) ∧
  (∀ (s : State) (n : CanCtl),
    coreStopped s = false →
    ∃ t, exec (.canEnableWrite n true) s = .next t ∧ t.on (F.CAN_CTRL_EN n) = true ∧
      t.can[n.val].recessive = (s.get (F.CAN_STAT_EST n) == 2 || canMode s n == 3) ∧ (∀ k : Fin 32, t.on (F.CAN_TSTAT_TXREQ n k) = s.on (F.CAN_TSTAT_TXREQ n k)) ∧ t.mem = s.mem) ∧
  (∀ (s : State) (n : CanCtl) (k : Nat),
    coreStopped s = false →
    (n.val < 2 ∧ issues s .s = true ∧ 83 ≤ k ∧ k ≤ 95) →
    ∃ t, exec (.canEnableWrite n true) s = .next t ∧
      (canObj t n k).id = (match reservedId s n k with | some i => BitVec.ofNat 32 (i % 2 ^ 11 * 2 ^ 18 + 2 ^ 31) | none => 0)) ∧
  (∀ (s : State),
    coreStopped s = true →
    (∀ (x0 : CanCtl) (x1 : Fin 32), exec (.transmitRequest x0 x1) s = .next s) ∧
      (∀ (x0 : CanCtl) (x1 : Bool) (x2 : Nat), exec (.arbitration x0 x1 x2) s = .next s) ∧
      (∀ (x0 : CanCtl), exec (.transmitComplete x0) s = .next s) ∧
      (∀ (x0 : CanCtl) (x1 : TxErrorKind), exec (.transmitError x0 x1) s = .next s) ∧
      (∀ (x0 : CanCtl) (x1 : Fin 32), exec (.transmitCancel x0 x1) s = .next s) ∧
      (∀ (x0 : CanCtl), exec (.busOffRecover x0) s = .next s) ∧
      (∀ (x0 : CanCtl), exec (.recoveryDone x0) s = .next s) ∧
      (∀ (x0 : CanCtl), exec (.busOffRecoverTimer x0) s = .next s) ∧
      (∀ (x0 : CanCtl) (x1 : Bool), exec (.canEnableWrite x0 x1) s = .next s))

/-- Enabling needs the strap's master bit or MON and leads to listening; cycles begin and end on the grid of cycle lengths that starts as USL is enabled (log entry 11) and anew as the run state is entered, which a cycle start does after one cycle length of listening; a cycle start latches the transmit bank. A poll takes the bit times of its bytes; it needs an idle enabled channel and no lower-numbered entry of the channel with the same START, else the entry is skipped and counted. What the receiver makes of a reply's line is heardAs: the byte of each start bit, each bit sampled at the tick nearest its middle. An accepted reply is recorded in the filling bank with AGE 0, any other is counted in the order of R492 and its record ages at the cycle end, where PUB and CYCSEQ advance; POLLS + SKIPS equals NENT; a window that the cycle's end leaves open keeps its channel busy and counts its late reply or its time-out (the counter of a late reply is log entry 11, what SKIPCNT counts log entry 23, both the model's). While the PLL-clocked blocks stand (RESET_N low, SLEEP or deeper, no always-on supply, held by a sentinel trip) the commands of those blocks change nothing (R546, R583, R604). Complete, that is exec answers a next state, with the queue as it was, from every state and with every operand: USILE_ENABLE, USILE_CYCLE_START, POLL_START, POLL_END, REPLY_RECEIVED, REPLY_WINDOW_TIMEOUT, USILE_CYCLE_END, SECOND_MASTER_DETECTED, DEFER_END, POLL_OBSERVED. -/
def Obligations.UsileBus : Prop :=
  (∀ (s : State) (mon : Bool),
    coreStopped s = false →
    (mon = true ∨ usileMaster s = true) →
    s.on F.USL_CTRL_EN = false →
    ∃ t, exec (.usileEnable true mon) s = .next t ∧ t.on F.USL_CTRL_EN = true ∧ t.on F.USL_CTRL_MON = mon ∧ t.get F.USL_STAT_STATE = 1 ∧
      t.get F.USL_CYCSEQ_CYCSEQ = 0 ∧ t.usl.slots = [] ∧ t.usl.dups = 0 ∧ t.usl.listenSince = s.tick ∧ t.usl.origin = s.tick ∧ t.usl.cycleAt = some s.tick ∧ t.mem = s.mem) ∧
  (∀ (s : State),
    coreStopped s = false →
    usileMaster s = false →
    exec (.usileEnable true false) s = .next (s.put F.USL_STAT_ACCERR 1)) ∧
  (∀ (s : State) (mon : Bool),
    coreStopped s = false →
    ∃ t, exec (.usileEnable false mon) s = .next t ∧ t.on F.USL_CTRL_EN = false ∧ t.get F.USL_STAT_STATE = 0 ∧
      t.on F.USL_STAT_DUPSTOP = false ∧ t.usl.slots = [] ∧ t.usl.dups = 0 ∧ t.mem = s.mem) ∧
  (∀ (s : State),
    coreStopped s = false →
    (s.on F.USL_CTRL_EN = true ∧ s.get F.USL_TXBASE_ADDR + 4 ≤ 0x300000) →
    (onCycle s = true ∨ (s.get F.USL_STAT_STATE = 1 ∧ s.usl.listenSince + cycleTicks s ≤ s.tick)) →
    ∃ t, exec .usileCycleStart s = .next t ∧ t.usl.slots = [] ∧ t.usl.cycleAt = some s.tick ∧
      (s.get F.USL_STAT_STATE ≠ 1 → t.usl.origin = s.usl.origin) ∧ (s.get F.USL_STAT_STATE = 1 → s.usl.listenSince + cycleTicks s ≤ s.tick → t.usl.origin = s.tick) ∧
      t.usl.runCycle = decide (t.get F.USL_STAT_STATE = 2) ∧ t.get F.USL_SHEET_NENT = (uslEntries s).length ∧
      t.get F.TIME_UCYCSEC_SEC = s.time.sec.toNat ∧ t.get F.TIME_UCYCNS_NS = s.get F.TIME_NS_NS ∧
      t.get F.TIME_UCYCSEQ_CYCSEQ = s.get F.USL_CYCSEQ_CYCSEQ ∧
      (s.get F.USL_STAT_STATE = 1 → s.usl.listenSince + s.get F.USL_CYC_CYCT * 20 ≤ s.tick → t.get F.USL_STAT_STATE = 2) ∧
      (s.get F.USL_STAT_STATE ≠ 1 → t.get F.USL_STAT_STATE = s.get F.USL_STAT_STATE ∧ t.mem = s.mem ∧
      t.usl.txBank = bitAt (s.byte (0x20000000 + s.get F.USL_TXBASE_ADDR)).toNat 0)) ∧
  (∀ (s : State),
    coreStopped s = false →
    (s.on F.USL_CTRL_EN = false ∨ (onCycle s = false ∧ (s.get F.USL_STAT_STATE ≠ 1 ∨ s.tick < s.usl.listenSince + cycleTicks s))) →
    exec .usileCycleStart s = .next s) ∧
  (∀ (s : State) (k : UslEnt),
    coreStopped s = false →
    (s.on F.USL_CTRL_EN = true ∧ s.on F.USL_CTRL_MON = false ∧ s.get F.USL_STAT_STATE = 2) →
    (uslEnabled s k = true ∧ slotOf s k = .none) →
    payloadAddr s k + 20 ≤ 0x20300000 →
    (s.bit F.USL_CTRL_CHEN (s.get (F.USL_ENTA_CH k)) = true → channelBusy s (s.get (F.USL_ENTA_CH k)) = false →
      startTaken s k = false →
      ∃ t, exec (.pollStart k true) s = .next t ∧ slotOf t k = .polling s.tick ∧ t.regs = s.regs ∧ t.mem = s.mem ∧
      Tab.get (fun _ => []) t.usl.polls (s.get (F.USL_ENTA_CH k)) = pollFrame s k ∧
      (pollFrame s k).length = 6 + s.get (F.USL_ENTA_TLEN k)) ∧
      (s.bit F.USL_CTRL_CHEN (s.get (F.USL_ENTA_CH k)) = false ∨ channelBusy s (s.get (F.USL_ENTA_CH k)) = true ∨ startTaken s k = true →
      ∃ t, exec (.pollStart k true) s = .next t ∧ slotOf t k = .failed 5 ∧ t.mem = s.mem ∧
      (s.get F.USL_CNT2_SKIPCNT < 255 → t.get F.USL_CNT2_SKIPCNT = s.get F.USL_CNT2_SKIPCNT + 1)) ∧
      ∃ t, exec (.pollStart k false) s = .next t ∧ slotOf t k = .failed 5 ∧ t.mem = s.mem ∧
      (s.get F.USL_CNT2_SKIPCNT < 255 → t.get F.USL_CNT2_SKIPCNT = s.get F.USL_CNT2_SKIPCNT + 1)) ∧
  (∀ (s : State) (k : UslEnt) (t0 : Nat),
    coreStopped s = false →
    slotOf s k = .polling t0 →
    t0 + pollTicks s k ≤ s.tick →
    ∃ t, exec (.pollEnd k) s = .next t ∧ slotOf t k = .waiting s.tick ∧ t.regs = s.regs ∧ t.mem = s.mem ∧
      ∀ j : UslEnt, j ≠ k → slotOf t j = slotOf s j) ∧
  (∀ (s : State) (k : UslEnt) (t0 : Nat),
    coreStopped s = false →
    (slotOf s k = .polling t0 ∧ s.tick < t0 + pollTicks s k) →
    exec (.pollEnd k) s = .next s) ∧
  (∀ (s : State) (k : UslEnt) (rep : UslReply) (w t0 : Nat) (h : UslHeard),
    coreStopped s = false →
    slotOf s k = .waiting w →
    (heardAs s k rep h ∧ h.start = some t0 ∧ endsInCycle s k h.ends = true) →
    (s.get (F.USL_ENTW_WLO k) * bitTicks s (s.get (F.USL_ENTA_CH k)) ≤ t0 ∧ t0 ≤ s.get (F.USL_ENTW_WHI k) * bitTicks s (s.get (F.USL_ENTA_CH k))) →
    (h.ok = true ∧ h.bytes.length = 4 + s.get (F.USL_ENTA_RLEN k) ∧
      beBytes2 (crc16 (h.bytes.take (2 + s.get (F.USL_ENTA_RLEN k)))) = h.bytes.drop (2 + s.get (F.USL_ENTA_RLEN k)) ∧
      (h.bytes.getD 0 0).toNat = 128 + s.get (F.USL_ENTA_ADDR k)) →
    recordAddr s (fillBank s) k + 44 ≤ 0x20300000 →
    ∃ t, exec (.replyReceived k rep) s = .next t ∧ slotOf t k = .fresh ∧ t.regs = s.regs ∧
      t.mem = (s.setBytes (recordAddr s (fillBank s) k) (replyRecord s k h.bytes)).mem ∧ ∀ j : UslEnt, j ≠ k → slotOf t j = slotOf s j) ∧
  (∀ (s : State) (k : UslEnt) (rep : UslReply) (w c t0 : Nat) (h : UslHeard),
    coreStopped s = false →
    (slotOf s k = .waiting w ∧ s.get (F.USL_ENTA_CH k) = c) →
    (heardAs s k rep h ∧ h.start = some t0) →
    (t0 < s.get (F.USL_ENTW_WLO k) * bitTicks s c ∨ s.get (F.USL_ENTW_WHI k) * bitTicks s c < t0 ∨ endsInCycle s k h.ends = false →
      ∃ t, exec (.replyReceived k rep) s = .next t ∧ slotOf t k = .failed 2 ∧ t.mem = s.mem ∧
      (s.get (F.USL_CNT_WINCNT c) < 255 → t.get (F.USL_CNT_WINCNT c) = s.get (F.USL_CNT_WINCNT c) + 1)) ∧
      (s.get (F.USL_ENTW_WLO k) * bitTicks s c ≤ t0 → t0 ≤ s.get (F.USL_ENTW_WHI k) * bitTicks s c → endsInCycle s k h.ends = true →
      (h.ok = false ∨ h.bytes.length ≠ 4 + s.get (F.USL_ENTA_RLEN k) → ∃ t, exec (.replyReceived k rep) s = .next t ∧
      slotOf t k = .failed 4 ∧ t.mem = s.mem ∧ (s.get (F.USL_CNT_FRMCNT c) < 255 → t.get (F.USL_CNT_FRMCNT c) = s.get (F.USL_CNT_FRMCNT c) + 1)) ∧
      (h.ok = true → h.bytes.length = 4 + s.get (F.USL_ENTA_RLEN k) →
      beBytes2 (crc16 (h.bytes.take (2 + s.get (F.USL_ENTA_RLEN k)))) ≠ h.bytes.drop (2 + s.get (F.USL_ENTA_RLEN k)) →
      ∃ t, exec (.replyReceived k rep) s = .next t ∧ slotOf t k = .failed 3 ∧ t.mem = s.mem ∧
      (s.get (F.USL_CNT_CRCCNT c) < 255 → t.get (F.USL_CNT_CRCCNT c) = s.get (F.USL_CNT_CRCCNT c) + 1)))) ∧
  (∀ (s : State) (k : UslEnt) (w c : Nat),
    coreStopped s = false →
    (slotOf s k = .waiting w ∧ s.get (F.USL_ENTA_CH k) = c) →
    ∃ t, exec (.replyWindowTimeout k) s = .next t ∧ slotOf t k = .failed 1 ∧ t.mem = s.mem ∧
      (s.get (F.USL_CNT_TMOCNT c) < 255 → t.get (F.USL_CNT_TMOCNT c) = s.get (F.USL_CNT_TMOCNT c) + 1)) ∧
  (∀ (s : State) (c : Nat),
    coreStopped s = false →
    (s.on F.USL_CTRL_EN = true ∧ onCycle s = true) →
    (s.usl.cycleAt = some c ∧ c < s.tick) →
    s.get F.USL_RXBASE_ADDR + 4 ≤ 0x300000 →
    ∃ t, exec .usileCycleEnd s = .next t ∧ t.get F.USL_CYCSEQ_CYCSEQ = (s.get F.USL_CYCSEQ_CYCSEQ + 1) % 2 ^ 32 ∧ t.usl.slots = [] ∧
      (t.memWord (0x20000000 + s.get F.USL_RXBASE_ADDR)).toNat = t.get F.USL_CYCSEQ_CYCSEQ ∧
      t.get F.USL_SHEET_NENT = (uslEntries s).length ∧ t.get F.USL_SHEET_POLLS + t.get F.USL_SHEET_SKIPS = t.get F.USL_SHEET_NENT ∧
      t.get F.USL_SHEET_POLLS = ((uslEntries s).filter (fun k => (slotOf s k).polled)).length) ∧
  (∀ (s : State),
    coreStopped s = false →
    (s.on F.USL_CTRL_EN = false ∨ onCycle s = false) →
    exec .usileCycleEnd s = .next s) ∧
  (∀ (s : State) (c : Fin 2) (rb : Bool),
    coreStopped s = false →
    (s.get F.USL_STAT_STATE = 1 ∨ s.get F.USL_STAT_STATE = 2) →
    s.on F.USL_CTRL_MON = false →
    ∃ t, exec (.secondMasterDetected c rb) s = .next t ∧ t.on F.USL_STAT_DUPM = true ∧ t.usl.dups = s.usl.dups + 1 ∧
      (s.get F.USL_CNT2_DUPCNT < 255 → t.get F.USL_CNT2_DUPCNT = s.get F.USL_CNT2_DUPCNT + 1) ∧
      (s.usl.dups < 2 → t.get F.USL_STAT_STATE = 3 ∧ t.on F.USL_STAT_DUPSTOP = s.on F.USL_STAT_DUPSTOP) ∧
      (2 ≤ s.usl.dups → t.get F.USL_STAT_STATE = 0 ∧ t.on F.USL_STAT_DUPSTOP = true) ∧
      (∀ k : UslEnt, (slotOf t k).sending = false ∧ (overOf t k).sending = false) ∧ (rb = true → t.bit F.USL_STAT_COLL c = true) ∧ t.mem = s.mem) ∧
  (∀ (s : State),
    coreStopped s = false →
    (s.get F.USL_STAT_STATE = 3 → s.usl.listenSince + (1 + 2 * laneId s) * (s.get F.USL_CYC_CYCT * 20) ≤ s.tick → ∃ t, exec .deferEnd s = .next t ∧ t.get F.USL_STAT_STATE = 1 ∧ t.usl.listenSince = s.tick ∧ t.usl.dups = s.usl.dups ∧
      t.mem = s.mem) ∧ (s.get F.USL_STAT_STATE ≠ 3 ∨ s.tick < s.usl.listenSince + (1 + 2 * laneId s) * (s.get F.USL_CYC_CYCT * 20) → exec .deferEnd s = .next s)) ∧
  (∀ (s : State) (c : Fin 2) (adr : BitVec 7) (cmd : BitVec 4),
    coreStopped s = false →
    (s.on F.USL_CTRL_EN = true ∧ s.on F.USL_CTRL_MON = true ∧ s.get F.USL_STAT_STATE = 2) →
    (∀ k : UslEnt, s.bit F.USL_CTRL_CHEN c = true → uslEnabled s k = true → s.get (F.USL_ENTA_CH k) = c.val → s.get (F.USL_ENTA_ADDR k) = adr.toNat →
      s.get (F.USL_ENTA_CMD k) = cmd.toNat →
      (∀ j : UslEnt, j < k → uslEnabled s j = true → s.get (F.USL_ENTA_CH j) = c.val → s.get (F.USL_ENTA_ADDR j) = adr.toNat →
      s.get (F.USL_ENTA_CMD j) ≠ cmd.toNat) →
      ∃ t, exec (.pollObserved c adr cmd) s = .next t ∧ slotOf t k = (if (slotOf s k).err = 0 then .again s.tick else .waiting s.tick) ∧ t.regs = s.regs ∧ t.mem = s.mem) ∧
      (s.bit F.USL_CTRL_CHEN c = false → exec (.pollObserved c adr cmd) s = .next s) ∧
      ((∀ k : UslEnt, uslEnabled s k = true → s.get (F.USL_ENTA_CH k) = c.val → s.get (F.USL_ENTA_ADDR k) = adr.toNat →
      s.get (F.USL_ENTA_CMD k) ≠ cmd.toNat) → exec (.pollObserved c adr cmd) s = .next s)) ∧
  (∀ (s : State) (k : UslEnt) (rep : UslReply) (c : Nat),
    coreStopped s = false →
    (slotOf s k = .none ∧ (overOf s k).window = true ∧ s.get (F.USL_ENTA_CH k) = c) →
    fallsFrom true 0 rep.line ≠ [] →
    (∃ t, exec (.replyReceived k rep) s = .next t ∧ overOf t k = .none ∧ t.mem = s.mem ∧
      (s.get (F.USL_CNT_WINCNT c) < 255 → t.get (F.USL_CNT_WINCNT c) = s.get (F.USL_CNT_WINCNT c) + 1)) ∧
      ∃ t, exec (.replyWindowTimeout k) s = .next t ∧ overOf t k = .failed 1 ∧ t.mem = s.mem ∧
      (s.get (F.USL_CNT_TMOCNT c) < 255 → t.get (F.USL_CNT_TMOCNT c) = s.get (F.USL_CNT_TMOCNT c) + 1)) ∧
  (∀ (s : State),
    coreStopped s = true →
    (∀ (x0 : Bool) (x1 : Bool), exec (.usileEnable x0 x1) s = .next s) ∧
      exec .usileCycleStart s = .next s ∧
      (∀ (x0 : UslEnt) (x1 : Bool), exec (.pollStart x0 x1) s = .next s) ∧
      (∀ (x0 : UslEnt), exec (.pollEnd x0) s = .next s) ∧
      (∀ (x0 : UslEnt) (x1 : UslReply), exec (.replyReceived x0 x1) s = .next s) ∧
      (∀ (x0 : UslEnt), exec (.replyWindowTimeout x0) s = .next s) ∧
      exec .usileCycleEnd s = .next s ∧
      (∀ (x0 : Fin 2) (x1 : Bool), exec (.secondMasterDetected x0 x1) s = .next s) ∧
      exec .deferEnd s = .next s ∧
      (∀ (x0 : Fin 2) (x1 : BitVec 7) (x2 : BitVec 4), exec (.pollObserved x0 x1 x2) s = .next s)) ∧
  ((∀ (s : State) (x0 : Bool) (x1 : Bool), ∃ t, exec (.usileEnable x0 x1) s = .next t ∧ t.pending = s.pending) ∧
      (∀ (s : State), ∃ t, exec .usileCycleStart s = .next t ∧ t.pending = s.pending) ∧
      (∀ (s : State) (x0 : UslEnt) (x1 : Bool), ∃ t, exec (.pollStart x0 x1) s = .next t ∧ t.pending = s.pending) ∧
      (∀ (s : State) (x0 : UslEnt), ∃ t, exec (.pollEnd x0) s = .next t ∧ t.pending = s.pending) ∧
      (∀ (s : State) (x0 : UslEnt) (x1 : UslReply), ∃ t, exec (.replyReceived x0 x1) s = .next t ∧ t.pending = s.pending) ∧
      (∀ (s : State) (x0 : UslEnt), ∃ t, exec (.replyWindowTimeout x0) s = .next t ∧ t.pending = s.pending) ∧
      (∀ (s : State), ∃ t, exec .usileCycleEnd s = .next t ∧ t.pending = s.pending) ∧
      (∀ (s : State) (x0 : Fin 2) (x1 : Bool), ∃ t, exec (.secondMasterDetected x0 x1) s = .next t ∧ t.pending = s.pending) ∧
      (∀ (s : State), ∃ t, exec .deferEnd s = .next t ∧ t.pending = s.pending) ∧
      (∀ (s : State) (x0 : Fin 2) (x1 : BitVec 7) (x2 : BitVec 4), ∃ t, exec (.pollObserved x0 x1 x2) s = .next t ∧ t.pending = s.pending))

/-- A well-formed packet joins its pool, one for which no credit is left is discarded and counted, a faulty one gets its fault status; a retry gets a copy of the reply it lost. A read returns the oldest reply and consumes it only in full. The application's answer or its time-out answers the request in the mailbox, and of the requests that wait behind it the one accepted first takes the mailbox next; an answer to a request that timed out sets APPLATE and answers nothing; a STATUS that R543 does not list is not relayed. The time master sends the time at which its frame before was completed; a slave steps once and then steers its rate, from the rate errors of its last 8 intervals (how is log entry 105). While the PLL-clocked blocks stand (RESET_N low, SLEEP or deeper, no always-on supply, held by a sentinel trip) the commands of those blocks change nothing (R546, R583, R604). -/
def Obligations.HostTransports : Prop :=
  (∀ (s : State) (ty : Byte) (l : List Byte),
    (s.on F.HOST_CTRL_EN = true ∧ s.get F.PWR_STAT_STATE < 2) →
    (ty ≠ 0xA5 ∧ ty ≠ 0x5A) →
    ∃ t, exec (.spiWriteTransaction (ty :: l)) s = .next t ∧ t.on F.HOST_STAT_BADTYPE = true ∧ (∀ c, channel t c = channel s c) ∧
      t.host.sentBytes.head? = some (hstat s) ∧ t.mem = s.mem) ∧
  (∀ (s : State) (l : List Byte),
    (s.on F.HOST_CTRL_EN = true ∧ issues s .s = true) →
    l.length < 4 →
    ∃ t, exec (.spiWriteTransaction (0xA5 :: l)) s = .next t ∧ t.on F.HOST_STAT_SHORT = true ∧ (∀ c, channel t c = channel s c) ∧ t.mem = s.mem) ∧
  (∀ (s : State) (l : List Byte),
    (s.on F.HOST_CTRL_EN = true ∧ issues s .s = true) →
    4 ≤ l.length →
    8 ≤ heldOn s .spi →
    ∃ t, exec (.spiWriteTransaction (0xA5 :: l)) s = .next t ∧ t.on F.HOST_STAT_OVR = true ∧ (∀ c, channel t c = channel s c) ∧
      (s.get F.HOST_CNT_OVRCNT < 255 → t.get F.HOST_CNT_OVRCNT = s.get F.HOST_CNT_OVRCNT + 1) ∧ t.mem = s.mem) ∧
  (∀ (s : State) (op seq flags : Byte) (d pad : List Byte),
    (s.on F.HOST_CTRL_EN = true ∧ issues s .s = true) →
    (heldOn s .spi < 8 ∧ d.length ≤ 248) →
    (∀ p ∈ (channel s .spi).waiting, p.decided = none ∧ p.seq ≠ seq) →
    (∀ r ∈ (channel s .spi).replies, r.seq ≠ seq) →
    (knownOps.contains op.toNat = true ∧ bitAt flags.toNat 0 = false) →
    ∃ t, exec (.spiWriteTransaction (0xA5 :: ([op, BitVec.ofNat 8 d.length, seq, flags] ++ d ++
      leBytes 4 (crc32 ([op, BitVec.ofNat 8 d.length, seq, flags] ++ d)) ++ pad))) s = .next t ∧
      (channel t .spi).waiting = (channel s .spi).waiting ++ [⟨op, seq, d, none, false, s.host.accepted⟩] ∧ t.host.accepted = s.host.accepted + 1 ∧ (channel t .spi).replies = (channel s .spi).replies ∧
      t.get F.HOST_SEQ_SEQS = seq.toNat ∧ heldOn t .spi = heldOn s .spi + 1 ∧ t.get F.HOST_STAT_HELDS = heldOn s .spi + 1 ∧ t.mem = s.mem) ∧
  (∀ (s : State) (l : List Byte),
    (s.on F.HOST_CTRL_EN = true ∧ issues s .s = true) →
    ((channel s .spi).waiting = [] ∧ heldOn s .spi < 8 ∧ 4 ≤ l.length) →
    ∃ t, (248 < (l.getD 1 0).toNat → exec (.spiWriteTransaction (0xA5 :: l)) s = .next t ∧
      (channel t .spi).replies = (channel s .spi).replies ++ [⟨l.getD 0 0, l.getD 2 0, 0x81, []⟩]) ∧
      ((l.getD 1 0).toNat ≤ 248 → l.length < 8 + (l.getD 1 0).toNat → exec (.spiWriteTransaction (0xA5 :: l)) s = .next t ∧
      (channel t .spi).replies = (channel s .spi).replies ++ [⟨l.getD 0 0, l.getD 2 0, 0x82, []⟩]) ∧
      ((l.getD 1 0).toNat ≤ 248 → 8 + (l.getD 1 0).toNat ≤ l.length →
      crc32 (l.take (4 + (l.getD 1 0).toNat)) ≠ bytesAt l (4 + (l.getD 1 0).toNat) 4 → exec (.spiWriteTransaction (0xA5 :: l)) s = .next t ∧
      (channel t .spi).replies = (channel s .spi).replies ++ [⟨l.getD 0 0, l.getD 2 0, 0x80, []⟩] ∧ t.on F.HOST_STAT_CRCERR = true)) ∧
  (∀ (s : State) (op seq : Byte) (r : Reply),
    (s.on F.HOST_CTRL_EN = true ∧ issues s .s = true) →
    ((channel s .spi).waiting = [] ∧ heldOn s .spi < 8) →
    (∀ q ∈ (channel s .spi).replies, q.seq ≠ seq) →
    ((channel s .spi).past.find? (fun q => q.seq == seq && q.op == op) = some r) →
    ∃ t, exec (.spiWriteTransaction (0xA5 :: ([op, 0, seq, 1] ++ leBytes 4 (crc32 [op, 0, seq, 1])))) s = .next t ∧
      (channel t .spi).replies = (channel s .spi).replies ++ [⟨op, seq, r.status, r.payload⟩] ∧ (channel t .spi).waiting = [] ∧ t.mem = s.mem) ∧
  (∀ (s : State) (n : Nat) (r : Reply) (rest : List Reply),
    (s.on F.HOST_CTRL_EN = true ∧ s.get F.PWR_STAT_STATE < 2) →
    (channel s .spi).replies = r :: rest →
    (((replyBytes (heldOn s .spi - 1) r).length ≤ n → ∃ t, exec (.spiReadTransaction n) s = .next t ∧ (channel t .spi).replies = rest ∧
      (channel t .spi).past.head? = some r ∧ t.host.sentBytes.length = n + 1 ∧
      t.host.sentBytes.take (1 + (replyBytes (heldOn s .spi - 1) r).length) = hstat s :: replyBytes (heldOn s .spi - 1) r) ∧
      (n < (replyBytes (heldOn s .spi - 1) r).length → ∃ t, exec (.spiReadTransaction n) s = .next t ∧ channel t .spi = channel s .spi ∧
      t.host.sentBytes = hstat s :: (replyBytes (heldOn s .spi - 1) r).take n))) ∧
  (∀ (s : State) (n : Nat),
    (s.on F.HOST_CTRL_EN = true ∧ s.get F.PWR_STAT_STATE < 2) →
    (channel s .spi).replies = [] →
    ∃ t, exec (.spiReadTransaction n) s = .next t ∧ t.host.sentBytes = hstat s :: List.replicate n 0 ∧ channel t .spi = channel s .spi ∧ t.regs = s.regs) ∧
  (∀ (s : State) (n : Nat) (l : List Byte),
    (s.on F.HOST_CTRL_EN = false ∨ 2 ≤ s.get F.PWR_STAT_STATE) →
    ∃ t, exec (.spiWriteTransaction l) s = .next t ∧ exec (.spiReadTransaction n) s = .next t ∧ t.host.sentBytes = [] ∧ t.host.chan = s.host.chan ∧ t.regs = s.regs) ∧
  (∀ (s : State) (n : Fin 2) (op seq : Byte) (d pad : List Byte),
    (canCommands s = true ∧ hostTakes s = true ∧ d.length ≤ 56) →
    (channel s (if n = 0 then .c0 else .c1) = ⟨[], [], []⟩ ∧ knownOps.contains op.toNat = true) →
    ∃ t, exec (.canCommandFrame n ([op, BitVec.ofNat 8 d.length, seq, 0] ++ d ++
      leBytes 4 (crc32 ([op, BitVec.ofNat 8 d.length, seq, 0] ++ d)) ++ pad)) s = .next t ∧
      channel t (if n = 0 then .c0 else .c1) = ⟨[⟨op, seq, d, none, false, s.host.accepted⟩], [], []⟩ ∧ t.mem = s.mem) ∧
  (∀ (s : State) (n : Fin 2) (l : List Byte),
    canCommands s = false →
    exec (.canCommandFrame n l) s = .next s) ∧
  (∀ (s : State) (i : Fin 3) (rest : List (Fin 3)) (p : Packet),
    coreStopped s = false →
    (s.host.mbox = i :: rest ∧ (channel s (chanOfIx i)).waiting.head? = some p) →
    (∃ t, exec .mailboxTimeout s = .next t ∧ answered (chanOfIx i) p 0x84 [] s t ∧ (∀ j ∈ rest, j ∈ t.host.mbox) ∧
      (i ∉ rest → rest.Pairwise (fun a b => headOrder s a ≤ headOrder s b) → ∀ k, t.host.mbox.head? = some k → ∀ j ∈ t.host.mbox, headOrder t k ≤ headOrder t j) ∧
      t.host.late = s.memWord (mboxBase s) :: s.host.late) ∧
      (s.host.late.contains (s.memWord (mboxBase s + 256)) = false ∨ s.memWord (mboxBase s + 256) = s.memWord (mboxBase s) →
      ∃ t n, exec .mailboxAck s = .next t ∧ (∀ j ∈ rest, j ∈ t.host.mbox) ∧
      (i ∉ rest → rest.Pairwise (fun a b => headOrder s a ≤ headOrder s b) → ∀ k, t.host.mbox.head? = some k → ∀ j ∈ t.host.mbox, headOrder t k ≤ headOrder t j) ∧
      n = min (replyRoom (chanOfIx i)) (s.byte (mboxBase s + 261)).toNat ∧
      answered (chanOfIx i) p (statusRelayed s (s.byte (mboxBase s + 260)).toNat) (s.bytes (mboxBase s + 264) n) s t) ∧
      (s.host.late.contains (s.memWord (mboxBase s + 256)) = true → s.memWord (mboxBase s + 256) ≠ s.memWord (mboxBase s) →
      ∃ t, exec .mailboxAck s = .next t ∧ t.host.mbox = s.host.mbox ∧ t.host.chan = s.host.chan ∧ t.on F.HOST_STAT_APPLATE = true ∧
      t.host.late = s.host.late.filter (· != s.memWord (mboxBase s + 256)) ∧ t.mem = s.mem)) ∧
  (∀ (s : State) (n : Nat),
    n < 256 →
    (statusCodes.contains n = true → statusRelayed s n = n) ∧ statusCodes.contains (statusRelayed s n) = true) ∧
  (∀ (s : State),
    coreStopped s = false →
    s.host.mbox = [] →
    (exec .mailboxTimeout s = .next s) ∧ ∃ t, exec .mailboxAck s = .next t ∧ t.host.chan = s.host.chan ∧
      t.on F.HOST_STAT_APPLATE = (s.on F.HOST_STAT_APPLATE || !s.host.late.isEmpty)) ∧
  (∀ (s : State),
    coreStopped s = false →
    exec .sessionTimeout s = .next (s.put F.HOST_STAT_SESSION 0)) ∧
  (∀ (s : State),
    (∃ t, exec (.challengeLapse .release) s = .next t ∧ t.keep.relChal = none ∧ t.on F.KEEP_AUTH_CHALREL = false ∧ t.keep.dbgChal = s.keep.dbgChal) ∧
      ∃ t, exec (.challengeLapse .debug) s = .next t ∧ t.keep.dbgChal = none ∧ t.on F.KEEP_AUTH_CHALDBG = false ∧ t.keep.relChal = s.keep.relChal) ∧
  (∀ (s : State) (c : Transport) (p : Packet),
    (inTurn c p s ∧ (p.op = 0x40 ∨ p.op = 0x41)) →
    ∃ t, exec (.supervisorReplyTimeout c) s = .next t ∧ answered c p 0x84 [] s t ∧ (p.op = 0x41 → t.safe.armed = none ∧ t.on F.SAFE_STAT_ARMED = false)) ∧
  (∀ (s : State) (n : Fin 2) (sec ns : Word) (k : Fin 32) (c : CanCtl),
    coreStopped s = false →
    (s.on F.TIME_CTRL_EN = true ∧ s.on F.TIME_CTRL_MASTER = true) →
    (c.val = n.val ∧ k.val = s.get F.TIME_SYNC_TOBJ % 32 ∧ s.on (F.CAN_TSTAT_TXREQ c k) = false) →
    ∃ t, exec (.syncSend n sec ns) s = .next t ∧ t.on (F.CAN_TSTAT_TXREQ c k) = true ∧ t.mem = s.mem ∧
      (canObj t c (96 + k.val)).id.toNat = s.get F.TIME_SYNC_SYNCID % 2 ^ 11 * 2 ^ 18 ∧
      (∀ x q, (if n = 0 then s.time.txAt0 else s.time.txAt1) = some x → (if n = 0 then s.time.txSeq0 else s.time.txSeq1) = some q →
      (canObj t c (96 + k.val)).bytes.take 12 =
      [q + 1, 1, 0, 0] ++ leBytes 4 (stampNear x sec ns).1.toNat ++ leBytes 4 (stampNear x sec ns).2.toNat) ∧
      ((if n = 0 then s.time.txAt0 else s.time.txAt1) = none → (canObj t c (96 + k.val)).bytes.take 12 =
      (match (if n = 0 then s.time.txSeq0 else s.time.txSeq1) with | some q => q + 1 | none => 0) :: List.replicate 11 0)) ∧
  (∀ (s : State) (n : Fin 2) (f : SyncFrame) (a b : Word) (e : Int),
    coreStopped s = false →
    s.on F.TIME_CTRL_MASTER = true →
    ∃ t, exec (.syncSample n f a b e) s = .next t ∧ t.regs = s.regs ∧ t.mem = s.mem) ∧
  (∀ (s : State) (f : SyncFrame) (a b : Word) (e : Int) (m : SyncMark),
    coreStopped s = false →
    (s.on F.TIME_CTRL_MASTER = false ∧ s.on F.TIME_CTRL_NET = false) →
    (s.time.mark0 = some m ∧ f.pvalid = true ∧ f.seq = m.seq + 1 ∧ s.time.rates.length ≤ 8) →
    s.on F.TIME_STAT_STEPPED = true →
    ∃ t, exec (.syncSample 0 f a b e) s = .next t ∧ (t.getS F.TIME_RATE_RATE).natAbs ≤ 858993 ∧ t.time.missed = 0 ∧
      t.time.rates.length ≤ 8 ∧ (∀ e0, s.time.lastE = some e0 → s.time.rates.length < 8 → t.time.rates.tail = s.time.rates) ∧ t.time.lastE = some (timeDiff f.sec f.ns m.sec m.ns) ∧
      t.get F.TIME_NS_NS = s.get F.TIME_NS_NS ∧ t.time.sec = s.time.sec ∧
      (2000 < (timeDiff f.sec f.ns m.sec m.ns).natAbs → t.on F.TIME_CTRL_LOCKED = false ∧ t.time.inBand = 0) ∧
      ((timeDiff f.sec f.ns m.sec m.ns).natAbs ≤ 2000 → 3 ≤ s.time.inBand → t.on F.TIME_CTRL_LOCKED = true)) ∧
  (∀ (s : State) (f : SyncFrame) (a b : Word) (e : Int) (m : SyncMark),
    coreStopped s = false →
    (s.on F.TIME_CTRL_MASTER = false ∧ s.on F.TIME_CTRL_NET = false) →
    (s.time.mark0 = some m ∧ f.pvalid = true ∧ f.seq = m.seq + 1) →
    s.on F.TIME_STAT_STEPPED = false →
    ∃ t, exec (.syncSample 0 f a b e) s = .next t ∧ t.on F.TIME_STAT_STEPPED = true ∧
      t.get F.TIME_NS_NS = (((s.get F.TIME_NS_NS : Int) + timeDiff f.sec f.ns m.sec m.ns) % 1000000000).toNat) ∧
  (∀ (s : State),
    coreStopped s = false →
    s.on F.TIME_CTRL_MASTER = false →
    ∃ t, exec .syncTimeout s = .next t ∧ t.time.missed = s.time.missed + 1 ∧
      (s.get F.TIME_CNT_MISSCNT < 255 → t.get F.TIME_CNT_MISSCNT = s.get F.TIME_CNT_MISSCNT + 1) ∧
      (s.time.missed = 1 → t.on F.TIME_CTRL_NET = true) ∧ (3 ≤ s.time.missed → t.on F.TIME_CTRL_LOCKED = false) ∧
      (s.time.missed = 0 → t.on F.TIME_CTRL_NET = s.on F.TIME_CTRL_NET ∧ t.on F.TIME_CTRL_LOCKED = s.on F.TIME_CTRL_LOCKED)) ∧
  (∀ (s : State),
    coreStopped s = true →
    (∀ (x0 : Fin 2) (x1 : Word) (x2 : Word), exec (.syncSend x0 x1 x2) s = .next s) ∧
      (∀ (x0 : Fin 2) (x1 : SyncFrame) (x2 : Word) (x3 : Word) (x4 : Int), exec (.syncSample x0 x1 x2 x3 x4) s = .next s) ∧
      exec .syncTimeout s = .next s ∧
      exec .mailboxAck s = .next s ∧
      exec .mailboxTimeout s = .next s ∧
      exec .sessionTimeout s = .next s)

/-- Each packet in turn receives one reply with its STATUS and the result that R542 lays out; a packet that a general refusal meets is answered with that code, and one whose execution a fault of the service firmware ends is answered INTERNAL with nothing executed (R543). The model's choices: FAULTS reads zeros of a driver whose link is lost (log entry 58), the byte orders of what no rule gives (log entry 60), the limits of REELREAD and LEDGER (log entry 68) and AUTH to the vendor opcodes (log entry 73). Complete, that is exec answers a next state, with the queue as it was, from every state and with every operand: NOP, INFO, ECHO, LANESTAT, READREG, FAULTS, POSITION, SAFESTAT, TIMEGET, TIMESET, REELREAD, LOGREAD, LEDGER, ATTEST, MEASURE, PWRGET, WAKEREC, VENDOR_SERVICE. -/
def Obligations.OpcodesThatRead : Prop :=
  (∀ (s : State) (c : Transport) (p : Packet),
    (inTurn c p s ∧ p.op = 0x0) →
    ∃ t, exec (.nop (.ok c)) s = .next t ∧ answered c p 0 [] s t ∧ t.mem = s.mem) ∧
  (∀ (s : State) (c : Transport) (p : Packet),
    inTurn c p s →
    (p.op = 0x00 → ∃ t, exec (.nop ⟨c, .internal⟩) s = .next t ∧ answered c p 0x86 [] s t ∧ t.mem = s.mem) ∧
      (p.op = 0x11 → ∃ t, exec (.readreg ⟨c, .internal⟩) s = .next t ∧ answered c p 0x86 [] s t ∧ t.mem = s.mem) ∧
      (p.op = 0x13 → ∃ t, exec (.position ⟨c, .internal⟩) s = .next t ∧ answered c p 0x86 [] s t ∧ t.mem = s.mem) ∧
      (p.op = 0x60 → ∃ t, exec (.reelread ⟨c, .internal⟩) s = .next t ∧ answered c p 0x86 [] s t ∧ t.mem = s.mem) ∧
      (p.op = 0x70 → ∃ t, exec (.attest ⟨c, .internal⟩) s = .next t ∧ answered c p 0x86 [] s t ∧ t.mem = s.mem)) ∧
  (∀ (s : State) (c : Transport) (p : Packet),
    (inTurn c p s ∧ p.op = 0x3) →
    ∃ t, exec (.info (.ok c)) s = .next t ∧ answered c p 0 (leBytes 2 0x3620 ++ [0x43, 1] ++ leBytes 4 Config.serviceVersion.toNat ++ leBytes 2 (s.get F.SEAL_STRAP_WORD) ++
      [BitVec.ofNat 8 (s.get F.SAFE_STAT_SEALED), BitVec.ofNat 8 (s.get F.KEEP_STAT_BANK)]) s t ∧ t.mem = s.mem) ∧
  (∀ (s : State) (c : Transport) (p : Packet),
    (inTurn c p s ∧ p.op = 0x4) →
    p.payload.length ≤ replyRoom c →
    ∃ t, exec (.echo (.ok c)) s = .next t ∧ answered c p 0 p.payload s t ∧ t.mem = s.mem) ∧
  (∀ (s : State) (c : Transport) (p : Packet),
    (inTurn c p s ∧ p.op = 0x10) →
    ∃ t, exec (.lanestat (.ok c)) s = .next t ∧ answered c p 0 (laneStatusBytes s ++ [BitVec.ofNat 8 (mcMode s 0), BitVec.ofNat 8 (mcMode s 1)] ++ leBytes 2 (s.get F.SAFE_CAUSE_CAUSE)) s t ∧ (laneStatusBytes s).length = 14 ∧ t.mem = s.mem) ∧
  (∀ (s : State) (c : Transport) (p : Packet) (a n : Nat),
    (inTurn c p s ∧ p.op = 0x11 ∧ a = bytesAt p.payload 0 4 ∧ n = bytesAt p.payload 4 1) →
    ((∃ i, i < n ∧ regPermitted .s (a + 4 * i) false = false) ∨ n = 0 → ∃ t, exec (.readreg (.ok c)) s = .next t ∧ answered c p 0x43 [] s t) ∧
      (n = 1 → regPermitted .s a false = true → ∃ t, exec (.readreg (.ok c)) s = .next t ∧ answered c p 0 (leBytes 4 (registerRead .s a s).bus.data.toNat) s t)) ∧
  (∀ (s : State) (c : Transport) (p : Packet),
    (inTurn c p s ∧ p.op = 0x43) →
    ∃ t, exec (.safestat (.ok c)) s = .next t ∧ answered c p 0 (leBytes 4 (s.rd 0x40014000).toNat ++ leBytes 4 (s.rd 0x40014004).toNat ++ leBytes 4 (s.rd 0x40014010).toNat) s t ∧ t.mem = s.mem) ∧
  (∀ (s : State) (c : Transport) (p : Packet),
    (inTurn c p s ∧ p.op = 0x12) →
    ∃ t, exec (.faults (.ok c)) s = .next t ∧ answered c p 0 (leBytes 4 (s.rd 0x40014004).toNat ++ leBytes 4 (s.rd 0x40014010).toNat ++ leBytes 4 (s.rd F.DBL_STAT_RUN.addr).toNat ++
      leBytes 4 (hleStat s).toNat ++ leBytes 4 (if s.sys.linkLost then 0 else (s.rd 0x4000E004).toNat) ++
      leBytes 4 (if s.sys.linkLost then 0 else (s.rd 0x4000F004).toNat)) s t ∧ t.mem = s.mem) ∧
  (∀ (s : State) (c : Transport) (p : Packet) (k : PosBlk),
    (inTurn c p s ∧ p.op = 0x13 ∧ bytesAt p.payload 0 1 = k.val) →
    ∃ t, exec (.position (.ok c)) s = .next t ∧ answered c p 0 (leBytes 4 (s.rd (F.POS_MT_MT k).addr).toNat ++
      leBytes 4 (s.rd (F.POS_MECH_MECH k).addr).toNat ++
      leBytes 4 (s.rd (F.POS_SPEED_SPEED k).addr).toNat ++
      [BitVec.ofNat 8 (s.get (F.POS_STAT_MTVALID k) + 2 * s.get (F.POS_STAT_UNCERT k) + 4 * s.get (F.POS_STAT_HOMED k) + 8 * s.get (F.POS_STAT_LOWCONF k))]) s t) ∧
  (∀ (s : State) (c : Transport) (p : Packet),
    (inTurn c p s ∧ p.op = 0x50) →
    ∃ t, exec (.timeget (.ok c)) s = .next t ∧ answered c p 0 (leBytes 4 s.time.sec.toNat ++ leBytes 4 (s.rd addrTimeNs).toNat ++ leBytes 4 (s.rd addrTimeRate).toNat ++
      [BitVec.ofNat 8 (s.get F.TIME_CTRL_LOCKED + 2 * s.get F.TIME_STAT_STEPPED + 4 * s.get F.TIME_CTRL_MASTER)]) s t ∧ t.mem = s.mem) ∧
  (∀ (s : State) (c : Transport) (p : Packet) (a : Nat),
    (inTurn c p s ∧ p.op = 0x60 ∧ a = bytesAt p.payload 0 2) →
    (bytesAt p.payload 2 1 = 1 → a ≤ 4095 → ∃ t, exec (.reelread (.ok c)) s = .next t ∧
      answered c p 0 (leBytes 2 (if s.get F.BKG_RSEQ_RSEQ = 0 then 0xFFFFFFFE else s.get F.BKG_RSEQ_RSEQ - 1) ++
      s.bytes (0x20000000 + s.get F.BKG_REELBASE_ADDR + 32 * a) 32) s t) ∧
      (4095 < a ∨ bytesAt p.payload 2 1 = 0 ∨ 7 < bytesAt p.payload 2 1 → ∃ t, exec (.reelread (.ok c)) s = .next t ∧ answered c p 0x43 [] s t)) ∧
  (∀ (s : State) (c : Transport) (p : Packet) (a n : Nat),
    (inTurn c p s ∧ p.op = 0x61 ∧ a = bytesAt p.payload 0 4 ∧ n = bytesAt p.payload 4 1) →
    (1 ≤ n ∧ n ≤ 240 ∧ a + n ≤ 0xF0000 → ∃ t, exec (.logread (.ok c)) s = .next t ∧ answered c p 0 (s.bytes (0x11010000 + a) n) s t) ∧
      (n = 0 ∨ 240 < n ∨ 0xF0000 < a + n → ∃ t, exec (.logread (.ok c)) s = .next t ∧ answered c p 0x43 [] s t)) ∧
  (∀ (s : State) (c : Transport) (p : Packet) (i : Nat),
    (inTurn c p s ∧ p.op = 0x62 ∧ i = bytesAt p.payload 0 2) →
    (i < ledgerCount s → ∃ t, exec (.ledger (.ok c)) s = .next t ∧ answered c p 0 (s.bytes (0x11008000 + 32 * i) 32) s t) ∧
      (ledgerCount s ≤ i → ∃ t, exec (.ledger (.ok c)) s = .next t ∧ answered c p 0x43 [] s t)) ∧
  (∀ (s : State) (c : Transport) (p : Packet),
    (inTurn c p s ∧ p.op = 0x70) →
    ∃ t, exec (.attest (.ok c)) s = .next t ∧ answered c p 0 (digestBytes (sm3 (p.payload ++ (List.range 12).flatMap (measureBytes s))) ++
      beBytes 64 (attestSign s.fresh (sm3 (p.payload ++ (List.range 12).flatMap (measureBytes s)))).toNat) s t ∧ t.mem = s.mem) ∧
  (∀ (s : State) (c : Transport) (p : Packet) (i : Nat),
    (inTurn c p s ∧ p.op = 0x71 ∧ i = bytesAt p.payload 0 1) →
    (i ≤ 11 → ∃ t, exec (.measure (.ok c)) s = .next t ∧ answered c p 0 (measureBytes s i) s t) ∧
      (11 < i → ∃ t, exec (.measure (.ok c)) s = .next t ∧ answered c p 0x43 [] s t)) ∧
  (∀ (s : State) (c : Transport) (p : Packet),
    (inTurn c p s ∧ p.op = 0x80) →
    ∃ t, exec (.pwrget (.ok c)) s = .next t ∧ answered c p 0 (BitVec.ofNat 8 (s.get F.PWR_STAT_STATE) :: leBytes 3 (voteWord s)) s t ∧ t.mem = s.mem) ∧
  (∀ (s : State) (c : Transport) (p : Packet),
    (inTurn c p s ∧ p.op = 0x82) →
    (s.on F.PWR_WREC_TVALID = false ∨ s.get F.PWR_WREC_FROM = 4 → ∃ t, exec (.wakerec (.ok c)) s = .next t ∧
      answered c p 0 ([BitVec.ofNat 8 (s.get F.PWR_WREC_SRC), 0, 0, 0] ++ List.replicate 8 0xFF) s t) ∧
      (s.on F.PWR_WREC_TVALID = true → s.get F.PWR_WREC_FROM ≠ 4 → ∃ t sec ns, exec (.wakerec (.ok c)) s = .next t ∧
      answered c p 0 ([BitVec.ofNat 8 (s.get F.PWR_WREC_SRC), 0, 0, 0] ++ leBytes 4 sec ++ leBytes 4 ns) s t ∧ ns < 1000000000 ∧
      sec * 1000000000 + ns = s.get F.PWR_ESEC_SEC * 1000000000 + s.get F.PWR_ENS_NS + 10000 * s.get F.PWR_ELAPSED_ELAPSED)) ∧
  (∀ (s : State) (c : Transport) (p : Packet) (code : Nat),
    ((channel s c).waiting.head? = some p ∧ hostTakes s = true ∧ p.decided = none ∧ p.posted = false) →
    p.op = 0x51 →
    refusal s c 0x51 p.payload.length = some code →
    ∃ t, exec (.timeset (.ok c)) s = .next t ∧ answered c p code [] s t ∧ t.get F.TIME_NS_NS = s.get F.TIME_NS_NS ∧
      (s.on F.KEEP_STAT_STOOD = false → c ≠ .spi → code = 0x44) ∧ (s.on F.KEEP_STAT_STOOD = false → c = .spi → s.on F.HOST_STAT_SESSION = false → code = 0x40) ∧
      (s.on F.KEEP_STAT_STOOD = true → code = 0x4F)) ∧
  (∀ (s : State) (c : Transport) (p : Packet),
    ((channel s c).waiting.head? = some p ∧ hostTakes s = true ∧ p.decided = none ∧ p.posted = false) →
    (0xF0 ≤ p.op.toNat ∧ c = .spi ∧ s.on F.HOST_STAT_SESSION = true ∧ s.on F.KEEP_STAT_STOOD = false) →
    ∃ t, exec (.vendorService (.ok c)) s = .next t ∧ answered c p 0x51 [] s t ∧ t.mem = s.mem) ∧
  ((∀ (s : State) (x0 : Call), ∃ t, exec (.nop x0) s = .next t ∧ t.pending = s.pending) ∧
      (∀ (s : State) (x0 : Call), ∃ t, exec (.info x0) s = .next t ∧ t.pending = s.pending) ∧
      (∀ (s : State) (x0 : Call), ∃ t, exec (.echo x0) s = .next t ∧ t.pending = s.pending) ∧
      (∀ (s : State) (x0 : Call), ∃ t, exec (.lanestat x0) s = .next t ∧ t.pending = s.pending) ∧
      (∀ (s : State) (x0 : Call), ∃ t, exec (.readreg x0) s = .next t ∧ t.pending = s.pending) ∧
      (∀ (s : State) (x0 : Call), ∃ t, exec (.faults x0) s = .next t ∧ t.pending = s.pending) ∧
      (∀ (s : State) (x0 : Call), ∃ t, exec (.position x0) s = .next t ∧ t.pending = s.pending) ∧
      (∀ (s : State) (x0 : Call), ∃ t, exec (.safestat x0) s = .next t ∧ t.pending = s.pending) ∧
      (∀ (s : State) (x0 : Call), ∃ t, exec (.timeget x0) s = .next t ∧ t.pending = s.pending) ∧
      (∀ (s : State) (x0 : Call), ∃ t, exec (.timeset x0) s = .next t ∧ t.pending = s.pending) ∧
      (∀ (s : State) (x0 : Call), ∃ t, exec (.reelread x0) s = .next t ∧ t.pending = s.pending) ∧
      (∀ (s : State) (x0 : Call), ∃ t, exec (.logread x0) s = .next t ∧ t.pending = s.pending) ∧
      (∀ (s : State) (x0 : Call), ∃ t, exec (.ledger x0) s = .next t ∧ t.pending = s.pending) ∧
      (∀ (s : State) (x0 : Call), ∃ t, exec (.attest x0) s = .next t ∧ t.pending = s.pending) ∧
      (∀ (s : State) (x0 : Call), ∃ t, exec (.measure x0) s = .next t ∧ t.pending = s.pending) ∧
      (∀ (s : State) (x0 : Call), ∃ t, exec (.pwrget x0) s = .next t ∧ t.pending = s.pending) ∧
      (∀ (s : State) (x0 : Call), ∃ t, exec (.wakerec x0) s = .next t ∧ t.pending = s.pending) ∧
      (∀ (s : State) (x0 : Call), ∃ t, exec (.vendorService x0) s = .next t ∧ t.pending = s.pending))

/-- OPEN and CLOSE hold and end the session. CFGLOAD and CFGCOMMIT stage and seal the copy not in force, IMGLOAD and IMGCOMMIT write and verify the bank not booted, and a bank that fails changes neither the boot record nor the key store. RESARM and RESCONFIRM clear the cut latch only in their order. Challenges are consumed by the first answer. PWRVOTE sets the HOST nibble. An opcode of the application is put into the mailbox, behind those accepted before it. An execution in which an NVM write fails is answered NVMFLT and one that a fault of the service firmware ends INTERNAL (R543); what then stands is log entry 78. -/
def Obligations.OpcodesThatAct : Prop :=
  (∀ (s : State) (c : Transport) (p : Packet),
    (inTurn c p s ∧ p.op = 0x01) →
    (s.on F.HOST_STAT_SESSION = false → ∃ t, exec (.openSession (.ok c)) s = .next t ∧ answered c p 0 [] s t ∧ t.on F.HOST_STAT_SESSION = true) ∧
      (s.on F.HOST_STAT_SESSION = true → ∃ t, exec (.openSession (.ok c)) s = .next t ∧ answered c p 0x03 [] s t ∧ t.on F.HOST_STAT_SESSION = true)) ∧
  (∀ (s : State) (c : Transport) (p : Packet),
    (inTurn c p s ∧ p.op = 0x2) →
    ∃ t, exec (.closeSession (.ok c)) s = .next t ∧ answered c p 0 [] s t ∧ t.on F.HOST_STAT_SESSION = false ∧ t.mem = s.mem) ∧
  (∀ (s : State) (c : Transport) (p : Packet) (a : Nat),
    (inTurn c p s ∧ p.op = 0x20 ∧ a = bytesAt p.payload 0 4) →
    (regPermitted .s a true = false → ∃ t, exec (.writereg (.ok c)) s = .next t ∧ answered c p 0x43 [] s t ∧ t.rd a = s.rd a) ∧
      (regPermitted .s a true = true → s.sealApplied = true →
      rwsBits a (maskedWord a (regValue .s a s) (BitVec.ofNat 32 (bytesAt p.payload 4 4)) (BitVec.ofNat 32 (bytesAt p.payload 8 4))) ≠
      rwsBits a (regValue .s a s) → (rowsAt a).isEmpty = false → ∃ t, exec (.writereg (.ok c)) s = .next t ∧ answered c p 0x45 [] s t ∧ t.mem = s.mem) ∧
      (a = 0x4001C00C → ∃ t, exec (.writereg (.ok c)) s = .next t ∧ t.get F.HOST_MBOX_ADDR =
      ((s.rd a &&& ~~~BitVec.ofNat 32 (bytesAt p.payload 8 4)) ||| (BitVec.ofNat 32 (bytesAt p.payload 4 4) &&& BitVec.ofNat 32 (bytesAt p.payload 8 4))).toNat % 2 ^ 22 / 4 * 4 ∧
      answered c p 0 (leBytes 4 (t.rd a).toNat) s t)) ∧
  (∀ (s : State) (c : Transport) (p : Packet) (off : Nat),
    (inTurn c p s ∧ p.op = 0x22 ∧ off = bytesAt p.payload 0 4) →
    (4104 < off + (p.payload.length - 4) → ∃ t, exec (.cfgload (.ok c)) s = .next t ∧ answered c p 0x43 [] s t ∧ t.mem = s.mem) ∧
      (off + (p.payload.length - 4) ≤ 4104 → ∃ t, exec (.cfgload (.ok c)) s = .next t ∧ answered c p 0 [] s t ∧ t.keep.staged = true ∧
      t.bytes (copyBase (!copyInForce s) + off) (p.payload.length - 4) = p.payload.drop 4 ∧
      ∀ k, copyBase (copyInForce s) ≤ k → k < copyBase (copyInForce s) + 0x2000 → t.byte k = s.byte k)) ∧
  (∀ (s : State) (c : Transport) (p : Packet),
    inTurn c p s →
    (p.op = 0x22 → bytesAt p.payload 0 4 + (p.payload.length - 4) ≤ 4104 → ∃ t, exec (.cfgload ⟨c, .nvmFault⟩) s = .next t ∧
      answered c p 0x85 [] s t ∧ t.mem = s.mem ∧ t.keep.staged = s.keep.staged) ∧
      (p.op = 0x23 → s.keep.staged = false → ∃ t, exec (.cfgcommit ⟨c, .nvmFault⟩) s = .next t ∧ answered c p 0x4F [] s t ∧ t.mem = s.mem) ∧
      (p.op = 0x25 → bytesAt p.payload 0 1 ≤ 1 → bytesAt p.payload 0 1 ≠ s.get F.KEEP_STAT_BANK → verifyCommit s (bytesAt p.payload 0 1 == 1) = true →
      ∃ t, exec (.imgcommit ⟨c, .nvmFault⟩) s = .next t ∧ answered c p 0x85 [] s t ∧ t.mem = s.mem ∧ t.keep.store = s.keep.store) ∧
      (p.op = 0x20 → ∃ t, exec (.writereg ⟨c, .internal⟩) s = .next t ∧ answered c p 0x86 [] s t ∧ t.mem = s.mem ∧ t.get F.HOST_MBOX_ADDR = s.get F.HOST_MBOX_ADDR) ∧
      (p.op = 0x24 → ∃ t, exec (.imgload ⟨c, .internal⟩) s = .next t ∧ answered c p 0x86 [] s t ∧ t.mem = s.mem ∧ t.keep.store = s.keep.store) ∧
      (p.op = 0x30 → ∃ t, exec (.setpoint ⟨c, .internal⟩) s = .next t ∧ answered c p 0x86 [] s t ∧ t.mem = s.mem ∧ t.host.mbox = s.host.mbox) ∧
      (p.op = 0x51 → ∃ t, exec (.timeset ⟨c, .internal⟩) s = .next t ∧ answered c p 0x86 [] s t ∧ t.time = s.time)) ∧
  (∀ (s : State) (c : Transport) (p : Packet),
    (inTurn c p s ∧ p.op = 0x23) →
    (s.keep.staged = false → ∃ t, exec (.cfgcommit (.ok c)) s = .next t ∧ answered c p 0x4F [] s t ∧ t.mem = s.mem) ∧
      (s.keep.staged = true → blockHeaderOk s (!copyInForce s) = false ∨ sealSlot s (!copyInForce s) p.payload s.keep.store.customers = none →
      ∃ t, exec (.cfgcommit (.ok c)) s = .next t ∧ answered c p 0x53 [] s t ∧ t.mem = s.mem ∧ t.keep.staged = true) ∧
      (∀ k, s.keep.staged = true → blockHeaderOk s (!copyInForce s) = true → sealSlot s (!copyInForce s) p.payload s.keep.store.customers = some k →
      (bootRecord s).gen + 1 < 2 ^ 32 → ∃ t, exec (.cfgcommit (.ok c)) s = .next t ∧ answered c p 0 [] s t ∧ t.keep.staged = false ∧
      readPage t (!copyInForce s) 0 = some { bootRecord s with gen := (bootRecord s).gen + 1, cfgsel := (!copyInForce s).toNat, slot := k } ∧
      t.bytes (copyBase (!copyInForce s) + 0x1100) 64 = p.payload)) ∧
  (∀ (s : State) (c : Transport) (p : Packet) (b off a : Nat),
    (inTurn c p s ∧ p.op = 0x24 ∧ b = bytesAt p.payload 0 1 ∧ off = bytesAt p.payload 4 4 ∧ a = bankBase (b == 1) + off) →
    b ≤ 1 →
    (b = s.get F.KEEP_STAT_BANK → ∃ t, exec (.imgload (.ok c)) s = .next t ∧ answered c p 0x52 [] s t ∧ t.mem = s.mem) ∧
      (b ≠ s.get F.KEEP_STAT_BANK → bankSize < off + (p.payload.length - 8) ∨ imgMeets s a (p.payload.length - 8) = true →
      ∃ t, exec (.imgload (.ok c)) s = .next t ∧ answered c p 0x43 [] s t ∧ t.mem = s.mem) ∧
      (b ≠ s.get F.KEEP_STAT_BANK → off + (p.payload.length - 8) ≤ bankSize → imgMeets s a (p.payload.length - 8) = false →
      ∃ t, exec (.imgload (.ok c)) s = .next t ∧ answered c p 0 [] s t ∧ t.bytes a (p.payload.length - 8) = p.payload.drop 8 ∧
      imgMeets t a (p.payload.length - 8) = true ∧ t.get F.KEEP_WRGEN_WRGEN = t.keep.store.wrgen % 2 ^ 32)) ∧
  (∀ (s : State) (c : Transport) (p : Packet) (b : Nat),
    (inTurn c p s ∧ p.op = 0x25 ∧ b = bytesAt p.payload 0 1 ∧ b ≤ 1) →
    (b = s.get F.KEEP_STAT_BANK → ∃ t, exec (.imgcommit (.ok c)) s = .next t ∧ answered c p 0x52 [] s t ∧ t.mem = s.mem) ∧
      (b ≠ s.get F.KEEP_STAT_BANK → verifyCommit s (b == 1) = false → ∃ t, exec (.imgcommit (.ok c)) s = .next t ∧ answered c p 0x54 [] s t ∧ t.mem = s.mem ∧ t.keep.store = s.keep.store ∧
      t.get F.KEEP_BOOT_PREF = s.get F.KEEP_BOOT_PREF ∧ t.get F.KEEP_BOOT_TRIAL = s.get F.KEEP_BOOT_TRIAL) ∧
      (b ≠ s.get F.KEEP_STAT_BANK → verifyCommit s (b == 1) = true → ∃ t, exec (.imgcommit (.ok c)) s = .next t ∧ answered c p 0 [] s t ∧
      t.on (if b = 1 then F.KEEP_BOOT_VALB else F.KEEP_BOOT_VALA) = true ∧ t.keep.store = s.keep.store ∧
      (∀ r ∈ t.keep.imgWritten, ¬(bankBase (b == 1) ≤ r.1 ∧ r.1 < bankBase (b == 1) + bankSize)) ∧
      (∀ r ∈ s.keep.imgWritten, ¬(bankBase (b == 1) ≤ r.1 ∧ r.1 < bankBase (b == 1) + bankSize) → r ∈ t.keep.imgWritten))) ∧
  (∀ (s : State) (c : Transport) (p : Packet),
    (inTurn c p s ∧ p.op = 0x21) →
    ((∀ d ∈ ([.spi, .c0, .c1] : List Transport), d ≠ c → mayPost s d = false) ∧ ∀ j ∈ s.host.mbox, headOrder s j ≤ headOrder s (chanIx c)) →
    ∃ t, exec (.appcmd (.ok c)) s = .next t ∧ t.host.mbox = s.host.mbox ++ [chanIx c] ∧ (channel t c).replies = (channel s c).replies ∧ heldOn t c = heldOn s c ∧
      (s.host.mbox = [] → .mailbox ∈ t.irqs) ∧ (s.host.mbox = [] → s.get F.HOST_MBOX_ADDR + 512 ≤ 0x300000 →
      t.memWord (mboxBase s) = s.memWord (mboxBase s) + 1 ∧ t.byte (mboxBase s + 4) = p.op ∧
      (t.byte (mboxBase s + 5)).toNat = p.payload.length ∧ (t.byte (mboxBase s + 6)).toNat = (chanIx c).val ∧
      t.bytes (mboxBase s + 8) p.payload.length = p.payload) ∧ (s.host.mbox ≠ [] → t.mem = s.mem)) ∧
  (∀ (s : State) (c : Transport) (p : Packet),
    (inTurn c p s ∧ p.op = 0x30) →
    ((∀ d ∈ ([.spi, .c0, .c1] : List Transport), d ≠ c → mayPost s d = false) ∧ ∀ j ∈ s.host.mbox, headOrder s j ≤ headOrder s (chanIx c)) →
    ∃ t, exec (.setpoint (.ok c)) s = .next t ∧ t.host.mbox = s.host.mbox ++ [chanIx c] ∧ (channel t c).replies = (channel s c).replies ∧ heldOn t c = heldOn s c ∧
      (s.host.mbox = [] → .mailbox ∈ t.irqs) ∧ (s.host.mbox = [] → s.get F.HOST_MBOX_ADDR + 512 ≤ 0x300000 →
      t.memWord (mboxBase s) = s.memWord (mboxBase s) + 1 ∧ t.byte (mboxBase s + 4) = p.op ∧
      (t.byte (mboxBase s + 5)).toNat = p.payload.length ∧ (t.byte (mboxBase s + 6)).toNat = (chanIx c).val ∧
      t.bytes (mboxBase s + 8) p.payload.length = p.payload) ∧ (s.host.mbox ≠ [] → t.mem = s.mem)) ∧
  (∀ (s : State) (c : Transport) (p : Packet),
    (inTurn c p s ∧ p.op = 0x31) →
    ((∀ d ∈ ([.spi, .c0, .c1] : List Transport), d ≠ c → mayPost s d = false) ∧ ∀ j ∈ s.host.mbox, headOrder s j ≤ headOrder s (chanIx c)) →
    ∃ t, exec (.drive (.ok c)) s = .next t ∧ t.host.mbox = s.host.mbox ++ [chanIx c] ∧ (channel t c).replies = (channel s c).replies ∧ heldOn t c = heldOn s c ∧
      (s.host.mbox = [] → .mailbox ∈ t.irqs) ∧ (s.host.mbox = [] → s.get F.HOST_MBOX_ADDR + 512 ≤ 0x300000 →
      t.memWord (mboxBase s) = s.memWord (mboxBase s) + 1 ∧ t.byte (mboxBase s + 4) = p.op ∧
      (t.byte (mboxBase s + 5)).toNat = p.payload.length ∧ (t.byte (mboxBase s + 6)).toNat = (chanIx c).val ∧
      t.bytes (mboxBase s + 8) p.payload.length = p.payload) ∧ (s.host.mbox ≠ [] → t.mem = s.mem)) ∧
  (∀ (s : State) (c : Transport) (p : Packet),
    (inTurn c p s ∧ p.op = 0x32) →
    ((∀ d ∈ ([.spi, .c0, .c1] : List Transport), d ≠ c → mayPost s d = false) ∧ ∀ j ∈ s.host.mbox, headOrder s j ≤ headOrder s (chanIx c)) →
    ∃ t, exec (.haltMotion (.ok c)) s = .next t ∧ t.host.mbox = s.host.mbox ++ [chanIx c] ∧ (channel t c).replies = (channel s c).replies ∧ heldOn t c = heldOn s c ∧
      (s.host.mbox = [] → .mailbox ∈ t.irqs) ∧ (s.host.mbox = [] → s.get F.HOST_MBOX_ADDR + 512 ≤ 0x300000 →
      t.memWord (mboxBase s) = s.memWord (mboxBase s) + 1 ∧ t.byte (mboxBase s + 4) = p.op ∧
      (t.byte (mboxBase s + 5)).toNat = p.payload.length ∧ (t.byte (mboxBase s + 6)).toNat = (chanIx c).val ∧
      t.bytes (mboxBase s + 8) p.payload.length = p.payload) ∧ (s.host.mbox ≠ [] → t.mem = s.mem)) ∧
  (∀ (s : State) (c : Transport) (p : Packet),
    (inTurn c p s ∧ p.op = 0x33) →
    ((∀ d ∈ ([.spi, .c0, .c1] : List Transport), d ≠ c → mayPost s d = false) ∧ ∀ j ∈ s.host.mbox, headOrder s j ≤ headOrder s (chanIx c)) →
    ∃ t, exec (.withdraw (.ok c)) s = .next t ∧ t.host.mbox = s.host.mbox ++ [chanIx c] ∧ (channel t c).replies = (channel s c).replies ∧ heldOn t c = heldOn s c ∧
      (s.host.mbox = [] → .mailbox ∈ t.irqs) ∧ (s.host.mbox = [] → s.get F.HOST_MBOX_ADDR + 512 ≤ 0x300000 →
      t.memWord (mboxBase s) = s.memWord (mboxBase s) + 1 ∧ t.byte (mboxBase s + 4) = p.op ∧
      (t.byte (mboxBase s + 5)).toNat = p.payload.length ∧ (t.byte (mboxBase s + 6)).toNat = (chanIx c).val ∧
      t.bytes (mboxBase s + 8) p.payload.length = p.payload) ∧ (s.host.mbox ≠ [] → t.mem = s.mem)) ∧
  (∀ (s : State) (c : Transport) (p : Packet),
    (inTurn c p s ∧ p.op = 0x34) →
    ((∀ d ∈ ([.spi, .c0, .c1] : List Transport), d ≠ c → mayPost s d = false) ∧ ∀ j ∈ s.host.mbox, headOrder s j ≤ headOrder s (chanIx c)) →
    ∃ t, exec (.handover (.ok c)) s = .next t ∧ t.host.mbox = s.host.mbox ++ [chanIx c] ∧ (channel t c).replies = (channel s c).replies ∧ heldOn t c = heldOn s c ∧
      (s.host.mbox = [] → .mailbox ∈ t.irqs) ∧ (s.host.mbox = [] → s.get F.HOST_MBOX_ADDR + 512 ≤ 0x300000 →
      t.memWord (mboxBase s) = s.memWord (mboxBase s) + 1 ∧ t.byte (mboxBase s + 4) = p.op ∧
      (t.byte (mboxBase s + 5)).toNat = p.payload.length ∧ (t.byte (mboxBase s + 6)).toNat = (chanIx c).val ∧
      t.bytes (mboxBase s + 8) p.payload.length = p.payload) ∧ (s.host.mbox ≠ [] → t.mem = s.mem)) ∧
  (∀ (s : State) (c : Transport) (p : Packet),
    (inTurn c p s ∧ p.op = 0x42) →
    ((∀ d ∈ ([.spi, .c0, .c1] : List Transport), d ≠ c → mayPost s d = false) ∧ ∀ j ∈ s.host.mbox, headOrder s j ≤ headOrder s (chanIx c)) →
    ∃ t, exec (.switchback (.ok c)) s = .next t ∧ t.host.mbox = s.host.mbox ++ [chanIx c] ∧ (channel t c).replies = (channel s c).replies ∧ heldOn t c = heldOn s c ∧
      (s.host.mbox = [] → .mailbox ∈ t.irqs) ∧ (s.host.mbox = [] → s.get F.HOST_MBOX_ADDR + 512 ≤ 0x300000 →
      t.memWord (mboxBase s) = s.memWord (mboxBase s) + 1 ∧ t.byte (mboxBase s + 4) = p.op ∧
      (t.byte (mboxBase s + 5)).toNat = p.payload.length ∧ (t.byte (mboxBase s + 6)).toNat = (chanIx c).val ∧
      t.bytes (mboxBase s + 8) p.payload.length = p.payload) ∧ (s.host.mbox ≠ [] → t.mem = s.mem)) ∧
  (∀ (s : State) (c : Transport) (p : Packet),
    (inTurn c p s ∧ p.op = 0x40 ∧ s.sys.vRuns = true) →
    (s.on F.SAFE_STAT_CUT = false → ∃ t, exec (.resarm (.ok c)) s = .next t ∧ answered c p 0x4F [] s t ∧ t.safe.armed = s.safe.armed) ∧
      (s.on F.SAFE_STAT_CUT = true → ∃ t a, exec (.resarm (.ok c)) s = .next t ∧ answered c p 0 (leBytes 2 a.token.toNat) s t ∧ t.safe.armed = some a ∧
      a.via = chanIx c ∧ a.late = false ∧ t.on F.SAFE_STAT_ARMED = true ∧ t.on F.SAFE_STAT_CUT = true)) ∧
  (∀ (s : State) (c : Transport) (p : Packet),
    (inTurn c p s ∧ p.op = 0x41 ∧ s.sys.vRuns = true) →
    (s.safe.armed = none → ∃ t, exec (.resconfirm (.ok c)) s = .next t ∧ answered c p 0x48 [] s t ∧ t.on F.SAFE_STAT_CUT = s.on F.SAFE_STAT_CUT) ∧
      (∀ a, s.safe.armed = some a → ∃ t code, exec (.resconfirm (.ok c)) s = .next t ∧ answered c p code [] s t ∧ t.safe.armed = none ∧
      t.on F.SAFE_STAT_ARMED = false ∧ (a.via ≠ chanIx c → code = 0x48) ∧ (a.via = chanIx c → a.late = true → code = 0x4A) ∧
      (a.via = chanIx c → a.late = false → a.token.toNat ≠ bytesAt p.payload 0 2 → code = 0x49) ∧
      (a.via = chanIx c → a.late = false → a.token.toNat = bytesAt p.payload 0 2 → s.get F.SAFE_CAUSE_CAUSE ≠ 0 → code = 0x4B) ∧
      (a.via = chanIx c → a.late = false → a.token.toNat = bytesAt p.payload 0 2 → s.get F.SAFE_CAUSE_CAUSE = 0 → code = 0) ∧
      (code ≠ 0 → s.on F.SAFE_STAT_CUT = true → t.on F.SAFE_STAT_CUT = true) ∧ (code = 0 → t.on F.SAFE_STAT_CUT = false))) ∧
  (∀ (s : State) (c : Transport) (p : Packet),
    (inTurn c p s ∧ p.op = 0x51) →
    (s.on F.TIME_STAT_STEPPED = true ∨ s.on F.TIME_CTRL_MASTER = false → ∃ t, exec (.timeset (.ok c)) s = .next t ∧ answered c p 0x4F [] s t ∧ t.time = s.time) ∧
      (s.on F.TIME_STAT_STEPPED = false → s.on F.TIME_CTRL_MASTER = true → bytesAt p.payload 4 4 ≤ 999999999 → ∃ t, exec (.timeset (.ok c)) s = .next t ∧
      answered c p 0 [] s t ∧ t.on F.TIME_STAT_STEPPED = true ∧ t.time.sec.toNat = bytesAt p.payload 0 4 ∧ t.get F.TIME_NS_NS = bytesAt p.payload 4 4)) ∧
  (∀ (s : State) (c : Transport) (p : Packet),
    (inTurn c p s ∧ p.op = 0x72) →
    (s.on F.KEEP_STAT_STOOD = false → ∃ t, exec (.relchal (.ok c)) s = .next t ∧ answered c p 0x4F [] s t) ∧
      (s.on F.KEEP_STAT_STOOD = true → s.keep.relBlock = none → ∃ t x, exec (.relchal (.ok c)) s = .next t ∧ answered c p 0 (beBytes 16 x.toNat) s t ∧
      t.keep.relChal = some x ∧ t.on F.KEEP_AUTH_CHALREL = true ∧ t.keep.dbgChal = s.keep.dbgChal)) ∧
  (∀ (s : State) (c : Transport) (p : Packet),
    (inTurn c p s ∧ p.op = 0x74) →
    (∀ k, s.keep.dbgBlock = some k → s.tick < k + 200000000 → ∃ t, exec (.dbgchal (.ok c)) s = .next t ∧ answered c p 0x4F [] s t ∧ t.keep.dbgChal = s.keep.dbgChal) ∧
      (s.keep.dbgBlock = none → ∃ t x, exec (.dbgchal (.ok c)) s = .next t ∧ answered c p 0 (beBytes 16 x.toNat) s t ∧
      t.keep.dbgChal = some x ∧ t.on F.KEEP_AUTH_CHALDBG = true)) ∧
  (∀ (s : State) (c : Transport) (p : Packet),
    (inTurn c p s ∧ p.op = 0x73 ∧ s.on F.KEEP_STAT_STOOD = true) →
    (s.keep.relChal = none → ∃ t, exec (.releaseStandDown (.ok c)) s = .next t ∧ answered c p 0x51 [] s t ∧ t.keep.stood = s.keep.stood) ∧
      (∀ x, s.keep.relChal = some x → ∃ t, exec (.releaseStandDown (.ok c)) s = .next t ∧ t.keep.relChal = none ∧ t.on F.KEEP_AUTH_CHALREL = false ∧
      (challengeOk 0x52 x p.payload s = true → answered c p 0 [] s t ∧ t.keep.stood = false ∧ t.keep.releasing = true ∧ t.keep.failTimes = []) ∧
      (challengeOk 0x52 x p.payload s = false → answered c p 0x51 [] s t ∧ t.keep.stood = s.keep.stood ∧ t.keep.relBlock = some s.tick ∧
      (s.get F.KEEP_AUTH_RELFAIL < 255 → t.get F.KEEP_AUTH_RELFAIL = s.get F.KEEP_AUTH_RELFAIL + 1)))) ∧
  (∀ (s : State) (c : Transport) (p : Packet),
    (inTurn c p s ∧ p.op = 0x75) →
    (s.keep.dbgChal = none → ∃ t, exec (.dbgopen (.ok c)) s = .next t ∧ answered c p 0x51 [] s t ∧ t.on F.KEEP_STAT_DBGOPEN = s.on F.KEEP_STAT_DBGOPEN) ∧
      (∀ x, s.keep.dbgChal = some x → ∃ t, exec (.dbgopen (.ok c)) s = .next t ∧ t.keep.dbgChal = none ∧ t.on F.KEEP_AUTH_CHALDBG = false ∧
      (challengeOk 0x44 x p.payload s = true → answered c p 0 [] s t ∧ t.on F.KEEP_STAT_DBGOPEN = true ∧ t.keep.dbgOpened = true) ∧
      (challengeOk 0x44 x p.payload s = false → answered c p 0x51 [] s t ∧ t.on F.KEEP_STAT_DBGOPEN = s.on F.KEEP_STAT_DBGOPEN ∧
      t.keep.dbgBlock = some s.tick))) ∧
  (∀ (s : State) (c : Transport) (p : Packet) (n : Nat),
    (inTurn c p s ∧ p.op = 0x81 ∧ n = bytesAt p.payload 0 1) →
    (4 < n → ∃ t, exec (.pwrvote (.ok c)) s = .next t ∧ answered c p 0x43 [] s t ∧ t.get F.PWR_VOTE_VOTE = s.get F.PWR_VOTE_VOTE) ∧
      (n ≤ 4 → s.keep.start.isSome = true ∨ s.keep.failWait = true → ∃ t, exec (.pwrvote (.ok c)) s = .next t ∧ answered c p 0x4F [] s t) ∧
      (n ≤ 4 → s.keep.start = none → s.keep.failWait = false → ∃ t, exec (.pwrvote (.ok c)) s = .next t ∧
      t.get F.PWR_VOTE_VOTE / 16 % 16 = 2 ^ (4 - n) - 1 ∧ t.get F.PWR_VOTE_VOTE % 16 = s.get F.PWR_VOTE_VOTE % 16 ∧
      t.get F.PWR_VOTE_VOTE / 256 = s.get F.PWR_VOTE_VOTE / 256 ∧ answered c p 0 [BitVec.ofNat 8 (t.get F.PWR_STAT_STATE)] s t))

/-- Each cause of R545 begins a start of its kind with its SRC and leaves what R548 gives; the cut latch stands but at power-on, which has an effect only once the always-on domain has lost power since the last one. A warm request during a start is ignored and marked; else the lane withdraws first. A failed start records its code and step and waits, the third within ten seconds stands the lane down. Loss of power keeps only non-volatile memory. While the PLL-clocked blocks stand (RESET_N low, SLEEP or deeper, no always-on supply, held by a sentinel trip) the commands of those blocks change nothing (R546, R583, R604). -/
def Obligations.StartsBegin : Prop :=
  (∀ (s : State) (v : Bool),
    s.pwr.armed = false →
    exec (.powerOnReset v) s = .next s) ∧
  (∀ (s : State) (v : Bool),
    s.pwr.armed = true →
    ∃ t, exec (.powerOnReset v) s = .next t ∧ begun 0 true s t ∧ t.pwr.aoPowered = true ∧ t.keep.halted = false ∧ t.on F.SAFE_STAT_CUT = false ∧
      t.get F.SAFE_CAUSE_CAUSE = 0 ∧ t.on F.SAFE_STAT_STOPN = true ∧ t.on F.SAFE_STAT_RJAM = v ∧ t.pwr.armed = false) ∧
  (∀ (s : State),
    (s.pwr.aoPowered = true → ∃ t, exec .resetAsserted s = .next t ∧ heldAtStart true s t ∧ cutKept s t ∧ t.pwr.resetLow = true ∧ t.keep.start = none) ∧
      (s.pwr.aoPowered = false → exec .resetAsserted s = .next (s.modPwr (fun p => { p with resetLow := true })))) ∧
  (∀ (s : State),
    (s.pwr.resetLow = true → s.pwr.aoPowered = true → ∃ t, exec .resetRelease s = .next t ∧ begun 1 true s t ∧ cutKept s t ∧
      t.pwr.resetLow = false ∧ t.keep.halted = false) ∧
      (s.pwr.resetLow = false ∨ s.pwr.aoPowered = false → ∃ t, exec .resetRelease s = .next t ∧ t.pwr.resetLow = false ∧ t.keep = s.keep ∧
      t.regs = s.regs ∧ t.mem = s.mem)) ∧
  (∀ (s : State) (r : Requester),
    (granted r 0x40000010 s ∧ keeperTakes s = true) →
    ∃ t, exec (.coldResetRequest r) s = .next t ∧ begun 6 true s t ∧ cutKept s t) ∧
  (∀ (s : State) (r : Requester),
    (¬granted r 0x40000010 s ∨ keeperTakes s = false) →
    (∃ t, exec (.coldResetRequest r) s = .next t ∧ t.keep = s.keep ∧ t.mem = s.mem) ∧ ∃ t, exec (.warmResetRequest r) s = .next t ∧ t.keep = s.keep ∧ t.mem = s.mem) ∧
  (∀ (s : State) (r : Requester) (p : Pair),
    (granted r 0x40000010 s ∧ keeperTakes s = true) →
    (s.keep.start.isSome = true ∨ s.keep.failWait = true) →
    (∃ t, exec (.warmResetRequest r) s = .next t ∧ t.on F.KEEP_RSTCAUSE_IGN = true ∧ t.keep = s.keep ∧ t.mem = s.mem) ∧
      ∃ t, exec (.warmResetCsr p true) s = .next t ∧ t.on F.KEEP_RSTCAUSE_IGN = true ∧ t.keep = s.keep ∧ t.mem = s.mem) ∧
  (∀ (s : State) (r : Requester) (p : Pair),
    (granted r 0x40000010 s ∧ keeperTakes s = true ∧ s.keep.start = none ∧ s.keep.failWait = false) →
    (s.on F.CONT_CTRL_EN = false ∨ s.get F.CONT_STAT_ROLE = 0) →
    (∃ t, exec (.warmResetRequest r) s = .next t ∧ begun 5 false s t ∧ cutKept s t) ∧ ∃ t, exec (.warmResetCsr p true) s = .next t ∧ begun 4 false s t ∧ cutKept s t) ∧
  (∀ (s : State) (r : Requester) (p : Pair),
    (granted r 0x40000010 s ∧ keeperTakes s = true ∧ s.keep.start = none ∧ s.keep.failWait = false) →
    (s.on F.CONT_CTRL_EN = true ∧ s.get F.CONT_STAT_ROLE ≠ 0 ∧ s.cont.withdrawing = false) →
    (∃ t, exec (.warmResetRequest r) s = .next t ∧ t.keep.warmPending = some 5 ∧ t.keep.start = none ∧ t.cont.withdrawing = true ∧ t.cont.leadOut = false) ∧
      ∃ t, exec (.warmResetCsr p true) s = .next t ∧ t.keep.warmPending = some 4 ∧ t.keep.start = none ∧ t.cont.withdrawing = true ∧ t.cont.leadOut = false) ∧
  (∀ (s : State) (p : Pair),
    ∃ t, exec (.warmResetCsr p false) s = .next t ∧ t = trapPair p 2 0 (modCopies p (fun c => { c with machineMode := false }) s) ∧ t.keep = s.keep ∧
      t.regs = s.regs ∧ t.mem = s.mem) ∧
  (∀ (s : State) (k : Nat),
    coreStopped s = false →
    (s.keep.warmPending = some k ∧ (∀ x ∈ s.cont.transfers, x.left ≠ 0) ∧ s.cont.withdrawing = false ∧ k < 16) →
    ∃ t, exec .transferTick s = .next t ∧ begun k false s t ∧ cutKept s t) ∧
  (∀ (s : State) (x : Transfer),
    coreStopped s = false →
    (s.keep.warmPending = none ∧ s.cont.transfers = [x] ∧ x.left = 0 ∧ x.subj = laneId s ∧ x.kind = 1) →
    x.shares.sum = 1000 →
    lanesLeft { s with cont := { s.cont with transfers := [] } } (laneId s) ≠ [] →
    ∃ t, exec .transferTick s = .next t ∧ t.cont.transfers = [] ∧ t.get F.CONT_STAT_ROLE = 0 ∧ t.cont.leadOut = false ∧ t.on F.CONT_CTRL_WDREQ = false ∧
      sharesOf t = x.shares ∧ t.get F.CONT_LAST_KIND = 1 ∧ t.get F.CONT_LAST_FROM = laneId s ∧ t.get F.CONT_LAST_CYC = s.get F.CONT_CYC_CYC ∧
      t.cont.withdrawing = false) ∧
  (∀ (s : State),
    coreStopped s = false →
    (s.keep.warmPending = none ∧ ∀ x ∈ s.cont.transfers, x.left ≠ 0) →
    exec .transferTick s = .next s) ∧
  (∀ (s : State) (code step : Byte),
    s.keep.start.isSome = true →
    ∃ t, exec (.startFailure code step) s = .next t ∧ t.get F.KEEP_FAIL_CODE = code.toNat ∧ t.get F.KEEP_FAIL_STEP = step.toNat % 16 ∧
      t.get F.KEEP_STAT_STEP = 0x1F ∧ t.keep.start = none ∧ (∀ b : Bridge, isoClosed t b = false ∧ mcMode t b = 0) ∧ t.cont.leadOut = false ∧
      t.get F.DBL_CTRL_HOLD = 15 ∧ t.keep.failTimes.head? = some s.tick ∧
      ((s.keep.failTimes.filter (fun k => decide (s.tick ≤ k + 2000000000))).length < 2 → t.keep.failWait = true ∧ t.keep.stood = s.keep.stood) ∧
      (2 ≤ (s.keep.failTimes.filter (fun k => decide (s.tick ≤ k + 2000000000))).length → t.keep.stood = true ∧ t.on F.KEEP_STAT_STOOD = true ∧
      t.keep.failWait = false)) ∧
  (∀ (s : State) (code step : Byte),
    s.keep.start = none →
    exec (.startFailure code step) s = .next s) ∧
  (∀ (s : State),
    (s.keep.failWait = true → keeperTakes s = true → ∃ t, exec .failedStartWaitEnd s = .next t ∧ begun 9 true s t ∧ cutKept s t) ∧
      (s.keep.failWait = false → exec .failedStartWaitEnd s = .next s) ∧
      (s.keep.releasing = true → keeperTakes s = true → ∃ t, exec .releaseRestart s = .next t ∧ begun 0xA true s t ∧ cutKept s t) ∧
      (s.keep.releasing = false → exec .releaseRestart s = .next s)) ∧
  (∀ (s : State),
    (s.keep.vmotLow = true → ∃ t, exec .standDownClear s = .next t ∧ t.keep.stood = false ∧ t.keep.failTimes = [] ∧
      t.keep.clearedPowered = (s.pwr.aoPowered && s.on F.KEEP_STAT_STOOD) ∧ t.regs = (s.put F.KEEP_FAIL_NFAIL 0).regs ∧ t.mem = s.mem ∧ t.keep.store = s.keep.store) ∧
      (s.keep.vmotLow = false → exec .standDownClear s = .next s)) ∧
  (∀ (s : State),
    ∃ t, exec .alwaysOnPowerLoss s = .next t ∧ t.pwr.aoPowered = false ∧ t.pwr.armed = true ∧ t.keep.start = none ∧ t.keep.stood = s.keep.stood ∧
      t.keep.failTimes = s.keep.failTimes ∧ t.keep.store = s.keep.store ∧
      (∀ a, (0x10000000 ≤ a ∧ a < 0x10C00000) ∨ (0x11000000 ≤ a ∧ a < 0x11100000) → t.byte a = s.byte a) ∧
      ∀ a, ¬ ((0x10000000 ≤ a ∧ a < 0x10C00000) ∨ (0x11000000 ≤ a ∧ a < 0x11100000)) → t.byte a = 0) ∧
  (∀ (s : State),
    coreStopped s = true →
    exec .transferTick s = .next s)

/-- K runs the steps to the start-up window or to a failure with its code and step; the straps give the strap word; a start of the other kind, or none, is not run. After the start-up writes the seal is applied whatever its result: SEALED only with every condition of R451. The missing start-up writes fail the start, drive-ready ends it with READY. -/
def Obligations.StartsRunAndEnd : Prop :=
  (∀ (s : State) (inp : StartInputs),
    (s.keep.start = none ∨ keeperTakes s = false) →
    (∀ r, s.keep.start = some r → r.released = false) →
    exec (.coldStart inp) s = .next s ∧ exec (.warmStart inp) s = .next s) ∧
  (∀ (s : State) (inp : StartInputs) (r : StartRun),
    (s.keep.start = some r ∧ r.released = false ∧ keeperTakes s = true) →
    ∃ t, (if r.cold = true then exec (.coldStart inp) s = .next t else exec (.warmStart inp) s = .next t) ∧
      (inp.romOk = false → t.keep.halted = true ∧ t.keep.start = none ∧ t.get F.KEEP_FAIL_CODE = s.get F.KEEP_FAIL_CODE ∧
      t.get F.KEEP_FAIL_NFAIL = s.get F.KEEP_FAIL_NFAIL) ∧
      (inp.romOk = true → inp.storeOk = false → t.get F.KEEP_FAIL_CODE = 2 ∧ t.get F.KEEP_FAIL_STEP = 2 ∧ t.keep.start = none) ∧
      (inp.romOk = true → inp.storeOk = true → s.keep.stood = false → inp.pllOk = false → t.get F.KEEP_FAIL_CODE = 3 ∧ t.get F.KEEP_FAIL_STEP = 4 ∧
      t.keep.start = none ∧
      ∀ k : Fin 8, (∀ x ∈ inp.straps[k].toList, strapLevel x = strapLevel inp.straps[k][0]) →
      t.get F.SEAL_STRAP_WORD / 4 ^ k.val % 4 = strapLevel inp.straps[k][0] ∧ bitAt (t.get F.SEAL_MARGIN_MARG) k = false) ∧
      (inp.romOk = true → inp.storeOk = true → s.keep.stood = true → t.keep.stood = true ∧ t.on F.KEEP_STAT_STOOD = true ∧ t.keep.start = none) ∧
      (t.keep.halted = false → (∃ q, t.keep.start = some q ∧ q.released = true ∧ q.startupDone = r.startupDone) ∨
      (t.keep.start = none ∧ t.get F.KEEP_STAT_STEP = 0x1F))) ∧
  (∀ (s : State) (inp : StartInputs) (r : StartRun),
    (s.keep.start = some r ∧ r.released = false ∧ r.cold = false ∧ keeperTakes s = true ∧ s.keep.stood = false) →
    (inp.romOk = true ∧ inp.storeOk = true ∧ inp.pllOk = true) →
    (s.keep.wasDone = false ∨ inp.retainedOk = false ∨ s.keep.retained = none →
      ∃ t, exec (.warmStart inp) s = .next t ∧ t.on F.KEEP_RSTCAUSE_CONV = true) ∧
      (∀ q, s.keep.retained = some q → s.keep.wasDone = true → inp.retainedOk = true → q.wrgen = s.keep.store.wrgen →
      q.provisioned = s.keep.store.provisioned → s.keep.store.warmCount < 4294967295 →
      ∃ t, exec (.warmStart inp) s = .next t ∧ t.on F.KEEP_STAT_WARM = true ∧ t.keep.store.warmCount = s.keep.store.warmCount + 1 ∧
      t.on F.KEEP_RSTCAUSE_CONV = s.on F.KEEP_RSTCAUSE_CONV)) ∧
  (∀ (s : State) (inp : StartInputs) (r : StartRun),
    (s.keep.start = some r ∧ r.released = true) →
    (r.startupDone = true → s.sealApplied = false → ∃ t, exec (.coldStart inp) s = .next t ∧ exec (.warmStart inp) s = .next t ∧ t.sealApplied = true ∧
      t.on F.SEAL_RESULT_SEALED = t.on F.SAFE_STAT_SEALED ∧
      (t.on F.SAFE_STAT_SEALED = true → s.on F.SEAL_RESULT_NOBLOCK = false ∧ s.on F.SEAL_RESULT_SIGOK = true ∧ s.on F.SEAL_STRAP_VALID = true ∧
      s.on F.SEAL_RESULT_IDOK = true ∧ t.on F.SEAL_RESULT_CMPOK = true ∧ s.keep.store.provisioned = true ∧ t.on F.KEEP_STAT_READY = s.on F.KEEP_STAT_READY) ∧
      (t.on F.SAFE_STAT_SEALED = false → t.on F.KEEP_STAT_DONE = true ∧ t.on F.KEEP_STAT_READY = false ∧ t.keep.start = none)) ∧
      (r.startupDone = false ∨ s.sealApplied = true → exec (.coldStart inp) s = .next s ∧ exec (.warmStart inp) s = .next s)) ∧
  (∀ (s : State) (p : Pair),
    (∃ t, exec (.startupDone p false) s = .next t ∧ t = trapPair p 2 0 (modCopies p (fun c => { c with machineMode := false }) s) ∧ t.keep = s.keep ∧ t.regs = s.regs) ∧
      (p ≠ 0 → exec (.startupDone p true) s = .next s)) ∧
  (∀ (s : State) (r : StartRun),
    s.keep.start = some r →
    ∃ t, exec (.startupDone 0 true) s = .next t ∧ t.keep.start = some { r with startupDone := r.startupDone || r.released } ∧ t.regs = s.regs ∧ t.mem = s.mem) ∧
  (∀ (s : State) (r : StartRun),
    (s.keep.start = some r ∧ r.released = true ∧ s.sealApplied = false) →
    ∃ t, exec .startupWriteTimeout s = .next t ∧ t.on F.SEAL_RESULT_TMO = true ∧ t.get F.KEEP_FAIL_CODE = 0x0C ∧
      t.get F.KEEP_FAIL_STEP = (if s.on F.KEEP_STAT_WARM then 8 else 10) ∧ t.keep.start = none) ∧
  (∀ (s : State),
    (s.keep.start = none ∨ s.sealApplied = true) →
    exec .startupWriteTimeout s = .next s) ∧
  (∀ (s : State) (r : StartRun),
    (s.keep.start = some r ∧ r.released = true ∧ s.sealApplied = true ∧ s.on F.SAFE_STAT_SEALED = true) →
    ∃ t, exec .driveReady s = .next t ∧ t.on F.KEEP_STAT_READY = true ∧ t.on F.KEEP_STAT_DONE = true ∧ t.get F.KEEP_STAT_STEP = 0x1F ∧
      t.get F.KEEP_TIME_LAST = min 16777215 r.took ∧ t.keep.start = none ∧ t.cont.ready = true ∧ (∀ i, i < 7 → s.keep.store.ver (i + 1) ≤ t.keep.store.ver (i + 1)) ∧
      (topology s ≠ 0 → t.on F.CONT_STAT_FORMING = true)) ∧
  (∀ (s : State),
    (s.keep.start = none ∨ s.sealApplied = false ∨ s.on F.SAFE_STAT_SEALED = false) →
    exec .driveReady s = .next s)

/-- A vote is stored closed downward in the requester's own nibble; when the union of all nibbles falls below a domain its state's entry begins and suspends the watchdog and the monitors. A pair is gated only with no CORE vote. Wake events act in SLEEP and DEEP, the first one is recorded, or of those in one cycle the lowest; WAKE is judged by the phases it shows (merging them is log entry 109), and nothing of it acts while VMOT is below the hold level (R636); and the exit records it with the state left; one that arrives during an entry acts once the entry has completed. The exits need the recorded event or a source that acts in the state left. A sentinel trip sets the cut latch with SENTINEL and holds every engine but G, with the lane out of its set, until margin returns. Complete, that is exec answers a next state, with the queue as it was, from every state and with every operand: VOTE_WRITE, HOST_VOTE_WRITE, POWER_ENTRY_DONE, PAIR_GATE, WAKE_ACCEPTED, TIMER_WAKE, SLEEP_EXIT, DEEP_EXIT, OFF_EXIT, SENTINEL_TRIP, SENTINEL_RECOVERY, VMOT_HOLD_FALL, VMOT_HOLD_RISE. -/
def Obligations.VotesAndPowerStates : Prop :=
  (∀ (s : State) (r : Requester) (n : BitVec 4) (i : Nat),
    (granted r 0x40001008 s ∧ voteNibble r = some i) →
    ∃ t, exec (.voteWrite r n) s = .next t ∧ t.get F.PWR_VOTE_VOTE / 16 ^ i % 16 = closeDown n.toNat ∧
      (∀ j, j < 6 → j ≠ i → t.get F.PWR_VOTE_VOTE / 16 ^ j % 16 = s.get F.PWR_VOTE_VOTE / 16 ^ j % 16) ∧
      (s.pwr.entryTo = none → s.pwr.wake = none → s.pwr.aoPowered = true → 2 ≤ stateOfVotes (voteUnion t) → s.get F.PWR_STAT_STATE < stateOfVotes (voteUnion t) →
      t.pwr.entryTo = some (stateOfVotes (voteUnion t)) ∧ t.on F.PWR_STAT_ENTERING = true ∧ t.sys.suspended = true) ∧
      (∀ d, s.pwr.entryTo = some d → s.pwr.aoPowered = true → stateOfVotes (voteUnion t) < d → t.pwr.entryTo = some d ∧ t.pwr.wake = s.pwr.wake.or (some 5)) ∧
      (bitAt (voteUnion t) 3 = true → t.get F.PWR_STAT_PGATE = 0) ∧ t.mem = s.mem) ∧
  (∀ (s : State) (n : BitVec 4),
    closeDown n.toNat = (if 8 ≤ n.toNat then 15 else if 4 ≤ n.toNat then 7 else if 2 ≤ n.toNat then 3 else n.toNat)) ∧
  (∀ (s : State) (n : BitVec 4),
    ∃ t, exec (.voteWrite .k n) s = .next t ∧ t.get F.PWR_VOTE_VOTE = s.get F.PWR_VOTE_VOTE ∧
      (granted .k 0x40001008 s → t.on F.PWR_STAT_ACCERR = true)) ∧
  (∀ (s : State) (r : Requester) (n : BitVec 4),
    (r = .s → granted r 0x4000100C s → ∃ t, exec (.hostVoteWrite r n) s = .next t ∧ t.get F.PWR_VOTE_VOTE / 16 % 16 = closeDown n.toNat ∧
      t.get F.PWR_VOTE_VOTE % 16 = s.get F.PWR_VOTE_VOTE % 16 ∧ t.get F.PWR_VOTE_VOTE / 256 = s.get F.PWR_VOTE_VOTE / 256 ∧
      t.get F.PWR_HOSTVOTE_HOLD = closeDown n.toNat) ∧
      (r ≠ .s → ∃ t, exec (.hostVoteWrite r n) s = .next t ∧ t.get F.PWR_VOTE_VOTE = s.get F.PWR_VOTE_VOTE ∧
      (granted r 0x4000100C s → t.on F.PWR_STAT_ACCERR = true))) ∧
  (∀ (s : State) (p : Pair),
    (bitAt (voteUnion s) 3 = true ∨ issues s (.p p) = false → exec (.pairGate p) s = .next s) ∧
      (bitAt (voteUnion s) 3 = false → issues s (.p p) = true → ∃ t, exec (.pairGate p) s = .next t ∧ t.bit F.PWR_STAT_PGATE p = true ∧ t.cores[p.val].gated = true ∧
      (∀ q : Pair, q ≠ p → t.bit F.PWR_STAT_PGATE q = s.bit F.PWR_STAT_PGATE q) ∧
      (t.get F.PWR_STAT_PGATE = 15 → s.get F.PWR_STAT_STATE = 0 → t.get F.PWR_STAT_STATE = 1) ∧
      (t.get F.PWR_STAT_PGATE ≠ 15 → t.get F.PWR_STAT_STATE = s.get F.PWR_STAT_STATE) ∧ t.mem = s.mem)) ∧
  (∀ (s : State),
    (s.pwr.entryTo = none → exec .powerEntryDone s = .next s) ∧
      (s.pwr.entryTo = some 2 → stateOfVotes (voteUnion s) = 2 ∨ s.pwr.wake.isSome = true → ∃ t, exec .powerEntryDone s = .next t ∧ t.get F.PWR_STAT_STATE = 2 ∧ t.on F.PWR_STAT_ENTERING = false ∧
      t.on F.SYS_CLKMON_LOCK = false ∧ t.pwr.entryTo = none ∧ t.pwr.coreEn = s.pwr.coreEn ∧ t.mem = s.mem) ∧
      (s.pwr.entryTo = some 3 → ∃ t, exec .powerEntryDone s = .next t ∧ t.get F.PWR_STAT_STATE = 3 ∧ t.pwr.coreEn = s.pwr.wake.isSome ∧ t.pwr.entryTo = none ∧
      ∀ a, 0x21000000 ≤ a → a < 0x21010000 → t.byte a = s.byte a) ∧
      (s.pwr.entryTo = some 4 → ∃ t, exec .powerEntryDone s = .next t ∧ t.pwr.pwren = s.pwr.wake.isSome ∧ t.pwr.wake = s.pwr.wake ∧ t.pwr.aoPowered = false ∧ t.pwr.coreEn = false ∧
      t.pwr.keeperCfg = s.rd F.PWR_WAKECFG_WKEN.addr ∧ t.keep.stood = s.keep.stood)) ∧
  (∀ (s : State) (l : List LineLevel),
    (s.pwr.aoPowered = true ∧ s.on F.PWR_WAKECFG_WKEN = true ∧ s.keep.vmotLow = false ∧ asleep s = true) →
    s.on F.PWR_WAKECFG_WKMODE = false →
    ((∃ x ∈ l, x.high = s.on F.PWR_WAKECFG_WKPOL ∧ 1800 ≤ x.length) → ∃ t, exec (.wakeAccepted l) s = .next t ∧ t.pwr.wake = firstWake s 1 ∧
      (s.get F.PWR_STAT_STATE = 3 → t.pwr.coreEn = true) ∧ t.regs = s.regs ∧ t.mem = s.mem) ∧
      ((∀ x ∈ l, x.high = s.on F.PWR_WAKECFG_WKPOL → x.length < 500) → exec (.wakeAccepted l) s = .next s)) ∧
  (∀ (s : State) (a b c T : Nat),
    (s.pwr.aoPowered = true ∧ s.on F.PWR_WAKECFG_WKEN = true ∧ s.keep.vmotLow = false ∧ asleep s = true) →
    (s.on F.PWR_WAKECFG_WKMODE = true ∧ 1800 ≤ a ∧ 1800 ≤ b ∧ 1800 ≤ c ∧ T = (if s.on F.PWR_WAKECFG_WUPTMO then 5000000 else 1000000)) →
    ((a + b + 1800) * 5 ≤ T * 4 → ∃ t, exec (.wakeAccepted [⟨s.on F.PWR_WAKECFG_WKPOL, a⟩, ⟨!s.on F.PWR_WAKECFG_WKPOL, b⟩, ⟨s.on F.PWR_WAKECFG_WKPOL, c⟩]) s = .next t ∧
      t.pwr.wake = firstWake s 2 ∧ (s.get F.PWR_STAT_STATE = 3 → t.pwr.coreEn = true) ∧ t.regs = s.regs ∧ t.mem = s.mem) ∧
      (T * 6 < (a + b + 1800) * 5 → exec (.wakeAccepted [⟨s.on F.PWR_WAKECFG_WKPOL, a⟩, ⟨!s.on F.PWR_WAKECFG_WKPOL, b⟩, ⟨s.on F.PWR_WAKECFG_WKPOL, c⟩]) s = .next s) ∧
      exec (.wakeAccepted [⟨s.on F.PWR_WAKECFG_WKPOL, a⟩, ⟨!s.on F.PWR_WAKECFG_WKPOL, b⟩]) s = .next s) ∧
  (∀ (s : State) (l : List LineLevel),
    s.pwr.aoPowered = true →
    (s.on F.PWR_WAKECFG_WKEN = false ∨ s.keep.vmotLow = true → exec (.wakeAccepted l) s = .next s) ∧
      (asleep s = false → ∃ t, exec (.wakeAccepted l) s = .next t ∧ t.pwr = s.pwr ∧ t.regs = s.regs ∧ t.mem = s.mem)) ∧
  (∀ (s : State) (l : List LineLevel) (n : Nat),
    (s.pwr.aoPowered = false ∧ s.pwr.pwren = false) →
    (bitAt s.pwr.keeperCfg.toNat 0 = true → bitAt s.pwr.keeperCfg.toNat 1 = false → s.keep.vmotLow = false → 1800 ≤ n →
      ∃ t, exec (.wakeAccepted [⟨bitAt s.pwr.keeperCfg.toNat 2, n⟩]) s = .next t ∧ t.pwr.pwren = true ∧ t.pwr.wake = firstWake s 1 ∧ t.regs = s.regs) ∧
      (bitAt s.pwr.keeperCfg.toNat 0 = false ∨ s.keep.vmotLow = true ∨ (∀ x ∈ l, x.length < 500) → exec (.wakeAccepted l) s = .next s)) ∧
  (∀ (s : State),
    s.pwr.aoPowered = true →
    (asleep s = true → s.on F.PWR_WAKECFG_TMREN = true → ∃ t, exec .timerWake s = .next t ∧ t.pwr.wake = firstWake s 4 ∧
      (s.get F.PWR_STAT_STATE = 3 → t.pwr.coreEn = true) ∧ t.regs = s.regs ∧ t.mem = s.mem) ∧
      (asleep s = false ∨ s.on F.PWR_WAKECFG_TMREN = false → exec .timerWake s = .next s)) ∧
  (∀ (s : State) (c : BitVec 3) (n : Nat),
    (s.pwr.entryTo = none ∧ s.pwr.aoPowered = true ∧ wakeSource c.toNat s = some n) →
    (s.get F.PWR_STAT_STATE = 2 → ∃ t, exec (.sleepExit c) s = .next t ∧ t.get F.PWR_STAT_STATE < 2 ∧ t.on F.SYS_CLKMON_LOCK = true ∧
      t.sys.suspended = false ∧ t.sys.okWindows = 0 ∧ t.safe.kickTick = s.tick ∧ t.pwr.wake = none ∧
      t.get F.PWR_WREC_SRC = n % 8 ∧ t.get F.PWR_WREC_FROM = 2 ∧ (s.pwr.entryTick = s.tick → t.get F.PWR_ELAPSED_ELAPSED = s.get F.PWR_ELAPSED_ELAPSED) ∧
      (s.get F.PWR_CNT_WAKECNT < 255 → t.get F.PWR_CNT_WAKECNT = s.get F.PWR_CNT_WAKECNT + 1) ∧ t.mem = s.mem) ∧
      (s.get F.PWR_STAT_STATE = 3 → ∃ t, exec (.deepExit c) s = .next t ∧ begun 7 false s t ∧ cutKept s t ∧
      t.get F.PWR_WREC_SRC = n % 8 ∧ t.get F.PWR_WREC_FROM = 3)) ∧
  (∀ (s : State) (c : BitVec 3),
    (s.get F.PWR_STAT_STATE ≠ 2 ∨ wakeSource c.toNat s = none → exec (.sleepExit c) s = .next s) ∧
      (s.get F.PWR_STAT_STATE ≠ 3 ∨ wakeSource c.toNat s = none → exec (.deepExit c) s = .next s) ∧
      (∀ n, s.pwr.wake = some n → wakeSource c.toNat s = some n) ∧
      (s.pwr.wake = none → s.get F.PWR_STAT_STATE = 3 → wakeSource 5 s = none)) ∧
  (∀ (s : State) (c : BitVec 3),
    (∀ n, s.pwr.aoPowered = false → s.keep.vmotLow = false → s.pwr.armed = true → s.pwr.pwren = false ∨ s.pwr.wake.isSome = true →
      wakeSource c.toNat s = some n → ∃ t, exec (.offExit c) s = .next t ∧ begun 8 true s t ∧
      t.pwr.aoPowered = true ∧ t.on F.SAFE_STAT_CUT = false ∧ t.get F.PWR_WREC_SRC = n % 8 ∧ t.get F.PWR_WREC_FROM = 4 ∧
      t.on F.PWR_WREC_TVALID = false) ∧
      (s.pwr.aoPowered = true ∨ s.keep.vmotLow = true ∨ (s.pwr.pwren = true ∧ s.pwr.wake = none) ∨ wakeSource c.toNat s = none →
      exec (.offExit c) s = .next s)) ∧
  (∀ (s : State) (m : BitVec 12),
    (m ≠ 0 ∧ s.get F.PWR_STAT_STATE ≠ 3 ∧ s.pwr.aoPowered = true ∧ s.pwr.held = false) →
    ∃ t, exec (.sentinelTrip m) s = .next t ∧ t.get F.PWR_SENT_TRIP = m.toNat ∧ t.on F.SAFE_STAT_CUT = true ∧ t.bit F.SAFE_CAUSE_CAUSE causeSentinel = true ∧
      t.pwr.held = true ∧ t.sys.vRuns = false ∧ t.sys.sDown = true ∧ t.cont.leadOut = false ∧ t.get F.CONT_STAT_ROLE = 0 ∧ t.cont.transfers = [] ∧
      (∀ r : Requester, r ≠ .g → r ≠ .scrubber → issues t r = false) ∧ t.sys.gDown = s.sys.gDown ∧
      (s.get F.PWR_CNT_SENTCNT < 255 → t.get F.PWR_CNT_SENTCNT = s.get F.PWR_CNT_SENTCNT + 1) ∧
      ∀ b : Bridge, isoClosed t b = false ∧ mcMode t b = 0) ∧
  (∀ (s : State) (m : BitVec 12),
    (m = 0 ∨ s.get F.PWR_STAT_STATE = 3 ∨ s.pwr.aoPowered = false ∨ s.pwr.held = true) →
    exec (.sentinelTrip m) s = .next s) ∧
  (∀ (s : State) (v : Bool),
    (s.pwr.held = true → keeperTakes s = true → ∃ t, exec (.sentinelRecovery v) s = .next t ∧ begun (if v then 2 else 3) false s t ∧ cutKept s t ∧
      t.on F.PWR_SENT_COLLAPSE = v ∧ t.get F.PWR_SENT_TRIP = s.get F.PWR_SENT_TRIP ∧ t.pwr.held = false) ∧
      (s.pwr.held = false → exec (.sentinelRecovery v) s = .next s)) ∧
  (∀ (s : State),
    (∃ t, exec .vmotHoldFall s = .next t ∧ t.keep.vmotLow = true ∧ t.keep.stood = s.keep.stood ∧ t.regs = s.regs ∧ t.mem = s.mem) ∧
      (s.keep.vmotLow = false → exec .vmotHoldRise s = .next s) ∧
      (s.keep.vmotLow = true → s.pwr.aoPowered = false → s.pwr.pwren = false → ∃ t, exec .vmotHoldRise s = .next t ∧ t.pwr.pwren = true ∧
      t.pwr.wake = firstWake s 0 ∧ t.keep.vmotLow = false) ∧
      (s.keep.vmotLow = true → keeperTakes s = true → s.keep.clearedPowered = true → ∃ t, exec .vmotHoldRise s = .next t ∧ begun 0xB true s t ∧
      cutKept s t ∧ t.keep.vmotLow = false)) ∧
  ((∀ (s : State) (x0 : Requester) (x1 : BitVec 4), ∃ t, exec (.voteWrite x0 x1) s = .next t ∧ t.pending = s.pending) ∧
      (∀ (s : State) (x0 : Requester) (x1 : BitVec 4), ∃ t, exec (.hostVoteWrite x0 x1) s = .next t ∧ t.pending = s.pending) ∧
      (∀ (s : State), ∃ t, exec .powerEntryDone s = .next t ∧ t.pending = s.pending) ∧
      (∀ (s : State) (x0 : Pair), ∃ t, exec (.pairGate x0) s = .next t ∧ t.pending = s.pending) ∧
      (∀ (s : State) (x0 : List LineLevel), ∃ t, exec (.wakeAccepted x0) s = .next t ∧ t.pending = s.pending) ∧
      (∀ (s : State), ∃ t, exec .timerWake s = .next t ∧ t.pending = s.pending) ∧
      (∀ (s : State) (x0 : BitVec 3), ∃ t, exec (.sleepExit x0) s = .next t ∧ t.pending = s.pending) ∧
      (∀ (s : State) (x0 : BitVec 3), ∃ t, exec (.deepExit x0) s = .next t ∧ t.pending = s.pending) ∧
      (∀ (s : State) (x0 : BitVec 3), ∃ t, exec (.offExit x0) s = .next t ∧ t.pending = s.pending) ∧
      (∀ (s : State) (x0 : BitVec 12), ∃ t, exec (.sentinelTrip x0) s = .next t ∧ t.pending = s.pending) ∧
      (∀ (s : State) (x0 : Bool), ∃ t, exec (.sentinelRecovery x0) s = .next t ∧ t.pending = s.pending) ∧
      (∀ (s : State), ∃ t, exec .vmotHoldFall s = .next t ∧ t.pending = s.pending) ∧
      (∀ (s : State), ∃ t, exec .vmotHoldRise s = .next t ∧ t.pending = s.pending))

/-- A write sets the pointer with its first byte and stores the inbox bytes that follow; a byte at 0x80 or above is refused, and with it, as its sender stops at the NACK, the rest of the write (log entry 55). The JTAG data registers keep what was shifted in (log entry 59). A read returns bytes from the pointer on. A match in SLEEP or DEEP with MPEN holds SCL and wakes the lane. JTAG instructions that are not available act as BYPASS; PROVISION writes slot 1 once, in DELIVERED, with a matching digest and a valid key. -/
def Obligations.MportAndJtag : Prop :=
  (∀ (s : State) (p : Byte) (b : Byte),
    (s.pwr.aoPowered = true ∧ s.on F.MPORT_CTRL_EN = true ∧ p.toNat < 128) →
    ∃ t, exec (.mportWrite [p, b]) s = .next t ∧ mportByte t p.toNat = b ∧ (∀ i, i < 256 → i ≠ p.toNat → mportByte t i = mportByte s i) ∧
      t.mport.ptr = p + 1 ∧ t.get F.MPORT_PTR_PTR = p.toNat + 1 ∧ t.get F.MPORT_PTR_LEN = 2 ∧ t.on F.MPORT_STAT_WREV = true ∧
      t.on F.MPORT_STAT_BUSY = false ∧ t.on F.MPORT_STAT_NAKEV = s.on F.MPORT_STAT_NAKEV ∧ .mport ∈ t.irqs ∧ t.mem = s.mem) ∧
  (∀ (s : State) (p : Byte) (b : Byte) (l : List Byte),
    (s.pwr.aoPowered = true ∧ s.on F.MPORT_CTRL_EN = true ∧ 128 ≤ p.toNat) →
    ∃ t, exec (.mportWrite (p :: b :: l)) s = .next t ∧ (∀ i, i < 256 → mportByte t i = mportByte s i) ∧ t.mport.ptr = p ∧
      t.on F.MPORT_STAT_NAKEV = true ∧ t.on F.MPORT_STAT_WREV = true ∧ t.mem = s.mem) ∧
  (∀ (s : State) (p : Byte) (l : List Byte),
    (s.pwr.aoPowered = true ∧ s.on F.MPORT_CTRL_EN = true) →
    (p.toNat + l.length ≤ 128 ∧ l.length < 255) →
    ∃ t, exec (.mportWrite (p :: l)) s = .next t ∧ (∀ i, i < l.length → mportByte t (p.toNat + i) = l.getD i 0) ∧
      (∀ i, i < 256 → i < p.toNat ∨ p.toNat + l.length ≤ i → mportByte t i = mportByte s i) ∧ t.mport.ptr.toNat = p.toNat + l.length ∧
      t.get F.MPORT_PTR_LEN = l.length + 1 ∧ t.on F.MPORT_STAT_WREV = true ∧ t.on F.MPORT_STAT_NAKEV = s.on F.MPORT_STAT_NAKEV ∧ t.mem = s.mem) ∧
  (∀ (s : State) (p : Byte),
    (s.pwr.aoPowered = true ∧ s.on F.MPORT_CTRL_EN = true) →
    ∃ t, exec (.mportWrite [p]) s = .next t ∧ t.mport.ptr = p ∧ t.get F.MPORT_PTR_PTR = p.toNat ∧ t.get F.MPORT_PTR_LEN = 1 ∧
      (∀ i, i < 256 → mportByte t i = mportByte s i) ∧ t.on F.MPORT_STAT_WREV = true ∧ t.on F.MPORT_STAT_NAKEV = s.on F.MPORT_STAT_NAKEV ∧ t.mem = s.mem) ∧
  (∀ (s : State) (p : Byte) (l : List Byte),
    (s.pwr.aoPowered = true ∧ s.on F.MPORT_CTRL_EN = true) →
    (p.toNat < 128 ∧ 128 < p.toNat + l.length) →
    ∃ t, exec (.mportWrite (p :: l)) s = .next t ∧ (∀ i, i < 128 - p.toNat → mportByte t (p.toNat + i) = l.getD i 0) ∧
      (∀ i, i < 256 → i < p.toNat ∨ 128 ≤ i → mportByte t i = mportByte s i) ∧ t.mport.ptr = 128 ∧
      t.on F.MPORT_STAT_NAKEV = true ∧ t.on F.MPORT_STAT_WREV = true ∧ t.mem = s.mem) ∧
  (∀ (s : State) (n : Nat),
    (s.pwr.aoPowered = true ∧ s.on F.MPORT_CTRL_EN = true) →
    ∃ t, exec (.mportRead n) s = .next t ∧ t.mport.sentBytes = (List.range n).map (fun i => mportByte s ((s.mport.ptr.toNat + i) % 256)) ∧
      t.mport.ptr = s.mport.ptr + BitVec.ofNat 8 n ∧ t.get F.MPORT_PTR_PTR = (s.mport.ptr.toNat + n) % 256 ∧ t.on F.MPORT_STAT_RDEV = true ∧
      (∀ i, i < 256 → mportByte t i = mportByte s i) ∧ t.mem = s.mem) ∧
  (∀ (s : State) (l : List Byte) (n : Nat) (a : BitVec 7) (r : Bool),
    (s.pwr.aoPowered = false ∨ s.on F.MPORT_CTRL_EN = false) →
    exec (.mportWrite l) s = .next s ∧ exec (.mportRead n) s = .next s ∧ exec (.mportAddressMatch a r) s = .next s) ∧
  (∀ (s : State) (a : BitVec 7) (r : Bool),
    (s.pwr.aoPowered = true ∧ s.on F.MPORT_CTRL_EN = true) →
    (a.toNat ≠ s.get F.MPORT_CTRL_ADDR → exec (.mportAddressMatch a r) s = .next s) ∧
      (a.toNat = s.get F.MPORT_CTRL_ADDR → s.get F.PWR_STAT_STATE = 2 ∨ s.get F.PWR_STAT_STATE = 3 → s.on F.PWR_WAKECFG_MPEN = true → ∃ t, exec (.mportAddressMatch a r) s = .next t ∧
      t.mport.stretch = true ∧ t.on F.MPORT_STAT_MATCHWK = true ∧ t.pwr.wake = firstWake s 3 ∧ t.mem = s.mem) ∧
      (a.toNat = s.get F.MPORT_CTRL_ADDR → s.get F.PWR_STAT_STATE < 2 → s.pwr.entryTo.isSome = true → s.on F.PWR_WAKECFG_MPEN = true →
      ∃ t, exec (.mportAddressMatch a r) s = .next t ∧ t.mport.stretch = s.mport.stretch ∧ t.on F.MPORT_STAT_MATCHWK = true ∧
      t.pwr.wake = firstWake s 3) ∧
      (a.toNat = s.get F.MPORT_CTRL_ADDR → asleep s = false → s.get F.PWR_STAT_STATE < 2 → ∃ t, exec (.mportAddressMatch a r) s = .next t ∧ t.mport.stretch = s.mport.stretch ∧
      t.on F.MPORT_STAT_BUSY = true ∧ t.pwr = s.pwr)) ∧
  (∀ (s : State),
    (s.mport.stretch = true → ∃ t, exec .mportClockRelease s = .next t ∧ t.mport.stretch = false ∧ t.on F.MPORT_STAT_BUSY = true ∧ t.pwr = s.pwr) ∧
      (s.mport.stretch = false → exec .mportClockRelease s = .next s)) ∧
  (∀ (s : State) (p : BitVec 168),
    (∃ t, exec .idcode s = .next t ∧ t.jtag.instr = 1 ∧ t.jtag.out = 0x23620A4B ∧ t.jtag.drive = .normal ∧ t.regs = s.regs ∧ t.mem = s.mem) ∧
      (∃ t, exec .bypass s = .next t ∧ t.jtag.instr = 31 ∧ t.jtag.drive = .normal ∧ t.regs = s.regs ∧ t.mem = s.mem) ∧
      (∃ t, exec (.samplePreload p) s = .next t ∧ t.jtag.instr = 2 ∧ t.jtag.cells = p ∧ t.jtag.drive = .normal ∧ t.regs = s.regs ∧ t.mem = s.mem) ∧
      (pinsOpen s = true → ∃ t, exec (.extest p) s = .next t ∧ t.jtag.instr = 0 ∧ t.jtag.drive = .driven p ∧ t.regs = s.regs ∧ t.mem = s.mem) ∧
      (pinsOpen s = true → ∃ t, exec .clampPins s = .next t ∧ t.jtag.instr = 4 ∧ t.jtag.drive = .driven s.jtag.cells ∧ t.regs = s.regs) ∧
      (pinsOpen s = true → ∃ t, exec .highz s = .next t ∧ t.jtag.instr = 5 ∧ t.jtag.drive = .highZ ∧ t.regs = s.regs) ∧
      (pinsOpen s = false → exec (.extest p) s = exec .bypass s ∧ exec .clampPins s = exec .bypass s ∧ exec .highz s = exec .bypass s)) ∧
  (∀ (s : State) (v : Word) (w : BitVec 41),
    (s.on F.KEEP_STAT_DBGOPEN = false → exec (.dtmcs v) s = exec .bypass s ∧ exec (.dmi w) s = exec .bypass s) ∧
      (s.on F.KEEP_STAT_DBGOPEN = true → (∃ t, exec (.dtmcs v) s = .next t ∧ t.jtag.instr = 16 ∧ t.jtag.dtmcs = v ∧ t.regs = s.regs ∧ t.mem = s.mem) ∧
      ∃ t, exec (.dmi w) s = .next t ∧ t.jtag.instr = 17 ∧ t.jtag.dmi = w ∧ t.regs = s.regs ∧ t.mem = s.mem)) ∧
  (∀ (s : State) (k : BitVec 512) (d : BitVec 256),
    (s.keep.store.provisioned = true → exec (.provision k d) s = exec .bypass s) ∧
      (s.keep.store.provisioned = false → ∃ t, exec (.provision k d) s = .next t ∧ t.keep.store.provisioned = false ∧ t.mem = s.mem ∧
      (sm3 (beBytes 64 k.toNat) = d → validPoint k = true → s.keep.store.slot 1 = 0 →
      t.keep.store.key 1 = k ∧ t.keep.store.slot 1 = 1 ∧ t.get F.KEEP_SLOT_STATE / 4 % 4 = 1) ∧
      (sm3 (beBytes 64 k.toNat) ≠ d ∨ validPoint k = false ∨ s.keep.store.slot 1 ≠ 0 → t.keep.store = s.keep.store))) ∧
  (∀ (s : State) (m : BitVec 4),
    (s.on F.KEEP_STAT_DBGOPEN = true → exec (.traceSelectWrite m) s = .next (s.put F.DBG_TRACE_SRC m.toNat)) ∧
      (s.on F.KEEP_STAT_DBGOPEN = false → exec (.traceSelectWrite m) s = .next s))

/-- A scrub read of the next word of its pass advances it, and the last one ends the pass; a corrected word is counted and the third correction in a pass is entered in the ledger; an uncorrectable one is captured. Weak sectors wait for the next cold start. A mean ratio error over 1/256, of a second with 1000 samples of a current over 1/8 of full scale, moves a sense trim by one unit against it. The model's choices: the errors are of magnitudes and the scrubber goes by ascending address (log entry 104), weak data pages show nothing (log entry 56), and the time of a condition is counted in ticks of 5 ns (log entry 48). A time counter gains a millisecond every 200 000 ticks of its condition; the mirror and the snapshot hold the counters. A submitted record is moved with its RSEQ, none before its commit is overwritten, and a commit writes whole pages of 16 records and erases a sector before the write pointer enters it. Where G does not run, none of its commands has an effect. While the PLL-clocked blocks stand (RESET_N low, SLEEP or deeper, no always-on supply, held by a sentinel trip) the commands of those blocks change nothing (R546, R583, R604). -/
def Obligations.BackgroundServices : Prop :=
  (∀ (s : State) (w : Word) (f : EccFinding),
    (inSram w.toNat = true ∧ scrubTurn s w.toNat = true ∧ issues s .scrubber = true) →
    ∃ t, exec (.scrubRead w f) s = .next t ∧
      (f = .single → s.get F.BKG_CECNT_CECNT < 65535 → t.get F.BKG_CECNT_CECNT = s.get F.BKG_CECNT_CECNT + 1) ∧
      (f = .single → Tab.get (fun _ => 0) s.bkg.corrected (w.toNat / 4) = 2 → w.toNat / 4 ∈ t.bkg.rows) ∧
      (f = .uncorrectable → s.on F.BKG_STAT_UEVALID = false → t.on F.BKG_STAT_UEVALID = true ∧ t.get F.BKG_UEADDR_ADDR = w.toNat ∧
      t.get F.BKG_UECNT_REQ = 18) ∧
      (f = .uncorrectable → s.on F.BKG_STAT_UEVALID = true → t.get F.BKG_UEADDR_ADDR = s.get F.BKG_UEADDR_ADDR) ∧
      (scrubIndex w.toNat < 98303 → t.bkg.scrub[(scrubBank w.toNat).val] = scrubIndex w.toNat + 1 ∧ t.get F.BKG_SCRUB_PASSES = s.get F.BKG_SCRUB_PASSES) ∧
      (scrubIndex w.toNat = 98303 → (∀ i : Fin 8, i ≠ scrubBank w.toNat → 98304 ≤ s.bkg.scrub[i.val]) →
      t.get F.BKG_SCRUB_PASSES = (s.get F.BKG_SCRUB_PASSES + 1) % 65536 ∧ t.get F.BKG_SCRUB_LASTMS ≤ 2000 ∧ t.bkg.corrected = [] ∧
      ∀ i : Fin 8, t.bkg.scrub[i.val] = 0) ∧
      (f = .clean → t.mem = s.mem ∧ t.bkg.wear = s.bkg.wear)) ∧
  (∀ (s : State) (w : Word) (f : EccFinding),
    ((inSram w.toNat = false ∧ inRetention w.toNat = false) ∨ scrubTurn s w.toNat = false ∨ issues s .scrubber = false) →
    exec (.scrubRead w f) s = .next s) ∧
  (∀ (s : State) (l : List (Fin 2048)),
    issues s .g = true →
    ∃ t, exec (.dataNvmMarginPass l) s = .next t ∧ (∀ a, t.byte a = s.byte a) ∧ t.regs = s.regs ∧ t.bkg = s.bkg) ∧
  (∀ (s : State) (l : List (Fin 1536)),
    issues s .g = true →
    ∃ t, exec (.codeNvmMarginPass l) s = .next t ∧ (∀ x ∈ l, x ∈ t.keep.weak) ∧ (∀ x ∈ s.keep.weak, x ∈ t.keep.weak) ∧
      (t.keep.weak.length < 2048 → t.get F.BKG_WEAK_NWEAK = t.keep.weak.length) ∧ (s.keep.weak.Nodup → t.keep.weak.Nodup) ∧ t.mem = s.mem) ∧
  (∀ (s : State),
    coreStopped s = false →
    (bridgeUsed s 0 = true → bridgeUsed s 1 = true → exec .calibrationPeriod s = .next (calRequest 1 (calRequest 0 s))) ∧
      (bridgeUsed s 0 = true → bridgeUsed s 1 = false → exec .calibrationPeriod s = .next (calRequest 0 s)) ∧
      (∀ b : Bridge, bitAt s.bkg.retry.toNat b = true → exec (.calibrationRetry b) s = .next (calRequest b s)) ∧
      (∀ b : Bridge, bitAt s.bkg.retry.toNat b = false → exec (.calibrationRetry b) s = .next s)) ∧
  (∀ (s : State) (b : Bridge) (j : Switch) (c : List Nat) (v : List Int) (l : List Rat),
    (issues s .g = true ∧ senseErrors s b j c v = l ∧ 1000 ≤ l.length ∧ (l.length : Rat) < 256 * l.sum.abs ∧ s.sys.linkLost = false ∧ s.driver.linkLost = false ∧ (s.getS (F.GD_SNSTRIM_TRIM b j)).natAbs ≤ 32) →
    ∃ t, exec (.senseTrimUpdate b j c v) s = .next t ∧ (t.getS (F.GD_SNSTRIM_TRIM b j)).natAbs ≤ 32 ∧
      (0 < l.sum → -32 < s.getS (F.GD_SNSTRIM_TRIM b j) → t.getS (F.GD_SNSTRIM_TRIM b j) = s.getS (F.GD_SNSTRIM_TRIM b j) - 1) ∧
      (l.sum < 0 → s.getS (F.GD_SNSTRIM_TRIM b j) < 32 → t.getS (F.GD_SNSTRIM_TRIM b j) = s.getS (F.GD_SNSTRIM_TRIM b j) + 1) ∧ t.mem = s.mem) ∧
  (∀ (s : State) (b : Bridge) (j : Switch) (c : List Nat) (v : List Int),
    issues s .g = true →
    ((senseErrors s b j c v).length < 1000 ∨ 256 * (senseErrors s b j c v).sum.abs ≤ (senseErrors s b j c v).length) →
    exec (.senseTrimUpdate b j c v) s = .next s) ∧
  (∀ (s : State) (b : Bridge) (j : Switch) (k : Nat) (x i : Int) (p : PhaseSet),
    (s.bkg.inline[b.val].find? (fun q => q.at_ == k) = some p ∧ s.tick < k + 200000000 ∧ i = (if j.val % 3 = 0 then p.i1 else if j.val % 3 = 1 then p.i2 else p.i3).natAbs) →
    senseErrors s b j [k] [x] = (if 65536 < i then [((x.natAbs - i : Int) : Rat) / i] else [])) ∧
  (∀ (s : State),
    issues s .g = true →
    ∃ t, exec .counterMirror s = .next t ∧ t.bkg.mirror = some t.bkg.wear ∧ t.bkg.mirrorOvf = t.bkg.wearOvf ∧ t.bkg.changed = false ∧ t.mem = s.mem ∧
      t.bkg.wear = s.bkg.wear) ∧
  (∀ (s : State) (l : List (Fin 2048)) (m : List (Fin 1536)) (b : Bridge) (j : Switch) (c : List Nat) (v : List Int),
    issues s .g = false →
    exec (.dataNvmMarginPass l) s = .next s ∧ exec (.codeNvmMarginPass m) s = .next s ∧ exec (.senseTrimUpdate b j c v) s = .next s ∧ exec .counterMirror s = .next s ∧ exec .counterSnapshot s = .next s ∧ exec .reelMove s = .next s ∧ exec .reelCommit s = .next s) ∧
  (∀ (s : State),
    (s.pwr.aoPowered = true ∧ s.get F.PWR_STAT_STATE ≤ 2) →
    s.on F.VBUS_STAT_CHOP = true →
    ∃ t, exec .angleClockTick s = .next t ∧ (s.bkg.stress[0] < 199999 → t.bkg.stress[0] = s.bkg.stress[0] + 1 ∧
      Tab.get (fun _ => 0) t.bkg.wear wearChop = Tab.get (fun _ => 0) s.bkg.wear wearChop) ∧
      (s.bkg.stress[0] = 199999 → t.bkg.stress[0] = 0 ∧
      Tab.get (fun _ => 0) t.bkg.wear wearChop = min 4294967295 (Tab.get (fun _ => 0) s.bkg.wear wearChop + 1))) ∧
  (∀ (s : State),
    issues s .g = true →
    ∃ t x, exec .counterSnapshot s = .next t ∧ (t.bkg.snap0 = some x ∨ t.bkg.snap1 = some x) ∧ x.wear = t.bkg.wear ∧ t.bkg.durable = t.bkg.wear ∧
      t.bkg.journals = [] ∧ x.seq = max ((s.bkg.snap0.map (·.seq)).getD 0) ((s.bkg.snap1.map (·.seq)).getD 0) + 1 ∧
      ∀ a, a < 0x11004000 ∨ 0x11008000 ≤ a → t.byte a = s.byte a) ∧
  (∀ (s : State) (q : Fin 6) (l : List Byte) (h tl : Nat),
    s.get F.BKG_QBASE_ADDR + 0xD80 ≤ 0x300000 →
    (h = (s.memWord (queueBase s q.val)).toNat ∧ tl = (s.memWord (queueBase s q.val + 4)).toNat) →
    ((h + 2 ^ 32 - tl) % 2 ^ 32 ≠ 16 → l.length = 22 → ∃ t, exec (.reelSubmit q l) s = .next t ∧
      t.bytes (queueBase s q.val + 0x40 + 32 * (h % 16) + 10) 22 = l ∧ (t.memWord (queueBase s q.val)).toNat = (h + 1) % 2 ^ 32 ∧
      t.memWord (queueBase s q.val + 4) = s.memWord (queueBase s q.val + 4) ∧ t.regs = s.regs) ∧
      ((h + 2 ^ 32 - tl) % 2 ^ 32 = 16 → ∃ t, exec (.reelSubmit q l) s = .next t ∧ t.regs = s.regs ∧
      (t.memWord (queueBase s q.val + 8)).toNat = min 0xFFFFFFFF ((s.memWord (queueBase s q.val + 8)).toNat + 1) ∧
      ∀ a, a < queueBase s q.val + 8 ∨ queueBase s q.val + 12 ≤ a → t.byte a = s.byte a)) ∧
  (∀ (s : State),
    ((∀ q, q < 6 → s.memWord (queueBase s q) = s.memWord (queueBase s q + 4)) ∧ s.bkg.own = [] ∧ s.bkg.lost = 0) →
    exec .reelMove s = .next s) ∧
  (∀ (s : State) (r : OwnRec),
    ((∀ q, q < 6 → s.memWord (queueBase s q) = s.memWord (queueBase s q + 4)) ∧ s.bkg.own = [r] ∧ s.bkg.lost = 0) →
    (issues s .g = true ∧ reelFree s = true ∧ s.get F.BKG_REELBASE_ADDR + 0x20000 ≤ 0x300000) →
    ∃ t, exec .reelMove s = .next t ∧ t.bytes (reelSlot s (s.get F.BKG_RSEQ_RSEQ)) 4 = leBytes 4 (s.get F.BKG_RSEQ_RSEQ) ∧
      t.byte (reelSlot s (s.get F.BKG_RSEQ_RSEQ) + 9) = 5 ∧ t.bytes (reelSlot s (s.get F.BKG_RSEQ_RSEQ) + 10) 22 = ownBytes s r ∧
      t.bkg.waiting = s.bkg.waiting ++ [s.get F.BKG_RSEQ_RSEQ] ∧ t.bkg.own = [] ∧
      t.get F.BKG_RSEQ_RSEQ = (if s.get F.BKG_RSEQ_RSEQ = 0xFFFFFFFE then 0 else (s.get F.BKG_RSEQ_RSEQ + 1) % 2 ^ 32)) ∧
  (∀ (s : State) (r : OwnRec),
    ((∀ q, q < 6 → s.memWord (queueBase s q) = s.memWord (queueBase s q + 4)) ∧ s.bkg.own = [r] ∧ s.bkg.lost = 0) →
    (issues s .g = true ∧ reelFree s = false) →
    ∃ t, exec .reelMove s = .next t ∧ t.mem = s.mem ∧ t.bkg.waiting = s.bkg.waiting ∧ t.get F.BKG_RSEQ_RSEQ = s.get F.BKG_RSEQ_RSEQ ∧
      (s.get F.BKG_LOST_LOSTREC < 65535 → t.get F.BKG_LOST_LOSTREC = s.get F.BKG_LOST_LOSTREC + 1)) ∧
  (∀ (s : State),
    s.bkg.waiting = [] →
    exec .reelCommit s = .next s) ∧
  (∀ (s : State) (l : List Nat),
    (issues s .g = true ∧ s.bkg.waiting.take 16 = l ∧ l.length = 16 ∧ (s.get F.BKG_RING_WPTR + 512) % 0x2000 ≠ 0 ∧ s.get F.BKG_RING_WPTR % 512 = 0) →
    ∃ t, exec .reelCommit s = .next t ∧ t.bytes (0x11000000 + s.get F.BKG_RING_WPTR) 512 = l.flatMap (fun q => s.bytes (reelSlot s q) 32) ∧
      t.bkg.waiting = s.bkg.waiting.drop 16 ∧ t.get F.BKG_COMMIT_RSEQ = (l.getLast?.getD 0) % 2 ^ 32 ∧
      t.get F.BKG_RING_WPTR = s.get F.BKG_RING_WPTR + 512 ∧
      ∀ a, a < 0x11000000 + s.get F.BKG_RING_WPTR ∨ 0x11000000 + s.get F.BKG_RING_WPTR + 512 ≤ a → t.byte a = s.byte a) ∧
  (∀ (s : State) (w : Nat),
    (issues s .g = true ∧ s.bkg.waiting ≠ []) →
    (w = (if s.get F.BKG_RING_WPTR = 0xFFE00 then 0x10000 else s.get F.BKG_RING_WPTR + 512) ∧ w % 0x2000 = 0) →
    (∀ o ∈ s.bkg.journals, o / 0x2000 ≠ w / 0x2000) →
    ∃ t, exec .reelCommit s = .next t ∧ t.get F.BKG_RING_WPTR = w % 2 ^ F.BKG_RING_WPTR.w ∧ t.bkg.waiting = s.bkg.waiting.drop 16 ∧
      ∀ a, 0x11000000 + w ≤ a → a < 0x11000000 + w + 0x2000 → t.byte a = 0xFF) ∧
  (∀ (s : State),
    coreStopped s = true →
    exec .calibrationPeriod s = .next s ∧
      (∀ (x0 : Bridge), exec (.calibrationRetry x0) s = .next s))
end

