-- ==== Sys2Proof/Laws/Tab.lean ====
section
/-!
SUPPORT. What a sparse table answers after a write, that a write keeps the canonical form, and the same for a fixed file.
-/
namespace Sys2Proof.Machine

section
variable {α : Type} (d : Nat → α)

theorem Tab.get_erase_same (t : Tab α) (k : Nat) : Tab.get d (Tab.erase t k) k = d k := by
  induction t with
  | nil => rfl
  | cons e t ih =>
    obtain ⟨j, u⟩ := e
    by_cases h : j = k <;> simp [Tab.erase, Tab.get, h, ih]

theorem Tab.get_erase_other (t : Tab α) {k k' : Nat} (h : k' ≠ k) :
    Tab.get d (Tab.erase t k) k' = Tab.get d t k' := by
  induction t with
  | nil => rfl
  | cons e t ih =>
    obtain ⟨j, u⟩ := e
    by_cases hj : j = k
    · subst hj; simp [Tab.erase, Tab.get, Ne.symm h, ih]
    · by_cases hk : j = k'
      · subst hk; simp [Tab.erase, Tab.get, hj]
      · simp [Tab.erase, Tab.get, hj, hk, ih]

theorem Tab.get_insert_other (t : Tab α) {k k' : Nat} (v : α) (h : k' ≠ k) :
    Tab.get d (Tab.insert t k v) k' = Tab.get d t k' := by
  induction t with
  | nil => simp [Tab.insert, Tab.get, Ne.symm h]
  | cons e t ih =>
    obtain ⟨j, u⟩ := e
    by_cases hj : k < j
    · simp [Tab.insert, Tab.get, hj, Ne.symm h]
    · simp [Tab.insert, Tab.get, hj, ih]

theorem Tab.get_insert_erase (t : Tab α) (k : Nat) (v : α) :
    Tab.get d (Tab.insert (Tab.erase t k) k v) k = v := by
  induction t with
  | nil => simp [Tab.insert, Tab.erase, Tab.get]
  | cons e t ih =>
    obtain ⟨j, u⟩ := e
    by_cases hj : j = k
    · simpa [Tab.erase, hj] using ih
    · by_cases hk : k < j
      · simp [Tab.insert, Tab.erase, Tab.get, hj, hk]
      · simp [Tab.insert, Tab.erase, Tab.get, hj, hk, ih]

end

section
variable {α : Type} [DecidableEq α] (d : Nat → α)

/-- A key reads back what was written to it. -/
@[simp] theorem Tab.get_put_same (t : Tab α) (k : Nat) (v : α) : Tab.get d (Tab.put d t k v) k = v := by
  unfold Tab.put
  split
  · next h => rw [Tab.get_erase_same, h]
  · exact Tab.get_insert_erase d t k v

/-- Every other key keeps what it held. -/
theorem Tab.get_put_other (t : Tab α) {k k' : Nat} (v : α) (h : k' ≠ k) :
    Tab.get d (Tab.put d t k v) k' = Tab.get d t k' := by
  unfold Tab.put
  split
  · exact Tab.get_erase_other d t h
  · rw [Tab.get_insert_other d _ v h, Tab.get_erase_other d t h]

theorem Tab.wfFrom_mono {lo hi : Nat} (h : lo ≤ hi) {t : Tab α} (w : Tab.wfFrom d hi t = true) :
    Tab.wfFrom d lo t = true := by
  cases t with
  | nil => rfl
  | cons e t =>
    obtain ⟨k, v⟩ := e
    simp only [Tab.wfFrom, Bool.and_eq_true, decide_eq_true_eq] at w ⊢
    exact ⟨⟨by omega, w.1.2⟩, w.2⟩

theorem Tab.wfFrom_erase {lo : Nat} {t : Tab α} (w : Tab.wfFrom d lo t = true) (k : Nat) :
    Tab.wfFrom d lo (Tab.erase t k) = true := by
  induction t generalizing lo with
  | nil => rfl
  | cons e t ih =>
    obtain ⟨j, u⟩ := e
    simp only [Tab.wfFrom, Bool.and_eq_true, decide_eq_true_eq] at w
    by_cases h : j = k
    · simp only [Tab.erase, h, if_true]
      exact Tab.wfFrom_mono d (by omega) (ih w.2)
    · simp only [Tab.erase, h, if_false, Tab.wfFrom, Bool.and_eq_true, decide_eq_true_eq]
      exact ⟨w.1, ih w.2⟩

theorem Tab.wfFrom_insert {lo : Nat} {t : Tab α} (w : Tab.wfFrom d lo t = true) {k : Nat} (h : lo ≤ k) {v : α}
    (hv : v ≠ d k) (hk : ∀ u, (k, u) ∉ t) : Tab.wfFrom d lo (Tab.insert t k v) = true := by
  induction t generalizing lo with
  | nil => simp [Tab.insert, Tab.wfFrom, h, hv]
  | cons e t ih =>
    obtain ⟨j, u⟩ := e
    have w' := w
    simp only [Tab.wfFrom, Bool.and_eq_true, decide_eq_true_eq] at w'
    have hjk : j ≠ k := fun e => hk u (by simp [e])
    by_cases hj : k < j
    · simp only [Tab.insert, hj, if_true, Tab.wfFrom, Bool.and_eq_true, decide_eq_true_eq]
      exact ⟨⟨h, hv⟩, ⟨by omega, w'.1.2⟩, w'.2⟩
    · simp only [Tab.insert, hj, if_false, Tab.wfFrom, Bool.and_eq_true, decide_eq_true_eq]
      exact ⟨w'.1, ih w'.2 (by omega) (fun x hx => hk x (by simp [hx]))⟩

theorem Tab.not_mem_erase {β : Type} (t : Tab β) (k : Nat) (u : β) : (k, u) ∉ Tab.erase t k := by
  induction t with
  | nil => simp [Tab.erase]
  | cons e t ih =>
    obtain ⟨j, w⟩ := e
    by_cases h : j = k
    · simpa [Tab.erase, h] using ih
    · simp [Tab.erase, h, ih, Ne.symm h]

/-- A write keeps the canonical form. -/
theorem Tab.wf_put {t : Tab α} (w : Tab.wf d t = true) (k : Nat) (v : α) : Tab.wf d (Tab.put d t k v) = true := by
  unfold Tab.put
  split
  · exact Tab.wfFrom_erase d w k
  · next h => exact Tab.wfFrom_insert d (Tab.wfFrom_erase d w k) (Nat.zero_le k) h (Tab.not_mem_erase t k)

/-- Entries left out keep the canonical form. -/
theorem Tab.wfFrom_filter {lo : Nat} {t : Tab α} (w : Tab.wfFrom d lo t = true) (p : Nat × α → Bool) :
    Tab.wfFrom d lo (t.filter p) = true := by
  induction t generalizing lo with
  | nil => rfl
  | cons e t ih =>
    obtain ⟨j, u⟩ := e
    simp only [Tab.wfFrom, Bool.and_eq_true, decide_eq_true_eq] at w
    by_cases h : p (j, u) = true
    · simp only [List.filter_cons, h, if_true, Tab.wfFrom, Bool.and_eq_true, decide_eq_true_eq]
      exact ⟨w.1, ih w.2⟩
    · simp only [List.filter_cons, h]
      exact Tab.wfFrom_mono d (by omega) (ih w.2)

theorem Tab.wf_filter {t : Tab α} (w : Tab.wf d t = true) (p : Nat × α → Bool) : Tab.wf d (t.filter p) = true :=
  Tab.wfFrom_filter d w p

end

@[simp] theorem upd_same {β : Type} {n : Nat} (v : Vector β n) (i : Fin n) (f : β → β) :
    (upd v i f)[i.val] = f v[i.val] := by simp [upd]

theorem upd_other {β : Type} {n : Nat} (v : Vector β n) {i j : Fin n} (f : β → β) (h : i ≠ j) :
    (upd v i f)[j.val] = v[j.val] := by
  have : i.val ≠ j.val := fun e => h (Fin.ext e)
  simp [upd, this]

end Sys2Proof.Machine
end

