-- ==== Sys2Proof/Laws/KeptOps.lean ====
section
/-!
SUPPORT. What every operation of Machine/Ops.lean, Machine/Wear.lean, Machine/Authority.lean, Machine/Switches.lean, Machine/Trig.lean, Machine/MotorOps.lean, Machine/EngineOps.lean, Machine/GateOps.lean, Machine/SafeOps.lean, Machine/ContOps.lean, Machine/AngleOps.lean keeps: the queue of waiting commands and the canonical forms of
memory and registers. One lemma per operation, cited by the lemmas of the operations that call it.
-/
set_option Elab.async false
set_option linter.unusedTactic false
set_option linter.unreachableTactic false
namespace Sys2Proof.Machine

/-- What every operation keeps: the queue of waiting commands, and the canonical forms. -/

structure Kept (u t : State) : Prop where
  queue : t.pending = u.pending
  forms : u.wf = true → t.wf = true

theorem Kept.refl (s : State) : Kept s s := ⟨rfl, id⟩

theorem Kept.upd {u s t : State} (h : Kept u s) (hp : t.pending = s.pending)
    (hr : Registers.wf s.regs = true → Registers.wf t.regs = true)
    (hm : Memory.wf s.mem = true → Memory.wf t.mem = true) : Kept u t :=
  ⟨hp.trans h.queue, fun w => by
    have := h.forms w
    simp only [State.wf, Bool.and_eq_true] at this ⊢
    exact ⟨hm this.1, hr this.2⟩⟩

/-- A state written out from another that keeps its queue, registers and memory. -/

theorem kept_mk {u s : State} {regs : Tab Word} {mem : List Host.Cell} {pending : List Instr} {fresh : Nat} {tick : Nat} {bus : BusReply} {irqs : List Irq} {sealApplied : Bool} {sys : Sys} {cores : Vector Core 4} {ang : Vector Ang 2} {pos : Vector Pos 2} {sent : Vector Sent 4} {emu : Emu} {borrow : Borrow} {isnsB : Vector IsnsBridge 2} {isnsC : Vector IsnsChan 4} {eng : Vector Engine 7} {mc : Vector Mc 2} {gate : Vector GateBridge 2} {driver : Driver} {cont : Cont} {peers : Vector Peer 3} {ebp : Vector Ebp 2} {lines : Lines} {safe : Safe} {twin : Vector Twin 16} {can : Vector Can 4} {usl : Usl} {time : NetTime} {host : HostIf} {keep : Keep} {jtag : Jtag} {pwr : Pwr} {mport : Mport} {bkg : Bkg}
    (h : Kept u s) (hp : pending = s.pending) (hr : regs = s.regs) (hm : mem = s.mem) :
    Kept u ⟨regs, mem, pending, fresh, tick, bus, irqs, sealApplied, sys, cores, ang, pos, sent, emu, borrow, isnsB, isnsC, eng, mc, gate, driver, cont, peers, ebp, lines, safe, twin, can, usl, time, host, keep, jtag, pwr, mport, bkg⟩ :=
  h.upd hp (fun w => hr ▸ w) (fun w => hm ▸ w)

theorem kept_ite {u a b : State} {c : Prop} [Decidable c] (ha : Kept u a) (hb : Kept u b) : Kept u (if c then a else b) := by
  split <;> assumption

theorem kept_foldl {β : Type} {u : State} {l : List β} {f : State → β → State} {s : State}
    (hf : ∀ s x, Kept u s → Kept u (f s x)) (h : Kept u s) : Kept u (l.foldl f s) := by
  induction l generalizing s with
  | nil => exact h
  | cons x t ih => exact ih (hf _ _ h)

theorem kept_id {u s : State} (h : Kept u s) : Kept u (id s) := h

theorem kept_wr {u s0 : State} {a1 : Nat} {a2 : Word} (h0 : Kept u s0) : Kept u (s0.wr a1 a2) :=
  h0.upd rfl (fun w => Tab.wf_put resetWord w _ _) id

theorem kept_put {u : State} {s : State} {f : Fld} {v : ℕ} (h0 : Kept u s) :
    Kept u (State.put s f v) := by
  unfold State.put; try dsimp only
  repeat' (first | with_reducible assumption | with_reducible apply kept_wr)

theorem kept_putS {u : State} {s : State} {f : Fld} {v : ℤ} (h0 : Kept u s) :
    Kept u (State.putS s f v) := by
  unfold State.putS; try dsimp only
  repeat' (first | with_reducible assumption | with_reducible apply kept_put)

theorem kept_putB {u : State} {s : State} {f : Fld} {b : Bool} (h0 : Kept u s) :
    Kept u (State.putB s f b) := by
  unfold State.putB; try dsimp only
  repeat' (first | with_reducible assumption | with_reducible apply kept_put)

theorem kept_putBit {u : State} {s : State} {f : Fld} {i : ℕ} {b : Bool} (h0 : Kept u s) :
    Kept u (State.putBit s f i b) := by
  unfold State.putBit; try dsimp only
  repeat' (first | with_reducible assumption | with_reducible apply kept_put)

theorem kept_when {u : State} {s : State} {c : Bool} {f : State → State} (h0 : Kept u s) (h2 : ∀ t0, Kept u t0 → Kept u (f t0)) :
    Kept u (State.when s c f) := by
  unfold State.when; try dsimp only
  repeat' (first
    | with_reducible assumption | with_reducible apply h2 | with_reducible apply kept_ite
    | (intro; intros; try dsimp only))

theorem kept_count {u : State} {s : State} {cnt : Fld} {ovf : Fld} (h0 : Kept u s) :
    Kept u (State.count s cnt ovf) := by
  unfold State.count; try dsimp only
  repeat' (first | with_reducible assumption | with_reducible apply kept_put | with_reducible apply kept_ite)

theorem kept_countBit {u : State} {s : State} {cnt : Fld} {ovf : Fld} {i : ℕ} (h0 : Kept u s) :
    Kept u (State.countBit s cnt ovf i) := by
  unfold State.countBit; try dsimp only
  repeat' (first
    | with_reducible assumption | with_reducible apply kept_putBit | with_reducible apply kept_put
    | with_reducible apply kept_ite)

theorem kept_countN {u : State} {s : State} {cnt : Fld} {ovf : Fld} {n : ℕ} (h0 : Kept u s) :
    Kept u (State.countN s cnt ovf n) := by
  unfold State.countN; try dsimp only
  repeat' (first | with_reducible assumption | with_reducible apply kept_put | with_reducible apply kept_ite)

theorem kept_sat {u : State} {s : State} {cnt : Fld} (h0 : Kept u s) :
    Kept u (State.sat s cnt) := by
  unfold State.sat; try dsimp only
  repeat' (first | with_reducible assumption | with_reducible apply kept_put | with_reducible apply kept_ite)

theorem kept_inc {u : State} {s : State} {cnt : Fld} (h0 : Kept u s) :
    Kept u (State.inc s cnt) := by
  unfold State.inc; try dsimp only
  repeat' (first | with_reducible assumption | with_reducible apply kept_put)

theorem kept_setByte {u s0 : State} {a1 : Nat} {a2 : Byte} (h0 : Kept u s0) : Kept u (s0.setByte a1 a2) :=
  h0.upd rfl id (fun w => by
    simp only [State.setByte]
    split
    · exact Tab.wf_put blankByte w _ _
    · exact w)

theorem kept_setBytes {u s0 : State} {a1 : Nat} {a2 : List Byte} (h0 : Kept u s0) : Kept u (s0.setBytes a1 a2) := by
  induction a2 generalizing s0 a1 with
  | nil => exact h0
  | cons b t ih => exact ih (kept_setByte h0)

theorem kept_setMemWord {u : State} {s : State} {a : ℕ} {v : Word} (h0 : Kept u s) :
    Kept u (State.setMemWord s a v) := by
  unfold State.setMemWord; try dsimp only
  repeat' (first | with_reducible assumption | with_reducible apply kept_setBytes)

theorem kept_setMem20 {u : State} {s : State} {a : ℕ} {v : Q20} (h0 : Kept u s) :
    Kept u (State.setMem20 s a v) := by
  unfold State.setMem20; try dsimp only
  repeat' (first | with_reducible assumption | with_reducible apply kept_setMemWord)

theorem kept_drew {u : State} {s : State} (h0 : Kept u s) :
    Kept u (State.drew s) := by
  unfold State.drew; try dsimp only
  repeat' (first | with_reducible assumption | with_reducible refine kept_mk ?_ rfl rfl rfl)

theorem kept_raise {u s0 : State} {a1 : Irq} (h0 : Kept u s0) : Kept u (s0.raise a1) := by
  unfold State.raise
  exact kept_ite h0 ⟨h0.queue, h0.forms⟩

theorem kept_modSys {u : State} {s : State} {f : Sys → Sys} (h0 : Kept u s) :
    Kept u (State.modSys s f) := by
  unfold State.modSys; try dsimp only
  repeat' (first | with_reducible assumption | with_reducible refine kept_mk ?_ rfl rfl rfl)

theorem kept_modCore {u : State} {s : State} {p : Pair} {f : Core → Core} (h0 : Kept u s) :
    Kept u (State.modCore s p f) := by
  unfold State.modCore; try dsimp only
  repeat' (first | with_reducible assumption | with_reducible refine kept_mk ?_ rfl rfl rfl)

theorem kept_modAng {u : State} {s : State} {b : Bridge} {f : Ang → Ang} (h0 : Kept u s) :
    Kept u (State.modAng s b f) := by
  unfold State.modAng; try dsimp only
  repeat' (first | with_reducible assumption | with_reducible refine kept_mk ?_ rfl rfl rfl)

theorem kept_modPos {u : State} {s : State} {k : PosBlk} {f : Pos → Pos} (h0 : Kept u s) :
    Kept u (State.modPos s k f) := by
  unfold State.modPos; try dsimp only
  repeat' (first | with_reducible assumption | with_reducible refine kept_mk ?_ rfl rfl rfl)

theorem kept_modSent {u : State} {s : State} {c : SentCh} {f : Sent → Sent} (h0 : Kept u s) :
    Kept u (State.modSent s c f) := by
  unfold State.modSent; try dsimp only
  repeat' (first | with_reducible assumption | with_reducible refine kept_mk ?_ rfl rfl rfl)

theorem kept_modBridge {u : State} {s : State} {b : Bridge} {f : IsnsBridge → IsnsBridge} (h0 : Kept u s) :
    Kept u (State.modBridge s b f) := by
  unfold State.modBridge; try dsimp only
  repeat' (first | with_reducible assumption | with_reducible refine kept_mk ?_ rfl rfl rfl)

theorem kept_modChan {u : State} {s : State} {c : IsnsCh} {f : IsnsChan → IsnsChan} (h0 : Kept u s) :
    Kept u (State.modChan s c f) := by
  unfold State.modChan; try dsimp only
  repeat' (first | with_reducible assumption | with_reducible refine kept_mk ?_ rfl rfl rfl)

theorem kept_modEng {u : State} {s : State} {e : Eng} {f : Engine → Engine} (h0 : Kept u s) :
    Kept u (State.modEng s e f) := by
  unfold State.modEng; try dsimp only
  repeat' (first | with_reducible assumption | with_reducible refine kept_mk ?_ rfl rfl rfl)

theorem kept_modMc {u : State} {s : State} {b : Bridge} {f : Mc → Mc} (h0 : Kept u s) :
    Kept u (State.modMc s b f) := by
  unfold State.modMc; try dsimp only
  repeat' (first | with_reducible assumption | with_reducible refine kept_mk ?_ rfl rfl rfl)

theorem kept_modGate {u : State} {s : State} {b : Bridge} {f : GateBridge → GateBridge} (h0 : Kept u s) :
    Kept u (State.modGate s b f) := by
  unfold State.modGate; try dsimp only
  repeat' (first | with_reducible assumption | with_reducible refine kept_mk ?_ rfl rfl rfl)

theorem kept_modDriver {u : State} {s : State} {f : Driver → Driver} (h0 : Kept u s) :
    Kept u (State.modDriver s f) := by
  unfold State.modDriver; try dsimp only
  repeat' (first | with_reducible assumption | with_reducible refine kept_mk ?_ rfl rfl rfl)

theorem kept_modCont {u : State} {s : State} {f : Cont → Cont} (h0 : Kept u s) :
    Kept u (State.modCont s f) := by
  unfold State.modCont; try dsimp only
  repeat' (first | with_reducible assumption | with_reducible refine kept_mk ?_ rfl rfl rfl)

theorem kept_modPeer {u : State} {s : State} {l : Lane} {f : Peer → Peer} (h0 : Kept u s) :
    Kept u (State.modPeer s l f) := by
  unfold State.modPeer; try dsimp only
  repeat' (first | with_reducible assumption | with_reducible refine kept_mk ?_ rfl rfl rfl)

theorem kept_modEbp {u : State} {s : State} {e : Port} {f : Ebp → Ebp} (h0 : Kept u s) :
    Kept u (State.modEbp s e f) := by
  unfold State.modEbp; try dsimp only
  repeat' (first | with_reducible assumption | with_reducible refine kept_mk ?_ rfl rfl rfl)

theorem kept_modLines {u : State} {s : State} {f : Lines → Lines} (h0 : Kept u s) :
    Kept u (State.modLines s f) := by
  unfold State.modLines; try dsimp only
  repeat' (first | with_reducible assumption | with_reducible refine kept_mk ?_ rfl rfl rfl)

theorem kept_modSafe {u : State} {s : State} {f : Safe → Safe} (h0 : Kept u s) :
    Kept u (State.modSafe s f) := by
  unfold State.modSafe; try dsimp only
  repeat' (first | with_reducible assumption | with_reducible refine kept_mk ?_ rfl rfl rfl)

theorem kept_modTwin {u : State} {s : State} {k : TwinPair} {f : Twin → Twin} (h0 : Kept u s) :
    Kept u (State.modTwin s k f) := by
  unfold State.modTwin; try dsimp only
  repeat' (first | with_reducible assumption | with_reducible refine kept_mk ?_ rfl rfl rfl)

theorem kept_modCan {u : State} {s : State} {n : CanCtl} {f : Can → Can} (h0 : Kept u s) :
    Kept u (State.modCan s n f) := by
  unfold State.modCan; try dsimp only
  repeat' (first | with_reducible assumption | with_reducible refine kept_mk ?_ rfl rfl rfl)

theorem kept_modUsl {u : State} {s : State} {f : Usl → Usl} (h0 : Kept u s) :
    Kept u (State.modUsl s f) := by
  unfold State.modUsl; try dsimp only
  repeat' (first | with_reducible assumption | with_reducible refine kept_mk ?_ rfl rfl rfl)

theorem kept_modTime {u : State} {s : State} {f : NetTime → NetTime} (h0 : Kept u s) :
    Kept u (State.modTime s f) := by
  unfold State.modTime; try dsimp only
  repeat' (first | with_reducible assumption | with_reducible refine kept_mk ?_ rfl rfl rfl)

theorem kept_modHost {u : State} {s : State} {f : HostIf → HostIf} (h0 : Kept u s) :
    Kept u (State.modHost s f) := by
  unfold State.modHost; try dsimp only
  repeat' (first | with_reducible assumption | with_reducible refine kept_mk ?_ rfl rfl rfl)

theorem kept_modKeep {u : State} {s : State} {f : Keep → Keep} (h0 : Kept u s) :
    Kept u (State.modKeep s f) := by
  unfold State.modKeep; try dsimp only
  repeat' (first | with_reducible assumption | with_reducible refine kept_mk ?_ rfl rfl rfl)

theorem kept_modStore {u : State} {s : State} {f : KeyStore → KeyStore} (h0 : Kept u s) :
    Kept u (State.modStore s f) := by
  unfold State.modStore; try dsimp only
  repeat' (first | with_reducible assumption | with_reducible apply kept_modKeep)

theorem kept_modJtag {u : State} {s : State} {f : Jtag → Jtag} (h0 : Kept u s) :
    Kept u (State.modJtag s f) := by
  unfold State.modJtag; try dsimp only
  repeat' (first | with_reducible assumption | with_reducible refine kept_mk ?_ rfl rfl rfl)

theorem kept_modPwr {u : State} {s : State} {f : Pwr → Pwr} (h0 : Kept u s) :
    Kept u (State.modPwr s f) := by
  unfold State.modPwr; try dsimp only
  repeat' (first | with_reducible assumption | with_reducible refine kept_mk ?_ rfl rfl rfl)

theorem kept_modMport {u : State} {s : State} {f : Mport → Mport} (h0 : Kept u s) :
    Kept u (State.modMport s f) := by
  unfold State.modMport; try dsimp only
  repeat' (first | with_reducible assumption | with_reducible refine kept_mk ?_ rfl rfl rfl)

theorem kept_modBkg {u : State} {s : State} {f : Bkg → Bkg} (h0 : Kept u s) :
    Kept u (State.modBkg s f) := by
  unfold State.modBkg; try dsimp only
  repeat' (first | with_reducible assumption | with_reducible refine kept_mk ?_ rfl rfl rfl)

theorem kept_ownRecord {u : State} {type : ℕ} {content : List ℕ} {wear : Option (Tab ℕ)} {s : State} (h3 : Kept u s) :
    Kept u (ownRecord type content wear s) := by
  unfold ownRecord; try dsimp only
  repeat' (first | with_reducible assumption | with_reducible apply kept_modBkg)

theorem kept_wearAdd {u : State} {k : ℕ} {n : ℕ} {s : State} (h2 : Kept u s) :
    Kept u (wearAdd k n s) := by
  unfold wearAdd; try dsimp only
  repeat' (first
    | with_reducible assumption | with_reducible apply kept_modBkg | with_reducible apply kept_ownRecord
    | with_reducible apply kept_ite)

theorem kept_wearOne {u : State} {k : ℕ} {s : State} (h1 : Kept u s) :
    Kept u (wearOne k s) := by
  unfold wearOne; try dsimp only
  repeat' (first | with_reducible assumption | with_reducible apply kept_wearAdd)

theorem kept_reelSubmit {u : State} {q : ℕ} {rec : List Byte} {s : State} (h2 : Kept u s) :
    Kept u (reelSubmit q rec s) := by
  unfold reelSubmit; try dsimp only
  repeat' (first
    | with_reducible assumption | with_reducible apply kept_setMemWord | with_reducible apply kept_setBytes
    | with_reducible apply kept_ite)

theorem kept_clockedOut {u s : State} {o : Out} (h0 : Kept u s) (h1 : ∀ t, o = .next t → Kept u t) :
    ∀ t, (clockedOut s o) = .next t → Kept u t := by
  intro t ht; unfold clockedOut at ht; split at ht
  · obtain rfl := Host.Outcome.next.inj ht; exact h0
  · exact h1 t ht

theorem kept_entryBegin {u : State} {dest : ℕ} {s : State} (h1 : Kept u s) :
    Kept u (entryBegin dest s) := by
  unfold entryBegin; try dsimp only
  repeat' (first
    | with_reducible assumption | with_reducible apply kept_modPwr | with_reducible apply kept_put
    | with_reducible apply kept_modSys | with_reducible apply kept_ite)

theorem kept_ungate {u : State} {p : Pair} {s : State} (h1 : Kept u s) :
    Kept u (ungate p s) := by
  unfold ungate; try dsimp only
  repeat' (first
    | with_reducible assumption | with_reducible apply kept_putBit | with_reducible apply kept_modCore
    | with_reducible apply kept_put | with_reducible apply kept_ite)

theorem kept_ungateVoted {u : State} {s : State} (h0 : Kept u s) :
    Kept u (ungateVoted s) := by
  unfold ungateVoted; try dsimp only
  repeat' (first
    | with_reducible assumption | with_reducible apply kept_ungate | with_reducible apply kept_foldl
    | with_reducible apply kept_ite | (intro; intros; try dsimp only))

theorem kept_followVotes {u : State} {s : State} (h0 : Kept u s) :
    Kept u (followVotes s) := by
  unfold followVotes; try dsimp only
  repeat' (first
    | with_reducible assumption | with_reducible apply kept_ungateVoted | with_reducible apply kept_modPwr
    | with_reducible apply kept_entryBegin | with_reducible apply kept_ite | split)

theorem kept_setShares {u : State} {a0 : Shares} {s : State} (h1 : Kept u s) :
    Kept u (setShares a0 s) := by
  unfold setShares; try dsimp only
  repeat' (first | with_reducible assumption | with_reducible apply kept_put)

theorem kept_putShares {u : State} {a0 : Shares} {s : State} (h1 : Kept u s) :
    Kept u (putShares a0 s) := by
  unfold putShares; try dsimp only
  repeat' (first | with_reducible assumption | with_reducible apply kept_setShares | with_reducible apply kept_ite)

theorem kept_degrade {u : State} {s : State} (h0 : Kept u s) :
    Kept u (degrade s) := by
  unfold degrade; try dsimp only
  repeat' (first | with_reducible assumption | with_reducible apply kept_put | with_reducible apply kept_ite)

theorem kept_judgeSet {u : State} {s : State} (h0 : Kept u s) :
    Kept u (judgeSet s) := by
  unfold judgeSet; try dsimp only
  repeat' (first | with_reducible assumption | with_reducible apply kept_putB | with_reducible apply kept_ite)

theorem kept_sendOn {u : State} {ty : ℕ} {f : EbpFrame} {e : Port} {s : State} (h3 : Kept u s) :
    Kept u (sendOn ty f e s) := by
  unfold sendOn; try dsimp only
  repeat' (first
    | with_reducible assumption | with_reducible apply kept_inc | with_reducible apply kept_modEbp
    | with_reducible apply kept_ite)

theorem kept_countSeq {u : State} {ty : ℕ} {s : State} (h1 : Kept u s) :
    Kept u (countSeq ty s) := by
  unfold countSeq; try dsimp only
  repeat' (first | with_reducible assumption | with_reducible apply kept_modLines)

theorem kept_sendFrame {u : State} {ty : ℕ} {payload : List Byte} {s : State} (h2 : Kept u s) :
    Kept u (sendFrame ty payload s) := by
  unfold sendFrame; try dsimp only
  repeat' (first | with_reducible assumption | with_reducible apply kept_sendOn | with_reducible apply kept_countSeq)

theorem kept_holdTransfer {u : State} {a0 : Transfer} {s : State} (h1 : Kept u s) :
    Kept u (holdTransfer a0 s) := by
  unfold holdTransfer; try dsimp only
  repeat' (first | with_reducible assumption | with_reducible apply kept_modCont | with_reducible apply kept_ite)

theorem kept_sendTransfer {u : State} {a0 : Transfer} {s : State} (h1 : Kept u s) :
    Kept u (sendTransfer a0 s) := by
  unfold sendTransfer; try dsimp only
  repeat' (first
    | with_reducible assumption | with_reducible apply kept_holdTransfer | with_reducible apply kept_sendFrame)

theorem kept_sendNotice {u : State} {subj : ℕ} {kind : ℕ} {s : State} (h2 : Kept u s) :
    Kept u (sendNotice subj kind s) := by
  unfold sendNotice; try dsimp only
  repeat' (first | with_reducible assumption | with_reducible apply kept_sendTransfer)

theorem kept_withdraw {u : State} {kind : ℕ} {s : State} (h1 : Kept u s) :
    Kept u (withdraw kind s) := by
  unfold withdraw; try dsimp only
  repeat' (first
    | with_reducible assumption | with_reducible apply kept_modCont | with_reducible apply kept_sendNotice
    | with_reducible apply kept_ite)

theorem kept_joinedDrop {u : State} {s : State} (h0 : Kept u s) :
    Kept u (joinedDrop s) := by
  unfold joinedDrop; try dsimp only
  repeat' (first
    | with_reducible assumption | with_reducible apply kept_setMemWord | with_reducible apply kept_degrade
    | with_reducible apply kept_modCont | with_reducible apply kept_put | with_reducible apply kept_ite | split)

theorem kept_modGateSw {u : State} {b : Bridge} {j : Switch} {f : Gate → Gate} {s : State} (h3 : Kept u s) :
    Kept u (modGateSw b j f s) := by
  unfold modGateSw; try dsimp only
  repeat' (first | with_reducible assumption | with_reducible apply kept_modGate)

theorem kept_showShort {u : State} {b : Bridge} {s : State} (h1 : Kept u s) :
    Kept u (showShort b s) := by
  unfold showShort; try dsimp only
  repeat' (first | with_reducible assumption | with_reducible apply kept_putB)

theorem kept_showOn {u : State} {b : Bridge} {j : Switch} {on : Bool} {s : State} (h3 : Kept u s) :
    Kept u (showOn b j on s) := by
  unfold showOn; try dsimp only
  repeat' (first
    | with_reducible assumption | with_reducible apply kept_when | with_reducible apply kept_modGateSw
    | with_reducible apply kept_putBit | (intro; intros; try dsimp only))

theorem kept_turnOffSw {u : State} {b : Bridge} {j : Switch} {short : Bool} {s : State} (h3 : Kept u s) :
    Kept u (turnOffSw b j short s) := by
  unfold turnOffSw; try dsimp only
  repeat' (first
    | with_reducible assumption | with_reducible apply kept_modGateSw | with_reducible apply kept_when
    | with_reducible apply kept_showOn | (intro; intros; try dsimp only))

theorem kept_restSwitch {u : State} {b : Bridge} {j : Switch} {s : State} (h2 : Kept u s) :
    Kept u (restSwitch b j s) := by
  unfold restSwitch; try dsimp only
  repeat' (first | with_reducible assumption | with_reducible apply kept_turnOffSw | with_reducible apply kept_ite)

theorem kept_startSwitch {u : State} {b : Bridge} {j : Switch} {s : State} (h2 : Kept u s) :
    Kept u (startSwitch b j s) := by
  unfold startSwitch; try dsimp only
  repeat' (first | with_reducible assumption | with_reducible apply kept_modGateSw | with_reducible apply kept_ite)

theorem kept_driveBridge {u : State} {b : Bridge} {s : State} (h1 : Kept u s) :
    Kept u (driveBridge b s) := by
  unfold driveBridge; try dsimp only
  repeat' (first
    | with_reducible assumption | with_reducible apply kept_restSwitch | with_reducible apply kept_showShort
    | with_reducible apply kept_startSwitch | with_reducible apply kept_foldl | (intro; intros; try dsimp only))

theorem kept_interlockTick {u : State} {b : Bridge} {s : State} (h1 : Kept u s) :
    Kept u (interlockTick b s) := by
  unfold interlockTick; try dsimp only
  repeat' (first
    | with_reducible assumption | with_reducible apply kept_showShort | with_reducible apply kept_modGateSw
    | with_reducible apply kept_foldl | with_reducible apply kept_ite | (intro; intros; try dsimp only))

theorem kept_driveAll {u : State} {s : State} (h0 : Kept u s) :
    Kept u (driveAll s) := by
  unfold driveAll; try dsimp only
  repeat' (first | with_reducible assumption | with_reducible apply kept_driveBridge)

theorem kept_noteEdges {u : State} {b : Bridge} {old : ℕ} {cmd : ℕ} {s : State} (h3 : Kept u s) :
    Kept u (noteEdges b old cmd s) := by
  unfold noteEdges; try dsimp only
  repeat' (first
    | with_reducible assumption | with_reducible apply kept_modGateSw | with_reducible apply kept_modMc
    | with_reducible apply kept_foldl | with_reducible apply kept_ite | (intro; intros; try dsimp only))

theorem kept_takeCommands {u : State} {b : Bridge} {cmd : ℕ} {s : State} (h2 : Kept u s) :
    Kept u (takeCommands b cmd s) := by
  unfold takeCommands; try dsimp only
  repeat' (first
    | with_reducible assumption | with_reducible apply kept_noteEdges | with_reducible apply kept_put
    | with_reducible apply kept_countBit | with_reducible apply kept_driveBridge | with_reducible apply kept_foldl
    | (intro; intros; try dsimp only))

theorem kept_followGates {u : State} {b : Bridge} {s : State} (h1 : Kept u s) :
    Kept u (followGates b s) := by
  unfold followGates; try dsimp only
  repeat' (first | with_reducible assumption | with_reducible apply kept_takeCommands | with_reducible apply kept_ite)

theorem kept_setMode {u : State} {b : Bridge} {m : ℕ} {s : State} (h2 : Kept u s) :
    Kept u (setMode b m s) := by
  unfold setMode; try dsimp only
  repeat' (first | with_reducible assumption | with_reducible apply kept_put | with_reducible apply kept_ite)

theorem kept_requestShort {u : State} {b : Bridge} {on : Bool} {s : State} (h2 : Kept u s) :
    Kept u (requestShort b on s) := by
  unfold requestShort; try dsimp only
  repeat' (first
    | with_reducible assumption | with_reducible apply kept_followGates | with_reducible apply kept_modMc)

theorem kept_clearEstimators {u : State} {b : Bridge} {s : State} (h1 : Kept u s) :
    Kept u (clearEstimators b s) := by
  unfold clearEstimators; try dsimp only
  repeat' (first | with_reducible assumption | with_reducible apply kept_modMc)

theorem kept_enterMode {u : State} {b : Bridge} {m : ℕ} {s : State} (h2 : Kept u s) :
    Kept u (enterMode b m s) := by
  unfold enterMode; try dsimp only
  repeat' (first
    | with_reducible assumption | with_reducible apply kept_followGates | with_reducible apply kept_setMode
    | with_reducible apply kept_clearEstimators)

theorem kept_mcOff {u : State} {b : Bridge} {s : State} (h1 : Kept u s) :
    Kept u (mcOff b s) := by
  unfold mcOff; try dsimp only
  repeat' (first
    | with_reducible assumption | with_reducible apply kept_followVotes | with_reducible apply kept_followGates
    | with_reducible apply kept_modMc | with_reducible apply kept_setMode | with_reducible apply kept_clearEstimators)

theorem kept_mcOut {u : State} {b : Bridge} {s : State} (h1 : Kept u s) :
    Kept u (mcOut b s) := by
  unfold mcOut; try dsimp only
  repeat' (first
    | with_reducible assumption | with_reducible apply kept_joinedDrop | with_reducible apply kept_setMode
    | with_reducible apply kept_clearEstimators | with_reducible apply kept_requestShort)

theorem kept_reportLaneFault {u : State} {b : Bridge} {s : State} (h1 : Kept u s) :
    Kept u (reportLaneFault b s) := by
  unfold reportLaneFault; try dsimp only
  repeat' (first | with_reducible assumption | with_reducible apply kept_withdraw | with_reducible apply kept_ite)

theorem kept_reportBridgeOut {u : State} {b : Bridge} {s : State} (h1 : Kept u s) :
    Kept u (reportBridgeOut b s) := by
  unfold reportBridgeOut; try dsimp only
  repeat' (first
    | with_reducible assumption | with_reducible apply kept_degrade | with_reducible apply kept_reportLaneFault
    | with_reducible apply kept_ite)

theorem kept_positionLost {u : State} {b : Bridge} {s : State} (h1 : Kept u s) :
    Kept u (positionLost b s) := by
  unfold positionLost; try dsimp only
  repeat' (first
    | with_reducible assumption | with_reducible apply kept_reportLaneFault | with_reducible apply kept_mcOut)

theorem kept_dutyLoad {u : State} {b : Bridge} {s : State} (h1 : Kept u s) :
    Kept u (dutyLoad b s) := by
  unfold dutyLoad; try dsimp only
  repeat' (first
    | with_reducible assumption | with_reducible apply kept_modMc | with_reducible apply kept_followGates
    | with_reducible apply kept_ite)

theorem kept_advanceSector {u : State} {b : Bridge} {dir : ℤ} {s : State} (h2 : Kept u s) :
    Kept u (advanceSector b dir s) := by
  unfold advanceSector; try dsimp only
  repeat' (first
    | with_reducible assumption | with_reducible apply kept_followGates | with_reducible apply kept_modMc
    | with_reducible apply kept_put | with_reducible apply kept_ite)

theorem kept_enterSixstep {u : State} {b : Bridge} {sec : ℕ} {s : State} (h2 : Kept u s) :
    Kept u (enterSixstep b sec s) := by
  unfold enterSixstep; try dsimp only
  repeat' (first
    | with_reducible assumption | with_reducible apply kept_joinedDrop | with_reducible apply kept_setMode
    | with_reducible apply kept_clearEstimators | with_reducible apply kept_followGates
    | with_reducible apply kept_modMc | with_reducible apply kept_put)

theorem kept_sourceEstimator {u : State} {b : Bridge} {s : State} (h1 : Kept u s) :
    Kept u (sourceEstimator b s) := by
  unfold sourceEstimator; try dsimp only
  repeat' (first | with_reducible assumption | with_reducible apply kept_modAng | with_reducible apply kept_put)

theorem kept_mcAllLost {u : State} {b : Bridge} {s : State} (h1 : Kept u s) :
    Kept u (mcAllLost b s) := by
  unfold mcAllLost; try dsimp only
  repeat' (first
    | with_reducible assumption | with_reducible apply kept_enterSixstep | with_reducible apply kept_sourceEstimator
    | with_reducible apply kept_positionLost | with_reducible apply kept_ite)

theorem kept_clampBegin {u : State} {b : Bridge} {s : State} (h1 : Kept u s) :
    Kept u (clampBegin b s) := by
  unfold clampBegin; try dsimp only
  repeat' (first
    | with_reducible assumption | with_reducible apply kept_countBit | with_reducible apply kept_modMc
    | with_reducible apply kept_put | with_reducible apply kept_ite)

theorem kept_deliverTo {u : State} {b : Bridge} {smp : Sample} {s : State} (h2 : Kept u s) :
    Kept u (deliverTo b smp s) := by
  unfold deliverTo; try dsimp only
  repeat' (first | with_reducible assumption | with_reducible apply kept_modAng)

theorem kept_estimatorSample {u : State} {b : Bridge} {theta : ℕ} {ts : ℕ} {rate : ℤ} {s : State} (h4 : Kept u s) :
    Kept u (estimatorSample b theta ts rate s) := by
  unfold estimatorSample; try dsimp only
  repeat' (first
    | with_reducible assumption | with_reducible apply kept_putS | with_reducible apply kept_deliverTo
    | with_reducible apply kept_ite)

theorem kept_lossOfSync {u : State} {b : Bridge} {s : State} (h1 : Kept u s) :
    Kept u (lossOfSync b s) := by
  unfold lossOfSync; try dsimp only
  repeat' (first
    | with_reducible assumption | with_reducible apply kept_countBit | with_reducible apply kept_put
    | with_reducible apply kept_modMc | with_reducible apply kept_positionLost | with_reducible apply kept_joinedDrop
    | with_reducible apply kept_setMode | with_reducible apply kept_clearEstimators
    | with_reducible apply kept_requestShort | with_reducible apply kept_ite)

theorem kept_recaptureDue {u : State} {b : Bridge} {s : State} (h1 : Kept u s) :
    Kept u (recaptureDue b s) := by
  unfold recaptureDue; try dsimp only
  repeat' (first
    | with_reducible assumption | with_reducible apply kept_enterSixstep | with_reducible apply kept_positionLost
    | with_reducible apply kept_ite)

theorem kept_recaptureCheck {u : State} {b : Bridge} {theta : ℕ} {rate : ℤ} {s : State} (h3 : Kept u s) :
    Kept u (recaptureCheck b theta rate s) := by
  unfold recaptureCheck; try dsimp only
  repeat' (first
    | with_reducible assumption | with_reducible apply kept_recaptureDue | with_reducible apply kept_modMc
    | with_reducible apply kept_ite)

theorem kept_startRefuse {u : State} {b : Bridge} {code : ℕ} {s : State} (h2 : Kept u s) :
    Kept u (startRefuse b code s) := by
  unfold startRefuse; try dsimp only
  repeat' (first | with_reducible assumption | with_reducible apply kept_put | with_reducible apply kept_mcOff)

theorem kept_startWith {u : State} {b : Bridge} {w : ℤ} {valid : Bool} {sec : ℕ} {s : State} (h4 : Kept u s) :
    Kept u (startWith b w valid sec s) := by
  unfold startWith; try dsimp only
  repeat' (first
    | with_reducible assumption | with_reducible apply kept_enterMode | with_reducible apply kept_startRefuse
    | with_reducible apply kept_enterSixstep | with_reducible apply kept_sourceEstimator
    | with_reducible apply kept_ite)

theorem kept_startBegin {u : State} {b : Bridge} {s : State} (h1 : Kept u s) :
    Kept u (startBegin b s) := by
  unfold startBegin; try dsimp only
  repeat' (first
    | with_reducible assumption | with_reducible apply kept_modMc | with_reducible apply kept_degrade
    | with_reducible apply kept_put | with_reducible apply kept_startWith | with_reducible apply kept_enterMode
    | with_reducible apply kept_ite)

theorem kept_startRequest {u : State} {b : Bridge} {mode : ℕ} {s : State} (h2 : Kept u s) :
    Kept u (startRequest b mode s) := by
  unfold startRequest; try dsimp only
  repeat' (first
    | with_reducible assumption | with_reducible apply kept_put | with_reducible apply kept_startBegin
    | with_reducible apply kept_ite)

theorem kept_lineEstimate {u : State} {b : Bridge} {code : ℕ} {s : State} (h2 : Kept u s) :
    Kept u (lineEstimate b code s) := by
  unfold lineEstimate; try dsimp only
  repeat' (first
    | with_reducible assumption | with_reducible apply kept_modMc | with_reducible apply kept_estimatorSample
    | with_reducible apply kept_startWith | with_reducible apply kept_recaptureCheck | with_reducible apply kept_ite
    | split)

theorem kept_currentEstimate {u : State} {b : Bridge} {inst : ℕ} {i1 : ℤ} {i2 : ℤ} {s : State} (h4 : Kept u s) :
    Kept u (currentEstimate b inst i1 i2 s) := by
  unfold currentEstimate; try dsimp only
  repeat' (first
    | with_reducible assumption | with_reducible apply kept_modMc | with_reducible apply kept_recaptureCheck
    | with_reducible apply kept_estimatorSample | with_reducible apply kept_ite | split)

theorem kept_zcTake {u : State} {b : Bridge} {a1 : ℕ} {s : State} (h2 : Kept u s) :
    Kept u (zcTake b a1 s) := by
  unfold zcTake; try dsimp only
  repeat' (first
    | with_reducible assumption | with_reducible apply kept_put | with_reducible apply kept_modMc
    | with_reducible apply kept_estimatorSample | with_reducible apply kept_ite | split)

theorem kept_zcReport {u : State} {b : Bridge} {level : Bool} {s : State} (h2 : Kept u s) :
    Kept u (zcReport b level s) := by
  unfold zcReport; try dsimp only
  repeat' (first
    | with_reducible assumption | with_reducible apply kept_modMc | with_reducible apply kept_zcTake
    | with_reducible apply kept_ite | split)

theorem kept_vmotUpdate {u : State} {b : Bridge} {v : ℕ} {s : State} (h2 : Kept u s) :
    Kept u (vmotUpdate b v s) := by
  unfold vmotUpdate; try dsimp only
  repeat' (first
    | with_reducible assumption | with_reducible apply kept_put | with_reducible apply kept_putS
    | with_reducible apply kept_ite)

theorem kept_mcCurrentInvalid {u : State} {b : Bridge} {s : State} (h1 : Kept u s) :
    Kept u (mcCurrentInvalid b s) := by
  unfold mcCurrentInvalid; try dsimp only
  repeat' (first
    | with_reducible assumption | with_reducible apply kept_reportBridgeOut | with_reducible apply kept_mcOut
    | with_reducible apply kept_ite)

theorem kept_mcEngineFault {u : State} {b : Bridge} {s : State} (h1 : Kept u s) :
    Kept u (mcEngineFault b s) := by
  unfold mcEngineFault; try dsimp only
  repeat' (first
    | with_reducible assumption | with_reducible apply kept_mcOut | with_reducible apply kept_reportBridgeOut
    | with_reducible apply kept_requestShort | with_reducible apply kept_ite)

theorem kept_mcLegOut {u : State} {b : Bridge} {s : State} (h1 : Kept u s) :
    Kept u (mcLegOut b s) := by
  unfold mcLegOut; try dsimp only
  repeat' (first
    | with_reducible assumption | with_reducible apply kept_reportLaneFault | with_reducible apply kept_mcOut
    | with_reducible apply kept_followGates | with_reducible apply kept_degrade | with_reducible apply kept_put
    | with_reducible apply kept_reportBridgeOut | with_reducible apply kept_ite)

theorem kept_mcOverVoltage {u : State} {b : Bridge} {s : State} (h1 : Kept u s) :
    Kept u (mcOverVoltage b s) := by
  unfold mcOverVoltage; try dsimp only
  repeat' (first
    | with_reducible assumption | with_reducible apply kept_reportBridgeOut | with_reducible apply kept_mcOut)

theorem kept_modeReqOff {u : State} {b : Bridge} {s : State} (h1 : Kept u s) :
    Kept u (modeReqOff b s) := by
  unfold modeReqOff; try dsimp only
  repeat' (first
    | with_reducible assumption | with_reducible apply kept_put | with_reducible apply kept_mcOff
    | with_reducible apply kept_ite)

theorem kept_modeReqReturn {u : State} {b : Bridge} {s : State} (h1 : Kept u s) :
    Kept u (modeReqReturn b s) := by
  unfold modeReqReturn; try dsimp only
  repeat' (first | with_reducible assumption | with_reducible apply kept_modMc | with_reducible apply kept_ite)

theorem kept_mcDisable {u : State} {b : Bridge} {s : State} (h1 : Kept u s) :
    Kept u (mcDisable b s) := by
  unfold mcDisable; try dsimp only
  repeat' (first | with_reducible assumption | with_reducible apply kept_mcOff | with_reducible apply kept_ite)

theorem kept_triggerArrive {u : State} {e : Eng} {o : Originator} {ep : Byte} {s : State} (h3 : Kept u s) :
    Kept u (triggerArrive e o ep s) := by
  unfold triggerArrive; try dsimp only
  repeat' (first
    | with_reducible assumption | with_reducible apply kept_count | with_reducible apply kept_put
    | with_reducible apply kept_modEng | with_reducible apply kept_ite)

theorem kept_triggerTo {u : State} {eng : ℕ} {o : Originator} {ep : ℕ} {s : State} (h3 : Kept u s) :
    Kept u (triggerTo eng o ep s) := by
  unfold triggerTo; try dsimp only
  repeat' (first | with_reducible assumption | with_reducible apply kept_triggerArrive | split)

theorem kept_triggerAll {u : State} {en : ℕ → Fld} {ep : ℕ → Fld} {o : Originator} {s : State} (h3 : Kept u s) :
    Kept u (triggerAll en ep o s) := by
  unfold triggerAll; try dsimp only
  repeat' (first
    | with_reducible assumption | with_reducible apply kept_triggerArrive | with_reducible apply kept_foldl
    | with_reducible apply kept_ite | (intro; intros; try dsimp only))

theorem kept_engineFault {u : State} {e : Eng} {c : EngineCause} {fpc : ℕ} {s : State} (h3 : Kept u s) :
    Kept u (engineFault e c fpc s) := by
  unfold engineFault; try dsimp only
  repeat' (first
    | with_reducible assumption | with_reducible apply kept_put | with_reducible apply kept_modEng
    | with_reducible apply kept_raise | with_reducible apply kept_when | with_reducible apply kept_putBit
    | with_reducible apply kept_mcEngineFault | (intro; intros; try dsimp only) | split)

theorem kept_takeSettings {u : State} {e : Eng} {s : State} (h1 : Kept u s) :
    Kept u (takeSettings e s) := by
  unfold takeSettings; try dsimp only
  repeat' (first | with_reducible assumption | with_reducible apply kept_put)

theorem kept_markSwap {u : State} {e : Eng} {s : State} (h1 : Kept u s) :
    Kept u (markSwap e s) := by
  unfold markSwap; try dsimp only
  repeat' (first | with_reducible assumption | with_reducible apply kept_put | with_reducible apply kept_ite)

theorem kept_dispatch {u : State} {e : Eng} {s : State} (h1 : Kept u s) :
    Kept u (dispatch e s) := by
  unfold dispatch; try dsimp only
  repeat' (first
    | with_reducible assumption | with_reducible apply kept_takeSettings | with_reducible apply kept_modEng
    | with_reducible apply kept_put | with_reducible apply kept_engineFault | with_reducible apply kept_ite | split)

theorem kept_legOff {u : State} {b : Bridge} {k : Fin 3} {short : Bool} {s : State} (h3 : Kept u s) :
    Kept u (legOff b k short s) := by
  unfold legOff; try dsimp only
  repeat' (first | with_reducible assumption | with_reducible apply kept_turnOffSw)

theorem kept_bridgeOff {u : State} {b : Bridge} {s : State} (h1 : Kept u s) :
    Kept u (bridgeOff b s) := by
  unfold bridgeOff; try dsimp only
  repeat' (first | with_reducible assumption | with_reducible apply kept_legOff)

theorem kept_bridgeOut {u : State} {b : Bridge} {s : State} (h1 : Kept u s) :
    Kept u (bridgeOut b s) := by
  unfold bridgeOut; try dsimp only
  repeat' (first
    | with_reducible assumption | with_reducible apply kept_put | with_reducible apply kept_bridgeOff
    | with_reducible apply kept_reportBridgeOut | with_reducible apply kept_mcOut)

theorem kept_legFault {u : State} {b : Bridge} {k : Fin 3} {cause : Fld} {short : Bool} {s : State} (h4 : Kept u s) :
    Kept u (legFault b k cause short s) := by
  unfold legFault; try dsimp only
  repeat' (first
    | with_reducible assumption | with_reducible apply kept_put | with_reducible apply kept_legOff
    | with_reducible apply kept_putBit | with_reducible apply kept_bridgeOut | with_reducible apply kept_mcLegOut
    | with_reducible apply kept_ite)

theorem kept_beginChecks {u : State} {b : Bridge} {isOpen : Bool} {s : State} (h2 : Kept u s) :
    Kept u (beginChecks b isOpen s) := by
  unfold beginChecks; try dsimp only
  repeat' (first | with_reducible assumption | with_reducible apply kept_modSafe)

theorem kept_confirmOpen {u : State} {b : Bridge} {s : State} (h1 : Kept u s) :
    Kept u (confirmOpen b s) := by
  unfold confirmOpen; try dsimp only
  repeat' (first | with_reducible assumption | with_reducible apply kept_putBit | with_reducible apply kept_ite)

theorem kept_isoOpen {u : State} {b : Bridge} {s : State} (h1 : Kept u s) :
    Kept u (isoOpen b s) := by
  unfold isoOpen; try dsimp only
  repeat' (first
    | with_reducible assumption | with_reducible apply kept_followVotes | with_reducible apply kept_confirmOpen
    | with_reducible apply kept_beginChecks | with_reducible apply kept_modSafe | with_reducible apply kept_put)

theorem kept_isoClose {u : State} {b : Bridge} {s : State} (h1 : Kept u s) :
    Kept u (isoClose b s) := by
  unfold isoClose; try dsimp only
  repeat' (first
    | with_reducible assumption | with_reducible apply kept_putBit | with_reducible apply kept_put
    | with_reducible apply kept_beginChecks | with_reducible apply kept_modSafe)

theorem kept_recordCause {u : State} {c : ℕ} {s : State} (h1 : Kept u s) :
    Kept u (recordCause c s) := by
  unfold recordCause; try dsimp only
  repeat' (first | with_reducible assumption | with_reducible apply kept_putBit)

theorem kept_cutActions {u : State} {notice : Bool} {s : State} (h1 : Kept u s) :
    Kept u (cutActions notice s) := by
  unfold cutActions; try dsimp only
  repeat' (first
    | with_reducible assumption | with_reducible apply kept_isoOpen | with_reducible apply kept_mcOut
    | with_reducible apply kept_modCont | with_reducible apply kept_withdraw | with_reducible apply kept_raise
    | with_reducible apply kept_ite)

theorem kept_setCut {u : State} {c : ℕ} {s : State} (h1 : Kept u s) :
    Kept u (setCut c s) := by
  unfold setCut; try dsimp only
  repeat' (first
    | with_reducible assumption | with_reducible apply kept_recordCause | with_reducible apply kept_when
    | with_reducible apply kept_put | with_reducible apply kept_wearOne | with_reducible apply kept_countBit
    | with_reducible apply kept_cutActions | with_reducible apply kept_ownRecord | with_reducible apply kept_ite
    | (intro; intros; try dsimp only))

theorem kept_sendClaim {u : State} {s : State} (h0 : Kept u s) :
    Kept u (sendClaim s) := by
  unfold sendClaim; try dsimp only
  repeat' (first | with_reducible assumption | with_reducible apply kept_sendFrame)

theorem kept_becomeLead {u : State} {a0 : Shares} {s : State} (h1 : Kept u s) :
    Kept u (becomeLead a0 s) := by
  unfold becomeLead; try dsimp only
  repeat' (first
    | with_reducible assumption | with_reducible apply kept_putShares | with_reducible apply kept_put
    | with_reducible apply kept_sendClaim | with_reducible apply kept_modCont)

theorem kept_holdEnd {u : State} {s : State} (h0 : Kept u s) :
    Kept u (holdEnd s) := by
  unfold holdEnd; try dsimp only
  repeat' (first
    | with_reducible assumption | with_reducible apply kept_requestShort | with_reducible apply kept_put
    | with_reducible apply kept_ite | split)

theorem kept_soloLead {u : State} {s : State} (h0 : Kept u s) :
    Kept u (soloLead s) := by
  unfold soloLead; try dsimp only
  repeat' (first
    | with_reducible assumption | with_reducible apply kept_judgeSet | with_reducible apply kept_put
    | with_reducible apply kept_becomeLead | with_reducible apply kept_holdEnd | with_reducible apply kept_modCont
    | with_reducible apply kept_ite)

theorem kept_clearCut {u : State} {s : State} (h0 : Kept u s) :
    Kept u (clearCut s) := by
  unfold clearCut; try dsimp only
  repeat' (first
    | with_reducible assumption | with_reducible apply kept_countBit | with_reducible apply kept_put
    | with_reducible apply kept_soloLead | with_reducible apply kept_modJtag | with_reducible apply kept_modCont
    | with_reducible apply kept_modSafe | with_reducible apply kept_ite)

theorem kept_clearingEdge {u : State} {s : State} (h0 : Kept u s) :
    Kept u (clearingEdge s) := by
  unfold clearingEdge; try dsimp only
  repeat' (first
    | with_reducible assumption | with_reducible apply kept_clearCut | with_reducible apply kept_put
    | with_reducible apply kept_ite)

theorem kept_presentDemand {u : State} {b : Bridge} {s : State} (h1 : Kept u s) :
    Kept u (presentDemand b s) := by
  unfold presentDemand; try dsimp only
  repeat' (first
    | with_reducible assumption | with_reducible apply kept_drew | with_reducible apply kept_modCont
    | with_reducible apply kept_putS | with_reducible apply kept_ite)

theorem kept_representDemand {u : State} {before : State} {s : State} (h0 : Kept u before) (h1 : Kept u s) :
    Kept u (representDemand before s) := by
  unfold representDemand; try dsimp only
  repeat' (first
    | with_reducible assumption | with_reducible apply kept_presentDemand | with_reducible apply kept_ite)

theorem kept_beat {u : State} {s : State} (h0 : Kept u s) :
    Kept u (beat s) := by
  unfold beat; try dsimp only
  repeat' (first | with_reducible assumption | with_reducible apply kept_modCont)

theorem kept_copyState {u : State} {f : ContFrame} {s : State} (h1 : Kept u s) :
    Kept u (copyState f s) := by
  unfold copyState; try dsimp only
  repeat' (first
    | with_reducible assumption | with_reducible apply kept_setMem20 | with_reducible apply kept_foldl
    | (intro; intros; try dsimp only))

theorem kept_applySwap {u : State} {s : State} (h0 : Kept u s) :
    Kept u (applySwap s) := by
  unfold applySwap; try dsimp only
  repeat' (first
    | with_reducible assumption | with_reducible apply kept_put | with_reducible apply kept_putB
    | with_reducible apply kept_markSwap | with_reducible apply kept_modCont | with_reducible apply kept_ite | split)

theorem kept_propose {u : State} {a0 : Shares} {s : State} (h1 : Kept u s) :
    Kept u (propose a0 s) := by
  unfold propose; try dsimp only
  repeat' (first
    | with_reducible assumption | with_reducible apply kept_modCont | with_reducible apply kept_sendFrame
    | with_reducible refine kept_mk ?_ rfl rfl rfl)

theorem kept_switchStep {u : State} {s : State} (h0 : Kept u s) :
    Kept u (switchStep s) := by
  unfold switchStep; try dsimp only
  repeat' (first
    | with_reducible assumption | with_reducible apply kept_put | with_reducible apply kept_drew
    | with_reducible apply kept_propose | with_reducible apply kept_ite)

theorem kept_applyCommit {u : State} {s : State} (h0 : Kept u s) :
    Kept u (applyCommit s) := by
  unfold applyCommit; try dsimp only
  repeat' (first
    | with_reducible assumption | with_reducible apply kept_putShares | with_reducible apply kept_modCont
    | with_reducible apply kept_put | with_reducible apply kept_switchStep | with_reducible apply kept_withdraw
    | with_reducible apply kept_ite | split)

theorem kept_qualify {u : State} {s : State} (h0 : Kept u s) :
    Kept u (qualify s) := by
  unfold qualify; try dsimp only
  repeat' (first
    | with_reducible assumption | with_reducible apply kept_modCont | with_reducible apply kept_put
    | with_reducible apply kept_ite)

theorem kept_learnShares {u : State} {a0 : Shares} {s : State} (h1 : Kept u s) :
    Kept u (learnShares a0 s) := by
  unfold learnShares; try dsimp only
  repeat' (first | with_reducible assumption | with_reducible apply kept_putShares | with_reducible apply kept_ite)

theorem kept_voteMissed {u : State} {s : State} (h0 : Kept u s) :
    Kept u (voteMissed s) := by
  unfold voteMissed; try dsimp only
  repeat' (first
    | with_reducible assumption | with_reducible apply kept_degrade | with_reducible apply kept_modCont
    | with_reducible apply kept_put | with_reducible apply kept_ite)

theorem kept_contOuterTick {u : State} {s : State} (h0 : Kept u s) :
    Kept u (contOuterTick s) := by
  unfold contOuterTick; try dsimp only
  repeat' (first
    | with_reducible assumption | with_reducible apply kept_voteMissed | with_reducible apply kept_modCont
    | with_reducible apply kept_qualify | with_reducible apply kept_learnShares | with_reducible apply kept_copyState
    | with_reducible apply kept_representDemand | with_reducible apply kept_judgeSet
    | with_reducible apply kept_applySwap | with_reducible apply kept_applyCommit | with_reducible apply kept_inc
    | with_reducible apply kept_ite | split)

theorem kept_lateCheck {u : State} {s : State} (h0 : Kept u s) :
    Kept u (lateCheck s) := by
  unfold lateCheck; try dsimp only
  repeat' (first
    | with_reducible assumption | with_reducible apply kept_modCont | with_reducible apply kept_countBit
    | with_reducible apply kept_put | with_reducible apply kept_ite)

theorem kept_slateSend {u : State} {outer : Bool} {s : State} (h1 : Kept u s) :
    Kept u (slateSend outer s) := by
  unfold slateSend; try dsimp only
  repeat' (first
    | with_reducible assumption | with_reducible apply kept_modEbp | with_reducible apply kept_drew
    | with_reducible apply kept_ite)

theorem kept_slateJudge {u : State} {e : Port} {err : ℤ} {s : State} (h2 : Kept u s) :
    Kept u (slateJudge e err s) := by
  unfold slateJudge; try dsimp only
  repeat' (first
    | with_reducible assumption | with_reducible apply kept_modEbp | with_reducible apply kept_put
    | with_reducible apply kept_joinedDrop | with_reducible apply kept_degrade | with_reducible apply kept_ite)

theorem kept_slateTake {u : State} {b : Bridge} {e : Port} {s : State} (h2 : Kept u s) :
    Kept u (slateTake b e s) := by
  unfold slateTake; try dsimp only
  repeat' (first
    | with_reducible assumption | with_reducible apply kept_slateJudge | with_reducible apply kept_modEbp
    | with_reducible apply kept_putS | split)

theorem kept_slateCorrect {u : State} {b : Bridge} {s : State} (h1 : Kept u s) :
    Kept u (slateCorrect b s) := by
  unfold slateCorrect; try dsimp only
  repeat' (first
    | with_reducible assumption | with_reducible apply kept_slateTake | with_reducible apply kept_modAng
    | with_reducible apply kept_ite)

theorem kept_setAngle {u : State} {b : Bridge} {a36 : ℕ} {s : State} (h2 : Kept u s) :
    Kept u (setAngle b a36 s) := by
  unfold setAngle; try dsimp only
  repeat' (first | with_reducible assumption | with_reducible apply kept_put | with_reducible apply kept_modAng)

theorem kept_fireCue {u : State} {b : Bridge} {n : Cue} {dir : ℤ} {s : State} (h3 : Kept u s) :
    Kept u (fireCue b n dir s) := by
  unfold fireCue; try dsimp only
  repeat' (first
    | with_reducible assumption | with_reducible apply kept_putBit | with_reducible apply kept_modAng
    | with_reducible apply kept_ite)

theorem kept_disarmCue {u : State} {b : Bridge} {n : Cue} {s : State} (h2 : Kept u s) :
    Kept u (disarmCue b n s) := by
  unfold disarmCue; try dsimp only
  repeat' (first | with_reducible assumption | with_reducible apply kept_modAng | split)

theorem kept_fireAngleCue {u : State} {b : Bridge} {dir : ℤ} {s : State} {n : Cue} (h2 : Kept u s) :
    Kept u (fireAngleCue b dir s n) := by
  unfold fireAngleCue; try dsimp only
  repeat' (first
    | with_reducible assumption | with_reducible apply kept_disarmCue | with_reducible apply kept_fireCue)

theorem kept_armCue {u : State} {b : Bridge} {n : Cue} {s : State} (h2 : Kept u s) :
    Kept u (armCue b n s) := by
  unfold armCue; try dsimp only
  repeat' (first | with_reducible assumption | with_reducible apply kept_modAng)

theorem kept_armAll {u : State} {b : Bridge} {s : State} (h1 : Kept u s) :
    Kept u (armAll b s) := by
  unfold armAll; try dsimp only
  repeat' (first
    | with_reducible assumption | with_reducible apply kept_armCue | with_reducible apply kept_foldl
    | with_reducible apply kept_ite | (intro; intros; try dsimp only))

theorem kept_moveCues {u : State} {b : Bridge} {a0 : ℕ} {d : ℤ} {s : State} (h3 : Kept u s) :
    Kept u (moveCues b a0 d s) := by
  unfold moveCues; try dsimp only
  repeat' (first
    | with_reducible assumption | with_reducible apply kept_fireAngleCue | with_reducible apply kept_armCue
    | with_reducible apply kept_foldl | with_reducible apply kept_ite | (intro; intros; try dsimp only))

theorem kept_carrierCues {u : State} {b : Bridge} {s0 : ℤ} {s1 : ℕ} {s : State} (h3 : Kept u s) :
    Kept u (carrierCues b s0 s1 s) := by
  unfold carrierCues; try dsimp only
  repeat' (first
    | with_reducible assumption | with_reducible apply kept_fireCue | with_reducible apply kept_foldl
    | (intro; intros; try dsimp only))

theorem kept_brakeEnd {u : State} {b : Bridge} {s : State} (h1 : Kept u s) :
    Kept u (brakeEnd b s) := by
  unfold brakeEnd; try dsimp only
  repeat' (first
    | with_reducible assumption | with_reducible apply kept_followGates | with_reducible apply kept_setMode
    | with_reducible apply kept_ite)

theorem kept_setStill {u : State} {b : Bridge} {s : State} (h1 : Kept u s) :
    Kept u (setStill b s) := by
  unfold setStill; try dsimp only
  repeat' (first
    | with_reducible assumption | with_reducible apply kept_brakeEnd | with_reducible apply kept_modAng
    | with_reducible apply kept_put)

theorem kept_sectorFast {u : State} {b : Bridge} {s : State} (h1 : Kept u s) :
    Kept u (sectorFast b s) := by
  unfold sectorFast; try dsimp only
  repeat' (first
    | with_reducible assumption | with_reducible apply kept_when | with_reducible apply kept_modMc
    | (intro; intros; try dsimp only))

theorem kept_reloadTo {u : State} {b : Bridge} {theta : ℕ} {rate : ℤ} {age : ℕ} {s : State} (h4 : Kept u s) :
    Kept u (reloadTo b theta rate age s) := by
  unfold reloadTo; try dsimp only
  repeat' (first
    | with_reducible assumption | with_reducible apply kept_putS | with_reducible apply kept_setAngle
    | with_reducible apply kept_when | with_reducible apply kept_count | with_reducible apply kept_put
    | with_reducible apply kept_moveCues | with_reducible apply kept_lossOfSync | with_reducible apply kept_ite
    | (intro; intros; try dsimp only))

theorem kept_reload {u : State} {b : Bridge} {smp : Sample} {s : State} (h2 : Kept u s) :
    Kept u (reload b smp s) := by
  unfold reload; try dsimp only
  repeat' (first
    | with_reducible assumption | with_reducible apply kept_reloadTo | with_reducible apply kept_setStill
    | with_reducible apply kept_armAll | with_reducible apply kept_modAng | with_reducible apply kept_put
    | with_reducible apply kept_brakeEnd | with_reducible apply kept_sectorFast | with_reducible apply kept_ite)

theorem kept_deliver {u : State} {smp : Sample} {s : State} (h1 : Kept u s) :
    Kept u (deliver smp s) := by
  unfold deliver; try dsimp only
  repeat' (first | with_reducible assumption | with_reducible apply kept_deliverTo | with_reducible apply kept_ite)

theorem kept_setSource {u : State} {b : Bridge} {src : ℕ} {s : State} (h2 : Kept u s) :
    Kept u (setSource b src s) := by
  unfold setSource; try dsimp only
  repeat' (first
    | with_reducible assumption | with_reducible apply kept_modAng | with_reducible apply kept_put
    | with_reducible apply kept_setStill | with_reducible apply kept_ite)

theorem kept_stillTick {u : State} {b : Bridge} {s : State} (h1 : Kept u s) :
    Kept u (stillTick b s) := by
  unfold stillTick; try dsimp only
  repeat' (first
    | with_reducible assumption | with_reducible apply kept_setStill | with_reducible apply kept_modAng
    | with_reducible apply kept_ite)

theorem kept_angleTick {u : State} {b : Bridge} {s : State} (h1 : Kept u s) :
    Kept u (angleTick b s) := by
  unfold angleTick; try dsimp only
  repeat' (first
    | with_reducible assumption | with_reducible apply kept_setAngle | with_reducible apply kept_brakeEnd
    | with_reducible apply kept_sectorFast | with_reducible apply kept_put | with_reducible apply kept_modAng
    | with_reducible apply kept_armAll | with_reducible apply kept_stillTick | with_reducible apply kept_moveCues
    | with_reducible apply kept_ite)

theorem kept_carrierTick {u : State} {b : Bridge} {s : State} (h1 : Kept u s) :
    Kept u (carrierTick b s) := by
  unfold carrierTick; try dsimp only
  repeat' (first
    | with_reducible assumption | with_reducible apply kept_modAng | with_reducible apply kept_carrierCues
    | with_reducible apply kept_ite)

theorem kept_angTick {u : State} {b : Bridge} {s : State} (h1 : Kept u s) :
    Kept u (angTick b s) := by
  unfold angTick; try dsimp only
  repeat' (first
    | with_reducible assumption | with_reducible apply kept_followGates | with_reducible apply kept_carrierTick
    | with_reducible apply kept_angleTick | with_reducible apply kept_ite)

theorem kept_syncTest {u : State} {b : Bridge} {s : State} (h1 : Kept u s) :
    Kept u (syncTest b s) := by
  unfold syncTest; try dsimp only
  repeat' (first
    | with_reducible assumption | with_reducible apply kept_modAng | with_reducible apply kept_ite | split)

theorem kept_syncValley {u : State} {b : Bridge} {s : State} (h1 : Kept u s) :
    Kept u (syncValley b s) := by
  unfold syncValley; try dsimp only
  repeat' (first
    | with_reducible assumption | with_reducible apply kept_putS | with_reducible apply kept_when
    | with_reducible apply kept_put | with_reducible apply kept_modAng | with_reducible apply kept_ite
    | (intro; intros; try dsimp only))

theorem kept_holdCheck {u : State} {b : Bridge} {s : State} (h1 : Kept u s) :
    Kept u (holdCheck b s) := by
  unfold holdCheck; try dsimp only
  repeat' (first | with_reducible assumption | with_reducible apply kept_requestShort | with_reducible apply kept_ite)

theorem kept_innerTick {u : State} {b : Bridge} {s : State} (h1 : Kept u s) :
    Kept u (innerTick b s) := by
  unfold innerTick; try dsimp only
  repeat' (first
    | with_reducible assumption | with_reducible apply kept_followGates | with_reducible apply kept_holdCheck
    | with_reducible apply kept_dutyLoad | with_reducible apply kept_modAng | with_reducible apply kept_inc
    | with_reducible apply kept_when | with_reducible apply kept_modBridge | with_reducible apply kept_presentDemand
    | with_reducible apply kept_lateCheck | with_reducible apply kept_triggerAll | with_reducible apply kept_ite
    | (intro; intros; try dsimp only))

theorem kept_outerTick {u : State} {b : Bridge} {s : State} (h1 : Kept u s) :
    Kept u (outerTick b s) := by
  unfold outerTick; try dsimp only
  repeat' (first
    | with_reducible assumption | with_reducible apply kept_modAng | with_reducible apply kept_inc
    | with_reducible apply kept_contOuterTick | with_reducible apply kept_triggerAll | with_reducible apply kept_ite)

theorem kept_contRefTick {u : State} {s : State} (h0 : Kept u s) :
    Kept u (contRefTick s) := by
  unfold contRefTick; try dsimp only
  repeat' (first | with_reducible assumption | with_reducible apply kept_beat | with_reducible apply kept_modCont)

theorem kept_refInnerTick {u : State} {b : Bridge} {valley : Bool} {s : State} (h2 : Kept u s) :
    Kept u (refInnerTick b valley s) := by
  unfold refInnerTick; try dsimp only
  repeat' (first
    | with_reducible assumption | with_reducible apply kept_modAng | with_reducible apply kept_contRefTick
    | with_reducible apply kept_slateSend | with_reducible apply kept_outerTick | with_reducible apply kept_ite)

theorem kept_refValley {u : State} {b : Bridge} {s : State} (h1 : Kept u s) :
    Kept u (refValley b s) := by
  unfold refValley; try dsimp only
  repeat' (first
    | with_reducible assumption | with_reducible apply kept_modAng | with_reducible apply kept_modCont
    | with_reducible apply kept_slateCorrect | with_reducible apply kept_innerTick
    | with_reducible apply kept_syncTest | with_reducible apply kept_refInnerTick
    | with_reducible apply kept_carrierCues | with_reducible apply kept_ite)

theorem kept_ownValley {u : State} {b : Bridge} {s : State} (h1 : Kept u s) :
    Kept u (ownValley b s) := by
  unfold ownValley; try dsimp only
  repeat' (first
    | with_reducible assumption | with_reducible apply kept_syncValley | with_reducible apply kept_modAng
    | with_reducible apply kept_put | with_reducible apply kept_syncTest | with_reducible apply kept_carrierCues
    | with_reducible apply kept_innerTick | with_reducible apply kept_ite)

theorem kept_carrierPeak {u : State} {b : Bridge} {ref : Bool} {s : State} (h2 : Kept u s) :
    Kept u (carrierPeak b ref s) := by
  unfold carrierPeak; try dsimp only
  repeat' (first
    | with_reducible assumption | with_reducible apply kept_refInnerTick | with_reducible apply kept_innerTick
    | with_reducible apply kept_ite)

theorem kept_angEnable {u : State} {b : Bridge} {s : State} (h1 : Kept u s) :
    Kept u (angEnable b s) := by
  unfold angEnable; try dsimp only
  repeat' (first
    | with_reducible assumption | with_reducible apply kept_put | with_reducible apply kept_followGates
    | with_reducible apply kept_modAng)

theorem kept_lineAct {u : State} {b : Bridge} {line : ℕ} {op : ℕ} {s : State} (h3 : Kept u s) :
    Kept u (lineAct b line op s) := by
  unfold lineAct; try dsimp only
  repeat' (first
    | with_reducible assumption | with_reducible apply kept_modAng | with_reducible apply kept_ite | split)

theorem kept_linePulseEnd {u : State} {b : Bridge} {line : ℕ} {s : State} (h2 : Kept u s) :
    Kept u (linePulseEnd b line s) := by
  unfold linePulseEnd; try dsimp only
  repeat' (first | with_reducible assumption | with_reducible apply kept_modAng | with_reducible apply kept_ite)

end Sys2Proof.Machine
end

