-- ==== Sys2Proof/Laws/KeptBlocks.lean ====
section
/-!
SUPPORT. What every operation of Machine/Usile.lean, Machine/Access.lean, Machine/Time.lean, Machine/Can.lean, Machine/Isns.lean, Machine/RegWrite.lean, Machine/Angle.lean, Machine/Position.lean, Machine/Heldiog.lean, Machine/Gate.lean keeps: the queue of waiting commands and the canonical forms of
memory and registers. One lemma per operation, cited by the lemmas of the operations that call it.
-/
set_option Elab.async false
set_option linter.unusedTactic false
set_option linter.unreachableTactic false
namespace Sys2Proof.Machine

theorem kept_byV {u s : State} {o : Out} (h0 : Kept u s) (h1 : ∀ t, o = .next t → Kept u t) :
    ∀ t, (byV s o) = .next t → Kept u t := by
  intro t ht; unfold byV at ht; split at ht
  · exact h1 t ht
  · obtain rfl := Host.Outcome.next.inj ht; exact h0

theorem kept_byK {u s : State} {o : Out} (h0 : Kept u s) (h1 : ∀ t, o = .next t → Kept u t) :
    ∀ t, (byK s o) = .next t → Kept u t := by
  intro t ht; unfold byK at ht; split at ht
  · exact h1 t ht
  · obtain rfl := Host.Outcome.next.inj ht; exact h0

theorem kept_busData {u : State} {v : Word} {s : State} (h1 : Kept u s) :
    Kept u (busData v s) := by
  unfold busData; try dsimp only
  repeat' (first | with_reducible assumption | with_reducible refine kept_mk ?_ rfl rfl rfl)

theorem kept_busError {u : State} {s : State} (h0 : Kept u s) :
    Kept u (busError s) := by
  unfold busError; try dsimp only
  repeat' (first | with_reducible assumption | with_reducible refine kept_mk ?_ rfl rfl rfl)

theorem kept_refuse {u : State} {r : Requester} {addr : ℕ} {write : Bool} {s : State} (h3 : Kept u s) :
    Kept u (refuse r addr write s) := by
  unfold refuse; try dsimp only
  repeat' (first
    | with_reducible assumption | with_reducible apply kept_busError | with_reducible apply kept_put
    | with_reducible apply kept_inc | with_reducible apply kept_putB | with_reducible apply kept_ite)

theorem kept_errorRecorded {u : State} {r : Requester} {a : ℕ} {s : State} (h2 : Kept u s) :
    Kept u (errorRecorded r a s) := by
  unfold errorRecorded; try dsimp only
  repeat' (first
    | with_reducible assumption | with_reducible apply kept_sat | with_reducible apply kept_put
    | with_reducible apply kept_ite)

theorem kept_driverAccess {u : State} {write : Bool} {act : State → State} {s : State} (h1 : ∀ t0, Kept u t0 → Kept u (act t0)) (h2 : Kept u s) :
    Kept u (driverAccess write act s) := by
  unfold driverAccess; try dsimp only
  repeat' (first
    | with_reducible assumption | with_reducible apply h1 | with_reducible apply kept_busError
    | with_reducible apply kept_busData | with_reducible apply kept_ite | (intro; intros; try dsimp only))

theorem kept_regAccess {u : State} {r : Requester} {addr : ℕ} {write : Bool} {act : State → State} {s : State} (h3 : ∀ t0, Kept u t0 → Kept u (act t0)) (h4 : Kept u s) :
    Kept u (regAccess r addr write act s) := by
  unfold regAccess; try dsimp only
  repeat' (first
    | with_reducible assumption | with_reducible apply h3 | with_reducible apply kept_refuse
    | with_reducible apply kept_driverAccess | with_reducible apply kept_ite | (intro; intros; try dsimp only))

theorem kept_uslRefused {u : State} {write : Bool} {a : ℕ} {n : ℕ} {s : State} (h3 : Kept u s) :
    Kept u (uslRefused write a n s) := by
  unfold uslRefused; try dsimp only
  repeat' (first
    | with_reducible assumption | with_reducible apply kept_refuse | with_reducible apply kept_foldl
    | (intro; intros; try dsimp only) | with_reducible refine kept_mk ?_ rfl rfl rfl)

theorem kept_uslStore {u : State} {a : ℕ} {l : List Byte} {s : State} (h2 : Kept u s) :
    Kept u (uslStore a l s) := by
  unfold uslStore; try dsimp only
  repeat' (first
    | with_reducible assumption | with_reducible apply kept_uslRefused | with_reducible apply kept_setBytes)

theorem kept_setOver {u : State} {k : UslEnt} {v : UslSlot} {s : State} (h2 : Kept u s) :
    Kept u (setOver k v s) := by
  unfold setOver; try dsimp only
  repeat' (first | with_reducible assumption | with_reducible apply kept_modUsl)

theorem kept_setSlot {u : State} {k : UslEnt} {v : UslSlot} {s : State} (h2 : Kept u s) :
    Kept u (setSlot k v s) := by
  unfold setSlot; try dsimp only
  repeat' (first | with_reducible assumption | with_reducible apply kept_modUsl)

theorem kept_uslListen {u : State} {s : State} (h0 : Kept u s) :
    Kept u (uslListen s) := by
  unfold uslListen; try dsimp only
  repeat' (first | with_reducible assumption | with_reducible apply kept_modUsl | with_reducible apply kept_put)

theorem kept_uslEnable {u : State} {en : Bool} {mon : Bool} {s : State} (h2 : Kept u s) :
    Kept u (uslEnable en mon s) := by
  unfold uslEnable; try dsimp only
  repeat' (first
    | with_reducible assumption | with_reducible apply kept_put | with_reducible apply kept_putB
    | with_reducible apply kept_uslListen | with_reducible apply kept_modUsl | with_reducible apply kept_followVotes
    | with_reducible apply kept_ite)

theorem kept_clearRecords {u : State} {s : State} (h0 : Kept u s) :
    Kept u (clearRecords s) := by
  unfold clearRecords; try dsimp only
  repeat' (first
    | with_reducible assumption | with_reducible apply kept_uslStore | with_reducible apply kept_foldl
    | (intro; intros; try dsimp only))

theorem kept_latchCycle {u : State} {s : State} (h0 : Kept u s) :
    Kept u (latchCycle s) := by
  unfold latchCycle; try dsimp only
  repeat' (first | with_reducible assumption | with_reducible apply kept_put)

theorem kept_uslCycleStart {u : State} {s : State} (h0 : Kept u s) :
    Kept u (uslCycleStart s) := by
  unfold uslCycleStart; try dsimp only
  repeat' (first
    | with_reducible assumption | with_reducible apply kept_clearRecords | with_reducible apply kept_modUsl
    | with_reducible apply kept_put | with_reducible apply kept_uslRefused | with_reducible apply kept_latchCycle
    | with_reducible apply kept_ite)

theorem kept_uslCount {u : State} {c : ℕ} {j : ℕ} {s : State} (h2 : Kept u s) :
    Kept u (uslCount c j s) := by
  unfold uslCount; try dsimp only
  repeat' (first | with_reducible assumption | with_reducible apply kept_countBit | split)

theorem kept_uslPollStart {u : State} {k : UslEnt} {lineIdle : Bool} {s : State} (h2 : Kept u s) :
    Kept u (uslPollStart k lineIdle s) := by
  unfold uslPollStart; try dsimp only
  repeat' (first
    | with_reducible assumption | with_reducible apply kept_setSlot | with_reducible apply kept_uslRefused
    | with_reducible apply kept_modUsl | with_reducible apply kept_countBit | with_reducible apply kept_ite)

theorem kept_uslPollEnd {u : State} {k : UslEnt} {s : State} (h1 : Kept u s) :
    Kept u (uslPollEnd k s) := by
  unfold uslPollEnd; try dsimp only
  repeat' (first
    | with_reducible assumption | with_reducible apply kept_setSlot | with_reducible apply kept_setOver
    | with_reducible apply kept_ite | split)

theorem kept_uslDiscard {u : State} {k : UslEnt} {j : ℕ} {err : ℕ} {s : State} (h3 : Kept u s) :
    Kept u (uslDiscard k j err s) := by
  unfold uslDiscard; try dsimp only
  repeat' (first
    | with_reducible assumption | with_reducible apply kept_uslCount | with_reducible apply kept_setSlot | split)

theorem kept_uslJudge {u : State} {k : UslEnt} {rep : UslReply} {s : State} (h2 : Kept u s) :
    Kept u (uslJudge k rep s) := by
  unfold uslJudge; try dsimp only
  repeat' (first
    | with_reducible assumption | with_reducible apply kept_drew | with_reducible apply kept_uslDiscard
    | with_reducible apply kept_setSlot | with_reducible apply kept_uslStore | with_reducible apply kept_ite | split)

theorem kept_uslReply {u : State} {k : UslEnt} {rep : UslReply} {s : State} (h2 : Kept u s) :
    Kept u (uslReply k rep s) := by
  unfold uslReply; try dsimp only
  repeat' (first
    | with_reducible assumption | with_reducible apply kept_uslJudge | with_reducible apply kept_uslDiscard
    | with_reducible apply kept_uslCount | with_reducible apply kept_setOver | with_reducible apply kept_ite | split)

theorem kept_uslTimeout {u : State} {k : UslEnt} {s : State} (h1 : Kept u s) :
    Kept u (uslTimeout k s) := by
  unfold uslTimeout; try dsimp only
  repeat' (first
    | with_reducible assumption | with_reducible apply kept_uslDiscard | with_reducible apply kept_uslCount
    | with_reducible apply kept_setOver | with_reducible apply kept_ite)

theorem kept_uslPublishEntry {u : State} {s : State} {k : UslEnt} (h0 : Kept u s) :
    Kept u (uslPublishEntry s k) := by
  unfold uslPublishEntry; try dsimp only
  repeat' (first
    | with_reducible assumption | with_reducible apply kept_uslStore | with_reducible apply kept_uslRefused
    | with_reducible apply kept_put | with_reducible apply kept_ite)

theorem kept_uslCycleEnd {u : State} {s : State} (h0 : Kept u s) :
    Kept u (uslCycleEnd s) := by
  unfold uslCycleEnd; try dsimp only
  repeat' (first
    | with_reducible assumption | with_reducible apply kept_uslPublishEntry | with_reducible apply kept_put
    | with_reducible apply kept_uslStore | with_reducible apply kept_modUsl | with_reducible apply kept_foldl
    | with_reducible apply kept_ite | (intro; intros; try dsimp only))

theorem kept_uslSecondMaster {u : State} {c : Fin 2} {readback : Bool} {s : State} (h2 : Kept u s) :
    Kept u (uslSecondMaster c readback s) := by
  unfold uslSecondMaster; try dsimp only
  repeat' (first
    | with_reducible assumption | with_reducible apply kept_when | with_reducible apply kept_putBit
    | with_reducible apply kept_countBit | with_reducible apply kept_put | with_reducible apply kept_setSlot
    | with_reducible apply kept_setOver | with_reducible apply kept_modUsl | with_reducible apply kept_foldl
    | with_reducible apply kept_ite | (intro; intros; try dsimp only))

theorem kept_uslDeferEnd {u : State} {s : State} (h0 : Kept u s) :
    Kept u (uslDeferEnd s) := by
  unfold uslDeferEnd; try dsimp only
  repeat' (first | with_reducible assumption | with_reducible apply kept_uslListen | with_reducible apply kept_ite)

theorem kept_uslObserved {u : State} {c : Fin 2} {adr : BitVec 7} {cmd : BitVec 4} {s : State} (h3 : Kept u s) :
    Kept u (uslObserved c adr cmd s) := by
  unfold uslObserved; try dsimp only
  repeat' (first
    | with_reducible assumption | with_reducible apply kept_setSlot | with_reducible apply kept_ite | split)

theorem kept_execUsileEnable {u : State} {en : Bool} {mon : Bool} {s : State} (h2 : Kept u s) :
    ∀ t, (execUsileEnable en mon s) = .next t → Kept u t := by
  intro t ht; unfold execUsileEnable at ht
  refine kept_clockedOut (by assumption) ?_ t ht; clear ht t; intro t ht; obtain rfl := Host.Outcome.next.inj ht; try dsimp only
  repeat' (first | with_reducible assumption | with_reducible apply kept_uslEnable)

theorem kept_execUsileCycleStart {u : State} {s : State} (h0 : Kept u s) :
    ∀ t, (execUsileCycleStart s) = .next t → Kept u t := by
  intro t ht; unfold execUsileCycleStart at ht
  refine kept_clockedOut (by assumption) ?_ t ht; clear ht t; intro t ht; obtain rfl := Host.Outcome.next.inj ht; try dsimp only
  repeat' (first | with_reducible assumption | with_reducible apply kept_uslCycleStart)

theorem kept_execPollStart {u : State} {k : UslEnt} {lineIdle : Bool} {s : State} (h2 : Kept u s) :
    ∀ t, (execPollStart k lineIdle s) = .next t → Kept u t := by
  intro t ht; unfold execPollStart at ht
  refine kept_clockedOut (by assumption) ?_ t ht; clear ht t; intro t ht; obtain rfl := Host.Outcome.next.inj ht; try dsimp only
  repeat' (first | with_reducible assumption | with_reducible apply kept_uslPollStart)

theorem kept_execPollEnd {u : State} {k : UslEnt} {s : State} (h1 : Kept u s) :
    ∀ t, (execPollEnd k s) = .next t → Kept u t := by
  intro t ht; unfold execPollEnd at ht
  refine kept_clockedOut (by assumption) ?_ t ht; clear ht t; intro t ht; obtain rfl := Host.Outcome.next.inj ht; try dsimp only
  repeat' (first | with_reducible assumption | with_reducible apply kept_uslPollEnd)

theorem kept_execReplyReceived {u : State} {k : UslEnt} {rep : UslReply} {s : State} (h2 : Kept u s) :
    ∀ t, (execReplyReceived k rep s) = .next t → Kept u t := by
  intro t ht; unfold execReplyReceived at ht
  refine kept_clockedOut (by assumption) ?_ t ht; clear ht t; intro t ht; obtain rfl := Host.Outcome.next.inj ht; try dsimp only
  repeat' (first | with_reducible assumption | with_reducible apply kept_uslReply)

theorem kept_execReplyWindowTimeout {u : State} {k : UslEnt} {s : State} (h1 : Kept u s) :
    ∀ t, (execReplyWindowTimeout k s) = .next t → Kept u t := by
  intro t ht; unfold execReplyWindowTimeout at ht
  refine kept_clockedOut (by assumption) ?_ t ht; clear ht t; intro t ht; obtain rfl := Host.Outcome.next.inj ht; try dsimp only
  repeat' (first | with_reducible assumption | with_reducible apply kept_uslTimeout)

theorem kept_execUsileCycleEnd {u : State} {s : State} (h0 : Kept u s) :
    ∀ t, (execUsileCycleEnd s) = .next t → Kept u t := by
  intro t ht; unfold execUsileCycleEnd at ht
  refine kept_clockedOut (by assumption) ?_ t ht; clear ht t; intro t ht; obtain rfl := Host.Outcome.next.inj ht; try dsimp only
  repeat' (first | with_reducible assumption | with_reducible apply kept_uslCycleEnd)

theorem kept_execSecondMasterDetected {u : State} {c : Fin 2} {readback : Bool} {s : State} (h2 : Kept u s) :
    ∀ t, (execSecondMasterDetected c readback s) = .next t → Kept u t := by
  intro t ht; unfold execSecondMasterDetected at ht
  refine kept_clockedOut (by assumption) ?_ t ht; clear ht t; intro t ht; obtain rfl := Host.Outcome.next.inj ht; try dsimp only
  repeat' (first | with_reducible assumption | with_reducible apply kept_uslSecondMaster)

theorem kept_execDeferEnd {u : State} {s : State} (h0 : Kept u s) :
    ∀ t, (execDeferEnd s) = .next t → Kept u t := by
  intro t ht; unfold execDeferEnd at ht
  refine kept_clockedOut (by assumption) ?_ t ht; clear ht t; intro t ht; obtain rfl := Host.Outcome.next.inj ht; try dsimp only
  repeat' (first | with_reducible assumption | with_reducible apply kept_uslDeferEnd)

theorem kept_execPollObserved {u : State} {c : Fin 2} {adr : BitVec 7} {cmd : BitVec 4} {s : State} (h3 : Kept u s) :
    ∀ t, (execPollObserved c adr cmd s) = .next t → Kept u t := by
  intro t ht; unfold execPollObserved at ht
  refine kept_clockedOut (by assumption) ?_ t ht; clear ht t; intro t ht; obtain rfl := Host.Outcome.next.inj ht; try dsimp only
  repeat' (first | with_reducible assumption | with_reducible apply kept_uslObserved)

theorem kept_timeTick {u : State} {s : State} (h0 : Kept u s) :
    Kept u (timeTick s) := by
  unfold timeTick; try dsimp only
  repeat' (first
    | with_reducible assumption | with_reducible apply kept_modTime | with_reducible apply kept_put
    | with_reducible apply kept_ite)

theorem kept_uptimeTick {u : State} {s : State} (h0 : Kept u s) :
    Kept u (uptimeTick s) := by
  unfold uptimeTick; try dsimp only
  repeat' (first
    | with_reducible assumption | with_reducible apply kept_modTime | with_reducible apply kept_put
    | with_reducible apply kept_ite)

theorem kept_elapsedTick {u : State} {s : State} (h0 : Kept u s) :
    Kept u (elapsedTick s) := by
  unfold elapsedTick; try dsimp only
  repeat' (first | with_reducible assumption | with_reducible apply kept_drew | with_reducible apply kept_put)

theorem kept_readTimeNs {u : State} {r : Requester} {s : State} (h1 : Kept u s) :
    Kept u (readTimeNs r s) := by
  unfold readTimeNs; try dsimp only
  repeat' (first | with_reducible assumption | with_reducible apply kept_busData | with_reducible apply kept_modTime)

theorem kept_readUcycNs {u : State} {r : Requester} {s : State} (h1 : Kept u s) :
    Kept u (readUcycNs r s) := by
  unfold readUcycNs; try dsimp only
  repeat' (first | with_reducible assumption | with_reducible apply kept_busData | with_reducible apply kept_modTime)

theorem kept_readUptime {u : State} {r : Requester} {s : State} (h1 : Kept u s) :
    Kept u (readUptime r s) := by
  unfold readUptime; try dsimp only
  repeat' (first | with_reducible assumption | with_reducible apply kept_busData | with_reducible apply kept_modTime)

theorem kept_setRate {u : State} {v : Word} {s : State} (h1 : Kept u s) :
    Kept u (setRate v s) := by
  unfold setRate; try dsimp only
  repeat' (first | with_reducible assumption | with_reducible apply kept_put | with_reducible apply kept_ite)

theorem kept_stepNs {u : State} {v : Word} {s : State} (h1 : Kept u s) :
    Kept u (stepNs v s) := by
  unfold stepNs; try dsimp only
  repeat' (first
    | with_reducible assumption | with_reducible apply kept_put | with_reducible apply kept_modTime
    | with_reducible apply kept_ite)

theorem kept_stepBy {u : State} {e : ℤ} {s : State} (h1 : Kept u s) :
    Kept u (stepBy e s) := by
  unfold stepBy; try dsimp only
  repeat' (first | with_reducible assumption | with_reducible apply kept_stepNs | with_reducible apply kept_put)

theorem kept_stampTaken {u : State} {s : State} (h0 : Kept u s) :
    Kept u (stampTaken s) := by
  unfold stampTaken; try dsimp only
  repeat' (first | with_reducible assumption | with_reducible apply kept_modTime)

theorem kept_syncAct {u : State} {e : ℤ} {est : ℤ} {s : State} (h2 : Kept u s) :
    Kept u (syncAct e est s) := by
  unfold syncAct; try dsimp only
  repeat' (first
    | with_reducible assumption | with_reducible apply kept_modTime | with_reducible apply kept_inc
    | with_reducible apply kept_stepBy | with_reducible apply kept_drew | with_reducible apply kept_putS
    | with_reducible apply kept_put | with_reducible apply kept_ite)

theorem kept_syncReceived {u : State} {net : Fin 2} {f : SyncFrame} {sec : Word} {ns : Word} {est : ℤ} {s : State} (h5 : Kept u s) :
    Kept u (syncReceived net f sec ns est s) := by
  unfold syncReceived; try dsimp only
  repeat' (first
    | with_reducible assumption | with_reducible apply kept_modTime | with_reducible apply kept_stampTaken
    | with_reducible apply kept_put | with_reducible apply kept_syncAct | with_reducible apply kept_ite | split)

theorem kept_syncMissed {u : State} {s : State} (h0 : Kept u s) :
    Kept u (syncMissed s) := by
  unfold syncMissed; try dsimp only
  repeat' (first
    | with_reducible assumption | with_reducible apply kept_count | with_reducible apply kept_modTime
    | with_reducible apply kept_when | with_reducible apply kept_put | with_reducible apply kept_ite
    | (intro; intros; try dsimp only))

theorem kept_syncFrameIn {u : State} {net : Fin 2} {l : List Byte} {s : State} (h2 : Kept u s) :
    Kept u (syncFrameIn net l s) := by
  unfold syncFrameIn; try dsimp only
  repeat' (first
    | with_reducible assumption | with_reducible apply kept_drew | with_reducible apply kept_syncReceived
    | with_reducible apply kept_ite)

theorem kept_twinDeliver {u : State} {k : TwinPair} {c : TwinCopy} {single : Option (Fin 2)} {s : State} (h3 : Kept u s) :
    Kept u (twinDeliver k c single s) := by
  unfold twinDeliver; try dsimp only
  repeat' (first
    | with_reducible assumption | with_reducible apply kept_setBytes | with_reducible apply kept_putB
    | with_reducible apply kept_inc | with_reducible apply kept_put | with_reducible apply kept_raise
    | with_reducible apply kept_ite | split)

theorem kept_twinDecide {u : State} {k : TwinPair} {s : State} (h1 : Kept u s) :
    Kept u (twinDecide k s) := by
  unfold twinDecide; try dsimp only
  repeat' (first
    | with_reducible assumption | with_reducible apply kept_putBit | with_reducible apply kept_modTwin
    | with_reducible apply kept_twinDeliver | with_reducible apply kept_countBit | with_reducible apply kept_ite
    | split)

theorem kept_twinArrive {u : State} {k : TwinPair} {net : Fin 2} {c : TwinCopy} {s : State} (h3 : Kept u s) :
    Kept u (twinArrive k net c s) := by
  unfold twinArrive; try dsimp only
  repeat' (first
    | with_reducible assumption | with_reducible apply kept_modTwin | with_reducible apply kept_twinDecide
    | with_reducible apply kept_ite)

theorem kept_twinNotice {u : State} {n : CanCtl} {obj : ℕ} {c : TwinCopy} {s : State} (h3 : Kept u s) :
    Kept u (twinNotice n obj c s) := by
  unfold twinNotice; try dsimp only
  repeat' (first
    | with_reducible assumption | with_reducible apply kept_twinArrive | with_reducible apply kept_foldl
    | with_reducible apply kept_ite | (intro; intros; try dsimp only))

theorem kept_setCanObj {u : State} {n : CanCtl} {k : ℕ} {o : CanObj} {s : State} (h3 : Kept u s) :
    Kept u (setCanObj n k o s) := by
  unfold setCanObj; try dsimp only
  repeat' (first | with_reducible assumption | with_reducible apply kept_modCan)

theorem kept_canEvent {u : State} {n : CanCtl} {j : ℕ} {s : State} (h2 : Kept u s) :
    Kept u (canEvent n j s) := by
  unfold canEvent; try dsimp only
  repeat' (first
    | with_reducible assumption | with_reducible apply kept_put | with_reducible apply kept_raise
    | with_reducible apply kept_ite)

theorem kept_canTellTwin {u : State} {n : CanCtl} {s : State} (h1 : Kept u s) :
    Kept u (canTellTwin n s) := by
  unfold canTellTwin; try dsimp only
  repeat' (first
    | with_reducible assumption | with_reducible apply kept_judgeSet | with_reducible apply kept_putB
    | with_reducible apply kept_ite)

theorem kept_canState {u : State} {n : CanCtl} {est : ℕ} {s : State} (h2 : Kept u s) :
    Kept u (canState n est s) := by
  unfold canState; try dsimp only
  repeat' (first
    | with_reducible assumption | with_reducible apply kept_canEvent | with_reducible apply kept_put
    | with_reducible apply kept_ite)

theorem kept_canCancelled {u : State} {n : CanCtl} {k : Fin 32} {s : State} (h2 : Kept u s) :
    Kept u (canCancelled n k s) := by
  unfold canCancelled; try dsimp only
  repeat' (first
    | with_reducible assumption | with_reducible apply kept_put | with_reducible apply kept_when
    | with_reducible apply kept_modHost | with_reducible apply kept_canEvent | (intro; intros; try dsimp only))

theorem kept_canRelease {u : State} {n : CanCtl} {s : State} (h1 : Kept u s) :
    Kept u (canRelease n s) := by
  unfold canRelease; try dsimp only
  repeat' (first
    | with_reducible assumption | with_reducible apply kept_modCan | with_reducible apply kept_put | split)

theorem kept_canJudge {u : State} {n : CanCtl} {s : State} (h1 : Kept u s) :
    Kept u (canJudge n s) := by
  unfold canJudge; try dsimp only
  repeat' (first | with_reducible assumption | with_reducible apply kept_canState | with_reducible apply kept_ite)

theorem kept_canBusOff {u : State} {n : CanCtl} {s : State} (h1 : Kept u s) :
    Kept u (canBusOff n s) := by
  unfold canBusOff; try dsimp only
  repeat' (first
    | with_reducible assumption | with_reducible apply kept_count | with_reducible apply kept_put
    | with_reducible apply kept_canState | with_reducible apply kept_canTellTwin | with_reducible apply kept_modCan
    | with_reducible apply kept_canRelease | with_reducible apply kept_when | with_reducible apply kept_reelSubmit
    | (intro; intros; try dsimp only))

theorem kept_canTecUp {u : State} {n : CanCtl} {s : State} (h1 : Kept u s) :
    Kept u (canTecUp n s) := by
  unfold canTecUp; try dsimp only
  repeat' (first
    | with_reducible assumption | with_reducible apply kept_canBusOff | with_reducible apply kept_canJudge
    | with_reducible apply kept_put | with_reducible apply kept_ite)

theorem kept_canRecUp {u : State} {n : CanCtl} {d : ℕ} {s : State} (h2 : Kept u s) :
    Kept u (canRecUp n d s) := by
  unfold canRecUp; try dsimp only
  repeat' (first | with_reducible assumption | with_reducible apply kept_canJudge | with_reducible apply kept_put)

theorem kept_canRecDown {u : State} {n : CanCtl} {s : State} (h1 : Kept u s) :
    Kept u (canRecDown n s) := by
  unfold canRecDown; try dsimp only
  repeat' (first
    | with_reducible assumption | with_reducible apply kept_canJudge | with_reducible apply kept_put
    | with_reducible apply kept_drew | with_reducible apply kept_ite)

theorem kept_abdEnd {u : State} {n : CanCtl} {found : Option ℕ} {s : State} (h2 : Kept u s) :
    Kept u (abdEnd n found s) := by
  unfold abdEnd; try dsimp only
  repeat' (first
    | with_reducible assumption | with_reducible apply kept_modCan | with_reducible apply kept_put
    | with_reducible apply kept_wr | with_reducible apply kept_canEvent | split)

theorem kept_abdNext {u : State} {n : CanCtl} {s : State} (h1 : Kept u s) :
    Kept u (abdNext n s) := by
  unfold abdNext; try dsimp only
  repeat' (first
    | with_reducible assumption | with_reducible apply kept_modCan | with_reducible apply kept_abdEnd
    | with_reducible apply kept_ite | split)

theorem kept_abdStart {u : State} {n : CanCtl} {s : State} (h1 : Kept u s) :
    Kept u (abdStart n s) := by
  unfold abdStart; try dsimp only
  repeat' (first
    | with_reducible assumption | with_reducible apply kept_put | with_reducible apply kept_modCan
    | with_reducible apply kept_abdEnd | with_reducible apply kept_ite | split)

theorem kept_abdFrame {u : State} {n : CanCtl} {brs : Bool} {s : State} (h2 : Kept u s) :
    Kept u (abdFrame n brs s) := by
  unfold abdFrame; try dsimp only
  repeat' (first
    | with_reducible assumption | with_reducible apply kept_abdEnd | with_reducible apply kept_modCan
    | with_reducible apply kept_ite | split)

theorem kept_canStore {u : State} {n : CanCtl} {k : ℕ} {f : CanFrame} {s : State} (h3 : Kept u s) :
    Kept u (canStore n k f s) := by
  unfold canStore; try dsimp only
  repeat' (first
    | with_reducible assumption | with_reducible apply kept_setCanObj | with_reducible apply kept_when
    | with_reducible apply kept_count | with_reducible apply kept_put | with_reducible apply kept_canEvent
    | with_reducible apply kept_twinNotice | (intro; intros; try dsimp only))

theorem kept_canTake {u : State} {n : CanCtl} {f : CanFrame} {s : State} (h2 : Kept u s) :
    Kept u (canTake n f s) := by
  unfold canTake; try dsimp only
  repeat' (first
    | with_reducible assumption | with_reducible apply kept_abdFrame | with_reducible apply kept_modCan
    | with_reducible apply kept_canRecDown | with_reducible apply kept_canStore | with_reducible apply kept_ite
    | split)

theorem kept_canReceive {u : State} {n : CanCtl} {f : CanFrame} {s : State} (h2 : Kept u s) :
    Kept u (canReceive n f s) := by
  unfold canReceive; try dsimp only
  repeat' (first | with_reducible assumption | with_reducible apply kept_canTake | with_reducible apply kept_ite)

theorem kept_canSignals {u : State} {n : CanCtl} {tx : Bool} {s : State} (h2 : Kept u s) :
    Kept u (canSignals n tx s) := by
  unfold canSignals; try dsimp only
  repeat' (first | with_reducible assumption | with_reducible apply kept_modCan)

theorem kept_canOverload {u : State} {n : CanCtl} {tx : Bool} {s : State} (h2 : Kept u s) :
    Kept u (canOverload n tx s) := by
  unfold canOverload; try dsimp only
  repeat' (first | with_reducible assumption | with_reducible apply kept_modCan | with_reducible apply kept_ite)

theorem kept_canFlagError {u : State} {n : CanCtl} {lec : ℕ} {s : State} (h2 : Kept u s) :
    Kept u (canFlagError n lec s) := by
  unfold canFlagError; try dsimp only
  repeat' (first
    | with_reducible assumption | with_reducible apply kept_drew | with_reducible apply kept_put
    | with_reducible apply kept_canTecUp | with_reducible apply kept_canRecUp | with_reducible apply kept_ite)

theorem kept_canRxError {u : State} {n : CanCtl} {k : RxErrorKind} {s : State} (h2 : Kept u s) :
    Kept u (canRxError n k s) := by
  unfold canRxError; try dsimp only
  repeat' (first
    | with_reducible assumption | with_reducible apply kept_canOverload | with_reducible apply kept_canFlagError
    | with_reducible apply kept_put | with_reducible apply kept_canSignals | with_reducible apply kept_drew
    | with_reducible apply kept_abdNext | with_reducible apply kept_canRecUp | with_reducible apply kept_ite)

theorem kept_canTdc {u : State} {n : CanCtl} {delay : ℕ} {s : State} (h2 : Kept u s) :
    Kept u (canTdc n delay s) := by
  unfold canTdc; try dsimp only
  repeat' (first | with_reducible assumption | with_reducible apply kept_put | with_reducible apply kept_ite)

theorem kept_canArbitrate {u : State} {n : CanCtl} {win : Bool} {delay : ℕ} {s : State} (h3 : Kept u s) :
    Kept u (canArbitrate n win delay s) := by
  unfold canArbitrate; try dsimp only
  repeat' (first
    | with_reducible assumption | with_reducible apply kept_modCan | with_reducible apply kept_put
    | with_reducible apply kept_canTdc | with_reducible apply kept_ite | split)

theorem kept_canSent {u : State} {n : CanCtl} {s : State} (h1 : Kept u s) :
    Kept u (canSent n s) := by
  unfold canSent; try dsimp only
  repeat' (first
    | with_reducible assumption | with_reducible apply kept_put | with_reducible apply kept_canEvent
    | with_reducible apply kept_canTellTwin | with_reducible apply kept_modCan | with_reducible apply kept_canJudge
    | with_reducible apply kept_canRelease | with_reducible apply kept_canTake | with_reducible apply kept_foldl
    | with_reducible apply kept_ite | (intro; intros; try dsimp only) | split)

theorem kept_canNack {u : State} {n : CanCtl} {k : Fin 32} {s : State} (h2 : Kept u s) :
    Kept u (canNack n k s) := by
  unfold canNack; try dsimp only
  repeat' (first
    | with_reducible assumption | with_reducible apply kept_modCan | with_reducible apply kept_put
    | with_reducible apply kept_canTellTwin | with_reducible apply kept_when | with_reducible apply kept_canEvent
    | with_reducible apply kept_ite | (intro; intros; try dsimp only))

theorem kept_canTxError {u : State} {n : CanCtl} {k : TxErrorKind} {s : State} (h2 : Kept u s) :
    Kept u (canTxError n k s) := by
  unfold canTxError; try dsimp only
  repeat' (first
    | with_reducible assumption | with_reducible apply kept_canOverload | with_reducible apply kept_canFlagError
    | with_reducible apply kept_drew | with_reducible apply kept_put | with_reducible apply kept_canCancelled
    | with_reducible apply kept_canRelease | with_reducible apply kept_canSignals | with_reducible apply kept_canNack
    | with_reducible apply kept_canTecUp | with_reducible apply kept_ite | split)

theorem kept_canCancel {u : State} {n : CanCtl} {k : Fin 32} {s : State} (h2 : Kept u s) :
    Kept u (canCancel n k s) := by
  unfold canCancel; try dsimp only
  repeat' (first
    | with_reducible assumption | with_reducible apply kept_put | with_reducible apply kept_canCancelled
    | with_reducible apply kept_ite)

theorem kept_canRequest {u : State} {n : CanCtl} {k : Fin 32} {s : State} (h2 : Kept u s) :
    Kept u (canRequest n k s) := by
  unfold canRequest; try dsimp only
  repeat' (first
    | with_reducible assumption | with_reducible apply kept_when | with_reducible apply kept_put
    | with_reducible apply kept_modCont | (intro; intros; try dsimp only))

theorem kept_canSend {u : State} {n : CanCtl} {k : Fin 32} {id : ℕ} {brs : Bool} {data : List Byte} {s : State} (h5 : Kept u s) :
    Kept u (canSend n k id brs data s) := by
  unfold canSend; try dsimp only
  repeat' (first
    | with_reducible assumption | with_reducible apply kept_canRequest | with_reducible apply kept_setCanObj
    | with_reducible apply kept_ite)

theorem kept_canQuiet {u : State} {n : CanCtl} {s : State} (h1 : Kept u s) :
    Kept u (canQuiet n s) := by
  unfold canQuiet; try dsimp only
  repeat' (first | with_reducible assumption | with_reducible apply kept_modCan)

theorem kept_canRecover {u : State} {n : CanCtl} {s : State} (h1 : Kept u s) :
    Kept u (canRecover n s) := by
  unfold canRecover; try dsimp only
  repeat' (first | with_reducible assumption | with_reducible apply kept_put | with_reducible apply kept_ite)

theorem kept_canRecovered {u : State} {n : CanCtl} {s : State} (h1 : Kept u s) :
    Kept u (canRecovered n s) := by
  unfold canRecovered; try dsimp only
  repeat' (first
    | with_reducible assumption | with_reducible apply kept_put | with_reducible apply kept_canEvent
    | with_reducible apply kept_canState | with_reducible apply kept_canTellTwin | with_reducible apply kept_canQuiet
    | with_reducible apply kept_ite)

theorem kept_canIdle {u : State} {n : CanCtl} {s : State} (h1 : Kept u s) :
    Kept u (canIdle n s) := by
  unfold canIdle; try dsimp only
  repeat' (first | with_reducible assumption | with_reducible apply kept_canQuiet | with_reducible apply kept_modCan)

theorem kept_reserveObj {u : State} {n : CanCtl} {s : State} {k : ℕ} (h1 : Kept u s) :
    Kept u (reserveObj n s k) := by
  unfold reserveObj; try dsimp only
  repeat' (first | with_reducible assumption | with_reducible apply kept_setCanObj | split)

theorem kept_broadcastObj {u : State} {n : CanCtl} {s : State} (h1 : Kept u s) :
    Kept u (broadcastObj n s) := by
  unfold broadcastObj; try dsimp only
  repeat' (first | with_reducible assumption | with_reducible apply kept_setCanObj)

theorem kept_canReserve {u : State} {n : CanCtl} {s : State} (h1 : Kept u s) :
    Kept u (canReserve n s) := by
  unfold canReserve; try dsimp only
  repeat' (first
    | with_reducible assumption | with_reducible apply kept_reserveObj | with_reducible apply kept_broadcastObj
    | with_reducible apply kept_foldl | with_reducible apply kept_ite | (intro; intros; try dsimp only))

theorem kept_canEnable {u : State} {n : CanCtl} {en : Bool} {s : State} (h2 : Kept u s) :
    Kept u (canEnable n en s) := by
  unfold canEnable; try dsimp only
  repeat' (first
    | with_reducible assumption | with_reducible apply kept_canReserve | with_reducible apply kept_canQuiet
    | with_reducible apply kept_put | with_reducible apply kept_canRelease | with_reducible apply kept_modCan
    | with_reducible apply kept_followVotes | with_reducible apply kept_canCancelled
    | with_reducible apply kept_foldl | with_reducible apply kept_ite | (intro; intros; try dsimp only))

theorem kept_canWindow {u : State} {n : CanCtl} {off : ℕ} {v : Word} {s : State} (h3 : Kept u s) :
    Kept u (canWindow n off v s) := by
  unfold canWindow; try dsimp only
  repeat' (first
    | with_reducible assumption | with_reducible apply kept_put | with_reducible apply kept_setCanObj
    | with_reducible apply kept_ite | split)

theorem kept_execTwinVerdict {u : State} {k : TwinPair} {s : State} (h1 : Kept u s) :
    ∀ t, (execTwinVerdict k s) = .next t → Kept u t := by
  intro t ht; unfold execTwinVerdict at ht
  refine kept_clockedOut (by assumption) ?_ t ht; clear ht t; intro t ht; obtain rfl := Host.Outcome.next.inj ht; try dsimp only
  repeat' (first | with_reducible assumption | with_reducible apply kept_twinDecide)

theorem kept_execCanWindowWrite {u : State} {n : CanCtl} {off : BitVec 12} {v : Word} {s : State} (h3 : Kept u s) :
    ∀ t, (execCanWindowWrite n off v s) = .next t → Kept u t := by
  intro t ht; unfold execCanWindowWrite at ht
  refine kept_clockedOut (by assumption) ?_ t ht; clear ht t; intro t ht; obtain rfl := Host.Outcome.next.inj ht; try dsimp only
  repeat' (first | with_reducible assumption | with_reducible apply kept_canWindow)

theorem kept_execTransmitRequest {u : State} {n : CanCtl} {k : Fin 32} {s : State} (h2 : Kept u s) :
    ∀ t, (execTransmitRequest n k s) = .next t → Kept u t := by
  intro t ht; unfold execTransmitRequest at ht
  refine kept_clockedOut (by assumption) ?_ t ht; clear ht t; intro t ht; obtain rfl := Host.Outcome.next.inj ht; try dsimp only
  repeat' (first | with_reducible assumption | with_reducible apply kept_canRequest)

theorem kept_execArbitration {u : State} {n : CanCtl} {win : Bool} {delay : ℕ} {s : State} (h3 : Kept u s) :
    ∀ t, (execArbitration n win delay s) = .next t → Kept u t := by
  intro t ht; unfold execArbitration at ht
  refine kept_clockedOut (by assumption) ?_ t ht; clear ht t; intro t ht; obtain rfl := Host.Outcome.next.inj ht; try dsimp only
  repeat' (first | with_reducible assumption | with_reducible apply kept_canArbitrate)

theorem kept_execTransmitCancel {u : State} {n : CanCtl} {k : Fin 32} {s : State} (h2 : Kept u s) :
    ∀ t, (execTransmitCancel n k s) = .next t → Kept u t := by
  intro t ht; unfold execTransmitCancel at ht
  refine kept_clockedOut (by assumption) ?_ t ht; clear ht t; intro t ht; obtain rfl := Host.Outcome.next.inj ht; try dsimp only
  repeat' (first | with_reducible assumption | with_reducible apply kept_canCancel)

theorem kept_execBusOffRecover {u : State} {n : CanCtl} {s : State} (h1 : Kept u s) :
    ∀ t, (execBusOffRecover n s) = .next t → Kept u t := by
  intro t ht; unfold execBusOffRecover at ht
  refine kept_clockedOut (by assumption) ?_ t ht; clear ht t; intro t ht; obtain rfl := Host.Outcome.next.inj ht; try dsimp only
  repeat' (first | with_reducible assumption | with_reducible apply kept_canRecover)

theorem kept_execRecoveryDone {u : State} {n : CanCtl} {s : State} (h1 : Kept u s) :
    ∀ t, (execRecoveryDone n s) = .next t → Kept u t := by
  intro t ht; unfold execRecoveryDone at ht
  refine kept_clockedOut (by assumption) ?_ t ht; clear ht t; intro t ht; obtain rfl := Host.Outcome.next.inj ht; try dsimp only
  repeat' (first | with_reducible assumption | with_reducible apply kept_canRecovered)

theorem kept_execBusOffRecoverTimer {u : State} {n : CanCtl} {s : State} (h1 : Kept u s) :
    ∀ t, (execBusOffRecoverTimer n s) = .next t → Kept u t := by
  intro t ht; unfold execBusOffRecoverTimer at ht
  refine kept_clockedOut (by assumption) ?_ t ht; clear ht t; intro t ht; obtain rfl := Host.Outcome.next.inj ht; try dsimp only
  repeat' (first | with_reducible assumption | with_reducible apply kept_canRecover | with_reducible apply kept_ite)

theorem kept_execOpmodeWrite {u : State} {n : CanCtl} {m : BitVec 2} {s : State} (h2 : Kept u s) :
    ∀ t, (execOpmodeWrite n m s) = .next t → Kept u t := by
  intro t ht; unfold execOpmodeWrite at ht
  refine kept_clockedOut (by assumption) ?_ t ht; clear ht t; intro t ht; obtain rfl := Host.Outcome.next.inj ht; try dsimp only
  repeat' (first | with_reducible assumption | with_reducible apply kept_put)

theorem kept_execBusIdle {u : State} {n : CanCtl} {s : State} (h1 : Kept u s) :
    ∀ t, (execBusIdle n s) = .next t → Kept u t := by
  intro t ht; unfold execBusIdle at ht
  refine kept_clockedOut (by assumption) ?_ t ht; clear ht t; intro t ht; obtain rfl := Host.Outcome.next.inj ht; try dsimp only
  repeat' (first | with_reducible assumption | with_reducible apply kept_canIdle)

theorem kept_execCanEnableWrite {u : State} {n : CanCtl} {en : Bool} {s : State} (h2 : Kept u s) :
    ∀ t, (execCanEnableWrite n en s) = .next t → Kept u t := by
  intro t ht; unfold execCanEnableWrite at ht
  refine kept_clockedOut (by assumption) ?_ t ht; clear ht t; intro t ht; obtain rfl := Host.Outcome.next.inj ht; try dsimp only
  repeat' (first | with_reducible assumption | with_reducible apply kept_canEnable)

theorem kept_execBitrateDetectStart {u : State} {n : CanCtl} {s : State} (h1 : Kept u s) :
    ∀ t, (execBitrateDetectStart n s) = .next t → Kept u t := by
  intro t ht; unfold execBitrateDetectStart at ht
  refine kept_clockedOut (by assumption) ?_ t ht; clear ht t; intro t ht; obtain rfl := Host.Outcome.next.inj ht; try dsimp only
  repeat' (first | with_reducible assumption | with_reducible apply kept_abdStart)

theorem kept_execAbdCandidateTimeout {u : State} {n : CanCtl} {s : State} (h1 : Kept u s) :
    ∀ t, (execAbdCandidateTimeout n s) = .next t → Kept u t := by
  intro t ht; unfold execAbdCandidateTimeout at ht
  refine kept_clockedOut (by assumption) ?_ t ht; clear ht t; intro t ht; obtain rfl := Host.Outcome.next.inj ht; try dsimp only
  repeat' (first | with_reducible assumption | with_reducible apply kept_abdNext)

theorem kept_execCanReceiveError {u : State} {n : CanCtl} {k : RxErrorKind} {s : State} (h2 : Kept u s) :
    ∀ t, (execCanReceiveError n k s) = .next t → Kept u t := by
  intro t ht; unfold execCanReceiveError at ht
  refine kept_clockedOut (by assumption) ?_ t ht; clear ht t; intro t ht; obtain rfl := Host.Outcome.next.inj ht; try dsimp only
  repeat' (first | with_reducible assumption | with_reducible apply kept_canRxError)

theorem kept_openNow {u : State} {b : Bridge} {p : Fin 4} {s : State} (h2 : Kept u s) :
    Kept u (openNow b p s) := by
  unfold openNow; try dsimp only
  repeat' (first
    | with_reducible assumption | with_reducible apply kept_modChan | with_reducible apply kept_modBridge)

theorem kept_calFailed {u : State} {b : Bridge} {s : State} (h1 : Kept u s) :
    Kept u (calFailed b s) := by
  unfold calFailed; try dsimp only
  repeat' (first
    | with_reducible assumption | with_reducible apply kept_putBit | with_reducible apply kept_modBkg
    | with_reducible apply kept_sat)

theorem kept_calAbort {u : State} {b : Bridge} {s : State} (h1 : Kept u s) :
    Kept u (calAbort b s) := by
  unfold calAbort; try dsimp only
  repeat' (first
    | with_reducible assumption | with_reducible apply kept_calFailed | with_reducible apply kept_putBit
    | with_reducible apply kept_ite)

theorem kept_windowAction {u : State} {b : Bridge} {p : Fin 4} {s : State} (h2 : Kept u s) :
    Kept u (windowAction b p s) := by
  unfold windowAction; try dsimp only
  repeat' (first
    | with_reducible assumption | with_reducible apply kept_calAbort | with_reducible apply kept_openNow
    | with_reducible apply kept_modBridge | with_reducible apply kept_countBit | with_reducible apply kept_putBit
    | with_reducible apply kept_ite | split)

theorem kept_countSat {u : State} {c : IsnsCh} {s : State} (h1 : Kept u s) :
    Kept u (countSat c s) := by
  unfold countSat; try dsimp only
  repeat' (first | with_reducible assumption | with_reducible apply kept_count | with_reducible apply kept_putBit)

theorem kept_countClip {u : State} {c : IsnsCh} {bits : List Bool} {s : State} (h2 : Kept u s) :
    Kept u (countClip c bits s) := by
  unfold countClip; try dsimp only
  repeat' (first
    | with_reducible assumption | with_reducible apply kept_modChan | with_reducible apply kept_putBit
    | with_reducible apply kept_countSat | with_reducible apply kept_ite)

theorem kept_vDecimate {u : State} {c : IsnsCh} {x : ℤ} {den : ℕ} {old : Bool} {s : State} (h4 : Kept u s) :
    Kept u (vDecimate c x den old s) := by
  unfold vDecimate; try dsimp only
  repeat' (first | with_reducible assumption | with_reducible apply kept_modChan | with_reducible apply kept_ite)

theorem kept_channelResult {u : State} {c : IsnsCh} {n : ℕ} {bits : List Bool} {inst : ℕ} {s : State} (h4 : Kept u s) :
    Kept u (channelResult c n bits inst s) := by
  unfold channelResult; try dsimp only
  repeat' (first
    | with_reducible assumption | with_reducible apply kept_putS | with_reducible apply kept_drew
    | with_reducible apply kept_when | with_reducible apply kept_countClip | with_reducible apply kept_modChan
    | with_reducible apply kept_vDecimate | with_reducible apply kept_put | with_reducible apply kept_count
    | with_reducible apply kept_putBit | with_reducible apply kept_ite | (intro; intros; try dsimp only))

theorem kept_phase3 {u : State} {b : Bridge} {s : State} (h1 : Kept u s) :
    Kept u (phase3 b s) := by
  unfold phase3; try dsimp only
  repeat' (first
    | with_reducible assumption | with_reducible apply kept_when | with_reducible apply kept_putS
    | with_reducible apply kept_put | (intro; intros; try dsimp only))

theorem kept_windowTrigger {u : State} {b : Bridge} {p : Fin 4} {s : State} (h2 : Kept u s) :
    Kept u (windowTrigger b p s) := by
  unfold windowTrigger; try dsimp only
  repeat' (first
    | with_reducible assumption | with_reducible apply kept_when | with_reducible apply kept_countBit
    | with_reducible apply kept_put | with_reducible apply kept_triggerTo | with_reducible apply kept_ite
    | (intro; intros; try dsimp only))

theorem kept_signalInvalid {u : State} {b : Bridge} {s : State} (h1 : Kept u s) :
    Kept u (signalInvalid b s) := by
  unfold signalInvalid; try dsimp only
  repeat' (first
    | with_reducible assumption | with_reducible apply kept_mcCurrentInvalid | with_reducible apply kept_ite)

theorem kept_phasesKept {u : State} {b : Bridge} {p : PhaseSet} {s : State} (h2 : Kept u s) :
    Kept u (phasesKept b p s) := by
  unfold phasesKept; try dsimp only
  repeat' (first | with_reducible assumption | with_reducible apply kept_modBkg)

theorem kept_windowDone {u : State} {b : Bridge} {bits1 : List Bool} {bits2 : List Bool} {s : State} (h3 : Kept u s) :
    Kept u (windowDone b bits1 bits2 s) := by
  unfold windowDone; try dsimp only
  repeat' (first
    | with_reducible assumption | with_reducible apply kept_phase3 | with_reducible apply kept_channelResult
    | with_reducible apply kept_inc | with_reducible apply kept_when | with_reducible apply kept_clampBegin
    | with_reducible apply kept_windowTrigger | with_reducible apply kept_currentEstimate
    | with_reducible apply kept_signalInvalid | with_reducible apply kept_phasesKept
    | with_reducible apply kept_modBridge | with_reducible apply kept_openNow | (intro; intros; try dsimp only)
    | split)

theorem kept_runSeen {u : State} {c : IsnsCh} {s : State} (h1 : Kept u s) :
    Kept u (runSeen c s) := by
  unfold runSeen; try dsimp only
  repeat' (first | with_reducible assumption | with_reducible apply kept_modChan | with_reducible apply kept_countSat)

theorem kept_channelInvalid {u : State} {c : IsnsCh} {s : State} (h1 : Kept u s) :
    Kept u (channelInvalid c s) := by
  unfold channelInvalid; try dsimp only
  repeat' (first
    | with_reducible assumption | with_reducible apply kept_mcCurrentInvalid | with_reducible apply kept_putBit)

theorem kept_channelStuck {u : State} {c : IsnsCh} {s : State} (h1 : Kept u s) :
    Kept u (channelStuck c s) := by
  unfold channelStuck; try dsimp only
  repeat' (first
    | with_reducible assumption | with_reducible apply kept_channelInvalid | with_reducible apply kept_modChan
    | with_reducible apply kept_putBit | with_reducible apply kept_ite)

theorem kept_windowTimeout {u : State} {b : Bridge} {s : State} (h1 : Kept u s) :
    Kept u (windowTimeout b s) := by
  unfold windowTimeout; try dsimp only
  repeat' (first
    | with_reducible assumption | with_reducible apply kept_channelInvalid | with_reducible apply kept_modBridge
    | with_reducible apply kept_putBit | with_reducible apply kept_ite)

theorem kept_revalChannels {u : State} {mask : ℕ} {s : State} (h1 : Kept u s) :
    Kept u (revalChannels mask s) := by
  unfold revalChannels; try dsimp only
  repeat' (first
    | with_reducible assumption | with_reducible apply kept_modChan | with_reducible apply kept_foldl
    | with_reducible apply kept_ite | (intro; intros; try dsimp only))

theorem kept_meanEnd {u : State} {s : State} (h0 : Kept u s) :
    Kept u (meanEnd s) := by
  unfold meanEnd; try dsimp only
  repeat' (first
    | with_reducible assumption | with_reducible apply kept_modChan | with_reducible apply kept_modDriver
    | with_reducible apply kept_foldl | (intro; intros; try dsimp only))

theorem kept_publishChannel {u : State} {s : State} {c : IsnsCh} (h0 : Kept u s) :
    Kept u (publishChannel s c) := by
  unfold publishChannel; try dsimp only
  repeat' (first
    | with_reducible assumption | with_reducible apply kept_putBit | with_reducible apply kept_drew
    | with_reducible apply kept_putS | with_reducible apply kept_modChan | with_reducible apply kept_ite)

theorem kept_meanPublished {u : State} {s : State} (h0 : Kept u s) :
    Kept u (meanPublished s) := by
  unfold meanPublished; try dsimp only
  repeat' (first
    | with_reducible assumption | with_reducible apply kept_raise | with_reducible apply kept_inc
    | with_reducible apply kept_publishChannel | with_reducible apply kept_foldl | (intro; intros; try dsimp only))

theorem kept_compareChannel {u : State} {s : State} {c : IsnsCh} {m : ℤ} (h0 : Kept u s) :
    Kept u (compareChannel s c m) := by
  unfold compareChannel; try dsimp only
  repeat' (first
    | with_reducible assumption | with_reducible apply kept_modChan | with_reducible apply kept_setCut
    | with_reducible apply kept_ite | split)

theorem kept_compareCurrents {u : State} {m0 : ℤ} {m1 : ℤ} {m2 : ℤ} {m3 : ℤ} {s : State} (h4 : Kept u s) :
    Kept u (compareCurrents m0 m1 m2 m3 s) := by
  unfold compareCurrents; try dsimp only
  repeat' (first | with_reducible assumption | with_reducible apply kept_compareChannel)

theorem kept_compareVmot {u : State} {vMean : ℕ} {s : State} (h1 : Kept u s) :
    Kept u (compareVmot vMean s) := by
  unfold compareVmot; try dsimp only
  repeat' (first
    | with_reducible assumption | with_reducible apply kept_modDriver | with_reducible apply kept_setCut
    | with_reducible apply kept_put | with_reducible apply kept_ite)

theorem kept_railCheck {u : State} {vio : ℕ} {vana : ℕ} {vrefsc : ℕ} {vrefv : ℕ} {s : State} (h4 : Kept u s) :
    Kept u (railCheck vio vana vrefsc vrefv s) := by
  unfold railCheck; try dsimp only
  repeat' (first
    | with_reducible assumption | with_reducible apply kept_modSafe | with_reducible apply kept_setCut
    | with_reducible apply kept_ite)

theorem kept_trimChannel {u : State} {c : IsnsCh} {m : TrimReading} {s : State} (h2 : Kept u s) :
    Kept u (trimChannel c m s) := by
  unfold trimChannel; try dsimp only
  repeat' (first
    | with_reducible assumption | with_reducible apply kept_putBit | with_reducible apply kept_drew
    | with_reducible apply kept_putS | with_reducible apply kept_ite)

theorem kept_calRequest {u : State} {b : Bridge} {s : State} (h1 : Kept u s) :
    Kept u (calRequest b s) := by
  unfold calRequest; try dsimp only
  repeat' (first
    | with_reducible assumption | with_reducible apply kept_putBit | with_reducible apply kept_calFailed
    | with_reducible apply kept_ite)

theorem kept_trimWatch {u : State} {b : Bridge} {s : State} (h1 : Kept u s) :
    Kept u (trimWatch b s) := by
  unfold trimWatch; try dsimp only
  repeat' (first | with_reducible assumption | with_reducible apply kept_modBkg | with_reducible apply kept_ite)

theorem kept_calDone {u : State} {b : Bridge} {m1 : TrimReading} {m2 : TrimReading} {s : State} (h3 : Kept u s) :
    Kept u (calDone b m1 m2 s) := by
  unfold calDone; try dsimp only
  repeat' (first
    | with_reducible assumption | with_reducible apply kept_trimChannel | with_reducible apply kept_putBit
    | with_reducible apply kept_trimWatch | with_reducible apply kept_modBkg | with_reducible apply kept_inc
    | with_reducible apply kept_ite)

theorem kept_execWindowOpen {u : State} {b : Bridge} {p : Fin 4} {s : State} (h2 : Kept u s) :
    ∀ t, (execWindowOpen b p s) = .next t → Kept u t := by
  intro t ht; unfold execWindowOpen at ht
  refine kept_clockedOut (by assumption) ?_ t ht; clear ht t; intro t ht; obtain rfl := Host.Outcome.next.inj ht; try dsimp only
  repeat' (first | with_reducible assumption | with_reducible apply kept_windowAction)

theorem kept_execWindowEnd {u : State} {b : Bridge} {bits1 : List Bool} {bits2 : List Bool} {s : State} (h3 : Kept u s) :
    ∀ t, (execWindowEnd b bits1 bits2 s) = .next t → Kept u t := by
  intro t ht; unfold execWindowEnd at ht
  refine kept_clockedOut (by assumption) ?_ t ht; clear ht t; intro t ht; obtain rfl := Host.Outcome.next.inj ht; try dsimp only
  repeat' (first | with_reducible assumption | with_reducible apply kept_windowDone)

theorem kept_execBitstreamSaturation {u : State} {c : IsnsCh} {s : State} (h1 : Kept u s) :
    ∀ t, (execBitstreamSaturation c s) = .next t → Kept u t := by
  intro t ht; unfold execBitstreamSaturation at ht
  refine kept_clockedOut (by assumption) ?_ t ht; clear ht t; intro t ht; obtain rfl := Host.Outcome.next.inj ht; try dsimp only
  repeat' (first | with_reducible assumption | with_reducible apply kept_runSeen)

theorem kept_execBitstreamStuck {u : State} {c : IsnsCh} {s : State} (h1 : Kept u s) :
    ∀ t, (execBitstreamStuck c s) = .next t → Kept u t := by
  intro t ht; unfold execBitstreamStuck at ht
  refine kept_clockedOut (by assumption) ?_ t ht; clear ht t; intro t ht; obtain rfl := Host.Outcome.next.inj ht; try dsimp only
  repeat' (first | with_reducible assumption | with_reducible apply kept_channelStuck)

theorem kept_execSampleTimeout {u : State} {b : Bridge} {s : State} (h1 : Kept u s) :
    ∀ t, (execSampleTimeout b s) = .next t → Kept u t := by
  intro t ht; unfold execSampleTimeout at ht
  refine kept_clockedOut (by assumption) ?_ t ht; clear ht t; intro t ht; obtain rfl := Host.Outcome.next.inj ht; try dsimp only
  repeat' (first | with_reducible assumption | with_reducible apply kept_windowTimeout)

theorem kept_execIsnsReval {u : State} {mask : BitVec 4} {s : State} (h1 : Kept u s) :
    ∀ t, (execIsnsReval mask s) = .next t → Kept u t := by
  intro t ht; unfold execIsnsReval at ht
  refine kept_clockedOut (by assumption) ?_ t ht; clear ht t; intro t ht; obtain rfl := Host.Outcome.next.inj ht; try dsimp only
  repeat' (first | with_reducible assumption | with_reducible apply kept_revalChannels)

theorem kept_execMeanWindowEnd {u : State} {s : State} (h0 : Kept u s) :
    ∀ t, (execMeanWindowEnd s) = .next t → Kept u t := by
  intro t ht; unfold execMeanWindowEnd at ht
  refine kept_clockedOut (by assumption) ?_ t ht; clear ht t; intro t ht; obtain rfl := Host.Outcome.next.inj ht; try dsimp only
  repeat' (first | with_reducible assumption | with_reducible apply kept_meanEnd | with_reducible apply kept_ite)

theorem kept_execMeanPublish {u : State} {s : State} (h0 : Kept u s) :
    ∀ t, (execMeanPublish s) = .next t → Kept u t := by
  intro t ht; unfold execMeanPublish at ht
  refine kept_clockedOut (by assumption) ?_ t ht; clear ht t; intro t ht; obtain rfl := Host.Outcome.next.inj ht; try dsimp only
  repeat' (first | with_reducible assumption | with_reducible apply kept_meanPublished)

theorem kept_execVCurrentCompare {u : State} {m0 : ℤ} {m1 : ℤ} {m2 : ℤ} {m3 : ℤ} {s : State} (h4 : Kept u s) :
    ∀ t, (execVCurrentCompare m0 m1 m2 m3 s) = .next t → Kept u t := by
  intro t ht; unfold execVCurrentCompare at ht
  refine kept_byV (by assumption) ?_ t ht; clear ht t; intro t ht; obtain rfl := Host.Outcome.next.inj ht; try dsimp only
  repeat' (first | with_reducible assumption | with_reducible apply kept_compareCurrents)

theorem kept_execVVmotCompare {u : State} {vMean : ℕ} {s : State} (h1 : Kept u s) :
    ∀ t, (execVVmotCompare vMean s) = .next t → Kept u t := by
  intro t ht; unfold execVVmotCompare at ht
  refine kept_byV (by assumption) ?_ t ht; clear ht t; intro t ht; obtain rfl := Host.Outcome.next.inj ht; try dsimp only
  repeat' (first | with_reducible assumption | with_reducible apply kept_compareVmot)

theorem kept_execVRailCheck {u : State} {vio : ℕ} {vana : ℕ} {vrefsc : ℕ} {vrefv : ℕ} {s : State} (h4 : Kept u s) :
    ∀ t, (execVRailCheck vio vana vrefsc vrefv s) = .next t → Kept u t := by
  intro t ht; unfold execVRailCheck at ht
  refine kept_byV (by assumption) ?_ t ht; clear ht t; intro t ht; obtain rfl := Host.Outcome.next.inj ht; try dsimp only
  repeat' (first | with_reducible assumption | with_reducible apply kept_railCheck)

theorem kept_execCalibrationRequest {u : State} {b : Bridge} {s : State} (h1 : Kept u s) :
    ∀ t, (execCalibrationRequest b s) = .next t → Kept u t := by
  intro t ht; unfold execCalibrationRequest at ht
  refine kept_clockedOut (by assumption) ?_ t ht; clear ht t; intro t ht; obtain rfl := Host.Outcome.next.inj ht; try dsimp only
  repeat' (first | with_reducible assumption | with_reducible apply kept_calRequest)

theorem kept_execCalibrationDone {u : State} {b : Bridge} {m1 : TrimReading} {m2 : TrimReading} {s : State} (h3 : Kept u s) :
    ∀ t, (execCalibrationDone b m1 m2 s) = .next t → Kept u t := by
  intro t ht; unfold execCalibrationDone at ht
  refine kept_clockedOut (by assumption) ?_ t ht; clear ht t; intro t ht; obtain rfl := Host.Outcome.next.inj ht; try dsimp only
  repeat' (first | with_reducible assumption | with_reducible apply kept_calDone)

theorem kept_execCalibrationAbort {u : State} {b : Bridge} {byWindow : Option (Fin 4)} {s : State} (h2 : Kept u s) :
    ∀ t, (execCalibrationAbort b byWindow s) = .next t → Kept u t := by
  intro t ht; unfold execCalibrationAbort at ht
  refine kept_clockedOut (by assumption) ?_ t ht; clear ht t; intro t ht; obtain rfl := Host.Outcome.next.inj ht; try dsimp only
  repeat' (first
    | with_reducible assumption | with_reducible apply kept_windowAction | with_reducible apply kept_calAbort | split)

theorem kept_accErr {u s1 : State} {a0 : Nat} (h1 : Kept u s1) : Kept u (accErr a0 s1) := by
  rw [accErr]
  generalize accErrFld a0 = o
  cases o with
  | none => exact h1
  | some f => exact kept_put h1

theorem kept_regStore {u s2 : State} {a0 : Nat} {a1 : Word} (h2 : Kept u s2) :
    ∀ t, regStore a0 a1 s2 = some t → Kept u t := by
  intro t h
  unfold regStore at h
  split at h
  · cases h
  · dsimp only at h
    split at h
    · cases h
    · obtain rfl := Option.some.inj h
      exact kept_ite (kept_accErr (kept_wr h2)) (kept_wr h2)

theorem kept_regWriteWith {u : State} {a0 : Nat} {a1 : Word} {a2 : State → State} {s3 : State}
    (h2 : ∀ t0, Kept u t0 → Kept u (a2 t0)) (h3 : Kept u s3) : Kept u (regWriteWith a0 a1 a2 s3) := by
  unfold regWriteWith
  split
  · next e => exact h2 _ (kept_regStore h3 _ e)
  · exact kept_accErr h3

theorem kept_angCtrlWrite {u : State} {b : Bridge} {v : Word} {s : State} (h2 : Kept u s) :
    Kept u (angCtrlWrite b v s) := by
  unfold angCtrlWrite; try dsimp only
  repeat' (first
    | with_reducible assumption | with_reducible apply kept_regWriteWith | with_reducible apply kept_setSource
    | with_reducible apply kept_setStill | with_reducible apply kept_judgeSet | with_reducible apply kept_angEnable
    | with_reducible apply kept_followGates | with_reducible apply kept_ite | (intro; intros; try dsimp only))

theorem kept_cuePosWrite {u : State} {b : Bridge} {n : Cue} {v : Word} {s : State} (h3 : Kept u s) :
    Kept u (cuePosWrite b n v s) := by
  unfold cuePosWrite; try dsimp only
  repeat' (first
    | with_reducible assumption | with_reducible apply kept_regWriteWith | (intro; intros; try dsimp only)
    | with_reducible apply kept_id)

theorem kept_cueCfgWrite {u : State} {b : Bridge} {n : Cue} {v : Word} {s : State} (h3 : Kept u s) :
    Kept u (cueCfgWrite b n v s) := by
  unfold cueCfgWrite; try dsimp only
  repeat' (first
    | with_reducible assumption | with_reducible apply kept_regWriteWith | with_reducible apply kept_armCue
    | with_reducible apply kept_modAng | (intro; intros; try dsimp only))

theorem kept_takeSample {u : State} {b : Bridge} {s : State} (h1 : Kept u s) :
    Kept u (takeSample b s) := by
  unfold takeSample; try dsimp only
  repeat' (first
    | with_reducible assumption | with_reducible apply kept_modAng | with_reducible apply kept_reload
    | with_reducible apply kept_ite | split)

theorem kept_stillTimeout {u : State} {b : Bridge} {s : State} (h1 : Kept u s) :
    Kept u (stillTimeout b s) := by
  unfold stillTimeout; try dsimp only
  repeat' (first | with_reducible assumption | with_reducible apply kept_setStill | with_reducible apply kept_ite)

theorem kept_cueFallback {u : State} {b : Bridge} {n : Cue} {s : State} (h2 : Kept u s) :
    Kept u (cueFallback b n s) := by
  unfold cueFallback; try dsimp only
  repeat' (first | with_reducible assumption | with_reducible apply kept_fireCue | with_reducible apply kept_ite)

theorem kept_sectorCue {u : State} {b : Bridge} {dir : ℤ} {s : State} (h2 : Kept u s) :
    Kept u (sectorCue b dir s) := by
  unfold sectorCue; try dsimp only
  repeat' (first
    | with_reducible assumption | with_reducible apply kept_enterMode | with_reducible apply kept_lossOfSync
    | with_reducible apply kept_modMc | with_reducible apply kept_advanceSector | with_reducible apply kept_ite)

theorem kept_cueTrigger {u : State} {b : Bridge} {a1 : CueHit} {s : State} (h2 : Kept u s) :
    Kept u (cueTrigger b a1 s) := by
  unfold cueTrigger; try dsimp only
  repeat' (first
    | with_reducible assumption | with_reducible apply kept_when | with_reducible apply kept_count
    | with_reducible apply kept_put | with_reducible apply kept_triggerTo | (intro; intros; try dsimp only))

theorem kept_cueAction {u : State} {b : Bridge} {a1 : CueHit} {s : State} (h2 : Kept u s) :
    Kept u (cueAction b a1 s) := by
  unfold cueAction; try dsimp only
  repeat' (first
    | with_reducible assumption | with_reducible apply kept_windowAction | with_reducible apply kept_sectorCue
    | with_reducible apply kept_lineAct | with_reducible apply kept_cueTrigger | with_reducible apply kept_put
    | split)

theorem kept_cueDispatch {u : State} {b : Bridge} {s : State} (h1 : Kept u s) :
    Kept u (cueDispatch b s) := by
  unfold cueDispatch; try dsimp only
  repeat' (first
    | with_reducible assumption | with_reducible apply kept_cueAction | with_reducible apply kept_modAng | split)

theorem kept_mcCtrlWrite {u : State} {b : Bridge} {v : Word} {s : State} (h2 : Kept u s) :
    Kept u (mcCtrlWrite b v s) := by
  unfold mcCtrlWrite; try dsimp only
  repeat' (first
    | with_reducible assumption | with_reducible apply kept_regWriteWith | with_reducible apply kept_modeReqOff
    | with_reducible apply kept_modeReqReturn | with_reducible apply kept_mcDisable
    | with_reducible apply kept_startRequest | with_reducible apply kept_ite | (intro; intros; try dsimp only))

theorem kept_dutyWrite {u : State} {b : Bridge} {v : Word} {s : State} (h2 : Kept u s) :
    Kept u (dutyWrite b v s) := by
  unfold dutyWrite; try dsimp only
  repeat' (first
    | with_reducible assumption | with_reducible apply kept_regWriteWith | with_reducible apply kept_modMc
    | with_reducible apply kept_ite | (intro; intros; try dsimp only))

theorem kept_ssdutyWrite {u : State} {b : Bridge} {v : Word} {s : State} (h2 : Kept u s) :
    Kept u (ssdutyWrite b v s) := by
  unfold ssdutyWrite; try dsimp only
  repeat' (first
    | with_reducible assumption | with_reducible apply kept_regWriteWith | with_reducible apply kept_modMc
    | with_reducible apply kept_ite | (intro; intros; try dsimp only))

theorem kept_comparatorReport {u : State} {b : Bridge} {pcomp : ℕ} {lcode : ℕ} {s : State} (h3 : Kept u s) :
    Kept u (comparatorReport b pcomp lcode s) := by
  unfold comparatorReport; try dsimp only
  repeat' (first
    | with_reducible assumption | with_reducible apply kept_put | with_reducible apply kept_zcReport
    | with_reducible apply kept_lineEstimate | with_reducible apply kept_ite)

theorem kept_sectorMiss {u : State} {b : Bridge} {s : State} (h1 : Kept u s) :
    Kept u (sectorMiss b s) := by
  unfold sectorMiss; try dsimp only
  repeat' (first
    | with_reducible assumption | with_reducible apply kept_modMc | with_reducible apply kept_countBit
    | with_reducible apply kept_lossOfSync | with_reducible apply kept_ite)

theorem kept_dLanded {u : State} {v : Q20} {s : State} (h1 : Kept u s) :
    Kept u (dLanded v s) := by
  unfold dLanded; try dsimp only
  repeat' (first
    | with_reducible assumption | with_reducible apply kept_modCont | with_reducible apply kept_put
    | with_reducible apply kept_ite)

theorem kept_execAngleReload {u : State} {b : Bridge} {s : State} (h1 : Kept u s) :
    ∀ t, (execAngleReload b s) = .next t → Kept u t := by
  intro t ht; unfold execAngleReload at ht
  refine kept_clockedOut (by assumption) ?_ t ht; clear ht t; intro t ht; obtain rfl := Host.Outcome.next.inj ht; try dsimp only
  repeat' (first | with_reducible assumption | with_reducible apply kept_takeSample)

theorem kept_execStillTimeout {u : State} {b : Bridge} {s : State} (h1 : Kept u s) :
    ∀ t, (execStillTimeout b s) = .next t → Kept u t := by
  intro t ht; unfold execStillTimeout at ht
  refine kept_clockedOut (by assumption) ?_ t ht; clear ht t; intro t ht; obtain rfl := Host.Outcome.next.inj ht; try dsimp only
  repeat' (first | with_reducible assumption | with_reducible apply kept_stillTimeout)

theorem kept_execAngSrcWrite {u : State} {b : Bridge} {src : BitVec 4} {s : State} (h2 : Kept u s) :
    ∀ t, (execAngSrcWrite b src s) = .next t → Kept u t := by
  intro t ht; unfold execAngSrcWrite at ht
  refine kept_clockedOut (by assumption) ?_ t ht; clear ht t; intro t ht; obtain rfl := Host.Outcome.next.inj ht; try dsimp only
  repeat' (first | with_reducible assumption | with_reducible apply kept_angCtrlWrite)

theorem kept_execAngEnable {u : State} {b : Bridge} {s : State} (h1 : Kept u s) :
    ∀ t, (execAngEnable b s) = .next t → Kept u t := by
  intro t ht; unfold execAngEnable at ht
  refine kept_clockedOut (by assumption) ?_ t ht; clear ht t; intro t ht; obtain rfl := Host.Outcome.next.inj ht; try dsimp only
  repeat' (first | with_reducible assumption | with_reducible apply kept_angCtrlWrite)

theorem kept_execCueFallbackFire {u : State} {b : Bridge} {n : Cue} {s : State} (h2 : Kept u s) :
    ∀ t, (execCueFallbackFire b n s) = .next t → Kept u t := by
  intro t ht; unfold execCueFallbackFire at ht
  refine kept_clockedOut (by assumption) ?_ t ht; clear ht t; intro t ht; obtain rfl := Host.Outcome.next.inj ht; try dsimp only
  repeat' (first | with_reducible assumption | with_reducible apply kept_cueFallback)

theorem kept_execCueDispatch {u : State} {b : Bridge} {s : State} (h1 : Kept u s) :
    ∀ t, (execCueDispatch b s) = .next t → Kept u t := by
  intro t ht; unfold execCueDispatch at ht
  refine kept_clockedOut (by assumption) ?_ t ht; clear ht t; intro t ht; obtain rfl := Host.Outcome.next.inj ht; try dsimp only
  repeat' (first | with_reducible assumption | with_reducible apply kept_cueDispatch)

theorem kept_execCueLinePulseEnd {u : State} {b : Bridge} {line : Fin 4} {s : State} (h2 : Kept u s) :
    ∀ t, (execCueLinePulseEnd b line s) = .next t → Kept u t := by
  intro t ht; unfold execCueLinePulseEnd at ht
  refine kept_clockedOut (by assumption) ?_ t ht; clear ht t; intro t ht; obtain rfl := Host.Outcome.next.inj ht; try dsimp only
  repeat' (first | with_reducible assumption | with_reducible apply kept_linePulseEnd)

theorem kept_execCuePosWrite {u : State} {b : Bridge} {n : Cue} {v : Word} {s : State} (h3 : Kept u s) :
    ∀ t, (execCuePosWrite b n v s) = .next t → Kept u t := by
  intro t ht; unfold execCuePosWrite at ht
  refine kept_clockedOut (by assumption) ?_ t ht; clear ht t; intro t ht; obtain rfl := Host.Outcome.next.inj ht; try dsimp only
  repeat' (first | with_reducible assumption | with_reducible apply kept_cuePosWrite)

theorem kept_execCueCfgWrite {u : State} {b : Bridge} {n : Cue} {v : Word} {s : State} (h3 : Kept u s) :
    ∀ t, (execCueCfgWrite b n v s) = .next t → Kept u t := by
  intro t ht; unfold execCueCfgWrite at ht
  refine kept_clockedOut (by assumption) ?_ t ht; clear ht t; intro t ht; obtain rfl := Host.Outcome.next.inj ht; try dsimp only
  repeat' (first | with_reducible assumption | with_reducible apply kept_cueCfgWrite)

theorem kept_execCarrierValley {u : State} {b : Bridge} {ref : Bool} {s : State} (h2 : Kept u s) :
    ∀ t, (execCarrierValley b ref s) = .next t → Kept u t := by
  intro t ht; unfold execCarrierValley at ht
  refine kept_clockedOut (by assumption) ?_ t ht; clear ht t; intro t ht; obtain rfl := Host.Outcome.next.inj ht; try dsimp only
  repeat' (first
    | with_reducible assumption | with_reducible apply kept_refValley | with_reducible apply kept_ownValley
    | with_reducible apply kept_ite)

theorem kept_execCarrierPeak {u : State} {b : Bridge} {ref : Bool} {s : State} (h2 : Kept u s) :
    ∀ t, (execCarrierPeak b ref s) = .next t → Kept u t := by
  intro t ht; unfold execCarrierPeak at ht
  refine kept_clockedOut (by assumption) ?_ t ht; clear ht t; intro t ht; obtain rfl := Host.Outcome.next.inj ht; try dsimp only
  repeat' (first | with_reducible assumption | with_reducible apply kept_carrierPeak | with_reducible apply kept_ite)

theorem kept_execDCapture {u : State} {v : Q20} {s : State} (h1 : Kept u s) :
    ∀ t, (execDCapture v s) = .next t → Kept u t := by
  intro t ht; unfold execDCapture at ht
  refine kept_clockedOut (by assumption) ?_ t ht; clear ht t; intro t ht; obtain rfl := Host.Outcome.next.inj ht; try dsimp only
  repeat' (first | with_reducible assumption | with_reducible apply kept_dLanded | with_reducible apply kept_setMem20)

theorem kept_execDutyCommit {u : State} {b : Bridge} {v : Word} {s : State} (h2 : Kept u s) :
    ∀ t, (execDutyCommit b v s) = .next t → Kept u t := by
  intro t ht; unfold execDutyCommit at ht
  refine kept_clockedOut (by assumption) ?_ t ht; clear ht t; intro t ht; obtain rfl := Host.Outcome.next.inj ht; try dsimp only
  repeat' (first | with_reducible assumption | with_reducible apply kept_dutyWrite)

theorem kept_execClampEnd {u : State} {b : Bridge} {s : State} (h1 : Kept u s) :
    ∀ t, (execClampEnd b s) = .next t → Kept u t := by
  intro t ht; unfold execClampEnd at ht
  refine kept_clockedOut (by assumption) ?_ t ht; clear ht t; intro t ht; obtain rfl := Host.Outcome.next.inj ht; try dsimp only
  repeat' (first
    | with_reducible assumption | with_reducible apply kept_followGates | with_reducible apply kept_modMc)

theorem kept_execComparatorReport {u : State} {b : Bridge} {pcomp : BitVec 3} {lcode : BitVec 3} {s : State} (h3 : Kept u s) :
    ∀ t, (execComparatorReport b pcomp lcode s) = .next t → Kept u t := by
  intro t ht; unfold execComparatorReport at ht
  refine kept_clockedOut (by assumption) ?_ t ht; clear ht t; intro t ht; obtain rfl := Host.Outcome.next.inj ht; try dsimp only
  repeat' (first | with_reducible assumption | with_reducible apply kept_comparatorReport)

theorem kept_execZcWindowMiss {u : State} {b : Bridge} {s : State} (h1 : Kept u s) :
    ∀ t, (execZcWindowMiss b s) = .next t → Kept u t := by
  intro t ht; unfold execZcWindowMiss at ht
  refine kept_clockedOut (by assumption) ?_ t ht; clear ht t; intro t ht; obtain rfl := Host.Outcome.next.inj ht; try dsimp only
  repeat' (first | with_reducible assumption | with_reducible apply kept_sectorMiss)

theorem kept_execStartDecision {u : State} {b : Bridge} {v : Word} {s : State} (h2 : Kept u s) :
    ∀ t, (execStartDecision b v s) = .next t → Kept u t := by
  intro t ht; unfold execStartDecision at ht
  refine kept_clockedOut (by assumption) ?_ t ht; clear ht t; intro t ht; obtain rfl := Host.Outcome.next.inj ht; try dsimp only
  repeat' (first | with_reducible assumption | with_reducible apply kept_mcCtrlWrite)

theorem kept_execListenTimeout {u : State} {b : Bridge} {s : State} (h1 : Kept u s) :
    ∀ t, (execListenTimeout b s) = .next t → Kept u t := by
  intro t ht; unfold execListenTimeout at ht
  refine kept_clockedOut (by assumption) ?_ t ht; clear ht t; intro t ht; obtain rfl := Host.Outcome.next.inj ht; try dsimp only
  repeat' (first | with_reducible assumption | with_reducible apply kept_startRefuse | with_reducible apply kept_ite)

theorem kept_execModeReqOff {u : State} {b : Bridge} {v : Word} {s : State} (h2 : Kept u s) :
    ∀ t, (execModeReqOff b v s) = .next t → Kept u t := by
  intro t ht; unfold execModeReqOff at ht
  refine kept_clockedOut (by assumption) ?_ t ht; clear ht t; intro t ht; obtain rfl := Host.Outcome.next.inj ht; try dsimp only
  repeat' (first | with_reducible assumption | with_reducible apply kept_mcCtrlWrite)

theorem kept_execModeReqReturn {u : State} {b : Bridge} {v : Word} {s : State} (h2 : Kept u s) :
    ∀ t, (execModeReqReturn b v s) = .next t → Kept u t := by
  intro t ht; unfold execModeReqReturn at ht
  refine kept_clockedOut (by assumption) ?_ t ht; clear ht t; intro t ht; obtain rfl := Host.Outcome.next.inj ht; try dsimp only
  repeat' (first | with_reducible assumption | with_reducible apply kept_mcCtrlWrite)

theorem kept_execMcEnableWrite {u : State} {b : Bridge} {v : Word} {s : State} (h2 : Kept u s) :
    ∀ t, (execMcEnableWrite b v s) = .next t → Kept u t := by
  intro t ht; unfold execMcEnableWrite at ht
  refine kept_clockedOut (by assumption) ?_ t ht; clear ht t; intro t ht; obtain rfl := Host.Outcome.next.inj ht; try dsimp only
  repeat' (first | with_reducible assumption | with_reducible apply kept_mcCtrlWrite)

theorem kept_emuLow {u : State} {s : State} (h0 : Kept u s) :
    Kept u (emuLow s) := by
  unfold emuLow; try dsimp only
  repeat' (first
    | with_reducible assumption | with_reducible apply kept_put | with_reducible refine kept_mk ?_ rfl rfl rfl)

theorem kept_emuFollow {u : State} {was : Bool} {s : State} (h1 : Kept u s) :
    Kept u (emuFollow was s) := by
  unfold emuFollow; try dsimp only
  repeat' (first
    | with_reducible assumption | with_reducible apply kept_when | with_reducible apply kept_put
    | with_reducible apply kept_putB | (intro; intros; try dsimp only) | split
    | with_reducible refine kept_mk ?_ rfl rfl rfl)

theorem kept_showMtValid {u : State} {k : PosBlk} {s : State} (h1 : Kept u s) :
    Kept u (showMtValid k s) := by
  unfold showMtValid; try dsimp only
  repeat' (first | with_reducible assumption | with_reducible apply kept_emuFollow | with_reducible apply kept_putB)

theorem kept_failover {u : State} {src : ℕ} {s : State} (h1 : Kept u s) :
    Kept u (failover src s) := by
  unfold failover; try dsimp only
  repeat' (first
    | with_reducible assumption | with_reducible apply kept_setSource | with_reducible apply kept_judgeSet
    | with_reducible apply kept_put | with_reducible apply kept_mcAllLost | with_reducible apply kept_ite | split)

theorem kept_compareOut {u : State} {k : PosBlk} {j : Fin 2} {s : State} (h2 : Kept u s) :
    Kept u (compareOut k j s) := by
  unfold compareOut; try dsimp only
  repeat' (first
    | with_reducible assumption | with_reducible apply kept_modPos | with_reducible apply kept_putB
    | with_reducible apply kept_ite | split)

theorem kept_compareValWrite {u : State} {k : PosBlk} {j : Fin 2} {v : Word} {s : State} (h3 : Kept u s) :
    Kept u (compareValWrite k j v s) := by
  unfold compareValWrite; try dsimp only
  repeat' (first
    | with_reducible assumption | with_reducible apply kept_regWriteWith | with_reducible apply kept_modPos
    | (intro; intros; try dsimp only))

theorem kept_compareMove {u : State} {k : PosBlk} {m0 : ℕ} {m1 : ℕ} {s : State} {j : Fin 2} (h3 : Kept u s) :
    Kept u (compareMove k m0 m1 s j) := by
  unfold compareMove; try dsimp only
  repeat' (first
    | with_reducible assumption | with_reducible apply kept_put | with_reducible apply kept_compareOut
    | with_reducible apply kept_when | with_reducible apply kept_raise | with_reducible apply kept_modPos
    | with_reducible apply kept_countN | with_reducible apply kept_ite | (intro; intros; try dsimp only))

theorem kept_updateMt {u : State} {k : PosBlk} {s : State} (h1 : Kept u s) :
    Kept u (updateMt k s) := by
  unfold updateMt; try dsimp only
  repeat' (first
    | with_reducible assumption | with_reducible apply kept_compareMove | with_reducible apply kept_put
    | with_reducible apply kept_foldl | with_reducible apply kept_ite | (intro; intros; try dsimp only))

theorem kept_carryTurns {u : State} {k : PosBlk} {carry : ℤ} {s : State} (h2 : Kept u s) :
    Kept u (carryTurns k carry s) := by
  unfold carryTurns; try dsimp only
  repeat' (first
    | with_reducible assumption | with_reducible apply kept_when | with_reducible apply kept_put
    | with_reducible apply kept_modPos | (intro; intros; try dsimp only))

theorem kept_mechReport {u : State} {k : PosBlk} {mech : ℕ} {carry : ℤ} {rate : ℤ} {lowConf : Bool} {ts : ℕ} {s : State} (h6 : Kept u s) :
    Kept u (mechReport k mech carry rate lowConf ts s) := by
  unfold mechReport; try dsimp only
  repeat' (first
    | with_reducible assumption | with_reducible apply kept_put | with_reducible apply kept_carryTurns
    | with_reducible apply kept_modPos | with_reducible apply kept_putS | with_reducible apply kept_updateMt
    | with_reducible apply kept_putB)

theorem kept_speedReport {u : State} {k : PosBlk} {rate : ℤ} {lowConf : Bool} {s : State} (h3 : Kept u s) :
    Kept u (speedReport k rate lowConf s) := by
  unfold speedReport; try dsimp only
  repeat' (first | with_reducible assumption | with_reducible apply kept_putB | with_reducible apply kept_putS)

theorem kept_posCount {u : State} {k : PosBlk} {f : Fld} {j : ℕ} {s : State} (h3 : Kept u s) :
    Kept u (posCount k f j s) := by
  unfold posCount; try dsimp only
  repeat' (first | with_reducible assumption | with_reducible apply kept_countBit)

theorem kept_ifaceInvalid {u : State} {k : PosBlk} {i : Fin 3} {s : State} (h2 : Kept u s) :
    Kept u (ifaceInvalid k i s) := by
  unfold ifaceInvalid; try dsimp only
  repeat' (first
    | with_reducible assumption | with_reducible apply kept_showMtValid | with_reducible apply kept_put
    | with_reducible apply kept_failover | with_reducible apply kept_ite)

theorem kept_modEdge {u : State} {k : PosBlk} {i : EdgeIface} {f : EdgeState → EdgeState} {s : State} (h3 : Kept u s) :
    Kept u (modEdge k i f s) := by
  unfold modEdge; try dsimp only
  repeat' (first | with_reducible assumption | with_reducible apply kept_modPos | split)

theorem kept_edgeDeliver {u : State} {k : PosBlk} {i : EdgeIface} {ts : ℕ} {s : State} (h3 : Kept u s) :
    Kept u (edgeDeliver k i ts s) := by
  unfold edgeDeliver; try dsimp only
  repeat' (first | with_reducible assumption | with_reducible apply kept_deliver | with_reducible apply kept_ite)

theorem kept_edgeMoved {u : State} {k : PosBlk} {i : EdgeIface} {old : ℕ} {dir : ℤ} {theta : Option ℕ} {ts : ℕ} {s : State} (h6 : Kept u s) :
    Kept u (edgeMoved k i old dir theta ts s) := by
  unfold edgeMoved; try dsimp only
  repeat' (first
    | with_reducible assumption | with_reducible apply kept_modEdge | with_reducible apply kept_put
    | with_reducible apply kept_mechReport | with_reducible apply kept_edgeDeliver | with_reducible apply kept_ite
    | split)

theorem kept_edgeAccept {u : State} {k : PosBlk} {i : EdgeIface} {fwd : Bool} {theta : Option ℕ} {s : State} (h4 : Kept u s) :
    Kept u (edgeAccept k i fwd theta s) := by
  unfold edgeAccept; try dsimp only
  repeat' (first
    | with_reducible assumption | with_reducible apply kept_modEdge | with_reducible apply kept_showMtValid
    | with_reducible apply kept_put | with_reducible apply kept_edgeMoved | with_reducible apply kept_ite)

theorem kept_stateFault {u : State} {k : PosBlk} {i : EdgeIface} {s : State} (h2 : Kept u s) :
    Kept u (stateFault k i s) := by
  unfold stateFault; try dsimp only
  repeat' (first
    | with_reducible assumption | with_reducible apply kept_posCount | with_reducible apply kept_ifaceInvalid
    | with_reducible apply kept_put | split)

theorem kept_edgeTake {u : State} {k : PosBlk} {i : EdgeIface} {lines : BitVec 3} {s : State} (h3 : Kept u s) :
    Kept u (edgeTake k i lines s) := by
  unfold edgeTake; try dsimp only
  repeat' (first
    | with_reducible assumption | with_reducible apply kept_modEdge | with_reducible apply kept_edgeAccept
    | with_reducible apply kept_stateFault | with_reducible apply kept_put | split)

theorem kept_edgeChange {u : State} {k : PosBlk} {i : EdgeIface} {lines : BitVec 3} {s : State} (h3 : Kept u s) :
    Kept u (edgeChange k i lines s) := by
  unfold edgeChange; try dsimp only
  repeat' (first
    | with_reducible assumption | with_reducible apply kept_modEdge | with_reducible apply kept_posCount
    | with_reducible apply kept_edgeTake | with_reducible apply kept_ite)

theorem kept_edgeAgain {u : State} {k : PosBlk} {l : EdgeLines} {s : State} (h2 : Kept u s) :
    Kept u (edgeAgain k l s) := by
  unfold edgeAgain; try dsimp only
  repeat' (first
    | with_reducible assumption | with_reducible apply kept_modEdge | with_reducible apply kept_edgeTake
    | with_reducible apply kept_ite)

theorem kept_indexCorrect {u : State} {k : PosBlk} {e : ℤ} {s : State} (h2 : Kept u s) :
    Kept u (indexCorrect k e s) := by
  unfold indexCorrect; try dsimp only
  repeat' (first
    | with_reducible assumption | with_reducible apply kept_edgeMoved | with_reducible apply kept_modEdge)

theorem kept_indexEvent {u : State} {k : PosBlk} {s : State} (h1 : Kept u s) :
    Kept u (indexEvent k s) := by
  unfold indexEvent; try dsimp only
  repeat' (first
    | with_reducible assumption | with_reducible apply kept_put | with_reducible apply kept_indexCorrect
    | with_reducible apply kept_posCount | with_reducible apply kept_ite | split)

theorem kept_zEdge {u : State} {k : PosBlk} {rising : Bool} {s : State} (h2 : Kept u s) :
    Kept u (zEdge k rising s) := by
  unfold zEdge; try dsimp only
  repeat' (first
    | with_reducible assumption | with_reducible apply kept_posCount | with_reducible apply kept_modEdge
    | with_reducible apply kept_indexEvent | with_reducible apply kept_ite)

theorem kept_edgeSpeedReport {u : State} {k : PosBlk} {i : EdgeIface} {rate : ℤ} {s : State} (h3 : Kept u s) :
    Kept u (edgeSpeedReport k i rate s) := by
  unfold edgeSpeedReport; try dsimp only
  repeat' (first
    | with_reducible assumption | with_reducible apply kept_speedReport | with_reducible apply kept_mechReport
    | with_reducible apply kept_ite)

theorem kept_edgeStill {u : State} {k : PosBlk} {i : EdgeIface} {s : State} (h2 : Kept u s) :
    Kept u (edgeStill k i s) := by
  unfold edgeStill; try dsimp only
  repeat' (first
    | with_reducible assumption | with_reducible apply kept_modEdge | with_reducible apply kept_edgeDeliver
    | with_reducible apply kept_edgeSpeedReport | with_reducible apply kept_ite)

theorem kept_edgeCreep {u : State} {k : PosBlk} {i : EdgeIface} {s : State} (h2 : Kept u s) :
    Kept u (edgeCreep k i s) := by
  unfold edgeCreep; try dsimp only
  repeat' (first
    | with_reducible assumption | with_reducible apply kept_modEdge | with_reducible apply kept_edgeDeliver
    | with_reducible apply kept_edgeSpeedReport | with_reducible apply kept_ite | split)

theorem kept_scGood {u : State} {k : PosBlk} {pidx : ℕ} {fine : ℕ} {dir : ℤ} {s : State} (h4 : Kept u s) :
    Kept u (scGood k pidx fine dir s) := by
  unfold scGood; try dsimp only
  repeat' (first
    | with_reducible assumption | with_reducible apply kept_put | with_reducible apply kept_drew
    | with_reducible apply kept_modPos | with_reducible apply kept_showMtValid | with_reducible apply kept_mechReport
    | with_reducible apply kept_deliver | with_reducible apply kept_ite | split)

theorem kept_scTrack {u : State} {k : PosBlk} {fine : ℕ} {s : State} (h2 : Kept u s) :
    Kept u (scTrack k fine s) := by
  unfold scTrack; try dsimp only
  repeat' (first
    | with_reducible assumption | with_reducible apply kept_scGood | with_reducible apply kept_put
    | with_reducible apply kept_posCount | with_reducible apply kept_modPos | with_reducible apply kept_ifaceInvalid
    | with_reducible apply kept_ite)

theorem kept_scSample {u : State} {k : PosBlk} {sRaw : BitVec 16} {cRaw : BitVec 16} {s : State} (h3 : Kept u s) :
    Kept u (scSample k sRaw cRaw s) := by
  unfold scSample; try dsimp only
  repeat' (first
    | with_reducible assumption | with_reducible apply kept_scTrack | with_reducible apply kept_drew
    | with_reducible apply kept_posCount | with_reducible apply kept_modPos | with_reducible apply kept_ifaceInvalid
    | with_reducible apply kept_ite)

theorem kept_sentInvalid {u : State} {c : SentCh} {s : State} (h1 : Kept u s) :
    Kept u (sentInvalid c s) := by
  unfold sentInvalid; try dsimp only
  repeat' (first
    | with_reducible assumption | with_reducible apply kept_failover | with_reducible apply kept_emuFollow
    | with_reducible apply kept_put | with_reducible apply kept_ite)

theorem kept_sentSerial {u : State} {c : SentCh} {f : SentFrame} {s : State} (h2 : Kept u s) :
    Kept u (sentSerial c f s) := by
  unfold sentSerial; try dsimp only
  repeat' (first
    | with_reducible assumption | with_reducible apply kept_modSent | with_reducible apply kept_put | split)

theorem kept_sentGood {u : State} {c : SentCh} {f : SentFrame} {s : State} (h2 : Kept u s) :
    Kept u (sentGood c f s) := by
  unfold sentGood; try dsimp only
  repeat' (first
    | with_reducible assumption | with_reducible apply kept_put | with_reducible apply kept_drew
    | with_reducible apply kept_putB | with_reducible apply kept_putS | with_reducible apply kept_modSent
    | with_reducible apply kept_sentSerial | with_reducible apply kept_emuFollow | with_reducible apply kept_deliver
    | with_reducible apply kept_ite | split)

theorem kept_sentReceive {u : State} {c : SentCh} {f : SentFrame} {s : State} (h2 : Kept u s) :
    Kept u (sentReceive c f s) := by
  unfold sentReceive; try dsimp only
  repeat' (first
    | with_reducible assumption | with_reducible apply kept_sentGood | with_reducible apply kept_when
    | with_reducible apply kept_count | with_reducible apply kept_modSent | with_reducible apply kept_sentInvalid
    | with_reducible apply kept_ite | (intro; intros; try dsimp only))

theorem kept_revalIface {u : State} {k : PosBlk} {i : Fin 3} {s : State} (h2 : Kept u s) :
    Kept u (revalIface k i s) := by
  unfold revalIface; try dsimp only
  repeat' (first
    | with_reducible assumption | with_reducible apply kept_modPos | with_reducible apply kept_modEdge
    | with_reducible apply kept_ite | split)

theorem kept_revalMask {u : State} {k : PosBlk} {mask : ℕ} {s : State} (h2 : Kept u s) :
    Kept u (revalMask k mask s) := by
  unfold revalMask; try dsimp only
  repeat' (first
    | with_reducible assumption | with_reducible apply kept_revalIface | with_reducible apply kept_foldl
    | with_reducible apply kept_ite | (intro; intros; try dsimp only))

theorem kept_revalSent {u : State} {c : SentCh} {s : State} (h1 : Kept u s) :
    Kept u (revalSent c s) := by
  unfold revalSent; try dsimp only
  repeat' (first | with_reducible assumption | with_reducible apply kept_modSent | with_reducible apply kept_ite)

theorem kept_setTurns {u : State} {k : PosBlk} {v : ℕ} {s : State} (h2 : Kept u s) :
    Kept u (setTurns k v s) := by
  unfold setTurns; try dsimp only
  repeat' (first
    | with_reducible assumption | with_reducible apply kept_updateMt | with_reducible apply kept_put
    | with_reducible apply kept_modPos)

theorem kept_ifaceSwitched {u : State} {k : PosBlk} {was : BitVec 3} {s : State} {i : Fin 3} (h2 : Kept u s) :
    Kept u (ifaceSwitched k was s i) := by
  unfold ifaceSwitched; try dsimp only
  repeat' (first
    | with_reducible assumption | with_reducible apply kept_modPos | with_reducible apply kept_modEdge
    | with_reducible apply kept_revalIface | with_reducible apply kept_put | with_reducible apply kept_ite | split)

theorem kept_posCtrlWrite {u : State} {k : PosBlk} {v : Word} {s : State} (h2 : Kept u s) :
    Kept u (posCtrlWrite k v s) := by
  unfold posCtrlWrite; try dsimp only
  repeat' (first
    | with_reducible assumption | with_reducible apply kept_regWriteWith | with_reducible apply kept_showMtValid
    | with_reducible apply kept_ifaceSwitched | with_reducible apply kept_foldl | (intro; intros; try dsimp only))

theorem kept_comparePulses {u : State} {s : State} (h0 : Kept u s) :
    Kept u (comparePulses s) := by
  unfold comparePulses; try dsimp only
  repeat' (first
    | with_reducible assumption | with_reducible apply kept_modPos | with_reducible apply kept_putB
    | with_reducible apply kept_foldl | with_reducible apply kept_ite | (intro; intros; try dsimp only) | split)

theorem kept_stressTick {u : State} {i : Fin 5} {k : ℕ} {holds : Bool} {s : State} (h3 : Kept u s) :
    Kept u (stressTick i k holds s) := by
  unfold stressTick; try dsimp only
  repeat' (first
    | with_reducible assumption | with_reducible apply kept_modBkg | with_reducible apply kept_wearOne
    | with_reducible apply kept_ite)

theorem kept_stressTicks {u : State} {s : State} (h0 : Kept u s) :
    Kept u (stressTicks s) := by
  unfold stressTicks; try dsimp only
  repeat' (first | with_reducible assumption | with_reducible apply kept_stressTick)

theorem kept_timerTick {u : State} {s : State} (h0 : Kept u s) :
    Kept u (timerTick s) := by
  unfold timerTick; try dsimp only
  repeat' (first
    | with_reducible assumption | with_reducible apply kept_modSys | with_reducible apply kept_uptimeTick
    | with_reducible apply kept_elapsedTick | with_reducible apply kept_stressTicks
    | with_reducible apply kept_timeTick | with_reducible apply kept_interlockTick
    | with_reducible apply kept_recaptureDue | with_reducible apply kept_angTick
    | with_reducible apply kept_comparePulses | with_reducible apply kept_ite
    | with_reducible refine kept_mk ?_ rfl rfl rfl)

theorem kept_borrowFrame {u : State} {l : Lane} {valid : Bool} {spdValid : Bool} {lowConf : Bool} {mech : ℕ} {mspeed : ℤ} {ts : ℕ} {s : State} (h7 : Kept u s) :
    Kept u (borrowFrame l valid spdValid lowConf mech mspeed ts s) := by
  unfold borrowFrame; try dsimp only
  repeat' (first
    | with_reducible assumption | with_reducible apply kept_emuFollow | with_reducible apply kept_put
    | with_reducible apply kept_deliver | with_reducible apply kept_ite
    | with_reducible refine kept_mk ?_ rfl rfl rfl)

theorem kept_borrowLost {u : State} {s : State} (h0 : Kept u s) :
    Kept u (borrowLost s) := by
  unfold borrowLost; try dsimp only
  repeat' (first
    | with_reducible assumption | with_reducible apply kept_emuFollow | with_reducible apply kept_put
    | with_reducible apply kept_failover | with_reducible apply kept_ite
    | with_reducible refine kept_mk ?_ rfl rfl rfl)

theorem kept_emuStep {u : State} {s : State} (h0 : Kept u s) :
    Kept u (emuStep s) := by
  unfold emuStep; try dsimp only
  repeat' (first
    | with_reducible assumption | with_reducible apply kept_emuLow | with_reducible apply kept_emuFollow
    | with_reducible apply kept_put | with_reducible apply kept_when | with_reducible apply kept_ite
    | (intro; intros; try dsimp only) | split | with_reducible refine kept_mk ?_ rfl rfl rfl)

theorem kept_execAngleClockTick {u : State} {s : State} (h0 : Kept u s) :
    ∀ t, (execAngleClockTick s) = .next t → Kept u t := by
  intro t ht; unfold execAngleClockTick at ht; obtain rfl := Host.Outcome.next.inj ht; try dsimp only
  repeat' (first | with_reducible assumption | with_reducible apply kept_timerTick)

theorem kept_execSincosSample {u : State} {k : PosBlk} {sRaw : BitVec 16} {cRaw : BitVec 16} {s : State} (h3 : Kept u s) :
    ∀ t, (execSincosSample k sRaw cRaw s) = .next t → Kept u t := by
  intro t ht; unfold execSincosSample at ht
  refine kept_clockedOut (by assumption) ?_ t ht; clear ht t; intro t ht; obtain rfl := Host.Outcome.next.inj ht; try dsimp only
  repeat' (first | with_reducible assumption | with_reducible apply kept_scSample)

theorem kept_execAbzEdge {u : State} {k : PosBlk} {a : Bool} {b : Bool} {s : State} (h3 : Kept u s) :
    ∀ t, (execAbzEdge k a b s) = .next t → Kept u t := by
  intro t ht; unfold execAbzEdge at ht
  refine kept_clockedOut (by assumption) ?_ t ht; clear ht t; intro t ht; obtain rfl := Host.Outcome.next.inj ht; try dsimp only
  repeat' (first | with_reducible assumption | with_reducible apply kept_edgeChange)

theorem kept_execEdgeResample {u : State} {k : PosBlk} {l : EdgeLines} {s : State} (h2 : Kept u s) :
    ∀ t, (execEdgeResample k l s) = .next t → Kept u t := by
  intro t ht; unfold execEdgeResample at ht
  refine kept_clockedOut (by assumption) ?_ t ht; clear ht t; intro t ht; obtain rfl := Host.Outcome.next.inj ht; try dsimp only
  repeat' (first | with_reducible assumption | with_reducible apply kept_edgeAgain)

theorem kept_execIndexEdge {u : State} {k : PosBlk} {rising : Bool} {s : State} (h2 : Kept u s) :
    ∀ t, (execIndexEdge k rising s) = .next t → Kept u t := by
  intro t ht; unfold execIndexEdge at ht
  refine kept_clockedOut (by assumption) ?_ t ht; clear ht t; intro t ht; obtain rfl := Host.Outcome.next.inj ht; try dsimp only
  repeat' (first | with_reducible assumption | with_reducible apply kept_zEdge)

theorem kept_execHallEdge {u : State} {k : PosBlk} {code : BitVec 3} {s : State} (h2 : Kept u s) :
    ∀ t, (execHallEdge k code s) = .next t → Kept u t := by
  intro t ht; unfold execHallEdge at ht
  refine kept_clockedOut (by assumption) ?_ t ht; clear ht t; intro t ht; obtain rfl := Host.Outcome.next.inj ht; try dsimp only
  repeat' (first | with_reducible assumption | with_reducible apply kept_edgeChange)

theorem kept_execSentFrame {u : State} {c : SentCh} {f : SentFrame} {s : State} (h2 : Kept u s) :
    ∀ t, (execSentFrame c f s) = .next t → Kept u t := by
  intro t ht; unfold execSentFrame at ht
  refine kept_clockedOut (by assumption) ?_ t ht; clear ht t; intro t ht; obtain rfl := Host.Outcome.next.inj ht; try dsimp only
  repeat' (first | with_reducible assumption | with_reducible apply kept_sentReceive)

theorem kept_execSentTimeout {u : State} {c : SentCh} {s : State} (h1 : Kept u s) :
    ∀ t, (execSentTimeout c s) = .next t → Kept u t := by
  intro t ht; unfold execSentTimeout at ht
  refine kept_clockedOut (by assumption) ?_ t ht; clear ht t; intro t ht; obtain rfl := Host.Outcome.next.inj ht; try dsimp only
  repeat' (first | with_reducible assumption | with_reducible apply kept_sentInvalid)

theorem kept_execEdgeStandstill {u : State} {k : PosBlk} {i : EdgeIface} {s : State} (h2 : Kept u s) :
    ∀ t, (execEdgeStandstill k i s) = .next t → Kept u t := by
  intro t ht; unfold execEdgeStandstill at ht
  refine kept_clockedOut (by assumption) ?_ t ht; clear ht t; intro t ht; obtain rfl := Host.Outcome.next.inj ht; try dsimp only
  repeat' (first | with_reducible assumption | with_reducible apply kept_edgeStill)

theorem kept_execCreepSample {u : State} {k : PosBlk} {i : EdgeIface} {s : State} (h2 : Kept u s) :
    ∀ t, (execCreepSample k i s) = .next t → Kept u t := by
  intro t ht; unfold execCreepSample at ht
  refine kept_clockedOut (by assumption) ?_ t ht; clear ht t; intro t ht; obtain rfl := Host.Outcome.next.inj ht; try dsimp only
  repeat' (first | with_reducible assumption | with_reducible apply kept_edgeCreep)

theorem kept_execMtSet {u : State} {k : PosBlk} {v : Word} {s : State} (h2 : Kept u s) :
    ∀ t, (execMtSet k v s) = .next t → Kept u t := by
  intro t ht; unfold execMtSet at ht
  refine kept_clockedOut (by assumption) ?_ t ht; clear ht t; intro t ht; obtain rfl := Host.Outcome.next.inj ht; try dsimp only
  repeat' (first | with_reducible assumption | with_reducible apply kept_setTurns)

theorem kept_execPosReval {u : State} {k : PosBlk} {mask : BitVec 3} {s : State} (h2 : Kept u s) :
    ∀ t, (execPosReval k mask s) = .next t → Kept u t := by
  intro t ht; unfold execPosReval at ht
  refine kept_clockedOut (by assumption) ?_ t ht; clear ht t; intro t ht; obtain rfl := Host.Outcome.next.inj ht; try dsimp only
  repeat' (first | with_reducible assumption | with_reducible apply kept_revalMask)

theorem kept_execSentReval {u : State} {c : SentCh} {s : State} (h1 : Kept u s) :
    ∀ t, (execSentReval c s) = .next t → Kept u t := by
  intro t ht; unfold execSentReval at ht
  refine kept_clockedOut (by assumption) ?_ t ht; clear ht t; intro t ht; obtain rfl := Host.Outcome.next.inj ht; try dsimp only
  repeat' (first | with_reducible assumption | with_reducible apply kept_revalSent)

theorem kept_execBorrowTimeout {u : State} {s : State} (h0 : Kept u s) :
    ∀ t, (execBorrowTimeout s) = .next t → Kept u t := by
  intro t ht; unfold execBorrowTimeout at ht
  refine kept_clockedOut (by assumption) ?_ t ht; clear ht t; intro t ht; obtain rfl := Host.Outcome.next.inj ht; try dsimp only
  repeat' (first | with_reducible assumption | with_reducible apply kept_borrowLost)

theorem kept_execCompareValWrite {u : State} {a0 : Fin 4} {v : Word} {s : State} (h2 : Kept u s) :
    ∀ t, (execCompareValWrite a0 v s) = .next t → Kept u t := by
  intro t ht; unfold execCompareValWrite at ht
  refine kept_clockedOut (by assumption) ?_ t ht; clear ht t; intro t ht; obtain rfl := Host.Outcome.next.inj ht; try dsimp only
  repeat' (first | with_reducible assumption | with_reducible apply kept_compareValWrite)

theorem kept_execEmuStep {u : State} {s : State} (h0 : Kept u s) :
    ∀ t, (execEmuStep s) = .next t → Kept u t := by
  intro t ht; unfold execEmuStep at ht
  refine kept_clockedOut (by assumption) ?_ t ht; clear ht t; intro t ht; obtain rfl := Host.Outcome.next.inj ht; try dsimp only
  repeat' (first | with_reducible assumption | with_reducible apply kept_emuStep)

theorem kept_setX {u : State} {e : Eng} {i : XReg} {v : Q20} {s : State} (h3 : Kept u s) :
    Kept u (setX e i v s) := by
  unfold setX; try dsimp only
  repeat' (first | with_reducible assumption | with_reducible apply kept_modEng)

theorem kept_setAcc {u : State} {e : Eng} {a : Fin 2} {v : ℤ} {s : State} (h3 : Kept u s) :
    Kept u (setAcc e a v s) := by
  unfold setAcc; try dsimp only
  repeat' (first | with_reducible assumption | with_reducible apply kept_modEng)

theorem kept_setFlags {u : State} {e : Eng} {z : Bool} {n : Bool} {sat : Bool} {s : State} (h4 : Kept u s) :
    Kept u (setFlags e z n sat s) := by
  unfold setFlags; try dsimp only
  repeat' (first | with_reducible assumption | with_reducible apply kept_modEng)

theorem kept_flags20 {u : State} {e : Eng} {v : Q20} {sat : Bool} {s : State} (h3 : Kept u s) :
    Kept u (flags20 e v sat s) := by
  unfold flags20; try dsimp only
  repeat' (first | with_reducible assumption | with_reducible apply kept_setFlags)

theorem kept_flagsOpen {u : State} {e : Eng} {c : Config.FlagClass} {v : Q20} {s : State} (h3 : Kept u s) :
    Kept u (flagsOpen e c v s) := by
  unfold flagsOpen; try dsimp only
  repeat' (first | with_reducible assumption | with_reducible apply kept_flags20 | with_reducible apply kept_ite)

theorem kept_markSat {u : State} {e : Eng} {sat : Bool} {s : State} (h2 : Kept u s) :
    Kept u (markSat e sat s) := by
  unfold markSat; try dsimp only
  repeat' (first
    | with_reducible assumption | with_reducible apply kept_when | with_reducible apply kept_put
    | (intro; intros; try dsimp only))

theorem kept_result {u : State} {e : Eng} {d : XReg} {v : Q20} {sat : Bool} {s : State} (h4 : Kept u s) :
    Kept u (result e d v sat s) := by
  unfold result; try dsimp only
  repeat' (first
    | with_reducible assumption | with_reducible apply kept_markSat | with_reducible apply kept_flags20
    | with_reducible apply kept_setX)

theorem kept_advance {u : State} {e : Eng} {cycles : ℕ} {s : State} (h2 : Kept u s) :
    Kept u (advance e cycles s) := by
  unfold advance; try dsimp only
  repeat' (first | with_reducible assumption | with_reducible apply kept_modEng | split)

theorem kept_jump {u : State} {e : Eng} {target : BitVec 12} {s : State} (h2 : Kept u s) :
    Kept u (jump e target s) := by
  unfold jump; try dsimp only
  repeat' (first | with_reducible assumption | with_reducible apply kept_modEng)

theorem kept_timeUp {u : State} {e : Eng} {s : State} (h1 : Kept u s) :
    Kept u (timeUp e s) := by
  unfold timeUp; try dsimp only
  repeat' (first | with_reducible assumption | with_reducible apply kept_modEng)

theorem kept_running {u : State} {e : Eng} {cycles : ℕ} {act : State → State} {s : State} (h2 : ∀ t0, Kept u t0 → Kept u (act t0)) (h3 : Kept u s) :
    Kept u (running e cycles act s) := by
  unfold running; try dsimp only
  repeat' (first
    | with_reducible assumption | with_reducible apply h2 | with_reducible apply kept_timeUp
    | with_reducible apply kept_ite | (intro; intros; try dsimp only))

theorem kept_instr {u : State} {e : Eng} {cycles : ℕ} {act : State → State} {s : State} (h2 : ∀ t0, Kept u t0 → Kept u (act t0)) (h3 : Kept u s) :
    Kept u (instr e cycles act s) := by
  unfold instr; try dsimp only
  repeat' (first
    | with_reducible assumption | with_reducible apply h2 | with_reducible apply kept_running
    | with_reducible apply kept_advance | (intro; intros; try dsimp only))

theorem kept_bumpIx {u : State} {e : Eng} {m : MemOperand} {s : State} (h2 : Kept u s) :
    Kept u (bumpIx e m s) := by
  unfold bumpIx; try dsimp only
  repeat' (first | with_reducible assumption | with_reducible apply kept_modEng | split)

theorem kept_bumpMul {u : State} {e : Eng} {o : MulOperand} {s : State} (h2 : Kept u s) :
    Kept u (bumpMul e o s) := by
  unfold bumpMul; try dsimp only
  repeat' (first | with_reducible assumption | with_reducible apply kept_bumpIx | split)

theorem kept_satResult {u : State} {e : Eng} {d : XReg} {v : ℤ} {s : State} (h3 : Kept u s) :
    Kept u (satResult e d v s) := by
  unfold satResult; try dsimp only
  repeat' (first | with_reducible assumption | with_reducible apply kept_result)

theorem kept_convert {u : State} {e : Eng} {d : XReg} {a : Fin 2} {sh : ℕ} {s : State} (h4 : Kept u s) :
    Kept u (convert e d a sh s) := by
  unfold convert; try dsimp only
  repeat' (first
    | with_reducible assumption | with_reducible apply kept_when | with_reducible apply kept_count
    | with_reducible apply kept_satResult | (intro; intros; try dsimp only))

theorem kept_accResult {u : State} {e : Eng} {a : Fin 2} {v : ℤ} {s : State} (h3 : Kept u s) :
    Kept u (accResult e a v s) := by
  unfold accResult; try dsimp only
  repeat' (first
    | with_reducible assumption | with_reducible apply kept_setAcc | with_reducible apply kept_setFlags
    | with_reducible apply kept_when | with_reducible apply kept_modEng | with_reducible apply kept_put
    | with_reducible apply kept_ite | (intro; intros; try dsimp only))

theorem kept_dualResult {u : State} {e : Eng} {v0 : ℤ} {v1 : ℤ} {s : State} (h3 : Kept u s) :
    Kept u (dualResult e v0 v1 s) := by
  unfold dualResult; try dsimp only
  repeat' (first
    | with_reducible assumption | with_reducible apply kept_accResult | with_reducible apply kept_drew
    | with_reducible apply kept_when | with_reducible apply kept_modEng | with_reducible apply kept_ite
    | (intro; intros; try dsimp only))

theorem kept_alu {u : State} {e : Eng} {d : XReg} {a : XReg} {b : XReg} {f : Q20 → Q20 → Q20} {s : State} (h5 : Kept u s) :
    Kept u (alu e d a b f s) := by
  unfold alu; try dsimp only
  repeat' (first
    | with_reducible assumption | with_reducible apply kept_instr | with_reducible apply kept_result
    | (intro; intros; try dsimp only))

theorem kept_aluSat {u : State} {e : Eng} {d : XReg} {a : XReg} {b : XReg} {f : ℤ → ℤ → ℤ} {s : State} (h5 : Kept u s) :
    Kept u (aluSat e d a b f s) := by
  unfold aluSat; try dsimp only
  repeat' (first
    | with_reducible assumption | with_reducible apply kept_instr | with_reducible apply kept_satResult
    | (intro; intros; try dsimp only))

theorem kept_absStep {u : State} {e : Eng} {d : XReg} {a : XReg} {s : State} (h3 : Kept u s) :
    Kept u (absStep e d a s) := by
  unfold absStep; try dsimp only
  repeat' (first
    | with_reducible assumption | with_reducible apply kept_drew | with_reducible apply kept_result
    | with_reducible apply kept_ite)

theorem kept_cmpStep {u : State} {e : Eng} {a : XReg} {b : XReg} {s : State} (h3 : Kept u s) :
    Kept u (cmpStep e a b s) := by
  unfold cmpStep; try dsimp only
  repeat' (first | with_reducible assumption | with_reducible apply kept_setFlags)

theorem kept_loadStep {u : State} {e : Eng} {d : XReg} {m : MemOperand} {coef : Bool} {s : State} (h4 : Kept u s) :
    Kept u (loadStep e d m coef s) := by
  unfold loadStep; try dsimp only
  repeat' (first
    | with_reducible assumption | with_reducible apply kept_bumpIx | with_reducible apply kept_flagsOpen
    | with_reducible apply kept_setX | with_reducible apply kept_ite)

theorem kept_storeStep {u : State} {e : Eng} {m : MemOperand} {a : XReg} {s : State} (h3 : Kept u s) :
    Kept u (storeStep e m a s) := by
  unfold storeStep; try dsimp only
  repeat' (first | with_reducible assumption | with_reducible apply kept_bumpIx | with_reducible apply kept_setMem20)

theorem kept_storeCoefStep {u : State} {e : Eng} {m : MemOperand} {a : XReg} {s : State} (h3 : Kept u s) :
    Kept u (storeCoefStep e m a s) := by
  unfold storeCoefStep; try dsimp only
  repeat' (first | with_reducible assumption | with_reducible apply kept_bumpIx | with_reducible apply kept_setMem20)

theorem kept_mulStep {u : State} {e : Eng} {acc : Fin 2} {o : MulOperand} {f : ℤ → ℤ → ℤ} {s : State} (h4 : Kept u s) :
    Kept u (mulStep e acc o f s) := by
  unfold mulStep; try dsimp only
  repeat' (first
    | with_reducible assumption | with_reducible apply kept_bumpMul | with_reducible apply kept_accResult)

theorem kept_dualStep {u : State} {e : Eng} {o0 : MulOperand} {o1 : MulOperand} {f : ℤ → ℤ → ℤ} {s : State} (h4 : Kept u s) :
    Kept u (dualStep e o0 o1 f s) := by
  unfold dualStep; try dsimp only
  repeat' (first
    | with_reducible assumption | with_reducible apply kept_bumpMul | with_reducible apply kept_dualResult)

theorem kept_ashStep {u : State} {e : Eng} {acc : Fin 2} {n : ℤ} {s : State} (h3 : Kept u s) :
    Kept u (ashStep e acc n s) := by
  unfold ashStep; try dsimp only
  repeat' (first | with_reducible assumption | with_reducible apply kept_accResult | with_reducible apply kept_ite)

theorem kept_intgStep {u : State} {e : Eng} {d : XReg} {state : ℕ} {err : XReg} {gain : MemOperand} {s : State} (h5 : Kept u s) :
    Kept u (intgStep e d state err gain s) := by
  unfold intgStep; try dsimp only
  repeat' (first
    | with_reducible assumption | with_reducible apply kept_setMem20 | with_reducible apply kept_bumpIx
    | with_reducible apply kept_result | with_reducible apply kept_ite)

theorem kept_biqStep {u : State} {e : Eng} {d : XReg} {x : XReg} {coef : ℕ} {state : ℕ} {s : State} (h5 : Kept u s) :
    Kept u (biqStep e d x coef state s) := by
  unfold biqStep; try dsimp only
  repeat' (first
    | with_reducible assumption | with_reducible apply kept_drew | with_reducible apply kept_setMem20
    | with_reducible apply kept_result)

theorem kept_sincosStep {u : State} {e : Eng} {ds : XReg} {dc : XReg} {a : XReg} {s : State} (h4 : Kept u s) :
    Kept u (sincosStep e ds dc a s) := by
  unfold sincosStep; try dsimp only
  repeat' (first
    | with_reducible assumption | with_reducible apply kept_drew | with_reducible apply kept_setX
    | with_reducible apply kept_setFlags | with_reducible apply kept_ite)

theorem kept_atan2Step {u : State} {e : Eng} {d : XReg} {y : XReg} {x : XReg} {s : State} (h4 : Kept u s) :
    Kept u (atan2Step e d y x s) := by
  unfold atan2Step; try dsimp only
  repeat' (first
    | with_reducible assumption | with_reducible apply kept_drew | with_reducible apply kept_result
    | with_reducible apply kept_ite)

theorem kept_sqrtStep {u : State} {e : Eng} {d : XReg} {a : XReg} {s : State} (h3 : Kept u s) :
    Kept u (sqrtStep e d a s) := by
  unfold sqrtStep; try dsimp only
  repeat' (first
    | with_reducible assumption | with_reducible apply kept_result | with_reducible apply kept_drew
    | with_reducible apply kept_ite)

theorem kept_divStep {u : State} {e : Eng} {d : XReg} {a : XReg} {b : XReg} {s : State} (h4 : Kept u s) :
    Kept u (divStep e d a b s) := by
  unfold divStep; try dsimp only
  repeat' (first
    | with_reducible assumption | with_reducible apply kept_drew | with_reducible apply kept_result
    | with_reducible apply kept_satResult | with_reducible apply kept_ite)

theorem kept_loopStep {u : State} {e : Eng} {count : ℕ} {last : BitVec 12} {s : State} (h3 : Kept u s) :
    Kept u (loopStep e count last s) := by
  unfold loopStep; try dsimp only
  repeat' (first
    | with_reducible assumption | with_reducible apply kept_modEng | with_reducible apply kept_drew
    | with_reducible apply kept_ite)

theorem kept_setcStep {u : State} {e : Eng} {ix : Fin 8} {len : ℕ} {s : State} (h3 : Kept u s) :
    Kept u (setcStep e ix len s) := by
  unfold setcStep; try dsimp only
  repeat' (first | with_reducible assumption | with_reducible apply kept_modEng | split)

theorem kept_endStep {u : State} {e : Eng} {s : State} (h1 : Kept u s) :
    Kept u (endStep e s) := by
  unfold endStep; try dsimp only
  repeat' (first
    | with_reducible assumption | with_reducible apply kept_running | with_reducible apply kept_modEng
    | with_reducible apply kept_put | (intro; intros; try dsimp only))

theorem kept_engCtrlWrite {u : State} {e : Eng} {v : Word} {s : State} (h2 : Kept u s) :
    Kept u (engCtrlWrite e v s) := by
  unfold engCtrlWrite; try dsimp only
  repeat' (first
    | with_reducible assumption | with_reducible apply kept_regWriteWith | with_reducible apply kept_put
    | with_reducible apply kept_markSwap | with_reducible apply kept_modEng | with_reducible apply kept_ite
    | (intro; intros; try dsimp only))

theorem kept_hleEnable {u : State} {v : Word} {s : State} (h1 : Kept u s) :
    Kept u (hleEnable v s) := by
  unfold hleEnable; try dsimp only
  repeat' (first
    | with_reducible assumption | with_reducible apply kept_regWriteWith | with_reducible apply kept_followVotes
    | with_reducible apply kept_modEng | with_reducible apply kept_foldl | with_reducible apply kept_ite
    | (intro; intros; try dsimp only))

theorem kept_softTrigger {u : State} {v : Word} {s : State} (h1 : Kept u s) :
    Kept u (softTrigger v s) := by
  unfold softTrigger; try dsimp only
  repeat' (first
    | with_reducible assumption | with_reducible apply kept_regWriteWith | with_reducible apply kept_triggerTo
    | (intro; intros; try dsimp only))

theorem kept_faultAt {u : State} {e : Eng} {c : EngineCause} {s : State} (h2 : Kept u s) :
    Kept u (faultAt e c s) := by
  unfold faultAt; try dsimp only
  repeat' (first | with_reducible assumption | with_reducible apply kept_engineFault)

theorem kept_faultHere {u : State} {e : Eng} {c : EngineCause} {s : State} (h2 : Kept u s) :
    Kept u (faultHere e c s) := by
  unfold faultHere; try dsimp only
  repeat' (first
    | with_reducible assumption | with_reducible apply kept_running | with_reducible apply kept_faultAt
    | (intro; intros; try dsimp only))

theorem kept_parityError {u : State} {e : Eng} {s : State} (h1 : Kept u s) :
    Kept u (parityError e s) := by
  unfold parityError; try dsimp only
  repeat' (first | with_reducible assumption | with_reducible apply kept_engineFault | with_reducible apply kept_ite)

theorem kept_watchdogFault {u : State} {e : Eng} {s : State} (h1 : Kept u s) :
    Kept u (watchdogFault e s) := by
  unfold watchdogFault; try dsimp only
  repeat' (first | with_reducible assumption | with_reducible apply kept_faultAt | with_reducible apply kept_ite)

theorem kept_memoryFault {u : State} {e : Eng} {addr : ℕ} {s : State} (h2 : Kept u s) :
    Kept u (memoryFault e addr s) := by
  unfold memoryFault; try dsimp only
  repeat' (first
    | with_reducible assumption | with_reducible apply kept_running | with_reducible apply kept_faultAt
    | with_reducible apply kept_errorRecorded | (intro; intros; try dsimp only))

theorem kept_execActivationDispatch {u : State} {e : Eng} {s : State} (h1 : Kept u s) :
    ∀ t, (execActivationDispatch e s) = .next t → Kept u t := by
  intro t ht; unfold execActivationDispatch at ht; obtain rfl := Host.Outcome.next.inj ht; try dsimp only
  repeat' (first | with_reducible assumption | with_reducible apply kept_dispatch)

theorem kept_execSoftwareTrigger {u : State} {e : Eng} {ep : Byte} {s : State} (h2 : Kept u s) :
    ∀ t, (execSoftwareTrigger e ep s) = .next t → Kept u t := by
  intro t ht; unfold execSoftwareTrigger at ht
  refine kept_clockedOut (by assumption) ?_ t ht; clear ht t; intro t ht; obtain rfl := Host.Outcome.next.inj ht; try dsimp only
  repeat' (first | with_reducible assumption | with_reducible apply kept_softTrigger)

theorem kept_execEngineEnable {u : State} {mask : BitVec 7} {s : State} (h1 : Kept u s) :
    ∀ t, (execEngineEnable mask s) = .next t → Kept u t := by
  intro t ht; unfold execEngineEnable at ht
  refine kept_clockedOut (by assumption) ?_ t ht; clear ht t; intro t ht; obtain rfl := Host.Outcome.next.inj ht; try dsimp only
  repeat' (first | with_reducible assumption | with_reducible apply kept_hleEnable)

theorem kept_execLoopOpenRequest {u : State} {e : Eng} {openLoop : Bool} {s : State} (h2 : Kept u s) :
    ∀ t, (execLoopOpenRequest e openLoop s) = .next t → Kept u t := by
  intro t ht; unfold execLoopOpenRequest at ht
  refine kept_clockedOut (by assumption) ?_ t ht; clear ht t; intro t ht; obtain rfl := Host.Outcome.next.inj ht; try dsimp only
  repeat' (first | with_reducible assumption | with_reducible apply kept_engCtrlWrite)

theorem kept_execBankSwitchRequest {u : State} {e : Eng} {bank : Bool} {s : State} (h2 : Kept u s) :
    ∀ t, (execBankSwitchRequest e bank s) = .next t → Kept u t := by
  intro t ht; unfold execBankSwitchRequest at ht
  refine kept_clockedOut (by assumption) ?_ t ht; clear ht t; intro t ht; obtain rfl := Host.Outcome.next.inj ht; try dsimp only
  repeat' (first | with_reducible assumption | with_reducible apply kept_engCtrlWrite)

theorem kept_execBindWrite {u : State} {e : Eng} {bind : BitVec 2} {s : State} (h2 : Kept u s) :
    ∀ t, (execBindWrite e bind s) = .next t → Kept u t := by
  intro t ht; unfold execBindWrite at ht
  refine kept_clockedOut (by assumption) ?_ t ht; clear ht t; intro t ht; obtain rfl := Host.Outcome.next.inj ht; try dsimp only
  repeat' (first | with_reducible assumption | with_reducible apply kept_engCtrlWrite)

theorem kept_execEngineRestart {u : State} {e : Eng} {s : State} (h1 : Kept u s) :
    ∀ t, (execEngineRestart e s) = .next t → Kept u t := by
  intro t ht; unfold execEngineRestart at ht
  refine kept_clockedOut (by assumption) ?_ t ht; clear ht t; intro t ht; obtain rfl := Host.Outcome.next.inj ht; try dsimp only
  repeat' (first | with_reducible assumption | with_reducible apply kept_engCtrlWrite)

theorem kept_execEngineFault {u : State} {e : Eng} {cause : EngineError} {s : State} (h2 : Kept u s) :
    ∀ t, (execEngineFault e cause s) = .next t → Kept u t := by
  intro t ht; unfold execEngineFault at ht; obtain rfl := Host.Outcome.next.inj ht; try dsimp only
  repeat' (first
    | with_reducible assumption | with_reducible apply kept_parityError | with_reducible apply kept_memoryFault
    | with_reducible apply kept_watchdogFault | with_reducible apply kept_faultHere | split)

theorem kept_execEngineWatchdog {u : State} {e : Eng} {s : State} (h1 : Kept u s) :
    ∀ t, (execEngineWatchdog e s) = .next t → Kept u t := by
  intro t ht; unfold execEngineWatchdog at ht
  refine kept_clockedOut (by assumption) ?_ t ht; clear ht t; intro t ht; obtain rfl := Host.Outcome.next.inj ht; try dsimp only
  repeat' (first | with_reducible assumption | with_reducible apply kept_watchdogFault)

theorem kept_execEngineParityError {u : State} {e : Eng} {s : State} (h1 : Kept u s) :
    ∀ t, (execEngineParityError e s) = .next t → Kept u t := by
  intro t ht; unfold execEngineParityError at ht
  refine kept_clockedOut (by assumption) ?_ t ht; clear ht t; intro t ht; obtain rfl := Host.Outcome.next.inj ht; try dsimp only
  repeat' (first | with_reducible assumption | with_reducible apply kept_parityError)

theorem kept_execMov {u : State} {e : Eng} {d : XReg} {a : XReg} {s : State} (h3 : Kept u s) :
    ∀ t, (execMov e d a s) = .next t → Kept u t := by
  intro t ht; unfold execMov at ht; obtain rfl := Host.Outcome.next.inj ht; try dsimp only
  repeat' (first
    | with_reducible assumption | with_reducible apply kept_instr | with_reducible apply kept_flagsOpen
    | with_reducible apply kept_setX | (intro; intros; try dsimp only))

theorem kept_execLdi {u : State} {e : Eng} {d : XReg} {imm : Q20} {s : State} (h3 : Kept u s) :
    ∀ t, (execLdi e d imm s) = .next t → Kept u t := by
  intro t ht; unfold execLdi at ht; obtain rfl := Host.Outcome.next.inj ht; try dsimp only
  repeat' (first
    | with_reducible assumption | with_reducible apply kept_instr | with_reducible apply kept_flagsOpen
    | with_reducible apply kept_setX | (intro; intros; try dsimp only))

theorem kept_execAdd {u : State} {e : Eng} {d : XReg} {a : XReg} {b : XReg} {s : State} (h4 : Kept u s) :
    ∀ t, (execAdd e d a b s) = .next t → Kept u t := by
  intro t ht; unfold execAdd at ht; obtain rfl := Host.Outcome.next.inj ht; try dsimp only
  repeat' (first | with_reducible assumption | with_reducible apply kept_alu)

theorem kept_execAdds {u : State} {e : Eng} {d : XReg} {a : XReg} {b : XReg} {s : State} (h4 : Kept u s) :
    ∀ t, (execAdds e d a b s) = .next t → Kept u t := by
  intro t ht; unfold execAdds at ht; obtain rfl := Host.Outcome.next.inj ht; try dsimp only
  repeat' (first | with_reducible assumption | with_reducible apply kept_aluSat)

theorem kept_execSub {u : State} {e : Eng} {d : XReg} {a : XReg} {b : XReg} {s : State} (h4 : Kept u s) :
    ∀ t, (execSub e d a b s) = .next t → Kept u t := by
  intro t ht; unfold execSub at ht; obtain rfl := Host.Outcome.next.inj ht; try dsimp only
  repeat' (first | with_reducible assumption | with_reducible apply kept_alu)

theorem kept_execSubs {u : State} {e : Eng} {d : XReg} {a : XReg} {b : XReg} {s : State} (h4 : Kept u s) :
    ∀ t, (execSubs e d a b s) = .next t → Kept u t := by
  intro t ht; unfold execSubs at ht; obtain rfl := Host.Outcome.next.inj ht; try dsimp only
  repeat' (first | with_reducible assumption | with_reducible apply kept_aluSat)

theorem kept_execNeg {u : State} {e : Eng} {d : XReg} {a : XReg} {s : State} (h3 : Kept u s) :
    ∀ t, (execNeg e d a s) = .next t → Kept u t := by
  intro t ht; unfold execNeg at ht; obtain rfl := Host.Outcome.next.inj ht; try dsimp only
  repeat' (first
    | with_reducible assumption | with_reducible apply kept_instr | with_reducible apply kept_result
    | (intro; intros; try dsimp only))

theorem kept_execNegs {u : State} {e : Eng} {d : XReg} {a : XReg} {s : State} (h3 : Kept u s) :
    ∀ t, (execNegs e d a s) = .next t → Kept u t := by
  intro t ht; unfold execNegs at ht; obtain rfl := Host.Outcome.next.inj ht; try dsimp only
  repeat' (first
    | with_reducible assumption | with_reducible apply kept_instr | with_reducible apply kept_satResult
    | (intro; intros; try dsimp only))

theorem kept_execAbs {u : State} {e : Eng} {d : XReg} {a : XReg} {s : State} (h3 : Kept u s) :
    ∀ t, (execAbs e d a s) = .next t → Kept u t := by
  intro t ht; unfold execAbs at ht; obtain rfl := Host.Outcome.next.inj ht; try dsimp only
  repeat' (first
    | with_reducible assumption | with_reducible apply kept_instr | with_reducible apply kept_absStep
    | (intro; intros; try dsimp only))

theorem kept_execMin {u : State} {e : Eng} {d : XReg} {a : XReg} {b : XReg} {s : State} (h4 : Kept u s) :
    ∀ t, (execMin e d a b s) = .next t → Kept u t := by
  intro t ht; unfold execMin at ht; obtain rfl := Host.Outcome.next.inj ht; try dsimp only
  repeat' (first | with_reducible assumption | with_reducible apply kept_alu | with_reducible apply kept_ite)

theorem kept_execMax {u : State} {e : Eng} {d : XReg} {a : XReg} {b : XReg} {s : State} (h4 : Kept u s) :
    ∀ t, (execMax e d a b s) = .next t → Kept u t := by
  intro t ht; unfold execMax at ht; obtain rfl := Host.Outcome.next.inj ht; try dsimp only
  repeat' (first | with_reducible assumption | with_reducible apply kept_alu | with_reducible apply kept_ite)

theorem kept_execShl {u : State} {e : Eng} {d : XReg} {a : XReg} {n : Fin 20} {s : State} (h4 : Kept u s) :
    ∀ t, (execShl e d a n s) = .next t → Kept u t := by
  intro t ht; unfold execShl at ht; obtain rfl := Host.Outcome.next.inj ht; try dsimp only
  repeat' (first
    | with_reducible assumption | with_reducible apply kept_instr | with_reducible apply kept_result
    | (intro; intros; try dsimp only))

theorem kept_execShr {u : State} {e : Eng} {d : XReg} {a : XReg} {n : Fin 20} {s : State} (h4 : Kept u s) :
    ∀ t, (execShr e d a n s) = .next t → Kept u t := by
  intro t ht; unfold execShr at ht; obtain rfl := Host.Outcome.next.inj ht; try dsimp only
  repeat' (first
    | with_reducible assumption | with_reducible apply kept_instr | with_reducible apply kept_result
    | (intro; intros; try dsimp only))

theorem kept_execAndOp {u : State} {e : Eng} {d : XReg} {a : XReg} {b : XReg} {s : State} (h4 : Kept u s) :
    ∀ t, (execAndOp e d a b s) = .next t → Kept u t := by
  intro t ht; unfold execAndOp at ht; obtain rfl := Host.Outcome.next.inj ht; try dsimp only
  repeat' (first | with_reducible assumption | with_reducible apply kept_alu)

theorem kept_execOrOp {u : State} {e : Eng} {d : XReg} {a : XReg} {b : XReg} {s : State} (h4 : Kept u s) :
    ∀ t, (execOrOp e d a b s) = .next t → Kept u t := by
  intro t ht; unfold execOrOp at ht; obtain rfl := Host.Outcome.next.inj ht; try dsimp only
  repeat' (first | with_reducible assumption | with_reducible apply kept_alu)

theorem kept_execXorOp {u : State} {e : Eng} {d : XReg} {a : XReg} {b : XReg} {s : State} (h4 : Kept u s) :
    ∀ t, (execXorOp e d a b s) = .next t → Kept u t := by
  intro t ht; unfold execXorOp at ht; obtain rfl := Host.Outcome.next.inj ht; try dsimp only
  repeat' (first | with_reducible assumption | with_reducible apply kept_alu)

theorem kept_execCmp {u : State} {e : Eng} {a : XReg} {b : XReg} {s : State} (h3 : Kept u s) :
    ∀ t, (execCmp e a b s) = .next t → Kept u t := by
  intro t ht; unfold execCmp at ht; obtain rfl := Host.Outcome.next.inj ht; try dsimp only
  repeat' (first
    | with_reducible assumption | with_reducible apply kept_instr | with_reducible apply kept_cmpStep
    | (intro; intros; try dsimp only))

theorem kept_execLd {u : State} {e : Eng} {d : XReg} {m : MemOperand} {s : State} (h3 : Kept u s) :
    ∀ t, (execLd e d m s) = .next t → Kept u t := by
  intro t ht; unfold execLd at ht; obtain rfl := Host.Outcome.next.inj ht; try dsimp only
  repeat' (first
    | with_reducible assumption | with_reducible apply kept_instr | with_reducible apply kept_loadStep
    | (intro; intros; try dsimp only))

theorem kept_execSt {u : State} {e : Eng} {m : MemOperand} {a : XReg} {s : State} (h3 : Kept u s) :
    ∀ t, (execSt e m a s) = .next t → Kept u t := by
  intro t ht; unfold execSt at ht; obtain rfl := Host.Outcome.next.inj ht; try dsimp only
  repeat' (first
    | with_reducible assumption | with_reducible apply kept_instr | with_reducible apply kept_storeStep
    | (intro; intros; try dsimp only))

theorem kept_execLdc {u : State} {e : Eng} {d : XReg} {m : MemOperand} {s : State} (h3 : Kept u s) :
    ∀ t, (execLdc e d m s) = .next t → Kept u t := by
  intro t ht; unfold execLdc at ht; obtain rfl := Host.Outcome.next.inj ht; try dsimp only
  repeat' (first
    | with_reducible assumption | with_reducible apply kept_instr | with_reducible apply kept_loadStep
    | (intro; intros; try dsimp only))

theorem kept_execStc {u : State} {e : Eng} {m : MemOperand} {a : XReg} {s : State} (h3 : Kept u s) :
    ∀ t, (execStc e m a s) = .next t → Kept u t := by
  intro t ht; unfold execStc at ht; obtain rfl := Host.Outcome.next.inj ht; try dsimp only
  repeat' (first
    | with_reducible assumption | with_reducible apply kept_instr | with_reducible apply kept_storeCoefStep
    | (intro; intros; try dsimp only))

theorem kept_execMpy {u : State} {e : Eng} {acc : Fin 2} {o : MulOperand} {s : State} (h3 : Kept u s) :
    ∀ t, (execMpy e acc o s) = .next t → Kept u t := by
  intro t ht; unfold execMpy at ht; obtain rfl := Host.Outcome.next.inj ht; try dsimp only
  repeat' (first
    | with_reducible assumption | with_reducible apply kept_instr | with_reducible apply kept_mulStep
    | (intro; intros; try dsimp only))

theorem kept_execMac {u : State} {e : Eng} {acc : Fin 2} {o : MulOperand} {s : State} (h3 : Kept u s) :
    ∀ t, (execMac e acc o s) = .next t → Kept u t := by
  intro t ht; unfold execMac at ht; obtain rfl := Host.Outcome.next.inj ht; try dsimp only
  repeat' (first
    | with_reducible assumption | with_reducible apply kept_instr | with_reducible apply kept_mulStep
    | (intro; intros; try dsimp only))

theorem kept_execMsu {u : State} {e : Eng} {acc : Fin 2} {o : MulOperand} {s : State} (h3 : Kept u s) :
    ∀ t, (execMsu e acc o s) = .next t → Kept u t := by
  intro t ht; unfold execMsu at ht; obtain rfl := Host.Outcome.next.inj ht; try dsimp only
  repeat' (first
    | with_reducible assumption | with_reducible apply kept_instr | with_reducible apply kept_mulStep
    | (intro; intros; try dsimp only))

theorem kept_execDmac {u : State} {e : Eng} {o0 : MulOperand} {o1 : MulOperand} {s : State} (h3 : Kept u s) :
    ∀ t, (execDmac e o0 o1 s) = .next t → Kept u t := by
  intro t ht; unfold execDmac at ht; obtain rfl := Host.Outcome.next.inj ht; try dsimp only
  repeat' (first
    | with_reducible assumption | with_reducible apply kept_instr | with_reducible apply kept_dualStep
    | (intro; intros; try dsimp only))

theorem kept_execDmsu {u : State} {e : Eng} {o0 : MulOperand} {o1 : MulOperand} {s : State} (h3 : Kept u s) :
    ∀ t, (execDmsu e o0 o1 s) = .next t → Kept u t := by
  intro t ht; unfold execDmsu at ht; obtain rfl := Host.Outcome.next.inj ht; try dsimp only
  repeat' (first
    | with_reducible assumption | with_reducible apply kept_instr | with_reducible apply kept_dualStep
    | (intro; intros; try dsimp only))

theorem kept_execDmpy {u : State} {e : Eng} {o0 : MulOperand} {o1 : MulOperand} {s : State} (h3 : Kept u s) :
    ∀ t, (execDmpy e o0 o1 s) = .next t → Kept u t := by
  intro t ht; unfold execDmpy at ht; obtain rfl := Host.Outcome.next.inj ht; try dsimp only
  repeat' (first
    | with_reducible assumption | with_reducible apply kept_instr | with_reducible apply kept_dualStep
    | (intro; intros; try dsimp only))

theorem kept_execClr {u : State} {e : Eng} {acc : Fin 2} {s : State} (h2 : Kept u s) :
    ∀ t, (execClr e acc s) = .next t → Kept u t := by
  intro t ht; unfold execClr at ht; obtain rfl := Host.Outcome.next.inj ht; try dsimp only
  repeat' (first
    | with_reducible assumption | with_reducible apply kept_instr | with_reducible apply kept_accResult
    | (intro; intros; try dsimp only))

theorem kept_execAsh {u : State} {e : Eng} {acc : Fin 2} {n : ℤ} {s : State} (h3 : Kept u s) :
    ∀ t, (execAsh e acc n s) = .next t → Kept u t := by
  intro t ht; unfold execAsh at ht; obtain rfl := Host.Outcome.next.inj ht; try dsimp only
  repeat' (first
    | with_reducible assumption | with_reducible apply kept_instr | with_reducible apply kept_ashStep
    | (intro; intros; try dsimp only))

theorem kept_execRnd {u : State} {e : Eng} {d : XReg} {acc : Fin 2} {s : State} (h3 : Kept u s) :
    ∀ t, (execRnd e d acc s) = .next t → Kept u t := by
  intro t ht; unfold execRnd at ht; obtain rfl := Host.Outcome.next.inj ht; try dsimp only
  repeat' (first
    | with_reducible assumption | with_reducible apply kept_instr | with_reducible apply kept_convert
    | (intro; intros; try dsimp only))

theorem kept_execRndc {u : State} {e : Eng} {d : XReg} {acc : Fin 2} {s : State} (h3 : Kept u s) :
    ∀ t, (execRndc e d acc s) = .next t → Kept u t := by
  intro t ht; unfold execRndc at ht; obtain rfl := Host.Outcome.next.inj ht; try dsimp only
  repeat' (first
    | with_reducible assumption | with_reducible apply kept_instr | with_reducible apply kept_convert
    | (intro; intros; try dsimp only))

theorem kept_execIntg {u : State} {e : Eng} {d : XReg} {state : Fin 2048} {err : XReg} {gain : MemOperand} {s : State} (h5 : Kept u s) :
    ∀ t, (execIntg e d state err gain s) = .next t → Kept u t := by
  intro t ht; unfold execIntg at ht; obtain rfl := Host.Outcome.next.inj ht; try dsimp only
  repeat' (first
    | with_reducible assumption | with_reducible apply kept_instr | with_reducible apply kept_intgStep
    | (intro; intros; try dsimp only))

theorem kept_execBiq {u : State} {e : Eng} {d : XReg} {x : XReg} {coef : Fin 512} {state : Fin 2048} {s : State} (h5 : Kept u s) :
    ∀ t, (execBiq e d x coef state s) = .next t → Kept u t := by
  intro t ht; unfold execBiq at ht; obtain rfl := Host.Outcome.next.inj ht; try dsimp only
  repeat' (first
    | with_reducible assumption | with_reducible apply kept_instr | with_reducible apply kept_biqStep
    | (intro; intros; try dsimp only))

theorem kept_execSincos {u : State} {e : Eng} {ds : XReg} {dc : XReg} {a : XReg} {s : State} (h4 : Kept u s) :
    ∀ t, (execSincos e ds dc a s) = .next t → Kept u t := by
  intro t ht; unfold execSincos at ht; obtain rfl := Host.Outcome.next.inj ht; try dsimp only
  repeat' (first
    | with_reducible assumption | with_reducible apply kept_instr | with_reducible apply kept_sincosStep
    | (intro; intros; try dsimp only))

theorem kept_execAtan2 {u : State} {e : Eng} {d : XReg} {y : XReg} {x : XReg} {s : State} (h4 : Kept u s) :
    ∀ t, (execAtan2 e d y x s) = .next t → Kept u t := by
  intro t ht; unfold execAtan2 at ht; obtain rfl := Host.Outcome.next.inj ht; try dsimp only
  repeat' (first
    | with_reducible assumption | with_reducible apply kept_instr | with_reducible apply kept_atan2Step
    | (intro; intros; try dsimp only))

theorem kept_execSqrt {u : State} {e : Eng} {d : XReg} {a : XReg} {s : State} (h3 : Kept u s) :
    ∀ t, (execSqrt e d a s) = .next t → Kept u t := by
  intro t ht; unfold execSqrt at ht; obtain rfl := Host.Outcome.next.inj ht; try dsimp only
  repeat' (first
    | with_reducible assumption | with_reducible apply kept_instr | with_reducible apply kept_sqrtStep
    | (intro; intros; try dsimp only))

theorem kept_execDiv {u : State} {e : Eng} {d : XReg} {a : XReg} {b : XReg} {s : State} (h4 : Kept u s) :
    ∀ t, (execDiv e d a b s) = .next t → Kept u t := by
  intro t ht; unfold execDiv at ht; obtain rfl := Host.Outcome.next.inj ht; try dsimp only
  repeat' (first
    | with_reducible assumption | with_reducible apply kept_instr | with_reducible apply kept_divStep
    | (intro; intros; try dsimp only))

theorem kept_execBr {u : State} {e : Eng} {target : BitVec 12} {s : State} (h2 : Kept u s) :
    ∀ t, (execBr e target s) = .next t → Kept u t := by
  intro t ht; unfold execBr at ht; obtain rfl := Host.Outcome.next.inj ht; try dsimp only
  repeat' (first
    | with_reducible assumption | with_reducible apply kept_running | with_reducible apply kept_jump
    | (intro; intros; try dsimp only))

theorem kept_execBrc {u : State} {e : Eng} {flag : BranchFlag} {target : BitVec 12} {s : State} (h3 : Kept u s) :
    ∀ t, (execBrc e flag target s) = .next t → Kept u t := by
  intro t ht; unfold execBrc at ht; obtain rfl := Host.Outcome.next.inj ht; try dsimp only
  repeat' (first
    | with_reducible assumption | with_reducible apply kept_running | with_reducible apply kept_jump
    | with_reducible apply kept_advance | with_reducible apply kept_ite | (intro; intros; try dsimp only))

theorem kept_execLoopOp {u : State} {e : Eng} {count : ℕ} {last : BitVec 12} {s : State} (h3 : Kept u s) :
    ∀ t, (execLoopOp e count last s) = .next t → Kept u t := by
  intro t ht; unfold execLoopOp at ht; obtain rfl := Host.Outcome.next.inj ht; try dsimp only
  repeat' (first
    | with_reducible assumption | with_reducible apply kept_running | with_reducible apply kept_loopStep
    | (intro; intros; try dsimp only))

theorem kept_execSetc {u : State} {e : Eng} {ix : Fin 8} {len : ℕ} {s : State} (h3 : Kept u s) :
    ∀ t, (execSetc e ix len s) = .next t → Kept u t := by
  intro t ht; unfold execSetc at ht; obtain rfl := Host.Outcome.next.inj ht; try dsimp only
  repeat' (first
    | with_reducible assumption | with_reducible apply kept_instr | with_reducible apply kept_setcStep
    | (intro; intros; try dsimp only))

theorem kept_execTrig {u : State} {e : Eng} {target : Eng} {ep : Byte} {s : State} (h3 : Kept u s) :
    ∀ t, (execTrig e target ep s) = .next t → Kept u t := by
  intro t ht; unfold execTrig at ht; obtain rfl := Host.Outcome.next.inj ht; try dsimp only
  repeat' (first
    | with_reducible assumption | with_reducible apply kept_instr | with_reducible apply kept_triggerArrive
    | (intro; intros; try dsimp only))

theorem kept_execEndAct {u : State} {e : Eng} {s : State} (h1 : Kept u s) :
    ∀ t, (execEndAct e s) = .next t → Kept u t := by
  intro t ht; unfold execEndAct at ht; obtain rfl := Host.Outcome.next.inj ht; try dsimp only
  repeat' (first | with_reducible assumption | with_reducible apply kept_endStep)

theorem kept_execIllegalInstruction {u : State} {e : Eng} {s : State} (h1 : Kept u s) :
    ∀ t, (execIllegalInstruction e s) = .next t → Kept u t := by
  intro t ht; unfold execIllegalInstruction at ht; obtain rfl := Host.Outcome.next.inj ht; try dsimp only
  repeat' (first | with_reducible assumption | with_reducible apply kept_faultHere)

theorem kept_phaseEnd {u : State} {b : Bridge} {j : Switch} {s : State} (h2 : Kept u s) :
    Kept u (phaseEnd b j s) := by
  unfold phaseEnd; try dsimp only
  repeat' (first
    | with_reducible assumption | with_reducible apply kept_modGateSw | with_reducible apply kept_showOn
    | with_reducible apply kept_ite | split)

theorem kept_slopeOver {u : State} {b : Bridge} {j : Switch} {s : State} (h2 : Kept u s) :
    Kept u (slopeOver b j s) := by
  unfold slopeOver; try dsimp only
  repeat' (first
    | with_reducible assumption | with_reducible apply kept_countBit | with_reducible apply kept_put
    | with_reducible apply kept_modGateSw | with_reducible apply kept_showOn | split)

theorem kept_watchAdmit {u : State} {b : Bridge} {j : Switch} {s : State} (h2 : Kept u s) :
    Kept u (watchAdmit b j s) := by
  unfold watchAdmit; try dsimp only
  repeat' (first
    | with_reducible assumption | with_reducible apply kept_showOn | with_reducible apply kept_modGateSw
    | with_reducible apply kept_ite)

theorem kept_watchTimeout {u : State} {b : Bridge} {j : Switch} {s : State} (h2 : Kept u s) :
    Kept u (watchTimeout b j s) := by
  unfold watchTimeout; try dsimp only
  repeat' (first
    | with_reducible assumption | with_reducible apply kept_driveBridge | with_reducible apply kept_legFault
    | with_reducible apply kept_ite)

theorem kept_sagFault {u : State} {b : Bridge} {j : Switch} {s : State} (h2 : Kept u s) :
    Kept u (sagFault b j s) := by
  unfold sagFault; try dsimp only
  repeat' (first
    | with_reducible assumption | with_reducible apply kept_countBit | with_reducible apply kept_driveBridge
    | with_reducible apply kept_legFault | with_reducible apply kept_ite)

theorem kept_hardTrip {u : State} {b : Bridge} {j : Switch} {s : State} (h2 : Kept u s) :
    Kept u (hardTrip b j s) := by
  unfold hardTrip; try dsimp only
  repeat' (first
    | with_reducible assumption | with_reducible apply kept_wearOne | with_reducible apply kept_countBit
    | with_reducible apply kept_driveBridge | with_reducible apply kept_legFault | with_reducible apply kept_ite)

theorem kept_normalTrip {u : State} {b : Bridge} {j : Switch} {s : State} (h2 : Kept u s) :
    Kept u (normalTrip b j s) := by
  unfold normalTrip; try dsimp only
  repeat' (first
    | with_reducible assumption | with_reducible apply kept_wearOne | with_reducible apply kept_countBit
    | with_reducible apply kept_driveBridge | with_reducible apply kept_legFault | with_reducible apply kept_ite)

theorem kept_releaseLeg {u : State} {b : Bridge} {s : State} {k : Fin 3} (h1 : Kept u s) :
    Kept u (releaseLeg b s k) := by
  unfold releaseLeg; try dsimp only
  repeat' (first
    | with_reducible assumption | with_reducible apply kept_putBit | with_reducible apply kept_put
    | with_reducible apply kept_ite)

theorem kept_gdCtrlWrite {u : State} {b : Bridge} {v : Word} {s : State} (h2 : Kept u s) :
    Kept u (gdCtrlWrite b v s) := by
  unfold gdCtrlWrite; try dsimp only
  repeat' (first
    | with_reducible assumption | with_reducible apply kept_regWriteWith | with_reducible apply kept_releaseLeg
    | with_reducible apply kept_soloLead | with_reducible apply kept_driveBridge | with_reducible apply kept_modGate
    | with_reducible apply kept_foldl | with_reducible apply kept_ite | (intro; intros; try dsimp only))

theorem kept_setTrim {u : State} {b : Bridge} {j : Switch} {a2 : ℤ} {s : State} (h3 : Kept u s) :
    Kept u (setTrim b j a2 s) := by
  unfold setTrim; try dsimp only
  repeat' (first | with_reducible assumption | with_reducible apply kept_putS | with_reducible apply kept_modKeep)

theorem kept_snsTrimWrite {u : State} {b : Bridge} {j : Switch} {v : Word} {s : State} (h3 : Kept u s) :
    Kept u (snsTrimWrite b j v s) := by
  unfold snsTrimWrite; try dsimp only
  repeat' (first
    | with_reducible assumption | with_reducible apply kept_regWriteWith | with_reducible apply kept_setTrim
    | (intro; intros; try dsimp only))

theorem kept_showChop {u : State} {s : State} (h0 : Kept u s) :
    Kept u (showChop s) := by
  unfold showChop; try dsimp only
  repeat' (first | with_reducible assumption | with_reducible apply kept_putB | with_reducible apply kept_modDriver)

theorem kept_vmotTaken {u : State} {v : ℕ} {s : State} (h1 : Kept u s) :
    Kept u (vmotTaken v s) := by
  unfold vmotTaken; try dsimp only
  repeat' (first
    | with_reducible assumption | with_reducible apply kept_modDriver | with_reducible apply kept_put
    | with_reducible apply kept_showChop | with_reducible apply kept_vmotUpdate | with_reducible apply kept_ite)

theorem kept_ov1Begin {u : State} {s : State} (h0 : Kept u s) :
    Kept u (ov1Begin s) := by
  unfold ov1Begin; try dsimp only
  repeat' (first
    | with_reducible assumption | with_reducible apply kept_showChop | with_reducible apply kept_wearOne
    | with_reducible apply kept_countBit | with_reducible apply kept_put | with_reducible apply kept_ite)

theorem kept_ov2Begin {u : State} {s : State} (h0 : Kept u s) :
    Kept u (ov2Begin s) := by
  unfold ov2Begin; try dsimp only
  repeat' (first
    | with_reducible assumption | with_reducible apply kept_wearOne | with_reducible apply kept_countBit
    | with_reducible apply kept_put | with_reducible apply kept_driveAll | with_reducible apply kept_mcOverVoltage
    | with_reducible apply kept_ite)

theorem kept_underBegin {u : State} {vmot : Bool} {vdrv : Bool} {s : State} (h2 : Kept u s) :
    Kept u (underBegin vmot vdrv s) := by
  unfold underBegin; try dsimp only
  repeat' (first
    | with_reducible assumption | with_reducible apply kept_when | with_reducible apply kept_put
    | with_reducible apply kept_wearOne | with_reducible apply kept_countBit | with_reducible apply kept_modDriver
    | with_reducible apply kept_withdraw | with_reducible apply kept_driveAll | with_reducible apply kept_mcOut
    | with_reducible apply kept_ite | (intro; intros; try dsimp only))

theorem kept_underEnd {u : State} {s : State} (h0 : Kept u s) :
    Kept u (underEnd s) := by
  unfold underEnd; try dsimp only
  repeat' (first
    | with_reducible assumption | with_reducible apply kept_soloLead | with_reducible apply kept_driveAll
    | with_reducible apply kept_modDriver)

theorem kept_sendFlags {u : State} {b : Bridge} {s : State} (h1 : Kept u s) :
    Kept u (sendFlags b s) := by
  unfold sendFlags; try dsimp only
  repeat' (first | with_reducible assumption | with_reducible apply kept_putB | with_reducible apply kept_modGate)

theorem kept_linkFrame {u : State} {s : State} (h0 : Kept u s) :
    Kept u (linkFrame s) := by
  unfold linkFrame; try dsimp only
  repeat' (first
    | with_reducible assumption | with_reducible apply kept_driveAll | with_reducible apply kept_sendFlags
    | with_reducible apply kept_modDriver)

theorem kept_linkLostBridge {u : State} {b : Bridge} {s : State} (h1 : Kept u s) :
    Kept u (linkLostBridge b s) := by
  unfold linkLostBridge; try dsimp only
  repeat' (first | with_reducible assumption | with_reducible apply kept_modGate | with_reducible apply kept_put)

theorem kept_linkLoss {u : State} {s : State} (h0 : Kept u s) :
    Kept u (linkLoss s) := by
  unfold linkLoss; try dsimp only
  repeat' (first
    | with_reducible assumption | with_reducible apply kept_driveAll | with_reducible apply kept_linkLostBridge
    | with_reducible apply kept_modDriver)

theorem kept_mcDriverUp {u : State} {b : Bridge} {s : State} (h1 : Kept u s) :
    Kept u (mcDriverUp b s) := by
  unfold mcDriverUp; try dsimp only
  repeat' (first | with_reducible assumption | with_reducible apply kept_put | with_reducible apply kept_vmotUpdate)

theorem kept_driverUp {u s0 : State} (h0 : Kept u s0) : Kept u (driverUp s0) := by
  unfold driverUp
  exact kept_mcDriverUp (kept_mcDriverUp (h0.upd rfl (fun w => Tab.wf_filter resetWord w _) id))

theorem kept_execConfigLinkFrame {u : State} {s : State} (h0 : Kept u s) :
    ∀ t, (execConfigLinkFrame s) = .next t → Kept u t := by
  intro t ht; unfold execConfigLinkFrame at ht; obtain rfl := Host.Outcome.next.inj ht; try dsimp only
  repeat' (first | with_reducible assumption | with_reducible apply kept_linkFrame)

theorem kept_execConfigLinkLoss {u : State} {s : State} (h0 : Kept u s) :
    ∀ t, (execConfigLinkLoss s) = .next t → Kept u t := by
  intro t ht; unfold execConfigLinkLoss at ht; obtain rfl := Host.Outcome.next.inj ht; try dsimp only
  repeat' (first | with_reducible assumption | with_reducible apply kept_linkLoss)

theorem kept_execLogicLinkLoss {u : State} {s : State} (h0 : Kept u s) :
    ∀ t, (execLogicLinkLoss s) = .next t → Kept u t := by
  intro t ht; unfold execLogicLinkLoss at ht; obtain rfl := Host.Outcome.next.inj ht; try dsimp only
  repeat' (first | with_reducible assumption | with_reducible apply kept_modSys)

theorem kept_execConfigLinkResume {u : State} {s : State} (h0 : Kept u s) :
    ∀ t, (execConfigLinkResume s) = .next t → Kept u t := by
  intro t ht; unfold execConfigLinkResume at ht; obtain rfl := Host.Outcome.next.inj ht; try dsimp only
  repeat' (first | with_reducible assumption | with_reducible apply kept_modSys)

theorem kept_commandEdge {u : State} {b : Bridge} {j : Switch} {on : Bool} {s : State} (h3 : Kept u s) :
    Kept u (commandEdge b j on s) := by
  unfold commandEdge; try dsimp only
  repeat' (first
    | with_reducible assumption | with_reducible apply kept_when | with_reducible apply kept_modGateSw
    | with_reducible apply kept_takeCommands | with_reducible apply kept_ite | (intro; intros; try dsimp only))

theorem kept_execGateCommandEdge {u : State} {b : Bridge} {j : Switch} {on : Bool} {s : State} (h3 : Kept u s) :
    ∀ t, (execGateCommandEdge b j on s) = .next t → Kept u t := by
  intro t ht; unfold execGateCommandEdge at ht; obtain rfl := Host.Outcome.next.inj ht; try dsimp only
  repeat' (first | with_reducible assumption | with_reducible apply kept_commandEdge)

theorem kept_execGateWatchAdmit {u : State} {b : Bridge} {j : Switch} {s : State} (h2 : Kept u s) :
    ∀ t, (execGateWatchAdmit b j s) = .next t → Kept u t := by
  intro t ht; unfold execGateWatchAdmit at ht; obtain rfl := Host.Outcome.next.inj ht; try dsimp only
  repeat' (first | with_reducible assumption | with_reducible apply kept_watchAdmit)

theorem kept_execGateWatchTimeout {u : State} {b : Bridge} {j : Switch} {s : State} (h2 : Kept u s) :
    ∀ t, (execGateWatchTimeout b j s) = .next t → Kept u t := by
  intro t ht; unfold execGateWatchTimeout at ht; obtain rfl := Host.Outcome.next.inj ht; try dsimp only
  repeat' (first | with_reducible assumption | with_reducible apply kept_watchTimeout)

theorem kept_execGatePhaseEnd {u : State} {b : Bridge} {j : Switch} {s : State} (h2 : Kept u s) :
    ∀ t, (execGatePhaseEnd b j s) = .next t → Kept u t := by
  intro t ht; unfold execGatePhaseEnd at ht; obtain rfl := Host.Outcome.next.inj ht; try dsimp only
  repeat' (first | with_reducible assumption | with_reducible apply kept_phaseEnd)

theorem kept_execSlopeTimeout {u : State} {b : Bridge} {j : Switch} {s : State} (h2 : Kept u s) :
    ∀ t, (execSlopeTimeout b j s) = .next t → Kept u t := by
  intro t ht; unfold execSlopeTimeout at ht; obtain rfl := Host.Outcome.next.inj ht; try dsimp only
  repeat' (first | with_reducible assumption | with_reducible apply kept_slopeOver)

theorem kept_execGateSagFault {u : State} {b : Bridge} {j : Switch} {s : State} (h2 : Kept u s) :
    ∀ t, (execGateSagFault b j s) = .next t → Kept u t := by
  intro t ht; unfold execGateSagFault at ht; obtain rfl := Host.Outcome.next.inj ht; try dsimp only
  repeat' (first | with_reducible assumption | with_reducible apply kept_sagFault)

theorem kept_execBlankingEnd {u : State} {b : Bridge} {j : Switch} {s : State} (h2 : Kept u s) :
    ∀ t, (execBlankingEnd b j s) = .next t → Kept u t := by
  intro t ht; unfold execBlankingEnd at ht; obtain rfl := Host.Outcome.next.inj ht; try dsimp only
  repeat' (first | with_reducible assumption | with_reducible apply kept_modGateSw)

theorem kept_execHardShortTrip {u : State} {b : Bridge} {j : Switch} {s : State} (h2 : Kept u s) :
    ∀ t, (execHardShortTrip b j s) = .next t → Kept u t := by
  intro t ht; unfold execHardShortTrip at ht; obtain rfl := Host.Outcome.next.inj ht; try dsimp only
  repeat' (first | with_reducible assumption | with_reducible apply kept_hardTrip)

theorem kept_execNormalShortTrip {u : State} {b : Bridge} {j : Switch} {s : State} (h2 : Kept u s) :
    ∀ t, (execNormalShortTrip b j s) = .next t → Kept u t := by
  intro t ht; unfold execNormalShortTrip at ht; obtain rfl := Host.Outcome.next.inj ht; try dsimp only
  repeat' (first | with_reducible assumption | with_reducible apply kept_normalTrip)

theorem kept_execLegEnable {u : State} {b : Bridge} {legs : BitVec 3} {s : State} (h2 : Kept u s) :
    ∀ t, (execLegEnable b legs s) = .next t → Kept u t := by
  intro t ht; unfold execLegEnable at ht
  refine kept_clockedOut (by assumption) ?_ t ht; clear ht t; intro t ht; obtain rfl := Host.Outcome.next.inj ht; try dsimp only
  repeat' (first
    | with_reducible assumption | with_reducible apply kept_driverAccess | with_reducible apply kept_gdCtrlWrite
    | (intro; intros; try dsimp only))

theorem kept_execVmotMeasure {u : State} {v : BitVec 16} {s : State} (h1 : Kept u s) :
    ∀ t, (execVmotMeasure v s) = .next t → Kept u t := by
  intro t ht; unfold execVmotMeasure at ht; obtain rfl := Host.Outcome.next.inj ht; try dsimp only
  repeat' (first | with_reducible assumption | with_reducible apply kept_vmotTaken)

theorem kept_execOv1Reached {u : State} {s : State} (h0 : Kept u s) :
    ∀ t, (execOv1Reached s) = .next t → Kept u t := by
  intro t ht; unfold execOv1Reached at ht; obtain rfl := Host.Outcome.next.inj ht; try dsimp only
  repeat' (first | with_reducible assumption | with_reducible apply kept_ov1Begin)

theorem kept_execOv1Ended {u : State} {s : State} (h0 : Kept u s) :
    ∀ t, (execOv1Ended s) = .next t → Kept u t := by
  intro t ht; unfold execOv1Ended at ht; obtain rfl := Host.Outcome.next.inj ht; try dsimp only
  repeat' (first | with_reducible assumption | with_reducible apply kept_showChop | with_reducible apply kept_put)

theorem kept_execOv2Reached {u : State} {s : State} (h0 : Kept u s) :
    ∀ t, (execOv2Reached s) = .next t → Kept u t := by
  intro t ht; unfold execOv2Reached at ht; obtain rfl := Host.Outcome.next.inj ht; try dsimp only
  repeat' (first | with_reducible assumption | with_reducible apply kept_ov2Begin)

theorem kept_execOv2Ended {u : State} {s : State} (h0 : Kept u s) :
    ∀ t, (execOv2Ended s) = .next t → Kept u t := by
  intro t ht; unfold execOv2Ended at ht; obtain rfl := Host.Outcome.next.inj ht; try dsimp only
  repeat' (first | with_reducible assumption | with_reducible apply kept_driveAll | with_reducible apply kept_put)

theorem kept_execUndervoltageBegin {u : State} {vmot : Bool} {vdrv : Bool} {s : State} (h2 : Kept u s) :
    ∀ t, (execUndervoltageBegin vmot vdrv s) = .next t → Kept u t := by
  intro t ht; unfold execUndervoltageBegin at ht; obtain rfl := Host.Outcome.next.inj ht; try dsimp only
  repeat' (first | with_reducible assumption | with_reducible apply kept_underBegin)

theorem kept_execUndervoltageEnd {u : State} {s : State} (h0 : Kept u s) :
    ∀ t, (execUndervoltageEnd s) = .next t → Kept u t := by
  intro t ht; unfold execUndervoltageEnd at ht; obtain rfl := Host.Outcome.next.inj ht; try dsimp only
  repeat' (first | with_reducible assumption | with_reducible apply kept_underEnd)

theorem kept_execDriverPowerUp {u : State} {s : State} (h0 : Kept u s) :
    ∀ t, (execDriverPowerUp s) = .next t → Kept u t := by
  intro t ht; unfold execDriverPowerUp at ht; obtain rfl := Host.Outcome.next.inj ht; try dsimp only
  repeat' (first | with_reducible assumption | with_reducible apply kept_driverUp)

end Sys2Proof.Machine
end

