-- ==== Sys2Proof/Laws/KeptCont.lean ====
section
/-!
SUPPORT. What every operation of Machine/Ebpen.lean, Machine/Cont.lean, Machine/Cut.lean, Machine/Float.lean, Machine/Cores.lean, Machine/Rv.lean keeps: the queue of waiting commands and the canonical forms of
memory and registers. One lemma per operation, cited by the lemmas of the operations that call it.
-/
set_option Elab.async false
set_option linter.unusedTactic false
set_option linter.unreachableTactic false
namespace Sys2Proof.Machine

theorem kept_showEdeg {u : State} {s : State} (h0 : Kept u s) :
    Kept u (showEdeg s) := by
  unfold showEdeg; try dsimp only
  repeat' (first | with_reducible assumption | with_reducible apply kept_putB)

theorem kept_edegCheck {u : State} {s : State} (h0 : Kept u s) :
    Kept u (edegCheck s) := by
  unfold edegCheck; try dsimp only
  repeat' (first
    | with_reducible assumption | with_reducible apply kept_judgeSet | with_reducible apply kept_showEdeg
    | with_reducible apply kept_modCont | with_reducible apply kept_ite)

theorem kept_showLinks {u : State} {s : State} (h0 : Kept u s) :
    Kept u (showLinks s) := by
  unfold showLinks; try dsimp only
  repeat' (first
    | with_reducible assumption | with_reducible apply kept_putB | with_reducible apply kept_foldl
    | (intro; intros; try dsimp only))

theorem kept_joinCheck {u : State} {s : State} (h0 : Kept u s) :
    Kept u (joinCheck s) := by
  unfold joinCheck; try dsimp only
  repeat' (first
    | with_reducible assumption | with_reducible apply kept_modCont | with_reducible apply kept_put
    | with_reducible apply kept_ite)

theorem kept_enterStandIn {u : State} {s : State} (h0 : Kept u s) :
    Kept u (enterStandIn s) := by
  unfold enterStandIn; try dsimp only
  repeat' (first
    | with_reducible assumption | with_reducible apply kept_put | with_reducible apply kept_modCont
    | with_reducible apply kept_judgeSet | with_reducible apply kept_ite)

theorem kept_declareLost {u : State} {l : Lane} {kind : ℕ} {s : State} (h2 : Kept u s) :
    Kept u (declareLost l kind s) := by
  unfold declareLost; try dsimp only
  repeat' (first
    | with_reducible assumption | with_reducible apply kept_joinedDrop | with_reducible apply kept_put
    | with_reducible apply kept_sendNotice | with_reducible apply kept_ite)

theorem kept_setEdeg {u : State} {l : Lane} {s : State} (h1 : Kept u s) :
    Kept u (setEdeg l s) := by
  unfold setEdeg; try dsimp only
  repeat' (first
    | with_reducible assumption | with_reducible apply kept_modCont | with_reducible apply kept_degrade
    | with_reducible apply kept_showEdeg | with_reducible apply kept_declareLost | with_reducible apply kept_ite)

theorem kept_standInCheck {u : State} {l : Lane} {s : State} (h1 : Kept u s) :
    Kept u (standInCheck l s) := by
  unfold standInCheck; try dsimp only
  repeat' (first
    | with_reducible assumption | with_reducible apply kept_declareLost | with_reducible apply kept_setEdeg
    | with_reducible apply kept_ite)

theorem kept_loseLink {u : State} {e : Port} {s : State} (h1 : Kept u s) :
    Kept u (loseLink e s) := by
  unfold loseLink; try dsimp only
  repeat' (first
    | with_reducible assumption | with_reducible apply kept_countBit | with_reducible apply kept_put
    | with_reducible apply kept_showLinks | with_reducible apply kept_modEbp | with_reducible apply kept_standInCheck
    | with_reducible apply kept_joinedDrop | with_reducible apply kept_setEdeg | with_reducible apply kept_ite
    | split)

theorem kept_twoLeads {u : State} {other : ℕ} {s : State} (h1 : Kept u s) :
    Kept u (twoLeads other s) := by
  unfold twoLeads; try dsimp only
  repeat' (first
    | with_reducible assumption | with_reducible apply kept_put | with_reducible apply kept_sendNotice
    | with_reducible apply kept_followVotes | with_reducible apply kept_degrade | with_reducible apply kept_modCont
    | with_reducible apply kept_ite | split)

theorem kept_lateClaim {u : State} {s : State} (h0 : Kept u s) :
    Kept u (lateClaim s) := by
  unfold lateClaim; try dsimp only
  repeat' (first
    | with_reducible assumption | with_reducible apply kept_becomeLead | with_reducible apply kept_modCont
    | with_reducible apply kept_ite)

theorem kept_windowEnd {u : State} {s : State} (h0 : Kept u s) :
    Kept u (windowEnd s) := by
  unfold windowEnd; try dsimp only
  repeat' (first
    | with_reducible assumption | with_reducible apply kept_put | with_reducible apply kept_becomeLead
    | with_reducible apply kept_modCont | with_reducible apply kept_judgeSet | with_reducible apply kept_joinCheck
    | with_reducible apply kept_holdEnd | with_reducible apply kept_ite | split)

theorem kept_driveReadyCont {u : State} {s : State} (h0 : Kept u s) :
    Kept u (driveReadyCont s) := by
  unfold driveReadyCont; try dsimp only
  repeat' (first
    | with_reducible assumption | with_reducible apply kept_modCont | with_reducible apply kept_soloLead
    | with_reducible apply kept_enterStandIn | with_reducible apply kept_put | with_reducible apply kept_ite)

theorem kept_holdBegin {u : State} {s : State} (h0 : Kept u s) :
    Kept u (holdBegin s) := by
  unfold holdBegin; try dsimp only
  repeat' (first
    | with_reducible assumption | with_reducible apply kept_put | with_reducible apply kept_modCont
    | with_reducible apply kept_holdCheck)

theorem kept_slateAgain {u : State} {s : State} (h0 : Kept u s) :
    Kept u (slateAgain s) := by
  unfold slateAgain; try dsimp only
  repeat' (first
    | with_reducible assumption | with_reducible apply kept_slateSend | with_reducible apply kept_modEbp
    | with_reducible apply kept_ite)

theorem kept_restartOuter {u : State} {s : State} (h0 : Kept u s) :
    Kept u (restartOuter s) := by
  unfold restartOuter; try dsimp only
  repeat' (first
    | with_reducible assumption | with_reducible apply kept_slateAgain | with_reducible apply kept_outerTick
    | with_reducible apply kept_ite)

theorem kept_leaveRole {u : State} {a0 : Transfer} {s : State} (h1 : Kept u s) :
    Kept u (leaveRole a0 s) := by
  unfold leaveRole; try dsimp only
  repeat' (first
    | with_reducible assumption | with_reducible apply kept_modCont | with_reducible apply kept_put
    | with_reducible apply kept_followVotes | with_reducible apply kept_ite)

theorem kept_takeOver {u : State} {a0 : Transfer} {s : State} (h1 : Kept u s) :
    Kept u (takeOver a0 s) := by
  unfold takeOver; try dsimp only
  repeat' (first
    | with_reducible assumption | with_reducible apply kept_put | with_reducible apply kept_beat
    | with_reducible apply kept_becomeLead | with_reducible apply kept_modCont | with_reducible apply kept_ite)

theorem kept_transferOne {u : State} {s : State} {a1 : Transfer} (h0 : Kept u s) :
    Kept u (transferOne s a1) := by
  unfold transferOne; try dsimp only
  repeat' (first
    | with_reducible assumption | with_reducible apply kept_put | with_reducible apply kept_degrade
    | with_reducible apply kept_joinedDrop | with_reducible apply kept_putShares
    | with_reducible apply kept_leaveRole | with_reducible apply kept_takeOver | with_reducible apply kept_ite)

theorem kept_transferTick {u : State} {s : State} (h0 : Kept u s) :
    Kept u (transferTick s) := by
  unfold transferTick; try dsimp only
  repeat' (first
    | with_reducible assumption | with_reducible apply kept_modCont | with_reducible apply kept_restartOuter
    | with_reducible apply kept_transferOne | with_reducible apply kept_representDemand
    | with_reducible apply kept_holdBegin | with_reducible apply kept_setShares | with_reducible apply kept_foldl
    | with_reducible apply kept_ite | (intro; intros; try dsimp only) | split)

theorem kept_frameIn_heardBeat {u : State} {e : Port} {l : Lane} {s : State} (h2 : Kept u s) :
    Kept u (frameIn.heardBeat e l s) := by
  unfold frameIn.heardBeat; try dsimp only
  repeat' (first
    | with_reducible assumption | with_reducible apply kept_modEbp | with_reducible apply kept_edegCheck
    | with_reducible apply kept_showLinks | with_reducible apply kept_put | with_reducible apply kept_ite)

theorem kept_frameIn {u : State} {e : Port} {ty : ℕ} {len : ℕ} {f : EbpFrame} {act : Lane → State → State} {s : State} (h4 : ∀ t0 t1, Kept u t1 → Kept u (act t0 t1)) (h5 : Kept u s) :
    Kept u (frameIn e ty len f act s) := by
  unfold frameIn; try dsimp only
  repeat' (first
    | with_reducible assumption | with_reducible apply h4 | with_reducible apply kept_countBit
    | with_reducible apply kept_modPeer | with_reducible apply kept_inc | with_reducible apply kept_frameIn_heardBeat
    | with_reducible apply kept_modLines | with_reducible apply kept_ite | (intro; intros; try dsimp only) | split)

theorem kept_forwardFrame {u : State} {ty : ℕ} {f : EbpFrame} {from_ : Port} {s : State} (h3 : Kept u s) :
    Kept u (forwardFrame ty f from_ s) := by
  unfold forwardFrame; try dsimp only
  repeat' (first
    | with_reducible assumption | with_reducible apply kept_sendOn | with_reducible apply kept_foldl
    | with_reducible apply kept_ite | (intro; intros; try dsimp only) | split)

theorem kept_noticeIn {u : State} {e : Port} {f : EbpFrame} {s : State} (h2 : Kept u s) :
    Kept u (noticeIn e f s) := by
  unfold noticeIn; try dsimp only
  repeat' (first
    | with_reducible assumption | with_reducible apply kept_frameIn | with_reducible apply kept_forwardFrame
    | with_reducible apply kept_joinedDrop | with_reducible apply kept_holdTransfer
    | with_reducible apply kept_withdraw | with_reducible apply kept_degrade | with_reducible apply kept_put
    | with_reducible apply kept_ite | (intro; intros; try dsimp only))

theorem kept_claimIn {u : State} {e : Port} {f : EbpFrame} {s : State} (h2 : Kept u s) :
    Kept u (claimIn e f s) := by
  unfold claimIn; try dsimp only
  repeat' (first
    | with_reducible assumption | with_reducible apply kept_frameIn | with_reducible apply kept_modCont
    | with_reducible apply kept_twoLeads | with_reducible apply kept_put | with_reducible apply kept_putShares
    | with_reducible apply kept_holdEnd | with_reducible apply kept_judgeSet | with_reducible apply kept_joinCheck
    | with_reducible apply kept_enterStandIn | with_reducible apply kept_ite | (intro; intros; try dsimp only))

theorem kept_exchangeIn {u : State} {e : Port} {first : ℕ} {words : ℕ} {f : EbpFrame} {s : State} (h4 : Kept u s) :
    Kept u (exchangeIn e first words f s) := by
  unfold exchangeIn; try dsimp only
  repeat' (first
    | with_reducible assumption | with_reducible apply kept_put | with_reducible apply kept_setMem20
    | with_reducible apply kept_triggerArrive | with_reducible apply kept_foldl | with_reducible apply kept_ite
    | (intro; intros; try dsimp only) | split)

theorem kept_holdOperation {u : State} {o : SetOp} {s : State} (h1 : Kept u s) :
    Kept u (holdOperation o s) := by
  unfold holdOperation; try dsimp only
  repeat' (first | with_reducible assumption | with_reducible apply kept_modCont)

theorem kept_applyOperation {u : State} {s : State} (h0 : Kept u s) :
    Kept u (applyOperation s) := by
  unfold applyOperation; try dsimp only
  repeat' (first | with_reducible assumption | with_reducible apply kept_modCont | split)

theorem kept_setOpIn {u : State} {e : Port} {f : EbpFrame} {s : State} (h2 : Kept u s) :
    Kept u (setOpIn e f s) := by
  unfold setOpIn; try dsimp only
  repeat' (first
    | with_reducible assumption | with_reducible apply kept_frameIn | with_reducible apply kept_holdOperation
    | with_reducible apply kept_forwardFrame | (intro; intros; try dsimp only))

theorem kept_vote {u : State} {l : Lane} {s : State} (h1 : Kept u s) :
    Kept u (vote l s) := by
  unfold vote; try dsimp only
  repeat' (first
    | with_reducible assumption | with_reducible apply kept_modCont | with_reducible apply kept_withdraw
    | with_reducible apply kept_degrade | with_reducible apply kept_put | with_reducible apply kept_ite | split)

theorem kept_announce {u : State} {l : ℕ} {ready : Bool} {holds : Bool} {s : State} (h3 : Kept u s) :
    Kept u (announce l ready holds s) := by
  unfold announce; try dsimp only
  repeat' (first | with_reducible assumption | with_reducible apply kept_modCont)

theorem kept_beatIn {u : State} {e : Port} {f : EbpFrame} {s : State} (h2 : Kept u s) :
    Kept u (beatIn e f s) := by
  unfold beatIn; try dsimp only
  repeat' (first
    | with_reducible assumption | with_reducible apply kept_frameIn | with_reducible apply kept_modPeer
    | with_reducible apply kept_put | with_reducible apply kept_when | with_reducible apply kept_modCont
    | with_reducible apply kept_announce | with_reducible apply kept_holdEnd | with_reducible apply kept_holdBegin
    | with_reducible apply kept_borrowFrame | with_reducible apply kept_edegCheck | with_reducible apply kept_vote
    | with_reducible apply kept_enterStandIn | with_reducible apply kept_judgeSet | with_reducible apply kept_ite
    | (intro; intros; try dsimp only))

theorem kept_beatOut {u : State} {s : State} (h0 : Kept u s) :
    Kept u (beatOut s) := by
  unfold beatOut; try dsimp only
  repeat' (first
    | with_reducible assumption | with_reducible apply kept_sendFrame | with_reducible apply kept_drew
    | with_reducible apply kept_ite)

theorem kept_memberFault {u : State} {l : Lane} {s : State} (h1 : Kept u s) :
    Kept u (memberFault l s) := by
  unfold memberFault; try dsimp only
  repeat' (first | with_reducible assumption | with_reducible apply kept_modCont)

theorem kept_formIn {u : State} {e : Port} {f : EbpFrame} {s : State} (h2 : Kept u s) :
    Kept u (formIn e f s) := by
  unfold formIn; try dsimp only
  repeat' (first
    | with_reducible assumption | with_reducible apply kept_memberFault | with_reducible apply kept_frameIn
    | with_reducible apply kept_modPeer | with_reducible apply kept_announce | with_reducible apply kept_ite
    | (intro; intros; try dsimp only) | split)

theorem kept_showWords {u : State} {p : List Byte} {s : State} (h1 : Kept u s) :
    Kept u (showWords p s) := by
  unfold showWords; try dsimp only
  repeat' (first
    | with_reducible assumption | with_reducible apply kept_put | with_reducible apply kept_foldl
    | (intro; intros; try dsimp only))

theorem kept_carried {u : State} {f : ContFrame} {s : State} (h1 : Kept u s) :
    Kept u (carried f s) := by
  unfold carried; try dsimp only
  repeat' (first
    | with_reducible assumption | with_reducible apply kept_withdraw | with_reducible apply kept_modCont
    | with_reducible apply kept_ite)

theorem kept_compareFrame {u : State} {f : ContFrame} {s : State} (h1 : Kept u s) :
    Kept u (compareFrame f s) := by
  unfold compareFrame; try dsimp only
  repeat' (first
    | with_reducible assumption | with_reducible apply kept_modCont | with_reducible apply kept_countBit
    | with_reducible apply kept_degrade | with_reducible apply kept_put | with_reducible apply kept_ite)

theorem kept_contIn {u : State} {e : Port} {f : EbpFrame} {s : State} (h2 : Kept u s) :
    Kept u (contIn e f s) := by
  unfold contIn; try dsimp only
  repeat' (first
    | with_reducible assumption | with_reducible apply kept_frameIn | with_reducible apply kept_showWords
    | with_reducible apply kept_modCont | with_reducible apply kept_put | with_reducible apply kept_compareFrame
    | with_reducible apply kept_countBit | with_reducible apply kept_edegCheck | with_reducible apply kept_carried
    | with_reducible apply kept_ite | (intro; intros; try dsimp only))

theorem kept_slot {u : State} {s : State} (h0 : Kept u s) :
    Kept u (slot s) := by
  unfold slot; try dsimp only
  repeat' (first
    | with_reducible assumption | with_reducible apply kept_sendFrame | with_reducible apply kept_ite | split)

theorem kept_leadCheck {u : State} {s : State} (h0 : Kept u s) :
    Kept u (leadCheck s) := by
  unfold leadCheck; try dsimp only
  repeat' (first
    | with_reducible assumption | with_reducible apply kept_declareLost | with_reducible apply kept_setEdeg
    | with_reducible apply kept_ite | split)

theorem kept_slotCheck {u : State} {s : State} (h0 : Kept u s) :
    Kept u (slotCheck s) := by
  unfold slotCheck; try dsimp only
  repeat' (first
    | with_reducible assumption | with_reducible apply kept_modCont | with_reducible apply kept_leadCheck
    | with_reducible apply kept_countBit | with_reducible apply kept_ite)

theorem kept_noteAccepted {u : State} {l : Lane} {s : State} (h1 : Kept u s) :
    Kept u (noteAccepted l s) := by
  unfold noteAccepted; try dsimp only
  repeat' (first | with_reducible assumption | with_reducible apply kept_modCont | with_reducible apply kept_modPeer)

theorem kept_shareIn {u : State} {e : Port} {f : EbpFrame} {s : State} (h2 : Kept u s) :
    Kept u (shareIn e f s) := by
  unfold shareIn; try dsimp only
  repeat' (first
    | with_reducible assumption | with_reducible apply kept_frameIn | with_reducible apply kept_modCont
    | with_reducible apply kept_sendFrame | with_reducible apply kept_noteAccepted | with_reducible apply kept_put
    | with_reducible apply kept_ite | (intro; intros; try dsimp only) | with_reducible refine kept_mk ?_ rfl rfl rfl)

theorem kept_sendTrain {u : State} {e : Port} {s : State} (h1 : Kept u s) :
    Kept u (sendTrain e s) := by
  unfold sendTrain; try dsimp only
  repeat' (first
    | with_reducible assumption | with_reducible apply kept_modEbp | with_reducible apply kept_countSeq
    | with_reducible apply kept_drew | with_reducible apply kept_inc | with_reducible apply kept_ite)

theorem kept_trainIn {u : State} {e : Port} {f : EbpFrame} {s : State} (h2 : Kept u s) :
    Kept u (trainIn e f s) := by
  unfold trainIn; try dsimp only
  repeat' (first
    | with_reducible assumption | with_reducible apply kept_frameIn | with_reducible apply kept_put
    | with_reducible apply kept_sendTrain | with_reducible apply kept_ite | (intro; intros; try dsimp only))

theorem kept_trainingEnds {u : State} {e : Port} {trained : Bool} {rtt : ℕ} {turnaround : ℕ} {peer : Lane} {s : State} (h5 : Kept u s) :
    Kept u (trainingEnds e trained rtt turnaround peer s) := by
  unfold trainingEnds; try dsimp only
  repeat' (first
    | with_reducible assumption | with_reducible apply kept_modEbp | with_reducible apply kept_put
    | with_reducible apply kept_drew | with_reducible apply kept_showLinks | with_reducible apply kept_loseLink
    | with_reducible apply kept_ite)

theorem kept_retrain {u : State} {e : Port} {s : State} (h1 : Kept u s) :
    Kept u (retrain e s) := by
  unfold retrain; try dsimp only
  repeat' (first
    | with_reducible assumption | with_reducible apply kept_modEbp | with_reducible apply kept_put
    | with_reducible apply kept_showLinks | with_reducible apply kept_sendTrain | with_reducible apply kept_ite)

theorem kept_codeError {u : State} {e : Port} {s : State} (h1 : Kept u s) :
    Kept u (codeError e s) := by
  unfold codeError; try dsimp only
  repeat' (first
    | with_reducible assumption | with_reducible apply kept_countBit | with_reducible apply kept_modEbp
    | with_reducible apply kept_loseLink | with_reducible apply kept_ite)

theorem kept_slateIn {u : State} {e : Port} {ticks : ℕ} {outer : Bool} {s : State} (h3 : Kept u s) :
    Kept u (slateIn e ticks outer s) := by
  unfold slateIn; try dsimp only
  repeat' (first
    | with_reducible assumption | with_reducible apply kept_modEbp | with_reducible apply kept_putS
    | with_reducible apply kept_put | with_reducible apply kept_modAng | with_reducible apply kept_ite)

theorem kept_beatEdge {u : State} {i : Fin 2} {level : Bool} {s : State} (h2 : Kept u s) :
    Kept u (beatEdge i level s) := by
  unfold beatEdge; try dsimp only
  repeat' (first
    | with_reducible assumption | with_reducible apply kept_modCont | with_reducible apply kept_modPeer
    | with_reducible apply kept_putB | with_reducible apply kept_twoLeads | with_reducible apply kept_put
    | with_reducible apply kept_ite | split)

theorem kept_beatStopped {u : State} {i : Fin 2} {s : State} (h1 : Kept u s) :
    Kept u (beatStopped i s) := by
  unfold beatStopped; try dsimp only
  repeat' (first
    | with_reducible assumption | with_reducible apply kept_put | with_reducible apply kept_degrade
    | with_reducible apply kept_leadCheck | with_reducible apply kept_standInCheck | with_reducible apply kept_ite
    | split)

theorem kept_withdrawRequest {u : State} {s : State} (h0 : Kept u s) :
    Kept u (withdrawRequest s) := by
  unfold withdrawRequest; try dsimp only
  repeat' (first
    | with_reducible assumption | with_reducible apply kept_withdraw | with_reducible apply kept_put
    | with_reducible apply kept_ite)

theorem kept_swapRequest {u : State} {s : State} (h0 : Kept u s) :
    Kept u (swapRequest s) := by
  unfold swapRequest; try dsimp only
  repeat' (first
    | with_reducible assumption | with_reducible apply kept_put | with_reducible apply kept_modCont
    | with_reducible apply kept_ite)

theorem kept_switchGo {u : State} {s : State} (h0 : Kept u s) :
    Kept u (switchGo s) := by
  unfold switchGo; try dsimp only
  repeat' (first
    | with_reducible assumption | with_reducible apply kept_put | with_reducible apply kept_switchStep
    | with_reducible apply kept_ite)

theorem kept_handover {u : State} {s : State} (h0 : Kept u s) :
    Kept u (handover s) := by
  unfold handover; try dsimp only
  repeat' (first
    | with_reducible assumption | with_reducible apply kept_put | with_reducible apply kept_sendTransfer
    | with_reducible apply kept_ite)

theorem kept_laneStatusOut {u : State} {s : State} (h0 : Kept u s) :
    Kept u (laneStatusOut s) := by
  unfold laneStatusOut; try dsimp only
  repeat' (first | with_reducible assumption | with_reducible apply kept_canSend | with_reducible apply kept_modCont)

theorem kept_laneStatusIn {u : State} {net : Fin 2} {l : Lane} {p : List Byte} {s : State} (h3 : Kept u s) :
    Kept u (laneStatusIn net l p s) := by
  unfold laneStatusIn; try dsimp only
  repeat' (first
    | with_reducible assumption | with_reducible apply kept_modPeer | with_reducible apply kept_put
    | with_reducible apply kept_twoLeads | with_reducible apply kept_declareLost | with_reducible apply kept_ite)

theorem kept_laneStatusGone {u : State} {l : Lane} {s : State} (h1 : Kept u s) :
    Kept u (laneStatusGone l s) := by
  unfold laneStatusGone; try dsimp only
  repeat' (first
    | with_reducible assumption | with_reducible apply kept_modPeer | with_reducible apply kept_put
    | with_reducible apply kept_declareLost | with_reducible apply kept_ite)

theorem kept_xrefDeadline {u : State} {s : State} (h0 : Kept u s) :
    Kept u (xrefDeadline s) := by
  unfold xrefDeadline; try dsimp only
  repeat' (first
    | with_reducible assumption | with_reducible apply kept_modCont | with_reducible apply kept_joinedDrop
    | with_reducible apply kept_ite)

theorem kept_chassisIn {u : State} {net : Fin 2} {data : List Byte} {s : State} (h2 : Kept u s) :
    Kept u (chassisIn net data s) := by
  unfold chassisIn; try dsimp only
  repeat' (first
    | with_reducible assumption | with_reducible apply kept_modCont | with_reducible apply kept_canSend
    | with_reducible apply kept_drew | with_reducible apply kept_holdOperation | with_reducible apply kept_sendFrame
    | with_reducible apply kept_ite)

theorem kept_confirmationIn {u : State} {a0 : ℕ} {s : State} (h1 : Kept u s) :
    Kept u (confirmationIn a0 s) := by
  unfold confirmationIn; try dsimp only
  repeat' (first | with_reducible assumption | with_reducible apply kept_modCont)

theorem kept_execLinkTrainingDone {u : State} {e : Port} {trained : Bool} {rtt : ℕ} {turnaround : ℕ} {peer : Lane} {s : State} (h5 : Kept u s) :
    ∀ t, (execLinkTrainingDone e trained rtt turnaround peer s) = .next t → Kept u t := by
  intro t ht; unfold execLinkTrainingDone at ht
  refine kept_clockedOut (by assumption) ?_ t ht; clear ht t; intro t ht; obtain rfl := Host.Outcome.next.inj ht; try dsimp only
  repeat' (first | with_reducible assumption | with_reducible apply kept_trainingEnds)

theorem kept_execLinkLost {u : State} {e : Port} {s : State} (h1 : Kept u s) :
    ∀ t, (execLinkLost e s) = .next t → Kept u t := by
  intro t ht; unfold execLinkLost at ht
  refine kept_clockedOut (by assumption) ?_ t ht; clear ht t; intro t ht; obtain rfl := Host.Outcome.next.inj ht; try dsimp only
  repeat' (first | with_reducible assumption | with_reducible apply kept_loseLink)

theorem kept_execLinkRetrain {u : State} {e : Port} {s : State} (h1 : Kept u s) :
    ∀ t, (execLinkRetrain e s) = .next t → Kept u t := by
  intro t ht; unfold execLinkRetrain at ht
  refine kept_clockedOut (by assumption) ?_ t ht; clear ht t; intro t ht; obtain rfl := Host.Outcome.next.inj ht; try dsimp only
  repeat' (first | with_reducible assumption | with_reducible apply kept_retrain | with_reducible apply kept_ite)

theorem kept_execRetrainRequest {u : State} {e : Port} {s : State} (h1 : Kept u s) :
    ∀ t, (execRetrainRequest e s) = .next t → Kept u t := by
  intro t ht; unfold execRetrainRequest at ht
  refine kept_clockedOut (by assumption) ?_ t ht; clear ht t; intro t ht; obtain rfl := Host.Outcome.next.inj ht; try dsimp only
  repeat' (first
    | with_reducible assumption | with_reducible apply kept_retrain | with_reducible apply kept_put
    | with_reducible apply kept_ite)

theorem kept_execNoticeReceived {u : State} {e : Port} {f : EbpFrame} {s : State} (h2 : Kept u s) :
    ∀ t, (execNoticeReceived e f s) = .next t → Kept u t := by
  intro t ht; unfold execNoticeReceived at ht
  refine kept_clockedOut (by assumption) ?_ t ht; clear ht t; intro t ht; obtain rfl := Host.Outcome.next.inj ht; try dsimp only
  repeat' (first | with_reducible assumption | with_reducible apply kept_noticeIn)

theorem kept_execClaimReceived {u : State} {e : Port} {f : EbpFrame} {s : State} (h2 : Kept u s) :
    ∀ t, (execClaimReceived e f s) = .next t → Kept u t := by
  intro t ht; unfold execClaimReceived at ht
  refine kept_clockedOut (by assumption) ?_ t ht; clear ht t; intro t ht; obtain rfl := Host.Outcome.next.inj ht; try dsimp only
  repeat' (first | with_reducible assumption | with_reducible apply kept_claimIn)

theorem kept_execXcurReceived {u : State} {e : Port} {f : EbpFrame} {s : State} (h2 : Kept u s) :
    ∀ t, (execXcurReceived e f s) = .next t → Kept u t := by
  intro t ht; unfold execXcurReceived at ht
  refine kept_clockedOut (by assumption) ?_ t ht; clear ht t; intro t ht; obtain rfl := Host.Outcome.next.inj ht; try dsimp only
  repeat' (first
    | with_reducible assumption | with_reducible apply kept_frameIn | with_reducible apply kept_exchangeIn
    | (intro; intros; try dsimp only))

theorem kept_execXrefReceived {u : State} {e : Port} {f : EbpFrame} {s : State} (h2 : Kept u s) :
    ∀ t, (execXrefReceived e f s) = .next t → Kept u t := by
  intro t ht; unfold execXrefReceived at ht
  refine kept_clockedOut (by assumption) ?_ t ht; clear ht t; intro t ht; obtain rfl := Host.Outcome.next.inj ht; try dsimp only
  repeat' (first
    | with_reducible assumption | with_reducible apply kept_frameIn | with_reducible apply kept_exchangeIn
    | with_reducible apply kept_modCont | (intro; intros; try dsimp only))

theorem kept_execSetopReceived {u : State} {e : Port} {f : EbpFrame} {s : State} (h2 : Kept u s) :
    ∀ t, (execSetopReceived e f s) = .next t → Kept u t := by
  intro t ht; unfold execSetopReceived at ht
  refine kept_clockedOut (by assumption) ?_ t ht; clear ht t; intro t ht; obtain rfl := Host.Outcome.next.inj ht; try dsimp only
  repeat' (first | with_reducible assumption | with_reducible apply kept_setOpIn)

theorem kept_execSetopApply {u : State} {s : State} (h0 : Kept u s) :
    ∀ t, (execSetopApply s) = .next t → Kept u t := by
  intro t ht; unfold execSetopApply at ht
  refine kept_clockedOut (by assumption) ?_ t ht; clear ht t; intro t ht; obtain rfl := Host.Outcome.next.inj ht; try dsimp only
  repeat' (first | with_reducible assumption | with_reducible apply kept_applyOperation)

theorem kept_execBeatReceived {u : State} {e : Port} {f : EbpFrame} {s : State} (h2 : Kept u s) :
    ∀ t, (execBeatReceived e f s) = .next t → Kept u t := by
  intro t ht; unfold execBeatReceived at ht
  refine kept_clockedOut (by assumption) ?_ t ht; clear ht t; intro t ht; obtain rfl := Host.Outcome.next.inj ht; try dsimp only
  repeat' (first | with_reducible assumption | with_reducible apply kept_beatIn)

theorem kept_execBeatSend {u : State} {s : State} (h0 : Kept u s) :
    ∀ t, (execBeatSend s) = .next t → Kept u t := by
  intro t ht; unfold execBeatSend at ht
  refine kept_clockedOut (by assumption) ?_ t ht; clear ht t; intro t ht; obtain rfl := Host.Outcome.next.inj ht; try dsimp only
  repeat' (first | with_reducible assumption | with_reducible apply kept_beatOut)

theorem kept_execContFrameReceived {u : State} {e : Port} {f : EbpFrame} {s : State} (h2 : Kept u s) :
    ∀ t, (execContFrameReceived e f s) = .next t → Kept u t := by
  intro t ht; unfold execContFrameReceived at ht
  refine kept_clockedOut (by assumption) ?_ t ht; clear ht t; intro t ht; obtain rfl := Host.Outcome.next.inj ht; try dsimp only
  repeat' (first | with_reducible assumption | with_reducible apply kept_contIn)

theorem kept_execContinuitySlot {u : State} {s : State} (h0 : Kept u s) :
    ∀ t, (execContinuitySlot s) = .next t → Kept u t := by
  intro t ht; unfold execContinuitySlot at ht
  refine kept_clockedOut (by assumption) ?_ t ht; clear ht t; intro t ht; obtain rfl := Host.Outcome.next.inj ht; try dsimp only
  repeat' (first | with_reducible assumption | with_reducible apply kept_slot)

theorem kept_execShareReceived {u : State} {e : Port} {f : EbpFrame} {s : State} (h2 : Kept u s) :
    ∀ t, (execShareReceived e f s) = .next t → Kept u t := by
  intro t ht; unfold execShareReceived at ht
  refine kept_clockedOut (by assumption) ?_ t ht; clear ht t; intro t ht; obtain rfl := Host.Outcome.next.inj ht; try dsimp only
  repeat' (first | with_reducible assumption | with_reducible apply kept_shareIn)

theorem kept_execFormReceived {u : State} {e : Port} {f : EbpFrame} {s : State} (h2 : Kept u s) :
    ∀ t, (execFormReceived e f s) = .next t → Kept u t := by
  intro t ht; unfold execFormReceived at ht
  refine kept_clockedOut (by assumption) ?_ t ht; clear ht t; intro t ht; obtain rfl := Host.Outcome.next.inj ht; try dsimp only
  repeat' (first | with_reducible assumption | with_reducible apply kept_formIn)

theorem kept_execTrainReceived {u : State} {e : Port} {f : EbpFrame} {s : State} (h2 : Kept u s) :
    ∀ t, (execTrainReceived e f s) = .next t → Kept u t := by
  intro t ht; unfold execTrainReceived at ht
  refine kept_clockedOut (by assumption) ?_ t ht; clear ht t; intro t ht; obtain rfl := Host.Outcome.next.inj ht; try dsimp only
  repeat' (first | with_reducible assumption | with_reducible apply kept_trainIn)

theorem kept_execFormationWindowEnd {u : State} {s : State} (h0 : Kept u s) :
    ∀ t, (execFormationWindowEnd s) = .next t → Kept u t := by
  intro t ht; unfold execFormationWindowEnd at ht
  refine kept_clockedOut (by assumption) ?_ t ht; clear ht t; intro t ht; obtain rfl := Host.Outcome.next.inj ht; try dsimp only
  repeat' (first | with_reducible assumption | with_reducible apply kept_windowEnd)

theorem kept_execSlateReceived {u : State} {e : Port} {ticks : Fin 4} {outer : Bool} {s : State} (h3 : Kept u s) :
    ∀ t, (execSlateReceived e ticks outer s) = .next t → Kept u t := by
  intro t ht; unfold execSlateReceived at ht
  refine kept_clockedOut (by assumption) ?_ t ht; clear ht t; intro t ht; obtain rfl := Host.Outcome.next.inj ht; try dsimp only
  repeat' (first | with_reducible assumption | with_reducible apply kept_slateIn)

theorem kept_execLeadinEdge {u : State} {i : Fin 2} {level : Bool} {s : State} (h2 : Kept u s) :
    ∀ t, (execLeadinEdge i level s) = .next t → Kept u t := by
  intro t ht; unfold execLeadinEdge at ht
  refine kept_clockedOut (by assumption) ?_ t ht; clear ht t; intro t ht; obtain rfl := Host.Outcome.next.inj ht; try dsimp only
  repeat' (first | with_reducible assumption | with_reducible apply kept_beatEdge)

theorem kept_execBeatStopTimeout {u : State} {i : Fin 2} {s : State} (h1 : Kept u s) :
    ∀ t, (execBeatStopTimeout i s) = .next t → Kept u t := by
  intro t ht; unfold execBeatStopTimeout at ht
  refine kept_clockedOut (by assumption) ?_ t ht; clear ht t; intro t ht; obtain rfl := Host.Outcome.next.inj ht; try dsimp only
  repeat' (first | with_reducible assumption | with_reducible apply kept_beatStopped)

theorem kept_execContinuityCheck {u : State} {s : State} (h0 : Kept u s) :
    ∀ t, (execContinuityCheck s) = .next t → Kept u t := by
  intro t ht; unfold execContinuityCheck at ht
  refine kept_clockedOut (by assumption) ?_ t ht; clear ht t; intro t ht; obtain rfl := Host.Outcome.next.inj ht; try dsimp only
  repeat' (first | with_reducible assumption | with_reducible apply kept_slotCheck)

theorem kept_execClaimWaitTimeout {u : State} {s : State} (h0 : Kept u s) :
    ∀ t, (execClaimWaitTimeout s) = .next t → Kept u t := by
  intro t ht; unfold execClaimWaitTimeout at ht
  refine kept_clockedOut (by assumption) ?_ t ht; clear ht t; intro t ht; obtain rfl := Host.Outcome.next.inj ht; try dsimp only
  repeat' (first | with_reducible assumption | with_reducible apply kept_lateClaim)

theorem kept_execWithdrawRequest {u : State} {s : State} (h0 : Kept u s) :
    ∀ t, (execWithdrawRequest s) = .next t → Kept u t := by
  intro t ht; unfold execWithdrawRequest at ht
  refine kept_clockedOut (by assumption) ?_ t ht; clear ht t; intro t ht; obtain rfl := Host.Outcome.next.inj ht; try dsimp only
  repeat' (first | with_reducible assumption | with_reducible apply kept_withdrawRequest)

theorem kept_execSwapRequest {u : State} {bank : Bool} {s : State} (h1 : Kept u s) :
    ∀ t, (execSwapRequest bank s) = .next t → Kept u t := by
  intro t ht; unfold execSwapRequest at ht
  refine kept_clockedOut (by assumption) ?_ t ht; clear ht t; intro t ht; obtain rfl := Host.Outcome.next.inj ht; try dsimp only
  repeat' (first | with_reducible assumption | with_reducible apply kept_swapRequest | with_reducible apply kept_putB)

theorem kept_execSwitchbackGo {u : State} {s : State} (h0 : Kept u s) :
    ∀ t, (execSwitchbackGo s) = .next t → Kept u t := by
  intro t ht; unfold execSwitchbackGo at ht
  refine kept_clockedOut (by assumption) ?_ t ht; clear ht t; intro t ht; obtain rfl := Host.Outcome.next.inj ht; try dsimp only
  repeat' (first | with_reducible assumption | with_reducible apply kept_switchGo)

theorem kept_execPlannedHandover {u : State} {s : State} (h0 : Kept u s) :
    ∀ t, (execPlannedHandover s) = .next t → Kept u t := by
  intro t ht; unfold execPlannedHandover at ht
  refine kept_clockedOut (by assumption) ?_ t ht; clear ht t; intro t ht; obtain rfl := Host.Outcome.next.inj ht; try dsimp only
  repeat' (first | with_reducible assumption | with_reducible apply kept_handover)

theorem kept_execLaneStatusSend {u : State} {s : State} (h0 : Kept u s) :
    ∀ t, (execLaneStatusSend s) = .next t → Kept u t := by
  intro t ht; unfold execLaneStatusSend at ht
  refine kept_clockedOut (by assumption) ?_ t ht; clear ht t; intro t ht; obtain rfl := Host.Outcome.next.inj ht; try dsimp only
  repeat' (first | with_reducible assumption | with_reducible apply kept_laneStatusOut)

theorem kept_execLaneStatusReceived {u : State} {net : Fin 2} {peer : Lane} {data : List Byte} {s : State} (h3 : Kept u s) :
    ∀ t, (execLaneStatusReceived net peer data s) = .next t → Kept u t := by
  intro t ht; unfold execLaneStatusReceived at ht
  refine kept_clockedOut (by assumption) ?_ t ht; clear ht t; intro t ht; obtain rfl := Host.Outcome.next.inj ht; try dsimp only
  repeat' (first | with_reducible assumption | with_reducible apply kept_laneStatusIn)

theorem kept_execLaneStatusTimeout {u : State} {peer : Lane} {s : State} (h1 : Kept u s) :
    ∀ t, (execLaneStatusTimeout peer s) = .next t → Kept u t := by
  intro t ht; unfold execLaneStatusTimeout at ht
  refine kept_clockedOut (by assumption) ?_ t ht; clear ht t; intro t ht; obtain rfl := Host.Outcome.next.inj ht; try dsimp only
  repeat' (first | with_reducible assumption | with_reducible apply kept_laneStatusGone)

theorem kept_execXrefDeadline {u : State} {s : State} (h0 : Kept u s) :
    ∀ t, (execXrefDeadline s) = .next t → Kept u t := by
  intro t ht; unfold execXrefDeadline at ht
  refine kept_clockedOut (by assumption) ?_ t ht; clear ht t; intro t ht; obtain rfl := Host.Outcome.next.inj ht; try dsimp only
  repeat' (first | with_reducible assumption | with_reducible apply kept_xrefDeadline)

theorem kept_execChassisBroadcastReceived {u : State} {net : Fin 2} {data : List Byte} {s : State} (h2 : Kept u s) :
    ∀ t, (execChassisBroadcastReceived net data s) = .next t → Kept u t := by
  intro t ht; unfold execChassisBroadcastReceived at ht
  refine kept_clockedOut (by assumption) ?_ t ht; clear ht t; intro t ht; obtain rfl := Host.Outcome.next.inj ht; try dsimp only
  repeat' (first | with_reducible assumption | with_reducible apply kept_chassisIn)

theorem kept_execCodeViolation {u : State} {e : Port} {s : State} (h1 : Kept u s) :
    ∀ t, (execCodeViolation e s) = .next t → Kept u t := by
  intro t ht; unfold execCodeViolation at ht
  refine kept_clockedOut (by assumption) ?_ t ht; clear ht t; intro t ht; obtain rfl := Host.Outcome.next.inj ht; try dsimp only
  repeat' (first | with_reducible assumption | with_reducible apply kept_codeError)

theorem kept_pllWindow {u : State} {vrcDev : ℤ} {aorcDev : ℤ} {s : State} (h2 : Kept u s) :
    Kept u (pllWindow vrcDev aorcDev s) := by
  unfold pllWindow; try dsimp only
  repeat' (first
    | with_reducible assumption | with_reducible apply kept_drew | with_reducible apply kept_putS
    | with_reducible apply kept_when | with_reducible apply kept_put | with_reducible apply kept_modSys
    | with_reducible apply kept_setCut | with_reducible apply kept_ite | (intro; intros; try dsimp only))

theorem kept_vrcWindow {u : State} {vrcDev : ℤ} {s : State} (h1 : Kept u s) :
    Kept u (vrcWindow vrcDev s) := by
  unfold vrcWindow; try dsimp only
  repeat' (first
    | with_reducible assumption | with_reducible apply kept_drew | with_reducible apply kept_putS
    | with_reducible apply kept_modSys | with_reducible apply kept_when | with_reducible apply kept_put
    | with_reducible apply kept_setCut | with_reducible apply kept_ite | (intro; intros; try dsimp only))

theorem kept_monitorWindow {u : State} {vrcDev : ℤ} {aorcDev : Option ℤ} {s : State} (h2 : Kept u s) :
    Kept u (monitorWindow vrcDev aorcDev s) := by
  unfold monitorWindow; try dsimp only
  repeat' (first
    | with_reducible assumption | with_reducible apply kept_pllWindow | with_reducible apply kept_vrcWindow
    | with_reducible apply kept_ite | split)

theorem kept_lockLost {u : State} {s : State} (h0 : Kept u s) :
    Kept u (lockLost s) := by
  unfold lockLost; try dsimp only
  repeat' (first
    | with_reducible assumption | with_reducible apply kept_setCut | with_reducible apply kept_modSys
    | with_reducible apply kept_put | with_reducible apply kept_ite)

theorem kept_kick {u : State} {s : State} (h0 : Kept u s) :
    Kept u (kick s) := by
  unfold kick; try dsimp only
  repeat' (first | with_reducible assumption | with_reducible apply kept_modSafe)

theorem kept_watchdogOut {u : State} {s : State} (h0 : Kept u s) :
    Kept u (watchdogOut s) := by
  unfold watchdogOut; try dsimp only
  repeat' (first
    | with_reducible assumption | with_reducible apply kept_setCut | with_reducible apply kept_when
    | with_reducible apply kept_ite | (intro; intros; try dsimp only))

theorem kept_vLockstep {u : State} {s : State} (h0 : Kept u s) :
    Kept u (vLockstep s) := by
  unfold vLockstep; try dsimp only
  repeat' (first | with_reducible assumption | with_reducible apply kept_setCut | with_reducible apply kept_ite)

theorem kept_vNetstop {u : State} {s : State} (h0 : Kept u s) :
    Kept u (vNetstop s) := by
  unfold vNetstop; try dsimp only
  repeat' (first | with_reducible assumption | with_reducible apply kept_setCut | with_reducible apply kept_ite)

theorem kept_safeCutWrite {u : State} {v : Word} {s : State} (h1 : Kept u s) :
    Kept u (safeCutWrite v s) := by
  unfold safeCutWrite; try dsimp only
  repeat' (first
    | with_reducible assumption | with_reducible apply kept_regWriteWith | with_reducible apply kept_when
    | with_reducible apply kept_kick | with_reducible apply kept_setCut | with_reducible apply kept_clearingEdge
    | (intro; intros; try dsimp only))

theorem kept_causeWrite {u : State} {mask : ℕ} {s : State} (h1 : Kept u s) :
    Kept u (causeWrite mask s) := by
  unfold causeWrite; try dsimp only
  repeat' (first | with_reducible assumption | with_reducible apply kept_put | with_reducible apply kept_ite)

theorem kept_resumeEdge {u : State} {rising : Bool} {lowMs : ℕ} {s : State} (h2 : Kept u s) :
    Kept u (resumeEdge rising lowMs s) := by
  unfold resumeEdge; try dsimp only
  repeat' (first
    | with_reducible assumption | with_reducible apply kept_modSafe | with_reducible apply kept_put
    | with_reducible apply kept_clearingEdge | with_reducible apply kept_ite)

theorem kept_resumeJam {u : State} {s : State} (h0 : Kept u s) :
    Kept u (resumeJam s) := by
  unfold resumeJam; try dsimp only
  repeat' (first
    | with_reducible assumption | with_reducible apply kept_modSafe | with_reducible apply kept_countBit
    | with_reducible apply kept_put | with_reducible apply kept_ite)

theorem kept_armExpires {u : State} {s : State} (h0 : Kept u s) :
    Kept u (armExpires s) := by
  unfold armExpires; try dsimp only
  repeat' (first
    | with_reducible assumption | with_reducible apply kept_modSafe | with_reducible apply kept_put | split)

theorem kept_closeRequest {u : State} {b : Bridge} {s : State} (h1 : Kept u s) :
    Kept u (closeRequest b s) := by
  unfold closeRequest; try dsimp only
  repeat' (first
    | with_reducible assumption | with_reducible apply kept_isoClose | with_reducible apply kept_put
    | with_reducible apply kept_ite)

theorem kept_openRequest {u : State} {b : Bridge} {s : State} (h1 : Kept u s) :
    Kept u (openRequest b s) := by
  unfold openRequest; try dsimp only
  repeat' (first | with_reducible assumption | with_reducible apply kept_isoOpen)

theorem kept_closeWrite {u : State} {v : Word} {s : State} (h1 : Kept u s) :
    Kept u (closeWrite v s) := by
  unfold closeWrite; try dsimp only
  repeat' (first
    | with_reducible assumption | with_reducible apply kept_closeRequest | with_reducible apply kept_openRequest
    | with_reducible apply kept_ite)

theorem kept_otherLate {u : State} {i : Fin 4} {s : State} (h1 : Kept u s) :
    Kept u (otherLate i s) := by
  unfold otherLate; try dsimp only
  repeat' (first | with_reducible assumption | with_reducible apply kept_putBit | with_reducible apply kept_ite)

theorem kept_failClosed {u : State} {i : Fin 4} {s : State} (h1 : Kept u s) :
    Kept u (failClosed i s) := by
  unfold failClosed; try dsimp only
  repeat' (first
    | with_reducible assumption | with_reducible apply kept_setCut | with_reducible apply kept_isoOpen
    | with_reducible apply kept_putBit)

theorem kept_feedback {u : State} {i : Fin 4} {isOpen : Bool} {s : State} (h2 : Kept u s) :
    Kept u (feedback i isOpen s) := by
  unfold feedback; try dsimp only
  repeat' (first
    | with_reducible assumption | with_reducible apply kept_putBit | with_reducible apply kept_modSafe
    | with_reducible apply kept_failClosed | with_reducible apply kept_confirmOpen | with_reducible apply kept_ite)

theorem kept_feedbackLate {u : State} {i : Fin 4} {s : State} (h1 : Kept u s) :
    Kept u (feedbackLate i s) := by
  unfold feedbackLate; try dsimp only
  repeat' (first
    | with_reducible assumption | with_reducible apply kept_modSafe | with_reducible apply kept_failClosed
    | with_reducible apply kept_otherLate | with_reducible apply kept_setCut | with_reducible apply kept_putBit
    | with_reducible apply kept_ite)

theorem kept_execClockMonitorWindow {u : State} {vrcDev : ℤ} {aorcDev : Option ℤ} {s : State} (h2 : Kept u s) :
    ∀ t, (execClockMonitorWindow vrcDev aorcDev s) = .next t → Kept u t := by
  intro t ht; unfold execClockMonitorWindow at ht; obtain rfl := Host.Outcome.next.inj ht; try dsimp only
  repeat' (first | with_reducible assumption | with_reducible apply kept_monitorWindow)

theorem kept_execPllLossOfLock {u : State} {s : State} (h0 : Kept u s) :
    ∀ t, (execPllLossOfLock s) = .next t → Kept u t := by
  intro t ht; unfold execPllLossOfLock at ht; obtain rfl := Host.Outcome.next.inj ht; try dsimp only
  repeat' (first | with_reducible assumption | with_reducible apply kept_lockLost)

theorem kept_execVLockstepReaction {u : State} {s : State} (h0 : Kept u s) :
    ∀ t, (execVLockstepReaction s) = .next t → Kept u t := by
  intro t ht; unfold execVLockstepReaction at ht; obtain rfl := Host.Outcome.next.inj ht; try dsimp only
  repeat' (first | with_reducible assumption | with_reducible apply kept_vLockstep)

theorem kept_execVNetstopReaction {u : State} {s : State} (h0 : Kept u s) :
    ∀ t, (execVNetstopReaction s) = .next t → Kept u t := by
  intro t ht; unfold execVNetstopReaction at ht; obtain rfl := Host.Outcome.next.inj ht; try dsimp only
  repeat' (first | with_reducible assumption | with_reducible apply kept_vNetstop)

theorem kept_execSupervisorKick {u : State} {s : State} (h0 : Kept u s) :
    ∀ t, (execSupervisorKick s) = .next t → Kept u t := by
  intro t ht; unfold execSupervisorKick at ht
  refine kept_byV (by assumption) ?_ t ht; clear ht t; intro t ht; obtain rfl := Host.Outcome.next.inj ht; try dsimp only
  repeat' (first | with_reducible assumption | with_reducible apply kept_safeCutWrite)

theorem kept_execSupervisorWatchdogExpiry {u : State} {s : State} (h0 : Kept u s) :
    ∀ t, (execSupervisorWatchdogExpiry s) = .next t → Kept u t := by
  intro t ht; unfold execSupervisorWatchdogExpiry at ht; obtain rfl := Host.Outcome.next.inj ht; try dsimp only
  repeat' (first | with_reducible assumption | with_reducible apply kept_watchdogOut)

theorem kept_execCutSetCommand {u : State} {cause : BitVec 4} {s : State} (h1 : Kept u s) :
    ∀ t, (execCutSetCommand cause s) = .next t → Kept u t := by
  intro t ht; unfold execCutSetCommand at ht
  refine kept_byV (by assumption) ?_ t ht; clear ht t; intro t ht; obtain rfl := Host.Outcome.next.inj ht; try dsimp only
  repeat' (first | with_reducible assumption | with_reducible apply kept_safeCutWrite)

theorem kept_execCommandClear {u : State} {s : State} (h0 : Kept u s) :
    ∀ t, (execCommandClear s) = .next t → Kept u t := by
  intro t ht; unfold execCommandClear at ht
  refine kept_byV (by assumption) ?_ t ht; clear ht t; intro t ht; obtain rfl := Host.Outcome.next.inj ht; try dsimp only
  repeat' (first | with_reducible assumption | with_reducible apply kept_safeCutWrite)

theorem kept_execCauseClear {u : State} {mask : BitVec 10} {s : State} (h1 : Kept u s) :
    ∀ t, (execCauseClear mask s) = .next t → Kept u t := by
  intro t ht; unfold execCauseClear at ht
  refine kept_byV (by assumption) ?_ t ht; clear ht t; intro t ht; obtain rfl := Host.Outcome.next.inj ht; try dsimp only
  repeat' (first | with_reducible assumption | with_reducible apply kept_causeWrite)

theorem kept_execStopNLowQualified {u : State} {s : State} (h0 : Kept u s) :
    ∀ t, (execStopNLowQualified s) = .next t → Kept u t := by
  intro t ht; unfold execStopNLowQualified at ht; obtain rfl := Host.Outcome.next.inj ht; try dsimp only
  repeat' (first | with_reducible assumption | with_reducible apply kept_setCut | with_reducible apply kept_put)

theorem kept_execStopNHighQualified {u : State} {s : State} (h0 : Kept u s) :
    ∀ t, (execStopNHighQualified s) = .next t → Kept u t := by
  intro t ht; unfold execStopNHighQualified at ht; obtain rfl := Host.Outcome.next.inj ht; try dsimp only
  repeat' (first | with_reducible assumption | with_reducible apply kept_put)

theorem kept_execResumePulse {u : State} {rising : Bool} {lowMs : ℕ} {s : State} (h2 : Kept u s) :
    ∀ t, (execResumePulse rising lowMs s) = .next t → Kept u t := by
  intro t ht; unfold execResumePulse at ht; obtain rfl := Host.Outcome.next.inj ht; try dsimp only
  repeat' (first | with_reducible assumption | with_reducible apply kept_resumeEdge)

theorem kept_execResumeJam {u : State} {s : State} (h0 : Kept u s) :
    ∀ t, (execResumeJam s) = .next t → Kept u t := by
  intro t ht; unfold execResumeJam at ht; obtain rfl := Host.Outcome.next.inj ht; try dsimp only
  repeat' (first | with_reducible assumption | with_reducible apply kept_resumeJam)

theorem kept_execResumeJamClear {u : State} {s : State} (h0 : Kept u s) :
    ∀ t, (execResumeJamClear s) = .next t → Kept u t := by
  intro t ht; unfold execResumeJamClear at ht; obtain rfl := Host.Outcome.next.inj ht; try dsimp only
  repeat' (first | with_reducible assumption | with_reducible apply kept_put)

theorem kept_execArmWindowExpiry {u : State} {s : State} (h0 : Kept u s) :
    ∀ t, (execArmWindowExpiry s) = .next t → Kept u t := by
  intro t ht; unfold execArmWindowExpiry at ht; obtain rfl := Host.Outcome.next.inj ht; try dsimp only
  repeat' (first | with_reducible assumption | with_reducible apply kept_armExpires)

theorem kept_execIsolationClose {u : State} {b : Bridge} {s : State} (h1 : Kept u s) :
    ∀ t, (execIsolationClose b s) = .next t → Kept u t := by
  intro t ht; unfold execIsolationClose at ht
  refine kept_byV (by assumption) ?_ t ht; clear ht t; intro t ht; obtain rfl := Host.Outcome.next.inj ht; try dsimp only
  repeat' (first | with_reducible assumption | with_reducible apply kept_closeRequest)

theorem kept_execIsolationOpen {u : State} {b : Bridge} {s : State} (h1 : Kept u s) :
    ∀ t, (execIsolationOpen b s) = .next t → Kept u t := by
  intro t ht; unfold execIsolationOpen at ht
  refine kept_byV (by assumption) ?_ t ht; clear ht t; intro t ht; obtain rfl := Host.Outcome.next.inj ht; try dsimp only
  repeat' (first | with_reducible assumption | with_reducible apply kept_openRequest)

theorem kept_execIsoFeedbackChange {u : State} {i : Fin 4} {isOpen : Bool} {s : State} (h2 : Kept u s) :
    ∀ t, (execIsoFeedbackChange i isOpen s) = .next t → Kept u t := by
  intro t ht; unfold execIsoFeedbackChange at ht; obtain rfl := Host.Outcome.next.inj ht; try dsimp only
  repeat' (first | with_reducible assumption | with_reducible apply kept_feedback)

theorem kept_execIsoFeedbackTimeout {u : State} {i : Fin 4} {s : State} (h1 : Kept u s) :
    ∀ t, (execIsoFeedbackTimeout i s) = .next t → Kept u t := by
  intro t ht; unfold execIsoFeedbackTimeout at ht; obtain rfl := Host.Outcome.next.inj ht; try dsimp only
  repeat' (first | with_reducible assumption | with_reducible apply kept_feedbackLate)

theorem kept_modCopies {u : State} {p : Pair} {f : Copy → Copy} {s : State} (h2 : Kept u s) :
    Kept u (modCopies p f s) := by
  unfold modCopies; try dsimp only
  repeat' (first | with_reducible assumption | with_reducible apply kept_modCore)

theorem kept_progressed {u : State} {p : Pair} {g : Progress} {s : State} (h2 : Kept u s) :
    Kept u (progressed p g s) := by
  unfold progressed; try dsimp only
  repeat' (first
    | with_reducible assumption | with_reducible apply kept_modCore | with_reducible apply kept_foldl
    | (intro; intros; try dsimp only))

theorem kept_trapPair {u : State} {p : Pair} {cause : ℕ} {tval : ℕ} {s : State} (h3 : Kept u s) :
    Kept u (trapPair p cause tval s) := by
  unfold trapPair; try dsimp only
  repeat' (first | with_reducible assumption | with_reducible apply kept_modCopies)

theorem kept_raiseTo {u : State} {r : Requester} {cause : ℕ} {addr : ℕ} {s : State} (h3 : Kept u s) :
    Kept u (raiseTo r cause addr s) := by
  unfold raiseTo; try dsimp only
  repeat' (first | with_reducible assumption | with_reducible apply kept_trapPair | split)

theorem kept_busAccess {u : State} {r : Requester} {addr : ℕ} {write : Bool} {act : State → State} {s : State} (h3 : ∀ t0, Kept u t0 → Kept u (act t0)) (h4 : Kept u s) :
    Kept u (busAccess r addr write act s) := by
  unfold busAccess; try dsimp only
  repeat' (first
    | with_reducible assumption | with_reducible apply h3 | with_reducible apply kept_busError
    | with_reducible apply kept_raiseTo | with_reducible apply kept_regAccess | with_reducible apply kept_refuse
    | with_reducible apply kept_ite | (intro; intros; try dsimp only))

theorem kept_lockstepCapture {u : State} {p : Pair} {violation : Bool} {groups : List ℕ} {parity : List ℕ} {s : State} (h4 : Kept u s) :
    Kept u (lockstepCapture p violation groups parity s) := by
  unfold lockstepCapture; try dsimp only
  repeat' (first
    | with_reducible assumption | with_reducible apply kept_putBit | with_reducible apply kept_drew
    | with_reducible apply kept_put | with_reducible apply kept_putB | with_reducible apply kept_raise
    | with_reducible apply kept_ite)

theorem kept_lockstepHit {u : State} {p : Pair} {f : LockstepFinding} {s : State} (h2 : Kept u s) :
    Kept u (lockstepHit p f s) := by
  unfold lockstepHit; try dsimp only
  repeat' (first | with_reducible assumption | with_reducible apply kept_lockstepCapture)

theorem kept_groupHit {u : State} {p : Pair} {g : ℕ} {s : State} (h2 : Kept u s) :
    Kept u (groupHit p g s) := by
  unfold groupHit; try dsimp only
  repeat' (first | with_reducible assumption | with_reducible apply kept_lockstepCapture)

theorem kept_faultClear {u : State} {p : Pair} {s : State} (h1 : Kept u s) :
    Kept u (faultClear p s) := by
  unfold faultClear; try dsimp only
  repeat' (first | with_reducible assumption | with_reducible apply kept_putBit | with_reducible apply kept_wr)

theorem kept_driveSignature {u : State} {p : Pair} {s : State} (h1 : Kept u s) :
    Kept u (driveSignature p s) := by
  unfold driveSignature; try dsimp only
  repeat' (first
    | with_reducible assumption | with_reducible apply kept_modCore | with_reducible apply kept_groupHit
    | with_reducible apply kept_ite)

theorem kept_checkpoint {u : State} {p : Pair} {g : Progress} {s : State} (h2 : Kept u s) :
    Kept u (checkpoint p g s) := by
  unfold checkpoint; try dsimp only
  repeat' (first
    | with_reducible assumption | with_reducible apply kept_progressed | with_reducible apply kept_driveSignature
    | with_reducible apply kept_trapPair | with_reducible apply kept_ite)

theorem kept_dcacheInvalidate {u : State} {p : Pair} {addr : Word} {s : State} (h2 : Kept u s) :
    Kept u (dcacheInvalidate p addr s) := by
  unfold dcacheInvalidate; try dsimp only
  repeat' (first | with_reducible assumption | with_reducible apply kept_modCore | with_reducible apply kept_ite)

theorem kept_icacheInvalidate {u : State} {p : Pair} {s : State} (h1 : Kept u s) :
    Kept u (icacheInvalidate p s) := by
  unfold icacheInvalidate; try dsimp only
  repeat' (first | with_reducible assumption | with_reducible apply kept_modCore)

theorem kept_holdPair {u : State} {p : Pair} {s : State} (h1 : Kept u s) :
    Kept u (holdPair p s) := by
  unfold holdPair; try dsimp only
  repeat' (first
    | with_reducible assumption | with_reducible apply kept_putBit | with_reducible apply kept_modCont
    | with_reducible apply kept_ungate | with_reducible apply kept_modCore | with_reducible apply kept_ite)

theorem kept_releasePair {u : State} {p : Pair} {s : State} (h1 : Kept u s) :
    Kept u (releasePair p s) := by
  unfold releasePair; try dsimp only
  repeat' (first
    | with_reducible assumption | with_reducible apply kept_modCopies | with_reducible apply kept_putBit
    | with_reducible apply kept_ite)

theorem kept_holdWrite {u : State} {mask : ℕ} {s : State} (h1 : Kept u s) :
    Kept u (holdWrite mask s) := by
  unfold holdWrite; try dsimp only
  repeat' (first
    | with_reducible assumption | with_reducible apply kept_holdPair | with_reducible apply kept_putBit
    | with_reducible apply kept_releasePair | with_reducible apply kept_foldl | with_reducible apply kept_ite
    | (intro; intros; try dsimp only))

theorem kept_asyncInput {u : State} {p : Pair} {input : Fin 32} {a : Bool} {b : Bool} {s : State} (h4 : Kept u s) :
    Kept u (asyncInput p input a b s) := by
  unfold asyncInput; try dsimp only
  repeat' (first
    | with_reducible assumption | with_reducible apply kept_modCore | with_reducible apply kept_ungate
    | with_reducible apply kept_count | with_reducible apply kept_ite)

theorem kept_injectionStart {u : State} {pairs : ℕ} {s : State} (h1 : Kept u s) :
    Kept u (injectionStart pairs s) := by
  unfold injectionStart; try dsimp only
  repeat' (first | with_reducible assumption | with_reducible apply kept_put | with_reducible apply kept_ite)

theorem kept_injectionResult {u : State} {l : List PairTest} {s : State} (h1 : Kept u s) :
    Kept u (injectionResult l s) := by
  unfold injectionResult; try dsimp only
  repeat' (first
    | with_reducible assumption | with_reducible apply kept_put | with_reducible apply kept_putB
    | with_reducible apply kept_foldl | (intro; intros; try dsimp only) | split)

theorem kept_injectionDone {u : State} {r : List PairTest} {s : State} (h1 : Kept u s) :
    Kept u (injectionDone r s) := by
  unfold injectionDone; try dsimp only
  repeat' (first
    | with_reducible assumption | with_reducible apply kept_put | with_reducible apply kept_injectionResult
    | with_reducible apply kept_ite)

theorem kept_halted {u : State} {p : Pair} {g : Progress} {s : State} (h2 : Kept u s) :
    Kept u (halted p g s) := by
  unfold halted; try dsimp only
  repeat' (first
    | with_reducible assumption | with_reducible apply kept_drew | with_reducible apply kept_putBit
    | with_reducible apply kept_modCopies | with_reducible apply kept_progressed)

theorem kept_debugHalt {u : State} {p : Pair} {g : Progress} {s : State} (h2 : Kept u s) :
    Kept u (debugHalt p g s) := by
  unfold debugHalt; try dsimp only
  repeat' (first
    | with_reducible assumption | with_reducible apply kept_withdraw | with_reducible apply kept_modCont
    | with_reducible apply kept_halted | with_reducible apply kept_ite)

theorem kept_debugResume {u : State} {p : Pair} {s : State} (h1 : Kept u s) :
    Kept u (debugResume p s) := by
  unfold debugResume; try dsimp only
  repeat' (first
    | with_reducible assumption | with_reducible apply kept_putBit | with_reducible apply kept_soloLead
    | with_reducible apply kept_modCont | with_reducible apply kept_ite)

theorem kept_debugTrigger {u : State} {p : Pair} {index : ℕ} {v : Word} {s : State} (h3 : Kept u s) :
    Kept u (debugTrigger p index v s) := by
  unfold debugTrigger; try dsimp only
  repeat' (first | with_reducible assumption | with_reducible apply kept_modCopies | with_reducible apply kept_ite)

theorem kept_execGafferRestart {u : State} {s : State} (h0 : Kept u s) :
    ∀ t, (execGafferRestart s) = .next t → Kept u t := by
  intro t ht; unfold execGafferRestart at ht; obtain rfl := Host.Outcome.next.inj ht; try dsimp only
  repeat' (first | with_reducible assumption | with_reducible apply kept_modSys | with_reducible apply kept_ite)

theorem kept_execBuserrValidClear {u : State} {s : State} (h0 : Kept u s) :
    ∀ t, (execBuserrValidClear s) = .next t → Kept u t := by
  intro t ht; unfold execBuserrValidClear at ht; obtain rfl := Host.Outcome.next.inj ht; try dsimp only
  repeat' (first | with_reducible assumption | with_reducible apply kept_put)

theorem kept_execDcacheInvalidate {u : State} {p : Pair} {addr : Word} {s : State} (h2 : Kept u s) :
    ∀ t, (execDcacheInvalidate p addr s) = .next t → Kept u t := by
  intro t ht; unfold execDcacheInvalidate at ht; obtain rfl := Host.Outcome.next.inj ht; try dsimp only
  repeat' (first
    | with_reducible assumption | with_reducible apply kept_dcacheInvalidate | with_reducible apply kept_ite)

theorem kept_execFenceI {u : State} {p : Pair} {s : State} (h1 : Kept u s) :
    ∀ t, (execFenceI p s) = .next t → Kept u t := by
  intro t ht; unfold execFenceI at ht; obtain rfl := Host.Outcome.next.inj ht; try dsimp only
  repeat' (first
    | with_reducible assumption | with_reducible apply kept_icacheInvalidate | with_reducible apply kept_ite)

theorem kept_execCheckpointSignature {u : State} {p : Pair} {prog : Progress} {s : State} (h2 : Kept u s) :
    ∀ t, (execCheckpointSignature p prog s) = .next t → Kept u t := by
  intro t ht; unfold execCheckpointSignature at ht; obtain rfl := Host.Outcome.next.inj ht; try dsimp only
  repeat' (first | with_reducible assumption | with_reducible apply kept_checkpoint)

theorem kept_execLockstepFault {u : State} {p : Pair} {f : LockstepFinding} {s : State} (h2 : Kept u s) :
    ∀ t, (execLockstepFault p f s) = .next t → Kept u t := by
  intro t ht; unfold execLockstepFault at ht
  refine kept_clockedOut (by assumption) ?_ t ht; clear ht t; intro t ht; obtain rfl := Host.Outcome.next.inj ht; try dsimp only
  repeat' (first | with_reducible assumption | with_reducible apply kept_lockstepHit)

theorem kept_execDblFaultClear {u : State} {p : Pair} {s : State} (h1 : Kept u s) :
    ∀ t, (execDblFaultClear p s) = .next t → Kept u t := by
  intro t ht; unfold execDblFaultClear at ht
  refine kept_clockedOut (by assumption) ?_ t ht; clear ht t; intro t ht; obtain rfl := Host.Outcome.next.inj ht; try dsimp only
  repeat' (first | with_reducible assumption | with_reducible apply kept_faultClear)

theorem kept_execAsyncInputChange {u : State} {p : Pair} {input : Fin 32} {mainSample : Bool} {doubleSample : Bool} {s : State} (h4 : Kept u s) :
    ∀ t, (execAsyncInputChange p input mainSample doubleSample s) = .next t → Kept u t := by
  intro t ht; unfold execAsyncInputChange at ht
  refine kept_clockedOut (by assumption) ?_ t ht; clear ht t; intro t ht; obtain rfl := Host.Outcome.next.inj ht; try dsimp only
  repeat' (first | with_reducible assumption | with_reducible apply kept_asyncInput)

theorem kept_execPairRelease {u : State} {p : Pair} {s : State} (h1 : Kept u s) :
    ∀ t, (execPairRelease p s) = .next t → Kept u t := by
  intro t ht; unfold execPairRelease at ht
  refine kept_byK (by assumption) ?_ t ht; clear ht t; intro t ht; obtain rfl := Host.Outcome.next.inj ht; try dsimp only
  repeat' (first | with_reducible assumption | with_reducible apply kept_releasePair)

theorem kept_execInjectionTestStart {u : State} {pairs : BitVec 4} {s : State} (h1 : Kept u s) :
    ∀ t, (execInjectionTestStart pairs s) = .next t → Kept u t := by
  intro t ht; unfold execInjectionTestStart at ht
  refine kept_clockedOut (by assumption) ?_ t ht; clear ht t; intro t ht; obtain rfl := Host.Outcome.next.inj ht; try dsimp only
  repeat' (first | with_reducible assumption | with_reducible apply kept_injectionStart)

theorem kept_execInjectionTestDone {u : State} {res : List PairTest} {s : State} (h1 : Kept u s) :
    ∀ t, (execInjectionTestDone res s) = .next t → Kept u t := by
  intro t ht; unfold execInjectionTestDone at ht
  refine kept_clockedOut (by assumption) ?_ t ht; clear ht t; intro t ht; obtain rfl := Host.Outcome.next.inj ht; try dsimp only
  repeat' (first | with_reducible assumption | with_reducible apply kept_injectionDone)

theorem kept_execDebugHalt {u : State} {p : HaltedPair} {s : State} (h1 : Kept u s) :
    ∀ t, (execDebugHalt p s) = .next t → Kept u t := by
  intro t ht; unfold execDebugHalt at ht
  refine kept_clockedOut (by assumption) ?_ t ht; clear ht t; intro t ht; obtain rfl := Host.Outcome.next.inj ht; try dsimp only
  repeat' (first | with_reducible assumption | with_reducible apply kept_debugHalt)

theorem kept_execDebugResume {u : State} {p : Pair} {s : State} (h1 : Kept u s) :
    ∀ t, (execDebugResume p s) = .next t → Kept u t := by
  intro t ht; unfold execDebugResume at ht
  refine kept_clockedOut (by assumption) ?_ t ht; clear ht t; intro t ht; obtain rfl := Host.Outcome.next.inj ht; try dsimp only
  repeat' (first | with_reducible assumption | with_reducible apply kept_debugResume)

theorem kept_execDebugTriggerWrite {u : State} {p : Pair} {index : ℕ} {val : Word} {s : State} (h3 : Kept u s) :
    ∀ t, (execDebugTriggerWrite p index val s) = .next t → Kept u t := by
  intro t ht; unfold execDebugTriggerWrite at ht
  refine kept_clockedOut (by assumption) ?_ t ht; clear ht t; intro t ht; obtain rfl := Host.Outcome.next.inj ht; try dsimp only
  repeat' (first | with_reducible assumption | with_reducible apply kept_debugTrigger)

end Sys2Proof.Machine
end

