-- ==== Sys2Proof/Laws/KeptStart.lean ====
section
/-!
SUPPORT. What every operation of Machine/Nvm.lean, Machine/Start.lean, Machine/Bkg.lean, Machine/Power.lean keeps: the queue of waiting commands and the canonical forms of
memory and registers. One lemma per operation, cited by the lemmas of the operations that call it.
-/
set_option Elab.async false
set_option linter.unusedTactic false
set_option linter.unreachableTactic false
namespace Sys2Proof.Machine

theorem kept_nvmErase {u s1 : State} {a0 : Nat} (h1 : Kept u s1) : Kept u (nvmErase a0 s1) := by
  have k : Kept u { s1 with mem := s1.mem.filter (fun c => !(decide (a0 / 0x2000 * 0x2000 ≤ c.1 ∧ c.1 < a0 / 0x2000 * 0x2000 + 0x2000))) } :=
    h1.upd rfl id (fun w => Tab.wf_filter blankByte w _)
  unfold nvmErase
  exact kept_wearOne (kept_ite (kept_setBytes k) k)

theorem kept_bumpWrgen {u : State} {s : State} (h0 : Kept u s) :
    Kept u (bumpWrgen s) := by
  unfold bumpWrgen; try dsimp only
  repeat' (first | with_reducible assumption | with_reducible apply kept_put | with_reducible apply kept_modStore)

theorem kept_showStore {u : State} {s : State} (h0 : Kept u s) :
    Kept u (showStore s) := by
  unfold showStore; try dsimp only
  repeat' (first
    | with_reducible assumption | with_reducible apply kept_put | with_reducible apply kept_putB
    | with_reducible apply kept_foldl | (intro; intros; try dsimp only))

theorem kept_putMeasure {u : State} {i : ℕ} {l : List Byte} {s : State} (h2 : Kept u s) :
    Kept u (putMeasure i l s) := by
  unfold putMeasure; try dsimp only
  repeat' (first
    | with_reducible assumption | with_reducible apply kept_put | with_reducible apply kept_foldl
    | (intro; intros; try dsimp only))

theorem kept_showMeasures {u : State} {s : State} (h0 : Kept u s) :
    Kept u (showMeasures s) := by
  unfold showMeasures; try dsimp only
  repeat' (first | with_reducible assumption | with_reducible apply kept_putMeasure | with_reducible apply kept_ite)

theorem kept_loadImage {u : State} {a0 : ℕ} {s : State} (h1 : Kept u s) :
    Kept u (loadImage a0 s) := by
  unfold loadImage; try dsimp only
  repeat' (first
    | with_reducible assumption | with_reducible apply kept_setBytes | with_reducible apply kept_foldl
    | (intro; intros; try dsimp only))

theorem kept_clearPrograms {u s0 : State} (h0 : Kept u s0) : Kept u (clearPrograms s0) :=
  h0.upd rfl id (fun w => Tab.wf_filter blankByte w _)

theorem kept_loadHeldiog {u : State} {used : BitVec 7} {loads : List (Word × Word)} {s : State} (h2 : Kept u s) :
    Kept u (loadHeldiog used loads s) := by
  unfold loadHeldiog; try dsimp only
  repeat' (first
    | with_reducible assumption | with_reducible apply kept_setMem20 | with_reducible apply kept_setMemWord
    | with_reducible apply kept_clearPrograms | with_reducible apply kept_foldl | with_reducible apply kept_ite
    | (intro; intros; try dsimp only))

theorem kept_loadType {u : State} {s : State} {b : Bool} {s2 : State} {ty : ℕ} (h0 : Kept u s) (h2 : Kept u s2) :
    Kept u (loadType s b s2 ty) := by
  unfold loadType; try dsimp only
  repeat' (first
    | with_reducible assumption | with_reducible apply kept_setBytes | with_reducible apply kept_loadHeldiog
    | with_reducible apply kept_modKeep | with_reducible apply kept_loadImage | with_reducible apply kept_ite | split)

theorem kept_loadBank {u : State} {b : Bool} {s : State} (h1 : Kept u s) :
    Kept u (loadBank b s) := by
  unfold loadBank; try dsimp only
  repeat' (first
    | with_reducible assumption | with_reducible apply kept_loadType | with_reducible apply kept_foldl
    | (intro; intros; try dsimp only))

theorem kept_measureBank {u : State} {b : Bool} {s : State} (h1 : Kept u s) :
    Kept u (measureBank b s) := by
  unfold measureBank; try dsimp only
  repeat' (first
    | with_reducible assumption | with_reducible apply kept_putMeasure | with_reducible apply kept_foldl
    | with_reducible apply kept_ite | (intro; intros; try dsimp only) | split)

theorem kept_showBoot {u : State} {s : State} (h0 : Kept u s) :
    Kept u (showBoot s) := by
  unfold showBoot; try dsimp only
  repeat' (first | with_reducible assumption | with_reducible apply kept_put)

theorem kept_writePage {u : State} {c : Bool} {i : ℕ} {p : BootPage} {s : State} (h3 : Kept u s) :
    Kept u (writePage c i p s) := by
  unfold writePage; try dsimp only
  repeat' (first | with_reducible assumption | with_reducible apply kept_setBytes)

theorem kept_changeRecord {u : State} {f : BootPage → BootPage} {s : State} (h1 : Kept u s) :
    Kept u (changeRecord f s) := by
  unfold changeRecord; try dsimp only
  repeat' (first
    | with_reducible assumption | with_reducible apply kept_showBoot | with_reducible apply kept_writePage
    | with_reducible apply kept_setBytes | with_reducible apply kept_nvmErase | with_reducible apply kept_modKeep
    | with_reducible apply kept_ite | split)

theorem kept_ledgerAdd {u : State} {kind : ℕ} {origin : ℕ} {place : List ℕ} {s : State} (h3 : Kept u s) :
    Kept u (ledgerAdd kind origin place s) := by
  unfold ledgerAdd; try dsimp only
  repeat' (first
    | with_reducible assumption | with_reducible apply kept_ownRecord | with_reducible apply kept_put
    | with_reducible apply kept_putB | with_reducible apply kept_setBytes | with_reducible apply kept_ite)

theorem kept_restoreReel {u : State} {s : State} (h0 : Kept u s) :
    Kept u (restoreReel s) := by
  unfold restoreReel; try dsimp only
  repeat' (first | with_reducible assumption | with_reducible apply kept_put | split)

theorem kept_keepFields {u : State} {fs : List Fld} {old : State} {s : State} (h1 : Kept u old) (h2 : Kept u s) :
    Kept u (keepFields fs old s) := by
  unfold keepFields; try dsimp only
  repeat' (first
    | with_reducible assumption | with_reducible apply kept_put | with_reducible apply kept_foldl
    | (intro; intros; try dsimp only))

theorem kept_resetFields {u : State} {fs : List Fld} {s : State} (h1 : Kept u s) :
    Kept u (resetFields fs s) := by
  unfold resetFields; try dsimp only
  repeat' (first
    | with_reducible assumption | with_reducible apply kept_put | with_reducible apply kept_foldl
    | (intro; intros; try dsimp only))

theorem kept_clearRetention {u s0 : State} (h0 : Kept u s0) : Kept u (clearRetention s0) :=
  h0.upd rfl id (fun w => Tab.wf_filter blankByte w _)

theorem kept_heldInReset {u s1 : State} {a0 : Bool} (h1 : Kept u s1) : Kept u (heldInReset a0 s1) := by
  unfold heldInReset
  refine kept_driveAll (kept_followGates (kept_followGates (kept_isoOpen (kept_isoOpen (kept_showChop (kept_put (kept_put (kept_put (kept_put
    (kept_ite (kept_clearRetention (kept_keepFields h1 ?_)) (kept_put (kept_put (kept_keepFields h1 ?_))))))))))))) <;>
    exact h1.upd rfl (fun _ => rfl) id

theorem kept_beginStart {u : State} {src : ℕ} {cold : Bool} {s : State} (h2 : Kept u s) :
    Kept u (beginStart src cold s) := by
  unfold beginStart; try dsimp only
  repeat' (first
    | with_reducible assumption | with_reducible apply kept_modKeep | with_reducible apply kept_heldInReset
    | with_reducible apply kept_put)

theorem kept_coldRequest {u : State} {src : ℕ} {s : State} (h1 : Kept u s) :
    Kept u (coldRequest src s) := by
  unfold coldRequest; try dsimp only
  repeat' (first | with_reducible assumption | with_reducible apply kept_beginStart | with_reducible apply kept_ite)

theorem kept_warmRequest {u : State} {src : ℕ} {s : State} (h1 : Kept u s) :
    Kept u (warmRequest src s) := by
  unfold warmRequest; try dsimp only
  repeat' (first
    | with_reducible assumption | with_reducible apply kept_put | with_reducible apply kept_beginStart
    | with_reducible apply kept_withdraw | with_reducible apply kept_modKeep | with_reducible apply kept_ite)

theorem kept_transferAndStart {u : State} {s : State} (h0 : Kept u s) :
    Kept u (transferAndStart s) := by
  unfold transferAndStart; try dsimp only
  repeat' (first
    | with_reducible assumption | with_reducible apply kept_transferTick | with_reducible apply kept_beginStart
    | with_reducible apply kept_ite | split)

theorem kept_holdEngine {u : State} {e : Eng} {s : State} (h1 : Kept u s) :
    Kept u (holdEngine e s) := by
  unfold holdEngine; try dsimp only
  repeat' (first | with_reducible assumption | with_reducible apply kept_modEng | with_reducible apply kept_put)

theorem kept_holdOutputs {u : State} {s : State} (h0 : Kept u s) :
    Kept u (holdOutputs s) := by
  unfold holdOutputs; try dsimp only
  repeat' (first
    | with_reducible assumption | with_reducible apply kept_holdEngine | with_reducible apply kept_mcOff
    | with_reducible apply kept_isoOpen | with_reducible apply kept_holdWrite | with_reducible apply kept_modCont
    | with_reducible apply kept_linkLoss | with_reducible apply kept_modSys | with_reducible apply kept_foldl
    | (intro; intros; try dsimp only))

theorem kept_serviceRestart {u : State} {s : State} (h0 : Kept u s) :
    Kept u (serviceRestart s) := by
  unfold serviceRestart; try dsimp only
  repeat' (first
    | with_reducible assumption | with_reducible apply kept_modSys | with_reducible apply kept_loadImage | split)

theorem kept_serviceRuns {u : State} {x : Option (Bool × ℕ)} {s : State} (h1 : Kept u s) :
    Kept u (serviceRuns x s) := by
  unfold serviceRuns; try dsimp only
  repeat' (first
    | with_reducible assumption | with_reducible apply kept_showMeasures | with_reducible apply kept_modSys
    | with_reducible apply kept_loadImage | with_reducible apply kept_putB | with_reducible apply kept_putMeasure
    | split)

theorem kept_standDown {u : State} {s : State} (h0 : Kept u s) :
    Kept u (standDown s) := by
  unfold standDown; try dsimp only
  repeat' (first
    | with_reducible assumption | with_reducible apply kept_modKeep | with_reducible apply kept_holdOutputs
    | with_reducible apply kept_put | with_reducible apply kept_serviceRuns)

theorem kept_startFail {u : State} {code : ℕ} {step : ℕ} {s : State} (h2 : Kept u s) :
    Kept u (startFail code step s) := by
  unfold startFail; try dsimp only
  repeat' (first
    | with_reducible assumption | with_reducible apply kept_modKeep | with_reducible apply kept_holdOutputs
    | with_reducible apply kept_put | with_reducible apply kept_when | with_reducible apply kept_changeRecord
    | with_reducible apply kept_standDown | with_reducible apply kept_ite | (intro; intros; try dsimp only))

theorem kept_runSteps {u s : State} (h : Kept u s) : Kept u (runSteps [] s) := h

theorem kept_runStepsCons {u s : State} {n : Nat} {f : StartStep} {l : List (Nat × StartStep)}
    (hf : ∀ t, Kept u t → Kept u (f t).1) (hl : ∀ t, Kept u t → Kept u (runSteps l t)) (h : Kept u s) :
    Kept u (runSteps ((n, f) :: l) s) := by
  have k := hf _ (kept_put (f := F.KEEP_STAT_STEP) (v := n) h)
  unfold runSteps
  split
  · next e => rw [e] at k; exact hl _ k
  · next e => rw [e] at k; exact kept_startFail k
  · next e => rw [e] at k; exact k

theorem kept_keeperRom {u : State} {count : Bool} {inp : StartInputs} {s2 : State} (h2 : Kept u s2) :
    Kept u (keeperRom count inp s2).1 := by
  unfold keeperRom; try dsimp only
  repeat' (first
    | with_reducible assumption | with_reducible apply kept_modKeep | with_reducible apply kept_when
    | with_reducible apply kept_modStore | with_reducible apply kept_showBoot | with_reducible apply kept_showStore
    | with_reducible apply kept_put | with_reducible apply kept_putMeasure | with_reducible apply kept_putB
    | with_reducible apply kept_showMeasures | (intro; intros; try dsimp only) | split)

theorem kept_strapStep {u : State} {cold : Bool} {inp : StartInputs} {s2 : State} (h2 : Kept u s2) :
    Kept u (strapStep cold inp s2).1 := by
  unfold strapStep; try dsimp only
  repeat' (first
    | with_reducible assumption | with_reducible apply kept_put | with_reducible apply kept_putB
    | with_reducible apply kept_drew | with_reducible apply kept_when | (intro; intros; try dsimp only) | split)

theorem kept_pllStep {u : State} {inp : StartInputs} {s1 : State} (h1 : Kept u s1) :
    Kept u (pllStep inp s1).1 := by
  unfold pllStep; try dsimp only
  repeat' (first
    | with_reducible assumption | with_reducible apply kept_modSys | with_reducible apply kept_put | split)

theorem kept_injectionStep {u : State} {inp : StartInputs} {s1 : State} (h1 : Kept u s1) :
    Kept u (injectionStep inp s1).1 := by
  unfold injectionStep; try dsimp only
  repeat' (first
    | with_reducible assumption | with_reducible apply kept_injectionResult | with_reducible apply kept_put | split)

theorem kept_repairAll {u : State} {found : List Defect} {s : State} (h1 : Kept u s) :
    Kept u (repairAll found s) := by
  unfold repairAll; try dsimp only
  repeat' (first
    | with_reducible assumption | with_reducible apply kept_ledgerAdd | with_reducible apply kept_modBkg
    | with_reducible apply kept_modKeep | with_reducible apply kept_foldl | (intro; intros; try dsimp only))

theorem kept_memoryStep {u : State} {inp : StartInputs} {s1 : State} (h1 : Kept u s1) :
    Kept u (memoryStep inp s1).1 := by
  unfold memoryStep; try dsimp only
  repeat' (first
    | with_reducible assumption | with_reducible apply kept_repairAll | with_reducible apply kept_ledgerAdd
    | with_reducible apply kept_bumpWrgen | with_reducible apply kept_wearOne | with_reducible apply kept_put
    | with_reducible apply kept_modKeep | with_reducible apply kept_foldl | (intro; intros; try dsimp only) | split)

theorem kept_releaseFirmware {u : State} {s : State} (h0 : Kept u s) :
    Kept u (releaseFirmware s) := by
  unfold releaseFirmware; try dsimp only
  repeat' (first
    | with_reducible assumption | with_reducible apply kept_restoreReel | with_reducible apply kept_modSafe
    | with_reducible apply kept_modSys)

theorem kept_bankStep {u : State} {s0 : State} (h0 : Kept u s0) :
    Kept u (bankStep s0).1 := by
  unfold bankStep; try dsimp only
  repeat' (first
    | with_reducible assumption | with_reducible apply kept_putB | with_reducible apply kept_modStore
    | with_reducible apply kept_measureBank | with_reducible apply kept_showMeasures
    | with_reducible apply kept_showStore | with_reducible apply kept_loadBank
    | with_reducible apply kept_releaseFirmware | with_reducible apply kept_put | split)

theorem kept_gateStep {u : State} {inp : StartInputs} {s1 : State} (h1 : Kept u s1) :
    Kept u (gateStep inp s1).1 := by
  unfold gateStep; try dsimp only
  repeat' (first
    | with_reducible assumption | with_reducible apply kept_putB | with_reducible apply kept_put
    | with_reducible apply kept_when | with_reducible apply kept_ledgerAdd | with_reducible apply kept_putS
    | with_reducible apply kept_foldl | (intro; intros; try dsimp only) | split)

theorem kept_adcStep {u : State} {inp : StartInputs} {s1 : State} (h1 : Kept u s1) :
    Kept u (adcStep inp s1).1 := by
  unfold adcStep; try dsimp only
  repeat' (first
    | with_reducible assumption | with_reducible apply kept_trimChannel | with_reducible apply kept_foldl
    | (intro; intros; try dsimp only) | split)

theorem kept_sealStep {u : State} {first : ℕ} {took : ℕ} {s2 : State} (h2 : Kept u s2) :
    Kept u (sealStep first took s2).1 := by
  unfold sealStep; try dsimp only
  repeat' (first
    | with_reducible assumption | with_reducible apply kept_modKeep | with_reducible apply kept_holdWrite
    | with_reducible apply kept_putMeasure | with_reducible apply kept_put | with_reducible apply kept_putB
    | with_reducible apply kept_foldl | (intro; intros; try dsimp only) | split)

theorem kept_coldLater {u : State} {inp : StartInputs} {s : State} (h1 : Kept u s) :
    Kept u (coldLater inp s) := by
  unfold coldLater; try dsimp only
  repeat' (first
    | with_reducible assumption | with_reducible apply kept_runSteps | with_reducible apply kept_injectionStep
    | with_reducible apply kept_memoryStep | with_reducible apply kept_bankStep | with_reducible apply kept_gateStep
    | with_reducible apply kept_adcStep | with_reducible apply kept_sealStep | with_reducible apply kept_runStepsCons
    | (intro; intros; try dsimp only))

theorem kept_coldSteps {u : State} {inp : StartInputs} {s : State} (h1 : Kept u s) :
    Kept u (coldSteps inp s) := by
  unfold coldSteps; try dsimp only
  repeat' (first
    | with_reducible assumption | with_reducible apply kept_runSteps | with_reducible apply kept_keeperRom
    | with_reducible apply kept_strapStep | with_reducible apply kept_pllStep | with_reducible apply kept_standDown
    | with_reducible apply kept_coldLater | with_reducible apply kept_runStepsCons | with_reducible apply kept_ite
    | (intro; intros; try dsimp only) | split)

theorem kept_convertStart {u : State} {inp : StartInputs} {s : State} (h1 : Kept u s) :
    Kept u (convertStart inp s) := by
  unfold convertStart; try dsimp only
  repeat' (first
    | with_reducible assumption | with_reducible apply kept_modStore | with_reducible apply kept_put
    | with_reducible apply kept_clearRetention | with_reducible apply kept_resetFields
    | with_reducible apply kept_modKeep | with_reducible apply kept_modEbp | with_reducible apply kept_modBkg
    | with_reducible apply kept_coldLater | with_reducible apply kept_showMeasures
    | with_reducible apply kept_showStore | with_reducible refine kept_mk ?_ rfl rfl rfl)

theorem kept_reloadStep {u : State} {r : Retained} {s1 : State} (h1 : Kept u s1) :
    Kept u (reloadStep r s1).1 := by
  unfold reloadStep; try dsimp only
  repeat' (first
    | with_reducible assumption | with_reducible apply kept_releaseFirmware | with_reducible apply kept_loadBank
    | with_reducible apply kept_putB | split)

theorem kept_takeRetained {u : State} {r : Retained} {s : State} (h1 : Kept u s) :
    Kept u (takeRetained r s) := by
  unfold takeRetained; try dsimp only
  repeat' (first
    | with_reducible assumption | with_reducible apply kept_modKeep | with_reducible apply kept_wr
    | with_reducible apply kept_when | with_reducible apply kept_put | with_reducible apply kept_foldl
    | (intro; intros; try dsimp only))

theorem kept_warmSteps {u : State} {inp : StartInputs} {s : State} (h1 : Kept u s) :
    Kept u (warmSteps inp s) := by
  unfold warmSteps; try dsimp only
  repeat' (first
    | with_reducible assumption | with_reducible apply kept_runSteps | with_reducible apply kept_keeperRom
    | with_reducible apply kept_strapStep | with_reducible apply kept_pllStep | with_reducible apply kept_standDown
    | with_reducible apply kept_put | with_reducible apply kept_convertStart | with_reducible apply kept_modStore
    | with_reducible apply kept_takeRetained | with_reducible apply kept_showMeasures
    | with_reducible apply kept_showStore | with_reducible apply kept_injectionStep
    | with_reducible apply kept_reloadStep | with_reducible apply kept_sealStep
    | with_reducible apply kept_runStepsCons | with_reducible apply kept_ite | (intro; intros; try dsimp only)
    | split)

theorem kept_writeRetained {u : State} {s : State} (h0 : Kept u s) :
    Kept u (writeRetained s) := by
  unfold writeRetained; try dsimp only
  repeat' (first | with_reducible assumption | with_reducible apply kept_modKeep | split)

theorem kept_startEnds {u : State} {ready : Bool} {s : State} (h1 : Kept u s) :
    Kept u (startEnds ready s) := by
  unfold startEnds; try dsimp only
  repeat' (first
    | with_reducible assumption | with_reducible apply kept_put | with_reducible apply kept_putB
    | with_reducible apply kept_modKeep | with_reducible apply kept_ownRecord | with_reducible apply kept_followVotes
    | with_reducible apply kept_showMeasures | split)

theorem kept_sealApply {u : State} {s : State} (h0 : Kept u s) :
    Kept u (sealApply s) := by
  unfold sealApply; try dsimp only
  repeat' (first
    | with_reducible assumption | with_reducible apply kept_putB | with_reducible apply kept_put
    | with_reducible apply kept_writeRetained | with_reducible apply kept_showMeasures
    | with_reducible apply kept_startEnds | with_reducible apply kept_ite | split
    | with_reducible refine kept_mk ?_ rfl rfl rfl)

theorem kept_carryOn {u : State} {cold : Bool} {steps : State → State} {s : State} (h1 : ∀ t0, Kept u t0 → Kept u (steps t0)) (h2 : Kept u s) :
    Kept u (carryOn cold steps s) := by
  unfold carryOn; try dsimp only
  repeat' (first
    | with_reducible assumption | with_reducible apply h1 | with_reducible apply kept_sealApply
    | with_reducible apply kept_ite | (intro; intros; try dsimp only) | split)

theorem kept_raiseCounters {u : State} {s : State} (h0 : Kept u s) :
    Kept u (raiseCounters s) := by
  unfold raiseCounters; try dsimp only
  repeat' (first
    | with_reducible assumption | with_reducible apply kept_modStore | with_reducible apply kept_showMeasures
    | with_reducible apply kept_showStore | with_reducible apply kept_foldl | with_reducible apply kept_ite
    | (intro; intros; try dsimp only) | split)

theorem kept_driveReady {u : State} {s : State} (h0 : Kept u s) :
    Kept u (driveReady s) := by
  unfold driveReady; try dsimp only
  repeat' (first
    | with_reducible assumption | with_reducible apply kept_raiseCounters | with_reducible apply kept_startEnds
    | with_reducible apply kept_driveReadyCont | with_reducible apply kept_when
    | with_reducible apply kept_changeRecord | with_reducible apply kept_ite | (intro; intros; try dsimp only)
    | split)

theorem kept_startupWritten {u : State} {p : Pair} {machineMode : Bool} {s : State} (h2 : Kept u s) :
    Kept u (startupWritten p machineMode s) := by
  unfold startupWritten; try dsimp only
  repeat' (first
    | with_reducible assumption | with_reducible apply kept_trapPair | with_reducible apply kept_modCopies
    | with_reducible apply kept_modKeep | with_reducible apply kept_ite)

theorem kept_startupLate {u : State} {s : State} (h0 : Kept u s) :
    Kept u (startupLate s) := by
  unfold startupLate; try dsimp only
  repeat' (first
    | with_reducible assumption | with_reducible apply kept_startFail | with_reducible apply kept_put
    | with_reducible apply kept_ite | split)

theorem kept_resetCsr {u : State} {p : Pair} {machineMode : Bool} {s : State} (h2 : Kept u s) :
    Kept u (resetCsr p machineMode s) := by
  unfold resetCsr; try dsimp only
  repeat' (first
    | with_reducible assumption | with_reducible apply kept_warmRequest | with_reducible apply kept_trapPair
    | with_reducible apply kept_modCopies | with_reducible apply kept_ite)

theorem kept_powerOn {u : State} {resumeLow : Bool} {s : State} (h1 : Kept u s) :
    Kept u (powerOn resumeLow s) := by
  unfold powerOn; try dsimp only
  repeat' (first
    | with_reducible assumption | with_reducible apply kept_modPwr | with_reducible apply kept_modKeep
    | with_reducible apply kept_beginStart | with_reducible apply kept_put | with_reducible apply kept_modSafe
    | with_reducible apply kept_putB | with_reducible apply kept_ite)

theorem kept_resetAsserted {u : State} {s : State} (h0 : Kept u s) :
    Kept u (resetAsserted s) := by
  unfold resetAsserted; try dsimp only
  repeat' (first
    | with_reducible assumption | with_reducible apply kept_modPwr | with_reducible apply kept_heldInReset
    | with_reducible apply kept_ite)

theorem kept_resetRelease {u : State} {s : State} (h0 : Kept u s) :
    Kept u (resetRelease s) := by
  unfold resetRelease; try dsimp only
  repeat' (first
    | with_reducible assumption | with_reducible apply kept_modPwr | with_reducible apply kept_beginStart
    | with_reducible apply kept_modKeep | with_reducible apply kept_ite)

theorem kept_powerLost {u s0 : State} (h0 : Kept u s0) : Kept u (powerLost s0) := by
  unfold powerLost
  exact kept_modCont (kept_modPwr (kept_heldInReset (h0.upd rfl id (fun w => Tab.wf_filter blankByte w _))))

theorem kept_standDownClears {u : State} {s : State} (h0 : Kept u s) :
    Kept u (standDownClears s) := by
  unfold standDownClears; try dsimp only
  repeat' (first
    | with_reducible assumption | with_reducible apply kept_modKeep | with_reducible apply kept_put
    | with_reducible apply kept_ite)

theorem kept_execTransferTick {u : State} {s : State} (h0 : Kept u s) :
    ∀ t, (execTransferTick s) = .next t → Kept u t := by
  intro t ht; unfold execTransferTick at ht
  refine kept_clockedOut (by assumption) ?_ t ht; clear ht t; intro t ht; obtain rfl := Host.Outcome.next.inj ht; try dsimp only
  repeat' (first | with_reducible assumption | with_reducible apply kept_transferAndStart)

theorem kept_execPowerOnReset {u : State} {resumeLow : Bool} {s : State} (h1 : Kept u s) :
    ∀ t, (execPowerOnReset resumeLow s) = .next t → Kept u t := by
  intro t ht; unfold execPowerOnReset at ht; obtain rfl := Host.Outcome.next.inj ht; try dsimp only
  repeat' (first | with_reducible assumption | with_reducible apply kept_powerOn)

theorem kept_execResetRelease {u : State} {s : State} (h0 : Kept u s) :
    ∀ t, (execResetRelease s) = .next t → Kept u t := by
  intro t ht; unfold execResetRelease at ht; obtain rfl := Host.Outcome.next.inj ht; try dsimp only
  repeat' (first | with_reducible assumption | with_reducible apply kept_resetRelease)

theorem kept_execWarmResetCsr {u : State} {p : Pair} {machineMode : Bool} {s : State} (h2 : Kept u s) :
    ∀ t, (execWarmResetCsr p machineMode s) = .next t → Kept u t := by
  intro t ht; unfold execWarmResetCsr at ht; obtain rfl := Host.Outcome.next.inj ht; try dsimp only
  repeat' (first | with_reducible assumption | with_reducible apply kept_resetCsr)

theorem kept_execWarmResetRequest {u : State} {r : Requester} {s : State} (h1 : Kept u s) :
    ∀ t, (execWarmResetRequest r s) = .next t → Kept u t := by
  intro t ht; unfold execWarmResetRequest at ht; obtain rfl := Host.Outcome.next.inj ht; try dsimp only
  repeat' (first
    | with_reducible assumption | with_reducible apply kept_busAccess | with_reducible apply kept_warmRequest
    | with_reducible apply kept_busData | (intro; intros; try dsimp only))

theorem kept_execColdResetRequest {u : State} {r : Requester} {s : State} (h1 : Kept u s) :
    ∀ t, (execColdResetRequest r s) = .next t → Kept u t := by
  intro t ht; unfold execColdResetRequest at ht; obtain rfl := Host.Outcome.next.inj ht; try dsimp only
  repeat' (first
    | with_reducible assumption | with_reducible apply kept_busAccess | with_reducible apply kept_coldRequest
    | with_reducible apply kept_busData | (intro; intros; try dsimp only))

theorem kept_execColdStart {u : State} {inp : StartInputs} {s : State} (h1 : Kept u s) :
    ∀ t, (execColdStart inp s) = .next t → Kept u t := by
  intro t ht; unfold execColdStart at ht; obtain rfl := Host.Outcome.next.inj ht; try dsimp only
  repeat' (first
    | with_reducible assumption | with_reducible apply kept_carryOn | with_reducible apply kept_coldSteps
    | (intro; intros; try dsimp only))

theorem kept_execWarmStart {u : State} {inp : StartInputs} {s : State} (h1 : Kept u s) :
    ∀ t, (execWarmStart inp s) = .next t → Kept u t := by
  intro t ht; unfold execWarmStart at ht; obtain rfl := Host.Outcome.next.inj ht; try dsimp only
  repeat' (first
    | with_reducible assumption | with_reducible apply kept_carryOn | with_reducible apply kept_warmSteps
    | (intro; intros; try dsimp only))

theorem kept_execStartupDone {u : State} {p : Pair} {machineMode : Bool} {s : State} (h2 : Kept u s) :
    ∀ t, (execStartupDone p machineMode s) = .next t → Kept u t := by
  intro t ht; unfold execStartupDone at ht; obtain rfl := Host.Outcome.next.inj ht; try dsimp only
  repeat' (first | with_reducible assumption | with_reducible apply kept_startupWritten)

theorem kept_execStartupWriteTimeout {u : State} {s : State} (h0 : Kept u s) :
    ∀ t, (execStartupWriteTimeout s) = .next t → Kept u t := by
  intro t ht; unfold execStartupWriteTimeout at ht; obtain rfl := Host.Outcome.next.inj ht; try dsimp only
  repeat' (first | with_reducible assumption | with_reducible apply kept_startupLate)

theorem kept_execDriveReady {u : State} {s : State} (h0 : Kept u s) :
    ∀ t, (execDriveReady s) = .next t → Kept u t := by
  intro t ht; unfold execDriveReady at ht; obtain rfl := Host.Outcome.next.inj ht; try dsimp only
  repeat' (first | with_reducible assumption | with_reducible apply kept_driveReady)

theorem kept_execStartFailure {u : State} {code : Byte} {step : Byte} {s : State} (h2 : Kept u s) :
    ∀ t, (execStartFailure code step s) = .next t → Kept u t := by
  intro t ht; unfold execStartFailure at ht; obtain rfl := Host.Outcome.next.inj ht; try dsimp only
  repeat' (first | with_reducible assumption | with_reducible apply kept_startFail | split)

theorem kept_execFailedStartWaitEnd {u : State} {s : State} (h0 : Kept u s) :
    ∀ t, (execFailedStartWaitEnd s) = .next t → Kept u t := by
  intro t ht; unfold execFailedStartWaitEnd at ht; obtain rfl := Host.Outcome.next.inj ht; try dsimp only
  repeat' (first | with_reducible assumption | with_reducible apply kept_beginStart | with_reducible apply kept_ite)

theorem kept_execReleaseRestart {u : State} {s : State} (h0 : Kept u s) :
    ∀ t, (execReleaseRestart s) = .next t → Kept u t := by
  intro t ht; unfold execReleaseRestart at ht; obtain rfl := Host.Outcome.next.inj ht; try dsimp only
  repeat' (first | with_reducible assumption | with_reducible apply kept_beginStart | with_reducible apply kept_ite)

theorem kept_execServiceRestart {u : State} {s : State} (h0 : Kept u s) :
    ∀ t, (execServiceRestart s) = .next t → Kept u t := by
  intro t ht; unfold execServiceRestart at ht; obtain rfl := Host.Outcome.next.inj ht; try dsimp only
  repeat' (first
    | with_reducible assumption | with_reducible apply kept_serviceRestart | with_reducible apply kept_ite)

theorem kept_execStandDownClear {u : State} {s : State} (h0 : Kept u s) :
    ∀ t, (execStandDownClear s) = .next t → Kept u t := by
  intro t ht; unfold execStandDownClear at ht; obtain rfl := Host.Outcome.next.inj ht; try dsimp only
  repeat' (first | with_reducible assumption | with_reducible apply kept_standDownClears)

theorem kept_execResetAsserted {u : State} {s : State} (h0 : Kept u s) :
    ∀ t, (execResetAsserted s) = .next t → Kept u t := by
  intro t ht; unfold execResetAsserted at ht; obtain rfl := Host.Outcome.next.inj ht; try dsimp only
  repeat' (first | with_reducible assumption | with_reducible apply kept_resetAsserted)

theorem kept_execAlwaysOnPowerLoss {u : State} {s : State} (h0 : Kept u s) :
    ∀ t, (execAlwaysOnPowerLoss s) = .next t → Kept u t := by
  intro t ht; unfold execAlwaysOnPowerLoss at ht; obtain rfl := Host.Outcome.next.inj ht; try dsimp only
  repeat' (first | with_reducible assumption | with_reducible apply kept_powerLost)

theorem kept_errorCorrected {u : State} {a : ℕ} {s : State} (h1 : Kept u s) :
    Kept u (errorCorrected a s) := by
  unfold errorCorrected; try dsimp only
  repeat' (first
    | with_reducible assumption | with_reducible apply kept_count | with_reducible apply kept_modBkg
    | with_reducible apply kept_ledgerAdd | with_reducible apply kept_ite)

theorem kept_scrubNext {u : State} {a : ℕ} {s : State} (h1 : Kept u s) :
    Kept u (scrubNext a s) := by
  unfold scrubNext; try dsimp only
  repeat' (first
    | with_reducible assumption | with_reducible apply kept_modBkg | with_reducible apply kept_put
    | with_reducible apply kept_inc | with_reducible apply kept_drew | with_reducible apply kept_ite)

theorem kept_scrubbed {u : State} {word : ℕ} {found : EccFinding} {s : State} (h2 : Kept u s) :
    Kept u (scrubbed word found s) := by
  unfold scrubbed; try dsimp only
  repeat' (first
    | with_reducible assumption | with_reducible apply kept_scrubNext | with_reducible apply kept_errorCorrected
    | with_reducible apply kept_errorRecorded | with_reducible apply kept_ite | split)

theorem kept_sectorsWeak {u : State} {l : List (Fin 1536)} {s : State} (h1 : Kept u s) :
    Kept u (sectorsWeak l s) := by
  unfold sectorsWeak; try dsimp only
  repeat' (first | with_reducible assumption | with_reducible apply kept_modKeep | with_reducible apply kept_put)

theorem kept_calibrateAll {u : State} {s : State} (h0 : Kept u s) :
    Kept u (calibrateAll s) := by
  unfold calibrateAll; try dsimp only
  repeat' (first | with_reducible assumption | with_reducible apply kept_calRequest | with_reducible apply kept_ite)

theorem kept_senseTrim {u : State} {b : Bridge} {j : Switch} {centres : List ℕ} {sensed : List ℤ} {s : State} (h4 : Kept u s) :
    Kept u (senseTrim b j centres sensed s) := by
  unfold senseTrim; try dsimp only
  repeat' (first
    | with_reducible assumption | with_reducible apply kept_driverAccess | with_reducible apply kept_setTrim
    | with_reducible apply kept_ite | (intro; intros; try dsimp only))

theorem kept_counterMirror {u : State} {s : State} (h0 : Kept u s) :
    Kept u (counterMirror s) := by
  unfold counterMirror; try dsimp only
  repeat' (first
    | with_reducible assumption | with_reducible apply kept_ownRecord | with_reducible apply kept_modBkg
    | with_reducible apply kept_ite)

theorem kept_counterSnapshot {u : State} {s : State} (h0 : Kept u s) :
    Kept u (counterSnapshot s) := by
  unfold counterSnapshot; try dsimp only
  repeat' (first
    | with_reducible assumption | with_reducible apply kept_nvmErase | with_reducible apply kept_modBkg
    | with_reducible apply kept_ite)

theorem kept_reelPut {u : State} {src : ℕ} {rec : List Byte} {wear : Option (Tab ℕ)} {s : State} (h3 : Kept u s) :
    Kept u (reelPut src rec wear s) := by
  unfold reelPut; try dsimp only
  repeat' (first
    | with_reducible assumption | with_reducible apply kept_modBkg | with_reducible apply kept_count
    | with_reducible apply kept_setBytes | with_reducible apply kept_put | with_reducible apply kept_ite | split)

theorem kept_moveQueue {u : State} {q : ℕ} {s : State} (h1 : Kept u s) :
    Kept u (moveQueue q s) := by
  unfold moveQueue; try dsimp only
  repeat' (first
    | with_reducible assumption | with_reducible apply kept_reelPut | with_reducible apply kept_setMemWord
    | with_reducible apply kept_foldl | with_reducible apply kept_ite | (intro; intros; try dsimp only))

theorem kept_moveOwn {u : State} {s : State} (h0 : Kept u s) :
    Kept u (moveOwn s) := by
  unfold moveOwn; try dsimp only
  repeat' (first
    | with_reducible assumption | with_reducible apply kept_reelPut | with_reducible apply kept_modBkg
    | with_reducible apply kept_foldl | (intro; intros; try dsimp only))

theorem kept_reelMove {u : State} {s : State} (h0 : Kept u s) :
    Kept u (reelMove s) := by
  unfold reelMove; try dsimp only
  repeat' (first
    | with_reducible assumption | with_reducible apply kept_reelPut | with_reducible apply kept_modBkg
    | with_reducible apply kept_moveOwn | with_reducible apply kept_moveQueue | with_reducible apply kept_foldl
    | with_reducible apply kept_ite | (intro; intros; try dsimp only))

theorem kept_freeBytes {u s1 : State} {a0 : Nat} (h1 : Kept u s1) : Kept u (freeBytes a0 s1).2 := by
  induction a0 generalizing s1 with
  | zero => exact h1
  | succ n ih => exact ih (kept_drew h1)

theorem kept_padding {u : State} {s : State} (h0 : Kept u s) :
    Kept u (padding s).2 := by
  unfold padding; try dsimp only
  repeat' (first | with_reducible assumption | with_reducible apply kept_freeBytes | split)

theorem kept_padPage {u : State} {a0 : Nat} {a1 : List Byte × State} (h1 : Kept u a1.2) : Kept u (padPage a0 a1).2 := by
  induction a0 generalizing a1 with
  | zero => exact h1
  | succ n ih => exact ih (kept_padding h1)

theorem kept_ringAdvance {u : State} {w : ℕ} {s : State} (h1 : Kept u s) :
    Kept u (ringAdvance w s) := by
  unfold ringAdvance; try dsimp only
  repeat' (first
    | with_reducible assumption | with_reducible apply kept_nvmErase | with_reducible apply kept_counterSnapshot
    | with_reducible apply kept_put | with_reducible apply kept_ite)

theorem kept_reelCommit {u : State} {s : State} (h0 : Kept u s) :
    Kept u (reelCommit s) := by
  unfold reelCommit; try dsimp only
  repeat' (first
    | with_reducible assumption | with_reducible apply kept_padPage | with_reducible apply kept_setBytes
    | with_reducible apply kept_ringAdvance | with_reducible apply kept_modBkg | with_reducible apply kept_put
    | with_reducible apply kept_ite | split)

theorem kept_commitAll {u : State} {s : State} (h0 : Kept u s) :
    Kept u (commitAll s) := by
  unfold commitAll; try dsimp only
  repeat' (first
    | with_reducible assumption | with_reducible apply kept_reelCommit | with_reducible apply kept_foldl
    | (intro; intros; try dsimp only))

theorem kept_execScrubRead {u : State} {word : Word} {found : EccFinding} {s : State} (h2 : Kept u s) :
    ∀ t, (execScrubRead word found s) = .next t → Kept u t := by
  intro t ht; unfold execScrubRead at ht; obtain rfl := Host.Outcome.next.inj ht; try dsimp only
  repeat' (first | with_reducible assumption | with_reducible apply kept_scrubbed)

theorem kept_execDataNvmMarginPass {u : State} {weakPages : List (Fin 2048)} {s : State} (h1 : Kept u s) :
    ∀ t, (execDataNvmMarginPass weakPages s) = .next t → Kept u t := by
  intro t ht; unfold execDataNvmMarginPass at ht; obtain rfl := Host.Outcome.next.inj ht; try dsimp only
  repeat' (first
    | with_reducible assumption | with_reducible apply kept_when | with_reducible apply kept_setBytes
    | with_reducible apply kept_foldl | (intro; intros; try dsimp only))

theorem kept_execCodeNvmMarginPass {u : State} {weakSectors : List (Fin 1536)} {s : State} (h1 : Kept u s) :
    ∀ t, (execCodeNvmMarginPass weakSectors s) = .next t → Kept u t := by
  intro t ht; unfold execCodeNvmMarginPass at ht; obtain rfl := Host.Outcome.next.inj ht; try dsimp only
  repeat' (first
    | with_reducible assumption | with_reducible apply kept_when | with_reducible apply kept_sectorsWeak
    | (intro; intros; try dsimp only))

theorem kept_execCalibrationPeriod {u : State} {s : State} (h0 : Kept u s) :
    ∀ t, (execCalibrationPeriod s) = .next t → Kept u t := by
  intro t ht; unfold execCalibrationPeriod at ht
  refine kept_clockedOut (by assumption) ?_ t ht; clear ht t; intro t ht; obtain rfl := Host.Outcome.next.inj ht; try dsimp only
  repeat' (first | with_reducible assumption | with_reducible apply kept_calibrateAll)

theorem kept_execCalibrationRetry {u : State} {b : Bridge} {s : State} (h1 : Kept u s) :
    ∀ t, (execCalibrationRetry b s) = .next t → Kept u t := by
  intro t ht; unfold execCalibrationRetry at ht
  refine kept_clockedOut (by assumption) ?_ t ht; clear ht t; intro t ht; obtain rfl := Host.Outcome.next.inj ht; try dsimp only
  repeat' (first | with_reducible assumption | with_reducible apply kept_calRequest | with_reducible apply kept_ite)

theorem kept_execSenseTrimUpdate {u : State} {b : Bridge} {j : Switch} {centres : List ℕ} {sensed : List ℤ} {s : State} (h4 : Kept u s) :
    ∀ t, (execSenseTrimUpdate b j centres sensed s) = .next t → Kept u t := by
  intro t ht; unfold execSenseTrimUpdate at ht; obtain rfl := Host.Outcome.next.inj ht; try dsimp only
  repeat' (first
    | with_reducible assumption | with_reducible apply kept_when | with_reducible apply kept_senseTrim
    | (intro; intros; try dsimp only))

theorem kept_execCounterMirror {u : State} {s : State} (h0 : Kept u s) :
    ∀ t, (execCounterMirror s) = .next t → Kept u t := by
  intro t ht; unfold execCounterMirror at ht; obtain rfl := Host.Outcome.next.inj ht; try dsimp only
  repeat' (first
    | with_reducible assumption | with_reducible apply kept_when | with_reducible apply kept_counterMirror
    | (intro; intros; try dsimp only))

theorem kept_execCounterSnapshot {u : State} {s : State} (h0 : Kept u s) :
    ∀ t, (execCounterSnapshot s) = .next t → Kept u t := by
  intro t ht; unfold execCounterSnapshot at ht; obtain rfl := Host.Outcome.next.inj ht; try dsimp only
  repeat' (first
    | with_reducible assumption | with_reducible apply kept_when | with_reducible apply kept_counterSnapshot
    | (intro; intros; try dsimp only))

theorem kept_execReelSubmit {u : State} {q : Fin 6} {rec : List Byte} {s : State} (h2 : Kept u s) :
    ∀ t, (execReelSubmit q rec s) = .next t → Kept u t := by
  intro t ht; unfold execReelSubmit at ht; obtain rfl := Host.Outcome.next.inj ht; try dsimp only
  repeat' (first | with_reducible assumption | with_reducible apply kept_reelSubmit)

theorem kept_execReelMove {u : State} {s : State} (h0 : Kept u s) :
    ∀ t, (execReelMove s) = .next t → Kept u t := by
  intro t ht; unfold execReelMove at ht; obtain rfl := Host.Outcome.next.inj ht; try dsimp only
  repeat' (first
    | with_reducible assumption | with_reducible apply kept_when | with_reducible apply kept_reelMove
    | (intro; intros; try dsimp only))

theorem kept_execReelCommit {u : State} {s : State} (h0 : Kept u s) :
    ∀ t, (execReelCommit s) = .next t → Kept u t := by
  intro t ht; unfold execReelCommit at ht; obtain rfl := Host.Outcome.next.inj ht; try dsimp only
  repeat' (first
    | with_reducible assumption | with_reducible apply kept_when | with_reducible apply kept_reelCommit
    | (intro; intros; try dsimp only))

theorem kept_setNibble {u : State} {i : ℕ} {n : ℕ} {s : State} (h2 : Kept u s) :
    Kept u (setNibble i n s) := by
  unfold setNibble; try dsimp only
  repeat' (first | with_reducible assumption | with_reducible apply kept_put)

theorem kept_myVote {u : State} {r : Requester} {n : ℕ} {s : State} (h2 : Kept u s) :
    Kept u (myVote r n s) := by
  unfold myVote; try dsimp only
  repeat' (first
    | with_reducible assumption | with_reducible apply kept_followVotes | with_reducible apply kept_setNibble
    | with_reducible apply kept_put | split)

theorem kept_hostVote {u : State} {r : Requester} {n : ℕ} {s : State} (h2 : Kept u s) :
    Kept u (hostVote r n s) := by
  unfold hostVote; try dsimp only
  repeat' (first
    | with_reducible assumption | with_reducible apply kept_followVotes | with_reducible apply kept_put
    | with_reducible apply kept_setNibble | with_reducible apply kept_ite)

theorem kept_deepEntry {u s0 : State} (h0 : Kept u s0) : Kept u (deepEntry s0) := by
  unfold deepEntry
  exact kept_modPwr (kept_put (kept_put ((kept_commitAll h0).upd rfl id (fun w => Tab.wf_filter blankByte w _))))

theorem kept_offEntry {u : State} {s : State} (h0 : Kept u s) :
    Kept u (offEntry s) := by
  unfold offEntry; try dsimp only
  repeat' (first
    | with_reducible assumption | with_reducible apply kept_modPwr | with_reducible apply kept_powerLost
    | with_reducible apply kept_deepEntry)

theorem kept_entryDone {u : State} {s : State} (h0 : Kept u s) :
    Kept u (entryDone s) := by
  unfold entryDone; try dsimp only
  repeat' (first
    | with_reducible assumption | with_reducible apply kept_modPwr | with_reducible apply kept_put
    | with_reducible apply kept_followVotes | with_reducible apply kept_deepEntry
    | with_reducible apply kept_offEntry | with_reducible apply kept_ite | split)

theorem kept_wakeEvent {u : State} {src : ℕ} {s : State} (h1 : Kept u s) :
    Kept u (wakeEvent src s) := by
  unfold wakeEvent; try dsimp only
  repeat' (first
    | with_reducible assumption | with_reducible apply kept_modPwr | with_reducible apply kept_ite | split)

theorem kept_wakeAccepted {u : State} {phases : List LineLevel} {s : State} (h1 : Kept u s) :
    Kept u (wakeAccepted phases s) := by
  unfold wakeAccepted; try dsimp only
  repeat' (first
    | with_reducible assumption | with_reducible apply kept_drew | with_reducible apply kept_modPwr
    | with_reducible apply kept_wakeEvent | with_reducible apply kept_ite)

theorem kept_recordWake {u : State} {src : ℕ} {left : ℕ} {s : State} (h2 : Kept u s) :
    Kept u (recordWake src left s) := by
  unfold recordWake; try dsimp only
  repeat' (first
    | with_reducible assumption | with_reducible apply kept_put | with_reducible apply kept_elapsedTick
    | with_reducible apply kept_countBit | with_reducible apply kept_ite)

theorem kept_sleepExit {u : State} {src : ℕ} {s : State} (h1 : Kept u s) :
    Kept u (sleepExit src s) := by
  unfold sleepExit; try dsimp only
  repeat' (first
    | with_reducible assumption | with_reducible apply kept_recordWake | with_reducible apply kept_put
    | with_reducible apply kept_modSys | with_reducible apply kept_ungateVoted | with_reducible apply kept_modSafe
    | with_reducible apply kept_modPwr | with_reducible apply kept_ite | split)

theorem kept_deepExit {u : State} {src : ℕ} {s : State} (h1 : Kept u s) :
    Kept u (deepExit src s) := by
  unfold deepExit; try dsimp only
  repeat' (first
    | with_reducible assumption | with_reducible apply kept_beginStart | with_reducible apply kept_recordWake
    | with_reducible apply kept_ite | split)

theorem kept_offExit {u : State} {src : ℕ} {s : State} (h1 : Kept u s) :
    Kept u (offExit src s) := by
  unfold offExit; try dsimp only
  repeat' (first
    | with_reducible assumption | with_reducible apply kept_powerOn | with_reducible apply kept_drew
    | with_reducible apply kept_put | with_reducible apply kept_recordWake | with_reducible apply kept_ite | split)

theorem kept_pairGate {u : State} {p : Pair} {s : State} (h1 : Kept u s) :
    Kept u (pairGate p s) := by
  unfold pairGate; try dsimp only
  repeat' (first
    | with_reducible assumption | with_reducible apply kept_putBit | with_reducible apply kept_modCore
    | with_reducible apply kept_put | with_reducible apply kept_ite)

theorem kept_mportStore {u : State} {i : ℕ} {b : Byte} {s : State} (h2 : Kept u s) :
    Kept u (mportStore i b s) := by
  unfold mportStore; try dsimp only
  repeat' (first | with_reducible assumption | with_reducible apply kept_put)

theorem kept_mportTake {u s1 : State} {a0 : List Byte} (h1 : Kept u s1) : Kept u (mportTake a0 s1) := by
  induction a0 generalizing s1 with
  | nil => exact h1
  | cons b t ih =>
    unfold mportTake
    exact kept_ite (ih (kept_modMport (kept_mportStore h1))) (kept_put h1)

theorem kept_mportWrite {u : State} {bytes : List Byte} {s : State} (h1 : Kept u s) :
    Kept u (mportWrite bytes s) := by
  unfold mportWrite; try dsimp only
  repeat' (first
    | with_reducible assumption | with_reducible apply kept_mportTake | with_reducible apply kept_modMport
    | with_reducible apply kept_put | with_reducible apply kept_raise | with_reducible apply kept_when
    | with_reducible apply kept_wakeEvent | with_reducible apply kept_ite | (intro; intros; try dsimp only) | split)

theorem kept_mportRead {u : State} {n : ℕ} {s : State} (h1 : Kept u s) :
    Kept u (mportRead n s) := by
  unfold mportRead; try dsimp only
  repeat' (first
    | with_reducible assumption | with_reducible apply kept_put | with_reducible apply kept_modMport
    | with_reducible apply kept_ite)

theorem kept_mportMatch {u : State} {adr : BitVec 7} {s : State} (h1 : Kept u s) :
    Kept u (mportMatch adr s) := by
  unfold mportMatch; try dsimp only
  repeat' (first
    | with_reducible assumption | with_reducible apply kept_when | with_reducible apply kept_wakeEvent
    | with_reducible apply kept_put | with_reducible apply kept_modMport | with_reducible apply kept_ite
    | (intro; intros; try dsimp only))

theorem kept_mportRelease {u : State} {s : State} (h0 : Kept u s) :
    Kept u (mportRelease s) := by
  unfold mportRelease; try dsimp only
  repeat' (first
    | with_reducible assumption | with_reducible apply kept_modMport | with_reducible apply kept_put
    | with_reducible apply kept_ite)

theorem kept_sentinelTrip {u : State} {mask : ℕ} {s : State} (h1 : Kept u s) :
    Kept u (sentinelTrip mask s) := by
  unfold sentinelTrip; try dsimp only
  repeat' (first
    | with_reducible assumption | with_reducible apply kept_countBit | with_reducible apply kept_put
    | with_reducible apply kept_ownRecord | with_reducible apply kept_wearOne | with_reducible apply kept_setCut
    | with_reducible apply kept_modPwr | with_reducible apply kept_keepFields | with_reducible apply kept_heldInReset
    | with_reducible apply kept_ite | with_reducible refine kept_mk ?_ rfl rfl rfl)

theorem kept_sentinelRecovery {u : State} {collapsed : Bool} {s : State} (h1 : Kept u s) :
    Kept u (sentinelRecovery collapsed s) := by
  unfold sentinelRecovery; try dsimp only
  repeat' (first
    | with_reducible assumption | with_reducible apply kept_beginStart | with_reducible apply kept_putB
    | with_reducible apply kept_ite)

theorem kept_vmotRise {u : State} {s : State} (h0 : Kept u s) :
    Kept u (vmotRise s) := by
  unfold vmotRise; try dsimp only
  repeat' (first
    | with_reducible assumption | with_reducible apply kept_modKeep | with_reducible apply kept_modPwr
    | with_reducible apply kept_wakeEvent | with_reducible apply kept_beginStart | with_reducible apply kept_ite)

theorem kept_jtagTake {u : State} {code : BitVec 5} {out : BitVec 168} {drive : PinDrive} {s : State} (h3 : Kept u s) :
    Kept u (jtagTake code out drive s) := by
  unfold jtagTake; try dsimp only
  repeat' (first | with_reducible assumption | with_reducible apply kept_modJtag)

theorem kept_jtagBypass {u : State} {s : State} (h0 : Kept u s) :
    Kept u (jtagBypass s) := by
  unfold jtagBypass; try dsimp only
  repeat' (first | with_reducible assumption | with_reducible apply kept_jtagTake)

theorem kept_sampledPins {u : State} {s : State} (h0 : Kept u s) :
    Kept u (sampledPins s).2 := by
  unfold sampledPins; try dsimp only
  repeat' (first | with_reducible assumption | with_reducible apply kept_freeBytes | split)

theorem kept_jtagSample {u : State} {preload : BitVec 168} {s : State} (h1 : Kept u s) :
    Kept u (jtagSample preload s) := by
  unfold jtagSample; try dsimp only
  repeat' (first
    | with_reducible assumption | with_reducible apply kept_sampledPins | with_reducible apply kept_modJtag
    | with_reducible apply kept_jtagTake | split)

theorem kept_jtagExtest {u : State} {pins : BitVec 168} {s : State} (h1 : Kept u s) :
    Kept u (jtagExtest pins s) := by
  unfold jtagExtest; try dsimp only
  repeat' (first
    | with_reducible assumption | with_reducible apply kept_sampledPins | with_reducible apply kept_modJtag
    | with_reducible apply kept_jtagTake | with_reducible apply kept_jtagBypass | with_reducible apply kept_ite
    | split)

theorem kept_provisionKey {u : State} {key : BitVec 512} {digest : BitVec 256} {s : State} (h2 : Kept u s) :
    Kept u (provisionKey key digest s) := by
  unfold provisionKey; try dsimp only
  repeat' (first
    | with_reducible assumption | with_reducible apply kept_jtagBypass | with_reducible apply kept_jtagTake
    | with_reducible apply kept_showMeasures | with_reducible apply kept_showStore
    | with_reducible apply kept_modStore | with_reducible apply kept_ite)

theorem kept_execVoteWrite {u : State} {r : Requester} {nibble : BitVec 4} {s : State} (h2 : Kept u s) :
    ∀ t, (execVoteWrite r nibble s) = .next t → Kept u t := by
  intro t ht; unfold execVoteWrite at ht; obtain rfl := Host.Outcome.next.inj ht; try dsimp only
  repeat' (first
    | with_reducible assumption | with_reducible apply kept_busAccess | with_reducible apply kept_myVote
    | with_reducible apply kept_busData | (intro; intros; try dsimp only))

theorem kept_execHostVoteWrite {u : State} {r : Requester} {nibble : BitVec 4} {s : State} (h2 : Kept u s) :
    ∀ t, (execHostVoteWrite r nibble s) = .next t → Kept u t := by
  intro t ht; unfold execHostVoteWrite at ht; obtain rfl := Host.Outcome.next.inj ht; try dsimp only
  repeat' (first
    | with_reducible assumption | with_reducible apply kept_busAccess | with_reducible apply kept_hostVote
    | with_reducible apply kept_busData | (intro; intros; try dsimp only))

theorem kept_execPowerEntryDone {u : State} {s : State} (h0 : Kept u s) :
    ∀ t, (execPowerEntryDone s) = .next t → Kept u t := by
  intro t ht; unfold execPowerEntryDone at ht; obtain rfl := Host.Outcome.next.inj ht; try dsimp only
  repeat' (first | with_reducible assumption | with_reducible apply kept_entryDone)

theorem kept_execPairGate {u : State} {p : Pair} {s : State} (h1 : Kept u s) :
    ∀ t, (execPairGate p s) = .next t → Kept u t := by
  intro t ht; unfold execPairGate at ht; obtain rfl := Host.Outcome.next.inj ht; try dsimp only
  repeat' (first | with_reducible assumption | with_reducible apply kept_pairGate)

theorem kept_execWakeAccepted {u : State} {phases : List LineLevel} {s : State} (h1 : Kept u s) :
    ∀ t, (execWakeAccepted phases s) = .next t → Kept u t := by
  intro t ht; unfold execWakeAccepted at ht; obtain rfl := Host.Outcome.next.inj ht; try dsimp only
  repeat' (first | with_reducible assumption | with_reducible apply kept_wakeAccepted)

theorem kept_execMportAddressMatch {u : State} {adr : BitVec 7} {a1 : Bool} {s : State} (h2 : Kept u s) :
    ∀ t, (execMportAddressMatch adr a1 s) = .next t → Kept u t := by
  intro t ht; unfold execMportAddressMatch at ht; obtain rfl := Host.Outcome.next.inj ht; try dsimp only
  repeat' (first | with_reducible assumption | with_reducible apply kept_mportMatch)

theorem kept_execMportClockRelease {u : State} {s : State} (h0 : Kept u s) :
    ∀ t, (execMportClockRelease s) = .next t → Kept u t := by
  intro t ht; unfold execMportClockRelease at ht; obtain rfl := Host.Outcome.next.inj ht; try dsimp only
  repeat' (first | with_reducible assumption | with_reducible apply kept_mportRelease)

theorem kept_execTimerWake {u : State} {s : State} (h0 : Kept u s) :
    ∀ t, (execTimerWake s) = .next t → Kept u t := by
  intro t ht; unfold execTimerWake at ht; obtain rfl := Host.Outcome.next.inj ht; try dsimp only
  repeat' (first | with_reducible assumption | with_reducible apply kept_wakeEvent | with_reducible apply kept_ite)

theorem kept_execSleepExit {u : State} {src : BitVec 3} {s : State} (h1 : Kept u s) :
    ∀ t, (execSleepExit src s) = .next t → Kept u t := by
  intro t ht; unfold execSleepExit at ht; obtain rfl := Host.Outcome.next.inj ht; try dsimp only
  repeat' (first | with_reducible assumption | with_reducible apply kept_sleepExit)

theorem kept_execDeepExit {u : State} {src : BitVec 3} {s : State} (h1 : Kept u s) :
    ∀ t, (execDeepExit src s) = .next t → Kept u t := by
  intro t ht; unfold execDeepExit at ht; obtain rfl := Host.Outcome.next.inj ht; try dsimp only
  repeat' (first | with_reducible assumption | with_reducible apply kept_deepExit)

theorem kept_execOffExit {u : State} {src : BitVec 3} {s : State} (h1 : Kept u s) :
    ∀ t, (execOffExit src s) = .next t → Kept u t := by
  intro t ht; unfold execOffExit at ht; obtain rfl := Host.Outcome.next.inj ht; try dsimp only
  repeat' (first | with_reducible assumption | with_reducible apply kept_offExit)

theorem kept_execMportWrite {u : State} {bytes : List Byte} {s : State} (h1 : Kept u s) :
    ∀ t, (execMportWrite bytes s) = .next t → Kept u t := by
  intro t ht; unfold execMportWrite at ht; obtain rfl := Host.Outcome.next.inj ht; try dsimp only
  repeat' (first | with_reducible assumption | with_reducible apply kept_mportWrite)

theorem kept_execMportRead {u : State} {n : ℕ} {s : State} (h1 : Kept u s) :
    ∀ t, (execMportRead n s) = .next t → Kept u t := by
  intro t ht; unfold execMportRead at ht; obtain rfl := Host.Outcome.next.inj ht; try dsimp only
  repeat' (first | with_reducible assumption | with_reducible apply kept_mportRead)

theorem kept_execSentinelTrip {u : State} {mask : BitVec 12} {s : State} (h1 : Kept u s) :
    ∀ t, (execSentinelTrip mask s) = .next t → Kept u t := by
  intro t ht; unfold execSentinelTrip at ht; obtain rfl := Host.Outcome.next.inj ht; try dsimp only
  repeat' (first | with_reducible assumption | with_reducible apply kept_sentinelTrip)

theorem kept_execSentinelRecovery {u : State} {collapsed : Bool} {s : State} (h1 : Kept u s) :
    ∀ t, (execSentinelRecovery collapsed s) = .next t → Kept u t := by
  intro t ht; unfold execSentinelRecovery at ht; obtain rfl := Host.Outcome.next.inj ht; try dsimp only
  repeat' (first | with_reducible assumption | with_reducible apply kept_sentinelRecovery)

theorem kept_execVmotHoldFall {u : State} {s : State} (h0 : Kept u s) :
    ∀ t, (execVmotHoldFall s) = .next t → Kept u t := by
  intro t ht; unfold execVmotHoldFall at ht; obtain rfl := Host.Outcome.next.inj ht; try dsimp only
  repeat' (first | with_reducible assumption | with_reducible apply kept_modKeep)

theorem kept_execVmotHoldRise {u : State} {s : State} (h0 : Kept u s) :
    ∀ t, (execVmotHoldRise s) = .next t → Kept u t := by
  intro t ht; unfold execVmotHoldRise at ht; obtain rfl := Host.Outcome.next.inj ht; try dsimp only
  repeat' (first | with_reducible assumption | with_reducible apply kept_vmotRise)

theorem kept_execExtest {u : State} {pins : BitVec 168} {s : State} (h1 : Kept u s) :
    ∀ t, (execExtest pins s) = .next t → Kept u t := by
  intro t ht; unfold execExtest at ht; obtain rfl := Host.Outcome.next.inj ht; try dsimp only
  repeat' (first | with_reducible assumption | with_reducible apply kept_jtagExtest)

theorem kept_execIdcode {u : State} {s : State} (h0 : Kept u s) :
    ∀ t, (execIdcode s) = .next t → Kept u t := by
  intro t ht; unfold execIdcode at ht; obtain rfl := Host.Outcome.next.inj ht; try dsimp only
  repeat' (first | with_reducible assumption | with_reducible apply kept_jtagTake)

theorem kept_execSamplePreload {u : State} {preload : BitVec 168} {s : State} (h1 : Kept u s) :
    ∀ t, (execSamplePreload preload s) = .next t → Kept u t := by
  intro t ht; unfold execSamplePreload at ht; obtain rfl := Host.Outcome.next.inj ht; try dsimp only
  repeat' (first | with_reducible assumption | with_reducible apply kept_jtagSample)

theorem kept_execClampPins {u : State} {s : State} (h0 : Kept u s) :
    ∀ t, (execClampPins s) = .next t → Kept u t := by
  intro t ht; unfold execClampPins at ht; obtain rfl := Host.Outcome.next.inj ht; try dsimp only
  repeat' (first
    | with_reducible assumption | with_reducible apply kept_jtagTake | with_reducible apply kept_jtagBypass
    | with_reducible apply kept_ite)

theorem kept_execHighz {u : State} {s : State} (h0 : Kept u s) :
    ∀ t, (execHighz s) = .next t → Kept u t := by
  intro t ht; unfold execHighz at ht; obtain rfl := Host.Outcome.next.inj ht; try dsimp only
  repeat' (first
    | with_reducible assumption | with_reducible apply kept_jtagTake | with_reducible apply kept_jtagBypass
    | with_reducible apply kept_ite)

theorem kept_execDtmcs {u : State} {val : Word} {s : State} (h1 : Kept u s) :
    ∀ t, (execDtmcs val s) = .next t → Kept u t := by
  intro t ht; unfold execDtmcs at ht; obtain rfl := Host.Outcome.next.inj ht; try dsimp only
  repeat' (first
    | with_reducible assumption | with_reducible apply kept_modJtag | with_reducible apply kept_jtagTake
    | with_reducible apply kept_drew | with_reducible apply kept_jtagBypass | with_reducible apply kept_ite)

theorem kept_execDmi {u : State} {val : BitVec 41} {s : State} (h1 : Kept u s) :
    ∀ t, (execDmi val s) = .next t → Kept u t := by
  intro t ht; unfold execDmi at ht; obtain rfl := Host.Outcome.next.inj ht; try dsimp only
  repeat' (first
    | with_reducible assumption | with_reducible apply kept_modJtag | with_reducible apply kept_jtagTake
    | with_reducible apply kept_drew | with_reducible apply kept_jtagBypass | with_reducible apply kept_ite)

theorem kept_execProvision {u : State} {key : BitVec 512} {digest : BitVec 256} {s : State} (h2 : Kept u s) :
    ∀ t, (execProvision key digest s) = .next t → Kept u t := by
  intro t ht; unfold execProvision at ht; obtain rfl := Host.Outcome.next.inj ht; try dsimp only
  repeat' (first | with_reducible assumption | with_reducible apply kept_provisionKey)

theorem kept_execBypass {u : State} {s : State} (h0 : Kept u s) :
    ∀ t, (execBypass s) = .next t → Kept u t := by
  intro t ht; unfold execBypass at ht; obtain rfl := Host.Outcome.next.inj ht; try dsimp only
  repeat' (first | with_reducible assumption | with_reducible apply kept_jtagBypass)

theorem kept_execTraceSelectWrite {u : State} {mask : BitVec 4} {s : State} (h1 : Kept u s) :
    ∀ t, (execTraceSelectWrite mask s) = .next t → Kept u t := by
  intro t ht; unfold execTraceSelectWrite at ht; obtain rfl := Host.Outcome.next.inj ht; try dsimp only
  repeat' (first | with_reducible assumption | with_reducible apply kept_put | with_reducible apply kept_ite)

end Sys2Proof.Machine
end

