-- ==== Sys2Proof/Laws/KeptHost.lean ====
section
/-!
SUPPORT. What every operation of Machine/Bus.lean, Machine/Memory.lean, Machine/Debug.lean, Machine/Host.lean keeps: the queue of waiting commands and the canonical forms of
memory and registers. One lemma per operation, cited by the lemmas of the operations that call it.
-/
set_option Elab.async false
set_option linter.unusedTactic false
set_option linter.unreachableTactic false
namespace Sys2Proof.Machine

theorem kept_clearRead {u : State} {addr : ℕ} {s : State} (h1 : Kept u s) :
    Kept u (clearRead addr s) := by
  unfold clearRead; try dsimp only
  repeat' (first
    | with_reducible assumption | with_reducible apply kept_wr | with_reducible apply kept_foldl
    | with_reducible apply kept_ite | (intro; intros; try dsimp only))

theorem kept_regRead {u : State} {r : Requester} {addr : ℕ} {s : State} (h2 : Kept u s) :
    Kept u (regRead r addr s) := by
  unfold regRead; try dsimp only
  repeat' (first
    | with_reducible assumption | with_reducible apply kept_readTimeNs | with_reducible apply kept_readUcycNs
    | with_reducible apply kept_readUptime | with_reducible apply kept_busData | with_reducible apply kept_drew
    | with_reducible apply kept_clearRead | with_reducible apply kept_ite)

theorem kept_registerRead {u : State} {r : Requester} {addr : ℕ} {s : State} (h2 : Kept u s) :
    Kept u (registerRead r addr s) := by
  unfold registerRead; try dsimp only
  repeat' (first
    | with_reducible assumption | with_reducible apply kept_busAccess | with_reducible apply kept_regRead
    | (intro; intros; try dsimp only))

theorem kept_keepOld {u : State} {s0 : State} {old : State} {f : Fld} (h0 : Kept u s0) (h1 : Kept u old) :
    Kept u (State.keepOld s0 old f) := by
  unfold State.keepOld; try dsimp only
  repeat' (first | with_reducible assumption | with_reducible apply kept_put)

theorem kept_sysWrite {u : State} {off : ℕ} {addr : ℕ} {v : Word} {s : State} (h3 : Kept u s) :
    Kept u (sysWrite off addr v s) := by
  unfold sysWrite; try dsimp only
  repeat' (first
    | with_reducible assumption | with_reducible apply kept_regWriteWith | with_reducible apply kept_coldRequest
    | with_reducible apply kept_warmRequest | with_reducible apply kept_put | with_reducible apply kept_ite
    | (intro; intros; try dsimp only))

theorem kept_dblWrite {u : State} {off : ℕ} {addr : ℕ} {v : Word} {s : State} (h3 : Kept u s) :
    Kept u (dblWrite off addr v s) := by
  unfold dblWrite; try dsimp only
  repeat' (first
    | with_reducible assumption | with_reducible apply kept_holdWrite | with_reducible apply kept_regWriteWith
    | with_reducible apply kept_faultClear | with_reducible apply kept_injectionStart
    | with_reducible apply kept_keepOld | with_reducible apply kept_ite | (intro; intros; try dsimp only) | split)

theorem kept_angWrite {u : State} {b : Bridge} {off : ℕ} {addr : ℕ} {v : Word} {s : State} (h4 : Kept u s) :
    Kept u (angWrite b off addr v s) := by
  unfold angWrite; try dsimp only
  repeat' (first
    | with_reducible assumption | with_reducible apply kept_angCtrlWrite | with_reducible apply kept_cuePosWrite
    | with_reducible apply kept_cueCfgWrite | with_reducible apply kept_accErr
    | with_reducible apply kept_regWriteWith | with_reducible apply kept_ite | (intro; intros; try dsimp only)
    | split | with_reducible apply kept_id)

theorem kept_posWrite {u : State} {k : PosBlk} {off : ℕ} {addr : ℕ} {v : Word} {s : State} (h4 : Kept u s) :
    Kept u (posWrite k off addr v s) := by
  unfold posWrite; try dsimp only
  repeat' (first
    | with_reducible assumption | with_reducible apply kept_posCtrlWrite | with_reducible apply kept_compareValWrite
    | with_reducible apply kept_regWriteWith | with_reducible apply kept_setTurns
    | with_reducible apply kept_revalMask | with_reducible apply kept_judgeSet | with_reducible apply kept_ite
    | (intro; intros; try dsimp only))

theorem kept_sentSwitched {u : State} {c : SentCh} {was : Bool} {s2 : State} (h2 : Kept u s2) :
    Kept u (sentSwitched c was s2) := by
  unfold sentSwitched; try dsimp only
  repeat' (first
    | with_reducible assumption | with_reducible apply kept_emuFollow | with_reducible apply kept_modSent
    | with_reducible apply kept_put | with_reducible apply kept_ite)

theorem kept_sentWrite {u : State} {off : ℕ} {addr : ℕ} {v : Word} {s : State} (h3 : Kept u s) :
    Kept u (sentWrite off addr v s) := by
  unfold sentWrite; try dsimp only
  repeat' (first
    | with_reducible assumption | with_reducible apply kept_regWriteWith | with_reducible apply kept_sentSwitched
    | with_reducible apply kept_revalSent | with_reducible apply kept_ite | (intro; intros; try dsimp only) | split)

theorem kept_emuWrite {u : State} {off : ℕ} {addr : ℕ} {v : Word} {s : State} (h3 : Kept u s) :
    Kept u (emuWrite off addr v s) := by
  unfold emuWrite; try dsimp only
  repeat' (first
    | with_reducible assumption | with_reducible apply kept_regWriteWith | with_reducible apply kept_emuFollow
    | with_reducible apply kept_emuLow | with_reducible apply kept_ite | (intro; intros; try dsimp only))

theorem kept_isnsWrite {u : State} {off : ℕ} {addr : ℕ} {v : Word} {s : State} (h3 : Kept u s) :
    Kept u (isnsWrite off addr v s) := by
  unfold isnsWrite; try dsimp only
  repeat' (first
    | with_reducible assumption | with_reducible apply kept_modBridge | with_reducible apply kept_calRequest
    | with_reducible apply kept_regWriteWith | with_reducible apply kept_revalChannels
    | with_reducible apply kept_keepOld | with_reducible apply kept_ite | (intro; intros; try dsimp only))

theorem kept_hleWrite {u : State} {off : ℕ} {addr : ℕ} {v : Word} {s : State} (h3 : Kept u s) :
    Kept u (hleWrite off addr v s) := by
  unfold hleWrite; try dsimp only
  repeat' (first
    | with_reducible assumption | with_reducible apply kept_hleEnable | with_reducible apply kept_softTrigger
    | with_reducible apply kept_engCtrlWrite | with_reducible apply kept_regWriteWith | with_reducible apply kept_ite
    | (intro; intros; try dsimp only) | split | with_reducible apply kept_id)

theorem kept_mcWrite {u : State} {b : Bridge} {off : ℕ} {addr : ℕ} {v : Word} {s : State} (h4 : Kept u s) :
    Kept u (mcWrite b off addr v s) := by
  unfold mcWrite; try dsimp only
  repeat' (first
    | with_reducible assumption | with_reducible apply kept_mcCtrlWrite | with_reducible apply kept_dutyWrite
    | with_reducible apply kept_ssdutyWrite | with_reducible apply kept_regWriteWith | with_reducible apply kept_ite
    | (intro; intros; try dsimp only) | with_reducible apply kept_id)

theorem kept_gdWrite {u : State} {b : Bridge} {off : ℕ} {addr : ℕ} {v : Word} {s : State} (h4 : Kept u s) :
    Kept u (gdWrite b off addr v s) := by
  unfold gdWrite; try dsimp only
  repeat' (first
    | with_reducible assumption | with_reducible apply kept_gdCtrlWrite | with_reducible apply kept_snsTrimWrite
    | with_reducible apply kept_regWriteWith | with_reducible apply kept_ite | (intro; intros; try dsimp only)
    | split | with_reducible apply kept_id)

theorem kept_ebpWrite {u : State} {e : Port} {off : ℕ} {addr : ℕ} {v : Word} {s : State} (h4 : Kept u s) :
    Kept u (ebpWrite e off addr v s) := by
  unfold ebpWrite; try dsimp only
  repeat' (first
    | with_reducible assumption | with_reducible apply kept_regWriteWith | with_reducible apply kept_put
    | with_reducible apply kept_retrain | with_reducible apply kept_ite | (intro; intros; try dsimp only))

theorem kept_contCtrlWrite {u : State} {addr : ℕ} {v : Word} {s : State} (h2 : Kept u s) :
    Kept u (contCtrlWrite addr v s) := by
  unfold contCtrlWrite; try dsimp only
  repeat' (first
    | with_reducible assumption | with_reducible apply kept_regWriteWith | with_reducible apply kept_keepOld
    | with_reducible apply kept_withdrawRequest | with_reducible apply kept_soloLead | with_reducible apply kept_ite
    | (intro; intros; try dsimp only))

theorem kept_contWrite {u : State} {off : ℕ} {addr : ℕ} {v : Word} {s : State} (h3 : Kept u s) :
    Kept u (contWrite off addr v s) := by
  unfold contWrite; try dsimp only
  repeat' (first
    | with_reducible assumption | with_reducible apply kept_contCtrlWrite | with_reducible apply kept_regWriteWith
    | with_reducible apply kept_keepOld | with_reducible apply kept_swapRequest | with_reducible apply kept_switchGo
    | with_reducible apply kept_handover | with_reducible apply kept_judgeSet | with_reducible apply kept_ite
    | (intro; intros; try dsimp only))

theorem kept_safeWrite {u : State} {off : ℕ} {addr : ℕ} {v : Word} {s : State} (h3 : Kept u s) :
    Kept u (safeWrite off addr v s) := by
  unfold safeWrite; try dsimp only
  repeat' (first
    | with_reducible assumption | with_reducible apply kept_causeWrite | with_reducible apply kept_safeCutWrite
    | with_reducible apply kept_closeWrite | with_reducible apply kept_regWriteWith | with_reducible apply kept_ite
    | (intro; intros; try dsimp only) | with_reducible apply kept_id)

theorem kept_canWrite {u : State} {n : CanCtl} {off : ℕ} {addr : ℕ} {v : Word} {s : State} (h4 : Kept u s) :
    Kept u (canWrite n off addr v s) := by
  unfold canWrite; try dsimp only
  repeat' (first
    | with_reducible assumption | with_reducible apply kept_canWindow | with_reducible apply kept_regWriteWith
    | with_reducible apply kept_keepOld | with_reducible apply kept_canEnable | with_reducible apply kept_abdStart
    | with_reducible apply kept_canRecover | with_reducible apply kept_canRequest
    | with_reducible apply kept_canCancel | with_reducible apply kept_ite | (intro; intros; try dsimp only) | split)

theorem kept_uslWrite {u : State} {off : ℕ} {addr : ℕ} {v : Word} {s : State} (h3 : Kept u s) :
    Kept u (uslWrite off addr v s) := by
  unfold uslWrite; try dsimp only
  repeat' (first
    | with_reducible assumption | with_reducible apply kept_regWriteWith | with_reducible apply kept_uslEnable
    | with_reducible apply kept_keepOld | with_reducible apply kept_ite | (intro; intros; try dsimp only))

theorem kept_timeWrite {u : State} {off : ℕ} {addr : ℕ} {v : Word} {s : State} (h3 : Kept u s) :
    Kept u (timeWrite off addr v s) := by
  unfold timeWrite; try dsimp only
  repeat' (first
    | with_reducible assumption | with_reducible apply kept_stepNs | with_reducible apply kept_setRate
    | with_reducible apply kept_regWriteWith | with_reducible apply kept_ite | (intro; intros; try dsimp only)
    | with_reducible apply kept_id)

theorem kept_hostEmpty {u : State} {s : State} (h0 : Kept u s) :
    Kept u (hostEmpty s) := by
  unfold hostEmpty; try dsimp only
  repeat' (first
    | with_reducible assumption | with_reducible apply kept_canCancel | with_reducible apply kept_modHost
    | with_reducible apply kept_put)

theorem kept_hostWrite {u : State} {off : ℕ} {addr : ℕ} {v : Word} {s : State} (h3 : Kept u s) :
    Kept u (hostWrite off addr v s) := by
  unfold hostWrite; try dsimp only
  repeat' (first
    | with_reducible assumption | with_reducible apply kept_regWriteWith | with_reducible apply kept_hostEmpty
    | with_reducible apply kept_ite | (intro; intros; try dsimp only))

theorem kept_pwrWrite {u : State} {r : Requester} {addr : ℕ} {v : Word} {s : State} (h3 : Kept u s) :
    Kept u (pwrWrite r addr v s) := by
  unfold pwrWrite; try dsimp only
  repeat' (first
    | with_reducible assumption | with_reducible apply kept_myVote | with_reducible apply kept_hostVote
    | with_reducible apply kept_regWriteWith | with_reducible apply kept_ite | (intro; intros; try dsimp only)
    | with_reducible apply kept_id)

theorem kept_dbgWrite {u : State} {addr : ℕ} {v : Word} {s : State} (h2 : Kept u s) :
    Kept u (dbgWrite addr v s) := by
  unfold dbgWrite; try dsimp only
  repeat' (first
    | with_reducible assumption | with_reducible apply kept_regWriteWith | with_reducible apply kept_ite
    | (intro; intros; try dsimp only) | with_reducible apply kept_id)

theorem kept_regAct {u : State} {r : Requester} {addr : ℕ} {v : Word} {s : State} (h3 : Kept u s) :
    Kept u (regAct r addr v s) := by
  unfold regAct; try dsimp only
  repeat' (first
    | with_reducible assumption | with_reducible apply kept_accErr | with_reducible apply kept_sysWrite
    | with_reducible apply kept_pwrWrite | with_reducible apply kept_dblWrite | with_reducible apply kept_angWrite
    | with_reducible apply kept_posWrite | with_reducible apply kept_sentWrite | with_reducible apply kept_emuWrite
    | with_reducible apply kept_isnsWrite | with_reducible apply kept_hleWrite | with_reducible apply kept_mcWrite
    | with_reducible apply kept_gdWrite | with_reducible apply kept_ebpWrite | with_reducible apply kept_contWrite
    | with_reducible apply kept_safeWrite | with_reducible apply kept_canWrite | with_reducible apply kept_uslWrite
    | with_reducible apply kept_timeWrite | with_reducible apply kept_hostWrite | with_reducible apply kept_dbgWrite
    | with_reducible apply kept_regWriteWith | with_reducible apply kept_ite | (intro; intros; try dsimp only)
    | split | with_reducible apply kept_id)

theorem kept_registerWrite {u : State} {r : Requester} {addr : ℕ} {v : Word} {s : State} (h3 : Kept u s) :
    Kept u (registerWrite r addr v s) := by
  unfold registerWrite; try dsimp only
  repeat' (first
    | with_reducible assumption | with_reducible apply kept_busAccess | with_reducible apply kept_regAct
    | with_reducible apply kept_busData | (intro; intros; try dsimp only))

theorem kept_checkedWrite {u : State} {p : Pair} {addr : ℕ} {v : Word} {agreed : Bool} {s : State} (h4 : Kept u s) :
    Kept u (checkedWrite p addr v agreed s) := by
  unfold checkedWrite; try dsimp only
  repeat' (first
    | with_reducible assumption | with_reducible apply kept_registerWrite | with_reducible apply kept_ite)

theorem kept_execRegisterWrite {u : State} {r : Requester} {addr : Word} {val : Word} {s : State} (h3 : Kept u s) :
    ∀ t, (execRegisterWrite r addr val s) = .next t → Kept u t := by
  intro t ht; unfold execRegisterWrite at ht; obtain rfl := Host.Outcome.next.inj ht; try dsimp only
  repeat' (first | with_reducible assumption | with_reducible apply kept_registerWrite)

theorem kept_execReadClear {u : State} {r : Requester} {addr : Word} {s : State} (h2 : Kept u s) :
    ∀ t, (execReadClear r addr s) = .next t → Kept u t := by
  intro t ht; unfold execReadClear at ht; obtain rfl := Host.Outcome.next.inj ht; try dsimp only
  repeat' (first | with_reducible assumption | with_reducible apply kept_registerRead)

theorem kept_execCheckedEgressWrite {u : State} {p : Pair} {addr : Word} {val : Word} {agreed : Bool} {s : State} (h4 : Kept u s) :
    ∀ t, (execCheckedEgressWrite p addr val agreed s) = .next t → Kept u t := by
  intro t ht; unfold execCheckedEgressWrite at ht; obtain rfl := Host.Outcome.next.inj ht; try dsimp only
  repeat' (first | with_reducible assumption | with_reducible apply kept_checkedWrite)

theorem kept_execTimeNsRead {u : State} {r : Requester} {s : State} (h1 : Kept u s) :
    ∀ t, (execTimeNsRead r s) = .next t → Kept u t := by
  intro t ht; unfold execTimeNsRead at ht; obtain rfl := Host.Outcome.next.inj ht; try dsimp only
  repeat' (first | with_reducible assumption | with_reducible apply kept_registerRead)

theorem kept_execUcycNsRead {u : State} {r : Requester} {s : State} (h1 : Kept u s) :
    ∀ t, (execUcycNsRead r s) = .next t → Kept u t := by
  intro t ht; unfold execUcycNsRead at ht; obtain rfl := Host.Outcome.next.inj ht; try dsimp only
  repeat' (first | with_reducible assumption | with_reducible apply kept_registerRead)

theorem kept_execUptimeRead {u : State} {r : Requester} {s : State} (h1 : Kept u s) :
    ∀ t, (execUptimeRead r s) = .next t → Kept u t := by
  intro t ht; unfold execUptimeRead at ht; obtain rfl := Host.Outcome.next.inj ht; try dsimp only
  repeat' (first | with_reducible assumption | with_reducible apply kept_registerRead)

theorem kept_execTimeRateWrite {u : State} {val : Word} {s : State} (h1 : Kept u s) :
    ∀ t, (execTimeRateWrite val s) = .next t → Kept u t := by
  intro t ht; unfold execTimeRateWrite at ht; obtain rfl := Host.Outcome.next.inj ht; try dsimp only
  repeat' (first | with_reducible assumption | with_reducible apply kept_setRate)

theorem kept_execTimeStep {u : State} {val : Word} {s : State} (h1 : Kept u s) :
    ∀ t, (execTimeStep val s) = .next t → Kept u t := by
  intro t ht; unfold execTimeStep at ht; obtain rfl := Host.Outcome.next.inj ht; try dsimp only
  repeat' (first | with_reducible assumption | with_reducible apply kept_stepNs)

theorem kept_execHostDisable {u : State} {s : State} (h0 : Kept u s) :
    ∀ t, (execHostDisable s) = .next t → Kept u t := by
  intro t ht; unfold execHostDisable at ht; obtain rfl := Host.Outcome.next.inj ht; try dsimp only
  repeat' (first | with_reducible assumption | with_reducible apply kept_hostEmpty | with_reducible apply kept_put)

theorem kept_refuseAccess {u : State} {r : Requester} {k : AccessKind} {addr : ℕ} {s : State} (h3 : Kept u s) :
    Kept u (refuseAccess r k addr s) := by
  unfold refuseAccess; try dsimp only
  repeat' (first | with_reducible assumption | with_reducible apply kept_raiseTo | with_reducible apply kept_refuse)

theorem kept_errorReaction {u : State} {r : Requester} {k : AccessKind} {addr : ℕ} {s : State} (h3 : Kept u s) :
    Kept u (errorReaction r k addr s) := by
  unfold errorReaction; try dsimp only
  repeat' (first
    | with_reducible assumption | with_reducible apply kept_trapPair | with_reducible apply kept_engineFault
    | with_reducible apply kept_modSys | with_reducible apply kept_setCut | with_reducible apply kept_startFail
    | with_reducible apply kept_ite | split)

theorem kept_eccRead {u : State} {r : Requester} {k : AccessKind} {addr : ℕ} {found : EccFinding} {act : State → State} {s : State} (h4 : ∀ t0, Kept u t0 → Kept u (act t0)) (h5 : Kept u s) :
    Kept u (eccRead r k addr found act s) := by
  unfold eccRead; try dsimp only
  repeat' (first
    | with_reducible assumption | with_reducible apply h4 | with_reducible apply kept_errorCorrected
    | with_reducible apply kept_errorReaction | with_reducible apply kept_busError
    | with_reducible apply kept_errorRecorded | (intro; intros; try dsimp only) | split)

theorem kept_readPlain {u : State} {a : ℕ} {w : ℕ} {s : State} (h2 : Kept u s) :
    Kept u (readPlain a w s) := by
  unfold readPlain; try dsimp only
  repeat' (first
    | with_reducible assumption | with_reducible apply kept_busData | with_reducible apply kept_drew
    | with_reducible apply kept_ite)

theorem kept_breakReservations {u : State} {by_ : Option Pair} {a : ℕ} {s : State} (h2 : Kept u s) :
    Kept u (breakReservations by_ a s) := by
  unfold breakReservations; try dsimp only
  repeat' (first
    | with_reducible assumption | with_reducible apply kept_modCopies | with_reducible apply kept_foldl
    | with_reducible apply kept_ite | (intro; intros; try dsimp only))

theorem kept_windowCopies {u : State} {a : ℕ} {s : State} (h1 : Kept u s) :
    Kept u (windowCopies a s) := by
  unfold windowCopies; try dsimp only
  repeat' (first | with_reducible assumption | with_reducible apply kept_setMem20 | with_reducible apply kept_ite)

theorem kept_sendFrameOn {u : State} {ports : List Port} {ty : ℕ} {payload : List Byte} {s : State} (h3 : Kept u s) :
    Kept u (sendFrameOn ports ty payload s) := by
  unfold sendFrameOn; try dsimp only
  repeat' (first
    | with_reducible assumption | with_reducible apply kept_modLines | with_reducible apply kept_sendOn
    | with_reducible apply kept_foldl | with_reducible apply kept_ite | (intro; intros; try dsimp only))

theorem kept_exchangeCapture {u : State} {r : Requester} {a : ℕ} {w : ℕ} {s : State} (h3 : Kept u s) :
    Kept u (exchangeCapture r a w s) := by
  unfold exchangeCapture; try dsimp only
  repeat' (first
    | with_reducible assumption | with_reducible apply kept_sendFrameOn | with_reducible apply kept_ite | split)

theorem kept_countsWrite {u : State} {r : Requester} {a : ℕ} {s : State} (h2 : Kept u s) :
    Kept u (countsWrite r a s) := by
  unfold countsWrite; try dsimp only
  repeat' (first | with_reducible assumption | with_reducible apply kept_bumpWrgen | split)

theorem kept_writePlain {u : State} {r : Requester} {a : ℕ} {w : ℕ} {v : Word} {s : State} (h4 : Kept u s) :
    Kept u (writePlain r a w v s) := by
  unfold writePlain; try dsimp only
  repeat' (first
    | with_reducible assumption | with_reducible apply kept_countsWrite | with_reducible apply kept_windowCopies
    | with_reducible apply kept_setBytes | with_reducible apply kept_breakReservations
    | with_reducible apply kept_dLanded | with_reducible apply kept_exchangeCapture | with_reducible apply kept_ite
    | split)

theorem kept_lineFetch {u : State} {p : Pair} {icache : Bool} {k : AccessKind} {a : ℕ} {w : ℕ} {found : EccFinding} {s : State} (h6 : Kept u s) :
    Kept u (lineFetch p icache k a w found s) := by
  unfold lineFetch; try dsimp only
  repeat' (first
    | with_reducible assumption | with_reducible apply kept_eccRead | with_reducible apply kept_readPlain
    | with_reducible apply kept_busData | with_reducible apply kept_modCore | with_reducible apply kept_drew
    | with_reducible apply kept_ite | (intro; intros; try dsimp only))

theorem kept_cachedRead {u : State} {p : Pair} {icache : Bool} {k : AccessKind} {a : ℕ} {w : ℕ} {found : EccFinding} {cacheFound : EccFinding} {s : State} (h7 : Kept u s) :
    Kept u (cachedRead p icache k a w found cacheFound s) := by
  unfold cachedRead; try dsimp only
  repeat' (first
    | with_reducible assumption | with_reducible apply kept_lineFetch | with_reducible apply kept_busData
    | with_reducible apply kept_count | with_reducible apply kept_modCore | with_reducible apply kept_sat
    | with_reducible apply kept_ite | split)

theorem kept_writeThrough {u : State} {p : Pair} {a : ℕ} {w : ℕ} {v : Word} {s : State} (h4 : Kept u s) :
    Kept u (writeThrough p a w v s) := by
  unfold writeThrough; try dsimp only
  repeat' (first
    | with_reducible assumption | with_reducible apply kept_writePlain | with_reducible apply kept_modCore
    | with_reducible apply kept_ite)

theorem kept_atomicAccess {u : State} {p : Pair} {k : AccessKind} {a : ℕ} {v : Word} {found : EccFinding} {s : State} (h5 : Kept u s) :
    Kept u (atomicAccess p k a v found s) := by
  unfold atomicAccess; try dsimp only
  repeat' (first
    | with_reducible assumption | with_reducible apply kept_eccRead | with_reducible apply kept_readPlain
    | with_reducible apply kept_modCopies | with_reducible apply kept_busData
    | with_reducible apply kept_writeThrough | with_reducible apply kept_ite | (intro; intros; try dsimp only)
    | split)

theorem kept_memPerform {u : State} {r : Requester} {m : MemAccess} {s : State} (h2 : Kept u s) :
    Kept u (memPerform r m s) := by
  unfold memPerform; try dsimp only
  repeat' (first
    | with_reducible assumption | with_reducible apply kept_cachedRead | with_reducible apply kept_eccRead
    | with_reducible apply kept_readPlain | with_reducible apply kept_busData
    | with_reducible apply kept_writeThrough | with_reducible apply kept_atomicAccess
    | with_reducible apply kept_writePlain | with_reducible apply kept_refuseAccess | with_reducible apply kept_ite
    | (intro; intros; try dsimp only) | split)

theorem kept_memRegion {u : State} {r : Requester} {reg : Region} {m : MemAccess} {s : State} (h3 : Kept u s) :
    Kept u (memRegion r reg m s) := by
  unfold memRegion; try dsimp only
  repeat' (first
    | with_reducible assumption | with_reducible apply kept_raiseTo | with_reducible apply kept_refuse
    | with_reducible apply kept_busError | with_reducible apply kept_refuseAccess | with_reducible apply kept_put
    | with_reducible apply kept_memPerform | with_reducible apply kept_ite | split)

theorem kept_memPeripheral {u : State} {r : Requester} {m : MemAccess} {s : State} (h2 : Kept u s) :
    Kept u (memPeripheral r m s) := by
  unfold memPeripheral; try dsimp only
  repeat' (first
    | with_reducible assumption | with_reducible apply kept_raiseTo | with_reducible apply kept_refuse
    | with_reducible apply kept_busError | with_reducible apply kept_refuseAccess
    | with_reducible apply kept_registerRead | with_reducible apply kept_registerWrite
    | with_reducible apply kept_ite | split)

theorem kept_placeAccess {u : State} {r : Requester} {m : MemAccess} {s : State} (h2 : Kept u s) :
    Kept u (placeAccess r m s) := by
  unfold placeAccess; try dsimp only
  repeat' (first
    | with_reducible assumption | with_reducible apply kept_memPeripheral | with_reducible apply kept_refuseAccess
    | with_reducible apply kept_memRegion | with_reducible apply kept_ite | split)

theorem kept_splitFetch {u : State} {r : Requester} {m : MemAccess} {s : State} (h2 : Kept u s) :
    Kept u (splitFetch r m s) := by
  unfold splitFetch; try dsimp only
  repeat' (first
    | with_reducible assumption | with_reducible apply kept_placeAccess | with_reducible apply kept_busData
    | with_reducible apply kept_ite)

theorem kept_requesterRuns {u : State} {r : Requester} {g : Progress} {s : State} (h2 : Kept u s) :
    Kept u (requesterRuns r g s) := by
  unfold requesterRuns; try dsimp only
  repeat' (first | with_reducible assumption | with_reducible apply kept_progressed | split)

theorem kept_doubleParts {u : State} {p : Pair} {m : MemAccess} {s : State} {s3 : State} (h2 : Kept u s) (h3 : Kept u s3) :
    Kept u (doubleParts p m s s3) := by
  unfold doubleParts; try dsimp only
  repeat' (first | with_reducible assumption | with_reducible apply kept_modCore | with_reducible apply kept_ite)

theorem kept_accessHere {u : State} {r : Requester} {m : MemAccess} {s : State} (h2 : Kept u s) :
    Kept u (accessHere r m s) := by
  unfold accessHere; try dsimp only
  repeat' (first
    | with_reducible assumption | with_reducible apply kept_busError | with_reducible apply kept_splitFetch
    | with_reducible apply kept_trapPair | with_reducible apply kept_refuse | with_reducible apply kept_placeAccess
    | with_reducible apply kept_ite | split)

theorem kept_comparedAccess {u : State} {r : Requester} {m : MemAccess} {s : State} (h2 : Kept u s) :
    Kept u (comparedAccess r m s) := by
  unfold comparedAccess; try dsimp only
  repeat' (first
    | with_reducible assumption | with_reducible apply kept_lockstepCapture | with_reducible apply kept_doubleParts
    | with_reducible apply kept_accessHere | with_reducible apply kept_ite | split)

theorem kept_accessNow {u : State} {r : Requester} {m : MemAccess} {s : State} (h2 : Kept u s) :
    Kept u (accessNow r m s) := by
  unfold accessNow; try dsimp only
  repeat' (first
    | with_reducible assumption | with_reducible apply kept_comparedAccess | with_reducible apply kept_ite)

theorem kept_memoryAccess {u : State} {r : Requester} {m : MemAccess} {s : State} (h2 : Kept u s) :
    Kept u (memoryAccess r m s) := by
  unfold memoryAccess; try dsimp only
  repeat' (first
    | with_reducible assumption | with_reducible apply kept_comparedAccess | with_reducible apply kept_requesterRuns
    | with_reducible apply kept_ite)

theorem kept_performAll {u s1 : State} {a0 : List Request} (h1 : Kept u s1) : Kept u (performAll a0 s1).1 := by
  induction a0 generalizing s1 with
  | nil => exact h1
  | cons q t ih => exact ih (kept_memoryAccess h1)

theorem kept_cycleAccess {u : State} {q : Request} {rivals : List Request} {s : State} (h2 : Kept u s) :
    Kept u (cycleAccess q rivals s) := by
  unfold cycleAccess; try dsimp only
  repeat' (first
    | with_reducible assumption | with_reducible apply kept_memoryAccess | with_reducible apply kept_performAll
    | with_reducible apply kept_modSys | with_reducible apply kept_ite | with_reducible refine kept_mk ?_ rfl rfl rfl)

theorem kept_portFault {u : State} {e : Eng} {pc : BitVec 12} {s : State} (h2 : Kept u s) :
    Kept u (portFault e pc s) := by
  unfold portFault; try dsimp only
  repeat' (first | with_reducible assumption | with_reducible apply kept_engineFault)

theorem kept_portIn {u : State} {e : Eng} {d : XReg} {port : Fin 64} {found : EccFinding} {s : State} (h4 : Kept u s) :
    Kept u (portIn e d port found s) := by
  unfold portIn; try dsimp only
  repeat' (first
    | with_reducible assumption | with_reducible apply kept_running | with_reducible apply kept_portFault
    | with_reducible apply kept_accessNow | with_reducible apply kept_advance | with_reducible apply kept_flagsOpen
    | with_reducible apply kept_setX | with_reducible apply kept_drew | with_reducible apply kept_ite
    | (intro; intros; try dsimp only))

theorem kept_postedDone {u : State} {e : Eng} {s : State} (h1 : Kept u s) :
    Kept u (postedDone e s) := by
  unfold postedDone; try dsimp only
  repeat' (first
    | with_reducible assumption | with_reducible apply kept_modEng | with_reducible apply kept_accessNow
    | with_reducible apply kept_portFault | with_reducible apply kept_ite | split)

theorem kept_postedAll {u : State} {l : List Eng} {s : State} (h1 : Kept u s) :
    Kept u (postedAll l s) := by
  unfold postedAll; try dsimp only
  repeat' (first
    | with_reducible assumption | with_reducible apply kept_postedDone | with_reducible apply kept_foldl
    | (intro; intros; try dsimp only))

theorem kept_portOut {u : State} {e : Eng} {port : Fin 64} {a : XReg} {suppressed : Bool} {s : State} (h4 : Kept u s) :
    Kept u (portOut e port a suppressed s) := by
  unfold portOut; try dsimp only
  repeat' (first
    | with_reducible assumption | with_reducible apply kept_running | with_reducible apply kept_portFault
    | with_reducible apply kept_advance | with_reducible apply kept_postedDone | with_reducible apply kept_modEng
    | with_reducible apply kept_drew | with_reducible apply kept_ite | (intro; intros; try dsimp only))

theorem kept_execMemoryAccess {u : State} {r : Requester} {m : CycleAccess} {s : State} (h2 : Kept u s) :
    ∀ t, (execMemoryAccess r m s) = .next t → Kept u t := by
  intro t ht; unfold execMemoryAccess at ht; obtain rfl := Host.Outcome.next.inj ht; try dsimp only
  repeat' (first | with_reducible assumption | with_reducible apply kept_cycleAccess)

theorem kept_execCoefficientWrite {u : State} {r : Requester} {e : Eng} {bank : Bool} {word : Fin 512} {val : Word} {s : State} (h5 : Kept u s) :
    ∀ t, (execCoefficientWrite r e bank word val s) = .next t → Kept u t := by
  intro t ht; unfold execCoefficientWrite at ht; obtain rfl := Host.Outcome.next.inj ht; try dsimp only
  repeat' (first | with_reducible assumption | with_reducible apply kept_accessNow)

theorem kept_execInPort {u : State} {e : Eng} {d : XReg} {port : PortRead} {s : State} (h3 : Kept u s) :
    ∀ t, (execInPort e d port s) = .next t → Kept u t := by
  intro t ht; unfold execInPort at ht; obtain rfl := Host.Outcome.next.inj ht; try dsimp only
  repeat' (first | with_reducible assumption | with_reducible apply kept_portIn)

theorem kept_execOutPort {u : State} {e : Eng} {port : Fin 64} {a : XReg} {s : State} (h3 : Kept u s) :
    ∀ t, (execOutPort e port a s) = .next t → Kept u t := by
  intro t ht; unfold execOutPort at ht; obtain rfl := Host.Outcome.next.inj ht; try dsimp only
  repeat' (first | with_reducible assumption | with_reducible apply kept_portOut)

theorem kept_execOutPortL {u : State} {e : Eng} {port : Fin 64} {a : XReg} {s : State} (h3 : Kept u s) :
    ∀ t, (execOutPortL e port a s) = .next t → Kept u t := by
  intro t ht; unfold execOutPortL at ht; obtain rfl := Host.Outcome.next.inj ht; try dsimp only
  repeat' (first | with_reducible assumption | with_reducible apply kept_portOut)

theorem kept_execPostedWriteComplete {u : State} {e : List Eng} {s : State} (h1 : Kept u s) :
    ∀ t, (execPostedWriteComplete e s) = .next t → Kept u t := by
  intro t ht; unfold execPostedWriteComplete at ht
  refine kept_clockedOut (by assumption) ?_ t ht; clear ht t; intro t ht; obtain rfl := Host.Outcome.next.inj ht; try dsimp only
  repeat' (first | with_reducible assumption | with_reducible apply kept_postedAll)

theorem kept_bitsHit {u : State} {p : Pair} {bits : List ℕ} {s : State} (h2 : Kept u s) :
    Kept u (bitsHit p bits s) := by
  unfold bitsHit; try dsimp only
  repeat' (first
    | with_reducible assumption | with_reducible apply kept_lockstepCapture | with_reducible apply kept_ite)

theorem kept_setCopies {u : State} {p : Pair} {a : Copy} {b : Copy} {s : State} (h3 : Kept u s) :
    Kept u (setCopies p a b s) := by
  unfold setCopies; try dsimp only
  repeat' (first | with_reducible assumption | with_reducible apply kept_modCore)

theorem kept_customWrite {u : State} {p : Pair} {n : ℕ} {v : Word} {s : State} (h3 : Kept u s) :
    Kept u (customWrite p n v s) := by
  unfold customWrite; try dsimp only
  repeat' (first
    | with_reducible assumption | with_reducible apply kept_driveSignature
    | with_reducible apply kept_dcacheInvalidate | with_reducible apply kept_resetCsr
    | with_reducible apply kept_startupWritten | split)

theorem kept_demandAccess {u : State} {p : Pair} {agreed : Bool} {d : Demand} {s : State} (h3 : Kept u s) :
    Kept u (demandAccess p agreed d s) := by
  unfold demandAccess; try dsimp only
  repeat' (first | with_reducible assumption | with_reducible apply kept_accessNow | with_reducible apply kept_ite)

theorem kept_pairInstr {u : State} {p : Pair} {debug : Bool} {w : ℕ} {raw : ℕ} {len : ℕ} {s : State} (h5 : Kept u s) :
    Kept u (pairInstr p debug w raw len s).1 := by
  unfold pairInstr; try dsimp only
  repeat' (first
    | with_reducible assumption | with_reducible apply kept_drew | with_reducible apply kept_setCopies
    | with_reducible apply kept_demandAccess | with_reducible apply kept_bitsHit | with_reducible apply kept_modCore
    | with_reducible apply kept_icacheInvalidate | with_reducible apply kept_customWrite | split
    | with_reducible refine kept_mk ?_ rfl rfl rfl)

theorem kept_fetchInstr {u : State} {p : Pair} {s : State} (h1 : Kept u s) :
    Kept u (fetchInstr p s).1 := by
  unfold fetchInstr; try dsimp only
  repeat' (first
    | with_reducible assumption | with_reducible apply kept_accessNow | split
    | with_reducible refine kept_mk ?_ rfl rfl rfl)

theorem kept_programInstr {u : State} {p : Pair} {w raw len : ℕ} {s : State} (h3 : Kept u s) :
    Kept u (programInstr p w raw len s) := by
  unfold programInstr
  have k := kept_pairInstr (p := p) (debug := false) (w := w) (raw := raw) (len := len) h3
  split
  · next e => rw [e] at k; exact kept_ite k (kept_modCopies k)
  · next e => rw [e] at k; exact k

theorem kept_stepPair {u s1 : State} {a0 : Pair} (h1 : Kept u s1) : Kept u (stepPair a0 s1) := by
  unfold stepPair
  generalize diffBits 0 32 s1.cores[a0.val].main.pc s1.cores[a0.val].double.pc = l
  have k := kept_bitsHit (p := a0) (bits := l) h1
  refine kept_ite k ?_
  have k := kept_fetchInstr (p := a0) k
  split
  · next e => rw [e] at k; exact k
  · next e =>
    rw [e] at k
    refine kept_ite (kept_programInstr k) ?_
    split
    · exact kept_programInstr k
    · exact kept_trapPair k

theorem kept_debugStep {u : State} {p : Pair} {s : State} (h1 : Kept u s) :
    Kept u (debugStep p s) := by
  unfold debugStep; try dsimp only
  repeat' (first | with_reducible assumption | with_reducible apply kept_stepPair | with_reducible apply kept_ite)

theorem kept_debugRegister {u : State} {p : Pair} {r : CoreReg} {w : Option Word} {s : State} (h3 : Kept u s) :
    Kept u (debugRegister p r w s) := by
  unfold debugRegister; try dsimp only
  repeat' (first
    | with_reducible assumption | with_reducible apply kept_customWrite | with_reducible apply kept_modCopies
    | with_reducible apply kept_drew | with_reducible apply kept_bitsHit | with_reducible apply kept_ite | split
    | with_reducible refine kept_mk ?_ rfl rfl rfl)

theorem kept_runBuffer {u s3 : State} {a0 : Nat} {a1 : Pair} {a2 : List Nat} (h3 : Kept u s3) : Kept u (runBuffer a0 a1 a2 s3) := by
  induction a0 generalizing a2 s3 with
  | zero => exact h3
  | succ n ih =>
    unfold runBuffer
    split
    · exact kept_mk h3 rfl rfl rfl
    · refine kept_ite (kept_mk h3 rfl rfl rfl) (kept_ite (kept_mk h3 rfl rfl rfl) ?_)
      next w len rest _ =>
        have k := kept_pairInstr (p := a1) (debug := true) (w := w) (raw := w) (len := len) h3
        dsimp only
        split
        · next e => rw [e] at k; exact kept_ite (ih k) k
        · next e => rw [e] at k; exact kept_mk (kept_setCopies k) rfl rfl rfl

theorem kept_debugProgram {u : State} {p : Pair} {program : List Word} {s : State} (h2 : Kept u s) :
    Kept u (debugProgram p program s) := by
  unfold debugProgram; try dsimp only
  repeat' (first
    | with_reducible assumption | with_reducible apply kept_modCopies | with_reducible apply kept_runBuffer
    | with_reducible apply kept_modCore | with_reducible apply kept_ite
    | with_reducible refine kept_mk ?_ rfl rfl rfl)

theorem kept_execDebugSingleStep {u : State} {p : Pair} {s : State} (h1 : Kept u s) :
    ∀ t, (execDebugSingleStep p s) = .next t → Kept u t := by
  intro t ht; unfold execDebugSingleStep at ht
  refine kept_clockedOut (by assumption) ?_ t ht; clear ht t; intro t ht; obtain rfl := Host.Outcome.next.inj ht; try dsimp only
  repeat' (first | with_reducible assumption | with_reducible apply kept_debugStep)

theorem kept_execDebugRegisterAccess {u : State} {p : Pair} {reg : CoreReg} {write : Option Word} {s : State} (h3 : Kept u s) :
    ∀ t, (execDebugRegisterAccess p reg write s) = .next t → Kept u t := by
  intro t ht; unfold execDebugRegisterAccess at ht
  refine kept_clockedOut (by assumption) ?_ t ht; clear ht t; intro t ht; obtain rfl := Host.Outcome.next.inj ht; try dsimp only
  repeat' (first | with_reducible assumption | with_reducible apply kept_debugRegister)

theorem kept_execDebugProgramBuffer {u : State} {p : Pair} {program : List Word} {s : State} (h2 : Kept u s) :
    ∀ t, (execDebugProgramBuffer p program s) = .next t → Kept u t := by
  intro t ht; unfold execDebugProgramBuffer at ht
  refine kept_clockedOut (by assumption) ?_ t ht; clear ht t; intro t ht; obtain rfl := Host.Outcome.next.inj ht; try dsimp only
  repeat' (first | with_reducible assumption | with_reducible apply kept_debugProgram)

theorem kept_modChannel {u : State} {a0 : Transport} {f : Channel → Channel} {s : State} (h2 : Kept u s) :
    Kept u (modChannel a0 f s) := by
  unfold modChannel; try dsimp only
  repeat' (first | with_reducible assumption | with_reducible apply kept_modHost)

theorem kept_showHeld {u : State} {s : State} (h0 : Kept u s) :
    Kept u (showHeld s) := by
  unfold showHeld; try dsimp only
  repeat' (first | with_reducible assumption | with_reducible apply kept_put)

theorem kept_queueReply {u : State} {a0 : Transport} {r : Reply} {s : State} (h2 : Kept u s) :
    Kept u (queueReply a0 r s) := by
  unfold queueReply; try dsimp only
  repeat' (first
    | with_reducible assumption | with_reducible apply kept_showHeld | with_reducible apply kept_modChannel
    | with_reducible apply kept_canSend | split)

theorem kept_answerHead {u : State} {a0 : Transport} {status : ℕ} {payload : List Byte} {s : State} (h3 : Kept u s) :
    Kept u (answerHead a0 status payload s) := by
  unfold answerHead; try dsimp only
  repeat' (first
    | with_reducible assumption | with_reducible apply kept_queueReply | with_reducible apply kept_modChannel | split)

theorem kept_settleSteps {u s2 : State} {a0 : Transport} {a1 : Nat} (h2 : Kept u s2) : Kept u (settleSteps a0 a1 s2) := by
  induction a1 generalizing s2 with
  | zero => exact h2
  | succ n ih =>
    unfold settleSteps
    split
    · exact h2
    · split
      · exact ih (kept_answerHead h2)
      · exact h2

theorem kept_settle {u : State} {a0 : Transport} {s : State} (h1 : Kept u s) :
    Kept u (settle a0 s) := by
  unfold settle; try dsimp only
  repeat' (first | with_reducible assumption | with_reducible apply kept_settleSteps)

theorem kept_replyGone {u : State} {a0 : Transport} {s : State} (h1 : Kept u s) :
    Kept u (replyGone a0 s) := by
  unfold replyGone; try dsimp only
  repeat' (first
    | with_reducible assumption | with_reducible apply kept_showHeld | with_reducible apply kept_modChannel | split)

theorem kept_hold {u : State} {a0 : Transport} {p : Packet} {s : State} (h2 : Kept u s) :
    Kept u (hold a0 p s) := by
  unfold hold; try dsimp only
  repeat' (first
    | with_reducible assumption | with_reducible apply kept_modHost | with_reducible apply kept_showHeld
    | with_reducible apply kept_modChannel | with_reducible apply kept_put | with_reducible apply kept_settle | split)

theorem kept_packetIn {u : State} {a0 : Transport} {limit : ℕ} {l : List Byte} {s : State} (h3 : Kept u s) :
    Kept u (packetIn a0 limit l s) := by
  unfold packetIn; try dsimp only
  repeat' (first
    | with_reducible assumption | with_reducible apply kept_countBit | with_reducible apply kept_put
    | with_reducible apply kept_hold | with_reducible apply kept_ite)

theorem kept_spiSent {u : State} {l : List Byte} {s : State} (h1 : Kept u s) :
    Kept u (spiSent l s) := by
  unfold spiSent; try dsimp only
  repeat' (first | with_reducible assumption | with_reducible apply kept_modHost)

theorem kept_spiRead {u : State} {clocked : ℕ} {s : State} (h1 : Kept u s) :
    Kept u (spiRead clocked s) := by
  unfold spiRead; try dsimp only
  repeat' (first
    | with_reducible assumption | with_reducible apply kept_modHost | with_reducible apply kept_spiSent
    | with_reducible apply kept_replyGone | with_reducible apply kept_ite | split)

theorem kept_spiWrite {u : State} {bytes : List Byte} {s : State} (h1 : Kept u s) :
    Kept u (spiWrite bytes s) := by
  unfold spiWrite; try dsimp only
  repeat' (first
    | with_reducible assumption | with_reducible apply kept_modHost | with_reducible apply kept_spiRead
    | with_reducible apply kept_spiSent | with_reducible apply kept_put | with_reducible apply kept_packetIn
    | with_reducible apply kept_ite | split)

theorem kept_canCommand {u : State} {net : Fin 2} {bytes : List Byte} {s : State} (h2 : Kept u s) :
    Kept u (canCommand net bytes s) := by
  unfold canCommand; try dsimp only
  repeat' (first | with_reducible assumption | with_reducible apply kept_packetIn | with_reducible apply kept_ite)

theorem kept_no {u : State} {code : ℕ} {s : State} (h1 : Kept u s) :
    Kept u (no code s).state := by
  unfold no; try dsimp only
  repeat' (first | with_reducible assumption | split)

theorem kept_ok {u : State} {l : List Byte} {s : State} (h1 : Kept u s) :
    Kept u (ok l s).state := by
  unfold ok; try dsimp only
  repeat' (first | with_reducible assumption | split)

theorem kept_endedAs {u : State} {e : ServiceEnd} {op : ℕ} {a : Answer} {s : State} (h2 : Kept u a.state) (h3 : Kept u s) :
    Kept u (endedAs e op a s).state := by
  unfold endedAs; try dsimp only
  repeat' (first | with_reducible assumption | with_reducible apply kept_no | split)

theorem kept_serve {u : State} {c : Call} {op : ℕ → Bool} {act : List Byte → State → Answer} {s : State} (h2 : ∀ t0 t1, Kept u t1 → Kept u (act t0 t1).state) (h3 : Kept u s) :
    Kept u (serve c op act s) := by
  unfold serve; try dsimp only
  repeat' (first
    | with_reducible assumption | with_reducible apply h2 | with_reducible apply kept_settle
    | with_reducible apply kept_answerHead | with_reducible apply kept_endedAs | (intro; intros; try dsimp only)
    | split)

theorem kept_mboxWrite {u : State} {a0 : Transport} {s : State} (h1 : Kept u s) :
    Kept u (mboxWrite a0 s) := by
  unfold mboxWrite; try dsimp only
  repeat' (first
    | with_reducible assumption | with_reducible apply kept_setBytes | with_reducible apply kept_raise
    | with_reducible apply kept_setMemWord | split)

theorem kept_post {u : State} {busy : Bool} {a1 : Transport} {s : State} (h2 : Kept u s) :
    Kept u (post busy a1 s) := by
  unfold post; try dsimp only
  repeat' (first
    | with_reducible assumption | with_reducible apply kept_modChannel | with_reducible apply kept_modHost | split)

theorem kept_postHeads {u : State} {busy : Bool} {s : State} (h1 : Kept u s) :
    Kept u (postHeads busy s) := by
  unfold postHeads; try dsimp only
  repeat' (first
    | with_reducible assumption | with_reducible apply kept_post | with_reducible apply kept_foldl
    | (intro; intros; try dsimp only))

theorem kept_mboxNext {u : State} {s : State} (h0 : Kept u s) :
    Kept u (mboxNext s) := by
  unfold mboxNext; try dsimp only
  repeat' (first | with_reducible assumption | with_reducible apply kept_mboxWrite | split)

theorem kept_pass {u : State} {c : Call} {op : ℕ} {s : State} (h2 : Kept u s) :
    Kept u (pass c op s) := by
  unfold pass; try dsimp only
  repeat' (first
    | with_reducible assumption | with_reducible apply kept_settle | with_reducible apply kept_answerHead
    | with_reducible apply kept_postHeads | with_reducible apply kept_mboxNext | with_reducible apply kept_ite
    | split)

theorem kept_mboxAnswer {u : State} {a0 : Transport} {status : ℕ} {payload : List Byte} {s : State} (h3 : Kept u s) :
    Kept u (mboxAnswer a0 status payload s) := by
  unfold mboxAnswer; try dsimp only
  repeat' (first
    | with_reducible assumption | with_reducible apply kept_modHost | with_reducible apply kept_mboxNext
    | with_reducible apply kept_postHeads | with_reducible apply kept_settle | with_reducible apply kept_answerHead)

theorem kept_mboxAck {u : State} {s : State} (h0 : Kept u s) :
    Kept u (mboxAck s) := by
  unfold mboxAck; try dsimp only
  repeat' (first
    | with_reducible assumption | with_reducible apply kept_put | with_reducible apply kept_setMemWord
    | with_reducible apply kept_modHost | with_reducible apply kept_mboxAnswer | with_reducible apply kept_drew
    | with_reducible apply kept_ite | split)

theorem kept_mboxLate {u : State} {s : State} (h0 : Kept u s) :
    Kept u (mboxLate s) := by
  unfold mboxLate; try dsimp only
  repeat' (first
    | with_reducible assumption | with_reducible apply kept_mboxAnswer | with_reducible apply kept_modHost | split)

theorem kept_readAsS {u : State} {a : ℕ} {s : State} (h1 : Kept u s) :
    Kept u (readAsS a s).2 := by
  unfold readAsS; try dsimp only
  repeat' (first | with_reducible assumption | with_reducible apply kept_registerRead | split)

theorem kept_readAll {u s1 : State} {a0 : List Nat} (h1 : Kept u s1) : Kept u (readAll a0 s1).2 := by
  induction a0 generalizing s1 with
  | nil => exact h1
  | cons a t ih => exact ih (kept_readAsS h1)

theorem kept_answerRegs {u : State} {l : List ℕ} {s : State} (h1 : Kept u s) :
    Kept u (answerRegs l s).state := by
  unfold answerRegs; try dsimp only
  repeat' (first
    | with_reducible assumption | with_reducible apply kept_readAll | with_reducible apply kept_ok | split)

theorem kept_opInfo {u : State} {s : State} (h0 : Kept u s) :
    Kept u (opInfo s).state := by
  unfold opInfo; try dsimp only
  repeat' (first | with_reducible assumption | with_reducible apply kept_ok | split)

theorem kept_opEcho {u : State} {a0 : Transport} {l : List Byte} {s : State} (h2 : Kept u s) :
    Kept u (opEcho a0 l s).state := by
  unfold opEcho; try dsimp only
  repeat' (first | with_reducible assumption | with_reducible apply kept_ok | with_reducible apply kept_no | split)

theorem kept_opLanestat {u : State} {s : State} (h0 : Kept u s) :
    Kept u (opLanestat s).state := by
  unfold opLanestat; try dsimp only
  repeat' (first | with_reducible assumption | with_reducible apply kept_ok | split)

theorem kept_opReadreg {u : State} {a0 : Transport} {l : List Byte} {s : State} (h2 : Kept u s) :
    Kept u (opReadreg a0 l s).state := by
  unfold opReadreg; try dsimp only
  repeat' (first
    | with_reducible assumption | with_reducible apply kept_no | with_reducible apply kept_answerRegs | split)

theorem kept_opFaults {u : State} {s : State} (h0 : Kept u s) :
    Kept u (opFaults s).state := by
  unfold opFaults; try dsimp only
  repeat' (first | with_reducible assumption | with_reducible apply kept_answerRegs | split)

theorem kept_opPosition {u : State} {l : List Byte} {s : State} (h1 : Kept u s) :
    Kept u (opPosition l s).state := by
  unfold opPosition; try dsimp only
  repeat' (first
    | with_reducible assumption | with_reducible apply kept_no | with_reducible apply kept_readAll
    | with_reducible apply kept_ok | split)

theorem kept_opSafestat {u : State} {s : State} (h0 : Kept u s) :
    Kept u (opSafestat s).state := by
  unfold opSafestat; try dsimp only
  repeat' (first | with_reducible assumption | with_reducible apply kept_answerRegs | split)

theorem kept_opTimeget {u : State} {s : State} (h0 : Kept u s) :
    Kept u (opTimeget s).state := by
  unfold opTimeget; try dsimp only
  repeat' (first
    | with_reducible assumption | with_reducible apply kept_readAll | with_reducible apply kept_ok | split)

theorem kept_opReelread {u : State} {a0 : Transport} {l : List Byte} {s : State} (h2 : Kept u s) :
    Kept u (opReelread a0 l s).state := by
  unfold opReelread; try dsimp only
  repeat' (first | with_reducible assumption | with_reducible apply kept_no | with_reducible apply kept_ok | split)

theorem kept_opLogread {u : State} {l : List Byte} {s : State} (h1 : Kept u s) :
    Kept u (opLogread l s).state := by
  unfold opLogread; try dsimp only
  repeat' (first | with_reducible assumption | with_reducible apply kept_no | with_reducible apply kept_ok | split)

theorem kept_opLedger {u : State} {l : List Byte} {s : State} (h1 : Kept u s) :
    Kept u (opLedger l s).state := by
  unfold opLedger; try dsimp only
  repeat' (first | with_reducible assumption | with_reducible apply kept_no | with_reducible apply kept_ok | split)

theorem kept_opAttest {u : State} {l : List Byte} {s : State} (h1 : Kept u s) :
    Kept u (opAttest l s).state := by
  unfold opAttest; try dsimp only
  repeat' (first | with_reducible assumption | with_reducible apply kept_ok | with_reducible apply kept_drew | split)

theorem kept_opMeasure {u : State} {l : List Byte} {s : State} (h1 : Kept u s) :
    Kept u (opMeasure l s).state := by
  unfold opMeasure; try dsimp only
  repeat' (first | with_reducible assumption | with_reducible apply kept_no | with_reducible apply kept_ok | split)

theorem kept_opPwrget {u : State} {s : State} (h0 : Kept u s) :
    Kept u (opPwrget s).state := by
  unfold opPwrget; try dsimp only
  repeat' (first | with_reducible assumption | with_reducible apply kept_ok | split)

theorem kept_opWakerec {u : State} {s : State} (h0 : Kept u s) :
    Kept u (opWakerec s).state := by
  unfold opWakerec; try dsimp only
  repeat' (first | with_reducible assumption | with_reducible apply kept_ok | split)

theorem kept_opOpen {u : State} {s : State} (h0 : Kept u s) :
    Kept u (opOpen s).state := by
  unfold opOpen; try dsimp only
  repeat' (first
    | with_reducible assumption | with_reducible apply kept_no | with_reducible apply kept_ok
    | with_reducible apply kept_put | split)

theorem kept_opClose {u : State} {s : State} (h0 : Kept u s) :
    Kept u (opClose s).state := by
  unfold opClose; try dsimp only
  repeat' (first | with_reducible assumption | with_reducible apply kept_ok | with_reducible apply kept_put | split)

theorem kept_opWritereg {u : State} {l : List Byte} {s : State} (h1 : Kept u s) :
    Kept u (opWritereg l s).state := by
  unfold opWritereg; try dsimp only
  repeat' (first
    | with_reducible assumption | with_reducible apply kept_no | with_reducible apply kept_answerRegs
    | with_reducible apply kept_registerWrite | split)

theorem kept_opCfgload {u : State} {l : List Byte} {s : State} (h1 : Kept u s) :
    Kept u (opCfgload l s).state := by
  unfold opCfgload; try dsimp only
  repeat' (first
    | with_reducible assumption | with_reducible apply kept_no | with_reducible apply kept_nvmErase
    | with_reducible apply kept_ok | with_reducible apply kept_modKeep | with_reducible apply kept_setBytes | split)

theorem kept_opCfgcommit {u : State} {l : List Byte} {s : State} (h1 : Kept u s) :
    Kept u (opCfgcommit l s).state := by
  unfold opCfgcommit; try dsimp only
  repeat' (first
    | with_reducible assumption | with_reducible apply kept_no | with_reducible apply kept_setBytes
    | with_reducible apply kept_writePage | with_reducible apply kept_ok | with_reducible apply kept_showBoot
    | with_reducible apply kept_modKeep | split)

theorem kept_opImgload {u : State} {l : List Byte} {s : State} (h1 : Kept u s) :
    Kept u (opImgload l s).state := by
  unfold opImgload; try dsimp only
  repeat' (first
    | with_reducible assumption | with_reducible apply kept_no | with_reducible apply kept_bumpWrgen
    | with_reducible apply kept_nvmErase | with_reducible apply kept_ok | with_reducible apply kept_modKeep
    | with_reducible apply kept_setBytes | with_reducible apply kept_foldl | (intro; intros; try dsimp only) | split)

theorem kept_imgForget {u : State} {b : Bool} {s : State} (h1 : Kept u s) :
    Kept u (imgForget b s) := by
  unfold imgForget; try dsimp only
  repeat' (first | with_reducible assumption | with_reducible apply kept_modKeep)

theorem kept_opImgcommit {u : State} {l : List Byte} {s : State} (h1 : Kept u s) :
    Kept u (opImgcommit l s).state := by
  unfold opImgcommit; try dsimp only
  repeat' (first
    | with_reducible assumption | with_reducible apply kept_no | with_reducible apply kept_imgForget
    | with_reducible apply kept_ok | with_reducible apply kept_changeRecord | with_reducible apply kept_put | split)

theorem kept_opTimeset {u : State} {l : List Byte} {s : State} (h1 : Kept u s) :
    Kept u (opTimeset l s).state := by
  unfold opTimeset; try dsimp only
  repeat' (first
    | with_reducible assumption | with_reducible apply kept_no | with_reducible apply kept_ok
    | with_reducible apply kept_stepNs | with_reducible apply kept_put | split)

theorem kept_opPwrvote {u : State} {l : List Byte} {s : State} (h1 : Kept u s) :
    Kept u (opPwrvote l s).state := by
  unfold opPwrvote; try dsimp only
  repeat' (first
    | with_reducible assumption | with_reducible apply kept_no | with_reducible apply kept_hostVote
    | with_reducible apply kept_ok | split)

theorem kept_armCancelled {u : State} {s : State} (h0 : Kept u s) :
    Kept u (armCancelled s) := by
  unfold armCancelled; try dsimp only
  repeat' (first | with_reducible assumption | with_reducible apply kept_modSafe | with_reducible apply kept_put)

theorem kept_opResarm {u : State} {a0 : Transport} {s : State} (h1 : Kept u s) :
    Kept u (opResarm a0 s).state := by
  unfold opResarm; try dsimp only
  repeat' (first
    | with_reducible assumption | with_reducible apply kept_no | with_reducible apply kept_ok
    | with_reducible apply kept_modSafe | with_reducible apply kept_put | with_reducible apply kept_drew | split)

theorem kept_opResconfirm {u : State} {a0 : Transport} {l : List Byte} {s : State} (h2 : Kept u s) :
    Kept u (opResconfirm a0 l s).state := by
  unfold opResconfirm; try dsimp only
  repeat' (first
    | with_reducible assumption | with_reducible apply kept_no | with_reducible apply kept_armCancelled
    | with_reducible apply kept_safeCutWrite | with_reducible apply kept_ok | split)

theorem kept_toV {u : State} {c : Call} {op : ℕ} {act : List Byte → State → Answer} {s : State} (h2 : ∀ t0 t1, Kept u t1 → Kept u (act t0 t1).state) (h3 : Kept u s) :
    Kept u (toV c op act s) := by
  unfold toV; try dsimp only
  repeat' (first
    | with_reducible assumption | with_reducible apply h2 | with_reducible apply kept_serve
    | with_reducible apply kept_ite | (intro; intros; try dsimp only) | split)

theorem kept_vSilent {u : State} {a0 : Transport} {s : State} (h1 : Kept u s) :
    Kept u (vSilent a0 s) := by
  unfold vSilent; try dsimp only
  repeat' (first
    | with_reducible assumption | with_reducible apply kept_armCancelled | with_reducible apply kept_settle
    | with_reducible apply kept_answerHead | with_reducible apply kept_ite | split)

theorem kept_drawChallenge {u : State} {s : State} (h0 : Kept u s) :
    Kept u (drawChallenge s).2 := by
  unfold drawChallenge; try dsimp only
  repeat' (first | with_reducible assumption | with_reducible apply kept_drew | split)

theorem kept_opRelchal {u : State} {s : State} (h0 : Kept u s) :
    Kept u (opRelchal s).state := by
  unfold opRelchal; try dsimp only
  repeat' (first
    | with_reducible assumption | with_reducible apply kept_no | with_reducible apply kept_drawChallenge
    | with_reducible apply kept_ok | with_reducible apply kept_modKeep | with_reducible apply kept_put | split)

theorem kept_opDbgchal {u : State} {s : State} (h0 : Kept u s) :
    Kept u (opDbgchal s).state := by
  unfold opDbgchal; try dsimp only
  repeat' (first
    | with_reducible assumption | with_reducible apply kept_no | with_reducible apply kept_drawChallenge
    | with_reducible apply kept_ok | with_reducible apply kept_modKeep | with_reducible apply kept_put | split)

theorem kept_opRelease {u : State} {l : List Byte} {s : State} (h1 : Kept u s) :
    Kept u (opRelease l s).state := by
  unfold opRelease; try dsimp only
  repeat' (first
    | with_reducible assumption | with_reducible apply kept_no | with_reducible apply kept_modKeep
    | with_reducible apply kept_put | with_reducible apply kept_ok | with_reducible apply kept_sat | split)

theorem kept_opDbgopen {u : State} {l : List Byte} {s : State} (h1 : Kept u s) :
    Kept u (opDbgopen l s).state := by
  unfold opDbgopen; try dsimp only
  repeat' (first
    | with_reducible assumption | with_reducible apply kept_no | with_reducible apply kept_modKeep
    | with_reducible apply kept_put | with_reducible apply kept_ok | with_reducible apply kept_followVotes
    | with_reducible apply kept_showMeasures | with_reducible apply kept_sat | split)

theorem kept_lapse {u : State} {k : ChallengeKind} {s : State} (h1 : Kept u s) :
    Kept u (lapse k s) := by
  unfold lapse; try dsimp only
  repeat' (first
    | with_reducible assumption | with_reducible apply kept_modKeep | with_reducible apply kept_put | split)

theorem kept_staleGone {u : State} {n : CanCtl} {s : State} (h1 : Kept u s) :
    Kept u (staleGone n s) := by
  unfold staleGone; try dsimp only
  repeat' (first
    | with_reducible assumption | with_reducible apply kept_modHost | with_reducible apply kept_canSend
    | with_reducible apply kept_ite | split)

theorem kept_syncSent {u : State} {n : CanCtl} {s : State} (h1 : Kept u s) :
    Kept u (syncSent n s) := by
  unfold syncSent; try dsimp only
  repeat' (first
    | with_reducible assumption | with_reducible apply kept_stampTaken | with_reducible apply kept_modTime
    | with_reducible apply kept_ite)

theorem kept_frameSent {u : State} {n : CanCtl} {s : State} (h1 : Kept u s) :
    Kept u (frameSent n s) := by
  unfold frameSent; try dsimp only
  repeat' (first
    | with_reducible assumption | with_reducible apply kept_canSent | with_reducible apply kept_when
    | with_reducible apply kept_syncSent | with_reducible apply kept_staleGone | with_reducible apply kept_replyGone
    | with_reducible apply kept_ite | (intro; intros; try dsimp only) | split)

theorem kept_frameFailed {u : State} {n : CanCtl} {k : TxErrorKind} {s : State} (h2 : Kept u s) :
    Kept u (frameFailed n k s) := by
  unfold frameFailed; try dsimp only
  repeat' (first
    | with_reducible assumption | with_reducible apply kept_staleGone | with_reducible apply kept_canTxError)

theorem kept_syncOut {u : State} {net : Fin 2} {sec : Word} {ns : Word} {s : State} (h3 : Kept u s) :
    Kept u (syncOut net sec ns s) := by
  unfold syncOut; try dsimp only
  repeat' (first
    | with_reducible assumption | with_reducible apply kept_modTime | with_reducible apply kept_canSend
    | with_reducible apply kept_ite | split)

theorem kept_serviceTakes {u : State} {n : CanCtl} {k : ℕ} {s : State} (h2 : Kept u s) :
    Kept u (serviceTakes n k s) := by
  unfold serviceTakes; try dsimp only
  repeat' (first
    | with_reducible assumption | with_reducible apply kept_put | with_reducible apply kept_canCommand
    | with_reducible apply kept_confirmationIn | with_reducible apply kept_chassisIn
    | with_reducible apply kept_laneStatusIn | with_reducible apply kept_syncFrameIn | with_reducible apply kept_ite
    | split)

theorem kept_frameHeard {u : State} {n : CanCtl} {f : CanFrame} {s : State} (h2 : Kept u s) :
    Kept u (frameHeard n f s) := by
  unfold frameHeard; try dsimp only
  repeat' (first
    | with_reducible assumption | with_reducible apply kept_canReceive | with_reducible apply kept_serviceTakes
    | with_reducible apply kept_ite | split)

theorem kept_execSpiWriteTransaction {u : State} {bytes : List Byte} {s : State} (h1 : Kept u s) :
    ∀ t, (execSpiWriteTransaction bytes s) = .next t → Kept u t := by
  intro t ht; unfold execSpiWriteTransaction at ht; obtain rfl := Host.Outcome.next.inj ht; try dsimp only
  repeat' (first | with_reducible assumption | with_reducible apply kept_spiWrite)

theorem kept_execSpiReadTransaction {u : State} {clocked : ℕ} {s : State} (h1 : Kept u s) :
    ∀ t, (execSpiReadTransaction clocked s) = .next t → Kept u t := by
  intro t ht; unfold execSpiReadTransaction at ht; obtain rfl := Host.Outcome.next.inj ht; try dsimp only
  repeat' (first | with_reducible assumption | with_reducible apply kept_spiRead)

theorem kept_execCanCommandFrame {u : State} {net : Fin 2} {bytes : List Byte} {s : State} (h2 : Kept u s) :
    ∀ t, (execCanCommandFrame net bytes s) = .next t → Kept u t := by
  intro t ht; unfold execCanCommandFrame at ht; obtain rfl := Host.Outcome.next.inj ht; try dsimp only
  repeat' (first | with_reducible assumption | with_reducible apply kept_canCommand)

theorem kept_execMailboxAck {u : State} {s : State} (h0 : Kept u s) :
    ∀ t, (execMailboxAck s) = .next t → Kept u t := by
  intro t ht; unfold execMailboxAck at ht
  refine kept_clockedOut (by assumption) ?_ t ht; clear ht t; intro t ht; obtain rfl := Host.Outcome.next.inj ht; try dsimp only
  repeat' (first | with_reducible assumption | with_reducible apply kept_mboxAck)

theorem kept_execMailboxTimeout {u : State} {s : State} (h0 : Kept u s) :
    ∀ t, (execMailboxTimeout s) = .next t → Kept u t := by
  intro t ht; unfold execMailboxTimeout at ht
  refine kept_clockedOut (by assumption) ?_ t ht; clear ht t; intro t ht; obtain rfl := Host.Outcome.next.inj ht; try dsimp only
  repeat' (first | with_reducible assumption | with_reducible apply kept_mboxLate)

theorem kept_execSessionTimeout {u : State} {s : State} (h0 : Kept u s) :
    ∀ t, (execSessionTimeout s) = .next t → Kept u t := by
  intro t ht; unfold execSessionTimeout at ht
  refine kept_clockedOut (by assumption) ?_ t ht; clear ht t; intro t ht; obtain rfl := Host.Outcome.next.inj ht; try dsimp only
  repeat' (first | with_reducible assumption | with_reducible apply kept_put)

theorem kept_execNop {u : State} {c : Call} {s : State} (h1 : Kept u s) :
    ∀ t, (execNop c s) = .next t → Kept u t := by
  intro t ht; unfold execNop at ht; obtain rfl := Host.Outcome.next.inj ht; try dsimp only
  repeat' (first
    | with_reducible assumption | with_reducible apply kept_serve | with_reducible apply kept_ok
    | (intro; intros; try dsimp only))

theorem kept_execOpenSession {u : State} {c : Call} {s : State} (h1 : Kept u s) :
    ∀ t, (execOpenSession c s) = .next t → Kept u t := by
  intro t ht; unfold execOpenSession at ht; obtain rfl := Host.Outcome.next.inj ht; try dsimp only
  repeat' (first
    | with_reducible assumption | with_reducible apply kept_serve | with_reducible apply kept_opOpen
    | (intro; intros; try dsimp only))

theorem kept_execCloseSession {u : State} {c : Call} {s : State} (h1 : Kept u s) :
    ∀ t, (execCloseSession c s) = .next t → Kept u t := by
  intro t ht; unfold execCloseSession at ht; obtain rfl := Host.Outcome.next.inj ht; try dsimp only
  repeat' (first
    | with_reducible assumption | with_reducible apply kept_serve | with_reducible apply kept_opClose
    | (intro; intros; try dsimp only))

theorem kept_execInfo {u : State} {c : Call} {s : State} (h1 : Kept u s) :
    ∀ t, (execInfo c s) = .next t → Kept u t := by
  intro t ht; unfold execInfo at ht; obtain rfl := Host.Outcome.next.inj ht; try dsimp only
  repeat' (first
    | with_reducible assumption | with_reducible apply kept_serve | with_reducible apply kept_opInfo
    | (intro; intros; try dsimp only))

theorem kept_execEcho {u : State} {c : Call} {s : State} (h1 : Kept u s) :
    ∀ t, (execEcho c s) = .next t → Kept u t := by
  intro t ht; unfold execEcho at ht; obtain rfl := Host.Outcome.next.inj ht; try dsimp only
  repeat' (first
    | with_reducible assumption | with_reducible apply kept_serve | with_reducible apply kept_opEcho
    | (intro; intros; try dsimp only))

theorem kept_execLanestat {u : State} {c : Call} {s : State} (h1 : Kept u s) :
    ∀ t, (execLanestat c s) = .next t → Kept u t := by
  intro t ht; unfold execLanestat at ht; obtain rfl := Host.Outcome.next.inj ht; try dsimp only
  repeat' (first
    | with_reducible assumption | with_reducible apply kept_serve | with_reducible apply kept_opLanestat
    | (intro; intros; try dsimp only))

theorem kept_execReadreg {u : State} {c : Call} {s : State} (h1 : Kept u s) :
    ∀ t, (execReadreg c s) = .next t → Kept u t := by
  intro t ht; unfold execReadreg at ht; obtain rfl := Host.Outcome.next.inj ht; try dsimp only
  repeat' (first
    | with_reducible assumption | with_reducible apply kept_serve | with_reducible apply kept_opReadreg
    | (intro; intros; try dsimp only))

theorem kept_execFaults {u : State} {c : Call} {s : State} (h1 : Kept u s) :
    ∀ t, (execFaults c s) = .next t → Kept u t := by
  intro t ht; unfold execFaults at ht; obtain rfl := Host.Outcome.next.inj ht; try dsimp only
  repeat' (first
    | with_reducible assumption | with_reducible apply kept_serve | with_reducible apply kept_opFaults
    | (intro; intros; try dsimp only))

theorem kept_execPosition {u : State} {c : Call} {s : State} (h1 : Kept u s) :
    ∀ t, (execPosition c s) = .next t → Kept u t := by
  intro t ht; unfold execPosition at ht; obtain rfl := Host.Outcome.next.inj ht; try dsimp only
  repeat' (first
    | with_reducible assumption | with_reducible apply kept_serve | with_reducible apply kept_opPosition
    | (intro; intros; try dsimp only))

theorem kept_execWritereg {u : State} {c : Call} {s : State} (h1 : Kept u s) :
    ∀ t, (execWritereg c s) = .next t → Kept u t := by
  intro t ht; unfold execWritereg at ht; obtain rfl := Host.Outcome.next.inj ht; try dsimp only
  repeat' (first
    | with_reducible assumption | with_reducible apply kept_serve | with_reducible apply kept_opWritereg
    | (intro; intros; try dsimp only))

theorem kept_execAppcmd {u : State} {c : Call} {s : State} (h1 : Kept u s) :
    ∀ t, (execAppcmd c s) = .next t → Kept u t := by
  intro t ht; unfold execAppcmd at ht; obtain rfl := Host.Outcome.next.inj ht; try dsimp only
  repeat' (first | with_reducible assumption | with_reducible apply kept_pass)

theorem kept_execCfgload {u : State} {c : Call} {s : State} (h1 : Kept u s) :
    ∀ t, (execCfgload c s) = .next t → Kept u t := by
  intro t ht; unfold execCfgload at ht; obtain rfl := Host.Outcome.next.inj ht; try dsimp only
  repeat' (first
    | with_reducible assumption | with_reducible apply kept_serve | with_reducible apply kept_opCfgload
    | (intro; intros; try dsimp only))

theorem kept_execCfgcommit {u : State} {c : Call} {s : State} (h1 : Kept u s) :
    ∀ t, (execCfgcommit c s) = .next t → Kept u t := by
  intro t ht; unfold execCfgcommit at ht; obtain rfl := Host.Outcome.next.inj ht; try dsimp only
  repeat' (first
    | with_reducible assumption | with_reducible apply kept_serve | with_reducible apply kept_opCfgcommit
    | (intro; intros; try dsimp only))

theorem kept_execImgload {u : State} {c : Call} {s : State} (h1 : Kept u s) :
    ∀ t, (execImgload c s) = .next t → Kept u t := by
  intro t ht; unfold execImgload at ht; obtain rfl := Host.Outcome.next.inj ht; try dsimp only
  repeat' (first
    | with_reducible assumption | with_reducible apply kept_serve | with_reducible apply kept_opImgload
    | (intro; intros; try dsimp only))

theorem kept_execImgcommit {u : State} {c : Call} {s : State} (h1 : Kept u s) :
    ∀ t, (execImgcommit c s) = .next t → Kept u t := by
  intro t ht; unfold execImgcommit at ht; obtain rfl := Host.Outcome.next.inj ht; try dsimp only
  repeat' (first
    | with_reducible assumption | with_reducible apply kept_serve | with_reducible apply kept_opImgcommit
    | (intro; intros; try dsimp only))

theorem kept_execSetpoint {u : State} {c : Call} {s : State} (h1 : Kept u s) :
    ∀ t, (execSetpoint c s) = .next t → Kept u t := by
  intro t ht; unfold execSetpoint at ht; obtain rfl := Host.Outcome.next.inj ht; try dsimp only
  repeat' (first | with_reducible assumption | with_reducible apply kept_pass)

theorem kept_execDrive {u : State} {c : Call} {s : State} (h1 : Kept u s) :
    ∀ t, (execDrive c s) = .next t → Kept u t := by
  intro t ht; unfold execDrive at ht; obtain rfl := Host.Outcome.next.inj ht; try dsimp only
  repeat' (first | with_reducible assumption | with_reducible apply kept_pass)

theorem kept_execHaltMotion {u : State} {c : Call} {s : State} (h1 : Kept u s) :
    ∀ t, (execHaltMotion c s) = .next t → Kept u t := by
  intro t ht; unfold execHaltMotion at ht; obtain rfl := Host.Outcome.next.inj ht; try dsimp only
  repeat' (first | with_reducible assumption | with_reducible apply kept_pass)

theorem kept_execWithdraw {u : State} {c : Call} {s : State} (h1 : Kept u s) :
    ∀ t, (execWithdraw c s) = .next t → Kept u t := by
  intro t ht; unfold execWithdraw at ht; obtain rfl := Host.Outcome.next.inj ht; try dsimp only
  repeat' (first | with_reducible assumption | with_reducible apply kept_pass)

theorem kept_execHandover {u : State} {c : Call} {s : State} (h1 : Kept u s) :
    ∀ t, (execHandover c s) = .next t → Kept u t := by
  intro t ht; unfold execHandover at ht; obtain rfl := Host.Outcome.next.inj ht; try dsimp only
  repeat' (first | with_reducible assumption | with_reducible apply kept_pass)

theorem kept_execResarm {u : State} {c : Call} {s : State} (h1 : Kept u s) :
    ∀ t, (execResarm c s) = .next t → Kept u t := by
  intro t ht; unfold execResarm at ht; obtain rfl := Host.Outcome.next.inj ht; try dsimp only
  repeat' (first
    | with_reducible assumption | with_reducible apply kept_toV | with_reducible apply kept_opResarm
    | (intro; intros; try dsimp only))

theorem kept_execResconfirm {u : State} {c : Call} {s : State} (h1 : Kept u s) :
    ∀ t, (execResconfirm c s) = .next t → Kept u t := by
  intro t ht; unfold execResconfirm at ht; obtain rfl := Host.Outcome.next.inj ht; try dsimp only
  repeat' (first
    | with_reducible assumption | with_reducible apply kept_toV | with_reducible apply kept_opResconfirm
    | (intro; intros; try dsimp only))

theorem kept_execSwitchback {u : State} {c : Call} {s : State} (h1 : Kept u s) :
    ∀ t, (execSwitchback c s) = .next t → Kept u t := by
  intro t ht; unfold execSwitchback at ht; obtain rfl := Host.Outcome.next.inj ht; try dsimp only
  repeat' (first | with_reducible assumption | with_reducible apply kept_pass)

theorem kept_execSafestat {u : State} {c : Call} {s : State} (h1 : Kept u s) :
    ∀ t, (execSafestat c s) = .next t → Kept u t := by
  intro t ht; unfold execSafestat at ht; obtain rfl := Host.Outcome.next.inj ht; try dsimp only
  repeat' (first
    | with_reducible assumption | with_reducible apply kept_serve | with_reducible apply kept_opSafestat
    | (intro; intros; try dsimp only))

theorem kept_execTimeget {u : State} {c : Call} {s : State} (h1 : Kept u s) :
    ∀ t, (execTimeget c s) = .next t → Kept u t := by
  intro t ht; unfold execTimeget at ht; obtain rfl := Host.Outcome.next.inj ht; try dsimp only
  repeat' (first
    | with_reducible assumption | with_reducible apply kept_serve | with_reducible apply kept_opTimeget
    | (intro; intros; try dsimp only))

theorem kept_execTimeset {u : State} {c : Call} {s : State} (h1 : Kept u s) :
    ∀ t, (execTimeset c s) = .next t → Kept u t := by
  intro t ht; unfold execTimeset at ht; obtain rfl := Host.Outcome.next.inj ht; try dsimp only
  repeat' (first
    | with_reducible assumption | with_reducible apply kept_serve | with_reducible apply kept_opTimeset
    | (intro; intros; try dsimp only))

theorem kept_execReelread {u : State} {c : Call} {s : State} (h1 : Kept u s) :
    ∀ t, (execReelread c s) = .next t → Kept u t := by
  intro t ht; unfold execReelread at ht; obtain rfl := Host.Outcome.next.inj ht; try dsimp only
  repeat' (first
    | with_reducible assumption | with_reducible apply kept_serve | with_reducible apply kept_opReelread
    | (intro; intros; try dsimp only))

theorem kept_execLogread {u : State} {c : Call} {s : State} (h1 : Kept u s) :
    ∀ t, (execLogread c s) = .next t → Kept u t := by
  intro t ht; unfold execLogread at ht; obtain rfl := Host.Outcome.next.inj ht; try dsimp only
  repeat' (first
    | with_reducible assumption | with_reducible apply kept_serve | with_reducible apply kept_opLogread
    | (intro; intros; try dsimp only))

theorem kept_execLedger {u : State} {c : Call} {s : State} (h1 : Kept u s) :
    ∀ t, (execLedger c s) = .next t → Kept u t := by
  intro t ht; unfold execLedger at ht; obtain rfl := Host.Outcome.next.inj ht; try dsimp only
  repeat' (first
    | with_reducible assumption | with_reducible apply kept_serve | with_reducible apply kept_opLedger
    | (intro; intros; try dsimp only))

theorem kept_execAttest {u : State} {c : Call} {s : State} (h1 : Kept u s) :
    ∀ t, (execAttest c s) = .next t → Kept u t := by
  intro t ht; unfold execAttest at ht; obtain rfl := Host.Outcome.next.inj ht; try dsimp only
  repeat' (first
    | with_reducible assumption | with_reducible apply kept_serve | with_reducible apply kept_opAttest
    | (intro; intros; try dsimp only))

theorem kept_execMeasure {u : State} {c : Call} {s : State} (h1 : Kept u s) :
    ∀ t, (execMeasure c s) = .next t → Kept u t := by
  intro t ht; unfold execMeasure at ht; obtain rfl := Host.Outcome.next.inj ht; try dsimp only
  repeat' (first
    | with_reducible assumption | with_reducible apply kept_serve | with_reducible apply kept_opMeasure
    | (intro; intros; try dsimp only))

theorem kept_execRelchal {u : State} {c : Call} {s : State} (h1 : Kept u s) :
    ∀ t, (execRelchal c s) = .next t → Kept u t := by
  intro t ht; unfold execRelchal at ht; obtain rfl := Host.Outcome.next.inj ht; try dsimp only
  repeat' (first
    | with_reducible assumption | with_reducible apply kept_serve | with_reducible apply kept_opRelchal
    | (intro; intros; try dsimp only))

theorem kept_execReleaseStandDown {u : State} {c : Call} {s : State} (h1 : Kept u s) :
    ∀ t, (execReleaseStandDown c s) = .next t → Kept u t := by
  intro t ht; unfold execReleaseStandDown at ht; obtain rfl := Host.Outcome.next.inj ht; try dsimp only
  repeat' (first
    | with_reducible assumption | with_reducible apply kept_serve | with_reducible apply kept_opRelease
    | (intro; intros; try dsimp only))

theorem kept_execDbgchal {u : State} {c : Call} {s : State} (h1 : Kept u s) :
    ∀ t, (execDbgchal c s) = .next t → Kept u t := by
  intro t ht; unfold execDbgchal at ht; obtain rfl := Host.Outcome.next.inj ht; try dsimp only
  repeat' (first
    | with_reducible assumption | with_reducible apply kept_serve | with_reducible apply kept_opDbgchal
    | (intro; intros; try dsimp only))

theorem kept_execDbgopen {u : State} {c : Call} {s : State} (h1 : Kept u s) :
    ∀ t, (execDbgopen c s) = .next t → Kept u t := by
  intro t ht; unfold execDbgopen at ht; obtain rfl := Host.Outcome.next.inj ht; try dsimp only
  repeat' (first
    | with_reducible assumption | with_reducible apply kept_serve | with_reducible apply kept_opDbgopen
    | (intro; intros; try dsimp only))

theorem kept_execPwrget {u : State} {c : Call} {s : State} (h1 : Kept u s) :
    ∀ t, (execPwrget c s) = .next t → Kept u t := by
  intro t ht; unfold execPwrget at ht; obtain rfl := Host.Outcome.next.inj ht; try dsimp only
  repeat' (first
    | with_reducible assumption | with_reducible apply kept_serve | with_reducible apply kept_opPwrget
    | (intro; intros; try dsimp only))

theorem kept_execPwrvote {u : State} {c : Call} {s : State} (h1 : Kept u s) :
    ∀ t, (execPwrvote c s) = .next t → Kept u t := by
  intro t ht; unfold execPwrvote at ht; obtain rfl := Host.Outcome.next.inj ht; try dsimp only
  repeat' (first
    | with_reducible assumption | with_reducible apply kept_serve | with_reducible apply kept_opPwrvote
    | (intro; intros; try dsimp only))

theorem kept_execWakerec {u : State} {c : Call} {s : State} (h1 : Kept u s) :
    ∀ t, (execWakerec c s) = .next t → Kept u t := by
  intro t ht; unfold execWakerec at ht; obtain rfl := Host.Outcome.next.inj ht; try dsimp only
  repeat' (first
    | with_reducible assumption | with_reducible apply kept_serve | with_reducible apply kept_opWakerec
    | (intro; intros; try dsimp only))

theorem kept_execVendorService {u : State} {c : Call} {s : State} (h1 : Kept u s) :
    ∀ t, (execVendorService c s) = .next t → Kept u t := by
  intro t ht; unfold execVendorService at ht; obtain rfl := Host.Outcome.next.inj ht; try dsimp only
  repeat' (first
    | with_reducible assumption | with_reducible apply kept_serve | with_reducible apply kept_no
    | (intro; intros; try dsimp only))

theorem kept_execSupervisorReplyTimeout {u : State} {a0 : Transport} {s : State} (h1 : Kept u s) :
    ∀ t, (execSupervisorReplyTimeout a0 s) = .next t → Kept u t := by
  intro t ht; unfold execSupervisorReplyTimeout at ht; obtain rfl := Host.Outcome.next.inj ht; try dsimp only
  repeat' (first | with_reducible assumption | with_reducible apply kept_vSilent)

theorem kept_execChallengeLapse {u : State} {k : ChallengeKind} {s : State} (h1 : Kept u s) :
    ∀ t, (execChallengeLapse k s) = .next t → Kept u t := by
  intro t ht; unfold execChallengeLapse at ht; obtain rfl := Host.Outcome.next.inj ht; try dsimp only
  repeat' (first | with_reducible assumption | with_reducible apply kept_lapse)

theorem kept_execTransmitComplete {u : State} {n : CanCtl} {s : State} (h1 : Kept u s) :
    ∀ t, (execTransmitComplete n s) = .next t → Kept u t := by
  intro t ht; unfold execTransmitComplete at ht
  refine kept_clockedOut (by assumption) ?_ t ht; clear ht t; intro t ht; obtain rfl := Host.Outcome.next.inj ht; try dsimp only
  repeat' (first | with_reducible assumption | with_reducible apply kept_frameSent)

theorem kept_execCanFrameReceived {u : State} {n : CanCtl} {f : CanFrame} {s : State} (h2 : Kept u s) :
    ∀ t, (execCanFrameReceived n f s) = .next t → Kept u t := by
  intro t ht; unfold execCanFrameReceived at ht
  refine kept_clockedOut (by assumption) ?_ t ht; clear ht t; intro t ht; obtain rfl := Host.Outcome.next.inj ht; try dsimp only
  repeat' (first | with_reducible assumption | with_reducible apply kept_frameHeard)

theorem kept_execTransmitError {u : State} {n : CanCtl} {k : TxErrorKind} {s : State} (h2 : Kept u s) :
    ∀ t, (execTransmitError n k s) = .next t → Kept u t := by
  intro t ht; unfold execTransmitError at ht
  refine kept_clockedOut (by assumption) ?_ t ht; clear ht t; intro t ht; obtain rfl := Host.Outcome.next.inj ht; try dsimp only
  repeat' (first | with_reducible assumption | with_reducible apply kept_frameFailed)

theorem kept_execSyncSend {u : State} {net : Fin 2} {prevSec : Word} {prevNs : Word} {s : State} (h3 : Kept u s) :
    ∀ t, (execSyncSend net prevSec prevNs s) = .next t → Kept u t := by
  intro t ht; unfold execSyncSend at ht
  refine kept_clockedOut (by assumption) ?_ t ht; clear ht t; intro t ht; obtain rfl := Host.Outcome.next.inj ht; try dsimp only
  repeat' (first | with_reducible assumption | with_reducible apply kept_syncOut)

theorem kept_execSyncSample {u : State} {net : Fin 2} {f : SyncFrame} {stampSec : Word} {stampNs : Word} {rateEst : ℤ} {s : State} (h5 : Kept u s) :
    ∀ t, (execSyncSample net f stampSec stampNs rateEst s) = .next t → Kept u t := by
  intro t ht; unfold execSyncSample at ht
  refine kept_clockedOut (by assumption) ?_ t ht; clear ht t; intro t ht; obtain rfl := Host.Outcome.next.inj ht; try dsimp only
  repeat' (first | with_reducible assumption | with_reducible apply kept_syncReceived)

theorem kept_execSyncTimeout {u : State} {s : State} (h0 : Kept u s) :
    ∀ t, (execSyncTimeout s) = .next t → Kept u t := by
  intro t ht; unfold execSyncTimeout at ht
  refine kept_clockedOut (by assumption) ?_ t ht; clear ht t; intro t ht; obtain rfl := Host.Outcome.next.inj ht; try dsimp only
  repeat' (first | with_reducible assumption | with_reducible apply kept_syncMissed)

end Sys2Proof.Machine
end

