-- ==== Sys2Proof/Laws/Ops.lean ====
section
/-!
SUPPORT. What a register field reads after a write of a field, and that every write keeps the canonical forms.
-/
namespace Sys2Proof.Machine

/-- Two fields share no bit. -/
def Fld.disj (f g : Fld) : Bool :=
  decide (f.addr ≠ g.addr) || decide (f.lo + f.w ≤ g.lo) || decide (g.lo + g.w ≤ f.lo)

theorem Fld.read_write (f : Fld) (h : f.lo + f.w ≤ 32) (w : Word) (v : Nat) :
    f.read (f.write w v) = v % 2 ^ f.w := by
  have : (f.write w v).extractLsb' f.lo f.w = BitVec.ofNat f.w v := by
    apply BitVec.eq_of_getLsbD_eq
    intro i hi
    have h1 : f.lo + i < 32 := by omega
    have h2 : ¬ (f.lo + i < f.lo) := by omega
    have h3 : i < 32 := by omega
    simp [Fld.write, hi, h1]
    rw [← BitVec.getLsbD_eq_getElem h3, ← BitVec.getLsbD_eq_getElem hi]
    rw [BitVec.getLsbD_ofNat, BitVec.getLsbD_ofNat]; simp only [h3, hi]
  rw [Fld.read, this, BitVec.toNat_ofNat]

theorem Fld.read_write_disj (f g : Fld) (hg : g.lo + g.w ≤ 32)
    (h : f.lo + f.w ≤ g.lo ∨ g.lo + g.w ≤ f.lo) (w : Word) (v : Nat) :
    g.read (f.write w v) = g.read w := by
  have : (f.write w v).extractLsb' g.lo g.w = w.extractLsb' g.lo g.w := by
    apply BitVec.eq_of_getLsbD_eq
    intro i hi
    have h1 : g.lo + i < 32 := by omega
    rcases h with h | h
    · have h3 : ¬ (g.lo + i - f.lo < f.w) := by omega
      simp [Fld.write, hi, h1, h3]
    · have h3 : g.lo + i < f.lo := by omega
      simp [Fld.write, hi, h1, h3]
  rw [Fld.read, this, Fld.read]

@[simp] theorem State.rd_wr_same (s : State) (a : Nat) (v : Word) : (s.wr a v).rd a = v := by
  simp [State.rd, State.wr]

theorem State.rd_wr_other (s : State) {a a' : Nat} (v : Word) (h : a' ≠ a) : (s.wr a v).rd a' = s.rd a' := by
  simp [State.rd, State.wr, Tab.get_put_other _ _ _ h]

/-- A field reads back what was put into it. -/
theorem State.get_put_same (s : State) (f : Fld) (v : Nat) (h : f.lo + f.w ≤ 32) :
    (s.put f v).get f = v % 2 ^ f.w := by
  simp [State.get, State.put, Fld.read_write f h]

/-- Every field that shares no bit with the one put keeps its value. -/
theorem State.get_put_disj (s : State) (f g : Fld) (v : Nat) (hg : g.lo + g.w ≤ 32) (h : f.disj g = true) :
    (s.put f v).get g = s.get g := by
  unfold State.get State.put
  by_cases ha : g.addr = f.addr
  · rw [ha, State.rd_wr_same]
    simp only [Fld.disj, ha, Bool.or_eq_true, decide_eq_true_eq] at h
    rw [Fld.read_write_disj f g hg]
    rcases h with (h | h) | h
    · exact absurd rfl h
    · exact .inl h
    · exact .inr h
  · rw [State.rd_wr_other s _ ha]

/-- A register other than the field's own keeps its word. -/
theorem State.rd_put_other (s : State) (f : Fld) (v : Nat) {a : Nat} (h : a ≠ f.addr) :
    (s.put f v).rd a = s.rd a := by
  simp [State.put, State.rd_wr_other _ _ h]

theorem State.put_regs_wf (s : State) (f : Fld) (v : Nat) (w : Registers.wf s.regs = true) :
    Registers.wf (s.put f v).regs = true := Tab.wf_put resetWord w _ _

theorem State.setByte_wf (s : State) (a : Nat) (v : Byte) (w : Memory.wf s.mem = true) :
    Memory.wf (s.setByte a v).mem = true := by
  simp only [State.setByte]; split
  · exact Tab.wf_put blankByte w _ _
  · exact w

theorem State.setBytes_wf (s : State) (l : List Byte) (a : Nat) (w : Memory.wf s.mem = true) :
    Memory.wf (s.setBytes a l).mem = true := by
  induction l generalizing s a with
  | nil => exact w
  | cons b t ih => exact ih _ _ (s.setByte_wf a b w)

theorem State.byte_setByte_same (s : State) {a : Nat} (v : Byte) (h : isMemory a = true) : (s.setByte a v).byte a = v := by
  simp [State.byte, State.setByte, h]

/-- Where no memory lies a write leaves the state as it is. -/
theorem State.setByte_outside (s : State) {a : Nat} (v : Byte) (h : isMemory a = false) : s.setByte a v = s := by
  simp [State.setByte, h]

theorem State.byte_setByte_other (s : State) {a a' : Nat} (v : Byte) (h : a' ≠ a) :
    (s.setByte a v).byte a' = s.byte a' := by
  simp only [State.byte, State.setByte]; split
  · exact Tab.get_put_other _ _ _ h
  · rfl

/-- A byte outside the bytes written keeps its value. -/
theorem State.byte_setBytes_other (s : State) (l : List Byte) (a a' : Nat) (h : a' < a ∨ a + l.length ≤ a') :
    (s.setBytes a l).byte a' = s.byte a' := by
  induction l generalizing s a with
  | nil => rfl
  | cons b t ih =>
    simp only [List.length_cons] at h
    have hne : a' ≠ a := by omega
    rw [State.setBytes, ih _ _ (by omega), State.byte_setByte_other _ _ hne]

/-! Flags and bits through a write of another field -/

theorem State.on_put_disj (s : State) (f g : Fld) (v : Nat) (hg : g.lo + g.w ≤ 32) (h : f.disj g = true) :
    (s.put f v).on g = s.on g := by rw [State.on, State.get_put_disj s f g v hg h, State.on]

theorem State.bit_put_disj (s : State) (f g : Fld) (v i : Nat) (hg : g.lo + g.w ≤ 32) (h : f.disj g = true) :
    (s.put f v).bit g i = s.bit g i := by rw [State.bit, State.get_put_disj s f g v hg h, State.bit]

theorem State.getS_put_disj (s : State) (f g : Fld) (v : Nat) (hg : g.lo + g.w ≤ 32) (h : f.disj g = true) :
    (s.put f v).getS g = s.getS g := by rw [State.getS, State.get_put_disj s f g v hg h, State.getS]

/-- A one-bit field put reads as the bit put. -/
theorem State.on_put_same (s : State) (f : Fld) (v : Nat) (h : f.lo + f.w ≤ 32) :
    (s.put f v).on f = (v % 2 ^ f.w == 1) := by rw [State.on, State.get_put_same s f v h]

theorem State.putB_eq (s : State) (f : Fld) (b : Bool) : s.putB f b = s.put f b.toNat := rfl

theorem State.putS_eq (s : State) (f : Fld) (v : Int) : s.putS f v = s.put f (ofSigned f.w v) := rfl

theorem State.putBit_eq (s : State) (f : Fld) (i : Nat) (b : Bool) :
    s.putBit f i b = s.put f (withBit (s.get f) i b) := rfl

theorem State.inc_eq (s : State) (f : Fld) : s.inc f = s.put f (s.get f + 1) := rfl

end Sys2Proof.Machine
end

