-- ==== Sys2Proof/Laws/State.lean ====
section
/-!
SUPPORT. One lemma per field per update of the state, true by unfolding, so that no later proof unfolds a record update: what an
update sets, and every other field left alone.
-/
set_option Elab.async false
namespace Sys2Proof.Machine

section
variable (s : State)

/-! modSys -/
@[simp] theorem State.modSys_regs (f : Sys → Sys) : (s.modSys f).regs = s.regs := rfl
@[simp] theorem State.modSys_mem (f : Sys → Sys) : (s.modSys f).mem = s.mem := rfl
@[simp] theorem State.modSys_pending (f : Sys → Sys) : (s.modSys f).pending = s.pending := rfl
@[simp] theorem State.modSys_fresh (f : Sys → Sys) : (s.modSys f).fresh = s.fresh := rfl
@[simp] theorem State.modSys_tick (f : Sys → Sys) : (s.modSys f).tick = s.tick := rfl
@[simp] theorem State.modSys_bus (f : Sys → Sys) : (s.modSys f).bus = s.bus := rfl
@[simp] theorem State.modSys_irqs (f : Sys → Sys) : (s.modSys f).irqs = s.irqs := rfl
@[simp] theorem State.modSys_sealApplied (f : Sys → Sys) : (s.modSys f).sealApplied = s.sealApplied := rfl
@[simp] theorem State.modSys_sys (f : Sys → Sys) : (s.modSys f).sys = f s.sys := rfl
@[simp] theorem State.modSys_cores (f : Sys → Sys) : (s.modSys f).cores = s.cores := rfl
@[simp] theorem State.modSys_ang (f : Sys → Sys) : (s.modSys f).ang = s.ang := rfl
@[simp] theorem State.modSys_pos (f : Sys → Sys) : (s.modSys f).pos = s.pos := rfl
@[simp] theorem State.modSys_sent (f : Sys → Sys) : (s.modSys f).sent = s.sent := rfl
@[simp] theorem State.modSys_emu (f : Sys → Sys) : (s.modSys f).emu = s.emu := rfl
@[simp] theorem State.modSys_borrow (f : Sys → Sys) : (s.modSys f).borrow = s.borrow := rfl
@[simp] theorem State.modSys_isnsB (f : Sys → Sys) : (s.modSys f).isnsB = s.isnsB := rfl
@[simp] theorem State.modSys_isnsC (f : Sys → Sys) : (s.modSys f).isnsC = s.isnsC := rfl
@[simp] theorem State.modSys_eng (f : Sys → Sys) : (s.modSys f).eng = s.eng := rfl
@[simp] theorem State.modSys_mc (f : Sys → Sys) : (s.modSys f).mc = s.mc := rfl
@[simp] theorem State.modSys_gate (f : Sys → Sys) : (s.modSys f).gate = s.gate := rfl
@[simp] theorem State.modSys_driver (f : Sys → Sys) : (s.modSys f).driver = s.driver := rfl
@[simp] theorem State.modSys_cont (f : Sys → Sys) : (s.modSys f).cont = s.cont := rfl
@[simp] theorem State.modSys_peers (f : Sys → Sys) : (s.modSys f).peers = s.peers := rfl
@[simp] theorem State.modSys_ebp (f : Sys → Sys) : (s.modSys f).ebp = s.ebp := rfl
@[simp] theorem State.modSys_lines (f : Sys → Sys) : (s.modSys f).lines = s.lines := rfl
@[simp] theorem State.modSys_safe (f : Sys → Sys) : (s.modSys f).safe = s.safe := rfl
@[simp] theorem State.modSys_twin (f : Sys → Sys) : (s.modSys f).twin = s.twin := rfl
@[simp] theorem State.modSys_can (f : Sys → Sys) : (s.modSys f).can = s.can := rfl
@[simp] theorem State.modSys_usl (f : Sys → Sys) : (s.modSys f).usl = s.usl := rfl
@[simp] theorem State.modSys_time (f : Sys → Sys) : (s.modSys f).time = s.time := rfl
@[simp] theorem State.modSys_host (f : Sys → Sys) : (s.modSys f).host = s.host := rfl
@[simp] theorem State.modSys_keep (f : Sys → Sys) : (s.modSys f).keep = s.keep := rfl
@[simp] theorem State.modSys_jtag (f : Sys → Sys) : (s.modSys f).jtag = s.jtag := rfl
@[simp] theorem State.modSys_pwr (f : Sys → Sys) : (s.modSys f).pwr = s.pwr := rfl
@[simp] theorem State.modSys_mport (f : Sys → Sys) : (s.modSys f).mport = s.mport := rfl
@[simp] theorem State.modSys_bkg (f : Sys → Sys) : (s.modSys f).bkg = s.bkg := rfl
@[simp] theorem State.modSys_rd (f : Sys → Sys) (x : Nat) : (s.modSys f).rd x = s.rd x := rfl
@[simp] theorem State.modSys_get (f : Sys → Sys) (g : Fld) : (s.modSys f).get g = s.get g := rfl
@[simp] theorem State.modSys_on (f : Sys → Sys) (g : Fld) : (s.modSys f).on g = s.on g := rfl
@[simp] theorem State.modSys_bit (f : Sys → Sys) (g : Fld) (i : Nat) : (s.modSys f).bit g i = s.bit g i := rfl
@[simp] theorem State.modSys_byte (f : Sys → Sys) (x : Nat) : (s.modSys f).byte x = s.byte x := rfl

/-! modCore -/
@[simp] theorem State.modCore_regs (p : Pair) (f : Core → Core) : (s.modCore p f).regs = s.regs := rfl
@[simp] theorem State.modCore_mem (p : Pair) (f : Core → Core) : (s.modCore p f).mem = s.mem := rfl
@[simp] theorem State.modCore_pending (p : Pair) (f : Core → Core) : (s.modCore p f).pending = s.pending := rfl
@[simp] theorem State.modCore_fresh (p : Pair) (f : Core → Core) : (s.modCore p f).fresh = s.fresh := rfl
@[simp] theorem State.modCore_tick (p : Pair) (f : Core → Core) : (s.modCore p f).tick = s.tick := rfl
@[simp] theorem State.modCore_bus (p : Pair) (f : Core → Core) : (s.modCore p f).bus = s.bus := rfl
@[simp] theorem State.modCore_irqs (p : Pair) (f : Core → Core) : (s.modCore p f).irqs = s.irqs := rfl
@[simp] theorem State.modCore_sealApplied (p : Pair) (f : Core → Core) : (s.modCore p f).sealApplied = s.sealApplied := rfl
@[simp] theorem State.modCore_sys (p : Pair) (f : Core → Core) : (s.modCore p f).sys = s.sys := rfl
@[simp] theorem State.modCore_cores (p : Pair) (f : Core → Core) : (s.modCore p f).cores = upd s.cores p f := rfl
@[simp] theorem State.modCore_ang (p : Pair) (f : Core → Core) : (s.modCore p f).ang = s.ang := rfl
@[simp] theorem State.modCore_pos (p : Pair) (f : Core → Core) : (s.modCore p f).pos = s.pos := rfl
@[simp] theorem State.modCore_sent (p : Pair) (f : Core → Core) : (s.modCore p f).sent = s.sent := rfl
@[simp] theorem State.modCore_emu (p : Pair) (f : Core → Core) : (s.modCore p f).emu = s.emu := rfl
@[simp] theorem State.modCore_borrow (p : Pair) (f : Core → Core) : (s.modCore p f).borrow = s.borrow := rfl
@[simp] theorem State.modCore_isnsB (p : Pair) (f : Core → Core) : (s.modCore p f).isnsB = s.isnsB := rfl
@[simp] theorem State.modCore_isnsC (p : Pair) (f : Core → Core) : (s.modCore p f).isnsC = s.isnsC := rfl
@[simp] theorem State.modCore_eng (p : Pair) (f : Core → Core) : (s.modCore p f).eng = s.eng := rfl
@[simp] theorem State.modCore_mc (p : Pair) (f : Core → Core) : (s.modCore p f).mc = s.mc := rfl
@[simp] theorem State.modCore_gate (p : Pair) (f : Core → Core) : (s.modCore p f).gate = s.gate := rfl
@[simp] theorem State.modCore_driver (p : Pair) (f : Core → Core) : (s.modCore p f).driver = s.driver := rfl
@[simp] theorem State.modCore_cont (p : Pair) (f : Core → Core) : (s.modCore p f).cont = s.cont := rfl
@[simp] theorem State.modCore_peers (p : Pair) (f : Core → Core) : (s.modCore p f).peers = s.peers := rfl
@[simp] theorem State.modCore_ebp (p : Pair) (f : Core → Core) : (s.modCore p f).ebp = s.ebp := rfl
@[simp] theorem State.modCore_lines (p : Pair) (f : Core → Core) : (s.modCore p f).lines = s.lines := rfl
@[simp] theorem State.modCore_safe (p : Pair) (f : Core → Core) : (s.modCore p f).safe = s.safe := rfl
@[simp] theorem State.modCore_twin (p : Pair) (f : Core → Core) : (s.modCore p f).twin = s.twin := rfl
@[simp] theorem State.modCore_can (p : Pair) (f : Core → Core) : (s.modCore p f).can = s.can := rfl
@[simp] theorem State.modCore_usl (p : Pair) (f : Core → Core) : (s.modCore p f).usl = s.usl := rfl
@[simp] theorem State.modCore_time (p : Pair) (f : Core → Core) : (s.modCore p f).time = s.time := rfl
@[simp] theorem State.modCore_host (p : Pair) (f : Core → Core) : (s.modCore p f).host = s.host := rfl
@[simp] theorem State.modCore_keep (p : Pair) (f : Core → Core) : (s.modCore p f).keep = s.keep := rfl
@[simp] theorem State.modCore_jtag (p : Pair) (f : Core → Core) : (s.modCore p f).jtag = s.jtag := rfl
@[simp] theorem State.modCore_pwr (p : Pair) (f : Core → Core) : (s.modCore p f).pwr = s.pwr := rfl
@[simp] theorem State.modCore_mport (p : Pair) (f : Core → Core) : (s.modCore p f).mport = s.mport := rfl
@[simp] theorem State.modCore_bkg (p : Pair) (f : Core → Core) : (s.modCore p f).bkg = s.bkg := rfl
@[simp] theorem State.modCore_rd (p : Pair) (f : Core → Core) (x : Nat) : (s.modCore p f).rd x = s.rd x := rfl
@[simp] theorem State.modCore_get (p : Pair) (f : Core → Core) (g : Fld) : (s.modCore p f).get g = s.get g := rfl
@[simp] theorem State.modCore_on (p : Pair) (f : Core → Core) (g : Fld) : (s.modCore p f).on g = s.on g := rfl
@[simp] theorem State.modCore_bit (p : Pair) (f : Core → Core) (g : Fld) (i : Nat) : (s.modCore p f).bit g i = s.bit g i := rfl
@[simp] theorem State.modCore_byte (p : Pair) (f : Core → Core) (x : Nat) : (s.modCore p f).byte x = s.byte x := rfl

/-! modAng -/
@[simp] theorem State.modAng_regs (b : Bridge) (f : Ang → Ang) : (s.modAng b f).regs = s.regs := rfl
@[simp] theorem State.modAng_mem (b : Bridge) (f : Ang → Ang) : (s.modAng b f).mem = s.mem := rfl
@[simp] theorem State.modAng_pending (b : Bridge) (f : Ang → Ang) : (s.modAng b f).pending = s.pending := rfl
@[simp] theorem State.modAng_fresh (b : Bridge) (f : Ang → Ang) : (s.modAng b f).fresh = s.fresh := rfl
@[simp] theorem State.modAng_tick (b : Bridge) (f : Ang → Ang) : (s.modAng b f).tick = s.tick := rfl
@[simp] theorem State.modAng_bus (b : Bridge) (f : Ang → Ang) : (s.modAng b f).bus = s.bus := rfl
@[simp] theorem State.modAng_irqs (b : Bridge) (f : Ang → Ang) : (s.modAng b f).irqs = s.irqs := rfl
@[simp] theorem State.modAng_sealApplied (b : Bridge) (f : Ang → Ang) : (s.modAng b f).sealApplied = s.sealApplied := rfl
@[simp] theorem State.modAng_sys (b : Bridge) (f : Ang → Ang) : (s.modAng b f).sys = s.sys := rfl
@[simp] theorem State.modAng_cores (b : Bridge) (f : Ang → Ang) : (s.modAng b f).cores = s.cores := rfl
@[simp] theorem State.modAng_ang (b : Bridge) (f : Ang → Ang) : (s.modAng b f).ang = upd s.ang b f := rfl
@[simp] theorem State.modAng_pos (b : Bridge) (f : Ang → Ang) : (s.modAng b f).pos = s.pos := rfl
@[simp] theorem State.modAng_sent (b : Bridge) (f : Ang → Ang) : (s.modAng b f).sent = s.sent := rfl
@[simp] theorem State.modAng_emu (b : Bridge) (f : Ang → Ang) : (s.modAng b f).emu = s.emu := rfl
@[simp] theorem State.modAng_borrow (b : Bridge) (f : Ang → Ang) : (s.modAng b f).borrow = s.borrow := rfl
@[simp] theorem State.modAng_isnsB (b : Bridge) (f : Ang → Ang) : (s.modAng b f).isnsB = s.isnsB := rfl
@[simp] theorem State.modAng_isnsC (b : Bridge) (f : Ang → Ang) : (s.modAng b f).isnsC = s.isnsC := rfl
@[simp] theorem State.modAng_eng (b : Bridge) (f : Ang → Ang) : (s.modAng b f).eng = s.eng := rfl
@[simp] theorem State.modAng_mc (b : Bridge) (f : Ang → Ang) : (s.modAng b f).mc = s.mc := rfl
@[simp] theorem State.modAng_gate (b : Bridge) (f : Ang → Ang) : (s.modAng b f).gate = s.gate := rfl
@[simp] theorem State.modAng_driver (b : Bridge) (f : Ang → Ang) : (s.modAng b f).driver = s.driver := rfl
@[simp] theorem State.modAng_cont (b : Bridge) (f : Ang → Ang) : (s.modAng b f).cont = s.cont := rfl
@[simp] theorem State.modAng_peers (b : Bridge) (f : Ang → Ang) : (s.modAng b f).peers = s.peers := rfl
@[simp] theorem State.modAng_ebp (b : Bridge) (f : Ang → Ang) : (s.modAng b f).ebp = s.ebp := rfl
@[simp] theorem State.modAng_lines (b : Bridge) (f : Ang → Ang) : (s.modAng b f).lines = s.lines := rfl
@[simp] theorem State.modAng_safe (b : Bridge) (f : Ang → Ang) : (s.modAng b f).safe = s.safe := rfl
@[simp] theorem State.modAng_twin (b : Bridge) (f : Ang → Ang) : (s.modAng b f).twin = s.twin := rfl
@[simp] theorem State.modAng_can (b : Bridge) (f : Ang → Ang) : (s.modAng b f).can = s.can := rfl
@[simp] theorem State.modAng_usl (b : Bridge) (f : Ang → Ang) : (s.modAng b f).usl = s.usl := rfl
@[simp] theorem State.modAng_time (b : Bridge) (f : Ang → Ang) : (s.modAng b f).time = s.time := rfl
@[simp] theorem State.modAng_host (b : Bridge) (f : Ang → Ang) : (s.modAng b f).host = s.host := rfl
@[simp] theorem State.modAng_keep (b : Bridge) (f : Ang → Ang) : (s.modAng b f).keep = s.keep := rfl
@[simp] theorem State.modAng_jtag (b : Bridge) (f : Ang → Ang) : (s.modAng b f).jtag = s.jtag := rfl
@[simp] theorem State.modAng_pwr (b : Bridge) (f : Ang → Ang) : (s.modAng b f).pwr = s.pwr := rfl
@[simp] theorem State.modAng_mport (b : Bridge) (f : Ang → Ang) : (s.modAng b f).mport = s.mport := rfl
@[simp] theorem State.modAng_bkg (b : Bridge) (f : Ang → Ang) : (s.modAng b f).bkg = s.bkg := rfl
@[simp] theorem State.modAng_rd (b : Bridge) (f : Ang → Ang) (x : Nat) : (s.modAng b f).rd x = s.rd x := rfl
@[simp] theorem State.modAng_get (b : Bridge) (f : Ang → Ang) (g : Fld) : (s.modAng b f).get g = s.get g := rfl
@[simp] theorem State.modAng_on (b : Bridge) (f : Ang → Ang) (g : Fld) : (s.modAng b f).on g = s.on g := rfl
@[simp] theorem State.modAng_bit (b : Bridge) (f : Ang → Ang) (g : Fld) (i : Nat) : (s.modAng b f).bit g i = s.bit g i := rfl
@[simp] theorem State.modAng_byte (b : Bridge) (f : Ang → Ang) (x : Nat) : (s.modAng b f).byte x = s.byte x := rfl

/-! modPos -/
@[simp] theorem State.modPos_regs (k : PosBlk) (f : Pos → Pos) : (s.modPos k f).regs = s.regs := rfl
@[simp] theorem State.modPos_mem (k : PosBlk) (f : Pos → Pos) : (s.modPos k f).mem = s.mem := rfl
@[simp] theorem State.modPos_pending (k : PosBlk) (f : Pos → Pos) : (s.modPos k f).pending = s.pending := rfl
@[simp] theorem State.modPos_fresh (k : PosBlk) (f : Pos → Pos) : (s.modPos k f).fresh = s.fresh := rfl
@[simp] theorem State.modPos_tick (k : PosBlk) (f : Pos → Pos) : (s.modPos k f).tick = s.tick := rfl
@[simp] theorem State.modPos_bus (k : PosBlk) (f : Pos → Pos) : (s.modPos k f).bus = s.bus := rfl
@[simp] theorem State.modPos_irqs (k : PosBlk) (f : Pos → Pos) : (s.modPos k f).irqs = s.irqs := rfl
@[simp] theorem State.modPos_sealApplied (k : PosBlk) (f : Pos → Pos) : (s.modPos k f).sealApplied = s.sealApplied := rfl
@[simp] theorem State.modPos_sys (k : PosBlk) (f : Pos → Pos) : (s.modPos k f).sys = s.sys := rfl
@[simp] theorem State.modPos_cores (k : PosBlk) (f : Pos → Pos) : (s.modPos k f).cores = s.cores := rfl
@[simp] theorem State.modPos_ang (k : PosBlk) (f : Pos → Pos) : (s.modPos k f).ang = s.ang := rfl
@[simp] theorem State.modPos_pos (k : PosBlk) (f : Pos → Pos) : (s.modPos k f).pos = upd s.pos k f := rfl
@[simp] theorem State.modPos_sent (k : PosBlk) (f : Pos → Pos) : (s.modPos k f).sent = s.sent := rfl
@[simp] theorem State.modPos_emu (k : PosBlk) (f : Pos → Pos) : (s.modPos k f).emu = s.emu := rfl
@[simp] theorem State.modPos_borrow (k : PosBlk) (f : Pos → Pos) : (s.modPos k f).borrow = s.borrow := rfl
@[simp] theorem State.modPos_isnsB (k : PosBlk) (f : Pos → Pos) : (s.modPos k f).isnsB = s.isnsB := rfl
@[simp] theorem State.modPos_isnsC (k : PosBlk) (f : Pos → Pos) : (s.modPos k f).isnsC = s.isnsC := rfl
@[simp] theorem State.modPos_eng (k : PosBlk) (f : Pos → Pos) : (s.modPos k f).eng = s.eng := rfl
@[simp] theorem State.modPos_mc (k : PosBlk) (f : Pos → Pos) : (s.modPos k f).mc = s.mc := rfl
@[simp] theorem State.modPos_gate (k : PosBlk) (f : Pos → Pos) : (s.modPos k f).gate = s.gate := rfl
@[simp] theorem State.modPos_driver (k : PosBlk) (f : Pos → Pos) : (s.modPos k f).driver = s.driver := rfl
@[simp] theorem State.modPos_cont (k : PosBlk) (f : Pos → Pos) : (s.modPos k f).cont = s.cont := rfl
@[simp] theorem State.modPos_peers (k : PosBlk) (f : Pos → Pos) : (s.modPos k f).peers = s.peers := rfl
@[simp] theorem State.modPos_ebp (k : PosBlk) (f : Pos → Pos) : (s.modPos k f).ebp = s.ebp := rfl
@[simp] theorem State.modPos_lines (k : PosBlk) (f : Pos → Pos) : (s.modPos k f).lines = s.lines := rfl
@[simp] theorem State.modPos_safe (k : PosBlk) (f : Pos → Pos) : (s.modPos k f).safe = s.safe := rfl
@[simp] theorem State.modPos_twin (k : PosBlk) (f : Pos → Pos) : (s.modPos k f).twin = s.twin := rfl
@[simp] theorem State.modPos_can (k : PosBlk) (f : Pos → Pos) : (s.modPos k f).can = s.can := rfl
@[simp] theorem State.modPos_usl (k : PosBlk) (f : Pos → Pos) : (s.modPos k f).usl = s.usl := rfl
@[simp] theorem State.modPos_time (k : PosBlk) (f : Pos → Pos) : (s.modPos k f).time = s.time := rfl
@[simp] theorem State.modPos_host (k : PosBlk) (f : Pos → Pos) : (s.modPos k f).host = s.host := rfl
@[simp] theorem State.modPos_keep (k : PosBlk) (f : Pos → Pos) : (s.modPos k f).keep = s.keep := rfl
@[simp] theorem State.modPos_jtag (k : PosBlk) (f : Pos → Pos) : (s.modPos k f).jtag = s.jtag := rfl
@[simp] theorem State.modPos_pwr (k : PosBlk) (f : Pos → Pos) : (s.modPos k f).pwr = s.pwr := rfl
@[simp] theorem State.modPos_mport (k : PosBlk) (f : Pos → Pos) : (s.modPos k f).mport = s.mport := rfl
@[simp] theorem State.modPos_bkg (k : PosBlk) (f : Pos → Pos) : (s.modPos k f).bkg = s.bkg := rfl
@[simp] theorem State.modPos_rd (k : PosBlk) (f : Pos → Pos) (x : Nat) : (s.modPos k f).rd x = s.rd x := rfl
@[simp] theorem State.modPos_get (k : PosBlk) (f : Pos → Pos) (g : Fld) : (s.modPos k f).get g = s.get g := rfl
@[simp] theorem State.modPos_on (k : PosBlk) (f : Pos → Pos) (g : Fld) : (s.modPos k f).on g = s.on g := rfl
@[simp] theorem State.modPos_bit (k : PosBlk) (f : Pos → Pos) (g : Fld) (i : Nat) : (s.modPos k f).bit g i = s.bit g i := rfl
@[simp] theorem State.modPos_byte (k : PosBlk) (f : Pos → Pos) (x : Nat) : (s.modPos k f).byte x = s.byte x := rfl

/-! modSent -/
@[simp] theorem State.modSent_regs (c : SentCh) (f : Sent → Sent) : (s.modSent c f).regs = s.regs := rfl
@[simp] theorem State.modSent_mem (c : SentCh) (f : Sent → Sent) : (s.modSent c f).mem = s.mem := rfl
@[simp] theorem State.modSent_pending (c : SentCh) (f : Sent → Sent) : (s.modSent c f).pending = s.pending := rfl
@[simp] theorem State.modSent_fresh (c : SentCh) (f : Sent → Sent) : (s.modSent c f).fresh = s.fresh := rfl
@[simp] theorem State.modSent_tick (c : SentCh) (f : Sent → Sent) : (s.modSent c f).tick = s.tick := rfl
@[simp] theorem State.modSent_bus (c : SentCh) (f : Sent → Sent) : (s.modSent c f).bus = s.bus := rfl
@[simp] theorem State.modSent_irqs (c : SentCh) (f : Sent → Sent) : (s.modSent c f).irqs = s.irqs := rfl
@[simp] theorem State.modSent_sealApplied (c : SentCh) (f : Sent → Sent) : (s.modSent c f).sealApplied = s.sealApplied := rfl
@[simp] theorem State.modSent_sys (c : SentCh) (f : Sent → Sent) : (s.modSent c f).sys = s.sys := rfl
@[simp] theorem State.modSent_cores (c : SentCh) (f : Sent → Sent) : (s.modSent c f).cores = s.cores := rfl
@[simp] theorem State.modSent_ang (c : SentCh) (f : Sent → Sent) : (s.modSent c f).ang = s.ang := rfl
@[simp] theorem State.modSent_pos (c : SentCh) (f : Sent → Sent) : (s.modSent c f).pos = s.pos := rfl
@[simp] theorem State.modSent_sent (c : SentCh) (f : Sent → Sent) : (s.modSent c f).sent = upd s.sent c f := rfl
@[simp] theorem State.modSent_emu (c : SentCh) (f : Sent → Sent) : (s.modSent c f).emu = s.emu := rfl
@[simp] theorem State.modSent_borrow (c : SentCh) (f : Sent → Sent) : (s.modSent c f).borrow = s.borrow := rfl
@[simp] theorem State.modSent_isnsB (c : SentCh) (f : Sent → Sent) : (s.modSent c f).isnsB = s.isnsB := rfl
@[simp] theorem State.modSent_isnsC (c : SentCh) (f : Sent → Sent) : (s.modSent c f).isnsC = s.isnsC := rfl
@[simp] theorem State.modSent_eng (c : SentCh) (f : Sent → Sent) : (s.modSent c f).eng = s.eng := rfl
@[simp] theorem State.modSent_mc (c : SentCh) (f : Sent → Sent) : (s.modSent c f).mc = s.mc := rfl
@[simp] theorem State.modSent_gate (c : SentCh) (f : Sent → Sent) : (s.modSent c f).gate = s.gate := rfl
@[simp] theorem State.modSent_driver (c : SentCh) (f : Sent → Sent) : (s.modSent c f).driver = s.driver := rfl
@[simp] theorem State.modSent_cont (c : SentCh) (f : Sent → Sent) : (s.modSent c f).cont = s.cont := rfl
@[simp] theorem State.modSent_peers (c : SentCh) (f : Sent → Sent) : (s.modSent c f).peers = s.peers := rfl
@[simp] theorem State.modSent_ebp (c : SentCh) (f : Sent → Sent) : (s.modSent c f).ebp = s.ebp := rfl
@[simp] theorem State.modSent_lines (c : SentCh) (f : Sent → Sent) : (s.modSent c f).lines = s.lines := rfl
@[simp] theorem State.modSent_safe (c : SentCh) (f : Sent → Sent) : (s.modSent c f).safe = s.safe := rfl
@[simp] theorem State.modSent_twin (c : SentCh) (f : Sent → Sent) : (s.modSent c f).twin = s.twin := rfl
@[simp] theorem State.modSent_can (c : SentCh) (f : Sent → Sent) : (s.modSent c f).can = s.can := rfl
@[simp] theorem State.modSent_usl (c : SentCh) (f : Sent → Sent) : (s.modSent c f).usl = s.usl := rfl
@[simp] theorem State.modSent_time (c : SentCh) (f : Sent → Sent) : (s.modSent c f).time = s.time := rfl
@[simp] theorem State.modSent_host (c : SentCh) (f : Sent → Sent) : (s.modSent c f).host = s.host := rfl
@[simp] theorem State.modSent_keep (c : SentCh) (f : Sent → Sent) : (s.modSent c f).keep = s.keep := rfl
@[simp] theorem State.modSent_jtag (c : SentCh) (f : Sent → Sent) : (s.modSent c f).jtag = s.jtag := rfl
@[simp] theorem State.modSent_pwr (c : SentCh) (f : Sent → Sent) : (s.modSent c f).pwr = s.pwr := rfl
@[simp] theorem State.modSent_mport (c : SentCh) (f : Sent → Sent) : (s.modSent c f).mport = s.mport := rfl
@[simp] theorem State.modSent_bkg (c : SentCh) (f : Sent → Sent) : (s.modSent c f).bkg = s.bkg := rfl
@[simp] theorem State.modSent_rd (c : SentCh) (f : Sent → Sent) (x : Nat) : (s.modSent c f).rd x = s.rd x := rfl
@[simp] theorem State.modSent_get (c : SentCh) (f : Sent → Sent) (g : Fld) : (s.modSent c f).get g = s.get g := rfl
@[simp] theorem State.modSent_on (c : SentCh) (f : Sent → Sent) (g : Fld) : (s.modSent c f).on g = s.on g := rfl
@[simp] theorem State.modSent_bit (c : SentCh) (f : Sent → Sent) (g : Fld) (i : Nat) : (s.modSent c f).bit g i = s.bit g i := rfl
@[simp] theorem State.modSent_byte (c : SentCh) (f : Sent → Sent) (x : Nat) : (s.modSent c f).byte x = s.byte x := rfl

/-! modBridge -/
@[simp] theorem State.modBridge_regs (b : Bridge) (f : IsnsBridge → IsnsBridge) : (s.modBridge b f).regs = s.regs := rfl
@[simp] theorem State.modBridge_mem (b : Bridge) (f : IsnsBridge → IsnsBridge) : (s.modBridge b f).mem = s.mem := rfl
@[simp] theorem State.modBridge_pending (b : Bridge) (f : IsnsBridge → IsnsBridge) : (s.modBridge b f).pending = s.pending := rfl
@[simp] theorem State.modBridge_fresh (b : Bridge) (f : IsnsBridge → IsnsBridge) : (s.modBridge b f).fresh = s.fresh := rfl
@[simp] theorem State.modBridge_tick (b : Bridge) (f : IsnsBridge → IsnsBridge) : (s.modBridge b f).tick = s.tick := rfl
@[simp] theorem State.modBridge_bus (b : Bridge) (f : IsnsBridge → IsnsBridge) : (s.modBridge b f).bus = s.bus := rfl
@[simp] theorem State.modBridge_irqs (b : Bridge) (f : IsnsBridge → IsnsBridge) : (s.modBridge b f).irqs = s.irqs := rfl
@[simp] theorem State.modBridge_sealApplied (b : Bridge) (f : IsnsBridge → IsnsBridge) : (s.modBridge b f).sealApplied = s.sealApplied := rfl
@[simp] theorem State.modBridge_sys (b : Bridge) (f : IsnsBridge → IsnsBridge) : (s.modBridge b f).sys = s.sys := rfl
@[simp] theorem State.modBridge_cores (b : Bridge) (f : IsnsBridge → IsnsBridge) : (s.modBridge b f).cores = s.cores := rfl
@[simp] theorem State.modBridge_ang (b : Bridge) (f : IsnsBridge → IsnsBridge) : (s.modBridge b f).ang = s.ang := rfl
@[simp] theorem State.modBridge_pos (b : Bridge) (f : IsnsBridge → IsnsBridge) : (s.modBridge b f).pos = s.pos := rfl
@[simp] theorem State.modBridge_sent (b : Bridge) (f : IsnsBridge → IsnsBridge) : (s.modBridge b f).sent = s.sent := rfl
@[simp] theorem State.modBridge_emu (b : Bridge) (f : IsnsBridge → IsnsBridge) : (s.modBridge b f).emu = s.emu := rfl
@[simp] theorem State.modBridge_borrow (b : Bridge) (f : IsnsBridge → IsnsBridge) : (s.modBridge b f).borrow = s.borrow := rfl
@[simp] theorem State.modBridge_isnsB (b : Bridge) (f : IsnsBridge → IsnsBridge) : (s.modBridge b f).isnsB = upd s.isnsB b f := rfl
@[simp] theorem State.modBridge_isnsC (b : Bridge) (f : IsnsBridge → IsnsBridge) : (s.modBridge b f).isnsC = s.isnsC := rfl
@[simp] theorem State.modBridge_eng (b : Bridge) (f : IsnsBridge → IsnsBridge) : (s.modBridge b f).eng = s.eng := rfl
@[simp] theorem State.modBridge_mc (b : Bridge) (f : IsnsBridge → IsnsBridge) : (s.modBridge b f).mc = s.mc := rfl
@[simp] theorem State.modBridge_gate (b : Bridge) (f : IsnsBridge → IsnsBridge) : (s.modBridge b f).gate = s.gate := rfl
@[simp] theorem State.modBridge_driver (b : Bridge) (f : IsnsBridge → IsnsBridge) : (s.modBridge b f).driver = s.driver := rfl
@[simp] theorem State.modBridge_cont (b : Bridge) (f : IsnsBridge → IsnsBridge) : (s.modBridge b f).cont = s.cont := rfl
@[simp] theorem State.modBridge_peers (b : Bridge) (f : IsnsBridge → IsnsBridge) : (s.modBridge b f).peers = s.peers := rfl
@[simp] theorem State.modBridge_ebp (b : Bridge) (f : IsnsBridge → IsnsBridge) : (s.modBridge b f).ebp = s.ebp := rfl
@[simp] theorem State.modBridge_lines (b : Bridge) (f : IsnsBridge → IsnsBridge) : (s.modBridge b f).lines = s.lines := rfl
@[simp] theorem State.modBridge_safe (b : Bridge) (f : IsnsBridge → IsnsBridge) : (s.modBridge b f).safe = s.safe := rfl
@[simp] theorem State.modBridge_twin (b : Bridge) (f : IsnsBridge → IsnsBridge) : (s.modBridge b f).twin = s.twin := rfl
@[simp] theorem State.modBridge_can (b : Bridge) (f : IsnsBridge → IsnsBridge) : (s.modBridge b f).can = s.can := rfl
@[simp] theorem State.modBridge_usl (b : Bridge) (f : IsnsBridge → IsnsBridge) : (s.modBridge b f).usl = s.usl := rfl
@[simp] theorem State.modBridge_time (b : Bridge) (f : IsnsBridge → IsnsBridge) : (s.modBridge b f).time = s.time := rfl
@[simp] theorem State.modBridge_host (b : Bridge) (f : IsnsBridge → IsnsBridge) : (s.modBridge b f).host = s.host := rfl
@[simp] theorem State.modBridge_keep (b : Bridge) (f : IsnsBridge → IsnsBridge) : (s.modBridge b f).keep = s.keep := rfl
@[simp] theorem State.modBridge_jtag (b : Bridge) (f : IsnsBridge → IsnsBridge) : (s.modBridge b f).jtag = s.jtag := rfl
@[simp] theorem State.modBridge_pwr (b : Bridge) (f : IsnsBridge → IsnsBridge) : (s.modBridge b f).pwr = s.pwr := rfl
@[simp] theorem State.modBridge_mport (b : Bridge) (f : IsnsBridge → IsnsBridge) : (s.modBridge b f).mport = s.mport := rfl
@[simp] theorem State.modBridge_bkg (b : Bridge) (f : IsnsBridge → IsnsBridge) : (s.modBridge b f).bkg = s.bkg := rfl
@[simp] theorem State.modBridge_rd (b : Bridge) (f : IsnsBridge → IsnsBridge) (x : Nat) : (s.modBridge b f).rd x = s.rd x := rfl
@[simp] theorem State.modBridge_get (b : Bridge) (f : IsnsBridge → IsnsBridge) (g : Fld) : (s.modBridge b f).get g = s.get g := rfl
@[simp] theorem State.modBridge_on (b : Bridge) (f : IsnsBridge → IsnsBridge) (g : Fld) : (s.modBridge b f).on g = s.on g := rfl
@[simp] theorem State.modBridge_bit (b : Bridge) (f : IsnsBridge → IsnsBridge) (g : Fld) (i : Nat) : (s.modBridge b f).bit g i = s.bit g i := rfl
@[simp] theorem State.modBridge_byte (b : Bridge) (f : IsnsBridge → IsnsBridge) (x : Nat) : (s.modBridge b f).byte x = s.byte x := rfl

/-! modChan -/
@[simp] theorem State.modChan_regs (c : IsnsCh) (f : IsnsChan → IsnsChan) : (s.modChan c f).regs = s.regs := rfl
@[simp] theorem State.modChan_mem (c : IsnsCh) (f : IsnsChan → IsnsChan) : (s.modChan c f).mem = s.mem := rfl
@[simp] theorem State.modChan_pending (c : IsnsCh) (f : IsnsChan → IsnsChan) : (s.modChan c f).pending = s.pending := rfl
@[simp] theorem State.modChan_fresh (c : IsnsCh) (f : IsnsChan → IsnsChan) : (s.modChan c f).fresh = s.fresh := rfl
@[simp] theorem State.modChan_tick (c : IsnsCh) (f : IsnsChan → IsnsChan) : (s.modChan c f).tick = s.tick := rfl
@[simp] theorem State.modChan_bus (c : IsnsCh) (f : IsnsChan → IsnsChan) : (s.modChan c f).bus = s.bus := rfl
@[simp] theorem State.modChan_irqs (c : IsnsCh) (f : IsnsChan → IsnsChan) : (s.modChan c f).irqs = s.irqs := rfl
@[simp] theorem State.modChan_sealApplied (c : IsnsCh) (f : IsnsChan → IsnsChan) : (s.modChan c f).sealApplied = s.sealApplied := rfl
@[simp] theorem State.modChan_sys (c : IsnsCh) (f : IsnsChan → IsnsChan) : (s.modChan c f).sys = s.sys := rfl
@[simp] theorem State.modChan_cores (c : IsnsCh) (f : IsnsChan → IsnsChan) : (s.modChan c f).cores = s.cores := rfl
@[simp] theorem State.modChan_ang (c : IsnsCh) (f : IsnsChan → IsnsChan) : (s.modChan c f).ang = s.ang := rfl
@[simp] theorem State.modChan_pos (c : IsnsCh) (f : IsnsChan → IsnsChan) : (s.modChan c f).pos = s.pos := rfl
@[simp] theorem State.modChan_sent (c : IsnsCh) (f : IsnsChan → IsnsChan) : (s.modChan c f).sent = s.sent := rfl
@[simp] theorem State.modChan_emu (c : IsnsCh) (f : IsnsChan → IsnsChan) : (s.modChan c f).emu = s.emu := rfl
@[simp] theorem State.modChan_borrow (c : IsnsCh) (f : IsnsChan → IsnsChan) : (s.modChan c f).borrow = s.borrow := rfl
@[simp] theorem State.modChan_isnsB (c : IsnsCh) (f : IsnsChan → IsnsChan) : (s.modChan c f).isnsB = s.isnsB := rfl
@[simp] theorem State.modChan_isnsC (c : IsnsCh) (f : IsnsChan → IsnsChan) : (s.modChan c f).isnsC = upd s.isnsC c f := rfl
@[simp] theorem State.modChan_eng (c : IsnsCh) (f : IsnsChan → IsnsChan) : (s.modChan c f).eng = s.eng := rfl
@[simp] theorem State.modChan_mc (c : IsnsCh) (f : IsnsChan → IsnsChan) : (s.modChan c f).mc = s.mc := rfl
@[simp] theorem State.modChan_gate (c : IsnsCh) (f : IsnsChan → IsnsChan) : (s.modChan c f).gate = s.gate := rfl
@[simp] theorem State.modChan_driver (c : IsnsCh) (f : IsnsChan → IsnsChan) : (s.modChan c f).driver = s.driver := rfl
@[simp] theorem State.modChan_cont (c : IsnsCh) (f : IsnsChan → IsnsChan) : (s.modChan c f).cont = s.cont := rfl
@[simp] theorem State.modChan_peers (c : IsnsCh) (f : IsnsChan → IsnsChan) : (s.modChan c f).peers = s.peers := rfl
@[simp] theorem State.modChan_ebp (c : IsnsCh) (f : IsnsChan → IsnsChan) : (s.modChan c f).ebp = s.ebp := rfl
@[simp] theorem State.modChan_lines (c : IsnsCh) (f : IsnsChan → IsnsChan) : (s.modChan c f).lines = s.lines := rfl
@[simp] theorem State.modChan_safe (c : IsnsCh) (f : IsnsChan → IsnsChan) : (s.modChan c f).safe = s.safe := rfl
@[simp] theorem State.modChan_twin (c : IsnsCh) (f : IsnsChan → IsnsChan) : (s.modChan c f).twin = s.twin := rfl
@[simp] theorem State.modChan_can (c : IsnsCh) (f : IsnsChan → IsnsChan) : (s.modChan c f).can = s.can := rfl
@[simp] theorem State.modChan_usl (c : IsnsCh) (f : IsnsChan → IsnsChan) : (s.modChan c f).usl = s.usl := rfl
@[simp] theorem State.modChan_time (c : IsnsCh) (f : IsnsChan → IsnsChan) : (s.modChan c f).time = s.time := rfl
@[simp] theorem State.modChan_host (c : IsnsCh) (f : IsnsChan → IsnsChan) : (s.modChan c f).host = s.host := rfl
@[simp] theorem State.modChan_keep (c : IsnsCh) (f : IsnsChan → IsnsChan) : (s.modChan c f).keep = s.keep := rfl
@[simp] theorem State.modChan_jtag (c : IsnsCh) (f : IsnsChan → IsnsChan) : (s.modChan c f).jtag = s.jtag := rfl
@[simp] theorem State.modChan_pwr (c : IsnsCh) (f : IsnsChan → IsnsChan) : (s.modChan c f).pwr = s.pwr := rfl
@[simp] theorem State.modChan_mport (c : IsnsCh) (f : IsnsChan → IsnsChan) : (s.modChan c f).mport = s.mport := rfl
@[simp] theorem State.modChan_bkg (c : IsnsCh) (f : IsnsChan → IsnsChan) : (s.modChan c f).bkg = s.bkg := rfl
@[simp] theorem State.modChan_rd (c : IsnsCh) (f : IsnsChan → IsnsChan) (x : Nat) : (s.modChan c f).rd x = s.rd x := rfl
@[simp] theorem State.modChan_get (c : IsnsCh) (f : IsnsChan → IsnsChan) (g : Fld) : (s.modChan c f).get g = s.get g := rfl
@[simp] theorem State.modChan_on (c : IsnsCh) (f : IsnsChan → IsnsChan) (g : Fld) : (s.modChan c f).on g = s.on g := rfl
@[simp] theorem State.modChan_bit (c : IsnsCh) (f : IsnsChan → IsnsChan) (g : Fld) (i : Nat) : (s.modChan c f).bit g i = s.bit g i := rfl
@[simp] theorem State.modChan_byte (c : IsnsCh) (f : IsnsChan → IsnsChan) (x : Nat) : (s.modChan c f).byte x = s.byte x := rfl

/-! modEng -/
@[simp] theorem State.modEng_regs (e : Eng) (f : Engine → Engine) : (s.modEng e f).regs = s.regs := rfl
@[simp] theorem State.modEng_mem (e : Eng) (f : Engine → Engine) : (s.modEng e f).mem = s.mem := rfl
@[simp] theorem State.modEng_pending (e : Eng) (f : Engine → Engine) : (s.modEng e f).pending = s.pending := rfl
@[simp] theorem State.modEng_fresh (e : Eng) (f : Engine → Engine) : (s.modEng e f).fresh = s.fresh := rfl
@[simp] theorem State.modEng_tick (e : Eng) (f : Engine → Engine) : (s.modEng e f).tick = s.tick := rfl
@[simp] theorem State.modEng_bus (e : Eng) (f : Engine → Engine) : (s.modEng e f).bus = s.bus := rfl
@[simp] theorem State.modEng_irqs (e : Eng) (f : Engine → Engine) : (s.modEng e f).irqs = s.irqs := rfl
@[simp] theorem State.modEng_sealApplied (e : Eng) (f : Engine → Engine) : (s.modEng e f).sealApplied = s.sealApplied := rfl
@[simp] theorem State.modEng_sys (e : Eng) (f : Engine → Engine) : (s.modEng e f).sys = s.sys := rfl
@[simp] theorem State.modEng_cores (e : Eng) (f : Engine → Engine) : (s.modEng e f).cores = s.cores := rfl
@[simp] theorem State.modEng_ang (e : Eng) (f : Engine → Engine) : (s.modEng e f).ang = s.ang := rfl
@[simp] theorem State.modEng_pos (e : Eng) (f : Engine → Engine) : (s.modEng e f).pos = s.pos := rfl
@[simp] theorem State.modEng_sent (e : Eng) (f : Engine → Engine) : (s.modEng e f).sent = s.sent := rfl
@[simp] theorem State.modEng_emu (e : Eng) (f : Engine → Engine) : (s.modEng e f).emu = s.emu := rfl
@[simp] theorem State.modEng_borrow (e : Eng) (f : Engine → Engine) : (s.modEng e f).borrow = s.borrow := rfl
@[simp] theorem State.modEng_isnsB (e : Eng) (f : Engine → Engine) : (s.modEng e f).isnsB = s.isnsB := rfl
@[simp] theorem State.modEng_isnsC (e : Eng) (f : Engine → Engine) : (s.modEng e f).isnsC = s.isnsC := rfl
@[simp] theorem State.modEng_eng (e : Eng) (f : Engine → Engine) : (s.modEng e f).eng = upd s.eng e f := rfl
@[simp] theorem State.modEng_mc (e : Eng) (f : Engine → Engine) : (s.modEng e f).mc = s.mc := rfl
@[simp] theorem State.modEng_gate (e : Eng) (f : Engine → Engine) : (s.modEng e f).gate = s.gate := rfl
@[simp] theorem State.modEng_driver (e : Eng) (f : Engine → Engine) : (s.modEng e f).driver = s.driver := rfl
@[simp] theorem State.modEng_cont (e : Eng) (f : Engine → Engine) : (s.modEng e f).cont = s.cont := rfl
@[simp] theorem State.modEng_peers (e : Eng) (f : Engine → Engine) : (s.modEng e f).peers = s.peers := rfl
@[simp] theorem State.modEng_ebp (e : Eng) (f : Engine → Engine) : (s.modEng e f).ebp = s.ebp := rfl
@[simp] theorem State.modEng_lines (e : Eng) (f : Engine → Engine) : (s.modEng e f).lines = s.lines := rfl
@[simp] theorem State.modEng_safe (e : Eng) (f : Engine → Engine) : (s.modEng e f).safe = s.safe := rfl
@[simp] theorem State.modEng_twin (e : Eng) (f : Engine → Engine) : (s.modEng e f).twin = s.twin := rfl
@[simp] theorem State.modEng_can (e : Eng) (f : Engine → Engine) : (s.modEng e f).can = s.can := rfl
@[simp] theorem State.modEng_usl (e : Eng) (f : Engine → Engine) : (s.modEng e f).usl = s.usl := rfl
@[simp] theorem State.modEng_time (e : Eng) (f : Engine → Engine) : (s.modEng e f).time = s.time := rfl
@[simp] theorem State.modEng_host (e : Eng) (f : Engine → Engine) : (s.modEng e f).host = s.host := rfl
@[simp] theorem State.modEng_keep (e : Eng) (f : Engine → Engine) : (s.modEng e f).keep = s.keep := rfl
@[simp] theorem State.modEng_jtag (e : Eng) (f : Engine → Engine) : (s.modEng e f).jtag = s.jtag := rfl
@[simp] theorem State.modEng_pwr (e : Eng) (f : Engine → Engine) : (s.modEng e f).pwr = s.pwr := rfl
@[simp] theorem State.modEng_mport (e : Eng) (f : Engine → Engine) : (s.modEng e f).mport = s.mport := rfl
@[simp] theorem State.modEng_bkg (e : Eng) (f : Engine → Engine) : (s.modEng e f).bkg = s.bkg := rfl
@[simp] theorem State.modEng_rd (e : Eng) (f : Engine → Engine) (x : Nat) : (s.modEng e f).rd x = s.rd x := rfl
@[simp] theorem State.modEng_get (e : Eng) (f : Engine → Engine) (g : Fld) : (s.modEng e f).get g = s.get g := rfl
@[simp] theorem State.modEng_on (e : Eng) (f : Engine → Engine) (g : Fld) : (s.modEng e f).on g = s.on g := rfl
@[simp] theorem State.modEng_bit (e : Eng) (f : Engine → Engine) (g : Fld) (i : Nat) : (s.modEng e f).bit g i = s.bit g i := rfl
@[simp] theorem State.modEng_byte (e : Eng) (f : Engine → Engine) (x : Nat) : (s.modEng e f).byte x = s.byte x := rfl

/-! modMc -/
@[simp] theorem State.modMc_regs (b : Bridge) (f : Mc → Mc) : (s.modMc b f).regs = s.regs := rfl
@[simp] theorem State.modMc_mem (b : Bridge) (f : Mc → Mc) : (s.modMc b f).mem = s.mem := rfl
@[simp] theorem State.modMc_pending (b : Bridge) (f : Mc → Mc) : (s.modMc b f).pending = s.pending := rfl
@[simp] theorem State.modMc_fresh (b : Bridge) (f : Mc → Mc) : (s.modMc b f).fresh = s.fresh := rfl
@[simp] theorem State.modMc_tick (b : Bridge) (f : Mc → Mc) : (s.modMc b f).tick = s.tick := rfl
@[simp] theorem State.modMc_bus (b : Bridge) (f : Mc → Mc) : (s.modMc b f).bus = s.bus := rfl
@[simp] theorem State.modMc_irqs (b : Bridge) (f : Mc → Mc) : (s.modMc b f).irqs = s.irqs := rfl
@[simp] theorem State.modMc_sealApplied (b : Bridge) (f : Mc → Mc) : (s.modMc b f).sealApplied = s.sealApplied := rfl
@[simp] theorem State.modMc_sys (b : Bridge) (f : Mc → Mc) : (s.modMc b f).sys = s.sys := rfl
@[simp] theorem State.modMc_cores (b : Bridge) (f : Mc → Mc) : (s.modMc b f).cores = s.cores := rfl
@[simp] theorem State.modMc_ang (b : Bridge) (f : Mc → Mc) : (s.modMc b f).ang = s.ang := rfl
@[simp] theorem State.modMc_pos (b : Bridge) (f : Mc → Mc) : (s.modMc b f).pos = s.pos := rfl
@[simp] theorem State.modMc_sent (b : Bridge) (f : Mc → Mc) : (s.modMc b f).sent = s.sent := rfl
@[simp] theorem State.modMc_emu (b : Bridge) (f : Mc → Mc) : (s.modMc b f).emu = s.emu := rfl
@[simp] theorem State.modMc_borrow (b : Bridge) (f : Mc → Mc) : (s.modMc b f).borrow = s.borrow := rfl
@[simp] theorem State.modMc_isnsB (b : Bridge) (f : Mc → Mc) : (s.modMc b f).isnsB = s.isnsB := rfl
@[simp] theorem State.modMc_isnsC (b : Bridge) (f : Mc → Mc) : (s.modMc b f).isnsC = s.isnsC := rfl
@[simp] theorem State.modMc_eng (b : Bridge) (f : Mc → Mc) : (s.modMc b f).eng = s.eng := rfl
@[simp] theorem State.modMc_mc (b : Bridge) (f : Mc → Mc) : (s.modMc b f).mc = upd s.mc b f := rfl
@[simp] theorem State.modMc_gate (b : Bridge) (f : Mc → Mc) : (s.modMc b f).gate = s.gate := rfl
@[simp] theorem State.modMc_driver (b : Bridge) (f : Mc → Mc) : (s.modMc b f).driver = s.driver := rfl
@[simp] theorem State.modMc_cont (b : Bridge) (f : Mc → Mc) : (s.modMc b f).cont = s.cont := rfl
@[simp] theorem State.modMc_peers (b : Bridge) (f : Mc → Mc) : (s.modMc b f).peers = s.peers := rfl
@[simp] theorem State.modMc_ebp (b : Bridge) (f : Mc → Mc) : (s.modMc b f).ebp = s.ebp := rfl
@[simp] theorem State.modMc_lines (b : Bridge) (f : Mc → Mc) : (s.modMc b f).lines = s.lines := rfl
@[simp] theorem State.modMc_safe (b : Bridge) (f : Mc → Mc) : (s.modMc b f).safe = s.safe := rfl
@[simp] theorem State.modMc_twin (b : Bridge) (f : Mc → Mc) : (s.modMc b f).twin = s.twin := rfl
@[simp] theorem State.modMc_can (b : Bridge) (f : Mc → Mc) : (s.modMc b f).can = s.can := rfl
@[simp] theorem State.modMc_usl (b : Bridge) (f : Mc → Mc) : (s.modMc b f).usl = s.usl := rfl
@[simp] theorem State.modMc_time (b : Bridge) (f : Mc → Mc) : (s.modMc b f).time = s.time := rfl
@[simp] theorem State.modMc_host (b : Bridge) (f : Mc → Mc) : (s.modMc b f).host = s.host := rfl
@[simp] theorem State.modMc_keep (b : Bridge) (f : Mc → Mc) : (s.modMc b f).keep = s.keep := rfl
@[simp] theorem State.modMc_jtag (b : Bridge) (f : Mc → Mc) : (s.modMc b f).jtag = s.jtag := rfl
@[simp] theorem State.modMc_pwr (b : Bridge) (f : Mc → Mc) : (s.modMc b f).pwr = s.pwr := rfl
@[simp] theorem State.modMc_mport (b : Bridge) (f : Mc → Mc) : (s.modMc b f).mport = s.mport := rfl
@[simp] theorem State.modMc_bkg (b : Bridge) (f : Mc → Mc) : (s.modMc b f).bkg = s.bkg := rfl
@[simp] theorem State.modMc_rd (b : Bridge) (f : Mc → Mc) (x : Nat) : (s.modMc b f).rd x = s.rd x := rfl
@[simp] theorem State.modMc_get (b : Bridge) (f : Mc → Mc) (g : Fld) : (s.modMc b f).get g = s.get g := rfl
@[simp] theorem State.modMc_on (b : Bridge) (f : Mc → Mc) (g : Fld) : (s.modMc b f).on g = s.on g := rfl
@[simp] theorem State.modMc_bit (b : Bridge) (f : Mc → Mc) (g : Fld) (i : Nat) : (s.modMc b f).bit g i = s.bit g i := rfl
@[simp] theorem State.modMc_byte (b : Bridge) (f : Mc → Mc) (x : Nat) : (s.modMc b f).byte x = s.byte x := rfl

/-! modGate -/
@[simp] theorem State.modGate_regs (b : Bridge) (f : GateBridge → GateBridge) : (s.modGate b f).regs = s.regs := rfl
@[simp] theorem State.modGate_mem (b : Bridge) (f : GateBridge → GateBridge) : (s.modGate b f).mem = s.mem := rfl
@[simp] theorem State.modGate_pending (b : Bridge) (f : GateBridge → GateBridge) : (s.modGate b f).pending = s.pending := rfl
@[simp] theorem State.modGate_fresh (b : Bridge) (f : GateBridge → GateBridge) : (s.modGate b f).fresh = s.fresh := rfl
@[simp] theorem State.modGate_tick (b : Bridge) (f : GateBridge → GateBridge) : (s.modGate b f).tick = s.tick := rfl
@[simp] theorem State.modGate_bus (b : Bridge) (f : GateBridge → GateBridge) : (s.modGate b f).bus = s.bus := rfl
@[simp] theorem State.modGate_irqs (b : Bridge) (f : GateBridge → GateBridge) : (s.modGate b f).irqs = s.irqs := rfl
@[simp] theorem State.modGate_sealApplied (b : Bridge) (f : GateBridge → GateBridge) : (s.modGate b f).sealApplied = s.sealApplied := rfl
@[simp] theorem State.modGate_sys (b : Bridge) (f : GateBridge → GateBridge) : (s.modGate b f).sys = s.sys := rfl
@[simp] theorem State.modGate_cores (b : Bridge) (f : GateBridge → GateBridge) : (s.modGate b f).cores = s.cores := rfl
@[simp] theorem State.modGate_ang (b : Bridge) (f : GateBridge → GateBridge) : (s.modGate b f).ang = s.ang := rfl
@[simp] theorem State.modGate_pos (b : Bridge) (f : GateBridge → GateBridge) : (s.modGate b f).pos = s.pos := rfl
@[simp] theorem State.modGate_sent (b : Bridge) (f : GateBridge → GateBridge) : (s.modGate b f).sent = s.sent := rfl
@[simp] theorem State.modGate_emu (b : Bridge) (f : GateBridge → GateBridge) : (s.modGate b f).emu = s.emu := rfl
@[simp] theorem State.modGate_borrow (b : Bridge) (f : GateBridge → GateBridge) : (s.modGate b f).borrow = s.borrow := rfl
@[simp] theorem State.modGate_isnsB (b : Bridge) (f : GateBridge → GateBridge) : (s.modGate b f).isnsB = s.isnsB := rfl
@[simp] theorem State.modGate_isnsC (b : Bridge) (f : GateBridge → GateBridge) : (s.modGate b f).isnsC = s.isnsC := rfl
@[simp] theorem State.modGate_eng (b : Bridge) (f : GateBridge → GateBridge) : (s.modGate b f).eng = s.eng := rfl
@[simp] theorem State.modGate_mc (b : Bridge) (f : GateBridge → GateBridge) : (s.modGate b f).mc = s.mc := rfl
@[simp] theorem State.modGate_gate (b : Bridge) (f : GateBridge → GateBridge) : (s.modGate b f).gate = upd s.gate b f := rfl
@[simp] theorem State.modGate_driver (b : Bridge) (f : GateBridge → GateBridge) : (s.modGate b f).driver = s.driver := rfl
@[simp] theorem State.modGate_cont (b : Bridge) (f : GateBridge → GateBridge) : (s.modGate b f).cont = s.cont := rfl
@[simp] theorem State.modGate_peers (b : Bridge) (f : GateBridge → GateBridge) : (s.modGate b f).peers = s.peers := rfl
@[simp] theorem State.modGate_ebp (b : Bridge) (f : GateBridge → GateBridge) : (s.modGate b f).ebp = s.ebp := rfl
@[simp] theorem State.modGate_lines (b : Bridge) (f : GateBridge → GateBridge) : (s.modGate b f).lines = s.lines := rfl
@[simp] theorem State.modGate_safe (b : Bridge) (f : GateBridge → GateBridge) : (s.modGate b f).safe = s.safe := rfl
@[simp] theorem State.modGate_twin (b : Bridge) (f : GateBridge → GateBridge) : (s.modGate b f).twin = s.twin := rfl
@[simp] theorem State.modGate_can (b : Bridge) (f : GateBridge → GateBridge) : (s.modGate b f).can = s.can := rfl
@[simp] theorem State.modGate_usl (b : Bridge) (f : GateBridge → GateBridge) : (s.modGate b f).usl = s.usl := rfl
@[simp] theorem State.modGate_time (b : Bridge) (f : GateBridge → GateBridge) : (s.modGate b f).time = s.time := rfl
@[simp] theorem State.modGate_host (b : Bridge) (f : GateBridge → GateBridge) : (s.modGate b f).host = s.host := rfl
@[simp] theorem State.modGate_keep (b : Bridge) (f : GateBridge → GateBridge) : (s.modGate b f).keep = s.keep := rfl
@[simp] theorem State.modGate_jtag (b : Bridge) (f : GateBridge → GateBridge) : (s.modGate b f).jtag = s.jtag := rfl
@[simp] theorem State.modGate_pwr (b : Bridge) (f : GateBridge → GateBridge) : (s.modGate b f).pwr = s.pwr := rfl
@[simp] theorem State.modGate_mport (b : Bridge) (f : GateBridge → GateBridge) : (s.modGate b f).mport = s.mport := rfl
@[simp] theorem State.modGate_bkg (b : Bridge) (f : GateBridge → GateBridge) : (s.modGate b f).bkg = s.bkg := rfl
@[simp] theorem State.modGate_rd (b : Bridge) (f : GateBridge → GateBridge) (x : Nat) : (s.modGate b f).rd x = s.rd x := rfl
@[simp] theorem State.modGate_get (b : Bridge) (f : GateBridge → GateBridge) (g : Fld) : (s.modGate b f).get g = s.get g := rfl
@[simp] theorem State.modGate_on (b : Bridge) (f : GateBridge → GateBridge) (g : Fld) : (s.modGate b f).on g = s.on g := rfl
@[simp] theorem State.modGate_bit (b : Bridge) (f : GateBridge → GateBridge) (g : Fld) (i : Nat) : (s.modGate b f).bit g i = s.bit g i := rfl
@[simp] theorem State.modGate_byte (b : Bridge) (f : GateBridge → GateBridge) (x : Nat) : (s.modGate b f).byte x = s.byte x := rfl

/-! modDriver -/
@[simp] theorem State.modDriver_regs (f : Driver → Driver) : (s.modDriver f).regs = s.regs := rfl
@[simp] theorem State.modDriver_mem (f : Driver → Driver) : (s.modDriver f).mem = s.mem := rfl
@[simp] theorem State.modDriver_pending (f : Driver → Driver) : (s.modDriver f).pending = s.pending := rfl
@[simp] theorem State.modDriver_fresh (f : Driver → Driver) : (s.modDriver f).fresh = s.fresh := rfl
@[simp] theorem State.modDriver_tick (f : Driver → Driver) : (s.modDriver f).tick = s.tick := rfl
@[simp] theorem State.modDriver_bus (f : Driver → Driver) : (s.modDriver f).bus = s.bus := rfl
@[simp] theorem State.modDriver_irqs (f : Driver → Driver) : (s.modDriver f).irqs = s.irqs := rfl
@[simp] theorem State.modDriver_sealApplied (f : Driver → Driver) : (s.modDriver f).sealApplied = s.sealApplied := rfl
@[simp] theorem State.modDriver_sys (f : Driver → Driver) : (s.modDriver f).sys = s.sys := rfl
@[simp] theorem State.modDriver_cores (f : Driver → Driver) : (s.modDriver f).cores = s.cores := rfl
@[simp] theorem State.modDriver_ang (f : Driver → Driver) : (s.modDriver f).ang = s.ang := rfl
@[simp] theorem State.modDriver_pos (f : Driver → Driver) : (s.modDriver f).pos = s.pos := rfl
@[simp] theorem State.modDriver_sent (f : Driver → Driver) : (s.modDriver f).sent = s.sent := rfl
@[simp] theorem State.modDriver_emu (f : Driver → Driver) : (s.modDriver f).emu = s.emu := rfl
@[simp] theorem State.modDriver_borrow (f : Driver → Driver) : (s.modDriver f).borrow = s.borrow := rfl
@[simp] theorem State.modDriver_isnsB (f : Driver → Driver) : (s.modDriver f).isnsB = s.isnsB := rfl
@[simp] theorem State.modDriver_isnsC (f : Driver → Driver) : (s.modDriver f).isnsC = s.isnsC := rfl
@[simp] theorem State.modDriver_eng (f : Driver → Driver) : (s.modDriver f).eng = s.eng := rfl
@[simp] theorem State.modDriver_mc (f : Driver → Driver) : (s.modDriver f).mc = s.mc := rfl
@[simp] theorem State.modDriver_gate (f : Driver → Driver) : (s.modDriver f).gate = s.gate := rfl
@[simp] theorem State.modDriver_driver (f : Driver → Driver) : (s.modDriver f).driver = f s.driver := rfl
@[simp] theorem State.modDriver_cont (f : Driver → Driver) : (s.modDriver f).cont = s.cont := rfl
@[simp] theorem State.modDriver_peers (f : Driver → Driver) : (s.modDriver f).peers = s.peers := rfl
@[simp] theorem State.modDriver_ebp (f : Driver → Driver) : (s.modDriver f).ebp = s.ebp := rfl
@[simp] theorem State.modDriver_lines (f : Driver → Driver) : (s.modDriver f).lines = s.lines := rfl
@[simp] theorem State.modDriver_safe (f : Driver → Driver) : (s.modDriver f).safe = s.safe := rfl
@[simp] theorem State.modDriver_twin (f : Driver → Driver) : (s.modDriver f).twin = s.twin := rfl
@[simp] theorem State.modDriver_can (f : Driver → Driver) : (s.modDriver f).can = s.can := rfl
@[simp] theorem State.modDriver_usl (f : Driver → Driver) : (s.modDriver f).usl = s.usl := rfl
@[simp] theorem State.modDriver_time (f : Driver → Driver) : (s.modDriver f).time = s.time := rfl
@[simp] theorem State.modDriver_host (f : Driver → Driver) : (s.modDriver f).host = s.host := rfl
@[simp] theorem State.modDriver_keep (f : Driver → Driver) : (s.modDriver f).keep = s.keep := rfl
@[simp] theorem State.modDriver_jtag (f : Driver → Driver) : (s.modDriver f).jtag = s.jtag := rfl
@[simp] theorem State.modDriver_pwr (f : Driver → Driver) : (s.modDriver f).pwr = s.pwr := rfl
@[simp] theorem State.modDriver_mport (f : Driver → Driver) : (s.modDriver f).mport = s.mport := rfl
@[simp] theorem State.modDriver_bkg (f : Driver → Driver) : (s.modDriver f).bkg = s.bkg := rfl
@[simp] theorem State.modDriver_rd (f : Driver → Driver) (x : Nat) : (s.modDriver f).rd x = s.rd x := rfl
@[simp] theorem State.modDriver_get (f : Driver → Driver) (g : Fld) : (s.modDriver f).get g = s.get g := rfl
@[simp] theorem State.modDriver_on (f : Driver → Driver) (g : Fld) : (s.modDriver f).on g = s.on g := rfl
@[simp] theorem State.modDriver_bit (f : Driver → Driver) (g : Fld) (i : Nat) : (s.modDriver f).bit g i = s.bit g i := rfl
@[simp] theorem State.modDriver_byte (f : Driver → Driver) (x : Nat) : (s.modDriver f).byte x = s.byte x := rfl

/-! modCont -/
@[simp] theorem State.modCont_regs (f : Cont → Cont) : (s.modCont f).regs = s.regs := rfl
@[simp] theorem State.modCont_mem (f : Cont → Cont) : (s.modCont f).mem = s.mem := rfl
@[simp] theorem State.modCont_pending (f : Cont → Cont) : (s.modCont f).pending = s.pending := rfl
@[simp] theorem State.modCont_fresh (f : Cont → Cont) : (s.modCont f).fresh = s.fresh := rfl
@[simp] theorem State.modCont_tick (f : Cont → Cont) : (s.modCont f).tick = s.tick := rfl
@[simp] theorem State.modCont_bus (f : Cont → Cont) : (s.modCont f).bus = s.bus := rfl
@[simp] theorem State.modCont_irqs (f : Cont → Cont) : (s.modCont f).irqs = s.irqs := rfl
@[simp] theorem State.modCont_sealApplied (f : Cont → Cont) : (s.modCont f).sealApplied = s.sealApplied := rfl
@[simp] theorem State.modCont_sys (f : Cont → Cont) : (s.modCont f).sys = s.sys := rfl
@[simp] theorem State.modCont_cores (f : Cont → Cont) : (s.modCont f).cores = s.cores := rfl
@[simp] theorem State.modCont_ang (f : Cont → Cont) : (s.modCont f).ang = s.ang := rfl
@[simp] theorem State.modCont_pos (f : Cont → Cont) : (s.modCont f).pos = s.pos := rfl
@[simp] theorem State.modCont_sent (f : Cont → Cont) : (s.modCont f).sent = s.sent := rfl
@[simp] theorem State.modCont_emu (f : Cont → Cont) : (s.modCont f).emu = s.emu := rfl
@[simp] theorem State.modCont_borrow (f : Cont → Cont) : (s.modCont f).borrow = s.borrow := rfl
@[simp] theorem State.modCont_isnsB (f : Cont → Cont) : (s.modCont f).isnsB = s.isnsB := rfl
@[simp] theorem State.modCont_isnsC (f : Cont → Cont) : (s.modCont f).isnsC = s.isnsC := rfl
@[simp] theorem State.modCont_eng (f : Cont → Cont) : (s.modCont f).eng = s.eng := rfl
@[simp] theorem State.modCont_mc (f : Cont → Cont) : (s.modCont f).mc = s.mc := rfl
@[simp] theorem State.modCont_gate (f : Cont → Cont) : (s.modCont f).gate = s.gate := rfl
@[simp] theorem State.modCont_driver (f : Cont → Cont) : (s.modCont f).driver = s.driver := rfl
@[simp] theorem State.modCont_cont (f : Cont → Cont) : (s.modCont f).cont = f s.cont := rfl
@[simp] theorem State.modCont_peers (f : Cont → Cont) : (s.modCont f).peers = s.peers := rfl
@[simp] theorem State.modCont_ebp (f : Cont → Cont) : (s.modCont f).ebp = s.ebp := rfl
@[simp] theorem State.modCont_lines (f : Cont → Cont) : (s.modCont f).lines = s.lines := rfl
@[simp] theorem State.modCont_safe (f : Cont → Cont) : (s.modCont f).safe = s.safe := rfl
@[simp] theorem State.modCont_twin (f : Cont → Cont) : (s.modCont f).twin = s.twin := rfl
@[simp] theorem State.modCont_can (f : Cont → Cont) : (s.modCont f).can = s.can := rfl
@[simp] theorem State.modCont_usl (f : Cont → Cont) : (s.modCont f).usl = s.usl := rfl
@[simp] theorem State.modCont_time (f : Cont → Cont) : (s.modCont f).time = s.time := rfl
@[simp] theorem State.modCont_host (f : Cont → Cont) : (s.modCont f).host = s.host := rfl
@[simp] theorem State.modCont_keep (f : Cont → Cont) : (s.modCont f).keep = s.keep := rfl
@[simp] theorem State.modCont_jtag (f : Cont → Cont) : (s.modCont f).jtag = s.jtag := rfl
@[simp] theorem State.modCont_pwr (f : Cont → Cont) : (s.modCont f).pwr = s.pwr := rfl
@[simp] theorem State.modCont_mport (f : Cont → Cont) : (s.modCont f).mport = s.mport := rfl
@[simp] theorem State.modCont_bkg (f : Cont → Cont) : (s.modCont f).bkg = s.bkg := rfl
@[simp] theorem State.modCont_rd (f : Cont → Cont) (x : Nat) : (s.modCont f).rd x = s.rd x := rfl
@[simp] theorem State.modCont_get (f : Cont → Cont) (g : Fld) : (s.modCont f).get g = s.get g := rfl
@[simp] theorem State.modCont_on (f : Cont → Cont) (g : Fld) : (s.modCont f).on g = s.on g := rfl
@[simp] theorem State.modCont_bit (f : Cont → Cont) (g : Fld) (i : Nat) : (s.modCont f).bit g i = s.bit g i := rfl
@[simp] theorem State.modCont_byte (f : Cont → Cont) (x : Nat) : (s.modCont f).byte x = s.byte x := rfl

/-! modPeer -/
@[simp] theorem State.modPeer_regs (l : Lane) (f : Peer → Peer) : (s.modPeer l f).regs = s.regs := rfl
@[simp] theorem State.modPeer_mem (l : Lane) (f : Peer → Peer) : (s.modPeer l f).mem = s.mem := rfl
@[simp] theorem State.modPeer_pending (l : Lane) (f : Peer → Peer) : (s.modPeer l f).pending = s.pending := rfl
@[simp] theorem State.modPeer_fresh (l : Lane) (f : Peer → Peer) : (s.modPeer l f).fresh = s.fresh := rfl
@[simp] theorem State.modPeer_tick (l : Lane) (f : Peer → Peer) : (s.modPeer l f).tick = s.tick := rfl
@[simp] theorem State.modPeer_bus (l : Lane) (f : Peer → Peer) : (s.modPeer l f).bus = s.bus := rfl
@[simp] theorem State.modPeer_irqs (l : Lane) (f : Peer → Peer) : (s.modPeer l f).irqs = s.irqs := rfl
@[simp] theorem State.modPeer_sealApplied (l : Lane) (f : Peer → Peer) : (s.modPeer l f).sealApplied = s.sealApplied := rfl
@[simp] theorem State.modPeer_sys (l : Lane) (f : Peer → Peer) : (s.modPeer l f).sys = s.sys := rfl
@[simp] theorem State.modPeer_cores (l : Lane) (f : Peer → Peer) : (s.modPeer l f).cores = s.cores := rfl
@[simp] theorem State.modPeer_ang (l : Lane) (f : Peer → Peer) : (s.modPeer l f).ang = s.ang := rfl
@[simp] theorem State.modPeer_pos (l : Lane) (f : Peer → Peer) : (s.modPeer l f).pos = s.pos := rfl
@[simp] theorem State.modPeer_sent (l : Lane) (f : Peer → Peer) : (s.modPeer l f).sent = s.sent := rfl
@[simp] theorem State.modPeer_emu (l : Lane) (f : Peer → Peer) : (s.modPeer l f).emu = s.emu := rfl
@[simp] theorem State.modPeer_borrow (l : Lane) (f : Peer → Peer) : (s.modPeer l f).borrow = s.borrow := rfl
@[simp] theorem State.modPeer_isnsB (l : Lane) (f : Peer → Peer) : (s.modPeer l f).isnsB = s.isnsB := rfl
@[simp] theorem State.modPeer_isnsC (l : Lane) (f : Peer → Peer) : (s.modPeer l f).isnsC = s.isnsC := rfl
@[simp] theorem State.modPeer_eng (l : Lane) (f : Peer → Peer) : (s.modPeer l f).eng = s.eng := rfl
@[simp] theorem State.modPeer_mc (l : Lane) (f : Peer → Peer) : (s.modPeer l f).mc = s.mc := rfl
@[simp] theorem State.modPeer_gate (l : Lane) (f : Peer → Peer) : (s.modPeer l f).gate = s.gate := rfl
@[simp] theorem State.modPeer_driver (l : Lane) (f : Peer → Peer) : (s.modPeer l f).driver = s.driver := rfl
@[simp] theorem State.modPeer_cont (l : Lane) (f : Peer → Peer) : (s.modPeer l f).cont = s.cont := rfl
@[simp] theorem State.modPeer_peers (l : Lane) (f : Peer → Peer) : (s.modPeer l f).peers = upd s.peers l f := rfl
@[simp] theorem State.modPeer_ebp (l : Lane) (f : Peer → Peer) : (s.modPeer l f).ebp = s.ebp := rfl
@[simp] theorem State.modPeer_lines (l : Lane) (f : Peer → Peer) : (s.modPeer l f).lines = s.lines := rfl
@[simp] theorem State.modPeer_safe (l : Lane) (f : Peer → Peer) : (s.modPeer l f).safe = s.safe := rfl
@[simp] theorem State.modPeer_twin (l : Lane) (f : Peer → Peer) : (s.modPeer l f).twin = s.twin := rfl
@[simp] theorem State.modPeer_can (l : Lane) (f : Peer → Peer) : (s.modPeer l f).can = s.can := rfl
@[simp] theorem State.modPeer_usl (l : Lane) (f : Peer → Peer) : (s.modPeer l f).usl = s.usl := rfl
@[simp] theorem State.modPeer_time (l : Lane) (f : Peer → Peer) : (s.modPeer l f).time = s.time := rfl
@[simp] theorem State.modPeer_host (l : Lane) (f : Peer → Peer) : (s.modPeer l f).host = s.host := rfl
@[simp] theorem State.modPeer_keep (l : Lane) (f : Peer → Peer) : (s.modPeer l f).keep = s.keep := rfl
@[simp] theorem State.modPeer_jtag (l : Lane) (f : Peer → Peer) : (s.modPeer l f).jtag = s.jtag := rfl
@[simp] theorem State.modPeer_pwr (l : Lane) (f : Peer → Peer) : (s.modPeer l f).pwr = s.pwr := rfl
@[simp] theorem State.modPeer_mport (l : Lane) (f : Peer → Peer) : (s.modPeer l f).mport = s.mport := rfl
@[simp] theorem State.modPeer_bkg (l : Lane) (f : Peer → Peer) : (s.modPeer l f).bkg = s.bkg := rfl
@[simp] theorem State.modPeer_rd (l : Lane) (f : Peer → Peer) (x : Nat) : (s.modPeer l f).rd x = s.rd x := rfl
@[simp] theorem State.modPeer_get (l : Lane) (f : Peer → Peer) (g : Fld) : (s.modPeer l f).get g = s.get g := rfl
@[simp] theorem State.modPeer_on (l : Lane) (f : Peer → Peer) (g : Fld) : (s.modPeer l f).on g = s.on g := rfl
@[simp] theorem State.modPeer_bit (l : Lane) (f : Peer → Peer) (g : Fld) (i : Nat) : (s.modPeer l f).bit g i = s.bit g i := rfl
@[simp] theorem State.modPeer_byte (l : Lane) (f : Peer → Peer) (x : Nat) : (s.modPeer l f).byte x = s.byte x := rfl

/-! modEbp -/
@[simp] theorem State.modEbp_regs (e : Port) (f : Ebp → Ebp) : (s.modEbp e f).regs = s.regs := rfl
@[simp] theorem State.modEbp_mem (e : Port) (f : Ebp → Ebp) : (s.modEbp e f).mem = s.mem := rfl
@[simp] theorem State.modEbp_pending (e : Port) (f : Ebp → Ebp) : (s.modEbp e f).pending = s.pending := rfl
@[simp] theorem State.modEbp_fresh (e : Port) (f : Ebp → Ebp) : (s.modEbp e f).fresh = s.fresh := rfl
@[simp] theorem State.modEbp_tick (e : Port) (f : Ebp → Ebp) : (s.modEbp e f).tick = s.tick := rfl
@[simp] theorem State.modEbp_bus (e : Port) (f : Ebp → Ebp) : (s.modEbp e f).bus = s.bus := rfl
@[simp] theorem State.modEbp_irqs (e : Port) (f : Ebp → Ebp) : (s.modEbp e f).irqs = s.irqs := rfl
@[simp] theorem State.modEbp_sealApplied (e : Port) (f : Ebp → Ebp) : (s.modEbp e f).sealApplied = s.sealApplied := rfl
@[simp] theorem State.modEbp_sys (e : Port) (f : Ebp → Ebp) : (s.modEbp e f).sys = s.sys := rfl
@[simp] theorem State.modEbp_cores (e : Port) (f : Ebp → Ebp) : (s.modEbp e f).cores = s.cores := rfl
@[simp] theorem State.modEbp_ang (e : Port) (f : Ebp → Ebp) : (s.modEbp e f).ang = s.ang := rfl
@[simp] theorem State.modEbp_pos (e : Port) (f : Ebp → Ebp) : (s.modEbp e f).pos = s.pos := rfl
@[simp] theorem State.modEbp_sent (e : Port) (f : Ebp → Ebp) : (s.modEbp e f).sent = s.sent := rfl
@[simp] theorem State.modEbp_emu (e : Port) (f : Ebp → Ebp) : (s.modEbp e f).emu = s.emu := rfl
@[simp] theorem State.modEbp_borrow (e : Port) (f : Ebp → Ebp) : (s.modEbp e f).borrow = s.borrow := rfl
@[simp] theorem State.modEbp_isnsB (e : Port) (f : Ebp → Ebp) : (s.modEbp e f).isnsB = s.isnsB := rfl
@[simp] theorem State.modEbp_isnsC (e : Port) (f : Ebp → Ebp) : (s.modEbp e f).isnsC = s.isnsC := rfl
@[simp] theorem State.modEbp_eng (e : Port) (f : Ebp → Ebp) : (s.modEbp e f).eng = s.eng := rfl
@[simp] theorem State.modEbp_mc (e : Port) (f : Ebp → Ebp) : (s.modEbp e f).mc = s.mc := rfl
@[simp] theorem State.modEbp_gate (e : Port) (f : Ebp → Ebp) : (s.modEbp e f).gate = s.gate := rfl
@[simp] theorem State.modEbp_driver (e : Port) (f : Ebp → Ebp) : (s.modEbp e f).driver = s.driver := rfl
@[simp] theorem State.modEbp_cont (e : Port) (f : Ebp → Ebp) : (s.modEbp e f).cont = s.cont := rfl
@[simp] theorem State.modEbp_peers (e : Port) (f : Ebp → Ebp) : (s.modEbp e f).peers = s.peers := rfl
@[simp] theorem State.modEbp_ebp (e : Port) (f : Ebp → Ebp) : (s.modEbp e f).ebp = upd s.ebp e f := rfl
@[simp] theorem State.modEbp_lines (e : Port) (f : Ebp → Ebp) : (s.modEbp e f).lines = s.lines := rfl
@[simp] theorem State.modEbp_safe (e : Port) (f : Ebp → Ebp) : (s.modEbp e f).safe = s.safe := rfl
@[simp] theorem State.modEbp_twin (e : Port) (f : Ebp → Ebp) : (s.modEbp e f).twin = s.twin := rfl
@[simp] theorem State.modEbp_can (e : Port) (f : Ebp → Ebp) : (s.modEbp e f).can = s.can := rfl
@[simp] theorem State.modEbp_usl (e : Port) (f : Ebp → Ebp) : (s.modEbp e f).usl = s.usl := rfl
@[simp] theorem State.modEbp_time (e : Port) (f : Ebp → Ebp) : (s.modEbp e f).time = s.time := rfl
@[simp] theorem State.modEbp_host (e : Port) (f : Ebp → Ebp) : (s.modEbp e f).host = s.host := rfl
@[simp] theorem State.modEbp_keep (e : Port) (f : Ebp → Ebp) : (s.modEbp e f).keep = s.keep := rfl
@[simp] theorem State.modEbp_jtag (e : Port) (f : Ebp → Ebp) : (s.modEbp e f).jtag = s.jtag := rfl
@[simp] theorem State.modEbp_pwr (e : Port) (f : Ebp → Ebp) : (s.modEbp e f).pwr = s.pwr := rfl
@[simp] theorem State.modEbp_mport (e : Port) (f : Ebp → Ebp) : (s.modEbp e f).mport = s.mport := rfl
@[simp] theorem State.modEbp_bkg (e : Port) (f : Ebp → Ebp) : (s.modEbp e f).bkg = s.bkg := rfl
@[simp] theorem State.modEbp_rd (e : Port) (f : Ebp → Ebp) (x : Nat) : (s.modEbp e f).rd x = s.rd x := rfl
@[simp] theorem State.modEbp_get (e : Port) (f : Ebp → Ebp) (g : Fld) : (s.modEbp e f).get g = s.get g := rfl
@[simp] theorem State.modEbp_on (e : Port) (f : Ebp → Ebp) (g : Fld) : (s.modEbp e f).on g = s.on g := rfl
@[simp] theorem State.modEbp_bit (e : Port) (f : Ebp → Ebp) (g : Fld) (i : Nat) : (s.modEbp e f).bit g i = s.bit g i := rfl
@[simp] theorem State.modEbp_byte (e : Port) (f : Ebp → Ebp) (x : Nat) : (s.modEbp e f).byte x = s.byte x := rfl

/-! modLines -/
@[simp] theorem State.modLines_regs (f : Lines → Lines) : (s.modLines f).regs = s.regs := rfl
@[simp] theorem State.modLines_mem (f : Lines → Lines) : (s.modLines f).mem = s.mem := rfl
@[simp] theorem State.modLines_pending (f : Lines → Lines) : (s.modLines f).pending = s.pending := rfl
@[simp] theorem State.modLines_fresh (f : Lines → Lines) : (s.modLines f).fresh = s.fresh := rfl
@[simp] theorem State.modLines_tick (f : Lines → Lines) : (s.modLines f).tick = s.tick := rfl
@[simp] theorem State.modLines_bus (f : Lines → Lines) : (s.modLines f).bus = s.bus := rfl
@[simp] theorem State.modLines_irqs (f : Lines → Lines) : (s.modLines f).irqs = s.irqs := rfl
@[simp] theorem State.modLines_sealApplied (f : Lines → Lines) : (s.modLines f).sealApplied = s.sealApplied := rfl
@[simp] theorem State.modLines_sys (f : Lines → Lines) : (s.modLines f).sys = s.sys := rfl
@[simp] theorem State.modLines_cores (f : Lines → Lines) : (s.modLines f).cores = s.cores := rfl
@[simp] theorem State.modLines_ang (f : Lines → Lines) : (s.modLines f).ang = s.ang := rfl
@[simp] theorem State.modLines_pos (f : Lines → Lines) : (s.modLines f).pos = s.pos := rfl
@[simp] theorem State.modLines_sent (f : Lines → Lines) : (s.modLines f).sent = s.sent := rfl
@[simp] theorem State.modLines_emu (f : Lines → Lines) : (s.modLines f).emu = s.emu := rfl
@[simp] theorem State.modLines_borrow (f : Lines → Lines) : (s.modLines f).borrow = s.borrow := rfl
@[simp] theorem State.modLines_isnsB (f : Lines → Lines) : (s.modLines f).isnsB = s.isnsB := rfl
@[simp] theorem State.modLines_isnsC (f : Lines → Lines) : (s.modLines f).isnsC = s.isnsC := rfl
@[simp] theorem State.modLines_eng (f : Lines → Lines) : (s.modLines f).eng = s.eng := rfl
@[simp] theorem State.modLines_mc (f : Lines → Lines) : (s.modLines f).mc = s.mc := rfl
@[simp] theorem State.modLines_gate (f : Lines → Lines) : (s.modLines f).gate = s.gate := rfl
@[simp] theorem State.modLines_driver (f : Lines → Lines) : (s.modLines f).driver = s.driver := rfl
@[simp] theorem State.modLines_cont (f : Lines → Lines) : (s.modLines f).cont = s.cont := rfl
@[simp] theorem State.modLines_peers (f : Lines → Lines) : (s.modLines f).peers = s.peers := rfl
@[simp] theorem State.modLines_ebp (f : Lines → Lines) : (s.modLines f).ebp = s.ebp := rfl
@[simp] theorem State.modLines_lines (f : Lines → Lines) : (s.modLines f).lines = f s.lines := rfl
@[simp] theorem State.modLines_safe (f : Lines → Lines) : (s.modLines f).safe = s.safe := rfl
@[simp] theorem State.modLines_twin (f : Lines → Lines) : (s.modLines f).twin = s.twin := rfl
@[simp] theorem State.modLines_can (f : Lines → Lines) : (s.modLines f).can = s.can := rfl
@[simp] theorem State.modLines_usl (f : Lines → Lines) : (s.modLines f).usl = s.usl := rfl
@[simp] theorem State.modLines_time (f : Lines → Lines) : (s.modLines f).time = s.time := rfl
@[simp] theorem State.modLines_host (f : Lines → Lines) : (s.modLines f).host = s.host := rfl
@[simp] theorem State.modLines_keep (f : Lines → Lines) : (s.modLines f).keep = s.keep := rfl
@[simp] theorem State.modLines_jtag (f : Lines → Lines) : (s.modLines f).jtag = s.jtag := rfl
@[simp] theorem State.modLines_pwr (f : Lines → Lines) : (s.modLines f).pwr = s.pwr := rfl
@[simp] theorem State.modLines_mport (f : Lines → Lines) : (s.modLines f).mport = s.mport := rfl
@[simp] theorem State.modLines_bkg (f : Lines → Lines) : (s.modLines f).bkg = s.bkg := rfl
@[simp] theorem State.modLines_rd (f : Lines → Lines) (x : Nat) : (s.modLines f).rd x = s.rd x := rfl
@[simp] theorem State.modLines_get (f : Lines → Lines) (g : Fld) : (s.modLines f).get g = s.get g := rfl
@[simp] theorem State.modLines_on (f : Lines → Lines) (g : Fld) : (s.modLines f).on g = s.on g := rfl
@[simp] theorem State.modLines_bit (f : Lines → Lines) (g : Fld) (i : Nat) : (s.modLines f).bit g i = s.bit g i := rfl
@[simp] theorem State.modLines_byte (f : Lines → Lines) (x : Nat) : (s.modLines f).byte x = s.byte x := rfl

/-! modSafe -/
@[simp] theorem State.modSafe_regs (f : Safe → Safe) : (s.modSafe f).regs = s.regs := rfl
@[simp] theorem State.modSafe_mem (f : Safe → Safe) : (s.modSafe f).mem = s.mem := rfl
@[simp] theorem State.modSafe_pending (f : Safe → Safe) : (s.modSafe f).pending = s.pending := rfl
@[simp] theorem State.modSafe_fresh (f : Safe → Safe) : (s.modSafe f).fresh = s.fresh := rfl
@[simp] theorem State.modSafe_tick (f : Safe → Safe) : (s.modSafe f).tick = s.tick := rfl
@[simp] theorem State.modSafe_bus (f : Safe → Safe) : (s.modSafe f).bus = s.bus := rfl
@[simp] theorem State.modSafe_irqs (f : Safe → Safe) : (s.modSafe f).irqs = s.irqs := rfl
@[simp] theorem State.modSafe_sealApplied (f : Safe → Safe) : (s.modSafe f).sealApplied = s.sealApplied := rfl
@[simp] theorem State.modSafe_sys (f : Safe → Safe) : (s.modSafe f).sys = s.sys := rfl
@[simp] theorem State.modSafe_cores (f : Safe → Safe) : (s.modSafe f).cores = s.cores := rfl
@[simp] theorem State.modSafe_ang (f : Safe → Safe) : (s.modSafe f).ang = s.ang := rfl
@[simp] theorem State.modSafe_pos (f : Safe → Safe) : (s.modSafe f).pos = s.pos := rfl
@[simp] theorem State.modSafe_sent (f : Safe → Safe) : (s.modSafe f).sent = s.sent := rfl
@[simp] theorem State.modSafe_emu (f : Safe → Safe) : (s.modSafe f).emu = s.emu := rfl
@[simp] theorem State.modSafe_borrow (f : Safe → Safe) : (s.modSafe f).borrow = s.borrow := rfl
@[simp] theorem State.modSafe_isnsB (f : Safe → Safe) : (s.modSafe f).isnsB = s.isnsB := rfl
@[simp] theorem State.modSafe_isnsC (f : Safe → Safe) : (s.modSafe f).isnsC = s.isnsC := rfl
@[simp] theorem State.modSafe_eng (f : Safe → Safe) : (s.modSafe f).eng = s.eng := rfl
@[simp] theorem State.modSafe_mc (f : Safe → Safe) : (s.modSafe f).mc = s.mc := rfl
@[simp] theorem State.modSafe_gate (f : Safe → Safe) : (s.modSafe f).gate = s.gate := rfl
@[simp] theorem State.modSafe_driver (f : Safe → Safe) : (s.modSafe f).driver = s.driver := rfl
@[simp] theorem State.modSafe_cont (f : Safe → Safe) : (s.modSafe f).cont = s.cont := rfl
@[simp] theorem State.modSafe_peers (f : Safe → Safe) : (s.modSafe f).peers = s.peers := rfl
@[simp] theorem State.modSafe_ebp (f : Safe → Safe) : (s.modSafe f).ebp = s.ebp := rfl
@[simp] theorem State.modSafe_lines (f : Safe → Safe) : (s.modSafe f).lines = s.lines := rfl
@[simp] theorem State.modSafe_safe (f : Safe → Safe) : (s.modSafe f).safe = f s.safe := rfl
@[simp] theorem State.modSafe_twin (f : Safe → Safe) : (s.modSafe f).twin = s.twin := rfl
@[simp] theorem State.modSafe_can (f : Safe → Safe) : (s.modSafe f).can = s.can := rfl
@[simp] theorem State.modSafe_usl (f : Safe → Safe) : (s.modSafe f).usl = s.usl := rfl
@[simp] theorem State.modSafe_time (f : Safe → Safe) : (s.modSafe f).time = s.time := rfl
@[simp] theorem State.modSafe_host (f : Safe → Safe) : (s.modSafe f).host = s.host := rfl
@[simp] theorem State.modSafe_keep (f : Safe → Safe) : (s.modSafe f).keep = s.keep := rfl
@[simp] theorem State.modSafe_jtag (f : Safe → Safe) : (s.modSafe f).jtag = s.jtag := rfl
@[simp] theorem State.modSafe_pwr (f : Safe → Safe) : (s.modSafe f).pwr = s.pwr := rfl
@[simp] theorem State.modSafe_mport (f : Safe → Safe) : (s.modSafe f).mport = s.mport := rfl
@[simp] theorem State.modSafe_bkg (f : Safe → Safe) : (s.modSafe f).bkg = s.bkg := rfl
@[simp] theorem State.modSafe_rd (f : Safe → Safe) (x : Nat) : (s.modSafe f).rd x = s.rd x := rfl
@[simp] theorem State.modSafe_get (f : Safe → Safe) (g : Fld) : (s.modSafe f).get g = s.get g := rfl
@[simp] theorem State.modSafe_on (f : Safe → Safe) (g : Fld) : (s.modSafe f).on g = s.on g := rfl
@[simp] theorem State.modSafe_bit (f : Safe → Safe) (g : Fld) (i : Nat) : (s.modSafe f).bit g i = s.bit g i := rfl
@[simp] theorem State.modSafe_byte (f : Safe → Safe) (x : Nat) : (s.modSafe f).byte x = s.byte x := rfl

/-! modTwin -/
@[simp] theorem State.modTwin_regs (k : TwinPair) (f : Twin → Twin) : (s.modTwin k f).regs = s.regs := rfl
@[simp] theorem State.modTwin_mem (k : TwinPair) (f : Twin → Twin) : (s.modTwin k f).mem = s.mem := rfl
@[simp] theorem State.modTwin_pending (k : TwinPair) (f : Twin → Twin) : (s.modTwin k f).pending = s.pending := rfl
@[simp] theorem State.modTwin_fresh (k : TwinPair) (f : Twin → Twin) : (s.modTwin k f).fresh = s.fresh := rfl
@[simp] theorem State.modTwin_tick (k : TwinPair) (f : Twin → Twin) : (s.modTwin k f).tick = s.tick := rfl
@[simp] theorem State.modTwin_bus (k : TwinPair) (f : Twin → Twin) : (s.modTwin k f).bus = s.bus := rfl
@[simp] theorem State.modTwin_irqs (k : TwinPair) (f : Twin → Twin) : (s.modTwin k f).irqs = s.irqs := rfl
@[simp] theorem State.modTwin_sealApplied (k : TwinPair) (f : Twin → Twin) : (s.modTwin k f).sealApplied = s.sealApplied := rfl
@[simp] theorem State.modTwin_sys (k : TwinPair) (f : Twin → Twin) : (s.modTwin k f).sys = s.sys := rfl
@[simp] theorem State.modTwin_cores (k : TwinPair) (f : Twin → Twin) : (s.modTwin k f).cores = s.cores := rfl
@[simp] theorem State.modTwin_ang (k : TwinPair) (f : Twin → Twin) : (s.modTwin k f).ang = s.ang := rfl
@[simp] theorem State.modTwin_pos (k : TwinPair) (f : Twin → Twin) : (s.modTwin k f).pos = s.pos := rfl
@[simp] theorem State.modTwin_sent (k : TwinPair) (f : Twin → Twin) : (s.modTwin k f).sent = s.sent := rfl
@[simp] theorem State.modTwin_emu (k : TwinPair) (f : Twin → Twin) : (s.modTwin k f).emu = s.emu := rfl
@[simp] theorem State.modTwin_borrow (k : TwinPair) (f : Twin → Twin) : (s.modTwin k f).borrow = s.borrow := rfl
@[simp] theorem State.modTwin_isnsB (k : TwinPair) (f : Twin → Twin) : (s.modTwin k f).isnsB = s.isnsB := rfl
@[simp] theorem State.modTwin_isnsC (k : TwinPair) (f : Twin → Twin) : (s.modTwin k f).isnsC = s.isnsC := rfl
@[simp] theorem State.modTwin_eng (k : TwinPair) (f : Twin → Twin) : (s.modTwin k f).eng = s.eng := rfl
@[simp] theorem State.modTwin_mc (k : TwinPair) (f : Twin → Twin) : (s.modTwin k f).mc = s.mc := rfl
@[simp] theorem State.modTwin_gate (k : TwinPair) (f : Twin → Twin) : (s.modTwin k f).gate = s.gate := rfl
@[simp] theorem State.modTwin_driver (k : TwinPair) (f : Twin → Twin) : (s.modTwin k f).driver = s.driver := rfl
@[simp] theorem State.modTwin_cont (k : TwinPair) (f : Twin → Twin) : (s.modTwin k f).cont = s.cont := rfl
@[simp] theorem State.modTwin_peers (k : TwinPair) (f : Twin → Twin) : (s.modTwin k f).peers = s.peers := rfl
@[simp] theorem State.modTwin_ebp (k : TwinPair) (f : Twin → Twin) : (s.modTwin k f).ebp = s.ebp := rfl
@[simp] theorem State.modTwin_lines (k : TwinPair) (f : Twin → Twin) : (s.modTwin k f).lines = s.lines := rfl
@[simp] theorem State.modTwin_safe (k : TwinPair) (f : Twin → Twin) : (s.modTwin k f).safe = s.safe := rfl
@[simp] theorem State.modTwin_twin (k : TwinPair) (f : Twin → Twin) : (s.modTwin k f).twin = upd s.twin k f := rfl
@[simp] theorem State.modTwin_can (k : TwinPair) (f : Twin → Twin) : (s.modTwin k f).can = s.can := rfl
@[simp] theorem State.modTwin_usl (k : TwinPair) (f : Twin → Twin) : (s.modTwin k f).usl = s.usl := rfl
@[simp] theorem State.modTwin_time (k : TwinPair) (f : Twin → Twin) : (s.modTwin k f).time = s.time := rfl
@[simp] theorem State.modTwin_host (k : TwinPair) (f : Twin → Twin) : (s.modTwin k f).host = s.host := rfl
@[simp] theorem State.modTwin_keep (k : TwinPair) (f : Twin → Twin) : (s.modTwin k f).keep = s.keep := rfl
@[simp] theorem State.modTwin_jtag (k : TwinPair) (f : Twin → Twin) : (s.modTwin k f).jtag = s.jtag := rfl
@[simp] theorem State.modTwin_pwr (k : TwinPair) (f : Twin → Twin) : (s.modTwin k f).pwr = s.pwr := rfl
@[simp] theorem State.modTwin_mport (k : TwinPair) (f : Twin → Twin) : (s.modTwin k f).mport = s.mport := rfl
@[simp] theorem State.modTwin_bkg (k : TwinPair) (f : Twin → Twin) : (s.modTwin k f).bkg = s.bkg := rfl
@[simp] theorem State.modTwin_rd (k : TwinPair) (f : Twin → Twin) (x : Nat) : (s.modTwin k f).rd x = s.rd x := rfl
@[simp] theorem State.modTwin_get (k : TwinPair) (f : Twin → Twin) (g : Fld) : (s.modTwin k f).get g = s.get g := rfl
@[simp] theorem State.modTwin_on (k : TwinPair) (f : Twin → Twin) (g : Fld) : (s.modTwin k f).on g = s.on g := rfl
@[simp] theorem State.modTwin_bit (k : TwinPair) (f : Twin → Twin) (g : Fld) (i : Nat) : (s.modTwin k f).bit g i = s.bit g i := rfl
@[simp] theorem State.modTwin_byte (k : TwinPair) (f : Twin → Twin) (x : Nat) : (s.modTwin k f).byte x = s.byte x := rfl

/-! modCan -/
@[simp] theorem State.modCan_regs (n : CanCtl) (f : Can → Can) : (s.modCan n f).regs = s.regs := rfl
@[simp] theorem State.modCan_mem (n : CanCtl) (f : Can → Can) : (s.modCan n f).mem = s.mem := rfl
@[simp] theorem State.modCan_pending (n : CanCtl) (f : Can → Can) : (s.modCan n f).pending = s.pending := rfl
@[simp] theorem State.modCan_fresh (n : CanCtl) (f : Can → Can) : (s.modCan n f).fresh = s.fresh := rfl
@[simp] theorem State.modCan_tick (n : CanCtl) (f : Can → Can) : (s.modCan n f).tick = s.tick := rfl
@[simp] theorem State.modCan_bus (n : CanCtl) (f : Can → Can) : (s.modCan n f).bus = s.bus := rfl
@[simp] theorem State.modCan_irqs (n : CanCtl) (f : Can → Can) : (s.modCan n f).irqs = s.irqs := rfl
@[simp] theorem State.modCan_sealApplied (n : CanCtl) (f : Can → Can) : (s.modCan n f).sealApplied = s.sealApplied := rfl
@[simp] theorem State.modCan_sys (n : CanCtl) (f : Can → Can) : (s.modCan n f).sys = s.sys := rfl
@[simp] theorem State.modCan_cores (n : CanCtl) (f : Can → Can) : (s.modCan n f).cores = s.cores := rfl
@[simp] theorem State.modCan_ang (n : CanCtl) (f : Can → Can) : (s.modCan n f).ang = s.ang := rfl
@[simp] theorem State.modCan_pos (n : CanCtl) (f : Can → Can) : (s.modCan n f).pos = s.pos := rfl
@[simp] theorem State.modCan_sent (n : CanCtl) (f : Can → Can) : (s.modCan n f).sent = s.sent := rfl
@[simp] theorem State.modCan_emu (n : CanCtl) (f : Can → Can) : (s.modCan n f).emu = s.emu := rfl
@[simp] theorem State.modCan_borrow (n : CanCtl) (f : Can → Can) : (s.modCan n f).borrow = s.borrow := rfl
@[simp] theorem State.modCan_isnsB (n : CanCtl) (f : Can → Can) : (s.modCan n f).isnsB = s.isnsB := rfl
@[simp] theorem State.modCan_isnsC (n : CanCtl) (f : Can → Can) : (s.modCan n f).isnsC = s.isnsC := rfl
@[simp] theorem State.modCan_eng (n : CanCtl) (f : Can → Can) : (s.modCan n f).eng = s.eng := rfl
@[simp] theorem State.modCan_mc (n : CanCtl) (f : Can → Can) : (s.modCan n f).mc = s.mc := rfl
@[simp] theorem State.modCan_gate (n : CanCtl) (f : Can → Can) : (s.modCan n f).gate = s.gate := rfl
@[simp] theorem State.modCan_driver (n : CanCtl) (f : Can → Can) : (s.modCan n f).driver = s.driver := rfl
@[simp] theorem State.modCan_cont (n : CanCtl) (f : Can → Can) : (s.modCan n f).cont = s.cont := rfl
@[simp] theorem State.modCan_peers (n : CanCtl) (f : Can → Can) : (s.modCan n f).peers = s.peers := rfl
@[simp] theorem State.modCan_ebp (n : CanCtl) (f : Can → Can) : (s.modCan n f).ebp = s.ebp := rfl
@[simp] theorem State.modCan_lines (n : CanCtl) (f : Can → Can) : (s.modCan n f).lines = s.lines := rfl
@[simp] theorem State.modCan_safe (n : CanCtl) (f : Can → Can) : (s.modCan n f).safe = s.safe := rfl
@[simp] theorem State.modCan_twin (n : CanCtl) (f : Can → Can) : (s.modCan n f).twin = s.twin := rfl
@[simp] theorem State.modCan_can (n : CanCtl) (f : Can → Can) : (s.modCan n f).can = upd s.can n f := rfl
@[simp] theorem State.modCan_usl (n : CanCtl) (f : Can → Can) : (s.modCan n f).usl = s.usl := rfl
@[simp] theorem State.modCan_time (n : CanCtl) (f : Can → Can) : (s.modCan n f).time = s.time := rfl
@[simp] theorem State.modCan_host (n : CanCtl) (f : Can → Can) : (s.modCan n f).host = s.host := rfl
@[simp] theorem State.modCan_keep (n : CanCtl) (f : Can → Can) : (s.modCan n f).keep = s.keep := rfl
@[simp] theorem State.modCan_jtag (n : CanCtl) (f : Can → Can) : (s.modCan n f).jtag = s.jtag := rfl
@[simp] theorem State.modCan_pwr (n : CanCtl) (f : Can → Can) : (s.modCan n f).pwr = s.pwr := rfl
@[simp] theorem State.modCan_mport (n : CanCtl) (f : Can → Can) : (s.modCan n f).mport = s.mport := rfl
@[simp] theorem State.modCan_bkg (n : CanCtl) (f : Can → Can) : (s.modCan n f).bkg = s.bkg := rfl
@[simp] theorem State.modCan_rd (n : CanCtl) (f : Can → Can) (x : Nat) : (s.modCan n f).rd x = s.rd x := rfl
@[simp] theorem State.modCan_get (n : CanCtl) (f : Can → Can) (g : Fld) : (s.modCan n f).get g = s.get g := rfl
@[simp] theorem State.modCan_on (n : CanCtl) (f : Can → Can) (g : Fld) : (s.modCan n f).on g = s.on g := rfl
@[simp] theorem State.modCan_bit (n : CanCtl) (f : Can → Can) (g : Fld) (i : Nat) : (s.modCan n f).bit g i = s.bit g i := rfl
@[simp] theorem State.modCan_byte (n : CanCtl) (f : Can → Can) (x : Nat) : (s.modCan n f).byte x = s.byte x := rfl

/-! modUsl -/
@[simp] theorem State.modUsl_regs (f : Usl → Usl) : (s.modUsl f).regs = s.regs := rfl
@[simp] theorem State.modUsl_mem (f : Usl → Usl) : (s.modUsl f).mem = s.mem := rfl
@[simp] theorem State.modUsl_pending (f : Usl → Usl) : (s.modUsl f).pending = s.pending := rfl
@[simp] theorem State.modUsl_fresh (f : Usl → Usl) : (s.modUsl f).fresh = s.fresh := rfl
@[simp] theorem State.modUsl_tick (f : Usl → Usl) : (s.modUsl f).tick = s.tick := rfl
@[simp] theorem State.modUsl_bus (f : Usl → Usl) : (s.modUsl f).bus = s.bus := rfl
@[simp] theorem State.modUsl_irqs (f : Usl → Usl) : (s.modUsl f).irqs = s.irqs := rfl
@[simp] theorem State.modUsl_sealApplied (f : Usl → Usl) : (s.modUsl f).sealApplied = s.sealApplied := rfl
@[simp] theorem State.modUsl_sys (f : Usl → Usl) : (s.modUsl f).sys = s.sys := rfl
@[simp] theorem State.modUsl_cores (f : Usl → Usl) : (s.modUsl f).cores = s.cores := rfl
@[simp] theorem State.modUsl_ang (f : Usl → Usl) : (s.modUsl f).ang = s.ang := rfl
@[simp] theorem State.modUsl_pos (f : Usl → Usl) : (s.modUsl f).pos = s.pos := rfl
@[simp] theorem State.modUsl_sent (f : Usl → Usl) : (s.modUsl f).sent = s.sent := rfl
@[simp] theorem State.modUsl_emu (f : Usl → Usl) : (s.modUsl f).emu = s.emu := rfl
@[simp] theorem State.modUsl_borrow (f : Usl → Usl) : (s.modUsl f).borrow = s.borrow := rfl
@[simp] theorem State.modUsl_isnsB (f : Usl → Usl) : (s.modUsl f).isnsB = s.isnsB := rfl
@[simp] theorem State.modUsl_isnsC (f : Usl → Usl) : (s.modUsl f).isnsC = s.isnsC := rfl
@[simp] theorem State.modUsl_eng (f : Usl → Usl) : (s.modUsl f).eng = s.eng := rfl
@[simp] theorem State.modUsl_mc (f : Usl → Usl) : (s.modUsl f).mc = s.mc := rfl
@[simp] theorem State.modUsl_gate (f : Usl → Usl) : (s.modUsl f).gate = s.gate := rfl
@[simp] theorem State.modUsl_driver (f : Usl → Usl) : (s.modUsl f).driver = s.driver := rfl
@[simp] theorem State.modUsl_cont (f : Usl → Usl) : (s.modUsl f).cont = s.cont := rfl
@[simp] theorem State.modUsl_peers (f : Usl → Usl) : (s.modUsl f).peers = s.peers := rfl
@[simp] theorem State.modUsl_ebp (f : Usl → Usl) : (s.modUsl f).ebp = s.ebp := rfl
@[simp] theorem State.modUsl_lines (f : Usl → Usl) : (s.modUsl f).lines = s.lines := rfl
@[simp] theorem State.modUsl_safe (f : Usl → Usl) : (s.modUsl f).safe = s.safe := rfl
@[simp] theorem State.modUsl_twin (f : Usl → Usl) : (s.modUsl f).twin = s.twin := rfl
@[simp] theorem State.modUsl_can (f : Usl → Usl) : (s.modUsl f).can = s.can := rfl
@[simp] theorem State.modUsl_usl (f : Usl → Usl) : (s.modUsl f).usl = f s.usl := rfl
@[simp] theorem State.modUsl_time (f : Usl → Usl) : (s.modUsl f).time = s.time := rfl
@[simp] theorem State.modUsl_host (f : Usl → Usl) : (s.modUsl f).host = s.host := rfl
@[simp] theorem State.modUsl_keep (f : Usl → Usl) : (s.modUsl f).keep = s.keep := rfl
@[simp] theorem State.modUsl_jtag (f : Usl → Usl) : (s.modUsl f).jtag = s.jtag := rfl
@[simp] theorem State.modUsl_pwr (f : Usl → Usl) : (s.modUsl f).pwr = s.pwr := rfl
@[simp] theorem State.modUsl_mport (f : Usl → Usl) : (s.modUsl f).mport = s.mport := rfl
@[simp] theorem State.modUsl_bkg (f : Usl → Usl) : (s.modUsl f).bkg = s.bkg := rfl
@[simp] theorem State.modUsl_rd (f : Usl → Usl) (x : Nat) : (s.modUsl f).rd x = s.rd x := rfl
@[simp] theorem State.modUsl_get (f : Usl → Usl) (g : Fld) : (s.modUsl f).get g = s.get g := rfl
@[simp] theorem State.modUsl_on (f : Usl → Usl) (g : Fld) : (s.modUsl f).on g = s.on g := rfl
@[simp] theorem State.modUsl_bit (f : Usl → Usl) (g : Fld) (i : Nat) : (s.modUsl f).bit g i = s.bit g i := rfl
@[simp] theorem State.modUsl_byte (f : Usl → Usl) (x : Nat) : (s.modUsl f).byte x = s.byte x := rfl

/-! modTime -/
@[simp] theorem State.modTime_regs (f : NetTime → NetTime) : (s.modTime f).regs = s.regs := rfl
@[simp] theorem State.modTime_mem (f : NetTime → NetTime) : (s.modTime f).mem = s.mem := rfl
@[simp] theorem State.modTime_pending (f : NetTime → NetTime) : (s.modTime f).pending = s.pending := rfl
@[simp] theorem State.modTime_fresh (f : NetTime → NetTime) : (s.modTime f).fresh = s.fresh := rfl
@[simp] theorem State.modTime_tick (f : NetTime → NetTime) : (s.modTime f).tick = s.tick := rfl
@[simp] theorem State.modTime_bus (f : NetTime → NetTime) : (s.modTime f).bus = s.bus := rfl
@[simp] theorem State.modTime_irqs (f : NetTime → NetTime) : (s.modTime f).irqs = s.irqs := rfl
@[simp] theorem State.modTime_sealApplied (f : NetTime → NetTime) : (s.modTime f).sealApplied = s.sealApplied := rfl
@[simp] theorem State.modTime_sys (f : NetTime → NetTime) : (s.modTime f).sys = s.sys := rfl
@[simp] theorem State.modTime_cores (f : NetTime → NetTime) : (s.modTime f).cores = s.cores := rfl
@[simp] theorem State.modTime_ang (f : NetTime → NetTime) : (s.modTime f).ang = s.ang := rfl
@[simp] theorem State.modTime_pos (f : NetTime → NetTime) : (s.modTime f).pos = s.pos := rfl
@[simp] theorem State.modTime_sent (f : NetTime → NetTime) : (s.modTime f).sent = s.sent := rfl
@[simp] theorem State.modTime_emu (f : NetTime → NetTime) : (s.modTime f).emu = s.emu := rfl
@[simp] theorem State.modTime_borrow (f : NetTime → NetTime) : (s.modTime f).borrow = s.borrow := rfl
@[simp] theorem State.modTime_isnsB (f : NetTime → NetTime) : (s.modTime f).isnsB = s.isnsB := rfl
@[simp] theorem State.modTime_isnsC (f : NetTime → NetTime) : (s.modTime f).isnsC = s.isnsC := rfl
@[simp] theorem State.modTime_eng (f : NetTime → NetTime) : (s.modTime f).eng = s.eng := rfl
@[simp] theorem State.modTime_mc (f : NetTime → NetTime) : (s.modTime f).mc = s.mc := rfl
@[simp] theorem State.modTime_gate (f : NetTime → NetTime) : (s.modTime f).gate = s.gate := rfl
@[simp] theorem State.modTime_driver (f : NetTime → NetTime) : (s.modTime f).driver = s.driver := rfl
@[simp] theorem State.modTime_cont (f : NetTime → NetTime) : (s.modTime f).cont = s.cont := rfl
@[simp] theorem State.modTime_peers (f : NetTime → NetTime) : (s.modTime f).peers = s.peers := rfl
@[simp] theorem State.modTime_ebp (f : NetTime → NetTime) : (s.modTime f).ebp = s.ebp := rfl
@[simp] theorem State.modTime_lines (f : NetTime → NetTime) : (s.modTime f).lines = s.lines := rfl
@[simp] theorem State.modTime_safe (f : NetTime → NetTime) : (s.modTime f).safe = s.safe := rfl
@[simp] theorem State.modTime_twin (f : NetTime → NetTime) : (s.modTime f).twin = s.twin := rfl
@[simp] theorem State.modTime_can (f : NetTime → NetTime) : (s.modTime f).can = s.can := rfl
@[simp] theorem State.modTime_usl (f : NetTime → NetTime) : (s.modTime f).usl = s.usl := rfl
@[simp] theorem State.modTime_time (f : NetTime → NetTime) : (s.modTime f).time = f s.time := rfl
@[simp] theorem State.modTime_host (f : NetTime → NetTime) : (s.modTime f).host = s.host := rfl
@[simp] theorem State.modTime_keep (f : NetTime → NetTime) : (s.modTime f).keep = s.keep := rfl
@[simp] theorem State.modTime_jtag (f : NetTime → NetTime) : (s.modTime f).jtag = s.jtag := rfl
@[simp] theorem State.modTime_pwr (f : NetTime → NetTime) : (s.modTime f).pwr = s.pwr := rfl
@[simp] theorem State.modTime_mport (f : NetTime → NetTime) : (s.modTime f).mport = s.mport := rfl
@[simp] theorem State.modTime_bkg (f : NetTime → NetTime) : (s.modTime f).bkg = s.bkg := rfl
@[simp] theorem State.modTime_rd (f : NetTime → NetTime) (x : Nat) : (s.modTime f).rd x = s.rd x := rfl
@[simp] theorem State.modTime_get (f : NetTime → NetTime) (g : Fld) : (s.modTime f).get g = s.get g := rfl
@[simp] theorem State.modTime_on (f : NetTime → NetTime) (g : Fld) : (s.modTime f).on g = s.on g := rfl
@[simp] theorem State.modTime_bit (f : NetTime → NetTime) (g : Fld) (i : Nat) : (s.modTime f).bit g i = s.bit g i := rfl
@[simp] theorem State.modTime_byte (f : NetTime → NetTime) (x : Nat) : (s.modTime f).byte x = s.byte x := rfl

/-! modHost -/
@[simp] theorem State.modHost_regs (f : HostIf → HostIf) : (s.modHost f).regs = s.regs := rfl
@[simp] theorem State.modHost_mem (f : HostIf → HostIf) : (s.modHost f).mem = s.mem := rfl
@[simp] theorem State.modHost_pending (f : HostIf → HostIf) : (s.modHost f).pending = s.pending := rfl
@[simp] theorem State.modHost_fresh (f : HostIf → HostIf) : (s.modHost f).fresh = s.fresh := rfl
@[simp] theorem State.modHost_tick (f : HostIf → HostIf) : (s.modHost f).tick = s.tick := rfl
@[simp] theorem State.modHost_bus (f : HostIf → HostIf) : (s.modHost f).bus = s.bus := rfl
@[simp] theorem State.modHost_irqs (f : HostIf → HostIf) : (s.modHost f).irqs = s.irqs := rfl
@[simp] theorem State.modHost_sealApplied (f : HostIf → HostIf) : (s.modHost f).sealApplied = s.sealApplied := rfl
@[simp] theorem State.modHost_sys (f : HostIf → HostIf) : (s.modHost f).sys = s.sys := rfl
@[simp] theorem State.modHost_cores (f : HostIf → HostIf) : (s.modHost f).cores = s.cores := rfl
@[simp] theorem State.modHost_ang (f : HostIf → HostIf) : (s.modHost f).ang = s.ang := rfl
@[simp] theorem State.modHost_pos (f : HostIf → HostIf) : (s.modHost f).pos = s.pos := rfl
@[simp] theorem State.modHost_sent (f : HostIf → HostIf) : (s.modHost f).sent = s.sent := rfl
@[simp] theorem State.modHost_emu (f : HostIf → HostIf) : (s.modHost f).emu = s.emu := rfl
@[simp] theorem State.modHost_borrow (f : HostIf → HostIf) : (s.modHost f).borrow = s.borrow := rfl
@[simp] theorem State.modHost_isnsB (f : HostIf → HostIf) : (s.modHost f).isnsB = s.isnsB := rfl
@[simp] theorem State.modHost_isnsC (f : HostIf → HostIf) : (s.modHost f).isnsC = s.isnsC := rfl
@[simp] theorem State.modHost_eng (f : HostIf → HostIf) : (s.modHost f).eng = s.eng := rfl
@[simp] theorem State.modHost_mc (f : HostIf → HostIf) : (s.modHost f).mc = s.mc := rfl
@[simp] theorem State.modHost_gate (f : HostIf → HostIf) : (s.modHost f).gate = s.gate := rfl
@[simp] theorem State.modHost_driver (f : HostIf → HostIf) : (s.modHost f).driver = s.driver := rfl
@[simp] theorem State.modHost_cont (f : HostIf → HostIf) : (s.modHost f).cont = s.cont := rfl
@[simp] theorem State.modHost_peers (f : HostIf → HostIf) : (s.modHost f).peers = s.peers := rfl
@[simp] theorem State.modHost_ebp (f : HostIf → HostIf) : (s.modHost f).ebp = s.ebp := rfl
@[simp] theorem State.modHost_lines (f : HostIf → HostIf) : (s.modHost f).lines = s.lines := rfl
@[simp] theorem State.modHost_safe (f : HostIf → HostIf) : (s.modHost f).safe = s.safe := rfl
@[simp] theorem State.modHost_twin (f : HostIf → HostIf) : (s.modHost f).twin = s.twin := rfl
@[simp] theorem State.modHost_can (f : HostIf → HostIf) : (s.modHost f).can = s.can := rfl
@[simp] theorem State.modHost_usl (f : HostIf → HostIf) : (s.modHost f).usl = s.usl := rfl
@[simp] theorem State.modHost_time (f : HostIf → HostIf) : (s.modHost f).time = s.time := rfl
@[simp] theorem State.modHost_host (f : HostIf → HostIf) : (s.modHost f).host = f s.host := rfl
@[simp] theorem State.modHost_keep (f : HostIf → HostIf) : (s.modHost f).keep = s.keep := rfl
@[simp] theorem State.modHost_jtag (f : HostIf → HostIf) : (s.modHost f).jtag = s.jtag := rfl
@[simp] theorem State.modHost_pwr (f : HostIf → HostIf) : (s.modHost f).pwr = s.pwr := rfl
@[simp] theorem State.modHost_mport (f : HostIf → HostIf) : (s.modHost f).mport = s.mport := rfl
@[simp] theorem State.modHost_bkg (f : HostIf → HostIf) : (s.modHost f).bkg = s.bkg := rfl
@[simp] theorem State.modHost_rd (f : HostIf → HostIf) (x : Nat) : (s.modHost f).rd x = s.rd x := rfl
@[simp] theorem State.modHost_get (f : HostIf → HostIf) (g : Fld) : (s.modHost f).get g = s.get g := rfl
@[simp] theorem State.modHost_on (f : HostIf → HostIf) (g : Fld) : (s.modHost f).on g = s.on g := rfl
@[simp] theorem State.modHost_bit (f : HostIf → HostIf) (g : Fld) (i : Nat) : (s.modHost f).bit g i = s.bit g i := rfl
@[simp] theorem State.modHost_byte (f : HostIf → HostIf) (x : Nat) : (s.modHost f).byte x = s.byte x := rfl

/-! modKeep -/
@[simp] theorem State.modKeep_regs (f : Keep → Keep) : (s.modKeep f).regs = s.regs := rfl
@[simp] theorem State.modKeep_mem (f : Keep → Keep) : (s.modKeep f).mem = s.mem := rfl
@[simp] theorem State.modKeep_pending (f : Keep → Keep) : (s.modKeep f).pending = s.pending := rfl
@[simp] theorem State.modKeep_fresh (f : Keep → Keep) : (s.modKeep f).fresh = s.fresh := rfl
@[simp] theorem State.modKeep_tick (f : Keep → Keep) : (s.modKeep f).tick = s.tick := rfl
@[simp] theorem State.modKeep_bus (f : Keep → Keep) : (s.modKeep f).bus = s.bus := rfl
@[simp] theorem State.modKeep_irqs (f : Keep → Keep) : (s.modKeep f).irqs = s.irqs := rfl
@[simp] theorem State.modKeep_sealApplied (f : Keep → Keep) : (s.modKeep f).sealApplied = s.sealApplied := rfl
@[simp] theorem State.modKeep_sys (f : Keep → Keep) : (s.modKeep f).sys = s.sys := rfl
@[simp] theorem State.modKeep_cores (f : Keep → Keep) : (s.modKeep f).cores = s.cores := rfl
@[simp] theorem State.modKeep_ang (f : Keep → Keep) : (s.modKeep f).ang = s.ang := rfl
@[simp] theorem State.modKeep_pos (f : Keep → Keep) : (s.modKeep f).pos = s.pos := rfl
@[simp] theorem State.modKeep_sent (f : Keep → Keep) : (s.modKeep f).sent = s.sent := rfl
@[simp] theorem State.modKeep_emu (f : Keep → Keep) : (s.modKeep f).emu = s.emu := rfl
@[simp] theorem State.modKeep_borrow (f : Keep → Keep) : (s.modKeep f).borrow = s.borrow := rfl
@[simp] theorem State.modKeep_isnsB (f : Keep → Keep) : (s.modKeep f).isnsB = s.isnsB := rfl
@[simp] theorem State.modKeep_isnsC (f : Keep → Keep) : (s.modKeep f).isnsC = s.isnsC := rfl
@[simp] theorem State.modKeep_eng (f : Keep → Keep) : (s.modKeep f).eng = s.eng := rfl
@[simp] theorem State.modKeep_mc (f : Keep → Keep) : (s.modKeep f).mc = s.mc := rfl
@[simp] theorem State.modKeep_gate (f : Keep → Keep) : (s.modKeep f).gate = s.gate := rfl
@[simp] theorem State.modKeep_driver (f : Keep → Keep) : (s.modKeep f).driver = s.driver := rfl
@[simp] theorem State.modKeep_cont (f : Keep → Keep) : (s.modKeep f).cont = s.cont := rfl
@[simp] theorem State.modKeep_peers (f : Keep → Keep) : (s.modKeep f).peers = s.peers := rfl
@[simp] theorem State.modKeep_ebp (f : Keep → Keep) : (s.modKeep f).ebp = s.ebp := rfl
@[simp] theorem State.modKeep_lines (f : Keep → Keep) : (s.modKeep f).lines = s.lines := rfl
@[simp] theorem State.modKeep_safe (f : Keep → Keep) : (s.modKeep f).safe = s.safe := rfl
@[simp] theorem State.modKeep_twin (f : Keep → Keep) : (s.modKeep f).twin = s.twin := rfl
@[simp] theorem State.modKeep_can (f : Keep → Keep) : (s.modKeep f).can = s.can := rfl
@[simp] theorem State.modKeep_usl (f : Keep → Keep) : (s.modKeep f).usl = s.usl := rfl
@[simp] theorem State.modKeep_time (f : Keep → Keep) : (s.modKeep f).time = s.time := rfl
@[simp] theorem State.modKeep_host (f : Keep → Keep) : (s.modKeep f).host = s.host := rfl
@[simp] theorem State.modKeep_keep (f : Keep → Keep) : (s.modKeep f).keep = f s.keep := rfl
@[simp] theorem State.modKeep_jtag (f : Keep → Keep) : (s.modKeep f).jtag = s.jtag := rfl
@[simp] theorem State.modKeep_pwr (f : Keep → Keep) : (s.modKeep f).pwr = s.pwr := rfl
@[simp] theorem State.modKeep_mport (f : Keep → Keep) : (s.modKeep f).mport = s.mport := rfl
@[simp] theorem State.modKeep_bkg (f : Keep → Keep) : (s.modKeep f).bkg = s.bkg := rfl
@[simp] theorem State.modKeep_rd (f : Keep → Keep) (x : Nat) : (s.modKeep f).rd x = s.rd x := rfl
@[simp] theorem State.modKeep_get (f : Keep → Keep) (g : Fld) : (s.modKeep f).get g = s.get g := rfl
@[simp] theorem State.modKeep_on (f : Keep → Keep) (g : Fld) : (s.modKeep f).on g = s.on g := rfl
@[simp] theorem State.modKeep_bit (f : Keep → Keep) (g : Fld) (i : Nat) : (s.modKeep f).bit g i = s.bit g i := rfl
@[simp] theorem State.modKeep_byte (f : Keep → Keep) (x : Nat) : (s.modKeep f).byte x = s.byte x := rfl

/-! modJtag -/
@[simp] theorem State.modJtag_regs (f : Jtag → Jtag) : (s.modJtag f).regs = s.regs := rfl
@[simp] theorem State.modJtag_mem (f : Jtag → Jtag) : (s.modJtag f).mem = s.mem := rfl
@[simp] theorem State.modJtag_pending (f : Jtag → Jtag) : (s.modJtag f).pending = s.pending := rfl
@[simp] theorem State.modJtag_fresh (f : Jtag → Jtag) : (s.modJtag f).fresh = s.fresh := rfl
@[simp] theorem State.modJtag_tick (f : Jtag → Jtag) : (s.modJtag f).tick = s.tick := rfl
@[simp] theorem State.modJtag_bus (f : Jtag → Jtag) : (s.modJtag f).bus = s.bus := rfl
@[simp] theorem State.modJtag_irqs (f : Jtag → Jtag) : (s.modJtag f).irqs = s.irqs := rfl
@[simp] theorem State.modJtag_sealApplied (f : Jtag → Jtag) : (s.modJtag f).sealApplied = s.sealApplied := rfl
@[simp] theorem State.modJtag_sys (f : Jtag → Jtag) : (s.modJtag f).sys = s.sys := rfl
@[simp] theorem State.modJtag_cores (f : Jtag → Jtag) : (s.modJtag f).cores = s.cores := rfl
@[simp] theorem State.modJtag_ang (f : Jtag → Jtag) : (s.modJtag f).ang = s.ang := rfl
@[simp] theorem State.modJtag_pos (f : Jtag → Jtag) : (s.modJtag f).pos = s.pos := rfl
@[simp] theorem State.modJtag_sent (f : Jtag → Jtag) : (s.modJtag f).sent = s.sent := rfl
@[simp] theorem State.modJtag_emu (f : Jtag → Jtag) : (s.modJtag f).emu = s.emu := rfl
@[simp] theorem State.modJtag_borrow (f : Jtag → Jtag) : (s.modJtag f).borrow = s.borrow := rfl
@[simp] theorem State.modJtag_isnsB (f : Jtag → Jtag) : (s.modJtag f).isnsB = s.isnsB := rfl
@[simp] theorem State.modJtag_isnsC (f : Jtag → Jtag) : (s.modJtag f).isnsC = s.isnsC := rfl
@[simp] theorem State.modJtag_eng (f : Jtag → Jtag) : (s.modJtag f).eng = s.eng := rfl
@[simp] theorem State.modJtag_mc (f : Jtag → Jtag) : (s.modJtag f).mc = s.mc := rfl
@[simp] theorem State.modJtag_gate (f : Jtag → Jtag) : (s.modJtag f).gate = s.gate := rfl
@[simp] theorem State.modJtag_driver (f : Jtag → Jtag) : (s.modJtag f).driver = s.driver := rfl
@[simp] theorem State.modJtag_cont (f : Jtag → Jtag) : (s.modJtag f).cont = s.cont := rfl
@[simp] theorem State.modJtag_peers (f : Jtag → Jtag) : (s.modJtag f).peers = s.peers := rfl
@[simp] theorem State.modJtag_ebp (f : Jtag → Jtag) : (s.modJtag f).ebp = s.ebp := rfl
@[simp] theorem State.modJtag_lines (f : Jtag → Jtag) : (s.modJtag f).lines = s.lines := rfl
@[simp] theorem State.modJtag_safe (f : Jtag → Jtag) : (s.modJtag f).safe = s.safe := rfl
@[simp] theorem State.modJtag_twin (f : Jtag → Jtag) : (s.modJtag f).twin = s.twin := rfl
@[simp] theorem State.modJtag_can (f : Jtag → Jtag) : (s.modJtag f).can = s.can := rfl
@[simp] theorem State.modJtag_usl (f : Jtag → Jtag) : (s.modJtag f).usl = s.usl := rfl
@[simp] theorem State.modJtag_time (f : Jtag → Jtag) : (s.modJtag f).time = s.time := rfl
@[simp] theorem State.modJtag_host (f : Jtag → Jtag) : (s.modJtag f).host = s.host := rfl
@[simp] theorem State.modJtag_keep (f : Jtag → Jtag) : (s.modJtag f).keep = s.keep := rfl
@[simp] theorem State.modJtag_jtag (f : Jtag → Jtag) : (s.modJtag f).jtag = f s.jtag := rfl
@[simp] theorem State.modJtag_pwr (f : Jtag → Jtag) : (s.modJtag f).pwr = s.pwr := rfl
@[simp] theorem State.modJtag_mport (f : Jtag → Jtag) : (s.modJtag f).mport = s.mport := rfl
@[simp] theorem State.modJtag_bkg (f : Jtag → Jtag) : (s.modJtag f).bkg = s.bkg := rfl
@[simp] theorem State.modJtag_rd (f : Jtag → Jtag) (x : Nat) : (s.modJtag f).rd x = s.rd x := rfl
@[simp] theorem State.modJtag_get (f : Jtag → Jtag) (g : Fld) : (s.modJtag f).get g = s.get g := rfl
@[simp] theorem State.modJtag_on (f : Jtag → Jtag) (g : Fld) : (s.modJtag f).on g = s.on g := rfl
@[simp] theorem State.modJtag_bit (f : Jtag → Jtag) (g : Fld) (i : Nat) : (s.modJtag f).bit g i = s.bit g i := rfl
@[simp] theorem State.modJtag_byte (f : Jtag → Jtag) (x : Nat) : (s.modJtag f).byte x = s.byte x := rfl

/-! modPwr -/
@[simp] theorem State.modPwr_regs (f : Pwr → Pwr) : (s.modPwr f).regs = s.regs := rfl
@[simp] theorem State.modPwr_mem (f : Pwr → Pwr) : (s.modPwr f).mem = s.mem := rfl
@[simp] theorem State.modPwr_pending (f : Pwr → Pwr) : (s.modPwr f).pending = s.pending := rfl
@[simp] theorem State.modPwr_fresh (f : Pwr → Pwr) : (s.modPwr f).fresh = s.fresh := rfl
@[simp] theorem State.modPwr_tick (f : Pwr → Pwr) : (s.modPwr f).tick = s.tick := rfl
@[simp] theorem State.modPwr_bus (f : Pwr → Pwr) : (s.modPwr f).bus = s.bus := rfl
@[simp] theorem State.modPwr_irqs (f : Pwr → Pwr) : (s.modPwr f).irqs = s.irqs := rfl
@[simp] theorem State.modPwr_sealApplied (f : Pwr → Pwr) : (s.modPwr f).sealApplied = s.sealApplied := rfl
@[simp] theorem State.modPwr_sys (f : Pwr → Pwr) : (s.modPwr f).sys = s.sys := rfl
@[simp] theorem State.modPwr_cores (f : Pwr → Pwr) : (s.modPwr f).cores = s.cores := rfl
@[simp] theorem State.modPwr_ang (f : Pwr → Pwr) : (s.modPwr f).ang = s.ang := rfl
@[simp] theorem State.modPwr_pos (f : Pwr → Pwr) : (s.modPwr f).pos = s.pos := rfl
@[simp] theorem State.modPwr_sent (f : Pwr → Pwr) : (s.modPwr f).sent = s.sent := rfl
@[simp] theorem State.modPwr_emu (f : Pwr → Pwr) : (s.modPwr f).emu = s.emu := rfl
@[simp] theorem State.modPwr_borrow (f : Pwr → Pwr) : (s.modPwr f).borrow = s.borrow := rfl
@[simp] theorem State.modPwr_isnsB (f : Pwr → Pwr) : (s.modPwr f).isnsB = s.isnsB := rfl
@[simp] theorem State.modPwr_isnsC (f : Pwr → Pwr) : (s.modPwr f).isnsC = s.isnsC := rfl
@[simp] theorem State.modPwr_eng (f : Pwr → Pwr) : (s.modPwr f).eng = s.eng := rfl
@[simp] theorem State.modPwr_mc (f : Pwr → Pwr) : (s.modPwr f).mc = s.mc := rfl
@[simp] theorem State.modPwr_gate (f : Pwr → Pwr) : (s.modPwr f).gate = s.gate := rfl
@[simp] theorem State.modPwr_driver (f : Pwr → Pwr) : (s.modPwr f).driver = s.driver := rfl
@[simp] theorem State.modPwr_cont (f : Pwr → Pwr) : (s.modPwr f).cont = s.cont := rfl
@[simp] theorem State.modPwr_peers (f : Pwr → Pwr) : (s.modPwr f).peers = s.peers := rfl
@[simp] theorem State.modPwr_ebp (f : Pwr → Pwr) : (s.modPwr f).ebp = s.ebp := rfl
@[simp] theorem State.modPwr_lines (f : Pwr → Pwr) : (s.modPwr f).lines = s.lines := rfl
@[simp] theorem State.modPwr_safe (f : Pwr → Pwr) : (s.modPwr f).safe = s.safe := rfl
@[simp] theorem State.modPwr_twin (f : Pwr → Pwr) : (s.modPwr f).twin = s.twin := rfl
@[simp] theorem State.modPwr_can (f : Pwr → Pwr) : (s.modPwr f).can = s.can := rfl
@[simp] theorem State.modPwr_usl (f : Pwr → Pwr) : (s.modPwr f).usl = s.usl := rfl
@[simp] theorem State.modPwr_time (f : Pwr → Pwr) : (s.modPwr f).time = s.time := rfl
@[simp] theorem State.modPwr_host (f : Pwr → Pwr) : (s.modPwr f).host = s.host := rfl
@[simp] theorem State.modPwr_keep (f : Pwr → Pwr) : (s.modPwr f).keep = s.keep := rfl
@[simp] theorem State.modPwr_jtag (f : Pwr → Pwr) : (s.modPwr f).jtag = s.jtag := rfl
@[simp] theorem State.modPwr_pwr (f : Pwr → Pwr) : (s.modPwr f).pwr = f s.pwr := rfl
@[simp] theorem State.modPwr_mport (f : Pwr → Pwr) : (s.modPwr f).mport = s.mport := rfl
@[simp] theorem State.modPwr_bkg (f : Pwr → Pwr) : (s.modPwr f).bkg = s.bkg := rfl
@[simp] theorem State.modPwr_rd (f : Pwr → Pwr) (x : Nat) : (s.modPwr f).rd x = s.rd x := rfl
@[simp] theorem State.modPwr_get (f : Pwr → Pwr) (g : Fld) : (s.modPwr f).get g = s.get g := rfl
@[simp] theorem State.modPwr_on (f : Pwr → Pwr) (g : Fld) : (s.modPwr f).on g = s.on g := rfl
@[simp] theorem State.modPwr_bit (f : Pwr → Pwr) (g : Fld) (i : Nat) : (s.modPwr f).bit g i = s.bit g i := rfl
@[simp] theorem State.modPwr_byte (f : Pwr → Pwr) (x : Nat) : (s.modPwr f).byte x = s.byte x := rfl

/-! modMport -/
@[simp] theorem State.modMport_regs (f : Mport → Mport) : (s.modMport f).regs = s.regs := rfl
@[simp] theorem State.modMport_mem (f : Mport → Mport) : (s.modMport f).mem = s.mem := rfl
@[simp] theorem State.modMport_pending (f : Mport → Mport) : (s.modMport f).pending = s.pending := rfl
@[simp] theorem State.modMport_fresh (f : Mport → Mport) : (s.modMport f).fresh = s.fresh := rfl
@[simp] theorem State.modMport_tick (f : Mport → Mport) : (s.modMport f).tick = s.tick := rfl
@[simp] theorem State.modMport_bus (f : Mport → Mport) : (s.modMport f).bus = s.bus := rfl
@[simp] theorem State.modMport_irqs (f : Mport → Mport) : (s.modMport f).irqs = s.irqs := rfl
@[simp] theorem State.modMport_sealApplied (f : Mport → Mport) : (s.modMport f).sealApplied = s.sealApplied := rfl
@[simp] theorem State.modMport_sys (f : Mport → Mport) : (s.modMport f).sys = s.sys := rfl
@[simp] theorem State.modMport_cores (f : Mport → Mport) : (s.modMport f).cores = s.cores := rfl
@[simp] theorem State.modMport_ang (f : Mport → Mport) : (s.modMport f).ang = s.ang := rfl
@[simp] theorem State.modMport_pos (f : Mport → Mport) : (s.modMport f).pos = s.pos := rfl
@[simp] theorem State.modMport_sent (f : Mport → Mport) : (s.modMport f).sent = s.sent := rfl
@[simp] theorem State.modMport_emu (f : Mport → Mport) : (s.modMport f).emu = s.emu := rfl
@[simp] theorem State.modMport_borrow (f : Mport → Mport) : (s.modMport f).borrow = s.borrow := rfl
@[simp] theorem State.modMport_isnsB (f : Mport → Mport) : (s.modMport f).isnsB = s.isnsB := rfl
@[simp] theorem State.modMport_isnsC (f : Mport → Mport) : (s.modMport f).isnsC = s.isnsC := rfl
@[simp] theorem State.modMport_eng (f : Mport → Mport) : (s.modMport f).eng = s.eng := rfl
@[simp] theorem State.modMport_mc (f : Mport → Mport) : (s.modMport f).mc = s.mc := rfl
@[simp] theorem State.modMport_gate (f : Mport → Mport) : (s.modMport f).gate = s.gate := rfl
@[simp] theorem State.modMport_driver (f : Mport → Mport) : (s.modMport f).driver = s.driver := rfl
@[simp] theorem State.modMport_cont (f : Mport → Mport) : (s.modMport f).cont = s.cont := rfl
@[simp] theorem State.modMport_peers (f : Mport → Mport) : (s.modMport f).peers = s.peers := rfl
@[simp] theorem State.modMport_ebp (f : Mport → Mport) : (s.modMport f).ebp = s.ebp := rfl
@[simp] theorem State.modMport_lines (f : Mport → Mport) : (s.modMport f).lines = s.lines := rfl
@[simp] theorem State.modMport_safe (f : Mport → Mport) : (s.modMport f).safe = s.safe := rfl
@[simp] theorem State.modMport_twin (f : Mport → Mport) : (s.modMport f).twin = s.twin := rfl
@[simp] theorem State.modMport_can (f : Mport → Mport) : (s.modMport f).can = s.can := rfl
@[simp] theorem State.modMport_usl (f : Mport → Mport) : (s.modMport f).usl = s.usl := rfl
@[simp] theorem State.modMport_time (f : Mport → Mport) : (s.modMport f).time = s.time := rfl
@[simp] theorem State.modMport_host (f : Mport → Mport) : (s.modMport f).host = s.host := rfl
@[simp] theorem State.modMport_keep (f : Mport → Mport) : (s.modMport f).keep = s.keep := rfl
@[simp] theorem State.modMport_jtag (f : Mport → Mport) : (s.modMport f).jtag = s.jtag := rfl
@[simp] theorem State.modMport_pwr (f : Mport → Mport) : (s.modMport f).pwr = s.pwr := rfl
@[simp] theorem State.modMport_mport (f : Mport → Mport) : (s.modMport f).mport = f s.mport := rfl
@[simp] theorem State.modMport_bkg (f : Mport → Mport) : (s.modMport f).bkg = s.bkg := rfl
@[simp] theorem State.modMport_rd (f : Mport → Mport) (x : Nat) : (s.modMport f).rd x = s.rd x := rfl
@[simp] theorem State.modMport_get (f : Mport → Mport) (g : Fld) : (s.modMport f).get g = s.get g := rfl
@[simp] theorem State.modMport_on (f : Mport → Mport) (g : Fld) : (s.modMport f).on g = s.on g := rfl
@[simp] theorem State.modMport_bit (f : Mport → Mport) (g : Fld) (i : Nat) : (s.modMport f).bit g i = s.bit g i := rfl
@[simp] theorem State.modMport_byte (f : Mport → Mport) (x : Nat) : (s.modMport f).byte x = s.byte x := rfl

/-! modBkg -/
@[simp] theorem State.modBkg_regs (f : Bkg → Bkg) : (s.modBkg f).regs = s.regs := rfl
@[simp] theorem State.modBkg_mem (f : Bkg → Bkg) : (s.modBkg f).mem = s.mem := rfl
@[simp] theorem State.modBkg_pending (f : Bkg → Bkg) : (s.modBkg f).pending = s.pending := rfl
@[simp] theorem State.modBkg_fresh (f : Bkg → Bkg) : (s.modBkg f).fresh = s.fresh := rfl
@[simp] theorem State.modBkg_tick (f : Bkg → Bkg) : (s.modBkg f).tick = s.tick := rfl
@[simp] theorem State.modBkg_bus (f : Bkg → Bkg) : (s.modBkg f).bus = s.bus := rfl
@[simp] theorem State.modBkg_irqs (f : Bkg → Bkg) : (s.modBkg f).irqs = s.irqs := rfl
@[simp] theorem State.modBkg_sealApplied (f : Bkg → Bkg) : (s.modBkg f).sealApplied = s.sealApplied := rfl
@[simp] theorem State.modBkg_sys (f : Bkg → Bkg) : (s.modBkg f).sys = s.sys := rfl
@[simp] theorem State.modBkg_cores (f : Bkg → Bkg) : (s.modBkg f).cores = s.cores := rfl
@[simp] theorem State.modBkg_ang (f : Bkg → Bkg) : (s.modBkg f).ang = s.ang := rfl
@[simp] theorem State.modBkg_pos (f : Bkg → Bkg) : (s.modBkg f).pos = s.pos := rfl
@[simp] theorem State.modBkg_sent (f : Bkg → Bkg) : (s.modBkg f).sent = s.sent := rfl
@[simp] theorem State.modBkg_emu (f : Bkg → Bkg) : (s.modBkg f).emu = s.emu := rfl
@[simp] theorem State.modBkg_borrow (f : Bkg → Bkg) : (s.modBkg f).borrow = s.borrow := rfl
@[simp] theorem State.modBkg_isnsB (f : Bkg → Bkg) : (s.modBkg f).isnsB = s.isnsB := rfl
@[simp] theorem State.modBkg_isnsC (f : Bkg → Bkg) : (s.modBkg f).isnsC = s.isnsC := rfl
@[simp] theorem State.modBkg_eng (f : Bkg → Bkg) : (s.modBkg f).eng = s.eng := rfl
@[simp] theorem State.modBkg_mc (f : Bkg → Bkg) : (s.modBkg f).mc = s.mc := rfl
@[simp] theorem State.modBkg_gate (f : Bkg → Bkg) : (s.modBkg f).gate = s.gate := rfl
@[simp] theorem State.modBkg_driver (f : Bkg → Bkg) : (s.modBkg f).driver = s.driver := rfl
@[simp] theorem State.modBkg_cont (f : Bkg → Bkg) : (s.modBkg f).cont = s.cont := rfl
@[simp] theorem State.modBkg_peers (f : Bkg → Bkg) : (s.modBkg f).peers = s.peers := rfl
@[simp] theorem State.modBkg_ebp (f : Bkg → Bkg) : (s.modBkg f).ebp = s.ebp := rfl
@[simp] theorem State.modBkg_lines (f : Bkg → Bkg) : (s.modBkg f).lines = s.lines := rfl
@[simp] theorem State.modBkg_safe (f : Bkg → Bkg) : (s.modBkg f).safe = s.safe := rfl
@[simp] theorem State.modBkg_twin (f : Bkg → Bkg) : (s.modBkg f).twin = s.twin := rfl
@[simp] theorem State.modBkg_can (f : Bkg → Bkg) : (s.modBkg f).can = s.can := rfl
@[simp] theorem State.modBkg_usl (f : Bkg → Bkg) : (s.modBkg f).usl = s.usl := rfl
@[simp] theorem State.modBkg_time (f : Bkg → Bkg) : (s.modBkg f).time = s.time := rfl
@[simp] theorem State.modBkg_host (f : Bkg → Bkg) : (s.modBkg f).host = s.host := rfl
@[simp] theorem State.modBkg_keep (f : Bkg → Bkg) : (s.modBkg f).keep = s.keep := rfl
@[simp] theorem State.modBkg_jtag (f : Bkg → Bkg) : (s.modBkg f).jtag = s.jtag := rfl
@[simp] theorem State.modBkg_pwr (f : Bkg → Bkg) : (s.modBkg f).pwr = s.pwr := rfl
@[simp] theorem State.modBkg_mport (f : Bkg → Bkg) : (s.modBkg f).mport = s.mport := rfl
@[simp] theorem State.modBkg_bkg (f : Bkg → Bkg) : (s.modBkg f).bkg = f s.bkg := rfl
@[simp] theorem State.modBkg_rd (f : Bkg → Bkg) (x : Nat) : (s.modBkg f).rd x = s.rd x := rfl
@[simp] theorem State.modBkg_get (f : Bkg → Bkg) (g : Fld) : (s.modBkg f).get g = s.get g := rfl
@[simp] theorem State.modBkg_on (f : Bkg → Bkg) (g : Fld) : (s.modBkg f).on g = s.on g := rfl
@[simp] theorem State.modBkg_bit (f : Bkg → Bkg) (g : Fld) (i : Nat) : (s.modBkg f).bit g i = s.bit g i := rfl
@[simp] theorem State.modBkg_byte (f : Bkg → Bkg) (x : Nat) : (s.modBkg f).byte x = s.byte x := rfl

/-! wr -/
@[simp] theorem State.wr_regs (a : Nat) (v : Word) : (s.wr a v).regs = Tab.put resetWord s.regs a v := rfl
@[simp] theorem State.wr_mem (a : Nat) (v : Word) : (s.wr a v).mem = s.mem := rfl
@[simp] theorem State.wr_pending (a : Nat) (v : Word) : (s.wr a v).pending = s.pending := rfl
@[simp] theorem State.wr_fresh (a : Nat) (v : Word) : (s.wr a v).fresh = s.fresh := rfl
@[simp] theorem State.wr_tick (a : Nat) (v : Word) : (s.wr a v).tick = s.tick := rfl
@[simp] theorem State.wr_bus (a : Nat) (v : Word) : (s.wr a v).bus = s.bus := rfl
@[simp] theorem State.wr_irqs (a : Nat) (v : Word) : (s.wr a v).irqs = s.irqs := rfl
@[simp] theorem State.wr_sealApplied (a : Nat) (v : Word) : (s.wr a v).sealApplied = s.sealApplied := rfl
@[simp] theorem State.wr_sys (a : Nat) (v : Word) : (s.wr a v).sys = s.sys := rfl
@[simp] theorem State.wr_cores (a : Nat) (v : Word) : (s.wr a v).cores = s.cores := rfl
@[simp] theorem State.wr_ang (a : Nat) (v : Word) : (s.wr a v).ang = s.ang := rfl
@[simp] theorem State.wr_pos (a : Nat) (v : Word) : (s.wr a v).pos = s.pos := rfl
@[simp] theorem State.wr_sent (a : Nat) (v : Word) : (s.wr a v).sent = s.sent := rfl
@[simp] theorem State.wr_emu (a : Nat) (v : Word) : (s.wr a v).emu = s.emu := rfl
@[simp] theorem State.wr_borrow (a : Nat) (v : Word) : (s.wr a v).borrow = s.borrow := rfl
@[simp] theorem State.wr_isnsB (a : Nat) (v : Word) : (s.wr a v).isnsB = s.isnsB := rfl
@[simp] theorem State.wr_isnsC (a : Nat) (v : Word) : (s.wr a v).isnsC = s.isnsC := rfl
@[simp] theorem State.wr_eng (a : Nat) (v : Word) : (s.wr a v).eng = s.eng := rfl
@[simp] theorem State.wr_mc (a : Nat) (v : Word) : (s.wr a v).mc = s.mc := rfl
@[simp] theorem State.wr_gate (a : Nat) (v : Word) : (s.wr a v).gate = s.gate := rfl
@[simp] theorem State.wr_driver (a : Nat) (v : Word) : (s.wr a v).driver = s.driver := rfl
@[simp] theorem State.wr_cont (a : Nat) (v : Word) : (s.wr a v).cont = s.cont := rfl
@[simp] theorem State.wr_peers (a : Nat) (v : Word) : (s.wr a v).peers = s.peers := rfl
@[simp] theorem State.wr_ebp (a : Nat) (v : Word) : (s.wr a v).ebp = s.ebp := rfl
@[simp] theorem State.wr_lines (a : Nat) (v : Word) : (s.wr a v).lines = s.lines := rfl
@[simp] theorem State.wr_safe (a : Nat) (v : Word) : (s.wr a v).safe = s.safe := rfl
@[simp] theorem State.wr_twin (a : Nat) (v : Word) : (s.wr a v).twin = s.twin := rfl
@[simp] theorem State.wr_can (a : Nat) (v : Word) : (s.wr a v).can = s.can := rfl
@[simp] theorem State.wr_usl (a : Nat) (v : Word) : (s.wr a v).usl = s.usl := rfl
@[simp] theorem State.wr_time (a : Nat) (v : Word) : (s.wr a v).time = s.time := rfl
@[simp] theorem State.wr_host (a : Nat) (v : Word) : (s.wr a v).host = s.host := rfl
@[simp] theorem State.wr_keep (a : Nat) (v : Word) : (s.wr a v).keep = s.keep := rfl
@[simp] theorem State.wr_jtag (a : Nat) (v : Word) : (s.wr a v).jtag = s.jtag := rfl
@[simp] theorem State.wr_pwr (a : Nat) (v : Word) : (s.wr a v).pwr = s.pwr := rfl
@[simp] theorem State.wr_mport (a : Nat) (v : Word) : (s.wr a v).mport = s.mport := rfl
@[simp] theorem State.wr_bkg (a : Nat) (v : Word) : (s.wr a v).bkg = s.bkg := rfl
@[simp] theorem State.wr_byte (a : Nat) (v : Word) (x : Nat) : (s.wr a v).byte x = s.byte x := rfl

/-! put -/
@[simp] theorem State.put_regs (f : Fld) (v : Nat) : (s.put f v).regs = Tab.put resetWord s.regs f.addr (f.write (s.rd f.addr) v) := rfl
@[simp] theorem State.put_mem (f : Fld) (v : Nat) : (s.put f v).mem = s.mem := rfl
@[simp] theorem State.put_pending (f : Fld) (v : Nat) : (s.put f v).pending = s.pending := rfl
@[simp] theorem State.put_fresh (f : Fld) (v : Nat) : (s.put f v).fresh = s.fresh := rfl
@[simp] theorem State.put_tick (f : Fld) (v : Nat) : (s.put f v).tick = s.tick := rfl
@[simp] theorem State.put_bus (f : Fld) (v : Nat) : (s.put f v).bus = s.bus := rfl
@[simp] theorem State.put_irqs (f : Fld) (v : Nat) : (s.put f v).irqs = s.irqs := rfl
@[simp] theorem State.put_sealApplied (f : Fld) (v : Nat) : (s.put f v).sealApplied = s.sealApplied := rfl
@[simp] theorem State.put_sys (f : Fld) (v : Nat) : (s.put f v).sys = s.sys := rfl
@[simp] theorem State.put_cores (f : Fld) (v : Nat) : (s.put f v).cores = s.cores := rfl
@[simp] theorem State.put_ang (f : Fld) (v : Nat) : (s.put f v).ang = s.ang := rfl
@[simp] theorem State.put_pos (f : Fld) (v : Nat) : (s.put f v).pos = s.pos := rfl
@[simp] theorem State.put_sent (f : Fld) (v : Nat) : (s.put f v).sent = s.sent := rfl
@[simp] theorem State.put_emu (f : Fld) (v : Nat) : (s.put f v).emu = s.emu := rfl
@[simp] theorem State.put_borrow (f : Fld) (v : Nat) : (s.put f v).borrow = s.borrow := rfl
@[simp] theorem State.put_isnsB (f : Fld) (v : Nat) : (s.put f v).isnsB = s.isnsB := rfl
@[simp] theorem State.put_isnsC (f : Fld) (v : Nat) : (s.put f v).isnsC = s.isnsC := rfl
@[simp] theorem State.put_eng (f : Fld) (v : Nat) : (s.put f v).eng = s.eng := rfl
@[simp] theorem State.put_mc (f : Fld) (v : Nat) : (s.put f v).mc = s.mc := rfl
@[simp] theorem State.put_gate (f : Fld) (v : Nat) : (s.put f v).gate = s.gate := rfl
@[simp] theorem State.put_driver (f : Fld) (v : Nat) : (s.put f v).driver = s.driver := rfl
@[simp] theorem State.put_cont (f : Fld) (v : Nat) : (s.put f v).cont = s.cont := rfl
@[simp] theorem State.put_peers (f : Fld) (v : Nat) : (s.put f v).peers = s.peers := rfl
@[simp] theorem State.put_ebp (f : Fld) (v : Nat) : (s.put f v).ebp = s.ebp := rfl
@[simp] theorem State.put_lines (f : Fld) (v : Nat) : (s.put f v).lines = s.lines := rfl
@[simp] theorem State.put_safe (f : Fld) (v : Nat) : (s.put f v).safe = s.safe := rfl
@[simp] theorem State.put_twin (f : Fld) (v : Nat) : (s.put f v).twin = s.twin := rfl
@[simp] theorem State.put_can (f : Fld) (v : Nat) : (s.put f v).can = s.can := rfl
@[simp] theorem State.put_usl (f : Fld) (v : Nat) : (s.put f v).usl = s.usl := rfl
@[simp] theorem State.put_time (f : Fld) (v : Nat) : (s.put f v).time = s.time := rfl
@[simp] theorem State.put_host (f : Fld) (v : Nat) : (s.put f v).host = s.host := rfl
@[simp] theorem State.put_keep (f : Fld) (v : Nat) : (s.put f v).keep = s.keep := rfl
@[simp] theorem State.put_jtag (f : Fld) (v : Nat) : (s.put f v).jtag = s.jtag := rfl
@[simp] theorem State.put_pwr (f : Fld) (v : Nat) : (s.put f v).pwr = s.pwr := rfl
@[simp] theorem State.put_mport (f : Fld) (v : Nat) : (s.put f v).mport = s.mport := rfl
@[simp] theorem State.put_bkg (f : Fld) (v : Nat) : (s.put f v).bkg = s.bkg := rfl
@[simp] theorem State.put_byte (f : Fld) (v : Nat) (x : Nat) : (s.put f v).byte x = s.byte x := rfl

/-! putB -/
@[simp] theorem State.putB_mem (f : Fld) (v : Bool) : (s.putB f v).mem = s.mem := rfl
@[simp] theorem State.putB_pending (f : Fld) (v : Bool) : (s.putB f v).pending = s.pending := rfl
@[simp] theorem State.putB_fresh (f : Fld) (v : Bool) : (s.putB f v).fresh = s.fresh := rfl
@[simp] theorem State.putB_tick (f : Fld) (v : Bool) : (s.putB f v).tick = s.tick := rfl
@[simp] theorem State.putB_bus (f : Fld) (v : Bool) : (s.putB f v).bus = s.bus := rfl
@[simp] theorem State.putB_irqs (f : Fld) (v : Bool) : (s.putB f v).irqs = s.irqs := rfl
@[simp] theorem State.putB_sealApplied (f : Fld) (v : Bool) : (s.putB f v).sealApplied = s.sealApplied := rfl
@[simp] theorem State.putB_sys (f : Fld) (v : Bool) : (s.putB f v).sys = s.sys := rfl
@[simp] theorem State.putB_cores (f : Fld) (v : Bool) : (s.putB f v).cores = s.cores := rfl
@[simp] theorem State.putB_ang (f : Fld) (v : Bool) : (s.putB f v).ang = s.ang := rfl
@[simp] theorem State.putB_pos (f : Fld) (v : Bool) : (s.putB f v).pos = s.pos := rfl
@[simp] theorem State.putB_sent (f : Fld) (v : Bool) : (s.putB f v).sent = s.sent := rfl
@[simp] theorem State.putB_emu (f : Fld) (v : Bool) : (s.putB f v).emu = s.emu := rfl
@[simp] theorem State.putB_borrow (f : Fld) (v : Bool) : (s.putB f v).borrow = s.borrow := rfl
@[simp] theorem State.putB_isnsB (f : Fld) (v : Bool) : (s.putB f v).isnsB = s.isnsB := rfl
@[simp] theorem State.putB_isnsC (f : Fld) (v : Bool) : (s.putB f v).isnsC = s.isnsC := rfl
@[simp] theorem State.putB_eng (f : Fld) (v : Bool) : (s.putB f v).eng = s.eng := rfl
@[simp] theorem State.putB_mc (f : Fld) (v : Bool) : (s.putB f v).mc = s.mc := rfl
@[simp] theorem State.putB_gate (f : Fld) (v : Bool) : (s.putB f v).gate = s.gate := rfl
@[simp] theorem State.putB_driver (f : Fld) (v : Bool) : (s.putB f v).driver = s.driver := rfl
@[simp] theorem State.putB_cont (f : Fld) (v : Bool) : (s.putB f v).cont = s.cont := rfl
@[simp] theorem State.putB_peers (f : Fld) (v : Bool) : (s.putB f v).peers = s.peers := rfl
@[simp] theorem State.putB_ebp (f : Fld) (v : Bool) : (s.putB f v).ebp = s.ebp := rfl
@[simp] theorem State.putB_lines (f : Fld) (v : Bool) : (s.putB f v).lines = s.lines := rfl
@[simp] theorem State.putB_safe (f : Fld) (v : Bool) : (s.putB f v).safe = s.safe := rfl
@[simp] theorem State.putB_twin (f : Fld) (v : Bool) : (s.putB f v).twin = s.twin := rfl
@[simp] theorem State.putB_can (f : Fld) (v : Bool) : (s.putB f v).can = s.can := rfl
@[simp] theorem State.putB_usl (f : Fld) (v : Bool) : (s.putB f v).usl = s.usl := rfl
@[simp] theorem State.putB_time (f : Fld) (v : Bool) : (s.putB f v).time = s.time := rfl
@[simp] theorem State.putB_host (f : Fld) (v : Bool) : (s.putB f v).host = s.host := rfl
@[simp] theorem State.putB_keep (f : Fld) (v : Bool) : (s.putB f v).keep = s.keep := rfl
@[simp] theorem State.putB_jtag (f : Fld) (v : Bool) : (s.putB f v).jtag = s.jtag := rfl
@[simp] theorem State.putB_pwr (f : Fld) (v : Bool) : (s.putB f v).pwr = s.pwr := rfl
@[simp] theorem State.putB_mport (f : Fld) (v : Bool) : (s.putB f v).mport = s.mport := rfl
@[simp] theorem State.putB_bkg (f : Fld) (v : Bool) : (s.putB f v).bkg = s.bkg := rfl
@[simp] theorem State.putB_byte (f : Fld) (v : Bool) (x : Nat) : (s.putB f v).byte x = s.byte x := rfl

/-! putS -/
@[simp] theorem State.putS_mem (f : Fld) (v : Int) : (s.putS f v).mem = s.mem := rfl
@[simp] theorem State.putS_pending (f : Fld) (v : Int) : (s.putS f v).pending = s.pending := rfl
@[simp] theorem State.putS_fresh (f : Fld) (v : Int) : (s.putS f v).fresh = s.fresh := rfl
@[simp] theorem State.putS_tick (f : Fld) (v : Int) : (s.putS f v).tick = s.tick := rfl
@[simp] theorem State.putS_bus (f : Fld) (v : Int) : (s.putS f v).bus = s.bus := rfl
@[simp] theorem State.putS_irqs (f : Fld) (v : Int) : (s.putS f v).irqs = s.irqs := rfl
@[simp] theorem State.putS_sealApplied (f : Fld) (v : Int) : (s.putS f v).sealApplied = s.sealApplied := rfl
@[simp] theorem State.putS_sys (f : Fld) (v : Int) : (s.putS f v).sys = s.sys := rfl
@[simp] theorem State.putS_cores (f : Fld) (v : Int) : (s.putS f v).cores = s.cores := rfl
@[simp] theorem State.putS_ang (f : Fld) (v : Int) : (s.putS f v).ang = s.ang := rfl
@[simp] theorem State.putS_pos (f : Fld) (v : Int) : (s.putS f v).pos = s.pos := rfl
@[simp] theorem State.putS_sent (f : Fld) (v : Int) : (s.putS f v).sent = s.sent := rfl
@[simp] theorem State.putS_emu (f : Fld) (v : Int) : (s.putS f v).emu = s.emu := rfl
@[simp] theorem State.putS_borrow (f : Fld) (v : Int) : (s.putS f v).borrow = s.borrow := rfl
@[simp] theorem State.putS_isnsB (f : Fld) (v : Int) : (s.putS f v).isnsB = s.isnsB := rfl
@[simp] theorem State.putS_isnsC (f : Fld) (v : Int) : (s.putS f v).isnsC = s.isnsC := rfl
@[simp] theorem State.putS_eng (f : Fld) (v : Int) : (s.putS f v).eng = s.eng := rfl
@[simp] theorem State.putS_mc (f : Fld) (v : Int) : (s.putS f v).mc = s.mc := rfl
@[simp] theorem State.putS_gate (f : Fld) (v : Int) : (s.putS f v).gate = s.gate := rfl
@[simp] theorem State.putS_driver (f : Fld) (v : Int) : (s.putS f v).driver = s.driver := rfl
@[simp] theorem State.putS_cont (f : Fld) (v : Int) : (s.putS f v).cont = s.cont := rfl
@[simp] theorem State.putS_peers (f : Fld) (v : Int) : (s.putS f v).peers = s.peers := rfl
@[simp] theorem State.putS_ebp (f : Fld) (v : Int) : (s.putS f v).ebp = s.ebp := rfl
@[simp] theorem State.putS_lines (f : Fld) (v : Int) : (s.putS f v).lines = s.lines := rfl
@[simp] theorem State.putS_safe (f : Fld) (v : Int) : (s.putS f v).safe = s.safe := rfl
@[simp] theorem State.putS_twin (f : Fld) (v : Int) : (s.putS f v).twin = s.twin := rfl
@[simp] theorem State.putS_can (f : Fld) (v : Int) : (s.putS f v).can = s.can := rfl
@[simp] theorem State.putS_usl (f : Fld) (v : Int) : (s.putS f v).usl = s.usl := rfl
@[simp] theorem State.putS_time (f : Fld) (v : Int) : (s.putS f v).time = s.time := rfl
@[simp] theorem State.putS_host (f : Fld) (v : Int) : (s.putS f v).host = s.host := rfl
@[simp] theorem State.putS_keep (f : Fld) (v : Int) : (s.putS f v).keep = s.keep := rfl
@[simp] theorem State.putS_jtag (f : Fld) (v : Int) : (s.putS f v).jtag = s.jtag := rfl
@[simp] theorem State.putS_pwr (f : Fld) (v : Int) : (s.putS f v).pwr = s.pwr := rfl
@[simp] theorem State.putS_mport (f : Fld) (v : Int) : (s.putS f v).mport = s.mport := rfl
@[simp] theorem State.putS_bkg (f : Fld) (v : Int) : (s.putS f v).bkg = s.bkg := rfl
@[simp] theorem State.putS_byte (f : Fld) (v : Int) (x : Nat) : (s.putS f v).byte x = s.byte x := rfl

/-! putBit -/
@[simp] theorem State.putBit_mem (f : Fld) (i : Nat) (v : Bool) : (s.putBit f i v).mem = s.mem := rfl
@[simp] theorem State.putBit_pending (f : Fld) (i : Nat) (v : Bool) : (s.putBit f i v).pending = s.pending := rfl
@[simp] theorem State.putBit_fresh (f : Fld) (i : Nat) (v : Bool) : (s.putBit f i v).fresh = s.fresh := rfl
@[simp] theorem State.putBit_tick (f : Fld) (i : Nat) (v : Bool) : (s.putBit f i v).tick = s.tick := rfl
@[simp] theorem State.putBit_bus (f : Fld) (i : Nat) (v : Bool) : (s.putBit f i v).bus = s.bus := rfl
@[simp] theorem State.putBit_irqs (f : Fld) (i : Nat) (v : Bool) : (s.putBit f i v).irqs = s.irqs := rfl
@[simp] theorem State.putBit_sealApplied (f : Fld) (i : Nat) (v : Bool) : (s.putBit f i v).sealApplied = s.sealApplied := rfl
@[simp] theorem State.putBit_sys (f : Fld) (i : Nat) (v : Bool) : (s.putBit f i v).sys = s.sys := rfl
@[simp] theorem State.putBit_cores (f : Fld) (i : Nat) (v : Bool) : (s.putBit f i v).cores = s.cores := rfl
@[simp] theorem State.putBit_ang (f : Fld) (i : Nat) (v : Bool) : (s.putBit f i v).ang = s.ang := rfl
@[simp] theorem State.putBit_pos (f : Fld) (i : Nat) (v : Bool) : (s.putBit f i v).pos = s.pos := rfl
@[simp] theorem State.putBit_sent (f : Fld) (i : Nat) (v : Bool) : (s.putBit f i v).sent = s.sent := rfl
@[simp] theorem State.putBit_emu (f : Fld) (i : Nat) (v : Bool) : (s.putBit f i v).emu = s.emu := rfl
@[simp] theorem State.putBit_borrow (f : Fld) (i : Nat) (v : Bool) : (s.putBit f i v).borrow = s.borrow := rfl
@[simp] theorem State.putBit_isnsB (f : Fld) (i : Nat) (v : Bool) : (s.putBit f i v).isnsB = s.isnsB := rfl
@[simp] theorem State.putBit_isnsC (f : Fld) (i : Nat) (v : Bool) : (s.putBit f i v).isnsC = s.isnsC := rfl
@[simp] theorem State.putBit_eng (f : Fld) (i : Nat) (v : Bool) : (s.putBit f i v).eng = s.eng := rfl
@[simp] theorem State.putBit_mc (f : Fld) (i : Nat) (v : Bool) : (s.putBit f i v).mc = s.mc := rfl
@[simp] theorem State.putBit_gate (f : Fld) (i : Nat) (v : Bool) : (s.putBit f i v).gate = s.gate := rfl
@[simp] theorem State.putBit_driver (f : Fld) (i : Nat) (v : Bool) : (s.putBit f i v).driver = s.driver := rfl
@[simp] theorem State.putBit_cont (f : Fld) (i : Nat) (v : Bool) : (s.putBit f i v).cont = s.cont := rfl
@[simp] theorem State.putBit_peers (f : Fld) (i : Nat) (v : Bool) : (s.putBit f i v).peers = s.peers := rfl
@[simp] theorem State.putBit_ebp (f : Fld) (i : Nat) (v : Bool) : (s.putBit f i v).ebp = s.ebp := rfl
@[simp] theorem State.putBit_lines (f : Fld) (i : Nat) (v : Bool) : (s.putBit f i v).lines = s.lines := rfl
@[simp] theorem State.putBit_safe (f : Fld) (i : Nat) (v : Bool) : (s.putBit f i v).safe = s.safe := rfl
@[simp] theorem State.putBit_twin (f : Fld) (i : Nat) (v : Bool) : (s.putBit f i v).twin = s.twin := rfl
@[simp] theorem State.putBit_can (f : Fld) (i : Nat) (v : Bool) : (s.putBit f i v).can = s.can := rfl
@[simp] theorem State.putBit_usl (f : Fld) (i : Nat) (v : Bool) : (s.putBit f i v).usl = s.usl := rfl
@[simp] theorem State.putBit_time (f : Fld) (i : Nat) (v : Bool) : (s.putBit f i v).time = s.time := rfl
@[simp] theorem State.putBit_host (f : Fld) (i : Nat) (v : Bool) : (s.putBit f i v).host = s.host := rfl
@[simp] theorem State.putBit_keep (f : Fld) (i : Nat) (v : Bool) : (s.putBit f i v).keep = s.keep := rfl
@[simp] theorem State.putBit_jtag (f : Fld) (i : Nat) (v : Bool) : (s.putBit f i v).jtag = s.jtag := rfl
@[simp] theorem State.putBit_pwr (f : Fld) (i : Nat) (v : Bool) : (s.putBit f i v).pwr = s.pwr := rfl
@[simp] theorem State.putBit_mport (f : Fld) (i : Nat) (v : Bool) : (s.putBit f i v).mport = s.mport := rfl
@[simp] theorem State.putBit_bkg (f : Fld) (i : Nat) (v : Bool) : (s.putBit f i v).bkg = s.bkg := rfl
@[simp] theorem State.putBit_byte (f : Fld) (i : Nat) (v : Bool) (x : Nat) : (s.putBit f i v).byte x = s.byte x := rfl

/-! setByte -/
@[simp] theorem State.setByte_regs (a : Nat) (v : Byte) : (s.setByte a v).regs = s.regs := rfl
@[simp] theorem State.setByte_mem (a : Nat) (v : Byte) : (s.setByte a v).mem = if isMemory a then Tab.put blankByte s.mem a v else s.mem := rfl
@[simp] theorem State.setByte_pending (a : Nat) (v : Byte) : (s.setByte a v).pending = s.pending := rfl
@[simp] theorem State.setByte_fresh (a : Nat) (v : Byte) : (s.setByte a v).fresh = s.fresh := rfl
@[simp] theorem State.setByte_tick (a : Nat) (v : Byte) : (s.setByte a v).tick = s.tick := rfl
@[simp] theorem State.setByte_bus (a : Nat) (v : Byte) : (s.setByte a v).bus = s.bus := rfl
@[simp] theorem State.setByte_irqs (a : Nat) (v : Byte) : (s.setByte a v).irqs = s.irqs := rfl
@[simp] theorem State.setByte_sealApplied (a : Nat) (v : Byte) : (s.setByte a v).sealApplied = s.sealApplied := rfl
@[simp] theorem State.setByte_sys (a : Nat) (v : Byte) : (s.setByte a v).sys = s.sys := rfl
@[simp] theorem State.setByte_cores (a : Nat) (v : Byte) : (s.setByte a v).cores = s.cores := rfl
@[simp] theorem State.setByte_ang (a : Nat) (v : Byte) : (s.setByte a v).ang = s.ang := rfl
@[simp] theorem State.setByte_pos (a : Nat) (v : Byte) : (s.setByte a v).pos = s.pos := rfl
@[simp] theorem State.setByte_sent (a : Nat) (v : Byte) : (s.setByte a v).sent = s.sent := rfl
@[simp] theorem State.setByte_emu (a : Nat) (v : Byte) : (s.setByte a v).emu = s.emu := rfl
@[simp] theorem State.setByte_borrow (a : Nat) (v : Byte) : (s.setByte a v).borrow = s.borrow := rfl
@[simp] theorem State.setByte_isnsB (a : Nat) (v : Byte) : (s.setByte a v).isnsB = s.isnsB := rfl
@[simp] theorem State.setByte_isnsC (a : Nat) (v : Byte) : (s.setByte a v).isnsC = s.isnsC := rfl
@[simp] theorem State.setByte_eng (a : Nat) (v : Byte) : (s.setByte a v).eng = s.eng := rfl
@[simp] theorem State.setByte_mc (a : Nat) (v : Byte) : (s.setByte a v).mc = s.mc := rfl
@[simp] theorem State.setByte_gate (a : Nat) (v : Byte) : (s.setByte a v).gate = s.gate := rfl
@[simp] theorem State.setByte_driver (a : Nat) (v : Byte) : (s.setByte a v).driver = s.driver := rfl
@[simp] theorem State.setByte_cont (a : Nat) (v : Byte) : (s.setByte a v).cont = s.cont := rfl
@[simp] theorem State.setByte_peers (a : Nat) (v : Byte) : (s.setByte a v).peers = s.peers := rfl
@[simp] theorem State.setByte_ebp (a : Nat) (v : Byte) : (s.setByte a v).ebp = s.ebp := rfl
@[simp] theorem State.setByte_lines (a : Nat) (v : Byte) : (s.setByte a v).lines = s.lines := rfl
@[simp] theorem State.setByte_safe (a : Nat) (v : Byte) : (s.setByte a v).safe = s.safe := rfl
@[simp] theorem State.setByte_twin (a : Nat) (v : Byte) : (s.setByte a v).twin = s.twin := rfl
@[simp] theorem State.setByte_can (a : Nat) (v : Byte) : (s.setByte a v).can = s.can := rfl
@[simp] theorem State.setByte_usl (a : Nat) (v : Byte) : (s.setByte a v).usl = s.usl := rfl
@[simp] theorem State.setByte_time (a : Nat) (v : Byte) : (s.setByte a v).time = s.time := rfl
@[simp] theorem State.setByte_host (a : Nat) (v : Byte) : (s.setByte a v).host = s.host := rfl
@[simp] theorem State.setByte_keep (a : Nat) (v : Byte) : (s.setByte a v).keep = s.keep := rfl
@[simp] theorem State.setByte_jtag (a : Nat) (v : Byte) : (s.setByte a v).jtag = s.jtag := rfl
@[simp] theorem State.setByte_pwr (a : Nat) (v : Byte) : (s.setByte a v).pwr = s.pwr := rfl
@[simp] theorem State.setByte_mport (a : Nat) (v : Byte) : (s.setByte a v).mport = s.mport := rfl
@[simp] theorem State.setByte_bkg (a : Nat) (v : Byte) : (s.setByte a v).bkg = s.bkg := rfl
@[simp] theorem State.setByte_rd (a : Nat) (v : Byte) (x : Nat) : (s.setByte a v).rd x = s.rd x := rfl
@[simp] theorem State.setByte_get (a : Nat) (v : Byte) (g : Fld) : (s.setByte a v).get g = s.get g := rfl
@[simp] theorem State.setByte_on (a : Nat) (v : Byte) (g : Fld) : (s.setByte a v).on g = s.on g := rfl
@[simp] theorem State.setByte_bit (a : Nat) (v : Byte) (g : Fld) (i : Nat) : (s.setByte a v).bit g i = s.bit g i := rfl

/-! drew -/
@[simp] theorem State.drew_regs : s.drew.regs = s.regs := rfl
@[simp] theorem State.drew_mem : s.drew.mem = s.mem := rfl
@[simp] theorem State.drew_pending : s.drew.pending = s.pending := rfl
@[simp] theorem State.drew_fresh : s.drew.fresh = s.fresh + 1 := rfl
@[simp] theorem State.drew_tick : s.drew.tick = s.tick := rfl
@[simp] theorem State.drew_bus : s.drew.bus = s.bus := rfl
@[simp] theorem State.drew_irqs : s.drew.irqs = s.irqs := rfl
@[simp] theorem State.drew_sealApplied : s.drew.sealApplied = s.sealApplied := rfl
@[simp] theorem State.drew_sys : s.drew.sys = s.sys := rfl
@[simp] theorem State.drew_cores : s.drew.cores = s.cores := rfl
@[simp] theorem State.drew_ang : s.drew.ang = s.ang := rfl
@[simp] theorem State.drew_pos : s.drew.pos = s.pos := rfl
@[simp] theorem State.drew_sent : s.drew.sent = s.sent := rfl
@[simp] theorem State.drew_emu : s.drew.emu = s.emu := rfl
@[simp] theorem State.drew_borrow : s.drew.borrow = s.borrow := rfl
@[simp] theorem State.drew_isnsB : s.drew.isnsB = s.isnsB := rfl
@[simp] theorem State.drew_isnsC : s.drew.isnsC = s.isnsC := rfl
@[simp] theorem State.drew_eng : s.drew.eng = s.eng := rfl
@[simp] theorem State.drew_mc : s.drew.mc = s.mc := rfl
@[simp] theorem State.drew_gate : s.drew.gate = s.gate := rfl
@[simp] theorem State.drew_driver : s.drew.driver = s.driver := rfl
@[simp] theorem State.drew_cont : s.drew.cont = s.cont := rfl
@[simp] theorem State.drew_peers : s.drew.peers = s.peers := rfl
@[simp] theorem State.drew_ebp : s.drew.ebp = s.ebp := rfl
@[simp] theorem State.drew_lines : s.drew.lines = s.lines := rfl
@[simp] theorem State.drew_safe : s.drew.safe = s.safe := rfl
@[simp] theorem State.drew_twin : s.drew.twin = s.twin := rfl
@[simp] theorem State.drew_can : s.drew.can = s.can := rfl
@[simp] theorem State.drew_usl : s.drew.usl = s.usl := rfl
@[simp] theorem State.drew_time : s.drew.time = s.time := rfl
@[simp] theorem State.drew_host : s.drew.host = s.host := rfl
@[simp] theorem State.drew_keep : s.drew.keep = s.keep := rfl
@[simp] theorem State.drew_jtag : s.drew.jtag = s.jtag := rfl
@[simp] theorem State.drew_pwr : s.drew.pwr = s.pwr := rfl
@[simp] theorem State.drew_mport : s.drew.mport = s.mport := rfl
@[simp] theorem State.drew_bkg : s.drew.bkg = s.bkg := rfl
@[simp] theorem State.drew_rd  (x : Nat) : s.drew.rd x = s.rd x := rfl
@[simp] theorem State.drew_get  (g : Fld) : s.drew.get g = s.get g := rfl
@[simp] theorem State.drew_on  (g : Fld) : s.drew.on g = s.on g := rfl
@[simp] theorem State.drew_bit  (g : Fld) (i : Nat) : s.drew.bit g i = s.bit g i := rfl
@[simp] theorem State.drew_byte  (x : Nat) : s.drew.byte x = s.byte x := rfl

/-! raise -/
@[simp] theorem State.raise_regs (i : Irq) : (s.raise i).regs = s.regs := by unfold State.raise; split <;> rfl
@[simp] theorem State.raise_mem (i : Irq) : (s.raise i).mem = s.mem := by unfold State.raise; split <;> rfl
@[simp] theorem State.raise_pending (i : Irq) : (s.raise i).pending = s.pending := by unfold State.raise; split <;> rfl
@[simp] theorem State.raise_fresh (i : Irq) : (s.raise i).fresh = s.fresh := by unfold State.raise; split <;> rfl
@[simp] theorem State.raise_tick (i : Irq) : (s.raise i).tick = s.tick := by unfold State.raise; split <;> rfl
@[simp] theorem State.raise_bus (i : Irq) : (s.raise i).bus = s.bus := by unfold State.raise; split <;> rfl
@[simp] theorem State.raise_sealApplied (i : Irq) : (s.raise i).sealApplied = s.sealApplied := by unfold State.raise; split <;> rfl
@[simp] theorem State.raise_sys (i : Irq) : (s.raise i).sys = s.sys := by unfold State.raise; split <;> rfl
@[simp] theorem State.raise_cores (i : Irq) : (s.raise i).cores = s.cores := by unfold State.raise; split <;> rfl
@[simp] theorem State.raise_ang (i : Irq) : (s.raise i).ang = s.ang := by unfold State.raise; split <;> rfl
@[simp] theorem State.raise_pos (i : Irq) : (s.raise i).pos = s.pos := by unfold State.raise; split <;> rfl
@[simp] theorem State.raise_sent (i : Irq) : (s.raise i).sent = s.sent := by unfold State.raise; split <;> rfl
@[simp] theorem State.raise_emu (i : Irq) : (s.raise i).emu = s.emu := by unfold State.raise; split <;> rfl
@[simp] theorem State.raise_borrow (i : Irq) : (s.raise i).borrow = s.borrow := by unfold State.raise; split <;> rfl
@[simp] theorem State.raise_isnsB (i : Irq) : (s.raise i).isnsB = s.isnsB := by unfold State.raise; split <;> rfl
@[simp] theorem State.raise_isnsC (i : Irq) : (s.raise i).isnsC = s.isnsC := by unfold State.raise; split <;> rfl
@[simp] theorem State.raise_eng (i : Irq) : (s.raise i).eng = s.eng := by unfold State.raise; split <;> rfl
@[simp] theorem State.raise_mc (i : Irq) : (s.raise i).mc = s.mc := by unfold State.raise; split <;> rfl
@[simp] theorem State.raise_gate (i : Irq) : (s.raise i).gate = s.gate := by unfold State.raise; split <;> rfl
@[simp] theorem State.raise_driver (i : Irq) : (s.raise i).driver = s.driver := by unfold State.raise; split <;> rfl
@[simp] theorem State.raise_cont (i : Irq) : (s.raise i).cont = s.cont := by unfold State.raise; split <;> rfl
@[simp] theorem State.raise_peers (i : Irq) : (s.raise i).peers = s.peers := by unfold State.raise; split <;> rfl
@[simp] theorem State.raise_ebp (i : Irq) : (s.raise i).ebp = s.ebp := by unfold State.raise; split <;> rfl
@[simp] theorem State.raise_lines (i : Irq) : (s.raise i).lines = s.lines := by unfold State.raise; split <;> rfl
@[simp] theorem State.raise_safe (i : Irq) : (s.raise i).safe = s.safe := by unfold State.raise; split <;> rfl
@[simp] theorem State.raise_twin (i : Irq) : (s.raise i).twin = s.twin := by unfold State.raise; split <;> rfl
@[simp] theorem State.raise_can (i : Irq) : (s.raise i).can = s.can := by unfold State.raise; split <;> rfl
@[simp] theorem State.raise_usl (i : Irq) : (s.raise i).usl = s.usl := by unfold State.raise; split <;> rfl
@[simp] theorem State.raise_time (i : Irq) : (s.raise i).time = s.time := by unfold State.raise; split <;> rfl
@[simp] theorem State.raise_host (i : Irq) : (s.raise i).host = s.host := by unfold State.raise; split <;> rfl
@[simp] theorem State.raise_keep (i : Irq) : (s.raise i).keep = s.keep := by unfold State.raise; split <;> rfl
@[simp] theorem State.raise_jtag (i : Irq) : (s.raise i).jtag = s.jtag := by unfold State.raise; split <;> rfl
@[simp] theorem State.raise_pwr (i : Irq) : (s.raise i).pwr = s.pwr := by unfold State.raise; split <;> rfl
@[simp] theorem State.raise_mport (i : Irq) : (s.raise i).mport = s.mport := by unfold State.raise; split <;> rfl
@[simp] theorem State.raise_bkg (i : Irq) : (s.raise i).bkg = s.bkg := by unfold State.raise; split <;> rfl
@[simp] theorem State.raise_rd (i : Irq) (x : Nat) : (s.raise i).rd x = s.rd x := by unfold State.raise; split <;> rfl
@[simp] theorem State.raise_get (i : Irq) (g : Fld) : (s.raise i).get g = s.get g := by unfold State.raise; split <;> rfl
@[simp] theorem State.raise_byte (i : Irq) (x : Nat) : (s.raise i).byte x = s.byte x := by unfold State.raise; split <;> rfl

end

end Sys2Proof.Machine
end

