-- ==== Sys2Proof/Machine/Balls.lean ====
section
/-!
DEFINITION. The output balls of R627 with the levels they show between two commands: what a command sends on a line lies within it.
-/
namespace Sys2Proof.Machine

/-- The level of an output ball: low, high, high impedance, an open drain pulled low or released, a gate held to its switch's source, Ebpen's
idle commas, a clock of a frequency in MHz, and what the boundary scan's cells drive, whose order over the balls is the device's
boundary-scan description's. -/
inductive BallLevel where
  | low | high | highZ | released | pulledLow | heldToSource | idleCommas | clock (mhz : Nat) | scanned | traced
  deriving DecidableEq, Repr

/-- A level as a ball. -/
def levelOf (b : Bool) : BallLevel := if b then .high else .low

/-- A low-voltage output (R627): at high impedance without VIO, under the boundary scan while EXTEST, CLAMP or HIGHZ is in force (R581). -/
def vioBall (own : BallLevel) (s : State) : BallLevel :=
  if !s.pwr.aoPowered then .highZ
  else match s.jtag.drive with | .normal => own | .driven _ => .scanned | .highZ => .highZ

/-! ## The balls of the VIO domain -/

/-- CTX0 to CTX3: high, the recessive level: a frame lies within a command. -/
def ctxBall (_n : CanCtl) (s : State) : BallLevel := vioBall .high s

/-- UTX0 and UTX1: the level of the poll's bit that is being sent (R483, R484), high at rest. -/
def utxBall (c : Fin 2) (s : State) : BallLevel := vioBall (levelOf (uslLevel s c)) s

/-- UDE0 and UDE1: high while USL transmits on the channel (R483). -/
def udeBall (c : Fin 2) (s : State) : BallLevel := vioBall (levelOf (uslTransmits s c)) s

/-- HSDO: no transaction is under way. -/
def hsdoBall (s : State) : BallLevel := vioBall .highZ s

/-- HRDY_N: low while at least one reply is queued for the host (R520). -/
def hrdyBall (s : State) : BallLevel := vioBall (levelOf ((channel s .spi).replies.isEmpty)) s

/-- LEADOUT (R385). -/
def leadoutBall (s : State) : BallLevel := if s.cont.leadZ then .highZ else vioBall (levelOf s.cont.leadOut) s

/-- MCLK0 and MCLK1 (R183): a clock while the bridge converts externally. -/
def mclkBall (b : Bridge) (s : State) : BallLevel :=
  vioBall (if s.on (extFld b) && !coreStopped s then .clock (200 / modClock s b) else .low) s

/-- EMUA, EMUB, EMUZ (R176). -/
def emuaBall (s : State) : BallLevel := vioBall (levelOf s.emu.a) s
def emubBall (s : State) : BallLevel := vioBall (levelOf s.emu.b) s
def emuzBall (s : State) : BallLevel := vioBall (levelOf s.emu.z) s

/-- CMPOUT0 to CMPOUT3 (R173): compare unit j of POS block k drives 2k + j. -/
def cmpBall (k : PosBlk) (j : Fin 2) (s : State) : BallLevel := vioBall (levelOf (s.on (F.POS_CMPSTAT_LEVEL k j))) s

/-- The cue event lines CUEA0 to CUEA3 and CUEB0 to CUEB3 (R126). -/
def cueBall (b : Bridge) (i : Fin 4) (s : State) : BallLevel := vioBall (levelOf (s.ang[b.val].lines.getLsbD i)) s

/-- The Ebpen transmitters: idle commas from EN on, high impedance unpowered. -/
def ebpBall (e : Port) (s : State) : BallLevel := vioBall (if s.on (F.EBP_CTRL_EN e) then .idleCommas else .low) s

/-- CORE_EN (R584): low in DEEP, low through its resistor without VIO. -/
def coreEnBall (s : State) : BallLevel := if s.pwr.aoPowered then vioBall (levelOf s.pwr.coreEn) s else .low

/-- MSCL and MSDA: SCL held low while the port stretches the clock (R597), SDA released outside a transfer, which one
command makes whole. -/
def msclBall (s : State) : BallLevel := if s.pwr.aoPowered && s.mport.stretch then .pulledLow else .released
def msdaBall : BallLevel := .released

/-- TDO: at high impedance outside a shift, which one command makes whole. -/
def tdoBall : BallLevel := .highZ

/-- The trace port: enabled while debug is open (R582). -/
def traceBall (s : State) : BallLevel := vioBall (if s.on F.KEEP_STAT_DBGOPEN && s.get F.DBG_TRACE_SRC != 0 then .traced else .low) s

/-! ## The balls of the high-voltage zone -/

/-- Whether the supplies of the high-voltage zone are gone: in OFF and while VMOT is absent, from which they are made (R583, R627). -/
def hvAbsent (s : State) : Bool := s.keep.vmotLow || (!s.pwr.aoPowered && (!s.pwr.pwren || s.pwr.wake.isSome))

/-- PWREN (R584): pulled low in OFF, released while VMOT is absent. -/
def pwrenBall (s : State) : BallLevel := if s.pwr.pwren || s.keep.vmotLow then .released else .pulledLow

/-- CHOP (R358): low without VDRV. -/
def chopBall (s : State) : BallLevel := levelOf (s.on F.VBUS_STAT_CHOP && !hvAbsent s)

/-- ISOH and ISOL of a bridge (R439): low without VCP and VDRV. -/
def isohBall (b : Bridge) (s : State) : BallLevel := levelOf (bitAt s.safe.isoH.toNat b && !hvAbsent s)
def isolBall (b : Bridge) (s : State) : BallLevel := levelOf (bitAt s.safe.isoL.toNat b && !hvAbsent s)

/-- A gate output: driven on from the pre-charge to the on hold, held to its switch's source in the off hold, drawn down on the way there. -/
def gateBall (b : Bridge) (j : Switch) (s : State) : BallLevel :=
  match s.gate[b.val].sw[j.val].phase with
  | .offHold => .heldToSource
  | p => levelOf p.isOn

end Sys2Proof.Machine
end

