-- ==== Sys2Proof/WellFormed.lean ====
section
/-!
DEFINITION. Which commands are well formed: the ranges the spec gives their operands. Every other value of an operand is legal;
what the lane makes of it is the meaning's matter.
-/
namespace Sys2Proof

/-- An Ebpen frame of a TYPE whose CRC holds carries as many payload bytes as its LEN counts, in words (R375). -/
def ebpFrameWf (ty : Nat) (f : EbpFrame) : Bool := f.crc != Machine.frameCrc ty f || decide (f.payload.length = 4 * f.len.toNat)

/-- The data bytes a DLC stands for (R457). -/
def dlcLength (fd : Bool) (dlc : Nat) : Nat :=
  if dlc ≤ 8 then dlc
  else if !fd then 8
  else [12, 16, 20, 24, 32, 48, 64].getD (dlc - 9) 64

/-- A CAN frame has the data its DLC says, none as a remote frame, and an 11-bit identifier in base format. -/
def canFrameWf (f : CanFrame) : Bool :=
  decide (f.data.length = (if f.rtr then 0 else dlcLength f.fd f.dlc.toNat)) && (f.ext || decide (f.id.toNat < 2048))

/-- The sense samples of a second are each of another sample window, in the order of their ticks (R611). -/
def samplesWf (centres : List Nat) (sensed : List Int) : Bool :=
  decide (centres.length = sensed.length) && (centres.zip (centres.drop 1)).all (fun x => decide (x.1 < x.2))

/-- A channel's calibration takes 32 windows with its input at zero (R201). -/
def trimWf (m : TrimReading) : Bool := decide (m.zeros.length = 32)

/-- A start finds twelve gate outputs, twelve sense cells and four current channels (R364, R367, R180). -/
def startInputsWf (i : StartInputs) : Bool :=
  decide (i.segments.length = 12) && decide (i.snsTrims.length = 12) && decide (i.isns.length = 4) && i.isns.all trimWf

/-- A well-formed command. -/
def Instr.wf : Instr → Bool
  | .registerWrite _ _ _ => true
  | .readClear _ _ => true
  | .memoryAccess _ _ => true
  | .serviceRestart => true
  | .gafferRestart => true
  | .buserrValidClear => true
  | .configLinkFrame => true
  | .configLinkLoss => true
  | .logicLinkLoss => true
  | .clockMonitorWindow _ _ => true
  | .pllLossOfLock => true
  | .dcacheInvalidate _ _ => true
  | .fenceI _ => true
  | .checkpointSignature _ _ => true
  | .checkedEgressWrite _ _ _ _ => true
  | .lockstepFault _ _ => true
  | .vLockstepReaction => true
  | .dblFaultClear _ => true
  | .asyncInputChange _ _ _ _ => true
  | .pairRelease _ => true
  | .injectionTestStart _ => true
  | .injectionTestDone _ => true
  | .debugHalt _ => true
  | .debugResume _ => true
  | .debugSingleStep _ => true
  | .debugRegisterAccess _ _ _ => true
  | .debugProgramBuffer _ _ => true
  | .debugTriggerWrite _ _ _ => true
  | .angleClockTick => true
  | .angleReload _ => true
  | .stillTimeout _ => true
  | .angSrcWrite _ _ => true
  | .angEnable _ => true
  | .cueFallbackFire _ _ => true
  | .cueDispatch _ => true
  | .cueLinePulseEnd _ _ => true
  | .cuePosWrite _ _ _ => true
  | .cueCfgWrite _ _ _ => true
  | .carrierValley _ _ => true
  | .carrierPeak _ _ => true
  | .sincosSample _ _ _ => true
  | .abzEdge _ _ _ => true
  | .edgeResample _ _ => true
  | .indexEdge _ _ => true
  | .hallEdge _ _ => true
  | .sentFrame _ _ => true
  | .sentTimeout _ => true
  | .edgeStandstill _ _ => true
  | .creepSample _ _ => true
  | .mtSet _ _ => true
  | .posReval _ _ => true
  | .sentReval _ => true
  | .borrowTimeout => true
  | .compareValWrite _ _ => true
  | .emuStep => true
  | .windowOpen _ _ => true
  | .windowEnd _ l1 l2 => decide (l1.length ≤ 384) && decide (l2.length ≤ 384)
  | .bitstreamSaturation _ => true
  | .bitstreamStuck _ => true
  | .sampleTimeout _ => true
  | .isnsReval _ => true
  | .meanWindowEnd => true
  | .meanPublish => true
  | .vCurrentCompare _ _ _ _ => true
  | .vVmotCompare _ => true
  | .vRailCheck _ _ _ _ => true
  | .calibrationRequest _ => true
  | .calibrationDone _ m1 m2 => trimWf m1 && trimWf m2
  | .calibrationAbort _ _ => true
  | .activationDispatch _ => true
  | .softwareTrigger _ _ => true
  | .engineEnable _ => true
  | .loopOpenRequest _ _ => true
  | .bankSwitchRequest _ _ => true
  | .bindWrite _ _ => true
  | .coefficientWrite _ _ _ _ _ => true
  | .engineRestart _ => true
  | .engineFault _ _ => true
  | .engineWatchdog _ => true
  | .engineParityError _ => true
  | .mov _ _ _ => true
  | .ldi _ _ _ => true
  | .add _ _ _ _ => true
  | .adds _ _ _ _ => true
  | .sub _ _ _ _ => true
  | .subs _ _ _ _ => true
  | .neg _ _ _ => true
  | .negs _ _ _ => true
  | .abs _ _ _ => true
  | .min _ _ _ _ => true
  | .max _ _ _ _ => true
  | .shl _ _ _ _ => true
  | .shr _ _ _ _ => true
  | .andOp _ _ _ _ => true
  | .orOp _ _ _ _ => true
  | .xorOp _ _ _ _ => true
  | .cmp _ _ _ => true
  | .ld _ _ _ => true
  | .st _ _ _ => true
  | .ldc _ _ _ => true
  | .stc _ _ _ => true
  | .mpy _ _ _ => true
  | .mac _ _ _ => true
  | .msu _ _ _ => true
  | .dmac _ _ _ => true
  | .dmsu _ _ _ => true
  | .dmpy _ _ _ => true
  | .clr _ _ => true
  | .ash _ _ n => decide (-8 ≤ n ∧ n ≤ 8)
  | .rnd _ _ _ => true
  | .rndc _ _ _ => true
  | .intg _ _ _ _ _ => true
  | .biq _ _ _ _ _ => true
  | .sincos _ _ _ _ => true
  | .atan2 _ _ _ _ => true
  | .sqrt _ _ _ => true
  | .div _ _ _ _ => true
  | .br _ _ => true
  | .brc _ _ _ => true
  | .loopOp _ count _ => decide (1 ≤ count ∧ count ≤ 4096)
  | .setc _ ix len => decide (ix.val < 4 ∧ 2 ≤ len ∧ len ≤ 256)
  | .inPort _ _ _ => true
  | .outPort _ _ _ => true
  | .outPortL _ _ _ => true
  | .postedWriteComplete e => !e.isEmpty
  | .trig _ _ _ => true
  | .endAct _ => true
  | .illegalInstruction _ => true
  | .dCapture _ => true
  | .dutyCommit _ _ => true
  | .clampEnd _ => true
  | .comparatorReport _ _ _ => true
  | .zcWindowMiss _ => true
  | .startDecision _ _ => true
  | .listenTimeout _ => true
  | .modeReqOff _ _ => true
  | .modeReqReturn _ _ => true
  | .mcEnableWrite _ _ => true
  | .gateCommandEdge _ _ _ => true
  | .gateWatchAdmit _ _ => true
  | .gateWatchTimeout _ _ => true
  | .gatePhaseEnd _ _ => true
  | .slopeTimeout _ _ => true
  | .gateSagFault _ _ => true
  | .blankingEnd _ _ => true
  | .hardShortTrip _ _ => true
  | .normalShortTrip _ _ => true
  | .legEnable _ _ => true
  | .vmotMeasure _ => true
  | .ov1Reached => true
  | .ov1Ended => true
  | .ov2Reached => true
  | .ov2Ended => true
  | .undervoltageBegin _ _ => true
  | .undervoltageEnd => true
  | .driverPowerUp => true
  | .linkTrainingDone _ _ _ _ _ => true
  | .linkLost _ => true
  | .linkRetrain _ => true
  | .retrainRequest _ => true
  | .noticeReceived _ f => ebpFrameWf 1 f
  | .claimReceived _ f => ebpFrameWf 2 f
  | .xcurReceived _ f => ebpFrameWf 3 f
  | .xrefReceived _ f => ebpFrameWf 4 f
  | .setopReceived _ f => ebpFrameWf 5 f
  | .setopApply => true
  | .beatReceived _ f => ebpFrameWf 6 f
  | .beatSend => true
  | .contFrameReceived _ f => ebpFrameWf 7 f
  | .continuitySlot => true
  | .shareReceived _ f => ebpFrameWf 8 f
  | .formReceived _ f => ebpFrameWf 9 f
  | .trainReceived _ f => ebpFrameWf 15 f
  | .formationWindowEnd => true
  | .slateReceived _ _ _ => true
  | .leadinEdge _ _ => true
  | .beatStopTimeout _ => true
  | .continuityCheck => true
  | .transferTick => true
  | .claimWaitTimeout => true
  | .withdrawRequest => true
  | .swapRequest _ => true
  | .switchbackGo => true
  | .plannedHandover => true
  | .laneStatusSend => true
  | .laneStatusReceived _ _ data => decide (data.length ≤ 64)
  | .laneStatusTimeout _ => true
  | .xrefDeadline => true
  | .chassisBroadcastReceived _ data => decide (data.length ≤ 64)
  | .supervisorKick => true
  | .supervisorWatchdogExpiry => true
  | .cutSetCommand _ => true
  | .commandClear => true
  | .causeClear _ => true
  | .stopNLowQualified => true
  | .stopNHighQualified => true
  | .resumePulse _ _ => true
  | .resumeJam => true
  | .resumeJamClear => true
  | .armWindowExpiry => true
  | .supervisorReplyTimeout _ => true
  | .isolationClose _ => true
  | .isolationOpen _ => true
  | .isoFeedbackChange _ _ => true
  | .isoFeedbackTimeout _ => true
  | .twinVerdict _ => true
  | .vNetstopReaction => true
  | .canFrameReceived _ f => canFrameWf f
  | .canWindowWrite _ _ _ => true
  | .transmitRequest _ _ => true
  | .arbitration _ _ _ => true
  | .transmitComplete _ => true
  | .transmitError _ _ => true
  | .transmitCancel _ _ => true
  | .busOffRecover _ => true
  | .recoveryDone _ => true
  | .busOffRecoverTimer _ => true
  | .opmodeWrite _ _ => true
  | .busIdle _ => true
  | .canEnableWrite _ _ => true
  | .bitrateDetectStart _ => true
  | .abdCandidateTimeout _ => true
  | .usileEnable _ _ => true
  | .usileCycleStart => true
  | .pollStart _ _ => true
  | .pollEnd _ => true
  | .replyReceived _ _ => true
  | .replyWindowTimeout _ => true
  | .usileCycleEnd => true
  | .secondMasterDetected _ _ => true
  | .deferEnd => true
  | .pollObserved _ _ _ => true
  | .timeNsRead _ => true
  | .timeRateWrite _ => true
  | .timeStep _ => true
  | .ucycNsRead _ => true
  | .uptimeRead _ => true
  | .syncSend _ _ _ => true
  | .syncSample _ _ _ _ _ => true
  | .syncTimeout => true
  | .spiWriteTransaction _ => true
  | .spiReadTransaction _ => true
  | .canCommandFrame _ bytes => decide (bytes.length ≤ 64)
  | .mailboxAck => true
  | .mailboxTimeout => true
  | .sessionTimeout => true
  | .hostDisable => true
  | .nop _ => true
  | .openSession _ => true
  | .closeSession _ => true
  | .info _ => true
  | .echo _ => true
  | .lanestat _ => true
  | .readreg _ => true
  | .faults _ => true
  | .position _ => true
  | .writereg _ => true
  | .appcmd _ => true
  | .cfgload _ => true
  | .cfgcommit _ => true
  | .imgload _ => true
  | .imgcommit _ => true
  | .setpoint _ => true
  | .drive _ => true
  | .haltMotion _ => true
  | .withdraw _ => true
  | .handover _ => true
  | .resarm _ => true
  | .resconfirm _ => true
  | .switchback _ => true
  | .safestat _ => true
  | .timeget _ => true
  | .timeset _ => true
  | .reelread _ => true
  | .logread _ => true
  | .ledger _ => true
  | .attest _ => true
  | .measure _ => true
  | .relchal _ => true
  | .releaseStandDown _ => true
  | .dbgchal _ => true
  | .dbgopen _ => true
  | .pwrget _ => true
  | .pwrvote _ => true
  | .wakerec _ => true
  | .vendorService _ => true
  | .challengeLapse _ => true
  | .powerOnReset _ => true
  | .resetRelease => true
  | .warmResetCsr _ _ => true
  | .warmResetRequest _ => true
  | .coldResetRequest _ => true
  | .coldStart inp => startInputsWf inp
  | .warmStart inp => startInputsWf inp
  | .startupDone _ _ => true
  | .startupWriteTimeout => true
  | .driveReady => true
  | .startFailure _ _ => true
  | .failedStartWaitEnd => true
  | .releaseRestart => true
  | .standDownClear => true
  | .extest _ => true
  | .idcode => true
  | .samplePreload _ => true
  | .clampPins => true
  | .highz => true
  | .dtmcs _ => true
  | .dmi _ => true
  | .provision _ _ => true
  | .bypass => true
  | .traceSelectWrite _ => true
  | .voteWrite _ _ => true
  | .hostVoteWrite _ _ => true
  | .powerEntryDone => true
  | .pairGate _ => true
  | .wakeAccepted _ => true
  | .mportAddressMatch _ _ => true
  | .mportClockRelease => true
  | .timerWake => true
  | .sleepExit _ => true
  | .deepExit _ => true
  | .offExit _ => true
  | .mportWrite _ => true
  | .mportRead _ => true
  | .sentinelTrip _ => true
  | .sentinelRecovery _ => true
  | .vmotHoldFall => true
  | .vmotHoldRise => true
  | .scrubRead _ _ => true
  | .dataNvmMarginPass _ => true
  | .codeNvmMarginPass _ => true
  | .calibrationPeriod => true
  | .calibrationRetry _ => true
  | .senseTrimUpdate _ _ l v => samplesWf l v
  | .counterMirror => true
  | .counterSnapshot => true
  | .reelSubmit _ rec => decide (rec.length = 22)
  | .reelMove => true
  | .reelCommit => true
  | .resetAsserted => true
  | .alwaysOnPowerLoss => true
  | .configLinkResume => true
  | .canReceiveError _ _ => true
  | .codeViolation _ => true

end Sys2Proof
end

