-- ==== Sys2Proof/Tests/Slice0.lean ====
section
/-!
SUPPORT. Tests: an ill-formed term for each check of WellFormed, the spec's worked examples, and for every statement with
hypotheses states and operands that meet them all.
-/
set_option linter.unusedVariables false
open Sys2Proof Sys2Proof.Machine

/-- S running with a packet of an opcode next on SPI in a session; stood down or not. -/
def hostAt (op : Byte) (l : List Byte) (stood : Bool) : State :=
  modChannel .spi (fun _ => ⟨[⟨op, 1, l, none, false, 0⟩], [], []⟩)
    ((((State.reset.put F.HOST_CTRL_EN 1).put F.HOST_STAT_SESSION 1).putB F.KEEP_STAT_STOOD stood).modSys (fun y => { y with sDown := false }))

/-- State.reset with V running. -/
def vReset : State := State.reset.modSys (fun y => { y with vRuns := true })

/-- The line of channel 0 with the bytes 128, 0 and their CRC after 400 ticks, at 20 ticks a bit. -/
def goodLine : List LineLevel :=
  [⟨true, 400⟩, ⟨false, 160⟩, ⟨true, 40⟩, ⟨false, 180⟩, ⟨true, 20⟩, ⟨false, 40⟩, ⟨true, 40⟩, ⟨false, 100⟩, ⟨true, 20⟩, ⟨false, 20⟩, ⟨true, 60⟩,
    ⟨false, 20⟩, ⟨true, 20⟩, ⟨false, 40⟩, ⟨true, 40⟩]

/-- The same with the bytes 128, 0, 0, 0, whose CRC is wrong. -/
def badLine : List LineLevel :=
  [⟨true, 400⟩, ⟨false, 160⟩, ⟨true, 40⟩, ⟨false, 180⟩, ⟨true, 20⟩, ⟨false, 180⟩, ⟨true, 20⟩, ⟨false, 180⟩, ⟨true, 20⟩]

/-- Entry 7 waiting for its reply in the cycle begun at tick 0. -/
def inCycle : State := (setSlot 7 (.waiting 0) State.reset).modUsl (fun u => { u with cycleAt := some 0 })

/-! ## WellFormed refuses an ill-formed term of each check -/

/-- A frame with the CRC of its type. -/
def sealFrame (ty : Nat) (f : EbpFrame) : EbpFrame := { f with crc := frameCrc ty f }

/-- A SENT frame but for its CRC nibble: status 0 and data nibbles 1. -/
def sentAt : SentFrame :=
  ⟨5600 * State.reset.get (F.SENT_CFG_TICK 3), 12 :: List.replicate (State.reset.get (F.SENT_CFG_NIB 3)) 13, State.reset.on (F.SENT_CFG_PAUSE 3), 900⟩

/-- A frame whose CRC holds and whose payload is shorter than its LEN says. -/
def shortFrame (ty : Nat) : EbpFrame := sealFrame ty { src := 1, seq := 0, setId := 0, len := 2, payload := [0, 0, 0, 0], crc := 0 }

theorem test_wf_ebpen_frames :
    (Instr.noticeReceived 0 (shortFrame 1)).wf = false ∧ (Instr.claimReceived 0 (shortFrame 2)).wf = false ∧
    (Instr.xcurReceived 0 (shortFrame 3)).wf = false ∧ (Instr.xrefReceived 0 (shortFrame 4)).wf = false ∧
    (Instr.setopReceived 0 (shortFrame 5)).wf = false ∧ (Instr.beatReceived 0 (shortFrame 6)).wf = false ∧
    (Instr.contFrameReceived 0 (shortFrame 7)).wf = false ∧ (Instr.shareReceived 0 (shortFrame 8)).wf = false ∧
    (Instr.formReceived 0 (shortFrame 9)).wf = false ∧ (Instr.trainReceived 0 (shortFrame 15)).wf = false := by decide +kernel

/-- A data frame of DLC 2 that carries one byte. -/
def shortCan : CanFrame := { id := 3, ext := false, fd := false, brs := false, esi := false, rtr := false, dlc := 2, data := [7] }

theorem test_wf_can_data : (Instr.canFrameReceived 0 shortCan).wf = false := by decide

theorem test_wf_can_identifier : (Instr.canFrameReceived 0 { shortCan with id := 2048, dlc := 1 }).wf = false := by decide

theorem test_wf_long_data : (Instr.laneStatusReceived 0 0 (List.replicate 65 0)).wf = false ∧
    (Instr.chassisBroadcastReceived 0 (List.replicate 65 0)).wf = false ∧
    (Instr.canCommandFrame 0 (List.replicate 65 0)).wf = false := by decide

theorem test_wf_engine_operands : (Instr.ash 0 0 9).wf = false ∧ (Instr.loopOp 0 0 0).wf = false ∧ (Instr.loopOp 0 4097 0).wf = false ∧
    (Instr.setc 0 4 2).wf = false ∧ (Instr.setc 0 0 1).wf = false := by decide

/-- A start that finds nothing on any gate output, sense cell or channel. -/
def noInputs : StartInputs := ⟨Vector.replicate 8 (Vector.replicate 8 ⟨false, false⟩), true, true, true, [], true, [], 0, [], [], [], true, 0⟩

theorem test_wf_starts : (Instr.coldStart noInputs).wf = false ∧ (Instr.warmStart noInputs).wf = false := by decide

theorem test_wf_sense_samples : (Instr.senseTrimUpdate 0 0 [5, 5] [1, 1]).wf = false := by decide

theorem test_wf_reel_record : (Instr.reelSubmit 0 [1, 2, 3]).wf = false := by decide

/-! ## The spec's worked examples -/

/-- Chapter 01, after R40: lane B of set 5, triplex; straps all at level 0 or all at level 3 fail the check. -/
theorem test_strap_word : strapOk 0x750D = true ∧ strapFaults 0x750D = 0 ∧ strapOk 0 = false ∧ strapOk 0xFFFF = false := by decide

/-- Chapter 00, after R17: −0.5 read from a 32-bit register. -/
theorem test_sign_copies : signCopies 0x4000C010 0xC0000 = 0xFFFC0000 := by decide +kernel

/-- Chapter 05, after R148: the sample of the worked example. -/
def exampleSc : State :=
  (((((((State.reset.put (F.POS_SCCFG_NPER 0) 63).put (F.POS_CTRL_PP 0) 3).put (F.POS_SCOFS_OFS_SIN 0) 50).putS (F.POS_SCOFS_OFS_COS 0) (-210)).put
    (F.POS_SCGAIN_GAIN_SIN 0) 0x8000).put (F.POS_SCGAIN_GAIN_COS 0) 0x8000).put (F.POS_SCAMP_AMP_LO 0) 8192).put (F.POS_SCAMP_AMP_HI 0) 31744

theorem test_sincos_correction :
    correctPair exampleSc 0 (BitVec.ofInt 16 11850) (BitVec.ofInt 16 (-20210)) = (11800 * 2 ^ 30, -20000 * 2 ^ 30) := by decide +kernel

/-- 435 332 counts, within the 2 counts of R145. -/
theorem test_sincos_angle : ((angle28 11800 (-20000) : Int) / 256 - 435332).natAbs ≤ 2 := by decide +kernel

theorem test_sincos_mechanical : scMech exampleSc 0 39232644 = 9808161 ∧ elecAngle 9808161 4 0x10000 = 420424 := by decide +kernel

/-- Chapter 15, after R510: 2.2 s across the wrap of the seconds. -/
theorem test_time_difference : timeDiff 1 100000000 0xFFFFFFFE 900000000 = 2200000000 := by decide

/-- R585: a written 0b0100 is stored as 0b0111. -/
theorem test_vote_closed : closeDown 0b0100 = 0b0111 := by decide

/-- Chapter 21, after R657: the four addresses of the worked example. -/
theorem test_addresses : (F.ANG_CUECFG_ACT 1 37).addr = 0x4000522C ∧ (F.CAN_TSTAT_TXREQ 2 5).addr = 0x40017594 ∧
    (F.HLE_ENGWDOG_LIMIT 3).addr = 0x4000B1D4 ∧ rowsAt 0x40004A48 = [] := by decide +kernel

/-- An encoded example of R526: the CRC-32 of "123456789" is the standard check value 0xCBF43926. -/
theorem test_crc32 : crc32 [0x31, 0x32, 0x33, 0x34, 0x35, 0x36, 0x37, 0x38, 0x39] = 0xCBF43926 := by decide +kernel

/-- No row of the opcode table has bits, so no word spells a command. -/
theorem test_no_word_decodes : decodeTableWord 32 0x12345678 = none := rfl

/-! ## The hypotheses of the statements can be met -/

/-- States and operands that meet every hypothesis of StepRunsCommand. -/
theorem test_met_StepRunsCommand :
    (∃ (s : State), (s.pending = [])) :=
  ⟨State.reset, by decide +kernel⟩

/-- States and operands that meet every hypothesis of EveryStepKeepsForms. -/
theorem test_met_EveryStepKeepsForms :
    (∃ (s t : State), (s.wf = true) ∧ (step s = .next t)) ∧
    (∃ (s : State) (c : Instr), (s.wf = true)) :=
  ⟨by exact ⟨State.reset, State.reset, by decide +kernel, rfl⟩,
   ⟨State.reset, .cutSetCommand 0, by decide +kernel⟩⟩

/-- States and operands that meet every hypothesis of RefusedAccesses. -/
theorem test_met_RefusedAccesses :
    (∃ (s : State) (r : Requester) (a : Nat) (w : Bool), (a < 2 ^ 32) ∧ (s.on F.SYS_BUSERR_VALID = false)) ∧
    (∃ (s : State) (r : Requester) (a : Nat) (w : Bool), (s.on F.SYS_BUSERR_VALID = true)) ∧
    (∃ (s : State) (r : Requester) (a v : Word), (issues s r = true ∧ reaches r s = true) ∧ (isCore r = false ∨ a.toNat % 4 = 0) ∧ (regPermitted r a.toNat true = false ∨ pmpPermits s r .write a.toNat 4 = false)) ∧
    (∃ (s : State) (r : Requester) (a : Word), (issues s r = true ∧ reaches r s = true) ∧ (isCore r = false ∨ a.toNat % 4 = 0) ∧ (regPermitted r a.toNat false = false ∨ pmpPermits s r .read a.toNat 4 = false)) ∧
    (∃ (s : State) (m : MemAccess), (regionOf m.addr.toNat = none) ∧ (isPeripheral m.addr.toNat = false) ∧ (m.addr.toNat % widthBytes m.width = 0) ∧ (issues s .s = true)) :=
  ⟨⟨State.reset, .dbg, 0x40000010, true, by decide +kernel⟩,
   ⟨State.reset.put F.SYS_BUSERR_VALID 1, .dbg, 0x40000010, true, by decide +kernel⟩,
   ⟨State.reset, .h 3, 0x40001008, 5, by decide +kernel⟩,
   ⟨State.reset, .h 3, 0x40001008, by decide +kernel⟩,
   ⟨State.reset, ⟨.amo .add, 0x70000000, .word, 0, ⟨[], [], true⟩, .clean, .clean⟩, by decide +kernel⟩⟩

/-- States and operands that meet every hypothesis of ReadClearFields. -/
theorem test_met_ReadClearFields :
    (∃ (s : State) (r : Requester) (a : Word) (w : Row), (issues s r = true ∧ reaches r s = true) ∧ (regPermitted r a.toNat false = true ∧ pmpPermits s r .read a.toNat 4 = true) ∧ (onDriverDie a.toNat = false ∨ s.sys.linkLost = false) ∧ (w ∈ rowsAt a.toNat ∧ w.acc = .rc)) ∧
    (∃ (s : State) (r : Requester) (a : Word) (q : Row), (issues s r = true ∧ reaches r s = true) ∧ (regPermitted r a.toNat false = true ∧ pmpPermits s r .read a.toNat 4 = true) ∧ (onDriverDie a.toNat = false ∨ s.sys.linkLost = false) ∧ (q ∈ rowsAt a.toNat ∧ q.acc ≠ .rc) ∧ (∀ w ∈ rowsAt a.toNat, w ≠ q → w.lo + w.w ≤ q.lo ∨ q.lo + q.w ≤ w.lo) ∧ (q.lo + q.w ≤ 32)) :=
  ⟨⟨State.reset.put F.KEEP_STAT_DBGOPEN 1, .dbg, 0x4000B120, (rowsAt 0x4000B120)[0]'(by decide +kernel), by decide +kernel⟩,
   ⟨State.reset.put F.KEEP_STAT_DBGOPEN 1, .dbg, 0x4000B11C, (rowsAt 0x4000B11C)[0]'(by decide +kernel), by decide +kernel⟩⟩

/-- States and operands that meet every hypothesis of ReservedOffsets. -/
theorem test_met_ReservedOffsets :
    (∃ (s : State) (r : Requester) (a : Word), (issues s r = true ∧ reaches r s = true) ∧ (regPermitted r a.toNat false = true ∧ pmpPermits s r .read a.toNat 4 = true) ∧ (isCore r = false ∨ a.toNat % 4 = 0) ∧ (rowsAt a.toNat = [])) ∧
    (∃ (s : State) (r : Requester) (a v : Word), (issues s r = true ∧ reaches r s = true) ∧ (regPermitted r a.toNat true = true ∧ pmpPermits s r .write a.toNat 4 = true) ∧ (isCore r = false ∨ a.toNat % 4 = 0) ∧ (rowsAt a.toNat = [])) ∧
    (∃ (s : State) (a : Nat) (f : Fld), (accErrFld a = some f) ∧ (f.lo + f.w ≤ 32 ∧ f.w = 1)) :=
  ⟨⟨State.reset.put F.DBL_STAT_RUN 15, .p 2, 0x40007090, by decide +kernel⟩,
   ⟨State.reset.put F.DBL_STAT_RUN 15, .p 2, 0x40007090, 7, by decide +kernel⟩,
   ⟨State.reset, 0x40007090, F.POS_STAT_ACCERR 1, by decide +kernel⟩⟩

/-- States and operands that meet every hypothesis of RegisterWriteRules. -/
theorem test_met_RegisterWriteRules :
    (∃ (s : State) (a : Nat) (v : Word) (r : Row), (accepted a v s = true) ∧ (r ∈ rowsAt a ∧ r.lo + r.w ≤ 32) ∧ (∀ q ∈ rowsAt a, q ≠ r → q.lo + q.w ≤ r.lo ∨ r.lo + r.w ≤ q.lo) ∧ (∀ f, accErrFld a = some f → f.addr ≠ a)) ∧
    (∃ (s : State) (r : Requester) (a v : Word), (issues s r = true ∧ reaches r s = true) ∧ (regPermitted r a.toNat true = true ∧ pmpPermits s r .write a.toNat 4 = true) ∧ (plainRegister a.toNat = true) ∧ (accepted a.toNat (clearLow a.toNat v) (busData 0 s) = true)) ∧
    (∃ (s : State) (r : Requester) (a v : Word), (issues s r = true ∧ reaches r s = true) ∧ (regPermitted r a.toNat true = true ∧ pmpPermits s r .write a.toNat 4 = true) ∧ (plainRegister a.toNat = true) ∧ (accepted a.toNat (clearLow a.toNat v) (busData 0 s) = false)) ∧
    (∃ (s : State) (r : Requester) (a v : Word), (issues s r = true ∧ reaches r s = true) ∧ (regPermitted r a.toNat true = true ∧ pmpPermits s r .write a.toNat 4 = true) ∧ (onDriverDie a.toNat = true ∧ rowsAt a.toNat ≠ [])) ∧
    (∃ (s : State) (p : Pair) (a v : Word), (issues s (.p p) = true) ∧ (a.toNat % 4 ≠ 0)) ∧
    (∃ (s : State) (p : Pair) (a v : Word), (s.bit F.DBL_STAT_RUN p = false)) :=
  ⟨⟨State.reset, 0x40019000, 0x15, (rowsAt 0x40019000)[1]'(by decide +kernel), by decide +kernel⟩,
   ⟨State.reset, .s, 0x40019000, 0x15, by decide +kernel⟩,
   ⟨State.reset, .s, 0x40019000, 0xFFFFFFFF, by decide +kernel⟩,
   ⟨State.reset.put F.DBL_STAT_RUN 15, .p 0, 0x4000E000, 1, by decide +kernel⟩,
   ⟨State.reset.put F.DBL_STAT_RUN 15, 2, 0x4000C002, 1, by decide +kernel⟩,
   ⟨State.reset, 2, 0x4000C000, 1, by decide +kernel⟩⟩

/-- States and operands that meet every hypothesis of TimeLatches. -/
theorem test_met_TimeLatches :
    (∃ (s u v : State) (r : Requester), ((∃ p, r = .p p) ∨ r = .s ∨ r = .v ∨ r = .k ∨ r = .dbg) ∧ (issues s r = true ∧ issues u r = true ∧ reaches r s = true ∧ reaches r u = true) ∧ (pmpPermits s r .read addrTimeNs 4 = true ∧ pmpPermits u r .read 0x4001B00C 4 = true) ∧ (exec (.timeNsRead r) s = .next v) ∧ (Tab.get (fun _ => 0) u.time.secL (reqCode r) = Tab.get (fun _ => 0) v.time.secL (reqCode r))) :=
  by exact ⟨State.reset, State.reset, readTimeNs .k State.reset, .k, by decide +kernel, by decide +kernel, by decide +kernel, rfl, by decide +kernel⟩

/-- States and operands that meet every hypothesis of TimeAndUptimeCommands. -/
theorem test_met_TimeAndUptimeCommands :
    (∃ (s : State) (r : Requester), (((∃ p, r = .p p) ∧ issues s r = true ∧ pmpPermits s r .read addrTimeNs 4 = true ∧ pmpPermits s r .read addrUcycNs 4 = true ∧ pmpPermits s r .read addrUptime 4 = true) ∨ ((r = .s ∨ r = .v ∨ r = .k) ∧ issues s r = true))) ∧
    (∃ (s : State) (v : Word), (-858993 ≤ v.toInt ∧ v.toInt ≤ 858993)) ∧
    (∃ (s : State) (v : Word), (v.toInt < -858993 ∨ 858993 < v.toInt)) ∧
    (∃ (s : State) (v : Word), (s.on F.TIME_STAT_STEPPED = false) ∧ (bitAt v.toNat 31 = true) ∧ (v.toNat % 2 ^ 30 ≤ 999999999)) ∧
    (∃ (s : State) (v : Word), (s.on F.TIME_STAT_STEPPED = true) ∧ (bitAt v.toNat 31 = true)) :=
  ⟨⟨State.reset, .k, by decide +kernel⟩,
   ⟨State.reset, (-858993), by decide +kernel⟩,
   ⟨State.reset, 858994, by decide +kernel⟩,
   ⟨State.reset, 0x80000005, by decide +kernel⟩,
   ⟨State.reset.put F.TIME_STAT_STEPPED 1, 0x80000005, by decide +kernel⟩⟩

/-- States and operands that meet every hypothesis of MemoryAccesses. -/
theorem test_met_MemoryAccesses :
    (∃ (s : State) (r : Requester) (m : MemAccess) (reg : Region) (n : Nat), ((∀ p, r ≠ .p p) ∧ issues s r = true ∧ reaches r s = true) ∧ (m.kind = .read ∧ m.found = .clean) ∧ (regionOf m.addr.toNat = some reg ∧ memPermitted s r reg m.addr.toNat .read = true) ∧ (isPeripheral m.addr.toNat = false) ∧ (m.addr.toNat % widthBytes m.width = 0) ∧ (openBytes s m.addr.toNat = false)) ∧
    (∃ (s : State) (r : Requester) (m : MemAccess) (reg : Region) (n : Nat), ((∀ p, r ≠ .p p) ∧ issues s r = true ∧ reaches r s = true) ∧ (m.kind = .write) ∧ (regionOf m.addr.toNat = some reg ∧ memPermitted s r reg m.addr.toNat .write = true) ∧ (isPeripheral m.addr.toNat = false ∧ m.addr.toNat < 0x30000000) ∧ (m.addr.toNat % widthBytes m.width = 0)) ∧
    (∃ (s : State) (m : MemAccess) (reg : Region) (n : Nat), (m.kind = .write) ∧ (regionOf m.addr.toNat = some reg ∧ memPermitted s .s reg m.addr.toNat .write = false) ∧ (issues s .s = true) ∧ (m.addr.toNat % widthBytes m.width = 0)) ∧
    (∃ (s : State) (m : MemAccess) (reg : Region) (n : Nat), (m.kind = .read ∧ m.found = .uncorrectable) ∧ (regionOf m.addr.toNat = some reg ∧ memPermitted s .s reg m.addr.toNat .read = true) ∧ (issues s .s = true) ∧ (m.addr.toNat % widthBytes m.width = 0)) ∧
    (∃ (s : State) (p : Pair) (m : MemAccess) (n : Nat), (issues s (.p p) = true) ∧ (m.kind ≠ .fetch) ∧ (m.addr.toNat % widthBytes m.width ≠ 0)) ∧
    (∃ (s : State) (p : Pair) (m : MemAccess) (n : Nat), (issues s (.p p) = false)) ∧
    (∃ (s : State) (p : Pair) (m : MemAccess) (n : Nat), (issues s (.p p) = true) ∧ (m.kind = .read ∧ m.found = .clean ∧ m.addr.toNat % widthBytes m.width = 0) ∧ (copiesPart p m (progressed p m.prog s) = false) ∧ (regionOf m.addr.toNat = some (.tcmP p) ∧ pmpPermits (progressed p m.prog s) (.p p) .read m.addr.toNat (widthBytes m.width) = true) ∧ (openBytes s m.addr.toNat = false)) ∧
    (∃ (s : State) (p : Pair) (m : MemAccess) (n : Nat), (issues s (.p p) = true) ∧ (m.kind = .sc ∧ m.addr.toNat % widthBytes m.width = 0) ∧ (copiesPart p m (progressed p m.prog s) = false) ∧ (regionOf m.addr.toNat = some .sram ∧ pmpPermits (progressed p m.prog s) (.p p) .write m.addr.toNat (widthBytes m.width) = true) ∧ (s.cores[p.val].main.reservation ≠ some (m.addr.toNat / 32))) ∧
    (∃ (s : State) (p : Pair) (m : MemAccess) (n : Nat), (issues s (.p p) = true) ∧ (m.kind = .sc ∧ m.width = .word ∧ m.addr.toNat % 4 = 0) ∧ (copiesPart p m (progressed p m.prog s) = false) ∧ (regionOf m.addr.toNat = some .sram ∧ pmpPermits (progressed p m.prog s) (.p p) .write m.addr.toNat 4 = true) ∧ (s.cores[p.val].main.reservation = some (m.addr.toNat / 32))) ∧
    (∃ (s : State) (p : Pair) (m : MemAccess) (n : Nat), (issues s (.p p) = true) ∧ (m.kind = .write ∧ m.addr.toNat % widthBytes m.width = 0) ∧ (copiesPart p m (progressed p m.prog s) = false) ∧ (regionOf m.addr.toNat = some .sram ∧ pmpPermits (progressed p m.prog s) (.p p) .write m.addr.toNat (widthBytes m.width) = true) ∧ (findLine s.cores[p.val].dcache (lineOf m.addr.toNat) = none)) ∧
    (∃ (s : State) (p : Pair) (e : Eng) (k : Bool) (w : Fin 512) (v : Word), (issues s (.p p) = true) ∧ (pmpPermits s (.p p) .write (coefAddr e k w) 4 = true) ∧ (bankClosed s (coefAddr e k w) = false)) ∧
    (∃ (s : State) (e : Eng) (k : Bool) (w : Fin 512) (v : Word) (p : Pair), (issues s (.p p) = true) ∧ (pmpPermits s (.p p) .write (coefAddr e k w) 4 = true) ∧ (s.on (F.HLE_ENGSTAT_BANKACT e) = k) ∧ (s.on (F.HLE_ENGSTAT_OPENACT e) = false ∧ s.on (F.HLE_ENGCTRL_LIVEWR e) = false)) ∧
    (∃ (s : State) (r q : Requester) (m k : MemAccess) (n w : Nat), ((∀ p, r ≠ .p p) ∧ (∀ p, q ≠ .p p) ∧ r ≠ q ∧ issues s r = true ∧ issues s q = true ∧ reaches r s = true ∧ reaches q s = true) ∧ (m.kind = .read ∧ m.found = .clean ∧ m.width = .word ∧ k.kind = .write ∧ k.width = .word ∧ k.addr = m.addr ∧ m.addr.toNat % 4 = 0) ∧ (regionOf m.addr.toNat = some .sram ∧ memPermitted s r .sram m.addr.toNat .read = true ∧ memPermitted s q .sram m.addr.toNat .write = true) ∧ (openBytes s m.addr.toNat = false)) :=
  ⟨by exact ⟨State.reset, .g, ⟨.read, 0x20000002, .half, 0, ⟨[], [], true⟩, .clean, .clean⟩, .sram, 3, ⟨fun p h => (nomatch h), by decide +kernel⟩, by decide +kernel⟩,
   by exact ⟨State.reset, .g, ⟨.write, 0x20000002, .half, 0x1234, ⟨[], [], true⟩, .clean, .clean⟩, .sram, 3, ⟨fun p h => (nomatch h), by decide +kernel⟩, by decide +kernel⟩,
   ⟨State.reset, ⟨.write, 0x30000400, .word, 0x1234, ⟨[], [], true⟩, .clean, .clean⟩, .window 0, 0, by decide +kernel⟩,
   ⟨State.reset, ⟨.read, 0x20000002, .half, 0, ⟨[], [], true⟩, .uncorrectable, .clean⟩, .sram, 0, by decide +kernel⟩,
   ⟨State.reset.put F.DBL_STAT_RUN 15, 1, ⟨.read, 0x20000001, .half, 0, ⟨[], [], true⟩, .clean, .clean⟩, 0, by decide +kernel⟩,
   ⟨State.reset, 1, ⟨.read, 0x20000000, .half, 0, ⟨[], [], true⟩, .clean, .clean⟩, 0, by decide +kernel⟩,
   ⟨State.reset.put F.DBL_STAT_RUN 15, 1, ⟨.read, 0x08020000, .half, 0, ⟨[], [], true⟩, .clean, .clean⟩, 0, by decide +kernel⟩,
   ⟨State.reset.put F.DBL_STAT_RUN 15, 1, ⟨.sc, 0x20000100, .word, 5, ⟨[], [], true⟩, .clean, .clean⟩, 0, by decide +kernel⟩,
   ⟨modCopies 1 (fun c => { c with reservation := some (0x20000100 / 32) }) (State.reset.put F.DBL_STAT_RUN 15), 1, ⟨.sc, 0x20000100, .word, 5, ⟨[], [], true⟩, .clean, .clean⟩, 0, by decide +kernel⟩,
   ⟨State.reset.put F.DBL_STAT_RUN 15, 1, ⟨.write, 0x20000100, .byte, 5, ⟨[], [], true⟩, .clean, .clean⟩, 0, by decide +kernel⟩,
   ⟨State.reset.put F.DBL_STAT_RUN 15, 2, 6, true, 511, 7, by decide +kernel⟩,
   ⟨(State.reset.put (F.HLE_ENGSTAT_OPENACT 6) 0).put F.DBL_STAT_RUN 15, 6, false, 511, 7, 2, by decide +kernel⟩,
   by exact ⟨State.reset, .s, .h 2, ⟨.read, 0x20000100, .word, 0, ⟨[], [], true⟩, .clean, .clean⟩, ⟨.write, 0x20000100, .word, 5, ⟨[], [], true⟩, .clean, .clean⟩, 0, 20, ⟨fun p h => (nomatch h), fun p h => (nomatch h), by decide +kernel⟩, by decide +kernel⟩⟩

/-- States and operands that meet every hypothesis of EnginePorts. -/
theorem test_met_EnginePorts :
    (∃ (s : State) (e : Eng) (d : XReg) (n : Fin 64), (engBusy s e = true ∧ enginesHeld s = false ∧ fitsLimit s e 33 = true) ∧ (bitAt (portEntry s e n).toNat 0 = true) ∧ (regionOf (portAddr (portEntry s e n)) = some .sram ∧ openBytes s (portAddr (portEntry s e n)) = false)) ∧
    (∃ (s : State) (e : Eng) (d : XReg) (n : Fin 64), (engBusy s e = true ∧ enginesHeld s = false ∧ fitsLimit s e 33 = true) ∧ (bitAt (portEntry s e n).toNat 0 = true) ∧ (regionOf (portAddr (portEntry s e n)) = some .sram)) ∧
    (∃ (s : State) (e : Eng) (d a : XReg) (n : Fin 64), (engBusy s e = true ∧ enginesHeld s = false ∧ fitsLimit s e 1 = true) ∧ (bitAt (portEntry s e n).toNat 0 = false)) ∧
    (∃ (s : State) (e : Eng) (a : XReg) (n : Fin 64), (engBusy s e = true ∧ enginesHeld s = false ∧ fitsLimit s e 1 = true) ∧ (bitAt (portEntry s e n).toNat 0 = true ∧ bitAt (portEntry s e n).toNat 1 = true) ∧ (s.eng[e.val].writes.length < 4)) ∧
    (∃ (s : State) (e : Eng) (a : XReg) (n : Fin 64), (engBusy s e = true ∧ enginesHeld s = false ∧ fitsLimit s e 1 = true) ∧ (bitAt (portEntry s e n).toNat 0 = true ∧ bitAt (portEntry s e n).toNat 1 = false)) ∧
    (∃ (s : State) (e : Eng) (a : XReg) (n : Fin 64) (w : PostedWrite) (l : List PostedWrite), (engBusy s e = true ∧ enginesHeld s = false ∧ fitsLimit s e 51 = true) ∧ (bitAt (portEntry s e n).toNat 0 = true ∧ bitAt (portEntry s e n).toNat 1 = true) ∧ (s.eng[e.val].writes = w :: l ∧ 3 ≤ l.length) ∧ (regionOf w.addr = some .sram ∧ w.addr % 4 = 0)) ∧
    (∃ (s : State) (e : Eng), (coreStopped s = false) ∧ (s.eng[e.val].writes = [])) ∧
    (∃ (s : State) (e : Eng) (w : PostedWrite) (l : List PostedWrite), (coreStopped s = false) ∧ (s.eng[e.val].writes = w :: l) ∧ (enginesHeld s = false) ∧ (regionOf w.addr = some .sram ∧ w.addr % 4 = 0)) ∧
    (∃ (s : State) (e f : Eng) (w x : PostedWrite) (l m : List PostedWrite), (coreStopped s = false) ∧ (e ≠ f ∧ physicalOf s e < physicalOf s f) ∧ (s.eng[e.val].writes = w :: l) ∧ (enginesHeld s = false) ∧ (s.eng[f.val].writes = x :: m) ∧ (regionOf w.addr = some .sram ∧ w.addr % 4 = 0 ∧ x.addr = w.addr)) ∧
    (∃ (s : State), (coreStopped s = true)) :=
  ⟨⟨(State.reset.put (F.HLE_ENGSTAT_BUSY 3) 1).setMemWord (engBase 3 + 0x6000 + 4 * 63) 0x20000103, 3, 1, 63, by decide +kernel⟩,
   ⟨(State.reset.put (F.HLE_ENGSTAT_BUSY 3) 1).setMemWord (engBase 3 + 0x6000 + 4 * 63) 0x20000103, 3, 1, 63, by decide +kernel⟩,
   ⟨State.reset.put (F.HLE_ENGSTAT_BUSY 3) 1, 3, 1, 2, 63, by decide +kernel⟩,
   ⟨(State.reset.put (F.HLE_ENGSTAT_BUSY 3) 1).setMemWord (engBase 3 + 0x6000 + 4 * 63) 0x20000103, 3, 1, 63, by decide +kernel⟩,
   ⟨(State.reset.put (F.HLE_ENGSTAT_BUSY 3) 1).setMemWord (engBase 3 + 0x6000 + 4 * 63) 0x20000101, 3, 1, 63, by decide +kernel⟩,
   ⟨((State.reset.put (F.HLE_ENGSTAT_BUSY 3) 1).setMemWord (engBase 3 + 0x6000 + 4 * 63) 0x20000103).modEng 3 (fun g => { g with writes := List.replicate 4 ⟨0x20000200, 7, 300⟩ }), 3, 1, 63, ⟨0x20000200, 7, 300⟩, List.replicate 3 ⟨0x20000200, 7, 300⟩, by decide +kernel⟩,
   ⟨State.reset, 3, by decide +kernel⟩,
   ⟨State.reset.modEng 3 (fun g => { g with writes := [⟨0x20000100, 7, 300⟩] }), 3, ⟨0x20000100, 7, 300⟩, [], by decide +kernel⟩,
   ⟨(State.reset.modEng 3 (fun g => { g with writes := [⟨0x20000100, 7, 300⟩] })).modEng 5 (fun g => { g with writes := [⟨0x20000100, 9, 301⟩] }), 3, 5, ⟨0x20000100, 7, 300⟩, ⟨0x20000100, 9, 301⟩, [], [], by decide +kernel⟩,
   ⟨{ State.reset with pwr := { Pwr.reset with held := true } }, by decide +kernel⟩⟩

/-- States and operands that meet every hypothesis of CoreCachesAndInputs. -/
theorem test_met_CoreCachesAndInputs :
    (∃ (s : State) (p : Pair) (addr : Word), (s.bit F.DBL_STAT_RUN p = true)) ∧
    (∃ (s : State) (p : Pair), (issues s (.p p) = true)) ∧
    (∃ (s : State) (p : Pair) (addr : Word), (issues s (.p p) = false)) ∧
    (∃ (s : State) (p : Pair), (issues s .k = true) ∧ (s.bit F.DBL_CTRL_HOLD p = true)) ∧
    (∃ (s : State) (p : Pair) (i : Fin 32), (coreStopped s = false)) ∧
    (∃ (s : State) (p : Pair) (i : Fin 32), (coreStopped s = false)) ∧
    (∃ (s : State) (p : Pair) (i : Fin 32) (v : Bool), (coreStopped s = false)) ∧
    (∃ (s : State), (coreStopped s = true)) :=
  ⟨⟨State.reset.put F.DBL_STAT_RUN 15, 2, 0x20000100, by decide +kernel⟩,
   ⟨State.reset.put F.DBL_STAT_RUN 15, 2, by decide +kernel⟩,
   ⟨State.reset, 2, 0, by decide +kernel⟩,
   ⟨State.reset, 2, by decide +kernel⟩,
   ⟨State.reset, 2, 31, by decide +kernel⟩,
   ⟨State.reset, 2, 31, by decide +kernel⟩,
   ⟨State.reset, 2, 31, true, by decide +kernel⟩,
   ⟨{ State.reset with pwr := { Pwr.reset with held := true } }, by decide +kernel⟩⟩

/-- States and operands that meet every hypothesis of LockstepCapture. -/
theorem test_met_LockstepCapture :
    (∃ (s : State) (p : Pair) (f : LockstepFinding) (g : Nat) (gs : List Nat), (coreStopped s = false) ∧ (s.bit F.DBL_STAT_RUN p = true) ∧ (s.on F.DBL_INJ_BUSY = false) ∧ (s.on (F.DBL_FAULT_VALID p) = false) ∧ (f.parity = 0) ∧ (codeViolation f = true ∧ flaggedGroups f = g :: gs)) ∧
    (∃ (s : State) (p : Pair) (f : LockstepFinding) (g : Nat) (gs : List Nat), (coreStopped s = false) ∧ (s.bit F.DBL_STAT_RUN p = true) ∧ (s.on F.DBL_INJ_BUSY = false) ∧ (s.on (F.DBL_FAULT_VALID p) = false) ∧ (bitsSet f.parity.toNat 52 = g :: gs)) ∧
    (∃ (s : State) (p : Pair) (f : LockstepFinding), (coreStopped s = false) ∧ (s.bit F.DBL_STAT_RUN p = true) ∧ (s.on F.DBL_INJ_BUSY = false) ∧ (s.on (F.DBL_FAULT_VALID p) = true) ∧ (codeViolation f = true)) ∧
    (∃ (s : State) (p : Pair) (f : LockstepFinding), (coreStopped s = false) ∧ (codeViolation f = false ∧ f.parity = 0)) ∧
    (∃ (f : LockstepFinding), (f.tree = none)) ∧
    (∃ (s : State) (p : Pair), (coreStopped s = false)) ∧
    (∃ (s : State) (p : Pair) (g : Progress), (issues s (.p p) = true) ∧ (g.machineMode = true) ∧ ((progressed p g s).cores[p.val].main.signature = (progressed p g s).cores[p.val].double.signature)) ∧
    (∃ (s : State) (p : Pair) (g : Progress), (issues s (.p p) = true) ∧ (s.on F.DBL_INJ_BUSY = false ∧ s.on (F.DBL_FAULT_VALID p) = false) ∧ (g.machineMode = true) ∧ ((progressed p g s).cores[p.val].main.signature ≠ (progressed p g s).cores[p.val].double.signature)) ∧
    (∃ (s : State) (p : Pair) (g : Progress), (issues s (.p p) = true) ∧ (g.machineMode = false)) ∧
    (∃ (s : State), (coreStopped s = true)) :=
  ⟨⟨State.reset.putBit F.DBL_STAT_RUN 1 true, 1, ⟨⟨0, 0, 0, 0, 0, 0, 0, 0, 0, 0, 0, 0, 0, 0, 0⟩, ⟨0, 0, 0, 0, 0, 0, 0, 0, 0, 0, 0, 0, 0, 0, 1⟩, ⟨false, false, false, false, false, false⟩, true, none, 0⟩, 17, [], by decide +kernel⟩,
   ⟨State.reset.putBit F.DBL_STAT_RUN 1 true, 1, ⟨⟨0, 0, 0, 0, 0, 0, 0, 0, 0, 0, 0, 0, 0, 0, 0⟩, ⟨0, 0, 0, 0, 0, 0, 0, 0, 0, 0, 0, 0, 0, 0, 0⟩, ⟨false, false, false, false, false, false⟩, true, none, 0x800000000⟩, 35, [], by decide +kernel⟩,
   ⟨(State.reset.putBit F.DBL_STAT_RUN 1 true).put (F.DBL_FAULT_VALID 1) 1, 1, ⟨⟨0, 0, 0, 0, 0, 0, 0, 0, 0, 0, 0, 0, 0, 0, 0⟩, ⟨0, 0, 0, 0, 0, 0, 0, 0, 0, 0, 0, 0, 0, 0, 0⟩, ⟨false, false, false, false, false, false⟩, true, some 3, 0⟩, by decide +kernel⟩,
   ⟨State.reset.putBit F.DBL_STAT_RUN 1 true, 1, ⟨⟨0, 0, 0, 0, 0, 0, 0, 0, 0, 0, 0, 0, 0, 0, 0⟩, ⟨0, 0, 0, 0, 0, 0, 0, 0, 0, 0, 0, 0, 0, 0, 0⟩, ⟨false, false, false, false, false, false⟩, true, none, 0⟩, by decide +kernel⟩,
   ⟨⟨⟨0, 0, 0, 0, 0, 0, 0, 0, 0, 0, 0, 0, 0, 0, 0⟩, ⟨0, 0, 0, 0, 0, 0, 0, 0, 0, 0, 0, 0, 0, 0, 1⟩, ⟨false, false, false, false, false, false⟩, true, none, 0⟩, by decide +kernel⟩,
   ⟨State.reset, 0, by decide +kernel⟩,
   ⟨State.reset.putBit F.DBL_STAT_RUN 3 true, 3, ⟨[(.x 5, 7)], [], true⟩, by decide +kernel⟩,
   ⟨State.reset.putBit F.DBL_STAT_RUN 3 true, 3, ⟨[(.x 5, 7)], [(.x 5, 8)], true⟩, by decide +kernel⟩,
   ⟨State.reset.putBit F.DBL_STAT_RUN 3 true, 3, ⟨[], [], false⟩, by decide +kernel⟩,
   ⟨{ State.reset with pwr := { Pwr.reset with held := true } }, by decide +kernel⟩⟩

/-- States and operands that meet every hypothesis of InjectionTestAndDebug. -/
theorem test_met_InjectionTestAndDebug :
    (∃ (s : State) (pairs : BitVec 4), (coreStopped s = false) ∧ (s.on F.DBL_INJ_BUSY = false) ∧ (s.on F.SYS_CLKMON_LOCK = true) ∧ ((s.get F.DBL_CTRL_HOLD &&& pairs.toNat) = pairs.toNat)) ∧
    (∃ (s : State) (pairs : BitVec 4), (coreStopped s = false) ∧ (s.on F.DBL_INJ_BUSY = false) ∧ (s.on F.SYS_CLKMON_LOCK = false ∨ (s.get F.DBL_CTRL_HOLD &&& pairs.toNat) ≠ pairs.toNat)) ∧
    (∃ (s : State) (r : List PairTest), (coreStopped s = false) ∧ (s.on F.DBL_INJ_BUSY = true)) ∧
    (∃ (s : State) (r : List PairTest), (coreStopped s = false) ∧ (s.on F.DBL_INJ_BUSY = true) ∧ (s.get F.DBL_INJ_PAIRS = 15) ∧ (∀ p : Pair, pairFailure (pairTest r p) = none)) ∧
    (∃ (s : State) (r : List PairTest) (g : Fin 18) (b : Fin 64) (pol : Bool), (coreStopped s = false) ∧ (s.on F.DBL_INJ_BUSY = true) ∧ (s.get F.DBL_INJ_PAIRS = 15) ∧ ((pairTest r 0).missed = [(g, b, pol)])) ∧
    (∃ (s : State) (p : Pair) (g : Progress), (coreStopped s = false) ∧ (s.on F.KEEP_STAT_DBGOPEN = true) ∧ (s.bit F.DBL_STAT_RUN p = true) ∧ (s.bit F.DBL_STAT_DBGHALT p = false)) ∧
    (∃ (s : State) (p : Pair), (coreStopped s = false) ∧ (s.on F.KEEP_STAT_DBGOPEN = true) ∧ (s.bit F.DBL_STAT_RUN p = true) ∧ (s.bit F.DBL_STAT_DBGHALT p = true)) ∧
    (∃ (s : State) (p : Pair) (rd : Fin 32) (imm : BitVec 12), (coreStopped s = false) ∧ (s.on F.KEEP_STAT_DBGOPEN = true) ∧ (s.bit F.DBL_STAT_RUN p = true) ∧ (s.bit F.DBL_STAT_DBGHALT p = true) ∧ (s.cores[p.val].main = s.cores[p.val].double) ∧ (s.cores[p.val].main.pc.toNat % 4 = 0) ∧ (regionOf s.cores[p.val].main.pc.toNat = some (.tcmP p)) ∧ (pmpPermits s (.p p) .fetch s.cores[p.val].main.pc.toNat 2 = true ∧ pmpPermits s (.p p) .fetch (s.cores[p.val].main.pc.toNat + 2) 2 = true) ∧ (s.keep.retained = none ∧ s.bkg.snap0 = none ∧ s.bkg.snap1 = none ∧ s.bkg.mirror = none) ∧ (s.memWord s.cores[p.val].main.pc.toNat = BitVec.ofNat 32 (imm.toNat * 2 ^ 20 + rd.val * 128 + 0x13))) ∧
    (∃ (s : State) (p : Pair) (i : Fin 32) (v : Word), (coreStopped s = false) ∧ (s.on F.KEEP_STAT_DBGOPEN = true) ∧ (s.bit F.DBL_STAT_RUN p = true) ∧ (s.bit F.DBL_STAT_DBGHALT p = true)) ∧
    (∃ (s : State) (p : Pair) (rd : Fin 32) (imm : BitVec 12), (coreStopped s = false) ∧ (s.on F.KEEP_STAT_DBGOPEN = true) ∧ (s.bit F.DBL_STAT_RUN p = true) ∧ (s.bit F.DBL_STAT_DBGHALT p = true)) ∧
    (∃ (s : State) (p : Pair) (k : Nat) (v : Word), (coreStopped s = false) ∧ (s.on F.KEEP_STAT_DBGOPEN = true) ∧ (s.bit F.DBL_STAT_RUN p = true)) ∧
    (∃ (s : State), (coreStopped s = true)) :=
  ⟨⟨State.reset.put F.SYS_CLKMON_LOCK 1, 0xF, by decide +kernel⟩,
   ⟨State.reset, 0xF, by decide +kernel⟩,
   ⟨State.reset.put F.DBL_INJ_BUSY 1, [⟨[(3, 7, true)], true, []⟩], by decide +kernel⟩,
   ⟨(State.reset.put F.DBL_INJ_BUSY 1).put F.DBL_INJ_PAIRS 15, [], by decide +kernel⟩,
   ⟨(State.reset.put F.DBL_INJ_BUSY 1).put F.DBL_INJ_PAIRS 15, [⟨[(17, 31, true)], true, []⟩], 17, 31, true, by decide +kernel⟩,
   ⟨(State.reset.put F.KEEP_STAT_DBGOPEN 1).put F.DBL_STAT_RUN 15, 1, ⟨[(.pc, 0x08020000)], [], true⟩, by decide +kernel⟩,
   ⟨((State.reset.put F.KEEP_STAT_DBGOPEN 1).put F.DBL_STAT_RUN 15).put F.DBL_STAT_DBGHALT 2, 1, by decide +kernel⟩,
   ⟨(modCopies 1 (fun c => { c with pc := 0x08020100 }) (((State.reset.put F.KEEP_STAT_DBGOPEN 1).put F.DBL_STAT_RUN 15).put F.DBL_STAT_DBGHALT 2)).setMemWord 0x08020100 0xFFF00293, 1, 5, 0xFFF, by decide +kernel⟩,
   ⟨((State.reset.put F.KEEP_STAT_DBGOPEN 1).put F.DBL_STAT_RUN 15).put F.DBL_STAT_DBGHALT 2, 1, 31, 0, by decide +kernel⟩,
   ⟨((State.reset.put F.KEEP_STAT_DBGOPEN 1).put F.DBL_STAT_RUN 15).put F.DBL_STAT_DBGHALT 2, 1, 5, 0xFFF, by decide +kernel⟩,
   ⟨(State.reset.put F.KEEP_STAT_DBGOPEN 1).put F.DBL_STAT_RUN 15, 3, 4, 5, by decide +kernel⟩,
   ⟨{ State.reset with pwr := { Pwr.reset with held := true } }, by decide +kernel⟩⟩

/-- States and operands that meet every hypothesis of EngineRestartsAndMonitors. -/
theorem test_met_EngineRestartsAndMonitors :
    (∃ (s : State) (v a : Int), (s.sys.suspended = false) ∧ (v.natAbs ≤ 400 ∧ a.natAbs ≤ 600)) ∧
    (∃ (s : State) (v a : Int), (s.sys.suspended = false) ∧ ((s.sys.vrcOut = true ∧ 400 < v.natAbs) ∨ (s.sys.aorcOut = true ∧ 600 < a.natAbs))) ∧
    (∃ (s : State) (v a : Int), (s.sys.suspended = false) ∧ (s.sys.vrcOut = false ∧ 400 < v.natAbs) ∧ (a.natAbs ≤ 600)) ∧
    (∃ (s : State) (v : Int), (s.sys.suspended = false) ∧ (v.natAbs ≤ 400)) ∧
    (∃ (s : State) (v : Int), (s.sys.suspended = false) ∧ (s.sys.vsideOut = true ∧ 400 < v.natAbs)) ∧
    (∃ (s : State), (s.sys.suspended = false)) ∧
    (∃ (s : State) (v : Int) (a : Option Int), (s.sys.suspended = true)) :=
  ⟨⟨State.reset.modSys (fun y => { y with suspended := false }), 400, -600, by decide +kernel⟩,
   ⟨State.reset.modSys (fun y => { y with suspended := false, vrcOut := true }), -401, 0, by decide +kernel⟩,
   ⟨State.reset.modSys (fun y => { y with suspended := false }), 401, 0, by decide +kernel⟩,
   ⟨State.reset.modSys (fun y => { y with suspended := false }), 400, by decide +kernel⟩,
   ⟨State.reset.modSys (fun y => { y with suspended := false, vsideOut := true }), -401, by decide +kernel⟩,
   ⟨State.reset.modSys (fun y => { y with suspended := false }), by decide +kernel⟩,
   ⟨State.reset.modSys (fun y => { y with suspended := true }), 999, none, by decide +kernel⟩⟩

/-- States and operands that meet every hypothesis of AngleClockReload. -/
theorem test_met_AngleClockReload :
    (∃ (s : State) (b : Bridge) (x : Sample), (coreStopped s = false) ∧ (s.on (F.ANG_CTRL_EN b) = true ∧ follows s b = false) ∧ (s.ang[b.val].deliv = some x)) ∧
    (∃ (s : State) (b : Bridge) (x : Sample), (x.zero = false) ∧ (s.on (F.ANG_STAT_STILL b) = false) ∧ (mcMode s b ≠ modeSixstep ∧ mcMode s b ≠ modeBrake0)) ∧
    (∃ (s : State) (b : Bridge) (x : Sample), (x.zero = true) ∧ (mcMode s b ≠ modeSixstep ∧ mcMode s b ≠ modeBrake0)) ∧
    (∃ (s : State) (b : Bridge) (x : Sample), (x.zero = false) ∧ (s.on (F.ANG_STAT_STILL b) = true) ∧ (mcMode s b ≠ modeSixstep ∧ mcMode s b ≠ modeBrake0) ∧ (x.lowConf = true ∨ x.rate.natAbs < s.get (F.ANG_STILL_STILL_SPD b))) ∧
    (∃ (s : State) (b : Bridge) (x : Sample), (x.zero = false ∧ x.lowConf = false) ∧ (s.on (F.ANG_STAT_STILL b) = true) ∧ (mcMode s b ≠ modeSixstep ∧ mcMode s b ≠ modeBrake0) ∧ (s.get (F.ANG_STILL_STILL_SPD b) ≤ x.rate.natAbs)) ∧
    (∃ (s : State) (b : Bridge), (coreStopped s = false) ∧ (¬(b = 1 ∧ s.on (F.ANG_CTRL_FOLLOW 1) = true))) ∧
    (∃ (s : State), (coreStopped s = true)) :=
  ⟨⟨(State.reset.put (F.ANG_CTRL_EN 1) 1).modAng 1 (fun a => { a with deliv := some ⟨2, 7, 0, 70000, false, false⟩ }), 1, ⟨2, 7, 0, 70000, false, false⟩, by decide +kernel⟩,
   ⟨State.reset.put (F.ANG_STAT_STILL 1) 0, 1, ⟨2, 0xFFFFF, 0, 70000, false, false⟩, by decide +kernel⟩,
   ⟨State.reset, 0, ⟨2, 1, 0, 0, true, false⟩, by decide +kernel⟩,
   ⟨State.reset, 0, ⟨2, 1, 0, 300, false, true⟩, by decide +kernel⟩,
   ⟨State.reset.put (F.ANG_STILL_STILL_SPD 0) 300, 0, ⟨2, 1, 0, -300, false, false⟩, by decide +kernel⟩,
   ⟨State.reset, 1, by decide +kernel⟩,
   ⟨{ State.reset with pwr := { Pwr.reset with held := true } }, by decide +kernel⟩⟩

/-- States and operands that meet every hypothesis of AngleBlockWrites. -/
theorem test_met_AngleBlockWrites :
    (∃ (s : State) (b : Bridge) (src : BitVec 4), (coreStopped s = false) ∧ (accepted (0x40004000 + 0x1000 * b.val) ((F.ANG_CTRL_SRC b).write (s.rd (angCtrlAddr b)) src.toNat) s = true) ∧ ((written (0x40004000 + 0x1000 * b.val) ((F.ANG_CTRL_SRC b).write (s.rd (angCtrlAddr b)) src.toNat) s).get (F.ANG_CTRL_SRC b) ≠ s.get (F.ANG_CTRL_SRC b)) ∧ ((written (0x40004000 + 0x1000 * b.val) ((F.ANG_CTRL_SRC b).write (s.rd (angCtrlAddr b)) src.toNat) s).on (F.ANG_CTRL_EN b) = s.on (F.ANG_CTRL_EN b))) ∧
    (∃ (s : State) (b : Bridge), (coreStopped s = false) ∧ (accepted (0x40004000 + 0x1000 * b.val) ((F.ANG_CTRL_EN b).write (s.rd (angCtrlAddr b)) 1) s = true) ∧ (s.on (F.ANG_CTRL_EN b) = false) ∧ ((written (0x40004000 + 0x1000 * b.val) ((F.ANG_CTRL_EN b).write (s.rd (angCtrlAddr b)) 1) s).on (F.ANG_CTRL_EN b) = true) ∧ ((written (0x40004000 + 0x1000 * b.val) ((F.ANG_CTRL_EN b).write (s.rd (angCtrlAddr b)) 1) s).get (F.ANG_CTRL_SRC b) = s.get (F.ANG_CTRL_SRC b))) ∧
    (∃ (s : State) (b : Bridge) (n : Cue) (v : Word), (coreStopped s = false) ∧ (accepted (0x40004100 + 0x1000 * b.val + 8 * n.val) v s = true)) ∧
    (∃ (s : State) (b : Bridge) (n : Cue) (v : Word), (coreStopped s = false) ∧ (accepted (0x40004104 + 0x1000 * b.val + 8 * n.val) v s = true)) ∧
    (∃ (s : State) (b : Bridge) (line : Fin 4), (coreStopped s = false) ∧ (bitAt s.ang[b.val].pulse.toNat line.val = true)) ∧
    (∃ (s : State) (b : Bridge) (n : Cue), (coreStopped s = false) ∧ (s.on (F.ANG_CTRL_EN b) = true ∧ s.on (F.ANG_STAT_STILL b) = true) ∧ (cuePrior s b n.val = none) ∧ (s.on (F.ANG_CUECFG_EN b n) = true ∧ s.on (F.ANG_CUECFG_BASE b n) = false) ∧ ((s.get (F.ANG_CUECFG_FB b n) = 1 ∧ ∃ k ∈ s.ang[b.val].inners, k + (cuePosWord s b n.val).toNat / 2 ^ 20 = s.tick) ∨ (s.get (F.ANG_CUECFG_FB b n) = 2 ∧ ∃ k ∈ s.ang[b.val].outers, k + (cuePosWord s b n.val).toNat / 2 ^ 20 = s.tick))) ∧
    (∃ (s : State) (b : Bridge) (n : Cue), (coreStopped s = false) ∧ (cuePrior s b n.val = none) ∧ (s.on (F.ANG_CTRL_EN b) = false ∨ s.on (F.ANG_STAT_STILL b) = false ∨ s.on (F.ANG_CUECFG_EN b n) = false ∨ s.on (F.ANG_CUECFG_BASE b n) = true ∨ s.get (F.ANG_CUECFG_FB b n) = 0 ∨ s.get (F.ANG_CUECFG_FB b n) = 3)) ∧
    (∃ (s : State), (coreStopped s = true)) :=
  ⟨⟨State.reset, 1, 2, by decide +kernel⟩,
   ⟨State.reset, 1, by decide +kernel⟩,
   ⟨State.reset, 1, 63, 0xFFF80000, by decide +kernel⟩,
   ⟨State.reset, 1, 63, 0x67, by decide +kernel⟩,
   ⟨State.reset.modAng 1 (fun a => { a with pulse := 8, restore := 8 }), 1, 3, by decide +kernel⟩,
   ⟨((State.reset.put (F.ANG_CTRL_EN 1) 1).put ⟨0x40004104 + 0x1000 + 8 * 40, 0, 32⟩ 0x15).modAng 1 (fun a => { a with inners := [0] }), 1, 40, by decide +kernel⟩,
   ⟨State.reset, 1, 40, by decide +kernel⟩,
   ⟨{ State.reset with pwr := { Pwr.reset with held := true } }, by decide +kernel⟩⟩

/-- States and operands that meet every hypothesis of CueActions. -/
theorem test_met_CueActions :
    (∃ (s : State) (b : Bridge) (h : CueHit) (q : List CueHit), (coreStopped s = false) ∧ (s.ang[b.val].queue = h :: q) ∧ (h.cfg.toNat / 64 % 8 = 0)) ∧
    (∃ (s : State) (b : Bridge) (h : CueHit) (q : List CueHit), (coreStopped s = false) ∧ (s.ang[b.val].queue = h :: q) ∧ (h.cfg.toNat / 64 % 8 = 1) ∧ (mcMode s b = modeSixstep) ∧ (s.mc[b.val].returnReq = false ∧ s.mc[b.val].slowSector = false) ∧ (h.dir = 1 ∨ h.dir = -1)) ∧
    (∃ (s : State) (b : Bridge) (h : CueHit) (q : List CueHit), (coreStopped s = false) ∧ (s.ang[b.val].queue = h :: q) ∧ (h.cfg.toNat / 64 % 8 = 1) ∧ (mcMode s b ≠ modeSixstep ∨ (s.mc[b.val].returnReq = false ∧ h.dir = 0))) ∧
    (∃ (s : State) (b : Bridge) (h : CueHit) (q : List CueHit), (coreStopped s = false) ∧ (s.ang[b.val].queue = h :: q) ∧ (h.cfg.toNat / 64 % 8 = 2)) ∧
    (∃ (s : State) (b : Bridge) (h : CueHit) (q : List CueHit) (e : Eng), (coreStopped s = false) ∧ (s.ang[b.val].queue = h :: q) ∧ (h.cfg.toNat / 64 % 8 = 3 ∨ h.cfg.toNat / 64 % 8 = 4) ∧ (h.cfg.toNat / 8192 % 8 = e.val) ∧ (engineTakes s e = true) ∧ (s.eng[e.val].pending.any (fun t => t.orig == .cue b h.cue) = false)) ∧
    (∃ (s : State) (b : Bridge), (coreStopped s = false) ∧ (s.ang[b.val].queue = [])) ∧
    (∃ (s : State), (coreStopped s = true)) :=
  ⟨⟨State.reset.modAng 0 (fun a => { a with queue := [⟨0, 0, 1, 0x30001⟩] }), 0, ⟨0, 0, 1, 0x30001⟩, [], by decide +kernel⟩,
   ⟨((State.reset.put (F.MC_STAT_MODE 0) 3).put (F.ANG_RATE_RATE 0) 70000).modAng 0 (fun a => { a with queue := [⟨0, 0, 1, 0x40⟩] }), 0, ⟨0, 0, 1, 0x40⟩, [], by decide +kernel⟩,
   ⟨(State.reset.put (F.MC_STAT_MODE 0) 3).modAng 0 (fun a => { a with queue := [⟨0, 0, 0, 0x40⟩] }), 0, ⟨0, 0, 0, 0x40⟩, [], by decide +kernel⟩,
   ⟨State.reset.modAng 0 (fun a => { a with queue := [⟨0, 0, 1, 0x1880⟩] }), 0, ⟨0, 0, 1, 0x1880⟩, [], by decide +kernel⟩,
   ⟨(State.reset.put F.HLE_CTRL_EN 0x40).modAng 0 (fun a => { a with queue := [⟨5, 0xFFFFF, 1, 0x7C100⟩] }), 0, ⟨5, 0xFFFFF, 1, 0x7C100⟩, [], 6, by decide +kernel⟩,
   ⟨State.reset, 0, by decide +kernel⟩,
   ⟨{ State.reset with pwr := { Pwr.reset with held := true } }, by decide +kernel⟩⟩

/-- States and operands that meet every hypothesis of CarrierValleysAndPeaks. -/
theorem test_met_CarrierValleysAndPeaks :
    (∃ (s : State) (b : Bridge), (coreStopped s = false) ∧ (s.on (F.ANG_CTRL_EN b) = true) ∧ (s.ang[b.val].own = false) ∧ (b ≠ mainBridge s) ∧ (s.get (F.ANG_CTRL_MODE_REQ b) ≠ 1)) ∧
    (∃ (s : State) (b : Bridge), (coreStopped s = false) ∧ (s.on (F.ANG_CTRL_EN b) = true) ∧ (s.ang[b.val].own = false) ∧ (b = mainBridge s) ∧ (s.get (F.ANG_CTRL_MODE_REQ b) ≠ 1) ∧ (∀ e : Port, s.ebp[e.val].err = none ∧ s.getS (F.EBP_SLATE_TRIM e) = 0)) ∧
    (∃ (s : State) (b : Bridge), (coreStopped s = false) ∧ (s.on (F.ANG_CTRL_EN b) = true) ∧ (s.ang[b.val].own = false)) ∧
    (∃ (s : State) (b : Bridge), (s.mc[b.val].clampLeft = 0 ∧ s.mc[b.val].commitTick ≠ some s.tick)) ∧
    (∃ (s : State) (b : Bridge) (r : Bool), (coreStopped s = false) ∧ (s.on (F.ANG_CTRL_EN b) = false)) ∧
    (∃ (s : State), (coreStopped s = true)) :=
  ⟨⟨((State.reset.put (F.ANG_CTRL_EN 1) 1)), 1, by decide +kernel⟩,
   ⟨((State.reset.put (F.ANG_CTRL_EN 0) 1)), 0, by decide +kernel⟩,
   ⟨State.reset.put (F.ANG_CTRL_EN 1) 1, 1, by decide +kernel⟩,
   ⟨State.reset, 1, by decide +kernel⟩,
   ⟨State.reset, 1, false, by decide +kernel⟩,
   ⟨{ State.reset with pwr := { Pwr.reset with held := true } }, by decide +kernel⟩⟩

/-- States and operands that meet every hypothesis of TimerTickAdvancesAngle. -/
theorem test_met_TimerTickAdvancesAngle :
    (∃ (s : State) (b : Bridge), (s.pwr.aoPowered = true ∧ s.get F.PWR_STAT_STATE < 2) ∧ (s.on (F.ANG_CTRL_EN b) = true) ∧ (s.on (F.ANG_STAT_STILL b) = false) ∧ (s.get (F.ANG_STILL_STILL_SPD b) ≤ speedOf s b) ∧ (¬(b = 1 ∧ s.on (F.ANG_CTRL_FOLLOW 1) = true))) ∧
    (∃ (s : State) (b : Bridge), (s.pwr.aoPowered = false ∨ 2 ≤ s.get F.PWR_STAT_STATE ∨ s.on (F.ANG_CTRL_EN b) = false ∨ (s.on (F.ANG_STAT_STILL b) = true ∧ ¬(b = 1 ∧ s.on (F.ANG_CTRL_FOLLOW 1) = true)))) ∧
    (∃ (s : State), (s.pwr.aoPowered = true ∧ s.get F.PWR_STAT_STATE < 2) ∧ (s.on (F.ANG_CTRL_EN 1) = true ∧ s.on (F.ANG_CTRL_FOLLOW 1) = true)) :=
  ⟨⟨((State.reset.put (F.ANG_CTRL_EN 1) 1).put (F.ANG_STAT_STILL 1) 0).putS (F.ANG_RATE_RATE 1) (-256), 1, by decide +kernel⟩,
   ⟨State.reset, 0, by decide +kernel⟩,
   ⟨((State.reset.put (F.ANG_CTRL_EN 1) 1).put (F.ANG_CTRL_FOLLOW 1) 1).put (F.ANG_SHIFT_SHIFT 1) 0x15555, by decide +kernel⟩⟩

/-- States and operands that meet every hypothesis of SineCosineAndIndex. -/
theorem test_met_SineCosineAndIndex :
    (∃ (s : State) (k : PosBlk) (x y : BitVec 16), (coreStopped s = false) ∧ (s.on (F.POS_CTRL_SC_EN k) = true) ∧ (ampOk s k (correctPair s k x y) = true) ∧ (s.pos[k.val].sc.primed = false) ∧ (s.pos[k.val].sc.awaiting = true)) ∧
    (∃ (s : State) (k : PosBlk) (x y : BitVec 16), (coreStopped s = false) ∧ (s.on (F.POS_CTRL_SC_EN k) = true) ∧ (ampOk s k (correctPair s k x y) = false) ∧ (s.pos[k.val].sc.bad + 1 < s.get (F.POS_SCCFG_AMP_N k))) ∧
    (∃ (s : State) (k : PosBlk) (r : Bool), (coreStopped s = false) ∧ (s.on (F.POS_CTRL_ABZ_EN k) = true) ∧ (s.pos[k.val].abz.lastZ = none) ∧ (s.pos[k.val].abz.dir = some r ∧ s.pos[k.val].abz.known = true) ∧ (s.on (F.POS_CTRL_HOME_EN k) = true ∧ s.on (F.POS_STAT_HOMED k) = false)) ∧
    (∃ (s : State) (k : PosBlk) (r : Bool), (coreStopped s = false) ∧ (s.on (F.POS_CTRL_ABZ_EN k) = true) ∧ (s.pos[k.val].abz.lastZ = none) ∧ (s.pos[k.val].abz.dir ≠ some r ∨ s.pos[k.val].abz.known = false)) ∧
    (∃ (s : State), (coreStopped s = true)) :=
  ⟨⟨State.reset.put (F.POS_CTRL_SC_EN 1) 1, 1, 16384, 0, by decide +kernel⟩,
   ⟨State.reset.put (F.POS_CTRL_SC_EN 1) 1, 1, 0, 0, by decide +kernel⟩,
   ⟨((State.reset.put (F.POS_CTRL_ABZ_EN 0) 1).put (F.POS_CTRL_HOME_EN 0) 1).modPos 0 (fun p => { p with abz := { p.abz with dir := some false, known := true } }), 0, false, by decide +kernel⟩,
   ⟨State.reset.put (F.POS_CTRL_ABZ_EN 0) 1, 0, true, by decide +kernel⟩,
   ⟨{ State.reset with pwr := { Pwr.reset with held := true } }, by decide +kernel⟩⟩

/-- States and operands that meet every hypothesis of EdgeInterfaces. -/
theorem test_met_EdgeInterfaces :
    (∃ (s : State) (k : PosBlk) (x y : Bool), (coreStopped s = false) ∧ (s.on (F.POS_CTRL_ABZ_EN k) = true ∧ s.on (F.POS_CTRL_DIRINV k) = false) ∧ (s.pos[k.val].abz.last = none) ∧ ((abzIndex (x.toNat + 2 * y.toNat) + 4 - abzIndex s.pos[k.val].abz.code.toNat) % 4 = 1)) ∧
    (∃ (s : State) (k : PosBlk) (x y : Bool) (t0 : Nat), (coreStopped s = false) ∧ (s.on (F.POS_CTRL_ABZ_EN k) = true) ∧ (s.pos[k.val].abz.last = some t0) ∧ (s.tick < t0 + 2 * s.get (F.POS_ABZCFG_TEDGE k))) ∧
    (∃ (s : State) (k : PosBlk) (x y : Bool), (coreStopped s = false) ∧ (s.on (F.POS_CTRL_ABZ_EN k) = true) ∧ (s.pos[k.val].abz.last = none) ∧ ((abzIndex (x.toNat + 2 * y.toNat) + 4 - abzIndex s.pos[k.val].abz.code.toNat) % 4 = 2)) ∧
    (∃ (s : State) (k : PosBlk) (l : EdgeLines), (coreStopped s = false) ∧ (s.on (F.POS_CTRL_ABZ_EN k) = true) ∧ (s.pos[k.val].abz.resample = [s.tick]) ∧ (∀ u ∈ s.pos[k.val].hall.resample, s.tick < u) ∧ (s.pos[k.val].abz.code = BitVec.ofNat 3 (l.a.toNat + 2 * l.b.toNat))) ∧
    (∃ (s : State) (k : PosBlk) (c : BitVec 3) (new old : Nat), (coreStopped s = false) ∧ (s.on (F.POS_CTRL_HALL_EN k) = true) ∧ (s.pos[k.val].hall.last = none) ∧ (hallSector s k c.toNat = some new ∧ hallSector s k s.pos[k.val].hall.code.toNat = some old) ∧ ((new + 6 - old) % 6 = 1)) ∧
    (∃ (s : State) (k : PosBlk) (i : EdgeIface), (coreStopped s = false) ∧ (s.on (ifaceEn k (edgeIdx i)) = true)) ∧
    (∃ (s : State) (k : PosBlk) (i : EdgeIface) (span n t0 : Nat), (coreStopped s = false) ∧ (s.on (ifaceEn k (edgeIdx i)) = true) ∧ ((edgeOf s k i).interval = some (span, n) ∧ (edgeOf s k i).last = some t0) ∧ (span < (s.tick - t0) * n)) ∧
    (∃ (s : State), (coreStopped s = true)) :=
  ⟨⟨State.reset.put (F.POS_CTRL_ABZ_EN 1) 1, 1, true, false, by decide +kernel⟩,
   ⟨((State.reset.put (F.POS_CTRL_ABZ_EN 1) 1).put (F.POS_ABZCFG_TEDGE 1) 5).modPos 1 (fun p => { p with abz := { p.abz with last := some 0 } }), 1, true, false, 0, by decide +kernel⟩,
   ⟨State.reset.put (F.POS_CTRL_ABZ_EN 1) 1, 1, true, true, by decide +kernel⟩,
   ⟨(State.reset.put (F.POS_CTRL_ABZ_EN 1) 1).modPos 1 (fun p => { p with abz := { p.abz with resample := [0] } }), 1, ⟨false, false, 0⟩, by decide +kernel⟩,
   ⟨(State.reset.put (F.POS_CTRL_HALL_EN 1) 1).modPos 1 (fun p => { p with hall := { p.hall with code := 1 } }), 1, 3, 1, 0, by decide +kernel⟩,
   ⟨State.reset.put (F.POS_CTRL_HALL_EN 1) 1, 1, .hall, by decide +kernel⟩,
   ⟨{ (State.reset.put (F.POS_CTRL_ABZ_EN 0) 1).modPos 0 (fun p => { p with abz := { p.abz with interval := some (30, 1), last := some 0 } }) with tick := 31 }, 0, .abz, 30, 1, 0, by decide +kernel⟩,
   ⟨{ State.reset with pwr := { Pwr.reset with held := true } }, by decide +kernel⟩⟩

/-- States and operands that meet every hypothesis of PositionSourcesAndOutputs. -/
theorem test_met_PositionSourcesAndOutputs :
    (∃ (s : State) (c : SentCh) (f : SentFrame), (coreStopped s = false) ∧ (s.on (F.SENT_CFG_EN c) = true) ∧ (sentShapeOk s c f = true ∧ sentCrcOk s c f = true) ∧ (s.on (F.SENT_MAP_DIRINV c) = false) ∧ (s.sent[c.val].awaiting = true)) ∧
    (∃ (s : State) (c : SentCh) (f : SentFrame), (coreStopped s = false) ∧ (s.on (F.SENT_CFG_EN c) = true) ∧ (sentShapeOk s c f = true ∧ sentCrcOk s c f = false) ∧ (s.sent[c.val].bad + 1 < s.get (F.SENT_CFG_ERRLIM c))) ∧
    (∃ (s : State) (c : SentCh), (coreStopped s = false) ∧ (s.on (F.SENT_STAT_VALID c) = true)) ∧
    (∃ (s : State) (c : SentCh), (coreStopped s = false) ∧ (s.on (F.SENT_STAT_VALID c) = false)) ∧
    (∃ (s : State) (k : PosBlk) (m : BitVec 3), (coreStopped s = false)) ∧
    (∃ (s : State) (k : PosBlk) (v : Word), (coreStopped s = false)) ∧
    (∃ (s : State), (coreStopped s = false)) ∧
    (∃ (s : State) (k : PosBlk) (j : Fin 2) (u : Fin 4) (v : Word), (coreStopped s = false) ∧ (u.val = 2 * k.val + j.val) ∧ (accepted (0x40006074 + 0x1000 * k.val + 0x10 * j.val) v s = true)) ∧
    (∃ (s : State) (m L : Nat), (coreStopped s = false) ∧ (s.on F.EMU_CTRL_EN = true) ∧ (emuSource s = some m ∧ emuSpaced s = true) ∧ (L = 4 * (s.get F.EMU_CFG_LINES + 1) ∧ s.get F.EMU_STAT_OUTCNT < L) ∧ ((s.get F.EMU_STAT_OUTCNT + 1) % L = m * L / 2 ^ 24)) ∧
    (∃ (s : State) (m : Nat), (coreStopped s = false) ∧ (s.on F.EMU_CTRL_EN = true) ∧ (emuSource s = some m ∧ emuSpaced s = false)) ∧
    (∃ (s : State), (coreStopped s = false) ∧ (s.on F.EMU_CTRL_EN = true) ∧ (emuSource s = none)) ∧
    (∃ (s : State), (coreStopped s = true)) :=
  ⟨⟨(State.reset.put (F.SENT_CFG_EN 3) 1), 3, { sentAt with pulses := sentAt.pulses ++ [12 + sentCrc4 false (List.replicate (State.reset.get (F.SENT_CFG_NIB 3)) 1)] }, by decide +kernel⟩,
   ⟨(State.reset.put (F.SENT_CFG_EN 3) 1), 3, { sentAt with pulses := sentAt.pulses ++ [12 + (sentCrc4 false (List.replicate (State.reset.get (F.SENT_CFG_NIB 3)) 1) + 1) % 16] }, by decide +kernel⟩,
   ⟨State.reset.put (F.SENT_STAT_VALID 2) 1, 2, by decide +kernel⟩,
   ⟨State.reset, 2, by decide +kernel⟩,
   ⟨State.reset, 0, 0, by decide +kernel⟩,
   ⟨State.reset, 0, 0, by decide +kernel⟩,
   ⟨State.reset, by decide +kernel⟩,
   ⟨State.reset, 1, 1, 3, 0xFFFFFFFF, by decide +kernel⟩,
   ⟨(((State.reset.put F.EMU_CTRL_EN 1).put (F.POS_STAT_MTVALID 0) 1).put (F.POS_MECH_MECH 0) 0x1000).put F.EMU_CFG_LINES 1023, 0x1000, 4096, by decide +kernel⟩,
   ⟨{ (((State.reset.put F.EMU_CTRL_EN 1).put (F.POS_STAT_MTVALID 0) 1).put F.EMU_CFG_TMIN 9) with emu := ⟨false, false, false, some 0⟩ }, 0, by decide +kernel⟩,
   ⟨State.reset.put F.EMU_CTRL_EN 1, by decide +kernel⟩,
   ⟨{ State.reset with pwr := { Pwr.reset with held := true } }, by decide +kernel⟩⟩

/-- States and operands that meet every hypothesis of SampleWindows. -/
theorem test_met_SampleWindows :
    (∃ (s : State) (b : Bridge) (p : Fin 4), (coreStopped s = false) ∧ (s.bit F.ISNS_STAT_CALBUSY b = false) ∧ (isnsEnabled s b = true) ∧ (s.isnsB[b.val].win = none)) ∧
    (∃ (s : State) (b : Bridge) (p : Fin 4) (w : Fin 4 × Nat), (coreStopped s = false) ∧ (s.bit F.ISNS_STAT_CALBUSY b = false) ∧ (isnsEnabled s b = true) ∧ (s.isnsB[b.val].win = some w) ∧ (s.isnsB[b.val].queued = none)) ∧
    (∃ (s : State) (b : Bridge) (p q : Fin 4) (w : Fin 4 × Nat), (coreStopped s = false) ∧ (s.bit F.ISNS_STAT_CALBUSY b = false) ∧ (isnsEnabled s b = true) ∧ (s.isnsB[b.val].win = some w) ∧ (s.isnsB[b.val].queued = some q)) ∧
    (∃ (s : State) (b : Bridge) (x1 x2 : List Bool) (p : Fin 4) (t0 : Nat), (coreStopped s = false) ∧ (s.isnsB[b.val].win = some (p, t0)) ∧ (s.isnsB[b.val].queued = none)) ∧
    (∃ (s : State) (b : Bridge) (x1 x2 : List Bool) (p q : Fin 4) (t0 : Nat), (coreStopped s = false) ∧ (s.isnsB[b.val].win = some (p, t0)) ∧ (s.isnsB[b.val].queued = some q)) ∧
    (∃ (s : State) (b : Bridge) (x1 x2 : List Bool) (p : Fin 4) (t0 : Nat), (coreStopped s = false) ∧ (s.isnsB[b.val].win = some (p, t0))) ∧
    (∃ (s : State), (coreStopped s = true)) :=
  ⟨⟨State.reset.put F.ISNS_CTRL_ENB 1, 1, 3, by decide +kernel⟩,
   ⟨(State.reset.put F.ISNS_CTRL_ENB 1).modBridge 1 (fun x => { x with win := some (0, 0) }), 1, 3, (0, 0), by decide +kernel⟩,
   ⟨(State.reset.put F.ISNS_CTRL_ENB 1).modBridge 1 (fun x => { x with win := some (0, 0), queued := some 1 }), 1, 3, 1, (0, 0), by decide +kernel⟩,
   ⟨State.reset.modBridge 1 (fun x => { x with win := some (2, 0) }), 1, [true, false], [], 2, 0, by decide +kernel⟩,
   ⟨State.reset.modBridge 1 (fun x => { x with win := some (2, 0), queued := some 1 }), 1, [true, false], [], 2, 1, 0, by decide +kernel⟩,
   ⟨State.reset.modBridge 1 (fun x => { x with win := some (2, 0) }), 1, [true, false], [], 2, 0, by decide +kernel⟩,
   ⟨{ State.reset with pwr := { Pwr.reset with held := true } }, by decide +kernel⟩⟩

/-- States and operands that meet every hypothesis of CurrentChannels. -/
theorem test_met_CurrentChannels :
    (∃ (s : State) (c : IsnsCh), (coreStopped s = false)) ∧
    (∃ (s : State) (c : IsnsCh), (coreStopped s = false) ∧ (isnsEnabled s (chanBridge c) = true)) ∧
    (∃ (s : State) (b : Bridge), (coreStopped s = false) ∧ (isnsEnabled s b = true) ∧ (s.get (smptmoFld b) ≠ 0 ∧ s.get (smptmoFld b) ≤ s.isnsB[b.val].idle)) ∧
    (∃ (s : State) (m : BitVec 4), (coreStopped s = false)) ∧
    (∃ (s : State) (b : Bridge), (coreStopped s = false) ∧ (legsAtRest s b = true ∨ isoIsOpen s b = true)) ∧
    (∃ (s : State) (b : Bridge) (m1 m2 : TrimReading), (coreStopped s = false) ∧ (s.bit F.ISNS_STAT_CALBUSY b = true)) ∧
    (∃ (s : State) (b : Bridge), (coreStopped s = false) ∧ (s.bit F.ISNS_STAT_CALBUSY b = true)) ∧
    (∃ (s : State) (b : Bridge) (p : Fin 4), (coreStopped s = false) ∧ (s.bit F.ISNS_STAT_CALBUSY b = true) ∧ (isnsEnabled s b = true) ∧ (s.isnsB[b.val].win = none)) ∧
    (∃ (s : State) (b : Bridge), (coreStopped s = false) ∧ (legsAtRest s b = false ∧ isoIsOpen s b = false)) ∧
    (∃ (s : State), (coreStopped s = true)) :=
  ⟨⟨State.reset, 0, by decide +kernel⟩,
   ⟨State.reset.put F.ISNS_CTRL_ENA 1, 1, by decide +kernel⟩,
   ⟨((State.reset.put F.ISNS_CTRL_ENB 1).put F.ISNS_TMO_SMPTMO_B 1).modBridge 1 (fun x => { x with idle := 1 }), 1, by decide +kernel⟩,
   ⟨State.reset, 0, by decide +kernel⟩,
   ⟨State.reset, 1, by decide +kernel⟩,
   ⟨State.reset.put F.ISNS_STAT_CALBUSY 2, 1, ⟨[8, -4], 2 ^ 20⟩, ⟨[0], 0⟩, by decide +kernel⟩,
   ⟨State.reset.put F.ISNS_STAT_CALBUSY 2, 1, by decide +kernel⟩,
   ⟨(State.reset.put F.ISNS_STAT_CALBUSY 2).put F.ISNS_CTRL_ENB 1, 1, 3, by decide +kernel⟩,
   ⟨(State.reset.put F.SAFE_ISOFB_FB 0).modGate 1 (fun g => { g with sw := g.sw.set 2 { g.sw[2] with phase := .onHold } }), 1, by decide +kernel⟩,
   ⟨{ State.reset with pwr := { Pwr.reset with held := true } }, by decide +kernel⟩⟩

/-- States and operands that meet every hypothesis of MeanWindowsAndComparisons. -/
theorem test_met_MeanWindowsAndComparisons :
    (∃ (s : State), (coreStopped s = false) ∧ (laneTimer s % 20000 = 0)) ∧
    (∃ (s : State), (coreStopped s = false) ∧ (laneTimer s % 20000 ≠ 0)) ∧
    (∃ (s : State), (coreStopped s = false)) ∧
    (∃ (s : State) (a b c d : Int), (issues s .v = true) ∧ (∀ k : IsnsCh, compared s k = false)) ∧
    (∃ (s : State) (m : IsnsCh → Int), (issues s .v = true) ∧ (∀ k : IsnsCh, compared s k = true ∧ s.bit F.ISNS_MSEQ_EMPTY k = false) ∧ (∀ k : IsnsCh, (4 * (vMean s k (m k)).2 * s.getS (F.ISNS_MEAN_MEAN k) - (if s.on (F.ISNS_CHCFG_INV k) then -(vMean s k (m k)).1 else (vMean s k (m k)).1)).natAbs ≤ s.get F.SAFE_ICMP_TOL * 512 * (vMean s k (m k)).2)) ∧
    (∃ (s : State) (v : Nat), (issues s .v = true) ∧ (s.driver.vmotOldNum ≠ 0) ∧ ((((v * s.driver.vmotOldNum : Nat) : Int) - (s.driver.vmotOldSum : Nat)).natAbs ≤ s.get F.VBUS_VCMP_VTOL * 5 * s.driver.vmotOldNum)) ∧
    (∃ (s : State) (v : Nat), (issues s .v = true) ∧ (s.driver.vmotOldNum ≠ 0) ∧ (s.get F.VBUS_VCMP_VTOL * 5 * s.driver.vmotOldNum < (((v * s.driver.vmotOldNum : Nat) : Int) - (s.driver.vmotOldSum : Nat)).natAbs) ∧ (1 ≤ s.driver.vmotFails)) ∧
    (∃ (s : State) (a b c d : Nat), (issues s .v = true) ∧ (3000 ≤ a ∧ a ≤ 3600) ∧ (3000 ≤ b ∧ b ≤ 3600) ∧ (2450 ≤ c ∧ c ≤ 2550) ∧ (1176 ≤ d ∧ d ≤ 1224)) ∧
    (∃ (s : State) (a b c d : Nat), (issues s .v = true) ∧ (a < 3000 ∨ 3600 < a ∨ b < 3000 ∨ 3600 < b ∨ c < 2450 ∨ 2550 < c ∨ d < 1176 ∨ 1224 < d) ∧ (s.safe.railFails = 1)) ∧
    (∃ (s : State), (coreStopped s = true)) :=
  ⟨⟨State.reset, by decide +kernel⟩,
   ⟨{ State.reset with tick := 7 }, by decide +kernel⟩,
   ⟨State.reset, by decide +kernel⟩,
   ⟨vReset, 1, 2, 3, 4, by decide +kernel⟩,
   ⟨(((vReset.put F.ISNS_CTRL_ENA 1).put F.ISNS_CTRL_ENB 1).put F.ISNS_MSEQ_EMPTY 0).put F.SEAL_STRAP_WORD 0x20, fun _ => 0, by decide +kernel⟩,
   ⟨vReset.modDriver (fun d => { d with vmotOldNum := 100, vmotOldSum := 480000 }), 4800, by decide +kernel⟩,
   ⟨vReset.modDriver (fun d => { d with vmotOldNum := 100, vmotOldSum := 480000, vmotFails := 1 }), 9000, by decide +kernel⟩,
   ⟨vReset, 3300, 3600, 2450, 1200, by decide +kernel⟩,
   ⟨vReset.modSafe (fun x => { x with railFails := 1 }), 3300, 3601, 2450, 1200, by decide +kernel⟩,
   ⟨{ State.reset with pwr := { Pwr.reset with held := true } }, by decide +kernel⟩⟩

/-- States and operands that meet every hypothesis of ActivationsAndTriggers. -/
theorem test_met_ActivationsAndTriggers :
    (∃ (l : List Trigger) (t : Trigger), (nextTrigger l = some t)) ∧
    (∃ (l : List Trigger), (l ≠ [])) ∧
    (∃ (s : State) (e : Eng) (r : Trigger), (engBusy s e = false) ∧ (engineTakes s e = true) ∧ (nextTrigger s.eng[e.val].pending = some r) ∧ (256 ≤ (s.memWord (engBase e + 4 * r.ep.toNat)).toNat ∧ (s.memWord (engBase e + 4 * r.ep.toNat)).toNat ≤ 3071)) ∧
    (∃ (s : State) (e : Eng) (r : Trigger), (engBusy s e = false) ∧ (engineTakes s e = true) ∧ (nextTrigger s.eng[e.val].pending = some r) ∧ ((s.memWord (engBase e + 4 * r.ep.toNat)).toNat < 256 ∨ 3071 < (s.memWord (engBase e + 4 * r.ep.toNat)).toNat)) ∧
    (∃ (s : State) (e : Eng), (engBusy s e = true ∨ engineTakes s e = false)) ∧
    (∃ (s : State) (e : Eng) (ep : Byte), (coreStopped s = false) ∧ (engineTakes s e = true) ∧ (∀ r ∈ s.eng[e.val].pending, r.orig ≠ .software)) ∧
    (∃ (s : State) (e : Eng) (ep : Byte) (r : Trigger), (coreStopped s = false) ∧ (engineTakes s e = true) ∧ (r ∈ s.eng[e.val].pending ∧ r.orig = .software)) ∧
    (∃ (s : State) (e : Eng) (ep : Byte), (coreStopped s = false) ∧ (engineTakes s e = false)) ∧
    (∃ (s : State) (m : BitVec 7), (coreStopped s = false)) ∧
    (∃ (s : State), (coreStopped s = true)) :=
  ⟨⟨[⟨.software, 1, 5⟩, ⟨.outer 1, 2, 6⟩, ⟨.outer 0, 3, 6⟩], ⟨.outer 0, 3, 6⟩, by decide +kernel⟩,
   ⟨[⟨.software, 1, 5⟩], by decide +kernel⟩,
   ⟨((State.reset.put F.HLE_CTRL_EN 8).modEng 3 (fun g => { g with pending := [⟨.software, 1, 5⟩] })).setMemWord (engBase 3 + 4) 300, 3, ⟨.software, 1, 5⟩, by decide +kernel⟩,
   ⟨(State.reset.put F.HLE_CTRL_EN 8).modEng 3 (fun g => { g with pending := [⟨.software, 1, 5⟩] }), 3, ⟨.software, 1, 5⟩, by decide +kernel⟩,
   ⟨State.reset, 3, by decide +kernel⟩,
   ⟨State.reset.put F.HLE_CTRL_EN 8, 3, 255, by decide +kernel⟩,
   ⟨(State.reset.put F.HLE_CTRL_EN 8).modEng 3 (fun g => { g with pending := [⟨.software, 1, 5⟩] }), 3, 255, ⟨.software, 1, 5⟩, by decide +kernel⟩,
   ⟨State.reset, 3, 255, by decide +kernel⟩,
   ⟨State.reset, 0, by decide +kernel⟩,
   ⟨{ State.reset with pwr := { Pwr.reset with held := true } }, by decide +kernel⟩⟩

/-- States and operands that meet every hypothesis of EngineSettings. -/
theorem test_met_EngineSettings :
    (∃ (s : State) (e : Eng) (o : Bool), (coreStopped s = false) ∧ (swapOwned s e = false) ∧ (accepted (engCtrlAddr e) ((F.HLE_ENGCTRL_OPEN e).write (s.rd (engCtrlAddr e)) o.toNat) s = true)) ∧
    (∃ (s : State) (e : Eng) (k : Bool), (coreStopped s = false) ∧ (swapOwned s e = false) ∧ (accepted (engCtrlAddr e) ((F.HLE_ENGCTRL_BANK e).write (s.rd (engCtrlAddr e)) k.toNat) s = true)) ∧
    (∃ (s : State) (e : Eng) (o k : Bool), (coreStopped s = false) ∧ (topology s ≠ 0 ∧ s.get F.CONT_CFCFG_OENG = e.val)) ∧
    (∃ (s : State) (e : Eng) (v : BitVec 2), (coreStopped s = false) ∧ (s.on (F.HLE_ENGSTAT_OPENACT e) = true) ∧ (accepted (engCtrlAddr e) ((F.HLE_ENGCTRL_BIND e).write (s.rd (engCtrlAddr e)) v.toNat) s = true)) ∧
    (∃ (s : State) (e f : Eng) (v : BitVec 2), (coreStopped s = false) ∧ (s.on (F.HLE_ENGSTAT_OPENACT e) = true) ∧ (f ≠ e) ∧ (v ≠ 0 ∧ s.get (F.HLE_ENGCTRL_BIND f) = v.toNat)) ∧
    (∃ (s : State) (e : Eng), (coreStopped s = false) ∧ (s.on (F.HLE_ENGSTAT_FAULT e) = false) ∧ (accepted (engCtrlAddr e) ((F.HLE_ENGCTRL_RESTART e).write (s.rd (engCtrlAddr e)) 1) s = true)) ∧
    (∃ (s : State) (e : Eng), (coreStopped s = false) ∧ (s.on (F.HLE_ENGSTAT_FAULT e) = true)) ∧
    (∃ (s : State), (coreStopped s = true)) :=
  ⟨⟨State.reset, 6, false, by decide +kernel⟩,
   ⟨State.reset, 6, true, by decide +kernel⟩,
   ⟨(State.reset.put F.SEAL_STRAP_WORD 12).put F.CONT_CFCFG_OENG 6, 6, false, true, by decide +kernel⟩,
   ⟨State.reset, 6, 2, by decide +kernel⟩,
   ⟨State.reset.put (F.HLE_ENGCTRL_BIND 2) 2, 6, 2, 2, by decide +kernel⟩,
   ⟨State.reset.modEng 6 (fun g => { g with halted := true }), 6, by decide +kernel⟩,
   ⟨State.reset.put (F.HLE_ENGSTAT_FAULT 6) 1, 6, by decide +kernel⟩,
   ⟨{ State.reset with pwr := { Pwr.reset with held := true } }, by decide +kernel⟩⟩

/-- States and operands that meet every hypothesis of EngineFaults. -/
theorem test_met_EngineFaults :
    (∃ (s : State) (e : Eng) (c : EngineCause) (a : Word), (engBusy s e = true ∧ enginesHeld s = false ∧ fitsLimit s e 1 = true) ∧ (c ≠ .parity ∧ c ≠ .watchdog)) ∧
    (∃ (s : State) (e : Eng) (a : Word), (engBusy s e = false ∧ enginesHeld s = false)) ∧
    (∃ (s : State) (e : Eng), (coreStopped s = false) ∧ (engBusy s e = true ∧ enginesHeld s = false ∧ s.get (F.HLE_ENGWDOG_LIMIT e) ≤ s.eng[e.val].cycles)) ∧
    (∃ (s : State) (e : Eng), (engBusy s e = true ∧ enginesHeld s = false ∧ fitsLimit s e 1 = true)) ∧
    (∃ (s : State) (e : Eng), (coreStopped s = false) ∧ (enginesHeld s = false)) ∧
    (∃ (s : State) (e : Eng), (coreStopped s = false) ∧ (engBusy s e = false ∨ enginesHeld s = true)) ∧
    (∃ (s : State), (coreStopped s = true)) :=
  ⟨⟨(State.reset.put (F.HLE_ENGSTAT_BUSY 3) 1), 3, .memory, 0x30018000, by decide +kernel⟩,
   ⟨State.reset, 3, 0x30018000, by decide +kernel⟩,
   ⟨(State.reset.put (F.HLE_ENGSTAT_BUSY 3) 1).modEng 3 (fun g => { g with cycles := 8192 }), 3, by decide +kernel⟩,
   ⟨(State.reset.put (F.HLE_ENGSTAT_BUSY 3) 1), 3, by decide +kernel⟩,
   ⟨State.reset, 3, by decide +kernel⟩,
   ⟨State.reset, 3, by decide +kernel⟩,
   ⟨{ State.reset with pwr := { Pwr.reset with held := true } }, by decide +kernel⟩⟩

/-- States and operands that meet every hypothesis of RegisterInstructions. -/
theorem test_met_RegisterInstructions :
    (∃ (s : State) (e : Eng) (d a : XReg), (engBusy s e = true ∧ enginesHeld s = false ∧ fitsLimit s e 1 = true)) ∧
    (∃ (s : State) (e : Eng) (d : XReg) (v : Q20), (engBusy s e = true ∧ enginesHeld s = false ∧ fitsLimit s e 1 = true)) ∧
    (∃ (s : State) (e : Eng) (d a b : XReg), (engBusy s e = true ∧ enginesHeld s = false ∧ fitsLimit s e 1 = true)) ∧
    (∃ (s : State) (e : Eng) (d a b : XReg), (engBusy s e = true ∧ enginesHeld s = false ∧ fitsLimit s e 1 = true)) ∧
    (∃ (s : State) (e : Eng) (d a : XReg), (engBusy s e = true ∧ enginesHeld s = false ∧ fitsLimit s e 1 = true)) ∧
    (∃ (s : State) (e : Eng) (d a b : XReg), (engBusy s e = true ∧ enginesHeld s = false ∧ fitsLimit s e 1 = true)) ∧
    (∃ (s : State) (e : Eng) (d a b : XReg), (engBusy s e = true ∧ enginesHeld s = false ∧ fitsLimit s e 1 = true)) ∧
    (∃ (s : State) (e : Eng) (d a : XReg), (engBusy s e = true ∧ enginesHeld s = false ∧ fitsLimit s e 1 = true)) ∧
    (∃ (s : State) (e : Eng) (d a : XReg), (engBusy s e = true ∧ enginesHeld s = false ∧ fitsLimit s e 1 = true) ∧ (xr s e a ≠ 0x80000#20)) ∧
    (∃ (s : State) (e : Eng) (d a : XReg), (engBusy s e = true ∧ enginesHeld s = false ∧ fitsLimit s e 1 = true) ∧ (xr s e a = 0x80000#20)) ∧
    (∃ (s : State) (e : Eng) (d a b : XReg), (engBusy s e = true ∧ enginesHeld s = false ∧ fitsLimit s e 1 = true)) ∧
    (∃ (s : State) (e : Eng) (d a b : XReg), (engBusy s e = true ∧ enginesHeld s = false ∧ fitsLimit s e 1 = true)) ∧
    (∃ (s : State) (e : Eng) (d a : XReg) (n : Fin 20), (engBusy s e = true ∧ enginesHeld s = false ∧ fitsLimit s e 1 = true)) ∧
    (∃ (s : State) (e : Eng) (d a : XReg) (n : Fin 20), (engBusy s e = true ∧ enginesHeld s = false ∧ fitsLimit s e 1 = true)) ∧
    (∃ (s : State) (e : Eng) (d a b : XReg), (engBusy s e = true ∧ enginesHeld s = false ∧ fitsLimit s e 1 = true)) ∧
    (∃ (s : State) (e : Eng) (d a b : XReg), (engBusy s e = true ∧ enginesHeld s = false ∧ fitsLimit s e 1 = true)) ∧
    (∃ (s : State) (e : Eng) (d a b : XReg), (engBusy s e = true ∧ enginesHeld s = false ∧ fitsLimit s e 1 = true)) ∧
    (∃ (s : State) (e : Eng) (a b : XReg), (engBusy s e = true ∧ enginesHeld s = false ∧ fitsLimit s e 1 = true)) ∧
    (∃ (s : State) (e : Eng) (d a b : XReg), (engBusy s e = true ∧ enginesHeld s = false ∧ fitsLimit s e 1 = false)) ∧
    (∃ (s : State) (e : Eng) (d a b : XReg), (engBusy s e = false)) :=
  ⟨⟨(State.reset.put (F.HLE_ENGSTAT_BUSY 3) 1), 3, 1, 2, by decide +kernel⟩,
   ⟨(State.reset.put (F.HLE_ENGSTAT_BUSY 3) 1), 3, 1, 2, by decide +kernel⟩,
   ⟨(State.reset.put (F.HLE_ENGSTAT_BUSY 3) 1), 3, 1, 2, 3, by decide +kernel⟩,
   ⟨(State.reset.put (F.HLE_ENGSTAT_BUSY 3) 1), 3, 1, 2, 3, by decide +kernel⟩,
   ⟨(State.reset.put (F.HLE_ENGSTAT_BUSY 3) 1), 3, 1, 2, by decide +kernel⟩,
   ⟨(State.reset.put (F.HLE_ENGSTAT_BUSY 3) 1), 3, 1, 2, 3, by decide +kernel⟩,
   ⟨(State.reset.put (F.HLE_ENGSTAT_BUSY 3) 1), 3, 1, 2, 3, by decide +kernel⟩,
   ⟨(State.reset.put (F.HLE_ENGSTAT_BUSY 3) 1), 3, 1, 2, by decide +kernel⟩,
   ⟨(State.reset.put (F.HLE_ENGSTAT_BUSY 3) 1), 3, 1, 2, by decide +kernel⟩,
   ⟨(State.reset.put (F.HLE_ENGSTAT_BUSY 3) 1).modEng 3 (fun g => { g with x := g.x.set 2 0x80000#20 }), 3, 1, 2, by decide +kernel⟩,
   ⟨(State.reset.put (F.HLE_ENGSTAT_BUSY 3) 1), 3, 1, 2, 3, by decide +kernel⟩,
   ⟨(State.reset.put (F.HLE_ENGSTAT_BUSY 3) 1), 3, 1, 2, 3, by decide +kernel⟩,
   ⟨(State.reset.put (F.HLE_ENGSTAT_BUSY 3) 1), 3, 1, 2, 19, by decide +kernel⟩,
   ⟨(State.reset.put (F.HLE_ENGSTAT_BUSY 3) 1), 3, 1, 2, 19, by decide +kernel⟩,
   ⟨(State.reset.put (F.HLE_ENGSTAT_BUSY 3) 1), 3, 1, 2, 3, by decide +kernel⟩,
   ⟨(State.reset.put (F.HLE_ENGSTAT_BUSY 3) 1), 3, 1, 2, 3, by decide +kernel⟩,
   ⟨(State.reset.put (F.HLE_ENGSTAT_BUSY 3) 1), 3, 1, 2, 3, by decide +kernel⟩,
   ⟨(State.reset.put (F.HLE_ENGSTAT_BUSY 3) 1), 3, 1, 2, by decide +kernel⟩,
   ⟨(State.reset.put (F.HLE_ENGSTAT_BUSY 3) 1).modEng 3 (fun g => { g with cycles := 8192 }), 3, 1, 2, 3, by decide +kernel⟩,
   ⟨State.reset, 3, 1, 2, 3, by decide +kernel⟩⟩

/-- States and operands that meet every hypothesis of LoadsAndStores. -/
theorem test_met_LoadsAndStores :
    (∃ (s : State) (e : Eng) (d : XReg) (m : MemOperand), (engBusy s e = true ∧ enginesHeld s = false ∧ fitsLimit s e 1 = true)) ∧
    (∃ (s : State) (e : Eng) (d : XReg) (m : MemOperand), (engBusy s e = true ∧ enginesHeld s = false ∧ fitsLimit s e 1 = true)) ∧
    (∃ (s : State) (e : Eng) (m : MemOperand) (a : XReg), (engBusy s e = true ∧ enginesHeld s = false ∧ fitsLimit s e 1 = true)) ∧
    (∃ (s : State) (e : Eng) (m : MemOperand) (a : XReg), (engBusy s e = true ∧ enginesHeld s = false ∧ fitsLimit s e 1 = true)) :=
  ⟨⟨(State.reset.put (F.HLE_ENGSTAT_BUSY 3) 1), 3, 1, .postInc 2, by decide +kernel⟩,
   ⟨(State.reset.put (F.HLE_ENGSTAT_BUSY 3) 1), 3, 1, .direct 2, by decide +kernel⟩,
   ⟨(State.reset.put (F.HLE_ENGSTAT_BUSY 3) 1), 3, .indexed 7, 1, by decide +kernel⟩,
   ⟨(State.reset.put (F.HLE_ENGSTAT_BUSY 3) 1), 3, .indexed 7, 1, by decide +kernel⟩⟩

/-- States and operands that meet every hypothesis of MultipliesAndAccumulators. -/
theorem test_met_MultipliesAndAccumulators :
    (∃ (s : State) (e : Eng) (c : Fin 2) (o : MulOperand), (engBusy s e = true ∧ enginesHeld s = false ∧ fitsLimit s e 1 = true)) ∧
    (∃ (s : State) (e : Eng) (c : Fin 2) (o : MulOperand), (engBusy s e = true ∧ enginesHeld s = false ∧ fitsLimit s e 1 = true)) ∧
    (∃ (s : State) (e : Eng) (c : Fin 2) (o : MulOperand), (engBusy s e = true ∧ enginesHeld s = false ∧ fitsLimit s e 1 = true)) ∧
    (∃ (s : State) (e : Eng) (o0 o1 : MulOperand), (engBusy s e = true ∧ enginesHeld s = false ∧ fitsLimit s e 1 = true)) ∧
    (∃ (s : State) (e : Eng) (o0 o1 : MulOperand), (engBusy s e = true ∧ enginesHeld s = false ∧ fitsLimit s e 1 = true)) ∧
    (∃ (s : State) (e : Eng) (o0 o1 : MulOperand), (engBusy s e = true ∧ enginesHeld s = false ∧ fitsLimit s e 1 = true)) ∧
    (∃ (s : State) (e : Eng) (c : Fin 2), (engBusy s e = true ∧ enginesHeld s = false ∧ fitsLimit s e 1 = true)) ∧
    (∃ (s : State) (e : Eng) (c : Fin 2) (n : Nat), (engBusy s e = true ∧ enginesHeld s = false ∧ fitsLimit s e 1 = true) ∧ (n ≤ 8)) ∧
    (∃ (s : State) (e : Eng) (d : XReg) (c : Fin 2), (engBusy s e = true ∧ enginesHeld s = false ∧ fitsLimit s e 1 = true)) ∧
    (∃ (s : State) (e : Eng) (d : XReg) (c : Fin 2), (engBusy s e = true ∧ enginesHeld s = false ∧ fitsLimit s e 1 = true)) :=
  ⟨⟨(State.reset.put (F.HLE_ENGSTAT_BUSY 3) 1), 3, 1, .regs 2 3, by decide +kernel⟩,
   ⟨(State.reset.put (F.HLE_ENGSTAT_BUSY 3) 1), 3, 1, .regs 2 3, by decide +kernel⟩,
   ⟨(State.reset.put (F.HLE_ENGSTAT_BUSY 3) 1), 3, 1, .regs 2 3, by decide +kernel⟩,
   ⟨(State.reset.put (F.HLE_ENGSTAT_BUSY 3) 1), 3, .regs 2 3, .coef 1 (.postInc 4), by decide +kernel⟩,
   ⟨(State.reset.put (F.HLE_ENGSTAT_BUSY 3) 1), 3, .regs 2 3, .coef 1 (.postInc 4), by decide +kernel⟩,
   ⟨(State.reset.put (F.HLE_ENGSTAT_BUSY 3) 1), 3, .regs 2 3, .coef 1 (.postInc 4), by decide +kernel⟩,
   ⟨(State.reset.put (F.HLE_ENGSTAT_BUSY 3) 1), 3, 1, by decide +kernel⟩,
   ⟨(State.reset.put (F.HLE_ENGSTAT_BUSY 3) 1), 3, 1, 8, by decide +kernel⟩,
   ⟨(State.reset.put (F.HLE_ENGSTAT_BUSY 3) 1), 3, 1, 1, by decide +kernel⟩,
   ⟨(State.reset.put (F.HLE_ENGSTAT_BUSY 3) 1), 3, 1, 1, by decide +kernel⟩⟩

/-- States and operands that meet every hypothesis of FilterAndTrigonometry. -/
theorem test_met_FilterAndTrigonometry :
    (∃ (s : State) (e : Eng) (d : XReg) (st : Fin 2048) (a : XReg) (g : MemOperand) (v : Int), (engBusy s e = true ∧ enginesHeld s = false ∧ fitsLimit s e 2 = true) ∧ (v = min (max (((dataWord s e st).toInt * 2 ^ 17 + (coefWord s e (wordOf s e g)).toInt * xi s e a + 2 ^ 16) / 2 ^ 17) (dataWord s e (st + 1)).toInt) (dataWord s e (st + 2)).toInt)) ∧
    (∃ (s : State) (e : Eng) (d x : XReg) (c : Fin 512) (st : Fin 2048), (engBusy s e = true ∧ enginesHeld s = false ∧ fitsLimit s e 4 = true)) ∧
    (∃ (s : State) (e : Eng) (d x : XReg) (c : Fin 512) (st : Fin 2048) (q : Int), (engBusy s e = true ∧ enginesHeld s = false ∧ fitsLimit s e 4 = true) ∧ ((coefWord s e c).toInt * xi s e x + (dataWord s e st).toInt * 2 ^ 17 = q * 2 ^ 17) ∧ (-(2 ^ 19) ≤ q ∧ q < 2 ^ 19)) ∧
    (∃ (s : State) (e : Eng) (ds dc a : XReg), (engBusy s e = true ∧ enginesHeld s = false ∧ fitsLimit s e 4 = true) ∧ (ds ≠ dc)) ∧
    (∃ (s : State) (e : Eng) (d a : XReg), (engBusy s e = true ∧ enginesHeld s = false ∧ fitsLimit s e 4 = true)) ∧
    (∃ (s : State) (e : Eng) (d y x : XReg), (engBusy s e = true ∧ enginesHeld s = false ∧ fitsLimit s e 14 = true) ∧ (xi s e y ≠ 0 ∨ xi s e x ≠ 0)) ∧
    (∃ (s : State) (e : Eng) (d a : XReg), (engBusy s e = true ∧ enginesHeld s = false ∧ fitsLimit s e 12 = true) ∧ (xi s e a < 0)) ∧
    (∃ (s : State) (e : Eng) (d a : XReg), (engBusy s e = true ∧ enginesHeld s = false ∧ fitsLimit s e 12 = true) ∧ (0 ≤ xi s e a)) ∧
    (∃ (s : State) (e : Eng) (d a b : XReg), (engBusy s e = true ∧ enginesHeld s = false ∧ fitsLimit s e 22 = true) ∧ (xi s e b = 0) ∧ (xi s e a ≠ 0)) ∧
    (∃ (s : State) (e : Eng) (d a b : XReg) (q : Int), (engBusy s e = true ∧ enginesHeld s = false ∧ fitsLimit s e 22 = true) ∧ (xi s e b ≠ 0) ∧ (xi s e a * 2 ^ 19 = q * xi s e b)) :=
  ⟨⟨(State.reset.put (F.HLE_ENGSTAT_BUSY 3) 1), 3, 1, 5, 2, .direct 0, 0, by decide +kernel⟩,
   ⟨(State.reset.put (F.HLE_ENGSTAT_BUSY 3) 1), 3, 1, 2, 511, 2047, by decide +kernel⟩,
   ⟨(State.reset.put (F.HLE_ENGSTAT_BUSY 3) 1), 3, 1, 2, 511, 2047, 0, by decide +kernel⟩,
   ⟨(State.reset.put (F.HLE_ENGSTAT_BUSY 3) 1), 3, 1, 2, 3, by decide +kernel⟩,
   ⟨(State.reset.put (F.HLE_ENGSTAT_BUSY 3) 1), 3, 1, 3, by decide +kernel⟩,
   ⟨(State.reset.put (F.HLE_ENGSTAT_BUSY 3) 1).modEng 3 (fun g => { g with x := g.x.set 2 5#20 }), 3, 1, 2, 3, by decide +kernel⟩,
   ⟨(State.reset.put (F.HLE_ENGSTAT_BUSY 3) 1).modEng 3 (fun g => { g with x := g.x.set 2 (-5#20) }), 3, 1, 2, by decide +kernel⟩,
   ⟨(State.reset.put (F.HLE_ENGSTAT_BUSY 3) 1), 3, 1, 2, by decide +kernel⟩,
   ⟨(State.reset.put (F.HLE_ENGSTAT_BUSY 3) 1).modEng 3 (fun g => { g with x := g.x.set 2 (-5#20) }), 3, 1, 2, 3, by decide +kernel⟩,
   ⟨(State.reset.put (F.HLE_ENGSTAT_BUSY 3) 1).modEng 3 (fun g => { g with x := (g.x.set 2 (-5#20)).set 3 (10#20) }), 3, 1, 2, 3, -262144, by decide +kernel⟩⟩

/-- States and operands that meet every hypothesis of EngineControl. -/
theorem test_met_EngineControl :
    (∃ (s : State) (e : Eng) (p : BitVec 12), (engBusy s e = true ∧ enginesHeld s = false ∧ fitsLimit s e 2 = true)) ∧
    (∃ (s : State) (e : Eng) (f : BranchFlag) (p : BitVec 12), (engBusy s e = true ∧ enginesHeld s = false ∧ fitsLimit s e 2 = true) ∧ (branchFlag s.eng[e.val] f = true)) ∧
    (∃ (s : State) (e : Eng) (f : BranchFlag) (p : BitVec 12), (engBusy s e = true ∧ enginesHeld s = false ∧ fitsLimit s e 1 = true) ∧ (branchFlag s.eng[e.val] f = false)) ∧
    (∃ (s : State) (e : Eng) (n : Nat) (l : BitVec 12), (engBusy s e = true ∧ enginesHeld s = false ∧ fitsLimit s e 1 = true) ∧ (1 ≤ n ∧ n ≤ 4096) ∧ (s.eng[e.val].loops.length < 2)) ∧
    (∃ (s : State) (e : Eng) (i : Fin 4) (n : Nat), (engBusy s e = true ∧ enginesHeld s = false ∧ fitsLimit s e 1 = true) ∧ (2 ≤ n ∧ n ≤ 256)) ∧
    (∃ (s : State) (e f : Eng) (ep : Byte), (engBusy s e = true ∧ enginesHeld s = false ∧ fitsLimit s e 1 = true) ∧ (engineTakes s f = true) ∧ (∀ r ∈ s.eng[f.val].pending, r.orig ≠ .engine e)) ∧
    (∃ (s : State) (e f : Eng) (ep : Byte), (engBusy s e = true ∧ enginesHeld s = false ∧ fitsLimit s e 1 = true) ∧ (engineTakes s f = true) ∧ (∃ r ∈ s.eng[f.val].pending, r.orig = .engine e)) ∧
    (∃ (s : State) (e : Eng), (engBusy s e = true ∧ enginesHeld s = false ∧ fitsLimit s e 1 = true)) :=
  ⟨⟨(State.reset.put (F.HLE_ENGSTAT_BUSY 3) 1), 3, 700, by decide +kernel⟩,
   ⟨(State.reset.put (F.HLE_ENGSTAT_BUSY 3) 1).modEng 3 (fun g => { g with n := true }), 3, .n, 700, by decide +kernel⟩,
   ⟨(State.reset.put (F.HLE_ENGSTAT_BUSY 3) 1), 3, .s, 700, by decide +kernel⟩,
   ⟨(State.reset.put (F.HLE_ENGSTAT_BUSY 3) 1), 3, 4096, 700, by decide +kernel⟩,
   ⟨(State.reset.put (F.HLE_ENGSTAT_BUSY 3) 1), 3, 3, 256, by decide +kernel⟩,
   ⟨(State.reset.put (F.HLE_ENGSTAT_BUSY 3) 1).put F.HLE_CTRL_EN 9, 3, 0, 255, by decide +kernel⟩,
   ⟨((State.reset.put (F.HLE_ENGSTAT_BUSY 3) 1).put F.HLE_CTRL_EN 9).modEng 0 (fun g => { g with pending := [⟨.engine 3, 1, 5⟩] }), 3, 0, 255, by decide +kernel⟩,
   ⟨(State.reset.put (F.HLE_ENGSTAT_BUSY 3) 1), 3, by decide +kernel⟩⟩

/-- States and operands that meet every hypothesis of DutySetsAndClamp. -/
theorem test_met_DutySetsAndClamp :
    (∃ (s : State) (v : Q20), (coreStopped s = false)) ∧
    (∃ (s : State) (b : Bridge) (v : Word), (coreStopped s = false) ∧ (accepted (0x4000C010 + 0x1000 * b.val) v s = true) ∧ (s.mc[b.val].clamping = false)) ∧
    (∃ (s : State) (b : Bridge) (v : Word), (coreStopped s = false) ∧ (accepted (0x4000C010 + 0x1000 * b.val) v s = true) ∧ (s.mc[b.val].clamping = true)) ∧
    (∃ (s : State) (b : Bridge), (coreStopped s = false)) ∧
    (∃ (s : State), (coreStopped s = true)) :=
  ⟨⟨State.reset, 0, by decide +kernel⟩,
   ⟨State.reset, 1, 0x40000, by decide +kernel⟩,
   ⟨State.reset.modMc 1 (fun m => { m with clamping := true }), 1, 0x40000, by decide +kernel⟩,
   ⟨State.reset, 0, by decide +kernel⟩,
   ⟨{ State.reset with pwr := { Pwr.reset with held := true } }, by decide +kernel⟩⟩

/-- States and operands that meet every hypothesis of MotorModeRequests. -/
theorem test_met_MotorModeRequests :
    (∃ (s : State) (b : Bridge) (v : Word), (coreStopped s = false) ∧ (mcMode s b = modeOff) ∧ (s.on (F.MC_CTRL_EN b) = true) ∧ ((F.MC_CTRL_MODE_REQ b).read v = 1) ∧ ((written (0x4000C000 + 0x1000 * b.val) ((F.MC_CTRL_START b).write v 1) s).on (F.MC_CTRL_EN b) = true) ∧ ((written (0x4000C000 + 0x1000 * b.val) ((F.MC_CTRL_START b).write v 1) s).on (F.MC_CTRL_START b) = true) ∧ (accepted (0x4000C000 + 0x1000 * b.val) ((F.MC_CTRL_START b).write v 1) s = true)) ∧
    (∃ (s : State) (b : Bridge), (sourceValid s (sourceOf s b) = true) ∧ (speedOf s b < s.get (F.MC_CATCHLO_SPEED b))) ∧
    (∃ (s : State) (b : Bridge), (sourceValid s (sourceOf s b) = false)) ∧
    (∃ (s : State) (b : Bridge), (coreStopped s = false) ∧ (mcMode s b = modeListen)) ∧
    (∃ (s : State) (b : Bridge) (v : Word), (coreStopped s = false) ∧ (accepted (0x4000C000 + 0x1000 * b.val) ((F.MC_CTRL_MODE_REQ b).write v 0) s = true) ∧ (mcMode s b ≠ modeOff ∧ mcMode s b ≠ modeOut) ∧ ((written (0x4000C000 + 0x1000 * b.val) ((F.MC_CTRL_MODE_REQ b).write v 0) s).on (F.MC_CTRL_EN b) = true) ∧ ((written (0x4000C000 + 0x1000 * b.val) ((F.MC_CTRL_MODE_REQ b).write v 0) s).on (F.MC_CTRL_START b) = false)) ∧
    (∃ (s : State) (b : Bridge) (v : Word), (coreStopped s = false) ∧ (accepted (0x4000C000 + 0x1000 * b.val) ((F.MC_CTRL_MODE_REQ b).write v 1) s = true) ∧ (mcMode s b = modeSixstep) ∧ (sourceValid s (sourceOf s b) = true) ∧ ((written (0x4000C000 + 0x1000 * b.val) ((F.MC_CTRL_MODE_REQ b).write v 1) s).on (F.MC_CTRL_EN b) = true) ∧ ((written (0x4000C000 + 0x1000 * b.val) ((F.MC_CTRL_MODE_REQ b).write v 1) s).on (F.MC_CTRL_START b) = false)) ∧
    (∃ (s : State) (b : Bridge) (v : Word), (coreStopped s = false) ∧ (accepted (0x4000C000 + 0x1000 * b.val) ((F.MC_CTRL_EN b).write v 0) s = true) ∧ (mcMode s b ≠ modeOut) ∧ ((F.MC_CTRL_MODE_REQ b).read v = 1) ∧ ((written (0x4000C000 + 0x1000 * b.val) ((F.MC_CTRL_EN b).write v 0) s).on (F.MC_CTRL_EN b) = false) ∧ ((written (0x4000C000 + 0x1000 * b.val) ((F.MC_CTRL_EN b).write v 0) s).on (F.MC_CTRL_START b) = false)) ∧
    (∃ (s : State) (b : Bridge) (v : Word), (coreStopped s = false) ∧ (accepted (0x4000C000 + 0x1000 * b.val) ((F.MC_CTRL_START b).write v 1) s = true) ∧ (mcMode s b = modeOut ∧ outCause s b = true) ∧ ((written (0x4000C000 + 0x1000 * b.val) ((F.MC_CTRL_START b).write v 1) s).on (F.MC_CTRL_START b) = true)) ∧
    (∃ (s : State) (b : Bridge) (v : Word), (coreStopped s = false) ∧ (accepted (0x4000C000 + 0x1000 * b.val) ((F.MC_CTRL_EN b).write v 0) s = true) ∧ (mcMode s b = modeOut ∧ outCause s b = true) ∧ ((written (0x4000C000 + 0x1000 * b.val) ((F.MC_CTRL_EN b).write v 0) s).on (F.MC_CTRL_EN b) = false) ∧ ((written (0x4000C000 + 0x1000 * b.val) ((F.MC_CTRL_EN b).write v 0) s).on (F.MC_CTRL_START b) = false)) ∧
    (∃ (s : State), (coreStopped s = true)) :=
  ⟨⟨State.reset.put (F.MC_CTRL_EN 1) 1, 1, (F.MC_CTRL_DIRREQ 1).write ((F.MC_CTRL_MODE_REQ 1).write ((F.MC_CTRL_EN 1).write 0 1) 1) 3, by decide +kernel⟩,
   ⟨((State.reset.put (F.ANG_CTRL_SRC 1) 5).put (F.POS_STAT_ABZVAL 1) 1).put (F.MC_CATCHLO_SPEED 1) 1, 1, by decide +kernel⟩,
   ⟨State.reset, 1, by decide +kernel⟩,
   ⟨State.reset.put (F.MC_STAT_MODE 0) 1, 0, by decide +kernel⟩,
   ⟨(State.reset.put (F.MC_STAT_MODE 0) 2).put (F.MC_CTRL_EN 0) 1, 0, (F.MC_CTRL_DIRREQ 0).write ((F.MC_CTRL_EN 0).write 0 1) 3, by decide +kernel⟩,
   ⟨(((State.reset.put (F.MC_STAT_MODE 1) 3).put (F.MC_CTRL_EN 1) 1).put (F.ANG_CTRL_SRC 1) 5).put (F.POS_STAT_ABZVAL 1) 1, 1, (F.MC_CTRL_DIRREQ 1).write ((F.MC_CTRL_EN 1).write 0 1) 3, by decide +kernel⟩,
   ⟨(State.reset.put (F.MC_STAT_MODE 0) 2).put (F.MC_CTRL_EN 0) 1, 0, (F.MC_CTRL_DIRREQ 0).write ((F.MC_CTRL_MODE_REQ 0).write 0 1) 3, by decide +kernel⟩,
   ⟨(State.reset.put (F.MC_STAT_MODE 1) 6).put F.SAFE_STAT_CUT 1, 1, (F.MC_CTRL_DIRREQ 1).write ((F.MC_CTRL_MODE_REQ 1).write ((F.MC_CTRL_EN 1).write 0 1) 1) 3, by decide +kernel⟩,
   ⟨(State.reset.put (F.MC_STAT_MODE 0) 6).put F.SAFE_STAT_CUT 1, 0, (F.MC_CTRL_DIRREQ 0).write ((F.MC_CTRL_MODE_REQ 0).write 0 1) 3, by decide +kernel⟩,
   ⟨{ State.reset with pwr := { Pwr.reset with held := true } }, by decide +kernel⟩⟩

/-- States and operands that meet every hypothesis of ComparatorsAndSynchronism. -/
theorem test_met_ComparatorsAndSynchronism :
    (∃ (s : State) (b : Bridge) (p l : BitVec 3), (coreStopped s = false) ∧ (mcMode s b ≠ modeSixstep ∧ mcMode s b ≠ modeListen ∧ mcMode s b ≠ modeCoast)) ∧
    (∃ (s : State) (b : Bridge) (p l : BitVec 3), (coreStopped s = false) ∧ (mcMode s b = modeListen) ∧ (l ≠ 0 ∧ l ≠ 7) ∧ (s.mc[b.val].lastCode = none)) ∧
    (∃ (s : State) (b : Bridge), (coreStopped s = false) ∧ (mcMode s b = modeSixstep) ∧ (s.mc[b.val].zcMisses + 1 < s.get (F.MC_ZC_ZCMISS b))) ∧
    (∃ (s : State) (b : Bridge), (coreStopped s = false) ∧ (mcMode s b = modeSixstep) ∧ (s.get (F.MC_ZC_ZCMISS b) ≤ s.mc[b.val].zcMisses + 1) ∧ (s.mc[b.val].losTicks.length < s.get (F.MC_WIN_LOSMAX b))) ∧
    (∃ (s : State) (b : Bridge), (coreStopped s = false) ∧ (mcMode s b = modeSixstep) ∧ (s.get (F.MC_ZC_ZCMISS b) ≤ s.mc[b.val].zcMisses + 1) ∧ (s.get (F.MC_WIN_LOSMAX b) ≤ (s.mc[b.val].losTicks.filter (fun u => decide (s.tick < u + 200000000))).length)) ∧
    (∃ (s : State), (coreStopped s = true)) :=
  ⟨⟨State.reset, 0, 5, 2, by decide +kernel⟩,
   ⟨State.reset.put (F.MC_STAT_MODE 0) 1, 0, 5, 2, by decide +kernel⟩,
   ⟨State.reset.put (F.MC_STAT_MODE 1) 3, 1, by decide +kernel⟩,
   ⟨(State.reset.put (F.MC_STAT_MODE 1) 3).modMc 1 (fun m => { m with zcMisses := 200 }), 1, by decide +kernel⟩,
   ⟨((State.reset.put (F.MC_STAT_MODE 1) 3).put (F.MC_WIN_LOSMAX 1) 2).modMc 1 (fun m => { m with zcMisses := 200, losTicks := [0, 0] }), 1, by decide +kernel⟩,
   ⟨{ State.reset with pwr := { Pwr.reset with held := true } }, by decide +kernel⟩⟩

/-- States and operands that meet every hypothesis of GateTransitions. -/
theorem test_met_GateTransitions :
    (∃ (s : State) (b : Bridge) (j : Switch) (on : Bool), (bitAt (lineCommands s b) j = on ∧ s.gate[b.val].sw[j.val].stray = false) ∧ (∀ k < 3, (bitAt (withBit (s.get (F.GD_GW_CMD b)) j on) k && bitAt (withBit (s.get (F.GD_GW_CMD b)) j on) (k + 3)) = false)) ∧
    (∃ (s : State) (b : Bridge) (j : Switch) (on : Bool), (bitAt (lineCommands s b) j ≠ on ∧ s.gate[b.val].sw[j.val].stray = false) ∧ (on = false ∨ s.bit (F.GD_GW_CMD b) (oppositeSw j) = false)) ∧
    (∃ (s : State) (b : Bridge) (j : Switch), (s.bit (F.GD_GW_CMD b) j = false) ∧ (s.bit (F.GD_GW_CMD b) (oppositeSw j) = true)) ∧
    (∃ (s : State) (b : Bridge) (j : Switch), (s.gate[b.val].sw[j.val].held = true) ∧ (wanted s b j = true) ∧ (s.on (F.GD_CTRL_ILMODE b) = false ∨ admits s b j = true)) ∧
    (∃ (s : State) (b : Bridge) (j : Switch), (s.gate[b.val].sw[j.val].phase = .slopeOn ∨ s.gate[b.val].sw[j.val].phase = .slopeOff)) :=
  ⟨⟨(State.reset.put (F.GD_GW_CMD 1) 8).put (F.ANG_CTRL_EN 1) 1 |>.modAng 1 (fun a => { a with refCount := 0 }) |>.modMc 1 (fun m => { m with asReq := true }), 1, 4, true, by decide +kernel⟩,
   ⟨State.reset, 1, 4, true, by decide +kernel⟩,
   ⟨State.reset.put (F.GD_GW_CMD 1) 8, 1, 0, by decide +kernel⟩,
   ⟨((State.reset.modDriver (fun d => { d with underVolt := false })).put (F.GD_CTRL_LLSTATE 1) 1).modGate 1 (fun g => { g with linkHold := true, sw := upd g.sw 4 (fun x => { x with held := true }) }), 1, 4, by decide +kernel⟩,
   ⟨State.reset.modGate 1 (fun g => { g with sw := upd g.sw 4 (fun x => { x with phase := .slopeOff }) }), 1, 4, by decide +kernel⟩⟩

/-- States and operands that meet every hypothesis of LegFaults. -/
theorem test_met_LegFaults :
    (∃ (s : State) (b : Bridge) (j : Switch), (s.gate[b.val].sw[j.val].held = true) ∧ (s.on (F.GD_CTRL_ILMODE b) = false)) ∧
    (∃ (s : State) (b : Bridge) (j : Switch), (s.gate[b.val].sw[j.val].phase = .onHold) ∧ (s.driver.underVolt = false)) ∧
    (∃ (s : State) (b : Bridge) (j : Switch), (s.driver.underVolt = true)) ∧
    (∃ (s : State) (b : Bridge) (j : Switch), (s.gate[b.val].sw[j.val].phase.isOn = true)) ∧
    (∃ (s : State) (b : Bridge) (j : Switch), (s.gate[b.val].sw[j.val].phase.isOn = false)) ∧
    (∃ (s : State) (b : Bridge) (j : Switch), (s.gate[b.val].sw[j.val].phase.isOn = true) ∧ (s.gate[b.val].sw[j.val].blanking = false) ∧ (shortHolds s b j = false)) ∧
    (∃ (s : State) (b : Bridge) (j : Switch), (s.gate[b.val].asFlag = true) ∧ (bitAt (shortBits s b) j = true)) ∧
    (∃ (s : State) (b : Bridge) (legs : BitVec 3), (coreStopped s = false) ∧ (s.sys.linkLost = false) ∧ (s.driver.linkLost = false) ∧ (∀ k : Fin 3, bitAt legs.toNat k = true → s.rd (F.GD_LEGFLT_HSCH b k).addr = 0)) ∧
    (∃ (s : State) (b : Bridge) (legs : BitVec 3) (k : Fin 3), (coreStopped s = false) ∧ (s.sys.linkLost = false) ∧ (s.driver.linkLost = false) ∧ (bitAt legs.toNat k = true ∧ s.rd (F.GD_LEGFLT_HSCH b k).addr ≠ 0)) ∧
    (∃ (s : State), (coreStopped s = true)) :=
  ⟨⟨State.reset.modGate 1 (fun g => { g with sw := upd g.sw 4 (fun x => { x with held := true }) }), 1, 4, by decide +kernel⟩,
   ⟨(State.reset.modDriver (fun d => { d with underVolt := false })).modGate 1 (fun g => { g with sw := upd g.sw 4 (fun x => { x with phase := .onHold }) }), 1, 4, by decide +kernel⟩,
   ⟨State.reset, 1, 4, by decide +kernel⟩,
   ⟨State.reset.modGate 1 (fun g => { g with sw := upd g.sw 4 (fun x => { x with phase := .preCharge }) }), 1, 4, by decide +kernel⟩,
   ⟨State.reset, 1, 4, by decide +kernel⟩,
   ⟨State.reset.modGate 1 (fun g => { g with sw := upd g.sw 4 (fun x => { x with phase := .preCharge }) }), 1, 4, by decide +kernel⟩,
   ⟨State.reset.modGate 1 (fun g => { g with asFlag := true }), 1, 4, by decide +kernel⟩,
   ⟨State.reset.put (F.GD_STAT_LEGOUT 1) 5, 1, 7, by decide +kernel⟩,
   ⟨State.reset.put (F.GD_LEGFLT_GATEL 1 2) 1, 1, 6, 2, by decide +kernel⟩,
   ⟨{ State.reset with pwr := { Pwr.reset with held := true } }, by decide +kernel⟩⟩

/-- States and operands that meet every hypothesis of MotorSupply. -/
theorem test_met_MotorSupply :
    (∃ (s : State) (v : BitVec 16), (s.sys.linkLost = false) ∧ (s.driver.linkLost = false)) ∧
    (∃ (s : State), (s.on F.VBUS_STAT_OV1 = false)) ∧
    (∃ (s : State), (s.on F.VBUS_STAT_OV2 = false)) ∧
    (∃ (s : State) (vmot vdrv : Bool), (vmot = true ∨ vdrv = true) ∧ (s.driver.underVolt = false)) :=
  ⟨⟨State.reset, 4800, by decide +kernel⟩,
   ⟨State.reset, by decide +kernel⟩,
   ⟨State.reset, by decide +kernel⟩,
   ⟨State.reset.modDriver (fun d => { d with underVolt := false }), false, true, by decide +kernel⟩⟩

/-- States and operands that meet every hypothesis of EbpenLink. -/
theorem test_met_EbpenLink :
    (∃ (s : State) (e : Port) (rtt turn : Nat) (l : Lane), (coreStopped s = false) ∧ (s.on (F.EBP_CTRL_EN e) = true) ∧ (turn + 4 ≤ rtt ∧ rtt ≤ turn + 8000)) ∧
    (∃ (s : State) (rtt turn : Nat) (l : Lane), (coreStopped s = false) ∧ (s.on (F.EBP_CTRL_EN 1) = true) ∧ (topology s = 1 ∨ topology s = 2) ∧ (s.on F.KEEP_STAT_WARM = false ∧ s.ebp[1].everTrained = false)) ∧
    (∃ (s : State) (e : Port) (rtt turn : Nat) (l : Lane), (coreStopped s = false) ∧ (portInUse s e = true) ∧ (e = 0 ∨ (topology s ≠ 1 ∧ topology s ≠ 2) ∨ s.on F.KEEP_STAT_WARM = true ∨ s.ebp[1].everTrained = true)) ∧
    (∃ (s : State) (e : Port), (coreStopped s = false) ∧ (portInUse s e = true) ∧ (s.on (F.EBP_STAT_LOST e) = false)) ∧
    (∃ (s : State) (e : Port), (coreStopped s = false) ∧ (portInUse s e = false ∨ (s.on (F.EBP_STAT_LOST e) = true ∧ ∀ l, laneOf (s.get (F.EBP_STAT_PEER e)) = some l → roleSeen s l.val ≠ 1))) ∧
    (∃ (s : State) (e : Port) (l : Lane), (coreStopped s = false) ∧ (portInUse s e = true ∧ s.on (F.EBP_STAT_LOST e) = true) ∧ (laneOf (s.get (F.EBP_STAT_PEER e)) = some l ∧ l ∈ peersOf s ∧ peerLinked s l = false ∧ roleSeen s l.val = 1) ∧ (s.get F.CONT_STAT_ROLE ≠ 0 ∧ leaving s l.val = false) ∧ (framesGone s l = true ∧ lowLong s l = true ∧ within2Ti s s.peers[l.val].lowSince s.peers[l.val].frame = true)) ∧
    (∃ (s : State) (e : Port), (coreStopped s = false) ∧ (portInUse s e = true) ∧ (s.on (F.EBP_STAT_LOST e) = true)) ∧
    (∃ (s : State) (e : Port), (coreStopped s = false) ∧ (s.on (F.EBP_CTRL_EN e) = true)) ∧
    (∃ (s : State) (e : Port), (coreStopped s = false) ∧ (portInUse s e = true) ∧ ((s.ebp[e.val].violations.filter (fun t => decide (s.tick < t + 256))).length < 3)) ∧
    (∃ (s : State) (e : Port), (coreStopped s = false) ∧ (portInUse s e = true) ∧ (3 ≤ (s.ebp[e.val].violations.filter (fun t => decide (s.tick < t + 256))).length)) ∧
    (∃ (s : State) (e : Port) (f : EbpFrame) (l : Lane), (coreStopped s = false) ∧ (freshFrame e 15 8 f l s)) ∧
    (∃ (s : State) (e : Port) (err : Int) (n : Fin 4) (o : Bool), (coreStopped s = false) ∧ (portUp s e = true) ∧ (slateLeader s = false) ∧ (err = slateError e n.val s)) ∧
    (∃ (s : State) (e : Port) (n : Fin 4) (o : Bool), (coreStopped s = false) ∧ (slateLeader s = true)) ∧
    (∃ (s : State), (coreStopped s = true)) :=
  ⟨⟨State.reset.put (F.EBP_CTRL_EN 1) 1, 1, 900, 300, 2, by decide +kernel⟩,
   ⟨(State.reset.put (F.EBP_CTRL_EN 1) 1).put F.SEAL_STRAP_WORD 4, 900, 300, 2, by decide +kernel⟩,
   ⟨State.reset.put (F.EBP_CTRL_EN 0) 1, 0, 900, 300, 2, by decide +kernel⟩,
   ⟨State.reset.put (F.EBP_CTRL_EN 1) 1, 1, by decide +kernel⟩,
   ⟨State.reset, 1, by decide +kernel⟩,
   ⟨{ (((((State.reset.put F.SEAL_STRAP_WORD 4).put (F.EBP_CTRL_EN 1) 1).put (F.EBP_STAT_LOST 1) 1).put (F.EBP_STAT_PEER 1) 1).put (F.CONT_PEER_ROLE 1) 1).put F.CONT_STAT_ROLE 2 with tick := 1000000 } |>.modPeer 1 (fun p => { p with lowSince := some 0, frame := some 0 }), 1, 1, by decide +kernel⟩,
   ⟨(State.reset.put (F.EBP_CTRL_EN 1) 1).put (F.EBP_STAT_LOST 1) 1, 1, by decide +kernel⟩,
   ⟨State.reset.put (F.EBP_CTRL_EN 1) 1, 1, by decide +kernel⟩,
   ⟨State.reset.put (F.EBP_CTRL_EN 1) 1, 1, by decide +kernel⟩,
   ⟨(State.reset.put (F.EBP_CTRL_EN 1) 1).modEbp 1 (fun x => { x with violations := [0, 0, 0] }), 1, by decide +kernel⟩,
   ⟨State.reset.put (F.EBP_CTRL_EN 1) 1, 1, sealFrame 15 { src := 1, seq := 0, setId := 0, len := 2, payload := [0, 0, 0, 0, 0, 0, 0, 0], crc := 0 }, 1, by decide +kernel⟩,
   ⟨(State.reset.put (F.EBP_CTRL_EN 1) 1).put (F.EBP_STAT_TRAINED 1) 1, 1, 0, 0, true, by decide +kernel⟩,
   ⟨State.reset.put F.CONT_STAT_ROLE 2, 1, 3, true, by decide +kernel⟩,
   ⟨{ State.reset with pwr := { Pwr.reset with held := true } }, by decide +kernel⟩⟩

/-- States and operands that meet every hypothesis of FramesReceived. -/
theorem test_met_FramesReceived :
    (∃ (s : State) (e : Port) (f : EbpFrame) (c : Instr) (ty : Nat), ((c, ty) = (.noticeReceived e f, 1) ∨ (c, ty) = (.claimReceived e f, 2) ∨ (c, ty) = (.xcurReceived e f, 3) ∨ (c, ty) = (.xrefReceived e f, 4) ∨ (c, ty) = (.setopReceived e f, 5) ∨ (c, ty) = (.beatReceived e f, 6) ∨ (c, ty) = (.contFrameReceived e f, 7) ∨ (c, ty) = (.shareReceived e f, 8) ∨ (c, ty) = (.formReceived e f, 9) ∨ (c, ty) = (.trainReceived e f, 15)) ∧ (coreStopped s = false ∧ portInUse s e = true) ∧ (f.crc ≠ frameCrc ty f)) ∧
    (∃ (s : State) (e : Port) (f : EbpFrame) (c : Instr) (ty : Nat), ((c, ty) = (.noticeReceived e f, 1) ∨ (c, ty) = (.claimReceived e f, 2) ∨ (c, ty) = (.xcurReceived e f, 3) ∨ (c, ty) = (.xrefReceived e f, 4) ∨ (c, ty) = (.setopReceived e f, 5) ∨ (c, ty) = (.beatReceived e f, 6) ∨ (c, ty) = (.contFrameReceived e f, 7) ∨ (c, ty) = (.shareReceived e f, 8) ∨ (c, ty) = (.trainReceived e f, 15)) ∧ (f.crc = frameCrc ty f) ∧ (f.src.toNat = 3 ∨ 4 * f.len.toNat ≠ f.payload.length ∨ f.setId.toNat ≠ setId s ∨ f.src.toNat = laneId s)) ∧
    (∃ (s : State) (e : Port) (f : EbpFrame) (c : Instr) (ty len : Nat) (l : Lane), ((c, ty, len) = (.noticeReceived e f, 1, 12) ∨ (c, ty, len) = (.claimReceived e f, 2, 8) ∨ (c, ty, len) = (.xcurReceived e f, 3, 12) ∨ (c, ty, len) = (.xrefReceived e f, 4, 8) ∨ (c, ty, len) = (.setopReceived e f, 5, 16) ∨ (c, ty, len) = (.contFrameReceived e f, 7, 32 + 4 * s.get F.CONT_CFCFG_NST) ∨ (c, ty, len) = (.shareReceived e f, 8, 12) ∨ (c, ty, len) = (.formReceived e f, 9, 12) ∨ (c, ty, len) = (.trainReceived e f, 15, 8)) ∧ (coreStopped s = false ∧ portInUse s e = true) ∧ (f.crc = frameCrc ty f ∧ f.payload.length = len ∧ 4 * f.len.toNat = len ∧ f.setId.toNat = setId s) ∧ (laneOf f.src.toNat = some l ∧ l.val ≠ laneId s) ∧ (f.seq.toNat ∈ Tab.get (fun _ => []) s.lines.seen (4 * ty + l.val))) ∧
    (∃ (s : State) (e : Port) (f : EbpFrame) (l : Lane), (coreStopped s = false) ∧ (portInUse s e = true ∧ s.on (F.EBP_STAT_LOST e) = false) ∧ (f.crc = frameCrc 6 f ∧ f.payload.length = 20 ∧ f.len.toNat = 5 ∧ f.setId.toNat = setId s) ∧ (laneOf f.src.toNat = some l ∧ l.val ≠ laneId s) ∧ (f.seq.toNat ∈ Tab.get (fun _ => []) s.lines.seen (24 + l.val))) ∧
    (∃ (s : State) (e : Port) (f : EbpFrame), (coreStopped s = false) ∧ (f.crc = frameCrc 9 f) ∧ (f.src.toNat = 3 ∨ 4 * f.len.toNat ≠ f.payload.length ∨ f.setId.toNat ≠ setId s ∨ f.src.toNat = laneId s)) ∧
    (∃ (s : State) (e : Port) (f : EbpFrame) (l : Lane), (coreStopped s = false) ∧ (freshFrame e 1 12 f l s) ∧ (bytesAt f.payload 0 1 < 3 ∧ bytesAt f.payload 0 1 ≠ laneId s ∧ bytesAt f.payload 1 1 ≠ 2) ∧ (s.cont.transfers = []) ∧ (s.get F.CONT_STAT_ROLE = 0 ∨ Shares.unpack (bytesAt f.payload 4 4) = sharesAfter s (bytesAt f.payload 0 1))) ∧
    (∃ (s : State) (e : Port) (f : EbpFrame) (l : Lane), (coreStopped s = false) ∧ (freshFrame e 1 12 f l s) ∧ (bytesAt f.payload 0 1 < 3 ∧ bytesAt f.payload 0 1 ≠ laneId s ∧ bytesAt f.payload 1 1 ≠ 2) ∧ (s.cont.transfers = []) ∧ (s.get F.CONT_STAT_ROLE ≠ 0 ∧ s.cont.withdrawing = false) ∧ (Shares.unpack (bytesAt f.payload 4 4) ≠ sharesAfter s (bytesAt f.payload 0 1))) ∧
    (∃ (s : State) (e : Port) (f : EbpFrame) (l : Lane), (coreStopped s = false) ∧ (freshFrame e 2 8 f l s) ∧ (s.get F.CONT_STAT_ROLE ≠ 2) ∧ ((Shares.unpack (bytesAt f.payload 4 4)).sum = 1000) ∧ (tripleTaken s (Shares.unpack (bytesAt f.payload 4 4)) = true)) ∧
    (∃ (s : State) (e : Port) (f : EbpFrame) (l : Lane), (coreStopped s = false) ∧ (freshFrame e 2 8 f l s) ∧ (s.get F.CONT_STAT_ROLE = 2)) ∧
    (∃ (s : State) (e : Port) (f : EbpFrame) (l : Lane) (k : Eng), (coreStopped s = false) ∧ (freshFrame e 3 12 f l s) ∧ (exchangeEngine s e = some k)) ∧
    (∃ (s : State) (e : Port) (f : EbpFrame) (l : Lane) (k : Eng), (coreStopped s = false) ∧ (freshFrame e 4 8 f l s) ∧ (exchangeEngine s e = some k)) ∧
    (∃ (s : State) (e : Port) (f : EbpFrame) (l : Lane), (coreStopped s = false) ∧ (freshFrame e 3 12 f l s) ∧ (exchangeEngine s e = none)) ∧
    (∃ (s : State) (e : Port) (f : EbpFrame) (l : Lane), (coreStopped s = false) ∧ (freshFrame e 5 16 f l s)) ∧
    (∃ (s : State) (o : SetOp) (q : List SetOp), (coreStopped s = false) ∧ (s.cont.setOps = o :: q)) ∧
    (∃ (s : State) (e : Port) (f : EbpFrame) (l : Lane), (coreStopped s = false) ∧ (freshFrame e 6 20 f l s)) ∧
    (∃ (s : State) (e : Port) (f : EbpFrame) (l : Lane), (coreStopped s = false) ∧ (freshFrame e 7 (32 + 4 * s.get F.CONT_CFCFG_NST) f l s) ∧ (s.get F.CONT_STAT_ROLE = 1 ∧ s.on F.CONT_STAT_QUAL = true ∧ roleSeen s l.val = 2)) ∧
    (∃ (s : State) (e : Port) (f : EbpFrame) (l : Lane), (coreStopped s = false) ∧ (freshFrame e 8 12 f l s) ∧ (s.get F.CONT_STAT_ROLE = 1 ∧ bytesAt f.payload 0 1 = 1)) ∧
    (∃ (s : State) (e : Port) (f : EbpFrame) (l : Lane), (coreStopped s = false) ∧ (freshFrame e 8 12 f l s) ∧ (s.get F.CONT_STAT_ROLE = 2 ∧ bytesAt f.payload 0 1 = 3) ∧ (s.cont.proposal = some ⟨Shares.unpack (bytesAt f.payload 4 4), bytesAt f.payload 8 2⟩)) ∧
    (∃ (s : State) (e : Port) (f : EbpFrame) (l : Lane), (coreStopped s = false) ∧ (freshFrame e 9 12 f l s) ∧ (topology s ≠ 2)) ∧
    (∃ (s : State), (coreStopped s = true)) :=
  ⟨⟨State.reset.put (F.EBP_CTRL_EN 1) 1, 1, { src := 1, seq := 0, setId := 0, len := 2, payload := [], crc := 0 }, .formReceived 1 { src := 1, seq := 0, setId := 0, len := 2, payload := [], crc := 0 }, 9, by decide +kernel⟩,
   ⟨State.reset, 1, sealFrame 6 { src := 0, seq := 0, setId := 0, len := 0, payload := [], crc := 0 }, .beatReceived 1 (sealFrame 6 { src := 0, seq := 0, setId := 0, len := 0, payload := [], crc := 0 }), 6, by decide +kernel⟩,
   ⟨(State.reset.put (F.EBP_CTRL_EN 1) 1).modLines (fun x => { x with seen := Tab.put (fun _ => []) x.seen 33 [0] }), 1, sealFrame 8 { src := 1, seq := 0, setId := 0, len := 3, payload := [1, 0, 0, 0, 0, 160, 15, 0, 5, 0, 0, 0], crc := 0 }, .shareReceived 1 (sealFrame 8 { src := 1, seq := 0, setId := 0, len := 3, payload := [1, 0, 0, 0, 0, 160, 15, 0, 5, 0, 0, 0], crc := 0 }), 8, 12, 1, by decide +kernel⟩,
   ⟨(State.reset.put (F.EBP_CTRL_EN 1) 1).modLines (fun x => { x with seen := Tab.put (fun _ => []) x.seen 25 [0] }), 1, sealFrame 6 { src := 1, seq := 0, setId := 0, len := 5, payload := List.replicate 20 0, crc := 0 }, 1, by decide +kernel⟩,
   ⟨State.reset, 1, sealFrame 9 { src := 0, seq := 0, setId := 0, len := 0, payload := [], crc := 0 }, by decide +kernel⟩,
   ⟨State.reset.put (F.EBP_CTRL_EN 1) 1, 1, sealFrame 1 { src := 1, seq := 0, setId := 0, len := 3, payload := [1, 1, 0, 0, 232, 3, 0, 0, 0, 0, 0, 0], crc := 0 }, 1, by decide +kernel⟩,
   ⟨(State.reset.put (F.EBP_CTRL_EN 1) 1).put F.CONT_STAT_ROLE 1, 1, sealFrame 1 { src := 1, seq := 0, setId := 0, len := 3, payload := [1, 1, 0, 0, 1, 3, 0, 0, 0, 0, 0, 0], crc := 0 }, 1, by decide +kernel⟩,
   ⟨State.reset.put (F.EBP_CTRL_EN 1) 1, 1, sealFrame 2 { src := 1, seq := 0, setId := 0, len := 2, payload := [1, 0, 0, 0, 0, 160, 15, 0], crc := 0 }, 1, by decide +kernel⟩,
   ⟨(State.reset.put (F.EBP_CTRL_EN 1) 1).put F.CONT_STAT_ROLE 2, 1, sealFrame 2 { src := 1, seq := 0, setId := 0, len := 2, payload := [1, 0, 0, 0, 0, 160, 15, 0], crc := 0 }, 1, by decide +kernel⟩,
   ⟨(State.reset.put (F.EBP_CTRL_EN 1) 1).put (F.HLE_ENGTRG2_E1_EN 4) 1, 1, sealFrame 3 { src := 1, seq := 0, setId := 0, len := 3, payload := [1, 2, 3, 4, 5, 6, 7, 8, 9, 10, 11, 12], crc := 0 }, 1, 4, by decide +kernel⟩,
   ⟨(State.reset.put (F.EBP_CTRL_EN 1) 1).put (F.HLE_ENGTRG2_E1_EN 4) 1, 1, sealFrame 4 { src := 1, seq := 0, setId := 0, len := 2, payload := [1, 2, 3, 4, 5, 6, 7, 8], crc := 0 }, 1, 4, by decide +kernel⟩,
   ⟨State.reset.put (F.EBP_CTRL_EN 1) 1, 1, sealFrame 3 { src := 1, seq := 0, setId := 0, len := 3, payload := [1, 2, 3, 4, 5, 6, 7, 8, 9, 10, 11, 12], crc := 0 }, 1, by decide +kernel⟩,
   ⟨State.reset.put (F.EBP_CTRL_EN 1) 1, 1, sealFrame 5 { src := 1, seq := 0, setId := 0, len := 4, payload := [1, 2, 3, 4, 5, 6, 7, 8, 9, 10, 11, 12, 13, 14, 15, 16], crc := 0 }, 1, by decide +kernel⟩,
   ⟨State.reset.modCont (fun c => { c with setOps := [⟨1, [], 5⟩, ⟨2, [], 9⟩] }), ⟨1, [], 5⟩, [⟨2, [], 9⟩], by decide +kernel⟩,
   ⟨State.reset.put (F.EBP_CTRL_EN 1) 1, 1, sealFrame 6 { src := 1, seq := 0, setId := 0, len := 5, payload := [1, 2, 3, 1, 0, 0, 0, 0, 9, 0, 0x16, 1, 2, 0, 0, 0, 5, 0, 0, 0], crc := 0 }, 1, by decide +kernel⟩,
   ⟨(((State.reset.put (F.EBP_CTRL_EN 1) 1).put F.CONT_STAT_ROLE 1).put F.CONT_STAT_QUAL 1).put (F.CONT_PEER_ROLE 1) 2, 1, sealFrame 7 { src := 1, seq := 0, setId := 0, len := 8, payload := List.replicate 32 0, crc := 0 }, 1, by decide +kernel⟩,
   ⟨(State.reset.put (F.EBP_CTRL_EN 1) 1).put F.CONT_STAT_ROLE 1, 1, sealFrame 8 { src := 1, seq := 0, setId := 0, len := 3, payload := [1, 0, 0, 0, 0, 160, 15, 0, 5, 0, 0, 0], crc := 0 }, 1, by decide +kernel⟩,
   ⟨((State.reset.put (F.EBP_CTRL_EN 1) 1).put F.CONT_STAT_ROLE 2).modCont (fun c => { c with proposal := some ⟨⟨0, 1000, 0⟩, 5⟩ }), 1, sealFrame 8 { src := 1, seq := 0, setId := 0, len := 3, payload := [3, 0, 0, 0, 0, 160, 15, 0, 5, 0, 0, 0], crc := 0 }, 1, by decide +kernel⟩,
   ⟨State.reset.put (F.EBP_CTRL_EN 1) 1, 1, sealFrame 9 { src := 1, seq := 0, setId := 0, len := 3, payload := [1, 0, 0, 0, 0, 160, 15, 0, 5, 0, 0, 0], crc := 0 }, 1, by decide +kernel⟩,
   ⟨{ State.reset with pwr := { Pwr.reset with held := true } }, by decide +kernel⟩⟩

/-- States and operands that meet every hypothesis of BeatsSlotsAndRequests. -/
theorem test_met_BeatsSlotsAndRequests :
    (∃ (s : State), (coreStopped s = false)) ∧
    (∃ (s : State), (coreStopped s = false) ∧ (s.get F.CONT_STAT_ROLE ≠ 2)) ∧
    (∃ (s : State) (e : Port), (coreStopped s = false) ∧ (s.get F.CONT_STAT_ROLE = 2) ∧ (portUp s e = true ∧ coreStopped s = false) ∧ (outerRuns s = false)) ∧
    (∃ (s : State), (coreStopped s = false) ∧ (s.on F.CONT_STAT_FORMING = true)) ∧
    (∃ (s : State) (i : Fin 2) (v : Bool) (l : Lane), (coreStopped s = false) ∧ (leadinLane s i = some l)) ∧
    (∃ (s : State) (i : Fin 2) (l : Lane), (coreStopped s = false) ∧ (leadinLane s i = some l)) ∧
    (∃ (s : State), (coreStopped s = false) ∧ (s.get F.CONT_STAT_ROLE = 2 ∨ judgesPeers s = false)) ∧
    (∃ (s : State), (coreStopped s = false) ∧ (s.get F.CONT_STAT_ROLE = 1)) ∧
    (∃ (s : State) (l : Lane), (coreStopped s = false) ∧ (s.get F.CONT_STAT_ROLE = 1 ∧ s.cont.frameCyc = false ∧ 1 ≤ s.cont.misses ∧ s.cont.transfers = []) ∧ ((peersOf s).find? (fun l => roleSeen s l.val == 2) = some l) ∧ (s.on (F.CONT_PEER_BEAT l.val) = false) ∧ (within2Ti s s.peers[l.val].edge s.peers[l.val].frame = true)) ∧
    (∃ (s : State), (coreStopped s = false)) ∧
    (∃ (s : State), (coreStopped s = false) ∧ (s.get F.CONT_STAT_ROLE ≠ 0 ∧ s.cont.withdrawing = false)) ∧
    (∃ (s : State) (k : Bool), (coreStopped s = false) ∧ (s.get F.CONT_STAT_ROLE = 2) ∧ (s.on F.CONT_SWAP_PEND = false)) ∧
    (∃ (s : State) (k : Bool), (coreStopped s = false) ∧ (s.get F.CONT_STAT_ROLE ≠ 2)) ∧
    (∃ (s : State), (coreStopped s = false)) ∧
    (∃ (s : State), (coreStopped s = false)) ∧
    (∃ (s : State), (coreStopped s = false)) ∧
    (∃ (s : State) (n : Fin 2) (l : Lane) (p : List Byte), (coreStopped s = false) ∧ (p.length = 16 ∧ bytesAt p 14 2 = crc16 (p.take 14) ∧ l.val ≠ laneId s) ∧ (bytesAt p 0 1 % 4 = 1)) ∧
    (∃ (s : State) (n : Fin 2) (l : Lane) (p : List Byte), (coreStopped s = false) ∧ (p.length ≠ 16 ∨ bytesAt p 14 2 ≠ crc16 (p.take 14) ∨ l.val = laneId s)) ∧
    (∃ (s : State) (l : Lane), (coreStopped s = false)) ∧
    (∃ (s : State), (coreStopped s = false) ∧ (s.on F.CONT_STAT_JOINED = true)) ∧
    (∃ (s : State) (n : Fin 2) (d : List Byte), (coreStopped s = false)) ∧
    (∃ (s : State), (coreStopped s = true)) :=
  ⟨⟨State.reset, by decide +kernel⟩,
   ⟨State.reset, by decide +kernel⟩,
   ⟨((State.reset.put (F.EBP_CTRL_EN 1) 1).put (F.EBP_STAT_TRAINED 1) 1).put F.CONT_STAT_ROLE 2, 1, by decide +kernel⟩,
   ⟨State.reset.put F.CONT_STAT_FORMING 1, by decide +kernel⟩,
   ⟨State.reset.put F.SEAL_STRAP_WORD 0xC, 1, true, 2, by decide +kernel⟩,
   ⟨State.reset.put F.SEAL_STRAP_WORD 0xC, 1, 2, by decide +kernel⟩,
   ⟨State.reset, by decide +kernel⟩,
   ⟨State.reset.put F.CONT_STAT_ROLE 1, by decide +kernel⟩,
   ⟨((((State.reset.put F.SEAL_STRAP_WORD 4).put F.CONT_STAT_ROLE 1).put (F.CONT_PEER_ROLE 1) 2).modCont (fun c => { c with misses := 1 })).modPeer 1 (fun p => { p with edge := some 0, frame := some 0 }), 1, by decide +kernel⟩,
   ⟨State.reset, by decide +kernel⟩,
   ⟨State.reset.put F.CONT_STAT_ROLE 1, by decide +kernel⟩,
   ⟨State.reset.put F.CONT_STAT_ROLE 2, true, by decide +kernel⟩,
   ⟨State.reset, true, by decide +kernel⟩,
   ⟨State.reset, by decide +kernel⟩,
   ⟨State.reset, by decide +kernel⟩,
   ⟨State.reset, by decide +kernel⟩,
   ⟨State.reset, 1, 2, List.replicate 13 0 ++ [0, 0x1D, 0x0F] |>.set 0 1 |> (fun l => l.take 14 ++ leBytes 2 (crc16 (l.take 14))), by decide +kernel⟩,
   ⟨State.reset, 1, 2, [], by decide +kernel⟩,
   ⟨State.reset, 0, by decide +kernel⟩,
   ⟨State.reset.put F.CONT_STAT_JOINED 1, by decide +kernel⟩,
   ⟨State.reset, 0, [], by decide +kernel⟩,
   ⟨{ State.reset with pwr := { Pwr.reset with held := true } }, by decide +kernel⟩⟩

/-- States and operands that meet every hypothesis of CutLatchSet. -/
theorem test_met_CutLatchSet :
    (∃ (s : State) (c : Nat), (c < 10) ∧ (s.on F.SAFE_STAT_CUT = false)) ∧
    (∃ (s : State) (c : Nat), (c < 10) ∧ (c ≠ causeLockstep ∧ c ≠ causeNetstop) ∧ (s.on F.SAFE_STAT_CUT = true)) :=
  ⟨⟨State.reset, 9, by decide +kernel⟩,
   ⟨State.reset.put F.SAFE_STAT_CUT 1, 5, by decide +kernel⟩⟩

/-- States and operands that meet every hypothesis of SupervisorAndCutCommands. -/
theorem test_met_SupervisorAndCutCommands :
    (∃ (s : State), (issues s .v = true)) ∧
    (∃ (s : State) (c : BitVec 4), (issues s .v = true) ∧ (4 ≤ c.toNat ∧ c.toNat ≤ 9)) ∧
    (∃ (s : State), (s.sys.dogHeld = false) ∧ (s.on F.SAFE_STAT_NMILS = false) ∧ (s.on F.SAFE_STAT_NMINS = false)) ∧
    (∃ (s : State), (s.sys.dogHeld = false) ∧ (s.on F.SAFE_STAT_NMILS = true) ∧ (s.on F.SAFE_STAT_NMINS = true)) ∧
    (∃ (s : State), (s.sys.vRuns = true ∧ coreStopped s = false) ∧ (s.on F.SAFE_STAT_NMILS = true)) ∧
    (∃ (s : State), (s.sys.vRuns = true ∧ coreStopped s = false) ∧ (s.on F.SAFE_STAT_NMINS = true)) ∧
    (∃ (s : State) (mask : BitVec 10), (issues s .v = true)) :=
  ⟨⟨vReset, by decide +kernel⟩,
   ⟨vReset, 9, by decide +kernel⟩,
   ⟨State.reset.modSys (fun y => { y with dogHeld := false }), by decide +kernel⟩,
   ⟨((State.reset.put F.SAFE_STAT_NMILS 1).put F.SAFE_STAT_NMINS 1).modSys (fun y => { y with dogHeld := false }), by decide +kernel⟩,
   ⟨(State.reset.put F.SAFE_STAT_NMILS 1).modSys (fun y => { y with vRuns := true }), by decide +kernel⟩,
   ⟨(State.reset.put F.SAFE_STAT_NMINS 1).modSys (fun y => { y with vRuns := true }), by decide +kernel⟩,
   ⟨vReset, 0, by decide +kernel⟩⟩

/-- States and operands that meet every hypothesis of ClearingTheCutLatch. -/
theorem test_met_ClearingTheCutLatch :
    (∃ (s : State), (issues s .v = true) ∧ (s.on F.SAFE_STAT_CUT = true) ∧ (s.get F.SAFE_CAUSE_CAUSE = 0)) ∧
    (∃ (s : State), (issues s .v = true) ∧ (s.get F.SAFE_CAUSE_CAUSE ≠ 0)) ∧
    (∃ (s : State) (ms : Nat), (s.on F.SAFE_STAT_RJAM = false)) ∧
    (∃ (s : State) (ms : Nat), (s.safe.resumeLow = true) ∧ (20 ≤ ms ∧ ms ≤ 500) ∧ (s.on F.SAFE_STAT_CUT = true) ∧ (s.get F.SAFE_CAUSE_CAUSE = 0)) ∧
    (∃ (s : State) (ms : Nat), (s.safe.resumeLow = true) ∧ (ms < 20 ∨ (ms ≤ 500 ∧ s.get F.SAFE_CAUSE_CAUSE ≠ 0))) ∧
    (∃ (s : State), (s.on F.SAFE_STAT_RJAM = false)) ∧
    (∃ (s : State) (a : ArmToken), (s.safe.armed = some a)) :=
  ⟨⟨vReset.put F.SAFE_STAT_CUT 1, by decide +kernel⟩,
   ⟨vReset.put F.SAFE_CAUSE_CAUSE 4, by decide +kernel⟩,
   ⟨State.reset, 0, by decide +kernel⟩,
   ⟨(State.reset.put F.SAFE_STAT_CUT 1).modSafe (fun x => { x with resumeLow := true }), 500, by decide +kernel⟩,
   ⟨State.reset.modSafe (fun x => { x with resumeLow := true }), 19, by decide +kernel⟩,
   ⟨State.reset, by decide +kernel⟩,
   ⟨State.reset.modSafe (fun x => { x with armed := some ⟨7, 0, false⟩ }), ⟨7, 0, false⟩, by decide +kernel⟩⟩

/-- States and operands that meet every hypothesis of IsolationSwitches. -/
theorem test_met_IsolationSwitches :
    (∃ (s : State) (b : Bridge), (issues s .v = true) ∧ (isoClosed s b = false) ∧ (mayTakePart s = true ∧ s.on F.SAFE_STAT_CUT = false ∧ s.on F.SAFE_STAT_STOPN = false) ∧ (bridgeUsed s b = true) ∧ (s.bit F.SAFE_ISOFB_FB (2 * b.val) = true ∧ s.bit F.SAFE_ISOFB_FB (2 * b.val + 1) = true) ∧ (s.bit F.SAFE_ISOFB_FLTOPN (2 * b.val) = false ∧ s.bit F.SAFE_ISOFB_FLTOPN (2 * b.val + 1) = false)) ∧
    (∃ (s : State) (b : Bridge), (issues s .v = true) ∧ (isoClosed s b = false) ∧ (mayTakePart s = false ∨ s.on F.SAFE_STAT_CUT = true ∨ s.on F.SAFE_STAT_STOPN = true ∨ bridgeUsed s b = false ∨ s.bit F.SAFE_ISOFB_FB (2 * b.val) = false ∨ s.bit F.SAFE_ISOFB_FB (2 * b.val + 1) = false ∨ s.bit F.SAFE_ISOFB_FLTOPN (2 * b.val) = true ∨ s.bit F.SAFE_ISOFB_FLTOPN (2 * b.val + 1) = true)) ∧
    (∃ (s : State) (b : Bridge), (issues s .v = true) ∧ (isoClosed s b = true)) ∧
    (∃ (s : State) (i : Fin 4), (isoClosed s (fbBridge i) = true)) ∧
    (∃ (s : State) (i : Fin 4), (isoClosed s (fbBridge i) = true) ∧ (bitAt s.safe.checking.toNat i.val = false)) ∧
    (∃ (s : State) (i : Fin 4), (bitAt s.safe.checking.toNat i.val = true) ∧ (isoClosed s (fbBridge i) = false)) ∧
    (∃ (s : State) (i : Fin 4), (bitAt s.safe.checking.toNat i.val = true) ∧ (isoClosed s (fbBridge i) = true)) :=
  ⟨⟨(vReset.put F.SAFE_STAT_SEALED 1).put F.SAFE_STAT_STOPN 0, 0, by decide +kernel⟩,
   ⟨vReset, 1, by decide +kernel⟩,
   ⟨vReset.modSafe (fun x => { x with isoH := 1, isoL := 1 }), 0, by decide +kernel⟩,
   ⟨State.reset.modSafe (fun x => { x with isoH := 2, isoL := 2 }), 3, by decide +kernel⟩,
   ⟨State.reset.modSafe (fun x => { x with isoH := 2, isoL := 2 }), 3, by decide +kernel⟩,
   ⟨State.reset.modSafe (fun x => { x with checking := 4 }), 2, by decide +kernel⟩,
   ⟨State.reset.modSafe (fun x => { x with checking := 4, isoH := 2, isoL := 2 }), 2, by decide +kernel⟩⟩

/-- States and operands that meet every hypothesis of CanReceptionAndTwins. -/
theorem test_met_CanReceptionAndTwins :
    (∃ (s : State) (n : CanCtl) (f : CanFrame) (k : Nat), (coreStopped s = false) ∧ (canListens s n = true ∧ s.can[n.val].abdCand = none ∧ f.rtr = false ∧ canMode s n ≠ 3) ∧ ((List.range 96).find? (fun j => canMatches s n j f) = some k) ∧ (2 ≤ n.val ∨ issues s .s = false ∨ (k < 83 ∧ (s.on F.TIME_CTRL_EN = false ∨ k ≠ s.get F.TIME_SYNC_SOBJ)))) ∧
    (∃ (s : State) (n : CanCtl) (m : Fin 2) (f : CanFrame) (k : Nat), (coreStopped s = false) ∧ (canListens s n = true ∧ s.can[n.val].abdCand = none ∧ f.rtr = false ∧ canMode s n ≠ 3 ∧ issues s .s = true ∧ n.val = m.val) ∧ ((List.range 96).find? (fun j => canMatches s n j f) = some k)) ∧
    (∃ (s : State) (n : CanCtl) (f : CanFrame), (coreStopped s = false) ∧ (canListens s n = true ∧ s.can[n.val].abdCand = none ∧ canMode s n ≠ 3) ∧ (f.rtr = true ∨ (List.range 96).find? (fun j => canMatches s n j f) = none)) ∧
    (∃ (s : State) (n : CanCtl) (f : CanFrame), (coreStopped s = false) ∧ (canListens s n = false ∨ canMode s n = 3)) ∧
    (∃ (s : State) (n : CanCtl) (f : CanFrame) (k : Nat), (coreStopped s = false) ∧ (canListens s n = true ∧ canMode s n ≠ 3 ∧ k < 8) ∧ (s.can[n.val].abdCand = some k) ∧ ((f.fd && f.brs) = true)) ∧
    (∃ (s : State) (n : CanCtl) (k : RxErrorKind), (coreStopped s = false) ∧ (canListens s n = true ∧ s.can[n.val].abdCand = none) ∧ (k = .stuff ∨ k = .form ∨ k = .crc ∨ k = .bit ∨ (k = .protocolException ∧ s.on (F.CAN_CTRL_PXHD n) = true))) ∧
    (∃ (s : State) (n : CanCtl) (k : RxErrorKind), (coreStopped s = false) ∧ (canListens s n = true ∧ canCounts s n = true) ∧ (k = .bitInFlag ∨ k = .dominantAfterFlag)) ∧
    (∃ (s : State) (n : CanCtl), (coreStopped s = false) ∧ (canListens s n = true)) ∧
    (∃ (s : State) (n : CanCtl), (coreStopped s = false) ∧ (canListens s n = true) ∧ (s.on (F.CAN_CTRL_PXHD n) = false)) ∧
    (∃ (s : State) (k : TwinPair) (a : TwinCopy), (coreStopped s = false) ∧ (s.twin[k.val] = ⟨some a, some a⟩ ∧ a.len ≤ 64)) ∧
    (∃ (s : State) (k : TwinPair) (a b : TwinCopy), (coreStopped s = false) ∧ (s.twin[k.val] = ⟨some a, some b⟩) ∧ (a ≠ b)) ∧
    (∃ (s : State) (k : TwinPair) (a : TwinCopy), (coreStopped s = false) ∧ (s.twin[k.val] = ⟨some a, none⟩ ∧ a.len ≤ 64) ∧ (s.on (F.TWIN_PCFG_STOP k) = false)) ∧
    (∃ (s : State) (n : CanCtl) (off : BitVec 12) (v : Word), (coreStopped s = false) ∧ (s.get (F.CAN_WSEL_OBJ n) < 96)) ∧
    (∃ (s : State) (n : CanCtl) (off : BitVec 12) (v : Word) (k : Nat), (coreStopped s = false) ∧ (s.get (F.CAN_WSEL_OBJ n) = 96 + k)) ∧
    (∃ (s : State) (n : CanCtl), (coreStopped s = false) ∧ (s.on (F.CAN_CTRL_EN n) = true ∧ s.get (F.CAN_CTRL_OPMODE n) = 2)) ∧
    (∃ (s : State) (n : CanCtl), (coreStopped s = false) ∧ (s.on (F.CAN_CTRL_EN n) = false ∨ s.get (F.CAN_CTRL_OPMODE n) ≠ 2)) ∧
    (∃ (s : State) (n : CanCtl) (k : Nat), (coreStopped s = false) ∧ (s.can[n.val].abdCand = some k)) ∧
    (∃ (s : State) (n : CanCtl) (m : BitVec 2), (coreStopped s = false)) ∧
    (∃ (s : State), (coreStopped s = true)) :=
  ⟨⟨setCanObj 1 5 { CanObj.reset with id := 0x80000000 + 0x123 <<< 18 } (State.reset.put (F.CAN_CTRL_EN 1) 1), 1, { id := 0x123, ext := false, fd := true, brs := true, esi := false, rtr := false, dlc := 2, data := [7, 9] }, 5, by decide +kernel⟩,
   ⟨setCanObj 1 83 { CanObj.reset with id := 0x80000000 + 0x123 <<< 18 } (State.reset.put (F.CAN_CTRL_EN 1) 1), 1, 1, { id := 0x123, ext := false, fd := true, brs := true, esi := false, rtr := false, dlc := 2, data := [7, 9] }, 83, by decide +kernel⟩,
   ⟨State.reset.put (F.CAN_CTRL_EN 1) 1, 1, { id := 0x123 <<< 18, ext := false, fd := true, brs := true, esi := false, rtr := false, dlc := 2, data := [7, 9] }, by decide +kernel⟩,
   ⟨State.reset, 1, { id := 0x123 <<< 18, ext := false, fd := true, brs := true, esi := false, rtr := false, dlc := 2, data := [7, 9] }, by decide +kernel⟩,
   ⟨(State.reset.put (F.CAN_CTRL_EN 1) 1).modCan 1 (fun c => { c with abdCand := some 3 }), 1, { id := 0x123 <<< 18, ext := false, fd := true, brs := true, esi := false, rtr := false, dlc := 2, data := [7, 9] }, 3, by decide +kernel⟩,
   ⟨State.reset.put (F.CAN_CTRL_EN 1) 1, 1, .stuff, by decide +kernel⟩,
   ⟨State.reset.put (F.CAN_CTRL_EN 1) 1, 1, .bitInFlag, by decide +kernel⟩,
   ⟨State.reset.put (F.CAN_CTRL_EN 1) 1, 1, by decide +kernel⟩,
   ⟨State.reset.put (F.CAN_CTRL_EN 1) 1, 1, by decide +kernel⟩,
   ⟨State.reset.modTwin 3 (fun _ => ⟨some ⟨2, [1, 2]⟩, some ⟨2, [1, 2]⟩⟩), 3, ⟨2, [1, 2]⟩, by decide +kernel⟩,
   ⟨State.reset.modTwin 3 (fun _ => ⟨some ⟨2, [1, 2]⟩, some ⟨2, [1, 3]⟩⟩), 3, ⟨2, [1, 2]⟩, ⟨2, [1, 3]⟩, by decide +kernel⟩,
   ⟨State.reset.modTwin 3 (fun _ => ⟨some ⟨2, [1, 2]⟩, none⟩), 3, ⟨2, [1, 2]⟩, by decide +kernel⟩,
   ⟨State.reset, 1, 0x800, 5, by decide +kernel⟩,
   ⟨State.reset.put (F.CAN_WSEL_OBJ 1) 100, 1, 0x810, 5, 4, by decide +kernel⟩,
   ⟨(State.reset.put (F.CAN_CTRL_EN 1) 1).put (F.CAN_CTRL_OPMODE 1) 2, 1, by decide +kernel⟩,
   ⟨State.reset, 1, by decide +kernel⟩,
   ⟨State.reset.modCan 1 (fun c => { c with abdCand := some 3 }), 1, 3, by decide +kernel⟩,
   ⟨State.reset, 0, 0, by decide +kernel⟩,
   ⟨{ State.reset with pwr := { Pwr.reset with held := true } }, by decide +kernel⟩⟩

/-- States and operands that meet every hypothesis of CanTransmission. -/
theorem test_met_CanTransmission :
    (∃ (s : State) (n : CanCtl) (k : Fin 32), (coreStopped s = false)) ∧
    (∃ (s : State) (n : CanCtl) (k : Fin 32) (win : Bool) (d : Nat), (coreStopped s = false) ∧ (canMaySend s n = true ∧ s.can[n.val].active = none ∧ s.on (F.CAN_TSTAT_TXREQ n k) = true) ∧ (∀ j : Fin 32, s.on (F.CAN_TSTAT_TXREQ n j) = true → arbKey (canObj s n (96 + k.val)) < arbKey (canObj s n (96 + j.val)) ∨ (arbKey (canObj s n (96 + k.val)) = arbKey (canObj s n (96 + j.val)) ∧ k ≤ j))) ∧
    (∃ (s : State) (n : CanCtl) (win : Bool) (d : Nat), (coreStopped s = false) ∧ (canMaySend s n = false ∨ (s.can[n.val].active = none ∧ ∀ j : Fin 32, s.on (F.CAN_TSTAT_TXREQ n j) = false))) ∧
    (∃ (s : State) (n : CanCtl) (k : Fin 32), (coreStopped s = false) ∧ (s.can[n.val].active = some (k, true) ∧ bitAt s.host.stale.toNat n.val = false)) ∧
    (∃ (s : State) (n : CanCtl), (coreStopped s = false) ∧ ((∀ k, s.can[n.val].active ≠ some (k, true)) ∧ bitAt s.host.stale.toNat n.val = false)) ∧
    (∃ (s : State) (n : CanCtl) (k : Fin 32) (w : Bool), (coreStopped s = false) ∧ (s.can[n.val].active = some (k, w) ∧ bitAt s.host.stale.toNat n.val = false)) ∧
    (∃ (s : State) (n : CanCtl) (k : Fin 32) (w : Bool) (e : TxErrorKind), (coreStopped s = false) ∧ (s.can[n.val].active = some (k, w) ∧ (e = .stuff ∨ e = .form ∨ e = .bit ∨ e = .ackDominant)) ∧ (s.get (F.CAN_STAT_EST n) ≠ 2 ∧ bitAt s.host.stale.toNat n.val = false)) ∧
    (∃ (s : State) (n : CanCtl) (k : Fin 32) (w : Bool), (coreStopped s = false) ∧ (s.can[n.val].active = some (k, w) ∧ bitAt s.host.stale.toNat n.val = false)) ∧
    (∃ (s : State) (n : CanCtl) (e : TxErrorKind), (coreStopped s = false) ∧ (s.can[n.val].active = none ∧ bitAt s.host.stale.toNat n.val = false) ∧ (e ≠ .overload ∧ e ≠ .bitInFlag ∧ e ≠ .dominantAfterFlag)) ∧
    (∃ (s : State) (n : CanCtl) (e : TxErrorKind), (coreStopped s = false) ∧ (canListens s n = true ∧ canCounts s n = true ∧ s.can[n.val].txFlag = true ∧ bitAt s.host.stale.toNat n.val = false) ∧ (e = .bitInFlag ∨ e = .dominantAfterFlag) ∧ (s.get (F.CAN_ERRC_TEC n) + 8 ≤ 255)) ∧
    (∃ (s : State) (n : CanCtl) (k : Fin 32), (coreStopped s = false)) ∧
    (∃ (s : State) (n : CanCtl), (coreStopped s = false)) ∧
    (∃ (s : State) (n : CanCtl), (coreStopped s = false)) ∧
    (∃ (s : State) (n : CanCtl), (coreStopped s = false)) ∧
    (∃ (s : State) (n : CanCtl), (coreStopped s = false)) ∧
    (∃ (s : State) (n : CanCtl) (k : Nat), (coreStopped s = false) ∧ (n.val < 2 ∧ issues s .s = true ∧ 83 ≤ k ∧ k ≤ 95)) ∧
    (∃ (s : State), (coreStopped s = true)) :=
  ⟨⟨State.reset, 0, 0, by decide +kernel⟩,
   ⟨((State.reset.put (F.CAN_CTRL_EN 1) 1).put (F.CAN_TSTAT_TXREQ 1 4) 1).modSys (fun y => { y with sDown := false }), 1, 4, true, 30, by decide +kernel⟩,
   ⟨State.reset, 1, true, 30, by decide +kernel⟩,
   ⟨State.reset.modCan 1 (fun c => { c with active := some (4, true) }), 1, 4, by decide +kernel⟩,
   ⟨State.reset, 1, by decide +kernel⟩,
   ⟨State.reset.modCan 1 (fun c => { c with active := some (4, true) }), 1, 4, true, by decide +kernel⟩,
   ⟨State.reset.modCan 1 (fun c => { c with active := some (4, true) }), 1, 4, true, .form, by decide +kernel⟩,
   ⟨State.reset.modCan 1 (fun c => { c with active := some (4, true) }), 1, 4, true, by decide +kernel⟩,
   ⟨State.reset, 1, .ack, by decide +kernel⟩,
   ⟨(State.reset.put (F.CAN_CTRL_EN 1) 1).modCan 1 (fun c => { c with txFlag := true }), 1, .bitInFlag, by decide +kernel⟩,
   ⟨State.reset, 0, 0, by decide +kernel⟩,
   ⟨State.reset, 0, by decide +kernel⟩,
   ⟨State.reset, 0, by decide +kernel⟩,
   ⟨State.reset, 0, by decide +kernel⟩,
   ⟨State.reset, 0, by decide +kernel⟩,
   ⟨State.reset, 1, 95, by decide +kernel⟩,
   ⟨{ State.reset with pwr := { Pwr.reset with held := true } }, by decide +kernel⟩⟩

/-- States and operands that meet every hypothesis of UsileBus. -/
theorem test_met_UsileBus :
    (∃ (s : State) (mon : Bool), (coreStopped s = false) ∧ (mon = true ∨ usileMaster s = true) ∧ (s.on F.USL_CTRL_EN = false)) ∧
    (∃ (s : State), (coreStopped s = false) ∧ (usileMaster s = false)) ∧
    (∃ (s : State) (mon : Bool), (coreStopped s = false)) ∧
    (∃ (s : State), (coreStopped s = false) ∧ (s.on F.USL_CTRL_EN = true ∧ s.get F.USL_TXBASE_ADDR + 4 ≤ 0x300000) ∧ (onCycle s = true ∨ (s.get F.USL_STAT_STATE = 1 ∧ s.usl.listenSince + cycleTicks s ≤ s.tick))) ∧
    (∃ (s : State), (coreStopped s = false) ∧ (s.on F.USL_CTRL_EN = false ∨ (onCycle s = false ∧ (s.get F.USL_STAT_STATE ≠ 1 ∨ s.tick < s.usl.listenSince + cycleTicks s)))) ∧
    (∃ (s : State) (k : UslEnt), (coreStopped s = false) ∧ (s.on F.USL_CTRL_EN = true ∧ s.on F.USL_CTRL_MON = false ∧ s.get F.USL_STAT_STATE = 2) ∧ (uslEnabled s k = true ∧ slotOf s k = .none) ∧ (payloadAddr s k + 20 ≤ 0x20300000)) ∧
    (∃ (s : State) (k : UslEnt) (t0 : Nat), (coreStopped s = false) ∧ (slotOf s k = .polling t0) ∧ (t0 + pollTicks s k ≤ s.tick)) ∧
    (∃ (s : State) (k : UslEnt) (t0 : Nat), (coreStopped s = false) ∧ (slotOf s k = .polling t0 ∧ s.tick < t0 + pollTicks s k)) ∧
    (∃ (s : State) (k : UslEnt) (rep : UslReply) (w t0 : Nat) (h : UslHeard), (coreStopped s = false) ∧ (slotOf s k = .waiting w) ∧ (heardAs s k rep h ∧ h.start = some t0 ∧ endsInCycle s k h.ends = true) ∧ (s.get (F.USL_ENTW_WLO k) * bitTicks s (s.get (F.USL_ENTA_CH k)) ≤ t0 ∧ t0 ≤ s.get (F.USL_ENTW_WHI k) * bitTicks s (s.get (F.USL_ENTA_CH k))) ∧ (h.ok = true ∧ h.bytes.length = 4 + s.get (F.USL_ENTA_RLEN k) ∧ beBytes2 (crc16 (h.bytes.take (2 + s.get (F.USL_ENTA_RLEN k)))) = h.bytes.drop (2 + s.get (F.USL_ENTA_RLEN k)) ∧ (h.bytes.getD 0 0).toNat = 128 + s.get (F.USL_ENTA_ADDR k)) ∧ (recordAddr s (fillBank s) k + 44 ≤ 0x20300000)) ∧
    (∃ (s : State) (k : UslEnt) (rep : UslReply) (w c t0 : Nat) (h : UslHeard), (coreStopped s = false) ∧ (slotOf s k = .waiting w ∧ s.get (F.USL_ENTA_CH k) = c) ∧ (heardAs s k rep h ∧ h.start = some t0)) ∧
    (∃ (s : State) (k : UslEnt) (w c : Nat), (coreStopped s = false) ∧ (slotOf s k = .waiting w ∧ s.get (F.USL_ENTA_CH k) = c)) ∧
    (∃ (s : State) (c : Nat), (coreStopped s = false) ∧ (s.on F.USL_CTRL_EN = true ∧ onCycle s = true) ∧ (s.usl.cycleAt = some c ∧ c < s.tick) ∧ (s.get F.USL_RXBASE_ADDR + 4 ≤ 0x300000)) ∧
    (∃ (s : State), (coreStopped s = false) ∧ (s.on F.USL_CTRL_EN = false ∨ onCycle s = false)) ∧
    (∃ (s : State) (c : Fin 2) (rb : Bool), (coreStopped s = false) ∧ (s.get F.USL_STAT_STATE = 1 ∨ s.get F.USL_STAT_STATE = 2) ∧ (s.on F.USL_CTRL_MON = false)) ∧
    (∃ (s : State), (coreStopped s = false)) ∧
    (∃ (s : State) (c : Fin 2) (adr : BitVec 7) (cmd : BitVec 4), (coreStopped s = false) ∧ (s.on F.USL_CTRL_EN = true ∧ s.on F.USL_CTRL_MON = true ∧ s.get F.USL_STAT_STATE = 2)) ∧
    (∃ (s : State) (k : UslEnt) (rep : UslReply) (c : Nat), (coreStopped s = false) ∧ (slotOf s k = .none ∧ (overOf s k).window = true ∧ s.get (F.USL_ENTA_CH k) = c) ∧ (fallsFrom true 0 rep.line ≠ [])) ∧
    (∃ (s : State), (coreStopped s = true)) :=
  ⟨⟨State.reset, true, by decide +kernel⟩,
   ⟨State.reset, by decide +kernel⟩,
   ⟨State.reset, true, by decide +kernel⟩,
   ⟨State.reset.put F.USL_CTRL_EN 1, by decide +kernel⟩,
   ⟨State.reset, by decide +kernel⟩,
   ⟨((State.reset.put F.USL_CTRL_EN 1).put F.USL_STAT_STATE 2).put (F.USL_ENTA_EN 7) 1, 7, by decide +kernel⟩,
   ⟨setSlot 7 (.polling 0) State.reset, 7, 0, by decide +kernel⟩,
   ⟨(setSlot 7 (.polling 0) State.reset).modUsl (fun u => { u with polls := [(0, [1])] }), 7, 0, by decide +kernel⟩,
   ⟨inCycle, 7, ⟨goodLine⟩, 0, 400, ⟨some 400, [128, 0, 6, 151], true, 1200⟩, by decide +kernel⟩,
   ⟨inCycle, 7, ⟨badLine⟩, 0, 0, 400, ⟨some 400, [128, 0, 0, 0], true, 1200⟩, by decide +kernel⟩,
   ⟨setSlot 7 (.waiting 0) State.reset, 7, 0, 0, by decide +kernel⟩,
   ⟨({ State.reset with tick := cycleTicks State.reset }.put F.USL_CTRL_EN 1).modUsl (fun u => { u with cycleAt := some 0 }), 0, by decide +kernel⟩,
   ⟨State.reset, by decide +kernel⟩,
   ⟨State.reset.put F.USL_STAT_STATE 1, 1, true, by decide +kernel⟩,
   ⟨State.reset, by decide +kernel⟩,
   ⟨((State.reset.put F.USL_CTRL_EN 1).put F.USL_CTRL_MON 1).put F.USL_STAT_STATE 2, 1, 3, 4, by decide +kernel⟩,
   ⟨setOver 7 (.waiting 0) State.reset, 7, ⟨badLine⟩, 0, by decide +kernel⟩,
   ⟨{ State.reset with pwr := { Pwr.reset with held := true } }, by decide +kernel⟩⟩

/-- States and operands that meet every hypothesis of HostTransports. -/
theorem test_met_HostTransports :
    (∃ (s : State) (ty : Byte) (l : List Byte), (s.on F.HOST_CTRL_EN = true ∧ s.get F.PWR_STAT_STATE < 2) ∧ (ty ≠ 0xA5 ∧ ty ≠ 0x5A)) ∧
    (∃ (s : State) (l : List Byte), (s.on F.HOST_CTRL_EN = true ∧ issues s .s = true) ∧ (l.length < 4)) ∧
    (∃ (s : State) (l : List Byte), (s.on F.HOST_CTRL_EN = true ∧ issues s .s = true) ∧ (4 ≤ l.length) ∧ (8 ≤ heldOn s .spi)) ∧
    (∃ (s : State) (op seq flags : Byte) (d pad : List Byte), (s.on F.HOST_CTRL_EN = true ∧ issues s .s = true) ∧ (heldOn s .spi < 8 ∧ d.length ≤ 248) ∧ (∀ p ∈ (channel s .spi).waiting, p.decided = none ∧ p.seq ≠ seq) ∧ (∀ r ∈ (channel s .spi).replies, r.seq ≠ seq) ∧ (knownOps.contains op.toNat = true ∧ bitAt flags.toNat 0 = false)) ∧
    (∃ (s : State) (l : List Byte), (s.on F.HOST_CTRL_EN = true ∧ issues s .s = true) ∧ ((channel s .spi).waiting = [] ∧ heldOn s .spi < 8 ∧ 4 ≤ l.length)) ∧
    (∃ (s : State) (op seq : Byte) (r : Reply), (s.on F.HOST_CTRL_EN = true ∧ issues s .s = true) ∧ ((channel s .spi).waiting = [] ∧ heldOn s .spi < 8) ∧ (∀ q ∈ (channel s .spi).replies, q.seq ≠ seq) ∧ ((channel s .spi).past.find? (fun q => q.seq == seq && q.op == op) = some r)) ∧
    (∃ (s : State) (n : Nat) (r : Reply) (rest : List Reply), (s.on F.HOST_CTRL_EN = true ∧ s.get F.PWR_STAT_STATE < 2) ∧ ((channel s .spi).replies = r :: rest)) ∧
    (∃ (s : State) (n : Nat), (s.on F.HOST_CTRL_EN = true ∧ s.get F.PWR_STAT_STATE < 2) ∧ ((channel s .spi).replies = [])) ∧
    (∃ (s : State) (n : Nat) (l : List Byte), (s.on F.HOST_CTRL_EN = false ∨ 2 ≤ s.get F.PWR_STAT_STATE)) ∧
    (∃ (s : State) (n : Fin 2) (op seq : Byte) (d pad : List Byte), (canCommands s = true ∧ hostTakes s = true ∧ d.length ≤ 56) ∧ (channel s (if n = 0 then .c0 else .c1) = ⟨[], [], []⟩ ∧ knownOps.contains op.toNat = true)) ∧
    (∃ (s : State) (n : Fin 2) (l : List Byte), (canCommands s = false)) ∧
    (∃ (s : State) (i : Fin 3) (rest : List (Fin 3)) (p : Packet), (coreStopped s = false) ∧ (s.host.mbox = i :: rest ∧ (channel s (chanOfIx i)).waiting.head? = some p)) ∧
    (∃ (s : State) (n : Nat), (n < 256)) ∧
    (∃ (s : State), (coreStopped s = false) ∧ (s.host.mbox = [])) ∧
    (∃ (s : State), (coreStopped s = false)) ∧
    (∃ (s : State) (c : Transport) (p : Packet), (inTurn c p s ∧ (p.op = 0x40 ∨ p.op = 0x41))) ∧
    (∃ (s : State) (n : Fin 2) (sec ns : Word) (k : Fin 32) (c : CanCtl), (coreStopped s = false) ∧ (s.on F.TIME_CTRL_EN = true ∧ s.on F.TIME_CTRL_MASTER = true) ∧ (c.val = n.val ∧ k.val = s.get F.TIME_SYNC_TOBJ % 32 ∧ s.on (F.CAN_TSTAT_TXREQ c k) = false)) ∧
    (∃ (s : State) (n : Fin 2) (f : SyncFrame) (a b : Word) (e : Int), (coreStopped s = false) ∧ (s.on F.TIME_CTRL_MASTER = true)) ∧
    (∃ (s : State) (f : SyncFrame) (a b : Word) (e : Int) (m : SyncMark), (coreStopped s = false) ∧ (s.on F.TIME_CTRL_MASTER = false ∧ s.on F.TIME_CTRL_NET = false) ∧ (s.time.mark0 = some m ∧ f.pvalid = true ∧ f.seq = m.seq + 1 ∧ s.time.rates.length ≤ 8) ∧ (s.on F.TIME_STAT_STEPPED = true)) ∧
    (∃ (s : State) (f : SyncFrame) (a b : Word) (e : Int) (m : SyncMark), (coreStopped s = false) ∧ (s.on F.TIME_CTRL_MASTER = false ∧ s.on F.TIME_CTRL_NET = false) ∧ (s.time.mark0 = some m ∧ f.pvalid = true ∧ f.seq = m.seq + 1) ∧ (s.on F.TIME_STAT_STEPPED = false)) ∧
    (∃ (s : State), (coreStopped s = false) ∧ (s.on F.TIME_CTRL_MASTER = false)) ∧
    (∃ (s : State), (coreStopped s = true)) :=
  ⟨⟨hostAt 0 [] false |> modChannel .spi (fun _ => ⟨[], [], []⟩), 7, [1], by decide +kernel⟩,
   ⟨hostAt 0 [] false |> modChannel .spi (fun _ => ⟨[], [], []⟩), [1, 2, 3], by decide +kernel⟩,
   ⟨hostAt 0 [] false |> modChannel .spi (fun _ => ⟨List.replicate 8 ⟨0, 1, [], none, false, 0⟩, [], []⟩), [1, 2, 3, 4], by decide +kernel⟩,
   ⟨hostAt 0 [] false |> modChannel .spi (fun _ => ⟨[], [], []⟩), 0x10, 7, 0, [], [], by decide +kernel⟩,
   ⟨hostAt 0 [] false |> modChannel .spi (fun _ => ⟨[], [], []⟩), [1, 255, 7, 0], by decide +kernel⟩,
   ⟨hostAt 0 [] false |> modChannel .spi (fun _ => ⟨[], [], [⟨0x10, 7, 0, [5]⟩]⟩), 0x10, 7, ⟨0x10, 7, 0, [5]⟩, by decide +kernel⟩,
   ⟨hostAt 0 [] false |> modChannel .spi (fun _ => ⟨[], [⟨0x10, 7, 0, [5]⟩], []⟩), 20, ⟨0x10, 7, 0, [5]⟩, [], by decide +kernel⟩,
   ⟨hostAt 0 [] false |> modChannel .spi (fun _ => ⟨[], [], []⟩), 3, by decide +kernel⟩,
   ⟨State.reset, 3, [4], by decide +kernel⟩,
   ⟨(hostAt 0 [] false |> modChannel .spi (fun _ => ⟨[], [], []⟩)).put F.SEAL_STRAP_WORD 0x80, 1, 0x10, 7, [], [], by decide +kernel⟩,
   ⟨State.reset, 1, [], by decide +kernel⟩,
   ⟨(hostAt 0x30 (List.replicate 8 0) false).modHost (fun h => { h with mbox := [0] }), 0, [], ⟨0x30, 1, List.replicate 8 0, none, false, 0⟩, by decide +kernel⟩,
   ⟨State.reset, 255, by decide +kernel⟩,
   ⟨State.reset, by decide +kernel⟩,
   ⟨State.reset, by decide +kernel⟩,
   ⟨hostAt 0x40 [] false, .spi, ⟨0x40, 1, [], none, false, 0⟩, by decide +kernel⟩,
   ⟨(State.reset.put F.TIME_CTRL_EN 1).put F.TIME_CTRL_MASTER 1, 1, 5, 6, 0, 1, by decide +kernel⟩,
   ⟨State.reset.put F.TIME_CTRL_MASTER 1, 1, ⟨1, true, 0, 0⟩, 0, 0, 0, by decide +kernel⟩,
   ⟨(State.reset.put F.TIME_STAT_STEPPED 1).modTime (fun t => { t with mark0 := some ⟨1, 0, 0⟩ }), ⟨2, true, 0, 0⟩, 0, 0, 0, ⟨1, 0, 0⟩, by decide +kernel⟩,
   ⟨State.reset.modTime (fun t => { t with mark0 := some ⟨1, 0, 0⟩ }), ⟨2, true, 0, 0⟩, 0, 0, 0, ⟨1, 0, 0⟩, by decide +kernel⟩,
   ⟨State.reset, by decide +kernel⟩,
   ⟨{ State.reset with pwr := { Pwr.reset with held := true } }, by decide +kernel⟩⟩

/-- States and operands that meet every hypothesis of OpcodesThatRead. -/
theorem test_met_OpcodesThatRead :
    (∃ (s : State) (c : Transport) (p : Packet), (inTurn c p s ∧ p.op = 0x0)) ∧
    (∃ (s : State) (c : Transport) (p : Packet), (inTurn c p s)) ∧
    (∃ (s : State) (c : Transport) (p : Packet), (inTurn c p s ∧ p.op = 0x3)) ∧
    (∃ (s : State) (c : Transport) (p : Packet), (inTurn c p s ∧ p.op = 0x4) ∧ (p.payload.length ≤ replyRoom c)) ∧
    (∃ (s : State) (c : Transport) (p : Packet), (inTurn c p s ∧ p.op = 0x10)) ∧
    (∃ (s : State) (c : Transport) (p : Packet) (a n : Nat), (inTurn c p s ∧ p.op = 0x11 ∧ a = bytesAt p.payload 0 4 ∧ n = bytesAt p.payload 4 1)) ∧
    (∃ (s : State) (c : Transport) (p : Packet), (inTurn c p s ∧ p.op = 0x43)) ∧
    (∃ (s : State) (c : Transport) (p : Packet), (inTurn c p s ∧ p.op = 0x12)) ∧
    (∃ (s : State) (c : Transport) (p : Packet) (k : PosBlk), (inTurn c p s ∧ p.op = 0x13 ∧ bytesAt p.payload 0 1 = k.val)) ∧
    (∃ (s : State) (c : Transport) (p : Packet), (inTurn c p s ∧ p.op = 0x50)) ∧
    (∃ (s : State) (c : Transport) (p : Packet) (a : Nat), (inTurn c p s ∧ p.op = 0x60 ∧ a = bytesAt p.payload 0 2)) ∧
    (∃ (s : State) (c : Transport) (p : Packet) (a n : Nat), (inTurn c p s ∧ p.op = 0x61 ∧ a = bytesAt p.payload 0 4 ∧ n = bytesAt p.payload 4 1)) ∧
    (∃ (s : State) (c : Transport) (p : Packet) (i : Nat), (inTurn c p s ∧ p.op = 0x62 ∧ i = bytesAt p.payload 0 2)) ∧
    (∃ (s : State) (c : Transport) (p : Packet), (inTurn c p s ∧ p.op = 0x70)) ∧
    (∃ (s : State) (c : Transport) (p : Packet) (i : Nat), (inTurn c p s ∧ p.op = 0x71 ∧ i = bytesAt p.payload 0 1)) ∧
    (∃ (s : State) (c : Transport) (p : Packet), (inTurn c p s ∧ p.op = 0x80)) ∧
    (∃ (s : State) (c : Transport) (p : Packet), (inTurn c p s ∧ p.op = 0x82)) ∧
    (∃ (s : State) (c : Transport) (p : Packet) (code : Nat), ((channel s c).waiting.head? = some p ∧ hostTakes s = true ∧ p.decided = none ∧ p.posted = false) ∧ (p.op = 0x51) ∧ (refusal s c 0x51 p.payload.length = some code)) ∧
    (∃ (s : State) (c : Transport) (p : Packet), ((channel s c).waiting.head? = some p ∧ hostTakes s = true ∧ p.decided = none ∧ p.posted = false) ∧ (0xF0 ≤ p.op.toNat ∧ c = .spi ∧ s.on F.HOST_STAT_SESSION = true ∧ s.on F.KEEP_STAT_STOOD = false)) :=
  ⟨⟨hostAt 0x0 (List.replicate 0 0) false, .spi, ⟨0x0, 1, List.replicate 0 0, none, false, 0⟩, by decide +kernel⟩,
   ⟨hostAt 0x0 (List.replicate 0 0) false, .spi, ⟨0x0, 1, List.replicate 0 0, none, false, 0⟩, by decide +kernel⟩,
   ⟨hostAt 0x3 (List.replicate 0 0) false, .spi, ⟨0x3, 1, List.replicate 0 0, none, false, 0⟩, by decide +kernel⟩,
   ⟨hostAt 0x4 (List.replicate 3 0) false, .spi, ⟨0x4, 1, List.replicate 3 0, none, false, 0⟩, by decide +kernel⟩,
   ⟨hostAt 0x10 (List.replicate 0 0) false, .spi, ⟨0x10, 1, List.replicate 0 0, none, false, 0⟩, by decide +kernel⟩,
   ⟨hostAt 0x11 [0, 0x50, 1, 0x40, 1] false, .spi, ⟨0x11, 1, [0, 0x50, 1, 0x40, 1], none, false, 0⟩, 0x40015000, 1, by decide +kernel⟩,
   ⟨hostAt 0x43 (List.replicate 0 0) false, .spi, ⟨0x43, 1, List.replicate 0 0, none, false, 0⟩, by decide +kernel⟩,
   ⟨hostAt 0x12 (List.replicate 0 0) false, .spi, ⟨0x12, 1, List.replicate 0 0, none, false, 0⟩, by decide +kernel⟩,
   ⟨hostAt 0x13 [1] false, .spi, ⟨0x13, 1, [1], none, false, 0⟩, 1, by decide +kernel⟩,
   ⟨hostAt 0x50 (List.replicate 0 0) false, .spi, ⟨0x50, 1, List.replicate 0 0, none, false, 0⟩, by decide +kernel⟩,
   ⟨hostAt 0x60 [255, 15, 1] false, .spi, ⟨0x60, 1, [255, 15, 1], none, false, 0⟩, 4095, by decide +kernel⟩,
   ⟨hostAt 0x61 [0, 0, 0, 0, 240] false, .spi, ⟨0x61, 1, [0, 0, 0, 0, 240], none, false, 0⟩, 0, 240, by decide +kernel⟩,
   ⟨hostAt 0x62 [0, 0] false, .spi, ⟨0x62, 1, [0, 0], none, false, 0⟩, 0, by decide +kernel⟩,
   ⟨hostAt 0x70 (List.replicate 32 0) false, .spi, ⟨0x70, 1, List.replicate 32 0, none, false, 0⟩, by decide +kernel⟩,
   ⟨hostAt 0x71 [11] false, .spi, ⟨0x71, 1, [11], none, false, 0⟩, 11, by decide +kernel⟩,
   ⟨hostAt 0x80 (List.replicate 0 0) false, .spi, ⟨0x80, 1, List.replicate 0 0, none, false, 0⟩, by decide +kernel⟩,
   ⟨hostAt 0x82 [] false, .spi, ⟨0x82, 1, [], none, false, 0⟩, by decide +kernel⟩,
   ⟨hostAt 0x51 [] false, .spi, ⟨0x51, 1, [], none, false, 0⟩, 0x43, by decide +kernel⟩,
   ⟨hostAt 0xF3 [] false, .spi, ⟨0xF3, 1, [], none, false, 0⟩, by decide +kernel⟩⟩

/-- States and operands that meet every hypothesis of OpcodesThatAct. -/
theorem test_met_OpcodesThatAct :
    (∃ (s : State) (c : Transport) (p : Packet), (inTurn c p s ∧ p.op = 0x01)) ∧
    (∃ (s : State) (c : Transport) (p : Packet), (inTurn c p s ∧ p.op = 0x2)) ∧
    (∃ (s : State) (c : Transport) (p : Packet) (a : Nat), (inTurn c p s ∧ p.op = 0x20 ∧ a = bytesAt p.payload 0 4)) ∧
    (∃ (s : State) (c : Transport) (p : Packet) (off : Nat), (inTurn c p s ∧ p.op = 0x22 ∧ off = bytesAt p.payload 0 4)) ∧
    (∃ (s : State) (c : Transport) (p : Packet), (inTurn c p s)) ∧
    (∃ (s : State) (c : Transport) (p : Packet), (inTurn c p s ∧ p.op = 0x23)) ∧
    (∃ (s : State) (c : Transport) (p : Packet) (b off a : Nat), (inTurn c p s ∧ p.op = 0x24 ∧ b = bytesAt p.payload 0 1 ∧ off = bytesAt p.payload 4 4 ∧ a = bankBase (b == 1) + off) ∧ (b ≤ 1)) ∧
    (∃ (s : State) (c : Transport) (p : Packet) (b : Nat), (inTurn c p s ∧ p.op = 0x25 ∧ b = bytesAt p.payload 0 1 ∧ b ≤ 1)) ∧
    (∃ (s : State) (c : Transport) (p : Packet), (inTurn c p s ∧ p.op = 0x21) ∧ ((∀ d ∈ ([.spi, .c0, .c1] : List Transport), d ≠ c → mayPost s d = false) ∧ ∀ j ∈ s.host.mbox, headOrder s j ≤ headOrder s (chanIx c))) ∧
    (∃ (s : State) (c : Transport) (p : Packet), (inTurn c p s ∧ p.op = 0x30) ∧ ((∀ d ∈ ([.spi, .c0, .c1] : List Transport), d ≠ c → mayPost s d = false) ∧ ∀ j ∈ s.host.mbox, headOrder s j ≤ headOrder s (chanIx c))) ∧
    (∃ (s : State) (c : Transport) (p : Packet), (inTurn c p s ∧ p.op = 0x31) ∧ ((∀ d ∈ ([.spi, .c0, .c1] : List Transport), d ≠ c → mayPost s d = false) ∧ ∀ j ∈ s.host.mbox, headOrder s j ≤ headOrder s (chanIx c))) ∧
    (∃ (s : State) (c : Transport) (p : Packet), (inTurn c p s ∧ p.op = 0x32) ∧ ((∀ d ∈ ([.spi, .c0, .c1] : List Transport), d ≠ c → mayPost s d = false) ∧ ∀ j ∈ s.host.mbox, headOrder s j ≤ headOrder s (chanIx c))) ∧
    (∃ (s : State) (c : Transport) (p : Packet), (inTurn c p s ∧ p.op = 0x33) ∧ ((∀ d ∈ ([.spi, .c0, .c1] : List Transport), d ≠ c → mayPost s d = false) ∧ ∀ j ∈ s.host.mbox, headOrder s j ≤ headOrder s (chanIx c))) ∧
    (∃ (s : State) (c : Transport) (p : Packet), (inTurn c p s ∧ p.op = 0x34) ∧ ((∀ d ∈ ([.spi, .c0, .c1] : List Transport), d ≠ c → mayPost s d = false) ∧ ∀ j ∈ s.host.mbox, headOrder s j ≤ headOrder s (chanIx c))) ∧
    (∃ (s : State) (c : Transport) (p : Packet), (inTurn c p s ∧ p.op = 0x42) ∧ ((∀ d ∈ ([.spi, .c0, .c1] : List Transport), d ≠ c → mayPost s d = false) ∧ ∀ j ∈ s.host.mbox, headOrder s j ≤ headOrder s (chanIx c))) ∧
    (∃ (s : State) (c : Transport) (p : Packet), (inTurn c p s ∧ p.op = 0x40 ∧ s.sys.vRuns = true)) ∧
    (∃ (s : State) (c : Transport) (p : Packet), (inTurn c p s ∧ p.op = 0x41 ∧ s.sys.vRuns = true)) ∧
    (∃ (s : State) (c : Transport) (p : Packet), (inTurn c p s ∧ p.op = 0x51)) ∧
    (∃ (s : State) (c : Transport) (p : Packet), (inTurn c p s ∧ p.op = 0x72)) ∧
    (∃ (s : State) (c : Transport) (p : Packet), (inTurn c p s ∧ p.op = 0x74)) ∧
    (∃ (s : State) (c : Transport) (p : Packet), (inTurn c p s ∧ p.op = 0x73 ∧ s.on F.KEEP_STAT_STOOD = true)) ∧
    (∃ (s : State) (c : Transport) (p : Packet), (inTurn c p s ∧ p.op = 0x75)) ∧
    (∃ (s : State) (c : Transport) (p : Packet) (n : Nat), (inTurn c p s ∧ p.op = 0x81 ∧ n = bytesAt p.payload 0 1)) :=
  ⟨⟨hostAt 1 [] false, .spi, ⟨1, 1, [], none, false, 0⟩, by decide +kernel⟩,
   ⟨hostAt 0x2 (List.replicate 0 0) false, .spi, ⟨0x2, 1, List.replicate 0 0, none, false, 0⟩, by decide +kernel⟩,
   ⟨hostAt 0x20 [0x0C, 0xC0, 1, 0x40, 8, 0, 0, 0, 8, 0, 0, 0] false, .spi, ⟨0x20, 1, [0x0C, 0xC0, 1, 0x40, 8, 0, 0, 0, 8, 0, 0, 0], none, false, 0⟩, 0x4001C00C, by decide +kernel⟩,
   ⟨hostAt 0x22 [0, 0, 0, 0, 9] false, .spi, ⟨0x22, 1, [0, 0, 0, 0, 9], none, false, 0⟩, 0, by decide +kernel⟩,
   ⟨hostAt 0x22 [0, 0, 0, 0, 9] false, .spi, ⟨0x22, 1, [0, 0, 0, 0, 9], none, false, 0⟩, by decide +kernel⟩,
   ⟨hostAt 0x23 (List.replicate 64 0) false, .spi, ⟨0x23, 1, List.replicate 64 0, none, false, 0⟩, by decide +kernel⟩,
   ⟨hostAt 0x24 [1, 0, 0, 0, 0, 0, 0, 0, 5] false, .spi, ⟨0x24, 1, [1, 0, 0, 0, 0, 0, 0, 0, 5], none, false, 0⟩, 1, 0, 0x10600000, by decide +kernel⟩,
   ⟨hostAt 0x25 [1] false, .spi, ⟨0x25, 1, [1], none, false, 0⟩, 1, by decide +kernel⟩,
   ⟨hostAt 0x21 (List.replicate 1 0) false, .spi, ⟨0x21, 1, List.replicate 1 0, none, false, 0⟩, by decide +kernel⟩,
   ⟨hostAt 0x30 (List.replicate 8 0) false, .spi, ⟨0x30, 1, List.replicate 8 0, none, false, 0⟩, by decide +kernel⟩,
   ⟨hostAt 0x31 (List.replicate 2 0) false, .spi, ⟨0x31, 1, List.replicate 2 0, none, false, 0⟩, by decide +kernel⟩,
   ⟨hostAt 0x32 (List.replicate 1 0) false, .spi, ⟨0x32, 1, List.replicate 1 0, none, false, 0⟩, by decide +kernel⟩,
   ⟨hostAt 0x33 (List.replicate 0 0) false, .spi, ⟨0x33, 1, List.replicate 0 0, none, false, 0⟩, by decide +kernel⟩,
   ⟨hostAt 0x34 (List.replicate 1 0) false, .spi, ⟨0x34, 1, List.replicate 1 0, none, false, 0⟩, by decide +kernel⟩,
   ⟨hostAt 0x42 (List.replicate 2 0) false, .spi, ⟨0x42, 1, List.replicate 2 0, none, false, 0⟩, by decide +kernel⟩,
   ⟨(hostAt 0x40 [] false).modSys (fun y => { y with vRuns := true }), .spi, ⟨0x40, 1, [], none, false, 0⟩, by decide +kernel⟩,
   ⟨(hostAt 0x41 [0, 0] false).modSys (fun y => { y with vRuns := true }), .spi, ⟨0x41, 1, [0, 0], none, false, 0⟩, by decide +kernel⟩,
   ⟨hostAt 0x51 (List.replicate 8 0) false, .spi, ⟨0x51, 1, List.replicate 8 0, none, false, 0⟩, by decide +kernel⟩,
   ⟨hostAt 0x72 [] true, .spi, ⟨0x72, 1, [], none, false, 0⟩, by decide +kernel⟩,
   ⟨hostAt 0x74 [] false, .spi, ⟨0x74, 1, [], none, false, 0⟩, by decide +kernel⟩,
   ⟨hostAt 0x73 (List.replicate 64 0) true, .spi, ⟨0x73, 1, List.replicate 64 0, none, false, 0⟩, by decide +kernel⟩,
   ⟨hostAt 0x75 (List.replicate 64 0) false, .spi, ⟨0x75, 1, List.replicate 64 0, none, false, 0⟩, by decide +kernel⟩,
   ⟨hostAt 0x81 [2] false, .spi, ⟨0x81, 1, [2], none, false, 0⟩, 2, by decide +kernel⟩⟩

/-- States and operands that meet every hypothesis of StartsBegin. -/
theorem test_met_StartsBegin :
    (∃ (s : State) (v : Bool), (s.pwr.armed = false)) ∧
    (∃ (s : State) (v : Bool), (s.pwr.armed = true)) ∧
    (∃ (s : State) (r : Requester), (granted r 0x40000010 s ∧ keeperTakes s = true)) ∧
    (∃ (s : State) (r : Requester), (¬granted r 0x40000010 s ∨ keeperTakes s = false)) ∧
    (∃ (s : State) (r : Requester) (p : Pair), (granted r 0x40000010 s ∧ keeperTakes s = true) ∧ (s.keep.start.isSome = true ∨ s.keep.failWait = true)) ∧
    (∃ (s : State) (r : Requester) (p : Pair), (granted r 0x40000010 s ∧ keeperTakes s = true ∧ s.keep.start = none ∧ s.keep.failWait = false) ∧ (s.on F.CONT_CTRL_EN = false ∨ s.get F.CONT_STAT_ROLE = 0)) ∧
    (∃ (s : State) (r : Requester) (p : Pair), (granted r 0x40000010 s ∧ keeperTakes s = true ∧ s.keep.start = none ∧ s.keep.failWait = false) ∧ (s.on F.CONT_CTRL_EN = true ∧ s.get F.CONT_STAT_ROLE ≠ 0 ∧ s.cont.withdrawing = false)) ∧
    (∃ (s : State) (k : Nat), (coreStopped s = false) ∧ (s.keep.warmPending = some k ∧ (∀ x ∈ s.cont.transfers, x.left ≠ 0) ∧ s.cont.withdrawing = false ∧ k < 16)) ∧
    (∃ (s : State) (x : Transfer), (coreStopped s = false) ∧ (s.keep.warmPending = none ∧ s.cont.transfers = [x] ∧ x.left = 0 ∧ x.subj = laneId s ∧ x.kind = 1) ∧ (x.shares.sum = 1000) ∧ (lanesLeft { s with cont := { s.cont with transfers := [] } } (laneId s) ≠ [])) ∧
    (∃ (s : State), (coreStopped s = false) ∧ (s.keep.warmPending = none ∧ ∀ x ∈ s.cont.transfers, x.left ≠ 0)) ∧
    (∃ (s : State) (code step : Byte), (s.keep.start.isSome = true)) ∧
    (∃ (s : State) (code step : Byte), (s.keep.start = none)) ∧
    (∃ (s : State), (coreStopped s = true)) :=
  ⟨⟨State.reset.modPwr (fun p => { p with armed := false }), true, by decide +kernel⟩,
   ⟨State.reset, true, by decide +kernel⟩,
   ⟨State.reset.modPwr (fun p => { p with aoPowered := true, resetLow := false }), .s, by decide +kernel⟩,
   ⟨State.reset, .p 0, by decide +kernel⟩,
   ⟨(State.reset.modPwr (fun p => { p with aoPowered := true, resetLow := false })).modKeep (fun k => { k with failWait := true }), .s, 1, by decide +kernel⟩,
   ⟨(State.reset.modPwr (fun p => { p with aoPowered := true, resetLow := false })).modKeep (fun k => { k with start := none, failWait := false }), .s, 1, by decide +kernel⟩,
   ⟨((State.reset.modPwr (fun p => { p with aoPowered := true, resetLow := false })).modKeep (fun k => { k with start := none, failWait := false })).put F.CONT_CTRL_EN 1 |>.put F.CONT_STAT_ROLE 1, .s, 1, by decide +kernel⟩,
   ⟨State.reset.modKeep (fun k => { k with warmPending := some 5 }), 5, by decide +kernel⟩,
   ⟨((State.reset.put F.SEAL_STRAP_WORD 4).put (F.CONT_PEER_ROLE 1) 1).modCont (fun c => { c with transfers := [⟨0, 1, ⟨0, 1000, 0⟩, 1, 0⟩] }), ⟨0, 1, ⟨0, 1000, 0⟩, 1, 0⟩, by decide +kernel⟩,
   ⟨State.reset, by decide +kernel⟩,
   ⟨State.reset.modKeep (fun k => { k with start := some ⟨true, false, false, 0⟩ }), 5, 6, by decide +kernel⟩,
   ⟨State.reset.modKeep (fun k => { k with start := none }), 5, 6, by decide +kernel⟩,
   ⟨{ State.reset with pwr := { Pwr.reset with held := true } }, by decide +kernel⟩⟩

/-- States and operands that meet every hypothesis of StartsRunAndEnd. -/
theorem test_met_StartsRunAndEnd :
    (∃ (s : State) (inp : StartInputs), (s.keep.start = none ∨ keeperTakes s = false) ∧ (∀ r, s.keep.start = some r → r.released = false)) ∧
    (∃ (s : State) (inp : StartInputs) (r : StartRun), (s.keep.start = some r ∧ r.released = false ∧ keeperTakes s = true)) ∧
    (∃ (s : State) (inp : StartInputs) (r : StartRun), (s.keep.start = some r ∧ r.released = false ∧ r.cold = false ∧ keeperTakes s = true ∧ s.keep.stood = false) ∧ (inp.romOk = true ∧ inp.storeOk = true ∧ inp.pllOk = true)) ∧
    (∃ (s : State) (inp : StartInputs) (r : StartRun), (s.keep.start = some r ∧ r.released = true)) ∧
    (∃ (s : State) (r : StartRun), (s.keep.start = some r)) ∧
    (∃ (s : State) (r : StartRun), (s.keep.start = some r ∧ r.released = true ∧ s.sealApplied = false)) ∧
    (∃ (s : State), (s.keep.start = none ∨ s.sealApplied = true)) ∧
    (∃ (s : State) (r : StartRun), (s.keep.start = some r ∧ r.released = true ∧ s.sealApplied = true ∧ s.on F.SAFE_STAT_SEALED = true)) ∧
    (∃ (s : State), (s.keep.start = none ∨ s.sealApplied = false ∨ s.on F.SAFE_STAT_SEALED = false)) :=
  ⟨by exact ⟨State.reset.modKeep (fun k => { k with start := none }), noInputs, by decide +kernel, by intro r h; cases h⟩,
   by exact ⟨(State.reset.modPwr (fun p => { p with aoPowered := true, resetLow := false })).modKeep (fun k => { k with start := some ⟨true, false, false, 0⟩ }), noInputs, ⟨true, false, false, 0⟩, by decide +kernel⟩,
   by exact ⟨(State.reset.modPwr (fun p => { p with aoPowered := true, resetLow := false })).modKeep (fun k => { k with start := some ⟨false, false, false, 0⟩ }), noInputs, ⟨false, false, false, 0⟩, by decide +kernel, by decide +kernel⟩,
   by exact ⟨State.reset.modKeep (fun k => { k with start := some ⟨false, true, false, 0⟩ }), noInputs, ⟨false, true, false, 0⟩, by decide +kernel⟩,
   ⟨State.reset.modKeep (fun k => { k with start := some ⟨false, true, false, 0⟩ }), ⟨false, true, false, 0⟩, by decide +kernel⟩,
   ⟨State.reset.modKeep (fun k => { k with start := some ⟨false, true, false, 0⟩ }), ⟨false, true, false, 0⟩, by decide +kernel⟩,
   ⟨State.reset.modKeep (fun k => { k with start := none }), by decide +kernel⟩,
   by exact ⟨({ State.reset with sealApplied := true }.put F.SAFE_STAT_SEALED 1).modKeep (fun k => { k with start := some ⟨false, true, true, 0⟩ }), ⟨false, true, true, 0⟩, by decide +kernel⟩,
   ⟨State.reset, by decide +kernel⟩⟩

/-- States and operands that meet every hypothesis of VotesAndPowerStates. -/
theorem test_met_VotesAndPowerStates :
    (∃ (s : State) (r : Requester) (n : BitVec 4) (i : Nat), (granted r 0x40001008 s ∧ voteNibble r = some i)) ∧
    (∃ (s : State) (l : List LineLevel), (s.pwr.aoPowered = true ∧ s.on F.PWR_WAKECFG_WKEN = true ∧ s.keep.vmotLow = false ∧ asleep s = true) ∧ (s.on F.PWR_WAKECFG_WKMODE = false)) ∧
    (∃ (s : State) (a b c T : Nat), (s.pwr.aoPowered = true ∧ s.on F.PWR_WAKECFG_WKEN = true ∧ s.keep.vmotLow = false ∧ asleep s = true) ∧ (s.on F.PWR_WAKECFG_WKMODE = true ∧ 1800 ≤ a ∧ 1800 ≤ b ∧ 1800 ≤ c ∧ T = (if s.on F.PWR_WAKECFG_WUPTMO then 5000000 else 1000000))) ∧
    (∃ (s : State) (l : List LineLevel), (s.pwr.aoPowered = true)) ∧
    (∃ (s : State) (l : List LineLevel) (n : Nat), (s.pwr.aoPowered = false ∧ s.pwr.pwren = false)) ∧
    (∃ (s : State), (s.pwr.aoPowered = true)) ∧
    (∃ (s : State) (c : BitVec 3) (n : Nat), (s.pwr.entryTo = none ∧ s.pwr.aoPowered = true ∧ wakeSource c.toNat s = some n)) ∧
    (∃ (s : State) (m : BitVec 12), (m ≠ 0 ∧ s.get F.PWR_STAT_STATE ≠ 3 ∧ s.pwr.aoPowered = true ∧ s.pwr.held = false)) ∧
    (∃ (s : State) (m : BitVec 12), (m = 0 ∨ s.get F.PWR_STAT_STATE = 3 ∨ s.pwr.aoPowered = false ∨ s.pwr.held = true)) :=
  ⟨⟨vReset, .v, 4, 3, by decide +kernel⟩,
   ⟨(State.reset.modPwr (fun p => { p with aoPowered := true })).put F.PWR_STAT_STATE 3, [⟨false, 1800⟩], by decide +kernel⟩,
   ⟨((State.reset.modPwr (fun p => { p with aoPowered := true })).put F.PWR_STAT_STATE 3).put F.PWR_WAKECFG_WKMODE 1, 1800, 1800, 1800, 1000000, by decide +kernel⟩,
   ⟨State.reset.modPwr (fun p => { p with aoPowered := true }), [], by decide +kernel⟩,
   ⟨State.reset.modPwr (fun p => { p with aoPowered := false, pwren := false }), [], 1800, by decide +kernel⟩,
   ⟨State.reset, by decide +kernel⟩,
   ⟨(State.reset.put F.PWR_STAT_STATE 2).modPwr (fun p => { p with wake := some 4 }), 3, 4, by decide +kernel⟩,
   ⟨State.reset.modPwr (fun p => { p with aoPowered := true }), 5, by decide +kernel⟩,
   ⟨State.reset, 0, by decide +kernel⟩⟩

/-- States and operands that meet every hypothesis of MportAndJtag. -/
theorem test_met_MportAndJtag :
    (∃ (s : State) (p : Byte) (b : Byte), (s.pwr.aoPowered = true ∧ s.on F.MPORT_CTRL_EN = true ∧ p.toNat < 128)) ∧
    (∃ (s : State) (p : Byte) (b : Byte) (l : List Byte), (s.pwr.aoPowered = true ∧ s.on F.MPORT_CTRL_EN = true ∧ 128 ≤ p.toNat)) ∧
    (∃ (s : State) (p : Byte) (l : List Byte), (s.pwr.aoPowered = true ∧ s.on F.MPORT_CTRL_EN = true) ∧ (p.toNat + l.length ≤ 128 ∧ l.length < 255)) ∧
    (∃ (s : State) (p : Byte), (s.pwr.aoPowered = true ∧ s.on F.MPORT_CTRL_EN = true)) ∧
    (∃ (s : State) (p : Byte) (l : List Byte), (s.pwr.aoPowered = true ∧ s.on F.MPORT_CTRL_EN = true) ∧ (p.toNat < 128 ∧ 128 < p.toNat + l.length)) ∧
    (∃ (s : State) (n : Nat), (s.pwr.aoPowered = true ∧ s.on F.MPORT_CTRL_EN = true)) ∧
    (∃ (s : State) (l : List Byte) (n : Nat) (a : BitVec 7) (r : Bool), (s.pwr.aoPowered = false ∨ s.on F.MPORT_CTRL_EN = false)) ∧
    (∃ (s : State) (a : BitVec 7) (r : Bool), (s.pwr.aoPowered = true ∧ s.on F.MPORT_CTRL_EN = true)) :=
  ⟨⟨(State.reset.modPwr (fun p => { p with aoPowered := true })).put F.MPORT_CTRL_EN 1, 127, 9, by decide +kernel⟩,
   ⟨(State.reset.modPwr (fun p => { p with aoPowered := true })).put F.MPORT_CTRL_EN 1, 128, 9, [], by decide +kernel⟩,
   ⟨(State.reset.modPwr (fun p => { p with aoPowered := true })).put F.MPORT_CTRL_EN 1, 125, [9, 8, 7], by decide +kernel⟩,
   ⟨(State.reset.modPwr (fun p => { p with aoPowered := true })).put F.MPORT_CTRL_EN 1, 200, by decide +kernel⟩,
   ⟨(State.reset.modPwr (fun p => { p with aoPowered := true })).put F.MPORT_CTRL_EN 1, 126, [9, 8, 7, 6], by decide +kernel⟩,
   ⟨(State.reset.modPwr (fun p => { p with aoPowered := true })).put F.MPORT_CTRL_EN 1, 3, by decide +kernel⟩,
   ⟨State.reset.put F.MPORT_CTRL_EN 0, [], 3, 4, true, by decide +kernel⟩,
   ⟨(State.reset.modPwr (fun p => { p with aoPowered := true })).put F.MPORT_CTRL_EN 1, 0x50, true, by decide +kernel⟩⟩

/-- States and operands that meet every hypothesis of BackgroundServices. -/
theorem test_met_BackgroundServices :
    (∃ (s : State) (w : Word) (f : EccFinding), (inSram w.toNat = true ∧ scrubTurn s w.toNat = true ∧ issues s .scrubber = true)) ∧
    (∃ (s : State) (w : Word) (f : EccFinding), ((inSram w.toNat = false ∧ inRetention w.toNat = false) ∨ scrubTurn s w.toNat = false ∨ issues s .scrubber = false)) ∧
    (∃ (s : State) (l : List (Fin 2048)), (issues s .g = true)) ∧
    (∃ (s : State) (l : List (Fin 1536)), (issues s .g = true)) ∧
    (∃ (s : State), (coreStopped s = false)) ∧
    (∃ (s : State) (b : Bridge) (j : Switch) (c : List Nat) (v : List Int) (l : List Rat), (issues s .g = true ∧ senseErrors s b j c v = l ∧ 1000 ≤ l.length ∧ (l.length : Rat) < 256 * l.sum.abs ∧ s.sys.linkLost = false ∧ s.driver.linkLost = false ∧ (s.getS (F.GD_SNSTRIM_TRIM b j)).natAbs ≤ 32)) ∧
    (∃ (s : State) (b : Bridge) (j : Switch) (c : List Nat) (v : List Int), (issues s .g = true) ∧ ((senseErrors s b j c v).length < 1000 ∨ 256 * (senseErrors s b j c v).sum.abs ≤ (senseErrors s b j c v).length)) ∧
    (∃ (s : State) (b : Bridge) (j : Switch) (k : Nat) (x i : Int) (p : PhaseSet), (s.bkg.inline[b.val].find? (fun q => q.at_ == k) = some p ∧ s.tick < k + 200000000 ∧ i = (if j.val % 3 = 0 then p.i1 else if j.val % 3 = 1 then p.i2 else p.i3).natAbs)) ∧
    (∃ (s : State), (issues s .g = true)) ∧
    (∃ (s : State) (l : List (Fin 2048)) (m : List (Fin 1536)) (b : Bridge) (j : Switch) (c : List Nat) (v : List Int), (issues s .g = false)) ∧
    (∃ (s : State), (s.pwr.aoPowered = true ∧ s.get F.PWR_STAT_STATE ≤ 2) ∧ (s.on F.VBUS_STAT_CHOP = true)) ∧
    (∃ (s : State), (issues s .g = true)) ∧
    (∃ (s : State) (q : Fin 6) (l : List Byte) (h tl : Nat), (s.get F.BKG_QBASE_ADDR + 0xD80 ≤ 0x300000) ∧ (h = (s.memWord (queueBase s q.val)).toNat ∧ tl = (s.memWord (queueBase s q.val + 4)).toNat)) ∧
    (∃ (s : State), ((∀ q, q < 6 → s.memWord (queueBase s q) = s.memWord (queueBase s q + 4)) ∧ s.bkg.own = [] ∧ s.bkg.lost = 0)) ∧
    (∃ (s : State) (r : OwnRec), ((∀ q, q < 6 → s.memWord (queueBase s q) = s.memWord (queueBase s q + 4)) ∧ s.bkg.own = [r] ∧ s.bkg.lost = 0) ∧ (issues s .g = true ∧ reelFree s = true ∧ s.get F.BKG_REELBASE_ADDR + 0x20000 ≤ 0x300000)) ∧
    (∃ (s : State) (r : OwnRec), ((∀ q, q < 6 → s.memWord (queueBase s q) = s.memWord (queueBase s q + 4)) ∧ s.bkg.own = [r] ∧ s.bkg.lost = 0) ∧ (issues s .g = true ∧ reelFree s = false)) ∧
    (∃ (s : State), (s.bkg.waiting = [])) ∧
    (∃ (s : State) (l : List Nat), (issues s .g = true ∧ s.bkg.waiting.take 16 = l ∧ l.length = 16 ∧ (s.get F.BKG_RING_WPTR + 512) % 0x2000 ≠ 0 ∧ s.get F.BKG_RING_WPTR % 512 = 0)) ∧
    (∃ (s : State) (w : Nat), (issues s .g = true ∧ s.bkg.waiting ≠ []) ∧ (w = (if s.get F.BKG_RING_WPTR = 0xFFE00 then 0x10000 else s.get F.BKG_RING_WPTR + 512) ∧ w % 0x2000 = 0) ∧ (∀ o ∈ s.bkg.journals, o / 0x2000 ≠ w / 0x2000)) ∧
    (∃ (s : State), (coreStopped s = true)) :=
  ⟨⟨State.reset, 0x20000020, .single, by decide +kernel⟩,
   ⟨State.reset, 0, .single, by decide +kernel⟩,
   ⟨State.reset, [5], by decide +kernel⟩,
   ⟨State.reset, [5], by decide +kernel⟩,
   ⟨State.reset, by decide +kernel⟩,
   ⟨((State.reset.modSys (fun y => { y with linkLost := false })).modDriver (fun d => { d with linkLost := false })).modBkg (fun g => { g with inline := g.inline.set 1 [⟨0, 0, 0, 131072⟩] }), 1, 5, List.replicate 1000 0, List.replicate 1000 262144, List.replicate 1000 1, by decide +kernel⟩,
   ⟨State.reset, 1, 5, [], [], by decide +kernel⟩,
   ⟨State.reset.modBkg (fun g => { g with inline := g.inline.set 1 [⟨7, 0, 0, 131072⟩] }), 1, 5, 7, 5, 131072, ⟨7, 0, 0, 131072⟩, by decide +kernel⟩,
   ⟨State.reset, by decide +kernel⟩,
   ⟨State.reset.modSys (fun y => { y with gDown := true }), [], [], 1, 5, [], [], by decide +kernel⟩,
   ⟨State.reset.put F.VBUS_STAT_CHOP 1, by decide +kernel⟩,
   ⟨State.reset, by decide +kernel⟩,
   ⟨State.reset, 5, [], 0, 0, by decide +kernel⟩,
   ⟨State.reset, by decide +kernel⟩,
   ⟨State.reset.modBkg (fun b => { b with own := [⟨1, [3, 0, 0], none⟩] }), ⟨1, [3, 0, 0], none⟩, by decide +kernel⟩,
   ⟨State.reset.modBkg (fun b => { b with own := [⟨1, [3, 0, 0], none⟩], waiting := List.replicate 4096 0 }), ⟨1, [3, 0, 0], none⟩, by decide +kernel⟩,
   ⟨State.reset, by decide +kernel⟩,
   ⟨(State.reset.put F.BKG_RING_WPTR 0x10200).modBkg (fun b => { b with waiting := List.range 16 }), List.range 16, by decide +kernel⟩,
   ⟨(State.reset.put F.BKG_RING_WPTR 0xFFE00).modBkg (fun b => { b with waiting := [5] }), 0x10000, by decide +kernel⟩,
   ⟨{ State.reset with pwr := { Pwr.reset with held := true } }, by decide +kernel⟩⟩
end

section
/-!
SUPPORT. Every command completes, and keeps the queue of waiting commands and the canonical forms of memory and registers (R22,
R25, R651).
-/
namespace Sys2Proof.Machine

/-- Whatever a command answers keeps the queue and the canonical forms: its meaning's lemma of the same name. -/
theorem kept_exec {u s : State} (h : Kept u s) : ∀ c t, exec c s = .next t → Kept u t
  | .registerWrite .. => kept_execRegisterWrite h
  | .readClear .. => kept_execReadClear h
  | .memoryAccess .. => kept_execMemoryAccess h
  | .serviceRestart => kept_execServiceRestart h
  | .gafferRestart => kept_execGafferRestart h
  | .buserrValidClear => kept_execBuserrValidClear h
  | .configLinkFrame => kept_execConfigLinkFrame h
  | .configLinkLoss => kept_execConfigLinkLoss h
  | .logicLinkLoss => kept_execLogicLinkLoss h
  | .clockMonitorWindow .. => kept_execClockMonitorWindow h
  | .pllLossOfLock => kept_execPllLossOfLock h
  | .dcacheInvalidate .. => kept_execDcacheInvalidate h
  | .fenceI .. => kept_execFenceI h
  | .checkpointSignature .. => kept_execCheckpointSignature h
  | .checkedEgressWrite .. => kept_execCheckedEgressWrite h
  | .lockstepFault .. => kept_execLockstepFault h
  | .vLockstepReaction => kept_execVLockstepReaction h
  | .dblFaultClear .. => kept_execDblFaultClear h
  | .asyncInputChange .. => kept_execAsyncInputChange h
  | .pairRelease .. => kept_execPairRelease h
  | .injectionTestStart .. => kept_execInjectionTestStart h
  | .injectionTestDone .. => kept_execInjectionTestDone h
  | .debugHalt .. => kept_execDebugHalt h
  | .debugResume .. => kept_execDebugResume h
  | .debugSingleStep .. => kept_execDebugSingleStep h
  | .debugRegisterAccess .. => kept_execDebugRegisterAccess h
  | .debugProgramBuffer .. => kept_execDebugProgramBuffer h
  | .debugTriggerWrite .. => kept_execDebugTriggerWrite h
  | .angleClockTick => kept_execAngleClockTick h
  | .angleReload .. => kept_execAngleReload h
  | .stillTimeout .. => kept_execStillTimeout h
  | .angSrcWrite .. => kept_execAngSrcWrite h
  | .angEnable .. => kept_execAngEnable h
  | .cueFallbackFire .. => kept_execCueFallbackFire h
  | .cueDispatch .. => kept_execCueDispatch h
  | .cueLinePulseEnd .. => kept_execCueLinePulseEnd h
  | .cuePosWrite .. => kept_execCuePosWrite h
  | .cueCfgWrite .. => kept_execCueCfgWrite h
  | .carrierValley .. => kept_execCarrierValley h
  | .carrierPeak .. => kept_execCarrierPeak h
  | .sincosSample .. => kept_execSincosSample h
  | .abzEdge .. => kept_execAbzEdge h
  | .edgeResample .. => kept_execEdgeResample h
  | .indexEdge .. => kept_execIndexEdge h
  | .hallEdge .. => kept_execHallEdge h
  | .sentFrame .. => kept_execSentFrame h
  | .sentTimeout .. => kept_execSentTimeout h
  | .edgeStandstill .. => kept_execEdgeStandstill h
  | .creepSample .. => kept_execCreepSample h
  | .mtSet .. => kept_execMtSet h
  | .posReval .. => kept_execPosReval h
  | .sentReval .. => kept_execSentReval h
  | .borrowTimeout => kept_execBorrowTimeout h
  | .compareValWrite .. => kept_execCompareValWrite h
  | .emuStep => kept_execEmuStep h
  | .windowOpen .. => kept_execWindowOpen h
  | .windowEnd .. => kept_execWindowEnd h
  | .bitstreamSaturation .. => kept_execBitstreamSaturation h
  | .bitstreamStuck .. => kept_execBitstreamStuck h
  | .sampleTimeout .. => kept_execSampleTimeout h
  | .isnsReval .. => kept_execIsnsReval h
  | .meanWindowEnd => kept_execMeanWindowEnd h
  | .meanPublish => kept_execMeanPublish h
  | .vCurrentCompare .. => kept_execVCurrentCompare h
  | .vVmotCompare .. => kept_execVVmotCompare h
  | .vRailCheck .. => kept_execVRailCheck h
  | .calibrationRequest .. => kept_execCalibrationRequest h
  | .calibrationDone .. => kept_execCalibrationDone h
  | .calibrationAbort .. => kept_execCalibrationAbort h
  | .activationDispatch .. => kept_execActivationDispatch h
  | .softwareTrigger .. => kept_execSoftwareTrigger h
  | .engineEnable .. => kept_execEngineEnable h
  | .loopOpenRequest .. => kept_execLoopOpenRequest h
  | .bankSwitchRequest .. => kept_execBankSwitchRequest h
  | .bindWrite .. => kept_execBindWrite h
  | .coefficientWrite .. => kept_execCoefficientWrite h
  | .engineRestart .. => kept_execEngineRestart h
  | .engineFault .. => kept_execEngineFault h
  | .engineWatchdog .. => kept_execEngineWatchdog h
  | .engineParityError .. => kept_execEngineParityError h
  | .mov .. => kept_execMov h
  | .ldi .. => kept_execLdi h
  | .add .. => kept_execAdd h
  | .adds .. => kept_execAdds h
  | .sub .. => kept_execSub h
  | .subs .. => kept_execSubs h
  | .neg .. => kept_execNeg h
  | .negs .. => kept_execNegs h
  | .abs .. => kept_execAbs h
  | .min .. => kept_execMin h
  | .max .. => kept_execMax h
  | .shl .. => kept_execShl h
  | .shr .. => kept_execShr h
  | .andOp .. => kept_execAndOp h
  | .orOp .. => kept_execOrOp h
  | .xorOp .. => kept_execXorOp h
  | .cmp .. => kept_execCmp h
  | .ld .. => kept_execLd h
  | .st .. => kept_execSt h
  | .ldc .. => kept_execLdc h
  | .stc .. => kept_execStc h
  | .mpy .. => kept_execMpy h
  | .mac .. => kept_execMac h
  | .msu .. => kept_execMsu h
  | .dmac .. => kept_execDmac h
  | .dmsu .. => kept_execDmsu h
  | .dmpy .. => kept_execDmpy h
  | .clr .. => kept_execClr h
  | .ash .. => kept_execAsh h
  | .rnd .. => kept_execRnd h
  | .rndc .. => kept_execRndc h
  | .intg .. => kept_execIntg h
  | .biq .. => kept_execBiq h
  | .sincos .. => kept_execSincos h
  | .atan2 .. => kept_execAtan2 h
  | .sqrt .. => kept_execSqrt h
  | .div .. => kept_execDiv h
  | .br .. => kept_execBr h
  | .brc .. => kept_execBrc h
  | .loopOp .. => kept_execLoopOp h
  | .setc .. => kept_execSetc h
  | .inPort .. => kept_execInPort h
  | .outPort .. => kept_execOutPort h
  | .outPortL .. => kept_execOutPortL h
  | .postedWriteComplete .. => kept_execPostedWriteComplete h
  | .trig .. => kept_execTrig h
  | .endAct .. => kept_execEndAct h
  | .illegalInstruction .. => kept_execIllegalInstruction h
  | .dCapture .. => kept_execDCapture h
  | .dutyCommit .. => kept_execDutyCommit h
  | .clampEnd .. => kept_execClampEnd h
  | .comparatorReport .. => kept_execComparatorReport h
  | .zcWindowMiss .. => kept_execZcWindowMiss h
  | .startDecision .. => kept_execStartDecision h
  | .listenTimeout .. => kept_execListenTimeout h
  | .modeReqOff .. => kept_execModeReqOff h
  | .modeReqReturn .. => kept_execModeReqReturn h
  | .mcEnableWrite .. => kept_execMcEnableWrite h
  | .gateCommandEdge .. => kept_execGateCommandEdge h
  | .gateWatchAdmit .. => kept_execGateWatchAdmit h
  | .gateWatchTimeout .. => kept_execGateWatchTimeout h
  | .gatePhaseEnd .. => kept_execGatePhaseEnd h
  | .slopeTimeout .. => kept_execSlopeTimeout h
  | .gateSagFault .. => kept_execGateSagFault h
  | .blankingEnd .. => kept_execBlankingEnd h
  | .hardShortTrip .. => kept_execHardShortTrip h
  | .normalShortTrip .. => kept_execNormalShortTrip h
  | .legEnable .. => kept_execLegEnable h
  | .vmotMeasure .. => kept_execVmotMeasure h
  | .ov1Reached => kept_execOv1Reached h
  | .ov1Ended => kept_execOv1Ended h
  | .ov2Reached => kept_execOv2Reached h
  | .ov2Ended => kept_execOv2Ended h
  | .undervoltageBegin .. => kept_execUndervoltageBegin h
  | .undervoltageEnd => kept_execUndervoltageEnd h
  | .driverPowerUp => kept_execDriverPowerUp h
  | .linkTrainingDone .. => kept_execLinkTrainingDone h
  | .linkLost .. => kept_execLinkLost h
  | .linkRetrain .. => kept_execLinkRetrain h
  | .retrainRequest .. => kept_execRetrainRequest h
  | .noticeReceived .. => kept_execNoticeReceived h
  | .claimReceived .. => kept_execClaimReceived h
  | .xcurReceived .. => kept_execXcurReceived h
  | .xrefReceived .. => kept_execXrefReceived h
  | .setopReceived .. => kept_execSetopReceived h
  | .setopApply => kept_execSetopApply h
  | .beatReceived .. => kept_execBeatReceived h
  | .beatSend => kept_execBeatSend h
  | .contFrameReceived .. => kept_execContFrameReceived h
  | .continuitySlot => kept_execContinuitySlot h
  | .shareReceived .. => kept_execShareReceived h
  | .formReceived .. => kept_execFormReceived h
  | .trainReceived .. => kept_execTrainReceived h
  | .formationWindowEnd => kept_execFormationWindowEnd h
  | .slateReceived .. => kept_execSlateReceived h
  | .leadinEdge .. => kept_execLeadinEdge h
  | .beatStopTimeout .. => kept_execBeatStopTimeout h
  | .continuityCheck => kept_execContinuityCheck h
  | .transferTick => kept_execTransferTick h
  | .claimWaitTimeout => kept_execClaimWaitTimeout h
  | .withdrawRequest => kept_execWithdrawRequest h
  | .swapRequest .. => kept_execSwapRequest h
  | .switchbackGo => kept_execSwitchbackGo h
  | .plannedHandover => kept_execPlannedHandover h
  | .laneStatusSend => kept_execLaneStatusSend h
  | .laneStatusReceived .. => kept_execLaneStatusReceived h
  | .laneStatusTimeout .. => kept_execLaneStatusTimeout h
  | .xrefDeadline => kept_execXrefDeadline h
  | .chassisBroadcastReceived .. => kept_execChassisBroadcastReceived h
  | .supervisorKick => kept_execSupervisorKick h
  | .supervisorWatchdogExpiry => kept_execSupervisorWatchdogExpiry h
  | .cutSetCommand .. => kept_execCutSetCommand h
  | .commandClear => kept_execCommandClear h
  | .causeClear .. => kept_execCauseClear h
  | .stopNLowQualified => kept_execStopNLowQualified h
  | .stopNHighQualified => kept_execStopNHighQualified h
  | .resumePulse .. => kept_execResumePulse h
  | .resumeJam => kept_execResumeJam h
  | .resumeJamClear => kept_execResumeJamClear h
  | .armWindowExpiry => kept_execArmWindowExpiry h
  | .supervisorReplyTimeout .. => kept_execSupervisorReplyTimeout h
  | .isolationClose .. => kept_execIsolationClose h
  | .isolationOpen .. => kept_execIsolationOpen h
  | .isoFeedbackChange .. => kept_execIsoFeedbackChange h
  | .isoFeedbackTimeout .. => kept_execIsoFeedbackTimeout h
  | .twinVerdict .. => kept_execTwinVerdict h
  | .vNetstopReaction => kept_execVNetstopReaction h
  | .canFrameReceived .. => kept_execCanFrameReceived h
  | .canWindowWrite .. => kept_execCanWindowWrite h
  | .transmitRequest .. => kept_execTransmitRequest h
  | .arbitration .. => kept_execArbitration h
  | .transmitComplete .. => kept_execTransmitComplete h
  | .transmitError .. => kept_execTransmitError h
  | .transmitCancel .. => kept_execTransmitCancel h
  | .busOffRecover .. => kept_execBusOffRecover h
  | .recoveryDone .. => kept_execRecoveryDone h
  | .busOffRecoverTimer .. => kept_execBusOffRecoverTimer h
  | .opmodeWrite .. => kept_execOpmodeWrite h
  | .busIdle .. => kept_execBusIdle h
  | .canEnableWrite .. => kept_execCanEnableWrite h
  | .bitrateDetectStart .. => kept_execBitrateDetectStart h
  | .abdCandidateTimeout .. => kept_execAbdCandidateTimeout h
  | .usileEnable .. => kept_execUsileEnable h
  | .usileCycleStart => kept_execUsileCycleStart h
  | .pollStart .. => kept_execPollStart h
  | .pollEnd .. => kept_execPollEnd h
  | .replyReceived .. => kept_execReplyReceived h
  | .replyWindowTimeout .. => kept_execReplyWindowTimeout h
  | .usileCycleEnd => kept_execUsileCycleEnd h
  | .secondMasterDetected .. => kept_execSecondMasterDetected h
  | .deferEnd => kept_execDeferEnd h
  | .pollObserved .. => kept_execPollObserved h
  | .timeNsRead .. => kept_execTimeNsRead h
  | .timeRateWrite .. => kept_execTimeRateWrite h
  | .timeStep .. => kept_execTimeStep h
  | .ucycNsRead .. => kept_execUcycNsRead h
  | .uptimeRead .. => kept_execUptimeRead h
  | .syncSend .. => kept_execSyncSend h
  | .syncSample .. => kept_execSyncSample h
  | .syncTimeout => kept_execSyncTimeout h
  | .spiWriteTransaction .. => kept_execSpiWriteTransaction h
  | .spiReadTransaction .. => kept_execSpiReadTransaction h
  | .canCommandFrame .. => kept_execCanCommandFrame h
  | .mailboxAck => kept_execMailboxAck h
  | .mailboxTimeout => kept_execMailboxTimeout h
  | .sessionTimeout => kept_execSessionTimeout h
  | .hostDisable => kept_execHostDisable h
  | .nop .. => kept_execNop h
  | .openSession .. => kept_execOpenSession h
  | .closeSession .. => kept_execCloseSession h
  | .info .. => kept_execInfo h
  | .echo .. => kept_execEcho h
  | .lanestat .. => kept_execLanestat h
  | .readreg .. => kept_execReadreg h
  | .faults .. => kept_execFaults h
  | .position .. => kept_execPosition h
  | .writereg .. => kept_execWritereg h
  | .appcmd .. => kept_execAppcmd h
  | .cfgload .. => kept_execCfgload h
  | .cfgcommit .. => kept_execCfgcommit h
  | .imgload .. => kept_execImgload h
  | .imgcommit .. => kept_execImgcommit h
  | .setpoint .. => kept_execSetpoint h
  | .drive .. => kept_execDrive h
  | .haltMotion .. => kept_execHaltMotion h
  | .withdraw .. => kept_execWithdraw h
  | .handover .. => kept_execHandover h
  | .resarm .. => kept_execResarm h
  | .resconfirm .. => kept_execResconfirm h
  | .switchback .. => kept_execSwitchback h
  | .safestat .. => kept_execSafestat h
  | .timeget .. => kept_execTimeget h
  | .timeset .. => kept_execTimeset h
  | .reelread .. => kept_execReelread h
  | .logread .. => kept_execLogread h
  | .ledger .. => kept_execLedger h
  | .attest .. => kept_execAttest h
  | .measure .. => kept_execMeasure h
  | .relchal .. => kept_execRelchal h
  | .releaseStandDown .. => kept_execReleaseStandDown h
  | .dbgchal .. => kept_execDbgchal h
  | .dbgopen .. => kept_execDbgopen h
  | .pwrget .. => kept_execPwrget h
  | .pwrvote .. => kept_execPwrvote h
  | .wakerec .. => kept_execWakerec h
  | .vendorService .. => kept_execVendorService h
  | .challengeLapse .. => kept_execChallengeLapse h
  | .powerOnReset .. => kept_execPowerOnReset h
  | .resetRelease => kept_execResetRelease h
  | .warmResetCsr .. => kept_execWarmResetCsr h
  | .warmResetRequest .. => kept_execWarmResetRequest h
  | .coldResetRequest .. => kept_execColdResetRequest h
  | .coldStart .. => kept_execColdStart h
  | .warmStart .. => kept_execWarmStart h
  | .startupDone .. => kept_execStartupDone h
  | .startupWriteTimeout => kept_execStartupWriteTimeout h
  | .driveReady => kept_execDriveReady h
  | .startFailure .. => kept_execStartFailure h
  | .failedStartWaitEnd => kept_execFailedStartWaitEnd h
  | .releaseRestart => kept_execReleaseRestart h
  | .standDownClear => kept_execStandDownClear h
  | .extest .. => kept_execExtest h
  | .idcode => kept_execIdcode h
  | .samplePreload .. => kept_execSamplePreload h
  | .clampPins => kept_execClampPins h
  | .highz => kept_execHighz h
  | .dtmcs .. => kept_execDtmcs h
  | .dmi .. => kept_execDmi h
  | .provision .. => kept_execProvision h
  | .bypass => kept_execBypass h
  | .traceSelectWrite .. => kept_execTraceSelectWrite h
  | .voteWrite .. => kept_execVoteWrite h
  | .hostVoteWrite .. => kept_execHostVoteWrite h
  | .powerEntryDone => kept_execPowerEntryDone h
  | .pairGate .. => kept_execPairGate h
  | .wakeAccepted .. => kept_execWakeAccepted h
  | .mportAddressMatch _ read => kept_execMportAddressMatch (a1 := read) h
  | .mportClockRelease => kept_execMportClockRelease h
  | .timerWake => kept_execTimerWake h
  | .sleepExit .. => kept_execSleepExit h
  | .deepExit .. => kept_execDeepExit h
  | .offExit .. => kept_execOffExit h
  | .mportWrite .. => kept_execMportWrite h
  | .mportRead .. => kept_execMportRead h
  | .sentinelTrip .. => kept_execSentinelTrip h
  | .sentinelRecovery .. => kept_execSentinelRecovery h
  | .vmotHoldFall => kept_execVmotHoldFall h
  | .vmotHoldRise => kept_execVmotHoldRise h
  | .scrubRead .. => kept_execScrubRead h
  | .dataNvmMarginPass .. => kept_execDataNvmMarginPass h
  | .codeNvmMarginPass .. => kept_execCodeNvmMarginPass h
  | .calibrationPeriod => kept_execCalibrationPeriod h
  | .calibrationRetry .. => kept_execCalibrationRetry h
  | .senseTrimUpdate .. => kept_execSenseTrimUpdate h
  | .counterMirror => kept_execCounterMirror h
  | .counterSnapshot => kept_execCounterSnapshot h
  | .reelSubmit .. => kept_execReelSubmit h
  | .reelMove => kept_execReelMove h
  | .reelCommit => kept_execReelCommit h
  | .resetAsserted => kept_execResetAsserted h
  | .alwaysOnPowerLoss => kept_execAlwaysOnPowerLoss h
  | .configLinkResume => kept_execConfigLinkResume h
  | .canReceiveError .. => kept_execCanReceiveError h
  | .codeViolation .. => kept_execCodeViolation h

theorem clockedOut_next (s t : State) : clockedOut s (.next t) = .next (if coreStopped s then s else t) := by
  unfold clockedOut; split <;> rfl

theorem byV_next (s t : State) : byV s (.next t) = .next (if issues s .v then t else s) := by
  unfold byV; split <;> rfl

theorem byK_next (s t : State) : byK s (.next t) = .next (if issues s .k then t else s) := by
  unfold byK; split <;> rfl

/-- Every command completes: a block that the PLL clocks may stand (R546, R583, R604), an engine may make no access (R582), and
every other command has a meaning in every state. -/
theorem exec_completes (c : Instr) (s : State) : completes c s := by
  cases c
  case lockstepFault | dblFaultClear | asyncInputChange | injectionTestStart | injectionTestDone | debugHalt | debugResume |
      debugSingleStep | debugRegisterAccess | debugProgramBuffer | debugTriggerWrite | angleReload | stillTimeout |
      angSrcWrite | angEnable | cueFallbackFire | cueDispatch | cueLinePulseEnd | cuePosWrite | cueCfgWrite | carrierValley |
      carrierPeak | sincosSample | abzEdge | edgeResample | indexEdge | hallEdge | sentFrame | sentTimeout | edgeStandstill |
      creepSample | mtSet | posReval | sentReval | borrowTimeout | compareValWrite | emuStep | windowOpen | windowEnd |
      bitstreamSaturation | bitstreamStuck | sampleTimeout | isnsReval | meanWindowEnd | meanPublish | calibrationRequest |
      calibrationDone | calibrationAbort | softwareTrigger | engineEnable | loopOpenRequest | bankSwitchRequest | bindWrite |
      engineRestart | engineWatchdog | engineParityError | postedWriteComplete | dCapture | dutyCommit | clampEnd |
      comparatorReport | zcWindowMiss | startDecision | listenTimeout | modeReqOff | modeReqReturn | mcEnableWrite | legEnable
      | linkTrainingDone | linkLost | linkRetrain | retrainRequest | noticeReceived | claimReceived | xcurReceived |
      xrefReceived | setopReceived | setopApply | beatReceived | beatSend | contFrameReceived | continuitySlot | shareReceived
      | formReceived | trainReceived | formationWindowEnd | slateReceived | leadinEdge | beatStopTimeout | continuityCheck |
      transferTick | claimWaitTimeout | withdrawRequest | swapRequest | switchbackGo | plannedHandover | laneStatusSend |
      laneStatusReceived | laneStatusTimeout | xrefDeadline | chassisBroadcastReceived | twinVerdict | canFrameReceived |
      canWindowWrite | transmitRequest | arbitration | transmitComplete | transmitError | transmitCancel | busOffRecover |
      recoveryDone | busOffRecoverTimer | opmodeWrite | busIdle | canEnableWrite | bitrateDetectStart | abdCandidateTimeout |
      usileEnable | usileCycleStart | pollStart | pollEnd | replyReceived | replyWindowTimeout | usileCycleEnd |
      secondMasterDetected | deferEnd | pollObserved | syncSend | syncSample | syncTimeout | mailboxAck | mailboxTimeout |
      sessionTimeout | calibrationPeriod | calibrationRetry | canReceiveError | codeViolation =>
    exact ⟨_, clockedOut_next s _⟩
  case vCurrentCompare | vVmotCompare | vRailCheck | supervisorKick | cutSetCommand | commandClear | causeClear |
      isolationClose | isolationOpen =>
    exact ⟨_, byV_next s _⟩
  case pairRelease =>
    exact ⟨_, byK_next s _⟩
  all_goals exact ⟨_, rfl⟩

/-- A command answers one state, with the same queue, and in canonical form where the state before is. -/
theorem exec_next_kept (c : Instr) (s : State) : ∃ t, exec c s = .next t ∧ Kept s t :=
  (exec_completes c s).imp fun t ht => ⟨ht, kept_exec (.refl s) c t ht⟩

/-- A step keeps the canonical forms: taking a command off the queue touches neither memory nor registers. -/
theorem step_keeps_wf {s t : State} (w : s.wf = true) (h : step s = .next t) : t.wf = true := by
  unfold step at h
  split at h
  · obtain rfl := Host.Outcome.next.inj h
    exact w
  · next c rest hq => exact (kept_exec (.refl { s with pending := rest }) c t h).forms w

end Sys2Proof.Machine

/-- Settles O3: every operation of the model keeps the canonical forms, and every command completes. -/
theorem everyStepKeepsForms : Obligations.EveryStepKeepsForms :=
  ⟨fun _ _ w h => Sys2Proof.Machine.step_keeps_wf w h,
   fun s c w =>
    let ⟨t, ht, hk⟩ := Sys2Proof.Machine.exec_next_kept c s
    ⟨t, ht, hk.forms w⟩⟩
end

section
/-!
SUPPORT. Accesses to registers: what a requester that may make an access meets (R74, R75, R97, R582, R653), what a read clears
(R26) and what a write stores (R22, R23).
-/
namespace Sys2Proof.Machine

/-! ## An access to a register -/

/-- R74 permits accesses to whole words only (R653). -/
theorem aligned_of_regPermitted {r : Requester} {a : Nat} {w : Bool} (h : regPermitted r a w = true) : a % 4 = 0 := by
  simp only [regPermitted, Bool.and_eq_true, beq_iff_eq] at h
  exact h.1.2

/-- A requester that makes no request leaves everything as it is (R97). -/
theorem busAccess_of_silent {r : Requester} {s : State} (h : issues s r = false) (a : Nat) (w : Bool) (act : State → State) :
    busAccess r a w act s = s := by
  simp [busAccess, h]

/-- A permitted access is the register's own: the requester takes an exception only where the reply is a bus error. -/
theorem busAccess_of_permitted {r : Requester} {a : Nat} {s : State} (w : Bool) (act : State → State)
    (hi : issues s r = true) (hr : reaches r s = true) (hp : regPermitted r a w = true)
    (hm : pmpPermits s r (if w then .write else .read) a 4 = true) :
    busAccess r a w act s =
      if (regAccess r a w act s).bus.err then raiseTo r (if w then 7 else 5) a (regAccess r a w act s)
      else regAccess r a w act s := by
  simp [busAccess, hi, hr, hm, aligned_of_regPermitted hp]

/-- Off the driver die a permitted access acts. -/
theorem regAccess_of_permitted {r : Requester} {a : Nat} {w : Bool} {s : State} (act : State → State)
    (hp : regPermitted r a w = true) (hd : onDriverDie a = false) : regAccess r a w act s = act s := by
  simp [regAccess, hp, hd]

/-- A read of the driver die acts while the link is up (R661). -/
theorem regAccess_read_of_permitted {r : Requester} {a : Nat} {s : State} (act : State → State)
    (hp : regPermitted r a false = true) (hd : onDriverDie a = false ∨ s.sys.linkLost = false) :
    regAccess r a false act s = act s := by
  rcases hd with hd | hl
  · exact regAccess_of_permitted act hp hd
  · simp [regAccess, hp, driverAccess, hl]

/-- A misaligned access of a core raises its exception and never reaches the interconnect (R653). -/
theorem busAccess_of_misaligned {p : Pair} {a : Nat} {s : State} (w : Bool) (act : State → State)
    (hi : issues s (.p p) = true) (ha : a % 4 ≠ 0) :
    busAccess (.p p) a w act s = trapPair p (if w then 6 else 4) a s := by
  simp [busAccess, hi, reaches, ha, isCore, raiseTo]

/-- A pair that is not released makes no request (R97). -/
theorem issues_of_not_released {s : State} {p : Pair} (h : s.bit F.DBL_STAT_RUN p = false) : issues s (.p p) = false := by
  simp [issues, h]

/-! ## The bits of a row -/

/-- A row's bits replaced: within the row the new ones, outside it the old ones. -/
theorem Row.getLsbD_into (r : Row) (w : Word) (v : Nat) (i : Nat) :
    (r.into w v).getLsbD i =
      if r.lo ≤ i ∧ i < r.lo + r.w ∧ i < 32 then (BitVec.ofNat 32 v).getLsbD (i - r.lo) else w.getLsbD i := by
  by_cases hi : i < 32
  · by_cases hlo : r.lo ≤ i
    · by_cases hw : i < r.lo + r.w
      · have h1 : i - r.lo < r.w := by omega
        have h2 : i - r.lo < 32 := by omega
        have h3 : ¬ i < r.lo := by omega
        simp [Row.into, Fld.write, hi, hlo, hw, h1, h2, h3]
      · have h1 : ¬ i - r.lo < r.w := by omega
        simp [Row.into, Fld.write, hi, hlo, hw, h1]
    · have h1 : i < r.lo := by omega
      simp [Row.into, Fld.write, hi, hlo, h1]
  · rw [BitVec.getLsbD_of_ge _ _ (by omega), BitVec.getLsbD_of_ge w _ (by omega), if_neg (by omega)]

/-- A row is 0 in a word whose bits within the row are all 0. -/
theorem Row.of_eq_zero {r : Row} {w : Word} (h : ∀ i, r.lo ≤ i → i < r.lo + r.w → w.getLsbD i = false) : r.of w = 0 := by
  have : w.extractLsb' r.lo r.w = 0 := by
    apply BitVec.eq_of_getLsbD_eq
    intro i hi
    rw [BitVec.getLsbD_extractLsb', h _ (by omega) (by omega)]
    simp
  simp [Row.of, this]

theorem Row.of_into_same (r : Row) (h : r.lo + r.w ≤ 32) (w : Word) (v : Nat) : r.of (r.into w v) = v % 2 ^ r.w :=
  Fld.read_write ⟨0, r.lo, r.w⟩ h w v

theorem Row.of_into_disj (q r : Row) (h : r.lo + r.w ≤ 32) (hd : q.lo + q.w ≤ r.lo ∨ r.lo + r.w ≤ q.lo) (w : Word) (v : Nat) :
    r.of (q.into w v) = r.of w :=
  Fld.read_write_disj ⟨0, q.lo, q.w⟩ ⟨0, r.lo, r.w⟩ h hd w v

theorem Row.of_lt (r : Row) (w : Word) : r.of w < 2 ^ r.w := (w.extractLsb' r.lo r.w).isLt

/-! ## What a read clears (R26) -/

/-- A word with the fields of some rows cleared: a bit stands when it stood and no row covers it. -/
theorem getLsbD_foldl_into_zero (l : List Row) (w : Word) (i : Nat) :
    (l.foldl (fun w r => r.into w 0) w).getLsbD i =
      (w.getLsbD i && l.all (fun r => !(decide (r.lo ≤ i) && decide (i < r.lo + r.w)))) := by
  induction l generalizing w with
  | nil => simp
  | cons r l ih =>
    rw [List.foldl_cons, ih, Row.getLsbD_into]
    by_cases hi : i < 32
    · by_cases h : r.lo ≤ i ∧ i < r.lo + r.w
      · simp [h, hi]
      · by_cases hlo : r.lo ≤ i
        · have hw : ¬ i < r.lo + r.w := fun hw => h ⟨hlo, hw⟩
          simp [hlo, hw]
        · simp [hlo]
    · rw [BitVec.getLsbD_of_ge w _ (by omega), if_neg (by omega)]
      rfl

/-- What a read that clears leaves in the register. -/
theorem clearRead_rd_same (a : Nat) (s : State) :
    (clearRead a s).rd a = ((rowsAt a).filter (fun r => r.acc == .rc)).foldl (fun w r => r.into w 0) (s.rd a) := by
  unfold clearRead
  dsimp only
  split
  · next h => rw [List.isEmpty_iff.mp h, List.foldl_nil]
  · exact State.rd_wr_same s a _

theorem clearRead_rd_other {a b : Nat} (h : b ≠ a) (s : State) : (clearRead a s).rd b = s.rd b := by
  unfold clearRead
  dsimp only
  split
  · rfl
  · exact State.rd_wr_other s _ h

@[simp] theorem clearRead_mem (a : Nat) (s : State) : (clearRead a s).mem = s.mem := by
  unfold clearRead; dsimp only; split <;> rfl

/-- Every RC field is 0 after the read. -/
theorem clearRead_rc {a : Nat} {w : Row} (hw : w ∈ rowsAt a) (hc : w.acc = .rc) (s : State) :
    w.of ((clearRead a s).rd a) = 0 := by
  apply Row.of_eq_zero
  intro i hlo hhi
  rw [clearRead_rd_same, getLsbD_foldl_into_zero, Bool.and_eq_false_iff]
  right
  rw [List.all_eq_false]
  exact ⟨w, by simp [hw, hc], by simp [hlo, hhi]⟩

/-- A field that shares no bit with a row of a list keeps its value when the list's fields are cleared. -/
theorem of_foldl_into_zero {q : Row} (hq : q.lo + q.w ≤ 32) {l : List Row}
    (h : ∀ w ∈ l, w.lo + w.w ≤ q.lo ∨ q.lo + q.w ≤ w.lo) (v : Word) :
    q.of (l.foldl (fun w r => r.into w 0) v) = q.of v := by
  induction l generalizing v with
  | nil => rfl
  | cons r l ih =>
    rw [List.foldl_cons, ih (fun w hw => h w (List.mem_cons_of_mem r hw)),
      Row.of_into_disj r q hq (h r List.mem_cons_self)]

/-- A field of another access code keeps its value. -/
theorem clearRead_other_code {a : Nat} {q : Row} (hq : q.acc ≠ .rc) (hw : q.lo + q.w ≤ 32)
    (h : ∀ w ∈ rowsAt a, w ≠ q → w.lo + w.w ≤ q.lo ∨ q.lo + q.w ≤ w.lo) (s : State) :
    q.of ((clearRead a s).rd a) = q.of (s.rd a) := by
  rw [clearRead_rd_same]
  refine of_foldl_into_zero hw (fun w hm => ?_) _
  simp only [List.mem_filter, beq_iff_eq] at hm
  exact h w hm.1 (fun e => hq (e ▸ hm.2))

/-! ## What a read returns and latches (R26, R507, R518, R614, R654) -/

/-- The registers whose read has an effect of its own hold no RC field. -/
theorem no_rc_in_special_reads : ∀ a ∈ [addrTimeNs, addrUcycNs, addrUptime, F.VBUS_VDRV_VDRV.addr],
    ∀ r ∈ rowsAt a, r.acc ≠ .rc := by
  decide +kernel

/-- A read of a register that has an RC field returns its value and clears its RC fields. -/
theorem regRead_of_rc {a : Nat} {w : Row} (hw : w ∈ rowsAt a) (hc : w.acc = .rc) (r : Requester) (s : State) :
    regRead r a s = busData (signCopies a (regValue r a s)) (clearRead a s) := by
  have hne : ∀ b ∈ [addrTimeNs, addrUcycNs, addrUptime, F.VBUS_VDRV_VDRV.addr], a ≠ b :=
    fun b hb e => no_rc_in_special_reads b hb w (e ▸ hw) hc
  have hrows : (rowsAt a).isEmpty = false := List.isEmpty_eq_false_iff_exists_mem.mpr ⟨w, hw⟩
  simp only [List.forall_mem_cons] at hne
  obtain ⟨h1, h2, h3, h4, -⟩ := hne
  simp [regRead, h1, h2, h3, h4, hrows]

/-- Every read is answered without a bus error. -/
theorem regRead_bus_err (r : Requester) (a : Nat) (s : State) : (regRead r a s).bus.err = false := by
  simp only [regRead, readTimeNs, readUcycNs, readUptime, busData]
  split_ifs <;> rfl

/-- A read changes a register by clearing its RC fields alone. -/
theorem regRead_rd (r : Requester) (a : Nat) (s : State) (b : Nat) :
    (regRead r a s).rd b = s.rd b ∨ (regRead r a s).rd b = (clearRead a s).rd b := by
  simp only [regRead, readTimeNs, readUcycNs, readUptime, busData]
  split_ifs
  case neg => exact .inr rfl
  all_goals exact .inl rfl

/-- READ_CLEAR of a register that the requester may read. -/
theorem exec_readClear_of_permitted {s : State} {r : Requester} {a : Word} (hi : issues s r = true ∧ reaches r s = true)
    (hp : regPermitted r a.toNat false = true ∧ pmpPermits s r .read a.toNat 4 = true)
    (hd : onDriverDie a.toNat = false ∨ s.sys.linkLost = false) :
    exec (.readClear r a) s = .next (regRead r a.toNat s) := by
  change Host.Outcome.next (busAccess r a.toNat false (regRead r a.toNat) s) = _
  rw [busAccess_of_permitted false _ hi.1 hi.2 hp.1 hp.2, regAccess_read_of_permitted _ hp.1 hd]
  simp [regRead_bus_err]

/-! ## What a write stores (R22, R23) -/

/-- The value that the field of a row holds after a write of `new` over `old`. -/
def fieldAfter (s : State) (a : Nat) (old new : Word) (r : Row) : Nat :=
  match fieldFate s a old new r with
  | .store => r.of new
  | .clearOnes => r.of old - (r.of old &&& r.of new)
  | .setOnes => r.of old ||| r.of new
  | _ => r.of old

/-- A field's own part of the write gives it its value, and once more should the row stand twice. -/
theorem of_writeField_same {s : State} {a : Nat} {old new acc : Word} {r : Row} (h : r.lo + r.w ≤ 32)
    (hacc : r.of acc = r.of old ∨ r.of acc = fieldAfter s a old new r) :
    r.of (writeField s a old new acc r) = fieldAfter s a old new r := by
  have hold := r.of_lt old
  have hnew := r.of_lt new
  unfold writeField fieldAfter at *
  cases hf : fieldFate s a old new r with
  | store => rw [Row.of_into_same r h, Nat.mod_eq_of_lt hnew]
  | clearOnes => rw [Row.of_into_same r h, Nat.mod_eq_of_lt (by omega)]
  | setOnes => rw [Row.of_into_same r h, Nat.mod_eq_of_lt (Nat.or_lt_two_pow hold hnew)]
  | keep f => simpa [hf] using hacc
  | act => simpa [hf] using hacc

/-- Another field's part of the write leaves it alone. -/
theorem of_writeField_disj {s : State} {a : Nat} {old new acc : Word} {q r : Row} (h : r.lo + r.w ≤ 32)
    (hd : q.lo + q.w ≤ r.lo ∨ r.lo + r.w ≤ q.lo) : r.of (writeField s a old new acc q) = r.of acc := by
  unfold writeField
  cases fieldFate s a old new q with
  | store => exact Row.of_into_disj q r h hd _ _
  | clearOnes => exact Row.of_into_disj q r h hd _ _
  | setOnes => exact Row.of_into_disj q r h hd _ _
  | keep f => rfl
  | act => rfl

/-- Once a field has its value the rest of the write leaves it. -/
theorem of_foldl_writeField {s : State} {a : Nat} {old new : Word} {r : Row} (h : r.lo + r.w ≤ 32) {l : List Row}
    (hd : ∀ q ∈ l, q ≠ r → q.lo + q.w ≤ r.lo ∨ r.lo + r.w ≤ q.lo) {acc : Word}
    (hacc : r.of acc = fieldAfter s a old new r) :
    r.of (l.foldl (writeField s a old new) acc) = fieldAfter s a old new r := by
  induction l generalizing acc with
  | nil => exact hacc
  | cons q l ih =>
    refine ih (fun x hx => hd x (List.mem_cons_of_mem q hx)) ?_
    by_cases hq : q = r
    · subst hq
      exact of_writeField_same h (.inr hacc)
    · rw [of_writeField_disj h (hd q List.mem_cons_self hq), hacc]

/-- A field that stands in the list gets its value. -/
theorem of_foldl_writeField_mem {s : State} {a : Nat} {old new : Word} {r : Row} (h : r.lo + r.w ≤ 32) {l : List Row}
    (hm : r ∈ l) (hd : ∀ q ∈ l, q ≠ r → q.lo + q.w ≤ r.lo ∨ r.lo + r.w ≤ q.lo) {acc : Word} (hacc : r.of acc = r.of old) :
    r.of (l.foldl (writeField s a old new) acc) = fieldAfter s a old new r := by
  induction l generalizing acc with
  | nil => exact absurd hm List.not_mem_nil
  | cons q l ih =>
    have hd' : ∀ x ∈ l, x ≠ r → x.lo + x.w ≤ r.lo ∨ r.lo + r.w ≤ x.lo := fun x hx => hd x (List.mem_cons_of_mem q hx)
    rw [List.foldl_cons]
    by_cases hq : q = r
    · subst hq
      exact of_foldl_writeField h hd' (of_writeField_same h (.inl hacc))
    · exact ih (List.mem_of_ne_of_mem (Ne.symm hq) hm) hd'
        (by rw [of_writeField_disj h (hd q List.mem_cons_self hq), hacc])

/-- A field of the register after the whole write. -/
theorem of_merged {s : State} {a : Nat} {v : Word} {r : Row} (hr : r ∈ rowsAt a) (h : r.lo + r.w ≤ 32)
    (hd : ∀ q ∈ rowsAt a, q ≠ r → q.lo + q.w ≤ r.lo ∨ r.lo + r.w ≤ q.lo) :
    r.of (merged s a v) = fieldAfter s a (s.rd a) v r :=
  of_foldl_writeField_mem h hr hd rfl

/-- What an accepted write leaves: the merged word, with the access-error flag where a field is discarded. -/
theorem written_of_accepted {a : Nat} {v : Word} {s : State} (h : accepted a v s = true) :
    written a v s =
      if fieldDiscarded s a v then accErr a (s.wr a (merged s a v)) else s.wr a (merged s a v) := by
  unfold accepted at h
  unfold written
  cases ho : regStore a v s with
  | none => simp [ho] at h
  | some t =>
    unfold regStore at ho
    dsimp only at ho
    split_ifs at ho with h1 h2 h3
    · rw [if_pos h3]; exact (Option.some.inj ho).symm
    · rw [if_neg h3]; exact (Option.some.inj ho).symm

theorem accErr_rd_other {a b : Nat} (h : ∀ f, accErrFld a = some f → f.addr ≠ b) (s : State) : (accErr a s).rd b = s.rd b := by
  unfold accErr
  split
  · next f hf => exact State.rd_put_other s f 1 (Ne.symm (h f hf))
  · rfl

@[simp] theorem accErr_bus (a : Nat) (s : State) : (accErr a s).bus = s.bus := by
  unfold accErr; split <;> rfl

/-- The register written holds the merged word, where the block's flag is in another register. -/
theorem written_rd {a : Nat} {v : Word} {s : State} (h : accepted a v s = true)
    (hf : ∀ f, accErrFld a = some f → f.addr ≠ a) : (written a v s).rd a = merged s a v := by
  rw [written_of_accepted h]
  split
  · rw [accErr_rd_other hf, State.rd_wr_same]
  · exact State.rd_wr_same s a _

theorem written_bus {a : Nat} {v : Word} {s : State} (h : accepted a v s = true) : (written a v s).bus = s.bus := by
  rw [written_of_accepted h]
  split
  · exact accErr_bus a _
  · rfl

/-! ## Registers that start no action of their own -/

theorem regWriteWith_id_of_accepted {a : Nat} {v : Word} {s : State} (h : accepted a v s = true) :
    regWriteWith a v id s = written a v s := by
  unfold accepted at h
  unfold regWriteWith written
  cases hs : regStore a v s with
  | none => simp [hs] at h
  | some t => rfl

theorem regWriteWith_of_not_accepted {a : Nat} {v : Word} {s : State} (h : accepted a v s = false) (act : State → State) :
    regWriteWith a v act s = accErr a s := by
  unfold accepted at h
  unfold regWriteWith
  cases hs : regStore a v s with
  | none => rfl
  | some t => simp [hs] at h

section
variable {off a : Nat} {v : Word} {s : State}

theorem sysWrite_plain (h : off ≠ 0x10) (h' : off ≠ 0x40) : sysWrite off a v s = regWriteWith a v id s := by
  simp only [sysWrite, h, h', if_false]; rfl

theorem pwrWrite_plain (r : Requester) (h : a ≠ myVoteAddr) (h' : a ≠ hostVoteAddr) :
    pwrWrite r a v s = regWriteWith a v id s := by
  simp only [pwrWrite, h, h', if_false]

theorem dblWrite_plain (h : 0x20 < off) : dblWrite off a v s = regWriteWith a v id s := by
  have h0 : off ≠ 0 := by omega
  have h1 : ¬ (0x10 ≤ off ∧ off < 0x20) := by omega
  have h2 : ¬ (off = 0x20 ∧ bitAt v.toNat 4 = true) := by omega
  simp only [dblWrite, h0, h1, h2, if_false, dif_neg, not_false_eq_true]; rfl

theorem angWrite_plain (b : Bridge) (h : off ≠ 0) (h' : ¬ (0x100 ≤ off ∧ off < 0x300)) :
    angWrite b off a v s = regWriteWith a v id s := by
  simp only [angWrite, h, h', if_false, dif_neg, not_false_eq_true]

theorem posWrite_plain (k : PosBlk) (h : [0, 0x5C, 0x60, 0x74, 0x84, 0x90].contains off = false) :
    posWrite k off a v s = regWriteWith a v id s := by
  simp only [List.contains_cons, List.contains_nil, Bool.or_eq_false_iff, beq_eq_false_iff_ne, ne_eq, and_true] at h
  obtain ⟨h1, h2, h3, h4, h5, h6⟩ := h
  simp only [posWrite, h1, h2, h3, h4, h5, h6, if_false]; rfl

theorem isnsWrite_plain (h : [0, 0xC, 0x6C].contains off = false) : isnsWrite off a v s = regWriteWith a v id s := by
  simp only [List.contains_cons, List.contains_nil, Bool.or_eq_false_iff, beq_eq_false_iff_ne, ne_eq, and_true] at h
  obtain ⟨h1, h2, h3⟩ := h
  simp only [isnsWrite, h1, h2, h3, if_false]; rfl

theorem hleWrite_plain (h : [0, 0xC].contains off = false) (h' : ¬ ((0x100 ≤ off ∧ off < 0x2C0) ∧ off % 0x40 = 0)) :
    hleWrite off a v s = regWriteWith a v id s := by
  simp only [List.contains_cons, List.contains_nil, Bool.or_eq_false_iff, beq_eq_false_iff_ne, ne_eq, and_true] at h
  obtain ⟨h1, h2⟩ := h
  by_cases hr : 0x100 ≤ off ∧ off < 0x2C0
  · have hm : off % 0x40 ≠ 0 := fun e => h' ⟨hr, e⟩
    simp only [hleWrite, h1, h2, hr, hm, if_false, dif_pos, and_self]
  · simp only [hleWrite, h1, h2, hr, if_false, dif_neg, not_false_eq_true]

theorem mcWrite_plain (b : Bridge) (h : [0, 0x10, 0x14].contains off = false) :
    mcWrite b off a v s = regWriteWith a v id s := by
  simp only [List.contains_cons, List.contains_nil, Bool.or_eq_false_iff, beq_eq_false_iff_ne, ne_eq, and_true] at h
  obtain ⟨h1, h2, h3⟩ := h
  simp only [mcWrite, h1, h2, h3, if_false]

theorem ebpWrite_plain (e : Port) (h : off ≠ 0) : ebpWrite e off a v s = regWriteWith a v id s := by
  simp only [ebpWrite, h, if_false]; rfl

theorem contWrite_plain (h : [0, 4, 0x2C, 0x30].contains off = false) : contWrite off a v s = regWriteWith a v id s := by
  simp only [List.contains_cons, List.contains_nil, Bool.or_eq_false_iff, beq_eq_false_iff_ne, ne_eq, and_true] at h
  obtain ⟨h1, h2, h3, h4⟩ := h
  simp only [contWrite, h1, h2, h3, h4, if_false]; rfl

theorem safeWrite_plain (h : [4, 8, 0xC].contains off = false) : safeWrite off a v s = regWriteWith a v id s := by
  simp only [List.contains_cons, List.contains_nil, Bool.or_eq_false_iff, beq_eq_false_iff_ne, ne_eq, and_true] at h
  obtain ⟨h1, h2, h3⟩ := h
  simp only [safeWrite, h1, h2, h3, if_false]

theorem canWrite_plain (n : CanCtl) (h : plainRegister.canPlain off = true) :
    canWrite n off a v s = regWriteWith a v id s := by
  simp only [plainRegister.canPlain, Bool.and_eq_true, bne_iff_ne, decide_eq_true_eq, Bool.not_eq_true',
    decide_eq_false_iff_not] at h
  obtain ⟨⟨h1, h2⟩, h3⟩ := h
  simp only [canWrite, Nat.not_le.mpr h2, h1, h3, if_false, dif_neg, not_false_eq_true]; rfl

theorem uslWrite_plain (h : off ≠ 0) : uslWrite off a v s = regWriteWith a v id s := by
  simp only [uslWrite, h, if_false]; rfl

theorem timeWrite_plain (h : [0x14, 0x18].contains off = false) : timeWrite off a v s = regWriteWith a v id s := by
  simp only [List.contains_cons, List.contains_nil, Bool.or_eq_false_iff, beq_eq_false_iff_ne, ne_eq, and_true] at h
  obtain ⟨h1, h2⟩ := h
  simp only [timeWrite, h1, h2, if_false]

theorem hostWrite_plain (h : off ≠ 0) : hostWrite off a v s = regWriteWith a v id s := by
  simp only [hostWrite, h, false_and, if_false]; rfl

end

/-- A register of no action: the write of its block stores the fields and no more. -/
theorem regAct_of_plain {a : Nat} (h : plainRegister a = true) (hr : rowsAt a ≠ []) (r : Requester) (v : Word) (s : State) :
    regAct r a v s = regWriteWith a (clearLow a v) id s := by
  have hrows : (rowsAt a).isEmpty = false := by simpa using hr
  unfold plainRegister at h
  unfold regAct
  simp only [hrows, Bool.false_eq_true, if_false]
  split at h
  all_goals
    rename_i hb
    simp only [hb, Bool.and_eq_true, bne_iff_ne, Bool.not_eq_true', decide_eq_true_eq, decide_eq_false_iff_not,
      Bool.and_eq_false_iff, beq_eq_false_iff_ne] at h ⊢
  case h_1 => exact sysWrite_plain h.1 h.2
  case h_2 => exact pwrWrite_plain r h.1 h.2
  case h_3 => exact dblWrite_plain h
  case h_4 => exact angWrite_plain 0 h.1 h.2
  case h_5 => exact angWrite_plain 1 h.1 h.2
  case h_6 => exact posWrite_plain 0 h
  case h_7 => exact posWrite_plain 1 h
  case h_8 => exact isnsWrite_plain h
  case h_9 => exact hleWrite_plain h.1 (not_and_or.mpr h.2)
  case h_10 => exact mcWrite_plain 0 h
  case h_11 => exact mcWrite_plain 1 h
  case h_12 => exact ebpWrite_plain 0 h
  case h_13 => exact ebpWrite_plain 1 h
  case h_14 => exact contWrite_plain h
  case h_15 => exact safeWrite_plain h
  case h_16 => exact canWrite_plain 0 h
  case h_17 => exact canWrite_plain 1 h
  case h_18 => exact canWrite_plain 2 h
  case h_19 => exact canWrite_plain 3 h
  case h_20 => exact uslWrite_plain h
  case h_21 => exact timeWrite_plain h
  case h_22 => exact hostWrite_plain h
  case h_23 =>
    simp only [Bool.or_eq_true, beq_iff_eq] at h
    rcases h with (((hk | hk) | hk) | hk) | hk <;> simp only [hk]

/-- A register of no action is none of the driver die's (R61). -/
theorem onDriverDie_of_plain {a : Nat} (h : plainRegister a = true) : onDriverDie a = false := by
  by_contra hd
  simp only [Bool.not_eq_false, onDriverDie, decide_eq_true_eq] at hd
  have hb : blockOf a = 14 ∨ blockOf a = 15 ∨ blockOf a = 16 := by
    unfold blockOf
    rw [if_pos (by omega)]
    omega
  unfold plainRegister at h
  rcases hb with hb | hb | hb <;> simp [hb] at h

/-- The writes that a requester makes of a register of no action: what the rules accept is stored, the rest flagged. -/
theorem registerWrite_of_plain {s : State} {r : Requester} {a : Nat} (v : Word)
    (hi : issues s r = true ∧ reaches r s = true)
    (hp : regPermitted r a true = true ∧ pmpPermits s r .write a 4 = true) (h : plainRegister a = true) :
    registerWrite r a v s =
      if accepted a (clearLow a v) (busData 0 s) then written a (clearLow a v) (busData 0 s) else accErr a (busData 0 s) := by
  have hact : regAct r a v (busData 0 s) =
      if accepted a (clearLow a v) (busData 0 s) then written a (clearLow a v) (busData 0 s) else accErr a (busData 0 s) := by
    by_cases hr : rowsAt a = []
    · simp [regAct, accepted, regStore, hr]
    · rw [regAct_of_plain h hr]
      split
      · next ha => exact regWriteWith_id_of_accepted ha
      · next ha => exact regWriteWith_of_not_accepted (by simpa using ha) id
  have hbus : (regAct r a v (busData 0 s)).bus.err = false := by
    rw [hact]
    split
    · next ha => rw [written_bus ha]; rfl
    · rw [accErr_bus]; rfl
  rw [registerWrite, busAccess_of_permitted true _ hi.1 hi.2 hp.1 hp.2, regAccess_of_permitted _ hp.1 (onDriverDie_of_plain h),
    hbus, if_neg Bool.false_ne_true, hact]

/-- A write of the driver die while its link is lost is answered with a bus error or lost (R661). -/
theorem exec_registerWrite_of_link_lost {s : State} {r : Requester} {a : Word} (v : Word)
    (hi : issues s r = true ∧ reaches r s = true)
    (hp : regPermitted r a.toNat true = true ∧ pmpPermits s r .write a.toNat 4 = true)
    (hd : onDriverDie a.toNat = true ∧ rowsAt a.toNat ≠ []) (hl : s.sys.linkLost = true ∨ s.driver.linkLost = true) :
    exec (.registerWrite r a v) s =
      .next (if s.sys.linkLost then raiseTo r 7 a.toNat (busError s) else busData 0 s) := by
  have hrows : (rowsAt a.toNat).isEmpty = false := by simpa using hd.2
  change Host.Outcome.next (busAccess r a.toNat true (fun s => regAct r a.toNat v (busData 0 s)) s) = _
  rw [busAccess_of_permitted true _ hi.1 hi.2 hp.1 hp.2]
  by_cases hs : s.sys.linkLost = true
  · simp [regAccess, hp.1, hd.1, hrows, driverAccess, hs, busError]
  · have hdl : s.driver.linkLost = true := hl.resolve_left hs
    simp [regAccess, hp.1, hd.1, hrows, driverAccess, hs, hdl, busData]

end Sys2Proof.Machine

open Sys2Proof.Machine in
/-- Settles O6: a read of a register clears its RC fields and leaves every other field. -/
theorem readClearFields : Obligations.ReadClearFields := by
  refine ⟨fun s r a w hi hp hd hw => ?_, fun s r a q hi hp hd hq hdisj hle => ?_⟩
  · refine ⟨_, exec_readClear_of_permitted hi hp hd, ?_⟩
    rw [regRead_of_rc hw.1 hw.2]
    exact ⟨clearRead_rc hw.1 hw.2 s, rfl, fun b hb => clearRead_rd_other hb s, clearRead_mem a.toNat s⟩
  · refine ⟨_, exec_readClear_of_permitted hi hp hd, ?_⟩
    rcases regRead_rd r a.toNat s a.toNat with h | h
    · rw [h]
    · rw [h, clearRead_other_code hq.2 hle hdisj]

open Sys2Proof.Machine in
/-- Settles O8: the fields stored by access code, the registers of no action, and the accesses that never reach their register. -/
theorem registerWriteRules : Obligations.RegisterWriteRules := by
  refine ⟨fun s a v r ha hr hd hf => ?_, fun s r a v hi hp h ha => ?_, fun s r a v hi hp h ha => ?_,
    fun s r a v hi hp hd => ⟨fun hl => ?_, fun hl hdl => ?_⟩, fun s p a v hi hm => ⟨?_, ?_⟩, fun s p a v hrun => ?_,
    fun s p a v => ⟨?_, fun hper hchk => ?_⟩⟩
  · rw [written_rd ha hf, of_merged hr.1 hr.2 hd]
    unfold fieldAfter fieldFate
    cases r.acc
    case rwo => dsimp only; split_ifs <;> rfl
    case rws => dsimp only; split_ifs <;> rfl
    all_goals rfl
  · exact congrArg Host.Outcome.next ((registerWrite_of_plain v hi hp h).trans (if_pos ha))
  · exact congrArg Host.Outcome.next ((registerWrite_of_plain v hi hp h).trans (if_neg (Bool.not_eq_true _ ▸ ha)))
  · rw [exec_registerWrite_of_link_lost v hi hp hd (.inl hl), if_pos hl]; rfl
  · rw [exec_registerWrite_of_link_lost v hi hp hd (.inr hdl), if_neg (by simp [hl])]; rfl
  · exact congrArg _ (busAccess_of_misaligned true _ hi hm)
  · exact congrArg _ (busAccess_of_misaligned false _ hi hm)
  · have hi := issues_of_not_released hrun
    refine ⟨congrArg _ (busAccess_of_silent hi _ _ _), congrArg _ (busAccess_of_silent hi _ _ _), ?_⟩
    have hw : checkedWrite p a.toNat v true s = registerWrite (.p p) a.toNat v s := by simp [checkedWrite]
    exact congrArg _ (hw.trans (busAccess_of_silent hi _ _ _))
  · simp [exec, execCheckedEgressWrite, execRegisterWrite, checkedWrite]
  · simp [exec, execCheckedEgressWrite, checkedWrite, hper, hchk]
end

section
/-!
SUPPORT. The state right after reset (R25), and the reads and writes of the network time, the uptime and HOST_CTRL (R505 to R509,
R518, R532, R614).
-/
namespace Sys2Proof.Machine

/-! ## Values of fields -/

theorem State.get_lt (s : State) (f : Fld) : s.get f < 2 ^ f.w := ((s.rd f.addr).extractLsb' f.lo f.w).isLt

/-- A whole register put reads back as the word. -/
theorem State.getS_put_word (s : State) (a : Nat) (v : Word) :
    (s.put ⟨a, 0, 32⟩ v.toNat).getS ⟨a, 0, 32⟩ = v.toInt := by
  have hlt := v.isLt
  rw [State.getS, State.get_put_same s ⟨a, 0, 32⟩ _ (Nat.le_refl 32), Nat.mod_eq_of_lt hlt, toSigned, Nat.mod_eq_of_lt hlt, BitVec.toInt]
  dsimp only
  split_ifs <;> omega

/-! ## Reads of the latched registers -/

/-- The times and the uptime may be read by the pairs, S, V and K (R74). -/
theorem regPermitted_time_reads {r : Requester} (h : (∃ p, r = .p p) ∨ r = .s ∨ r = .v ∨ r = .k) :
    ∀ a ∈ [addrTimeNs, addrUcycNs, addrUptime], regPermitted r a false = true := by
  rcases h with ⟨p, rfl⟩ | rfl | rfl | rfl <;> intro a ha <;> fin_cases ha <;> rfl

/-- A permitted read of a register that no link carries is the read itself. -/
theorem registerRead_of_permitted {s : State} {r : Requester} {a : Nat} (hi : issues s r = true) (hr : reaches r s = true)
    (hp : regPermitted r a false = true) (hm : pmpPermits s r .read a 4 = true) (hd : onDriverDie a = false) :
    registerRead r a s = regRead r a s := by
  rw [registerRead, busAccess_of_permitted false _ hi hr hp hm, regAccess_of_permitted _ hp hd]
  simp [regRead_bus_err]

/-- Who may read the times and the uptime does so without a refusal. -/
theorem registerRead_of_time_reads {s : State} {r : Requester}
    (h : ((∃ p, r = .p p) ∧ issues s r = true ∧ pmpPermits s r .read addrTimeNs 4 = true ∧
        pmpPermits s r .read addrUcycNs 4 = true ∧ pmpPermits s r .read addrUptime 4 = true) ∨
      ((r = .s ∨ r = .v ∨ r = .k) ∧ issues s r = true)) :
    ∀ a ∈ [addrTimeNs, addrUcycNs, addrUptime], registerRead r a s = regRead r a s := by
  have hdie : ∀ a ∈ [addrTimeNs, addrUcycNs, addrUptime], onDriverDie a = false := by decide
  intro a ha
  rcases h with ⟨hr, hi, h1, h2, h3⟩ | ⟨hr, hi⟩
  · have hm : pmpPermits s r .read a 4 = true := by
      simp only [List.mem_cons, List.not_mem_nil, or_false] at ha
      rcases ha with rfl | rfl | rfl
      · exact h1
      · exact h2
      · exact h3
    exact registerRead_of_permitted hi (by obtain ⟨p, rfl⟩ := hr; rfl) (regPermitted_time_reads (.inl hr) a ha) hm (hdie a ha)
  · have hm : pmpPermits s r .read a 4 = true := by rcases hr with rfl | rfl | rfl <;> rfl
    exact registerRead_of_permitted hi (by rcases hr with rfl | rfl | rfl <;> rfl) (regPermitted_time_reads (.inr hr) a ha) hm
      (hdie a ha)

/-! ## The clock's writes (R508, R509) -/

theorem rateLegal_iff (v : Word) : rateLegal v = true ↔ -858993 ≤ v.toInt ∧ v.toInt ≤ 858993 := by
  simp only [rateLegal, decide_eq_true_eq]
  omega

/-- A step of a clock not stepped yet. -/
theorem stepNs_of_fresh {s : State} {v : Word} (h : s.on F.TIME_STAT_STEPPED = false) (hb : bitAt v.toNat 31 = true)
    (hn : v.toNat % 2 ^ 30 ≤ 999999999) :
    stepNs v s = (((s.put F.TIME_STEPNS_NS (v.toNat % 2 ^ 30)).put F.TIME_NS_NS (v.toNat % 2 ^ 30)).put F.TIME_STAT_STEPPED 1).modTime
      (fun t => { t with sec := BitVec.ofNat 32 (s.get F.TIME_STEPSEC_SEC), frac := 0 }) := by
  simp only [stepNs, h, hb, Nat.not_lt.mpr hn, if_true, if_false, Bool.false_eq_true]

/-- A step of a clock stepped before is discarded. -/
theorem stepNs_of_stepped {s : State} {v : Word} (h : s.on F.TIME_STAT_STEPPED = true) (hb : bitAt v.toNat 31 = true) :
    stepNs v s = s.put F.TIME_STAT_ACCERR 1 := by
  simp only [stepNs, h, hb, if_true, ite_self]

/-! ## HOST disabled (R532) -/

/-- An event of a controller touches that controller's registers alone. -/
theorem canEvent_rd (n : CanCtl) (j : Nat) (s : State) {a : Nat} (h : a / 0x1000 ≠ 0x40015 + n.val) :
    (canEvent n j s).rd a = s.rd a := by
  have ha : a ≠ (⟨0x40015018 + 0x1000 * n.val, j, 1⟩ : Fld).addr := by dsimp only; omega
  unfold canEvent
  dsimp only
  split
  · rw [State.raise_rd, State.rd_put_other _ _ _ ha]
  · exact State.rd_put_other _ _ _ ha

theorem canEvent_mem (n : CanCtl) (j : Nat) (s : State) : (canEvent n j s).mem = s.mem := by
  unfold canEvent
  dsimp only
  split
  · rw [State.raise_mem]; rfl
  · rfl

/-- A request cancelled touches its controller's registers alone (R468). -/
theorem canCancel_rd (n : CanCtl) (k : Fin 32) (s : State) {a : Nat} (h : a / 0x1000 ≠ 0x40015 + n.val) :
    (canCancel n k s).rd a = s.rd a := by
  have ha : a ≠ 0x40015580 + 0x1000 * n.val + 4 * k.val := by omega
  have hput : ∀ (s : State) (f : Fld) (v : Nat), f.addr = 0x40015580 + 0x1000 * n.val + 4 * k.val →
      (s.put f v).rd a = s.rd a := fun s f v hf => State.rd_put_other s f v (hf ▸ ha)
  unfold canCancel
  split_ifs
  · rfl
  · exact hput _ _ _ rfl
  · rw [canCancelled, canEvent_rd n 1 _ h, hput _ _ _ rfl]
    unfold State.when
    split_ifs
    · rw [State.modHost_rd, hput _ _ _ rfl, hput _ _ _ rfl]
    · rw [hput _ _ _ rfl, hput _ _ _ rfl]

theorem canCancel_mem (n : CanCtl) (k : Fin 32) (s : State) : (canCancel n k s).mem = s.mem := by
  unfold canCancel
  split_ifs
  · rfl
  · rfl
  · rw [canCancelled, canEvent_mem]
    unfold State.when
    split_ifs <;> rfl

/-- HOST emptied (R532): no packet or reply is held on any transport, and no request waits for the mailbox. -/
theorem hostEmpty_empties (s : State) :
    (hostEmpty s).host.mbox = [] ∧ (∀ k : Fin 3, (hostEmpty s).host.chan[k.val] = ⟨[], [], []⟩) ∧
      (hostEmpty s).get F.HOST_STAT_HELDS = 0 ∧ (hostEmpty s).get F.HOST_STAT_HELDC0 = 0 ∧
      (hostEmpty s).get F.HOST_STAT_HELDC1 = 0 := by
  refine ⟨rfl, fun k => ?_, ?_, ?_, ?_⟩
  · exact Vector.getElem_replicate k.isLt
  · rw [hostEmpty, State.get_put_disj _ _ F.HOST_STAT_HELDS _ (by decide) (by decide),
      State.get_put_disj _ _ F.HOST_STAT_HELDS _ (by decide) (by decide), State.get_put_same _ _ _ (by decide)]
    rfl
  · rw [hostEmpty, State.get_put_disj _ _ F.HOST_STAT_HELDC0 _ (by decide) (by decide), State.get_put_same _ _ _ (by decide)]
    rfl
  · rw [hostEmpty, State.get_put_same _ _ _ (by decide)]
    rfl

theorem hostEmpty_rd (s : State) {a : Nat} (h : a = 0x4001C000) : (hostEmpty s).rd a = s.rd a := by
  have hne : a ≠ 0x4001C004 := by omega
  rw [hostEmpty, State.rd_put_other _ F.HOST_STAT_HELDC1 _ hne, State.rd_put_other _ F.HOST_STAT_HELDC0 _ hne,
    State.rd_put_other _ F.HOST_STAT_HELDS _ hne, State.modHost_rd, canCancel_rd 1 28 _ (by rw [h]; decide),
    canCancel_rd 0 28 _ (by rw [h]; decide)]

theorem hostEmpty_mem (s : State) : (hostEmpty s).mem = s.mem := by
  have h : (hostEmpty s).mem = (canCancel 1 28 (canCancel 0 28 s)).mem := rfl
  rw [h, canCancel_mem, canCancel_mem]

/-- A command completes and leaves the queue as it is. -/
theorem exec_next_pending (c : Instr) (s : State) : ∃ t, exec c s = .next t ∧ t.pending = s.pending :=
  (exec_next_kept c s).imp fun _ h => ⟨h.1, h.2.queue⟩

end Sys2Proof.Machine

open Sys2Proof.Machine in
/-- Settles O2: right after reset no register is written, so each reads as its Reset column says. -/
theorem resetValues : Obligations.ResetValues :=
  ⟨fun _ => rfl, ⟨rfl, rfl, rfl⟩, by decide +kernel, by decide +kernel⟩

open Sys2Proof.Machine in
/-- Settles O10: the reads that latch, the clock's writes inside and outside their range, and HOST disabled. -/
theorem timeAndUptimeCommands : Obligations.TimeAndUptimeCommands := by
  refine ⟨fun s r h => ?_, fun s v h => ?_, fun s v h => ?_, fun s v hs hb hn => ?_, fun s v hs hb => ?_, fun s => ?_,
    fun s r a => exec_next_pending _ s, fun s r => exec_next_pending _ s, fun s v => exec_next_pending _ s,
    fun s v => exec_next_pending _ s, fun s r => exec_next_pending _ s, fun s r => exec_next_pending _ s,
    fun s => exec_next_pending _ s⟩
  · have hread := registerRead_of_time_reads h
    refine ⟨⟨_, congrArg Host.Outcome.next (hread addrTimeNs (by simp)), rfl, rfl, rfl, Tab.get_put_same _ _ _ _⟩,
      ⟨_, congrArg Host.Outcome.next (hread addrUcycNs (by simp)), rfl, rfl, rfl, ?_, ?_⟩,
      ⟨_, congrArg Host.Outcome.next (hread addrUptime (by simp)), rfl, rfl, rfl, Tab.get_put_same _ _ _ _⟩⟩
    · exact (congrArg BitVec.toNat (Tab.get_put_same _ _ _ _)).trans (Nat.mod_eq_of_lt (s.get_lt F.TIME_UCYCSEC_SEC))
    · exact (congrArg BitVec.toNat (Tab.get_put_same _ _ _ _)).trans (Nat.mod_eq_of_lt (s.get_lt F.TIME_UCYCSEQ_CYCSEQ))
  · refine ⟨congrArg Host.Outcome.next ?_, s.getS_put_word _ v⟩
    rw [setRate, if_pos ((rateLegal_iff v).mpr h)]
  · refine congrArg Host.Outcome.next ?_
    rw [setRate, if_neg (by rw [rateLegal_iff]; omega)]
  · refine ⟨_, congrArg Host.Outcome.next (stepNs_of_fresh hs hb hn), rfl, ?_, ?_, rfl, ?_⟩
    · rw [State.modTime_get, State.get_put_disj _ _ F.TIME_NS_NS _ (by decide) (by decide), State.get_put_same _ _ _ (by decide)]
      exact Nat.mod_mod _ _
    · rw [State.modTime_on, State.on_put_same _ _ _ (by decide)]
      rfl
    · exact congrArg (toSigned 32) (by
        rw [State.modTime_get, State.get_put_disj _ _ F.TIME_RATE_RATE _ (by decide) (by decide),
          State.get_put_disj _ _ F.TIME_RATE_RATE _ (by decide) (by decide),
          State.get_put_disj _ _ F.TIME_RATE_RATE _ (by decide) (by decide)])
  · exact congrArg Host.Outcome.next (stepNs_of_stepped hs hb)
  · obtain ⟨hm, hc, h0, h1, h2⟩ := hostEmpty_empties (s.put F.HOST_CTRL_EN 0)
    refine ⟨_, rfl, ?_, hm, hc, h0, h1, h2, hostEmpty_mem _⟩
    have hrd := hostEmpty_rd (s.put F.HOST_CTRL_EN 0) rfl
    have hget : (hostEmpty (s.put F.HOST_CTRL_EN 0)).get F.HOST_CTRL_EN = (s.put F.HOST_CTRL_EN 0).get F.HOST_CTRL_EN :=
      congrArg (Fld.read F.HOST_CTRL_EN) hrd
    rw [State.on, hget, State.get_put_same _ _ _ (by decide)]
    rfl
end

section
/-!
SUPPORT. What the answer of a command packet changes (R527 to R533, R538): the transport's pool and replies, HELD, and over CAN the
transmit object 28; and what the execution of an opcode answers (R534, R539, R543).
-/
namespace Sys2Proof.Machine

/-! ## Channels -/

theorem channel_modChannel_same (c : Transport) (f : Channel → Channel) (s : State) :
    channel (modChannel c f s) c = f (channel s c) :=
  upd_same s.host.chan (chanIx c) f

@[simp] theorem chanOfIx_chanIx (c : Transport) : chanOfIx (chanIx c) = c := by cases c <;> rfl

theorem chanIx_injective : Function.Injective chanIx := Function.LeftInverse.injective (g := chanOfIx) chanOfIx_chanIx

theorem channel_modChannel_other {c d : Transport} (h : d ≠ c) (f : Channel → Channel) (s : State) :
    channel (modChannel c f s) d = channel s d :=
  upd_other s.host.chan f (fun e => h (chanIx_injective e).symm)

/-- A channel is seen in the host interface alone. -/
theorem channel_congr {s t : State} (h : t.host = s.host) (c : Transport) : channel t c = channel s c := by
  rw [channel, channel, h]

theorem heldOn_congr {s t : State} {c : Transport} (h : channel t c = channel s c) : heldOn t c = heldOn s c := by
  rw [heldOn, heldOn, h]

/-! ## What a reply leaves alone -/

/-- The registers that a reply changes: HOST_STAT, and the status of object 28 of CAN0 and CAN1. -/
def replyRegs : List Nat := [0x4001C004, 0x400155F0, 0x400165F0]

/-- Replies change the transports' channels, HELD in HOST_STAT and the CAN controllers, and nothing else. -/
structure ReplyFrame (u t : State) : Prop where
  rest : { t with regs := u.regs, host := u.host, can := u.can } = u
  host : { t.host with chan := u.host.chan } = u.host
  rd : ∀ a, a ∉ replyRegs → t.rd a = u.rd a
  session : t.on F.HOST_STAT_SESSION = u.on F.HOST_STAT_SESSION

namespace ReplyFrame

theorem refl (s : State) : ReplyFrame s s := ⟨rfl, rfl, fun _ _ => rfl, rfl⟩

theorem trans {s t u : State} (h : ReplyFrame s t) (h' : ReplyFrame t u) : ReplyFrame s u where
  rest := by
    calc { u with regs := s.regs, host := s.host, can := s.can }
        = { ({ u with regs := t.regs, host := t.host, can := t.can } : State) with
            regs := s.regs, host := s.host, can := s.can } := rfl
      _ = { t with regs := s.regs, host := s.host, can := s.can } := by rw [h'.rest]
      _ = s := h.rest
  host := by
    calc { u.host with chan := s.host.chan }
        = { ({ u.host with chan := t.host.chan } : HostIf) with chan := s.host.chan } := rfl
      _ = { t.host with chan := s.host.chan } := by rw [h'.host]
      _ = s.host := h.host
  rd a ha := (h'.rd a ha).trans (h.rd a ha)
  session := h'.session.trans h.session

section
variable {u t : State} (h : ReplyFrame u t)
include h

theorem mem : t.mem = u.mem := have e := congrArg State.mem h.rest; e
theorem irqs : t.irqs = u.irqs := have e := congrArg State.irqs h.rest; e
theorem keep : t.keep = u.keep := have e := congrArg State.keep h.rest; e
theorem safe : t.safe = u.safe := have e := congrArg State.safe h.rest; e
theorem time : t.time = u.time := have e := congrArg State.time h.rest; e
theorem mbox : t.host.mbox = u.host.mbox := have e := congrArg HostIf.mbox h.host; e

theorem get (f : Fld) (hf : f.addr ∉ replyRegs) : t.get f = u.get f := congrArg f.read (h.rd _ hf)
theorem on (f : Fld) (hf : f.addr ∉ replyRegs) : t.on f = u.on f := congrArg (· == 1) (h.get f hf)

theorem byte (a : Nat) : t.byte a = u.byte a := congrArg (Tab.get blankByte · a) h.mem

theorem bytes (a n : Nat) : t.bytes a n = u.bytes a n := by
  induction n generalizing a with
  | zero => rfl
  | succ n ih => rw [State.bytes, State.bytes, h.byte, ih]

end

end ReplyFrame

theorem replyFrame_modChannel (c : Transport) (f : Channel → Channel) (s : State) : ReplyFrame s (modChannel c f s) :=
  ⟨rfl, rfl, fun _ _ => rfl, rfl⟩

/-- HELD shown: three fields of HOST_STAT beside SESSION. -/
theorem replyFrame_showHeld (s : State) : ReplyFrame s (showHeld s) where
  rest := rfl
  host := rfl
  rd a ha := by
    have hne : a ≠ 0x4001C004 := fun e => ha (by simp [replyRegs, e])
    rw [showHeld, State.rd_put_other _ F.HOST_STAT_HELDC1 _ hne, State.rd_put_other _ F.HOST_STAT_HELDC0 _ hne,
      State.rd_put_other _ F.HOST_STAT_HELDS _ hne]
  session := by
    rw [showHeld, State.on_put_disj _ _ F.HOST_STAT_SESSION _ (by decide) (by decide),
      State.on_put_disj _ _ F.HOST_STAT_SESSION _ (by decide) (by decide),
      State.on_put_disj _ _ F.HOST_STAT_SESSION _ (by decide) (by decide)]

/-- A reply goes into object 28, where none of this lane's chassis broadcasts lies. -/
theorem canRequest_reply (n : CanCtl) (s : State) : canRequest n 28 s = s.put (F.CAN_TSTAT_TXREQ n 28) 1 := by
  simp [canRequest, State.when]

theorem canSend_host (n : CanCtl) (id : Nat) (brs : Bool) (data : List Byte) (s : State) :
    (canSend n 28 id brs data s).host = s.host := by
  unfold canSend
  split_ifs
  · rfl
  · dsimp only; rw [canRequest_reply]; rfl

theorem replyFrame_canSend {n : CanCtl} (hn : n = 0 ∨ n = 1) (id : Nat) (brs : Bool) (data : List Byte) (s : State) :
    ReplyFrame s (canSend n 28 id brs data s) := by
  have hmem : (F.CAN_TSTAT_TXREQ n 28).addr ∈ [0x400155F0, 0x400165F0] := by rcases hn with rfl | rfl <;> decide
  unfold canSend
  split_ifs
  · exact .refl s
  · dsimp only
    rw [canRequest_reply]
    refine ⟨rfl, rfl, fun a ha => ?_, ?_⟩
    · have hne : a ≠ (F.CAN_TSTAT_TXREQ n 28).addr := fun e => ha (List.mem_cons_of_mem _ (e ▸ hmem))
      exact State.rd_put_other _ _ _ hne
    · have hne : F.HOST_STAT_SESSION.addr ≠ (F.CAN_TSTAT_TXREQ n 28).addr := fun e => absurd (e ▸ hmem) (by decide)
      exact congrArg (fun w => F.HOST_STAT_SESSION.read w == 1) (State.rd_put_other _ _ _ hne)

theorem chanNet_cases {c : Transport} {n : CanCtl} (h : chanNet c = some n) : n = 0 ∨ n = 1 := by
  cases c <;> cases h <;> decide

theorem replyFrame_queueReply (c : Transport) (r : Reply) (s : State) : ReplyFrame s (queueReply c r s) := by
  have h := (replyFrame_modChannel c (fun x => { x with replies := x.replies ++ [r] }) s).trans (replyFrame_showHeld _)
  unfold queueReply
  dsimp only
  split
  · next n hn => exact h.trans (replyFrame_canSend (chanNet_cases hn) _ _ _ _)
  · exact h

/-- A reply queued stands last among its transport's replies. -/
theorem queueReply_host (c : Transport) (r : Reply) (s : State) :
    (queueReply c r s).host = (modChannel c (fun x => { x with replies := x.replies ++ [r] }) s).host := by
  unfold queueReply
  dsimp only
  split
  · rw [canSend_host]; rfl
  · rfl

/-! ## The head of a channel answered (R533) -/

/-- What every run of answers keeps: replies are added behind those queued, as many packets are held, and no other transport is
touched. -/
structure Served (c : Transport) (u t : State) : Prop where
  frame : ReplyFrame u t
  grows : ∃ more, (channel t c).replies = (channel u c).replies ++ more
  held : heldOn t c = heldOn u c
  others : ∀ d, d ≠ c → channel t d = channel u d

theorem Served.refl (c : Transport) (s : State) : Served c s s := ⟨.refl s, ⟨[], by simp⟩, rfl, fun _ _ => rfl⟩

theorem Served.trans {c : Transport} {s t u : State} (h : Served c s t) (h' : Served c t u) : Served c s u where
  frame := h.frame.trans h'.frame
  grows := by
    obtain ⟨m, hm⟩ := h.grows
    obtain ⟨m', hm'⟩ := h'.grows
    exact ⟨m ++ m', by rw [hm', hm, List.append_assoc]⟩
  held := h'.held.trans h.held
  others d hd := (h'.others d hd).trans (h.others d hd)

/-- The head answered: its reply stands last, and it has left the pool. -/
theorem channel_answerHead {c : Transport} {s : State} {p : Packet} {rest : List Packet} (h : (channel s c).waiting = p :: rest)
    (status : Nat) (payload : List Byte) :
    channel (answerHead c status payload s) c =
      { channel s c with
        waiting := rest, replies := (channel s c).replies ++ [⟨p.op, p.seq, BitVec.ofNat 8 status, payload⟩] } := by
  rw [answerHead, h]
  dsimp only
  rw [channel_congr (queueReply_host _ _ _), channel_modChannel_same, channel_modChannel_same]

theorem served_answerHead (c : Transport) (status : Nat) (payload : List Byte) (s : State) :
    Served c s (answerHead c status payload s) := by
  cases h : (channel s c).waiting with
  | nil => rw [answerHead, h]; exact .refl c s
  | cons p rest =>
    have hc := channel_answerHead h status payload
    refine ⟨?_, ⟨_, by rw [hc]⟩, by simp [heldOn, hc, h]; omega, fun d hd => ?_⟩
    · rw [answerHead, h]
      exact (replyFrame_modChannel _ _ s).trans (replyFrame_queueReply _ _ _)
    · rw [answerHead, h]
      dsimp only
      rw [channel_congr (queueReply_host _ _ _), channel_modChannel_other hd, channel_modChannel_other hd]

theorem served_settleSteps (c : Transport) (n : Nat) (s : State) : Served c s (settleSteps c n s) := by
  induction n generalizing s with
  | zero => exact .refl c s
  | succ n ih =>
    unfold settleSteps
    split
    · exact .refl c s
    · split
      · exact (served_answerHead c _ _ s).trans (ih _)
      · exact .refl c s

theorem served_settle (c : Transport) (s : State) : Served c s (settle c s) := served_settleSteps c 8 s

/-- Packet `p` answered on a state whose channels are those of `s`. -/
theorem answered_settle {c : Transport} {p : Packet} {s u : State} (hp : (channel s c).waiting.head? = some p)
    (hu : u.host = s.host) (status : Nat) (payload : List Byte) :
    answered c p status payload s (settle c (answerHead c status payload u)) := by
  obtain ⟨rest, hrest⟩ : ∃ rest, (channel u c).waiting = p :: rest := by
    rw [channel_congr hu]
    exact List.head?_eq_some_iff.mp hp
  have hs := served_settle c (answerHead c status payload u)
  have ha := served_answerHead c status payload u
  obtain ⟨more, hmore⟩ := hs.grows
  refine ⟨⟨more, ?_⟩, ?_, fun d hd => ?_⟩
  · rw [hmore, channel_answerHead hrest, ← channel_congr hu c]
    simp
  · rw [hs.held, ha.held, heldOn_congr (channel_congr hu c)]
  · rw [hs.others d hd, ha.others d hd, channel_congr hu]

/-! ## The execution of an opcode -/

theorem nextPacket_of_inTurn {c : Transport} {p : Packet} {s : State} (h : inTurn c p s) {op : Nat → Bool}
    (hop : op p.op.toNat = true) : nextPacket s c op = some p := by
  obtain ⟨hhead, htakes, hdec, hpost, -⟩ := h
  obtain ⟨rest, hrest⟩ := List.head?_eq_some_iff.mp hhead
  simp [nextPacket, hrest, htakes, hop, hdec, hpost]

/-- A packet in turn is answered with what its opcode answers, in the state that its opcode leaves. -/
theorem serve_of_inTurn {c : Transport} {p : Packet} {s : State} (h : inTurn c p s) {op : Nat → Bool} (hop : op p.op.toNat = true)
    {e : ServiceEnd} {act : List Byte → State → Answer} {a : Answer} (ha : endedAs e p.op.toNat (act p.payload s) s = a)
    (hh : a.state.host = s.host) :
    answered c p a.status a.payload s (serve ⟨c, e⟩ op act s) ∧ ReplyFrame a.state (serve ⟨c, e⟩ op act s) := by
  have hserve : serve ⟨c, e⟩ op act s = settle c (answerHead c a.status a.payload a.state) := by
    obtain ⟨-, -, -, -, href⟩ := id h
    simp only [serve, nextPacket_of_inTurn h hop, href, ha]
  rw [hserve]
  exact ⟨answered_settle h.1 hh _ _, (served_answerHead c _ _ _).frame.trans (served_settle c _).frame⟩

/-- A LEN that no refusal meets lies in the range of its opcode (R542). -/
theorem len_of_refusal_none {s : State} {c : Transport} {op len : Nat} (h : refusal s c op len = none) :
    (opLen op).1 ≤ len ∧ len ≤ (opLen op).2 := by
  unfold refusal at h
  split_ifs at h with h1 h2 h3 h4 h5
  omega

end Sys2Proof.Machine
end

section
/-!
SUPPORT. Numbers as bytes (R21), what memory holds after a run of bytes is written, and what an erase and a change of the boot record
leave alone (R575, R614).
-/
namespace Sys2Proof.Machine

/-! ## Little-endian numbers -/

theorem leValue_lt (l : List Byte) : leValue l < 256 ^ l.length := by
  induction l with
  | nil => decide
  | cons b t ih =>
    have hb := b.isLt
    rw [leValue, List.length_cons, Nat.pow_succ]
    omega

theorem bytesAt_lt (l : List Byte) (off n : Nat) : bytesAt l off n < 256 ^ n :=
  (leValue_lt _).trans_le (Nat.pow_le_pow_right (by decide) (List.length_take_le _ _))

@[simp] theorem leBytes_length (k v : Nat) : (leBytes k v).length = k := by
  induction k generalizing v with
  | zero => rfl
  | succ k ih => rw [leBytes, List.length_cons, ih]

theorem leValue_leBytes (k v : Nat) : leValue (leBytes k v) = v % 256 ^ k := by
  induction k generalizing v with
  | zero => simp [leBytes, leValue, Nat.mod_one]
  | succ k ih =>
    rw [leBytes, leValue, ih, BitVec.toNat_ofNat, pow_succ' 256 k, Nat.mod_mul]

/-! ## CRC-32 (R526) -/

theorem crcReflected_lt {poly : Nat} (hp : poly < 2 ^ 32) (l : List Byte) : crcReflected poly l < 2 ^ 32 := by
  have hstep : ∀ c, c < 2 ^ 32 → crcStep poly c < 2 ^ 32 := fun c hc => by
    unfold crcStep
    split
    · exact Nat.xor_lt_two_pow (by omega) hp
    · omega
  have hsteps : ∀ (n : List Nat) (c : Nat), c < 2 ^ 32 → n.foldl (fun c _ => crcStep poly c) c < 2 ^ 32 := fun n => by
    induction n with
    | nil => exact fun _ hc => hc
    | cons x n ih => exact fun c hc => ih _ (hstep c hc)
  have hfold : ∀ (m : List Byte) (c : Nat), c < 2 ^ 32 →
      m.foldl (fun c b => (List.range 8).foldl (fun c _ => crcStep poly c) (c ^^^ b.toNat)) c < 2 ^ 32 := fun m => by
    induction m with
    | nil => exact fun _ hc => hc
    | cons b m ih =>
      have hb := b.isLt
      exact fun c hc => ih _ (hsteps _ _ (Nat.xor_lt_two_pow hc (by omega)))
  exact Nat.xor_lt_two_pow (hfold l _ (by decide)) (by decide)

theorem crc32_lt (l : List Byte) : crc32 l < 2 ^ 32 := crcReflected_lt (by decide) l

/-! ## Runs of bytes in memory -/

theorem State.bytes_congr {s t : State} {a n : Nat} (h : ∀ k, a ≤ k → k < a + n → t.byte k = s.byte k) :
    t.bytes a n = s.bytes a n := by
  induction n generalizing a with
  | zero => rfl
  | succ n ih =>
    rw [State.bytes, State.bytes, h a (Nat.le_refl a) (by omega), ih (fun k h1 h2 => h k (by omega) (by omega))]

/-- Bytes read back as they were written, where memory lies. -/
theorem State.bytes_setBytes_same (s : State) {a : Nat} {l : List Byte}
    (h : ∀ k, a ≤ k → k < a + l.length → isMemory k = true) : (s.setBytes a l).bytes a l.length = l := by
  induction l generalizing s a with
  | nil => rfl
  | cons b t ih =>
    rw [List.length_cons] at h
    have hb : ((s.setByte a b).setBytes (a + 1) t).byte a = b := by
      rw [State.byte_setBytes_other _ _ _ _ (.inl (Nat.lt_succ_self a)),
        State.byte_setByte_same _ _ (h a (Nat.le_refl a) (by omega))]
    rw [State.setBytes, List.length_cons, State.bytes, hb, ih _ (fun k h1 h2 => h k (by omega) (by omega))]

/-- Bytes written elsewhere leave a run as it is. -/
theorem State.bytes_setBytes_other (s : State) (l : List Byte) {a b n : Nat} (h : b + n ≤ a ∨ a + l.length ≤ b) :
    (s.setBytes a l).bytes b n = s.bytes b n :=
  State.bytes_congr (fun k _ _ => State.byte_setBytes_other s l a k (by omega))

/-- Bytes written change memory alone. -/
theorem State.setBytes_eq (s : State) (a : Nat) (l : List Byte) : ∃ m, s.setBytes a l = { s with mem := m } := by
  induction l generalizing s a with
  | nil => exact ⟨s.mem, rfl⟩
  | cons b t ih =>
    obtain ⟨m, hm⟩ := ih (s.setByte a b) (a + 1)
    exact ⟨m, hm⟩

theorem State.memWord_setMemWord_same (s : State) {a : Nat} (v : Word) (h : ∀ k, a ≤ k → k < a + 4 → isMemory k = true) :
    (s.setMemWord a v).memWord a = v := by
  have hb : (s.setMemWord a v).bytes a 4 = leBytes 4 v.toNat := by
    have := State.bytes_setBytes_same s (a := a) (l := leBytes 4 v.toNat) (by simpa using h)
    rwa [leBytes_length] at this
  have hv : v.toNat % 256 ^ 4 = v.toNat := Nat.mod_eq_of_lt v.isLt
  rw [State.memWord, hb, leValue_leBytes, hv, BitVec.ofNat_toNat, BitVec.setWidth_eq]

theorem isMemory_codeNvm {a : Nat} (h : 0x10000000 ≤ a) (h' : a < 0x10C00000) : isMemory a = true := by
  simp [isMemory, h, h']

theorem isMemory_dataNvm {a : Nat} (h : 0x11000000 ≤ a) (h' : a < 0x11100000) : isMemory a = true := by
  simp [isMemory, h, h']

theorem isMemory_sram {a : Nat} (h : 0x20000000 ≤ a) (h' : a < 0x20300000) : isMemory a = true := by
  simp [isMemory, h, h']

/-! ## An erase -/

theorem Tab.get_filter_of_pos {α : Type} (d : Nat → α) (t : Tab α) {p : Nat × α → Bool} {k : Nat} (h : ∀ v, p (k, v) = true) :
    Tab.get d (t.filter p) k = Tab.get d t k := by
  induction t with
  | nil => rfl
  | cons e t ih =>
    obtain ⟨j, v⟩ := e
    by_cases hj : j = k
    · subst hj
      simp [h v, Tab.get]
    · by_cases hp : p (j, v) = true <;> simp [hp, Tab.get, hj, ih]

/-- A count of wear and its record change the gaffer's counters alone. -/
theorem wearAdd_eq (k n : Nat) (s : State) : ∃ g, wearAdd k n s = { s with bkg := g } := by
  unfold wearAdd
  split
  · exact ⟨s.bkg, rfl⟩
  · dsimp only; split <;> exact ⟨_, rfl⟩

/-- An erase changes memory and the gaffer's counters alone. -/
theorem nvmErase_eq (a : Nat) (s : State) : ∃ m g, nvmErase a s = { s with mem := m, bkg := g } := by
  unfold nvmErase
  dsimp only
  split
  · obtain ⟨m, hm⟩ := State.setBytes_eq
      { s with mem := s.mem.filter (fun c => !(decide (a / 0x2000 * 0x2000 ≤ c.1 ∧ c.1 < a / 0x2000 * 0x2000 + 0x2000))) }
      0x11001200 (List.replicate 12 0xFF)
    obtain ⟨g, hg⟩ := wearAdd_eq (sectorWear (a / 0x2000 * 0x2000)) 1 { s with mem := m }
    exact ⟨m, g, by rw [hm]; exact hg⟩
  · obtain ⟨g, hg⟩ := wearAdd_eq (sectorWear (a / 0x2000 * 0x2000)) 1
      { s with mem := s.mem.filter (fun c => !(decide (a / 0x2000 * 0x2000 ≤ c.1 ∧ c.1 < a / 0x2000 * 0x2000 + 0x2000))) }
    exact ⟨_, g, hg⟩

/-- A byte outside the sector keeps its value. -/
theorem nvmErase_byte {a k : Nat} (h : k < a / 0x2000 * 0x2000 ∨ a / 0x2000 * 0x2000 + 0x2000 ≤ k) (s : State) :
    (nvmErase a s).byte k = s.byte k := by
  have hw : ∀ u : State, (wearOne (sectorWear (a / 0x2000 * 0x2000)) u).byte k = u.byte k := fun u => by
    obtain ⟨g, hg⟩ := wearAdd_eq (sectorWear (a / 0x2000 * 0x2000)) 1 u
    rw [wearOne, hg]
    rfl
  have hf : ∀ v : Byte, (!(decide (a / 0x2000 * 0x2000 ≤ (k, v).1 ∧ (k, v).1 < a / 0x2000 * 0x2000 + 0x2000))) = true := fun v => by
    simp only [Bool.not_eq_true', decide_eq_false_iff_not]; omega
  unfold nvmErase
  dsimp only
  rw [hw]
  split
  · next hb =>
    rw [State.byte_setBytes_other _ _ _ _ (by simp; omega)]
    exact Tab.get_filter_of_pos blankByte s.mem hf
  · exact Tab.get_filter_of_pos blankByte s.mem hf

/-! ## The boot record (R573, R575) -/

/-- A page written reads back, its fields within their bytes. -/
theorem readPage_writePage {c : Bool} {p : BootPage} (hg : p.gen < 2 ^ 32) (hs : p.slot < 256) (hp : p.pref < 256)
    (ht : p.trial < 256) (s : State) :
    readPage (writePage c 0 p s) c 0 = some { p with cfgsel := c.toNat } := by
  have hc : c.toNat < 256 := by cases c <;> decide
  have hread : (writePage c 0 p s).bytes (pageAddr c 0) 12 = { p with cfgsel := c.toNat : BootPage }.bytes := by
    refine State.bytes_setBytes_same (l := { p with cfgsel := c.toNat : BootPage }.bytes) s (fun k h1 h2 => ?_)
    have hlen : { p with cfgsel := c.toNat : BootPage }.bytes.length = 12 := rfl
    have hbase : 0x11000000 ≤ pageAddr c 0 ∧ pageAddr c 0 ≤ 0x11003200 := by cases c <;> decide
    exact isMemory_dataNvm (by omega) (by omega)
  have hcrc : ∀ l : List Byte, leValue (leBytes 4 (crc32 l)) = crc32 l := fun l => by
    rw [leValue_leBytes]; exact Nat.mod_eq_of_lt (crc32_lt l)
  have hbyte : ∀ n, n < 256 → leValue [BitVec.ofNat 8 n] = n := fun n hn => by
    simp [leValue, Nat.mod_eq_of_lt hn]
  have hgen : leValue (leBytes 4 p.gen) = p.gen := by
    rw [leValue_leBytes]; exact Nat.mod_eq_of_lt hg
  have hcond : crc32 ({ p with cfgsel := c.toNat : BootPage }.bytes.take 8) =
      bytesAt { p with cfgsel := c.toNat : BootPage }.bytes 8 4 := (hcrc _).symm
  unfold readPage
  dsimp only
  rw [hread, if_pos hcond]
  exact congrArg some (BootPage.mk.injEq .. |>.mpr ⟨hgen, hbyte _ hc, hbyte _ hs, hbyte _ hp, hbyte _ ht⟩)

end Sys2Proof.Machine
end

section
/-!
SUPPORT. Operations that stay aside of the host interface, the cut latch's inner state, the keeper and memory: the power state that
follows the votes (R585 to R593), the measurements shown (R577), and a solo lane that takes the lead (R44).
-/
namespace Sys2Proof.Machine

/-- The host interface, the inner state of SAFE and KEEP, memory and the registers of a set are untouched. -/
structure Aside (P : Nat → Prop) (u t : State) : Prop where
  host : t.host = u.host
  safe : t.safe = u.safe
  keep : t.keep = u.keep
  mem : t.mem = u.mem
  rd : ∀ a, P a → t.rd a = u.rd a

namespace Aside
variable {P : Nat → Prop} {u s t : State}

theorem refl (s : State) : Aside P s s := ⟨rfl, rfl, rfl, rfl, fun _ _ => rfl⟩

/-- A state that differs in other blocks only. -/
theorem upd (h : Aside P u s) (hh : t.host = s.host) (hs : t.safe = s.safe) (hk : t.keep = s.keep) (hm : t.mem = s.mem)
    (hr : t.regs = s.regs) : Aside P u t where
  host := hh.trans h.host
  safe := hs.trans h.safe
  keep := hk.trans h.keep
  mem := hm.trans h.mem
  rd a ha := (congrArg (Tab.get resetWord · a) hr).trans (h.rd a ha)

theorem put (h : Aside P u s) {f : Fld} (hf : ¬ P f.addr) (v : Nat) : Aside P u (s.put f v) where
  host := h.host
  safe := h.safe
  keep := h.keep
  mem := h.mem
  rd a ha := (State.rd_put_other s f v (fun e => hf (e ▸ ha))).trans (h.rd a ha)

theorem putB (h : Aside P u s) {f : Fld} (hf : ¬ P f.addr) (b : Bool) : Aside P u (s.putB f b) := h.put hf _
theorem putBit (h : Aside P u s) {f : Fld} (hf : ¬ P f.addr) (i : Nat) (b : Bool) : Aside P u (s.putBit f i b) := h.put hf _
theorem inc (h : Aside P u s) {f : Fld} (hf : ¬ P f.addr) : Aside P u (s.inc f) := h.put hf _

theorem count (h : Aside P u s) {f g : Fld} (hf : ¬ P f.addr) (hg : ¬ P g.addr) (i : Nat) : Aside P u (s.countBit f g i) := by
  unfold State.countBit
  split
  · exact h.put hg _
  · exact h.put hf _

theorem modPwr (h : Aside P u s) (f : Pwr → Pwr) : Aside P u (s.modPwr f) := h.upd rfl rfl rfl rfl rfl
theorem modSys (h : Aside P u s) (f : Sys → Sys) : Aside P u (s.modSys f) := h.upd rfl rfl rfl rfl rfl
theorem modCore (h : Aside P u s) (p : Pair) (f : Core → Core) : Aside P u (s.modCore p f) := h.upd rfl rfl rfl rfl rfl
theorem modGate (h : Aside P u s) (b : Bridge) (f : GateBridge → GateBridge) : Aside P u (s.modGate b f) :=
  h.upd rfl rfl rfl rfl rfl
theorem modMc (h : Aside P u s) (b : Bridge) (f : Mc → Mc) : Aside P u (s.modMc b f) := h.upd rfl rfl rfl rfl rfl
theorem modCont (h : Aside P u s) (f : Cont → Cont) : Aside P u (s.modCont f) := h.upd rfl rfl rfl rfl rfl
theorem modEbp (h : Aside P u s) (e : Port) (f : Ebp → Ebp) : Aside P u (s.modEbp e f) := h.upd rfl rfl rfl rfl rfl
theorem modLines (h : Aside P u s) (f : Lines → Lines) : Aside P u (s.modLines f) := h.upd rfl rfl rfl rfl rfl

theorem ite {c : Prop} [Decidable c] (hs : Aside P u s) (ht : Aside P u t) : Aside P u (if c then s else t) := by
  split <;> assumption

theorem when (h : Aside P u s) {f : State → State} (hf : Aside P u (f s)) (c : Bool) : Aside P u (s.when c f) := ite hf h

theorem foldl {β : Type} {f : State → β → State} (hf : ∀ s x, Aside P u s → Aside P u (f s x)) (l : List β) (h : Aside P u s) :
    Aside P u (l.foldl f s) := by
  induction l generalizing s with
  | nil => exact h
  | cons x l ih => exact ih (hf s x h)

theorem get (h : Aside P u t) {f : Fld} (hf : P f.addr) : t.get f = u.get f := congrArg f.read (h.rd _ hf)
theorem on (h : Aside P u t) {f : Fld} (hf : P f.addr) : t.on f = u.on f := congrArg (· == 1) (h.get hf)

end Aside

/-! ## The votes (R585 to R593) -/

/-- The registers that follow the votes: PWR_STAT, and what an entry latches. -/
def followedRegs : List Nat := [0x40001000, 0x40001018, 0x4000101C, 0x40001020, 0x40001024]

abbrev AsideVotes (u t : State) : Prop := Aside (· ∉ followedRegs) u t

theorem aside_ungate {u s : State} (h : AsideVotes u s) (p : Pair) : AsideVotes u (ungate p s) := by
  have h' := (h.modCore p (fun c => { c with gated := false })).putBit (f := F.PWR_STAT_PGATE) (by decide) p false
  unfold ungate
  exact Aside.ite (h'.put (by decide) _) h'

theorem aside_ungateVoted {u s : State} (h : AsideVotes u s) : AsideVotes u (ungateVoted s) := by
  unfold ungateVoted
  exact Aside.ite (Aside.foldl (fun _ p hs => Aside.ite (aside_ungate hs p) hs) _ h) h

theorem aside_entryBegin {u s : State} (h : AsideVotes u s) (dest : Nat) : AsideVotes u (entryBegin dest s) := by
  unfold entryBegin
  refine Aside.ite ?_ (Aside.ite ?_ ?_)
  · exact ((h.put (by decide) _).modPwr _).modSys _
  · exact (((((h.put (by decide) _).modPwr _).modSys _ |>.put (by decide) _).put (by decide) _).put (by decide) _).put (by decide) _
  · exact (((h.put (by decide) _).modPwr _).modSys _ |>.put (by decide) _).put (by decide) _

theorem aside_followVotes (s : State) : AsideVotes s (followVotes s) := by
  have h := aside_ungateVoted (.refl s : AsideVotes s s)
  unfold followVotes
  generalize ungateVoted s = t at h
  dsimp only
  refine Aside.ite h ?_
  split
  · exact Aside.ite (h.modPwr _) (h.modPwr _)
  · exact Aside.ite (aside_entryBegin h _) (Aside.ite (h.modPwr _) h)

/-! ## The measurements shown (R577) -/

abbrev AsideMeasures (u t : State) : Prop := Aside (· < 0x4001F100) u t

theorem aside_putMeasure {u s : State} (h : AsideMeasures u s) (i : Nat) (l : List Byte) : AsideMeasures u (putMeasure i l s) :=
  Aside.foldl (fun _ _ hs => hs.put (by simp only [F.KEEP_MEAS_MEAS]; omega) _) _ h

theorem aside_showMeasures (s : State) : AsideMeasures s (showMeasures s) :=
  aside_putMeasure (aside_putMeasure (.refl s) _ _) _ _

/-! ## A lane that takes the lead (R44), as SAFE's registers see it -/

abbrev AsideSafe (u t : State) : Prop := Aside (· / 0x1000 = 0x40014) u t

section
variable {u s : State} (h : AsideSafe u s)
include h

theorem aside_modGateSw (b : Bridge) (j : Switch) (f : Gate → Gate) : AsideSafe u (modGateSw b j f s) :=
  h.modGate b _

theorem aside_showOn (b : Bridge) (j : Switch) (on : Bool) : AsideSafe u (showOn b j on s) :=
  (h.when (aside_modGateSw h b j _) _).putBit (by simp only [F.GD_GW_ON]; omega) _ _

theorem aside_restSwitch (b : Bridge) (j : Switch) : AsideSafe u (restSwitch b j s) :=
  Aside.ite h (aside_modGateSw (h.when (aside_showOn h b j true) _) b j _)

theorem aside_startSwitch (b : Bridge) (j : Switch) : AsideSafe u (startSwitch b j s) :=
  Aside.ite h (Aside.ite (aside_modGateSw h b j _) (aside_modGateSw h b j _))

end

section
variable {u s : State} (h : AsideSafe u s)
include h

theorem aside_driveBridge (b : Bridge) : AsideSafe u (driveBridge b s) :=
  (Aside.foldl (fun _ j hs => aside_startSwitch hs b j) _ (Aside.foldl (fun _ j hs => aside_restSwitch hs b j) _ h)).put
    (f := F.GD_STAT_ASACT b) (by simp only [F.GD_STAT_ASACT]; omega) _

theorem aside_noteEdges (b : Bridge) (old cmd : Nat) : AsideSafe u (noteEdges b old cmd s) :=
  (Aside.foldl (fun _ j hs => Aside.ite (aside_modGateSw hs b j _) hs) _ h).modMc b _

theorem aside_takeCommands (b : Bridge) (cmd : Nat) : AsideSafe u (takeCommands b cmd s) :=
  aside_driveBridge (Aside.foldl
    (fun _ _ hs => (hs.put (by simp only [F.GD_STAT_XON]; omega) _).count (by simp only [F.GD_CNT0_XONCNT]; omega)
      (by simp only [F.GD_CNT0_OVF]; omega) _) _
    ((aside_noteEdges h b _ cmd).put (by simp only [F.GD_GW_CMD]; omega) _)) b

theorem aside_requestShort (b : Bridge) (on : Bool) : AsideSafe u (requestShort b on s) := by
  have h' := h.modMc b (fun m => { m with asReq := on })
  exact Aside.ite h' (aside_takeCommands h' b _)

theorem aside_sendOn (ty : Nat) (f : EbpFrame) (e : Port) : AsideSafe u (sendOn ty f e s) := by
  unfold sendOn
  exact Aside.ite ((h.modEbp e _).inc (by simp only [F.EBP_FRAMES_TXOK]; omega)) h

theorem aside_countSeq (ty : Nat) : AsideSafe u (countSeq ty s) := h.modLines _

end

section
variable {u s : State} (h : AsideSafe u s)
include h

theorem aside_holdEnd : AsideSafe u (holdEnd s) := by
  unfold holdEnd
  dsimp only
  have hdrop : ∀ {t : State}, AsideSafe u t → ∀ (c : Prop) [Decidable c] (b : Bridge),
      AsideSafe u (if c then requestShort b false t else t) := fun ht _ _ b => Aside.ite (aside_requestShort ht b false) ht
  split
  · exact hdrop (hdrop (h.put (by decide) _) _ 0) _ 1
  · exact h

theorem aside_sendFrame (ty : Nat) (payload : List Byte) : AsideSafe u (sendFrame ty payload s) := by
  unfold sendFrame
  exact aside_sendOn (aside_sendOn (aside_countSeq h ty) ty _ 0) ty _ 1

theorem aside_putShares (x : Shares) : AsideSafe u (putShares x s) := by
  unfold putShares setShares
  exact Aside.ite (((h.put (f := F.CONT_SHARES_SHA) (by decide) _).put (f := F.CONT_SHARES_SHB) (by decide) _).put
    (f := F.CONT_SHARES_SHC) (by decide) _) h

theorem aside_judgeSet : AsideSafe u (judgeSet s) := by
  unfold judgeSet
  exact Aside.ite (h.putB (by decide) _) h

end

theorem aside_becomeLead {u s : State} (h : AsideSafe u s) (x : Shares) : AsideSafe u (becomeLead x s) := by
  have h' := aside_putShares ((h.put (f := F.CONT_STAT_ROLE) (by decide) 2).put (f := F.CONT_STAT_QUAL) (by decide) 0) x
  unfold becomeLead sendClaim
  exact aside_sendFrame (h'.modCont _) 2 _

theorem aside_soloLead (s : State) : AsideSafe s (soloLead s) := by
  have h : AsideSafe s s := .refl s
  unfold soloLead
  exact Aside.ite (aside_judgeSet ((aside_becomeLead (aside_holdEnd (h.modCont _)) _).put (by decide) _)) h

end Sys2Proof.Machine
end

section
/-!
SUPPORT. The opcodes that S executes itself (R434, R534, R568, R574, R579 to R582, R589): each one is answered with what its opcode
answers, and what its opcode leaves stands beside the reply.
-/
namespace Sys2Proof.Machine

/-- A packet in turn whose opcode S executes: the command answers it and leaves, beside the reply, the state of its opcode. -/
theorem served_next {c : Transport} {p : Packet} {s : State} (h : inTurn c p s) (i : Instr) {e : ServiceEnd} {n : Nat}
    {act : List Byte → State → Answer} (hi : exec i s = .next (serve ⟨c, e⟩ (isOp n) act s)) (hop : p.op.toNat = n) {a : Answer}
    (ha : endedAs e n (act p.payload s) s = a) (hh : a.state.host = s.host) :
    ∃ t, exec i s = .next t ∧ answered c p a.status a.payload s t ∧ ReplyFrame a.state t :=
  ⟨_, hi, serve_of_inTurn h (by simp [isOp, hop]) (hop ▸ ha) hh⟩

/-- A refused packet: beside the reply everything stands. -/
theorem refused_next {c : Transport} {p : Packet} {s : State} (h : inTurn c p s) (i : Instr) {e : ServiceEnd} {n : Nat}
    {act : List Byte → State → Answer} (hi : exec i s = .next (serve ⟨c, e⟩ (isOp n) act s)) (hop : p.op.toNat = n) {code : Nat}
    (ha : endedAs e n (act p.payload s) s = no code s) :
    ∃ t, exec i s = .next t ∧ answered c p code [] s t ∧ ReplyFrame s t :=
  served_next h i hi hop ha rfl

/-! ## OPEN and CLOSE (R534) -/

theorem opOpen_of_closed {s : State} (h : s.on F.HOST_STAT_SESSION = false) : opOpen s = ok [] (s.put F.HOST_STAT_SESSION 1) := by
  simp [opOpen, h]

theorem opOpen_of_open {s : State} (h : s.on F.HOST_STAT_SESSION = true) : opOpen s = no 0x03 s := by
  simp [opOpen, h]

variable {c : Transport} {p : Packet} {s : State}

theorem open_answers (h : inTurn c p s) (hop : p.op = 0x01) :
    (s.on F.HOST_STAT_SESSION = false →
      ∃ t, exec (.openSession (.ok c)) s = .next t ∧ answered c p 0 [] s t ∧ t.on F.HOST_STAT_SESSION = true) ∧
    (s.on F.HOST_STAT_SESSION = true →
      ∃ t, exec (.openSession (.ok c)) s = .next t ∧ answered c p 0x03 [] s t ∧ t.on F.HOST_STAT_SESSION = true) := by
  refine ⟨fun hs => ?_, fun hs => ?_⟩
  · obtain ⟨t, he, ha, hf⟩ := served_next h (.openSession (.ok c)) rfl (by rw [hop]; rfl) (opOpen_of_closed hs) rfl
    exact ⟨t, he, ha, hf.session.trans (State.on_put_same s _ 1 (by decide))⟩
  · obtain ⟨t, he, ha, hf⟩ := refused_next h (.openSession (.ok c)) rfl (by rw [hop]; rfl) (opOpen_of_open hs)
    exact ⟨t, he, ha, hf.session.trans hs⟩

theorem close_answers (h : inTurn c p s) (hop : p.op = 0x02) :
    ∃ t, exec (.closeSession (.ok c)) s = .next t ∧ answered c p 0 [] s t ∧ t.on F.HOST_STAT_SESSION = false ∧ t.mem = s.mem := by
  obtain ⟨t, he, ha, hf⟩ := served_next h (.closeSession (.ok c)) (a := opClose s) rfl (by rw [hop]; rfl) rfl rfl
  exact ⟨t, he, ha, hf.session.trans (State.on_put_same s _ 0 (by decide)), hf.mem⟩

end Sys2Proof.Machine
end

section
/-!
SUPPORT. WRITEREG (R434, R542): the refusals, and a write of HOST_MBOX.
-/
namespace Sys2Proof.Machine

variable {c : Transport} {p : Packet} {s : State} {l : List Byte}

theorem opWritereg_of_not_permitted (h : regPermitted .s (bytesAt l 0 4) true = false) : opWritereg l s = no 0x43 s := by
  simp [opWritereg, h]

/-- The seal holds the RWS bits of a register (R653). -/
theorem opWritereg_of_sealed {a : Nat} (ha : a = bytesAt l 0 4) (h : regPermitted .s a true = true) (hs : s.sealApplied = true)
    (hb : rwsBits a (maskedWord a (regValue .s a s) (BitVec.ofNat 32 (bytesAt l 4 4)) (BitVec.ofNat 32 (bytesAt l 8 4))) ≠
      rwsBits a (regValue .s a s)) (hr : (rowsAt a).isEmpty = false) : opWritereg l s = no 0x45 s := by
  subst ha
  simp [opWritereg, h, hs, hb, hr]

/-- S may write the registers that a reply changes. -/
theorem not_mem_replyRegs {a : Nat} (h : regPermitted .s a true = false) : a ∉ replyRegs := by
  intro hm
  have hp : ∀ b ∈ replyRegs, regPermitted .s b true = true := by decide
  simp [hp a hm] at h

/-! ## HOST_MBOX -/

/-- The one row of HOST_MBOX: ADDR. -/
def mboxRow : Row := ⟨0x00C, 1, 0, 0, 22, .rw, 0, 0, 0x3fffff, false⟩

theorem rowsAt_mbox : rowsAt 0x4001C00C = [mboxRow] := by decide +kernel

theorem accepted_mbox (v : Word) (s : State) : accepted 0x4001C00C v s = true := by
  have hlt : mboxRow.of v < 2 ^ 22 := mboxRow.of_lt v
  have hrange : outOfRange s 0x4001C00C v = false := by
    have hle : ¬ (mboxRow.of v < mboxRow.vmin ∨ mboxRow.vmax < mboxRow.of v) := by
      have h0 : mboxRow.vmin = 0 := rfl
      have h1 : mboxRow.vmax = 0x3fffff := rfl
      omega
    simp only [outOfRange, rowsAt_mbox, fieldFate, mboxRow, List.any_cons, List.any_nil, Bool.or_false, decide_eq_false_iff_not]
    exact hle
  have hforb : ∀ m, forbidden s 0x4001C00C v m = false := fun m => rfl
  simp only [accepted, regStore, rowsAt_mbox, List.isEmpty_cons, hrange, hforb, Bool.or_false, Bool.false_eq_true, if_false,
    Option.isSome_some]

/-- A word written to HOST_MBOX is stored. -/
theorem written_mbox (v : Word) (s : State) :
    written 0x4001C00C v s = s.wr 0x4001C00C (mboxRow.into (s.rd 0x4001C00C) (mboxRow.of v)) := by
  have hm : merged s 0x4001C00C v = mboxRow.into (s.rd 0x4001C00C) (mboxRow.of v) := by
    simp only [merged, rowsAt_mbox, List.foldl_cons, List.foldl_nil, writeField, fieldFate, mboxRow]
  have hd : fieldDiscarded s 0x4001C00C v = false := by
    simp only [fieldDiscarded, rowsAt_mbox, fieldFate, mboxRow, List.any_cons, List.any_nil]
    rfl
  rw [written_of_accepted (accepted_mbox v s), hd, hm, if_neg Bool.false_ne_true]

theorem issues_s_wr {a : Nat} (h : a ≠ 0x40001000) (v : Word) (s : State) : issues (s.wr a v) .s = issues s .s := by
  have hstat : (s.wr a v).get F.PWR_STAT_STATE = s.get F.PWR_STAT_STATE :=
    congrArg F.PWR_STAT_STATE.read (State.rd_wr_other s v (Ne.symm h))
  simp only [issues, coreStopped, hstat]
  rfl

/-- HOST_MBOX read back after a write by S. -/
theorem answerRegs_mbox (hi : issues s .s = true) (w : Word) :
    ∃ t, answerRegs [0x4001C00C] (registerWrite .s 0x4001C00C w s) = ok (leBytes 4 (t.rd 0x4001C00C).toNat) t ∧
      t.host = s.host ∧ mboxRow.of (t.rd 0x4001C00C) = mboxRow.of (clearLow 0x4001C00C w) := by
  have hr : reaches .s s = true := rfl
  obtain ⟨v, hv⟩ : ∃ v, v = mboxRow.into (s.rd 0x4001C00C) (mboxRow.of (clearLow 0x4001C00C w)) := ⟨_, rfl⟩
  have hwrite : registerWrite .s 0x4001C00C w s = (busData 0 s).wr 0x4001C00C v := by
    rw [registerWrite_of_plain w ⟨hi, hr⟩ ⟨by decide, rfl⟩ (by decide), if_pos (accepted_mbox _ _), written_mbox]
    exact congrArg _ hv.symm
  have hread : registerRead .s 0x4001C00C ((busData 0 s).wr 0x4001C00C v) = busData v ((busData 0 s).wr 0x4001C00C v) := by
    have hi' : issues ((busData 0 s).wr 0x4001C00C v) .s = true := (issues_s_wr (by decide) v (busData 0 s)).trans hi
    rw [registerRead_of_permitted hi' rfl (by decide) rfl (by decide)]
    have hval : regValue .s 0x4001C00C ((busData 0 s).wr 0x4001C00C v) = v := State.rd_wr_same _ _ _
    have hsign : ∀ x, signCopies 0x4001C00C x = x := fun x => by
      simp only [signCopies, rowsAt_mbox, mboxRow, List.any_cons, List.any_nil, Bool.or_false, Bool.false_eq_true, if_false]
    have hclear : ∀ t, clearRead 0x4001C00C t = t := fun t => by
      simp only [clearRead, rowsAt_mbox, mboxRow]
      rfl
    simp only [regRead, rowsAt_mbox, List.isEmpty_cons, hval, hsign, hclear]
    rfl
  have hrd : (busData v ((busData 0 s).wr 0x4001C00C v)).rd 0x4001C00C = v := State.rd_wr_same (busData 0 s) _ _
  refine ⟨busData v ((busData 0 s).wr 0x4001C00C v), ?_, rfl, ?_⟩
  · rw [hrd, hwrite]
    simp only [answerRegs, readAll, readAsS, hread, List.append_nil]
    rfl
  · rw [hrd, hv]
    have := mboxRow.of_into_same (by decide) (s.rd 0x4001C00C) (mboxRow.of (clearLow 0x4001C00C w))
    rw [this]
    exact Nat.mod_eq_of_lt (mboxRow.of_lt _)

/-- The 22 bits kept, bits 1:0 cleared. -/
theorem mboxRow_of_clearLow (x : Word) : mboxRow.of (clearLow 0x4001C00C x) = x.toNat % 2 ^ 22 / 4 * 4 := by
  have h : mboxRow.of (clearLow 0x4001C00C x) = (x >>> 2 <<< 2).toNat >>> 0 % 2 ^ 22 := BitVec.extractLsb'_toNat ..
  have hx := x.isLt
  rw [h, BitVec.toNat_shiftLeft, BitVec.toNat_ushiftRight, Nat.shiftLeft_eq, Nat.shiftRight_zero, Nat.shiftRight_eq_div_pow]
  omega

/-- The mask keeps what is not written (R542). -/
theorem mboxRow_of_masked (old v mask : Word) :
    mboxRow.of (clearLow 0x4001C00C (maskedWord 0x4001C00C old v mask)) =
      ((old &&& ~~~mask) ||| (v &&& mask)).toNat % 2 ^ 22 / 4 * 4 := by
  have hw : maskedWord 0x4001C00C old v mask = (v &&& mask) ||| (old &&& ~~~mask &&& 0x3fffff) := by
    simp only [maskedWord, rowsAt_mbox, List.foldl_cons, List.foldl_nil, mboxRow]
    rfl
  have hlow : (maskedWord 0x4001C00C old v mask).setWidth 22 = ((old &&& ~~~mask) ||| (v &&& mask)).setWidth 22 := by
    rw [hw]
    ext i hi
    have hone : (0x3fffff : Word).getLsbD i = true := by
      have : ∀ j, j < 22 → (0x3fffff : Word).getLsbD j = true := by decide
      exact this i hi
    have hi' : i < 32 := by omega
    simp only [BitVec.getElem_setWidth, BitVec.getLsbD_or, BitVec.getLsbD_and, hone, Bool.and_true]
    exact Bool.or_comm _ _
  have hnat := congrArg BitVec.toNat hlow
  rw [BitVec.toNat_setWidth, BitVec.toNat_setWidth] at hnat
  rw [mboxRow_of_clearLow, hnat]

theorem opWritereg_mbox (ha : bytesAt l 0 4 = 0x4001C00C) (hi : issues s .s = true) :
    ∃ t, opWritereg l s = ok (leBytes 4 (t.rd 0x4001C00C).toNat) t ∧ t.host = s.host ∧ t.get F.HOST_MBOX_ADDR =
      ((s.rd 0x4001C00C &&& ~~~BitVec.ofNat 32 (bytesAt l 8 4)) |||
        (BitVec.ofNat 32 (bytesAt l 4 4) &&& BitVec.ofNat 32 (bytesAt l 8 4))).toNat % 2 ^ 22 / 4 * 4 := by
  have hp : regPermitted .s 0x4001C00C true = true := by decide
  have hrws : ∀ v, rwsBits 0x4001C00C v = 0 := fun v => by
    simp only [rwsBits, rowsAt_mbox, mboxRow]
    rfl
  obtain ⟨t, ht, hh, hrd⟩ := answerRegs_mbox hi (maskedWord 0x4001C00C (regValue .s 0x4001C00C s) (BitVec.ofNat 32 (bytesAt l 4 4))
    (BitVec.ofNat 32 (bytesAt l 8 4)))
  refine ⟨t, ?_, hh, hrd.trans (mboxRow_of_masked _ _ _)⟩
  simpa [opWritereg, ha, hp, rowsAt_mbox, hrws] using ht

theorem issues_of_hostTakes (h : hostTakes s = true) : issues s .s = true := by
  simp only [hostTakes, Bool.and_eq_true] at h
  exact h.2

theorem writereg_answers (h : inTurn c p s) (hop : p.op = 0x20) {a : Nat} (ha : a = bytesAt p.payload 0 4) :
    (regPermitted .s a true = false →
      ∃ t, exec (.writereg (.ok c)) s = .next t ∧ answered c p 0x43 [] s t ∧ t.rd a = s.rd a) ∧
    (regPermitted .s a true = true → s.sealApplied = true →
      rwsBits a (maskedWord a (regValue .s a s) (BitVec.ofNat 32 (bytesAt p.payload 4 4)) (BitVec.ofNat 32 (bytesAt p.payload 8 4))) ≠
        rwsBits a (regValue .s a s) → (rowsAt a).isEmpty = false →
      ∃ t, exec (.writereg (.ok c)) s = .next t ∧ answered c p 0x45 [] s t ∧ t.mem = s.mem) ∧
    (a = 0x4001C00C → ∃ t, exec (.writereg (.ok c)) s = .next t ∧ t.get F.HOST_MBOX_ADDR =
      ((s.rd a &&& ~~~BitVec.ofNat 32 (bytesAt p.payload 8 4)) |||
        (BitVec.ofNat 32 (bytesAt p.payload 4 4) &&& BitVec.ofNat 32 (bytesAt p.payload 8 4))).toNat % 2 ^ 22 / 4 * 4 ∧
      answered c p 0 (leBytes 4 (t.rd a).toNat) s t) := by
  have hnum : p.op.toNat = 0x20 := by rw [hop]; rfl
  refine ⟨fun hperm => ?_, fun hperm hs hb hr => ?_, fun hm => ?_⟩
  · obtain ⟨t, he, hans, hf⟩ := refused_next h (.writereg (.ok c)) rfl hnum (opWritereg_of_not_permitted (ha ▸ hperm))
    exact ⟨t, he, hans, hf.rd a (not_mem_replyRegs hperm)⟩
  · obtain ⟨t, he, hans, hf⟩ := refused_next h (.writereg (.ok c)) rfl hnum (opWritereg_of_sealed ha hperm hs hb hr)
    exact ⟨t, he, hans, hf.mem⟩
  · subst hm
    obtain ⟨u, hu, hh, hget⟩ := opWritereg_mbox (l := p.payload) ha.symm (issues_of_hostTakes h.2.1)
    obtain ⟨t, he, hans, hf⟩ := served_next h (.writereg (.ok c)) rfl hnum hu hh
    refine ⟨t, he, (hf.get _ (by decide)).trans hget, ?_⟩
    rw [hf.rd 0x4001C00C (by decide)]
    exact hans

end Sys2Proof.Machine
end

section
/-!
SUPPORT. CFGLOAD and CFGCOMMIT (R574): the copy not in force staged, and the record that seals it.
-/
namespace Sys2Proof.Machine

variable {c : Transport} {p : Packet} {s : State} {l : List Byte}

/-- What memory alone shows is seen alike where memory is alike. -/
theorem State.bytes_of_mem {s t : State} (h : t.mem = s.mem) (a n : Nat) : t.bytes a n = s.bytes a n :=
  State.bytes_congr (fun k _ _ => congrArg (Tab.get blankByte · k) h)

theorem readPage_of_mem {s t : State} (h : t.mem = s.mem) (b : Bool) (i : Nat) : readPage t b i = readPage s b i := by
  simp only [readPage, State.bytes_of_mem h]

theorem State.setBytes_host (s : State) (a : Nat) (l : List Byte) : (s.setBytes a l).host = s.host := by
  obtain ⟨m, hm⟩ := s.setBytes_eq a l
  rw [hm]

theorem nvmErase_host (a : Nat) (s : State) : (nvmErase a s).host = s.host := by
  obtain ⟨m, g, h⟩ := nvmErase_eq a s
  rw [h]

/-! ## The configuration copies -/

/-- A byte of a copy's block and its seal lies in data NVM. -/
theorem isMemory_copy {b : Bool} {k : Nat} (h : copyBase b ≤ k) (h' : k < copyBase b + 0x2000) : isMemory k = true := by
  have hb : 0x11000000 ≤ copyBase b ∧ copyBase b ≤ 0x11002000 := by cases b <;> decide
  exact isMemory_dataNvm (by omega) (by omega)

/-- The two copies lie in sectors of their own. -/
theorem copies_apart (b : Bool) :
    (copyBase b = 0x11000000 ∧ copyBase (!b) = 0x11002000) ∨ (copyBase b = 0x11002000 ∧ copyBase (!b) = 0x11000000) := by
  cases b
  · exact .inl ⟨rfl, rfl⟩
  · exact .inr ⟨rfl, rfl⟩

/-- The state that CFGLOAD writes into: the copy erased, where nothing is staged. -/
def stagingBase (s : State) : State := if s.keep.staged then s else nvmErase (copyBase (!copyInForce s)) s

theorem stagingBase_host (s : State) : (stagingBase s).host = s.host := by
  unfold stagingBase
  split
  · rfl
  · exact nvmErase_host _ s

theorem stagingBase_byte {k : Nat} (h : copyBase (copyInForce s) ≤ k) (h' : k < copyBase (copyInForce s) + 0x2000) :
    (stagingBase s).byte k = s.byte k := by
  unfold stagingBase
  split
  · rfl
  · have hc := copies_apart (copyInForce s)
    exact nvmErase_byte (by omega) s

/-- The bytes staged. -/
def staged (l : List Byte) (s : State) : State :=
  ((stagingBase s).setBytes (copyBase (!copyInForce s) + bytesAt l 0 4) (l.drop 4)).modKeep (fun k => { k with staged := true })

theorem opCfgload_of_outside (h : 4104 < bytesAt l 0 4 + (l.length - 4)) : opCfgload l s = no 0x43 s := by
  simp [opCfgload, h]

theorem opCfgload_of_inside (h : bytesAt l 0 4 + (l.length - 4) ≤ 4104) (hl : l.length ≤ 244) :
    opCfgload l s = ok [] (staged l s) := by
  have h240 : ¬ (240 < (l.drop 4).length ∨ 4104 < bytesAt l 0 4 + (l.drop 4).length) := by
    rw [List.length_drop]; omega
  simp only [opCfgload, if_neg h240]
  rfl

theorem cfgload_len (h : inTurn c p s) (hop : p.op = 0x22) : p.payload.length ≤ 244 := by
  obtain ⟨-, -, -, -, href⟩ := id h
  exact (len_of_refusal_none href).2.trans (by rw [hop]; decide)

theorem cfgload_answers (h : inTurn c p s) (hop : p.op = 0x22) {off : Nat} (hoff : off = bytesAt p.payload 0 4) :
    (4104 < off + (p.payload.length - 4) →
      ∃ t, exec (.cfgload (.ok c)) s = .next t ∧ answered c p 0x43 [] s t ∧ t.mem = s.mem) ∧
    (off + (p.payload.length - 4) ≤ 4104 →
      ∃ t, exec (.cfgload (.ok c)) s = .next t ∧ answered c p 0 [] s t ∧ t.keep.staged = true ∧
        t.bytes (copyBase (!copyInForce s) + off) (p.payload.length - 4) = p.payload.drop 4 ∧
        ∀ k, copyBase (copyInForce s) ≤ k → k < copyBase (copyInForce s) + 0x2000 → t.byte k = s.byte k) := by
  have hnum : p.op.toNat = 0x22 := by rw [hop]; rfl
  subst hoff
  refine ⟨fun hout => ?_, fun hin => ?_⟩
  · obtain ⟨t, he, ha, hf⟩ := refused_next h (.cfgload (.ok c)) rfl hnum (opCfgload_of_outside hout)
    exact ⟨t, he, ha, hf.mem⟩
  · have hhost : (staged p.payload s).host = s.host := (State.setBytes_host _ _ _).trans (stagingBase_host s)
    obtain ⟨t, he, ha, hf⟩ := served_next h (.cfgload (.ok c)) rfl hnum (opCfgload_of_inside hin (cfgload_len h hop)) hhost
    refine ⟨t, he, ha, congrArg Keep.staged hf.keep, ?_, fun k h1 h2 => ?_⟩
    · have hmem : t.mem = ((stagingBase s).setBytes (copyBase (!copyInForce s) + bytesAt p.payload 0 4) (p.payload.drop 4)).mem :=
        hf.mem
      rw [State.bytes_of_mem hmem, ← List.length_drop]
      refine State.bytes_setBytes_same _ (fun k h1 h2 => ?_)
      rw [List.length_drop] at h2
      exact isMemory_copy (b := !copyInForce s) (by omega) (by omega)
    · have hc := copies_apart (copyInForce s)
      rw [hf.byte]
      refine (State.byte_setBytes_other _ _ _ _ ?_).trans (stagingBase_byte h1 h2)
      rw [List.length_drop]
      omega

/-- An NVM write that fails leaves what stood. -/
theorem cfgload_nvmFault (h : inTurn c p s) (hop : p.op = 0x22) (hin : bytesAt p.payload 0 4 + (p.payload.length - 4) ≤ 4104) :
    ∃ t, exec (.cfgload ⟨c, .nvmFault⟩) s = .next t ∧ answered c p 0x85 [] s t ∧ t.mem = s.mem ∧ t.keep.staged = s.keep.staged := by
  obtain ⟨t, he, ha, hf⟩ := refused_next h (.cfgload ⟨c, .nvmFault⟩) (code := 0x85) rfl (by rw [hop]; rfl)
    (by rw [opCfgload_of_inside hin (cfgload_len h hop)]; rfl)
  exact ⟨t, he, ha, hf.mem, congrArg Keep.staged hf.keep⟩

/-! ## CFGCOMMIT -/

theorem showBoot_host (s : State) : (showBoot s).host = s.host := rfl
theorem showBoot_mem (s : State) : (showBoot s).mem = s.mem := rfl
theorem writePage_host (b : Bool) (i : Nat) (q : BootPage) (s : State) : (writePage b i q s).host = s.host :=
  State.setBytes_host s _ _

theorem readPage_bytes_lt {b : Bool} {i : Nat} {q : BootPage} (h : readPage s b i = some q) : q.pref < 256 ∧ q.trial < 256 := by
  unfold readPage at h
  dsimp only at h
  split at h
  · cases h
    exact ⟨bytesAt_lt _ _ 1, bytesAt_lt _ _ 1⟩
  · cases h

/-- Every record is a page read. -/
theorem recordInForce_readPage {x : Bool × Nat × BootPage} (h : recordInForce s = some x) : readPage s x.1 x.2.1 = some x.2.2 := by
  unfold recordInForce at h
  revert h
  refine List.foldlRecOn (motive := fun acc => acc = some x → readPage s x.1 x.2.1 = some x.2.2) _ _ (fun h => nomatch h)
    (fun acc ih y _ h => ?_)
  split at h
  · split at h
    · next hp _ => cases h; exact hp
    · exact ih h
  · next hp => cases h; exact hp
  · exact ih h

theorem bootRecord_lt (s : State) : (bootRecord s).pref < 256 ∧ (bootRecord s).trial < 256 := by
  unfold bootRecord
  cases h : recordInForce s with
  | none => exact ⟨by decide, by decide⟩
  | some x => exact readPage_bytes_lt (recordInForce_readPage h)

theorem sealSlot_lt {b : Bool} {k : Nat} (h : sealSlot s b l s.keep.store.customers = some k) : k < 256 := by
  have hk : k ∈ [1, 2, 3, 4] := List.mem_of_mem_filter (List.mem_of_find?_eq_some h)
  have hle : ∀ j ∈ [1, 2, 3, 4], j < 256 := by decide
  exact hle k hk

/-- The record that a commit writes: the generation that follows, the copy committed, the slot its seal verifies under. -/
def sealed (k : Nat) (s : State) : BootPage :=
  { bootRecord s with gen := ((bootRecord s).gen + 1) % 2 ^ 32, slot := k }

/-- The copy committed, with its seal. -/
def committed (l : List Byte) (k : Nat) (s : State) : State :=
  (writePage (!copyInForce s) 0 (sealed k s) (s.setBytes (copyBase (!copyInForce s) + 0x1100) l)).modKeep
    (fun k => { k with staged := false })

theorem committed_host (l : List Byte) (k : Nat) (s : State) : (committed l k s).host = s.host := by
  rw [committed, State.modKeep_host, writePage_host, State.setBytes_host]

theorem committed_mem (l : List Byte) (k : Nat) (s : State) : (committed l k s).mem =
    (writePage (!copyInForce s) 0 (sealed k s) (s.setBytes (copyBase (!copyInForce s) + 0x1100) l)).mem := by
  rw [committed, State.modKeep_mem]

theorem opCfgcommit_of_not_staged (h : s.keep.staged = false) : opCfgcommit l s = no 0x4F s := by
  simp [opCfgcommit, h]

theorem opCfgcommit_of_invalid (h : s.keep.staged = true)
    (hb : blockHeaderOk s (!copyInForce s) = false ∨ sealSlot s (!copyInForce s) l s.keep.store.customers = none) :
    opCfgcommit l s = no 0x53 s := by
  rcases hb with hb | hb <;> simp [opCfgcommit, h, hb]

theorem opCfgcommit_of_valid {k : Nat} (h : s.keep.staged = true) (hb : blockHeaderOk s (!copyInForce s) = true)
    (hk : sealSlot s (!copyInForce s) l s.keep.store.customers = some k) :
    opCfgcommit l s = ok [] (showBoot (committed l k s)) := by
  simp only [opCfgcommit, h, hb, hk, Bool.not_true, Bool.false_eq_true, if_false, if_true]
  rfl

theorem cfgcommit_answers (h : inTurn c p s) (hop : p.op = 0x23) :
    (s.keep.staged = false → ∃ t, exec (.cfgcommit (.ok c)) s = .next t ∧ answered c p 0x4F [] s t ∧ t.mem = s.mem) ∧
    (s.keep.staged = true →
      blockHeaderOk s (!copyInForce s) = false ∨ sealSlot s (!copyInForce s) p.payload s.keep.store.customers = none →
      ∃ t, exec (.cfgcommit (.ok c)) s = .next t ∧ answered c p 0x53 [] s t ∧ t.mem = s.mem ∧ t.keep.staged = true) ∧
    (∀ k, s.keep.staged = true → blockHeaderOk s (!copyInForce s) = true →
      sealSlot s (!copyInForce s) p.payload s.keep.store.customers = some k → (bootRecord s).gen + 1 < 2 ^ 32 →
      ∃ t, exec (.cfgcommit (.ok c)) s = .next t ∧ answered c p 0 [] s t ∧ t.keep.staged = false ∧
        readPage t (!copyInForce s) 0 =
          some { bootRecord s with gen := (bootRecord s).gen + 1, cfgsel := (!copyInForce s).toNat, slot := k } ∧
        t.bytes (copyBase (!copyInForce s) + 0x1100) 64 = p.payload) := by
  have hnum : p.op.toNat = 0x23 := by rw [hop]; rfl
  refine ⟨fun hs => ?_, fun hs hb => ?_, fun k hs hb hk hgen => ?_⟩
  · obtain ⟨t, he, ha, hf⟩ := refused_next h (.cfgcommit (.ok c)) rfl hnum (opCfgcommit_of_not_staged hs)
    exact ⟨t, he, ha, hf.mem⟩
  · obtain ⟨t, he, ha, hf⟩ := refused_next h (.cfgcommit (.ok c)) rfl hnum (opCfgcommit_of_invalid hs hb)
    exact ⟨t, he, ha, hf.mem, (congrArg Keep.staged hf.keep).trans hs⟩
  · have hlen : p.payload.length = 64 := by
      obtain ⟨-, -, -, -, href⟩ := id h
      have hl := len_of_refusal_none href
      rw [hnum] at hl
      exact Nat.le_antisymm hl.2 hl.1
    obtain ⟨t, he, ha, hf⟩ := served_next h (.cfgcommit (.ok c)) rfl hnum (opCfgcommit_of_valid hs hb hk)
      ((showBoot_host _).trans (committed_host p.payload k s))
    have hmem : t.mem = (writePage (!copyInForce s) 0 (sealed k s)
        (s.setBytes (copyBase (!copyInForce s) + 0x1100) p.payload)).mem := by
      rw [hf.mem, ok, showBoot_mem, committed_mem]
    have hg : ((bootRecord s).gen + 1) % 2 ^ 32 = (bootRecord s).gen + 1 := Nat.mod_eq_of_lt hgen
    obtain ⟨hpref, htrial⟩ := bootRecord_lt s
    refine ⟨t, he, ha, congrArg Keep.staged hf.keep, ?_, ?_⟩
    · rw [readPage_of_mem hmem, readPage_writePage (p := sealed k s) (hg.trans_lt hgen) (sealSlot_lt hk) hpref htrial]
      simp only [sealed, hg]
    · have hpage : copyBase (!copyInForce s) + 0x1100 + 64 ≤ pageAddr (!copyInForce s) 0 := by
        rw [pageAddr]; omega
      rw [State.bytes_of_mem hmem, writePage, State.bytes_setBytes_other _ _ (.inl hpage), ← hlen]
      exact State.bytes_setBytes_same s (fun a h1 h2 => isMemory_copy (b := !copyInForce s) (by omega) (by omega))

/-- A failed NVM write changes nothing that CFGCOMMIT refuses anyway. -/
theorem cfgcommit_nvmFault (h : inTurn c p s) (hop : p.op = 0x23) (hs : s.keep.staged = false) :
    ∃ t, exec (.cfgcommit ⟨c, .nvmFault⟩) s = .next t ∧ answered c p 0x4F [] s t ∧ t.mem = s.mem := by
  obtain ⟨t, he, ha, hf⟩ := refused_next h (.cfgcommit ⟨c, .nvmFault⟩) (code := 0x4F) rfl (by rw [hop]; rfl)
    (by rw [opCfgcommit_of_not_staged hs]; rfl)
  exact ⟨t, he, ha, hf.mem⟩

end Sys2Proof.Machine
end

section
/-!
SUPPORT. IMGLOAD and IMGCOMMIT (R568): the bank not booted written and verified.
-/
namespace Sys2Proof.Machine

variable {c : Transport} {p : Packet} {s : State} {l : List Byte}

/-! ## IMGLOAD -/

/-- One sector erased before a load, where no write has touched it since the commit. -/
def sectorCleared (s t : State) (x : Nat) : State := if imgMeets s x 0x2000 then t else bumpWrgen (nvmErase x t)

/-- The sectors of a load cleared. -/
def sectorsCleared (s : State) (a n : Nat) : State :=
  ((List.range ((a + n - 1) / 0x2000 + 1 - a / 0x2000)).map (fun i => (a / 0x2000 + i) * 0x2000)).foldl (sectorCleared s) s

/-- The bytes of an image loaded. -/
def imageLoaded (a : Nat) (data : List Byte) (s : State) : State :=
  (bumpWrgen ((sectorsCleared s a data.length).setBytes a data)).modKeep
    (fun k => { k with imgWritten := k.imgWritten ++ [(a, data.length)] })

/-- Where IMGLOAD writes. -/
def imageAddr (l : List Byte) : Nat := bankBase (bytesAt l 0 1 == 1) + bytesAt l 4 4

theorem bumpWrgen_host (s : State) : (bumpWrgen s).host = s.host := rfl
theorem bumpWrgen_mem (s : State) : (bumpWrgen s).mem = s.mem := rfl

theorem sectorsCleared_host (s : State) (a n : Nat) : (sectorsCleared s a n).host = s.host := by
  unfold sectorsCleared
  refine List.foldlRecOn (motive := fun t : State => t.host = s.host) _ _ rfl (fun t ih x _ => ?_)
  unfold sectorCleared
  split
  · exact ih
  · rw [bumpWrgen_host, nvmErase_host, ih]

theorem imageLoaded_host (a : Nat) (data : List Byte) (s : State) : (imageLoaded a data s).host = s.host := by
  rw [imageLoaded, State.modKeep_host, bumpWrgen_host, State.setBytes_host, sectorsCleared_host]

theorem imageLoaded_bytes {a : Nat} {data : List Byte} (h : ∀ k, a ≤ k → k < a + data.length → isMemory k = true) (s : State) :
    (imageLoaded a data s).bytes a data.length = data := by
  have hmem : (imageLoaded a data s).mem = ((sectorsCleared s a data.length).setBytes a data).mem := by
    rw [imageLoaded, State.modKeep_mem, bumpWrgen_mem]
  rw [State.bytes_of_mem hmem]
  exact State.bytes_setBytes_same _ h

/-- A load is remembered: the next one that meets it is refused. -/
theorem imageLoaded_meets {a : Nat} {data : List Byte} (h : 0 < data.length) (s : State) :
    imgMeets (imageLoaded a data s) a data.length = true := by
  have hin : (a, data.length) ∈ (imageLoaded a data s).keep.imgWritten := List.mem_append_right _ (List.mem_singleton_self _)
  exact List.any_eq_true.mpr ⟨_, hin, by simp only [decide_eq_true_eq]; omega⟩

theorem imageLoaded_wrgen (a : Nat) (data : List Byte) (s : State) :
    (imageLoaded a data s).get F.KEEP_WRGEN_WRGEN = (imageLoaded a data s).keep.store.wrgen % 2 ^ 32 :=
  State.get_put_same (((sectorsCleared s a data.length).setBytes a data).modStore _) F.KEEP_WRGEN_WRGEN _ (by decide)

theorem opImgload_of_booted (h : bytesAt l 0 1 ≤ 1) (hb : bytesAt l 0 1 = s.get F.KEEP_STAT_BANK) :
    opImgload l s = no 0x52 s := by
  simp [opImgload, Nat.not_lt.mpr h, ← hb]

theorem opImgload_of_refused (h : bytesAt l 0 1 ≤ 1) (hb : bytesAt l 0 1 ≠ s.get F.KEEP_STAT_BANK)
    (hr : bankSize < bytesAt l 4 4 + (l.length - 8) ∨ imgMeets s (imageAddr l) (l.length - 8) = true) :
    opImgload l s = no 0x43 s := by
  unfold imageAddr at hr
  rcases hr with hr | hr
  · simp [opImgload, Nat.not_lt.mpr h, hb, hr]
  · simp [opImgload, Nat.not_lt.mpr h, hb, hr]

theorem opImgload_of_free (h : bytesAt l 0 1 ≤ 1) (hb : bytesAt l 0 1 ≠ s.get F.KEEP_STAT_BANK)
    (hin : bytesAt l 4 4 + (l.length - 8) ≤ bankSize) (hl : l.length ≤ 248)
    (hr : imgMeets s (imageAddr l) (l.length - 8) = false) :
    opImgload l s = ok [] (imageLoaded (imageAddr l) (l.drop 8) s) := by
  have hfit : ¬ (bankSize < bytesAt l 4 4 + (l.drop 8).length ∨ 240 < (l.drop 8).length) := by
    rw [List.length_drop]; omega
  rw [← List.length_drop] at hr
  unfold imageAddr at hr
  simp only [opImgload, Nat.not_lt.mpr h, hb, hfit, hr, if_false, Bool.false_eq_true]
  rfl

theorem imgload_len (h : inTurn c p s) (hop : p.op = 0x24) : 9 ≤ p.payload.length ∧ p.payload.length ≤ 248 := by
  obtain ⟨-, -, -, -, href⟩ := id h
  have hl := len_of_refusal_none href
  rw [hop] at hl
  exact hl

theorem imgload_answers (h : inTurn c p s) (hop : p.op = 0x24) {b off a : Nat} (hb : b = bytesAt p.payload 0 1)
    (hoff : off = bytesAt p.payload 4 4) (ha : a = bankBase (b == 1) + off) (hle : b ≤ 1) :
    (b = s.get F.KEEP_STAT_BANK → ∃ t, exec (.imgload (.ok c)) s = .next t ∧ answered c p 0x52 [] s t ∧ t.mem = s.mem) ∧
    (b ≠ s.get F.KEEP_STAT_BANK →
      bankSize < off + (p.payload.length - 8) ∨ imgMeets s a (p.payload.length - 8) = true →
      ∃ t, exec (.imgload (.ok c)) s = .next t ∧ answered c p 0x43 [] s t ∧ t.mem = s.mem) ∧
    (b ≠ s.get F.KEEP_STAT_BANK → off + (p.payload.length - 8) ≤ bankSize → imgMeets s a (p.payload.length - 8) = false →
      ∃ t, exec (.imgload (.ok c)) s = .next t ∧ answered c p 0 [] s t ∧
        t.bytes a (p.payload.length - 8) = p.payload.drop 8 ∧ imgMeets t a (p.payload.length - 8) = true ∧
        t.get F.KEEP_WRGEN_WRGEN = t.keep.store.wrgen % 2 ^ 32) := by
  have hnum : p.op.toNat = 0x24 := by rw [hop]; rfl
  subst hb hoff ha
  refine ⟨fun hbank => ?_, fun hbank hr => ?_, fun hbank hin hr => ?_⟩
  · obtain ⟨t, he, ha, hf⟩ := refused_next h (.imgload (.ok c)) rfl hnum (opImgload_of_booted hle hbank)
    exact ⟨t, he, ha, hf.mem⟩
  · obtain ⟨t, he, ha, hf⟩ := refused_next h (.imgload (.ok c)) rfl hnum (opImgload_of_refused hle hbank hr)
    exact ⟨t, he, ha, hf.mem⟩
  · obtain ⟨hmin, hmax⟩ := imgload_len h hop
    obtain ⟨t, he, ha, hf⟩ := served_next h (.imgload (.ok c)) rfl hnum (opImgload_of_free hle hbank hin hmax hr)
      (imageLoaded_host _ _ s)
    have hcode : ∀ k, imageAddr p.payload ≤ k → k < imageAddr p.payload + (p.payload.drop 8).length → isMemory k = true := by
      intro k h1 h2
      have hbase : ∀ x, 0x10000000 ≤ bankBase x ∧ bankBase x + bankSize ≤ 0x10C00000 := by decide
      have hx := hbase (bytesAt p.payload 0 1 == 1)
      rw [List.length_drop] at h2
      unfold imageAddr at h1 h2
      exact isMemory_codeNvm (by omega) (by omega)
    have hmeets : imgMeets t = imgMeets (imageLoaded (imageAddr p.payload) (p.payload.drop 8) s) := by
      funext x n
      exact congrArg (fun k : Keep => k.imgWritten.any _) hf.keep
    refine ⟨t, he, ha, ?_, ?_, ?_⟩
    · rw [hf.bytes, ← List.length_drop]
      exact imageLoaded_bytes hcode s
    · rw [hmeets, ← List.length_drop]
      exact imageLoaded_meets (by rw [List.length_drop]; omega) s
    · rw [hf.get _ (by decide), hf.keep]
      exact imageLoaded_wrgen _ _ s

/-! ## IMGCOMMIT -/

/-- The host interface, the registers, the key store and the loads remembered stand. -/
structure RecordFrame (s u : State) : Prop where
  host : u.host = s.host
  regs : u.regs = s.regs
  store : u.keep.store = s.keep.store
  written : u.keep.imgWritten = s.keep.imgWritten

namespace RecordFrame
variable {s u : State} (h : RecordFrame s u)
include h

theorem setBytes (a : Nat) (l : List Byte) : RecordFrame s (u.setBytes a l) := by
  obtain ⟨m, hm⟩ := u.setBytes_eq a l
  rw [hm]
  exact ⟨h.host, h.regs, h.store, h.written⟩

theorem writePage (b : Bool) (i : Nat) (q : BootPage) : RecordFrame s (writePage b i q u) := h.setBytes _ _

theorem nvmErase (a : Nat) : RecordFrame s (nvmErase a u) := by
  obtain ⟨m, g, hm⟩ := nvmErase_eq a u
  rw [hm]
  exact ⟨h.host, h.regs, h.store, h.written⟩

theorem unstaged : RecordFrame s (u.modKeep (fun k => { k with staged := false })) :=
  ⟨h.host, h.regs, h.store, h.written⟩

end RecordFrame

/-- A change of the record writes memory and the keeper's staging, and shows the record in KEEP_BOOT. -/
theorem changeRecord_eq (f : BootPage → BootPage) (s : State) : ∃ u, changeRecord f s = showBoot u ∧ RecordFrame s u := by
  have h : RecordFrame s s := ⟨rfl, rfl, rfl, rfl⟩
  unfold changeRecord
  split
  · exact ⟨_, rfl, h.writePage _ _ _⟩
  · dsimp only
    split
    · exact ⟨_, rfl, h.writePage _ _ _⟩
    · exact ⟨_, rfl, (((h.nvmErase _).setBytes _ _).writePage _ _ _).unstaged⟩

/-- The record shown leaves VALA and VALB. -/
theorem showBoot_on_val {f : Fld} (hf : f = F.KEEP_BOOT_VALA ∨ f = F.KEEP_BOOT_VALB) (s : State) :
    (showBoot s).on f = s.on f := by
  have hdisj : f.lo + f.w ≤ 32 ∧ F.KEEP_BOOT_PREF.disj f = true ∧ F.KEEP_BOOT_TRIAL.disj f = true ∧
      F.KEEP_BOOT_CFGSEL.disj f = true ∧ F.KEEP_BOOT_SEALSLOT.disj f = true := by
    rcases hf with rfl | rfl <;> decide
  obtain ⟨hw, h1, h2, h3, h4⟩ := hdisj
  rw [showBoot, State.on_put_disj _ _ f _ hw h4, State.on_put_disj _ _ f _ hw h3, State.on_put_disj _ _ f _ hw h2,
    State.on_put_disj _ _ f _ hw h1]

/-- The flag of a bank in KEEP_BOOT. -/
def bankValid (b : Nat) : Fld := if b = 1 then F.KEEP_BOOT_VALB else F.KEEP_BOOT_VALA

/-- The bank that verifies: shown valid, named for a trial boot. -/
def bankCommitted (b : Nat) (s : State) : State :=
  changeRecord (fun p => { p with pref := b, trial := 1 }) ((imgForget (b == 1) s).put (bankValid b) 1)

theorem bankCommitted_frame (b : Nat) (s : State) : (bankCommitted b s).host = s.host ∧
    (bankCommitted b s).on (bankValid b) = true ∧ (bankCommitted b s).keep.store = s.keep.store ∧
    (bankCommitted b s).keep.imgWritten = (imgForget (b == 1) s).keep.imgWritten := by
  have hval : bankValid b = F.KEEP_BOOT_VALA ∨ bankValid b = F.KEEP_BOOT_VALB := by
    unfold bankValid
    split
    · exact .inr rfl
    · exact .inl rfl
  have hw : (bankValid b).lo + (bankValid b).w ≤ 32 ∧ (bankValid b).w = 1 := by rcases hval with h | h <;> rw [h] <;> decide
  obtain ⟨u, hu, ⟨hhost, hregs, hstore, himg⟩⟩ := changeRecord_eq (fun p => { p with pref := b, trial := 1 })
    ((imgForget (b == 1) s).put (bankValid b) 1)
  have hon : u.on (bankValid b) = ((imgForget (b == 1) s).put (bankValid b) 1).on (bankValid b) :=
    congrArg (fun r => (bankValid b).read (Tab.get resetWord r (bankValid b).addr) == 1) hregs
  rw [bankCommitted, hu]
  refine ⟨hhost, ?_, hstore, himg⟩
  rw [showBoot_on_val hval, hon, State.on_put_same _ _ 1 hw.1, hw.2]
  rfl

theorem opImgcommit_of_booted (h : bytesAt l 0 1 ≤ 1) (hb : bytesAt l 0 1 = s.get F.KEEP_STAT_BANK) :
    opImgcommit l s = no 0x52 s := by
  simp [opImgcommit, Nat.not_lt.mpr h, ← hb]

theorem opImgcommit_of_failing (h : bytesAt l 0 1 ≤ 1) (hb : bytesAt l 0 1 ≠ s.get F.KEEP_STAT_BANK)
    (hv : verifyCommit s (bytesAt l 0 1 == 1) = false) : opImgcommit l s = no 0x54 (imgForget (bytesAt l 0 1 == 1) s) := by
  simp only [opImgcommit, Nat.not_lt.mpr h, hb, hv, if_false, Bool.false_eq_true]

theorem opImgcommit_of_verified (h : bytesAt l 0 1 ≤ 1) (hb : bytesAt l 0 1 ≠ s.get F.KEEP_STAT_BANK)
    (hv : verifyCommit s (bytesAt l 0 1 == 1) = true) : opImgcommit l s = ok [] (bankCommitted (bytesAt l 0 1) s) := by
  simp only [opImgcommit, Nat.not_lt.mpr h, hb, hv, if_false, if_true]
  rfl

/-- What is forgotten is what was written in the bank. -/
theorem mem_imgForget (b : Bool) (s : State) (r : Nat × Nat) :
    r ∈ (imgForget b s).keep.imgWritten ↔ r ∈ s.keep.imgWritten ∧ ¬ (bankBase b ≤ r.1 ∧ r.1 < bankBase b + bankSize) := by
  simp only [imgForget, State.modKeep_keep, List.mem_filter, Bool.not_eq_true', decide_eq_false_iff_not]

theorem imgcommit_answers (h : inTurn c p s) (hop : p.op = 0x25) {b : Nat} (hb : b = bytesAt p.payload 0 1) (hle : b ≤ 1) :
    (b = s.get F.KEEP_STAT_BANK → ∃ t, exec (.imgcommit (.ok c)) s = .next t ∧ answered c p 0x52 [] s t ∧ t.mem = s.mem) ∧
    (b ≠ s.get F.KEEP_STAT_BANK → verifyCommit s (b == 1) = false →
      ∃ t, exec (.imgcommit (.ok c)) s = .next t ∧ answered c p 0x54 [] s t ∧ t.mem = s.mem ∧ t.keep.store = s.keep.store ∧
        t.get F.KEEP_BOOT_PREF = s.get F.KEEP_BOOT_PREF ∧ t.get F.KEEP_BOOT_TRIAL = s.get F.KEEP_BOOT_TRIAL) ∧
    (b ≠ s.get F.KEEP_STAT_BANK → verifyCommit s (b == 1) = true →
      ∃ t, exec (.imgcommit (.ok c)) s = .next t ∧ answered c p 0 [] s t ∧
        t.on (if b = 1 then F.KEEP_BOOT_VALB else F.KEEP_BOOT_VALA) = true ∧ t.keep.store = s.keep.store ∧
        (∀ r ∈ t.keep.imgWritten, ¬(bankBase (b == 1) ≤ r.1 ∧ r.1 < bankBase (b == 1) + bankSize)) ∧
        (∀ r ∈ s.keep.imgWritten, ¬(bankBase (b == 1) ≤ r.1 ∧ r.1 < bankBase (b == 1) + bankSize) → r ∈ t.keep.imgWritten)) := by
  have hnum : p.op.toNat = 0x25 := by rw [hop]; rfl
  subst hb
  refine ⟨fun hbank => ?_, fun hbank hv => ?_, fun hbank hv => ?_⟩
  · obtain ⟨t, he, ha, hf⟩ := refused_next h (.imgcommit (.ok c)) rfl hnum (opImgcommit_of_booted hle hbank)
    exact ⟨t, he, ha, hf.mem⟩
  · obtain ⟨t, he, ha, hf⟩ := served_next h (.imgcommit (.ok c)) rfl hnum (opImgcommit_of_failing hle hbank hv) rfl
    have hstore : t.keep.store = (imgForget (bytesAt p.payload 0 1 == 1) s).keep.store := congrArg Keep.store hf.keep
    exact ⟨t, he, ha, hf.mem, hstore, hf.get F.KEEP_BOOT_PREF (by decide),
      hf.get F.KEEP_BOOT_TRIAL (by decide)⟩
  · obtain ⟨hhost, hval, hstore, himg⟩ := bankCommitted_frame (bytesAt p.payload 0 1) s
    obtain ⟨t, he, ha, hf⟩ := served_next h (.imgcommit (.ok c)) rfl hnum (opImgcommit_of_verified hle hbank hv) hhost
    have hwritten : t.keep.imgWritten = (imgForget (bytesAt p.payload 0 1 == 1) s).keep.imgWritten :=
      (congrArg Keep.imgWritten hf.keep).trans himg
    have haddr : (bankValid (bytesAt p.payload 0 1)).addr ∉ replyRegs := by
      unfold bankValid
      split <;> decide
    refine ⟨t, he, ha, (hf.on _ haddr).trans hval, (congrArg Keep.store hf.keep).trans hstore, fun r hr => ?_, fun r hr hn => ?_⟩
    · rw [hwritten, mem_imgForget] at hr
      exact hr.2
    · rw [hwritten, mem_imgForget]
      exact ⟨hr, hn⟩

/-- A failed NVM write leaves the record and the key store. -/
theorem imgcommit_nvmFault (h : inTurn c p s) (hop : p.op = 0x25) (hle : bytesAt p.payload 0 1 ≤ 1)
    (hbank : bytesAt p.payload 0 1 ≠ s.get F.KEEP_STAT_BANK) (hv : verifyCommit s (bytesAt p.payload 0 1 == 1) = true) :
    ∃ t, exec (.imgcommit ⟨c, .nvmFault⟩) s = .next t ∧ answered c p 0x85 [] s t ∧ t.mem = s.mem ∧
      t.keep.store = s.keep.store := by
  obtain ⟨t, he, ha, hf⟩ := refused_next h (.imgcommit ⟨c, .nvmFault⟩) (code := 0x85) rfl (by rw [hop]; rfl)
    (by rw [opImgcommit_of_verified hle hbank hv]; rfl)
  exact ⟨t, he, ha, hf.mem, congrArg Keep.store hf.keep⟩

end Sys2Proof.Machine
end

section
/-!
SUPPORT. TIMESET (R509), the challenges with RELEASE and DBGOPEN (R561, R579 to R582), and PWRVOTE (R589).
-/
namespace Sys2Proof.Machine

variable {c : Transport} {p : Packet} {s : State} {l : List Byte}

/-! ## TIMESET -/

/-- The state that TIMESET leaves. -/
def timeSet (sec ns : Nat) (s : State) : State := stepNs (BitVec.ofNat 32 (2 ^ 31 + ns)) (s.put F.TIME_STEPSEC_SEC sec)

theorem opTimeset_of_barred (h : s.on F.TIME_STAT_STEPPED = true ∨ s.on F.TIME_CTRL_MASTER = false) :
    opTimeset l s = no 0x4F s := by
  rcases h with h | h <;> simp [opTimeset, h]

theorem opTimeset_of_fresh (h : s.on F.TIME_STAT_STEPPED = false) (hm : s.on F.TIME_CTRL_MASTER = true)
    (hn : bytesAt l 4 4 ≤ 999999999) : opTimeset l s = ok [] (timeSet (bytesAt l 0 4) (bytesAt l 4 4) s) := by
  simp [opTimeset, h, hm, Nat.not_lt.mpr hn, timeSet]

/-- The clock set once: the second and the nanosecond are those given. -/
theorem timeSet_sets {sec ns : Nat} (h : s.on F.TIME_STAT_STEPPED = false) (hs : sec < 2 ^ 32) (hn : ns ≤ 999999999) :
    (timeSet sec ns s).host = s.host ∧ (timeSet sec ns s).on F.TIME_STAT_STEPPED = true ∧
      (timeSet sec ns s).time.sec.toNat = sec ∧ (timeSet sec ns s).get F.TIME_NS_NS = ns := by
  have hv : (BitVec.ofNat 32 (2 ^ 31 + ns)).toNat = 2 ^ 31 + ns := by rw [BitVec.toNat_ofNat]; omega
  have hbit : bitAt (BitVec.ofNat 32 (2 ^ 31 + ns)).toNat 31 = true := by
    rw [hv, bitAt, beq_iff_eq]; omega
  have hmod : (BitVec.ofNat 32 (2 ^ 31 + ns)).toNat % 2 ^ 30 = ns := by rw [hv]; omega
  have hfresh : (s.put F.TIME_STEPSEC_SEC sec).on F.TIME_STAT_STEPPED = false :=
    (State.on_put_disj s _ _ _ (by decide) (by decide)).trans h
  have hsec : (s.put F.TIME_STEPSEC_SEC sec).get F.TIME_STEPSEC_SEC = sec :=
    (State.get_put_same s F.TIME_STEPSEC_SEC _ (by decide)).trans (Nat.mod_eq_of_lt hs)
  rw [timeSet, stepNs_of_fresh hfresh hbit (by omega), hmod]
  refine ⟨rfl, State.on_put_same _ F.TIME_STAT_STEPPED 1 (by decide), ?_, ?_⟩
  · rw [State.modTime_time, hsec, BitVec.toNat_ofNat]
    exact Nat.mod_eq_of_lt hs
  · rw [State.modTime_get, State.get_put_disj _ F.TIME_STAT_STEPPED F.TIME_NS_NS _ (by decide) (by decide),
      State.get_put_same _ F.TIME_NS_NS _ (by decide)]
    exact Nat.mod_eq_of_lt (by change ns < 2 ^ 30; omega)

theorem timeset_answers (h : inTurn c p s) (hop : p.op = 0x51) :
    (s.on F.TIME_STAT_STEPPED = true ∨ s.on F.TIME_CTRL_MASTER = false →
      ∃ t, exec (.timeset (.ok c)) s = .next t ∧ answered c p 0x4F [] s t ∧ t.time = s.time) ∧
    (s.on F.TIME_STAT_STEPPED = false → s.on F.TIME_CTRL_MASTER = true → bytesAt p.payload 4 4 ≤ 999999999 →
      ∃ t, exec (.timeset (.ok c)) s = .next t ∧ answered c p 0 [] s t ∧ t.on F.TIME_STAT_STEPPED = true ∧
        t.time.sec.toNat = bytesAt p.payload 0 4 ∧ t.get F.TIME_NS_NS = bytesAt p.payload 4 4) := by
  have hnum : p.op.toNat = 0x51 := by rw [hop]; rfl
  refine ⟨fun hs => ?_, fun hs hm hn => ?_⟩
  · obtain ⟨t, he, ha, hf⟩ := refused_next h (.timeset (.ok c)) rfl hnum (opTimeset_of_barred hs)
    exact ⟨t, he, ha, hf.time⟩
  · obtain ⟨hhost, hstep, hsec, hns⟩ := timeSet_sets hs (bytesAt_lt p.payload 0 4) hn
    obtain ⟨t, he, ha, hf⟩ := served_next h (.timeset (.ok c)) rfl hnum (opTimeset_of_fresh hs hm hn) hhost
    refine ⟨t, he, ha, (hf.on _ (by decide)).trans hstep, ?_, (hf.get _ (by decide)).trans hns⟩
    rw [hf.time]
    exact hsec

/-! ## Challenges -/

theorem not_blocked_of_none (s : State) : blocked s none = false := rfl

theorem blocked_of_running {k : Nat} (h : s.tick < k + 200000000) : blocked s (some k) = true := decide_eq_true h

/-- RELCHAL, where the lane is stood down and no refusal runs: a challenge drawn and held. -/
def relChallenged (s : State) : State :=
  ((drawChallenge s).2.put F.KEEP_AUTH_CHALREL 1).modKeep (fun k => { k with relChal := some (drawChallenge s).1 })

/-- DBGCHAL: a challenge drawn and held. -/
def dbgChallenged (s : State) : State :=
  ((drawChallenge s).2.put F.KEEP_AUTH_CHALDBG 1).modKeep (fun k => { k with dbgChal := some (drawChallenge s).1 })

theorem opRelchal_of_not_stood (h : s.on F.KEEP_STAT_STOOD = false) : opRelchal s = no 0x4F s := by
  simp [opRelchal, h]

theorem opRelchal_of_stood (h : s.on F.KEEP_STAT_STOOD = true) (hb : s.keep.relBlock = none) :
    opRelchal s = ok (beBytes 16 (drawChallenge s).1.toNat) (relChallenged s) := by
  simp only [opRelchal, h, hb, not_blocked_of_none, Bool.not_true, Bool.or_false, Bool.false_eq_true, if_false]
  rfl

theorem relchal_answers (h : inTurn c p s) (hop : p.op = 0x72) :
    (s.on F.KEEP_STAT_STOOD = false → ∃ t, exec (.relchal (.ok c)) s = .next t ∧ answered c p 0x4F [] s t) ∧
    (s.on F.KEEP_STAT_STOOD = true → s.keep.relBlock = none →
      ∃ t x, exec (.relchal (.ok c)) s = .next t ∧ answered c p 0 (beBytes 16 x.toNat) s t ∧ t.keep.relChal = some x ∧
        t.on F.KEEP_AUTH_CHALREL = true ∧ t.keep.dbgChal = s.keep.dbgChal) := by
  have hnum : p.op.toNat = 0x72 := by rw [hop]; rfl
  refine ⟨fun hs => ?_, fun hs hb => ?_⟩
  · obtain ⟨t, he, ha, -⟩ := refused_next h (.relchal (.ok c)) rfl hnum (opRelchal_of_not_stood hs)
    exact ⟨t, he, ha⟩
  · obtain ⟨t, he, ha, hf⟩ := served_next h (.relchal (.ok c)) rfl hnum (opRelchal_of_stood hs hb) rfl
    have hon : (relChallenged s).on F.KEEP_AUTH_CHALREL = true :=
      State.on_put_same (drawChallenge s).2 F.KEEP_AUTH_CHALREL 1 (by decide)
    have hkt : t.keep = { s.keep with relChal := some (drawChallenge s).1 } := hf.keep
    exact ⟨t, _, he, ha, by rw [hkt], (hf.on _ (by decide)).trans hon, by rw [hkt]⟩

theorem opDbgchal_of_blocked {k : Nat} (hb : s.keep.dbgBlock = some k) (h : s.tick < k + 200000000) :
    opDbgchal s = no 0x4F s := by
  simp [opDbgchal, hb, blocked_of_running h]

theorem opDbgchal_of_free (hb : s.keep.dbgBlock = none) :
    opDbgchal s = ok (beBytes 16 (drawChallenge s).1.toNat) (dbgChallenged s) := by
  simp only [opDbgchal, hb, not_blocked_of_none, Bool.false_eq_true, if_false]
  rfl

theorem dbgchal_answers (h : inTurn c p s) (hop : p.op = 0x74) :
    (∀ k, s.keep.dbgBlock = some k → s.tick < k + 200000000 →
      ∃ t, exec (.dbgchal (.ok c)) s = .next t ∧ answered c p 0x4F [] s t ∧ t.keep.dbgChal = s.keep.dbgChal) ∧
    (s.keep.dbgBlock = none →
      ∃ t x, exec (.dbgchal (.ok c)) s = .next t ∧ answered c p 0 (beBytes 16 x.toNat) s t ∧ t.keep.dbgChal = some x ∧
        t.on F.KEEP_AUTH_CHALDBG = true) := by
  have hnum : p.op.toNat = 0x74 := by rw [hop]; rfl
  refine ⟨fun k hb hk => ?_, fun hb => ?_⟩
  · obtain ⟨t, he, ha, hf⟩ := refused_next h (.dbgchal (.ok c)) rfl hnum (opDbgchal_of_blocked hb hk)
    exact ⟨t, he, ha, congrArg Keep.dbgChal hf.keep⟩
  · obtain ⟨t, he, ha, hf⟩ := served_next h (.dbgchal (.ok c)) rfl hnum (opDbgchal_of_free hb) rfl
    have hon : (dbgChallenged s).on F.KEEP_AUTH_CHALDBG = true :=
      State.on_put_same (drawChallenge s).2 F.KEEP_AUTH_CHALDBG 1 (by decide)
    exact ⟨t, _, he, ha, congrArg Keep.dbgChal hf.keep, (hf.on _ (by decide)).trans hon⟩

/-- What a signature verifies against: the key store and the strap word. -/
theorem challengeOk_congr {s t : State} (hk : t.keep.store = s.keep.store) (hw : t.get F.SEAL_STRAP_WORD = s.get F.SEAL_STRAP_WORD)
    (purpose : Byte) (x : BitVec 128) (l : List Byte) : challengeOk purpose x l t = challengeOk purpose x l s := by
  simp only [challengeOk, hk, hw]

/-- A counter below its greatest value counts one. -/
theorem State.sat_of_lt {f : Fld} (h : s.get f < 2 ^ f.w - 1) : s.sat f = s.put f (s.get f + 1) := by
  rw [State.sat, if_neg (by omega)]

/-- A counter counted leaves its neighbours. -/
theorem State.on_sat_disj (s : State) (f g : Fld) (hg : g.lo + g.w ≤ 32) (h : f.disj g = true) : (s.sat f).on g = s.on g := by
  unfold State.sat
  split
  · rfl
  · exact State.on_put_disj s f g _ hg h

theorem State.sat_host (s : State) (f : Fld) : (s.sat f).host = s.host := by
  unfold State.sat
  split <;> rfl

/-! ## RELEASE -/

/-- The release challenge consumed by its answer. -/
def relConsumed (s : State) : State := (s.put F.KEEP_AUTH_CHALREL 0).modKeep (fun k => { k with relChal := none })

/-- The lane released. -/
def released (s : State) : State :=
  (s.put F.KEEP_FAIL_NFAIL 0).modKeep (fun k => { k with stood := false, failTimes := [], releasing := true })

/-- A signature that fails, counted, with the wait after it. -/
def relFailed (s : State) : State := (s.sat F.KEEP_AUTH_RELFAIL).modKeep (fun k => { k with relBlock := some s.tick })

theorem challengeOk_relConsumed (purpose : Byte) (x : BitVec 128) (l : List Byte) (s : State) :
    challengeOk purpose x l (relConsumed s) = challengeOk purpose x l s := by
  have hw : (relConsumed s).get F.SEAL_STRAP_WORD = s.get F.SEAL_STRAP_WORD := by
    rw [relConsumed, State.modKeep_get, State.get_put_disj s F.KEEP_AUTH_CHALREL F.SEAL_STRAP_WORD _ (by decide) (by decide)]
  have hk : (relConsumed s).keep.store = s.keep.store := rfl
  exact challengeOk_congr hk hw purpose x l

theorem opRelease_of_none (h : s.on F.KEEP_STAT_STOOD = true) (hx : s.keep.relChal = none) : opRelease l s = no 0x51 s := by
  simp [opRelease, h, hx]

theorem opRelease_of_some {x : BitVec 128} (h : s.on F.KEEP_STAT_STOOD = true) (hx : s.keep.relChal = some x) :
    opRelease l s = if challengeOk 0x52 x l s = true then ok [] (released (relConsumed s)) else no 0x51 (relFailed (relConsumed s)) := by
  rw [← challengeOk_relConsumed]
  simp only [opRelease, h, hx, Bool.not_true, Bool.false_eq_true, if_false]
  rfl

theorem relConsumed_chalrel (s : State) : (relConsumed s).on F.KEEP_AUTH_CHALREL = false :=
  State.on_put_same s F.KEEP_AUTH_CHALREL 0 (by decide)

theorem relConsumed_relfail (s : State) : (relConsumed s).get F.KEEP_AUTH_RELFAIL = s.get F.KEEP_AUTH_RELFAIL :=
  State.get_put_disj s F.KEEP_AUTH_CHALREL F.KEEP_AUTH_RELFAIL _ (by decide) (by decide)

theorem release_answers (h : inTurn c p s) (hop : p.op = 0x73) (hst : s.on F.KEEP_STAT_STOOD = true) :
    (s.keep.relChal = none →
      ∃ t, exec (.releaseStandDown (.ok c)) s = .next t ∧ answered c p 0x51 [] s t ∧ t.keep.stood = s.keep.stood) ∧
    (∀ x, s.keep.relChal = some x → ∃ t, exec (.releaseStandDown (.ok c)) s = .next t ∧ t.keep.relChal = none ∧
      t.on F.KEEP_AUTH_CHALREL = false ∧
      (challengeOk 0x52 x p.payload s = true →
        answered c p 0 [] s t ∧ t.keep.stood = false ∧ t.keep.releasing = true ∧ t.keep.failTimes = []) ∧
      (challengeOk 0x52 x p.payload s = false →
        answered c p 0x51 [] s t ∧ t.keep.stood = s.keep.stood ∧ t.keep.relBlock = some s.tick ∧
        (s.get F.KEEP_AUTH_RELFAIL < 255 → t.get F.KEEP_AUTH_RELFAIL = s.get F.KEEP_AUTH_RELFAIL + 1))) := by
  have hnum : p.op.toNat = 0x73 := by rw [hop]; rfl
  refine ⟨fun hx => ?_, fun x hx => ?_⟩
  · obtain ⟨t, he, ha, hf⟩ := refused_next h (.releaseStandDown (.ok c)) rfl hnum (opRelease_of_none hst hx)
    exact ⟨t, he, ha, congrArg Keep.stood hf.keep⟩
  · by_cases hok : challengeOk 0x52 x p.payload s = true
    · obtain ⟨t, he, ha, hf⟩ := served_next h (.releaseStandDown (.ok c)) rfl hnum
        ((opRelease_of_some hst hx).trans (if_pos hok)) rfl
      have hon : (released (relConsumed s)).on F.KEEP_AUTH_CHALREL = false :=
        (State.on_put_disj (relConsumed s) F.KEEP_FAIL_NFAIL F.KEEP_AUTH_CHALREL _ (by decide) (by decide)).trans
          (relConsumed_chalrel s)
      refine ⟨t, he, congrArg Keep.relChal hf.keep, (hf.on _ (by decide)).trans hon, fun _ => ?_, fun hno => nomatch hok.symm.trans hno⟩
      exact ⟨ha, congrArg Keep.stood hf.keep, congrArg Keep.releasing hf.keep, congrArg Keep.failTimes hf.keep⟩
    · obtain ⟨t, he, ha, hf⟩ := served_next h (.releaseStandDown (.ok c)) rfl hnum
        ((opRelease_of_some hst hx).trans (if_neg hok)) (State.sat_host (relConsumed s) _)
      have hon : (relFailed (relConsumed s)).on F.KEEP_AUTH_CHALREL = false :=
        (State.on_sat_disj (relConsumed s) F.KEEP_AUTH_RELFAIL F.KEEP_AUTH_CHALREL (by decide) (by decide)).trans
          (relConsumed_chalrel s)
      have hkeep : (relFailed (relConsumed s)).keep = { (relConsumed s).keep with relBlock := some s.tick } := by
        simp only [relFailed, State.sat]
        split <;> rfl
      have hkt : t.keep = { (relConsumed s).keep with relBlock := some s.tick } := hf.keep.trans hkeep
      refine ⟨t, he, congrArg Keep.relChal hkt, (hf.on _ (by decide)).trans hon, fun hyes => absurd hyes hok, fun _ => ?_⟩
      refine ⟨ha, by rw [hkt]; rfl, by rw [hkt], fun hlt => ?_⟩
      have hlt' : (relConsumed s).get F.KEEP_AUTH_RELFAIL < 255 := (relConsumed_relfail s).trans_lt hlt
      have hget : (relFailed (relConsumed s)).get F.KEEP_AUTH_RELFAIL = ((relConsumed s).get F.KEEP_AUTH_RELFAIL + 1) % 2 ^ 8 := by
        rw [relFailed, State.modKeep_get, State.sat_of_lt hlt']
        exact State.get_put_same _ F.KEEP_AUTH_RELFAIL _ (by decide)
      have hmod : ((relConsumed s).get F.KEEP_AUTH_RELFAIL + 1) % 2 ^ 8 = (relConsumed s).get F.KEEP_AUTH_RELFAIL + 1 :=
        Nat.mod_eq_of_lt (by omega)
      rw [hf.get _ (by decide), ← relConsumed_relfail s, ← hmod, ← hget]
      rfl

/-! ## DBGOPEN -/

/-- The debug challenge consumed by its answer. -/
def dbgConsumed (s : State) : State := (s.put F.KEEP_AUTH_CHALDBG 0).modKeep (fun k => { k with dbgChal := none })

/-- Debug open. -/
def dbgOpened (s : State) : State :=
  followVotes (showMeasures ((s.put F.KEEP_STAT_DBGOPEN 1).modKeep (fun k => { k with dbgOpened := true })))

/-- A signature that fails, counted, with the wait after it. -/
def dbgFailed (s : State) : State := (s.sat F.KEEP_AUTH_DBGFAIL).modKeep (fun k => { k with dbgBlock := some s.tick })

theorem challengeOk_dbgConsumed (purpose : Byte) (x : BitVec 128) (l : List Byte) (s : State) :
    challengeOk purpose x l (dbgConsumed s) = challengeOk purpose x l s := by
  have hw : (dbgConsumed s).get F.SEAL_STRAP_WORD = s.get F.SEAL_STRAP_WORD := by
    rw [dbgConsumed, State.modKeep_get, State.get_put_disj s F.KEEP_AUTH_CHALDBG F.SEAL_STRAP_WORD _ (by decide) (by decide)]
  have hk : (dbgConsumed s).keep.store = s.keep.store := rfl
  exact challengeOk_congr hk hw purpose x l

theorem opDbgopen_of_none (hx : s.keep.dbgChal = none) : opDbgopen l s = no 0x51 s := by
  simp [opDbgopen, hx]

theorem opDbgopen_of_some {x : BitVec 128} (hx : s.keep.dbgChal = some x) :
    opDbgopen l s = if challengeOk 0x44 x l s = true then ok [] (dbgOpened (dbgConsumed s)) else no 0x51 (dbgFailed (dbgConsumed s)) := by
  rw [← challengeOk_dbgConsumed]
  simp only [opDbgopen, hx]
  rfl

theorem dbgConsumed_chaldbg (s : State) : (dbgConsumed s).on F.KEEP_AUTH_CHALDBG = false :=
  State.on_put_same s F.KEEP_AUTH_CHALDBG 0 (by decide)

theorem dbgConsumed_dbgopen (s : State) : (dbgConsumed s).on F.KEEP_STAT_DBGOPEN = s.on F.KEEP_STAT_DBGOPEN :=
  State.on_put_disj s F.KEEP_AUTH_CHALDBG F.KEEP_STAT_DBGOPEN _ (by decide) (by decide)

/-- The keeper, the transports and the two flags as debug opens: votes and measurements stand elsewhere. -/
theorem dbgOpened_frame (s : State) : (dbgOpened s).host = s.host ∧ (dbgOpened s).keep = { s.keep with dbgOpened := true } ∧
    (dbgOpened s).on F.KEEP_STAT_DBGOPEN = true ∧ (dbgOpened s).on F.KEEP_AUTH_CHALDBG = s.on F.KEEP_AUTH_CHALDBG := by
  obtain ⟨u, hu⟩ : ∃ u, u = (s.put F.KEEP_STAT_DBGOPEN 1).modKeep (fun k => { k with dbgOpened := true }) := ⟨_, rfl⟩
  have hm := aside_showMeasures u
  have hv := aside_followVotes (showMeasures u)
  have hflag : ∀ f : Fld, f.addr < 0x4001F100 → f.addr ∉ followedRegs → (dbgOpened s).on f = u.on f := fun f h h' => by
    rw [dbgOpened, ← hu, hv.on h', hm.on h]
  refine ⟨?_, ?_, ?_, ?_⟩
  · rw [dbgOpened, ← hu, hv.host, hm.host, hu]; rfl
  · rw [dbgOpened, ← hu, hv.keep, hm.keep, hu]; rfl
  · rw [hflag _ (by decide) (by decide), hu]
    exact State.on_put_same s F.KEEP_STAT_DBGOPEN 1 (by decide)
  · rw [hflag _ (by decide) (by decide), hu]
    exact State.on_put_disj s F.KEEP_STAT_DBGOPEN F.KEEP_AUTH_CHALDBG _ (by decide) (by decide)

theorem dbgopen_answers (h : inTurn c p s) (hop : p.op = 0x75) :
    (s.keep.dbgChal = none →
      ∃ t, exec (.dbgopen (.ok c)) s = .next t ∧ answered c p 0x51 [] s t ∧
        t.on F.KEEP_STAT_DBGOPEN = s.on F.KEEP_STAT_DBGOPEN) ∧
    (∀ x, s.keep.dbgChal = some x → ∃ t, exec (.dbgopen (.ok c)) s = .next t ∧ t.keep.dbgChal = none ∧
      t.on F.KEEP_AUTH_CHALDBG = false ∧
      (challengeOk 0x44 x p.payload s = true →
        answered c p 0 [] s t ∧ t.on F.KEEP_STAT_DBGOPEN = true ∧ t.keep.dbgOpened = true) ∧
      (challengeOk 0x44 x p.payload s = false →
        answered c p 0x51 [] s t ∧ t.on F.KEEP_STAT_DBGOPEN = s.on F.KEEP_STAT_DBGOPEN ∧ t.keep.dbgBlock = some s.tick)) := by
  have hnum : p.op.toNat = 0x75 := by rw [hop]; rfl
  refine ⟨fun hx => ?_, fun x hx => ?_⟩
  · obtain ⟨t, he, ha, hf⟩ := refused_next h (.dbgopen (.ok c)) rfl hnum (opDbgopen_of_none hx)
    exact ⟨t, he, ha, hf.on _ (by decide)⟩
  · by_cases hok : challengeOk 0x44 x p.payload s = true
    · obtain ⟨hhost, hkeep, hopen, hchal⟩ := dbgOpened_frame (dbgConsumed s)
      obtain ⟨t, he, ha, hf⟩ := served_next h (.dbgopen (.ok c)) rfl hnum ((opDbgopen_of_some hx).trans (if_pos hok)) hhost
      have hkt : t.keep = { (dbgConsumed s).keep with dbgOpened := true } := hf.keep.trans hkeep
      refine ⟨t, he, congrArg Keep.dbgChal hkt, ?_, fun _ => ⟨ha, ?_, congrArg Keep.dbgOpened hkt⟩, fun hno => nomatch hok.symm.trans hno⟩
      · exact (hf.on _ (by decide)).trans (hchal.trans (dbgConsumed_chaldbg s))
      · exact (hf.on _ (by decide)).trans hopen
    · obtain ⟨t, he, ha, hf⟩ := served_next h (.dbgopen (.ok c)) rfl hnum ((opDbgopen_of_some hx).trans (if_neg hok))
        (State.sat_host (dbgConsumed s) _)
      have hflag : ∀ f : Fld, f.lo + f.w ≤ 32 → F.KEEP_AUTH_DBGFAIL.disj f = true → f.addr ∉ replyRegs →
          t.on f = (dbgConsumed s).on f := fun f hw hd hr =>
        (hf.on f hr).trans (State.on_sat_disj (dbgConsumed s) F.KEEP_AUTH_DBGFAIL f hw hd)
      have hkeep : (dbgFailed (dbgConsumed s)).keep = { (dbgConsumed s).keep with dbgBlock := some s.tick } := by
        simp only [dbgFailed, State.sat]
        split <;> rfl
      have hkt : t.keep = { (dbgConsumed s).keep with dbgBlock := some s.tick } := hf.keep.trans hkeep
      refine ⟨t, he, congrArg Keep.dbgChal hkt, ?_, fun hyes => absurd hyes hok, fun _ => ⟨ha, ?_, congrArg Keep.dbgBlock hkt⟩⟩
      · exact (hflag _ (by decide) (by decide) (by decide)).trans (dbgConsumed_chaldbg s)
      · exact (hflag _ (by decide) (by decide) (by decide)).trans (dbgConsumed_dbgopen s)

/-! ## PWRVOTE -/

/-- The HOST nibble of the deepest permitted state `n`. -/
theorem closeDown_of_depth {n : Nat} (h : n ≤ 4) : closeDown (2 ^ (4 - n) - 1) = 2 ^ (4 - n) - 1 := by
  interval_cases n <;> decide

theorem setNibble_one_get (m : Nat) (s : State) :
    (setNibble 1 m s).get F.PWR_VOTE_VOTE / 16 % 16 = closeDown m ∧
      (setNibble 1 m s).get F.PWR_VOTE_VOTE % 16 = s.get F.PWR_VOTE_VOTE % 16 ∧
      (setNibble 1 m s).get F.PWR_VOTE_VOTE / 256 = s.get F.PWR_VOTE_VOTE / 256 := by
  have hv : s.get F.PWR_VOTE_VOTE < 2 ^ 24 := s.get_lt _
  have hm : closeDown m ≤ 15 := by
    unfold closeDown
    split_ifs <;> omega
  have hget : (setNibble 1 m s).get F.PWR_VOTE_VOTE =
      (s.get F.PWR_VOTE_VOTE - s.get F.PWR_VOTE_VOTE / 16 % 16 * 16 + closeDown m * 16) % 2 ^ 24 := by
    rw [setNibble, Nat.pow_one]
    exact State.get_put_same s F.PWR_VOTE_VOTE _ (by decide)
  rw [hget]
  omega

/-- A vote of HOST: its nibble set, no other one. -/
theorem hostVote_of_depth {n : Nat} (h : n ≤ 4) (s : State) :
    (hostVote .s (2 ^ (4 - n) - 1) s).host = s.host ∧
      (hostVote .s (2 ^ (4 - n) - 1) s).get F.PWR_VOTE_VOTE / 16 % 16 = 2 ^ (4 - n) - 1 ∧
      (hostVote .s (2 ^ (4 - n) - 1) s).get F.PWR_VOTE_VOTE % 16 = s.get F.PWR_VOTE_VOTE % 16 ∧
      (hostVote .s (2 ^ (4 - n) - 1) s).get F.PWR_VOTE_VOTE / 256 = s.get F.PWR_VOTE_VOTE / 256 := by
  obtain ⟨u, hu⟩ : ∃ u, u = (setNibble 1 (2 ^ (4 - n) - 1) s).put F.PWR_HOSTVOTE_HOLD (closeDown (2 ^ (4 - n) - 1)) := ⟨_, rfl⟩
  have hvote : hostVote .s (2 ^ (4 - n) - 1) s = followVotes u := by rw [hostVote, if_pos rfl, hu]
  have ha := aside_followVotes u
  have hget : u.get F.PWR_VOTE_VOTE = (setNibble 1 (2 ^ (4 - n) - 1) s).get F.PWR_VOTE_VOTE := by
    rw [hu]
    exact State.get_put_disj _ F.PWR_HOSTVOTE_HOLD F.PWR_VOTE_VOTE _ (by decide) (by decide)
  have hset := setNibble_one_get (2 ^ (4 - n) - 1) s
  rw [closeDown_of_depth h] at hset
  rw [hvote, ha.get (by decide), hget]
  exact ⟨ha.host.trans (hu ▸ rfl), hset⟩

/-- The answer of a vote: the power state in force. -/
def voted (n : Nat) (s : State) : Answer :=
  ok [BitVec.ofNat 8 ((hostVote .s (2 ^ (4 - n) - 1) s).get F.PWR_STAT_STATE)] (hostVote .s (2 ^ (4 - n) - 1) s)

theorem opPwrvote_of_too_deep (h : 4 < bytesAt l 0 1) : opPwrvote l s = no 0x43 s := by
  simp [opPwrvote, h]

theorem opPwrvote_of_starting (h : bytesAt l 0 1 ≤ 4) (hs : s.keep.start.isSome = true ∨ s.keep.failWait = true) :
    opPwrvote l s = no 0x4F s := by
  rcases hs with hs | hs <;> simp [opPwrvote, Nat.not_lt.mpr h, hs]

theorem opPwrvote_of_free (h : bytesAt l 0 1 ≤ 4) (hs : s.keep.start = none) (hw : s.keep.failWait = false) :
    opPwrvote l s = voted (bytesAt l 0 1) s := by
  simp [opPwrvote, Nat.not_lt.mpr h, hs, hw, voted]

theorem pwrvote_answers (h : inTurn c p s) (hop : p.op = 0x81) {n : Nat} (hn : n = bytesAt p.payload 0 1) :
    (4 < n → ∃ t, exec (.pwrvote (.ok c)) s = .next t ∧ answered c p 0x43 [] s t ∧ t.get F.PWR_VOTE_VOTE = s.get F.PWR_VOTE_VOTE) ∧
    (n ≤ 4 → s.keep.start.isSome = true ∨ s.keep.failWait = true →
      ∃ t, exec (.pwrvote (.ok c)) s = .next t ∧ answered c p 0x4F [] s t) ∧
    (n ≤ 4 → s.keep.start = none → s.keep.failWait = false → ∃ t, exec (.pwrvote (.ok c)) s = .next t ∧
      t.get F.PWR_VOTE_VOTE / 16 % 16 = 2 ^ (4 - n) - 1 ∧ t.get F.PWR_VOTE_VOTE % 16 = s.get F.PWR_VOTE_VOTE % 16 ∧
      t.get F.PWR_VOTE_VOTE / 256 = s.get F.PWR_VOTE_VOTE / 256 ∧
      answered c p 0 [BitVec.ofNat 8 (t.get F.PWR_STAT_STATE)] s t) := by
  have hnum : p.op.toNat = 0x81 := by rw [hop]; rfl
  subst hn
  refine ⟨fun hle => ?_, fun hle hs => ?_, fun hle hs hw => ?_⟩
  · obtain ⟨t, he, ha, hf⟩ := refused_next h (.pwrvote (.ok c)) rfl hnum (opPwrvote_of_too_deep hle)
    exact ⟨t, he, ha, hf.get _ (by decide)⟩
  · obtain ⟨t, he, ha, -⟩ := refused_next h (.pwrvote (.ok c)) rfl hnum (opPwrvote_of_starting hle hs)
    exact ⟨t, he, ha⟩
  · obtain ⟨hhost, hnib, hlow, hhigh⟩ := hostVote_of_depth hle s
    obtain ⟨t, he, ha, hf⟩ := served_next h (.pwrvote (.ok c)) rfl hnum (opPwrvote_of_free hle hs hw) hhost
    have hget : ∀ f : Fld, f.addr ∉ replyRegs → t.get f = (hostVote .s (2 ^ (4 - bytesAt p.payload 0 1) - 1) s).get f := hf.get
    refine ⟨t, he, ?_, ?_, ?_, ?_⟩
    · rw [hget _ (by decide), hnib]
    · rw [hget _ (by decide), hlow]
    · rw [hget _ (by decide), hhigh]
    · rw [hget _ (by decide)]
      exact ha

end Sys2Proof.Machine
end

section
/-!
SUPPORT. RESARM and RESCONFIRM (R435): the ARM, its CONFIRM, and the clearing edge that V issues (R432).
-/
namespace Sys2Proof.Machine

variable {c : Transport} {p : Packet} {s : State} {l : List Byte}

/-- V running, a resume command is executed as any opcode is. -/
theorem toV_of_runs (h : inTurn c p s) {n : Nat} (hop : p.op.toNat = n) (hv : s.sys.vRuns = true) {e : ServiceEnd}
    (act : List Byte → State → Answer) : toV ⟨c, e⟩ n act s = serve ⟨c, e⟩ (isOp n) act s := by
  have hnext : nextPacket s c (isOp n) = some p := nextPacket_of_inTurn h (by simp [isOp, hop])
  simp only [toV, hnext, hv, Bool.true_or, if_true]

/-! ## RESARM -/

/-- The token drawn. -/
def armToken (c : Transport) (s : State) : ArmToken := ⟨s.free.setWidth 16, chanIx c, false⟩

/-- An ARM held and shown. -/
def armed (c : Transport) (s : State) : State :=
  (s.drew.put F.SAFE_STAT_ARMED 1).modSafe (fun x => { x with armed := some (armToken c s) })

theorem opResarm_of_clear (h : s.on F.SAFE_STAT_CUT = false) : opResarm c s = no 0x4F s := by
  simp [opResarm, h]

theorem opResarm_of_cut (h : s.on F.SAFE_STAT_CUT = true) :
    opResarm c s = ok (leBytes 2 (armToken c s).token.toNat) (armed c s) := by
  simp only [opResarm, h, Bool.not_true, Bool.false_eq_true, if_false]
  rfl

theorem resarm_answers (h : inTurn c p s) (hop : p.op = 0x40) (hv : s.sys.vRuns = true) :
    (s.on F.SAFE_STAT_CUT = false →
      ∃ t, exec (.resarm (.ok c)) s = .next t ∧ answered c p 0x4F [] s t ∧ t.safe.armed = s.safe.armed) ∧
    (s.on F.SAFE_STAT_CUT = true → ∃ t a, exec (.resarm (.ok c)) s = .next t ∧ answered c p 0 (leBytes 2 a.token.toNat) s t ∧
      t.safe.armed = some a ∧ a.via = chanIx c ∧ a.late = false ∧ t.on F.SAFE_STAT_ARMED = true ∧ t.on F.SAFE_STAT_CUT = true) := by
  have hnum : p.op.toNat = 0x40 := by rw [hop]; rfl
  have hexec : exec (.resarm (.ok c)) s = .next (serve ⟨c, .done⟩ (isOp 0x40) (fun _ s => opResarm c s) s) :=
    congrArg Host.Outcome.next (toV_of_runs h hnum hv _)
  refine ⟨fun hcut => ?_, fun hcut => ?_⟩
  · obtain ⟨t, he, ha, hf⟩ := refused_next h (.resarm (.ok c)) hexec hnum (opResarm_of_clear hcut)
    exact ⟨t, he, ha, congrArg Safe.armed hf.safe⟩
  · obtain ⟨t, he, ha, hf⟩ := served_next h (.resarm (.ok c)) hexec hnum (opResarm_of_cut hcut) rfl
    have harm : (armed c s).on F.SAFE_STAT_ARMED = true := State.on_put_same s.drew F.SAFE_STAT_ARMED 1 (by decide)
    have hkeep : (armed c s).on F.SAFE_STAT_CUT = s.on F.SAFE_STAT_CUT :=
      State.on_put_disj s.drew F.SAFE_STAT_ARMED F.SAFE_STAT_CUT _ (by decide) (by decide)
    exact ⟨t, armToken c s, he, ha, congrArg Safe.armed hf.safe, rfl, rfl, (hf.on _ (by decide)).trans harm,
      (hf.on _ (by decide)).trans (hkeep.trans hcut)⟩

/-! ## The clearing edge (R432) -/

/-- The rows of SAFE_CUT: every field acts, none stores. -/
def cutRows : List Row :=
  [⟨0x008, 1, 0, 0, 1, .wo, 0, 0, 1, false⟩, ⟨0x008, 1, 0, 1, 4, .wo, 0, 0, 0xf, false⟩,
    ⟨0x008, 1, 0, 8, 1, .wo, 0, 0, 1, false⟩, ⟨0x008, 1, 0, 12, 1, .wo, 0, 0, 1, false⟩]

theorem rowsAt_cut : rowsAt safeCutAddr = cutRows := by decide +kernel

/-- A write of SAFE_CUT with CLR alone is the clearing edge. -/
theorem safeCutWrite_clear (s : State) : safeCutWrite 0x100 s = clearingEdge (s.wr safeCutAddr (s.rd safeCutAddr)) := by
  have hrange : outOfRange s safeCutAddr 0x100 = false := by
    simp only [outOfRange, rowsAt_cut, cutRows, List.any_cons, List.any_nil, fieldFate]
    decide
  have hmerged : merged s safeCutAddr 0x100 = s.rd safeCutAddr := by
    simp only [merged, rowsAt_cut, cutRows, List.foldl_cons, List.foldl_nil, writeField, fieldFate]
  have hforb : ∀ m, forbidden s safeCutAddr 0x100 m = false := fun m => rfl
  have hdisc : fieldDiscarded s safeCutAddr 0x100 = false := by
    simp only [fieldDiscarded, rowsAt_cut, cutRows, List.any_cons, List.any_nil, fieldFate]
    rfl
  have hstore : regStore safeCutAddr 0x100 s = some (s.wr safeCutAddr (s.rd safeCutAddr)) := by
    simp only [regStore, hrange, hforb, hmerged, hdisc, Bool.or_false, Bool.false_eq_true, if_false]
    rw [rowsAt_cut]
    rfl
  rw [safeCutWrite, regWriteWith, hstore]
  rfl

/-- The latch cleared, before a solo lane takes the lead. -/
def latchCleared (s : State) : State :=
  let u := (s.put F.SAFE_STAT_CUT 0).countBit F.SAFE_CNT_CLRCNT F.SAFE_CNT_OVF 1
  (u.put F.SAFE_STAT_ARMED 0).modSafe (fun x => { x with armed := none })
    |>.modCont (fun c => { c with cutSignal := false, ready := c.ready || u.on F.KEEP_STAT_READY })
    |>.modJtag (fun j => { j with drive := .normal })

/-- What a CONFIRM answered with a code leaves: no ARM, and the latch cleared by code 0 alone. -/
structure ConfirmEnd (s : State) (code : Nat) (u : State) : Prop where
  host : u.host = s.host
  unarmed : u.safe.armed = none
  shown : u.on F.SAFE_STAT_ARMED = false
  kept : code ≠ 0 → u.on F.SAFE_STAT_CUT = s.on F.SAFE_STAT_CUT
  cleared : code = 0 → u.on F.SAFE_STAT_CUT = false

/-- A refused CONFIRM cancels the ARM. -/
theorem confirmEnd_armCancelled {code : Nat} (h : code ≠ 0) (s : State) : ConfirmEnd s code (armCancelled s) where
  host := rfl
  unarmed := rfl
  shown := State.on_put_same s F.SAFE_STAT_ARMED 0 (by decide)
  kept _ := State.on_put_disj s F.SAFE_STAT_ARMED F.SAFE_STAT_CUT _ (by decide) (by decide)
  cleared h0 := absurd h0 h

theorem State.countBit_host (s : State) (f g : Fld) (i : Nat) : (s.countBit f g i).host = s.host := by
  unfold State.countBit
  split <;> rfl

theorem State.countBit_rd_other (s : State) {f g : Fld} (i : Nat) {a : Nat} (hf : a ≠ f.addr) (hg : a ≠ g.addr) :
    (s.countBit f g i).rd a = s.rd a := by
  unfold State.countBit
  split
  · exact State.rd_put_other s g _ hg
  · exact State.rd_put_other s f _ hf

theorem latchCleared_host (s : State) : (latchCleared s).host = s.host :=
  State.countBit_host (s.put F.SAFE_STAT_CUT 0) _ _ _

theorem latchCleared_shown (s : State) : (latchCleared s).on F.SAFE_STAT_ARMED = false :=
  State.on_put_same ((s.put F.SAFE_STAT_CUT 0).countBit F.SAFE_CNT_CLRCNT F.SAFE_CNT_OVF 1) F.SAFE_STAT_ARMED 0 (by decide)

theorem latchCleared_cut (s : State) : (latchCleared s).on F.SAFE_STAT_CUT = false := by
  have hcount : ((s.put F.SAFE_STAT_CUT 0).countBit F.SAFE_CNT_CLRCNT F.SAFE_CNT_OVF 1).on F.SAFE_STAT_CUT = false := by
    have hput : (s.put F.SAFE_STAT_CUT 0).on F.SAFE_STAT_CUT = false := State.on_put_same s F.SAFE_STAT_CUT 0 (by decide)
    exact (congrArg (fun w => F.SAFE_STAT_CUT.read w == 1)
      (State.countBit_rd_other (s.put F.SAFE_STAT_CUT 0) 1 (by decide) (by decide))).trans hput
  exact (State.on_put_disj ((s.put F.SAFE_STAT_CUT 0).countBit F.SAFE_CNT_CLRCNT F.SAFE_CNT_OVF 1) F.SAFE_STAT_ARMED
    F.SAFE_STAT_CUT _ (by decide) (by decide)).trans hcount

/-- A clearing edge with no cause left clears the latch. -/
theorem confirmEnd_clearCut {s u : State} (h : ConfirmEnd s 1 u) : ConfirmEnd s 0 (clearCut u) := by
  cases hcut : u.on F.SAFE_STAT_CUT with
  | true =>
    have hsolo : clearCut u = soloLead (latchCleared u) := by
      rw [clearCut, hcut]
      rfl
    have ha := aside_soloLead (latchCleared u)
    rw [hsolo]
    exact ⟨ha.host.trans ((latchCleared_host u).trans h.host), congrArg Safe.armed ha.safe,
      (ha.on (by decide)).trans (latchCleared_shown u), fun h0 => absurd rfl h0,
      fun _ => (ha.on (by decide)).trans (latchCleared_cut u)⟩
  | false =>
    have hsame : clearCut u = u := by rw [clearCut, hcut]; rfl
    rw [hsame]
    exact ⟨h.host, h.unarmed, h.shown, fun h0 => absurd rfl h0, fun _ => hcut⟩

/-- A word written back to SAFE_CUT shows nowhere else. -/
theorem on_wr_cut (s : State) (v : Word) {f : Fld} (h : f.addr ≠ safeCutAddr) : (s.wr safeCutAddr v).on f = s.on f :=
  congrArg (fun w => f.read w == 1) (State.rd_wr_other s v h)

/-- V's clearing edge for a CONFIRM that holds: refused while a cause stands. -/
theorem confirmEnd_safeCutWrite (s : State) :
    ConfirmEnd s (if s.get F.SAFE_CAUSE_CAUSE = 0 then 0 else 0x4B) (safeCutWrite 0x100 (armCancelled s)) := by
  have h := confirmEnd_armCancelled (code := 1) Nat.one_ne_zero s
  obtain ⟨u, hu⟩ : ∃ u, u = (armCancelled s).wr safeCutAddr ((armCancelled s).rd safeCutAddr) := ⟨_, rfl⟩
  have hend : ConfirmEnd s 1 u := by
    rw [hu]
    exact ⟨h.host, h.unarmed, (on_wr_cut _ _ (by decide)).trans h.shown, fun h1 => (on_wr_cut _ _ (by decide)).trans (h.kept h1),
      fun h1 => absurd h1 Nat.one_ne_zero⟩
  have hcause : u.get F.SAFE_CAUSE_CAUSE = s.get F.SAFE_CAUSE_CAUSE := by
    have hrd : u.rd F.SAFE_CAUSE_CAUSE.addr = s.rd F.SAFE_CAUSE_CAUSE.addr := by
      rw [hu, State.rd_wr_other _ _ (by decide)]
      exact State.rd_put_other s F.SAFE_STAT_ARMED 0 (by decide)
    exact congrArg F.SAFE_CAUSE_CAUSE.read hrd
  rw [safeCutWrite_clear, ← hu, clearingEdge, hcause]
  split
  · exact confirmEnd_clearCut hend
  · exact ⟨hend.host, hend.unarmed, (State.on_put_disj u F.SAFE_STAT_RESREF F.SAFE_STAT_ARMED _ (by decide) (by decide)).trans hend.shown,
      fun _ => (State.on_put_disj u F.SAFE_STAT_RESREF F.SAFE_STAT_CUT _ (by decide) (by decide)).trans (hend.kept Nat.one_ne_zero),
      fun h0 => absurd h0 (by decide)⟩

/-! ## RESCONFIRM -/

/-- The code that answers a CONFIRM of an outstanding ARM. -/
def confirmCode (c : Transport) (l : List Byte) (a : ArmToken) (s : State) : Nat :=
  if a.via ≠ chanIx c then 0x48
  else if a.late then 0x4A
  else if a.token.toNat ≠ bytesAt l 0 2 then 0x49
  else if s.get F.SAFE_CAUSE_CAUSE = 0 then 0 else 0x4B

theorem opResconfirm_of_none (h : s.safe.armed = none) : opResconfirm c l s = no 0x48 s := by
  simp [opResconfirm, h]

theorem opResconfirm_of_armed {a : ArmToken} (h : s.safe.armed = some a) :
    ∃ u, opResconfirm c l s = ⟨confirmCode c l a s, [], u⟩ ∧ ConfirmEnd s (confirmCode c l a s) u := by
  have hcause : (armCancelled s).get F.SAFE_CAUSE_CAUSE = s.get F.SAFE_CAUSE_CAUSE :=
    State.get_put_disj s F.SAFE_STAT_ARMED F.SAFE_CAUSE_CAUSE _ (by decide) (by decide)
  unfold confirmCode
  simp only [opResconfirm, h, hcause]
  split
  · exact ⟨_, rfl, confirmEnd_armCancelled (by decide) s⟩
  · split
    · exact ⟨_, rfl, confirmEnd_armCancelled (by decide) s⟩
    · split
      · exact ⟨_, rfl, confirmEnd_armCancelled (by decide) s⟩
      · refine ⟨_, ?_, confirmEnd_safeCutWrite s⟩
        by_cases hclean : s.get F.SAFE_CAUSE_CAUSE = 0
        · simp only [hclean, decide_true, if_true]
          rfl
        · simp only [hclean, decide_false, if_false, Bool.false_eq_true]
          rfl

theorem resconfirm_answers (h : inTurn c p s) (hop : p.op = 0x41) (hv : s.sys.vRuns = true) :
    (s.safe.armed = none →
      ∃ t, exec (.resconfirm (.ok c)) s = .next t ∧ answered c p 0x48 [] s t ∧ t.on F.SAFE_STAT_CUT = s.on F.SAFE_STAT_CUT) ∧
    (∀ a, s.safe.armed = some a → ∃ t, exec (.resconfirm (.ok c)) s = .next t ∧
      answered c p (confirmCode c p.payload a s) [] s t ∧ t.safe.armed = none ∧ t.on F.SAFE_STAT_ARMED = false ∧
      (confirmCode c p.payload a s ≠ 0 → t.on F.SAFE_STAT_CUT = s.on F.SAFE_STAT_CUT) ∧
      (confirmCode c p.payload a s = 0 → t.on F.SAFE_STAT_CUT = false)) := by
  have hnum : p.op.toNat = 0x41 := by rw [hop]; rfl
  have hexec : exec (.resconfirm (.ok c)) s = .next (serve ⟨c, .done⟩ (isOp 0x41) (opResconfirm c) s) :=
    congrArg Host.Outcome.next (toV_of_runs h hnum hv _)
  refine ⟨fun hnone => ?_, fun a ha => ?_⟩
  · obtain ⟨t, he, hans, hf⟩ := refused_next h (.resconfirm (.ok c)) hexec hnum (opResconfirm_of_none hnone)
    exact ⟨t, he, hans, hf.on _ (by decide)⟩
  · obtain ⟨u, hu, hend⟩ := opResconfirm_of_armed (c := c) (l := p.payload) ha
    obtain ⟨t, he, hans, hf⟩ := served_next h (.resconfirm (.ok c)) hexec hnum hu hend.host
    have hon : ∀ f : Fld, f.addr ∉ replyRegs → t.on f = u.on f := hf.on
    exact ⟨t, he, hans, (congrArg Safe.armed hf.safe).trans hend.unarmed, (hon _ (by decide)).trans hend.shown,
      fun h0 => (hon _ (by decide)).trans (hend.kept h0), fun h0 => (hon _ (by decide)).trans (hend.cleared h0)⟩

end Sys2Proof.Machine
end

section
/-!
SUPPORT. The opcodes passed to the application (R540): a request put behind those accepted before it, and written into the mailbox
where that is free.
-/
namespace Sys2Proof.Machine

variable {c : Transport} {p : Packet} {s : State}

/-! ## A request marked as passed on -/

/-- The head of a transport marked as passed on. -/
def marked (c : Transport) (s : State) : State :=
  modChannel c (fun x => match x.waiting with
    | [] => x
    | p :: rest => { x with waiting := { p with posted := true } :: rest }) s

theorem channel_marked_same {rest : List Packet} (h : (channel s c).waiting = p :: rest) :
    channel (marked c s) c = { channel s c with waiting := { p with posted := true } :: rest } := by
  rw [marked, channel_modChannel_same, h]

theorem channel_marked_other {d : Transport} (h : d ≠ c) : channel (marked c s) d = channel s d :=
  channel_modChannel_other h _ s

/-- The mark leaves the order of acceptance. -/
theorem headOrder_marked {rest : List Packet} (h : (channel s c).waiting = p :: rest) (j : Fin 3) :
    headOrder (marked c s) j = headOrder s j := by
  unfold headOrder
  by_cases hj : chanOfIx j = c
  · rw [hj, channel_marked_same h, h]
  · rw [channel_marked_other hj]

/-- Behind requests accepted before it a transport comes last. -/
theorem mboxInsert_last {i : Fin 3} {l : List (Fin 3)} (h : ∀ j ∈ l, headOrder s j ≤ headOrder s i) :
    mboxInsert s i l = l ++ [i] := by
  induction l with
  | nil => rfl
  | cons j l ih =>
    have hj : ¬ headOrder s i < headOrder s j := Nat.not_lt.mpr (h j List.mem_cons_self)
    rw [mboxInsert, if_neg hj, ih (fun k hk => h k (List.mem_cons_of_mem _ hk)), List.cons_append]

/-- A transport's head passed on, behind all the requests that wait. -/
def queued (c : Transport) (s : State) : State :=
  (marked c s).modHost (fun h => { h with mbox := s.host.mbox ++ [chanIx c] })

theorem post_of_latest {rest : List Packet} (hw : (channel s c).waiting = p :: rest)
    (h : ∀ j ∈ s.host.mbox, headOrder s j ≤ headOrder s (chanIx c)) (busy : Bool) : post busy c s = queued c s := by
  have h' : ∀ j ∈ s.host.mbox, headOrder (marked c s) j ≤ headOrder (marked c s) (chanIx c) := by
    simpa only [headOrder_marked hw] using h
  have hmbox : (marked c s).host.mbox = s.host.mbox := rfl
  have hlist : (match busy, (marked c s).host.mbox with
      | true, i :: rest => i :: mboxInsert (marked c s) (chanIx c) rest
      | _, l => mboxInsert (marked c s) (chanIx c) l) = s.host.mbox ++ [chanIx c] := by
    rw [hmbox]
    split
    · next i l hm =>
      rw [hm] at h' ⊢
      rw [mboxInsert_last (fun j hj => h' j (List.mem_cons_of_mem _ hj)), List.cons_append]
    · exact mboxInsert_last h'
  exact congrArg (fun l => (marked c s).modHost (fun h => { h with mbox := l })) hlist

theorem mayPost_of_inTurn (h : inTurn c p s) (hop : p.op.toNat ∈ passedOps) : mayPost s c = true := by
  obtain ⟨-, -, -, -, href⟩ := id h
  rw [mayPost, nextPacket_of_inTurn h (op := passedOps.contains) (List.contains_iff_mem.mpr hop)]
  simp only [href, Option.isNone_none]

/-- Of the transports one has a request to pass on. -/
theorem filter_mayPost (hc : mayPost s c = true)
    (hd : ∀ d ∈ ([.spi, .c0, .c1] : List Transport), d ≠ c → mayPost s d = false) :
    ([.spi, .c0, .c1] : List Transport).filter (mayPost s) = [c] := by
  cases c
  · simp [hc, hd .c0, hd .c1]
  · simp [hc, hd .spi, hd .c1]
  · simp [hc, hd .spi, hd .c0]

/-- A request in turn passed on: queued, and written where the mailbox is free. -/
theorem pass_of_inTurn (h : inTurn c p s) {n : Nat} (hn : p.op.toNat = n) (hop : n ∈ passedOps)
    (hd : ∀ d ∈ ([.spi, .c0, .c1] : List Transport), d ≠ c → mayPost s d = false)
    (ho : ∀ j ∈ s.host.mbox, headOrder s j ≤ headOrder s (chanIx c)) :
    pass (.ok c) n s = if s.host.mbox.isEmpty then mboxNext (queued c s) else queued c s := by
  subst hn
  obtain ⟨hhead, -, -, -, href⟩ := id h
  obtain ⟨rest, hrest⟩ := List.head?_eq_some_iff.mp hhead
  have hnext : nextPacket s c (isOp p.op.toNat) = some p := nextPacket_of_inTurn h (by simp [isOp])
  have hheads : postHeads (!s.host.mbox.isEmpty) s = queued c s := by
    rw [postHeads, filter_mayPost (mayPost_of_inTurn h hop) hd, List.foldl_cons, List.foldl_nil, post_of_latest hrest ho]
  have hend : (ServiceEnd.done = ServiceEnd.internal) = False := by simp
  simp only [pass, Call.ok, hnext, href, hheads, hend, if_false]

/-! ## The mailbox written (R540) -/

theorem State.mem_irqs_raise (s : State) (i : Irq) : i ∈ (s.raise i).irqs := by
  unfold State.raise
  split
  · assumption
  · exact List.mem_cons_self

/-- A request in the mailbox: its opcode, length, transport and payload, and REQSEQ incremented. -/
def requestWritten (c : Transport) (op : Byte) (payload : List Byte) (s : State) : State :=
  (((s.setBytes (mboxBase s + 4) [op, BitVec.ofNat 8 payload.length, BitVec.ofNat 8 (chanIx c).val]).setBytes (mboxBase s + 8)
    payload).setMemWord (mboxBase s) (s.memWord (mboxBase s) + 1)).raise .mailbox

theorem requestWritten_host (c : Transport) (op : Byte) (payload : List Byte) (s : State) :
    (requestWritten c op payload s).host = s.host := by
  rw [requestWritten, State.raise_host, State.setMemWord, State.setBytes_host, State.setBytes_host, State.setBytes_host]

/-- The mailbox as the application finds it. -/
theorem requestWritten_mem {op : Byte} {payload : List Byte} (hlen : payload.length ≤ 247)
    (hb : s.get F.HOST_MBOX_ADDR + 512 ≤ 0x300000) :
    (requestWritten c op payload s).memWord (mboxBase s) = s.memWord (mboxBase s) + 1 ∧
      (requestWritten c op payload s).byte (mboxBase s + 4) = op ∧
      ((requestWritten c op payload s).byte (mboxBase s + 5)).toNat = payload.length ∧
      ((requestWritten c op payload s).byte (mboxBase s + 6)).toNat = (chanIx c).val ∧
      (requestWritten c op payload s).bytes (mboxBase s + 8) payload.length = payload := by
  have hmem : ∀ k, mboxBase s ≤ k → k < mboxBase s + 512 → isMemory k = true := fun k h1 h2 => by
    unfold mboxBase at h1 h2
    exact isMemory_sram (by omega) (by omega)
  obtain ⟨head, hhead⟩ : ∃ u, u = s.setBytes (mboxBase s + 4) [op, BitVec.ofNat 8 payload.length, BitVec.ofNat 8 (chanIx c).val] :=
    ⟨_, rfl⟩
  obtain ⟨body, hbody⟩ : ∃ u, u = head.setBytes (mboxBase s + 8) payload := ⟨_, rfl⟩
  have hwritten : (requestWritten c op payload s).mem =
      (body.setMemWord (mboxBase s) (s.memWord (mboxBase s) + 1)).mem := by
    rw [requestWritten, State.raise_mem, hbody, hhead]
  have hbytes : head.bytes (mboxBase s + 4) 3 = [op, BitVec.ofNat 8 payload.length, BitVec.ofNat 8 (chanIx c).val] := by
    rw [hhead]
    exact State.bytes_setBytes_same s (l := [op, BitVec.ofNat 8 payload.length, BitVec.ofNat 8 (chanIx c).val])
      (fun k h1 h2 => hmem k (by omega) (by rw [List.length_cons, List.length_cons, List.length_cons, List.length_nil] at h2; omega))
  have hbyte : ∀ k, mboxBase s + 4 ≤ k → k < mboxBase s + 8 → (requestWritten c op payload s).byte k = head.byte k := by
    intro k h1 h2
    have hm : (requestWritten c op payload s).byte k = (body.setMemWord (mboxBase s) (s.memWord (mboxBase s) + 1)).byte k :=
      congrArg (Tab.get blankByte · k) hwritten
    rw [hm, State.setMemWord, State.byte_setBytes_other _ _ _ _ (by rw [leBytes_length]; omega), hbody,
      State.byte_setBytes_other _ _ _ _ (by omega)]
  simp only [State.bytes, List.cons.injEq, and_true] at hbytes
  obtain ⟨h4, h5, h6⟩ := hbytes
  refine ⟨?_, ?_, ?_, ?_, ?_⟩
  · have hword : (requestWritten c op payload s).memWord (mboxBase s) =
        (body.setMemWord (mboxBase s) (s.memWord (mboxBase s) + 1)).memWord (mboxBase s) := by
      rw [State.memWord, State.memWord, State.bytes_of_mem hwritten]
    rw [hword]
    exact State.memWord_setMemWord_same body _ (fun k h1 h2 => hmem k h1 (by omega))
  · rw [hbyte _ (by omega) (by omega), h4]
  · rw [hbyte _ (by omega) (by omega), h5, BitVec.toNat_ofNat]
    exact Nat.mod_eq_of_lt (by omega)
  · have hix := (chanIx c).isLt
    rw [hbyte _ (by omega) (by omega), h6, BitVec.toNat_ofNat]
    exact Nat.mod_eq_of_lt (by omega)
  · rw [State.bytes_of_mem hwritten, State.setMemWord,
      State.bytes_setBytes_other _ _ (.inr (by rw [leBytes_length]; omega)), hbody]
    exact State.bytes_setBytes_same head (fun k h1 h2 => hmem k (by omega) (by omega))

/-! ## A request passed on -/

/-- What a request passed on leaves: it stands last of those that wait, unanswered; in a free mailbox it is written at once. -/
def requestPosted (c : Transport) (p : Packet) (s t : State) : Prop :=
  t.host.mbox = s.host.mbox ++ [chanIx c] ∧ (channel t c).replies = (channel s c).replies ∧ heldOn t c = heldOn s c ∧
    (s.host.mbox = [] → .mailbox ∈ t.irqs) ∧
    (s.host.mbox = [] → s.get F.HOST_MBOX_ADDR + 512 ≤ 0x300000 →
      t.memWord (mboxBase s) = s.memWord (mboxBase s) + 1 ∧ t.byte (mboxBase s + 4) = p.op ∧
      (t.byte (mboxBase s + 5)).toNat = p.payload.length ∧ (t.byte (mboxBase s + 6)).toNat = (chanIx c).val ∧
      t.bytes (mboxBase s + 8) p.payload.length = p.payload) ∧
    (s.host.mbox ≠ [] → t.mem = s.mem)

theorem channel_queued {rest : List Packet} (h : (channel s c).waiting = p :: rest) :
    channel (queued c s) c = { channel s c with waiting := { p with posted := true } :: rest } :=
  channel_marked_same h

theorem heldOn_queued {rest : List Packet} (h : (channel s c).waiting = p :: rest) : heldOn (queued c s) c = heldOn s c := by
  rw [heldOn, heldOn, channel_queued h, h]
  rfl

/-- The mailbox free, the request queued is written at once. -/
theorem mboxNext_queued {rest : List Packet} (h : (channel s c).waiting = p :: rest) (hm : s.host.mbox = []) :
    mboxNext (queued c s) = requestWritten c p.op p.payload (queued c s) := by
  have hmbox : (queued c s).host.mbox = [chanIx c] := by
    change s.host.mbox ++ [chanIx c] = _
    rw [hm, List.nil_append]
  simp only [mboxNext, hmbox, chanOfIx_chanIx, mboxWrite, channel_queued h]
  rfl

theorem passed_len (h : inTurn c p s) (hop : p.op.toNat ∈ passedOps) : p.payload.length ≤ 247 := by
  obtain ⟨-, -, -, -, href⟩ := id h
  have hmax : ∀ op ∈ passedOps, (opLen op).2 ≤ 247 := by decide
  exact (len_of_refusal_none href).2.trans (hmax _ hop)

theorem pass_posts (h : inTurn c p s) {i : Instr} {n : Nat} (hi : exec i s = .next (pass (.ok c) n s)) (hn : p.op.toNat = n)
    (hop : n ∈ passedOps) (hlast : (∀ d ∈ ([.spi, .c0, .c1] : List Transport), d ≠ c → mayPost s d = false) ∧
      ∀ j ∈ s.host.mbox, headOrder s j ≤ headOrder s (chanIx c)) :
    ∃ t, exec i s = .next t ∧ requestPosted c p s t := by
  obtain ⟨hd, ho⟩ := hlast
  obtain ⟨rest, hrest⟩ := List.head?_eq_some_iff.mp h.1
  refine ⟨_, hi, ?_⟩
  rw [pass_of_inTurn h hn hop hd ho]
  have hreplies : (channel (queued c s) c).replies = (channel s c).replies := by rw [channel_queued hrest]
  by_cases hm : s.host.mbox = []
  · have hhost := requestWritten_host c p.op p.payload (queued c s)
    rw [if_pos (List.isEmpty_iff.mpr hm), mboxNext_queued hrest hm]
    refine ⟨congrArg HostIf.mbox hhost, ?_, ?_, fun _ => State.mem_irqs_raise _ _, fun _ haddr => ?_, fun hne => absurd hm hne⟩
    · rw [channel_congr hhost, hreplies]
    · rw [heldOn_congr (channel_congr hhost c), heldOn_queued hrest]
    · exact requestWritten_mem (s := queued c s) (passed_len h (hn ▸ hop)) haddr
  · rw [if_neg (fun he => hm (List.isEmpty_iff.mp he))]
    exact ⟨rfl, hreplies, heldOn_queued hrest, fun he => absurd he hm, fun he => absurd he hm, fun _ => rfl⟩

/-- A fault of the service firmware (R543): nothing is passed on. -/
theorem pass_internal (h : inTurn c p s) {i : Instr} {n : Nat} (hi : exec i s = .next (pass ⟨c, .internal⟩ n s))
    (hn : p.op.toNat = n) :
    ∃ t, exec i s = .next t ∧ answered c p 0x86 [] s t ∧ t.mem = s.mem ∧ t.host.mbox = s.host.mbox := by
  subst hn
  obtain ⟨hhead, -, -, -, href⟩ := id h
  have hnext : nextPacket s c (isOp p.op.toNat) = some p := nextPacket_of_inTurn h (by simp [isOp])
  have hpass : pass ⟨c, .internal⟩ p.op.toNat s = settle c (answerHead c 0x86 [] s) := by
    simp only [pass, hnext, href, if_true]
  have hf := (served_answerHead c 0x86 [] s).frame.trans (served_settle c _).frame
  exact ⟨_, hpass ▸ hi, answered_settle hhead rfl _ _, hf.mem, hf.mbox⟩

end Sys2Proof.Machine
end

section
/-!
PROOFS. The opcodes that act: each clause is the answer of its opcode.
-/
namespace Sys2Proof.Machine

variable {c : Transport} {p : Packet} {s : State}

/-! ## A fault of the service firmware (R543) -/

theorem writereg_internal (h : inTurn c p s) (hop : p.op = 0x20) : ∃ t, exec (.writereg ⟨c, .internal⟩) s = .next t ∧
    answered c p 0x86 [] s t ∧ t.mem = s.mem ∧ t.get F.HOST_MBOX_ADDR = s.get F.HOST_MBOX_ADDR := by
  obtain ⟨t, he, ha, hf⟩ := refused_next h (.writereg ⟨c, .internal⟩) (code := 0x86) rfl (by rw [hop]; rfl) rfl
  exact ⟨t, he, ha, hf.mem, hf.get _ (by decide)⟩

theorem imgload_internal (h : inTurn c p s) (hop : p.op = 0x24) : ∃ t, exec (.imgload ⟨c, .internal⟩) s = .next t ∧
    answered c p 0x86 [] s t ∧ t.mem = s.mem ∧ t.keep.store = s.keep.store := by
  obtain ⟨t, he, ha, hf⟩ := refused_next h (.imgload ⟨c, .internal⟩) (code := 0x86) rfl (by rw [hop]; rfl) rfl
  exact ⟨t, he, ha, hf.mem, congrArg Keep.store hf.keep⟩

theorem timeset_internal (h : inTurn c p s) (hop : p.op = 0x51) : ∃ t, exec (.timeset ⟨c, .internal⟩) s = .next t ∧
    answered c p 0x86 [] s t ∧ t.time = s.time := by
  obtain ⟨t, he, ha, hf⟩ := refused_next h (.timeset ⟨c, .internal⟩) (code := 0x86) rfl (by rw [hop]; rfl) rfl
  exact ⟨t, he, ha, hf.time⟩

/-! ## The code of a CONFIRM (R435) -/

theorem confirmCode_of_other {l : List Byte} {a : ArmToken} (h : a.via ≠ chanIx c) : confirmCode c l a s = 0x48 := by
  simp [confirmCode, h]

theorem confirmCode_of_late {l : List Byte} {a : ArmToken} (h : a.via = chanIx c) (hl : a.late = true) :
    confirmCode c l a s = 0x4A := by
  simp [confirmCode, h, hl]

theorem confirmCode_of_wrong {l : List Byte} {a : ArmToken} (h : a.via = chanIx c) (hl : a.late = false)
    (ht : a.token.toNat ≠ bytesAt l 0 2) : confirmCode c l a s = 0x49 := by
  simp [confirmCode, h, hl, ht]

theorem confirmCode_of_right {l : List Byte} {a : ArmToken} (h : a.via = chanIx c) (hl : a.late = false)
    (ht : a.token.toNat = bytesAt l 0 2) :
    confirmCode c l a s = if s.get F.SAFE_CAUSE_CAUSE = 0 then 0 else 0x4B := by
  simp [confirmCode, h, hl, ht]

end Sys2Proof.Machine

open Sys2Proof.Machine in
/-- Settles O55: an opcode that S executes is answered with what it answers and leaves its state (`served_next`); one of the
application is put last of those that wait for the mailbox (`pass_posts`). -/
theorem opcodesThatAct : Obligations.OpcodesThatAct := by
  refine ⟨fun s c p h => open_answers h.1 h.2, fun s c p h => close_answers h.1 h.2,
    fun s c p a h => writereg_answers h.1 h.2.1 h.2.2, fun s c p off h => cfgload_answers h.1 h.2.1 h.2.2,
    fun s c p h => ⟨fun hop hin => cfgload_nvmFault h hop hin, fun hop hs => cfgcommit_nvmFault h hop hs,
      fun hop hle hb hv => imgcommit_nvmFault h hop hle hb hv, fun hop => writereg_internal h hop, fun hop => imgload_internal h hop,
      fun hop => pass_internal h rfl (by rw [hop]; rfl), fun hop => timeset_internal h hop⟩,
    fun s c p h => cfgcommit_answers h.1 h.2, fun s c p b off a h hle => ?_, fun s c p b h => ?_,
    fun s c p h hlast => ?_, fun s c p h hlast => ?_, fun s c p h hlast => ?_, fun s c p h hlast => ?_, fun s c p h hlast => ?_,
    fun s c p h hlast => ?_, fun s c p h hlast => ?_, fun s c p h => ?_, fun s c p h => ?_,
    fun s c p h => timeset_answers h.1 h.2, fun s c p h => relchal_answers h.1 h.2, fun s c p h => dbgchal_answers h.1 h.2,
    fun s c p h => ?_, fun s c p h => dbgopen_answers h.1 h.2, fun s c p n h => pwrvote_answers h.1 h.2.1 h.2.2⟩
  · obtain ⟨hturn, hop, hb, hoff, ha⟩ := h
    exact imgload_answers hturn hop hb hoff ha hle
  · obtain ⟨hturn, hop, hb, hle⟩ := h
    exact imgcommit_answers hturn hop hb hle
  · exact pass_posts h.1 (n := 0x21) rfl (by rw [h.2]; rfl) (by decide) hlast
  · exact pass_posts h.1 (n := 0x30) rfl (by rw [h.2]; rfl) (by decide) hlast
  · exact pass_posts h.1 (n := 0x31) rfl (by rw [h.2]; rfl) (by decide) hlast
  · exact pass_posts h.1 (n := 0x32) rfl (by rw [h.2]; rfl) (by decide) hlast
  · exact pass_posts h.1 (n := 0x33) rfl (by rw [h.2]; rfl) (by decide) hlast
  · exact pass_posts h.1 (n := 0x34) rfl (by rw [h.2]; rfl) (by decide) hlast
  · exact pass_posts h.1 (n := 0x42) rfl (by rw [h.2]; rfl) (by decide) hlast
  · obtain ⟨hturn, hop, hv⟩ := h
    exact resarm_answers hturn hop hv
  · obtain ⟨hturn, hop, hv⟩ := h
    obtain ⟨hnone, hsome⟩ := resconfirm_answers hturn hop hv
    refine ⟨hnone, fun a ha => ?_⟩
    obtain ⟨t, he, hans, hun, hshown, hkept, hclear⟩ := hsome a ha
    exact ⟨t, _, he, hans, hun, hshown, confirmCode_of_other, confirmCode_of_late, confirmCode_of_wrong,
      fun h1 h2 h3 h4 => (confirmCode_of_right h1 h2 h3).trans (if_neg h4),
      fun h1 h2 h3 h4 => (confirmCode_of_right h1 h2 h3).trans (if_pos h4), fun h0 hcut => (hkept h0).trans hcut, hclear⟩
  · obtain ⟨hturn, hop, hst⟩ := h
    exact release_answers hturn hop hst
end

section
/-!
SUPPORT. A CONT frame of the cycle before this lane's at a qualified stand-in (R390, R391): it is late, so it is not copied, but it is
compared with what the lane kept of its own cycle, which starts or continues a run of miscompares.
-/
namespace Sys2Proof.Machine

/-- A command of a block that the PLL clocks has its meaning while the PLL runs. -/
theorem clockedOut_of_running {s : State} (h : coreStopped s = false) (o : Out) : clockedOut s o = o := by
  simp [clockedOut, h]

/-- A qualified stand-in of the set's cycle 1 that sees lane 1 lead. -/
def standInOfCycleOne : State :=
  ((((State.reset.put (F.EBP_CTRL_EN 1) 1).put F.CONT_STAT_ROLE 1).put F.CONT_STAT_QUAL 1).put (F.CONT_PEER_ROLE 1) 2).put
    F.CONT_CYC_CYC 1

/-- Lane 1's CONT frame of cycle 0 without its CRC: D 0, and SPSEQ 1 where the lane kept 0 of that cycle. -/
def lateFrameBody : EbpFrame :=
  { src := 1, seq := 0, setId := 0, len := 8, crc := 0, payload := List.replicate 12 0 ++ [1] ++ List.replicate 19 0 }

def lateFrame : EbpFrame := { lateFrameBody with crc := frameCrc 7 lateFrameBody }

theorem lateFrame_fresh :
    freshFrame 1 7 (32 + 4 * standInOfCycleOne.get F.CONT_CFCFG_NST) lateFrame 1 standInOfCycleOne := by
  decide +kernel

/-- The frame's cycle is the one before the lane's. -/
theorem lateFrame_other_cycle : bytesAt lateFrame.payload 0 2 ≠ standInOfCycleOne.get F.CONT_CYC_CYC := by
  decide +kernel

/-- The late frame is compared (R391): its SPSEQ is not the lane's, and the lane counts one miscompare. -/
theorem lateFrame_compared :
    standInOfCycleOne.cont.misRun = 0 ∧ (contIn 1 lateFrame standInOfCycleOne).cont.misRun = 1 := by
  decide +kernel

/-- While the PLL runs the command is the frame's reception. -/
theorem exec_contFrameReceived_of_running {s : State} (h : coreStopped s = false) (e : Port) (f : EbpFrame) :
    exec (.contFrameReceived e f) s = .next (contIn e f s) :=
  clockedOut_of_running h _

end Sys2Proof.Machine

open Sys2Proof Sys2Proof.Machine in
/-- Refutes O44: its clause on a CONT frame of another cycle has the run of miscompares unchanged, but a frame of the cycle before the
lane's is compared on arrival (R391). A qualified stand-in of cycle 1 that takes the lead's frame of cycle 0 with another SPSEQ than
its own counts a miscompare. -/
theorem not_framesReceived : ¬ Obligations.FramesReceived := by
  intro h
  obtain ⟨-, -, -, -, -, -, -, -, -, -, -, -, -, -, -, hcont, -⟩ := h
  have hruns : coreStopped standInOfCycleOne = false := by decide +kernel
  obtain ⟨-, hother⟩ := hcont standInOfCycleOne 1 lateFrame 1 hruns lateFrame_fresh (by decide +kernel)
  obtain ⟨t, hexec, -, -, hrun⟩ := hother lateFrame_other_cycle
  obtain rfl := Host.Outcome.next.inj ((exec_contFrameReceived_of_running hruns 1 lateFrame).symm.trans hexec)
  obtain ⟨hbefore, hafter⟩ := lateFrame_compared
  exact absurd (hafter.symm.trans (hrun.trans hbefore)) (by decide)
end

section
/-!
SUPPORT. What the reactions of the gate drive, the MC blocks and CONT leave alone: a state is another one but for listed register
fields, with the driver die's own inner state and the BEAT counts of the ports kept.
-/
namespace Sys2Proof.Machine

/-- Every field that shares no bit with a listed one, the driver die's inner state and the ports' BEAT counts are as they were. -/
structure ButFor (A : List Fld) (u t : State) : Prop where
  kept : ∀ g : Fld, g.lo + g.w ≤ 32 → (∀ f ∈ A, f.disj g = true) → t.get g = u.get g
  driver : t.driver = u.driver
  beats : ∀ e : Port, t.ebp[e.val].beats = u.ebp[e.val].beats

namespace ButFor
variable {A : List Fld} {u s t : State}

theorem refl (s : State) : ButFor A s s := ⟨fun _ _ _ => rfl, rfl, fun _ => rfl⟩

/-- A state that differs in other blocks only. -/
theorem upd (h : ButFor A u s) (hr : t.regs = s.regs) (hd : t.driver = s.driver) (he : t.ebp = s.ebp) : ButFor A u t where
  kept g hg hA := (congrArg (fun r => g.read (Tab.get resetWord r g.addr)) hr).trans (h.kept g hg hA)
  driver := hd.trans h.driver
  beats e := by rw [he]; exact h.beats e

theorem put (h : ButFor A u s) {f : Fld} (hf : f ∈ A) (v : Nat) : ButFor A u (s.put f v) where
  kept g hg hA := (State.get_put_disj s f g v hg (hA f hf)).trans (h.kept g hg hA)
  driver := h.driver
  beats := h.beats

theorem putB (h : ButFor A u s) {f : Fld} (hf : f ∈ A) (b : Bool) : ButFor A u (s.putB f b) := h.put hf _
theorem putBit (h : ButFor A u s) {f : Fld} (hf : f ∈ A) (i : Nat) (b : Bool) : ButFor A u (s.putBit f i b) := h.put hf _
theorem inc (h : ButFor A u s) {f : Fld} (hf : f ∈ A) : ButFor A u (s.inc f) := h.put hf _

theorem ite {c : Prop} [Decidable c] (hs : ButFor A u s) (ht : ButFor A u t) : ButFor A u (if c then s else t) := by
  split <;> assumption

theorem when (h : ButFor A u s) {f : State → State} (hf : ButFor A u (f s)) (c : Bool) : ButFor A u (s.when c f) := ite hf h

theorem countBit (h : ButFor A u s) {f g : Fld} (hf : f ∈ A) (hg : g ∈ A) (i : Nat) : ButFor A u (s.countBit f g i) :=
  ite (h.putBit hg i true) (h.put hf _)

theorem foldl {β : Type} {f : State → β → State} (hf : ∀ s x, ButFor A u s → ButFor A u (f s x)) (l : List β) (h : ButFor A u s) :
    ButFor A u (l.foldl f s) := by
  induction l generalizing s with
  | nil => exact h
  | cons x l ih => exact ih (hf s x h)

theorem modMc (h : ButFor A u s) (b : Bridge) (f : Mc → Mc) : ButFor A u (s.modMc b f) := h.upd rfl rfl rfl
theorem modGate (h : ButFor A u s) (b : Bridge) (f : GateBridge → GateBridge) : ButFor A u (s.modGate b f) := h.upd rfl rfl rfl
theorem modCont (h : ButFor A u s) (f : Cont → Cont) : ButFor A u (s.modCont f) := h.upd rfl rfl rfl
theorem modLines (h : ButFor A u s) (f : Lines → Lines) : ButFor A u (s.modLines f) := h.upd rfl rfl rfl
theorem modBkg (h : ButFor A u s) (f : Bkg → Bkg) : ButFor A u (s.modBkg f) := h.upd rfl rfl rfl

theorem setMemWord (h : ButFor A u s) (a : Nat) (v : Word) : ButFor A u (s.setMemWord a v) := by
  obtain ⟨m, hm⟩ := State.setBytes_eq s a (leBytes 4 v.toNat)
  rw [State.setMemWord, hm]
  exact h.upd rfl rfl rfl

/-- A port's part changed with its BEAT count kept. -/
theorem modEbp (h : ButFor A u s) (e : Port) {f : Ebp → Ebp} (hf : ∀ x, (f x).beats = x.beats) : ButFor A u (s.modEbp e f) where
  kept := h.kept
  driver := h.driver
  beats d := by
    refine Eq.trans ?_ (h.beats d)
    by_cases hd : e = d
    · subst hd
      rw [State.modEbp, upd_same, hf]
    · exact congrArg Ebp.beats (upd_other s.ebp f hd)

theorem trans {v : State} (h : ButFor A u s) (h' : ButFor A s v) : ButFor A u v where
  kept g hg hA := (h'.kept g hg hA).trans (h.kept g hg hA)
  driver := h'.driver.trans h.driver
  beats e := (h'.beats e).trans (h.beats e)

theorem mono {B : List Fld} (h : ButFor A u s) (hAB : ∀ f ∈ A, f ∈ B) : ButFor B u s where
  kept g hg hB := h.kept g hg (fun f hf => hB f (hAB f hf))
  driver := h.driver
  beats := h.beats

theorem get (h : ButFor A u s) (g : Fld) (hg : g.lo + g.w ≤ 32 := by clear * -; decide +revert)
    (hA : ∀ f ∈ A, f.disj g = true := by clear * -; decide +revert) : s.get g = u.get g :=
  h.kept g hg hA

theorem on (h : ButFor A u s) (g : Fld) (hg : g.lo + g.w ≤ 32 := by clear * -; decide +revert)
    (hA : ∀ f ∈ A, f.disj g = true := by clear * -; decide +revert) : s.on g = u.on g :=
  congrArg (· == 1) (h.kept g hg hA)

end ButFor

/-! ## The command lines of a bridge and its switches -/

/-- The fields that follow a bridge's command lines and switches. -/
def gateFlds (b : Bridge) : List Fld :=
  [F.GD_GW_ON b, F.GD_GW_CMD b, F.GD_STAT_XON b, F.GD_STAT_ASACT b, F.GD_CNT0_XONCNT b, F.GD_CNT0_OVF b]

section
variable {A : List Fld} {u s : State} (h : ButFor A u s) (b : Bridge) (hA : ∀ f ∈ gateFlds b, f ∈ A)
include h

theorem butFor_modGateSw (j : Switch) (f : Gate → Gate) : ButFor A u (modGateSw b j f s) := h.modGate b _

include hA

theorem butFor_showOn (j : Switch) (on : Bool) : ButFor A u (showOn b j on s) :=
  (h.when (butFor_modGateSw h b j _) _).putBit (hA _ (by simp [gateFlds])) _ _

theorem butFor_turnOffSw (j : Switch) (short : Bool) : ButFor A u (turnOffSw b j short s) :=
  butFor_modGateSw (h.when (butFor_showOn h b hA j true) _) b j _

theorem butFor_restSwitch (j : Switch) : ButFor A u (restSwitch b j s) :=
  ButFor.ite h (butFor_turnOffSw h b hA j false)

omit hA in
theorem butFor_startSwitch (j : Switch) : ButFor A u (startSwitch b j s) :=
  ButFor.ite h (ButFor.ite (butFor_modGateSw h b j _) (butFor_modGateSw h b j _))

omit hA in
theorem butFor_noteEdges (old cmd : Nat) : ButFor A u (noteEdges b old cmd s) :=
  (ButFor.foldl (fun _ j hs => ButFor.ite (butFor_modGateSw hs b j _) hs) _ h).modMc b _

theorem butFor_driveBridge : ButFor A u (driveBridge b s) :=
  (ButFor.foldl (fun _ j hs => butFor_startSwitch hs b j) _
    (ButFor.foldl (fun _ j hs => butFor_restSwitch hs b hA j) _ h)).putB (hA _ (by simp [gateFlds])) _

theorem butFor_takeCommands (cmd : Nat) : ButFor A u (takeCommands b cmd s) :=
  butFor_driveBridge (ButFor.foldl
    (fun _ _ hs => (hs.put (hA _ (by simp [gateFlds])) _).countBit (hA _ (by simp [gateFlds])) (hA _ (by simp [gateFlds])) _) _
    ((butFor_noteEdges h b _ cmd).put (hA _ (by simp [gateFlds])) _)) b hA

theorem butFor_requestShort (on : Bool) : ButFor A u (requestShort b on s) :=
  ButFor.ite (h.modMc b _) (butFor_takeCommands (h.modMc b _) b hA _)

end

/-! ## Frames sent, withdrawing, the six-phase law -/

/-- The fields that CONT changes when the lane withdraws, the set is degraded, or a six-phase law ends. -/
def withdrawFlds : List Fld := [F.CONT_STAT_JOINED, F.CONT_STAT_SETSTATE, F.EBP_FRAMES_TXOK 0, F.EBP_FRAMES_TXOK 1]

theorem txok_mem_withdrawFlds : ∀ e : Port, F.EBP_FRAMES_TXOK e ∈ withdrawFlds := by decide

section
variable {A : List Fld} {u s : State} (h : ButFor A u s) (hA : ∀ f ∈ withdrawFlds, f ∈ A)
include h hA

theorem butFor_sendOn (ty : Nat) (f : EbpFrame) (e : Port) : ButFor A u (sendOn ty f e s) := by
  unfold sendOn
  exact ButFor.ite (.inc (h.modEbp e (by intro; rfl)) (hA _ (txok_mem_withdrawFlds e))) h

theorem butFor_degrade : ButFor A u (degrade s) := ButFor.ite (h.put (hA _ (by simp [withdrawFlds])) _) h

theorem butFor_sendFrame (ty : Nat) (p : List Byte) : ButFor A u (sendFrame ty p s) :=
  butFor_sendOn (butFor_sendOn (h.modLines _) hA ty _ 0) hA ty _ 1

theorem butFor_sendNotice (subj kind : Nat) : ButFor A u (sendNotice subj kind s) := by
  unfold sendNotice sendTransfer holdTransfer
  exact (butFor_sendFrame h hA 1 _).modCont _

theorem butFor_withdraw (kind : Nat) : ButFor A u (withdraw kind s) :=
  ButFor.ite h ((butFor_sendNotice h hA _ kind).modCont _)

theorem butFor_joinedDrop : ButFor A u (joinedDrop s) := by
  unfold joinedDrop
  refine ButFor.ite (butFor_degrade (.modCont (.put ?_ (hA _ (by simp [withdrawFlds])) _) _) hA) h
  split
  · exact h.setMemWord _ _
  · exact h

end

/-! ## An MC block that goes to OUT -/

/-- The fields that an MC block's way to OUT changes, its report to CONT included. -/
def outFlds (b : Bridge) : List Fld := [F.MC_STAT_MODE b, F.MC_CTRL_MODE_REQ b] ++ withdrawFlds ++ gateFlds b

section
variable {A : List Fld} {b : Bridge} (hA : ∀ f ∈ outFlds b, f ∈ A)
include hA

theorem withdrawFlds_of_outFlds : ∀ f ∈ withdrawFlds, f ∈ A := fun f hf => hA f (by simp [outFlds, hf])
theorem gateFlds_of_outFlds : ∀ f ∈ gateFlds b, f ∈ A := fun f hf => hA f (by simp [outFlds, hf])

end

section
variable {A : List Fld} {u s : State} (h : ButFor A u s) (b : Bridge) (hA : ∀ f ∈ outFlds b, f ∈ A)
include h hA

theorem butFor_setMode (m : Nat) : ButFor A u (setMode b m s) :=
  (h.put (hA _ (by simp [outFlds])) _).put (hA _ (by simp [outFlds])) _

theorem butFor_reportBridgeOut : ButFor A u (reportBridgeOut b s) :=
  have hw := withdrawFlds_of_outFlds hA
  ButFor.ite (butFor_degrade h hw) (ButFor.ite (butFor_withdraw h hw 1) h)

theorem butFor_mcOut : ButFor A u (mcOut b s) :=
  butFor_requestShort (butFor_joinedDrop (butFor_setMode (h.modMc b _) b hA modeOut) (withdrawFlds_of_outFlds hA)) b
    (gateFlds_of_outFlds hA) _

theorem butFor_mcOverVoltage : ButFor A u (mcOverVoltage b s) :=
  butFor_reportBridgeOut (butFor_mcOut h b hA) b hA

end

/-! ## A lane that takes the lead (R44) -/

/-- The fields that a solo lane changes as it takes the lead. -/
def leadFlds : List Fld :=
  [F.CONT_STAT_ROLE, F.CONT_STAT_QUAL, F.CONT_SHARES_SHA, F.CONT_SHARES_SHB, F.CONT_SHARES_SHC] ++ withdrawFlds ++ gateFlds 0 ++ gateFlds 1

theorem withdrawFlds_sub_leadFlds : ∀ f ∈ withdrawFlds, f ∈ leadFlds := by decide
theorem gateFlds_sub_leadFlds : ∀ b : Bridge, ∀ f ∈ gateFlds b, f ∈ leadFlds := by decide

section
variable {u s : State} (h : ButFor leadFlds u s)
include h

theorem butFor_holdEnd : ButFor leadFlds u (holdEnd s) := by
  unfold holdEnd
  dsimp only
  have hdrop : ∀ {t : State}, ButFor leadFlds u t → ∀ (c : Prop) [Decidable c] (b : Bridge),
      ButFor leadFlds u (if c then requestShort b false t else t) :=
    fun ht _ _ b => ButFor.ite (butFor_requestShort ht b (gateFlds_sub_leadFlds b) false) ht
  exact ButFor.ite (hdrop (hdrop (h.put (by decide) _) _ 0) _ 1) h

theorem butFor_putShares (x : Shares) : ButFor leadFlds u (putShares x s) :=
  ButFor.ite (((h.put (by decide) _).put (by decide) _).put (by decide) _) h

theorem butFor_judgeSet : ButFor leadFlds u (judgeSet s) := ButFor.ite (h.putB (by decide) _) h

theorem butFor_becomeLead (x : Shares) : ButFor leadFlds u (becomeLead x s) :=
  butFor_sendFrame ((butFor_putShares ((h.put (by decide) _).put (by decide) _) x).modCont _) withdrawFlds_sub_leadFlds 2 _

theorem butFor_soloLead : ButFor leadFlds u (soloLead s) :=
  ButFor.ite (butFor_judgeSet ((butFor_becomeLead (butFor_holdEnd (h.modCont _)) _).put (by decide) _)) h

end

end Sys2Proof.Machine
end

section
/-!
SUPPORT. The motor supply (R318, R353 to R358): VMOT presented, the chopper, and what over-voltage and undervoltage do to the MC blocks
and the legs.
-/
namespace Sys2Proof.Machine

/-! ## Counters (R658) -/

/-- A counter below its maximum counts the event. -/
theorem State.get_countBit_of_below {s : State} {cnt ovf : Fld} {i : Nat} (hw : cnt.lo + cnt.w ≤ 32)
    (h : s.get cnt + 1 < 2 ^ cnt.w) : (s.countBit cnt ovf i).get cnt = s.get cnt + 1 := by
  rw [State.countBit, if_neg (by omega), State.get_put_same s cnt _ hw, Nat.mod_eq_of_lt h]

theorem butFor_wearOne {A : List Fld} {u s : State} (h : ButFor A u s) (k : Nat) : ButFor A u (wearOne k s) := by
  unfold wearOne wearAdd
  exact ButFor.ite h (ButFor.ite (.modBkg (h.modBkg _) _) (h.modBkg _))

/-! ## VMOT and the chopper -/

@[simp] theorem showChop_mem (s : State) : (showChop s).mem = s.mem := rfl

theorem showChop_driver (s : State) :
    (showChop s).driver = { s.driver with chop := s.on (F.MC_STAT_CHREQ 0) || s.on (F.MC_STAT_CHREQ 1) } := rfl

theorem showChop_get_other (s : State) {g : Fld} (hg : g.lo + g.w ≤ 32) (hd : F.VBUS_STAT_CHOP.disj g = true) :
    (showChop s).get g = s.get g :=
  State.get_put_disj _ F.VBUS_STAT_CHOP g _ hg hd

theorem showChop_on_other (s : State) {g : Fld} (hg : g.lo + g.w ≤ 32) (hd : F.VBUS_STAT_CHOP.disj g = true) :
    (showChop s).on g = s.on g :=
  congrArg (· == 1) (showChop_get_other s hg hd)

/-- CHOP is on while OV1 is in force or either MC block requests it. -/
theorem showChop_on (s : State) :
    (showChop s).on F.VBUS_STAT_CHOP = (s.on F.VBUS_STAT_OV1 || s.on (F.MC_STAT_CHREQ 0) || s.on (F.MC_STAT_CHREQ 1)) := by
  refine (State.on_put_same _ F.VBUS_STAT_CHOP _ (by decide)).trans ?_
  rw [Bool.or_assoc]
  cases s.on F.VBUS_STAT_OV1 || (s.on (F.MC_STAT_CHREQ 0) || s.on (F.MC_STAT_CHREQ 1)) <;> rfl

/-- The fields of an MC block that a VMOT value sets. -/
def vmotFlds (b : Bridge) : List Fld := [F.MC_VMOT_VMOT b, F.MC_RGL_RGL b, F.MC_IDBURN_IDBURN b, F.MC_STAT_CHREQ b]

/-- What a VMOT value sets beside MCx_VMOT. -/
theorem butFor_vmotUpdate_put (b : Bridge) (v : Nat) (s : State) :
    ButFor [F.MC_RGL_RGL b, F.MC_IDBURN_IDBURN b, F.MC_STAT_CHREQ b] (s.put (F.MC_VMOT_VMOT b) v) (vmotUpdate b v s) := by
  have h : ∀ x y, ButFor [F.MC_RGL_RGL b, F.MC_IDBURN_IDBURN b, F.MC_STAT_CHREQ b] (s.put (F.MC_VMOT_VMOT b) v)
      (((s.put (F.MC_VMOT_VMOT b) v).put (F.MC_RGL_RGL b) x).put (F.MC_IDBURN_IDBURN b) y) :=
    fun x y => ((ButFor.refl _).put (by simp) x).put (by simp) y
  exact ButFor.ite ((h _ _).put (by simp) 1) (ButFor.ite ((h _ _).put (by simp) 0) (h _ _))

theorem butFor_vmotUpdate (b : Bridge) (v : Nat) (s : State) : ButFor (vmotFlds b) s (vmotUpdate b v s) :=
  ((ButFor.refl s).put (by simp [vmotFlds]) v).trans
    ((butFor_vmotUpdate_put b v s).mono fun f hf => List.mem_cons_of_mem _ hf)

theorem vmotUpdate_vmot (b : Bridge) (v : BitVec 16) (s : State) :
    (vmotUpdate b v.toNat s).get (F.MC_VMOT_VMOT b) = v.toNat := by
  have hd : ∀ b : Bridge, ∀ f ∈ [F.MC_RGL_RGL b, F.MC_IDBURN_IDBURN b, F.MC_STAT_CHREQ b],
      f.disj (F.MC_VMOT_VMOT b) = true := by decide
  rw [(butFor_vmotUpdate_put b v.toNat s).get (F.MC_VMOT_VMOT b) (Nat.le_of_ble_eq_true rfl) (hd b),
    State.get_put_same s (F.MC_VMOT_VMOT b) _ (Nat.le_of_ble_eq_true rfl)]
  exact Nat.mod_eq_of_lt v.isLt

theorem vmotUpdate_mem (b : Bridge) (v : Nat) (s : State) : (vmotUpdate b v s).mem = s.mem := by
  unfold vmotUpdate
  dsimp only
  split_ifs <;> rfl

/-- A VMOT value as VBUS shows it, added to the mean window and presented to both MC blocks (R318, R361). -/
def vmotPresented (v : Nat) (s : State) : State :=
  vmotUpdate 1 v (vmotUpdate 0 v ((s.put F.VBUS_VMOT_VMOT v).modDriver (fun d => { d with
    vmotSum := d.vmotSum + v, vmotNum := d.vmotNum + 1 })))

theorem vmotTaken_of_links {s : State} (h : s.sys.linkLost = false) (hd : s.driver.linkLost = false) (v : Nat) :
    vmotTaken v s = showChop (vmotPresented v s) := by
  simp [vmotTaken, vmotPresented, h, hd]

/-- Both MC blocks have the value, and nothing but their fields changes with it. -/
theorem butFor_vmotPresented (v : Nat) (s : State) :
    ButFor (vmotFlds 0 ++ vmotFlds 1) ((s.put F.VBUS_VMOT_VMOT v).modDriver (fun d => { d with
      vmotSum := d.vmotSum + v, vmotNum := d.vmotNum + 1 })) (vmotPresented v s) :=
  ((butFor_vmotUpdate 0 v _).mono (by simp +contextual)).trans ((butFor_vmotUpdate 1 v _).mono (by simp +contextual))

theorem vmotPresented_vmot (v : BitVec 16) (s : State) :
    ∀ b : Bridge, (vmotPresented v.toNat s).get (F.MC_VMOT_VMOT b) = v.toNat := by
  refine Fin.forall_fin_two.mpr ⟨?_, vmotUpdate_vmot 1 v _⟩
  exact ((butFor_vmotUpdate 1 v.toNat _).get _ (by decide) (by decide)).trans (vmotUpdate_vmot 0 v _)

/-! ## Both MC blocks in OUT (R292, R356, R357) -/

/-- An MC block's way to OUT sets its mode first; the rest leaves it. -/
theorem mcMode_mcOut (b : Bridge) (s : State) : mcMode (mcOut b s) b = modeOut := by
  have h : ButFor (withdrawFlds ++ gateFlds b) (setMode b modeOut (clearEstimators b s)) (mcOut b s) :=
    butFor_requestShort (butFor_joinedDrop (.refl _) (by simp +contextual)) b (by simp +contextual) _
  have hd : ∀ b : Bridge, ∀ f ∈ withdrawFlds ++ gateFlds b, f.disj (F.MC_STAT_MODE b) = true := by decide
  have hreq : ∀ b : Bridge, (F.MC_CTRL_MODE_REQ b).disj (F.MC_STAT_MODE b) = true := by decide
  rw [mcMode, h.get (F.MC_STAT_MODE b) (Nat.le_of_ble_eq_true rfl) (hd b), setMode,
    State.get_put_disj _ _ _ _ (Nat.le_of_ble_eq_true rfl) (hreq b), State.get_put_same _ _ _ (Nat.le_of_ble_eq_true rfl)]
  rfl

theorem mcMode_mcOverVoltage (b : Bridge) (s : State) : mcMode (mcOverVoltage b s) b = modeOut := by
  have h : ButFor withdrawFlds (mcOut b s) (mcOverVoltage b s) :=
    ButFor.ite (butFor_degrade (.refl _) (fun _ => id)) (ButFor.ite (butFor_withdraw (.refl _) (fun _ => id) 1) (.refl _))
  have hd : ∀ b : Bridge, ∀ f ∈ withdrawFlds, f.disj (F.MC_STAT_MODE b) = true := by decide
  exact (h.get (F.MC_STAT_MODE b) (Nat.le_of_ble_eq_true rfl) (hd b)).trans (mcMode_mcOut b s)

/-- What the ways of both blocks to OUT change. -/
def bothOutFlds : List Fld := outFlds 0 ++ outFlds 1

theorem outFlds_sub_bothOutFlds : ∀ b : Bridge, ∀ f ∈ outFlds b, f ∈ bothOutFlds := by decide

/-- Block B's way to OUT leaves block A's mode, so both are in OUT. -/
theorem mcMode_both {op : Bridge → State → State} (hmode : ∀ b s, mcMode (op b s) b = modeOut)
    (hrest : ∀ b s, ButFor (outFlds b) s (op b s)) (s : State) : ∀ b : Bridge, mcMode (op 1 (op 0 s)) b = modeOut :=
  Fin.forall_fin_two.mpr
    ⟨((hrest 1 _).get (F.MC_STAT_MODE 0) (by decide) (by decide)).trans (hmode 0 s), hmode 1 _⟩

theorem butFor_driveAll {A : List Fld} {u s : State} (h : ButFor A u s) (hA : ∀ b : Bridge, ∀ f ∈ gateFlds b, f ∈ A) :
    ButFor A u (driveAll s) :=
  butFor_driveBridge (butFor_driveBridge h 0 (hA 0)) 1 (hA 1)

theorem driveAll_mem (s : State) : (driveAll s).mem = s.mem :=
  (aside_driveBridge (aside_driveBridge (.refl s) 0) 1).mem

/-- What driving the switches of both bridges changes. -/
def bothGateFlds : List Fld := gateFlds 0 ++ gateFlds 1

theorem gateFlds_sub_bothGateFlds : ∀ b : Bridge, ∀ f ∈ gateFlds b, f ∈ bothGateFlds := by decide

theorem butFor_driveAll_self (s : State) : ButFor bothGateFlds s (driveAll s) :=
  butFor_driveAll (.refl s) gateFlds_sub_bothGateFlds

theorem mcMode_of_butFor {A : List Fld} {s t : State} (h : ButFor A s t)
    (hA : ∀ b : Bridge, ∀ f ∈ A, f.disj (F.MC_STAT_MODE b) = true) (b : Bridge) : mcMode t b = mcMode s b :=
  h.get (F.MC_STAT_MODE b) (Nat.le_of_ble_eq_true rfl) (hA b)

theorem mcMode_driveAll (s : State) (b : Bridge) : mcMode (driveAll s) b = mcMode s b :=
  mcMode_of_butFor (butFor_driveAll_self s) (by decide) b

/-! ## The legs (R353) -/

/-- Row 6 of R353: while OV2 is in force no leg follows its commands. -/
theorem legState_of_ov2 {s : State} (h : s.on F.VBUS_STAT_OV2 = true) (b : Bridge) (k : Fin 3) : legState s b k ≠ .commands := by
  simp only [legState, linkLossState, h, if_true]
  split_ifs <;> decide

/-- Row 1 of R353: an undervoltage takes every leg to high impedance. -/
theorem legState_of_underVolt {s : State} (h : s.driver.underVolt = true) (b : Bridge) (k : Fin 3) :
    legState s b k = .highImpedance := by
  simp [legState, h]

theorem wanted_of_underVolt {s : State} (h : s.driver.underVolt = true) (b : Bridge) (j : Switch) : wanted s b j = false := by
  simp [wanted, legState_of_underVolt h]

/-! ## The commands of the supply -/

theorem vmotMeasure_next {s : State} (h : s.sys.linkLost = false) (hd : s.driver.linkLost = false) (v : BitVec 16) :
    ∃ t, exec (.vmotMeasure v) s = .next t ∧ t.get F.VBUS_VMOT_VMOT = v.toNat ∧ (∀ b : Bridge, t.get (F.MC_VMOT_VMOT b) = v.toNat) ∧
      t.driver.vmotSum = s.driver.vmotSum + v.toNat ∧ t.driver.vmotNum = s.driver.vmotNum + 1 ∧
      t.on F.VBUS_STAT_CHOP = (s.on F.VBUS_STAT_OV1 || t.on (F.MC_STAT_CHREQ 0) || t.on (F.MC_STAT_CHREQ 1)) ∧ t.mem = s.mem := by
  have hp := butFor_vmotPresented v.toNat s
  have hmem : (vmotPresented v.toNat s).mem = s.mem := (vmotUpdate_mem 1 _ _).trans (vmotUpdate_mem 0 _ _)
  have hvbus : ∀ b : Bridge, F.VBUS_STAT_CHOP.disj (F.MC_VMOT_VMOT b) = true := by decide
  have hexec : exec (.vmotMeasure v) s = .next (vmotTaken v.toNat s) := rfl
  rw [vmotTaken_of_links h hd] at hexec
  refine ⟨_, hexec, ?_, fun b => ?_, ?_, ?_, ?_, (showChop_mem _).trans hmem⟩
  · rw [showChop_get_other _ (by decide) (by decide), hp.get _ (by decide) (by decide), State.modDriver_get,
      State.get_put_same s _ _ (by decide)]
    exact Nat.mod_eq_of_lt v.isLt
  · exact (showChop_get_other _ (Nat.le_of_ble_eq_true rfl) (hvbus b)).trans (vmotPresented_vmot v s b)
  · rw [showChop_driver, hp.driver]
    rfl
  · rw [showChop_driver, hp.driver]
    rfl
  · rw [showChop_on, hp.on _ (by decide) (by decide), showChop_on_other _ (by decide) (by decide), showChop_on_other _ (by decide) (by decide),
      State.modDriver_on, State.on_put_disj s _ _ _ (by decide) (by decide)]

/-- OV1's flags and count, before the chopper follows. -/
def ov1Noted (s : State) : State :=
  wearOne wearOv1 (((s.put F.VBUS_STAT_OV1 1).put F.VBUS_STAT_OV1EV 1).countBit F.VBUS_CNT_OV1CNT F.VBUS_CNT_OVF 0)

theorem ov1Begin_of_off {s : State} (h : s.on F.VBUS_STAT_OV1 = false) : ov1Begin s = showChop (ov1Noted s) := by
  simp [ov1Begin, ov1Noted, h]

/-- Beside its flags OV1 changes its count alone. -/
theorem butFor_ov1Noted (s : State) :
    ButFor [F.VBUS_CNT_OV1CNT, F.VBUS_CNT_OVF] ((s.put F.VBUS_STAT_OV1 1).put F.VBUS_STAT_OV1EV 1) (ov1Noted s) :=
  butFor_wearOne ((ButFor.refl _).countBit (by simp) (by simp) 0) _

theorem ov1Noted_count {s : State} (h : s.get F.VBUS_CNT_OV1CNT < 255) :
    (ov1Noted s).get F.VBUS_CNT_OV1CNT = s.get F.VBUS_CNT_OV1CNT + 1 := by
  have hcnt : ((s.put F.VBUS_STAT_OV1 1).put F.VBUS_STAT_OV1EV 1).get F.VBUS_CNT_OV1CNT = s.get F.VBUS_CNT_OV1CNT := by
    rw [State.get_put_disj _ _ _ _ (by decide) (by decide), State.get_put_disj _ _ _ _ (by decide) (by decide)]
  rw [ov1Noted, (butFor_wearOne (.refl (A := []) _) _).get _ (by decide) (by simp),
    State.get_countBit_of_below (by decide) (by rw [hcnt]; exact Nat.add_lt_add_right h 1), hcnt]

theorem ov1Reached_next {s : State} (h : s.on F.VBUS_STAT_OV1 = false) :
    ∃ t, exec .ov1Reached s = .next t ∧ t.on F.VBUS_STAT_OV1 = true ∧ t.on F.VBUS_STAT_OV1EV = true ∧ t.on F.VBUS_STAT_CHOP = true ∧
      (s.get F.VBUS_CNT_OV1CNT < 255 → t.get F.VBUS_CNT_OV1CNT = s.get F.VBUS_CNT_OV1CNT + 1) ∧
      t.on F.VBUS_STAT_OV2 = s.on F.VBUS_STAT_OV2 := by
  have hb := butFor_ov1Noted s
  have hov1 : (ov1Noted s).on F.VBUS_STAT_OV1 = true := by
    rw [hb.on _ (by decide) (by decide), State.on_put_disj _ _ _ _ (by decide) (by decide), State.on_put_same _ _ _ (by decide)]
    rfl
  refine ⟨showChop (ov1Noted s), congrArg Host.Outcome.next (ov1Begin_of_off h), ?_, ?_, ?_, fun hlt => ?_, ?_⟩
  · exact (showChop_on_other _ (by decide) (by decide)).trans hov1
  · rw [showChop_on_other _ (by decide) (by decide), hb.on _ (by decide) (by decide), State.on_put_same _ _ _ (by decide)]
    rfl
  · rw [showChop_on, hov1]
    rfl
  · exact (showChop_get_other _ (by decide) (by decide)).trans (ov1Noted_count hlt)
  · rw [showChop_on_other _ (by decide) (by decide), hb.on _ (by decide) (by decide), State.on_put_disj _ _ _ _ (by decide) (by decide),
      State.on_put_disj _ _ _ _ (by decide) (by decide)]

theorem ov1Ended_next (s : State) :
    ∃ t, exec .ov1Ended s = .next t ∧ t.on F.VBUS_STAT_OV1 = false ∧ t.on F.VBUS_STAT_OV1EV = s.on F.VBUS_STAT_OV1EV ∧
      t.on F.VBUS_STAT_CHOP = (s.on (F.MC_STAT_CHREQ 0) || s.on (F.MC_STAT_CHREQ 1)) ∧ (∀ a, a ≠ 0x40010004 → t.rd a = s.rd a) ∧
      t.mem = s.mem := by
  have hov1 : (s.put F.VBUS_STAT_OV1 0).on F.VBUS_STAT_OV1 = false := State.on_put_same s F.VBUS_STAT_OV1 0 (by decide)
  refine ⟨showChop (s.put F.VBUS_STAT_OV1 0), rfl, ?_, ?_, ?_, fun a ha => ?_, rfl⟩
  · exact (showChop_on_other _ (by decide) (by decide)).trans hov1
  · rw [showChop_on_other _ (by decide) (by decide), State.on_put_disj _ _ _ _ (by decide) (by decide)]
  · rw [showChop_on, hov1, State.on_put_disj _ _ _ _ (by decide) (by decide), State.on_put_disj _ _ _ _ (by decide) (by decide),
      Bool.false_or]
  · exact (State.rd_put_other _ F.VBUS_STAT_CHOP _ ha).trans (State.rd_put_other s F.VBUS_STAT_OV1 0 ha)

/-- OV2's flags and count, before the MC blocks and the legs follow. -/
def ov2Noted (s : State) : State :=
  wearOne wearOv2 (((s.put F.VBUS_STAT_OV2 1).put F.VBUS_STAT_OV2EV 1).countBit F.VBUS_CNT_OV2CNT F.VBUS_CNT_OVF 1)

theorem ov2Begin_of_off {s : State} (h : s.on F.VBUS_STAT_OV2 = false) :
    ov2Begin s = driveAll (mcOverVoltage 1 (mcOverVoltage 0 (ov2Noted s))) := by
  simp [ov2Begin, ov2Noted, h]

theorem butFor_ov2Begin {s : State} (h : s.on F.VBUS_STAT_OV2 = false) : ButFor bothOutFlds (ov2Noted s) (ov2Begin s) := by
  have hsub := outFlds_sub_bothOutFlds
  rw [ov2Begin_of_off h]
  exact butFor_driveAll (butFor_mcOverVoltage (butFor_mcOverVoltage (.refl _) 0 (hsub 0)) 1 (hsub 1))
    (fun b => gateFlds_of_outFlds (hsub b))

theorem ov2Reached_next {s : State} (h : s.on F.VBUS_STAT_OV2 = false) :
    ∃ t, exec .ov2Reached s = .next t ∧ t.on F.VBUS_STAT_OV2 = true ∧ t.on F.VBUS_STAT_OV2EV = true ∧
      (∀ b : Bridge, mcMode t b = modeOut) ∧ (∀ (b : Bridge) (k : Fin 3), legState t b k ≠ .commands) ∧
      (s.get F.VBUS_CNT_OV2CNT < 255 → t.get F.VBUS_CNT_OV2CNT = s.get F.VBUS_CNT_OV2CNT + 1) := by
  have hb := butFor_ov2Begin h
  have hn : ButFor [F.VBUS_CNT_OV2CNT, F.VBUS_CNT_OVF] ((s.put F.VBUS_STAT_OV2 1).put F.VBUS_STAT_OV2EV 1) (ov2Noted s) :=
    butFor_wearOne ((ButFor.refl _).countBit (by simp) (by simp) 1) _
  have hov2 : (ov2Begin s).on F.VBUS_STAT_OV2 = true := by
    rw [hb.on _ (by decide) (by decide), hn.on _ (by decide) (by decide), State.on_put_disj _ _ _ _ (by decide) (by decide),
      State.on_put_same _ _ _ (by decide)]
    rfl
  refine ⟨ov2Begin s, rfl, hov2, ?_, fun b => ?_, fun b k => legState_of_ov2 hov2 b k, fun hlt => ?_⟩
  · rw [hb.on _ (by decide) (by decide), hn.on _ (by decide) (by decide), State.on_put_same _ _ _ (by decide)]
    rfl
  · rw [ov2Begin_of_off h, mcMode_driveAll]
    exact mcMode_both mcMode_mcOverVoltage (fun b s => butFor_mcOverVoltage (.refl s) b fun _ => id) _ b
  · have hcnt : ((s.put F.VBUS_STAT_OV2 1).put F.VBUS_STAT_OV2EV 1).get F.VBUS_CNT_OV2CNT = s.get F.VBUS_CNT_OV2CNT := by
      rw [State.get_put_disj _ _ _ _ (by decide) (by decide), State.get_put_disj _ _ _ _ (by decide) (by decide)]
    rw [hb.get _ (by decide) (by decide), ov2Noted, (butFor_wearOne (.refl (A := []) _) _).get _ (by decide) (by simp),
      State.get_countBit_of_below (by decide) (by rw [hcnt]; exact Nat.add_lt_add_right hlt 1), hcnt]

theorem ov2Ended_next (s : State) :
    ∃ t, exec .ov2Ended s = .next t ∧ t.on F.VBUS_STAT_OV2 = false ∧ (∀ b : Bridge, mcMode t b = mcMode s b) ∧
      t.on F.VBUS_STAT_OV2EV = s.on F.VBUS_STAT_OV2EV ∧ t.mem = s.mem := by
  have hb := butFor_driveAll_self (s.put F.VBUS_STAT_OV2 0)
  have hmode : ∀ b : Bridge, F.VBUS_STAT_OV2.disj (F.MC_STAT_MODE b) = true := by decide
  refine ⟨driveAll (s.put F.VBUS_STAT_OV2 0), rfl, ?_, fun b => ?_, ?_, driveAll_mem _⟩
  · rw [hb.on _ (by decide) (by decide), State.on_put_same _ _ _ (by decide)]
    rfl
  · exact (mcMode_driveAll _ b).trans (State.get_put_disj s _ _ 0 (Nat.le_of_ble_eq_true rfl) (hmode b))
  · rw [hb.on _ (by decide) (by decide), State.on_put_disj _ _ _ _ (by decide) (by decide)]

/-- An undervoltage's flags. -/
def underFlagged (vmot vdrv : Bool) (s : State) : State :=
  (s.when vmot (·.put F.VBUS_STAT_VMUV 1)).when vdrv (·.put F.VBUS_STAT_DRVUV 1)

/-- Each flag is set by its own supply and else stands; the rest of the state is as it was. -/
theorem underFlagged_spec (vmot vdrv : Bool) (s : State) :
    (underFlagged vmot vdrv s).on F.VBUS_STAT_VMUV = (s.on F.VBUS_STAT_VMUV || vmot) ∧
      (underFlagged vmot vdrv s).on F.VBUS_STAT_DRVUV = (s.on F.VBUS_STAT_DRVUV || vdrv) ∧
      ButFor [F.VBUS_STAT_VMUV, F.VBUS_STAT_DRVUV] s (underFlagged vmot vdrv s) := by
  refine ⟨?_, ?_, (((ButFor.refl s).when ((ButFor.refl s).put (by simp) 1) vmot).when
    (((ButFor.refl s).when ((ButFor.refl s).put (by simp) 1) vmot).put (by simp) 1) vdrv)⟩
  all_goals
    cases vmot <;> cases vdrv <;>
      simp [underFlagged, State.when, State.on_put_same, State.on_put_disj, Fld.disj, F.VBUS_STAT_VMUV, F.VBUS_STAT_DRVUV]

/-- An undervoltage in force and counted, before the MC blocks, the legs and CONT follow. -/
def underNoted (s : State) : State :=
  wearOne wearUv ((s.modDriver (fun d => { d with underVolt := true })).countBit F.VBUS_CNT_UVCNT F.VBUS_CNT_OVF 2)

theorem underBegin_of_off {s : State} {vmot vdrv : Bool} (hv : vmot = true ∨ vdrv = true) (h : s.driver.underVolt = false) :
    underBegin vmot vdrv s = withdraw 1 (driveAll (mcOut 1 (mcOut 0 (underNoted (underFlagged vmot vdrv s))))) := by
  have hd : (underFlagged vmot vdrv s).driver.underVolt = false :=
    (congrArg Driver.underVolt (underFlagged_spec vmot vdrv s).2.2.driver).trans h
  have hor : (vmot || vdrv) = true := by simpa using hv
  rw [underBegin, if_pos hor]
  exact if_neg (by rw [← underFlagged, hd]; decide)

theorem butFor_underBegin {s : State} {vmot vdrv : Bool} (hv : vmot = true ∨ vdrv = true) (h : s.driver.underVolt = false) :
    ButFor bothOutFlds (underNoted (underFlagged vmot vdrv s)) (underBegin vmot vdrv s) := by
  have hsub := outFlds_sub_bothOutFlds
  rw [underBegin_of_off hv h]
  exact butFor_withdraw (butFor_driveAll (butFor_mcOut (butFor_mcOut (.refl _) 0 (hsub 0)) 1 (hsub 1))
    (fun b => gateFlds_of_outFlds (hsub b))) (withdrawFlds_of_outFlds (hsub 0)) 1

theorem undervoltageBegin_next {s : State} {vmot vdrv : Bool} (hv : vmot = true ∨ vdrv = true) (h : s.driver.underVolt = false) :
    ∃ t, exec (.undervoltageBegin vmot vdrv) s = .next t ∧ t.driver.underVolt = true ∧
      t.on F.VBUS_STAT_VMUV = (s.on F.VBUS_STAT_VMUV || vmot) ∧ t.on F.VBUS_STAT_DRVUV = (s.on F.VBUS_STAT_DRVUV || vdrv) ∧
      (∀ b : Bridge, mcMode t b = modeOut) ∧ (∀ (b : Bridge) (j : Switch), wanted t b j = false) ∧
      (s.get F.VBUS_CNT_UVCNT < 255 → t.get F.VBUS_CNT_UVCNT = s.get F.VBUS_CNT_UVCNT + 1) := by
  obtain ⟨hvm, hdrv, hflag⟩ := underFlagged_spec vmot vdrv s
  have hb := butFor_underBegin hv h
  have hn : ButFor [F.VBUS_CNT_UVCNT, F.VBUS_CNT_OVF]
      ((underFlagged vmot vdrv s).modDriver (fun d => { d with underVolt := true })) (underNoted (underFlagged vmot vdrv s)) :=
    butFor_wearOne ((ButFor.refl _).countBit (by simp) (by simp) 2) _
  have huv : (underBegin vmot vdrv s).driver.underVolt = true := by rw [hb.driver, hn.driver]; rfl
  refine ⟨underBegin vmot vdrv s, rfl, huv, ?_, ?_, fun b => ?_, fun b j => wanted_of_underVolt huv b j, fun hlt => ?_⟩
  · rw [hb.on _ (by decide) (by decide), hn.on _ (by decide) (by decide), State.modDriver_on, hvm]
  · rw [hb.on _ (by decide) (by decide), hn.on _ (by decide) (by decide), State.modDriver_on, hdrv]
  · have hw : ∀ u, mcMode (withdraw 1 u) b = mcMode u b :=
      fun u => mcMode_of_butFor (butFor_withdraw (.refl u) (fun _ => id) 1) (by decide) b
    rw [underBegin_of_off hv h, hw, mcMode_driveAll]
    exact mcMode_both mcMode_mcOut (fun b s => butFor_mcOut (.refl s) b fun _ => id) _ b
  · have hcnt : ((underFlagged vmot vdrv s).modDriver (fun d => { d with underVolt := true })).get F.VBUS_CNT_UVCNT =
        s.get F.VBUS_CNT_UVCNT := hflag.get _ (by decide) (by decide)
    rw [hb.get _ (by decide) (by decide), underNoted, (butFor_wearOne (.refl (A := []) _) _).get _ (by decide) (by simp),
      State.get_countBit_of_below (by decide) (by rw [hcnt]; exact Nat.add_lt_add_right hlt 1), hcnt]

theorem undervoltageEnd_next (s : State) :
    ∃ t, exec .undervoltageEnd s = .next t ∧ t.driver = { s.driver with underVolt := false } ∧ t.mem = s.mem ∧
      (∀ b : Bridge, mcMode t b = mcMode s b) ∧ t.on F.VBUS_STAT_VMUV = s.on F.VBUS_STAT_VMUV ∧
      t.on F.VBUS_STAT_DRVUV = s.on F.VBUS_STAT_DRVUV := by
  have hb : ButFor leadFlds (s.modDriver (fun d => { d with underVolt := false })) (underEnd s) :=
    butFor_soloLead (butFor_driveAll (.refl _) gateFlds_sub_leadFlds)
  have hmode := mcMode_of_butFor hb (by decide)
  exact ⟨underEnd s, rfl, hb.driver, (aside_soloLead _).mem.trans (driveAll_mem _), hmode, hb.on _ (by decide) (by decide),
    hb.on _ (by decide) (by decide)⟩

end Sys2Proof.Machine

open Sys2Proof Sys2Proof.Machine in
/-- Settles O42: the fields that the reactions to a supply event change are listed (`bothOutFlds`), and the flags, counts and modes of
the statement are set outside them or before them. -/
theorem motorSupply : Obligations.MotorSupply := by
  have hdone : ∀ (c : Instr) (s : State), ∃ t, exec c s = .next t ∧ t.pending = s.pending :=
    fun c s => (exec_next_kept c s).imp fun _ h => ⟨h.1, h.2.queue⟩
  exact ⟨fun s v h hd => vmotMeasure_next h hd v, fun s h => ov1Reached_next h, ov1Ended_next, fun s h => ov2Reached_next h, ov2Ended_next,
    fun s vmot vdrv hv h => undervoltageBegin_next hv h, undervoltageEnd_next, fun s v => hdone (.vmotMeasure v) s, hdone .ov1Reached,
    hdone .ov1Ended, hdone .ov2Reached, hdone .ov2Ended, fun s vmot vdrv => hdone (.undervoltageBegin vmot vdrv) s, hdone .undervoltageEnd⟩
end

section
/-!
SUPPORT. The link of an Ebpen port: training (R36, R373), losses and what CONT makes of them (R374, R403, R404, R406), code violations
and slates (R382, R383).
-/
namespace Sys2Proof.Machine

/-! ## Fields of a port -/

/-- A field through a write of another one; that they share no bit is decided for every port. -/
theorem State.get_put_apart (s : State) (f g : Fld) (v : Nat) (hg : g.lo + g.w ≤ 32 := by clear * -; decide +revert)
    (hd : f.disj g = true := by clear * -; decide +revert) : (s.put f v).get g = s.get g :=
  State.get_put_disj s f g v hg hd

theorem State.on_put_apart (s : State) (f g : Fld) (v : Nat) (hg : g.lo + g.w ≤ 32 := by clear * -; decide +revert)
    (hd : f.disj g = true := by clear * -; decide +revert) : (s.put f v).on g = s.on g :=
  State.on_put_disj s f g v hg hd

@[simp] theorem State.countBit_mem (s : State) (f g : Fld) (i : Nat) : (s.countBit f g i).mem = s.mem := by
  unfold State.countBit; split <;> rfl

@[simp] theorem State.countBit_ebp (s : State) (f g : Fld) (i : Nat) : (s.countBit f g i).ebp = s.ebp := by
  unfold State.countBit; split <;> rfl

@[simp] theorem State.countBit_tick (s : State) (f g : Fld) (i : Nat) : (s.countBit f g i).tick = s.tick := by
  unfold State.countBit; split <;> rfl

/-- A command of a block that the PLL clocks does nothing while the PLL's blocks stand. -/
theorem clockedOut_of_stopped {s : State} (h : coreStopped s = true) (o : Out) : clockedOut s o = .next s := by
  simp [clockedOut, h]

theorem coreStopped_congr {s t : State} (hp : t.pwr = s.pwr) (hs : t.get F.PWR_STAT_STATE = s.get F.PWR_STAT_STATE) :
    coreStopped t = coreStopped s := by
  simp [coreStopped, hp, hs]

/-! ## The links shown (R35) -/

/-- The links are shown in registers alone. -/
theorem showLinks_eq (s : State) : ∃ r, showLinks s = { s with regs := r } := by
  unfold showLinks
  generalize peersOf s = l
  induction l generalizing s with
  | nil => exact ⟨s.regs, rfl⟩
  | cons x l ih => exact ih (s.putB (F.CONT_PEER_LINK x.val) (peerLinked s x))

@[simp] theorem showLinks_mem (s : State) : (showLinks s).mem = s.mem := by
  obtain ⟨r, hr⟩ := showLinks_eq s
  rw [hr]

@[simp] theorem showLinks_ebp (s : State) : (showLinks s).ebp = s.ebp := by
  obtain ⟨r, hr⟩ := showLinks_eq s
  rw [hr]

/-! ## What a loss of a link changes in CONT -/

/-- The fields of CONT, and the frame counts, that the judgement of a lost link may change. -/
def lossFlds : List Fld :=
  F.CONT_STAT_EDEG :: (List.range 3).map F.CONT_PEER_LINK ++ (List.range 3).map F.CONT_PEER_LOST ++ withdrawFlds

theorem withdrawFlds_sub_lossFlds : ∀ f ∈ withdrawFlds, f ∈ lossFlds := by decide
theorem peerLink_mem_lossFlds : ∀ l : Lane, F.CONT_PEER_LINK l ∈ lossFlds := by decide
theorem peerLost_mem_lossFlds : ∀ l : Lane, F.CONT_PEER_LOST l ∈ lossFlds := by decide

section
variable {u s : State} (h : ButFor lossFlds u s)
include h

theorem butFor_showLinks : ButFor lossFlds u (showLinks s) :=
  ButFor.foldl (fun _ l hs => hs.putB (peerLink_mem_lossFlds l) _) _ h

theorem butFor_declareLost (l : Lane) (kind : Nat) : ButFor lossFlds u (declareLost l kind s) :=
  ButFor.ite h (butFor_joinedDrop ((butFor_sendNotice h withdrawFlds_sub_lossFlds l.val kind).put (peerLost_mem_lossFlds l) 1)
    withdrawFlds_sub_lossFlds)

theorem butFor_setEdeg (l : Lane) : ButFor lossFlds u (setEdeg l s) := by
  have hshown := fun f => butFor_degrade ((h.modCont f).putB (f := F.CONT_STAT_EDEG) (by decide) ((s.modCont f).cont.edeg != 0))
    withdrawFlds_sub_lossFlds
  exact ButFor.ite (butFor_declareLost (hshown _) l 4) (hshown _)

theorem butFor_standInCheck (l : Lane) : ButFor lossFlds u (standInCheck l s) :=
  ButFor.ite h (ButFor.ite (ButFor.ite (butFor_declareLost h l 3) (butFor_setEdeg h l)) h)

end

/-! ## A port that loses its link (R374) -/

/-- The loss counted and shown. -/
def lossNoted (e : Port) (s : State) : State :=
  (((s.put (F.EBP_STAT_LOST e) 1).put (F.EBP_STAT_LOSTEV e) 1).countBit (F.EBP_CNT_LOSTCNT e) (F.EBP_CNT_OVF e) 2).put
    (F.EBP_STAT_TRAINED e) 0

/-- The port to be trained anew. -/
def portDown (e : Port) (s : State) : State := (lossNoted e s).modEbp e (fun x => { x with beats := 0, violations := [] })

/-- The fields of a port that its loss sets. -/
def portLossFlds (e : Port) : List Fld :=
  [F.EBP_STAT_LOST e, F.EBP_STAT_LOSTEV e, F.EBP_CNT_LOSTCNT e, F.EBP_CNT_OVF e, F.EBP_STAT_TRAINED e]

theorem butFor_lossNoted (e : Port) (s : State) : ButFor (portLossFlds e) s (lossNoted e s) :=
  ((((ButFor.refl s).put (by simp [portLossFlds]) 1).put (by simp [portLossFlds]) 1).countBit (by simp [portLossFlds])
    (by simp [portLossFlds]) 2).put (by simp [portLossFlds]) 0

/-- The loss is shown, TRAINED goes, and the event counts. -/
theorem portDown_shown (e : Port) (s : State) :
    (portDown e s).on (F.EBP_STAT_LOST e) = true ∧ (portDown e s).on (F.EBP_STAT_LOSTEV e) = true ∧
      (portDown e s).on (F.EBP_STAT_TRAINED e) = false ∧ (portDown e s).ebp[e.val].beats = 0 := by
  have hcount : ∀ v : State, ButFor [F.EBP_CNT_LOSTCNT e, F.EBP_CNT_OVF e] v
      (v.countBit (F.EBP_CNT_LOSTCNT e) (F.EBP_CNT_OVF e) 2) := fun v => (ButFor.refl v).countBit (by simp) (by simp) 2
  refine ⟨?_, ?_, State.on_put_same _ (F.EBP_STAT_TRAINED e) 0 (Nat.le_of_ble_eq_true rfl), ?_⟩
  · rw [portDown, State.modEbp_on, lossNoted, State.on_put_apart _ (F.EBP_STAT_TRAINED e) (F.EBP_STAT_LOST e),
      (hcount _).on (F.EBP_STAT_LOST e),
      State.on_put_apart _ (F.EBP_STAT_LOSTEV e) (F.EBP_STAT_LOST e),
      State.on_put_same _ _ _ (Nat.le_of_ble_eq_true rfl)]
    rfl
  · rw [portDown, State.modEbp_on, lossNoted, State.on_put_apart _ (F.EBP_STAT_TRAINED e) (F.EBP_STAT_LOSTEV e),
      (hcount _).on (F.EBP_STAT_LOSTEV e), State.on_put_same _ _ _ (Nat.le_of_ble_eq_true rfl)]
    rfl
  · rw [portDown, State.modEbp, upd_same]

theorem portDown_count {e : Port} {s : State} (h : s.get (F.EBP_CNT_LOSTCNT e) < 255) :
    (portDown e s).get (F.EBP_CNT_LOSTCNT e) = s.get (F.EBP_CNT_LOSTCNT e) + 1 := by
  have hcnt : ((s.put (F.EBP_STAT_LOST e) 1).put (F.EBP_STAT_LOSTEV e) 1).get (F.EBP_CNT_LOSTCNT e) = s.get (F.EBP_CNT_LOSTCNT e) := by
    rw [State.get_put_apart _ (F.EBP_STAT_LOSTEV e) (F.EBP_CNT_LOSTCNT e),
      State.get_put_apart _ (F.EBP_STAT_LOST e) (F.EBP_CNT_LOSTCNT e)]
  rw [portDown, State.modEbp_get, lossNoted, State.get_put_apart _ (F.EBP_STAT_TRAINED e) (F.EBP_CNT_LOSTCNT e),
    State.get_countBit_of_below (Nat.le_of_ble_eq_true rfl) (by rw [hcnt]; exact Nat.add_lt_add_right h 1), hcnt]

/-- A link that was up goes down before CONT judges it. -/
theorem butFor_loseLink_of_up {e : Port} {s : State} (hp : portInUse s e = true) (h : s.on (F.EBP_STAT_LOST e) = false) :
    ButFor lossFlds (portDown e s) (loseLink e s) := by
  have hdown := butFor_showLinks (.refl (portDown e s))
  unfold loseLink
  simp only [hp, h, Bool.not_true, Bool.false_eq_true, if_false]
  split
  · exact hdown
  · have hdrop := butFor_joinedDrop hdown withdrawFlds_sub_lossFlds
    exact ButFor.ite hdown (butFor_standInCheck (ButFor.ite (butFor_setEdeg hdrop _) hdrop) _)

/-- A link lost before has its peer judged as a stand-in, and nothing else. -/
theorem loseLink_of_lost {e : Port} {s : State} (hp : portInUse s e = true) (h : s.on (F.EBP_STAT_LOST e) = true) :
    loseLink e s = (laneOf (s.get (F.EBP_STAT_PEER e))).elim s (fun l =>
      if peerLinked s l || !decide (l ∈ peersOf s) then s else standInCheck l s) := by
  simp only [loseLink, hp, h, Bool.not_true, Bool.false_eq_true, if_false, if_true]
  cases laneOf (s.get (F.EBP_STAT_PEER e)) <;> rfl

theorem butFor_loseLink_of_lost {e : Port} {s : State} (hp : portInUse s e = true) (h : s.on (F.EBP_STAT_LOST e) = true) :
    ButFor lossFlds s (loseLink e s) := by
  rw [loseLink_of_lost hp h]
  cases laneOf (s.get (F.EBP_STAT_PEER e)) with
  | none => exact .refl s
  | some l => exact ButFor.ite (.refl s) (butFor_standInCheck (.refl s) l)

theorem absent_of_portInUse {e : Port} {s : State} (h : portInUse s e = true) : s.on (F.EBP_STAT_ABSENT e) = false := by
  simp only [portInUse, Bool.and_eq_true, Bool.not_eq_true'] at h
  exact h.2

/-- A port in use that loses its link is lost and not absent. -/
theorem loseLink_lost {e : Port} {s : State} (hp : portInUse s e = true) :
    (loseLink e s).on (F.EBP_STAT_LOST e) = true ∧ (loseLink e s).on (F.EBP_STAT_ABSENT e) = false ∧
      (loseLink e s).on (F.EBP_CTRL_RETRAIN e) = s.on (F.EBP_CTRL_RETRAIN e) := by
  cases h : s.on (F.EBP_STAT_LOST e)
  case true =>
    have hb := butFor_loseLink_of_lost hp h
    exact ⟨(hb.on (F.EBP_STAT_LOST e)).trans h, (hb.on (F.EBP_STAT_ABSENT e)).trans (absent_of_portInUse hp),
      hb.on (F.EBP_CTRL_RETRAIN e)⟩
  case false =>
    have hb := butFor_loseLink_of_up hp h
    have hn := butFor_lossNoted e s
    exact ⟨(hb.on (F.EBP_STAT_LOST e)).trans (portDown_shown e s).1,
      (hb.on (F.EBP_STAT_ABSENT e)).trans ((hn.on (F.EBP_STAT_ABSENT e)).trans (absent_of_portInUse hp)),
      (hb.on (F.EBP_CTRL_RETRAIN e)).trans (hn.on (F.EBP_CTRL_RETRAIN e))⟩

/-- A link that was up: the loss is an event, counted once, and takes TRAINED and the BEATs counted away. -/
theorem loseLink_event {e : Port} {s : State} (hp : portInUse s e = true) (h : s.on (F.EBP_STAT_LOST e) = false) :
    (loseLink e s).on (F.EBP_STAT_TRAINED e) = false ∧ (loseLink e s).on (F.EBP_STAT_LOSTEV e) = true ∧
      (s.get (F.EBP_CNT_LOSTCNT e) < 255 →
        (loseLink e s).get (F.EBP_CNT_LOSTCNT e) = s.get (F.EBP_CNT_LOSTCNT e) + 1) ∧
      (loseLink e s).ebp[e.val].beats = 0 := by
  have hb := butFor_loseLink_of_up hp h
  obtain ⟨-, hshown, htrained, hbeats⟩ := portDown_shown e s
  exact ⟨(hb.on (F.EBP_STAT_TRAINED e)).trans htrained, (hb.on (F.EBP_STAT_LOSTEV e)).trans hshown,
    fun hlt => (hb.get (F.EBP_CNT_LOSTCNT e)).trans (portDown_count hlt), (hb.beats e).trans hbeats⟩

/-- A loss reported for a port that is not in use, or whose peer is no stand-in, changes nothing. -/
theorem loseLink_of_idle {e : Port} {s : State} (h : portInUse s e = false ∨ (s.on (F.EBP_STAT_LOST e) = true ∧
    ∀ l, laneOf (s.get (F.EBP_STAT_PEER e)) = some l → roleSeen s l.val ≠ 1)) : loseLink e s = s := by
  cases hp : portInUse s e
  case false => simp [loseLink, hp]
  case true =>
    obtain ⟨hlost, hrole⟩ := h.resolve_left (by simp [hp])
    rw [loseLink_of_lost hp hlost]
    cases hl : laneOf (s.get (F.EBP_STAT_PEER e)) with
    | none => rfl
    | some l => simp [standInCheck, hrole l hl]

/-- A stand-in silent on frames and line is declared lost (R403, R406). -/
theorem loseLink_of_silent {e : Port} {s : State} {l : Lane} (hp : portInUse s e = true) (h : s.on (F.EBP_STAT_LOST e) = true)
    (hl : laneOf (s.get (F.EBP_STAT_PEER e)) = some l) (hpeer : l ∈ peersOf s) (hlink : peerLinked s l = false)
    (hrole : roleSeen s l.val = 1) (hown : s.get F.CONT_STAT_ROLE ≠ 0) (hleave : leaving s l.val = false)
    (hframes : framesGone s l = true) (hlow : lowLong s l = true)
    (htogether : within2Ti s s.peers[l.val].lowSince s.peers[l.val].frame = true) :
    loseLink e s = joinedDrop ((sendNotice l.val 3 s).put (F.CONT_PEER_LOST l.val) 1) := by
  have hjudges : judgesPeers s = true := by simp [judgesPeers, hown]
  rw [loseLink_of_lost hp h, hl]
  simp [hlink, hpeer, standInCheck, hrole, hframes, hlow, htogether, declareLost, hjudges, hleave]

end Sys2Proof.Machine
end

section
/-!
SUPPORT. Training, code violations, TRAIN frames and slates of a port (R36, R373, R374, R376, R382, R383).
-/
namespace Sys2Proof.Machine

/-! ## Training (R36, R373) -/

/-- The training of a port is over, however it ended. -/
def trainingOver (e : Port) (s : State) : State :=
  (s.put (F.EBP_CTRL_RETRAIN e) 0).modEbp e (fun x => { x with training := false })

theorem butFor_trainingOver (e : Port) (s : State) : ButFor [F.EBP_CTRL_RETRAIN e] s (trainingOver e s) :=
  ((ButFor.refl s).put (by simp) 0).modEbp e (by intro; rfl)

/-- The port trained, before the links are shown: DELAY as measured, and a BEAT count that begins anew. -/
def portTrained (e : Port) (delay peer : Nat) (s : State) : State :=
  (((((trainingOver e s).put (F.EBP_DELAY_DELAY e) delay).drew.put (F.EBP_STAT_LOCK e) 1).put (F.EBP_STAT_TRAINED e) 1).put
    (F.EBP_STAT_PEER e) peer).modEbp e (fun x => { x with beats := 0, violations := [], everTrained := true })

/-- DELAY in ticks: half the round trip less the turnaround within 10 ns, by a free value (R373). -/
def measuredDelay (rtt turnaround : Nat) (s : State) : Nat := (max 0 (within (128 * ((rtt : Int) - turnaround)) 2 s.free)).toNat

theorem trainingEnds_trained {e : Port} {s : State} (h : s.on (F.EBP_CTRL_EN e) = true) (rtt turnaround : Nat) (l : Lane) :
    trainingEnds e true rtt turnaround l s = showLinks (portTrained e (measuredDelay rtt turnaround s) l.val s) := by
  simp only [trainingEnds, h, Bool.not_true, Bool.false_eq_true, if_false, if_true]
  rfl

theorem trainingEnds_untrained {e : Port} {s : State} (h : s.on (F.EBP_CTRL_EN e) = true) (rtt turnaround : Nat) (l : Lane) :
    trainingEnds e false rtt turnaround l s =
      if e = 1 ∧ (topology s = 1 ∨ topology s = 2) ∧ s.on F.KEEP_STAT_WARM = false ∧ s.ebp[e.val].everTrained = false then
        (trainingOver e s).put (F.EBP_STAT_ABSENT e) 1
      else loseLink e (trainingOver e s) := by
  have hb := butFor_trainingOver e s
  have htop : topology (trainingOver e s) = topology s :=
    congrArg (· / 4 % 4) (hb.get F.SEAL_STRAP_WORD)
  have hwarm : (trainingOver e s).on F.KEEP_STAT_WARM = s.on F.KEEP_STAT_WARM := hb.on F.KEEP_STAT_WARM
  have hever : (trainingOver e s).ebp[e.val].everTrained = s.ebp[e.val].everTrained := by
    rw [trainingOver, State.modEbp, upd_same]
    rfl
  simp only [trainingEnds, h, Bool.not_true, Bool.false_eq_true, if_false]
  rw [← trainingOver, htop, hwarm, hever]

/-- A free value within 2 of half a span of at least 4 lies as near to it as R373 asks. -/
theorem within_half (d : Int) (h : 4 ≤ d) (v : BitVec 64) :
    0 ≤ within (128 * d) 2 v ∧ d ≤ 2 * within (128 * d) 2 v + 4 ∧ 2 * within (128 * d) 2 v ≤ d + 4 := by
  have hpos : 0 < (128 * d + 512) / 256 - -((512 - 128 * d) / 256) + 1 := by omega
  have hlo := Int.emod_nonneg (v.toNat : Int) (Int.ne_of_gt hpos)
  have hhi := Int.emod_lt_of_pos (v.toNat : Int) hpos
  simp only [within]
  norm_num only at *
  omega

/-- The measured DELAY fits its field and is half the span within 10 ns. -/
theorem measuredDelay_near {rtt turnaround : Nat} (h : turnaround + 4 ≤ rtt) (h' : rtt ≤ turnaround + 8000) (s : State) :
    measuredDelay rtt turnaround s < 4096 ∧ rtt - turnaround ≤ 2 * measuredDelay rtt turnaround s + 4 ∧
      2 * measuredDelay rtt turnaround s ≤ rtt - turnaround + 4 := by
  obtain ⟨h0, hlo, hhi⟩ := within_half ((rtt : Int) - turnaround) (by omega) s.free
  unfold measuredDelay
  generalize within (128 * ((rtt : Int) - turnaround)) 2 s.free = d at *
  omega

/-- What a trained port shows. -/
theorem portTrained_shows (e : Port) (delay : Nat) (l : Lane) (s : State) (hd : delay < 4096) :
    let t := portTrained e delay l.val s
    t.on (F.EBP_STAT_LOCK e) = true ∧ t.on (F.EBP_STAT_TRAINED e) = true ∧ t.get (F.EBP_STAT_PEER e) = l.val ∧
      t.on (F.EBP_CTRL_RETRAIN e) = false ∧ t.ebp[e.val].beats = 0 ∧ t.get (F.EBP_DELAY_DELAY e) = delay ∧
      t.on (F.EBP_STAT_LOST e) = s.on (F.EBP_STAT_LOST e) := by
  refine ⟨?_, ?_, ?_, ?_, ?_, ?_, ?_⟩
  · rw [portTrained, State.modEbp_on, State.on_put_apart _ (F.EBP_STAT_PEER e) (F.EBP_STAT_LOCK e),
      State.on_put_apart _ (F.EBP_STAT_TRAINED e) (F.EBP_STAT_LOCK e),
      State.on_put_same _ _ _ (Nat.le_of_ble_eq_true rfl)]
    rfl
  · rw [portTrained, State.modEbp_on, State.on_put_apart _ (F.EBP_STAT_PEER e) (F.EBP_STAT_TRAINED e),
      State.on_put_same _ _ _ (Nat.le_of_ble_eq_true rfl)]
    rfl
  · rw [portTrained, State.modEbp_get, State.get_put_same _ _ _ (Nat.le_of_ble_eq_true rfl)]
    exact Nat.mod_eq_of_lt (Nat.lt_succ_of_lt l.isLt)
  · rw [portTrained, State.modEbp_on, State.on_put_apart _ (F.EBP_STAT_PEER e) (F.EBP_CTRL_RETRAIN e),
      State.on_put_apart _ (F.EBP_STAT_TRAINED e) (F.EBP_CTRL_RETRAIN e),
      State.on_put_apart _ (F.EBP_STAT_LOCK e) (F.EBP_CTRL_RETRAIN e), State.drew_on,
      State.on_put_apart _ (F.EBP_DELAY_DELAY e) (F.EBP_CTRL_RETRAIN e), trainingOver, State.modEbp_on,
      State.on_put_same _ _ _ (Nat.le_of_ble_eq_true rfl)]
    rfl
  · rw [portTrained, State.modEbp, upd_same]
  · rw [portTrained, State.modEbp_get, State.get_put_apart _ (F.EBP_STAT_PEER e) (F.EBP_DELAY_DELAY e),
      State.get_put_apart _ (F.EBP_STAT_TRAINED e) (F.EBP_DELAY_DELAY e),
      State.get_put_apart _ (F.EBP_STAT_LOCK e) (F.EBP_DELAY_DELAY e), State.drew_get,
      State.get_put_same _ _ _ (Nat.le_of_ble_eq_true rfl)]
    exact Nat.mod_eq_of_lt hd
  · rw [portTrained, State.modEbp_on, State.on_put_apart _ (F.EBP_STAT_PEER e) (F.EBP_STAT_LOST e),
      State.on_put_apart _ (F.EBP_STAT_TRAINED e) (F.EBP_STAT_LOST e),
      State.on_put_apart _ (F.EBP_STAT_LOCK e) (F.EBP_STAT_LOST e), State.drew_on,
      State.on_put_apart _ (F.EBP_DELAY_DELAY e) (F.EBP_STAT_LOST e), trainingOver, State.modEbp_on,
      State.on_put_apart _ (F.EBP_CTRL_RETRAIN e) (F.EBP_STAT_LOST e)]

/-- Training that succeeds (R373). -/
theorem linkTrainingDone_trained {s : State} {e : Port} {rtt turn : Nat} (l : Lane) (hrun : coreStopped s = false)
    (hen : s.on (F.EBP_CTRL_EN e) = true) (hspan : turn + 4 ≤ rtt ∧ rtt ≤ turn + 8000) :
    ∃ t, exec (.linkTrainingDone e true rtt turn l) s = .next t ∧ t.on (F.EBP_STAT_LOCK e) = true ∧ t.on (F.EBP_STAT_TRAINED e) = true ∧
      t.get (F.EBP_STAT_PEER e) = l.val ∧ t.on (F.EBP_CTRL_RETRAIN e) = false ∧ t.ebp[e.val].beats = 0 ∧
      rtt - turn ≤ 2 * t.get (F.EBP_DELAY_DELAY e) + 4 ∧ 2 * t.get (F.EBP_DELAY_DELAY e) ≤ rtt - turn + 4 ∧
      t.on (F.EBP_STAT_LOST e) = s.on (F.EBP_STAT_LOST e) ∧ t.mem = s.mem := by
  obtain ⟨hfits, hlow, hhigh⟩ := measuredDelay_near hspan.1 hspan.2 s
  obtain ⟨hlock, htrained, hpeer, hretrain, hbeats, hdelay, hlost⟩ := portTrained_shows e _ l s hfits
  have hexec : exec (.linkTrainingDone e true rtt turn l) s = .next (trainingEnds e true rtt turn l s) := clockedOut_of_running hrun _
  rw [trainingEnds_trained hen] at hexec
  have hb := butFor_showLinks (.refl (portTrained e (measuredDelay rtt turn s) l.val s))
  have hdelay := (hb.get (F.EBP_DELAY_DELAY e)).trans hdelay
  refine ⟨_, hexec, (hb.on (F.EBP_STAT_LOCK e)).trans hlock, (hb.on (F.EBP_STAT_TRAINED e)).trans htrained,
    (hb.get (F.EBP_STAT_PEER e)).trans hpeer, (hb.on (F.EBP_CTRL_RETRAIN e)).trans hretrain, (hb.beats e).trans hbeats,
    by rw [hdelay]; exact hlow, by rw [hdelay]; exact hhigh, (hb.on (F.EBP_STAT_LOST e)).trans hlost, showLinks_mem _⟩

/-- E1 of a duplex set that has not trained since its cold start is absent (R36). -/
theorem linkTrainingDone_absent {s : State} (rtt turn : Nat) (l : Lane) (hrun : coreStopped s = false)
    (hen : s.on (F.EBP_CTRL_EN 1) = true) (htop : topology s = 1 ∨ topology s = 2)
    (hcold : s.on F.KEEP_STAT_WARM = false ∧ s.ebp[1].everTrained = false) :
    ∃ t, exec (.linkTrainingDone 1 false rtt turn l) s = .next t ∧ t.on (F.EBP_STAT_ABSENT 1) = true ∧
      t.on (F.EBP_STAT_LOST 1) = s.on (F.EBP_STAT_LOST 1) ∧ t.mem = s.mem := by
  have hexec : exec (.linkTrainingDone 1 false rtt turn l) s = .next (trainingEnds 1 false rtt turn l s) := clockedOut_of_running hrun _
  rw [trainingEnds_untrained (e := 1) hen, if_pos ⟨rfl, htop, hcold⟩] at hexec
  refine ⟨_, hexec, ?_, ?_, rfl⟩
  · exact State.on_put_same (trainingOver 1 s) (F.EBP_STAT_ABSENT 1) 1 (by decide)
  · exact (State.on_put_disj (trainingOver 1 s) (F.EBP_STAT_ABSENT 1) (F.EBP_STAT_LOST 1) 1 (by decide) (by decide)).trans
      ((butFor_trainingOver 1 s).on (F.EBP_STAT_LOST 1) (by decide) (by decide))

/-- Any other port that does not train loses its link (R373, R374). -/
theorem linkTrainingDone_lost {s : State} {e : Port} (rtt turn : Nat) (l : Lane) (hrun : coreStopped s = false)
    (hp : portInUse s e = true)
    (hother : e = 0 ∨ (topology s ≠ 1 ∧ topology s ≠ 2) ∨ s.on F.KEEP_STAT_WARM = true ∨ s.ebp[1].everTrained = true) :
    ∃ t, exec (.linkTrainingDone e false rtt turn l) s = .next t ∧ t.on (F.EBP_STAT_LOST e) = true ∧
      t.on (F.EBP_STAT_ABSENT e) = false ∧ t.on (F.EBP_CTRL_RETRAIN e) = false ∧
      (s.on (F.EBP_STAT_LOST e) = false → t.on (F.EBP_STAT_TRAINED e) = false ∧ t.on (F.EBP_STAT_LOSTEV e) = true ∧
        (s.get (F.EBP_CNT_LOSTCNT e) < 255 → t.get (F.EBP_CNT_LOSTCNT e) = s.get (F.EBP_CNT_LOSTCNT e) + 1)) := by
  have hen : s.on (F.EBP_CTRL_EN e) = true := by
    simp only [portInUse, Bool.and_eq_true] at hp
    exact hp.1
  have hnot : ¬ (e = 1 ∧ (topology s = 1 ∨ topology s = 2) ∧ s.on F.KEEP_STAT_WARM = false ∧ s.ebp[e.val].everTrained = false) := by
    rintro ⟨rfl, htop, hwarm, hever⟩
    rcases hother with h0 | ⟨h1, h2⟩ | hw | he
    · exact absurd h0 (by decide)
    · exact htop.elim h1 h2
    · exact absurd (hwarm.symm.trans hw) (by decide)
    · exact absurd (hever.symm.trans he) (by decide)
  have hexec : exec (.linkTrainingDone e false rtt turn l) s = .next (trainingEnds e false rtt turn l s) := clockedOut_of_running hrun _
  rw [trainingEnds_untrained hen, if_neg hnot] at hexec
  have hb := butFor_trainingOver e s
  have huse : portInUse (trainingOver e s) e = true := by
    rw [← hp, portInUse, portInUse, hb.on (F.EBP_CTRL_EN e), hb.on (F.EBP_STAT_ABSENT e)]
  have hover : (trainingOver e s).on (F.EBP_CTRL_RETRAIN e) = false :=
    State.on_put_same s (F.EBP_CTRL_RETRAIN e) 0 (Nat.le_of_ble_eq_true rfl)
  obtain ⟨hlost, habsent, hretrain⟩ := loseLink_lost huse
  refine ⟨_, hexec, hlost, habsent, hretrain.trans hover, fun h => ?_⟩
  obtain ⟨htrained, hev, hcnt, -⟩ := loseLink_event huse ((hb.on (F.EBP_STAT_LOST e)).trans h)
  rw [hb.get (F.EBP_CNT_LOSTCNT e)] at hcnt
  exact ⟨htrained, hev, hcnt⟩

/-! ## Losses reported (R374) -/

theorem linkLost_up {s : State} {e : Port} (hrun : coreStopped s = false) (hp : portInUse s e = true)
    (h : s.on (F.EBP_STAT_LOST e) = false) :
    ∃ t, exec (.linkLost e) s = .next t ∧ t.on (F.EBP_STAT_LOST e) = true ∧ t.on (F.EBP_STAT_LOSTEV e) = true ∧
      (s.get (F.EBP_CNT_LOSTCNT e) < 255 → t.get (F.EBP_CNT_LOSTCNT e) = s.get (F.EBP_CNT_LOSTCNT e) + 1) ∧
      t.on (F.EBP_STAT_TRAINED e) = false ∧ t.ebp[e.val].beats = 0 := by
  obtain ⟨htrained, hev, hcnt, hbeats⟩ := loseLink_event hp h
  exact ⟨loseLink e s, clockedOut_of_running hrun _, (loseLink_lost hp).1, hev, hcnt, htrained, hbeats⟩

theorem linkLost_silent {s : State} {e : Port} {l : Lane} (hrun : coreStopped s = false)
    (hp : portInUse s e = true ∧ s.on (F.EBP_STAT_LOST e) = true)
    (hpeer : laneOf (s.get (F.EBP_STAT_PEER e)) = some l ∧ l ∈ peersOf s ∧ peerLinked s l = false ∧ roleSeen s l.val = 1)
    (hown : s.get F.CONT_STAT_ROLE ≠ 0 ∧ leaving s l.val = false)
    (hsilent : framesGone s l = true ∧ lowLong s l = true ∧ within2Ti s s.peers[l.val].lowSince s.peers[l.val].frame = true) :
    ∃ t, exec (.linkLost e) s = .next t ∧ t.on (F.CONT_PEER_LOST l.val) = true ∧ t.on (F.EBP_STAT_LOST e) = true ∧
      t.get (F.EBP_CNT_LOSTCNT e) = s.get (F.EBP_CNT_LOSTCNT e) := by
  obtain ⟨huse, hlost⟩ := hp
  obtain ⟨hl, hmem, hlink, hrole⟩ := hpeer
  obtain ⟨hframes, hlow, htogether⟩ := hsilent
  have hdeclared := loseLink_of_silent huse hlost hl hmem hlink hrole hown.1 hown.2 hframes hlow htogether
  have hdrop := butFor_joinedDrop (.refl ((sendNotice l.val 3 s).put (F.CONT_PEER_LOST l.val) 1)) (fun _ => id)
  have hwidth : ∀ l : Lane, (F.CONT_PEER_LOST l).lo + (F.CONT_PEER_LOST l).w ≤ 32 := by decide
  have hshown : ∀ l : Lane, ∀ f ∈ withdrawFlds, f.disj (F.CONT_PEER_LOST l) = true := by decide
  refine ⟨loseLink e s, clockedOut_of_running hrun _, ?_, (loseLink_lost huse).1,
    (butFor_loseLink_of_lost huse hlost).get (F.EBP_CNT_LOSTCNT e)⟩
  rw [hdeclared, hdrop.on (F.CONT_PEER_LOST l) (hwidth l) (hshown l), State.on_put_same _ _ _ (hwidth l)]
  rfl

/-! ## Training anew (R373, R374) -/

/-- What a TRAIN frame sent changes in registers. -/
theorem butFor_sendTrain {A : List Fld} {u s : State} (h : ButFor A u s) (hA : ∀ f ∈ withdrawFlds, f ∈ A) (e : Port) :
    ButFor A u (sendTrain e s) := by
  unfold sendTrain
  have h' : ButFor A u (countSeq 15 s) := h.modLines _
  exact ButFor.ite h (.upd (.inc (h'.modEbp e (by intro; rfl)) (hA _ (txok_mem_withdrawFlds e))) rfl rfl rfl)

@[simp] theorem sendTrain_mem (e : Port) (s : State) : (sendTrain e s).mem = s.mem := by
  unfold sendTrain
  split <;> rfl

/-- A frame handed to a port is the last of its TYPE there. -/
theorem sentFrame_of_handed (v : State) (e : Port) (ty : Nat) (g : EbpFrame) (line : Ebp → List LineFrame) (cnt : Fld) :
    sentFrame ((v.modEbp e (fun x => { x with sent := Tab.put (fun _ => none) x.sent ty (some g), line := line x })).inc cnt).drew e ty =
      some g := by
  rw [sentFrame, State.drew_ebp, State.inc_eq, State.put_ebp, State.modEbp, upd_same, Tab.get_put_same]

theorem sendTrain_of_running {s : State} (h : coreStopped s = false) (e : Port) :
    sendTrain e s = (((countSeq 15 s).modEbp e (fun x => { x with
      sent := Tab.put (fun _ => none) x.sent 15 (some (frameOf s 15 (leBytes 8 s.free.toNat)))
      line := linePut 3 (frameTicks 15 (frameOf s 15 (leBytes 8 s.free.toNat))) s.tick x.line })).inc (F.EBP_FRAMES_TXOK e)).drew :=
  if_neg (by simp [h])

/-- The TRAIN frame sent, with the 8 free bytes of its payload. -/
theorem sendTrain_sent {s : State} (h : coreStopped s = false) (e : Port) :
    sentFrame (sendTrain e s) e 15 = some (frameOf s 15 (leBytes 8 s.free.toNat)) := by
  rw [sendTrain_of_running h, sentFrame_of_handed]

/-- A port about to train: neither locked nor trained, its BEAT count begun anew. -/
def portUntrained (e : Port) (s : State) : State :=
  ((s.put (F.EBP_STAT_LOCK e) 0).put (F.EBP_STAT_TRAINED e) 0).modEbp e (fun x => { x with
    beats := 0, violations := [], training := portInUse s e })

theorem retrain_eq (e : Port) (s : State) :
    retrain e s = showLinks (if portInUse s e then sendTrain e (portUntrained e s) else portUntrained e s) := rfl

/-- A port that trains anew is neither trained nor locked; its LOST and RETRAIN stand. -/
theorem retrain_shows (e : Port) (s : State) :
    let t := retrain e s
    t.on (F.EBP_STAT_TRAINED e) = false ∧ t.on (F.EBP_STAT_LOCK e) = false ∧ t.on (F.EBP_STAT_LOST e) = s.on (F.EBP_STAT_LOST e) ∧
      t.on (F.EBP_CTRL_RETRAIN e) = s.on (F.EBP_CTRL_RETRAIN e) ∧ t.ebp[e.val].beats = 0 ∧ t.mem = s.mem := by
  have hb : ButFor lossFlds (portUntrained e s) (retrain e s) :=
    butFor_showLinks (ButFor.ite (butFor_sendTrain (.refl _) withdrawFlds_sub_lossFlds e) (.refl _))
  have hmem : (retrain e s).mem = s.mem := by
    rw [retrain_eq, showLinks_mem]
    split
    · exact sendTrain_mem e _
    · rfl
  refine ⟨?_, ?_, ?_, ?_, (hb.beats e).trans ?_, hmem⟩
  · rw [hb.on (F.EBP_STAT_TRAINED e), portUntrained, State.modEbp_on,
      State.on_put_same _ _ _ (Nat.le_of_ble_eq_true rfl)]
    rfl
  · rw [hb.on (F.EBP_STAT_LOCK e), portUntrained, State.modEbp_on,
      State.on_put_apart _ (F.EBP_STAT_TRAINED e) (F.EBP_STAT_LOCK e),
      State.on_put_same _ _ _ (Nat.le_of_ble_eq_true rfl)]
    rfl
  · rw [hb.on (F.EBP_STAT_LOST e), portUntrained, State.modEbp_on,
      State.on_put_apart _ (F.EBP_STAT_TRAINED e) (F.EBP_STAT_LOST e),
      State.on_put_apart _ (F.EBP_STAT_LOCK e) (F.EBP_STAT_LOST e)]
  · rw [hb.on (F.EBP_CTRL_RETRAIN e), portUntrained, State.modEbp_on,
      State.on_put_apart _ (F.EBP_STAT_TRAINED e) (F.EBP_CTRL_RETRAIN e),
      State.on_put_apart _ (F.EBP_STAT_LOCK e) (F.EBP_CTRL_RETRAIN e)]
  · rw [portUntrained, State.modEbp, upd_same]

theorem linkRetrain_lost {s : State} {e : Port} (hrun : coreStopped s = false) (hp : portInUse s e = true)
    (h : s.on (F.EBP_STAT_LOST e) = true) :
    ∃ t, exec (.linkRetrain e) s = .next t ∧ t.on (F.EBP_STAT_TRAINED e) = false ∧ t.on (F.EBP_STAT_LOCK e) = false ∧
      t.on (F.EBP_STAT_LOST e) = true ∧ t.ebp[e.val].beats = 0 ∧ t.mem = s.mem := by
  have hexec : exec (.linkRetrain e) s = .next (if portInUse s e && s.on (F.EBP_STAT_LOST e) then retrain e s else s) :=
    clockedOut_of_running hrun _
  rw [hp, h, Bool.and_self, if_pos rfl] at hexec
  obtain ⟨htrained, hlock, hlost, -, hbeats, hmem⟩ := retrain_shows e s
  exact ⟨_, hexec, htrained, hlock, hlost.trans h, hbeats, hmem⟩

theorem retrainRequest_enabled {s : State} {e : Port} (hrun : coreStopped s = false) (hen : s.on (F.EBP_CTRL_EN e) = true) :
    ∃ t, exec (.retrainRequest e) s = .next t ∧ t.on (F.EBP_CTRL_RETRAIN e) = true ∧ t.on (F.EBP_STAT_TRAINED e) = false ∧
      t.on (F.EBP_STAT_LOCK e) = false ∧ t.mem = s.mem := by
  have hexec : exec (.retrainRequest e) s = .next (if s.on (F.EBP_CTRL_EN e) then retrain e (s.put (F.EBP_CTRL_RETRAIN e) 1) else s) :=
    clockedOut_of_running hrun _
  rw [if_pos hen] at hexec
  obtain ⟨htrained, hlock, -, hretrain, -, hmem⟩ := retrain_shows e (s.put (F.EBP_CTRL_RETRAIN e) 1)
  exact ⟨_, hexec, hretrain.trans (State.on_put_same s (F.EBP_CTRL_RETRAIN e) 1 (Nat.le_of_ble_eq_true rfl)), htrained, hlock, hmem⟩

/-! ## Code violations (R374) -/

/-- The ticks of the code violations of the last 64 symbols (256 ticks). -/
def recentViolations (e : Port) (s : State) : List Nat := s.ebp[e.val].violations.filter (fun t => decide (s.tick < t + 256))

/-- A violation counted and noted. -/
def violationNoted (e : Port) (s : State) : State :=
  (s.countBit (F.EBP_CNT_CODEERR e) (F.EBP_CNT_OVF e) 1).modEbp e (fun x => { x with
    violations := (s.tick :: x.violations.filter (fun t => decide (s.tick < t + 256))).take 4 })

theorem violationNoted_violations (e : Port) (s : State) :
    (violationNoted e s).ebp[e.val].violations = (s.tick :: recentViolations e s).take 4 := by
  rw [violationNoted, State.modEbp, upd_same, State.countBit_ebp]
  rfl

theorem butFor_violationNoted (e : Port) (s : State) :
    ButFor [F.EBP_CNT_CODEERR e, F.EBP_CNT_OVF e] s (violationNoted e s) :=
  ((ButFor.refl s).countBit (by simp) (by simp) 1).modEbp e (by intro; rfl)

theorem codeError_of_inUse {e : Port} {s : State} (hp : portInUse s e = true) :
    codeError e s = if 3 ≤ (recentViolations e s).length then loseLink e (violationNoted e s) else violationNoted e s := by
  have hlen : 4 ≤ (violationNoted e s).ebp[e.val].violations.length ↔ 3 ≤ (recentViolations e s).length := by
    rw [violationNoted_violations, List.length_take, List.length_cons]
    omega
  simp only [codeError, hp, Bool.not_true, Bool.false_eq_true, if_false, State.countBit_tick]
  exact if_congr hlen rfl rfl

theorem codeViolation_counted {s : State} {e : Port} (hrun : coreStopped s = false) (hp : portInUse s e = true)
    (h : (recentViolations e s).length < 3) :
    ∃ t, exec (.codeViolation e) s = .next t ∧ t.on (F.EBP_STAT_LOST e) = s.on (F.EBP_STAT_LOST e) ∧
      (s.get (F.EBP_CNT_CODEERR e) < 255 → t.get (F.EBP_CNT_CODEERR e) = s.get (F.EBP_CNT_CODEERR e) + 1) ∧
      t.ebp[e.val].violations = s.tick :: recentViolations e s ∧ t.mem = s.mem := by
  have hexec : exec (.codeViolation e) s = .next (codeError e s) := clockedOut_of_running hrun _
  rw [codeError_of_inUse hp, if_neg (by omega)] at hexec
  refine ⟨_, hexec, (butFor_violationNoted e s).on (F.EBP_STAT_LOST e), fun hlt => ?_, ?_, State.countBit_mem s _ _ 1⟩
  · exact State.get_countBit_of_below (Nat.le_of_ble_eq_true rfl) (Nat.add_lt_add_right hlt 1)
  · rw [violationNoted_violations, List.take_of_length_le (by rw [List.length_cons]; omega)]

theorem codeViolation_fourth {s : State} {e : Port} (hrun : coreStopped s = false) (hp : portInUse s e = true)
    (h : 3 ≤ (recentViolations e s).length) :
    ∃ t, exec (.codeViolation e) s = .next t ∧ t.on (F.EBP_STAT_LOST e) = true := by
  have hexec : exec (.codeViolation e) s = .next (codeError e s) := clockedOut_of_running hrun _
  rw [codeError_of_inUse hp, if_pos h] at hexec
  have huse : portInUse (violationNoted e s) e = true := by
    rw [← hp, portInUse, portInUse, (butFor_violationNoted e s).on (F.EBP_CTRL_EN e),
      (butFor_violationNoted e s).on (F.EBP_STAT_ABSENT e)]
  exact ⟨_, hexec, (loseLink_lost huse).1⟩

/-! ## TRAIN frames (R373, R376) -/

/-- A fresh frame noted as received: counted for its port, heard from its lane, and its SEQ seen (R376). -/
def frameNoted (e : Port) (ty : Nat) (f : EbpFrame) (l : Lane) (s : State) : State :=
  ((s.inc (F.EBP_FRAMES_RXOK e)).modPeer l (fun p => { p with frame := some s.tick })).modLines (fun x => { x with
    seen := Tab.put (fun _ => []) x.seen (4 * ty + l.val)
      ((f.seq.toNat :: Tab.get (fun _ => []) s.lines.seen (4 * ty + l.val)).take 16) })

/-- A fresh frame but a BEAT is noted and then acts. -/
theorem frameIn_of_fresh {e : Port} {ty len : Nat} {f : EbpFrame} {l : Lane} {s : State} (h : freshFrame e ty len f l s) (hty : ty ≠ 6)
    (act : Lane → State → State) : frameIn e ty len f act s = act l (frameNoted e ty f l s) := by
  obtain ⟨hp, hcrc, hpay, hlen, hset, hsrc, hother, hseq⟩ := h
  have hlenOk : frameLenOk len f = true := by simp [frameLenOk, hpay, hlen]
  simp only [frameIn, hp, hcrc, hlenOk, hset, hsrc, hty, Bool.not_true, Bool.false_eq_true, if_false, bne_self_eq_false, Bool.or_self,
    beq_eq_false_iff_ne.mpr hother]
  exact if_neg hseq

/-- Training and links but for the frame count of the port are as they were. -/
theorem butFor_frameNoted (e : Port) (ty : Nat) (f : EbpFrame) (l : Lane) (s : State) :
    ButFor [F.EBP_FRAMES_RXOK e] s (frameNoted e ty f l s) :=
  .upd ((ButFor.refl s).inc (by simp)) rfl rfl rfl

theorem trainReceived_fresh {s : State} {e : Port} {f : EbpFrame} {l : Lane} (hrun : coreStopped s = false)
    (hf : freshFrame e 15 8 f l s) :
    ∃ t, exec (.trainReceived e f) s = .next t ∧ t.on (F.EBP_STAT_LOCK e) = true ∧
      t.on (F.EBP_STAT_TRAINED e) = s.on (F.EBP_STAT_TRAINED e) ∧
      (s.on (F.EBP_STAT_TRAINED e) = false →
        ∃ g, sentFrame t e 15 = some g ∧ g.payload.length = 8 ∧ g.src.toNat = laneId s) ∧ t.mem = s.mem := by
  have hexec : exec (.trainReceived e f) s = .next (trainIn e f s) := clockedOut_of_running hrun _
  rw [trainIn, frameIn_of_fresh hf (by decide)] at hexec
  have hnoted := butFor_frameNoted e 15 f l s
  generalize hv : (frameNoted e 15 f l s).put (F.EBP_STAT_LOCK e) 1 = v at hexec
  have hlock : v.on (F.EBP_STAT_LOCK e) = true := by
    rw [← hv, State.on_put_same _ _ _ (Nat.le_of_ble_eq_true rfl)]
    rfl
  have htrained : v.on (F.EBP_STAT_TRAINED e) = s.on (F.EBP_STAT_TRAINED e) := by
    rw [← hv, State.on_put_apart _ (F.EBP_STAT_LOCK e) (F.EBP_STAT_TRAINED e),
      hnoted.on (F.EBP_STAT_TRAINED e)]
  have hlane : laneId v = laneId s := by
    rw [← hv, laneId, laneId, State.get_put_apart _ (F.EBP_STAT_LOCK e) F.SEAL_STRAP_WORD,
      hnoted.get F.SEAL_STRAP_WORD]
  have hruns : coreStopped v = false := by
    rw [← hrun]
    refine coreStopped_congr (hv ▸ rfl) ?_
    rw [← hv, State.get_put_apart _ (F.EBP_STAT_LOCK e) F.PWR_STAT_STATE,
      hnoted.get F.PWR_STAT_STATE]
  have hmem : v.mem = s.mem := hv ▸ rfl
  have hb := butFor_sendTrain (.refl v) (fun _ => id) e
  cases h : v.on (F.EBP_STAT_TRAINED e)
  case true =>
    rw [if_pos h] at hexec
    exact ⟨v, hexec, hlock, htrained, fun hs => absurd (h.symm.trans (htrained.trans hs)) (by decide), hmem⟩
  case false =>
    rw [if_neg (by simp [h])] at hexec
    refine ⟨_, hexec, (hb.on (F.EBP_STAT_LOCK e)).trans hlock,
      (hb.on (F.EBP_STAT_TRAINED e)).trans htrained,
      fun _ => ⟨_, sendTrain_sent hruns e, rfl, ?_⟩, (sendTrain_mem e v).trans hmem⟩
    rw [← hlane]
    exact Nat.mod_eq_of_lt (Nat.mod_lt _ (by decide))

/-! ## Slates (R382, R383) -/

theorem toSigned_mod (w n : Nat) : toSigned w (n % 2 ^ w) = toSigned w n := by
  simp only [toSigned, Nat.mod_mod]

theorem toSigned_ofSigned_8 {i : Int} (hlo : -128 ≤ i) (hhi : i < 128) : toSigned 8 (ofSigned 8 i) = i := by
  simp only [toSigned, ofSigned]
  norm_num only
  split <;> omega

theorem clipSigned_8_range (i : Int) : -128 ≤ clipSigned 8 i ∧ clipSigned 8 i < 128 := by
  simp only [clipSigned]
  norm_num only
  omega

/-- A slate's error kept, with the run of good ones. -/
def slateNoted (e : Port) (err : Int) (s : State) : State :=
  (s.putS (F.EBP_SLATE_ERR e) (clipSigned 8 err)).modEbp e (fun x => { x with
    err := some err, good := if err.natAbs ≤ 5 then x.good + 1 else 0 })

/-- Sixteen good slates lock. -/
def slateLocked (e : Port) (s : State) : State := if 16 ≤ s.ebp[e.val].good then s.put (F.EBP_STAT_SLATELOCK e) 1 else s

theorem slateLocked_ebp (e : Port) (s : State) : (slateLocked e s).ebp = s.ebp := by
  unfold slateLocked; split <;> rfl

theorem slateLocked_mem (e : Port) (s : State) : (slateLocked e s).mem = s.mem := by
  unfold slateLocked; split <;> rfl

/-- A follower's slate: kept and judged for the lock; one marked as an outer tick moves an angle block's count besides. -/
theorem slateIn_of_follower {e : Port} {s : State} (hp : portUp s e = true) (hl : slateLeader s = false) (n : Nat) (o : Bool) :
    slateIn e n o s = slateLocked e (slateNoted e (slateError e n s) s) ∨
      ∃ b f, slateIn e n o s = (slateLocked e (slateNoted e (slateError e n s) s)).modAng b f := by
  simp only [slateIn, hp, hl, Bool.not_true, Bool.or_self, Bool.false_eq_true, if_false]
  cases o
  · exact .inl rfl
  · exact .inr ⟨_, _, rfl⟩

/-- A follower's slate as its port shows it. -/
theorem slateLocked_shows (e : Port) (err : Int) (s : State) :
    let t := slateLocked e (slateNoted e err s)
    t.getS (F.EBP_SLATE_ERR e) = clipSigned 8 err ∧ t.ebp[e.val].err = some err ∧
      t.ebp[e.val].good = (if err.natAbs ≤ 5 then s.ebp[e.val].good + 1 else 0) ∧
      t.on (F.EBP_STAT_SLATELOCK e) = (s.on (F.EBP_STAT_SLATELOCK e) || decide (16 ≤ t.ebp[e.val].good)) ∧ t.mem = s.mem := by
  have hnoted : (slateNoted e err s).ebp[e.val] = { s.ebp[e.val] with
      err := some err, good := if err.natAbs ≤ 5 then s.ebp[e.val].good + 1 else 0 } := upd_same _ e _
  have hlocked : ∀ v : State, ButFor [F.EBP_STAT_SLATELOCK e] v (slateLocked e v) :=
    fun v => ButFor.ite ((ButFor.refl v).put (by simp) 1) (.refl v)
  have hkept : (slateNoted e err s).on (F.EBP_STAT_SLATELOCK e) = s.on (F.EBP_STAT_SLATELOCK e) :=
    State.on_put_apart s (F.EBP_SLATE_ERR e) (F.EBP_STAT_SLATELOCK e) _
  refine ⟨?_, ?_, ?_, ?_, slateLocked_mem e _⟩
  · have hget : (slateNoted e err s).get (F.EBP_SLATE_ERR e) = ofSigned 8 (clipSigned 8 err) % 2 ^ 8 :=
      State.get_put_same s (F.EBP_SLATE_ERR e) _ (Nat.le_of_ble_eq_true rfl)
    obtain ⟨hlo, hhi⟩ := clipSigned_8_range err
    rw [State.getS, (hlocked _).get (F.EBP_SLATE_ERR e), hget]
    exact (toSigned_mod 8 _).trans (toSigned_ofSigned_8 hlo hhi)
  · rw [slateLocked_ebp, hnoted]
  · rw [slateLocked_ebp, hnoted]
  · rw [slateLocked_ebp, slateLocked]
    split
    · next h =>
      rw [State.on_put_same _ _ _ (Nat.le_of_ble_eq_true rfl), decide_eq_true h, Bool.or_true]
      rfl
    · next h => rw [decide_eq_false h, Bool.or_false, hkept]

theorem slateReceived_follower {s : State} {e : Port} {n : Fin 4} (o : Bool) (hrun : coreStopped s = false)
    (hp : portUp s e = true) (hl : slateLeader s = false) :
    ∃ t, exec (.slateReceived e n o) s = .next t ∧ t.getS (F.EBP_SLATE_ERR e) = clipSigned 8 (slateError e n.val s) ∧
      t.ebp[e.val].err = some (slateError e n.val s) ∧
      t.ebp[e.val].good = (if (slateError e n.val s).natAbs ≤ 5 then s.ebp[e.val].good + 1 else 0) ∧
      t.on (F.EBP_STAT_SLATELOCK e) = (s.on (F.EBP_STAT_SLATELOCK e) || decide (16 ≤ t.ebp[e.val].good)) ∧ t.mem = s.mem := by
  have hexec : exec (.slateReceived e n o) s = .next (slateIn e n.val o s) := clockedOut_of_running hrun _
  have hshows := slateLocked_shows e (slateError e n.val s) s
  refine ⟨_, hexec, ?_⟩
  rcases slateIn_of_follower hp hl n.val o with h | ⟨b, f, h⟩
  · rw [h]
    exact hshows
  · rw [h]
    exact hshows

theorem slateReceived_leader {s : State} (e : Port) (n : Fin 4) (o : Bool) (hrun : coreStopped s = false) (hl : slateLeader s = true) :
    exec (.slateReceived e n o) s = .next s := by
  have hexec : exec (.slateReceived e n o) s = .next (slateIn e n.val o s) := clockedOut_of_running hrun _
  rw [hexec, slateIn, hl, Bool.or_true, if_pos rfl]

end Sys2Proof.Machine

open Sys2Proof Sys2Proof.Machine in
/-- Settles O43: what the loss of a link may change in CONT is listed (`lossFlds`), and a port's own fields are none of it; each clause is
the command's own lemma. -/
theorem ebpenLink : Obligations.EbpenLink := by
  refine ⟨fun s e rtt turn l hrun hen hspan => linkTrainingDone_trained l hrun hen hspan,
    fun s rtt turn l hrun hen htop hcold => linkTrainingDone_absent rtt turn l hrun hen htop hcold,
    fun s e rtt turn l hrun hp hother => linkTrainingDone_lost rtt turn l hrun hp hother,
    fun s e hrun hp h => linkLost_up hrun hp h,
    fun s e hrun h => (clockedOut_of_running hrun _).trans (congrArg Host.Outcome.next (loseLink_of_idle h)),
    fun s e l hrun hp hpeer hown hsilent => linkLost_silent hrun hp hpeer hown hsilent,
    fun s e hrun hp h => linkRetrain_lost hrun hp h, fun s e hrun hen => retrainRequest_enabled hrun hen,
    fun s e hrun hp h => codeViolation_counted hrun hp h, fun s e hrun hp h => codeViolation_fourth hrun hp h,
    fun s e f l hrun hf => trainReceived_fresh hrun hf, fun s e err n o hrun hp hl herr => ?_,
    fun s e n o hrun hl => slateReceived_leader e n o hrun hl, fun s hstop => ?_⟩
  · subst herr
    exact slateReceived_follower o hrun hp hl
  · exact ⟨fun e b r t l => clockedOut_of_stopped hstop _, fun e => clockedOut_of_stopped hstop _, fun e => clockedOut_of_stopped hstop _,
      fun e => clockedOut_of_stopped hstop _, fun e f => clockedOut_of_stopped hstop _, fun e n o => clockedOut_of_stopped hstop _,
      fun e => clockedOut_of_stopped hstop _⟩
end

section
/-!
SUPPORT. A port fault in a joined lane (R235, R322, R411), and a loss of the configuration link in a lane that leaves a bridge unused
(R38, R353).
-/
namespace Sys2Proof.Machine

/-- A lane in the six-phase law whose inner engine 3, bound to bridge A in FOC, runs an activation; entry 0 of its port table is valid
without write permission. -/
def joinedEngine : State :=
  ((((State.reset.put (F.HLE_ENGSTAT_BUSY 3) 1).put (F.HLE_ENGCTRL_BIND 3) 1).put (F.MC_STAT_MODE 0) modeFoc).put
    F.CONT_STAT_JOINED 1).setMemWord (engBase 3 + 0x6000) 1

/-- The engine fault takes bridge A to OUT, and CONT drops the six-phase law by writing the engine's word JMODE (R411). -/
theorem portOut_joinedEngine_mem : (portOut 3 0 0 false joinedEngine).mem ≠ joinedEngine.mem := by
  decide +kernel

/-- A lane that uses bridge A alone, with its supply in force and LLSTATE of bridge B asking for active short. -/
def bridgeBUnused : State :=
  ((State.reset.put F.SEAL_STRAP_WORD 0xF000).put (F.GD_CTRL_LLSTATE 1) 1).modDriver (fun d => { d with underVolt := false })

/-- The gate outputs of a bridge not in use are held low, whatever its LLSTATE (R38). -/
theorem legState_linkLoss_bridgeBUnused : legState (linkLoss bridgeBUnused) 1 0 = .highImpedance := by
  decide +kernel

end Sys2Proof.Machine

open Sys2Proof Sys2Proof.Machine in
/-- Refutes O12: its clause on OUT through an entry without write permission has memory unchanged, but the port fault of an engine bound
to a joined lane's bridge ends the six-phase law, and CONT writes the engine's word JMODE. -/
theorem not_enginePorts : ¬ Obligations.EnginePorts := by
  intro h
  obtain ⟨-, -, -, -, hdenied, -⟩ := h
  obtain ⟨⟨t, hexec, -, -, -, -, hmem⟩, -⟩ := hdenied joinedEngine 3 0 0 (by decide +kernel) (by decide +kernel)
  obtain rfl : portOut 3 0 0 false joinedEngine = t := Host.Outcome.next.inj hexec
  exact portOut_joinedEngine_mem hmem

open Sys2Proof Sys2Proof.Machine in
/-- Refutes O39: its clause on the loss of the link has every leg outside rows 1 to 3 of R353 in LLSTATE, but the legs of an unused bridge
have no row: a bridge B not in use stays at high impedance where its LLSTATE asks for active short. -/
theorem not_linkFramesAndLosses : ¬ Obligations.LinkFramesAndLosses := by
  intro h
  obtain ⟨-, hloss, -⟩ := h
  obtain ⟨t, hexec, -, -, -, hleg⟩ := hloss bridgeBUnused
  obtain rfl : linkLoss bridgeBUnused = t := Host.Outcome.next.inj hexec
  have hshort := hleg 1 0 (by decide +kernel) (by decide +kernel) (by decide +kernel)
  have hll : bridgeBUnused.on (F.GD_CTRL_LLSTATE 1) = true := by decide +kernel
  exact absurd (legState_linkLoss_bridgeBUnused.symm.trans (hshort.trans (if_pos hll))) (by decide)
end

section
/-!
SUPPORT. The restarts of S and G (R426), the bus-error capture cleared (R76), and the clock monitors (R80, R427).
-/
namespace Sys2Proof.Machine

/-! ## Restarts (R426) -/

/-- Runs of bytes written change memory alone. -/
theorem foldl_setBytes_eq {β : Type} (a : β → Nat) (b : β → List Byte) (l : List β) (s : State) :
    ∃ m, l.foldl (fun t x => t.setBytes (a x) (b x)) s = { s with mem := m } := by
  induction l generalizing s with
  | nil => exact ⟨s.mem, rfl⟩
  | cons x l ih =>
    obtain ⟨m, hm⟩ := State.setBytes_eq s (a x) (b x)
    obtain ⟨m', hm'⟩ := ih (s.setBytes (a x) (b x))
    exact ⟨m', by rw [List.foldl_cons, hm', hm]⟩

theorem loadImage_eq (h : Nat) (s : State) : ∃ m, loadImage h s = { s with mem := m } :=
  foldl_setBytes_eq (fun x : Nat × Nat × Nat => x.1) (fun x => s.bytes (h + 256 + x.2.1) x.2.2) (imageSections s h) s

/-- S running again, before its image is loaded. -/
def serviceRunning (s : State) : State := s.modSys (fun y => { y with sDown := false })

theorem serviceRestart_of_image {s : State} {h : Nat} (hi : imageOf s (s.on F.KEEP_STAT_BANK) 2 = some h) :
    serviceRestart s = loadImage h (serviceRunning s) := by
  have hi' : imageOf (serviceRunning s) ((serviceRunning s).on F.KEEP_STAT_BANK) 2 = some h := hi
  unfold serviceRestart
  dsimp only
  rw [← serviceRunning, hi']

theorem serviceRestart_of_none {s : State} (hi : imageOf s (s.on F.KEEP_STAT_BANK) 2 = none) :
    serviceRestart s = serviceRunning s := by
  have hi' : imageOf (serviceRunning s) ((serviceRunning s).on F.KEEP_STAT_BANK) 2 = none := hi
  unfold serviceRestart
  dsimp only
  rw [← serviceRunning, hi']

/-- With its image or without one, S runs again and no register changes. -/
theorem serviceRestart_runs (s : State) :
    (serviceRestart s).sys = { s.sys with sDown := false } ∧ (serviceRestart s).regs = s.regs := by
  cases hi : imageOf s (s.on F.KEEP_STAT_BANK) 2 with
  | none => rw [serviceRestart_of_none hi]; exact ⟨rfl, rfl⟩
  | some h =>
    obtain ⟨m, hm⟩ := loadImage_eq h (serviceRunning s)
    rw [serviceRestart_of_image hi, hm]
    exact ⟨rfl, rfl⟩

theorem exec_serviceRestart (s : State) :
    exec .serviceRestart s =
      .next (if s.keep.start.isSome || s.keep.failWait || !issues s .k || !s.sys.sDown then s else serviceRestart s) := rfl

theorem serviceRestart_next {s : State} (hs : s.keep.start = none) (hw : s.keep.failWait = false) (hk : issues s .k = true)
    (hd : s.sys.sDown = true) :
    ∃ t, exec .serviceRestart s = .next t ∧ t.sys = { s.sys with sDown := false } ∧ t.regs = s.regs ∧
      (imageOf s (s.on F.KEEP_STAT_BANK) 2 = none → t.mem = s.mem) ∧
      (∀ h, imageOf s (s.on F.KEEP_STAT_BANK) 2 = some h → t = loadImage h (s.modSys (fun y => { y with sDown := false }))) := by
  obtain ⟨hsys, hregs⟩ := serviceRestart_runs s
  refine ⟨serviceRestart s, by simp [exec_serviceRestart, hs, hw, hk, hd], hsys, hregs, fun hi => ?_, fun h hi => ?_⟩
  · rw [serviceRestart_of_none hi]; rfl
  · exact serviceRestart_of_image hi

theorem serviceRestart_idle {s : State}
    (h : s.keep.start.isSome = true ∨ s.keep.failWait = true ∨ issues s .k = false ∨ s.sys.sDown = false) :
    exec .serviceRestart s = .next s := by
  rcases h with h | h | h | h <;> simp [exec_serviceRestart, h]

theorem exec_gafferRestart (s : State) :
    exec .gafferRestart s =
      .next (if s.keep.start.isSome || enginesHeld s || !issues s .k then s else s.modSys (fun y => { y with gDown := false })) := rfl

theorem gafferRestart_next {s : State} (hs : s.keep.start = none) (hh : enginesHeld s = false) (hk : issues s .k = true) :
    exec .gafferRestart s = .next (s.modSys (fun y => { y with gDown := false })) := by
  simp [exec_gafferRestart, hs, hh, hk]

theorem gafferRestart_idle {s : State} (h : s.keep.start.isSome = true ∨ enginesHeld s = true ∨ issues s .k = false) :
    exec .gafferRestart s = .next s := by
  rcases h with h | h | h <;> simp [exec_gafferRestart, h]

/-! ## The capture of refused accesses cleared (R76) -/

/-- The capture with VALID, COUNT and OVF cleared. -/
def captureCleared (s : State) : State := ((s.put F.SYS_BUSERR_VALID 0).put F.SYS_BUSERR_COUNT 0).put F.SYS_BUSERR_OVF 0

theorem butFor_captureCleared (s : State) :
    ButFor [F.SYS_BUSERR_VALID, F.SYS_BUSERR_COUNT, F.SYS_BUSERR_OVF] s (captureCleared s) :=
  (((ButFor.refl s).put (by simp) 0).put (by simp) 0).put (by simp) 0

theorem captureCleared_rd_other (s : State) {a : Nat} (h : a ≠ 0x40000040) : (captureCleared s).rd a = s.rd a :=
  (State.rd_put_other _ F.SYS_BUSERR_OVF 0 h).trans
    ((State.rd_put_other _ F.SYS_BUSERR_COUNT 0 h).trans (State.rd_put_other s F.SYS_BUSERR_VALID 0 h))

theorem buserrValidClear_next (s : State) :
    ∃ t, exec .buserrValidClear s = .next t ∧ t.get F.SYS_BUSERR_VALID = 0 ∧ t.get F.SYS_BUSERR_COUNT = 0 ∧
      t.get F.SYS_BUSERR_OVF = 0 ∧ t.get F.SYS_BUSERR_REQ = s.get F.SYS_BUSERR_REQ ∧ t.get F.SYS_BUSERR_WR = s.get F.SYS_BUSERR_WR ∧
      (∀ a, a ≠ 0x40000040 → t.rd a = s.rd a) ∧ t.mem = s.mem := by
  have hb := butFor_captureCleared s
  refine ⟨captureCleared s, rfl, ?_, ?_, ?_, hb.get _, hb.get _, fun a ha => captureCleared_rd_other s ha, rfl⟩
  · exact (State.get_put_apart _ F.SYS_BUSERR_OVF _ _).trans ((State.get_put_apart _ F.SYS_BUSERR_COUNT _ _).trans
      (State.get_put_same _ _ _ (by decide)))
  · exact (State.get_put_apart _ F.SYS_BUSERR_OVF _ _).trans (State.get_put_same _ _ _ (by decide))
  · exact State.get_put_same _ _ _ (by decide)

/-! ## The clock monitors (R80, R427) -/

/-- A window of the PLL-side monitor judged: the deviations shown, the flags of the bands left, the windows in band counted. -/
def pllJudged (v a : Int) (s : State) : State :=
  ((((((s.putS F.SYS_CLKMON_VRCDEV (shownDev s v)).putS F.SYS_CLKMON_AORCDEV (shownDev s a)).drew).when (decide (400 < v.natAbs))
    (·.put F.SYS_CLKMON_VRCOUT 1)).when (decide (600 < a.natAbs)) (·.put F.SYS_CLKMON_AORCOUT 1)).modSys (fun y => { y with
      vrcOut := decide (400 < v.natAbs), aorcOut := decide (600 < a.natAbs)
      okWindows := okNext (decide (400 < v.natAbs) || decide (600 < a.natAbs)) y.okWindows }))

/-- Two windows in a row out of one band set the cut latch. -/
theorem pllWindow_eq (v a : Int) (s : State) :
    pllWindow v a s =
      if decide (400 < v.natAbs) && s.sys.vrcOut || decide (600 < a.natAbs) && s.sys.aorcOut then setCut causeClk (pllJudged v a s)
      else pllJudged v a s := by
  have hsys : ∀ (x y : Int), ((s.putS F.SYS_CLKMON_VRCDEV x).putS F.SYS_CLKMON_AORCDEV y).drew.sys = s.sys := fun _ _ => rfl
  simp only [pllWindow, hsys]
  rfl

theorem pllJudged_mem (v a : Int) (s : State) : (pllJudged v a s).mem = s.mem := by
  unfold pllJudged State.when
  split_ifs <;> rfl

theorem pllJudged_sys (v a : Int) (s : State) :
    (pllJudged v a s).sys = { s.sys with
      vrcOut := decide (400 < v.natAbs), aorcOut := decide (600 < a.natAbs)
      okWindows := okNext (decide (400 < v.natAbs) || decide (600 < a.natAbs)) s.sys.okWindows } := by
  unfold pllJudged State.when
  split_ifs <;> rfl

/-- A judged window changes SYS_CLKMON alone. -/
theorem pllJudged_rd_other (v a : Int) (s : State) {x : Nat} (h : x ≠ 0x40000020) : (pllJudged v a s).rd x = s.rd x := by
  have hput : ∀ (u : State) (f : Fld) (n : Nat), f.addr = 0x40000020 → (u.put f n).rd x = u.rd x :=
    fun u f n hf => State.rd_put_other u f n (by rw [hf]; exact h)
  simp only [pllJudged, State.modSys_rd, State.when, apply_ite (fun u => State.rd u x), hput _ F.SYS_CLKMON_VRCOUT _ rfl,
    hput _ F.SYS_CLKMON_AORCOUT _ rfl, State.drew_rd, State.putS_eq, hput _ F.SYS_CLKMON_VRCDEV _ rfl,
    hput _ F.SYS_CLKMON_AORCDEV _ rfl, ite_self]

theorem pllJudged_vrcOut {v : Int} (h : 400 < v.natAbs) (a : Int) (s : State) :
    (pllJudged v a s).get F.SYS_CLKMON_VRCOUT = 1 := by
  rw [pllJudged, State.modSys_get, decide_eq_true h]
  exact (ButFor.when (.refl _) ((ButFor.refl (A := [F.SYS_CLKMON_AORCOUT]) _).put (by simp) 1) _).get _ |>.trans
    (State.get_put_same _ _ _ (by decide))

theorem pllJudged_aorcOut {a : Int} (h : 600 < a.natAbs) (v : Int) (s : State) :
    (pllJudged v a s).get F.SYS_CLKMON_AORCOUT = 1 := by
  rw [pllJudged, State.modSys_get, decide_eq_true h]
  exact State.get_put_same _ _ _ (by decide)

theorem pllJudged_of_in_band {v a : Int} (hv : v.natAbs ≤ 400) (ha : a.natAbs ≤ 600) (s : State) :
    pllJudged v a s = (((s.putS F.SYS_CLKMON_VRCDEV (shownDev s v)).putS F.SYS_CLKMON_AORCDEV (shownDev s a)).drew).modSys
      (fun z => { z with vrcOut := false, aorcOut := false, okWindows := min 10 (z.okWindows + 1) }) := by
  rw [pllJudged, decide_eq_false (Nat.not_lt.mpr hv), decide_eq_false (Nat.not_lt.mpr ha)]
  rfl

/-- A window of the VRC-side monitor judged. -/
def vrcJudged (v : Int) (s : State) : State :=
  (((s.putS F.SYS_CLKMON_VRCDEV (shownDev s v)).drew).when (decide (400 < v.natAbs)) (·.put F.SYS_CLKMON_VRCOUT 1)).modSys
    (fun y => { y with vsideOut := decide (400 < v.natAbs), vsideOk := okNext (decide (400 < v.natAbs)) y.vsideOk })

theorem vrcWindow_eq (v : Int) (s : State) :
    vrcWindow v s = if decide (400 < v.natAbs) && s.sys.vsideOut then setCut causeClk (vrcJudged v s) else vrcJudged v s := rfl

theorem vrcJudged_of_out {v : Int} (h : 400 < v.natAbs) (s : State) :
    (vrcJudged v s).get F.SYS_CLKMON_VRCOUT = 1 ∧ (vrcJudged v s).sys.vsideOk = 0 ∧ (vrcJudged v s).mem = s.mem := by
  rw [vrcJudged, decide_eq_true h]
  exact ⟨State.get_put_same _ F.SYS_CLKMON_VRCOUT _ (by decide), rfl, rfl⟩

theorem vrcJudged_of_in_band {v : Int} (h : v.natAbs ≤ 400) (s : State) :
    vrcJudged v s = ((s.putS F.SYS_CLKMON_VRCDEV (shownDev s v)).drew).modSys
      (fun z => { z with vsideOut := false, vsideOk := min 10 (z.vsideOk + 1) }) := by
  rw [vrcJudged, decide_eq_false (Nat.not_lt.mpr h)]
  rfl

theorem exec_clockMonitorWindow_pll {s : State} (h : s.sys.suspended = false) (v a : Int) :
    exec (.clockMonitorWindow v (some a)) s = .next (pllWindow v a s) :=
  congrArg Host.Outcome.next (if_neg (by simp [h]))

theorem exec_clockMonitorWindow_vrc {s : State} (h : s.sys.suspended = false) (v : Int) :
    exec (.clockMonitorWindow v none) s = .next (vrcWindow v s) :=
  congrArg Host.Outcome.next (if_neg (by simp [h]))

theorem clockMonitor_suspended {s : State} (h : s.sys.suspended = true) (v : Int) (a : Option Int) :
    exec (.clockMonitorWindow v a) s = .next s ∧ exec .pllLossOfLock s = .next s :=
  ⟨congrArg Host.Outcome.next (if_pos h), congrArg Host.Outcome.next (if_pos h)⟩

theorem clockMonitorWindow_in_band {s : State} {v a : Int} (h : s.sys.suspended = false) (hv : v.natAbs ≤ 400) (ha : a.natAbs ≤ 600) :
    exec (.clockMonitorWindow v (some a)) s = .next (pllJudged v a s) := by
  rw [exec_clockMonitorWindow_pll h, pllWindow_eq, decide_eq_false (Nat.not_lt.mpr hv), decide_eq_false (Nat.not_lt.mpr ha)]
  rfl

theorem clockMonitorWindow_second_out {s : State} {v a : Int} (h : s.sys.suspended = false)
    (hout : (s.sys.vrcOut = true ∧ 400 < v.natAbs) ∨ (s.sys.aorcOut = true ∧ 600 < a.natAbs)) :
    ∃ t, exec (.clockMonitorWindow v (some a)) s = .next (setCut causeClk t) ∧ (400 < v.natAbs → t.get F.SYS_CLKMON_VRCOUT = 1) ∧
      (600 < a.natAbs → t.get F.SYS_CLKMON_AORCOUT = 1) ∧ t.sys.okWindows = 0 ∧ t.mem = s.mem := by
  have hhit : (decide (400 < v.natAbs) && s.sys.vrcOut || decide (600 < a.natAbs) && s.sys.aorcOut) = true := by
    rcases hout with ⟨ho, hv⟩ | ⟨ho, ha⟩
    · simp [ho, hv]
    · simp [ho, ha]
  have hany : (decide (400 < v.natAbs) || decide (600 < a.natAbs)) = true := by
    rcases hout with ⟨-, hv⟩ | ⟨-, ha⟩
    · simp [hv]
    · simp [ha]
  refine ⟨pllJudged v a s, ?_, fun hv => pllJudged_vrcOut hv a s, fun ha => pllJudged_aorcOut ha v s, ?_, pllJudged_mem v a s⟩
  · rw [exec_clockMonitorWindow_pll h, pllWindow_eq, if_pos hhit]
  · rw [pllJudged_sys, hany]
    rfl

theorem clockMonitorWindow_first_out {s : State} {v a : Int} (h : s.sys.suspended = false) (ho : s.sys.vrcOut = false)
    (hv : 400 < v.natAbs) (ha : a.natAbs ≤ 600) :
    ∃ t, exec (.clockMonitorWindow v (some a)) s = .next t ∧ t.get F.SYS_CLKMON_VRCOUT = 1 ∧ t.sys.vrcOut = true ∧ t.sys.okWindows = 0 ∧
      t.rd 0x40014000 = s.rd 0x40014000 ∧ t.rd 0x40014004 = s.rd 0x40014004 ∧ t.mem = s.mem := by
  refine ⟨pllJudged v a s, ?_, pllJudged_vrcOut hv a s, ?_, ?_, pllJudged_rd_other v a s (by decide),
    pllJudged_rd_other v a s (by decide), pllJudged_mem v a s⟩
  · rw [exec_clockMonitorWindow_pll h, pllWindow_eq, ho, decide_eq_false (Nat.not_lt.mpr ha)]
    simp
  · rw [pllJudged_sys, decide_eq_true hv]
  · rw [pllJudged_sys, decide_eq_true hv]
    rfl

theorem clockMonitorWindow_vside_in_band {s : State} {v : Int} (h : s.sys.suspended = false) (hv : v.natAbs ≤ 400) :
    exec (.clockMonitorWindow v none) s = .next (vrcJudged v s) := by
  rw [exec_clockMonitorWindow_vrc h, vrcWindow_eq, decide_eq_false (Nat.not_lt.mpr hv), Bool.false_and, if_neg Bool.false_ne_true]

theorem clockMonitorWindow_vside_second_out {s : State} {v : Int} (h : s.sys.suspended = false) (ho : s.sys.vsideOut = true)
    (hv : 400 < v.natAbs) :
    ∃ t, exec (.clockMonitorWindow v none) s = .next (setCut causeClk t) ∧ t.get F.SYS_CLKMON_VRCOUT = 1 ∧ t.sys.vsideOk = 0 ∧
      t.mem = s.mem := by
  refine ⟨vrcJudged v s, ?_, vrcJudged_of_out hv s⟩
  rw [exec_clockMonitorWindow_vrc h, vrcWindow_eq, ho, decide_eq_true hv, Bool.true_and, if_pos rfl]

theorem pllLossOfLock_cuts {s : State} (h : s.sys.suspended = false) :
    exec .pllLossOfLock s =
      .next (setCut causeClk ((s.put F.SYS_CLKMON_LOCK 0).modSys (fun y => { y with okWindows := 0, vsideOk := 0 }))) :=
  congrArg Host.Outcome.next (if_neg (by simp [h]))

end Sys2Proof.Machine

open Sys2Proof Sys2Proof.Machine in
/-- Settles O16: a restart loads the image after it marks the engine running, and a monitor window is judged before the cut latch: the
judged state carries the flags and counts of each clause. -/
theorem engineRestartsAndMonitors : Obligations.EngineRestartsAndMonitors := by
  refine ⟨fun s => ⟨fun hs hw hk hd => serviceRestart_next hs hw hk hd, serviceRestart_idle⟩,
    fun s => ⟨fun hs hh hk => gafferRestart_next hs hh hk, gafferRestart_idle⟩, buserrValidClear_next,
    fun s v a h hin => ?_, fun s v a h hout => clockMonitorWindow_second_out h hout,
    fun s v a h hv ha => clockMonitorWindow_first_out h hv.1 hv.2 ha, fun s v h hv => ?_,
    fun s v h hv => clockMonitorWindow_vside_second_out h hv.1 hv.2, fun s h => pllLossOfLock_cuts h,
    fun s v a h => clockMonitor_suspended h v a,
    exec_next_pending .serviceRestart, exec_next_pending .gafferRestart, exec_next_pending .buserrValidClear,
    fun s v a => exec_next_pending (.clockMonitorWindow v a) s, exec_next_pending .pllLossOfLock⟩
  · obtain ⟨hv, ha⟩ := hin
    rw [clockMonitorWindow_in_band h hv ha, pllJudged_of_in_band hv ha]
  · rw [clockMonitorWindow_vside_in_band h hv, vrcJudged_of_in_band hv]
end

section
/-!
SUPPORT. Refused accesses (R75, R76): what the capture shows, what a refusal leaves alone, and which accesses are refused.
-/
namespace Sys2Proof.Machine

/-! ## The capture of refused accesses (R76) -/

/-- A refusal with VALID clear captures the access. -/
theorem refuse_of_clear {s : State} (h : s.on F.SYS_BUSERR_VALID = false) (r : Requester) (a : Nat) (w : Bool) :
    refuse r a w s = (((((busError s).put F.SYS_BUSERR_REQ (reqCode r)).putB F.SYS_BUSERR_WR w).put F.SYS_BUSERR_VALID 1).put
      F.SYS_BUSERR_COUNT 1).put F.SYS_BUSADDR_ADDR a := by
  have h' : (busError s).on F.SYS_BUSERR_VALID = false := h
  simp [refuse, h']

/-- A refusal with VALID set is counted. -/
theorem refuse_of_set {s : State} (h : s.on F.SYS_BUSERR_VALID = true) (r : Requester) (a : Nat) (w : Bool) :
    refuse r a w s = if s.get F.SYS_BUSERR_COUNT = 65535 then (busError s).put F.SYS_BUSERR_OVF 1
      else (busError s).put F.SYS_BUSERR_COUNT (s.get F.SYS_BUSERR_COUNT + 1) := by
  have h' : (busError s).on F.SYS_BUSERR_VALID = true := h
  simp only [refuse, h', if_true]
  rfl

/-- A refusal changes the reply and the two capture registers alone. -/
theorem refuse_frame (r : Requester) (a : Nat) (w : Bool) (s : State) :
    ∃ regs, refuse r a w s = { busError s with regs := regs } ∧
      ∀ b, b ≠ 0x40000040 → b ≠ 0x40000044 → Tab.get resetWord regs b = s.rd b := by
  refine ⟨(refuse r a w s).regs, ?_, fun b h1 h2 => ?_⟩
  · unfold refuse
    dsimp only
    split_ifs <;> rfl
  · change (refuse r a w s).rd b = s.rd b
    have hput : ∀ (u : State) (f : Fld) (n : Nat), f.addr = 0x40000040 ∨ f.addr = 0x40000044 → (u.put f n).rd b = u.rd b :=
      fun u f n hf => State.rd_put_other u f n (fun e => hf.elim (fun h => h1 (e.trans h)) (fun h => h2 (e.trans h)))
    cases hv : s.on F.SYS_BUSERR_VALID with
    | false =>
      rw [refuse_of_clear hv, hput _ F.SYS_BUSADDR_ADDR _ (.inr rfl), hput _ F.SYS_BUSERR_COUNT _ (.inl rfl),
        hput _ F.SYS_BUSERR_VALID _ (.inl rfl), State.putB_eq, hput _ F.SYS_BUSERR_WR _ (.inl rfl),
        hput _ F.SYS_BUSERR_REQ _ (.inl rfl)]
      rfl
    | true =>
      rw [refuse_of_set hv]
      split
      · exact hput _ F.SYS_BUSERR_OVF _ (.inl rfl)
      · exact hput _ F.SYS_BUSERR_COUNT _ (.inl rfl)

@[simp] theorem refuse_bus (r : Requester) (a : Nat) (w : Bool) (s : State) : (refuse r a w s).bus = ⟨0, true⟩ := by
  obtain ⟨regs, h, -⟩ := refuse_frame r a w s
  rw [h]; rfl

@[simp] theorem refuse_mem (r : Requester) (a : Nat) (w : Bool) (s : State) : (refuse r a w s).mem = s.mem := by
  obtain ⟨regs, h, -⟩ := refuse_frame r a w s
  rw [h]; rfl

@[simp] theorem refuse_irqs (r : Requester) (a : Nat) (w : Bool) (s : State) : (refuse r a w s).irqs = s.irqs := by
  obtain ⟨regs, h, -⟩ := refuse_frame r a w s
  rw [h]; rfl

theorem refuse_rd_other (r : Requester) (a : Nat) (w : Bool) (s : State) {b : Nat} (h1 : b ≠ 0x40000040) (h2 : b ≠ 0x40000044) :
    (refuse r a w s).rd b = s.rd b := by
  obtain ⟨regs, h, hrd⟩ := refuse_frame r a w s
  rw [h]; exact hrd b h1 h2

theorem reqCode_lt (r : Requester) : reqCode r < 2 ^ F.SYS_BUSERR_REQ.w := by
  cases r with
  | p i => exact i.isLt.trans (by decide)
  | h i => exact (Nat.add_lt_add_left i.isLt 4).trans (by decide)
  | s | v | g | k | dbg | scrubber => decide

/-- The first refused access stands in the capture. -/
theorem refuse_captures {s : State} (h : s.on F.SYS_BUSERR_VALID = false) (r : Requester) {a : Nat} (ha : a < 2 ^ 32) (w : Bool) :
    (refuse r a w s).on F.SYS_BUSERR_VALID = true ∧ (refuse r a w s).get F.SYS_BUSERR_COUNT = 1 ∧
      (refuse r a w s).get F.SYS_BUSERR_REQ = reqCode r ∧ (refuse r a w s).on F.SYS_BUSERR_WR = w ∧
      (refuse r a w s).get F.SYS_BUSADDR_ADDR = a := by
  rw [refuse_of_clear h, State.putB_eq]
  refine ⟨?_, ?_, ?_, ?_, ?_⟩
  · rw [State.on_put_disj _ _ _ _ (by decide) (by decide), State.on_put_disj _ _ _ _ (by decide) (by decide),
      State.on_put_same _ _ _ (by decide)]
    rfl
  · rw [State.get_put_disj _ _ _ _ (by decide) (by decide), State.get_put_same _ _ _ (by decide)]
    rfl
  · rw [State.get_put_disj _ _ _ _ (by decide) (by decide), State.get_put_disj _ _ _ _ (by decide) (by decide),
      State.get_put_disj _ _ _ _ (by decide) (by decide), State.get_put_disj _ _ _ _ (by decide) (by decide),
      State.get_put_same _ _ _ (by decide)]
    exact Nat.mod_eq_of_lt (reqCode_lt r)
  · rw [State.on_put_disj _ _ _ _ (by decide) (by decide), State.on_put_disj _ _ _ _ (by decide) (by decide),
      State.on_put_disj _ _ _ _ (by decide) (by decide), State.on_put_same _ _ _ (by decide)]
    cases w <;> rfl
  · rw [State.get_put_same _ _ _ (by decide)]
    exact Nat.mod_eq_of_lt ha

/-- VALID is set by every refusal. -/
theorem refuse_valid (r : Requester) (a : Nat) (w : Bool) (s : State) : (refuse r a w s).on F.SYS_BUSERR_VALID = true := by
  cases h : s.on F.SYS_BUSERR_VALID with
  | false =>
    rw [refuse_of_clear h, State.on_put_disj _ _ _ _ (by decide) (by decide), State.on_put_disj _ _ _ _ (by decide) (by decide),
      State.on_put_same _ _ _ (by decide)]
    rfl
  | true =>
    rw [refuse_of_set h]
    split
    · exact (State.on_put_apart _ F.SYS_BUSERR_OVF F.SYS_BUSERR_VALID 1).trans h
    · exact (State.on_put_apart _ F.SYS_BUSERR_COUNT F.SYS_BUSERR_VALID _).trans h

/-- A further refusal changes COUNT and OVF alone. -/
theorem butFor_refuse_of_set {s : State} (h : s.on F.SYS_BUSERR_VALID = true) (r : Requester) (a : Nat) (w : Bool) :
    ButFor [F.SYS_BUSERR_COUNT, F.SYS_BUSERR_OVF] s (refuse r a w s) := by
  have hb : ButFor [F.SYS_BUSERR_COUNT, F.SYS_BUSERR_OVF] s (busError s) := (ButFor.refl s).upd rfl rfl rfl
  rw [refuse_of_set h]
  exact ButFor.ite (hb.put (by simp) 1) (hb.put (by simp) _)

theorem refuse_counts {s : State} (h : s.on F.SYS_BUSERR_VALID = true) (r : Requester) (a : Nat) (w : Bool) :
    (refuse r a w s).get F.SYS_BUSERR_COUNT = min 65535 (s.get F.SYS_BUSERR_COUNT + 1) := by
  have hlt : s.get F.SYS_BUSERR_COUNT < 65536 := State.get_lt s F.SYS_BUSERR_COUNT
  rw [refuse_of_set h]
  split
  · next hc =>
    rw [State.get_put_disj _ _ _ _ (by decide) (by decide), hc]
    exact hc
  · next hc =>
    rw [State.get_put_same _ _ _ (by decide)]
    have hmod : (s.get F.SYS_BUSERR_COUNT + 1) % 2 ^ F.SYS_BUSERR_COUNT.w = s.get F.SYS_BUSERR_COUNT + 1 :=
      Nat.mod_eq_of_lt (Nat.lt_of_le_of_lt (by omega : _ ≤ 65535) (by decide))
    rw [hmod]
    omega

theorem refuse_overflows {s : State} (h : s.on F.SYS_BUSERR_VALID = true) (hc : s.get F.SYS_BUSERR_COUNT = 65535) (r : Requester)
    (a : Nat) (w : Bool) : (refuse r a w s).on F.SYS_BUSERR_OVF = true := by
  rw [refuse_of_set h, if_pos hc, State.on_put_same _ _ _ (by decide)]
  rfl

/-! ## Which accesses are refused (R74, R75, R83) -/

/-- An access that the core's own protection or R74 does not permit is refused, and a core takes its access fault. -/
theorem busAccess_of_refused {r : Requester} {a : Nat} {w : Bool} {s : State} (act : State → State) (hi : issues s r = true)
    (hr : reaches r s = true) (ha : isCore r = false ∨ a % 4 = 0)
    (h : regPermitted r a w = false ∨ pmpPermits s r (if w then .write else .read) a 4 = false) :
    busAccess r a w act s = raiseTo r (if w then 7 else 5) a (refuse r a w s) := by
  have hal : ¬ (a % 4 ≠ 0 ∧ isCore r = true) := by
    rintro ⟨h4, hc⟩
    rcases ha with ha | ha
    · exact Bool.false_ne_true (ha.symm.trans hc)
    · exact h4 ha
  have ht : (if pmpPermits s r (if w then .write else .read) a 4 then regAccess r a w act s else refuse r a w s) = refuse r a w s := by
    by_cases hp : pmpPermits s r (if w then .write else .read) a 4 = true
    · have hreg : regPermitted r a w = false := h.resolve_right (by rw [hp]; decide)
      rw [if_pos hp]
      simp [regAccess, hreg]
    · rw [if_neg hp]
  simp [busAccess, hi, hr, hal, ht]

/-! ## Accesses to memory: which place answers (R652, R653) -/

/-- Above the engine windows no memory lies. -/
theorem regionOf_of_high {a : Nat} (h : 0x30040000 ≤ a) : regionOf a = none := by
  unfold regionOf
  iterate 12 rw [if_neg (by omega)]

/-- The peripheral blocks hold no memory. -/
theorem isPeripheral_of_region {a : Nat} {reg : Region} (h : regionOf a = some reg) : isPeripheral a = false := by
  by_contra hp
  simp only [isPeripheral, Bool.not_eq_false, decide_eq_true_eq] at hp
  have hnone : regionOf a = none := regionOf_of_high (by omega)
  exact absurd (hnone.symm.trans h) (by simp)

/-- An aligned access reaches the place that its address names. -/
theorem accessHere_of_aligned {r : Requester} {m : MemAccess} {s : State} (hr : reaches r s = true)
    (ha : m.addr.toNat % widthBytes m.width = 0) : accessHere r m s = placeAccess r m s := by
  have hsplit : (isCore r && m.kind == .fetch && m.width == .word && m.addr.toNat % 4 == 2) = false := by
    cases hw : m.width with
    | word =>
      rw [hw] at ha
      have h4 : m.addr.toNat % 4 = 0 := ha
      simp [h4]
    | byte | half => simp
  unfold accessHere
  simp only [hr, hsplit, ha]
  simp

/-- A memory access by itself is the requester's own, with no rival at an arbiter. -/
theorem exec_memoryAccess_alone (r : Requester) (m : MemAccess) (n : Nat) (s : State) :
    exec (.memoryAccess r ⟨m, n, []⟩) s = .next (memoryAccess r m s) := rfl

/-- A requester other than a principal core has no second copy to compare, and no program to progress. -/
theorem memoryAccess_of_engine {r : Requester} (hr : ∀ p, r ≠ .p p) {s : State} (hi : issues s r = true) (m : MemAccess) :
    memoryAccess r m s = accessHere r m s := by
  unfold memoryAccess
  rw [if_pos hi]
  cases r with
  | p p => exact absurd rfl (hr p)
  | _ => rfl

/-- Where no memory lies an access is refused. -/
theorem placeAccess_of_nowhere {r : Requester} {m : MemAccess} {s : State} (hp : isPeripheral m.addr.toNat = false)
    (h : regionOf m.addr.toNat = none) : placeAccess r m s = refuseAccess r m.kind m.addr.toNat s := by
  unfold placeAccess
  dsimp only
  rw [hp, h]
  rfl

end Sys2Proof.Machine

open Sys2Proof Sys2Proof.Machine in
/-- Settles O5: a refusal writes the two capture registers alone, as VALID stands, and every access that is not permitted ends in one. -/
theorem refusedAccesses : Obligations.RefusedAccesses := by
  refine ⟨fun s r a w ha h => ?_, fun s r a w h => ?_, fun s r a v hi ha h => ?_, fun s r a hi ha h => ?_,
    fun s m hreg hper hal hi n => ?_, fun s r a w => ⟨fun b => refuse_rd_other r a w s, refuse_mem r a w s, refuse_irqs r a w s⟩⟩
  · obtain ⟨hvalid, hcount, hreq, hwr, haddr⟩ := refuse_captures h r ha w
    exact ⟨hvalid, hcount, hreq, hwr, haddr, refuse_bus r a w s⟩
  · have hb := butFor_refuse_of_set h r a w
    exact ⟨refuse_counts h r a w, refuse_bus r a w s, fun hc => refuse_overflows h hc r a w, refuse_valid r a w s, hb.get _, hb.on _,
      hb.get _⟩
  · exact congrArg Host.Outcome.next (busAccess_of_refused _ hi.1 hi.2 ha h)
  · exact congrArg Host.Outcome.next (busAccess_of_refused _ hi.1 hi.2 ha h)
  · rw [exec_memoryAccess_alone, memoryAccess_of_engine (fun p => by simp) hi, accessHere_of_aligned rfl hal,
      placeAccess_of_nowhere hper hreg]
    rfl
end

section
/-!
SUPPORT. Accesses to memory: the accesses that nothing turns away (R74, R82, R653), refused ones (R75, R207), errors (R69, R426), and
what a landing write leaves (R82, R372, R379).
-/
namespace Sys2Proof.Machine

/-! ## Where memory lies (R651) -/

theorem isMemory_iff (k : Nat) : isMemory k = true ↔
    k < 0x10000 ∨ (0x08000000 ≤ k ∧ k < 0x08080000) ∨ (0x09000000 ≤ k ∧ k < 0x09008000) ∨ (0x09010000 ≤ k ∧ k < 0x09018000) ∨
      (0x09020000 ≤ k ∧ k < 0x09024000) ∨ (0x09030000 ≤ k ∧ k < 0x09034000) ∨ (0x10000000 ≤ k ∧ k < 0x10C00000) ∨
      (0x11000000 ≤ k ∧ k < 0x11100000) ∨ (0x20000000 ≤ k ∧ k < 0x20300000) ∨ (0x21000000 ≤ k ∧ k < 0x21010000) ∨
      (0x30000000 ≤ k ∧ k < 0x30040000) := by
  simp [isMemory, or_assoc]

/-- What lies in a region is memory. -/
theorem isMemory_of_regionOf {a : Nat} {reg : Region} (h : regionOf a = some reg) : isMemory a = true := by
  by_contra hno
  rw [isMemory_iff] at hno
  have hnone : regionOf a = none := by
    unfold regionOf
    iterate 12 rw [if_neg (by omega)]
  exact absurd (hnone.symm.trans h) (by simp)

/-- A region's aligned word lies in memory whole. -/
theorem isMemory_of_region {a k : Nat} {reg : Region} {w : Width} (h : regionOf a = some reg) (ha : a % widthBytes w = 0)
    (h1 : a ≤ k) (h2 : k < a + widthBytes w) : isMemory k = true := by
  have hword : a / 4 = k / 4 := by
    cases w <;> simp only [widthBytes] at ha h2 <;> omega
  have ha := (isMemory_iff a).mp (isMemory_of_regionOf h)
  rw [isMemory_iff]
  omega

theorem eq_some_of_ite_ne {α : Type} {c : Prop} [Decidable c] {x y : α} {o : Option α} (h : (if c then some x else o) = some y)
    (hne : x ≠ y) : o = some y := by
  split at h
  · exact absurd (Option.some.inj h) hne
  · exact h

theorem regionOf_sram {a : Nat} (h : regionOf a = some .sram) : 0x20000000 ≤ a ∧ a < 0x20300000 := by
  by_contra hno
  unfold regionOf at h
  iterate 8 replace h := eq_some_of_ite_ne h (by simp)
  rw [if_neg hno] at h
  iterate 3 replace h := eq_some_of_ite_ne h (by simp)
  exact absurd h (by simp)

/-! ## An access that nothing turns away -/

/-- Nothing that stands before the place of an access turns it away (R74, R82, R231, R582, R653). -/
structure Passes (r : Requester) (m : MemAccess) (reg : Region) (s : State) : Prop where
  reaches : reaches r s = true
  aligned : m.addr.toNat % widthBytes m.width = 0
  region : regionOf m.addr.toNat = some reg
  rights : memPermitted s r reg m.addr.toNat (useOf m.kind) = true
  pmp : pmpPermits s r (useOf m.kind) m.addr.toNat (widthBytes m.width) = true
  bank : isWrite m.kind = true → bankClosed s m.addr.toNat = false
  atomic : isAtomic m.kind = true → reg = .sram

theorem placeAccess_of_region {r : Requester} {m : MemAccess} {reg : Region} {s : State} (h : regionOf m.addr.toNat = some reg) :
    placeAccess r m s = memRegion r reg m s := by
  unfold placeAccess
  dsimp only
  rw [isPeripheral_of_region h, h]
  rfl

/-- Such an access is performed. -/
theorem accessHere_of_passes {r : Requester} {m : MemAccess} {reg : Region} {s : State} (h : Passes r m reg s) :
    accessHere r m s = memPerform r m s := by
  have hbank : (bankClosed s m.addr.toNat && isWrite m.kind) = false := by
    cases hw : isWrite m.kind with
    | false => simp
    | true => simp [h.bank hw]
  have hplace : ∀ place : Bool, (isCore r = true → isAtomic m.kind = true → place = true) →
      (isAtomic m.kind && isCore r && !place) = false := by
    intro place hp
    cases hk : isAtomic m.kind with
    | false => simp
    | true => cases hc : isCore r with
      | false => simp
      | true => simp [hp hc hk]
  rw [accessHere_of_aligned h.reaches h.aligned, placeAccess_of_region h.region]
  unfold memRegion
  dsimp only
  rw [hplace _ (fun hc hk => ?_), h.rights, h.pmp, hbank]
  · rfl
  · obtain rfl := h.atomic hk
    cases r with
    | p i => rfl
    | _ => exact absurd hc (by simp [isCore])

/-- No other requester than a core has a protection of its own at a memory. -/
theorem pmpPermits_of_engine {r : Requester} (hr : ∀ p, r ≠ .p p) {a : Nat} (h : isPeripheral a = false) (s : State) (u : Use) (w : Nat) :
    pmpPermits s r u a w = true := by
  cases r with
  | p p => exact absurd rfl (hr p)
  | h i => simp [pmpPermits, h]
  | _ => rfl

/-- Below the engine windows lies no coefficient bank. -/
theorem bankClosed_of_low {a : Nat} (h : a < 0x30000000) (s : State) : bankClosed s a = false := by
  have hnone : coefBank a = none := if_neg (fun hc => absurd hc.1 (by omega))
  simp [bankClosed, hnone]

/-- What a requester other than a principal core meets on its way to memory. -/
theorem memoryAccess_of_engine_permitted {r : Requester} {m : MemAccess} {reg : Region} {s : State}
    (hr : (∀ p, r ≠ .p p) ∧ issues s r = true ∧ reaches r s = true) (ha : m.addr.toNat % widthBytes m.width = 0)
    (hreg : regionOf m.addr.toNat = some reg) (hm : memPermitted s r reg m.addr.toNat (useOf m.kind) = true)
    (hb : isWrite m.kind = true → bankClosed s m.addr.toNat = false) (hk : isAtomic m.kind = false) :
    memoryAccess r m s = memPerform r m s := by
  obtain ⟨hne, hi, hreach⟩ := hr
  rw [memoryAccess_of_engine hne hi]
  exact accessHere_of_passes ⟨hreach, ha, hreg, hm, pmpPermits_of_engine hne (isPeripheral_of_region hreg) _ _ _, hb,
    fun h => absurd (hk.symm.trans h) Bool.false_ne_true⟩

theorem memPerform_read_of_engine {r : Requester} (hr : ∀ p, r ≠ .p p) {m : MemAccess} (hk : m.kind = .read) (s : State) :
    memPerform r m s = eccRead r .read m.addr.toNat m.found (readPlain m.addr.toNat (widthBytes m.width)) s := by
  unfold memPerform
  rw [hk]
  cases r with
  | p p => exact absurd rfl (hr p)
  | _ => rfl

theorem memPerform_write_of_engine {r : Requester} (hr : ∀ p, r ≠ .p p) {m : MemAccess} (hk : m.kind = .write) (s : State) :
    memPerform r m s = busData 0 (writePlain r m.addr.toNat (widthBytes m.width) m.data s) := by
  unfold memPerform
  rw [hk]
  cases r with
  | p p => exact absurd rfl (hr p)
  | _ => rfl

/-- A clean read answers the bytes and changes nothing else. -/
theorem readPlain_of_kept {s : State} {a : Nat} (h : openBytes s a = false) (w : Nat) :
    readPlain a w s = { s with bus := ⟨memValue s a w, false⟩ } := by
  simp [readPlain, h, busData]

/-! ## What a landing write leaves (R82, R372, R379) -/

/-- Sending frames changes the ports, the registers and the SEQ counts alone. -/
def SentOnly (u t : State) : Prop := ∃ regs lines ebp, t = { u with regs := regs, lines := lines, ebp := ebp }

theorem SentOnly.refl (s : State) : SentOnly s s := ⟨s.regs, s.lines, s.ebp, rfl⟩

theorem SentOnly.trans {s t u : State} (h : SentOnly s t) (h' : SentOnly t u) : SentOnly s u := by
  obtain ⟨r1, l1, e1, rfl⟩ := h
  obtain ⟨r2, l2, e2, rfl⟩ := h'
  exact ⟨r2, l2, e2, rfl⟩

theorem sentOnly_sendOn (ty : Nat) (f : EbpFrame) (e : Port) (s : State) : SentOnly s (sendOn ty f e s) := by
  unfold sendOn
  split
  · exact ⟨_, _, _, rfl⟩
  · exact .refl s

theorem sentOnly_foldl_sendOn (ty : Nat) (f : EbpFrame) (l : List Port) (s : State) :
    SentOnly s (l.foldl (fun s e => sendOn ty f e s) s) := by
  induction l generalizing s with
  | nil => exact .refl s
  | cons e l ih => exact (sentOnly_sendOn ty f e s).trans (ih _)

theorem sentOnly_sendFrameOn (l : List Port) (ty : Nat) (p : List Byte) (s : State) : SentOnly s (sendFrameOn l ty p s) := by
  unfold sendFrameOn
  split
  · exact .refl s
  · exact SentOnly.trans ⟨_, _, _, rfl⟩ (sentOnly_foldl_sendOn ty _ l _)

theorem sentOnly_exchangeCapture (r : Requester) (a w : Nat) (s : State) : SentOnly s (exchangeCapture r a w s) := by
  unfold exchangeCapture
  cases r with
  | h i =>
    dsimp only
    split
    · exact (sentOnly_sendFrameOn _ _ _ _).trans (sentOnly_sendFrameOn _ _ _ _)
    · exact .refl s
  | _ => exact .refl s

/-- A change of the copies of pairs, with the pair that made the write left out, changes no other block and not that pair. -/
theorem foldl_modCopies_frame (by_ : Option Pair) (f : Copy → Copy) (l : List Pair) (s : State) :
    ∃ cs : Vector Core 4, l.foldl (fun s p => if by_ = some p then s else modCopies p f s) s = { s with cores := cs } ∧
      ∀ p : Pair, by_ = some p → cs[p.val] = s.cores[p.val] := by
  induction l generalizing s with
  | nil => exact ⟨s.cores, rfl, fun _ _ => rfl⟩
  | cons q l ih =>
    rw [List.foldl_cons]
    by_cases hq : by_ = some q
    · rw [if_pos hq]
      exact ih s
    · rw [if_neg hq]
      obtain ⟨cs, hcs, hown⟩ := ih (modCopies q f s)
      exact ⟨cs, hcs, fun p hp => (hown p hp).trans (upd_other s.cores _ fun h => hq (h ▸ hp))⟩

theorem breakReservations_frame (by_ : Option Pair) (a : Nat) (s : State) :
    ∃ cs : Vector Core 4, breakReservations by_ a s = { s with cores := cs } ∧
      ∀ p : Pair, by_ = some p → cs[p.val] = s.cores[p.val] :=
  foldl_modCopies_frame by_ _ _ s

/-- K's count of its writes leaves memory, the cores and the word that CONT_DADDR names. -/
theorem countsWrite_frame (r : Requester) (a : Nat) (s : State) :
    ∃ keep regs, countsWrite r a s = { s with keep := keep, regs := regs } ∧ dAddr (countsWrite r a s) = dAddr s := by
  have hdaddr : dAddr (bumpWrgen s) = dAddr s := congrArg (0x20000000 + ·) (State.get_put_apart _ F.KEEP_WRGEN_WRGEN F.CONT_DADDR_ADDR _)
  unfold countsWrite
  split
  · exact ⟨_, _, rfl, hdaddr⟩
  · exact ⟨s.keep, s.regs, rfl, rfl⟩

theorem State.setBytes_mem_congr {s t : State} (h : t.mem = s.mem) (a : Nat) (l : List Byte) :
    (t.setBytes a l).mem = (s.setBytes a l).mem := by
  induction l generalizing s t a with
  | nil => exact h
  | cons b l ih => exact ih (by simp only [State.setByte_mem, h]) _

theorem State.memWord_of_mem {s t : State} (h : t.mem = s.mem) (a : Nat) : t.memWord a = s.memWord a :=
  congrArg (fun l => BitVec.ofNat 32 (leValue l)) (State.bytes_of_mem h a 4)

theorem State.byte_of_mem {s t : State} (h : t.mem = s.mem) (k : Nat) : t.byte k = s.byte k :=
  congrArg (fun m => Tab.get blankByte m k) h

/-- Whether a write at an address keeps copies of bit 19 (R17, R208). -/
def keepsCopies (a : Nat) : Prop := 0x30000000 ≤ a ∧ a < 0x30040000 ∧ 0x3000 ≤ a % 0x8000 ∧ a % 0x8000 < 0x6000

theorem windowCopies_of_outside {a : Nat} (h : ¬ keepsCopies a) (s : State) : windowCopies a s = s := if_neg h

theorem windowCopies_of_inside {a : Nat} (h : keepsCopies a) (h4 : a % 4 = 0) (s : State) :
    windowCopies a s = s.setMem20 a (s.mem20 a) := by
  have ha : a / 4 * 4 = a := by omega
  unfold keepsCopies at h
  simp only [windowCopies, if_pos h, ha]

theorem windowCopies_mem_congr {s t : State} (h : t.mem = s.mem) (a : Nat) : (windowCopies a t).mem = (windowCopies a s).mem := by
  unfold windowCopies
  split
  · dsimp only
    rw [State.mem20, State.mem20, State.memWord_of_mem h]
    exact State.setBytes_mem_congr h _ _
  · exact h

theorem windowCopies_frame (a : Nat) (s : State) : ∃ m, windowCopies a s = { s with mem := m } := by
  unfold windowCopies
  split
  · exact State.setBytes_eq s _ _
  · exact ⟨s.mem, rfl⟩

/-- What a landing write of `l` at `a` by requester `r` leaves: its bytes, the copies of the pair that made it, and D captured. -/
structure Landed (r : Requester) (a : Nat) (l : List Byte) (s t : State) : Prop where
  mem : t.mem = (windowCopies a (s.setBytes a l)).mem
  own : ∀ p : Pair, r = .p p → t.cores[p.val] = s.cores[p.val]
  captured : touches a l.length (dAddr s) = true → t.cont.landed = true

/-- The pair whose own reservations a write of a requester keeps (R85). -/
def writerPair : Requester → Option Pair
  | .p p => some p
  | _ => none

/-- The state after a write has stored its bytes and broken reservations (R82, R85), before D is captured. -/
def stored (r : Requester) (a : Nat) (l : List Byte) (s : State) : State :=
  breakReservations (writerPair r) a (windowCopies a ((countsWrite r a s).setBytes a l))

theorem writePlain_eq_stored (r : Requester) (a w : Nat) (v : Word) (s : State) :
    writePlain r a w v s = exchangeCapture r a w (if touches a w (dAddr (stored r a (leBytes w v.toNat) s)) then
      dLanded ((stored r a (leBytes w v.toNat) s).mem20 (dAddr (stored r a (leBytes w v.toNat) s))) (stored r a (leBytes w v.toNat) s)
      else stored r a (leBytes w v.toNat) s) := by
  cases r <;> rfl

theorem stored_frame (r : Requester) (a : Nat) (l : List Byte) (s : State) :
    (stored r a l s).mem = (windowCopies a (s.setBytes a l)).mem ∧ dAddr (stored r a l s) = dAddr s ∧
      ∀ p : Pair, writerPair r = some p → (stored r a l s).cores[p.val] = s.cores[p.val] := by
  obtain ⟨keep, regs, hcount, hdaddr⟩ := countsWrite_frame r a s
  obtain ⟨m, hset⟩ := State.setBytes_eq (countsWrite r a s) a l
  obtain ⟨m', hwin⟩ := windowCopies_frame a ((countsWrite r a s).setBytes a l)
  obtain ⟨cs, hbreak, hown⟩ := breakReservations_frame (writerPair r) a (windowCopies a ((countsWrite r a s).setBytes a l))
  have hmem : (countsWrite r a s).mem = s.mem := by rw [hcount]
  have hcores : (windowCopies a ((countsWrite r a s).setBytes a l)).cores = s.cores := by rw [hwin, hset, hcount]
  refine ⟨?_, ?_, fun p hp => ?_⟩
  · exact (congrArg State.mem hbreak).trans (windowCopies_mem_congr (State.setBytes_mem_congr hmem a l) a)
  · rw [stored, hbreak, hwin, hset]
    exact hdaddr
  · exact (congrArg (fun t : State => t.cores[p.val]) hbreak).trans ((hown p hp).trans (by rw [hcores]))

theorem landed_writePlain (r : Requester) (a w : Nat) (v : Word) (s : State) :
    Landed r a (leBytes w v.toNat) s (writePlain r a w v s) := by
  obtain ⟨hmem, hdaddr, hown⟩ := stored_frame r a (leBytes w v.toNat) s
  rw [writePlain_eq_stored, hdaddr]
  obtain ⟨regs, lines, ebp, ht⟩ := sentOnly_exchangeCapture r a w (if touches a w (dAddr s) then
    dLanded ((stored r a (leBytes w v.toNat) s).mem20 (dAddr s)) (stored r a (leBytes w v.toNat) s) else stored r a (leBytes w v.toNat) s)
  rw [ht]
  by_cases htouch : touches a w (dAddr s) = true
  · rw [if_pos htouch]
    exact ⟨hmem, fun p hp => hown p (congrArg writerPair hp), fun _ => rfl⟩
  · rw [if_neg htouch]
    exact ⟨hmem, fun p hp => hown p (congrArg writerPair hp), fun h => absurd (by rwa [leBytes_length] at h) htouch⟩

namespace Landed
variable {r : Requester} {a : Nat} {l : List Byte} {s t : State}

theorem mem_of_outside (h : Landed r a l s t) (ha : ¬ keepsCopies a) : t.mem = (s.setBytes a l).mem :=
  h.mem.trans (congrArg State.mem (windowCopies_of_outside ha _))

theorem bytes (h : Landed r a l s t) (ha : ¬ keepsCopies a) (hm : ∀ k, a ≤ k → k < a + l.length → isMemory k = true) :
    t.bytes a l.length = l :=
  (State.bytes_of_mem (h.mem_of_outside ha) a l.length).trans (State.bytes_setBytes_same s hm)

theorem byte_other (h : Landed r a l s t) (ha : ¬ keepsCopies a) {k : Nat} (hk : k < a ∨ a + l.length ≤ k) : t.byte k = s.byte k :=
  (State.byte_of_mem (h.mem_of_outside ha) k).trans (State.byte_setBytes_other s l a k hk)

/-- The word written, where the bytes do not keep copies of bit 19. -/
theorem memWord {v : Word} (h : Landed r a (leBytes 4 v.toNat) s t) (ha : ¬ keepsCopies a)
    (hm : ∀ k, a ≤ k → k < a + 4 → isMemory k = true) : t.memWord a = v :=
  (State.memWord_of_mem (h.mem_of_outside ha) a).trans (State.memWord_setMemWord_same s v hm)

end Landed

theorem State.mem20_setMem20_same (s : State) {a : Nat} (v : Q20) (h : ∀ k, a ≤ k → k < a + 4 → isMemory k = true) :
    (s.setMem20 a v).mem20 a = v := by
  rw [State.mem20, State.setMem20, State.memWord_setMemWord_same _ _ h]
  ext i hi
  rw [BitVec.getElem_setWidth, BitVec.getLsbD_eq_getElem (by omega), BitVec.getElem_signExtend, dif_pos hi]

/-- A word written to a coefficient bank holds the value's 20 bits (R17, R208). -/
theorem Landed.mem20 {r : Requester} {a : Nat} {v : Word} {s t : State} (h : Landed r a (leBytes 4 v.toNat) s t) (ha : keepsCopies a)
    (h4 : a % 4 = 0) : t.mem20 a = v.setWidth 20 ∧ outsideWord a s t := by
  have hm : ∀ k, a ≤ k → k < a + 4 → isMemory k = true := fun k h1 h2 => by
    obtain ⟨hlo, hhi, -, -⟩ := ha
    rw [isMemory_iff]
    omega
  have hv : (s.setMemWord a v).mem20 a = v.setWidth 20 := congrArg (BitVec.setWidth 20) (State.memWord_setMemWord_same s v hm)
  have hmem : t.mem = ((s.setMemWord a v).setMem20 a (v.setWidth 20)).mem := by
    rw [h.mem, windowCopies_of_inside ha h4, ← State.setMemWord, hv]
  refine ⟨?_, fun k hk => ?_⟩
  · have hcopy : t.mem20 a = ((s.setMemWord a v).setMem20 a (v.setWidth 20)).mem20 a :=
      congrArg (BitVec.setWidth 20) (State.memWord_of_mem hmem a)
    exact hcopy.trans (State.mem20_setMem20_same _ _ hm)
  · rw [State.byte_of_mem hmem, State.setMem20, State.setMemWord, State.byte_setBytes_other _ _ _ _ (by simpa using hk),
      State.setMemWord, State.byte_setBytes_other _ _ _ _ (by simpa using hk)]

end Sys2Proof.Machine
end

section
/-!
SUPPORT. The accesses of a requester other than a principal core, the refusal of a write, and an uncorrectable error found (R69, R74, R82).
-/
namespace Sys2Proof.Machine

variable {r : Requester} {m : MemAccess} {reg : Region} {s : State} {n : Nat}

/-- A clean read of a requester other than a principal core answers the bytes and changes nothing else. -/
theorem memoryAccess_read (hr : (∀ p, r ≠ .p p) ∧ issues s r = true ∧ reaches r s = true) (hk : m.kind = .read ∧ m.found = .clean)
    (hreg : regionOf m.addr.toNat = some reg ∧ memPermitted s r reg m.addr.toNat .read = true)
    (ha : m.addr.toNat % widthBytes m.width = 0) (ho : openBytes s m.addr.toNat = false) :
    memoryAccess r m s = { s with bus := ⟨memValue s m.addr.toNat (widthBytes m.width), false⟩ } := by
  obtain ⟨hkind, hfound⟩ := hk
  rw [memoryAccess_of_engine_permitted hr ha hreg.1 (by rw [hkind]; exact hreg.2) (by simp [hkind, isWrite]) (by rw [hkind]; rfl),
    memPerform_read_of_engine hr.1 hkind, hfound]
  exact readPlain_of_kept ho _

/-- A write of such a requester lands, and the reply is a plain one. -/
theorem memoryAccess_write (hr : (∀ p, r ≠ .p p) ∧ issues s r = true ∧ reaches r s = true) (hk : m.kind = .write)
    (hreg : regionOf m.addr.toNat = some reg ∧ memPermitted s r reg m.addr.toNat .write = true)
    (hlow : m.addr.toNat < 0x30000000) (ha : m.addr.toNat % widthBytes m.width = 0) :
    memoryAccess r m s = busData 0 (writePlain r m.addr.toNat (widthBytes m.width) m.data s) := by
  rw [memoryAccess_of_engine_permitted hr ha hreg.1 (by rw [hk]; exact hreg.2) (fun _ => bankClosed_of_low hlow s) (by rw [hk]; rfl),
    memPerform_write_of_engine hr.1 hk]

theorem not_keepsCopies_of_low {a : Nat} (h : a < 0x30000000) : ¬ keepsCopies a := fun hk => absurd hk.1 (by omega)

/-- A plain reply changes nothing that a landing write left. -/
theorem Landed.busData {a : Nat} {l : List Byte} {s t : State} (h : Landed r a l s t) (v : Word) : Landed r a l s (busData v t) :=
  ⟨h.mem, h.own, h.captured⟩

/-- An access that R74 or the requester's protection does not permit is refused; at an engine window it also sets ACCERR (R207). -/
theorem memRegion_of_refused (hk : isAtomic m.kind = false)
    (h : (!memPermitted s r reg m.addr.toNat (useOf m.kind) || !pmpPermits s r (useOf m.kind) m.addr.toNat (widthBytes m.width)
      || bankClosed s m.addr.toNat && isWrite m.kind) = true) :
    memRegion r reg m s =
      if pmpPermits s r (useOf m.kind) m.addr.toNat (widthBytes m.width) &&
          windowRefused (refuseAccess r m.kind m.addr.toNat s) r m.kind m.addr.toNat then
        (refuseAccess r m.kind m.addr.toNat s).put F.HLE_STAT_ACCERR 1
      else refuseAccess r m.kind m.addr.toNat s := by
  unfold memRegion
  simp only [hk, h, Bool.false_and, if_true]
  rfl

/-- A refused write of S. -/
theorem memoryAccess_refused_of_s (hk : m.kind = .write)
    (hreg : regionOf m.addr.toNat = some reg ∧ memPermitted s .s reg m.addr.toNat .write = false) (hi : issues s .s = true)
    (ha : m.addr.toNat % widthBytes m.width = 0) :
    memoryAccess .s m s = if windowRefused (refuse .s m.addr.toNat true s) .s .write m.addr.toNat then
        (refuse .s m.addr.toNat true s).put F.HLE_STAT_ACCERR 1
      else refuse .s m.addr.toNat true s := by
  rw [memoryAccess_of_engine (fun p => by simp) hi, accessHere_of_aligned rfl ha, placeAccess_of_region hreg.1,
    memRegion_of_refused (by rw [hk]; rfl) (by rw [hk]; simp [useOf, hreg.2]), hk]
  rfl

/-- The first uncorrectable error is recorded with its address; a later one leaves the record (R429). -/
theorem errorRecorded_shows (r : Requester) {a : Nat} (ha : a < 2 ^ 32) (s : State) :
    (errorRecorded r a s).mem = s.mem ∧ (errorRecorded r a s).on F.BKG_STAT_UEVALID = true ∧
      (s.on F.BKG_STAT_UEVALID = false → (errorRecorded r a s).get F.BKG_UEADDR_ADDR = a) := by
  have hsat : (s.sat F.BKG_UECNT_UECNT).on F.BKG_STAT_UEVALID = s.on F.BKG_STAT_UEVALID :=
    State.on_sat_disj s _ _ (by decide) (by decide)
  have hmem : (s.sat F.BKG_UECNT_UECNT).mem = s.mem := by
    unfold State.sat
    split <;> rfl
  unfold errorRecorded
  dsimp only
  rw [hsat]
  cases hv : s.on F.BKG_STAT_UEVALID with
  | true => exact ⟨hmem, hsat.trans hv, fun h => absurd h (by simp)⟩
  | false =>
    refine ⟨hmem, ?_, fun _ => ?_⟩
    · rw [if_neg Bool.false_ne_true, State.on_put_disj _ _ _ _ (by decide) (by decide), State.on_put_disj _ _ _ _ (by decide) (by decide),
        State.on_put_same _ _ _ (by decide)]
      rfl
    · rw [if_neg Bool.false_ne_true, State.get_put_disj _ _ _ _ (by decide) (by decide), State.get_put_same _ _ _ (by decide)]
      exact Nat.mod_eq_of_lt ha

/-- S stops at an uncorrectable error that its read finds (R426). -/
theorem memoryAccess_uncorrectable_of_s (hk : m.kind = .read ∧ m.found = .uncorrectable)
    (hreg : regionOf m.addr.toNat = some reg ∧ memPermitted s .s reg m.addr.toNat .read = true) (hi : issues s .s = true)
    (ha : m.addr.toNat % widthBytes m.width = 0) :
    memoryAccess .s m s = (busError (errorRecorded .s m.addr.toNat s)).modSys (fun y => { y with sDown := true }) := by
  obtain ⟨hkind, hfound⟩ := hk
  rw [memoryAccess_of_engine_permitted ⟨fun p => by simp, hi, rfl⟩ ha hreg.1 (by rw [hkind]; exact hreg.2) (by simp [hkind, isWrite])
    (by rw [hkind]; rfl), memPerform_read_of_engine (fun p => by simp) hkind, hfound]
  rfl

/-! ## What the words say of an access by itself -/

theorem exec_memoryAccess_write (hr : (∀ p, r ≠ .p p) ∧ issues s r = true ∧ reaches r s = true) (hk : m.kind = .write)
    (hreg : regionOf m.addr.toNat = some reg ∧ memPermitted s r reg m.addr.toNat .write = true)
    (hlow : m.addr.toNat < 0x30000000) (ha : m.addr.toNat % widthBytes m.width = 0) :
    ∃ t, exec (.memoryAccess r ⟨m, n, []⟩) s = .next t ∧ t.bus = ⟨0, false⟩ ∧
      t.bytes m.addr.toNat (widthBytes m.width) = leBytes (widthBytes m.width) m.data.toNat ∧
      (∀ k, k < m.addr.toNat ∨ m.addr.toNat + widthBytes m.width ≤ k → t.byte k = s.byte k) ∧
      (touches m.addr.toNat (widthBytes m.width) (dAddr s) = true → t.cont.landed = true) := by
  have hland := (landed_writePlain r m.addr.toNat (widthBytes m.width) m.data s).busData 0
  have hout := not_keepsCopies_of_low hlow
  have hlen := leBytes_length (widthBytes m.width) m.data.toNat
  have hbytes := hland.bytes hout fun k h1 h2 => isMemory_of_region hreg.1 ha h1 (hlen ▸ h2)
  refine ⟨_, (exec_memoryAccess_alone r m n s).trans (congrArg _ (memoryAccess_write hr hk hreg hlow ha)), rfl, ?_,
    fun k h => hland.byte_other hout (by rwa [hlen]), fun h => hland.captured (by rwa [hlen])⟩
  rwa [hlen] at hbytes

theorem exec_memoryAccess_refused_of_s (hk : m.kind = .write)
    (hreg : regionOf m.addr.toNat = some reg ∧ memPermitted s .s reg m.addr.toNat .write = false) (hi : issues s .s = true)
    (ha : m.addr.toNat % widthBytes m.width = 0) :
    ∃ t, exec (.memoryAccess .s ⟨m, n, []⟩) s = .next t ∧ t.mem = s.mem ∧ t.bus = ⟨0, true⟩ ∧ t.on F.SYS_BUSERR_VALID = true ∧
      (keeperOnly m.addr.toNat = true → t.on F.HLE_STAT_ACCERR = true) := by
  refine ⟨_, (exec_memoryAccess_alone .s m n s).trans (congrArg _ (memoryAccess_refused_of_s hk hreg hi ha)), ?_⟩
  by_cases hw : windowRefused (refuse .s m.addr.toNat true s) .s .write m.addr.toNat = true
  · rw [if_pos hw]
    refine ⟨refuse_mem _ _ _ s, refuse_bus _ _ _ s, ?_, fun _ => State.on_put_same _ _ _ (by decide)⟩
    rw [State.on_put_disj _ _ _ _ (by decide) (by decide), refuse_valid]
  · rw [if_neg hw]
    refine ⟨refuse_mem _ _ _ s, refuse_bus _ _ _ s, refuse_valid _ _ _ s, fun hkeeper => absurd ?_ hw⟩
    simp [windowRefused, isWrite, hkeeper]

theorem exec_memoryAccess_uncorrectable_of_s (hk : m.kind = .read ∧ m.found = .uncorrectable)
    (hreg : regionOf m.addr.toNat = some reg ∧ memPermitted s .s reg m.addr.toNat .read = true) (hi : issues s .s = true)
    (ha : m.addr.toNat % widthBytes m.width = 0) :
    ∃ t, exec (.memoryAccess .s ⟨m, n, []⟩) s = .next t ∧ t.mem = s.mem ∧ t.bus = ⟨0, true⟩ ∧ t.sys.sDown = true ∧
      t.on F.BKG_STAT_UEVALID = true ∧ (s.on F.BKG_STAT_UEVALID = false → t.get F.BKG_UEADDR_ADDR = m.addr.toNat) := by
  obtain ⟨hmem, hvalid, haddr⟩ := errorRecorded_shows .s m.addr.isLt s
  exact ⟨_, (exec_memoryAccess_alone .s m n s).trans (congrArg _ (memoryAccess_uncorrectable_of_s hk hreg hi ha)), hmem, rfl, rfl,
    hvalid, haddr⟩

end Sys2Proof.Machine
end

section
/-!
SUPPORT. Two requests of one cycle (R70, R72): the order in which an arbiter grants them, and a read before a write of its word.
-/
namespace Sys2Proof.Machine

/-- Of two requests that have waited alike the fixed order decides; one that alone has waited 16 cycles goes first. -/
theorem grantedBefore_of_alike {a b : Request} (h : 16 ≤ a.waited ↔ 16 ≤ b.waited) :
    grantedBefore a b = decide (grantRank a.r < grantRank b.r) := by
  simp [grantedBefore, h]

theorem grantedBefore_of_aged {a b : Request} (ha : 16 ≤ a.waited) (hb : b.waited < 16) :
    grantedBefore a b = true ∧ grantedBefore b a = false := by
  simp [grantedBefore, ha, Nat.not_le.mpr hb]

/-- A request that has waited longer is the same request. -/
def sameRequest (a b : Request) : Prop := b.r = a.r ∧ b.m = a.m

/-- Of two requests at an arbiter both are granted, in one order or the other. -/
theorem grants_pair {a b : Request} (h : a.r ≠ b.r) :
    ∃ a' b', sameRequest a a' ∧ sameRequest b b' ∧ (grants 2 [a, b] = [a', b'] ∨ grants 2 [a, b] = [b', a']) := by
  have hab : (a == b) = false := beq_false_of_ne fun e => h (congrArg Request.r e)
  by_cases hg : grantedBefore b a = true
  · exact ⟨{ a with waited := a.waited + 1 }, b, ⟨rfl, rfl⟩, ⟨rfl, rfl⟩, .inr (by simp [grants, nextGrant, hg, hab])⟩
  · exact ⟨a, { b with waited := b.waited + 1 }, ⟨rfl, rfl⟩, ⟨rfl, rfl⟩, .inl (by simp [grants, nextGrant, hg])⟩

/-- A list's only entry that answers anything answers for the list. -/
theorem flatMap_of_unique {α β : Type} {f : α → List β} {b : α} {l : List α} (hl : l.Nodup) (hb : b ∈ l)
    (h : ∀ k, k ≠ b → f k = []) : l.flatMap f = f b := by
  induction l with
  | nil => exact absurd hb (by simp)
  | cons k l ih =>
    obtain ⟨hk, hl⟩ := List.nodup_cons.mp hl
    rw [List.flatMap_cons]
    rcases List.mem_cons.mp hb with rfl | hb
    · rw [List.flatMap_eq_nil_iff.mpr fun j hj => h j fun e => hk (e ▸ hj), List.append_nil]
    · rw [h k fun e => hk (e ▸ hb), ih hl hb, List.nil_append]

theorem arbiterOf_sram {a : Nat} (h : regionOf a = some .sram) : arbiterOf a = sramBank a := by
  unfold arbiterOf
  rw [isPeripheral_of_region h, h]
  rfl

/-- A read and a write of one word of shared SRAM in a cycle are performed in this order (R70). -/
theorem cycleOrder_read_write {a b : Request} (h : a.r ≠ b.r) (hreg : regionOf a.m.addr.toNat = some .sram) (haddr : b.m.addr = a.m.addr)
    (ha : isWrite a.m.kind = false) (hb : isWrite b.m.kind = true) :
    ∃ a' b', sameRequest a a' ∧ sameRequest b b' ∧ cycleOrder [a, b] = [a', b'] := by
  obtain ⟨a', b', hsa, hsb, hgrants⟩ := grants_pair h
  refine ⟨a', b', hsa, hsb, ?_⟩
  have hread : readsFirst [a, b] a' = true := by
    simp [readsFirst, sramWordOf, hsa.2, ha, hb, haddr, hreg]
  have hwrite : readsFirst [a, b] b' = false := by
    simp [readsFirst, hsb.2, hb]
  have hbank : arbiterOf a.m.addr.toNat < 30 := by
    rw [arbiterOf_sram hreg, sramBank]
    omega
  have hordered : (List.range 30).flatMap (fun k =>
      grants ([a, b].filter (fun q => arbiterOf q.m.addr.toNat == k)).length ([a, b].filter (fun q => arbiterOf q.m.addr.toNat == k))) =
      grants 2 [a, b] := by
    rw [flatMap_of_unique List.nodup_range (List.mem_range.mpr hbank) fun k hk => ?_]
    · simp [haddr]
    · simp [haddr, Ne.symm hk, grants]
  unfold cycleOrder
  dsimp only
  rw [hordered]
  rcases hgrants with hg | hg <;> simp [hg, hread, hwrite]

variable {r q : Requester} {m k : MemAccess} {s : State} {n w : Nat}

/-- The read of a word of shared SRAM returns the value before a write of the same cycle, which lands (R70). -/
theorem exec_memoryAccess_read_write
    (hrq : (∀ p, r ≠ .p p) ∧ (∀ p, q ≠ .p p) ∧ r ≠ q ∧ issues s r = true ∧ issues s q = true ∧ reaches r s = true ∧ reaches q s = true)
    (hmk : m.kind = .read ∧ m.found = .clean ∧ m.width = .word ∧ k.kind = .write ∧ k.width = .word ∧ k.addr = m.addr ∧
      m.addr.toNat % 4 = 0)
    (hreg : regionOf m.addr.toNat = some .sram ∧ memPermitted s r .sram m.addr.toNat .read = true ∧
      memPermitted s q .sram m.addr.toNat .write = true)
    (ho : openBytes s m.addr.toNat = false) :
    ∃ t, exec (.memoryAccess r ⟨m, n, [⟨q, k, w⟩]⟩) s = .next t ∧ t.bus = ⟨s.memWord m.addr.toNat, false⟩ ∧
      t.memWord m.addr.toNat = k.data := by
  obtain ⟨hr, hq, hne, hir, hiq, hreachr, hreachq⟩ := hrq
  obtain ⟨hmkind, hmfound, hmwidth, hkkind, hkwidth, haddr, hal⟩ := hmk
  obtain ⟨hsram, hmr, hmq⟩ := hreg
  obtain ⟨a', b', ⟨har, ham⟩, ⟨hbr, hbm⟩, horder⟩ := cycleOrder_read_write (a := ⟨r, m, n⟩) (b := ⟨q, k, w⟩) hne hsram haddr
    (by rw [hmkind]; rfl) (by rw [hkkind]; rfl)
  have hrange := regionOf_sram hsram
  have hread : memoryAccess r m s = busData (s.memWord m.addr.toNat) s := by
    rw [memoryAccess_read ⟨hr, hir, hreachr⟩ ⟨hmkind, hmfound⟩ ⟨hsram, hmr⟩ (by rw [hmwidth]; exact hal) ho, hmwidth]
    rfl
  have hwrite : memoryAccess q k (busData (s.memWord m.addr.toNat) s) =
      busData 0 (writePlain q m.addr.toNat 4 k.data (busData (s.memWord m.addr.toNat) s)) := by
    rw [memoryAccess_write (reg := .sram) (s := busData (s.memWord m.addr.toNat) s) ⟨hq, hiq, hreachq⟩ hkkind
      (by rw [haddr]; exact ⟨hsram, hmq⟩) (by rw [haddr]; omega) (by rw [haddr, hkwidth]; exact hal), haddr, hkwidth]
    rfl
  have hland := landed_writePlain q m.addr.toNat 4 k.data (busData (s.memWord m.addr.toNat) s)
  have hword := hland.memWord (not_keepsCopies_of_low (by omega)) fun j h1 h2 => isMemory_sram (by omega) (by omega)
  refine ⟨_, rfl, ?_, ?_⟩
  · simp only [cycleAccess, horder, performAll, har, ham, hbr, hbm, hread]
    simp [busData]
  · simp only [cycleAccess, horder, performAll, har, ham, hbr, hbm, hread, hwrite]
    exact hword

end Sys2Proof.Machine
end

section
/-!
SUPPORT. The accesses of a principal core: what its program leaves of its caches and reservation, a read of its own TCM, SC, and a write
through its D-cache (R70, R82, R83, R85).
-/
namespace Sys2Proof.Machine

/-! ## What a core's program leaves -/

theorem Copy.csrSet_reservation (p : Pair) (n : Nat) (v : Word) (k : Copy) : (k.csrSet p n v).reservation = k.reservation := by
  unfold Copy.csrSet
  split
  · rfl
  · rfl
  · rfl
  · split <;> rfl

theorem Copy.write_reservation (p : Pair) (x : CoreReg) (v : Word) (k : Copy) : (k.write p x v).reservation = k.reservation := by
  cases x with
  | x i => unfold Copy.write; dsimp only; split <;> rfl
  | csr n => exact Copy.csrSet_reservation p _ v k
  | f | fcsr | pc => rfl

theorem foldl_write_reservation (p : Pair) (l : List (CoreReg × Word)) (k : Copy) :
    (l.foldl (fun k e => k.write p e.1 e.2) k).reservation = k.reservation := by
  induction l generalizing k with
  | nil => rfl
  | cons e l ih => exact (ih _).trans (Copy.write_reservation p e.1 e.2 k)

/-- A program's progress leaves the core's reservation and its D-cache. -/
theorem progressed_core (p : Pair) (g : Progress) (s : State) :
    (progressed p g s).cores[p.val].main.reservation = s.cores[p.val].main.reservation ∧
      (progressed p g s).cores[p.val].dcache = s.cores[p.val].dcache := by
  unfold progressed
  dsimp only
  rw [State.modCore_cores, upd_same]
  exact ⟨foldl_write_reservation p g.writes _, rfl⟩

theorem memValue_progressed (p : Pair) (g : Progress) (s : State) (a w : Nat) : memValue (progressed p g s) a w = memValue s a w :=
  congrArg (fun l => BitVec.ofNat 32 (leValue l)) (State.bytes_of_mem (s := s) (t := progressed p g s) rfl a w)

/-! ## What a core's access meets -/

variable {p : Pair} {m : MemAccess} {s : State} {n : Nat}

/-- Where both copies make the same access there is one. -/
theorem memoryAccess_of_core (hi : issues s (.p p) = true) (hc : copiesPart p m (progressed p m.prog s) = false) :
    memoryAccess (.p p) m s = accessHere (.p p) m (progressed p m.prog s) := by
  unfold memoryAccess
  rw [if_pos hi]
  exact if_neg (by rw [requesterRuns, hc]; exact Bool.false_ne_true)

/-- Both copies make a misaligned access. -/
theorem copiesPart_of_misaligned (h : m.addr.toNat % widthBytes m.width ≠ 0) (s : State) : copiesPart p m s = false := by
  simp [copiesPart, h]

/-- A misaligned access traps before it reaches the interconnect. -/
theorem accessHere_of_misaligned (hk : m.kind ≠ .fetch) (h : m.addr.toNat % widthBytes m.width ≠ 0) (s : State) :
    accessHere (.p p) m s = trapPair p (misalignedCode m.kind) m.addr.toNat s := by
  simp [accessHere, reaches, hk, h]

/-- R74 permits a core its own TCM. -/
theorem memPermitted_tcm {a : Nat} (s : State) (p : Pair) : memPermitted s (.p p) (.tcmP p) a .read = true := by
  simp [memPermitted]

/-- R74 permits a core to write shared SRAM. -/
theorem memPermitted_sram {a : Nat} (h : regionOf a = some .sram) (s : State) (p : Pair) : memPermitted s (.p p) .sram a .write = true := by
  obtain ⟨hlo, hhi⟩ := regionOf_sram h
  have hkeep : ¬ (Use.write = Use.write ∧ ((0x2100E000 ≤ a ∧ a < 0x21010000) ∨ (0x11000000 ≤ a ∧ a < 0x11004000))) := by
    rintro ⟨-, h⟩
    omega
  unfold memPermitted
  rw [if_neg hkeep]
  rfl

/-- A core's access of shared SRAM that writes, permitted by its protection, is performed. -/
theorem accessHere_of_core_sram (hu : useOf m.kind = .write) (ha : m.addr.toNat % widthBytes m.width = 0)
    (h : regionOf m.addr.toNat = some .sram ∧ pmpPermits s (.p p) .write m.addr.toNat (widthBytes m.width) = true) :
    accessHere (.p p) m s = memPerform (.p p) m s := by
  obtain ⟨hlo, hhi⟩ := regionOf_sram h.1
  exact accessHere_of_passes ⟨rfl, ha, h.1, by rw [hu]; exact memPermitted_sram h.1 s p, by rw [hu]; exact h.2,
    fun _ => bankClosed_of_low (by omega) s, fun _ => rfl⟩

/-! ## Reads and SC -/

/-- A core's clean read of its own TCM, which no D-cache caches. -/
theorem exec_memoryAccess_read_tcm (hi : issues s (.p p) = true)
    (hk : m.kind = .read ∧ m.found = .clean ∧ m.addr.toNat % widthBytes m.width = 0)
    (hc : copiesPart p m (progressed p m.prog s) = false)
    (h : regionOf m.addr.toNat = some (.tcmP p) ∧
      pmpPermits (progressed p m.prog s) (.p p) .read m.addr.toNat (widthBytes m.width) = true)
    (ho : openBytes s m.addr.toNat = false) :
    exec (.memoryAccess (.p p) ⟨m, n, []⟩) s =
      .next { progressed p m.prog s with bus := ⟨memValue s m.addr.toNat (widthBytes m.width), false⟩ } := by
  obtain ⟨hkind, hfound, ha⟩ := hk
  have hcached : dCaches (progressed p m.prog s) p m.addr.toNat = false := by
    rw [dCaches, Copy.caches, h.1]
  have hperform : memPerform (.p p) m (progressed p m.prog s) = eccRead (.p p) .read m.addr.toNat m.found
      (readPlain m.addr.toNat (widthBytes m.width)) (progressed p m.prog s) := by
    unfold memPerform
    rw [hkind]
    exact if_neg (by rw [hcached]; exact Bool.false_ne_true)
  rw [exec_memoryAccess_alone, memoryAccess_of_core hi hc, accessHere_of_passes ⟨rfl, ha, h.1, by rw [hkind]; exact memPermitted_tcm _ p,
    by rw [hkind]; exact h.2, by simp [hkind, isWrite], by simp [hkind, isAtomic]⟩, hperform, hfound, ← memValue_progressed p m.prog]
  have hread := readPlain_of_kept (s := progressed p m.prog s) (a := m.addr.toNat) ho (widthBytes m.width)
  exact congrArg Host.Outcome.next hread

/-- SC gives up the reservation, and stores only when it was held (R85). -/
theorem memPerform_sc (hk : m.kind = .sc) (s : State) :
    memPerform (.p p) m s = if s.cores[p.val].main.reservation = some (m.addr.toNat / 32) then
        busData 0 (writeThrough p m.addr.toNat 4 m.data (modCopies p (fun k => { k with reservation := none }) s))
      else busData 1 (modCopies p (fun k => { k with reservation := none }) s) := by
  unfold memPerform
  rw [hk]
  simp only [atomicAccess, beq_iff_eq]

theorem exec_memoryAccess_sc_lost (hi : issues s (.p p) = true) (hk : m.kind = .sc ∧ m.addr.toNat % widthBytes m.width = 0)
    (hc : copiesPart p m (progressed p m.prog s) = false)
    (h : regionOf m.addr.toNat = some .sram ∧
      pmpPermits (progressed p m.prog s) (.p p) .write m.addr.toNat (widthBytes m.width) = true)
    (hlost : s.cores[p.val].main.reservation ≠ some (m.addr.toNat / 32)) :
    ∃ t, exec (.memoryAccess (.p p) ⟨m, n, []⟩) s = .next t ∧ t.bus = ⟨1, false⟩ ∧ t.mem = s.mem ∧
      t.cores[p.val].main.reservation = none ∧ t.regs = s.regs := by
  refine ⟨busData 1 (modCopies p (fun k => { k with reservation := none }) (progressed p m.prog s)), ?_, rfl, rfl, ?_, rfl⟩
  · rw [exec_memoryAccess_alone, memoryAccess_of_core hi hc, accessHere_of_core_sram (by rw [hk.1]; rfl) hk.2 h, memPerform_sc hk.1,
      if_neg (by rwa [(progressed_core p m.prog s).1])]
  · exact congrArg (fun k : Core => k.main.reservation) (upd_same _ p _)

/-! ## Writes through the D-cache (R82, R83) -/

/-- The cores after a write of pair `p` has gone through its D-cache. -/
theorem writeThrough_cores (p : Pair) (a w : Nat) (v : Word) (s : State) :
    (writeThrough p a w v s).cores[p.val].main = s.cores[p.val].main ∧
      ∀ line, findLine s.cores[p.val].dcache line = none → findLine (writeThrough p a w v s).cores[p.val].dcache line = none := by
  unfold writeThrough
  dsimp only
  rw [(landed_writePlain _ _ _ _ _).own p rfl, State.modCore_cores, upd_same]
  refine ⟨rfl, fun line h => ?_⟩
  unfold findLine at h ⊢
  rw [List.findSome?_eq_none_iff] at h ⊢
  intro e he
  obtain ⟨⟨i, k⟩, hk, rfl⟩ := List.mem_map.mp he
  have hline := h _ hk
  cases k with
  | none => rfl
  | some l =>
    dsimp only [Option.map_some] at hline ⊢
    split_ifs at hline ⊢ <;> simp_all

/-- A write goes through to memory, whatever the D-cache holds. -/
theorem landed_writeThrough (p : Pair) (a w : Nat) (v : Word) (s : State) :
    ∃ u, u.mem = s.mem ∧ Landed (.p p) a (leBytes w v.toNat) u (writeThrough p a w v s) :=
  ⟨s.modCore p _, rfl, landed_writePlain _ _ _ _ _⟩

theorem exec_memoryAccess_sc_held (hi : issues s (.p p) = true)
    (hk : m.kind = .sc ∧ m.width = .word ∧ m.addr.toNat % 4 = 0)
    (hc : copiesPart p m (progressed p m.prog s) = false)
    (h : regionOf m.addr.toNat = some .sram ∧ pmpPermits (progressed p m.prog s) (.p p) .write m.addr.toNat 4 = true)
    (hheld : s.cores[p.val].main.reservation = some (m.addr.toNat / 32)) :
    ∃ t, exec (.memoryAccess (.p p) ⟨m, n, []⟩) s = .next t ∧ t.bus = ⟨0, false⟩ ∧ t.memWord m.addr.toNat = m.data ∧
      outsideWord m.addr.toNat s t ∧ t.cores[p.val].main.reservation = none := by
  obtain ⟨hkind, hwidth, ha⟩ := hk
  obtain ⟨hlo, hhi⟩ := regionOf_sram h.1
  have hout := not_keepsCopies_of_low (a := m.addr.toNat) (by omega)
  obtain ⟨u, hu, hland⟩ := landed_writeThrough p m.addr.toNat 4 m.data
    (modCopies p (fun k => { k with reservation := none }) (progressed p m.prog s))
  obtain ⟨hmain, -⟩ := writeThrough_cores p m.addr.toNat 4 m.data
    (modCopies p (fun k => { k with reservation := none }) (progressed p m.prog s))
  refine ⟨busData 0 (writeThrough p m.addr.toNat 4 m.data (modCopies p (fun k => { k with reservation := none }) (progressed p m.prog s))),
    ?_, rfl, hland.memWord hout fun j h1 h2 => isMemory_sram (by omega) (by omega), fun j hj => ?_, ?_⟩
  · rw [exec_memoryAccess_alone, memoryAccess_of_core hi hc, accessHere_of_core_sram (by rw [hkind]; rfl) (by rw [hwidth]; exact ha)
      (by rw [hwidth]; exact h), memPerform_sc hkind, if_pos (by rwa [(progressed_core p m.prog s).1])]
  · exact (hland.byte_other hout (by rwa [leBytes_length])).trans (State.byte_of_mem (s := s) hu j)
  · exact (congrArg Copy.reservation hmain).trans (congrArg (fun k : Core => k.main.reservation) (upd_same _ p _))

theorem exec_memoryAccess_write_of_core (hi : issues s (.p p) = true)
    (hk : m.kind = .write ∧ m.addr.toNat % widthBytes m.width = 0)
    (hc : copiesPart p m (progressed p m.prog s) = false)
    (h : regionOf m.addr.toNat = some .sram ∧
      pmpPermits (progressed p m.prog s) (.p p) .write m.addr.toNat (widthBytes m.width) = true)
    (hline : findLine s.cores[p.val].dcache (lineOf m.addr.toNat) = none) :
    ∃ t, exec (.memoryAccess (.p p) ⟨m, n, []⟩) s = .next t ∧ findLine t.cores[p.val].dcache (lineOf m.addr.toNat) = none ∧
      t.bytes m.addr.toNat (widthBytes m.width) = leBytes (widthBytes m.width) m.data.toNat := by
  obtain ⟨hkind, ha⟩ := hk
  obtain ⟨hlo, hhi⟩ := regionOf_sram h.1
  have hlen := leBytes_length (widthBytes m.width) m.data.toNat
  obtain ⟨u, -, hland⟩ := landed_writeThrough p m.addr.toNat (widthBytes m.width) m.data (progressed p m.prog s)
  obtain ⟨-, hkept⟩ := writeThrough_cores p m.addr.toNat (widthBytes m.width) m.data (progressed p m.prog s)
  have hbytes := (hland.busData 0).bytes (not_keepsCopies_of_low (by omega)) fun j h1 h2 => isMemory_of_region h.1 ha h1 (hlen ▸ h2)
  rw [hlen] at hbytes
  refine ⟨busData 0 (writeThrough p m.addr.toNat (widthBytes m.width) m.data (progressed p m.prog s)), ?_,
    hkept _ (by rwa [(progressed_core p m.prog s).2]), hbytes⟩
  rw [exec_memoryAccess_alone, memoryAccess_of_core hi hc, accessHere_of_core_sram (by rw [hkind]; rfl) ha h]
  unfold memPerform
  rw [hkind]

end Sys2Proof.Machine
end

section
/-!
SUPPORT. Coefficient writes (R207, R231): the address of a coefficient, the bank in force, and what the comparison of the copies leaves.
-/
namespace Sys2Proof.Machine

/-! ## The address of a coefficient (R208, R651) -/

theorem coefAddr_eq (e : Eng) (k : Bool) (w : Fin 512) :
    coefAddr e k w = 0x30000000 + 0x8000 * e.val + 0x3000 + 0x800 * k.toNat + 4 * w.val := by
  rw [coefAddr, engBase, Nat.mod_eq_of_lt w.isLt]

/-- A coefficient lies in its engine's window, past the program. -/
theorem coefAddr_bounds (e : Eng) (k : Bool) (w : Fin 512) :
    coefAddr e k w / 0x8000 = 0x6000 + e.val ∧ coefAddr e k w % 4 = 0 ∧
      0x3000 + 0x800 * k.toNat ≤ coefAddr e k w % 0x8000 ∧ coefAddr e k w % 0x8000 < 0x3800 + 0x800 * k.toNat := by
  have hk := Bool.toNat_le k
  have hw := w.isLt
  rw [coefAddr_eq]
  omega

theorem coefAddr_range (e : Eng) (k : Bool) (w : Fin 512) : 0x30000000 ≤ coefAddr e k w ∧ coefAddr e k w < 0x30038000 := by
  obtain ⟨hpage, -, -, -⟩ := coefAddr_bounds e k w
  have he := e.isLt
  omega

theorem toNat_coefAddr (e : Eng) (k : Bool) (w : Fin 512) : (BitVec.ofNat 32 (coefAddr e k w)).toNat = coefAddr e k w := by
  obtain ⟨-, hhi⟩ := coefAddr_range e k w
  rw [BitVec.toNat_ofNat]
  omega

theorem regionOf_coefAddr (e : Eng) (k : Bool) (w : Fin 512) : regionOf (coefAddr e k w) = some (.window e) := by
  obtain ⟨hpage, -, -, -⟩ := coefAddr_bounds e k w
  obtain ⟨hlo, hhi⟩ := coefAddr_range e k w
  have he := e.isLt
  unfold regionOf
  iterate 10 rw [if_neg (by omega)]
  rw [if_pos ⟨hlo, hhi⟩]
  have hwindow : coefAddr e k w / 0x8000 % 0x2000 % 7 = e.val := by omega
  exact congrArg (fun i => some (Region.window i)) (Fin.ext hwindow)

theorem coefBank_coefAddr (e : Eng) (k : Bool) (w : Fin 512) : coefBank (coefAddr e k w) = some (e, k) := by
  obtain ⟨hpage, -, hbank, hbank'⟩ := coefAddr_bounds e k w
  obtain ⟨hlo, hhi⟩ := coefAddr_range e k w
  have hk := Bool.toNat_le k
  have he := e.isLt
  have hengine : coefAddr e k w / 0x8000 % 0x2000 % 7 = e.val := by omega
  have hsecond : decide (0x3800 ≤ coefAddr e k w % 0x8000) = k := by
    cases k with
    | false => exact decide_eq_false (by simp only [Bool.toNat_false] at hbank'; omega)
    | true => exact decide_eq_true (by simp only [Bool.toNat_true] at hbank; omega)
  rw [coefBank, if_pos ⟨hlo, hhi, by omega, by omega⟩, hsecond]
  exact congrArg (fun i => some (i, k)) (Fin.ext hengine)

theorem keepsCopies_coefAddr (e : Eng) (k : Bool) (w : Fin 512) : keepsCopies (coefAddr e k w) := by
  obtain ⟨-, -, hbank, hbank'⟩ := coefAddr_bounds e k w
  obtain ⟨hlo, hhi⟩ := coefAddr_range e k w
  have hk := Bool.toNat_le k
  exact ⟨hlo, by omega, by omega, by omega⟩

/-- Whether the bank of a coefficient is closed to writes: the bank in force is, while the loop is closed and LIVEWR is clear (R231). -/
theorem bankClosed_coefAddr (s : State) (e : Eng) (k : Bool) (w : Fin 512) : bankClosed s (coefAddr e k w) =
    (s.on (F.HLE_ENGSTAT_BANKACT e) == k && !s.on (F.HLE_ENGSTAT_OPENACT e) && !s.on (F.HLE_ENGCTRL_LIVEWR e)) := by
  rw [bankClosed, coefBank_coefAddr]

/-- R74 permits a core to write coefficients. -/
theorem memPermitted_coefAddr (s : State) (p : Pair) (e : Eng) (k : Bool) (w : Fin 512) :
    memPermitted s (.p p) (.window e) (coefAddr e k w) .write = true := by
  obtain ⟨-, -, hbank, hbank'⟩ := coefAddr_bounds e k w
  obtain ⟨hlo, hhi⟩ := coefAddr_range e k w
  have hk := Bool.toNat_le k
  have hkeep : ¬ (Use.write = Use.write ∧ ((0x2100E000 ≤ coefAddr e k w ∧ coefAddr e k w < 0x21010000) ∨
      (0x11000000 ≤ coefAddr e k w ∧ coefAddr e k w < 0x11004000))) := by
    rintro ⟨-, h⟩
    omega
  unfold memPermitted
  rw [if_neg hkeep]
  exact Bool.and_eq_true_iff.mpr ⟨decide_eq_true ⟨by omega, by omega⟩, rfl⟩

/-! ## The comparison of the copies (R42, R44) -/

/-- The fields that show a lockstep capture. -/
def captureFlds (p : Pair) : List Fld :=
  [F.DBL_STAT_RUN, F.DBL_FAULT_VALID p, F.DBL_FAULT_CAUSE p, F.DBL_FAULT_GROUP p, F.DBL_FAULT_MULTI p, F.DBL_STAT_FAULT, F.SAFE_STAT_NMILS]

theorem ButFor.raise {A : List Fld} {u s : State} (h : ButFor A u s) (i : Irq) : ButFor A u (s.raise i) :=
  h.upd (State.raise_regs s i) (State.raise_driver s i) (State.raise_ebp s i)

theorem butFor_showCapture {p : Pair} {u s : State} (h : ButFor (captureFlds p) u s) (cause group : Nat) (many : Bool) :
    ButFor (captureFlds p) u ((((((s.put (F.DBL_FAULT_VALID p) 1).put (F.DBL_FAULT_CAUSE p) cause).put (F.DBL_FAULT_GROUP p) group).putB
      (F.DBL_FAULT_MULTI p) many).putBit F.DBL_STAT_FAULT p true).put F.SAFE_STAT_NMILS 1) := by
  have hmem : ∀ f ∈ captureFlds p, ∀ {t : State} (v : Nat), ButFor (captureFlds p) u t → ButFor (captureFlds p) u (t.put f v) :=
    fun f hf _ v ht => ht.put hf v
  simp only [captureFlds, List.forall_mem_cons] at hmem
  obtain ⟨-, hvalid, hcause, hgroup, hmulti, hfault, hnmil, -⟩ := hmem
  exact hnmil _ (hfault _ (hmulti _ (hgroup _ (hcause _ (hvalid _ h)))))

/-- A lockstep capture changes the fields that show it, and neither memory nor a reply. -/
theorem lockstepCapture_frame (p : Pair) (violation : Bool) (groups parity : List Nat) (s : State) :
    ButFor (captureFlds p) s (lockstepCapture p violation groups parity s) ∧
      (lockstepCapture p violation groups parity s).mem = s.mem ∧ (lockstepCapture p violation groups parity s).bus = s.bus := by
  have hstopped : ButFor (captureFlds p) s (s.putBit F.DBL_STAT_RUN p false) := (ButFor.refl s).putBit (by simp [captureFlds]) _ _
  unfold lockstepCapture
  dsimp only
  split
  · exact ⟨.refl s, rfl, rfl⟩
  · split
    · exact ⟨hstopped, rfl, rfl⟩
    · have hdrew : ButFor (captureFlds p) s (s.putBit F.DBL_STAT_RUN p false).drew := hstopped.upd rfl rfl rfl
      exact ⟨(butFor_showCapture hdrew _ _ _).raise _, by simp, by simp⟩

/-- The comparison of a core's two copies leaves memory, the reply and the flags of HLE as the access left them. -/
theorem comparedAccess_frame (p : Pair) (m : MemAccess) (s : State) :
    (comparedAccess (.p p) m s).mem = (accessHere (.p p) m s).mem ∧ (comparedAccess (.p p) m s).bus = (accessHere (.p p) m s).bus ∧
      (comparedAccess (.p p) m s).on F.HLE_STAT_ACCERR = (accessHere (.p p) m s).on F.HLE_STAT_ACCERR := by
  have hparts : ∀ t : State, (doubleParts p m s t).mem = t.mem ∧ (doubleParts p m s t).bus = t.bus ∧
      (doubleParts p m s t).on F.HLE_STAT_ACCERR = t.on F.HLE_STAT_ACCERR := by
    intro t
    unfold doubleParts
    dsimp only
    split <;> exact ⟨rfl, rfl, rfl⟩
  unfold comparedAccess
  dsimp only
  split
  · obtain ⟨hbut, hmem, hbus⟩ := lockstepCapture_frame p true (partGroups p m) [] (doubleParts p m s (accessHere (.p p) m s))
    obtain ⟨pmem, pbus, pon⟩ := hparts (accessHere (.p p) m s)
    exact ⟨hmem.trans pmem, hbus.trans pbus, (hbut.on F.HLE_STAT_ACCERR).trans pon⟩
  · exact ⟨rfl, rfl, rfl⟩

/-! ## Coefficient writes -/

variable {p : Pair} {s : State} {e : Eng} {k : Bool} {w : Fin 512} {v : Word}

theorem exec_coefficientWrite_of_core (hi : issues s (.p p) = true) :
    exec (.coefficientWrite (.p p) e k w v) s = .next (comparedAccess (.p p) (wordAccess .write (coefAddr e k w) v .clean) s) :=
  congrArg Host.Outcome.next (if_pos hi)

/-- A core's coefficient write to an open bank lands. -/
theorem accessHere_coefficient_open (hpmp : pmpPermits s (.p p) .write (coefAddr e k w) 4 = true)
    (hb : bankClosed s (coefAddr e k w) = false) :
    accessHere (.p p) (wordAccess .write (coefAddr e k w) v .clean) s = busData 0 (writeThrough p (coefAddr e k w) 4 v s) := by
  have ha := toNat_coefAddr e k w
  obtain ⟨-, hal, -, -⟩ := coefAddr_bounds e k w
  have hpass : Passes (.p p) (wordAccess .write (coefAddr e k w) v .clean) (.window e) s := by
    refine ⟨rfl, ?_, ?_, ?_, ?_, fun _ => ?_, fun h => absurd h Bool.false_ne_true⟩ <;> simp only [wordAccess, ha]
    · exact hal
    · exact regionOf_coefAddr e k w
    · exact memPermitted_coefAddr s p e k w
    · exact hpmp
    · exact hb
  rw [accessHere_of_passes hpass]
  simp only [memPerform, wordAccess, ha]
  rfl

theorem exec_coefficientWrite_open (hi : issues s (.p p) = true) (hpmp : pmpPermits s (.p p) .write (coefAddr e k w) 4 = true)
    (hb : bankClosed s (coefAddr e k w) = false) :
    ∃ t, exec (.coefficientWrite (.p p) e k w v) s = .next t ∧ t.bus = ⟨0, false⟩ ∧ t.mem20 (coefAddr e k w) = v.setWidth 20 ∧
      outsideWord (coefAddr e k w) s t := by
  obtain ⟨-, hal, -, -⟩ := coefAddr_bounds e k w
  obtain ⟨hmem, hbus, -⟩ := comparedAccess_frame p (wordAccess .write (coefAddr e k w) v .clean) s
  rw [accessHere_coefficient_open hpmp hb] at hmem hbus
  obtain ⟨u, hu, hland⟩ := landed_writeThrough p (coefAddr e k w) 4 v s
  obtain ⟨hval, hout⟩ := hland.mem20 (keepsCopies_coefAddr e k w) hal
  refine ⟨_, exec_coefficientWrite_of_core hi, hbus, ?_, fun j hj => ?_⟩
  · exact (congrArg (BitVec.setWidth 20) (State.memWord_of_mem hmem _)).trans hval
  · exact (State.byte_of_mem hmem j).trans ((hout j hj).trans (State.byte_of_mem hu j))

/-- A refusal leaves the fields of HLE. -/
theorem bankClosed_refuse (r : Requester) (wr : Bool) (s : State) (e : Eng) (k : Bool) (w : Fin 512) :
    bankClosed (refuse r (coefAddr e k w) wr s) (coefAddr e k w) = bankClosed s (coefAddr e k w) := by
  have hon : ∀ f : Fld, 0x4000B000 ≤ f.addr → (refuse r (coefAddr e k w) wr s).on f = s.on f := fun f hf =>
    congrArg (fun x => f.read x == 1) (refuse_rd_other r (coefAddr e k w) wr s (by omega) (by omega))
  rw [bankClosed_coefAddr, bankClosed_coefAddr, hon _ (by simp only [F.HLE_ENGSTAT_BANKACT]; omega),
    hon _ (by simp only [F.HLE_ENGSTAT_OPENACT]; omega), hon _ (by simp only [F.HLE_ENGCTRL_LIVEWR]; omega)]

/-- A core's coefficient write to a closed bank is refused with ACCERR set (R207, R231). -/
theorem accessHere_coefficient_closed (hpmp : pmpPermits s (.p p) .write (coefAddr e k w) 4 = true)
    (hb : bankClosed s (coefAddr e k w) = true) :
    accessHere (.p p) (wordAccess .write (coefAddr e k w) v .clean) s =
      (trapPair p 7 (coefAddr e k w) (refuse (.p p) (coefAddr e k w) true s)).put F.HLE_STAT_ACCERR 1 := by
  have ha := toNat_coefAddr e k w
  obtain ⟨-, hal, -, -⟩ := coefAddr_bounds e k w
  have hclosed : bankClosed (trapPair p 7 (coefAddr e k w) (refuse (.p p) (coefAddr e k w) true s)) (coefAddr e k w) = true :=
    (bankClosed_refuse (.p p) true s e k w).trans hb
  rw [accessHere_of_aligned rfl (by simp only [wordAccess, ha]; exact hal), placeAccess_of_region (reg := .window e)
    (by simp only [wordAccess, ha]; exact regionOf_coefAddr e k w), memRegion_of_refused rfl
    (by simp only [wordAccess, ha, hb, isWrite, Bool.and_self, Bool.or_true])]
  simp only [wordAccess, ha]
  refine if_pos (Bool.and_eq_true_iff.mpr ⟨hpmp, ?_⟩)
  exact Bool.and_eq_true_iff.mpr ⟨rfl, Bool.or_eq_true_iff.mpr (.inr hclosed)⟩

theorem exec_coefficientWrite_closed (hi : issues s (.p p) = true) (hpmp : pmpPermits s (.p p) .write (coefAddr e k w) 4 = true)
    (hk : s.on (F.HLE_ENGSTAT_BANKACT e) = k)
    (hloop : s.on (F.HLE_ENGSTAT_OPENACT e) = false ∧ s.on (F.HLE_ENGCTRL_LIVEWR e) = false) :
    ∃ t, exec (.coefficientWrite (.p p) e k w v) s = .next t ∧ t.bus = ⟨0, true⟩ ∧ t.on F.HLE_STAT_ACCERR = true ∧ t.mem = s.mem := by
  have hb : bankClosed s (coefAddr e k w) = true := by
    rw [bankClosed_coefAddr, hk, hloop.1, hloop.2]
    simp
  obtain ⟨hmem, hbus, hon⟩ := comparedAccess_frame p (wordAccess .write (coefAddr e k w) v .clean) s
  rw [accessHere_coefficient_closed hpmp hb] at hmem hbus hon
  exact ⟨_, exec_coefficientWrite_of_core hi, hbus.trans (refuse_bus _ _ _ s), hon.trans (State.on_put_same _ _ _ (by decide)),
    hmem.trans (refuse_mem _ _ _ s)⟩

end Sys2Proof.Machine

open Sys2Proof Sys2Proof.Machine in
/-- Settles O11: an access that nothing turns away is performed (`Passes`), a landing write leaves what `Landed` says, and the comparison of
a core's copies changes no memory. -/
theorem memoryAccesses : Obligations.MemoryAccesses := by
  refine ⟨fun s r m reg n hr hk hreg _ ha ho => ?_, fun s r m reg n hr hk hreg hlow ha => exec_memoryAccess_write hr hk hreg hlow.2 ha,
    fun s m reg n hk hreg hi ha => exec_memoryAccess_refused_of_s hk hreg hi ha,
    fun s m reg n hk hreg hi ha => exec_memoryAccess_uncorrectable_of_s hk hreg hi ha, fun s p m n hi hk ha => ?_,
    fun s p m n hi => ?_, fun s p m n hi hk hc h ho => exec_memoryAccess_read_tcm hi hk hc h ho,
    fun s p m n hi hk hc h hlost => exec_memoryAccess_sc_lost hi hk hc h hlost,
    fun s p m n hi hk hc h hheld => exec_memoryAccess_sc_held hi hk hc h hheld,
    fun s p m n hi hk hc h hline => exec_memoryAccess_write_of_core hi hk hc h hline,
    fun s p e k w v hi hpmp hb => exec_coefficientWrite_open hi hpmp hb,
    fun s e k w v p hi hpmp hk hloop => exec_coefficientWrite_closed hi hpmp hk hloop,
    fun a b => ⟨fun h => grantedBefore_of_aged h.1 h.2, grantedBefore_of_alike⟩,
    fun s r q m k n w hrq hmk hreg ho => exec_memoryAccess_read_write hrq hmk hreg ho,
    fun s r x => exec_next_pending _ s, fun s r e b w v => exec_next_pending _ s⟩
  · exact (exec_memoryAccess_alone r m n s).trans (congrArg Host.Outcome.next (memoryAccess_read hr hk hreg ha ho))
  · rw [exec_memoryAccess_alone, memoryAccess_of_core hi (copiesPart_of_misaligned ha _), accessHere_of_misaligned hk ha]
  · exact (exec_memoryAccess_alone (.p p) m n s).trans (congrArg Host.Outcome.next (if_neg (by rw [hi]; exact Bool.false_ne_true)))
end

section
/-!
SUPPORT. The comparator of a core pair and its capture (R91 to R94, R97 to R99): a single bit of a field written, what a capture shows, and which
cycles are violations.
-/
namespace Sys2Proof.Machine

/-! ## One bit of a field -/

theorem bitAt_eq_testBit (n i : Nat) : bitAt n i = n.testBit i := by
  rw [Nat.testBit_eq_decide_div_mod_eq]
  rfl

theorem bitAt_withBit_same (n i : Nat) (b : Bool) : bitAt (withBit n i b) i = b := by
  unfold withBit
  split
  · next h => exact beq_iff_eq.mp h
  · next h =>
    rw [bitAt_eq_testBit] at h ⊢
    cases b with
    | true =>
      rw [if_pos rfl, Nat.add_comm, Nat.testBit_two_pow_add_eq]
      simpa using h
    | false =>
      have hset : n.testBit i = true := by simpa using h
      have hsum : 2 ^ i + (n - 2 ^ i) = n := Nat.add_sub_cancel' (Nat.ge_two_pow_of_testBit hset)
      rw [← hsum, Nat.testBit_two_pow_add_eq] at hset
      simpa using hset

/-- A bit within a field reads back what was put into it. -/
theorem State.bit_putBit_same (s : State) {f : Fld} {i : Nat} (b : Bool) (hi : i < f.w) (h : f.lo + f.w ≤ 32) :
    (s.putBit f i b).bit f i = b := by
  rw [State.bit, State.putBit, State.get_put_same _ _ _ h, bitAt_eq_testBit, Nat.testBit_mod_two_pow, ← bitAt_eq_testBit,
    bitAt_withBit_same]
  simp [hi]

/-! ## What a capture shows (R97 to R99) -/

/-- The registers and V's interrupt as a capture sets them (R663). -/
def captureShown (p : Pair) (cause group : Nat) (many : Bool) (s : State) : State :=
  ((((((s.put (F.DBL_FAULT_VALID p) 1).put (F.DBL_FAULT_CAUSE p) cause).put (F.DBL_FAULT_GROUP p) group).putB
    (F.DBL_FAULT_MULTI p) many).putBit F.DBL_STAT_FAULT p true).put F.SAFE_STAT_NMILS 1).raise (.lockstep p)

/-- `t` is `s` with the pair's clock stopped and a capture with this cause, group and MULTI. -/
structure Captured (p : Pair) (cause group : Nat) (many : Bool) (s t : State) : Prop where
  stopped : t.bit F.DBL_STAT_RUN p = false
  valid : t.on (F.DBL_FAULT_VALID p) = true
  cause : t.get (F.DBL_FAULT_CAUSE p) = cause
  group : t.get (F.DBL_FAULT_GROUP p) = group
  multi : t.on (F.DBL_FAULT_MULTI p) = many
  fault : t.bit F.DBL_STAT_FAULT p = true
  pending : t.on F.SAFE_STAT_NMILS = true
  interrupt : Irq.lockstep p ∈ t.irqs
  cores : t.cores = s.cores
  mem : t.mem = s.mem

/-- The capture register holds what the capture puts there. -/
theorem captureShown_register (p : Pair) (cause group : Nat) (many : Bool) (s : State) :
    (captureShown p cause group many s).get (F.DBL_FAULT_VALID p) = 1 ∧
      (captureShown p cause group many s).get (F.DBL_FAULT_CAUSE p) = cause % 8 ∧
      (captureShown p cause group many s).get (F.DBL_FAULT_GROUP p) = group % 32 ∧
      (captureShown p cause group many s).get (F.DBL_FAULT_MULTI p) = many.toNat % 2 := by
  refine ⟨?_, ?_, ?_, ?_⟩ <;>
    (simp (disch := (clear * -; decide +revert)) only [captureShown, State.raise_get, State.putBit_eq, State.putB_eq,
      State.get_put_disj, State.get_put_same]; rfl)

/-- A capture leaves the RUN bits. -/
theorem captureShown_run (p : Pair) (cause group : Nat) (many : Bool) (s : State) :
    (captureShown p cause group many s).get F.DBL_STAT_RUN = s.get F.DBL_STAT_RUN := by
  simp (disch := (clear * -; decide +revert)) only [captureShown, State.raise_get, State.putBit_eq, State.putB_eq, State.get_put_disj]

theorem captured_captureShown {p : Pair} {cause group : Nat} (hc : cause < 8) (hg : group < 32) (many : Bool) (s : State) :
    Captured p cause group many s (captureShown p cause group many (s.putBit F.DBL_STAT_RUN p false).drew) := by
  obtain ⟨hvalid, hcause, hgroup, hmulti⟩ := captureShown_register p cause group many (s.putBit F.DBL_STAT_RUN p false).drew
  refine ⟨?_, congrArg (· == 1) hvalid, hcause.trans (Nat.mod_eq_of_lt hc), hgroup.trans (Nat.mod_eq_of_lt hg), ?_, ?_, ?_,
    State.mem_irqs_raise _ _, by simp [captureShown], by simp [captureShown]⟩
  · rw [State.bit, captureShown_run]
    exact State.bit_putBit_same s (f := F.DBL_STAT_RUN) (i := p) false p.isLt (by decide)
  · rw [State.on, hmulti]
    cases many <;> rfl
  · rw [captureShown, State.bit, State.raise_get, State.get_put_apart _ F.SAFE_STAT_NMILS F.DBL_STAT_FAULT]
    exact State.bit_putBit_same _ (f := F.DBL_STAT_FAULT) (i := p) true p.isLt (by decide)
  · rw [captureShown, State.on, State.raise_get, State.get_put_same _ _ _ (by decide)]
    rfl

/-! ## Which cycles are captured -/

/-- A pair that is clocked, not under the injection test, and holds no capture. -/
structure CaptureFree (p : Pair) (s : State) : Prop where
  clocked : s.bit F.DBL_STAT_RUN p = true
  untested : s.on F.DBL_INJ_BUSY = false
  clear : s.on (F.DBL_FAULT_VALID p) = false

/-- The clock stopped leaves the capture as it is. -/
theorem on_valid_of_stopped (p : Pair) (s : State) :
    (s.putBit F.DBL_STAT_RUN p false).on (F.DBL_FAULT_VALID p) = s.on (F.DBL_FAULT_VALID p) :=
  State.on_put_apart s F.DBL_STAT_RUN (F.DBL_FAULT_VALID p) _

section
variable {p : Pair} {violation : Bool} {groups parity : List Nat} {s : State}

/-- The first violation or parity report of such a pair is captured. -/
theorem lockstepCapture_of_first (h : CaptureFree p s) (hhit : violation = true ∨ parity ≠ []) :
    lockstepCapture p violation groups parity s =
      captureShown p (if !parity.isEmpty then 2 else 1)
        (if !parity.isEmpty then parity.headD 0 % 32 else groups.headD ((s.putBit F.DBL_STAT_RUN p false).free.toNat % 18))
        (decide (1 < groups.length + parity.length) || (!parity.isEmpty && violation)) (s.putBit F.DBL_STAT_RUN p false).drew := by
  obtain ⟨hrun, hinj, hclear⟩ := h
  have hskip : ((!violation && parity.isEmpty) || !s.bit F.DBL_STAT_RUN p || (s.on F.DBL_INJ_BUSY && s.bit F.DBL_INJ_PAIRS p)) = false := by
    rcases hhit with hv | hp <;> simp [*]
  have hstill : (s.putBit F.DBL_STAT_RUN p false).on (F.DBL_FAULT_VALID p) = false := (on_valid_of_stopped p s).trans hclear
  simp only [lockstepCapture, hskip, hstill, Bool.false_eq_true, if_false]
  rfl

theorem captured_of_groups (h : CaptureFree p s) {g : Nat} {gs : List Nat} (hg : g < 32) :
    Captured p 1 g (!gs.isEmpty) s (lockstepCapture p true (g :: gs) [] s) := by
  rw [lockstepCapture_of_first h (.inl rfl)]
  have hmany : (decide (1 < (g :: gs).length + ([] : List Nat).length) || (!([] : List Nat).isEmpty && true)) = !gs.isEmpty := by cases gs <;> simp
  rw [hmany]
  exact captured_captureShown (by decide) hg _ s

theorem captured_of_parity (h : CaptureFree p s) {g : Nat} {gs : List Nat} :
    Captured p 2 (g % 32) (decide (1 < groups.length + (g :: gs).length) || violation) s
      (lockstepCapture p violation groups (g :: gs) s) := by
  rw [lockstepCapture_of_first h (.inr (by simp))]
  exact captured_captureShown (by decide) (Nat.mod_lt _ (by decide)) _ s

/-- A capture that stands keeps its fields: only the clock stops (R99). -/
theorem lockstepCapture_of_standing (hrun : s.bit F.DBL_STAT_RUN p = true) (hinj : s.on F.DBL_INJ_BUSY = false)
    (hvalid : s.on (F.DBL_FAULT_VALID p) = true) :
    lockstepCapture p true groups parity s = s.putBit F.DBL_STAT_RUN p false := by
  have hstill : (s.putBit F.DBL_STAT_RUN p false).on (F.DBL_FAULT_VALID p) = true := (on_valid_of_stopped p s).trans hvalid
  simp [lockstepCapture, hrun, hinj, hstill]

theorem lockstepCapture_of_quiet : lockstepCapture p false groups [] s = s := by
  simp [lockstepCapture]

end

/-! ## What the comparator finds (R91, R94) -/

theorem diffBits_eq_nil_iff {w : Nat} (k : Nat) (a b : BitVec w) : diffBits k w a b = [] ↔ a = b := by
  simp only [diffBits, List.map_eq_nil_iff, List.filter_eq_nil_iff, List.mem_range, bne_iff_ne, ne_eq, not_not]
  exact ⟨BitVec.eq_of_getLsbD_eq, fun h i _ => h ▸ rfl⟩

@[simp] theorem diffBits_self {w : Nat} (k : Nat) (a : BitVec w) : diffBits k w a a = [] := (diffBits_eq_nil_iff k a a).mpr rfl

/-- Without a fault inside the tree a cycle is a violation where compared bits differ. -/
theorem codeViolation_of_sound_tree {f : LockstepFinding} (h : f.tree = none) : codeViolation f = !(differing f).isEmpty := by
  simp only [codeViolation, finalPair, h, Option.getD_none]
  cases (differing f).isEmpty <;> cases f.odd <;> rfl

/-- Control bits are compared in every cycle. -/
theorem differing_ne_nil_of_control {f : LockstepFinding} (h : f.main.rails ≠ f.double.rails ∨ f.main.claim ≠ f.double.claim) :
    differing f ≠ [] := by
  intro hnil
  simp only [differing, List.append_eq_nil_iff, diffBits_eq_nil_iff] at hnil
  rcases h with h | h <;> exact h (by tauto)

theorem differing_of_agreeing {f : LockstepFinding} (h : f.main = f.double) : differing f = [] := by
  simp [differing, h]

/-- The trace port is compared while its qualifier is active alone. -/
theorem differing_of_trace_unqualified {f : LockstepFinding} (h : f.valid.trace = false) :
    differing { f with double := { f.double with trace := f.main.trace } } = differing f := by
  simp [differing, h]

theorem flaggedGroups_head_lt {f : LockstepFinding} {g : Nat} {gs : List Nat} (h : flaggedGroups f = g :: gs) : g < 18 := by
  have hmem : g ∈ flaggedGroups f := by simp [h]
  exact List.mem_range.mp (List.mem_of_mem_filter hmem)

@[simp] theorem bitsSet_zero (w : Nat) : bitsSet 0 w = [] := by
  simp [bitsSet, bitAt]

/-! ## A cycle at the comparator -/

section
variable {p : Pair} {f : LockstepFinding} {g : Nat} {gs : List Nat} {s : State}

/-- A violation without a parity report shows the lowest compare group flagged. -/
theorem lockstepHit_captures_groups (h : CaptureFree p s) (hpar : f.parity = 0) (hviol : codeViolation f = true)
    (hgroups : flaggedGroups f = g :: gs) : Captured p 1 g (!gs.isEmpty) s (lockstepHit p f s) := by
  have hnone : bitsSet f.parity.toNat 52 = [] := by rw [hpar]; exact bitsSet_zero 52
  rw [lockstepHit, hviol, hgroups, hnone]
  exact captured_of_groups h (Nat.lt_trans (flaggedGroups_head_lt hgroups) (by decide))

/-- A parity report shows the lowest parity group, whatever the comparator flags beside it (log entry 95). -/
theorem lockstepHit_captures_parity (h : CaptureFree p s) (hpar : bitsSet f.parity.toNat 52 = g :: gs) :
    Captured p 2 (g % 32) (decide (1 < (flaggedGroups f).length + (g :: gs).length) || codeViolation f) s (lockstepHit p f s) := by
  rw [lockstepHit, hpar]
  exact captured_of_parity h

theorem lockstepHit_of_standing (hrun : s.bit F.DBL_STAT_RUN p = true) (hinj : s.on F.DBL_INJ_BUSY = false)
    (hvalid : s.on (F.DBL_FAULT_VALID p) = true) (hviol : codeViolation f = true) :
    lockstepHit p f s = s.putBit F.DBL_STAT_RUN p false := by
  rw [lockstepHit, hviol]
  exact lockstepCapture_of_standing hrun hinj hvalid

theorem lockstepHit_of_quiet (hviol : codeViolation f = false) (hpar : f.parity = 0) : lockstepHit p f s = s := by
  have hnone : bitsSet f.parity.toNat 52 = [] := by rw [hpar]; exact bitsSet_zero 52
  rw [lockstepHit, hviol, hnone]
  exact lockstepCapture_of_quiet

theorem exec_lockstepFault_of_running (h : coreStopped s = false) : exec (.lockstepFault p f) s = .next (lockstepHit p f s) :=
  clockedOut_of_running h _

end

/-! ## The checkpoint signature (R93) -/

section
variable {p : Pair} {g : Progress} {s : State}

theorem bit_run_of_issues (h : issues s (.p p) = true) : s.bit F.DBL_STAT_RUN p = true := by
  by_contra hrun
  exact Bool.false_ne_true ((issues_of_not_released (Bool.eq_false_iff.mpr hrun)).symm.trans h)

theorem checkpoint_of_machine_mode (hi : issues s (.p p) = true) (hm : g.machineMode = true) :
    checkpoint p g s = driveSignature p (progressed p g s) := by
  simp [checkpoint, hi, hm]

theorem checkpoint_of_user_mode (hi : issues s (.p p) = true) (hm : g.machineMode = false) :
    checkpoint p g s = trapPair p 2 0 (progressed p g s) := by
  simp [checkpoint, hi, hm]

theorem driveSignature_of_agreeing (h : s.cores[p.val].main.signature = s.cores[p.val].double.signature) :
    driveSignature p s = s.modCore p (fun c => { c with signature := s.cores[p.val].main.signature }) := if_pos h

/-- Signatures that differ are a difference in group 12. -/
theorem captured_of_signature (h : CaptureFree p s) (hd : s.cores[p.val].main.signature ≠ s.cores[p.val].double.signature) :
    Captured p 1 12 false (s.modCore p (fun c => { c with signature := s.cores[p.val].main.signature })) (driveSignature p s) := by
  obtain ⟨hrun, hinj, hclear⟩ := h
  rw [driveSignature, if_neg hd]
  refine captured_of_groups (g := 12) (gs := []) ?_ (by decide)
  exact ⟨hrun, hinj, hclear⟩

end

end Sys2Proof.Machine

open Sys2Proof Sys2Proof.Machine in
/-- Settles O14: the first violation of a clocked pair is captured as `Captured` says (`lockstepHit_captures_groups`,
`lockstepHit_captures_parity`), one that finds
a capture only stops the clock, and a cycle that agrees is left alone. -/
theorem lockstepCapture : Obligations.LockstepCapture := by
  refine ⟨fun s p f g gs hk hrun hinj hclear hpar hhit => ?_, fun s p f g gs hk hrun hinj hclear hpar => ?_,
    fun s p f hk hrun hinj hvalid hviol =>
      (exec_lockstepFault_of_running hk).trans (congrArg Host.Outcome.next (lockstepHit_of_standing hrun hinj hvalid hviol)),
    fun s p f hk hquiet =>
      (exec_lockstepFault_of_running hk).trans (congrArg Host.Outcome.next (lockstepHit_of_quiet hquiet.1 hquiet.2)),
    fun f htree => ⟨fun h => ?_, fun h => ?_, differing_of_trace_unqualified⟩,
    fun s p hk => clockedOut_of_running hk _,
    fun s p g hi hm hsig => congrArg Host.Outcome.next ((checkpoint_of_machine_mode hi hm).trans (driveSignature_of_agreeing hsig)),
    fun s p g hi hfree hm hsig => ?_, fun s p g hi hm => congrArg Host.Outcome.next (checkpoint_of_user_mode hi hm),
    fun s hstop => ⟨fun p f => clockedOut_of_stopped hstop _, fun p => clockedOut_of_stopped hstop _⟩,
    fun s p g => exec_next_pending _ s, fun s p f => exec_next_pending _ s, fun s p => exec_next_pending _ s⟩
  · obtain ⟨hviol, hgroups⟩ := hhit
    have hc := lockstepHit_captures_groups ⟨hrun, hinj, hclear⟩ hpar hviol hgroups
    exact ⟨_, exec_lockstepFault_of_running hk, hc.stopped, hc.valid, hc.cause, hc.group, hc.multi, hc.fault, hc.pending, hc.interrupt,
      hc.cores, hc.mem⟩
  · have hc := lockstepHit_captures_parity ⟨hrun, hinj, hclear⟩ hpar
    refine ⟨_, exec_lockstepFault_of_running hk, hc.stopped, hc.valid, hc.cause, hc.group, fun hgs => hc.multi.trans ?_,
      fun hgs hviol hgroups => hc.multi.trans ?_, hc.fault, hc.pending, hc.interrupt, hc.cores, hc.mem⟩
    · have hmore := List.length_pos_iff.mpr hgs
      rw [List.length_cons, decide_eq_true (by omega), Bool.true_or]
    · rw [hgs, hviol, hgroups]
      rfl
  · rw [codeViolation_of_sound_tree htree]
    simpa using differing_ne_nil_of_control h
  · rw [codeViolation_of_sound_tree htree, differing_of_agreeing h]
    rfl
  · obtain ⟨hinj, hclear⟩ := hfree
    have hc := captured_of_signature (p := p) (s := progressed p g s) ⟨bit_run_of_issues (s := s) hi, hinj, hclear⟩ hsig
    rw [← checkpoint_of_machine_mode hi hm] at hc
    exact ⟨_, rfl, hc.group, hc.cause, hc.stopped, hc.mem⟩
end

section
/-!
SUPPORT. A pair released and gated in WFI (R590): it makes no accesses, so that neither its program nor a debugger's single step runs.
-/
namespace Sys2Proof.Machine

theorem issues_of_gated {s : State} {p : Pair} (h : s.cores[p.val].gated = true) : issues s (.p p) = false := by
  simp [issues, h]

theorem exec_dcacheInvalidate_of_silent {s : State} {p : Pair} (h : issues s (.p p) = false) (addr : Word) :
    exec (.dcacheInvalidate p addr) s = .next s :=
  congrArg Host.Outcome.next (if_neg (by rw [h]; exact Bool.false_ne_true))

/-- A pair that makes no accesses fetches nothing for a single step. -/
theorem exec_debugSingleStep_of_silent {s : State} {p : Pair} (hi : issues s (.p p) = false)
    (hpc : s.cores[p.val].main.pc = s.cores[p.val].double.pc) : exec (.debugSingleStep p) s = .next s := by
  have hstep : debugStep p s = s := by simp [debugStep, stepPair, bitsHit, hi, hpc]
  refine (clockedOut_next s _).trans (congrArg Host.Outcome.next ?_)
  rw [hstep, ite_self]

/-- Pair 0 released with its clock gated, a line in its D-cache. -/
def gatedPair : State :=
  (State.reset.putBit F.DBL_STAT_RUN 0 true).modCore 0 (fun c => { c with dcache := [(0, some ⟨0, []⟩)], gated := true })

/-- The same pair halted with debug open, both copies at the ADDI x0, x0, 0 that begins its TCM. -/
def gatedHalted : State :=
  (modCopies 0 (fun c => { c with pc := 0x08000000 })
    ((gatedPair.put F.KEEP_STAT_DBGOPEN 1).putBit F.DBL_STAT_DBGHALT 0 true)).setMemWord 0x08000000 0x13

end Sys2Proof.Machine

open Sys2Proof Sys2Proof.Machine in
/-- Refutes O13: its clause on DCACHE_INVALIDATE asks for a released pair alone, but a released pair whose clock is gated in WFI makes no
accesses (R590), and its lines stay. -/
theorem not_coreCachesAndInputs : ¬ Obligations.CoreCachesAndInputs := by
  intro h
  obtain ⟨hinvalidate, -⟩ := h
  obtain ⟨D, hexec, hall, -⟩ := hinvalidate gatedPair 0 0xFFFFFFFF (by decide +kernel)
  rw [hall rfl, exec_dcacheInvalidate_of_silent (issues_of_gated rfl)] at hexec
  have hlines := congrArg (fun s : State => s.cores[0].dcache) (Host.Outcome.next.inj hexec)
  exact absurd hlines (by decide +kernel)

open Sys2Proof Sys2Proof.Machine in
/-- Refutes O15: its clause on a single step asks for a released and halted pair alone, but one whose clock is gated in WFI makes no accesses
(R590), so it fetches nothing and its pc stays. -/
theorem not_injectionTestAndDebug : ¬ Obligations.InjectionTestAndDebug := by
  intro h
  obtain ⟨-, -, -, -, -, -, -, hstep, -⟩ := h
  obtain ⟨t, hexec, -, hpc, -⟩ := hstep gatedHalted 0 0 0 (by decide +kernel) (by decide +kernel) (by decide +kernel) (by decide +kernel)
    (by decide +kernel) (by decide +kernel) (by decide +kernel) (by decide +kernel) (by decide +kernel) (by decide +kernel)
  have hstays : exec (.debugSingleStep 0) gatedHalted = .next gatedHalted :=
    exec_debugSingleStep_of_silent (issues_of_gated (by decide +kernel)) (by decide +kernel)
  obtain rfl := Host.Outcome.next.inj (hstays.symm.trans hexec)
  exact absurd hpc (by decide +kernel)
end

section
/-!
SUPPORT. The transfer tick of an unsealed lane (R40, R395): it takes no triple that raises its own share.
-/
namespace Sys2Proof.Machine

/-- Lane 0 of a duplex set whose other lane is a stand-in, unsealed and without a share; a transfer that is due withdraws it with a triple
that gives it the whole demand. -/
def unsealedLane : State :=
  ((State.reset.put F.SEAL_STRAP_WORD 0xB004).put (F.CONT_PEER_ROLE 1) 1).modCont
    (fun c => { c with transfers := [⟨0, 1, ⟨1000, 0, 0⟩, 1, 0⟩] })

theorem sharesOf_transferAndStart_unsealedLane : sharesOf (transferAndStart unsealedLane) = ⟨0, 0, 0⟩ := by
  decide +kernel

end Sys2Proof.Machine

open Sys2Proof Sys2Proof.Machine in
/-- Refutes O56: its clause on a withdrawal due at the transfer tick has the transfer's triple in force, but a lane that is not sealed takes no triple
that raises its own share (R40). -/
theorem not_startsBegin : ¬ Obligations.StartsBegin := by
  intro h
  obtain ⟨-, -, -, -, -, -, -, -, -, -, -, htransfer, -⟩ := h
  have hruns : coreStopped unsealedLane = false := by decide +kernel
  obtain ⟨t, hexec, -, -, -, -, hshares, -⟩ :=
    htransfer unsealedLane ⟨0, 1, ⟨1000, 0, 0⟩, 1, 0⟩ hruns (by decide +kernel) rfl (by decide +kernel)
  obtain rfl := Host.Outcome.next.inj ((clockedOut_of_running hruns _).symm.trans hexec)
  exact absurd (sharesOf_transferAndStart_unsealedLane.symm.trans hshares) (by decide)
end

section
/-!
SUPPORT. Standstill of a block in BRAKE0 (R117, R315), and the end of COAST in a joined lane (R311, R411).
-/
namespace Sys2Proof.Machine

/-- Bridge A in BRAKE0 at speed zero, with CATCHLO at 1. -/
def brakingBelowCatchlo : State := (State.reset.put (F.MC_STAT_MODE 0) modeBrake0).put (F.MC_CATCHLO_SPEED 0) 1

/-- Standstill brings the speed below CATCHLO, and the MC block leaves BRAKE0 for FOC (R315). -/
theorem mcMode_stillTimeout_brakingBelowCatchlo : mcMode (stillTimeout 0 brakingBelowCatchlo) 0 = modeFoc := by
  decide +kernel

/-- A lane in the six-phase law whose engine 3 is bound to bridge A, which coasts with two agreeing samples and COASTMIN over; the angle
clock of bridge B is not enabled. -/
def joinedCoasting : State :=
  ((((State.reset.put (F.HLE_ENGCTRL_BIND 3) 1).put (F.MC_STAT_MODE 0) modeCoast).put (F.MC_WIN_COASTMIN 0) 0).put
    F.CONT_STAT_JOINED 1).modMc 0 (fun m => { m with estAgree := 2 })

/-- The tick ends COAST, and CONT drops the six-phase law by writing the engine's word JMODE (R411). -/
theorem timerTick_joinedCoasting_mem : (timerTick joinedCoasting).mem ≠ joinedCoasting.mem := by
  decide +kernel

end Sys2Proof.Machine

open Sys2Proof Sys2Proof.Machine in
/-- Refutes O17: its clause on STILL_TIMEOUT names no mode and has STILL, RATE and the slow count alone changed, but a block in BRAKE0 whose
speed so falls below CATCHLO goes to FOC (R315). -/
theorem not_angleClockReload : ¬ Obligations.AngleClockReload := by
  intro h
  obtain ⟨-, -, -, -, -, hstill, -⟩ := h
  have hruns : coreStopped brakingBelowCatchlo = false := by decide +kernel
  have hexec := hstill brakingBelowCatchlo 0 hruns (by decide)
  have hstate := Host.Outcome.next.inj ((clockedOut_of_running hruns _).symm.trans hexec)
  have hmode := congrArg (mcMode · 0) hstate
  exact absurd (mcMode_stillTimeout_brakingBelowCatchlo.symm.trans hmode) (by decide +kernel)

open Sys2Proof Sys2Proof.Machine in
/-- Refutes O21: its clause on an angle clock that is not enabled has memory unchanged over a tick, but the tick that ends COAST in a joined
lane (R311) drops the six-phase law, and CONT writes the engine's word JMODE (R411). -/
theorem not_timerTickAdvancesAngle : ¬ Obligations.TimerTickAdvancesAngle := by
  intro h
  obtain ⟨-, hholds, -⟩ := h
  obtain ⟨t, hexec, -, -, hmem⟩ := hholds joinedCoasting 1 (.inr (.inr (.inl (by decide +kernel))))
  obtain rfl : timerTick joinedCoasting = t := Host.Outcome.next.inj hexec
  exact timerTick_joinedCoasting_mem hmem
end

section
/-!
SUPPORT. What a bridge's gate commands (R279, R281) and the inner tick (R134) leave alone beside the registers, stated once for every part of
the state that they do not reach.
-/
namespace Sys2Proof.Machine

/-- A part of the state that gate commands do not reach: it looks at no register and no switch, and of the MC blocks at no more than the duty
sets in force and the ticks of the last commutations. -/
structure GateFree {α : Type} (π : State → α) : Prop where
  regs : ∀ s r, π { s with regs := r } = π s
  gate : ∀ s g, π { s with gate := g } = π s
  mc : ∀ s m, (∀ b : Bridge, m[b.val].loaded = s.mc[b.val].loaded ∧ m[b.val].commutTick = s.mc[b.val].commutTick) →
    π { s with mc := m } = π s

theorem gateFree_mem : GateFree State.mem := ⟨fun _ _ => rfl, fun _ _ => rfl, fun _ _ _ => rfl⟩
theorem gateFree_ang : GateFree State.ang := ⟨fun _ _ => rfl, fun _ _ => rfl, fun _ _ _ => rfl⟩
theorem gateFree_loaded (b : Bridge) : GateFree (fun s => s.mc[b.val].loaded) :=
  ⟨fun _ _ => rfl, fun _ _ => rfl, fun _ _ h => (h b).1⟩
theorem gateFree_commutTick (b : Bridge) : GateFree (fun s => s.mc[b.val].commutTick) :=
  ⟨fun _ _ => rfl, fun _ _ => rfl, fun _ _ h => (h b).2⟩

theorem ite_keeps {α : Type} {π : State → α} {c : Prop} [Decidable c] {s t : State} {x : α} (hs : π s = x) (ht : π t = x) :
    π (if c then s else t) = x := by
  split <;> assumption

theorem foldl_keeps {α β : Type} {π : State → α} {f : State → β → State} (hf : ∀ s x, π (f s x) = π s) (l : List β) (s : State) :
    π (l.foldl f s) = π s := by
  induction l generalizing s with
  | nil => rfl
  | cons x l ih => exact (ih (f s x)).trans (hf s x)

namespace GateFree
variable {α : Type} {π : State → α} (h : GateFree π)
include h

theorem put (s : State) (f : Fld) (v : Nat) : π (s.put f v) = π s := h.regs s _

theorem countBit (s : State) (f g : Fld) (i : Nat) : π (s.countBit f g i) = π s := ite_keeps (h.put s _ _) (h.put s _ _)

/-- An MC block changed with its duty set in force and its commutation tick kept. -/
theorem modMc (s : State) (b : Bridge) {f : Mc → Mc} (hf : ∀ m, (f m).loaded = m.loaded ∧ (f m).commutTick = m.commutTick) :
    π (s.modMc b f) = π s := by
  refine h.mc s _ fun c => ?_
  by_cases hc : b = c
  · subst hc
    rw [upd_same]
    exact hf _
  · rw [upd_other s.mc f hc]
    exact ⟨rfl, rfl⟩

theorem modGateSw (b : Bridge) (j : Switch) (f : Gate → Gate) (s : State) : π (modGateSw b j f s) = π s := h.gate s _

theorem showOn (b : Bridge) (j : Switch) (on : Bool) (s : State) : π (showOn b j on s) = π s :=
  (h.put _ _ _).trans (ite_keeps (h.modGateSw b j _ s) rfl)

theorem restSwitch (b : Bridge) (j : Switch) (s : State) : π (restSwitch b j s) = π s :=
  ite_keeps rfl ((h.modGateSw b j _ _).trans (ite_keeps (h.showOn b j true s) rfl))

theorem startSwitch (b : Bridge) (j : Switch) (s : State) : π (startSwitch b j s) = π s :=
  ite_keeps rfl (ite_keeps (h.modGateSw b j _ s) (h.modGateSw b j _ s))

theorem driveBridge (b : Bridge) (s : State) : π (driveBridge b s) = π s :=
  (h.put _ (F.GD_STAT_ASACT b) _).trans
    ((foldl_keeps (fun s j => h.startSwitch b j s) _ _).trans (foldl_keeps (fun s j => h.restSwitch b j s) _ s))

theorem noteEdges (b : Bridge) (old cmd : Nat) (s : State) : π (noteEdges b old cmd s) = π s := by
  unfold Machine.noteEdges
  refine (h.modMc _ b ?_).trans (foldl_keeps (fun s j => ?_) _ s)
  · exact fun _ => ⟨rfl, rfl⟩
  · exact ite_keeps (h.modGateSw b j _ s) rfl

theorem takeCommands (b : Bridge) (cmd : Nat) (s : State) : π (takeCommands b cmd s) = π s :=
  (h.driveBridge b _).trans <| (foldl_keeps (fun s _ => (h.countBit _ _ _ _).trans (h.put s _ _)) _ _).trans <|
    (h.put _ _ _).trans (h.noteEdges b _ cmd s)

theorem followGates (b : Bridge) (s : State) : π (followGates b s) = π s := ite_keeps rfl (h.takeCommands b _ s)

theorem requestShort (b : Bridge) (on : Bool) (s : State) : π (requestShort b on s) = π s :=
  (h.followGates b _).trans (h.modMc s b fun _ => ⟨rfl, rfl⟩)

theorem setMode (b : Bridge) (m : Nat) (s : State) : π (setMode b m s) = π s := (h.put _ _ _).trans (h.put s _ _)

theorem brakeEnd (b : Bridge) (s : State) : π (brakeEnd b s) = π s := ite_keeps ((h.followGates b _).trans (h.setMode b _ s)) rfl

theorem judgeSet (s : State) : π (judgeSet s) = π s := ite_keeps (h.put s _ _) rfl

end GateFree

/-! ## The registers -/

section
variable {A : List Fld} {u s : State} (h : ButFor A u s)
include h

theorem butFor_followGates (b : Bridge) (hA : ∀ f ∈ gateFlds b, f ∈ A) : ButFor A u (followGates b s) :=
  ButFor.ite h (butFor_takeCommands h b hA _)

theorem ButFor.modAng (b : Bridge) (f : Ang → Ang) : ButFor A u (s.modAng b f) := h.upd rfl rfl rfl
theorem ButFor.modEng (e : Eng) (f : Engine → Engine) : ButFor A u (s.modEng e f) := h.upd rfl rfl rfl
theorem ButFor.modBridge (b : Bridge) (f : IsnsBridge → IsnsBridge) : ButFor A u (s.modBridge b f) := h.upd rfl rfl rfl
theorem ButFor.drew : ButFor A u s.drew := h.upd rfl rfl rfl

theorem ButFor.count {f g : Fld} (hf : f ∈ A) (hg : g ∈ A) : ButFor A u (s.count f g) := ite (h.put hg 1) (h.put hf _)

end

end Sys2Proof.Machine
end

section
/-!
SUPPORT. Cue dispatch (R126, R136): the fields of a cue's CFG word, and what each action does.
-/
namespace Sys2Proof.Machine

theorem Fld.read_eq (f : Fld) (w : Word) : f.read w = w.toNat / 2 ^ f.lo % 2 ^ f.w := by
  rw [Fld.read, BitVec.extractLsb'_toNat, Nat.shiftRight_eq_div_pow]

/-! ## The first queued cue -/

/-- A block whose first queued cue is taken, with the rest of the queue. -/
def cueTaken (b : Bridge) (q : List CueHit) (s : State) : State := s.modAng b (fun a => { a with queue := q })

theorem exec_cueDispatch {s : State} (hruns : coreStopped s = false) (b : Bridge) :
    exec (.cueDispatch b) s = .next (cueDispatch b s) := clockedOut_of_running hruns _

theorem cueDispatch_of_queued {s : State} {b : Bridge} {h : CueHit} {q : List CueHit} (hq : s.ang[b.val].queue = h :: q) :
    cueDispatch b s = cueAction b h (cueTaken b q s) := by
  unfold cueDispatch
  rw [hq]
  rfl

theorem cueDispatch_of_empty {s : State} {b : Bridge} (hq : s.ang[b.val].queue = []) : cueDispatch b s = s := by
  unfold cueDispatch
  rw [hq]

@[simp] theorem cueTaken_queue (b : Bridge) (q : List CueHit) (s : State) : (cueTaken b q s).ang[b.val].queue = q := by
  rw [cueTaken, State.modAng_ang, upd_same]

/-! ## The actions by their code -/

section
variable {h : CueHit} (b : Bridge) (s : State)

theorem act_eq (h : CueHit) : (F.ANG_CUECFG_ACT 0 0).read h.cfg = h.cfg.toNat / 64 % 8 := Fld.read_eq _ _
theorem arg_eq (h : CueHit) : (F.ANG_CUECFG_ARG 0 0).read h.cfg = h.cfg.toNat / 65536 % 256 := Fld.read_eq _ _
theorem eng_eq (h : CueHit) : (F.ANG_CUECFG_ENG 0 0).read h.cfg = h.cfg.toNat / 8192 % 8 := Fld.read_eq _ _
theorem line_eq (h : CueHit) : (F.ANG_CUECFG_LINE 0 0).read h.cfg = h.cfg.toNat / 512 % 4 := Fld.read_eq _ _
theorem cmpop_eq (h : CueHit) : (F.ANG_CUECFG_CMPOP 0 0).read h.cfg = h.cfg.toNat / 2048 % 4 := Fld.read_eq _ _

theorem cueAction_window (hact : h.cfg.toNat / 64 % 8 = 0) :
    cueAction b h s = windowAction b ⟨h.cfg.toNat / 65536 % 4, Nat.mod_lt _ (by decide)⟩ s := by
  have harg : h.cfg.toNat / 65536 % 256 % 4 = h.cfg.toNat / 65536 % 4 := Nat.mod_mod_of_dvd _ (by decide)
  simp only [cueAction, act_eq, hact, arg_eq, harg]

theorem cueAction_sector (hact : h.cfg.toNat / 64 % 8 = 1) : cueAction b h s = sectorCue b h.dir s := by
  simp only [cueAction, act_eq, hact]

theorem cueAction_line (hact : h.cfg.toNat / 64 % 8 = 2) :
    cueAction b h s = lineAct b (h.cfg.toNat / 512 % 4) (h.cfg.toNat / 2048 % 4) s := by
  simp only [cueAction, act_eq, hact, line_eq, cmpop_eq]

theorem cueAction_trigger (hact : h.cfg.toNat / 64 % 8 = 3) : cueAction b h s = cueTrigger b h s := by
  simp only [cueAction, act_eq, hact]

theorem cueAction_table (hact : h.cfg.toNat / 64 % 8 = 4) :
    cueAction b h s = cueTrigger b h (s.put (F.ANG_TABOUT_TABOUT b) (s.get (F.ANG_TABLE_ENTRY b (h.angle / 4096)))) := by
  simp only [cueAction, act_eq, hact]

end

/-! ## Sector actions (R299) -/

theorem sectorCue_of_idle {s : State} {b : Bridge} {dir : Int}
    (h : mcMode s b ≠ modeSixstep ∨ (s.mc[b.val].returnReq = false ∧ dir = 0)) : sectorCue b dir s = s := by
  unfold sectorCue
  by_cases hm : mcMode s b = modeSixstep
  · obtain ⟨hret, hdir⟩ := h.resolve_left (not_not_intro hm)
    simp [hm, hret, hdir]
  · simp [hm]

theorem sectorCue_of_moving {s : State} {b : Bridge} {dir : Int} (hmode : mcMode s b = modeSixstep)
    (hret : s.mc[b.val].returnReq = false) (hslow : s.mc[b.val].slowSector = false) (hdir : dir ≠ 0) :
    sectorCue b dir s = (advanceSector b dir s).modMc b
      (fun m => { m with slowSector := decide (speedOf s b < s.get (F.MC_SSMIN_SSMIN b)) }) := by
  simp [sectorCue, hmode, hret, hslow, hdir]

/-- A commutation before the gate commands follow it. -/
def sectorMoved (b : Bridge) (dir : Int) (s : State) : State :=
  (s.put (F.MC_STAT_SECTOR b) (if 0 ≤ dir then (s.get (F.MC_STAT_SECTOR b) + 1) % 6 else (s.get (F.MC_STAT_SECTOR b) + 5) % 6)).modMc b
    (fun m => { m with commutTick := s.tick })

theorem advanceSector_eq (b : Bridge) (dir : Int) (s : State) : advanceSector b dir s = followGates b (sectorMoved b dir s) := rfl

theorem butFor_advanceSector (b : Bridge) (dir : Int) (s : State) :
    ButFor (gateFlds b) (sectorMoved b dir s) (advanceSector b dir s) := butFor_followGates (.refl _) b fun _ => id

theorem advanceSector_sector {dir : Int} (hdir : dir = 1 ∨ dir = -1) (b : Bridge) (s : State) :
    ((advanceSector b dir s).get (F.MC_STAT_SECTOR b) : Int) = (s.get (F.MC_STAT_SECTOR b) + dir) % 6 := by
  rw [(butFor_advanceSector b dir s).get _, sectorMoved, State.modMc_get, State.get_put_same _ _ _ (Nat.le_of_ble_eq_true rfl)]
  have hw : (F.MC_STAT_SECTOR b).w = 3 := rfl
  rw [hw]
  obtain rfl | rfl := hdir
  · rw [if_pos (by decide)]
    omega
  · rw [if_neg (by decide)]
    omega

theorem mcMode_advanceSector (b : Bridge) (dir : Int) (s : State) : mcMode (advanceSector b dir s) b = mcMode s b :=
  ((butFor_advanceSector b dir s).get (F.MC_STAT_MODE b)).trans (State.get_put_apart s _ _ _)

theorem advanceSector_ang (b : Bridge) (dir : Int) (s : State) : (advanceSector b dir s).ang = s.ang :=
  gateFree_ang.followGates b (sectorMoved b dir s)

theorem advanceSector_mem (b : Bridge) (dir : Int) (s : State) : (advanceSector b dir s).mem = s.mem :=
  gateFree_mem.followGates b (sectorMoved b dir s)

theorem advanceSector_commutTick (b : Bridge) (dir : Int) (s : State) : (advanceSector b dir s).mc[b.val].commutTick = s.tick := by
  rw [advanceSector_eq]
  refine ((gateFree_commutTick b).followGates b _).trans ?_
  rw [sectorMoved, State.modMc_mc, upd_same]

/-- A sector action that moves the sector leaves the mode, the angle blocks and memory. -/
theorem sectorCue_moves {s : State} {b : Bridge} {dir : Int} (hmode : mcMode s b = modeSixstep)
    (hret : s.mc[b.val].returnReq = false) (hslow : s.mc[b.val].slowSector = false) (hdir : dir = 1 ∨ dir = -1) :
    ((sectorCue b dir s).get (F.MC_STAT_SECTOR b) : Int) = (s.get (F.MC_STAT_SECTOR b) + dir) % 6 ∧
      (sectorCue b dir s).mc[b.val].commutTick = s.tick ∧ (sectorCue b dir s).ang = s.ang ∧
      mcMode (sectorCue b dir s) b = modeSixstep ∧ (sectorCue b dir s).mem = s.mem := by
  rw [sectorCue_of_moving hmode hret hslow (by omega)]
  rw [State.modMc_get, State.modMc_mc, upd_same, State.modMc_ang, mcMode, State.modMc_get, State.modMc_mem]
  exact ⟨advanceSector_sector hdir b s, advanceSector_commutTick b dir s, advanceSector_ang b dir s,
    (mcMode_advanceSector b dir s).trans hmode, advanceSector_mem b dir s⟩

/-! ## Triggers (R220, R221) -/

theorem triggerArrive_of_free {s : State} {e : Eng} {o : Originator} (htakes : engineTakes s e = true)
    (hfree : s.eng[e.val].pending.any (fun t => t.orig == o) = false) (ep : Byte) :
    triggerArrive e o ep s = s.modEng e (fun x => { x with pending := x.pending ++ [⟨o, ep, s.tick⟩] }) := by
  simp [triggerArrive, triggerDrops, htakes, hfree]

/-- A cue's trigger at an engine that takes it and has none of the cue's pending. -/
theorem cueTrigger_of_free {s : State} {b : Bridge} {h : CueHit} {e : Eng} (he : h.cfg.toNat / 8192 % 8 = e.val)
    (htakes : engineTakes s e = true) (hfree : s.eng[e.val].pending.any (fun t => t.orig == .cue b h.cue) = false) :
    cueTrigger b h s = s.modEng e (fun x => { x with
      pending := x.pending ++ [⟨.cue b h.cue, BitVec.ofNat 8 (h.cfg.toNat / 65536), s.tick⟩] }) := by
  have harg : BitVec.ofNat 8 (h.cfg.toNat / 65536 % 256) = BitVec.ofNat 8 (h.cfg.toNat / 65536) :=
    BitVec.eq_of_toNat_eq (by simp)
  have hdrops : triggerToDrops s e.val (.cue b h.cue) = false := by simp [triggerToDrops, triggerDrops, hfree]
  simp only [cueTrigger, eng_eq, he, arg_eq, hdrops, State.when, triggerTo, e.isLt, dif_pos, Bool.false_eq_true, if_false, harg]
  exact triggerArrive_of_free htakes hfree _

theorem engineTakes_put_tabout (s : State) (b : Bridge) (v : Nat) (e : Eng) :
    engineTakes (s.put (F.ANG_TABOUT_TABOUT b) v) e = engineTakes s e := by
  have hstate : (s.put (F.ANG_TABOUT_TABOUT b) v).get F.PWR_STAT_STATE = s.get F.PWR_STAT_STATE := State.get_put_apart _ _ _ _
  have hstood : (s.put (F.ANG_TABOUT_TABOUT b) v).on F.KEEP_STAT_STOOD = s.on F.KEEP_STAT_STOOD := State.on_put_apart _ _ _ _
  have hen : (s.put (F.ANG_TABOUT_TABOUT b) v).get F.HLE_CTRL_EN = s.get F.HLE_CTRL_EN := State.get_put_apart _ _ _ _
  have hfault : (s.put (F.ANG_TABOUT_TABOUT b) v).on (F.HLE_ENGSTAT_FAULT e) = s.on (F.HLE_ENGSTAT_FAULT e) :=
    State.on_put_apart _ _ _ _
  simp only [engineTakes, enginesHeld, coreStopped, State.bit, hstate, hstood, hen, hfault]
  rfl

/-- A cue of ACT 3 or 4 triggers its engine; ACT 3 changes no register, and ACT 4 latches the table's entry first (R126). -/
theorem cueAction_triggers {s : State} {b : Bridge} {h : CueHit} {e : Eng}
    (hact : h.cfg.toNat / 64 % 8 = 3 ∨ h.cfg.toNat / 64 % 8 = 4) (he : h.cfg.toNat / 8192 % 8 = e.val)
    (htakes : engineTakes s e = true) (hfree : s.eng[e.val].pending.any (fun t => t.orig == .cue b h.cue) = false) :
    (cueAction b h s).ang = s.ang ∧
      (cueAction b h s).eng[e.val].pending =
        s.eng[e.val].pending ++ [⟨.cue b h.cue, BitVec.ofNat 8 (h.cfg.toNat / 65536), s.tick⟩] ∧
      (h.cfg.toNat / 64 % 8 = 3 → (cueAction b h s).regs = s.regs) ∧
      (h.cfg.toNat / 64 % 8 = 4 → (cueAction b h s).get (F.ANG_TABOUT_TABOUT b) = s.get (F.ANG_TABLE_ENTRY b (h.angle / 4096))) ∧
      (cueAction b h s).mem = s.mem := by
  obtain hact | hact := hact
  · rw [cueAction_trigger b s hact, cueTrigger_of_free he htakes hfree]
    exact ⟨rfl, by rw [State.modEng_eng, upd_same], fun _ => rfl, fun h4 => by omega, rfl⟩
  · rw [cueAction_table b s hact, cueTrigger_of_free he ((engineTakes_put_tabout s b _ e).trans htakes) hfree]
    refine ⟨rfl, by rw [State.modEng_eng, upd_same]; rfl, fun h3 => by omega, fun _ => ?_, rfl⟩
    rw [State.modEng_get, State.get_put_same _ _ _ (Nat.le_of_ble_eq_true rfl)]
    exact Nat.mod_eq_of_lt (State.get_lt s (F.ANG_TABLE_ENTRY b (h.angle / 4096)))

end Sys2Proof.Machine

open Sys2Proof Sys2Proof.Machine in
/-- Settles O19: the first queued cue is taken and its action issued by its ACT code; a sector action and a trigger are followed through to what
they leave. -/
theorem cueActions : Obligations.CueActions := by
  refine ⟨?_, ?_, ?_, ?_, ?_, ?_, fun s hs b => clockedOut_of_stopped hs _, fun s b => exec_next_pending (.cueDispatch b) s⟩
  case refine_1 =>
    intro s b h q hruns hq hact
    rw [exec_cueDispatch hruns, cueDispatch_of_queued hq, cueAction_window b _ hact]
    rfl
  case refine_2 =>
    intro s b h q hruns hq hact hmode ⟨hret, hslow⟩ hdir
    obtain ⟨hsector, hcommut, hang, hmode', hmem⟩ := sectorCue_moves (s := cueTaken b q s) hmode hret hslow hdir
    refine ⟨_, ?_, hsector, hcommut, ?_, hmode', hmem⟩
    · rw [exec_cueDispatch hruns, cueDispatch_of_queued hq, cueAction_sector b _ hact]
    · rw [hang, cueTaken_queue]
  case refine_3 =>
    intro s b h q hruns hq hact hidle
    rw [exec_cueDispatch hruns, cueDispatch_of_queued hq, cueAction_sector b _ hact, sectorCue_of_idle (s := cueTaken b q s) hidle]
    rfl
  case refine_4 =>
    intro s b h q hruns hq hact
    rw [exec_cueDispatch hruns, cueDispatch_of_queued hq, cueAction_line b _ hact]
    rfl
  case refine_5 =>
    intro s b h q e hruns hq hact he htakes hfree
    obtain ⟨hang, hpending, hregs, htable, hmem⟩ := cueAction_triggers (s := cueTaken b q s) hact he htakes hfree
    refine ⟨_, ?_, ?_, hpending, hregs, htable, hmem⟩
    · rw [exec_cueDispatch hruns, cueDispatch_of_queued hq]
    · rw [hang, cueTaken_queue]
  case refine_6 =>
    intro s b hruns hq
    rw [exec_cueDispatch hruns, cueDispatch_of_empty hq]
end

section
/-!
SUPPORT. The inner tick of a bridge (R134, R247, R282, R371): the duty set it loads, and what the rest of it leaves alone.
-/
namespace Sys2Proof.Machine

/-! ## What comes after the load -/

/-- A part of the state that an inner tick reaches by its duty load at most. -/
structure TickFree {α : Type} (π : State → α) : Prop extends GateFree π where
  ang : ∀ s x, π { s with ang := x } = π s
  isnsB : ∀ s x, π { s with isnsB := x } = π s
  cont : ∀ s x, π { s with cont := x } = π s
  eng : ∀ s x, π { s with eng := x } = π s
  fresh : ∀ s x, π { s with fresh := x } = π s

theorem tickFree_mem : TickFree State.mem :=
  { gateFree_mem with
    ang := fun _ _ => rfl, isnsB := fun _ _ => rfl, cont := fun _ _ => rfl, eng := fun _ _ => rfl, fresh := fun _ _ => rfl }

theorem tickFree_loaded (b : Bridge) : TickFree (fun s => s.mc[b.val].loaded) :=
  { gateFree_loaded b with
    ang := fun _ _ => rfl, isnsB := fun _ _ => rfl, cont := fun _ _ => rfl, eng := fun _ _ => rfl, fresh := fun _ _ => rfl }

/-- The inner tick counted, before its trigger (R193, R247, R371). -/
def tickPresented (b : Bridge) (s : State) : State :=
  let s := s.modAng b (fun a => { a with inners := (s.tick :: a.inners).take 4 })
  let s := s.when (isnsEnabled s b) (fun s => s.modBridge b (fun x => { x with idle := x.idle + 1 }))
  presentDemand b (if b = mainBridge s then lateCheck s else s)

/-- The engines that ask for a bridge's inner tick triggered (R220). -/
def innerTriggers (b : Bridge) (s : State) : State :=
  if b = 0 then triggerAll F.HLE_ENGTRG0_INA_EN F.HLE_ENGTRG0_INA_EP (.inner b) s
  else triggerAll F.HLE_ENGTRG0_INB_EN F.HLE_ENGTRG0_INB_EP (.inner b) s

theorem innerTick_eq (b : Bridge) (s : State) :
    innerTick b s =
      innerTriggers b (tickPresented b ((followGates b (holdCheck b (dutyLoad b s))).inc (F.ANG_TICKS_INNER b))) := rfl

namespace TickFree
variable {α : Type} {π : State → α} (h : TickFree π)
include h

theorem triggerArrive (e : Eng) (o : Originator) (ep : Byte) (s : State) : π (triggerArrive e o ep s) = π s :=
  ite_keeps rfl (ite_keeps ((ite_keeps (h.put _ _ _) (h.put _ _ _)).trans (h.put s _ _)) (h.eng s _))

theorem triggerAll (en ep : Nat → Fld) (o : Originator) (s : State) : π (triggerAll en ep o s) = π s :=
  foldl_keeps (fun s e => ite_keeps (h.triggerArrive e o _ s) rfl) _ s

theorem lateCheck (s : State) : π (lateCheck s) = π s :=
  ite_keeps ((ite_keeps ((h.countBit _ _ _ _).trans (h.put _ _ _)) rfl).trans (h.cont s _)) rfl

theorem presentDemand (b : Bridge) (s : State) : π (presentDemand b s) = π s :=
  ite_keeps ((h.fresh _ _).trans ((h.cont _ _).trans (h.put s _ _))) rfl

theorem tickPresented (b : Bridge) (s : State) : π (tickPresented b s) = π s :=
  (h.presentDemand b _).trans <| (ite_keeps (h.lateCheck _) rfl).trans <|
    (ite_keeps (h.isnsB _ _) rfl).trans (h.ang s _)

theorem holdCheck (b : Bridge) (s : State) : π (holdCheck b s) = π s := ite_keeps (h.requestShort b _ s) rfl

theorem innerTick (b : Bridge) (s : State) : π (innerTick b s) = π (dutyLoad b s) := by
  rw [innerTick_eq]
  calc π _ = π (Machine.tickPresented b _) := ite_keeps (h.triggerAll _ _ _ _) (h.triggerAll _ _ _ _)
    _ = π (State.inc _ _) := h.tickPresented b _
    _ = π (Machine.followGates b _) := h.put _ _ _
    _ = π (Machine.holdCheck b _) := h.followGates b _
    _ = π (dutyLoad b s) := h.holdCheck b _

end TickFree

/-! ## The duty load (R282 to R285) -/

theorem State.modMc_congr {s : State} {b : Bridge} {f g : Mc → Mc} (h : f s.mc[b.val] = g s.mc[b.val]) : s.modMc b f = s.modMc b g := by
  unfold State.modMc Machine.upd
  rw [h]

/-- The MC block's part with its committed set loaded where no clamp runs. -/
def setTaken (b : Bridge) (s : State) (m : Mc) : Mc :=
  { m with
    loaded := ⟨clampDuty s b s.mc[b.val].committed.d1, clampDuty s b s.mc[b.val].committed.d2, clampDuty s b s.mc[b.val].committed.d3⟩
    ssLoaded := clampSixstep s b (dueSixstep s b), clamping := false }

/-- The gate commands of a loaded set, with the active short kept over a recapture released (R311). -/
def loadFollowed (b : Bridge) (t : State) : State :=
  followGates b (if mcMode t b = modeSixstep then t.modMc b (fun m => { m with asReq := false }) else t)

theorem dutyLoad_of_unclamped {s : State} {b : Bridge} (hclamp : s.mc[b.val].clampLeft = 0)
    (hcommit : s.mc[b.val].commitTick ≠ some s.tick) : dutyLoad b s = loadFollowed b (s.modMc b (setTaken b s)) := by
  have hdue : dueSet s b = s.mc[b.val].committed := if_neg hcommit
  unfold dutyLoad
  dsimp only
  rw [State.modMc_congr (g := setTaken b s) (by rw [if_neg (by omega), hdue]; rfl)]
  rfl

theorem dutyLoad_loaded {s : State} {b : Bridge} (hclamp : s.mc[b.val].clampLeft = 0)
    (hcommit : s.mc[b.val].commitTick ≠ some s.tick) :
    (dutyLoad b s).mc[b.val].loaded = ⟨clampDuty s b s.mc[b.val].committed.d1, clampDuty s b s.mc[b.val].committed.d2,
      clampDuty s b s.mc[b.val].committed.d3⟩ := by
  have hfree := gateFree_loaded b
  rw [dutyLoad_of_unclamped hclamp hcommit]
  calc (loadFollowed b (s.modMc b (setTaken b s))).mc[b.val].loaded
      = (s.modMc b (setTaken b s)).mc[b.val].loaded :=
        (hfree.followGates b _).trans (ite_keeps (π := fun s => s.mc[b.val].loaded) (hfree.modMc _ b fun _ => ⟨rfl, rfl⟩) rfl)
    _ = _ := by rw [State.modMc_mc, upd_same]; rfl

theorem dutyLoad_mem (b : Bridge) (s : State) : (dutyLoad b s).mem = s.mem :=
  (gateFree_mem.followGates b _).trans (ite_keeps rfl rfl)

theorem butFor_dutyLoad (b : Bridge) (s : State) : ButFor (gateFlds b) s (dutyLoad b s) := by
  unfold dutyLoad
  exact butFor_followGates (ButFor.ite (((ButFor.refl s).modMc b _).modMc b _) ((ButFor.refl s).modMc b _)) b fun _ => id

/-! ## The count of inner ticks -/

/-- What the rest of an inner tick changes once it has been counted: the late flag and its count (R247), the demand shown (R371), and the
triggers dropped (R221). -/
def presentedFlds : List Fld :=
  [F.CONT_STAT_LATE, F.CONT_CNT_LATECNT, F.CONT_CNT_OVF, F.CONT_LDEM_LDEM] ++
    (List.finRange 7).flatMap (fun e : Eng => [F.HLE_ENGSTAT_DROP e, F.HLE_ENGCNT_DROPCNT e, F.HLE_ENGCNT_DROPOVF e])

theorem dropFlds_mem_presentedFlds :
    ∀ e : Eng, F.HLE_ENGSTAT_DROP e ∈ presentedFlds ∧ F.HLE_ENGCNT_DROPCNT e ∈ presentedFlds ∧ F.HLE_ENGCNT_DROPOVF e ∈ presentedFlds := by
  decide

section
variable {u s : State} (h : ButFor presentedFlds u s)
include h

theorem butFor_triggerArrive (e : Eng) (o : Originator) (ep : Byte) : ButFor presentedFlds u (triggerArrive e o ep s) :=
  have ⟨hdrop, hcnt, hovf⟩ := dropFlds_mem_presentedFlds e
  ButFor.ite h (ButFor.ite ((h.put hdrop 1).count hcnt hovf) (h.modEng e _))

theorem butFor_triggerAll (en ep : Nat → Fld) (o : Originator) : ButFor presentedFlds u (triggerAll en ep o s) :=
  ButFor.foldl (fun _ e hs => ButFor.ite (butFor_triggerArrive hs e o _) hs) _ h

theorem butFor_lateCheck : ButFor presentedFlds u (lateCheck s) :=
  ButFor.ite (ButFor.ite (((h.modCont _).put (by decide) 1).countBit (by decide) (by decide) 2) (h.modCont _)) h

theorem butFor_presentDemand (b : Bridge) : ButFor presentedFlds u (presentDemand b s) :=
  ButFor.ite (((h.put (by decide) _).modCont _).drew) h

end

theorem butFor_tickPresented (b : Bridge) (s : State) : ButFor presentedFlds s (tickPresented b s) := by
  have hcounted := (ButFor.refl (A := presentedFlds) s).modAng b fun a => { a with inners := (s.tick :: a.inners).take 4 }
  refine butFor_presentDemand (ButFor.ite (butFor_lateCheck ?_) ?_) b
  all_goals exact ButFor.ite (hcounted.modBridge b _) hcounted

theorem butFor_innerTriggers {u s : State} (h : ButFor presentedFlds u s) (b : Bridge) : ButFor presentedFlds u (innerTriggers b s) :=
  ButFor.ite (butFor_triggerAll h _ _ _) (butFor_triggerAll h _ _ _)

theorem innerTick_counts (b : Bridge) (s : State) :
    (innerTick b s).get (F.ANG_TICKS_INNER b) = (s.get (F.ANG_TICKS_INNER b) + 1) % 65536 := by
  have hbefore : ButFor (gateFlds b) s (followGates b (holdCheck b (dutyLoad b s))) :=
    have hload := butFor_dutyLoad b s
    butFor_followGates (ButFor.ite (butFor_requestShort hload b (fun _ => id) _) hload) b fun _ => id
  rw [innerTick_eq, (butFor_innerTriggers (butFor_tickPresented b _) b).get _, State.inc_eq, State.get_put_same _ _ _ (Nat.le_of_ble_eq_true rfl), hbefore.get _]
  rfl

/-! ## Valleys and peaks (R128, R134, R382) -/

/-- A new period of the reference carrier. -/
def valleyBegun (b : Bridge) (s : State) : State :=
  s.modAng b (fun a => { a with ref := ⟨0, s.get (F.ANG_PER_ASYNC_PER b), 0, false⟩, valleyTick := s.tick })

@[simp] theorem valleyBegun_own (b : Bridge) (s : State) : (valleyBegun b s).ang[b.val].own = s.ang[b.val].own := by
  rw [valleyBegun, State.modAng_ang, upd_same]

theorem syncTest_of_async {s : State} {b : Bridge} (h : s.get (F.ANG_CTRL_MODE_REQ b) ≠ 1) : syncTest b s = s := by
  simp [syncTest, h]

/-- With no slate error and no rate trim a follower corrects nothing. -/
theorem slateCorrect_of_aligned {s : State} (h : ∀ e : Port, s.ebp[e.val].err = none ∧ s.getS (F.EBP_SLATE_TRIM e) = 0) (b : Bridge) :
    slateCorrect b s = s := by
  have htake : ∀ e : Port, slateTake b e s = s := fun e => by
    unfold slateTake
    rw [(h e).1]
  obtain ⟨herr, htrim⟩ := h (slatePort s)
  simp [slateCorrect, htake, herr, htrim]

/-- The new period with the slate's correction where the bridge times the outer loop (R382). -/
def valleyCorrected (b : Bridge) (s : State) : State :=
  if b = mainBridge s then (slateCorrect b (valleyBegun b s)).modCont (fun c => { c with xrefHere := false }) else valleyBegun b s

theorem valleyCorrected_of_aligned {s : State} {b : Bridge} (hmain : b = mainBridge s)
    (hports : ∀ e : Port, s.ebp[e.val].err = none ∧ s.getS (F.EBP_SLATE_TRIM e) = 0) :
    valleyCorrected b s = (valleyBegun b s).modCont (fun c => { c with xrefHere := false }) := by
  rw [valleyCorrected, if_pos hmain, slateCorrect_of_aligned (s := valleyBegun b s) hports]

/-- A reference valley of a carrier that is the PWM carrier and stays so (R129, R134). -/
theorem refValley_of_async {s : State} {b : Bridge} (hown : s.ang[b.val].own = false)
    (hown' : (valleyCorrected b s).ang[b.val].own = false) (hasync : (valleyCorrected b s).get (F.ANG_CTRL_MODE_REQ b) ≠ 1) :
    refValley b s = carrierCues b (-1) 0 (refInnerTick b true (innerTick b (valleyCorrected b s))) := by
  have hinner : (if (valleyCorrected b s).ang[b.val].own = true then valleyCorrected b s
      else innerTick b (syncTest b (valleyCorrected b s))) = innerTick b (valleyCorrected b s) := by
    rw [hown', if_neg Bool.false_ne_true, syncTest_of_async hasync]
  rw [← hinner]
  exact if_neg (by rw [hown]; exact Bool.false_ne_true)

theorem carrierPeak_of_async {s : State} {b : Bridge} (hown : s.ang[b.val].own = false) :
    carrierPeak b true s = if s.on (F.ANG_CTRL_INNER_X b) then refInnerTick b false (innerTick b s) else s := by
  simp [carrierPeak, hown]

section
variable {s : State} {b : Bridge} (hruns : coreStopped s = false)
include hruns

theorem exec_carrierValley (hen : s.on (F.ANG_CTRL_EN b) = true) : exec (.carrierValley b true) s = .next (refValley b s) :=
  (clockedOut_of_running hruns _).trans (congrArg _ (if_pos hen))

theorem exec_carrierPeak (hen : s.on (F.ANG_CTRL_EN b) = true) : exec (.carrierPeak b true) s = .next (carrierPeak b true s) :=
  (clockedOut_of_running hruns _).trans (congrArg _ (if_pos hen))

theorem exec_carrierValley_of_disabled (hen : s.on (F.ANG_CTRL_EN b) = false) (r : Bool) : exec (.carrierValley b r) s = .next s :=
  (clockedOut_of_running hruns _).trans (congrArg _ (if_neg (by simp [hen])))

theorem exec_carrierPeak_of_disabled (hen : s.on (F.ANG_CTRL_EN b) = false) (r : Bool) : exec (.carrierPeak b r) s = .next s :=
  (clockedOut_of_running hruns _).trans (congrArg _ (if_neg (by simp [hen])))

end

end Sys2Proof.Machine

open Sys2Proof Sys2Proof.Machine in
/-- Settles O20: in asynchronous mode a reference valley and a peak are the inner tick and the reference inner tick; an inner tick changes the duty
set in force by its load alone, and its count once. -/
theorem carrierValleysAndPeaks : Obligations.CarrierValleysAndPeaks := by
  refine ⟨?_, ?_, ?_, ?_, ?_, ?_⟩
  case refine_1 =>
    intro s b hruns hen hown hmain hasync
    have hbegun : valleyCorrected b s = valleyBegun b s := if_neg hmain
    rw [exec_carrierValley hruns hen, refValley_of_async hown (by rw [hbegun, valleyBegun_own, hown]) (by rw [hbegun]; exact hasync), hbegun]
    rfl
  case refine_2 =>
    intro s b hruns hen hown hmain hasync hports
    have hbegun := valleyCorrected_of_aligned hmain hports
    rw [exec_carrierValley hruns hen, refValley_of_async hown (by rw [hbegun, State.modCont_ang, valleyBegun_own, hown])
      (by rw [hbegun]; exact hasync), hbegun]
    rfl
  case refine_3 =>
    intro s b hruns hen hown
    rw [exec_carrierPeak hruns hen, carrierPeak_of_async hown]
  case refine_4 =>
    intro s b ⟨hclamp, hcommit⟩
    exact ⟨innerTick_counts b s, ((tickFree_loaded b).innerTick b s).trans (dutyLoad_loaded hclamp hcommit),
      (tickFree_mem.innerTick b s).trans (dutyLoad_mem b s)⟩
  case refine_5 =>
    exact fun s b r hruns hen => ⟨exec_carrierValley_of_disabled hruns hen r, exec_carrierPeak_of_disabled hruns hen r⟩
  case refine_6 =>
    exact fun s hs => ⟨fun b r => clockedOut_of_stopped hs _, fun b r => clockedOut_of_stopped hs _⟩
end

section
/-!
SUPPORT. Writes of ANGx_CTRL (R114, R115, R128): the register stored, the source taken, the restart of the block.
-/
namespace Sys2Proof.Machine

/-! ## What a write stores beside the register's own actions -/

theorem regWriteWith_of_accepted {a : Nat} {v : Word} {s : State} (h : accepted a v s = true) (act : State → State) :
    regWriteWith a v act s = act (written a v s) := by
  unfold accepted at h
  unfold regWriteWith written
  cases hs : regStore a v s with
  | none => simp [hs] at h
  | some t => rfl

/-- A write stores in registers alone. -/
theorem written_eq (a : Nat) (v : Word) (s : State) : ∃ r, written a v s = { s with regs := r } := by
  have hflag : ∀ u : State, ∃ r, accErr a u = { u with regs := r } := fun u => by
    unfold accErr
    split
    · exact ⟨_, rfl⟩
    · exact ⟨u.regs, rfl⟩
  unfold written regStore
  dsimp only
  split_ifs
  · exact ⟨s.regs, rfl⟩
  · exact ⟨s.regs, rfl⟩
  · exact hflag (s.wr a (merged s a v))
  · exact ⟨_, rfl⟩

theorem written_ang (a : Nat) (v : Word) (s : State) : (written a v s).ang = s.ang := by
  obtain ⟨r, hr⟩ := written_eq a v s
  rw [hr]

theorem written_mem (a : Nat) (v : Word) (s : State) : (written a v s).mem = s.mem := by
  obtain ⟨r, hr⟩ := written_eq a v s
  rw [hr]

theorem written_tick (a : Nat) (v : Word) (s : State) : (written a v s).tick = s.tick := by
  obtain ⟨r, hr⟩ := written_eq a v s
  rw [hr]

/-- A field of another register than the one written and apart from the block's access-error flag. -/
theorem written_get_other {a : Nat} {v : Word} {s : State} (h : accepted a v s = true) {g : Fld} (hg : g.lo + g.w ≤ 32)
    (ha : g.addr ≠ a) (hflag : ∀ f, accErrFld a = some f → f.disj g = true) : (written a v s).get g = s.get g := by
  have hstored : (s.wr a (merged s a v)).get g = s.get g := congrArg g.read (State.rd_wr_other s _ ha)
  rw [written_of_accepted h]
  split
  · unfold accErr
    split
    · next f hf => exact (State.get_put_disj _ f g 1 hg (hflag f hf)).trans hstored
    · exact hstored
  · exact hstored

/-- A field that is stored, or kept, and that a write gives the value it has is as before. -/
theorem fieldAfter_of_same {s : State} {a : Nat} {old new : Word} {r : Row} (hacc : r.acc = .rw ∨ r.acc = .ro)
    (h : r.of new = r.of old) : fieldAfter s a old new r = r.of old := by
  obtain hacc | hacc := hacc <;> simp [fieldAfter, fieldFate, hacc, h]

/-! ## ANGx_CTRL -/

theorem accErrFld_angCtrl (b : Bridge) : accErrFld (angCtrlAddr b) = some (F.ANG_STAT_ACCERR b) := by
  revert b
  decide

/-- A field outside ANGx_CTRL, apart from ACCERR, through a write of ANGx_CTRL. -/
theorem written_ctrl_get {b : Bridge} {v : Word} {s : State} (h : accepted (angCtrlAddr b) v s = true) (g : Fld)
    (hg : g.lo + g.w ≤ 32 := by clear * -; decide +revert) (ha : g.addr ≠ angCtrlAddr b := by clear * -; decide +revert)
    (hd : (F.ANG_STAT_ACCERR b).disj g = true := by clear * -; decide +revert) : (written (angCtrlAddr b) v s).get g = s.get g :=
  written_get_other h hg ha fun f hf => by
    rw [accErrFld_angCtrl] at hf
    exact Option.some.inj hf ▸ hd

/-- The row of FOLLOW in ANGB_CTRL. -/
def followRow : Row := ⟨0, 1, 0, 5, 1, .rw, 0, 0, 1, false⟩

/-- A write of ANGx_CTRL that carries FOLLOW as it stands leaves it (R116). -/
theorem follows_written {b : Bridge} {v : Word} {s : State} (h : accepted (angCtrlAddr b) v s = true)
    (hv : (F.ANG_CTRL_FOLLOW b).read v = (F.ANG_CTRL_FOLLOW b).read (s.rd (angCtrlAddr b))) :
    follows (written (angCtrlAddr b) v s) b = follows s b := by
  match b with
  | 0 => rfl
  | 1 =>
    have hmem : followRow ∈ rowsAt 0x40005000 := by decide +kernel
    have hdisj : ∀ q ∈ rowsAt 0x40005000, q ≠ followRow → q.lo + q.w ≤ followRow.lo ∨ followRow.lo + followRow.w ≤ q.lo := by
      decide +kernel
    have hafter : followRow.of (merged s 0x40005000 v) = followRow.of (s.rd 0x40005000) :=
      (of_merged hmem (by decide) hdisj).trans (fieldAfter_of_same (.inl rfl) hv)
    have hrd : (written (angCtrlAddr 1) v s).rd (angCtrlAddr 1) = merged s (angCtrlAddr 1) v :=
      written_rd h fun f hf => by
        rw [accErrFld_angCtrl] at hf
        exact Option.some.inj hf ▸ by decide
    have hget : (written (angCtrlAddr 1) v s).get (F.ANG_CTRL_FOLLOW 1) = s.get (F.ANG_CTRL_FOLLOW 1) := by
      unfold State.get
      exact (congrArg (F.ANG_CTRL_FOLLOW 1).read hrd).trans hafter
    simp only [follows, State.on, hget]

theorem follows_of_butFor {A : List Fld} {s t : State} (h : ButFor A s t) (b : Bridge)
    (hA : ∀ f ∈ A, f.disj (F.ANG_CTRL_FOLLOW 1) = true := by clear * -; decide +revert) : follows t b = follows s b :=
  congrArg (b == 1 && ·) (h.on _ (by decide) hA)

/-- What follows a write of ANGx_CTRL, from the state `s` before it and the state `t` that it stored. -/
def ctrlActed (b : Bridge) (s t : State) : State :=
  let u := if t.get (F.ANG_CTRL_SRC b) = s.get (F.ANG_CTRL_SRC b) then t else setSource b (t.get (F.ANG_CTRL_SRC b)) t
  let u := if follows s b && !follows u b && u.get (F.ANG_CTRL_SRC b) == 0 then setStill b u else u
  let u := if u.get (F.ANG_CTRL_SRC b) = s.get (F.ANG_CTRL_SRC b) then u else judgeSet u
  if !s.on (F.ANG_CTRL_EN b) && u.on (F.ANG_CTRL_EN b) then angEnable b u else followGates b u

theorem angCtrlWrite_of_accepted {b : Bridge} {v : Word} {s : State} (h : accepted (angCtrlAddr b) v s = true) :
    angCtrlWrite b v s = ctrlActed b s (written (angCtrlAddr b) v s) := regWriteWith_of_accepted h _

/-! ## Standstill set (R117, R119) -/

/-- What standstill changes: STILL and RATE, and the MC block's mode where it leaves BRAKE0. -/
def stillFlds (b : Bridge) : List Fld := [F.ANG_STAT_STILL b, F.ANG_RATE_RATE b] ++ outFlds b

/-- STILL and RATE set before MC judges the speed. -/
def stillSet (b : Bridge) (s : State) : State :=
  ((s.put (F.ANG_STAT_STILL b) 1).put (F.ANG_RATE_RATE b) 0).modAng b (fun a => { a with slow := 0 })

theorem setStill_eq (b : Bridge) (s : State) : setStill b s = brakeEnd b (stillSet b s) := rfl

theorem butFor_brakeEnd {A : List Fld} {u s : State} (h : ButFor A u s) (b : Bridge) (hA : ∀ f ∈ outFlds b, f ∈ A) :
    ButFor A u (brakeEnd b s) :=
  ButFor.ite (butFor_followGates (butFor_setMode h b hA _) b (gateFlds_of_outFlds hA)) h

theorem butFor_setStill (b : Bridge) (s : State) : ButFor (stillFlds b) s (setStill b s) :=
  butFor_brakeEnd ((((ButFor.refl s).put (by simp [stillFlds]) 1).put (by simp [stillFlds]) 0).modAng b _) b
    fun f hf => by simp [stillFlds, hf]

theorem setStill_still (b : Bridge) (s : State) : (setStill b s).on (F.ANG_STAT_STILL b) = true := by
  have hbrake : ButFor (outFlds b) (stillSet b s) (setStill b s) := butFor_brakeEnd (.refl _) b fun _ => id
  rw [hbrake.on _, stillSet, State.modAng_on, State.on_put_apart _ (F.ANG_RATE_RATE b) (F.ANG_STAT_STILL b),
    State.on_put_same _ _ _ (Nat.le_of_ble_eq_true rfl)]
  rfl

theorem setStill_rate (b : Bridge) (s : State) : (setStill b s).get (F.ANG_RATE_RATE b) = 0 := by
  have hbrake : ButFor (outFlds b) (stillSet b s) (setStill b s) := butFor_brakeEnd (.refl _) b fun _ => id
  rw [hbrake.get _, stillSet, State.modAng_get, State.get_put_same _ _ _ (Nat.le_of_ble_eq_true rfl)]
  rfl

theorem setStill_ang (b : Bridge) (s : State) : (setStill b s).ang[b.val] = { s.ang[b.val] with slow := 0 } := by
  have hang : (setStill b s).ang = upd s.ang b (fun a => { a with slow := 0 }) := gateFree_ang.brakeEnd b (stillSet b s)
  rw [hang, upd_same]

theorem setStill_mem (b : Bridge) (s : State) : (setStill b s).mem = s.mem := gateFree_mem.brakeEnd b (stillSet b s)

/-! ## The source taken (R114, R115) -/

/-- SRC stored and the sample not yet taken dropped. -/
def sourceStored (b : Bridge) (src : Nat) (s : State) : State :=
  (s.put (F.ANG_CTRL_SRC b) src).modAng b (fun a => { a with deliv := none })

theorem setSource_eq (b : Bridge) (src : Nat) (s : State) :
    setSource b src s = if src = 0 ∧ follows (sourceStored b src s) b = false then setStill b (sourceStored b src s)
      else sourceStored b src s := rfl

theorem butFor_sourceStored (b : Bridge) (src : Nat) (s : State) : ButFor [F.ANG_CTRL_SRC b] s (sourceStored b src s) :=
  ((ButFor.refl s).put (by simp) src).modAng b _

theorem follows_sourceStored (b : Bridge) (src : Nat) (s : State) : follows (sourceStored b src s) b = follows s b :=
  follows_of_butFor (butFor_sourceStored b src s) b

theorem setSource_of_none {s : State} {b : Bridge} (hf : follows s b = false) :
    setSource b 0 s = setStill b (sourceStored b 0 s) := by
  rw [setSource_eq, if_pos ⟨rfl, (follows_sourceStored b 0 s).trans hf⟩]

theorem setSource_of_some {b : Bridge} {src : Nat} (h : src ≠ 0) (s : State) : setSource b src s = sourceStored b src s := by
  rw [setSource_eq, if_neg fun hc => h hc.1]

theorem butFor_setSource (b : Bridge) (src : Nat) (s : State) :
    ButFor (stillFlds b) (sourceStored b src s) (setSource b src s) := by
  rw [setSource_eq]
  exact ButFor.ite (butFor_setStill b _) (.refl _)

theorem setSource_src (b : Bridge) {src : Nat} (hsrc : src < 16) (s : State) :
    (setSource b src s).get (F.ANG_CTRL_SRC b) = src := by
  rw [(butFor_setSource b src s).get _, sourceStored, State.modAng_get, State.get_put_same _ _ _ (Nat.le_of_ble_eq_true rfl)]
  exact Nat.mod_eq_of_lt hsrc

theorem sourceStored_ang (b : Bridge) (src : Nat) (s : State) :
    (sourceStored b src s).ang[b.val] = { s.ang[b.val] with deliv := none } := by
  rw [sourceStored, State.modAng_ang, upd_same]
  rfl

theorem setSource_ang (b : Bridge) (src : Nat) (s : State) :
    (setSource b src s).ang[b.val].deliv = none ∧ (setSource b src s).ang[b.val].angle = s.ang[b.val].angle := by
  rw [setSource_eq]
  split
  · rw [setStill_ang, sourceStored_ang]
    exact ⟨rfl, rfl⟩
  · rw [sourceStored_ang]
    exact ⟨rfl, rfl⟩

theorem setSource_mem (b : Bridge) (src : Nat) (s : State) : (setSource b src s).mem = s.mem := by
  rw [setSource_eq]
  exact ite_keeps (setStill_mem b _) rfl

/-! ## A write that changes SRC, and one that sets EN -/

/-- What the set's state and the gate commands change once a source is taken. -/
def judgedFlds (b : Bridge) : List Fld := F.CONT_STAT_SETSTATE :: gateFlds b

/-- The source taken, the set judged (R53) and the gate commands following. -/
def sourceTaken (b : Bridge) (t : State) : State := followGates b (judgeSet (setSource b (t.get (F.ANG_CTRL_SRC b)) t))

theorem butFor_sourceTaken (b : Bridge) (t : State) :
    ButFor (judgedFlds b) (setSource b (t.get (F.ANG_CTRL_SRC b)) t) (sourceTaken b t) :=
  butFor_followGates (ButFor.ite ((ButFor.refl _).putB (by simp [judgedFlds]) _) (.refl _)) b fun f hf => by simp [judgedFlds, hf]

theorem ctrlActed_of_new_source {b : Bridge} {s t : State} (hsrc : t.get (F.ANG_CTRL_SRC b) ≠ s.get (F.ANG_CTRL_SRC b))
    (hen : t.on (F.ANG_CTRL_EN b) = s.on (F.ANG_CTRL_EN b)) (hf : follows t b = follows s b) :
    ctrlActed b s t = sourceTaken b t := by
  have hset := butFor_setSource b (t.get (F.ANG_CTRL_SRC b)) t
  have hstored := butFor_sourceStored b (t.get (F.ANG_CTRL_SRC b)) t
  have hfollow : follows (setSource b (t.get (F.ANG_CTRL_SRC b)) t) b = follows s b :=
    (follows_of_butFor hset b).trans ((follows_sourceStored b _ t).trans hf)
  have hnew : (setSource b (t.get (F.ANG_CTRL_SRC b)) t).get (F.ANG_CTRL_SRC b) ≠ s.get (F.ANG_CTRL_SRC b) := by
    rw [setSource_src b (State.get_lt t (F.ANG_CTRL_SRC b))]
    exact hsrc
  have hjudged : ButFor [F.CONT_STAT_SETSTATE] (setSource b (t.get (F.ANG_CTRL_SRC b)) t) (judgeSet (setSource b (t.get (F.ANG_CTRL_SRC b)) t)) :=
    ButFor.ite ((ButFor.refl _).putB (by simp) _) (.refl _)
  have hen' : (judgeSet (setSource b (t.get (F.ANG_CTRL_SRC b)) t)).on (F.ANG_CTRL_EN b) = s.on (F.ANG_CTRL_EN b) :=
    (hjudged.on _).trans ((hset.on _).trans ((hstored.on _).trans hen))
  unfold ctrlActed sourceTaken
  simp only [if_neg hsrc, hfollow, Bool.and_not_self, Bool.false_and, Bool.false_eq_true, if_false, if_neg hnew, hen', Bool.not_and_self]

theorem sourceTaken_src (b : Bridge) (t : State) : (sourceTaken b t).get (F.ANG_CTRL_SRC b) = t.get (F.ANG_CTRL_SRC b) :=
  ((butFor_sourceTaken b t).get _).trans (setSource_src b (State.get_lt t (F.ANG_CTRL_SRC b)) t)

theorem sourceTaken_ang (b : Bridge) (t : State) : (sourceTaken b t).ang = (setSource b (t.get (F.ANG_CTRL_SRC b)) t).ang :=
  (gateFree_ang.followGates b _).trans (gateFree_ang.judgeSet _)

theorem sourceTaken_mem (b : Bridge) (t : State) : (sourceTaken b t).mem = t.mem :=
  (gateFree_mem.followGates b _).trans ((gateFree_mem.judgeSet _).trans (setSource_mem b _ t))

/-- No source: standstill (R114). -/
theorem sourceTaken_of_none {b : Bridge} {t : State} (hsrc : t.get (F.ANG_CTRL_SRC b) = 0) (hf : follows t b = false) :
    (sourceTaken b t).on (F.ANG_STAT_STILL b) = true ∧ (sourceTaken b t).get (F.ANG_RATE_RATE b) = 0 := by
  have h := butFor_sourceTaken b t
  rw [h.on _, h.get _, hsrc, setSource_of_none hf]
  exact ⟨setStill_still b _, setStill_rate b _⟩

/-- Another source leaves the speed and standstill as they are (R115). -/
theorem sourceTaken_of_some {b : Bridge} {t : State} (hsrc : t.get (F.ANG_CTRL_SRC b) ≠ 0) :
    (sourceTaken b t).on (F.ANG_STAT_STILL b) = t.on (F.ANG_STAT_STILL b) ∧
      (sourceTaken b t).get (F.ANG_RATE_RATE b) = t.get (F.ANG_RATE_RATE b) := by
  have h := butFor_sourceTaken b t
  have hstored := butFor_sourceStored b (t.get (F.ANG_CTRL_SRC b)) t
  rw [h.on _, h.get _, setSource_of_some hsrc]
  exact ⟨hstored.on _, hstored.get _⟩

/-- EN written 1 (R128, R135), before the gate commands follow. -/
def blockRestarted (b : Bridge) (s : State) : State :=
  ((((s.put (F.ANG_CTRL_EN b) 1).put (F.ANG_STAT_SYNC b) 0).put (F.ANG_TICKS_INNER b) 0).put (F.ANG_TICKS_OUTER b) 0).modAng b
    (fun a => { a with
      ref := ⟨s.get (F.ANG_PER_ASYNC_PER b), s.get (F.ANG_PER_ASYNC_PER b), 0, false⟩, own := false, due := false, refCount := 65535,
      trimRem := 0, inners := [], outers := [] })

theorem angEnable_eq (b : Bridge) (s : State) : angEnable b s = followGates b (blockRestarted b s) := rfl

theorem ctrlActed_of_enabled {b : Bridge} {s t : State} (hsrc : t.get (F.ANG_CTRL_SRC b) = s.get (F.ANG_CTRL_SRC b))
    (hoff : s.on (F.ANG_CTRL_EN b) = false) (hen : t.on (F.ANG_CTRL_EN b) = true) (hf : follows t b = follows s b) :
    ctrlActed b s t = angEnable b t := by
  unfold ctrlActed
  simp only [hsrc, if_true, hf, Bool.and_not_self, Bool.false_and, Bool.false_eq_true, if_false, hoff, hen, Bool.not_false, Bool.and_self]

theorem angEnable_regs (b : Bridge) (s : State) :
    (angEnable b s).on (F.ANG_CTRL_EN b) = true ∧ (angEnable b s).get (F.ANG_TICKS_INNER b) = 0 ∧
      (angEnable b s).get (F.ANG_TICKS_OUTER b) = 0 ∧ (angEnable b s).on (F.ANG_STAT_SYNC b) = false := by
  have h : ButFor (gateFlds b) (blockRestarted b s) (angEnable b s) := butFor_followGates (.refl _) b fun _ => id
  have houter := State.get_put_apart (((s.put (F.ANG_CTRL_EN b) 1).put (F.ANG_STAT_SYNC b) 0).put (F.ANG_TICKS_INNER b) 0)
    (F.ANG_TICKS_OUTER b) (F.ANG_TICKS_INNER b) 0
  have hticks : ButFor [F.ANG_TICKS_INNER b, F.ANG_TICKS_OUTER b] ((s.put (F.ANG_CTRL_EN b) 1).put (F.ANG_STAT_SYNC b) 0)
      (blockRestarted b s) := (((ButFor.refl _).put (by simp) 0).put (by simp) 0).modAng b _
  rw [h.on _, h.get _, h.get (F.ANG_TICKS_OUTER b), h.on (F.ANG_STAT_SYNC b), hticks.on (F.ANG_CTRL_EN b),
    hticks.on (F.ANG_STAT_SYNC b), State.on_put_apart _ (F.ANG_STAT_SYNC b) (F.ANG_CTRL_EN b),
    State.on_put_same _ _ _ (Nat.le_of_ble_eq_true rfl), State.on_put_same _ _ _ (Nat.le_of_ble_eq_true rfl), blockRestarted,
    State.modAng_get, State.modAng_get, houter, State.get_put_same _ _ _ (Nat.le_of_ble_eq_true rfl),
    State.get_put_same _ _ _ (Nat.le_of_ble_eq_true rfl)]
  exact ⟨rfl, rfl, rfl, rfl⟩

theorem angEnable_ang (b : Bridge) (s : State) :
    (angEnable b s).ang[b.val].own = false ∧ (angEnable b s).ang[b.val].refCount = 65535 ∧
      (angEnable b s).ang[b.val].ref.step = (angEnable b s).ang[b.val].ref.per ∧
      (angEnable b s).ang[b.val].queue = s.ang[b.val].queue := by
  have hang : (angEnable b s).ang = (blockRestarted b s).ang := gateFree_ang.followGates b (blockRestarted b s)
  rw [hang, blockRestarted, State.modAng_ang, upd_same]
  exact ⟨rfl, rfl, rfl, rfl⟩

theorem angEnable_mem (b : Bridge) (s : State) : (angEnable b s).mem = s.mem := gateFree_mem.followGates b (blockRestarted b s)

/-! ## ANG_SRC_WRITE and ANG_ENABLE -/

/-- A word that differs from the register in another field carries FOLLOW as it stands. -/
theorem follow_read_write (b : Bridge) (f : Fld) (hf : f.lo + f.w ≤ 5) (w : Word) (v : Nat) :
    (F.ANG_CTRL_FOLLOW b).read (f.write w v) = (F.ANG_CTRL_FOLLOW b).read w :=
  Fld.read_write_disj f (F.ANG_CTRL_FOLLOW b) (Nat.le_of_ble_eq_true rfl) (.inl hf) w v

theorem angSrcWrite_next {s : State} {b : Bridge} {src : BitVec 4} {v : Word} {w : State} (hruns : coreStopped s = false)
    (hv : v = (F.ANG_CTRL_SRC b).write (s.rd (angCtrlAddr b)) src.toNat) (hw : w = written (angCtrlAddr b) v s)
    (hacc : accepted (angCtrlAddr b) v s = true) (hsrc : w.get (F.ANG_CTRL_SRC b) ≠ s.get (F.ANG_CTRL_SRC b))
    (hen : w.on (F.ANG_CTRL_EN b) = s.on (F.ANG_CTRL_EN b)) :
    ∃ t, exec (.angSrcWrite b src) s = .next t ∧ t.get (F.ANG_CTRL_SRC b) = w.get (F.ANG_CTRL_SRC b) ∧ t.ang[b.val].deliv = none ∧
      t.ang[b.val].angle = s.ang[b.val].angle ∧ t.mem = s.mem ∧
      (w.get (F.ANG_CTRL_SRC b) = 0 → follows s b = false → t.on (F.ANG_STAT_STILL b) = true ∧ t.get (F.ANG_RATE_RATE b) = 0) ∧
      (w.get (F.ANG_CTRL_SRC b) ≠ 0 → t.on (F.ANG_STAT_STILL b) = s.on (F.ANG_STAT_STILL b) ∧
        t.get (F.ANG_RATE_RATE b) = s.get (F.ANG_RATE_RATE b)) := by
  have hf : follows w b = follows s b := by
    rw [hw]
    exact follows_written hacc (by rw [hv, follow_read_write b _ (Nat.le_of_ble_eq_true rfl)])
  have hexec : exec (.angSrcWrite b src) s = .next (sourceTaken b w) := by
    rw [← ctrlActed_of_new_source hsrc hen hf, hw, ← angCtrlWrite_of_accepted hacc, hv]
    exact clockedOut_of_running hruns _
  obtain ⟨hdeliv, hangle⟩ := setSource_ang b (w.get (F.ANG_CTRL_SRC b)) w
  refine ⟨_, hexec, sourceTaken_src b w, ?_, ?_, ?_, fun h0 hfs => sourceTaken_of_none h0 (hf.trans hfs), fun h0 => ?_⟩
  · rw [sourceTaken_ang, hdeliv]
  · rw [sourceTaken_ang, hangle, hw, written_ang]
  · rw [sourceTaken_mem, hw, written_mem]
  · obtain ⟨hstill, hrate⟩ := sourceTaken_of_some h0
    have hwstill : w.get (F.ANG_STAT_STILL b) = s.get (F.ANG_STAT_STILL b) := by
      rw [hw]
      exact written_ctrl_get hacc _
    have hwrate : w.get (F.ANG_RATE_RATE b) = s.get (F.ANG_RATE_RATE b) := by
      rw [hw]
      exact written_ctrl_get hacc _
    exact ⟨hstill.trans (congrArg (· == 1) hwstill), hrate.trans hwrate⟩

theorem angEnable_next {s : State} {b : Bridge} {v : Word} {w : State} (hruns : coreStopped s = false)
    (hv : v = (F.ANG_CTRL_EN b).write (s.rd (angCtrlAddr b)) 1) (hw : w = written (angCtrlAddr b) v s)
    (hacc : accepted (angCtrlAddr b) v s = true) (hoff : s.on (F.ANG_CTRL_EN b) = false) (hen : w.on (F.ANG_CTRL_EN b) = true)
    (hsrc : w.get (F.ANG_CTRL_SRC b) = s.get (F.ANG_CTRL_SRC b)) : exec (.angEnable b) s = .next (angEnable b w) := by
  have hf : follows w b = follows s b := by
    rw [hw]
    exact follows_written hacc (by rw [hv, follow_read_write b _ (Nat.le_of_ble_eq_true rfl)])
  rw [← ctrlActed_of_enabled hsrc hoff hen hf, hw, ← angCtrlWrite_of_accepted hacc, hv]
  exact clockedOut_of_running hruns _

end Sys2Proof.Machine
end

section
/-!
SUPPORT. The cue sheet (R121 to R127): a bit of a set of lines or cues, a cue's definition written, a cue fired by its fall-back setting,
and the end of a line's pulse.
-/
namespace Sys2Proof.Machine

/-! ## One bit of a word -/

/-- A power of two added where its bit is clear leaves every other bit. -/
theorem bitAt_add_two_pow {x n m : Nat} (hclear : bitAt x n = false) (hm : m ≠ n) : bitAt (x + 2 ^ n) m = bitAt x m := by
  rw [bitAt_eq_testBit, bitAt_eq_testBit]
  obtain hlt | hgt := Nat.lt_or_gt_of_ne hm
  · rw [Nat.add_comm]
    exact Nat.testBit_two_pow_add_gt hlt x
  · have heven : x / 2 ^ n % 2 = 0 := by
      have := beq_eq_false_iff_ne.mp hclear
      omega
    obtain ⟨k, rfl⟩ := Nat.exists_eq_add_of_lt hgt
    have hshift : ∀ y : Nat, y / 2 ^ (n + k + 1) = y / 2 ^ n / 2 / 2 ^ k := fun y => by
      rw [Nat.div_div_eq_div_mul, Nat.div_div_eq_div_mul]
      congr 1
      ring
    have hdiv : (x + 2 ^ n) / 2 ^ n / 2 = x / 2 ^ n / 2 := by
      rw [Nat.add_div_right x (Nat.two_pow_pos n)]
      omega
    rw [Nat.testBit_eq_decide_div_mod_eq, Nat.testBit_eq_decide_div_mod_eq, hshift, hshift, hdiv]

theorem bitAt_withBit_other {x n m : Nat} (v : Bool) (hm : m ≠ n) : bitAt (withBit x n v) m = bitAt x m := by
  unfold withBit
  split
  · rfl
  · next hne =>
    cases v with
    | true =>
      rw [if_pos rfl]
      exact bitAt_add_two_pow (by simpa using hne) hm
    | false =>
      have hset : bitAt x n = true := by simpa using hne
      have hle : 2 ^ n ≤ x := Nat.ge_two_pow_of_testBit ((bitAt_eq_testBit x n).symm.trans hset)
      have hclear : bitAt (x - 2 ^ n) n = false := by
        have h := bitAt_withBit_same x n false
        rwa [withBit, hset, if_neg (by decide), if_neg (by decide)] at h
      rw [if_neg Bool.false_ne_true, ← bitAt_add_two_pow hclear hm, Nat.sub_add_cancel hle]

theorem bitAt_withBit (x n m : Nat) (v : Bool) : bitAt (withBit x n v) m = if m = n then v else bitAt x m := by
  split
  · next h => rw [h, bitAt_withBit_same]
  · next h => exact bitAt_withBit_other v h

/-- A bit within the width of a word of bits. -/
theorem bitAt_ofNat {w m : Nat} (h : m < w) (x : Nat) : bitAt (BitVec.ofNat w x).toNat m = bitAt x m := by
  rw [BitVec.toNat_ofNat, bitAt_eq_testBit, Nat.testBit_mod_two_pow, bitAt_eq_testBit, decide_eq_true h, Bool.true_and]

/-! ## CUEnCFG written (R123, R127) -/

/-- The definition of a cue in force before a write of CUEnCFG. -/
def priorOf (b : Bridge) (n : Cue) (s : State) : CuePrior := ⟨s.tick, cuePosWord s b n, cueCfgWord s b n, cueArmed s b n⟩

/-- The cue redefined by the stored words, with the definition before in force for the rest of the tick. -/
def cueRedefined (b : Bridge) (n : Cue) (old : CuePrior) (t : State) : State :=
  armCue b n (t.modAng b (fun a => { a with
    pos := Tab.put (fun _ => 0) a.pos n.val (t.rd (cuePosAddr b n)), prior := Tab.put (fun _ => none) a.prior n.val (some old) }))

theorem exec_cueCfgWrite {s : State} {b : Bridge} {n : Cue} {v : Word} (hruns : coreStopped s = false)
    (hacc : accepted (cueCfgAddr b n) v s = true) :
    exec (.cueCfgWrite b n v) s = .next (cueRedefined b n (priorOf b n s) (written (cueCfgAddr b n) v s)) :=
  (clockedOut_of_running hruns _).trans (congrArg _ (regWriteWith_of_accepted hacc _))

section
variable (b : Bridge) (n : Cue) (old : CuePrior) (t : State)

theorem cueRedefined_ang : (cueRedefined b n old t).ang[b.val] =
    { t.ang[b.val] with
      pos := Tab.put (fun _ => 0) t.ang[b.val].pos n.val (t.rd (cuePosAddr b n))
      prior := Tab.put (fun _ => none) t.ang[b.val].prior n.val (some old)
      armed := BitVec.ofNat 64 (withBit t.ang[b.val].armed.toNat n true) } := by
  unfold cueRedefined armCue
  rw [State.modAng_ang, upd_same, State.modAng_ang, upd_same]

theorem cueRedefined_armed (m : Cue) :
    bitAt (cueRedefined b n old t).ang[b.val].armed.toNat m = if m = n then true else bitAt t.ang[b.val].armed.toNat m := by
  rw [cueRedefined_ang, bitAt_ofNat m.isLt, bitAt_withBit]
  simp only [Fin.ext_iff]

theorem cueRedefined_pos (m : Nat) :
    Tab.get (fun _ => 0) (cueRedefined b n old t).ang[b.val].pos m =
      if m = n.val then t.rd (cuePosAddr b n) else Tab.get (fun _ => 0) t.ang[b.val].pos m := by
  rw [cueRedefined_ang]
  split
  · next h => rw [h, Tab.get_put_same]
  · next h => exact Tab.get_put_other _ _ _ h

theorem cuePrior_cueRedefined (h : old.at_ = t.tick) : cuePrior (cueRedefined b n old t) b n = some old := by
  have htick : (cueRedefined b n old t).tick = t.tick := rfl
  rw [cuePrior, cueRedefined_ang, Tab.get_put_same, htick, Option.filter_some, if_pos (beq_iff_eq.mpr h)]

end

/-! ## The end of a pulse (R126) -/

theorem linePulseEnd_of_pulsing {s : State} {b : Bridge} {line : Nat} (h : bitAt s.ang[b.val].pulse.toNat line = true) :
    (linePulseEnd b line s).regs = s.regs ∧ (linePulseEnd b line s).mem = s.mem ∧
      (linePulseEnd b line s).ang[b.val] = { s.ang[b.val] with
        lines := BitVec.ofNat 4 (withBit s.ang[b.val].lines.toNat line (bitAt s.ang[b.val].restore.toNat line))
        pulse := BitVec.ofNat 4 (withBit s.ang[b.val].pulse.toNat line false)
        restore := BitVec.ofNat 4 (withBit s.ang[b.val].restore.toNat line false) } := by
  unfold linePulseEnd
  dsimp only
  rw [if_pos h, State.modAng_ang, upd_same]
  exact ⟨rfl, rfl, rfl⟩

/-! ## A cue fired by its fall-back setting (R124, R126) -/

section
variable {s : State} {b : Bridge} {n : Cue} (hprior : cuePrior s b n.val = none)
include hprior

theorem cueCfgWord_of_settled : cueCfgWord s b n = s.rd (cueCfgAddr b n) := by
  unfold cueCfgWord
  rw [hprior]
  rfl

theorem isAngleCue_of_settled : isAngleCue s b n = (s.on (F.ANG_CUECFG_EN b n) && !s.on (F.ANG_CUECFG_BASE b n)) := by
  have hen : s.get (F.ANG_CUECFG_EN b n) = (s.rd (cueCfgAddr b n)).toNat % 2 := by
    rw [State.get, Fld.read_eq]
    exact congrArg (· % 2) (Nat.div_one _)
  have hbase : s.get (F.ANG_CUECFG_BASE b n) = (s.rd (cueCfgAddr b n)).toNat / 2 % 2 := Fld.read_eq _ _
  rw [isAngleCue, cueCfgWord_of_settled hprior, State.on, State.on, hen, hbase, Bool.eq_iff_iff]
  simp only [beq_iff_eq, Bool.and_eq_true, Bool.not_eq_true', beq_eq_false_iff_ne]
  omega

/-- A fall-back setting is due FB_OFS ticks after an inner or an outer tick (R124). -/
theorem fallbackDue_iff : fallbackDue s b n = true ↔
    (s.get (F.ANG_CUECFG_FB b n) = 1 ∧ ∃ k ∈ s.ang[b.val].inners, k + (cuePosWord s b n.val).toNat / 2 ^ 20 = s.tick) ∨
      (s.get (F.ANG_CUECFG_FB b n) = 2 ∧ ∃ k ∈ s.ang[b.val].outers, k + (cuePosWord s b n.val).toNat / 2 ^ 20 = s.tick) := by
  have hfb : s.get (F.ANG_CUECFG_FB b n) = (s.rd (cueCfgAddr b n)).toNat / 16 % 4 := Fld.read_eq _ _
  rw [fallbackDue, cueCfgWord_of_settled hprior, ← hfb]
  generalize s.get (F.ANG_CUECFG_FB b n) = fb
  dsimp only
  split
  · simp
  · simp
  · next h1 h2 =>
    simp only [Bool.false_eq_true, false_iff, not_or]
    exact ⟨fun h => h1 h.1, fun h => h2 h.1⟩

end

/-- A fall-back setting other than inner and outer ticks is never due. -/
theorem not_fallbackDue {s : State} {b : Bridge} {n : Cue} (hprior : cuePrior s b n.val = none)
    (hfb : s.get (F.ANG_CUECFG_FB b n) = 0 ∨ s.get (F.ANG_CUECFG_FB b n) = 3) : fallbackDue s b n = false := by
  rw [← Bool.not_eq_true, fallbackDue_iff hprior]
  omega

/-- What must hold for a cue to fire without a crossing (R124). -/
theorem cueFallback_of_not {s : State} {b : Bridge} {n : Cue}
    (h : ¬ (s.on (F.ANG_CTRL_EN b) = true ∧ s.on (F.ANG_STAT_STILL b) = true ∧ isAngleCue s b n = true ∧ fallbackDue s b n = true)) :
    cueFallback b n s = s := by
  refine if_neg fun hall => h ?_
  simpa only [Bool.and_eq_true, and_assoc] using hall

/-- A cue shown as fired. -/
def cueShown (b : Bridge) (n : Cue) (s : State) : State := s.putBit (F.ANG_FIRED_FIRED b (n.val / 32)) (n.val % 32) true

theorem cueShown_fired (b : Bridge) (n : Cue) (s : State) :
    (cueShown b n s).bit (F.ANG_FIRED_FIRED b (n.val / 32)) (n.val % 32) = true :=
  State.bit_putBit_same s true (Nat.mod_lt _ (by decide)) (Nat.le_of_ble_eq_true rfl)

theorem cueShown_rd_cfg (b : Bridge) (n m : Cue) (s : State) : (cueShown b n s).rd (cueCfgAddr b m) = s.rd (cueCfgAddr b m) :=
  State.rd_put_other s _ _ (by simp only [F.ANG_FIRED_FIRED, cueCfgAddr]; omega)

theorem rateOf_cueShown (b : Bridge) (n : Cue) (s : State) : rateOf (cueShown b n s) b = rateOf s b := by
  have hrd : (cueShown b n s).rd (F.ANG_RATE_RATE b).addr = s.rd (F.ANG_RATE_RATE b).addr :=
    State.rd_put_other s _ _ (by simp only [F.ANG_FIRED_FIRED, F.ANG_RATE_RATE]; omega)
  rw [rateOf, State.getS, State.get, hrd]
  rfl

/-- A cue that fires without a crossing is queued with the sign of RATE, 0 at standstill (R126). -/
theorem fireCue_of_settled {s : State} {b : Bridge} {n : Cue} (hprior : cuePrior s b n.val = none) :
    fireCue b n 0 s = (cueShown b n s).modAng b (fun a => { a with
      queue := a.queue ++ [⟨n, a.angle / 2 ^ 16, (rateOf s b).sign, s.rd (cueCfgAddr b n)⟩] }) := by
  have hdir : (if rateOf s b = 0 then 0 else (rateOf s b).sign) = (rateOf s b).sign := by
    split
    · next h => rw [h, Int.sign_zero]
    · rfl
  have hcfg : cueCfgWord (cueShown b n s) b n = s.rd (cueCfgAddr b n) :=
    (cueCfgWord_of_settled (s := cueShown b n s) hprior).trans (cueShown_rd_cfg b n n s)
  have hfire : fireCue b n 0 s = (cueShown b n s).modAng b (fun a => { a with
      queue := a.queue ++ [⟨n, a.angle / 2 ^ 16, if rateOf (cueShown b n s) b = 0 then 0 else (rateOf (cueShown b n s) b).sign,
        cueCfgWord (cueShown b n s) b n⟩] }) := rfl
  rw [hfire, hcfg, rateOf_cueShown, hdir]

theorem fireCue_fires {s : State} {b : Bridge} {n : Cue} (hprior : cuePrior s b n.val = none) :
    (fireCue b n 0 s).bit (F.ANG_FIRED_FIRED b (n.val / 32)) (n.val % 32) = true ∧
      (fireCue b n 0 s).ang[b.val].queue =
        s.ang[b.val].queue ++ [⟨n, s.ang[b.val].angle / 2 ^ 16, (rateOf s b).sign, s.rd (cueCfgAddr b n)⟩] ∧
      (fireCue b n 0 s).ang[b.val].armed = s.ang[b.val].armed ∧ (fireCue b n 0 s).mem = s.mem := by
  rw [fireCue_of_settled hprior, State.modAng_bit, State.modAng_ang, upd_same]
  exact ⟨cueShown_fired b n s, rfl, rfl, rfl⟩

theorem exec_cueFallbackFire {s : State} (hruns : coreStopped s = false) (b : Bridge) (n : Cue) :
    exec (.cueFallbackFire b n) s = .next (cueFallback b n s) := clockedOut_of_running hruns _

end Sys2Proof.Machine

open Sys2Proof Sys2Proof.Machine in
/-- Settles O18: a write of ANGx_CTRL is followed through to the source taken or the block restarted, a write of the cue sheet to the definition
in force, and a fall-back cue fires when its setting is due. -/
theorem angleBlockWrites : Obligations.AngleBlockWrites := by
  refine ⟨?_, ?_, ?_, ?_, ?_, ?_, ?_, ?_, ?_⟩
  case refine_1 =>
    exact fun s b src hruns hacc hsrc hen => angSrcWrite_next hruns rfl rfl hacc hsrc hen
  case refine_2 =>
    intro s b hruns hacc hoff hen hsrc
    obtain ⟨hon, hinner, houter, hsync⟩ := angEnable_regs b (written (angCtrlAddr b) ((F.ANG_CTRL_EN b).write (s.rd (angCtrlAddr b)) 1) s)
    obtain ⟨hown, hcount, hstep, hqueue⟩ := angEnable_ang b (written (angCtrlAddr b) ((F.ANG_CTRL_EN b).write (s.rd (angCtrlAddr b)) 1) s)
    refine ⟨_, angEnable_next hruns rfl rfl hacc hoff hen hsrc, hon, hinner, houter, hsync, hown, hcount, hstep, ?_, ?_⟩
    · rw [hqueue, written_ang]
    · rw [angEnable_mem, written_mem]
  case refine_3 =>
    intro s b n v hruns hacc
    exact ⟨(clockedOut_of_running hruns _).trans (congrArg _ (regWriteWith_id_of_accepted hacc)), written_ang _ v s⟩
  case refine_4 =>
    intro s b n v hruns hacc
    have hprior := cuePrior_cueRedefined b n (priorOf b n s) (written (cueCfgAddr b n) v s) (written_tick _ v s).symm
    have hang := written_ang (cueCfgAddr b n) v s
    refine ⟨_, exec_cueCfgWrite hruns hacc, rfl, ?_, fun m hm => ?_, ?_, ?_, ?_, fun m hm => ?_, written_mem _ v s⟩
    · rw [cueRedefined_armed, if_pos rfl]
    · rw [cueRedefined_armed, if_neg hm, hang]
    · rw [cueRedefined_pos, if_pos rfl]
      rfl
    · rw [cuePosWord, hprior]
      rfl
    · rw [cueCfgWord, hprior]
      rfl
    · rw [cueRedefined_pos, if_neg hm, hang]
  case refine_5 =>
    intro s b line hruns hpulse
    obtain ⟨hregs, hmem, hang⟩ := linePulseEnd_of_pulsing hpulse
    refine ⟨_, clockedOut_of_running hruns _, hregs, hmem, ?_, ?_, fun k hk => ?_⟩
    · rw [hang, bitAt_ofNat line.isLt, bitAt_withBit_same]
    · rw [hang, bitAt_ofNat line.isLt, bitAt_withBit_same]
    · rw [hang, bitAt_ofNat k.isLt, bitAt_withBit_other _ (Fin.val_ne_of_ne hk)]
  case refine_6 =>
    intro s b n hruns ⟨hen, hstill⟩ hprior ⟨hcue, hbase⟩ hdue
    have hangle : isAngleCue s b n = true := by rw [isAngleCue_of_settled hprior, hcue, hbase]; rfl
    refine ⟨_, ?_, fireCue_fires hprior⟩
    rw [exec_cueFallbackFire hruns, cueFallback, hen, hstill, hangle, (fallbackDue_iff hprior).mpr hdue]
    rfl
  case refine_7 =>
    intro s b n hruns hprior hidle
    rw [exec_cueFallbackFire hruns, cueFallback_of_not]
    rintro ⟨hen, hstill, hangle, hdue⟩
    rw [isAngleCue_of_settled hprior, Bool.and_eq_true, Bool.not_eq_true'] at hangle
    obtain h | h | h | h | hfb := hidle
    · exact Bool.noConfusion (h.symm.trans hen)
    · exact Bool.noConfusion (h.symm.trans hstill)
    · exact Bool.noConfusion (h.symm.trans hangle.1)
    · exact Bool.noConfusion (h.symm.trans hangle.2)
    · exact Bool.noConfusion ((not_fallbackDue hprior hfb).symm.trans hdue)
  case refine_8 =>
    intro s hs
    exact ⟨fun _ _ => clockedOut_of_stopped hs _, fun _ => clockedOut_of_stopped hs _, fun _ _ => clockedOut_of_stopped hs _,
      fun _ _ => clockedOut_of_stopped hs _, fun _ _ _ => clockedOut_of_stopped hs _, fun _ _ _ => clockedOut_of_stopped hs _⟩
  case refine_9 =>
    exact ⟨fun s b src => exec_next_pending (.angSrcWrite b src) s, fun s b => exec_next_pending (.angEnable b) s,
      fun s b n => exec_next_pending (.cueFallbackFire b n) s, fun s b line => exec_next_pending (.cueLinePulseEnd b line) s,
      fun s b n v => exec_next_pending (.cuePosWrite b n v) s, fun s b n v => exec_next_pending (.cueCfgWrite b n v) s⟩
end

section
/-!
SUPPORT. What the position feedback blocks do beside the interface that reports (R53, R139, R168, R173, R177): the encoder emulation follows its
source, the compare units act, the angle clocks are offered a sample, and each of these leaves alone what is listed here once.
-/
namespace Sys2Proof.Machine

/-! ## The inner state of an interface -/

theorem State.modPos_congr {s : State} {k : PosBlk} {f g : Pos → Pos} (h : f s.pos[k.val] = g s.pos[k.val]) : s.modPos k f = s.modPos k g := by
  unfold State.modPos Machine.upd
  rw [h]

@[simp] theorem modEdge_mem (k : PosBlk) (i : EdgeIface) (f : EdgeState → EdgeState) (s : State) : (modEdge k i f s).mem = s.mem := rfl
@[simp] theorem modEdge_regs (k : PosBlk) (i : EdgeIface) (f : EdgeState → EdgeState) (s : State) : (modEdge k i f s).regs = s.regs := rfl
@[simp] theorem modEdge_tick (k : PosBlk) (i : EdgeIface) (f : EdgeState → EdgeState) (s : State) : (modEdge k i f s).tick = s.tick := rfl
@[simp] theorem modEdge_get (k : PosBlk) (i : EdgeIface) (f : EdgeState → EdgeState) (s : State) (g : Fld) :
    (modEdge k i f s).get g = s.get g := rfl
@[simp] theorem modEdge_on (k : PosBlk) (i : EdgeIface) (f : EdgeState → EdgeState) (s : State) (g : Fld) :
    (modEdge k i f s).on g = s.on g := rfl

@[simp] theorem edgeOf_modEdge (k : PosBlk) (i : EdgeIface) (f : EdgeState → EdgeState) (s : State) :
    edgeOf (modEdge k i f s) k i = f (edgeOf s k i) := by
  cases i <;> simp only [edgeOf, modEdge, State.modPos_pos, upd_same]

@[simp] theorem edgeOf_put (k : PosBlk) (i : EdgeIface) (s : State) (f : Fld) (v : Nat) : edgeOf (s.put f v) k i = edgeOf s k i := by
  cases i <;> rfl

/-! ## Beside the registers -/

/-- A part of the state that a compare unit does not reach: it looks at no register and no interrupt, and of the POS blocks at TURNS and the
interfaces alone. -/
structure CompareFree {α : Type} (π : State → α) : Prop where
  regs : ∀ s r, π { s with regs := r } = π s
  irqs : ∀ s l, π { s with irqs := l } = π s
  units : ∀ s p, (∀ k : PosBlk, p[k.val].turns = s.pos[k.val].turns ∧ p[k.val].abz = s.pos[k.val].abz ∧ p[k.val].hall = s.pos[k.val].hall ∧
    p[k.val].sc = s.pos[k.val].sc) → π { s with pos := p } = π s

theorem compareFree_turns (k : PosBlk) : CompareFree (fun s => s.pos[k.val].turns) :=
  ⟨fun _ _ => rfl, fun _ _ => rfl, fun _ _ h => (h k).1⟩

namespace CompareFree
variable {α : Type} {π : State → α} (h : CompareFree π)
include h

theorem put (s : State) (f : Fld) (v : Nat) : π (s.put f v) = π s := h.regs s _

theorem raise (s : State) (i : Irq) : π (s.raise i) = π s := ite_keeps rfl (h.irqs s _)

theorem modUnits (s : State) (k : PosBlk) {f : Pos → Pos}
    (hf : ∀ p, (f p).turns = p.turns ∧ (f p).abz = p.abz ∧ (f p).hall = p.hall ∧ (f p).sc = p.sc :=
      by exact fun _ => ⟨rfl, rfl, rfl, rfl⟩) :
    π (s.modPos k f) = π s := by
  refine h.units s _ fun q => ?_
  by_cases hq : k = q
  · subst hq
    rw [upd_same]
    exact hf _
  · rw [upd_other s.pos f hq]
    exact ⟨rfl, rfl, rfl, rfl⟩

theorem compareOut (k : PosBlk) (j : Fin 2) (s : State) : π (compareOut k j s) = π s := (h.modUnits _ k).trans (h.put s _ _)

theorem compareMove (k : PosBlk) (m0 m1 : Nat) (s : State) (j : Fin 2) : π (compareMove k m0 m1 s j) = π s := by
  refine ite_keeps ?_ rfl
  refine (ite_keeps (h.put _ _ _) ((h.put _ _ _).trans (h.put _ _ _))).trans ?_
  refine (h.modUnits _ k).trans ((h.put _ _ _).trans ?_)
  exact (ite_keeps (h.raise _ _) rfl).trans ((h.put _ _ _).trans (h.compareOut k j s))

theorem updateMt (k : PosBlk) (s : State) : π (updateMt k s) = π s :=
  ite_keeps rfl ((foldl_keeps (fun s j => h.compareMove k _ _ s j) _ _).trans (h.put s _ _))

end CompareFree

/-- A part of the state that a report of a position does not reach: one that the compare units do not reach, with no output line of EMU and no
angle block, and of the POS blocks the interfaces alone. -/
structure ReportFree {α : Type} (π : State → α) : Prop extends CompareFree π where
  emu : ∀ s e, π { s with emu := e } = π s
  ang : ∀ s a, π { s with ang := a } = π s
  pos : ∀ s p, (∀ k : PosBlk, p[k.val].abz = s.pos[k.val].abz ∧ p[k.val].hall = s.pos[k.val].hall ∧ p[k.val].sc = s.pos[k.val].sc) →
    π { s with pos := p } = π s
  units s p h := pos s p fun k => (h k).2

theorem reportFree_mem : ReportFree State.mem :=
  { regs := fun _ _ => rfl, irqs := fun _ _ => rfl, emu := fun _ _ => rfl, ang := fun _ _ => rfl, pos := fun _ _ _ => rfl }
theorem reportFree_sent : ReportFree State.sent :=
  { regs := fun _ _ => rfl, irqs := fun _ _ => rfl, emu := fun _ _ => rfl, ang := fun _ _ => rfl, pos := fun _ _ _ => rfl }
theorem reportFree_borrow : ReportFree State.borrow :=
  { regs := fun _ _ => rfl, irqs := fun _ _ => rfl, emu := fun _ _ => rfl, ang := fun _ _ => rfl, pos := fun _ _ _ => rfl }
theorem reportFree_sc (k : PosBlk) : ReportFree (fun s => s.pos[k.val].sc) :=
  { regs := fun _ _ => rfl, irqs := fun _ _ => rfl, emu := fun _ _ => rfl, ang := fun _ _ => rfl, pos := fun _ _ h => (h k).2.2 }
theorem reportFree_edgeOf (k : PosBlk) (i : EdgeIface) : ReportFree (edgeOf · k i) := by
  cases i
  · exact { regs := fun _ _ => rfl, irqs := fun _ _ => rfl, emu := fun _ _ => rfl, ang := fun _ _ => rfl, pos := fun _ _ h => (h k).1 }
  · exact { regs := fun _ _ => rfl, irqs := fun _ _ => rfl, emu := fun _ _ => rfl, ang := fun _ _ => rfl, pos := fun _ _ h => (h k).2.1 }

namespace ReportFree
variable {α : Type} {π : State → α} (h : ReportFree π)
include h

theorem modPos (s : State) (k : PosBlk) {f : Pos → Pos}
    (hf : ∀ p, (f p).abz = p.abz ∧ (f p).hall = p.hall ∧ (f p).sc = p.sc := by exact fun _ => ⟨rfl, rfl, rfl⟩) :
    π (s.modPos k f) = π s := by
  refine h.pos s _ fun q => ?_
  by_cases hq : k = q
  · subst hq
    rw [upd_same]
    exact hf _
  · rw [upd_other s.pos f hq]
    exact ⟨rfl, rfl, rfl⟩

theorem emuFollow (was : Bool) (s : State) : π (emuFollow was s) = π s := by
  unfold Machine.emuFollow
  dsimp only
  split
  · exact (h.emu _ _).trans (ite_keeps ((h.put _ _ _).trans (h.put s _ _)) (h.put s _ _))
  · exact (h.emu _ _).trans ((h.put _ _ _).trans (h.put s _ _))

theorem showMtValid (k : PosBlk) (s : State) : π (showMtValid k s) = π s := (h.emuFollow _ _).trans (h.put s _ _)

theorem deliver (smp : Sample) (s : State) : π (deliver smp s) = π s :=
  ite_keeps ((h.ang _ _).trans (ite_keeps (h.ang s _) rfl)) (ite_keeps (h.ang s _) rfl)

theorem carryTurns (k : PosBlk) (carry : Int) (s : State) : π (carryTurns k carry s) = π s :=
  (h.modPos _ k).trans (ite_keeps (h.put s _ _) rfl)

theorem mechReport (k : PosBlk) (mech : Nat) (carry rate : Int) (lowConf : Bool) (ts : Nat) (s : State) :
    π (mechReport k mech carry rate lowConf ts s) = π s :=
  (h.updateMt k _).trans <| (h.put _ _ _).trans <| (h.put _ _ _).trans <| (h.modPos _ k).trans <|
    (h.put _ _ _).trans <| (h.put _ _ _).trans (h.carryTurns k carry s)

theorem speedReport (k : PosBlk) (rate : Int) (lowConf : Bool) (s : State) : π (speedReport k rate lowConf s) = π s :=
  (h.put _ _ _).trans ((h.put _ _ _).trans (h.put s _ _))

theorem edgeDeliver (k : PosBlk) (i : EdgeIface) (ts : Nat) (s : State) : π (edgeDeliver k i ts s) = π s :=
  ite_keeps (h.deliver _ s) rfl

theorem edgeSpeedReport (k : PosBlk) (i : EdgeIface) (rate : Int) (s : State) : π (edgeSpeedReport k i rate s) = π s :=
  ite_keeps (ite_keeps (h.speedReport k _ _ s) (h.mechReport k _ _ _ _ _ s)) rfl

end ReportFree

/-! ## The registers -/

/-- The fields that EMU's following of its source changes (R177). -/
def emuFlds : List Fld := [F.EMU_STAT_RUN, F.EMU_STAT_FROZEN]

/-- What the validity of an interface changes beside its own bit (R139, R177). -/
def validFlds (k : PosBlk) : List Fld := F.POS_STAT_MTVALID k :: emuFlds

/-- What the compare units of a block change (R173 to R175). -/
def compareFlds (k : PosBlk) : List Fld :=
  (List.finRange 2).flatMap fun j => [F.POS_CMPSTAT_LEVEL k j, F.POS_CMPSTAT_HIT k j, F.POS_CMPVAL_VAL k j, F.POS_CMPSTAT_MISS k j,
    F.POS_CMPSTAT_MISSOVF k j]

/-- What a report of the MECHSRC interface changes (R139, R161). -/
def reportFlds (k : PosBlk) : List Fld :=
  [F.POS_STAT_WRAP k, F.POS_MECH_MECH k, F.POS_SPEED_SPEED k, F.POS_STAT_SPDVALID k, F.POS_STAT_LOWCONF k, F.POS_MT_MT k] ++ compareFlds k

theorem mem_compareFlds : ∀ (k : PosBlk) (j : Fin 2), F.POS_CMPSTAT_LEVEL k j ∈ compareFlds k ∧ F.POS_CMPSTAT_HIT k j ∈ compareFlds k ∧
    F.POS_CMPVAL_VAL k j ∈ compareFlds k ∧ F.POS_CMPSTAT_MISS k j ∈ compareFlds k ∧ F.POS_CMPSTAT_MISSOVF k j ∈ compareFlds k := by
  decide

section
variable {A : List Fld} {u s : State} (h : ButFor A u s)
include h

theorem ButFor.modPos (k : PosBlk) (f : Pos → Pos) : ButFor A u (s.modPos k f) := h.upd rfl rfl rfl
theorem ButFor.modSent (c : SentCh) (f : Sent → Sent) : ButFor A u (s.modSent c f) := h.upd rfl rfl rfl
theorem ButFor.modEdge (k : PosBlk) (i : EdgeIface) (f : EdgeState → EdgeState) : ButFor A u (modEdge k i f s) := h.upd rfl rfl rfl
theorem ButFor.putS {f : Fld} (hf : f ∈ A) (v : Int) : ButFor A u (s.putS f v) := h.put hf _

theorem ButFor.countN {f g : Fld} (hf : f ∈ A) (hg : g ∈ A) (n : Nat) : ButFor A u (s.countN f g n) :=
  ite (h.put hf _) ((h.put hf _).put hg 1)

theorem butFor_deliver (smp : Sample) : ButFor A u (deliver smp s) :=
  ButFor.ite ((ButFor.ite (h.modAng 0 _) h).modAng 1 _) (ButFor.ite (h.modAng 0 _) h)

theorem butFor_edgeDeliver (k : PosBlk) (i : EdgeIface) (ts : Nat) : ButFor A u (edgeDeliver k i ts s) :=
  ButFor.ite (butFor_deliver h _) h

theorem butFor_emuFollow (hA : ∀ f ∈ emuFlds, f ∈ A) (was : Bool) : ButFor A u (emuFollow was s) := by
  have hrun : F.EMU_STAT_RUN ∈ A := hA _ (by decide)
  have hfrozen : F.EMU_STAT_FROZEN ∈ A := hA _ (by decide)
  unfold emuFollow
  dsimp only
  split
  · exact ((h.put hrun 0).when ((h.put hrun 0).put hfrozen 1) _).upd rfl rfl rfl
  · exact ((h.putB hrun _).put hfrozen 0).upd rfl rfl rfl

theorem butFor_showMtValid (k : PosBlk) (hA : ∀ f ∈ validFlds k, f ∈ A) : ButFor A u (showMtValid k s) :=
  butFor_emuFollow (h.putB (hA _ (by simp [validFlds])) _) (fun f hf => hA f (List.mem_cons_of_mem _ hf)) _

theorem butFor_compareMove (k : PosBlk) (m0 m1 : Nat) (j : Fin 2) (hA : ∀ f ∈ compareFlds k, f ∈ A) : ButFor A u (compareMove k m0 m1 s j) := by
  obtain ⟨hlevel, hhit, hval, hmiss, hovf⟩ := mem_compareFlds k j
  have hout : ButFor A u (compareOut k j s) := (h.putB (hA _ hlevel) _).modPos k _
  have hshown := hout.put (hA _ hhit) 1
  exact ButFor.ite ((((ButFor.when hshown (hshown.raise _) _).put (hA _ hval) _).modPos k _).countN (hA _ hmiss) (hA _ hovf) _) h

theorem butFor_updateMt (k : PosBlk) (hMT : F.POS_MT_MT k ∈ A) (hA : ∀ f ∈ compareFlds k, f ∈ A) : ButFor A u (updateMt k s) :=
  ButFor.ite h (ButFor.foldl (fun _ j hs => butFor_compareMove hs k _ _ j hA) _ (h.put hMT _))

end

section
variable {A : List Fld} {u s : State} (h : ButFor A u s) (k : PosBlk) (hA : ∀ f ∈ reportFlds k, f ∈ A)
include h hA

theorem butFor_speedReport (rate : Int) (lowConf : Bool) : ButFor A u (speedReport k rate lowConf s) :=
  ((h.putS (hA _ (by simp [reportFlds])) _).putB (hA _ (by simp [reportFlds])) _).putB (hA _ (by simp [reportFlds])) _

theorem butFor_mechReport (mech : Nat) (carry rate : Int) (lowConf : Bool) (ts : Nat) :
    ButFor A u (mechReport k mech carry rate lowConf ts s) := by
  have hcarry : ButFor A u (carryTurns k carry s) := (ButFor.when h (h.put (hA _ (by simp [reportFlds])) 1) _).modPos k _
  refine butFor_updateMt ?_ k (hA _ (by simp [reportFlds])) fun f hf => hA f (by simp [reportFlds, hf])
  exact ((((hcarry.put (hA _ (by simp [reportFlds])) _).putS (hA _ (by simp [reportFlds])) _).modPos k _).putB
    (hA _ (by simp [reportFlds])) _).putB (hA _ (by simp [reportFlds])) _

end

end Sys2Proof.Machine
end

section
/-!
SUPPORT. The ABZ and Hall interfaces (R149 to R157, R162, R163, R665): what an accepted edge, a state fault, a sample without an edge and an index
event leave of the interface, and what a source that becomes invalid does to the failover unit (R169, R294).
-/
namespace Sys2Proof.Machine

/-! ## The count moved (R149) -/

/-- What an edge interface changes beside the sector shown, its error counts and UNCERT. -/
def edgeFlds (k : PosBlk) : List Fld :=
  F.POS_CNT_ABZCNT k :: F.POS_STAT_ABZVAL k :: F.POS_STAT_HALLVAL k :: (validFlds k ++ reportFlds k)

theorem validFlds_sub_edgeFlds (k : PosBlk) : ∀ f ∈ validFlds k, f ∈ edgeFlds k := fun f hf => by simp [edgeFlds, hf]
theorem reportFlds_sub_edgeFlds (k : PosBlk) : ∀ f ∈ reportFlds k, f ∈ edgeFlds k := fun f hf => by simp [edgeFlds, hf]

theorem ifaceVal_mem_edgeFlds (k : PosBlk) (i : EdgeIface) : ifaceVal k (edgeIdx i) ∈ edgeFlds k := by
  cases i <;> simp [edgeFlds, ifaceVal, edgeIdx]

/-- The electrical angle after a move: the one given, else that of the count reported (R140, R157). -/
def movedTheta (k : PosBlk) (i : EdgeIface) (theta : Option Nat) (s : State) : Nat :=
  theta.getD (elecAngle (edgeMech (cprOf s k i) (reported (cprOf s k i) (edgeOf s k i).ci (edgeOf s k i).dir)) (polePairs s k)
    (s.get (F.POS_EOFSABZ_EOFS k)))

section
variable (k : PosBlk) (i : EdgeIface) (old : Nat) (dir : Int) (theta : Option Nat) (ts : Nat) (s : State)

/-- Beside the registers a moved count reaches the interface's angle alone. -/
theorem ReportFree.edgeMoved {α : Type} {π : State → α} (h : ReportFree π) :
    π (edgeMoved k i old dir theta ts s) = π (modEdge k i (fun e => { e with theta := movedTheta k i theta s }) s) := by
  refine (h.edgeDeliver k i ts _).trans ((ite_keeps (h.mechReport _ _ _ _ _ _ _) rfl).trans ?_)
  cases i
  · exact h.put _ _ _
  · rfl

theorem edgeOf_edgeMoved :
    edgeOf (edgeMoved k i old dir theta ts s) k i = { edgeOf s k i with theta := movedTheta k i theta s } :=
  ((reportFree_edgeOf k i).edgeMoved k i old dir theta ts s).trans (edgeOf_modEdge k i _ s)

theorem edgeMoved_mem : (edgeMoved k i old dir theta ts s).mem = s.mem := reportFree_mem.edgeMoved k i old dir theta ts s

theorem butFor_edgeMoved {u : State} (h : ButFor (edgeFlds k) u s) : ButFor (edgeFlds k) u (edgeMoved k i old dir theta ts s) := by
  have hreport := reportFlds_sub_edgeFlds k
  unfold edgeMoved
  cases i
  · have hshown : ∀ cr f, ButFor (edgeFlds k) u ((modEdge k .abz f s).put (F.POS_CNT_ABZCNT k) cr) := fun cr f =>
      (h.modEdge k .abz f).put (by simp [edgeFlds]) cr
    exact butFor_edgeDeliver (ButFor.ite (butFor_mechReport (hshown _ _) k hreport _ _ _ _ _) (hshown _ _)) k .abz ts
  · exact butFor_edgeDeliver (ButFor.ite (butFor_mechReport (h.modEdge k .hall _) k hreport _ _ _ _ _) (h.modEdge k .hall _)) k .hall ts

end

/-! ## Accepted edges (R149, R152, R157, R168) -/

/-- The direction in which an edge counts: reversed under DIRINV at ABZ (R149). -/
def edgeSense (s : State) (k : PosBlk) (i : EdgeIface) (fwd : Bool) : Bool :=
  if i = .abz ∧ s.on (F.POS_CTRL_DIRINV k) = true then !fwd else fwd

/-- The timing of an edge notes its direction and its tick, and leaves the count, the lines and the wait for a first edge. -/
theorem edgeTiming_spec (s : State) (k : PosBlk) (i : EdgeIface) (fwd : Bool) (e : EdgeState) :
    (edgeTiming s k i fwd e).dir = some fwd ∧ (edgeTiming s k i fwd e).last = some s.tick ∧ (edgeTiming s k i fwd e).code = e.code ∧
      (edgeTiming s k i fwd e).awaiting = e.awaiting := by
  unfold edgeTiming
  dsimp only
  split_ifs <;> exact ⟨rfl, rfl, rfl, rfl⟩

/-- An interface that has counted an accepted edge. -/
def edgeCounted (k : PosBlk) (i : EdgeIface) (fwd : Bool) (s : State) : State :=
  modEdge k i (fun e => { edgeTiming s k i (edgeSense s k i fwd) e with
    ci := (e.ci + if edgeSense s k i fwd then 1 else -1) % (cprOf s k i : Int), known := true }) s

/-- An interface that waited for its first good edge made valid (R168). -/
def edgeValidated (k : PosBlk) (i : EdgeIface) (s : State) : State :=
  if (edgeOf s k i).awaiting then showMtValid k ((modEdge k i (fun e => { e with awaiting := false }) s).put (ifaceVal k (edgeIdx i)) 1)
  else s

theorem edgeCounted_awaiting (k : PosBlk) (i : EdgeIface) (fwd : Bool) (s : State) :
    (edgeOf (edgeCounted k i fwd s) k i).awaiting = (edgeOf s k i).awaiting := by
  rw [edgeCounted, edgeOf_modEdge]
  exact (edgeTiming_spec s k i _ _).2.2.2

theorem edgeAccept_eq (k : PosBlk) (i : EdgeIface) (fwd : Bool) (theta : Option Nat) (s : State) :
    ∃ old dir ts, edgeAccept k i fwd theta s = edgeMoved k i old dir theta ts (edgeValidated k i (edgeCounted k i fwd s)) := by
  rw [edgeValidated, edgeCounted_awaiting]
  exact ⟨_, _, _, rfl⟩

theorem edgeOf_edgeValidated (k : PosBlk) (i : EdgeIface) (s : State) :
    edgeOf (edgeValidated k i s) k i = { edgeOf s k i with awaiting := false } := by
  rw [edgeValidated]
  split
  · rw [(reportFree_edgeOf k i).showMtValid, edgeOf_put, edgeOf_modEdge]
  · next h => rw [← Bool.eq_false_iff.mpr h]

/-- What an accepted edge leaves of its interface. -/
theorem edgeAccept_spec (k : PosBlk) (i : EdgeIface) (fwd : Bool) (theta : Option Nat) (s : State) :
    ∃ e, edgeOf (edgeAccept k i fwd theta s) k i = e ∧
      e.ci = ((edgeOf s k i).ci + if edgeSense s k i fwd then 1 else -1) % (cprOf s k i : Int) ∧
      e.dir = some (edgeSense s k i fwd) ∧ e.last = some s.tick ∧ e.code = (edgeOf s k i).code ∧ e.awaiting = false ∧
      (∀ th, theta = some th → e.theta = th) := by
  obtain ⟨old, dir, ts, heq⟩ := edgeAccept_eq k i fwd theta s
  obtain ⟨hdir, hlast, hcode, -⟩ := edgeTiming_spec s k i (edgeSense s k i fwd) (edgeOf s k i)
  refine ⟨_, rfl, ?_⟩
  rw [heq, edgeOf_edgeMoved, edgeOf_edgeValidated, edgeCounted, edgeOf_modEdge]
  exact ⟨rfl, hdir, hlast, hcode, rfl, fun th hth => by rw [hth]; rfl⟩

theorem edgeAccept_mem (k : PosBlk) (i : EdgeIface) (fwd : Bool) (theta : Option Nat) (s : State) :
    (edgeAccept k i fwd theta s).mem = s.mem := by
  obtain ⟨old, dir, ts, heq⟩ := edgeAccept_eq k i fwd theta s
  rw [heq, edgeMoved_mem]
  exact ite_keeps (reportFree_mem.showMtValid k _) rfl

theorem butFor_edgeAccept (k : PosBlk) (i : EdgeIface) (fwd : Bool) (theta : Option Nat) (s : State) :
    ButFor (edgeFlds k) s (edgeAccept k i fwd theta s) := by
  obtain ⟨old, dir, ts, heq⟩ := edgeAccept_eq k i fwd theta s
  have hcounted : ButFor (edgeFlds k) s (edgeCounted k i fwd s) := (ButFor.refl s).modEdge k i _
  rw [heq]
  exact butFor_edgeMoved _ _ _ _ _ _ _ (ButFor.ite
    (butFor_showMtValid ((hcounted.modEdge k i _).put (ifaceVal_mem_edgeFlds k i) 1) k (validFlds_sub_edgeFlds k)) hcounted)

/-! ## A source that becomes invalid (R169, R294, R295) -/

/-- A part of the state that the failover unit does not reach: it looks at no register, MC block, switch or angle block, not at memory, CONT or
the ports. -/
structure FailoverFree {α : Type} (π : State → α) : Prop extends GateFree π where
  blocks : ∀ s x, π { s with mc := x } = π s
  ang : ∀ s x, π { s with ang := x } = π s
  mem : ∀ s x, π { s with mem := x } = π s
  cont : ∀ s x, π { s with cont := x } = π s
  lines : ∀ s x, π { s with lines := x } = π s
  ebp : ∀ s x, π { s with ebp := x } = π s

theorem failoverFree_edgeOf (k : PosBlk) (i : EdgeIface) : FailoverFree (edgeOf · k i) := by
  cases i <;> exact { regs := fun _ _ => rfl, gate := fun _ _ => rfl, mc := fun _ _ _ => rfl, blocks := fun _ _ => rfl,
                      ang := fun _ _ => rfl, mem := fun _ _ => rfl, cont := fun _ _ => rfl, lines := fun _ _ => rfl, ebp := fun _ _ => rfl }

namespace FailoverFree
variable {α : Type} {π : State → α} (h : FailoverFree π)
include h

theorem sendOn (ty : Nat) (f : EbpFrame) (e : Port) (s : State) : π (sendOn ty f e s) = π s :=
  ite_keeps ((h.put _ _ _).trans (h.ebp s _)) rfl

theorem withdraw (kind : Nat) (s : State) : π (withdraw kind s) = π s :=
  ite_keeps rfl <| (h.cont _ _).trans <| (h.cont _ _).trans <| (h.sendOn _ _ _ _).trans <| (h.sendOn _ _ _ _).trans (h.lines s _)

theorem degrade (s : State) : π (degrade s) = π s := ite_keeps (h.put s _ _) rfl

theorem setMemWord (s : State) (a : Nat) (v : Word) : π (s.setMemWord a v) = π s := by
  obtain ⟨m, hm⟩ := State.setBytes_eq s a (leBytes 4 v.toNat)
  rw [State.setMemWord, hm]
  exact h.mem s m

theorem joinedDrop (s : State) : π (joinedDrop s) = π s := by
  refine ite_keeps ((h.degrade _).trans ((h.cont _ _).trans ((h.put _ _ _).trans ?_))) rfl
  split
  · exact h.setMemWord s _ _
  · rfl

theorem clearEstimators (b : Bridge) (s : State) : π (clearEstimators b s) = π s := h.modMc s b fun _ => ⟨rfl, rfl⟩

theorem positionLost (b : Bridge) (s : State) : π (positionLost b s) = π s := by
  have hout : π (mcOut b s) = π s :=
    (h.requestShort b _ _).trans ((h.joinedDrop _).trans ((h.setMode b _ _).trans (h.clearEstimators b s)))
  exact ite_keeps ((h.withdraw 1 _).trans hout) hout

theorem enterSixstep (b : Bridge) (sec : Nat) (s : State) : π (enterSixstep b sec s) = π s :=
  (h.followGates b _).trans <| (h.blocks _ _).trans <| (h.put _ _ _).trans <| (h.joinedDrop _).trans <|
    (h.setMode b _ _).trans (h.clearEstimators b s)

theorem mcAllLost (b : Bridge) (s : State) : π (mcAllLost b s) = π s :=
  ite_keeps (ite_keeps ((h.enterSixstep b _ _).trans ((h.ang _ _).trans (h.put s _ _))) (h.positionLost b s)) rfl

theorem setSource (b : Bridge) (src : Nat) (s : State) : π (setSource b src s) = π s := by
  have hstored : π (sourceStored b src s) = π s := (h.ang _ _).trans (h.put s _ _)
  rw [setSource_eq]
  exact ite_keeps ((h.brakeEnd b _).trans ((h.ang _ _).trans ((h.put _ _ _).trans ((h.put _ _ _).trans hstored)))) hstored

theorem failover (src : Nat) (s : State) : π (failover src s) = π s := by
  refine ite_keeps ?_ rfl
  split
  · exact (h.judgeSet _).trans <| (h.put _ _ _).trans <|
      (ite_keeps (h.setSource 1 _ _) rfl).trans (h.setSource 0 _ s)
  · exact (h.mcAllLost 1 _).trans <| (h.mcAllLost 0 _).trans <| (h.judgeSet _).trans (h.put s _ _)

end FailoverFree

/-- What the failover unit changes: the sources selected, its own flags, and what the MC blocks and CONT make of them. -/
def failoverFlds : List Fld :=
  [F.POS_FO_SWITCHED 0, F.POS_FO_ALLLOST 0] ++
    (List.finRange 2).flatMap fun b : Bridge => F.ANG_CTRL_SRC b :: F.MC_STAT_SECTOR b :: stillFlds b

theorem failoverFlds_of_bridge : ∀ b : Bridge, F.ANG_CTRL_SRC b ∈ failoverFlds ∧ F.MC_STAT_SECTOR b ∈ failoverFlds ∧
    (∀ f ∈ stillFlds b, f ∈ failoverFlds) ∧ (∀ f ∈ outFlds b, f ∈ failoverFlds) := by
  decide

section
variable {u s : State} (h : ButFor failoverFlds u s)
include h

theorem butFor_setSource_failover (b : Bridge) (src : Nat) : ButFor failoverFlds u (setSource b src s) := by
  obtain ⟨hsrc, -, hstill, -⟩ := failoverFlds_of_bridge b
  exact h.trans (((butFor_sourceStored b src s).mono (by simpa using hsrc)).trans ((butFor_setSource b src s).mono hstill))

theorem butFor_enterSixstep (b : Bridge) (sec : Nat) : ButFor failoverFlds u (enterSixstep b sec s) := by
  obtain ⟨-, hsector, -, hout⟩ := failoverFlds_of_bridge b
  have hclear : ButFor failoverFlds u (clearEstimators b s) := h.modMc b _
  have hdropped := butFor_joinedDrop (butFor_setMode hclear b hout modeSixstep) (withdrawFlds_of_outFlds hout)
  exact butFor_followGates ((hdropped.put hsector _).modMc b _) b (gateFlds_of_outFlds hout)

theorem butFor_mcAllLost (b : Bridge) : ButFor failoverFlds u (mcAllLost b s) := by
  obtain ⟨hsrc, -, -, hout⟩ := failoverFlds_of_bridge b
  have hlost := butFor_mcOut h b hout
  exact ButFor.ite (ButFor.ite (butFor_enterSixstep ((h.put hsrc _).modAng b _) b _)
    (ButFor.ite (butFor_withdraw hlost (withdrawFlds_of_outFlds hout) 1) hlost)) h

theorem butFor_judgeSet_failover : ButFor failoverFlds u (judgeSet s) := ButFor.ite (h.putB (by decide) _) h

theorem butFor_failover (src : Nat) : ButFor failoverFlds u (failover src s) := by
  refine ButFor.ite ?_ h
  split
  · have hset := butFor_setSource_failover h 0
    exact butFor_judgeSet_failover ((ButFor.ite (butFor_setSource_failover (hset _) 1 _) (hset _)).put (by decide) 1)
  · exact butFor_mcAllLost (butFor_mcAllLost (butFor_judgeSet_failover (h.put (by decide) 1)) 0) 1

end

end Sys2Proof.Machine
end

section
/-!
SUPPORT. What the edge commands leave (R149 to R157, R162, R163, R665): lines taken as the accepted state, too soon, resampled or in a state
fault, standstill and creep.
-/
namespace Sys2Proof.Machine

/-! ## Lines taken as the accepted state -/

/-- The lines of A and B as a code. -/
theorem toNat_abzLines (a b : Bool) : (BitVec.ofNat 3 (a.toNat + 2 * b.toNat)).toNat = a.toNat + 2 * b.toNat := by
  revert a b
  decide

/-- An interface that has followed its lines. -/
def linesTaken (k : PosBlk) (i : EdgeIface) (lines : BitVec 3) (s : State) : State := modEdge k i (fun e => { e with code := lines }) s

theorem edgeOf_linesTaken (k : PosBlk) (i : EdgeIface) (lines : BitVec 3) (s : State) :
    edgeOf (linesTaken k i lines s) k i = { edgeOf s k i with code := lines } := edgeOf_modEdge k i _ s

theorem edgeTake_abz_of_same {s : State} {k : PosBlk} {lines : BitVec 3} (h : (edgeOf s k .abz).code = lines) :
    edgeTake k .abz lines s = linesTaken k .abz lines s := by
  have hplace : (abzIndex lines.toNat + 4 - abzIndex (edgeOf s k .abz).code.toNat) % 4 = 0 := by
    rw [h]
    omega
  unfold edgeTake
  dsimp only
  rw [hplace]
  rfl

theorem edgeTake_abz_of_forward {s : State} {k : PosBlk} {lines : BitVec 3}
    (h : (abzIndex lines.toNat + 4 - abzIndex (edgeOf s k .abz).code.toNat) % 4 = 1) :
    edgeTake k .abz lines s = edgeAccept k .abz true none (linesTaken k .abz lines s) := by
  unfold edgeTake
  dsimp only
  rw [h]
  rfl

theorem edgeTake_abz_of_opposite {s : State} {k : PosBlk} {lines : BitVec 3}
    (h : (abzIndex lines.toNat + 4 - abzIndex (edgeOf s k .abz).code.toNat) % 4 = 2) :
    edgeTake k .abz lines s = stateFault k .abz (linesTaken k .abz lines s) := by
  unfold edgeTake
  dsimp only
  rw [h]
  rfl

theorem hallBoundary_put_sector (s : State) (k : PosBlk) (v sec : Nat) :
    hallBoundary (s.put (F.POS_CNT_HSECT k) v) k sec = hallBoundary s k sec := by
  unfold hallBoundary
  rw [State.get_put_apart s (F.POS_CNT_HSECT k) (F.POS_HALL_HALL_OFS k) v]

theorem edgeTake_hall_of_forward {s : State} {k : PosBlk} {lines : BitVec 3} {new old : Nat}
    (hnew : hallSector s k lines.toNat = some new) (hold : hallSector s k (edgeOf s k .hall).code.toNat = some old)
    (h : (new + 6 - old) % 6 = 1) :
    edgeTake k .hall lines s = edgeAccept k .hall true (some (hallBoundary s k new))
      ((linesTaken k .hall lines s).put (F.POS_CNT_HSECT k) new) := by
  have hnew' : hallSector (linesTaken k .hall lines s) k lines.toNat = some new := hnew
  have hold' : hallSector (linesTaken k .hall lines s) k (edgeOf s k .hall).code.toNat = some old := hold
  have hbound : hallBoundary ((linesTaken k .hall lines s).put (F.POS_CNT_HSECT k) new) k new = hallBoundary s k new :=
    hallBoundary_put_sector (linesTaken k .hall lines s) k new new
  unfold edgeTake
  rw [← linesTaken]
  generalize linesTaken k .hall lines s = t at hnew' hold' hbound
  dsimp only
  rw [hnew', hold']
  dsimp only
  rw [h, hbound]
  rfl

theorem hallSector_lt {s : State} {k : PosBlk} {lines sec : Nat} (h : hallSector s k lines = some sec) : sec < 6 := by
  unfold hallSector at h
  dsimp only at h
  split at h <;> split at h <;> simp at h <;> omega

/-! ## A change of the lines (R150, R156) -/

theorem edgeChange_of_first {s : State} {k : PosBlk} {i : EdgeIface} (hen : s.on (ifaceEn k (edgeIdx i)) = true)
    (hlast : (edgeOf s k i).last = none) (lines : BitVec 3) :
    edgeChange k i lines s = edgeTake k i lines s := by
  simp [edgeChange, hen, hlast]

theorem edgeChange_of_soon {s : State} {k : PosBlk} {i : EdgeIface} {t0 : Nat} (hen : s.on (ifaceEn k (edgeIdx i)) = true)
    (hlast : (edgeOf s k i).last = some t0)
    (hsoon : s.tick < t0 + edgeMin s k) (lines : BitVec 3) :
    edgeChange k i lines s = modEdge k i (fun e => { e with resample := e.resample ++ [s.tick + edgeMin s k] })
      (posCount k (F.POS_ERR0_EDGEFLT k) 0 s) := by
  simp [edgeChange, hen, hlast, hsoon]

/-! ## State faults (R150, R156, R168) -/

/-- Beside the interface's own bit, its way to invalid changes MTVALID with EMU, and what the failover unit changes. -/
theorem butFor_ifaceInvalid (k : PosBlk) (j : Fin 3) (s : State) :
    ButFor (validFlds k ++ failoverFlds) (s.put (ifaceVal k j) 0) (ifaceInvalid k j s) := by
  have hshown : ButFor (validFlds k) (s.put (ifaceVal k j) 0) (showMtValid k (s.put (ifaceVal k j) 0)) :=
    butFor_showMtValid (.refl _) k fun _ => id
  have hmono := hshown.mono fun f hf => List.mem_append_left failoverFlds hf
  exact ButFor.ite (hmono.trans ((butFor_failover (.refl _) _).mono fun f hf => List.mem_append_right _ hf)) hmono

theorem edgeOf_ifaceInvalid (k : PosBlk) (i : EdgeIface) (j : Fin 3) (s : State) : edgeOf (ifaceInvalid k j s) k i = edgeOf s k i := by
  have hshown : edgeOf (showMtValid k (s.put (ifaceVal k j) 0)) k i = edgeOf s k i :=
    ((reportFree_edgeOf k i).showMtValid k _).trans (edgeOf_put k i s _ 0)
  exact ite_keeps (π := (edgeOf · k i)) (((failoverFree_edgeOf k i).failover _ _).trans hshown) hshown

theorem stateFault_abz (k : PosBlk) (s : State) :
    edgeOf (stateFault k .abz s) k .abz = edgeOf s k .abz ∧ (stateFault k .abz s).on (F.POS_STAT_ABZVAL k) = false ∧
      (stateFault k .abz s).on (F.POS_STAT_UNCERT k) = true := by
  have hb := butFor_ifaceInvalid k 1 ((posCount k (F.POS_ERR0_STATEFLT k) 1 s).put (F.POS_STAT_UNCERT k) 1)
  refine ⟨(edgeOf_ifaceInvalid k .abz 1 _).trans ((edgeOf_put _ _ _ _ _).trans ((failoverFree_edgeOf k .abz).countBit s _ _ _)), ?_, ?_⟩
  · refine (hb.on (F.POS_STAT_ABZVAL k)).trans ?_
    exact State.on_put_same _ (F.POS_STAT_ABZVAL k) 0 (Nat.le_of_ble_eq_true rfl)
  · refine (hb.on (F.POS_STAT_UNCERT k)).trans ((State.on_put_apart _ (F.POS_STAT_ABZVAL k) _ _).trans ?_)
    exact State.on_put_same _ _ _ (Nat.le_of_ble_eq_true rfl)

/-! ## Resampling (R150) -/

/-- An ABZ resample that is due with the lines as they were, and none due at Hall: the resample is used up. -/
theorem edgeAgain_of_unchanged {s : State} {k : PosBlk} {l : EdgeLines} (hen : s.on (F.POS_CTRL_ABZ_EN k) = true)
    (hdue : (edgeOf s k .abz).resample = [s.tick]) (hhall : ∀ u ∈ (edgeOf s k .hall).resample, s.tick < u)
    (hcode : (edgeOf s k .abz).code = BitVec.ofNat 3 (l.a.toNat + 2 * l.b.toNat)) :
    edgeAgain k l s = linesTaken k .abz (edgeOf s k .abz).code (modEdge k .abz (fun e => { e with
      resample := e.resample.filter (fun t => decide (s.tick < t)) }) s) := by
  have hen' : s.on (ifaceEn k (edgeIdx .abz)) = true := hen
  have htake : ∀ f : EdgeState → EdgeState, (f (edgeOf s k .abz)).code = (edgeOf s k .abz).code →
      edgeTake k .abz (edgeOf s k .abz).code (modEdge k .abz f s) = linesTaken k .abz (edgeOf s k .abz).code (modEdge k .abz f s) :=
    fun f hf => edgeTake_abz_of_same (by rw [edgeOf_modEdge, hf])
  have hnone : (edgeOf s k .hall).resample.any (fun t => decide (t ≤ s.tick)) = false := by
    simpa using hhall
  have hother : ∀ f g : EdgeState → EdgeState, edgeOf (modEdge k .abz f (modEdge k .abz g s)) k .hall = edgeOf s k .hall := fun f g => by
    simp only [edgeOf, modEdge, State.modPos_pos, upd_same]
  unfold edgeAgain
  rw [← hcode]
  simp only [hdue, List.any_cons, List.any_nil, Nat.le_refl, decide_true, Bool.or_false, if_true, modEdge_on, hen']
  rw [htake _ rfl, linesTaken, hother, modEdge_tick, modEdge_tick, if_neg (by rw [hnone]; decide)]

/-! ## Standstill and creep (R162, R163) -/

/-- Beside the registers standstill reaches the interface's speed alone. -/
theorem ReportFree.edgeStill {α : Type} {π : State → α} (h : ReportFree π) (k : PosBlk) (i : EdgeIface) (s : State) :
    π (edgeStill k i s) = π (modEdge k i (fun e => { e with ticks := [], interval := none, speed := 0, lowConf := false }) s) :=
  ite_keeps rfl ((h.edgeDeliver k i _ _).trans (h.edgeSpeedReport k i 0 _))

/-- The speed of one count since the last edge, in the direction of that edge (R163). -/
def creepSpeed (s : State) (k : PosBlk) (i : EdgeIface) (t0 : Nat) : Int :=
  if (edgeOf s k i).dir = some false then -edgeSpeed s k i 1 (s.tick - t0) else edgeSpeed s k i 1 (s.tick - t0)

theorem edgeCreep_of_slower {s : State} {k : PosBlk} {i : EdgeIface} {span n t0 : Nat} (hen : s.on (ifaceEn k (edgeIdx i)) = true)
    (hint : (edgeOf s k i).interval = some (span, n)) (hlast : (edgeOf s k i).last = some t0)
    (h : span < (s.tick - t0) * n) :
    edgeCreep k i s = edgeDeliver k i t0 (edgeSpeedReport k i (creepSpeed s k i t0)
      (modEdge k i (fun e => { e with speed := creepSpeed s k i t0, lowConf := false }) s)) := by
  unfold edgeCreep
  simp only [hint, hlast, hen, h, and_self, if_true]
  rfl

/-! ## The commands -/

section
variable {s : State} (hruns : coreStopped s = false) (k : PosBlk)
include hruns

theorem exec_abzEdge (a b : Bool) :
    exec (.abzEdge k a b) s = .next (edgeChange k .abz (BitVec.ofNat 3 (a.toNat + 2 * b.toNat)) s) := clockedOut_of_running hruns _

theorem exec_hallEdge (c : BitVec 3) : exec (.hallEdge k c) s = .next (edgeChange k .hall c s) := clockedOut_of_running hruns _

theorem exec_edgeResample (l : EdgeLines) : exec (.edgeResample k l) s = .next (edgeAgain k l s) := clockedOut_of_running hruns _

theorem exec_edgeStandstill (i : EdgeIface) : exec (.edgeStandstill k i) s = .next (edgeStill k i s) := clockedOut_of_running hruns _

theorem exec_creepSample (i : EdgeIface) : exec (.creepSample k i) s = .next (edgeCreep k i s) := clockedOut_of_running hruns _

end

theorem exec_abzEdge_forward {s : State} {k : PosBlk} {a b : Bool} (hruns : coreStopped s = false)
    (hen : s.on (F.POS_CTRL_ABZ_EN k) = true) (hinv : s.on (F.POS_CTRL_DIRINV k) = false) (hlast : (edgeOf s k .abz).last = none)
    (hstep : (abzIndex (a.toNat + 2 * b.toNat) + 4 - abzIndex (edgeOf s k .abz).code.toNat) % 4 = 1) :
    ∃ t, exec (.abzEdge k a b) s = .next t ∧
      (edgeOf t k .abz).ci = ((edgeOf s k .abz).ci + 1) % (4 * (s.get (F.POS_ABZCFG_LINES k) + 1) : Nat) ∧
      (edgeOf t k .abz).dir = some true ∧ (edgeOf t k .abz).last = some s.tick ∧ (edgeOf t k .abz).awaiting = false ∧ t.mem = s.mem := by
  rw [← toNat_abzLines] at hstep
  obtain ⟨e, rfl, hci, hdir, hlast', -, hawait, -⟩ :=
    edgeAccept_spec k .abz true none (linesTaken k .abz (BitVec.ofNat 3 (a.toNat + 2 * b.toNat)) s)
  have hsense : edgeSense (linesTaken k .abz (BitVec.ofNat 3 (a.toNat + 2 * b.toNat)) s) k .abz true = true := by
    rw [edgeSense, linesTaken, modEdge_on, hinv]
    rfl
  rw [hsense, edgeOf_linesTaken] at hci
  rw [hsense] at hdir
  refine ⟨_, ?_, hci, hdir, hlast', hawait, edgeAccept_mem _ _ _ _ _⟩
  rw [exec_abzEdge hruns, edgeChange_of_first (i := .abz) hen hlast, edgeTake_abz_of_forward hstep]

theorem exec_abzEdge_opposite {s : State} {k : PosBlk} {a b : Bool} (hruns : coreStopped s = false)
    (hen : s.on (F.POS_CTRL_ABZ_EN k) = true) (hlast : (edgeOf s k .abz).last = none)
    (hstep : (abzIndex (a.toNat + 2 * b.toNat) + 4 - abzIndex (edgeOf s k .abz).code.toNat) % 4 = 2) :
    ∃ t, exec (.abzEdge k a b) s = .next t ∧ (edgeOf t k .abz).ci = (edgeOf s k .abz).ci ∧ t.on (F.POS_STAT_ABZVAL k) = false ∧
      t.on (F.POS_STAT_UNCERT k) = true := by
  rw [← toNat_abzLines] at hstep
  obtain ⟨hedge, hval, huncert⟩ := stateFault_abz k (linesTaken k .abz (BitVec.ofNat 3 (a.toNat + 2 * b.toNat)) s)
  refine ⟨_, ?_, ?_, hval, huncert⟩
  · rw [exec_abzEdge hruns, edgeChange_of_first (i := .abz) hen hlast, edgeTake_abz_of_opposite hstep]
  · rw [hedge, edgeOf_linesTaken]

theorem exec_hallEdge_forward {s : State} {k : PosBlk} {c : BitVec 3} {new old : Nat} (hruns : coreStopped s = false)
    (hen : s.on (F.POS_CTRL_HALL_EN k) = true) (hlast : (edgeOf s k .hall).last = none)
    (hnew : hallSector s k c.toNat = some new) (hold : hallSector s k (edgeOf s k .hall).code.toNat = some old)
    (hstep : (new + 6 - old) % 6 = 1) :
    ∃ t, exec (.hallEdge k c) s = .next t ∧ t.get (F.POS_CNT_HSECT k) = new ∧ (edgeOf t k .hall).theta = hallBoundary s k new ∧
      (edgeOf t k .hall).ci = ((edgeOf s k .hall).ci + 1) % (6 * (s.get (F.POS_CTRL_PP k) + 1) : Nat) ∧ (edgeOf t k .hall).code = c ∧
      t.mem = s.mem := by
  have hb := butFor_edgeAccept k .hall true (some (hallBoundary s k new)) ((linesTaken k .hall c s).put (F.POS_CNT_HSECT k) new)
  obtain ⟨e, rfl, hci, -, -, hcode, -, htheta⟩ :=
    edgeAccept_spec k .hall true (some (hallBoundary s k new)) ((linesTaken k .hall c s).put (F.POS_CNT_HSECT k) new)
  have hcpr : cprOf ((linesTaken k .hall c s).put (F.POS_CNT_HSECT k) new) k .hall = 6 * (s.get (F.POS_CTRL_PP k) + 1) :=
    congrArg (fun p => 6 * (p + 1)) (State.get_put_apart (linesTaken k .hall c s) (F.POS_CNT_HSECT k) (F.POS_CTRL_PP k) new)
  have hsense : edgeSense ((linesTaken k .hall c s).put (F.POS_CNT_HSECT k) new) k .hall true = true := by simp [edgeSense]
  rw [hsense, hcpr, edgeOf_put, edgeOf_linesTaken] at hci
  rw [edgeOf_put, edgeOf_linesTaken] at hcode
  refine ⟨_, ?_, ?_, htheta _ rfl, hci, hcode, edgeAccept_mem _ _ _ _ _⟩
  · rw [exec_hallEdge hruns, edgeChange_of_first (i := .hall) hen hlast, edgeTake_hall_of_forward hnew hold hstep]
  · rw [hb.get (F.POS_CNT_HSECT k), State.get_put_same _ _ _ (Nat.le_of_ble_eq_true rfl)]
    have hw : (F.POS_CNT_HSECT k).w = 3 := rfl
    have := hallSector_lt hnew
    rw [hw]
    omega

end Sys2Proof.Machine

open Sys2Proof Sys2Proof.Machine in
/-- Settles O23: an accepted edge is followed through to the count, direction and angle it leaves (`edgeAccept_spec`), a state fault to what the
failover unit may change (`failoverFlds`), and samples without an edge reach the speed alone. -/
theorem edgeInterfaces : Obligations.EdgeInterfaces := by
  refine ⟨?_, ?_, ?_, ?_, ?_, ?_, ?_, ?_⟩
  case refine_1 =>
    intro s k a b hruns ⟨hen, hinv⟩ hlast hstep
    exact exec_abzEdge_forward hruns hen hinv hlast hstep
  case refine_2 =>
    intro s k a b t0 hruns hen hlast hsoon
    exact (exec_abzEdge hruns k a b).trans (congrArg _ (edgeChange_of_soon (i := .abz) hen hlast hsoon _))
  case refine_3 =>
    intro s k a b hruns hen hlast hstep
    exact exec_abzEdge_opposite hruns hen hlast hstep
  case refine_4 =>
    intro s k l hruns hen hdue hhall hcode
    refine ⟨_, exec_edgeResample hruns k l, ?_⟩
    rw [edgeAgain_of_unchanged hen hdue hhall hcode]
    refine ⟨rfl, ?_, ?_, rfl⟩
    · refine (edgeOf_linesTaken k .abz _ _).trans ?_
      rw [edgeOf_modEdge]
      simp [edgeOf, hdue]
    · simp only [linesTaken, modEdge, State.modPos_pos, upd_same]
  case refine_5 =>
    intro s k c new old hruns hen hlast ⟨hnew, hold⟩ hstep
    exact exec_hallEdge_forward hruns hen hlast hnew hold hstep
  case refine_6 =>
    intro s k i hruns _
    refine ⟨_, exec_edgeStandstill hruns k i, ?_⟩
    rw [(reportFree_edgeOf k i).edgeStill, edgeOf_modEdge, reportFree_mem.edgeStill, modEdge_mem]
    exact ⟨rfl, rfl, rfl, rfl, rfl⟩
  case refine_7 =>
    intro s k i span n t0 hruns hen ⟨hint, hlast⟩ hslower
    refine ⟨_, exec_creepSample hruns k i, ?_⟩
    rw [edgeCreep_of_slower hen hint hlast hslower, (reportFree_edgeOf k i).edgeDeliver, (reportFree_edgeOf k i).edgeSpeedReport,
      edgeOf_modEdge, reportFree_mem.edgeDeliver, reportFree_mem.edgeSpeedReport, modEdge_mem]
    exact ⟨rfl, rfl, rfl, rfl⟩
  case refine_8 =>
    intro s hs
    exact ⟨fun _ _ _ => clockedOut_of_stopped hs _, fun _ _ => clockedOut_of_stopped hs _, fun _ _ => clockedOut_of_stopped hs _,
      fun _ _ => clockedOut_of_stopped hs _, fun _ _ => clockedOut_of_stopped hs _⟩
end

section
/-!
SUPPORT. The sine/cosine interface (R142 to R146, R168): a first sample in range and one out of it, and an index event of the ABZ interface (R153,
R154).
-/
namespace Sys2Proof.Machine

/-! ## The angle of a sample (R145) -/

/-- The integer drawn lies within `err` of the exact value. -/
theorem within_spec (v : Int) {err : Nat} (herr : 0 < err) (free : BitVec 64) : (256 * within v err free - v).natAbs ≤ 256 * err := by
  have hpos : 0 < (v + err * 256) / 256 - -((err * 256 - v) / 256) + 1 := by omega
  have hlow := Int.emod_nonneg (free.toNat : Int) hpos.ne'
  have hhigh := Int.emod_lt_of_pos (free.toNat : Int) hpos
  unfold within
  dsimp only
  omega

theorem ofSigned_lt (w : Nat) (i : Int) : ofSigned w i < 2 ^ w := by
  have hpos : (0 : Int) < (2 ^ w : Nat) := Int.natCast_pos.mpr (Nat.two_pow_pos w)
  have := Int.emod_lt_of_pos i hpos
  have := Int.emod_nonneg i hpos.ne'
  unfold ofSigned
  omega

/-! ## A sample that passes every check (R146) -/

/-- The sample shown and kept for the speed. -/
def scTaken (k : PosBlk) (pidx fine : Nat) (s : State) : State :=
  let hist := ((pidx * 2 ^ 20 + fine, s.tick) :: s.pos[k.val].sc.hist).take 65
  let speed := scSpeed s k hist s.pos[k.val].sc.lastSign
  ((s.drew.put (F.POS_SC_FINE k) fine).put (F.POS_SC_PIDX k) pidx).modPos k (fun p => { p with sc := { p.sc with
    primed := true, bad := 0, hist := hist, speed := speed.1, lowConf := speed.2, awaiting := false,
    lastSign := if speed.1 = 0 then p.sc.lastSign else speed.1.sign } })

/-- The interface made valid by its first good sample, where it waits for one (R168). -/
def scValidated (k : PosBlk) (awaiting : Bool) (s : State) : State :=
  if awaiting then showMtValid k (s.put (F.POS_STAT_SCVAL k) 1) else s

/-- A sample reported where the interface is the MECHSRC. -/
def scMoved (k : PosBlk) (mech : Nat) (carry v : Int) (low : Bool) (s : State) : State :=
  if mechSrc s k = 0 then mechReport k mech carry v low s.tick s else s

/-- The samples since the last delivery. -/
def scSkipped (k : PosBlk) (m : Nat) (s : State) : State := s.modPos k (fun p => { p with sc := { p.sc with skipped := m } })

/-- A valid interface's sample reported, and every (DELIV + 1)-th delivered. -/
def scReported (k : PosBlk) (mech : Nat) (carry v : Int) (low : Bool) (n : Nat) (s : State) : State :=
  if s.on (F.POS_STAT_SCVAL k) then
    let s := scMoved k mech carry v low s
    if s.get (F.POS_SCCFG_DELIV k) < n then
      deliver { src := ifaceSrc k 0, theta := elecAngle mech (polePairs s k) (s.get (F.POS_EOFSSC_EOFS k)), ts := s.tick,
                rate := v, zero := v == 0, lowConf := low } (scSkipped k 0 s)
    else scSkipped k n s
  else s

theorem scGood_eq (k : PosBlk) (pidx fine : Nat) (dir : Int) (s : State) : ∃ mech carry v low n,
    scGood k pidx fine dir s = scReported k mech carry v low n (scValidated k s.pos[k.val].sc.awaiting (scTaken k pidx fine s)) :=
  ⟨_, _, _, _, _, rfl⟩

theorem scTaken_regs (k : PosBlk) {pidx fine : Nat} (hpidx : pidx < 2 ^ 12) (hfine : fine < 2 ^ 20) (s : State) :
    (scTaken k pidx fine s).get (F.POS_SC_FINE k) = fine ∧ (scTaken k pidx fine s).get (F.POS_SC_PIDX k) = pidx := by
  rw [scTaken, State.modPos_get, State.modPos_get, State.get_put_apart _ (F.POS_SC_PIDX k) (F.POS_SC_FINE k),
    State.get_put_same _ _ _ (Nat.le_of_ble_eq_true rfl), State.get_put_same _ _ _ (Nat.le_of_ble_eq_true rfl)]
  exact ⟨Nat.mod_eq_of_lt hfine, Nat.mod_eq_of_lt hpidx⟩

theorem scTaken_sc (k : PosBlk) (pidx fine : Nat) (s : State) :
    (scTaken k pidx fine s).pos[k.val].sc.bad = 0 ∧ (scTaken k pidx fine s).pos[k.val].sc.primed = true := by
  rw [scTaken, State.modPos_pos, upd_same]
  exact ⟨rfl, rfl⟩

theorem scValidated_spec (k : PosBlk) (s : State) :
    (scValidated k true s).on (F.POS_STAT_SCVAL k) = true ∧ ButFor (F.POS_STAT_SCVAL k :: validFlds k) s (scValidated k true s) ∧
      (scValidated k true s).pos[k.val].sc = s.pos[k.val].sc := by
  have hb : ButFor (validFlds k) (s.put (F.POS_STAT_SCVAL k) 1) (scValidated k true s) := butFor_showMtValid (.refl _) k fun _ => id
  refine ⟨?_, ((ButFor.refl s).put (by simp) 1).trans (hb.mono fun f hf => List.mem_cons_of_mem _ hf), (reportFree_sc k).showMtValid k _⟩
  rw [hb.on (F.POS_STAT_SCVAL k), State.on_put_same _ _ _ (Nat.le_of_ble_eq_true rfl)]
  rfl

theorem butFor_scReported (k : PosBlk) (mech : Nat) (carry v : Int) (low : Bool) (n : Nat) (s : State) :
    ButFor (reportFlds k) s (scReported k mech carry v low n s) := by
  have hmoved : ButFor (reportFlds k) s (scMoved k mech carry v low s) :=
    ButFor.ite (butFor_mechReport (.refl s) k (fun _ => id) _ _ _ _ _) (.refl s)
  exact ButFor.ite (ButFor.ite (butFor_deliver (hmoved.modPos k _) _) (hmoved.modPos k _)) (.refl s)

theorem scSkipped_sc (k : PosBlk) (m : Nat) (s : State) : (scSkipped k m s).pos[k.val].sc = { s.pos[k.val].sc with skipped := m } := by
  rw [scSkipped, State.modPos_pos, upd_same]

/-- A report leaves of the interface's inner state all but the count of samples not delivered. -/
theorem scReported_sc (k : PosBlk) (mech : Nat) (carry v : Int) (low : Bool) (n : Nat) (s : State) :
    ∃ m, (scReported k mech carry v low n s).pos[k.val].sc = { s.pos[k.val].sc with skipped := m } := by
  have hmoved : (scMoved k mech carry v low s).pos[k.val].sc = s.pos[k.val].sc :=
    ite_keeps (π := fun s => s.pos[k.val].sc) ((reportFree_sc k).mechReport k _ _ _ _ _ s) rfl
  unfold scReported
  dsimp only
  split
  · split
    · exact ⟨0, ((reportFree_sc k).deliver _ _).trans (by rw [scSkipped_sc, hmoved])⟩
    · exact ⟨n, by rw [scSkipped_sc, hmoved]⟩
  · exact ⟨s.pos[k.val].sc.skipped, rfl⟩

/-- What a good sample of an interface that waits leaves. -/
theorem scGood_of_awaiting {s : State} {k : PosBlk} {pidx fine : Nat} (hpidx : pidx < 2 ^ 12) (hfine : fine < 2 ^ 20)
    (hawait : s.pos[k.val].sc.awaiting = true) (dir : Int) :
    (scGood k pidx fine dir s).get (F.POS_SC_FINE k) = fine ∧ (scGood k pidx fine dir s).on (F.POS_STAT_SCVAL k) = true ∧
      (scGood k pidx fine dir s).pos[k.val].sc.bad = 0 ∧ (scGood k pidx fine dir s).pos[k.val].sc.primed = true ∧
      (scGood k pidx fine dir s).get (F.POS_SC_PIDX k) = pidx := by
  obtain ⟨mech, carry, v, low, n, heq⟩ := scGood_eq k pidx fine dir s
  obtain ⟨hf, hp⟩ := scTaken_regs k hpidx hfine s
  obtain ⟨hbad, hprimed⟩ := scTaken_sc k pidx fine s
  obtain ⟨hval, hbv, hscv⟩ := scValidated_spec k (scTaken k pidx fine s)
  have hbr := butFor_scReported k mech carry v low n (scValidated k true (scTaken k pidx fine s))
  obtain ⟨m, hsc⟩ := scReported_sc k mech carry v low n (scValidated k true (scTaken k pidx fine s))
  rw [hscv] at hsc
  rw [heq, hawait, hsc]
  exact ⟨(hbr.get _).trans ((hbv.get _).trans hf), (hbr.on _).trans hval, hbad, hprimed, (hbr.get _).trans ((hbv.get _).trans hp)⟩

/-! ## Samples (R144) -/

theorem exec_sincosSample {s : State} (hruns : coreStopped s = false) (k : PosBlk) (x y : BitVec 16) :
    exec (.sincosSample k x y) s = .next (scSample k x y s) := clockedOut_of_running hruns _

/-- The first sample in range: FINE is the angle drawn, negated under DIRINV, and PIDX stands. -/
theorem scSample_of_first {s : State} {k : PosBlk} {x y : BitVec 16} (hen : s.on (F.POS_CTRL_SC_EN k) = true)
    (hamp : ampOk s k (correctPair s k x y) = true) (hfirst : s.pos[k.val].sc.primed = false) {f : Int}
    (hf : f = within (angle28 (correctPair s k x y).1 (correctPair s k x y).2 : Nat) 2 s.free) :
    scSample k x y s =
      scGood k (s.get (F.POS_SC_PIDX k)) (ofSigned 20 (if s.on (F.POS_CTRL_DIRINV k) then -f else f)) 0 s.drew := by
  have hfirst' : s.drew.pos[k.val].sc.primed = false := hfirst
  subst hf
  simp only [scSample, hen, hamp, scTrack, hfirst', Bool.not_true, Bool.false_eq_true, if_true, if_false, State.drew_get]

/-- A sample out of range, with fewer than AMP_N in a row. -/
theorem scSample_of_bad {s : State} {k : PosBlk} {x y : BitVec 16} (hen : s.on (F.POS_CTRL_SC_EN k) = true)
    (hamp : ampOk s k (correctPair s k x y) = false) (hfew : s.pos[k.val].sc.bad + 1 < s.get (F.POS_SCCFG_AMP_N k)) :
    scSample k x y s = (s.countBit (F.POS_ERR1_AMPFLT k) (F.POS_ERROVF_OVF k) 2).modPos k
      (fun p => { p with sc := { p.sc with bad := s.pos[k.val].sc.bad + 1 } }) := by
  have hpos : (posCount k (F.POS_ERR1_AMPFLT k) 2 s).pos = s.pos := ite_keeps rfl rfl
  have hcount : ButFor [F.POS_ERR1_AMPFLT k, F.POS_ERROVF_OVF k] s (posCount k (F.POS_ERR1_AMPFLT k) 2 s) :=
    (ButFor.refl s).countBit (by simp) (by simp) 2
  have hlimit := hcount.get (F.POS_SCCFG_AMP_N k)
  simp only [scSample, hen, hamp, Bool.not_true, Bool.false_eq_true, if_false, State.modPos_get, hlimit, hpos,
    if_neg (Nat.not_le.mpr hfew)]
  rfl

/-! ## Index events (R153, R154) -/

theorem exec_indexEdge {s : State} (hruns : coreStopped s = false) (k : PosBlk) (r : Bool) :
    exec (.indexEdge k r) s = .next (zEdge k r s) := clockedOut_of_running hruns _

/-- A Z edge noted. -/
def zNoted (k : PosBlk) (s : State) : State := modEdge k .abz (fun a => { a with lastZ := some s.tick }) s

theorem zEdge_of_first {s : State} {k : PosBlk} (hen : s.on (F.POS_CTRL_ABZ_EN k) = true) (hlast : (edgeOf s k .abz).lastZ = none) (r : Bool) :
    zEdge k r s = if (edgeOf s k .abz).known ∧ (edgeOf s k .abz).dir = some r then indexEvent k (zNoted k s) else zNoted k s := by
  simp only [zEdge, hen, hlast, Bool.not_true, Bool.false_eq_true, if_false, Option.any_none]
  rfl

/-- The error of the count at an index event (R154). -/
def indexError (s : State) (k : PosBlk) : Int :=
  ((s.get (F.POS_IDX_IDX_EXP k) : Int) - (edgeOf s k .abz).ci + (cprOf s k .abz / 2 : Nat)) % (cprOf s k .abz : Int) - (cprOf s k .abz / 2 : Nat)

theorem add_indexError (s : State) (k : PosBlk) :
    ((edgeOf s k .abz).ci + indexError s k) % (cprOf s k .abz : Int) = s.get (F.POS_IDX_IDX_EXP k) % (cprOf s k .abz : Int) := by
  have h := ((Int.mod_modEq ((s.get (F.POS_IDX_IDX_EXP k) : Int) - (edgeOf s k .abz).ci + (cprOf s k .abz / 2 : Nat))
    (cprOf s k .abz)).sub_right (cprOf s k .abz / 2 : Nat)).add_left (edgeOf s k .abz).ci
  refine h.trans (congrArg (· % (cprOf s k .abz : Int)) ?_)
  ring

theorem indexEvent_of_homing {s : State} {k : PosBlk} (hen : s.on (F.POS_CTRL_HOME_EN k) = true) (h : s.on (F.POS_STAT_HOMED k) = false) :
    indexEvent k s = ((indexCorrect k (indexError s k) s).put (F.POS_STAT_HOMED k) 1).put (F.POS_STAT_UNCERT k) 0 := by
  simp only [indexEvent, hen, h, Bool.not_false, Bool.and_self, if_true]
  rfl

theorem indexCorrect_spec (k : PosBlk) (e : Int) (s : State) :
    (edgeOf (indexCorrect k e s) k .abz).ci = ((edgeOf s k .abz).ci + e) % (cprOf s k .abz : Int) ∧
      (edgeOf (indexCorrect k e s) k .abz).lastZ = (edgeOf s k .abz).lastZ ∧ (indexCorrect k e s).mem = s.mem := by
  rw [indexCorrect, edgeOf_edgeMoved, edgeOf_modEdge, edgeMoved_mem, modEdge_mem]
  exact ⟨rfl, rfl, rfl⟩

/-- An index event that homes. -/
theorem exec_indexEdge_homing {s : State} {k : PosBlk} {r : Bool} (hruns : coreStopped s = false)
    (hen : s.on (F.POS_CTRL_ABZ_EN k) = true) (hlast : (edgeOf s k .abz).lastZ = none) (hdir : (edgeOf s k .abz).dir = some r)
    (hknown : (edgeOf s k .abz).known = true) (hhome : s.on (F.POS_CTRL_HOME_EN k) = true) (hhomed : s.on (F.POS_STAT_HOMED k) = false) :
    ∃ t, exec (.indexEdge k r) s = .next t ∧ t.on (F.POS_STAT_HOMED k) = true ∧ t.on (F.POS_STAT_UNCERT k) = false ∧
      (edgeOf t k .abz).ci = (s.get (F.POS_IDX_IDX_EXP k) : Int) % (4 * (s.get (F.POS_ABZCFG_LINES k) + 1) : Nat) ∧
      (edgeOf t k .abz).lastZ = some s.tick ∧ t.mem = s.mem := by
  obtain ⟨hci, hlastZ, hmem⟩ := indexCorrect_spec k (indexError (zNoted k s) k) (zNoted k s)
  rw [add_indexError] at hci
  rw [zNoted, edgeOf_modEdge] at hlastZ
  refine ⟨((indexCorrect k (indexError (zNoted k s) k) (zNoted k s)).put (F.POS_STAT_HOMED k) 1).put (F.POS_STAT_UNCERT k) 0,
    ?_, ?_, ?_, ?_, ?_, ?_⟩
  · rw [exec_indexEdge hruns, zEdge_of_first hen hlast, if_pos ⟨hknown, hdir⟩, indexEvent_of_homing (s := zNoted k s) hhome hhomed]
  · rw [State.on_put_apart _ _ (F.POS_STAT_HOMED k), State.on_put_same _ _ _ (Nat.le_of_ble_eq_true rfl)]
    rfl
  · exact State.on_put_same _ _ _ (Nat.le_of_ble_eq_true rfl)
  · rw [edgeOf_put, edgeOf_put, hci]
    rfl
  · rw [edgeOf_put, edgeOf_put, zNoted, hlastZ]
  · exact hmem

end Sys2Proof.Machine

open Sys2Proof Sys2Proof.Machine in
/-- Settles O22: a first sample in range is followed through to what it shows (`scGood_of_awaiting`), with the integer drawn for its angle within two
counts (`within_spec`); an index event that homes corrects the count by its error (`add_indexError`). -/
theorem sineCosineAndIndex : Obligations.SineCosineAndIndex := by
  refine ⟨?_, ?_, ?_, ?_, ?_, ?_⟩
  case refine_1 =>
    intro s k x y hruns hen hamp hfirst hawait
    obtain ⟨hfine, hval, hbad, hprimed, hpidx⟩ := scGood_of_awaiting (s := s.drew) (State.get_lt s (F.POS_SC_PIDX k))
      (ofSigned_lt 20 (if s.on (F.POS_CTRL_DIRINV k) then
        -within (angle28 (correctPair s k x y).1 (correctPair s k x y).2 : Nat) 2 s.free
        else within (angle28 (correctPair s k x y).1 (correctPair s k x y).2 : Nat) 2 s.free)) hawait 0
    refine ⟨_, _, ?_, hfine, within_spec _ (by decide) s.free, hval, hbad, hprimed, hpidx⟩
    rw [exec_sincosSample hruns, scSample_of_first hen hamp hfirst rfl]
  case refine_2 =>
    intro s k x y hruns hen hamp hfew
    rw [exec_sincosSample hruns, scSample_of_bad hen hamp hfew]
  case refine_3 =>
    intro s k r hruns hen hlast ⟨hdir, hknown⟩ ⟨hhome, hhomed⟩
    exact exec_indexEdge_homing hruns hen hlast hdir hknown hhome hhomed
  case refine_4 =>
    intro s k r hruns hen hlast hother
    rw [exec_indexEdge hruns, zEdge_of_first hen hlast, if_neg]
    · rfl
    · rintro ⟨hknown, hdir⟩
      obtain h | h := hother
      · exact h hdir
      · exact Bool.noConfusion (h.symm.trans hknown)
  case refine_5 =>
    intro s hs
    exact ⟨fun _ _ _ => clockedOut_of_stopped hs _, fun _ _ => clockedOut_of_stopped hs _⟩
  case refine_6 =>
    exact ⟨fun s k x y => exec_next_pending (.sincosSample k x y) s, fun s k r => exec_next_pending (.indexEdge k r) s⟩
end

section
/-!
SUPPORT. SENT frames (R158 to R160, R167, R168): what a valid frame shows and leaves of its channel, and a frame whose CRC alone is wrong.
-/
namespace Sys2Proof.Machine

theorem State.modSent_congr {s : State} {c : SentCh} {f g : Sent → Sent} (h : f s.sent[c.val] = g s.sent[c.val]) :
    s.modSent c f = s.modSent c g := by
  unfold State.modSent Machine.upd
  rw [h]

theorem sentNibble_lt (f : SentFrame) (i : Nat) : sentNibble f i < 16 := Nat.mod_lt _ (by decide)

/-! ## A valid frame -/

/-- The position of a frame's data under the channel's map (R160). -/
def sentMech (s : State) (c : SentCh) (f : SentFrame) : Nat :=
  let m := sentData f / 2 ^ s.get (F.SENT_MAP_LSB c) % 2 ^ s.get (F.SENT_MAP_BITS c) * 2 ^ (24 - s.get (F.SENT_MAP_BITS c))
  if s.on (F.SENT_MAP_DIRINV c) then (2 ^ 24 - m) % 2 ^ 24 else m % 2 ^ 24

/-- A frame's data, status and position shown with its speed. -/
def sentShown (c : SentCh) (f : SentFrame) (mech : Nat) (v : Int) (low : Bool) (s : State) : State :=
  (((((s.drew.put (F.SENT_DATA_DATA c) (sentData f)).put (F.SENT_DATA_STATUS c) (sentStatus f)).put (F.SENT_MECH_MECH c) mech).putS
    (F.SENT_SPEED_SPEED c) v).putB (F.SENT_STAT_SPDVALID c) (v ≠ 0)).putB (F.SENT_STAT_LOWCONF c) low

/-- A channel that has received a valid frame. -/
def sentTaken (c : SentCh) (f : SentFrame) (mech : Nat) (v : Int) (ts : Nat) (old : Int) (s : State) : State :=
  s.modSent c (fun x => { x with
    bad := 0, tickNs := some f.calNs, last := some (mech, ts), awaiting := false, lastSign := if v = 0 then old else v.sign })

/-- A channel that waits made valid by its first good frame (R168). -/
def sentValidated (c : SentCh) (awaiting : Bool) (s : State) : State :=
  if awaiting then emuFollow (emuValid s) (s.put (F.SENT_STAT_VALID c) 1) else s

/-- The status bits taken into the serial message, and a valid channel's sample offered to the angle clocks. -/
def sentDelivered (c : SentCh) (f : SentFrame) (smp : Sample) (s : State) : State :=
  let s := sentSerial c f s
  if s.on (F.SENT_STAT_VALID c) then deliver smp s else s

theorem sentGood_eq (c : SentCh) (f : SentFrame) (s : State) : ∃ v low ts smp,
    sentGood c f s = sentDelivered c f smp (sentValidated c s.sent[c.val].awaiting
      (sentTaken c f (sentMech s c f) v ts s.sent[c.val].lastSign (sentShown c f (sentMech s c f) v low s))) :=
  ⟨_, _, _, _, rfl⟩

/-- What a serial message changes (R158). -/
def slowFlds (c : SentCh) : List Fld := [F.SENT_SLOW_SID c, F.SENT_SLOW_SDATA c, F.SENT_SLOW_NEW c]

/-- The status bits of a frame reach the serial message alone. -/
theorem sentSerial_spec (c : SentCh) (f : SentFrame) (s : State) :
    ButFor (slowFlds c) s (sentSerial c f s) ∧ (∃ l, (sentSerial c f s).sent[c.val] = { s.sent[c.val] with serial := l }) ∧
      (sentSerial c f s).mem = s.mem := by
  have hsent : ∀ l, (s.modSent c (fun x => { x with serial := l })).sent[c.val] = { s.sent[c.val] with serial := l } := fun l => by
    rw [State.modSent_sent, upd_same]
  have hkept : ∀ l, ButFor (slowFlds c) s (s.modSent c (fun x => { x with serial := l })) := fun l => (ButFor.refl s).modSent c _
  unfold sentSerial
  dsimp only
  split
  · exact ⟨(((hkept _).put (by simp [slowFlds]) _).put (by simp [slowFlds]) _).put (by simp [slowFlds]) _, ⟨_, hsent _⟩, rfl⟩
  · exact ⟨hkept _, ⟨_, hsent _⟩, rfl⟩

theorem sentDelivered_spec (c : SentCh) (f : SentFrame) (smp : Sample) (s : State) :
    ButFor (slowFlds c) s (sentDelivered c f smp s) ∧ (∃ l, (sentDelivered c f smp s).sent[c.val] = { s.sent[c.val] with serial := l }) ∧
      (sentDelivered c f smp s).mem = s.mem := by
  obtain ⟨hb, ⟨l, hl⟩, hmem⟩ := sentSerial_spec c f s
  have hsent : (sentDelivered c f smp s).sent = (sentSerial c f s).sent := ite_keeps (reportFree_sent.deliver smp _) rfl
  exact ⟨ButFor.ite (butFor_deliver hb smp) hb, ⟨l, by rw [hsent, hl]⟩, ite_keeps ((reportFree_mem.deliver smp _).trans hmem) hmem⟩

theorem sentValidated_spec (c : SentCh) (s : State) :
    (sentValidated c true s).on (F.SENT_STAT_VALID c) = true ∧ ButFor (F.SENT_STAT_VALID c :: emuFlds) s (sentValidated c true s) ∧
      (sentValidated c true s).sent = s.sent ∧ (sentValidated c true s).mem = s.mem := by
  have hb : ButFor emuFlds (s.put (F.SENT_STAT_VALID c) 1) (sentValidated c true s) := butFor_emuFollow (.refl _) (fun _ => id) _
  refine ⟨?_, ((ButFor.refl s).put (by simp) 1).trans (hb.mono fun f hf => List.mem_cons_of_mem _ hf), reportFree_sent.emuFollow _ _,
    reportFree_mem.emuFollow _ _⟩
  rw [hb.on (F.SENT_STAT_VALID c), State.on_put_same _ _ _ (Nat.le_of_ble_eq_true rfl)]
  rfl

theorem sentTaken_sent (c : SentCh) (f : SentFrame) (mech : Nat) (v : Int) (ts : Nat) (old : Int) (s : State) :
    (sentTaken c f mech v ts old s).sent[c.val].bad = 0 ∧ (sentTaken c f mech v ts old s).sent[c.val].awaiting = false := by
  rw [sentTaken, State.modSent_sent, upd_same]
  exact ⟨rfl, rfl⟩

theorem sentTaken_get (c : SentCh) (f : SentFrame) (mech : Nat) (v : Int) (ts : Nat) (old : Int) (s : State) (g : Fld) :
    (sentTaken c f mech v ts old s).get g = s.get g := by
  rw [sentTaken, State.modSent_get]

theorem sentTaken_mem (c : SentCh) (f : SentFrame) (mech : Nat) (v : Int) (ts : Nat) (old : Int) (s : State) :
    (sentTaken c f mech v ts old s).mem = s.mem := by
  rw [sentTaken, State.modSent_mem]

theorem sentMech_lt (s : State) (c : SentCh) (f : SentFrame) : sentMech s c f < 2 ^ 24 := by
  unfold sentMech
  dsimp only
  split <;> exact Nat.mod_lt _ (by decide)

/-- The speed of a channel, shown after its position (R165, R166). -/
theorem butFor_sentSpeed (c : SentCh) (v : Int) (low : Bool) (s : State) :
    ButFor [F.SENT_SPEED_SPEED c, F.SENT_STAT_SPDVALID c, F.SENT_STAT_LOWCONF c] s
      (((s.putS (F.SENT_SPEED_SPEED c) v).putB (F.SENT_STAT_SPDVALID c) (v ≠ 0)).putB (F.SENT_STAT_LOWCONF c) low) :=
  (((ButFor.refl s).putS (by simp) v).putB (by simp) _).putB (by simp) low

theorem sentShown_mech (c : SentCh) (f : SentFrame) {mech : Nat} (hmech : mech < 2 ^ 24) (v : Int) (low : Bool) (s : State) :
    (sentShown c f mech v low s).get (F.SENT_MECH_MECH c) = mech := by
  rw [sentShown, (butFor_sentSpeed _ _ _ _).get (F.SENT_MECH_MECH c), State.get_put_same _ _ _ (Nat.le_of_ble_eq_true rfl)]
  exact Nat.mod_eq_of_lt hmech

theorem sentShown_status (c : SentCh) (f : SentFrame) (mech : Nat) (v : Int) (low : Bool) (s : State) :
    (sentShown c f mech v low s).get (F.SENT_DATA_STATUS c) = sentStatus f := by
  rw [sentShown, (butFor_sentSpeed _ _ _ _).get (F.SENT_DATA_STATUS c), State.get_put_apart _ (F.SENT_MECH_MECH c)
    (F.SENT_DATA_STATUS c), State.get_put_same _ _ _ (Nat.le_of_ble_eq_true rfl)]
  exact Nat.mod_eq_of_lt (sentNibble_lt f 0)

theorem sentShown_mem (c : SentCh) (f : SentFrame) (mech : Nat) (v : Int) (low : Bool) (s : State) :
    (sentShown c f mech v low s).mem = s.mem := rfl

/-- What a valid frame leaves of a channel that waits for one. -/
theorem sentGood_of_awaiting {s : State} {c : SentCh} (hawait : s.sent[c.val].awaiting = true) (f : SentFrame) :
    (sentGood c f s).on (F.SENT_STAT_VALID c) = true ∧ (sentGood c f s).get (F.SENT_MECH_MECH c) = sentMech s c f ∧
      (sentGood c f s).get (F.SENT_DATA_STATUS c) = sentStatus f ∧ (sentGood c f s).sent[c.val].bad = 0 ∧
      (sentGood c f s).sent[c.val].awaiting = false ∧ (sentGood c f s).mem = s.mem := by
  obtain ⟨v, low, ts, smp, heq⟩ := sentGood_eq c f s
  have hmech := sentShown_mech c f (sentMech_lt s c f) v low s
  have hstatus := sentShown_status c f (sentMech s c f) v low s
  have hmem := sentShown_mem c f (sentMech s c f) v low s
  rw [← sentTaken_get c f (sentMech s c f) v ts s.sent[c.val].lastSign] at hmech hstatus
  rw [← sentTaken_mem c f (sentMech s c f) v ts s.sent[c.val].lastSign] at hmem
  obtain ⟨hbad, hwait⟩ := sentTaken_sent c f (sentMech s c f) v ts s.sent[c.val].lastSign (sentShown c f (sentMech s c f) v low s)
  obtain ⟨hval, hbv, hsent, hmemv⟩ := sentValidated_spec c
    (sentTaken c f (sentMech s c f) v ts s.sent[c.val].lastSign (sentShown c f (sentMech s c f) v low s))
  obtain ⟨hbd, ⟨l, hl⟩, hmemd⟩ := sentDelivered_spec c f smp (sentValidated c true
    (sentTaken c f (sentMech s c f) v ts s.sent[c.val].lastSign (sentShown c f (sentMech s c f) v low s)))
  rw [hsent] at hl
  rw [heq, hawait, hl]
  exact ⟨(hbd.on _).trans hval, (hbd.get _).trans ((hbv.get _).trans hmech), (hbd.get _).trans ((hbv.get _).trans hstatus), hbad, hwait,
    hmemd.trans (hmemv.trans hmem)⟩

/-! ## The frames received (R159, R160) -/

theorem exec_sentFrame {s : State} (hruns : coreStopped s = false) (c : SentCh) (f : SentFrame) :
    exec (.sentFrame c f) s = .next (sentReceive c f s) := clockedOut_of_running hruns _

theorem sentReceive_of_valid {s : State} {c : SentCh} {f : SentFrame} (hen : s.on (F.SENT_CFG_EN c) = true)
    (hshape : sentShapeOk s c f = true) (hcrc : sentCrcOk s c f = true) : sentReceive c f s = sentGood c f s := by
  simp only [sentReceive, hen, hshape, hcrc, Bool.not_true, Bool.false_eq_true, Bool.and_self, if_true, if_false]

/-- The errors of a frame that is not valid, counted. -/
def sentErrors (c : SentCh) (f : SentFrame) (s : State) : State :=
  let s := s.when (!sentShapeOk s c f) (fun s => s.count (F.SENT_STAT_FRMERR c) (F.SENT_STAT_FRMOVF c))
  s.when (!sentCrcOk s c f) (fun s => s.count (F.SENT_STAT_CRCERR c) (F.SENT_STAT_CRCOVF c))

/-- A frame that is not valid, its errors counted: one more in a row, and the serial message at its end (R159, R167). -/
def sentRejected (c : SentCh) (s : State) : State :=
  let n := s.sent[c.val].bad + 1
  let t := s.modSent c (fun x => { x with bad := n, serial := [] })
  if t.get (F.SENT_CFG_ERRLIM c) ≤ n then sentInvalid c t else t

theorem sentReceive_of_invalid {s : State} {c : SentCh} {f : SentFrame} (hen : s.on (F.SENT_CFG_EN c) = true)
    (h : sentShapeOk s c f = false ∨ sentCrcOk s c f = false) : sentReceive c f s = sentRejected c (sentErrors c f s) := by
  have hnot : ¬ (sentShapeOk s c f && sentCrcOk s c f) = true := by
    obtain h | h := h <;> simp [h]
  rw [sentReceive, hen, if_neg (by decide), if_neg hnot]
  rfl

theorem sentErrors_of_bad_crc {s : State} {c : SentCh} {f : SentFrame} (hshape : sentShapeOk s c f = true)
    (hcrc : sentCrcOk s c f = false) : sentErrors c f s = s.count (F.SENT_STAT_CRCERR c) (F.SENT_STAT_CRCOVF c) := by
  have hfirst : s.when (!sentShapeOk s c f) (fun s => s.count (F.SENT_STAT_FRMERR c) (F.SENT_STAT_FRMOVF c)) = s := by
    rw [hshape]
    rfl
  rw [sentErrors, hfirst, hcrc]
  rfl

theorem sentRejected_of_few {s : State} {c : SentCh} (h : s.sent[c.val].bad + 1 < s.get (F.SENT_CFG_ERRLIM c)) :
    sentRejected c s = s.modSent c (fun x => { x with bad := x.bad + 1, serial := [] }) :=
  (if_neg (Nat.not_le.mpr h)).trans (State.modSent_congr rfl)

/-- A frame whose CRC alone is wrong, with fewer than ERRLIM in a row. -/
theorem sentReceive_of_bad_crc {s : State} {c : SentCh} {f : SentFrame} (hen : s.on (F.SENT_CFG_EN c) = true)
    (hshape : sentShapeOk s c f = true) (hcrc : sentCrcOk s c f = false) (hfew : s.sent[c.val].bad + 1 < s.get (F.SENT_CFG_ERRLIM c)) :
    sentReceive c f s = (s.count (F.SENT_STAT_CRCERR c) (F.SENT_STAT_CRCOVF c)).modSent c
      (fun x => { x with bad := x.bad + 1, serial := [] }) := by
  have hsent : (s.count (F.SENT_STAT_CRCERR c) (F.SENT_STAT_CRCOVF c)).sent = s.sent := ite_keeps rfl rfl
  have hcount : ButFor [F.SENT_STAT_CRCERR c, F.SENT_STAT_CRCOVF c] s (s.count (F.SENT_STAT_CRCERR c) (F.SENT_STAT_CRCOVF c)) :=
    (ButFor.refl s).count (by simp) (by simp)
  rw [sentReceive_of_invalid hen (.inr hcrc), sentErrors_of_bad_crc hshape hcrc, sentRejected_of_few]
  rw [hsent, hcount.get (F.SENT_CFG_ERRLIM c)]
  exact hfew

end Sys2Proof.Machine
end

section
/-!
SUPPORT. Sources revalidated (R168), TURNS set (R141), the borrowed source lost (R172), a compare value written (R175) and the steps of the encoder
emulation (R176 to R178).
-/
namespace Sys2Proof.Machine

/-! ## SENT channels timed out and revalidated (R167, R168) -/

theorem sentInvalid_of_valid {s : State} {c : SentCh} (h : s.on (F.SENT_STAT_VALID c) = true) :
    sentInvalid c s = failover (7 + c.val) (emuFollow (emuValid s) (s.put (F.SENT_STAT_VALID c) 0)) := if_pos h

theorem revalSent_of_invalid {s : State} {c : SentCh} (h : s.on (F.SENT_STAT_VALID c) = false) :
    revalSent c s = s.modSent c (fun x => { x with awaiting := true, bad := 0 }) := if_neg (by rw [h]; decide)

/-! ## Interfaces revalidated (R168) -/

/-- One bit of REVAL written. -/
def revalBit (k : PosBlk) (mask : Nat) (i : Fin 3) (s : State) : State := if bitAt mask i then revalIface k i s else s

theorem revalMask_eq (k : PosBlk) (mask : Nat) (s : State) :
    revalMask k mask s = revalBit k mask 2 (revalBit k mask 1 (revalBit k mask 0 s)) := rfl

theorem revalBit_of_clear {k : PosBlk} {mask : Nat} {i : Fin 3} (h : bitAt mask i = false) (s : State) : revalBit k mask i s = s :=
  if_neg (by rw [h]; decide)

/-- A revalidation changes POS blocks alone. -/
theorem revalBit_eq (k : PosBlk) (mask : Nat) (i : Fin 3) (s : State) : ∃ p, revalBit k mask i s = { s with pos := p } := by
  unfold revalBit revalIface
  split_ifs
  · exact ⟨s.pos, rfl⟩
  · match i with
    | 0 => exact ⟨_, rfl⟩
    | 1 => exact ⟨_, rfl⟩
    | 2 => exact ⟨_, rfl⟩
  · exact ⟨s.pos, rfl⟩

theorem revalBit_on (k : PosBlk) (mask : Nat) (i : Fin 3) (s : State) (g : Fld) : (revalBit k mask i s).on g = s.on g := by
  obtain ⟨p, hp⟩ := revalBit_eq k mask i s
  rw [hp]
  rfl

/-- An interface that waits for its next good sample or edge. -/
def ifaceWaiting (k : PosBlk) (i : Fin 3) (s : State) : State :=
  match i with
  | 0 => s.modPos k (fun p => { p with sc := { p.sc with awaiting := true, bad := 0 } })
  | 1 => modEdge k .abz (fun e => { e with awaiting := true, known := false }) s
  | 2 => modEdge k .hall (fun e => { e with awaiting := true, known := false }) s

section
variable {k : PosBlk} {mask : Nat} {s : State}

theorem revalBit_of_invalid {i : Fin 3} (hbit : bitAt mask i = true) (hval : s.on (ifaceVal k i) = false) :
    revalBit k mask i s = ifaceWaiting k i s :=
  (if_pos hbit).trans (if_neg (by rw [hval]; decide))

theorem revalBit_zero_sc (hbit : bitAt mask 0 = true) (hval : s.on (F.POS_STAT_SCVAL k) = false) :
    (revalBit k mask 0 s).pos[k.val].sc.awaiting = true := by
  rw [revalBit_of_invalid (i := 0) hbit hval]
  simp only [ifaceWaiting, State.modPos_pos, upd_same]

theorem revalBit_one_abz (hbit : bitAt mask 1 = true) (hval : s.on (F.POS_STAT_ABZVAL k) = false) :
    (revalBit k mask 1 s).pos[k.val].abz.awaiting = true ∧ (revalBit k mask 1 s).pos[k.val].abz.known = false := by
  rw [revalBit_of_invalid (i := 1) hbit hval]
  simp only [ifaceWaiting, modEdge, State.modPos_pos, upd_same, and_self]

theorem revalBit_two_hall (hbit : bitAt mask 2 = true) (hval : s.on (F.POS_STAT_HALLVAL k) = false) :
    (revalBit k mask 2 s).pos[k.val].hall.awaiting = true ∧ (revalBit k mask 2 s).pos[k.val].hall.known = false := by
  rw [revalBit_of_invalid (i := 2) hbit hval]
  simp only [ifaceWaiting, modEdge, State.modPos_pos, upd_same, and_self]

theorem revalBit_one_sc : (revalBit k mask 1 s).pos[k.val].sc = s.pos[k.val].sc := by
  refine ite_keeps (π := fun s => s.pos[k.val].sc) (ite_keeps (π := fun s => s.pos[k.val].sc) rfl ?_) rfl
  simp only [modEdge, State.modPos_pos, upd_same]

theorem revalBit_two_sc : (revalBit k mask 2 s).pos[k.val].sc = s.pos[k.val].sc := by
  refine ite_keeps (π := fun s => s.pos[k.val].sc) (ite_keeps (π := fun s => s.pos[k.val].sc) rfl ?_) rfl
  simp only [modEdge, State.modPos_pos, upd_same]

theorem revalBit_two_abz : (revalBit k mask 2 s).pos[k.val].abz = s.pos[k.val].abz := by
  refine ite_keeps (π := fun s => s.pos[k.val].abz) (ite_keeps (π := fun s => s.pos[k.val].abz) rfl ?_) rfl
  simp only [modEdge, State.modPos_pos, upd_same]

end

/-- What a write of REVAL leaves: no register and no memory changed, and each invalid interface whose bit is written waiting. -/
theorem revalMask_spec (k : PosBlk) (mask : Nat) (s : State) :
    (revalMask k mask s).regs = s.regs ∧ (revalMask k mask s).mem = s.mem ∧
      (bitAt mask 0 = true ∧ s.on (F.POS_STAT_SCVAL k) = false → (revalMask k mask s).pos[k.val].sc.awaiting = true) ∧
      (bitAt mask 1 = true ∧ s.on (F.POS_STAT_ABZVAL k) = false →
        (revalMask k mask s).pos[k.val].abz.awaiting = true ∧ (revalMask k mask s).pos[k.val].abz.known = false) ∧
      (bitAt mask 2 = true ∧ s.on (F.POS_STAT_HALLVAL k) = false →
        (revalMask k mask s).pos[k.val].hall.awaiting = true ∧ (revalMask k mask s).pos[k.val].hall.known = false) := by
  rw [revalMask_eq]
  refine ⟨?_, ?_, fun ⟨hbit, hval⟩ => ?_, fun ⟨hbit, hval⟩ => ?_, fun ⟨hbit, hval⟩ => ?_⟩
  case refine_1 | refine_2 =>
    obtain ⟨p, hp⟩ := revalBit_eq k mask 0 s
    obtain ⟨q, hq⟩ := revalBit_eq k mask 1 { s with pos := p }
    obtain ⟨r, hr⟩ := revalBit_eq k mask 2 { s with pos := q }
    rw [hp, hq, hr]
  · rw [revalBit_two_sc, revalBit_one_sc]
    exact revalBit_zero_sc hbit hval
  · rw [revalBit_two_abz]
    exact revalBit_one_abz hbit (by rw [revalBit_on]; exact hval)
  · exact revalBit_two_hall hbit (by rw [revalBit_on, revalBit_on]; exact hval)

/-! ## TURNS set (R139, R141) -/

theorem updateMt_mt (k : PosBlk) (s : State) :
    (updateMt k s).get (F.POS_MT_MT k) = (s.pos[k.val].turns * 65536 + s.get (F.POS_MECH_MECH k) / 256) % 2 ^ 32 := by
  unfold updateMt
  dsimp only
  split
  · next h => exact h
  · have hfold := ButFor.foldl (fun _ j hs => butFor_compareMove hs k (s.get (F.POS_MT_MT k))
      ((s.pos[k.val].turns * 65536 + s.get (F.POS_MECH_MECH k) / 256) % 2 ^ 32) j fun _ => id) (List.finRange 2)
      (.refl (s.put (F.POS_MT_MT k) ((s.pos[k.val].turns * 65536 + s.get (F.POS_MECH_MECH k) / 256) % 2 ^ 32)))
    rw [hfold.get (F.POS_MT_MT k), State.get_put_same _ _ _ (Nat.le_of_ble_eq_true rfl)]
    exact Nat.mod_mod _ _

/-- TURNS set and UNCERT cleared, before MT follows. -/
def turnsSet (k : PosBlk) (v : Nat) (s : State) : State := (s.modPos k (fun p => { p with turns := v / 65536 })).put (F.POS_STAT_UNCERT k) 0

theorem turnsSet_turns (k : PosBlk) (v : Nat) (s : State) : (turnsSet k v s).pos[k.val].turns = v / 65536 := by
  rw [turnsSet, State.put_pos, State.modPos_pos, upd_same]

theorem setTurns_spec (k : PosBlk) (v : Nat) (s : State) :
    (setTurns k v s).pos[k.val].turns = v / 65536 ∧ (setTurns k v s).on (F.POS_STAT_UNCERT k) = false ∧
      (setTurns k v s).get (F.POS_MECH_MECH k) = s.get (F.POS_MECH_MECH k) ∧
      (setTurns k v s).get (F.POS_MT_MT k) = (v / 65536 * 65536 + s.get (F.POS_MECH_MECH k) / 256) % 2 ^ 32 ∧
      (setTurns k v s).mem = s.mem := by
  have hb : ButFor (F.POS_MT_MT k :: compareFlds k) (turnsSet k v s) (setTurns k v s) :=
    butFor_updateMt (.refl _) k (by simp) fun f hf => by simp [hf]
  have hmech : (turnsSet k v s).get (F.POS_MECH_MECH k) = s.get (F.POS_MECH_MECH k) :=
    State.get_put_apart (s.modPos k (fun p => { p with turns := v / 65536 })) (F.POS_STAT_UNCERT k) (F.POS_MECH_MECH k) 0
  refine ⟨?_, ?_, (hb.get _).trans hmech, ?_, reportFree_mem.updateMt k _⟩
  · exact ((compareFree_turns k).updateMt k _).trans (turnsSet_turns k v s)
  · rw [hb.on (F.POS_STAT_UNCERT k), turnsSet, State.on_put_same _ _ _ (Nat.le_of_ble_eq_true rfl)]
    rfl
  · refine (updateMt_mt k (turnsSet k v s)).trans ?_
    rw [turnsSet_turns, hmech]

/-! ## The borrowed source lost (R172) -/

theorem emuFollow_rd_other (was : Bool) (s : State) {a : Nat} (h : a ≠ F.EMU_STAT_RUN.addr) : (emuFollow was s).rd a = s.rd a := by
  have hput : ∀ (t : State) (f : Fld) (v : Nat), f.addr = F.EMU_STAT_RUN.addr → (t.put f v).rd a = t.rd a := fun t f v hf =>
    State.rd_put_other t f v (hf ▸ h)
  unfold emuFollow
  dsimp only
  split
  · exact ite_keeps (π := (·.rd a)) ((hput _ F.EMU_STAT_FROZEN _ rfl).trans (hput _ _ _ rfl)) (hput _ _ _ rfl)
  · exact (hput _ F.EMU_STAT_FROZEN _ rfl).trans (hput _ F.EMU_STAT_RUN _ rfl)

/-- BVALID cleared with the record of the frames, before EMU follows. -/
def borrowCleared (s : State) : State :=
  { s.put (F.POS_BORROW_BVALID 0) 0 with borrow := { s.borrow with misses := 2, last := Vector.replicate 3 none } }

theorem borrowLost_eq (s : State) : borrowLost s =
    if s.on (F.POS_BORROW_BVALID 0) then failover 0xB (emuFollow (emuValid s) (borrowCleared s)) else emuFollow (emuValid s) (borrowCleared s) :=
  rfl

theorem borrowCleared_spec (was : Bool) (s : State) :
    (emuFollow was (borrowCleared s)).on (F.POS_BORROW_BVALID 0) = false ∧ (emuFollow was (borrowCleared s)).borrow.mech = s.borrow.mech ∧
      (∀ a, a ≠ (F.POS_BORROW_BVALID 0).addr → a ≠ F.EMU_STAT_RUN.addr → (emuFollow was (borrowCleared s)).rd a = s.rd a) ∧
      (emuFollow was (borrowCleared s)).mem = s.mem := by
  have hb := butFor_emuFollow (.refl (borrowCleared s)) (fun _ => id) was
  refine ⟨(hb.on (F.POS_BORROW_BVALID 0)).trans ?_, ?_, fun a hvalid hrun => ?_, reportFree_mem.emuFollow was _⟩
  · exact State.on_put_same s (F.POS_BORROW_BVALID 0) 0 (by decide)
  · rw [reportFree_borrow.emuFollow]
    rfl
  · exact (emuFollow_rd_other was _ hrun).trans (State.rd_put_other s (F.POS_BORROW_BVALID 0) 0 hvalid)

/-! ## Compare values (R175) -/

theorem written_pos (a : Nat) (v : Word) (s : State) : (written a v s).pos = s.pos := by
  obtain ⟨r, hr⟩ := written_eq a v s
  rw [hr]

/-- The value in use kept for the rest of the cycle. -/
def compareKept (k : PosBlk) (j : Fin 2) (old : Nat) (t : State) : State :=
  t.modPos k (fun p => { p with cmpOld := p.cmpOld.set j.val (some (t.tick, old)) j.isLt })

theorem compareVal_compareKept (k : PosBlk) (j : Fin 2) (old : Nat) (t : State) : compareVal (compareKept k j old t) k j = old := by
  have hold : (compareKept k j old t).pos[k.val].cmpOld[j.val] = some (t.tick, old) := by
    rw [compareKept, State.modPos_pos, upd_same]
    exact Vector.getElem_set_self _
  unfold compareVal
  rw [hold]
  exact if_pos rfl

theorem exec_compareValWrite {s : State} {k : PosBlk} {j : Fin 2} {u : Fin 4} {v : Word} (hruns : coreStopped s = false)
    (hu : u.val = 2 * k.val + j.val) (h : accepted (0x40006074 + 0x1000 * k.val + 0x10 * j.val) v s = true) :
    exec (.compareValWrite u v) s =
      .next (compareKept k j (compareVal s k j) (written (0x40006074 + 0x1000 * k.val + 0x10 * j.val) v s)) := by
  have hk : (⟨u.val / 2, by omega⟩ : PosBlk) = k := Fin.ext (by dsimp only; omega)
  have hj : (⟨u.val % 2, by omega⟩ : Fin 2) = j := Fin.ext (by dsimp only; omega)
  have hexec : exec (.compareValWrite u v) s = .next (compareValWrite ⟨u.val / 2, by omega⟩ ⟨u.val % 2, by omega⟩ v s) :=
    clockedOut_of_running hruns _
  rw [hexec, hk, hj, compareValWrite, regWriteWith_of_accepted h]
  rfl

/-! ## Steps of the encoder emulation (R176 to R178) -/

theorem exec_emuStep {s : State} (hruns : coreStopped s = false) : exec .emuStep s = .next (emuStep s) := clockedOut_of_running hruns _

theorem emuStep_of_frozen {s : State} (hen : s.on F.EMU_CTRL_EN = true) (hsrc : emuSource s = none) :
    emuStep s = { (s.put F.EMU_STAT_RUN 0).put F.EMU_STAT_FROZEN 1 with emu := { s.emu with z := false } } := by
  unfold emuStep
  rw [hen, hsrc, if_neg (by decide)]
  unfold emuFollow
  dsimp only
  rw [hsrc, hen]
  rfl

/-- The difference between a count and its target, to the middle of the circle. -/
def emuLag (s : State) (target : Nat) : Int := circMod (4 * (s.get F.EMU_CFG_LINES + 1)) ((target : Int) - s.get F.EMU_STAT_OUTCNT)

/-- EMU shown as running, with LAG where the count is more than four behind. -/
def emuShown (d : Int) (s : State) : State :=
  ((s.put F.EMU_STAT_RUN 1).put F.EMU_STAT_FROZEN 0).when (decide (4 < d.natAbs)) (fun s => s.put F.EMU_STAT_LAG 1)

/-- The output count moved to `o` with its lines. -/
def emuMoved (o : Nat) (s : State) : State := { s.put F.EMU_STAT_OUTCNT o with emu := emuLines (s.put F.EMU_STAT_OUTCNT o) o }

theorem emuShown_regs (d : Int) (s : State) :
    (emuShown d s).on F.EMU_STAT_FROZEN = false ∧ (emuShown d s).on F.EMU_STAT_RUN = true ∧
      ButFor (F.EMU_STAT_LAG :: emuFlds) s (emuShown d s) := by
  have hlag : ButFor [F.EMU_STAT_LAG] ((s.put F.EMU_STAT_RUN 1).put F.EMU_STAT_FROZEN 0) (emuShown d s) :=
    (ButFor.refl _).when ((ButFor.refl _).put (by simp) 1) _
  refine ⟨?_, ?_, (((ButFor.refl s).put (by decide) 1).put (by decide) 0).trans (hlag.mono (by simp))⟩
  · rw [hlag.on _, State.on_put_same _ _ _ (by decide)]
    rfl
  · rw [hlag.on _, State.on_put_apart _ F.EMU_STAT_FROZEN F.EMU_STAT_RUN, State.on_put_same _ _ _ (by decide)]
    rfl

theorem emuShown_emu (d : Int) (s : State) : (emuShown d s).emu = s.emu := ite_keeps rfl rfl
theorem emuShown_mem (d : Int) (s : State) : (emuShown d s).mem = s.mem := ite_keeps rfl rfl
theorem emuShown_tick (d : Int) (s : State) : (emuShown d s).tick = s.tick := ite_keeps rfl rfl

theorem emuSpaced_emuShown (d : Int) (s : State) : emuSpaced (emuShown d s) = emuSpaced s := by
  have hb := (emuShown_regs d s).2.2
  rw [emuSpaced, emuSpaced, emuShown_emu, emuShown_tick, hb.get F.EMU_CFG_TMIN]

theorem emuStep_of_source {s : State} {m : Nat} (hen : s.on F.EMU_CTRL_EN = true) (hsrc : emuSource s = some m) {d : Int}
    (hd : d = emuLag s (m * (4 * (s.get F.EMU_CFG_LINES + 1)) / 2 ^ 24)) :
    emuStep s = if d = 0 || !emuSpaced s then emuShown d s
      else emuMoved (((s.get F.EMU_STAT_OUTCNT : Int) + d.sign) % (4 * (s.get F.EMU_CFG_LINES + 1) : Nat)).toNat (emuShown d s) := by
  subst hd
  rw [← emuSpaced_emuShown (emuLag s (m * (4 * (s.get F.EMU_CFG_LINES + 1)) / 2 ^ 24)) s]
  unfold emuStep
  rw [hen, hsrc, if_neg (by decide)]
  rfl

/-- The lines follow no register but DIRINV and ZPOS. -/
theorem emuLines_congr {s t : State} (hinv : t.on F.EMU_CTRL_DIRINV = s.on F.EMU_CTRL_DIRINV)
    (hz : t.get F.EMU_ZPOS_ZPOS = s.get F.EMU_ZPOS_ZPOS) (htick : t.tick = s.tick) (e : Nat) : emuLines t e = emuLines s e := by
  rw [emuLines, emuLines, hinv, hz, htick]

/-- On a circle of at least four counts a target one count ahead is a difference of one. -/
theorem circMod_of_next {L o target : Nat} (hL : 4 ≤ L) (ho : o < L) (h : (o + 1) % L = target) : circMod L ((target : Int) - o) = 1 := by
  have hsmall : (1 + (L / 2 : Nat) : Int) % L = 1 + (L / 2 : Nat) := Int.emod_eq_of_lt (by omega) (by omega)
  have hlap : ((target : Int) - o + (L / 2 : Nat)) % L = (1 + (L / 2 : Nat) : Int) % L := by
    rw [← h, Int.natCast_emod]
    refine Int.ModEq.add_right _ ?_
    have hmod := (Int.mod_modEq ((o + 1 : Nat) : Int) L).sub_right o
    have hone : ((o + 1 : Nat) : Int) - o = 1 := by omega
    exact hone ▸ hmod
  rw [circMod, hlap, hsmall]
  omega

/-- A step of one count towards the source. -/
theorem exec_emuStep_moves {s : State} {m L : Nat} (hruns : coreStopped s = false) (hen : s.on F.EMU_CTRL_EN = true)
    (hsrc : emuSource s = some m) (hspaced : emuSpaced s = true) (hL : L = 4 * (s.get F.EMU_CFG_LINES + 1))
    (ho : s.get F.EMU_STAT_OUTCNT < L) (hnext : (s.get F.EMU_STAT_OUTCNT + 1) % L = m * L / 2 ^ 24) :
    ∃ t, exec .emuStep s = .next t ∧ t.get F.EMU_STAT_OUTCNT = m * L / 2 ^ 24 ∧ t.on F.EMU_STAT_RUN = true ∧
      t.on F.EMU_STAT_FROZEN = false ∧ t.emu = emuLines s (m * L / 2 ^ 24) ∧ t.mem = s.mem := by
  have hlag : emuLag s (m * L / 2 ^ 24) = 1 := by
    rw [emuLag, ← hL]
    exact circMod_of_next (by omega) ho hnext
  have hcount : (((s.get F.EMU_STAT_OUTCNT : Int) + (1 : Int).sign) % (L : Int)).toNat = m * L / 2 ^ 24 := by
    rw [← hnext]
    exact congrArg Int.toNat (Int.natCast_emod (s.get F.EMU_STAT_OUTCNT + 1) L).symm
  have htarget : m * L / 2 ^ 24 < 2 ^ 18 := by
    have hlt := Nat.mod_lt (s.get F.EMU_STAT_OUTCNT + 1) (show 0 < L by omega)
    have hw : s.get F.EMU_CFG_LINES < 2 ^ 16 := State.get_lt s F.EMU_CFG_LINES
    omega
  obtain ⟨hfrozen, hrun, hb⟩ := emuShown_regs 1 s
  have hmoved : ButFor [F.EMU_STAT_OUTCNT] (emuShown 1 s) ((emuShown 1 s).put F.EMU_STAT_OUTCNT (m * L / 2 ^ 24)) :=
    (ButFor.refl _).put (by simp) _
  have hstep : emuStep s = emuMoved (m * L / 2 ^ 24) (emuShown 1 s) := by
    rw [emuStep_of_source hen hsrc rfl, ← hL, hlag, hspaced, if_neg (by decide), hcount]
  have hlines : emuLines ((emuShown 1 s).put F.EMU_STAT_OUTCNT (m * L / 2 ^ 24)) (m * L / 2 ^ 24) = emuLines s (m * L / 2 ^ 24) :=
    emuLines_congr ((hmoved.on _).trans (hb.on _)) ((hmoved.get _).trans (hb.get _)) (emuShown_tick 1 s) _
  refine ⟨emuMoved (m * L / 2 ^ 24) (emuShown 1 s), by rw [exec_emuStep hruns, hstep], ?_, (hmoved.on _).trans hrun,
    (hmoved.on _).trans hfrozen, hlines, emuShown_mem 1 s⟩
  exact (State.get_put_same _ F.EMU_STAT_OUTCNT _ (by decide)).trans (Nat.mod_eq_of_lt htarget)

/-- No step before TMIN has passed. -/
theorem exec_emuStep_waits {s : State} {m : Nat} (hruns : coreStopped s = false) (hen : s.on F.EMU_CTRL_EN = true)
    (hsrc : emuSource s = some m) (hspaced : emuSpaced s = false) :
    ∃ t, exec .emuStep s = .next t ∧ t.emu = s.emu ∧ t.get F.EMU_STAT_OUTCNT = s.get F.EMU_STAT_OUTCNT ∧
      t.on F.EMU_STAT_FROZEN = false ∧ t.mem = s.mem := by
  generalize hd : emuLag s (m * (4 * (s.get F.EMU_CFG_LINES + 1)) / 2 ^ 24) = d
  obtain ⟨hfrozen, -, hb⟩ := emuShown_regs d s
  refine ⟨emuShown d s, ?_, emuShown_emu d s, hb.get _, hfrozen, emuShown_mem d s⟩
  rw [exec_emuStep hruns, emuStep_of_source hen hsrc hd.symm, if_pos (by rw [hspaced]; simp)]

end Sys2Proof.Machine

open Sys2Proof Sys2Proof.Machine in
/-- Settles O24: a valid frame is followed through to what it shows (`sentGood_of_awaiting`), MT to TURNS and MECH (`updateMt_mt`), and a step of the
encoder emulation to its count (`circMod_of_next`); the rest is each operation's own case. -/
theorem positionSourcesAndOutputs : Obligations.PositionSourcesAndOutputs := by
  refine ⟨?_, ?_, ?_, ?_, ?_, ?_, ?_, ?_, ?_, ?_, ?_, ?_, ?_⟩
  case refine_1 =>
    intro s c f hruns hen ⟨hshape, hcrc⟩ hinv hawait
    obtain ⟨hval, hmech, hstatus, hbad, hwait, hmem⟩ := sentGood_of_awaiting hawait f
    refine ⟨_, ?_, hval, ?_, hstatus, hbad, hwait, hmem⟩
    · rw [exec_sentFrame hruns, sentReceive_of_valid hen hshape hcrc]
    · rw [hmech, sentMech, hinv]
      rfl
  case refine_2 =>
    intro s c f hruns hen ⟨hshape, hcrc⟩ hfew
    rw [exec_sentFrame hruns, sentReceive_of_bad_crc hen hshape hcrc hfew]
  case refine_3 =>
    exact fun s c hruns hval => (clockedOut_of_running hruns _).trans (congrArg _ (sentInvalid_of_valid hval))
  case refine_4 =>
    exact fun s c hruns hval => (clockedOut_of_running hruns _).trans (congrArg _ (revalSent_of_invalid hval))
  case refine_5 =>
    intro s k m hruns
    obtain ⟨hregs, hmem, hsc, habz, hhall⟩ := revalMask_spec k m.toNat s
    rw [bitAt_eq_testBit] at hsc habz hhall
    refine ⟨revalMask k m.toNat s, clockedOut_of_running hruns _, hregs, hmem, hsc, habz, hhall, fun hm => ?_⟩
    rw [hm, revalMask_eq, revalBit_of_clear (by decide), revalBit_of_clear (by decide), revalBit_of_clear (by decide)]
  case refine_6 =>
    exact fun s k v hruns => ⟨_, clockedOut_of_running hruns _, setTurns_spec k v.toNat s⟩
  case refine_7 =>
    exact fun s hruns => ⟨_, clockedOut_of_running hruns _, borrowCleared_spec (emuValid s) s⟩
  case refine_8 =>
    intro s k j u v hruns hu hacc
    refine ⟨_, exec_compareValWrite hruns hu hacc, rfl, compareVal_compareKept k j _ _, written_mem _ v s, fun q hq => ?_⟩
    rw [compareKept, State.modPos_pos, upd_other _ _ hq.symm, written_pos]
  case refine_9 =>
    intro s m L hruns hen ⟨hsrc, hspaced⟩ ⟨hL, ho⟩ hnext
    exact exec_emuStep_moves hruns hen hsrc hspaced hL ho hnext
  case refine_10 =>
    intro s m hruns hen ⟨hsrc, hspaced⟩
    exact exec_emuStep_waits hruns hen hsrc hspaced
  case refine_11 =>
    intro s hruns hen hsrc
    rw [exec_emuStep hruns, emuStep_of_frozen hen hsrc]
  case refine_12 =>
    intro s hs
    exact ⟨fun _ _ => clockedOut_of_stopped hs _, fun _ => clockedOut_of_stopped hs _, fun _ _ => clockedOut_of_stopped hs _,
      fun _ _ => clockedOut_of_stopped hs _, fun _ => clockedOut_of_stopped hs _, clockedOut_of_stopped hs _,
      fun _ _ => clockedOut_of_stopped hs _, clockedOut_of_stopped hs _⟩
  case refine_13 =>
    exact ⟨fun s c f => exec_next_pending (.sentFrame c f) s, fun s c => exec_next_pending (.sentTimeout c) s,
      fun s k v => exec_next_pending (.mtSet k v) s, fun s k m => exec_next_pending (.posReval k m) s,
      fun s c => exec_next_pending (.sentReval c) s, fun s => exec_next_pending .borrowTimeout s,
      fun s u v => exec_next_pending (.compareValWrite u v) s, fun s => exec_next_pending .emuStep s⟩
end

section
/-!
SUPPORT. Signed fields, single bits and the free rounding (R16, log entry 10), and operations done channel by channel, as current sensing
uses them.
-/
namespace Sys2Proof.Machine

/-! ## Signed values -/

theorem toSigned_ofSigned {w : Nat} {i : Int} (hlo : -(2 ^ w : Nat) ≤ i) (hhi : i < (2 ^ w : Nat)) :
    toSigned (w + 1) (ofSigned (w + 1) i) = i := by
  have hpow : 2 ^ (w + 1) = 2 * 2 ^ w := by rw [Nat.pow_succ, Nat.mul_comm]
  have hrange : ofSigned (w + 1) i < 2 ^ (w + 1) := ofSigned_lt (w + 1) i
  have hvalue : (ofSigned (w + 1) i : Int) = if 0 ≤ i then i else i + (2 ^ (w + 1) : Nat) := by
    rw [ofSigned, Int.toNat_of_nonneg (Int.emod_nonneg _ (by positivity))]
    split
    · exact Int.emod_eq_of_lt ‹_› (by omega)
    · rw [← Int.add_emod_right]
      exact Int.emod_eq_of_lt (by omega) (by omega)
  simp only [toSigned, Nat.mod_eq_of_lt hrange, Nat.add_sub_cancel]
  split at hvalue <;> split <;> omega

theorem clipSigned_range (w : Nat) (i : Int) : -(2 ^ w : Nat) ≤ clipSigned (w + 1) i ∧ clipSigned (w + 1) i < (2 ^ w : Nat) := by
  have hpos : 0 < 2 ^ w := Nat.two_pow_pos w
  simp only [clipSigned, Nat.add_sub_cancel]
  omega

/-- A signed value in a field's range reads back as it was put. -/
theorem State.getS_putS_same (s : State) {f : Fld} {w : Nat} (hw : f.w = w + 1) (h : f.lo + f.w ≤ 32) {v : Int}
    (hv : -(2 ^ w : Nat) ≤ v ∧ v < (2 ^ w : Nat)) : (s.putS f v).getS f = v := by
  rw [State.getS, State.putS, State.get_put_same _ _ _ h, toSigned_mod, hw]
  exact toSigned_ofSigned hv.1 hv.2

/-- The integer below or above the exact quotient is less than one unit from it. -/
theorem State.roundFree_near (s : State) (num : Int) {den : Nat} (h : 0 < den) : (s.roundFree num den * den - num).natAbs < den := by
  have hsplit : num / den * den + num % den = num := Int.ediv_mul_add_emod num den
  have hrem : 0 ≤ num % den ∧ num % den < den := ⟨Int.emod_nonneg _ (by omega), Int.emod_lt_of_pos _ (by omega)⟩
  unfold State.roundFree
  dsimp only
  split
  · omega
  · rcases Nat.mod_two_eq_zero_or_one s.free.toNat with hfree | hfree <;>
    · rw [hfree, Int.add_mul]
      omega

/-! ## Bits of a field -/

/-- A bit of a field is left by a write of another one. -/
theorem State.bit_putBit_other (s : State) {f : Fld} {i j : Nat} (b : Bool) (hij : j ≠ i) (hj : j < f.w) (h : f.lo + f.w ≤ 32) :
    (s.putBit f i b).bit f j = s.bit f j := by
  rw [State.bit, State.putBit, State.get_put_same _ _ _ h, bitAt_eq_testBit, Nat.testBit_mod_two_pow, ← bitAt_eq_testBit,
    bitAt_withBit_other b hij]
  simp [hj, State.bit]

theorem State.bit_put_apart (s : State) (f g : Fld) (v i : Nat) (hg : g.lo + g.w ≤ 32 := by clear * -; decide +revert)
    (hd : f.disj g = true := by clear * -; decide +revert) : (s.put f v).bit g i = s.bit g i :=
  State.bit_put_disj s f g v i hg hd

theorem State.bit_putBit_apart (s : State) (f g : Fld) (b : Bool) (i j : Nat) (hg : g.lo + g.w ≤ 32 := by clear * -; decide +revert)
    (hd : f.disj g = true := by clear * -; decide +revert) : (s.putBit f i b).bit g j = s.bit g j :=
  State.bit_put_disj s f g _ j hg hd

section
variable {A : List Fld} {u s : State} (h : ButFor A u s)
include h

theorem ButFor.getS (g : Fld) (hg : g.lo + g.w ≤ 32 := by clear * -; decide +revert)
    (hA : ∀ f ∈ A, f.disj g = true := by clear * -; decide +revert) : s.getS g = u.getS g :=
  congrArg (toSigned g.w) (h.kept g hg hA)

theorem ButFor.bit (g : Fld) (i : Nat) (hg : g.lo + g.w ≤ 32 := by clear * -; decide +revert)
    (hA : ∀ f ∈ A, f.disj g = true := by clear * -; decide +revert) : s.bit g i = u.bit g i :=
  congrArg (bitAt · i) (h.kept g hg hA)

theorem ButFor.modChan (c : IsnsCh) (f : IsnsChan → IsnsChan) : ButFor A u (s.modChan c f) := h.upd rfl rfl rfl

end

/-! ## Channel by channel -/

/-- An operation on each channel in turn, whose step at a channel acts on that channel's view alone, acts on every view as its own step
does. -/
theorem foldl_channels {β : Type} {view : State → IsnsCh → β} {g : State → IsnsCh → State} {F : IsnsCh → β → β}
    (same : ∀ t c, view (g t c) c = F c (view t c)) (other : ∀ t c d, c ≠ d → view (g t c) d = view t d) (s : State) (c : IsnsCh) :
    view ((List.finRange 4).foldl g s) c = F c (view s c) := by
  have hall : ∀ (l : List IsnsCh) (t : State), l.Nodup → view (l.foldl g t) c = if c ∈ l then F c (view t c) else view t c := by
    intro l
    induction l with
    | nil => exact fun _ _ => rfl
    | cons d l ih =>
      intro t hl
      obtain ⟨hd, hl⟩ := List.nodup_cons.mp hl
      rw [List.foldl_cons, ih _ hl]
      by_cases hcd : d = c
      · subst hcd
        rw [if_neg hd, if_pos List.mem_cons_self, same]
      · rw [other _ _ _ hcd]
        simp [List.mem_cons, Ne.symm hcd]
  rw [hall _ s (List.nodup_finRange 4), if_pos (List.mem_finRange c)]

/-- The inner state of one channel of several, each changed by its own function. -/
theorem foldl_modChan {f : IsnsCh → IsnsChan → IsnsChan} (s : State) (c : IsnsCh) :
    ((List.finRange 4).foldl (fun s c => s.modChan c (f c)) s).isnsC[c.val] = f c s.isnsC[c.val] :=
  foldl_channels (view := fun s (c : IsnsCh) => s.isnsC[c.val]) (fun _ _ => upd_same _ _ _) (fun _ _ _ hcd => upd_other _ _ hcd) s c

/-- Beside the channels nothing changes with them. -/
theorem foldl_modChan_keeps {α : Type} {π : State → α} (h : ∀ s c f, π (State.modChan s c f) = π s) (f : IsnsCh → IsnsChan → IsnsChan)
    (s : State) : π ((List.finRange 4).foldl (fun s c => s.modChan c (f c)) s) = π s :=
  foldl_keeps (f := fun s c => s.modChan c (f c)) (fun s c => h s c (f c)) _ s

end Sys2Proof.Machine
end

section
/-!
SUPPORT. Mean windows (R197, R662) and V's comparisons of currents, VMOT and rails (R197, R361, R637).
-/
namespace Sys2Proof.Machine

/-! ## Mean windows -/

/-- A channel whose mean window has ended: what it collected is set aside. -/
def chanSetAside (k : IsnsChan) : IsnsChan :=
  { k with
    sum := 0, num := 0, oldSum := k.oldSum + k.sum, oldNum := k.oldNum + k.num, vSum := 0, vNum := 0,
    vOldSum := k.vOldSum + k.vSum, vOldNum := k.vOldNum + k.vNum }

theorem meanEnd_eq (s : State) :
    meanEnd s = ((List.finRange 4).foldl (fun s (c : IsnsCh) => s.modChan c chanSetAside) s).modDriver (fun d =>
      { d with vmotSum := 0, vmotNum := 0, vmotOldSum := d.vmotSum, vmotOldNum := d.vmotNum }) := rfl

theorem meanEnd_isnsC (s : State) (c : IsnsCh) : (meanEnd s).isnsC[c.val] = chanSetAside s.isnsC[c.val] := by
  rw [meanEnd_eq, State.modDriver_isnsC]
  exact foldl_modChan s c

theorem meanEnd_regs (s : State) : (meanEnd s).regs = s.regs := by
  rw [meanEnd_eq, State.modDriver_regs]
  exact foldl_modChan_keeps (fun _ _ _ => rfl) _ s

theorem meanEnd_mem (s : State) : (meanEnd s).mem = s.mem := by
  rw [meanEnd_eq, State.modDriver_mem]
  exact foldl_modChan_keeps (fun _ _ _ => rfl) _ s

theorem meanEnd_driver (s : State) :
    (meanEnd s).driver = { s.driver with vmotSum := 0, vmotNum := 0, vmotOldSum := s.driver.vmotSum, vmotOldNum := s.driver.vmotNum } := by
  have hchannels : ((List.finRange 4).foldl (fun s (c : IsnsCh) => s.modChan c chanSetAside) s).driver = s.driver :=
    foldl_modChan_keeps (fun _ _ _ => rfl) _ s
  rw [meanEnd_eq, State.modDriver_driver, hchannels]

/-- What a publication writes of one channel: MEAN and EMPTY. -/
def meanShown (c : IsnsCh) (s : State) : State :=
  if s.isnsC[c.val].oldNum = 0 then s.putBit F.ISNS_MSEQ_EMPTY c true
  else ((s.putS (F.ISNS_MEAN_MEAN c) (s.roundFree s.isnsC[c.val].oldSum s.isnsC[c.val].oldNum)).drew).putBit F.ISNS_MSEQ_EMPTY c false

/-- A channel whose mean is published begins a new set aside; V's mean of the same window goes with it. -/
def chanPublished (k : IsnsChan) : IsnsChan :=
  { k with oldSum := 0, oldNum := 0, vOldSum := 0, vOldNum := 0, vPubSum := k.vOldSum, vPubNum := k.vOldNum }

theorem publishChannel_eq (s : State) (c : IsnsCh) : publishChannel s c = (meanShown c s).modChan c chanPublished := rfl

theorem meanShown_isnsC (c : IsnsCh) (s : State) : (meanShown c s).isnsC = s.isnsC := ite_keeps rfl rfl
theorem publishChannel_mem (s : State) (c : IsnsCh) : (publishChannel s c).mem = s.mem := by
  rw [publishChannel_eq, State.modChan_mem]
  exact ite_keeps rfl rfl

theorem publishChannel_isnsC (s : State) (c : IsnsCh) : (publishChannel s c).isnsC = upd s.isnsC c chanPublished := by
  rw [publishChannel_eq, State.modChan_isnsC, meanShown_isnsC]

theorem meanShown_empty (c : IsnsCh) (s : State) :
    (meanShown c s).bit F.ISNS_MSEQ_EMPTY c = decide (s.isnsC[c.val].oldNum = 0) := by
  unfold meanShown
  split
  · rw [State.bit_putBit_same _ _ c.isLt (by decide), decide_eq_true ‹_›]
  · rw [State.bit_putBit_same _ _ c.isLt (by decide), decide_eq_false ‹_›]

theorem meanShown_empty_other {c d : IsnsCh} (h : c ≠ d) (s : State) :
    (meanShown c s).bit F.ISNS_MSEQ_EMPTY d = s.bit F.ISNS_MSEQ_EMPTY d := by
  have hother : ∀ (t : State) (v : Bool), (t.putBit F.ISNS_MSEQ_EMPTY c v).bit F.ISNS_MSEQ_EMPTY d = t.bit F.ISNS_MSEQ_EMPTY d :=
    fun t v => State.bit_putBit_other t v (fun e => h (Fin.ext e.symm)) d.isLt (by decide)
  have hmean : ∀ c : IsnsCh, (F.ISNS_MEAN_MEAN c).disj F.ISNS_MSEQ_EMPTY = true := by decide
  refine ite_keeps (π := fun s : State => s.bit F.ISNS_MSEQ_EMPTY d) (hother s true) ((hother _ false).trans ?_)
  exact State.bit_put_disj s _ _ _ _ (by decide) (hmean c)

theorem butFor_meanShown (c : IsnsCh) (s : State) : ButFor [F.ISNS_MSEQ_EMPTY, F.ISNS_MEAN_MEAN c] s (meanShown c s) :=
  ButFor.ite ((ButFor.refl s).putBit (by simp) _ _) ((((ButFor.refl s).putS (by simp) _).drew).putBit (by simp) _ _)

theorem publishChannel_mseq (s : State) (c : IsnsCh) : (publishChannel s c).get F.ISNS_MSEQ_MSEQ = s.get F.ISNS_MSEQ_MSEQ := by
  rw [publishChannel_eq, State.modChan_get]
  exact (butFor_meanShown c s).get F.ISNS_MSEQ_MSEQ

/-- A publication of the four channels marks those that collected nothing. -/
theorem publishAll_empty (s : State) (c : IsnsCh) :
    ((List.finRange 4).foldl publishChannel s).bit F.ISNS_MSEQ_EMPTY c = decide (s.isnsC[c.val].oldNum = 0) := by
  have hviews := foldl_channels (g := publishChannel) (view := fun s (c : IsnsCh) => (s.isnsC[c.val], s.bit F.ISNS_MSEQ_EMPTY c))
    (F := fun _ v => (chanPublished v.1, decide (v.1.oldNum = 0))) ?_ ?_ s c
  · exact congrArg Prod.snd hviews
  · intro t c
    rw [publishChannel_isnsC, upd_same]
    exact congrArg (Prod.mk _) (meanShown_empty c t)
  · intro t c d hcd
    rw [publishChannel_isnsC, upd_other _ _ hcd]
    exact congrArg (Prod.mk _) (meanShown_empty_other hcd t)

theorem publishAll_mseq (s : State) : ((List.finRange 4).foldl publishChannel s).get F.ISNS_MSEQ_MSEQ = s.get F.ISNS_MSEQ_MSEQ :=
  foldl_keeps (π := fun s : State => s.get F.ISNS_MSEQ_MSEQ) (f := publishChannel) (fun s c => publishChannel_mseq s c) _ s

theorem meanPublished_spec (s : State) :
    (meanPublished s).get F.ISNS_MSEQ_MSEQ = (s.get F.ISNS_MSEQ_MSEQ + 1) % 2 ^ F.ISNS_MSEQ_MSEQ.w ∧
      Irq.meanWindow ∈ (meanPublished s).irqs ∧
      (∀ c : IsnsCh, (meanPublished s).bit F.ISNS_MSEQ_EMPTY c = decide (s.isnsC[c.val].oldNum = 0)) ∧ (meanPublished s).mem = s.mem := by
  refine ⟨?_, State.mem_irqs_raise _ _, fun c => ?_, ?_⟩
  · rw [meanPublished, State.raise_get, State.inc_eq, State.get_put_same _ _ _ (by decide), publishAll_mseq]
  · rw [meanPublished, State.bit, State.raise_get, State.inc_eq, State.get_put_apart _ F.ISNS_MSEQ_MSEQ F.ISNS_MSEQ_EMPTY]
    exact publishAll_empty s c
  · rw [meanPublished, State.raise_mem, State.inc_eq, State.put_mem]
    exact foldl_keeps (f := publishChannel) publishChannel_mem _ s

/-! ## V's comparisons -/

/-- What V does while it runs. -/
theorem byV_of_running {s : State} (h : issues s .v = true) (o : Out) : byV s o = o := if_pos h

theorem compareChannel_of_uncompared {s : State} {c : IsnsCh} (h : compared s c = false) (m : Int) : compareChannel s c m = s := by
  simp [compareChannel, h]

/-- A channel that V compares and finds within the tolerance. -/
structure Agrees (s : State) (c : IsnsCh) (m : Int) : Prop where
  compared : compared s c = true
  shown : s.bit F.ISNS_MSEQ_EMPTY c = false
  near : (4 * (vMean s c m).2 * s.getS (F.ISNS_MEAN_MEAN c) -
    (if s.on (F.ISNS_CHCFG_INV c) then -(vMean s c m).1 else (vMean s c m).1)).natAbs ≤ s.get F.SAFE_ICMP_TOL * 512 * (vMean s c m).2

/-- A channel whose count of failures begins anew. -/
def chanCleared (k : IsnsChan) : IsnsChan := { k with vfails := 0 }

theorem compareChannel_of_agrees {s : State} {c : IsnsCh} {m : Int} (h : Agrees s c m) :
    compareChannel s c m = s.modChan c chanCleared := by
  have hnear := Nat.not_lt.mpr h.near
  simp only [compareChannel, h.compared, h.shown, Bool.not_true, Bool.or_self, Bool.false_eq_true, if_false, if_neg hnear]
  rfl

/-- V's own mean stands beside the counts of failures. -/
theorem vMean_modChan_cleared (s : State) (d c : IsnsCh) (m : Int) : vMean (s.modChan d chanCleared) c m = vMean s c m := by
  have hown : (upd s.isnsC d chanCleared)[c.val].vPubSum = s.isnsC[c.val].vPubSum ∧
      (upd s.isnsC d chanCleared)[c.val].vPubNum = s.isnsC[c.val].vPubNum := by
    by_cases hdc : d = c
    · subst hdc
      rw [upd_same]
      exact ⟨rfl, rfl⟩
    · rw [upd_other _ _ hdc]
      exact ⟨rfl, rfl⟩
  simp only [vMean, State.modChan_on, State.modChan_isnsC, hown]

theorem Agrees.modChan {s : State} {c : IsnsCh} {m : Int} (h : Agrees s c m) (d : IsnsCh) : Agrees (s.modChan d chanCleared) c m where
  compared := h.compared
  shown := h.shown
  near := by
    rw [vMean_modChan_cleared]
    exact h.near

theorem compareCurrents_of_agrees {s : State} {m : IsnsCh → Int} (h : ∀ c, Agrees s c (m c)) :
    compareCurrents (m 0) (m 1) (m 2) (m 3) s = (List.finRange 4).foldl (fun s c => s.modChan c chanCleared) s := by
  rw [compareCurrents, compareChannel_of_agrees (h 0), compareChannel_of_agrees ((h 1).modChan 0),
    compareChannel_of_agrees (((h 2).modChan 0).modChan 1), compareChannel_of_agrees ((((h 3).modChan 0).modChan 1).modChan 2)]
  rfl

theorem compareCurrents_of_uncompared {s : State} (h : ∀ c : IsnsCh, compared s c = false) (a b c d : Int) :
    compareCurrents a b c d s = s := by
  rw [compareCurrents, compareChannel_of_uncompared (h 0), compareChannel_of_uncompared (h 1), compareChannel_of_uncompared (h 2),
    compareChannel_of_uncompared (h 3)]

/-- How far V's VMOT lies from the mean of the window, in parts of the number of its values. -/
def vmotOff (s : State) (v : Nat) : Nat := (((v * s.driver.vmotOldNum : Nat) : Int) - (s.driver.vmotOldSum : Nat)).natAbs

theorem compareVmot_of_near {s : State} {v : Nat} (hnum : s.driver.vmotOldNum ≠ 0)
    (h : vmotOff s v ≤ s.get F.VBUS_VCMP_VTOL * 5 * s.driver.vmotOldNum) :
    compareVmot v s = s.modDriver (fun d => { d with vmotFails := 0 }) :=
  (if_neg hnum).trans (if_neg (Nat.not_lt.mpr h))

theorem compareVmot_of_second {s : State} {v : Nat} (hnum : s.driver.vmotOldNum ≠ 0)
    (h : s.get F.VBUS_VCMP_VTOL * 5 * s.driver.vmotOldNum < vmotOff s v) (hfails : 1 ≤ s.driver.vmotFails) :
    compareVmot v s = setCut causeVmis ((s.modDriver (fun d => { d with vmotFails := d.vmotFails + 1 })).put F.VBUS_STAT_VMIS 1) :=
  (if_neg hnum).trans ((if_pos h).trans (if_pos (Nat.succ_le_succ hfails)))

theorem railCheck_of_good {a b c d : Nat} (ha : 3000 ≤ a ∧ a ≤ 3600) (hb : 3000 ≤ b ∧ b ≤ 3600) (hc : 2450 ≤ c ∧ c ≤ 2550)
    (hd : 1176 ≤ d ∧ d ≤ 1224) (s : State) : railCheck a b c d s = s.modSafe (fun x => { x with railFails := 0 }) := by
  simp only [railCheck, ha, hb, hc, hd, and_self, decide_true, Bool.and_self, if_true]

theorem railCheck_of_second {a b c d : Nat} {s : State}
    (h : a < 3000 ∨ 3600 < a ∨ b < 3000 ∨ 3600 < b ∨ c < 2450 ∨ 2550 < c ∨ d < 1176 ∨ 1224 < d) (hfails : s.safe.railFails = 1) :
    railCheck a b c d s = setCut causeVsw (s.modSafe (fun x => { x with railFails := x.railFails + 1 })) := by
  have hbad : (decide (3000 ≤ a ∧ a ≤ 3600) && decide (3000 ≤ b ∧ b ≤ 3600) && decide (2450 ≤ c ∧ c ≤ 2550)
      && decide (1176 ≤ d ∧ d ≤ 1224)) = false := by
    rw [Bool.eq_false_iff]
    simp only [ne_eq, Bool.and_eq_true, decide_eq_true_eq]
    omega
  have htwice : 2 ≤ (s.modSafe (fun x => { x with railFails := x.railFails + 1 })).safe.railFails := by
    rw [State.modSafe_safe, hfails]
  rw [railCheck, hbad, if_neg Bool.false_ne_true]
  exact if_pos htwice

end Sys2Proof.Machine

open Sys2Proof Sys2Proof.Machine in
/-- Settles O27: the end of a mean window and its publication act on each channel by itself (`foldl_channels`), and V's comparisons follow
their tolerance and the count of failures before. -/
theorem meanWindowsAndComparisons : Obligations.MeanWindowsAndComparisons := by
  refine ⟨?_, ?_, ?_, ?_, ?_, ?_, ?_, ?_, ?_, ?_⟩
  case refine_1 =>
    intro s hruns hmultiple
    refine ⟨meanEnd s, (clockedOut_of_running hruns _).trans (congrArg _ (if_pos hmultiple)), meanEnd_regs s, meanEnd_mem s,
      fun c => ?_, ?_⟩
    · rw [meanEnd_isnsC]
      exact ⟨rfl, rfl, rfl, rfl⟩
    · rw [meanEnd_driver]
      exact ⟨rfl, rfl, rfl⟩
  case refine_2 =>
    exact fun s hruns hbetween => (clockedOut_of_running hruns _).trans (congrArg _ (if_neg hbetween))
  case refine_3 =>
    exact fun s hruns => ⟨_, clockedOut_of_running hruns _, meanPublished_spec s⟩
  case refine_4 =>
    exact fun s a b c d hv hnone => (byV_of_running hv _).trans (congrArg _ (compareCurrents_of_uncompared hnone a b c d))
  case refine_5 =>
    intro s m hv hcompared hnear
    have hagrees : ∀ c, Agrees s c (m c) := fun c => ⟨(hcompared c).1, (hcompared c).2, hnear c⟩
    exact ⟨_, (byV_of_running hv _).trans (congrArg _ (compareCurrents_of_agrees hagrees)), foldl_modChan s,
      foldl_modChan_keeps (fun _ _ _ => rfl) _ s, foldl_modChan_keeps (fun _ _ _ => rfl) _ s⟩
  case refine_6 =>
    exact fun s v hv hnum hnear => (byV_of_running hv _).trans (congrArg _ (compareVmot_of_near hnum hnear))
  case refine_7 =>
    exact fun s v hv hnum hfar hfails => (byV_of_running hv _).trans (congrArg _ (compareVmot_of_second hnum hfar hfails))
  case refine_8 =>
    exact fun s a b c d hv ha hb hc hd => (byV_of_running hv _).trans (congrArg _ (railCheck_of_good ha hb hc hd s))
  case refine_9 =>
    exact fun s a b c d hv hbad hfails => (byV_of_running hv _).trans (congrArg _ (railCheck_of_second hbad hfails))
  case refine_10 =>
    exact fun s hs => ⟨clockedOut_of_stopped hs _, clockedOut_of_stopped hs _⟩
end

section
/-!
SUPPORT. What the end of a sample window sets off in other blocks (R188, R194, R285, R309, R322): the clamp, a channel reported invalid, the
current estimator and the window's trigger, and what each of these leaves alone.
-/
namespace Sys2Proof.Machine

/-! ## Beside the registers -/

namespace FailoverFree
variable {α : Type} {π : State → α} (h : FailoverFree π)
include h

theorem mcOut (b : Bridge) (s : State) : π (mcOut b s) = π s :=
  (h.requestShort b _ _).trans ((h.joinedDrop _).trans ((h.setMode b _ _).trans (h.clearEstimators b s)))

theorem mcOverVoltage (b : Bridge) (s : State) : π (mcOverVoltage b s) = π s :=
  (ite_keeps (h.degrade _) (ite_keeps (h.withdraw 1 _) rfl)).trans (h.mcOut b s)

theorem mcCurrentInvalid (b : Bridge) (s : State) : π (mcCurrentInvalid b s) = π s := ite_keeps rfl (h.mcOverVoltage b s)

end FailoverFree

/-- A part of the state that the results of a window do not reach: one that the failover unit does not reach, with no engine, no channel's sums,
no free value and nothing of G's. -/
structure ResultFree {α : Type} (π : State → α) : Prop extends FailoverFree π where
  eng : ∀ s x, π { s with eng := x } = π s
  isnsC : ∀ s x, π { s with isnsC := x } = π s
  fresh : ∀ s x, π { s with fresh := x } = π s
  bkg : ∀ s x, π { s with bkg := x } = π s

theorem resultFree_isnsB : ResultFree State.isnsB :=
  { regs := fun _ _ => rfl, gate := fun _ _ => rfl, mc := fun _ _ _ => rfl, blocks := fun _ _ => rfl, ang := fun _ _ => rfl, mem := fun _ _ => rfl,
    cont := fun _ _ => rfl, lines := fun _ _ => rfl, ebp := fun _ _ => rfl, eng := fun _ _ => rfl, isnsC := fun _ _ => rfl,
    fresh := fun _ _ => rfl, bkg := fun _ _ => rfl }

theorem resultFree_laneTimer : ResultFree laneTimer :=
  { regs := fun _ _ => rfl, gate := fun _ _ => rfl, mc := fun _ _ _ => rfl, blocks := fun _ _ => rfl, ang := fun _ _ => rfl, mem := fun _ _ => rfl,
    cont := fun _ _ => rfl, lines := fun _ _ => rfl, ebp := fun _ _ => rfl, eng := fun _ _ => rfl, isnsC := fun _ _ => rfl,
    fresh := fun _ _ => rfl, bkg := fun _ _ => rfl }

namespace ResultFree
variable {α : Type} {π : State → α} (h : ResultFree π)
include h

theorem count (s : State) (f g : Fld) : π (s.count f g) = π s := ite_keeps (h.put s _ _) (h.put s _ _)

theorem triggerTo (eng : Nat) (o : Originator) (ep : Nat) (s : State) : π (triggerTo eng o ep s) = π s := by
  unfold Machine.triggerTo
  split
  · exact ite_keeps rfl (ite_keeps ((h.count _ _ _).trans (h.put s _ _)) (h.eng s _))
  · rfl

theorem windowTrigger (b : Bridge) (p : Fin 4) (s : State) : π (windowTrigger b p s) = π s :=
  ite_keeps ((h.triggerTo _ _ _ _).trans (ite_keeps ((h.countBit _ _ _ _).trans (h.put s _ _)) rfl)) rfl

theorem estimatorSample (b : Bridge) (theta ts : Nat) (rate : Int) (s : State) : π (estimatorSample b theta ts rate s) = π s :=
  (ite_keeps (h.ang _ _) rfl).trans (h.put s _ _)

theorem recaptureCheck (b : Bridge) (theta : Nat) (rate : Int) (s : State) : π (recaptureCheck b theta rate s) = π s :=
  (ite_keeps (ite_keeps (h.enterSixstep b _ _) (h.positionLost b _)) rfl).trans (h.blocks s _)

theorem currentEstimate (b : Bridge) (inst : Nat) (i1 i2 : Int) (s : State) : π (currentEstimate b inst i1 i2 s) = π s := by
  have hhist : ∀ f, π (s.modMc b f) = π s := fun f => h.blocks s _
  refine ite_keeps rfl (ite_keeps (hhist _) ?_)
  dsimp only
  split
  · exact hhist _
  · exact (h.recaptureCheck b _ _ _).trans ((h.estimatorSample b _ _ _ _).trans (hhist _))

theorem clampBegin (b : Bridge) (s : State) : π (clampBegin b s) = π s :=
  (h.blocks _ _).trans ((h.put _ _ _).trans (ite_keeps rfl (h.countBit s _ _ _)))

theorem signalInvalid (b : Bridge) (s : State) : π (signalInvalid b s) = π s := ite_keeps (h.mcCurrentInvalid b s) rfl

end ResultFree

/-! ## The registers -/

/-- What the use of a window's results changes: the mode of an MC block and what follows from it, the clamp shown and counted, the estimator's
speed, and the triggers dropped. -/
def useFlds : List Fld :=
  failoverFlds ++ presentedFlds ++ [F.ISNS_STAT_TDROP, F.ISNS_DROPCNT_TDCNT, F.ISNS_DROPCNT_OVF] ++
    (List.finRange 2).flatMap fun b : Bridge => [F.MC_STAT_CLAMP b, F.MC_CNT_CLPCNT b, F.MC_CNT_OVF b, F.MC_ESTSPD_ESTSPD b]

theorem failoverFlds_sub_useFlds : ∀ f ∈ failoverFlds, f ∈ useFlds := fun f hf => by simp [useFlds, hf]
theorem presentedFlds_sub_useFlds : ∀ f ∈ presentedFlds, f ∈ useFlds := fun f hf => by simp [useFlds, hf]
theorem outFlds_sub_useFlds (b : Bridge) : ∀ f ∈ outFlds b, f ∈ useFlds := fun f hf =>
  failoverFlds_sub_useFlds f ((failoverFlds_of_bridge b).2.2.2 f hf)
theorem clampFlds_mem_useFlds : ∀ b : Bridge, F.MC_STAT_CLAMP b ∈ useFlds ∧ F.MC_CNT_CLPCNT b ∈ useFlds ∧ F.MC_CNT_OVF b ∈ useFlds ∧
    F.MC_ESTSPD_ESTSPD b ∈ useFlds := by
  decide

theorem butFor_mcCurrentInvalid {A : List Fld} {u s : State} (h : ButFor A u s) (b : Bridge) (hA : ∀ f ∈ outFlds b, f ∈ A) :
    ButFor A u (mcCurrentInvalid b s) :=
  ButFor.ite h (butFor_mcOverVoltage h b hA)

section
variable {u s : State} (h : ButFor useFlds u s)
include h

theorem butFor_triggerTo (eng : Nat) (o : Originator) (ep : Nat) : ButFor useFlds u (triggerTo eng o ep s) := by
  unfold triggerTo
  split
  · exact h.trans ((butFor_triggerArrive (.refl s) _ o _).mono presentedFlds_sub_useFlds)
  · exact h

theorem butFor_windowTrigger (b : Bridge) (p : Fin 4) : ButFor useFlds u (windowTrigger b p s) :=
  ButFor.ite (butFor_triggerTo (h.when ((h.put (by simp [useFlds]) 1).countBit (by simp [useFlds]) (by simp [useFlds]) 2) _) _ _ _) h

theorem butFor_estimatorSample (b : Bridge) (theta ts : Nat) (rate : Int) : ButFor useFlds u (estimatorSample b theta ts rate s) :=
  have hshown := h.putS (clampFlds_mem_useFlds b).2.2.2 rate
  ButFor.ite (hshown.modAng b _) hshown

theorem butFor_positionLost (b : Bridge) : ButFor useFlds u (positionLost b s) :=
  have hout := butFor_mcOut h b (outFlds_sub_useFlds b)
  ButFor.ite (butFor_withdraw hout (withdrawFlds_of_outFlds (outFlds_sub_useFlds b)) 1) hout

theorem butFor_recaptureCheck (b : Bridge) (theta : Nat) (rate : Int) : ButFor useFlds u (recaptureCheck b theta rate s) := by
  have hnoted : ∀ f, ButFor useFlds u (s.modMc b f) := fun f => h.modMc b f
  exact ButFor.ite (ButFor.ite ((hnoted _).trans ((butFor_enterSixstep (.refl _) b _).mono failoverFlds_sub_useFlds))
    (butFor_positionLost (hnoted _) b)) (hnoted _)

theorem butFor_currentEstimate (b : Bridge) (inst : Nat) (i1 i2 : Int) : ButFor useFlds u (currentEstimate b inst i1 i2 s) := by
  have hhist : ∀ f, ButFor useFlds u (s.modMc b f) := fun f => h.modMc b f
  refine ButFor.ite h (ButFor.ite (hhist _) ?_)
  dsimp only
  split
  · exact hhist _
  · exact butFor_recaptureCheck (butFor_estimatorSample (hhist _) b _ _ _) b _ _

theorem butFor_clampBegin (b : Bridge) : ButFor useFlds u (clampBegin b s) := by
  obtain ⟨hshown, hcount, hovf, -⟩ := clampFlds_mem_useFlds b
  exact ((ButFor.ite h (h.countBit hcount hovf 1)).put hshown 1).modMc b _

theorem butFor_signalInvalid (b : Bridge) : ButFor useFlds u (signalInvalid b s) :=
  ButFor.ite (butFor_mcCurrentInvalid h b (outFlds_sub_useFlds b)) h

end

end Sys2Proof.Machine
end

section
/-!
SUPPORT. Sample windows (R184 to R189, R194): a window action, the results of a window as the registers show them, and the window queued behind it.
-/
namespace Sys2Proof.Machine

/-! ## A window action (R184, R186) -/

theorem calAbort_of_idle {s : State} {b : Bridge} (h : s.bit F.ISNS_STAT_CALBUSY b = false) : calAbort b s = s := by
  rw [calAbort, h]
  rfl

/-- The instant at which a window opened now begins: the next edge of the modulator clock, in lane-timer ticks. -/
def nextEdge (s : State) (b : Bridge) : Nat := (laneTimer s + modClock s b - 1) / modClock s b * modClock s b

theorem nextEdge_congr {s t : State} {b : Bridge} (hext : t.on (extFld b) = s.on (extFld b))
    (hclk : t.on F.ISNS_CTRL_MCLK10 = s.on F.ISNS_CTRL_MCLK10) (htimer : laneTimer t = laneTimer s) : nextEdge t b = nextEdge s b := by
  have hclock : modClock t b = modClock s b := by rw [modClock, hext, hclk, modClock]
  rw [nextEdge, hclock, htimer, nextEdge]

theorem openNow_isnsB (b : Bridge) (p : Fin 4) (s : State) :
    (openNow b p s).isnsB[b.val] = { s.isnsB[b.val] with win := some (p, nextEdge s b) } := upd_same _ b _

theorem openNow_bit (b : Bridge) (p : Fin 4) (s : State) (f : Fld) (i : Nat) : (openNow b p s).bit f i = s.bit f i := rfl
theorem openNow_rd (b : Bridge) (p : Fin 4) (s : State) (a : Nat) : (openNow b p s).rd a = s.rd a := rfl
theorem openNow_mem (b : Bridge) (p : Fin 4) (s : State) : (openNow b p s).mem = s.mem := rfl

section
variable {s : State} {b : Bridge} (hfree : s.bit F.ISNS_STAT_CALBUSY b = false) (hen : isnsEnabled s b = true)
include hfree hen

theorem windowAction_opens (p : Fin 4) (hwin : s.isnsB[b.val].win = none) : windowAction b p s = openNow b p s := by
  simp [windowAction, calAbort_of_idle hfree, hen, hwin]

theorem windowAction_queues (p : Fin 4) {w : Fin 4 × Nat} (hwin : s.isnsB[b.val].win = some w) (hq : s.isnsB[b.val].queued = none) :
    windowAction b p s = s.modBridge b (fun x => { x with queued := some p }) := by
  simp [windowAction, calAbort_of_idle hfree, hen, hwin, hq]

theorem windowAction_drops (p : Fin 4) {q : Fin 4} {w : Fin 4 × Nat} (hwin : s.isnsB[b.val].win = some w)
    (hq : s.isnsB[b.val].queued = some q) :
    windowAction b p s = (s.putBit F.ISNS_STAT_WDROP b true).countBit (dropFld b) F.ISNS_DROPCNT_OVF b := by
  simp [windowAction, calAbort_of_idle hfree, hen, hwin, hq]

end

/-! ## One channel's result (R187, R189 to R191, R194) -/

/-- What a result changes beside itself: the channel's marks and counts, and RANGE of the MC block. -/
def markFlds (c : IsnsCh) : List Fld :=
  [F.ISNS_STAT_SAT, F.ISNS_CNT_SATCNT c, F.ISNS_CNT_SATOVF c, F.ISNS_STAT_RANGE, F.ISNS_CNT_RNGCNT c, F.ISNS_CNT_RNGOVF c,
    F.MC_STAT_RANGE (chanBridge c), F.ISNS_STAT_VALID]

section
variable {A : List Fld} {u s : State} (h : ButFor A u s) (c : IsnsCh) (hA : ∀ f ∈ markFlds c, f ∈ A)
include h

theorem butFor_vDecimate (x : Int) (den : Nat) (old : Bool) : ButFor A u (vDecimate c x den old s) := ButFor.ite (h.modChan c _) h

include hA

theorem butFor_countSat : ButFor A u (countSat c s) :=
  (h.putBit (hA _ (by simp [markFlds])) _ _).count (hA _ (by simp [markFlds])) (hA _ (by simp [markFlds]))

theorem butFor_countClip (bits : List Bool) : ButFor A u (countClip c bits s) :=
  ButFor.ite ((h.putBit (hA _ (by simp [markFlds])) _ _).modChan c _) (butFor_countSat h c hA)

end

/-- The result clipped is written first; the rest of a channel's result leaves it. -/
theorem butFor_channelResult (c : IsnsCh) (n : Nat) (bits : List Bool) (inst : Nat) (s : State) :
    ButFor (markFlds c) (s.putS (F.ISNS_CHRES_RES c) (clipSigned 20 (corrected s c (sinc3 n bits) (n ^ 3))))
      (channelResult c n bits inst s) := by
  unfold channelResult
  extract_lets b x v r good written clipped old counted decimated ranged moved
  have hwritten : ButFor (markFlds c) (s.putS (F.ISNS_CHRES_RES c) r) written := (ButFor.refl _).upd rfl rfl rfl
  have hclipped : ButFor (markFlds c) _ clipped := hwritten.when (butFor_countClip hwritten c (fun _ => id) bits) _
  have hdecimated : ButFor (markFlds c) _ decimated := butFor_vDecimate (hclipped.modChan c _) c x _ old
  have hranged : ButFor (markFlds c) _ ranged := hdecimated.when
    (((hdecimated.putBit (by simp [markFlds]) _ _).count (by simp [markFlds]) (by simp [markFlds])).put (by simp [markFlds, b]) 1) _
  have hmoved : ButFor (markFlds c) _ moved := ButFor.ite (hranged.modChan c _) hranged
  exact ButFor.ite ((hmoved.putBit (by simp [markFlds]) _ _).modChan c _) hmoved

/-- Beside the registers and the channels' sums a result changes nothing. -/
theorem ResultFree.channelResult {α : Type} {π : State → α} (h : ResultFree π) (c : IsnsCh) (n : Nat) (bits : List Bool) (inst : Nat)
    (s : State) : π (channelResult c n bits inst s) = π s := by
  have hchan : ∀ t f, π (State.modChan t c f) = π t := fun t f => h.isnsC t _
  have hsat : ∀ t, π (countSat c t) = π t := fun t => (h.count _ _ _).trans (h.put t _ _)
  unfold Machine.channelResult
  extract_lets b x v r good written clipped old counted decimated ranged moved
  have hwritten : π written = π s := (h.put _ _ _).trans (h.fresh s _)
  have hclipped : π clipped = π s :=
    (ite_keeps (ite_keeps ((hchan _ _).trans (h.put _ _ _)) (hsat _)) rfl).trans hwritten
  have hdecimated : π decimated = π s := (ite_keeps (hchan _ _) rfl).trans ((hchan _ _).trans hclipped)
  have hranged : π ranged = π s := (ite_keeps ((h.put _ _ _).trans ((h.count _ _ _).trans (h.put _ _ _))) rfl).trans hdecimated
  have hmoved : π moved = π s := (ite_keeps (hchan _ _) rfl).trans hranged
  exact (ite_keeps ((hchan _ _).trans (h.put _ _ _)) rfl).trans hmoved

/-- A value of a channel, before its clip, within one unit of the filter's output `x / den` corrected by the trims (R189, log entry 10). -/
def NearResult (s : State) (c : IsnsCh) (x : Int) (den : Nat) (v : Int) : Prop :=
  ((if s.on (F.ISNS_CHCFG_INV c) then -v else v) * (den * 32768 : Nat) -
    (x * 2 ^ 19 - s.getS (F.ISNS_CHTRIM_OFS c) * (den : Nat)) * (32768 + s.getS (F.ISNS_CHTRIM_GAIN c))).natAbs < den * 32768

theorem corrected_near (s : State) (c : IsnsCh) (x : Int) {den : Nat} (h : 0 < den) : NearResult s c x den (corrected s c x den) := by
  have hround := s.roundFree_near
    ((x * 2 ^ 19 - s.getS (F.ISNS_CHTRIM_OFS c) * den) * (32768 + s.getS (F.ISNS_CHTRIM_GAIN c))) (den := den * 32768) (by omega)
  unfold NearResult corrected
  split
  · rwa [neg_neg]
  · exact hround

/-- The configuration and trims of a channel decide its correction. -/
theorem NearResult.congr {s t : State} {c : IsnsCh} {x v : Int} {den : Nat} (h : NearResult t c x den v)
    (hinv : t.on (F.ISNS_CHCFG_INV c) = s.on (F.ISNS_CHCFG_INV c)) (hofs : t.getS (F.ISNS_CHTRIM_OFS c) = s.getS (F.ISNS_CHTRIM_OFS c))
    (hgain : t.getS (F.ISNS_CHTRIM_GAIN c) = s.getS (F.ISNS_CHTRIM_GAIN c)) : NearResult s c x den v := by
  rwa [NearResult, hinv, hofs, hgain] at h

/-- The register of a channel holds a result with the value of a window's bitstream. -/
def ShowsResult (s : State) (c : IsnsCh) (n : Nat) (bits : List Bool) (t : State) : Prop :=
  ∃ v : Int, t.getS (F.ISNS_CHRES_RES c) = clipSigned 20 v ∧ NearResult s c (sinc3 n bits) (n ^ 3) v

theorem ShowsResult.of_getS {s t t' : State} {c : IsnsCh} {n : Nat} {bits : List Bool} (h : ShowsResult s c n bits t)
    (ht : t'.getS (F.ISNS_CHRES_RES c) = t.getS (F.ISNS_CHRES_RES c)) : ShowsResult s c n bits t' := by
  obtain ⟨v, hv, hnear⟩ := h
  exact ⟨v, ht.trans hv, hnear⟩

theorem channelResult_shows (c : IsnsCh) {n : Nat} (hn : 0 < n) (bits : List Bool) (inst : Nat) (s : State) :
    ShowsResult s c n bits (channelResult c n bits inst s) := by
  refine ⟨corrected s c (sinc3 n bits) (n ^ 3), ?_, corrected_near s c _ (Nat.pow_pos hn)⟩
  rw [(butFor_channelResult c n bits inst s).getS (F.ISNS_CHRES_RES c)]
  exact State.getS_putS_same s rfl (Nat.le_of_ble_eq_true rfl) (clipSigned_range 19 _)

/-! ## The results of a window (R181, R187) -/

/-- Both channels' results, phase 3 and SEQ. -/
def resultsWritten (b : Bridge) (n : Nat) (bits1 bits2 : List Bool) (inst : Nat) (s : State) : State :=
  (phase3 b (channelResult (chanOf b 1) n bits2 inst (channelResult (chanOf b 0) n bits1 inst s))).inc (seqFld b)

/-- What a channel's result changes. -/
def resultFlds (c : IsnsCh) : List Fld := F.ISNS_CHRES_RES c :: markFlds c

/-- What the results of a window change. -/
def writtenFlds (b : Bridge) : List Fld :=
  resultFlds (chanOf b 0) ++ resultFlds (chanOf b 1) ++ [F.ISNS_I3_I3 b, F.ISNS_STAT_I3SAT, seqFld b]

theorem butFor_channelResult_self (c : IsnsCh) (n : Nat) (bits : List Bool) (inst : Nat) (s : State) :
    ButFor (resultFlds c) s (channelResult c n bits inst s) :=
  ((ButFor.refl s).putS (by simp [resultFlds]) _).trans
    ((butFor_channelResult c n bits inst s).mono fun f hf => List.mem_cons_of_mem _ hf)

theorem butFor_phase3 (b : Bridge) (s : State) : ButFor [F.ISNS_I3_I3 b, F.ISNS_STAT_I3SAT] s (phase3 b s) := by
  have hwritten : ∀ v, ButFor [F.ISNS_I3_I3 b, F.ISNS_STAT_I3SAT] s (s.putS (F.ISNS_I3_I3 b) v) :=
    fun v => (ButFor.refl s).putS (by simp) v
  exact ButFor.ite ((hwritten _).put (f := F.ISNS_STAT_I3SAT) (by simp) 1) (hwritten _)

/-- Phase 3 is the negated sum of the two results, limited (R181). -/
theorem phase3_getS (b : Bridge) (s : State) :
    (phase3 b s).getS (F.ISNS_I3_I3 b) =
      clipSigned 20 (-(s.getS (F.ISNS_CHRES_RES (2 * b.val)) + s.getS (F.ISNS_CHRES_RES (2 * b.val + 1)))) := by
  have hflag : ∀ t : State, ∀ c, ButFor [F.ISNS_STAT_I3SAT] t (t.when c (fun s => s.put F.ISNS_STAT_I3SAT 1)) :=
    fun t c => (ButFor.refl t).when ((ButFor.refl t).put (by simp) 1) c
  exact ((hflag _ _).getS (F.ISNS_I3_I3 b)).trans (State.getS_putS_same s rfl (Nat.le_of_ble_eq_true rfl) (clipSigned_range 19 _))

theorem seqFld_spec : ∀ b : Bridge, (seqFld b).lo + (seqFld b).w ≤ 32 ∧ (seqFld b).w = 16 := by decide

theorem butFor_resultsWritten (b : Bridge) (n : Nat) (bits1 bits2 : List Bool) (inst : Nat) (s : State) :
    ButFor (writtenFlds b) s (resultsWritten b n bits1 bits2 inst s) := by
  have hfirst := (butFor_channelResult_self (chanOf b 0) n bits1 inst s).mono (B := writtenFlds b) (by simp +contextual [writtenFlds])
  have hsecond := hfirst.trans
    ((butFor_channelResult_self (chanOf b 1) n bits2 inst _).mono (B := writtenFlds b) (by simp +contextual [writtenFlds]))
  exact (hsecond.trans ((butFor_phase3 b _).mono (by simp [writtenFlds]))).inc (by simp [writtenFlds])

/-- The results of a window as the registers show them. -/
theorem resultsWritten_spec (b : Bridge) {n : Nat} (hn : 0 < n) (bits1 bits2 : List Bool) (inst : Nat) (s : State) :
    let t := resultsWritten b n bits1 bits2 inst s
    ShowsResult s (chanOf b 0) n bits1 t ∧ ShowsResult s (chanOf b 1) n bits2 t ∧
      t.getS (F.ISNS_I3_I3 b) =
        clipSigned 20 (-(t.getS (F.ISNS_CHRES_RES (2 * b.val)) + t.getS (F.ISNS_CHRES_RES (2 * b.val + 1)))) ∧
      t.get (seqFld b) = (s.get (seqFld b) + 1) % 65536 := by
  set s1 := channelResult (chanOf b 0) n bits1 inst s with hs1
  set s2 := channelResult (chanOf b 1) n bits2 inst s1 with hs2
  have hfirst : ButFor (resultFlds (chanOf b 0)) s s1 := butFor_channelResult_self _ _ _ _ _
  have hsecond : ButFor (resultFlds (chanOf b 1)) s1 s2 := butFor_channelResult_self _ _ _ _ _
  have hcounted : ButFor [F.ISNS_I3_I3 b, F.ISNS_STAT_I3SAT, seqFld b] s2 (resultsWritten b n bits1 bits2 inst s) :=
    ((butFor_phase3 b s2).mono (by simp)).inc (by simp)
  have hshow1 : ShowsResult s (chanOf b 0) n bits1 s1 := channelResult_shows _ hn _ _ _
  have hshow2 : ShowsResult s (chanOf b 1) n bits2 s2 := by
    obtain ⟨v, hv, hnear⟩ := channelResult_shows (chanOf b 1) hn bits2 inst s1
    exact ⟨v, hv, hnear.congr (hfirst.on _) (hfirst.getS _) (hfirst.getS _)⟩
  refine ⟨hshow1.of_getS ((hcounted.getS _).trans (hsecond.getS _)), hshow2.of_getS (hcounted.getS _), ?_, ?_⟩
  · rw [hcounted.getS (F.ISNS_CHRES_RES (2 * b.val)), hcounted.getS (F.ISNS_CHRES_RES (2 * b.val + 1)), ← phase3_getS b s2]
    exact ((ButFor.refl (phase3 b s2)).inc (A := [seqFld b]) (by simp)).getS (F.ISNS_I3_I3 b)
  · obtain ⟨hfits, hw⟩ := seqFld_spec b
    have hkept : (phase3 b s2).get (seqFld b) = s.get (seqFld b) :=
      ((butFor_phase3 b s2).get (seqFld b)).trans ((hsecond.get (seqFld b)).trans (hfirst.get (seqFld b)))
    rw [resultsWritten, State.inc_eq, State.get_put_same _ _ _ hfits, hw, ← hs1, ← hs2, hkept]
    rfl

/-- What other blocks make of the results: the clamp, a channel reported invalid, the current estimator, the trigger. -/
def resultsUsed (b : Bridge) (p : Fin 4) (inst : Nat) (s : State) : State :=
  let i1 := s.getS (F.ISNS_CHRES_RES (2 * b.val))
  let i2 := s.getS (F.ISNS_CHRES_RES (2 * b.val + 1))
  let i3 := s.getS (F.ISNS_I3_I3 b)
  let lim := s.get (F.MC_ICLAMP_ICLAMP b) * 2048
  let s := s.when (decide (lim < i1.natAbs ∨ lim < i2.natAbs ∨ lim < i3.natAbs)) (clampBegin b)
  let at_ := inst + s.sys.timer0
  windowTrigger b p (currentEstimate b at_ i1 i2 (signalInvalid b (phasesKept b ⟨at_, i1, i2, i3⟩ s)))

/-- The bridge with no window open or queued. -/
def windowClosed (b : Bridge) (s : State) : State := s.modBridge b (fun x => { x with win := none, queued := none, idle := 0 })

/-- The queued window opened. -/
def queuedOpened (b : Bridge) (q : Option (Fin 4)) (s : State) : State :=
  match q with
  | some p => openNow b p s
  | none => s

/-- The instant of a window of profile `p` begun at `t`: its centre (R185). -/
def windowInstant (s : State) (b : Bridge) (p : Fin 4) (t : Nat) : Nat := t + 3 * osrOf s b p * modClock s b / 2

theorem butFor_resultsUsed (b : Bridge) (p : Fin 4) (inst : Nat) (s : State) : ButFor useFlds s (resultsUsed b p inst s) := by
  have hclamp : ∀ c, ButFor useFlds s (s.when c (clampBegin b)) := fun c => (ButFor.refl s).when (butFor_clampBegin (.refl s) b) c
  exact butFor_windowTrigger (butFor_currentEstimate (butFor_signalInvalid ((hclamp _).modBkg _) b) b _ _ _) b p

namespace ResultFree
variable {α : Type} {π : State → α} (h : ResultFree π)
include h

theorem resultsUsed (b : Bridge) (p : Fin 4) (inst : Nat) (s : State) : π (resultsUsed b p inst s) = π s :=
  (h.windowTrigger b p _).trans <| (h.currentEstimate b _ _ _ _).trans <| (h.signalInvalid b _).trans <|
    (h.bkg _ _).trans (ite_keeps (h.clampBegin b s) rfl)

theorem resultsWritten (b : Bridge) (n : Nat) (bits1 bits2 : List Bool) (inst : Nat) (s : State) :
    π (resultsWritten b n bits1 bits2 inst s) = π s :=
  (h.put _ _ _).trans <| (ite_keeps (h.put _ _ _) rfl).trans <| (h.put _ _ _).trans <|
    (h.channelResult _ n bits2 inst _).trans (h.channelResult _ n bits1 inst s)

end ResultFree

/-- The window's end up to the point where the bridge is free again. -/
def windowEnded (b : Bridge) (p : Fin 4) (t : Nat) (bits1 bits2 : List Bool) (s : State) : State :=
  resultsUsed b p (windowInstant s b p t) (resultsWritten b (osrOf s b p) bits1 bits2 (windowInstant s b p t) s)

theorem ResultFree.windowEnded {α : Type} {π : State → α} (h : ResultFree π) (b : Bridge) (p : Fin 4) (t : Nat) (bits1 bits2 : List Bool)
    (s : State) : π (windowEnded b p t bits1 bits2 s) = π s :=
  (h.resultsUsed b p _ _).trans (h.resultsWritten b _ bits1 bits2 _ s)

theorem windowDone_eq {s : State} {b : Bridge} {p : Fin 4} {t : Nat} (hwin : s.isnsB[b.val].win = some (p, t)) (bits1 bits2 : List Bool) :
    windowDone b bits1 bits2 s =
      queuedOpened b s.isnsB[b.val].queued (windowClosed b (windowEnded b p t bits1 bits2 s)) := by
  have hqueued : (windowEnded b p t bits1 bits2 s).isnsB[b.val].queued = s.isnsB[b.val].queued :=
    congrArg (fun v : Vector IsnsBridge 2 => v[b.val].queued) (resultFree_isnsB.windowEnded b p t bits1 bits2 s)
  rw [← hqueued]
  unfold windowDone
  rw [hwin]
  rfl

/-- Neither what is open nor what is queued is in the registers. -/
theorem queuedOpened_get (b : Bridge) (q : Option (Fin 4)) (s : State) (g : Fld) : (queuedOpened b q (windowClosed b s)).get g = s.get g := by
  cases q <;> rfl

theorem queuedOpened_getS (b : Bridge) (q : Option (Fin 4)) (s : State) (g : Fld) :
    (queuedOpened b q (windowClosed b s)).getS g = s.getS g :=
  congrArg (toSigned g.w) (queuedOpened_get b q s g)

theorem windowClosed_isnsB (b : Bridge) (s : State) :
    (windowClosed b s).isnsB[b.val] = { s.isnsB[b.val] with win := none, queued := none, idle := 0 } := upd_same _ b _

/-- The results of a window that ends, after all that other blocks make of them. -/
theorem windowEnded_spec (b : Bridge) (p : Fin 4) (t : Nat) (bits1 bits2 : List Bool) (s : State) :
    let w := windowEnded b p t bits1 bits2 s
    ShowsResult s (chanOf b 0) (osrOf s b p) bits1 w ∧ ShowsResult s (chanOf b 1) (osrOf s b p) bits2 w ∧
      w.getS (F.ISNS_I3_I3 b) =
        clipSigned 20 (-(w.getS (F.ISNS_CHRES_RES (2 * b.val)) + w.getS (F.ISNS_CHRES_RES (2 * b.val + 1)))) ∧
      w.get (seqFld b) = (s.get (seqFld b) + 1) % 65536 := by
  have hosr : 0 < osrOf s b p := Nat.two_pow_pos _
  obtain ⟨hshow1, hshow2, hphase3, hseq⟩ := resultsWritten_spec b hosr bits1 bits2 (windowInstant s b p t) s
  have hused := butFor_resultsUsed b p (windowInstant s b p t)
    (resultsWritten b (osrOf s b p) bits1 bits2 (windowInstant s b p t) s)
  have hres1 := hused.getS (F.ISNS_CHRES_RES (2 * b.val))
  have hres2 := hused.getS (F.ISNS_CHRES_RES (2 * b.val + 1))
  refine ⟨hshow1.of_getS hres1, hshow2.of_getS hres2, ?_, (hused.get (seqFld b)).trans hseq⟩
  rw [windowEnded, hres1, hres2, hused.getS (F.ISNS_I3_I3 b), hphase3]

theorem butFor_windowEnded (b : Bridge) (p : Fin 4) (t : Nat) (bits1 bits2 : List Bool) (s : State) :
    ButFor (writtenFlds b ++ useFlds) s (windowEnded b p t bits1 bits2 s) :=
  ((butFor_resultsWritten b _ bits1 bits2 _ s).mono fun _ hf => List.mem_append_left _ hf).trans
    ((butFor_resultsUsed b p _ _).mono fun _ hf => List.mem_append_right _ hf)

theorem nextEdge_windowEnded (b : Bridge) (p : Fin 4) (t : Nat) (bits1 bits2 : List Bool) (s : State) :
    nextEdge (windowEnded b p t bits1 bits2 s) b = nextEdge s b :=
  have hended := butFor_windowEnded b p t bits1 bits2 s
  nextEdge_congr (hended.on (extFld b)) (hended.on F.ISNS_CTRL_MCLK10) (resultFree_laneTimer.windowEnded b p t bits1 bits2 s)

/-- The bridge after a window's end, with the one that was queued. -/
theorem windowDone_bridge {s : State} {b : Bridge} {p : Fin 4} {t : Nat} (hwin : s.isnsB[b.val].win = some (p, t)) (bits1 bits2 : List Bool) :
    (windowDone b bits1 bits2 s).isnsB[b.val] =
      { win := s.isnsB[b.val].queued.map fun q => (q, nextEdge s b), queued := none, idle := 0 } := by
  rw [windowDone_eq hwin]
  cases s.isnsB[b.val].queued with
  | none => exact windowClosed_isnsB b _
  | some q =>
    refine (openNow_isnsB b q _).trans ?_
    rw [windowClosed_isnsB, ← nextEdge_windowEnded b p t bits1 bits2 s]
    rfl

/-- The registers after a window's end. -/
theorem windowDone_spec {s : State} {b : Bridge} {p : Fin 4} {t : Nat} (hwin : s.isnsB[b.val].win = some (p, t)) (bits1 bits2 : List Bool) :
    let w := windowDone b bits1 bits2 s
    ShowsResult s (chanOf b 0) (osrOf s b p) bits1 w ∧ ShowsResult s (chanOf b 1) (osrOf s b p) bits2 w ∧
      w.getS (F.ISNS_I3_I3 b) =
        clipSigned 20 (-(w.getS (F.ISNS_CHRES_RES (2 * b.val)) + w.getS (F.ISNS_CHRES_RES (2 * b.val + 1)))) ∧
      w.get (seqFld b) = (s.get (seqFld b) + 1) % 65536 := by
  obtain ⟨hshow1, hshow2, hphase3, hseq⟩ := windowEnded_spec b p t bits1 bits2 s
  have hgetS := queuedOpened_getS b s.isnsB[b.val].queued (windowEnded b p t bits1 bits2 s)
  rw [windowDone_eq hwin]
  refine ⟨hshow1.of_getS (hgetS _), hshow2.of_getS (hgetS _), ?_, (queuedOpened_get _ _ _ _).trans hseq⟩
  rw [hgetS, hgetS, hgetS, hphase3]

end Sys2Proof.Machine

open Sys2Proof Sys2Proof.Machine in
/-- Settles O25: what the end of a window sets off in other blocks leaves its results (`useFlds`) and the bridge's windows (`ResultFree`), so
the registers show what was written (`windowDone_spec`) and the queued window opens (`windowDone_bridge`). -/
theorem sampleWindows : Obligations.SampleWindows := by
  refine ⟨?_, ?_, ?_, ?_, ?_, ?_, ?_⟩
  case refine_1 =>
    intro s b p hruns hfree hen hwin
    have hexec : exec (.windowOpen b p) s = .next (windowAction b p s) := clockedOut_of_running hruns _
    rw [hexec, windowAction_opens hfree hen p hwin]
    exact ⟨_, rfl, rfl, rfl, openNow_isnsB b p s⟩
  case refine_2 =>
    intro s b p w hruns hfree hen hwin hq
    exact (clockedOut_of_running hruns _).trans (congrArg _ (windowAction_queues hfree hen p hwin hq))
  case refine_3 =>
    intro s b p q w hruns hfree hen hwin hq
    exact (clockedOut_of_running hruns _).trans (congrArg _ (windowAction_drops hfree hen p hwin hq))
  case refine_4 =>
    intro s b bits1 bits2 p t hruns hwin hq
    obtain ⟨-, -, hphase3, hseq⟩ := windowDone_spec hwin bits1 bits2
    refine ⟨_, clockedOut_of_running hruns _, ?_, ?_, hphase3, hseq⟩ <;> rw [windowDone_bridge hwin, hq]
    rfl
  case refine_5 =>
    intro s b bits1 bits2 p q t hruns hwin hq
    obtain ⟨-, -, hphase3, hseq⟩ := windowDone_spec hwin bits1 bits2
    refine ⟨_, clockedOut_of_running hruns _, ?_, ?_, ?_, hphase3, hseq⟩ <;> rw [windowDone_bridge hwin, hq]
    rfl
  case refine_6 =>
    intro s b bits1 bits2 p t hruns hwin
    obtain ⟨hshow1, hshow2, -⟩ := windowDone_spec hwin bits1 bits2
    exact ⟨_, clockedOut_of_running hruns _, hshow1, hshow2⟩
  case refine_7 =>
    exact fun s hs => ⟨fun _ _ => clockedOut_of_stopped hs _, fun _ _ _ => clockedOut_of_stopped hs _⟩
end

section
/-!
SUPPORT. The checks of the current channels (R190 to R194): saturation, a stuck bitstream, the time-out, REVAL.
-/
namespace Sys2Proof.Machine

/-! ## A channel that becomes invalid (R194, R322) -/

/-- What a channel reported invalid changes. -/
def invalidFlds (b : Bridge) : List Fld := F.ISNS_STAT_VALID :: outFlds b

theorem mcMode_mcCurrentInvalid {s : State} {b : Bridge} (h : mcMode s b ≠ modeOff) : mcMode (mcCurrentInvalid b s) b = modeOut := by
  rw [mcCurrentInvalid, if_neg h]
  exact mcMode_mcOverVoltage b s

/-- The report to the MC block leaves what ISNS shows. -/
theorem mcCurrentInvalid_valid (b : Bridge) (s : State) (i : Nat) :
    (mcCurrentInvalid b s).bit F.ISNS_STAT_VALID i = s.bit F.ISNS_STAT_VALID i :=
  (butFor_mcCurrentInvalid (.refl s) b fun _ => id).bit F.ISNS_STAT_VALID i

theorem channelInvalid_valid (c : IsnsCh) (s : State) : (channelInvalid c s).bit F.ISNS_STAT_VALID c = false := by
  rw [channelInvalid, mcCurrentInvalid_valid]
  exact State.bit_putBit_same s false c.isLt (by decide)

theorem channelInvalid_valid_other {c d : IsnsCh} (h : d ≠ c) (s : State) :
    (channelInvalid c s).bit F.ISNS_STAT_VALID d = s.bit F.ISNS_STAT_VALID d := by
  rw [channelInvalid, mcCurrentInvalid_valid]
  exact State.bit_putBit_other s false (fun e => h (Fin.ext e)) d.isLt (by decide)

theorem butFor_channelInvalid (c : IsnsCh) (s : State) : ButFor (invalidFlds (chanBridge c)) s (channelInvalid c s) :=
  butFor_mcCurrentInvalid ((ButFor.refl s).putBit (by simp [invalidFlds]) _ _) _ fun _ hf => List.mem_cons_of_mem _ hf

theorem channelInvalid_isnsB (c : IsnsCh) (s : State) : (channelInvalid c s).isnsB = s.isnsB :=
  resultFree_isnsB.mcCurrentInvalid (chanBridge c) (s.putBit F.ISNS_STAT_VALID c false)

theorem mcMode_channelInvalid {s : State} {c : IsnsCh} (h : mcMode s (chanBridge c) ≠ modeOff) :
    mcMode (channelInvalid c s) (chanBridge c) = modeOut := by
  refine mcMode_mcCurrentInvalid (ne_of_eq_of_ne ?_ h)
  exact State.get_put_apart s F.ISNS_STAT_VALID (F.MC_STAT_MODE (chanBridge c)) _

/-! ## A stuck bitstream (R192) -/

/-- A channel found stuck, invalid and not yet reported. -/
def stuckMarked (c : IsnsCh) (s : State) : State :=
  ((s.putBit F.ISNS_STAT_STUCK c true).modChan c (fun k => { k with stuck := true, stuckNow := true })).putBit F.ISNS_STAT_VALID c false

theorem channelStuck_of_enabled {s : State} {c : IsnsCh} (h : isnsEnabled s (chanBridge c) = true) :
    channelStuck c s = mcCurrentInvalid (chanBridge c) (stuckMarked c s) := if_pos h

theorem stuckMarked_stuck (c : IsnsCh) (s : State) : (stuckMarked c s).bit F.ISNS_STAT_STUCK c = true := by
  rw [stuckMarked, State.bit_putBit_apart _ F.ISNS_STAT_VALID F.ISNS_STAT_STUCK]
  exact State.bit_putBit_same s true c.isLt (by decide)

theorem stuckMarked_valid (c : IsnsCh) (s : State) : (stuckMarked c s).bit F.ISNS_STAT_VALID c = false :=
  State.bit_putBit_same _ false c.isLt (by decide)

theorem stuckMarked_valid_other {c d : IsnsCh} (h : d ≠ c) (s : State) :
    (stuckMarked c s).bit F.ISNS_STAT_VALID d = s.bit F.ISNS_STAT_VALID d := by
  rw [stuckMarked, State.bit_putBit_other _ false (fun e => h (Fin.ext e)) d.isLt (by decide), State.modChan_bit]
  exact State.bit_putBit_apart s F.ISNS_STAT_STUCK F.ISNS_STAT_VALID _ _ _

theorem stuckMarked_awaiting (c : IsnsCh) (s : State) : (stuckMarked c s).isnsC[c.val].awaiting = s.isnsC[c.val].awaiting := by
  rw [stuckMarked, State.putBit_isnsC, State.modChan_isnsC, upd_same]
  rfl

/-! ## The time-out (R193) -/

/-- A bridge whose time-out is shown, counting anew. -/
def timeoutShown (b : Bridge) (s : State) : State :=
  (s.putBit F.ISNS_STAT_TMO b true).modBridge b (fun x => { x with idle := 0 })

theorem windowTimeout_of_due {s : State} {b : Bridge} (hen : isnsEnabled s b = true)
    (hdue : s.get (smptmoFld b) ≠ 0 ∧ s.get (smptmoFld b) ≤ s.isnsB[b.val].idle) :
    windowTimeout b s = channelInvalid (chanOf b 1) (channelInvalid (chanOf b 0) (timeoutShown b s)) :=
  if_pos ⟨hen, hdue⟩

theorem chanBridge_chanOf : ∀ (b : Bridge) (ph : Fin 2), chanBridge (chanOf b ph) = b := by decide

theorem chanOf_ne : ∀ b : Bridge, chanOf b 0 ≠ chanOf b 1 := by decide

theorem bothInvalid_spec (b : Bridge) (s : State) :
    let t := channelInvalid (chanOf b 1) (channelInvalid (chanOf b 0) s)
    ButFor (invalidFlds b) s t ∧ t.bit F.ISNS_STAT_VALID (chanOf b 0) = false ∧ t.bit F.ISNS_STAT_VALID (chanOf b 1) = false ∧
      t.isnsB = s.isnsB ∧ (mcMode s b ≠ modeOff → mcMode t b = modeOut) := by
  have hfirst := butFor_channelInvalid (chanOf b 0) s
  have hsecond := butFor_channelInvalid (chanOf b 1) (channelInvalid (chanOf b 0) s)
  have hmode0 := mcMode_channelInvalid (s := s) (c := chanOf b 0)
  have hmode1 := mcMode_channelInvalid (s := channelInvalid (chanOf b 0) s) (c := chanOf b 1)
  rw [chanBridge_chanOf] at hfirst hsecond hmode0 hmode1
  refine ⟨hfirst.trans hsecond, ?_, channelInvalid_valid _ _, ?_, fun h => hmode1 ?_⟩
  · rw [channelInvalid_valid_other (chanOf_ne b)]
    exact channelInvalid_valid _ s
  · rw [channelInvalid_isnsB, channelInvalid_isnsB]
  · rw [hmode0 h]
    decide

theorem windowTimeout_spec {s : State} {b : Bridge} (hen : isnsEnabled s b = true)
    (hdue : s.get (smptmoFld b) ≠ 0 ∧ s.get (smptmoFld b) ≤ s.isnsB[b.val].idle) :
    let t := windowTimeout b s
    t.bit F.ISNS_STAT_TMO b = true ∧ t.bit F.ISNS_STAT_VALID (2 * b.val) = false ∧ t.bit F.ISNS_STAT_VALID (2 * b.val + 1) = false ∧
      t.isnsB[b.val].idle = 0 ∧ (mcMode s b ≠ modeOff → mcMode t b = modeOut) := by
  obtain ⟨hrest, hvalid0, hvalid1, hbridge, hmode⟩ := bothInvalid_spec b (timeoutShown b s)
  rw [windowTimeout_of_due hen hdue]
  refine ⟨(hrest.bit F.ISNS_STAT_TMO b).trans ?_, hvalid0, hvalid1, ?_, fun h => hmode (ne_of_eq_of_ne ?_ h)⟩
  · exact State.bit_putBit_same s true b.isLt (by decide)
  · rw [hbridge, timeoutShown, State.modBridge_isnsB, upd_same]
  · exact State.get_put_apart s F.ISNS_STAT_TMO (F.MC_STAT_MODE b) _

/-! ## REVAL (R194) -/

/-- REVAL as it acts on one channel: named and invalid, it waits for its first good window. -/
def chanRevaled (mask : Nat) (c : IsnsCh) (valid : Bool) (k : IsnsChan) : IsnsChan :=
  if bitAt mask c && !valid then { k with awaiting := true } else k

def revalChannel (mask : Nat) (s : State) (c : IsnsCh) : State :=
  if bitAt mask c && !s.bit F.ISNS_STAT_VALID c then s.modChan c (fun k => { k with awaiting := true }) else s

theorem revalChannels_eq (mask : Nat) (s : State) : revalChannels mask s = (List.finRange 4).foldl (revalChannel mask) s := rfl

theorem revalChannel_regs (mask : Nat) (s : State) (c : IsnsCh) : (revalChannel mask s c).regs = s.regs := ite_keeps rfl rfl

theorem revalChannel_isnsC (mask : Nat) (s : State) (c : IsnsCh) :
    (revalChannel mask s c).isnsC[c.val] = chanRevaled mask c (s.bit F.ISNS_STAT_VALID c) s.isnsC[c.val] := by
  unfold revalChannel chanRevaled
  split
  · exact upd_same _ c _
  · rfl

theorem revalChannel_isnsC_other (mask : Nat) (s : State) {c d : IsnsCh} (h : c ≠ d) :
    (revalChannel mask s c).isnsC[d.val] = s.isnsC[d.val] := by
  unfold revalChannel
  split
  · exact upd_other _ _ h
  · rfl

theorem revalChannel_valid (mask : Nat) (s : State) (c : IsnsCh) (i : Nat) :
    (revalChannel mask s c).bit F.ISNS_STAT_VALID i = s.bit F.ISNS_STAT_VALID i :=
  ite_keeps (π := fun s : State => s.bit F.ISNS_STAT_VALID i) rfl rfl

theorem revalChannels_regs (mask : Nat) (s : State) : (revalChannels mask s).regs = s.regs := by
  rw [revalChannels_eq]
  exact foldl_keeps (revalChannel_regs mask) _ s

theorem revalChannels_isnsC (mask : Nat) (s : State) (c : IsnsCh) :
    (revalChannels mask s).isnsC[c.val] = chanRevaled mask c (s.bit F.ISNS_STAT_VALID c) s.isnsC[c.val] := by
  rw [revalChannels_eq]
  have hviews := foldl_channels (view := fun s (c : IsnsCh) => (s.isnsC[c.val], s.bit F.ISNS_STAT_VALID c))
    (g := revalChannel mask) (F := fun c v => (chanRevaled mask c v.2 v.1, v.2))
    (fun t c => Prod.ext (revalChannel_isnsC mask t c) (revalChannel_valid mask t c c))
    (fun t c d hcd => Prod.ext (revalChannel_isnsC_other mask t hcd) (revalChannel_valid mask t c d)) s c
  exact congrArg Prod.fst hviews

end Sys2Proof.Machine
end

section
/-!
SUPPORT. Calibration (R201 to R204): its request, its end and its abort.
-/
namespace Sys2Proof.Machine

/-! ## A calibration that fails (R202, R203) -/

/-- What a failed calibration changes. -/
def failedFlds : List Fld := [F.ISNS_CAL_CALREQ, F.ISNS_STAT_CALABT, F.BKG_CAL_CALABTN]

theorem ButFor.sat {A : List Fld} {u s : State} (h : ButFor A u s) {f : Fld} (hf : f ∈ A) : ButFor A u (s.sat f) := ite h (h.put hf _)

/-- CALABT shown with the request gone, and counted. -/
def failureShown (b : Bridge) (s : State) : State :=
  ((s.putBit F.ISNS_CAL_CALREQ b false).putBit F.ISNS_STAT_CALABT b true).sat F.BKG_CAL_CALABTN

theorem calFailed_eq (b : Bridge) (s : State) :
    calFailed b s = (failureShown b s).modBkg (fun g => { g with retry := BitVec.ofNat 2 (withBit g.retry.toNat b true) }) := rfl

theorem butFor_sat_self (s : State) (f : Fld) : ButFor [f] s (s.sat f) := (ButFor.refl s).sat (by simp)

theorem calFailed_bits (b : Bridge) (s : State) :
    (calFailed b s).bit F.ISNS_CAL_CALREQ b = false ∧ (calFailed b s).bit F.ISNS_STAT_CALABT b = true := by
  rw [calFailed_eq, State.modBkg_bit, State.modBkg_bit, failureShown, (butFor_sat_self _ _).bit F.ISNS_CAL_CALREQ,
    (butFor_sat_self _ _).bit F.ISNS_STAT_CALABT, State.bit_putBit_apart _ F.ISNS_STAT_CALABT F.ISNS_CAL_CALREQ]
  exact ⟨State.bit_putBit_same s false b.isLt (by decide), State.bit_putBit_same _ true b.isLt (by decide)⟩

theorem butFor_calFailed {A : List Fld} {u s : State} (h : ButFor A u s) (b : Bridge) (hA : ∀ f ∈ failedFlds, f ∈ A) :
    ButFor A u (calFailed b s) := by
  rw [calFailed_eq]
  exact (((h.putBit (hA _ (by simp [failedFlds])) _ _).putBit (hA _ (by simp [failedFlds])) _ _).sat
    (hA _ (by simp [failedFlds]))).modBkg _

theorem ResultFree.calFailed {α : Type} {π : State → α} (h : ResultFree π) (b : Bridge) (s : State) : π (calFailed b s) = π s :=
  (h.bkg _ _).trans ((ite_keeps rfl (h.put _ _ _)).trans ((h.put _ _ _).trans (h.put s _ _)))

theorem calFailed_mem (b : Bridge) (s : State) : (calFailed b s).mem = s.mem := by
  rw [calFailed_eq, State.modBkg_mem]
  exact ite_keeps rfl rfl

/-- A failed calibration keeps the trims (R203). -/
theorem calFailed_trims (b : Bridge) (s : State) (c : IsnsCh) :
    (calFailed b s).rd (F.ISNS_CHTRIM_OFS c).addr = s.rd (F.ISNS_CHTRIM_OFS c).addr := by
  obtain ⟨hreq, habt, hcnt⟩ : (F.ISNS_CHTRIM_OFS c).addr ≠ F.ISNS_CAL_CALREQ.addr ∧
      (F.ISNS_CHTRIM_OFS c).addr ≠ F.ISNS_STAT_CALABT.addr ∧ (F.ISNS_CHTRIM_OFS c).addr ≠ F.BKG_CAL_CALABTN.addr := by
    clear * -; decide +revert
  have hshown : ((s.putBit F.ISNS_CAL_CALREQ b false).putBit F.ISNS_STAT_CALABT b true).rd (F.ISNS_CHTRIM_OFS c).addr =
      s.rd (F.ISNS_CHTRIM_OFS c).addr :=
    (State.rd_put_other _ _ _ habt).trans (State.rd_put_other s _ _ hreq)
  rw [calFailed_eq, State.modBkg_rd]
  exact ite_keeps (π := fun t : State => t.rd (F.ISNS_CHTRIM_OFS c).addr) hshown ((State.rd_put_other _ _ _ hcnt).trans hshown)

/-! ## An abort (R203) -/

theorem calAbort_of_busy {s : State} {b : Bridge} (h : s.bit F.ISNS_STAT_CALBUSY b = true) :
    calAbort b s = calFailed b (s.putBit F.ISNS_STAT_CALBUSY b false) := if_pos h

theorem calAbort_spec {s : State} {b : Bridge} (hbusy : s.bit F.ISNS_STAT_CALBUSY b = true) :
    (calAbort b s).bit F.ISNS_STAT_CALBUSY b = false ∧ (calAbort b s).bit F.ISNS_STAT_CALABT b = true ∧
      (calAbort b s).bit F.ISNS_CAL_CALREQ b = false ∧
      (∀ c : IsnsCh, (calAbort b s).rd (F.ISNS_CHTRIM_OFS c).addr = s.rd (F.ISNS_CHTRIM_OFS c).addr) ∧ (calAbort b s).mem = s.mem := by
  obtain ⟨hreq, habt⟩ := calFailed_bits b (s.putBit F.ISNS_STAT_CALBUSY b false)
  rw [calAbort_of_busy hbusy]
  refine ⟨?_, habt, hreq, fun c => ?_, calFailed_mem b _⟩
  · rw [(butFor_calFailed (.refl _) b fun _ => id).bit F.ISNS_STAT_CALBUSY]
    exact State.bit_putBit_same s false b.isLt (by decide)
  · rw [calFailed_trims]
    exact State.rd_put_other s _ _ (by clear * -; decide +revert)

theorem butFor_calAbort {s : State} {b : Bridge} (hbusy : s.bit F.ISNS_STAT_CALBUSY b = true) :
    ButFor (F.ISNS_STAT_CALBUSY :: failedFlds) s (calAbort b s) := by
  rw [calAbort_of_busy hbusy]
  exact butFor_calFailed ((ButFor.refl s).putBit (by simp) _ _) b fun _ hf => List.mem_cons_of_mem _ hf

theorem ResultFree.calAbort {α : Type} {π : State → α} (h : ResultFree π) {s : State} {b : Bridge}
    (hbusy : s.bit F.ISNS_STAT_CALBUSY b = true) : π (calAbort b s) = π s := by
  rw [calAbort_of_busy hbusy, h.calFailed]
  exact h.put s _ _

/-- The enable of a bridge's channels. -/
def enableFld (b : Bridge) : Fld := if b = 0 then F.ISNS_CTRL_ENA else F.ISNS_CTRL_ENB

/-- A window action that aborts a calibration opens its window then. -/
theorem windowAction_calAbort {s : State} {b : Bridge} (hbusy : s.bit F.ISNS_STAT_CALBUSY b = true) (p : Fin 4)
    (hen : isnsEnabled s b = true) (hwin : s.isnsB[b.val].win = none) :
    windowAction b p (calAbort b s) = openNow b p (calAbort b s) ∧ nextEdge (calAbort b s) b = nextEdge s b := by
  have haborted := butFor_calAbort hbusy
  have hbridge : (calAbort b s).isnsB = s.isnsB := resultFree_isnsB.calAbort hbusy
  have henabled : isnsEnabled (calAbort b s) b = isnsEnabled s b := haborted.on (enableFld b)
  exact ⟨windowAction_opens (calAbort_spec hbusy).1 (henabled.trans hen) p (by rw [hbridge, hwin]),
    nextEdge_congr (haborted.on (extFld b)) (haborted.on F.ISNS_CTRL_MCLK10) (resultFree_laneTimer.calAbort hbusy)⟩

/-! ## New trims (R201, R204) -/

/-- What the trims of a channel change. -/
def trimFlds (c : IsnsCh) : List Fld := [F.ISNS_STAT_CALFLT, F.ISNS_CHTRIM_OFS c, F.ISNS_CHTRIM_GAIN c]

theorem butFor_trimChannel (c : IsnsCh) (m : TrimReading) (s : State) : ButFor (trimFlds c) s (trimChannel c m s) :=
  ButFor.ite ((ButFor.refl s).putBit (by simp [trimFlds]) _ _)
    ((((ButFor.refl s).putS (by simp [trimFlds]) _).drew.putS (by simp [trimFlds]) _).drew)

theorem trimChannel_mem (c : IsnsCh) (m : TrimReading) (s : State) : (trimChannel c m s).mem = s.mem := ite_keeps rfl rfl

theorem trimChannel_fault {m : TrimReading} (h : 2 ^ 15 * m.zeros.length < m.zeros.sum.natAbs) (c : IsnsCh) (s : State) :
    (trimChannel c m s).bit F.ISNS_STAT_CALFLT c = true := by
  rw [trimChannel, if_pos (.inl h)]
  exact State.bit_putBit_same s true c.isLt (by decide)

theorem trimChannel_fault_other {c d : IsnsCh} (h : d ≠ c) (m : TrimReading) (s : State) :
    (trimChannel c m s).bit F.ISNS_STAT_CALFLT d = s.bit F.ISNS_STAT_CALFLT d := by
  have htrims : ∀ x y : Int, ButFor [F.ISNS_CHTRIM_OFS c, F.ISNS_CHTRIM_GAIN c] s
      ((s.putS (F.ISNS_CHTRIM_OFS c) x).drew.putS (F.ISNS_CHTRIM_GAIN c) y).drew :=
    fun x y => (((ButFor.refl s).putS (by simp) x).drew.putS (by simp) y).drew
  exact ite_keeps (π := fun t : State => t.bit F.ISNS_STAT_CALFLT d)
    (State.bit_putBit_other s true (fun e => h (Fin.ext e)) d.isLt (by decide)) ((htrims _ _).bit F.ISNS_STAT_CALFLT d)

theorem State.drew_getS (s : State) (g : Fld) : s.drew.getS g = s.getS g := rfl

/-- The mean of zero windows within their limit fits OFS, rounded up or down. -/
theorem roundFree_mean_range (s : State) {sum : Int} {n : Nat} (hn : 0 < n) (h : sum.natAbs ≤ 2 ^ 15 * n) :
    -(2 ^ 15 : Nat) ≤ s.roundFree sum (4 * n) ∧ s.roundFree sum (4 * n) < (2 ^ 15 : Nat) := by
  have hnear := s.roundFree_near sum (den := 4 * n) (by omega)
  push_cast at hnear ⊢
  have hlow : -8193 * (4 * (n : Int)) < s.roundFree sum (4 * n) * (4 * n) := by omega
  have hhigh : s.roundFree sum (4 * n) * (4 * n) < 8193 * (4 * (n : Int)) := by omega
  have hlow' := lt_of_mul_lt_mul_right hlow (by omega)
  have hhigh' := lt_of_mul_lt_mul_right hhigh (by omega)
  omega

/-- OFS is within a quarter unit of the mean of the zero windows (R201, log entry 14). -/
theorem trimChannel_ofs {m : TrimReading} (hn : m.zeros ≠ []) (hsum : m.zeros.sum.natAbs ≤ 2 ^ 15 * m.zeros.length)
    (herr : (m.ref * m.zeros.length - m.zeros.sum - 2 ^ 20 * m.zeros.length).natAbs ≤ 2 ^ 16 * m.zeros.length) (c : IsnsCh) (s : State) :
    (4 * m.zeros.length * (trimChannel c m s).getS (F.ISNS_CHTRIM_OFS c) - m.zeros.sum).natAbs < 4 * m.zeros.length := by
  have hlen : 0 < m.zeros.length := List.length_pos_iff.mpr hn
  have hgain : ∀ (t : State) (v : Int), (t.putS (F.ISNS_CHTRIM_GAIN c) v).getS (F.ISNS_CHTRIM_OFS c) = t.getS (F.ISNS_CHTRIM_OFS c) :=
    fun t v => ((ButFor.refl t).putS (A := [F.ISNS_CHTRIM_GAIN c]) (by simp) v).getS (F.ISNS_CHTRIM_OFS c)
  have hofs : (trimChannel c m s).getS (F.ISNS_CHTRIM_OFS c) = s.roundFree m.zeros.sum (4 * m.zeros.length) := by
    rw [trimChannel, if_neg (not_or.mpr ⟨Nat.not_lt.mpr hsum, Nat.not_lt.mpr herr⟩)]
    rw [State.drew_getS, hgain, State.drew_getS]
    exact State.getS_putS_same s rfl (Nat.le_of_ble_eq_true rfl) (roundFree_mean_range s hlen hsum)
  have hnear := s.roundFree_near m.zeros.sum (den := 4 * m.zeros.length) (by omega)
  rw [hofs, mul_comm]
  exact_mod_cast hnear

/-! ## A calibration that completes -/

/-- The trims of a bridge's channels taken where they are internal. -/
def trimsTaken (b : Bridge) (m1 m2 : TrimReading) (s : State) : State :=
  if s.on (extFld b) then s else trimChannel (chanOf b 1) m2 (trimChannel (chanOf b 0) m1 s)

/-- A calibration no longer running, counted by G. -/
def calCounted (b : Bridge) (s : State) : State :=
  (((s.putBit F.ISNS_STAT_CALBUSY b false).putBit F.ISNS_CAL_CALREQ b false).inc F.BKG_CAL_CALDONE).modBkg (fun g =>
    { g with retry := BitVec.ofNat 2 (withBit g.retry.toNat b false) })

theorem calDone_of_busy {s : State} {b : Bridge} (h : s.bit F.ISNS_STAT_CALBUSY b = true) (m1 m2 : TrimReading) :
    calDone b m1 m2 s = trimWatch b (calCounted b (trimsTaken b m1 m2 s)) := if_pos h

/-- The trim of the comparators shows in no register. -/
theorem trimWatch_get (b : Bridge) (s : State) (g : Fld) : (trimWatch b s).get g = s.get g :=
  ite_keeps (π := fun t : State => t.get g) rfl rfl

theorem trimWatch_mem (b : Bridge) (s : State) : (trimWatch b s).mem = s.mem := ite_keeps rfl rfl

theorem butFor_trimWatch_calCounted (b : Bridge) (s : State) :
    ButFor [F.ISNS_STAT_CALBUSY, F.ISNS_CAL_CALREQ, F.BKG_CAL_CALDONE] s (trimWatch b (calCounted b s)) := by
  have hcounted : ButFor [F.ISNS_STAT_CALBUSY, F.ISNS_CAL_CALREQ, F.BKG_CAL_CALDONE] s (calCounted b s) :=
    ((((ButFor.refl s).putBit (by simp) _ _).putBit (by simp) _ _).inc (by simp)).modBkg _
  exact ButFor.ite (hcounted.modBkg _) hcounted

theorem calCounted_bits (b : Bridge) (s : State) :
    (calCounted b s).bit F.ISNS_STAT_CALBUSY b = false ∧ (calCounted b s).bit F.ISNS_CAL_CALREQ b = false := by
  rw [calCounted, State.modBkg_bit, State.modBkg_bit, State.inc_eq, State.bit_put_apart _ F.BKG_CAL_CALDONE F.ISNS_STAT_CALBUSY,
    State.bit_put_apart _ F.BKG_CAL_CALDONE F.ISNS_CAL_CALREQ, State.bit_putBit_apart _ F.ISNS_CAL_CALREQ F.ISNS_STAT_CALBUSY]
  exact ⟨State.bit_putBit_same s false b.isLt (by decide), State.bit_putBit_same _ false b.isLt (by decide)⟩

theorem calCounted_done (b : Bridge) (s : State) :
    (calCounted b s).get F.BKG_CAL_CALDONE = (s.get F.BKG_CAL_CALDONE + 1) % 256 := by
  rw [calCounted, State.modBkg_get, State.inc_eq, State.get_put_same _ _ _ (by decide), State.putBit_eq, State.putBit_eq,
    State.get_put_apart _ F.ISNS_CAL_CALREQ F.BKG_CAL_CALDONE, State.get_put_apart _ F.ISNS_STAT_CALBUSY F.BKG_CAL_CALDONE]
  rfl

theorem trimsTaken_mem (b : Bridge) (m1 m2 : TrimReading) (s : State) : (trimsTaken b m1 m2 s).mem = s.mem :=
  ite_keeps rfl ((trimChannel_mem _ m2 _).trans (trimChannel_mem _ m1 s))

theorem trimsTaken_done (b : Bridge) (m1 m2 : TrimReading) (s : State) :
    (trimsTaken b m1 m2 s).get F.BKG_CAL_CALDONE = s.get F.BKG_CAL_CALDONE :=
  ite_keeps (π := fun t : State => t.get F.BKG_CAL_CALDONE) rfl
    (((butFor_trimChannel _ m2 _).get F.BKG_CAL_CALDONE).trans ((butFor_trimChannel _ m1 s).get F.BKG_CAL_CALDONE))

theorem trimsTaken_of_internal {s : State} {b : Bridge} (hint : s.on (extFld b) = false) (m1 m2 : TrimReading) :
    trimsTaken b m1 m2 s = trimChannel (chanOf b 1) m2 (trimChannel (chanOf b 0) m1 s) := by
  rw [trimsTaken, hint, if_neg Bool.false_ne_true]

theorem trimsTaken_fault {s : State} {b : Bridge} (hint : s.on (extFld b) = false) {m1 : TrimReading} (m2 : TrimReading)
    (h : 2 ^ 15 * m1.zeros.length < m1.zeros.sum.natAbs) :
    (trimsTaken b m1 m2 s).bit F.ISNS_STAT_CALFLT (chanOf b 0) = true := by
  rw [trimsTaken_of_internal hint m1 m2, trimChannel_fault_other (chanOf_ne b)]
  exact trimChannel_fault h _ s

theorem trimsTaken_ofs {s : State} {b : Bridge} (hint : s.on (extFld b) = false) {m1 : TrimReading} (m2 : TrimReading)
    (hn : m1.zeros ≠ []) (hsum : m1.zeros.sum.natAbs ≤ 2 ^ 15 * m1.zeros.length)
    (herr : (m1.ref * m1.zeros.length - m1.zeros.sum - 2 ^ 20 * m1.zeros.length).natAbs ≤ 2 ^ 16 * m1.zeros.length) :
    (4 * m1.zeros.length * (trimsTaken b m1 m2 s).getS (F.ISNS_CHTRIM_OFS (chanOf b 0)) - m1.zeros.sum).natAbs <
      4 * m1.zeros.length := by
  rw [trimsTaken_of_internal hint m1 m2, (butFor_trimChannel (chanOf b 1) m2 _).getS (F.ISNS_CHTRIM_OFS (chanOf b 0))]
  exact trimChannel_ofs hn hsum herr _ s

theorem calDone_spec {s : State} {b : Bridge} (hbusy : s.bit F.ISNS_STAT_CALBUSY b = true) (m1 m2 : TrimReading) :
    let t := calDone b m1 m2 s
    t.bit F.ISNS_STAT_CALBUSY b = false ∧ t.bit F.ISNS_CAL_CALREQ b = false ∧
      t.get F.BKG_CAL_CALDONE = (s.get F.BKG_CAL_CALDONE + 1) % 256 ∧
      (∀ i, t.bit F.ISNS_STAT_CALFLT i = (trimsTaken b m1 m2 s).bit F.ISNS_STAT_CALFLT i) ∧
      (∀ c : IsnsCh, t.getS (F.ISNS_CHTRIM_OFS c) = (trimsTaken b m1 m2 s).getS (F.ISNS_CHTRIM_OFS c)) ∧ t.mem = s.mem := by
  obtain ⟨hidle, hreq⟩ := calCounted_bits b (trimsTaken b m1 m2 s)
  have hrest := butFor_trimWatch_calCounted b (trimsTaken b m1 m2 s)
  rw [calDone_of_busy hbusy]
  refine ⟨(congrArg (bitAt · b) (trimWatch_get b _ _)).trans hidle, (congrArg (bitAt · b) (trimWatch_get b _ _)).trans hreq, ?_,
    hrest.bit F.ISNS_STAT_CALFLT, fun c => hrest.getS (F.ISNS_CHTRIM_OFS c), (trimWatch_mem b _).trans (trimsTaken_mem b m1 m2 s)⟩
  rw [trimWatch_get, calCounted_done, trimsTaken_done]

end Sys2Proof.Machine

open Sys2Proof Sys2Proof.Machine in
/-- Settles O26: the report of an invalid channel leaves what ISNS shows (`bothInvalid_spec`), a failed calibration the trims
(`calFailed_trims`), and the end of one takes each channel's trims by itself (`trimChannel_ofs`, `trimChannel_fault_other`). -/
theorem currentChannels : Obligations.CurrentChannels := by
  refine ⟨?_, ?_, ?_, ?_, ?_, ?_, ?_, ?_, ?_, ?_⟩
  case refine_1 =>
    exact fun s c hruns => clockedOut_of_running hruns _
  case refine_2 =>
    intro s c hruns hen
    exact ⟨stuckMarked c s, (clockedOut_of_running hruns _).trans (congrArg _ (channelStuck_of_enabled hen)), stuckMarked_stuck c s,
      stuckMarked_valid c s, stuckMarked_awaiting c s, fun d hd => stuckMarked_valid_other hd s⟩
  case refine_3 =>
    exact fun s b hruns hen hdue => ⟨_, clockedOut_of_running hruns _, windowTimeout_spec hen hdue⟩
  case refine_4 =>
    intro s m hruns
    refine ⟨_, clockedOut_of_running hruns _, revalChannels_regs m.toNat s, fun c => ?_⟩
    rw [← bitAt_eq_testBit]
    exact revalChannels_isnsC m.toNat s c
  case refine_5 =>
    exact fun s b hruns hrest => (clockedOut_of_running hruns _).trans (congrArg _ (if_pos (Bool.or_eq_true_iff.mpr hrest)))
  case refine_6 =>
    intro s b m1 m2 hruns hbusy
    obtain ⟨hidle, hreq, hdone, hfault, hofs, hmem⟩ := calDone_spec hbusy m1 m2
    exact ⟨_, clockedOut_of_running hruns _, hidle, hreq, hdone,
      fun hint h => (hfault _).trans (trimsTaken_fault hint m2 h),
      fun hint hn hsum herr => by
        have hquarter := trimsTaken_ofs hint m2 hn hsum herr
        rwa [← hofs (chanOf b 0)] at hquarter,
      hmem⟩
  case refine_7 =>
    exact fun s b hruns hbusy => ⟨_, clockedOut_of_running hruns _, calAbort_spec hbusy⟩
  case refine_8 =>
    intro s b p hruns hbusy hen hwin
    obtain ⟨hidle, habt, hreq, htrims, hmem⟩ := calAbort_spec hbusy
    obtain ⟨hopens, hedge⟩ := windowAction_calAbort hbusy p hen hwin
    have hexec : exec (.calibrationAbort b (some p)) s = .next (windowAction b p (calAbort b s)) := clockedOut_of_running hruns _
    rw [hexec, hopens]
    refine ⟨_, rfl, ?_, ?_, ?_, fun c => ?_, (openNow_mem b p _).trans hmem, ?_⟩
    · rw [openNow_bit, hidle]
    · rw [openNow_bit, habt]
    · rw [openNow_bit, hreq]
    · rw [openNow_rd, htrims]
    · rw [openNow_isnsB, hedge]
      rfl
  case refine_9 =>
    intro s b hruns ⟨hlegs, hiso⟩
    have hexec : exec (.calibrationRequest b) s = .next (calFailed b s) :=
      (clockedOut_of_running hruns _).trans (congrArg _ (if_neg (by rw [hlegs, hiso]; decide)))
    obtain ⟨hreq, habt⟩ := calFailed_bits b s
    exact ⟨_, hexec, hreq, habt, (butFor_calFailed (.refl s) b fun _ => id).bit F.ISNS_STAT_CALBUSY b, calFailed_trims b s,
      calFailed_mem b s⟩
  case refine_10 =>
    intro s hs
    exact ⟨fun _ => clockedOut_of_stopped hs _, fun _ => clockedOut_of_stopped hs _, fun _ => clockedOut_of_stopped hs _,
      fun _ => clockedOut_of_stopped hs _, fun _ => clockedOut_of_stopped hs _, fun _ _ _ => clockedOut_of_stopped hs _,
      fun _ _ => clockedOut_of_stopped hs _⟩
end

section
/-!
SUPPORT. An instruction of a running activation (R215, R219, R226): when it executes, what its own part leaves alone, and how the engine goes on
to the next.
-/
namespace Sys2Proof.Machine

/-! ## Instructions that execute -/

/-- An instruction of `n` cycles executes: its engine runs an activation, is not held, and the cycles are within LIMIT. -/
abbrev Executes (s : State) (e : Eng) (n : Nat) : Prop := engBusy s e = true ∧ enginesHeld s = false ∧ fitsLimit s e n = true

section
variable {s : State} {e : Eng} {n : Nat}

theorem running_of_executes (h : Executes s e n) (act : State → State) : running e n act s = act s := by
  obtain ⟨hbusy, hheld, hfits⟩ := h
  simp [running, hbusy, hheld, hfits]

theorem running_of_late (h : engBusy s e = true ∧ enginesHeld s = false ∧ fitsLimit s e n = false) (act : State → State) :
    running e n act s = timeUp e s := by
  obtain ⟨hbusy, hheld, hfits⟩ := h
  simp [running, hbusy, hheld, hfits]

theorem running_of_idle (h : engBusy s e = false ∨ enginesHeld s = true) (act : State → State) : running e n act s = s := by
  obtain h | h := h <;> simp [running, h]

theorem instr_of_executes (h : Executes s e n) (act : State → State) : instr e n act s = advance e n (act s) :=
  running_of_executes h _

/-- What an instruction that executes answers. -/
theorem next_instr (h : Executes s e n) (act : State → State) : (Host.Outcome.next (instr e n act s) : Out) = .next (advance e n (act s)) :=
  congrArg _ (instr_of_executes h act)

theorem next_instr_of_eq (h : Executes s e n) {act : State → State} {u : State} (hact : act s = u) :
    (Host.Outcome.next (instr e n act s) : Out) = .next (advance e n u) := by
  rw [next_instr h, hact]

theorem next_instr_late (h : engBusy s e = true ∧ enginesHeld s = false ∧ fitsLimit s e n = false) (act : State → State) :
    (Host.Outcome.next (instr e n act s) : Out) = .next (timeUp e s) :=
  congrArg _ (running_of_late h _)

theorem next_instr_idle (h : engBusy s e = false ∨ enginesHeld s = true) (act : State → State) :
    (Host.Outcome.next (instr e n act s) : Out) = .next s :=
  congrArg _ (running_of_idle h _)

end

/-! ## What the own part of an instruction leaves alone -/

/-- The place of the engine, its loop stack and its cycles, every other engine, and every register but the engine's STAT and CNT. -/
structure OwnPart (e : Eng) (s t : State) : Prop where
  pc : t.eng[e.val].pc = s.eng[e.val].pc
  loops : t.eng[e.val].loops = s.eng[e.val].loops
  cycles : t.eng[e.val].cycles = s.eng[e.val].cycles
  others : ∀ f : Eng, f ≠ e → t.eng[f.val] = s.eng[f.val]
  rd : ∀ a, a ≠ (F.HLE_ENGSTAT_SAT e).addr → a ≠ (F.HLE_ENGCNT_SATCNT e).addr → t.rd a = s.rd a

namespace OwnPart
variable {e : Eng} {s t u : State}

theorem refl (s : State) : OwnPart e s s := ⟨rfl, rfl, rfl, fun _ _ => rfl, fun _ _ _ => rfl⟩

theorem trans (h : OwnPart e s t) (h' : OwnPart e t u) : OwnPart e s u where
  pc := h'.pc.trans h.pc
  loops := h'.loops.trans h.loops
  cycles := h'.cycles.trans h.cycles
  others f hf := (h'.others f hf).trans (h.others f hf)
  rd a h1 h2 := (h'.rd a h1 h2).trans (h.rd a h1 h2)

theorem modEng (h : OwnPart e s t) {f : Engine → Engine}
    (hf : ∀ g, (f g).pc = g.pc ∧ (f g).loops = g.loops ∧ (f g).cycles = g.cycles) : OwnPart e s (t.modEng e f) := by
  obtain ⟨hpc, hloops, hcycles⟩ := hf t.eng[e.val]
  refine h.trans ⟨?_, ?_, ?_, fun g hg => upd_other t.eng f (Ne.symm hg), fun _ _ _ => rfl⟩
  all_goals rw [State.modEng_eng, upd_same]; assumption

theorem put (h : OwnPart e s t) {f : Fld} (hf : f.addr = (F.HLE_ENGSTAT_SAT e).addr ∨ f.addr = (F.HLE_ENGCNT_SATCNT e).addr) (v : Nat) :
    OwnPart e s (t.put f v) :=
  h.trans ⟨rfl, rfl, rfl, fun _ _ => rfl, fun a h1 h2 => State.rd_put_other t f v (by obtain hf | hf := hf <;> rwa [hf])⟩

theorem ite (hs : OwnPart e u s) (ht : OwnPart e u t) {c : Prop} [Decidable c] : OwnPart e u (if c then s else t) := by
  split <;> assumption

theorem setMem20 (h : OwnPart e s t) (a : Nat) (v : Q20) : OwnPart e s (t.setMem20 a v) := by
  obtain ⟨m, hm⟩ := State.setBytes_eq t a (leBytes 4 (v.signExtend 32).toNat)
  rw [State.setMem20, State.setMemWord, hm]
  exact h.trans ⟨rfl, rfl, rfl, fun _ _ => rfl, fun _ _ _ => rfl⟩

theorem drew (h : OwnPart e s t) : OwnPart e s t.drew := h.trans ⟨rfl, rfl, rfl, fun _ _ => rfl, fun _ _ _ => rfl⟩

end OwnPart

/-! ## Going on -/

section
variable (e : Eng) (n : Nat) (s : State)

theorem advance_eng : (advance e n s).eng[e.val] = { s.eng[e.val] with
    pc := (loopNext s.eng[e.val].pc s.eng[e.val].loops).1, loops := (loopNext s.eng[e.val].pc s.eng[e.val].loops).2,
    lastPc := s.eng[e.val].pc, cycles := s.eng[e.val].cycles + n } := by
  rw [advance, State.modEng_eng, upd_same]

@[simp] theorem advance_x : (advance e n s).eng[e.val].x = s.eng[e.val].x := by rw [advance_eng]
@[simp] theorem advance_ix : (advance e n s).eng[e.val].ix = s.eng[e.val].ix := by rw [advance_eng]
@[simp] theorem advance_circ : (advance e n s).eng[e.val].circ = s.eng[e.val].circ := by rw [advance_eng]
@[simp] theorem advance_acc : (advance e n s).eng[e.val].acc = s.eng[e.val].acc := by rw [advance_eng]
@[simp] theorem advance_z : (advance e n s).eng[e.val].z = s.eng[e.val].z := by rw [advance_eng]
@[simp] theorem advance_n : (advance e n s).eng[e.val].n = s.eng[e.val].n := by rw [advance_eng]
@[simp] theorem advance_s : (advance e n s).eng[e.val].s = s.eng[e.val].s := by rw [advance_eng]
@[simp] theorem advance_mem : (advance e n s).mem = s.mem := rfl
@[simp] theorem advance_regs : (advance e n s).regs = s.regs := rfl
@[simp] theorem advance_get (g : Fld) : (advance e n s).get g = s.get g := rfl
@[simp] theorem advance_on (g : Fld) : (advance e n s).on g = s.on g := rfl

/-- The triggers of every engine stand as the instruction goes on. -/
@[simp] theorem advance_pending (f : Eng) : (advance e n s).eng[f.val].pending = s.eng[f.val].pending := by
  by_cases hf : e = f
  · subst hf
    rw [advance_eng]
  · exact congrArg Engine.pending (upd_other s.eng _ hf)

@[simp] theorem xr_advance (i : XReg) : xr (advance e n s) e i = xr s e i := by simp only [xr, advance_x]
@[simp] theorem xi_advance (i : XReg) : xi (advance e n s) e i = xi s e i := by simp only [xi, xr_advance]
@[simp] theorem accOf_advance (a : Fin 2) : accOf (advance e n s) e a = accOf s e a := by simp only [accOf, advance_acc]
@[simp] theorem dataWord_advance (w : Nat) : dataWord (advance e n s) e w = dataWord s e w := rfl
@[simp] theorem mem20_advance (a : Nat) : (advance e n s).mem20 a = s.mem20 a := rfl
@[simp] theorem byte_advance (a : Nat) : (advance e n s).byte a = s.byte a := rfl

variable {s} {t : State} {d : XReg} {v : Q20} {sat : Bool}

@[simp] theorem wroteX_advance : wroteX e d v s (advance e n t) ↔ wroteX e d v s t := by
  simp only [wroteX, advance_x, advance_ix, advance_acc, advance_mem]

@[simp] theorem flagged_advance : flagged e v sat s (advance e n t) ↔ flagged e v sat s t := by
  simp only [flagged, advance_z, advance_n, advance_s, advance_on]

variable {e}

/-- An instruction whose own part leaves the place alone steps on by its cycles. -/
theorem OwnPart.stepped (h : OwnPart e s t) : stepped e n s (advance e n t) := by
  refine ⟨?_, ?_, fun f hf => (upd_other t.eng _ (Ne.symm hf)).trans (h.others f hf), h.rd⟩
  · rw [advance_eng, h.pc, h.loops]
  · rw [advance_eng, h.cycles]

end

/-! ## Registers, flags and accumulators -/

section
variable (e : Eng) (d : XReg) (v : Q20) (s : State)

theorem setX_eng : (setX e d v s).eng[e.val] = { s.eng[e.val] with x := s.eng[e.val].x.set d.val v d.isLt } := upd_same _ e _

@[simp] theorem xr_setX_same : xr (setX e d v s) e d = v := by simp [xr, setX_eng]

theorem xr_setX_other {i : XReg} (h : i ≠ d) : xr (setX e d v s) e i = xr s e i := by
  simp [xr, setX_eng, Vector.getElem_set_ne _ _ (fun hd => h (Fin.ext hd.symm))]

theorem setFlags_eng (z n sat : Bool) : (setFlags e z n sat s).eng[e.val] = { s.eng[e.val] with z := z, n := n, s := sat } := upd_same _ e _

variable {s} {u : State} (h : OwnPart e u s)
include h

theorem OwnPart.setX : OwnPart e u (setX e d v s) := h.modEng fun _ => ⟨rfl, rfl, rfl⟩
theorem OwnPart.setFlags (z n sat : Bool) : OwnPart e u (setFlags e z n sat s) := h.modEng fun _ => ⟨rfl, rfl, rfl⟩
theorem OwnPart.flagsOpen (c : Config.FlagClass) : OwnPart e u (flagsOpen e c v s) := ite (h.setFlags e _ _ _) h
theorem OwnPart.result (sat : Bool) : OwnPart e u (result e d v sat s) :=
  have hflags := (h.setX e d v).setFlags e (v == 0) v.msb sat
  ite (hflags.put (.inl rfl) 1) hflags

end

section
variable (e : Eng) (c : Config.FlagClass) (v : Q20) (s : State)

/-- Open flags are the engine's flags alone. -/
theorem flagsOpen_eng : ∃ z n sat, (flagsOpen e c v s).eng[e.val] = { s.eng[e.val] with z := z, n := n, s := sat } := by
  unfold flagsOpen
  split
  · exact ⟨_, _, _, setFlags_eng e s _ _ _⟩
  · exact ⟨_, _, _, rfl⟩

theorem flagsOpen_mem : (flagsOpen e c v s).mem = s.mem := ite_keeps rfl rfl

end

section
variable (e : Eng) (d : XReg) (v : Q20) (sat : Bool) (s : State)

theorem result_eng : (result e d v sat s).eng[e.val] =
    { s.eng[e.val] with x := s.eng[e.val].x.set d.val v d.isLt, z := v == 0, n := v.msb, s := sat } := by
  have hflags : (flags20 e v sat (setX e d v s)).eng[e.val] =
      { s.eng[e.val] with x := s.eng[e.val].x.set d.val v d.isLt, z := v == 0, n := v.msb, s := sat } := by
    rw [flags20, setFlags_eng, setX_eng]
  exact ite_keeps (π := fun t : State => t.eng[e.val]) hflags hflags

theorem result_mem : (result e d v sat s).mem = s.mem := ite_keeps rfl rfl

theorem wroteX_result : wroteX e d v s (result e d v sat s) := by
  simp only [wroteX, result_eng, result_mem, and_self]

theorem flagged_result : flagged e v sat s (result e d v sat s) := by
  refine ⟨by rw [result_eng], by rw [result_eng], by rw [result_eng], ?_⟩
  cases sat with
  | false => exact (Bool.or_false _).symm
  | true => exact (State.on_put_same _ _ _ (Nat.le_of_ble_eq_true rfl)).trans (Bool.or_true _).symm

/-- A register result of a one-cycle instruction. -/
theorem aluDid_result : aluDid e d v sat s (advance e 1 (result e d v sat s)) :=
  ⟨((OwnPart.refl s).result e d v sat).stepped 1, (wroteX_advance e 1).mpr (wroteX_result e d v sat s),
    (flagged_advance e 1).mpr (flagged_result e d v sat s)⟩

end

/-- A register written, with open flags (log entry 2). -/
theorem wroteX_flagsOpen (e : Eng) (d : XReg) (s : State) (c : Config.FlagClass) (v w : Q20) : wroteX e d v s (flagsOpen e c w (setX e d v s)) := by
  obtain ⟨z, n, sat, heng⟩ := flagsOpen_eng e c w (setX e d v s)
  simp only [wroteX, heng, setX_eng, flagsOpen_mem, true_and]
  rfl

theorem wroteX_same {e : Eng} {d : XReg} {v : Q20} {s t : State} (h : wroteX e d v s t) : xr t e d = v := by
  obtain ⟨hx, -, -, -⟩ := h
  simp [xr, hx]

theorem wroteX_other {e : Eng} {d i : XReg} {v : Q20} {s t : State} (h : wroteX e d v s t) (hi : i ≠ d) : xr t e i = xr s e i := by
  obtain ⟨hx, -, -, -⟩ := h
  simp [xr, hx, Vector.getElem_set_ne _ _ (fun hd => hi (Fin.ext hd.symm))]

/-- A counter below its maximum counts. -/
theorem State.get_count_of_below {s : State} {cnt ovf : Fld} (hw : cnt.lo + cnt.w ≤ 32) (h : s.get cnt < 2 ^ cnt.w - 1) :
    (s.count cnt ovf).get cnt = s.get cnt + 1 := by
  rw [State.count, if_neg (Nat.ne_of_lt h), State.get_put_same _ _ _ hw]
  exact Nat.mod_eq_of_lt (by omega)

end Sys2Proof.Machine
end

section
/-!
SUPPORT. The register instructions (R214, R215): their results as numbers.
-/
namespace Sys2Proof.Machine

theorem ite_sle_eq_min (x y : Q20) : (if x.sle y then x else y) = BitVec.ofInt 20 (min x.toInt y.toInt) := by
  simp only [BitVec.sle_iff_toInt_le]
  split
  · rw [min_eq_left ‹_›, BitVec.ofInt_toInt]
  · rw [min_eq_right (by omega), BitVec.ofInt_toInt]

theorem ite_sle_eq_max (x y : Q20) : (if x.sle y then y else x) = BitVec.ofInt 20 (max x.toInt y.toInt) := by
  simp only [BitVec.sle_iff_toInt_le]
  split
  · rw [max_eq_right ‹_›, BitVec.ofInt_toInt]
  · rw [max_eq_left (by omega), BitVec.ofInt_toInt]

theorem ite_msb_eq_natAbs (v : Q20) : (if v.msb then -v else v) = BitVec.ofInt 20 v.toInt.natAbs := by
  rw [BitVec.msb_eq_toInt]
  simp only [decide_eq_true_eq]
  split
  · rw [Int.ofNat_natAbs_of_nonpos (by omega), BitVec.ofInt_neg, BitVec.ofInt_toInt]
  · rw [Int.natAbs_of_nonneg (by omega), BitVec.ofInt_toInt]

section
variable (e : Eng) (d a b : XReg) (s : State)

theorem absStep_of_positive (h : xr s e a ≠ 0x80000#20) :
    absStep e d a s = result e d (BitVec.ofInt 20 (xi s e a).natAbs) false s := by
  rw [absStep, if_neg h, ite_msb_eq_natAbs]
  rfl

/-- The result of ABS on −1 is free (log entry 16). -/
theorem absStep_of_least (h : xr s e a = 0x80000#20) : ∃ v sat, absStep e d a s = (result e d v sat s).drew :=
  ⟨_, _, if_pos h⟩

theorem cmpStep_eng : (cmpStep e a b s).eng[e.val] =
    { s.eng[e.val] with z := decide (xr s e a = xr s e b), n := (xr s e a).slt (xr s e b), s := false } := by
  rw [cmpStep, setFlags_eng, BitVec.slt_eq_decide, xi, xi]
  simp only [BitVec.toInt_inj]

end

end Sys2Proof.Machine

open Sys2Proof Sys2Proof.Machine in
/-- Settles O31: every register instruction is `result` of its value (`aluDid_result`), MOV and LDI apart, whose flags are open. -/
theorem registerInstructions : Obligations.RegisterInstructions := by
  have hfinite : ∀ {s : State} {e : Eng} {d a b : XReg} {f : Q20 → Q20 → Q20} {v : Q20}, Executes s e 1 → f (xr s e a) (xr s e b) = v →
      (∃ t, (Host.Outcome.next (alu e d a b f s) : Out) = .next t ∧ aluDid e d v false s t) :=
    fun hrun hv => ⟨_, next_instr hrun _, hv ▸ aluDid_result _ _ _ _ _⟩
  refine ⟨?mov, ?ldi, ?add, ?sub, ?neg, ?adds, ?subs, ?negs, ?abs, ?absLeast, ?min,
    ?max, ?shl, ?shr, ?and, ?or, ?xor, ?cmp, ?late, ?idle, ?complete⟩
  case mov =>
    exact fun s e d a hrun => ⟨_, next_instr hrun _, (((OwnPart.refl s).setX e d _).flagsOpen e _ _).stepped 1,
      (wroteX_advance e 1).mpr (wroteX_flagsOpen e d s _ _ _)⟩
  case ldi =>
    exact fun s e d v hrun => ⟨_, next_instr hrun _, (((OwnPart.refl s).setX e d _).flagsOpen e _ _).stepped 1,
      (wroteX_advance e 1).mpr (wroteX_flagsOpen e d s _ _ _)⟩
  case add => exact fun s e d a b hrun => hfinite hrun rfl
  case sub => exact fun s e d a b hrun => hfinite hrun rfl
  case neg => exact fun s e d a hrun => ⟨_, next_instr hrun _, aluDid_result _ _ _ _ _⟩
  case adds => exact fun s e d a b hrun => ⟨_, next_instr hrun _, aluDid_result _ _ _ _ _⟩
  case subs => exact fun s e d a b hrun => ⟨_, next_instr hrun _, aluDid_result _ _ _ _ _⟩
  case negs => exact fun s e d a hrun => ⟨_, next_instr hrun _, aluDid_result _ _ _ _ _⟩
  case abs =>
    intro s e d a hrun hpos
    refine ⟨_, next_instr hrun _, ?_⟩
    rw [absStep_of_positive e d a s hpos]
    exact aluDid_result _ _ _ _ _
  case absLeast =>
    intro s e d a hrun hleast
    obtain ⟨v, sat, hstep⟩ := absStep_of_least e d a s hleast
    refine ⟨_, v, next_instr hrun _, ?_⟩
    rw [hstep]
    exact ⟨((OwnPart.refl s).result e d v sat).drew.stepped 1, (wroteX_advance e 1).mpr (wroteX_result e d v sat s)⟩
  case min => exact fun s e d a b hrun => hfinite hrun (ite_sle_eq_min _ _)
  case max => exact fun s e d a b hrun => hfinite hrun (ite_sle_eq_max _ _)
  case shl => exact fun s e d a n hrun => ⟨_, next_instr hrun _, aluDid_result _ _ _ _ _⟩
  case shr => exact fun s e d a n hrun => ⟨_, next_instr hrun _, aluDid_result _ _ _ _ _⟩
  case and => exact fun s e d a b hrun => hfinite hrun rfl
  case or => exact fun s e d a b hrun => hfinite hrun rfl
  case xor => exact fun s e d a b hrun => hfinite hrun rfl
  case cmp =>
    intro s e a b hrun
    refine ⟨_, next_instr hrun _, ((OwnPart.refl s).setFlags e _ _ _).stepped 1, ?_⟩
    simp only [advance_x, advance_acc, advance_z, advance_n, advance_mem, cmpStep_eng, true_and, and_true]
    rfl
  case late =>
    exact fun s e d a b hlate => ⟨next_instr_late hlate _, next_instr_late hlate _⟩
  case idle =>
    exact fun s e d a b hidle => ⟨next_instr_idle (.inl hidle) _, next_instr_idle (.inl hidle) _,
      next_instr_idle (.inl hidle) _⟩
  case complete =>
    refine ⟨?_, ?_, ?_, ?_, ?_, ?_, ?_, ?_, ?_, ?_, ?_, ?_, ?_, ?_, ?_, ?_, ?_⟩
    all_goals intros; exact exec_next_pending _ _
end

section
/-!
SUPPORT. The operands of an engine's instructions (R210, R211) and the words of its memories (R206, R208).
-/
namespace Sys2Proof.Machine

/-! ## Words of an engine's window -/

theorem isMemory_window {a : Nat} (h : 0x30000000 ≤ a) (h' : a < 0x30040000) : isMemory a = true := by
  rw [isMemory_iff]
  omega

theorem isMemory_dataAddr (e : Eng) (w k : Nat) (h : dataAddr e (w % 2048) ≤ k) (h' : k < dataAddr e (w % 2048) + 4) :
    isMemory k = true := by
  have he := e.isLt
  unfold dataAddr at h h'
  exact isMemory_window (by omega) (by omega)

theorem isMemory_coefAddr (e : Eng) (bank : Bool) (w k : Nat) (h : coefAddr e bank w ≤ k) (h' : k < coefAddr e bank w + 4) :
    isMemory k = true := by
  have he := e.isLt
  have hbank := Bool.toNat_le bank
  unfold coefAddr engBase at h h'
  exact isMemory_window (by omega) (by omega)

section
variable (s : State) (a : Nat) (v : Q20)

theorem State.setMem20_eq : ∃ m, s.setMem20 a v = { s with mem := m } := State.setBytes_eq s a _

@[simp] theorem State.setMem20_eng : (s.setMem20 a v).eng = s.eng := by
  obtain ⟨m, hm⟩ := s.setMem20_eq a v
  rw [hm]

theorem State.setMem20_outside : outsideWord a s (s.setMem20 a v) := fun k hk =>
  State.byte_setBytes_other s _ a k (by rwa [leBytes_length])

theorem State.mem20_setMem20_other {b : Nat} (h : b + 4 ≤ a ∨ a + 4 ≤ b) : (s.setMem20 a v).mem20 b = s.mem20 b :=
  congrArg (fun l => (BitVec.ofNat 32 (leValue l)).setWidth 20) (State.bytes_setBytes_other s _ (by rwa [leBytes_length]))

end

/-! ## Index registers -/

section
variable (e : Eng) (m : MemOperand) (s : State)

/-- A post-increment changes the index register it names and nothing else. -/
theorem bumpIx_eng : ∃ ix, (bumpIx e m s).eng[e.val] = { s.eng[e.val] with ix := ix } ∧
    ∀ i : Fin 8, m ≠ .postInc i → ix[i.val] = s.eng[e.val].ix[i.val] := by
  cases m with
  | direct w => exact ⟨_, rfl, fun _ _ => rfl⟩
  | indexed j => exact ⟨_, rfl, fun _ _ => rfl⟩
  | postInc j =>
    refine ⟨_, upd_same _ e _, fun i hi => Vector.getElem_set_ne _ _ fun hij => hi ?_⟩
    rw [Fin.ext hij]

theorem bumpIx_ix {i : Fin 8} (hi : m ≠ .postInc i) : (bumpIx e m s).eng[e.val].ix[i.val] = s.eng[e.val].ix[i.val] := by
  obtain ⟨ix, heng, hix⟩ := bumpIx_eng e m s
  simp only [heng, hix i hi]

@[simp] theorem bumpIx_x : (bumpIx e m s).eng[e.val].x = s.eng[e.val].x := by
  obtain ⟨ix, heng, -⟩ := bumpIx_eng e m s
  rw [heng]

@[simp] theorem bumpIx_acc : (bumpIx e m s).eng[e.val].acc = s.eng[e.val].acc := by
  obtain ⟨ix, heng, -⟩ := bumpIx_eng e m s
  rw [heng]

@[simp] theorem bumpIx_s : (bumpIx e m s).eng[e.val].s = s.eng[e.val].s := by
  obtain ⟨ix, heng, -⟩ := bumpIx_eng e m s
  rw [heng]

@[simp] theorem bumpIx_mem : (bumpIx e m s).mem = s.mem := by cases m <;> rfl
@[simp] theorem bumpIx_on (g : Fld) : (bumpIx e m s).on g = s.on g := by cases m <;> rfl

@[simp] theorem xr_bumpIx (i : XReg) : xr (bumpIx e m s) e i = xr s e i := by simp only [xr, bumpIx_x]
@[simp] theorem accOf_bumpIx (a : Fin 2) : accOf (bumpIx e m s) e a = accOf s e a := by simp only [accOf, bumpIx_acc]

theorem OwnPart.bumpIx {u : State} {s : State} (h : OwnPart e u s) : OwnPart e u (bumpIx e m s) := by
  cases m with
  | direct w => exact h
  | indexed j => exact h
  | postInc j => exact h.modEng fun _ => ⟨rfl, rfl, rfl⟩

variable (o : MulOperand)

@[simp] theorem bumpMul_x : (bumpMul e o s).eng[e.val].x = s.eng[e.val].x := by cases o <;> simp [bumpMul]
@[simp] theorem bumpMul_s : (bumpMul e o s).eng[e.val].s = s.eng[e.val].s := by cases o <;> simp [bumpMul]
@[simp] theorem bumpMul_mem : (bumpMul e o s).mem = s.mem := by cases o <;> simp [bumpMul]
@[simp] theorem bumpMul_on (g : Fld) : (bumpMul e o s).on g = s.on g := by cases o <;> simp [bumpMul]
@[simp] theorem accOf_bumpMul (a : Fin 2) : accOf (bumpMul e o s) e a = accOf s e a := by cases o <;> simp [bumpMul]

theorem OwnPart.bumpMul {u : State} {s : State} (h : OwnPart e u s) : OwnPart e u (bumpMul e o s) := by
  cases o with
  | coef a c => exact h.bumpIx e c
  | regs a b => exact h

end

/-! ## Loads and stores (R215, R229, R231, R234) -/

/-- LD and LDC write their word to a data register; of the index registers only a post-incremented one may change. -/
theorem loadStep_spec (e : Eng) (d : XReg) (m : MemOperand) (coef : Bool) (s : State) :
    let t := advance e 1 (loadStep e d m coef s)
    stepped e 1 s t ∧ xr t e d = (if coef then coefWord s e (wordOf s e m) else dataWord s e (wordOf s e m)) ∧
      (∀ i : XReg, i ≠ d → xr t e i = xr s e i) ∧ t.eng[e.val].acc = s.eng[e.val].acc ∧ t.mem = s.mem ∧
      (∀ i : Fin 8, m ≠ .postInc i → t.eng[e.val].ix[i.val] = s.eng[e.val].ix[i.val]) := by
  have hwrote := wroteX_flagsOpen e d s .load (if coef then coefWord s e (wordOf s e m) else dataWord s e (wordOf s e m))
    (if coef then coefWord s e (wordOf s e m) else dataWord s e (wordOf s e m))
  have ⟨_, hix, hacc, hmem⟩ := hwrote
  refine ⟨((((OwnPart.refl s).setX e d _).flagsOpen e _ _).bumpIx e m).stepped 1, ?_, fun i hi => ?_, ?_, ?_, fun i hi => ?_⟩
  · rw [xr_advance, loadStep, xr_bumpIx]
    exact wroteX_same hwrote
  · rw [xr_advance, loadStep, xr_bumpIx]
    exact wroteX_other hwrote hi
  · rw [advance_acc, loadStep, bumpIx_acc]
    exact hacc
  · rw [advance_mem, loadStep, bumpIx_mem]
    exact hmem
  · simp only [advance_ix, loadStep, bumpIx_ix e m _ hi]
    exact congrArg (·[i.val]) hix

/-- ST and STC write the word at an address of the window. -/
theorem store_spec (e : Eng) (m : MemOperand) {a : Nat} (hmem : ∀ k, a ≤ k → k < a + 4 → isMemory k = true) (v : Q20) (s : State) :
    let t := advance e 1 (bumpIx e m (s.setMem20 a v))
    stepped e 1 s t ∧ t.mem20 a = v ∧ outsideWord a s t ∧ t.eng[e.val].x = s.eng[e.val].x ∧ t.eng[e.val].acc = s.eng[e.val].acc ∧
      (∀ i : Fin 8, m ≠ .postInc i → t.eng[e.val].ix[i.val] = s.eng[e.val].ix[i.val]) := by
  have hbumped : (bumpIx e m (s.setMem20 a v)).mem = (s.setMem20 a v).mem := bumpIx_mem e m _
  refine ⟨(((OwnPart.refl s).setMem20 a v).bumpIx e m).stepped 1, ?_, fun k hk => ?_, ?_, ?_, fun i hi => ?_⟩
  · exact (congrArg (BitVec.setWidth 20) (State.memWord_of_mem hbumped a)).trans (s.mem20_setMem20_same v hmem)
  · exact (State.byte_of_mem hbumped k).trans (s.setMem20_outside a v k hk)
  · rw [advance_x, bumpIx_x, State.setMem20_eng]
  · rw [advance_acc, bumpIx_acc, State.setMem20_eng]
  · simp only [advance_ix, bumpIx_ix e m _ hi, State.setMem20_eng]

end Sys2Proof.Machine

open Sys2Proof Sys2Proof.Machine in
/-- Settles O32, by what a load writes (`loadStep_spec`) and what a store leaves (`store_spec`). -/
theorem loadsAndStores : Obligations.LoadsAndStores := by
  refine ⟨?ld, ?ldc, ?st, ?stc, ?complete⟩
  case ld => exact fun s e d m hrun => ⟨_, next_instr hrun _, loadStep_spec e d m false s⟩
  case ldc => exact fun s e d m hrun => ⟨_, next_instr hrun _, loadStep_spec e d m true s⟩
  case st => exact fun s e m a hrun => ⟨_, next_instr hrun _, store_spec e m (isMemory_dataAddr e _) _ s⟩
  case stc => exact fun s e m a hrun => ⟨_, next_instr hrun _, store_spec e m (isMemory_coefAddr e _ _) _ s⟩
  case complete =>
    refine ⟨?_, ?_, ?_, ?_⟩
    all_goals intros; exact exec_next_pending _ _
end

section
/-!
SUPPORT. Accumulators (R211 to R213): a value limited to Q12.36, the multiplies, and the conversions back to a data register.
-/
namespace Sys2Proof.Machine

/-! ## A limited value is its own bits -/

theorem toInt_ofInt_of_range {w : Nat} {i : Int} (h : -(2 ^ w : Nat) ≤ i ∧ i < (2 ^ w : Nat)) : (BitVec.ofInt (w + 1) i).toInt = i := by
  obtain ⟨hlo, hhi⟩ := h
  refine BitVec.toInt_ofInt_eq_self (Nat.succ_pos w) ?_ ?_ <;> simpa using ‹_›

theorem toInt_ofInt_clipSigned (w : Nat) (i : Int) : (BitVec.ofInt (w + 1) (clipSigned (w + 1) i)).toInt = clipSigned (w + 1) i :=
  toInt_ofInt_of_range (clipSigned_range w i)

/-! ## One accumulator -/

/-- The flags of an accumulator result, where such results set them (log entry 2). -/
def accFlags (e : Eng) (c : Int) (sat : Bool) (s : State) : State :=
  if Config.setsFlags .accumulator then setFlags e (c == 0) (decide (c < 0)) sat s else s

/-- S and AOVF of a limited accumulator (R212). -/
def accLimited (e : Eng) (s : State) : State := (s.put (F.HLE_ENGSTAT_AOVF e) 1).modEng e (fun g => { g with s := true })

section
variable (e : Eng) (a : Fin 2) (v : Int) (s : State)

theorem accResult_eq : accResult e a v s = (accFlags e (clipSigned 48 v) (decide (clipSigned 48 v ≠ v)) (setAcc e a (clipSigned 48 v) s)).when
    (decide (clipSigned 48 v ≠ v)) (accLimited e) := rfl

theorem accFlags_eng (c : Int) (sat : Bool) :
    ∃ z n f, (accFlags e c sat s).eng[e.val] = { s.eng[e.val] with z := z, n := n, s := f } := by
  unfold accFlags
  split
  · exact ⟨_, _, _, setFlags_eng e s _ _ _⟩
  · exact ⟨_, _, _, rfl⟩

theorem accLimited_eng : (accLimited e s).eng[e.val] = { s.eng[e.val] with s := true } := upd_same _ e _

theorem setAcc_eng (c : Int) :
    (setAcc e a c s).eng[e.val] = { s.eng[e.val] with acc := s.eng[e.val].acc.set a.val (BitVec.ofInt 48 c) a.isLt } := upd_same _ e _

/-- The accumulator is written, with flags; a limited value sets S. -/
theorem accResult_eng : ∃ z n f, (accResult e a v s).eng[e.val] =
    { s.eng[e.val] with acc := s.eng[e.val].acc.set a.val (BitVec.ofInt 48 (clipSigned 48 v)) a.isLt, z := z, n := n, s := f } ∧
      (clipSigned 48 v ≠ v → f = true) := by
  obtain ⟨z, n, f, hflags⟩ := accFlags_eng e (setAcc e a (clipSigned 48 v) s) (clipSigned 48 v) (decide (clipSigned 48 v ≠ v))
  rw [setAcc_eng] at hflags
  rw [accResult_eq, State.when]
  by_cases hlim : clipSigned 48 v ≠ v
  · rw [if_pos (decide_eq_true hlim), accLimited_eng, hflags]
    exact ⟨z, n, true, rfl, fun _ => rfl⟩
  · rw [if_neg (by simpa using hlim), hflags]
    exact ⟨z, n, f, rfl, fun h => absurd h hlim⟩

@[simp] theorem accResult_x : (accResult e a v s).eng[e.val].x = s.eng[e.val].x := by
  obtain ⟨z, n, f, heng, -⟩ := accResult_eng e a v s
  rw [heng]

theorem accResult_s (h : clipSigned 48 v ≠ v) : (accResult e a v s).eng[e.val].s = true := by
  obtain ⟨z, n, f, heng, hsat⟩ := accResult_eng e a v s
  rw [heng]
  exact hsat h

@[simp] theorem accOf_accResult_same : accOf (accResult e a v s) e a = clipSigned 48 v := by
  obtain ⟨z, n, f, heng, -⟩ := accResult_eng e a v s
  simp only [accOf, heng, Vector.getElem_set_self]
  exact toInt_ofInt_clipSigned 47 v

theorem accOf_accResult_other {b : Fin 2} (h : b ≠ a) : accOf (accResult e a v s) e b = accOf s e b := by
  obtain ⟨z, n, f, heng, -⟩ := accResult_eng e a v s
  simp only [accOf, heng, Vector.getElem_set_ne _ _ (fun hab => h (Fin.ext hab.symm))]

@[simp] theorem accResult_mem : (accResult e a v s).mem = s.mem :=
  have hflags : ∀ sat, (accFlags e (clipSigned 48 v) sat (setAcc e a (clipSigned 48 v) s)).mem = s.mem := fun _ => ite_keeps rfl rfl
  ite_keeps (hflags _) (hflags _)

/-- AOVF is sticky. -/
theorem accResult_aovf :
    (accResult e a v s).on (F.HLE_ENGSTAT_AOVF e) = (s.on (F.HLE_ENGSTAT_AOVF e) || decide (clipSigned 48 v ≠ v)) := by
  have hflags : ∀ sat, (accFlags e (clipSigned 48 v) sat (setAcc e a (clipSigned 48 v) s)).on (F.HLE_ENGSTAT_AOVF e) =
      s.on (F.HLE_ENGSTAT_AOVF e) := fun _ => ite_keeps (π := fun t : State => t.on (F.HLE_ENGSTAT_AOVF e)) rfl rfl
  rw [accResult_eq, State.when]
  by_cases hlim : clipSigned 48 v ≠ v
  · rw [decide_eq_true hlim, if_pos rfl, Bool.or_true]
    exact State.on_put_same _ _ _ (Nat.le_of_ble_eq_true rfl)
  · rw [decide_eq_false hlim, if_neg Bool.false_ne_true, hflags, Bool.or_false]

theorem OwnPart.accResult {u s : State} (h : OwnPart e u s) : OwnPart e u (accResult e a v s) := by
  have hset : OwnPart e u (setAcc e a (clipSigned 48 v) s) := h.modEng fun _ => ⟨rfl, rfl, rfl⟩
  have hflags : ∀ sat, OwnPart e u (accFlags e (clipSigned 48 v) sat (setAcc e a (clipSigned 48 v) s)) := fun sat =>
    ite (c := Config.setsFlags .accumulator = true) (hset.setFlags e _ _ _) hset
  have hlimited : ∀ sat, OwnPart e u (accLimited e (accFlags e (clipSigned 48 v) sat (setAcc e a (clipSigned 48 v) s))) := fun sat =>
    ((hflags sat).put (f := F.HLE_ENGSTAT_AOVF e) (.inl rfl) 1).modEng fun _ => ⟨rfl, rfl, rfl⟩
  exact ite (c := decide (clipSigned 48 v ≠ v) = true) (hlimited _) (hflags _)

/-- A result into one accumulator. -/
theorem accDid_accResult : accDid e a v s (advance e 1 (accResult e a v s)) := by
  refine ⟨((OwnPart.refl s).accResult e a v).stepped 1, by simp, fun b hb => ?_, by simp, by simp, fun hlim => ⟨?_, ?_⟩⟩
  · rw [accOf_advance, accOf_accResult_other e a v s hb]
  · rw [advance_s, accResult_s e a v s hlim]
  · rw [advance_on, accResult_aovf, decide_eq_true hlim, Bool.or_true]

/-- A multiply into one accumulator, with the post-increment of its operand. -/
theorem accDid_mulStep (o : MulOperand) : accDid e a v s (advance e 1 (bumpMul e o (accResult e a v s))) := by
  refine ⟨(((OwnPart.refl s).accResult e a v).bumpMul e o).stepped 1, by simp, fun b hb => ?_, by simp, by simp, fun hlim => ⟨?_, ?_⟩⟩
  · rw [accOf_advance, accOf_bumpMul, accOf_accResult_other e a v s hb]
  · rw [advance_s, bumpMul_s, accResult_s e a v s hlim]
  · rw [advance_on, bumpMul_on, accResult_aovf, decide_eq_true hlim, Bool.or_true]

end

/-! ## Both accumulators -/

/-- Both accumulators hold their limited values; the data registers and memory stand, and a limited one marks AOVF. -/
structure BothWritten (e : Eng) (v0 v1 : Int) (s t : State) : Prop where
  own : OwnPart e s t
  acc0 : accOf t e 0 = clipSigned 48 v0
  acc1 : accOf t e 1 = clipSigned 48 v1
  x : t.eng[e.val].x = s.eng[e.val].x
  mem : t.mem = s.mem
  aovf : clipSigned 48 v0 ≠ v0 ∨ clipSigned 48 v1 ≠ v1 → t.on (F.HLE_ENGSTAT_AOVF e) = true

section
variable (e : Eng) (v0 v1 : Int) (s : State)

theorem aovf_accResult_twice (a b : Fin 2) {va vb : Int} (h : clipSigned 48 va ≠ va ∨ clipSigned 48 vb ≠ vb) :
    (accResult e a va (accResult e b vb s)).on (F.HLE_ENGSTAT_AOVF e) = true := by
  rw [accResult_aovf, accResult_aovf]
  obtain h | h := h <;> simp [h]

/-- The results of a dual multiply in either order, before the S of both. -/
def dualWritten : State :=
  if bitAt s.free.toNat 0 then accResult e 1 v1 (accResult e 0 v0 s.drew) else accResult e 0 v0 (accResult e 1 v1 s.drew)

theorem bothWritten_dualWritten : BothWritten e v0 v1 s (dualWritten e v0 v1 s) := by
  have hdrew : OwnPart e s s.drew := (OwnPart.refl s).drew
  unfold dualWritten
  split
  · exact ⟨(hdrew.accResult e 0 v0).accResult e 1 v1, by rw [accOf_accResult_other e 1 v1 _ (by decide), accOf_accResult_same],
      accOf_accResult_same e 1 v1 _, by simp, by simp, fun h => aovf_accResult_twice e _ 1 0 h.symm⟩
  · exact ⟨(hdrew.accResult e 1 v1).accResult e 0 v0, accOf_accResult_same e 0 v0 _,
      by rw [accOf_accResult_other e 0 v0 _ (by decide), accOf_accResult_same], by simp, by simp, fun h => aovf_accResult_twice e _ 0 1 h⟩

/-- A dual result limits its values one by one and sets S where either was limited. -/
theorem bothWritten_dualResult : BothWritten e v0 v1 s (dualResult e v0 v1 s) ∧
    (clipSigned 48 v0 ≠ v0 ∨ clipSigned 48 v1 ≠ v1 → (dualResult e v0 v1 s).eng[e.val].s = true) := by
  have hwritten := bothWritten_dualWritten e v0 v1 s
  have heq : dualResult e v0 v1 s = if (decide (clipSigned 48 v0 ≠ v0) || decide (clipSigned 48 v1 ≠ v1)) = true then
    (dualWritten e v0 v1 s).modEng e (fun g => { g with s := true }) else dualWritten e v0 v1 s := rfl
  have heng : ((dualWritten e v0 v1 s).modEng e (fun g => { g with s := true })).eng[e.val] =
    { (dualWritten e v0 v1 s).eng[e.val] with s := true } := upd_same _ e _
  rw [heq]
  split
  · refine ⟨⟨hwritten.own.modEng fun _ => ⟨rfl, rfl, rfl⟩, ?_, ?_, ?_, hwritten.mem, hwritten.aovf⟩, fun _ => ?_⟩
    · simpa only [accOf, heng] using hwritten.acc0
    · simpa only [accOf, heng] using hwritten.acc1
    · rw [heng]
      exact hwritten.x
    · rw [heng]
  · next hlim => exact ⟨hwritten, fun h => absurd (by simpa using h) hlim⟩

/-- A multiply into both accumulators, with the post-increments of its operands. -/
theorem dualStep_spec (o0 o1 : MulOperand) :
    let t := advance e 1 (bumpMul e o1 (bumpMul e o0 (dualResult e v0 v1 s)))
    stepped e 1 s t ∧ accOf t e 0 = clipSigned 48 v0 ∧ accOf t e 1 = clipSigned 48 v1 ∧ t.eng[e.val].x = s.eng[e.val].x ∧ t.mem = s.mem ∧
      (clipSigned 48 v0 ≠ v0 ∨ clipSigned 48 v1 ≠ v1 → t.eng[e.val].s = true ∧ t.on (F.HLE_ENGSTAT_AOVF e) = true) := by
  obtain ⟨hboth, hs⟩ := bothWritten_dualResult e v0 v1 s
  simp only [accOf_advance, advance_x, advance_mem, advance_s, advance_on, accOf_bumpMul, bumpMul_x, bumpMul_mem, bumpMul_s, bumpMul_on]
  exact ⟨((hboth.own.bumpMul e o0).bumpMul e o1).stepped 1, hboth.acc0, hboth.acc1, hboth.x, hboth.mem, fun h => ⟨hs h, hboth.aovf h⟩⟩

end

/-! ## Shifts and conversions -/

/-- ASH by a count of places. -/
theorem ashStep_left (e : Eng) (c : Fin 2) (n : Nat) (s : State) : ashStep e c n s = accResult e c (accOf s e c * 2 ^ n) s := by
  rw [ashStep, if_pos (Int.natCast_nonneg n), Int.toNat_natCast]
  norm_cast

theorem ashStep_right (e : Eng) (c : Fin 2) {n : Nat} (h : n ≠ 0) (s : State) : ashStep e c (-n) s = accResult e c (accOf s e c / 2 ^ n) s := by
  rw [ashStep, if_neg (by omega), neg_neg, Int.toNat_natCast]
  norm_cast

section
variable (e : Eng)

/-- The count of a conversion's saturations, before its result. -/
def satCounted (sat : Bool) (s : State) : State := s.when sat (fun s => s.count (F.HLE_ENGCNT_SATCNT e) (F.HLE_ENGCNT_SATOVF e))

theorem satCounted_eng (sat : Bool) (s : State) : (satCounted e sat s).eng = s.eng := ite_keeps (ite_keeps rfl rfl) rfl
theorem satCounted_mem (sat : Bool) (s : State) : (satCounted e sat s).mem = s.mem := ite_keeps (ite_keeps rfl rfl) rfl

theorem butFor_satCounted (sat : Bool) (s : State) :
    ButFor [F.HLE_ENGCNT_SATCNT e, F.HLE_ENGCNT_SATOVF e] s (satCounted e sat s) :=
  (ButFor.refl s).when ((ButFor.refl s).count (by simp) (by simp)) sat

theorem ownPart_satCounted (sat : Bool) (s : State) : OwnPart e s (satCounted e sat s) := by
  have hovf : OwnPart e s (s.put (F.HLE_ENGCNT_SATOVF e) 1) := (OwnPart.refl s).put (f := F.HLE_ENGCNT_SATOVF e) (.inr rfl) 1
  have hcnt : OwnPart e s (s.put (F.HLE_ENGCNT_SATCNT e) (s.get (F.HLE_ENGCNT_SATCNT e) + 1)) :=
    (OwnPart.refl s).put (f := F.HLE_ENGCNT_SATCNT e) (.inr rfl) _
  unfold satCounted State.when State.count
  exact OwnPart.ite (OwnPart.ite hovf hcnt) (OwnPart.refl s)

/-- A counter below its maximum counts a saturation. -/
theorem satCounted_count {s : State} (h : s.get (F.HLE_ENGCNT_SATCNT e) < 32767) :
    (satCounted e true s).get (F.HLE_ENGCNT_SATCNT e) = s.get (F.HLE_ENGCNT_SATCNT e) + 1 := by
  rw [satCounted, State.when, if_pos rfl]
  exact State.get_count_of_below (Nat.le_of_ble_eq_true rfl) h

/-- A register result leaves every register but STAT. -/
theorem result_get (d : XReg) (v : Q20) (sat : Bool) (s : State) (g : Fld) (hg : g.lo + g.w ≤ 32 := by clear * -; decide +revert)
    (hd : (F.HLE_ENGSTAT_SAT e).disj g = true := by clear * -; decide +revert) : (result e d v sat s).get g = s.get g :=
  ite_keeps (π := fun t : State => t.get g) (State.get_put_disj _ _ g 1 hg hd) rfl

/-- RND and RNDC: the rounded value is limited into a data register, and a saturation is counted (R213). -/
theorem convert_spec (d : XReg) (c : Fin 2) (sh : Nat) {v : Int} (s : State) (hv : v = (accOf s e c + (2 ^ (sh - 1) : Nat)) / (2 ^ sh : Nat)) :
    let t := advance e 1 (convert e d c sh s)
    aluDid e d (BitVec.ofInt 20 (clipSigned 20 v)) (decide (clipSigned 20 v ≠ v)) s t ∧
      (clipSigned 20 v ≠ v → s.get (F.HLE_ENGCNT_SATCNT e) < 32767 → t.get (F.HLE_ENGCNT_SATCNT e) = s.get (F.HLE_ENGCNT_SATCNT e) + 1) := by
  have heq : convert e d c sh s =
      result e d (BitVec.ofInt 20 (clipSigned 20 v)) (decide (clipSigned 20 v ≠ v)) (satCounted e (decide (clipSigned 20 v ≠ v)) s) := by
    rw [hv]
    rfl
  obtain ⟨-, hwrote, hflags⟩ := aluDid_result e d (BitVec.ofInt 20 (clipSigned 20 v)) (decide (clipSigned 20 v ≠ v))
    (satCounted e (decide (clipSigned 20 v ≠ v)) s)
  rw [heq]
  refine ⟨⟨((ownPart_satCounted e _ s).result e d _ _).stepped 1, ?_, ?_⟩, fun hlim hcount => ?_⟩
  · simpa only [wroteX, satCounted_eng, satCounted_mem] using hwrote
  · simpa only [flagged, (butFor_satCounted e _ s).on (F.HLE_ENGSTAT_SAT e)] using hflags
  · rw [advance_get, result_get e d _ _ _ (F.HLE_ENGCNT_SATCNT e), decide_eq_true hlim]
    exact satCounted_count e hcount

end

end Sys2Proof.Machine

open Sys2Proof Sys2Proof.Machine in
/-- Settles O33: single results by `accDid_accResult`, the dual forms by `dualStep_spec`, the conversions by `convert_spec`. -/
theorem multipliesAndAccumulators : Obligations.MultipliesAndAccumulators := by
  refine ⟨?mpy, ?mac, ?msu, ?dmpy, ?dmac, ?dmsu, ?clr, ?ash, ?rnd, ?rndc⟩
  case mpy => exact fun s e c o hrun => ⟨_, next_instr hrun _, accDid_mulStep e c _ s o⟩
  case mac => exact fun s e c o hrun => ⟨_, next_instr hrun _, accDid_mulStep e c _ s o⟩
  case msu => exact fun s e c o hrun => ⟨_, next_instr hrun _, accDid_mulStep e c _ s o⟩
  case dmpy => exact fun s e o0 o1 hrun => ⟨_, next_instr hrun _, dualStep_spec e _ _ s o0 o1⟩
  case dmac => exact fun s e o0 o1 hrun => ⟨_, next_instr hrun _, dualStep_spec e _ _ s o0 o1⟩
  case dmsu => exact fun s e o0 o1 hrun => ⟨_, next_instr hrun _, dualStep_spec e _ _ s o0 o1⟩
  case clr => exact fun s e c hrun => ⟨_, next_instr hrun _, accDid_accResult e c 0 s⟩
  case ash =>
    intro s e c n hrun _
    refine ⟨⟨_, next_instr hrun _, ?_⟩, fun hn => ⟨_, next_instr hrun _, ?_⟩⟩
    · rw [ashStep_left]
      exact accDid_accResult e c _ s
    · rw [ashStep_right e c hn]
      exact accDid_accResult e c _ s
  case rnd => exact fun s e d c hrun => ⟨_, next_instr hrun _, convert_spec e d c 17 s rfl⟩
  case rndc => exact fun s e d c hrun => ⟨_, next_instr hrun _, convert_spec e d c 19 s rfl⟩
end

section
/-!
SUPPORT. INTG (R229, R233), the biquad (R256), and the instructions that round (R215).
-/
namespace Sys2Proof.Machine

/-! ## Words of equal memories -/

theorem State.byte_congr {s t : State} (h : t.mem = s.mem) (a : Nat) : t.byte a = s.byte a := congrArg (Tab.get blankByte · a) h

theorem State.mem20_congr {s t : State} (h : t.mem = s.mem) (a : Nat) : t.mem20 a = s.mem20 a := by
  simp only [State.mem20, State.memWord, State.bytes, State.byte_congr h]

/-! ## INTG -/

section
variable (e : Eng) (d : XReg) (st : Nat) (a : XReg) (g : MemOperand) (s : State)

/-- The integral of INTG, clamped to its limits. -/
def integral : Int :=
  min (max (((dataWord s e st).toInt * 2 ^ 17 + (coefWord s e (wordOf s e g)).toInt * xi s e a + 2 ^ 16) / 2 ^ 17) (dataWord s e (st + 1)).toInt)
    (dataWord s e (st + 2)).toInt

/-- The state word of INTG, written back while the loop is closed. -/
def integralStored : State :=
  if s.on (F.HLE_ENGSTAT_OPENACT e) then s else s.setMem20 (dataAddr e (st % 2048)) (BitVec.ofInt 20 (integral e st a g s))

theorem intgStep_eq : intgStep e d st a g s =
    bumpIx e g (result e d (BitVec.ofInt 20 (integral e st a g s)) false (integralStored e st a g s)) := rfl

theorem integralStored_eng : (integralStored e st a g s).eng = s.eng := ite_keeps rfl (s.setMem20_eng _ _)

theorem ownPart_integralStored : OwnPart e s (integralStored e st a g s) := .ite (.refl s) ((OwnPart.refl s).setMem20 _ _)

theorem intgStep_spec :
    let t := advance e 2 (intgStep e d st a g s)
    stepped e 2 s t ∧ xr t e d = BitVec.ofInt 20 (integral e st a g s) ∧ (∀ i : XReg, i ≠ d → xr t e i = xr s e i) ∧
      t.mem = (integralStored e st a g s).mem := by
  rw [intgStep_eq]
  have hwrote := wroteX_result e d (BitVec.ofInt 20 (integral e st a g s)) false (integralStored e st a g s)
  refine ⟨(((ownPart_integralStored e st a g s).result e d _ false).bumpIx e g).stepped 2, ?_, fun i hi => ?_, ?_⟩
  · rw [xr_advance, xr_bumpIx]
    exact wroteX_same hwrote
  · rw [xr_advance, xr_bumpIx, wroteX_other hwrote hi, xr, integralStored_eng, xr]
  · rw [advance_mem, bumpIx_mem, result_mem]

theorem integralStored_of_open (h : s.on (F.HLE_ENGSTAT_OPENACT e) = true) : integralStored e st a g s = s := if_pos h

theorem integralStored_of_closed (h : s.on (F.HLE_ENGSTAT_OPENACT e) = false) :
    integralStored e st a g s = s.setMem20 (dataAddr e (st % 2048)) (BitVec.ofInt 20 (integral e st a g s)) :=
  if_neg (Bool.eq_false_iff.mp h)

end

/-! ## BIQ -/

/-- The two state words of BIQ are two words. -/
theorem dataAddr_apart (e st : Nat) :
    dataAddr e (st % 2048) + 4 ≤ dataAddr e ((st + 1) % 2048) ∨ dataAddr e ((st + 1) % 2048) + 4 ≤ dataAddr e (st % 2048) := by
  unfold dataAddr
  omega

/-- Two words stored, one after the other. -/
def pairStored (e : Eng) (st : Nat) (n1 n2 : Q20) (s : State) : State :=
  (s.setMem20 (dataAddr e (st % 2048)) n1).setMem20 (dataAddr e ((st + 1) % 2048)) n2

theorem pairStored_words (e : Eng) (st : Nat) (n1 n2 : Q20) (s : State) :
    dataWord (pairStored e st n1 n2 s) e st = n1 ∧ dataWord (pairStored e st n1 n2 s) e (st + 1) = n2 :=
  ⟨(State.mem20_setMem20_other _ _ _ (dataAddr_apart e st)).trans (State.mem20_setMem20_same _ _ (isMemory_dataAddr e st)),
    State.mem20_setMem20_same _ _ (isMemory_dataAddr e (st + 1))⟩

theorem pairStored_byte (e : Eng) (st : Nat) (n1 n2 : Q20) (s : State) {k : Nat}
    (h1 : k < dataAddr e (st % 2048) ∨ dataAddr e (st % 2048) + 4 ≤ k)
    (h2 : k < dataAddr e ((st + 1) % 2048) ∨ dataAddr e ((st + 1) % 2048) + 4 ≤ k) : (pairStored e st n1 n2 s).byte k = s.byte k :=
  (State.setMem20_outside _ _ _ k h2).trans (State.setMem20_outside s _ _ k h1)

/-- What BIQ leaves for an output and two state words. -/
def biqDone (e : Eng) (d : XReg) (st : Nat) (y n1 n2 : Q20) (s : State) : State := result e d y false (pairStored e st n1 n2 s.drew.drew.drew)

section
variable (e : Eng) (d : XReg) (st : Nat) (y n1 n2 : Q20) (s : State)

theorem wroteX_biqDone : wroteX e d y (pairStored e st n1 n2 s.drew.drew.drew) (biqDone e d st y n1 n2 s) := wroteX_result e d y false _

theorem pairStored_eng : (pairStored e st n1 n2 s).eng = s.eng := by rw [pairStored, State.setMem20_eng, State.setMem20_eng]

theorem biqDone_mem : (biqDone e d st y n1 n2 s).mem = (pairStored e st n1 n2 s.drew.drew.drew).mem := result_mem e d y false _

theorem biqDone_spec :
    let t := advance e 4 (biqDone e d st y n1 n2 s)
    stepped e 4 s t ∧ xr t e d = y ∧ (∀ i : XReg, i ≠ d → xr t e i = xr s e i) ∧ t.eng[e.val].acc = s.eng[e.val].acc ∧
      t.mem = (pairStored e st n1 n2 s.drew.drew.drew).mem := by
  have hwrote := wroteX_biqDone e d st y n1 n2 s
  have ⟨_, _, hacc, _⟩ := hwrote
  have hstored : OwnPart e s (pairStored e st n1 n2 s.drew.drew.drew) := ((OwnPart.refl s).drew.drew.drew.setMem20 _ _).setMem20 _ _
  refine ⟨(hstored.result e d y false).stepped 4, ?_, fun i hi => ?_, ?_, biqDone_mem e d st y n1 n2 s⟩
  · rw [xr_advance, wroteX_same hwrote]
  · rw [xr_advance, wroteX_other hwrote hi, xr, pairStored_eng]
    rfl
  · rw [advance_acc, hacc, pairStored_eng]
    rfl

end

theorem roundFree_of_exact (s : State) {num q : Int} {den : Nat} (hden : den ≠ 0) (h : num = q * den) : s.roundFree num den = q := by
  have hpos : (den : Int) ≠ 0 := Int.natCast_ne_zero.mpr hden
  rw [State.roundFree, h, Int.mul_emod_left, if_pos rfl, Int.mul_ediv_cancel _ hpos]

theorem clipSigned_of_range {w : Nat} {i : Int} (h : -(2 ^ w : Nat) ≤ i ∧ i < (2 ^ w : Nat)) : clipSigned (w + 1) i = i := by
  simp only [clipSigned, Nat.add_sub_cancel]
  omega

/-- A sum of the format is its own result. -/
theorem fit20_of_exact (s : State) {num q : Int} (h : num = q * 2 ^ 17) (hq : -(2 ^ 19) ≤ q ∧ q < 2 ^ 19) :
    fit20 s num (2 ^ 17) = BitVec.ofInt 20 q := by
  have hround : s.roundFree num (2 ^ 17) = q := roundFree_of_exact s (by decide) h
  have hclip : clipSigned 20 q = q := clipSigned_of_range (w := 19) hq
  simp only [fit20, hround, hclip, if_true]

section
variable (e : Eng) (d x : XReg) (c st : Nat) (s : State)

theorem biqStep_eq : ∃ y n1 n2, biqStep e d x c st s = biqDone e d st y n1 n2 s := ⟨_, _, _, rfl⟩

/-- With an exact output, the state words follow their formulas where those give numbers of the format. -/
theorem biqStep_of_exact {q : Int} (h : (coefWord s e c).toInt * xi s e x + (dataWord s e st).toInt * 2 ^ 17 = q * 2 ^ 17)
    (hq : -(2 ^ 19) ≤ q ∧ q < 2 ^ 19) : ∃ n1 n2, biqStep e d x c st s = biqDone e d st (BitVec.ofInt 20 q) n1 n2 s ∧
      (∀ q1 : Int, (coefWord s e (c + 1)).toInt * xi s e x - (coefWord s e (c + 3)).toInt * q + (dataWord s e (st + 1)).toInt * 2 ^ 17 =
        q1 * 2 ^ 17 → -(2 ^ 19) ≤ q1 → q1 < 2 ^ 19 → n1 = BitVec.ofInt 20 q1) ∧
      (∀ q2 : Int, (coefWord s e (c + 2)).toInt * xi s e x - (coefWord s e (c + 4)).toInt * q = q2 * 2 ^ 17 →
        -(2 ^ 19) ≤ q2 → q2 < 2 ^ 19 → n2 = BitVec.ofInt 20 q2) := by
  have hy : fit20 s ((coefWord s e (c + 0)).toInt * xi s e x + (dataWord s e st).toInt * 2 ^ 17) (2 ^ 17) = BitVec.ofInt 20 q :=
    fit20_of_exact s h hq
  have hyq : (BitVec.ofInt 20 q).toInt = q := toInt_ofInt_of_range (w := 19) hq
  refine ⟨_, _, by simp only [biqStep, hy, hyq]; rfl, fun q1 h1 hlo hhi => ?_, fun q2 h2 hlo hhi => ?_⟩
  · exact fit20_of_exact _ h1 ⟨hlo, hhi⟩
  · exact fit20_of_exact _ h2 ⟨hlo, hhi⟩

end

end Sys2Proof.Machine
end

section
/-!
SUPPORT. SINCOS, ATAN2, SQRT and DIV (R215).
-/
namespace Sys2Proof.Machine

/-! ## SINCOS -/

/-- The sine and the cosine that SINCOS returns, each within the stated error (log entry 8). -/
def sineOf (s : State) (e : Eng) (a : XReg) : Int := clipSigned 20 (within (cosSin27 (xr s e a).toNat).2 4 s.free)
def cosineOf (s : State) (e : Eng) (a : XReg) : Int := clipSigned 20 (within (cosSin27 (xr s e a).toNat).1 4 s.drew.free)

/-- The registers of SINCOS before its open flags. -/
def sincosWritten (e : Eng) (ds dc a : XReg) (s : State) : State :=
  if ds = dc then
    setX e dc (BitVec.ofInt 20 (if bitAt s.drew.drew.free.toNat 2 then sineOf s e a else cosineOf s e a)) s.drew.drew
  else setX e dc (BitVec.ofInt 20 (cosineOf s e a)) (setX e ds (BitVec.ofInt 20 (sineOf s e a)) s.drew.drew)

section
variable (e : Eng) (ds dc a : XReg) (s : State)

theorem sincosStep_eq : ∃ z n, sincosStep e ds dc a s = (setFlags e z n false (sincosWritten e ds dc a s)).drew := ⟨_, _, rfl⟩

theorem ownPart_sincosWritten : OwnPart e s (sincosWritten e ds dc a s) :=
  have hdrew : OwnPart e s s.drew.drew := (OwnPart.refl s).drew.drew
  .ite (hdrew.setX e _ _) ((hdrew.setX e _ _).setX e _ _)

theorem sincosWritten_acc : (sincosWritten e ds dc a s).eng[e.val].acc = s.eng[e.val].acc := by
  refine ite_keeps (π := fun t : State => t.eng[e.val].acc) ?_ ?_
  · rw [setX_eng]
    rfl
  · rw [setX_eng, setX_eng]
    rfl

theorem sincosWritten_mem : (sincosWritten e ds dc a s).mem = s.mem := ite_keeps rfl rfl

theorem sincosStep_spec :
    let t := advance e 4 (sincosStep e ds dc a s)
    stepped e 4 s t ∧ t.eng[e.val].acc = s.eng[e.val].acc ∧ t.mem = s.mem ∧ ∀ i, xr t e i = xr (sincosWritten e ds dc a s) e i := by
  obtain ⟨z, n, hstep⟩ := sincosStep_eq e ds dc a s
  rw [hstep]
  refine ⟨((ownPart_sincosWritten e ds dc a s).setFlags e z n false).drew.stepped 4, ?_, sincosWritten_mem e ds dc a s, fun i => ?_⟩
  · rw [advance_acc, State.drew_eng, setFlags_eng]
    exact sincosWritten_acc e ds dc a s
  · rw [xr_advance, xr, State.drew_eng, setFlags_eng]
    rfl

theorem sincosWritten_same : (∀ i : XReg, i ≠ ds → xr (sincosWritten e ds ds a s) e i = xr s e i) ∧
    ((xr (sincosWritten e ds ds a s) e ds).toInt = sineOf s e a ∨ (xr (sincosWritten e ds ds a s) e ds).toInt = cosineOf s e a) := by
  rw [sincosWritten, if_pos rfl, xr_setX_same]
  refine ⟨fun i hi => xr_setX_other e ds _ _ hi, ?_⟩
  split
  · exact .inl (toInt_ofInt_clipSigned 19 _)
  · exact .inr (toInt_ofInt_clipSigned 19 _)

/-- Two registers hold the sine and the cosine. -/
theorem sincosWritten_apart (h : ds ≠ dc) :
    (xr (sincosWritten e ds dc a s) e ds).toInt = sineOf s e a ∧ (xr (sincosWritten e ds dc a s) e dc).toInt = cosineOf s e a ∧
      ∀ i, i ≠ ds → i ≠ dc → xr (sincosWritten e ds dc a s) e i = xr s e i := by
  rw [sincosWritten, if_neg h]
  refine ⟨?_, ?_, fun i hs hc => ?_⟩
  · rw [xr_setX_other e dc _ _ h, xr_setX_same]
    exact toInt_ofInt_clipSigned 19 _
  · rw [xr_setX_same]
    exact toInt_ofInt_clipSigned 19 _
  · rw [xr_setX_other e dc _ _ hc, xr_setX_other e ds _ _ hs]
    rfl

end

/-! ## One result -/

/-- A register result of `n` cycles. -/
abbrev resultDid (e : Eng) (n : Nat) (d : XReg) (v : Q20) (sat : Bool) (s t : State) : Prop :=
  stepped e n s t ∧ wroteX e d v s t ∧ flagged e v sat s t

section
variable (e : Eng) (n : Nat) (d : XReg) (v : Q20) (sat : Bool) (s : State)

theorem resultDid_result : resultDid e n d v sat s (advance e n (result e d v sat s)) :=
  ⟨((OwnPart.refl s).result e d v sat).stepped n, (wroteX_advance e n).mpr (wroteX_result e d v sat s),
    (flagged_advance e n).mpr (flagged_result e d v sat s)⟩

theorem resultDid_drew : resultDid e n d v sat s (advance e n (result e d v sat s).drew) :=
  ⟨((OwnPart.refl s).result e d v sat).drew.stepped n, (wroteX_advance e n).mpr (wroteX_result e d v sat s),
    (flagged_advance e n).mpr (flagged_result e d v sat s)⟩

end

section
variable (e : Eng) (d a b : XReg) (s : State)

/-! ## ATAN2, SQRT and DIV -/

theorem atan2Step_of_nonzero (h : xi s e a ≠ 0 ∨ xi s e b ≠ 0) :
    atan2Step e d a b s = (result e d (BitVec.ofInt 20 (within (angle28 (xi s e a) (xi s e b) : Nat) 2 s.free)) false s).drew := by
  have hzero : ¬(xi s e a = 0 ∧ xi s e b = 0) := fun ⟨ha, hb⟩ => h.elim (· ha) (· hb)
  simp only [atan2Step, if_neg hzero]

theorem sqrtStep_of_neg (h : xi s e a < 0) : sqrtStep e d a s = result e d 0 true s := if_pos h

/-- The root is the integer below or above (log entry 10). -/
theorem sqrtStep_of_nonneg (h : 0 ≤ xi s e a) : ∃ u, (u = 0 ∨ u = 1) ∧
    sqrtStep e d a s = (result e d (BitVec.ofInt 20 (clipSigned 20 ((isqrt ((xi s e a).toNat * 2 ^ 19) + u : Nat) : Int))) false s).drew := by
  refine ⟨_, ?_, if_neg (Int.not_lt.mpr h)⟩
  split
  · exact .inl rfl
  · exact Nat.mod_two_eq_zero_or_one _

theorem divStep_of_zero (hb : xi s e b = 0) (ha : xi s e a ≠ 0) :
    divStep e d a b s = (result e d (if xi s e a < 0 then 0x80000#20 else 0x7FFFF#20) true s).drew := by
  simp only [divStep, if_pos hb, if_neg ha, decide_eq_true_eq]

theorem divStep_of_exact {q : Int} (hb : xi s e b ≠ 0) (h : xi s e a * 2 ^ 19 = q * xi s e b) :
    divStep e d a b s = (satResult e d q s).drew := by
  have hround : s.roundFree (if xi s e b < 0 then -xi s e a * 2 ^ 19 else xi s e a * 2 ^ 19) (xi s e b).natAbs = q := by
    refine roundFree_of_exact s (Int.natAbs_ne_zero.mpr hb) ?_
    split <;> rename_i hneg
    · rw [Int.ofNat_natAbs_of_nonpos hneg.le, Int.neg_mul, h, Int.mul_neg]
    · rw [Int.natAbs_of_nonneg (Int.not_lt.mp hneg), h]
  simp only [divStep, if_neg hb, hround]

end

end Sys2Proof.Machine

open Sys2Proof Sys2Proof.Machine in
/-- Settles O34: each instruction is its named result, with the words INTG and BIQ store, going on by its cycles. -/
theorem filterAndTrigonometry : Obligations.FilterAndTrigonometry := by
  unfold Obligations.FilterAndTrigonometry
  refine ⟨?intg, ?biqFrame, ?biqExact, ?sincos, ?sincosOne, ?atan2, ?sqrtNeg, ?sqrt, ?divZero, ?divExact, ?complete⟩
  case intg =>
    intro s e d st a g v h hv
    obtain ⟨hstep, hd, hothers, hmem⟩ := intgStep_spec e d st a g s
    have hst : (st : Nat) % 2048 = st := Nat.mod_eq_of_lt st.isLt
    subst hv
    refine ⟨_, next_instr h _, hstep, hd, hothers, fun hopen => ?_, fun hclosed => ?_⟩
    · rw [hmem, integralStored_of_open e st a g s hopen]
    · rw [integralStored_of_closed e st a g s hclosed] at hmem
      refine ⟨(State.mem20_congr hmem _).trans (State.mem20_setMem20_same _ _ (isMemory_dataAddr e st)), fun k hk => ?_⟩
      exact (State.byte_congr hmem k).trans (State.setMem20_outside s _ _ k (by rwa [hst]))
  case biqFrame =>
    intro s e d x c st h
    obtain ⟨y, n1, n2, hbiq⟩ := biqStep_eq e d x c st s
    obtain ⟨hstep, -, hothers, hacc, hmem⟩ := biqDone_spec e d st y n1 n2 s
    have hst : (st : Nat) % 2048 = st := Nat.mod_eq_of_lt st.isLt
    refine ⟨_, next_instr_of_eq h hbiq, hstep, hothers, hacc, fun k h1 h2 => ?_⟩
    exact (State.byte_congr hmem k).trans (pairStored_byte e st n1 n2 _ (by rwa [hst]) h2)
  case biqExact =>
    intro s e d x c st q h hq hrange
    obtain ⟨n1, n2, hbiq, hn1, hn2⟩ := biqStep_of_exact e d x c st s hq hrange
    obtain ⟨-, hd, -, -, hmem⟩ := biqDone_spec e d st (BitVec.ofInt 20 q) n1 n2 s
    obtain ⟨hw1, hw2⟩ := pairStored_words e st n1 n2 s.drew.drew.drew
    refine ⟨_, next_instr_of_eq h hbiq, ?_, fun q1 h1 hlo hhi => ?_, fun q2 h2 hlo hhi => ?_⟩
    · exact (congrArg BitVec.toInt hd).trans (toInt_ofInt_of_range (w := 19) hrange)
    · exact (State.mem20_congr hmem _).trans (hw1.trans (hn1 q1 h1 hlo hhi))
    · exact (State.mem20_congr hmem _).trans (hw2.trans (hn2 q2 h2 hlo hhi))
  case sincos =>
    intro s e ds dc a h hne
    obtain ⟨hstep, hacc, hmem, hx⟩ := sincosStep_spec e ds dc a s
    obtain ⟨hsin, hcos, hothers⟩ := sincosWritten_apart e ds dc a s hne
    exact ⟨_, next_instr h _, hstep, hacc, hmem, (congrArg BitVec.toInt (hx ds)).trans hsin, (congrArg BitVec.toInt (hx dc)).trans hcos,
      fun i his hic => (hx i).trans (hothers i his hic)⟩
  case sincosOne =>
    intro s e d a h
    obtain ⟨hstep, hacc, hmem, hx⟩ := sincosStep_spec e d d a s
    obtain ⟨hothers, hvalue⟩ := sincosWritten_same e d a s
    exact ⟨_, next_instr h _, hstep, hacc, hmem, hvalue.imp ((congrArg BitVec.toInt (hx d)).trans ·) ((congrArg BitVec.toInt (hx d)).trans ·),
      fun i hi => (hx i).trans (hothers i hi)⟩
  case atan2 =>
    intro s e d y x h hne
    obtain ⟨hstep, hwrote, -⟩ := resultDid_drew e 14 d (BitVec.ofInt 20 (within (angle28 (xi s e y) (xi s e x) : Nat) 2 s.free)) false s
    exact ⟨_, next_instr_of_eq h (atan2Step_of_nonzero e d y x s hne), hstep, hwrote⟩
  case sqrtNeg =>
    intro s e d a h hneg
    obtain ⟨hstep, hwrote, hz, -, hs, -⟩ := resultDid_result e 12 d 0 true s
    exact ⟨_, next_instr_of_eq h (sqrtStep_of_neg e d a s hneg), hstep, hwrote, hs, hz⟩
  case sqrt =>
    intro s e d a h hpos
    obtain ⟨u, hu, hroot⟩ := sqrtStep_of_nonneg e d a s hpos
    obtain ⟨hstep, hwrote, -, -, hs, -⟩ := resultDid_drew e 12 d
      (BitVec.ofInt 20 (clipSigned 20 ((isqrt ((xi s e a).toNat * 2 ^ 19) + u : Nat) : Int))) false s
    exact ⟨_, u, next_instr_of_eq h hroot, hstep, hu, hs, hwrote⟩
  case divZero =>
    intro s e d a b h hb ha
    obtain ⟨hstep, hwrote, -, -, hs, hsat⟩ := resultDid_drew e 22 d (if xi s e a < 0 then 0x80000#20 else 0x7FFFF#20) true s
    exact ⟨_, next_instr_of_eq h (divStep_of_zero e d a b s hb ha), hstep, hs, hsat.trans (Bool.or_true _), hwrote⟩
  case divExact =>
    intro s e d a b q h hb hq
    obtain ⟨hstep, hwrote, -, -, hs, -⟩ := resultDid_drew e 22 d (BitVec.ofInt 20 (clipSigned 20 q)) (decide (clipSigned 20 q ≠ q)) s
    refine ⟨_, next_instr_of_eq h (divStep_of_exact e d a b s hb hq), hstep, ?_, hs⟩
    exact (congrArg BitVec.toInt (wroteX_same hwrote)).trans (toInt_ofInt_clipSigned 19 q)
  case complete =>
    exact ⟨fun s _ _ _ _ _ => exec_next_pending _ s, fun s _ _ _ _ _ => exec_next_pending _ s, fun s _ _ _ _ => exec_next_pending _ s,
      fun s _ _ _ _ => exec_next_pending _ s, fun s _ _ _ => exec_next_pending _ s, fun s _ _ _ _ => exec_next_pending _ s⟩
end

section
/-!
SUPPORT. A fault of an engine (R235, R237): what it stops, marks and signals, and what the signal to the bound bridge leaves alone.
-/
namespace Sys2Proof.Machine

/-! ## The signal to the bound bridge (R322) -/

/-- What the MC blocks and CONT make of a faulted engine. -/
def signalFlds : List Fld := outFlds 0 ++ outFlds 1

theorem outFlds_sub_signalFlds : ∀ b : Bridge, ∀ f ∈ outFlds b, f ∈ signalFlds := by decide

theorem butFor_mcEngineFault (b : Bridge) (s : State) : ButFor signalFlds s (mcEngineFault b s) := by
  have hout := outFlds_sub_signalFlds b
  refine ButFor.ite (.refl s) (butFor_reportBridgeOut ?_ b hout)
  exact butFor_requestShort (butFor_mcOut (.refl s) b hout) b (gateFlds_of_outFlds hout) _

theorem FailoverFree.mcEngineFault {α : Type} {π : State → α} (h : FailoverFree π) (b : Bridge) (s : State) : π (mcEngineFault b s) = π s :=
  ite_keeps rfl <| (ite_keeps (h.degrade _) (ite_keeps (h.withdraw 1 _) rfl)).trans ((h.requestShort b _ _).trans (h.mcOut b s))

theorem failoverFree_eng : FailoverFree State.eng :=
  { regs := fun _ _ => rfl, gate := fun _ _ => rfl, mc := fun _ _ _ => rfl, blocks := fun _ _ => rfl, ang := fun _ _ => rfl, mem := fun _ _ => rfl,
    cont := fun _ _ => rfl, lines := fun _ _ => rfl, ebp := fun _ _ => rfl }

theorem failoverFree_irqs : FailoverFree State.irqs :=
  { regs := fun _ _ => rfl, gate := fun _ _ => rfl, mc := fun _ _ _ => rfl, blocks := fun _ _ => rfl, ang := fun _ _ => rfl, mem := fun _ _ => rfl,
    cont := fun _ _ => rfl, lines := fun _ _ => rfl, ebp := fun _ _ => rfl }

/-- The MC block of the bound bridge signalled. -/
def signalBound (e : Eng) (s : State) : State :=
  match s.get (F.HLE_ENGCTRL_BIND e) with
  | 1 => mcEngineFault 0 s
  | 2 => mcEngineFault 1 s
  | _ => s

theorem butFor_signalBound (e : Eng) (s : State) : ButFor signalFlds s (signalBound e s) := by
  unfold signalBound
  split
  · exact butFor_mcEngineFault 0 s
  · exact butFor_mcEngineFault 1 s
  · exact .refl s

theorem FailoverFree.signalBound {α : Type} {π : State → α} (h : FailoverFree π) (e : Eng) (s : State) : π (signalBound e s) = π s := by
  unfold Machine.signalBound
  split
  · exact h.mcEngineFault 0 s
  · exact h.mcEngineFault 1 s
  · rfl

/-! ## What a fault leaves -/

/-- The fault marked in the engine's registers. -/
def faultMarked (e : Eng) (c : EngineCause) (fpc : Nat) (s : State) : State :=
  (((s.put (F.HLE_ENGSTAT_FAULT e) 1).put (F.HLE_ENGSTAT_CAUSE e) (causeCode c)).put (F.HLE_ENGFPC_PC e) fpc).put (F.HLE_ENGSTAT_BUSY e) 0

/-- The engine stopped and the interrupt raised. -/
def faultRaised (e : Eng) (c : EngineCause) (fpc : Nat) (s : State) : State :=
  ((faultMarked e c fpc s).modEng e (fun x => { x with pending := [], act := none, loops := [], halted := true })).raise (.engineFault e)

/-- The physical engine marked as failed. -/
def hardwareMarked (e : Eng) (s : State) : State := (s.put (F.HLE_ENGSTAT_HWFAIL e) 1).putBit F.HLE_MAP_FAILED (physicalOf s e) true

/-- The fault before its signal: of the hardware class, the physical engine is marked. -/
def faultHardware (e : Eng) (c : EngineCause) (fpc : Nat) (s : State) : State := (faultRaised e c fpc s).when (causeHardware c) (hardwareMarked e)

theorem engineFault_eq (e : Eng) (c : EngineCause) (fpc : Nat) (s : State) : engineFault e c fpc s = signalBound e (faultHardware e c fpc s) := rfl

/-- What stands once a fault of an engine has been taken. -/
structure Faulted (e : Eng) (c : EngineCause) (pc : BitVec 12) (s t : State) : Prop where
  cause : t.get (F.HLE_ENGSTAT_CAUSE e) = causeCode c
  place : t.get (F.HLE_ENGFPC_PC e) = pc.toNat
  fault : t.on (F.HLE_ENGSTAT_FAULT e) = true
  idle : engBusy t e = false
  pending : t.eng[e.val].pending = []
  takes : engineTakes t e = false
  irq : Irq.engineFault e ∈ t.irqs
  soft : causeHardware c = false → t.on (F.HLE_ENGSTAT_HWFAIL e) = s.on (F.HLE_ENGSTAT_HWFAIL e)
  hard : causeHardware c = true → t.on (F.HLE_ENGSTAT_HWFAIL e) = true ∧ t.bit F.HLE_MAP_FAILED (physicalOf s e) = true

theorem engineTakes_of_fault {s : State} {e : Eng} (h : s.on (F.HLE_ENGSTAT_FAULT e) = true) : engineTakes s e = false := by
  simp [engineTakes, h]

theorem causeCode_lt (c : EngineCause) : causeCode c < 2 ^ 3 := by
  cases c <;> decide

theorem physicalOf_lt (e : Eng) (s : State) : physicalOf s e < 8 := by
  unfold physicalOf
  have he := e.isLt
  split <;> omega

section
variable (e : Eng) (c : EngineCause) (fpc : Nat) (s : State)

theorem butFor_faultMarked :
    ButFor [F.HLE_ENGSTAT_FAULT e, F.HLE_ENGSTAT_CAUSE e, F.HLE_ENGFPC_PC e, F.HLE_ENGSTAT_BUSY e] s (faultMarked e c fpc s) :=
  ((((ButFor.refl s).put (by simp) 1).put (by simp) _).put (by simp) _).put (by simp) _

theorem faultRaised_get (g : Fld) : (faultRaised e c fpc s).get g = (faultMarked e c fpc s).get g := by
  rw [faultRaised, State.raise_get, State.modEng_get]

theorem faultRaised_on (g : Fld) : (faultRaised e c fpc s).on g = (faultMarked e c fpc s).on g := congrArg (· == 1) (faultRaised_get e c fpc s g)

theorem faultRaised_eng : (faultRaised e c fpc s).eng[e.val].pending = [] := by
  rw [faultRaised, State.raise_eng, State.modEng_eng, upd_same]

end

theorem faultMarked_idle (e : Eng) (c : EngineCause) (fpc : Nat) (s : State) : (faultMarked e c fpc s).on (F.HLE_ENGSTAT_BUSY e) = false := by
  rw [faultMarked, State.on_put_same _ _ _ (Nat.le_of_ble_eq_true rfl)]
  rfl

theorem faultMarked_place (e : Eng) (c : EngineCause) (pc : BitVec 12) (s : State) :
    (faultMarked e c pc.toNat s).get (F.HLE_ENGFPC_PC e) = pc.toNat := by
  rw [faultMarked, State.get_put_apart _ _ _ _, State.get_put_same _ _ _ (Nat.le_of_ble_eq_true rfl)]
  exact Nat.mod_eq_of_lt pc.isLt

theorem faultMarked_cause (e : Eng) (c : EngineCause) (fpc : Nat) (s : State) :
    (faultMarked e c fpc s).get (F.HLE_ENGSTAT_CAUSE e) = causeCode c := by
  rw [faultMarked, State.get_put_apart _ _ _ _, State.get_put_apart _ _ _ _, State.get_put_same _ _ _ (Nat.le_of_ble_eq_true rfl)]
  exact Nat.mod_eq_of_lt (causeCode_lt c)

theorem faultMarked_fault (e : Eng) (c : EngineCause) (fpc : Nat) (s : State) : (faultMarked e c fpc s).on (F.HLE_ENGSTAT_FAULT e) = true := by
  rw [faultMarked, State.on_put_apart _ _ _ _, State.on_put_apart _ _ _ _, State.on_put_apart _ _ _ _,
    State.on_put_same _ _ _ (Nat.le_of_ble_eq_true rfl)]
  rfl

theorem physicalOf_faultRaised (e : Eng) (c : EngineCause) (fpc : Nat) (s : State) : physicalOf (faultRaised e c fpc s) e = physicalOf s e := by
  have hsubst : (faultMarked e c fpc s).get F.HLE_MAP_SUBST = s.get F.HLE_MAP_SUBST := (butFor_faultMarked e c fpc s).get _
  rw [physicalOf, faultRaised_get, hsubst, physicalOf]

theorem hardwareMarked_fail (e : Eng) (s : State) : (hardwareMarked e s).on (F.HLE_ENGSTAT_HWFAIL e) = true := by
  rw [hardwareMarked, State.putBit, State.on_put_apart _ _ _ _, State.on_put_same _ _ _ (Nat.le_of_ble_eq_true rfl)]
  rfl

theorem hardwareMarked_physical (e : Eng) (s : State) : (hardwareMarked e s).bit F.HLE_MAP_FAILED (physicalOf s e) = true :=
  State.bit_putBit_same _ true (physicalOf_lt e s) (Nat.le_of_ble_eq_true rfl)

/-- A fault of an engine. -/
theorem faulted_engineFault (e : Eng) (c : EngineCause) (s : State) (pc : BitVec 12) : Faulted e c pc s (engineFault e c pc.toNat s) := by
  have hraised : ButFor [F.HLE_ENGSTAT_HWFAIL e, F.HLE_MAP_FAILED] (faultRaised e c pc.toNat s) (faultHardware e c pc.toNat s) :=
    (ButFor.refl _).when (((ButFor.refl _).put (by simp) 1).putBit (by simp) _ _) _
  have hsignal : ButFor signalFlds (faultHardware e c pc.toNat s) (engineFault e c pc.toNat s) := butFor_signalBound e _
  have hkept : ∀ {α : Type} {π : State → α}, FailoverFree π → π (engineFault e c pc.toNat s) = π (faultRaised e c pc.toNat s) :=
    fun h => (h.signalBound e _).trans (ite_keeps ((h.put _ _ _).trans (h.put _ _ _)) rfl)
  have hfault : (engineFault e c pc.toNat s).on (F.HLE_ENGSTAT_FAULT e) = true :=
    (hsignal.on _).trans ((hraised.on _).trans ((faultRaised_on e c _ s _).trans (faultMarked_fault e c _ s)))
  refine ⟨?_, ?_, hfault, ?_, ?_, engineTakes_of_fault hfault, ?_, fun hc => ?_, fun hc => ?_⟩
  · exact (hsignal.get _).trans ((hraised.get _).trans ((faultRaised_get e c _ s _).trans (faultMarked_cause e c _ s)))
  · exact (hsignal.get _).trans ((hraised.get _).trans ((faultRaised_get e c _ s _).trans (faultMarked_place e c pc s)))
  · exact (hsignal.on _).trans ((hraised.on _).trans ((faultRaised_on e c _ s _).trans (faultMarked_idle e c _ s)))
  · exact (congrArg (fun g => Engine.pending g[e.val]) (hkept failoverFree_eng)).trans (faultRaised_eng e c _ s)
  · exact (hkept failoverFree_irqs).symm ▸ State.mem_irqs_raise _ _
  · have hsoft : faultHardware e c pc.toNat s = faultRaised e c pc.toNat s := if_neg (Bool.eq_false_iff.mp hc)
    rw [hsoft] at hsignal
    exact (hsignal.on _).trans ((faultRaised_on e c _ s _).trans ((butFor_faultMarked e c _ s).on _))
  · have hhard : faultHardware e c pc.toNat s = hardwareMarked e (faultRaised e c pc.toNat s) := if_pos hc
    rw [hhard] at hsignal
    refine ⟨(hsignal.on _).trans (hardwareMarked_fail e _), (hsignal.bit _ _).trans ?_⟩
    rw [← physicalOf_faultRaised e c pc.toNat s]
    exact hardwareMarked_physical e _

/-- The registers that a fault changes. -/
theorem butFor_engineFault (e : Eng) (c : EngineCause) (fpc : Nat) (s : State) :
    ButFor ([F.HLE_ENGSTAT_FAULT e, F.HLE_ENGSTAT_CAUSE e, F.HLE_ENGFPC_PC e, F.HLE_ENGSTAT_BUSY e, F.HLE_ENGSTAT_HWFAIL e, F.HLE_MAP_FAILED] ++
      signalFlds) s (engineFault e c fpc s) := by
  have hmarked := (butFor_faultMarked e c fpc s).mono (B := [F.HLE_ENGSTAT_FAULT e, F.HLE_ENGSTAT_CAUSE e, F.HLE_ENGFPC_PC e,
    F.HLE_ENGSTAT_BUSY e, F.HLE_ENGSTAT_HWFAIL e, F.HLE_MAP_FAILED] ++ signalFlds) (by simp +contextual)
  have hraised := (hmarked.modEng e (fun x => { x with pending := [], act := none, loops := [], halted := true })).raise (.engineFault e)
  exact (hraised.when ((hraised.put (by simp) 1).putBit (by simp) _ _) (causeHardware c)).trans ((butFor_signalBound e _).mono (by simp +contextual))

/-! ## An error recorded (R69) -/

section
variable (r : Requester) (a : Nat) (s : State)

theorem errorRecorded_eq : errorRecorded r a s = if (s.sat F.BKG_UECNT_UECNT).on F.BKG_STAT_UEVALID then s.sat F.BKG_UECNT_UECNT
    else (((s.sat F.BKG_UECNT_UECNT).put F.BKG_STAT_UEVALID 1).put F.BKG_UEADDR_ADDR a).put F.BKG_UECNT_REQ (reqCode r) := rfl

theorem butFor_errorRecorded :
    ButFor [F.BKG_UECNT_UECNT, F.BKG_STAT_UEVALID, F.BKG_UEADDR_ADDR, F.BKG_UECNT_REQ] s (errorRecorded r a s) := by
  have hcounted : ButFor [F.BKG_UECNT_UECNT, F.BKG_STAT_UEVALID, F.BKG_UEADDR_ADDR, F.BKG_UECNT_REQ] s (s.sat F.BKG_UECNT_UECNT) :=
    (ButFor.refl s).sat (by simp)
  exact ButFor.ite hcounted (((hcounted.put (by simp) 1).put (by simp) a).put (by simp) _)

theorem errorRecorded_eng : (errorRecorded r a s).eng = s.eng := by
  have hcounted : (s.sat F.BKG_UECNT_UECNT).eng = s.eng := ite_keeps (π := State.eng) rfl rfl
  exact ite_keeps (π := State.eng) hcounted hcounted

theorem sat_uevalid : (s.sat F.BKG_UECNT_UECNT).on F.BKG_STAT_UEVALID = s.on F.BKG_STAT_UEVALID :=
  ((ButFor.refl s).sat (A := [F.BKG_UECNT_UECNT]) (by simp)).on _ (by decide) (by decide)

/-- The error is valid, and the first one gives the address. -/
theorem errorRecorded_spec {a : Nat} (ha : a < 2 ^ 32) : (errorRecorded r a s).on F.BKG_STAT_UEVALID = true ∧
    (s.on F.BKG_STAT_UEVALID = false → (errorRecorded r a s).get F.BKG_UEADDR_ADDR = a) := by
  rw [errorRecorded_eq, sat_uevalid]
  split
  · next h => exact ⟨(sat_uevalid s).trans h, fun hn => absurd h (by simp [hn])⟩
  · rw [State.on_put_disj _ _ _ _ (by decide) (by decide), State.on_put_disj _ _ _ _ (by decide) (by decide),
      State.on_put_same _ _ _ (by decide), State.get_put_disj _ _ _ _ (by decide) (by decide), State.get_put_same _ _ _ (by decide)]
    exact ⟨rfl, fun _ => Nat.mod_eq_of_lt ha⟩

end

end Sys2Proof.Machine
end

section
/-!
SUPPORT. The commands that take a fault of an engine (R209, R226, R235).
-/
namespace Sys2Proof.Machine

/-- A fault taken once an error has been recorded. -/
theorem Faulted.of_recorded {e : Eng} {c : EngineCause} {pc : BitVec 12} {r : Requester} {a : Nat} {s t : State}
    (h : Faulted e c pc (errorRecorded r a s) t) : Faulted e c pc s t := by
  have hrecorded := butFor_errorRecorded r a s
  have hphysical : physicalOf (errorRecorded r a s) e = physicalOf s e := by
    have hsubst : (errorRecorded r a s).get F.HLE_MAP_SUBST = s.get F.HLE_MAP_SUBST := hrecorded.get _
    rw [physicalOf, hsubst, physicalOf]
  exact { h with soft := fun hc => (h.soft hc).trans (hrecorded.on _), hard := hphysical ▸ h.hard }

theorem faulted_faultAt (e : Eng) (c : EngineCause) (s : State) : Faulted e c s.eng[e.val].pc s (faultAt e c s) := faulted_engineFault e c s _

theorem causeHardware_of_other {c : EngineCause} (hparity : c ≠ .parity) (hmemory : c ≠ .memory) : causeHardware c = false := by
  cases c <;> simp_all [causeHardware]

/-- A fault that the next instruction takes. -/
theorem faulted_faultHere {s : State} {e : Eng} (h : Executes s e 1) (c : EngineCause) : Faulted e c s.eng[e.val].pc s (faultHere e c s) := by
  rw [faultHere, running_of_executes h]
  exact faulted_faultAt e c s

/-- A memory error that the engine finds as it reads a word. -/
theorem faulted_memoryFault {s : State} {e : Eng} (h : Executes s e 1) (a : Word) : Faulted e .memory s.eng[e.val].pc s (memoryFault e a.toNat s) ∧
    (memoryFault e a.toNat s).on F.BKG_STAT_UEVALID = true ∧
    (s.on F.BKG_STAT_UEVALID = false → (memoryFault e a.toNat s).get F.BKG_UEADDR_ADDR = a.toNat) := by
  obtain ⟨hvalid, haddr⟩ := errorRecorded_spec (engReq s e) s a.isLt
  have hfault := faulted_faultAt e .memory (errorRecorded (engReq s e) a.toNat s)
  have hkept := butFor_engineFault e .memory ((errorRecorded (engReq s e) a.toNat s).eng[e.val].pc).toNat (errorRecorded (engReq s e) a.toNat s)
  rw [memoryFault, running_of_executes h]
  refine ⟨?_, (hkept.on _).trans hvalid, fun hfirst => (hkept.get _).trans (haddr hfirst)⟩
  rw [errorRecorded_eng] at hfault
  exact hfault.of_recorded

/-- A fault reported of a running activation. -/
theorem faulted_execEngineFault {s : State} {e : Eng} {c : EngineCause} (h : Executes s e 1) (hc : c ≠ .parity ∧ c ≠ .watchdog) (a : Word) :
    ∃ t, exec (.engineFault e ⟨c, a⟩) s = .next t ∧ Faulted e c s.eng[e.val].pc s t ∧
      (c = .memory → t.on F.BKG_STAT_UEVALID = true ∧ (s.on F.BKG_STAT_UEVALID = false → t.get F.BKG_UEADDR_ADDR = a.toNat)) := by
  obtain ⟨hparity, hwatchdog⟩ := hc
  match c with
  | .parity => exact absurd rfl hparity
  | .watchdog => exact absurd rfl hwatchdog
  | .illegal => exact ⟨_, rfl, faulted_faultHere h .illegal, nofun⟩
  | .entry => exact ⟨_, rfl, faulted_faultHere h .entry, nofun⟩
  | .port => exact ⟨_, rfl, faulted_faultHere h .port, nofun⟩
  | .memory =>
    obtain ⟨hf, hrecord⟩ := faulted_memoryFault h a
    exact ⟨_, rfl, hf, fun _ => hrecord⟩

end Sys2Proof.Machine

open Sys2Proof Sys2Proof.Machine in
/-- Settles O30: every fault taken leaves what `Faulted` lists, the memory error with its record. -/
theorem engineFaults : Obligations.EngineFaults := by
  unfold Obligations.EngineFaults
  refine ⟨?fault, ?memoryIdle, ?watchdog, ?illegal, ?parity, ?idle, ?stopped, ?complete⟩
  case fault =>
    intro s e c a h hc
    obtain ⟨t, hexec, hf, hrecord⟩ := faulted_execEngineFault h hc a
    refine ⟨t, hexec, hf.cause, hf.place, hf.fault, hf.idle, hf.pending, hf.takes, hf.irq, fun hm => ?_, fun hm => ?_⟩
    · obtain ⟨hvalid, haddr⟩ := hrecord hm
      obtain ⟨hfail, hphysical⟩ := hf.hard (by rw [hm]; rfl)
      exact ⟨hvalid, haddr, hfail, hphysical⟩
    · exact hf.soft (causeHardware_of_other hc.1 hm)
  case memoryIdle =>
    intro s e a ⟨hidle, _⟩
    exact congrArg _ (running_of_idle (.inl hidle) _)
  case watchdog =>
    intro s e hruns ⟨hbusy, hheld, hlimit⟩
    have hf := faulted_faultAt e .watchdog s
    refine ⟨_, (clockedOut_of_running hruns _).trans (congrArg _ ?_), hf.cause, hf.place, hf.fault, hf.idle, hf.pending, hf.takes, hf.irq⟩
    simp [watchdogFault, hbusy, hheld, hlimit]
  case illegal =>
    intro s e h
    have hf := faulted_faultHere h .illegal
    exact ⟨_, rfl, hf.cause, hf.place, hf.fault, hf.idle, hf.pending, hf.takes, hf.irq⟩
  case parity =>
    intro s e hruns hheld
    have hf := faulted_engineFault e .parity s s.eng[e.val].lastPc
    obtain ⟨hfail, hphysical⟩ := hf.hard rfl
    refine ⟨_, (clockedOut_of_running hruns _).trans (congrArg _ ?_), hf.cause, hf.place, hf.fault, hf.idle, hf.pending, hf.takes, hf.irq,
      hfail, hphysical⟩
    simp [parityError, hheld]
  case idle =>
    intro s e hruns hidle
    refine ⟨(clockedOut_of_running hruns _).trans (congrArg _ ?_), congrArg _ (running_of_idle hidle _), congrArg _ (running_of_idle hidle _)⟩
    obtain hidle | hidle := hidle <;> simp [watchdogFault, hidle]
  case stopped =>
    intro s hs
    exact ⟨fun _ => clockedOut_of_stopped hs _, fun _ => clockedOut_of_stopped hs _⟩
  case complete =>
    exact ⟨fun s _ _ => exec_next_pending _ s, fun s _ => exec_next_pending _ s, fun s _ => exec_next_pending _ s,
      fun s _ => exec_next_pending _ s⟩
end

section
/-!
SUPPORT. Triggers of the engines (R220 to R223, R225, R228): the order of dispatch, what a dispatch leaves, a software trigger and the enables.
-/
namespace Sys2Proof.Machine

/-! ## The order of dispatch (R223) -/

/-- A trigger that none of lower rank, earlier arrival or lower number than another goes before. -/
def Trigger.notAfter (t u : Trigger) : Prop :=
  t.orig.rank < u.orig.rank ∨ (t.orig.rank = u.orig.rank ∧ (t.at_ < u.at_ ∨ (t.at_ = u.at_ ∧ t.orig.number ≤ u.orig.number)))

namespace Trigger
variable {t u v : Trigger}

theorem notAfter_refl (t : Trigger) : t.notAfter t := .inr ⟨rfl, .inr ⟨rfl, le_rfl⟩⟩

theorem notAfter_trans (h : t.notAfter u) (h' : u.notAfter v) : t.notAfter v := by
  unfold notAfter at *
  omega

theorem before_iff : t.before u = true ↔
    t.orig.rank < u.orig.rank ∨ (t.orig.rank = u.orig.rank ∧ (t.at_ < u.at_ ∨ (t.at_ = u.at_ ∧ t.orig.number < u.orig.number))) := by
  simp [before]

theorem notAfter_of_before (h : t.before u = true) : t.notAfter u := by
  rw [before_iff] at h
  unfold notAfter
  omega

theorem notAfter_of_not_before (h : ¬t.before u = true) : u.notAfter t := by
  rw [before_iff] at h
  unfold notAfter
  omega

end Trigger

theorem nextTrigger_ne_none {l : List Trigger} (h : l ≠ []) : nextTrigger l ≠ none := by
  match l with
  | [] => exact absurd rfl h
  | t :: ts =>
    rw [nextTrigger]
    split
    · exact Option.some_ne_none _
    · split <;> exact Option.some_ne_none _

/-- The trigger dispatched is pending, and goes after none. -/
theorem nextTrigger_spec {l : List Trigger} {t : Trigger} (h : nextTrigger l = some t) : t ∈ l ∧ ∀ u ∈ l, t.notAfter u := by
  induction l generalizing t with
  | nil => exact absurd h (Option.some_ne_none t).symm
  | cons a l ih =>
    rw [nextTrigger] at h
    split at h
    · next hnone =>
      have hempty : l = [] := by_contra fun hne => nextTrigger_ne_none hne hnone
      obtain rfl := Option.some.inj h
      exact ⟨List.mem_cons_self, by simp [hempty, Trigger.notAfter_refl]⟩
    · next m hm =>
      obtain ⟨hmem, hleast⟩ := ih hm
      split at h
      · next hbefore =>
        obtain rfl := Option.some.inj h
        exact ⟨List.mem_cons_of_mem a hmem, List.forall_mem_cons.mpr ⟨Trigger.notAfter_of_before hbefore, hleast⟩⟩
      · next hbefore =>
        obtain rfl := Option.some.inj h
        exact ⟨List.mem_cons_self, List.forall_mem_cons.mpr ⟨Trigger.notAfter_refl a, fun u hu =>
          Trigger.notAfter_trans (Trigger.notAfter_of_not_before hbefore) (hleast u hu)⟩⟩

/-! ## A dispatch (R225, R228) -/

/-- The entry of a trigger. -/
def entryOf (s : State) (e : Eng) (r : Trigger) : Nat := (s.memWord (engBase e + 4 * r.ep.toNat)).toNat

/-- The engine as its activation begins. -/
def activated (s : State) (e : Eng) (r : Trigger) (x : Engine) : Engine :=
  { x with pending := x.pending.erase r, act := some r.orig, acc := Vector.replicate 2 0, z := false, n := false, s := false, loops := [],
           pc := BitVec.ofNat 12 (entryOf s e r), cycles := 0 }

/-- The state as an activation begins: settings taken, the engine cleared. -/
def dispatched (e : Eng) (r : Trigger) (s : State) : State := (takeSettings e s).modEng e (activated s e r)

theorem dispatch_of_ready {s : State} {e : Eng} {r : Trigger} (hidle : engBusy s e = false) (htakes : engineTakes s e = true)
    (hnext : nextTrigger s.eng[e.val].pending = some r) :
    dispatch e s = if 256 ≤ entryOf s e r ∧ entryOf s e r ≤ 3071 then (dispatched e r s).put (F.HLE_ENGSTAT_BUSY e) 1
      else engineFault e .entry ((dispatched e r s).eng[e.val].pc).toNat (dispatched e r s) := by
  rw [engBusy] at hidle
  simp only [dispatch, hidle, htakes, hnext, Bool.not_true, Bool.or_false, Bool.false_eq_true, if_false]
  rfl

theorem dispatch_of_not_ready {s : State} {e : Eng} (h : engBusy s e = true ∨ engineTakes s e = false) : dispatch e s = s := by
  rw [engBusy] at h
  obtain h | h := h <;> simp [dispatch, h]

theorem dispatched_eng (e : Eng) (r : Trigger) (s : State) : (dispatched e r s).eng[e.val] = activated s e r s.eng[e.val] := upd_same s.eng e _

/-- A field of one bit put into another of one bit. -/
theorem get_mod_of_bit (s : State) {f : Fld} (hf : f.w = 1) : s.get f % 2 = s.get f := Nat.mod_eq_of_lt (by simpa [hf] using State.get_lt s f)

theorem takeSettings_spec (e : Eng) (s : State) : (takeSettings e s).on (F.HLE_ENGSTAT_OPENACT e) = s.on (F.HLE_ENGCTRL_OPEN e) ∧
    (takeSettings e s).on (F.HLE_ENGSTAT_BANKACT e) = s.on (F.HLE_ENGCTRL_BANK e) ∧ (takeSettings e s).on (F.HLE_ENGSTAT_SWPEND e) = false := by
  unfold takeSettings
  refine ⟨?_, ?_, ?_⟩
  · rw [State.on_put_apart _ _ _ _, State.on_put_apart _ _ _ _, State.on_put_same _ _ _ (Nat.le_of_ble_eq_true rfl)]
    exact congrArg (· == 1) (get_mod_of_bit s rfl)
  · rw [State.on_put_apart _ _ _ _, State.on_put_same _ _ _ (Nat.le_of_ble_eq_true rfl)]
    exact congrArg (· == 1) (get_mod_of_bit s rfl)
  · rw [State.on_put_same _ _ _ (Nat.le_of_ble_eq_true rfl)]
    rfl

/-- The settings in force as the engine is marked busy. -/
theorem dispatched_settings (e : Eng) (r : Trigger) (s : State) :
    let t := (dispatched e r s).put (F.HLE_ENGSTAT_BUSY e) 1
    engBusy t e = true ∧ t.on (F.HLE_ENGSTAT_OPENACT e) = s.on (F.HLE_ENGCTRL_OPEN e) ∧
      t.on (F.HLE_ENGSTAT_BANKACT e) = s.on (F.HLE_ENGCTRL_BANK e) ∧ t.on (F.HLE_ENGSTAT_SWPEND e) = false := by
  obtain ⟨hopen, hbank, hswap⟩ := takeSettings_spec e s
  refine ⟨?_, ?_, ?_, ?_⟩
  · rw [engBusy, State.on_put_same _ _ _ (Nat.le_of_ble_eq_true rfl)]
    rfl
  all_goals rw [State.on_put_apart _ _ _ _, dispatched, State.modEng_on]; assumption

/-! ## A trigger that is dropped (R221) -/

theorem triggerArrive_of_pending {s : State} {e : Eng} {o : Originator} (htakes : engineTakes s e = true)
    (hpending : s.eng[e.val].pending.any (fun t => t.orig == o) = true) (ep : Byte) :
    triggerArrive e o ep s = (s.put (F.HLE_ENGSTAT_DROP e) 1).count (F.HLE_ENGCNT_DROPCNT e) (F.HLE_ENGCNT_DROPOVF e) := by
  simp [triggerArrive, triggerDrops, htakes, hpending]

theorem triggerArrive_of_refused {s : State} {e : Eng} (htakes : engineTakes s e = false) (o : Originator) (ep : Byte) :
    triggerArrive e o ep s = s := by
  simp [triggerArrive, htakes]

/-- DROP and its count. -/
theorem dropped_spec (e : Eng) (s : State) :
    let t := (s.put (F.HLE_ENGSTAT_DROP e) 1).count (F.HLE_ENGCNT_DROPCNT e) (F.HLE_ENGCNT_DROPOVF e)
    t.eng = s.eng ∧ t.on (F.HLE_ENGSTAT_DROP e) = true ∧
      (s.get (F.HLE_ENGCNT_DROPCNT e) < 32767 → t.get (F.HLE_ENGCNT_DROPCNT e) = s.get (F.HLE_ENGCNT_DROPCNT e) + 1) := by
  have hcount : (s.put (F.HLE_ENGSTAT_DROP e) 1).get (F.HLE_ENGCNT_DROPCNT e) = s.get (F.HLE_ENGCNT_DROPCNT e) := State.get_put_apart _ _ _ _
  have hkept : ButFor [F.HLE_ENGCNT_DROPCNT e, F.HLE_ENGCNT_DROPOVF e] (s.put (F.HLE_ENGSTAT_DROP e) 1)
    ((s.put (F.HLE_ENGSTAT_DROP e) 1).count (F.HLE_ENGCNT_DROPCNT e) (F.HLE_ENGCNT_DROPOVF e)) := (ButFor.refl _).count (by simp) (by simp)
  refine ⟨ite_keeps (π := State.eng) rfl rfl, ?_, fun hbelow => ?_⟩
  · exact (hkept.on _).trans (State.on_put_same _ _ _ (Nat.le_of_ble_eq_true rfl))
  · rw [State.get_count_of_below (Nat.le_of_ble_eq_true rfl) (hcount.symm ▸ hbelow), hcount]

end Sys2Proof.Machine
end

section
/-!
SUPPORT. The writes of HLE_SWTRIG and HLE_CTRL (R220, R222).
-/
namespace Sys2Proof.Machine

theorem written_eng (a : Nat) (v : Word) (s : State) : (written a v s).eng = s.eng := by
  obtain ⟨r, hr⟩ := written_eq a v s
  rw [hr]

/-! ## HLE_SWTRIG -/

/-- The rows of HLE_SWTRIG: ENG and EP. -/
def swtrigRows : List Row := [⟨0x00C, 1, 0, 0, 3, .wo, 0, 0, 6, false⟩, ⟨0x00C, 1, 0, 8, 8, .wo, 0, 0, 0xff, false⟩]

theorem rowsAt_swtrig : rowsAt 0x4000B00C = swtrigRows := by decide +kernel

/-- The word that a software trigger writes. -/
def swtrigWord (e : Eng) (ep : Byte) : Word := BitVec.ofNat 32 (e.val + 256 * ep.toNat)

theorem swtrigWord_toNat (e : Eng) (ep : Byte) : (swtrigWord e ep).toNat = e.val + 256 * ep.toNat := by
  have he := e.isLt
  have hep := ep.isLt
  exact Nat.mod_eq_of_lt (by omega)

theorem swtrig_inRange (e : Eng) (ep : Byte) (s : State) : outOfRange s 0x4000B00C (swtrigWord e ep) = false := by
  have he := e.isLt
  have heng : ((swtrigWord e ep).extractLsb' 0 3).toNat = e.val := by
    rw [BitVec.extractLsb'_toNat, swtrigWord_toNat]
    omega
  have hentry : ((swtrigWord e ep).extractLsb' 8 8).toNat ≤ 255 := Nat.le_of_lt_succ (BitVec.isLt _)
  simp only [outOfRange, rowsAt_swtrig, swtrigRows, fieldFate, Row.of, List.any_cons, List.any_nil, Bool.or_false, Bool.or_eq_false_iff,
    decide_eq_false_iff_not, heng]
  exact ⟨by omega, decide_eq_false (by omega)⟩

theorem accepted_swtrig (e : Eng) (ep : Byte) (s : State) : accepted 0x4000B00C (swtrigWord e ep) s = true := by
  have hforb : ∀ m, forbidden s 0x4000B00C (swtrigWord e ep) m = false := fun m => rfl
  have hrows : (rowsAt 0x4000B00C).isEmpty = false := by rw [rowsAt_swtrig]; rfl
  simp only [accepted, regStore, hrows, swtrig_inRange, hforb, Bool.or_false, Bool.false_eq_true, if_false, Option.isSome_some]

/-- A software trigger stores nothing. -/
theorem written_swtrig (e : Eng) (ep : Byte) (s : State) :
    written 0x4000B00C (swtrigWord e ep) s = s.wr 0x4000B00C (s.rd 0x4000B00C) := by
  have hmerged : merged s 0x4000B00C (swtrigWord e ep) = s.rd 0x4000B00C := by
    simp only [merged, rowsAt_swtrig, swtrigRows, List.foldl_cons, List.foldl_nil, writeField, fieldFate]
  have hkept : fieldDiscarded s 0x4000B00C (swtrigWord e ep) = false := by
    simp only [fieldDiscarded, rowsAt_swtrig, swtrigRows, fieldFate, List.any_cons, List.any_nil]
    rfl
  rw [written_of_accepted (accepted_swtrig e ep s), hkept, hmerged, if_neg Bool.false_ne_true]

theorem rd_wr_self (s : State) (a x : Nat) : (s.wr a (s.rd a)).rd x = s.rd x := by
  by_cases h : x = a
  · rw [h, State.rd_wr_same]
  · exact State.rd_wr_other s _ h

/-- A register written with its own word leaves what an engine takes. -/
theorem engineTakes_wr_self (s : State) (a : Nat) (e : Eng) : engineTakes (s.wr a (s.rd a)) e = engineTakes s e := by
  have hget : ∀ g : Fld, (s.wr a (s.rd a)).get g = s.get g := fun g => congrArg g.read (rd_wr_self s a g.addr)
  simp only [engineTakes, enginesHeld, coreStopped, State.bit, State.on, hget]
  rfl

/-- A software trigger is one trigger to its engine. -/
theorem softTrigger_eq (e : Eng) (ep : Byte) (s : State) :
    softTrigger (swtrigWord e ep) s = triggerArrive e .software ep (s.wr 0x4000B00C (s.rd 0x4000B00C)) := by
  have he := e.isLt
  have hep := ep.isLt
  have heng : (swtrigWord e ep).toNat % 8 = e.val := by rw [swtrigWord_toNat]; omega
  have hentry : (swtrigWord e ep).toNat / 256 % 256 = ep.toNat := by rw [swtrigWord_toNat]; omega
  rw [softTrigger, regWriteWith_of_accepted (accepted_swtrig e ep s), written_swtrig, triggerTo, heng, hentry, dif_pos he, BitVec.ofNat_toNat,
    BitVec.setWidth_eq]

/-! ## HLE_CTRL -/

/-- The row of HLE_CTRL: EN. -/
def enableRow : Row := ⟨0x000, 1, 0, 0, 7, .rw, 0, 0, 0x7f, false⟩

theorem rowsAt_enable : rowsAt 0x4000B000 = [enableRow] := by decide +kernel

theorem accepted_enable (v : Word) (s : State) : accepted 0x4000B000 v s = true := by
  have hlt : enableRow.of v < 2 ^ 7 := enableRow.of_lt v
  have hrange : outOfRange s 0x4000B000 v = false := by
    have hle : ¬ (enableRow.of v < enableRow.vmin ∨ enableRow.vmax < enableRow.of v) := by
      have h0 : enableRow.vmin = 0 := rfl
      have h1 : enableRow.vmax = 0x7f := rfl
      omega
    simp only [outOfRange, rowsAt_enable, fieldFate, enableRow, List.any_cons, List.any_nil, Bool.or_false, decide_eq_false_iff_not]
    exact hle
  have hforb : ∀ m, forbidden s 0x4000B000 v m = false := fun m => rfl
  simp only [accepted, regStore, rowsAt_enable, List.isEmpty_cons, hrange, hforb, Bool.or_false, Bool.false_eq_true, if_false, Option.isSome_some]

/-- EN takes the mask written. -/
theorem written_enable_get (m : BitVec 7) (s : State) : (written 0x4000B000 (m.setWidth 32) s).get F.HLE_CTRL_EN = m.toNat := by
  have hrd : (written 0x4000B000 (m.setWidth 32) s).rd 0x4000B000 = merged s 0x4000B000 (m.setWidth 32) :=
    written_rd (accepted_enable _ s) (by decide +kernel)
  have hmerged : enableRow.of (merged s 0x4000B000 (m.setWidth 32)) = enableRow.of (m.setWidth 32) :=
    of_merged (by rw [rowsAt_enable]; exact List.mem_cons_self) (by decide) (by rw [rowsAt_enable]; simp)
  have hmask : enableRow.of (m.setWidth 32) = m.toNat := by
    have hlt := m.isLt
    simp only [Row.of, enableRow, BitVec.extractLsb'_toNat, BitVec.toNat_setWidth, Nat.shiftRight_zero]
    omega
  exact (congrArg F.HLE_CTRL_EN.read hrd).trans (hmerged.trans hmask)

/-- An engine disabled loses its pending triggers. -/
def discardIfOff (t : State) (e : Eng) : State :=
  if t.bit F.HLE_CTRL_EN e then t else t.modEng e (fun g => { g with pending := [] })

theorem hleEnable_eq (v : Word) (s : State) :
    hleEnable v s = followVotes ((List.finRange 7).foldl discardIfOff (written 0x4000B000 v s)) :=
  regWriteWith_of_accepted (accepted_enable v s) _

theorem discardIfOff_regs (t : State) (e : Eng) : (discardIfOff t e).regs = t.regs := ite_keeps (π := State.regs) rfl rfl
theorem discardIfOff_mem (t : State) (e : Eng) : (discardIfOff t e).mem = t.mem := ite_keeps (π := State.mem) rfl rfl

theorem discardIfOff_same (t : State) (e : Eng) :
    (discardIfOff t e).eng[e.val] = if t.bit F.HLE_CTRL_EN e then t.eng[e.val] else { t.eng[e.val] with pending := [] } := by
  unfold discardIfOff
  split
  · rfl
  · exact upd_same t.eng e _

theorem discardIfOff_other (t : State) {d e : Eng} (h : d ≠ e) : (discardIfOff t d).eng[e.val] = t.eng[e.val] :=
  ite_keeps (π := fun u : State => u.eng[e.val]) rfl (upd_other t.eng _ h)

/-- Every engine in a list that is disabled loses its pending triggers, and no other. -/
theorem foldl_discardIfOff_eng (l : List Eng) (e : Eng) (s : State) :
    (l.foldl discardIfOff s).eng[e.val] =
      if e ∈ l ∧ s.bit F.HLE_CTRL_EN e = false then { s.eng[e.val] with pending := [] } else s.eng[e.val] := by
  induction l generalizing s with
  | nil => simp
  | cons d l ih =>
    have hbit : (discardIfOff s d).bit F.HLE_CTRL_EN e = s.bit F.HLE_CTRL_EN e :=
      congrArg (fun r => bitAt (F.HLE_CTRL_EN.read (Tab.get resetWord r F.HLE_CTRL_EN.addr)) e) (discardIfOff_regs s d)
    rw [List.foldl_cons, ih, hbit]
    by_cases hd : d = e
    · subst hd
      rw [discardIfOff_same]
      cases s.bit F.HLE_CTRL_EN d <;> simp
    · rw [discardIfOff_other s hd]
      simp [Ne.symm hd]

/-! ## The votes leave the engines (R586) -/

theorem ungate_eng (p : Pair) (s : State) : (ungate p s).eng = s.eng := by
  unfold ungate
  exact ite_keeps (π := State.eng) rfl rfl

theorem ungateVoted_eng (s : State) : (ungateVoted s).eng = s.eng := by
  unfold ungateVoted
  exact ite_keeps (π := State.eng) (foldl_keeps (fun t p => ite_keeps (ungate_eng p t) rfl) _ s) rfl

theorem entryBegin_eng (dest : Nat) (s : State) : (entryBegin dest s).eng = s.eng := by
  unfold entryBegin
  exact ite_keeps (π := State.eng) rfl (ite_keeps (π := State.eng) rfl rfl)

theorem followVotes_eng (s : State) : (followVotes s).eng = s.eng := by
  have hungated := ungateVoted_eng s
  have hwoken : ∀ f, ((ungateVoted s).modPwr f).eng = s.eng := fun f => (State.modPwr_eng _ f).trans hungated
  simp only [followVotes]
  split
  · exact hungated
  · split
    · split <;> exact hwoken _
    · split
      · exact (entryBegin_eng _ _).trans hungated
      · split
        · exact hwoken _
        · exact hungated

/-- The enables written. -/
theorem hleEnable_spec (m : BitVec 7) (s : State) :
    let t := hleEnable (m.setWidth 32) s
    t.get F.HLE_CTRL_EN = m.toNat ∧ t.mem = s.mem ∧
      ∀ e : Eng, t.eng[e.val] = if bitAt m.toNat e then s.eng[e.val] else { s.eng[e.val] with pending := [] } := by
  have hen := written_enable_get m s
  have heng := written_eng 0x4000B000 (m.setWidth 32) s
  have hmem := written_mem 0x4000B000 (m.setWidth 32) s
  rw [hleEnable_eq]
  generalize written 0x4000B000 (m.setWidth 32) s = u at *
  have hvotes := aside_followVotes ((List.finRange 7).foldl discardIfOff u)
  have hregs : ((List.finRange 7).foldl discardIfOff u).regs = u.regs := foldl_keeps discardIfOff_regs _ u
  refine ⟨?_, ?_, fun e => ?_⟩
  · refine (hvotes.get (by decide)).trans (Eq.trans ?_ hen)
    exact congrArg (fun r => F.HLE_CTRL_EN.read (Tab.get resetWord r F.HLE_CTRL_EN.addr)) hregs
  · exact hvotes.mem.trans ((foldl_keeps discardIfOff_mem _ u).trans hmem)
  · have hbit : u.bit F.HLE_CTRL_EN e = bitAt m.toNat e := congrArg (bitAt · e) hen
    rw [followVotes_eng, foldl_discardIfOff_eng, hbit, heng]
    cases bitAt m.toNat e <;> simp

end Sys2Proof.Machine

open Sys2Proof Sys2Proof.Machine in
/-- Settles O28: the order by induction on the pending triggers, a dispatch by its named parts, the writes by the rows of their registers. -/
theorem activationsAndTriggers : Obligations.ActivationsAndTriggers := by
  unfold Obligations.ActivationsAndTriggers
  refine ⟨?order, ?some, ?dispatch, ?entryFault, ?notReady, ?soft, ?softDropped, ?softRefused, ?enable, ?stopped⟩
  case order => exact fun l t h => nextTrigger_spec h
  case some => exact fun l h => nextTrigger_ne_none h
  case dispatch =>
    intro s e r hidle htakes hnext hentry
    obtain ⟨hbusy, hopen, hbank, hswap⟩ := dispatched_settings e r s
    have hin : 256 ≤ entryOf s e r ∧ entryOf s e r ≤ 3071 := hentry
    have heng : ((dispatched e r s).put (F.HLE_ENGSTAT_BUSY e) 1).eng[e.val] = activated s e r s.eng[e.val] := dispatched_eng e r s
    refine ⟨_, (congrArg _ (dispatch_of_ready hidle htakes hnext)).trans (by rw [if_pos hin]), hbusy, ?pc, ?_, ?acc0, ?acc1, ?_, ?_, ?_, ?_, ?_, ?_,
      hopen, hbank, hswap, rfl, fun f hf => upd_other s.eng _ (Ne.symm hf)⟩
    case pc =>
      rw [heng]
      exact Nat.mod_eq_of_lt (by have := hin.2; omega)
    case acc0 | acc1 =>
      rw [accOf, heng]
      rfl
    all_goals rw [heng]; rfl
  case entryFault =>
    intro s e r hidle htakes hnext hentry
    have hout : ¬(256 ≤ entryOf s e r ∧ entryOf s e r ≤ 3071) := by unfold entryOf; omega
    have hf := faulted_faultAt e .entry (dispatched e r s)
    exact ⟨_, (congrArg _ (dispatch_of_ready hidle htakes hnext)).trans (by rw [if_neg hout]; rfl),
      hf.idle, hf.fault, hf.cause, hf.pending, hf.irq⟩
  case notReady => exact fun s e h => congrArg _ (dispatch_of_not_ready h)
  case soft =>
    intro s e ep hruns htakes hfree
    have hnone : s.eng[e.val].pending.any (fun t => t.orig == .software) = false := by simpa using hfree
    have harrive := triggerArrive_of_free ((engineTakes_wr_self s 0x4000B00C e).trans htakes) hnone ep
    refine ⟨_, (clockedOut_of_running hruns _).trans (congrArg _ ((softTrigger_eq e ep s).trans harrive)), ?_,
      fun f hf => upd_other s.eng _ (Ne.symm hf), fun a => rd_wr_self s _ a, rfl⟩
    exact congrArg Engine.pending (upd_same s.eng e _)
  case softDropped =>
    intro s e ep r hruns htakes ⟨hmem, horig⟩
    have hany : s.eng[e.val].pending.any (fun t => t.orig == .software) = true := List.any_eq_true.mpr ⟨r, hmem, by simp [horig]⟩
    have harrive := triggerArrive_of_pending ((engineTakes_wr_self s 0x4000B00C e).trans htakes) hany ep
    have hcount : (s.wr 0x4000B00C (s.rd 0x4000B00C)).get (F.HLE_ENGCNT_DROPCNT e) = s.get (F.HLE_ENGCNT_DROPCNT e) :=
      congrArg (F.HLE_ENGCNT_DROPCNT e).read (rd_wr_self s _ _)
    obtain ⟨heng, hdrop, hcounted⟩ := dropped_spec e (s.wr 0x4000B00C (s.rd 0x4000B00C))
    rw [hcount] at hcounted
    exact ⟨_, (clockedOut_of_running hruns _).trans (congrArg _ ((softTrigger_eq e ep s).trans harrive)), heng, hdrop, hcounted⟩
  case softRefused =>
    intro s e ep hruns htakes
    have harrive := triggerArrive_of_refused ((engineTakes_wr_self s 0x4000B00C e).trans htakes) .software ep
    exact ⟨_, (clockedOut_of_running hruns _).trans (congrArg _ ((softTrigger_eq e ep s).trans harrive)), rfl, fun a => rd_wr_self s _ a, rfl⟩
  case enable => exact fun s m hruns => ⟨_, clockedOut_of_running hruns _, hleEnable_spec m s⟩
  case stopped => exact fun s hs => ⟨fun _ _ => clockedOut_of_stopped hs _, fun _ => clockedOut_of_stopped hs _⟩
end

section
/-!
SUPPORT. A write of HLE_ENGnCTRL (R228, R230, R236): what its fields keep, what discards it, and what follows.
-/
namespace Sys2Proof.Machine

/-! ## The register -/

/-- The rows of HLE_ENGnCTRL: OPEN, BANK, LIVEWR, BIND, RESTART. -/
def openRow : Row := ⟨0x100, 7, 64, 0, 1, .rw, 1, 0, 1, false⟩
def bankRow : Row := ⟨0x100, 7, 64, 1, 1, .rw, 0, 0, 1, false⟩
def liveRow : Row := ⟨0x100, 7, 64, 2, 1, .rw, 0, 0, 1, false⟩
def bindRow : Row := ⟨0x100, 7, 64, 3, 2, .rwo, 0, 0, 2, false⟩
def restartRow : Row := ⟨0x100, 7, 64, 5, 1, .wo, 0, 0, 1, false⟩

def engCtrlRows : List Row := [openRow, bankRow, liveRow, bindRow, restartRow]

theorem rowsAt_engCtrl : ∀ e : Eng, rowsAt (engCtrlAddr e) = engCtrlRows := by decide +kernel

theorem accErrFld_engCtrl : ∀ e : Eng, accErrFld (engCtrlAddr e) = some (F.HLE_ENGSTAT_ACCERR e) := by decide +kernel

theorem accErr_engCtrl (e : Eng) (s : State) : accErr (engCtrlAddr e) s = s.put (F.HLE_ENGSTAT_ACCERR e) 1 := by
  rw [accErr, accErrFld_engCtrl]

/-- What forbids a write: a bridge that another engine names, and RESTART of a faulted engine (R230, R236). -/
theorem forbidden_engCtrl (e : Eng) (s : State) (v m : Word) : forbidden s (engCtrlAddr e) v m =
    (((m.extractLsb' 3 2).toNat != 0 && (List.range 7).any (fun k => k != e.val && s.get (F.HLE_ENGCTRL_BIND k) == (m.extractLsb' 3 2).toNat)) ||
      (bitAt v.toNat 5 && (s.on (F.HLE_ENGSTAT_FAULT e) || s.on (F.HLE_ENGSTAT_HWFAIL e)))) := by
  have he := e.isLt
  have hblock : blockOf (engCtrlAddr e) = 11 := (by decide : ∀ e : Eng, blockOf (engCtrlAddr e) = 11) e
  have hoff : engCtrlAddr e % 0x1000 = 0x100 + 0x40 * e.val := by unfold engCtrlAddr; omega
  have hrange : 0x100 ≤ 0x100 + 0x40 * e.val ∧ 0x100 + 0x40 * e.val < 0x2C0 := by omega
  have heng : (0x100 + 0x40 * e.val - 0x100) / 0x40 = e.val := by omega
  have hreg : (0x100 + 0x40 * e.val - 0x100) % 0x40 = 0 := by omega
  simp only [forbidden, hblock, hoff, if_pos hrange, heng, hreg, if_true]

theorem not_accepted_of_forbidden {a : Nat} {v : Word} {s : State} (h : forbidden s a v (merged s a v) = true) : accepted a v s = false := by
  have hnone : regStore a v s = none := by
    unfold regStore
    split
    · rfl
    · simp only [h, Bool.or_true, if_true]
  rw [accepted, hnone, Option.isSome_none]

theorem bind_addr_other : ∀ e f : Eng, f ≠ e → (F.HLE_ENGCTRL_BIND f).addr ≠ engCtrlAddr e := by decide

theorem ownerOpen_engCtrl (e : Eng) (s : State) (lo : Nat) : ownerOpen s (engCtrlAddr e) lo = s.on (F.HLE_ENGSTAT_OPENACT e) := by
  match e with
  | 0 | 1 | 2 | 3 | 4 | 5 | 6 => rfl

theorem engCtrlRows_apart : ∀ r ∈ engCtrlRows, ∀ q ∈ engCtrlRows, q ≠ r → q.lo + q.w ≤ r.lo ∨ r.lo + r.w ≤ q.lo := by decide

section
variable {s : State} {e : Eng} {v : Word}

/-- A field of the word that a write leaves. -/
theorem of_merged_engCtrl {r : Row} (hr : r ∈ engCtrlRows) :
    r.of (merged s (engCtrlAddr e) v) = fieldAfter s (engCtrlAddr e) (s.rd (engCtrlAddr e)) v r :=
  of_merged (by rwa [rowsAt_engCtrl]) ((by decide : ∀ r ∈ engCtrlRows, r.lo + r.w ≤ 32) r hr)
    (by rw [rowsAt_engCtrl]; exact engCtrlRows_apart r hr)

/-- While the loop is open BIND is stored. -/
theorem bind_merged (hopen : s.on (F.HLE_ENGSTAT_OPENACT e) = true) :
    bindRow.of (merged s (engCtrlAddr e) v) = (F.HLE_ENGCTRL_BIND e).read v := by
  rw [of_merged_engCtrl (by decide)]
  simp only [fieldAfter, fieldFate, bindRow, ownerOpen_engCtrl, hopen, if_true]
  rfl

/-! ## An accepted write -/

variable (h : accepted (engCtrlAddr e) v s = true)
include h

theorem written_engCtrl_rd : (written (engCtrlAddr e) v s).rd (engCtrlAddr e) = merged s (engCtrlAddr e) v :=
  written_rd h fun f hf => by
    rw [accErrFld_engCtrl] at hf
    exact Option.some.inj hf ▸ (by decide : ∀ e : Eng, (F.HLE_ENGSTAT_ACCERR e).addr ≠ engCtrlAddr e) e

theorem written_open : (written (engCtrlAddr e) v s).get (F.HLE_ENGCTRL_OPEN e) = (F.HLE_ENGCTRL_OPEN e).read v :=
  (congrArg openRow.of (written_engCtrl_rd h)).trans (of_merged_engCtrl (r := openRow) (by decide))

theorem written_bank : (written (engCtrlAddr e) v s).get (F.HLE_ENGCTRL_BANK e) = (F.HLE_ENGCTRL_BANK e).read v :=
  (congrArg bankRow.of (written_engCtrl_rd h)).trans (of_merged_engCtrl (r := bankRow) (by decide))

theorem written_bind (hopen : s.on (F.HLE_ENGSTAT_OPENACT e) = true) :
    (written (engCtrlAddr e) v s).get (F.HLE_ENGCTRL_BIND e) = (F.HLE_ENGCTRL_BIND e).read v :=
  (congrArg bindRow.of (written_engCtrl_rd h)).trans (bind_merged hopen)

/-- A field of another register, apart from ACCERR. -/
theorem written_engCtrl_get {g : Fld} (hg : g.lo + g.w ≤ 32) (ha : g.addr ≠ engCtrlAddr e) (hd : (F.HLE_ENGSTAT_ACCERR e).disj g = true) :
    (written (engCtrlAddr e) v s).get g = s.get g :=
  written_get_other h hg ha fun f hf => by
    rw [accErrFld_engCtrl] at hf
    exact Option.some.inj hf ▸ hd

end

/-! ## What follows -/

/-- OPEN and BANK where only the swap request changes them (R270). -/
def settingsKept (e : Eng) (s t : State) : State :=
  if swapOwned s e then (t.put (F.HLE_ENGCTRL_OPEN e) (s.get (F.HLE_ENGCTRL_OPEN e))).put (F.HLE_ENGCTRL_BANK e) (s.get (F.HLE_ENGCTRL_BANK e))
  else t

/-- RESTART lets the engine accept triggers again (R236). -/
def restarted (e : Eng) (v : Word) (t : State) : State := if bitAt v.toNat 5 then t.modEng e (fun g => { g with halted := false }) else t

theorem engCtrlWrite_of_accepted {e : Eng} {v : Word} {s : State} (h : accepted (engCtrlAddr e) v s = true) :
    engCtrlWrite e v s = restarted e v (markSwap e (settingsKept e s (written (engCtrlAddr e) v s))) := regWriteWith_of_accepted h _

theorem engCtrlWrite_of_forbidden {e : Eng} {v : Word} {s : State} (h : forbidden s (engCtrlAddr e) v (merged s (engCtrlAddr e) v) = true) :
    engCtrlWrite e v s = s.put (F.HLE_ENGSTAT_ACCERR e) 1 :=
  (regWriteWith_of_not_accepted (not_accepted_of_forbidden h) _).trans (accErr_engCtrl e s)

section
variable (e : Eng) (v : Word) (t : State)

theorem restarted_get (g : Fld) : (restarted e v t).get g = t.get g := ite_keeps (π := fun u : State => u.get g) rfl rfl
theorem restarted_on (g : Fld) : (restarted e v t).on g = t.on g := ite_keeps (π := fun u : State => u.on g) rfl rfl
theorem restarted_mem : (restarted e v t).mem = t.mem := ite_keeps (π := State.mem) rfl rfl

theorem butFor_markSwap : ButFor [F.HLE_ENGSTAT_SWPEND e] t (markSwap e t) := ButFor.ite (.refl t) ((ButFor.refl t).put (by simp) 1)

theorem markSwap_mem : (markSwap e t).mem = t.mem := ite_keeps (π := State.mem) rfl rfl
theorem markSwap_eng : (markSwap e t).eng = t.eng := ite_keeps (π := State.eng) rfl rfl

variable (s : State)

theorem butFor_settingsKept : ButFor [F.HLE_ENGCTRL_OPEN e, F.HLE_ENGCTRL_BANK e] t (settingsKept e s t) :=
  ButFor.ite (((ButFor.refl t).put (by simp) _).put (by simp) _) (.refl t)

theorem settingsKept_mem : (settingsKept e s t).mem = t.mem := ite_keeps (π := State.mem) rfl rfl
theorem settingsKept_eng : (settingsKept e s t).eng = t.eng := ite_keeps (π := State.eng) rfl rfl

/-- What follows a write reaches memory no more than the write does. -/
theorem ctrlFollowed_mem (u : State) (h : u.mem = s.mem) : (restarted e v (markSwap e (settingsKept e s u))).mem = s.mem := by
  rw [restarted_mem, markSwap_mem, settingsKept_mem, h]

end

theorem get_of_bit (s : State) {f : Fld} (hf : f.w = 1) : s.get f = (s.on f).toNat := by
  have hlt : s.get f < 2 := by simpa [hf] using State.get_lt s f
  rw [State.on]
  interval_cases s.get f <;> rfl

/-- SWPEND is set where BANK differs from BANKACT, and cleared by no write (R228). -/
theorem markSwap_swpend (e : Eng) (t : State) : (markSwap e t).on (F.HLE_ENGSTAT_SWPEND e) =
    (t.on (F.HLE_ENGSTAT_SWPEND e) || t.on (F.HLE_ENGCTRL_BANK e) != t.on (F.HLE_ENGSTAT_BANKACT e)) := by
  rw [markSwap, get_of_bit t (f := F.HLE_ENGCTRL_BANK e) rfl, get_of_bit t (f := F.HLE_ENGSTAT_BANKACT e) rfl]
  by_cases hsame : t.on (F.HLE_ENGCTRL_BANK e) = t.on (F.HLE_ENGSTAT_BANKACT e)
  · simp [hsame]
  · have hdiff : (t.on (F.HLE_ENGCTRL_BANK e)).toNat ≠ (t.on (F.HLE_ENGSTAT_BANKACT e)).toNat := by
      revert hsame
      cases t.on (F.HLE_ENGCTRL_BANK e) <;> cases t.on (F.HLE_ENGSTAT_BANKACT e) <;> decide
    have hne : (t.on (F.HLE_ENGCTRL_BANK e) != t.on (F.HLE_ENGSTAT_BANKACT e)) = true := bne_iff_ne.mpr hsame
    rw [if_neg hdiff, hne, Bool.or_true, State.on_put_same _ _ _ (Nat.le_of_ble_eq_true rfl)]
    rfl

/-! ## The words written -/

theorem on_of_read {f : Fld} {s : State} {w : Word} {b : Bool} (h : s.get f = f.read (f.write w b.toNat)) (hf : f.lo + f.w ≤ 32) (hw : f.w = 1) :
    s.on f = b := by
  rw [State.on, h, Fld.read_write f hf, hw]
  cases b <;> rfl

/-- RESTART is bit 5. -/
theorem restart_written (e : Eng) (w : Word) : bitAt ((F.HLE_ENGCTRL_RESTART e).write w 1).toNat 5 = true := by
  have hread := Fld.read_write (F.HLE_ENGCTRL_RESTART e) (Nat.le_of_ble_eq_true rfl) w 1
  rw [Fld.read_eq] at hread
  exact congrArg (· == 1) hread

/-- OPEN and BANK of an engine whose settings the swap request owns stand through every write (R270). -/
theorem engCtrlWrite_owned {s : State} {e : Eng} (howned : swapOwned s e = true) (v : Word) :
    (engCtrlWrite e v s).on (F.HLE_ENGCTRL_OPEN e) = s.on (F.HLE_ENGCTRL_OPEN e) ∧
      (engCtrlWrite e v s).on (F.HLE_ENGCTRL_BANK e) = s.on (F.HLE_ENGCTRL_BANK e) := by
  by_cases h : accepted (engCtrlAddr e) v s = true
  · have hswap := butFor_markSwap e (settingsKept e s (written (engCtrlAddr e) v s))
    rw [engCtrlWrite_of_accepted h, restarted_on, restarted_on, hswap.on _, hswap.on _, settingsKept, if_pos howned]
    refine ⟨?_, ?_⟩
    · rw [State.on_put_apart _ _ _ _, State.on_put_same _ _ _ (Nat.le_of_ble_eq_true rfl)]
      exact congrArg (· == 1) (get_mod_of_bit s rfl)
    · rw [State.on_put_same _ _ _ (Nat.le_of_ble_eq_true rfl)]
      exact congrArg (· == 1) (get_mod_of_bit s rfl)
  · have hflag : engCtrlWrite e v s = s.put (F.HLE_ENGSTAT_ACCERR e) 1 :=
      (regWriteWith_of_not_accepted (Bool.eq_false_iff.mpr h) _).trans (accErr_engCtrl e s)
    rw [hflag]
    exact ⟨State.on_put_apart _ _ _ _, State.on_put_apart _ _ _ _⟩

section
variable {s : State} {e : Eng} {v : Word} (h : accepted (engCtrlAddr e) v s = true)
include h

/-- Where software owns OPEN and BANK, a write is followed by SWPEND and RESTART alone. -/
theorem engCtrlWrite_free (hfree : swapOwned s e = false) :
    engCtrlWrite e v s = restarted e v (markSwap e (written (engCtrlAddr e) v s)) := by
  rw [engCtrlWrite_of_accepted h, settingsKept, if_neg (Bool.eq_false_iff.mp hfree)]

theorem engCtrlWrite_mem : (engCtrlWrite e v s).mem = s.mem := by
  rw [engCtrlWrite_of_accepted h]
  exact ctrlFollowed_mem e v s _ (written_mem _ _ _)

end

/-- The fields that no write reaches past OPEN, BANK and SWPEND. -/
theorem engCtrlWrite_get {s : State} {e : Eng} {v : Word} (h : accepted (engCtrlAddr e) v s = true) {g : Fld} (hg : g.lo + g.w ≤ 32)
    (hd : ∀ f ∈ [F.HLE_ENGCTRL_OPEN e, F.HLE_ENGCTRL_BANK e, F.HLE_ENGSTAT_SWPEND e], f.disj g = true) :
    (engCtrlWrite e v s).get g = (written (engCtrlAddr e) v s).get g := by
  rw [engCtrlWrite_of_accepted h, restarted_get]
  exact ((butFor_markSwap e _).kept g hg fun f hf => hd f (by simp_all)).trans
    ((butFor_settingsKept e _ s).kept g hg fun f hf => hd f (by simp_all; tauto))

/-- OPEN and BANK as they are written. -/
theorem settings_written {s : State} {e : Eng} {v : Word} (h : accepted (engCtrlAddr e) v s = true) (hfree : swapOwned s e = false) :
    (engCtrlWrite e v s).get (F.HLE_ENGCTRL_OPEN e) = (F.HLE_ENGCTRL_OPEN e).read v ∧
      (engCtrlWrite e v s).get (F.HLE_ENGCTRL_BANK e) = (F.HLE_ENGCTRL_BANK e).read v := by
  have hswap := butFor_markSwap e (written (engCtrlAddr e) v s)
  rw [engCtrlWrite_free h hfree, restarted_get, restarted_get, hswap.get _, hswap.get _]
  exact ⟨written_open h, written_bank h⟩

/-- The settings in force stand through a write. -/
theorem inForce_kept {s : State} {e : Eng} {v : Word} (h : accepted (engCtrlAddr e) v s = true) :
    (engCtrlWrite e v s).on (F.HLE_ENGSTAT_OPENACT e) = s.on (F.HLE_ENGSTAT_OPENACT e) ∧
      (engCtrlWrite e v s).on (F.HLE_ENGSTAT_BANKACT e) = s.on (F.HLE_ENGSTAT_BANKACT e) := by
  have hon : ∀ g : Fld, g.lo + g.w ≤ 32 → g.addr ≠ engCtrlAddr e → (F.HLE_ENGSTAT_ACCERR e).disj g = true →
      (∀ f ∈ [F.HLE_ENGCTRL_OPEN e, F.HLE_ENGCTRL_BANK e, F.HLE_ENGSTAT_SWPEND e], f.disj g = true) → (engCtrlWrite e v s).on g = s.on g :=
    fun g hg ha hd hall => congrArg (· == 1) ((engCtrlWrite_get h hg hall).trans (written_engCtrl_get h hg ha hd))
  exact ⟨hon _ (Nat.le_of_ble_eq_true rfl) (by clear * -; decide +revert) (by clear * -; decide +revert) (by clear * -; decide +revert),
    hon _ (Nat.le_of_ble_eq_true rfl) (by clear * -; decide +revert) (by clear * -; decide +revert) (by clear * -; decide +revert)⟩

/-- SWPEND after a write. -/
theorem swpend_written {s : State} {e : Eng} {v : Word} (h : accepted (engCtrlAddr e) v s = true) (hfree : swapOwned s e = false) :
    (engCtrlWrite e v s).on (F.HLE_ENGSTAT_SWPEND e) =
      (s.on (F.HLE_ENGSTAT_SWPEND e) || (engCtrlWrite e v s).on (F.HLE_ENGCTRL_BANK e) != s.on (F.HLE_ENGSTAT_BANKACT e)) := by
  have hswap := butFor_markSwap e (written (engCtrlAddr e) v s)
  have hpend : (written (engCtrlAddr e) v s).on (F.HLE_ENGSTAT_SWPEND e) = s.on (F.HLE_ENGSTAT_SWPEND e) := congrArg (· == 1)
    (written_engCtrl_get h (Nat.le_of_ble_eq_true rfl) (by clear * -; decide +revert) (by clear * -; decide +revert))
  have hbankact : (written (engCtrlAddr e) v s).on (F.HLE_ENGSTAT_BANKACT e) = s.on (F.HLE_ENGSTAT_BANKACT e) := congrArg (· == 1)
    (written_engCtrl_get h (Nat.le_of_ble_eq_true rfl) (by clear * -; decide +revert) (by clear * -; decide +revert))
  rw [engCtrlWrite_free h hfree, restarted_on, restarted_on, hswap.on (F.HLE_ENGCTRL_BANK e), markSwap_swpend, hpend, hbankact]

/-- A write that names a bridge that another engine names is discarded (R230). -/
theorem engCtrlWrite_bound {s : State} {e f : Eng} {v : BitVec 2} (hopen : s.on (F.HLE_ENGSTAT_OPENACT e) = true) (hf : f ≠ e) (hv : v ≠ 0)
    (hbound : s.get (F.HLE_ENGCTRL_BIND f) = v.toNat) (w : Word) :
    engCtrlWrite e ((F.HLE_ENGCTRL_BIND e).write w v.toNat) s = s.put (F.HLE_ENGSTAT_ACCERR e) 1 := by
  refine engCtrlWrite_of_forbidden ?_
  have hread : (F.HLE_ENGCTRL_BIND e).read ((F.HLE_ENGCTRL_BIND e).write w v.toNat) = v.toNat :=
    (Fld.read_write _ (Nat.le_of_ble_eq_true rfl) w _).trans (Nat.mod_eq_of_lt v.isLt)
  have hmerged : ((merged s (engCtrlAddr e) ((F.HLE_ENGCTRL_BIND e).write w v.toNat)).extractLsb' 3 2).toNat = v.toNat :=
    (bind_merged hopen).trans hread
  have hzero : v.toNat ≠ 0 := fun h0 => hv (BitVec.eq_of_toNat_eq h0)
  have hother : (List.range 7).any (fun k => k != e.val && s.get (F.HLE_ENGCTRL_BIND k) == v.toNat) = true :=
    List.any_eq_true.mpr ⟨f.val, List.mem_range.mpr f.isLt, by simp [hbound, Fin.val_ne_of_ne hf]⟩
  rw [forbidden_engCtrl, hmerged, hother, bne_iff_ne.mpr hzero]
  rfl

/-- RESTART of a faulted engine is discarded (R236). -/
theorem engCtrlWrite_faulted {s : State} {e : Eng} (hfault : s.on (F.HLE_ENGSTAT_FAULT e) = true) (w : Word) :
    engCtrlWrite e ((F.HLE_ENGCTRL_RESTART e).write w 1) s = s.put (F.HLE_ENGSTAT_ACCERR e) 1 := by
  refine engCtrlWrite_of_forbidden ?_
  rw [forbidden_engCtrl, restart_written, hfault]
  simp

end Sys2Proof.Machine
end

open Sys2Proof Sys2Proof.Machine in
/-- Settles O29: the words that the requests write, through what a write of HLE_ENGnCTRL stores and what follows it. -/
theorem engineSettings : Obligations.EngineSettings := by
  unfold Obligations.EngineSettings
  refine ⟨?opening, ?bank, ?owned, ?bind, ?bound, ?restart, ?faulted, ?stopped, ?complete⟩
  case opening =>
    intro s e o hruns hfree h
    obtain ⟨hopen, hbank⟩ := settings_written h hfree
    obtain ⟨hopenact, hbankact⟩ := inForce_kept h
    refine ⟨_, clockedOut_of_running hruns _, on_of_read hopen (Nat.le_of_ble_eq_true rfl) rfl, ?_, hopenact, hbankact, engCtrlWrite_mem h⟩
    exact congrArg (· == 1) (hbank.trans (Fld.read_write_disj _ _ (Nat.le_of_ble_eq_true rfl) (.inl (Nat.le_of_ble_eq_true rfl)) _ _))
  case bank =>
    intro s e k hruns hfree h
    obtain ⟨hopen, hbank⟩ := settings_written h hfree
    obtain ⟨hopenact, hbankact⟩ := inForce_kept h
    have hk := on_of_read hbank (Nat.le_of_ble_eq_true rfl) rfl
    refine ⟨_, clockedOut_of_running hruns _, hk, ?_, hopenact, hbankact, ?_, engCtrlWrite_mem h⟩
    · exact congrArg (· == 1) (hopen.trans (Fld.read_write_disj _ _ (Nat.le_of_ble_eq_true rfl) (.inr (Nat.le_of_ble_eq_true rfl)) _ _))
    · rw [swpend_written h hfree, hk]
  case owned =>
    intro s e o k hruns ⟨htop, houter⟩
    have howned : swapOwned s e = true := by simp [swapOwned, htop, houter]
    exact ⟨⟨_, clockedOut_of_running hruns _, engCtrlWrite_owned howned _⟩,
      ⟨_, clockedOut_of_running hruns _, engCtrlWrite_owned howned _⟩⟩
  case bind =>
    intro s e v hruns hopen h
    refine ⟨_, clockedOut_of_running hruns _, ?_, engCtrlWrite_mem h, fun f hf => ?_⟩
    · rw [engCtrlWrite_get h (Nat.le_of_ble_eq_true rfl) (by clear * -; decide +revert), written_bind h hopen,
        Fld.read_write _ (Nat.le_of_ble_eq_true rfl)]
      exact Nat.mod_eq_of_lt v.isLt
    · rw [engCtrlWrite_get h (Nat.le_of_ble_eq_true rfl) (by clear * -; decide +revert),
        written_engCtrl_get h (Nat.le_of_ble_eq_true rfl) (bind_addr_other e f hf) (by clear * -; decide +revert)]
  case bound =>
    intro s e f v hruns hopen hf ⟨hv, hbound⟩
    exact (clockedOut_of_running hruns _).trans (congrArg _ (engCtrlWrite_bound hopen hf hv hbound _))
  case restart =>
    intro s e hruns hfault h
    refine ⟨_, clockedOut_of_running hruns _, ?_, engCtrlWrite_mem h⟩
    rw [engCtrlWrite_of_accepted h, restarted, if_pos (restart_written e _), State.modEng_eng, upd_same, markSwap_eng, settingsKept_eng, written_eng]
  case faulted =>
    intro s e hruns hfault
    exact (clockedOut_of_running hruns _).trans (congrArg _ (engCtrlWrite_faulted hfault _))
  case stopped =>
    intro s hs
    exact ⟨fun _ _ => clockedOut_of_stopped hs _, fun _ _ => clockedOut_of_stopped hs _, fun _ _ => clockedOut_of_stopped hs _,
      fun _ => clockedOut_of_stopped hs _⟩
  case complete =>
    exact ⟨fun s _ _ => exec_next_pending _ s, fun s _ _ => exec_next_pending _ s, fun s _ _ => exec_next_pending _ s,
      fun s _ => exec_next_pending _ s⟩

section
/-!
SUPPORT. BR, BRC, LOOP, SETC and END (R210, R215, R219).
-/
namespace Sys2Proof.Machine

/-- LOOP with a level free begins a body of the count given. -/
theorem loopStep_of_free {s : State} {e : Eng} {n : Nat} (hn : 1 ≤ n ∧ n ≤ 4096) (hfree : s.eng[e.val].loops.length < 2) (l : BitVec 12) :
    loopStep e n l s = s.modEng e (fun g => { g with
      pc := g.pc + 1, lastPc := g.pc, cycles := g.cycles + 1, loops := ⟨g.pc + 1, l, n⟩ :: g.loops }) := by
  obtain ⟨hlo, hhi⟩ := hn
  have hcount : max 1 (min n 4096) = n := by omega
  have hroom : decide (2 ≤ s.eng[e.val].loops.length) = false := decide_eq_false (Nat.not_le.mpr hfree)
  simp only [loopStep, hcount, hroom, Bool.false_eq_true, if_false]
  rfl

/-- An index register's circular length set. -/
def circSet (i : Fin 4) (n : Nat) (g : Engine) : Engine := { g with circ := g.circ.set i.val n }

/-- SETC gives a circular length of 2 to 256. -/
theorem setcStep_of_range (e : Eng) (i : Fin 4) {n : Nat} (hn : 2 ≤ n ∧ n ≤ 256) (s : State) :
    setcStep e ⟨i.val, by omega⟩ n s = s.modEng e (circSet i n) := by
  obtain ⟨hlo, hhi⟩ := hn
  have hlen : max 2 (min n 256) = n := by omega
  simp only [setcStep, dif_pos i.isLt, hlen]
  rfl

/-! ## END -/

/-- The engine as its activation ends. -/
def endedEng (g : Engine) : Engine := { g with lastPc := g.pc, cycles := g.cycles + 1, loops := [], act := none }

/-- An activation of `n` cycles ended and recorded. -/
def ended (e : Eng) (n : Nat) (s : State) : State :=
  (((s.modEng e endedEng).put (F.HLE_ENGSTAT_BUSY e) 0).put (F.HLE_ENGCYC_LAST e) n).put (F.HLE_ENGCYC_MAX e) (max n (s.get (F.HLE_ENGCYC_MAX e)))

/-- The cycles of an activation within its LIMIT are below 2^16. -/
theorem cycles_lt_of_executes {s : State} {e : Eng} (h : Executes s e 1) : s.eng[e.val].cycles + 1 < 2 ^ 16 := by
  obtain ⟨-, -, hfits⟩ := h
  exact lt_of_le_of_lt (of_decide_eq_true hfits) (State.get_lt s (F.HLE_ENGWDOG_LIMIT e))

theorem endStep_of_executes {s : State} {e : Eng} (h : Executes s e 1) : endStep e s = ended e (s.eng[e.val].cycles + 1) s := by
  have hlt := cycles_lt_of_executes h
  have hcycles : (s.modEng e endedEng).eng[e.val].cycles = s.eng[e.val].cycles + 1 := by
    rw [State.modEng_eng, upd_same]
    rfl
  have hlast : min (s.modEng e endedEng).eng[e.val].cycles 0xFFFF = s.eng[e.val].cycles + 1 := by
    rw [hcycles]
    omega
  have hmax : (((s.modEng e endedEng).put (F.HLE_ENGSTAT_BUSY e) 0).put (F.HLE_ENGCYC_LAST e) (s.eng[e.val].cycles + 1)).get (F.HLE_ENGCYC_MAX e) =
      s.get (F.HLE_ENGCYC_MAX e) := by
    rw [State.get_put_apart _ _ _ _, State.get_put_apart _ _ _ _, State.modEng_get]
  rw [endStep, running_of_executes h]
  exact (congrArg (fun n => (((s.modEng e endedEng).put (F.HLE_ENGSTAT_BUSY e) 0).put (F.HLE_ENGCYC_LAST e) n).put (F.HLE_ENGCYC_MAX e)
    (max n ((((s.modEng e endedEng).put (F.HLE_ENGSTAT_BUSY e) 0).put (F.HLE_ENGCYC_LAST e) n).get (F.HLE_ENGCYC_MAX e)))) hlast).trans
    (by rw [hmax]; rfl)

theorem ended_eng (e : Eng) (n : Nat) (s : State) : (ended e n s).eng[e.val] = endedEng s.eng[e.val] := upd_same s.eng e _

theorem ended_idle (e : Eng) (n : Nat) (s : State) : engBusy (ended e n s) e = false := by
  rw [engBusy, ended, State.on_put_apart _ _ _ _, State.on_put_apart _ _ _ _, State.on_put_same _ _ _ (Nat.le_of_ble_eq_true rfl)]
  rfl

theorem ended_last (e : Eng) {n : Nat} (hn : n < 2 ^ 16) (s : State) : (ended e n s).get (F.HLE_ENGCYC_LAST e) = n := by
  rw [ended, State.get_put_apart _ _ _ _, State.get_put_same _ _ _ (Nat.le_of_ble_eq_true rfl)]
  exact Nat.mod_eq_of_lt hn

theorem ended_max (e : Eng) {n : Nat} (hn : n < 2 ^ 16) (s : State) :
    (ended e n s).get (F.HLE_ENGCYC_MAX e) = max n (s.get (F.HLE_ENGCYC_MAX e)) := by
  rw [ended, State.get_put_same _ _ _ (Nat.le_of_ble_eq_true rfl)]
  exact Nat.mod_eq_of_lt (max_lt hn (State.get_lt s (F.HLE_ENGCYC_MAX e)))

end Sys2Proof.Machine

open Sys2Proof Sys2Proof.Machine in
/-- Settles O35: branches and LOOP as exact next states, the other instructions by what they leave and how they go on. -/
theorem engineControl : Obligations.EngineControl := by
  unfold Obligations.EngineControl
  refine ⟨?br, ?taken, ?notTaken, ?loop, ?setc, ?trig, ?trigDropped, ?endAct⟩
  case br => exact fun s e p h => congrArg _ (running_of_executes h _)
  case taken => exact fun s e f p h hflag => congrArg _ ((if_pos hflag).trans (running_of_executes h _))
  case notTaken =>
    intro s e f p h hflag
    have hexec : exec (.brc e f p) s = .next (advance e 1 s) :=
      congrArg Host.Outcome.next ((if_neg (Bool.eq_false_iff.mp hflag)).trans (running_of_executes h _))
    refine ⟨_, hexec, (OwnPart.refl s).stepped 1, ?_, rfl⟩
    exact advance_x e 1 s
  case loop => exact fun s e n l h hn hfree => congrArg _ ((running_of_executes h _).trans (loopStep_of_free hn hfree l))
  case setc =>
    intro s e i n h hn
    have heng : (s.modEng e (circSet i n)).eng[e.val] = circSet i n s.eng[e.val] := upd_same s.eng e _
    have hown : OwnPart e s (s.modEng e (circSet i n)) := (OwnPart.refl s).modEng fun _ => ⟨rfl, rfl, rfl⟩
    refine ⟨_, next_instr_of_eq h (setcStep_of_range e i hn s), hown.stepped 1, ?_, ?_, ?_, rfl⟩
    · rw [advance_circ, heng, circSet]
    · rw [advance_x, heng, circSet]
    · rw [advance_ix, heng, circSet]
  case trig =>
    intro s e f ep h htakes hfree
    have hnone : s.eng[f.val].pending.any (fun t => t.orig == .engine e) = false := by simpa using hfree
    refine ⟨_, next_instr_of_eq h (triggerArrive_of_free htakes hnone ep), ?_, fun g hg => ?_, rfl, rfl⟩
    · rw [advance_pending, State.modEng_eng, upd_same]
    · rw [advance_pending, State.modEng_eng, upd_other s.eng _ (Ne.symm hg)]
  case trigDropped =>
    intro s e f ep h htakes ⟨r, hmem, horig⟩
    have hany : s.eng[f.val].pending.any (fun t => t.orig == .engine e) = true := List.any_eq_true.mpr ⟨r, hmem, by simp [horig]⟩
    obtain ⟨heng, hdrop, hcount⟩ := dropped_spec f s
    refine ⟨_, next_instr_of_eq h (triggerArrive_of_pending htakes hany ep), ?_, hdrop, hcount⟩
    rw [advance_pending, heng]
  case endAct =>
    intro s e h
    have hlt := cycles_lt_of_executes h
    have heng := ended_eng e (s.eng[e.val].cycles + 1) s
    have hexec : exec (.endAct e) s = .next (ended e (s.eng[e.val].cycles + 1) s) := congrArg Host.Outcome.next (endStep_of_executes h)
    refine ⟨_, hexec, ended_idle e _ s, ended_last e hlt s, ended_max e hlt s, ?_, ?_, ?_, rfl⟩
    all_goals rw [heng]; rfl
end

section
/-!
SUPPORT. The outer result (R246, R372) and the set of duty words that a write of MCx_DUTY3 commits (R282, R285).
-/
namespace Sys2Proof.Machine

@[simp] theorem State.setMem20_get (s : State) (a : Nat) (v : Q20) (f : Fld) : (s.setMem20 a v).get f = s.get f := by
  obtain ⟨m, hm⟩ := s.setMem20_eq a v
  rw [hm]
  rfl

@[simp] theorem State.setMem20_tick (s : State) (a : Nat) (v : Q20) : (s.setMem20 a v).tick = s.tick := by
  obtain ⟨m, hm⟩ := s.setMem20_eq a v
  rw [hm]

/-- What landing keeps of the cycle before, the last D and the tick, is that of the state before the word is stored. -/
theorem dLanded_setMem20 (v : Q20) (a : Nat) (s : State) :
    dLanded v (s.setMem20 a v) = ((s.setMem20 a v).put F.CONT_D_D v.toNat).modCont (fun c => { c with
      landed := true, dPrior := if c.dTick = some s.tick then c.dPrior else BitVec.ofNat 20 (s.get F.CONT_D_D),
      dTick := some s.tick }) := by
  rw [dLanded, State.setMem20_get, State.setMem20_tick]

theorem written_mc (a : Nat) (v : Word) (s : State) : (written a v s).mc = s.mc := by
  obtain ⟨r, hr⟩ := written_eq a v s
  rw [hr]

/-- An MC block that takes the set `d` at the tick `k`: the set before the tick's first commit stays as the prior one. -/
def setCommitted (k : Nat) (d : Duties) (m : Mc) : Mc :=
  { m with prior := if m.commitTick = some k then m.prior else m.committed, commitTick := some k, committed := d }

section
variable {b : Bridge} {v : Word} {s : State} (hacc : accepted (0x4000C010 + 0x1000 * b.val) v s = true)
include hacc

theorem dutyWrite_of_clamping (hclamp : s.mc[b.val].clamping = true) :
    dutyWrite b v s = written (0x4000C010 + 0x1000 * b.val) v s := by
  rw [dutyWrite, regWriteWith_of_accepted hacc, written_mc, if_pos hclamp]

theorem dutyWrite_of_free (hfree : s.mc[b.val].clamping = false) :
    dutyWrite b v s = (written (0x4000C010 + 0x1000 * b.val) v s).modMc b
      (setCommitted s.tick (dutyRegs (written (0x4000C010 + 0x1000 * b.val) v s) b)) := by
  rw [dutyWrite, regWriteWith_of_accepted hacc, written_mc, if_neg (Bool.eq_false_iff.mp hfree), written_tick]
  rfl

theorem dutyWrite_mc (hfree : s.mc[b.val].clamping = false) :
    (dutyWrite b v s).mc[b.val] =
      setCommitted s.tick (dutyRegs (written (0x4000C010 + 0x1000 * b.val) v s) b) s.mc[b.val] := by
  rw [dutyWrite_of_free hacc hfree, State.modMc_mc, upd_same, written_mc]

theorem dutyWrite_regs (hfree : s.mc[b.val].clamping = false) :
    (dutyWrite b v s).regs = (written (0x4000C010 + 0x1000 * b.val) v s).regs := by
  rw [dutyWrite_of_free hacc hfree, State.modMc_regs]

theorem dutyRegs_dutyWrite (hfree : s.mc[b.val].clamping = false) :
    dutyRegs (dutyWrite b v s) b = dutyRegs (written (0x4000C010 + 0x1000 * b.val) v s) b := by
  rw [dutyWrite_of_free hacc hfree]
  rfl

theorem dutyWrite_mem (hfree : s.mc[b.val].clamping = false) : (dutyWrite b v s).mem = s.mem := by
  rw [dutyWrite_of_free hacc hfree, State.modMc_mem, written_mem]

end

end Sys2Proof.Machine

open Sys2Proof Sys2Proof.Machine in
/-- Settles O36: the outer result and the end of the clamp as exact next states, a write of MCx_DUTY3 as its stored fields and, while no clamp is
applied, the set committed. -/
theorem dutySetsAndClamp : Obligations.DutySetsAndClamp := by
  unfold Obligations.DutySetsAndClamp
  refine ⟨?captured, ?committed, ?clamped, ?ended, ?stopped, ?complete⟩
  case captured => exact fun s v hruns => (clockedOut_of_running hruns _).trans (congrArg _ (dLanded_setMem20 v (dAddr s) s))
  case committed =>
    intro s b v hruns hacc hfree
    have hmc := dutyWrite_mc hacc hfree
    refine ⟨dutyWrite b v s, clockedOut_of_running hruns _, dutyWrite_regs hacc hfree, ?_, ?_, ?_, fun hfirst => ?_,
      dutyWrite_mem hacc hfree⟩
    · exact (congrArg Mc.committed hmc).trans (dutyRegs_dutyWrite hacc hfree).symm
    · rw [hmc, setCommitted]
    · rw [hmc, setCommitted]
    · rw [hmc, setCommitted, if_neg hfirst]
  case clamped =>
    exact fun s b v hruns hacc hclamp => (clockedOut_of_running hruns _).trans (congrArg _ (dutyWrite_of_clamping hacc hclamp))
  case ended => exact fun s b hruns => clockedOut_of_running hruns _
  case stopped =>
    exact fun s hs => ⟨fun _ => clockedOut_of_stopped hs _, fun _ _ => clockedOut_of_stopped hs _, fun _ => clockedOut_of_stopped hs _⟩
  case complete =>
    exact ⟨fun s v => exec_next_pending (.dCapture v) s, fun s b v => exec_next_pending (.dutyCommit b v) s,
      fun s b => exec_next_pending (.clampEnd b) s⟩
end

section
/-!
SUPPORT. MODE_REQ 0b01 in SIXSTEP on a bridge that follows ANGA (R116, R304).
-/
namespace Sys2Proof.Machine

/-- Bridge B in SIXSTEP under FOLLOW: ANGA's SRC names its valid ABZ interface, ANGB's own SRC names none. -/
def followerSixstep : State :=
  (((State.reset.put (F.MC_STAT_MODE 1) modeSixstep).put (F.ANG_CTRL_FOLLOW 1) 1).put (F.ANG_CTRL_SRC 0) 2).put (F.POS_STAT_ABZVAL 0) 1

/-- A word for MCB_CTRL with EN 1 and DIRREQ for both directions; MODE_REQ 0b01 goes into it. -/
def enabledWord : Word := (F.MC_CTRL_DIRREQ 1).write ((F.MC_CTRL_EN 1).write 0 1) 3

/-- The return is not armed: MODE_REQ goes by the SRC of ANGB_CTRL itself (R304). -/
theorem mcCtrlWrite_followerSixstep_returnReq :
    (mcCtrlWrite 1 ((F.MC_CTRL_MODE_REQ 1).write enabledWord 1) followerSixstep).mc[1].returnReq = false := by
  decide

theorem exec_modeReqReturn {s : State} (hruns : coreStopped s = false) (b : Bridge) (v : Word) :
    exec (.modeReqReturn b v) s = .next (mcCtrlWrite b ((F.MC_CTRL_MODE_REQ b).write v 1) s) :=
  clockedOut_of_running hruns _

end Sys2Proof.Machine

open Sys2Proof Sys2Proof.Machine in
/-- Refutes O37: its clause on MODE_REQ 0b01 in SIXSTEP asks for a valid source in force (`sourceOf`), which under FOLLOW is ANGA's (R116), but the
return is armed only while the block's own ANGx_CTRL.SRC names a valid source (R304). -/
theorem not_motorModeRequests : ¬ Obligations.MotorModeRequests := by
  intro h
  obtain ⟨-, -, -, -, -, hreturn, -⟩ := h
  have hruns : coreStopped followerSixstep = false := by decide
  have hsource : sourceValid followerSixstep (sourceOf followerSixstep 1) = true := by decide
  have hexec := hreturn followerSixstep 1 enabledWord hruns (by decide) (by decide) hsource (by decide) (by decide)
  have hstate := Host.Outcome.next.inj ((exec_modeReqReturn hruns 1 enabledWord).symm.trans hexec)
  have harmed := congrArg (fun s : State => s.mc[1].returnReq) hstate
  exact absurd (mcCtrlWrite_followerSixstep_returnReq.symm.trans harmed) (by decide)
end

section
/-!
SUPPORT. Comparator reports (R300, R308), missed sectors (R303) and loss of synchronism (R305, R306, R312).
-/
namespace Sys2Proof.Machine

/-! ## What gate commands and reports to CONT leave of the MC blocks -/

@[simp] theorem State.countBit_mc (s : State) (f g : Fld) (i : Nat) : (s.countBit f g i).mc = s.mc :=
  ite_keeps (π := State.mc) rfl rfl

theorem modGateSw_mc (b : Bridge) (j : Switch) (f : Gate → Gate) (s : State) : (modGateSw b j f s).mc = s.mc := rfl

theorem restSwitch_mc (b : Bridge) (j : Switch) (s : State) : (restSwitch b j s).mc = s.mc :=
  ite_keeps (π := State.mc) rfl (ite_keeps (π := State.mc) (ite_keeps (π := State.mc) rfl rfl) rfl)

theorem startSwitch_mc (b : Bridge) (j : Switch) (s : State) : (startSwitch b j s).mc = s.mc :=
  ite_keeps (π := State.mc) rfl (ite_keeps (π := State.mc) rfl rfl)

theorem driveBridge_mc (b : Bridge) (s : State) : (driveBridge b s).mc = s.mc :=
  (foldl_keeps (π := State.mc) (fun s j => startSwitch_mc b j s) _ _).trans
    (foldl_keeps (π := State.mc) (fun s j => restSwitch_mc b j s) _ s)

theorem takeCommands_mc (b : Bridge) (cmd : Nat) (s : State) :
    (takeCommands b cmd s).mc = (noteEdges b (s.get (F.GD_GW_CMD b)) cmd s).mc := by
  unfold takeCommands
  dsimp only
  rw [driveBridge_mc]
  refine (foldl_keeps (π := State.mc) (fun t _ => ?_) _ _).trans (State.put_mc _ _ _)
  exact (State.countBit_mc _ _ _ _).trans (State.put_mc _ _ _)

theorem sendFrame_mc (ty : Nat) (l : List Byte) (s : State) : (sendFrame ty l s).mc = s.mc := by
  have hport : ∀ f e t, (sendOn ty f e t).mc = t.mc := fun f e t => ite_keeps (π := State.mc) rfl rfl
  rw [sendFrame, hport, hport, countSeq, State.modLines_mc]

theorem withdraw_mc (kind : Nat) (s : State) : (withdraw kind s).mc = s.mc := by
  refine ite_keeps (π := State.mc) rfl ?_
  rw [State.modCont_mc, sendNotice, sendTransfer, holdTransfer, State.modCont_mc, sendFrame_mc]

theorem degrade_mc (s : State) : (degrade s).mc = s.mc := ite_keeps (π := State.mc) rfl rfl

theorem State.setMemWord_mc (s : State) (a : Nat) (v : Word) : (s.setMemWord a v).mc = s.mc := by
  obtain ⟨m, hm⟩ := State.setBytes_eq s a (leBytes 4 v.toNat)
  rw [State.setMemWord, hm]

theorem joinedDrop_mc (s : State) : (joinedDrop s).mc = s.mc := by
  refine ite_keeps (π := State.mc) ?_ rfl
  rw [degrade_mc, State.modCont_mc, State.put_mc]
  split
  · exact State.setMemWord_mc s _ _
  · rfl

section
variable {β : Type} {φ : Mc → β} (hφ : ∀ m x y, φ { m with highTick := x, edgeTick := y } = φ m)
include hφ

/-- Of the bridge's own MC block an edge of the commands changes the ticks of the last edges alone. -/
theorem noteEdges_mc_kept (b : Bridge) (old cmd : Nat) (s : State) : φ (noteEdges b old cmd s).mc[b.val] = φ s.mc[b.val] := by
  rw [noteEdges, State.modMc_mc, upd_same, hφ]
  have hfold := foldl_keeps (π := State.mc) (f := fun s (j : Switch) =>
    if bitAt old j && !bitAt cmd j then modGateSw b j (fun g => { g with offTick := some s.tick }) s else s)
    (fun s j => ite_keeps (modGateSw_mc b j _ s) rfl) (List.finRange 6) s
  exact congrArg (fun v : Vector Mc 2 => φ v[b.val]) hfold

theorem followGates_mc_kept (b : Bridge) (s : State) : φ (followGates b s).mc[b.val] = φ s.mc[b.val] := by
  refine ite_keeps (π := fun s : State => φ s.mc[b.val]) rfl ?_
  rw [takeCommands_mc]
  exact noteEdges_mc_kept hφ b _ _ s

theorem requestShort_mc_kept (b : Bridge) (on : Bool) (s : State) :
    φ (requestShort b on s).mc[b.val] = φ { s.mc[b.val] with asReq := on } := by
  rw [requestShort, followGates_mc_kept hφ, State.modMc_mc, upd_same]

end

/-- The time is no part of what a block's own reactions reach. -/
theorem failoverFree_tick : FailoverFree State.tick :=
  { regs := fun _ _ => rfl, gate := fun _ _ => rfl, mc := fun _ _ _ => rfl, blocks := fun _ _ => rfl, ang := fun _ _ => rfl,
    mem := fun _ _ => rfl, cont := fun _ _ => rfl, lines := fun _ _ => rfl, ebp := fun _ _ => rfl }

/-! ## Comparator reports -/

/-- The comparators as MCx_COMP shows them. -/
def compShown (b : Bridge) (p l : Nat) (s : State) : State := (s.put (F.MC_COMP_PCOMP b) p).put (F.MC_COMP_LCODE b) l

@[simp] theorem mcMode_compShown (b : Bridge) (p l : Nat) (s : State) : mcMode (compShown b p l s) b = mcMode s b := by
  rw [mcMode, compShown, State.get_put_apart _ _ _ _, State.get_put_apart _ _ _ _, mcMode]

@[simp] theorem compShown_tick (b : Bridge) (p l : Nat) (s : State) : (compShown b p l s).tick = s.tick := rfl
@[simp] theorem compShown_mc (b : Bridge) (p l : Nat) (s : State) : (compShown b p l s).mc = s.mc := rfl
@[simp] theorem compShown_mem (b : Bridge) (p l : Nat) (s : State) : (compShown b p l s).mem = s.mem := rfl

theorem compShown_pcomp (b : Bridge) (p l : BitVec 3) (s : State) :
    (compShown b p.toNat l.toNat s).get (F.MC_COMP_PCOMP b) = p.toNat := by
  rw [compShown, State.get_put_apart _ _ _ _, State.get_put_same _ _ _ (Nat.le_of_ble_eq_true rfl)]
  exact Nat.mod_eq_of_lt p.isLt

theorem compShown_lcode (b : Bridge) (p : Nat) (l : BitVec 3) (s : State) :
    (compShown b p l.toNat s).get (F.MC_COMP_LCODE b) = l.toNat := by
  rw [compShown, State.get_put_same _ _ _ (Nat.le_of_ble_eq_true rfl)]
  exact Nat.mod_eq_of_lt l.isLt

theorem comparatorReport_of_unused {s : State} {b : Bridge}
    (hmode : mcMode s b ≠ modeSixstep ∧ mcMode s b ≠ modeListen ∧ mcMode s b ≠ modeCoast) (p l : Nat) :
    comparatorReport b p l s = compShown b p l s := by
  obtain ⟨hsix, hlisten, hcoast⟩ := hmode
  rw [← mcMode_compShown b p l s] at hsix hlisten hcoast
  exact (if_neg hsix).trans (if_neg fun h => h.elim hlisten fun h => hcoast h.1)

theorem comparatorReport_of_listen {s : State} {b : Bridge} (hmode : mcMode s b = modeListen) (p l : Nat) :
    comparatorReport b p l s = lineEstimate b l (compShown b p l s) := by
  have hshown : mcMode (compShown b p l s) b = modeListen := (mcMode_compShown b p l s).trans hmode
  have hsix : mcMode (compShown b p l s) b ≠ modeSixstep := by rw [hshown]; decide
  exact (if_neg hsix).trans (if_pos (.inl hshown))

/-- Every line code but 0 and 7 is a sector's (R307). -/
theorem sectorOfCode_isSome : ∀ l : BitVec 3, l ≠ 0 ∧ l ≠ 7 → (sectorOfCode l.toNat).isSome = true := by decide

/-- A line estimator that has seen its first code, of sector `sec`. -/
def firstCode (tick sec : Nat) (m : Mc) : Mc := { m with lastCode := some sec, codeTick := tick, codeChanges := 0, codeDir := 0 }

theorem lineEstimate_of_first {s : State} {b : Bridge} {l sec : Nat} (hsec : sectorOfCode l = some sec)
    (hfirst : s.mc[b.val].lastCode = none) : lineEstimate b l s = s.modMc b (firstCode s.tick sec) := by
  simp only [lineEstimate, hsec, hfirst]
  rfl

/-- The first line code in LISTEN (R308). -/
theorem comparatorReport_of_first {s : State} {b : Bridge} (hmode : mcMode s b = modeListen) {l sec : Nat}
    (hsec : sectorOfCode l = some sec) (hfirst : s.mc[b.val].lastCode = none) (p : Nat) :
    comparatorReport b p l s = (compShown b p l s).modMc b (firstCode s.tick sec) := by
  rw [comparatorReport_of_listen hmode, lineEstimate_of_first hsec (by rwa [compShown_mc]), compShown_tick]

/-! ## Missed sectors -/

/-- A sector without a crossing counted. -/
def missNoted (b : Bridge) (s : State) : State :=
  (s.countBit (F.MC_CNT_ZCMCNT b) (F.MC_CNT_OVF b) 2).modMc b (fun m => { m with zcMisses := m.zcMisses + 1 })

theorem butFor_missNoted (b : Bridge) (s : State) : ButFor [F.MC_CNT_ZCMCNT b, F.MC_CNT_OVF b] s (missNoted b s) :=
  ((ButFor.refl s).countBit (by simp) (by simp) 2).modMc b _

theorem missNoted_mc (b : Bridge) (s : State) :
    (missNoted b s).mc[b.val] = { s.mc[b.val] with zcMisses := s.mc[b.val].zcMisses + 1 } := by
  rw [missNoted, State.modMc_mc, upd_same, State.countBit_mc]

theorem missNoted_tick (b : Bridge) (s : State) : (missNoted b s).tick = s.tick := State.countBit_tick s _ _ 2

/-- A miss below ZCMISS in a row only counts; at ZCMISS it is a loss of synchronism (R305). -/
theorem sectorMiss_of_sixstep {s : State} {b : Bridge} (hmode : mcMode s b = modeSixstep) :
    sectorMiss b s =
      if s.get (F.MC_ZC_ZCMISS b) ≤ s.mc[b.val].zcMisses + 1 then lossOfSync b (missNoted b s) else missNoted b s := by
  have hzc : (missNoted b s).get (F.MC_ZC_ZCMISS b) = s.get (F.MC_ZC_ZCMISS b) := (butFor_missNoted b s).get _
  have hmiss : (missNoted b s).mc[b.val].zcMisses = s.mc[b.val].zcMisses + 1 := congrArg Mc.zcMisses (missNoted_mc b s)
  rw [← hzc, ← hmiss]
  exact if_pos hmode

/-! ## Loss of synchronism -/

/-- The losses of synchronism of the last second. -/
def recentLosses (s : State) (b : Bridge) : List Nat := s.mc[b.val].losTicks.filter (fun u => decide (s.tick < u + 200000000))

theorem recentLosses_missNoted (b : Bridge) (s : State) : recentLosses (missNoted b s) b = recentLosses s b := by
  rw [recentLosses, missNoted_mc, missNoted_tick, recentLosses]

/-- A loss of synchronism recorded and counted (R312). -/
def syncLossNoted (b : Bridge) (s : State) : State :=
  let t := (s.put (F.MC_STAT_LOS b) 1).countBit (F.MC_CNT_LOSCNT b) (F.MC_CNT_OVF b) 0
  t.modMc b (fun m => { m with losTicks := t.tick :: recentLosses s b })

theorem butFor_syncLossNoted (b : Bridge) (s : State) :
    ButFor [F.MC_STAT_LOS b, F.MC_CNT_LOSCNT b, F.MC_CNT_OVF b] s (syncLossNoted b s) :=
  (((ButFor.refl s).put (by simp) 1).countBit (by simp) (by simp) 0).modMc b _

theorem syncLossNoted_los (b : Bridge) (s : State) : (syncLossNoted b s).on (F.MC_STAT_LOS b) = true := by
  have hcounted : ButFor [F.MC_CNT_LOSCNT b, F.MC_CNT_OVF b] (s.put (F.MC_STAT_LOS b) 1) (syncLossNoted b s) :=
    ((ButFor.refl _).countBit (by simp) (by simp) 0).modMc b _
  rw [hcounted.on _, State.on_put_same _ _ _ (Nat.le_of_ble_eq_true rfl)]
  rfl

theorem syncLossNoted_losTicks (b : Bridge) (s : State) : (syncLossNoted b s).mc[b.val].losTicks = s.tick :: recentLosses s b := by
  rw [syncLossNoted, State.modMc_mc, upd_same, State.countBit_tick, State.put_tick]

theorem syncLossNoted_tick (b : Bridge) (s : State) : (syncLossNoted b s).tick = s.tick := State.countBit_tick (s.put (F.MC_STAT_LOS b) 1) _ _ 0

/-- COAST entered, before its active short is put (R306). -/
def coasting (b : Bridge) (s : State) : State :=
  let t := joinedDrop (setMode b modeCoast (clearEstimators b s))
  t.modMc b (fun m => { m with coastTick := t.tick })

theorem speedOf_congr {s t : State} {b : Bridge} (h : t.get (F.ANG_RATE_RATE b) = s.get (F.ANG_RATE_RATE b)) :
    speedOf t b = speedOf s b :=
  congrArg (fun n => (toSigned (F.ANG_RATE_RATE b).w n).natAbs) h

/-- A loss of synchronism is recorded first; the losses of the last second decide between OUT and COAST (R305, R306). -/
theorem lossOfSync_eq (b : Bridge) (s : State) :
    lossOfSync b s =
      if s.get (F.MC_WIN_LOSMAX b) ≤ (recentLosses s b).length then positionLost b (syncLossNoted b s)
      else requestShort b (decide (s.get (F.GD_ASTHR_ASTHR b) ≤ speedOf s b)) (coasting b (syncLossNoted b s)) := by
  have h := butFor_syncLossNoted b s
  have hrate : speedOf (syncLossNoted b s) b = speedOf s b := speedOf_congr (h.get (F.ANG_RATE_RATE b))
  rw [← hrate, ← h.get (F.MC_WIN_LOSMAX b), ← h.get (F.GD_ASTHR_ASTHR b)]
  rfl

/-! ## The way to COAST -/

theorem mcMode_setMode {m : Nat} (hm : m < 8) (b : Bridge) (s : State) : mcMode (setMode b m s) b = m := by
  rw [mcMode, setMode, State.get_put_apart _ _ _ _, State.get_put_same _ _ _ (Nat.le_of_ble_eq_true rfl)]
  exact Nat.mod_eq_of_lt hm

/-- What COAST with its active short changes once its mode is set. -/
theorem butFor_coasting_setMode (b : Bridge) (on : Bool) (s : State) :
    ButFor (withdrawFlds ++ gateFlds b) (setMode b modeCoast (clearEstimators b s)) (requestShort b on (coasting b s)) :=
  butFor_requestShort ((butFor_joinedDrop (.refl _) (by simp +contextual)).modMc b _) b (by simp +contextual) on

theorem butFor_coasting (b : Bridge) (on : Bool) (s : State) : ButFor (outFlds b) s (requestShort b on (coasting b s)) :=
  (butFor_setMode ((ButFor.refl s).modMc b _) b (fun _ => id) modeCoast).trans
    ((butFor_coasting_setMode b on s).mono (by simp +contextual [outFlds]))

theorem mcMode_coasting (b : Bridge) (on : Bool) (s : State) : mcMode (requestShort b on (coasting b s)) b = modeCoast := by
  have hset : mcMode (setMode b modeCoast (clearEstimators b s)) b = modeCoast := mcMode_setMode (by decide) b _
  exact ((butFor_coasting_setMode b on s).get (F.MC_STAT_MODE b)).trans hset

theorem coasting_mc (b : Bridge) (on : Bool) (s : State) :
    (requestShort b on (coasting b s)).mc[b.val].coastTick = s.tick ∧ (requestShort b on (coasting b s)).mc[b.val].asReq = on := by
  have htick : (joinedDrop (setMode b modeCoast (clearEstimators b s))).tick = s.tick := failoverFree_tick.joinedDrop _
  rw [requestShort_mc_kept (φ := Mc.coastTick) (fun _ _ _ => rfl), requestShort_mc_kept (φ := Mc.asReq) (fun _ _ _ => rfl),
    coasting, State.modMc_mc, upd_same]
  exact ⟨htick, rfl⟩

/-! ## The way to OUT with loss of position -/

theorem butFor_positionLost_mcOut (b : Bridge) (s : State) : ButFor withdrawFlds (mcOut b s) (positionLost b s) :=
  ButFor.ite (butFor_withdraw (.refl _) (fun _ => id) 1) (.refl _)

theorem mcMode_positionLost (b : Bridge) (s : State) : mcMode (positionLost b s) b = modeOut :=
  (mcMode_of_butFor (butFor_positionLost_mcOut b s) (by decide) b).trans (mcMode_mcOut b s)

theorem positionLost_los (b : Bridge) (s : State) : (positionLost b s).on (F.MC_STAT_LOS b) = s.on (F.MC_STAT_LOS b) :=
  ((butFor_positionLost_mcOut b s).on _).trans ((butFor_mcOut (.refl s) b fun _ => id).on _)

theorem mcOut_losTicks (b : Bridge) (s : State) : (mcOut b s).mc[b.val].losTicks = s.mc[b.val].losTicks := by
  rw [mcOut, requestShort_mc_kept (φ := Mc.losTicks) (fun _ _ _ => rfl), joinedDrop_mc, setMode, State.put_mc, State.put_mc,
    clearEstimators, State.modMc_mc, upd_same]

theorem positionLost_losTicks (b : Bridge) (s : State) : (positionLost b s).mc[b.val].losTicks = s.mc[b.val].losTicks := by
  have hreport : (positionLost b s).mc = (mcOut b s).mc := ite_keeps (π := State.mc) (withdraw_mc 1 _) rfl
  rw [hreport, mcOut_losTicks]

/-! ## The commands -/

section
variable {s : State} {b : Bridge} (hruns : coreStopped s = false)
include hruns

theorem exec_comparatorReport (p l : BitVec 3) : exec (.comparatorReport b p l) s = .next (comparatorReport b p.toNat l.toNat s) :=
  clockedOut_of_running hruns _

theorem exec_zcWindowMiss_of_counted (hmode : mcMode s b = modeSixstep) (hmiss : s.mc[b.val].zcMisses + 1 < s.get (F.MC_ZC_ZCMISS b)) :
    exec (.zcWindowMiss b) s = .next (missNoted b s) :=
  (clockedOut_of_running hruns _).trans (congrArg _ ((sectorMiss_of_sixstep hmode).trans (if_neg (Nat.not_le.mpr hmiss))))

theorem exec_zcWindowMiss_of_lost (hmode : mcMode s b = modeSixstep) (hmiss : s.get (F.MC_ZC_ZCMISS b) ≤ s.mc[b.val].zcMisses + 1) :
    exec (.zcWindowMiss b) s = .next (lossOfSync b (missNoted b s)) :=
  (clockedOut_of_running hruns _).trans (congrArg _ ((sectorMiss_of_sixstep hmode).trans (if_pos hmiss)))

end

/-- A loss that the misses bring is judged by what the registers held before the last of them. -/
theorem lossOfSync_missNoted (b : Bridge) (s : State) :
    lossOfSync b (missNoted b s) =
      if s.get (F.MC_WIN_LOSMAX b) ≤ (recentLosses s b).length then positionLost b (syncLossNoted b (missNoted b s))
      else requestShort b (decide (s.get (F.GD_ASTHR_ASTHR b) ≤ speedOf s b)) (coasting b (syncLossNoted b (missNoted b s))) := by
  have h := butFor_missNoted b s
  have hrate : speedOf (missNoted b s) b = speedOf s b := speedOf_congr (h.get (F.ANG_RATE_RATE b))
  rw [lossOfSync_eq, recentLosses_missNoted, hrate, h.get (F.MC_WIN_LOSMAX b), h.get (F.GD_ASTHR_ASTHR b)]

end Sys2Proof.Machine

open Sys2Proof Sys2Proof.Machine in
/-- Settles O38: a report is shown and goes to the line estimator in LISTEN; a missed sector is counted, and at ZCMISS the loss is recorded
(`syncLossNoted`) before the block goes to COAST or to OUT. -/
theorem comparatorsAndSynchronism : Obligations.ComparatorsAndSynchronism := by
  unfold Obligations.ComparatorsAndSynchronism
  refine ⟨?unused, ?listen, ?counted, ?coast, ?out, ?stopped⟩
  case unused =>
    intro s b p l hruns hmode
    rw [exec_comparatorReport hruns, comparatorReport_of_unused hmode, compShown]
  case listen =>
    intro s b p l hruns hmode hcode hfirst
    obtain ⟨sec, hsec⟩ := Option.isSome_iff_exists.mp (sectorOfCode_isSome l hcode)
    have hmc : ((compShown b p.toNat l.toNat s).modMc b (firstCode s.tick sec)).mc[b.val] = firstCode s.tick sec s.mc[b.val] := by
      rw [State.modMc_mc, upd_same, compShown_mc]
    refine ⟨_, (exec_comparatorReport hruns p l).trans (congrArg _ (comparatorReport_of_first hmode hsec hfirst p.toNat)),
      ?_, ?_, ?_, ?_, ?_, ?_⟩
    · rw [hmc, hsec, firstCode]
    · rw [hmc, firstCode]
    · rw [State.modMc_get, compShown_pcomp]
    · rw [State.modMc_get, compShown_lcode]
    · rw [mcMode, State.modMc_get, ← mcMode, mcMode_compShown, hmode]
    · rw [State.modMc_mem, compShown_mem]
  case counted => exact fun s b hruns hmode hmiss => exec_zcWindowMiss_of_counted hruns hmode hmiss
  case coast =>
    intro s b hruns hmode hmiss hfew
    have hrecent : ¬ s.get (F.MC_WIN_LOSMAX b) ≤ (recentLosses s b).length :=
      Nat.not_le.mpr (lt_of_le_of_lt (List.length_filter_le _ _) hfew)
    have hlost := (lossOfSync_missNoted b s).trans (if_neg hrecent)
    obtain ⟨hcoast, hshort⟩ := coasting_mc b (decide (s.get (F.GD_ASTHR_ASTHR b) ≤ speedOf s b)) (syncLossNoted b (missNoted b s))
    refine ⟨_, (exec_zcWindowMiss_of_lost hruns hmode hmiss).trans (congrArg _ hlost), mcMode_coasting b _ _, ?_, ?_, hshort⟩
    · exact ((butFor_coasting b _ _).on _).trans (syncLossNoted_los b _)
    · rw [hcoast, syncLossNoted_tick, missNoted_tick]
  case out =>
    intro s b hruns hmode hmiss hmany
    have hlost := (lossOfSync_missNoted b s).trans (if_pos hmany)
    refine ⟨_, (exec_zcWindowMiss_of_lost hruns hmode hmiss).trans (congrArg _ hlost), mcMode_positionLost b _, ?_, ?_⟩
    · rw [positionLost_los, syncLossNoted_los]
    · rw [positionLost_losTicks, syncLossNoted_losTicks, missNoted_tick, recentLosses_missNoted]
      rfl
  case stopped => exact fun s hs => ⟨fun _ _ _ => clockedOut_of_stopped hs _, fun _ => clockedOut_of_stopped hs _⟩
end

section
-- The proofs are elaborated one after another: beside each other they would hold more memory than the check of the whole text has left.
set_option Elab.async false
/-!
SUPPORT. Gate transitions (R327 to R338, R345): what a switch's command leaves of its bridge, and what an edge, an admission, a phase's end and
a slope time-out make of a switch.
-/
namespace Sys2Proof.Machine

/-! ## One switch of a bridge -/

theorem upd_of_fixed {α : Type} {n : Nat} {v : Vector α n} {i : Fin n} {f : α → α} (h : f v[i.val] = v[i.val]) : upd v i f = v := by
  rw [upd, h, Vector.set_getElem_self]

section
variable (b : Bridge) (j : Switch) (f : Gate → Gate) (s : State)

theorem modGateSw_same : (modGateSw b j f s).gate[b.val].sw[j.val] = f s.gate[b.val].sw[j.val] :=
  (congrArg (fun g : GateBridge => g.sw[j.val]) (upd_same s.gate b _)).trans (upd_same _ j f)

theorem modGateSw_other {i : Switch} (h : i ≠ j) : (modGateSw b j f s).gate[b.val].sw[i.val] = s.gate[b.val].sw[i.val] :=
  (congrArg (fun g : GateBridge => g.sw[i.val]) (upd_same s.gate b _)).trans (upd_other _ f (Ne.symm h))

/-- No switch reaches the hold after a loss of the link. -/
theorem modGateSw_linkHold (c : Bridge) : (modGateSw b j f s).gate[c.val].linkHold = s.gate[c.val].linkHold := by
  by_cases hb : b = c
  · subst hb
    exact (congrArg GateBridge.linkHold (upd_same s.gate b fun g => { g with sw := upd g.sw j f })).trans rfl
  · exact congrArg GateBridge.linkHold (upd_other s.gate _ hb)

@[simp] theorem modGateSw_get (g : Fld) : (modGateSw b j f s).get g = s.get g := rfl
@[simp] theorem modGateSw_bit (g : Fld) (i : Nat) : (modGateSw b j f s).bit g i = s.bit g i := rfl

/-- A change that leaves the switch as it is changes nothing. -/
theorem modGateSw_of_fixed {b : Bridge} {j : Switch} {f : Gate → Gate} {s : State} (h : f s.gate[b.val].sw[j.val] = s.gate[b.val].sw[j.val]) :
    modGateSw b j f s = s :=
  congrArg (fun g => { s with gate := g }) (upd_of_fixed (congrArg (fun w => { s.gate[b.val] with sw := w }) (upd_of_fixed h)))

end

section
variable (b : Bridge) (j : Switch) (on : Bool) (s : State)

/-- ON of a switch shown. -/
theorem showOn_bit_same : (showOn b j on s).bit (F.GD_GW_ON b) j = on := State.bit_putBit_same _ on j.isLt (Nat.le_of_ble_eq_true rfl)

theorem showOn_bit_other {i : Switch} (h : i ≠ j) : (showOn b j on s).bit (F.GD_GW_ON b) i = s.bit (F.GD_GW_ON b) i :=
  (State.bit_putBit_other _ on (Fin.val_ne_of_ne h) i.isLt (Nat.le_of_ble_eq_true rfl)).trans
    (ite_keeps (π := fun t : State => t.bit (F.GD_GW_ON b) i) rfl rfl)

theorem showOn_rd_other {a : Nat} (h : a ≠ (F.GD_GW_ON b).addr) : (showOn b j on s).rd a = s.rd a :=
  (State.rd_put_other _ (F.GD_GW_ON b) _ h).trans (ite_keeps (π := fun t : State => t.rd a) rfl rfl)

theorem showOn_sw_other {i : Switch} (h : i ≠ j) : (showOn b j on s).gate[b.val].sw[i.val] = s.gate[b.val].sw[i.val] :=
  ite_keeps (π := fun t : State => t.gate[b.val].sw[i.val]) (modGateSw_other b j _ s h) rfl

/-- Of a switch that shows ON or no longer, only the tick of its fall is set. -/
theorem showOn_sw_same : (showOn b j on s).gate[b.val].sw[j.val] =
    { s.gate[b.val].sw[j.val] with belowTick := (showOn b j on s).gate[b.val].sw[j.val].belowTick } := by
  rw [showOn, State.putBit, State.put_gate, State.when]
  split
  · rw [modGateSw_same]
  · rfl

theorem showOn_linkHold (c : Bridge) : (showOn b j on s).gate[c.val].linkHold = s.gate[c.val].linkHold :=
  ite_keeps (π := fun t : State => t.gate[c.val].linkHold) (modGateSw_linkHold b j _ s c) rfl

/-- What ON shows is the only field that changes. -/
theorem butFor_showOn_self : ButFor [F.GD_GW_ON b] s (showOn b j on s) :=
  (ButFor.when (.refl s) (butFor_modGateSw (.refl s) b j _) _).putBit (.head _) _ _

end

/-- What a switch is asked to be does not depend on what a gate shows. -/
theorem wanted_showOn (b : Bridge) (i j : Switch) (on : Bool) (s : State) : wanted (showOn b i on s) b j = wanted s b j := by
  have hon := butFor_showOn_self b i on s
  simp only [wanted, legState, heldLow, bridgeUsed, linkLossState, shortBits, State.on, State.bit, hon.driver, showOn_linkHold,
    hon.get F.SEAL_STRAP_WORD, hon.get (F.GD_STAT_BOUT b), hon.get (F.GD_STAT_LEGOUT b), hon.get (F.GD_CTRL_LLSTATE b),
    hon.get (F.GD_CTRL_EN b), hon.get (F.GD_CTRL_LEGEN b), hon.get F.VBUS_STAT_OV2, hon.get (F.GD_STAT_ASEL b),
    hon.get (F.GD_GW_CMD b), hon.get (F.GD_CTRL_ASSIDE b)]
  rfl

/-- Of the registers a bridge's switches set only what they show. -/
theorem butFor_driveBridge_self (b : Bridge) (s : State) : ButFor [F.GD_GW_ON b, F.GD_STAT_ASACT b] s (driveBridge b s) := by
  have hrest : ∀ (t : State) (j : Switch), ButFor [F.GD_GW_ON b, F.GD_STAT_ASACT b] s t →
      ButFor [F.GD_GW_ON b, F.GD_STAT_ASACT b] s (restSwitch b j t) := fun t j ht =>
    ButFor.ite ht (butFor_modGateSw (ht.when (ht.trans ((butFor_showOn_self b j true t).mono (by simp))) _) b j _)
  exact (ButFor.foldl (fun _ j ht => butFor_startSwitch ht b j) _ (ButFor.foldl hrest _ (.refl s))).putB (.tail _ (.head _)) _

/-! ## Legs with both lines on (R338) -/

theorem oppositeSw_oppositeSw : ∀ j : Switch, oppositeSw (oppositeSw j) = j := by decide
theorem oppositeSw_ne : ∀ j : Switch, oppositeSw j ≠ j := by decide
theorem legFin_oppositeSw : ∀ j : Switch, legFin (oppositeSw j) = legFin j := by decide

theorem withBit_of_clear {n i : Nat} (h : bitAt n i = false) : withBit n i true = n + 2 ^ i := by
  simp [withBit, h]

theorem withBit_lt {n i w : Nat} (hn : n < 2 ^ w) (hi : i < w) (v : Bool) : withBit n i v < 2 ^ w := by
  refine Nat.lt_pow_two_of_testBit _ fun m hm => ?_
  have hne : m ≠ i := by omega
  rw [← bitAt_eq_testBit, bitAt_withBit_other v hne, bitAt_eq_testBit]
  exact Nat.testBit_lt_two_pow (lt_of_lt_of_le hn (Nat.pow_le_pow_right (by decide) hm))

/-- While both lines of its leg are on a switch that follows its commands is asked to be off. -/
theorem wanted_of_met {t : State} {b : Bridge} {j : Switch} (hleg : legState t b (legFin j) = .commands)
    (hopp : t.bit (F.GD_GW_CMD b) (oppositeSw j) = true) : wanted t b j = false := by
  simp [wanted, hleg, hopp]

/-! ## An edge of a command line (R327, R332, R338) -/

section
variable {b : Bridge} {j : Switch} {on : Bool} {s : State} (hstray : s.gate[b.val].sw[j.val].stray = false)
include hstray

/-- An edge to the level that the MC block commands is taken. -/
theorem commandEdge_of_own (hown : bitAt (lineCommands s b) j = on) :
    commandEdge b j on s = takeCommands b (withBit (s.get (F.GD_GW_CMD b)) j on) s := by
  have hsame : modGateSw b j (fun g => { g with stray := false }) s = s := modGateSw_of_fixed (by rw [← hstray])
  cases on <;> simp [commandEdge, State.when, hsame, hown]

/-- Another edge, but one that comes on beside the other line of its leg, is none of MC's. -/
theorem commandEdge_of_other (hother : bitAt (lineCommands s b) j ≠ on)
    (hfree : on = false ∨ s.bit (F.GD_GW_CMD b) (oppositeSw j) = false) : commandEdge b j on s = s := by
  have hsame : modGateSw b j (fun g => { g with stray := false }) s = s := modGateSw_of_fixed (by rw [← hstray])
  obtain rfl | hopp := hfree
  · simp [commandEdge, State.when, hsame, hother]
  · cases on <;> simp [commandEdge, State.when, hsame, hother, hopp]

end

/-- A line that comes on beside the other of its leg is taken, be it the MC block's own or disturbed. -/
theorem commandEdge_of_met {b : Bridge} {j : Switch} {s : State} (hopp : s.bit (F.GD_GW_CMD b) (oppositeSw j) = true) :
    ∃ u, ButFor [] s u ∧ commandEdge b j true s = takeCommands b (withBit (s.get (F.GD_GW_CMD b)) j true) u := by
  cases hown : bitAt (lineCommands s b) j with
  | true => exact ⟨s, .refl s, by simp [commandEdge, State.when, hown]⟩
  | false =>
    exact ⟨modGateSw b j (fun g => { g with stray := true }) s, butFor_modGateSw (.refl s) b j _,
      by simp [commandEdge, State.when, hown, hopp]⟩

/-! ## An admission (R334, R337) -/

/-- A turn-on held back that is admitted: in native mode the opposite gate has fallen. -/
theorem watchAdmit_of_admitted {b : Bridge} {j : Switch} {s : State} (hheld : s.gate[b.val].sw[j.val].held = true)
    (hwanted : wanted s b j = true) (hadmits : s.on (F.GD_CTRL_ILMODE b) = false ∨ admits s b j = true) :
    watchAdmit b j s = modGateSw b j Gate.turnOn (s.when (!s.on (F.GD_CTRL_ILMODE b)) (showOn b (oppositeSw j) false)) := by
  cases hmode : s.on (F.GD_CTRL_ILMODE b) with
  | true =>
    have hadm : admits s b j = true := hadmits.resolve_left (by rw [hmode]; decide)
    simp [watchAdmit, State.when, hmode, hheld, hwanted, hadm]
  | false =>
    have hheld' : (showOn b (oppositeSw j) false s).gate[b.val].sw[j.val].held = true := by
      rw [showOn_sw_other b _ false s (oppositeSw_ne j).symm, hheld]
    simp [watchAdmit, State.when, hmode, hheld', hwanted, wanted_showOn]

/-! ## The end of a phase (R328 to R331, R346) -/

/-- A switch that enters a phase; the sink current of a short ends with its turn-off. -/
def Gate.enter (p : GatePhase) (g : Gate) : Gate := { g with phase := p, shortOff := g.shortOff && p != .offHold }

/-- A phase entered, with the gate's level shown where it crosses VGS_OFF. -/
def phaseEntered (b : Bridge) (j : Switch) (p : GatePhase) (crosses on : Bool) (s : State) : State :=
  modGateSw b j (Gate.enter p) (s.when crosses (showOn b j on))

/-- Only the switch, what it shows and the tick of its fall change where a phase is entered. -/
theorem phaseEntered_frame (b : Bridge) (j : Switch) (p : GatePhase) (crosses on : Bool) (s : State) :
    (∀ i : Switch, i ≠ j → (phaseEntered b j p crosses on s).gate[b.val].sw[i.val] = s.gate[b.val].sw[i.val] ∧
      (phaseEntered b j p crosses on s).bit (F.GD_GW_ON b) i = s.bit (F.GD_GW_ON b) i) ∧
      (∀ a, a ≠ (F.GD_GW_ON b).addr → (phaseEntered b j p crosses on s).rd a = s.rd a) ∧
      (phaseEntered b j p crosses on s).mem = s.mem := by
  refine ⟨fun i hi => ⟨(modGateSw_other b j _ _ hi).trans ?_, ?_⟩, fun a ha => ?_, ?_⟩
  · exact ite_keeps (π := fun t : State => t.gate[b.val].sw[i.val]) (showOn_sw_other b j on s hi) rfl
  · exact ite_keeps (π := fun t : State => t.bit (F.GD_GW_ON b) i) (showOn_bit_other b j on s hi) rfl
  · exact ite_keeps (π := fun t : State => t.rd a) (showOn_rd_other b j on s ha) rfl
  · exact ite_keeps (π := State.mem) (gateFree_mem.showOn b j on s) rfl

/-- What the end of a phase answers where a phase is entered. -/
theorem gatePhaseEnd_next {b : Bridge} {j : Switch} {p : GatePhase} {crosses on : Bool} {s : State}
    (hend : phaseEnd b j s = phaseEntered b j p crosses on s) :
    ∃ t, exec (.gatePhaseEnd b j) s = .next t ∧ t.gate[b.val].sw[j.val].phase = p ∧ (crosses = true → t.bit (F.GD_GW_ON b) j = on) ∧
      (∀ i : Switch, i ≠ j → t.gate[b.val].sw[i.val] = s.gate[b.val].sw[i.val] ∧ t.bit (F.GD_GW_ON b) i = s.bit (F.GD_GW_ON b) i) ∧
      (∀ a, a ≠ (F.GD_GW_ON b).addr → t.rd a = s.rd a) ∧ t.mem = s.mem := by
  refine ⟨_, congrArg Host.Outcome.next hend, congrArg Gate.phase (modGateSw_same b j _ _), fun hcross => ?_,
    phaseEntered_frame b j p crosses on s⟩
  subst hcross
  exact showOn_bit_same b j on s

section
variable {b : Bridge} {j : Switch} {s : State}

theorem phaseEnd_of_preCharge (h : s.gate[b.val].sw[j.val].phase = .preCharge) :
    phaseEnd b j s = phaseEntered b j .slopeOn (aboveOff s b (s.get (F.GD_PROFON_PREON b))) true s := by
  rw [phaseEnd, h]; rfl

theorem phaseEnd_of_slopeOn (h : s.gate[b.val].sw[j.val].phase = .slopeOn) :
    phaseEnd b j s = phaseEntered b j .onHold (aboveOff s b (s.get (F.GD_PROFON_PLXON b))) true s := by
  rw [phaseEnd, h]; rfl

/-- A pre-discharge at the sink current of a short goes on to VGS_OFF and ends in the hold phase (R346). -/
theorem phaseEnd_of_preDischarge (h : s.gate[b.val].sw[j.val].phase = .preDischarge) :
    phaseEnd b j s = phaseEntered b j (if s.gate[b.val].sw[j.val].shortOff then .offHold else .slopeOff)
      (s.gate[b.val].sw[j.val].shortOff || !aboveOff s b (s.get (F.GD_PROFOFF_PREOFF b))) false s := by
  rw [phaseEnd, h]
  cases s.gate[b.val].sw[j.val].shortOff <;> cases aboveOff s b (s.get (F.GD_PROFOFF_PREOFF b)) <;> rfl

theorem phaseEnd_of_slopeOff (h : s.gate[b.val].sw[j.val].phase = .slopeOff) :
    phaseEnd b j s = phaseEntered b j .offHold (!aboveOff s b (s.get (F.GD_PROFOFF_PLXOFF b))) false s := by
  rw [phaseEnd, h]
  cases aboveOff s b (s.get (F.GD_PROFOFF_PLXOFF b)) <;> rfl

theorem phaseEnd_of_hold (h : s.gate[b.val].sw[j.val].phase = .onHold ∨ s.gate[b.val].sw[j.val].phase = .offHold) : phaseEnd b j s = s := by
  obtain h | h := h <;> rw [phaseEnd, h]

end

/-! ## A slope time-out (R331) -/

/-- The hold phase entered, and the time-out flagged and counted. -/
def slopeNoted (b : Bridge) (j : Switch) (p : GatePhase) (s : State) : State :=
  ((modGateSw b j (fun g => { g with phase := p }) s).put (F.GD_STAT_SLOPETO b) 1).countBit (F.GD_CNT1_SLTOCNT b) (F.GD_CNT1_OVF b) 0

theorem slopeOver_of_slopeOn {b : Bridge} {j : Switch} {s : State} (h : s.gate[b.val].sw[j.val].phase = .slopeOn) :
    slopeOver b j s = slopeNoted b j .onHold (s.when true (showOn b j true)) := by
  rw [slopeOver, h]; rfl

theorem slopeOver_of_slopeOff {b : Bridge} {j : Switch} {s : State} (h : s.gate[b.val].sw[j.val].phase = .slopeOff) :
    slopeOver b j s = slopeNoted b j .offHold (s.when false (showOn b j true)) := by
  rw [slopeOver, h]; rfl

/-- The registers that hold the causes of leg faults are apart from what a time-out changes. -/
theorem legfltAddr_ne : ∀ (b : Bridge) (k : Fin 3), (F.GD_LEGFLT_HSCH b k).addr ≠ (F.GD_GW_ON b).addr ∧
    (F.GD_LEGFLT_HSCH b k).addr ≠ (F.GD_STAT_SLOPETO b).addr ∧ (F.GD_LEGFLT_HSCH b k).addr ≠ (F.GD_CNT1_SLTOCNT b).addr ∧
    (F.GD_LEGFLT_HSCH b k).addr ≠ (F.GD_CNT1_OVF b).addr := by decide

/-- What a slope time-out answers: the hold phase, the flag and the count; no leg fault. -/
theorem slopeTimeout_next {b : Bridge} {j : Switch} {p : GatePhase} {shows : Bool} {s : State}
    (hover : slopeOver b j s = slopeNoted b j p (s.when shows (showOn b j true))) :
    ∃ t, exec (.slopeTimeout b j) s = .next t ∧ t.gate[b.val].sw[j.val].phase = p ∧ t.on (F.GD_STAT_SLOPETO b) = true ∧
      (s.get (F.GD_CNT1_SLTOCNT b) < 255 → t.get (F.GD_CNT1_SLTOCNT b) = s.get (F.GD_CNT1_SLTOCNT b) + 1) ∧
      t.get (F.GD_STAT_LEGOUT b) = s.get (F.GD_STAT_LEGOUT b) ∧
      ∀ k : Fin 3, t.rd (F.GD_LEGFLT_HSCH b k).addr = s.rd (F.GD_LEGFLT_HSCH b k).addr := by
  have hshown : ButFor [F.GD_GW_ON b] s (s.when shows (showOn b j true)) := ButFor.when (.refl s) (butFor_showOn_self b j true s) _
  generalize hv : s.when shows (showOn b j true) = v at hover hshown
  have hflag : ButFor [F.GD_STAT_SLOPETO b] v ((modGateSw b j (fun g => { g with phase := p }) v).put (F.GD_STAT_SLOPETO b) 1) :=
    (butFor_modGateSw (.refl v) b j _).put (.head _) 1
  have hcount : ButFor [F.GD_CNT1_SLTOCNT b, F.GD_CNT1_OVF b]
      ((modGateSw b j (fun g => { g with phase := p }) v).put (F.GD_STAT_SLOPETO b) 1) (slopeNoted b j p v) :=
    (ButFor.refl _).countBit (.head _) (.tail _ (.head _)) 0
  have hbefore := (hflag.get (F.GD_CNT1_SLTOCNT b)).trans (hshown.get (F.GD_CNT1_SLTOCNT b))
  refine ⟨_, congrArg Host.Outcome.next hover, ?phase, ?flag, fun hlt => ?count, ?latches, fun k => ?causes⟩
  case phase =>
    have hphase : ∀ t : State, t.gate = (modGateSw b j (fun g => { g with phase := p }) v).gate → t.gate[b.val].sw[j.val].phase = p :=
      fun t ht => by rw [ht, modGateSw_same]
    exact hphase _ (ite_keeps (π := State.gate) rfl rfl)
  case flag =>
    rw [hcount.on (F.GD_STAT_SLOPETO b), State.on_put_same _ _ _ (Nat.le_of_ble_eq_true rfl)]
    rfl
  case count =>
    exact (State.get_countBit_of_below (Nat.le_of_ble_eq_true rfl) (by rw [hbefore]; exact Nat.add_lt_add_right hlt 1)).trans
      (congrArg (· + 1) hbefore)
  case latches => rw [hcount.get (F.GD_STAT_LEGOUT b), hflag.get (F.GD_STAT_LEGOUT b), hshown.get (F.GD_STAT_LEGOUT b)]
  case causes =>
    obtain ⟨hon, hstat, hcnt, hovf⟩ := legfltAddr_ne b k
    have hkept : v.rd (F.GD_LEGFLT_HSCH b k).addr = s.rd (F.GD_LEGFLT_HSCH b k).addr :=
      hv ▸ ite_keeps (π := fun t : State => t.rd (F.GD_LEGFLT_HSCH b k).addr) (showOn_rd_other b j true s hon) rfl
    exact (State.countBit_rd_other _ _ hcnt hovf).trans ((State.rd_put_other _ _ _ hstat).trans hkept)

/-! ## Lines that meet -/

/-- Whether both lines of leg `k` are on. -/
def bothOn (c k : Nat) : Bool := bitAt c k && bitAt c (k + 3)

/-- The legs whose two lines come on together. -/
def crossLegs (old cmd : Nat) : List Nat := (List.range 3).filter (fun k => bothOn cmd k && !bothOn old k)

/-- New levels of the command lines, shown in CMD. -/
def commandsShown (b : Bridge) (cmd : Nat) (s : State) : State := (noteEdges b (s.get (F.GD_GW_CMD b)) cmd s).put (F.GD_GW_CMD b) cmd

/-- A leg with both lines on flagged and counted. -/
def crossNoted (b : Bridge) (s : State) : State := (s.put (F.GD_STAT_XON b) 1).countBit (F.GD_CNT0_XONCNT b) (F.GD_CNT0_OVF b) 2

theorem takeCommands_eq (b : Bridge) (cmd : Nat) (s : State) :
    takeCommands b cmd s =
      driveBridge b ((crossLegs (s.get (F.GD_GW_CMD b)) cmd).foldl (fun t _ => crossNoted b t) (commandsShown b cmd s)) := rfl

theorem crossLegs_of_apart {cmd : Nat} (h : ∀ k < 3, bothOn cmd k = false) (old : Nat) : crossLegs old cmd = [] := by
  refine List.filter_eq_nil_iff.mpr fun k hk => ?_
  rw [h k (List.mem_range.mp hk), Bool.false_and]
  exact Bool.false_ne_true

theorem takeCommands_of_apart {cmd : Nat} (h : ∀ k < 3, bothOn cmd k = false) (b : Bridge) (s : State) :
    takeCommands b cmd s = driveBridge b (commandsShown b cmd s) := by
  rw [takeCommands_eq, crossLegs_of_apart h, List.foldl_nil]

/-- The two lines of a switch's leg. -/
theorem bothOn_legOf (c : Nat) (j : Switch) : bothOn c (legOf j) = (bitAt c j && bitAt c (oppositeSw j)) := by
  have hsides : ∀ j : Switch, legOf j = j.val ∧ legOf j + 3 = (oppositeSw j).val ∨
      legOf j = (oppositeSw j).val ∧ legOf j + 3 = j.val := by decide
  obtain ⟨hlow, hhigh⟩ | ⟨hlow, hhigh⟩ := hsides j
  · exact congrArg₂ (· && ·) (congrArg (bitAt c) hlow) (congrArg (bitAt c) hhigh)
  · exact (congrArg₂ (· && ·) (congrArg (bitAt c) hlow) (congrArg (bitAt c) hhigh)).trans (Bool.and_comm _ _)

/-- A line that comes on beside the other of its leg makes that leg the only one that meets. -/
theorem crossLegs_of_met {old : Nat} {j : Switch} (hoff : bitAt old j = false) (hopp : bitAt old (oppositeSw j) = true) :
    crossLegs old (withBit old j true) = [legOf j] := by
  have honly : ∀ k ∈ List.range 3, (bothOn (withBit old j true) k && !bothOn old k) = (k == legOf j) := by
    intro k hk
    have hk3 := List.mem_range.mp hk
    by_cases hleg : k = legOf j
    · have hne : ((oppositeSw j : Switch) : Nat) ≠ j := Fin.val_ne_of_ne (oppositeSw_ne j)
      rw [hleg, bothOn_legOf, bothOn_legOf, bitAt_withBit_same, bitAt_withBit_other true hne, hoff, hopp, beq_self_eq_true]
      rfl
    · have hother : ∀ j : Switch, ∀ k < 3, k ≠ legOf j → k ≠ j.val ∧ k + 3 ≠ j.val := by decide
      obtain ⟨hlow, hhigh⟩ := hother j k hk3 hleg
      have hsame : bothOn (withBit old j true) k = bothOn old k :=
        congrArg₂ (· && ·) (bitAt_withBit_other true hlow) (bitAt_withBit_other true hhigh)
      rw [hsame, Bool.and_not_self, beq_false_of_ne hleg]
  exact (List.filter_congr honly).trans ((by decide : ∀ j : Switch, (List.range 3).filter (fun k => k == legOf j) = [legOf j]) j)

theorem butFor_commandsShown (b : Bridge) (cmd : Nat) (s : State) : ButFor [F.GD_GW_CMD b] s (commandsShown b cmd s) :=
  (butFor_noteEdges (.refl s) b _ cmd).put (.head _) _

theorem commandsShown_cmd (b : Bridge) {cmd : Nat} (h : cmd < 2 ^ 6) (s : State) : (commandsShown b cmd s).get (F.GD_GW_CMD b) = cmd :=
  (State.get_put_same _ (F.GD_GW_CMD b) cmd (Nat.le_of_ble_eq_true rfl)).trans (Nat.mod_eq_of_lt h)

theorem butFor_crossNoted (b : Bridge) (s : State) :
    ButFor [F.GD_STAT_XON b, F.GD_CNT0_XONCNT b, F.GD_CNT0_OVF b] s (crossNoted b s) :=
  ((ButFor.refl s).put (.head _) 1).countBit (.tail _ (.head _)) (.tail _ (.tail _ (.head _))) 2

theorem crossNoted_xon (b : Bridge) (s : State) : (crossNoted b s).on (F.GD_STAT_XON b) = true := by
  have hcount : ButFor [F.GD_CNT0_XONCNT b, F.GD_CNT0_OVF b] (s.put (F.GD_STAT_XON b) 1) (crossNoted b s) :=
    (ButFor.refl _).countBit (.head _) (.tail _ (.head _)) 2
  rw [hcount.on (F.GD_STAT_XON b), State.on_put_same _ _ _ (Nat.le_of_ble_eq_true rfl)]
  rfl

theorem crossNoted_count {b : Bridge} {s : State} (h : s.get (F.GD_CNT0_XONCNT b) < 255) :
    (crossNoted b s).get (F.GD_CNT0_XONCNT b) = s.get (F.GD_CNT0_XONCNT b) + 1 := by
  have hput : (s.put (F.GD_STAT_XON b) 1).get (F.GD_CNT0_XONCNT b) = s.get (F.GD_CNT0_XONCNT b) := State.get_put_apart _ _ _ _
  exact (State.get_countBit_of_below (Nat.le_of_ble_eq_true rfl) (by rw [hput]; exact Nat.add_lt_add_right h 1)).trans
    (congrArg (· + 1) hput)

/-- The line of a switch comes on beside the other of its leg: CMD shows both, XON is set, the leg is counted once, and no latch moves. -/
theorem takeCommands_met {b : Bridge} {j : Switch} {s : State} (hoff : s.bit (F.GD_GW_CMD b) j = false)
    (hopp : s.bit (F.GD_GW_CMD b) (oppositeSw j) = true) {t : State}
    (ht : t = takeCommands b (withBit (s.get (F.GD_GW_CMD b)) j true) s) :
    t.get (F.GD_GW_CMD b) = withBit (s.get (F.GD_GW_CMD b)) j true ∧ t.on (F.GD_STAT_XON b) = true ∧
      (s.get (F.GD_CNT0_XONCNT b) < 255 → t.get (F.GD_CNT0_XONCNT b) = s.get (F.GD_CNT0_XONCNT b) + 1) ∧
      ∀ k, t.bit (F.GD_STAT_LEGOUT b) k = s.bit (F.GD_STAT_LEGOUT b) k := by
  rw [takeCommands_eq, crossLegs_of_met hoff hopp, List.foldl_cons, List.foldl_nil] at ht
  have hcmd : withBit (s.get (F.GD_GW_CMD b)) j true < 2 ^ 6 := withBit_lt (State.get_lt s (F.GD_GW_CMD b)) j.isLt true
  generalize withBit (s.get (F.GD_GW_CMD b)) j true = cmd at ht hcmd
  have hshown := butFor_commandsShown b cmd s
  have hcross := butFor_crossNoted b (commandsShown b cmd s)
  have hdrive := ht ▸ butFor_driveBridge_self b (crossNoted b (commandsShown b cmd s))
  have hbefore := hshown.get (F.GD_CNT0_XONCNT b)
  refine ⟨?_, ?_, fun hlt => ?_, fun k => ?_⟩
  · rw [hdrive.get (F.GD_GW_CMD b), hcross.get (F.GD_GW_CMD b), commandsShown_cmd b hcmd]
  · rw [hdrive.on (F.GD_STAT_XON b), crossNoted_xon]
  · rw [hdrive.get (F.GD_CNT0_XONCNT b), crossNoted_count (by rwa [hbefore]), hbefore]
  · rw [hdrive.bit (F.GD_STAT_LEGOUT b) k, hcross.bit (F.GD_STAT_LEGOUT b) k, hshown.bit (F.GD_STAT_LEGOUT b) k]

end Sys2Proof.Machine

open Sys2Proof Sys2Proof.Machine in
/-- Settles O40: an edge by whether it is MC's own and whether both lines of its leg meet, a phase's end by the phase it ends, a slope
time-out by the slope it cuts. -/
theorem gateTransitions : Obligations.GateTransitions := by
  unfold Obligations.GateTransitions
  refine ⟨?own, ?other, ?met, ?admitted, ?phase, ?slope, ?blanking⟩
  case own =>
    intro s b j on hown hapart
    exact congrArg Host.Outcome.next ((commandEdge_of_own hown.2 hown.1).trans (takeCommands_of_apart hapart b s))
  case other => exact fun s b j on hother hfree => congrArg Host.Outcome.next (commandEdge_of_other hother.2 hother.1 hfree)
  case met =>
    intro s b j hoff hopp
    obtain ⟨u, hu, hedge⟩ := commandEdge_of_met hopp
    rw [← hu.get (F.GD_GW_CMD b)] at hedge
    obtain ⟨hcmd, hflag, hcount, hlatches⟩ :=
      takeCommands_met (by rwa [hu.bit (F.GD_GW_CMD b) j]) (by rwa [hu.bit (F.GD_GW_CMD b) (oppositeSw j)]) hedge
    rw [hu.get (F.GD_GW_CMD b)] at hcmd
    rw [hu.get (F.GD_CNT0_XONCNT b)] at hcount
    have hne : ((oppositeSw j : Switch) : Nat) ≠ j := Fin.val_ne_of_ne (oppositeSw_ne j)
    have hself : (commandEdge b j true s).bit (F.GD_GW_CMD b) j = true := by rw [State.bit, hcmd, bitAt_withBit_same]
    have hother : (commandEdge b j true s).bit (F.GD_GW_CMD b) (oppositeSw j) = true := by
      rwa [State.bit, hcmd, bitAt_withBit_other true hne]
    refine ⟨_, rfl, hcmd.trans (withBit_of_clear hoff), hflag, hcount, fun hleg => ⟨wanted_of_met hleg hother, ?_⟩,
      fun k => (hlatches k).trans (hu.bit (F.GD_STAT_LEGOUT b) k)⟩
    exact wanted_of_met (by rw [legFin_oppositeSw, hleg]) (by rw [oppositeSw_oppositeSw, hself])
  case admitted =>
    intro s b j hheld hwanted hadmits
    refine ⟨_, congrArg Host.Outcome.next (watchAdmit_of_admitted hheld hwanted hadmits), congrArg Gate.phase (modGateSw_same b j _ _),
      congrArg Gate.blanking (modGateSw_same b j _ _), congrArg Gate.held (modGateSw_same b j _ _), fun i hi => ?_, fun hnative => ?_,
      fun a ha => ?_⟩
    · rw [modGateSw_other _ _ _ _ hi, State.when]
      split
      · by_cases hopp : i = oppositeSw j
        · subst hopp
          exact showOn_sw_same b (oppositeSw j) false s
        · rw [showOn_sw_other b _ false s hopp]
      · rfl
    · rw [modGateSw_bit, State.when, if_pos (by rw [hnative]; rfl), showOn_bit_same]
    · exact ite_keeps (π := fun t : State => t.rd a) (showOn_rd_other b _ false s ha) rfl
  case phase =>
    intro s b j
    cases hphase : s.gate[b.val].sw[j.val].phase with
    | preCharge =>
      obtain ⟨t, hexec, hnext, -, hframe⟩ := gatePhaseEnd_next (phaseEnd_of_preCharge hphase)
      exact ⟨t, hexec, hnext, nofun, nofun, hframe⟩
    | slopeOn =>
      obtain ⟨t, hexec, hnext, hon, hframe⟩ := gatePhaseEnd_next (phaseEnd_of_slopeOn hphase)
      exact ⟨t, hexec, hnext, fun _ => hon, nofun, hframe⟩
    | preDischarge =>
      obtain ⟨t, hexec, hnext, -, hframe⟩ := gatePhaseEnd_next (phaseEnd_of_preDischarge hphase)
      exact ⟨t, hexec, hnext, nofun, nofun, hframe⟩
    | slopeOff =>
      obtain ⟨t, hexec, hnext, hoff, hframe⟩ := gatePhaseEnd_next (phaseEnd_of_slopeOff hphase)
      exact ⟨t, hexec, hnext, nofun, fun _ hbelow => hoff (by rw [hbelow]; rfl), hframe⟩
    | onHold =>
      have hend := phaseEnd_of_hold (.inl hphase)
      exact ⟨s, congrArg Host.Outcome.next hend, hphase, nofun, nofun, fun _ _ => ⟨rfl, rfl⟩, fun _ _ => rfl, rfl⟩
    | offHold =>
      have hend := phaseEnd_of_hold (.inr hphase)
      exact ⟨s, congrArg Host.Outcome.next hend, hphase, nofun, nofun, fun _ _ => ⟨rfl, rfl⟩, fun _ _ => rfl, rfl⟩
  case slope =>
    intro s b j hphase
    obtain hphase | hphase := hphase
    · rw [if_pos hphase]
      exact slopeTimeout_next (slopeOver_of_slopeOn hphase)
    · rw [if_neg (by rw [hphase]; decide)]
      exact slopeTimeout_next (slopeOver_of_slopeOff hphase)
  case blanking =>
    exact fun s b j => ⟨_, rfl, modGateSw_same b j _ s, fun i hi => modGateSw_other b j _ s hi, rfl⟩
end

section
-- The proofs are elaborated one after another: beside each other they would hold more memory than the check of the whole text has left.
set_option Elab.async false
/-!
SUPPORT. Leg faults (R335, R341, R344 to R349): what a fault latches, what it leaves, and that no command turns its leg on again.
-/
namespace Sys2Proof.Machine

/-! ## What a fault leaves -/

/-- The counters of a bridge's leg faults. -/
def legCounters (b : Bridge) : List Fld := [F.GD_CNT0_HSCCNT b, F.GD_CNT0_NSCCNT b, F.GD_CNT1_SAGCNT b]

/-- `t` is `s` with a fault of leg `k` latched: no command turns the leg on again; the other latches and the counters stand. -/
def LegFaulted (b : Bridge) (k : Fin 3) (cause : Fld) (s t : State) : Prop :=
  t.on cause = true ∧ t.bit (F.GD_STAT_LEGOUT b) k = true ∧ (∀ i : Switch, legFin i = k → wanted t b i = false) ∧
    (∀ i : Fin 3, i ≠ k → t.bit (F.GD_STAT_LEGOUT b) i = s.bit (F.GD_STAT_LEGOUT b) i) ∧ ∀ cnt ∈ legCounters b, t.get cnt = s.get cnt

/-! ## Fields -/

/-- The words that hold the causes of a bridge's legs. -/
def legfltAddrs (b : Bridge) : List Nat := (List.finRange 3).map fun k : Fin 3 => (F.GD_LEGFLT_HSCH b k).addr

/-- `f` is a bit of the causes of a bridge's legs. -/
abbrev LegCause (b : Bridge) (f : Fld) : Prop := f.lo + f.w ≤ 32 ∧ f.w = 1 ∧ f.addr ∈ legfltAddrs b

/-- The marks of the events that the counters could not count. -/
def legMarks (b : Bridge) : List Fld := [F.GD_CNT0_OVF b, F.GD_CNT1_OVF b]

/-- What a leg fault changes beside its cause and its latch. -/
def legFaultFlds (b : Bridge) : List Fld := F.GD_STAT_BOUT b :: F.MC_STAT_DEGR b :: F.MC_STAT_LEGOUT b :: outFlds b

theorem bout_mem_legFaultFlds (b : Bridge) : F.GD_STAT_BOUT b ∈ legFaultFlds b := .head _

theorem degr_mem_legFaultFlds (b : Bridge) : F.MC_STAT_DEGR b ∈ legFaultFlds b := .tail _ (.head _)

theorem legout_mem_legFaultFlds (b : Bridge) : F.MC_STAT_LEGOUT b ∈ legFaultFlds b := .tail _ (.tail _ (.head _))

theorem outFlds_sub_legFaultFlds (b : Bridge) : ∀ f ∈ outFlds b, f ∈ legFaultFlds b := fun _ h => .tail _ (.tail _ (.tail _ h))

/-- The causes have words of their own. -/
theorem legfltAddrs_apart : ∀ b : Bridge, ∀ a ∈ legfltAddrs b,
    (F.GD_STAT_LEGOUT b).addr ≠ a ∧ (∀ g ∈ legFaultFlds b, g.addr ≠ a) ∧ ∀ g ∈ legCounters b, g.addr ≠ a := by decide

theorem disj_of_addr_ne {f g : Fld} (h : f.addr ≠ g.addr) : f.disj g = true := by simp [Fld.disj, h]

theorem LegCause.apart {b : Bridge} {f : Fld} (h : LegCause b f) : f.disj (F.GD_STAT_LEGOUT b) = true ∧
    (F.GD_STAT_LEGOUT b).disj f = true ∧ (∀ g ∈ legFaultFlds b, g.disj f = true) ∧ ∀ cnt ∈ legCounters b, f.disj cnt = true := by
  obtain ⟨-, -, haddr⟩ := h
  obtain ⟨hlatch, hflds, hcnts⟩ := legfltAddrs_apart b f.addr haddr
  exact ⟨disj_of_addr_ne hlatch.symm, disj_of_addr_ne hlatch, fun g hg => disj_of_addr_ne (hflds g hg),
    fun cnt hcnt => disj_of_addr_ne (hcnts cnt hcnt).symm⟩

theorem legCounters_apart : ∀ b : Bridge, ∀ f ∈ legCounters b, f.lo + f.w ≤ 32 ∧ f.w = 8 ∧ f.disj (F.GD_STAT_LEGOUT b) = true ∧
    (F.GD_STAT_LEGOUT b).disj f = true ∧ ∀ g ∈ legFaultFlds b, g.disj f = true := by decide

theorem legMarks_apart : ∀ b : Bridge, ∀ f ∈ legMarks b, f.disj (F.GD_STAT_LEGOUT b) = true := by decide

/-! ## What a leg's switches and the MC block do -/

section
variable {A : List Fld} {u s : State} (h : ButFor A u s) (b : Bridge)
include h

theorem butFor_legOff (hA : ∀ f ∈ gateFlds b, f ∈ A) (k : Fin 3) (short : Bool) : ButFor A u (legOff b k short s) :=
  butFor_turnOffSw (butFor_turnOffSw h b hA _ _) b hA _ _

theorem butFor_bridgeOut (hA : ∀ f ∈ legFaultFlds b, f ∈ A) : ButFor A u (bridgeOut b s) := by
  have hout : ∀ f ∈ outFlds b, f ∈ A := fun f hf => hA f (outFlds_sub_legFaultFlds b f hf)
  have hgate := gateFlds_of_outFlds hout
  have hoff : ButFor A u (bridgeOff b s) :=
    butFor_legOff (butFor_legOff (butFor_legOff h b hgate 0 false) b hgate 1 false) b hgate 2 false
  have hput := (hoff.put (hA _ (bout_mem_legFaultFlds b)) 1).put (hA _ (degr_mem_legFaultFlds b)) 0
  exact butFor_reportBridgeOut (butFor_mcOut hput b hout) b hout

theorem butFor_mcLegOut (hA : ∀ f ∈ legFaultFlds b, f ∈ A) : ButFor A u (mcLegOut b s) := by
  have hout : ∀ f ∈ outFlds b, f ∈ A := fun f hf => hA f (outFlds_sub_legFaultFlds b f hf)
  have hwithdraw := withdrawFlds_of_outFlds hout
  have hmc := butFor_mcOut h b hout
  have hreport : ButFor A u (reportLaneFault b (mcOut b s)) := ButFor.ite (butFor_withdraw hmc hwithdraw 1) hmc
  have htwo : ButFor A u (followGates b (degrade (s.put (F.MC_STAT_DEGR b) 1))) :=
    butFor_followGates (butFor_degrade (h.put (hA _ (degr_mem_legFaultFlds b)) 1) hwithdraw) b (gateFlds_of_outFlds hout)
  exact ButFor.ite hreport (ButFor.ite htwo (butFor_reportBridgeOut hmc b hout))

end

/-! ## A leg fault -/

/-- The cause and the leg's latch set. -/
def legLatched (b : Bridge) (k : Fin 3) (cause : Fld) (s : State) : State := (s.put cause 1).putBit (F.GD_STAT_LEGOUT b) k true

/-- Once the cause and the latch are set a fault reaches neither again. -/
theorem butFor_legFault (b : Bridge) (k : Fin 3) (cause : Fld) (short : Bool) (s : State) :
    ButFor (legFaultFlds b) (legLatched b k cause (legOff b k short s)) (driveBridge b (legFault b k cause short s)) := by
  have hline : ButFor (legFaultFlds b) (legLatched b k cause (legOff b k short s))
      ((legLatched b k cause (legOff b k short s)).putBit (F.MC_STAT_LEGOUT b) k true) :=
    (ButFor.refl _).putBit (legout_mem_legFaultFlds b) _ _
  have hfault : ButFor (legFaultFlds b) (legLatched b k cause (legOff b k short s)) (legFault b k cause short s) :=
    ButFor.ite (ButFor.ite hline (butFor_bridgeOut hline b fun _ => id)) (ButFor.ite hline (butFor_mcLegOut hline b fun _ => id))
  exact butFor_driveBridge hfault b (gateFlds_of_outFlds (outFlds_sub_legFaultFlds b))

/-- Row 3 of R353: a latched leg is at high impedance, and its switches are asked to be off. -/
theorem wanted_of_latched {s : State} {b : Bridge} {i : Switch} (h : s.bit (F.GD_STAT_LEGOUT b) (legFin i) = true) :
    wanted s b i = false := by
  have hleg : legState s b (legFin i) = .highImpedance := by simp [legState, h]
  simp [wanted, hleg]

theorem legFaulted_driven {b : Bridge} {cause : Fld} (hcause : LegCause b cause) (k : Fin 3) (short : Bool) (s : State) :
    LegFaulted b k cause s (driveBridge b (legFault b k cause short s)) := by
  obtain ⟨hdlatch, hlatchd, hfld, hcnts⟩ := hcause.apart
  obtain ⟨hle, hone, -⟩ := hcause
  have hk : (k : Nat) < (F.GD_STAT_LEGOUT b).w := k.isLt
  have hlatchLe : (F.GD_STAT_LEGOUT b).lo + (F.GD_STAT_LEGOUT b).w ≤ 32 := Nat.le_of_ble_eq_true rfl
  have hfault := butFor_legFault b k cause short s
  have hlegout := hfault.bit (F.GD_STAT_LEGOUT b)
  have hoff : ButFor (gateFlds b) s (legOff b k short s) := butFor_legOff (.refl s) b (fun _ => id) k short
  have hlatched : (driveBridge b (legFault b k cause short s)).bit (F.GD_STAT_LEGOUT b) k = true :=
    (hlegout k).trans (State.bit_putBit_same _ true hk hlatchLe)
  refine ⟨?cause, hlatched, fun i hi => wanted_of_latched (by rw [hi, hlatched]), fun i hi => ?others, fun cnt hcnt => ?counts⟩
  case cause =>
    have hset : (legLatched b k cause (legOff b k short s)).on cause = true :=
      (State.on_put_disj _ _ _ _ hle hlatchd).trans ((State.on_put_same _ _ _ hle).trans (by rw [hone]; rfl))
    exact (congrArg (· == 1) (hfault.kept cause hle hfld)).trans hset
  case others =>
    have hlatch : (legLatched b k cause (legOff b k short s)).bit (F.GD_STAT_LEGOUT b) i =
        (legOff b k short s).bit (F.GD_STAT_LEGOUT b) i :=
      (State.bit_putBit_other _ true (Fin.val_ne_of_ne hi) i.isLt hlatchLe).trans (State.bit_put_disj _ _ _ _ _ hlatchLe hdlatch)
    rw [hlegout i, hlatch, hoff.bit (F.GD_STAT_LEGOUT b) i]
  case counts =>
    obtain ⟨hcle, -, -, hlatchcnt, hcfld⟩ := legCounters_apart b cnt hcnt
    have hlatch : (legLatched b k cause (legOff b k short s)).get cnt = (legOff b k short s).get cnt :=
      (State.get_put_disj _ _ _ _ hcle hlatchcnt).trans (State.get_put_disj _ _ _ _ hcle (hcnts cnt hcnt))
    rw [hfault.kept cnt hcle hcfld, hlatch]
    exact hoff.kept cnt hcle fun f hf => hcfld f (gateFlds_of_outFlds (outFlds_sub_legFaultFlds b) f hf)

/-- A fault counted first: a counter below its maximum goes up by one, and the latches are those from before the count. -/
theorem LegFaulted.of_counted {b : Bridge} {k : Fin 3} {cause cnt ovf : Fld} {i : Nat} {s u t : State} (hcnt : cnt ∈ legCounters b)
    (hovf : ovf ∈ legMarks b) (hu : ButFor [] (s.countBit cnt ovf i) u) (h : LegFaulted b k cause u t) :
    t.on cause = true ∧ t.bit (F.GD_STAT_LEGOUT b) k = true ∧ (s.get cnt < 255 → t.get cnt = s.get cnt + 1) ∧
      (∀ i : Switch, legFin i = k → wanted t b i = false) ∧
      ∀ m : Fin 3, m ≠ k → t.bit (F.GD_STAT_LEGOUT b) m = s.bit (F.GD_STAT_LEGOUT b) m := by
  obtain ⟨hle, hw, hlatch, -, -⟩ := legCounters_apart b cnt hcnt
  have hlatchLe : (F.GD_STAT_LEGOUT b).lo + (F.GD_STAT_LEGOUT b).w ≤ 32 := Nat.le_of_ble_eq_true rfl
  obtain ⟨hcause, hlatched, hoff, hothers, hcounts⟩ := h
  refine ⟨hcause, hlatched, fun hlt => ?_, hoff, fun m hm => ?_⟩
  · rw [hcounts cnt hcnt, hu.kept cnt hle nofun]
    exact State.get_countBit_of_below hle (by rw [hw]; exact Nat.add_lt_add_right hlt 1)
  · rw [hothers m hm, hu.bit (F.GD_STAT_LEGOUT b) m hlatchLe nofun]
    have hboth : ∀ f ∈ [cnt, ovf], f.disj (F.GD_STAT_LEGOUT b) = true :=
      List.forall_mem_cons.mpr ⟨hlatch, List.forall_mem_singleton.mpr (legMarks_apart b ovf hovf)⟩
    exact ((ButFor.refl s).countBit (A := [cnt, ovf]) (.head _) (.tail _ (.head _)) i).bit (F.GD_STAT_LEGOUT b) m hlatchLe hboth

/-- The cause of a fault that names the high or the low switch. -/
theorem on_of_side {t : State} {j : Switch} {f g : Fld} (h : t.on (if j.val < 3 then f else g) = true) :
    (j.val < 3 → t.on f = true) ∧ (3 ≤ j.val → t.on g = true) :=
  ⟨fun hj => by rwa [if_pos hj] at h, fun hj => by rwa [if_neg (Nat.not_lt.mpr hj)] at h⟩

theorem gateCause_of_low {j : Switch} (hj : 3 ≤ j.val) (b : Bridge) : gateCause b j = F.GD_LEGFLT_GATEL b (legOf j) :=
  if_neg (Nat.not_lt.mpr hj)

theorem legCause_gateCause : ∀ (b : Bridge) (j : Switch), LegCause b (gateCause b j) := by decide

theorem legCause_of_side : ∀ (b : Bridge) (j : Switch),
    LegCause b (if j.val < 3 then F.GD_LEGFLT_BST b (legOf j) else gateCause b j) ∧
      LegCause b (if j.val < 3 then F.GD_LEGFLT_HSCH b (legOf j) else F.GD_LEGFLT_HSCL b (legOf j)) ∧
      LegCause b (if j.val < 3 then F.GD_LEGFLT_NSCH b (legOf j) else F.GD_LEGFLT_NSCL b (legOf j)) := by decide

end Sys2Proof.Machine
end

section
-- The proofs are elaborated one after another: beside each other they would hold more memory than the check of the whole text has left.
set_option Elab.async false
/-!
SUPPORT. A write of LEGEN (R63, R349, R353): what discards it, the legs that it releases, and what the bridge and the set make of it.
-/
namespace Sys2Proof.Machine

/-! ## What accepts a write -/

/-- No value is out of range where every field takes all of its values. -/
theorem outOfRange_of_full {a : Nat} (hfull : ∀ r ∈ rowsAt a, r.vmin = 0 ∧ r.vmax + 1 = 2 ^ r.w) (v : Word) (s : State) :
    outOfRange s a v = false := by
  refine List.any_eq_false.mpr fun r hr => ?_
  obtain ⟨hmin, hmax⟩ := hfull r hr
  have hlt := r.of_lt v
  have hin : ¬ (r.of v < r.vmin ∨ r.vmax < r.of v) :=
    not_or_intro (by rw [hmin]; exact Nat.not_lt_zero _) (Nat.not_lt.mpr (Nat.le_of_lt_succ (hlt.trans_eq hmax.symm)))
  cases fieldFate s a (s.rd a) v r <;> simp [hin]

theorem accepted_of_allowed {a : Nat} {v : Word} {s : State} (hrows : (rowsAt a).isEmpty = false) (hrange : outOfRange s a v = false)
    (hforb : forbidden s a v (merged s a v) = false) : accepted a v s = true := by
  simp only [accepted, regStore, hrows, hrange, hforb, Bool.or_false, Bool.false_eq_true, if_false, Option.isSome_some]

/-! ## GDx_CTRL -/

/-- The rows of GDx_CTRL: EN, ILMODE, LLSTATE, ASSIDE, LEGEN. -/
def gdEnRow : Row := ⟨0x000, 1, 0, 0, 1, .rw, 0, 0, 1, false⟩
def legenRow : Row := ⟨0x000, 1, 0, 4, 3, .rw, 0, 0, 7, false⟩
def gdCtrlRows : List Row :=
  [gdEnRow, ⟨0x000, 1, 0, 1, 1, .rws, 0, 0, 1, false⟩, ⟨0x000, 1, 0, 2, 1, .rws, 0, 0, 1, false⟩, ⟨0x000, 1, 0, 3, 1, .rws, 0, 0, 1, false⟩,
    legenRow]

theorem rowsAt_gdCtrl (b : Bridge) : rowsAt (gdCtrlAddr b) = gdCtrlRows := by
  match b with
  | 0 | 1 => rfl

theorem accErrFld_gdCtrl : ∀ b : Bridge, accErrFld (gdCtrlAddr b) = some (F.GD_STAT_ACCERR b) := by decide

theorem accErr_gdCtrl (b : Bridge) (s : State) : accErr (gdCtrlAddr b) s = s.put (F.GD_STAT_ACCERR b) 1 := by
  rw [accErr, accErrFld_gdCtrl]

/-- Whether a write enables leg `k` while one of its causes is set (R349). -/
def legCaused (s : State) (b : Bridge) (m : Word) (k : Nat) : Bool :=
  bitAt (legenRow.of m) k && s.rd (F.GD_LEGFLT_HSCH b k).addr != 0

theorem forbidden_gdCtrl (b : Bridge) (s : State) (v m : Word) :
    forbidden s (gdCtrlAddr b) v m = (legCaused s b m 0 || legCaused s b m 1 || legCaused s b m 2) := by
  match b with
  | 0 | 1 => rfl

theorem forbidden_gdCtrl_iff (b : Bridge) (s : State) (v m : Word) :
    forbidden s (gdCtrlAddr b) v m = true ↔ ∃ k : Fin 3, legCaused s b m k = true := by
  rw [forbidden_gdCtrl]
  simp [Fin.exists_fin_succ, or_assoc]

/-! ## The word that LEG_ENABLE writes -/

/-- GDx_CTRL as it stands, with LEGEN replaced. -/
def legWord (b : Bridge) (legs : BitVec 3) (s : State) : Word := (F.GD_CTRL_LEGEN b).write (s.rd (gdCtrlAddr b)) legs.toNat

section
variable (b : Bridge) (legs : BitVec 3) (s : State)

theorem legWord_legen : legenRow.of (legWord b legs s) = legs.toNat :=
  (Fld.read_write (F.GD_CTRL_LEGEN b) (Nat.le_of_ble_eq_true rfl) _ _).trans (Nat.mod_eq_of_lt legs.isLt)

theorem legWord_en : gdEnRow.of (legWord b legs s) = gdEnRow.of (s.rd (gdCtrlAddr b)) :=
  Fld.read_write_disj (F.GD_CTRL_LEGEN b) (F.GD_CTRL_EN b) (Nat.le_of_ble_eq_true rfl) (.inr (Nat.le_of_ble_eq_true rfl)) _ _

/-- The bits by which a write names the legs it enables are LEGEN's. -/
theorem bitAt_legWord (k : Fin 3) : bitAt (legWord b legs s).toNat (4 + k.val) = bitAt legs.toNat k := by
  have hread := legWord_legen b legs s
  rw [Row.of, BitVec.extractLsb'_toNat] at hread
  rw [← hread, bitAt_eq_testBit, bitAt_eq_testBit, Nat.testBit_mod_two_pow, Nat.testBit_shiftRight]
  exact ((congrArg (· && _) (decide_eq_true (p := k.val < 3) k.isLt)).trans (Bool.true_and _)).symm

theorem legen_merged : legenRow.of (merged s (gdCtrlAddr b) (legWord b legs s)) = legs.toNat := by
  have happart : ∀ q ∈ gdCtrlRows, q ≠ legenRow → q.lo + q.w ≤ legenRow.lo ∨ legenRow.lo + legenRow.w ≤ q.lo := by decide
  rw [of_merged (by rw [rowsAt_gdCtrl]; decide) (by decide) (by rw [rowsAt_gdCtrl]; exact happart)]
  exact legWord_legen b legs s

theorem gdEn_merged : gdEnRow.of (merged s (gdCtrlAddr b) (legWord b legs s)) = gdEnRow.of (s.rd (gdCtrlAddr b)) := by
  have happart : ∀ q ∈ gdCtrlRows, q ≠ gdEnRow → q.lo + q.w ≤ gdEnRow.lo ∨ gdEnRow.lo + gdEnRow.w ≤ q.lo := by decide
  rw [of_merged (by rw [rowsAt_gdCtrl]; decide) (by decide) (by rw [rowsAt_gdCtrl]; exact happart)]
  exact fieldAfter_of_same (.inl rfl) (legWord_en b legs s)

theorem legCaused_merged (k : Nat) : legCaused s b (merged s (gdCtrlAddr b) (legWord b legs s)) k =
    (bitAt legs.toNat k && s.rd (F.GD_LEGFLT_HSCH b k).addr != 0) :=
  congrArg (fun n => bitAt n k && s.rd (F.GD_LEGFLT_HSCH b k).addr != 0) (legen_merged b legs s)

end

/-- No leg that a write enables has a cause set. -/
def LegsClear (s : State) (b : Bridge) (legs : BitVec 3) : Prop :=
  ∀ k : Fin 3, bitAt legs.toNat k = true → s.rd (F.GD_LEGFLT_HSCH b k).addr = 0

section
variable {b : Bridge} {legs : BitVec 3} {s : State}

/-- With a cause set on a leg that it names a write of LEGEN is discarded (log entry 35). -/
theorem legEnable_of_caused {k : Fin 3} (hk : bitAt legs.toNat k = true) (hcause : s.rd (F.GD_LEGFLT_HSCH b k).addr ≠ 0) :
    gdCtrlWrite b (legWord b legs s) s = s.put (F.GD_STAT_ACCERR b) 1 := by
  have hforb : forbidden s (gdCtrlAddr b) (legWord b legs s) (merged s (gdCtrlAddr b) (legWord b legs s)) = true :=
    (forbidden_gdCtrl_iff b s _ _).mpr ⟨k, by rw [legCaused_merged, hk, bne_iff_ne.mpr hcause]; rfl⟩
  exact (regWriteWith_of_not_accepted (not_accepted_of_forbidden hforb) _).trans (accErr_gdCtrl b s)

variable (hclear : LegsClear s b legs)
include hclear

theorem accepted_legWord : accepted (gdCtrlAddr b) (legWord b legs s) s = true := by
  have hfull : ∀ r ∈ gdCtrlRows, r.vmin = 0 ∧ r.vmax + 1 = 2 ^ r.w := by decide
  refine accepted_of_allowed (by rw [rowsAt_gdCtrl]; rfl) (outOfRange_of_full (by rwa [rowsAt_gdCtrl]) _ s)
    (Bool.eq_false_iff.mpr fun h => ?_)
  obtain ⟨k, hk⟩ := (forbidden_gdCtrl_iff b s _ _).mp h
  rw [legCaused_merged, Bool.and_eq_true, bne_iff_ne] at hk
  exact hk.2 (hclear k hk.1)

theorem written_legWord_rd : (written (gdCtrlAddr b) (legWord b legs s) s).rd (gdCtrlAddr b) = merged s (gdCtrlAddr b) (legWord b legs s) :=
  written_rd (accepted_legWord hclear) fun f hf => by
    rw [accErrFld_gdCtrl] at hf
    exact Option.some.inj hf ▸ (by decide : ∀ b : Bridge, (F.GD_STAT_ACCERR b).addr ≠ gdCtrlAddr b) b

theorem written_legen : (written (gdCtrlAddr b) (legWord b legs s) s).get (F.GD_CTRL_LEGEN b) = legs.toNat :=
  (congrArg legenRow.of (written_legWord_rd hclear)).trans (legen_merged b legs s)

theorem written_gdEn : (written (gdCtrlAddr b) (legWord b legs s) s).on (F.GD_CTRL_EN b) = s.on (F.GD_CTRL_EN b) :=
  congrArg (· == 1) ((congrArg gdEnRow.of (written_legWord_rd hclear)).trans (gdEn_merged b legs s))

theorem written_legout : (written (gdCtrlAddr b) (legWord b legs s) s).get (F.GD_STAT_LEGOUT b) = s.get (F.GD_STAT_LEGOUT b) :=
  written_get_other (accepted_legWord hclear) (Nat.le_of_ble_eq_true rfl)
    ((by decide : ∀ b : Bridge, (F.GD_STAT_LEGOUT b).addr ≠ gdCtrlAddr b) b) fun f hf => by
      rw [accErrFld_gdCtrl] at hf
      exact Option.some.inj hf ▸ (by decide : ∀ b : Bridge, (F.GD_STAT_ACCERR b).disj (F.GD_STAT_LEGOUT b) = true) b

end

/-! ## Legs released (R349) -/

/-- The latches of one leg cleared on the driver die: its bit of LEGOUT, and BOUT once no leg is latched. -/
def legCleared (b : Bridge) (k : Fin 3) (s : State) : State :=
  let t := s.putBit (F.GD_STAT_LEGOUT b) k false
  if t.get (F.GD_STAT_LEGOUT b) = 0 then t.put (F.GD_STAT_BOUT b) 0 else t

theorem butFor_releaseLeg_of_latched {b : Bridge} {s : State} {k : Fin 3} (h : s.bit (F.GD_STAT_LEGOUT b) k = true) :
    ButFor [F.MC_STAT_LEGOUT b, F.MC_STAT_DEGR b] (legCleared b k s) (releaseLeg b s k) := by
  have hcleared := ButFor.refl (A := [F.MC_STAT_LEGOUT b, F.MC_STAT_DEGR b]) (legCleared b k s)
  have hline := hcleared.putBit (f := F.MC_STAT_LEGOUT b) (.head _) k false
  rw [releaseLeg, if_pos h]
  exact ButFor.ite (ButFor.ite (hline.put (.tail _ (.head _)) 0) hline) hcleared

theorem releaseLeg_of_clear {b : Bridge} {s : State} {k : Fin 3} (h : s.bit (F.GD_STAT_LEGOUT b) k = false) : releaseLeg b s k = s :=
  if_neg (by simp [h])

/-- The fields that a release changes. -/
def releaseFlds (b : Bridge) : List Fld := [F.GD_STAT_LEGOUT b, F.GD_STAT_BOUT b, F.MC_STAT_LEGOUT b, F.MC_STAT_DEGR b]

theorem butFor_legCleared (b : Bridge) (k : Fin 3) (s : State) : ButFor (releaseFlds b) s (legCleared b k s) := by
  have hbit := (ButFor.refl (A := releaseFlds b) s).putBit (f := F.GD_STAT_LEGOUT b) (.head _) k false
  exact ButFor.ite (hbit.put (.tail _ (.head _)) 0) hbit

theorem butFor_releaseLeg (b : Bridge) (k : Fin 3) (s : State) : ButFor (releaseFlds b) s (releaseLeg b s k) := by
  cases h : s.bit (F.GD_STAT_LEGOUT b) k with
  | false => rw [releaseLeg_of_clear h]; exact .refl s
  | true => exact (butFor_legCleared b k s).trans ((butFor_releaseLeg_of_latched h).mono fun _ hf => .tail _ (.tail _ hf))

theorem releaseLeg_mem (b : Bridge) (k : Fin 3) (s : State) : (releaseLeg b s k).mem = s.mem :=
  have hcleared : (legCleared b k s).mem = s.mem := ite_keeps (π := State.mem) rfl rfl
  ite_keeps (π := State.mem) (ite_keeps (π := State.mem) (ite_keeps (π := State.mem) hcleared hcleared) hcleared) rfl

/-- LEGOUT of one bridge stands where BOUT is cleared. -/
theorem legCleared_legout (b : Bridge) (k : Fin 3) (s : State) :
    (legCleared b k s).get (F.GD_STAT_LEGOUT b) = (s.putBit (F.GD_STAT_LEGOUT b) k false).get (F.GD_STAT_LEGOUT b) :=
  ite_keeps (π := fun t : State => t.get (F.GD_STAT_LEGOUT b)) (State.get_put_apart _ _ _ _) rfl

theorem legCleared_bit (b : Bridge) (k i : Fin 3) (s : State) :
    (legCleared b k s).bit (F.GD_STAT_LEGOUT b) i = (s.bit (F.GD_STAT_LEGOUT b) i && !decide (k = i)) := by
  have hle : (F.GD_STAT_LEGOUT b).lo + (F.GD_STAT_LEGOUT b).w ≤ 32 := Nat.le_of_ble_eq_true rfl
  have hbout : (legCleared b k s).bit (F.GD_STAT_LEGOUT b) i = (s.putBit (F.GD_STAT_LEGOUT b) k false).bit (F.GD_STAT_LEGOUT b) i :=
    congrArg (bitAt · i) (legCleared_legout b k s)
  rw [hbout]
  by_cases hki : k = i
  · subst hki
    rw [State.bit_putBit_same s false k.isLt hle, decide_eq_true rfl, Bool.not_true, Bool.and_false]
  · rw [State.bit_putBit_other s false (Fin.val_ne_of_ne (Ne.symm hki)) i.isLt hle, decide_eq_false hki, Bool.not_false, Bool.and_true]

theorem releaseLeg_bit (b : Bridge) (k i : Fin 3) (s : State) :
    (releaseLeg b s k).bit (F.GD_STAT_LEGOUT b) i = (s.bit (F.GD_STAT_LEGOUT b) i && !decide (k = i)) := by
  cases h : s.bit (F.GD_STAT_LEGOUT b) k with
  | true => rw [(butFor_releaseLeg_of_latched h).bit (F.GD_STAT_LEGOUT b) i, legCleared_bit]
  | false =>
    rw [releaseLeg_of_clear h]
    by_cases hki : k = i
    · subst hki
      rw [h, Bool.false_and]
    · rw [decide_eq_false hki, Bool.not_false, Bool.and_true]

/-- A release that leaves no leg latched clears BOUT. -/
theorem releaseLeg_bout {b : Bridge} {s : State} (k : Fin 3) (h : s.get (F.GD_STAT_LEGOUT b) = 0 → s.on (F.GD_STAT_BOUT b) = false)
    (hzero : (releaseLeg b s k).get (F.GD_STAT_LEGOUT b) = 0) : (releaseLeg b s k).on (F.GD_STAT_BOUT b) = false := by
  cases hlatch : s.bit (F.GD_STAT_LEGOUT b) k with
  | false =>
    rw [releaseLeg_of_clear hlatch] at hzero ⊢
    exact h hzero
  | true =>
    have hrel := butFor_releaseLeg_of_latched hlatch
    rw [hrel.get (F.GD_STAT_LEGOUT b)] at hzero
    rw [hrel.on (F.GD_STAT_BOUT b)]
    have hbout : legCleared b k s = (s.putBit (F.GD_STAT_LEGOUT b) k false).put (F.GD_STAT_BOUT b) 0 :=
      if_pos ((legCleared_legout b k s).symm.trans hzero)
    rw [hbout, State.on_put_same _ _ _ (Nat.le_of_ble_eq_true rfl)]
    rfl

/-- The legs of a list that a choice names, released in turn. -/
def legsReleased (b : Bridge) (p : Fin 3 → Bool) (l : List (Fin 3)) (s : State) : State :=
  l.foldl (fun s k => if p k then releaseLeg b s k else s) s

section
variable (b : Bridge) (p : Fin 3 → Bool)

theorem butFor_legsReleased (l : List (Fin 3)) (s : State) : ButFor (releaseFlds b) s (legsReleased b p l s) :=
  ButFor.foldl (fun t k ht => ButFor.ite (ht.trans (butFor_releaseLeg b k t)) ht) l (.refl s)

theorem legsReleased_mem (l : List (Fin 3)) (s : State) : (legsReleased b p l s).mem = s.mem :=
  foldl_keeps (fun t k => ite_keeps (π := State.mem) (releaseLeg_mem b k t) rfl) l s

/-- A leg's latch stands but where the leg is released. -/
theorem legsReleased_bit (l : List (Fin 3)) (s : State) (i : Fin 3) :
    (legsReleased b p l s).bit (F.GD_STAT_LEGOUT b) i = (s.bit (F.GD_STAT_LEGOUT b) i && !(decide (i ∈ l) && p i)) := by
  induction l generalizing s with
  | nil => exact (Bool.and_true _).symm
  | cons k l ih =>
    have hstep : (if p k then releaseLeg b s k else s).bit (F.GD_STAT_LEGOUT b) i =
        (s.bit (F.GD_STAT_LEGOUT b) i && !(decide (k = i) && p k)) := by
      cases p k with
      | false => rw [if_neg Bool.false_ne_true, Bool.and_false, Bool.not_false, Bool.and_true]
      | true => rw [if_pos rfl, releaseLeg_bit, Bool.and_true]
    refine (ih _).trans ?_
    rw [hstep]
    by_cases hki : k = i
    · subst hki
      cases p k <;> simp
    · simp [hki, Ne.symm hki]

theorem legsReleased_bout (l : List (Fin 3)) {s : State} (h : s.get (F.GD_STAT_LEGOUT b) = 0 → s.on (F.GD_STAT_BOUT b) = false)
    (hzero : (legsReleased b p l s).get (F.GD_STAT_LEGOUT b) = 0) : (legsReleased b p l s).on (F.GD_STAT_BOUT b) = false := by
  induction l generalizing s with
  | nil => exact h hzero
  | cons k l ih =>
    refine ih (s := if p k then releaseLeg b s k else s) ?_ hzero
    split
    · exact releaseLeg_bout k h
    · exact h

end

/-! ## The hold after a loss of the link, through what bridge and set make of a write (R63) -/

/-- The hold of bridge `c`. -/
def heldAt (c : Bridge) (s : State) : Bool := s.gate[c.val].linkHold

section
variable (c b : Bridge)

theorem heldAt_put (s : State) (f : Fld) (v : Nat) : heldAt c (s.put f v) = heldAt c s := rfl

theorem heldAt_restSwitch (j : Switch) (s : State) : heldAt c (restSwitch b j s) = heldAt c s :=
  ite_keeps (π := heldAt c) rfl ((modGateSw_linkHold b j _ _ c).trans (ite_keeps (π := heldAt c) (showOn_linkHold b j true s c) rfl))

theorem heldAt_startSwitch (j : Switch) (s : State) : heldAt c (startSwitch b j s) = heldAt c s :=
  ite_keeps (π := heldAt c) rfl (ite_keeps (π := heldAt c) (modGateSw_linkHold b j _ s c) (modGateSw_linkHold b j _ s c))

theorem heldAt_driveBridge (s : State) : heldAt c (driveBridge b s) = heldAt c s :=
  (foldl_keeps (π := heldAt c) (fun t j => heldAt_startSwitch c b j t) _ _).trans
    (foldl_keeps (π := heldAt c) (fun t j => heldAt_restSwitch c b j t) _ s)

theorem heldAt_commandsShown (cmd : Nat) (s : State) : heldAt c (commandsShown b cmd s) = heldAt c s :=
  foldl_keeps (π := heldAt c) (fun t j => ite_keeps (π := heldAt c) (modGateSw_linkHold b j _ t c) rfl) _ s

theorem heldAt_crossNoted (s : State) : heldAt c (crossNoted b s) = heldAt c s := ite_keeps (π := heldAt c) rfl rfl

theorem heldAt_takeCommands (cmd : Nat) (s : State) : heldAt c (takeCommands b cmd s) = heldAt c s :=
  (heldAt_driveBridge c b _).trans <|
    (foldl_keeps (fun t _ => heldAt_crossNoted c b t) (crossLegs (s.get (F.GD_GW_CMD b)) cmd) _).trans (heldAt_commandsShown c b cmd s)

theorem heldAt_requestShort (on : Bool) (s : State) : heldAt c (requestShort b on s) = heldAt c s :=
  ite_keeps (π := heldAt c) rfl (heldAt_takeCommands c b _ _)

theorem heldAt_holdEnd (s : State) : heldAt c (holdEnd s) = heldAt c s :=
  ite_keeps (π := heldAt c) ((ite_keeps (π := heldAt c) (heldAt_requestShort c 1 false _) rfl).trans
    (ite_keeps (π := heldAt c) (heldAt_requestShort c 0 false _) rfl)) rfl

theorem heldAt_sendOn (ty : Nat) (f : EbpFrame) (e : Port) (s : State) : heldAt c (sendOn ty f e s) = heldAt c s :=
  ite_keeps (π := heldAt c) rfl rfl

theorem heldAt_sendFrame (ty : Nat) (p : List Byte) (s : State) : heldAt c (sendFrame ty p s) = heldAt c s :=
  (heldAt_sendOn c _ _ _ _).trans (heldAt_sendOn c _ _ _ _)

theorem heldAt_becomeLead (x : Shares) (s : State) : heldAt c (becomeLead x s) = heldAt c s :=
  (heldAt_sendFrame c 2 _ _).trans (ite_keeps (π := heldAt c) rfl rfl)

theorem heldAt_soloLead (s : State) : heldAt c (soloLead s) = heldAt c s :=
  ite_keeps (π := heldAt c) ((ite_keeps (π := heldAt c) (heldAt_put c _ _ _) rfl).trans <|
    (heldAt_put c _ _ _).trans <| (heldAt_becomeLead c _ _).trans <| heldAt_holdEnd c _) rfl

end

/-! ## LEG_ENABLE -/

/-- The write stored, and the legs that it names released. -/
def legsEnabled (b : Bridge) (legs : BitVec 3) (s : State) : State :=
  legsReleased b (fun k : Fin 3 => bitAt legs.toNat k) (List.finRange 3) (written (gdCtrlAddr b) (legWord b legs s) s)

/-- Row 4 of R353 ends where the link is up. -/
def holdRenewed (b : Bridge) (s : State) : State := s.modGate b (fun g => { g with linkHold := s.driver.linkLost })

theorem legEnable_of_clear {b : Bridge} {legs : BitVec 3} {s : State} (hclear : LegsClear s b legs) :
    gdCtrlWrite b (legWord b legs s) s = soloLead (driveBridge b (holdRenewed b (legsEnabled b legs s))) := by
  have hbits : (fun k : Fin 3 => bitAt (legWord b legs s).toNat (4 + k.val)) = fun k : Fin 3 => bitAt legs.toNat k :=
    funext (bitAt_legWord b legs s)
  rw [gdCtrlWrite, regWriteWith_of_accepted (accepted_legWord hclear)]
  exact congrArg (fun p => soloLead (driveBridge b (holdRenewed b (legsReleased b p (List.finRange 3) _)))) hbits

theorem legsEnabled_legen {b : Bridge} {legs : BitVec 3} {s : State} (hclear : LegsClear s b legs) :
    (legsEnabled b legs s).get (F.GD_CTRL_LEGEN b) = legs.toNat :=
  ((butFor_legsReleased b _ _ _).get (F.GD_CTRL_LEGEN b)).trans (written_legen hclear)

theorem legsEnabled_en {b : Bridge} {legs : BitVec 3} {s : State} (hclear : LegsClear s b legs) :
    (legsEnabled b legs s).on (F.GD_CTRL_EN b) = s.on (F.GD_CTRL_EN b) :=
  ((butFor_legsReleased b _ _ _).on (F.GD_CTRL_EN b)).trans (written_gdEn hclear)

theorem legsEnabled_legout {b : Bridge} {legs : BitVec 3} {s : State} (hclear : LegsClear s b legs) (k : Fin 3) :
    (legsEnabled b legs s).bit (F.GD_STAT_LEGOUT b) k = (s.bit (F.GD_STAT_LEGOUT b) k && !bitAt legs.toNat k) :=
  (legsReleased_bit b _ _ _ k).trans <| by
    rw [State.bit, written_legout hclear, decide_eq_true (List.mem_finRange k), Bool.true_and, State.bit]

/-- The last latch released clears BOUT. -/
theorem legsEnabled_bout {b : Bridge} {legs : BitVec 3} {s : State} (hclear : LegsClear s b legs)
    (hzero : (legsEnabled b legs s).get (F.GD_STAT_LEGOUT b) = 0) (hsome : s.get (F.GD_STAT_LEGOUT b) ≠ 0) :
    (legsEnabled b legs s).on (F.GD_STAT_BOUT b) = false :=
  legsReleased_bout b _ _ (fun h => absurd ((written_legout hclear).symm.trans h) hsome) hzero

/-- What bridge and set make of a write reaches their own fields alone. -/
theorem butFor_legsFollowed (b : Bridge) (s : State) : ButFor leadFlds s (soloLead (driveBridge b (holdRenewed b s))) :=
  butFor_soloLead (butFor_driveBridge ((ButFor.refl s).modGate b _) b (gateFlds_sub_leadFlds b))

theorem legsFollowed_mem (b : Bridge) (s : State) : (soloLead (driveBridge b (holdRenewed b s))).mem = s.mem :=
  (aside_soloLead _).mem.trans (gateFree_mem.driveBridge b _)

theorem legsFollowed_linkHold (b : Bridge) (s : State) :
    (soloLead (driveBridge b (holdRenewed b s))).gate[b.val].linkHold = s.driver.linkLost :=
  (heldAt_soloLead b _).trans <| (heldAt_driveBridge b b _).trans <| congrArg GateBridge.linkHold (upd_same s.gate b _)

theorem legsEnabled_driver (b : Bridge) (legs : BitVec 3) (s : State) : (legsEnabled b legs s).driver = s.driver := by
  obtain ⟨r, hr⟩ := written_eq (gdCtrlAddr b) (legWord b legs s) s
  exact (butFor_legsReleased b _ _ _).driver.trans (by rw [hr])

theorem legsEnabled_mem (b : Bridge) (legs : BitVec 3) (s : State) : (legsEnabled b legs s).mem = s.mem :=
  (legsReleased_mem b _ _ _).trans (written_mem _ _ _)

/-- While both dies count the link as up the write reaches GDx_CTRL. -/
theorem exec_legEnable {s : State} (hruns : coreStopped s = false) (hlogic : s.sys.linkLost = false) (hdriver : s.driver.linkLost = false)
    (b : Bridge) (legs : BitVec 3) : exec (.legEnable b legs) s = .next (gdCtrlWrite b (legWord b legs s) s) := by
  have haccess : driverAccess true (gdCtrlWrite b (legWord b legs s)) s = gdCtrlWrite b (legWord b legs s) s := by
    simp [driverAccess, hlogic, hdriver]
  exact (clockedOut_of_running hruns _).trans (congrArg _ haccess)

end Sys2Proof.Machine

open Sys2Proof Sys2Proof.Machine in
/-- Settles O41: each fault is counted where it counts and then latched (`legFaulted_driven`); a write of LEGEN stores its field, releases the
legs it names (`legsReleased_bit`) and is followed by bridge and set, or is discarded. -/
theorem legFaults : Obligations.LegFaults := by
  unfold Obligations.LegFaults
  refine ⟨?timeout, ?sag, ?sagUnder, ?hard, ?shortOff, ?normal, ?normalHeld, ?enable, ?discarded, ?stopped⟩
  case timeout =>
    intro s b j hheld hnative
    have hfault := legFaulted_driven (legCause_gateCause b (oppositeSw j)) (legFin j) false s
    obtain ⟨hcause, hlatched, hoff, hothers, -⟩ := hfault
    exact ⟨_, congrArg Host.Outcome.next (if_pos (by rw [hheld, hnative]; rfl)), hcause, hlatched, hoff, hothers⟩
  case sag =>
    intro s b j hhold hvdrv
    obtain ⟨hmem, -, -⟩ := legCause_of_side b j
    have hfault := legFaulted_driven hmem (legFin j) false (s.countBit (F.GD_CNT1_SAGCNT b) (F.GD_CNT1_OVF b) 1)
    obtain ⟨hcause, hlatched, hcount, hoff, hothers⟩ := hfault.of_counted (.tail _ (.tail _ (.head _))) (.tail _ (.head _)) (.refl _)
    obtain ⟨hhigh, hlow⟩ := on_of_side hcause
    exact ⟨_, congrArg Host.Outcome.next (if_pos ⟨hhold, hvdrv⟩), hhigh, fun hj => gateCause_of_low hj b ▸ hlow hj, hlatched,
      hcount, hoff, hothers⟩
  case sagUnder =>
    intro s b j hunder
    refine congrArg Host.Outcome.next (if_neg fun h => ?_)
    exact absurd (hunder.symm.trans h.2) (by decide)
  case hard =>
    intro s b j hon
    obtain ⟨-, hmem, -⟩ := legCause_of_side b j
    have hfault := legFaulted_driven hmem (legFin j) true
      (wearOne (wearHard b j) (s.countBit (F.GD_CNT0_HSCCNT b) (F.GD_CNT0_OVF b) 0))
    obtain ⟨hcause, hlatched, hcount, hoff, hothers⟩ := hfault.of_counted (.head _) (.head _) (butFor_wearOne (.refl _) _)
    obtain ⟨hhigh, hlow⟩ := on_of_side hcause
    exact ⟨_, congrArg Host.Outcome.next (if_pos hon), hhigh, hlow, hlatched, hcount, hoff, hothers⟩
  case shortOff =>
    intro s b j hoff
    exact ⟨congrArg Host.Outcome.next (if_neg (by rw [hoff]; decide)), congrArg Host.Outcome.next (if_neg (by rw [hoff]; simp))⟩
  case normal =>
    intro s b j hon hblank hshort
    obtain ⟨-, -, hmem⟩ := legCause_of_side b j
    have hfault := legFaulted_driven hmem (legFin j) true
      (wearOne (wearNormal b j) (s.countBit (F.GD_CNT0_NSCCNT b) (F.GD_CNT0_OVF b) 1))
    obtain ⟨hcause, hlatched, hcount, hoff, hothers⟩ := hfault.of_counted (.tail _ (.head _)) (.head _) (butFor_wearOne (.refl _) _)
    obtain ⟨hhigh, hlow⟩ := on_of_side hcause
    exact ⟨_, congrArg Host.Outcome.next (if_pos (by rw [hon, hblank, hshort]; rfl)), hhigh, hlow, hlatched, hcount, hoff,
      hothers⟩
  case normalHeld =>
    intro s b j hflag hbit
    have hholds : shortHolds s b j = true := by rw [shortHolds, hflag, hbit]; rfl
    exact congrArg Host.Outcome.next (if_neg (by rw [hholds]; simp))
  case enable =>
    intro s b legs hruns hlogic hdriver hclear
    have hkept := butFor_legsFollowed b (legsEnabled b legs s)
    have hlegout := hkept.get (F.GD_STAT_LEGOUT b)
    refine ⟨_, (exec_legEnable hruns hlogic hdriver b legs).trans (congrArg _ (legEnable_of_clear hclear)), ?_, ?_, ?_, fun k => ?_,
      fun hzero hsome => ?_, (legsFollowed_mem b _).trans (legsEnabled_mem b legs s)⟩
    · rw [hkept.get (F.GD_CTRL_LEGEN b), legsEnabled_legen hclear]
    · rw [legsFollowed_linkHold, legsEnabled_driver, hdriver]
    · rw [hkept.on (F.GD_CTRL_EN b), legsEnabled_en hclear]
    · exact (congrArg (bitAt · k) hlegout).trans (legsEnabled_legout hclear k)
    · rw [hlegout] at hzero
      rw [hkept.on (F.GD_STAT_BOUT b), legsEnabled_bout hclear hzero hsome]
  case discarded =>
    intro s b legs k hruns hlogic hdriver hcaused
    exact (exec_legEnable hruns hlogic hdriver b legs).trans (congrArg _ (legEnable_of_caused hcaused.1 hcaused.2))
  case stopped => exact fun s hs => fun _ _ => clockedOut_of_stopped hs _
end
